-- ==== Sys2Proof/Word.lean ====
section
/-!
DEFINITION. The machine words of the device: every register is 32 bits wide (R8), memory is byte-wide, and a register
field is a run of bits of one register with one access code (R10, Table 0.3).
-/

namespace Sys2Proof

/-- A register's contents (R8). -/
abbrev Word := BitVec 32

/-- One byte of memory. -/
abbrev Byte := BitVec 8

/-- A 64-bit memory word as the codes see it (R328). -/
abbrev DWord := BitVec 64

/-- Ceiling division, as the spec's ceil(a / b). -/
def ceilDiv (a b : Nat) : Nat := (a + b - 1) / b

end Sys2Proof

namespace Sys2Proof.Machine

/-- Register access codes, Table 0.3. -/
inductive Access where
  | rw | ro | w1c | w1s | wo | rc | sh | db
  deriving DecidableEq, Repr

/-- One field of a register table: its lowest bit, its width, its access code and its value after a cold start. -/
structure FieldRow where
  lo : Nat
  width : Nat
  acc : Access
  reset : Nat
  deriving DecidableEq, Repr

/-- One line of a register table: the offset of its first instance, the strides and counts of the one or two instance
indices it has, and its fields. -/
structure RegRow where
  base : Nat
  s1 : Nat
  n1 : Nat
  s2 : Nat
  n2 : Nat
  fields : List FieldRow
  deriving DecidableEq, Repr

/-- A named register field: where instance (i, j) of its register stands, and the field's bits. `base` is the offset
that index (0, 0) has or would have. -/
structure Fld where
  base : Nat
  s1 : Nat
  s2 : Nat
  lo : Nat
  width : Nat
  deriving DecidableEq, Repr

end Sys2Proof.Machine
end

