-- ==== Sys2Proof/Syntax.lean ====
section
/-!
DEFINITION. The commands of the device: one constructor of `Instr` per row of spec/opcode_table.json, and the operand
records they carry. The table gives no bits, so operands are plain data; the body of a service command is the bytes of
its table (short bodies read as zeros, R370).
-/

namespace Sys2Proof

/-- Who sent a service command: its queue pair, its tag, the issuing function and the LATCHED bit of its opcode
(Table 19.2). -/
structure CmdEnv where
  qp : Nat
  tag : Nat
  fn : Nat
  latched : Bool
  deriving DecidableEq, Repr

/-- The clocked islands (Table 2.1). -/
inductive Island where
  | lane (n : Nat)
  | pcie
  | hbm (stack : Nat)
  | time
  deriving DecidableEq, Repr

/-- A request presented at an arbiter: the sash it serves (0x0400–0x0403 for a fixed reservation, R62), the tokens one
grant takes, and whether it was presented at or before the period's start (R67). -/
structure ArbReq where
  sash : Nat
  cost : Nat
  deriving DecidableEq, Repr

/-- A received PTP frame (R315): its port, its domain number, its message type (0 Sync, 1 Delay_Req,
8 Follow_Up, 9 Delay_Resp, 11 Announce), its sequenceId, its receive stamp at the MAC (s, ns, 2^−16 ns), its origin or
receive timestamp and correction field, for Announce the currentUtcOffset when valid, and the
port state the best master clock algorithm of IEEE 1588 decides at this message, where it changes: slave or not. -/
structure PtpFrame where
  port : Nat
  domain : Nat
  kind : Nat
  seq : Nat
  sec : Nat
  ns : Nat
  frac : Nat
  tsSec : Nat
  tsNs : Nat
  corr : Int
  oneStep : Bool
  utc : Option Int
  slave : Option Bool
  deriving DecidableEq, Repr

/-- What the codec's syntax says of an RTP packet (R109, Table 6.6): whether it has layers, its spatial and temporal
layer, whether it begins a key picture (IDR, IRAP), whether it is a TSA or STSA picture, whether it completes a refresh sweep of the
device's own ENC units, the decode targets of AV1's dependency descriptor as (S, T, its indication is Switch), and whether it ends its
picture. -/
structure RtpLayer where
  layered : Bool
  s : Nat
  t : Nat
  key : Bool
  switch : Bool
  sweep : Bool
  targets : List (Nat × Nat × Bool)
  eof : Bool
  deriving DecidableEq, Repr

/-- A frame received on an Ethernet port: whether it passes step 1 of Table 6.3, its addresses and UDP ports, its bytes
from the Ethernet header, its UDP payload (in clear where it was SRTP or SRTCP), whether its authentication or
MESSAGE-INTEGRITY and its FINGERPRINT verify, whether it was read from the packet buffer as poison, what its codec's
syntax says of it, the same of each packet that FEC recovers with it, in order, and its SRTCP index; whether its FCS is right, and its SecTAG, where it has one: AN, packet number, and whether it
authenticates (R347, R348). -/
structure RxFrame where
  port : Nat
  udp : Bool
  ipv6 : Bool
  src : List Byte
  dst : List Byte
  sport : Nat
  dport : Nat
  bytes : List Byte
  payload : List Byte
  authOk : Bool
  fpOk : Bool
  poison : Bool
  layer : RtpLayer
  recovered : List RtpLayer
  srtcp : Nat
  fcsOk : Bool
  sec : Option (Nat × Nat × Bool)
  deriving DecidableEq, Repr

/-- A cell error the environment reports: the word's cell address, and the flipped data and check bits. -/
structure CellErr where
  word : Nat
  data : Nat
  check : Nat
  deriving DecidableEq, Repr

/-- An item handed to a cipher lane (R302): its key slot; kind 0 SRTP, 1 SRTCP, 2 MACsec, 3 CENC; whether it is decrypted;
its outbound stream and 16-bit sequence number; the bytes authenticated only and encrypted; the sash whose lane takes it;
whether the slot's key memory reads poisoned; how often the pipelines disagree on it; whether it authenticates under the
current and under the held key. -/
structure CipItem where
  slot : Nat
  kind : Nat
  dec : Bool
  stream : Nat
  seq : Nat
  aad : Nat
  len : Nat
  sash : Nat
  poison : Bool
  mismatches : Nat
  authOk : Bool
  authHeld : Bool
  deriving DecidableEq, Repr

/-- A management write transfer (Table 20.1): its bytes, and whether its MAC verifies under the management key. -/
structure MgmtFrame where
  bytes : List Byte
  macOk : Bool
  deriving DecidableEq, Repr

/-- A memory page that a march test found words failing in (R389): its PAGE channel, the failing words, and whether it
failed in two passes. -/
structure MarchFail where
  channel : Nat
  words : Nat
  twice : Bool
  deriving DecidableEq, Repr

/-- How a step of a start ended (R401): whether it reached its end condition, the pages its march test found failing, the HBM
stacks that trained, the firmware blobs that verified, in image order, and the Lintel cores that did not start. -/
structure StepEnd where
  ok : Bool
  march : List MarchFail
  trained : List Bool
  blobs : List Bool
  cores : List Nat
  deriving DecidableEq, Repr

/-- A stripe's start (R168): unit, channel, rendition, stripe; the complexities of the stripe and of what remains of the frame with
it, from the analysis of the picture. -/
structure EncStart where
  unit : Nat
  sash : Nat
  rend : Nat
  k : Nat
  cx : Nat
  cxRest : Nat
  deriving DecidableEq, Repr

/-- A block coded: its bits in the stripe's mode and in the copy form, the hc it took, whether a residue check failed on it
(R176), and poison: 0 none, 1 of input samples, 2 of reference samples (R177). -/
structure EncBlock where
  unit : Nat
  sash : Nat
  rend : Nat
  bits : Nat
  copyBits : Nat
  hc : Nat
  mismatch : Bool
  poison : Nat
  deriving DecidableEq, Repr

/-- A packet that reaches a DEC unit (R182): sequence number, RTP timestamp, coded bytes, whether it is the first and the
last of its frame, its M bit, and the PANE of the subscription that delivered it. -/
structure DecIn where
  seq : Nat
  ts : Nat
  len : Nat
  start : Bool
  end_ : Bool
  m : Bool
  pane : Nat
  deriving DecidableEq, Repr

/-- What the prediction of a 64 × 64 block reads (R187): blocks of reference pictures as (picture, block), blocks of its own
picture, and whether it read poisoned reference samples. -/
structure DecBlock where
  refs : List (Nat × Nat)
  own : List Nat
  poison : Bool
  deriving DecidableEq, Repr

/-- The profiles of R181; `other` is any other one. -/
inductive DecProfile where
  | av1Main | av1High | av1Pro | hevcMain | hevcMain10 | hevc422 | vvcMain10 | vvc444 | h264Cb | h264Main | h264High | other
  deriving DecidableEq, Repr

/-- What the codec's syntax says of a complete frame (R183–R189): picture size, profile, chroma format (0: 4:2:0, 1: 4:2:2, other values
others) and bit depth; whether it is a key picture; its spatial layer; whether the picture is shown; the identity its codec gives the
picture and those of the pictures it refers to; the pictures that stay references after it, and whether it becomes one; the blocks'
reads in coding order; whether every block repeats the picture output before it; and the picture's bytes. -/
structure DecPicture where
  w : Nat
  h : Nat
  profile : DecProfile
  chroma : Nat
  depth : Nat
  key : Bool
  layer : Nat
  shown : Bool
  id : Nat
  refs : List Nat
  keep : List Nat
  keepSelf : Bool
  blocks : List DecBlock
  unchanged : Bool
  data : List Byte
  deriving DecidableEq, Repr

/-- What the scaler's filters give a video layer on one output line (R193, R194): the layer, its 12-bit Y'CbCr 4:4:4 samples from the
destination's left edge on, and the 512-sample segments of the line that read poisoned samples (R198). -/
structure CmpVideo where
  layer : Nat
  samples : List (Nat × Nat × Nat)
  bad : List Nat
  deriving DecidableEq, Repr

/-- A segment of a sample row in an ST 2110-20 packet (R225): the row, its first luma sample, how many luma samples it holds, its F bit,
and the components in the order of the wire, at the personality's depth: two a luma sample in 4:2:2, three a pair in 4:2:0. -/
structure VinSeg where
  row : Nat
  off : Nat
  px : Nat
  f : Bool
  comps : List Nat
  deriving DecidableEq, Repr

/-- An ancillary packet (R231). -/
structure AncPkt where
  did : Nat
  sdid : Nat
  line : Nat
  data : List Byte
  deriving DecidableEq, Repr

/-- A packet that reaches a VIN (R224): the flow entry its destination matched, its payload type, sequence number (32 bits
for ST 2110-20), RTP timestamp, and what its payload holds: sample rows, samples per audio channel with the channels of
pairs marked as data, or ancillary packets; and whether it was poisoned. -/
structure VinPkt where
  vin : Nat
  entry : Nat
  pt : Nat
  seq : Nat
  ts : Nat
  segs : List VinSeg
  audio : List (List Int)
  marked : List Bool
  anc : List AncPkt
  poison : Bool
  deriving DecidableEq, Repr

/-- An SDI line (R226, R229): whether it is line 1 of its frame, the raster and frame rate (num / den) that its timing reference signals
show, the active row it carries, that row's components in the order of the wire, and its ancillary packets. -/
structure SdiLine where
  vin : Nat
  first : Bool
  w : Nat
  h : Nat
  num : Nat
  den : Nat
  row : Option Nat
  comps : List Nat
  anc : List AncPkt
  deriving DecidableEq, Repr

/-- A CMAF chunk (R237): its TSO; track 0 video, 1 + i audio entry i; the frame; what ISO/IEC 23000-19 and 23001-7 make of it about the
fields that the spec states: the chunk's boxes before the tfdt time, then what stands before each sample's IV, and the rest; the init
segment's boxes before the KID and after it; how many bytes of each sample are encrypted. -/
structure CmafChunk where
  tso : Nat
  track : Nat
  frame : Nat
  head : List Byte
  samples : List (List Byte)
  rest : List Byte
  init : List Byte
  initRest : List Byte
  enc : List Nat
  deriving DecidableEq, Repr

/-- A packet that reaches an audio decode channel (R254): RTP timestamp; the samples it decodes to at 48 kHz, as they enter
the crosspoint; the in-band FEC's samples of the packet before it; whether it is DTX; whether it was poisoned. -/
structure AudIn where
  chan : Nat
  ts : Nat
  pcm : List Int
  fec : List Int
  dtx : Bool
  poison : Bool
  deriving DecidableEq, Repr

/-- What a SERVICE message says (Table 18.4): nothing this device acts on; talker scores of a cluster's conference (leg, score);
a pane stream needs a refresh, or is imported (R218); the RTCP of a leg of KIND 2; the objects of a handover as the bodies of the commands
that make them, with each leg's state and the ns since its consent, and each named slot's mode and direction; the target's answer; an outbound stream's state at the switch
(SSRC, offsets, last sequence number and timestamp, slot generation, SRTP index, retransmission index); a NACK passed to the
source of a handover (R361). -/
inductive SvcMsg where
  | other
  | scores (cluster : Nat) (list : List (Nat × Nat))
  | refresh (spl stream : Nat)
  | paneImport (spl stream rspl rid : Nat)
  | rtcp (leg : Nat) (bytes : List Byte)
  | copy (conf tconf : Nat) (slots : List (Nat × Nat × Bool)) (legs : List (List Byte × Nat × Nat)) (streams subs profs : List (List Byte))
  | copied (conf status : Nat)
  | outState (stream ssrc seqOff tsOff lastSeq lastTs gen top : Nat) (index : List (Nat × Nat × Nat × Nat × Bool))
  | nack (stream seq : Nat)
  deriving DecidableEq, Repr

/-- A sequenced flit as a link's receiver takes it (Table 18.3): its 256 bytes, whether a codeword of it was uncorrectable, what its payload
decrypts to and whether it authenticates where the link is secured (R354), and what the message it ends says to the consumers that parse
one: the layer a media packet names, and the service message. -/
structure JlRx where
  link : Nat
  bytes : List Byte
  lost : Bool
  clear : List Byte
  authOk : Bool
  layer : RtpLayer
  svc : SvcMsg
  deriving DecidableEq, Repr


/-- The commands and events of the device: one constructor per row of the opcode table, each with its operands. -/
inductive Instr where
  /-- REG_WRITE (R10). A host, VF, Lintel or Hinge write to a register field that has no behaviour of its own acts as its access code states; narrow writes are discarded. -/
  | regWrite (fn off size : Nat) (val : BitVec 64)
  /-- SHADOW_WRITE (R78). A write to an SH field sets its shadow and joins the open set of the writing window for the next commit. -/
  | shadowWrite (fn off size : Nat) (val : BitVec 64)
  /-- RC_FIELD_READ (R10). A read of an RC field, such as LVR.RES_PEAK, returns the value and then clears the field. -/
  | rcFieldRead (fn off size : Nat)
  /-- PAIR_LOW_READ (R90). A read of the low register of a 64-bit pair captures the high register for the reading function. -/
  | pairLowRead (fn off size : Nat)
  /-- NOW_FRAC_READ (R311). A read of TIM.NOW_FRAC captures the counter's nanoseconds and seconds for the reading function. -/
  | nowFracRead (fn : Nat)
  /-- CNT_STUCK_CLEAR (R95). A W1C of a block's CNT_STUCK event clears every error counter of that block that reads 0xFFFF_FFFF. -/
  | cntStuckClear (fn off : Nat) (val : Word)
  /-- LOG_SIZE_WRITE (R94). A write to LCH.LOG_SIZE names or removes the event log ring, and naming one writes a pending LOG_LOST record at PROD. -/
  | logSizeWrite (fn : Nat) (val : Word)
  /-- ISLAND_DOWN (R24). A clocked island loses its clock or link, so its synchroniser offers no receive tokens and discards transmit tokens. -/
  | islandDown (isl : Island)
  /-- ISLAND_RETURN (R24). An island's clock returns and its synchroniser resumes at the next packet, flit or burst boundary. -/
  | islandReturn (isl : Island)
  /-- PACE_WINDOW_END (R25). Every 1,024 TIME_REFCLK ticks each pace monitor publishes PACE and validity, and GLB.PACE_SUM is updated. -/
  | paceWindowEnd (counts : List Nat)
  /-- SUPPLY_LOOP_EVALUATION (R26). Every 250 µs the Deadbolt takes the first matching row of Table 2.4 and adjusts VDD_CORE over AVS. -/
  | supplyLoopEvaluation (currentMa : Nat)
  /-- LOUVRE_BOUNDARY (R58). The time counter reaches a whole multiple of 125,000 ns and a new Louvre period begins. -/
  | louvreBoundary (sensors : List (Nat × Int))
  /-- PUBLICATION_DONE (R89). Within 16,384 hc of the boundary the copy ends and LCH.PUB_GEN goes even. -/
  | publicationDone
  /-- ARBITER_GRANT (R64). At a grant opportunity an arbiter grants the first present request by reservation, class rank, slat order and surplus. -/
  | arbiterGrant (kind index : Nat) (reqs : List ArbReq)
  /-- SASH_BUILD_DONE (R31). A sash's paths are set and it enters RUNNING or STALLED, or proceeds with a commit made during the build. -/
  | sashBuildDone (sash : Nat)
  /-- SASH_WORK_BOUNDARY (R31). A draining sash reaches the work boundary of its pacing unit, flips the path epoch and builds its new paths or empties. -/
  | sashWorkBoundary (sash : Nat)
  /-- SPARE_TAKEN (R71). At a retired or tested unit's next work boundary its slats move to the lowest-numbered spare of its type. -/
  | spareTaken (ty inst badReads : Nat)
  /-- LATCH_COMMIT_NEXT (R81). A commit write of MODE NEXT seals the open set into a numbered Latch at the first boundary 4,096 hc later. -/
  | latchCommitNext (fn : Nat) (val : Word) (hcLeft : Nat)
  /-- LATCH_COMMIT_SCHED (R83). A commit write of MODE SCHED seals the open set for the boundary at the scheduled time, sending ARMs when GROUP is set. -/
  | latchCommitSched (fn : Nat) (val : Word) (hcLeft : Nat)
  /-- LATCH_COMMIT_DOMAIN (R79). A commit write of MODE DOMAIN seals only the open writes of one unit or sash domain for its next work boundary. -/
  | latchCommitDomain (fn : Nat) (val : Word)
  /-- ARM_RECEIVE (R87). A LATCH flit carrying an ARM message is kept by tag and time. -/
  | armReceive (dev tag sec ns : Nat)
  /-- ARM_EXPIRY (R87). An ARM is discarded 1 s after the time it names. -/
  | armExpiry (dev tag sec ns : Nat)
  /-- GROUP_GUARD_DECISION (R87). At the guard time a group Latch applies, applies partially, or is cancelled by ABORT. -/
  | groupGuardDecision (num : Nat)
  /-- SNAP_CMD_NEXT (R91). A SNAP_CMD write of MODE NEXT starts a snapshot of the selected sections at the next boundary. -/
  | snapCmdNext (val : Word) (hcLeft : Nat)
  /-- SNAP_CMD_SCHED (R91). A SNAP_CMD write of MODE SCHED starts a snapshot at the scheduled boundary, sending requests to group members when GROUP is set. -/
  | snapCmdSched (val : Word) (hcLeft : Nat)
  /-- SNAP_REQUEST_RECEIVE (R91). A member receives a snapshot request on VC0 and arranges to capture at the same boundary and return its record. -/
  | snapRequestReceive (dev sec ns mask : Nat) (clr : Bool)
  /-- SNAP_RECORD_RECEIVE (R91). The initiator receives a member's device record on VC3 and writes it into its buffer. -/
  | snapRecordReceive (dev : Nat) (rec : List Byte)
  /-- SNAP_MEMBER_TIMEOUT (R92). A member record that has not arrived 100 ms after the boundary is written as MISSING. -/
  | snapMemberTimeout (dev : Nat)
  /-- SNAP_DONE (R92). The last byte of a snapshot is written and SNAP_DONE or SNAP_PARTIAL is raised. -/
  | snapDone
  /-- IMG_DONE (R51). The loader finishes parsing and, for a full commit, requests the load Latch at the next boundary. -/
  | imgDone (hcLeft : Nat)
  /-- FRAME_CLASSIFY (R102). A frame received on an Ethernet port of a forwarding sash is classified by the first matching row of Table 6.3. -/
  | frameClassify (f : RxFrame)
  /-- CONSENT_REQUEST_TIMER (R106). At a randomised consent interval the device sends an ACTIVE leg a signed binding request. -/
  | consentRequestTimer (leg : Nat)
  /-- CONSENT_TIMEOUT (R106). CONSENT_TIMEOUT passes without a valid response and the leg enters CONSENT_LOST with its queues flushed. -/
  | consentTimeout (leg : Nat)
  /-- RTCP_INTERVAL_TIMER (R108). At a randomised RTCP interval the service sends a leg its compound SR or RR, report blocks and SDES. -/
  | rtcpIntervalTimer (leg : Nat)
  /-- CCFB_INTERVAL_TIMER (R117). Every CCFB_INTERVAL the device sends congestion control feedback for a leg's inbound streams. -/
  | ccfbIntervalTimer (leg : Nat)
  /-- ALLOC_INTERVAL_TIMER (R118). Every ALLOC_INTERVAL the service allocates layers to a leg's AUTO subscriptions within its budget. -/
  | allocIntervalTimer (leg : Nat)
  /-- UPSTREAM_NACK_TIMER (R121). A gap older than NACK_WAIT is NACKed upstream and the NACK repeats until arrival or NACK_TRIES. -/
  | upstreamNackTimer (stream seq : Nat)
  /-- KEY_REQUEST_TIMER (R124). A merged key-picture request sends at most one PLI per PLI_GAP and FIR after FIR_AFTER unanswered PLIs. -/
  | keyRequestTimer (stream : Nat) (own : Option (Nat × Nat))
  /-- SWITCH_WAIT_EXPIRY (R111). An UP_PENDING subscription with no switch point within SWITCH_WAIT makes one key-picture request. -/
  | switchWaitExpiry (sub : Nat)
  /-- REMOVAL_DRAIN_DONE (R126). A removed leg, stream, subscription or conference can no longer be reached and its completion is posted. -/
  | removalDrainDone (kind id : Nat)
  /-- CONF_CREATE (R98). Creates an empty local conference. -/
  | confCreate (e : CmdEnv) (body : List Byte)
  /-- CONF_DESTROY (R126). Removes the conference and all its legs, completing when all have drained. -/
  | confDestroy (e : CmdEnv) (body : List Byte)
  /-- LEG_ADD (R106). Creates a leg in CHECKING or ACTIVE. -/
  | legAdd (e : CmdEnv) (body : List Byte)
  /-- LEG_MODIFY (R127). Replaces a leg's parameters, returning it to CHECKING on new credentials, at once or at a Latch. -/
  | legModify (e : CmdEnv) (body : List Byte)
  /-- LEG_REMOVE (R126). Puts a leg in REMOVING and discards its queued copies. -/
  | legRemove (e : CmdEnv) (body : List Byte)
  /-- STREAM_ADD (R98). Creates an inbound or outbound stream. -/
  | streamAdd (e : CmdEnv) (body : List Byte)
  /-- STREAM_DEL (R126). Deletes a stream and every subscription naming it. -/
  | streamDel (e : CmdEnv) (body : List Byte)
  /-- SUB_ADD (R127). Creates a subscription entry appended to its chain, at once or at a Latch. -/
  | subAdd (e : CmdEnv) (body : List Byte)
  /-- SUB_MODIFY (R127). Replaces a subscription's policy, priority, pane, destination, cap and tag. -/
  | subModify (e : CmdEnv) (body : List Byte)
  /-- SUB_DEL (R126). Removes a subscription at the next packet boundary. -/
  | subDel (e : CmdEnv) (body : List Byte)
  /-- LEG_STATS (R125). Returns the leg statistics record. -/
  | legStats (e : CmdEnv) (body : List Byte)
  /-- KEY_REQ (R124). Adds a host key-picture request for an inbound stream. -/
  | keyReq (e : CmdEnv) (body : List Byte)
  /-- SVC_PARAM (R128). Sets a forwarding service key at once. -/
  | svcParam (e : CmdEnv) (body : List Byte)
  /-- FIFO_FLUSH (R138). A write of 1 to QSC.FIFO_CTL.FLUSH empties the FIFO and sets its indices to PROD. -/
  | fifoFlush (fn n : Nat) (val : Word)
  /-- FIFO_SIZE_CHANGE (R138). A write that changes QSC.FIFO_CTL.SIZE resizes the ring and acts as a flush. -/
  | fifoSizeChange (fn n : Nat) (val : Word)
  /-- EGRESS_SCHEDULE (R140). When a port's MAC can accept a frame the scheduler selects a class and queue by gate, length check, limiter and finish tag. -/
  | egressSchedule (p : Nat)
  /-- RATE_WHEEL_SLOT (R142). A rate-limited leg queue reaches its calendar wheel slot and becomes eligible or is re-entered. -/
  | rateWheelSlot (n : Nat)
  /-- GATE_ENTRY_CHANGE (R144). A port's gate control list moves to its next entry or cycle and the gate states change. -/
  | gateEntryChange (p : Nat)
  /-- GCL_TAKEOVER (R145). At the takeover time the pending gate list replaces the current one. -/
  | gclTakeover (p : Nat)
  /-- HEADER_RECORD_RECEIVE (R158). An ENC unit takes a header record at port 1, holding, matching or discarding it by frame. -/
  | headerRecordReceive (unit sash : Nat) (poison : Bool) (rec : List Byte)
  /-- PICTURE_DESCRIPTOR_RECEIVE (R159). An ENC unit with SRC 1 takes a picture descriptor, numbering the frame or dropping it when DISCARD is set. -/
  | pictureDescriptorReceive (unit sash : Nat) (desc : List Byte)
  /-- STRIPE_START (R168). At a stripe start the unit chooses NORMAL, FLOOR or COPY by bits and by the deadline test. -/
  | stripeStart (x : EncStart)
  /-- BLOCK_CODED (R169). Before committing a coded block the unit checks the cap and demotes that block and the rest of the frame to COPY when needed. -/
  | blockCoded (x : EncBlock)
  /-- INPUT_DEADLINE (R163). A stripe whose input is incomplete at E_k minus 20 µs is coded as COPY. -/
  | inputDeadline (unit sash frame k : Nat)
  /-- CODING_DEADLINE (R175). E_k passes with blocks uncoded, which are coded in COPY and counted as demoted. -/
  | codingDeadline (unit sash rend frame k : Nat) (bits : List Nat)
  /-- RELEASE_ROW_TIME (R161). A Live release row reaches its release time and leaves, or is late when incomplete. -/
  | releaseRowTime (unit sash rend frame row : Nat)
  /-- LATE_ROW_RELEASE (R163). A late release row becomes complete and leaves with LATE set. -/
  | lateRowRelease (unit sash rend frame row : Nat)
  /-- ENC_CONFIG (R165). Configures one rendition's rate control and frame parameters, at the next frame start or at a Latch. -/
  | encConfig (e : CmdEnv) (body : List Byte)
  /-- ENC_REFRESH (R171). Requests a refresh sweep or key picture of a channel. -/
  | encRefresh (e : CmdEnv) (body : List Byte)
  /-- ENC_STATS (R178). Returns a rendition's encode statistics. -/
  | encStats (e : CmdEnv) (body : List Byte)
  /-- DEC_PACKET_RECEIVE (R182). A DEC unit takes a copy at port 0 into its context's buffer, completing frames or dropping on overflow. -/
  | decPacketReceive (sash stream : Nat) (p : DecIn)
  /-- DEC_FRAME_LOST_TIMER (R182). WAIT_MS after a later frame's first packet, a frame with an open gap is lost. -/
  | decFrameLostTimer (sash stream : Nat)
  /-- DEC_FRAME_DECODE (R183). A complete frame with a free slot is decoded, conceals on missing or poisoned references, and outputs its descriptor. -/
  | decFrameDecode (sash stream : Nat) (p : DecPicture)
  /-- PICTURE_RELEASE (R185). A consumer releases a decoded picture and its slot is freed when no longer in use. -/
  | pictureRelease (part off : Nat)
  /-- DEC_OPEN (R185). Opens a decode context, taking picture slots from PART. -/
  | decOpen (e : CmdEnv) (body : List Byte)
  /-- DEC_CLOSE (R189). Puts a context in CLOSING until the stream's next frame boundary. -/
  | decClose (e : CmdEnv) (body : List Byte)
  /-- DEC_STATS (R203). Returns a decode context's statistics. -/
  | decStats (e : CmdEnv) (body : List Byte)
  /-- CMP_DESCRIPTOR_RECEIVE (R197). A composer video layer port receives a decoded picture descriptor. -/
  | cmpDescriptorReceive (unit port : Nat) (desc : List Byte)
  /-- CMP_FRAME_INSTANT (R192). At selection instant t_m the composer fixes layer fields and pictures, judges staleness, line-buffer steps and glazing. -/
  | cmpFrameInstant (unit : Nat) (poisonTiles : List Nat)
  /-- CMP_LINE_COMPLETE (R192). An output line completes at the output synchroniser and is counted LATE when past its bound. -/
  | cmpLineComplete (unit : Nat) (video : List CmpVideo)
  /-- PANE_CHUNK_RECEIVE (R210). A splicer takes a pane chunk into its store and emits positions whose payloads are complete. -/
  | paneChunkReceive (spl : Nat) (chunk : List Byte) (poison : Bool)
  /-- TEMPLATE_RECORD_RECEIVE (R211). A splicer takes a template record, replacing any earlier one of that number. -/
  | templateRecordReceive (spl : Nat) (rec : List Byte) (poison : Bool)
  /-- SPLICE_DEADLINE (R215). At a splice frame's deadline incomplete positions are emitted with the hold tile and pending refreshes are judged. -/
  | spliceDeadline (spl frame : Nat)
  /-- SPL_PANESET (R205). Sets or ends pane mode for an ENC rendition. -/
  | splPaneset (e : CmdEnv) (body : List Byte)
  /-- SPL_IMPORT (R218). Maps a remote splicer's pane stream to a local stream ID. -/
  | splImport (e : CmdEnv) (body : List Byte)
  /-- SPL_RECV_ADD (R213). Creates a receiver with a template, outbound stream and position streams. -/
  | splRecvAdd (e : CmdEnv) (body : List Byte)
  /-- SPL_RECV_SET (R216). Changes a receiver's template or streams at a frame at least 2 periods later. -/
  | splRecvSet (e : CmdEnv) (body : List Byte)
  /-- SPL_RECV_DEL (R220). Removes a receiver after its current frame. -/
  | splRecvDel (e : CmdEnv) (body : List Byte)
  /-- SPL_REFRESH (R214). Schedules a batched pane refresh of a stream. -/
  | splRefresh (e : CmdEnv) (body : List Byte)
  /-- SPL_STATS (R221). Returns a receiver's position states and counts. -/
  | splStats (e : CmdEnv) (body : List Byte)
  /-- VIN_PACKET_RECEIVE (R224). A frame matching a VIN flow entry is merged under ST 2022-7 and written to the line store. -/
  | vinPacketReceive (x : VinPkt)
  /-- SDI_LINE_RECEIVE (R229). A 12G-SDI receive lane delivers a line, ANC packets and the line-1 stamp to its VIN. -/
  | sdiLineReceive (x : SdiLine)
  /-- VIN_STRIPE_STREAM (R228). At C_k the VIN streams stripe k's lines to every ENC path, not waiting for missing lines. -/
  | vinStripeStream (vin frame k : Nat)
  /-- VIN_PATH_TIMEOUT (R227). A path with no packet for 100 ms clears its PATH bit. -/
  | vinPathTimeout (vin kind group : Nat) (pathB : Bool)
  /-- VIN_SIGNAL_TIMEOUT (R227). A VIN with no video for 2 frame periods or an unlocked SDI lane enters NO_SIGNAL. -/
  | vinSignalTimeout (vin : Nat)
  /-- SDI_TX_FRAME (R230). An SDI transmit lane starts sending a composer frame, or black, on its raster. -/
  | sdiTxFrame (lane : Nat)
  /-- TSO_ROW_RECEIVE (R235). A release row's data reaches the mux, or input acknowledges are withheld when the buffer is full. -/
  | tsoRowReceive (tso frame row flags cf size : Nat)
  /-- TS_PACKET_SCHEDULE (R235). At time s_j the mux emits TS packet j, or a null packet, and offers datagrams to its system queues. -/
  | tsPacketSchedule (tso : Nat)
  /-- PSI_TIMER (R233). Every 100 ms the TSO sends PAT and PMT. -/
  | psiTimer (tso : Nat)
  /-- CMAF_CHUNK_WRITE (R237). MUX_LAT after a frame's last row the TSO writes its CMAF chunk item, or drops it when the key slot cannot encrypt. -/
  | cmafChunkWrite (x : CmafChunk)
  /-- GAIN_STEP_ZERO_CROSS (R247). A due gain step of a node is applied at a zero crossing of its input. -/
  | gainStepZeroCross (sink : Nat) (source : Option Nat) (sample : Nat)
  /-- GAIN_STEP_TIMEOUT (R247). A due gain step with no zero crossing within ZC_MS is applied at the timeout. -/
  | gainStepTimeout (sink : Nat) (source : Option Nat)
  /-- AS_HOLD_EXPIRY (R250). A fall in active sources held for AS_HOLD lowers a sink's scaling attenuation. -/
  | asHoldExpiry (sink : Nat)
  /-- ONE_PER_ROOM_TIMER (R255). Every 100 ms each room tag's voice is chosen and other tagged sources are overridden to OFF. -/
  | onePerRoomTimer
  /-- TALK_INTERVAL_TIMER (R256). Every TALK_INTERVAL talker selection joins, swaps or drops talkers of a large room. -/
  | talkIntervalTimer (conf : Nat)
  /-- AUD_PACKET_RECEIVE (R254). A decode channel takes an audio packet for playout, discarding late packets and adjusting its anchor. -/
  | audPacketReceive (x : AudIn)
  /-- AUD_ENC_FRAME (R257). An encode channel codes a frame once its last sample's block is delivered and sends it to its destination. -/
  | audEncFrame (chan frame : Nat) (coded : List Byte) (level : Nat)
  /-- CASCADE_FLIT (R244). A CASCADE flit delivers a remote sink block as a source block. -/
  | cascadeFlit (dev chan period : Nat) (samples : List Int) (poison : Bool)
  /-- AUD_SRC_BIND (R244). Binds or unbinds a crosspoint source. -/
  | audSrcBind (e : CmdEnv) (body : List Byte)
  /-- AUD_SNK_BIND (R244). Binds or unbinds a crosspoint sink and sets its AUTO flag. -/
  | audSnkBind (e : CmdEnv) (body : List Byte)
  /-- AUD_NODE_SET (R248). Sets node gain targets, at once or at a Latch. -/
  | audNodeSet (e : CmdEnv) (body : List Byte)
  /-- AUD_DEC_OPEN (R254). Opens an audio decode channel on an inbound stream and source. -/
  | audDecOpen (e : CmdEnv) (body : List Byte)
  /-- AUD_ENC_OPEN (R257). Opens an audio encode channel on a sink. -/
  | audEncOpen (e : CmdEnv) (body : List Byte)
  /-- AUD_CLOSE (R253). Closes a decode or encode channel at its next frame boundary. -/
  | audClose (e : CmdEnv) (body : List Byte)
  /-- AUD_CONF (R256). Sets up a large room by talker selection. -/
  | audConf (e : CmdEnv) (body : List Byte)
  /-- AUD_LEG_PROFILE (R256). Gives a leg its audio profile for a large room. -/
  | audLegProfile (e : CmdEnv) (body : List Byte)
  /-- AUD_ROOM (R255). Sets room tags of sources and sinks. -/
  | audRoom (e : CmdEnv) (body : List Byte)
  /-- AUD_STATS (R258). Returns an audio channel's statistics. -/
  | audStats (e : CmdEnv) (body : List Byte)
  /-- DBL_FRAME_START (R263). A beacon frame starts at the first boundary at least TX_GAP after the previous lead-out. -/
  | dblFrameStart (leg : Nat)
  /-- DWELL_START (R265). A free survey receiver takes the next enabled leg due under SURVEY_INT. -/
  | dwellStart (core recv : Nat)
  /-- DWELL_END (R268). A 6 s dwell ends and the receiver takes its next leg once any reception finishes. -/
  | dwellEnd (core recv : Nat)
  /-- PREAMBLE_ACQUIRE (R267). The correlator finds a preamble at or above ACQ_THRESH, starting, pre-empting or ignoring a reception. -/
  | preambleAcquire (core recv metric : Nat)
  /-- SYNC_WORD_SEARCH_END (R267). The sync word is found or not within ±2 symbols of its expected place. -/
  | syncWordSearchEnd (core recv : Nat) (found : Option Nat)
  /-- HEADER_DECODED (R267). The header block is decoded and its CRC and VERSION judged. -/
  | headerDecoded (core recv : Nat)
  /-- PAYLOAD_DECODED (R269). The payload is decoded, and a passing CRC is reported and classified by token. -/
  | payloadDecoded (core recv : Nat)
  /-- EDGE_TTL_EXPIRY (R270). An edge expires EDGE_TTL after its last renewal and room groups are recomputed. -/
  | edgeTtlExpiry (legA legB : Nat)
  /-- DBL_TX (R264). Starts or stops beacon transmission on a leg and returns the nonce. -/
  | dblTx (e : CmdEnv) (body : List Byte)
  /-- DBL_SURVEY (R265). Enables or disables survey of a leg. -/
  | dblSurvey (e : CmdEnv) (body : List Byte)
  /-- DBL_GROUP (R271). Returns a leg's room group and members. -/
  | dblGroup (e : CmdEnv) (body : List Byte)
  /-- HNG_BUNDLE_EXECUTE (R276). A Hinge core issues one bundle, both slots reading before either writes, or faults before acting. -/
  | hngBundleExecute (core sash : Nat)
  /-- MAILBOX_DELIVERY (R284). A block is written into a core's mailbox 0, or dropped when the slot is owned or the core is halted. -/
  | mailboxDelivery (core : Nat)
  /-- MAILBOX_DRAIN (R285). A posted mailbox 1 block is drained to its crosspoint source or path, or discarded. -/
  | mailboxDrain (core : Nat)
  /-- DMA_TRANSFER_DONE (R286). A Hinge DMA transfer ends and writes its STATUS into the descriptor. -/
  | dmaTransferDone (core channel : Nat)
  /-- HNG_LOAD (R290). Copies from an HBM partition into a halted or faulted core. -/
  | hngLoad (e : CmdEnv) (body : List Byte)
  /-- HNG_START (R290). Clears CAUSE and starts a core at bundle 0. -/
  | hngStart (e : CmdEnv) (body : List Byte)
  /-- HNG_HALT (R287). Halts a core at the next bundle boundary. -/
  | hngHalt (e : CmdEnv) (body : List Byte)
  /-- HNG_STATS (R291). Returns a core's statistics. -/
  | hngStats (e : CmdEnv) (body : List Byte)
  /-- KEY_WRITE (R296). A KW_CMD write with OP WRITE starts unwrapping the blob into a slot. -/
  | keyWrite (fn : Nat) (val : Word)
  /-- KEY_ERASE (R297). A KW_CMD write with OP ERASE starts erasing a slot. -/
  | keyErase (fn : Nat) (val : Word)
  /-- KEY_UNWRAP_DONE (R297). The Deadbolt finishes a key operation, which takes effect, is held for a Latch, waits for a drain, or fails. -/
  | keyUnwrapDone (fn slot : Nat) (erase : Bool) (rec : Option (List Byte))
  /-- KEY_DRAIN_END (R297). Operations bound to an old generation have drained, its key is zeroised and any waiting change takes effect. -/
  | keyDrainEnd (slot : Nat)
  /-- HELD_KEY_EXPIRY (R298). DEC_HOLD_MS after a write the decrypt slot's held key is discarded. -/
  | heldKeyExpiry (slot : Nat)
  /-- CIPHER_ITEM (R302). A packet, frame or CENC sample is processed on a cipher lane under its slot binding and usage limits. -/
  | cipherItem (it : CipItem)
  /-- PAGE_DECODE_DONE (R330). A page decode ends and the words are corrected and rewritten, or poisoned with a log entry and transient. -/
  | pageDecodeDone (cell : Nat) (errs : List CellErr)
  /-- HBM_REFRESH (R327). A stack refreshes all banks for 410 ns at its refresh interval, holding requests. -/
  | hbmRefresh (stack : Nat)
  /-- HBM_TEMP_READING (R327). A stack temperature reading changes the refresh interval across 85 or 80 °C. -/
  | hbmTempReading (stack : Nat) (temp : Int)
  /-- SCRUB_VISIT (R334). The scrubber reads its next page and rewrites, skips, or decodes each word. -/
  | scrubVisit (cell : Nat) (errs : List CellErr)
  /-- MERGE_FLUSH_TIMEOUT (R333). A merge buffer entry 64 hc old is flushed into its word. -/
  | mergeFlushTimeout (word : Nat)
  /-- CA_PARITY_ERROR (R336). An HBM command parity error is retried once, then delivers poison or FAILED. -/
  | caParityError (stack pch cell : Nat) (wr second : Bool)
  /-- BAR2_READ (R324). A host read of BAR2 reaches HBM under its partition order, or returns zeros beyond memory. -/
  | bar2Read (fn off n : Nat)
  /-- BAR2_WRITE (R332). A host write to BAR2 is merged into its burst, stored as poison when the TLP is poisoned. -/
  | bar2Write (fn off : Nat) (bytes : List Byte) (poison : Bool)
  /-- RAW_WRITE (R337). Stores TEST_DATA and TEST_CHECK into the test region word without parity update. -/
  | rawWrite
  /-- RAW_READ (R337). Returns the stored data and check byte of a test region word. -/
  | rawRead
  /-- CHECKED_READ (R337). Applies the codes to a test region word and returns the result without writing back. -/
  | checkedRead
  /-- PAGE_REMAP_DONE (R384). A retired page's copy to its spare completes and later accesses reach the spare. -/
  | pageRemapDone (channel : Nat)
  /-- LANE_LOST (R344). A lane loses lock and retrains once. -/
  | laneLost (lane : Nat)
  /-- LANE_ADAPT_DONE (R343). A lane's calibration or quick adapt ends, locked or failed and declared permanent. -/
  | laneAdaptDone (lane : Nat) (ok : Bool) (snr : Nat) (inverted reversed : Bool)
  /-- FOM_LOW_TIMER (R344). A lane's FOM stays below threshold for 1 s and a transient is reported. -/
  | fomLowTimer (lane snr : Nat)
  /-- LANE_RETRAIN (R343). A write of RETRAIN retrains a lane. -/
  | laneRetrain (lane : Nat)
  /-- LANE_LOOPBACK_WRITE (R345). A LOOP write selects a loopback at once. -/
  | laneLoopbackWrite (lane : Nat) (val : Word)
  /-- LANE_SLEEP_WRITE (R346). A TX_SLEEP or RX_SLEEP write sleeps or wakes one lane direction. -/
  | laneSleepWrite (lane : Nat) (val : Word)
  /-- LINK_ALIGNED (R355). A direct link finishes training and alignment and begins hellos. -/
  | linkAligned (link : Nat) (reversed : Bool)
  /-- HELLO_TIMER (R355). Each end sends HELLO every 1 ms until UP and every 1 s after. -/
  | helloTimer (link : Nat)
  /-- HELLO_FLIT (R355). A received hello sets the link level and moves the link to UP, MISMATCH or DUP_ID. -/
  | helloFlit (link : Nat) (bytes : List Byte)
  /-- IDLE_FLIT (R351). A received IDLE flit returns ACK and credits. -/
  | idleFlit (link : Nat) (bytes : List Byte)
  /-- SEQUENCED_FLIT_RECEIVE (R352). A sequenced flit is checked, acknowledged, delivered to its type's consumer or relayed, or NAKed. -/
  | sequencedFlitReceive (f : JlRx)
  /-- NAK_RECEIVE (R352). A NAK makes the sender replay from the next flit, retraining after three failed replays. -/
  | nakReceive (link : Nat) (bytes : List Byte)
  /-- HOLD_FLIT (R359). A HOLD flit puts the peer's link in HOLD. -/
  | holdFlit (link : Nat) (bytes : List Byte)
  /-- LINK_FLIT (R356). A LINK flit's mask narrows the link to the widest aligned group of the intersection. -/
  | linkFlit (link : Nat) (bytes : List Byte)
  /-- HOLD_TIMEOUT (R359). HOLD lasting more than 200 µs puts the link DOWN. -/
  | holdTimeout (link : Nat)
  /-- TUNNEL_REPLAY_TIMER (R358). A tunnel flit unacknowledged for max(1 ms, 3 × RTT) is replayed. -/
  | tunnelReplayTimer (link : Nat)
  /-- TUNNEL_SILENCE_TIMEOUT (R355). A tunnel silent for 3 s goes DOWN. -/
  | tunnelSilenceTimeout (link : Nat)
  /-- HANDOVER (R361). Starts moving a local conference to a target device. -/
  | handover (e : CmdEnv) (body : List Byte)
  /-- HANDOVER_SWITCH (R361). At the named instant the source stops outbound streams and sends their state to the target. -/
  | handoverSwitch (conf : Nat)
  /-- HANDOVER_TAIL_END (R361). 1 s after the switch the source removes the conference and completes the handover. -/
  | handoverTailEnd (conf : Nat)
  /-- LINK_STATS (R361). Returns a Jorras link's statistics. -/
  | linkStats (e : CmdEnv) (body : List Byte)
  /-- PTP_FRAME_RECEIVE (R315). A PTP frame on a PTP-enabled port is stamped and delivered to the service or dropped. -/
  | ptpFrameReceive (f : PtpFrame)
  /-- ONE_STEP_SYNC (R317). A one-step Sync has its origin timestamp, correction, checksum and FCS written as it departs. -/
  | oneStepSync (port sec ns frac oldSec oldNs : Nat) (oldCorr : Int) (udpSum : Option Nat)
  /-- PTP_LOCK_DECLARED (R312). The servo declares lock and the time state becomes LOCKED. -/
  | ptpLockDeclared
  /-- PTP_LOSS_DECLARED (R312). The PTP service declares loss and the time state becomes HOLDOVER. -/
  | ptpLossDeclared
  /-- PTP_PORT (R314). Sets a port's PTP role and intervals. -/
  | ptpPort (e : CmdEnv) (body : List Byte)
  /-- PTP_STATS (R314). Returns a port's PTP state, offset and path delay. -/
  | ptpStats (e : CmdEnv) (body : List Byte)
  /-- TIME_STEP (R310). A write of GO to TIM.STEP_CMD adds the signed offset to the counter at the next tick. -/
  | timeStep (val : Word)
  /-- INCR_WRITE (R309). A write to TIM.INCR_HI puts the clamped increment in force at the next tick. -/
  | incrWrite (val : Word)
  /-- LOCK_WRITE (R312). A write to TIM.LOCK with SERVO 1 declares lock or loss. -/
  | lockWrite (val : Word)
  /-- TIM_WATCHDOG_EXPIRY (R312). WATCHDOG seconds without increment or step writes move LOCKED to HOLDOVER. -/
  | timWatchdogExpiry
  /-- PPS_IN_EDGE (R319). A rising PPS_IN edge is stamped. -/
  | ppsInEdge
  /-- PPS_OUT_PULSE (R319). PPS_OUT rises at each whole second reached by counting. -/
  | ppsOutPulse
  /-- PIN_PULSE_END (R319). WIDTH_US after a rise, PPS_OUT or an event pin falls. -/
  | pinPulseEnd (pin : Nat)
  /-- TEV_CAPTURE_EDGE (R320). A rising edge on a capture-mode event pin is stamped. -/
  | tevCaptureEdge (pin : Nat)
  /-- TEV_RISE (R320). A one-shot or periodic event pin reaches its scheduled rise. -/
  | tevRise (pin : Nat)
  /-- TEV_CONFIG_WRITE (R320). A write to T, PERIOD or MODE cancels the pending rise and schedules anew. -/
  | tevConfigWrite (pin reg : Nat) (val : Word)
  /-- DB_PROD (R368). A host producer doorbell for ring 0 of a queue pair. -/
  | dbProd (fn q index : Nat) (words : List Byte)
  /-- DB_CONS (R368). A host consumer doorbell for ring 1 of a queue pair. -/
  | dbCons (fn q index : Nat)
  /-- COMMAND_TAKE (R370). The device takes a command item when ring 1 has completion room and dispatches it to its service. -/
  | commandTake (q : Nat)
  /-- QP_CFG_WRITE (R367). A write changing a queue pair's ENABLE or ring address flushes both rings. -/
  | qpCfgWrite (fn off : Nat) (val : Word)
  /-- VF_FLR (R373). A VF function-level reset disables and flushes its queue pairs and resets its window copies. -/
  | vfFlr (vf : Nat)
  /-- PCIE_LINK_DOWN (R373). Hot reset, link down or PF FLR disables every queue pair while media continues. -/
  | pcieLinkDown
  /-- PCIE_LINK_UP (R373). The PCIe link comes up and HIF_LINK_DOWN is raised. -/
  | pcieLinkUp (gen width mps vfs : Nat)
  /-- GET_NONCE (R379). Returns a fresh management nonce. -/
  | getNonce (f : MgmtFrame)
  /-- READ (R378). Returns up to 16 DBT or TST registers over the management port. -/
  | read (f : MgmtFrame)
  /-- PROVISION (R378). Writes the management key into blank OTP. -/
  | provision (f : MgmtFrame)
  /-- SET_POWER (R409). Sets the power cap and junction limit. -/
  | setPower (f : MgmtFrame)
  /-- SET_PACE (R26). Sets the pace target. -/
  | setPace (f : MgmtFrame)
  /-- SET_POLICY (R390). Sets DBT.POLICY. -/
  | setPolicy (f : MgmtFrame)
  /-- SET_BUCKET (R381). Sets the leaky bucket T and W_S, keeping counts. -/
  | setBucket (f : MgmtFrame)
  /-- SET_KEY_MAX (R295). Sets a mode's hard key maximum. -/
  | setKeyMax (f : MgmtFrame)
  /-- WRAP_KEY (R296). Installs the AES-256 key wrapping key. -/
  | wrapKey (f : MgmtFrame) (key : Option (List Byte))
  /-- DEBUG (R393). Sets Peephole access and the memory test region. -/
  | debug (f : MgmtFrame)
  /-- SET_BIST (R386). Enables BIST or sets HOURS, restarting the schedule. -/
  | setBist (f : MgmtFrame)
  /-- BIST_RUN (R388). Runs BIST now on one channel, or returns BUSY. -/
  | bistRun (f : MgmtFrame)
  /-- MARCH (R389). Runs a march test on one PAGE channel. -/
  | march (f : MgmtFrame)
  /-- RETIRE (R382). Declares a channel permanent with cause MANUAL. -/
  | retire (f : MgmtFrame)
  /-- SHUTTER_FREEZE (R391). SHUTTER command with OP 1 freezes the core. -/
  | shutterFreeze (f : MgmtFrame)
  /-- SHUTTER_RELEASE (R392). SHUTTER command with OP 0 releases the Shutter into a resume or a warm start. -/
  | shutterRelease (f : MgmtFrame)
  /-- WARM (R400). Management command requesting a warm start. -/
  | warm (f : MgmtFrame)
  /-- NONCE_EXPIRY (R379). A management nonce expires 1 s after issue. -/
  | nonceExpiry
  /-- DBT_LOCKSTEP_MISMATCH (R377). The two Deadbolt cores disagree and it restarts from ROM, or freezes the device on a second mismatch within 1 s. -/
  | dbtLockstepMismatch
  /-- DBT_RESTART (R377). The Deadbolt is running again after a ROM restart. -/
  | dbtRestart
  /-- BUCKET_LEAK (R381). A channel's bucket loses one count every W_S / T seconds. -/
  | bucketLeak (channel : Nat)
  /-- BIST_SCHEDULE_TIMER (R386). A type's BIST interval elapses and its next unit is scheduled for test. -/
  | bistScheduleTimer (ty : Nat)
  /-- BIST_TEST_DONE (R387). A logic BIST signature is compared, rerun once on mismatch, and the unit passes or is retired. -/
  | bistTestDone (ty inst : Nat) (pass : Bool)
  /-- MARCH_DONE (R389). A march test ends and failing words are reported on their PAGE channels. -/
  | marchDone (words : Nat) (twice : Bool)
  /-- SHUTTER_N_FALL (R390). SHUTTER_N falls and triggers a Shutter. -/
  | shutterNFall
  /-- SHUTTER_N_RISE (R392). SHUTTER_N rises and releases the Shutter when no other trigger holds. -/
  | shutterNRise
  /-- THERMAL_TRIGGER (R412). The hottest die sensor stays above TJ_LIMIT for 1 s, raising DBT_TJ_OVER and the THERMAL trigger. -/
  | thermalTrigger
  /-- HBM_SELF_REFRESH_ENTRY (R391). 1 µs after a freeze HBM enters self-refresh. -/
  | hbmSelfRefreshEntry
  /-- RESUME_DONE (R392). HBM leaves self-refresh and acknowledges resume after a short Shutter. -/
  | resumeDone
  /-- PEEP_TAP_SHIFT (R393). With authorisation, TAP instruction 0x3C shifts out the state image. -/
  | peepTapShift (instr : Nat)
  /-- COLD_START (R398). RESET_N rises with CORE_PG high and the cold start sequence begins. -/
  | coldStart
  /-- COLD_STEP_COMPLETE (R398). A cold start step reaches its end condition and the next begins. -/
  | coldStepComplete (r : StepEnd)
  /-- WARM_N_FALL (R400). A falling WARM_N requests a warm start. -/
  | warmNFall
  /-- START_CTL_WARM (R400). A write of 1 to GLB.START_CTL.WARM requests a warm start. -/
  | startCtlWarm (fn : Nat) (val : Word)
  /-- WARM_STEP_COMPLETE (R400). A warm start step ends and the next begins. -/
  | warmStepComplete (r : StepEnd)
  /-- RESET_N_FALL (R402). RESET_N falls and everything in progress is abandoned. -/
  | resetNFall
  /-- POWER_LOSS (R407). CORE_PG falls or a supply leaves its range and the core stops without a stable state. -/
  | powerLoss
  /-- LINTEL_CORE_FAULT (R382). A poison or datapath fault in a Lintel core is reported to the Deadbolt as a transient on its LINTEL channel and fires the LINTEL Shutter trigger when enabled. -/
  | lintelCoreFault (core : Nat)
  /-- PTP_MESSAGE_TIMER (R314). At the intervals set by LOG_SYNC, LOG_ANNOUNCE and LOG_DELAY the PTP service sends Sync, Announce or Delay_Req on its ports. -/
  | ptpMessageTimer (port kind sec ns frac : Nat)
  /-- MGMT_UNKNOWN_COMMAND (R379). A management write transfer whose CMD is not listed in Table 20.2 returns status UNKNOWN. -/
  | mgmtUnknownCommand (f : MgmtFrame)
  deriving DecidableEq, Repr

end Sys2Proof
end

