-- ==== Sys2Proof/Config.lean ====
section
/-!
DEFINITION. What the spec leaves open: constants without a body. No proof can see their values, so a claim holds for
every one of them. `freeValue n` is the n-th value taken by a step (the counter stands in `Hub.free`).
-/

namespace Sys2Proof.Config

/-- The n-th free value of a run, as a natural number (assumption 4). -/
opaque freeValue : Nat → Nat

/-- The class of each system queue, 0–7 when reduced modulo 8: R139 gives the queues their ports and states no class. -/
opaque sysClass : Nat → Nat

/-- The bytes of a Lintel core's memory: R54 discards code past its end, and no table gives its size. -/
opaque lintelMemory : Nat

/-- The SSRC that reports of a leg without outbound streams carry (R108). -/
opaque reporter : Nat → Nat

/-- The tiles a splicer generates for a position of a codec and a size in units of 64: blank, or hold (R213, Table 10.1). -/
opaque spliceTile : Nat → Nat → Nat → Bool → List Byte

/-- The most bytes of a spliced frame that FWD puts into one packet, 1 to 8,000 (R212). -/
opaque splicePayload : Nat

/-- The 18–20 kHz filter of a Doorbell receiver with its decimator, on the newest decoded samples first (R266). -/
opaque beaconFilter : List Int → Rat × Rat

/-- The format in which a receiver's equaliser holds a tap or an output (R266). -/
opaque tapFormat : Rat → Rat

/-- The size of a 4-bit soft value, taken modulo 8, of a detected value and the energy of its two symbols (R266). -/
opaque softLevel : Rat → Rat → Nat

/-- Sample `n` of a beacon at a level in dB below full scale: the chips' phases in quarter turns, as raised-cosine pulses on 19.0 kHz
under the ramps of R263, with the sample at which a lead-out begins early (R261). -/
opaque beaconWave : Nat → List Nat → Option Nat → Nat → Int

/-- The bytes of a message between Lintel services: no table lays them out (Table 18.4, type 7). -/
opaque svcBytes : SvcMsg → List Byte

/-- Ciphertext and ICV of AES-GCM under key slot and generation, packet number, authenticated data and payload (R305, R354). -/
opaque sealFlit : Nat → Nat → Nat → List Byte → List Byte → List Byte

end Sys2Proof.Config
end

