-- ==== Sys2Proof/Machine/HubTypes.lean ====
section
/-!
DEFINITION. What every block of the device shares: the registers, the event log, the time counter, the host's memory as
the device sees it, and what leaves the device on its interfaces. Plain data.
-/

namespace Sys2Proof.Machine

/-- The time counter (R308): 48-bit seconds, nanoseconds 0–999,999,999, and a 40-bit fraction of a nanosecond. -/
structure Time where
  sec : Nat := 0
  ns : Nat := 0
  frac : Nat := 0
  deriving DecidableEq, Repr

/-- An event about to be raised: its code (block code in bits [15:8]), the instance of a block that has one EVT register
per unit, the fault channel and sash of its record, and the 32-bit slots of DETAIL (R416). -/
structure Ev where
  code : Nat
  inst : Nat := 0
  channel : Nat := 0
  sash : Nat := 0xFFFF
  detail : List Nat := []
  deriving DecidableEq, Repr

/-- A rate-limited event raised in the running second (R416): its first raise and how often it was raised. -/
structure RlWin where
  ev : Ev
  sec : Nat
  ns : Nat
  count : Nat
  deriving DecidableEq, Repr

/-- What a FIFO of a queue pair keeps beside its index in `QSC.FIFO_IDX`: the index the other side last published, and
the pending loss count (R133, R136). -/
structure Fifo where
  peer : Nat := 0
  loss : Nat := 0
  deriving DecidableEq, Repr

/-- A command taken from a queue pair whose completion is not yet posted (R370): its tag, opcode, the service's STATE
when it was taken and, once it has completed, status and result, with the LATCHED change of a function that its posting makes a
shadow write (R127). -/
structure CmdSlot where
  tag : Nat
  opcode : Nat
  svc : Nat
  fin : Option (Nat × List Byte)
  held : Option (Nat × Instr) := none
  deriving DecidableEq, Repr

/-- What the host finds behind BAR0 and BAR2 (R373, R399): nothing before cold step 4 ends; the GLB registers of R399
until step 6 ends; everything; or all ones with writes discarded, during a Shutter and a warm start. -/
inductive BarMode where
  | dead | early | live | frozen
  deriving DecidableEq, Repr

/-- The flags of a path's tokens beside last-of-work (R30): poison, and the path epoch of their sash. -/
structure PathFlags where
  poison : Bool := false
  epoch : Bool := false
  deriving DecidableEq, Repr

/-- What leaves the device on one of its interfaces, in the order it leaves. The model's own record of its outputs:
the device itself never reads it. -/
inductive OutMsg where
  /-- An MSI-X message: function (0 the PF, v VF v) and vector. -/
  | msix (fn vector : Nat)
  /-- What a read of a register returned to a function: the address of the first byte, and the bytes. -/
  | regRead (fn off : Nat) (val : Word)
  /-- Bytes that a BAR2 read returned. -/
  | memRead (off : Nat) (bytes : List Byte) (poison : Bool)
  /-- A management response: status and payload (R378). -/
  | mgmt (cmd status : Nat) (payload : List Byte)
  /-- A pin driven to a level. -/
  | pin (name : String) (level : Bool)
  /-- A voltage commanded over AVSBus, in mV. -/
  | avs (mv : Nat)
  /-- A flit sent on Jorras link `link`: its 256 bytes (Table 18.3). -/
  | flit (link : Nat) (bytes : List Byte)
  /-- A frame sent by Ethernet port `port`: what it carries, and its parameters. -/
  | frame (port : Nat) (kind : String) (args : List Nat)
  /-- One unit of work handed over a fabric path: destination unit reference, kind and parameters. It moves as 32-byte tokens; the last
  of them carries last-of-work, and all of them the two flags given (R30). -/
  | token (dst : Nat) (kind : String) (args : List Nat) (flags : PathFlags := {})
  deriving DecidableEq, Repr

/-- The state every block shares. -/
structure Hub where
  /-- Registers, values in force and live counters, keyed by function × 2^26 + BAR0 offset (assumption 3). An unlisted
  register holds its reset value. -/
  regs : List (Nat × Word) := []
  /-- The shadow layer of SH fields (R79), as whole registers. -/
  shadow : List (Nat × Word) := []
  /-- The registers as last published (R89). -/
  pub : List (Nat × Word) := []
  /-- High halves captured by low reads, keyed as `regs` (R90, R311). -/
  captured : List (Nat × Word) := []
  time : Time := {}
  /-- Ticks of TIME_REFCLK since the last cold start, which no step changes. -/
  ticks : Nat := 0
  /-- What the host's accesses reach. -/
  bar : BarMode := .dead
  /-- Rate-limited events of the running second (R416). -/
  rl : List RlWin := []
  /-- Vectors that have fired in this period (R93). -/
  msiFired : List (Nat × Nat) := []
  /-- Vectors to fire at the next boundary (R93). -/
  msiPend : List (Nat × Nat) := []
  /-- Records dropped since the last `LOG_LOST` record, per function's ring (R94). -/
  logDropped : List (Nat × Nat) := []
  /-- VFs 1 to `numVfs` are enabled (SR-IOV configuration, R364). -/
  numVfs : Nat := 0
  /-- Queue pair FIFOs, by number 2q + d (Table 7.6). -/
  fifos : List (Nat × Fifo) := []
  /-- Commands taken and not yet completed, oldest first, by queue pair (R370). -/
  cmds : List (Nat × List CmdSlot) := []
  /-- LATCHED changes whose completion has just been posted, on their way to the open set within one step (R127). -/
  posted : List (Nat × Instr) := []
  /-- Legs that a VF created and that have left its range: only the PF reaches them (R366). -/
  orphans : List Nat := []
  /-- Queue pairs that have signalled in this period, and those that signal at the next boundary (R369). -/
  qpFired : List Nat := []
  qpPend : List Nat := []
  /-- Host memory: what the host placed in its rings and what the device has written. -/
  hostMem : List Host.Cell := []
  /-- Doorbells kept while the core is frozen, the last value of each, by 2 × queue pair + (0 PROD, 1 CONS) (R373). -/
  heldDb : List (Nat × Nat) := []
  /-- The PCIe link has been lost since the last link up (R373). -/
  linkLost : Bool := false
  /-- The PCIe island is down (R24): no access of the host arrives, and what the device sends is discarded. -/
  pcieDown : Bool := false
  /-- Messages and bursts that the PCIe synchroniser has discarded (R24). -/
  pcieDiscards : Nat := 0
  /-- What has left the device. -/
  out : List OutMsg := []
  /-- How many free values have been taken (the model's own field; see `Config`). -/
  free : Nat := 0
  deriving DecidableEq, Repr

end Sys2Proof.Machine
end

