-- ==== Sys2Proof/Machine/Maps.lean ====
section
/-!
DEFINITION. Finite maps as association lists in one canonical form: keys strictly rising. Registers, tables of legs,
streams and pictures, and byte memories are all held this way, so that equal contents are equal data.
-/

namespace Sys2Proof.Machine

/-- The value at key `k`, if one is listed. -/
def kvGet {α : Type} (k : Nat) : List (Nat × α) → Option α
  | [] => none
  | (j, v) :: t => if j = k then some v else if k < j then none else kvGet k t

/-- List `v` at key `k`, keeping keys in rising order. -/
def kvPut {α : Type} (k : Nat) (v : α) : List (Nat × α) → List (Nat × α)
  | [] => [(k, v)]
  | (j, w) :: t => if j < k then (j, w) :: kvPut k v t else if j = k then (k, v) :: t else (k, v) :: (j, w) :: t

/-- Take key `k` out. -/
def kvDel {α : Type} (k : Nat) : List (Nat × α) → List (Nat × α)
  | [] => []
  | (j, w) :: t => if j < k then (j, w) :: kvDel k t else if j = k then t else (j, w) :: t

/-- Change the value at `k` where one is listed. -/
def kvMod {α : Type} (k : Nat) (f : α → α) : List (Nat × α) → List (Nat × α)
  | [] => []
  | (j, w) :: t => if j = k then (j, f w) :: t else (j, w) :: kvMod k f t

/-- Is `k` listed? -/
def kvHas {α : Type} (k : Nat) (m : List (Nat × α)) : Bool := (kvGet k m).isSome

/-- The canonical form: keys strictly rising. -/
def kvSorted {α : Type} : List (Nat × α) → Bool
  | [] => true
  | [_] => true
  | (j, _) :: (k, w) :: t => decide (j < k) && kvSorted ((k, w) :: t)

/-- The value at `k` of a map whose unlisted keys hold `d k`. -/
def kvRead {α : Type} (d : Nat → α) (m : List (Nat × α)) (k : Nat) : α := (kvGet k m).getD (d k)

/-- Set key `k` of a map whose unlisted keys hold `d k`: writing that value removes the entry. -/
def kvWrite {α : Type} [DecidableEq α] (d : Nat → α) (m : List (Nat × α)) (k : Nat) (v : α) : List (Nat × α) :=
  if v = d k then kvDel k m else kvPut k v m

/-- No entry equals what an unlisted key holds. -/
def kvTight {α : Type} [DecidableEq α] (d : Nat → α) (m : List (Nat × α)) : Bool :=
  m.all fun e => decide (e.2 ≠ d e.1)

/-- The lowest key not listed, searching from `k`. -/
def kvFresh {α : Type} (k : Nat) : List (Nat × α) → Nat
  | [] => k
  | (j, _) :: t => if j < k then kvFresh k t else if j = k then kvFresh (k + 1) t else k

/-- The values, in key order. -/
def kvVals {α : Type} (m : List (Nat × α)) : List α := m.map Prod.snd

/-- Keep the entries that satisfy a test. -/
def kvFilter {α : Type} (p : Nat → α → Bool) (m : List (Nat × α)) : List (Nat × α) :=
  m.filter fun e => p e.1 e.2

/-- Little-endian bytes of a number (R7). -/
def leBytes : Nat → Nat → List Byte
  | 0, _ => []
  | n + 1, v => BitVec.ofNat 8 v :: leBytes n (v / 256)

/-- The number little-endian bytes hold (R7). -/
def leNat : List Byte → Nat
  | [] => 0
  | b :: t => b.toNat + 256 * leNat t

/-- Big-endian bytes, for fields of published standards (R7). -/
def beBytes (n v : Nat) : List Byte := (leBytes n v).reverse

/-- The number big-endian bytes hold. -/
def beNat (l : List Byte) : Nat := leNat l.reverse

/-- The CRC-32 of IEEE 802.3 as a shift register fed each byte's bit 0 first, from `init` on. -/
def crc32 (init : Nat) (bytes : List Byte) : Nat :=
  bytes.foldl (fun crc b =>
    (List.range 8).foldl (fun c _ => if c % 2 = 1 then (c / 2) ^^^ 0xEDB88320 else c / 2) (crc ^^^ b.toNat)) init

/-- The FCS of IEEE 802.3 over bytes. -/
def fcs32 (bytes : List Byte) : Nat := crc32 0xFFFFFFFF bytes ^^^ 0xFFFFFFFF

/-- The first `n` bytes of a list, zeros where it is shorter. -/
def fitBytes (n : Nat) (l : List Byte) : List Byte := (l ++ List.replicate n 0).take n

/-- An unlisted byte of memory reads 0 (assumption 2). -/
def memBlank (_ : Nat) : Byte := 0

/-- Read one byte. -/
def memRead (m : List (Nat × Byte)) (a : Nat) : Byte := kvRead memBlank m a

/-- Write one byte. -/
def memWrite (m : List (Nat × Byte)) (a : Nat) (b : Byte) : List (Nat × Byte) := kvWrite memBlank m a b

/-- Write bytes at rising addresses. -/
def memWriteList (m : List (Nat × Byte)) (a : Nat) : List Byte → List (Nat × Byte)
  | [] => m
  | b :: t => memWriteList (memWrite m a b) (a + 1) t

/-- Read `n` bytes from rising addresses. -/
def memReadList (m : List (Nat × Byte)) (a : Nat) : Nat → List Byte
  | 0 => []
  | n + 1 => memRead m a :: memReadList m (a + 1) n

/-- The memory's canonical form. -/
def memWf (m : List (Nat × Byte)) : Bool := kvSorted m && kvTight memBlank m

/-- R96: is `b` later than `a`, as numbers of width `w` that wrap? -/
def laterThan (w a b : Nat) : Bool :=
  let d := (b + 2 ^ w - a % 2 ^ w) % 2 ^ w
  decide (1 ≤ d ∧ d ≤ 2 ^ (w - 1) - 1)

/-- The signed difference b − a of R96, from −2^(w−1) to 2^(w−1) − 1. -/
def wrapDiff (w a b : Nat) : Int :=
  let d := (b + 2 ^ w - a % 2 ^ w) % 2 ^ w
  if d < 2 ^ (w - 1) then (d : Int) else (d : Int) - 2 ^ w

end Sys2Proof.Machine
end

