-- ==== Sys2Proof/Machine/Regs.lean ====
section
/-!
DEFINITION. The register tables of the spec, chapter by chapter: one `Fld` per named field (`BLOCK.REGISTER.FIELD`, as
the spec writes it) and one `RegRow` per table line. Bits that no row names are `ZERO` fields (R11): they read 0 and
ignore writes. Values marked "Fused" or "Per part" are those of an SZ9880 (assumption 1).
-/

namespace Sys2Proof.Machine


/-! Fields of spec/01_family_variants.md. -/

def GLB.ID.DIE : Fld := ⟨0x0, 0, 0, 16, 16⟩
def GLB.ID.STEPPING : Fld := ⟨0x0, 0, 0, 8, 8⟩
def GLB.VARIANT.PART : Fld := ⟨0x4, 0, 0, 24, 8⟩
def GLB.VARIANT.LINE : Fld := ⟨0x4, 0, 0, 22, 2⟩
def GLB.VARIANT.HBM : Fld := ⟨0x4, 0, 0, 20, 2⟩
def GLB.VARIANT.LANES : Fld := ⟨0x4, 0, 0, 18, 2⟩
def GLB.VARIANT.ETH : Fld := ⟨0x4, 0, 0, 16, 2⟩
def GLB.VARIANT.LEGS : Fld := ⟨0x4, 0, 0, 14, 2⟩
def GLB.VARIANT.SUBS : Fld := ⟨0x4, 0, 0, 12, 2⟩
def GLB.VARIANT.XPT : Fld := ⟨0x4, 0, 0, 11, 1⟩
def GLB.VARIANT.SDI : Fld := ⟨0x4, 0, 0, 10, 1⟩
def GLB.UNITS_LO.CIP_LO : Fld := ⟨0x8, 0, 0, 28, 4⟩
def GLB.UNITS_LO.AUDC : Fld := ⟨0x8, 0, 0, 24, 4⟩
def GLB.UNITS_LO.HNG : Fld := ⟨0x8, 0, 0, 17, 7⟩
def GLB.UNITS_LO.SPL : Fld := ⟨0x8, 0, 0, 14, 3⟩
def GLB.UNITS_LO.CMP : Fld := ⟨0x8, 0, 0, 10, 4⟩
def GLB.UNITS_LO.DEC : Fld := ⟨0x8, 0, 0, 5, 5⟩
def GLB.UNITS_LO.ENC : Fld := ⟨0x8, 0, 0, 0, 5⟩
def GLB.UNITS_HI.BIO : Fld := ⟨0xC, 0, 0, 7, 1⟩
def GLB.UNITS_HI.JL : Fld := ⟨0xC, 0, 0, 2, 5⟩
def GLB.UNITS_HI.CIP_HI : Fld := ⟨0xC, 0, 0, 0, 2⟩

/-! Fields of spec/02_self_timed_fabric.md. -/

def GLB.PACE_MON.VALID : Fld := ⟨0x100, 4, 0, 31, 1⟩
def GLB.PACE_MON.PACE : Fld := ⟨0x100, 4, 0, 0, 16⟩
def GLB.PACE_SUM.EMERG : Fld := ⟨0x180, 0, 0, 31, 1⟩
def GLB.PACE_SUM.WORST_ID : Fld := ⟨0x180, 0, 0, 24, 5⟩
def GLB.PACE_SUM.VALID_CNT : Fld := ⟨0x180, 0, 0, 16, 6⟩
def GLB.PACE_SUM.WORST : Fld := ⟨0x180, 0, 0, 0, 16⟩
def GLB.PACE_LOOP.STATE : Fld := ⟨0x184, 0, 0, 28, 4⟩
def GLB.PACE_LOOP.VDD_MV : Fld := ⟨0x184, 0, 0, 16, 12⟩
def GLB.PACE_LOOP.TARGET : Fld := ⟨0x184, 0, 0, 0, 16⟩
def GLB.SASH_STAT.STATE : Fld := ⟨0x1000, 4, 0, 28, 4⟩
def GLB.SASH_STAT.EMERG_HELD : Fld := ⟨0x1000, 4, 0, 27, 1⟩
def GLB.SASH_STAT.SPARE : Fld := ⟨0x1000, 4, 0, 26, 1⟩
def GLB.SASH_STAT.PENDING : Fld := ⟨0x1000, 4, 0, 25, 1⟩
def GLB.SASH_STAT.BLOCKER : Fld := ⟨0x1000, 4, 0, 0, 16⟩

/-! Fields of spec/03_hexmus_image.md. -/

def IMG.STATUS.BUSY : Fld := ⟨0x300000, 0, 0, 31, 1⟩
def IMG.STATUS.QUEUED : Fld := ⟨0x300000, 0, 0, 30, 1⟩
def IMG.STATUS.RES_VALID : Fld := ⟨0x300000, 0, 0, 29, 1⟩
def IMG.STATUS.RES_BANK : Fld := ⟨0x300000, 0, 0, 28, 1⟩
def IMG.STATUS.NO_MAGIC : Fld := ⟨0x300000, 0, 0, 27, 1⟩
def IMG.STATUS.VAR_MISS : Fld := ⟨0x300000, 0, 0, 26, 1⟩
def IMG.STATUS.FMT_OTHER : Fld := ⟨0x300000, 0, 0, 25, 1⟩
def IMG.STATUS.FLASH_CUT : Fld := ⟨0x300000, 0, 0, 24, 1⟩
def IMG.STATUS.SLAT_DROPS : Fld := ⟨0x300000, 0, 0, 0, 16⟩
def IMG.COMMIT.GO : Fld := ⟨0x300004, 0, 0, 31, 1⟩
def IMG.COMMIT.BANK : Fld := ⟨0x300004, 0, 0, 30, 1⟩
def IMG.COMMIT.SCOPE : Fld := ⟨0x300004, 0, 0, 29, 1⟩
def IMG.COMMIT.SASH : Fld := ⟨0x300004, 0, 0, 0, 10⟩
def IMG.BANK_A_BASE_HI.OFFSET_HI : Fld := ⟨0x300008, 0, 0, 0, 32⟩
def IMG.BANK_A_BASE_LO.OFFSET_LO : Fld := ⟨0x30000C, 0, 0, 0, 32⟩
def IMG.BANK_B_BASE_HI.OFFSET_HI : Fld := ⟨0x300010, 0, 0, 0, 32⟩
def IMG.BANK_B_BASE_LO.OFFSET_LO : Fld := ⟨0x300014, 0, 0, 0, 32⟩
def IMG.BUILD_LO.BUILD : Fld := ⟨0x300018, 0, 0, 0, 32⟩
def IMG.BUILD_HI.BUILD : Fld := ⟨0x30001C, 0, 0, 0, 32⟩
def IMG.INTEROP.LEVEL : Fld := ⟨0x300020, 0, 0, 0, 16⟩
def IMG.DIGEST.DIGEST : Fld := ⟨0x300040, 4, 0, 0, 32⟩
def IMG.FW_STAT.STATE : Fld := ⟨0x300080, 4, 0, 28, 4⟩
def IMG.FW_STAT.SERVICE : Fld := ⟨0x300080, 4, 0, 0, 16⟩

/-! Fields of spec/04_louvre_budgets.md. -/

def LVR.STATUS.HOLDOVER : Fld := ⟨0x100000, 0, 0, 31, 1⟩
def LVR.STATUS.EMERG : Fld := ⟨0x100000, 0, 0, 30, 1⟩
def LVR.PERIOD_LO.PERIOD : Fld := ⟨0x100008, 0, 0, 0, 32⟩
def LVR.PERIOD_HI.PERIOD : Fld := ⟨0x10000C, 0, 0, 0, 32⟩
def LVR.REALIGN.COUNT : Fld := ⟨0x100010, 0, 0, 0, 32⟩
def LVR.RES_SEL.KIND : Fld := ⟨0x100020, 0, 0, 16, 3⟩
def LVR.RES_SEL.INDEX : Fld := ⟨0x100020, 0, 0, 0, 16⟩
def LVR.RES_CAP.CAP : Fld := ⟨0x100024, 0, 0, 0, 32⟩
def LVR.RES_BOOKED.BOOKED : Fld := ⟨0x100028, 0, 0, 0, 32⟩
def LVR.RES_SLATS.SLATS : Fld := ⟨0x10002C, 0, 0, 0, 11⟩
def LVR.RES_PEAK.PEAK : Fld := ⟨0x100030, 0, 0, 0, 32⟩
def LVR.RES_GRAIN.GRAIN : Fld := ⟨0x100034, 0, 0, 0, 32⟩
def LVR.SASH_STARVED.COUNT : Fld := ⟨0x101000, 4, 0, 0, 32⟩
def LVR.SASH_LATE.COUNT : Fld := ⟨0x102000, 4, 0, 0, 32⟩

/-! Fields of spec/05_latch_and_coherence.md. -/

def LCH.STATUS.SNAP_BUSY : Fld := ⟨0x200000, 0, 0, 31, 1⟩
def LCH.STATUS.GRP_WAIT : Fld := ⟨0x200000, 0, 0, 30, 1⟩
def LCH.STATUS.PENDING : Fld := ⟨0x200000, 0, 0, 16, 5⟩
def LCH.COMMIT.MODE : Fld := ⟨0x200004, 0, 0, 30, 2⟩
def LCH.COMMIT.GROUP : Fld := ⟨0x200004, 0, 0, 29, 1⟩
def LCH.COMMIT.ABORT : Fld := ⟨0x200004, 0, 0, 28, 1⟩
def LCH.COMMIT.DKIND : Fld := ⟨0x200004, 0, 0, 27, 1⟩
def LCH.COMMIT.DOMAIN : Fld := ⟨0x200004, 0, 0, 0, 16⟩
def LCH.SCHED_SEC_HI.SEC : Fld := ⟨0x200008, 0, 0, 0, 16⟩
def LCH.SCHED_SEC_LO.SEC : Fld := ⟨0x20000C, 0, 0, 0, 32⟩
def LCH.SCHED_NS.NS : Fld := ⟨0x200010, 0, 0, 0, 32⟩
def LCH.SCHED_TAG.TAG : Fld := ⟨0x200014, 0, 0, 0, 16⟩
def LCH.GUARD.PERIODS : Fld := ⟨0x200018, 0, 0, 0, 8⟩
def LCH.ACCEPTED_LO.NUM : Fld := ⟨0x200020, 0, 0, 0, 32⟩
def LCH.ACCEPTED_HI.NUM : Fld := ⟨0x200024, 0, 0, 0, 32⟩
def LCH.LAST_NUM_LO.NUM : Fld := ⟨0x200028, 0, 0, 0, 32⟩
def LCH.LAST_NUM_HI.NUM : Fld := ⟨0x20002C, 0, 0, 0, 32⟩
def LCH.LAST_PERIOD_LO.PERIOD : Fld := ⟨0x200030, 0, 0, 0, 32⟩
def LCH.LAST_PERIOD_HI.PERIOD : Fld := ⟨0x200034, 0, 0, 0, 32⟩
def LCH.LAST_RESULT.RESULT : Fld := ⟨0x200038, 0, 0, 28, 4⟩
def LCH.LAST_RESULT.MISSING : Fld := ⟨0x200038, 0, 0, 0, 11⟩
def LCH.VIEW.INFORCE : Fld := ⟨0x200040, 0, 0, 0, 1⟩
def LCH.PUB_GEN_LO.GEN : Fld := ⟨0x200050, 0, 0, 0, 32⟩
def LCH.PUB_GEN_HI.GEN : Fld := ⟨0x200054, 0, 0, 0, 32⟩
def LCH.SNAP_ADDR_LO.ADDR : Fld := ⟨0x200060, 0, 0, 0, 32⟩
def LCH.SNAP_ADDR_HI.ADDR : Fld := ⟨0x200064, 0, 0, 0, 32⟩
def LCH.SNAP_LEN.LEN : Fld := ⟨0x200068, 0, 0, 0, 32⟩
def LCH.SNAP_SECT.MASK : Fld := ⟨0x20006C, 0, 0, 0, 32⟩
def LCH.SNAP_CMD.MODE : Fld := ⟨0x200070, 0, 0, 30, 2⟩
def LCH.SNAP_CMD.GROUP : Fld := ⟨0x200070, 0, 0, 29, 1⟩
def LCH.SNAP_CMD.CLR_HW : Fld := ⟨0x200070, 0, 0, 28, 1⟩
def LCH.SNAP_SIZE.BYTES : Fld := ⟨0x200078, 0, 0, 0, 32⟩
def LCH.EVT.ALL : Fld := ⟨0x200080, 0, 0, 0, 9⟩
def LCH.EVT_EN.ALL : Fld := ⟨0x200084, 0, 0, 0, 9⟩
def LCH.GRP_MAP.MAP : Fld := ⟨0x200100, 4, 0, 0, 32⟩
def LCH.LOG_BASE_LO.ADDR : Fld := ⟨0x200200, 0, 0, 0, 32⟩
def LCH.LOG_BASE_HI.ADDR : Fld := ⟨0x200204, 0, 0, 0, 32⟩
def LCH.LOG_SIZE.LOG2 : Fld := ⟨0x200208, 0, 0, 0, 5⟩
def LCH.LOG_PROD.PROD : Fld := ⟨0x20020C, 0, 0, 0, 32⟩
def LCH.LOG_CONS.CONS : Fld := ⟨0x200210, 0, 0, 0, 32⟩
def LCH.LOG_LOST.COUNT : Fld := ⟨0x200214, 0, 0, 0, 32⟩
def LCH.ROUTE.ENABLE : Fld := ⟨0x200400, 4, 0, 31, 1⟩
def LCH.ROUTE.FUNC : Fld := ⟨0x200400, 4, 0, 25, 6⟩
def LCH.ROUTE.VECTOR : Fld := ⟨0x200400, 4, 0, 0, 11⟩

/-! Fields of spec/06_leg_forwarding.md. -/

def FWD.CFG.UNK_SSRC : Fld := ⟨0x400000, 0, 0, 18, 2⟩
def FWD.CFG.NOT_LEG : Fld := ⟨0x400000, 0, 0, 16, 2⟩
def FWD.CFG.EXC_QP : Fld := ⟨0x400000, 0, 0, 0, 10⟩
def FWD.PART.CACHE_PART : Fld := ⟨0x400004, 0, 0, 16, 12⟩
def FWD.PART.SUB_PART : Fld := ⟨0x400004, 0, 0, 0, 12⟩
def FWD.SUB_CACHE.ENTRIES : Fld := ⟨0x400010, 0, 0, 0, 19⟩
def FWD.EVT.ALL : Fld := ⟨0x400100, 0, 0, 0, 8⟩
def FWD.EVT_EN.ALL : Fld := ⟨0x400104, 0, 0, 0, 8⟩
def FWD.IN_PKTS_LO.COUNT : Fld := ⟨0x401000, 64, 0, 0, 32⟩
def FWD.IN_PKTS_HI.COUNT : Fld := ⟨0x401004, 64, 0, 0, 32⟩
def FWD.COPIES_LO.COUNT : Fld := ⟨0x401008, 64, 0, 0, 32⟩
def FWD.COPIES_HI.COUNT : Fld := ⟨0x40100C, 64, 0, 0, 32⟩
def FWD.SUB_MISS_LO.COUNT : Fld := ⟨0x401010, 64, 0, 0, 32⟩
def FWD.SUB_MISS_HI.COUNT : Fld := ⟨0x401014, 64, 0, 0, 32⟩
def FWD.RTX_LO.COUNT : Fld := ⟨0x401018, 64, 0, 0, 32⟩
def FWD.RTX_HI.COUNT : Fld := ⟨0x40101C, 64, 0, 0, 32⟩
def FWD.NO_LEG.COUNT : Fld := ⟨0x401020, 64, 0, 0, 32⟩
def FWD.UNK_SSRC.COUNT : Fld := ⟨0x401024, 64, 0, 0, 32⟩
def FWD.REPLAY.COUNT : Fld := ⟨0x401028, 64, 0, 0, 32⟩
def FWD.STUN_BAD.COUNT : Fld := ⟨0x40102C, 64, 0, 0, 32⟩
def FWD.PARSE_BAD.COUNT : Fld := ⟨0x401030, 64, 0, 0, 32⟩
def FWD.NACK_MISS.COUNT : Fld := ⟨0x401034, 64, 0, 0, 32⟩
def FWD.LATE_DROP.COUNT : Fld := ⟨0x401038, 64, 0, 0, 32⟩
def FWD.FEC_DROP.COUNT : Fld := ⟨0x40103C, 64, 0, 0, 32⟩

/-! Fields of spec/07_queues_gates_shaping.md. -/

def QSC.EGR_LIMIT.GBPS : Fld := ⟨0x800000, 0, 0, 0, 16⟩
def QSC.EVT.ALL : Fld := ⟨0x800100, 0, 0, 0, 8⟩
def QSC.EVT_EN.ALL : Fld := ⟨0x800104, 0, 0, 0, 8⟩
def QSC.SYSQ_CFG.QLIMIT : Fld := ⟨0x800200, 4, 0, 8, 11⟩
def QSC.SYSQ_CFG.WEIGHT : Fld := ⟨0x800200, 4, 0, 0, 8⟩
def QSC.GCL_COUNT.COUNT : Fld := ⟨0x801000, 256, 0, 0, 9⟩
def QSC.GCL_CYCLE.NS : Fld := ⟨0x801004, 256, 0, 0, 32⟩
def QSC.GCL_BASE_NS.NS : Fld := ⟨0x801008, 256, 0, 0, 32⟩
def QSC.GCL_BASE_SEC_LO.SEC : Fld := ⟨0x80100C, 256, 0, 0, 32⟩
def QSC.GCL_BASE_SEC_HI.SEC : Fld := ⟨0x801010, 256, 0, 0, 16⟩
def QSC.GCL_STAT.PENDING : Fld := ⟨0x801014, 256, 0, 31, 1⟩
def QSC.GCL_STAT.ENTRY : Fld := ⟨0x801014, 256, 0, 16, 8⟩
def QSC.GCL_STAT.COUNT : Fld := ⟨0x801014, 256, 0, 0, 9⟩
def QSC.GCL_SWITCH_NS.NS : Fld := ⟨0x801018, 256, 0, 0, 32⟩
def QSC.GCL_SWITCH_SEC.SEC : Fld := ⟨0x80101C, 256, 0, 0, 32⟩
def QSC.OVERSIZE.COUNT : Fld := ⟨0x801020, 256, 0, 0, 32⟩
def QSC.QFULL.COUNT : Fld := ⟨0x801024, 256, 0, 0, 32⟩
def QSC.CLS_HW_DEPTH.BYTES : Fld := ⟨0x801040, 256, 8, 0, 32⟩
def QSC.CLS_HW_DELAY.NS : Fld := ⟨0x801044, 256, 8, 0, 32⟩
def QSC.GCL_ENT.GATES : Fld := ⟨0x804000, 1024, 4, 24, 8⟩
def QSC.GCL_ENT.UNIT : Fld := ⟨0x804000, 1024, 4, 22, 2⟩
def QSC.GCL_ENT.COUNT : Fld := ⟨0x804000, 1024, 4, 0, 22⟩
def QSC.FIFO_CTL.FLUSH : Fld := ⟨0x810000, 16, 0, 31, 1⟩
def QSC.FIFO_CTL.SIZE : Fld := ⟨0x810000, 16, 0, 0, 5⟩
def QSC.FIFO_IDX.INDEX : Fld := ⟨0x810004, 16, 0, 0, 32⟩
def QSC.FIFO_LOST.COUNT : Fld := ⟨0x810008, 16, 0, 0, 32⟩
def QSC.FIFO_BAD.COUNT : Fld := ⟨0x81000C, 16, 0, 0, 32⟩
def QSC.LEG_CFG.QLIMIT : Fld := ⟨0x820000, 16, 0, 8, 11⟩
def QSC.LEG_CFG.WEIGHT : Fld := ⟨0x820000, 16, 0, 0, 8⟩
def QSC.LEG_RATE.KBPS : Fld := ⟨0x820004, 16, 0, 0, 32⟩
def QSC.LEG_HW_DEPTH.BYTES : Fld := ⟨0x820008, 16, 0, 0, 32⟩
def QSC.LEG_HW_DELAY.NS : Fld := ⟨0x82000C, 16, 0, 0, 32⟩
def QSC.SMP_CTL.ENABLE : Fld := ⟨0xB00000, 0, 0, 31, 1⟩
def QSC.SMP_CTL.PERIOD : Fld := ⟨0xB00000, 0, 0, 0, 16⟩
def QSC.SMP_SEQ.SEQ : Fld := ⟨0xB00004, 0, 0, 0, 32⟩
def QSC.SMP_SEL.VALID : Fld := ⟨0xB00100, 4, 0, 31, 1⟩
def QSC.SMP_SEL.SYS : Fld := ⟨0xB00100, 4, 0, 14, 1⟩
def QSC.SMP_SEL.QUEUE : Fld := ⟨0xB00100, 4, 0, 0, 14⟩
def QSC.SMP_DEPTH.BYTES : Fld := ⟨0xB00200, 8, 0, 0, 32⟩
def QSC.SMP_AGE.US : Fld := ⟨0xB00204, 8, 0, 0, 32⟩

/-! Fields of spec/08_live_encoding.md. -/

def ENC.STATUS.STATE : Fld := ⟨0xC00000, 65536, 0, 28, 4⟩
def ENC.STATUS.PROFILE_CLAMP : Fld := ⟨0xC00000, 65536, 0, 27, 1⟩
def ENC.STATUS.TILE_FIX : Fld := ⟨0xC00000, 65536, 0, 26, 1⟩
def ENC.STATUS.SCALE_CLAMP : Fld := ⟨0xC00000, 65536, 0, 25, 1⟩
def ENC.STATUS.SLOTS_CUT : Fld := ⟨0xC00000, 65536, 0, 24, 1⟩
def ENC.STATUS.SASHES : Fld := ⟨0xC00000, 65536, 0, 19, 5⟩
def ENC.STATUS.MODE : Fld := ⟨0xC00000, 65536, 0, 16, 3⟩
def ENC.STATUS.SASH : Fld := ⟨0xC00000, 65536, 0, 0, 10⟩
def ENC.PERS.CODE : Fld := ⟨0xC00004, 65536, 0, 16, 16⟩
def ENC.FLOOR_BITS.BITS : Fld := ⟨0xC00008, 65536, 0, 0, 16⟩
def ENC.CHK_CTL.RETRY : Fld := ⟨0xC0000C, 65536, 0, 0, 1⟩
def ENC.STRIPES_LO.COUNT : Fld := ⟨0xC00020, 65536, 0, 0, 32⟩
def ENC.STRIPES_HI.COUNT : Fld := ⟨0xC00024, 65536, 0, 0, 32⟩
def ENC.BYTES_LO.COUNT : Fld := ⟨0xC00028, 65536, 0, 0, 32⟩
def ENC.BYTES_HI.COUNT : Fld := ⟨0xC0002C, 65536, 0, 0, 32⟩
def ENC.FLOOR.COUNT : Fld := ⟨0xC00040, 65536, 0, 0, 32⟩
def ENC.COPY.COUNT : Fld := ⟨0xC00044, 65536, 0, 0, 32⟩
def ENC.DEMOTED.COUNT : Fld := ⟨0xC00048, 65536, 0, 0, 32⟩
def ENC.LATE.COUNT : Fld := ⟨0xC0004C, 65536, 0, 0, 32⟩
def ENC.IN_MISS.COUNT : Fld := ⟨0xC00050, 65536, 0, 0, 32⟩
def ENC.HDR_LATE.COUNT : Fld := ⟨0xC00054, 65536, 0, 0, 32⟩
def ENC.HDR_BAD.COUNT : Fld := ⟨0xC00058, 65536, 0, 0, 32⟩
def ENC.RETRY.COUNT : Fld := ⟨0xC0005C, 65536, 0, 0, 32⟩
def ENC.POISON.COUNT : Fld := ⟨0xC00060, 65536, 0, 0, 32⟩
def ENC.REDO.COUNT : Fld := ⟨0xC00064, 65536, 0, 0, 32⟩
def ENC.EVT.ALL : Fld := ⟨0xC00100, 65536, 0, 0, 11⟩
def ENC.EVT_EN.ALL : Fld := ⟨0xC00104, 65536, 0, 0, 11⟩

/-! Fields of spec/09_decode_and_composition.md. -/

def DEC.STATUS.STATE : Fld := ⟨0x1000000, 65536, 0, 28, 4⟩
def DEC.STATUS.CONTEXTS : Fld := ⟨0x1000000, 65536, 0, 0, 10⟩
def DEC.PERS.CODE : Fld := ⟨0x1000004, 65536, 0, 16, 16⟩
def DEC.PICS_LO.COUNT : Fld := ⟨0x1000020, 65536, 0, 0, 32⟩
def DEC.PICS_HI.COUNT : Fld := ⟨0x1000024, 65536, 0, 0, 32⟩
def DEC.CONCEALED.COUNT : Fld := ⟨0x1000040, 65536, 0, 0, 32⟩
def DEC.REF_MISS.COUNT : Fld := ⟨0x1000044, 65536, 0, 0, 32⟩
def DEC.LOST.COUNT : Fld := ⟨0x1000048, 65536, 0, 0, 32⟩
def DEC.TOO_BIG.COUNT : Fld := ⟨0x100004C, 65536, 0, 0, 32⟩
def DEC.UNSUPP.COUNT : Fld := ⟨0x1000050, 65536, 0, 0, 32⟩
def DEC.IN_DROP.COUNT : Fld := ⟨0x1000054, 65536, 0, 0, 32⟩
def DEC.POISON.COUNT : Fld := ⟨0x1000058, 65536, 0, 0, 32⟩
def DEC.EVT.ALL : Fld := ⟨0x1000100, 65536, 0, 0, 8⟩
def DEC.EVT_EN.ALL : Fld := ⟨0x1000104, 65536, 0, 0, 8⟩
def CMP.STATUS.STATE : Fld := ⟨0x1200000, 65536, 0, 28, 4⟩
def CMP.STATUS.GLAZE_SHORT : Fld := ⟨0x1200000, 65536, 0, 27, 1⟩
def CMP.PERS.CODE : Fld := ⟨0x1200004, 65536, 0, 16, 16⟩
def CMP.BG.Y : Fld := ⟨0x1200008, 65536, 0, 20, 10⟩
def CMP.BG.CB : Fld := ⟨0x1200008, 65536, 0, 10, 10⟩
def CMP.BG.CR : Fld := ⟨0x1200008, 65536, 0, 0, 10⟩
def CMP.GLAZE.DIRTY : Fld := ⟨0x120000C, 65536, 0, 16, 16⟩
def CMP.GLAZE.CLEAN : Fld := ⟨0x120000C, 65536, 0, 0, 16⟩
def CMP.FRAMES_LO.COUNT : Fld := ⟨0x1200020, 65536, 0, 0, 32⟩
def CMP.FRAMES_HI.COUNT : Fld := ⟨0x1200024, 65536, 0, 0, 32⟩
def CMP.GLAZE_MISS_LO.COUNT : Fld := ⟨0x1200028, 65536, 0, 0, 32⟩
def CMP.GLAZE_MISS_HI.COUNT : Fld := ⟨0x120002C, 65536, 0, 0, 32⟩
def CMP.LATE.COUNT : Fld := ⟨0x1200040, 65536, 0, 0, 32⟩
def CMP.SKIP.COUNT : Fld := ⟨0x1200044, 65536, 0, 0, 32⟩
def CMP.POISON.COUNT : Fld := ⟨0x1200048, 65536, 0, 0, 32⟩
def CMP.EVT.ALL : Fld := ⟨0x1200100, 65536, 0, 0, 9⟩
def CMP.EVT_EN.ALL : Fld := ⟨0x1200104, 65536, 0, 0, 9⟩
def CMP.STALE.COUNT : Fld := ⟨0x1200440, 65536, 4, 0, 32⟩
def CMP.LCTL.ENABLE : Fld := ⟨0x1200200, 65536, 32, 31, 1⟩
def CMP.LCTL.STATIC : Fld := ⟨0x1200200, 65536, 32, 30, 1⟩
def CMP.LCTL.REDRAW : Fld := ⟨0x1200200, 65536, 32, 29, 1⟩
def CMP.LCTL.PREMULT : Fld := ⟨0x1200200, 65536, 32, 28, 1⟩
def CMP.LCTL.Z : Fld := ⟨0x1200200, 65536, 32, 24, 4⟩
def CMP.LCTL.ALPHA : Fld := ⟨0x1200200, 65536, 32, 16, 8⟩
def CMP.LCTL.SRC_INT : Fld := ⟨0x1200200, 65536, 32, 12, 4⟩
def CMP.LCTL.GFMT : Fld := ⟨0x1200200, 65536, 32, 10, 2⟩
def CMP.LCTL.STALE_N : Fld := ⟨0x1200200, 65536, 32, 0, 8⟩
def CMP.LCROP_XY.X : Fld := ⟨0x1200204, 65536, 32, 16, 16⟩
def CMP.LCROP_XY.Y : Fld := ⟨0x1200204, 65536, 32, 0, 16⟩
def CMP.LCROP_WH.W : Fld := ⟨0x1200208, 65536, 32, 16, 16⟩
def CMP.LCROP_WH.H : Fld := ⟨0x1200208, 65536, 32, 0, 16⟩
def CMP.LDST_XY.X : Fld := ⟨0x120020C, 65536, 32, 16, 16⟩
def CMP.LDST_XY.Y : Fld := ⟨0x120020C, 65536, 32, 0, 16⟩
def CMP.LDST_WH.W : Fld := ⟨0x1200210, 65536, 32, 16, 16⟩
def CMP.LDST_WH.H : Fld := ⟨0x1200210, 65536, 32, 0, 16⟩
def CMP.LFILL.YCBCR : Fld := ⟨0x1200214, 65536, 32, 0, 30⟩
def CMP.LSRC.GPART : Fld := ⟨0x1200218, 65536, 32, 16, 12⟩
def CMP.LSRC.MATCH_PITCH : Fld := ⟨0x1200218, 65536, 32, 0, 16⟩
def CMP.LBASE.OFFSET : Fld := ⟨0x120021C, 65536, 32, 0, 32⟩
def CMP.LSTAT.FILL : Fld := ⟨0x1200400, 65536, 4, 31, 1⟩
def CMP.LSTAT.GLAZED : Fld := ⟨0x1200400, 65536, 4, 30, 1⟩
def CMP.LSTAT.DEGRADED_TAPS : Fld := ⟨0x1200400, 65536, 4, 29, 1⟩
def CMP.LSTAT.LINE_DROP : Fld := ⟨0x1200400, 65536, 4, 28, 1⟩
def CMP.LSTAT.CROPPED : Fld := ⟨0x1200400, 65536, 4, 27, 1⟩
def CMP.LSTAT.SCALE_CLAMP : Fld := ⟨0x1200400, 65536, 4, 26, 1⟩
def CMP.LSTAT.TAPS : Fld := ⟨0x1200400, 65536, 4, 24, 2⟩
def CMP.LSTAT.M : Fld := ⟨0x1200400, 65536, 4, 20, 4⟩
def CMP.LSTAT.WIDTH : Fld := ⟨0x1200400, 65536, 4, 0, 14⟩

/-! Fields of spec/10_mullion_splice.md. -/

def SPL.STATUS.STATE : Fld := ⟨0x1400000, 65536, 0, 28, 4⟩
def SPL.STATUS.RECEIVERS : Fld := ⟨0x1400000, 65536, 0, 0, 13⟩
def SPL.PERS.CODE : Fld := ⟨0x1400004, 65536, 0, 16, 16⟩
def SPL.FRAMES_LO.COUNT : Fld := ⟨0x1400020, 65536, 0, 0, 32⟩
def SPL.FRAMES_HI.COUNT : Fld := ⟨0x1400024, 65536, 0, 0, 32⟩
def SPL.BYTES_LO.COUNT : Fld := ⟨0x1400028, 65536, 0, 0, 32⟩
def SPL.BYTES_HI.COUNT : Fld := ⟨0x140002C, 65536, 0, 0, 32⟩
def SPL.REFRESH_LO.COUNT : Fld := ⟨0x1400030, 65536, 0, 0, 32⟩
def SPL.REFRESH_HI.COUNT : Fld := ⟨0x1400034, 65536, 0, 0, 32⟩
def SPL.SKIP_TILE.COUNT : Fld := ⟨0x1400040, 65536, 0, 0, 32⟩
def SPL.SWITCH_RETRY.COUNT : Fld := ⟨0x1400044, 65536, 0, 0, 32⟩
def SPL.TPL_BAD.COUNT : Fld := ⟨0x1400048, 65536, 0, 0, 32⟩
def SPL.STORE_DROP.COUNT : Fld := ⟨0x140004C, 65536, 0, 0, 32⟩
def SPL.POISON.COUNT : Fld := ⟨0x1400050, 65536, 0, 0, 32⟩
def SPL.EVT.ALL : Fld := ⟨0x1400100, 65536, 0, 0, 8⟩
def SPL.EVT_EN.ALL : Fld := ⟨0x1400104, 65536, 0, 0, 8⟩

/-! Fields of spec/11_broadcast_io.md. -/

def BIO.EVT.ALL : Fld := ⟨0x1500000, 0, 0, 0, 10⟩
def BIO.EVT_EN.ALL : Fld := ⟨0x1500004, 0, 0, 0, 10⟩
def VIN.STATUS.STATE : Fld := ⟨0x1501000, 64, 0, 28, 4⟩
def VIN.STATUS.PATH_A : Fld := ⟨0x1501000, 64, 0, 27, 1⟩
def VIN.STATUS.PATH_B : Fld := ⟨0x1501000, 64, 0, 26, 1⟩
def VIN.STATUS.SKEW : Fld := ⟨0x1501000, 64, 0, 0, 16⟩
def VIN.PERS.CODE : Fld := ⟨0x1501004, 64, 0, 16, 16⟩
def VIN.PKTS_LO.COUNT : Fld := ⟨0x1501008, 64, 0, 0, 32⟩
def VIN.PKTS_HI.COUNT : Fld := ⟨0x150100C, 64, 0, 0, 32⟩
def VIN.LOST.COUNT : Fld := ⟨0x1501010, 64, 0, 0, 32⟩
def VIN.LATE.COUNT : Fld := ⟨0x1501014, 64, 0, 0, 32⟩
def VIN.SKEW_DROP.COUNT : Fld := ⟨0x1501018, 64, 0, 0, 32⟩
def VIN.FMT_BAD.COUNT : Fld := ⟨0x150101C, 64, 0, 0, 32⟩
def VIN.ANC_LATE.COUNT : Fld := ⟨0x1501020, 64, 0, 0, 32⟩
def TSO.STATUS.STATE : Fld := ⟨0x1502000, 64, 0, 28, 4⟩
def TSO.STATUS.FILL : Fld := ⟨0x1502000, 64, 0, 0, 24⟩
def TSO.PERS.CODE : Fld := ⟨0x1502004, 64, 0, 16, 16⟩
def TSO.BYTES_LO.COUNT : Fld := ⟨0x1502008, 64, 0, 0, 32⟩
def TSO.BYTES_HI.COUNT : Fld := ⟨0x150200C, 64, 0, 0, 32⟩
def TSO.HELD.COUNT : Fld := ⟨0x1502010, 64, 0, 0, 32⟩
def TSO.KEY_DROP.COUNT : Fld := ⟨0x1502014, 64, 0, 0, 32⟩

/-! Fields of spec/12_audio_crosspoint.md. -/

def AUD.CFG.GATE : Fld := ⟨0x1600000, 0, 0, 24, 8⟩
def AUD.CFG.ZC_MS : Fld := ⟨0x1600000, 0, 0, 16, 8⟩
def AUD.CFG.LIM : Fld := ⟨0x1600000, 0, 0, 8, 8⟩
def AUD.CFG.AS_HOLD : Fld := ⟨0x1600000, 0, 0, 0, 8⟩
def AUD.MTR_CTL.HOLD : Fld := ⟨0x1600004, 0, 0, 24, 8⟩
def AUD.MTR_CTL.DECAY : Fld := ⟨0x1600004, 0, 0, 16, 8⟩
def AUD.MTR_CTL.RMS_MS : Fld := ⟨0x1600004, 0, 0, 0, 16⟩
def AUD.STATUS.XPT : Fld := ⟨0x1600008, 0, 0, 31, 1⟩
def AUD.STATUS.NODES : Fld := ⟨0x1600008, 0, 0, 0, 23⟩
def AUD.IN_DELAY.US : Fld := ⟨0x160000C, 0, 0, 0, 18⟩
def AUD.ROOM_CTL.ONE_PER_ROOM : Fld := ⟨0x1600010, 0, 0, 1, 1⟩
def AUD.ROOM_CTL.SAME_ROOM_OFF : Fld := ⟨0x1600010, 0, 0, 0, 1⟩
def AUD.BLOCKS_LO.COUNT : Fld := ⟨0x1600020, 0, 0, 0, 32⟩
def AUD.BLOCKS_HI.COUNT : Fld := ⟨0x1600024, 0, 0, 0, 32⟩
def AUD.LATE_PKT.COUNT : Fld := ⟨0x1600040, 0, 0, 0, 32⟩
def AUD.PLC.COUNT : Fld := ⟨0x1600044, 0, 0, 0, 32⟩
def AUD.SRC_MISS.COUNT : Fld := ⟨0x1600048, 0, 0, 0, 32⟩
def AUD.CASCADE_MISS.COUNT : Fld := ⟨0x160004C, 0, 0, 0, 32⟩
def AUD.REANCHOR.COUNT : Fld := ⟨0x1600050, 0, 0, 0, 32⟩
def AUD.CLIP.COUNT : Fld := ⟨0x1600054, 0, 0, 0, 32⟩
def AUD.POISON.COUNT : Fld := ⟨0x1600058, 0, 0, 0, 32⟩
def AUD.EVT.ALL : Fld := ⟨0x1600100, 0, 0, 0, 9⟩
def AUD.EVT_EN.ALL : Fld := ⟨0x1600104, 0, 0, 0, 9⟩
def AUD.AUDC_STAT.STATE : Fld := ⟨0x1600200, 4, 0, 28, 4⟩
def AUD.AUDC_STAT.DEC : Fld := ⟨0x1600200, 4, 0, 8, 9⟩
def AUD.AUDC_STAT.ENC : Fld := ⟨0x1600200, 4, 0, 0, 8⟩
def AUD.SRC_MTR.PEAK : Fld := ⟨0x1610000, 4, 0, 16, 16⟩
def AUD.SRC_MTR.RMS : Fld := ⟨0x1610000, 4, 0, 0, 16⟩
def AUD.SNK_MTR.PEAK : Fld := ⟨0x1612000, 4, 0, 16, 16⟩
def AUD.SNK_MTR.RMS : Fld := ⟨0x1612000, 4, 0, 0, 16⟩

/-! Fields of spec/13_doorbell_beacon.md. -/

def DBL.CTL.AUTO_TAG : Fld := ⟨0x1800000, 0, 0, 31, 1⟩
def DBL.CTL.REPORT_OFF : Fld := ⟨0x1800000, 0, 0, 30, 1⟩
def DBL.CTL.GUARD : Fld := ⟨0x1800000, 0, 0, 29, 1⟩
def DBL.CTL.SASH : Fld := ⟨0x1800000, 0, 0, 16, 10⟩
def DBL.CTL.LEVEL : Fld := ⟨0x1800000, 0, 0, 10, 6⟩
def DBL.CTL.REPORT_QP : Fld := ⟨0x1800000, 0, 0, 0, 10⟩
def DBL.RX_CTL.PREEMPT_MARGIN : Fld := ⟨0x1800004, 0, 0, 12, 4⟩
def DBL.RX_CTL.ACQ_THRESH : Fld := ⟨0x1800004, 0, 0, 0, 8⟩
def DBL.EQ_CTL.MU_FB : Fld := ⟨0x1800008, 0, 0, 4, 4⟩
def DBL.EQ_CTL.MU_FF : Fld := ⟨0x1800008, 0, 0, 0, 4⟩
def DBL.STATUS.TX_LEGS : Fld := ⟨0x180000C, 0, 0, 16, 15⟩
def DBL.STATUS.RX_ACTIVE : Fld := ⟨0x180000C, 0, 0, 0, 13⟩
def DBL.DETECT_LO.COUNT : Fld := ⟨0x1800020, 0, 0, 0, 32⟩
def DBL.DETECT_HI.COUNT : Fld := ⟨0x1800024, 0, 0, 0, 32⟩
def DBL.PREEMPTED.COUNT : Fld := ⟨0x1800040, 0, 0, 0, 32⟩
def DBL.COLLIDED.COUNT : Fld := ⟨0x1800044, 0, 0, 0, 32⟩
def DBL.SYNC_FAIL.COUNT : Fld := ⟨0x1800048, 0, 0, 0, 32⟩
def DBL.HDR_FAIL.COUNT : Fld := ⟨0x180004C, 0, 0, 0, 32⟩
def DBL.PAY_FAIL.COUNT : Fld := ⟨0x1800050, 0, 0, 0, 32⟩
def DBL.STALE.COUNT : Fld := ⟨0x1800054, 0, 0, 0, 32⟩
def DBL.SKIPPED.COUNT : Fld := ⟨0x1800058, 0, 0, 0, 32⟩
def DBL.BEHIND.COUNT : Fld := ⟨0x180005C, 0, 0, 0, 32⟩
def DBL.EVT.ALL : Fld := ⟨0x1800100, 0, 0, 0, 7⟩
def DBL.EVT_EN.ALL : Fld := ⟨0x1800104, 0, 0, 0, 7⟩

/-! Fields of spec/14_hinge_dsp.md. -/

def HNG.CORE_STAT.STATE : Fld := ⟨0x1900000, 1024, 0, 28, 4⟩
def HNG.CORE_STAT.CAUSE : Fld := ⟨0x1900000, 1024, 0, 24, 4⟩
def HNG.CORE_STAT.PC : Fld := ⟨0x1900000, 1024, 0, 0, 14⟩
def HNG.CORE_FLAGS.STATUS : Fld := ⟨0x1900004, 1024, 0, 0, 3⟩
def HNG.MB0_CFG.SLOTS : Fld := ⟨0x1900008, 1024, 0, 25, 7⟩
def HNG.MB0_CFG.SLOT64 : Fld := ⟨0x1900008, 1024, 0, 18, 7⟩
def HNG.MB0_CFG.BASE : Fld := ⟨0x1900008, 1024, 0, 0, 13⟩
def HNG.MB1_CFG.SLOTS : Fld := ⟨0x190000C, 1024, 0, 25, 7⟩
def HNG.MB1_CFG.SLOT64 : Fld := ⟨0x190000C, 1024, 0, 18, 7⟩
def HNG.MB1_CFG.BASE : Fld := ⟨0x190000C, 1024, 0, 0, 13⟩
def HNG.BUNDLES_LO.COUNT : Fld := ⟨0x1900020, 1024, 0, 0, 32⟩
def HNG.BUNDLES_HI.COUNT : Fld := ⟨0x1900024, 1024, 0, 0, 32⟩
def HNG.STALLS_LO.COUNT : Fld := ⟨0x1900028, 1024, 0, 0, 32⟩
def HNG.STALLS_HI.COUNT : Fld := ⟨0x190002C, 1024, 0, 0, 32⟩
def HNG.MB_DROP.COUNT : Fld := ⟨0x1900040, 1024, 0, 0, 32⟩
def HNG.FAULTS.COUNT : Fld := ⟨0x1900044, 1024, 0, 0, 32⟩
def HNG.DMA_ERR.COUNT : Fld := ⟨0x1900048, 1024, 0, 0, 32⟩
def HNG.EVT.ALL : Fld := ⟨0x1910000, 0, 0, 0, 4⟩
def HNG.EVT_EN.ALL : Fld := ⟨0x1910004, 0, 0, 0, 4⟩

/-! Fields of spec/15_cipher_and_keys.md. -/

def CIP.CFG.DEC_HOLD_MS : Fld := ⟨0x1A00000, 0, 0, 16, 10⟩
def CIP.SLOT_SEL.SLOT : Fld := ⟨0x1A00004, 0, 0, 0, 16⟩
def CIP.SLOT_STAT.STATE : Fld := ⟨0x1A00008, 0, 0, 28, 4⟩
def CIP.SLOT_STAT.SOFT : Fld := ⟨0x1A00008, 0, 0, 27, 1⟩
def CIP.SLOT_STAT.DRAIN : Fld := ⟨0x1A00008, 0, 0, 26, 1⟩
def CIP.SLOT_STAT.PEND : Fld := ⟨0x1A00008, 0, 0, 25, 1⟩
def CIP.SLOT_STAT.DIR : Fld := ⟨0x1A00008, 0, 0, 24, 1⟩
def CIP.SLOT_STAT.MODE : Fld := ⟨0x1A00008, 0, 0, 16, 8⟩
def CIP.SLOT_STAT.OWNER : Fld := ⟨0x1A00008, 0, 0, 0, 6⟩
def CIP.SLOT_GEN.GEN : Fld := ⟨0x1A0000C, 0, 0, 0, 32⟩
def CIP.SLOT_USE_LO.COUNT : Fld := ⟨0x1A00010, 0, 0, 0, 32⟩
def CIP.SLOT_USE_HI.COUNT : Fld := ⟨0x1A00014, 0, 0, 0, 32⟩
def CIP.SLOT_SOFT_LO.LIMIT : Fld := ⟨0x1A00018, 0, 0, 0, 32⟩
def CIP.SLOT_SOFT_HI.LIMIT : Fld := ⟨0x1A0001C, 0, 0, 0, 32⟩
def CIP.SLOT_HARD_LO.LIMIT : Fld := ⟨0x1A00020, 0, 0, 0, 32⟩
def CIP.SLOT_HARD_HI.LIMIT : Fld := ⟨0x1A00024, 0, 0, 0, 32⟩
def CIP.SLOT_FAIL.COUNT : Fld := ⟨0x1A00028, 0, 0, 0, 32⟩
def CIP.HARD_MAX_LO.MAX : Fld := ⟨0x1A00040, 8, 0, 0, 32⟩
def CIP.HARD_MAX_HI.MAX : Fld := ⟨0x1A00044, 8, 0, 0, 32⟩
def CIP.KW_BUF.BLOB : Fld := ⟨0x1A00400, 4, 0, 0, 32⟩
def CIP.KW_CMD.OP : Fld := ⟨0x1A00480, 0, 0, 30, 2⟩
def CIP.KW_CMD.LATCHED : Fld := ⟨0x1A00480, 0, 0, 29, 1⟩
def CIP.KW_CMD.SLOT : Fld := ⟨0x1A00480, 0, 0, 0, 16⟩
def CIP.KW_STAT.BUSY : Fld := ⟨0x1A00484, 0, 0, 31, 1⟩
def CIP.KW_STAT.RESULT : Fld := ⟨0x1A00484, 0, 0, 24, 4⟩
def CIP.KW_STAT.SLOT : Fld := ⟨0x1A00484, 0, 0, 0, 16⟩
def CIP.AUTH_FAIL.COUNT : Fld := ⟨0x1A00200, 0, 0, 0, 32⟩
def CIP.OLD_KEY.COUNT : Fld := ⟨0x1A00204, 0, 0, 0, 32⟩
def CIP.EMPTY_DROP.COUNT : Fld := ⟨0x1A00208, 0, 0, 0, 32⟩
def CIP.EXHAUST_DROP.COUNT : Fld := ⟨0x1A0020C, 0, 0, 0, 32⟩
def CIP.MISUSE_DROP.COUNT : Fld := ⟨0x1A00210, 0, 0, 0, 32⟩
def CIP.IDX_REFUSED.COUNT : Fld := ⟨0x1A00214, 0, 0, 0, 32⟩
def CIP.FAULT_DROP.COUNT : Fld := ⟨0x1A00218, 0, 0, 0, 32⟩
def CIP.RETRY.COUNT : Fld := ⟨0x1A0021C, 0, 0, 0, 32⟩
def CIP.EVT.ALL : Fld := ⟨0x1A00100, 0, 0, 0, 12⟩
def CIP.EVT_EN.ALL : Fld := ⟨0x1A00104, 0, 0, 0, 12⟩
def CIP.LANE_STAT.STATE : Fld := ⟨0x1A01000, 16, 0, 28, 4⟩
def CIP.LANE_BLOCKS_LO.COUNT : Fld := ⟨0x1A01004, 16, 0, 0, 32⟩
def CIP.LANE_BLOCKS_HI.COUNT : Fld := ⟨0x1A01008, 16, 0, 0, 32⟩
def CIP.LANE_MISMATCH.COUNT : Fld := ⟨0x1A0100C, 16, 0, 0, 32⟩

/-! Fields of spec/16_network_time.md. -/

def TIM.CFG.COMPACT : Fld := ⟨0x1B00000, 0, 0, 31, 1⟩
def TIM.CFG.SERVO : Fld := ⟨0x1B00000, 0, 0, 30, 1⟩
def TIM.CFG.WATCHDOG : Fld := ⟨0x1B00000, 0, 0, 24, 6⟩
def TIM.CFG.MEAS_QP : Fld := ⟨0x1B00000, 0, 0, 0, 10⟩
def TIM.STATUS.STATE : Fld := ⟨0x1B00004, 0, 0, 30, 2⟩
def TIM.STATUS.DOMAIN : Fld := ⟨0x1B00004, 0, 0, 8, 8⟩
def TIM.STATUS.SLAVE_PORT : Fld := ⟨0x1B00004, 0, 0, 0, 8⟩
def TIM.LOCK.LOCKED : Fld := ⟨0x1B00008, 0, 0, 0, 1⟩
def TIM.NOW_FRAC.FRAC : Fld := ⟨0x1B00010, 0, 0, 0, 16⟩
def TIM.NOW_NS.NS : Fld := ⟨0x1B00014, 0, 0, 0, 32⟩
def TIM.NOW_SEC_LO.SEC : Fld := ⟨0x1B00018, 0, 0, 0, 32⟩
def TIM.NOW_SEC_HI.SEC : Fld := ⟨0x1B0001C, 0, 0, 0, 16⟩
def TIM.INCR_LO.FRAC : Fld := ⟨0x1B00020, 0, 0, 0, 32⟩
def TIM.INCR_HI.NS : Fld := ⟨0x1B00024, 0, 0, 8, 8⟩
def TIM.INCR_HI.FRAC : Fld := ⟨0x1B00024, 0, 0, 0, 8⟩
def TIM.STEP_NS.NS : Fld := ⟨0x1B00028, 0, 0, 0, 32⟩
def TIM.STEP_SEC.SEC : Fld := ⟨0x1B0002C, 0, 0, 0, 32⟩
def TIM.STEP_CMD.GO : Fld := ⟨0x1B00030, 0, 0, 31, 1⟩
def TIM.STEP_CMD.NEG : Fld := ⟨0x1B00030, 0, 0, 30, 1⟩
def TIM.UTC.VALID : Fld := ⟨0x1B00034, 0, 0, 31, 1⟩
def TIM.UTC.OFFSET : Fld := ⟨0x1B00034, 0, 0, 0, 16⟩
def TIM.PPS_IN_NS.NS : Fld := ⟨0x1B00040, 0, 0, 0, 32⟩
def TIM.PPS_IN_SEC.SEC : Fld := ⟨0x1B00044, 0, 0, 0, 32⟩
def TIM.PPS_OUT.ENABLE : Fld := ⟨0x1B00048, 0, 0, 31, 1⟩
def TIM.PPS_OUT.WIDTH_US : Fld := ⟨0x1B00048, 0, 0, 0, 20⟩
def TIM.PTP_DROP.COUNT : Fld := ⟨0x1B00060, 0, 0, 0, 32⟩
def TIM.OVERRUN.COUNT : Fld := ⟨0x1B00064, 0, 0, 0, 32⟩
def TIM.EVT.ALL : Fld := ⟨0x1B00080, 0, 0, 0, 8⟩
def TIM.EVT_EN.ALL : Fld := ⟨0x1B00084, 0, 0, 0, 8⟩
def TIM.PORT_CFG.PTP_EN : Fld := ⟨0x1B00200, 4, 0, 31, 1⟩
def TIM.PORT_CFG.TRIM : Fld := ⟨0x1B00200, 4, 0, 0, 16⟩
def TIM.TEV_CTL.MODE : Fld := ⟨0x1B00100, 32, 0, 30, 2⟩
def TIM.TEV_CTL.WIDTH_US : Fld := ⟨0x1B00100, 32, 0, 0, 20⟩
def TIM.TEV_T_NS.NS : Fld := ⟨0x1B00104, 32, 0, 0, 32⟩
def TIM.TEV_T_SEC_LO.SEC : Fld := ⟨0x1B00108, 32, 0, 0, 32⟩
def TIM.TEV_T_SEC_HI.SEC : Fld := ⟨0x1B0010C, 32, 0, 0, 16⟩
def TIM.TEV_PERIOD.NS : Fld := ⟨0x1B00110, 32, 0, 0, 32⟩
def TIM.TEV_CAP_NS.NS : Fld := ⟨0x1B00114, 32, 0, 0, 32⟩
def TIM.TEV_CAP_SEC.SEC : Fld := ⟨0x1B00118, 32, 0, 0, 32⟩

/-! Fields of spec/17_memory_integrity.md. -/

def MEM.HBM_STAT.STATE : Fld := ⟨0x1C00000, 4, 0, 28, 4⟩
def MEM.HBM_STAT.HOT : Fld := ⟨0x1C00000, 4, 0, 27, 1⟩
def MEM.HBM_STAT.TEMP : Fld := ⟨0x1C00000, 4, 0, 8, 8⟩
def MEM.HBM_STAT.BAR2_GIB : Fld := ⟨0x1C00000, 4, 0, 0, 8⟩
def MEM.SCRUB_CTL.ENABLE : Fld := ⟨0x1C00010, 0, 0, 31, 1⟩
def MEM.SCRUB_CTL.HOURS : Fld := ⟨0x1C00010, 0, 0, 0, 8⟩
def MEM.SCRUB_STAT.PROGRESS : Fld := ⟨0x1C00014, 0, 0, 24, 8⟩
def MEM.CE_LO.COUNT : Fld := ⟨0x1C00020, 0, 0, 0, 32⟩
def MEM.CE_HI.COUNT : Fld := ⟨0x1C00024, 0, 0, 0, 32⟩
def MEM.PAGE_FIX.COUNT : Fld := ⟨0x1C00040, 0, 0, 0, 32⟩
def MEM.POISON_WRITTEN.COUNT : Fld := ⟨0x1C00044, 0, 0, 0, 32⟩
def MEM.PKT_POISON.COUNT : Fld := ⟨0x1C00048, 0, 0, 0, 32⟩
def MEM.CA_PARITY.COUNT : Fld := ⟨0x1C0004C, 0, 0, 0, 32⟩
def MEM.MERGE_POISON.COUNT : Fld := ⟨0x1C00050, 0, 0, 0, 32⟩
def MEM.LOG_PROD.PROD : Fld := ⟨0x1C00060, 0, 0, 0, 32⟩
def MEM.LOG_CONS.CONS : Fld := ⟨0x1C00064, 0, 0, 0, 32⟩
def MEM.LOG_LOST.COUNT : Fld := ⟨0x1C00068, 0, 0, 0, 32⟩
def MEM.TEST_CTL.ENABLE : Fld := ⟨0x1C00080, 0, 0, 31, 1⟩
def MEM.TEST_CTL.CHANNEL : Fld := ⟨0x1C00080, 0, 0, 0, 24⟩
def MEM.TEST_ADDR.WORD : Fld := ⟨0x1C00084, 0, 0, 0, 13⟩
def MEM.TEST_DATA_LO.DATA : Fld := ⟨0x1C00088, 0, 0, 0, 32⟩
def MEM.TEST_DATA_HI.DATA : Fld := ⟨0x1C0008C, 0, 0, 0, 32⟩
def MEM.TEST_CHECK.CHECK : Fld := ⟨0x1C00090, 0, 0, 0, 8⟩
def MEM.TEST_CMD.OP : Fld := ⟨0x1C00094, 0, 0, 30, 2⟩
def MEM.TEST_RESULT.RESULT : Fld := ⟨0x1C00098, 0, 0, 28, 4⟩
def MEM.TEST_RESULT.SYNDROME : Fld := ⟨0x1C00098, 0, 0, 0, 8⟩
def MEM.EVT.ALL : Fld := ⟨0x1C00100, 0, 0, 0, 9⟩
def MEM.EVT_EN.ALL : Fld := ⟨0x1C00104, 0, 0, 0, 9⟩
def MEM.LOG.ALL : Fld := ⟨0x1C01000, 32, 4, 0, 32⟩

/-! Fields of spec/18_lanes_and_jorras.md. -/

def LNK.CFG.FOM_MIN : Fld := ⟨0x1E00000, 0, 0, 24, 8⟩
def LNK.CFG.DEVICE : Fld := ⟨0x1E00000, 0, 0, 0, 11⟩
def LNK.CLUSTER_LO.TAG : Fld := ⟨0x1E00008, 0, 0, 0, 32⟩
def LNK.CLUSTER_HI.TAG : Fld := ⟨0x1E0000C, 0, 0, 0, 32⟩
def LNK.EVT.ALL : Fld := ⟨0x1E00100, 0, 0, 0, 13⟩
def LNK.EVT_EN.ALL : Fld := ⟨0x1E00104, 0, 0, 0, 13⟩
def LNK.ROUTE.VALID : Fld := ⟨0x1E04000, 4, 0, 31, 1⟩
def LNK.ROUTE.ALT_VALID : Fld := ⟨0x1E04000, 4, 0, 30, 1⟩
def LNK.ROUTE.LEVEL : Fld := ⟨0x1E04000, 4, 0, 8, 16⟩
def LNK.ROUTE.ALT : Fld := ⟨0x1E04000, 4, 0, 4, 4⟩
def LNK.ROUTE.PRIMARY : Fld := ⟨0x1E04000, 4, 0, 0, 4⟩
def LNK.LANE_CTL.RETRAIN : Fld := ⟨0x1E00400, 16, 0, 31, 1⟩
def LNK.LANE_CTL.LOOP : Fld := ⟨0x1E00400, 16, 0, 29, 2⟩
def LNK.LANE_CTL.TX_SLEEP : Fld := ⟨0x1E00400, 16, 0, 28, 1⟩
def LNK.LANE_CTL.RX_SLEEP : Fld := ⟨0x1E00400, 16, 0, 27, 1⟩
def LNK.LANE_CTL.PRBS : Fld := ⟨0x1E00400, 16, 0, 24, 3⟩
def LNK.LANE_CTL.PAM4 : Fld := ⟨0x1E00400, 16, 0, 23, 1⟩
def LNK.LANE_CTL.RATE : Fld := ⟨0x1E00400, 16, 0, 10, 13⟩
def LNK.LANE_STAT.STATE : Fld := ⟨0x1E00404, 16, 0, 28, 4⟩
def LNK.LANE_STAT.POL_INV : Fld := ⟨0x1E00404, 16, 0, 27, 1⟩
def LNK.LANE_STAT.TX_ACTIVE : Fld := ⟨0x1E00404, 16, 0, 26, 1⟩
def LNK.LANE_STAT.RX_ACTIVE : Fld := ⟨0x1E00404, 16, 0, 25, 1⟩
def LNK.LANE_STAT.FOM : Fld := ⟨0x1E00404, 16, 0, 0, 8⟩
def LNK.LANE_PRBS_ERR.COUNT : Fld := ⟨0x1E00408, 16, 0, 0, 32⟩
def LNK.ETH_STAT.STATE : Fld := ⟨0x1E01000, 64, 0, 28, 4⟩
def LNK.ETH_STAT.REVERSED : Fld := ⟨0x1E01000, 64, 0, 27, 1⟩
def LNK.ETH_STAT.MODE : Fld := ⟨0x1E01000, 64, 0, 0, 16⟩
def LNK.ETH_CFG.SEC : Fld := ⟨0x1E01004, 64, 0, 31, 1⟩
def LNK.ETH_CFG.TX_AN : Fld := ⟨0x1E01004, 64, 0, 28, 2⟩
def LNK.ETH_CFG.TUN_PORT : Fld := ⟨0x1E01004, 64, 0, 0, 16⟩
def LNK.ETH_MAC_LO.MAC : Fld := ⟨0x1E01008, 64, 0, 0, 32⟩
def LNK.ETH_MAC_HI.MAC : Fld := ⟨0x1E0100C, 64, 0, 0, 16⟩
def LNK.ETH_SA.RX_SLOT : Fld := ⟨0x1E01010, 64, 4, 16, 16⟩
def LNK.ETH_SA.TX_SLOT : Fld := ⟨0x1E01010, 64, 4, 0, 16⟩
def LNK.ETH_RX_LO.COUNT : Fld := ⟨0x1E01020, 64, 0, 0, 32⟩
def LNK.ETH_RX_HI.COUNT : Fld := ⟨0x1E01024, 64, 0, 0, 32⟩
def LNK.ETH_TX_LO.COUNT : Fld := ⟨0x1E01028, 64, 0, 0, 32⟩
def LNK.ETH_TX_HI.COUNT : Fld := ⟨0x1E0102C, 64, 0, 0, 32⟩
def LNK.ETH_RX_FCS.COUNT : Fld := ⟨0x1E01030, 64, 0, 0, 32⟩
def LNK.ETH_TX_DISCARD.COUNT : Fld := ⟨0x1E01034, 64, 0, 0, 32⟩
def LNK.ETH_SEC_DROP.COUNT : Fld := ⟨0x1E01038, 64, 0, 0, 32⟩
def LNK.ETH_TUN_DROP.COUNT : Fld := ⟨0x1E0103C, 64, 0, 0, 32⟩
def LNK.JL_STAT.STATE : Fld := ⟨0x1E02000, 64, 0, 28, 4⟩
def LNK.JL_STAT.REVERSED : Fld := ⟨0x1E02000, 64, 0, 27, 1⟩
def LNK.JL_STAT.TUNNEL : Fld := ⟨0x1E02000, 64, 0, 26, 1⟩
def LNK.JL_STAT.WIDTH : Fld := ⟨0x1E02000, 64, 0, 22, 4⟩
def LNK.JL_STAT.MASK : Fld := ⟨0x1E02000, 64, 0, 14, 8⟩
def LNK.JL_STAT.PEER : Fld := ⟨0x1E02000, 64, 0, 0, 11⟩
def LNK.JL_LEVEL.LEVEL : Fld := ⟨0x1E02004, 64, 0, 0, 16⟩
def LNK.JL_CFG.SEC : Fld := ⟨0x1E02008, 64, 0, 31, 1⟩
def LNK.JL_CFG.IPV6 : Fld := ⟨0x1E02008, 64, 0, 30, 1⟩
def LNK.JL_CFG.TX_AN : Fld := ⟨0x1E02008, 64, 0, 28, 2⟩
def LNK.JL_CFG.REMOTE_PORT : Fld := ⟨0x1E02008, 64, 0, 0, 16⟩
def LNK.JL_TUN_ADDR.ADDR : Fld := ⟨0x1E02010, 64, 4, 0, 32⟩
def LNK.JL_SA.RX_SLOT : Fld := ⟨0x1E02020, 64, 4, 16, 16⟩
def LNK.JL_SA.TX_SLOT : Fld := ⟨0x1E02020, 64, 4, 0, 16⟩
def LNK.JL_FLITS_LO.COUNT : Fld := ⟨0x1E02030, 64, 0, 0, 32⟩
def LNK.JL_FLITS_HI.COUNT : Fld := ⟨0x1E02034, 64, 0, 0, 32⟩
def LNK.JL_REPLAY.COUNT : Fld := ⟨0x1E02038, 64, 0, 0, 32⟩
def LNK.JL_DROP.COUNT : Fld := ⟨0x1E0203C, 64, 0, 0, 32⟩

/-! Fields of spec/19_pcie_host.md. -/

def GLB.STATUS.FROZEN : Fld := ⟨0x10, 0, 0, 31, 1⟩
def GLB.STATUS.WARM : Fld := ⟨0x10, 0, 0, 30, 1⟩
def GLB.STATUS.READY : Fld := ⟨0x10, 0, 0, 29, 1⟩
def HIF.LINK.GEN : Fld := ⟨0x2000000, 0, 0, 28, 4⟩
def HIF.LINK.WIDTH : Fld := ⟨0x2000000, 0, 0, 23, 5⟩
def HIF.LINK.MPS : Fld := ⟨0x2000000, 0, 0, 20, 3⟩
def HIF.NO_QP.COUNT : Fld := ⟨0x2000010, 0, 0, 0, 32⟩
def HIF.SVC_STAT.STATE : Fld := ⟨0x2000200, 4, 0, 28, 4⟩
def HIF.SVC_STAT.CORES : Fld := ⟨0x2000200, 4, 0, 0, 16⟩
def HIF.VF_LEG.BASE : Fld := ⟨0x2001000, 16, 0, 16, 16⟩
def HIF.VF_LEG.LAST : Fld := ⟨0x2001000, 16, 0, 0, 16⟩
def HIF.VF_SASH.BASE : Fld := ⟨0x2001004, 16, 0, 16, 16⟩
def HIF.VF_SASH.LAST : Fld := ⟨0x2001004, 16, 0, 0, 16⟩
def HIF.VF_SLOT.BASE : Fld := ⟨0x2001008, 16, 0, 16, 16⟩
def HIF.VF_SLOT.LAST : Fld := ⟨0x2001008, 16, 0, 0, 16⟩
def HIF.VF_QP.BASE : Fld := ⟨0x200100C, 16, 0, 16, 16⟩
def HIF.VF_QP.LAST : Fld := ⟨0x200100C, 16, 0, 0, 16⟩
def HIF.EVT.ALL : Fld := ⟨0x2000100, 0, 0, 0, 4⟩
def HIF.EVT_EN.ALL : Fld := ⟨0x2000104, 0, 0, 0, 4⟩
def HIF.QP_CFG.ENABLE : Fld := ⟨0x2004000, 32, 0, 31, 1⟩
def HIF.QP_CFG.KIND : Fld := ⟨0x2004000, 32, 0, 29, 2⟩
def HIF.QP_CFG.VECTOR : Fld := ⟨0x2004000, 32, 0, 0, 11⟩
def HIF.QP_RING0_LO.ADDR : Fld := ⟨0x2004004, 32, 0, 0, 32⟩
def HIF.QP_RING0_HI.ADDR : Fld := ⟨0x2004008, 32, 0, 0, 32⟩
def HIF.QP_RING1_LO.ADDR : Fld := ⟨0x200400C, 32, 0, 0, 32⟩
def HIF.QP_RING1_HI.ADDR : Fld := ⟨0x2004010, 32, 0, 0, 32⟩
def HIF.QP_IDX_LO.ADDR : Fld := ⟨0x2004014, 32, 0, 0, 32⟩
def HIF.QP_IDX_HI.ADDR : Fld := ⟨0x2004018, 32, 0, 0, 32⟩
def HIF.DB_PROD.INDEX : Fld := ⟨0x2010000, 8, 0, 0, 32⟩
def HIF.DB_CONS.INDEX : Fld := ⟨0x2010004, 8, 0, 0, 32⟩

/-! Fields of spec/20_deadbolt_faults_test.md. -/

def DBT.STATUS.MGMT_KEY : Fld := ⟨0x2800000, 0, 0, 31, 1⟩
def DBT.STATUS.WRAP_KEY : Fld := ⟨0x2800000, 0, 0, 30, 1⟩
def DBT.STATUS.OTP_USED : Fld := ⟨0x2800000, 0, 0, 0, 7⟩
def DBT.POWER.CAP_W : Fld := ⟨0x2800004, 0, 0, 22, 10⟩
def DBT.POWER.TJ_LIMIT : Fld := ⟨0x2800004, 0, 0, 14, 8⟩
def DBT.POLICY.KEEP_KEYS : Fld := ⟨0x2800008, 0, 0, 31, 1⟩
def DBT.POLICY.SHUTTER_EN : Fld := ⟨0x2800008, 0, 0, 30, 1⟩
def DBT.POLICY.TRIG : Fld := ⟨0x2800008, 0, 0, 26, 4⟩
def DBT.DEBUG.PEEP : Fld := ⟨0x280000C, 0, 0, 31, 1⟩
def DBT.DEBUG.TEST : Fld := ⟨0x280000C, 0, 0, 30, 1⟩
def DBT.BUCKET.T : Fld := ⟨0x2800010, 0, 0, 24, 8⟩
def DBT.BUCKET.W_S : Fld := ⟨0x2800010, 0, 0, 0, 24⟩
def DBT.BIST_CTL.ENABLE : Fld := ⟨0x2800014, 0, 0, 31, 1⟩
def DBT.BIST_CTL.HOURS : Fld := ⟨0x2800014, 0, 0, 0, 8⟩
def DBT.TRANSIENTS_LO.COUNT : Fld := ⟨0x2800020, 0, 0, 0, 32⟩
def DBT.TRANSIENTS_HI.COUNT : Fld := ⟨0x2800024, 0, 0, 0, 32⟩
def DBT.AUTH_FAIL.COUNT : Fld := ⟨0x2800028, 0, 0, 0, 32⟩
def DBT.EVT.ALL : Fld := ⟨0x2800100, 0, 0, 0, 8⟩
def DBT.EVT_EN.ALL : Fld := ⟨0x2800104, 0, 0, 0, 8⟩
def DBT.CH.STATE : Fld := ⟨0x2801000, 512, 4, 28, 4⟩
def DBT.CH.CAUSE : Fld := ⟨0x2801000, 512, 4, 24, 4⟩
def DBT.CH.COUNT : Fld := ⟨0x2801000, 512, 4, 16, 8⟩
def DBT.CH.OTP : Fld := ⟨0x2801000, 512, 4, 15, 1⟩
def DBT.CH.SERVED_BY : Fld := ⟨0x2801000, 512, 4, 0, 7⟩
def DBT.CH_LIN.STATE : Fld := ⟨0x2803000, 4, 0, 28, 4⟩
def DBT.CH_LIN.CAUSE : Fld := ⟨0x2803000, 4, 0, 24, 4⟩
def DBT.CH_LIN.COUNT : Fld := ⟨0x2803000, 4, 0, 16, 8⟩
def DBT.CH_LIN.OTP : Fld := ⟨0x2803000, 4, 0, 15, 1⟩
def DBT.CH_LIN.SERVED_BY : Fld := ⟨0x2803000, 4, 0, 0, 7⟩
def DBT.PAGE_CH.CHANNEL : Fld := ⟨0x2804000, 8, 0, 0, 32⟩
def DBT.PAGE_COUNT.COUNT : Fld := ⟨0x2804004, 8, 0, 0, 32⟩
def DBT.OTP_HI.CHANNEL : Fld := ⟨0x2800204, 8, 0, 0, 32⟩
def DBT.OTP_LO.CAUSE : Fld := ⟨0x2800200, 8, 0, 28, 4⟩
def DBT.OTP_LO.SPARE : Fld := ⟨0x2800200, 8, 0, 16, 12⟩
def DBT.OTP_LO.DAY : Fld := ⟨0x2800200, 8, 0, 0, 16⟩
def TST.SHUT_STAT.STATE : Fld := ⟨0x2C00000, 0, 0, 28, 4⟩
def TST.SHUT_STAT.CAUSE : Fld := ⟨0x2C00000, 0, 0, 24, 4⟩
def TST.SHUT_NS.TIME : Fld := ⟨0x2C00004, 0, 0, 0, 32⟩
def TST.SHUT_SEC.TIME : Fld := ⟨0x2C00008, 0, 0, 0, 32⟩
def TST.SHUT_DUR.NS : Fld := ⟨0x2C0000C, 0, 0, 0, 32⟩
def TST.BIST_LAST.RESULT : Fld := ⟨0x2C00010, 0, 0, 28, 4⟩
def TST.BIST_LAST.TYPE : Fld := ⟨0x2C00010, 0, 0, 8, 8⟩
def TST.BIST_LAST.INSTANCE : Fld := ⟨0x2C00010, 0, 0, 0, 7⟩
def TST.BIST_RUNS_LO.COUNT : Fld := ⟨0x2C00020, 0, 0, 0, 32⟩
def TST.BIST_RUNS_HI.COUNT : Fld := ⟨0x2C00024, 0, 0, 0, 32⟩
def TST.BIST_FAILS.COUNT : Fld := ⟨0x2C00028, 0, 0, 0, 32⟩
def TST.EVT.ALL : Fld := ⟨0x2C00100, 0, 0, 0, 7⟩
def TST.EVT_EN.ALL : Fld := ⟨0x2C00104, 0, 0, 0, 7⟩

/-! Fields of spec/21_start_power_package.md. -/

def GLB.START_STATUS.STATE : Fld := ⟨0x20, 0, 0, 28, 4⟩
def GLB.START_STATUS.STEP : Fld := ⟨0x20, 0, 0, 24, 4⟩
def GLB.START_STATUS.CODE : Fld := ⟨0x20, 0, 0, 16, 8⟩
def GLB.START_STATUS.RETRIES : Fld := ⟨0x20, 0, 0, 14, 2⟩
def GLB.START_STATUS.RECOVERY : Fld := ⟨0x20, 0, 0, 13, 1⟩
def GLB.START_STATUS.KEPT_KEYS : Fld := ⟨0x20, 0, 0, 12, 1⟩
def GLB.START_STATUS.SOURCE : Fld := ⟨0x20, 0, 0, 8, 4⟩
def GLB.START_TIME.MS : Fld := ⟨0x24, 0, 0, 0, 32⟩
def GLB.START_CTL.WARM : Fld := ⟨0x28, 0, 0, 31, 1⟩
def GLB.START_CTL.RECOVERY : Fld := ⟨0x28, 0, 0, 30, 1⟩
def GLB.THERM.HOT_C : Fld := ⟨0x2C, 0, 0, 24, 8⟩
def GLB.THERM.HOT_ID : Fld := ⟨0x2C, 0, 0, 19, 5⟩
def GLB.THERM.VALID_CNT : Fld := ⟨0x2C, 0, 0, 13, 6⟩

/-! Fields of spec/02_self_timed_fabric.md. -/

def GLB.FAB_EVT.ALL : Fld := ⟨0x190, 0, 0, 0, 10⟩
def GLB.FAB_EVT_EN.ALL : Fld := ⟨0x194, 0, 0, 0, 10⟩

/-! Fields of spec/21_start_power_package.md. -/

def GLB.START_EVT.ALL : Fld := ⟨0x1A0, 0, 0, 0, 4⟩
def GLB.START_EVT_EN.ALL : Fld := ⟨0x1A4, 0, 0, 0, 4⟩

/-! Fields of spec/03_hexmus_image.md. -/

def IMG.EVT.ALL : Fld := ⟨0x300100, 0, 0, 0, 6⟩
def IMG.EVT_EN.ALL : Fld := ⟨0x300104, 0, 0, 0, 6⟩

/-! Fields of spec/04_louvre_budgets.md. -/

def LVR.EVT.ALL : Fld := ⟨0x100100, 0, 0, 0, 9⟩
def LVR.EVT_EN.ALL : Fld := ⟨0x100104, 0, 0, 0, 9⟩

/-- Register table lines, part 1. -/
def regTable0 : List RegRow := [
  ⟨0x0, 4, 1, 4, 1, [⟨16, 16, .ro, 0xE21⟩, ⟨8, 8, .ro, 0x21⟩]⟩,
  ⟨0x4, 4, 1, 4, 1, [⟨24, 8, .db, 0x0⟩, ⟨22, 2, .db, 0x0⟩, ⟨20, 2, .db, 0x1⟩, ⟨18, 2, .db, 0x3⟩, ⟨16, 2, .db, 0x2⟩, ⟨14, 2, .db, 0x3⟩, ⟨12, 2, .db, 0x2⟩, ⟨11, 1, .db, 0x1⟩, ⟨10, 1, .db, 0x1⟩]⟩,
  ⟨0x8, 4, 1, 4, 1, [⟨28, 4, .db, 0x0⟩, ⟨24, 4, .db, 0x8⟩, ⟨17, 7, .db, 0x40⟩, ⟨14, 3, .db, 0x4⟩, ⟨10, 4, .db, 0x8⟩, ⟨5, 5, .db, 0x10⟩, ⟨0, 5, .db, 0x18⟩]⟩,
  ⟨0xC, 4, 1, 4, 1, [⟨7, 1, .db, 0x1⟩, ⟨2, 5, .db, 0x10⟩, ⟨0, 2, .db, 0x3⟩]⟩,
  ⟨0x100, 4, 32, 4, 1, [⟨31, 1, .ro, 0x0⟩, ⟨0, 16, .ro, 0x0⟩]⟩,
  ⟨0x180, 4, 1, 4, 1, [⟨31, 1, .ro, 0x0⟩, ⟨24, 5, .ro, 0x0⟩, ⟨16, 6, .ro, 0x0⟩, ⟨0, 16, .ro, 0x0⟩]⟩,
  ⟨0x184, 4, 1, 4, 1, [⟨28, 4, .db, 0x6⟩, ⟨16, 12, .db, 0x2EE⟩, ⟨0, 16, .db, 0x2000⟩]⟩,
  ⟨0x1000, 4, 1024, 4, 1, [⟨28, 4, .ro, 0x0⟩, ⟨27, 1, .ro, 0x0⟩, ⟨26, 1, .ro, 0x0⟩, ⟨25, 1, .ro, 0x0⟩, ⟨0, 16, .ro, 0x0⟩]⟩,
  ⟨0x300000, 4, 1, 4, 1, [⟨31, 1, .ro, 0x0⟩, ⟨30, 1, .ro, 0x0⟩, ⟨29, 1, .ro, 0x0⟩, ⟨28, 1, .ro, 0x0⟩, ⟨27, 1, .ro, 0x0⟩, ⟨26, 1, .ro, 0x0⟩, ⟨25, 1, .ro, 0x0⟩, ⟨24, 1, .ro, 0x0⟩, ⟨0, 16, .ro, 0x0⟩]⟩,
  ⟨0x300004, 4, 1, 4, 1, [⟨31, 1, .sh, 0x0⟩, ⟨30, 1, .sh, 0x0⟩, ⟨29, 1, .sh, 0x0⟩, ⟨0, 10, .sh, 0x0⟩]⟩,
  ⟨0x300008, 4, 1, 4, 1, [⟨0, 32, .ro, 0x0⟩]⟩,
  ⟨0x30000C, 4, 1, 4, 1, [⟨0, 32, .ro, 0x0⟩]⟩,
  ⟨0x300010, 4, 1, 4, 1, [⟨0, 32, .ro, 0x0⟩]⟩,
  ⟨0x300014, 4, 1, 4, 1, [⟨0, 32, .ro, 0x0⟩]⟩,
  ⟨0x300018, 4, 1, 4, 1, [⟨0, 32, .ro, 0x0⟩]⟩,
  ⟨0x30001C, 4, 1, 4, 1, [⟨0, 32, .ro, 0x0⟩]⟩,
  ⟨0x300020, 4, 1, 4, 1, [⟨0, 16, .ro, 0x0⟩]⟩,
  ⟨0x300040, 4, 8, 4, 1, [⟨0, 32, .ro, 0x0⟩]⟩,
  ⟨0x300080, 4, 16, 4, 1, [⟨28, 4, .ro, 0x0⟩, ⟨0, 16, .ro, 0x0⟩]⟩,
  ⟨0x100000, 4, 1, 4, 1, [⟨31, 1, .ro, 0x1⟩, ⟨30, 1, .ro, 0x0⟩]⟩,
  ⟨0x100008, 4, 1, 4, 1, [⟨0, 32, .ro, 0x0⟩]⟩,
  ⟨0x10000C, 4, 1, 4, 1, [⟨0, 32, .ro, 0x0⟩]⟩,
  ⟨0x100010, 4, 1, 4, 1, [⟨0, 32, .ro, 0x0⟩]⟩,
  ⟨0x100020, 4, 1, 4, 1, [⟨16, 3, .rw, 0x0⟩, ⟨0, 16, .rw, 0x0⟩]⟩]

/-- Register table lines, part 2. -/
def regTable1 : List RegRow := [
  ⟨0x100024, 4, 1, 4, 1, [⟨0, 32, .ro, 0x0⟩]⟩,
  ⟨0x100028, 4, 1, 4, 1, [⟨0, 32, .ro, 0x0⟩]⟩,
  ⟨0x10002C, 4, 1, 4, 1, [⟨0, 11, .ro, 0x0⟩]⟩,
  ⟨0x100030, 4, 1, 4, 1, [⟨0, 32, .rc, 0x0⟩]⟩,
  ⟨0x100034, 4, 1, 4, 1, [⟨0, 32, .ro, 0x0⟩]⟩,
  ⟨0x101000, 4, 1024, 4, 1, [⟨0, 32, .ro, 0x0⟩]⟩,
  ⟨0x102000, 4, 1024, 4, 1, [⟨0, 32, .ro, 0x0⟩]⟩,
  ⟨0x200000, 4, 1, 4, 1, [⟨31, 1, .ro, 0x0⟩, ⟨30, 1, .ro, 0x0⟩, ⟨16, 5, .ro, 0x0⟩]⟩,
  ⟨0x200004, 4, 1, 4, 1, [⟨30, 2, .wo, 0x0⟩, ⟨29, 1, .wo, 0x0⟩, ⟨28, 1, .wo, 0x0⟩, ⟨27, 1, .wo, 0x0⟩, ⟨0, 16, .wo, 0x0⟩]⟩,
  ⟨0x200008, 4, 1, 4, 1, [⟨0, 16, .rw, 0x0⟩]⟩,
  ⟨0x20000C, 4, 1, 4, 1, [⟨0, 32, .rw, 0x0⟩]⟩,
  ⟨0x200010, 4, 1, 4, 1, [⟨0, 32, .rw, 0x0⟩]⟩,
  ⟨0x200014, 4, 1, 4, 1, [⟨0, 16, .rw, 0x0⟩]⟩,
  ⟨0x200018, 4, 1, 4, 1, [⟨0, 8, .rw, 0x8⟩]⟩,
  ⟨0x200020, 4, 1, 4, 1, [⟨0, 32, .ro, 0x0⟩]⟩,
  ⟨0x200024, 4, 1, 4, 1, [⟨0, 32, .ro, 0x0⟩]⟩,
  ⟨0x200028, 4, 1, 4, 1, [⟨0, 32, .ro, 0x0⟩]⟩,
  ⟨0x20002C, 4, 1, 4, 1, [⟨0, 32, .ro, 0x0⟩]⟩,
  ⟨0x200030, 4, 1, 4, 1, [⟨0, 32, .ro, 0x0⟩]⟩,
  ⟨0x200034, 4, 1, 4, 1, [⟨0, 32, .ro, 0x0⟩]⟩,
  ⟨0x200038, 4, 1, 4, 1, [⟨28, 4, .ro, 0x0⟩, ⟨0, 11, .ro, 0x0⟩]⟩,
  ⟨0x200040, 4, 1, 4, 1, [⟨0, 1, .rw, 0x0⟩]⟩,
  ⟨0x200050, 4, 1, 4, 1, [⟨0, 32, .ro, 0x0⟩]⟩,
  ⟨0x200054, 4, 1, 4, 1, [⟨0, 32, .ro, 0x0⟩]⟩]

/-- Register table lines, part 3. -/
def regTable2 : List RegRow := [
  ⟨0x200060, 4, 1, 4, 1, [⟨0, 32, .rw, 0x0⟩]⟩,
  ⟨0x200064, 4, 1, 4, 1, [⟨0, 32, .rw, 0x0⟩]⟩,
  ⟨0x200068, 4, 1, 4, 1, [⟨0, 32, .rw, 0x0⟩]⟩,
  ⟨0x20006C, 4, 1, 4, 1, [⟨0, 32, .rw, 0xFFFFFFFF⟩]⟩,
  ⟨0x200070, 4, 1, 4, 1, [⟨30, 2, .wo, 0x0⟩, ⟨29, 1, .wo, 0x0⟩, ⟨28, 1, .wo, 0x0⟩]⟩,
  ⟨0x200078, 4, 1, 4, 1, [⟨0, 32, .ro, 0x0⟩]⟩,
  ⟨0x200080, 4, 1, 4, 1, [⟨0, 9, .w1c, 0x0⟩]⟩,
  ⟨0x200084, 4, 1, 4, 1, [⟨0, 9, .rw, 0x1FF⟩]⟩,
  ⟨0x200100, 4, 64, 4, 1, [⟨0, 32, .rw, 0x0⟩]⟩,
  ⟨0x200200, 4, 1, 4, 1, [⟨0, 32, .rw, 0x0⟩]⟩,
  ⟨0x200204, 4, 1, 4, 1, [⟨0, 32, .rw, 0x0⟩]⟩,
  ⟨0x200208, 4, 1, 4, 1, [⟨0, 5, .rw, 0x0⟩]⟩,
  ⟨0x20020C, 4, 1, 4, 1, [⟨0, 32, .ro, 0x0⟩]⟩,
  ⟨0x200210, 4, 1, 4, 1, [⟨0, 32, .rw, 0x0⟩]⟩,
  ⟨0x200214, 4, 1, 4, 1, [⟨0, 32, .ro, 0x0⟩]⟩,
  ⟨0x200400, 4, 256, 4, 1, [⟨31, 1, .rw, 0x0⟩, ⟨25, 6, .rw, 0x0⟩, ⟨0, 11, .rw, 0x0⟩]⟩,
  ⟨0x400000, 4, 1, 4, 1, [⟨18, 2, .sh, 0x0⟩, ⟨16, 2, .sh, 0x0⟩, ⟨0, 10, .sh, 0x0⟩]⟩,
  ⟨0x400004, 4, 1, 4, 1, [⟨16, 12, .sh, 0x0⟩, ⟨0, 12, .sh, 0x0⟩]⟩,
  ⟨0x400010, 4, 1, 4, 1, [⟨0, 19, .ro, 0x0⟩]⟩,
  ⟨0x400100, 4, 1, 4, 1, [⟨0, 8, .w1c, 0x0⟩]⟩,
  ⟨0x400104, 4, 1, 4, 1, [⟨0, 8, .rw, 0xFF⟩]⟩,
  ⟨0x401000, 64, 8, 4, 1, [⟨0, 32, .ro, 0x0⟩]⟩,
  ⟨0x401004, 64, 8, 4, 1, [⟨0, 32, .ro, 0x0⟩]⟩,
  ⟨0x401008, 64, 8, 4, 1, [⟨0, 32, .ro, 0x0⟩]⟩]

/-- Register table lines, part 4. -/
def regTable3 : List RegRow := [
  ⟨0x40100C, 64, 8, 4, 1, [⟨0, 32, .ro, 0x0⟩]⟩,
  ⟨0x401010, 64, 8, 4, 1, [⟨0, 32, .ro, 0x0⟩]⟩,
  ⟨0x401014, 64, 8, 4, 1, [⟨0, 32, .ro, 0x0⟩]⟩,
  ⟨0x401018, 64, 8, 4, 1, [⟨0, 32, .ro, 0x0⟩]⟩,
  ⟨0x40101C, 64, 8, 4, 1, [⟨0, 32, .ro, 0x0⟩]⟩,
  ⟨0x401020, 64, 8, 4, 1, [⟨0, 32, .ro, 0x0⟩]⟩,
  ⟨0x401024, 64, 8, 4, 1, [⟨0, 32, .ro, 0x0⟩]⟩,
  ⟨0x401028, 64, 8, 4, 1, [⟨0, 32, .ro, 0x0⟩]⟩,
  ⟨0x40102C, 64, 8, 4, 1, [⟨0, 32, .ro, 0x0⟩]⟩,
  ⟨0x401030, 64, 8, 4, 1, [⟨0, 32, .ro, 0x0⟩]⟩,
  ⟨0x401034, 64, 8, 4, 1, [⟨0, 32, .ro, 0x0⟩]⟩,
  ⟨0x401038, 64, 8, 4, 1, [⟨0, 32, .ro, 0x0⟩]⟩,
  ⟨0x40103C, 64, 8, 4, 1, [⟨0, 32, .ro, 0x0⟩]⟩,
  ⟨0x800000, 4, 1, 4, 1, [⟨0, 16, .ro, 0xC80⟩]⟩,
  ⟨0x800100, 4, 1, 4, 1, [⟨0, 8, .w1c, 0x0⟩]⟩,
  ⟨0x800104, 4, 1, 4, 1, [⟨0, 8, .rw, 0xFF⟩]⟩,
  ⟨0x800200, 4, 64, 4, 1, [⟨8, 11, .rw, 0x400⟩, ⟨0, 8, .rw, 0x10⟩]⟩,
  ⟨0x801000, 256, 32, 4, 1, [⟨0, 9, .sh, 0x0⟩]⟩,
  ⟨0x801004, 256, 32, 4, 1, [⟨0, 32, .sh, 0xF4240⟩]⟩,
  ⟨0x801008, 256, 32, 4, 1, [⟨0, 32, .sh, 0x0⟩]⟩,
  ⟨0x80100C, 256, 32, 4, 1, [⟨0, 32, .sh, 0x0⟩]⟩,
  ⟨0x801010, 256, 32, 4, 1, [⟨0, 16, .sh, 0x0⟩]⟩,
  ⟨0x801014, 256, 32, 4, 1, [⟨31, 1, .ro, 0x0⟩, ⟨16, 8, .ro, 0x0⟩, ⟨0, 9, .ro, 0x0⟩]⟩,
  ⟨0x801018, 256, 32, 4, 1, [⟨0, 32, .ro, 0x0⟩]⟩]

/-- Register table lines, part 5. -/
def regTable4 : List RegRow := [
  ⟨0x80101C, 256, 32, 4, 1, [⟨0, 32, .ro, 0x0⟩]⟩,
  ⟨0x801020, 256, 32, 4, 1, [⟨0, 32, .ro, 0x0⟩]⟩,
  ⟨0x801024, 256, 32, 4, 1, [⟨0, 32, .ro, 0x0⟩]⟩,
  ⟨0x801040, 256, 32, 8, 8, [⟨0, 32, .ro, 0x0⟩]⟩,
  ⟨0x801044, 256, 32, 8, 8, [⟨0, 32, .ro, 0x0⟩]⟩,
  ⟨0x804000, 1024, 32, 4, 256, [⟨24, 8, .sh, 0xFF⟩, ⟨22, 2, .sh, 0x0⟩, ⟨0, 22, .sh, 0x0⟩]⟩,
  ⟨0x810000, 16, 2048, 4, 1, [⟨31, 1, .wo, 0x0⟩, ⟨0, 5, .rw, 0x9⟩]⟩,
  ⟨0x810004, 16, 2048, 4, 1, [⟨0, 32, .ro, 0x0⟩]⟩,
  ⟨0x810008, 16, 2048, 4, 1, [⟨0, 32, .ro, 0x0⟩]⟩,
  ⟨0x81000C, 16, 2048, 4, 1, [⟨0, 32, .ro, 0x0⟩]⟩,
  ⟨0x820000, 16, 16384, 4, 1, [⟨8, 11, .sh, 0x100⟩, ⟨0, 8, .sh, 0x10⟩]⟩,
  ⟨0x820004, 16, 16384, 4, 1, [⟨0, 32, .ro, 0x0⟩]⟩,
  ⟨0x820008, 16, 16384, 4, 1, [⟨0, 32, .ro, 0x0⟩]⟩,
  ⟨0x82000C, 16, 16384, 4, 1, [⟨0, 32, .ro, 0x0⟩]⟩,
  ⟨0xB00000, 4, 1, 4, 1, [⟨31, 1, .rw, 0x0⟩, ⟨0, 16, .rw, 0x1F40⟩]⟩,
  ⟨0xB00004, 4, 1, 4, 1, [⟨0, 32, .ro, 0x0⟩]⟩,
  ⟨0xB00100, 4, 64, 4, 1, [⟨31, 1, .rw, 0x0⟩, ⟨14, 1, .rw, 0x0⟩, ⟨0, 14, .rw, 0x0⟩]⟩,
  ⟨0xB00200, 8, 64, 4, 1, [⟨0, 32, .ro, 0x0⟩]⟩,
  ⟨0xB00204, 8, 64, 4, 1, [⟨0, 32, .ro, 0x0⟩]⟩,
  ⟨0xC00000, 65536, 24, 4, 1, [⟨28, 4, .ro, 0x0⟩, ⟨27, 1, .ro, 0x0⟩, ⟨26, 1, .ro, 0x0⟩, ⟨25, 1, .ro, 0x0⟩, ⟨24, 1, .ro, 0x0⟩, ⟨19, 5, .ro, 0x0⟩, ⟨16, 3, .ro, 0x3⟩, ⟨0, 10, .ro, 0x0⟩]⟩,
  ⟨0xC00004, 65536, 24, 4, 1, [⟨16, 16, .ro, 0x0⟩]⟩,
  ⟨0xC00008, 65536, 24, 4, 1, [⟨0, 16, .sh, 0x60⟩]⟩,
  ⟨0xC0000C, 65536, 24, 4, 1, [⟨0, 1, .rw, 0x1⟩]⟩,
  ⟨0xC00020, 65536, 24, 4, 1, [⟨0, 32, .ro, 0x0⟩]⟩]

/-- Register table lines, part 6. -/
def regTable5 : List RegRow := [
  ⟨0xC00024, 65536, 24, 4, 1, [⟨0, 32, .ro, 0x0⟩]⟩,
  ⟨0xC00028, 65536, 24, 4, 1, [⟨0, 32, .ro, 0x0⟩]⟩,
  ⟨0xC0002C, 65536, 24, 4, 1, [⟨0, 32, .ro, 0x0⟩]⟩,
  ⟨0xC00040, 65536, 24, 4, 1, [⟨0, 32, .ro, 0x0⟩]⟩,
  ⟨0xC00044, 65536, 24, 4, 1, [⟨0, 32, .ro, 0x0⟩]⟩,
  ⟨0xC00048, 65536, 24, 4, 1, [⟨0, 32, .ro, 0x0⟩]⟩,
  ⟨0xC0004C, 65536, 24, 4, 1, [⟨0, 32, .ro, 0x0⟩]⟩,
  ⟨0xC00050, 65536, 24, 4, 1, [⟨0, 32, .ro, 0x0⟩]⟩,
  ⟨0xC00054, 65536, 24, 4, 1, [⟨0, 32, .ro, 0x0⟩]⟩,
  ⟨0xC00058, 65536, 24, 4, 1, [⟨0, 32, .ro, 0x0⟩]⟩,
  ⟨0xC0005C, 65536, 24, 4, 1, [⟨0, 32, .ro, 0x0⟩]⟩,
  ⟨0xC00060, 65536, 24, 4, 1, [⟨0, 32, .ro, 0x0⟩]⟩,
  ⟨0xC00064, 65536, 24, 4, 1, [⟨0, 32, .ro, 0x0⟩]⟩,
  ⟨0xC00100, 65536, 24, 4, 1, [⟨0, 11, .w1c, 0x0⟩]⟩,
  ⟨0xC00104, 65536, 24, 4, 1, [⟨0, 11, .rw, 0x3FF⟩]⟩,
  ⟨0x1000000, 65536, 16, 4, 1, [⟨28, 4, .ro, 0x0⟩, ⟨0, 10, .ro, 0x0⟩]⟩,
  ⟨0x1000004, 65536, 16, 4, 1, [⟨16, 16, .ro, 0x0⟩]⟩,
  ⟨0x1000020, 65536, 16, 4, 1, [⟨0, 32, .ro, 0x0⟩]⟩,
  ⟨0x1000024, 65536, 16, 4, 1, [⟨0, 32, .ro, 0x0⟩]⟩,
  ⟨0x1000040, 65536, 16, 4, 1, [⟨0, 32, .ro, 0x0⟩]⟩,
  ⟨0x1000044, 65536, 16, 4, 1, [⟨0, 32, .ro, 0x0⟩]⟩,
  ⟨0x1000048, 65536, 16, 4, 1, [⟨0, 32, .ro, 0x0⟩]⟩,
  ⟨0x100004C, 65536, 16, 4, 1, [⟨0, 32, .ro, 0x0⟩]⟩,
  ⟨0x1000050, 65536, 16, 4, 1, [⟨0, 32, .ro, 0x0⟩]⟩]

/-- Register table lines, part 7. -/
def regTable6 : List RegRow := [
  ⟨0x1000054, 65536, 16, 4, 1, [⟨0, 32, .ro, 0x0⟩]⟩,
  ⟨0x1000058, 65536, 16, 4, 1, [⟨0, 32, .ro, 0x0⟩]⟩,
  ⟨0x1000100, 65536, 16, 4, 1, [⟨0, 8, .w1c, 0x0⟩]⟩,
  ⟨0x1000104, 65536, 16, 4, 1, [⟨0, 8, .rw, 0xFF⟩]⟩,
  ⟨0x1200000, 65536, 8, 4, 1, [⟨28, 4, .ro, 0x0⟩, ⟨27, 1, .ro, 0x0⟩]⟩,
  ⟨0x1200004, 65536, 8, 4, 1, [⟨16, 16, .ro, 0x0⟩]⟩,
  ⟨0x1200008, 65536, 8, 4, 1, [⟨20, 10, .sh, 0x40⟩, ⟨10, 10, .sh, 0x200⟩, ⟨0, 10, .sh, 0x200⟩]⟩,
  ⟨0x120000C, 65536, 8, 4, 1, [⟨16, 16, .ro, 0x0⟩, ⟨0, 16, .ro, 0x0⟩]⟩,
  ⟨0x1200020, 65536, 8, 4, 1, [⟨0, 32, .ro, 0x0⟩]⟩,
  ⟨0x1200024, 65536, 8, 4, 1, [⟨0, 32, .ro, 0x0⟩]⟩,
  ⟨0x1200028, 65536, 8, 4, 1, [⟨0, 32, .ro, 0x0⟩]⟩,
  ⟨0x120002C, 65536, 8, 4, 1, [⟨0, 32, .ro, 0x0⟩]⟩,
  ⟨0x1200040, 65536, 8, 4, 1, [⟨0, 32, .ro, 0x0⟩]⟩,
  ⟨0x1200044, 65536, 8, 4, 1, [⟨0, 32, .ro, 0x0⟩]⟩,
  ⟨0x1200048, 65536, 8, 4, 1, [⟨0, 32, .ro, 0x0⟩]⟩,
  ⟨0x1200100, 65536, 8, 4, 1, [⟨0, 9, .w1c, 0x0⟩]⟩,
  ⟨0x1200104, 65536, 8, 4, 1, [⟨0, 9, .rw, 0x1FF⟩]⟩,
  ⟨0x1200440, 65536, 8, 4, 16, [⟨0, 32, .ro, 0x0⟩]⟩,
  ⟨0x1200200, 65536, 8, 32, 16, [⟨31, 1, .sh, 0x0⟩, ⟨30, 1, .sh, 0x0⟩, ⟨29, 1, .sh, 0x0⟩, ⟨28, 1, .sh, 0x0⟩, ⟨24, 4, .sh, 0x0⟩, ⟨16, 8, .sh, 0xFF⟩, ⟨12, 4, .sh, 0x1⟩, ⟨10, 2, .sh, 0x0⟩, ⟨0, 8, .sh, 0x3⟩]⟩,
  ⟨0x1200204, 65536, 8, 32, 16, [⟨16, 16, .sh, 0x0⟩, ⟨0, 16, .sh, 0x0⟩]⟩,
  ⟨0x1200208, 65536, 8, 32, 16, [⟨16, 16, .sh, 0x0⟩, ⟨0, 16, .sh, 0x0⟩]⟩,
  ⟨0x120020C, 65536, 8, 32, 16, [⟨16, 16, .sh, 0x0⟩, ⟨0, 16, .sh, 0x0⟩]⟩,
  ⟨0x1200210, 65536, 8, 32, 16, [⟨16, 16, .sh, 0x0⟩, ⟨0, 16, .sh, 0x0⟩]⟩,
  ⟨0x1200214, 65536, 8, 32, 16, [⟨0, 30, .sh, 0x4080200⟩]⟩]

/-- Register table lines, part 8. -/
def regTable7 : List RegRow := [
  ⟨0x1200218, 65536, 8, 32, 16, [⟨16, 12, .sh, 0x0⟩, ⟨0, 16, .sh, 0xFFFF⟩]⟩,
  ⟨0x120021C, 65536, 8, 32, 16, [⟨0, 32, .sh, 0x0⟩]⟩,
  ⟨0x1200400, 65536, 8, 4, 16, [⟨31, 1, .ro, 0x0⟩, ⟨30, 1, .ro, 0x0⟩, ⟨29, 1, .ro, 0x0⟩, ⟨28, 1, .ro, 0x0⟩, ⟨27, 1, .ro, 0x0⟩, ⟨26, 1, .ro, 0x0⟩, ⟨24, 2, .ro, 0x0⟩, ⟨20, 4, .ro, 0x1⟩, ⟨0, 14, .ro, 0x0⟩]⟩,
  ⟨0x1400000, 65536, 4, 4, 1, [⟨28, 4, .ro, 0x0⟩, ⟨0, 13, .ro, 0x0⟩]⟩,
  ⟨0x1400004, 65536, 4, 4, 1, [⟨16, 16, .ro, 0x0⟩]⟩,
  ⟨0x1400020, 65536, 4, 4, 1, [⟨0, 32, .ro, 0x0⟩]⟩,
  ⟨0x1400024, 65536, 4, 4, 1, [⟨0, 32, .ro, 0x0⟩]⟩,
  ⟨0x1400028, 65536, 4, 4, 1, [⟨0, 32, .ro, 0x0⟩]⟩,
  ⟨0x140002C, 65536, 4, 4, 1, [⟨0, 32, .ro, 0x0⟩]⟩,
  ⟨0x1400030, 65536, 4, 4, 1, [⟨0, 32, .ro, 0x0⟩]⟩,
  ⟨0x1400034, 65536, 4, 4, 1, [⟨0, 32, .ro, 0x0⟩]⟩,
  ⟨0x1400040, 65536, 4, 4, 1, [⟨0, 32, .ro, 0x0⟩]⟩,
  ⟨0x1400044, 65536, 4, 4, 1, [⟨0, 32, .ro, 0x0⟩]⟩,
  ⟨0x1400048, 65536, 4, 4, 1, [⟨0, 32, .ro, 0x0⟩]⟩,
  ⟨0x140004C, 65536, 4, 4, 1, [⟨0, 32, .ro, 0x0⟩]⟩,
  ⟨0x1400050, 65536, 4, 4, 1, [⟨0, 32, .ro, 0x0⟩]⟩,
  ⟨0x1400100, 65536, 4, 4, 1, [⟨0, 8, .w1c, 0x0⟩]⟩,
  ⟨0x1400104, 65536, 4, 4, 1, [⟨0, 8, .rw, 0xFF⟩]⟩,
  ⟨0x1500000, 4, 1, 4, 1, [⟨0, 10, .w1c, 0x0⟩]⟩,
  ⟨0x1500004, 4, 1, 4, 1, [⟨0, 10, .rw, 0x3FF⟩]⟩,
  ⟨0x1501000, 64, 16, 4, 1, [⟨28, 4, .ro, 0x0⟩, ⟨27, 1, .ro, 0x0⟩, ⟨26, 1, .ro, 0x0⟩, ⟨0, 16, .ro, 0x0⟩]⟩,
  ⟨0x1501004, 64, 16, 4, 1, [⟨16, 16, .ro, 0x0⟩]⟩,
  ⟨0x1501008, 64, 16, 4, 1, [⟨0, 32, .ro, 0x0⟩]⟩,
  ⟨0x150100C, 64, 16, 4, 1, [⟨0, 32, .ro, 0x0⟩]⟩]

/-- Register table lines, part 9. -/
def regTable8 : List RegRow := [
  ⟨0x1501010, 64, 16, 4, 1, [⟨0, 32, .ro, 0x0⟩]⟩,
  ⟨0x1501014, 64, 16, 4, 1, [⟨0, 32, .ro, 0x0⟩]⟩,
  ⟨0x1501018, 64, 16, 4, 1, [⟨0, 32, .ro, 0x0⟩]⟩,
  ⟨0x150101C, 64, 16, 4, 1, [⟨0, 32, .ro, 0x0⟩]⟩,
  ⟨0x1501020, 64, 16, 4, 1, [⟨0, 32, .ro, 0x0⟩]⟩,
  ⟨0x1502000, 64, 8, 4, 1, [⟨28, 4, .ro, 0x0⟩, ⟨0, 24, .ro, 0x0⟩]⟩,
  ⟨0x1502004, 64, 8, 4, 1, [⟨16, 16, .ro, 0x0⟩]⟩,
  ⟨0x1502008, 64, 8, 4, 1, [⟨0, 32, .ro, 0x0⟩]⟩,
  ⟨0x150200C, 64, 8, 4, 1, [⟨0, 32, .ro, 0x0⟩]⟩,
  ⟨0x1502010, 64, 8, 4, 1, [⟨0, 32, .ro, 0x0⟩]⟩,
  ⟨0x1502014, 64, 8, 4, 1, [⟨0, 32, .ro, 0x0⟩]⟩,
  ⟨0x1600000, 4, 1, 4, 1, [⟨24, 8, .sh, 0x3C⟩, ⟨16, 8, .sh, 0xA⟩, ⟨8, 8, .sh, 0x1⟩, ⟨0, 8, .sh, 0x14⟩]⟩,
  ⟨0x1600004, 4, 1, 4, 1, [⟨24, 8, .rw, 0x14⟩, ⟨16, 8, .rw, 0x14⟩, ⟨0, 16, .rw, 0x12C⟩]⟩,
  ⟨0x1600008, 4, 1, 4, 1, [⟨31, 1, .ro, 0x1⟩, ⟨0, 23, .ro, 0x0⟩]⟩,
  ⟨0x160000C, 4, 1, 4, 1, [⟨0, 18, .sh, 0x7D0⟩]⟩,
  ⟨0x1600010, 4, 1, 4, 1, [⟨1, 1, .sh, 0x0⟩, ⟨0, 1, .sh, 0x0⟩]⟩,
  ⟨0x1600020, 4, 1, 4, 1, [⟨0, 32, .ro, 0x0⟩]⟩,
  ⟨0x1600024, 4, 1, 4, 1, [⟨0, 32, .ro, 0x0⟩]⟩,
  ⟨0x1600040, 4, 1, 4, 1, [⟨0, 32, .ro, 0x0⟩]⟩,
  ⟨0x1600044, 4, 1, 4, 1, [⟨0, 32, .ro, 0x0⟩]⟩,
  ⟨0x1600048, 4, 1, 4, 1, [⟨0, 32, .ro, 0x0⟩]⟩,
  ⟨0x160004C, 4, 1, 4, 1, [⟨0, 32, .ro, 0x0⟩]⟩,
  ⟨0x1600050, 4, 1, 4, 1, [⟨0, 32, .ro, 0x0⟩]⟩,
  ⟨0x1600054, 4, 1, 4, 1, [⟨0, 32, .ro, 0x0⟩]⟩]

/-- Register table lines, part 10. -/
def regTable9 : List RegRow := [
  ⟨0x1600058, 4, 1, 4, 1, [⟨0, 32, .ro, 0x0⟩]⟩,
  ⟨0x1600100, 4, 1, 4, 1, [⟨0, 9, .w1c, 0x0⟩]⟩,
  ⟨0x1600104, 4, 1, 4, 1, [⟨0, 9, .rw, 0x1DF⟩]⟩,
  ⟨0x1600200, 4, 8, 4, 1, [⟨28, 4, .ro, 0x0⟩, ⟨8, 9, .ro, 0x0⟩, ⟨0, 8, .ro, 0x0⟩]⟩,
  ⟨0x1610000, 4, 2048, 4, 1, [⟨16, 16, .ro, 0xFFFF⟩, ⟨0, 16, .ro, 0xFFFF⟩]⟩,
  ⟨0x1612000, 4, 2048, 4, 1, [⟨16, 16, .ro, 0xFFFF⟩, ⟨0, 16, .ro, 0xFFFF⟩]⟩,
  ⟨0x1800000, 4, 1, 4, 1, [⟨31, 1, .sh, 0x0⟩, ⟨30, 1, .sh, 0x0⟩, ⟨29, 1, .sh, 0x1⟩, ⟨16, 10, .sh, 0x0⟩, ⟨10, 6, .sh, 0x1E⟩, ⟨0, 10, .sh, 0x0⟩]⟩,
  ⟨0x1800004, 4, 1, 4, 1, [⟨12, 4, .sh, 0x6⟩, ⟨0, 8, .sh, 0x9⟩]⟩,
  ⟨0x1800008, 4, 1, 4, 1, [⟨4, 4, .sh, 0x9⟩, ⟨0, 4, .sh, 0x8⟩]⟩,
  ⟨0x180000C, 4, 1, 4, 1, [⟨16, 15, .ro, 0x0⟩, ⟨0, 13, .ro, 0x0⟩]⟩,
  ⟨0x1800020, 4, 1, 4, 1, [⟨0, 32, .ro, 0x0⟩]⟩,
  ⟨0x1800024, 4, 1, 4, 1, [⟨0, 32, .ro, 0x0⟩]⟩,
  ⟨0x1800040, 4, 1, 4, 1, [⟨0, 32, .ro, 0x0⟩]⟩,
  ⟨0x1800044, 4, 1, 4, 1, [⟨0, 32, .ro, 0x0⟩]⟩,
  ⟨0x1800048, 4, 1, 4, 1, [⟨0, 32, .ro, 0x0⟩]⟩,
  ⟨0x180004C, 4, 1, 4, 1, [⟨0, 32, .ro, 0x0⟩]⟩,
  ⟨0x1800050, 4, 1, 4, 1, [⟨0, 32, .ro, 0x0⟩]⟩,
  ⟨0x1800054, 4, 1, 4, 1, [⟨0, 32, .ro, 0x0⟩]⟩,
  ⟨0x1800058, 4, 1, 4, 1, [⟨0, 32, .ro, 0x0⟩]⟩,
  ⟨0x180005C, 4, 1, 4, 1, [⟨0, 32, .ro, 0x0⟩]⟩,
  ⟨0x1800100, 4, 1, 4, 1, [⟨0, 7, .w1c, 0x0⟩]⟩,
  ⟨0x1800104, 4, 1, 4, 1, [⟨0, 7, .rw, 0x7F⟩]⟩,
  ⟨0x1900000, 1024, 64, 4, 1, [⟨28, 4, .ro, 0x0⟩, ⟨24, 4, .ro, 0x0⟩, ⟨0, 14, .ro, 0x0⟩]⟩,
  ⟨0x1900004, 1024, 64, 4, 1, [⟨0, 3, .ro, 0x0⟩]⟩]

/-- Register table lines, part 11. -/
def regTable10 : List RegRow := [
  ⟨0x1900008, 1024, 64, 4, 1, [⟨25, 7, .sh, 0x8⟩, ⟨18, 7, .sh, 0x1⟩, ⟨0, 13, .sh, 0x0⟩]⟩,
  ⟨0x190000C, 1024, 64, 4, 1, [⟨25, 7, .sh, 0x8⟩, ⟨18, 7, .sh, 0x1⟩, ⟨0, 13, .sh, 0x8⟩]⟩,
  ⟨0x1900020, 1024, 64, 4, 1, [⟨0, 32, .ro, 0x0⟩]⟩,
  ⟨0x1900024, 1024, 64, 4, 1, [⟨0, 32, .ro, 0x0⟩]⟩,
  ⟨0x1900028, 1024, 64, 4, 1, [⟨0, 32, .ro, 0x0⟩]⟩,
  ⟨0x190002C, 1024, 64, 4, 1, [⟨0, 32, .ro, 0x0⟩]⟩,
  ⟨0x1900040, 1024, 64, 4, 1, [⟨0, 32, .ro, 0x0⟩]⟩,
  ⟨0x1900044, 1024, 64, 4, 1, [⟨0, 32, .ro, 0x0⟩]⟩,
  ⟨0x1900048, 1024, 64, 4, 1, [⟨0, 32, .ro, 0x0⟩]⟩,
  ⟨0x1910000, 4, 1, 4, 1, [⟨0, 4, .w1c, 0x0⟩]⟩,
  ⟨0x1910004, 4, 1, 4, 1, [⟨0, 4, .rw, 0xF⟩]⟩,
  ⟨0x1A00000, 4, 1, 4, 1, [⟨16, 10, .rw, 0xC8⟩]⟩,
  ⟨0x1A00004, 4, 1, 4, 1, [⟨0, 16, .rw, 0x0⟩]⟩,
  ⟨0x1A00008, 4, 1, 4, 1, [⟨28, 4, .ro, 0x0⟩, ⟨27, 1, .ro, 0x0⟩, ⟨26, 1, .ro, 0x0⟩, ⟨25, 1, .ro, 0x0⟩, ⟨24, 1, .ro, 0x0⟩, ⟨16, 8, .ro, 0x0⟩, ⟨0, 6, .ro, 0x0⟩]⟩,
  ⟨0x1A0000C, 4, 1, 4, 1, [⟨0, 32, .ro, 0x0⟩]⟩,
  ⟨0x1A00010, 4, 1, 4, 1, [⟨0, 32, .ro, 0x0⟩]⟩,
  ⟨0x1A00014, 4, 1, 4, 1, [⟨0, 32, .ro, 0x0⟩]⟩,
  ⟨0x1A00018, 4, 1, 4, 1, [⟨0, 32, .ro, 0x0⟩]⟩,
  ⟨0x1A0001C, 4, 1, 4, 1, [⟨0, 32, .ro, 0x0⟩]⟩,
  ⟨0x1A00020, 4, 1, 4, 1, [⟨0, 32, .ro, 0x0⟩]⟩,
  ⟨0x1A00024, 4, 1, 4, 1, [⟨0, 32, .ro, 0x0⟩]⟩,
  ⟨0x1A00028, 4, 1, 4, 1, [⟨0, 32, .ro, 0x0⟩]⟩,
  ⟨0x1A00048, 8, 7, 4, 1, [⟨0, 32, .db, 0x0⟩]⟩,
  ⟨0x1A0004C, 8, 7, 4, 1, [⟨0, 32, .db, 0x0⟩]⟩]

/-- Register table lines, part 12. -/
def regTable11 : List RegRow := [
  ⟨0x1A00400, 4, 22, 4, 1, [⟨0, 32, .wo, 0x0⟩]⟩,
  ⟨0x1A00480, 4, 1, 4, 1, [⟨30, 2, .wo, 0x0⟩, ⟨29, 1, .wo, 0x0⟩, ⟨0, 16, .wo, 0x0⟩]⟩,
  ⟨0x1A00484, 4, 1, 4, 1, [⟨31, 1, .ro, 0x0⟩, ⟨24, 4, .ro, 0x0⟩, ⟨0, 16, .ro, 0x0⟩]⟩,
  ⟨0x1A00200, 4, 1, 4, 1, [⟨0, 32, .ro, 0x0⟩]⟩,
  ⟨0x1A00204, 4, 1, 4, 1, [⟨0, 32, .ro, 0x0⟩]⟩,
  ⟨0x1A00208, 4, 1, 4, 1, [⟨0, 32, .ro, 0x0⟩]⟩,
  ⟨0x1A0020C, 4, 1, 4, 1, [⟨0, 32, .ro, 0x0⟩]⟩,
  ⟨0x1A00210, 4, 1, 4, 1, [⟨0, 32, .ro, 0x0⟩]⟩,
  ⟨0x1A00214, 4, 1, 4, 1, [⟨0, 32, .ro, 0x0⟩]⟩,
  ⟨0x1A00218, 4, 1, 4, 1, [⟨0, 32, .ro, 0x0⟩]⟩,
  ⟨0x1A0021C, 4, 1, 4, 1, [⟨0, 32, .ro, 0x0⟩]⟩,
  ⟨0x1A00100, 4, 1, 4, 1, [⟨0, 12, .w1c, 0x0⟩]⟩,
  ⟨0x1A00104, 4, 1, 4, 1, [⟨0, 12, .rw, 0xEFF⟩]⟩,
  ⟨0x1A01000, 16, 48, 4, 1, [⟨28, 4, .ro, 0x0⟩]⟩,
  ⟨0x1A01004, 16, 48, 4, 1, [⟨0, 32, .ro, 0x0⟩]⟩,
  ⟨0x1A01008, 16, 48, 4, 1, [⟨0, 32, .ro, 0x0⟩]⟩,
  ⟨0x1A0100C, 16, 48, 4, 1, [⟨0, 32, .ro, 0x0⟩]⟩,
  ⟨0x1B00000, 4, 1, 4, 1, [⟨31, 1, .sh, 0x0⟩, ⟨30, 1, .rw, 0x0⟩, ⟨24, 6, .rw, 0x4⟩, ⟨0, 10, .rw, 0x0⟩]⟩,
  ⟨0x1B00004, 4, 1, 4, 1, [⟨30, 2, .ro, 0x0⟩, ⟨8, 8, .ro, 0x0⟩, ⟨0, 8, .ro, 0xFF⟩]⟩,
  ⟨0x1B00008, 4, 1, 4, 1, [⟨0, 1, .wo, 0x0⟩]⟩,
  ⟨0x1B00010, 4, 1, 4, 1, [⟨0, 16, .ro, 0x0⟩]⟩,
  ⟨0x1B00014, 4, 1, 4, 1, [⟨0, 32, .ro, 0x0⟩]⟩,
  ⟨0x1B00018, 4, 1, 4, 1, [⟨0, 32, .ro, 0x0⟩]⟩,
  ⟨0x1B0001C, 4, 1, 4, 1, [⟨0, 16, .ro, 0x0⟩]⟩]

/-- Register table lines, part 13. -/
def regTable12 : List RegRow := [
  ⟨0x1B00020, 4, 1, 4, 1, [⟨0, 32, .rw, 0x0⟩]⟩,
  ⟨0x1B00024, 4, 1, 4, 1, [⟨8, 8, .rw, 0x8⟩, ⟨0, 8, .rw, 0x0⟩]⟩,
  ⟨0x1B00028, 4, 1, 4, 1, [⟨0, 32, .rw, 0x0⟩]⟩,
  ⟨0x1B0002C, 4, 1, 4, 1, [⟨0, 32, .rw, 0x0⟩]⟩,
  ⟨0x1B00030, 4, 1, 4, 1, [⟨31, 1, .wo, 0x0⟩, ⟨30, 1, .wo, 0x0⟩]⟩,
  ⟨0x1B00034, 4, 1, 4, 1, [⟨31, 1, .ro, 0x0⟩, ⟨0, 16, .ro, 0x0⟩]⟩,
  ⟨0x1B00040, 4, 1, 4, 1, [⟨0, 32, .ro, 0x0⟩]⟩,
  ⟨0x1B00044, 4, 1, 4, 1, [⟨0, 32, .ro, 0x0⟩]⟩,
  ⟨0x1B00048, 4, 1, 4, 1, [⟨31, 1, .rw, 0x0⟩, ⟨0, 20, .rw, 0x186A0⟩]⟩,
  ⟨0x1B00060, 4, 1, 4, 1, [⟨0, 32, .ro, 0x0⟩]⟩,
  ⟨0x1B00064, 4, 1, 4, 1, [⟨0, 32, .ro, 0x0⟩]⟩,
  ⟨0x1B00080, 4, 1, 4, 1, [⟨0, 8, .w1c, 0x0⟩]⟩,
  ⟨0x1B00084, 4, 1, 4, 1, [⟨0, 8, .rw, 0x3F⟩]⟩,
  ⟨0x1B00200, 4, 32, 4, 1, [⟨31, 1, .rw, 0x0⟩, ⟨0, 16, .rw, 0x0⟩]⟩,
  ⟨0x1B00100, 32, 4, 4, 1, [⟨30, 2, .rw, 0x0⟩, ⟨0, 20, .rw, 0x1⟩]⟩,
  ⟨0x1B00104, 32, 4, 4, 1, [⟨0, 32, .rw, 0x0⟩]⟩,
  ⟨0x1B00108, 32, 4, 4, 1, [⟨0, 32, .rw, 0x0⟩]⟩,
  ⟨0x1B0010C, 32, 4, 4, 1, [⟨0, 16, .rw, 0x0⟩]⟩,
  ⟨0x1B00110, 32, 4, 4, 1, [⟨0, 32, .rw, 0x3B9ACA00⟩]⟩,
  ⟨0x1B00114, 32, 4, 4, 1, [⟨0, 32, .ro, 0x0⟩]⟩,
  ⟨0x1B00118, 32, 4, 4, 1, [⟨0, 32, .ro, 0x0⟩]⟩,
  ⟨0x1C00000, 4, 2, 4, 1, [⟨28, 4, .ro, 0x0⟩, ⟨27, 1, .ro, 0x0⟩, ⟨8, 8, .ro, 0x0⟩, ⟨0, 8, .ro, 0x0⟩]⟩,
  ⟨0x1C00010, 4, 1, 4, 1, [⟨31, 1, .rw, 0x1⟩, ⟨0, 8, .rw, 0x18⟩]⟩,
  ⟨0x1C00014, 4, 1, 4, 1, [⟨24, 8, .ro, 0x0⟩]⟩]

/-- Register table lines, part 14. -/
def regTable13 : List RegRow := [
  ⟨0x1C00020, 4, 1, 4, 1, [⟨0, 32, .ro, 0x0⟩]⟩,
  ⟨0x1C00024, 4, 1, 4, 1, [⟨0, 32, .ro, 0x0⟩]⟩,
  ⟨0x1C00040, 4, 1, 4, 1, [⟨0, 32, .ro, 0x0⟩]⟩,
  ⟨0x1C00044, 4, 1, 4, 1, [⟨0, 32, .ro, 0x0⟩]⟩,
  ⟨0x1C00048, 4, 1, 4, 1, [⟨0, 32, .ro, 0x0⟩]⟩,
  ⟨0x1C0004C, 4, 1, 4, 1, [⟨0, 32, .ro, 0x0⟩]⟩,
  ⟨0x1C00050, 4, 1, 4, 1, [⟨0, 32, .ro, 0x0⟩]⟩,
  ⟨0x1C00060, 4, 1, 4, 1, [⟨0, 32, .ro, 0x0⟩]⟩,
  ⟨0x1C00064, 4, 1, 4, 1, [⟨0, 32, .rw, 0x0⟩]⟩,
  ⟨0x1C00068, 4, 1, 4, 1, [⟨0, 32, .ro, 0x0⟩]⟩,
  ⟨0x1C00080, 4, 1, 4, 1, [⟨31, 1, .db, 0x0⟩, ⟨0, 24, .db, 0xC00000⟩]⟩,
  ⟨0x1C00084, 4, 1, 4, 1, [⟨0, 13, .rw, 0x0⟩]⟩,
  ⟨0x1C00088, 4, 1, 4, 1, [⟨0, 32, .rw, 0x0⟩]⟩,
  ⟨0x1C0008C, 4, 1, 4, 1, [⟨0, 32, .rw, 0x0⟩]⟩,
  ⟨0x1C00090, 4, 1, 4, 1, [⟨0, 8, .rw, 0x0⟩]⟩,
  ⟨0x1C00094, 4, 1, 4, 1, [⟨30, 2, .wo, 0x0⟩]⟩,
  ⟨0x1C00098, 4, 1, 4, 1, [⟨28, 4, .ro, 0x0⟩, ⟨0, 8, .ro, 0x0⟩]⟩,
  ⟨0x1C00100, 4, 1, 4, 1, [⟨0, 9, .w1c, 0x0⟩]⟩,
  ⟨0x1C00104, 4, 1, 4, 1, [⟨0, 9, .rw, 0x1FE⟩]⟩,
  ⟨0x1C01000, 32, 256, 4, 8, [⟨0, 32, .ro, 0x0⟩]⟩,
  ⟨0x1E00000, 4, 1, 4, 1, [⟨24, 8, .rw, 0x70⟩, ⟨0, 11, .sh, 0x0⟩]⟩,
  ⟨0x1E00008, 4, 1, 4, 1, [⟨0, 32, .sh, 0x0⟩]⟩,
  ⟨0x1E0000C, 4, 1, 4, 1, [⟨0, 32, .sh, 0x0⟩]⟩,
  ⟨0x1E00100, 4, 1, 4, 1, [⟨0, 13, .w1c, 0x0⟩]⟩]

/-- Register table lines, part 15. -/
def regTable14 : List RegRow := [
  ⟨0x1E00104, 4, 1, 4, 1, [⟨0, 13, .rw, 0x1FFF⟩]⟩,
  ⟨0x1E04000, 4, 2048, 4, 1, [⟨31, 1, .sh, 0x0⟩, ⟨30, 1, .sh, 0x0⟩, ⟨8, 16, .sh, 0x0⟩, ⟨4, 4, .sh, 0x0⟩, ⟨0, 4, .sh, 0x0⟩]⟩,
  ⟨0x1E00400, 16, 96, 4, 1, [⟨31, 1, .wo, 0x0⟩, ⟨29, 2, .rw, 0x0⟩, ⟨28, 1, .rw, 0x0⟩, ⟨27, 1, .rw, 0x0⟩, ⟨24, 3, .rw, 0x0⟩, ⟨23, 1, .rw, 0x1⟩, ⟨10, 13, .rw, 0x109A⟩]⟩,
  ⟨0x1E00404, 16, 96, 4, 1, [⟨28, 4, .ro, 0x0⟩, ⟨27, 1, .ro, 0x0⟩, ⟨26, 1, .ro, 0x0⟩, ⟨25, 1, .ro, 0x0⟩, ⟨0, 8, .ro, 0x0⟩]⟩,
  ⟨0x1E00408, 16, 96, 4, 1, [⟨0, 32, .ro, 0x0⟩]⟩,
  ⟨0x1E01000, 64, 32, 4, 1, [⟨28, 4, .ro, 0x0⟩, ⟨27, 1, .ro, 0x0⟩, ⟨0, 16, .ro, 0x0⟩]⟩,
  ⟨0x1E01004, 64, 32, 4, 1, [⟨31, 1, .sh, 0x0⟩, ⟨28, 2, .sh, 0x0⟩, ⟨0, 16, .sh, 0x0⟩]⟩,
  ⟨0x1E01008, 64, 32, 4, 1, [⟨0, 32, .sh, 0x0⟩]⟩,
  ⟨0x1E0100C, 64, 32, 4, 1, [⟨0, 16, .sh, 0x0⟩]⟩,
  ⟨0x1E01010, 64, 32, 4, 4, [⟨16, 16, .sh, 0xFFFF⟩, ⟨0, 16, .sh, 0xFFFF⟩]⟩,
  ⟨0x1E01020, 64, 32, 4, 1, [⟨0, 32, .ro, 0x0⟩]⟩,
  ⟨0x1E01024, 64, 32, 4, 1, [⟨0, 32, .ro, 0x0⟩]⟩,
  ⟨0x1E01028, 64, 32, 4, 1, [⟨0, 32, .ro, 0x0⟩]⟩,
  ⟨0x1E0102C, 64, 32, 4, 1, [⟨0, 32, .ro, 0x0⟩]⟩,
  ⟨0x1E01030, 64, 32, 4, 1, [⟨0, 32, .ro, 0x0⟩]⟩,
  ⟨0x1E01034, 64, 32, 4, 1, [⟨0, 32, .ro, 0x0⟩]⟩,
  ⟨0x1E01038, 64, 32, 4, 1, [⟨0, 32, .ro, 0x0⟩]⟩,
  ⟨0x1E0103C, 64, 32, 4, 1, [⟨0, 32, .ro, 0x0⟩]⟩,
  ⟨0x1E02000, 64, 16, 4, 1, [⟨28, 4, .ro, 0x0⟩, ⟨27, 1, .ro, 0x0⟩, ⟨26, 1, .ro, 0x0⟩, ⟨22, 4, .ro, 0x0⟩, ⟨14, 8, .ro, 0x0⟩, ⟨0, 11, .ro, 0x0⟩]⟩,
  ⟨0x1E02004, 64, 16, 4, 1, [⟨0, 16, .ro, 0x0⟩]⟩,
  ⟨0x1E02008, 64, 16, 4, 1, [⟨31, 1, .sh, 0x0⟩, ⟨30, 1, .sh, 0x0⟩, ⟨28, 2, .sh, 0x0⟩, ⟨0, 16, .sh, 0x0⟩]⟩,
  ⟨0x1E02010, 64, 16, 4, 4, [⟨0, 32, .sh, 0x0⟩]⟩,
  ⟨0x1E02020, 64, 16, 4, 4, [⟨16, 16, .sh, 0xFFFF⟩, ⟨0, 16, .sh, 0xFFFF⟩]⟩,
  ⟨0x1E02030, 64, 16, 4, 1, [⟨0, 32, .ro, 0x0⟩]⟩]

/-- Register table lines, part 16. -/
def regTable15 : List RegRow := [
  ⟨0x1E02034, 64, 16, 4, 1, [⟨0, 32, .ro, 0x0⟩]⟩,
  ⟨0x1E02038, 64, 16, 4, 1, [⟨0, 32, .ro, 0x0⟩]⟩,
  ⟨0x1E0203C, 64, 16, 4, 1, [⟨0, 32, .ro, 0x0⟩]⟩,
  ⟨0x10, 4, 1, 4, 1, [⟨31, 1, .ro, 0x0⟩, ⟨30, 1, .ro, 0x0⟩, ⟨29, 1, .ro, 0x0⟩]⟩,
  ⟨0x2000000, 4, 1, 4, 1, [⟨28, 4, .ro, 0x0⟩, ⟨23, 5, .ro, 0x0⟩, ⟨20, 3, .ro, 0x0⟩]⟩,
  ⟨0x2000010, 4, 1, 4, 1, [⟨0, 32, .ro, 0x0⟩]⟩,
  ⟨0x2000200, 4, 128, 4, 1, [⟨28, 4, .ro, 0x0⟩, ⟨0, 16, .ro, 0x0⟩]⟩,
  ⟨0x2001010, 16, 63, 4, 1, [⟨16, 16, .sh, 0xFFFF⟩, ⟨0, 16, .sh, 0x0⟩]⟩,
  ⟨0x2001014, 16, 63, 4, 1, [⟨16, 16, .sh, 0xFFFF⟩, ⟨0, 16, .sh, 0x0⟩]⟩,
  ⟨0x2001018, 16, 63, 4, 1, [⟨16, 16, .sh, 0xFFFF⟩, ⟨0, 16, .sh, 0x0⟩]⟩,
  ⟨0x200101C, 16, 63, 4, 1, [⟨16, 16, .sh, 0xFFFF⟩, ⟨0, 16, .sh, 0x0⟩]⟩,
  ⟨0x2000100, 4, 1, 4, 1, [⟨0, 4, .w1c, 0x0⟩]⟩,
  ⟨0x2000104, 4, 1, 4, 1, [⟨0, 4, .rw, 0xF⟩]⟩,
  ⟨0x2004000, 32, 1024, 4, 1, [⟨31, 1, .rw, 0x0⟩, ⟨29, 2, .rw, 0x0⟩, ⟨0, 11, .rw, 0x0⟩]⟩,
  ⟨0x2004004, 32, 1024, 4, 1, [⟨0, 32, .rw, 0x0⟩]⟩,
  ⟨0x2004008, 32, 1024, 4, 1, [⟨0, 32, .rw, 0x0⟩]⟩,
  ⟨0x200400C, 32, 1024, 4, 1, [⟨0, 32, .rw, 0x0⟩]⟩,
  ⟨0x2004010, 32, 1024, 4, 1, [⟨0, 32, .rw, 0x0⟩]⟩,
  ⟨0x2004014, 32, 1024, 4, 1, [⟨0, 32, .rw, 0x0⟩]⟩,
  ⟨0x2004018, 32, 1024, 4, 1, [⟨0, 32, .rw, 0x0⟩]⟩,
  ⟨0x2010000, 8, 1024, 4, 1, [⟨0, 32, .wo, 0x0⟩]⟩,
  ⟨0x2010004, 8, 1024, 4, 1, [⟨0, 32, .wo, 0x0⟩]⟩,
  ⟨0x2800000, 4, 1, 4, 1, [⟨31, 1, .db, 0x0⟩, ⟨30, 1, .db, 0x0⟩, ⟨0, 7, .db, 0x0⟩]⟩,
  ⟨0x2800004, 4, 1, 4, 1, [⟨22, 10, .db, 0xFA⟩, ⟨14, 8, .db, 0x69⟩]⟩]

/-- Register table lines, part 17. -/
def regTable16 : List RegRow := [
  ⟨0x2800008, 4, 1, 4, 1, [⟨31, 1, .db, 0x0⟩, ⟨30, 1, .db, 0x1⟩, ⟨26, 4, .db, 0x0⟩]⟩,
  ⟨0x280000C, 4, 1, 4, 1, [⟨31, 1, .db, 0x0⟩, ⟨30, 1, .db, 0x0⟩]⟩,
  ⟨0x2800010, 4, 1, 4, 1, [⟨24, 8, .db, 0x8⟩, ⟨0, 24, .db, 0xE10⟩]⟩,
  ⟨0x2800014, 4, 1, 4, 1, [⟨31, 1, .db, 0x1⟩, ⟨0, 8, .db, 0x18⟩]⟩,
  ⟨0x2800020, 4, 1, 4, 1, [⟨0, 32, .db, 0x0⟩]⟩,
  ⟨0x2800024, 4, 1, 4, 1, [⟨0, 32, .db, 0x0⟩]⟩,
  ⟨0x2800028, 4, 1, 4, 1, [⟨0, 32, .db, 0x0⟩]⟩,
  ⟨0x2800100, 4, 1, 4, 1, [⟨0, 8, .w1c, 0x0⟩]⟩,
  ⟨0x2800104, 4, 1, 4, 1, [⟨0, 8, .rw, 0x7E⟩]⟩,
  ⟨0x2801200, 512, 15, 4, 128, [⟨28, 4, .db, 0x0⟩, ⟨24, 4, .db, 0x0⟩, ⟨16, 8, .db, 0x0⟩, ⟨15, 1, .db, 0x0⟩, ⟨0, 7, .db, 0x0⟩]⟩,
  ⟨0x2803000, 4, 16, 4, 1, [⟨28, 4, .db, 0x0⟩, ⟨24, 4, .db, 0x0⟩, ⟨16, 8, .db, 0x0⟩, ⟨15, 1, .db, 0x0⟩, ⟨0, 7, .db, 0x0⟩]⟩,
  ⟨0x2804000, 8, 256, 4, 1, [⟨0, 32, .db, 0x0⟩]⟩,
  ⟨0x2804004, 8, 256, 4, 1, [⟨0, 32, .db, 0x0⟩]⟩,
  ⟨0x2800204, 8, 64, 4, 1, [⟨0, 32, .db, 0x0⟩]⟩,
  ⟨0x2800200, 8, 64, 4, 1, [⟨28, 4, .db, 0x0⟩, ⟨16, 12, .db, 0x0⟩, ⟨0, 16, .db, 0x0⟩]⟩,
  ⟨0x2C00000, 4, 1, 4, 1, [⟨28, 4, .ro, 0x0⟩, ⟨24, 4, .ro, 0x0⟩]⟩,
  ⟨0x2C00004, 4, 1, 4, 1, [⟨0, 32, .ro, 0x0⟩]⟩,
  ⟨0x2C00008, 4, 1, 4, 1, [⟨0, 32, .ro, 0x0⟩]⟩,
  ⟨0x2C0000C, 4, 1, 4, 1, [⟨0, 32, .ro, 0x0⟩]⟩,
  ⟨0x2C00010, 4, 1, 4, 1, [⟨28, 4, .ro, 0x0⟩, ⟨8, 8, .ro, 0x0⟩, ⟨0, 7, .ro, 0x0⟩]⟩,
  ⟨0x2C00020, 4, 1, 4, 1, [⟨0, 32, .ro, 0x0⟩]⟩,
  ⟨0x2C00024, 4, 1, 4, 1, [⟨0, 32, .ro, 0x0⟩]⟩,
  ⟨0x2C00028, 4, 1, 4, 1, [⟨0, 32, .ro, 0x0⟩]⟩,
  ⟨0x2C00100, 4, 1, 4, 1, [⟨0, 7, .w1c, 0x0⟩]⟩]

/-- Register table lines, part 18. -/
def regTable17 : List RegRow := [
  ⟨0x2C00104, 4, 1, 4, 1, [⟨0, 7, .rw, 0x7D⟩]⟩,
  ⟨0x20, 4, 1, 4, 1, [⟨28, 4, .ro, 0x0⟩, ⟨24, 4, .ro, 0xE⟩, ⟨16, 8, .ro, 0x0⟩, ⟨14, 2, .ro, 0x0⟩, ⟨13, 1, .ro, 0x0⟩, ⟨12, 1, .ro, 0x0⟩, ⟨8, 4, .ro, 0x0⟩]⟩,
  ⟨0x24, 4, 1, 4, 1, [⟨0, 32, .ro, 0x0⟩]⟩,
  ⟨0x28, 4, 1, 4, 1, [⟨31, 1, .wo, 0x0⟩, ⟨30, 1, .wo, 0x0⟩]⟩,
  ⟨0x2C, 4, 1, 4, 1, [⟨24, 8, .ro, 0x0⟩, ⟨19, 5, .ro, 0x0⟩, ⟨13, 6, .ro, 0x0⟩]⟩,
  ⟨0x190, 4, 1, 4, 1, [⟨0, 10, .w1c, 0x0⟩]⟩,
  ⟨0x194, 4, 1, 4, 1, [⟨0, 10, .rw, 0x3FF⟩]⟩,
  ⟨0x1A0, 4, 1, 4, 1, [⟨0, 4, .w1c, 0x0⟩]⟩,
  ⟨0x1A4, 4, 1, 4, 1, [⟨0, 4, .rw, 0xF⟩]⟩,
  ⟨0x300100, 4, 1, 4, 1, [⟨0, 6, .w1c, 0x0⟩]⟩,
  ⟨0x300104, 4, 1, 4, 1, [⟨0, 6, .rw, 0x3F⟩]⟩,
  ⟨0x100100, 4, 1, 4, 1, [⟨0, 9, .w1c, 0x0⟩]⟩,
  ⟨0x100104, 4, 1, 4, 1, [⟨0, 9, .rw, 0x1FF⟩]⟩]

/-- Every register table line of the spec. -/
def regTable : List RegRow :=
  regTable0 ++ regTable1 ++ regTable2 ++ regTable3 ++ regTable4 ++ regTable5 ++ regTable6 ++ regTable7 ++ regTable8 ++ regTable9 ++ regTable10 ++ regTable11 ++ regTable12 ++ regTable13 ++ regTable14 ++ regTable15 ++ regTable16 ++ regTable17

end Sys2Proof.Machine
end

