-- ==== Sys2Proof/Machine/Ops.lean ====
section
/-!
DEFINITION. The named operations over the shared state: reading and writing register fields, counting (R95), raising
events and writing event records (R93, R94, R416), MSI-X (R93), time arithmetic (R308), free values.
-/

namespace Sys2Proof.Machine

/-! ### Fields -/

/-- The bits of a field, in place. -/
def Fld.mask (f : Fld) : Word := BitVec.ofNat 32 ((2 ^ f.width - 1) * 2 ^ f.lo)

/-- The offset of instance (i, j) of the field's register. -/
def Fld.off (f : Fld) (i j : Nat) : Nat := f.base + f.s1 * i + f.s2 * j

/-- A field's value within a register word. -/
def Fld.of (f : Fld) (w : Word) : Nat := w.toNat / 2 ^ f.lo % 2 ^ f.width

/-- A register word with a field set to `v` modulo its width. -/
def Fld.into (f : Fld) (w : Word) (v : Nat) : Word :=
  (w &&& ~~~ f.mask) ||| (BitVec.ofNat 32 (v % 2 ^ f.width * 2 ^ f.lo))

/-! ### The register table -/

/-- Does the table line hold offset `off`? -/
def RegRow.holds (r : RegRow) (off : Nat) : Bool :=
  let d := off - r.base
  decide (r.base ≤ off ∧ d / r.s1 < r.n1 ∧ d % r.s1 / r.s2 < r.n2 ∧ d % r.s1 % r.s2 = 0)

/-- The table line that lists an offset, if any (R8). -/
def regRow (off : Nat) : Option RegRow := regTable.find? (·.holds off)

/-- The value a table line's fields reset to. -/
def RegRow.resetWord (r : RegRow) : Word :=
  BitVec.ofNat 32 (r.fields.foldl (fun a f => a + f.reset % 2 ^ f.width * 2 ^ f.lo) 0)

/-- The value after a cold start of the register at key `k` (function × 2^26 + offset). `DBT.CH` and `DBT.CH_LIN` reset
SERVED_BY to their own index, save types 13–15 (Table 20.8); `CIP.HARD_MAX` resets to each mode's own limit, 2^48 for mode 1 and 2^32
for the others (Tables 15.2 and 15.6). -/
def regReset (k : Nat) : Word :=
  let off := k % 0x4000000
  if 0x2801200 ≤ off ∧ off < 0x2802A00 then BitVec.ofNat 32 ((off - 0x2801200) % 0x200 / 4)
  else if 0x2803000 ≤ off ∧ off < 0x2803040 then BitVec.ofNat 32 ((off - 0x2803000) / 4)
  else if off = 0x1A0004C then 0x10000
  else if 0x1A00054 ≤ off ∧ off ≤ 0x1A0007C ∧ off % 8 = 4 then 1
  else match regRow off with
    | some r => r.resetWord
    | none => 0

/-- The bits of a register whose fields carry an access code (R10). -/
def accMask (a : Access) (off : Nat) : Word :=
  match regRow off with
  | some r => r.fields.foldl (fun m f => if f.acc = a then m ||| BitVec.ofNat 32 ((2 ^ f.width - 1) * 2 ^ f.lo) else m) 0
  | none => 0

/-- The key of a register in function `fn`'s own window copy. -/
def winKey (fn off : Nat) : Nat := fn * 0x4000000 + off

/-! ### Registers -/

/-- The value in force of the register at a key. -/
def Hub.rd (h : Hub) (k : Nat) : Word := kvRead regReset h.regs k

/-- Set the value in force of the register at a key. -/
def Hub.wr (h : Hub) (k : Nat) (v : Word) : Hub := { h with regs := kvWrite regReset h.regs k v }

/-- The shadow of the register at a key (R79). -/
def Hub.rdShadow (h : Hub) (k : Nat) : Word := kvRead regReset h.shadow k

/-- Set the shadow of the register at a key. -/
def Hub.wrShadow (h : Hub) (k : Nat) (v : Word) : Hub := { h with shadow := kvWrite regReset h.shadow k v }

/-- A field in force. -/
def Hub.get2 (h : Hub) (f : Fld) (i j : Nat) : Nat := f.of (h.rd (f.off i j))

/-- A field in force, one index. -/
def Hub.get1 (h : Hub) (f : Fld) (i : Nat) : Nat := h.get2 f i 0

/-- A field in force, no index. -/
def Hub.get (h : Hub) (f : Fld) : Nat := h.get2 f 0 0

/-- Set a field in force. -/
def Hub.set2 (h : Hub) (f : Fld) (i j v : Nat) : Hub := h.wr (f.off i j) (f.into (h.rd (f.off i j)) v)

/-- Set a field in force, one index. -/
def Hub.set1 (h : Hub) (f : Fld) (i v : Nat) : Hub := h.set2 f i 0 v

/-- Set a field in force, no index. -/
def Hub.set (h : Hub) (f : Fld) (v : Nat) : Hub := h.set2 f 0 0 v

/-- A 64-bit pair: `f` is the whole low register, the high one follows it. -/
def Hub.get64 (h : Hub) (f : Fld) (i : Nat) : Nat :=
  (h.rd (f.off i 0)).toNat + (h.rd (f.off i 0 + 4)).toNat * 2 ^ 32

/-- Set a 64-bit pair. -/
def Hub.set64 (h : Hub) (f : Fld) (i v : Nat) : Hub :=
  (h.wr (f.off i 0) (BitVec.ofNat 32 v)).wr (f.off i 0 + 4) (BitVec.ofNat 32 (v / 2 ^ 32))

/-- Add to a statistics counter, which wraps at 64 bits (R95). -/
def Hub.stat (h : Hub) (f : Fld) (i n : Nat) : Hub := h.set64 f i (h.get64 f i + n)

/-! ### The part -/

/-- Units present, by unit type code of Table 2.7 (Tables 1.5 and 1.6; values above the die's own count act as it). -/
def Hub.unitCount (h : Hub) (ty : Nat) : Nat :=
  match ty with
  | 1 => min (h.get GLB.UNITS_LO.ENC) 24
  | 2 => min (h.get GLB.UNITS_LO.DEC) 16
  | 3 => min (h.get GLB.UNITS_LO.CMP) 8
  | 4 => min (h.get GLB.UNITS_LO.SPL) 4
  | 5 => min (h.get GLB.UNITS_LO.HNG) 64
  | 6 => min (h.get GLB.UNITS_LO.AUDC) 8
  | 7 => min (h.get GLB.UNITS_HI.CIP_HI * 16 + h.get GLB.UNITS_LO.CIP_LO) 48
  | 8 => 8
  | 9 => 32
  | 10 => 32
  | 11 => if h.get GLB.UNITS_HI.BIO = 1 then 16 else 0
  | 12 => if h.get GLB.UNITS_HI.BIO = 1 then 8 else 0
  | 13 => match h.get GLB.VARIANT.LANES with | 0 => 32 | 1 => 48 | 2 => 64 | _ => 96
  | 14 => min (h.get GLB.UNITS_HI.JL) 16
  | 15 => if h.get GLB.VARIANT.HBM = 1 then 2 else 1
  | 16 => 128
  | _ => 0

/-- The Ethernet egress limit that the fuses set, in Gb/s (Table 1.4, ETH; 3 is treated as 0). -/
def Hub.ethGbps (h : Hub) : Nat :=
  match h.get GLB.VARIANT.ETH with
  | 1 => 1600
  | 2 => 3200
  | _ => 800

/-- "Other rails" of Table 21.9, in W, and the part's maximum power of Table 1.2, by PART code. -/
def otherRails (part : Nat) : Nat := [89, 87, 57, 89, 58, 50, 75, 67, 43, 85, 55, 48].getD part 0
def partPower (part : Nat) : Nat := [250, 200, 145, 210, 150, 105, 195, 150, 100, 125, 95, 70].getD part 0

/-- The leg limit of the part (Table 1.4). -/
def Hub.legLimit (h : Hub) : Nat := [1024, 4096, 8192, 16384].getD (h.get GLB.VARIANT.LEGS) 1024

/-- R19: does offset `off` lie in the block of an absent unit, or of a leg at or above the leg limit (Table 7.7)? -/
def Hub.absentBlock (h : Hub) (off : Nat) : Bool :=
  let a := fun (lo stride n ty : Nat) => decide (lo ≤ off ∧ off < lo + stride * n ∧ h.unitCount ty ≤ (off - lo) / stride)
  a 0xC00000 0x10000 24 1 || a 0x1000000 0x10000 16 2 || a 0x1200000 0x10000 8 3 || a 0x1400000 0x10000 4 4 ||
    a 0x1900000 0x400 64 5 || a 0x1600200 4 8 6 || a 0x1A01000 16 48 7 || a 0x1501000 0x40 16 11 ||
    a 0x1502000 0x40 8 12 || a 0x1E00400 16 96 13 || a 0x1E02000 0x40 16 14 || a 0x1C00000 4 2 15 ||
    decide (0x820000 ≤ off ∧ off < 0x860000 ∧ h.legLimit ≤ (off - 0x820000) / 16)

/-- Is `off` the `DBT.CH` register of a channel whose index names no present resource (R380)? -/
def Hub.absentChannel (h : Hub) (off : Nat) : Bool :=
  let t := (off - 0x2801000) / 0x200
  decide (0x2801200 ≤ off ∧ off < 0x2803000 ∧ h.unitCount t * (if t = 15 then 64 else 1) ≤ (off - 0x2801000) % 0x200 / 4)

/-- A register word as it reads: an absent channel's STATE reads ABSENT. -/
def Hub.shown (h : Hub) (off : Nat) (w : Word) : Word := if h.absentChannel off then w ||| 0x40000000 else w

/-- The published copy of the register at a key (R89); a write-only field reads 0 (R10). -/
def Hub.rdPub (h : Hub) (k : Nat) : Word := h.shown k (kvRead regReset h.pub k) &&& ~~~ accMask .wo (k % 0x4000000)

/-! ### Time -/

/-- The time in nanoseconds. -/
def Time.total (t : Time) : Nat := t.sec * 1000000000 + t.ns

/-- The period number of R58. -/
def Time.period (t : Time) : Nat := t.sec * 8000 + t.ns / 125000

/-- The time at which a Louvre period begins. -/
def Time.ofPeriod (p : Nat) : Time := { sec := p / 8000 % 2 ^ 48, ns := p % 8000 * 125000, frac := 0 }

/-- A time given in nanoseconds. -/
def Time.ofNs (n : Nat) : Time := { sec := n / 1000000000 % 2 ^ 48, ns := n % 1000000000, frac := 0 }

/-! ### Free values -/

/-- Take a free value below `n`, or any when `n` is 0. -/
def Hub.freeVal (h : Hub) (n : Nat) : Nat := Config.freeValue h.free % n

/-- Count a free value as taken. -/
def Hub.freeTick (h : Hub) : Hub := { h with free := h.free + 1 }

/-! ### Outputs -/

/-- Send one message out of the device. -/
def Hub.emit (h : Hub) (m : OutMsg) : Hub := { h with out := h.out ++ [m] }

/-- Send several messages, in order. -/
def Hub.emits (h : Hub) (ms : List OutMsg) : Hub := { h with out := h.out ++ ms }

/-- Does a pace emergency hold the host's traffic: commands, completions and MSI-X messages are Near-live requests (R74, R368; DEDUCED,
assumption 137)? -/
def Hub.hostHeld (h : Hub) : Bool := h.get GLB.PACE_SUM.EMERG == 1

/-- Do the host's accesses reach the device: BAR0 answers, and the PCIe island is up (R24, R373, R399)? -/
def Hub.hostIn (h : Hub) : Bool := h.bar == .live && !h.pcieDown

/-- Signal an MSI-X vector: at most once per Louvre period; again at the next boundary (R93, R369), as after a pace emergency. While the PCIe
island is down its synchroniser discards and counts it (R24). -/
def Hub.msi (h : Hub) (fn vec : Nat) : Hub :=
  if h.hostHeld then { h with msiPend := if (fn, vec) ∈ h.msiPend then h.msiPend else h.msiPend ++ [(fn, vec)] }
  else { h with
    out := if (fn, vec) ∈ h.msiFired ∨ h.pcieDown then h.out else h.out ++ [.msix fn vec]
    pcieDiscards := if (fn, vec) ∉ h.msiFired ∧ h.pcieDown then h.pcieDiscards + 1 else h.pcieDiscards
    msiFired := if (fn, vec) ∈ h.msiFired then h.msiFired else h.msiFired ++ [(fn, vec)]
    msiPend := if (fn, vec) ∈ h.msiFired ∧ (fn, vec) ∉ h.msiPend then h.msiPend ++ [(fn, vec)] else h.msiPend }

/-- At a Louvre boundary the vectors kept from the last period fire once (R93). -/
def Hub.msiBoundary (h : Hub) : Hub :=
  if h.hostHeld then { h with msiFired := [] }
  else { h with
    out := if h.pcieDown then h.out else h.out ++ h.msiPend.map (fun p => .msix p.1 p.2)
    pcieDiscards := if h.pcieDown then h.pcieDiscards + h.msiPend.length else h.pcieDiscards
    msiFired := h.msiPend, msiPend := [] }

/-! ### Events -/

/-- The offset of the EVT register an event is raised in; its EVT_EN register follows at +4. -/
def evtOff (code inst : Nat) : Nat :=
  match code / 256 with
  | 0x02 => if code % 256 < 0x11 then 0x190 else 0x1A0
  | 0x03 => 0x300100
  | 0x04 => 0x100100
  | 0x05 => 0x200080
  | 0x06 => 0x400100
  | 0x07 => 0x800100
  | 0x08 => 0xC00100 + 0x10000 * inst
  | 0x09 => 0x1000100 + 0x10000 * inst
  | 0x0A => 0x1200100 + 0x10000 * inst
  | 0x0B => 0x1400100 + 0x10000 * inst
  | 0x0C => 0x1500000
  | 0x0D => 0x1600100
  | 0x0E => 0x1800100
  | 0x0F => 0x1910000
  | 0x10 => 0x1A00100
  | 0x11 => 0x1B00080
  | 0x12 => 0x1C00100
  | 0x13 => 0x1E00100
  | 0x14 => 0x2000100
  | 0x15 => 0x2800100
  | _ => 0x2C00100

/-- The EVT bit of an event code: its low byte less one, and less 0x11 for the start events of the GLB block. -/
def evtBit (code : Nat) : Nat :=
  if code / 256 = 2 ∧ 0x11 ≤ code % 256 then code % 256 - 0x11 else code % 256 - 1

/-- Is an event's enable bit 1? -/
def Hub.evtOn (h : Hub) (code inst : Nat) : Bool := (h.rd (evtOff code inst + 4)).getLsbD (evtBit code)

/-- Set an event's EVT bit (R93). -/
def Hub.evtSet (h : Hub) (code inst : Nat) : Hub :=
  h.wr (evtOff code inst) (h.rd (evtOff code inst) ||| BitVec.ofNat 32 (2 ^ evtBit code))

/-- Signal the vector that function `fn`'s ROUTE register names for a block code (R93). The PF's route names a function,
and one that is not enabled receives nothing; in a VF's routes FUNC is ignored (R372). -/
def Hub.route (h : Hub) (fn block : Nat) : Hub :=
  let w := h.rd (winKey fn (LCH.ROUTE.ENABLE.off block 0))
  let tgt := if fn = 0 then LCH.ROUTE.FUNC.of w else fn
  if LCH.ROUTE.ENABLE.of w = 1 ∧ tgt ≤ h.numVfs then h.msi tgt (LCH.ROUTE.VECTOR.of w) else h

/-- log2 of the records in function `fn`'s event ring, none while no ring is named (Table 5.8, LOG_SIZE). -/
def Hub.logSize (h : Hub) (fn : Nat) : Option Nat :=
  match LCH.LOG_SIZE.LOG2.of (h.rd (winKey fn (LCH.LOG_SIZE.LOG2.off 0 0))) with
  | 0 => none
  | n => some (if n ≤ 5 then 6 else if n ≤ 20 then n else 20)

/-- The 32 bytes of an event record (Table 5.6). -/
def recordBytes (ev : Ev) (sec ns : Nat) : List Byte :=
  leBytes 4 ns ++ leBytes 4 (sec % 2 ^ 32) ++ leBytes 4 ev.channel ++ leBytes 2 ev.code ++ leBytes 2 ev.sash ++
    ((ev.detail.flatMap (leBytes 4)) ++ leBytes 16 0).take 16

/-- Place one record at PROD and advance PROD (R94). -/
def Hub.logPut (h : Hub) (fn lg : Nat) (rec : List Byte) : Hub :=
  let prod := (h.rd (winKey fn (LCH.LOG_PROD.PROD.off 0 0))).toNat
  let base := (h.rd (winKey fn (LCH.LOG_BASE_LO.ADDR.off 0 0))).toNat / 4096 * 4096 +
    (h.rd (winKey fn (LCH.LOG_BASE_HI.ADDR.off 0 0))).toNat * 2 ^ 32
  { h with
    hostMem := if h.pcieDown then h.hostMem else memWriteList h.hostMem (base + prod % 2 ^ lg * 32) rec
    pcieDiscards := if h.pcieDown then h.pcieDiscards + 1 else h.pcieDiscards
    regs := kvWrite regReset h.regs (winKey fn (LCH.LOG_PROD.PROD.off 0 0)) (BitVec.ofNat 32 (prod + 1)) }

/-- The `LOG_LOST` record (R94): written whatever the event enable holds. -/
def lostRecord (h : Hub) (n : Nat) : List Byte :=
  recordBytes { code := 0x0508, detail := [min n 0xFFFFFFFF] } h.time.sec h.time.ns

/-- Write the pending `LOG_LOST` record of a ring, if any was dropped and the ring has a slot (R94). -/
def Hub.logLostFlush (h : Hub) (fn : Nat) : Hub :=
  match h.logSize fn, kvGet fn h.logDropped with
  | some lg, some n =>
    let used := (h.rd (winKey fn (LCH.LOG_PROD.PROD.off 0 0)) - h.rd (winKey fn (LCH.LOG_CONS.CONS.off 0 0))).toNat
    if used < 2 ^ lg - 1 then
      { h.logPut fn lg (lostRecord h n) with logDropped := kvDel fn h.logDropped }
    else h
  | _, _ => h

/-- Drop one record of a ring and count it (R94). The PF ring's first drop sets `LCH.EVT` bit [7] and, where enabled,
signals the vector of `LCH.ROUTE5`; the error counter sticks (R95). -/
def Hub.logDrop (h : Hub) (fn : Nat) : Hub :=
  let n := (kvGet fn h.logDropped).getD 0
  let k := winKey fn (LCH.LOG_LOST.COUNT.off 0 0)
  let c := h.rd k
  let h1 := { h with logDropped := kvPut fn (n + 1) h.logDropped }
  let h2 := if c = BitVec.allOnes 32 then h1 else h1.wr k (c + 1)
  if fn = 0 ∧ n = 0 then (if h2.evtOn 0x0508 0 then (h2.evtSet 0x0508 0).route 0 5 else h2.evtSet 0x0508 0) else h2

/-- Place a record in function `fn`'s event ring, or drop it where the ring is full or none is named (R94). -/
def Hub.logPlace (h : Hub) (fn : Nat) (ev : Ev) (sec ns : Nat) : Hub :=
  match h.logSize fn with
  | none => h.logDrop fn
  | some lg =>
    let used := (h.rd (winKey fn (LCH.LOG_PROD.PROD.off 0 0)) - h.rd (winKey fn (LCH.LOG_CONS.CONS.off 0 0))).toNat
    if used < 2 ^ lg - 1 then (h.logLostFlush fn).logPut fn lg (recordBytes ev sec ns) else h.logDrop fn

/-- Has the count of dropped records of function `fn` stuck between two states (R95)? -/
def logStuck (h h' : Hub) (fn : Nat) : Bool :=
  let k := winKey fn (LCH.LOG_LOST.COUNT.off 0 0)
  h.rd k != BitVec.allOnes 32 && h'.rd k == BitVec.allOnes 32

/-- `LCH_CNT_STUCK` (R95): its own record meets the same ring and its counter, which has stuck, does not move again. -/
def Hub.lchStuck (h : Hub) : Hub :=
  let h1 := h.evtSet 0x0509 0
  if h.evtOn 0x0509 0 then (h1.logPlace 0 { code := 0x0509 } h.time.sec h.time.ns).route 0 5 else h1

/-- Append a record to function `fn`'s event ring and signal its route, whether the ring takes the record or not (R93, R94, R372). -/
def Hub.logAppend (h : Hub) (fn : Nat) (ev : Ev) (sec ns : Nat) : Hub :=
  let h1 := (h.logPlace fn ev sec ns).route fn (ev.code / 256)
  if logStuck h h1 fn then h1.lchStuck else h1

/-- The lowest-numbered VF whose BASE–LAST range in register `f` holds `x`; 0, the PF, when none does (R366). -/
def Hub.owner (h : Hub) (f : Fld) (x : Nat) : Nat :=
  (((List.range 64).drop 1).find? fun v =>
    let w := h.rd (f.off v 0)
    decide (w.toNat / 2 ^ 16 ≤ x ∧ x ≤ w.toNat % 2 ^ 16)).getD 0

/-- Write an enabled event's record: to the PF's ring, and to the ring of the VF its sash is bound to (R372). -/
def Hub.record (h : Hub) (ev : Ev) (sec ns : Nat) : Hub :=
  let h1 := h.logAppend 0 ev sec ns
  let v := if ev.sash < 1024 then h.owner HIF.VF_SASH.BASE ev.sash else 0
  if v = 0 ∨ h.numVfs < v then h1 else h1.logAppend v ev sec ns

/-- An absent unit raises no event (R19). -/
def Hub.evtPresent (h : Hub) (code inst : Nat) : Bool := !h.absentBlock (evtOff code inst)

/-- Raise an event (R93): its EVT bit is set whatever EVT_EN holds; an enabled event also writes a record. -/
def Hub.raise (h : Hub) (ev : Ev) : Hub :=
  if h.evtPresent ev.code ev.inst then
    if h.evtOn ev.code ev.inst then (h.evtSet ev.code ev.inst).record ev h.time.sec h.time.ns
    else h.evtSet ev.code ev.inst
  else h

/-- Raise several events in order. -/
def Hub.raiseAll (h : Hub) (evs : List Ev) : Hub := evs.foldl Hub.raise h

/-- Raise an event that writes at most one record per second (R416): the EVT bit is set at once; the record waits for
the boundary at which the second ends. -/
def Hub.raiseRl (h : Hub) (ev : Ev) : Hub :=
  if h.evtPresent ev.code ev.inst then
    let h1 := h.evtSet ev.code ev.inst
    let same := fun (w : RlWin) => w.ev.code == ev.code && w.ev.inst == ev.inst && w.sec == h.time.sec
    if h.rl.any same then
      { h1 with rl := h.rl.map fun w =>
          if same w then { w with count := min (w.count + 1) 0xFFFFFFFF } else w }
    else { h1 with rl := h.rl ++ [⟨ev, h.time.sec, h.time.ns, 1⟩] }
  else h

/-- At the boundary at which a second ends, write the records of the events raised in it; the count is the last item of
DETAIL (R416). -/
def Hub.rlFlush (h : Hub) : Hub :=
  (h.rl.filter fun w => w.sec ≠ h.time.sec).foldl (fun a w =>
    if a.evtOn w.ev.code w.ev.inst then a.record { w.ev with detail := w.ev.detail ++ [w.count] } w.sec w.ns else a)
    { h with rl := h.rl.filter fun w => w.sec = h.time.sec }

/-- Count in a 32-bit error counter: it sticks at 0xFFFF_FFFF, and reaching it raises the block's CNT_STUCK event
`stuck` (R95). -/
def Hub.err2 (h : Hub) (f : Fld) (i j : Nat) (stuck inst : Nat) : Hub :=
  let c := h.rd (f.off i j)
  if c = BitVec.allOnes 32 then h
  else if c + 1 = BitVec.allOnes 32 then (h.wr (f.off i j) (c + 1)).raise { code := stuck, inst := inst }
  else h.wr (f.off i j) (c + 1)

/-- Count in an error counter with one index. -/
def Hub.err (h : Hub) (f : Fld) (i : Nat) (stuck inst : Nat) : Hub := h.err2 f i 0 stuck inst

/-- Count `n` times. -/
def Hub.errN (h : Hub) (f : Fld) (i n : Nat) (stuck inst : Nat) : Hub :=
  let c := (h.rd (f.off i 0)).toNat
  if n = 0 ∨ c = 0xFFFFFFFF then h
  else if 0xFFFFFFFF ≤ c + n then (h.wr (f.off i 0) (BitVec.allOnes 32)).raise { code := stuck, inst := inst }
  else h.wr (f.off i 0) (BitVec.ofNat 32 (c + n))

/-- A 64-bit item as two 32-bit DETAIL slots (R416). -/
def d64 (n : Nat) : List Nat := [n % 2 ^ 32, n / 2 ^ 32 % 2 ^ 32]

/-- Write bytes to host memory; while the PCIe island is down the burst is discarded whole and counted (R24). -/
def Hub.hostWrite (h : Hub) (a : Nat) (bs : List Byte) : Hub :=
  if h.pcieDown then { h with pcieDiscards := h.pcieDiscards + 1 } else { h with hostMem := memWriteList h.hostMem a bs }

/-- 4,096 hc at the guaranteed 0.52 ns, in ns (R81). -/
def guardNs : Nat := 2130

/-- Has a time of `ms` milliseconds, cut to `num` tenths, passed since `last`? -/
def pastMs (now : Nat) (last : Option Nat) (ms num : Nat) : Bool :=
  match last with
  | some t => decide (t + 100000 * ms * num ≤ now)
  | none => true

end Sys2Proof.Machine
end

