-- ==== Sys2Proof/Machine/Fifo.lean ====
section
/-!
DEFINITION. The packet FIFOs of queue pairs (R133–R138), their doorbells, writebacks and signals (R368, R369), and
completions in order (R370).
-/

namespace Sys2Proof.Machine

/-- The ring size N = 2^k words of FIFO `n` (R133; SIZE values 0–8 act as 9, 25–31 as 24). -/
def Hub.fifoWords (h : Hub) (n : Nat) : Nat :=
  2 ^ min (max (h.get1 QSC.FIFO_CTL.SIZE n) 9) 24

/-- The FIFO's own record. -/
def Hub.fifo (h : Hub) (n : Nat) : Fifo := (kvGet n h.fifos).getD {}

/-- Replace the FIFO's own record. -/
def Hub.setFifo (h : Hub) (n : Nat) (f : Fifo) : Hub := { h with fifos := kvPut n f h.fifos }

/-- The index the device advances: PROD of a device-to-host FIFO, the consumer index of a host-to-device one. -/
def Hub.fifoIdx (h : Hub) (n : Nat) : Nat := h.get1 QSC.FIFO_IDX.INDEX n

/-- PROD of FIFO `n`. -/
def Hub.fifoProd (h : Hub) (n : Nat) : Nat := if n % 2 = 1 then h.fifoIdx n else (h.fifo n).peer

/-- The consumer index of FIFO `n`. -/
def Hub.fifoCons (h : Hub) (n : Nat) : Nat := if n % 2 = 1 then (h.fifo n).peer else h.fifoIdx n

/-- Words in use: W − C modulo 2^32 (R133). -/
def Hub.fifoUsed (h : Hub) (n : Nat) : Nat := (h.fifoProd n + 2 ^ 32 - h.fifoCons n) % 2 ^ 32

/-- Host address of ring word `i` of FIFO `n` (R133, R367; bits [11:0] of the ring address are ignored). -/
def Hub.ringAddr (h : Hub) (n i : Nat) : Nat :=
  let q := n / 2
  let lo := if n % 2 = 0 then h.get1 HIF.QP_RING0_LO.ADDR q else h.get1 HIF.QP_RING1_LO.ADDR q
  let hi := if n % 2 = 0 then h.get1 HIF.QP_RING0_HI.ADDR q else h.get1 HIF.QP_RING1_HI.ADDR q
  lo / 4096 * 4096 + hi * 2 ^ 32 + i % h.fifoWords n * 8

/-- Split bytes into 8-byte words. The spec does not say what the last word is padded with: the device writes zeros (DESIGN CHOICE,
assumption 110). -/
def toWords : Nat → List Byte → List (List Byte)
  | 0, _ => []
  | n + 1, l => (l.take 8 ++ leBytes (8 - (l.take 8).length) 0) :: toWords n (l.drop 8)

/-- Write words into the ring from index `i`, wrapping at the ring end. -/
def Hub.ringPut (h : Hub) (n i : Nat) : List (List Byte) → Hub
  | [] => h
  | w :: t => (h.hostWrite (h.ringAddr n i) w).ringPut n (i + 1) t

/-- Read `c` words of the ring from index `i`. -/
def Hub.ringGet (h : Hub) (n i : Nat) : Nat → List Byte
  | 0 => []
  | c + 1 => memReadList h.hostMem (h.ringAddr n i) 8 ++ h.ringGet n (i + 1) c

/-- The header word of Table 7.1 at word index `i`. -/
def fifoHeader (words i kind len : Nat) : List Byte :=
  leBytes 8 ((if i / words % 2 = 0 then 2 ^ 63 else 0) + kind * 2 ^ 60 + len % 2 ^ 32)

/-- Signal queue pair `q` (R369): the owning function's MSI-X vector, at most once per period. -/
def Hub.qpSignal (h : Hub) (q : Nat) : Hub :=
  if q ∈ h.qpFired then
    { h with qpPend := if q ∈ h.qpPend then h.qpPend else h.qpPend ++ [q] }
  else
    ({ h with qpFired := h.qpFired ++ [q] } : Hub).msi (h.owner HIF.VF_QP.BASE q) (h.get1 HIF.QP_CFG.VECTOR q)

/-- Write back the consumer index of ring 0 and PROD of ring 1 (R368; bits [5:0] of the address are ignored). -/
def Hub.writeback (h : Hub) (q : Nat) : Hub :=
  h.hostWrite (h.get1 HIF.QP_IDX_LO.ADDR q / 64 * 64 + h.get1 HIF.QP_IDX_HI.ADDR q * 2 ^ 32)
    (leBytes 4 (h.fifoIdx (2 * q)) ++ leBytes 4 (h.fifoIdx (2 * q + 1)))

/-- Publish a device-to-host FIFO up to index `i` (R134, R368, R369). -/
def Hub.fifoPublish (h : Hub) (n i : Nat) : Hub :=
  ((h.set1 QSC.FIFO_IDX.INDEX n (i % 2 ^ 32)).writeback (n / 2)).qpSignal (n / 2)

/-- Write the pending GAP item of a device-to-host FIFO where at least one word is free (R136). -/
def Hub.fifoGap (h : Hub) (n : Nat) : Hub :=
  let f := h.fifo n
  let w := h.fifoProd n
  if 0 < f.loss ∧ h.fifoUsed n < h.fifoWords n then
    ((h.ringPut n w [fifoHeader (h.fifoWords n) w 1 f.loss]).setFifo n { f with loss := 0 }).fifoPublish n (w + 1)
  else h

/-- Drop the newest item (R135): the pending loss count and `QSC.FIFO_LOST` each count it. -/
def Hub.fifoDrop (h : Hub) (n : Nat) : Hub :=
  let f := h.fifo n
  ((h.setFifo n { f with loss := f.loss + 1 }).err QSC.FIFO_LOST.COUNT n 0x0708 0).raiseRl
    { code := 0x0703 + 1, detail := [n] }

/-- Does a DATA item of `len` bytes fit, leaving one word free (R135)? -/
def Hub.fifoRoom (h : Hub) (n len : Nat) : Bool :=
  decide (h.fifoUsed n + 1 + (len + 7) / 8 < h.fifoWords n)

/-- The device produces one DATA item (R134–R136). -/
def Hub.fifoProduce (h : Hub) (n : Nat) (payload : List Byte) : Hub :=
  let h1 := h.fifoGap n
  if (h1.fifo n).loss = 0 ∧ h1.fifoRoom n payload.length then
    let w := h1.fifoProd n
    let nw := (payload.length + 7) / 8
    ((h1.ringPut n (w + 1) (toWords nw payload)).ringPut n w
      [fifoHeader (h1.fifoWords n) w 0 payload.length]).fifoPublish n (w + 1 + nw)
  else h1.fifoDrop n

/-- Flush (R138): the FIFO is empty at PROD, nothing is counted as lost. -/
def Hub.fifoFlush (h : Hub) (n : Nat) : Hub :=
  if n % 2 = 1 then h.setFifo n { peer := h.fifoIdx n, loss := 0 }
  else (h.set1 QSC.FIFO_IDX.INDEX n (h.fifo n).peer).setFifo n { (h.fifo n) with loss := 0 }

/-- A write of `QSC.FIFO_CTL`: a new SIZE, or FLUSH, flushes the FIFO (R138). -/
def Hub.fifoCtl (h : Hub) (n : Nat) (val : Word) : Hub :=
  let size := QSC.FIFO_CTL.SIZE.of val
  if size ≠ h.get1 QSC.FIFO_CTL.SIZE n then (h.set1 QSC.FIFO_CTL.SIZE n size).fifoFlush n
  else if val.getLsbD 31 then h.fifoFlush n
  else h

/-- Is queue pair `q` enabled? -/
def Hub.qpOn (h : Hub) (q : Nat) : Bool := h.get1 HIF.QP_CFG.ENABLE q == 1

/-- Is queue pair `q` of KIND COMMAND (values 2 and 3 act as FIFO)? -/
def Hub.qpCommand (h : Hub) (q : Nat) : Bool := h.get1 HIF.QP_CFG.KIND q == 0

/-- A device producer hands an item to queue pair `q` (R367): without a path of its sash, or where the pair is disabled
or of KIND COMMAND, the item is dropped and counted in `HIF.NO_QP`. -/
def Hub.qpDeliver (h : Hub) (q : Nat) (path : Bool) (payload : List Byte) : Hub :=
  if path ∧ h.qpOn q ∧ !h.qpCommand q then h.fifoProduce (2 * q + 1) payload
  else (h.err HIF.NO_QP.COUNT 0 0x1404 0).raiseRl { code := 0x1401, detail := [q] }

/-- What the device's consumer finds at its index of a host-to-device FIFO. -/
inductive FifoNext where
  /-- Nothing below PROD. -/
  | empty
  /-- A DATA item: its payload and the index past it. -/
  | item (payload : List Byte) (next : Nat)
  /-- A GAP of the host: its COUNT, and the index past it (R136). -/
  | gap (count next : Nat)
  /-- An item of KIND 2–7, skipped by its LEN and counted (Table 7.1). -/
  | skip (next : Nat)
  /-- LEN too large, or an item that runs past PROD (R137). -/
  | bad
  /-- PROD outside its bounds (R137). -/
  | range
  deriving DecidableEq, Repr

/-- Look at the next item of host-to-device FIFO `n` (R137). -/
def Hub.fifoPeek (h : Hub) (n : Nat) : FifoNext :=
  let c := h.fifoCons n
  let d := h.fifoUsed n
  let words := h.fifoWords n
  let hdr := leNat (h.ringGet n c 1)
  let len := hdr % 2 ^ 32
  let kind := hdr / 2 ^ 60 % 8
  let nw := 1 + (len + 7) / 8
  if d = 0 then .empty
  else if words < d then .range
  else if kind = 1 then .gap len ((c + 1) % 2 ^ 32)
  else if 8 * (words - 2) < len ∨ d < nw then .bad
  else if kind = 0 then .item ((h.ringGet n (c + 1) ((len + 7) / 8)).take len) ((c + nw) % 2 ^ 32)
  else .skip ((c + nw) % 2 ^ 32)

/-- Count in `QSC.FIFO_BAD` and raise `QSC_FIFO_BAD`, with the FIFO and its consumer index (R137): the index before it moves to PROD,
which of the two the spec does not say (DESIGN CHOICE, assumption 111). -/
def Hub.fifoBad (h : Hub) (n : Nat) : Hub :=
  (h.err QSC.FIFO_BAD.COUNT n 0x0708 0).raise { code := 0x0705, detail := [n, h.fifoCons n] }

/-- Advance the device's consumer index and write it back (R368). -/
def Hub.fifoAdvance (h : Hub) (n i : Nat) : Hub := (h.set1 QSC.FIFO_IDX.INDEX n i).writeback (n / 2)

/-- Take the item that stands next in a host-to-device FIFO for a device consumer (R135–R137): a DATA item is handed on as a token for
that FIFO. Does the consumer go on to the item after it? -/
def Hub.fifoTake (h : Hub) (n : Nat) (next : FifoNext) : Hub × Bool :=
  match next with
  | .empty => (h, false)
  | .item p i => ((h.fifoAdvance n i).emit (.token (0x4000 + n / 16 * 8) "item" (n :: p.map BitVec.toNat)), true)
  | .gap c i => ((h.errN QSC.FIFO_LOST.COUNT n c 0x0708 0).fifoAdvance n i, true)
  | .skip i => ((h.err QSC.FIFO_BAD.COUNT n 0x0708 0).fifoAdvance n i, true)
  | .bad => ((h.fifoBad n).fifoAdvance n (h.fifoProd n), false)
  | .range => ((h.err QSC.FIFO_BAD.COUNT n 0x0708 0).fifoFlush n, false)

/-- Consume items of a host-to-device FIFO for a device consumer, at most `fuel` of them (R137). -/
def Hub.fifoConsume (h : Hub) (n : Nat) : Nat → Hub
  | 0 => h
  | fuel + 1 =>
    if (h.fifoTake n (h.fifoPeek n)).2 then (h.fifoTake n (h.fifoPeek n)).1.fifoConsume n fuel else (h.fifoTake n (h.fifoPeek n)).1

/-! ### Commands and completions -/


/-- The completion payload of Table 19.3: RESULT is empty unless STATUS is OK, save the reason of a refused receiver
(R213). -/
def completionBytes (opcode status tag svc : Nat) (result : List Byte) : List Byte :=
  leBytes 2 opcode ++ leBytes 2 status ++ leBytes 4 tag ++ leBytes 1 svc ++ leBytes 7 0 ++
    (if status = 0 ∨ opcode % 0x8000 = 0x0503 ∨ opcode % 0x8000 = 0x0504 then result else [])

/-- Post the completions at the front of a queue pair's list, in order, as far as they have completed (R125, R370). -/
def Hub.postDone (h : Hub) (qp : Nat) : List CmdSlot → Hub
  | [] => { h with cmds := kvDel qp h.cmds }
  | c :: t =>
    match c.fin with
    | some (st, res) =>
      let h1 := h.fifoProduce (2 * qp + 1) (completionBytes c.opcode st c.tag c.svc res)
      ({ h1 with posted := h1.posted ++ c.held.toList } : Hub).postDone qp t
    | none => { h with cmds := kvPut qp (c :: t) h.cmds }

/-- Mark the first slot of a tag and opcode that has not completed; add a completed slot where none waits. -/
def finSlot (tag opcode svc st : Nat) (res : List Byte) (held : Option (Nat × Instr)) : List CmdSlot → List CmdSlot
  | [] => [⟨tag, opcode, svc, some (st, res), held⟩]
  | c :: t =>
    if c.tag = tag ∧ c.opcode = opcode ∧ c.fin = none then { c with fin := some (st, res), held := held } :: t
    else c :: finSlot tag opcode svc st res held t

/-- The service number of an opcode (Table 19.2). -/
def opService (opcode : Nat) : Nat := opcode / 256 % 128

/-- Complete a service command with a status of Table 6.13 and its result (R125, R370), and the LATCHED change it holds, if any. A
queue pair that is disabled receives nothing; a pace emergency holds the completion (R74, R368). -/
def Hub.complete (h : Hub) (e : CmdEnv) (opcode status : Nat) (result : List Byte) (held : Option (Nat × Instr)) : Hub :=
  let op := opcode + (if e.latched then 0x8000 else 0)
  let svc := h.get1 HIF.SVC_STAT.STATE (opService opcode)
  let slots := finSlot e.tag op svc status result held ((kvGet e.qp h.cmds).getD [])
  if !h.qpOn e.qp then h
  else if h.hostHeld then { h with cmds := kvPut e.qp slots h.cmds }
  else h.postDone e.qp slots

/-- Completions that a pace emergency held are posted (R75). -/
def Hub.postHeld (h : Hub) : Hub := h.cmds.foldl (fun a e => a.postDone e.1 e.2) h

end Sys2Proof.Machine
end

