-- ==== Sys2Proof/Machine/TypesAud.lean ====
section
/-!
DEFINITION. State of the audio crosspoint, its codec channels and large rooms (chapter 12), and of the Doorbell (chapter 13),
beyond their registers. Samples are named by their global index s = 6 × period + i (R242).
-/

namespace Sys2Proof.Machine

/-- A meter (R252): the held peak, its decay so far in 1/500 of 1/16 dB, periods since it was set, the mean square, and
whether a sample has been non-zero. -/
structure AudMeter where
  peak : Nat := 0
  decay : Nat := 0
  age : Nat := 0
  ms : Nat := 0
  any : Bool := false
  deriving DecidableEq, Repr

/-- A crosspoint source: its binding (Table 12.1), room tag, samples that have arrived (none: poisoned), the last sample of
the block last read, the sums of squares of up to 80 blocks (10 ms), newest first, and the sum of squares since
the last room choice (R255). -/
structure AudSrc where
  kind : Nat := 0
  ref : Nat := 0
  tag : Nat := 0
  buf : List (Nat × Option Int) := []
  /-- Samples of an ST 2110-31 pair marked as data (R231). -/
  data : List (Nat × Int) := []
  before : Int := 0
  squares : List Nat := []
  room : Nat := 0
  meter : AudMeter := {}
  deriving DecidableEq, Repr

/-- A crosspoint sink: its binding, AUTO, room tag; its scaling code in force, the goal, the sample at which the next step
became due and the steps of the block being formed (R250); a lower goal and the elapsed ns since which it has held; the
limiter's envelope; the node sum of the last sample; up to 1,056 output samples, newest first. -/
structure AudSnk where
  kind : Nat := 0
  ref : Nat := 0
  auto : Bool := false
  tag : Nat := 0
  att : Nat := 0
  goal : Nat := 0
  due : Option Nat := none
  steps : List (Nat × Nat) := []
  low : Option (Nat × Nat) := none
  env : Nat := 0
  sum : Int := 0
  out : List Int := []
  meter : AudMeter := {}
  deriving DecidableEq, Repr

/-- A node (R245, R247): the code in force at the start of the block being formed, the code written, the target in force,
the code its ramp started from, the sample at which its next step became due, and the steps made in the block. -/
structure AudNode where
  code : Nat := 0
  want : Nat := 0
  target : Nat := 0
  start : Nat := 0
  due : Option Nat := none
  steps : List (Nat × Nat) := []
  deriving DecidableEq, Repr

/-- Statistics of an audio channel (AUD_STATS): frames, concealed frames, late packets, re-anchorings and O less arrival in
samples. -/
structure AudCnt where
  frames : Nat := 0
  plc : Nat := 0
  late : Nat := 0
  reanchor : Nat := 0
  depth : Nat := 0
  deriving DecidableEq, Repr

/-- A decode channel (R254). -/
structure AudDec where
  unit : Nat
  stream : Nat
  source : Nat
  jb : Nat
  /-- The sample at which the channel closes. -/
  closing : Option Nat := none
  /-- The sample index that RTP timestamp `ts0` plays at, once a packet has arrived. -/
  anchor : Option (Nat × Int) := none
  /-- The last 32 packets, newest first: by how many samples each was late, 0 when it was not. -/
  recent : List Nat := []
  /-- A change of O waiting, in samples, and the elapsed ns since which it waits. -/
  shift : Option (Int × Nat) := none
  /-- Elapsed ns since which the buffer has been deeper than JB_MS + 40 ms. -/
  deep : Option Nat := none
  /-- The sample index after the last packet's, its length, whether it was DTX, and samples concealed in the running gap. -/
  tail : Nat := 0
  len : Nat := 0
  /-- The sample at which the first packet plays. -/
  first : Nat := 0
  dtx : Bool := false
  gap : Nat := 0
  /-- Levels as (elapsed ns, dB below full scale), newest first (R256). -/
  levels : List (Nat × Nat) := []
  cnt : AudCnt := {}
  pub : AudCnt := {}
  deriving DecidableEq, Repr

/-- An encode channel (R257): destinations 0 LEG, 1 GROUP, 2 TSO. -/
structure AudEnc where
  unit : Nat
  sink : Nat
  codec : Nat
  stereo : Bool
  dtx : Bool
  fec : Bool
  ten : Bool
  kbps : Nat
  dest : Nat
  stream : Nat
  sync : Nat
  /-- The sample at which the channel closes. -/
  closing : Option Nat := none
  /-- The next frame. -/
  next : Option Nat := none
  cnt : AudCnt := {}
  pub : AudCnt := {}
  deriving DecidableEq, Repr

/-- A member's profile in a large room (AUD_LEG_PROFILE); level as a run of (elapsed ns, level), newest first. -/
structure AudProf where
  inStream : Nat
  outStream : Nat
  group : Nat
  codec : Nat
  kbps : Nat
  dec : Option Nat
  levels : List (Nat × Nat) := []
  deriving DecidableEq, Repr

/-- A talker of a large room: its place t, its leg (with 65,536 × (device + 1) added for another device's), and since when it
has been below the gate (R256). -/
structure AudTalker where
  t : Nat
  leg : Nat
  quiet : Option Nat := none
  leaving : Bool := false
  deriving DecidableEq, Repr

/-- A large room (R256). -/
structure AudConf where
  t : Nat
  src : Nat
  snk : Nat
  dec : Nat
  enc : Nat
  talkers : List AudTalker := []
  /-- Elapsed ns of the last selection. -/
  at_ : Option Nat := none
  /-- Scores other devices have sent: 65,536 × (device + 1) + leg, with the level. -/
  remote : List (Nat × Nat) := []
  deriving DecidableEq, Repr

/-- The audio block. Nodes are keyed by 2,048 × sink + source. -/
structure AudSt where
  srcs : List (Nat × AudSrc) := []
  snks : List (Nat × AudSnk) := []
  nodes : List (Nat × AudNode) := []
  decs : List (Nat × AudDec) := []
  encs : List (Nat × AudEnc) := []
  confs : List (Nat × AudConf) := []
  profs : List (Nat × AudProf) := []
  /-- Elapsed ns of the last choice of voices. -/
  roomAt : Option Nat := none
  /-- The voice of each room tag (R255). -/
  voices : List (Nat × Nat) := []
  /-- Node changes waiting for a boundary, with the elapsed ns of their acceptance: (sink, source, code). -/
  sets : List (Nat × List (Nat × Nat × Nat)) := []
  /-- Service keys set (R128). -/
  keys : List (Nat × Nat) := []
  deriving DecidableEq, Repr

/-- A beacon transmission (R261–R264): PMOD, nonce, the sequence number of the next frame; the last frame as its start and
end in elapsed ns, and the global sample of an early lead-out; whether a stop waits for the frame's end; whether
eligibility has been lost. -/
structure DblTx where
  pmod : Bool
  nonce : Nat
  seq : Nat := 0
  frame : Option (Nat × Nat) := none
  /-- The frame's symbols, and the global sample of its start. -/
  sent : List Nat := []
  at_ : Nat := 0
  cutAt : Option Nat := none
  stop : Bool := false
  paused : Bool := false
  deriving DecidableEq, Repr

/-- A complex value. -/
structure Cpx where
  re : Rat
  im : Rat
  deriving DecidableEq, Repr

/-- A receiver's equaliser (R266): feed-forward and feedback taps; the last chips decided, newest first; the last despread symbol and the
quarter turns decided for it; the T/2 sample of the next symbol's first chip; the coded symbols done and their soft values. -/
structure DblEq where
  ff : List Cpx
  fb : List Cpx
  ref : List Cpx
  prev : Cpx
  phase : Nat
  at_ : Nat
  syms : Nat
  soft : List Int
  deriving DecidableEq, Repr

/-- A reception (R267): its acquisition metric in dB, the T/2 samples the dwell had at the end of the preamble, the equaliser once the
sync word has been found, whether it has been and the header has passed, and the header's PMOD. -/
structure DblRecep where
  metric : Nat
  start : Nat := 0
  eq : Option DblEq := none
  sync : Bool := false
  header : Option Bool := none
  deriving DecidableEq, Repr

/-- A receiver's dwell (R265, R268): the leg, its start in elapsed ns, whether its 6 s have ended, and its reception; decoded samples that
have come, the last 960 of them and the last 4,096 T/2 samples made of them, newest first (R266). -/
structure DblDwell where
  leg : Nat
  start : Nat
  got : Nat := 0
  audio : List Int := []
  half : List Cpx := []
  ended : Bool := false
  recep : Option DblRecep := none
  deriving DecidableEq, Repr

/-- A surveyed leg (R265): elapsed ns of its last dwell's start, none before the first or after a dwell that was cut; its
place in the round. -/
structure DblSurvey where
  last : Option Nat := none
  turn : Nat := 0
  deriving DecidableEq, Repr

/-- The Doorbell. Dwells are keyed by 128 × core + receiver, edges by the pair of legs, with the elapsed ns of their last
renewal. -/
structure DblSt where
  tx : List (Nat × DblTx) := []
  survey : List (Nat × DblSurvey) := []
  turn : Nat := 0
  dwells : List (Nat × DblDwell) := []
  edges : List (Nat × Nat × Nat) := []
  keys : List (Nat × Nat) := []
  deriving DecidableEq, Repr

end Sys2Proof.Machine
end

