-- ==== Sys2Proof/Machine/TypesBio.lean ====
section
/-!
DEFINITION. State of the video inputs and transport outputs beyond their registers (chapter 11).
-/

namespace Sys2Proof.Machine

/-- One essence flow of a VIN (R227): entries of equal KIND and GROUP, received on paths A and B. -/
structure VinGroup where
  /-- The newest RTP timestamp of the group. -/
  newest : Option Nat := none
  /-- Packets used whose timestamps lie within the window: sequence number, timestamp, path of the first copy (B is true)
  and its arrival in elapsed ns. -/
  used : List (Nat × Nat × Bool × Nat) := []
  /-- Elapsed ns of the last arrival on each path, none before the first and after a time-out. -/
  lastA : Option Nat := none
  lastB : Option Nat := none
  /-- Arrivals of path B less path A in ns, summed, and how many packets have arrived on both. -/
  skew : Int := 0
  both : Nat := 0
  deriving DecidableEq, Repr

/-- A frame being received (R226, R228): its number, RTP timestamp, capture time C_f in counter ns, complete lines, stripes
streamed, and (SDI) whether its timing did not match. -/
structure VinFrame where
  num : Nat
  ts : Nat
  cf : Nat
  lines : Nat := 0
  streamed : List Nat := []
  bad : Bool := false
  /-- Rows already counted as late or lost. -/
  counted : List Nat := []
  deriving DecidableEq, Repr

/-- A slot of the line store (R228): the line it holds, its samples so far, and whether it has been streamed. -/
structure VinLine where
  frame : Nat
  row : Nat
  px : Nat
  streamed : Bool := false
  deriving DecidableEq, Repr

/-- A video input. -/
structure VinUnit where
  groups : List (Nat × VinGroup) := []
  /-- Elapsed ns of the last video packet on either path. -/
  video : Option Nat := none
  frames : List VinFrame := []
  next : Nat := 0
  store : List (Nat × VinLine) := []
  deriving DecidableEq, Repr

/-- Data waiting at a mux (R233, R235): the counter ns of its arrival, its PID, its bytes with their PES header, whether
it ends its PES packet or section, and while its PES header has not left, the PTS and random_access_indicator (R234). -/
structure TsPart where
  at_ : Nat
  pid : Nat
  bytes : Nat
  end_ : Bool
  start : Option (Nat × Bool) := none
  deriving DecidableEq, Repr

/-- What a TSO knows of a video frame in its CMAF buffer: frame number, the flags of its rows joined (Table 8.15), the elapsed ns at which
its last row arrived, C_f in ns, its bytes, and the tracks whose chunk of it has been written. -/
structure TsoFrame where
  num : Nat
  flags : Nat
  done : Option Nat
  cf : Nat
  bytes : Nat
  written : List Nat := []
  deriving DecidableEq, Repr

/-- A release row as a TSO takes it (Table 8.15): frame, row, flags, C_f in ns, bytes. -/
structure TsoRow where
  frame : Nat
  row : Nat
  flags : Nat
  cf : Nat
  size : Nat
  deriving DecidableEq, Repr

/-- A transport output. -/
structure TsoUnit where
  /-- Data in the mux buffer, in order of arrival, and rows whose acknowledges are withheld. -/
  parts : List TsPart := []
  held : List TsoRow := []
  /-- Coded audio in PART: track, stamped time in ns, and the item's bytes (R257). -/
  audio : List (Nat × Nat × List Byte) := []
  /-- Elapsed ns of the last PSI timer. -/
  psi : Option Nat := none
  /-- Samples of each track encrypted under cenc: their IVs count up (R237). -/
  ivs : List (Nat × Nat) := []
  /-- s of the last TS packet, times TS_RATE in kb/s, in ns. -/
  last : Option Nat := none
  /-- s of the last TS packet with a PCR, likewise. -/
  pcr : Option Nat := none
  /-- TS packets of the datagram in progress, RTP sequence numbers of media, column FEC and row FEC, and the datagrams of
  the FEC matrix so far. -/
  inDgram : Nat := 0
  seq : Nat := 0
  colSeq : Nat := 0
  rowSeq : Nat := 0
  fec : Nat := 0
  /-- Acknowledges have been withheld in this period. -/
  stalled : Bool := false
  frames : List TsoFrame := []
  /-- CMAF: tracks whose init segment is due, segments started, and tracks whose next chunk starts a segment. -/
  initDue : List Nat := []
  segs : List (Nat × Nat) := []
  segDue : List Nat := []
  deriving DecidableEq, Repr

/-- Broadcast inputs and outputs. -/
structure BioSt where
  vins : List (Nat × VinUnit) := []
  tsos : List (Nat × TsoUnit) := []
  /-- t_m of the last composer frame each SDI transmit lane has begun (R230). -/
  sdi : List (Nat × Nat) := []
  deriving DecidableEq, Repr

end Sys2Proof.Machine
end

