-- ==== Sys2Proof/Machine/TypesCip.lean ====
section
/-!
DEFINITION. State of the cipher lanes and key slots beyond their registers (chapter 15).
-/

namespace Sys2Proof.Machine

/-- Key material of one generation: the key and salt bytes of its record. -/
structure KeyMat where
  gen : Nat
  bytes : List Byte
  deriving DecidableEq, Repr

/-- A key operation that has been unwrapped: an erase (no record), or a write with its record fields (Table 15.3). -/
structure KeyOp where
  erase : Bool
  mode : Nat
  dec : Bool
  bytes : List Byte
  soft : Nat
  hard : Nat
  start : Nat
  deriving DecidableEq, Repr

/-- A key slot (R293). -/
structure KeySlot where
  state : Nat := 0
  mode : Nat := 0
  dec : Bool := false
  gen : Nat := 0
  key : List Byte := []
  soft : Nat := 0
  hard : Nat := 0
  use : Nat := 0
  softHit : Bool := false
  fail : Nat := 0
  /-- The generation that drains, and the held one of a decrypt slot (R297, R298). -/
  drain : Option KeyMat := none
  held : Option KeyMat := none
  /-- When the held key is given up, in ns (R298). -/
  heldEnd : Nat := 0
  /-- Changes waiting for a drain, oldest first, each with the function whose BUSY waits for it. -/
  wait : List (KeyOp × Option Nat) := []
  /-- Next MACsec packet number, and next SRTCP index (R300). -/
  pn : Nat := 1
  rtcp : Nat := 0
  deriving DecidableEq, Repr

/-- A key operation in progress at a function's window (R296). -/
structure KwJob where
  erase : Bool
  latched : Bool
  slot : Nat
  deriving DecidableEq, Repr

/-- The SRTP indices an outbound stream has encrypted (R300): slot, generation, highest index, and those within 128 of it. -/
structure IdxWin where
  slot : Nat
  gen : Nat
  top : Nat
  seen : List Nat
  deriving DecidableEq, Repr

/-- Cipher lanes and key slots. -/
structure CipSt where
  slots : List (Nat × KeySlot) := []
  jobs : List (Nat × KwJob) := []
  windows : List (Nat × IdxWin) := []
  /-- When each lane has computed the blocks queued at it, in hc (R302). -/
  ends : List (Nat × Nat) := []
  deriving DecidableEq, Repr

end Sys2Proof.Machine
end

