-- ==== Sys2Proof/Machine/TypesDbt.lean ====
section
/-!
DEFINITION. State of the Deadbolt, the Shutter and the start sequences beyond their registers (chapters 20 and 21).
-/

namespace Sys2Proof.Machine

/-- Where the device stands in its starts (R398, R400, R401, R407). -/
inductive Phase where
  /-- `RESET_N` low, or power not good. -/
  | held
  /-- Cold step 1–14 (Table 21.1). -/
  | cold (step : Nat)
  /-- Step 7 running after step 9 (R418). -/
  | coldLate7
  /-- Warm step W1–W10 (Table 21.2). -/
  | warm (step : Nat)
  /-- In service. -/
  | running
  /-- A start stopped (R401). -/
  | stopped
  deriving DecidableEq, Repr

/-- A warm start request (R400): RECOVERY, SOURCE of Table 21.5, and the bank of a full commit captured at the request (R48). -/
structure WarmReq where
  recovery : Bool
  source : Nat
  bank : Option Bool
  deriving DecidableEq, Repr

/-- The start sequencer. -/
structure StartSt where
  phase : Phase := .held
  /-- Repeats made of the current step (R401). -/
  repeats : Nat := 0
  /-- A step ended in a degraded form (Table 21.3). -/
  degraded : Bool := false
  /-- Step 7 has calibrated the lanes of the image in flash (R418). -/
  lanesEarly : Bool := false
  /-- A warm request held by the start or Shutter in progress (R402). -/
  warmReq : Option WarmReq := none
  /-- A Shutter trigger held until its step range ends (R402): the cause. -/
  shutReq : Option Nat := none
  /-- TIME_REFCLK ticks at the trigger of the start (GLB.START_TIME). -/
  trigger : Nat := 0
  /-- READY has read 1 since the last cold start (R386). -/
  opened : Bool := false
  /-- `Hub.elapsed` at the start of the step's current attempt. -/
  stepAt : Nat := 0
  deriving DecidableEq, Repr

/-- Is the running step one that calibrates lanes: cold 7 or W5 (Tables 21.1 and 21.2)? -/
def StartSt.calibrating (x : StartSt) : Bool :=
  match x.phase with
  | .cold n => n == 7
  | .coldLate7 => true
  | .warm n => n == 5
  | _ => false

/-- A unit under logic BIST (R387): its type and instance, the spare that serves it, the runs made, and whether its
secrets have been cleared. -/
structure BistTest where
  ty : Nat
  inst : Nat
  spare : Nat
  runs : Nat := 0
  cleared : Bool := false
  clears : Nat := 0
  deriving DecidableEq, Repr

/-- A retired page being copied, or remapped, to its spare (R384). -/
structure Remap where
  channel : Nat
  spare : Nat
  done : Bool
  deriving DecidableEq, Repr

/-- The Deadbolt. -/
structure DbtSt where
  /-- The current management nonce (R379), and `Hub.elapsed` at its issue. -/
  nonce : Option Nat := none
  nonceAt : Nat := 0
  /-- The management key in OTP, 32 bytes; 0 is blank (R378). -/
  mgmtKey : Nat := 0
  /-- The key wrapping key installed by WRAP_KEY. -/
  wrapKey : Option Nat := none
  /-- A ROM restart runs (R377), and the ticks of the last mismatch. -/
  restarting : Bool := false
  mismatchAt : Option Nat := none
  /-- Transients held during a restart (R377): the channel, with a cause where the block has declared its retry failed. -/
  inFifo : List (Nat × Option Nat) := []
  /-- Faults learnt during a Shutter, judged at its release (R391). -/
  shutFaults : List (Nat × Option Nat) := []
  /-- Channels whose leak timer runs, with the start of the leak interval in progress and its length, in ns (R381). -/
  leaks : List (Nat × Nat × Nat) := []
  /-- Entries of the PAGE bucket table, oldest first (R381). -/
  pageAge : List Nat := []
  /-- Permanent channels that wait for their unit's work boundary, with their cause (R382, R383). -/
  retiring : List (Nat × Nat) := []
  /-- The instance each type's BIST tests next, and the units under test (R386, R387). -/
  bistNext : List (Nat × Nat) := []
  tests : List BistTest := []
  /-- Units whose test waits for their work boundary, as (type, instance) (R387). -/
  bistSched : List (Nat × Nat) := []
  /-- The interval each type's schedule is in: its start and length, in ns (R386). -/
  bistAt : List (Nat × Nat × Nat) := []
  /-- Types whose test fell due during a start (R386). -/
  bistDue : List Nat := []
  /-- Page remaps (R384), and spares used by memory: stack 0, stack 1, or 2 + SRAM macro group. -/
  remaps : List Remap := []
  sparesUsed : List (Nat × Nat) := []
  /-- PAGE channels under a march test that a MARCH command started, in order (R389). -/
  march : List Nat := []
  /-- `SHUTTER_N` is low; a SHUTTER command, a policy trigger or R377 holds until OP 0 (R390, R392). -/
  shutPin : Bool := false
  shutHold : Bool := false
  /-- Ticks at the last freeze. -/
  shutAt : Nat := 0
  /-- HBM has entered self-refresh (R391). -/
  selfRefresh : Bool := false
  /-- A release has started and the resume is not yet done (R392), and `Hub.elapsed` at the release. -/
  resuming : Bool := false
  relAt : Nat := 0
  /-- Louvre boundaries not observed during the Shutter (R392). -/
  missed : Nat := 0
  /-- Since when `GLB.THERM` has published a temperature above the limit, and whether the second has been reported (R412). -/
  hotAt : Option Nat := none
  hotSaid : Bool := false
  deriving DecidableEq, Repr

end Sys2Proof.Machine
end

