-- ==== Sys2Proof/Machine/TypesDec.lean ====
section
/-!
DEFINITION. State of the DEC units and composers beyond their registers (chapter 9). A decode context is keyed by
65,536 × sash + inbound stream.
-/

namespace Sys2Proof.Machine

/-- A coded packet in a context's buffer (R182): sequence number, RTP timestamp, bytes, whether it starts and ends its
frame, its M bit, and its arrival in elapsed ns and in counter ns. -/
structure DecPkt where
  seq : Nat
  ts : Nat
  len : Nat
  start : Bool
  end_ : Bool
  m : Bool
  at_ : Nat
  ns : Nat
  deriving DecidableEq, Repr

/-- A picture slot (R185): its offset in PART, and its picture: its codec's identity, spatial layer, order of decoding, size, dirty
blocks (R187), whether it is a reference, and how many consumers hold it. -/
structure DecSlot where
  off : Nat
  used : Bool := false
  id : Nat := 0
  layer : Nat := 0
  order : Nat := 0
  w : Nat := 0
  h : Nat := 0
  dirty : List Nat := []
  ref : Bool := false
  held : Nat := 0
  deriving DecidableEq, Repr

/-- Decode statistics (DEC_STATS). -/
structure DecCnt where
  state : Nat := 0
  pics : Nat := 0
  concealed : Nat := 0
  lost : Nat := 0
  w : Nat := 0
  h : Nat := 0
  deriving DecidableEq, Repr

/-- The picture that a temporal unit outputs as far as it has been decoded (R183): the unit's timestamp, the slot, and what the
descriptor says of it (Table 9.3). -/
structure DecTu where
  ts : Nat
  slot : Nat
  key : Bool
  unchanged : Bool
  poison : Bool
  fmt : Nat
  ns : Nat
  deriving DecidableEq, Repr

/-- A decode context (R181, Table 9.4). -/
structure DecCtx where
  unit : Nat
  out : Nat
  maxW : Nat
  maxH : Nat
  part : Nat
  slots : List DecSlot
  cnt : DecCnt := {}
  pub : DecCnt := {}
  /-- The next sequence number to decode, none before the first packet, and the packets held in rising order. -/
  next : Option Nat := none
  pkts : List DecPkt := []
  order : Nat := 0
  pane : Nat := 0
  tu : Option DecTu := none
  deriving DecidableEq, Repr

/-- The slots of a context that has been removed, until their consumers release them. -/
structure DecOrphan where
  part : Nat
  size : Nat
  slot : DecSlot
  deriving DecidableEq, Repr

/-- The decoders. -/
structure DecSt where
  ctxs : List (Nat × DecCtx) := []
  orphans : List DecOrphan := []
  deriving DecidableEq, Repr

/-- A picture as its descriptor names it (Table 9.3). -/
structure PicDesc where
  part : Nat
  off : Nat
  unchanged : Bool
  w : Nat
  h : Nat
  ten : Bool
  stream : Nat
  deriving DecidableEq, Repr

/-- A video layer of a composer (R195, R197): descriptors waiting at its port, oldest first; its picture; the boundaries
since it took one and its stale run; whether FILL is drawn; its line-buffer step. -/
structure CmpLayer where
  queue : List PicDesc := []
  cur : Option PicDesc := none
  k : Nat := 0
  s : Nat := 0
  fill : Bool := false
  step : Nat := 0
  deriving DecidableEq, Repr

/-- What a layer draws at a boundary, compared with the next (R199, R200): its destination as left, top, width, height;
its registers in force; whether it is in the glazed run. -/
structure CmpDrawn where
  x : Nat
  y : Nat
  w : Nat
  h : Nat
  regs : List Word
  run : Bool
  deriving DecidableEq, Repr

/-- A frame being composed: its t_m in ns and the output lines complete; the layers it draws, in drawing order, those of them that
draw FILL, and the background, all as they were at t_m; the sash it runs in and the path epoch of its tokens (R31); the chroma of the
last line, for 4:2:0; its slot in OUT_MODE 1. -/
structure CmpFrame where
  tm : Nat
  lines : Nat := 0
  draw : List (Nat × CmpDrawn) := []
  fills : List Nat := []
  bg : Word := 0
  sash : Nat := 0
  epoch : Bool := false
  chroma : List (Nat × Nat) := []
  slot : Option Nat := none
  skipped : Bool := false
  deriving DecidableEq, Repr

/-- A composer. -/
structure CmpUnit where
  layers : List (Nat × CmpLayer) := []
  /-- The last selection instant. -/
  last : Option Nat := none
  frames : List CmpFrame := []
  /-- Selection instants that passed while an earlier frame was unfinished (R192). -/
  passed : List Nat := []
  /-- Pictures replaced, with the t_m of the last frame composed from each. -/
  toFree : List (PicDesc × Nat) := []
  /-- t_m of the last four frames that were complete, newest first. -/
  ended : List Nat := []
  /-- Consumers that hold each of the three frame slots (OUT_MODE 1). -/
  held : List (Nat × Nat) := []
  /-- Layers as last drawn, the background then, tiles of the plane that have been written, and tiles that read poisoned in
  the last frame. -/
  drawn : List (Nat × CmpDrawn) := []
  bg : Word := 0
  written : List Nat := []
  badTiles : List Nat := []
  deriving DecidableEq, Repr

/-- The composers, and the tile cache they share: (unit, tile), most recently used first (R201). -/
structure CmpSt where
  units : List (Nat × CmpUnit) := []
  cache : List (Nat × Nat) := []
  deriving DecidableEq, Repr

end Sys2Proof.Machine
end

