-- ==== Sys2Proof/Machine/TypesSpl.lean ====
section
/-!
DEFINITION. State of the splicers beyond their registers (chapter 10). Pane streams are keyed by 1024 × splicer + stream,
receivers by 4096 × splicer + receiver, templates by 256 × splicer + template. A splice frame is named by its instant in
counter ns (R210).
-/

namespace Sys2Proof.Machine

/-- A pane of a sheet (R205): its stream, its rectangle in units of 64, the next column of its own sweep, and what the
running frame does with it. -/
structure EncPane where
  stream : Nat
  x : Nat
  y : Nat
  w : Nat
  h : Nat
  sweep : Nat := 0
  col : Option Nat := none
  refresh : Bool := false
  failed : Bool := false
  /-- A refresh request waiting (R171, R217): elapsed ns and counter ns of its arrival; and the last restart. -/
  req : Option (Nat × Nat) := none
  restart : Option Nat := none
  deriving DecidableEq, Repr

/-- A pane stream: where it is coded (ENC sash and rendition) or exported (device, remote splicer, remote stream), its size
in units of 64, the instant of the pending refresh and of the previous one (R214), and the imports of it on other devices
(device, splicer, stream) (R218). -/
structure PaneStream where
  src : Option (Nat × Nat) := none
  remote : Option (Nat × Nat × Nat) := none
  w : Nat := 0
  h : Nat := 0
  due : Option Nat := none
  last : Option Nat := none
  exports : List (Nat × Nat × Nat) := []
  deriving DecidableEq, Repr

/-- What the store holds of one pane's payload for one splice frame (R210): bytes, the flags and QP of Table 10.2, whether
its last chunk has arrived, and whether a chunk was poisoned. -/
structure PanePay where
  spl : Nat
  stream : Nat
  frame : Nat
  bytes : List Byte
  flags : Nat
  qp : Nat
  done : Bool
  bad : Bool := false
  deriving DecidableEq, Repr

/-- A patch of a template part (Table 10.6). -/
structure TplPatch where
  pos : Nat
  kind : Nat
  coding : Nat
  width : Nat
  deriving DecidableEq, Repr

/-- A template part. -/
structure TplPart where
  role : Nat
  x : Nat
  y : Nat
  w : Nat
  h : Nat
  bits : List Bool
  patches : List TplPatch
  deriving DecidableEq, Repr

/-- A template (Table 10.5), with the bytes it takes and the instant it arrived at. -/
structure Template where
  codec : Nat
  npos : Nat
  w64 : Nat
  h64 : Nat
  parts : List TplPart
  size : Nat
  at_ : Nat
  deriving DecidableEq, Repr

/-- A position of a receiver (Table 10.8): its state, the stream it carries (or holds for) and, WAITING, the one it waits
for. -/
structure SplPos where
  state : Nat
  stream : Option Nat := none
  next : Option Nat := none
  deriving DecidableEq, Repr

/-- A change of a receiver that takes effect at the first frame whose instant is at least `at_` (R216, R220); none: its
removal. -/
structure RecvChange where
  at_ : Nat
  set : Option (Nat × List (Option Nat))
  deriving DecidableEq, Repr

/-- A receiver (R213). -/
structure SplRecv where
  out : Nat
  tpl : Nat
  /-- Arrival of the template it uses. -/
  tplAt : Nat
  pos : List SplPos
  /-- The instant of the frame being emitted, and how many of its positions have been; whether it is a key frame. -/
  frame : Nat
  next : Nat := 0
  key : Bool := true
  /-- Header of the frame has been emitted. -/
  open_ : Bool := false
  /-- Packets emitted. -/
  seq : Nat := 0
  changes : List RecvChange := []
  frames : Nat := 0
  holds : Nat := 0
  /-- Published: frames, hold tiles, and each position's state and stream. -/
  pubFrames : Nat := 0
  pubHolds : Nat := 0
  pubPos : List (Nat × Nat) := []
  deriving DecidableEq, Repr

/-- The splicers. -/
structure SplSt where
  streams : List (Nat × PaneStream) := []
  store : List PanePay := []
  templates : List (Nat × Template) := []
  /-- Templates that have been replaced and that a receiver's frame still uses (R211). -/
  replaced : List (Nat × Template) := []
  recvs : List (Nat × SplRecv) := []
  /-- Service keys: REFRESH_INTERVAL in ms and SPLICE_WAIT in µs (Table 10.11). -/
  interval : Nat := 500
  wait : Nat := 50000
  deriving DecidableEq, Repr

end Sys2Proof.Machine
end

