-- ==== Sys2Proof/Machine/TypesEnc.lean ====
section
/-!
DEFINITION. State of the ENC units and encode channels beyond their registers (chapter 8). A channel is a sash; a rendition
is keyed by 8 × sash + rendition, a unit's share of one by (1024 × unit + sash) × 8 + rendition.
-/

namespace Sys2Proof.Machine

/-- A rendition's configuration (Table 8.13), its fields as they act. -/
structure EncCfg where
  enable : Bool
  vbr : Bool
  kbps : Nat
  bufMs : Nat
  initMs : Nat
  num : Nat
  den : Nat
  w : Nat
  h : Nat
  refreshN : Nat
  keyInt : Nat
  colour : Nat
  refs : Nat
  deriving DecidableEq, Repr

/-- Encode statistics (ENC_STATS). -/
structure EncCnt where
  frames : Nat := 0
  bytes : Nat := 0
  floor : Nat := 0
  copy : Nat := 0
  late : Nat := 0
  last : Nat := 0
  full : Nat := 0
  col : Nat := 0
  deriving DecidableEq, Repr

/-- A frame that has left the HRD with units of the channel still coding it (R165): its number, F_n, its bits and its configuration. -/
structure EncPast where
  frame : Nat
  full : Nat
  size : Nat
  cfg : EncCfg
  deriving DecidableEq, Repr

/-- A rendition of a channel (R157, R165, R170, R171). -/
structure EncRend where
  cfg : EncCfg
  /-- The configuration of the next frame start. -/
  next : Option EncCfg := none
  /-- F_n in units of 1/FPS_NUM bit, and the frame it stands before. -/
  full : Nat
  frame : Option Nat := none
  /-- Bits committed in that frame, over all units. -/
  size : Nat := 0
  /-- The frame before it. -/
  past : Option EncPast := none
  /-- What the frame codes: a key picture; its sweep column, if it has one. -/
  key : Bool := false
  col : Option Nat := none
  /-- Where no FRAME record was in time at the first unit: the sweep, request and restart that the plan was made from (R159, R171). -/
  plan0 : Option (Nat × Option (Nat × Nat × Bool) × Option Nat) := none
  /-- A column of the frame before that failed after this frame had begun (R170). -/
  redo : Option Nat := none
  /-- The next sweep column, and the capture time in ns of the running sweep's first frame. -/
  sweep : Nat := 0
  /-- A request waiting (R171): elapsed ns and counter ns at which it arrived, and whether a key picture is asked. -/
  req : Option (Nat × Nat × Bool) := none
  /-- Elapsed ns of the last restart made for a request. -/
  restart : Option Nat := none
  cnt : EncCnt := {}
  pub : EncCnt := {}
  /-- Pane mode (R205): the splicer and its panes, and what SPL_PANESET sets at the next frame start. -/
  panes : Option (Nat × List EncPane) := none
  nextPanes : Option (Option (Nat × List EncPane)) := none
  deriving DecidableEq, Repr

/-- A header record held at port 1 (Table 8.4). -/
structure HdrRec where
  rend : Nat
  kind : Nat
  fmt : Nat
  stripe : Nat
  off : Nat
  frame : Nat
  payload : List Byte
  deriving DecidableEq, Repr

/-- A stripe of a unit's tile: its mode, blocks coded, bits and hc so far, whether this is the retry of R176, its
quantiser, target and allowance, and whether every block is committed. -/
structure EncStripe where
  k : Nat
  mode : Nat
  coded : Nat := 0
  bits : Nat := 0
  hc : Nat := 0
  retry : Bool := false
  qp : Nat := 0
  target : Nat := 0
  allow : Nat := 0
  done : Bool := false
  /-- Bits of each pane stream in this stripe (R207), and of each AV1 tile within the unit's column (R155). -/
  panes : List (Nat × Nat) := []
  tiles : List (Nat × Nat) := []
  deriving DecidableEq, Repr

/-- A frame in progress on a unit for one rendition. -/
structure EncFrame where
  num : Nat
  /-- The configuration it is coded under, the path epoch of its tokens (R31), the references it may use (R154). -/
  cfg : EncCfg
  epoch : Bool := false
  refs : Nat := 1
  /-- C_f in counter ns. -/
  cf : Nat
  key : Bool
  qp : Nat
  /-- The unit's share of TARGET and of CAP (R166), and its committed bits B_c. -/
  target : Nat
  cap : Nat
  bc : Nat := 0
  /-- The sticky mode (Table 8.10), and which of STRIPE_FLOOR and STRIPE_COPY have been raised. -/
  mode : Nat := 0
  saidFloor : Bool := false
  saidCopy : Bool := false
  firstFloor : Option Nat := none
  firstCopy : Option Nat := none
  demoted : Nat := 0
  /-- The FRAME record was late: the frame is missing from the output (R159). -/
  hdrLate : Bool := false
  stripes : List EncStripe := []
  /-- Release rows that have left, and rows whose release time has passed before they were complete. -/
  rows : Nat := 0
  /-- The output stage writes copy data until the frame ends (R176). -/
  broken : Bool := false
  lateRows : List Nat := []
  /-- Release rows whose data was discarded for want of their record (R159), and whether the last row has left. -/
  lost : List Nat := []
  gone : Bool := false
  recs : List HdrRec := []
  /-- The frame's sweep column, whether a block of it failed on this unit, and the unit's panes as the frame codes them. -/
  col : Option Nat := none
  failed : Bool := false
  /-- Pane mode (R205), and the panes in the unit's tile. -/
  pane : Bool := false
  panes : List EncPane := []
  deriving DecidableEq, Repr

/-- A unit's share of a rendition: frames in progress, oldest first; hc of each stripe in its last NORMAL frame (R175);
QP_BASE and TARGET of the frame before (R159); how far the unit's last frame overshot its share (R169). -/
structure EncShare where
  frames : List EncFrame := []
  normal : List (Nat × Nat) := []
  lastQp : Nat := 0
  lastTarget : Nat := 0
  excess : Nat := 0
  deriving DecidableEq, Repr

/-- A unit's side of a channel: the next frame number per rendition, header records held, the next number of an input picture and C_f
in ns of the last ones by number, source lines of each that have come in at port 0, and stripes whose input is missing, as (frame,
stripe). -/
structure EncSide where
  started : List (Nat × Nat) := []
  held : List HdrRec := []
  numbered : Nat := 0
  pics : List (Nat × Nat) := []
  lines : List (Nat × Nat) := []
  /-- REFS as PART's slots allow it (R154); 0 before a configuration. -/
  refs : Nat := 0
  missed : List (Nat × Nat) := []
  /-- Source stripes streamed with lines missing, by frame (R228). -/
  gaps : List (Nat × Nat) := []
  /-- The hardware that served the unit at the last frame start (Table 10.9). -/
  served : Option Nat := none
  deriving DecidableEq, Repr

/-- The encoders. -/
structure EncSt where
  rends : List (Nat × EncRend) := []
  shares : List (Nat × EncShare) := []
  sides : List (Nat × EncSide) := []
  /-- The encode service key REFRESH_HOLD in ms. -/
  hold : Nat := 200
  deriving DecidableEq, Repr

end Sys2Proof.Machine
end

