-- ==== Sys2Proof/Machine/TypesImage.lean ====
section
/-!
DEFINITION. The Hexmus image as the loader reads it (R39–R45): one structure per record of Tables 3.5 to 3.12. Records
that a load compares "in bytes" (R51) keep their body.
-/

namespace Sys2Proof.Machine

/-- The header, Table 3.1. -/
structure ImgHeader where
  format : Nat
  interop : Nat
  variant : Nat
  sections : Nat
  len : Nat
  digest : List Byte
  build : Nat
  deriving DecidableEq, Repr

/-- Record PORT, Table 3.5. -/
structure PortRec where
  kind : Nat
  number : Nat
  first : Nat
  lanes : Nat
  mode : Nat
  deriving DecidableEq, Repr

/-- Record PARTITION, Table 3.6. -/
structure PartRec where
  id : Nat
  shared : Bool
  owner : Nat
  mem : Nat
  order : Nat
  base : Nat
  size : Nat
  raw : List Byte
  deriving DecidableEq, Repr

/-- Record PERSONALITY, Table 3.7. The unit is a reference with its port bits cleared. -/
structure PersRec where
  unit : Nat
  code : Nat
  block : List Byte
  raw : List Byte
  deriving DecidableEq, Repr

/-- Record SASH, Table 3.8. Class 0 Live, 1 Near-live, 2 Best-effort. `pos` is its place in image order. -/
structure SashRec where
  id : Nat
  pos : Nat
  cls : Nat
  units : List Nat
  raw : List Byte
  deriving DecidableEq, Repr

/-- Record PATH, Table 3.9. `pos` is its place in image order. -/
structure PathRec where
  id : Nat
  pos : Nat
  sash : Nat
  src : Nat
  dst : Nat
  hops : Nat
  raw : List Byte
  deriving DecidableEq, Repr

/-- Record SLAT, Table 3.10, with its byte offset in the image. -/
structure SlatRec where
  sash : Nat
  kind : Nat
  index : Nat
  amount : Nat
  off : Nat
  raw : List Byte
  /-- Its place in slat order: rising with image order, and kept by a sash's slats through a partial commit (R52). -/
  ord : Nat := 0
  deriving DecidableEq, Repr

/-- Record FW_BLOB, Table 3.11, with its byte offset in the image. -/
structure FwRec where
  off : Nat
  cores : Nat
  service : Nat
  keyIdx : Nat
  load : Nat
  code : List Byte
  sig : List Byte
  deriving DecidableEq, Repr

/-- Record HNG_IMAGE, Table 3.12. -/
structure HngRec where
  cores : Nat
  data : Bool
  off : Nat
  bytes : List Byte
  deriving DecidableEq, Repr

/-- One entry of a SHADOW record, Table 3.12. -/
structure ShadowRec where
  addr : Nat
  mask : Nat
  value : Nat
  deriving DecidableEq, Repr

/-- Record SVC_DEFAULT, Table 3.12. -/
structure SvcRec where
  service : Nat
  key : Nat
  value : List Byte
  deriving DecidableEq, Repr

/-- An image as read. -/
structure Image where
  hdr : ImgHeader
  ports : List PortRec := []
  parts : List PartRec := []
  pers : List PersRec := []
  sashes : List SashRec := []
  paths : List PathRec := []
  slats : List SlatRec := []
  fws : List FwRec := []
  hngs : List HngRec := []
  shadows : List ShadowRec := []
  svcs : List SvcRec := []
  deriving DecidableEq, Repr

end Sys2Proof.Machine
end

