-- ==== Sys2Proof/Machine/TypesFabric.lean ====
section
/-!
DEFINITION. State of the fabric, the Louvre, the Latch and the image loader beyond their registers (chapters 2 to 5).
-/

namespace Sys2Proof.Machine

/-- A built path (R29–R31): its path epoch, and whether it waits at an exclusive port. -/
structure BuiltPath where
  id : Nat
  sash : Nat
  src : Nat
  dst : Nat
  hops : Nat
  epoch : Bool
  waiting : Bool
  deriving DecidableEq, Repr

/-- What a draining sash will be built from at its work boundary (R31, R32, R52). -/
structure PendDef where
  /-- The new SASH record; none on removal. -/
  sash : Option SashRec := none
  paths : List PathRec := []
  slats : List SlatRec := []
  pers : List PersRec := []
  /-- The units whose personality the definition sets: one of them without a record in `pers` takes its reset
  personality (Table 3.7). -/
  units : List Nat := []
  parts : List PartRec := []
  hngs : List HngRec := []
  /-- The loader has finished with the definition: before that the sash does not build (R52). -/
  ready : Bool := true
  /-- Build again from the definition in force (R52, R53). -/
  inForce : Bool := false
  /-- A partial commit: its slats take the place of the sash's old ones (R52). -/
  place : Bool := false
  /-- The sash has nothing to drain: it builds as soon as the definition is ready (R32, Table 2.8). -/
  atOnce : Bool := false
  deriving DecidableEq, Repr

/-- A token counter of one sash at one arbiter (R63). For KIND 0 and 4 the arbiter is that of the unit whose hardware serves the
slats (R71). -/
structure TokenCtr where
  kind : Nat
  index : Nat
  sash : Nat
  count : Int
  /-- The virtual finish tag of its last surplus grant, in units of 2^−32 token (R65). -/
  tag : Nat := 0
  deriving DecidableEq, Repr

/-- A request held at an arbiter (R64), and whether it was presented by the start of the running period (Table 4.4). -/
structure HeldReq where
  kind : Nat
  index : Nat
  req : ArbReq
  old : Bool := false
  deriving DecidableEq, Repr

/-- Tokens of a fixed reservation used at an arbiter in the running period (R62). -/
structure ResvUse where
  kind : Nat
  index : Nat
  sash : Nat
  used : Nat
  deriving DecidableEq, Repr

/-- What tokens in flight at a rebuild finish under (R31): the sash's former paths, personalities and partitions. -/
structure OldDef where
  sash : Option SashRec
  paths : List PathRec
  built : List BuiltPath
  pers : List PersRec
  parts : List PartRec
  deriving DecidableEq, Repr

/-- A grant of a Hinge core's hc in force (R287): the hardware, the sash, the hc left of it, and whether tokens were taken for it. -/
structure CoreGrant where
  hw : Nat
  sash : Nat
  left : Nat
  tokened : Bool
  deriving DecidableEq, Repr

/-- Self-timed fabric, pace and Louvre. -/
structure FabSt where
  /-- Definitions in force, in image order. -/
  sashes : List SashRec := []
  paths : List PathRec := []
  slats : List SlatRec := []
  parts : List PartRec := []
  pers : List PersRec := []
  /-- Built ports and links of the lane plan in force (R43). -/
  ports : List PortRec := []
  /-- Definitions waiting for a work boundary, by sash. -/
  pend : List (Nat × PendDef) := []
  built : List BuiltPath := []
  /-- The path epoch of each sash (R31). -/
  epochs : List (Nat × Bool) := []
  /-- Definitions of the path epoch before the present one, by sash (R31). -/
  olds : List (Nat × OldDef) := []
  /-- Islands that are down (R24). -/
  down : List Island := []
  /-- Packets, flits and bursts each island's synchroniser has discarded while down, by island code (R24). -/
  discards : List (Nat × Nat) := []
  /-- Entries in the island-side FIFOs, at most 8, while the core withholds acknowledges, by island code (R23). -/
  sync : List (Nat × Nat) := []
  /-- Monitors of which a window has ended since AVS set-up (Table 2.13). -/
  monSeen : Bool := false
  /-- Consecutive windows with WORST at 8,355 or less in an emergency (R27). -/
  clearRun : Nat := 0
  /-- Consecutive evaluations below TARGET − 164 (R26). -/
  lowRun : Nat := 0
  /-- An emergency held until the next cold start, for want of a valid monitor (R27). -/
  emergForced : Bool := false
  /-- An emergency has cleared and held work waits for the next boundary (R75). -/
  releaseDue : Bool := false
  /-- Token counters (R63), and the requests held at arbiters (R64). -/
  counters : List TokenCtr := []
  held : List HeldReq := []
  grants : List CoreGrant := []
  /-- Fixed reservations used in this period (R62). -/
  resv : List ResvUse := []
  /-- The virtual time of surplus sharing, by (kind × 2^16 + index) × 2 + class − 1 (R65). -/
  vtime : List (Nat × Nat) := []
  /-- BAR2's last virtual finish tag at each arbiter of HBM (R326). -/
  bar2Tags : List (Nat × Nat) := []
  /-- Tokened consumption of the running period, by kind × 2^16 + index (RES_PEAK). -/
  used : List (Nat × Nat) := []
  /-- Highest tokened consumption in a period that has ended, by kind × 2^16 + index (RES_PEAK). -/
  peaks : List (Nat × Nat) := []
  /-- The number of the running Louvre period (R58). -/
  period : Nat := 0
  /-- Louvre boundaries since the cold start (R89). -/
  boundaries : Nat := 0
  /-- From W1 of a warm start until the first boundary after READY: no grant, no refill, no publication (R417, R89). -/
  closed : Bool := false
  /-- Sashes starved or late in a second, as (event code, sash, second) (R77). -/
  secSashes : List (Nat × Nat × Nat) := []
  deriving DecidableEq, Repr

/-- What a window has written and not yet sealed (R78): a shadow write, a forwarding or other service change with
LATCHED set (R127), or a held key operation (R297). -/
inductive OpenItem where
  | write (off : Nat) (mask value : Word)
  | change (i : Instr)
  deriving DecidableEq, Repr

/-- An item of the open set, with the window it was made through. -/
structure OpenEntry where
  fn : Nat
  item : OpenItem
  deriving DecidableEq, Repr

/-- The domains of R79. A unit is a reference with its port bits cleared. -/
inductive Domain where
  | device
  | unit (ref : Nat)
  | sash (id : Nat)
  deriving DecidableEq, Repr

/-- How a Latch finds its instant (Table 5.1). -/
inductive LatchWhen where
  /-- At the boundary with this number since the cold start, or the first one after it (NEXT). -/
  | bound (n : Nat)
  /-- At the first boundary at or after this time in ns, seconds as written (R313). -/
  | sched (ns : Nat)
  /-- At the work boundary of a domain. -/
  | domain (d : Domain)
  deriving DecidableEq, Repr

/-- A pending Latch (R78–R83, R87). -/
structure Latch where
  num : Nat
  at_ : LatchWhen
  items : List OpenEntry
  group : Bool := false
  abort : Bool := false
  tag : Nat := 0
  /-- The group decision of R87 has been taken. -/
  decided : Bool := true
  missing : Nat := 0
  /-- 0 on time, 1 PAST, 2 QUEUED, 3 STEP, 4 SHUTTER, 5 PARTIAL (LCH.LAST_RESULT). -/
  reason : Nat := 0
  /-- The load Latch of the loader (R51). -/
  load : Bool := false
  /-- The number of Louvre periods of the guard, and the named time in ns, of a group Latch. -/
  named : Nat := 0
  /-- `Hub.elapsed` at acceptance. -/
  acc : Nat := 0
  deriving DecidableEq, Repr

/-- An ARM message kept by tag and time (R87). -/
structure Arm where
  dev : Nat
  tag : Nat
  sec : Nat
  ns : Nat
  deriving DecidableEq, Repr

/-- A snapshot in progress (R91, R92): its buffer and sections as they stood when it was started (assumption 60). -/
structure Snap where
  when_ : LatchWhen
  group : Bool
  clrHw : Bool
  addr : Nat
  len : Nat
  sect : Nat
  /-- Period number and generation of the capture boundary. -/
  period : Nat := 0
  gen : Nat := 0
  /-- `Hub.elapsed` at the command, and at the capture boundary. -/
  acc : Nat := 0
  capAt : Nat := 0
  /-- The capture boundary has passed. -/
  captured : Bool := false
  /-- Members whose records have not been written, by rising ID. -/
  waiting : List Nat := []
  /-- Records received out of turn. -/
  early : List (Nat × List Byte) := []
  /-- Next byte of the buffer, and records written. -/
  pos : Nat := 64
  devices : Nat := 0
  /-- A record was MISSING or the buffer ended. -/
  short : Bool := false
  ended : Bool := false
  deriving DecidableEq, Repr

/-- A snapshot another device has asked for (R91). -/
structure SnapAsk where
  dev : Nat
  ns : Nat
  mask : Nat
  clrHw : Bool
  deriving DecidableEq, Repr

/-- The Latch and snapshots. -/
structure LchSt where
  openSet : List OpenEntry := []
  pend : List Latch := []
  arms : List Arm := []
  /-- Items of an applied Latch that wait for their domain's work boundary (R79). -/
  waiting : List (Domain × OpenEntry) := []
  /-- A Shutter has ended and no boundary has passed since (R83). -/
  resumed : Bool := false
  snap : Option Snap := none
  asks : List SnapAsk := []
  deriving DecidableEq, Repr

/-- A commit of a bank (R49). -/
structure Commit where
  bank : Bool
  scope : Bool
  sash : Nat
  deriving DecidableEq, Repr

/-- The image loader (R46–R54). -/
structure LdrSt where
  /-- The commit that is parsing, with the header read at its start; none while a pace emergency holds that read (R50). -/
  busy : Option (Commit × Option ImgHeader) := none
  queue : Option Commit := none
  /-- Images parsed by full commits, with the number of the load Latch of each and the bank. -/
  images : List (Nat × Bool × Image) := []
  /-- A full commit parsed, whose load Latch could not be requested yet (R51). -/
  waits : Option (Bool × Image) := none
  /-- Personalities that wait for their unit's work boundary (R52): the unit, and its record or none for idle. -/
  persWait : List (Nat × Option PersRec) := []
  /-- Captured `IMG.COMMIT` of a warm start request: bank of a pending full commit (R48). -/
  warmBank : Option Bool := none
  /-- Image read at the last start: its firmware records, in image order. -/
  fws : List FwRec := []
  /-- What the loader has copied into each Lintel core's memory (R54). -/
  lintel : List (Nat × List Host.Cell) := []
  /-- HNG_IMAGE records in force, in image order (R290). -/
  hngs : List HngRec := []
  /-- Service defaults in force (R128). -/
  svcs : List SvcRec := []
  /-- The first bytes of the flash, and whether it has SFDP (R47). -/
  flash : List Host.Cell := []
  flashSfdp : Bool := true
  bootHost : Bool := false
  deriving DecidableEq, Repr

end Sys2Proof.Machine
end

