-- ==== Sys2Proof/Machine/TypesFwd.lean ====
section
/-!
DEFINITION. State of the forwarding service and slices beyond their registers (chapter 6).
-/

namespace Sys2Proof.Machine

/-- A local conference (R98): its cluster ID, the function that created it, and whether CONF_DESTROY waits for its drain. -/
structure Conf where
  cluster : Nat
  fn : Nat
  gone : Bool := false
  deriving DecidableEq, Repr

/-- Leg statistics (Table 6.11). -/
structure LegCnt where
  inPkts : Nat := 0
  inBytes : Nat := 0
  outPkts : Nat := 0
  outBytes : Nat := 0
  est : Nat := 0
  rtt : Nat := 0
  loss : Nat := 0
  rtx : Nat := 0
  deriving DecidableEq, Repr

/-- A 128-index replay window (R103): the highest index, and the indices within 128 of it already received. -/
structure Replay where
  started : Bool := false
  top : Nat := 0
  seen : List Nat := []
  deriving DecidableEq, Repr

/-- A leg (Table 6.9). Its state is a value of Table 6.11: 0 CHECKING, 1 ACTIVE, 2 CONSENT_LOST, 3 REMOVING. -/
structure Leg where
  conf : Nat
  kind : Nat
  eth : Nat
  cls : Nat
  ipv6 : Bool
  rtxFlag : Bool
  laddr : List Byte
  raddr : List Byte
  lport : Nat
  rport : Nat
  minK : Nat
  maxK : Nat
  peer : Nat
  lfrag : List Byte
  lpwd : List Byte
  rfrag : List Byte
  rpwd : List Byte
  cname : List Byte
  state : Nat
  /-- The function that created it (R366). -/
  maker : Nat := 0
  cnt : LegCnt := {}
  /-- As of the last publication. -/
  pub : LegCnt := {}
  /-- Elapsed ns of the estimate's last update (R117), and whether the leg returns congestion control feedback. -/
  estAt : Nat := 0
  ccfb : Bool := false
  /-- Transaction IDs of consent requests without a response (R106), and in elapsed ns when consent was last fresh, and when the last
  request, generated RTCP compound, feedback (R117) and allocation (R118) were made. -/
  txns : List Nat := []
  consentAt : Nat := 0
  reqAt : Option Nat := none
  rtcpAt : Option Nat := none
  ccfbAt : Option Nat := none
  allocAt : Option Nat := none
  /-- Replay windows of its SRTCP by sender SSRC (R103). -/
  rtcpReplay : List (Nat × Replay) := []
  /-- Departures of the last second at the MAC, as (elapsed ns, frame bytes) (R117). -/
  departs : List (Nat × Nat) := []
  deriving DecidableEq, Repr

/-- A gap of an inbound stream (R121): the missing sequence number, when it was found, the NACKs sent, and when the last was. -/
structure Gap where
  seq : Nat
  at_ : Nat
  tries : Nat := 0
  last : Nat := 0
  deriving DecidableEq, Repr

/-- An FEC packet held for its window (R123): its arrival, the sequence numbers it protects, and its recovery bits from the
recovery header on. -/
structure FecHeld where
  at_ : Nat
  seqs : List Nat
  bits : List Byte
  deriving DecidableEq, Repr

/-- Reception statistics of an inbound stream for report blocks (R108, RFC 3550): first and highest extended sequence number, packets
received, both as of the last report, and the interarrival jitter scaled by 16 with the last transit time. -/
structure RxStat where
  first : Nat := 0
  top : Nat := 0
  got : Nat := 0
  priorExp : Nat := 0
  priorGot : Nat := 0
  jitter : Nat := 0
  transit : Int := 0
  deriving DecidableEq, Repr

/-- A merged key-picture request (R124). -/
structure KeyReq where
  pending : Bool := false
  plis : Nat := 0
  fir : Bool := false
  firSeq : Nat := 0
  /-- Elapsed ns of the last PLI or FIR. -/
  sent : Option Nat := none
  deriving DecidableEq, Repr

/-- An inbound stream (Table 6.10). -/
structure InStream where
  codec : Nat
  leg : Nat
  base : Nat
  ssrc : Nat
  rtxSsrc : Nat
  fecSsrc : Nat
  pt : Nat
  rtxPt : Nat
  fecPt : Nat
  prot : Nat
  clock : Nat
  slot : Nat
  ext : List Nat
  gone : Bool := false
  active : Bool := true
  cname : List Byte := []
  replay : Replay := {}
  rtxReplay : Replay := {}
  fecReplay : Replay := {}
  fecHeld : List FecHeld := []
  /-- Highest sequence number, and the timestamp and marker of the previous packet (R109). -/
  high : Option Nat := none
  lastTs : Nat := 0
  lastM : Bool := true
  /-- Arrival, in elapsed ns, of the last packet. -/
  arrived : Nat := 0
  /-- The latest SR: NTP time in 2^−32 s and RTP timestamp (R107), and its arrival in elapsed ns. -/
  sr : Option (Nat × Nat) := none
  srAt : Nat := 0
  rx : RxStat := {}
  /-- Packets since the last congestion control feedback as (sequence number, elapsed ns, ECN) (R117). -/
  heard : List (Nat × Nat × Nat) := []
  /-- The highest layer its packets have named, and whether its last AV1 packet had no dependency descriptor (R109, R111). -/
  top : Option (Nat × Nat) := none
  bare : Bool := false
  gaps : List Gap := []
  key : KeyReq := {}
  /-- Packets of the last second as (elapsed ns, layer 8S + T, bytes) (R118). -/
  recent : List (Nat × Nat × Nat) := []
  deriving DecidableEq, Repr

/-- An outbound stream (Table 6.10, R114, R115, R122). -/
structure OutStream where
  leg : Nat
  ssrc : Nat
  rtxSsrc : Nat
  fecSsrc : Nat
  pt : Nat
  rtxPt : Nat
  fecPt : Nat
  prot : Nat
  clock : Nat
  slot : Nat
  codec : Nat
  fecL : Nat
  fecD : Nat
  ext : List Nat
  gone : Bool := false
  source : Option Nat := none
  seqOff : Nat := 0
  tsOff : Nat := 0
  lastSeq : Nat := 0
  lastTs : Nat := 0
  /-- Timestamp and arrival of the last packet taken in. -/
  lastInTs : Nat := 0
  lastInAt : Nat := 0
  /-- The highest input sequence number, and for numbers of the window not yet sent the SEQ_OFF reserved for them. -/
  high : Nat := 0
  window : List (Nat × Nat) := []
  sentSince : Bool := false
  pkts : Nat := 0
  octets : Nat := 0
  rtxSeq : Nat := 0
  /-- The packets sent since the last block of FEC, oldest first, and the next sequence number on the FEC SSRC (R122). -/
  fecHeld : List (List Byte) := []
  fecSeq : Nat := 0
  /-- The last report on it: elapsed ns and fraction lost in 1/256 (R107). -/
  report : Option (Nat × Nat) := none
  /-- A handover holds it: its source has stopped it, or its target has not its state yet (R361). -/
  held : Bool := false
  deriving DecidableEq, Repr

/-- A subscription (Table 6.2), with what the service keeps beside the entry. MODE, caps, CUR and TGT are held as fields. -/
structure Sub where
  leg : Nat
  out : Nat
  src : Nat
  base : Nat
  role : Nat
  pane : Nat
  mode : Nat
  maxS : Nat
  maxT : Nat
  prio : Nat
  dest : Nat
  cap : Nat
  tag : List Byte
  curS : Nat := 0
  curT : Nat := 0
  tgtS : Nat := 0
  tgtT : Nat := 0
  /-- TGT bit [7]: no layer is allocated. -/
  none_ : Bool := false
  /-- A state of Table 6.7. -/
  state : Nat := 0
  gone : Bool := false
  /-- A policy that binds at the source's next packet (R112): mode and caps. -/
  next : Option (Nat × Nat × Nat) := none
  /-- The frame in progress on CUR has not ended; capture time of the last frame forwarded, as (numerator, clock). -/
  open_ : Bool := false
  lastCap : Option (Int × Nat) := none
  /-- Elapsed ns at which it became UP_PENDING, and whether SWITCH_WAIT has already made its request. -/
  upAt : Nat := 0
  asked : Bool := false
  /-- The entry's LINK: VALID, and NEXT unless END (R101). -/
  valid : Bool := true
  link : Option Nat := none
  /-- An entry that no command made: a slice found it in HBM bytes that the host wrote (R100). -/
  ghost : Bool := false
  /-- A higher TGT that allocations have given, and since when (R118). -/
  upTo : Option (Nat × Nat) := none
  deriving DecidableEq, Repr

/-- A removal in progress (R126): kind 0 conference, 1 leg, 2 inbound stream, 3 outbound stream, 4 subscription; the
command whose completion is posted, with its opcode. -/
structure Removal where
  kind : Nat
  id : Nat
  env : Option (CmdEnv × Nat)
  deriving DecidableEq, Repr

/-- A packet of the retransmission cache (R119). -/
structure Stored where
  stream : Nat
  seq : Nat
  at_ : Nat
  pkt : List Byte
  deriving DecidableEq, Repr

/-- An index entry of an outbound stream (R119, R120). -/
structure IdxEntry where
  out : Nat
  seq : Nat
  stream : Nat
  inSeq : Nat
  ts : Nat
  m : Bool
  /-- Its departure at the MAC, in elapsed ns. -/
  at_ : Nat
  tries : Nat := 0
  last : Nat := 0
  deriving DecidableEq, Repr

/-- Forwarding. -/
structure FwdSt where
  confs : List (Nat × Conf) := []
  legs : List (Nat × Leg) := []
  ins : List (Nat × InStream) := []
  outs : List (Nat × OutStream) := []
  subs : List (Nat × Sub) := []
  /-- Chains of (base stream × 8 + slice): subscriptions in chain order (R101). -/
  chains : List (Nat × List Nat) := []
  /-- Subscriptions whose entry is not in the on-die cache (R101). -/
  uncached : List Nat := []
  removals : List Removal := []
  /-- Service keys set, by key (Table 6.12). -/
  keys : List (Nat × Nat) := []
  stored : List Stored := []
  index : List IdxEntry := []
  /-- Outbound streams whose PLI or FIR goes to the splicer that feeds them (R217), within one step. -/
  splAsk : List Nat := []
  deriving DecidableEq, Repr

end Sys2Proof.Machine
end

