-- ==== Sys2Proof/Machine/TypesHng.lean ====
section
/-!
DEFINITION. State of the Hinge cores beyond their device registers (chapter 14).
-/

namespace Sys2Proof.Machine

/-- An accumulator (R275): real and imaginary halves of 56 bits. -/
structure HngAcc where
  re : BitVec 56 := 0
  im : BitVec 56 := 0
  deriving DecidableEq, Repr

/-- A loop level (R281): its counter, the bundle its body starts at, and END; armed while a body is set. -/
structure HngLoop where
  count : BitVec 16 := 0
  body : Option (Nat × Nat) := none
  deriving DecidableEq, Repr

/-- The core's registers (Table 14.1). -/
structure HngRegs where
  d : Vector Word 32 := Vector.replicate 32 0
  a : Vector HngAcc 8 := Vector.replicate 8 {}
  p : Vector (BitVec 20) 8 := Vector.replicate 8 0
  m : Vector (BitVec 20) 8 := Vector.replicate 8 0
  l : Vector (BitVec 20) 8 := Vector.replicate 8 0
  lc : Vector HngLoop 2 := Vector.replicate 2 {}
  status : BitVec 3 := 0
  stack : List Nat := []
  deriving DecidableEq, Repr

/-- What a waiting core waits for: mailbox 0 or 1 with the P register, or a DMA channel. -/
inductive HngWait where
  | mailbox (one : Bool) (p : Nat)
  | dma (k : Nat)
  deriving DecidableEq, Repr

/-- A DMA transfer in progress (R286): the data address of its descriptor, the descriptor's fields, and the issuing sash. -/
structure HngDma where
  desc : Nat
  part : Nat
  toPart : Bool
  len : Nat
  off : Nat
  loc : Nat
  sash : Nat
  deriving DecidableEq, Repr

/-- A core. Program and data memory are byte memories; `bad` lists 4-byte words of data memory stored as poison, `badProg`
poisoned bundles. -/
structure HngCore where
  prog : List (Nat × Byte) := []
  data : List (Nat × Byte) := []
  bad : List Nat := []
  badProg : List Nat := []
  regs : HngRegs := {}
  pc : Nat := 0
  wait : Option HngWait := none
  dma : List (Nat × HngDma) := []
  /-- The slot the next block is delivered to, the core's current slots of the two mailboxes, and drops since the last
  delivered block. -/
  fill : Nat := 0
  slot0 : Nat := 0
  slot1 : Nat := 0
  lost : Nat := 0
  /-- Mailbox slots posted and not yet drained, as (slot, elapsed period it was posted in). -/
  posted : List (Nat × Nat) := []
  /-- Results on their way: register code (D0–D31, then 32 + A), the hc from which it can be used without a stall, and whether
  the compute slot produced it. -/
  busy : List (Nat × Nat × Bool) := []
  /-- Its memories have been written and it waits for a sash that uses it to run (R290). -/
  ready : Bool := false
  /-- hc the core has run, stalls included. -/
  clock : Nat := 0
  /-- hc run of the grain in progress (Table 4.2); 0 between grains. -/
  grain : Nat := 0
  /-- HNG_LOAD copies since the image, in order, for a spare (R290). -/
  loads : List (Bool × Nat × Nat × Nat × Nat) := []
  deriving DecidableEq, Repr

/-- A block on its way to a core's mailbox 0 (R284): its KIND and ID (Table 14.7), the period whose samples it holds, the
period at whose start it is delivered, its words, and whether some were poisoned. -/
structure HngBlk where
  core : Nat
  kind : Nat
  id : Nat
  period : Nat
  due : Nat
  words : List Word
  poison : Bool
  deriving DecidableEq, Repr

/-- The Hinge cores, and blocks on their way to mailboxes 0, in order. -/
structure HngSt where
  cores : List (Nat × HngCore) := []
  inbox : List HngBlk := []
  deriving DecidableEq, Repr

end Sys2Proof.Machine
end

