-- ==== Sys2Proof/Machine/TypesLnk.lean ====
section
/-!
DEFINITION. State of the lanes and Jorras links beyond their registers (chapter 18).
-/

namespace Sys2Proof.Machine

/-- A sequenced flit as its source wrote it (Table 18.3). -/
structure JlFlit where
  kind : Nat
  vc : Nat
  dst : Nat
  src : Nat
  hops : Nat
  first : Bool
  last : Bool
  poison : Bool
  payload : List Byte
  deriving DecidableEq, Repr

/-- A flit's header (Table 18.3), each field as the whole number its bytes spell. -/
structure FlitHead where
  kind : Nat
  flags : Nat
  dst : Nat
  src : Nat
  seq : Nat
  ack : Nat
  len : Nat
  cred : Nat
  deriving DecidableEq, Repr

/-- What a hello says (Table 18.5). -/
structure JlHello where
  magic : Bool
  device : Nat
  hi : Nat
  lo : Nat
  link : Nat
  mask : Nat
  variant : Nat
  cluster : Nat
  credits : List Nat
  deriving DecidableEq, Repr

/-- A flit in the replay buffer (R352): its place in the count of flits sent, its header and the 240 bytes that follow it as they were
first sent (R354), how often it has been replayed, and the elapsed ns of its last sending. -/
structure JlSent where
  seq : Nat
  head : FlitHead
  data : List Byte
  tries : Nat
  at_ : Nat
  deriving DecidableEq, Repr

/-- The part of a message received on a VC and not yet ended: its bytes, and whether a flit of it was poisoned. -/
structure JlPart where
  bytes : List Byte
  poison : Bool
  deriving DecidableEq, Repr

/-- A Jorras link: counts of sequenced flits sent and received in order; flits sent and not acknowledged; flits that wait for
credit or for the link; credits of VC0–VC3; whether a NAK has been sent and its flit not yet received; the messages begun
and not ended, by VC; the elapsed ns at which HOLD was entered, a flit was last received, and a hello was last sent; whether a hello has
stated the credits; the AN of the message being sent on a VC (R354); the smoothed round trip in ns (R358). -/
structure JlLink where
  sent : Nat := 0
  got : Nat := 0
  replay : List JlSent := []
  wait : List JlFlit := []
  credits : List Nat := [0, 0, 0, 0]
  naked : Bool := false
  parts : List (Nat × JlPart) := []
  holdAt : Nat := 0
  heard : Nat := 0
  helloAt : Option Nat := none
  open_ : Bool := false
  ans : List (Nat × Nat) := []
  srtt : Nat := 0
  deriving DecidableEq, Repr

/-- A lane: whether its coefficients are stored (R343), and whether the retrain in progress is the one retry after a loss
(R344). -/
structure LaneSt where
  stored : Bool := false
  retry : Bool := false
  deriving DecidableEq, Repr

/-- A handover of a local conference at its source (R361): the target device and conference, the instant in counter ns, the
command, whether the target has answered, and the elapsed ns of the switch. -/
structure Handover where
  target : Nat
  tconf : Nat
  instant : Nat
  env : CmdEnv
  copied : Bool := false
  switched : Option Nat := none
  deriving DecidableEq, Repr

/-- A handover at its target: the source device, the objects made, the elapsed ns at which the switch reached it, and the NACKs passed to the
source: leg, outbound stream and sequence number, inbound stream and sequence number. -/
structure HandIn where
  source : Nat
  legs : List Nat
  ins : List Nat
  outs : List Nat
  subs : List Nat
  begun : Option Nat := none
  asked : List (Nat × Nat × Nat × Nat × Nat) := []
  deriving DecidableEq, Repr

/-- Lanes, Jorras links, and handovers by local conference. `narrow` keeps the logical lanes to which a link has narrowed, for
later starts (R356). -/
structure LnkSt where
  lanes : List (Nat × LaneSt) := []
  links : List (Nat × JlLink) := []
  narrow : List (Nat × Nat) := []
  hand : List (Nat × Handover) := []
  handIn : List (Nat × HandIn) := []
  deriving DecidableEq, Repr

end Sys2Proof.Machine
end

