-- ==== Sys2Proof/Machine/TypesMem.lean ====
section
/-!
DEFINITION. The memories beyond their registers (chapter 17): the cells, what the codes find in them, merge buffers and
requests held for a page decode.

A cell address is a byte address in which every page of the page code is contiguous: HBM stack s at s × 2^35, with the
page number (R × 16 + B) × 16 + C above the page byte 64 × (8G + P); SRAM at 2^36 (assumption 19).
-/

namespace Sys2Proof.Machine

/-- An entry of an SRAM macro group's merge buffer (R333): the word's cell address, its written bytes, and when it was taken, in hc. -/
structure MergeEntry where
  word : Nat
  bytes : List (Nat × Byte)
  taken : Nat := 0
  deriving DecidableEq, Repr

/-- A BAR2 read held while a page decode runs (R330), or, with no page, while its stack's island is lost (R24). -/
structure HeldRead where
  fn : Nat
  off : Nat
  len : Nat
  page : Option Nat
  deriving DecidableEq, Repr

/-- The memories. -/
structure MemSt where
  /-- Data bytes by cell address; an unlisted byte holds 0 (assumption 2). -/
  cells : List Host.Cell := []
  /-- Words whose stored check byte differs from the one their data gives: the syndrome (R328). -/
  dev : List (Nat × Nat) := []
  /-- Words whose data differs from what the page parity stands for: the difference (R329). -/
  diff : List (Nat × Nat) := []
  /-- Merge buffers, by macro group, oldest entry first. -/
  merge : List (Nat × List MergeEntry) := []
  held : List HeldRead := []
  /-- Elapsed ns of each stack's last refresh (R327). -/
  refreshed : List (Nat × Nat) := []
  /-- The scrubber's pass over each stack: the next page's number, and elapsed ns at the pass's start (R334). -/
  scrub : List (Nat × Nat × Nat) := []
  /-- Entries of the MEM log dropped since the last `LOG_LOST` entry (R336). -/
  logDropped : Nat := 0
  deriving DecidableEq, Repr

end Sys2Proof.Machine
end

