-- ==== Sys2Proof/Machine/TypesQueue.lean ====
section
/-!
DEFINITION. State of the egress queues, gates and limiter of chapter 7 beyond their registers.
-/

namespace Sys2Proof.Machine

/-- An item of an egress queue (R139): its frame bytes with FCS, the elapsed time in ns at which it entered, what
leaves the device when it starts, and, for a leg, the encryption it passes on its way out (R35) and the index entry it then takes (R119). -/
structure EgrItem where
  len : Nat
  entered : Nat
  msg : OutMsg
  sec : Option CipItem := none
  idx : Option IdxEntry := none
  deriving DecidableEq, Repr

/-- An egress queue (R139–R142): its port and class, its items from the head, its finish tag, the calendar wheel slot it
waits for with the exact next eligible time, and the time it last became eligible, in elapsed ns. -/
structure EgrQueue where
  port : Nat
  cls : Nat
  items : List EgrItem := []
  tag : Nat := 0
  wheel : Option (Nat × Nat) := none
  eligible : Nat := 0
  deriving DecidableEq, Repr

/-- A gate control list (R144): the counter time in ns at which it took over, its cycle in ns, and its entries as
(gate states, interval in ns). -/
structure GateList where
  start : Nat
  cycle : Nat
  ents : List (Nat × Nat)
  deriving DecidableEq, Repr

/-- Queues, gates and shaping. -/
structure QscSt where
  /-- Egress queues: leg queues by leg, system queue n at 16,384 + n. -/
  queues : List (Nat × EgrQueue) := []
  /-- Virtual time by port × 8 + class (R141). -/
  vtime : List (Nat × Nat) := []
  /-- Bits spent from the limiter's credit, and the elapsed ns of the last account (R143). -/
  spent : Nat := 0
  spentAt : Nat := 0
  /-- The current gate control list of each port, and the pending one with its takeover time in ns (R144, R145). -/
  gates : List (Nat × GateList) := []
  pending : List (Nat × GateList) := []
  deriving DecidableEq, Repr

end Sys2Proof.Machine
end

