-- ==== Sys2Proof/Machine/TypesTime.lean ====
section
/-!
DEFINITION. State of the time block beyond its registers (R308–R320): the increment in force, the event pins, the PTP
service's ports and keys.
-/

namespace Sys2Proof.Machine

/-- An event pin (R320): its level, the counter time in ns of its next scheduled rise, and whether its last capture is
unread. -/
structure TevPin where
  level : Bool := false
  /-- `Hub.elapsed` at its last rise. -/
  rose : Nat := 0
  next : Option Nat := none
  unread : Bool := false
  deriving DecidableEq, Repr

/-- A port of the PTP service (R314, Table 19.5): role, flags, the three log intervals, whether it is in slave state,
and its last offset and mean path delay in 2^−16 ns. -/
structure PtpPort where
  role : Nat := 0
  flags : Nat := 0
  logSync : Int := 0
  logAnnounce : Int := 0
  logDelay : Int := 0
  slave : Bool := false
  offset : Int := 0
  delay : Int := 0
  seq : Nat := 0
  /-- The last Sync of the master: sequenceId, one-step flag, origin (t1) and receive stamp (t2) in 2^−16 ns, and the sum
  of its correction fields (Table 16.4). -/
  syncSeq : Nat := 0
  oneStep : Bool := false
  t1 : Int := 0
  t2 : Int := 0
  corrMs : Int := 0
  /-- The last Delay_Req sent: sequenceId and transmit stamp (t3). -/
  reqSeq : Nat := 0
  t3 : Int := 0
  /-- Consecutive Sync measurements within LOCK_NS (R371), and `Hub.elapsed` at the last Announce. -/
  good : Nat := 0
  announced : Nat := 0
  /-- `Hub.elapsed` at the last message sent of each type. -/
  sent : List (Nat × Nat) := []
  /-- Port state, offset and mean path delay as last published (R89). -/
  pub : Nat × Int × Int := (0, 0, 0)
  deriving DecidableEq, Repr

/-- The time block. -/
structure TimSt where
  /-- The increment in force, 8.40 fixed point (R309). -/
  incr : Nat := 8 * 2 ^ 40
  /-- A PPS_IN capture not yet read through `TIM.PPS_IN_NS` (R319). -/
  ppsUnread : Bool := false
  /-- The level of PPS_OUT. -/
  ppsOut : Bool := false
  /-- `Hub.elapsed` at its last rise, and whether the last tick carried one second by counting (R319). -/
  ppsRose : Nat := 0
  carry : Bool := false
  /-- The event pins TIME_EV0–TIME_EV3. -/
  tev : List (Nat × TevPin) := []
  /-- The PTP service's ports. -/
  ports : List (Nat × PtpPort) := []
  /-- The PTP service's keys 1–6 (R371): PROFILE, DOMAIN, PRIORITY1, PRIORITY2, ANNOUNCE_TIMEOUT, LOCK_NS. -/
  profile : Nat := 1
  domain : Nat := 127
  priority1 : Nat := 128
  priority2 : Nat := 128
  announceTimeout : Nat := 3
  lockNs : Nat := 1000
  /-- The time in ns of the last write to INCR_HI or of GO, or of the entry into LOCKED (Table 16.1). -/
  servoAt : Nat := 0
  /-- The counter has been stepped since cold step 13 began (Table 21.1). -/
  stepped : Bool := false
  deriving DecidableEq, Repr

end Sys2Proof.Machine
end

