-- ==== Sys2Proof/Machine/State.lean ====
section
/-!
DEFINITION. The state of the device, as plain data: what every block shares (`hub`), one structure per chapter, and the
queue of waiting commands. `State.reset` is the device at the release of reset.
-/

namespace Sys2Proof.Machine

/-- Reasons the machine stops. The spec describes the effect of every command, so no meaning of this model faults: the
type has no constructor. -/
inductive Fault : Type
  deriving DecidableEq, Repr

/-- Reasons a command has no meaning. -/
inductive Refusal where
  /-- Raised only by arms of `exec` that have no meaning yet. Safe: no next state is claimed. -/
  | notModelled (mnemonic : String)
  deriving DecidableEq, Repr

/-- The device. -/
structure State where
  hub : Hub := {}
  tim : TimSt := {}
  fab : FabSt := {}
  lch : LchSt := {}
  ldr : LdrSt := {}
  dbt : DbtSt := {}
  start : StartSt := {}
  qsc : QscSt := {}
  mem : MemSt := {}
  fwd : FwdSt := {}
  cip : CipSt := {}
  enc : EncSt := {}
  spl : SplSt := {}
  dec : DecSt := {}
  cmp : CmpSt := {}
  bio : BioSt := {}
  aud : AudSt := {}
  dbl : DblSt := {}
  hng : HngSt := {}
  lnk : LnkSt := {}
  /-- Commands waiting, first in, first out. -/
  pending : List Instr := []
  deriving DecidableEq, Repr

/-- The device at the release of reset: every register at the value of its table's Reset column (an unlisted register
of `hub.regs`), memories listing nothing, no command waiting. -/
def State.reset : State := {}

end Sys2Proof.Machine
end

