-- ==== Sys2Proof/Machine/Queues.lean ====
section
/-!
DEFINITION. Egress queues, the scheduler, rate limits, the egress limiter, gate control lists and the sampler (R139–R149),
and the writes of `QSC.FIFO_CTL` (R138).
-/

namespace Sys2Proof.Machine

/-- Nanoseconds of TIME_REFCLK since the cold start: 8 ns a tick (R308). -/
def Hub.elapsed (h : Hub) : Nat := 8 * h.ticks

/-- The hc since the cold start, at the nominal pace of 0.40 ns (assumption 130). -/
def Hub.hcNow (h : Hub) : Nat := 20 * h.ticks

/-! ### Completions -/

/-- LATCHED changes whose completion has been posted are shadow writes of their functions (R127). -/
def State.settle (s : State) : State :=
  { s with
    lch := { s.lch with openSet := s.lch.openSet ++ s.hub.posted.map fun c => ⟨c.1, .change c.2⟩ }
    hub := { s.hub with posted := [] } }

/-- Complete a command (R370). -/
def State.done (s : State) (e : CmdEnv) (op st : Nat) (res : List Byte) : State :=
  ({ s with hub := s.hub.complete e op st res none } : State).settle

/-- Complete a LATCHED command whose change is held until its Latch: a shadow write of the issuing function from the moment the
completion is posted (R127). -/
def State.hold (s : State) (e : CmdEnv) (op : Nat) (i : Instr) : State :=
  ({ s with hub := s.hub.complete e op 0 [] (some (e.fn, i)) } : State).settle

/-! ### FIFO control writes -/

/-- Does function `fn` reach queue pair `q` (R365, R366)? -/
def Hub.reachesQp (h : Hub) (fn q : Nat) : Bool := fn == 0 || h.owner HIF.VF_QP.BASE q == fn

/-- FIFO_FLUSH (R138): a write of 1 to FLUSH empties FIFO `n`, and takes the SIZE it carries. -/
def execFifoFlush (fn n : Nat) (val : Word) (s : State) : Host.Outcome State Fault Refusal :=
  .next { s with hub :=
    if n < 2048 ∧ val.getLsbD 31 ∧ s.hub.hostIn ∧ s.hub.reachesQp fn (n / 2) then s.hub.fifoCtl n val else s.hub }

/-- FIFO_SIZE_CHANGE (R138): a write that changes SIZE acts as a flush. -/
def execFifoSizeChange (fn n : Nat) (val : Word) (s : State) : Host.Outcome State Fault Refusal :=
  .next { s with hub :=
    if n < 2048 ∧ s.hub.hostIn ∧ s.hub.reachesQp fn (n / 2) ∧
        QSC.FIFO_CTL.SIZE.of val ≠ s.hub.get1 QSC.FIFO_CTL.SIZE n then s.hub.fifoCtl n val
    else s.hub }

/-! ### Gate lists (R144–R147) -/

/-- Entry `e` of the list registers of port `p`: gate states and interval in ns (Table 7.5). -/
def Hub.gclEntry (h : Hub) (p e : Nat) : Nat × Nat :=
  (h.get2 QSC.GCL_ENT.GATES p e, h.get2 QSC.GCL_ENT.COUNT p e * 16 ^ (h.get2 QSC.GCL_ENT.UNIT p e))

/-- The list that the registers of port `p` describe, to start at `start`. -/
def Hub.gclRead (h : Hub) (p start : Nat) : GateList :=
  { start := start
    cycle := min (max (h.get1 QSC.GCL_CYCLE.NS p) 1000) 1000000000
    ents := (List.range (min (h.get1 QSC.GCL_COUNT.COUNT p) 256)).map (h.gclEntry p) }

/-- The list of a port, open in every class while none has taken over. -/
def QscSt.list (q : QscSt) (p : Nat) : GateList := (kvGet p q.gates).getD { start := 0, cycle := 1000, ents := [] }

/-- One cycle as (entry, gate states, length): entries of interval 0 are skipped, the cycle end cuts, and the last
states hold to the cycle end. R144 does not say whose states hold where the last entries are skipped: those of the last entry that is
not skipped, and where every interval is 0 the last entry's (DESIGN CHOICE, assumption 16). -/
def gateSegs (left : Nat) (idx : Nat) (last : Option (Nat × Nat)) : List (Nat × Nat) → List (Nat × Nat × Nat)
  | [] => match last with
    | some (i, g) => if left = 0 then [] else [(i, g, left)]
    | none => [(0, 255, left)]
  | (g, iv) :: t =>
    if iv = 0 then gateSegs left (idx + 1) (if t = [] ∧ last = none then some (idx, g) else last) t
    else if left ≤ iv then (if left = 0 then [] else [(idx, g, left)])
    else (idx, g, iv) :: gateSegs (left - iv) (idx + 1) (some (idx, g)) t

/-- The segments of a list's cycle. -/
def GateList.segs (l : GateList) : List (Nat × Nat × Nat) :=
  if l.ents = [] then [(0, 255, l.cycle)] else gateSegs l.cycle 0 none l.ents

/-- The entry in force and gate states at position `pos` of a cycle, with the time left in its segment. -/
def segAt (pos : Nat) : List (Nat × Nat × Nat) → Nat × Nat × Nat
  | [] => (0, 255, 1)
  | (i, g, n) :: t => if pos < n then (i, g, n - pos) else segAt (pos - n) t

/-- Entry, gate states and time left at counter time `t`. -/
def GateList.at (l : GateList) (t : Nat) : Nat × Nat × Nat := segAt ((t + l.cycle - l.start % l.cycle) % l.cycle) l.segs

/-- Is class `c` open in every segment? -/
def GateList.always (l : GateList) (c : Nat) : Bool := l.segs.all fun x => x.2.1.testBit c

/-- The longest continuous open time of class `c` within one cycle (R147): `cur` and `best` are the runs so far. -/
def longestOpen (c cur best : Nat) : List (Nat × Nat × Nat) → Nat
  | [] => max cur best
  | (_, g, n) :: t => if g.testBit c then longestOpen c (cur + n) best t else longestOpen c 0 (max cur best) t

/-- The limit of R147 for one list: none where the class is open throughout. -/
def GateList.longest (l : GateList) (c : Nat) : Option Nat := if l.always c then none else some (longestOpen c 0 0 l.segs)

/-- Read ahead to the close of class `c` from counter time `t`, at most `fuel` segments: the time until it closes, with a
pending list's states from its takeover (R146). Running out of fuel means the gate stays open longer than the fuel
covers, which is every segment of two cycles of each list. -/
def openFor (cur : GateList) (pend : Option GateList) (c t : Nat) : Nat → Nat
  | 0 => 2 ^ 63
  | fuel + 1 =>
    match pend with
    | some n =>
      if n.start ≤ t then openFor n none c t fuel
      else
        let x := cur.at t
        if x.2.1.testBit c then
          let d := min x.2.2 (n.start - t)
          d + openFor cur pend c (t + d) fuel
        else 0
    | none =>
      let x := cur.at t
      if x.2.1.testBit c then x.2.2 + openFor cur none c (t + x.2.2) fuel else 0

/-- How long class `c` of port `p` stays open from counter time `t` on. -/
def QscSt.openFor (q : QscSt) (p c t : Nat) : Nat :=
  let l := q.list p
  match kvGet p q.pending with
  | some n => Sys2Proof.Machine.openFor l (some n) c t (2 * l.ents.length + 2 * n.ents.length + 8)
  | none => if l.always c then 2 ^ 63 else Sys2Proof.Machine.openFor l none c t (2 * l.ents.length + 4)

/-- R147: the limit in force, the longer of the two lists' while one is pending. -/
def QscSt.longest (q : QscSt) (p c : Nat) : Option Nat :=
  match (q.list p).longest c, (kvGet p q.pending).map (·.longest c) with
  | some a, some (some b) => some (max a b)
  | some a, none => some a
  | _, _ => none

/-- A built Ethernet port's rate in Gb/s by its mode code (Table 18.1); 0 for any other. -/
def ethRate (mode : Nat) : Nat :=
  match mode with
  | 0x0101 => 100
  | 0x0102 => 100
  | 0x0201 => 200
  | 0x0202 => 200
  | 0x0401 => 400
  | 0x0402 => 400
  | 0x0801 => 800
  | 0x0802 => 800
  | _ => 0

/-- The rate of Ethernet port `p`; 0 where it is not built. -/
def State.portRate (s : State) (p : Nat) : Nat := ((s.fab.ports.find? fun r => r.kind = 1 ∧ r.number = p).map (fun (r : PortRec) => ethRate r.mode)).getD 0

/-- R146: does a frame's wire time fit in `ns`, of which `frac` 2^−40 ns have passed, at `rate` Gb/s? -/
def fitsWire (len rate ns frac : Nat) : Bool := decide ((len + 20) * 8 * 2 ^ 40 + rate * frac ≤ rate * ns * 2 ^ 40)

/-! ### Enqueueing (R139, R141, R148) -/

/-- Queue number of system queue `n`. -/
def sysQueue (n : Nat) : Nat := 16384 + n

/-- Frame bytes held. -/
def EgrQueue.bytes (q : EgrQueue) : Nat := q.items.foldl (fun a i => a + i.len) 0

/-- QLIMIT in bytes, and WEIGHT, of a queue. -/
def Hub.qlimit (h : Hub) (n : Nat) : Nat :=
  1024 * min (max (if n < 16384 then h.get1 QSC.LEG_CFG.QLIMIT n else h.get1 QSC.SYSQ_CFG.QLIMIT (n - 16384)) 1) 1024
def Hub.qweight (h : Hub) (n : Nat) : Nat :=
  max (if n < 16384 then h.get1 QSC.LEG_CFG.WEIGHT n else h.get1 QSC.SYSQ_CFG.WEIGHT (n - 16384)) 1

/-- Virtual time of a class. -/
def QscSt.v (q : QscSt) (p c : Nat) : Nat := (kvGet (8 * p + c) q.vtime).getD 0

/-- The tag of R141 for a head frame of `len` bytes. -/
def finishTag (v len weight : Nat) : Nat := (v + ceilDiv (len * 256) weight) % 2 ^ 32

/-- Give a queue the tag of its head frame. -/
def State.retag (s : State) (n : Nat) (q : EgrQueue) : EgrQueue :=
  match q.items with
  | i :: _ => { q with tag := finishTag (s.qsc.v q.port q.cls) i.len (s.hub.qweight n) }
  | [] => q

/-- Replace a queue. -/
def State.setQueue (s : State) (n : Nat) (q : EgrQueue) : State :=
  { s with qsc := { s.qsc with queues := kvPut n q s.qsc.queues } }

/-- Bytes held in one class of a port. -/
def QscSt.clsBytes (q : QscSt) (p c : Nat) : Nat :=
  q.queues.foldl (fun a e => if e.2.port = p ∧ e.2.cls = c then a + e.2.bytes else a) 0

/-- Raise a high-water mark. -/
def Hub.mark (h : Hub) (f : Fld) (i j v : Nat) : Hub := if h.get2 f i j < v then h.set2 f i j (min v 0xFFFFFFFF) else h

/-- The DEPTH marks of a queue and its class (R148). -/
def State.markDepth (s : State) (n : Nat) (q : EgrQueue) : State :=
  let h := if n < 16384 then s.hub.mark QSC.LEG_HW_DEPTH.BYTES n 0 q.bytes else s.hub
  { s with hub := h.mark QSC.CLS_HW_DEPTH.BYTES q.port q.cls (s.qsc.clsBytes q.port q.cls) }

/-- Drop the head frames of a queue that are longer than its class's longest window (R147), at most `fuel`: each as it reaches the head. -/
def State.dropOversize (s : State) (n : Nat) : Nat → State
  | 0 => s
  | fuel + 1 =>
    match kvGet n s.qsc.queues with
    | some q =>
      match q.items, s.qsc.longest q.port q.cls with
      | i :: t, some w =>
        if fitsWire i.len (s.portRate q.port) w 0 then s
        else
          let q1 : EgrQueue := { q with items := t }
          let h := (s.hub.err QSC.OVERSIZE.COUNT q.port 0x0708 0).raiseRl { code := 0x0702, detail := [q.port, q.cls, i.len] }
          (({ s with hub := h } : State).setQueue n (if q.wheel = none then s.retag n q1 else q1)).dropOversize n fuel
      | _, _ => s
    | none => s

/-- An item enters queue `n` on port `p` in class `c`: at the tail, or at the head (a retransmission); or it is refused
where the queue would exceed its QLIMIT (R139). A port that is not built has no queue: the item is dropped (Table 6.9). -/
def State.enqueue (s : State) (n p c : Nat) (front : Bool) (len : Nat) (msg : OutMsg) (sec : Option CipItem := none)
    (idx : Option IdxEntry := none) : State :=
  let q : EgrQueue := (kvGet n s.qsc.queues).getD { port := p, cls := c }
  if s.portRate p = 0 then s
  else if s.hub.qlimit n < q.bytes + len then
    { s with hub := (s.hub.err QSC.QFULL.COUNT p 0x0708 0).raiseRl { code := 0x0703, detail := [n] } }
  else
    let it : EgrItem := { len := len, entered := s.hub.elapsed, msg := msg, sec := sec, idx := idx }
    let q1 : EgrQueue := { q with port := p, cls := c, items := if front then it :: q.items else q.items ++ [it] }
    let q2 := if q.items = [] ∧ q.wheel = none then s.retag n q1 else q1
    let s1 := (s.setQueue n q2).markDepth n q2
    if q.items = [] ∨ front then s1.dropOversize n 1 else s1

/-- A frame of `len` bytes enters system queue `n` on port `p` (R139); its class is a free value. -/
def State.sysSend (s : State) (n p len : Nat) (msg : OutMsg) : State :=
  s.enqueue (sysQueue n) p (Config.sysClass n % 8) false len msg

/-! ### The scheduler (R140–R143, R146, R147) -/

/-- Drop oversize heads on every queue of a port. -/
def State.dropPort (s : State) (p : Nat) : State :=
  s.qsc.queues.foldl (fun a e => if e.2.port = p then a.dropOversize e.1 e.2.items.length else a) s

/-- Does tag `a` come before tag `b` (R96, R141)? -/
def tagBefore (a b : Nat) : Bool := laterThan 32 a b

/-- The eligible queue of a class with the earliest tag; ties go to the lower number (R141). -/
def pickQueue (p c : Nat) : List (Nat × EgrQueue) → Option (Nat × EgrQueue)
  | [] => none
  | (n, q) :: t =>
    let here := q.port = p ∧ q.cls = c ∧ q.items ≠ [] ∧ q.wheel = none
    match pickQueue p c t with
    | some (m, r) => if here ∧ !tagBefore r.tag q.tag then some (n, q) else some (m, r)
    | none => if here then some (n, q) else none

/-- Credit of the limiter in bits at elapsed time `now` (R143). -/
def State.credit (s : State) (now : Nat) : Nat :=
  9620 * 8 - (s.qsc.spent - s.hub.ethGbps * (now - s.qsc.spentAt))

/-- The queue that class `c` may start a frame from, if it qualifies (R140). -/
def State.qualifies (s : State) (p c : Nat) : Option (Nat × EgrQueue) :=
  match pickQueue p c s.qsc.queues with
  | some (n, q) =>
    match q.items with
    | i :: _ =>
      if fitsWire i.len (s.portRate p) (s.qsc.openFor p c s.hub.time.total) s.hub.time.frac ∧ (i.len + 20) * 8 ≤ s.credit s.hub.elapsed
      then some (n, q) else none
    | [] => none
  | none => none

/-- Classes `c` − 1 down to 0: the first that qualifies (R140). -/
def State.selectFrom (s : State) (p : Nat) : Nat → Option (Nat × EgrQueue)
  | 0 => none
  | c + 1 => match s.qualifies p c with
    | some x => some x
    | none => s.selectFrom p c

/-- Slots of the calendar wheel: 250 ns each, 65,536 of them (R142). -/
def wheelSlot (next now : Nat) : Nat := min (ceilDiv next 250 * 250) (now / 250 * 250 + 65535 * 250)

/-- The wheel entry of a leg queue after a frame of `len` bytes has started at `now` (R142). -/
def rateWheel (kbps eligible len now : Nat) : Option (Nat × Nat) :=
  if kbps = 0 then none
  else
    let next := max now eligible + ceilDiv (len * 8000000) kbps
    if next ≤ now then none else some (wheelSlot next now, next)

/-- Is a lane of port `p`'s island down (R24)? -/
def State.portDown (s : State) (p : Nat) : Bool :=
  match s.fab.ports.find? (fun r => r.kind = 1 ∧ r.number = p) with
  | some r => s.fab.down.any fun i => match i with
    | .lane n => decide (r.first ≤ n ∧ n < r.first + r.mode / 256 % 16)
    | _ => false
  | none => false

/-- Is a port UP? Another discards its transmit frames (R24, R347). -/
def State.portUp (s : State) (p : Nat) : Bool := s.hub.get1 LNK.ETH_STAT.STATE p == 3 && !s.portDown p

/-- RATE_WHEEL_SLOT (R142): queue `n` reaches its slot: it is re-entered with its remainder, or becomes eligible and
takes the tag of its head. -/
def execRateWheelSlot (n : Nat) (s : State) : Host.Outcome State Fault Refusal :=
  .next (match kvGet n s.qsc.queues with
    | some q =>
      match q.wheel with
      | some (slot, next) =>
        if s.hub.elapsed < slot then s
        else if slot < ceilDiv next 250 * 250 then s.setQueue n { q with wheel := some (wheelSlot next slot, next) }
        else s.setQueue n (s.retag n { q with wheel := none, eligible := slot })
      | none => s
    | none => s)

/-- A free value from `lo` to `hi`. -/
def Hub.between (h : Hub) (lo hi : Nat) : Nat × Hub := if hi ≤ lo then (lo, h) else (lo + h.freeVal (hi - lo + 1), h.freeTick)

/-- The instant whose seconds have the low 32 bits given and that lies from 2^31 s before to 2^31 − 1 s after the current time. -/
def Hub.compactNs (h : Hub) (sec ns : Nat) : Nat :=
  ((h.time.sec : Int) + wrapDiff 32 (h.time.sec % 2 ^ 32) (sec % 2 ^ 32)).toNat * 1000000000 + min ns 999999999

/-- The counter time in ns that a scheduled time names (R313): compact or full. -/
def Hub.schedNs (h : Hub) (sec ns : Nat) : Nat :=
  if h.get TIM.CFG.COMPACT = 1 then h.compactNs sec ns else (sec % 2 ^ 48) * 1000000000 + min ns 999999999

/-- The instant that a scheduled time of `raw` ns, as written, names under the compare mode in force (R313). -/
def Hub.instant (h : Hub) (raw : Nat) : Nat := h.schedNs (raw / 1000000000) (raw % 1000000000)

/-! ### List takeover (R145) -/

/-- The takeover time of a list made pending at counter time `now` with base `b`, and whether the base came too late. A
list with COUNT 0 uses no base (assumption 17). -/
def takeoverAt (l : GateList) (b now : Nat) : Nat × Bool :=
  let first := now + 250000
  if l.ents = [] then (first, false)
  else if first ≤ b then (b, false)
  else (b + ceilDiv (first - b) l.cycle * l.cycle, true)

/-- A Latch that carries list registers of port `p` makes the list they describe pending (R145). -/
def State.gclPend (s : State) (p : Nat) : State :=
  let b := s.hub.schedNs (s.hub.get1 QSC.GCL_BASE_SEC_LO.SEC p + s.hub.get1 QSC.GCL_BASE_SEC_HI.SEC p * 2 ^ 32) (s.hub.get1 QSC.GCL_BASE_NS.NS p)
  let l := s.hub.gclRead p 0
  let x := takeoverAt l b s.hub.time.total
  if s.portRate p = 0 then s
  else
    let h1 := if kvHas p s.qsc.pending then s.hub.raise { code := 0x0706 } else s.hub
    let h2 := ((h1.set1 QSC.GCL_STAT.PENDING p 1).set1 QSC.GCL_SWITCH_NS.NS p (x.1 % 1000000000)).set1
      QSC.GCL_SWITCH_SEC.SEC p (x.1 / 1000000000)
    { s with
      hub := if x.2 then h2.raise { code := 0x0701, detail := [p, x.1 % 1000000000, x.1 / 1000000000] } else h2
      qsc := { s.qsc with pending := kvPut p { l with start := x.1 } s.qsc.pending } }

/-- `QSC.GCL_STAT.ENTRY` of port `p` at the time now. -/
def State.gateEntry (s : State) (p : Nat) : State :=
  let l := s.qsc.list p
  { s with hub := s.hub.set1 QSC.GCL_STAT.ENTRY p (if l.ents = [] then 0 else (l.at s.hub.time.total).1) }

/-- The pending list of port `p` becomes the current one at counter time `at_`, from which its position runs (R144, R145). -/
def State.gclTake (s : State) (p at_ : Nat) : State :=
  match kvGet p s.qsc.pending with
  | some l =>
    ({ s with
      hub := ((s.hub.set1 QSC.GCL_STAT.PENDING p 0).set1 QSC.GCL_STAT.COUNT p l.ents.length).raise
        { code := 0x0707, detail := [p] }
      qsc := { s.qsc with gates := kvPut p { l with start := at_ } s.qsc.gates, pending := kvDel p s.qsc.pending } } : State).gateEntry p
  | none => s

/-- Take over, now, every pending list that is due, and show every list's entry at the time now: after a step of the counter or a
Shutter (R144, R145). -/
def State.gclDue (s : State) : State :=
  let s1 := s.qsc.pending.foldl (fun a e => if e.2.start ≤ a.hub.time.total then a.gclTake e.1 a.hub.time.total else a) s
  s1.qsc.gates.foldl (fun a e => a.gateEntry e.1) s1

/-- GCL_TAKEOVER (R145): the takeover time of port `p` is reached. -/
def execGclTakeover (p : Nat) (s : State) : Host.Outcome State Fault Refusal :=
  .next (match kvGet p s.qsc.pending with
    | some l => if l.start ≤ s.hub.time.total ∧ s.hub.get GLB.STATUS.FROZEN = 0 then s.gclTake p l.start else s
    | none => s)

/-- GATE_ENTRY_CHANGE (R144): the list of port `p` moves to its next entry. -/
def execGateEntryChange (p : Nat) (s : State) : Host.Outcome State Fault Refusal :=
  .next (if s.portRate p = 0 then s else s.gateEntry p)

/-! ### The sampler (R149) -/

/-- One slot's sample: bytes held and head age in µs. -/
def State.sampleSlot (s : State) (h : Hub) (n : Nat) : Hub :=
  if h.get1 QSC.SMP_SEL.VALID n = 0 then h
  else
    let w := h.get1 QSC.SMP_SEL.QUEUE n
    let qn := if h.get1 QSC.SMP_SEL.SYS n = 1 then sysQueue (w % 64) else w
    let q : EgrQueue := (kvGet qn s.qsc.queues).getD { port := 0, cls := 0 }
    let age := match q.items with
      | i :: _ => (s.hub.elapsed - i.entered) / 1000
      | [] => 0
    (h.set1 QSC.SMP_DEPTH.BYTES n q.bytes).set1 QSC.SMP_AGE.US n (min age 0xFFFFFFFF)

/-- At a Louvre boundary of which `n` have passed: sample at every PERIOD-th one while ENABLE is 1. -/
def State.sample (s : State) (n : Nat) : State :=
  if s.hub.get QSC.SMP_CTL.ENABLE = 1 ∧ n % max (s.hub.get QSC.SMP_CTL.PERIOD) 1 = 0 then
    let h := (List.range 64).foldl (fun h k => s.sampleSlot h k) s.hub
    { s with hub := h.set QSC.SMP_SEQ.SEQ (h.get QSC.SMP_SEQ.SEQ + 1) }
  else s

end Sys2Proof.Machine
end

