-- ==== Sys2Proof/Machine/AudBase.lean ====
section
/-!
DEFINITION. What the audio families share: sources and sinks (R244), samples entering source blocks (R242), exact decibel
arithmetic (R245, R250).
-/

namespace Sys2Proof.Machine

/-- The crosspoint's size (R244). -/
def Hub.xptSize (h : Hub) : Nat := if h.get GLB.VARIANT.XPT = 1 then 2048 else 512

/-- A source, a sink, a node; and their replacement. -/
def AudSt.src (a : AudSt) (n : Nat) : AudSrc := (kvGet n a.srcs).getD {}
def AudSt.snk (a : AudSt) (n : Nat) : AudSnk := (kvGet n a.snks).getD {}
def nodeKey (sink source : Nat) : Nat := 2048 * sink + source
def AudSt.node (a : AudSt) (k j : Nat) : AudNode := (kvGet (nodeKey k j) a.nodes).getD {}
def AudSt.setSrc (a : AudSt) (n : Nat) (x : AudSrc) : AudSt := { a with srcs := kvPut n x a.srcs }
def AudSt.setSnk (a : AudSt) (n : Nat) (x : AudSnk) : AudSt := { a with snks := kvPut n x a.snks }
def AudSt.setNode (a : AudSt) (k j : Nat) (x : AudNode) : AudSt := { a with nodes := kvPut (nodeKey k j) x a.nodes }

/-- Samples enter a source's blocks from global sample `at_` on; a sample already there stays. -/
def AudSrc.put (x : AudSrc) (at_ : Nat) (keep : Bool) : List (Option Int) → AudSrc
  | [] => x
  | v :: t =>
    ({ x with buf := if keep ∧ kvHas at_ x.buf then x.buf else kvPut at_ v x.buf } : AudSrc).put (at_ + 1) keep t

/-- Samples of a data pair from global sample `at_` on; those of 2,048 samples before them go. -/
def AudSrc.putData (x : AudSrc) (at_ : Nat) (l : List Int) : AudSrc :=
  { x with data := (x.data.filter fun e => decide (at_ < e.1 + 2048)) ++ l.zipIdx.map fun e => (at_ + e.2, e.1) }

/-- The global sample that plays at a counter time in ns: 48 kHz (R242). -/
def sampleAt (ns : Nat) : Nat := ns * 6 / 125000

/-! ### Decibels -/

/-- The largest n ≤ hi with test n, by bisection; `test 0` is taken as true. -/
def bisect (test : Nat → Bool) (lo hi : Nat) : Nat → Nat
  | 0 => lo
  | fuel + 1 =>
    if hi ≤ lo then lo
    else
      let mid := (lo + hi + 1) / 2
      if test mid then bisect test mid hi fuel else bisect test lo (mid - 1) fuel

/-- v × 10^(q / 80), rounded to the nearest integer: a gain of q quarter-dB. It is never exactly half-way (assumption 22). -/
def gainNat (v : Nat) (q : Int) : Nat :=
  let up := q.toNat
  let down := (-q).toNat
  let hi := v * 10 ^ (up / 80 + 1) + 1
  bisect (fun n => decide ((2 * n - 1) ^ 80 * 10 ^ down ≤ (2 * v) ^ 80 * 10 ^ up)) 0 hi (Nat.log2 hi + 2)

/-- The same for a signed value. -/
def gainInt (v : Int) (q : Int) : Int := if v < 0 then -(gainNat v.natAbs q : Int) else gainNat v.natAbs q

/-- round(40 × log10 n) quarter-dB (R250). -/
def scaleCode (n : Nat) : Nat := bisect (fun m => m = 0 || decide (10 ^ (2 * m - 1) ≤ n ^ 80)) 0 300 12

/-- The level of a positive amplitude v in 1/16 dB below full scale 2^23, rounded to the nearest: the least m with
(2^23 / v)^640 ≤ 10^(2m + 1). -/
def levelOf (v : Nat) : Nat :=
  let num := (2 ^ 23) ^ 640
  let den := v ^ 640
  bisect (fun m => m = 0 || decide (den * 10 ^ (2 * m - 1) ≤ num)) 0 2300 13

/-- The level of a mean square in 1/16 dB below full scale, likewise. -/
def levelOfSq (v : Nat) : Nat :=
  let num := (2 ^ 46) ^ 320
  let den := v ^ 320
  bisect (fun m => m = 0 || decide (den * 10 ^ (2 * m - 1) ≤ num)) 0 2300 13

end Sys2Proof.Machine
end

