-- ==== Sys2Proof/Machine/Time.lean ====
section
/-!
DEFINITION. Network time (chapter 16): the counter, its increment and steps, servo states, PTP frames and stamps, pulse
and event pins.
-/

namespace Sys2Proof.Machine

/-! ### The counter -/

/-- One tick of TIME_REFCLK adds an 8.40 increment (R308); seconds wrap after 2^48 − 1. -/
def Time.tick (t : Time) (incr : Nat) : Time :=
  let f := t.frac + incr % 2 ^ 40
  let n := t.ns + incr / 2 ^ 40 + f / 2 ^ 40
  { sec := (t.sec + n / 1000000000) % 2 ^ 48, ns := n % 1000000000, frac := f % 2 ^ 40 }

/-- Does a tick carry one second (R308)? -/
def Time.carries (t : Time) (incr : Nat) : Bool := decide (1000000000 ≤ t.ns + incr / 2 ^ 40 + (t.frac + incr % 2 ^ 40) / 2 ^ 40)

/-- The limits of the increment (R309). -/
def incrMin : Nat := 7 * 2 ^ 40 + 1086317488243
def incrMax : Nat := 8 * 2 ^ 40 + 13194139533

/-- An increment clamped to the limits (R309). -/
def clampIncr (v : Nat) : Nat := min (max v incrMin) incrMax

/-- The counter after a step by a signed offset (R310): below 0 it is 0; the fraction does not change. -/
def Time.step (t : Time) (sec ns : Nat) (neg : Bool) : Time :=
  let d := sec * 1000000000 + min ns 999999999
  let n := if neg then t.total - d else t.total + d
  { Time.ofNs n with frac := t.frac }

/-- R311: a read of NOW_FRAC captures nanoseconds and seconds for the reading function. -/
def Hub.nowCapture (h : Hub) (fn : Nat) : Hub :=
  { h with
    captured := kvPut (winKey fn 0x1B00014) (BitVec.ofNat 32 h.time.ns)
      (kvPut (winKey fn 0x1B00018) (BitVec.ofNat 32 h.time.sec)
        (kvPut (winKey fn 0x1B0001C) (BitVec.ofNat 32 (h.time.sec / 2 ^ 32)) h.captured)) }

/-! ### Servo states (Table 16.1) -/

/-- Set `LVR.STATUS.HOLDOVER`; a change raises `LVR_HOLDOVER` with the new value (Table 4.8). -/
def Hub.setHoldover (h : Hub) (v : Nat) : Hub :=
  if h.get LVR.STATUS.HOLDOVER = v then h
  else (h.set LVR.STATUS.HOLDOVER v).raise { code := 0x0406, detail := [v] }

/-- FREE or HOLDOVER to LOCKED. -/
def State.timeLock (s : State) : State :=
  if s.hub.get TIM.STATUS.STATE = 1 then s
  else { s with
    hub := ((s.hub.set TIM.STATUS.STATE 1).setHoldover 0).raise { code := 0x1102 }
    tim := { s.tim with servoAt := s.hub.time.total } }

/-- LOCKED to HOLDOVER, with the cause of Table 16.7; from any other state nothing changes. -/
def State.timeLoss (s : State) (cause : Nat) : State :=
  if s.hub.get TIM.STATUS.STATE = 1 then
    { s with hub := ((s.hub.set TIM.STATUS.STATE 2).setHoldover 1).raise { code := 0x1103, detail := [cause] } }
  else s

/-- NOW_FRAC_READ (R311). -/
def execNowFracRead (fn : Nat) (s : State) : Host.Outcome State Fault Refusal :=
  .next (if s.hub.hostIn then
      { s with hub := (s.hub.nowCapture fn).emit (.regRead fn 0x1B00010 (BitVec.ofNat 32 (s.hub.time.frac / 2 ^ 24))) }
    else s)

/-- An increment is in force from the next tick, and both registers read it (R309). -/
def State.incrSet (s : State) (v : Nat) : State :=
  { s with
    hub := (s.hub.wr 0x1B00020 (BitVec.ofNat 32 v)).wr 0x1B00024 (BitVec.ofNat 32 (v / 2 ^ 32))
    tim := { s.tim with incr := v, servoAt := s.hub.time.total } }

/-- The increment that a write of `TIM.INCR_HI` names, with `TIM.INCR_LO` as written before it. -/
def Hub.incrNamed (h : Hub) (val : Word) : Nat := val.toNat % 2 ^ 16 * 2 ^ 32 + (h.rd 0x1B00020).toNat

/-- INCR_WRITE (R309): the increment named, clamped, is in force. -/
def State.incrWrite (s : State) (val : Word) : State := s.incrSet (clampIncr (s.hub.incrNamed val))

/-- INCR_WRITE (R309). -/
def execIncrWrite (val : Word) (s : State) : Host.Outcome State Fault Refusal :=
  .next (if s.hub.hostIn then s.incrWrite val else s)

/-- LOCK_WRITE (Table 16.1): ignored while SERVO is 0; during a Shutter the state does not change. -/
def State.lockWrite (s : State) (val : Word) : State :=
  if s.hub.get TIM.CFG.SERVO = 1 ∧ s.hub.get GLB.STATUS.FROZEN = 0 then (if val.getLsbD 0 then s.timeLock else s.timeLoss 0) else s

/-- LOCK_WRITE (R312). -/
def execLockWrite (val : Word) (s : State) : Host.Outcome State Fault Refusal :=
  .next (if s.hub.hostIn then s.lockWrite val else s)

/-- The service's record of a port. -/
def TimSt.port (t : TimSt) (p : Nat) : PtpPort := (kvGet p t.ports).getD {}

/-- Replace the service's record of a port. -/
def TimSt.setPort (t : TimSt) (p : Nat) (x : PtpPort) : TimSt := { t with ports := kvPut p x t.ports }

/-- Does the PTP service (service 10) run? A Shutter stops it. -/
def State.ptpRuns (s : State) : Bool := s.hub.get1 HIF.SVC_STAT.STATE 10 == 1 && s.hub.get GLB.STATUS.FROZEN == 0

/-- 2^log s, in ns. -/
def logNs (l : Int) : Nat := if 0 ≤ l then 1000000000 * 2 ^ l.toNat else 1000000000 / 2 ^ (-l).toNat

/-- PTP_LOCK_DECLARED (R312): while SERVO is 0 the service declares lock after 16 consecutive Sync measurements of the slave port within
LOCK_NS (R371). -/
def execPtpLockDeclared (s : State) : Host.Outcome State Fault Refusal :=
  .next (if s.ptpRuns ∧ s.hub.get TIM.CFG.SERVO = 0 ∧ 16 ≤ (s.tim.port (s.hub.get TIM.STATUS.SLAVE_PORT)).good then s.timeLock else s)

/-- Has the slave port lost its master: its link, or ANNOUNCE_TIMEOUT announce intervals without an Announce? -/
def State.ptpLost (s : State) (p : Nat) : Bool :=
  !s.portUp p || decide ((s.tim.port p).announced + s.tim.announceTimeout * logNs (s.tim.port p).logAnnounce ≤ s.hub.elapsed)

/-- PTP_LOSS_DECLARED (R312): the PTP service declares loss while SERVO is 0; no port is slave any more. -/
def execPtpLossDeclared (s : State) : Host.Outcome State Fault Refusal :=
  let p := s.hub.get TIM.STATUS.SLAVE_PORT
  .next (if s.ptpRuns ∧ s.hub.get TIM.CFG.SERVO = 0 ∧ s.ptpLost p then
      let s1 := s.timeLoss 0
      { s1 with
        hub := s1.hub.set TIM.STATUS.SLAVE_PORT 0xFF
        tim := s1.tim.setPort p { s1.tim.port p with slave := false, good := 0 } }
    else s)

/-- TIM_WATCHDOG_EXPIRY (Table 16.1): LOCKED becomes HOLDOVER when WATCHDOG is not 0 and that many seconds have passed since the last
servo write or the lock. During a Shutter the state does not change (R312). -/
def execTimWatchdogExpiry (s : State) : Host.Outcome State Fault Refusal :=
  .next (if s.hub.get TIM.CFG.WATCHDOG = 0 ∨ s.hub.get GLB.STATUS.FROZEN = 1 ∨
      s.hub.time.total < s.tim.servoAt + s.hub.get TIM.CFG.WATCHDOG * 1000000000 then s else s.timeLoss 1)

/-! ### Pulse and event pins (R319, R320) -/

/-- The record of event pin `n`. -/
def TimSt.pin (t : TimSt) (n : Nat) : TevPin := (kvGet n t.tev).getD {}

/-- Replace the record of event pin `n`. -/
def TimSt.setPin (t : TimSt) (n : Nat) (p : TevPin) : TimSt := { t with tev := kvPut n p t.tev }

/-- The name of a pin: 0–3 TIME_EV0–TIME_EV3, 4 PPS_OUT. -/
def pinName (n : Nat) : String :=
  match n with
  | 0 => "TIME_EV0"
  | 1 => "TIME_EV1"
  | 2 => "TIME_EV2"
  | 3 => "TIME_EV3"
  | _ => "PPS_OUT"

/-- PPS_IN_EDGE (R319). -/
def execPpsInEdge (s : State) : Host.Outcome State Fault Refusal :=
  let h := if s.tim.ppsUnread then s.hub.err TIM.OVERRUN.COUNT 0 0x1106 0 else s.hub
  .next { s with
    hub := ((h.set TIM.PPS_IN_NS.NS s.hub.time.ns).set TIM.PPS_IN_SEC.SEC s.hub.time.sec).raise { code := 0x1107 }
    tim := { s.tim with ppsUnread := true } }

/-- PPS_OUT_PULSE (R319): nanoseconds have passed from 999,999,999 to 0 by counting, at the last tick; while ENABLE is 1 the pin rises,
once. -/
def execPpsOutPulse (s : State) : Host.Outcome State Fault Refusal :=
  .next (if s.hub.get TIM.PPS_OUT.ENABLE = 1 ∧ s.tim.carry then
      { s with
        hub := if s.tim.ppsOut then s.hub else s.hub.emit (.pin "PPS_OUT" true)
        tim := { s.tim with ppsOut := true, ppsRose := s.hub.elapsed, carry := false } }
    else s)

/-- A pulse width in ns: 0 acts as 1 µs, values above 999,999 as that (Tables 16.5 and 16.6). -/
def pulseNs (us : Nat) : Nat := 1000 * min (max us 1) 999999

/-- PIN_PULSE_END (R319, R320): WIDTH_US after its last rise the pin falls. -/
def execPinPulseEnd (pin : Nat) (s : State) : Host.Outcome State Fault Refusal :=
  let p := s.tim.pin pin
  .next (if pin < 4 then
      (if p.level ∧ p.rose + pulseNs (s.hub.get1 TIM.TEV_CTL.WIDTH_US pin) ≤ s.hub.elapsed then
        { s with hub := s.hub.emit (.pin (pinName pin) false), tim := s.tim.setPin pin { p with level := false } }
      else s)
    else if s.tim.ppsOut ∧ s.tim.ppsRose + pulseNs (s.hub.get TIM.PPS_OUT.WIDTH_US) ≤ s.hub.elapsed then
      { s with hub := s.hub.emit (.pin "PPS_OUT" false), tim := { s.tim with ppsOut := false } }
    else s)

/-- TEV_CAPTURE_EDGE (R320): in capture mode the edge is stamped. -/
def execTevCaptureEdge (pin : Nat) (s : State) : Host.Outcome State Fault Refusal :=
  .next (if s.hub.get1 TIM.TEV_CTL.MODE pin = 1 ∧ pin < 4 then
      let h := if (s.tim.pin pin).unread then s.hub.err TIM.OVERRUN.COUNT 0 0x1106 0 else s.hub
      { s with
        hub := ((h.set1 TIM.TEV_CAP_NS.NS pin s.hub.time.ns).set1 TIM.TEV_CAP_SEC.SEC pin s.hub.time.sec).raise
          { code := 0x1108, detail := [pin, s.hub.time.ns, s.hub.time.sec % 2 ^ 32] }
        tim := s.tim.setPin pin { s.tim.pin pin with unread := true } }
    else s)

/-- The time T of an event pin in ns (R313, R320). -/
def Hub.tevT (h : Hub) (n : Nat) : Nat :=
  h.schedNs (h.get1 TIM.TEV_T_SEC_HI.SEC n * 2 ^ 32 + h.get1 TIM.TEV_T_SEC_LO.SEC n) (h.get1 TIM.TEV_T_NS.NS n)

/-- PERIOD of an event pin: values below 1,000 act as 1,000. -/
def Hub.tevPeriod (h : Hub) (n : Nat) : Nat := max (h.get1 TIM.TEV_PERIOD.NS n) 1000

/-- The first instant T + k × PERIOD not yet passed at `now` (R320). -/
def nextPeriodic (t period now : Nat) : Nat := if now ≤ t then t else t + ceilDiv (now - t) period * period

/-- The scheduled rise of event pin `n` by its mode. -/
def Hub.tevNext (h : Hub) (n : Nat) : Option Nat :=
  match h.get1 TIM.TEV_CTL.MODE n with
  | 2 => some (max (h.tevT n) h.time.total)
  | 3 => some (nextPeriodic (h.tevT n) (h.tevPeriod n) h.time.total)
  | _ => none

/-- Schedule event pin `n` anew (R320): a one-shot whose T has passed rises at the next tick and raises `TIM_TEV_LATE`;
off drives the pin low. -/
def State.tevSchedule (s : State) (n : Nat) : State :=
  let mode := s.hub.get1 TIM.TEV_CTL.MODE n
  let p := s.tim.pin n
  { s with
    hub :=
      if mode = 2 ∧ s.hub.tevT n < s.hub.time.total then s.hub.raise { code := 0x1104, detail := [n] }
      else if mode = 0 ∧ p.level then s.hub.emit (.pin (pinName n) false) else s.hub
    tim := s.tim.setPin n { p with next := s.hub.tevNext n, level := if mode = 0 then false else p.level } }

/-- TEV_CONFIG_WRITE (R320): a write to a register of event pin `pin` (`reg` its offset within the pin's registers)
cancels any pending rise and schedules anew. -/
def execTevConfigWrite (pin reg : Nat) (val : Word) (s : State) : Host.Outcome State Fault Refusal :=
  let off := 0x1B00100 + 0x20 * pin + reg
  let m := accMask .rw off
  .next (if pin < 4 ∧ reg ≤ 0x10 ∧ s.hub.hostIn then
      ({ s with hub := s.hub.wr off ((s.hub.rd off &&& ~~~ m) ||| (val &&& m)) } : State).tevSchedule pin
    else s)

/-- A change of COMPACT: rises still pending follow the compare mode now in force (R313). -/
def State.tevCompare (s : State) : State :=
  { s with tim := (List.range 4).foldl (fun (t : TimSt) n =>
      if (t.pin n).next.isSome then t.setPin n { t.pin n with next := s.hub.tevNext n } else t) s.tim }

/-- A rise of event pin `n` at its scheduled instant `at_`: a pin still high stays high (R320). -/
def State.tevRise (s : State) (n : Nat) : State :=
  let p := s.tim.pin n
  match p.next with
  | none => s
  | some t =>
    { s with
      hub := if p.level then s.hub else s.hub.emit (.pin (pinName n) true)
      tim := s.tim.setPin n { p with
        level := true
        rose := s.hub.elapsed
        next := if s.hub.get1 TIM.TEV_CTL.MODE n = 3 then
            some (nextPeriodic t (s.hub.tevPeriod n) (max (t + 1) s.hub.time.total)) else none } }

/-- TEV_RISE (R320): the counter has reached the pin's scheduled rise. -/
def execTevRise (pin : Nat) (s : State) : Host.Outcome State Fault Refusal :=
  .next (match (s.tim.pin pin).next with
    | some t => if t ≤ s.hub.time.total then s.tevRise pin else s
    | none => s)

/-- A forward step of the counter emits each rise that it passes once (R320). -/
def State.tevAfterStep (s : State) : State :=
  (List.range 4).foldl (fun a n =>
    match (a.tim.pin n).next with
    | some t => if t < a.hub.time.total then a.tevRise n else a
    | none => a) s

/-- The step itself (R310): the counter, `TIM_STEP`, the pins. The boundary it produces (R59) is the Louvre's. -/
def State.counterStep (s : State) (neg : Bool) : State :=
  let sec := s.hub.get TIM.STEP_SEC.SEC
  let ns := s.hub.get TIM.STEP_NS.NS
  let h := { s.hub with time := s.hub.time.step sec ns neg }
  ({ s with
    hub := h.raise { code := 0x1101, detail := [sec, ns, if neg then 1 else 0] }
    tim := { s.tim with servoAt := h.time.total, carry := false, stepped := true } } : State).tevAfterStep

/-! ### PTP (R314–R318) -/

/-- The transmit and receive corrections of a port mode in tenths of a ns (Table 16.3), by the lanes of the port. -/
def ptpCorrection (lanes : Nat) : Nat × Nat :=
  match lanes with
  | 1 => (544, 1266)
  | 2 => (482, 1013)
  | 4 => (451, 887)
  | _ => (435, 824)

/-- TRIM of a port as a signed number of ps. -/
def Hub.ptpTrim (h : Hub) (port : Nat) : Int := wrapDiff 16 0 (h.get1 TIM.PORT_CFG.TRIM port)

/-- Lanes of the built Ethernet port (R341). -/
def State.portLanes (s : State) (port : Nat) : Nat :=
  match s.fab.ports.find? (fun p => p.kind = 1 ∧ p.number = port) with
  | some p => p.lanes
  | none => 1

/-- A receive stamp in 2^−16 ns: the MAC stamp less the receive correction and TRIM (R316). -/
def State.rxStamp (s : State) (port sec ns frac : Nat) : Int :=
  let mac : Int := (sec * 1000000000 + ns : Nat) * 65536 + frac
  mac - (ptpCorrection (s.portLanes port)).2 * 65536 / 10 - s.hub.ptpTrim port * 65536 / 1000

/-- A transmit stamp in 2^−16 ns: the MAC stamp plus the transmit correction and TRIM (R316). -/
def State.txStamp (s : State) (port sec ns frac : Nat) : Int :=
  let mac : Int := (sec * 1000000000 + ns : Nat) * 65536 + frac
  mac + (ptpCorrection (s.portLanes port)).1 * 65536 / 10 + s.hub.ptpTrim port * 65536 / 1000

/-- Seconds (6), nanoseconds (4) and FRAC (2) of a stamp in 2^−16 ns (Table 16.4). -/
def stampBytes (st : Int) : List Byte :=
  let n := st.toNat
  leBytes 6 (n / 65536 / 1000000000) ++ leBytes 4 (n / 65536 % 1000000000) ++ leBytes 2 (n % 65536)

/-- A stamp of whole seconds and nanoseconds in 2^−16 ns. -/
def stampOf (sec ns : Nat) : Int := (sec * 1000000000 + ns : Nat) * 65536

/-- The 72-byte measurement item of Table 16.4, at a Delay_Resp that carries t4 and its correction field. -/
def measItem (port : Nat) (p : PtpPort) (t4 corrSm : Int) : List Byte :=
  leBytes 1 port ++ leBytes 1 (if p.oneStep then 1 else 0) ++ leBytes 2 p.syncSeq ++ leBytes 4 0 ++
    stampBytes p.t1 ++ stampBytes p.t2 ++ stampBytes p.t3 ++ stampBytes t4 ++
    leBytes 8 (p.corrMs % 2 ^ 64).toNat ++ leBytes 8 (corrSm % 2 ^ 64).toNat

/-- A Sync measurement is complete: the offset from the master, in 2^−16 ns, and how many in a row lie within `lock` ns (R371). -/
def PtpPort.measured (p : PtpPort) (lock : Nat) : PtpPort :=
  let o := p.t2 - p.t1 - p.corrMs - p.delay
  { p with offset := o, good := if o.natAbs ≤ lock * 65536 then p.good + 1 else 0 }

/-- What the PTP service keeps of a message of its domain (R314, R318): Sync (0) and Follow_Up (8) give t1, t2 and CORR_MS and so the
offset from the master; a matched Delay_Resp (9) gives the mean path delay; an Announce (11) keeps the master. -/
def PtpPort.take (p : PtpPort) (f : PtpFrame) (rx : Int) (lock now : Nat) : PtpPort :=
  if f.kind = 0 then
    let q : PtpPort := { p with syncSeq := f.seq, oneStep := f.oneStep, t2 := rx, corrMs := f.corr }
    if f.oneStep then ({ q with t1 := stampOf f.tsSec f.tsNs } : PtpPort).measured lock else q
  else if f.kind = 8 ∧ f.seq = p.syncSeq ∧ !p.oneStep then
    ({ p with t1 := stampOf f.tsSec f.tsNs, corrMs := p.corrMs + f.corr } : PtpPort).measured lock
  else if f.kind = 9 ∧ f.seq = p.reqSeq then
    let ms := p.t2 - p.t1 - p.corrMs
    let sm := stampOf f.tsSec f.tsNs - p.t3 - f.corr
    { p with offset := (ms - sm) / 2, delay := (ms + sm) / 2 }
  else if f.kind = 11 then { p with announced := now }
  else p

/-- Frame bytes with FCS of a PTP message on a port: Announce 64 bytes, Delay_Resp 54, others 44 (IEEE 1588), over the transport that
FLAGS set. -/
def PtpPort.frameLen (p : PtpPort) (kind : Nat) : Nat :=
  let heads := if p.flags.testBit 2 then 0 else if p.flags.testBit 1 then 48 else 28
  max 64 (14 + heads + (if kind = 11 then 64 else if kind = 9 then 54 else 44) + 4)

/-- The service sends a PTP message on system queue 16 + p (R315). -/
def State.ptpSend (s : State) (port kind seq : Nat) (args : List Nat) : State :=
  s.sysSend (16 + port) port ((s.tim.port port).frameLen kind) (.frame port "ptp" ([kind, s.tim.domain, seq] ++ args))

/-- May a port become slave: BMCA or slave only (Table 19.5)? -/
def PtpPort.mayFollow (p : PtpPort) : Bool := p.role == 1 || p.role == 3

/-- Is a port master: neither disabled, slave, nor slave only? -/
def PtpPort.leads (p : PtpPort) : Bool := p.role != 0 && !p.slave && p.role != 3

/-- A port becomes slave, the only one of the clock, or stops being it (R314). -/
def State.ptpSlave (s : State) (port : Nat) (on : Option Bool) : State :=
  match on with
  | some true =>
    if !(s.tim.port port).mayFollow then s
    else
      let others := s.tim.ports.map fun e => if e.1 = port then e else (e.1, { e.2 with slave := false, good := 0 })
      let t : TimSt := { s.tim with ports := others }
      { s with hub := s.hub.set TIM.STATUS.SLAVE_PORT port, tim := t.setPort port { s.tim.port port with slave := true } }
  | some false => { s with
      hub := if s.hub.get TIM.STATUS.SLAVE_PORT = port then s.hub.set TIM.STATUS.SLAVE_PORT 0xFF else s.hub
      tim := s.tim.setPort port { s.tim.port port with slave := false, good := 0 } }
  | none => s

/-- PTP_FRAME_RECEIVE (R315): on a port with PTP_EN, a message of the service's domain is delivered with its receive
stamp; any other is dropped and counted. With SERVO 1 a Delay_Resp matched on the slave port produces a measurement
item (R318); an Announce with a valid offset sets `TIM.UTC`; a master answers a Delay_Req with its receive stamp. A port that is not UP
receives nothing, nor does any during a Shutter (R312). -/
def execPtpFrameReceive (f : PtpFrame) (s : State) : Host.Outcome State Fault Refusal :=
  let p := s.tim.port f.port
  let rx := s.rxStamp f.port f.sec f.ns f.frac
  .next (if s.hub.get1 TIM.PORT_CFG.PTP_EN f.port = 1 ∧ s.portUp f.port ∧ s.hub.get GLB.STATUS.FROZEN = 0 then
      if f.domain = s.tim.domain then
        let h1 := s.hub.emit (.token 0 "ptp" [f.port, f.kind, f.seq, rx.toNat])
        let h2 := match f.utc with
          | some o => if f.kind = 11 then (h1.set TIM.UTC.VALID 1).set TIM.UTC.OFFSET (o % 2 ^ 16).toNat else h1
          | none => h1
        let h3 := if s.hub.get TIM.CFG.SERVO = 1 ∧ f.kind = 9 ∧ f.seq = p.reqSeq ∧
            s.hub.get TIM.STATUS.SLAVE_PORT = f.port then
            h2.qpDeliver (s.hub.get TIM.CFG.MEAS_QP) true (measItem f.port p (stampOf f.tsSec f.tsNs) f.corr) else h2
        let s1 : State := { s with hub := h3, tim := s.tim.setPort f.port (p.take f rx s.tim.lockNs s.hub.elapsed) }
        let s2 := s1.ptpSlave f.port f.slave
        if f.kind = 1 ∧ s2.ptpRuns ∧ (s2.tim.port f.port).leads then s2.ptpSend f.port 9 f.seq ((stampBytes rx).map BitVec.toNat) else s2
      else { s with hub := (s.hub.err TIM.PTP_DROP.COUNT 0 0x1106 0).raiseRl { code := 0x1105 } }
    else s)

/-- The 16-bit words of a number, `k` of them. -/
def words16 (k v : Nat) : List Nat := (List.range k).map fun i => v / 65536 ^ i % 65536

/-- A one's complement sum of 16-bit words. -/
def onesFold (n : Nat) : Nat := if n = 0 then 0 else (n - 1) % 65535 + 1

/-- An Internet checksum updated for words that change (RFC 1624); a UDP checksum never becomes 0 by it (RFC 768). -/
def sumUpdate (c : Nat) (old new : List Nat) : Nat :=
  let r := 65535 - onesFold ((65535 - c) + (old.map (65535 - ·)).sum + new.sum)
  if r = 0 then 65535 else r

/-- The words of an originTimestamp and a correctionField. -/
def syncWords (sec ns : Nat) (corr : Int) : List Nat := words16 3 sec ++ words16 2 ns ++ words16 4 (corr % 2 ^ 64).toNat

/-- ONE_STEP_SYNC (R317): originTimestamp becomes the whole nanoseconds of the transmit stamp, correctionField grows by its
sub-nanosecond part; a UDP checksum of 0 stays 0, any other is updated incrementally. The operands are the MAC stamp and what the
frame held before: timestamp, correctionField and checksum. -/
def execOneStepSync (port sec ns frac oldSec oldNs : Nat) (oldCorr : Int) (udpSum : Option Nat) (s : State) : Host.Outcome State Fault Refusal :=
  let st := (s.txStamp port sec ns frac).toNat
  let sec1 := st / 65536 / 1000000000
  let ns1 := st / 65536 % 1000000000
  let corr := oldCorr + (st % 65536 : Nat)
  .next (if s.portUp port ∧ s.hub.get GLB.STATUS.FROZEN = 0 then
      { s with hub := s.hub.emit (.frame port "one-step-sync" ([sec1, ns1, (corr % 2 ^ 64).toNat] ++
        (match udpSum with
          | some 0 => [0]
          | some c => [sumUpdate c (syncWords oldSec oldNs oldCorr) (syncWords sec1 ns1 corr)]
          | none => []))) }
    else s)

/-- Clamp a signed log interval to its range (Table 19.5). -/
def clampLog (v lo hi : Int) : Int := min (max v lo) hi

/-- A signed byte. -/
def signed8 (n : Nat) : Int := wrapDiff 8 0 n

/-- Byte `i` of a body; missing bytes read as zero (R370). -/
def bodyU8 (b : List Byte) (i : Nat) : Nat := ((b.drop i).headD 0).toNat

/-- The little-endian number in `n` bytes of a body at offset `i`. -/
def bodyN (b : List Byte) (i n : Nat) : Nat := leNat ((b.drop i).take n)

/-- The port record a PTP_PORT body sets (Table 19.5). -/
def ptpPortOf (body : List Byte) : PtpPort :=
  { role := if bodyU8 body 1 ≤ 3 then bodyU8 body 1 else 0, flags := bodyU8 body 2 % 8,
    logSync := clampLog (signed8 (bodyU8 body 4)) (-7) 4, logAnnounce := clampLog (signed8 (bodyU8 body 5)) (-3) 4,
    logDelay := clampLog (signed8 (bodyU8 body 6)) (-7) 5 }

/-- PTP_PORT (Table 19.5): sets a port's role, flags and intervals; the port's dynamic state restarts. -/
def execPtpPort (e : CmdEnv) (body : List Byte) (s : State) : Host.Outcome State Fault Refusal :=
  let p := bodyU8 body 0
  .next (if p < 32 then
      ({ s with tim := { s.tim with ports := kvPut p (ptpPortOf body) s.tim.ports } } : State).done e 0x0A01 0 []
    else s.done e 0x0A01 3 [])

/-- The state of a port as PTP_STATS numbers it: its role, or 3 where it is slave. -/
def PtpPort.stateNo (p : PtpPort) : Nat := if p.role = 0 then 0 else if p.slave then 3 else p.role

/-- At a publication the statistics of every port are taken (R89). -/
def TimSt.publish (t : TimSt) : TimSt := { t with ports := t.ports.map fun e => (e.1, { e.2 with pub := (e.2.stateNo, e.2.offset, e.2.delay) }) }

/-- PTP_STATS (Table 19.5): the port state, the offset from the master and the mean path delay, as of the last publication. -/
def execPtpStats (e : CmdEnv) (body : List Byte) (s : State) : Host.Outcome State Fault Refusal :=
  let p := (s.tim.port (bodyU8 body 0)).pub
  .next (if bodyU8 body 0 < 32 then
      s.done e 0x0A02 0 (leBytes 1 p.1 ++ leBytes 7 0 ++ leBytes 8 (p.2.1 % 2 ^ 64).toNat ++ leBytes 8 (p.2.2 % 2 ^ 64).toNat)
    else s.done e 0x0A02 3 [])

/-- The interval of a message type on a port (Table 19.5). -/
def PtpPort.interval (p : PtpPort) (kind : Nat) : Nat :=
  logNs (if kind = 11 then p.logAnnounce else if kind = 1 then p.logDelay else p.logSync)

/-- PTP_MESSAGE_TIMER (R314): at its interval a port of the service sends Sync (0) or Announce (11) as master, Delay_Req
(1) as slave; a port whose PTP_EN is 0 or whose role is disabled sends nothing (Table 19.5). The MAC stamp of the departing frame (s, ns,
2^−16 ns) gives t3 of a Delay_Req, and the Follow_Up of a two-step Sync (R317). -/
def execPtpMessageTimer (port kind sec ns frac : Nat) (s : State) : Host.Outcome State Fault Refusal :=
  let p := s.tim.port port
  let stamp := s.txStamp port sec ns frac
  let p1 : PtpPort := { p with seq := (p.seq + 1) % 65536, sent := kvPut kind s.hub.elapsed p.sent }
  let p2 := if kind = 1 then { p1 with reqSeq := p.seq, t3 := stamp } else p1
  let early : Bool := match kvGet kind p.sent with
    | some t => decide (s.hub.elapsed < t + p.interval kind)
    | none => false
  .next (if s.ptpRuns ∧ s.hub.get1 TIM.PORT_CFG.PTP_EN port = 1 ∧ p.role ≠ 0 ∧ !early ∧ (if kind = 1 then p.slave else p.leads) then
      let s1 : State := { s with tim := s.tim.setPort port p2 }
      if kind = 11 then s1.ptpSend port 11 p.seq [s.tim.priority1, s.tim.priority2, s.hub.get TIM.UTC.VALID, s.hub.get TIM.UTC.OFFSET]
      else
        let s2 := s1.ptpSend port kind p.seq []
        if kind = 0 ∧ !p.flags.testBit 0 then s2.ptpSend port 8 p.seq ((stampBytes stamp).map BitVec.toNat) else s2
    else s)

end Sys2Proof.Machine
end

