-- ==== Sys2Proof/Machine/Fabric.lean ====
section
/-!
DEFINITION. The self-timed fabric and the Louvre's arbiters: unit references (R28), islands (R24), pace monitors, the
supply loop and the pace emergency (R25–R27, R74, R409), sashes and exclusive ports (R29–R32), resources and grants
(R61–R66), spares (R70).
-/

namespace Sys2Proof.Machine

/-! ### Unit references (R28) -/

/-- The type, instance and port of a unit reference, and the reference with its port bits cleared. -/
def refType (r : Nat) : Nat := r / 1024 % 64
def refInst (r : Nat) : Nat := r / 8 % 128
def refPort (r : Nat) : Nat := r % 8
def refUnit (r : Nat) : Nat := r / 8 * 8

/-- The reference of a unit's port 0. -/
def mkRef (ty inst : Nat) : Nat := ty * 1024 + inst * 8

/-- Ports listed for a unit type (Table 2.7). -/
def portCount (ty : Nat) : Nat :=
  match ty with
  | 1 => 2
  | 3 => 8
  | 4 => 2
  | 5 => 2
  | 8 => 8
  | 15 => 8
  | _ => if ty ≤ 16 then 1 else 0

/-- Is the port a reference names exclusive (Table 2.7)? -/
def exclusivePort (r : Nat) : Bool := refType r == 3 || refType r == 10 || refType r == 11 || refType r == 12 || refType r == 13

/-- The built port record of an Ethernet port (1), a Jorras link (2) or an SDI lane (3). -/
def FabSt.port (f : FabSt) (kind number : Nat) : Option PortRec :=
  f.ports.find? fun p => p.kind = kind ∧ p.number = number

/-- The mode code SDI_TX of Table 18.1. -/
def modeSdiTx : Nat := 0x2001

/-- Is an HBM stack in service? FAILED stacks are absent (R22). `MEM.HBM_STAT.STATE` 2 is IN_SERVICE,
4 SELF_REFRESH (Table 17.6). -/
def Hub.stackUp (h : Hub) (n : Nat) : Bool :=
  decide (n < h.unitCount 15) && (h.get1 MEM.HBM_STAT.STATE n == 2 || h.get1 MEM.HBM_STAT.STATE n == 4)

/-- R28: does a reference name an absent unit? `usePort` where the port is used. -/
def State.absentRef (s : State) (r : Nat) (usePort : Bool) : Bool :=
  let ty := refType r
  let i := refInst r
  if ty = 0 then false
  else if 17 ≤ ty then true
  else if s.hub.unitCount ty ≤ i then true
  else if usePort ∧ portCount ty ≤ refPort r then true
  else match ty with
    | 10 => (s.fab.port 1 i).isNone
    | 14 => (s.fab.port 2 i).isNone
    | 13 => match s.fab.port 3 i with
      | some p => p.mode != modeSdiTx
      | none => true
    | 15 => !s.hub.stackUp i
    | _ => false

/-! ### Islands (R23, R24) -/

/-- An island's number: the lanes, the PCIe PHY, the HBM PHYs, the time counter (Table 2.1). -/
def islandCode : Island → Nat
  | .lane n => n
  | .pcie => 96
  | .hbm n => 97 + n
  | .time => 99

/-- The datapath of a crossing in bits (Table 2.1). -/
def islandWidth : Island → Nat
  | .lane _ => 64
  | .pcie => 2048
  | .hbm _ => 1024
  | .time => 96

/-- Is an island up? -/
def State.up (s : State) (i : Island) : Bool := !s.fab.down.contains i

/-- The synchroniser discards `n` packets, flits or bursts whole and counts them (R24). -/
def State.discard (s : State) (i : Island) (n : Nat) : State :=
  { s with fab := { s.fab with discards := kvPut (islandCode i) ((kvGet (islandCode i) s.fab.discards).getD 0 + n) s.fab.discards } }

/-- The core withholds acknowledges while it is frozen (R391). -/
def State.withholds (s : State) : Bool := s.hub.get GLB.STATUS.FROZEN == 1

/-- An island that is up offers `bytes` bytes while the core withholds acknowledges: the island-side FIFO of 8 entries fills (R23). -/
def State.offer (s : State) (i : Island) (bytes : Nat) : State :=
  if s.withholds && s.up i then
    let n := (kvGet (islandCode i) s.fab.sync).getD 0 + ceilDiv (8 * bytes) (islandWidth i)
    { s with fab := { s.fab with sync := kvPut (islandCode i) (min n 8) s.fab.sync } }
  else s

/-- Does an island apply its own flow control: is its FIFO full (R23)? -/
def State.flowControl (s : State) (i : Island) : Bool := (kvGet (islandCode i) s.fab.sync).getD 0 == 8

/-- Acknowledges resume: the FIFOs drain into the core (R23, R392). -/
def State.syncDrain (s : State) : State := { s with fab := { s.fab with sync := [] } }

/-- An island is lost: the synchroniser raises `ISLAND_DOWN` once per loss (R24). -/
def State.islandLost (s : State) (i : Island) : State :=
  if s.up i then
    let h := s.hub.raise { code := 0x020A }
    { s with
      hub := { h with pcieDown := h.pcieDown || i == .pcie }
      fab := { s.fab with down := s.fab.down ++ [i], sync := kvDel (islandCode i) s.fab.sync } }
  else s

/-- An island is back (R24). -/
def State.islandBack (s : State) (i : Island) : State :=
  { s with
    hub := { s.hub with pcieDown := s.hub.pcieDown && i != .pcie }
    fab := { s.fab with down := s.fab.down.filter (· ≠ i) } }

/-- ISLAND_DOWN (R24): the core is offered no token from the island and its transmit tokens are discarded while it is in `down`. -/
def execIslandDown (i : Island) (s : State) : Host.Outcome State Fault Refusal := .next (s.islandLost i)

/-! ### Pace (R25, R27) -/

/-- PACE of a window from the ring's count (R25). -/
def paceOf (count : Nat) : Nat := ceilDiv 134217728 count

/-- Is a window's value valid (R25)? A ring that counted nothing has no value. -/
def paceValid (count : Nat) : Bool := decide (0 < count ∧ 3277 ≤ paceOf count ∧ paceOf count ≤ 16384)

/-- One monitor publishes its window (Table 2.2, `MON_INVALID` of Table 2.13). A count of 0 gives no PACE: the DETAIL
item is then a free value. -/
def Hub.monitor (h : Hub) (seen : Bool) (n count : Nat) : Hub :=
  if paceValid count then (h.set1 GLB.PACE_MON.PACE n (paceOf count)).set1 GLB.PACE_MON.VALID n 1
  else
    let h1 := h.set1 GLB.PACE_MON.VALID n 0
    if h.get1 GLB.PACE_MON.VALID n = 1 ∨ !seen then
      h1.freeTick.raise { code := 0x0206, detail := [n, if count = 0 then h1.freeVal (2 ^ 32) else paceOf count] }
    else h1

/-- All monitors, in order of index. -/
def Hub.monitors (h : Hub) (seen : Bool) (n : Nat) : List Nat → Hub
  | [] => h
  | c :: t => (h.monitor seen n c).monitors seen (n + 1) t

/-- The valid monitors of a window, as (index, PACE). -/
def validPaces (n : Nat) : List Nat → List (Nat × Nat)
  | [] => []
  | c :: t => if paceValid c then (n, paceOf c) :: validPaces (n + 1) t else validPaces (n + 1) t

/-- The highest PACE with the lowest index that has it. -/
def worstPace : List (Nat × Nat) → Option (Nat × Nat)
  | [] => none
  | (i, p) :: t =>
    match worstPace t with
    | some (j, q) => if p < q then some (j, q) else some (i, p)
    | none => some (i, p)

/-- `GLB.PACE_SUM` without EMERG (Table 2.3). With no valid monitor WORST reads 0; WORST_ID is then not stated, a free
value. -/
def Hub.paceSum (h : Hub) (v : List (Nat × Nat)) : Hub :=
  match worstPace v with
  | some (i, p) => ((h.set GLB.PACE_SUM.VALID_CNT v.length).set GLB.PACE_SUM.WORST p).set GLB.PACE_SUM.WORST_ID i
  | none =>
    (((h.set GLB.PACE_SUM.VALID_CNT 0).set GLB.PACE_SUM.WORST 0).set GLB.PACE_SUM.WORST_ID (h.freeVal 32)).freeTick

/-- Sashes with a request held at an arbiter whose class a pace emergency stops (R74). -/
def FabSt.stopped (f : FabSt) : List Nat :=
  (f.held.filterMap fun q =>
    if f.sashes.any (fun d => d.id = q.req.sash ∧ d.cls ≠ 0) then some q.req.sash else none).eraseDups

/-- Mark sashes EMERG_HELD. -/
def Hub.emergHold (h : Hub) (l : List Nat) : Hub := l.foldl (fun a n => a.set1 GLB.SASH_STAT.EMERG_HELD n 1) h

/-- The emergency of R27 is raised: EMERG, `PACE_EMERGENCY`, and the Louvre's hold (Table 4.4). -/
def State.emergRaise (s : State) : State :=
  { s with
    hub := (((((s.hub.set GLB.PACE_SUM.EMERG 1).set LVR.STATUS.EMERG 1).raise { code := 0x0201 })).raise
      { code := 0x0402 }).emergHold s.fab.stopped
    fab := { s.fab with clearRun := 0, releaseDue := false } }

/-- The emergency clears (R27): held work becomes eligible at the next boundary (R75). -/
def State.emergClear (s : State) : State :=
  { s with
    hub := ((s.hub.set GLB.PACE_SUM.EMERG 0).set LVR.STATUS.EMERG 0).raise { code := 0x0202 }
    fab := { s.fab with clearRun := 0, releaseDue := true } }

/-- The comparator's test at the end of a window (R27). -/
def State.emergTest (s : State) : State :=
  let cnt := s.hub.get GLB.PACE_SUM.VALID_CNT
  let worst := s.hub.get GLB.PACE_SUM.WORST
  let s1 := if cnt = 0 then { s with fab := { s.fab with emergForced := true } } else s
  if s1.hub.get GLB.PACE_SUM.EMERG = 0 then
    if cnt = 0 ∨ 8520 ≤ worst then s1.emergRaise else s1
  else if s1.fab.emergForced then s1
  else if worst ≤ 8355 then
    if 7 ≤ s1.fab.clearRun then s1.emergClear
    else { s1 with fab := { s1.fab with clearRun := s1.fab.clearRun + 1 } }
  else { s1 with fab := { s1.fab with clearRun := 0 } }

/-- The windows end: monitors and summary. -/
def State.paceWindow (s : State) (counts : List Nat) : State :=
  { s with
    hub := (s.hub.monitors s.fab.monSeen 0 (counts.take 32)).paceSum (validPaces 0 (counts.take 32))
    fab := { s.fab with monSeen := true } }

/-- PACE_WINDOW_END (R25, R27): the 32 rings' counts over 1,024 ticks. -/
def execPaceWindowEnd (counts : List Nat) (s : State) : Host.Outcome State Fault Refusal :=
  .next (s.paceWindow counts).emergTest

/-! ### Supply loop (R26, R409) -/

/-- The power cap in W: 0 acts as the part's maximum (Table 20.8). -/
def Hub.capW (h : Hub) : Nat :=
  if h.get DBT.POWER.CAP_W = 0 then partPower (h.get GLB.VARIANT.PART) else h.get DBT.POWER.CAP_W

/-- The pace target in force (Table 2.5). -/
def Hub.paceTarget (h : Hub) : Nat := min (max (h.get GLB.PACE_LOOP.TARGET) 5407) 8355

/-- One step up would exceed the cap (R409): current in mA, power in µW. -/
def Hub.overCap (h : Hub) (ma : Nat) : Bool :=
  decide (h.capW * 1000000 < (h.get GLB.PACE_LOOP.VDD_MV + 5) * ma + otherRails (h.get GLB.VARIANT.PART) * 1000000)

/-- Command VDD_CORE over AVSBus. -/
def Hub.setVdd (h : Hub) (mv : Nat) : Hub := (h.set GLB.PACE_LOOP.VDD_MV mv).emit (.avs mv)

/-- Enter a loop STATE; `code` is raised when the loop enters it from another. -/
def Hub.loopEnter (h : Hub) (st : Nat) (code : Option Nat) : Hub :=
  match code with
  | some c => if h.get GLB.PACE_LOOP.STATE = st then h else (h.set GLB.PACE_LOOP.STATE st).raise { code := c }
  | none => h.set GLB.PACE_LOOP.STATE st

/-- One evaluation: the first matching row of Table 2.4. Answers the state and whether the loop entered FAILSAFE. -/
def State.supplyEval (s : State) (ma : Nat) : State :=
  let h := s.hub
  let worst := h.get GLB.PACE_SUM.WORST
  let v := h.get GLB.PACE_LOOP.VDD_MV
  let low := worst + 164 < h.paceTarget
  let run := if low then s.fab.lowRun + 1 else 0
  if h.get GLB.PACE_LOOP.STATE = 5 then s
  else if h.get GLB.PACE_SUM.VALID_CNT < 24 then
    { s with hub := (h.setVdd 800).loopEnter 5 (some 0x0205), fab := { s.fab with lowRun := 0 } }
  else if h.paceTarget + 82 < worst then
    { s with
      hub := if 850 ≤ v then h.loopEnter 3 (some 0x0203)
        else if h.overCap ma then h.loopEnter 4 (some 0x0204)
        else (h.setVdd (v + 5)).loopEnter 1 none
      fab := { s.fab with lowRun := 0 } }
  else if 8 ≤ run ∧ 600 < v then
    { s with hub := (h.setVdd (v - 5)).loopEnter 2 none, fab := { s.fab with lowRun := 0 } }
  else { s with hub := h.loopEnter 0 none, fab := { s.fab with lowRun := run } }

/-! ### Resources (R61) -/

/-- The grain G of a resource (Tables 4.1 and 4.2); for PCIe DMA the maximum payload size, at most 4,096. -/
def Hub.grain (h : Hub) (kind index : Nat) : Nat :=
  match kind with
  | 0 => match refType index with
    | 1 => 8192
    | 2 => 4096
    | 3 => 2048
    | 4 => 1024
    | 5 => 1024
    | 6 => 512
    | 8 => 10
    | _ => 1
  | 5 => min (128 * 2 ^ h.get HIF.LINK.MPS) 4096
  | _ => 1

/-- GT/s of a PCIe generation. -/
def pcieRate (gen : Nat) : Nat :=
  match gen with
  | 1 => 2
  | 2 => 5
  | 3 => 8
  | 4 => 16
  | 5 => 32
  | 6 => 64
  | 7 => 128
  | _ => 0

/-- What a resource delivers in one period at the slow corner (Table 4.1). -/
def gross (kind : Nat) : Nat :=
  match kind with
  | 1 => 400000
  | 5 => 27500000
  | _ => if kind ≤ 5 then 240384 else 0

/-- The fixed reservation of a requester at each resource of a kind (Table 4.1, R62): 0x400 refresh, 0x401 scrubber, 0x402 BIST, 0x403
Deadbolt. -/
def reserved (kind sash : Nat) : Nat :=
  match kind, sash with
  | 1, 0x400 => 85280
  | 1, 0x401 => 16
  | 1, 0x403 => 64
  | 3, 0x401 => 16
  | 5, 0x403 => 65536
  | _, _ => 0

/-- Bus turnaround and row change of a pseudo-channel group in a period (Table 4.1). -/
def turnaround : Nat := 21672

/-- Budgetable tokens per period (Table 4.1); KIND 5 scales with the trained link (R364; 2.5 GT/s counts as 2.5). -/
def Hub.budgetable (h : Hub) (kind : Nat) : Nat :=
  match kind with
  | 0 => 240000
  | 1 => gross 1 - reserved 1 0x400 - reserved 1 0x401 - reserved 1 0x403 - turnaround
  | 2 => 240000
  | 3 => 240000
  | 4 => 195312
  | 5 =>
    let rate2 := if h.get HIF.LINK.GEN = 1 then 5 else 2 * pcieRate (h.get HIF.LINK.GEN)
    (gross 5 - reserved 5 0x403) * rate2 * h.get HIF.LINK.WIDTH / (2 * 128 * 16)
  | _ => 0

/-- The resource an index names: port bits are dropped for KIND 0 and 4; bit [0] is the direction for KIND 5 (R28, R61, Table 4.6). -/
def resIndex (kind index : Nat) : Nat := if kind = 0 ∨ kind = 4 then refUnit index else if kind = 5 then index % 2 else index

/-- The same of a slat, whose INDEX is ignored for KIND 5: it books both directions (Table 3.10, R61). -/
def slatIndex (kind index : Nat) : Nat := if kind = 5 then 0 else resIndex kind index

/-- The arbiter that serves what an index names: for KIND 0 and 4 that of the unit whose hardware serves it (R71). -/
def Hub.hwIndex (h : Hub) (kind index : Nat) : Nat :=
  let i := resIndex kind index
  if (kind = 0 ∨ kind = 4) ∧ 1 ≤ refType i ∧ refType i ≤ 12 then mkRef (refType i) (h.get2 DBT.CH.SERVED_BY (refType i) (refInst i)) else i

/-- Packet-buffer banks (Table 17.1). -/
def bufferBanks : Nat := 64

/-- Does a resource exist? -/
def State.resPresent (s : State) (kind index : Nat) : Bool :=
  match kind with
  | 0 => refType index != 0 && !s.absentRef index false
  | 1 => refType index == 15 && !s.absentRef index true
  | 2 => s.fab.paths.any (·.id = index)
  | 3 => decide (index < bufferBanks)
  | 4 => refType index == 7 && !s.absentRef index false
  | 5 => true
  | _ => false

/-- The slats loaded at a resource, in slat order (R40). -/
def FabSt.slatsAt (f : FabSt) (kind index : Nat) : List SlatRec :=
  f.slats.filter fun t => t.kind = kind ∧ slatIndex kind t.index = slatIndex kind index

/-- The slats an arbiter serves, in slat order (R40, R71): of a spare taken, the moved slats first and its own below them. -/
def FabSt.slatsHw (f : FabSt) (h : Hub) (kind hw : Nat) : List SlatRec :=
  let l := f.slats.filter fun t => t.kind = kind ∧ (kind = 5 ∨ h.hwIndex kind t.index = hw)
  let own := fun (t : SlatRec) => kind == 5 || resIndex kind t.index == hw
  l.filter (fun t => !own t) ++ l.filter own

/-- The AMOUNT of a sash's slats at an arbiter, saturating (R63). -/
def FabSt.amountHw (f : FabSt) (h : Hub) (kind hw sash : Nat) : Nat :=
  min (((f.slatsHw h kind hw).filter (·.sash = sash)).foldl (fun a t => a + t.amount) 0) 0xFFFFFFFF

/-- The AMOUNT of a sash at a resource, saturating (R63). -/
def FabSt.amount (f : FabSt) (kind index sash : Nat) : Nat :=
  min (((f.slatsAt kind index).filter (·.sash = sash)).foldl (fun a t => a + t.amount) 0) 0xFFFFFFFF

/-- `LVR.RES_BOOKED` (Table 4.6). -/
def FabSt.booked (f : FabSt) (kind index : Nat) : Nat :=
  min ((f.slatsAt kind index).foldl (fun a t => a + t.amount) 0) 0xFFFFFFFF

/-- A sash's class: 0 Live, 1 Near-live, 2 Best-effort. -/
def FabSt.cls (f : FabSt) (sash : Nat) : Nat :=
  match f.sashes.find? (·.id = sash) with
  | some d => d.cls
  | none => 2

/-- The token counter of a sash at an arbiter, if it has a loaded slat there. -/
def FabSt.counter (f : FabSt) (kind hw sash : Nat) : Option TokenCtr :=
  f.counters.find? fun c => c.kind = kind ∧ c.index = resIndex kind hw ∧ c.sash = sash

/-- Replace a token counter. -/
def FabSt.setCounter (f : FabSt) (c : TokenCtr) : FabSt :=
  { f with counters := f.counters.map fun d =>
      if d.kind = c.kind ∧ d.index = c.index ∧ d.sash = c.sash then c else d }

/-- Token counters of the slats loaded, one for each sash at each arbiter: those that were keep their count, new ones wait for the next
refill (R63). -/
def FabSt.recount (f : FabSt) (h : Hub) : FabSt :=
  let keys := (f.slats.flatMap fun t =>
    if t.kind = 5 then [(t.kind, 0, t.sash), (t.kind, 1, t.sash)] else [(t.kind, h.hwIndex t.kind t.index, t.sash)]).eraseDups
  { f with counters := keys.map fun k => (f.counter k.1 k.2.1 k.2.2).getD { kind := k.1, index := k.2.1, sash := k.2.2, count := 0 } }

/-- What stood at the arbiter of hardware `i` of a type moves to that of `k` (R71): counters, with what a sash had at both added up, and
held requests. -/
def FabSt.rekey (f : FabSt) (ty i k : Nat) : FabSt :=
  let here := fun (kind index : Nat) => (kind == 0 || kind == 4) && index == mkRef ty i
  let join := fun (l : List TokenCtr) (c : TokenCtr) =>
    if l.any fun d => d.kind = c.kind ∧ d.index = c.index ∧ d.sash = c.sash then
      l.map fun d => if d.kind = c.kind ∧ d.index = c.index ∧ d.sash = c.sash then { d with count := d.count + c.count, tag := max d.tag c.tag } else d
    else l ++ [c]
  { f with
    counters := (f.counters.map fun c => if here c.kind c.index then { c with index := mkRef ty k } else c).foldl join []
    held := f.held.map fun q => if here q.kind q.index then { q with index := mkRef ty k } else q }

/-! ### Grants (R62–R66) -/

/-- The number under which BAR2's requests stand at an arbiter of HBM: the spec gives them none (DESIGN CHOICE, assumption 129). -/
def bar2Sash : Nat := 0x404

/-- What a fixed reservation has left in the running period (R62). -/
def FabSt.resvLeft (f : FabSt) (kind index sash : Nat) : Nat :=
  reserved kind sash - (((f.resv.find? fun r => r.kind = kind ∧ r.index = index ∧ r.sash = sash).map ResvUse.used).getD 0)

/-- A fixed reservation is used. -/
def FabSt.resvTake (f : FabSt) (kind index sash n : Nat) : FabSt :=
  let here := fun (r : ResvUse) => r.kind == kind && r.index == index && r.sash == sash
  let was := ((f.resv.find? here).map ResvUse.used).getD 0
  { f with resv := f.resv.filter (fun r => !here r) ++ [⟨kind, index, sash, was + n⟩] }

/-- What decides a grant beside the requests: the parts of the state that the arbiters see. -/
structure ArbView where
  fab : FabSt
  hub : Hub
  emerg : Bool
  kind : Nat
  index : Nat

/-- The rank of a request at an arbiter (R64): 0 a fixed reservation that is due, 1–3 a tokened request of its class, 4 and 5 surplus of
Near-live and Best-effort (R65, R66); none where it is held. No slat or surplus grant is made while the fabric is closed (R417). BAR2 takes
surplus as Near-live, in an emergency what the Deadbolt's reservation has left, after the decodes (R326). -/
def ArbView.rank (v : ArbView) (q : ArbReq) : Option Nat :=
  if q.sash = bar2Sash then
    (if v.kind ≠ 1 ∨ v.fab.closed then none
     else if v.emerg then (if 0 < v.fab.resvLeft 1 v.index 0x403 then some 6 else none)
     else some 4)
  else if 0x400 ≤ q.sash then (if 0 < v.fab.resvLeft v.kind v.index q.sash then some 0 else none)
  else if v.fab.closed then none
  else match v.fab.counter v.kind v.index q.sash with
    | none => none
    | some c =>
      let cl := v.fab.cls q.sash
      if cl ≠ 0 ∧ v.emerg then none
      else if 0 < c.count then some (1 + cl)
      else if cl = 0 then none else some (3 + cl)

/-- What one grant of a request covers: at most a grain (R61), or what the reservation has left. -/
def ArbView.size (v : ArbView) (q : ArbReq) : Nat :=
  if q.sash = bar2Sash ∧ v.emerg then min q.cost (v.fab.resvLeft 1 v.index 0x403)
  else if 0x400 ≤ q.sash ∧ q.sash ≠ bar2Sash then min q.cost (v.fab.resvLeft v.kind v.index q.sash) else min q.cost (v.hub.grain v.kind v.index)

/-- Where the virtual time of surplus sharing in a class stands. -/
def ArbView.vkey (v : ArbView) (q : ArbReq) : Nat :=
  (v.kind * 65536 + v.index) * 2 + (if q.sash = bar2Sash then 0 else v.fab.cls q.sash - 1)

/-- The weight of a requester in surplus sharing: its tokens per period; 65,536 for BAR2 (R65, R326). -/
def ArbView.weight (v : ArbView) (q : ArbReq) : Nat :=
  if q.sash = bar2Sash then 65536 else max (v.fab.amountHw v.hub v.kind v.index q.sash) 1

/-- The virtual finish tag of a requester's last surplus grant. -/
def ArbView.lastTag (v : ArbView) (q : ArbReq) : Nat :=
  if q.sash = bar2Sash then (kvGet v.index v.fab.bar2Tags).getD 0
  else ((v.fab.counter v.kind v.index q.sash).map TokenCtr.tag).getD 0

/-- The virtual finish tag of a surplus request (R65): it starts at its sash's last tag or, where that lies behind, at the virtual time
(assumption 35). -/
def ArbView.finish (v : ArbView) (q : ArbReq) : Nat :=
  max (v.lastTag q) ((kvGet (v.vkey q) v.fab.vtime).getD 0) + ceilDiv (v.size q * 2 ^ 32) (v.weight q)

/-- Where a sash stands in slat order at an arbiter. -/
def ArbView.slatPos (v : ArbView) (sash : Nat) : Nat := ((v.fab.slatsHw v.hub v.kind v.index).takeWhile (·.sash ≠ sash)).length

/-- Does request `a` go before request `b`, which came later? Lower rank first; tokened requests by slat order; surplus by its virtual
finish tag, then slat order. Of fixed reservations the spec gives no order: the one presented first goes first (DESIGN CHOICE, assumption
97). -/
def ArbView.before (v : ArbView) (a b : ArbReq) : Bool :=
  match v.rank a, v.rank b with
  | some x, some y =>
    if x ≠ y then decide (x < y)
    else if x = 0 then true
    else if 4 ≤ x ∧ v.finish a ≠ v.finish b then decide (v.finish a < v.finish b)
    else decide (v.slatPos a.sash ≤ v.slatPos b.sash)
  | some _, none => true
  | _, _ => false

/-- The request granted, if any may be: the first in the order of R64. -/
def ArbView.pick (v : ArbView) : List ArbReq → Option ArbReq
  | [] => none
  | q :: t =>
    match v.pick t with
    | some r => if (v.rank q).isSome ∧ v.before q r then some q else some r
    | none => if (v.rank q).isSome then some q else none

/-- Charge a grant: a reservation its use; a tokened grant takes its size from the counter, which may go below 0 by the grain in
progress (R63); a surplus grant changes only the sash's share (R65). -/
def ArbView.charge (v : ArbView) (q : ArbReq) : FabSt :=
  let n := v.size q
  let k := v.kind * 65536 + v.index
  match v.rank q with
  | some 0 => v.fab.resvTake v.kind v.index q.sash n
  | some 6 => v.fab.resvTake 1 v.index 0x403 n
  | some r =>
    if q.sash = bar2Sash then
      { v.fab with bar2Tags := kvPut v.index (v.finish q) v.fab.bar2Tags, vtime := kvPut (v.vkey q) (v.finish q) v.fab.vtime }
    else match v.fab.counter v.kind v.index q.sash with
    | some c =>
      if r ≤ 3 then { v.fab.setCounter { c with count := c.count - n } with used := kvPut k ((kvGet k v.fab.used).getD 0 + n) v.fab.used }
      else { v.fab.setCounter { c with tag := v.finish q } with vtime := kvPut (v.vkey q) (v.finish q) v.fab.vtime }
    | none => v.fab
  | none => v.fab

/-- A grant of hc to a Hinge core is in force until it is used up or given up (R287). -/
def ArbView.grantCore (v : ArbView) (q : ArbReq) (f : FabSt) : FabSt :=
  if v.kind = 0 ∧ refType v.index = 5 ∧ q.sash < 0x400 then
    { f with grants := f.grants ++ [⟨v.index, q.sash, v.size q, decide (((v.rank q).getD 0) ≤ 3)⟩] }
  else f

/-- The grant in force of some hardware for a sash. -/
def FabSt.grantOf (f : FabSt) (hw sash : Nat) : Option CoreGrant := f.grants.find? fun g => g.hw = hw ∧ g.sash = sash

/-- `n` hc are charged to the grant in force; one whose tokens run out has ended with the grain, and hc beyond it are charged as a debt
(R63, R287). -/
def FabSt.useGrant (f : FabSt) (hw sash n : Nat) : FabSt :=
  match f.grantOf hw sash with
  | none => f
  | some g =>
    if n < g.left then { f with grants := f.grants.map fun x => if x = g then { g with left := g.left - n } else x }
    else
      let f1 : FabSt := { f with grants := f.grants.erase g }
      match f1.counter 0 hw sash with
      | some c => if g.tokened then f1.setCounter { c with count := c.count - ((n - g.left : Nat) : Int) } else f1
      | none => f1

/-- The grants in force of some hardware are given up, and what is left of them is not charged (R287). -/
def FabSt.giveUp (f : FabSt) (hw : Nat) : FabSt :=
  (f.grants.filter (·.hw = hw)).foldl (fun (a : FabSt) g =>
    match a.counter 0 hw g.sash with
    | some c => if g.tokened then a.setCounter { c with count := c.count + g.left } else a
    | none => a) { f with grants := f.grants.filter (·.hw ≠ hw) }

/-- What is left of a request after a grant of `n`: its next grain waits in its place, or nothing. -/
def grantReq (kind index : Nat) (q : ArbReq) (n : Nat) : List HeldReq → List HeldReq
  | [] => []
  | h :: t =>
    if h.kind = kind ∧ h.index = index ∧ h.req = q then (if n < q.cost then { h with req := { q with cost := q.cost - n } } :: t else t)
    else h :: grantReq kind index q n t

/-- Are slat and surplus grants made? From W1 of a warm start until the first boundary after READY none is (R417); none while the core
is frozen (R391). -/
def State.granting (s : State) : Bool := !s.fab.closed && s.hub.get GLB.STATUS.FROZEN == 0

/-- The path epoch of a sash (R30). -/
def State.epochOf (s : State) (n : Nat) : Bool := (kvGet n s.fab.epochs).getD false

/-- Does a pace emergency hold work? From its raise to the first boundary after it clears (R74, R75). -/
def State.emergency (s : State) : Bool := s.hub.get GLB.PACE_SUM.EMERG == 1 || s.fab.releaseDue

/-- Requests newly presented join those held at an arbiter. -/
def State.present (s : State) (kind hw : Nat) (reqs : List ArbReq) : State :=
  { s with fab := { s.fab with held := s.fab.held ++ reqs.map fun q => { kind := kind, index := hw, req := q } } }

/-- A grant opportunity (R64): the first request in the order of R64 is granted one grain, and the others stay held. A Near-live or
Best-effort request held by a pace emergency marks its sash (Table 4.4). -/
def State.arbiterGrant (s : State) (kind hw : Nat) : State :=
  let v : ArbView := ⟨s.fab, s.hub, s.emergency, kind, hw⟩
  let here := (s.fab.held.filter fun q => q.kind = kind ∧ q.index = hw).map (·.req)
  match v.pick here with
  | some q =>
    let f2 : FabSt := { v.grantCore q (v.charge q) with held := grantReq kind hw q (v.size q) s.fab.held }
    { s with
      hub := (if v.emerg then s.hub.emergHold f2.stopped else s.hub).emit (.token hw "grant" [kind, q.sash, v.size q])
      fab := f2 }
  | none => { s with hub := if v.emerg then s.hub.emergHold s.fab.stopped else s.hub }

/-- ARBITER_GRANT (R64) at the arbiter of a resource; while the core is frozen its requests are held (R391). -/
def execArbiterGrant (kind index : Nat) (reqs : List ArbReq) (s : State) : Host.Outcome State Fault Refusal :=
  let t := s.present kind (resIndex kind index) reqs
  .next (if s.hub.get GLB.STATUS.FROZEN = 1 then t else t.arbiterGrant kind (resIndex kind index))

/-! ### Sashes (R29–R32) -/

/-- The state of a sash (Table 2.8). -/
def Hub.sashState (h : Hub) (n : Nat) : Nat := h.get1 GLB.SASH_STAT.STATE n

/-- Enter a sash state with its BLOCKER (Table 2.9); entering NO_UNIT, STALLED or FAULTED raises its event. -/
def Hub.sashEnter (h : Hub) (n st blocker : Nat) : Hub :=
  let h1 := (h.set1 GLB.SASH_STAT.STATE n st).set1 GLB.SASH_STAT.BLOCKER n blocker
  match st with
  | 1 => h1.raise { code := 0x0207, sash := n, detail := [blocker] }
  | 5 => h1.raise { code := 0x0208, sash := n, detail := [blocker] }
  | 6 => h1.raise { code := 0x0209, sash := n }
  | _ => h1

/-- The references of a sash, with whether their port is checked, in image order (R44). One of type NONE takes no entry where it is
looked at (R28). An encoder's output ports are its renditions 0 to 7 (R157): every one of them is listed. -/
def sashRefs (d : SashRec) (paths : List PathRec) : List (Nat × Bool) :=
  let mine := paths.filter fun p => p.sash = d.id
  let ends := fun (p : PathRec) => [(p.src, refType p.src != 1), (p.dst, true)]
  (mine.filter (fun p => p.pos < d.pos)).flatMap ends ++ d.units.map (fun u => (u, false)) ++
    (mine.filter (fun p => d.pos ≤ p.pos)).flatMap ends

/-- The first reference that counts as absent: absent by R28, or of a unit that is the 65th or later of the union
(R44). `seen` holds the units met so far. -/
def State.firstAbsent (s : State) (seen : List Nat) : List (Nat × Bool) → Option Nat
  | [] => none
  | (r, used) :: t =>
    if refType r = 0 then s.firstAbsent seen t
    else
      let known := seen.contains (refUnit r)
      if s.absentRef r used ∨ (!known ∧ 64 ≤ seen.length) then some r
      else s.firstAbsent (if known then seen else seen ++ [refUnit r]) t

/-- The blocker of an owned partition on an absent stack (R20). -/
def State.partBlocker (s : State) (p : PartRec) : Option Nat :=
  match p.mem with
  | 0 => if s.hub.stackUp 0 then none else some (mkRef 15 0)
  | 1 => if s.hub.stackUp 1 then none else some (mkRef 15 1)
  | 2 => if s.hub.stackUp 0 then (if s.hub.stackUp 1 then none else some (mkRef 15 1)) else some (mkRef 15 0)
  | 3 => none
  | _ => some 0x3C10

/-- An ENC unit of the sash that 16 sashes before it in image order name already (R154). -/
def FabSt.encFull (f : FabSt) (d : SashRec) : Option Nat :=
  let before := f.sashes.takeWhile (·.id ≠ d.id)
  let names := fun (x : SashRec) (u : Nat) => (sashRefs x f.paths).any fun r => refUnit r.1 == u
  (((sashRefs d f.paths).map fun r => refUnit r.1).filter fun u => refType u = 1).find? fun u => 16 ≤ before.countP fun x => names x u

/-- What keeps a sash from building: the first absent reference (R20), an ENC unit that serves 16 sashes (R154), the first
owned partition without memory (R20). -/
def State.sashBlocker (s : State) (d : SashRec) : Option Nat :=
  match (s.firstAbsent [] (sashRefs d s.fab.paths)).orElse fun _ => s.fab.encFull d with
  | some r => some r
  | none => (s.fab.parts.filter (fun p => !p.shared ∧ p.owner = d.id)).findSome? s.partBlocker

/-- A unit whose slats are served by hardware that is retired (R72). -/
def Hub.unitLost (h : Hub) (r : Nat) : Bool :=
  let ty := refType r
  decide (1 ≤ ty ∧ ty ≤ 12) && h.get2 DBT.CH.STATE ty (h.get2 DBT.CH.SERVED_BY ty (refInst r)) == 3

/-- The holder of an exclusive port, if any. -/
def FabSt.holder (f : FabSt) (port : Nat) : Option BuiltPath :=
  f.built.find? fun b => b.dst = port ∧ !b.waiting

/-- Build one path (R29, R30): it takes a free port and waits at a held exclusive one; a rebuilt path that its sash still
holds keeps its port. -/
def FabSt.buildPath (f : FabSt) (p : PathRec) : FabSt :=
  let mine := fun (b : BuiltPath) => b.id == p.id && b.sash == p.sash && b.dst == p.dst && !b.waiting
  let kept := f.built.any mine
  let waits := !kept && exclusivePort p.dst && (f.holder p.dst).isSome
  { f with built := f.built.filter (fun b => !mine b) ++
      [⟨p.id, p.sash, p.src, p.dst, p.hops, (kvGet p.sash f.epochs).getD false, waits⟩] }

/-- Take the paths of a sash down (release of its ports, R29). -/
def FabSt.unbuild (f : FabSt) (sash : Nat) : FabSt := { f with built := f.built.filter (·.sash ≠ sash) }

/-- Waiting paths take ports that have become free: for each port, the waiting path first in image order among the
definitions in force (R29). -/
def FabSt.handOver (f : FabSt) : FabSt :=
  f.paths.foldl (fun a p =>
    if a.built.any (fun b => b.id = p.id ∧ b.waiting) ∧ (a.holder p.dst).isNone then
      { a with built := a.built.map fun b => if b.id = p.id then { b with waiting := false } else b }
    else a) f

/-- A sash's first path that waits, as the port it waits at. -/
def FabSt.waitsAt (f : FabSt) (sash : Nat) : Option Nat :=
  (f.built.find? fun b => b.sash = sash ∧ b.waiting).map (·.dst)

/-- Stalled sashes whose every path now holds its port run (Table 2.8). -/
def State.unstall (s : State) : State :=
  { s with hub := s.fab.sashes.foldl (fun h d =>
      if h.sashState d.id = 5 ∧ (s.fab.waitsAt d.id).isNone then h.sashEnter d.id 3 0 else h) s.hub }

/-! ### Spares (R70, R71) -/

/-- Types with spares (R70). -/
def spareType (ty : Nat) : Bool := decide (1 ≤ ty ∧ ty ≤ 8)

/-- Does instance `i` of a type carry a Live or Near-live slat: one whose INDEX names a unit that `i`'s hardware serves
(R70, R71)? -/
def State.carries (s : State) (ty i : Nat) : Bool :=
  s.fab.slats.any fun t =>
    t.kind = (if ty = 7 then 4 else 0) ∧ refType t.index = ty ∧ s.fab.cls t.sash ≠ 2 ∧
      s.hub.get2 DBT.CH.SERVED_BY ty (refInst t.index) = i

/-- Is instance `i` a spare of its type (R70)? -/
def State.isSpare (s : State) (ty i : Nat) : Bool :=
  spareType ty && decide (i < s.hub.unitCount ty) && decide (s.hub.get2 DBT.CH.STATE ty i < 2) && !s.carries ty i

/-- The lowest-numbered spare of a type, other than `not_` (R71). -/
def State.spare (s : State) (ty not_ : Nat) : Option Nat :=
  (List.range (s.hub.unitCount ty)).find? fun i => i ≠ not_ ∧ s.isSpare ty i

/-- Sashes that use a unit in force. -/
def FabSt.users (f : FabSt) (ty i : Nat) : List Nat :=
  (f.sashes.filter fun d => (sashRefs d f.paths).any fun r => refUnit r.1 = mkRef ty i).map (·.id)

/-- Sashes that hardware `i` of a type serves: those with a reference whose slats it serves (R71, R72). -/
def State.served (s : State) (ty i : Nat) : List Nat :=
  (s.fab.sashes.filter fun d => (sashRefs d s.fab.paths).any fun r =>
    refType r.1 = ty ∧ s.hub.get2 DBT.CH.SERVED_BY ty (refInst r.1) = i).map (·.id)

/-- Recompute `GLB.SASH_STAT.SPARE`: a reference of the sash is served by another instance (R71). -/
def State.markSpares (s : State) : State :=
  { s with hub := s.fab.sashes.foldl (fun h d =>
      h.set1 GLB.SASH_STAT.SPARE d.id (if (sashRefs d s.fab.paths).any (fun r =>
        decide (1 ≤ refType r.1 ∧ refType r.1 ≤ 12) && h.get2 DBT.CH.SERVED_BY (refType r.1) (refInst r.1) != refInst r.1)
        then 1 else 0)) s.hub }

/-- Every unit whose slats hardware `i` serves is served by `k` from now on (R71). -/
def Hub.serve (h : Hub) (ty i k : Nat) : Hub :=
  (List.range (h.unitCount ty)).foldl (fun a j =>
    if a.get2 DBT.CH.SERVED_BY ty j = i then a.set2 DBT.CH.SERVED_BY ty j k else a) h

/-- The slats hardware `i` serves move to spare `k` (R71), `LVR_SPARE_TAKEN` is raised, and the arbiters follow. -/
def State.takeSpare (s : State) (ty i k : Nat) : State :=
  { s with
    hub := (s.hub.serve ty i k).raise { code := 0x0408, channel := ty * 2 ^ 24 + i, detail := [mkRef ty i, mkRef ty k] }
    fab := s.fab.rekey ty i k }

/-- A unit whose retirement OTP brought to this start (R385) is first named by a sash: its slats are served by a spare, or
the want of one is reported (R71, R72, R383). -/
def State.otpSpare (s : State) (u : Nat) : State :=
  let ty := refType u
  let i := refInst u
  if spareType ty ∧ s.hub.unitLost u ∧ s.hub.get2 DBT.CH.CAUSE ty i = 5 then
    match s.spare ty i with
    | some k => s.takeSpare ty i k
    | none => { s with hub := s.hub.raise { code := 0x0407, channel := ty * 2 ^ 24 + i, detail := [ty, i] } }
  else s

/-! ### Building -/

/-- Set up the sashes named: NO_UNIT where a reference or owned partition is absent, FAULTED where a unit is lost, else
BUILDING with their paths claimed in image order (R20, R29, Table 2.8). -/
def State.startBuild (s0 : State) (ids : List Nat) : State :=
  let named := ((s0.fab.sashes.filter fun d => ids.contains d.id).flatMap fun d => (sashRefs d s0.fab.paths).map fun r => refUnit r.1).eraseDups
  let s := (named.foldl State.otpSpare s0).markSpares
  let verdict := fun (d : SashRec) =>
    match s.sashBlocker d with
    | some r => (1, r)
    | none => if (sashRefs d s.fab.paths).any (fun r => s.hub.unitLost r.1) then (6, 0) else (2, 0)
  let ds := s.fab.sashes.filter fun d => ids.contains d.id
  let builds := (ds.filter fun d => (verdict d).1 = 2).map (·.id)
  { s with
    hub := ds.foldl (fun h d => h.sashEnter d.id (verdict d).1 (verdict d).2) s.hub
    fab := (s.fab.paths.filter fun p => builds.contains p.sash ∧ refType p.src ≠ 0 ∧ refType p.dst ≠ 0).foldl
      FabSt.buildPath s.fab }

end Sys2Proof.Machine
end

