-- ==== Sys2Proof/Machine/LnkBase.lean ====
section
/-!
DEFINITION. States of lanes, Ethernet ports and Jorras links (Tables 18.6, 18.10, 18.11), routes (R357), narrowing (R356),
and the ports a start builds (R43, R341).
-/

namespace Sys2Proof.Machine

/-! ### Links and routes -/

def LnkSt.link (l : LnkSt) (n : Nat) : JlLink := (kvGet n l.links).getD {}
def State.setLink (s : State) (n : Nat) (x : JlLink) : State := { s with lnk := { s.lnk with links := kvPut n x s.lnk.links } }
def State.jlState (s : State) (n : Nat) : Nat := s.hub.get1 LNK.JL_STAT.STATE n
def LnkSt.lane (l : LnkSt) (n : Nat) : LaneSt := (kvGet n l.lanes).getD {}
def State.setLane (s : State) (n : Nat) (x : LaneSt) : State := { s with lnk := { s.lnk with lanes := kvPut n x s.lnk.lanes } }

/-- The port that carries a tunnel. -/
def State.tunnelPort (s : State) (n : Nat) : Nat := ((s.fab.port 2 n).map (·.first)).getD 0

/-- The lane that is logical lane `k` of a direct link (R343). -/
def State.logical (s : State) (p : PortRec) (k : Nat) : Nat :=
  p.first + (if s.hub.get1 LNK.JL_STAT.REVERSED p.number = 1 then p.lanes - 1 - k else k)

/-- The lanes of a direct link in use. -/
def State.jlLanes (s : State) (p : PortRec) : List Nat :=
  ((List.range p.lanes).filter fun k => (s.hub.get1 LNK.JL_STAT.MASK p.number).testBit k).map (s.logical p)

/-- The first lane in use of a direct link whose island is down, if any (R24). LINK flits, by which the ends agree on the lanes to use
(R356), cross while any lane of the link is up. -/
def State.linkDead (s : State) (n kind : Nat) : Option Island :=
  match s.fab.port 2 n with
  | some p =>
    if p.mode = 0x1100 then none
    else if kind = 9 ∧ (List.range p.lanes).any fun k => s.up (.lane (p.first + k)) then none
    else ((s.jlLanes p).map Island.lane).find? fun i => !s.up i
  | none => none

/-- Is a loopback of kind `v` selected on a lane of a list (R345)? -/
def State.loops (s : State) (v : Nat) (ls : List Nat) : Bool := ls.any fun l => s.hub.get1 LNK.LANE_CTL.LOOP l == v

/-! ### Flits (R350, Table 18.3) -/

def FlitHead.bytes (h : FlitHead) : List Byte :=
  leBytes 1 h.kind ++ leBytes 1 h.flags ++ leBytes 2 h.dst ++ leBytes 2 h.src ++ leBytes 2 h.seq ++ leBytes 2 h.ack ++ leBytes 1 h.len ++
    leBytes 1 h.cred

/-- A flit: its header, its payload with what fills it up to 240 bytes, and the CRC of both. -/
def flitBytes (h : FlitHead) (data : List Byte) : List Byte :=
  let b := h.bytes ++ fitBytes 240 data
  b ++ leBytes 4 (fcs32 b)

/-- The header of a received flit. -/
def headOf (b : List Byte) : FlitHead :=
  { kind := bodyU8 b 0, flags := bodyU8 b 1, dst := bodyN b 2 2, src := bodyN b 4 2, seq := bodyN b 6 2, ack := bodyN b 8 2
    len := bodyU8 b 10, cred := bodyU8 b 11 }

/-- Is the CRC of a received flit good? -/
def flitGood (b : List Byte) : Bool := leNat ((b.drop 252).take 4) == fcs32 (b.take 252)

def FlitHead.first (h : FlitHead) : Bool := h.flags.testBit 0
def FlitHead.last (h : FlitHead) : Bool := h.flags.testBit 1
def FlitHead.poison (h : FlitHead) : Bool := h.flags.testBit 2
def FlitHead.nak (h : FlitHead) : Bool := h.flags.testBit 3
def FlitHead.vc (h : FlitHead) : Nat := h.flags / 16 % 4
def FlitHead.an (h : FlitHead) : Nat := h.flags / 64 % 4
def FlitHead.device (h : FlitHead) : Nat := h.dst % 2048
def FlitHead.hops (h : FlitHead) : Nat := h.dst / 2048 % 8
def FlitHead.source (h : FlitHead) : Nat := h.src % 2048

/-- Payload bytes of a flit: a larger LEN acts as the most that fits beside the ICV. -/
def FlitHead.size (h : FlitHead) (secured : Bool) : Nat := min h.len (if secured then 224 else 240)

/-- The authenticated data of a secured flit: header bytes 0x00–0x07 and 0x0A (R354). -/
def FlitHead.aad (h : FlitHead) : List Byte := h.bytes.take 8 ++ (h.bytes.drop 10).take 1

def State.secured (s : State) (n : Nat) : Bool := s.hub.get1 LNK.JL_CFG.SEC n == 1

/-- The bytes of a tunnel's remote address. -/
def State.tunnelAddr (s : State) (n : Nat) : List Byte :=
  ((List.range 4).flatMap fun k => leBytes 4 (s.hub.get2 LNK.JL_TUN_ADDR.ADDR n k)).take (if s.hub.get1 LNK.JL_CFG.IPV6 n = 1 then 16 else 4)

/-- A tunnel's datagram of one flit: its 8-byte header and the flit (R358). -/
def State.datagram (s : State) (flit : List Byte) : List Byte :=
  [0x4A, 0x54, 0, 1] ++ leBytes 2 (s.hub.get LNK.CFG.DEVICE) ++ leBytes 2 0 ++ flit

/-- A flit leaves on a link with the link's ACK: a direct one carries it, or its synchroniser discards it while a lane's island is down
(R24), or sends idle at the balls in a near-end parallel loopback (R345); a tunnel offers a datagram of one flit from system queue 48 + n
(R358), which is shown with its source and destination ports and its destination address. -/
def State.flitOut (s : State) (n : Nat) (h : FlitHead) (data : List Byte) : State :=
  let b := flitBytes { h with ack := ((s.lnk.link n).got + 65535) % 65536 } data
  let p := s.tunnelPort n
  if s.hub.get1 LNK.JL_STAT.TUNNEL n = 1 then
    s.sysSend (48 + n) p (max 64 (14 + (if s.hub.get1 LNK.JL_CFG.IPV6 n = 1 then 40 else 20) + 8 + 8 + 256 + 4))
      (.frame p "tunnel" ([n, s.hub.get1 LNK.ETH_CFG.TUN_PORT p, s.hub.get1 LNK.JL_CFG.REMOTE_PORT n] ++
        (s.tunnelAddr n ++ s.datagram b).map BitVec.toNat))
  else match s.linkDead n h.kind with
    | some i => s.discard i 1
    | none => if ((s.fab.port 2 n).map fun r => s.loops 2 (s.jlLanes r)).getD false then s else { s with hub := s.hub.emit (.flit n b) }

/-- A flit that is not sequenced leaves for the link's other end (DESIGN CHOICE, assumption 133: its DST, SRC, SEQ and padding). -/
def State.plainOut (s : State) (n kind flags cred : Nat) (payload : List Byte) : State :=
  s.flitOut n { kind := kind, flags := flags, dst := s.hub.get1 LNK.JL_STAT.PEER n, src := s.hub.get LNK.CFG.DEVICE, seq := 0, ack := 0
                len := payload.length, cred := cred } payload

/-- Flits are dropped: DROP, and for a route `JL_DROP` (R357). -/
def State.jlDrop (s : State) (n k : Nat) (event : Bool) : State :=
  let h := s.hub.errN LNK.JL_DROP.COUNT n k 0x130D 0
  { s with hub := if event then h.raiseRl { code := 0x130A, detail := [n] } else h }

/-- The link a flit for a device takes (R357): PRIMARY while UP, else ALT while UP, else PRIMARY while it is HOLD or RETRAIN. -/
def State.jlRoute (s : State) (dev : Nat) : Option Nat :=
  let p := s.hub.get1 LNK.ROUTE.PRIMARY dev
  let a := s.hub.get1 LNK.ROUTE.ALT dev
  if s.hub.get1 LNK.ROUTE.VALID dev = 0 ∨ dev = s.hub.get LNK.CFG.DEVICE then none
  else if s.jlState p = 4 then some p
  else if s.hub.get1 LNK.ROUTE.ALT_VALID dev = 1 ∧ s.jlState a = 4 then some a
  else if s.jlState p = 5 ∨ s.jlState p = 8 then some p
  else none

/-- Flits that waited on a link that is now DOWN take their route anew. -/
def State.rewait (s : State) (n : Nat) (fs : List JlFlit) : State :=
  fs.foldl (fun a f => match a.jlRoute f.dst with
    | some m => a.setLink m { (a.lnk.link m) with wait := (a.lnk.link m).wait ++ [f] }
    | none => a.jlDrop n 1 true) s

/-! ### States -/

/-- A Jorras link enters a state (Table 18.6). DOWN discards the replay buffer, each flit counted in DROP; training starts
both directions afresh. -/
def State.jlEnter (s : State) (n st : Nat) : State :=
  let old := s.jlState n
  let x := s.lnk.link n
  let h := s.hub.set1 LNK.JL_STAT.STATE n st
  if old = st then s
  else match st with
    | 1 =>
      let h1 := h.errN LNK.JL_DROP.COUNT n x.replay.length 0x130D 0
      let h2 := if old = 4 then h1.raise { code := 0x1306, detail := [n] } else h1
      (({ s with hub := h2 } : State).setLink n { x with replay := [], wait := [], parts := [], naked := false }).rewait n x.wait
    | 2 => ({ s with hub := h } : State).setLink n { heard := s.hub.elapsed }
    | 4 =>
      { s with hub := h.raise { code := 0x1305, detail := [n, h.get1 LNK.JL_STAT.PEER n, h.get1 LNK.JL_LEVEL.LEVEL n, h.get1 LNK.JL_STAT.WIDTH n] } }
    | 6 => { s with hub := h.raise { code := 0x1308, detail := [n, 6] } }
    | 7 => { s with hub := h.raise { code := 0x1308, detail := [n, 7] } }
    | 8 => ({ s with hub := h } : State).setLink n { x with holdAt := s.hub.elapsed }
    | _ => { s with hub := h }

/-- An Ethernet port enters a state (Table 18.11): UP reads HOLD during the device's own Shutter. -/
def State.ethEnter (s : State) (p st : Nat) : State :=
  let old := s.hub.get1 LNK.ETH_STAT.STATE p
  let new := if st = 3 ∧ s.hub.get GLB.STATUS.FROZEN = 1 then 4 else st
  let h := s.hub.set1 LNK.ETH_STAT.STATE p new
  { s with hub :=
      if old = new then s.hub
      else if st = 3 then h.raise { code := 0x1303, detail := [p] }
      else if old = 3 ∨ old = 4 then h.raise { code := 0x1304, detail := [p] }
      else h }

/-- The links at a freeze (R359): UP Ethernet ports send idle and read HOLD, direct links send HOLD flits from their islands. -/
def State.linksFreeze (s : State) : State :=
  s.fab.ports.foldl (fun (a : State) p =>
    if p.kind = 1 then { a with hub := if a.hub.get1 LNK.ETH_STAT.STATE p.number = 3 then a.hub.set1 LNK.ETH_STAT.STATE p.number 4 else a.hub }
    else if p.kind = 2 ∧ p.mode ≠ 0x1100 ∧ 3 ≤ a.jlState p.number ∧ a.jlState p.number ≠ 5 then a.plainOut p.number 8 0 0 []
    else a) s

/-- At the resume they carry traffic again. -/
def State.linksResume (s : State) : State :=
  s.fab.ports.foldl (fun (a : State) p =>
    { a with hub := if p.kind = 1 ∧ a.hub.get1 LNK.ETH_STAT.STATE p.number = 4 then a.hub.set1 LNK.ETH_STAT.STATE p.number 3 else a.hub }) s

/-! ### Lanes -/

/-- The lanes of a built port record: a tunnel names none. -/
def PortRec.laneList (p : PortRec) : List Nat := if p.mode = 0x1100 then [] else (List.range p.lanes).map (p.first + ·)

/-- Does the core take what port `p` receives: not in a far-end loopback (R345)? -/
def State.portHears (s : State) (p : Nat) : Bool := !((s.fab.port 1 p).map fun r => s.loops 3 r.laneList).getD false

/-- Does the core take what a link receives (R24, R345, R391)? -/
def State.jlListens (s : State) (n kind : Nat) : Bool :=
  match s.fab.port 2 n with
  | some p =>
    s.hub.get GLB.STATUS.FROZEN == 0 &&
      (if p.mode = 0x1100 then s.portUp p.first && s.portHears p.first else (s.linkDead n kind).isNone && !s.loops 3 (s.jlLanes p))
  | none => false

/-- The built port that names a lane. -/
def FabSt.portOfLane (f : FabSt) (n : Nat) : Option PortRec := f.ports.find? fun p => p.laneList.contains n

/-- Lanes of an Ethernet port (1) or Jorras link (2). -/
def FabSt.lanesOf (f : FabSt) (kind number : Nat) : List Nat :=
  match f.port kind number with
  | some p => p.laneList
  | none => []

/-- A lane sleeps in both directions and reads a state: SLEEP or RETIRED. -/
def Hub.laneSleep (h : Hub) (n st : Nat) : Hub :=
  (((h.set1 LNK.LANE_STAT.STATE n st).set1 LNK.LANE_STAT.TX_ACTIVE n 0).set1 LNK.LANE_STAT.RX_ACTIVE n 0).set1 LNK.LANE_STAT.FOM n 0

/-- A lane begins to calibrate (1) or adapt (2), awake as its SLEEP bits and its port allow. -/
def Hub.laneBegin (h : Hub) (n st : Nat) (tx rx : Bool) : Hub :=
  let h1 := (h.set1 LNK.LANE_STAT.TX_ACTIVE n (if tx then 1 else 0)).set1 LNK.LANE_STAT.RX_ACTIVE n (if rx then 1 else 0)
  (h1.set1 LNK.LANE_STAT.STATE n (if rx then st else 0)).set1 LNK.LANE_STAT.FOM n 0

/-- The logical lanes of a direct link that are not retired (R356). -/
def State.jlUsable (s : State) (p : PortRec) : Nat :=
  ((List.range p.lanes).filter fun k => s.hub.get1 LNK.LANE_STAT.STATE (s.logical p k) ≠ 5).foldl (fun a k => a + 2 ^ k) 0

/-- The widest aligned group within a mask of `lanes` logical lanes, the lower of equals (R356): its width and mask. -/
def widestGroup (lanes mask : Nat) : Option (Nat × Nat) :=
  [8, 4, 2, 1].findSome? fun g =>
    if lanes < g then none
    else (List.range (lanes / g)).findSome? fun k =>
      let m := (2 ^ g - 1) * 2 ^ (k * g)
      if mask &&& m = m then some (g, m) else none

/-- A lane is retired (R344, R383): both directions sleep; its Ethernet port goes DOWN, its link sends the mask of the lanes
left. -/
def State.laneRetired (s : State) (n : Nat) : State :=
  let s1 : State := { s with hub := s.hub.laneSleep n 5 }
  match s.fab.portOfLane n with
  | some p =>
    if p.kind = 1 then s1.ethEnter p.number 1
    else if p.kind = 2 then s1.plainOut p.number 9 0 0 (leBytes 1 (s1.jlUsable p))
    else s1
  | none => s1

/-! ### The lane plan (R43, R341) -/

/-- Is a PORT record left unbuilt for a reason of its own, and owns no lane (R43, Table 3.5, R341)? -/
def Hub.portUnfit (h : Hub) (r : PortRec) : Bool :=
  match r.kind with
  | 1 =>
    !([0x0101, 0x0102, 0x0201, 0x0202, 0x0401, 0x0402, 0x0801, 0x0802].contains r.mode) || r.mode / 256 ≠ r.lanes || r.first % r.lanes ≠ 0 ||
      decide (32 ≤ r.number) || decide (h.unitCount 13 < r.first + r.lanes)
  | 2 =>
    if r.mode = 0x1100 then decide (h.unitCount 14 ≤ r.number) || decide (32 ≤ r.first)
    else r.mode ≠ 0x1000 || !([1, 2, 4, 8].contains r.lanes) || r.first % r.lanes ≠ 0 || decide (h.unitCount 14 ≤ r.number) ||
      decide (h.unitCount 13 < r.first + r.lanes)
  | 3 =>
    !([0x2000, 0x2001].contains r.mode) || r.lanes ≠ 1 || r.first ≠ r.number || decide (16 ≤ r.number) || h.get GLB.VARIANT.SDI == 0 ||
      decide (h.unitCount 13 ≤ r.first)
  | _ => true

/-- The ports built of records, in order; `owned` are the lanes owned so far. The record of an Ethernet port that the Deadbolt has retired
owns its lanes and is left unbuilt (R383). -/
def Hub.buildPorts (h : Hub) (built : List PortRec) (owned : List Nat) : List PortRec → List PortRec
  | [] => built
  | r :: t =>
    let same := built.any fun p => p.kind = r.kind ∧ p.number = r.number
    let carried := r.mode ≠ 0x1100 ∨ built.any fun p => p.kind = 1 ∧ p.number = r.first
    let retired := r.kind = 1 ∧ h.get2 DBT.CH.STATE 10 r.number = 3
    if h.portUnfit r ∨ same ∨ r.laneList.any owned.contains ∨ ¬ carried then h.buildPorts built owned t
    else h.buildPorts (if retired then built else built ++ [r]) (owned ++ r.laneList) t

/-- The ports a lane plan builds: tunnels after every other record. -/
def Hub.lanePlan (h : Hub) (rs : List PortRec) : List PortRec :=
  let tunnel := fun (r : PortRec) => r.kind == 2 && r.mode == 0x1100
  h.buildPorts [] [] (rs.filter (fun r => !tunnel r) ++ rs.filter tunnel)

/-- One lane at a start: named ones begin to calibrate (R343), from stored coefficients where there are any. -/
def State.laneStart (s : State) (full : Bool) (n : Nat) : State :=
  let st := s.hub.get1 LNK.LANE_STAT.STATE n
  if st = 5 ∨ s.hub.get2 DBT.CH.STATE 13 n = 3 then { s with hub := s.hub.laneSleep n 5 }
  else match s.fab.portOfLane n with
    | some p =>
      let tx := s.hub.get1 LNK.LANE_CTL.TX_SLEEP n = 0 ∧ ¬ (p.kind = 3 ∧ p.mode = 0x2000)
      let rx := s.hub.get1 LNK.LANE_CTL.RX_SLEEP n = 0 ∧ ¬ (p.kind = 3 ∧ p.mode = 0x2001)
      ({ s with hub := s.hub.laneBegin n (if full ∨ !(s.lnk.lane n).stored then 1 else 2) (decide tx) (decide rx) } : State).setLane n
        { (s.lnk.lane n) with retry := false }
    | none => { s with hub := s.hub.laneSleep n 0 }

/-- Is a direction of a lane asleep, though its port needs it? -/
def State.laneAsleep (s : State) (n : Nat) : Bool :=
  s.hub.get1 LNK.LANE_STAT.TX_ACTIVE n == 0 || s.hub.get1 LNK.LANE_STAT.RX_ACTIVE n == 0

/-- One port at a start. -/
def State.portStart (s : State) (p : PortRec) : State :=
  let asleep := p.laneList.any s.laneAsleep
  match p.kind with
  | 1 => { s with hub := ((s.hub.set1 LNK.ETH_STAT.MODE p.number p.mode).set1 LNK.ETH_STAT.STATE p.number (if asleep then 1 else 2)) }
  | 2 =>
    if p.mode = 0x1100 then
      ({ s with hub := ((s.hub.set1 LNK.JL_STAT.TUNNEL p.number 1).set1 LNK.JL_STAT.STATE p.number 3) } : State).setLink p.number
        { heard := s.hub.elapsed }
    else
      let kept := (kvGet p.number s.lnk.narrow).getD (2 ^ p.lanes - 1)
      match widestGroup p.lanes (kept &&& s.jlUsable p) with
      | some (w, m) =>
        let s1 : State := { s with hub := (s.hub.set1 LNK.JL_STAT.WIDTH p.number w).set1 LNK.JL_STAT.MASK p.number m }
        let dead := (s1.jlLanes p).any s1.laneAsleep || s1.hub.get2 DBT.CH.STATE 14 p.number == 3
        ({ s1 with hub := s1.hub.set1 LNK.JL_STAT.STATE p.number (if dead then 1 else 2) } : State).setLink p.number { heard := s.hub.elapsed }
      | none => { s with hub := s.hub.set1 LNK.JL_STAT.STATE p.number 1 }
  | _ => s

/-- A start builds the ports of a lane plan and begins their bring-up (R341, R343, R355): `full` with a full calibration. -/
def State.planStart (s : State) (rs : List PortRec) (full : Bool) : State :=
  let h := (List.range 32).foldl (fun (a : Hub) p => a.wr (LNK.ETH_STAT.STATE.off p 0) 0) s.hub
  let h1 := (List.range 16).foldl (fun (a : Hub) n => (a.wr (LNK.JL_STAT.STATE.off n 0) 0).wr (LNK.JL_LEVEL.LEVEL.off n 0) 0) h
  let s1 : State := { s with hub := h1, fab := { s.fab with ports := h1.lanePlan rs }, lnk := { s.lnk with links := [] } }
  let s2 := (List.range (s.hub.unitCount 13)).foldl (fun a n => a.laneStart full n) s1
  s2.fab.ports.foldl State.portStart s2

end Sys2Proof.Machine
end

