-- ==== Sys2Proof/Machine/SvcKeys.lean ====
section
/-!
DEFINITION. The keys of the services (R128): default and range of each (Tables 6.12 and 10.11, and the rules of the other
chapters), and the SVC_DEFAULT records that set them.
-/

namespace Sys2Proof.Machine

/-- Default, least and greatest value of a forwarding service key. -/
def fwdKeyRow (key : Nat) : Option (Nat × Nat × Nat) :=
  match key with
  | 1 => some (5000, 1000, 15000)
  | 2 => some (30000, 5000, 120000)
  | 3 => some (1000, 100, 5000)
  | 4 => some (50, 10, 1000)
  | 5 => some (200, 50, 5000)
  | 6 => some (3, 1, 16)
  | 7 => some (300, 0, 5000)
  | 8 => some (5, 0, 100)
  | 9 => some (3, 0, 10)
  | 10 => some (20, 0, 1000)
  | 11 => some (2, 0, 8)
  | 12 => some (100, 20, 1000)
  | 13 => some (90, 10, 100)
  | 14 => some (1000, 0, 10000)
  | 15 => some (200, 10, 1000)
  | _ => none

/-- The value in force of a key. -/
def FwdSt.key (f : FwdSt) (key : Nat) : Nat := (kvGet key f.keys).getD (((fwdKeyRow key).map (·.1)).getD 0)

/-- Set a key, to the nearest limit of its range; keys not listed are ignored. -/
def FwdSt.setKey (f : FwdSt) (key v : Nat) : FwdSt :=
  match fwdKeyRow key with
  | some (_, lo, hi) => { f with keys := kvPut key (min (max v lo) hi) f.keys }
  | none => f

/-- Default and range of the audio service keys: 1 TALK_INTERVAL, 2 SWAP_DB, 3 TALK_HOLD, 4 JB_MAX. -/
def audKeyRow (k : Nat) : Option (Nat × Nat × Nat) :=
  match k with
  | 1 => some (20, 20, 1000)
  | 2 => some (6, 0, 30)
  | 3 => some (1000, 100, 10000)
  | 4 => some (200, 40, 500)
  | _ => none
def AudSt.key (a : AudSt) (k : Nat) : Nat := (kvGet k a.keys).getD (((audKeyRow k).map (·.1)).getD 0)
def AudSt.setKey (a : AudSt) (k v : Nat) : AudSt :=
  match audKeyRow k with
  | some (_, lo, hi) => { a with keys := kvPut k (min (max v lo) hi) a.keys }
  | none => a

/-- Default and range of the Doorbell service keys (R271). -/
def dblKeyRow (k : Nat) : Option (Nat × Nat × Nat) :=
  match k with
  | 1 => some (60, 6, 3600)
  | 2 => some (1000, 100, 60000)
  | 3 => some (180, 10, 86400)
  | _ => none
def DblSt.key (d : DblSt) (k : Nat) : Nat := (kvGet k d.keys).getD (((dblKeyRow k).map (·.1)).getD 0)
def DblSt.setKey (d : DblSt) (k v : Nat) : DblSt :=
  match dblKeyRow k with
  | some (_, lo, hi) => { d with keys := kvPut k (min (max v lo) hi) d.keys }
  | none => d

/-- A value clamped to a range. -/
def inRange (lo hi v : Nat) : Nat := min (max v lo) hi

/-- The PTP service's keys (R371). -/
def TimSt.setKey (t : TimSt) (k v : Nat) : TimSt :=
  match k with
  | 1 => { t with profile := min v 1 }
  | 2 => { t with domain := min v 127 }
  | 3 => { t with priority1 := min v 255 }
  | 4 => { t with priority2 := min v 255 }
  | 5 => { t with announceTimeout := inRange 2 10 v }
  | 6 => { t with lockNs := inRange 10 1000000 v }
  | _ => t

/-- The splice service's keys (Table 10.11). -/
def SplSt.setKey (x : SplSt) (k v : Nat) : SplSt :=
  match k with
  | 1 => { x with interval := inRange 100 5000 v }
  | 2 => { x with wait := inRange 1000 200000 v }
  | _ => x

/-- A service takes a key's value. -/
def State.svcKey (s : State) (svc k v : Nat) : State :=
  match svc with
  | 1 => { s with fwd := s.fwd.setKey k v }
  | 3 => { s with enc := if k = 1 then { s.enc with hold := min v 5000 } else s.enc }
  | 5 => { s with spl := s.spl.setKey k v }
  | 6 => { s with aud := s.aud.setKey k v }
  | 7 => { s with dbl := s.dbl.setKey k v }
  | 10 => { s with tim := s.tim.setKey k v }
  | _ => s

/-- A service takes its SVC_DEFAULT records, in image order. -/
def State.svcTake (s : State) (svc : Nat) (l : List SvcRec) : State :=
  (l.filter (·.service = svc)).foldl (fun a r => a.svcKey svc r.key (leNat (r.value.take 4))) s

/-- At a load Latch each running service takes the records of the image just loaded. -/
def State.svcLoad (s : State) (l : List SvcRec) : State :=
  [1, 3, 5, 6, 7, 10].foldl (fun a n => if a.hub.get1 HIF.SVC_STAT.STATE n = 1 then a.svcTake n l else a) s

/-- A service starts: its keys hold their defaults, then those of the resident image. -/
def State.svcStart (s : State) (svc : Nat) : State :=
  let s1 : State := match svc with
    | 1 => { s with fwd := { s.fwd with keys := [] } }
    | 3 => { s with enc := { s.enc with hold := 200 } }
    | 5 => { s with spl := { s.spl with interval := 500, wait := 50000 } }
    | 6 => { s with aud := { s.aud with keys := [] } }
    | 7 => { s with dbl := { s.dbl with keys := [] } }
    | 10 => { s with tim := { s.tim with profile := 1, domain := 127, priority1 := 128, priority2 := 128, announceTimeout := 3, lockNs := 1000 } }
    | _ => s
  s1.svcTake svc s.ldr.svcs

end Sys2Proof.Machine
end

