-- ==== Sys2Proof/Machine/Faults.lean ====
section
/-!
DEFINITION. What the Deadbolt does for every block: the Shutter's trigger (R390, R391), transients and leaky buckets
(R381), permanent declarations, retirements and their OTP entries (R382, R383, R385), the move of a unit's slats to a
spare (R71–R73), and the secret clearing of a unit under test (R387).
-/

namespace Sys2Proof.Machine

/-! ### The Shutter -/

/-- Freeze the core (R391): FROZEN, `TST_SHUTTER`, and the record of `TST.SHUT_STAT`. -/
def State.freeze (s0 : State) (cause : Nat) : State :=
  let s := s0.linksFreeze
  let h := s.hub
  { s with
    hub := { ((((((h.set GLB.STATUS.FROZEN 1).set TST.SHUT_STAT.STATE 1).set TST.SHUT_STAT.CAUSE cause).set
      TST.SHUT_NS.TIME h.time.ns).set TST.SHUT_SEC.TIME h.time.sec).raise { code := 0x1601, detail := [cause] }) with
      bar := .frozen }
    dbt := { s.dbt with shutAt := h.ticks, selfRefresh := false, missed := 0 } }

/-- Does a trigger of this cause freeze the device (R390)? 2 COMMAND and 7 DBT do whatever SHUTTER_EN holds; 3–6 need
their TRIG bit. -/
def Hub.shutterArmed (h : Hub) (cause : Nat) : Bool :=
  match cause with
  | 2 => true
  | 7 => true
  | 1 => h.get DBT.POLICY.SHUTTER_EN == 1
  | 3 => h.get DBT.POLICY.SHUTTER_EN == 1 && h.get DBT.POLICY.TRIG / 8 % 2 == 1
  | 4 => h.get DBT.POLICY.SHUTTER_EN == 1 && h.get DBT.POLICY.TRIG / 4 % 2 == 1
  | 5 => h.get DBT.POLICY.SHUTTER_EN == 1 && h.get DBT.POLICY.TRIG / 2 % 2 == 1
  | _ => h.get DBT.POLICY.SHUTTER_EN == 1 && h.get DBT.POLICY.TRIG % 2 == 1

/-- Steps during which a trigger is held (R402): cold 1–8 and W1–W4. -/
def Phase.holdsTrigger : Phase → Bool
  | .cold n => decide (n ≤ 8)
  | .warm n => decide (n ≤ 4)
  | .coldLate7 => true
  | _ => false

/-- A Shutter trigger (R390, R402): recorded only, while frozen; held during the early steps of a start; without effect
on a stopped or unpowered device. -/
def State.shutterTrigger (s : State) (cause : Nat) : State :=
  if s.hub.shutterArmed cause then
    match s.start.phase with
    | .stopped => s
    | .held => s
    | p =>
      let s1 : State := { s with dbt := { s.dbt with shutHold := s.dbt.shutHold || cause != 1 } }
      if s.hub.get GLB.STATUS.FROZEN = 1 then { s1 with hub := s.hub.set TST.SHUT_STAT.CAUSE cause }
      else if p.holdsTrigger then { s1 with start := { s.start with shutReq := some cause } }
      else s1.freeze cause
  else s

/-- Does the supply loop run: from AVS set-up on, where it waits for 24 valid monitors (R408), and not while the Deadbolt restarts (R377)? -/
def State.loopRuns (s : State) : Bool :=
  !s.dbt.restarting && match s.start.phase with
    | .held => false
    | .cold n => decide (4 < n) || (n == 4 && (decide (24 ≤ s.hub.get GLB.PACE_SUM.VALID_CNT) || s.hub.get GLB.PACE_LOOP.STATE != 6))
    | _ => true

/-- SUPPLY_LOOP_EVALUATION (R26): `ma` is the current the regulator reports; entering FAILSAFE is a Shutter trigger. -/
def execSupplyLoopEvaluation (currentMa : Nat) (s : State) : Host.Outcome State Fault Refusal :=
  let t := s.supplyEval currentMa
  .next (if !s.loopRuns then s
    else if t.hub.get GLB.PACE_LOOP.STATE = 5 ∧ s.hub.get GLB.PACE_LOOP.STATE ≠ 5 then t.shutterTrigger 4 else t)

/-! ### Channels (R380) -/

/-- A channel ID: type in [31:24], index in [23:0]. -/
def chanId (ty i : Nat) : Nat := ty * 2 ^ 24 + i

/-- The register of a channel of type 1–15 or LINTEL: the index pair of `DBT.CH`, or a LINTEL core. -/
inductive ChanReg where
  | unit (ty i : Nat)
  | lintel (i : Nat)
  | page
  | none
  deriving DecidableEq, Repr

/-- Which register a channel has, where its index names a present resource (R380). -/
def Hub.chan (h : Hub) (ch : Nat) : ChanReg :=
  let ty := ch / 2 ^ 24
  let i := ch % 2 ^ 24
  if 1 ≤ ty ∧ ty ≤ 14 then (if i < h.unitCount ty then .unit ty i else .none)
  else if ty = 15 then (if i < 64 * h.unitCount 15 then .unit ty i else .none)
  else if ty = 0x20 then
    (if i / 2 ^ 22 < h.unitCount 15 ∧ i % 2 ^ 22 < 2 ^ 19 ∨ i / 2 ^ 22 = 2 ∧ i % 2 ^ 22 < 163840 then .page else .none)
  else if ty = 0x21 ∧ i < 16 then .lintel i
  else .none

/-- The word of a channel's register. -/
def Hub.chanOff (c : ChanReg) : Nat :=
  match c with
  | .unit ty i => DBT.CH.STATE.off ty i
  | .lintel i => DBT.CH_LIN.STATE.off i 0
  | _ => 0

/-- A field of a channel's register. -/
def Hub.chanGet (h : Hub) (c : ChanReg) (f : Fld) : Nat := f.of (h.rd (Hub.chanOff c))

/-- Set a field of a channel's register. -/
def Hub.chanSet (h : Hub) (c : ChanReg) (f : Fld) (v : Nat) : Hub :=
  h.wr (Hub.chanOff c) (f.into (h.rd (Hub.chanOff c)) v)

/-- T and W_S of the leaky bucket in force (Table 20.8). -/
def Hub.bucketT (h : Hub) : Nat := max (h.get DBT.BUCKET.T) 1
def Hub.bucketW (h : Hub) : Nat := max (h.get DBT.BUCKET.W_S) 1

/-! ### OTP (R385) -/

/-- The first unused OTP entry, if any. -/
def Hub.otpFree (h : Hub) : Option Nat := (List.range 64).find? fun e => h.get1 DBT.OTP_HI.CHANNEL e == 0

/-- Record a retirement in OTP and raise `DBT_RETIRED`; with all entries used `DBT_OTP_FULL` is raised instead of the
record (R385). -/
def Hub.otpRecord (h : Hub) (ch cause spare : Nat) : Hub :=
  let h1 := match h.otpFree with
    | some e =>
      let h2 := (((h.set1 DBT.OTP_HI.CHANNEL e ch).set1 DBT.OTP_LO.CAUSE e cause).set1 DBT.OTP_LO.SPARE e spare).set1
        DBT.OTP_LO.DAY e (h.time.sec / 86400 % 65536)
      let h3 := h2.set DBT.STATUS.OTP_USED (h2.get DBT.STATUS.OTP_USED + 1)
      match h3.chan ch with
      | .none => h3
      | .page => h3
      | c => h3.chanSet c DBT.CH.OTP 1
    | none => h.raise { code := 0x1504, channel := ch }
  h1.raise { code := 0x1503, channel := ch }

/-- A channel reads RETIRED with its cause; its SERVED_BY field is not changed. -/
def Hub.chanRetired (h : Hub) (c : ChanReg) (cause : Nat) : Hub :=
  (h.chanSet c DBT.CH.STATE 3).chanSet c DBT.CH.CAUSE cause

/-! ### Pages (R335, R384) -/

/-- Spares of a PAGE channel's memory: which pool (stack 0, stack 1, or 2 + SRAM macro group) and its size (R335:
memory in [23:22], 3 none; HBM index bits [18:0]; SRAM page of 2 KiB). -/
def pagePool (ch : Nat) : Nat × Nat :=
  let m := ch / 2 ^ 22 % 4
  if m = 0 then (0, 64) else if m = 1 then (1, 64) else (2 + ch % 2 ^ 22 / 2048, 4)

/-- Retire a PAGE channel (R384): it is remapped to a spare where one is left; else it stays in use as NO_SPARE. Either
way it is recorded. -/
def State.retirePage (s : State) (ch cause : Nat) : State :=
  let pool := pagePool ch
  let used := (kvGet pool.1 s.dbt.sparesUsed).getD 0
  if s.dbt.remaps.any (·.channel = ch) then s
  else if used < pool.2 then
    { s with
      hub := s.hub.otpRecord ch cause used
      dbt := { s.dbt with remaps := s.dbt.remaps ++ [⟨ch, used, false⟩], sparesUsed := kvPut pool.1 (used + 1) s.dbt.sparesUsed } }
  else { s with hub := s.hub.otpRecord ch cause 0xFFF, dbt := { s.dbt with remaps := s.dbt.remaps ++ [⟨ch, 0xFFF, true⟩] } }

/-! ### Retirement in the form each type requires (R383) -/

/-- The lowest-numbered unretired Lintel core that runs no blob (R383). -/
def Hub.freeLintel (h : Hub) : Option Nat :=
  (List.range 16).find? fun n => h.get1 DBT.CH_LIN.STATE n ≠ 3 ∧ h.get1 IMG.FW_STAT.STATE n ≠ 2

/-- Set the cores bit of a service and its STATE: RUNNING while a core runs it (Table 19.7). -/
def Hub.svcCore (h : Hub) (svc core : Nat) (on : Bool) : Hub :=
  let cores := h.get1 HIF.SVC_STAT.CORES svc
  let c1 := if on then cores ||| 2 ^ core else cores &&& (0xFFFF - 2 ^ core)
  (h.set1 HIF.SVC_STAT.CORES svc c1).set1 HIF.SVC_STAT.STATE svc
    (if c1 ≠ 0 then 1 else if h.get1 HIF.SVC_STAT.STATE svc = 1 then 0 else h.get1 HIF.SVC_STAT.STATE svc)

/-- Retire a Lintel core (R383): it halts, reads NONE, and its blob starts on a substitute where a core is free; the
commands it had taken complete with NOT_FOUND and SVC 0. -/
def Hub.retireLintel (h : Hub) (n : Nat) : Hub :=
  let svc := h.get1 IMG.FW_STAT.SERVICE n
  let ran := h.get1 IMG.FW_STAT.STATE n == 2
  let h1 := ((h.set1 IMG.FW_STAT.STATE n 0).set1 IMG.FW_STAT.SERVICE n 0).svcCore svc n false
  let h2 : Hub := { h1 with cmds := h1.cmds.map fun q => (q.1, q.2.map fun c =>
    if opService c.opcode = svc ∧ c.fin = none then { c with svc := 0, fin := some (3, []) } else c) }
  let h3 := h2.cmds.foldl (fun a q => a.postDone q.1 q.2) h2
  if ran then
    match h1.freeLintel with
    | some k => (((h3.set1 IMG.FW_STAT.STATE k 2).set1 IMG.FW_STAT.SERVICE k svc).set1 DBT.CH_LIN.SERVED_BY n k).svcCore svc k true
    | none => h3
  else h3

/-- The frames queued on port `p` are discarded and counted (R383). -/
def State.portDiscard (s : State) (p : Nat) : State :=
  let n := ((s.qsc.queues.filter fun e => e.2.port = p).map fun e => e.2.items.length).sum
  { s with
    hub := s.hub.errN LNK.ETH_TX_DISCARD.COUNT p n 0x130D 0
    qsc := { s.qsc with queues := s.qsc.queues.map fun e =>
      if e.2.port = p then (e.1, { e.2 with items := [], tag := 0, wheel := none, eligible := 0 }) else e } }

/-- The permanent retirement of a channel (R383). Units of types 1–8, 11 and 12 wait for their work boundary
(SPARE_TAKEN). -/
def State.retire (s : State) (ch cause : Nat) : State :=
  match s.hub.chan ch with
  | .none => s
  | .page => s.retirePage ch cause
  | .lintel n =>
    let svc := s.hub.get1 IMG.FW_STAT.SERVICE n
    let h := s.hub.chanRetired (.lintel n) cause
    let s1 := ({ s with hub := (h.retireLintel n).otpRecord ch cause 0 } : State).settle
    if s.hub.get1 IMG.FW_STAT.STATE n = 2 ∧ h.freeLintel.isSome then s1.svcStart svc else s1
  | .unit ty i =>
    let c := ChanReg.unit ty i
    if (1 ≤ ty ∧ ty ≤ 8) ∨ ty = 11 ∨ ty = 12 then
      { s with dbt := { s.dbt with retiring := s.dbt.retiring ++ [(ch, cause)] } }
    else if ty = 9 ∨ ty = 10 then
      let other := if ty = 9 then 10 else 9
      let s1 := (({ s with hub := (s.hub.chanRetired c cause).chanRetired (.unit other i) cause } : State).ethEnter i 1).portDiscard i
      let h2 := (s.fab.lanesOf 1 i).foldl (fun a n => a.laneSleep n 0) s1.hub
      { s1 with hub := ((h2.otpRecord ch cause 0).chanSet (.unit other i) DBT.CH.OTP
          ((h2.otpRecord ch cause 0).chanGet c DBT.CH.OTP)).raise { code := 0x1503, channel := chanId other i } }
    else if ty = 13 then
      let s1 := ({ s with hub := s.hub.chanRetired c cause } : State).laneRetired i
      { s1 with hub := s1.hub.otpRecord ch cause 0 }
    else if ty = 14 then
      let s1 := ({ s with hub := s.hub.chanRetired c cause } : State).jlEnter i 1
      { s1 with hub := ((s.fab.lanesOf 2 i).foldl (fun a n => a.laneSleep n 0) s1.hub).otpRecord ch cause 0 }
    else { s with hub := (s.hub.chanRetired c cause).otpRecord ch cause 0 }

/-- Is a channel retired, or waiting to be? A retired page is one already remapped or without a spare. -/
def State.isRetired (s : State) (ch : Nat) : Bool :=
  s.dbt.retiring.any (·.1 = ch) ||
    match s.hub.chan ch with
    | .none => true
    | .page => s.dbt.remaps.any (·.channel = ch)
    | c => s.hub.chanGet c DBT.CH.STATE == 3

/-- A fault waits in the Deadbolt's input FIFO of 1,024 entries during a restart; further ones are lost (R377). -/
def State.fifoIn (s : State) (e : Nat × Option Nat) : State :=
  { s with dbt := if s.dbt.inFifo.length < 1024 then { s.dbt with inFifo := s.dbt.inFifo ++ [e] } else s.dbt }

/-- Declare a channel permanent (R382): final until the next cold start; `DBT_PERMANENT` carries the cause, and the
PERMANENT trigger of the Shutter acts. -/
def State.permanent (s : State) (ch cause : Nat) : State :=
  if s.isRetired ch then s
  else if s.dbt.restarting ∧ cause ≠ 6 then s.fifoIn (ch, some cause)
  else if s.hub.get GLB.STATUS.FROZEN = 1 ∧ cause ≠ 6 then { s with dbt := { s.dbt with shutFaults := s.dbt.shutFaults ++ [(ch, some cause)] } }
  else
    (({ s with hub := s.hub.raise { code := 0x1502, channel := ch, detail := [cause] } } : State).retire ch
      cause).shutterTrigger 3

/-! ### Transients (R381) -/

/-- Is a unit under BIST? Its transients are not reported. -/
def DbtSt.testing (d : DbtSt) (ty i : Nat) : Bool := d.tests.any fun t => t.ty = ty ∧ t.inst = i

/-- The bucket of a PAGE channel: its entry, a free one, or the entry displaced: the lowest count, the oldest among
equals. -/
def State.pageBucket (s : State) (ch : Nat) : Nat :=
  match (List.range 256).find? (fun k => s.hub.get1 DBT.PAGE_COUNT.COUNT k ≠ 0 ∧ s.hub.get1 DBT.PAGE_CH.CHANNEL k = ch) with
  | some k => k
  | none =>
    match (List.range 256).find? (fun k => s.hub.get1 DBT.PAGE_COUNT.COUNT k = 0) with
    | some k => k
    | none => s.dbt.pageAge.foldl (fun b k =>
        if s.hub.get1 DBT.PAGE_COUNT.COUNT k < s.hub.get1 DBT.PAGE_COUNT.COUNT b then k else b) (s.dbt.pageAge.headD 0)

/-- The leak interval W_S / T, in ns. -/
def Hub.leakNs (h : Hub) : Nat := h.bucketW * 1000000000 / h.bucketT

/-- The count of a channel's bucket after one more transient, with its register written and its leak timer started
where it rose from 0. -/
def State.bucketAdd (s : State) (ch : Nat) : State × Nat :=
  let iv := s.hub.leakNs
  match s.hub.chan ch with
  | .page =>
    let k := s.pageBucket ch
    let own := s.hub.get1 DBT.PAGE_COUNT.COUNT k ≠ 0 ∧ s.hub.get1 DBT.PAGE_CH.CHANNEL k = ch
    let old := s.hub.get1 DBT.PAGE_CH.CHANNEL k
    let c := (if own then s.hub.get1 DBT.PAGE_COUNT.COUNT k else 0) + 1
    ({ s with
      hub := (s.hub.set1 DBT.PAGE_CH.CHANNEL k ch).set1 DBT.PAGE_COUNT.COUNT k c
      dbt := { s.dbt with
        pageAge := if own then s.dbt.pageAge else s.dbt.pageAge.filter (· ≠ k) ++ [k]
        leaks := if own then s.dbt.leaks else kvPut ch (s.hub.elapsed, iv) (kvDel old s.dbt.leaks) } }, c)
  | .none => (s, 0)
  | r =>
    let c := s.hub.chanGet r DBT.CH.COUNT + 1
    ({ s with
      hub := (s.hub.chanSet r DBT.CH.COUNT (min c 255)).chanSet r DBT.CH.STATE
        (if s.hub.chanGet r DBT.CH.STATE = 0 then 1 else s.hub.chanGet r DBT.CH.STATE)
      dbt := if c = 1 then { s.dbt with leaks := kvPut ch (s.hub.elapsed, iv) s.dbt.leaks } else s.dbt }, c)

/-- A block reports a fault on a channel (R381). During a Deadbolt restart the report waits in the input FIFO of 1,024
entries (R377); a report to no channel is discarded (R380); a retired channel ignores it (R382); so does one under
BIST. -/
def State.transient (s : State) (ch : Nat) : State :=
  if s.dbt.restarting then s.fifoIn (ch, none)
  else if s.hub.get GLB.STATUS.FROZEN = 1 then { s with dbt := { s.dbt with shutFaults := s.dbt.shutFaults ++ [(ch, none)] } }
  else if s.isRetired ch ∨ s.dbt.testing (ch / 2 ^ 24) (ch % 2 ^ 24) then s
  else
    let ev : Ev := { code := 0x1501, channel := ch, detail := [ch] }
    let s1 : State := { s with hub := (s.hub.stat DBT.TRANSIENTS_LO.COUNT 0 1).raiseRl ev }
    let r := s1.bucketAdd ch
    if s.hub.bucketT + 1 ≤ r.2 then r.1.permanent ch 2 else r.1

/-- Several transients, in order. -/
def State.transients (s : State) (chs : List Nat) : State := chs.foldl State.transient s

/-! ### Spares (R71–R73) -/

/-- The sashes of a lost unit go FAULTED, save those that drain (R32, R72). -/
def State.faultSashes (s : State) (ty i : Nat) : State :=
  { s with hub := (s.served ty i).foldl (fun h n =>
      if h.sashState n = 3 ∨ h.sashState n = 5 ∨ h.sashState n = 2 then h.sashEnter n 6 0 else h) s.hub }

/-- Record the last test in `TST.BIST_LAST`. -/
def Hub.bistLast (h : Hub) (result ty i : Nat) : Hub :=
  ((h.set TST.BIST_LAST.RESULT result).set TST.BIST_LAST.TYPE ty).set TST.BIST_LAST.INSTANCE i

/-- A test has ended: the unit reads SUSPECT while its bucket holds a count, else IN_SERVICE. -/
def State.bistOver (s : State) (result ty i : Nat) : State :=
  let c := ChanReg.unit ty i
  { s with
    hub := (s.hub.bistLast result ty i).chanSet c DBT.CH.STATE (if s.hub.chanGet c DBT.CH.COUNT = 0 then 0 else 1)
    dbt := { s.dbt with tests := s.dbt.tests.filter fun (t : BistTest) => t.ty ≠ ty ∨ t.inst ≠ i } }

/-- End a test as ABORTED (R73, R388): the unit is re-initialised and becomes a spare; the mapping stays, and the test is retried at
the type's next start time. -/
def State.bistAbort (s : State) (ty i : Nat) : State :=
  let t := s.bistOver 4 ty i
  { t with dbt := { t.dbt with bistNext := kvPut ty i t.dbt.bistNext } }

/-- A retired unit reaches its work boundary: with no slats, it retires; its slats move to the lowest spare, or to the unit whose BIST then ends
(R73); with neither, its sashes go FAULTED and `LVR_SPARE_NONE` is raised (R72). -/
def State.retireUnit (s : State) (ty i cause : Nat) : State :=
  let ch := chanId ty i
  let done : State := { s with dbt := { s.dbt with retiring := s.dbt.retiring.filter (·.1 ≠ ch) } }
  let s1 := { done with hub := (done.hub.chanRetired (.unit ty i) cause) }
  let serves := (List.range (s.hub.unitCount ty)).any fun j => s.hub.get2 DBT.CH.SERVED_BY ty j = i
  let moved := fun (t : State) (k : Nat) => (t.takeSpare ty i k).markSpares
  let s2 := if !serves then s1 else match s1.spare ty i with
    | some k => moved s1 k
    | none =>
      match s1.dbt.tests.find? (fun (t : BistTest) => t.ty = ty) with
      | some t => moved (s1.bistAbort ty t.inst) t.inst
      | none =>
        ({ s1 with hub := s1.hub.raise { code := 0x0407, channel := ch, detail := [ty, i] } } : State).faultSashes ty i
  { s2 with hub := s2.hub.otpRecord ch cause 0 }

/-- A unit whose slats have moved away and that is now permanent retires at once. -/
def State.retireIdle (s : State) (ty i : Nat) : State :=
  match s.dbt.retiring.find? (·.1 = chanId ty i) with
  | some r => s.retireUnit ty i r.2
  | none => s

/-- A unit scheduled for BIST reaches its work boundary (R71, R387): its slats move to the spare, it reads UNDER_TEST,
and its secrets are cleared. A bad read-back repeats the clearing once; a second abandons the test and declares the
unit permanent with cause SECRET. Without a spare the test is skipped, and retried at the type's next start time (R72). -/
def State.bistBegin (s : State) (ty i badReads : Nat) : State :=
  let ch := chanId ty i
  let s0 : State := { s with dbt := { s.dbt with bistSched := s.dbt.bistSched.filter (· ≠ (ty, i)) } }
  match s0.spare ty i with
  | none => { s0 with
      hub := (s0.hub.bistLast 3 ty i).raise { code := 0x0407, channel := ch, sash := 0x402, detail := [ty, i] }
      dbt := { s0.dbt with bistNext := kvPut ty i s0.dbt.bistNext } }
  | some k =>
    let s00 := s0.takeSpare ty i k
    let s1 := ({ s00 with hub := s00.hub.chanSet (.unit ty i) DBT.CH.STATE 2 } : State).markSpares
    if 2 ≤ badReads then
      let s2 := s1.bistOver 2 ty i
      (({ s2 with hub := s2.hub.raise { code := 0x1604, channel := ch, sash := 0x402 } } : State).permanent ch 4).retireIdle ty i
    else { s1 with
      hub := s1.hub.stat TST.BIST_RUNS_LO.COUNT 0 1
      dbt := { s1.dbt with tests := s1.dbt.tests ++ [{ ty := ty, inst := i, spare := k, cleared := true, clears := badReads + 1 }] } }

/-! ### Logic BIST (R386–R388) -/

/-- Types that R386 tests. -/
def bistType (ty : Nat) : Bool := decide (1 ≤ ty ∧ ty ≤ 8)

/-- The instance of a type that is tested next: unretired ones in ascending order, and then again (R386). -/
def State.bistPick (s : State) (ty : Nat) : Option Nat :=
  let live := (List.range (s.hub.unitCount ty)).filter fun i => !s.isRetired (chanId ty i)
  (live.find? fun i => (kvGet ty s.dbt.bistNext).getD 0 ≤ i).orElse fun _ => live.head?

/-- Is a unit of the type under test, or waiting for the boundary at which its test begins? -/
def State.bistBusy (s : State) (ty : Nat) : Bool := s.dbt.tests.any (fun (t : BistTest) => t.ty = ty) || s.dbt.bistSched.any (·.1 = ty)

/-- The interval of a type's schedule, in ns: HOURS × 3,600 / n s over the n present, unretired instances, counted now; HOURS 0 acts as 1 and
values above 168 as 168 (R386, Table 20.8). -/
def State.bistNs (s : State) (ty : Nat) : Nat :=
  let n := ((List.range (s.hub.unitCount ty)).filter fun i => !s.isRetired (chanId ty i)).length
  min (max (s.hub.get DBT.BIST_CTL.HOURS) 1) 168 * 3600000000000 / max n 1

/-- The schedule of every type starts: the first test is due one interval later (R386). -/
def State.bistRestart (s : State) : State :=
  { s with dbt := { s.dbt with
    bistDue := []
    bistAt := ((List.range 9).filter bistType).map fun ty => (ty, s.hub.elapsed, s.bistNs ty) } }

/-- Is a test of a type due (R386)? -/
def State.bistNow (s : State) (ty : Nat) : Bool :=
  match kvGet ty s.dbt.bistAt with
  | some x => decide (x.1 + x.2 ≤ s.hub.elapsed)
  | none => false

/-- The next interval of a type begins where the last ended. -/
def State.bistTurn (s : State) (ty : Nat) : State :=
  match kvGet ty s.dbt.bistAt with
  | some x => { s with dbt := { s.dbt with bistAt := kvPut ty (x.1 + x.2, s.bistNs ty) s.dbt.bistAt } }
  | none => s

/-- A test of a type falls due in service: its next unit is scheduled. None during a pace emergency, nor while another of its type is under
test (R386). -/
def State.bistDue (s : State) (ty : Nat) : State :=
  if s.bistBusy ty ∨ s.hub.get GLB.PACE_SUM.EMERG = 1 then s
  else match s.bistPick ty with
    | some i => { s with dbt := { s.dbt with bistSched := s.dbt.bistSched ++ [(ty, i)], bistNext := kvPut ty (i + 1) s.dbt.bistNext } }
    | none => s

end Sys2Proof.Machine
end

