-- ==== Sys2Proof/Machine/HostIf.lean ====
section
/-!
DEFINITION. The PCIe host interface (chapter 19): doorbells, commands taken from rings, queue pair configuration, function
resets and the link.
-/

namespace Sys2Proof.Machine

/-- Ring the producer doorbell of ring 0 (R137, R368): PROD out of bounds acts as a flush and is counted; items of a FIFO
queue pair are consumed. -/
def Hub.dbProd (h : Hub) (q index : Nat) : Hub :=
  let n := 2 * q
  let h1 := h.setFifo n { h.fifo n with peer := index % 2 ^ 32 }
  if h1.fifoWords n < h1.fifoUsed n then (h1.err QSC.FIFO_BAD.COUNT n 0x0708 0).fifoFlush n
  else if h1.qpOn q ∧ !h1.qpCommand q then h1.fifoConsume n (h1.fifoUsed n) else h1

/-- Ring the consumer doorbell of ring 1: an index past PROD acts as PROD (R137). -/
def Hub.dbCons (h : Hub) (q index : Nat) : Hub :=
  let n := 2 * q + 1
  let i := index % 2 ^ 32
  h.setFifo n { h.fifo n with peer := if laterThan 32 (h.fifoIdx n) i then h.fifoIdx n else i }

/-- A doorbell of kind `k` (0 PROD, 1 CONS) from function `fn`: acts at once; is kept while the core is frozen, the last
value of each; is discarded during a start (R373, R399). -/
def State.doorbell (s : State) (fn q k index : Nat) : State :=
  if 1024 ≤ q ∨ !s.hub.reachesQp fn q ∨ s.hub.pcieDown then s
  else match s.hub.bar with
    | .live => { s with hub := if k = 0 then s.hub.dbProd q index else s.hub.dbCons q index }
    | .frozen => match s.start.phase with
      | .warm _ => s
      | _ => { s with hub := { s.hub with heldDb := kvPut (2 * q + k) (index % 2 ^ 32) s.hub.heldDb } }
    | _ => s

/-- At a resume the doorbells kept during the Shutter take effect (R373). -/
def Hub.heldDoorbells (h : Hub) : Hub :=
  h.heldDb.foldl (fun a e => if e.1 % 2 = 0 then a.dbProd (e.1 / 2) e.2 else a.dbCons (e.1 / 2) e.2) { h with heldDb := [] }

/-- DB_PROD (R368): before the doorbell the host has written `words` into ring 0 from the index last rung. While the PCIe island is down
none arrives (R24). -/
def execDbProd (fn q index : Nat) (words : List Byte) (s : State) : Host.Outcome State Fault Refusal :=
  let h := s.hub.ringPut (2 * q) (s.hub.fifoProd (2 * q)) (toWords ((words.length + 7) / 8) words)
  .next (if s.hub.pcieDown then s else ({ s with hub := h } : State).doorbell fn q 0 index)

/-- DB_CONS (R368). -/
def execDbCons (fn q index : Nat) (s : State) : Host.Outcome State Fault Refusal := .next (s.doorbell fn q 1 index)

/-! ### Commands (R370, R371) -/

/-- How many commands each service has: opcodes 1 to that number (Tables 6.8, 8.12, 9.7, 10.12, 12.8, 13.5, 14.11, 18.8,
19.5); 0 for a number that names no service. -/
def svcCommands (svc : Nat) : Nat :=
  match svc with
  | 1 => 13
  | 3 => 3
  | 4 => 3
  | 5 => 7
  | 6 => 10
  | 7 => 3
  | 8 => 4
  | 9 => 2
  | 10 => 2
  | _ => 0

/-- R370: 131 free words for this command and for each already taken, besides the reserve word. -/
def Hub.completionRoom (h : Hub) (q : Nat) : Bool :=
  let n := 2 * q + 1
  decide (h.fifoUsed n + 131 * (1 + ((kvGet q h.cmds).getD []).length) + 1 ≤ h.fifoWords n)

/-- A command item is taken: it is refused at once, or its service's row is due (R370, R371, Table 6.13). -/
def Hub.takeCommand (h : Hub) (q : Nat) (p : List Byte) : Hub :=
  let op := leNat (p.take 2)
  let tag := leNat ((p.drop 4).take 4)
  let svc := opService op
  let st := if svcCommands svc = 0 then 0 else h.get1 HIF.SVC_STAT.STATE svc
  let slots := (kvGet q h.cmds).getD []
  let fin : Option (Nat × List Byte) :=
    if 8200 < p.length then some (4, [])
    else if st ≠ 1 ∨ op % 256 = 0 ∨ svcCommands svc < op % 256 then some (3, [])
    else none
  let all := slots ++ [⟨tag, op, st, fin, none⟩]
  ({ h with cmds := kvPut q all h.cmds } : Hub).postDone q all

/-- What stands next in ring 0 of a COMMAND queue pair (R136, R137, R370). Was it an item to skip, with the search going on? -/
def Hub.commandNext (h : Hub) (q : Nat) (next : FifoNext) : Hub × Bool :=
  match next with
  | .empty => (h, false)
  | .item p i => (if h.completionRoom q then (h.fifoAdvance (2 * q) i).takeCommand q p else h, false)
  | .gap c i => ((h.errN QSC.FIFO_LOST.COUNT (2 * q) c 0x0708 0).fifoAdvance (2 * q) i, true)
  | .skip i => ((h.err QSC.FIFO_BAD.COUNT (2 * q) 0x0708 0).fifoAdvance (2 * q) i, true)
  | .bad => ((h.fifoBad (2 * q)).fifoAdvance (2 * q) (h.fifoProd (2 * q)), false)
  | .range => ((h.err QSC.FIFO_BAD.COUNT (2 * q) 0x0708 0).fifoFlush (2 * q), false)

/-- Take the next item of ring 0 of a COMMAND queue pair, skipping what R136 and R137 skip; at most `fuel` items. -/
def Hub.commandTake (h : Hub) (q : Nat) : Nat → Hub
  | 0 => h
  | fuel + 1 =>
    if (h.commandNext q (h.fifoPeek (2 * q))).2 then (h.commandNext q (h.fifoPeek (2 * q))).1.commandTake q fuel
    else (h.commandNext q (h.fifoPeek (2 * q))).1

/-- Does the device take commands: in service, or from cold step 14 (R399)? -/
def State.takesCommands (s : State) : Bool := s.hub.hostIn && (s.hub.get GLB.STATUS.READY == 1 || s.start.phase == .cold 14)

/-- COMMAND_TAKE (R370): a command is taken when the queue pair runs as COMMAND and the host's accesses are served; a pace emergency holds it
(R74, R368). -/
def execCommandTake (q : Nat) (s : State) : Host.Outcome State Fault Refusal :=
  .next { s with hub :=
    if s.takesCommands ∧ !s.emergency ∧ s.hub.qpOn q ∧ s.hub.qpCommand q then s.hub.commandTake q (s.hub.fifoUsed (2 * q) + 1) else s.hub }

/-! ### Queue pair configuration -/

/-- Flush both rings of a queue pair (R138, R367); commands taken and not completed go with them (assumption 18). -/
def Hub.qpFlush (h : Hub) (q : Nat) : Hub :=
  let h1 := (h.fifoFlush (2 * q)).fifoFlush (2 * q + 1)
  { h1 with cmds := kvDel q h1.cmds }

/-- Disable a queue pair and flush it. -/
def Hub.qpDisable (h : Hub) (q : Nat) : Hub := (h.set1 HIF.QP_CFG.ENABLE q 0).qpFlush q

/-- A write to a queue pair's registers at offset `off`: a change of ENABLE or of a ring address flushes both rings
(R367); KIND, VECTOR and the writeback address change alone. -/
def Hub.qpWrite (h : Hub) (off : Nat) (val : Word) : Hub :=
  let q := (off - 0x2004000) / 32
  let r := (off - 0x2004000) % 32
  let old := h.rd off
  let v := if r = 0 then val &&& ~~~(0x1FFFF800 : Word) else val
  let h1 := h.wr off v
  if r = 0 then (if old.getLsbD 31 ≠ v.getLsbD 31 then h1.qpFlush q else h1)
  else if r ≤ 0x10 then (if old ≠ v then h1.qpFlush q else h1)
  else h1

/-- QP_CFG_WRITE (R367). -/
def execQpCfgWrite (fn off : Nat) (val : Word) (s : State) : Host.Outcome State Fault Refusal :=
  .next { s with hub :=
    if s.hub.hostIn ∧ 0x2004000 ≤ off ∧ off < 0x200C000 ∧ off % 4 = 0 ∧ (off - 0x2004000) % 32 ≤ 0x18 ∧
        s.hub.reachesQp fn ((off - 0x2004000) / 32) then s.hub.qpWrite off val
    else s.hub }

/-! ### Resets and the link (R373) -/

/-- The queue pairs of VF `v` (R366). -/
def Hub.vfQps (h : Hub) (v : Nat) : List Nat := (List.range 1024).filter fun q => h.owner HIF.VF_QP.BASE q = v

/-- Take VF `v`'s window copies back to reset. -/
def Hub.windowReset (h : Hub) (v : Nat) : Hub :=
  { h with
    regs := kvFilter (fun k _ => k / 0x4000000 != v) h.regs
    shadow := kvFilter (fun k _ => k / 0x4000000 != v) h.shadow
    captured := kvFilter (fun k _ => k / 0x4000000 != v) h.captured
    logDropped := kvDel v h.logDropped }

/-- VF_FLR (Table 19.6): its queue pairs are disabled and flushed, its window copies return to reset. -/
def execVfFlr (vf : Nat) (s : State) : Host.Outcome State Fault Refusal :=
  .next { s with hub :=
    if vf = 0 ∨ s.hub.numVfs < vf then s.hub
    else (((s.hub.vfQps vf).foldl Hub.qpDisable s.hub).windowReset vf).raise { code := 0x1402, detail := [vf] } }

/-- PCIE_LINK_DOWN (Table 19.6): the PCIe island is lost, every queue pair is disabled, SR-IOV settings are lost. -/
def execPcieLinkDown (s : State) : Host.Outcome State Fault Refusal :=
  let t := s.islandLost .pcie
  let h1 := (List.range 1024).foldl (fun h q => if h.qpOn q then h.qpDisable q else h) t.hub
  let h2 : Hub := { h1.set HIF.LINK.GEN 0 with linkLost := true, numVfs := 0 }
  .next { t with hub := h2.set HIF.LINK.WIDTH 0 }

/-- PCIE_LINK_UP: the trained generation, width and payload size are read in `HIF.LINK`; the host enables `vfs` VFs;
after a loss `HIF_LINK_DOWN` is raised (Table 19.6). -/
def execPcieLinkUp (gen width mps vfs : Nat) (s : State) : Host.Outcome State Fault Refusal :=
  let t := s.islandBack .pcie
  let h1 := ((t.hub.set HIF.LINK.GEN gen).set HIF.LINK.WIDTH width).set HIF.LINK.MPS (min mps 5)
  let h2 : Hub := { h1 with numVfs := min vfs 63, linkLost := false }
  .next { t with hub := if s.hub.linkLost then h2.raise { code := 0x1403, detail := [gen, width] } else h2 }

end Sys2Proof.Machine
end

