-- ==== Sys2Proof/Machine/Memory.lean ====
section
/-!
DEFINITION. Memory, codes and scrubbing (chapter 17): address orders, the light and page codes, poison, merge buffers, the
scrubber, BAR2, and the checker test mode.
-/

namespace Sys2Proof.Machine

/-! ### Address orders (R324, Table 17.2) -/

/-- A place of one burst: stack, group, pseudo-channel, bank, column, row. -/
structure Place where
  s : Nat
  g : Nat
  p : Nat
  b : Nat
  c : Nat
  r : Nat
  deriving DecidableEq, Repr

/-- Bits [hi:lo] of a number. -/
def bits (x hi lo : Nat) : Nat := x / 2 ^ lo % 2 ^ (hi - lo + 1)

/-- Where burst index `q` lies under an order; S by q[29] (q[0] under ORDER_D). -/
def placeOf (order q : Nat) : Place :=
  match order with
  | 1 => ⟨bits q 29 29, bits q 13 11, bits q 10 8, bits q 3 0, bits q 7 4, bits q 28 14⟩
  | 2 => ⟨bits q 29 29, bits q 2 0, bits q 5 3, bits q 9 6, bits q 13 10, bits q 28 14⟩
  | 3 => ⟨bits q 0 0, bits q 3 1, bits q 6 4, bits q 10 7, bits q 14 11, bits q 29 15⟩
  | _ => ⟨bits q 29 29, bits q 13 11, bits q 10 8, bits q 7 4, bits q 3 0, bits q 28 14⟩

/-- The burst index of a place under an order. -/
def burstOf (order : Nat) (x : Place) : Nat :=
  match order with
  | 1 => x.s * 2 ^ 29 + x.r * 2 ^ 14 + x.g * 2 ^ 11 + x.p * 2 ^ 8 + x.c * 16 + x.b
  | 2 => x.s * 2 ^ 29 + x.r * 2 ^ 14 + x.c * 2 ^ 10 + x.b * 2 ^ 6 + x.p * 8 + x.g
  | 3 => x.r * 2 ^ 15 + x.c * 2 ^ 11 + x.b * 2 ^ 7 + x.p * 16 + x.g * 2 + x.s
  | _ => x.s * 2 ^ 29 + x.r * 2 ^ 14 + x.g * 2 ^ 11 + x.p * 2 ^ 8 + x.b * 16 + x.c

/-- The cell address of byte `o` of a place's burst. -/
def Place.cell (x : Place) (o : Nat) : Nat :=
  x.s * 2 ^ 35 + ((x.r * 16 + x.b) * 16 + x.c) * 4096 + (8 * x.g + x.p) * 64 + o

/-- The place of a cell of HBM. -/
def cellPlace (a : Nat) : Place :=
  ⟨a / 2 ^ 35 % 2, bits a 11 9, bits a 8 6, bits a 19 16, bits a 15 12, bits a 34 20⟩

/-- First cell of SRAM, and one past the last (R323). -/
def sramBase : Nat := 2 ^ 36
def sramSize : Nat := 320 * 2 ^ 20

/-- The cell of memory address `a` of a MEM (0, 1: a stack; 2: both; 3: SRAM) under an order; ORDER_D acts as ORDER_C save
with MEM 2 (Table 3.6). None beyond the memory. -/
def cellOf (mem order a : Nat) : Option Nat :=
  let o := if order = 3 ∧ mem ≠ 2 then 2 else order
  match mem with
  | 0 => if a < 2 ^ 35 then some ({ placeOf o (a / 64) with s := 0 }.cell (a % 64)) else none
  | 1 => if a < 2 ^ 35 then some ({ placeOf o (a / 64) with s := 1 }.cell (a % 64)) else none
  | 2 => if a < 2 ^ 36 then some ((placeOf o (a / 64)).cell (a % 64)) else none
  | 3 => if a < sramSize then some (sramBase + a) else none
  | _ => none

/-- The memory address of a cell under a MEM and order, if it is in that memory. -/
def addrOf (mem order c : Nat) : Option Nat :=
  let o := if order = 3 ∧ mem ≠ 2 then 2 else order
  let x := cellPlace c
  if sramBase ≤ c then (if mem = 3 then some (c - sramBase) else none)
  else match mem with
    | 0 => if x.s = 0 then some (burstOf o { x with s := 0 } * 64 + c % 64) else none
    | 1 => if x.s = 1 then some (burstOf o { x with s := 0 } * 64 + c % 64) else none
    | 2 => some (burstOf o x * 64 + c % 64)
    | _ => none

/-- The cell of byte `off` of a partition. -/
def PartRec.cell (p : PartRec) (off : Nat) : Option Nat := if off < p.size then cellOf p.mem p.order (p.base + off) else none

/-- Does a partition contain a cell? -/
def PartRec.holds (p : PartRec) (c : Nat) : Bool :=
  match addrOf p.mem p.order c with
  | some a => decide (p.base ≤ a ∧ a < p.base + p.size)
  | none => false

/-- A partition by number. -/
def FabSt.part (f : FabSt) (id : Nat) : Option PartRec := f.parts.find? (·.id = id)

/-! ### The light code (R328, R331) -/

/-- Columns of data bits 0–63. -/
def lightColumns : List Nat :=
  ((List.range 256).filter fun n => ((List.range 8).filter (fun k => n.testBit k)).length = 3) ++
    [0x1F, 0x2F, 0x37, 0x3B, 0x3D, 0x3E, 0x4F, 0x57]

/-- XOR of the columns of the set bits of `d`. -/
def checkOf (d : Nat) : List Nat → Nat
  | [] => 0
  | c :: t => (if d % 2 = 1 then c else 0) ^^^ checkOf (d / 2) t

/-- The check byte of a 64-bit word. -/
def checkByte (d : Nat) : Nat := checkOf d lightColumns

/-- The data bit whose column is `syn`, by position. -/
def flipBit (syn : Nat) (k : Nat) : List Nat → Option Nat
  | [] => none
  | c :: t => if c = syn then some k else flipBit syn (k + 1) t

/-- What a stored word reads as. -/
inductive WordRead where
  | clean (d : Nat)
  | corrected (d : Nat)
  | poison
  | bad (d : Nat)
  deriving DecidableEq, Repr

/-- The stored data of the word at cell address `w`. -/
def MemSt.data (m : MemSt) (w : Nat) : Nat := leNat (memReadList m.cells w 8)

/-- The syndrome of the word at cell address `w`. -/
def MemSt.syn (m : MemSt) (w : Nat) : Nat := (kvGet w m.dev).getD 0

/-- Read a word through the light code, with exact poison found first. -/
def MemSt.read (m : MemSt) (w : Nat) : WordRead :=
  let d := m.data w
  let y := m.syn w
  if y = 0 then .clean d
  else if d = 0 ∧ y = 0x7F then .poison
  else if (List.range 8).any (fun j => y = 2 ^ j) then .corrected d
  else match flipBit y 0 lightColumns with
    | some k => .corrected (d ^^^ 2 ^ k)
    | none => .bad d

/-- Set a word's entry in a sparse table of values that are 0 when unlisted. -/
def putNZ (m : List (Nat × Nat)) (w v : Nat) : List (Nat × Nat) := if v = 0 then kvDel w m else kvPut w v m

/-- The data the requester of a word gets, poison and bad words as stored. -/
def MemSt.delivered (m : MemSt) (w : Nat) : Nat :=
  match m.read w with
  | .clean d => d
  | .corrected d => d
  | .poison => 0
  | .bad d => d

/-- Store a word with a chosen syndrome; the parity follows by the delta between old and new data (R329). -/
def MemSt.store (m : MemSt) (w d syn : Nat) : MemSt :=
  let diff := m.delivered w ^^^ m.data w ^^^ (kvGet w m.diff).getD 0
  { m with cells := memWriteList m.cells w (leBytes 8 d), dev := putNZ m.dev w syn, diff := putNZ m.diff w diff }

/-- Write clean data to a word. -/
def MemSt.write (m : MemSt) (w d : Nat) : MemSt := m.store w d 0

/-- Write poison to a word (R331). -/
def MemSt.poison (m : MemSt) (w : Nat) : MemSt := m.store w 0 0x7F

/-- Cell errors appear. -/
def MemSt.err (m : MemSt) (e : CellErr) : MemSt :=
  { m with
    cells := memWriteList m.cells e.word (leBytes 8 (m.data e.word ^^^ e.data))
    dev := putNZ m.dev e.word (m.syn e.word ^^^ checkByte e.data ^^^ e.check)
    diff := putNZ m.diff e.word ((kvGet e.word m.diff).getD 0 ^^^ e.data) }

/-! ### The page code (R329, R330) -/

/-- Multiplication in GF(2^10) with x^10 + x^3 + 1: `b` bit by bit from bit 9, `acc` the sum so far. -/
def gfMul (a b : Nat) : Nat :=
  (List.range 10).foldl (fun acc k =>
    let d := acc * 2
    let r := if d.testBit 10 then d ^^^ 0x409 else d
    if b.testBit (9 - k) then r ^^^ a else r) 0

/-- The generator ∏(x − α^i), i = 0 to r − 1: coefficients from x^(r−1) down, the leading 1 left out (R329). -/
def gfGen : Nat → Nat → List Nat → List Nat
  | 0, _, g => g
  | n + 1, a, g =>
    let h := g ++ [0]
    let m := (1 :: g).map (gfMul a)
    gfGen n (gfMul a 2) (List.zipWith (· ^^^ ·) h m)

/-- The `r` check symbols of a codeword whose data symbols come highest power first. -/
def rsCheck (r : Nat) (syms : List Nat) : List Nat :=
  let g := gfGen r 1 []
  syms.foldl (fun rem y =>
    let f := y ^^^ rem.headD 0
    List.zipWith (· ^^^ ·) (rem.drop 1 ++ [0]) (g.map (gfMul f))) (List.replicate r 0)

/-- CRC-32 of bytes: the IEEE 802.3 polynomial, bits in the order of IEEE 802.3, initial value 0, no final XOR (assumption 131). -/
def pageCrc (bytes : List Byte) : Nat := crc32 0 bytes

/-- The parity entry of a page of data bytes (R329): 10-bit symbols of the bits in byte order, dealt to `ways` interleaves, each with its
`r` check symbols; those packed from bit 0 upwards, interleave 0 first, then the CRC. Symbols of a codeword stand in rising order
(assumption 131). -/
def parityEntry (ways r : Nat) (bytes : List Byte) : List Byte :=
  let v := leNat bytes
  let n := ceilDiv (8 * bytes.length) 10
  let sym := fun (k : Nat) => v / 2 ^ (10 * k) % 1024
  let chk := (List.range ways).flatMap fun i => rsCheck r (((List.range n).filter (· % ways = i)).map sym)
  leBytes 60 ((chk.zipIdx.map fun e => e.1 * 2 ^ (10 * e.2)).sum) ++ leBytes 4 (pageCrc bytes)

/-- The page of a cell: its first cell address, and its size in bytes. -/
def pageOf (c : Nat) : Nat := if sramBase ≤ c then c / 2048 * 2048 else c / 4096 * 4096
def pageSize (page : Nat) : Nat := if sramBase ≤ page then 2048 else 4096

/-- The fault channel of a page (R335). -/
def pageChannel (page : Nat) : Nat :=
  0x20 * 2 ^ 24 + (if sramBase ≤ page then 2 * 2 ^ 22 + (page - sramBase) / 2048
    else page / 2 ^ 35 * 2 ^ 22 + page % 2 ^ 35 / 65536)

/-- The parity entry of a page as it is stored: that of the data the parity stands for (R329). -/
def MemSt.parity (m : MemSt) (page : Nat) : List Byte :=
  let words := (List.range (pageSize page / 8)).map fun k => page + 8 * k
  parityEntry (if sramBase ≤ page then 2 else 4) (if sramBase ≤ page then 24 else 12)
    (words.flatMap fun w => leBytes 8 (m.data w ^^^ (kvGet w m.diff).getD 0))

/-- The uncorrectable words of a page. -/
def MemSt.badWords (m : MemSt) (page : Nat) : List Nat :=
  (m.dev.filter fun e => decide (page ≤ e.1 ∧ e.1 < page + pageSize page) &&
    (match m.read e.1 with | .bad _ => true | _ => false)).map (·.1)

/-- The 10-bit symbols that bits `lo` to `hi` of the page touch. -/
def symbolsOf (lo hi : Nat) : List Nat := (List.range (hi / 10 + 1 - lo / 10)).map (lo / 10 + ·)

/-- Symbols erased, and other symbols in error, of a page. -/
def MemSt.erasures (m : MemSt) (page : Nat) : List Nat :=
  ((m.badWords page).flatMap fun w => symbolsOf ((w - page) * 8) ((w - page) * 8 + 63)).eraseDups
def MemSt.symErrors (m : MemSt) (page : Nat) : List Nat :=
  let words := m.diff.filter fun e => page ≤ e.1 ∧ e.1 < page + pageSize page ∧ e.1 ∉ m.badWords page
  let wrong := words.flatMap fun e =>
    let left := e.2 ^^^ m.data e.1 ^^^ m.delivered e.1
    ((List.range 64).filter fun k => left.testBit k).map fun k => ((e.1 - page) * 8 + k) / 10
  wrong.eraseDups.filter fun y => y ∉ m.erasures page

/-- Does a page decode succeed (R330)? A page beyond the code's reach is taken to fail its CRC (assumption 24). -/
def MemSt.decodes (m : MemSt) (page : Nat) : Bool :=
  let i := if sramBase ≤ page then 2 else 4
  let r := if sramBase ≤ page then 24 else 12
  (List.range i).all fun k =>
    decide (2 * ((m.symErrors page).filter (· % i = k)).length + ((m.erasures page).filter (· % i = k)).length ≤ r)

/-- How many bits are set in a byte. -/
def popcount8 (x : Nat) : Nat := ((List.range 8).filter fun k => x.testBit k).length

/-- Give an uncorrectable word its decoded data; one whose data is 0 with a check byte within two bits of 0x7F keeps its
poison (R331). -/
def MemSt.fixWord (m : MemSt) (w : Nat) : MemSt :=
  let d := m.data w ^^^ (kvGet w m.diff).getD 0
  let chk := checkByte (m.data w) ^^^ m.syn w
  let m1 := { m with diff := kvDel w m.diff }
  if d = 0 ∧ popcount8 (chk ^^^ 0x7F) ≤ 2 then
    { m1 with cells := memWriteList m.cells w (leBytes 8 0), dev := kvPut w 0x7F m.dev }
  else { m1 with cells := memWriteList m.cells w (leBytes 8 d), dev := kvDel w m.dev }

/-- Poison every uncorrectable word of a page and recompute its parity (Table 17.3). -/
def MemSt.failPage (m : MemSt) (page : Nat) : MemSt :=
  let m1 := (m.badWords page).foldl MemSt.poison m
  { m1 with diff := m1.diff.filter fun e => e.1 < page ∨ page + pageSize page ≤ e.1 }

/-! ### The MEM log (R336) -/

/-- Write one entry at PROD of the ring of 256. -/
def Hub.memLogPut (h : Hub) (rec : List Byte) : Hub :=
  let prod := h.get MEM.LOG_PROD.PROD
  ((List.range 8).foldl (fun a k => a.set2 MEM.LOG.ALL (prod % 256) k (leNat ((rec.drop (4 * k)).take 4))) h).set
    MEM.LOG_PROD.PROD (prod + 1)

/-- Entries in use. -/
def Hub.memLogUsed (h : Hub) : Nat := (h.get MEM.LOG_PROD.PROD + 2 ^ 32 - h.get MEM.LOG_CONS.CONS) % 2 ^ 32

/-- Append an entry under the discipline of R94: without room it is dropped and counted. -/
def State.memLog (s : State) (ev : Ev) : State :=
  let lost : List Byte := lostRecord s.hub s.mem.logDropped
  let s1 : State := if 0 < s.mem.logDropped ∧ s.hub.memLogUsed < 255 then
      { s with hub := s.hub.memLogPut lost, mem := { s.mem with logDropped := 0 } } else s
  if s1.hub.memLogUsed < 255 then
    { s1 with hub := s1.hub.memLogPut (recordBytes ev s1.hub.time.sec s1.hub.time.ns) }
  else
    { s1 with
      hub := s1.hub.err MEM.LOG_LOST.COUNT 0 0x1209 0
      mem := { s1.mem with logDropped := s1.mem.logDropped + 1 } }

/-! ### Page decodes (R330, Table 17.3) -/

/-- The first partition, in image order, that contains a cell. -/
def State.partAt (s : State) (c : Nat) : Option PartRec := s.fab.parts.find? (·.holds c)

/-- The memory address of a cell as a scrub entry gives it: under its partition, or under ORDER_A of the whole HBM. -/
def State.cellAddr (s : State) (c : Nat) : Nat :=
  match s.partAt c with
  | some p => (addrOf p.mem p.order c).getD 0
  | none => if sramBase ≤ c then c - sramBase else (addrOf 2 0 c).getD 0

/-- Rewritten words of a page take 2 bursts each of the group that holds them, of the reservation that read it (R326, Table 17.3). -/
def State.wordsRewritten (s : State) (page sash : Nat) (words : List Nat) : State :=
  if page < sramBase then
    { s with fab := ((words.map (· / 64)).eraseDups).foldl (fun (f : FabSt) b => f.resvTake 1 (mkRef 15 (page / 2 ^ 35) + b / 8 % 8) sash 2) s.fab }
  else s

/-- A page decode ends. A failed one poisons the words, logs, and reports a transient; `scrub` is the scrubber's (R334).
The code of another decode's log entry is not stated: a free value. -/
def State.pageDecode (s0 : State) (page : Nat) (scrub : Bool) : State :=
  let bad := s0.mem.badWords page
  let s := s0.wordsRewritten page (if scrub then 0x401 else 0x403) bad
  if bad = [] then s
  else if s.mem.decodes page then
    { s with
      hub := (s.hub.err MEM.PAGE_FIX.COUNT 0 0x1209 0).raiseRl { code := 0x1202, channel := pageChannel page, detail := [pageChannel page] }
      mem := bad.foldl MemSt.fixWord s.mem }
  else
    let first := bad.headD page
    let part := s.partAt first
    let sash := match part with
      | some p => if p.shared then 0xFFFF else p.owner
      | none => 0xFFFF
    let ev : Ev := if scrub then
        { code := 0x1203, channel := pageChannel page, sash := sash, detail := ((part.map (·.id)).getD 0xFFFF) :: d64 (s.cellAddr first) }
      else { code := s.hub.freeVal 65536, channel := pageChannel page }
    let h1 := s.hub.errN MEM.POISON_WRITTEN.COUNT 0 bad.length 0x1209 0
    let h2 := if scrub then h1.raiseRl { code := 0x1203, channel := pageChannel page, detail := [pageChannel page] } else h1.freeTick
    (({ s with hub := h2, mem := s.mem.failPage page } : State).memLog ev).transient (pageChannel page)

/-! ### Reading and writing for requesters -/

/-- Count a word that the light code corrected (R328). -/
def Hub.countCe (h : Hub) (ch : Nat) : Hub := (h.stat MEM.CE_LO.COUNT 0 1).raiseRl { code := 0x1201, channel := ch, detail := [ch] }

/-- Is a stack in service with its island up? Requests to another wait, and writes to it are discarded (R24, R325). -/
def State.stackLive (s : State) (n : Nat) : Bool :=
  decide (n < s.hub.unitCount 15) && s.hub.get1 MEM.HBM_STAT.STATE n == 2 && s.up (.hbm n)

/-- Can a cell be reached? -/
def State.cellLive (s : State) (c : Nat) : Bool := decide (sramBase ≤ c) || s.stackLive (c / 2 ^ 35)

/-- Does a cell lie in a retired pseudo-channel: reads of it deliver poison, and writes of it fail (R383)? -/
def State.pcLost (s : State) (c : Nat) : Bool := decide (c < sramBase) && s.hub.get2 DBT.CH.STATE 15 (64 * (c / 2 ^ 35) + c / 64 % 64) == 3

/-- Can all of a partition be reached? -/
def State.partLive (s : State) (p : PartRec) : Bool :=
  match p.mem with
  | 0 => s.stackLive 0
  | 1 => s.stackLive 1
  | 2 => s.stackLive 0 && s.stackLive 1
  | _ => true

/-- Writes to cells of a lost stack are discarded whole, and counted by burst (R24). -/
def State.cellsLost (s : State) (cells : List Nat) : State :=
  (((cells.filter fun c => !s.cellLive c).map (· / 64)).eraseDups).foldl (fun a b => a.discard (.hbm (b / 2 ^ 29)) 1) s

/-- The arbiter of group `g` of a stack (KIND 1, Table 3.10). -/
def hbmGroup (stack g : Nat) : Nat := mkRef 15 stack + g

/-- Has a fixed reservation `n` bursts left at every group of a stack? -/
def State.hbmLeft (s : State) (stack sash n : Nat) : Bool := (List.range 8).all fun g => decide (n ≤ s.fab.resvLeft 1 (hbmGroup stack g) sash)

/-- A fixed reservation gives `n` bursts at every group of a stack (Table 4.1, R62). -/
def State.hbmTake (s : State) (stack sash n : Nat) : State :=
  { s with fab := (List.range 8).foldl (fun (f : FabSt) g => f.resvTake 1 (hbmGroup stack g) sash n) s.fab }

/-- The byte at a cell address, with a merge buffer's byte over it (R333), and whether its word is poison, which stays so whatever the
buffer holds. -/
def MemSt.byte (m : MemSt) (c : Nat) : Byte × Bool :=
  let w := c / 8 * 8
  let merged := (kvGet ((c - sramBase) / 2 ^ 22) m.merge).bind fun l => (l.find? (·.word = w)).bind fun e => kvGet c e.bytes
  match (if sramBase ≤ c then merged else none) with
  | some b => (b, match m.read w with | .poison => true | _ => false)
  | none => (BitVec.ofNat 8 (m.delivered w / 2 ^ (8 * (c % 8))), match m.read w with | .poison => true | _ => false)

/-- The byte at a cell, and whether it is poison. -/
def State.cellByte (s : State) (c : Nat) : Byte × Bool :=
  let b := s.mem.byte c
  (b.1, b.2 || s.pcLost c)

/-- Read bytes of a partition: bytes beyond it read 0. Answers the bytes and whether one was poisoned. -/
def State.partRead (s : State) (p : PartRec) (off : Nat) : Nat → List Byte × Bool
  | 0 => ([], false)
  | n + 1 =>
    let here := match p.cell off with
      | some c => s.cellByte c
      | none => (0, false)
    let rest := s.partRead p (off + 1) n
    (here.1 :: rest.1, here.2 || rest.2)

/-- Read a word to merge into it: an uncorrectable one is decoded first (R330), a corrected one counted. -/
def State.mergeRead (s : State) (w : Nat) : State :=
  match s.mem.read w with
  | .bad _ => s.pageDecode (pageOf w) false
  | .corrected _ => { s with hub := s.hub.countCe (pageChannel (pageOf w)) }
  | _ => s

/-- Merge one flushed entry into its word (R333): an old word that is poison, or decodes to it, stays poisoned. -/
def State.mergeFlush (s0 : State) (e : MergeEntry) : State :=
  let full := e.bytes.length = 8
  let s := if full then s0 else s0.mergeRead e.word
  let bytes := (List.range 8).map fun k => (kvGet (e.word + k) e.bytes).getD (BitVec.ofNat 8 (s.mem.delivered e.word / 2 ^ (8 * k)))
  let w : State := { s with mem := s.mem.write e.word (leNat bytes) }
  match s.mem.read e.word with
  | .poison => if full then w
    else { s with hub := (s.hub.err MEM.MERGE_POISON.COUNT 0 0x1209 0).raise { code := 0x1208 } }
  | _ => w

/-- Flush the entries of a group that satisfy a test, oldest first. -/
def State.mergeFlushWhere (s : State) (g : Nat) (p : MergeEntry → Bool) : State :=
  let l := (kvGet g s.mem.merge).getD []
  let keep := l.filter fun e => !p e
  let m : MemSt := { s.mem with merge := if keep = [] then kvDel g s.mem.merge else kvPut g keep s.mem.merge }
  (l.filter p).foldl State.mergeFlush { s with mem := m }

/-- Flush every merge buffer: before anything else of a warm start (R333). -/
def State.mergeFlushAll (s : State) : State := s.mem.merge.foldl (fun a e => a.mergeFlushWhere e.1 fun _ => true) s

/-- One byte enters its group's merge buffer; a complete word is flushed, and a 17th word flushes the oldest (R333). -/
def State.mergePut (s : State) (c : Nat) (b : Byte) : State :=
  let g := (c - sramBase) / 2 ^ 22
  let w := c / 8 * 8
  let l := (kvGet g s.mem.merge).getD []
  let known := l.any (·.word = w)
  let s1 := if !known ∧ 16 ≤ l.length then s.mergeFlushWhere g fun e => l.head? = some e else s
  let l1 := (kvGet g s1.mem.merge).getD []
  let l2 := if known then l1.map fun e => if e.word = w then { e with bytes := kvPut c b e.bytes } else e
    else l1 ++ [{ word := w, bytes := [(c, b)], taken := s.hub.hcNow }]
  ({ s1 with mem := { s1.mem with merge := kvPut g l2 s1.mem.merge } } : State).mergeFlushWhere g fun e => 8 ≤ e.bytes.length

/-- Write one byte to an HBM cell within its burst: a poisoned word keeps its poison (R332). -/
def MemSt.putByte (m : MemSt) (c : Nat) (b : Byte) : MemSt :=
  let w := c / 8 * 8
  match m.read w with
  | .poison => m
  | _ =>
    let d := m.delivered w
    let k := 2 ^ (8 * (c % 8))
    m.write w (d - d / k % 256 * k + b.toNat * k)

/-- Write one byte to a cell. -/
def State.cellPut (s : State) (c : Nat) (b : Byte) : State :=
  if sramBase ≤ c then s.mergePut c b
  else if s.cellLive c ∧ !s.pcLost c then
    let s1 := s.mergeRead (c / 8 * 8)
    { s1 with mem := s1.mem.putByte c b }
  else s

/-- Write a whole word to a cell. -/
def State.wordPut (s : State) (c d : Nat) : State := if s.cellLive c ∧ !s.pcLost c then { s with mem := s.mem.write c d } else s

/-- Write bytes of a partition at rising offsets. Each whole word is written at once, clearing poison. -/
def State.partPut (s : State) (p : PartRec) (off : Nat) : List Byte → State
  | [] => s
  | b0 :: b1 :: b2 :: b3 :: b4 :: b5 :: b6 :: b7 :: t =>
    if off % 8 = 0 then
      match p.cell off with
      | some c => (s.wordPut c (leNat [b0, b1, b2, b3, b4, b5, b6, b7])).partPut p (off + 8) t
      | none => s.partPut p (off + 8) t
    else
      match p.cell off with
      | some c => (s.cellPut c b0).partPut p (off + 1) (b1 :: b2 :: b3 :: b4 :: b5 :: b6 :: b7 :: t)
      | none => s.partPut p (off + 1) (b1 :: b2 :: b3 :: b4 :: b5 :: b6 :: b7 :: t)
  | b :: t =>
    match p.cell off with
    | some c => (s.cellPut c b).partPut p (off + 1) t
    | none => s.partPut p (off + 1) t

/-- Write bytes of a partition; what a lost stack would take is discarded (R24). -/
def State.partWrite (s : State) (p : PartRec) (off : Nat) (l : List Byte) : State :=
  if s.partLive p then s.partPut p off l
  else (s.cellsLost ((List.range l.length).filterMap fun k => p.cell (off + k))).partPut p off l

/-- Poison the words of a partition that `n` bytes at `off` touch (R332). -/
def State.partPoison (s : State) (p : PartRec) (off : Nat) : Nat → State
  | 0 => s
  | n + 1 =>
    let s1 : State := match p.cell off with
      | some c => if s.cellLive c then { s with mem := s.mem.poison (c / 8 * 8) } else s
      | none => s
    s1.partPoison p (off + 1) n

/-! ### BAR2 (R324, R332, R365) -/

/-- How many stacks are in service. -/
def Hub.stacksUp (h : Hub) : Nat := ((List.range 2).filter h.stackUp).length

/-- The memory address space behind BAR2: MEM, and the address; none beyond memory (R324). -/
def Hub.bar2Mem (h : Hub) (off : Nat) : Option (Nat × Nat) :=
  if h.stackUp 0 ∧ h.stackUp 1 then (if off < 2 ^ 36 then some (2, off) else none)
  else if h.stackUp 0 then (if off < 2 ^ 35 then some (0, off) else none)
  else if h.stackUp 1 then (if off < 2 ^ 35 then some (1, off) else none)
  else none

/-- Does partition `p` contain address `a` of BAR2's memory `mem`? -/
def PartRec.spans (p : PartRec) (mem a : Nat) : Bool :=
  let b := if mem = 2 ∧ p.mem = 1 then p.base + 2 ^ 35 else p.base
  decide ((p.mem = mem ∨ (mem = 2 ∧ p.mem ≤ 1)) ∧ b ≤ a ∧ a < b + p.size)

/-- The cell a BAR2 byte reaches for function `fn`: under the order of the first partition that contains it, else ORDER_A;
a VF reaches only partitions owned by its sashes (R365). -/
def State.bar2Cell (s : State) (fn off : Nat) : Option Nat :=
  match s.hub.bar2Mem off with
  | none => none
  | some (mem, a) =>
    match s.fab.parts.find? (fun p => p.spans mem a) with
    | some p =>
      if fn ≠ 0 ∧ (p.shared ∨ s.hub.owner HIF.VF_SASH.BASE p.owner ≠ fn) then none
      else if p.mem = mem then cellOf mem p.order a
      else cellOf p.mem p.order (if p.mem = 1 then a - 2 ^ 35 else a)
    | none => if fn ≠ 0 then none else cellOf mem 0 a

/-- Read BAR2 bytes: those that reach no memory read 0. -/
def State.bar2Bytes (s : State) (fn off : Nat) : Nat → List Byte × Bool
  | 0 => ([], false)
  | n + 1 =>
    let here := match s.bar2Cell fn off with
      | some c => s.cellByte c
      | none => (0, false)
    let rest := s.bar2Bytes fn (off + 1) n
    (here.1 :: rest.1, here.2 || rest.2)

/-- Words, by cell address, that a BAR2 access reaches. -/
def State.bar2Words (s : State) (fn off n : Nat) : List Nat :=
  ((List.range n).filterMap fun k => (s.bar2Cell fn (off + k)).map fun c => c / 8 * 8).eraseDups

/-- A read completes. -/
def State.bar2Complete (s : State) (fn off n : Nat) : State :=
  let r := s.bar2Bytes fn off n
  { s with hub := s.hub.emit (.memRead off r.1 r.2) }

/-- Is a cell's page being copied to its spare? Requests to it are held meanwhile (R384). -/
def DbtSt.copying (d : DbtSt) (c : Nat) : Bool := d.remaps.any fun r => !r.done && decide (pageChannel (pageOf c) = r.channel)

/-- A read in service: a lost stack or a page being copied holds it (R24, R384), an uncorrectable word holds it until its page is decoded (R330), a corrected word is
counted. -/
def State.bar2Read (s : State) (fn off n : Nat) : State :=
  let ws := s.bar2Words fn off n
  if ws.any fun w => !s.cellLive w || s.dbt.copying w then { s with mem := { s.mem with held := s.mem.held ++ [⟨fn, off, n, none⟩] } }
  else match ws.find? (fun w => match s.mem.read w with | .bad _ => true | _ => false) with
    | some w => { s with mem := { s.mem with held := s.mem.held ++ [⟨fn, off, n, some (pageOf w)⟩] } }
    | none =>
      let ce := ws.filter fun w => match s.mem.read w with | .corrected _ => true | _ => false
      ({ s with hub := ce.foldl (fun h w => h.countCe (pageChannel (pageOf w))) s.hub } : State).bar2Complete fn off n

/-- BAR2_READ (R324): frozen, it reads all ones (Table 19.6); none arrives while the PCIe island is down (R24). -/
def execBar2Read (fn off n : Nat) (s : State) : Host.Outcome State Fault Refusal :=
  .next (if s.hub.pcieDown then s else match s.hub.bar with
    | .frozen => { s with hub := s.hub.emit (.memRead off (List.replicate n 0xFF) false) }
    | .live => s.bar2Read fn off n
    | _ => s)

/-- Reads that a lost stack held go on. -/
def State.bar2Resume (s : State) : State :=
  let wait := s.mem.held.filter (·.page = none)
  wait.foldl (fun a r => a.bar2Read r.fn r.off r.len) { s with mem := { s.mem with held := s.mem.held.filter (·.page ≠ none) } }

/-- ISLAND_RETURN (R24): the synchroniser resumes at the next packet, flit or burst boundary. -/
def execIslandReturn (i : Island) (s : State) : Host.Outcome State Fault Refusal := .next (s.islandBack i).bar2Resume

/-- The cells that a BAR2 access reaches. -/
def State.bar2Cells (s : State) (fn off n : Nat) : List Nat := (List.range n).filterMap fun k => s.bar2Cell fn (off + k)

/-- Write BAR2 bytes. Whole aligned words are written at once, so that they clear poison. -/
def State.bar2Put (s : State) (fn off : Nat) : List Byte → State
  | [] => s
  | b0 :: b1 :: b2 :: b3 :: b4 :: b5 :: b6 :: b7 :: t =>
    match s.bar2Cell fn off with
    | some c =>
      if off % 8 = 0 then (s.wordPut c (leNat [b0, b1, b2, b3, b4, b5, b6, b7])).bar2Put fn (off + 8) t
      else (s.cellPut c b0).bar2Put fn (off + 1) (b1 :: b2 :: b3 :: b4 :: b5 :: b6 :: b7 :: t)
    | none => s.bar2Put fn (off + 1) (b1 :: b2 :: b3 :: b4 :: b5 :: b6 :: b7 :: t)
  | b :: t =>
    match s.bar2Cell fn off with
    | some c => (s.cellPut c b).bar2Put fn (off + 1) t
    | none => s.bar2Put fn (off + 1) t

/-- BAR2_WRITE (R332): a poisoned TLP stores poison in every word it touches; what a lost stack would take is discarded (R24). -/
def execBar2Write (fn off : Nat) (bytes : List Byte) (poison : Bool) (s : State) : Host.Outcome State Fault Refusal :=
  .next (if s.hub.hostIn then
      let s1 := s.cellsLost (s.bar2Cells fn off bytes.length)
      (if poison then { s1 with mem := ((s1.bar2Words fn off bytes.length).filter s1.cellLive).foldl MemSt.poison s1.mem }
       else s1.bar2Put fn off bytes)
    else s)

/-- May a page be decoded now? A decode of HBM reads 8 bursts of each group from the Deadbolt's reservation: 8 decodes a period, and a ninth
waits (R330); one on a lost stack waits (R24). -/
def State.decodeGo (s : State) (page : Nat) : Bool :=
  decide (sramBase ≤ page) || (s.cellLive page && s.hbmLeft (page / 2 ^ 35) 0x403 8)

/-- PAGE_DECODE_DONE (R330): the page that contains cell `cell`, with the cell errors present in it; requests held for it
complete. -/
def execPageDecodeDone (cell : Nat) (errs : List CellErr) (s : State) : Host.Outcome State Fault Refusal :=
  let page := pageOf cell
  let s0 : State := { s with mem := errs.foldl MemSt.err s.mem }
  .next (if s0.decodeGo page then
      let s1 := (if page < sramBase then s0.hbmTake (page / 2 ^ 35) 0x403 8 else s0).pageDecode page false
      let s2 : State := { s1 with mem := { s1.mem with held := s1.mem.held.filter (·.page ≠ some page) } }
      (s.mem.held.filter (·.page = some page)).foldl (fun a r => a.bar2Complete r.fn r.off r.len) s2
    else s0)

/-! ### Refresh, temperature, scrubbing, parity (R327, R334, R336) -/

/-- The refresh interval of a stack, in ns (R327). -/
def Hub.refreshNs (h : Hub) (stack : Nat) : Nat := if h.get1 MEM.HBM_STAT.HOT stack = 1 then 1950 else 3900

/-- HBM_REFRESH (R327): an interval after the last, the stack refreshes. It holds its requests for 656 cycles, 1,312 bursts of each group,
which the refresh reservation pays (Table 4.1). -/
def execHbmRefresh (stack : Nat) (s : State) : Host.Outcome State Fault Refusal :=
  .next (if s.stackLive stack ∧ ((kvGet stack s.mem.refreshed).map (· + s.hub.refreshNs stack)).getD 0 ≤ s.hub.elapsed then
      ({ s with mem := { s.mem with refreshed := kvPut stack s.hub.elapsed s.mem.refreshed } } : State).hbmTake stack 0x400 1312
    else s)

/-- HBM_TEMP_READING (R327): TEMP saturates at 0 and 255; above 85 °C the stack turns HOT, below 80 °C it turns back. -/
def execHbmTempReading (stack : Nat) (temp : Int) (s : State) : Host.Outcome State Fault Refusal :=
  let h := s.hub.set1 MEM.HBM_STAT.TEMP stack (min (max temp 0) 255).toNat
  let hot := h.get1 MEM.HBM_STAT.HOT stack
  .next (if 2 ≤ stack ∨ s.hub.unitCount 15 ≤ stack then s
    else if hot = 0 ∧ 85 < temp then
      { s with hub := (h.set1 MEM.HBM_STAT.HOT stack 1).raise { code := 0x1205, detail := [stack, 1] } }
    else if hot = 1 ∧ temp < 80 then
      { s with hub := (h.set1 MEM.HBM_STAT.HOT stack 0).raise { code := 0x1205, detail := [stack, 0] } }
    else { s with hub := h })

/-- The first cell and the words of the test region (R337), while one is enabled. -/
def Hub.testRegion (h : Hub) : Option (Nat × Nat) :=
  let ch := h.get MEM.TEST_CTL.CHANNEL
  if h.get MEM.TEST_CTL.ENABLE = 0 then none
  else match ch / 2 ^ 22 with
    | 0 => some (ch % 2 ^ 19 * 65536, 8192)
    | 1 => some (2 ^ 35 + ch % 2 ^ 19 * 65536, 8192)
    | 2 => some (sramBase + ch % 2 ^ 18 * 2048, 256)
    | _ => none

/-- Does a page lie in the test region? -/
def Hub.inTest (h : Hub) (page : Nat) : Bool :=
  match h.testRegion with
  | some (b, n) => decide (b ≤ page ∧ page < b + 8 * n)
  | none => false

/-- Does the scrubber read a page: memory in service, not the Deadbolt's region, not the region under test? -/
def Hub.scrubs (h : Hub) (page : Nat) : Bool :=
  h.get MEM.SCRUB_CTL.ENABLE == 1 && !h.inTest page &&
    (if sramBase ≤ page then decide (page < sramBase + sramSize) && !decide (sramBase + 0x13800000 ≤ page ∧ page < sramBase + 0x13900000)
     else h.stackUp (page / 2 ^ 35))

/-- Pages of a stack (R334). -/
def stackPages : Nat := 2 ^ 23

/-- A pass takes HOURS hours: 0 acts as 1, values above 168 as 168. -/
def Hub.scrubNs (h : Hub) : Nat := min (max (h.get MEM.SCRUB_CTL.HOURS) 1) 168 * 3600000000000

/-- The page the scrubber is to read next of a stack, from page `k` on: those of a region under test are skipped (R337). `fuel` bounds the
search: a region holds 16 pages. -/
def Hub.scrubSkip (h : Hub) (stack : Nat) : Nat → Nat → Nat
  | 0, k => k
  | fuel + 1, k => if h.inTest (stack * 2 ^ 35 + k * 4096) then h.scrubSkip stack fuel ((k + 1) % stackPages) else k

/-- The scrubber's pass over a stack: its next page and its start. -/
def State.scrubAt (s : State) (stack : Nat) : Nat × Nat :=
  let x := (kvGet stack s.mem.scrub).getD (0, s.hub.elapsed)
  (s.hub.scrubSkip stack 17 x.1, x.2)

/-- Is the scrubber to read a page now (R334)? HBM pages in rising order, spread evenly over the pass, each from 8 bursts of the scrubber's
reservation at each group; a line of the packet buffer from its bank's reservation. -/
def State.scrubDue (s : State) (page : Nat) : Bool :=
  if page < sramBase then
    let st := page / 2 ^ 35
    let x := s.scrubAt st
    s.cellLive page && page % 2 ^ 35 / 4096 == x.1 && decide (x.2 + x.1 * s.hub.scrubNs / stackPages ≤ s.hub.elapsed) && s.hbmLeft st 0x401 8
  else (List.range 32).all fun k =>
    decide (sramBase + 96 * 2 ^ 20 ≤ page) || decide (1 ≤ s.fab.resvLeft 3 ((page / 64 + k) % bufferBanks) 0x401)

/-- The scrubber has read a page: its reservation is used, and its pass goes on. -/
def State.scrubbed (s : State) (page : Nat) : State :=
  if page < sramBase then
    let st := page / 2 ^ 35
    let x := s.scrubAt st
    let k := (x.1 + 1) % stackPages
    let s1 := s.hbmTake st 0x401 8
    { s1 with mem := { s1.mem with scrub := kvPut st (k, if k = 0 then s.hub.elapsed else x.2) s1.mem.scrub } }
  else if page < sramBase + 96 * 2 ^ 20 then
    { s with fab := (List.range 32).foldl (fun (f : FabSt) k => f.resvTake 3 ((page / 64 + k) % bufferBanks) 0x401 1) s.fab }
  else s

/-- Rewrite the correctable words of a page. -/
def MemSt.rewrite (m : MemSt) (page : Nat) : MemSt :=
  (m.dev.filter fun e => decide (page ≤ e.1 ∧ e.1 < page + pageSize page)).foldl (fun a e =>
    match a.read e.1 with
    | .corrected d => a.write e.1 d
    | _ => a) m

/-- How many words of a page the light code corrects. -/
def MemSt.correctable (m : MemSt) (page : Nat) : Nat :=
  (m.dev.filter fun e => decide (page ≤ e.1 ∧ e.1 < page + pageSize page) &&
    (match m.read e.1 with | .corrected _ => true | _ => false)).length

/-- The scrubber rewrites the correctable words of a page (R334). -/
def State.scrubRewrite (s : State) (page : Nat) : State :=
  let words := (s.mem.dev.filter fun e => decide (page ≤ e.1 ∧ e.1 < page + pageSize page) &&
    (match s.mem.read e.1 with | .corrected _ => true | _ => false)).map (·.1)
  ({ s with mem := s.mem.rewrite page } : State).wordsRewritten page 0x401 words

/-- SCRUB_VISIT (R334): the scrubber reads the page that contains cell `cell`, in which the given cell errors are
present; PROGRESS follows the HBM pass. -/
def execScrubVisit (cell : Nat) (errs : List CellErr) (s : State) : Host.Outcome State Fault Refusal :=
  let page := pageOf cell
  let m := errs.foldl MemSt.err s.mem
  .next (if s.hub.scrubs page ∧ s.scrubDue page then
      let h1 := (List.range (m.correctable page)).foldl (fun h _ => h.countCe (pageChannel page)) s.hub
      let h2 := if page < sramBase then h1.set MEM.SCRUB_STAT.PROGRESS (page % 2 ^ 35 / 2 ^ 27) else h1
      let s1 := ({ s with hub := h2, mem := m } : State).scrubbed page
      (s1.pageDecode page true).scrubRewrite page
    else { s with mem := m })

/-- MERGE_FLUSH_TIMEOUT (R333): the entry of the word at cell `word` is flushed once it is 64 hc old. -/
def execMergeFlushTimeout (word : Nat) (s : State) : Host.Outcome State Fault Refusal :=
  .next (if s.hub.get GLB.STATUS.FROZEN = 1 then s
    else s.mergeFlushWhere ((word - sramBase) / 2 ^ 22) fun e => e.word = word / 8 * 8 ∧ e.taken + 64 ≤ s.hub.hcNow)

/-- CA_PARITY_ERROR (R336): a command of `stack`, pseudo-channel `pch` met a parity error; `second` is the retry's.
A second error on a write poisons the burst at cell `cell` once a command succeeds. -/
def execCaParityError (stack pch cell : Nat) (wr second : Bool) (s : State) : Host.Outcome State Fault Refusal :=
  let ch := 15 * 2 ^ 24 + 64 * stack + pch
  let h := (s.hub.err MEM.CA_PARITY.COUNT 0 0x1209 0).raise { code := 0x1204, channel := ch, detail := [stack, pch] }
  let burst := cell / 64 * 64
  let m := if wr ∧ second then (List.range 8).foldl (fun m k => m.poison (burst + 8 * k)) s.mem else s.mem
  let h1 := if second ∧ wr then h.errN MEM.POISON_WRITTEN.COUNT 0 8 0x1209 0 else h
  .next (if s.hub.stackUp stack then
      ((({ s with hub := h1, mem := m } : State).memLog { code := 0x1204, channel := ch, detail := [stack, pch] })).transient ch
    else s)

/-! ### Checker test mode (R337) -/

/-- The cell address of the word that TEST_ADDR names: beyond the region, its last. None while host writes do not arrive, or where the
stack is lost. -/
def State.testWord (s : State) : Option Nat :=
  if s.hub.hostIn then
    match s.hub.testRegion with
    | some r =>
      let w := r.1 + 8 * min (s.hub.get MEM.TEST_ADDR.WORD) (r.2 - 1)
      if s.cellLive w then some w else none
    | none => none
  else none

/-- A test access to HBM draws from the Deadbolt's reservation (R337). -/
def State.testTake (s : State) (w n : Nat) : State :=
  if w < sramBase then { s with fab := s.fab.resvTake 1 (hbmGroup (w / 2 ^ 35) (w / 512 % 8)) 0x403 n } else s

/-- RAW_WRITE (R337): data and check byte as given, the parity not updated. -/
def execRawWrite (s : State) : Host.Outcome State Fault Refusal :=
  .next (match s.testWord with
    | some w =>
      let d := s.hub.get64 MEM.TEST_DATA_LO.DATA 0
      let old := s.mem.data w
      ({ s with mem := { s.mem with
        cells := memWriteList s.mem.cells w (leBytes 8 d)
        dev := putNZ s.mem.dev w (checkByte d ^^^ s.hub.get MEM.TEST_CHECK.CHECK)
        diff := putNZ s.mem.diff w ((kvGet w s.mem.diff).getD 0 ^^^ old ^^^ d) } } : State).testTake w 2
    | none => s)

/-- RAW_READ (R337): the stored data and check byte. -/
def execRawRead (s : State) : Host.Outcome State Fault Refusal :=
  .next (match s.testWord with
    | some w =>
      let c := checkByte (s.mem.data w) ^^^ s.mem.syn w
      ({ s with hub := (s.hub.set64 MEM.TEST_DATA_LO.DATA 0 (s.mem.data w)).set MEM.TEST_CHECK.CHECK c } : State).testTake w 1
    | none => s)

/-- The outcome of a checked read: RESULT of Table 17.6 and the data. -/
def MemSt.checked (m : MemSt) (w : Nat) : Nat × Nat :=
  match m.read w with
  | .clean d => (1, d)
  | .corrected d => (2, d)
  | .poison => (4, 0)
  | .bad _ =>
    if m.decodes (pageOf w) then
      let f := m.fixWord w
      match f.read w with
      | .clean d => (3, d)
      | _ => (4, 0)
    else (4, 0)

/-- CHECKED_READ (R337): applies the codes and answers RESULT, the syndrome as read and the data; nothing is written
back or logged. -/
def execCheckedRead (s : State) : Host.Outcome State Fault Refusal :=
  .next (match s.testWord with
    | some w =>
      let r := s.mem.checked w
      let h := (s.hub.set MEM.TEST_RESULT.RESULT r.1).set MEM.TEST_RESULT.SYNDROME (s.mem.syn w)
      ({ s with hub := h.set64 MEM.TEST_DATA_LO.DATA 0 r.2 } : State).testTake w 1
    | none => s)

/-- The words of a page on its spare: each as it was delivered, an uncorrectable one poisoned (R384). -/
def MemSt.copied (m : MemSt) (ch : Nat) : MemSt :=
  (m.dev.filter fun e => decide (pageChannel (pageOf e.1) = ch)).foldl (fun (a : MemSt) e =>
    let r := m.checked e.1
    if r.1 = 4 then a.poison e.1 else a.write e.1 r.2) m

/-- PAGE_REMAP_DONE (R384): the copy of a retired page to its spare completes; later accesses reach the spare, and the reads held for it go
on. -/
def execPageRemapDone (channel : Nat) (s : State) : Host.Outcome State Fault Refusal :=
  .next (if s.dbt.remaps.any fun r => r.channel = channel ∧ !r.done then
      ({ s with
        mem := s.mem.copied channel
        dbt := { s.dbt with remaps := s.dbt.remaps.map fun r => if r.channel = channel then { r with done := true } else r } } : State).bar2Resume
    else s)

end Sys2Proof.Machine
end

