-- ==== Sys2Proof/Machine/Cipher.lean ====
section
/-!
DEFINITION. Cipher lanes and key slots (chapter 15): key writes and erases, generations, usage limits, indices, lanes and
their checks. What the cipher itself computes is given by the command's operands: whether an unwrap's integrity check and
an authentication pass, and whether the two pipelines agree (assumption 21).
-/

namespace Sys2Proof.Machine

/-- A key slot. -/
def CipSt.slot (c : CipSt) (n : Nat) : KeySlot := (kvGet n c.slots).getD {}

/-- Replace a key slot. -/
def State.setSlot (s : State) (n : Nat) (k : KeySlot) : State := { s with cip := { s.cip with slots := kvPut n k s.cip.slots } }

/-- A mode's own limit (Table 15.2); 0 for a mode that is not listed. -/
def modeLimit (m : Nat) : Nat := if m = 1 then 2 ^ 48 else if 2 ≤ m ∧ m ≤ 7 then 2 ^ 32 else 0

/-- The hard maximum in force for a mode (R295). -/
def Hub.hardMax (h : Hub) (m : Nat) : Nat := min (h.get64 CIP.HARD_MAX_LO.MAX m) (modeLimit m)

/-- Tag bytes a mode adds to a packet. -/
def CipSt.tagLen (c : CipSt) (n : Nat) : Nat :=
  match (c.slot n).mode with
  | 1 => 10
  | 2 => 16
  | 3 => 16
  | _ => 0

/-! ### Key writes (R296) -/

/-- A field of the window copies of function `fn`. -/
def Hub.kw (h : Hub) (fn : Nat) (f : Fld) : Nat := f.of (h.rd (winKey fn (f.off 0 0)))
def Hub.setKw (h : Hub) (fn : Nat) (f : Fld) (v : Nat) : Hub :=
  h.wr (winKey fn (f.off 0 0)) (f.into (h.rd (winKey fn (f.off 0 0))) v)

/-- Start a key operation: BUSY and SLOT; while BUSY is 1 the write is discarded (R296). -/
def State.keyStart (s : State) (fn : Nat) (erase : Bool) (val : Word) : State :=
  if !s.hub.hostIn ∨ s.hub.kw fn CIP.KW_STAT.BUSY = 1 ∨ 63 < fn then s
  else
    let n := CIP.KW_CMD.SLOT.of val
    { s with
      hub := (s.hub.setKw fn CIP.KW_STAT.BUSY 1).setKw fn CIP.KW_STAT.SLOT n
      cip := { s.cip with jobs := kvPut fn ⟨erase, decide (CIP.KW_CMD.LATCHED.of val = 1), n⟩ s.cip.jobs } }

/-- KEY_WRITE (R296): a KW_CMD write with OP WRITE. -/
def execKeyWrite (fn : Nat) (val : Word) (s : State) : Host.Outcome State Fault Refusal :=
  .next (if CIP.KW_CMD.OP.of val = 1 then s.keyStart fn false val else s)

/-- KEY_ERASE (R297): a KW_CMD write with OP ERASE. -/
def execKeyErase (fn : Nat) (val : Word) (s : State) : Host.Outcome State Fault Refusal :=
  .next (if CIP.KW_CMD.OP.of val = 2 then s.keyStart fn true val else s)

/-- A key operation completes: BUSY returns to 0 with RESULT, the buffer is cleared, and its event is raised. -/
def State.keyDone (s : State) (fn n result : Nat) : State :=
  let h0 := (s.hub.setKw fn CIP.KW_STAT.BUSY 0).setKw fn CIP.KW_STAT.RESULT result
  let h1 := (List.range 22).foldl (fun h k => h.wr (winKey fn (CIP.KW_BUF.BLOB.off k 0)) 0) h0
  { s with
    hub := if result = 0 ∨ result = 5 then h1.raise { code := 0x1009, detail := [n, result, (s.cip.slot n).gen] }
      else h1.raise { code := 0x100A, detail := [n, result] }
    cip := { s.cip with jobs := kvDel fn s.cip.jobs } }

/-- The limits of a written record (R295): the hard limit in force, and the result: 0 OK, or 5 CLAMPED where a non-zero HARD was cut. -/
def Hub.keyHard (h : Hub) (mode hard : Nat) : Nat × Nat :=
  if hard = 0 then (h.hardMax mode, 0)
  else if h.hardMax mode < hard then (h.hardMax mode, 5) else (hard, 0)

/-- The operation that a record describes. -/
def keyOp (r : List Byte) : KeyOp :=
  { erase := false, mode := bodyU8 r 2, dec := decide (bodyU8 r 3 % 2 = 1), bytes := (r.drop 8).take 48, soft := bodyN r 0x38 8
    hard := bodyN r 0x40 8, start := bodyN r 0x48 8 }

/-- An erase. -/
def keyErasure : KeyOp := ⟨true, 0, false, [], 0, 0, 0⟩

/-- The RESULT of an operation, by the maximum in force (R295). -/
def Hub.keyResult (h : Hub) (op : KeyOp) : Nat := if op.erase then 0 else (h.keyHard op.mode op.hard).2

/-- How long a decrypt slot keeps its former key, in ns (`DEC_HOLD_MS`, R298). -/
def Hub.decHold (h : Hub) : Nat := 1000000 * min (h.get CIP.CFG.DEC_HOLD_MS) 1000

/-- Why an unwrapped record is refused, if it is (R296). -/
def keyRefused (job : KwJob) (r : Option (List Byte)) : Option Nat :=
  if job.erase then none
  else match r with
    | none => some 1
    | some b => if bodyN b 0 2 ≠ job.slot then some 2 else if modeLimit (bodyU8 b 2) = 0 then some 3 else none

/-- The material of a slot's current generation. -/
def KeySlot.mat (k : KeySlot) : KeyMat := ⟨k.gen, k.key⟩

/-- Does a held operation name slot `n`? -/
def holdsKey (n : Nat) (i : OpenEntry) : Bool :=
  match i.item with
  | .change (.keyUnwrapDone _ m _ _) => m == n
  | _ => false

/-- Discard the held operations on a slot: in the open set and in sealed Latches (R297). -/
def LchSt.dropKey (l : LchSt) (n : Nat) : LchSt :=
  { l with
    openSet := l.openSet.filter fun i => !holdsKey n i
    pend := l.pend.map fun p => { p with items := p.items.filter fun i => !holdsKey n i } }

/-- A key operation takes effect now (R297, R298): a hard limit is cut to the maximum then in force (R295), and DEC_HOLD_MS is read
then (assumption 127). -/
def State.keyEffect (s : State) (n : Nat) (op : KeyOp) : State :=
  let k := s.cip.slot n
  if op.erase then
    ({ s with lch := s.lch.dropKey n } : State).setSlot n
      { state := 0, gen := k.gen, drain := if k.state = 0 then none else some k.mat }
  else
    let keep := k.dec ∧ k.state ≠ 0 ∧ s.hub.decHold ≠ 0
    s.setSlot n
      { state := 1, mode := op.mode, dec := op.dec, gen := (k.gen + 1) % 2 ^ 32, key := op.bytes, soft := op.soft
        hard := (s.hub.keyHard op.mode op.hard).1
        fail := k.fail
        heldEnd := s.hub.elapsed + s.hub.decHold
        drain := if keep then k.held else if k.state = 0 then k.held else some k.mat
        held := if keep then some k.mat else none
        pn := if (op.mode = 4 ∨ op.mode = 5) ∧ !op.dec then max op.start 1 else 1 }

/-- A change falls due: it waits while an earlier generation drains (R297). `fn` is the function whose BUSY waits. -/
def State.keyDue (s : State) (n : Nat) (op : KeyOp) (fn : Option Nat) : State :=
  let k := s.cip.slot n
  if k.drain.isSome then s.setSlot n { k with wait := k.wait ++ [(op, fn)] }
  else
    let s1 := s.keyEffect n op
    match fn with
    | some f => s1.keyDone f n (s.hub.keyResult op)
    | none => s1

/-- Does function `fn` own a slot for key operations (R296, R366)? -/
def Hub.ownsSlot (h : Hub) (fn n : Nat) : Bool := fn == 0 || h.owner HIF.VF_SLOT.BASE n == fn

/-- Does an operation of function `fn` wait for a slot's drain? -/
def CipSt.keyWaits (c : CipSt) (fn : Nat) : Bool := c.slots.any fun k => k.2.wait.any fun w => w.2 == some fn

/-- KEY_UNWRAP_DONE (R297): the Deadbolt finishes the operation of function `fn`. `rec` is the 80-byte record where the
unwrap's integrity check passes. A LATCHED one is held and becomes a shadow write of that function, replacing an earlier
held operation on the slot. -/
def execKeyUnwrapDone (fn slot : Nat) (erase : Bool) (rec : Option (List Byte)) (s : State) : Host.Outcome State Fault Refusal :=
  .next (match kvGet fn s.cip.jobs with
    | none => s
    | some job =>
      let r := if s.dbt.wrapKey.isSome then rec else none
      if s.hub.get GLB.STATUS.FROZEN = 1 ∨ job.slot ≠ slot ∨ job.erase ≠ erase ∨ s.cip.keyWaits fn then s
      else if !s.hub.ownsSlot fn job.slot then s.keyDone fn job.slot 4
      else match keyRefused job r with
        | some res => s.keyDone fn job.slot res
        | none =>
          let op : KeyOp := if job.erase then keyErasure else keyOp (r.getD [])
          if job.latched then
            let kept := s.lch.openSet.filter fun i => !holdsKey job.slot i
            let item : OpenEntry := ⟨fn, .change (.keyUnwrapDone fn job.slot job.erase r)⟩
            ({ s with lch := { s.lch with openSet := kept ++ [item] } } : State).keyDone fn job.slot (s.hub.keyResult op)
          else s.keyDue job.slot op (some fn))

/-- A held key operation takes effect at its Latch (R297). -/
def State.keyChange (s : State) (i : Instr) : State :=
  match i with
  | .keyUnwrapDone _ n erase r =>
    s.keyDue n (if erase then keyErasure else keyOp (r.getD [])) none
  | _ => s

/-- KEY_DRAIN_END (R297): the drained generation's key is zeroised and the changes that waited fall due in turn. -/
def execKeyDrainEnd (slot : Nat) (s : State) : Host.Outcome State Fault Refusal :=
  let k := s.cip.slot slot
  .next (if k.drain.isNone then s
    else
      k.wait.foldl (fun a w => a.keyDue slot w.1 w.2) (s.setSlot slot { k with drain := none, wait := [] }))

/-- HELD_KEY_EXPIRY (R298): DEC_HOLD_MS after the write. -/
def execHeldKeyExpiry (slot : Nat) (s : State) : Host.Outcome State Fault Refusal :=
  let k := s.cip.slot slot
  .next (if k.held.isNone ∨ s.hub.elapsed < k.heldEnd then s else s.setSlot slot { k with held := none })

/-! ### Lanes (R302, R303) -/

/-- Does a sash in force use a unit? -/
def FabSt.usesUnit (f : FabSt) (d : SashRec) (ref : Nat) : Bool := (sashRefs d f.paths).any fun r => refUnit r.1 = ref

/-- Sashes of the definition in force, by rising ID. -/
def FabSt.byId (f : FabSt) : List SashRec := f.sashes.mergeSort fun a b => a.id ≤ b.id

/-- The sash of a port or link: the lowest RUNNING sash that holds it; 0xFFFF where none does (assumption 126). -/
def State.unitSash (s : State) (ref : Nat) : Nat :=
  ((s.fab.byId.find? fun d => s.hub.sashState d.id = 3 ∧ s.fab.usesUnit d ref).map (·.id)).getD 0xFFFF

/-- What a sash has left in the period at a lane: none where it holds no slat there. -/
def State.laneTokens (s : State) (sash n : Nat) : Option Int := (s.fab.counter 4 (mkRef 7 n) sash).map TokenCtr.count

/-- The lanes of a sash, lowest number first; with `tokens`, those that hold tokens. -/
def State.cipLanes (s : State) (sash : Nat) (tokens : Bool) : List Nat :=
  (List.range (s.hub.unitCount 7)).filter fun n =>
    s.hub.get2 DBT.CH.STATE 7 n != 3 &&
      match s.laneTokens sash n with
      | some c => !tokens || decide (0 < c)
      | none => false

/-- Blocks queued at a lane, which computes one each hc. -/
def State.laneQueue (s : State) (n : Nat) : Nat := (kvGet n s.cip.ends).getD 0 - s.hub.hcNow

/-- Of a list of lanes the one with the fewest blocks queued, the first winning a tie. -/
def State.leastQueued (s : State) : List Nat → Option Nat
  | [] => none
  | n :: t => match s.leastQueued t with
    | some m => if s.laneQueue m < s.laneQueue n then some m else some n
    | none => some n

/-- The lane an item of a sash goes to (R302). Where no lane of the sash holds tokens it queues at one without; a sash with no lane
gets none (DESIGN CHOICE, assumption 126). -/
def State.cipLane (s : State) (sash : Nat) : Option Nat :=
  match s.leastQueued (s.cipLanes sash true) with
  | some n => some n
  | none => s.leastQueued (s.cipLanes sash false)

/-- Blocks of an item (Table 15.4). -/
def cipBlocks (mode a p : Nat) : Nat :=
  match mode with
  | 1 => ceilDiv p 16 + 4 * (ceilDiv (a + p + 13) 64 + 1)
  | 5 => ceilDiv (a + p) 16 + 2
  | 6 => ceilDiv p 16
  | 7 => 2 * (p / 16)
  | _ => ceilDiv p 16 + ceilDiv a 16 + 2

/-- A lane computes blocks: they join its queue and its count. -/
def State.laneCompute (s : State) (lane : Option Nat) (n : Nat) : State :=
  match lane with
  | some l => { s with
      hub := s.hub.stat CIP.LANE_BLOCKS_LO.COUNT l n
      cip := { s.cip with ends := kvPut l (max ((kvGet l s.cip.ends).getD 0) s.hub.hcNow + n) s.cip.ends } }
  | none => s

/-- An item's blocks at the lane's arbiter (KIND 4, grain 1, R61, R63): the tokens the sash holds pay for the first; the others are
requests that stand at the arbiter. -/
def FabSt.payBlocks (f : FabSt) (sash lane n : Nat) : FabSt :=
  match f.counter 4 (mkRef 7 lane) sash with
  | none => f
  | some c =>
    let paid := min n c.count.toNat
    let k := 4 * 65536 + mkRef 7 lane
    let f1 : FabSt := { f.setCounter { c with count := c.count - paid } with used := kvPut k ((kvGet k f.used).getD 0 + paid) f.used }
    if paid < n then { f1 with held := f1.held ++ [{ kind := 4, index := mkRef 7 lane, req := ⟨sash, n - paid⟩ }] } else f1

/-- A lane takes an item's blocks, which its sash's slats pay for (R302). -/
def State.laneTake (s : State) (sash : Nat) (lane : Option Nat) (n : Nat) : State :=
  let s1 := s.laneCompute lane n
  match lane with
  | some l => { s1 with fab := s1.fab.payBlocks sash l n }
  | none => s1

/-! ### Operations (R299–R301, R304) -/

/-- A drop before the lane: its counter, and its event with the slot. -/
def State.cipDrop (s : State) (f : Fld) (n : Nat) (ev : Option Nat) : State :=
  let h := s.hub.err f 0 0x100B 0
  { s with hub := match ev with
    | some c => h.raiseRl { code := c, detail := [n] }
    | none => h }

/-- Does a mode fit an item (0 SRTP, 1 SRTCP, 2 MACsec, 3 CENC)? -/
def modeFits (kind mode : Nat) : Bool :=
  match kind with
  | 0 => decide (1 ≤ mode ∧ mode ≤ 3)
  | 1 => decide (1 ≤ mode ∧ mode ≤ 3)
  | 2 => decide (mode = 4 ∨ mode = 5)
  | _ => decide (mode = 6 ∨ mode = 7)

/-- The slot becomes EXHAUSTED, once (R299, R300). -/
def State.exhaust (s : State) (n : Nat) : State :=
  let k := s.cip.slot n
  if k.state = 2 then s
  else { s.setSlot n { k with state := 2 } with hub := s.hub.raise { code := 0x1002, detail := [n] } }

/-- One invocation is counted; SOFT and the hard limit act when reached (R299). -/
def State.cipUse (s : State) (n : Nat) : State :=
  let k := s.cip.slot n
  let u := min (k.use + 1) (2 ^ 64 - 1)
  let soft := u = k.soft ∧ k.soft < k.hard ∧ !k.softHit
  let s1 := s.setSlot n { k with use := u, softHit := k.softHit || decide soft }
  let s2 : State := if soft then { s1 with hub := s1.hub.raise { code := 0x1001, detail := [n] } } else s1
  if !k.dec ∧ k.hard ≤ u then s2.exhaust n else s2

/-- The full index nearest a 16-bit sequence number, by the highest so far (RFC 3711). -/
def srtpIndex (top seq : Nat) : Nat :=
  let d := wrapDiff 16 (top % 65536) seq
  let v := (top : Int) + d
  if v < 0 then (v + 65536).toNat else v.toNat

/-- What R300 says of an SRTP index on an outbound stream. -/
inductive IdxVerdict where
  | ok (w : IdxWin)
  | refused
  | full
  deriving DecidableEq, Repr

/-- Judge the index of sequence number `seq` on `stream`, under the slot's generation. -/
def CipSt.index (c : CipSt) (stream n seq : Nat) : IdxVerdict :=
  let gen := (c.slot n).gen
  match kvGet stream c.windows with
  | some w =>
    if w.slot = n ∧ w.gen = gen then
      let i := srtpIndex w.top seq
      if 2 ^ 48 ≤ i then .full
      else if w.top < i then .ok ⟨n, gen, i, (i :: w.seen).filter fun j => i < j + 128⟩
      else if w.top ≥ i + 128 ∨ i ∈ w.seen then .refused
      else .ok { w with seen := i :: w.seen }
    else .ok ⟨n, gen, seq, [seq]⟩
  | none => .ok ⟨n, gen, seq, [seq]⟩

/-- The index an encryption takes (R300): none where it is refused or the space is used up. -/
def State.cipIndex (s : State) (it : CipItem) : State × Bool :=
  let k := s.cip.slot it.slot
  match it.kind with
  | 0 => match s.cip.index it.stream it.slot it.seq with
    | .ok w => ({ s with cip := { s.cip with windows := kvPut it.stream w s.cip.windows } }, true)
    | .refused => (s.cipDrop CIP.IDX_REFUSED.COUNT it.slot (some 0x1005), false)
    | .full => ((s.exhaust it.slot).cipDrop CIP.EXHAUST_DROP.COUNT it.slot none, false)
  | 1 => if 2 ^ 31 ≤ k.rtcp then ((s.exhaust it.slot).cipDrop CIP.EXHAUST_DROP.COUNT it.slot none, false)
    else (s.setSlot it.slot { k with rtcp := k.rtcp + 1 }, true)
  | 2 => if 2 ^ 64 ≤ k.pn then ((s.exhaust it.slot).cipDrop CIP.EXHAUST_DROP.COUNT it.slot none, false)
    else (s.setSlot it.slot { k with pn := k.pn + 1 }, true)
  | _ => (s, true)

/-- The lane's two pipelines disagree once (R303): the item is computed again, from the lane's unbooked remainder. -/
def State.cipRetry (s0 : State) (lane : Option Nat) (blocks : Nat) : State :=
  let s := s0.laneCompute lane blocks
  let h := (s.hub.err CIP.RETRY.COUNT 0 0x100B 0).raise { code := 0x1006, detail := [lane.getD 0] }
  let s1 : State := { s with hub := match lane with
    | some l => h.err CIP.LANE_MISMATCH.COUNT l 0x100B 0
    | none => h }
  match lane with
  | some l => s1.transient (chanId 7 l)
  | none => s1

/-- A second disagreement on the same item: it is dropped and the lane is retired, its queue moving with its slats (R303). -/
def State.cipRetire (s0 : State) (lane : Option Nat) : State :=
  let s : State := match lane with
    | some l => { s0 with cip := { s0.cip with ends := kvDel l s0.cip.ends } }
    | none => s0
  let h := s.hub.err CIP.FAULT_DROP.COUNT 0 0x100B 0
  match lane with
  | some l =>
    let s1 : State := { s with hub := ((h.err CIP.LANE_MISMATCH.COUNT l 0x100B 0).set1 CIP.LANE_STAT.STATE l 3).raise { code := 0x1007, detail := [l] } }
    s1.permanent (chanId 7 l) 1
  | none => { s with hub := h }

/-- Authentication of a decryption: current key, then the held key of an SRTP or SRTCP packet (R298, R304). -/
def State.cipAuth (s : State) (it : CipItem) (lane : Option Nat) (blocks : Nat) : State × Bool :=
  let k := s.cip.slot it.slot
  if it.authOk then (s, true)
  else
    let retry : Bool := it.kind ≤ 1 ∧ k.held.isSome ∧ s.hub.elapsed < k.heldEnd
    let s0 := if retry then s.laneTake it.sash lane blocks else s
    if retry ∧ it.authHeld then ({ s0 with hub := s0.hub.err CIP.OLD_KEY.COUNT 0 0x100B 0 }, true)
    else
    let s1 := s0.setSlot it.slot { k with fail := min (k.fail + 1) 0xFFFFFFFF }
    let h := (s1.hub.err CIP.AUTH_FAIL.COUNT 0 0x100B 0).raiseRl { code := 0x1004, detail := [it.slot] }
    ({ s1 with hub := if k.fail + 1 = 0xFFFFFFFF then h.raise { code := 0x100B } else h }, false)

/-- One item on a cipher lane (R302): whether its output is released. -/
def State.cipher (s : State) (it : CipItem) : State × Bool :=
  let k := s.cip.slot it.slot
  if it.poison ∧ k.state ≠ 3 then
    ((({ s.setSlot it.slot { k with state := 3 } with hub := s.hub.raise { code := 0x1008, detail := [it.slot] } } : State)).cipDrop
      CIP.EMPTY_DROP.COUNT it.slot none, false)
  else if k.state = 0 then (s.cipDrop CIP.EMPTY_DROP.COUNT it.slot (some 0x1003), false)
  else if k.state = 3 then (s.cipDrop CIP.EMPTY_DROP.COUNT it.slot none, false)
  else if !modeFits it.kind k.mode ∨ k.dec ≠ it.dec then (s.cipDrop CIP.MISUSE_DROP.COUNT it.slot (some 0x100C), false)
  else if !it.dec ∧ k.state = 2 then (s.cipDrop CIP.EXHAUST_DROP.COUNT it.slot none, false)
  else
    let lane := s.cipLane it.sash
    let blocks := cipBlocks k.mode it.aad it.len
    let idx := if it.dec then (s, true) else s.cipIndex it
    if !idx.2 then (idx.1, false)
    else
      let s1 := (idx.1.cipUse it.slot).laneTake it.sash lane blocks
      let s2 := if 1 ≤ it.mismatches then s1.cipRetry lane blocks else s1
      if 2 ≤ it.mismatches then (s2.cipRetire lane, false)
      else if it.dec ∧ it.kind ≠ 3 then s2.cipAuth it lane blocks
      else (s2, true)

/-- CIPHER_ITEM (R302): the item's output leaves the lane, or the item is dropped. -/
def execCipherItem (it : CipItem) (s : State) : Host.Outcome State Fault Refusal :=
  let r := s.cipher it
  .next (if s.hub.get GLB.STATUS.FROZEN = 1 then s
    else if r.2 then { r.1 with hub := r.1.hub.emit (.token 0 "cipher" [it.slot, it.kind, if it.dec then 1 else 0, it.len]) }
    else r.1)

/-! ### Starts (R305) -/

/-- Slots after a start: zeroised, or kept without held keys and held operations under `KEEP_KEYS`. -/
def CipSt.restart (c : CipSt) (keep : Bool) : CipSt :=
  { slots := if keep then c.slots.map fun k => (k.1, { k.2 with held := none, drain := none, wait := [] }) else []
    jobs := []
    windows := [] }

end Sys2Proof.Machine
end

