-- ==== Sys2Proof/Machine/FwdBase.lean ====
section
/-!
DEFINITION. What the forwarding slices and the forwarding service share (R98–R101, R109–R112, R118, R119, R124, R129): limits and
owners, the subscription table, key-picture requests, layers and targets, the allocation of layers, and the retransmission cache.
-/

namespace Sys2Proof.Machine

/-! ### Limits, owners, sashes -/

/-- The subscription limit of the part (Table 1.4). -/
def Hub.subLimit (h : Hub) : Nat := [2 ^ 22, 2 ^ 24, 2 ^ 25, 2 ^ 22].getD (h.get GLB.VARIANT.SUBS) (2 ^ 22)

/-- Does function `fn` reach a leg, a sash, a queue pair (R366)? -/
def Hub.reachesLeg (h : Hub) (fn l : Nat) : Bool := fn == 0 || (h.owner HIF.VF_LEG.BASE l == fn && !h.orphans.contains l)
def Hub.reachesSash (h : Hub) (fn n : Nat) : Bool := fn == 0 || h.owner HIF.VF_SASH.BASE n == fn
def Hub.reachesSlot (h : Hub) (fn n : Nat) : Bool := fn == 0 || h.owner HIF.VF_SLOT.BASE n == fn

/-! ### Work (R99, R129) -/

/-- The kinds of work of Table 6.14; a FlexFEC packet's cost stands beside that of each packet it protects. -/
inductive FwdWork where
  | classify | ingest | visit | copy | stun | rtcpIn | rtcpOut | retransmit | fecProtect | fecPacket | recover
  deriving DecidableEq, Repr

/-- The hc of a kind of work (Table 6.14), taken in grains of 10 (Table 4.2). -/
def FwdWork.hc (w : FwdWork) : Nat :=
  match w with
  | .classify => 10
  | .ingest => 10
  | .visit => 2
  | .copy => 10
  | .stun => 60
  | .rtcpIn => 120
  | .rtcpOut => 100
  | .retransmit => 30
  | .fecProtect => 10
  | .fecPacket => 40
  | .recover => 200

/-- The slice that does work for a port, an inbound stream and a leg (R99, Table 6.14). -/
def FwdWork.slice (w : FwdWork) (port stream leg : Nat) : Nat :=
  match w with
  | .classify => port % 8
  | .ingest => stream % 8
  | .recover => stream % 8
  | _ => leg % 8

/-- The grains of `n` pieces of one kind of work: up to five visits without a copy share one (R129). -/
def FwdWork.grains (w : FwdWork) (n : Nat) : Nat := ceilDiv (n * w.hc) 10

/-- HBM bursts (R129): 64 bytes a burst stored in the cache or retransmitted, one an index entry, two a miss. -/
def fwdBursts (stored indexed resent misses : Nat) : Nat := ceilDiv stored 64 + indexed + ceilDiv resent 64 + 2 * misses

/-! ### Sashes and paths -/

/-- The forwarding sash of slice `k`: the lowest RUNNING sash that holds FWDk; 0xFFFF when none does (R132). -/
def State.fwdSash (s : State) (k : Nat) : Nat :=
  ((s.fab.byId.find? fun d => s.hub.sashState d.id = 3 ∧ s.fab.usesUnit d (mkRef 8 k)).map (·.id)).getD 0xFFFF

/-- The forwarding sash of Ethernet port `p` (R102): the lowest RUNNING sash that holds ETHp and a forwarding slice. -/
def State.portSash (s : State) (p : Nat) : Option Nat :=
  (s.fab.byId.find? fun d => s.hub.sashState d.id = 3 ∧ s.fab.usesUnit d (mkRef 10 p) ∧
    (List.range 8).any fun k => s.fab.usesUnit d (mkRef 8 k)).map (·.id)

/-- Does sash `n` have a built path between two units? -/
def FabSt.hasPath (f : FabSt) (n src dst : Nat) : Bool :=
  f.built.any fun b => b.sash = n ∧ !b.waiting ∧ refUnit b.src = src ∧ refUnit b.dst = dst

/-! ### Replacing objects -/

def FwdSt.setLeg (f : FwdSt) (i : Nat) (x : Leg) : FwdSt := { f with legs := kvPut i x f.legs }
def FwdSt.setIn (f : FwdSt) (i : Nat) (x : InStream) : FwdSt := { f with ins := kvPut i x f.ins }
def FwdSt.setOut (f : FwdSt) (i : Nat) (x : OutStream) : FwdSt := { f with outs := kvPut i x f.outs }
def FwdSt.setSub (f : FwdSt) (i : Nat) (x : Sub) : FwdSt := { f with subs := kvPut i x f.subs }

/-- A subscription that a command has made. -/
def FwdSt.sub? (f : FwdSt) (i : Nat) : Option Sub := (kvGet i f.subs).filter fun u => !u.ghost

/-! ### The subscription table (Table 6.2) -/

/-- The chain of a subscription: its base and its leg's slice (R99, R101). -/
def Sub.chain (u : Sub) : Nat := u.base * 8 + u.leg % 8

/-- The chain's subscriptions in order. -/
def FwdSt.chainOf (f : FwdSt) (c : Nat) : List Nat := (kvGet c f.chains).getD []

/-- The entry after `i` in a list. -/
def nextOf (i : Nat) : List Nat → Option Nat
  | [] => none
  | a :: t => if a = i then t.head? else nextOf i t

/-- The 32 bytes of an entry. -/
def Sub.bytes (u : Sub) : List Byte :=
  leBytes 4 (2 ^ 31 + (match u.link with | some n => n % 2 ^ 25 | none => 2 ^ 30)) ++ leBytes 2 u.leg ++ leBytes 2 u.out ++
    leBytes 2 u.src ++ leBytes 1 u.role ++ leBytes 1 u.pane ++ leBytes 1 (u.mode * 64 + u.maxS * 8 + u.maxT) ++
    leBytes 1 u.prio ++ leBytes 1 (u.curS * 8 + u.curT) ++
    leBytes 1 ((if u.none_ then 128 else 0) + u.tgtS * 8 + u.tgtT) ++ leBytes 1 u.state ++ leBytes 1 0 ++
    leBytes 2 u.dest ++ leBytes 4 u.cap ++ u.tag

/-- `FWD.SUB_CACHE.ENTRIES` follows the cache. -/
def State.cacheCount (s : State) : State :=
  { s with hub := s.hub.set FWD.SUB_CACHE.ENTRIES (min (s.fwd.subs.length - s.fwd.uncached.length) 262144) }

/-- Write an entry's bytes into the partition that `FWD.PART.SUB_PART` names. -/
def State.subBytes (s : State) (i : Nat) (b : List Byte) : State :=
  match s.fab.part (s.hub.get FWD.PART.SUB_PART) with
  | some p => s.partWrite p (32 * i) b
  | none => s

/-- The service writes a subscription's entry, with its LINK as the chain has it; an unused one has VALID 0 (R100, R101). -/
def State.subStore (s : State) (i : Nat) : State :=
  match kvGet i s.fwd.subs with
  | some u =>
    let v : Sub := { u with valid := true, link := nextOf i (s.fwd.chainOf u.chain) }
    (({ s with fwd := s.fwd.setSub i v } : State).subBytes i v.bytes).cacheCount
  | none => (s.subBytes i (leBytes 4 0)).cacheCount

/-- Replace a subscription and write its entry. -/
def State.putSub (s : State) (i : Nat) (u : Sub) : State := ({ s with fwd := s.fwd.setSub i u } : State).subStore i

/-- MODE, MAX_S and MAX_T of a POLICY byte: MODE 3 acts as 2. -/
def policyOf (b : Nat) : Nat × Nat × Nat := (min (b / 64) 2, b / 8 % 8, b % 8)

/-- An entry that no command made, before its bytes are read. -/
def Sub.blank : Sub :=
  { leg := 0, out := 0, src := 0, base := 0, role := 0, pane := 0, mode := 0, maxS := 0, maxT := 0, prio := 0, dest := 0, cap := 0
    tag := List.replicate 8 0, ghost := true }

/-- Read an entry's bytes as a slice does on a cache miss (Table 6.2, R100, R101). What the entry does not hold is kept. -/
def Sub.ofBytes (old : Sub) (b : List Byte) : Sub :=
  let p := policyOf (bodyU8 b 12)
  let l := bodyN b 0 4
  { old with
    valid := decide (l / 2 ^ 31 = 1), link := if l / 2 ^ 30 % 2 = 1 then none else some (l % 2 ^ 25)
    leg := bodyN b 4 2 % 16384, out := bodyN b 6 2, src := bodyN b 8 2
    role := if bodyU8 b 10 ≤ 3 then bodyU8 b 10 else 0
    pane := min (bodyU8 b 11) 63, mode := p.1, maxS := p.2.1, maxT := p.2.2, prio := bodyU8 b 13
    curS := bodyU8 b 14 / 8 % 8, curT := bodyU8 b 14 % 8
    tgtS := bodyU8 b 15 / 8 % 8, tgtT := bodyU8 b 15 % 8, none_ := decide (128 ≤ bodyU8 b 15)
    state := if bodyU8 b 16 ≤ 4 then bodyU8 b 16 else 0
    dest := bodyN b 18 2, cap := bodyN b 20 4, tag := (b.drop 24).take 8 }

/-- Bring a subscription into the cache of 262,144 entries, displacing one when it is full; which one is not stated, a
free value. -/
def State.cacheIn (s : State) (i : Nat) : State :=
  let out := s.fwd.uncached.filter (· ≠ i)
  let full := 262144 < s.fwd.subs.length - out.length
  let cand := (s.fwd.subs.map (·.1)).filter fun j => j ≠ i ∧ j ∉ out
  ({ s with
    hub := if full then s.hub.freeTick else s.hub
    fwd := { s.fwd with uncached := if full then out ++ [cand.getD (s.hub.freeVal cand.length) 0] else out } } : State).cacheCount

/-- A slice fetches an entry that missed the cache: counted, and read as its HBM bytes stand (R100, R101). An ID that no command has
made is an entry where its bytes say so. While the stack is lost nothing is read (R24). -/
def State.subFetch (s : State) (k i : Nat) : State :=
  let s1 : State := { s with hub := s.hub.stat FWD.SUB_MISS_LO.COUNT k 1 }
  match (s.fab.part (s.hub.get FWD.PART.SUB_PART)).filter s.partLive with
  | some p =>
    let b := (s.partRead p (32 * i) 32).1
    match kvGet i s.fwd.subs with
    | some u => ({ s1 with fwd := s1.fwd.setSub i (u.ofBytes b) } : State).cacheIn i
    | none =>
      let v := Sub.blank.ofBytes b
      if v.valid then
        ({ s1 with fwd := s1.fwd.setSub i { v with base := ((kvGet v.src s.fwd.ins).map (·.base)).getD v.src } } : State).cacheIn i
      else s1
  | none => s1

/-- A slice visits an entry. -/
def State.subVisit (s : State) (k i : Nat) : State :=
  if i ∈ s.fwd.uncached ∨ !kvHas i s.fwd.subs then s.subFetch k i else s

/-! ### Key-picture requests (R124) -/

/-- Merge a request for a key picture on inbound stream `i`. -/
def State.keyRequest (s : State) (i : Nat) : State :=
  match kvGet i s.fwd.ins with
  | some x =>
    if x.gone ∨ x.key.pending then s
    else { s with fwd := s.fwd.setIn i { x with key := { x.key with pending := true, plis := 0, fir := false } } }
  | none => s

/-- A switch point arrives: the request is answered. -/
def State.keyAnswer (s : State) (i : Nat) : State :=
  match kvGet i s.fwd.ins with
  | some x => { s with fwd := s.fwd.setIn i { x with key := { x.key with pending := false } } }
  | none => s

/-! ### Layers and targets (R109–R112) -/

/-- The codec of a base stream; 0 where it is gone. -/
def FwdSt.codec (f : FwdSt) (base : Nat) : Nat := ((kvGet base f.ins).map (·.codec)).getD 0

/-- The streams of a simulcast set, or the one stream that is not part of a set (R110). -/
def FwdSt.members (f : FwdSt) (base : Nat) : List Nat := (f.ins.filter fun e => e.2.base = base ∧ !e.2.gone).map (·.1)

/-- Has a base other encodings? -/
def FwdSt.simulcast (f : FwdSt) (base : Nat) : Bool := (f.members base).any (· != base)

/-- Does S select a stream of the base (R110)? For AV1 without a set S is a layer within the one stream (Table 6.6). -/
def FwdSt.sets (f : FwdSt) (base : Nat) : Bool := f.codec base != 1 || f.simulcast base

/-- The highest S of a simulcast set. -/
def FwdSt.topS (f : FwdSt) (base : Nat) : Nat := (f.members base).foldl (fun a i => max a (i - base)) 0

/-- Is a stream forwarded as a single layer (R109)? -/
def InStream.single (x : InStream) : Bool := x.codec == 0 || x.codec == 5 || x.codec == 6 || (x.codec == 1 && x.bare)
def FwdSt.single (f : FwdSt) (u : Sub) : Bool := ((kvGet u.base f.ins).map (·.single)).getD true

/-- The top layer of a base (R111): of S, the set's last encoding or the highest its AV1 packets have named; of T, the highest its
packets have named. 7, no limit, while none has been named. -/
def FwdSt.topOf (f : FwdSt) (base : Nat) : Nat × Nat :=
  let tops := (f.members base).filterMap fun i => (kvGet i f.ins).bind (·.top)
  let t := if tops = [] then 7 else tops.foldl (fun a x => max a x.2) 0
  if f.sets base then (f.topS base, if f.codec base = 2 then 0 else t)
  else (if tops = [] then 7 else tops.foldl (fun a x => max a x.1) 0, t)

/-- TGT of MODE FIXED (R111): the caps, limited to the top layer; a stream of a single layer ignores the caps (R109). -/
def FwdSt.fixedTgt (f : FwdSt) (base maxS maxT : Nat) : Nat × Nat :=
  if ((kvGet base f.ins).map (·.single)).getD true then (f.topS base, 0)
  else (min maxS (f.topOf base).1, min maxT (f.topOf base).2)

/-- The inbound stream that carries layer S of a base. -/
def FwdSt.streamOf (f : FwdSt) (base sLayer : Nat) : Nat := if f.sets base then base + sLayer else base

/-- Is layer (s, t) lower than (s', t')? S first, then T: where S and T differ in opposite directions the spec does not say which is
lower (DESIGN CHOICE, assumption 102). -/
def layerLt (s t s' t' : Nat) : Bool := decide (s < s' ∨ (s = s' ∧ t < t'))

/-- A subscription that is to rise waits for a switch point of TGT, from now on (R112, Table 6.7). -/
def State.raiseTgt (s : State) (i : Nat) (u : Sub) (tS tT : Nat) : State :=
  s.putSub i { u with tgtS := tS, tgtT := tT, state := 3, asked := false, upAt := s.hub.elapsed }

/-- Give a subscription a new TGT (R112, Table 6.7): `none_` for no layer. -/
def State.setTgt (s : State) (i : Nat) (u : Sub) (tS tT : Nat) (none_ : Bool) : State :=
  if none_ then
    s.putSub i { u with none_ := true }
  else if u.state = 0 ∨ u.none_ then
    if u.none_ ∨ u.tgtS ≠ tS ∨ u.tgtT ≠ tT then
      (s.putSub i { u with tgtS := tS, tgtT := tT, none_ := false, state := 0 }).keyRequest (s.fwd.streamOf u.base tS)
    else s
  else if u.state = 4 then s
  else if tS = u.curS ∧ tT = u.curT then s.putSub i { u with tgtS := tS, tgtT := tT, state := 1 }
  else if layerLt tS tT u.curS u.curT then s.putSub i { u with tgtS := tS, tgtT := tT, state := 2 }
  else if u.state = 3 ∧ u.tgtS = tS ∧ u.tgtT = tT then s
  else s.raiseTgt i u tS tT

/-- A policy binds (R111): PAUSED forwards nothing; a mode set after PAUSED waits for its first picture. -/
def State.bindPolicy (s : State) (i : Nat) (u : Sub) (p : Nat × Nat × Nat) (new : Bool) : State :=
  let v : Sub := { u with mode := p.1, maxS := p.2.1, maxT := p.2.2, next := none }
  if p.1 = 2 then s.putSub i { v with state := 4 }
  else
    let t := s.fwd.fixedTgt v.base v.maxS v.maxT
    let tgt := if p.1 = 0 ∧ !s.fwd.single v then (min u.tgtS t.1, min u.tgtT t.2) else t
    if new ∨ u.state = 4 then
      (s.putSub i { v with tgtS := tgt.1, tgtT := tgt.2, none_ := false, state := 0 }).keyRequest (s.fwd.streamOf v.base tgt.1)
    else if p.1 = 0 ∧ !layerLt tgt.1 tgt.2 u.tgtS u.tgtT then s.putSub i v
    else s.setTgt i v tgt.1 tgt.2 false

/-- The top layer of a base has changed: TGT of its FIXED subscriptions follows (R111). -/
def State.refollow (s : State) (base : Nat) : State :=
  (s.fwd.subs.filter fun u => u.2.base = base ∧ u.2.mode = 1 ∧ !u.2.gone ∧ !u.2.ghost).foldl (fun a e =>
    match kvGet e.1 a.fwd.subs with
    | some u =>
      let t := a.fwd.fixedTgt base u.maxS u.maxT
      if t = (u.tgtS, u.tgtT) then a else a.setTgt e.1 u t.1 t.2 false
    | none => a) s

/-! ### The allocation of layers (R118) -/

/-- The rate in kb/s, over the last second, of what a subscription forwards at layer (a, b). -/
def State.layerRate (s : State) (u : Sub) (a b : Nat) : Nat :=
  let now := s.hub.elapsed
  let x := kvGet (s.fwd.streamOf u.base a) s.fwd.ins
  let rs := ((x.map (·.recent)).getD []).filter fun r => now < r.1 + 1000000000
  let inLayer := fun (c : Nat) => if s.fwd.sets u.base then decide (c % 8 ≤ b) else decide (c / 8 ≤ a ∧ c % 8 ≤ b)
  (rs.filter fun r => inLayer r.2.1).foldl (fun n r => n + r.2.2) 0 * 8 / 1000

/-- The layers of a base that packets of the last second have shown, lowest first. -/
def State.layers (s : State) (u : Sub) : List (Nat × Nat) :=
  let now := s.hub.elapsed
  let seen := (s.fwd.members u.base).flatMap fun i =>
    ((kvGet i s.fwd.ins).map fun x => (x.recent.filter fun r => now < r.1 + 1000000000).map (·.2.1)).getD []
  ((List.range 64).filter fun c => seen.contains c).map fun c => (c / 8, c % 8)

/-- Pass 1: each AUTO subscription takes its lowest layer where it fits. Answers allocations as (subscription,
layer) and the budget left. -/
def State.allocBase (s : State) (budget : Int) : List (Nat × Sub) → List (Nat × Option (Nat × Nat)) × Int
  | [] => ([], budget)
  | (i, u) :: t =>
    let l := (s.layers u).headD (0, 0)
    let r : Int := s.layerRate u l.1 l.2
    if r ≤ budget then
      let x := s.allocBase (budget - r) t
      ((i, some l) :: x.1, x.2)
    else
      let x := s.allocBase budget t
      ((i, none) :: x.1, x.2)

/-- Pass 2: each is raised to the highest layer within its caps that fits the budget that remains. -/
def State.allocRaise (s : State) (budget : Int) : List (Nat × Option (Nat × Nat)) → List (Nat × Option (Nat × Nat))
  | [] => []
  | (i, none) :: t => (i, none) :: s.allocRaise budget t
  | (i, some l) :: t =>
    match kvGet i s.fwd.subs with
    | none => s.allocRaise budget t
    | some u =>
      let have_ : Int := s.layerRate u l.1 l.2
      let ok := (s.layers u).filter fun c =>
        let r := s.layerRate u c.1 c.2
        decide (c.1 ≤ u.maxS ∧ c.2 ≤ u.maxT ∧ (u.cap = 0 ∨ r ≤ u.cap) ∧ (r : Int) - have_ ≤ budget) && !layerLt c.1 c.2 l.1 l.2
      let best := ok.getLast?.getD l
      (i, some best) :: s.allocRaise (budget - ((s.layerRate u best.1 best.2 : Nat) - have_)) t

/-- Give a subscription the layer of an allocation: a lower TGT at once, a higher one only after it has been the
result of every allocation for UP_HOLD. -/
def State.allocApply (s : State) (i : Nat) (r : Option (Nat × Nat)) : State :=
  match kvGet i s.fwd.subs with
  | none => s
  | some u =>
    match r with
    | none => s.setTgt i { u with upTo := none } 0 0 true
    | some (a, b) =>
      if u.none_ ∨ u.state = 0 ∨ !layerLt u.tgtS u.tgtT a b then
        (s.putSub i { u with upTo := none }).setTgt i { u with upTo := none } a b false
      else
        match u.upTo with
        | some (c, since) =>
          if c = 8 * a + b then
            (if since + 1000000 * s.fwd.key 14 ≤ s.hub.elapsed then
              (s.putSub i { u with upTo := none }).setTgt i { u with upTo := none } a b false else s)
          else s.putSub i { u with upTo := some (8 * a + b, s.hub.elapsed) }
        | none => if s.fwd.key 14 = 0 then s.setTgt i u a b false else s.putSub i { u with upTo := some (8 * a + b, s.hub.elapsed) }

/-- The service allocates a leg's layers (R118). -/
def State.allocate (s : State) (leg : Nat) : State :=
  match kvGet leg s.fwd.legs with
  | some l =>
    let mine := s.fwd.subs.filter fun u => u.2.leg = leg ∧ !u.2.gone ∧ !u.2.ghost ∧ u.2.state ≠ 4
    let auto := (mine.filter fun u => u.2.mode = 0 ∧ !s.fwd.single u.2).mergeSort fun a b =>
      decide (a.2.prio < b.2.prio ∨ (a.2.prio = b.2.prio ∧ a.1 ≤ b.1))
    let fixed := mine.filter fun u => u.2.mode ≠ 0 ∨ s.fwd.single u.2
    let used := fixed.foldl (fun n u =>
      n + s.layerRate u.2 (if u.2.state = 0 then u.2.tgtS else u.2.curS) (if u.2.state = 0 then u.2.tgtT else u.2.curT)) 0
    let budget : Int := (l.cnt.est * s.fwd.key 13 / 100 : Nat) - (used : Nat)
    let base := s.allocBase budget auto
    (s.allocRaise base.2 base.1).foldl (fun a r => a.allocApply r.1 r.2) s
  | none => s

/-! ### The retransmission cache (R119) -/

/-- Bytes held in the cache: packets, and 16 bytes an index entry. -/
def FwdSt.cacheBytes (f : FwdSt) : Nat := f.stored.foldl (fun a p => a + p.pkt.length) 0 + 16 * f.index.length

/-- Drop items past their time: 1,100 ms for packets, 1,000 ms for entries. -/
def FwdSt.cacheAge (f : FwdSt) (now : Nat) : FwdSt :=
  { f with stored := f.stored.filter (fun p => now < p.at_ + 1100000000), index := f.index.filter fun e => now < e.at_ + 1000000000 }

/-- Make room for `n` bytes in the cache's partition, for slice `k`: the oldest items go first; `FWD_CACHE_SHORT` then names the first
outbound stream affected. -/
def State.cacheRoom (s : State) (k n : Nat) : Nat → State
  | 0 => s
  | fuel + 1 =>
    let size := ((s.fab.part (s.hub.get FWD.PART.CACHE_PART)).map (·.size)).getD 0
    if s.fwd.cacheBytes + n ≤ size then s
    else
      let p0 := (s.fwd.stored.head?.map (·.at_)).getD (2 ^ 64)
      let e0 := (s.fwd.index.head?.map (·.at_)).getD (2 ^ 64)
      let out := match s.fwd.stored.head? with
        | some p => ((s.fwd.index.find? fun e => e.stream = p.stream ∧ e.inSeq = p.seq).map (·.out)).getD 0xFFFF
        | none => (s.fwd.index.head?.map (·.out)).getD 0xFFFF
      let f1 : FwdSt := if p0 ≤ e0 then { s.fwd with stored := s.fwd.stored.drop 1 } else { s.fwd with index := s.fwd.index.drop 1 }
      if s.fwd.stored = [] ∧ s.fwd.index = [] then s
      else ({ s with
        hub := s.hub.raiseRl { code := 0x0606, sash := s.fwdSash k, detail := [out] }
        fwd := f1 } : State).cacheRoom k n fuel

/-- Store an inbound packet once. -/
def State.cacheStore (s : State) (stream seq : Nat) (pkt : List Byte) : State :=
  let s1 : State := { s with fwd := s.fwd.cacheAge s.hub.elapsed }
  let size := ((s.fab.part (s.hub.get FWD.PART.CACHE_PART)).map (·.size)).getD 0
  if size < pkt.length then s1
  else
    let s2 := s1.cacheRoom (stream % 8) pkt.length (s1.fwd.stored.length + s1.fwd.index.length)
    { s2 with fwd := { s2.fwd with stored := s2.fwd.stored ++ [⟨stream, seq, s.hub.elapsed, pkt⟩] } }

/-- Keep the index entry of a packet that departs for leg `leg` now. -/
def State.cacheIndex (s : State) (leg : Nat) (e : IdxEntry) : State :=
  let s1 : State := { s with fwd := s.fwd.cacheAge s.hub.elapsed }
  let size := ((s.fab.part (s.hub.get FWD.PART.CACHE_PART)).map (·.size)).getD 0
  if size < 16 then s1
  else
    let s2 := s1.cacheRoom (leg % 8) 16 (s1.fwd.stored.length + s1.fwd.index.length)
    { s2 with fwd := { s2.fwd with index := s2.fwd.index ++ [{ e with at_ := s.hub.elapsed }] } }

/-- A frame departs for a leg at the MAC (R117, R119): its time is kept for a second, and its packet takes its index entry. -/
def State.departed (s : State) (leg bytes : Nat) (idx : Option IdxEntry) : State :=
  let now := s.hub.elapsed
  let s1 : State := { s with fwd := { s.fwd with legs := kvMod leg (fun (l : Leg) =>
    { l with departs := (l.departs.filter fun d => now < d.1 + 1000000000) ++ [(now, bytes)] }) s.fwd.legs } }
  match idx with
  | some e => s1.cacheIndex leg e
  | none => s1

end Sys2Proof.Machine
end

