-- ==== Sys2Proof/Machine/LnkSend.lean ====
section
/-!
DEFINITION. Sending: messages over Jorras (R350–R354, R357, R358) and frames of the Ethernet ports (R140, R347, R348).
-/

namespace Sys2Proof.Machine

/-! ### Jorras -/

/-- The header of a sequenced flit under a sequence number and an AN. -/
def JlFlit.head (f : JlFlit) (seq an len : Nat) : FlitHead :=
  { kind := f.kind
    flags := (if f.first then 1 else 0) + (if f.last then 2 else 0) + (if f.poison then 4 else 0) + 16 * f.vc + 64 * an
    dst := f.dst + 2048 * f.hops, src := f.src, seq := seq % 65536, ack := 0, len := len, cred := 0 }

/-- Send one flit for which credit is held (R352–R354): protected once when the link is secured, under the AN its message began with, then
numbered and kept for replay. An AN without a slot sends nothing (DESIGN CHOICE, assumption 132). -/
def State.flitSend (s : State) (n : Nat) (f : JlFlit) : State :=
  let x := s.lnk.link n
  let an := if f.first then s.hub.get1 LNK.JL_CFG.TX_AN n else (kvGet f.vc x.ans).getD (s.hub.get1 LNK.JL_CFG.TX_AN n)
  let slot := s.hub.get2 LNK.JL_SA.TX_SLOT n an
  let pay := f.payload.take (if s.secured n then 224 else 240)
  let head := f.head x.sent (if s.secured n then an else 0) pay.length
  let it : CipItem := { slot := slot, kind := 2, dec := false, stream := 0, seq := x.sent % 65536, aad := 9, len := pay.length, sash := s.unitSash (mkRef 14 n), poison := false
                        mismatches := 0, authOk := true, authHeld := false }
  let r := if s.secured n then (if slot = 0xFFFF then (s, false) else s.cipher it) else (s, true)
  if !r.2 then r.1.jlDrop n 1 false
  else
    let sealed := Config.sealFlit slot (s.cip.slot slot).gen x.sent head.aad pay
    let data := if s.secured n then fitBytes 224 (sealed.take pay.length) ++ fitBytes 16 (sealed.drop pay.length) else fitBytes 240 pay
    let x1 : JlLink := { x with
      sent := x.sent + 1, credits := x.credits.modify f.vc (· - 1), ans := kvPut f.vc an x.ans
      replay := x.replay ++ [{ seq := x.sent, head := head, data := data, tries := 0, at_ := s.hub.elapsed }] }
    let s1 := r.1.setLink n x1
    ({ s1 with hub := s1.hub.stat LNK.JL_FLITS_LO.COUNT n 1 } : State).flitOut n head data

/-- Send what waits on an UP link, in order on each VC, while credit and the replay buffer of 4,096 allow (R352, R353). -/
def State.jlPumpList (s : State) (n : Nat) : List JlFlit → List Nat → State
  | [], _ => s
  | f :: t, blocked =>
    let x := s.lnk.link n
    if blocked.contains f.vc ∨ x.credits.getD f.vc 0 = 0 ∨ 4096 ≤ x.replay.length then
      (s.setLink n { x with wait := x.wait ++ [f] }).jlPumpList n t (f.vc :: blocked)
    else (s.flitSend n f).jlPumpList n t blocked
def State.jlPump (s : State) (n : Nat) : State :=
  let x := s.lnk.link n
  if s.jlState n = 4 ∧ x.wait ≠ [] then (s.setLink n { x with wait := [] }).jlPumpList n x.wait [] else s

/-- Is a device reached now? -/
def State.jlReaches (s : State) (dev : Nat) : Bool := ((s.jlRoute dev).map fun n => s.jlState n == 4).getD false

/-- The payloads of a message's flits: at most `most` bytes each. -/
def flitParts (most : Nat) : Nat → List Byte → List (List Byte)
  | 0, _ => []
  | fuel + 1, l => if l.length ≤ most then [l] else l.take most :: flitParts most fuel (l.drop most)

/-- Send flits toward their device. -/
def State.jlForward (s : State) (dev : Nat) (fs : List JlFlit) (event : Bool) : State :=
  match s.jlRoute dev with
  | some n =>
    let x := s.lnk.link n
    (s.setLink n { x with wait := x.wait ++ fs }).jlPump n
  | none => s.jlDrop (s.hub.get1 LNK.ROUTE.PRIMARY dev) fs.length event

/-- A message of a type and VC leaves for device `dev` (R350, R357). -/
def State.jlSend (s : State) (dev kind vc : Nat) (payload : List Byte) : State :=
  let secured := ((s.jlRoute dev).map s.secured).getD false
  let ps := flitParts (if secured then 224 else 240) (payload.length + 1) payload
  let last := ps.length - 1
  let fs := ps.zipIdx.map fun p => ({ kind := kind, vc := vc, dst := dev % 2048, src := s.hub.get LNK.CFG.DEVICE, hops := 3, first := p.2 == 0, last := p.2 == last
                                      poison := false, payload := p.1 } : JlFlit)
  s.jlForward (dev % 2048) fs true

/-- Send to several devices. -/
def State.jlSendAll (s : State) (devs : List Nat) (kind vc : Nat) (payload : List Byte) : State :=
  devs.foldl (fun a d => a.jlSend d kind vc payload) s

/-- A message of the services for another device (Table 18.4). -/
def State.jlSvc (s : State) (dev : Nat) (m : SvcMsg) : State := s.jlSend dev 7 0 (Config.svcBytes m)

/-- A media packet for a stream of another device (Table 18.4). -/
def State.jlMedia (s : State) (dev stream : Nat) (pkt : List Byte) : State :=
  s.jlSend dev 2 2 (leBytes 2 stream ++ leBytes 2 0 ++ pkt)

/-- A cascade block (Table 18.4): 4-byte samples, sign-extended. -/
def State.jlCascade (s : State) (dev chan p : Nat) (block : List Int) : State :=
  s.jlSend dev 3 1 (leBytes 2 chan ++ leBytes 2 0 ++ leBytes 4 p ++ block.flatMap fun v => leBytes 4 (v % 2 ^ 32).toNat)

/-! ### Ethernet (R140, R347, R348) -/

/-- The SecTAG of a frame: its AN, packet number and SCI, the port's MAC address followed by 0x0001 (R348). -/
def State.secTag (s : State) (p an pn : Nat) : List Nat :=
  [an, pn, s.hub.get64 LNK.ETH_MAC_LO.MAC p % 2 ^ 48 * 65536 + 1]

/-- Under SEC a frame of another queue than 16 + p is protected under the transmit slot of TX_AN (R348); an AN without a slot sends
nothing (DESIGN CHOICE, assumption 132). The SecTAG it gets is shown ahead of it. -/
def State.macsec (s : State) (n p len : Nat) : State × Bool :=
  let an := s.hub.get1 LNK.ETH_CFG.TX_AN p
  let slot := s.hub.get2 LNK.ETH_SA.TX_SLOT p an
  if s.hub.get1 LNK.ETH_CFG.SEC p = 0 ∨ n = sysQueue (16 + p) then (s, true)
  else if slot = 0xFFFF then (s, false)
  else
    let r := s.cipher { slot := slot, kind := 2, dec := false, stream := 0, seq := 0, aad := 28, len := len - 16, sash := s.unitSash (mkRef 10 p), poison := false
                        mismatches := 0, authOk := true, authHeld := false }
    if r.2 then ({ r.1 with hub := r.1.hub.emit (.token (mkRef 10 p) "sectag" (s.secTag p an (s.cip.slot slot).pn)) }, true) else r

/-- The frame at the head of queue `n` starts on its port (R141–R143, R148): a leg's packet is encrypted as it leaves (R35), and its
departure recorded (R117). In a near-end parallel loopback the balls see idle (R345). -/
def State.startFrame (s : State) (n : Nat) (q : EgrQueue) : State :=
  match q.items with
  | [] => s
  | i :: t =>
    let now := s.hub.elapsed
    let wheel := if n < 16384 then rateWheel (s.hub.get1 QSC.LEG_RATE.KBPS n) q.eligible i.len now else none
    let delay := now - i.entered
    let up := s.portUp q.port
    let r0 := match i.sec with
      | some it => if up then s.cipher it else (s, false)
      | none => (s, up)
    let r := if r0.2 then r0.1.macsec n q.port i.len else r0
    let sent := if ((s.fab.port 1 q.port).map fun r => s.loops 2 r.laneList).getD false then r.1.hub else r.1.hub.emit i.msg
    let h0 := if r.2 then sent.stat LNK.ETH_TX_LO.COUNT q.port 1
      else if up then r.1.hub else r.1.hub.err LNK.ETH_TX_DISCARD.COUNT q.port 0x130D 0
    let h1 := if n < 16384 then h0.mark QSC.LEG_HW_DELAY.NS n 0 delay else h0
    let s0 := ({ r.1 with hub := h1.mark QSC.CLS_HW_DELAY.NS q.port q.cls delay } : State)
    let s1 : State := { (if r.2 ∧ n < 16384 then s0.departed n i.len i.idx else s0) with
      qsc := { s.qsc with
        vtime := kvPut (8 * q.port + q.cls) q.tag s.qsc.vtime
        spent := (s.qsc.spent - s.hub.ethGbps * (now - s.qsc.spentAt)) + (i.len + 20) * 8
        spentAt := now } }
    let q1 : EgrQueue := { q with items := t, wheel := wheel }
    (s1.setQueue n (if wheel = none then s1.retag n q1 else q1)).dropOversize n t.length

/-- EGRESS_SCHEDULE (R140): the MAC of port `p` can accept a frame. -/
def execEgressSchedule (p : Nat) (s : State) : Host.Outcome State Fault Refusal :=
  .next (if s.portRate p = 0 ∨ s.hub.get GLB.STATUS.FROZEN = 1 then s
    else
      let s1 := s.dropPort p
      match s1.selectFrom p 8 with
      | some (n, q) => s1.startFrame n q
      | none => s1)

end Sys2Proof.Machine
end

