-- ==== Sys2Proof/Machine/EncBase.lean ====
section
/-!
DEFINITION. What the encoders share (chapter 8): personalities, channels and tiles (R152–R157), capture and release times
(R160, R161), costs (R164, R167), the frame start with its HRD step, refresh plan and pane plan (R165, R170–R172, R208).
-/

namespace Sys2Proof.Machine

/-- The consumers of a unit's port: destinations of the channel's built paths from it. -/
def FabSt.dests (f : FabSt) (sash src : Nat) : List Nat :=
  (f.built.filter fun p => p.sash = sash ∧ p.src = src ∧ !p.waiting).map (·.dst)

/-- One unit of work on every path from a unit's port, with the path's epoch and whether its data is poisoned (R30). -/
def FabSt.send (f : FabSt) (sash src : Nat) (kind : String) (args : List Nat) (poison : Bool) : List OutMsg :=
  (f.built.filter fun p => p.sash = sash ∧ p.src = src ∧ !p.waiting).map fun p => .token p.dst kind args { poison := poison, epoch := p.epoch }

/-- The fabric as tokens of sash `n`'s former path epoch see it: the sash's former paths, its units' former personalities and its former
partitions (R31). -/
def FabSt.asFormer (f : FabSt) (n : Nat) (d : OldDef) : FabSt :=
  let us := d.pers.map PersRec.unit
  { f with
    sashes := f.sashes.filter (·.id ≠ n) ++ d.sash.toList
    paths := f.paths.filter (·.sash ≠ n) ++ d.paths
    built := f.built.filter (·.sash ≠ n) ++ d.built
    pers := f.pers.filter (fun p => !us.contains p.unit) ++ d.pers
    parts := d.parts ++ f.parts.filter fun p => !d.parts.any (·.id = p.id) }

/-- Work of sash `n` whose tokens carry `epoch`: of the former one it runs on what the sash was built from before (R31). -/
def State.inEpoch (s : State) (n : Nat) (epoch : Bool) (work : State → State) : State :=
  match kvGet n s.fab.olds with
  | some d =>
    if epoch = (kvGet n s.fab.epochs).getD false then work s
    else
      let t := work { s with fab := s.fab.asFormer n d }
      { t with fab := { t.fab with sashes := s.fab.sashes, paths := s.fab.paths, built := s.fab.built, pers := s.fab.pers, parts := s.fab.parts } }
  | none => work s
/-! ### Instants (R192) -/

/-- The latest instant floor(k × 10^9 × den / num) at or before `t` ns, and the first at or after it. -/
def instantAt (num den t : Nat) : Nat := ((t + 1) * num - 1) / (1000000000 * den) * (1000000000 * den) / num
def instantFrom (num den t : Nat) : Nat := ceilDiv (t * num) (1000000000 * den) * (1000000000 * den) / num

/-- A frame rate as it acts: a zero numerator is `dflt`, a zero denominator 1; periods below 1/240 s are 1/240 s. -/
def fpsOf (num den dflt : Nat) : Nat × Nat :=
  let n := if num = 0 then dflt else num
  let d := if den = 0 then 1 else den
  if d * 240 < n then (240, 1) else (n, d)

/-! ### Personalities (R152, R153) -/

/-- The personality record of a unit in force: code and block; IDLE without one. -/
def FabSt.persAt (f : FabSt) (ty i : Nat) : Nat × List Byte :=
  match f.pers.find? (·.unit = mkRef ty i) with
  | some p => (p.code, p.block)
  | none => (0, [])

/-- The codecs of Table 8.1: 1 AV1, 2 HEVC, 3 VVC, 4 H.264; 0 where the code names none. -/
def encCodec (code : Nat) : Nat :=
  if code = 0x0101 ∨ code = 0x0102 ∨ code = 0x0103 then 1
  else if code = 0x0201 ∨ code = 0x0202 ∨ code = 0x0203 then 2
  else if code = 0x0301 ∨ code = 0x0302 then 3
  else if code = 0x0401 ∨ code = 0x0402 ∨ code = 0x0403 then 4
  else 0

/-- Whether a profile codes 4:2:2 and 10 bit (Table 8.1). -/
def encAllows (code : Nat) : Bool × Bool :=
  match code with
  | 0x0103 => (true, true)
  | 0x0203 => (true, true)
  | 0x0302 => (true, true)
  | 0x0201 => (false, false)
  | 0x0401 => (false, false)
  | 0x0402 => (false, false)
  | 0x0403 => (false, false)
  | _ => (false, true)

/-- An ENC personality block as it acts (Table 8.2). -/
structure EncPers where
  code : Nat
  codec : Nat
  v422 : Bool
  ten : Bool
  clamp : Bool
  ti : Nat
  tc : Nat
  fast : Bool
  tx : Nat
  depth : Nat
  la : Nat
  rot : Nat
  src1 : Bool
  part : Nat
  srcW : Nat
  srcH : Nat
  outW : Nat
  outH : Nat
  deriving DecidableEq, Repr

/-- Round up to a multiple of 8, within 64 (for 0) and a greatest value. -/
def outSize (v most : Nat) : Nat := if v = 0 then 64 else min (ceilDiv v 8 * 8) most

/-- The same for a coded picture, which is at least 64 samples (R152). -/
def codedSize (v most : Nat) : Nat := max 64 (outSize v most)

/-- The personality of ENC unit `u`, for a channel of a class. -/
def State.encPers (s : State) (u cls : Nat) : EncPers :=
  let p := s.fab.persAt 1 u
  let b := p.2
  let fmt := bodyU8 b 0
  let want422 := fmt % 4 = 1
  let want10 := fmt / 4 % 2 = 1
  let ok := encAllows p.1
  let rot := bodyU8 b 8
  { code := p.1, codec := encCodec p.1
    v422 := decide want422 && ok.1, ten := decide want10 && ok.2
    clamp := (decide want422 && !ok.1) || (decide want10 && !ok.2)
    ti := if bodyU8 b 1 ≤ 3 then bodyU8 b 1 else 0
    tc := min (max (bodyU8 b 2) 1) 4
    fast := bodyU8 b 3 == 1
    tx := bodyN b 4 2 / 64 * 64
    depth := min (max (bodyU8 b 6) 1) 16
    la := if cls = 0 then min (bodyU8 b 7) 4 else min (bodyU8 b 7) 16
    rot := rot % 8, src1 := bodyU8 b 9 == 1, part := bodyN b 10 2
    srcW := if bodyN b 12 2 = 0 then 64 else bodyN b 12 2
    srcH := if bodyN b 14 2 = 0 then 64 else bodyN b 14 2
    outW := codedSize (bodyN b 16 2) 8192, outH := codedSize (bodyN b 18 2) 4320 }

/-! ### Channels and tiles (R155) -/

/-- The units of a type that a sash in force names. -/
def FabSt.unitsOf (f : FabSt) (sash ty : Nat) : List Nat :=
  match f.sashes.find? (·.id = sash) with
  | some d => (((sashRefs d f.paths).map (·.1)).filter (fun r => refType r = ty)).map refInst |>.eraseDups
  | none => []

/-- ENC units of a channel in TILE_INDEX order. -/
def State.encUnits (s : State) (sash : Nat) : List Nat :=
  (s.fab.unitsOf sash 1).mergeSort fun a b =>
    (s.encPers a (s.fab.cls sash)).ti ≤ (s.encPers b (s.fab.cls sash)).ti

/-- Left edges of the even split of a width into `n` tiles. -/
def evenSplit (w n : Nat) : List Nat := (List.range n).map fun i => 64 * (i * ceilDiv w 64 / n)

/-- Widths between left edges and the picture's right edge. -/
def tileWidths (w : Nat) : List Nat → List Nat
  | [] => []
  | [x] => [w - x]
  | x :: y :: t => (y - x) :: tileWidths w (y :: t)

/-- The tile columns of a channel at rendition 0: left edges, and whether the geometry did not fit. -/
def encTiles (ps : List EncPers) : List Nat × Bool :=
  match ps with
  | [] => ([0], false)
  | p :: _ =>
    let n := p.tc
    if p.codec = 4 then ([0], decide (1 < n))
    else if n = 1 then ([0], false)
    else
      let xs := (List.range n).map fun i => ((ps.find? (·.ti = i)).map (·.tx)).getD 0
      let fits := ps.map (·.ti) = List.range n ∧ xs.headD 0 = 0 ∧
        (tileWidths p.outW xs).all (fun w => decide (64 ≤ w)) ∧
        (xs.zip (xs.drop 1 ++ [p.outW])).all (fun e => decide (e.1 < e.2)) ∧
        (p.codec ≠ 1 ∨ (tileWidths p.outW xs).all fun w => decide (w ≤ 4096))
      if fits then (xs, false) else (evenSplit p.outW n, true)

/-! ### Picture slots (R154) -/

/-- Sashes that name ENC unit `u`, in image order: it serves 16 of them. -/
def State.encSashes (s : State) (u : Nat) : List Nat :=
  ((s.fab.sashes.filter fun d => s.fab.usesUnit d (mkRef 1 u)).map (·.id)).take 16

/-- REFS as configured. -/
def EncSt.refsOf (e : EncSt) (sash : Nat) : Nat := ((kvGet (8 * sash) e.rends).map (·.cfg.refs)).getD 1

/-- Slots a channel needs on a unit. -/
def State.slotNeed (s : State) (u sash : Nat) : Nat :=
  let p := s.encPers u (s.fab.cls sash)
  s.enc.refsOf sash + 1 + (if p.rot % 4 ≠ 0 ∨ p.src1 then 1 else 0) + p.la

/-- Slots that PART is divided into. -/
def State.slotCount (s : State) (u : Nat) : Nat :=
  let p := s.encPers u 1
  let bytes := p.outW * p.outH * (if p.v422 then 4 else 3) * (if p.ten then 5 else 4)
  let slot := ceilDiv bytes (8 * 4096) * 4096
  ((s.fab.part p.part).map (fun (q : PartRec) => q.size / slot)).getD 0

/-- REFS in force of channels as (slots needed, REFS), in image order: each has what PART leaves it once every channel behind it has a
reference and its reconstruction (assumption 113). -/
def cutRefs (slots : Nat) : List (Nat × Nat) → List Nat
  | [] => []
  | (need, refs) :: t =>
    let r := max 1 (refs - (need - (slots - 2 * t.length)))
    r :: cutRefs (slots - (need - (refs - r))) t

/-- A unit codes nothing under its personality: an unknown code, or no room for one reference and the reconstruction of each channel. -/
def State.encBad (s : State) (u : Nat) : Bool :=
  let code := (s.fab.persAt 1 u).1
  let n := (s.encSashes u).length
  code != 0 && (encCodec code == 0 || (n != 0 && decide (s.slotCount u < 2 * n)))

/-- Everything fixed about one unit's share of one rendition. -/
structure EncGeom where
  p : EncPers
  cfg : EncCfg
  live : Bool
  /-- Picture size, its stripes, and stripes in a release row (R156, R160). -/
  w : Nat
  h : Nat
  n : Nat
  g : Nat
  /-- The tile's edges and whether it is the last of its row; blocks in a stripe of it. -/
  x0 : Nat
  x1 : Nat
  last : Bool
  b : Nat
  /-- Cp and Fl of a stripe (R167), Cp of a block. -/
  cp : Nat
  fl : Nat
  cpb : Nat
  h0 : Nat
  deriving DecidableEq, Repr

/-- The copy bound of a block (Table 8.9). -/
def copyBits (codec : Nat) : Nat := if codec = 4 then 48 else 24

/-- Stripes in a release row (Table 8.3). -/
def rowStripes (codec tc n : Nat) : Nat :=
  if codec = 1 then ceilDiv n 64 else if codec = 4 ∨ tc = 1 then 1 else ceilDiv n 22

/-- The size of rendition `r`: the personality's for 0, the configuration's for the others, at least 64 × 64 (R152). -/
def EncCfg.size (c : EncCfg) (p : EncPers) (r : Nat) : Nat × Nat := if r = 0 then (p.outW, p.outH) else (max 64 c.w, max 64 c.h)

/-- The share of unit `u` in rendition `r` of channel `sash` under a configuration; none where the unit codes nothing of it. A tile
edge of a smaller rendition is scaled and rounded down to 64. -/
def State.encGeomOf (s : State) (u sash r : Nat) (cfg : EncCfg) : Option EncGeom :=
  let cls := s.fab.cls sash
  let us := s.encUnits sash
  let ps := us.map fun i => s.encPers i cls
  match us.findIdx? (· = u) with
  | some i =>
    let p := s.encPers u cls
    let t := encTiles ps
    let sz := cfg.size p r
    let xs := t.1.map fun x => if r = 0 then x else x * sz.1 / p.outW / 64 * 64
    let x0 := xs.getD i 0
    let x1 := xs.getD (i + 1) sz.1
    let n := ceilDiv sz.2 64
    let b := ceilDiv (x1 - x0) 64
    let cpb := copyBits p.codec
    if s.encBad u ∨ p.codec = 0 ∨ xs.length ≤ i ∨ (r ≠ 0 ∧ !cfg.enable) then none
    else some
      { p := p, cfg := cfg, live := cls == 0, w := sz.1, h := sz.2, n := n, g := rowStripes p.codec p.tc n, x0 := x0
        x1 := x1, last := i + 1 == xs.length, b := b, cp := cpb * b + 64
        fl := max (s.hub.get1 ENC.FLOOR_BITS.BITS u) cpb * b + 64, cpb := cpb, h0 := p.outH }
  | none => none

/-- The same under the configuration in force. -/
def State.encGeom (s : State) (u sash r : Nat) : Option EncGeom :=
  (kvGet (8 * sash + r) s.enc.rends).bind fun e => s.encGeomOf u sash r e.cfg

/-- Left edges of the tiles within the unit's column: a column of AV1 wider than 4,096 samples is divided into equal tiles (R155). -/
def EncGeom.inner (g : EncGeom) : List Nat :=
  let w := g.x1 - g.x0
  if g.p.codec = 1 ∧ 4096 < w then (evenSplit w (ceilDiv w 4096)).map (g.x0 + ·) else [g.x0]

/-- The tile of `inner` that holds block column `c` of the picture. -/
def EncGeom.tileOf (g : EncGeom) (c : Nat) : Nat := (g.inner.filter fun x => decide (x ≤ 64 * c)).length - 1

/-- Bytes of tile_size in a row: 4 for each tile that is not the last of its AV1 tile group (R156). -/
def EncGeom.tileSize (g : EncGeom) : Nat := if g.p.codec = 1 then 4 * (g.inner.length - (if g.last then 1 else 0)) else 0

/-- Luma lines of stripe `k`, and luma samples of the tile in it. -/
def EncGeom.lines (g : EncGeom) (k : Nat) : Nat := min 64 (g.h - 64 * k)
def EncGeom.samples (g : EncGeom) (k : Nat) : Nat := (g.x1 - g.x0) * g.lines k

/-! ### Times (R160, R161) -/

/-- The last source line that stripe `k` of a picture of `h` lines needs. -/
def lastLine (srcH h k : Nat) : Nat :=
  if srcH = h then min srcH (64 * (k + 1)) else min srcH (ceilDiv (64 * (k + 1) * srcH) h + 3)

/-- The captured line that stripe `k` waits for: for a rendition after the first, the end of the source stripe that holds
its last line (R157). -/
def EncGeom.line (g : EncGeom) (r k : Nat) : Nat :=
  let l := lastLine g.p.srcH g.h k
  if r = 0 then l
  else (((List.range (ceilDiv g.h0 64)).map (lastLine g.p.srcH g.h0)).find? fun x => l ≤ x).getD g.p.srcH

/-- Does the unit need source lines up to here before stripe `k` is captured: the whole frame under rotation? -/
def EncGeom.needs (g : EncGeom) (r k : Nat) : Nat := if 1 ≤ g.p.rot % 4 then g.p.srcH else g.line r k

/-- The source stripes that hold lines stripe `k` of rendition `r` reads. -/
def EncGeom.sources (g : EncGeom) (r k : Nat) : List Nat :=
  if r = 0 then [k]
  else (List.range (ceilDiv g.h0 64)).filter fun j =>
    decide (64 * k * g.p.srcH / g.h < lastLine g.p.srcH g.h0 j ∧ (j = 0 ∨ lastLine g.p.srcH g.h0 (j - 1) < g.line r k))

/-- Denominator of times of the channel: ns × FPS_NUM × SRC_H × OUT_H. -/
def EncGeom.scale (g : EncGeom) : Nat := g.cfg.num * g.p.srcH * g.h0

/-- E_k = C_k + D × T_s + 40 µs, times `scale`. -/
def EncGeom.deadline (g : EncGeom) (r cf k : Nat) : Nat :=
  let tf := 1000000000 * g.cfg.den
  let extra := (if 1 ≤ g.p.rot % 4 then 1 else 0) + g.p.la
  (cf + 40000) * g.scale + extra * tf * g.p.srcH * g.h0 + tf * g.line r k * g.h0 + g.p.depth * tf * 64 * g.p.srcH

/-- R_k = E_k + 24 µs, times `scale`; and whether an instant given `early` ns before E_k or R_k has come. -/
def EncGeom.release (g : EncGeom) (r cf k : Nat) : Nat := g.deadline r cf k + 24000 * g.scale
def State.reached (s : State) (g : EncGeom) (t early : Nat) : Bool := decide (t ≤ (s.hub.time.total + early) * g.scale)

/-! ### The input scaler and rotator (R173) -/

/-- A size within ratios 1/8 to 2 of the source. -/
def scaledSize (src out : Nat) : Nat := min (max out (ceilDiv src 8)) (2 * src)

/-- Size of the source once rotated. -/
def EncPers.turned (p : EncPers) : Nat × Nat := if p.rot % 2 = 1 then (p.srcH, p.srcW) else (p.srcW, p.srcH)

/-- Size of the scaled picture, placed at the top left of the coded one and cropped at its right and bottom. -/
def EncPers.scaled (p : EncPers) : Nat × Nat := (scaledSize p.turned.1 p.outW, scaledSize p.turned.2 p.outH)

/-- Is a ratio outside its range? -/
def EncPers.scaleClamp (p : EncPers) : Bool := p.scaled != (p.outW, p.outH)

/-- Taps of the polyphase filters, horizontal and vertical. -/
def scalerTaps : Nat × Nat := (8, 6)

/-- The source sample over which the filters of a coded sample stand; none where the coded sample is black. The picture is mirrored
before it is rotated clockwise. -/
def EncPers.sampleAt (p : EncPers) (x y : Nat) : Option (Nat × Nat) :=
  let sz := p.scaled
  if sz.1 ≤ x ∨ sz.2 ≤ y then none
  else
    let a := x * p.turned.1 / sz.1
    let b := y * p.turned.2 / sz.2
    let m := match p.rot % 4 with
      | 0 => (a, b)
      | 1 => (b, p.srcH - 1 - a)
      | 2 => (p.srcW - 1 - a, p.srcH - 1 - b)
      | _ => (p.srcW - 1 - b, a)
    some (if 4 ≤ p.rot then p.srcW - 1 - m.1 else m.1, m.2)

/-! ### Costs (Table 8.7, R175) -/

/-- Cost of a sample in 10^−4 hc: NORMAL, FLOOR, COPY. -/
def EncGeom.cost (g : EncGeom) (r mode : Nat) : Nat :=
  match mode with
  | 0 =>
    if r = 0 then (if g.p.fast then (if g.p.v422 then 11704 else 8800) else if g.p.v422 then 12768 else 9600)
    else if g.p.fast then (if g.p.v422 then 7448 else 5600) else if g.p.v422 then 7980 else 6000
  | 1 => if g.p.v422 then 3990 else 3000
  | _ => if g.p.v422 then 532 else 400

/-- The hc of a stripe in a mode, rounded up. -/
def EncGeom.hc (g : EncGeom) (r mode k : Nat) : Nat := ceilDiv (g.samples k * g.cost r mode) 10000

/-- Lookahead in 10^−4 hc per source sample (Table 8.7). -/
def EncPers.lookCost (p : EncPers) : Nat := if p.la = 0 then 0 else if p.v422 then 1064 else 800

/-- Source samples of the unit's tile in a frame. -/
def EncGeom.source (g : EncGeom) : Nat := g.p.srcW * g.p.srcH * (g.x1 - g.x0) / g.w

/-- A unit's demand in hc for a frame of a rendition whose stripes are coded in `modes` (R164). -/
def EncGeom.demand (g : EncGeom) (r : Nat) (modes : List Nat) : Nat :=
  ceilDiv ((modes.zipIdx.foldl (fun a m => a + g.samples m.2 * g.cost r m.1) 0) + (if r = 0 then g.source * g.p.lookCost else 0)) 10000

/-- A unit's HBM demand in bytes for a frame of a rendition (R164). -/
def EncGeom.hbm (g : EncGeom) (r : Nat) : Nat :=
  let stored := g.p.rot % 4 ≠ 0 ∨ 0 < g.p.la
  ceilDiv ((g.x1 - g.x0) * g.h * (if g.p.v422 then 1064 else 800)) 100 +
    (if r = 0 then g.source * ((if g.p.src1 then 2 else 0) + (if stored then 4 else 0)) else 0)

/-- H of R175: the hc the unit can expect before E_k. -/
def State.encH (s : State) (g : EncGeom) (u sash r cf k : Nat) : Nat :=
  let left := g.deadline r cf k - s.hub.time.total * g.scale
  let amount := s.fab.amount 0 (mkRef 1 u) sash
  let p := s.hub.get GLB.PACE_SUM.WORST
  if p * 240000 ≤ 125000 * 16384 then left * amount / (125000 * g.scale)
  else left * amount * (125000 * 16384) / (125000 * g.scale * (p * 240000))

/-! ### Keys of the maps -/

def sideKey (u sash : Nat) : Nat := 1024 * u + sash
def shareKey (u sash r : Nat) : Nat := (1024 * u + sash) * 8 + r
def EncSt.side (e : EncSt) (u sash : Nat) : EncSide := (kvGet (sideKey u sash) e.sides).getD {}
def EncSt.share (e : EncSt) (u sash r : Nat) : EncShare := (kvGet (shareKey u sash r) e.shares).getD {}
def EncSt.setSide (e : EncSt) (u sash : Nat) (x : EncSide) : EncSt := { e with sides := kvPut (sideKey u sash) x e.sides }
def EncSt.setShare (e : EncSt) (u sash r : Nat) (x : EncShare) : EncSt :=
  { e with shares := kvPut (shareKey u sash r) x e.shares }
def EncSt.setRend (e : EncSt) (sash r : Nat) (x : EncRend) : EncSt := { e with rends := kvPut (8 * sash + r) x e.rends }
def State.setShare (s : State) (u sash r : Nat) (x : EncShare) : State := { s with enc := s.enc.setShare u sash r x }

/-- Replace a frame of a share by its number. -/
def EncShare.setFrame (x : EncShare) (f : EncFrame) : EncShare :=
  { x with frames := x.frames.map fun o => if o.num = f.num then f else o }

/-- The frame of a number in progress. -/
def EncShare.frame (x : EncShare) (n : Nat) : Option EncFrame := x.frames.find? (·.num = n)

/-- An encoder event, at most one record per second: the frame and the stripe, the count follows (R179). -/
def State.encRaise (s : State) (code u sash frame k : Nat) : State :=
  { s with hub := s.hub.raiseRl { code := code, inst := u, sash := sash, detail := [frame, k] } }

/-- Count in an encoder error counter. -/
def State.encErr (s : State) (f : Fld) (u n : Nat) : State := { s with hub := s.hub.errN f u n 0x080A u }

/-! ### The HRD (R165) -/

/-- B and the bits that arrive per frame, in units of 1/FPS_NUM bit. RATE_KBPS × BUF_MS is in bits. -/
def EncCfg.buffer (c : EncCfg) : Nat := c.kbps * c.bufMs * c.num
def EncCfg.perFrame (c : EncCfg) : Nat := c.kbps * 1000 * c.den

/-- Initial fullness. -/
def EncCfg.initial (c : EncCfg) : Nat := c.kbps * c.initMs * c.num

/-- Filler bits of a CBR frame: what would leave F above B, rounded down to a bit (assumption 112). -/
def EncCfg.filler (c : EncCfg) (full size : Nat) : Nat :=
  if c.vbr then 0 else (full - size * c.num + c.perFrame - c.buffer) / c.num

/-- The fullness after a frame. -/
def EncCfg.after (c : EncCfg) (full size : Nat) : Nat := min c.buffer (full - size * c.num + c.perFrame)
def EncRend.nextFull (e : EncRend) : Nat := e.cfg.after e.full e.size

/-- Filler bits of a frame, present or just past. -/
def EncRend.filler (e : EncRend) (num : Nat) : Nat :=
  if e.frame = some num then e.cfg.filler e.full e.size
  else match e.past with
    | some p => if p.frame = num then p.cfg.filler p.full p.size else 0
    | none => 0

/-- Bits are committed in a frame: the present one, or one that units of the channel still code. -/
def EncRend.commit (e : EncRend) (num bits : Nat) : EncRend :=
  if e.frame = some num then { e with size := e.size + bits }
  else match e.past with
    | some p =>
      if p.frame = num then
        { e with past := some { p with size := p.size + bits }
                 full := min e.cfg.buffer (p.cfg.after p.full (p.size + bits) * e.cfg.num / p.cfg.num) }
      else { e with full := e.full - bits * e.cfg.num }
    | none => { e with full := e.full - bits * e.cfg.num }

/-- A new configuration takes effect: fullness is kept, in its own unit (rounded down), within its buffer. -/
def EncRend.configure (e : EncRend) (c : EncCfg) : EncRend :=
  { e with cfg := c, next := none, full := min c.buffer (e.full * c.num / e.cfg.num) }

/-! ### Sweeps (R170) -/

/-- Sweep columns of a width in block columns under REFRESH_N, and the block columns of one. -/
def sweepWidth (cols n : Nat) : Nat := ceilDiv cols n
def sweepCount (cols n : Nat) : Nat := ceilDiv cols (sweepWidth cols n)

/-- The column after one that was coded: the same where it failed, else the next, and 0 after the last. -/
def nextColumn (cols n c : Nat) (failed : Bool) : Nat :=
  if failed then c else if c + 1 < sweepCount cols n then c + 1 else 0

/-- The control block of a FRAME record (Table 8.5): key picture, QP_BASE, REFRESH, TARGET, CAP_MAX. -/
structure FrameCtl where
  key : Bool
  qp : Nat
  refresh : Nat
  target : Nat
  capMax : Nat
  deriving DecidableEq, Repr

/-- The codec's greatest quantiser, from the published codecs. -/
def qpMax (codec : Nat) : Nat := match codec with | 1 => 255 | 3 => 63 | _ => 51

def frameCtl (codec : Nat) (p : List Byte) : FrameCtl :=
  { key := bodyU8 p 0 == 1, qp := min (bodyU8 p 1) (qpMax codec), refresh := if bodyU8 p 2 ≤ 2 then bodyU8 p 2 else 0
    target := bodyN p 4 4, capMax := bodyN p 8 4 }

/-- Has REFRESH_HOLD passed since the last restart made for a request (R171)? -/
def State.holdOver (s : State) (last : Option Nat) : Bool :=
  match last with
  | none => true
  | some t => decide (t + s.enc.hold * 1000000 ≤ s.hub.elapsed)

/-- What the channel codes in a frame (R170–R172): first REFRESH and a waiting request, then the key picture and the
sweep column. -/
def State.encPlan (s : State) (e : EncRend) (frame cf : Nat) (ctl : Option FrameCtl) : EncRend :=
  let ref := (ctl.map (·.refresh)).getD 0
  let n := e.cfg.refreshN
  let e1 : EncRend := if ref = 1 then { e with sweep := 0 } else e
  let key0 := match ctl with
    | some c => c.key || (decide (0 < e.cfg.keyInt) && frame % e.cfg.keyInt == 0)
    | none => false
  let e2 : EncRend := match e1.req with
    | none => { e1 with key := key0 }
    | some (_, ns, k) =>
      if k ∨ n = 0 then
        if key0 ∧ ns < cf then { e1 with key := true, req := none }
        else if s.holdOver e1.restart then { e1 with key := true, req := none, restart := some s.hub.elapsed }
        else { e1 with key := key0 }
      else if e1.sweep = 0 ∧ !key0 ∧ ref ≠ 2 ∧ ns < cf then { e1 with key := key0, req := none }
      else if s.holdOver e1.restart then { e1 with key := key0, sweep := 0, req := none, restart := some s.hub.elapsed }
      else { e1 with key := key0 }
  { e2 with
    sweep := if e2.key then 0 else e2.sweep
    col := if e2.key ∨ n = 0 ∨ ref = 2 then none else some e2.sweep }

/-- The plan of a frame, made at the first unit that starts it, from a FRAME record that is in time for some unit; where none has
arrived, made again at the first unit for which it is in time (R159, R171). -/
def State.encReplan (s : State) (e : EncRend) (frame cf : Nat) (fresh pane : Bool) (ctl : Option FrameCtl) : EncRend :=
  if pane then { e with key := false, col := none, plan0 := none }
  else if fresh then
    { s.encPlan e frame cf ctl with plan0 := if ctl.isSome then none else some (e.sweep, e.req, e.restart) }
  else match e.plan0, ctl with
    | some b, some _ => { s.encPlan { e with sweep := b.1, req := b.2.1, restart := b.2.2 } frame cf ctl with plan0 := none }
    | _, _ => e

/-- Did a block of a frame's column fail on a unit of the channel (R170)? -/
def State.colFailed (s : State) (sash r num : Nat) : Bool :=
  (s.encUnits sash).any fun u => match (s.enc.share u sash r).frame num with
    | some f => f.failed
    | none => false

/-- The channel moves on to a frame at the first unit that starts it: the frame before leaves the HRD and the sweep, and
configurations that waited for a frame start take effect (R165, R170, R205). -/
def State.encAdvance (s : State) (sash r frame : Nat) (e : EncRend) (w : Nat) : EncRend :=
  let e1 : EncRend := match e.frame with
    | some n =>
      { e with
        full := e.nextFull
        past := some { frame := n, full := e.full, size := e.size, cfg := e.cfg }
        sweep := match e.redo, e.col with
          | some c, _ => c
          | none, some c => nextColumn (ceilDiv w 64) e.cfg.refreshN c (s.colFailed sash r n)
          | none, none => e.sweep
        redo := none
        cnt := { e.cnt with last := e.size, full := e.nextFull / e.cfg.num, frames := e.cnt.frames + 1 } }
    | none => e
  let e2 := match e1.next with
    | some c => e1.configure c
    | none => e1
  let e3 : EncRend := match e2.nextPanes with
    | some p => { e2 with panes := p, nextPanes := none }
    | none => e2
  { e3 with frame := some frame, size := 0 }

/-- CAP of a frame (R165). -/
def EncRend.cap (e : EncRend) (ctl : Option FrameCtl) : Nat :=
  let f := e.full / e.cfg.num
  match ctl with
  | some c => if c.capMax = 0 then f else min f c.capMax
  | none => f

/-! ### Panes (R206, R208) -/

/-- The frame rate of splicer `i`. -/
def State.splFps (s : State) (i : Nat) : Nat × Nat :=
  let b := (s.fab.persAt 4 i).2
  fpsOf (bodyN b 4 4) (bodyN b 8 4) 30

def paneKey (spl stream : Nat) : Nat := 1024 * spl + stream

/-- A pane stream's record. -/
def SplSt.stream (x : SplSt) (spl id : Nat) : PaneStream := (kvGet (paneKey spl id) x.streams).getD {}
def SplSt.setStream (x : SplSt) (spl id : Nat) (p : PaneStream) : SplSt :=
  { x with streams := kvPut (paneKey spl id) p x.streams }

/-- A refresh of a pane stream is needed (R214): it joins the pending one, or is set for the first frame at least 2 periods
after the need and REFRESH_INTERVAL after the previous one. The need of an imported stream is returned to its exporter
(R218). -/
def State.paneNeed (s : State) (spl id : Nat) : State :=
  let p := s.spl.stream spl id
  match p.remote with
  | some (dev, rspl, rid) => s.jlSvc dev (.refresh rspl rid)
  | none =>
    if p.due.isSome ∨ p.src.isNone then s
    else
      let fps := s.splFps spl
      let t := max (s.hub.time.total + 250000) ((p.last.map (· + s.spl.interval * 1000000)).getD 0)
      { s with
        hub := s.hub.stat SPL.REFRESH_LO.COUNT spl 1
        spl := s.spl.setStream spl id { p with due := some (instantFrom fps.1 fps.2 t) } }

/-- What a pane codes in a frame: a refresh where one is due at it, where the FRAME record asks for a key picture, or on the
first frame on other hardware (Table 10.9); else its sweep column, restarted for a request. -/
def State.panePlan (s : State) (spl n : Nat) (all : Bool) (ref cf : Nat) (p : EncPane) : EncPane :=
  let fps := s.splFps spl
  let due := (s.spl.stream spl p.stream).due
  if all ∨ due = some (instantAt fps.1 fps.2 cf) then { p with refresh := true, col := none, sweep := 0, failed := false }
  else
    let p1 : EncPane := if ref = 1 then { p with sweep := 0 } else p
    let p2 : EncPane := match p1.req with
      | none => p1
      | some (_, ns) =>
        if n = 0 then p1
        else if p1.sweep = 0 ∧ ref ≠ 2 ∧ ns < cf then { p1 with req := none }
        else if s.holdOver p1.restart then { p1 with sweep := 0, req := none, restart := some s.hub.elapsed }
        else p1
    { p2 with refresh := false, failed := false, col := if n = 0 ∨ ref = 2 then none else some p2.sweep }

/-- Is a pane in the unit's tile? Panes never straddle a tile edge (R205). -/
def EncPane.inTile (p : EncPane) (g : EncGeom) : Bool := decide (g.x0 ≤ 64 * p.x ∧ 64 * p.x < g.x1)

/-! ### The frame start -/

/-- Bytes of a record that leave the unit: for KIND 0 what follows the control block. -/
def HdrRec.head (x : HdrRec) : List Byte := if x.kind = 0 then x.payload.drop 16 else x.payload

/-- The payload bits of records that count in B_c (R166): none in pane mode, where header bytes are discarded. -/
def recBits (pane : Bool) (ti : Nat) (l : List HdrRec) : Nat :=
  if pane then 0 else l.foldl (fun a x => if x.kind = 0 ∧ ti ≠ 0 then a else a + 8 * x.head.length) 0

/-- Pane mode (R205): an output path of the rendition ends at port 0 of the splicer whose SPL_PANESET is in force. -/
def State.paneMode (s : State) (sash r : Nat) (e : EncRend) : Bool :=
  match e.panes with
  | some (spl, _) => (s.encUnits sash).any fun u => (s.fab.dests sash (mkRef 1 u + r)).contains (mkRef 4 spl)
  | none => false

/-! ### Input (R160) -/

/-- Lines of a picture with capture time `cf` reach the ENC units that a port feeds, at their port 0: `upTo` gives how many source lines
a unit now has. The first ones give it its number. -/
def State.encInput (s : State) (sash src cf : Nat) (upTo : Nat → Nat) : State :=
  let us := (((s.fab.dests sash src).filter fun d => refType d = 1 ∧ refPort d = 0).map refInst).filter fun u =>
    !(s.encPers u (s.fab.cls sash)).src1
  { s with enc := us.foldl (fun (e : EncSt) u =>
      let sd := e.side u sash
      let new := (sd.pics.find? (·.2 = cf)).isNone
      let n := ((sd.pics.find? (·.2 = cf)).map Prod.fst).getD sd.numbered
      let near := fun (p : Nat × Nat) => decide ((n + 2 ^ 32 - p.1) % 2 ^ 32 < 64)
      e.setSide u sash { sd with
        numbered := if new then (n + 1) % 2 ^ 32 else sd.numbered
        pics := if new then kvPut n cf (sd.pics.filter near) else sd.pics
        lines := kvPut n (upTo u) (sd.lines.filter near) }) s.enc }

/-- Is the input of stripe `k` of frame `n` complete? Pictures by descriptor are complete in HBM; lines missing from a source stripe
never come (R228). -/
def EncSide.hasInput (sd : EncSide) (g : EncGeom) (r n k : Nat) : Bool :=
  g.p.src1 || (decide (g.needs r k ≤ (kvGet n sd.lines).getD 0) &&
    !(if 1 ≤ g.p.rot % 4 then sd.gaps.any (·.1 = n) else (g.sources r k).any fun j => sd.gaps.contains (n, j)))

/-- Source stripe `k` of the picture with capture time `cf` reaches the units that a port feeds with lines missing. -/
def State.encGap (s : State) (sash src cf k : Nat) : State :=
  let us := ((s.fab.dests sash src).filter fun d => refType d = 1 ∧ refPort d = 0).map refInst
  { s with enc := us.foldl (fun (e : EncSt) u =>
      let sd := e.side u sash
      match sd.pics.find? (·.2 = cf) with
      | some p => e.setSide u sash { sd with gaps := (sd.gaps.filter fun m => !laterThan 32 m.1 p.1) ++ [(p.1, k)] }
      | none => e) s.enc }

/-- Was a source stripe that stripe `k` of a rendition reads missing (R163)? -/
def EncSide.lacks (sd : EncSide) (g : EncGeom) (r n k : Nat) : Bool := (g.sources r k).any fun j => sd.missed.contains (n, j)

/-- The control block of a frame's FRAME record that a unit holds. -/
def EncSide.ctl (sd : EncSide) (codec r n : Nat) : Option FrameCtl :=
  (sd.held.find? fun h => h.rend = r ∧ h.frame = n ∧ h.kind = 0).map fun h => frameCtl codec h.payload

/-- A frame starts on a unit (stripe 0). Answers nothing where the unit has no input of that number yet. -/
def State.encFrameStart (s : State) (u sash r : Nat) (g : EncGeom) : Option State :=
  let sd := s.enc.side u sash
  let n := (kvGet r sd.started).getD 0
  match kvGet n sd.pics, kvGet (8 * sash + r) s.enc.rends with
  | some cf, some e0 =>
    let mine := sd.held.filter fun h => h.rend = r ∧ h.frame = n
    let ctl := sd.ctl g.p.codec r n
    let anyCtl := ctl.orElse fun _ => (s.encUnits sash).findSome? fun v => (s.enc.side v sash).ctl g.p.codec r n
    let fresh := e0.frame != some n
    let a := if fresh then s.encAdvance sash r n e0 g.w else e0
    let pane := s.paneMode sash r a
    let e1 := s.encReplan a n cf fresh pane anyCtl
    let e : EncRend := { e1 with cnt := { e1.cnt with col := e1.col.getD 0 } }
    let sh := s.enc.share u sash r
    let hw := s.hub.get2 DBT.CH.SERVED_BY 1 u
    let moved := sd.served.isSome && sd.served != some hw
    let all := moved || ((ctl.map (·.key)).getD false)
    let ref := (ctl.map (·.refresh)).getD 0
    let panes := match e.panes with
      | some (spl, l) => if !pane then [] else (l.filter (·.inTile g)).map (s.panePlan spl e.cfg.refreshN all ref cf)
      | none => []
    let area := g.x1 - g.x0
    let target := (ctl.map (·.target)).getD sh.lastTarget
    let f : EncFrame :=
      { num := n, cfg := e.cfg, epoch := s.epochOf sash, refs := if pane then 1 else sd.refs, pane := pane, cf := cf, key := e.key && ctl.isSome, qp := (ctl.map (·.qp)).getD sh.lastQp
        target := target * area / g.w - sh.excess, cap := e.cap ctl * area / g.w, bc := recBits pane g.p.ti mine
        hdrLate := ctl.isNone, recs := mine, col := e.col, panes := panes }
    let sd1 : EncSide := { sd with
      started := kvPut r ((n + 1) % 2 ^ 32) sd.started
      held := sd.held.filter fun h => h.rend ≠ r ∨ h.frame ≠ n
      served := some hw }
    let sh1 : EncShare := { sh with frames := (sh.frames.filter fun o => !o.gone || some o == sh.frames.getLast?) ++ [f], lastQp := f.qp, lastTarget := target, excess := 0 }
    some { s with enc := ((s.enc.setRend sash r (e.commit n f.bc)).setSide u sash sd1).setShare u sash r sh1 }
  | _, _ => none

end Sys2Proof.Machine
end

