-- ==== Sys2Proof/Machine/DblWave.lean ====
section
/-!
DEFINITION. The beacon's signal: frames as R261 and R262 code them, and the receiver of R266 from decoded samples to decoded blocks.
-/

namespace Sys2Proof.Machine

/-! ### The frame (R261, R262) -/

/-- The low `n` bits of a number, most significant first. -/
def bitsMsb : Nat → Nat → List Bool
  | 0, _ => []
  | n + 1, v => v.testBit n :: bitsMsb n v

/-- A CRC of width `w` with polynomial `poly` over bits, most significant first, from `crc` on. -/
def crcBits (w poly : Nat) : Nat → List Bool → Nat
  | crc, [] => crc
  | crc, b :: t =>
    let top := crc.testBit (w - 1) != b
    let c := crc * 2 % 2 ^ w
    crcBits w poly (if top then Nat.xor c poly else c) t

/-- CRC-4 of HDR and CRC-16 of TOKEN. -/
def crcHdr (hdr : Nat) : Nat := crcBits 4 0x3 0 (bitsMsb 12 hdr)
def crcToken (token : Nat) : Nat := crcBits 16 0x1021 0xFFFF (bitsMsb 48 token)

/-- The parity of the bits of a 7-bit register that a generator taps. -/
def parity7 (v : Nat) : Bool := (List.range 7).foldl (fun a i => a != v.testBit i) false

/-- The convolutional code, K = 7: for each bit the bit of 171 (octal), then of 133; the newest bit is the highest. -/
def convCode : Nat → List Bool → List Bool
  | _, [] => []
  | st, b :: t =>
    let r := (if b then 64 else 0) + st
    parity7 (Nat.land r 0x79) :: parity7 (Nat.land r 0x5B) :: convCode (r / 2) t

/-- A coded block: its bits, then six 0 bits, from state 0. -/
def codedBlock (bits : List Bool) : List Bool := convCode 0 (bits ++ List.replicate 6 false)

/-- Phases in quarter turns of DBPSK and DQPSK symbols after phase `ph`. -/
def dbpsk : Nat → List Bool → List Nat
  | _, [] => []
  | ph, b :: t =>
    let q := (ph + (if b then 2 else 0)) % 4
    q :: dbpsk q t
def dqpsk : Nat → List Bool → List Nat
  | ph, a :: b :: t =>
    let q := (ph + (if a then (if b then 2 else 3) else (if b then 1 else 0))) % 4
    q :: dqpsk q t
  | _, _ => []

/-- The 31 chips of x^5 + x^2 + 1 from the all-ones state. -/
def chipsFrom : Nat → List Bool → List Bool
  | 0, _ => []
  | n + 1, l => l.headD false :: chipsFrom n (l.drop 1 ++ [l.headD false != (l.drop 2).headD false])
def beaconChips : List Bool := chipsFrom 31 (List.replicate 5 true)

/-- The symbols of a frame (Table 13.1), as phases in quarter turns. -/
def beaconSymbols (pmod : Bool) (seq token : Nat) : List Nat :=
  let known : List Nat := [0, 0, 2, 0] ++ [0, 0, 0, 0, 0, 2, 2, 0, 0, 2, 0, 2, 0]
  let hdr := (if pmod then 128 else 0) + seq % 128
  let head := dbpsk 0 (codedBlock (bitsMsb 12 hdr ++ bitsMsb 4 (crcHdr hdr)))
  let pay := codedBlock (bitsMsb 48 token ++ bitsMsb 16 (crcToken token))
  known ++ head ++ (if pmod then dqpsk (head.getLastD 0) pay else dbpsk (head.getLastD 0) pay)

/-- The time a frame is on air, in ms. -/
def beaconMs (pmod : Bool) : Nat := if pmod then 4101 else 6271

/-! ### The waveform (R260, R261, R263) -/

/-- The chips of a frame as phases in quarter turns: lead-in, symbols, lead-out (Table 13.1). -/
def beaconPhases (symbols : List Nat) : List Nat :=
  let chip := fun (ph : Nat) (b : Bool) => (ph + if b then 2 else 0) % 4
  (beaconChips.drop 11).map (chip (symbols.headD 0)) ++ symbols.flatMap (fun ph => beaconChips.map (chip ph)) ++
    (beaconChips.take 20).map (chip (symbols.getLastD 0))

/-- Is a frame on air at an elapsed time? -/
def DblTx.onAir (t : DblTx) (now : Nat) : Bool := (t.frame.map fun f => decide (f.1 ≤ now ∧ now < f.2)).getD false

/-- A beacon is cut: its lead-out of 20 ms starts at once, at global sample `smp`. -/
def DblTx.cut (t : DblTx) (now smp : Nat) : DblTx :=
  if t.onAir now then { t with frame := t.frame.map fun f => (f.1, min f.2 (now + 20000000)), cutAt := t.cutAt.orElse fun _ => some smp } else t

/-- The global sample of the counter time (R242). -/
def Hub.sampleNow (h : Hub) : Nat := h.time.total * 6 / 125000

/-- Sample `smp` of a transmission's frame; 0 when none is sent. -/
def DblTx.wave (t : DblTx) (level smp : Nat) : Int :=
  let whole := t.at_ + 48 * (31 * t.sent.length + 40)
  let last := match t.cutAt with
    | some c => min (c + 960) whole
    | none => whole
  if t.frame.isNone ∨ smp < t.at_ ∨ last ≤ smp then 0
  else Config.beaconWave (max level 10) (beaconPhases t.sent) (t.cutAt.map fun c => c - t.at_) (smp - t.at_)

/-! ### From audio to T/2 samples (R266, 1) -/

def Cpx.zero : Cpx := ⟨0, 0⟩
def Cpx.add (a b : Cpx) : Cpx := ⟨a.re + b.re, a.im + b.im⟩
def Cpx.sub (a b : Cpx) : Cpx := ⟨a.re - b.re, a.im - b.im⟩
def Cpx.mul (a b : Cpx) : Cpx := ⟨a.re * b.re - a.im * b.im, a.re * b.im + a.im * b.re⟩
def Cpx.conj (a : Cpx) : Cpx := ⟨a.re, -a.im⟩
def Cpx.scale (k : Rat) (a : Cpx) : Cpx := ⟨k * a.re, k * a.im⟩
def Cpx.energy (a : Cpx) : Rat := a.re * a.re + a.im * a.im

/-- The receiver's number format. -/
def Cpx.format (a : Cpx) : Cpx := ⟨Config.tapFormat a.re, Config.tapFormat a.im⟩

/-- T/2 samples of a dwell so far: one each 24 decoded samples. -/
def DblDwell.count (d : DblDwell) : Nat := d.got / 24

/-- One decoded sample: the filter's output is mixed down by 19.0 kHz, which at every 24th sample turns by half a turn. -/
def DblDwell.hear (d : DblDwell) (v : Int) : DblDwell :=
  let a := (v :: d.audio).take 960
  let n := d.got + 1
  let f := Config.beaconFilter a
  let z : Cpx := Cpx.scale (if n / 24 % 2 = 0 then 1 else -1) ⟨f.1, f.2⟩
  { d with got := n, audio := a, half := if n % 24 = 0 then (z :: d.half).take 4096 else d.half }

/-- T/2 sample `i` of a dwell. -/
def DblDwell.sample (d : DblDwell) (i : Nat) : Cpx := if d.count ≤ i then Cpx.zero else d.half.getD (d.count - 1 - i) Cpx.zero

/-- The 16 samples under the feed-forward taps whose centre tap, number 8, stands on sample `i`: later ones first. -/
def DblDwell.window (d : DblDwell) (i : Nat) : List Cpx := (List.range 16).map fun t => if i + 8 < t then Cpx.zero else d.sample (i + 8 - t)

/-! ### The equaliser (R266, 2 to 4) -/

/-- Taps reset at an acquisition (assumption 125). -/
def DblEq.fresh (at_ : Nat) : DblEq :=
  { ff := List.replicate 16 Cpx.zero, fb := List.replicate 8 Cpx.zero, ref := [], prev := Cpx.zero, phase := 0, at_ := at_, syms := 0, soft := [] }

/-- A sum of products. -/
def dot (a b : List Cpx) : Cpx := (a.zip b).foldl (fun s p => s.add (p.1.mul p.2)) Cpx.zero

/-- The output for a window, with the feedback of the chips decided. -/
def DblEq.out (e : DblEq) (w : List Cpx) : Cpx := ((dot e.ff w).sub (dot e.fb e.ref)).format

/-- LMS: the taps move by the step sizes 2^−MU_FF and 2^−MU_FB times the error times the conjugate of what they weigh. -/
def DblEq.adapt (e : DblEq) (muFf muFb : Nat) (w ref : List Cpx) (err : Cpx) : DblEq :=
  let step := fun (mu : Nat) (x : Cpx) => (err.mul x.conj).scale (1 / 2 ^ mu)
  { e with
    ff := (e.ff.zip w).map fun p => (p.1.add (step muFf p.2)).format
    fb := (e.fb.zipIdx).map fun p => (p.1.sub (step muFb (ref.getD p.2 Cpx.zero))).format }

/-- A chip with a phase in quarter turns, as a complex value. -/
def chipOf (ph : Nat) (b : Bool) : Cpx :=
  match (ph + if b then 2 else 0) % 4 with
  | 0 => ⟨1, 0⟩
  | 1 => ⟨0, 1⟩
  | 2 => ⟨-1, 0⟩
  | _ => ⟨0, -1⟩

/-- The sampling point moves by half a chip toward the taps' energy centroid when it lies more than one tap from the centre tap. -/
def DblEq.slip (e : DblEq) : DblEq :=
  let all := e.ff.foldl (fun s w => s + w.energy) 0
  let off := e.ff.zipIdx.foldl (fun s p => s + ((p.2 : Rat) - 8) * p.1.energy) 0
  { e with at_ := if all < off then e.at_ + 61 else if off < -all then e.at_ + 63 else e.at_ + 62 }

/-- Train on one known symbol: chip by chip, each known chip at once its own reference. -/
def DblEq.train (e : DblEq) (d : DblDwell) (muFf muFb ph : Nat) : DblEq :=
  let r := beaconChips.zipIdx.foldl (fun (a : DblEq × Cpx) c =>
    let w := d.window (a.1.at_ + 2 * c.2)
    let y := a.1.out w
    let k := chipOf ph c.1
    let e1 := a.1.adapt muFf muFb w a.1.ref (k.sub y)
    ({ e1 with ref := (k :: a.1.ref).take 8 }, a.2.add (y.mul (chipOf 0 c.1)))) (e, Cpx.zero)
  ({ r.1 with prev := r.2, phase := ph } : DblEq).slip

/-- Phases of the preamble and the sync word (Table 13.1). -/
def knownPhases : List Nat := [0, 0, 2, 0, 0, 0, 0, 0, 0, 2, 2, 0, 0, 2, 0, 2, 0]

/-- A 4-bit soft value, positive for a 0. -/
def softOf (v energy : Rat) : Int :=
  let n : Int := (Config.softLevel v energy % 8 : Nat)
  if v < 0 then -1 - n else n

/-- One coded symbol: equalised and despread with the chips re-spread from the symbol before it as feedback, detected differentially;
its hard decision, re-spread into chips, then adapts the taps. -/
def DblEq.symbol (e : DblEq) (d : DblDwell) (muFf muFb : Nat) (quad : Bool) : DblEq :=
  let ws := (List.range 31).map fun c => d.window (e.at_ + 2 * c)
  let ys := ws.map e.out
  let z := (beaconChips.zip ys).foldl (fun s p => s.add (p.2.mul (chipOf 0 p.1))) Cpx.zero
  let v := z.mul e.prev.conj
  let energy := z.energy + e.prev.energy
  let soft := if quad then [softOf (v.re + v.im) energy, softOf (v.re - v.im) energy] else [softOf v.re energy]
  let turn := if quad then (if 0 ≤ v.re + v.im then (if 0 ≤ v.re - v.im then 0 else 1) else (if 0 ≤ v.re - v.im then 3 else 2))
    else if 0 ≤ v.re then 0 else 2
  let ph := (e.phase + turn) % 4
  let refs := beaconChips.map (chipOf ph)
  let e1 := (ws.zip (refs.zip ys)).foldl (fun (a : DblEq) p => a.adapt muFf muFb p.1 e.ref (p.2.1.sub p.2.2)) e
  ({ e1 with ref := refs.reverse.take 8, prev := z, phase := ph, syms := e.syms + 1, soft := e.soft ++ soft } : DblEq).slip

/-- Symbols whose samples have come, up to the end of the block that the header's PMOD, once known, describes. -/
def DblEq.run (e : DblEq) (d : DblDwell) (muFf muFb : Nat) (pmod : Option Bool) : Nat → DblEq
  | 0 => e
  | fuel + 1 =>
    let upTo := match pmod with
      | none => 44
      | some p => if p then 114 else 184
    if e.syms < upTo ∧ e.at_ + 69 ≤ d.count then
      (e.symbol d muFf muFb (decide (44 ≤ e.syms) && pmod == some true)).run d muFf muFb pmod fuel
    else e

/-! ### The Viterbi decoder (R266, 5) -/

/-- The better of two paths: metric, and bits newest first; of equal ones the first. -/
def betterPath : Option (Int × List Bool) → Option (Int × List Bool) → Option (Int × List Bool)
  | some a, some b => if a.1 < b.1 then some b else some a
  | some a, none => some a
  | none, b => b

/-- A soft value counted for a coded bit. -/
def softFor (bit : Bool) (v : Int) : Int := if bit then -v else v

/-- One input bit: the survivor of each of the 64 states. -/
def viterbiStep (ms : List (Option (Int × List Bool))) (a b : Int) : List (Option (Int × List Bool)) :=
  (List.range 64).map fun n =>
    let bit := decide (32 ≤ n)
    let ext := fun (st : Nat) => (ms.getD st none).map fun m =>
      let r := (if bit then 64 else 0) + st
      (m.1 + softFor (parity7 (Nat.land r 0x79)) a + softFor (parity7 (Nat.land r 0x5B)) b, bit :: m.2)
    betterPath (ext (2 * (n % 32))) (ext (2 * (n % 32) + 1))

/-- The decoder with a traceback of 42: a bit leaves with the best survivor 42 steps later; the block ends in state 0. -/
def viterbiRun (ms : List (Option (Int × List Bool))) : List Int → List Bool
  | a :: b :: t =>
    let m1 := viterbiStep ms a b
    match m1.foldl betterPath none with
    | some m => if 42 < m.2.length then m.2.getLastD false :: viterbiRun (m1.map (Option.map fun p => (p.1, p.2.dropLast))) t else viterbiRun m1 t
    | none => viterbiRun m1 t
  | _ => match ms.getD 0 none with
    | some m => m.2.reverse
    | none => []

/-- The first `n` bits of a decoded block, as a number. -/
def viterbi (n : Nat) (soft : List Int) : Nat :=
  ((viterbiRun (some (0, []) :: List.replicate 63 none) soft).take n).foldl (fun a b => 2 * a + if b then 1 else 0) 0

end Sys2Proof.Machine
end

