-- ==== Sys2Proof/Machine/FwdSend.lean ====
section
/-!
DEFINITION. What the forwarding service sends on a leg (R104, R108, R117, R121, R124, R139): RTP and RTCP packets, encrypted as they
leave.
-/

namespace Sys2Proof.Machine

/-- Frame bytes with FCS of a UDP payload of `n` bytes. -/
def udpFrame (v6 : Bool) (n : Nat) : Nat := max 64 (14 + (if v6 then 40 else 20) + 8 + n + 4)

/-- The encryption of an item of a leg or stream under a slot (R103): none without SRTP. -/
def State.guard (s : State) (prot slot kind : Nat) (stream seq n k : Nat) : Option CipItem :=
  if prot = 0 then none
  else some { slot := slot, kind := kind, dec := false, stream := stream, seq := seq, aad := 12, len := n, sash := s.fwdSash k, poison := false
              mismatches := 0, authOk := true, authHeld := false }

/-- Send a payload of `n` bytes on a leg (R139): over Jorras for KIND 2 (RTP as MEDIA, RTCP between the services), else to its egress
queue; a leg that a handover copied here sends nothing before its source has switched (R361); `sec` is the encryption it passes on its way out and `idx` the index entry it takes as it departs. -/
def State.legSend (s : State) (i : Nat) (l : Leg) (front : Bool) (n : Nat) (kind : String) (args : List Nat) (sec : Option CipItem)
    (idx : Option IdxEntry) : State :=
  let tag := match sec with
    | some it => s.cip.tagLen it.slot
    | none => 0
  if ((kvGet l.conf s.lnk.handIn).map fun x => x.begun.isNone).getD false then s
  else if l.kind = 2 then
    let r := match sec with
      | some it => s.cipher it
      | none => (s, true)
    if !r.2 then r.1
    else
      let s1 := r.1.departed i (n + tag) idx
      if kind = "rtp" then s1.jlMedia l.peer (args.headD 0) ((args.drop 1).map (BitVec.ofNat 8))
      else s1.jlSvc l.peer (.rtcp i (args.map (BitVec.ofNat 8)))
  else s.enqueue i l.eth l.cls front (udpFrame l.ipv6 (n + tag)) (.frame l.eth kind (i :: args)) sec idx

/-- Change a leg's counters. -/
def State.legCount (s : State) (i : Nat) (f : LegCnt → LegCnt) : State :=
  { s with fwd := { s.fwd with legs := kvMod i (fun (l : Leg) => { l with cnt := f l.cnt }) s.fwd.legs } }

/-- The slot that protects a leg's SRTCP, and whether it is SRTP: outbound that of its first outbound stream (R108); inbound that of
its first inbound stream, a leg having no slot of its own (DESIGN CHOICE, assumption 103). -/
def FwdSt.legSlot (f : FwdSt) (i : Nat) (out : Bool) : Nat × Nat :=
  if out then ((f.outs.find? fun o => o.2.leg = i).map fun o => (o.2.prot, o.2.slot)).getD (0, 0)
  else ((f.ins.find? fun o => o.2.leg = i).map fun o => (o.2.prot, o.2.slot)).getD (0, 0)

/-! ### RTCP packets (RFC 3550, RFC 4585, RFC 5104, RFC 8888) -/

/-- One RTCP packet: its count or FMT, its type and its body. -/
def rtcpBytes (rc pt : Nat) (body : List Byte) : List Byte := [BitVec.ofNat 8 (0x80 + rc), BitVec.ofNat 8 pt] ++ beBytes 2 (body.length / 4) ++ body

/-- Pad to a whole number of 32-bit words. -/
def padWord (b : List Byte) : List Byte := b ++ List.replicate (ceilDiv b.length 4 * 4 - b.length) 0

/-- An SDES packet with a CNAME. -/
def sdesBytes (ssrc : Nat) (cname : List Byte) : List Byte :=
  rtcpBytes 1 202 (beBytes 4 ssrc ++ padWord ([1, BitVec.ofNat 8 cname.length] ++ cname ++ [0]))

/-- The SSRC under which a leg reports: its first outbound stream's. -/
def FwdSt.reporter (f : FwdSt) (leg : Nat) : Nat :=
  ((f.outs.find? fun o => o.2.leg = leg).map (·.2.ssrc)).getD (Config.reporter leg % 2 ^ 32)

/-- Send an RTCP compound on a leg as SRTCP where its slot says so: nothing leaves a leg that is not ACTIVE (Table 6.4). -/
def State.rtcpSend (s : State) (i : Nat) (kind : String) (b : List Byte) : State :=
  match kvGet i s.fwd.legs with
  | some l =>
    if l.state ≠ 1 then s
    else
      let sl := s.fwd.legSlot i true
      s.legSend i l false b.length kind (b.map BitVec.toNat) (s.guard sl.1 sl.2 1 i 0 b.length (i % 8)) none
  | none => s

/-- Send a feedback packet (FMT, type, media SSRC, control information) on a leg. -/
def State.feedback (s : State) (leg : Nat) (kind : String) (fmt pt media : Nat) (fci : List Byte) : State :=
  s.rtcpSend leg kind (rtcpBytes fmt pt (beBytes 4 (s.fwd.reporter leg) ++ beBytes 4 media ++ fci))

/-- BYE for an SSRC (R108). -/
def State.sendBye (s : State) (leg ssrc : Nat) : State := s.rtcpSend leg "rtcp" (rtcpBytes 1 203 (beBytes 4 ssrc))

/-! ### Time for RTCP -/

/-- NTP seconds × 2^32 now: the counter with the UTC offset PTP announces (R108). -/
def Hub.ntpNow (h : Hub) : Nat :=
  let off := if h.get TIM.UTC.VALID = 1 then wrapDiff 16 0 (h.get TIM.UTC.OFFSET) else 0
  (((h.time.sec : Int) - off + 2208988800) * 2 ^ 32).toNat + h.time.ns * 2 ^ 32 / 1000000000

/-- The middle 32 bits of NTP time now. -/
def Hub.ntpMid (h : Hub) : Nat := h.ntpNow / 65536 % 2 ^ 32

end Sys2Proof.Machine
end

