-- ==== Sys2Proof/Machine/FwdSvc.lean ====
section
/-!
DEFINITION. The forwarding service's objects and commands (R98, R101, R111, R112, R124–R128): conferences, legs, streams,
subscriptions, their removal, and statistics.
-/

namespace Sys2Proof.Machine

/-! ### Conferences and legs -/

/-- CONF_CREATE (R98). -/
def execConfCreate (e : CmdEnv) (body : List Byte) (s : State) : Host.Outcome State Fault Refusal :=
  let c := bodyN body 0 2 % 4096
  .next (match kvGet c s.fwd.confs with
    | some x => s.done e 0x0101 (if x.gone then 6 else 2) []
    | none =>
      ({ s with fwd := { s.fwd with confs := kvPut c { cluster := bodyN body 4 4, fn := e.fn } s.fwd.confs } } : State).done e 0x0101 0 [])

/-- Legs of a conference that are not yet removed. -/
def FwdSt.confLegs (f : FwdSt) (c : Nat) : List Nat := (f.legs.filter fun l => l.2.conf = c).map (·.1)

/-- Does function `fn` reach a conference (R366)? -/
def Conf.reached (c : Conf) (fn : Nat) : Bool := fn == 0 || c.fn == fn

/-- Mark an outbound or inbound stream as being removed, with every subscription that names it (R126). -/
def State.markOut (s : State) (i : Nat) : State :=
  match kvGet i s.fwd.outs with
  | some o =>
    let s1 := s.sendBye o.leg o.ssrc
    { s1 with fwd := { (s1.fwd.setOut i { o with gone := true }) with
      subs := s1.fwd.subs.map fun u => if u.2.role = 0 ∧ u.2.out = i then (u.1, { u.2 with gone := true }) else u } }
  | none => s
def State.markIn (s : State) (i : Nat) : State :=
  match kvGet i s.fwd.ins with
  | some x => { s with fwd := { (s.fwd.setIn i { x with gone := true }) with
      subs := s.fwd.subs.map fun u => if u.2.src = i then (u.1, { u.2 with gone := true }) else u } }
  | none => s

/-- Empty a leg's egress queue. -/
def QscSt.flushLeg (q : QscSt) (l : Nat) : QscSt :=
  { q with queues := kvMod l (fun (x : EgrQueue) => { x with items := [] }) q.queues }

/-- A removed leg's beacon is cut without an event, its dwells end, and it is surveyed no more (R264, R268). -/
def State.dblLegGone (s : State) (i : Nat) : State :=
  let now := s.hub.elapsed
  let cut := fun (t : DblTx) => { (t.cut now s.hub.sampleNow) with stop := true }
  let tx := kvMod i cut s.dbl.tx
  let dw := s.dbl.dwells.filter fun e => e.2.leg ≠ i
  { s with
    hub := (s.hub.set DBL.STATUS.TX_LEGS tx.length).set DBL.STATUS.RX_ACTIVE dw.length
    dbl := { s.dbl with tx := tx, dwells := dw, survey := kvDel i s.dbl.survey } }

/-- A leg goes REMOVING (Table 6.4, R126): its streams and the subscriptions to it go with it, its queued copies are
discarded. -/
def State.markLeg (s : State) (i : Nat) : State :=
  match kvGet i s.fwd.legs with
  | some l =>
    let outs := (s.fwd.outs.filter fun o => o.2.leg = i ∧ !o.2.gone).map (·.1)
    let ins := (s.fwd.ins.filter fun o => o.2.leg = i ∧ !o.2.gone).map (·.1)
    let s1 : State := { (s.dblLegGone i) with qsc := s.qsc.flushLeg i }
    let s2 := ins.foldl State.markIn (outs.foldl State.markOut s1)
    { s2 with fwd := { (s2.fwd.setLeg i { l with state := 3 }) with
      subs := s2.fwd.subs.map fun u => if u.2.leg = i then (u.1, { u.2 with gone := true }) else u } }
  | none => s

/-- Start a removal. -/
def State.removal (s : State) (r : Removal) : State := { s with fwd := { s.fwd with removals := s.fwd.removals ++ [r] } }

/-- CONF_DESTROY (R126): the conference and all its legs; completed when all have drained. -/
def execConfDestroy (e : CmdEnv) (body : List Byte) (s : State) : Host.Outcome State Fault Refusal :=
  let c := bodyN body 0 2 % 4096
  .next (match kvGet c s.fwd.confs with
    | some x =>
      if !x.reached e.fn then s.done e 0x0102 5 []
      else if x.gone then s.done e 0x0102 6 []
      else
        let legs := (s.fwd.confLegs c).filter fun i => ((kvGet i s.fwd.legs).map (·.state)) ≠ some 3
        let s1 := legs.foldl (fun a i => (a.markLeg i).removal ⟨1, i, none⟩) s
        ({ s1 with fwd := { s1.fwd with confs := kvPut c { x with gone := true } s1.fwd.confs } } : State).removal ⟨0, c, some (e, 0x0102)⟩
    | none => s.done e 0x0102 3 [])

/-- A leg as the body of Table 6.9 describes it; counters and estimate to be set. -/
def legOf (b : List Byte) : Leg :=
  let kind := if bodyU8 b 4 ≤ 2 then bodyU8 b 4 else 0
  let n1 := min (bodyU8 b 0x38) 64
  let n2 := min (bodyU8 b 0x39) 64
  let n3 := min (bodyU8 b 0x3A) 64
  let n4 := min (bodyU8 b 0x3B) 64
  let str := fun (o n : Nat) => (b.drop o).take n
  let v6 := bodyU8 b 7 % 2 = 1
  let len := if v6 then 16 else 4
  { conf := bodyN b 2 2 % 4096, kind := kind, eth := bodyU8 b 5, cls := if bodyU8 b 6 ≤ 7 then bodyU8 b 6 else 0
    ipv6 := v6, rtxFlag := decide (bodyU8 b 7 / 2 % 2 = 1), laddr := (b.drop 8 ++ List.replicate 16 0).take len
    raddr := (b.drop 0x18 ++ List.replicate 16 0).take len, lport := bodyN b 0x28 2, rport := bodyN b 0x2A 2
    minK := bodyN b 0x2C 4, maxK := max (bodyN b 0x30 4) (bodyN b 0x2C 4), peer := bodyN b 0x34 2 % 2048
    lfrag := str 0x3C n1, lpwd := str (0x3C + n1) n2, rfrag := str (0x3C + n1 + n2) n3
    rpwd := str (0x3C + n1 + n2 + n3) n4, cname := str (0x3C + n1 + n2 + n3 + n4) (bodyU8 b 0x36)
    state := if kind = 0 then 0 else 1 }

/-- Set a leg's estimate within its bounds; the leg's rate limit is 1.25 times it (R117). -/
def State.setEst (s : State) (i : Nat) (l : Leg) (est : Nat) : State :=
  let v := min (max est l.minK) l.maxK
  { s with
    hub := s.hub.set1 QSC.LEG_RATE.KBPS i (v * 5 / 4)
    fwd := s.fwd.setLeg i { l with cnt := { l.cnt with est := v }, estAt := s.hub.elapsed } }

/-- A value of an interval the spec leaves open: a free value within it. -/
def Hub.freeIn (h : Hub) (lo hi : Nat) : Nat := lo + h.freeVal (hi - lo + 1)

/-- LEG_ADD (R98, Table 6.9). The first estimate is not stated: a free value within MIN_KBPS and MAX_KBPS. -/
def execLegAdd (e : CmdEnv) (body : List Byte) (s : State) : Host.Outcome State Fault Refusal :=
  let i := bodyN body 0 2
  let l := legOf body
  .next (if s.hub.legLimit ≤ i then s.done e 0x0103 1 []
    else if !s.hub.reachesLeg e.fn i then s.done e 0x0103 5 []
    else match kvGet l.conf s.fwd.confs, kvGet i s.fwd.legs with
      | none, _ => s.done e 0x0103 3 []
      | some c, some x => s.done e 0x0103 (if !c.reached e.fn then 5 else if c.gone ∨ x.state = 3 then 6 else 2) []
      | some c, none =>
        if !c.reached e.fn then s.done e 0x0103 5 []
        else if c.gone then s.done e 0x0103 6 []
        else (({ s with hub := s.hub.freeTick } : State).setEst i { l with maker := e.fn } (s.hub.freeIn l.minK l.maxK)).done e 0x0103 0 [])

/-- The effect of a LEG_MODIFY that was accepted: parameters are replaced; new ICE credentials of a KIND 0 leg return it
to CHECKING. -/
def State.legModify (s : State) (i : Nat) (old new : Leg) : State :=
  let fresh := old.lfrag ≠ new.lfrag ∨ old.lpwd ≠ new.lpwd ∨ old.rfrag ≠ new.rfrag ∨ old.rpwd ≠ new.rpwd
  let st := if new.kind ≠ 0 then 1 else if old.kind ≠ 0 ∨ fresh then 0 else old.state
  s.setEst i { new with
    state := st, maker := old.maker, cnt := old.cnt, pub := old.pub, ccfb := old.ccfb, txns := if fresh then [] else old.txns
    consentAt := old.consentAt, reqAt := old.reqAt, rtcpAt := old.rtcpAt, ccfbAt := old.ccfbAt, allocAt := old.allocAt
    rtcpReplay := old.rtcpReplay, departs := old.departs } old.cnt.est

/-- LEG_MODIFY (Table 6.8, R127). -/
def execLegModify (e : CmdEnv) (body : List Byte) (s : State) : Host.Outcome State Fault Refusal :=
  let i := bodyN body 0 2
  let l := legOf body
  .next (if s.hub.legLimit ≤ i then s.done e 0x0104 1 []
    else match kvGet i s.fwd.legs with
      | none => s.done e 0x0104 3 []
      | some x =>
        if !s.hub.reachesLeg e.fn i then s.done e 0x0104 5 []
        else if x.state = 3 then s.done e 0x0104 6 []
        else if x.conf ≠ l.conf then s.done e 0x0104 4 []
        else if e.latched then s.hold e 0x0104 (.legModify e body)
        else (s.legModify i x l).done e 0x0104 0 [])

/-- LEG_REMOVE (R126). -/
def execLegRemove (e : CmdEnv) (body : List Byte) (s : State) : Host.Outcome State Fault Refusal :=
  let i := bodyN body 0 2
  .next (if s.hub.legLimit ≤ i then s.done e 0x0105 1 []
    else match kvGet i s.fwd.legs with
      | none => s.done e 0x0105 3 []
      | some x =>
        if !s.hub.reachesLeg e.fn i then s.done e 0x0105 5 []
        else if x.state = 3 then s.done e 0x0105 6 []
        else (s.markLeg i).removal ⟨1, i, some (e, 0x0105)⟩)

/-! ### Streams -/

/-- An inbound stream as the body of Table 6.10 describes it. -/
def inOf (b : List Byte) : InStream :=
  { codec := if bodyU8 b 3 ≤ 6 then bodyU8 b 3 else 0, leg := bodyN b 4 2, base := bodyN b 6 2, ssrc := bodyN b 8 4
    rtxSsrc := bodyN b 0xC 4, fecSsrc := bodyN b 0x10 4, pt := bodyU8 b 0x14 % 128, rtxPt := bodyU8 b 0x15 % 128
    fecPt := bodyU8 b 0x16 % 128, prot := min (bodyU8 b 0x17) 1
    clock := if bodyN b 0x18 4 = 0 then 90000 else bodyN b 0x18 4, slot := bodyN b 0x1C 2
    ext := (List.range 14).map fun k => if bodyU8 b (0x20 + k) ≤ 6 then bodyU8 b (0x20 + k) else 0 }

/-- An outbound stream, with free values where its first sequence numbers and timestamp are not stated. -/
def outOf (b : List Byte) (seq ts rtx fec : Nat) : OutStream :=
  { leg := bodyN b 4 2, ssrc := bodyN b 8 4, rtxSsrc := bodyN b 0xC 4, fecSsrc := bodyN b 0x10 4, pt := bodyU8 b 0x14 % 128
    rtxPt := bodyU8 b 0x15 % 128, fecPt := bodyU8 b 0x16 % 128, prot := min (bodyU8 b 0x17) 1
    clock := if bodyN b 0x18 4 = 0 then 90000 else bodyN b 0x18 4, slot := bodyN b 0x1C 2
    codec := if bodyU8 b 3 ≤ 6 then bodyU8 b 3 else 0
    fecL := min (bodyU8 b 0x1E) 32, fecD := min (bodyU8 b 0x1F) 32
    ext := (List.range 14).map fun k => if bodyU8 b (0x20 + k) ≤ 6 then bodyU8 b (0x20 + k) else 0
    seqOff := seq % 65536, tsOff := ts % 2 ^ 32, rtxSeq := rtx % 65536, fecSeq := fec % 65536 }

/-- Why a STREAM_ADD is refused, if it is: the leg, the ID in its own name space, the simulcast base, the key slot. -/
def State.streamRefused (s : State) (e : CmdEnv) (b : List Byte) : Option Nat :=
  let i := bodyN b 0 2
  let base := bodyN b 6 2
  let out := bodyU8 b 2 = 1
  let leg := bodyN b 4 2
  let taken : Option Bool := if out then (kvGet i s.fwd.outs).map (·.gone) else (kvGet i s.fwd.ins).map (·.gone)
  let baseLeg : Option Nat := if out then (kvGet base s.fwd.outs).map (·.leg) else (kvGet base s.fwd.ins).map (·.leg)
  if s.hub.legLimit ≤ leg then some 1
  else match kvGet leg s.fwd.legs with
    | none => some 3
    | some l =>
      if !s.hub.reachesLeg e.fn leg ∨ (0 < bodyU8 b 0x17 ∧ !s.hub.reachesSlot e.fn (bodyN b 0x1C 2)) then some 5
      else if l.state = 3 then some 6
      else match taken with
        | some g => some (if g then 6 else 2)
        | none => if i < base ∨ 7 < i - base ∨ (i ≠ base ∧ baseLeg ≠ some leg) then some 4 else none

/-- STREAM_ADD (R98, Table 6.10). -/
def execStreamAdd (e : CmdEnv) (body : List Byte) (s : State) : Host.Outcome State Fault Refusal :=
  let i := bodyN body 0 2
  .next (match s.streamRefused e body with
    | some st => s.done e 0x0106 st []
    | none =>
      let s1 : State := if bodyU8 body 2 = 1 then
          { s with
            hub := s.hub.freeTick.freeTick.freeTick.freeTick
            fwd := s.fwd.setOut i (outOf body (s.hub.freeVal 65536) (s.hub.freeTick.freeVal (2 ^ 32)) (s.hub.freeTick.freeTick.freeVal 65536)
              (s.hub.freeTick.freeTick.freeTick.freeVal 65536)) }
        else { s with fwd := s.fwd.setIn i (inOf body) }
      s1.done e 0x0106 0 [])

/-- STREAM_DEL (R126). -/
def execStreamDel (e : CmdEnv) (body : List Byte) (s : State) : Host.Outcome State Fault Refusal :=
  let i := bodyN body 0 2
  .next (if bodyU8 body 2 = 1 then
      match kvGet i s.fwd.outs with
      | none => s.done e 0x0107 3 []
      | some o =>
        if !s.hub.reachesLeg e.fn o.leg then s.done e 0x0107 5 []
        else if o.gone then s.done e 0x0107 6 []
        else (s.markOut i).removal ⟨3, i, some (e, 0x0107)⟩
    else
      match kvGet i s.fwd.ins with
      | none => s.done e 0x0107 3 []
      | some o =>
        if !s.hub.reachesLeg e.fn o.leg then s.done e 0x0107 5 []
        else if o.gone then s.done e 0x0107 6 []
        else (s.markIn i).removal ⟨2, i, some (e, 0x0107)⟩)

/-! ### Subscriptions -/

/-- A subscription as the body describes it, before its policy binds. -/
def subOf (f : FwdSt) (b : List Byte) : Sub :=
  let src := bodyN b 8 2
  { leg := bodyN b 4 2 % 16384, out := bodyN b 6 2, src := src, base := ((kvGet src f.ins).map (·.base)).getD src
    role := if bodyU8 b 10 ≤ 3 then bodyU8 b 10 else 0, pane := min (bodyU8 b 11) 63, mode := 2, maxS := 0, maxT := 0
    prio := bodyU8 b 13, dest := bodyN b 0x12 2, cap := bodyN b 0x14 4
    tag := ((b.drop 0x18) ++ List.replicate 8 0).take 8 }

/-- Does function `fn` reach the sash or queue pair that a role's DEST names (R125)? -/
def Hub.reachesDest (h : Hub) (fn role dest : Nat) : Bool :=
  match role with
  | 1 => h.reachesSash fn (dest % 1024)
  | 3 => h.reachesQp fn (dest % 1024)
  | _ => true

/-- Why a subscription's references are refused, if they are (R98, R125). -/
def State.subRefused (s : State) (e : CmdEnv) (u : Sub) : Option Nat :=
  match kvGet u.leg s.fwd.legs, kvGet u.src s.fwd.ins with
  | some l, some x =>
    let srcConf := (kvGet x.leg s.fwd.legs).map (·.conf)
    if !s.hub.reachesLeg e.fn u.leg ∨ !s.hub.reachesLeg e.fn x.leg ∨ !s.hub.reachesDest e.fn u.role u.dest then some 5
    else if l.state = 3 ∨ x.gone then some 6
    else if u.role = 0 then
      match kvGet u.out s.fwd.outs with
      | none => some 3
      | some o => if o.gone then some 6 else if o.leg ≠ u.leg ∨ srcConf ≠ some l.conf then some 4 else none
    else none
  | _, _ => some 3

/-- Append a subscription to its chain, bind its policy and allocate its leg's layers (R101, R118, Table 6.7). -/
def State.subAdd (s : State) (i : Nat) (u : Sub) (pol : Nat) : State :=
  let c := s.fwd.chainOf u.chain
  let s1 : State := { s with fwd := { (s.fwd.setSub i u) with chains := kvPut u.chain (c ++ [i]) s.fwd.chains } }
  let s2 := (s1.cacheIn i).bindPolicy i u (policyOf pol) true
  (match c.getLast? with
  | some j => s2.subStore j
  | none => s2).allocate u.leg

/-- SUB_ADD (R98, R101, R127). -/
def execSubAdd (e : CmdEnv) (body : List Byte) (s : State) : Host.Outcome State Fault Refusal :=
  let i := bodyN body 0 4
  let u := subOf s.fwd body
  .next (if s.hub.subLimit ≤ i ∨ s.hub.legLimit ≤ u.leg then s.done e 0x0108 1 []
    else match s.fwd.sub? i, s.subRefused e u with
      | some x, _ => s.done e 0x0108 (if x.gone then 6 else 2) []
      | none, some st => s.done e 0x0108 st []
      | none, none =>
        if e.latched then s.hold e 0x0108 (.subAdd e body)
        else (s.subAdd i u (bodyU8 body 12)).done e 0x0108 0 [])

/-- The effect of an accepted SUB_MODIFY: MODE and caps bind at the source's next packet (R112). -/
def State.subModify (s : State) (i : Nat) (x u : Sub) (pol : Nat) : State :=
  (s.putSub i { x with pane := u.pane, prio := u.prio, dest := u.dest, cap := u.cap, tag := u.tag, next := some (policyOf pol) }).allocate x.leg

/-- SUB_MODIFY (Table 6.8, R127): LEG, OUT, SRC and ROLE may not change. -/
def execSubModify (e : CmdEnv) (body : List Byte) (s : State) : Host.Outcome State Fault Refusal :=
  let i := bodyN body 0 4
  let u := subOf s.fwd body
  .next (if s.hub.subLimit ≤ i then s.done e 0x0109 1 []
    else match s.fwd.sub? i with
      | none => s.done e 0x0109 3 []
      | some x =>
        if !s.hub.reachesLeg e.fn x.leg ∨ !s.hub.reachesDest e.fn u.role u.dest then s.done e 0x0109 5 []
        else if x.gone then s.done e 0x0109 6 []
        else if x.leg ≠ u.leg ∨ x.out ≠ u.out ∨ x.src ≠ u.src ∨ x.role ≠ u.role then s.done e 0x0109 4 []
        else if e.latched then s.hold e 0x0109 (.subModify e body)
        else (s.subModify i x u (bodyU8 body 12)).done e 0x0109 0 [])

/-- A subscription is being removed; its leg's layers are allocated anew (R118, R126). -/
def State.subGone (s : State) (i : Nat) (x : Sub) : State := (s.putSub i { x with gone := true }).allocate x.leg

/-- SUB_DEL (R126, R127). -/
def execSubDel (e : CmdEnv) (body : List Byte) (s : State) : Host.Outcome State Fault Refusal :=
  let i := bodyN body 0 4
  .next (if s.hub.subLimit ≤ i then s.done e 0x010A 1 []
    else match s.fwd.sub? i with
      | none => s.done e 0x010A 3 []
      | some x =>
        if !s.hub.reachesLeg e.fn x.leg then s.done e 0x010A 5 []
        else if x.gone then s.done e 0x010A 6 []
        else if e.latched then s.hold e 0x010A (.subDel e body)
        else (s.subGone i x).removal ⟨4, i, some (e, 0x010A)⟩)

/-! ### Removal (R126) -/

/-- Take a subscription out of its chain and of the table. -/
def State.dropSub (s : State) (i : Nat) : State :=
  match kvGet i s.fwd.subs with
  | some u =>
    let n := ((s.fwd.chains.find? fun c => c.2.contains i).map (·.1)).getD u.chain
    let c := (s.fwd.chainOf n).filter (· ≠ i)
    let s1 : State := { s with fwd := { s.fwd with
      subs := kvDel i s.fwd.subs
      uncached := s.fwd.uncached.filter (· ≠ i)
      chains := if c = [] then kvDel n s.fwd.chains else kvPut n c s.fwd.chains } }
    c.foldl State.subStore (s1.subStore i)
  | none => s

/-- Subscriptions marked for removal that a test selects. -/
def FwdSt.goneSubs (f : FwdSt) (p : Sub → Bool) : List Nat := (f.subs.filter fun u => u.2.gone ∧ p u.2).map (·.1)

/-- Remove an object that can no longer be reached. -/
def State.dropObject (s : State) (kind id : Nat) : State :=
  match kind with
  | 1 =>
    let s1 := (s.fwd.goneSubs fun u => u.leg = id ∨ ((kvGet u.src s.fwd.ins).map (·.leg)) = some id).foldl State.dropSub s
    { s1 with
      hub := { (s1.hub.set1 QSC.LEG_RATE.KBPS id 0) with orphans := s1.hub.orphans.filter (· ≠ id) }
      qsc := { s1.qsc with queues := kvDel id s1.qsc.queues }
      fwd := { s1.fwd with
        legs := kvDel id s1.fwd.legs
        ins := kvFilter (fun _ x => x.leg != id) s1.fwd.ins
        outs := kvFilter (fun _ x => x.leg != id) s1.fwd.outs } }
  | 2 =>
    let s1 := (s.fwd.goneSubs fun u => u.src = id).foldl State.dropSub s
    { s1 with fwd := { s1.fwd with ins := kvDel id s1.fwd.ins } }
  | 3 =>
    let s1 := (s.fwd.goneSubs fun u => u.role = 0 ∧ u.out = id).foldl State.dropSub s
    { s1 with fwd := { s1.fwd with outs := kvDel id s1.fwd.outs } }
  | 4 => s.dropSub id
  | _ => { s with fwd := { s.fwd with confs := kvDel id s.fwd.confs } }

/-- Post a removal's completion. -/
def State.removed (s : State) (r : Removal) : State :=
  let s1 := s.dropObject r.kind r.id
  match r.env with
  | some (e, op) => s1.done e op 0 []
  | none => s1

/-- REMOVAL_DRAIN_DONE (R126): the object can no longer be reached; a conference follows once it has no leg. -/
def execRemovalDrainDone (kind id : Nat) (s : State) : Host.Outcome State Fault Refusal :=
  .next (match s.fwd.removals.find? (fun r => r.kind = kind ∧ r.id = id) with
    | some r =>
      if kind = 0 ∧ s.fwd.confLegs id ≠ [] then s
      else ({ s with fwd := { s.fwd with removals := s.fwd.removals.filter fun x => x.kind ≠ kind ∨ x.id ≠ id } } : State).removed r
    | none => s)

/-! ### Statistics, requests, keys -/

/-- LEG_STATS (Table 6.11): the record of the last publication. -/
def execLegStats (e : CmdEnv) (body : List Byte) (s : State) : Host.Outcome State Fault Refusal :=
  let i := bodyN body 0 2
  .next (if s.hub.legLimit ≤ i then s.done e 0x010B 1 []
    else match kvGet i s.fwd.legs with
      | none => s.done e 0x010B 3 []
      | some l =>
        if !s.hub.reachesLeg e.fn i then s.done e 0x010B 5 []
        else if l.state = 3 then s.done e 0x010B 6 []
        else
          let g := s.hub.get64 LCH.PUB_GEN_LO.GEN 0
          let c := l.pub
          s.done e 0x010B 0 (leBytes 8 (g + g % 2) ++ leBytes 8 c.inPkts ++ leBytes 8 c.inBytes ++ leBytes 8 c.outPkts ++
            leBytes 8 c.outBytes ++ leBytes 4 c.est ++ leBytes 4 c.rtt ++ leBytes 4 c.loss ++ leBytes 1 l.state ++
            leBytes 3 0 ++ leBytes 8 c.rtx))

/-- A leg's outbound loss over the last second, in parts per million: the mean of the last reports on its outbound streams (R107,
Table 6.11; assumption 106). -/
def FwdSt.legLoss (f : FwdSt) (leg now : Nat) : Nat :=
  let rs := (f.outs.filter fun o => o.2.leg = leg).filterMap fun o => o.2.report.filter fun r => now < r.1 + 1000000000
  if rs = [] then 0 else rs.foldl (fun a r => a + r.2) 0 * 1000000 / (256 * rs.length)

/-- At a publication every leg's record is taken (R89). -/
def FwdSt.publish (f : FwdSt) (now : Nat) : FwdSt :=
  { f with legs := f.legs.map fun l => (l.1, { l.2 with cnt := { l.2.cnt with loss := f.legLoss l.1 now }
                                                        pub := { l.2.cnt with loss := f.legLoss l.1 now } }) }

/-- KEY_REQ (R124). -/
def execKeyReq (e : CmdEnv) (body : List Byte) (s : State) : Host.Outcome State Fault Refusal :=
  let i := bodyN body 0 2
  .next (match kvGet i s.fwd.ins with
    | none => s.done e 0x010C 3 []
    | some x =>
      if !s.hub.reachesLeg e.fn x.leg then s.done e 0x010C 5 []
      else if x.gone then s.done e 0x010C 6 []
      else (s.keyRequest i).done e 0x010C 0 [])

/-- SVC_PARAM (R128). -/
def execSvcParam (e : CmdEnv) (body : List Byte) (s : State) : Host.Outcome State Fault Refusal :=
  .next (({ s with fwd := s.fwd.setKey (bodyN body 0 2) (bodyN body 4 4) } : State).done e 0x010D 0 [])

/-- A held forwarding change comes into force at its Latch (R127): without its object it is discarded and
`FWD_STALE_CHANGE` is raised. -/
def State.fwdChange (s : State) (i : Instr) : State :=
  let stale := fun (op id : Nat) =>
    { s with hub := s.hub.raise { code := 0x0607, sash := s.fwdSash 0, detail := [op, id] } }
  match i with
  | .legModify _ b =>
    match kvGet (bodyN b 0 2) s.fwd.legs with
    | some x => if x.state = 3 then stale 0x8104 (bodyN b 0 2) else s.legModify (bodyN b 0 2) x (legOf b)
    | none => stale 0x8104 (bodyN b 0 2)
  | .subAdd e b =>
    let u := subOf s.fwd b
    if (s.fwd.sub? (bodyN b 0 4)).isSome ∨ (s.subRefused { e with fn := 0 } u).isSome then stale 0x8108 (bodyN b 0 4)
    else s.subAdd (bodyN b 0 4) u (bodyU8 b 12)
  | .subModify _ b =>
    match s.fwd.sub? (bodyN b 0 4) with
    | some x => if x.gone then stale 0x8109 (bodyN b 0 4) else s.subModify (bodyN b 0 4) x (subOf s.fwd b) (bodyU8 b 12)
    | none => stale 0x8109 (bodyN b 0 4)
  | .subDel _ b =>
    match s.fwd.sub? (bodyN b 0 4) with
    | some x => if x.gone then stale 0x810A (bodyN b 0 4)
      else (s.subGone (bodyN b 0 4) x).removal ⟨4, bodyN b 0 4, none⟩
    | none => stale 0x810A (bodyN b 0 4)
  | _ => s

end Sys2Proof.Machine
end

