-- ==== Sys2Proof/Machine/FwdPkt.lean ====
section
/-!
DEFINITION. The forwarding slices' packet path (R99–R123): classification, STUN, RTCP, layers, switching, rewriting,
retransmission and FEC, and the service's timers.
-/

namespace Sys2Proof.Machine

/-! ### RTP packets -/

/-- An RTP packet: header fields, its extension elements by ID with whether they are two-byte ones, and its payload. -/
structure Rtp where
  m : Bool
  pt : Nat
  seq : Nat
  ts : Nat
  ssrc : Nat
  csrc : List Byte
  twoByte : Bool
  ext : List (Nat × List Byte)
  payload : List Byte
  deriving DecidableEq, Repr

/-- One-byte extension elements (RFC 8285). -/
def extOne : Nat → List Byte → List (Nat × List Byte)
  | 0, _ => []
  | _, [] => []
  | n + 1, b :: t =>
    if b = 0 then extOne n t
    else if b.toNat / 16 = 15 then []
    else (b.toNat / 16, t.take (b.toNat % 16 + 1)) :: extOne n (t.drop (b.toNat % 16 + 1))

/-- Two-byte extension elements (RFC 8285). -/
def extTwo : Nat → List Byte → List (Nat × List Byte)
  | 0, _ => []
  | n + 1, b :: c :: t => if b = 0 then extTwo n (c :: t) else (b.toNat, t.take c.toNat) :: extTwo n (t.drop c.toNat)
  | _, _ => []

/-- Parse an RTP packet. -/
def parseRtp (b : List Byte) : Option Rtp :=
  let cc := bodyU8 b 0 % 16
  let x := bodyU8 b 0 / 16 % 2
  let o := 12 + 4 * cc
  let prof := beNat ((b.drop o).take 2)
  let n := if x = 1 then 4 * beNat ((b.drop (o + 2)).take 2) else 0
  let e := (b.drop (o + 4)).take n
  if b.length < o + (if x = 1 then 4 + n else 0) then none
  else some
    { m := decide (128 ≤ bodyU8 b 1), pt := bodyU8 b 1 % 128, seq := beNat ((b.drop 2).take 2), ts := beNat ((b.drop 4).take 4)
      ssrc := beNat ((b.drop 8).take 4), csrc := (b.drop 12).take (4 * cc)
      twoByte := decide (x = 1 ∧ prof / 16 = 0x100)
      ext := if x = 0 then [] else if prof = 0xBEDE then extOne n e else if prof / 16 = 0x100 then extTwo n e else []
      payload := b.drop (o + (if x = 1 then 4 + n else 0)) }

/-- The kind of an inbound element: two-byte extensions carry only kinds 1 and 6 (R116). -/
def extKind (map : List Nat) (two : Bool) (id : Nat) : Nat :=
  let k := if id = 0 then 0 else map.getD (id - 1) 0
  if two ∧ k ≠ 1 ∧ k ≠ 6 then 0 else k

/-- The elements of an outbound copy: the receiving leg's IDs in ascending order, the k-th ID of a kind with the k-th element of that
kind (R116; assumption 104). -/
def extOut (inMap outMap : List Nat) (p : Rtp) : List (Nat × List Byte) :=
  (List.range 14).filterMap fun k =>
    let kind := outMap.getD k 0
    let before := ((outMap.take k).filter (· = kind)).length
    if kind = 0 then none
    else ((p.ext.filter fun e => extKind inMap p.twoByte e.1 = kind ∧ 1 ≤ e.2.length ∧ e.2.length ≤ 16)[before]?).map fun e => (k + 1, e.2)

/-- The bytes of one-byte extension elements, with their header. -/
def extBytes (l : List (Nat × List Byte)) : List Byte :=
  let e := l.flatMap fun x => BitVec.ofNat 8 (x.1 * 16 + (x.2.length - 1)) :: x.2
  if l = [] then []
  else beBytes 2 0xBEDE ++ beBytes 2 (ceilDiv e.length 4) ++ e ++ List.replicate (ceilDiv e.length 4 * 4 - e.length) 0

/-- The bytes of an RTP packet with one-byte extensions. -/
def Rtp.bytes (p : Rtp) : List Byte :=
  [BitVec.ofNat 8 (0x80 + (if p.ext = [] then 0 else 16) + p.csrc.length / 4), BitVec.ofNat 8 ((if p.m then 128 else 0) + p.pt)] ++
    beBytes 2 p.seq ++ beBytes 4 p.ts ++ beBytes 4 p.ssrc ++ p.csrc ++ extBytes p.ext ++ p.payload

/-! ### Exception queue (R102) -/

/-- Send a frame to the exception queue with its prefix, over the path of the port's forwarding sash. -/
def State.exception (s : State) (reason leg k : Nat) (f : RxFrame) : State :=
  let qp := s.hub.get FWD.CFG.EXC_QP
  let path := match s.portSash f.port with
    | some n => s.fab.hasPath n (mkRef 8 k) (mkRef 16 (qp / 8))
    | none => false
  { s with hub := s.hub.qpDeliver qp path (leBytes 2 reason ++ leBytes 2 leg ++ leBytes 1 f.port ++ leBytes 3 0 ++ f.bytes) }

/-- Count a malformed frame. -/
def State.parseBad (s : State) (k : Nat) : State := { s with hub := s.hub.err FWD.PARSE_BAD.COUNT k 0x0608 0 }

/-! ### STUN (R104–R106) -/

/-- Attributes of a STUN message: none where they do not fit its length. -/
def stunAttrs : Nat → List Byte → Option (List (Nat × List Byte))
  | _, [] => some []
  | 0, _ => none
  | n + 1, b =>
    let ty := beNat (b.take 2)
    let len := beNat ((b.drop 2).take 2)
    if b.length < 4 + len then none
    else (stunAttrs n (b.drop (4 + ceilDiv len 4 * 4))).map fun t => (ty, (b.drop 4).take len) :: t

/-- Is an attribute type one the agent knows (RFC 8489, RFC 8445)? -/
def stunKnown (ty : Nat) : Bool :=
  decide (0x8000 ≤ ty) || [0x0001, 0x0006, 0x0008, 0x0009, 0x000A, 0x0014, 0x0015, 0x0020, 0x0024, 0x0025].contains ty

/-- Send a STUN response from where the request came to its source: class and code, transaction, XOR-MAPPED-ADDRESS. -/
def State.stunAnswer (s : State) (i : Nat) (l : Leg) (f : RxFrame) (code : Nat) (unknown : List Nat) : State :=
  let txn := beNat ((f.payload.drop 8).take 12)
  s.enqueue i l.eth l.cls false (udpFrame f.ipv6 (20 + 24 + 24 + 8)) (.frame l.eth "stun-response"
    ([i, code, txn, f.sport, beNat f.src] ++ unknown))

/-- A leg moves to ACTIVE where it was CHECKING (Table 6.4); consent then runs from now. -/
def Leg.activate (l : Leg) (now : Nat) : Leg := if l.state = 0 then { l with state := 1, consentAt := now } else l

/-- USE-CANDIDATE from another address makes it the leg's remote address, and the consent timeout restarts (R105). -/
def State.remoteMoved (s : State) (i : Nat) (l : Leg) (f : RxFrame) : State :=
  let addr := if f.ipv6 then f.src else f.src.take 4
  if addr = l.raddr ∧ f.sport = l.rport then s
  else
    let tail := if f.ipv6 then (f.src.drop 4).take 12 else f.src.take 4 ++ List.replicate 8 0
    let raw := leBytes 2 i ++ beBytes 2 f.sport ++ tail
    { s with
      hub := s.hub.raise { code := 0x0602, sash := s.fwdSash (i % 8), detail := (List.range 4).map fun k => leNat ((raw.drop (4 * k)).take 4) }
      fwd := s.fwd.setLeg i { l with raddr := addr, rport := f.sport, consentAt := s.hub.elapsed } }

/-- A STUN message on leg `i` (R104): a request is answered with success or an error; a response to a consent request
counts toward consent (R106); anything else goes to the exception queue. The spec names no answer to a wrong FINGERPRINT: the model
answers 400 (DESIGN CHOICE, assumption 105). -/
def State.stun (s : State) (i : Nat) (f : RxFrame) : State :=
  match kvGet i s.fwd.legs with
  | none => s
  | some l =>
    let ty := beNat (f.payload.take 2)
    let attrs := if beNat ((f.payload.drop 4).take 4) = 0x2112A442 then stunAttrs f.payload.length (f.payload.drop 20) else none
    let has := fun (a : List (Nat × List Byte)) (t : Nat) => a.any (·.1 = t)
    if ty = 0x0001 then
      match attrs with
      | none => s.stunAnswer i l f 400 []
      | some a =>
        let user := ((a.find? (·.1 = 0x0006)).map (·.2)).getD []
        if !has a 0x0006 ∨ !has a 0x0008 ∨ (has a 0x8028 ∧ !f.fpOk) then s.stunAnswer i l f 400 []
        else if user ≠ l.lfrag ++ [0x3A] ++ l.rfrag ∨ !f.authOk then
          ({ s with hub := (s.hub.err FWD.STUN_BAD.COUNT (i % 8) 0x0608 0).raiseRl { code := 0x0603, sash := s.fwdSash (i % 8), detail := [i] } } : State).stunAnswer i l f 401 []
        else if a.any (fun x => !stunKnown x.1) then s.stunAnswer i l f 420 ((a.filter fun x => !stunKnown x.1).map (·.1))
        else if has a 0x8029 then s.stunAnswer i l f 487 []
        else if has a 0x0025 then
          let s1 := s.remoteMoved i l f
          let s2 : State := { s1 with fwd := { s1.fwd with legs := kvMod i (·.activate s.hub.elapsed) s1.fwd.legs } }
          s2.stunAnswer i l f 200 []
        else s.stunAnswer i l f 200 []
    else if ty = 0x0101 ∧ f.authOk ∧ attrs.isSome ∧ beNat ((f.payload.drop 8).take 12) ∈ l.txns then
      { s with fwd := s.fwd.setLeg i { (l.activate s.hub.elapsed) with txns := [], consentAt := s.hub.elapsed } }
    else s.exception 5 i (i % 8) f

/-- CONSENT_REQUEST_TIMER (R106): an ACTIVE leg of KIND 0 sends a binding request, at least 0.8 × CONSENT_INTERVAL after the last; its
transaction ID is not stated, a free value. -/
def execConsentRequestTimer (leg : Nat) (s : State) : Host.Outcome State Fault Refusal :=
  .next (match kvGet leg s.fwd.legs with
    | some l =>
      if l.state = 1 ∧ l.kind = 0 ∧ pastMs s.hub.elapsed l.reqAt (s.fwd.key 1) 8 then
        let txn := s.hub.freeVal (2 ^ 96)
        ({ s with
          hub := s.hub.freeTick
          fwd := s.fwd.setLeg leg { l with txns := l.txns ++ [txn], reqAt := some s.hub.elapsed } } : State).legSend leg l false 100
            "stun-request" [txn] none none
      else s
    | none => s)

/-- CONSENT_TIMEOUT (Table 6.4): an ACTIVE leg of KIND 0 without a valid response for CONSENT_TIMEOUT loses consent; its queue is
flushed. -/
def execConsentTimeout (leg : Nat) (s : State) : Host.Outcome State Fault Refusal :=
  .next (match kvGet leg s.fwd.legs with
    | some l =>
      if l.state = 1 ∧ l.kind = 0 ∧ l.consentAt + 1000000 * s.fwd.key 2 ≤ s.hub.elapsed then
        { s with
          hub := s.hub.raise { code := 0x0601, sash := s.fwdSash (leg % 8), detail := [leg] }
          fwd := s.fwd.setLeg leg { l with state := 2, txns := [] }
          qsc := s.qsc.flushLeg leg }
      else s
    | none => s)

/-! ### Estimates and RTCP (R107, R117) -/

/-- Growth by 1.05 for `n` whole seconds, rounded down. -/
def grow (est : Nat) : Nat → Nat
  | 0 => est
  | n + 1 => grow (est * 105 / 100) n

/-- The estimate after a report with a loss fraction in 1/256 (R117): between whole seconds the growth lies within two
stated values, where a free value stands. -/
def State.rrEstimate (s : State) (i : Nat) (l : Leg) (loss : Nat) : State :=
  if l.ccfb then s
  else if 256 < 10 * loss then s.setEst i l (l.cnt.est * (512 - loss) / 512)
  else if 100 * loss < 2 * 256 then
    let dt := s.hub.elapsed - l.estAt
    let lo := grow l.cnt.est (dt / 1000000000)
    let hi := if dt % 1000000000 = 0 then lo else grow l.cnt.est (dt / 1000000000 + 1)
    ({ s with hub := s.hub.freeTick } : State).setEst i l (s.hub.freeIn lo hi)
  else s

/-- The round-trip time in µs that a report's LSR and DLSR give when it arrives at `mid` (RFC 3550). -/
def rttOf (mid lsr dlsr : Nat) : Nat := (wrapDiff 32 ((lsr + dlsr) % 2 ^ 32) mid).toNat * 1000000 / 65536

/-- A leg's smoothed round-trip time after a sample: the first sample itself, then a value between the last one and the sample, since
the smoothing is not stated. -/
def Hub.smoothRtt (h : Hub) (old sample : Nat) : Nat := if old = 0 then sample else h.freeIn (min old sample) (max old sample)

/-- A report block on one of the leg's outbound streams (R107): its loss, and the round-trip time. -/
def State.reportBlock (s : State) (i : Nat) (b : List Byte) : State :=
  let lsr := beNat ((b.drop 16).take 4)
  let rtt := rttOf s.hub.ntpMid lsr (beNat ((b.drop 20).take 4))
  match kvGet i s.fwd.legs, s.fwd.outs.find? fun o => o.2.leg = i ∧ o.2.ssrc = beNat (b.take 4) with
  | some l, some (o, x) =>
    let l1 : Leg := { l with cnt := { l.cnt with rtt := if lsr = 0 then l.cnt.rtt else s.hub.smoothRtt l.cnt.rtt rtt } }
    let s1 : State := { s with
      hub := if lsr = 0 then s.hub else s.hub.freeTick
      fwd := (s.fwd.setLeg i l1).setOut o { x with report := some (s.hub.elapsed, bodyU8 b 4) } }
    { s1 with fwd := s1.fwd.setLeg i { l1 with cnt := { l1.cnt with loss := s1.fwd.legLoss i s.hub.elapsed } } }
  | _, _ => s

/-- The loss fractions of a report's blocks that name outbound streams of the leg. -/
def FwdSt.blockLoss (f : FwdSt) (i : Nat) : Nat → List Byte → List Nat
  | 0, _ => []
  | n + 1, b =>
    (if f.outs.any (fun o => o.2.leg = i ∧ o.2.ssrc = beNat (b.take 4)) then [bodyU8 b 4] else []) ++ f.blockLoss i n (b.drop 24)

/-- Several report blocks. -/
def State.blocksIn (s : State) (i : Nat) : Nat → List Byte → State
  | 0, _ => s
  | n + 1, b => (s.reportBlock i (b.take 24)).blocksIn i n (b.drop 24)

/-- A report: its blocks, then the estimate by the mean of their losses (R117; assumption 106). -/
def State.reportBlocks (s : State) (i n : Nat) (b : List Byte) : State :=
  let l := s.fwd.blockLoss i n b
  let s1 := s.blocksIn i n b
  match kvGet i s1.fwd.legs with
  | some x => if l = [] then s1 else s1.rrEstimate i x (l.foldl (· + ·) 0 / l.length)
  | none => s1

/-- The inbound streams of a leg with an SSRC. -/
def FwdSt.inBySsrc (f : FwdSt) (leg ssrc : Nat) : List Nat :=
  (f.ins.filter fun x => x.2.leg = leg ∧ x.2.ssrc = ssrc ∧ !x.2.gone).map (·.1)

/-- The outbound streams of a leg with an SSRC. -/
def FwdSt.outBySsrc (f : FwdSt) (leg ssrc : Nat) : List Nat :=
  (f.outs.filter fun x => x.2.leg = leg ∧ x.2.ssrc = ssrc ∧ !x.2.gone).map (·.1)

/-- Change the inbound streams of a leg with an SSRC. -/
def FwdSt.modIns (f : FwdSt) (leg ssrc : Nat) (g : InStream → InStream) : FwdSt :=
  { f with ins := (f.inBySsrc leg ssrc).foldl (fun m i => kvMod i g m) f.ins }

/-- Record a sender's mapping and its arrival (R107). -/
def State.srMapping (s : State) (leg : Nat) (b : List Byte) : State :=
  { s with fwd := s.fwd.modIns leg (beNat ((b.drop 4).take 4)) fun x =>
      { x with sr := some (beNat ((b.drop 8).take 8), beNat ((b.drop 16).take 4)), srAt := s.hub.elapsed } }

/-- The items of an SDES chunk: its CNAME if it has one, and the bytes up to the next chunk. `n` bytes of the chunk are passed. -/
def sdesItems : Nat → Nat → List Byte → Option (List Byte) × List Byte
  | 0, _, b => (none, b)
  | fuel + 1, n, b =>
    match b with
    | ty :: len :: t =>
      if ty = 0 then (none, b.drop (4 - n % 4))
      else
        let r := sdesItems fuel (n + 2 + len.toNat) (t.drop len.toNat)
        (if ty = 1 then some (t.take len.toNat) else r.1, r.2)
    | _ => (none, [])

/-- SDES: the CNAME of each chunk's SSRC is recorded (R107). -/
def State.sdes (s : State) (leg : Nat) : Nat → List Byte → State
  | 0, _ => s
  | n + 1, b =>
    let r := sdesItems b.length 0 (b.drop 4)
    let s1 : State := match r.1 with
      | some c => { s with fwd := s.fwd.modIns leg (beNat (b.take 4)) fun x => { x with cname := c } }
      | none => s
    if b.length < 4 then s else s1.sdes leg n r.2

/-- BYE: the streams are inactive until their next packet (R107). -/
def State.bye (s : State) (leg : Nat) (b : List Byte) : State :=
  (List.range (bodyU8 b 0 % 32)).foldl (fun a k =>
    { a with fwd := a.fwd.modIns leg (beNat ((b.drop (4 + 4 * k)).take 4)) fun x => { x with active := false } }) s

/-- PLI or FIR on an outbound stream: a request for the subscription's source, or its TGT stream while it is
UP_PENDING (R124). -/
def State.pictureLost (s : State) (leg ssrc : Nat) : State :=
  let s0 : State := { s with fwd := { s.fwd with splAsk := s.fwd.splAsk ++ s.fwd.outBySsrc leg ssrc } }
  (s.fwd.outBySsrc leg ssrc).foldl (fun a o =>
    ((a.fwd.subs.filter fun u => u.2.role = 0 ∧ u.2.out = o ∧ !u.2.gone).map (·.2)).foldl (fun b u =>
      b.keyRequest (b.fwd.streamOf u.base (if u.state = 3 then u.tgtS else u.curS))) a) s0

/-- A sequence number that a NACK cannot serve. -/
def State.nackMiss (s : State) (leg : Nat) : State := { s with hub := s.hub.err FWD.NACK_MISS.COUNT (leg % 8) 0x0608 0 }

/-- The bytes of a retransmission (R120): the stored packet under the output header, or for a leg with RTX in its RTX packet (RFC 4588)
with the OSN before the payload. -/
def rtxBytes (x : InStream) (o : OutStream) (e : IdxEntry) (rtx : Bool) (raw : List Byte) : List Byte :=
  match parseRtp raw with
  | some p =>
    let y : Rtp := { p with m := e.m, pt := o.pt, seq := e.seq, ts := e.ts, ssrc := o.ssrc, twoByte := false, ext := extOut x.ext o.ext p }
    (if rtx then { y with pt := o.rtxPt, seq := o.rtxSeq, ssrc := o.rtxSsrc, payload := beBytes 2 e.seq ++ p.payload } else y).bytes
  | none => []

/-- Send a stored packet again on its leg, ahead of new packets (R120). -/
def State.retransmit (s : State) (leg : Nat) (l : Leg) (o : Nat) (os : OutStream) (e : IdxEntry) (p : Stored) : State :=
  let rtx := l.rtxFlag && os.rtxSsrc != 0
  let x : InStream := (kvGet e.stream s.fwd.ins).getD (inOf [])
  let b := rtxBytes x os e rtx p.pkt
  let e1 : IdxEntry := { e with tries := e.tries + 1, last := s.hub.elapsed }
  let s1 : State := { s with
    hub := s.hub.stat FWD.RTX_LO.COUNT (leg % 8) 1
    fwd := { (s.fwd.setOut o (if rtx then { os with rtxSeq := (os.rtxSeq + 1) % 65536 } else os)) with
      index := s.fwd.index.map fun y => if y.out = e.out ∧ y.seq = e.seq then e1 else y } }
  (s1.legCount leg fun c => { c with rtx := c.rtx + 1, outPkts := c.outPkts + 1, outBytes := c.outBytes + b.length }).legSend leg l true
    b.length "rtp" (o :: b.map BitVec.toNat)
    (s1.guard os.prot os.slot 0 (if rtx then 65536 + o else o) (if rtx then os.rtxSeq else e.seq) b.length (leg % 8)) none

/-- An output sequence number NACKed by a receiver (R120): retransmitted, joined to the upstream NACK, or counted; passed to
the source of a handover in its tail (R361). -/
def State.nack (s : State) (leg o seq : Nat) : State :=
  let now := s.hub.elapsed
  let f := s.fwd.cacheAge now
  match f.index.find? fun e => e.out = o ∧ e.seq = seq, kvGet o f.outs, kvGet leg f.legs with
  | some e, some os, some l =>
    let pkt := f.stored.find? fun p => p.stream = e.stream ∧ p.seq = e.inSeq
    let hand := (kvGet l.conf s.lnk.handIn).filter fun x => pkt.isNone && ((x.begun.map fun t => decide (now ≤ t + 1000000000)).getD false)
    match hand, pkt with
    | some x, _ =>
      ({ s with lnk := { s.lnk with handIn := kvPut l.conf { x with asked := (leg, o, seq, e.stream, e.inSeq) :: x.asked } s.lnk.handIn } } :
        State).jlSvc x.source (.nack e.stream e.inSeq)
    | none, some p =>
      if e.tries < s.fwd.key 11 ∧ (e.tries = 0 ∨ e.last + 1000000 * s.fwd.key 10 ≤ now) ∧ l.state = 1 then
        ({ s with fwd := f } : State).retransmit leg l o os e p
      else s.nackMiss leg
    | none, none => s.nackMiss leg
  | _, some os, _ =>
    match os.source.bind fun i => (kvGet i s.fwd.ins).map fun x => (i, x) with
    | some (i, x) =>
      match os.window.find? fun w => (w.1 + w.2) % 65536 = seq with
      | some w =>
        let gaps := if x.gaps.any (·.seq = w.1) then x.gaps else x.gaps ++ [{ seq := w.1, at_ := now }]
        { s with fwd := s.fwd.setIn i { x with gaps := gaps } }
      | none => s.nackMiss leg
    | none => s.nackMiss leg
  | _, _, _ => s.nackMiss leg

/-- The sequence numbers of a generic NACK's entries (RFC 4585). -/
def nackSeqs : Nat → List Byte → List Nat
  | 0, _ => []
  | n + 1, b =>
    if b.length < 4 then []
    else
      let pid := beNat (b.take 2)
      let blp := beNat ((b.drop 2).take 2)
      pid :: ((List.range 16).filter fun k => blp.testBit k).map (fun k => (pid + k + 1) % 65536) ++ nackSeqs n (b.drop 4)

/-- One packet of a compound (Table 6.5). -/
def State.rtcpPacket (s : State) (leg : Nat) (b : List Byte) : State :=
  let fmt := bodyU8 b 0 % 32
  match bodyU8 b 1 with
  | 200 => (s.srMapping leg b).reportBlocks leg fmt (b.drop 28)
  | 201 => s.reportBlocks leg fmt (b.drop 8)
  | 202 => s.sdes leg fmt (b.drop 4)
  | 203 => s.bye leg b
  | 205 =>
    if fmt = 1 then
      (s.fwd.outBySsrc leg (beNat ((b.drop 8).take 4))).foldl (fun a o =>
        (nackSeqs b.length (b.drop 12)).foldl (fun c q => c.nack leg o q) a) s
    else if fmt = 11 then
      match kvGet leg s.fwd.legs with
      | some l => ({ s with hub := s.hub.freeTick } : State).setEst leg { l with ccfb := true } (s.hub.freeIn l.minK l.maxK)
      | none => s
    else s.parseBad (leg % 8)
  | 206 =>
    if fmt = 1 then s.pictureLost leg (beNat ((b.drop 8).take 4))
    else if fmt = 4 then
      (List.range ((b.length - 12) / 8)).foldl (fun a k => a.pictureLost leg (beNat ((b.drop (12 + 8 * k)).take 4))) s
    else s.parseBad (leg % 8)
  | _ => s.parseBad (leg % 8)

/-- A compound, packet by packet. -/
def State.rtcpCompound (s : State) (leg : Nat) : Nat → List Byte → State
  | 0, _ => s
  | n + 1, b =>
    let len := 4 * (beNat ((b.drop 2).take 2) + 1)
    if b = [] then s
    else if b.length < len then s.parseBad (leg % 8)
    else (s.rtcpPacket leg (b.take len)).rtcpCompound leg n (b.drop len)

/-! ### Layers and switching (R109–R113) -/

/-- A packet on its way through the chains: its inbound stream, header, layer (none for a single layer), what its codec's syntax
says, whether S selects streams of its base and the base's top S, whether it starts a frame, whether it is late, its capture time as a
numerator over `clock` × 2^32 s, and its arrival. -/
structure Pkt where
  stream : Nat
  rtp : Rtp
  layer : Option (Nat × Nat)
  y : RtpLayer
  sets : Bool
  topS : Nat
  start : Bool
  late : Bool
  cap : Int
  clock : Nat
  hasSr : Bool
  arrived : Nat
  deriving DecidableEq, Repr

/-- The capture time of timestamp `ts` of a stream (R114): by its SR mapping, else its arrival, in 1 / (clock × 2^32) s. -/
def capture (x : InStream) (ts arrived : Nat) : Int :=
  match x.sr with
  | some (ntp, rtp) => (ntp : Int) * x.clock + wrapDiff 32 rtp ts * 2 ^ 32
  | none => (arrived * x.clock * 2 ^ 32 / 1000000000 : Nat)

/-- The layer of a packet (Table 6.6): in a set S is the stream's place in it (R110). -/
def layerOf (x : InStream) (i : Nat) (set : Bool) (y : RtpLayer) : Option (Nat × Nat) :=
  match x.codec with
  | 1 => if set then some (i - x.base, if y.layered then y.t else 0) else if y.layered then some (y.s, y.t) else none
  | 2 => some (i - x.base, 0)
  | 3 => some (i - x.base, y.t)
  | 4 => some (i - x.base, y.t)
  | _ => if set then some (i - x.base, 0) else none

/-- Does a subscription forward a packet's layer at CUR (R110)? -/
def Sub.within (u : Sub) (p : Pkt) : Bool :=
  match p.layer with
  | none => true
  | some (a, b) => if p.sets then decide (a = u.curS ∧ b ≤ u.curT) else decide (a ≤ u.curS ∧ b ≤ u.curT)

/-- The Switch indication of the highest decode target within (a, b) (Table 6.6). -/
def switchFor (y : RtpLayer) (a b : Nat) : Bool :=
  let best := (y.targets.filter fun t => t.1 ≤ a ∧ t.2.1 ≤ b).foldl (fun (m : Option (Nat × Nat × Bool)) t =>
    match m with
    | some x => if layerLt x.1 x.2.1 t.1 t.2.1 then some t else some x
    | none => some t) none
  (best.map (·.2.2)).getD false

/-- Is a packet a switch-up point of TGT (Table 6.6)? `newS` where the spatial layer changes. -/
def Sub.upPoint (u : Sub) (x : InStream) (p : Pkt) (newS : Bool) : Bool :=
  match p.layer with
  | none => p.start
  | some (a, _) =>
    p.start && !(p.sets && a != u.tgtS) &&
      (p.y.key || p.y.sweep ||
        match x.codec with
        | 1 => x.bare || switchFor p.y (if p.sets then 7 else u.tgtS) u.tgtT
        | 2 => false
        | 3 => !newS && p.y.switch && p.y.t == u.tgtT
        | 4 => p.y.switch
        | _ => true)

/-- Is a packet the switch-down point of TGT (Tables 6.6, 6.7)? Where T alone falls R112 names the next frame start and Table 6.7 asks
also for the end (M = 1) of the frame in progress: the model waits for both (DESIGN CHOICE, assumption 102). -/
def Sub.downPoint (u : Sub) (p : Pkt) : Bool :=
  p.start && !u.open_ &&
    (match u.lastCap with
      | some (c, k) => decide (c * p.clock < p.cap * k)
      | none => true) &&
    (match p.layer with
      | some (a, _) => !p.sets || a == u.tgtS
      | none => true)

/-- The subscription after its switch test on a packet (Table 6.7). -/
def Sub.step (u : Sub) (x : InStream) (p : Pkt) : Sub :=
  if u.none_ ∧ u.state ≠ 4 then (if p.start then { u with state := 0 } else u)
  else
    let hit := match u.state with
      | 0 => u.upPoint x p true
      | 2 => u.downPoint p
      | 3 => u.upPoint x p (u.tgtS ≠ u.curS)
      | _ => false
    if hit then { u with curS := u.tgtS, curT := u.tgtT, state := 1 } else u

/-- Does a subscription forward a packet? -/
def Sub.forwards (u : Sub) (p : Pkt) : Bool := u.state ≠ 0 && u.state ≠ 4 && u.within p

/-! ### Rewriting (R114, R115) -/

/-- What a copy becomes: nothing, an output sequence number and timestamp, or a late drop. -/
inductive Rewrite where
  | none
  | late
  | out (seq ts : Nat)
  deriving DecidableEq, Repr

/-- round(x / y) to the nearest integer, halves up. -/
def roundDiv (x y : Int) : Int := (2 * x + y).fdiv (2 * y)

/-- Rewriting of a packet for an outbound stream (R114, R115): `fwd` whether the subscription's layer forwards it. On a
source change timestamps continue by the capture times, or by arrivals where a stream has no SR. -/
def OutStream.rewrite (o : OutStream) (prev : Option InStream) (p : Pkt) (fwd : Bool) : OutStream × Rewrite :=
  let seq := p.rtp.seq
  let ts := p.rtp.ts
  if o.source ≠ some p.stream then
    if !fwd then (o, .none)
    else
      let o1 : OutStream := match o.source with
        | none => o
        | some _ =>
          let steps : Int := match prev with
            | some x =>
              if x.sr.isSome ∧ p.hasSr then
                roundDiv ((p.cap * x.clock - capture x o.lastInTs o.lastInAt * p.clock) * o.clock) (p.clock * x.clock * 2 ^ 32)
              else roundDiv (((p.arrived : Int) - o.lastInAt) * o.clock) 1000000000
            | none => roundDiv (((p.arrived : Int) - o.lastInAt) * o.clock) 1000000000
          { o with
            tsOff := (((o.lastTs : Int) + max 1 steps - ts) % 2 ^ 32).toNat
            seqOff := (((o.lastSeq : Int) + 1 - seq) % 2 ^ 16).toNat }
      let q := (seq + o1.seqOff) % 65536
      let t := (ts + o1.tsOff) % 2 ^ 32
      ({ o1 with source := some p.stream, high := seq, window := [], lastSeq := q, lastTs := t, lastInTs := ts, lastInAt := p.arrived }, .out q t)
  else if laterThan 16 o.high seq then
    let gap := (seq + 65536 - o.high) % 65536
    let missing := (List.range (gap - 1)).map fun k => ((o.high + 1 + k) % 65536, o.seqOff)
    let win := (o.window ++ missing).filter fun w => (seq + 65536 - w.1) % 65536 < 128
    if fwd then
      let q := (seq + o.seqOff) % 65536
      let t := (ts + o.tsOff) % 2 ^ 32
      ({ o with high := seq, window := win, lastSeq := q, lastTs := t, lastInTs := ts, lastInAt := p.arrived }, .out q t)
    else ({ o with high := seq, window := win, seqOff := (o.seqOff + 65535) % 65536 }, .none)
  else if seq = o.high then (o, .none)
  else if 128 ≤ (o.high + 65536 - seq) % 65536 then (o, .late)
  else if !fwd then (o, .none)
  else match o.window.find? (·.1 = seq) with
    | some w => ({ o with window := o.window.filter (·.1 ≠ seq) }, .out ((seq + w.2) % 65536) ((ts + o.tsOff) % 2 ^ 32))
    | none => (o, .none)

/-! ### FlexFEC (R122, R123, RFC 8627) -/

/-- The recovery bits of a packet: 2 header bytes, the length of what follows the fixed header, the timestamp, and what follows the
fixed header. -/
def fecBits (b : List Byte) : List Byte := b.take 2 ++ beBytes 2 (b.length - 12) ++ (b.drop 4).take 4 ++ b.drop 12

/-- Exclusive or, the shorter one padded with zeros. -/
def xorBytes : List Byte → List Byte → List Byte
  | [], b => b
  | a, [] => a
  | x :: a, y :: b => (x ^^^ y) :: xorBytes a b
def xorAll (l : List (List Byte)) : List Byte := l.foldl xorBytes []

/-- The FEC packet of the fixed form over `pkts`, from sequence number `base` on (R122). Its timestamp is that of the newest packet
protected, and D is 1 in a row packet that a column follows (RFC 8627; assumption 107). -/
def fecPacket (o : OutStream) (base ts l d : Nat) (pkts : List (List Byte)) : List Byte :=
  let x := xorAll (pkts.map fecBits)
  let head := [(x.headD 0 &&& 0x3F) ||| 0x40] ++ (x.drop 1).take 7 ++ beBytes 2 base ++ [BitVec.ofNat 8 l, BitVec.ofNat 8 d]
  ({ m := false, pt := o.fecPt, seq := o.fecSeq, ts := ts, ssrc := o.fecSsrc, csrc := beBytes 4 o.ssrc, twoByte := false, ext := []
     payload := head ++ x.drop 8 } : Rtp).bytes

/-- Send one FEC packet of outbound stream `o`, under its own SSRC and index (R122). -/
def State.fecSend (s : State) (o base ts l d : Nat) (pkts : List (List Byte)) : State :=
  match kvGet o s.fwd.outs with
  | some x =>
    match kvGet x.leg s.fwd.legs with
    | some g =>
      let b := fecPacket x base ts l d pkts
      let s1 : State := { s with fwd := s.fwd.setOut o { x with fecSeq := (x.fecSeq + 1) % 65536 } }
      s1.legSend x.leg g false b.length "rtp" (o :: b.map BitVec.toNat) (s1.guard x.prot x.slot 0 (131072 + o) x.fecSeq b.length (x.leg % 8)) none
    | none => s
  | none => s

/-- Every `n`-th packet from the `k`-th on. -/
def everyNth (n k : Nat) (l : List (List Byte)) : List (List Byte) := (l.zipIdx.filter fun e => e.2 % n = k).map (·.1)

/-- FlexFEC packets due after packet `b` of an outbound stream has been sent (R122): a row packet after each FEC_L, and with FEC_D one
column packet per column after each block. -/
def State.fecDue (s : State) (o seq ts : Nat) (b : List Byte) : State :=
  match kvGet o s.fwd.outs with
  | some x =>
    if x.fecL = 0 then s
    else
      let held := x.fecHeld ++ [b]
      let c := held.length
      let block := x.fecL * max x.fecD 1
      let s1 : State := { s with fwd := s.fwd.setOut o { x with fecHeld := if c = block then [] else held } }
      let s2 := if c % x.fecL = 0 then
          s1.fecSend o ((seq + 65536 - (x.fecL - 1)) % 65536) ts x.fecL (if x.fecD = 0 then 0 else 1) (held.drop (c - x.fecL))
        else s1
      if 0 < x.fecD ∧ c = block then
        (List.range x.fecL).foldl (fun a k => a.fecSend o ((seq + 65536 - (block - 1) + k) % 65536) ts x.fecL x.fecD (everyNth x.fecL k held)) s2
      else s2
  | none => s

/-- The sequence numbers of a flexible mask: its bits from offset `o` on, most significant first. -/
def maskSeqs (base o n mask : Nat) : List Nat :=
  (List.range n).filterMap fun k => if mask.testBit (n - 1 - k) then some ((base + o + k) % 65536) else none

/-- What a received FEC packet protects, and its recovery bits (R123): both forms of RFC 8627; none for a retransmission form, for
more than one SSRC, or for one too short. -/
def parseFec (q : Rtp) : Option (List Nat × List Byte) :=
  let p := q.payload
  let b0 := bodyU8 p 0
  let base := beNat ((p.drop 8).take 2)
  let m0 := beNat ((p.drop 10).take 2)
  let m1 := beNat ((p.drop 12).take 4)
  let l := bodyU8 p 10
  let d := bodyU8 p 11
  let head := [BitVec.ofNat 8 (b0 % 64)] ++ (p.drop 1).take 7
  if p.length < 12 ∨ q.csrc.length ≠ 4 ∨ 128 ≤ b0 then none
  else if 64 ≤ b0 then
    if l = 0 then none
    else some (if d ≤ 1 then (List.range l).map fun k => (base + k) % 65536 else (List.range d).map fun k => (base + k * l) % 65536,
      head ++ p.drop 12)
  else if 32768 ≤ m0 then some (maskSeqs base 0 15 (m0 % 32768), head ++ p.drop 12)
  else if 2 ^ 31 ≤ m1 then some (maskSeqs base 0 15 m0 ++ maskSeqs base 15 31 (m1 % 2 ^ 31), head ++ p.drop 16)
  else some (maskSeqs base 0 15 m0 ++ maskSeqs base 15 31 m1 ++ maskSeqs base 46 64 (beNat ((p.drop 16).take 8)), head ++ p.drop 24)

/-- The packet `seq` that FEC bits and the other protected packets give. -/
def fecRestore (ssrc seq : Nat) (bits : List Byte) (others : List (List Byte)) : List Byte :=
  let x := xorAll (bits :: others.map fun b => ((fecBits b).headD 0 &&& 0x3F) :: (fecBits b).drop 1)
  [(x.headD 0 &&& 0x3F) ||| 0x80] ++ (x.drop 1).take 1 ++ beBytes 2 seq ++ (x.drop 4).take 4 ++ beBytes 4 ssrc ++
    (x.drop 8).take (beNat ((x.drop 2).take 2))

/-! ### Copies (R99, R101, R113, R116) -/

/-- The marker of a copy: with AV1 spatial layers removed, set only at the end of the highest spatial layer forwarded
(R113). -/
def Sub.marker (u : Sub) (codec : Nat) (p : Pkt) : Bool :=
  match p.layer with
  | some (a, _) => if codec = 1 ∧ !p.sets ∧ u.curS < p.topS then p.y.eof && a == u.curS else p.rtp.m
  | none => p.rtp.m

/-- A copy to an outbound stream leaves for its leg (R114, R116, R122): counted and queued; it is encrypted, and indexed, as it
departs (R35, R119). -/
def State.copyOut (s : State) (u : Sub) (k : Nat) (x : InStream) (p : Pkt) (seq ts : Nat) : State :=
  match kvGet u.out s.fwd.outs, kvGet u.leg s.fwd.legs with
  | some o, some l =>
    if l.state ≠ 1 ∨ o.held then s
    else
      let m := u.marker x.codec p
      let y : Rtp := { p.rtp with m := m, pt := o.pt, seq := seq, ts := ts, ssrc := o.ssrc, twoByte := false, ext := extOut x.ext o.ext p.rtp }
      let b := y.bytes
      let s1 : State := { s with
        hub := s.hub.stat FWD.COPIES_LO.COUNT k 1
        fwd := s.fwd.setOut u.out { o with sentSince := true, pkts := o.pkts + 1, octets := o.octets + y.payload.length } }
      ((s1.legCount u.leg fun c => { c with outPkts := c.outPkts + 1, outBytes := c.outBytes + b.length }).legSend u.leg l false b.length "rtp"
        (u.out :: b.map BitVec.toNat) (s1.guard o.prot o.slot 0 u.out seq y.payload.length k)
        (some { out := u.out, seq := seq, stream := p.stream, inSeq := p.rtp.seq, ts := ts, m := m, at_ := 0 })).fecDue u.out seq ts b
  | _, _ => s

/-- What a codec's syntax says of a packet the device makes: one layer, each packet a whole picture. -/
def wholeLayer : RtpLayer := { layered := false, s := 0, t := 0, key := false, switch := false, sweep := false, targets := [], eof := true }

/-- A packet that the device itself makes leaves on outbound stream `o`, whose source is then `stream` (R37, R114, R122): sequence numbers
and timestamps run on. -/
def State.produce (s : State) (o stream : Nat) (q : Rtp) : State :=
  match kvGet o s.fwd.outs with
  | some x =>
    match kvGet x.leg s.fwd.legs with
    | some l =>
      if x.gone ∨ x.held ∨ l.state ≠ 1 then s
      else
        let p : Pkt := { stream := stream, rtp := q, layer := none, y := wholeLayer, sets := false, topS := 0, start := true, late := false
                         cap := 0, clock := x.clock, hasSr := false, arrived := s.hub.elapsed }
        match x.rewrite none p true with
        | (x1, .out seq ts) =>
          let b := ({ q with seq := seq, ts := ts, pt := x.pt, ssrc := x.ssrc } : Rtp).bytes
          let x2 : OutStream := { x1 with sentSince := true, pkts := x1.pkts + 1, octets := x1.octets + q.payload.length }
          let s1 : State := { s with fwd := s.fwd.setOut o x2 }
          ((s1.legCount x.leg fun c => { c with outPkts := c.outPkts + 1, outBytes := c.outBytes + b.length }).legSend x.leg l false b.length "rtp"
            (o :: b.map BitVec.toNat) (s1.guard x.prot x.slot 0 o seq q.payload.length (x.leg % 8)) none).fecDue o seq ts b
        | (x1, _) => { s with fwd := s.fwd.setOut o x1 }
    | none => s
  | none => s

/-- A copy for another role (Table 6.2): to a decode sash, over Jorras, or to a queue pair. -/
def State.copyRole (s : State) (u : Sub) (k : Nat) (p : Pkt) : State :=
  let b := p.rtp.bytes
  let h := s.hub.stat FWD.COPIES_LO.COUNT k 1
  match u.role with
  | 1 => { s with hub := h.emit (.token (u.dest % 1024) "decode" (p.stream :: u.pane :: b.map BitVec.toNat)
      { epoch := s.epochOf (u.dest % 1024) }) }
  | 2 => ({ s with hub := h } : State).jlMedia (u.dest % 2048) u.out b
  | _ =>
    let q := u.dest % 1024
    { s with hub := h.qpDeliver q (s.fab.hasPath (s.fwdSash k) (mkRef 8 k) (mkRef 16 (q / 8))) b }

/-- A subscription's entry sees a packet (R111–R115). -/
def State.visit (s : State) (k i : Nat) (x : InStream) (p : Pkt) : State :=
  let s1 := match (kvGet i s.fwd.subs).bind fun u => u.next.map fun pol => (u, pol) with
    | some (u, pol) => s.bindPolicy i u pol false
    | none => s
  match kvGet i s1.fwd.subs with
  | none => s1
  | some u =>
    if u.gone then s1
    else
      let v := if p.late then u else u.step x p
      let fwd := v.forwards p
      let v1 : Sub := if fwd ∧ !p.late then { v with open_ := !v.marker x.codec p, lastCap := some (p.cap, p.clock) } else v
      let s2 := if v1 = u then s1 else s1.putSub i v1
      if u.role ≠ 0 then (if fwd then s2.copyRole v1 k p else s2)
      else match kvGet v1.out s2.fwd.outs with
        | none => s2
        | some o =>
          let r := o.rewrite (o.source.bind fun j => kvGet j s2.fwd.ins) p fwd
          let s3 : State := { s2 with fwd := s2.fwd.setOut v1.out r.1 }
          match r.2 with
          | .none => s3
          | .late => { s3 with hub := s3.hub.err FWD.LATE_DROP.COUNT k 0x0608 0 }
          | .out q t => s3.copyOut v1 k x p q t

/-- Slice `k` walks from an entry on: to one with END, to one with VALID 0, or over `n` entries (R101). -/
def State.walkFrom (s : State) (k : Nat) (x : InStream) (p : Pkt) : Nat → Option Nat → State
  | 0, _ => s
  | _, none => s
  | n + 1, some i =>
    let s1 := s.subVisit k i
    match kvGet i s1.fwd.subs with
    | some u => if u.valid then (s1.visit k i x p).walkFrom k x p n u.link else s1
    | none => s1

/-- Slice `k` walks its chain of the packet's base (R101). -/
def State.walk (s : State) (x : InStream) (p : Pkt) (k : Nat) : State :=
  s.walkFrom k x p (2 ^ 25) (s.fwd.chainOf (x.base * 8 + k)).head?

/-! ### Ingest (R103, R109, R119, R121, R123) -/

/-- The 128-index replay window (R103): the window with index `i` taken, or none where it is too old or a duplicate. -/
def Replay.takeAt (w : Replay) (i : Nat) : Option Replay :=
  if !w.started then some { started := true, top := i, seen := [i] }
  else if w.top < i then some { w with top := i, seen := (i :: w.seen).filter fun j => i < j + 128 }
  else if i + 128 ≤ w.top ∨ i ∈ w.seen then none
  else some { w with seen := i :: w.seen }

/-- The window with the index of a 16-bit sequence number taken. -/
def Replay.take (w : Replay) (seq : Nat) : Option Replay := w.takeAt (if w.started then srtpIndex w.top seq else seq)

/-- Gaps up to a new highest sequence number (R121): the spec does not bound them; the model keeps the 128 newest of one jump, the
window within which a late packet can still be forwarded (DESIGN CHOICE, assumption 108). -/
def newGaps (high seq now : Nat) : List Gap :=
  (List.range (min ((seq + 65536 - high) % 65536 - 1) 128)).map fun k => { seq := (seq + 65536 - 1 - k) % 65536, at_ := now }

/-- Reception statistics after a packet (R108, RFC 3550 A.3, A.8): its sequence number, and its transit time in timestamp units. -/
def RxStat.take (r : RxStat) (seq : Nat) (transit : Int) : RxStat :=
  let i := if r.got = 0 then seq else srtpIndex r.top seq
  let d := if r.got = 0 then 0 else (transit - r.transit).natAbs
  { r with
    first := if r.got = 0 then seq else r.first, top := max r.top i, got := r.got + 1, transit := transit
    jitter := r.jitter + d - (r.jitter + 8) / 16 }

/-- The RFC 6464 level a packet carries is kept for the large rooms whose members name its stream (R116, R256): those of
the last 200 ms, newest first. -/
def State.audLevel (s : State) (i : Nat) (x : InStream) (q : Rtp) : State :=
  match q.ext.find? fun e => extKind x.ext q.twoByte e.1 = 2 ∧ e.2 ≠ [] with
  | some (_, b) =>
    let now := s.hub.elapsed
    let put := fun (l : List (Nat × Nat)) => (now, bodyU8 b 0 % 128) :: l.filter fun e => now < e.1 + 200000000
    { s with aud := { s.aud with profs := s.aud.profs.map fun e =>
        if e.2.inStream = i then (e.1, { e.2 with levels := put e.2.levels }) else e } }
  | none => s

/-- A packet a conference in handover accepts is relayed to the target as MEDIA (R361). -/
def State.handRelay (s : State) (i : Nat) (x : InStream) (raw : List Byte) : State :=
  match (kvGet x.leg s.fwd.legs).bind fun l => kvGet l.conf s.lnk.hand with
  | some h => s.jlMedia h.target i raw
  | none => s

/-- An inbound stream's context after a packet (R107–R109, R117, R118, R121): `old` for a late one, `ecn` its ECN bits. -/
def InStream.after (x : InStream) (now : Nat) (q : Rtp) (bytes code ecn : Nat) (old : Bool) (y : RtpLayer) : InStream :=
  let gaps := x.gaps.filter (fun g => g.seq ≠ q.seq ∧ (q.seq + 65536 - g.seq) % 65536 < 32768) ++ (match x.high with
    | some h => if old then [] else newGaps h q.seq now
    | none => [])
  let named := y.targets.foldl (fun (m : Nat × Nat) t => (max m.1 t.1, max m.2 t.2.1)) (y.s, y.t)
  let before := x.top.getD (0, 0)
  { x with
    active := true, arrived := now, gaps := gaps
    high := if old then x.high else some q.seq
    lastTs := if old then x.lastTs else q.ts
    lastM := if old then x.lastM else q.m
    bare := if old then x.bare else x.codec == 1 && !y.layered
    top := if old ∨ !(y.layered ∨ x.codec = 3 ∨ x.codec = 4) then x.top
      else if x.codec = 1 ∧ y.targets ≠ [] then some named else some (max before.1 y.s, max before.2 y.t)
    rx := x.rx.take q.seq ((now * x.clock / 1000000000 : Nat) - (q.ts : Int))
    heard := x.heard ++ [(q.seq, now, ecn)]
    recent := (x.recent.filter fun r => now < r.1 + 1000000000) ++ [(now, code, bytes)] }

/-- An RTP packet of inbound stream `i`: context, cache, and the walk on each slice. `late` for one recovered by RTX or
FEC (R115). -/
def State.ingest (s : State) (i : Nat) (q : Rtp) (raw : List Byte) (y : RtpLayer) (ecn : Nat) (late : Bool) : State :=
  match kvGet i s.fwd.ins with
  | none => s
  | some x =>
    let now := s.hub.elapsed
    let old := late || (match x.high with | some h => !laterThan 16 h q.seq | none => false)
    let start := (x.high.isNone || x.lastTs != q.ts || x.lastM) && !old
    let set := s.fwd.simulcast x.base
    let lay := layerOf x i set y
    let x1 := x.after now q raw.length ((lay.map fun l => 8 * l.1 + l.2).getD 0) ecn old y
    let s1 := ((({ s with fwd := s.fwd.setIn i x1 } : State).handRelay i x raw).audLevel i x q).cacheStore i q.seq raw
    let point := y.key ∨ y.switch ∨ y.sweep ∨ y.targets.any (·.2.2) ∨ (lay.isNone ∧ start)
    let s2 := if !old ∧ point then s1.keyAnswer i else s1
    let s3 := if x1.top = x.top ∧ x1.bare = x.bare then s2 else s2.refollow x.base
    let p : Pkt := { stream := i, rtp := q, layer := lay, y := y, sets := s3.fwd.sets x.base, topS := (s3.fwd.topOf x.base).1, start := start
                     late := old, cap := capture x q.ts now, clock := x.clock, hasSr := x.sr.isSome, arrived := now }
    (List.range 8).foldl (fun a k => a.walk x1 p k) s3

/-! ### FEC recovery (R123) -/

/-- Is a gap within FEC_WINDOW of its loss? -/
def FwdSt.inWindow (f : FwdSt) (now : Nat) (g : Gap) : Bool := decide (now ≤ g.at_ + 1000000 * f.key 15)

/-- The packet a held FEC packet gives: the one missing packet it protects, still in its window, the others being stored. -/
def FwdSt.fecGives (f : FwdSt) (now i : Nat) (x : InStream) (h : FecHeld) : Option (List Byte) :=
  let others := fun (m : Nat) => (h.seqs.filter (· ≠ m)).map fun q => f.stored.find? fun p => p.stream = i ∧ p.seq = q
  match x.gaps.filter fun g => g.seq ∈ h.seqs with
  | [g] =>
    if f.inWindow now g ∧ (others g.seq).all (·.isSome) then
      some (fecRestore x.ssrc g.seq h.bits ((others g.seq).filterMap fun p => p.map (·.pkt)))
    else none
  | _ => none

/-- Recover what the held FEC packets of a stream give, one after the other; `ys` is what the codec's syntax says of each. -/
def State.fecLoop (s : State) (i : Nat) : Nat → List RtpLayer → State
  | 0, _ => s
  | n + 1, ys =>
    match kvGet i s.fwd.ins with
    | none => s
    | some x =>
      match x.fecHeld.findSome? fun h => (s.fwd.fecGives s.hub.elapsed i x h).map fun b => (h, b) with
      | none => s
      | some (h, raw) =>
        let s1 : State := { s with fwd := s.fwd.setIn i { x with fecHeld := x.fecHeld.filter (· ≠ h) } }
        match parseRtp raw, ys with
        | some q, y :: t => (s1.ingest i q raw y 0 true).fecLoop i n t
        | _, _ => s1.fecLoop i n ys

/-- Count FEC packets that cannot be used. -/
def Hub.fecDrop (h : Hub) (i : Nat) : Nat → Hub
  | 0 => h
  | n + 1 => (h.err FWD.FEC_DROP.COUNT (i % 8) 0x0608 0).fecDrop i n

/-- After a packet of a stream: FEC packets whose window has passed are discarded and counted, and those held recover what they
can. -/
def State.fecTry (s : State) (i : Nat) (ys : List RtpLayer) : State :=
  match kvGet i s.fwd.ins with
  | none => s
  | some x =>
    let live := fun (h : FecHeld) => decide (s.hub.elapsed ≤ h.at_ + 1000000 * s.fwd.key 15) ||
      x.gaps.any fun g => decide (g.seq ∈ h.seqs) && s.fwd.inWindow s.hub.elapsed g
    let keep := x.fecHeld.filter live
    ({ s with
      hub := s.hub.fecDrop i (x.fecHeld.length - keep.length)
      fwd := s.fwd.setIn i { x with fecHeld := keep } } : State).fecLoop i (keep.length + 1) ys

/-! ### The SSRCs of a stream (steps 5 and 6 of Table 6.3) -/

/-- Decrypt a packet of an inbound stream and take its index in the window of its SSRC (R103): the window then, or none where the packet
is dropped. -/
def State.passSec (s : State) (i : Nat) (x : InStream) (w : Replay) (f : RxFrame) (q : Rtp) : State × Option Replay :=
  if x.prot = 0 then (s, some w)
  else
    let r := s.cipher { slot := x.slot, kind := 0, dec := true, stream := i, seq := q.seq, aad := 12, len := q.payload.length
                        sash := s.fwdSash (i % 8), poison := false, mismatches := 0, authOk := f.authOk, authHeld := false }
    if !r.2 then (r.1, none)
    else match w.take q.seq with
      | none => ({ r.1 with hub := r.1.hub.err FWD.REPLAY.COUNT (i % 8) 0x0608 0 }, none)
      | some v => (r.1, some v)

/-- The ECN bits of a frame's IP header. -/
def ecnOf (f : RxFrame) : Nat := if f.ipv6 then bodyU8 f.bytes 15 / 16 % 4 else bodyU8 f.bytes 15 % 4

/-- A packet on the stream's own SSRC. -/
def State.rtpMain (s : State) (i : Nat) (x : InStream) (f : RxFrame) (q : Rtp) : State :=
  match s.passSec i x x.replay f q with
  | (s1, none) => s1
  | (s1, some w) =>
    (({ s1 with fwd := s1.fwd.setIn i { x with replay := w } } : State).ingest i q f.payload f.layer (ecnOf f) false).fecTry i f.recovered

/-- A packet on the stream's RTX SSRC: the original is restored from its OSN and handled as late (R115, RFC 4588). -/
def State.rtpRtx (s : State) (i : Nat) (x : InStream) (f : RxFrame) (q : Rtp) : State :=
  let orig : Rtp := { q with seq := beNat (q.payload.take 2), ssrc := x.ssrc, pt := x.pt, payload := q.payload.drop 2 }
  match s.passSec i x x.rtxReplay f q with
  | (s1, none) => s1
  | (s1, some w) =>
    (({ s1 with fwd := s1.fwd.setIn i { x with rtxReplay := w } } : State).ingest i orig orig.bytes f.layer (ecnOf f) true).fecTry i f.recovered

/-- A packet on the stream's FEC SSRC (R123): held for its window; one that cannot be read, or that protects more than one SSRC, is
counted. -/
def State.rtpFec (s : State) (i : Nat) (x : InStream) (f : RxFrame) (q : Rtp) : State :=
  match s.passSec i x x.fecReplay f q with
  | (s1, none) => s1
  | (s1, some w) =>
    let h : Option FecHeld := (parseFec q).map fun p => { at_ := s.hub.elapsed, seqs := p.1, bits := p.2 }
    (({ s1 with
      hub := if h.isNone then s1.hub.fecDrop i 1 else s1.hub
      fwd := s1.fwd.setIn i { x with fecReplay := w, fecHeld := x.fecHeld ++ h.toList } } : State)).fecTry i f.recovered

/-- A packet of a leg's RTP (step 5 of Table 6.3). -/
def State.rtp (s : State) (leg k : Nat) (f : RxFrame) : State :=
  match parseRtp f.payload with
  | none => s.parseBad k
  | some q =>
    let s1 := s.legCount leg fun c => { c with inPkts := c.inPkts + 1, inBytes := c.inBytes + f.payload.length }
    let mine := s1.fwd.ins.filter fun x => x.2.leg = leg ∧ !x.2.gone
    match mine.find? fun x => x.2.ssrc = q.ssrc with
    | some (i, x) => s1.rtpMain i x f q
    | none => match mine.find? fun x => x.2.rtxSsrc ≠ 0 ∧ x.2.rtxSsrc = q.ssrc with
      | some (i, x) => s1.rtpRtx i x f q
      | none => match mine.find? fun x => x.2.fecSsrc ≠ 0 ∧ x.2.fecSsrc = q.ssrc with
        | some (i, x) => s1.rtpFec i x f q
        | none =>
          let h := (s1.hub.err FWD.UNK_SSRC.COUNT k 0x0608 0).raiseRl { code := 0x0604, sash := s1.fwdSash k, detail := [leg, q.ssrc] }
          let s2 : State := { s1 with hub := h }
          if s2.hub.get FWD.CFG.UNK_SSRC = 1 then s2.exception 4 leg k f else s2

/-! ### Classification (R102, Table 6.3) -/

/-- Does a frame match a leg: its local address and port, and its full 5-tuple? -/
def Leg.local (l : Leg) (f : RxFrame) : Bool := l.kind ≠ 2 && l.ipv6 == f.ipv6 && l.lport == f.dport && l.laddr == f.dst.take l.laddr.length
def Leg.tuple (l : Leg) (f : RxFrame) : Bool := l.local f && l.rport == f.sport && l.raddr == f.src.take l.raddr.length

/-- Is a frame PTP's (R315)? -/
def isPtp (f : RxFrame) : Bool :=
  beNat ((f.bytes.drop 12).take 2) == 0x88F7 || (f.udp && (f.dport == 319 || f.dport == 320))

/-- SRTCP or RTCP of leg `i` (R103, R107): SRTCP is decrypted, and its index taken in the window of its sender. -/
def State.legRtcp (s : State) (i : Nat) (f : RxFrame) : State :=
  let sl := s.fwd.legSlot i false
  let from_ := beNat ((f.payload.drop 4).take 4)
  match kvGet i s.fwd.legs with
  | none => s
  | some l =>
    if sl.1 = 0 then s.rtcpCompound i f.payload.length f.payload
    else
      let r := s.cipher { slot := sl.2, kind := 1, dec := true, stream := i, seq := 0, aad := 12, len := f.payload.length
                          sash := s.fwdSash (i % 8), poison := false, mismatches := 0, authOk := f.authOk, authHeld := false }
      if !r.2 then r.1
      else match ((kvGet from_ l.rtcpReplay).getD {}).takeAt f.srtcp with
        | none => { r.1 with hub := r.1.hub.err FWD.REPLAY.COUNT (i % 8) 0x0608 0 }
        | some w =>
          ({ r.1 with fwd := r.1.fwd.setLeg i { l with rtcpReplay := kvPut from_ w l.rtcpReplay } } : State).rtcpCompound i f.payload.length f.payload

/-- Steps 4 to 6 for a frame of leg `i`. -/
def State.legFrame (s : State) (i k : Nat) (f : RxFrame) : State :=
  let b0 := bodyU8 f.payload 0
  let b1 := bodyU8 f.payload 1
  if ((kvGet i s.fwd.legs).map (·.state)) = some 3 then s
  else if f.payload = [] then s.parseBad k
  else if b0 ≤ 3 then s.stun i f
  else if 20 ≤ b0 ∧ b0 ≤ 63 then s.exception 3 i k f
  else if 128 ≤ b0 ∧ b0 ≤ 191 then
    if 192 ≤ b1 ∧ b1 ≤ 223 then
      s.legRtcp i f
    else s.rtp i k f
  else s.parseBad k

/-- Steps 3 to 6 of Table 6.3. -/
def State.classify (s : State) (f : RxFrame) : State :=
  let k := f.port % 8
  match s.fwd.legs.find? fun l => l.2.tuple f with
  | some (i, _) => s.legFrame i k f
  | none => match s.fwd.legs.find? fun l => l.2.local f with
    | some (i, _) => if f.payload ≠ [] ∧ bodyU8 f.payload 0 ≤ 3 then s.legFrame i k f else s.parseBad k
    | none =>
      let s1 : State := { s with hub := s.hub.err FWD.NO_LEG.COUNT k 0x0608 0 }
      if s.hub.get FWD.CFG.NOT_LEG = 1 then s1 else s1.exception 2 0xFFFF k f

/-! ### Timers (R108, R117, R118, R121, Table 6.7) -/

/-- The RTP timestamp of an SR (R108). -/
def State.srTs (s : State) (o : OutStream) : Nat :=
  match o.source.bind fun i => kvGet i s.fwd.ins with
  | some x => match x.sr with
    | some (ntp, rtp) => (((rtp : Int) + ((s.hub.ntpNow : Int) - ntp) * x.clock / 2 ^ 32 + o.tsOff) % 2 ^ 32).toNat
    | none => s.hub.time.total * o.clock / 1000000000 % 2 ^ 32
  | none => s.hub.time.total * o.clock / 1000000000 % 2 ^ 32

/-- The report block on an inbound stream (R108, RFC 3550): loss since the last report and in all, the highest extended sequence number,
jitter, LSR and DLSR. -/
def InStream.block (x : InStream) (now : Nat) : List Byte :=
  let r := x.rx
  let exp := r.top + 1 - r.first
  let lost : Int := (exp - r.priorExp : Nat) - ((r.got - r.priorGot : Nat) : Int)
  let all : Int := (exp : Int) - r.got
  let fraction := if exp = r.priorExp ∨ lost ≤ 0 then 0 else min 255 (lost.toNat * 256 / (exp - r.priorExp))
  let lsr := (x.sr.map fun m => m.1 / 65536 % 2 ^ 32).getD 0
  beBytes 4 x.ssrc ++ beBytes 1 fraction ++ beBytes 3 (max (-8388608) (min 8388607 all) % 2 ^ 24).toNat ++ beBytes 4 (r.top % 2 ^ 32) ++
    beBytes 4 (r.jitter / 16) ++ beBytes 4 lsr ++ beBytes 4 (if x.sr = none then 0 else (now - x.srAt) * 65536 / 1000000000)

/-- A report has been made: its expected and received counts. -/
def InStream.reported (x : InStream) : InStream := { x with rx := { x.rx with priorExp := x.rx.top + 1 - x.rx.first, priorGot := x.rx.got } }

/-- RR packets of at most 31 blocks each. -/
def rrPackets (ssrc : Nat) : Nat → List (List Byte) → List Byte
  | 0, _ => []
  | n + 1, l =>
    if l = [] then [] else rtcpBytes (min l.length 31) 201 (beBytes 4 ssrc ++ (l.take 31).flatten) ++ rrPackets ssrc n (l.drop 31)

/-- The compound of a leg (R108): an SR for each outbound stream that has sent since the last report, an RR otherwise, report blocks for
its inbound streams, and its CNAME. -/
def State.legReport (s : State) (leg : Nat) (l : Leg) : List Byte :=
  let outs := s.fwd.outs.filter fun o => o.2.leg = leg ∧ o.2.sentSince ∧ !o.2.gone
  let me := s.fwd.reporter leg
  let blocks := (s.fwd.ins.filter fun x => x.2.leg = leg ∧ !x.2.gone ∧ 0 < x.2.rx.got).map fun x => x.2.block s.hub.elapsed
  let srs := outs.flatMap fun o => rtcpBytes 0 200
    (beBytes 4 o.2.ssrc ++ beBytes 8 s.hub.ntpNow ++ beBytes 4 (s.srTs o.2) ++ beBytes 4 (o.2.pkts % 2 ^ 32) ++ beBytes 4 (o.2.octets % 2 ^ 32))
  (if srs = [] ∧ blocks = [] then rtcpBytes 0 201 (beBytes 4 me) else srs ++ rrPackets me blocks.length blocks) ++ sdesBytes me l.cname

/-- RTCP_INTERVAL_TIMER (R108): an ACTIVE leg sends its compound, at least half of RTCP_INTERVAL after the last. -/
def execRtcpIntervalTimer (leg : Nat) (s : State) : Host.Outcome State Fault Refusal :=
  .next (match kvGet leg s.fwd.legs with
    | some l =>
      if l.state = 1 ∧ pastMs s.hub.elapsed l.rtcpAt (s.fwd.key 3) 5 then
        let s1 : State := { s with fwd := { (s.fwd.setLeg leg { l with rtcpAt := some s.hub.elapsed }) with
          outs := s.fwd.outs.map fun o => if o.2.leg = leg then (o.1, { o.2 with sentSince := false }) else o
          ins := s.fwd.ins.map fun x => if x.2.leg = leg then (x.1, x.2.reported) else x } }
        s1.rtcpSend leg "rtcp" (s.legReport leg l)
      else s
    | none => s)

/-- One stream's part of congestion control feedback (RFC 8888): its packets from the first heard on, each with its arrival before the
report in 1/1024 s. -/
def ccfbBlock (now : Nat) (x : InStream) : List Byte :=
  match x.heard with
  | [] => []
  | (base, _, _) :: _ =>
    let n := x.heard.foldl (fun a h => max a ((h.1 + 65536 - base) % 65536 + 1)) 0
    let one := fun (k : Nat) => match x.heard.find? fun h => h.1 = (base + k) % 65536 with
      | some (_, at_, ecn) => 0x8000 + ecn * 0x2000 + min 0x1FFD ((now - at_) * 1024 / 1000000000)
      | none => 0
    beBytes 4 x.ssrc ++ beBytes 2 base ++ beBytes 2 n ++ padWord ((List.range n).flatMap fun k => beBytes 2 (one k))

/-- CCFB_INTERVAL_TIMER (R117): congestion control feedback for the leg's inbound streams, every CCFB_INTERVAL. -/
def execCcfbIntervalTimer (leg : Nat) (s : State) : Host.Outcome State Fault Refusal :=
  .next (match kvGet leg s.fwd.legs with
    | some l =>
      if pastMs s.hub.elapsed l.ccfbAt (s.fwd.key 4) 10 then
        let body := (s.fwd.ins.filter fun x => x.2.leg = leg ∧ !x.2.gone).flatMap fun x => ccfbBlock s.hub.elapsed x.2
        let s1 : State := { s with fwd := { (s.fwd.setLeg leg { l with ccfbAt := some s.hub.elapsed }) with
          ins := s.fwd.ins.map fun x => if x.2.leg = leg then (x.1, { x.2 with heard := [] }) else x } }
        s1.rtcpSend leg "rtcp" (rtcpBytes 11 205 (beBytes 4 (s.fwd.reporter leg) ++ body ++ beBytes 4 s.hub.ntpMid))
      else s
    | none => s)

/-- Is the NACK of a gap due (R121): NACK_WAIT after the loss, then every max(RTT, 20 ms)? -/
def State.nackDue (s : State) (leg : Nat) (g : Gap) : Bool :=
  let rtt := ((kvGet leg s.fwd.legs).map (·.cnt.rtt)).getD 0
  if g.tries = 0 then decide (g.at_ + 1000000 * s.fwd.key 8 ≤ s.hub.elapsed)
  else decide (g.last + max (1000 * rtt) 20000000 ≤ s.hub.elapsed)

/-- UPSTREAM_NACK_TIMER (R121): the gap of `seq` in an inbound stream is NACKed, up to NACK_TRIES times. -/
def execUpstreamNackTimer (stream seq : Nat) (s : State) : Host.Outcome State Fault Refusal :=
  .next (match kvGet stream s.fwd.ins with
    | some x =>
      match x.gaps.find? (·.seq = seq) with
      | some g =>
        if g.tries < s.fwd.key 9 ∧ s.nackDue x.leg g then
          let gaps := x.gaps.map fun (y : Gap) => if y.seq = seq then { y with tries := y.tries + 1, last := s.hub.elapsed } else y
          ({ s with fwd := s.fwd.setIn stream { x with gaps := gaps } } : State).feedback x.leg "rtcp" 1 205 x.ssrc (beBytes 2 seq ++ beBytes 2 0)
        else s
      | none => s
    | none => s)

/-- SWITCH_WAIT_EXPIRY (Table 6.7): a subscription UP_PENDING for SWITCH_WAIT asks once for TGT's stream. -/
def execSwitchWaitExpiry (sub : Nat) (s : State) : Host.Outcome State Fault Refusal :=
  .next (match kvGet sub s.fwd.subs with
    | some u =>
      if u.state = 3 ∧ !u.asked ∧ !u.gone ∧ u.upAt + 1000000 * s.fwd.key 7 ≤ s.hub.elapsed then
        (s.putSub sub { u with asked := true }).keyRequest (s.fwd.streamOf u.base u.tgtS)
      else s
    | none => s)

/-- ALLOC_INTERVAL_TIMER (R118): every ALLOC_INTERVAL the service allocates the leg's layers. -/
def execAllocIntervalTimer (leg : Nat) (s : State) : Host.Outcome State Fault Refusal :=
  .next (match kvGet leg s.fwd.legs with
    | some l =>
      if pastMs s.hub.elapsed l.allocAt (s.fwd.key 12) 10 then
        ({ s with fwd := s.fwd.setLeg leg { l with allocAt := some s.hub.elapsed } } : State).allocate leg
      else s
    | none => s)

end Sys2Proof.Machine
end

