-- ==== Sys2Proof/Machine/AudSvc.lean ====
section
/-!
DEFINITION. The audio service: gain targets, overrides and steps (R247–R249, R255), bindings (R244), channels (R253, R254,
R257), rooms (R255), large rooms (R256), statistics.
-/

namespace Sys2Proof.Machine

/-! ### Codes, steps and overrides (R245, R247, R249) -/

/-- The code a node has at a sample: that of its last step. -/
def codeAt (code smp : Nat) : List (Nat × Nat) → Nat
  | [] => code
  | (t, c) :: rest => if t ≤ smp then codeAt c smp rest else code

/-- The code now: after every step made. -/
def AudNode.now (n : AudNode) : Nat := codeAt n.code (2 ^ 62) n.steps

/-- The next code of a ramp from `cur` to `target` that started at `start` (R247). -/
def nextCode (cur target start : Nat) : Nat :=
  if cur < target then (if cur = 0 then max 1 (target - 168) else min target (cur + 24))
  else if target = 0 then (if cur ≤ max 1 (start - 192) + 24 then 0 else cur - 24)
  else max target (cur - 24)

/-- A new target at sample `smp` (R247): the ramp continues from the code in force. -/
def AudNode.aim (n : AudNode) (target smp : Nat) : AudNode :=
  if n.target = target then n
  else { n with target := target, start := n.now, due := if n.now = target then none else some smp }

/-- Apply the step that is due at sample `smp`. -/
def AudNode.step (n : AudNode) (smp : Nat) : AudNode :=
  let c := nextCode n.now n.target n.start
  { n with steps := n.steps ++ [(smp, c)], due := if c = n.target then none else some smp }

/-- The talker of place t, once its decode has played, and while it is not leaving. -/
def AudSt.holds (a : AudSt) (c : AudConf) (t : Nat) : Bool :=
  c.talkers.any (fun k => k.t == t && !k.leaving) &&
    ((kvGet (c.src + t) a.srcs).map (fun x => x.kind == 4 || ((kvGet (c.dec + t) a.decs).map (·.anchor.isSome)).getD false)).getD false

/-- Is node (k, j) held OFF (R249): by the room rules of R255, or in a large room (R256) as a talker's own, or as a source
without a talker? -/
def State.nodeOff (s : State) (k j : Nat) : Bool :=
  let ts := (s.aud.src j).tag
  let tk := (s.aud.snk k).tag
  (s.hub.get AUD.ROOM_CTL.SAME_ROOM_OFF == 1 && ts != 0 && ts == tk) ||
    (s.hub.get AUD.ROOM_CTL.ONE_PER_ROOM == 1 && ts != 0 && ts != tk && kvGet ts s.aud.voices != some j) ||
    s.aud.confs.any fun c =>
      decide (c.2.src ≤ j ∧ j < c.2.src + c.2.t ∧ c.2.snk ≤ k ∧ k ≤ c.2.snk + c.2.t) &&
        (decide (k - c.2.snk = j - c.2.src) || !s.aud.holds c.2 (j - c.2.src))

/-- Every node takes the target that its written code and the overrides give, at sample `smp`. -/
def State.retarget (s : State) (smp : Nat) : State :=
  { s with aud := { s.aud with nodes := s.aud.nodes.map fun e =>
      (e.1, e.2.aim (if s.nodeOff (e.1 / 2048) (e.1 % 2048) then 0 else e.2.want) smp) } }

/-- The sample of an override's instant: now. -/
def State.smpNow (s : State) : Nat := max (6 * s.fab.period) (sampleAt s.hub.time.total)

/-- Written codes come into force at sample `smp` (R247, R248). -/
def State.nodeSet (s : State) (smp : Nat) (l : List (Nat × Nat × Nat)) : State :=
  let a := l.foldl (fun (a : AudSt) e => a.setNode e.1 e.2.1 { (a.node e.1 e.2.1) with want := e.2.2 }) s.aud
  ({ s with aud := a } : State).retarget smp

/-- The sample of a source as read: poisoned or missing samples, and their whole block, read as zeros (R243). -/
def AudSrc.blockOf (x : AudSrc) (p : Nat) : List (Option (Option Int)) := (List.range 6).map fun i => kvGet (6 * p + i) x.buf
def AudSrc.readBlock (x : AudSrc) (p : Nat) : List Int :=
  let b := x.blockOf p
  if b.all fun v => (v.bind id).isSome then b.map fun v => (v.bind id).getD 0 else List.replicate 6 0

/-- Sample `smp` of the block being formed or the one before its start. -/
def AudSrc.at (x : AudSrc) (p smp : Nat) : Int := if smp < 6 * p then x.before else (x.readBlock p).getD (smp - 6 * p) 0

/-- A zero crossing at a sample (R247). -/
def crosses (before now : Int) : Bool := now == 0 || (decide (before < 0) != decide (now < 0))

/-- The sum of a sink's nodes at a sample, with 8 fraction bits (R245). -/
def State.nodeSum (s : State) (k p smp : Nat) : Int :=
  s.aud.nodes.foldl (fun a e =>
    let c := codeAt e.2.code smp e.2.steps
    if e.1 / 2048 ≠ k ∨ c = 0 then a
    else a + gainInt ((s.aud.src (e.1 % 2048)).at p smp * 256) ((c : Int) - 463)) 0

/-- ZC_MS in samples. -/
def Hub.zcSamples (h : Hub) : Nat := 48 * min (max (h.get AUD.CFG.ZC_MS) 1) 50

/-- Apply the due step of node (k, j), or of the sink's scaling without a source, at a sample. -/
def State.gainStep (s : State) (k : Nat) (j : Option Nat) (smp : Nat) : State :=
  match j with
  | some j => { s with aud := s.aud.setNode k j ((s.aud.node k j).step smp) }
  | none =>
    let x := s.aud.snk k
    let cur := codeAt x.att (2 ^ 62) x.steps
    let c := if cur < x.goal then min x.goal (cur + 24) else max x.goal (cur - 24)
    { s with aud := s.aud.setSnk k { x with steps := x.steps ++ [(smp, c)], due := if c = x.goal then none else some smp } }

/-- The sample from which a step of a node or of a sink's scaling is due. -/
def State.stepDue (s : State) (k : Nat) (j : Option Nat) : Option Nat :=
  match j with
  | some j => (kvGet (nodeKey k j) s.aud.nodes).bind (·.due)
  | none => (kvGet k s.aud.snks).bind (·.due)

/-- The last step made in the block being formed, as its sample (R247: a step comes after the one before it). -/
def State.lastStep (s : State) (k : Nat) (j : Option Nat) : Nat :=
  let l : List (Nat × Nat) := match j with
    | some j => (s.aud.node k j).steps
    | none => (s.aud.snk k).steps
  l.foldl (fun a e => max a e.1) 0

/-- GAIN_STEP_ZERO_CROSS (R247, R250): at a sample of the block being formed, after the step became due, where the node's
input, or the node sum for the scaling, crosses zero. -/
def execGainStepZeroCross (sink : Nat) (source : Option Nat) (sample : Nat) (s : State) : Host.Outcome State Fault Refusal :=
  let p := s.fab.period
  .next (match s.stepDue sink source with
    | some d =>
      let cross : Bool := match source with
        | some j => crosses ((s.aud.src j).at p (sample - 1)) ((s.aud.src j).at p sample)
        | none => crosses (if sample = 6 * p then (s.aud.snk sink).sum else s.nodeSum sink p (sample - 1)) (s.nodeSum sink p sample)
      if d ≤ sample ∧ 6 * p ≤ sample ∧ sample < 6 * p + 6 ∧ 1 ≤ sample ∧ cross ∧ sample < d + s.hub.zcSamples ∧ s.lastStep sink source < sample then s.gainStep sink source sample
      else s
    | none => s)

/-- GAIN_STEP_TIMEOUT (R247, R250): ZC_MS after a step became due it is applied at that sample. -/
def execGainStepTimeout (sink : Nat) (source : Option Nat) (s : State) : Host.Outcome State Fault Refusal :=
  .next (match s.stepDue sink source with
    | some d =>
      if d + s.hub.zcSamples < 6 * s.fab.period + 6 then s.gainStep sink source (max (6 * s.fab.period) (d + s.hub.zcSamples)) else s
    | none => s)

/-- AS_HOLD_EXPIRY (R250): the fall of active sources has held for AS_HOLD; the scaling moves to the lower attenuation. -/
def execAsHoldExpiry (sink : Nat) (s : State) : Host.Outcome State Fault Refusal :=
  let x := s.aud.snk sink
  .next (match x.low with
    | some (g, t) =>
      if t + s.hub.get AUD.CFG.AS_HOLD * 10000000 ≤ s.hub.elapsed then
        { s with aud := s.aud.setSnk sink { x with goal := g, low := none, due := if x.due.isSome then x.due else some s.smpNow } }
      else s
    | none => s)

/-! ### Bindings (R244) -/

/-- The refusal of a bind by command: IDs beyond the crosspoint, a source of a VIN, an object already bound, a core that is
absent; the kinds CODEC and VIN name no feeder a command can give (assumption 23). -/
def State.bindRefused (s : State) (id kind was core : Nat) (src : Bool) : Option Nat :=
  if s.hub.xptSize ≤ id then some 1
  else if src ∧ was = 2 then some 2
  else if kind = 0 ∨ 5 ≤ kind ∨ (kind = 2 ∧ !src) then none
  else if kind = 1 ∨ kind = 2 then some 4
  else if was ≠ 0 then some 2
  else if kind = 3 ∧ s.hub.unitCount 5 ≤ core then some 4
  else none

/-- KIND and REF as a binding keeps them. -/
def bindOf (b : List Byte) : Nat × Nat :=
  let k := bodyU8 b 2
  if k = 3 then (3, bodyU8 b 4 % 128) else if k = 4 then (4, bodyN b 4 2 % 2048 + 65536 * bodyN b 6 2) else (0, 0)

/-- AUD_SRC_BIND. -/
def execAudSrcBind (e : CmdEnv) (body : List Byte) (s : State) : Host.Outcome State Fault Refusal :=
  let n := bodyN body 0 2
  let x := s.aud.src n
  .next (match s.bindRefused n (bodyU8 body 2) x.kind (bodyU8 body 4 % 128) true with
    | some st => s.done e 0x0601 st []
    | none =>
      let r := bindOf body
      ({ s with aud := s.aud.setSrc n { x with kind := r.1, ref := r.2, buf := [] } } : State).done e 0x0601 0 [])

/-- AUD_SNK_BIND; FLAGS [0] sets AUTO. -/
def execAudSnkBind (e : CmdEnv) (body : List Byte) (s : State) : Host.Outcome State Fault Refusal :=
  let n := bodyN body 0 2
  let x := s.aud.snk n
  .next (match s.bindRefused n (bodyU8 body 2) x.kind (bodyU8 body 4 % 128) false with
    | some st => s.done e 0x0602 st []
    | none =>
      let r := bindOf body
      ({ s with aud := s.aud.setSnk n { x with kind := r.1, ref := r.2, auto := bodyU8 body 3 % 2 == 1 } } : State).done e 0x0602 0 [])

/-! ### Node changes (R248) -/

/-- The node changes of a body. -/
def nodeList (b : List Byte) : List (Nat × Nat × Nat) :=
  (List.range (bodyN b 0 2)).map fun i => (bodyN b (4 + 6 * i) 2, bodyN b (6 + 6 * i) 2, bodyN b (8 + 6 * i) 2 % 512)

/-- AUD_NODE_SET (R248): at the first boundary at least 4,096 hc after its acceptance; LATCHED, at its Latch. -/
def execAudNodeSet (e : CmdEnv) (body : List Byte) (s : State) : Host.Outcome State Fault Refusal :=
  let n := bodyN body 0 2
  .next (if n = 0 ∨ 1024 < n then s.done e 0x0603 4 []
    else if (nodeList body).any fun x => s.hub.xptSize ≤ x.1 ∨ s.hub.xptSize ≤ x.2.1 then s.done e 0x0603 1 []
    else if e.latched then s.hold e 0x0603 (.audNodeSet e body)
    else
      ({ s with aud := { s.aud with sets := s.aud.sets ++ [(s.hub.elapsed, nodeList body)] } } : State).done e 0x0603 0 [])

/-- A held AUD_NODE_SET comes into force at its Latch (R248). -/
def State.audChange (s : State) (i : Instr) : State :=
  match i with
  | .audNodeSet _ b => s.nodeSet (6 * s.fab.period) (nodeList b)
  | _ => s

/-! ### Channels (R253, R254, R257) -/

/-- Is a reference an AUDC unit of personality CODEC? -/
def State.codecUnit (s : State) (r : Nat) : Bool :=
  refType r == 6 && decide (refInst r < s.hub.unitCount 6) && (s.fab.persAt 6 (refInst r)).1 == 1

/-- Channels open on a unit. -/
def AudSt.decsOf (a : AudSt) (u : Nat) : Nat := a.decs.countP fun e => e.2.unit = u
def AudSt.encsOf (a : AudSt) (u : Nat) : Nat := a.encs.countP fun e => e.2.unit = u
def AudSt.aacsOf (a : AudSt) (u : Nat) : Nat := a.encs.countP fun e => e.2.unit = u ∧ e.2.codec = 5

/-- `AUD.AUDC_STAT` of a unit. -/
def State.audcStat (s : State) (u : Nat) : State :=
  { s with hub := (s.hub.set1 AUD.AUDC_STAT.DEC u (s.aud.decsOf u)).set1 AUD.AUDC_STAT.ENC u (s.aud.encsOf u) }

/-- An AUDC unit takes its personality in force (Table 12.4). -/
def State.audcSetup (s : State) (u : Nat) : State :=
  let code := (s.fab.persAt 6 u).1
  let was := s.hub.get1 AUD.AUDC_STAT.STATE u
  let h := s.hub.set1 AUD.AUDC_STAT.STATE u (if 1 < code then 2 else code)
  { s with hub := if 1 < code ∧ was ≠ 2 then h.raise { code := 0x0D08, detail := [u] } else h }

/-- Open a decode channel. -/
def State.decOpen (s : State) (c unit stream src jb : Nat) : State :=
  let d : AudDec := { unit := unit, stream := stream, source := src, jb := jb }
  ({ s with aud := { (s.aud.setSrc src { (s.aud.src src) with kind := 1, ref := c, buf := [] }) with decs := kvPut c d s.aud.decs } } : State).audcStat unit

/-- Samples of a frame (Table 12.7). -/
def AudEnc.n (x : AudEnc) : Nat :=
  match x.codec with
  | 1 => if x.ten then 480 else 960
  | 5 => 1024
  | 7 => 48
  | _ => 960

/-- Engine work of channels in hc per period (Table 12.6): a decode channel by the clock and kind of its stream, an encode channel by its
codec; and of a unit, with its grants of at most 512 hc. -/
def audDecodeHc (opus g711 : Bool) : Nat := if opus then 300 else if g711 then 60 else 150
def AudEnc.hc (x : AudEnc) : Nat :=
  match x.codec with
  | 1 => 1150
  | 2 => 40
  | 3 => 40
  | 4 => 180
  | 5 => 1800
  | _ => 30
def AudSt.encDemand (a : AudSt) (u : Nat) : Nat := (a.encs.filter fun e => e.2.unit = u).foldl (fun n e => n + e.2.hc) 0

/-- HBM bursts of a channel's coded data: one per 64 bytes stored and one per 64 bytes read. -/
def audBursts (bytes : Nat) : Nat := 2 * ceilDiv bytes 64

/-- Open an encode channel: its sinks are bound to codecs. -/
def State.encOpen (s : State) (c : Nat) (x : AudEnc) : State :=
  let bind := fun (a : AudSt) (n : Nat) => a.setSnk n { (a.snk n) with kind := 1, ref := 0 }
  let a := bind s.aud x.sink
  let a1 := if x.stereo then bind a (x.sink + 1) else a
  let first : Nat := ceilDiv s.smpNow x.n
  ({ s with aud := { a1 with encs := kvPut c { x with next := some first } a1.encs } } : State).audcStat x.unit

/-- Close a decode channel: its source is free and reads zeros. -/
def State.decClose (s : State) (c : Nat) : State :=
  match kvGet c s.aud.decs with
  | some d =>
    let x := s.aud.src d.source
    let a := if x.kind = 1 ∧ x.ref = c then s.aud.setSrc d.source { x with kind := 0, ref := 0, buf := [] } else s.aud
    ({ s with aud := { a with decs := kvDel c a.decs } } : State).audcStat d.unit
  | none => s

/-- Free a sink that no encode channel takes from. -/
def AudSt.freeSink (a : AudSt) (n : Nat) : AudSt :=
  if (a.snk n).kind ≠ 1 ∨ a.encs.any (fun e => e.2.sink = n ∨ (e.2.stereo ∧ e.2.sink + 1 = n)) then a
  else a.setSnk n { (a.snk n) with kind := 0 }

/-- Close an encode channel. -/
def State.encClose (s : State) (c : Nat) : State :=
  match kvGet c s.aud.encs with
  | some x =>
    let a := ({ s.aud with encs := kvDel c s.aud.encs } : AudSt).freeSink x.sink
    ({ s with aud := if x.stereo then a.freeSink (x.sink + 1) else a } : State).audcStat x.unit
  | none => s

/-- The refusal of AUD_DEC_OPEN. -/
def State.decRefused (s : State) (e : CmdEnv) (b : List Byte) : Option Nat :=
  let c := bodyN b 0 2
  let r := bodyN b 2 2
  let src := bodyN b 6 2
  if 2048 ≤ c ∨ s.hub.xptSize ≤ src then some 1
  else if kvHas c s.aud.decs ∨ (s.aud.src src).kind ≠ 0 then some 2
  else match kvGet (bodyN b 4 2) s.fwd.ins with
    | none => some 3
    | some x =>
      if !s.hub.reachesLeg e.fn x.leg then some 5
      else if x.gone then some 6
      else if !s.codecUnit r ∨ x.codec ≠ 5 ∨ 256 ≤ s.aud.decsOf (refInst r) then some 4
      else none

/-- AUD_DEC_OPEN (R254). -/
def execAudDecOpen (e : CmdEnv) (body : List Byte) (s : State) : Host.Outcome State Fault Refusal :=
  .next (match s.decRefused e body with
    | some st => s.done e 0x0604 st []
    | none => (s.decOpen (bodyN body 0 2) (refInst (bodyN body 2 2)) (bodyN body 4 2) (bodyN body 6 2)
        (min (max (bodyN body 8 2) 20) 200)).done e 0x0604 0 [])

/-- An encode channel as the body of AUD_ENC_OPEN describes it. -/
def encChanOf (b : List Byte) : AudEnc :=
  { unit := refInst (bodyN b 2 2), sink := bodyN b 4 2, codec := bodyU8 b 6, stereo := bodyU8 b 7 % 2 == 1, dtx := bodyU8 b 7 / 2 % 2 == 1
    fec := bodyU8 b 7 / 4 % 2 == 1, ten := bodyU8 b 7 / 8 % 2 == 1, kbps := bodyN b 8 2, dest := bodyU8 b 10, stream := bodyN b 12 2
    sync := bodyN b 14 4 }

/-- Does a destination suit a codec (Table 12.7)? -/
def AudEnc.destOk (x : AudEnc) : Bool :=
  match x.codec with
  | 1 => decide (x.dest ≤ 2)
  | 5 => x.dest == 2
  | 6 => x.dest == 2
  | 7 => x.dest == 0
  | _ => decide (1 ≤ x.codec ∧ x.codec ≤ 4 ∧ x.dest ≤ 1)

/-- The refusal of AUD_ENC_OPEN. -/
def State.encChanRefused (s : State) (e : CmdEnv) (b : List Byte) : Option Nat :=
  let c := bodyN b 0 2
  let x := encChanOf b
  let kinds := if x.stereo then [(s.aud.snk x.sink).kind, (s.aud.snk (x.sink + 1)).kind] else [(s.aud.snk x.sink).kind]
  if 1024 ≤ c ∨ s.hub.xptSize ≤ x.sink + (if x.stereo then 1 else 0) then some 1
  else if kvHas c s.aud.encs ∨ kinds.any (fun k => 1 < k) then some 2
  else if !s.codecUnit (bodyN b 2 2) ∨ x.codec = 0 ∨ 7 < x.codec ∨ 2 < x.dest ∨ !x.destOk then some 4
  else if 128 ≤ s.aud.encsOf x.unit ∨ (x.codec = 5 ∧ 32 ≤ s.aud.aacsOf x.unit) then some 4
  else if x.dest ≠ 0 then none
  else match kvGet x.stream s.fwd.outs with
    | none => some 3
    | some o =>
      if !s.hub.reachesLeg e.fn o.leg then some 5
      else if o.gone then some 6
      else if x.codec = 7 ∧ ((kvGet o.leg s.fwd.legs).map (·.kind)) ≠ some 1 then some 4
      else none

/-- AUD_ENC_OPEN (R257). -/
def execAudEncOpen (e : CmdEnv) (body : List Byte) (s : State) : Host.Outcome State Fault Refusal :=
  .next (match s.encChanRefused e body with
    | some st => s.done e 0x0605 st []
    | none => (s.encOpen (bodyN body 0 2) (encChanOf body)).done e 0x0605 0 [])

/-- AUD_CLOSE (R253): the channel closes at its next frame boundary. -/
def execAudClose (e : CmdEnv) (body : List Byte) (s : State) : Host.Outcome State Fault Refusal :=
  let c := bodyN body 2 2
  .next (if bodyU8 body 0 = 0 then
      match kvGet c s.aud.decs with
      | some d => ({ s with aud := { s.aud with decs := kvPut c { d with closing := some (max d.tail s.smpNow) } s.aud.decs } } : State).done e 0x0606 0 []
      | none => s.done e 0x0606 3 []
    else
      match kvGet c s.aud.encs with
      | some x => ({ s with aud := { s.aud with encs := kvPut c { x with closing := some (ceilDiv s.smpNow x.n * x.n) } s.aud.encs } } : State).done e 0x0606 0 []
      | none => s.done e 0x0606 3 [])

/-! ### Rooms (R255) -/

/-- Set room tags: (sink, ID, tag). -/
def State.audRoom (s : State) (l : List (Bool × Nat × Nat)) : State :=
  let a := l.foldl (fun (a : AudSt) e => if e.1 then a.setSnk e.2.1 { (a.snk e.2.1) with tag := e.2.2 }
    else a.setSrc e.2.1 { (a.src e.2.1) with tag := e.2.2 }) s.aud
  ({ s with aud := a } : State).retarget s.smpNow

/-- AUD_ROOM. -/
def execAudRoom (e : CmdEnv) (body : List Byte) (s : State) : Host.Outcome State Fault Refusal :=
  let n := bodyN body 0 2
  let l := (List.range n).map fun i => (decide (32768 ≤ bodyN body (4 + 4 * i) 2), bodyN body (4 + 4 * i) 2 % 2048, bodyN body (6 + 4 * i) 2)
  .next (if n = 0 ∨ 1024 < n then s.done e 0x0609 4 []
    else if l.any fun x => s.hub.xptSize ≤ x.2.1 then s.done e 0x0609 1 []
    else (s.audRoom l).done e 0x0609 0 [])

/-- Is a source active (R250): the RMS of its last 480 samples above the gate? -/
def State.active (s : State) (x : AudSrc) : Bool :=
  let gate := min (s.hub.get AUD.CFG.GATE) 127
  let sum := x.squares.foldl (· + ·) 0
  decide ((480 * 2 ^ 46) ^ 10 < sum ^ 10 * 10 ^ gate)

/-- The voice of a tag after 100 ms: the loudest active source, where it is at least 6 dB louder than the present one. -/
def State.voiceOf (s : State) (tag : Nat) : Option Nat :=
  let best := s.aud.srcs.foldl (fun (a : Option (Nat × Nat)) e =>
    if e.2.tag ≠ tag ∨ !s.active e.2 then a
    else match a with
      | some (_, r) => if r < e.2.room then some (e.1, e.2.room) else a
      | none => some (e.1, e.2.room)) none
  match best, kvGet tag s.aud.voices with
  | some (j, r), some v => if 10 ^ 3 * (s.aud.src v).room ^ 5 ≤ r ^ 5 then some j else some v
  | some (j, _), none => some j
  | none, v => v

/-- ONE_PER_ROOM_TIMER (R255): every 100 ms. -/
def execOnePerRoomTimer (s : State) : Host.Outcome State Fault Refusal :=
  let tags := ((s.aud.srcs.map (·.2.tag)).filter (· ≠ 0)).eraseDups
  let voices := tags.foldl (fun (m : List (Nat × Nat)) t => match s.voiceOf t with
    | some j => kvPut t j m
    | none => m) []
  .next (if !pastMs s.hub.elapsed s.aud.roomAt 100 10 then s
    else ({ s with aud := { s.aud with
      voices := voices
      roomAt := some s.hub.elapsed
      srcs := s.aud.srcs.map fun e => (e.1, { e.2 with room := 0 }) } } : State).retarget s.smpNow)

/-! ### Statistics -/

/-- AUD_STATS, as of the last publication. -/
def execAudStats (e : CmdEnv) (body : List Byte) (s : State) : Host.Outcome State Fault Refusal :=
  let c := bodyN body 2 2
  let r : Option AudCnt := if bodyU8 body 0 = 0 then (kvGet c s.aud.decs).map (·.pub) else (kvGet c s.aud.encs).map (·.pub)
  .next (match r with
    | some x => s.done e 0x060A 0 (leBytes 8 x.frames ++ leBytes 8 x.plc ++ leBytes 8 x.late ++ leBytes 8 x.reanchor ++
        leBytes 8 (x.depth * 125000 / 6))
    | none => s.done e 0x060A 3 [])

/-- At a publication every channel's statistics are taken (R89). -/
def AudSt.publish (a : AudSt) : AudSt :=
  { a with
    decs := a.decs.map fun e => (e.1, { e.2 with pub := e.2.cnt })
    encs := a.encs.map fun e => (e.1, { e.2 with pub := e.2.cnt }) }

end Sys2Proof.Machine
end

