-- ==== Sys2Proof/Machine/DblBase.lean ====
section
/-!
DEFINITION. What other blocks share with the Doorbell: which legs may carry a beacon and when it is on air (R260, R263,
R264), and which dwells go on (R265, R268).
-/

namespace Sys2Proof.Machine

/-- The leg an encode channel with DEST LEG sends to. -/
def State.encLeg (s : State) (x : AudEnc) : Option Nat := if x.dest = 0 then (kvGet x.stream s.fwd.outs).map (·.leg) else none

/-- The Opus encode channels with DEST LEG of a leg (R264). -/
def State.beaconChans (s : State) (leg : Nat) : List AudEnc :=
  (kvVals s.aud.encs).filter fun x => x.codec == 1 && s.encLeg x == some leg

/-- The transmitting legs whose beacon sink `k` carries (R260): it feeds an encode channel of theirs with DEST LEG, and none of DEST GROUP or
TSO or of CODEC 5–7. -/
def State.beaconLegs (s : State) (k : Nat) : List (Nat × DblTx) :=
  let feeds := (kvVals s.aud.encs).filter fun x => x.sink == k || (x.stereo && x.sink + 1 == k)
  if feeds.all fun x => x.dest == 0 && decide (x.codec ≤ 4) then
    s.dbl.tx.filter fun t => feeds.any fun x => s.encLeg x == some t.1
  else []

/-- The beacons of a sink at a global sample. -/
def State.beaconAt (s : State) (k smp : Nat) : Int :=
  (s.beaconLegs k).foldl (fun a t => a + t.2.wave (s.hub.get DBL.CTL.LEVEL) smp) 0

/-- A receiver takes samples (R266). -/
def State.hears (s : State) (d : DblDwell) (l : List Int) : DblDwell :=
  let d1 := l.foldl DblDwell.hear d
  let mu := fun (f : Fld) => max (s.hub.get f) 1
  { d1 with recep := d1.recep.map fun r =>
      { r with eq := r.eq.map fun e => e.run d1 (mu DBL.EQ_CTL.MU_FF) (mu DBL.EQ_CTL.MU_FB) r.header 184 } }

/-- TX_LEGS and RX_ACTIVE. -/
def State.dblStat (s : State) : State :=
  { s with hub := (s.hub.set DBL.STATUS.TX_LEGS s.dbl.tx.length).set DBL.STATUS.RX_ACTIVE s.dbl.dwells.length }

/-- Transmitting legs that have lost eligibility are cut and paused (R264). -/
def State.dblCheck (s : State) : State :=
  let lost := s.dbl.tx.filter fun e => !e.2.paused && !e.2.stop && (s.beaconChans e.1).isEmpty
  lost.foldl (fun a e =>
    { a with
      hub := a.hub.raise { code := 0x0E05, detail := [e.1] }
      dbl := { a.dbl with tx := kvPut e.1 { (e.2.cut a.hub.elapsed a.hub.sampleNow) with paused := true } a.dbl.tx } }) s

/-- Stopped transmissions whose frame has ended are gone. -/
def State.dblEnded (s : State) : State :=
  ({ s with dbl := { s.dbl with tx := s.dbl.tx.filter fun e => !e.2.stop || e.2.onAir s.hub.elapsed } } : State).dblStat

/-- The open Opus decode channels of a leg, as (channel, source): those of its streams with the clock of Opus. -/
def State.opusChans (s : State) (leg : Nat) : List (Nat × Nat) :=
  s.aud.decs.filterMap fun e => match kvGet e.2.stream s.fwd.ins with
    | some x => if x.leg = leg ∧ x.clock = 48000 then some (e.1, e.2.source) else none
    | none => none

/-- Receivers of a core in the survey sash (R265). -/
def State.receivers (s : State) (core : Nat) : Nat :=
  min 96 ((s.fab.amount 0 (mkRef 5 core) (s.hub.get DBL.CTL.SASH) - 2048) / 2000)

/-- Does a core run its receivers: it belongs to the survey sash, which an emergency does not hold, and it is neither halted nor
faulted (R268, R288)? -/
def State.dblRuns (s : State) (core : Nat) : Bool :=
  let sash := s.hub.get DBL.CTL.SASH
  (s.fab.users 5 core).contains sash && s.hub.get1 GLB.SASH_STAT.EMERG_HELD sash == 0 &&
    (let st := s.hub.get1 HNG.CORE_STAT.STATE core
     1 ≤ st && st ≤ 3)

/-- End the dwells of some receivers; the legs dwell again outside SURVEY_INT where `again` (R268). -/
def State.dwellsEnd (s : State) (keys : List Nat) (again : Bool) : State :=
  let legs := (s.dbl.dwells.filter fun e => keys.contains e.1).map (·.2.leg)
  ({ s with dbl := { s.dbl with
      dwells := s.dbl.dwells.filter fun e => !keys.contains e.1
      survey := if again then s.dbl.survey.map fun e => if legs.contains e.1 then (e.1, { e.2 with last := none }) else e else s.dbl.survey } } : State).dblStat

/-- Dwells that cannot go on end (R268, R288): of legs without an open Opus decode channel, and of receivers that do not run. -/
def State.dwellCheck (s : State) : State :=
  let gone := (s.dbl.dwells.filter fun e => (s.opusChans e.2.leg).isEmpty).map (·.1)
  let stop := (s.dbl.dwells.filter fun e => !s.dblRuns (e.1 / 128)).map (·.1)
  (s.dwellsEnd gone false).dwellsEnd stop true

end Sys2Proof.Machine
end

