-- ==== Sys2Proof/Machine/Dec.lean ====
section
/-!
DEFINITION. The DEC units (chapter 9): contexts and picture slots (R181, R185), reassembly (R182), decoding with the clean
map and concealment (R183–R189), descriptors (R186), the decode service (R190).
-/

namespace Sys2Proof.Machine

/-- The key of a context, its sash and stream. -/
def ctxKey (sash stream : Nat) : Nat := 65536 * sash + stream

def State.setCtx (s : State) (sash stream : Nat) (c : DecCtx) : State :=
  { s with dec := { s.dec with ctxs := kvPut (ctxKey sash stream) c s.dec.ctxs } }

/-- Count in a decoder error counter. -/
def State.decErr (s : State) (f : Fld) (u : Nat) : State := { s with hub := s.hub.err f u 0x0908 u }

/-- A decoder event of at most one record per second (R204). -/
def State.decRaise (s : State) (code u sash stream : Nat) : State :=
  { s with hub := s.hub.raiseRl { code := code, inst := u, sash := sash, detail := [stream] } }

/-! ### Slots (R185) -/

/-- Bytes of a slot. -/
def slotSize (w h : Nat) : Nat := ceilDiv (w * h * 4) 4096 * 4096

/-- The parts of a partition that slots take: (offset, size). -/
def State.slotsIn (s : State) (part : Nat) : List (Nat × Nat) :=
  (s.dec.ctxs.filter (·.2.part = part)).flatMap (fun c => c.2.slots.map fun t => (t.off, slotSize c.2.maxW c.2.maxH)) ++
    (s.dec.orphans.filter (·.part = part)).map fun o => (o.slot.off, o.size)

/-- The lowest offset at or above `at_` where `size` bytes are free of the taken parts, which are in rising order. -/
def firstFit (size at_ : Nat) : List (Nat × Nat) → Nat
  | [] => at_
  | (o, n) :: t => if at_ + size ≤ o then at_ else firstFit size (max at_ (o + n)) t

/-- Take `n` slots of a size, lowest offsets first; none where the partition cannot hold them. -/
def takeSlots (size limit : Nat) (taken : List (Nat × Nat)) : Nat → Option (List Nat)
  | 0 => some []
  | n + 1 =>
    let sorted := taken.mergeSort fun a b => a.1 ≤ b.1
    let o := firstFit size 0 sorted
    if limit < o + size then none
    else (takeSlots size limit ((o, size) :: taken) n).map (o :: ·)

/-- Free slot of a context: not a reference, not held. -/
def DecCtx.free (c : DecCtx) : Option Nat := c.slots.findIdx? fun t => !t.ref ∧ t.held = 0

/-- A slot's use after a change: it is empty when neither reference nor held. -/
def DecSlot.settle (t : DecSlot) : DecSlot := if t.ref ∨ 0 < t.held then t else { t with used := false, dirty := [] }

/-- Remove a context (Table 9.4): its held slots wait for their consumers. -/
def State.ctxRemove (s : State) (sash stream : Nat) (c : DecCtx) : State :=
  { s with
    hub := s.hub.set1 DEC.STATUS.CONTEXTS c.unit (s.hub.get1 DEC.STATUS.CONTEXTS c.unit - 1)
    dec := { s.dec with
      ctxs := kvDel (ctxKey sash stream) s.dec.ctxs
      orphans := s.dec.orphans ++ (c.slots.filter (0 < ·.held)).map fun t => ⟨c.part, slotSize c.maxW c.maxH, { t with ref := false }⟩ } }

/-- Does the unit run its personality (R180)? -/
def State.decOn (s : State) (u : Nat) : Bool := (s.fab.persAt 2 u).1 == 1

/-- PICTURE_RELEASE (R185): one consumer gives up the picture at an offset of a partition. -/
def State.pictureRelease (s : State) (part off : Nat) : State :=
  let drop := fun (t : DecSlot) => if t.off = off then ({ t with held := t.held - 1 } : DecSlot).settle else t
  let ctxs := s.dec.ctxs.map fun c => if c.2.part = part then (c.1, { c.2 with slots := c.2.slots.map drop }) else c
  let orphans := (s.dec.orphans.map fun o => if o.part = part then { o with slot := drop o.slot } else o).filter
    fun o => 0 < o.slot.held
  let give := fun (u : Nat × CmpUnit) =>
    let b := (s.fab.persAt 3 u.1).2
    let size := slotSize (outSize (bodyN b 0 2) 8192) (outSize (bodyN b 2 2) 4320)
    if bodyU8 b 6 = 1 ∧ bodyN b 16 2 % 4096 = part ∧ off % size = 0 ∧ off / size < 3 then
      (u.1, { u.2 with held := kvMod (off / size) (· - 1) u.2.held })
    else u
  { s with dec := { ctxs := ctxs, orphans := orphans }, cmp := { s.cmp with units := s.cmp.units.map give } }

def execPictureRelease (part off : Nat) (s : State) : Host.Outcome State Fault Refusal := .next (s.pictureRelease part off)

/-! ### Reassembly (R182) -/

/-- Put a packet in sequence order from `next`. -/
def insertPkt (next : Nat) (p : DecPkt) : List DecPkt → List DecPkt
  | [] => [p]
  | q :: t =>
    if q.seq = p.seq then q :: t
    else if (p.seq + 65536 - next) % 65536 < (q.seq + 65536 - next) % 65536 then p :: q :: t
    else q :: insertPkt next p t

/-- The packets from `next` to one that ends its frame, when there is no gap in them. -/
def headRun (next : Nat) : List DecPkt → Option (List DecPkt)
  | [] => none
  | p :: t =>
    if p.seq ≠ next then none
    else if p.end_ then some [p]
    else (headRun ((next + 1) % 65536) t).map (p :: ·)

/-- The packets of the frame at the head, when it is complete: from its first to its last without a gap. -/
def DecCtx.head (c : DecCtx) : Option (List DecPkt) :=
  match c.next.bind fun n => headRun n c.pkts with
  | some (f :: t) => if f.start then some (f :: t) else none
  | _ => none

/-! ### Decoding -/

/-- A slot holds the reference picture of an identity. -/
def DecSlot.holds (t : DecSlot) (id : Nat) : Bool := t.used && t.ref && t.id == id

/-- What a reference that was never received is substituted by (R188): the most recent decoded picture of the same spatial layer at that
layer's size; none stands for mid-grey. The bytes of a decoded picture are those its prediction from this gives. -/
def DecCtx.substitute (c : DecCtx) (layer : Nat) : Option DecSlot :=
  (c.slots.filter fun t => t.used && t.layer == layer).foldl (fun (a : Option DecSlot) t => match a with
    | some b => if b.order ≤ t.order then some t else a
    | none => some t) none

/-- Mid-grey at a bit depth. -/
def midGrey (depth : Nat) : Nat := 2 ^ (depth - 1)

/-- The profiles, chroma formats and bit depths that the unit decodes of a stream's CODEC (R181; for AV1 High the one the encoders code
of it, assumption 118). -/
def decAllows (codec : Nat) (p : DecProfile) (chroma depth : Nat) : Bool :=
  let d := depth == 8 || depth == 10
  match p with
  | .av1Main | .av1High => codec == 1 && chroma == 0 && d
  | .av1Pro => codec == 1 && chroma == 1 && depth == 10
  | .hevcMain => codec == 3 && chroma == 0 && depth == 8
  | .hevcMain10 => codec == 3 && chroma == 0 && d
  | .hevc422 => codec == 3 && chroma ≤ 1 && d
  | .vvcMain10 => codec == 4 && chroma == 0 && d
  | .vvc444 => codec == 4 && chroma ≤ 1 && d
  | .h264Cb | .h264Main | .h264High => codec == 2 && chroma == 0 && depth == 8
  | .other => false

/-- FORMAT of a picture (Table 8.2). -/
def picFmt (p : DecPicture) : Nat := p.chroma % 4 + (if 8 < p.depth then 4 else 0)

/-- The dirty blocks of a picture (R187), block by block in coding order: one that reads a reference never received is dirty (R188). -/
def dirtyBlocks (slots : List DecSlot) (k : Nat) (dirty : List Nat) : List DecBlock → List Nat
  | [] => dirty
  | b :: t =>
    let bad := b.poison || b.own.any (fun j => dirty.contains j) ||
      b.refs.any fun r => ((slots.find? (·.holds r.1)).map fun (x : DecSlot) => x.dirty.contains r.2).getD true
    dirtyBlocks slots (k + 1) (if bad then dirty ++ [k] else dirty) t

/-- The limits of R181 and R16. -/
def State.decLimit (s : State) (c : DecCtx) : Nat × Nat :=
  if s.hub.get GLB.VARIANT.LINE = 3 then (min c.maxW 640, min c.maxH 360) else (min c.maxW 8192, min c.maxH 4320)

/-- Bytes per sample line (R185). -/
def picPitch (w : Nat) (ten : Bool) : Nat := ceilDiv (w * (if ten then 2 else 1)) 64 * 64

/-- The 32 bytes of Table 9.3. -/
def picDescriptor (part flags w h off ns fmt pane stream : Nat) : List Byte :=
  leBytes 2 part ++ leBytes 2 flags ++ leBytes 4 (picPitch w (decide (fmt / 4 % 2 = 1))) ++ leBytes 8 off ++
    leBytes 4 (ns % 1000000000) ++ leBytes 4 (ns / 1000000000) ++ leBytes 2 w ++ leBytes 2 h ++ leBytes 1 fmt ++
    leBytes 1 pane ++ leBytes 2 stream

/-- Capture time of a frame in ns (Table 9.3): the SR mapping of R114, else the arrival of its first packet. -/
def State.picTime (s : State) (stream : Nat) (p : DecPkt) : Nat :=
  match kvGet stream s.fwd.ins with
  | some x => match x.sr with
    | some _ => (capture x p.ts 0 * 1000000000 / ((x.clock : Int) * 2 ^ 32)).toNat
    | none => p.ns
  | none => p.ns

/-- The picture of a context's temporal unit is output (R183, R186): its descriptor goes to the consumers of OUT_PORT, which hold the
slot. A clean one ends concealment (R188). -/
def State.decOutput (s : State) (sash stream : Nat) : State :=
  match kvGet (ctxKey sash stream) s.dec.ctxs with
  | none => s
  | some c => match c.tu with
    | none => s
    | some t =>
      let slot := (c.slots[t.slot]?).getD { off := 0 }
      let clean := slot.dirty.isEmpty
      let back := decide (c.cnt.state = 1) && clean
      let src := mkRef 2 c.unit + c.out
      let flags := (if clean then 0 else 2) + (if t.unchanged then 4 else 0) + (if t.key || back then 8 else 0) + (if t.poison then 16 else 0)
      let desc := picDescriptor c.part flags slot.w slot.h slot.off t.ns t.fmt c.pane stream
      let s1 := if back then s.decRaise 0x0902 c.unit sash stream else s
      let h := s1.hub.stat DEC.PICS_LO.COUNT c.unit 1
      let s2 : State := { s1 with hub := h.emits (s1.fab.send sash src "picture" (desc.map BitVec.toNat) t.poison) }
      let s3 := if clean then s2 else s2.decErr DEC.CONCEALED.COUNT c.unit
      let give := fun (x : DecSlot) => ({ x with held := x.held - 1 + (s.fab.dests sash src).length } : DecSlot).settle
      s3.setCtx sash stream { c with
        tu := none, slots := c.slots.modify t.slot give
        cnt := { c.cnt with
          state := if back then 0 else c.cnt.state, pics := c.cnt.pics + 1, concealed := c.cnt.concealed + (if clean then 0 else 1)
          w := slot.w, h := slot.h } }

/-- A CLOSING context is removed at a frame boundary (Table 9.4), once its temporal unit's picture is out. -/
def State.ctxClose (s : State) (sash stream : Nat) : State :=
  let s1 := s.decOutput sash stream
  match kvGet (ctxKey sash stream) s1.dec.ctxs with
  | some c => s1.ctxRemove sash stream c
  | none => s1

/-- DEC_PACKET_RECEIVE (R182): a packet is buffered; one that would overflow 4 MiB is dropped and is lost. A context that is
CLOSING is removed at the next frame's first packet. A unit that runs no personality takes nothing (R180). -/
def execDecPacketReceive (sash stream : Nat) (p : DecIn) (s : State) : Host.Outcome State Fault Refusal :=
  .next (match kvGet (ctxKey sash stream) s.dec.ctxs with
    | none => s
    | some c =>
      let next := c.next.getD p.seq
      let held := c.pkts.foldl (fun a q => a + q.len) 0
      if c.cnt.state = 4 ∧ p.start then s.ctxClose sash stream
      else if !s.decOn c.unit then s
      else if laterThan 16 p.seq next then s
      else if 4194304 < held + p.len then (s.decErr DEC.IN_DROP.COUNT c.unit).decRaise 0x0905 c.unit sash stream
      else
        let q : DecPkt := ⟨p.seq, p.ts, p.len, p.start, p.end_, p.m, s.hub.elapsed, s.hub.time.total⟩
        s.setCtx sash stream { c with next := some next, pane := p.pane, pkts := insertPkt next q c.pkts })

/-- WAIT_MS of a unit (Table 9.2). -/
def State.decWait (s : State) (u : Nat) : Nat :=
  let v := bodyN (s.fab.persAt 2 u).2 2 2
  if v = 0 then 40 else min v 500

/-- The frame at the head is lost: what arrived of it is discarded and decoding goes on behind it; none while no later frame
has arrived. `head` is the timestamp of a head frame of which something arrived. -/
def DecCtx.loseHead (c : DecCtx) : Option (DecCtx × Nat) :=
  match c.pkts with
  | [] => none
  | p :: _ =>
    if c.next ≠ some p.seq ∧ p.start then some ({ c with next := some p.seq }, p.at_)
    else
      let mine := c.pkts.takeWhile (·.ts = p.ts)
      match c.pkts.drop mine.length with
      | [] => none
      | q :: rest =>
        let next := if q.start then q.seq else ((mine.getLast?.map (·.seq)).getD p.seq + 1) % 65536
        some ({ c with next := some next, pkts := q :: rest }, q.at_)

/-- DEC_FRAME_LOST_TIMER (R182): WAIT_MS have passed since the first packet of a later frame, and the gap is open. -/
def execDecFrameLostTimer (sash stream : Nat) (s : State) : Host.Outcome State Fault Refusal :=
  .next (match kvGet (ctxKey sash stream) s.dec.ctxs with
    | none => s
    | some c =>
      match c.next, c.loseHead with
      | some _, some (d, at_) =>
        if c.head.isSome ∨ s.hub.elapsed < at_ + 1000000 * s.decWait c.unit then s
        else
          let d1 : DecCtx := { d with cnt := { d.cnt with lost := d.cnt.lost + 1 } }
          let s1 := s.decErr DEC.LOST.COUNT c.unit
          let s2 := s1.setCtx sash stream d1
          if c.cnt.state = 4 then s2.ctxClose sash stream else s2
      | _, _ => s)

/-- A frame that is not decoded (R184): its state is entered with an event once. -/
def State.decSkip (s : State) (sash stream : Nat) (c : DecCtx) (p : DecPicture) (big : Bool) : State :=
  let st := if big then 2 else 3
  let s1 := s.decErr (if big then DEC.TOO_BIG.COUNT else DEC.UNSUPP.COUNT) c.unit
  let ev : Ev := { code := if big then 0x0903 else 0x0904, inst := c.unit, sash := sash, detail := if big then [stream, p.w, p.h] else [] }
  let s2 : State := if c.cnt.state = st then s1 else { s1 with hub := s1.hub.raise ev }
  s2.setCtx sash stream { c with cnt := { c.cnt with state := if c.cnt.state = 4 then 4 else st } }

/-- A picture decoded into slot `k` (R183, R186–R189). Of the pictures a temporal unit shows, that of the highest spatial layer waits to
be output. -/
def State.decPicture (s : State) (sash stream : Nat) (c : DecCtx) (p : DecPicture) (first : DecPkt) (k : Nat) : State :=
  let slot := (c.slots[k]?).getD { off := 0 }
  let dirty := dirtyBlocks c.slots 0 [] p.blocks
  let poison := p.blocks.any (·.poison)
  let missing := p.refs.any fun i => !c.slots.any (·.holds i)
  let bad := missing || poison
  let s0 : State := match s.fab.part c.part with
    | some q => s.partWrite q slot.off p.data
    | none => s
  let s1 := if poison then (s0.decErr DEC.POISON.COUNT c.unit).decRaise 0x0906 c.unit sash stream else s0
  let enter := bad ∧ (c.cnt.state = 0 ∨ c.cnt.state = 2 ∨ c.cnt.state = 3)
  let s2 := if enter then (s1.decErr DEC.REF_MISS.COUNT c.unit).decRaise 0x0901 c.unit sash stream else s1
  let s3 := if bad then s2.keyRequest stream else s2
  let top := p.shown && (match c.tu with
    | some t => decide (((c.slots[t.slot]?).map DecSlot.layer).getD 0 ≤ p.layer)
    | none => true)
  let mine : DecTu :=
    { ts := first.ts, slot := k, key := p.key, unchanged := p.unchanged, poison := poison, fmt := picFmt p, ns := s.picTime stream first }
  let slots := (List.range c.slots.length).map fun i =>
    let t := (c.slots[i]?).getD slot
    let free := if top ∧ c.tu.any (fun x => x.slot = i) then 1 else 0
    if i = k then
      ({ t with used := true, id := p.id, layer := p.layer, order := c.order, w := p.w, h := p.h, dirty := dirty, ref := p.keepSelf
                held := if top then 1 else 0 } : DecSlot).settle
    else ({ t with ref := t.ref && p.keep.contains t.id, held := t.held - free } : DecSlot).settle
  s3.setCtx sash stream { c with
    slots := slots, order := c.order + 1, tu := if top then some mine else c.tu
    cnt := { c.cnt with state := if c.cnt.state = 4 then 4 else if bad ∨ c.cnt.state = 1 then 1 else 0 } }

/-- The complete frame at the head is decoded when a slot is free, else it waits (R183). The picture of the temporal unit before it is
output first; its own is output once the unit's last packet, with M = 1, has been decoded. -/
def State.decFrame (s0 : State) (sash stream : Nat) (p : DecPicture) : State :=
  match kvGet (ctxKey sash stream) s0.dec.ctxs with
    | none => s0
    | some c0 =>
      match c0.head with
      | none => s0
      | some [] => s0
      | some (f :: rest) =>
        if !s0.decOn c0.unit then s0
        else
        let s := if c0.tu.any (fun t => t.ts ≠ f.ts) then s0.decOutput sash stream else s0
        let c := (kvGet (ctxKey sash stream) s.dec.ctxs).getD c0
        let codec := ((kvGet stream s.fwd.ins).map (·.codec)).getD 0
        let ok := decAllows codec p.profile p.chroma p.depth
        let lim := s.decLimit c
        let big := decide (lim.1 < p.w ∨ lim.2 < p.h)
        let last := (rest.getLast?).getD f
        let c1 : DecCtx := { c with next := some ((f.seq + rest.length + 1) % 65536), pkts := c.pkts.drop (rest.length + 1) }
        let after := fun (t : State) =>
          let t1 := if last.m then t.decOutput sash stream else t
          if c.cnt.state = 4 then t1.ctxClose sash stream else t1
        if big ∨ !ok then after (s.decSkip sash stream c1 p big)
        else if (c.cnt.state = 2 ∨ c.cnt.state = 3) ∧ !p.key then after (s.decSkip sash stream c1 p (c.cnt.state == 2))
        else match c.free with
          | none => s
          | some k => after (s.decPicture sash stream c1 p f k)

/-! ### Costs (R190) -/

/-- A DEC unit's demand in 10^−3 hc for a picture of so many luma samples from so many coded bits, concealed or not. -/
def decDemand (samples bits : Nat) (v422 : Bool) : Nat := samples * (if v422 then 798 else 600) + 20 * bits

/-- Its HBM demand in hundredths of a byte. -/
def decHbm (samples bytes : Nat) (v422 : Bool) : Nat := samples * (if v422 then 532 else 400) + 100 * bytes

/-! ### The decode service (Table 9.7) -/

/-- DEC_OPEN (R181, R185). -/
def execDecOpen (e : CmdEnv) (body : List Byte) (s : State) : Host.Outcome State Fault Refusal :=
  let sash := bodyN body 0 2
  let ref := bodyN body 2 2
  let u := refInst ref
  let stream := bodyN body 4 2
  let n := min (max (bodyU8 body 7) 2) 16
  let w := bodyN body 8 2
  let h := bodyN body 10 2
  let part := bodyN (s.fab.persAt 2 u).2 0 2 % 4096
  .next (if !(s.fab.sashes.any (·.id = sash)) then s.done e 0x0401 3 []
    else if !s.hub.reachesSash e.fn sash then s.done e 0x0401 5 []
    else match kvGet stream s.fwd.ins with
      | none => s.done e 0x0401 3 []
      | some x =>
        if kvHas (ctxKey sash stream) s.dec.ctxs then s.done e 0x0401 2 []
        else if refType ref ≠ 2 ∨ !(s.fab.unitsOf sash 2).contains u ∨ !(1 ≤ x.codec ∧ x.codec ≤ 4) ∨
            512 ≤ (s.dec.ctxs.filter (·.2.unit = u)).length then s.done e 0x0401 4 []
        else match (s.fab.part part).bind fun q => takeSlots (slotSize w h) q.size (s.slotsIn part) n with
          | none => s.done e 0x0401 4 []
          | some offs =>
            let c : DecCtx :=
              { unit := u, out := if bodyU8 body 6 ≤ 7 then bodyU8 body 6 else 0, maxW := w, maxH := h, part := part
                slots := offs.map fun o => { off := o } }
            let s1 := s.setCtx sash stream c
            ({ s1 with hub := s1.hub.set1 DEC.STATUS.CONTEXTS u (s1.hub.get1 DEC.STATUS.CONTEXTS u + 1) } : State).done e 0x0401 0 [])

/-- DEC_CLOSE (Table 9.4). -/
def execDecClose (e : CmdEnv) (body : List Byte) (s : State) : Host.Outcome State Fault Refusal :=
  let sash := bodyN body 0 2
  let stream := bodyN body 2 2
  .next (match kvGet (ctxKey sash stream) s.dec.ctxs with
    | none => s.done e 0x0402 3 []
    | some c =>
      if !s.hub.reachesSash e.fn sash then s.done e 0x0402 5 []
      else (s.setCtx sash stream { c with cnt := { c.cnt with state := 4 } }).done e 0x0402 0 [])

/-- DEC_STATS, as of the last publication. -/
def execDecStats (e : CmdEnv) (body : List Byte) (s : State) : Host.Outcome State Fault Refusal :=
  let sash := bodyN body 0 2
  .next (match kvGet (ctxKey sash (bodyN body 2 2)) s.dec.ctxs with
    | none => s.done e 0x0403 3 []
    | some c =>
      if !s.hub.reachesSash e.fn sash then s.done e 0x0403 5 []
      else s.done e 0x0403 0 (leBytes 4 c.pub.state ++ leBytes 8 c.pub.pics ++ leBytes 4 c.pub.concealed ++
        leBytes 4 c.pub.lost ++ leBytes 2 c.pub.w ++ leBytes 2 c.pub.h))

/-- At a publication the statistics of every context are taken (R89). -/
def DecSt.publish (d : DecSt) : DecSt := { d with ctxs := d.ctxs.map fun c => (c.1, { c.2 with pub := c.2.cnt }) }

/-- A unit's status under its personality (R180). -/
def State.decSetup (s : State) (u : Nat) : State :=
  let code := (s.fab.persAt 2 u).1
  let st := if code = 0 then 0 else if code = 1 then 1 else 2
  let h := (s.hub.set1 DEC.PERS.CODE u code).set1 DEC.STATUS.STATE u st
  { s with hub := if st = 2 ∧ s.hub.get1 DEC.STATUS.STATE u ≠ 2 then h.raise { code := 0x0907, inst := u } else h }

end Sys2Proof.Machine
end

