-- ==== Sys2Proof/Machine/CmpDraw.lean ====
section
/-!
DEFINITION. How a composer makes an output line (R193, R194, R198): layers blended in drawing order over the background at 12 bits,
graphic samples read from their surfaces in memory, the result rounded to FORMAT.
-/

namespace Sys2Proof.Machine

/-- A sample as Y', Cb, Cr at 12 bits. -/
abbrev Ycc := Int × Int × Int

/-- n / d rounded to nearest, halves up. -/
def divNear (n d : Int) : Int := (2 * n + d) / (2 * d)

/-- A 12-bit value. -/
def clip12 (v : Int) : Int := max 0 (min 4095 v)

/-- A colour register of 10-bit components at 12 bits. -/
def colour12 (w : Word) : Ycc :=
  (4 * (CMP.BG.Y.of w : Int), 4 * (CMP.BG.CB.of w : Int), 4 * (CMP.BG.CR.of w : Int))

/-- A graphic sample (R193): A, R, G, B and their greatest value. -/
structure GfxSample where
  a : Nat
  r : Nat
  g : Nat
  b : Nat
  top : Nat
  deriving DecidableEq, Repr

/-- A little-endian surface word as a sample: 32 bits for GFMT 0, 64 bits for GFMT 1. -/
def gfxSample (gfmt1 : Bool) (v : Nat) : GfxSample :=
  if gfmt1 then { a := v / 2 ^ 48 % 1024, r := v / 2 ^ 32 % 1024, g := v / 2 ^ 16 % 1024, b := v % 1024, top := 1023 }
  else { a := v / 2 ^ 24 % 256, r := v / 2 ^ 16 % 256, g := v / 2 ^ 8 % 256, b := v % 256, top := 255 }

/-- Kr and Kb of the COLOUR matrix in 10^−4: BT.709 and BT.2020 as the ITU publishes them (assumption 119). -/
def colourK (bt2020 : Bool) : Int × Int := if bt2020 then (2627, 593) else (2126, 722)

/-- R'G'B' to limited-range Y'CbCr at 12 bits, of a sample whose colour has been multiplied by `a` of `top` (assumption 119). -/
def GfxSample.ycc (x : GfxSample) (bt2020 premult : Bool) : Ycc :=
  let k := colourK bt2020
  let t : Int := x.top
  let w : Int := if premult then x.a else x.top
  let y : Int := k.1 * x.r + (10000 - k.1 - k.2) * x.g + k.2 * x.b
  (divNear (256 * w * 10000 + 3504 * y) (10000 * t),
    divNear (2048 * w * 2 * (10000 - k.2) + 3584 * (10000 * x.b - y)) (2 * (10000 - k.2) * t),
    divNear (2048 * w * 2 * (10000 - k.1) + 3584 * (10000 * x.r - y)) (2 * (10000 - k.1) * t))

/-- One component: (p × S + (d − q) × C) / d at 12 bits. -/
def blend1 (p q d s c : Int) : Int := clip12 (divNear (p * s + (d - q) * c) d)

/-- A layer's sample S over C: S weighs p/d, C weighs 1 − q/d. -/
def blend (p q d : Int) (s c : Ycc) : Ycc := (blend1 p q d s.1 c.1, blend1 p q d s.2.1 c.2.1, blend1 p q d s.2.2 c.2.2)

/-- A video sample with g = ALPHA / 255 (R193). -/
def blendVideo (alpha : Nat) (s c : Ycc) : Ycc := blend alpha alpha 255 s c

/-- A graphic sample with g = ALPHA / 255 and a = A / top (R193). -/
def blendGfx (alpha : Nat) (premult bt2020 : Bool) (x : GfxSample) (c : Ycc) : Ycc :=
  let d : Int := 255 * x.top
  blend (if premult then alpha * x.top else alpha * x.a) (alpha * x.a) d (x.ycc bt2020 premult) c

/-- A register of a layer as it was at t_m (Table 9.14). -/
def CmpDrawn.reg (d : CmpDrawn) (i : Nat) : Word := d.regs.getD i 0

/-- A sample of a graphic layer at column `x` of line `y`, and whether it read poisoned. -/
def State.gfxAt (s : State) (d : CmpDrawn) (x y : Nat) : GfxSample × Bool :=
  let one := CMP.LCTL.GFMT.of (d.reg 0) = 1
  let n := if one then 8 else 4
  let sx := CMP.LCROP_XY.X.of (d.reg 1) + (x - d.x)
  let sy := CMP.LCROP_XY.Y.of (d.reg 1) + (y - d.y)
  let off := 4096 * CMP.LBASE.OFFSET.of (d.reg 7) + 64 * CMP.LSRC.MATCH_PITCH.of (d.reg 6) * sy + n * sx
  match s.fab.part (CMP.LSRC.GPART.of (d.reg 6)) with
  | some p =>
    let r := s.partRead p off n
    (gfxSample (decide one) (leNat r.1), r.2)
  | none => (gfxSample (decide one) 0, false)

/-- Can every graphic layer of a frame be read? A lost stack makes its composer wait (R24). -/
def State.gfxLive (s : State) (f : CmpFrame) : Bool :=
  f.draw.all fun e => decide (e.1 < 8) || match s.fab.part (CMP.LSRC.GPART.of (e.2.reg 6)) with
    | some p => s.partLive p
    | none => true

/-- Segments of an output line are 512 samples (R198). -/
def segOf (x : Nat) : Nat := x / 512

/-- One layer drawn over a sample of the output line: the new sample, and the first layer that read poisoned there. A poisoned video segment
shows the layer's FILL colour; a poisoned graphic sample is transparent. -/
def State.drawOver (s : State) (f : CmpFrame) (bt2020 : Bool) (video : List CmpVideo) (x : Nat) (c : Ycc × Option Nat)
    (e : Nat × CmpDrawn) : Ycc × Option Nat :=
  let d := e.2
  let alpha := CMP.LCTL.ALPHA.of (d.reg 0)
  if x < d.x ∨ d.x + d.w ≤ x ∨ f.lines < d.y ∨ d.y + d.h ≤ f.lines then c
  else if e.1 < 8 then
    let fill := colour12 (d.reg 5)
    match video.find? (·.layer = e.1) with
    | some v =>
      let bad := v.bad.contains (segOf x)
      let sample : Ycc := match v.samples[x - d.x]? with
        | some p => (p.1, p.2.1, p.2.2)
        | none => fill
      (blendVideo alpha (if bad ∨ f.fills.contains e.1 then fill else sample) c.1, if bad then c.2.orElse (fun _ => some e.1) else c.2)
    | none => (blendVideo alpha fill c.1, c.2)
  else
    let g := s.gfxAt d x f.lines
    if g.2 then (c.1, c.2.orElse fun _ => some e.1) else (blendGfx alpha (CMP.LCTL.PREMULT.of (d.reg 0) == 1) bt2020 g.1 c.1, c.2)

/-- The next line of a frame at 12 bits, with the layer that read poisoned at each sample. -/
def State.cmpLine (s : State) (f : CmpFrame) (w : Nat) (bt2020 : Bool) (video : List CmpVideo) : List (Ycc × Option Nat) :=
  (List.range w).map fun x => f.draw.foldl (s.drawOver f bt2020 video x) (colour12 f.bg, none)

/-- Poisoned segments of a line. -/
def badSegs (l : List (Ycc × Option Nat)) : List Nat := ((l.zipIdx.filter fun e => e.1.2.isSome).map fun e => segOf e.2).eraseDups

/-- The first layer that read poisoned in a line. -/
def badLayer (l : List (Ycc × Option Nat)) : Nat := (l.findSome? Prod.snd).getD 0

/-- A 12-bit value at 10 or 8 bits. -/
def toDepth (ten : Bool) (v : Int) : Nat :=
  (min (divNear v (if ten then 4 else 16)) (if ten then 1023 else 255)).toNat

/-- A sample's bytes: 1, or a 16-bit little-endian container (R185). -/
def sampleBytes (ten : Bool) (v : Nat) : List Byte := leBytes (if ten then 2 else 1) v

/-- Chroma of a line at half width: the sums of neighbours, each component. -/
def chromaPairs : List (Ycc × Option Nat) → List (Int × Int)
  | a :: b :: t => (a.1.2.1 + b.1.2.1, a.1.2.2 + b.1.2.2) :: chromaPairs t
  | [a] => [(2 * a.1.2.1, 2 * a.1.2.2)]
  | [] => []

/-- A line as FORMAT holds it: its luma bytes; and its chroma bytes, interleaved: each line's in 4:2:2, each second line's with the line
before it in 4:2:0 (R193: subsampled by averaging). `prev` is the chroma of the line before. -/
def lineBytes (ten v422 odd : Bool) (prev : List (Nat × Nat)) (l : List (Ycc × Option Nat)) : List Byte × List Byte :=
  let luma := l.flatMap fun p => sampleBytes ten (toDepth ten p.1.1)
  let pairs := chromaPairs l
  let c := if v422 then pairs.map fun p => (divNear p.1 2, divNear p.2 2)
    else if odd then (pairs.zipIdx).map fun e =>
      let q := prev.getD e.2 (0, 0)
      (divNear (e.1.1 + q.1) 4, divNear (e.1.2 + q.2) 4)
    else []
  (luma, c.flatMap fun p => sampleBytes ten (toDepth ten p.1) ++ sampleBytes ten (toDepth ten p.2))

/-! ### Cost (R202) -/

/-- A composer's demand per output sample in 10^−2 hc: `n` sources drawn, in a dirty tile or not. -/
def cmpCost (n : Nat) (dirty : Bool) : Nat := 46 + 12 * (n - 4) + (if dirty then 6 else 0)

/-- Bytes of HBM per unglazed source sample read: a picture's in half bytes, by depth and chroma; a surface's in bytes. -/
def cmpVideoHalves (ten v422 : Bool) : Nat := (if v422 then 4 else 3) * (if ten then 2 else 1)
def cmpGfxBytes (gfmt1 : Bool) : Nat := if gfmt1 then 8 else 4

/-- Sources drawn at a sample of a frame: the plane where the tile is clean, and each unglazed layer that covers the sample. -/
def CmpFrame.sources (f : CmpFrame) (x y : Nat) (clean : Bool) : Nat :=
  (if clean then 1 else 0) + (f.draw.filter fun e => !(clean && e.2.run) &&
    decide (e.2.x ≤ x ∧ x < e.2.x + e.2.w ∧ e.2.y ≤ y ∧ y < e.2.y + e.2.h)).length

end Sys2Proof.Machine
end

