-- ==== Sys2Proof/Machine/Cmp.lean ====
section
/-!
DEFINITION. The composers (chapter 9): descriptors and stale layers (R197), scaling and line buffers (R194, R195), the
glazing plane and cache (R199–R201), frame instants and lines (R192).
-/

namespace Sys2Proof.Machine

/-- A CMP personality as it acts (Table 9.9). -/
structure CmpPers where
  code : Nat
  w : Nat
  h : Nat
  ten : Bool
  fmt : Nat
  bt2020 : Bool
  mode1 : Bool
  num : Nat
  den : Nat
  part : Nat
  glaze : Option Nat
  lb : List Nat
  deriving DecidableEq, Repr

def State.cmpPers (s : State) (u : Nat) : CmpPers :=
  let p := s.fab.persAt 3 u
  let b := p.2
  let fps := fpsOf (bodyN b 8 4) (bodyN b 12 4) 60
  { code := p.1, w := outSize (bodyN b 0 2) 8192, h := outSize (bodyN b 2 2) 4320
    ten := bodyU8 b 4 / 4 % 2 == 1, fmt := bodyU8 b 4 % 8, bt2020 := bodyU8 b 5 == 1, mode1 := bodyU8 b 6 == 1, num := fps.1, den := fps.2
    part := bodyN b 16 2 % 4096
    glaze := if 32768 ≤ bodyN b 18 2 then none else some (bodyN b 18 2 % 4096)
    lb := (List.range 8).map fun i => bodyN b (20 + 2 * i) 2 }

def CmpSt.unit (c : CmpSt) (u : Nat) : CmpUnit := (kvGet u c.units).getD {}
def State.setCmp (s : State) (u : Nat) (x : CmpUnit) : State := { s with cmp := { s.cmp with units := kvPut u x s.cmp.units } }
def CmpUnit.layer (x : CmpUnit) (l : Nat) : CmpLayer := (kvGet l x.layers).getD {}
def CmpUnit.setLayer (x : CmpUnit) (l : Nat) (y : CmpLayer) : CmpUnit := { x with layers := kvPut l y x.layers }

/-- Release pictures. -/
def State.releaseAll (s : State) (l : List PicDesc) : State := l.foldl (fun a d => a.pictureRelease d.part d.off) s

/-- Sashes that use a composer, in image order, and its class: that of the first. -/
def State.cmpSash (s : State) (u : Nat) : Nat := ((s.fab.users 3 u).head?).getD 0
def State.cmpClass (s : State) (u : Nat) : Nat := s.fab.cls (s.cmpSash u)

/-! ### Scaling and line buffers (R194, R195) -/

/-- A video layer's crop of a picture, clipped: left, top, width, height. -/
def Hub.cmpCrop (h : Hub) (u l : Nat) (d : PicDesc) : Nat × Nat × Nat × Nat :=
  let x := min (h.get2 CMP.LCROP_XY.X u l) d.w
  let y := min (h.get2 CMP.LCROP_XY.Y u l) d.h
  let w := h.get2 CMP.LCROP_WH.W u l
  let t := h.get2 CMP.LCROP_WH.H u l
  (x, y, if w = 0 then d.w - x else min w (d.w - x), if t = 0 then d.h - y else min t (d.h - y))

/-- A destination size within ratios 1/8 to 8 of a crop size. -/
def clampRatio (crop dst : Nat) : Nat := min (max dst (ceilDiv crop 8)) (8 * crop)

/-- N(t) lines for a filter of t taps at ratio `crop` / `dst` over every m-th line. -/
def linesFor (t crop dst m : Nat) : Nat := max t (ceilDiv (t * crop) (dst * m)) + 1

/-- Line-buffer bytes of video layer `l`: in layer order, cut at 2 MiB. -/
def lbBytes (lb : List Nat) (l : Nat) : Nat :=
  let from_ := min ((lb.take l).foldl (· + ·) 0) 2048
  min (lb.getD l 0) (2048 - from_) * 1024

/-- A step of Table 9.10: its number, TAPS, m, and the source columns drawn. -/
structure LbStep where
  step : Nat
  taps : Nat
  m : Nat
  width : Nat
  deriving DecidableEq, Repr

/-- The line-buffer step of a layer: crop width and height, clamped destination height, 10-bit source, allocation in
bytes. -/
def lbStep (w h dst : Nat) (ten : Bool) (alloc : Nat) : LbStep :=
  let b2 := if ten then 5 else 4
  let n := 2 * alloc / (w * b2)
  let m := ((List.range 8).find? fun i => linesFor 2 h dst (i + 1) ≤ max n 3).getD 7 + 1
  if linesFor 6 h dst 1 ≤ n then ⟨1, 0, 1, w⟩
  else if linesFor 4 h dst 1 ≤ n then ⟨2, 1, 1, w⟩
  else if linesFor 2 h dst 1 ≤ n then ⟨3, 2, 1, w⟩
  else if 2 ≤ n then ⟨4, 2, m, w⟩
  else ⟨5, 2, max (ceilDiv h dst) 1, min w (alloc / (8 * b2) * 8)⟩

/-- The status of a video layer that draws a picture (Table 9.15), and what it draws: destination width and height. -/
def Hub.cmpScale (h : Hub) (u l : Nat) (p : CmpPers) (d : PicDesc) : LbStep × Bool × Nat × Nat :=
  let c := h.cmpCrop u l d
  let dw := h.get2 CMP.LDST_WH.W u l
  let dh := h.get2 CMP.LDST_WH.H u l
  let cw := c.2.2.1
  let ch := c.2.2.2
  if cw = 0 ∨ ch = 0 ∨ dw = 0 ∨ dh = 0 then (⟨1, 0, 1, 0⟩, false, 0, 0)
  else
    let ew := clampRatio cw dw
    let eh := clampRatio ch dh
    let t := lbStep cw ch eh d.ten (lbBytes p.lb l)
    (t, decide (ew ≠ dw ∨ eh ≠ dh), min dw (if t.step = 5 then t.width * ew / cw else ew), min dh eh)

/-! ### A layer at t_m (R197) -/

/-- A video layer takes its picture (R197). Answers the layer, the pictures passed over, the one replaced, whether the
boundary was stale, and whether FILL begins. -/
def CmpLayer.take (y : CmpLayer) (mtch srcInt staleN : Nat) : CmpLayer × List PicDesc × Option PicDesc × Bool × Bool :=
  match (y.queue.filter fun d => mtch = 0xFFFF ∨ d.stream = mtch).getLast? with
  | some d => ({ y with queue := [], cur := some d, k := 0, s := 0, fill := false }, y.queue.erase d, y.cur, false, false)
  | none =>
    let k := y.k + 1
    let stale := decide (max srcInt 1 ≤ k)
    let run := if stale then y.s + 1 else y.s
    let begins := decide (stale ∧ run = max staleN 1)
    ({ y with queue := [], k := k, s := run, fill := y.cur.isNone || y.fill || begins }, y.queue, none, stale, begins)

/-- The registers of a layer (Table 9.14). -/
def Hub.layerRegs (h : Hub) (u l : Nat) : List Word :=
  (List.range 8).map fun i => h.rd (CMP.LCTL.ENABLE.off u l + 4 * i)

/-- LSTAT of a layer (Table 9.15). -/
def Hub.setLstat (h : Hub) (u l : Nat) (fill glazed clamp : Bool) (t : LbStep) : Hub :=
  let b := fun (x : Bool) (k : Nat) => if x then 2 ^ k else 0
  h.wr (CMP.LSTAT.FILL.off u l) (BitVec.ofNat 32 (b fill 31 + b glazed 30 + b (decide (2 ≤ t.step)) 29 +
    b (decide (4 ≤ t.step) && !(t.step == 5 && t.m == 1)) 28 + b (decide (t.step = 5)) 27 + b clamp 26 + t.taps * 2 ^ 24 +
    min t.m 8 * 2 ^ 20 + min t.width 8192))

/-- One video layer at t_m: the unit's record and events, and the part of the output it draws on. -/
def State.cmpVideo (s : State) (u l : Nat) (p : CmpPers) : State × CmpDrawn × Bool :=
  let x := s.cmp.unit u
  let y := x.layer l
  let h := s.hub
  let r := y.take (h.get2 CMP.LSRC.MATCH_PITCH u l) (h.get2 CMP.LCTL.SRC_INT u l) (h.get2 CMP.LCTL.STALE_N u l)
  let z := r.1
  let sash := s.cmpSash u
  let t : LbStep × Bool × Nat × Nat := match z.cur with
    | some d => if z.fill then (⟨1, 0, 1, 0⟩, false, h.get2 CMP.LDST_WH.W u l, h.get2 CMP.LDST_WH.H u l) else h.cmpScale u l p d
    | none => (⟨1, 0, 1, 0⟩, false, h.get2 CMP.LDST_WH.W u l, h.get2 CMP.LDST_WH.H u l)
  let step := if z.cur.isSome ∧ !z.fill then t.1.step else y.step
  let wasClamp := h.get2 CMP.LSTAT.SCALE_CLAMP u l = 1
  let h1 := if r.2.2.2.1 then h.err2 CMP.STALE.COUNT u l 0x0A09 u else h
  let h2 := if r.2.2.2.2 then h1.raise { code := 0x0A01, inst := u, sash := sash, detail := [l] } else h1
  let h3 := if t.2.1 ∧ !wasClamp then h2.raise { code := 0x0A03, inst := u, sash := sash, detail := [l] } else h2
  let h4 := h3.setLstat u l z.fill false t.2.1 t.1
  let h5 := if y.step ≠ 0 ∧ y.step < step then
      h4.raise { code := 0x0A02, inst := u, sash := sash, detail := [l, (h4.rd (CMP.LSTAT.FILL.off u l)).toNat] }
    else h4
  let x1 := { (x.setLayer l { z with step := step }) with
    toFree := match r.2.2.1, x.frames.getLast? with
      | some d, some f => x.toFree ++ [(d, f.tm)]
      | _, _ => x.toFree }
  let freed := match r.2.2.1, x.frames.getLast? with
    | some d, none => d :: r.2.1
    | _, _ => r.2.1
  let same := match z.cur with
    | some d => r.2.2.1.isNone && y.cur.isSome || (r.1.k == 0 && d.unchanged)
    | none => true
  ((({ s with hub := h5 } : State).setCmp u x1).releaseAll freed,
    { x := h.get2 CMP.LDST_XY.X u l, y := h.get2 CMP.LDST_XY.Y u l, w := t.2.2.1, h := t.2.2.2, regs := h.layerRegs u l
      run := false },
    same && h.get2 CMP.LCTL.STATIC u l == 1)

/-! ### Glazing (R199–R201) -/

/-- The tiles a destination covers, in an output of `cols` × `rows` tiles. -/
def tilesUnder (cols rows : Nat) (d : CmpDrawn) : List Nat :=
  if d.w = 0 ∨ d.h = 0 then []
  else ((List.range rows).filter fun r => d.y < 64 * (r + 1) ∧ 64 * r < d.y + d.h).flatMap fun r =>
    ((List.range cols).filter fun c => d.x < 64 * (c + 1) ∧ 64 * c < d.x + d.w).map fun c => r * cols + c

/-- Is `l` drawn before `m` (R193): lower Z, then lower layer? -/
def Hub.drawnBefore (h : Hub) (u l m : Nat) : Bool :=
  let a := h.get2 CMP.LCTL.Z u l
  let b := h.get2 CMP.LCTL.Z u m
  decide (a < b ∨ (a = b ∧ l ≤ m))

/-- One tile is read from the plane: a miss replaces the least recently used of 3,276 (R201). -/
def CmpSt.tileRead (c : CmpSt) (u t : Nat) : CmpSt × Bool :=
  let rest := c.cache.filter (· ≠ (u, t))
  ({ c with cache := ((u, t) :: rest).take 3276 }, !c.cache.contains (u, t))

/-- Read several tiles; answers how many missed. -/
def CmpSt.tileReads (c : CmpSt) (u : Nat) : List Nat → CmpSt × Nat
  | [] => (c, 0)
  | t :: r =>
    let a := c.tileRead u t
    let b := a.1.tileReads u r
    (b.1, b.2 + (if a.2 then 1 else 0))

/-- The plane at t_m: dirty and clean tiles, cache misses, GLAZE_SHORT. `now` are the layers drawn, `redraw` those whose
REDRAW the Latch just taken carried. -/
def State.cmpGlaze (s : State) (u : Nat) (p : CmpPers) (part : Nat) (now : List (Nat × CmpDrawn)) (redraw : List Nat) : State :=
  let x := s.cmp.unit u
  let cols := ceilDiv p.w 64
  let rows := ceilDiv p.h 64
  let bg := s.hub.rd (CMP.BG.Y.off u 0)
  let size := ((s.fab.part part).map (·.size)).getD 0
  let all := List.range (cols * rows)
  let inside := all.filter fun t => 10240 * (t + 1) ≤ size
  let was := fun (l : Nat) => (kvGet l x.drawn).filter (·.run)
  let changed := (List.range 16).flatMap fun l =>
    match (kvGet l now).filter (·.run), was l with
    | some d, some e =>
      if d.regs ≠ e.regs ∨ d.x ≠ e.x ∨ d.y ≠ e.y ∨ d.w ≠ e.w ∨ d.h ≠ e.h then tilesUnder cols rows d ++ tilesUnder cols rows e
      else if redraw.contains l then tilesUnder cols rows d else []
    | some d, none => tilesUnder cols rows d
    | none, some e => tilesUnder cols rows e
    | none, none => []
  let dirty := inside.filter fun t => !x.written.contains t || changed.contains t || bg != x.bg || x.badTiles.contains t
  let clean := inside.filter fun t => !dirty.contains t
  let rd := s.cmp.tileReads u clean
  let short := decide (inside.length < all.length)
  let h1 := ((s.hub.set1 CMP.GLAZE.DIRTY u dirty.length).set1 CMP.GLAZE.CLEAN u clean.length).stat CMP.GLAZE_MISS_LO.COUNT u rd.2
  let h2 := h1.set1 CMP.STATUS.GLAZE_SHORT u (if short then 1 else 0)
  let h3 := if short then h2.raise { code := 0x0A05, inst := u, sash := s.cmpSash u } else h2
  ({ s with hub := h3, cmp := rd.1 } : State).setCmp u { x with written := inside, bg := bg }

/-! ### Frame instants (R192) -/

/-- The static layers that lead the drawing order (R199). -/
def glazedRun : List (Nat × Bool) → List Nat
  | [] => []
  | (l, st) :: t => if st then l :: glazedRun t else []

/-- Poisoned segments or tiles count, with an event that names a layer (R198, R204). -/
def State.cmpPoison (s : State) (u n layer : Nat) : State :=
  if n = 0 then s
  else
    let ev : Ev := { code := 0x0A06, inst := u, sash := s.cmpSash u, detail := [layer] }
    { s with hub := (s.hub.errN CMP.POISON.COUNT u n 0x0A09 u).raiseRl ev }

/-- Compose frame t_m: layers, pictures, line buffers, glazing; `tiles` of the plane read poisoned. -/
def State.cmpCompose (s : State) (u tm : Nat) (tiles redraw : List Nat) : State :=
  let p := s.cmpPers u
  let on := fun (l : Nat) => s.hub.get2 CMP.LCTL.ENABLE u l == 1
  let vids := (List.range 8).filter on
  let v := vids.foldl (fun (a : State × List (Nat × CmpDrawn × Bool)) l =>
    let r := a.1.cmpVideo u l p
    (r.1, a.2 ++ [(l, r.2.1, r.2.2)])) (s, [])
  let h := s.hub
  let gfx := ((List.range 16).filter fun l => 8 ≤ l ∧ on l).map fun l =>
    (l, ({ x := h.get2 CMP.LDST_XY.X u l, y := h.get2 CMP.LDST_XY.Y u l, w := h.get2 CMP.LCROP_WH.W u l
           h := h.get2 CMP.LCROP_WH.H u l, regs := h.layerRegs u l, run := false } : CmpDrawn), h.get2 CMP.LCTL.STATIC u l == 1)
  let order := (v.2 ++ gfx).mergeSort fun a b => h.drawnBefore u a.1 b.1
  let run := if p.glaze.isSome then glazedRun (order.map fun e => (e.1, e.2.2)) else []
  let now := (v.2 ++ gfx).map fun e => (e.1, { e.2.1 with run := run.contains e.1 })
  let s1 := v.1
  let s2 : State := { s1 with hub := now.foldl (fun a e => a.set2 CMP.LSTAT.GLAZED u e.1 (if e.2.run then 1 else 0)) s1.hub }
  let s3 := (match p.glaze with
    | some part => s2.cmpGlaze u p part now redraw
    | none => s2).cmpPoison u tiles.length ((run.head?).getD 0)
  let h4 := s3.hub
  let x := s3.cmp.unit u
  let fills := vids.filter fun l => h.get2 CMP.LSTAT.FILL u l = 1
  let slot := if p.mode1 then (List.range 3).find? (fun k => (kvGet k x.held).getD 0 = 0 ∧ !x.frames.any (fun f => f.slot = some k)) else none
  let skip := p.mode1 && slot.isNone
  let h5 := if skip then (h4.err CMP.SKIP.COUNT u 0x0A09 u).raise { code := 0x0A07, inst := u, sash := s.cmpSash u } else h4
  ({ s3 with hub := h5.stat CMP.FRAMES_LO.COUNT u 1 } : State).setCmp u { x with
    drawn := now, badTiles := if p.glaze.isSome then tiles else [], last := some tm
    frames := x.frames ++ [{
      tm := tm, slot := slot, skipped := skip, draw := order.map fun e => (e.1, { e.2.1 with run := run.contains e.1 })
      fills := fills, bg := h.rd (CMP.BG.Y.off u 0), sash := s.cmpSash u, epoch := s.epochOf (s.cmpSash u) }] }

/-- The composer reaches t_m (R192): the latest instant at or before now, each once. A Near-live or Best-effort composer finishes the
frame in hand first. -/
def State.cmpInstant (s : State) (u : Nat) (tiles redraw : List Nat) : State :=
  let p := s.cmpPers u
  let tm := instantAt p.num p.den s.hub.time.total
  let x := s.cmp.unit u
  if p.code ≠ 1 ∨ x.last = some tm ∨ x.passed.getLast? = some tm then s
  else if s.cmpClass u ≠ 0 ∧ (x.frames ≠ [] ∨ s.emergency) then s.setCmp u { x with passed := x.passed ++ [tm] }
  else s.cmpCompose u tm tiles redraw

/-- CMP_DESCRIPTOR_RECEIVE (R197): a picture waits at its port; one with DISCARD is ignored. -/
def execCmpDescriptorReceive (unit port : Nat) (desc : List Byte) (s : State) : Host.Outcome State Fault Refusal :=
  let d : PicDesc :=
    { part := bodyN desc 0 2, off := bodyN desc 8 8, unchanged := bodyN desc 2 2 / 4 % 2 == 1, w := bodyN desc 0x18 2
      h := bodyN desc 0x1A 2, ten := bodyU8 desc 0x1C / 4 % 2 == 1, stream := bodyN desc 0x1E 2 }
  let x := s.cmp.unit unit
  let y := x.layer port
  .next (if bodyN desc 2 2 % 2 = 1 ∨ 8 ≤ port ∨ (s.cmpPers unit).code ≠ 1 then s
    else s.setCmp unit (x.setLayer port { y with queue := y.queue ++ [d] }))

/-- A frame's last line is complete: replaced pictures are released; in OUT_MODE 1 its descriptor goes out (R185, R192). -/
def State.cmpFrameEnd (s : State) (u : Nat) (p : CmpPers) (f : CmpFrame) : State :=
  let x := s.cmp.unit u
  let sash := f.sash
  let gone := (x.toFree.filter fun d => d.2 ≤ f.tm).map (·.1)
  let dests := s.fab.dests sash (mkRef 3 u)
  let out := match f.slot with
    | some k =>
      let cf := f.tm + 264000
      let d := picDescriptor p.part 0 p.w p.h (k * slotSize p.w p.h) cf p.fmt 0 0
      s.fab.send sash (mkRef 3 u) "picture" (d.map BitVec.toNat) false
    | none => []
  let held := match f.slot with
    | some k => kvPut k dests.length x.held
    | none => x.held
  (({ s with hub := s.hub.emits out } : State).setCmp u { x with
    frames := x.frames.filter (·.tm ≠ f.tm), ended := (f.tm :: x.ended).take 4, toFree := x.toFree.filter (fun d => f.tm < d.2), held := held }).releaseAll gone

/-- Write one output line of a frame in PART (R185): its luma bytes, then its share of the chroma plane. -/
def State.cmpStore (s : State) (p : CmpPers) (f : CmpFrame) (data : List Byte × List Byte) : State :=
  match f.slot, s.fab.part p.part with
  | some k, some q =>
    let pitch := picPitch p.w p.ten
    let base := k * slotSize p.w p.h
    let cl := if p.fmt % 4 = 1 then f.lines else f.lines / 2
    (s.partWrite q (base + pitch * f.lines) data.1).partWrite q (base + pitch * p.h + pitch * cl) data.2
  | _, _ => s

/-- The next frame that a Near-live or Best-effort composer composes: that of the latest t_m passed; those in between count (R192). -/
def State.cmpNext (s : State) (u : Nat) : State :=
  let x := s.cmp.unit u
  match x.passed.getLast? with
  | none => s
  | some tm =>
    let n := x.passed.length - 1
    let ev : Ev := { code := 0x0A07, inst := u, sash := s.cmpSash u }
    let h := s.hub.errN CMP.SKIP.COUNT u n 0x0A09 u
    let s1 : State := { s with hub := if n = 0 then h else h.raise ev }
    (s1.setCmp u { x with passed := [] }).cmpCompose u tm [] []

/-- A line of the oldest frame is complete (R192): it goes out on the composer's paths, or into the frame's slot. -/
def State.cmpLineDone (s : State) (unit : Nat) (f : CmpFrame) (rest : List CmpFrame) (video : List CmpVideo) : State :=
  let p := s.cmpPers unit
  let x := s.cmp.unit unit
  let k := p.num * p.h
  let due := f.tm * k + 1000000000 * p.den * f.lines
  let bound := (f.tm + 264000) * k + 1000000000 * p.den * (f.lines + 1)
  let now := s.hub.time.total * k
  let live := s.cmpClass unit = 0
  if (live ∧ now < due) ∨ (¬ live ∧ s.emergency) then s
  else
    let line := s.cmpLine f p.w p.bt2020 video
    let data := lineBytes p.ten (p.fmt % 4 == 1) (f.lines % 2 == 1) f.chroma line
    let ev : Ev := { code := 0x0A04, inst := unit, sash := f.sash, detail := [0] }
    let s1 := s.cmpPoison unit (badSegs line).length (badLayer line)
    let h1 := if live ∧ bound < now then (s1.hub.err CMP.LATE.COUNT unit 0x0A09 unit).raiseRl ev else s1.hub
    let h2 := if p.mode1 then h1
      else h1.emits (s1.fab.send f.sash (mkRef 3 unit) "line"
        ([f.tm + 264000, f.lines] ++ (data.1 ++ data.2).map BitVec.toNat) (badSegs line != []))
    let s2 : State := { s1 with hub := h2 }
    let s3 := if p.mode1 then s2 else s2.encInput f.sash (mkRef 3 unit) (f.tm + 264000) fun _ => f.lines + 1
    let f1 : CmpFrame := { f with lines := f.lines + 1, chroma := (chromaPairs line).map fun q => (q.1.toNat, q.2.toNat) }
    let s4 := (s3.cmpStore p f data).setCmp unit { x with frames := f1 :: rest }
    if f.lines + 1 < p.h then s4 else s4.cmpFrameEnd unit p f

/-- CMP_LINE_COMPLETE (R192, R193): the next line of the oldest frame, with what the scaler's filters gave its video layers. It runs
under what the frame began with (R31). -/
def execCmpLineComplete (unit : Nat) (video : List CmpVideo) (s : State) : Host.Outcome State Fault Refusal :=
  .next (match (s.cmp.unit unit).frames with
    | [] => if s.emergency then s else s.cmpNext unit
    | f :: rest =>
      if !s.gfxLive f then s
      else
      let t := s.inEpoch f.sash f.epoch fun a => a.cmpLineDone unit f rest video
      if (t.cmp.unit unit).frames.any (·.tm = f.tm) then t else t.cmpNext unit)

/-- A unit's status under its personality (R191). -/
def State.cmpSetup (s : State) (u : Nat) : State :=
  let code := (s.fab.persAt 3 u).1
  let st := if code = 0 then 0 else if code = 1 then 1 else 2
  let h := (s.hub.set1 CMP.PERS.CODE u code).set1 CMP.STATUS.STATE u st
  { s with hub := if st = 2 ∧ s.hub.get1 CMP.STATUS.STATE u ≠ 2 then h.raise { code := 0x0A08, inst := u } else h }

end Sys2Proof.Machine
end

