-- ==== Sys2Proof/Machine/Enc.lean ====
section
/-!
DEFINITION. The commands of the ENC units (chapter 8): header records and picture descriptors (R158, R159), stripe starts
(R168, R175), coded blocks (R169, R176, R177), deadlines and release rows (R161, R163), pane chunks (R207), and the encode
service (R165, R171, R178).
-/

namespace Sys2Proof.Machine

/-- Work on a frame in progress runs under the frame's own configuration and, where the sash was rebuilt since it began, on what its
tokens' path epoch was built from (R31). -/
def State.inFrame (s : State) (u sash r n : Nat) (work : EncGeom → EncFrame → State → State) : State :=
  match (s.enc.share u sash r).frame n with
  | some f => s.inEpoch sash f.epoch fun t => match t.encGeomOf u sash r f.cfg with
    | some g => work g f t
    | none => t
  | none => s

/-- The last frame that a unit has begun. -/
def EncShare.last (x : EncShare) : Option EncFrame := x.frames.getLast?

/-- Bits are committed in a frame of a rendition (R165). -/
def State.encCommit (s : State) (sash r num bits : Nat) : State :=
  match kvGet (8 * sash + r) s.enc.rends with
  | some e => { s with enc := s.enc.setRend sash r (e.commit num bits) }
  | none => s

/-! ### Header records and descriptors -/

/-- A record is skipped and counted in HDR_BAD. -/
def State.hdrBad (s : State) (u sash frame k : Nat) : State :=
  (s.encErr ENC.HDR_BAD.COUNT u 1).encRaise 0x0806 u sash frame k

/-- A header record as Table 8.4 reads it. -/
def hdrOf (b : List Byte) : HdrRec :=
  let len := bodyN b 12 4
  let pl := (b.drop 16).take len
  let off := bodyN b 6 2
  let fmt := bodyU8 b 3
  let fmt1 := if fmt ≤ 3 then fmt else 0
  let width := if fmt1 = 3 then 3 else 4
  { rend := bodyU8 b 1, kind := bodyU8 b 0, fmt := if fmt1 ≠ 0 ∧ off + width ≤ len then fmt1 else 0, stripe := bodyN b 4 2
    off := off, frame := bodyN b 8 4, payload := pl ++ List.replicate (len - pl.length) 0 }

/-- Records the unit holds for its channel, held and matched (R158). -/
def State.hdrHeld (s : State) (u sash r : Nat) : Nat :=
  ((s.enc.side u sash).held.filter (·.rend = r)).length +
    (s.enc.share u sash r).frames.foldl (fun a f => a + f.recs.length) 0

/-- HEADER_RECORD_RECEIVE (R158, R159, R177). A record that finds 512 held is not acknowledged: it stays with its sender. -/
def execHeaderRecordReceive (unit sash : Nat) (poison : Bool) (rec : List Byte) (s : State) :
    Host.Outcome State Fault Refusal :=
  let h := hdrOf rec
  .next (if poison then
      ((s.encErr ENC.HDR_BAD.COUNT unit 1).encErr ENC.POISON.COUNT unit 1).encRaise 0x0809 unit sash h.frame h.stripe
    else match s.encGeom unit sash h.rend with
    | none => s.hdrBad unit sash h.frame h.stripe
    | some g =>
      let tileBad := h.kind = 1 ∧ ((g.p.codec = 1 ∧ bodyU8 rec 2 ≠ 0) ∨ g.p.tc ≤ bodyU8 rec 2)
      if 2 < h.kind ∨ 7 < h.rend ∨ tileBad ∨ (h.kind = 1 ∧ g.n ≤ h.stripe) then s.hdrBad unit sash h.frame h.stripe
      else if 512 ≤ s.hdrHeld unit sash h.rend then s
      else
        let sd := s.enc.side unit sash
        let next := (kvGet h.rend sd.started).getD 0
        let sh := s.enc.share unit sash h.rend
        if h.frame = next ∨ laterThan 32 next h.frame then
          { s with enc := s.enc.setSide unit sash { sd with held := sd.held ++ [h] } }
        else match sh.last with
          | some f =>
            if f.gone ∨ f.num ≠ h.frame then s.hdrBad unit sash h.frame h.stripe
            else if h.kind = 0 then (if f.hdrLate then s else s.hdrBad unit sash h.frame h.stripe)
            else
              let bits := recBits f.pane g.p.ti [h]
              let sh1 := sh.setFrame { f with recs := f.recs ++ [h], bc := f.bc + bits }
              (s.setShare unit sash h.rend sh1).encCommit sash h.rend f.num bits
          | none => s.hdrBad unit sash h.frame h.stripe)

/-- PICTURE_DESCRIPTOR_RECEIVE (R159, Table 8.14): DISCARD drops the picture, and it takes no number. -/
def execPictureDescriptorReceive (unit sash : Nat) (desc : List Byte) (s : State) : Host.Outcome State Fault Refusal :=
  let sd := s.enc.side unit sash
  let c := bodyN desc 0x14 4 * 1000000000 + bodyN desc 0x10 4
  let near := fun (p : Nat × Nat) => decide ((sd.numbered + 2 ^ 32 - p.1) % 2 ^ 32 < 64)
  let sd1 : EncSide := { sd with numbered := (sd.numbered + 1) % 2 ^ 32, pics := kvPut sd.numbered c (sd.pics.filter near) }
  .next (if !(s.encPers unit (s.fab.cls sash)).src1 ∨ bodyN desc 2 2 % 2 = 1 then s
    else { s with enc := s.enc.setSide unit sash sd1 })

/-! ### Release rows -/

/-- The stripes of release row `row`. -/
def EncGeom.row (g : EncGeom) (f : EncFrame) (row : Nat) : List EncStripe :=
  f.stripes.filter fun t => row * g.g ≤ t.k ∧ t.k < (row + 1) * g.g

/-- Release rows of the picture, and whether a row's data is complete. -/
def EncGeom.rows (g : EncGeom) : Nat := ceilDiv g.n g.g
def EncGeom.rowDone (g : EncGeom) (f : EncFrame) (row : Nat) : Bool :=
  decide ((g.row f row).length = min g.g (g.n - row * g.g)) && (g.row f row).all (·.done)

/-- A length in a record's length field (Table 8.4, PATCH_FMT). -/
def patchLen (fmt n : Nat) : List Byte :=
  match fmt with
  | 1 => [BitVec.ofNat 8 (128 + n % 128), BitVec.ofNat 8 (128 + n / 128 % 128), BitVec.ofNat 8 (128 + n / 16384 % 128),
      BitVec.ofNat 8 (n / 2097152 % 128)]
  | 2 => beBytes 4 n
  | 3 => beBytes 3 n
  | _ => []

/-- A record's bytes with its length field written: the payload after the field plus the data it heads (R158). -/
def HdrRec.out (h : HdrRec) (data : Nat) : List Byte :=
  let w := if h.fmt = 0 then 0 else if h.fmt = 3 then 3 else 4
  let p := h.payload.take h.off ++ patchLen h.fmt (h.payload.length - (h.off + w) + data) ++ h.payload.drop (h.off + w)
  if h.kind = 0 then p.drop 16 else p

/-- Coded bytes of a stripe. -/
def EncStripe.bytes (t : EncStripe) : Nat := ceilDiv t.bits 8

/-- What a release row puts out, in order: bytes of records and of tile_size, coded data, filler. -/
inductive RowPart where
  | bytes (l : List Byte)
  | coded (n : Nat)
  | filler (n : Nat)
  deriving DecidableEq, Repr

/-- Bytes of a part. -/
def RowPart.size : RowPart → Nat
  | .bytes l => l.length
  | .coded n => n
  | .filler n => n

def partsSize (l : List RowPart) : Nat := l.foldl (fun a x => a + x.size) 0

/-- A part as the row's work unit lists it: 0, a length and bytes given here; 1 or 2 and a length of coded data or filler. -/
def RowPart.args : RowPart → List Nat
  | .bytes l => 0 :: l.length :: l.map BitVec.toNat
  | .coded n => [1, n]
  | .filler n => [2, n]

/-- Bits of tile `i` of the unit's column in a row. -/
def tileBits (l : List EncStripe) (i : Nat) : Nat :=
  l.foldl (fun a t => a + ((t.tiles.filter (·.1 = i)).foldl (fun x y => x + y.2) 0)) 0

/-- A row's coded data: for AV1 each tile, with tile_size before each that is not the last of its tile group (R156; its value and byte
order are AV1's, assumption 114); for the others each stripe's slice. -/
def EncGeom.data (g : EncGeom) (l : List EncStripe) : List RowPart :=
  if g.p.codec = 1 then
    let n := g.inner.length
    (List.range n).flatMap fun i =>
      let size := ceilDiv (tileBits l i) 8
      if i + 1 = n ∧ g.last then [.coded size] else [.bytes (leBytes 4 (size - 1)), .coded size]
  else l.map fun t => .coded t.bytes

/-- Records in release order, the last of which heads `data` bytes and each other one none. -/
def heads (data : Nat) : List HdrRec → List RowPart
  | [] => []
  | [h] => [.bytes (h.out data)]
  | h :: t => .bytes (h.out 0) :: heads data t

/-- A row's parts in order, and the stripes whose data is discarded for want of its record. Of AV1 the row's SLICE records stand at the
first tile and head the data of every tile, `others` bytes of it on other units; `there` says that they have arrived. -/
def rowParts (g : EncGeom) (recs : List HdrRec) (row others : Nat) (there : Bool) (l : List EncStripe) : List RowPart × List Nat :=
  if g.p.codec = 1 then
    let d := g.data l
    if there then (heads (partsSize d + others) (recs.filter fun h => h.kind = 1 ∧ h.stripe / g.g = row) ++ d, [])
    else ([], [row * g.g])
  else
    l.foldl (fun (a : List RowPart × List Nat) t =>
      match recs.filter fun h => h.kind = 1 ∧ h.stripe = t.k with
      | [] => (a.1, a.2 ++ [t.k])
      | hs => (a.1 ++ heads t.bytes hs ++ [.coded t.bytes], a.2)) ([], [])

/-- Hand work to every path from a unit's port. -/
def State.deliver (s : State) (sash src : Nat) (kind : String) (args : List Nat) : State :=
  { s with hub := s.hub.emits (s.fab.send sash src kind args false) }

/-- One pane's chunk of a row: the header of Table 10.2, then the bytes of payload. -/
def State.paneChunk (s : State) (u sash r : Nat) (g : EncGeom) (f : EncFrame) (row : Nat) (late : Bool) (n : Nat) (p : EncPane) :
    State :=
  let ts := (g.row f row).filter fun t => p.y ≤ t.k ∧ t.k < p.y + p.h
  let last := ts.any fun t => t.k + 1 = p.y + p.h
  let bits := ts.foldl (fun a t => a + ((t.panes.filter (·.1 = p.stream)).foldl (fun x y => x + y.2) 0)) 0
  let sweep := last && !p.failed && (match p.col with
    | some c => c + 1 == sweepCount p.w n
    | none => false)
  let flag := fun (b : Bool) (k : Nat) => if b then 2 ^ k else 0
  let flags := flag (p.refresh && !f.broken) 0 + flag (ts.any (·.mode = 1)) 1 + flag (ts.any (·.mode = 2)) 2 + flag late 3 +
    flag sweep 4
  if ts = [] then s
  else s.deliver sash (mkRef 1 u + r) "pane-chunk"
    ((leBytes 4 f.num ++ leBytes 2 (p.stream + flag last 15) ++ leBytes 1 flags ++ leBytes 1 (if g.p.codec = 1 then 0 else f.qp) ++
      leBytes 4 (f.cf % 1000000000) ++ leBytes 4 (f.cf / 1000000000)).map BitVec.toNat ++ [ceilDiv bits 8])

/-- Has every unit that holds part of a sweep column coded its part whole, as intra in NORMAL (R170)? -/
def State.colDone (s : State) (sash r num c : Nat) : Bool :=
  (s.encUnits sash).all fun u => match (s.enc.share u sash r).frame num with
    | some f => (match s.encGeomOf u sash r f.cfg with
      | some g =>
        let w := 64 * sweepWidth (ceilDiv g.w 64) g.cfg.refreshN
        decide (g.x1 ≤ c * w ∨ (c + 1) * w ≤ g.x0) || (!f.failed && decide (f.stripes.length = g.n) && f.stripes.all (·.done))
      | none => true)
    | none => false

/-- FLAGS of Table 8.15. -/
def State.rowFlags (s : State) (sash r : Nat) (g : EncGeom) (f : EncFrame) (row : Nat) (late : Bool) : Nat :=
  let flag := fun (b : Bool) (k : Nat) => if b then 2 ^ k else 0
  let sweep := match f.col with
    | some c => c + 1 == sweepCount (ceilDiv g.w 64) g.cfg.refreshN && s.colDone sash r f.num c &&
      (((kvGet (8 * sash + r) s.enc.rends).bind EncRend.redo).isNone)
    | none => false
  flag (row == 0) 0 + flag (row + 1 == g.rows) 1 + flag f.key 2 + flag sweep 3 + flag ((g.row f row).any (·.mode = 1)) 4 +
    flag ((g.row f row).any (·.mode = 2)) 5 + flag late 6

/-- Has the SLICE record of an AV1 row reached the first tile's unit, by the time that unit released the row if it has? -/
def State.sliceThere (s : State) (sash r : Nat) (g : EncGeom) (num row : Nat) : Bool :=
  match (s.encUnits sash).head?.bind fun u => (s.enc.share u sash r).frame num with
  | some f => !f.lost.contains row && (decide (row < f.rows) || f.recs.any fun h => h.kind = 1 ∧ h.stripe / g.g = row)
  | none => true

/-- Bytes of an AV1 row on the other units of the channel that have completed it (assumption 115). -/
def State.rowOthers (s : State) (u sash r num row : Nat) : Nat :=
  ((s.encUnits sash).filter (· ≠ u)).foldl (fun a v => match (s.enc.share v sash r).frame num with
    | some f => (match s.encGeomOf v sash r f.cfg with
      | some g => if g.rowDone f row then a + partsSize (g.data (g.row f row)) else a
      | none => a)
    | none => a) 0

/-- A release row leaves (R156, R158, R161): its descriptor, the FRAME payload before the first row, each SLICE payload and
the data it heads, TRAILERs and filler after the last. Data without its record is discarded and counted in HDR_LATE
(R159; one for each stripe, or row of AV1, assumption 115); the rows of a frame without its FRAME record are missing whole. -/
def State.encRelease (s : State) (u sash r : Nat) (g : EncGeom) (f : EncFrame) (row : Nat) (late : Bool) : State :=
  let sh := s.enc.share u sash r
  let end_ := row + 1 = g.rows
  let others := if g.p.codec = 1 then s.rowOthers u sash r f.num row else 0
  let there := s.sliceThere sash r g f.num row
  let rp := rowParts g f.recs row others there (g.row f row)
  let gone := if f.pane then [] else rp.2
  let f1 : EncFrame := { f with
    rows := f.rows + 1, lateRows := f.lateRows.filter (· ≠ row), lost := if gone = [] then f.lost else f.lost ++ [row]
    gone := end_, recs := if end_ then [] else f.recs }
  let s1 := s.setShare u sash r (sh.setFrame f1)
  let lost := if f.hdrLate then 1 else gone.length
  let s2 := if lost = 0 then s1
    else (s1.encErr ENC.HDR_LATE.COUNT u lost).encRaise 0x0805 u sash f.num ((gone.head?).getD (row * g.g))
  if f.hdrLate then s2
  else if f.pane then f.panes.foldl (fun a p => a.paneChunk u sash r g f row late g.cfg.refreshN p) s2
  else
    let first := g.p.ti = 0
    let head : List RowPart := if row = 0 ∧ first then (f.recs.filter (·.kind = 0)).map fun h => .bytes (h.out 0) else []
    let tail : List RowPart := if end_ ∧ first then (f.recs.filter (·.kind = 2)).map fun h => .bytes (h.out 0) else []
    let e := kvGet (8 * sash + r) s2.enc.rends
    let fill := if end_ ∧ first then ((e.map (·.filler f.num)).getD 0) / 8 else 0
    let parts := head ++ rp.1 ++ tail ++ (if fill = 0 then [] else [.filler fill])
    let size := partsSize parts
    let s3 : State := { s2 with
      hub := s2.hub.stat ENC.BYTES_LO.COUNT u size
      enc := match e with
        | some e => s2.enc.setRend sash r { e with cnt := { e.cnt with bytes := e.cnt.bytes + size } }
        | none => s2.enc }
    s3.deliver sash (mkRef 1 u + r) "enc-row"
      ((leBytes 4 f.num ++ leBytes 2 row ++ leBytes 2 (s.rowFlags sash r g f row late) ++ leBytes 4 (f.cf % 1000000000) ++
        leBytes 4 (f.cf / 1000000000)).map BitVec.toNat ++ size :: parts.flatMap RowPart.args)

/-- Near-live and Best-effort rows leave as soon as they are complete and earlier ones have left (R161). -/
def State.encFlow (s : State) (u sash r : Nat) (g : EncGeom) (frame : Nat) : Nat → State
  | 0 => s
  | n + 1 =>
    match (s.enc.share u sash r).frame frame with
    | some f => if g.rowDone f f.rows then (s.encRelease u sash r g f f.rows false).encFlow u sash r g frame n else s
    | none => s

/-- The release time of a row: R_k of its last stripe (R161), times `scale`. -/
def EncGeom.rowTime (g : EncGeom) (r cf row : Nat) : Nat := g.release r cf (min ((row + 1) * g.g) g.n - 1)

/-- RELEASE_ROW_TIME (R161, R163): at the row's release time a complete row leaves; another is late. Before it nothing happens. -/
def execReleaseRowTime (unit sash rend frame row : Nat) (s : State) : Host.Outcome State Fault Refusal :=
  .next (s.inFrame unit sash rend frame fun g f s =>
      if !g.live ∨ g.rows ≤ row ∨ row < f.rows ∨ row ∈ f.lateRows ∨ !s.reached g (g.rowTime rend f.cf row) 0 then s
      else if row = f.rows ∧ g.rowDone f row then s.encRelease unit sash rend g f row false
      else
        let s1 := (s.encErr ENC.LATE.COUNT unit 1).encRaise 0x0803 unit sash frame (row * g.g)
        let sh := s1.enc.share unit sash rend
        let s2 := s1.setShare unit sash rend (sh.setFrame { f with lateRows := f.lateRows ++ [row] })
        match kvGet (8 * sash + rend) s2.enc.rends with
        | some e => { s2 with enc := s2.enc.setRend sash rend { e with cnt := { e.cnt with late := e.cnt.late + 1 } } }
        | none => s2)

/-- LATE_ROW_RELEASE (R163): a late row that has become complete leaves with LATE set. -/
def execLateRowRelease (unit sash rend frame row : Nat) (s : State) : Host.Outcome State Fault Refusal :=
  .next (s.inFrame unit sash rend frame fun g f s =>
    if row ∈ f.lateRows ∧ row = f.rows ∧ g.rowDone f row then s.encRelease unit sash rend g f row true else s)

/-! ### Stripes -/

/-- The status of the stripe in progress (Table 8.16). -/
def Hub.encStatus (h : Hub) (u state mode sash : Nat) : Hub :=
  ((h.set1 ENC.STATUS.STATE u state).set1 ENC.STATUS.MODE u mode).set1 ENC.STATUS.SASH u sash

/-- The mode R168 gives stripe `k`: 0 NORMAL, 1 FLOOR, 2 COPY. -/
def encDecide (mode bc fl cp later cap : Nat) : Nat :=
  if mode = 2 then 2
  else if cap < bc + fl + later * cp then 2
  else if mode = 1 ∨ cap < bc + (later + 1) * fl then 1
  else 0

/-- The mode the deadline allows (R175). -/
def deadlineMode (hN hF h : Nat) : Nat := if hN ≤ h then 0 else if hF ≤ h then 1 else 2

/-- Stripe `k` of the last frame started begins (R168, R175). A stripe whose input is missing is coded COPY and leaves the
frame's mode (R163). -/
def State.stripeBegin (s : State) (x : EncStart) (g : EncGeom) (f : EncFrame) : State :=
  let u := x.unit
  let sh := s.enc.share u x.sash x.rend
  let later := g.n - 1 - x.k
  let m1 := encDecide f.mode f.bc g.fl g.cp later f.cap
  let hN := (kvGet x.k sh.normal).getD (g.hc x.rend 0 x.k)
  let dm := if g.live then deadlineMode hN (g.hc x.rend 1 x.k) (s.encH g u x.sash x.rend f.cf x.k) else 0
  let m := max m1 dm
  let missed := (s.enc.side u x.sash).lacks g x.rend f.num x.k
  let mode := if missed then 2 else m
  let rows := if x.k % g.g = 0 then 8 * g.tileSize else 0
  let t : EncStripe :=
    { k := x.k, mode := mode, qp := if mode = 0 then f.qp else qpMax g.p.codec
      target := if x.cxRest = 0 then 0 else (f.target - f.bc) * x.cx / x.cxRest
      allow := f.cap - f.bc - later * g.fl }
  let f1 : EncFrame := { f with
    mode := m, bc := f.bc + rows, stripes := f.stripes ++ [t]
    firstFloor := if mode = 1 ∧ f.firstFloor.isNone then some x.k else f.firstFloor
    firstCopy := if mode = 2 ∧ f.firstCopy.isNone then some x.k else f.firstCopy
    saidFloor := f.saidFloor || m == 1, saidCopy := f.saidCopy || m == 2 }
  let s0 : State := { s with
    hub := s.hub.encStatus u 1 mode x.sash
    enc := s.enc.setShare u x.sash x.rend (sh.setFrame f1) }
  let s1 := s0.encCommit x.sash x.rend f.num rows
  if m = 1 ∧ f.mode = 0 ∧ !f.saidFloor then s1.encRaise 0x0801 u x.sash f.num x.k
  else if m = 2 ∧ f.mode ≠ 2 ∧ !f.saidCopy then s1.encRaise 0x0802 u x.sash f.num x.k
  else s1

/-- May a channel's units work: Live ones always, the others outside a pace emergency (R174)? -/
def State.encMay (s : State) (g : EncGeom) : Bool := g.live || !s.emergency

/-- A rendition that its waiting configuration disables stops at the frame start (R157). -/
def State.encDisable (s : State) (sash r : Nat) : State :=
  match kvGet (8 * sash + r) s.enc.rends with
  | some e => (match e.next with
    | some c => if r ≠ 0 ∧ !c.enable then { s with enc := s.enc.setRend sash r { e.configure c with frame := none, past := none } } else s
    | none => s)
  | none => s

/-- A stripe starts (R168): stripe 0 starts the next frame; another follows the stripe before it. A stripe waits for its input, unless
that has been declared missing (R163). -/
def State.stripeStart (s : State) (x : EncStart) : State :=
  let wait := fun (t : State) => ({ t with hub := t.hub.encStatus x.unit 2 3 0 } : State)
  let sh := s.enc.share x.unit x.sash x.rend
  let idle := match sh.last with
    | some f => f.stripes.all (·.done)
    | none => true
  let ready := fun (t : State) (g : EncGeom) (n : Nat) =>
    let sd := t.enc.side x.unit x.sash
    sd.hasInput g x.rend n x.k || sd.lacks g x.rend n x.k
  if x.k = 0 then
      let whole := match sh.last with
        | some f => (match s.encGeomOf x.unit x.sash x.rend f.cfg with
          | some g => decide (f.stripes.length = g.n)
          | none => true)
        | none => true
      let s0 := s.encDisable x.sash x.rend
      match s0.encGeom x.unit x.sash x.rend with
      | none => s0
      | some g0 =>
        if !idle ∨ !whole ∨ !s0.encMay g0 then s0
        else if !ready s0 g0 ((kvGet x.rend (s0.enc.side x.unit x.sash).started).getD 0) then wait s0
        else match s0.encFrameStart x.unit x.sash x.rend g0 with
          | none => wait s0
          | some s1 =>
            match s1.encGeom x.unit x.sash x.rend, (s1.enc.share x.unit x.sash x.rend).last with
            | some g, some f => s1.stripeBegin x g f
            | _, _ => s1
  else match sh.last with
    | some f => s.inFrame x.unit x.sash x.rend f.num fun g f t =>
      if !idle ∨ f.stripes.length ≠ x.k ∨ g.n ≤ x.k ∨ !t.encMay g then t
      else if ready t g f.num then t.stripeBegin x g f else wait t
    | none => s

/-- Block column and row of the stripe's next block, in units of 64 over the picture. -/
def EncGeom.col (g : EncGeom) (coded : Nat) : Nat := g.x0 / 64 + coded

/-- Blocks `a` to `b` − 1 of stripe `t` were not coded intra in NORMAL: a sweep column that holds one has failed (R170). -/
def EncFrame.fail (f : EncFrame) (g : EncGeom) (k a b : Nat) : EncFrame :=
  let hit := fun (lo width cols c : Nat) =>
    let w := sweepWidth cols g.cfg.refreshN
    decide (lo + c * w < g.col b ∧ g.col a < lo + min ((c + 1) * w) width)
  { f with
    failed := f.failed || (match f.col with
      | some c => hit 0 (ceilDiv g.w 64) (ceilDiv g.w 64) c
      | none => false)
    panes := f.panes.map fun p => match p.col with
      | some c => if p.y ≤ k ∧ k < p.y + p.h ∧ hit p.x p.w p.w c then { p with failed := true } else p
      | none => p }

/-- The pane stream a block belongs to, if any. -/
def EncFrame.paneOf (f : EncFrame) (c k : Nat) : Option Nat :=
  (f.panes.find? fun p => p.x ≤ c ∧ c < p.x + p.w ∧ p.y ≤ k ∧ k < p.y + p.h).map (·.stream)

/-- Add bits to a pane stream's list, or a tile's. -/
def addPane (l : List (Nat × Nat)) (p : Option Nat) (bits : Nat) : List (Nat × Nat) :=
  match p with
  | some i => l ++ [(i, bits)]
  | none => l

/-- A pane whose frame ended moves its sweep on (R206, R208). -/
def EncPane.ended (p : EncPane) (n : Nat) : EncPane :=
  if p.refresh then { p with sweep := 0 }
  else match p.col with
    | some c => { p with sweep := nextColumn p.w n c p.failed }
    | none => p

/-- The unit's frame ends (R169, R170): its status is reported, a failed column counts in REDO, and the overshoot lowers
the unit's next TARGET share. -/
def State.unitFrameEnd (s : State) (u sash r : Nat) (g : EncGeom) (f : EncFrame) : State :=
  let sh := s.enc.share u sash r
  let failed := f.failed || f.panes.any (·.failed)
  let s1 := s.setShare u sash r { sh with excess := f.bc - f.target }
  let s2 : State := { s1 with hub := s1.hub.emit (.token (mkRef 1 u) "enc-status"
    [sash, r, f.num, f.bc, (f.firstFloor.map (· + 1)).getD 0, (f.firstCopy.map (· + 1)).getD 0, f.demoted]) }
  let s3 := if failed then
      { (s2.encErr ENC.REDO.COUNT u 1) with hub := (s2.encErr ENC.REDO.COUNT u 1).hub.raise { code := 0x0808, inst := u, sash := sash } }
    else s2
  match kvGet (8 * sash + r) s3.enc.rends with
  | some e =>
    { s3 with enc := s3.enc.setRend sash r { e with
      redo := if f.failed ∧ e.frame ≠ some f.num ∧ e.col ≠ f.col then f.col else e.redo
      panes := e.panes.map fun p => (p.1, p.2.map fun x =>
        match f.panes.find? (·.stream = x.stream) with
        | some y => { (y.ended g.cfg.refreshN) with req := x.req }
        | none => x) } }
  | none => s3

/-- A stripe's last block is coded and its residue check has passed: its bits are committed (R166). -/
def State.stripeEnd (s : State) (u sash r : Nat) (g : EncGeom) (f : EncFrame) (t : EncStripe) : State :=
  let t1 : EncStripe := { t with done := true, retry := false }
  let f1 : EncFrame := { f with bc := f.bc + t.bits, stripes := f.stripes.map fun o => if o.k = t.k then t1 else o }
  let sh := (s.enc.share u sash r).setFrame f1
  let sh1 : EncShare := if t.mode = 0 then { sh with normal := kvPut t.k t.hc sh.normal } else sh
  let h1 := (s.hub.stat ENC.STRIPES_LO.COUNT u 1).encStatus u 2 3 0
  let s1 : State := { s with hub := h1, enc := s.enc.setShare u sash r sh1 }
  let s2 := if t.mode = 1 then s1.encErr ENC.FLOOR.COUNT u 1 else if t.mode = 2 then s1.encErr ENC.COPY.COUNT u 1 else s1
  let s3 : State := match kvGet (8 * sash + r) s2.enc.rends with
    | some e =>
      { s2 with enc := s2.enc.setRend sash r { (e.commit f.num t.bits) with
        cnt := { e.cnt with
          floor := e.cnt.floor + (if t.mode = 1 then 1 else 0), copy := e.cnt.copy + (if t.mode = 2 then 1 else 0) } } }
    | none => s2
  let s4 := if f1.stripes.length = g.n then s3.unitFrameEnd u sash r g f1 else s3
  if g.live then s4 else s4.encFlow u sash r g f.num g.rows

/-- The QP of the next block (R168): 1 for each 12.5 % by which the spend runs above or below pro rata, within
QP_BASE ± 12; the codec's maximum once the allowance is spent. -/
def nextQp (g : EncGeom) (f : EncFrame) (t : EncStripe) (coded bits : Nat) : Nat :=
  let top := qpMax g.p.codec
  let rata := t.target * coded / g.b
  if t.allow ≤ bits then top
  else if rata = 0 then t.qp
  else
    let q : Int := (t.qp : Int) + ((8 * ((bits : Int) - (rata : Int))).tdiv (rata : Int))
    min (max q ((f.qp : Int) - 12)) ((f.qp : Int) + 12) |>.toNat |> min top

/-- A residue mismatch (R176). -/
def State.encMismatch (s : State) (x : EncBlock) (g : EncGeom) (f : EncFrame) (t : EncStripe) : State :=
  let u := x.unit
  let hw := s.hub.get2 DBT.CH.SERVED_BY 1 u
  let sh := s.enc.share u x.sash x.rend
  let hc := t.hc + x.hc
  let again := !t.retry && s.hub.get1 ENC.CHK_CTL.RETRY u == 1 && decide (hc ≤ s.encH g u x.sash x.rend f.cf t.k)
  let mode := if again then t.mode else 2
  let t1 : EncStripe := { t with
    coded := 0, bits := 0, hc := 0, panes := [], tiles := [], retry := again, mode := mode
    qp := if mode = 0 then f.qp else qpMax g.p.codec }
  let f1 : EncFrame := { f with
    mode := if t.retry then 2 else f.mode, broken := f.broken || t.retry
    firstCopy := if t1.mode = 2 ∧ f.firstCopy.isNone then some t.k else f.firstCopy
    stripes := f.stripes.map fun o => if o.k = t.k then t1 else o }
  let h0 := s.hub.encStatus u 1 mode x.sash
  let h1 := (h0.err ENC.RETRY.COUNT u 0x080A u).raise { code := 0x0807, inst := u, sash := x.sash }
  let s1 : State := { s with hub := h1, enc := s.enc.setShare u x.sash x.rend (sh.setFrame f1) }
  let s2 := s1.transient (chanId 1 hw)
  if t.retry then s2.permanent (chanId 1 hw) 1 else s2

/-- BLOCK_CODED (R169, R176, R177). -/
def State.blockCoded (s : State) (x : EncBlock) (g : EncGeom) (f : EncFrame) (t : EncStripe) : State :=
  if x.mismatch ∧ !f.broken then s.encMismatch x g f t
  else
    let left := g.b - t.coded - 1
    let poisoned := x.poison ≠ 0
    let outside := f.pane && (f.paneOf (g.col t.coded) t.k).isNone
    let bits := if t.mode = 2 ∨ poisoned ∨ outside then x.copyBits else x.bits
    let tooBig := decide (t.mode ≠ 2 ∧ f.cap < f.bc + t.bits + bits + g.cpb * left + (g.n - 1 - t.k) * g.cp)
    let bits1 := if tooBig then x.copyBits else bits
    let f0 := if t.mode ≠ 0 ∨ poisoned ∨ tooBig then f.fail g t.k t.coded (t.coded + 1) else f
    let t1 : EncStripe := { t with
      coded := t.coded + 1, bits := t.bits + bits1, hc := t.hc + x.hc, mode := if tooBig then 2 else t.mode
      qp := if t.mode = 0 then nextQp g f t (t.coded + 1) (t.bits + bits1) else t.qp
      panes := addPane t.panes (f.paneOf (g.col t.coded) t.k) bits1
      tiles := t.tiles ++ [(g.tileOf (g.col t.coded), bits1)] }
    let f1 : EncFrame := { f0 with
      mode := if tooBig then 2 else f.mode, demoted := f.demoted + (if tooBig then 1 else 0)
      firstCopy := if tooBig ∧ f.firstCopy.isNone then some t.k else f.firstCopy
      stripes := f.stripes.map fun o => if o.k = t.k then t1 else o }
    let s1 := s.setShare x.unit x.sash x.rend ((s.enc.share x.unit x.sash x.rend).setFrame f1)
    let s2 : State := if tooBig then
        { (s1.encErr ENC.DEMOTED.COUNT x.unit 1) with hub := (s1.encErr ENC.DEMOTED.COUNT x.unit 1).hub.encStatus x.unit 1 2 x.sash }
      else s1
    let s3 := if poisoned then (s2.encErr ENC.POISON.COUNT x.unit 1).encRaise 0x0809 x.unit x.sash f.num t.k else s2
    if left = 0 then s3.stripeEnd x.unit x.sash x.rend g f1 t1 else s3

def execBlockCoded (x : EncBlock) (s : State) : Host.Outcome State Fault Refusal :=
  .next (match (s.enc.share x.unit x.sash x.rend).last with
    | some f => s.inFrame x.unit x.sash x.rend f.num fun g f s =>
      match f.stripes.find? (!·.done) with
      | some t => if t.coded < g.b ∧ s.encMay g then s.blockCoded x g f t else s
      | none => s
    | none => s)

/-- A stripe in progress turns COPY for what remains of it (R163). -/
def EncShare.cut (sh : EncShare) (g : EncGeom) (r n j : Nat) : EncShare :=
  match sh.frame n with
  | some f =>
    let hit := fun (t : EncStripe) => !t.done && (g.sources r t.k).contains j
    let f1 : EncFrame := { f with
      stripes := f.stripes.map fun t => if hit t then { t with mode := 2, qp := qpMax g.p.codec } else t
      firstCopy := f.firstCopy.orElse fun _ => (f.stripes.find? hit).map (·.k) }
    sh.setFrame f1
  | none => sh

/-- INPUT_DEADLINE (R163): at E_k − 20 µs the input of stripe `k` of a Live channel is not complete; the stripe, or what remains of it,
is coded COPY in every rendition that reads it. Where the unit has the stripe's lines, nothing happens. -/
def execInputDeadline (unit sash frame k : Nat) (s : State) : Host.Outcome State Fault Refusal :=
  let sd := s.enc.side unit sash
  .next (match s.encGeom unit sash 0, kvGet frame sd.pics with
    | some g, some cf =>
      if !g.live ∨ g.n ≤ k ∨ sd.missed.contains (frame, k) ∨ !s.reached g (g.deadline 0 cf k) 20000 ∨
          (!g.p.src1 ∧ sd.hasInput g 0 frame k) then s
      else
        let s1 := (s.encErr ENC.IN_MISS.COUNT unit 1).encRaise 0x0804 unit sash frame k
        let e1 := s1.enc.setSide unit sash
          { sd with missed := (sd.missed.filter fun m => !laterThan 32 m.1 frame) ++ [(frame, k)] }
        let e2 := (List.range 8).foldl (fun (e : EncSt) r => match s.encGeom unit sash r with
          | some gr => e.setShare unit sash r ((e.share unit sash r).cut gr r frame k)
          | none => e) e1
        let busy := s.hub.get1 ENC.STATUS.SASH unit = sash ∧ s.hub.get1 ENC.STATUS.MODE unit ≠ 3 ∧
          ((e2.share unit sash 0).frame frame).any fun f => f.stripes.any fun t => t.k = k ∧ !t.done
        { s1 with hub := if busy then s1.hub.encStatus unit 1 2 sash else s1.hub, enc := e2 }
    | _, _ => s)

/-- CODING_DEADLINE (R175): E_k has passed; the blocks not coded are coded in COPY, with `bits` each, and count as demoted. -/
def execCodingDeadline (unit sash rend frame k : Nat) (bits : List Nat) (s : State) : Host.Outcome State Fault Refusal :=
  .next (s.inFrame unit sash rend frame fun g f s =>
      let t := (f.stripes.find? (·.k = k)).getD { k := k, mode := 2, qp := qpMax g.p.codec }
      if !g.live ∨ t.done ∨ g.n ≤ k ∨ f.stripes.length < k ∨ !s.reached g (g.deadline rend f.cf k) 0 then s
      else
        let left := g.b - t.coded
        let own := (List.range left).map fun i => (t.coded + i, bits.getD i 0)
        let t1 : EncStripe := { t with
          coded := g.b, bits := own.foldl (fun a b => a + b.2) t.bits, mode := 2
          panes := own.foldl (fun a b => addPane a (f.paneOf (g.col b.1) k) b.2) t.panes
          tiles := t.tiles ++ own.map fun b => (g.tileOf (g.col b.1), b.2) }
        let f0 := f.fail g k t.coded g.b
        let f1 : EncFrame := { f0 with
          demoted := f.demoted + left
          firstCopy := if f.firstCopy.isNone then some k else f.firstCopy
          stripes := if f.stripes.any (·.k = k) then f.stripes.map (fun o => if o.k = k then t1 else o) else f.stripes ++ [t1] }
        let s1 := s.encErr ENC.DEMOTED.COUNT unit left
        s1.stripeEnd unit sash rend g f1 t1)

/-! ### The encode service (Table 8.12) -/

/-- A configuration as Table 8.13 reads it; the size of rendition 0 is the personality's. -/
def encCfgOf (b : List Byte) : EncCfg :=
  let buf := min (max (bodyN b 8 2) 1) 1000
  let fps := fpsOf (bodyN b 12 4) (bodyN b 16 4) 1
  let n := bodyN b 0x18 2
  { enable := bodyU8 b 2 = 0 ∨ bodyU8 b 3 % 2 = 1, vbr := bodyU8 b 3 / 2 % 2 == 1, kbps := bodyN b 4 4, bufMs := buf
    initMs := min (bodyN b 10 2) buf, num := fps.1, den := fps.2, w := bodyN b 0x14 2, h := bodyN b 0x16 2
    refreshN := if n = 0 then 0 else min (max n 4) 256, keyInt := bodyN b 0x1A 2
    colour := if bodyU8 b 0x1C ≤ 3 then bodyU8 b 0x1C else 0, refs := min (max (bodyU8 b 0x1D) 1) 4 }

/-- The copy cost of a frame over all tiles (R165, R167). -/
def encFrameCopy (ps : List EncPers) (w h : Nat) : Nat :=
  match ps with
  | [] => 0
  | p :: _ =>
    let xs := (encTiles ps).1.map fun x => if w = p.outW then x else x * w / p.outW / 64 * 64
    ceilDiv h 64 * (tileWidths w xs).foldl (fun a t => a + copyBits p.codec * ceilDiv t 64 + 64) 0

/-- Why an ENC_CONFIG is refused, if it is. -/
def State.encRefused (s : State) (e : CmdEnv) (b : List Byte) : Option Nat :=
  let sash := bodyN b 0 2
  let r := bodyU8 b 2
  let ps := (s.encUnits sash).map fun u => s.encPers u (s.fab.cls sash)
  match ps with
  | [] => some 3
  | p :: _ =>
    let c := encCfgOf b
    let sz := c.size p r
    if !s.hub.reachesSash e.fn sash then some 5
    else if 7 < r ∨ bodyN b 12 4 = 0 then some 4
    else if r ≠ 0 ∧ (p.outW < c.w ∨ p.outH < c.h ∨ 8 * c.w < p.outW ∨ 8 * c.h < p.outH) then some 4
    else if c.kbps * 1000 * c.den < (encFrameCopy ps sz.1 sz.2 + 4096) * c.num then some 4
    else none

/-- The status of a unit under its personality (R152–R155, R173): set when a load Latch, a configuration or a build may
have changed it. -/
def State.encSetup (s : State) (u : Nat) : State :=
  let sashes := s.encSashes u
  let p := s.encPers u 1
  let need := sashes.foldl (fun a n => a + s.slotNeed u n) 0
  let slots := s.slotCount u
  let bad := s.encBad u
  let refs := sashes.zip (cutRefs slots (sashes.map fun n => (s.slotNeed u n, s.enc.refsOf n)))
  let fix := sashes.any fun n => (encTiles ((s.encUnits n).map fun i => s.encPers i (s.fab.cls n))).2
  let spare := p.codec = 4 ∧ 1 < p.tc ∧ sashes.all fun n => (s.encUnits n).head? ≠ some u
  let b := fun (x : Bool) => if x then 1 else 0
  let on := p.code ≠ 0 ∧ !bad
  let was := s.hub.get1 ENC.STATUS.STATE u
  let h := s.hub
  let h1 := ((h.set1 ENC.PERS.CODE u p.code).set1 ENC.STATUS.PROFILE_CLAMP u (b (on && p.clamp))).set1 ENC.STATUS.TILE_FIX u
    (b (on && fix))
  let h2 := ((h1.set1 ENC.STATUS.SCALE_CLAMP u (b (on && p.scaleClamp))).set1
    ENC.STATUS.SLOTS_CUT u (b (on && decide (slots < need)))).set1 ENC.STATUS.SASHES u sashes.length
  let h3 := h2.set1 ENC.STATUS.STATE u (if bad then 3 else if p.code = 0 ∨ spare then 0 else if was = 1 then 1 else 2)
  { s with
    hub := if bad ∧ was ≠ 3 then h3.raise { code := 0x080B, inst := u } else h3
    enc := refs.foldl (fun (e : EncSt) q => e.setSide u q.1 { (e.side u q.1) with refs := q.2 }) s.enc }

/-- Transport outputs that a rendition feeds write new init segments (R237). -/
def State.cmafInitDue (s : State) (sash r : Nat) : State :=
  let fed := fun (n : Nat) => s.fab.built.any fun b => b.sash = sash ∧ b.dst = mkRef 12 n ∧ refType b.src = 1 ∧ refPort b.src = r
  { s with bio := { s.bio with tsos := s.bio.tsos.map fun e => if fed e.1 then (e.1, { e.2 with initDue := List.range 9 }) else e } }

/-- A rendition begins at the channel's next frame: on each unit, the next number of rendition 0. -/
def State.rendFrom (s : State) (sash r : Nat) : State :=
  { s with enc := (s.encUnits sash).foldl (fun (e : EncSt) u =>
    let sd := e.side u sash
    e.setSide u sash { sd with started := kvPut r ((kvGet 0 sd.started).getD 0) sd.started }) s.enc }

/-- A configuration is accepted: it waits for the channel's next frame start. A rendition's first, and the first after one that
disabled it, starts its HRD. -/
def State.encConfig (s : State) (b : List Byte) : State :=
  let sash := bodyN b 0 2
  let r := bodyU8 b 2
  let c := encCfgOf b
  let old := kvGet (8 * sash + r) s.enc.rends
  let e : EncRend := match old with
    | some e => if e.frame.isNone then { e with cfg := c, next := none, full := c.initial } else { e with next := some c }
    | none => { cfg := c, full := c.initial }
  let s1 := if r ≠ 0 ∧ (old.bind EncRend.frame).isNone then s.rendFrom sash r else s
  ((s1.encUnits sash).foldl State.encSetup { s1 with enc := s1.enc.setRend sash r e }).cmafInitDue sash r

/-- ENC_CONFIG (R165, Table 8.12). -/
def execEncConfig (e : CmdEnv) (body : List Byte) (s : State) : Host.Outcome State Fault Refusal :=
  .next (match s.encRefused e body with
    | some st => s.done e 0x0301 st []
    | none =>
      if e.latched then s.hold e 0x0301 (.encConfig e body)
      else (s.encConfig body).done e 0x0301 0 [])

/-- A refresh request reaches a rendition (R171); in pane mode every pane of it, each answered by a pane refresh where a
key picture is asked or sweeps are off (R217). -/
def State.encRefresh (s : State) (sash r : Nat) (key : Bool) : State :=
  match kvGet (8 * sash + r) s.enc.rends with
  | none => s
  | some e =>
    let now := (s.hub.elapsed, s.hub.time.total)
    match e.panes with
    | some (spl, l) =>
      if key ∨ e.cfg.refreshN = 0 then l.foldl (fun a p => a.paneNeed spl p.stream) s
      else { s with enc := s.enc.setRend sash r { e with
        panes := some (spl, l.map fun p => { p with req := match p.req with | some q => some q | none => some now }) } }
    | none =>
      let req := match e.req with
        | some (a, b, k) => (a, b, k || key)
        | none => (now.1, now.2, key)
      { s with enc := s.enc.setRend sash r { e with req := some req } }

/-- ENC_REFRESH (R171). -/
def execEncRefresh (e : CmdEnv) (body : List Byte) (s : State) : Host.Outcome State Fault Refusal :=
  let sash := bodyN body 0 2
  .next (if s.encUnits sash = [] then s.done e 0x0302 3 []
    else if !s.hub.reachesSash e.fn sash then s.done e 0x0302 5 []
    else ((List.range 8).foldl (fun (a : State) r =>
      if (bodyU8 body 2).testBit r then a.encRefresh sash r (bodyU8 body 3 != 0) else a) s).done e 0x0302 0 [])

/-- ENC_STATS (Table 8.12), as of the last publication. -/
def execEncStats (e : CmdEnv) (body : List Byte) (s : State) : Host.Outcome State Fault Refusal :=
  let sash := bodyN body 0 2
  .next (if s.encUnits sash = [] then s.done e 0x0303 3 []
    else if !s.hub.reachesSash e.fn sash then s.done e 0x0303 5 []
    else match kvGet (8 * sash + bodyU8 body 2) s.enc.rends with
      | none => s.done e 0x0303 3 []
      | some r =>
        let c := r.pub
        s.done e 0x0303 0 (leBytes 8 c.frames ++ leBytes 8 c.bytes ++ leBytes 4 c.floor ++ leBytes 4 c.copy ++
          leBytes 4 c.late ++ leBytes 4 c.last ++ leBytes 4 c.full ++ leBytes 4 c.col))

/-- At a publication the statistics of every rendition are taken (R89). -/
def EncSt.publish (e : EncSt) : EncSt := { e with rends := e.rends.map fun r => (r.1, { r.2 with pub := r.2.cnt }) }

end Sys2Proof.Machine
end

