-- ==== Sys2Proof/Machine/Vin.lean ====
section
/-!
DEFINITION. Video inputs (R223–R231): personalities and flows, ST 2022-7 merge, the line store, capture times, audio and
ancillary data, SDI input and output.
-/

namespace Sys2Proof.Machine

/-! ### Personalities (R223) -/

/-- A flow entry (Table 11.3). -/
structure VinFlow where
  kind : Nat
  pathB : Bool
  eth : Nat
  pt : Nat
  dst : List Byte
  port : Nat
  v6 : Bool
  chans : Nat
  xpt : Nat
  group : Nat
  deriving DecidableEq, Repr

def vinFlow (b : List Byte) : VinFlow :=
  { kind := bodyU8 b 0, pathB := bodyU8 b 1 == 1, eth := bodyU8 b 2, pt := bodyU8 b 3 % 128, dst := (b.drop 4).take 16
    port := bodyN b 20 2, v6 := bodyU8 b 22 % 2 == 1, chans := min (max (bodyU8 b 23) 1) 64, xpt := bodyN b 24 2, group := bodyU8 b 26 % 8 }

/-- A VIN personality as it acts (Table 11.2). -/
structure VinPers where
  code : Nat
  v422 : Bool
  ten : Bool
  w : Nat
  h : Nat
  merge : Nat
  num : Nat
  den : Nat
  offset : Nat
  lane : Nat
  flows : List VinFlow
  part : Nat
  ancQp : Nat
  ancNone : Bool
  deriving DecidableEq, Repr

/-- A size of 0 acts as 64. -/
def vinSize (v most : Nat) : Nat := if v = 0 then 64 else min v most

def FabSt.vinPers (f : FabSt) (v : Nat) : VinPers :=
  let p := f.persAt 11 v
  let b := p.2
  let num := if bodyN b 8 4 = 0 then 60 else bodyN b 8 4
  let den := if bodyN b 12 4 = 0 then 1 else bodyN b 12 4
  { code := p.1, v422 := bodyU8 b 0 != 1, ten := bodyU8 b 1 != 1, w := vinSize (bodyN b 2 2) 8192, h := vinSize (bodyN b 4 2) 4320
    merge := min (bodyN b 6 2) 150, num := if den * 120 < num then 120 else num, den := if den * 120 < num then 1 else den
    offset := min (bodyN b 16 4) 200000, lane := bodyU8 b 20
    flows := (List.range (min (bodyU8 b 21) 16)).map fun i => vinFlow (b.drop (32 + 32 * i))
    part := bodyN b 22 2 % 4096, ancQp := bodyN b 24 2 % 1024, ancNone := 32768 ≤ bodyN b 24 2 }

/-- T_f in ns. -/
def VinPers.tf (p : VinPers) : Nat := 1000000000 * p.den / p.num

/-- The group of the first video entry: the only one used. -/
def VinPers.video (p : VinPers) : Option Nat := (p.flows.find? (·.kind = 0)).map (·.group)

/-- Is a flow entry used (Tables 11.1 and 11.3)? -/
def VinPers.uses (p : VinPers) (e : VinFlow) : Bool :=
  decide (e.kind < 4) && (e.kind != 0 || (p.code == 1 && p.video == some e.group))

def BioSt.vin (b : BioSt) (v : Nat) : VinUnit := (kvGet v b.vins).getD {}
def State.setVin (s : State) (v : Nat) (x : VinUnit) : State := { s with bio := { s.bio with vins := kvPut v x s.bio.vins } }

/-- The sash that holds a VIN. -/
def FabSt.vinSash (f : FabSt) (v : Nat) : Nat :=
  ((f.built.find? fun b => refUnit b.dst = mkRef 11 v ∨ refUnit b.src = mkRef 11 v).map (·.sash)).getD 0xFFFF

/-- Is the SDI lane of a personality, LN00–LN15, built as a receive port (MODE SDI_RX of Table 18.1)? -/
def FabSt.sdiLane (f : FabSt) (p : VinPers) : Bool := decide (p.lane < 16) && ((f.port 3 p.lane).map (·.mode)) == some 0x2000

/-- Has the SDI lane of a personality lost lock (R24)? -/
def State.sdiLost (s : State) (p : VinPers) : Bool := (s.fab.lanesOf 3 p.lane).any fun n => !s.up (.lane n)

/-- Sources that the audio flows of a VIN name (R244), below the crosspoint's size. -/
def VinPers.sources (p : VinPers) (size : Nat) : List Nat :=
  (p.flows.filter fun e => e.kind = 1 ∨ e.kind = 2).flatMap fun e =>
    ((List.range e.chans).map (e.xpt + ·)).filter (· < size)

/-- A VIN takes its personality in force (R223): its sources are bound to it, sources of an earlier personality are free
again, and reception starts afresh. -/
def State.vinSetup (s : State) (v : Nat) : State :=
  let p := s.fab.vinPers v
  let bad := 2 < p.code
  let was := s.hub.get1 VIN.STATUS.STATE v
  let h := (((s.hub.set1 VIN.PERS.CODE v p.code).set1 VIN.STATUS.STATE v (if bad then 3 else if p.code = 0 then 0 else 1)).set1
    VIN.STATUS.PATH_A v 0).set1 VIN.STATUS.PATH_B v 0
  let h1 := h.set1 VIN.STATUS.SKEW v 0
  let freed := s.aud.srcs.map fun e => if e.2.kind = 2 ∧ e.2.ref = v then (e.1, { e.2 with kind := 0, ref := 0 }) else e
  let srcs := if bad ∨ p.code = 0 then [] else p.sources s.hub.xptSize
  let a := srcs.foldl (fun (a : AudSt) n => a.setSrc n { (a.src n) with kind := 2, ref := v }) { s.aud with srcs := freed }
  ({ s with
    hub := if bad ∧ was ≠ 3 then h1.raise { code := 0x0C09 } else h1
    aud := a } : State).setVin v {}

/-! ### Classification (R224) -/

/-- The VIN and flow entry that a frame's destination matches. -/
def State.vinMatch (s : State) (f : RxFrame) : Option (Nat × Nat) :=
  (List.range (s.hub.unitCount 11)).findSome? fun v =>
    let p := s.fab.vinPers v
    if p.code ≠ 1 ∧ p.code ≠ 2 then none
    else (p.flows.zipIdx.find? fun e => p.uses e.1 && e.1.eth == f.port && e.1.v6 == f.ipv6 && e.1.port == f.dport &&
      (if f.ipv6 then e.1.dst == f.dst.take 16 else e.1.dst.take 4 == f.dst.take 4)).map fun e => (v, e.2)

/-- Does the path from the port's slice to the VIN's port 0 stand? -/
def FabSt.vinPath (f : FabSt) (v port : Nat) : Bool :=
  f.built.any fun b => b.dst = mkRef 11 v ∧ refUnit b.src = mkRef 8 (port % 8) ∧ !b.waiting

/-! ### Counters and signal -/

def State.vinErr (s : State) (f : Fld) (v n code : Nat) : State :=
  let h := s.hub.errN f v n 0x0C0A 0
  { s with hub := if n = 0 then s.hub else if code = 0 then h else h.raiseRl { code := code, inst := v, detail := [v] } }

/-- A frame without a path is dropped and counted in LOST (R224). -/
def State.vinNoPath (s : State) (v : Nat) : State := s.vinErr VIN.LOST.COUNT v 1 0x0C05
def State.vinFmtBad (s : State) (v n : Nat) : State := s.vinErr VIN.FMT_BAD.COUNT v n 0x0C04

/-- A complete frame returns the VIN to LOCKED (R227). -/
def State.vinLocked (s : State) (v : Nat) : State :=
  if s.hub.get1 VIN.STATUS.STATE v = 1 then
    { s with hub := (s.hub.set1 VIN.STATUS.STATE v 2).raise { code := 0x0C01, sash := s.fab.vinSash v, detail := [v] } }
  else s

/-! ### Times (R226) -/

/-- The latest instant in ns, not after `now`, at which floor(t × rate) mod 2^32 is `ts`. -/
def tsInstant (rate ts now : Nat) : Nat :=
  let tick := now * rate / 1000000000
  let t := tick - (tick + 2 ^ 32 - ts % 2 ^ 32) % 2 ^ 32
  min now (ceilDiv ((t + 1) * 1000000000) rate - 1)

/-- The media tick of rate `rate` that a timestamp names, not after `now`. -/
def tsTick (rate ts now : Nat) : Nat :=
  let tick := now * rate / 1000000000
  tick - (tick + 2 ^ 32 - ts % 2 ^ 32) % 2 ^ 32

/-- The first ENC unit that a VIN's paths feed, with its channel. -/
def FabSt.vinEnc (f : FabSt) (v : Nat) : Option (Nat × Nat) :=
  (f.built.find? fun b => refUnit b.src = mkRef 11 v ∧ refType b.dst = 1 ∧ !b.waiting).map fun b => (refInst b.dst, b.sash)

/-- The last source line, as a count, that stripe `k` of a VIN's channel needs (R160); 64 lines a stripe without a channel. -/
def State.vinBound (s : State) (v : Nat) (p : VinPers) (k : Nat) : Nat :=
  match (s.fab.vinEnc v).bind fun x => s.encGeom x.1 x.2 0 with
  | some g => min p.h (lastLine p.h g.h0 k)
  | none => min p.h (64 * (k + 1))

/-- E of R160 in frame periods. -/
def State.vinExtra (s : State) (v : Nat) : Nat :=
  match (s.fab.vinEnc v).bind fun x => s.encGeom x.1 x.2 0 with
  | some g => (if 1 ≤ g.p.rot % 4 then 1 else 0) + g.p.la
  | none => 0

/-- C_0 of a frame (R160). -/
def State.vinC0 (s : State) (v : Nat) (p : VinPers) (cf : Nat) : Nat :=
  cf + s.vinExtra v * p.tf + p.tf * s.vinBound v p 0 / p.h

/-! ### The line store (R228) -/

/-- Bytes of a line, and slots of the store. -/
def VinPers.lineBytes (p : VinPers) : Nat := ceilDiv (p.w * (if p.v422 then 20 else 15)) 512 * 64
def State.vinSlots (s : State) (p : VinPers) : Nat := ((s.fab.part p.part).map (·.size)).getD 0 / p.lineBytes

/-- Replace a frame. -/
def VinUnit.setFrame (x : VinUnit) (f : VinFrame) : VinUnit := { x with frames := x.frames.map fun o => if o.num = f.num then f else o }

/-- Components of `px` luma samples. -/
def VinPers.comps (p : VinPers) (px : Nat) : Nat := if p.v422 then 2 * px else 3 * px / 2

/-- A component of the wire at 10 bits: 12-bit ones are rounded half up (R225). -/
def VinPers.toTen (p : VinPers) (v : Nat) : Nat := if p.ten then v % 1024 else min 1023 ((v % 4096 + 2) / 4)

/-- Components as 10-bit fields, most significant bit first (assumption 122). -/
def packTen (l : List Nat) : Nat := l.foldl (fun a v => a * 1024 + v % 1024) 0

/-- The byte of a partition's line slot at which component `c` begins, and the bits before it in that byte. -/
def VinPers.place (p : VinPers) (slot c : Nat) : Nat × Nat := (slot * p.lineBytes + 10 * c / 8, 10 * c % 8)

/-- Components of a line, from component `c` on, are written in its slot of the line store (R228). -/
def State.vinStore (s : State) (p : VinPers) (slot c : Nat) (comps : List Nat) : State :=
  match s.fab.part p.part with
  | some q =>
    let l := comps.map p.toTen
    let at_ := p.place slot c
    let bits := 10 * l.length
    let n := ceilDiv (at_.2 + bits) 8
    let tail := 8 * n - at_.2 - bits
    let old := beNat (s.partRead q at_.1 n).1
    let new := old / 2 ^ (bits + tail) * 2 ^ (bits + tail) + packTen l * 2 ^ tail + old % 2 ^ tail
    if l = [] then s else s.partWrite q at_.1 (beBytes n new)
  | none => s

/-- Components `c` to `c + n − 1` of a slot's line as the store holds them, and whether a word read poisoned. -/
def State.vinRead (s : State) (p : VinPers) (slot c n : Nat) : List Nat × Bool :=
  match s.fab.part p.part with
  | some q =>
    let at_ := p.place slot c
    let m := ceilDiv (at_.2 + 10 * n) 8
    let r := s.partRead q at_.1 m
    let v := beNat r.1
    ((List.range n).map fun i => v / 2 ^ (8 * m - at_.2 - 10 * (i + 1)) % 1024, r.2)
  | none => (List.replicate n 0, false)

/-- The stripe of a row. -/
def State.vinStripe (s : State) (v : Nat) (p : VinPers) (row : Nat) : Nat :=
  ((List.range (ceilDiv p.h 64 + 1)).find? fun k => row < s.vinBound v p k).getD 0

/-- Samples of a line arrive (R228): late where its stripe has been streamed, lost where its slot holds a line not yet
streamed; each line is counted once. A frame whose last line is complete locks the VIN. -/
def State.vinLine (s : State) (v : Nat) (p : VinPers) (num row off px : Nat) (comps : List Nat) : State :=
  let x := s.bio.vin v
  match x.frames.find? (·.num = num) with
  | none => s
  | some f =>
    if row ∈ f.counted then s
    else if s.vinStripe v p row ∈ f.streamed then
      (s.setVin v (x.setFrame { f with counted := row :: f.counted })).vinErr VIN.LATE.COUNT v 1 0
    else
      let n := s.vinSlots p
      let slot := (num * p.h + row) % n
      let old := kvGet slot x.store
      let here : Bool := match old with
        | some l => l.frame == num && l.row == row
        | none => false
      let full : Bool := n == 0 || (match old with
        | some l => !here && !l.streamed
        | none => false)
      if full then (s.setVin v (x.setFrame { f with counted := row :: f.counted })).vinErr VIN.LOST.COUNT v 1 0x0C05
      else
        let l : VinLine := match old with
          | some l => if here then { l with px := l.px + px } else { frame := num, row := row, px := px }
          | none => { frame := num, row := row, px := px }
        let was : Nat := if here then l.px - px else 0
        let f1 : VinFrame := if was < p.w ∧ p.w ≤ l.px then { f with lines := f.lines + 1 } else f
        let s1 := (s.vinStore p slot (p.comps off) (comps.take (p.comps px))).setVin v { (x.setFrame f1) with store := kvPut slot l x.store }
        if f1.lines = p.h ∧ f.lines ≠ p.h then s1.vinLocked v else s1

/-- Start a frame (R226), newest first; frames that have been streamed whole and lie behind the window are let go. -/
def State.vinFrame (s : State) (v : Nat) (p : VinPers) (ts cf : Nat) (bad : Bool) : State :=
  let x := s.bio.vin v
  let n := (List.range (ceilDiv p.h 64 + 1)).countP fun k => k = 0 || decide (s.vinBound v p (k - 1) < p.h)
  let keep := x.frames.filter fun f => decide (f.streamed.length < n) && decide (cf < f.cf + 1000000000) ||
    decide (cf ≤ f.cf + p.merge * 1000000 + p.tf)
  s.setVin v { x with frames := { num := x.next, ts := ts, cf := cf, bad := bad } :: keep, next := x.next + 1 }

/-- Has C_k come: C_f + E + T_f × l_k / SRC_H (R160)? -/
def State.vinDue (s : State) (v : Nat) (p : VinPers) (cf k : Nat) : Bool :=
  decide (cf * p.num * p.h + 1000000000 * p.den * (s.vinExtra v * p.h + s.vinBound v p k) ≤ s.hub.time.total * p.num * p.h)

/-- Source columns that a unit's path carries (R228): those of its tile, with 4 more on each side where the input is scaled. -/
def State.vinCols (s : State) (p : VinPers) (u sash : Nat) : Nat × Nat :=
  match s.encGeom u sash 0 with
  | some g =>
    if 1 ≤ g.p.rot % 2 then (0, p.w)
    else
      let a := ((g.p.sampleAt g.x0 0).map Prod.fst).getD 0
      let z := ((g.p.sampleAt (min g.x1 g.p.scaled.1 - 1) 0).map Prod.fst).getD (p.w - 1)
      let lo := min a z
      let hi := max a z + 1
      if g.p.scaled = g.p.turned then (min p.w lo, min p.w hi) else (min p.w (lo - 4), min p.w (hi + 4))
  | none => (0, p.w)

/-- A stripe's lines go out on one path: which columns, and of each line its number and its components there; a line that is missing is
left out. -/
def State.vinPath (s : State) (sash : Nat) (p : VinPers) (f : VinFrame) (k lo : Nat) (rows : List Nat) (b : BuiltPath) : State :=
  let n := s.vinSlots p
  let c := if refType b.dst = 1 then s.vinCols p (refInst b.dst) sash else (0, p.w)
  let from_ := p.comps c.1
  let got := rows.map fun r => (r, s.vinRead p ((f.num * p.h + r) % n) from_ (p.comps c.2 - from_))
  let args := [f.num, f.ts, f.cf, k, lo, c.1, c.2] ++ got.flatMap fun e => e.1 :: e.2.1
  { s with hub := s.hub.emit (.token b.dst "vin-stripe" args { poison := got.any fun e => e.2.2, epoch := b.epoch }) }

/-- At C_k a stripe (R228) is streamed to every ENC path; its missing lines are counted in LOST. -/
def State.vinStream (s : State) (vin frame k : Nat) : State :=
  let p := s.fab.vinPers vin
  let x := s.bio.vin vin
  match x.frames.find? (·.num = frame) with
  | none => s
  | some f =>
      if !(((s.fab.part p.part).map s.partLive).getD true) ∨ k ∈ f.streamed ∨ (p.code ≠ 1 ∧ p.code ≠ 2) ∨ !s.vinDue vin p f.cf k then s
      else
        let lo := if k = 0 then 0 else s.vinBound vin p (k - 1)
        let rows := (List.range (s.vinBound vin p k)).drop lo
        let n := s.vinSlots p
        let have_ := fun (r : Nat) => match kvGet ((frame * p.h + r) % n) x.store with
          | some l => decide (n ≠ 0) && l.frame == frame && l.row == r && decide (p.w ≤ l.px)
          | none => false
        let missing := rows.filter fun r => !have_ r
        let store := x.store.map fun e => if e.2.frame = frame ∧ e.2.row ∈ rows then (e.1, { e.2 with streamed := true }) else e
        let x1 : VinUnit := { (x.setFrame { f with streamed := k :: f.streamed }) with store := store }
        let s1 := (s.setVin vin x1).vinErr VIN.LOST.COUNT vin (missing.filter fun r => r ∉ f.counted).length 0x0C05
        let sash := s.fab.vinSash vin
        let paths := s.fab.built.filter fun b => b.sash = sash ∧ b.src = mkRef 11 vin ∧ !b.waiting
        let s2 := paths.foldl (fun a b => a.vinPath sash p f k lo (rows.filter fun r => !missing.contains r) b) s1
        let s3 := s2.encInput sash (mkRef 11 vin) f.cf fun _ => s.vinBound vin p k
        if missing = [] then s3 else s3.encGap sash (mkRef 11 vin) f.cf k

/-! ### Merge (R227) -/

/-- Ticks per second of a kind's RTP clock. -/
def vinRate (kind : Nat) : Nat := if kind = 1 ∨ kind = 2 then 48000 else 90000

/-- Does a timestamp lie more than MERGE_MS + T_f before another? -/
def VinPers.old (p : VinPers) (rate newest ts : Nat) : Bool :=
  let d := wrapDiff 32 ts newest
  decide (0 < d) && decide (rate * (p.merge * p.num + 1000 * p.den) < d.toNat * 1000 * p.num)

/-- What becomes of a packet of a group. -/
inductive VinVerdict where
  | use | copy | old
  deriving DecidableEq, Repr

/-- Merge one packet: its path's arrival is noted; the first copy is used. -/
def VinGroup.take (g : VinGroup) (p : VinPers) (rate seq ts : Nat) (pathB : Bool) (now : Nat) : VinGroup × VinVerdict :=
  let g1 : VinGroup := if pathB then { g with lastB := some now } else { g with lastA := some now }
  match g.newest with
  | some n =>
    if p.old rate n ts then (g1, .old)
    else match g.used.find? (·.1 = seq) with
      | some (_, _, b, t) =>
        if b = pathB then (g1, .copy)
        else
          let d : Int := if pathB then (now : Int) - t else (t : Int) - now
          ({ g1 with skew := g1.skew + d, both := g1.both + 1 }, .copy)
      | none =>
        let n1 := if laterThan 32 n ts then ts else n
        ({ g1 with newest := some n1, used := (seq, ts, pathB, now) :: g.used.filter fun u => !p.old rate n1 u.2.1 }, .use)
  | none => ({ g1 with newest := some ts, used := [(seq, ts, pathB, now)] }, .use)

/-- SKEW in units of 8 µs, saturating; 0 when either path is down. -/
def VinGroup.skewField (g : VinGroup) : Nat :=
  if g.both = 0 ∨ g.lastA.isNone ∨ g.lastB.isNone then 0
  else
    let m := (g.skew / (g.both : Int)) / 8000
    ((max (-32768) (min 32767 m)) % 65536).toNat

/-! ### Ancillary data (R231) -/

/-- One ancillary packet of the frame with timestamp `ts`: captions go with their frame when they arrive 250 µs before its
C_0, else with the first frame that starts at least 250 µs after the arrival; others to ANC_QP. -/
def State.ancOne (s : State) (v : Nat) (p : VinPers) (ts cf : Nat) (a : AncPkt) : State :=
  let now := s.hub.time.total
  if a.did = 0x61 ∧ (a.sdid = 1 ∨ a.sdid = 2) then
    let c0 := s.vinC0 v p cf
    let n := if now + 250000 ≤ c0 then 0 else max 1 (ceilDiv (now + 250000 - c0) p.tf)
    let s1 := if n = 0 then s else s.vinErr VIN.ANC_LATE.COUNT v 1 0x0C06
    s1.deliver (s.fab.vinSash v) (mkRef 11 v) "caption" ([ts, n, a.sdid] ++ a.data.map BitVec.toNat)
  else if p.ancNone then s
  else
    let sash := s.fab.vinSash v
    let item := leBytes 1 a.did ++ leBytes 1 a.sdid ++ leBytes 2 a.line ++ leBytes 4 ts ++ a.data
    { s with hub := s.hub.qpDeliver p.ancQp (s.fab.hasPath sash (mkRef 11 v) (mkRef 16 (p.ancQp / 8))) item }

/-! ### Audio (R231, R254) -/

/-- Samples of an audio packet enter their source blocks at media time + `AUD.IN_DELAY`; those whose block has been read are
discarded and counted. A pair marked as data enters as zeros, and its samples are kept for ST 302M tracks. -/
def State.vinAudio (s : State) (v : Nat) (e : VinFlow) (x : VinPkt) : State :=
  let delay := min (max (s.hub.get AUD.IN_DELAY.US) 125) 200000
  let first := tsTick 48000 x.ts s.hub.time.total + 6 * delay / 125
  let read := 6 * s.fab.period
  (List.range (min e.chans x.audio.length)).foldl (fun (a : State) c =>
    let src := e.xpt + c
    let pcm := x.audio.getD c []
    let late := read - first
    let data := e.kind = 2 ∧ x.marked.getD (c / 2) false = true
    let vals := (pcm.drop late).map fun y => some (if data then 0 else y)
    let n := min late pcm.length
    if s.hub.xptSize ≤ src ∨ (a.aud.src src).kind ≠ 2 ∨ (a.aud.src src).ref ≠ v then a
    else
      let h := a.hub.errN AUD.LATE_PKT.COUNT 0 n 0x0D09 0
      { a with
        hub := if n = 0 then a.hub else h.raiseRl { code := 0x0D02, detail := [src] }
        aud := a.aud.setSrc src (((a.aud.src src).put (first + late) false vals).putData (first + late) (if data then pcm.drop late else [])) }) s

/-! ### Packets -/

/-- Sample rows of a video packet (R225, R228). -/
def State.vinRows (s : State) (v : Nat) (p : VinPers) (num : Nat) : List VinSeg → State
  | [] => s
  | g :: t =>
    (if g.f ∨ p.h ≤ g.row ∨ p.w < g.off + g.px then s.vinFmtBad v 1 else s.vinLine v p num g.row g.off g.px g.comps).vinRows v p num t

/-- A packet used by its kind. -/
def State.vinUse (s : State) (v : Nat) (p : VinPers) (e : VinFlow) (x : VinPkt) : State :=
  let now := s.hub.time.total
  let s1 : State := { s with hub := s.hub.stat VIN.PKTS_LO.COUNT v 1 }
  let frame := (s.bio.vin v).frames.find? (·.ts = x.ts)
  let cf : Nat := match frame with
    | some f => f.cf
    | none => tsInstant 90000 x.ts now + p.offset * 1000
  match e.kind with
  | 0 =>
    let s2 := if frame.isSome then s1 else s1.vinFrame v p x.ts cf false
    let num := (((s2.bio.vin v).frames.find? (·.ts = x.ts)).map (·.num)).getD 0
    s2.vinRows v p num x.segs
  | 3 => x.anc.foldl (fun a y => a.ancOne v p x.ts cf y) s1
  | _ => s1.vinAudio v e x

/-- VIN_PACKET_RECEIVE (R224–R228, R231). -/
def execVinPacketReceive (x : VinPkt) (s : State) : Host.Outcome State Fault Refusal :=
  let v := x.vin
  let p := s.fab.vinPers v
  .next (match p.flows[x.entry]? with
    | none => s
    | some e =>
      if x.poison ∨ !p.uses e ∨ (p.code ≠ 1 ∧ p.code ≠ 2) ∨ s.hub.unitCount 11 ≤ v then s
      else if !s.fab.vinPath v e.eth then s.vinNoPath v
      else if x.pt ≠ e.pt then s.vinFmtBad v 1
      else
        let u := s.bio.vin v
        let key := 8 * e.kind + e.group
        let r := ((kvGet key u.groups).getD {}).take p (vinRate e.kind) x.seq x.ts e.pathB s.hub.elapsed
        let h := s.hub.set1 (if e.pathB then VIN.STATUS.PATH_B else VIN.STATUS.PATH_A) v 1
        let h1 := if e.kind = 0 then h.set1 VIN.STATUS.SKEW v r.1.skewField else h
        let s1 := ({ s with hub := h1 } : State).setVin v { u with
          groups := kvPut key r.1 u.groups, video := if e.kind = 0 then some s.hub.elapsed else u.video }
        match r.2 with
        | .use => s1.vinUse v p e x
        | .copy => s1
        | .old => s1.vinErr VIN.SKEW_DROP.COUNT v 1 0)

/-- Does R229 list a frame rate: 23.98 to 60 frames/s? -/
def sdiRate (num den : Nat) : Bool := decide (24000 * den ≤ num * 1001 ∧ num ≤ 60 * den)

/-- Do a line's timing reference signals match WIDTH, HEIGHT and FPS, of a raster that R229 supports? -/
def VinPers.fits (p : VinPers) (x : SdiLine) : Bool :=
  decide (x.w = 3840 ∧ x.h = 2160 ∧ p.w = x.w ∧ p.h = x.h ∧ x.num * p.den = p.num * x.den) && sdiRate x.num x.den

/-- SDI_LINE_RECEIVE (R226, R229, R231): nothing comes from a lane that has lost lock. -/
def execSdiLineReceive (x : SdiLine) (s : State) : Host.Outcome State Fault Refusal :=
  let v := x.vin
  let p := s.fab.vinPers v
  let now := s.hub.time.total
  let ok := p.fits x
  .next (if p.code ≠ 2 ∨ !s.fab.sdiLane p ∨ s.hub.unitCount 11 ≤ v ∨ s.sdiLost p then s
    else
      let s1 := if x.first then s.vinFrame v p (now * 90000 / 1000000000 % 2 ^ 32) (now + p.offset * 1000) false else s
      match (s1.bio.vin v).frames with
      | [] => s1
      | f :: _ =>
        let s2 := if !ok ∧ !f.bad then (s1.setVin v ((s1.bio.vin v).setFrame { f with bad := true })).vinFmtBad v 1 else s1
        let s3 := match x.row with
          | some r => if ok ∧ !f.bad ∧ r < p.h then s2.vinLine v p f.num r 0 p.w x.comps else s2
          | none => s2
        x.anc.foldl (fun a y => a.ancOne v p f.ts f.cf y) s3)

/-- VIN_PATH_TIMEOUT (R227): no packet of a group has arrived on a path for 100 ms. -/
def execVinPathTimeout (vin kind group : Nat) (pathB : Bool) (s : State) : Host.Outcome State Fault Refusal :=
  let u := s.bio.vin vin
  let key := 8 * kind + group
  let g := (kvGet key u.groups).getD {}
  .next (if !((if pathB then g.lastB else g.lastA).map fun t => decide (t + 100000000 ≤ s.hub.elapsed)).getD false then s
    else
      let g1 : VinGroup := if pathB then { g with lastB := none, skew := 0, both := 0 } else { g with lastA := none, skew := 0, both := 0 }
      let h := s.hub.set1 (if pathB then VIN.STATUS.PATH_B else VIN.STATUS.PATH_A) vin 0
      let ev : Ev := { code := 0x0C03, sash := s.fab.vinSash vin, detail := [group, if pathB then 1 else 0] }
      ({ s with hub := (h.set1 VIN.STATUS.SKEW vin 0).raise ev } : State).setVin vin { u with groups := kvPut key g1 u.groups })

/-- VIN_SIGNAL_TIMEOUT (R227): no video for two frame periods, or the SDI lane has lost lock. -/
def execVinSignalTimeout (vin : Nat) (s : State) : Host.Outcome State Fault Refusal :=
  let p := s.fab.vinPers vin
  let quiet := decide ((((s.bio.vin vin).video).getD 0) * p.num + 2 * 1000000000 * p.den ≤ s.hub.elapsed * p.num)
  .next (if s.hub.get1 VIN.STATUS.STATE vin = 2 ∧ (if p.code = 2 then s.sdiLost p else quiet) = true then
      { s with hub := (s.hub.set1 VIN.STATUS.STATE vin 1).raise { code := 0x0C02, sash := s.fab.vinSash vin, detail := [vin] } }
    else s)

/-! ### SDI output (R230) -/

/-- May a composer's output be sent under R229: 3840 × 2160, 4:2:2 10 bit, 23.98 to 60 frames/s, OUT_MODE 0? -/
def CmpPers.sdi (c : CmpPers) : Bool :=
  c.code == 1 && !c.mode1 && c.w == 3840 && c.h == 2160 && c.ten && c.fmt % 4 == 1 && sdiRate c.num c.den

/-- t_m of the frame whose raster starts next on a lane: the newest frame instant m whose successor has passed by 264 µs, where the lane
has not begun it. -/
def State.sdiFrame (s : State) (lane u : Nat) (c : CmpPers) : Option Nat :=
  (s.cmp.unit u).ended.find? fun t =>
    decide (t * c.num + 1000000000 * c.den + 264000 * c.num ≤ s.hub.time.total * c.num) &&
      ((kvGet lane s.bio.sdi).map fun l => decide (l < t)).getD true

/-- SDI_TX_FRAME (R230): the lane starts the raster of a frame: frame m of the composer at t_(m+1) + 264 µs, once, or black. -/
def execSdiTxFrame (lane : Nat) (s : State) : Host.Outcome State Fault Refusal :=
  .next (match s.fab.built.find? (fun b => b.dst = mkRef 13 lane ∧ refType b.src = 3 ∧ !b.waiting) with
    | none => s
    | some b =>
      let c := s.cmpPers (refInst b.src)
      if c.sdi then
        match s.sdiFrame lane (refInst b.src) c with
        | some t => { s with
            hub := s.hub.emit (.frame (64 + lane) "sdi" [refInst b.src, c.num, c.den, t]), bio := { s.bio with sdi := kvPut lane t s.bio.sdi } }
        | none => s
      else
        let s1 : State := { s with hub := s.hub.emit (.frame (64 + lane) "sdi-black" [60, 1]) }
        if lane < 16 then s1.vinFmtBad lane 1 else s1)

end Sys2Proof.Machine
end

