-- ==== Sys2Proof/Machine/Tso.lean ====
section
/-!
DEFINITION. Transport outputs (R232–R237): personalities, the mux and its schedule, PSI, datagrams and FEC, CMAF.
-/

namespace Sys2Proof.Machine

/-- A TSO personality as it acts (Table 11.4). Codes above 2 act as IDLE. -/
structure TsoPers where
  code : Nat
  part : Nat
  dual : Bool
  v6 : Bool
  rowFec : Bool
  pcrMs : Nat
  rate : Nat
  ptsOff : Nat
  l : Nat
  d : Nat
  pmt : Nat
  video : Nat
  ethA : Nat
  ethB : Nat
  qp : Nat
  ssrc : Nat
  cenc : Nat
  slot : Nat
  /-- program_number; destination address and media port of paths A and B; UDP source port. -/
  program : Nat
  dstA : List Byte
  dstB : List Byte
  portA : Nat
  portB : Nat
  srcPort : Nat
  /-- CENC key identifier and IV. -/
  kid : List Byte
  iv : List Byte
  tracks : List (Nat × Nat)
  deriving DecidableEq, Repr

/-- A PID field: values 0x0000–0x001F and 0x1FFF act as `dflt`. -/
def pidOf (v dflt : Nat) : Nat := if v % 8192 < 32 ∨ v % 8192 = 8191 then dflt else v % 8192

def FabSt.tsoPers (f : FabSt) (n : Nat) : TsoPers :=
  let p := f.persAt 12 n
  let b := p.2
  let fl := bodyU8 b 2
  let l := min (bodyU8 b 12) 20
  let d := min (max (bodyU8 b 13) 4) 20
  { code := if p.1 ≤ 2 then p.1 else 0, part := bodyN b 0 2 % 4096
    dual := fl % 2 == 1, v6 := fl / 2 % 2 == 1, rowFec := fl / 4 % 2 == 1
    pcrMs := if bodyU8 b 3 = 0 then 20 else min (bodyU8 b 3) 40, rate := if bodyN b 4 4 = 0 then 1000 else bodyN b 4 4
    ptsOff := min (bodyN b 8 4) 1000000, l := l, d := if 100 < l * d then 100 / l else d
    pmt := pidOf (bodyN b 16 2) 256, video := pidOf (bodyN b 18 2) 257, ethA := bodyU8 b 20, ethB := bodyU8 b 21
    qp := bodyN b 22 2 % 1024, ssrc := bodyN b 24 4, cenc := if bodyU8 b 28 ≤ 2 then bodyU8 b 28 else 0, slot := bodyN b 30 2
    program := bodyN b 14 2, dstA := (b.drop 32).take 16, dstB := (b.drop 48).take 16, portA := bodyN b 64 2, portB := bodyN b 66 2
    srcPort := bodyN b 68 2, kid := (b.drop 72).take 16, iv := (b.drop 88).take 16
    tracks := (List.range 8).map fun i => (if bodyU8 b (104 + 4 * i) ≤ 3 then bodyU8 b (104 + 4 * i) else 0, bodyN b (106 + 4 * i) 2) }

def BioSt.tso (b : BioSt) (n : Nat) : TsoUnit := (kvGet n b.tsos).getD {}
def State.setTso (s : State) (n : Nat) (x : TsoUnit) : State := { s with bio := { s.bio with tsos := kvPut n x s.bio.tsos } }

/-- The path that reaches a TSO's port 0: its channel and rendition (Table 2.7). -/
def FabSt.tsoSource (f : FabSt) (n : Nat) : Option (Nat × Nat) :=
  (f.built.find? fun b => b.dst = mkRef 12 n ∧ refType b.src = 1 ∧ !b.waiting).map fun b => (b.sash, refPort b.src)
def FabSt.tsoSash (f : FabSt) (n : Nat) : Nat :=
  ((f.built.find? fun b => refUnit b.dst = mkRef 12 n ∨ refUnit b.src = mkRef 12 n).map (·.sash)).getD 0xFFFF

/-- A TSO takes its personality in force (R232): its buffer is empty and, for CMAF, every init segment is due. -/
def State.tsoSetup (s : State) (n : Nat) : State :=
  let code := (s.fab.persAt 12 n).1
  let bad := 2 < code
  let was := s.hub.get1 TSO.STATUS.STATE n
  let h := ((s.hub.set1 TSO.PERS.CODE n code).set1 TSO.STATUS.STATE n (if bad then 3 else if code = 0 then 0 else 1)).set1 TSO.STATUS.FILL n 0
  ({ s with hub := if bad ∧ was ≠ 3 then h.raise { code := 0x0C09 } else h } : State).setTso n { initDue := List.range 9 }

/-! ### The mux buffer (R235) -/

/-- Bytes in the mux buffer, and its size: PART less the audio input. -/
def TsoUnit.fill (x : TsoUnit) : Nat := x.parts.foldl (fun a p => a + p.bytes) 0 + x.frames.foldl (fun a f => a + f.bytes) 0
def TsoUnit.audioBytes (x : TsoUnit) : Nat := x.audio.foldl (fun a e => a + 8 * ceilDiv (e.2.2.length + 8) 8) 0
def State.tsoRoom (s : State) (n : Nat) (x : TsoUnit) (size : Nat) : Bool :=
  decide (x.fill + size + x.audioBytes ≤ ((s.fab.part (s.fab.tsoPers n).part).map (·.size)).getD 0)

/-- Data of a PID arrives: it extends PES data that has not ended (R233). -/
def addPart (now pid bytes : Nat) (end_ : Bool) (start : Option (Nat × Bool)) : List TsPart → List TsPart
  | [] => [⟨now, pid, bytes, end_, start⟩]
  | p :: t =>
    if p.pid = pid ∧ !p.end_ then { p with bytes := p.bytes + bytes, end_ := end_ } :: t
    else p :: addPart now pid bytes end_ start t

/-- The PTS of a capture time in ns (R234). -/
def TsoPers.pts (p : TsoPers) (cf : Nat) : Nat := (cf + p.ptsOff * 1000) * 90000 / 1000000000 % 2 ^ 33

/-- PAT and PMT, one TS packet each. -/
def TsoUnit.sendPsi (x : TsoUnit) (p : TsoPers) (now : Nat) : TsoUnit :=
  { x with parts := addPart now p.pmt 184 true none (addPart now 0 184 true none x.parts) }

/-- A release row's data enters the buffer: the first row of a frame opens its PES packet, after PAT and PMT before a key
picture (R233); for CMAF it joins its frame. -/
def TsoUnit.accept (x : TsoUnit) (p : TsoPers) (now elapsed : Nat) (r : TsoRow) : TsoUnit :=
  let first := r.flags.testBit 0
  let last := r.flags.testBit 1
  if p.code = 1 then
    let x1 := if first ∧ r.flags.testBit 2 then x.sendPsi p now else x
    let start := if first then some (p.pts r.cf, r.flags.testBit 2) else none
    { x1 with parts := addPart now p.video (r.size + (if first then 14 else 0)) last start x1.parts }
  else
    match x.frames.find? (·.num = r.frame) with
    | some f => { x with frames := x.frames.map fun o => if o.num = r.frame then
        { f with flags := f.flags ||| r.flags, done := if last then some elapsed else none, bytes := f.bytes + r.size } else o }
    | none => { x with frames := x.frames ++ [{ num := r.frame, flags := r.flags, done := if last then some elapsed else none, cf := r.cf, bytes := r.size }] }

/-- Rows whose acknowledges are withheld enter as room allows. -/
def State.tsoAdmit (s : State) (n : Nat) (p : TsoPers) (x : TsoUnit) : Nat → TsoUnit
  | 0 => x
  | fuel + 1 =>
    match x.held with
    | [] => x
    | r :: t => if s.tsoRoom n x r.size then s.tsoAdmit n p ({ x with held := t }.accept p s.hub.time.total s.hub.elapsed r) fuel else x

/-- STATE and FILL follow the buffer. -/
def State.tsoPut (s : State) (n : Nat) (x : TsoUnit) : State :=
  ({ s with hub := (s.hub.set1 TSO.STATUS.STATE n (if x.held = [] then 1 else 2)).set1 TSO.STATUS.FILL n (x.fill / 1024) } : State).setTso n x

/-- TSO_ROW_RECEIVE (R235): the row enters the mux buffer, or waits at the input while the buffer is full. -/
def execTsoRowReceive (tso frame row flags cf size : Nat) (s : State) : Host.Outcome State Fault Refusal :=
  let p := s.fab.tsoPers tso
  let x := s.bio.tso tso
  let r : TsoRow := ⟨frame, row, flags, cf, size⟩
  .next (if p.code = 0 ∨ s.hub.unitCount 12 ≤ tso then s
    else if x.held = [] ∧ s.tsoRoom tso x size then s.tsoPut tso (x.accept p s.hub.time.total s.hub.elapsed r)
    else s.tsoPut tso { x with held := x.held ++ [r], stalled := true })

/-- At a Louvre boundary each period in which acknowledges were withheld is counted (R235). -/
def State.tsoBoundary (s : State) : State :=
  s.bio.tsos.foldl (fun a e =>
    if e.2.stalled then
      ({ a with hub := (a.hub.err TSO.HELD.COUNT e.1 0x0C0A 0).raiseRl { code := 0x0C07, inst := e.1, detail := [e.1] } } : State).setTso e.1
        { e.2 with stalled := e.2.held != [] }
    else a) s

/-! ### TS packets and datagrams (R233–R236) -/

/-- The next TS packet with data: a full payload, or the end of a PES packet or section; the part it comes from, and the
rest. -/
def tsTake : List TsPart → Option (TsPart × List TsPart)
  | [] => none
  | p :: t =>
    if 184 < p.bytes ∨ (p.bytes = 184 ∧ !p.end_) then some (p, { p with bytes := p.bytes - 184, start := none } :: t)
    else if p.end_ then some (p, t)
    else (tsTake t).map fun r => (r.1, p :: r.2)

/-- Where a datagram goes on a path: its UDP source and destination ports, then the destination address. -/
def TsoPers.dest (p : TsoPers) (port : Nat) (addr : List Byte) : List Nat :=
  p.srcPort :: port % 65536 :: (if p.v6 then addr else addr.take 4).map BitVec.toNat

/-- Send one datagram of a TSO on path A and, with DUAL, on path B (R236): UDP payload of `len` bytes, to the media port of the path plus
`up`: 2 for column FEC, 4 for row FEC (Table 11.4). -/
def State.tsoSend (s : State) (n : Nat) (p : TsoPers) (len up : Nat) (kind : String) (args : List Nat) : State :=
  let s1 := s.sysSend (2 * n) p.ethA (udpFrame p.v6 len) (.frame p.ethA kind (n :: p.dest (p.portA + up) p.dstA ++ args))
  if p.dual then s1.sysSend (2 * n + 1) p.ethB (udpFrame p.v6 len) (.frame p.ethB kind (n :: p.dest (p.portB + up) p.dstB ++ args)) else s1

/-- PAT as it is sent: the program and its PMT. -/
def TsoPers.pat (p : TsoPers) : List Nat := [p.program, p.pmt]

/-- A registration descriptor's identifier. -/
def regId (name : String) : Nat := name.toList.foldl (fun a c => a * 256 + c.toNat) 0

/-- Stream type and registration of a video codec (R233), codes as Table 8.1 has them; and of an audio track's KIND. -/
def videoType (codec : Nat) : Nat × Nat :=
  match codec with
  | 1 => (0x06, regId "AV01")
  | 2 => (0x24, 0)
  | 3 => (0x33, 0)
  | _ => (0x1B, 0)
def audioType (kind : Nat) : Nat × Nat :=
  match kind with
  | 1 => (0x0F, 0)
  | 2 => (0x06, regId "BSSD")
  | _ => (0x06, regId "Opus")

/-- PMT as it is sent: the PCR's PID, then PID, stream type and registration of each elementary stream. -/
def TsoPers.pmtOf (p : TsoPers) (codec : Nat) : List Nat :=
  let v := videoType codec
  p.video :: p.video :: v.1 :: v.2 :: (p.tracks.zipIdx.filter fun e => e.1.1 ≠ 0).flatMap fun e =>
    let a := audioType e.1.1
    [(p.video + 1 + e.2) % 8192, a.1, a.2]

/-- The codec of the rendition that feeds a TSO. -/
def State.tsoCodec (s : State) (n : Nat) : Nat :=
  match s.fab.built.find? fun b => b.dst = mkRef 12 n ∧ refType b.src = 1 ∧ !b.waiting with
  | some b => (s.encPers (refInst b.src) (s.fab.cls b.sash)).codec
  | none => 0

/-- A media datagram starts with the TS packet scheduled at `at_` (times TS_RATE, ns): it is offered with its RTP timestamp,
and FEC packets that it completes follow (R234–R236). -/
def State.tsoDatagram (s : State) (n : Nat) (p : TsoPers) (at_ : Nat) : State :=
  let x := s.bio.tso n
  let ts := at_ * 90000 / (p.rate * 1000000000) % 2 ^ 32
  let s1 := s.tsoSend n p 1328 0 "ts-rtp" [p.ssrc, 33, x.seq, ts]
  let i := x.fec
  let row := decide (0 < p.l) && p.rowFec && (i + 1) % p.l == 0
  let col := decide (0 < p.l) && decide ((p.d - 1) * p.l ≤ i)
  let s2 := if row then s1.tsoSend n p 1344 4 "fec-row" [p.ssrc, x.rowSeq, x.seq, p.l] else s1
  let s3 := if col then s2.tsoSend n p 1344 2 "fec-column" [p.ssrc, x.colSeq, x.seq, p.l, p.d] else s2
  s3.setTso n { x with
    seq := (x.seq + 1) % 65536
    rowSeq := if row then (x.rowSeq + 1) % 65536 else x.rowSeq
    colSeq := if col then (x.colSeq + 1) % 65536 else x.colSeq
    fec := if p.l * p.d ≤ i + 1 then 0 else i + 1 }

/-- TS_PACKET_SCHEDULE (R234, R235): the next TS packet of the constant-rate mux at its time s_j: data, a PCR that falls due, or null. -/
def execTsPacketSchedule (tso : Nat) (s : State) : Host.Outcome State Fault Refusal :=
  let p := s.fab.tsoPers tso
  let x := s.bio.tso tso
  let slot := 1504000000
  .next (if p.code ≠ 1 ∨ s.hub.unitCount 12 ≤ tso then s
    else
      let data := tsTake x.parts
      let from_ : Nat := match x.last with
        | some t => t + slot
        | none => s.hub.time.total * p.rate
      let late := fun (t : Nat) => match x.pcr with
        | some c => decide (c + p.pcrMs * 1000000 * p.rate < t + slot)
        | none => true
      let at_ : Nat := match data with
        | some d => if late from_ then from_ else max (d.1.at_ * p.rate) from_
        | none => from_
      let pcr := late at_
      if s.hub.time.total * p.rate < at_ then s
      else
      let pid : Nat := if pcr then p.video else match data with
        | some d => d.1.pid
        | none => 0x1FFF
      let parts : List TsPart := if pcr then x.parts else match data with
        | some d => d.2
        | none => x.parts
      let base := at_ * 27 / (p.rate * 1000) % (2 ^ 33 * 300)
      let x1 : TsoUnit := { x with last := some at_, pcr := if pcr then some at_ else x.pcr, parts := parts, inDgram := (x.inDgram + 1) % 7 }
      let s1 := s.setTso tso x1
      let s2 := if x.inDgram = 0 then s1.tsoDatagram tso p at_ else s1
      let start : List Nat := match data.bind fun d => d.1.start with
        | some (pts, key) => [pts, if key then 1 else 0]
        | none => if pid = 0 then p.pat else if pid = p.pmt then p.pmtOf (s.tsoCodec tso) else []
      let msg : OutMsg := .token (mkRef 12 tso) "ts-packet" (if pcr then [pid, base / 300, base % 300] else pid :: start)
      let s3 : State := { s2 with hub := (s2.hub.stat TSO.BYTES_LO.COUNT tso 188).emit msg }
      let x2 := s3.bio.tso tso
      s3.tsoPut tso (s3.tsoAdmit tso p x2 x2.held.length))

/-- PSI_TIMER (R233): every 100 ms PAT and PMT are sent. -/
def execPsiTimer (tso : Nat) (s : State) : Host.Outcome State Fault Refusal :=
  let p := s.fab.tsoPers tso
  let x := s.bio.tso tso
  .next (if p.code = 1 ∧ tso < s.hub.unitCount 12 ∧ pastMs s.hub.elapsed x.psi 100 10 = true then
      s.tsoPut tso ({ x with psi := some s.hub.elapsed }.sendPsi p s.hub.time.total)
    else s)

/-- A coded audio access unit arrives in PART from encode channel `chan` (R257), stamped `at_` ns: for TS it is one PES
packet of its track, for CMAF it waits for its chunk. -/
def State.tsoAudio (s : State) (chan at_ : Nat) (item : List Byte) : State :=
  (List.range 8).foldl (fun (a : State) n =>
    let p := a.fab.tsoPers n
    if p.code = 0 ∨ a.hub.unitCount 12 ≤ n then a
    else
      match (p.tracks.zipIdx.find? fun e => e.1.1 ≠ 0 ∧ e.1.2 = chan) with
      | some (_, i) =>
        let x := a.bio.tso n
        let a1 : State := { a with hub := a.hub.emit (.token (mkRef 12 n) "audio-item" (i :: item.map BitVec.toNat)) }
        if p.code = 1 then
          a1.tsoPut n { x with parts := x.parts ++ [⟨a.hub.time.total, (p.video + 1 + i) % 8192, item.length - 8 + 14, true, some (p.pts at_, false)⟩] }
        else a1.setTso n { x with audio := x.audio ++ [(i, at_, item)] }
      | none => a) s

/-! ### CMAF (R237) -/

/-- The prefix of a CMAF item. -/
def cmafPrefix (kind flags track seg frame : Nat) : List Byte :=
  leBytes 1 kind ++ leBytes 1 flags ++ leBytes 1 track ++ leBytes 1 0 ++ leBytes 4 seg ++ leBytes 4 frame ++ leBytes 4 0

/-- An item goes to the TSO's queue pair. -/
def State.cmafItem (s : State) (n : Nat) (p : TsoPers) (item : List Byte) (boxes : Nat) : State :=
  let path := s.fab.hasPath (s.fab.tsoSash n) (mkRef 12 n) (mkRef 16 (p.qp / 8))
  { s with hub := (s.hub.stat TSO.BYTES_LO.COUNT n boxes).qpDeliver p.qp path item }

/-- The boxes of an init segment: for a protected track the tenc box carries KID, and under cbcs the constant IV. -/
def TsoPers.initBoxes (p : TsoPers) (c : CmafChunk) : List Byte :=
  c.init ++ (if p.cenc = 0 then [] else p.kid ++ (if p.cenc = 2 then p.iv else [])) ++ c.initRest

/-- The IV of sample `i` of a track under cenc: 8 bytes that count up from IV (R237). -/
def TsoPers.ivAt (p : TsoPers) (i : Nat) : List Byte := beBytes 8 ((beNat (p.iv.take 8) + i) % 2 ^ 64)

/-- tfdt of a capture time (R234, R237): timescale 90,000 for video, 48,000 for audio. -/
def TsoPers.tfdt (p : TsoPers) (track ns : Nat) : Nat := (ns + p.ptsOff * 1000) * (if track = 0 then 90000 else 48000) / 1000000000

/-- The boxes of a chunk whose first sample is at `ns`, with `used` IVs of its track used before. -/
def TsoPers.chunkBoxes (p : TsoPers) (c : CmafChunk) (ns used : Nat) : List Byte :=
  c.head ++ beBytes 8 (p.tfdt c.track ns) ++ (c.samples.zipIdx.flatMap fun e => e.1 ++ if p.cenc = 1 then p.ivAt (used + e.2) else []) ++ c.rest

/-- The init segment of a track, where one is due. -/
def State.cmafInit (s : State) (n : Nat) (p : TsoPers) (c : CmafChunk) : State :=
  let x := s.bio.tso n
  if c.track ∈ x.initDue then
    (s.setTso n { x with initDue := x.initDue.filter (· ≠ c.track) }).cmafItem n p
      (cmafPrefix 0 0 c.track ((kvGet c.track x.segs).getD 0) c.frame ++ p.initBoxes c) (p.initBoxes c).length
  else s

/-- KEY_INT of the rendition that feeds a TSO. -/
def State.tsoKeyInt (s : State) (n : Nat) : Nat :=
  match s.fab.tsoSource n with
  | some (sash, r) => ((kvGet (8 * sash + r) s.enc.rends).map (·.cfg.keyInt)).getD 0
  | none => 0

/-- T_f of the rendition that feeds a TSO in ns, times its numerator; and that numerator. -/
def State.tsoFps (s : State) (n : Nat) : Nat × Nat :=
  match s.fab.tsoSource n with
  | some (sash, r) => ((kvGet (8 * sash + r) s.enc.rends).map fun e => (1000000000 * e.cfg.den, e.cfg.num)).getD (0, 1)
  | none => (0, 1)

/-- Access units of a track whose first sample falls within a frame: from its C_f to C_f + T_f. -/
def State.cmafUnits (s : State) (n : Nat) (x : TsoUnit) (f : TsoFrame) (track : Nat) : List (Nat × Nat × List Byte) :=
  let t := s.tsoFps n
  x.audio.filter fun a => a.1 + 1 = track ∧ f.cf ≤ a.2.1 ∧ a.2.1 * t.2 < f.cf * t.2 + t.1

/-- Does a chunk of a track start a segment, FLAGS apart from SEGMENT_START, and the time of its first sample; none where the chunk cannot
be written: MUX_LAT (40 µs) has not passed after the frame's last row, it has been written, or no access unit falls within the frame. -/
def State.cmafFlags (s : State) (n : Nat) (x : TsoUnit) (c : CmafChunk) : Option (Bool × Nat × Nat) :=
  let begun := (kvGet c.track x.segs).isSome
  match x.frames.find? (·.num = c.frame) with
  | some f =>
    if !(f.done.map fun t => decide (t + 40000 ≤ s.hub.elapsed)).getD false ∨ f.written.contains c.track then none
    else if c.track = 0 then
      let key := f.flags.testBit 2
      let fl := (if key then 2 else 0) + (if f.flags.testBit 6 then 4 else 0) + (if f.flags.testBit 4 ∨ f.flags.testBit 5 then 8 else 0)
      some (!begun || (key && s.tsoKeyInt n != 0), fl, f.cf)
    else ((s.cmafUnits n x f c.track).head?).map fun a => (!begun || x.segDue.contains c.track, 0, a.2.1)
  | none => none

/-- A frame's chunk of a track has been written: its video leaves the buffer; of written frames the last 16 stay, for their audio. -/
def TsoUnit.wrote (x : TsoUnit) (frame track : Nat) : TsoUnit :=
  let l := x.frames.map fun f => if f.num = frame then
      { f with written := track :: f.written, bytes := if track = 0 then 0 else f.bytes } else f
  let old := (l.filter fun f => f.written.contains 0).length - 16
  { x with frames := ((l.filter fun f => f.written.contains 0).drop old) ++ l.filter fun f => !f.written.contains 0 }

/-- Encrypt samples under a slot, one operation each (R294): whether all passed. -/
def State.cencAll (s : State) (slot sash : Nat) : List Nat → State × Bool
  | [] => (s, true)
  | n :: t =>
    let r := s.cipher { slot := slot, kind := 3, dec := false, stream := 0, seq := 0, aad := 0, len := n, sash := sash, poison := false
                        mismatches := 0, authOk := true, authHeld := false }
    if r.2 then r.1.cencAll slot sash t else r

/-- Under CENC the chunk is encrypted with the TSO's key slot: whether it may be written (R237). -/
def State.cmafProtect (s : State) (n : Nat) (p : TsoPers) (c : CmafChunk) : State × Bool :=
  if p.cenc = 0 then (s, true)
  else
    let st := (s.cip.slot p.slot).state
    let r := s.cencAll p.slot (s.fab.tsoSash n) c.enc
    if r.2 then r
    else if st ≠ 1 then
      let ev : Ev := { code := 0x0C08, sash := s.fab.tsoSash n, detail := [c.track, p.slot] }
      ({ r.1 with hub := (r.1.hub.err TSO.KEY_DROP.COUNT n 0x0C0A 0).raise ev }, false)
    else r

/-- CMAF_CHUNK_WRITE (R237): the track's init segment where due, then the chunk; a first segment's number is a free value. -/
def execCmafChunkWrite (x : CmafChunk) (s : State) : Host.Outcome State Fault Refusal :=
  let n := x.tso
  let p := s.fab.tsoPers n
  .next (if p.code ≠ 2 ∨ s.hub.unitCount 12 ≤ n ∨ 9 ≤ x.track then s
    else
      let s1 := s.cmafInit n p x
      let u := s1.bio.tso n
      match s1.cmafFlags n u x with
      | none => s1
      | some (start, fl, ns) =>
        let seg : Nat := match kvGet x.track u.segs with
          | some k => if start then (k + 1) % 2 ^ 32 else k
          | none => s1.hub.freeVal (2 ^ 32)
        let u1 : TsoUnit := { u with
          segs := kvPut x.track seg u.segs
          segDue := if x.track = 0 ∧ start then (List.range 9).drop 1 else u.segDue.filter (· ≠ x.track)
          audio := match u.frames.find? (·.num = x.frame) with
            | some f => u.audio.filter fun a => !(s1.cmafUnits n u f x.track).contains a
            | none => u.audio
          ivs := if p.cenc = 1 then kvPut x.track (((kvGet x.track u.ivs).getD 0) + x.samples.length) u.ivs else u.ivs }
        let boxes := p.chunkBoxes x ns ((kvGet x.track u.ivs).getD 0)
        let s2 := ({ s1 with hub := s1.hub.freeTick } : State).setTso n (u1.wrote x.frame x.track)
        let r := s2.cmafProtect n p x
        let s3 := if r.2 then r.1.cmafItem n p (cmafPrefix 1 (fl + if start then 1 else 0) x.track seg x.frame ++ boxes) boxes.length else r.1
        s3.tsoPut n (s3.tsoAdmit n p (s3.bio.tso n) (s3.bio.tso n).held.length))

end Sys2Proof.Machine
end

