-- ==== Sys2Proof/Machine/AudRoom.lean ====
section
/-!
DEFINITION. Audio channels at work: packets of decode channels (R254), frames of encode channels and where they go (R257),
cascade blocks (Table 12.1), and large rooms (R256).
-/

namespace Sys2Proof.Machine

/-! ### Decode channels (R254) -/

/-- The sample at which RTP timestamp `ts` plays, by a channel's anchor (R96). -/
def playAt (clock ts : Nat) (a : Nat × Int) : Int := a.2 + wrapDiff 32 a.1 ts * 48000 / max clock 1

/-- The anchor after a packet, moved to its timestamp where that loses nothing. -/
def moveAnchor (clock ts : Nat) (a : Nat × Int) : Nat × Int :=
  if wrapDiff 32 a.1 ts * 48000 % max clock 1 = 0 ∧ laterThan 32 a.1 ts then (ts, playAt clock ts a) else a

/-- A late packet: when 8 of the last 32 were late, O is to grow by the largest lateness and 5 ms, up to JB_MAX. -/
def AudDec.grow (d : AudDec) (jbMax now : Nat) : AudDec :=
  if 8 ≤ d.recent.countP (· ≠ 0) ∧ d.shift = none then
    let by_ := min (d.recent.foldl max 0 + 240) (48 * jbMax - d.cnt.depth)
    { d with shift := if by_ = 0 then none else some ((by_ : Int), now), recent := [] }
  else d

/-- AUD_PACKET_RECEIVE (R254): the packet's samples enter the source blocks of the periods that hold their playout times; a
packet whose first block has been read is late. -/
def execAudPacketReceive (x : AudIn) (s : State) : Host.Outcome State Fault Refusal :=
  .next (match kvGet x.chan s.aud.decs with
    | some d =>
      if x.poison ∨ !s.codecUnit (mkRef 6 d.unit) then s
      else
        let clock := ((kvGet d.stream s.fwd.ins).map (·.clock)).getD 48000
        let now := s.hub.elapsed
        let first := sampleAt s.hub.time.total + 48 * d.jb
        let a := d.anchor.getD (x.ts, (first : Int))
        let at_ := playAt clock x.ts a
        let read := 6 * s.fab.period
        let d0 : AudDec := if d.anchor.isSome then d else { d with first := first, tail := first, cnt := { d.cnt with depth := 48 * d.jb } }
        if at_ / 6 < (s.fab.period : Int) then
          let late := ((read : Int) - at_).toNat
          let d1 : AudDec := { d0 with recent := (late :: d0.recent).take 32, cnt := { d0.cnt with late := d0.cnt.late + 1 } }
          { s with
            hub := (s.hub.err AUD.LATE_PKT.COUNT 0 0x0D09 0).raiseRl { code := 0x0D02, detail := [x.chan] }
            aud := { s.aud with decs := kvPut x.chan (d1.grow (s.aud.key 4) now) s.aud.decs } }
        else
          let p := at_.toNat
          let newest := d0.tail ≤ p
          let d1 : AudDec := { d0 with
            anchor := some (moveAnchor clock x.ts a)
            tail := max d0.tail (p + x.pcm.length)
            len := if newest then x.pcm.length else d0.len
            dtx := if newest then x.dtx else d0.dtx
            recent := (0 :: d0.recent).take 32
            cnt := { d0.cnt with frames := d0.cnt.frames + 1 } }
          let before := p - x.fec.length
          let src := ((s.aud.src d.source).put (max before read) true (x.fec.drop (read - before) |>.map some)).put p false (x.pcm.map some)
          { s with aud := { (s.aud.setSrc d.source src) with decs := kvPut x.chan d1 s.aud.decs } }
    | none => s)

/-! ### Encode channels (R257) -/

/-- Send one coded frame as an RTP packet on an outbound stream (R114, R116, R257): `chan` is its source, `n` its number and
`smp` its first sample. -/
def State.audOut (s : State) (o chan n smp : Nat) (payload : List Byte) (level : Nat) : State :=
  match kvGet o s.fwd.outs with
  | some x => s.produce o (65536 + chan)
      { m := false, pt := x.pt, seq := n % 65536, ts := smp * x.clock / 48000 % 2 ^ 32, ssrc := x.ssrc, csrc := [], twoByte := false
        ext := (x.ext.zipIdx.filter (·.1 = 2)).map fun e => (e.2 + 1, [BitVec.ofNat 8 level]), payload := payload }
  | none => s

/-- Is a leg a talker of a large room? -/
def AudSt.talks (a : AudSt) (leg : Nat) : Bool := a.confs.any fun c => c.2.talkers.any fun t => t.leg = leg ∧ !t.leaving

/-- 24-bit big-endian samples (ST 2110-30). -/
def pcm24 (l : List Int) : List Byte := l.flatMap fun v => beBytes 3 (v % 2 ^ 24).toNat

/-- The 48 samples of a sink from sample `at_` on, among its last ones. -/
def State.sinkSamples (s : State) (k at_ n : Nat) : List Int := (((s.aud.snk k).out.drop (6 * s.fab.period - (at_ + n))).take n).reverse

/-- The only source that feeds a sink. -/
def AudSt.soleSource (a : AudSt) (k : Nat) : Option Nat :=
  match a.nodes.filter fun e => e.1 / 2048 = k ∧ e.2.now ≠ 0 with
  | [e] => some (e.1 % 2048)
  | _ => none

/-- The 24-bit samples of a sink for an ST 302M track: those of a pair marked as data bit for bit, where one such source alone feeds the
sink (R231, assumption 123), else the sink's. -/
def State.trackSamples (s : State) (k at_ n : Nat) : List Int :=
  let own := s.sinkSamples k at_ n
  match s.aud.soleSource k with
  | some j => (List.range n).map fun i => (kvGet (at_ + i) (s.aud.src j).data).getD (own.getD i 0)
  | none => own

/-- The FIFO item of an access unit (R257): NS and SEC of its stamped time, then the coded bytes. -/
def audItem (at_ : Nat) (coded : List Byte) : List Byte := leBytes 4 (at_ % 1000000000) ++ leBytes 4 (at_ / 1000000000) ++ coded

/-- AUD_ENC_FRAME (R257): frame `frame` is coded once its last sample's block has been delivered, and goes to its destination;
an Opus frame that DTX does not send has no bytes. -/
def execAudEncFrame (chan frame : Nat) (coded : List Byte) (level : Nat) (s : State) : Host.Outcome State Fault Refusal :=
  .next (match kvGet chan s.aud.encs with
    | some x =>
      let at_ := frame * x.n
      let open_ := (x.closing.map fun c => decide (at_ < c)).getD true
      if !open_ ∨ !s.codecUnit (mkRef 6 x.unit) ∨ 6 * s.fab.period < at_ + x.n ∨ (x.next.map fun n => decide (frame < n)).getD false then s
      else
        let raw := x.codec = 6 ∨ x.codec = 7
        let sent := coded ≠ [] ∨ raw
        let x1 : AudEnc := { x with next := some (frame + 1), cnt := { x.cnt with frames := x.cnt.frames + (if sent then 1 else 0) } }
        let s1 : State := { s with aud := { s.aud with encs := kvPut chan x1 s.aud.encs } }
        let one := fun (k : Nat) => if x.codec = 6 then s.trackSamples k at_ x.n else s.sinkSamples k at_ x.n
        let bytes := if ¬ raw then coded
          else if x.stereo then pcm24 ((one x.sink).zip (one (x.sink + 1)) |>.flatMap fun v => [v.1, v.2])
          else pcm24 (one x.sink)
        if !sent then s1
        else if x.dest = 2 then
          let time := at_ * 125000 / 6 + x.sync * 1000 - min (max (s.hub.get AUD.IN_DELAY.US) 125) 200000 * 1000
          s1.tsoAudio chan time (audItem time bytes)
        else if x.dest = 0 then s1.audOut x.stream chan x.cnt.frames at_ bytes level
        else
          (s.aud.profs.filter fun e => e.2.group = chan ∧ !s.aud.talks e.1).foldl
            (fun a e => a.audOut e.2.outStream chan x.cnt.frames at_ bytes level) s1
    | none => s)

/-! ### Cascade (Table 12.1) -/

/-- The block sent as sink block p by another device is source block p + 2; a late one counts. -/
def State.cascadeIn (s : State) (dev chan period : Nat) (samples : List Int) (poison : Bool) : State :=
  match s.aud.srcs.find? fun e => e.2.kind = 4 ∧ e.2.ref = dev + 65536 * chan with
    | some (j, x) =>
      if period + 2 < s.fab.period then
        { s with hub := (s.hub.err AUD.CASCADE_MISS.COUNT 0 0x0D09 0).raiseRl { code := 0x0D04, detail := [dev, chan] } }
      else
        let vals : List (Option Int) := (List.range 6).map fun i => if poison then none else some (samples.getD i 0)
        { s with aud := s.aud.setSrc j (x.put (6 * (period + 2)) false vals) }
    | none => s

/-- CASCADE_FLIT (R244). -/
def execCascadeFlit (dev chan period : Nat) (samples : List Int) (poison : Bool) (s : State) : Host.Outcome State Fault Refusal :=
  .next (s.cascadeIn dev chan period samples poison)

/-! ### Large rooms (R256) -/

/-- The refusal of AUD_CONF. -/
def State.confRefused (s : State) (e : CmdEnv) (b : List Byte) : Option Nat :=
  let t := if bodyU8 b 3 = 0 then 32 else min (bodyU8 b 3) 32
  let src := bodyN b 4 2
  let snk := bodyN b 6 2
  let dec := bodyN b 8 2
  let enc := bodyN b 10 2
  match kvGet (bodyN b 0 2 % 4096) s.fwd.confs with
  | none => some 3
  | some c =>
    if !c.reached e.fn then some 5
    else if c.gone then some 6
    else if bodyU8 b 2 % 2 = 0 then none
    else if s.hub.xptSize < src + t ∨ s.hub.xptSize ≤ snk + t ∨ 2048 < dec + t ∨ 1024 < enc + t then some 1
    else if kvHas (bodyN b 0 2 % 4096) s.aud.confs ∨ (List.range t).any (fun i => (s.aud.src (src + i)).kind ≠ 0 ∨ kvHas (dec + i) s.aud.decs ∨
        kvHas (enc + i) s.aud.encs) ∨ (List.range (t + 1)).any (fun i => (s.aud.snk (snk + i)).kind ≠ 0) then some 2
    else none

/-- The service messages and cascades of a conference go to the devices its legs of KIND 2 lead to (R256). -/
def FwdSt.peers (f : FwdSt) (c : Nat) : List Nat := ((f.legs.filter fun l => l.2.conf = c ∧ l.2.kind = 2).map (·.2.peer)).eraseDups

/-- `AUD_TALKER`. -/
def State.talkerEvent (s : State) (c leg t : Nat) : State :=
  { s with hub := s.hub.raiseRl { code := 0x0D06, detail := [c, leg, t] } }

/-- The loudness of a run of levels over the last 200 ms: their mean, in 1/256 dB below full scale. -/
def meanLevel (now : Nat) (l : List (Nat × Nat)) : Option Nat :=
  let r := l.filter fun e => now < e.1 + 200000000
  if r = [] then none else some (r.foldl (fun a e => a + e.2) 0 * 256 / r.length)

/-- The louder of two loudnesses. -/
def louder : Option Nat → Option Nat → Option Nat
  | some a, some b => some (min a b)
  | some a, none => some a
  | none, b => b

/-- A member's score (R256): of its RFC 6464 levels, or of the channel its profile names; a talker's of its decoded level too. -/
def State.score (s : State) (c : AudConf) (leg : Nat) : Option Nat :=
  let now := s.hub.elapsed
  let dec := fun (n : Nat) => (kvGet n s.aud.decs).bind fun d => meanLevel now d.levels
  let own := match kvGet leg s.aud.profs with
    | some p => louder (meanLevel now p.levels) (p.dec.bind dec)
    | none => (kvGet leg c.remote).map (256 * ·)
  match c.talkers.find? fun t => t.leg = leg with
  | some t => louder own (dec (c.dec + t.t))
  | none => own

/-- The members of a large room: the conference's legs with a profile, and legs whose scores other devices have sent. -/
def State.members (s : State) (n : Nat) (c : AudConf) : List Nat :=
  ((s.fwd.confLegs n).filter fun l => kvHas l s.aud.profs && ((kvGet l s.fwd.legs).map (fun x => x.state != 3)).getD false) ++ c.remote.map (·.1)

/-- Replace a large room. -/
def State.setConf (s : State) (n : Nat) (c : AudConf) : State := { s with aud := { s.aud with confs := kvPut n c s.aud.confs } }

/-- Members join (R256). A decode channel opens on the lowest-numbered unit with room, its JB_MS a free value. -/
def State.talkJoin (s : State) (n leg t : Nat) : State :=
  match kvGet n s.aud.confs with
  | none => s
  | some c =>
    let s1 := (s.setConf n { c with talkers := c.talkers ++ [{ t := t, leg := leg }] }).talkerEvent n leg t
    if 65536 ≤ leg then
      let x := s1.aud.src (c.src + t)
      { s1 with aud := s1.aud.setSrc (c.src + t) { x with kind := 4, ref := (leg / 65536 - 1) + 65536 * (leg % 65536), buf := [] } }
    else
      match kvGet leg s.aud.profs with
      | none => s1
      | some p =>
        let codecs := (List.range 8).filter fun u => s.codecUnit (mkRef 6 u)
        let s2 := match codecs.find? fun u => s.aud.decsOf u < 256 with
          | some u => ({ s1 with hub := s1.hub.freeTick } : State).decOpen (c.dec + t) u p.inStream (c.src + t) (20 + s1.hub.freeVal 181)
          | none => s1
        match codecs.find? fun u => s.aud.encsOf u < 128 with
        | some u =>
          let x : AudEnc := { unit := u, sink := c.snk + t, codec := p.codec, stereo := false, dtx := false, fec := false, ten := false
                              kbps := p.kbps, dest := 0, stream := p.outStream, sync := 0 }
          s2.encOpen (c.enc + t) x
        | none => s2

/-- A talker is to leave: its nodes ramp down and its stream returns to the group encode. -/
def State.talkLeave (s : State) (n leg : Nat) : State :=
  match kvGet n s.aud.confs with
  | none => s
  | some c =>
    (c.talkers.filter fun t => t.leg = leg ∧ !t.leaving).foldl (fun a t => (a.encClose (c.enc + t.t)).talkerEvent n leg t.t)
      (s.setConf n { c with talkers := c.talkers.map fun t => if t.leg = leg then { t with leaving := true } else t })

/-- A leaving talker whose nodes have reached OFF is gone: its decode closes. -/
def State.talkGone (s : State) (n : Nat) : State :=
  match kvGet n s.aud.confs with
  | none => s
  | some c =>
    let off := fun (t : AudTalker) => t.leaving && (List.range (c.t + 1)).all fun i => (s.aud.node (c.snk + i) (c.src + t.t)).now == 0
    (c.talkers.filter off).foldl (fun a t =>
      let x := a.aud.src (c.src + t.t)
      if x.kind = 4 then { a with aud := a.aud.setSrc (c.src + t.t) { x with kind := 0, ref := 0, buf := [] } } else a.decClose (c.dec + t.t))
      (s.setConf n { c with talkers := c.talkers.filter fun t => !off t })

/-- The loudest of some legs, with its score; of equal ones the first. -/
def State.loudest (s : State) (c : AudConf) (l : List Nat) : Option (Nat × Nat) :=
  l.foldl (fun (a : Option (Nat × Nat)) leg =>
    match s.score c leg, a with
    | some v, some b => if v < b.2 then some (leg, v) else a
    | some v, none => some (leg, v)
    | none, _ => a) none

/-- The quietest talker; one without a score is quietest of all. -/
def State.quietest (s : State) (c : AudConf) : Option (Nat × Nat) :=
  (c.talkers.filter fun t => !t.leaving).foldl (fun (a : Option (Nat × Nat)) t =>
    let v := (s.score c t.leg).getD (2 ^ 20)
    match a with
    | some b => if b.2 < v then some (t.leg, v) else a
    | none => some (t.leg, v)) none

/-- Places of a large room that no talker has. -/
def AudConf.freePlace (c : AudConf) : Option Nat := (List.range c.t).find? fun t => !c.talkers.any (·.t = t)

/-- Loudest members above the gate join while fewer than T are selected and a place is free. -/
def State.talkFill (s : State) (n : Nat) : Nat → State
  | 0 => s
  | fuel + 1 =>
    match kvGet n s.aud.confs with
    | none => s
    | some c =>
      let gate := min (s.hub.get AUD.CFG.GATE) 127 * 256
      match c.freePlace, s.loudest c ((s.members n c).filter fun l => !c.talkers.any (·.leg = l)) with
      | some t, some (l, v) => if v < gate then (s.talkJoin n l t).talkFill n fuel else s
      | _, _ => s

/-- Up to 4 swaps: the loudest non-talker makes the quietest talker leave when it is louder by SWAP_DB. -/
def State.talkSwap (s : State) (n : Nat) (waiting : List Nat) : Nat → State
  | 0 => s
  | fuel + 1 =>
    match kvGet n s.aud.confs with
    | none => s
    | some c =>
      match s.loudest c ((s.members n c).filter fun l => !c.talkers.any (·.leg = l) && !waiting.contains l), s.quietest c with
      | some (l, v), some (q, w) =>
        if c.freePlace.isNone ∧ v + 256 * s.aud.key 2 ≤ w then (s.talkLeave n q).talkSwap n (l :: waiting) fuel else s
      | _, _ => s

/-- The talkers' time below the gate: one below it for TALK_HOLD leaves, as does one that is no longer a member. -/
def State.talkQuiet (s : State) (n : Nat) : State :=
  match kvGet n s.aud.confs with
  | none => s
  | some c =>
    let now := s.hub.elapsed
    let gate := min (s.hub.get AUD.CFG.GATE) 127 * 256
    let upd := fun (t : AudTalker) =>
      if ((s.score c t.leg).map fun v => decide (v < gate)).getD false then { t with quiet := none }
      else { t with quiet := some (t.quiet.getD now) }
    let ts := c.talkers.map upd
    let m := s.members n c
    let out := ts.filter fun t => !t.leaving && (!m.contains t.leg || (t.quiet.map fun q => decide (q + s.aud.key 3 * 1000000 ≤ now)).getD false)
    out.foldl (fun a t => a.talkLeave n t.leg) (s.setConf n { c with talkers := ts })

/-- TALK_INTERVAL_TIMER (R256): the room's talkers are chosen anew, and its members' scores go to the other devices. A swap
waits for the place it frees. -/
def execTalkIntervalTimer (conf : Nat) (s : State) : Host.Outcome State Fault Refusal :=
  .next (match kvGet conf s.aud.confs with
    | some c0 =>
      if !pastMs s.hub.elapsed c0.at_ (s.aud.key 1) 10 then s
      else
      let c : AudConf := { c0 with at_ := some s.hub.elapsed }
      let s := s.setConf conf c
      let s1 := ((((s.talkGone conf).talkQuiet conf).talkSwap conf [] 4).talkFill conf c.t)
      let scores := (s.fwd.confLegs conf).flatMap fun l => match s.score c l with
        | some v => [(l, v / 256)]
        | none => []
      (s.fwd.peers conf).foldl (fun a d => a.jlSvc d (.scores (((kvGet conf s.fwd.confs).map (·.cluster)).getD 0) scores)) ((s1.retarget s.smpNow).dblCheck)
    | none => s)

/-- A large room ends: its channels close and its nodes are written OFF. -/
def State.confEnd (s : State) (n : Nat) : State :=
  match kvGet n s.aud.confs with
  | none => s
  | some c =>
    let s1 := c.talkers.foldl (fun a t =>
      let x := a.aud.src (c.src + t.t)
      let a1 := a.encClose (c.enc + t.t)
      if x.kind = 4 then { a1 with aud := a1.aud.setSrc (c.src + t.t) { x with kind := 0, ref := 0, buf := [] } } else a1.decClose (c.dec + t.t)) s
    let nodes := (List.range (c.t + 1)).flatMap fun k => (List.range c.t).map fun j => (c.snk + k, c.src + j, 0)
    ({ s1 with aud := { s1.aud with confs := kvDel n s1.aud.confs } } : State).nodeSet s.smpNow nodes

/-- AUD_CONF (R256): LARGE sets up the room: every node among its ranges at code 463, every sink AUTO; without LARGE the room
ends. -/
def execAudConf (e : CmdEnv) (body : List Byte) (s : State) : Host.Outcome State Fault Refusal :=
  let n := bodyN body 0 2 % 4096
  .next (match s.confRefused e body with
    | some st => s.done e 0x0607 st []
    | none =>
      if bodyU8 body 2 % 2 = 0 then ((s.confEnd n).dblCheck).done e 0x0607 0 []
      else
        let c : AudConf := { t := if bodyU8 body 3 = 0 then 32 else min (bodyU8 body 3) 32, src := bodyN body 4 2, snk := bodyN body 6 2,
                             dec := bodyN body 8 2, enc := bodyN body 10 2 }
        let a := (List.range (c.t + 1)).foldl (fun (a : AudSt) k => a.setSnk (c.snk + k) { (a.snk (c.snk + k)) with auto := true }) s.aud
        let nodes := (List.range (c.t + 1)).flatMap fun k => (List.range c.t).map fun j => (c.snk + k, c.src + j, 463)
        ((({ s with aud := a } : State).setConf n c).nodeSet s.smpNow nodes).done e 0x0607 0 [])

/-- A leg's profile as the command's body describes it. -/
def profOf (b : List Byte) : AudProf :=
  { inStream := bodyN b 2 2, outStream := bodyN b 4 2, group := bodyN b 6 2, codec := bodyU8 b 8, kbps := bodyN b 10 2
    dec := if bodyN b 12 2 = 0xFFFF then none else some (bodyN b 12 2) }

/-- AUD_LEG_PROFILE (R256). -/
def execAudLegProfile (e : CmdEnv) (body : List Byte) (s : State) : Host.Outcome State Fault Refusal :=
  let leg := bodyN body 0 2
  let dec := bodyN body 12 2
  let p := profOf body
  .next (if s.hub.legLimit ≤ leg then s.done e 0x0608 1 []
    else match kvGet leg s.fwd.legs, kvGet p.inStream s.fwd.ins, kvGet p.outStream s.fwd.outs with
    | some l, some i, some o =>
      if !s.hub.reachesLeg e.fn leg then s.done e 0x0608 5 []
      else if l.state = 3 ∨ i.gone ∨ o.gone then s.done e 0x0608 6 []
      else if 1024 ≤ p.group ∨ (dec ≠ 0xFFFF ∧ 2048 ≤ dec) then s.done e 0x0608 1 []
      else if p.codec = 0 ∨ 4 < p.codec ∨ o.leg ≠ leg then s.done e 0x0608 4 []
      else ({ s with aud := { s.aud with profs := kvPut leg p s.aud.profs } } : State).done e 0x0608 0 []
    | _, _, _ => s.done e 0x0608 3 [])

end Sys2Proof.Machine
end

