-- ==== Sys2Proof/Machine/KeyReq.lean ====
section
/-!
DEFINITION. The timer of merged key-picture requests (R124).
-/

namespace Sys2Proof.Machine

/-- KEY_REQUEST_TIMER (R124): a pending request sends a PLI, and FIR after FIR_AFTER unanswered PLIs, at most one each
PLI_GAP. `own` names the channel and rendition that produce the stream where the device's own ENC units do: it receives
a refresh request (R171). -/
def execKeyRequestTimer (stream : Nat) (own : Option (Nat × Nat)) (s : State) : Host.Outcome State Fault Refusal :=
  .next (match kvGet stream s.fwd.ins with
    | none => s
    | some x =>
      let now := s.hub.elapsed
      let early : Bool := match x.key.sent with
        | some t => decide (now < t + 1000000 * s.fwd.key 5)
        | none => false
      if !x.key.pending ∨ x.gone ∨ early then s
      else match own with
        | some (sash, r) =>
          let s1 : State := { s with fwd := s.fwd.setIn stream { x with key := { x.key with sent := some now } } }
          s1.encRefresh sash r false
        | none =>
          if x.key.plis < s.fwd.key 6 then
            let k : KeyReq := { x.key with plis := x.key.plis + 1, sent := some now }
            ({ s with fwd := s.fwd.setIn stream { x with key := k } } : State).feedback x.leg "rtcp" 1 206 x.ssrc []
          else
            let k : KeyReq := { x.key with fir := true, firSeq := (x.key.firSeq + 1) % 256, sent := some now }
            let s1 : State := { s with
              hub := if x.key.fir then s.hub
                else s.hub.raise { code := 0x0605, sash := s.fwdSash (x.leg % 8), detail := [stream] }
              fwd := s.fwd.setIn stream { x with key := k } }
            s1.feedback x.leg "rtcp" 4 206 0 (beBytes 4 x.ssrc ++ [BitVec.ofNat 8 k.firSeq, 0, 0, 0]))

end Sys2Proof.Machine
end

