-- ==== Sys2Proof/Machine/Spl.lean ====
section
/-!
DEFINITION. The Mullion splicers (chapter 10): the payload store (R210), templates and patches (R211, R212), receivers and
their positions (R213–R216), pane refreshes (R214), pane sheets (R205), imports (R218), the splice service.
-/

namespace Sys2Proof.Machine

def State.splErr (s : State) (f : Fld) (u : Nat) : State := { s with hub := s.hub.err f u 0x0B08 u }
def State.splRaise (s : State) (code u x : Nat) : State := { s with hub := s.hub.raiseRl { code := code, inst := u, detail := [x] } }
def recvKey (spl r : Nat) : Nat := 4096 * spl + r
def SplSt.setRecv (x : SplSt) (spl r : Nat) (v : SplRecv) : SplSt := { x with recvs := kvPut (recvKey spl r) v x.recvs }
def State.setRecv (s : State) (spl r : Nat) (v : SplRecv) : State := { s with spl := s.spl.setRecv spl r v }

/-- SPLICE_WAIT in ns. -/
def SplSt.waitNs (x : SplSt) : Nat := 1000 * x.wait

/-- The instant of the frame after one (R210). -/
def State.splNext (s : State) (u t : Nat) : Nat := let f := s.splFps u; instantFrom f.1 f.2 (t + 1)

/-! ### Templates (R211) -/

/-- Bits of bytes, most significant first. -/
def bitsOf : List Byte → List Bool
  | [] => []
  | b :: t => (List.range 8).map (fun k => b.getLsbD (7 - k)) ++ bitsOf t

/-- Bytes of bits, the last padded with zeros. -/
def bytesOf : Nat → List Bool → List Byte
  | 0, _ => []
  | n + 1, l => BitVec.ofNat 8 ((List.range 8).foldl (fun a k => 2 * a + (if l.getD k false then 1 else 0)) 0) :: bytesOf n (l.drop 8)

/-- The low `w` bits of a number, most significant first. -/
def uBits (w v : Nat) : List Bool := (List.range w).map fun k => v.testBit (w - 1 - k)

/-- One part of a template record, and the bytes after it (Table 10.6). -/
def tplPart (b : List Byte) : Option TplPart × List Byte :=
  let np := min (bodyU8 b 2) 16
  let bits := min (bodyN b 8 4) 65535
  let n := 12 + 4 * np + ceilDiv bits 8
  let role := bodyN b 0 2
  let pat := fun (k : Nat) =>
    let v := bodyN b (12 + 4 * k) 4
    let c := v / 256 % 16
    let cod := if c ≤ 3 then c else 0
    let w := v % 256
    ({ pos := v / 65536, kind := v / 4096 % 16, coding := cod, width := if cod = 3 then min w 8 else w } : TplPatch)
  let part : TplPart :=
    { role := role, x := bodyU8 b 5, y := bodyU8 b 4, w := bodyU8 b 7, h := bodyU8 b 6
      bits := (bitsOf ((b.drop (12 + 4 * np)).take (ceilDiv bits 8)) ++ List.replicate bits false).take bits
      patches := ((List.range np).map pat).mergeSort fun a c => a.pos ≤ c.pos }
  (if role ≤ 65 then some part else none, b.drop (ceilDiv n 8 * 8))

/-- The parts of a record. -/
def tplParts : Nat → List Byte → List TplPart
  | 0, _ => []
  | _, [] => []
  | n + 1, b =>
    let r := tplPart b
    match r.1 with
    | some p => p :: tplParts n r.2
    | none => tplParts n r.2

/-- A part by ROLE; one that is missing has no bits. -/
def Template.part (t : Template) (role : Nat) : TplPart :=
  (t.parts.find? (·.role = role)).getD { role := role, x := 0, y := 0, w := 0, h := 0, bits := [], patches := [] }

/-- A position's rectangle. -/
def Template.rect (t : Template) (i : Nat) : Nat × Nat × Nat × Nat :=
  let p := t.part (i + 2)
  (p.x, p.y, p.w, p.h)

/-- TEMPLATE_RECORD_RECEIVE (R211). -/
def execTemplateRecordReceive (spl : Nat) (rec : List Byte) (poison : Bool) (s : State) : Host.Outcome State Fault Refusal :=
  let id := bodyN rec 0 2 % 256
  let key := 256 * spl + id
  let others := s.spl.templates.filter fun t => t.1 / 256 = spl ∧ t.1 ≠ key
  let codec := bodyU8 rec 2
  .next (if poison then (s.splErr SPL.POISON.COUNT spl).splRaise 0x0B05 spl id
    else if (codec ≠ 1 ∧ codec ≠ 3 ∧ codec ≠ 4) ∨ bodyU8 rec 3 = 0 ∨ 256 ≤ others.length ∨
        1048576 < others.foldl (fun a t => a + t.2.size) rec.length then
      let s1 := s.splErr SPL.TPL_BAD.COUNT spl
      { s1 with hub := s1.hub.raise { code := 0x0B04, inst := spl } }
    else
      let t : Template :=
        { codec := codec, npos := min (bodyU8 rec 3) 64, w64 := bodyN rec 4 2, h64 := bodyN rec 6 2
          parts := tplParts rec.length (rec.drop 16), size := rec.length, at_ := s.hub.time.total }
      let old := match kvGet key s.spl.templates with
        | some o => [(key, o)]
        | none => []
      { s with spl := { s.spl with templates := kvPut key t s.spl.templates, replaced := s.spl.replaced ++ old } })

/-- The template that a receiver's frame uses: the one it took, though a later record has replaced it (R211). -/
def SplSt.tplOf (x : SplSt) (spl tpl at_ : Nat) : Option Template :=
  let key := 256 * spl + tpl
  match kvGet key x.templates with
  | some t => if t.at_ = at_ then some t else ((x.replaced.find? fun e => e.1 = key ∧ e.2.at_ = at_).map Prod.snd)
  | none => none

/-! ### Building header parts (Table 10.7) -/

/-- Exp-Golomb code ue(v). -/
def ueBits (v : Nat) : List Bool :=
  let n := Nat.log2 (v + 1)
  List.replicate n false ++ uBits (n + 1) (v + 1)

/-- A value in a patch's coding. -/
def codeBits (coding w : Nat) (v : Int) : List Bool :=
  if w = 0 then []
  else match coding with
    | 1 => ueBits v.toNat
    | 2 => ueBits (if 0 < v then (2 * v - 1).toNat else (-2 * v).toNat)
    | 3 => (List.range w).flatMap fun k => uBits 8 (v.toNat / 128 ^ k % 128 + (if k + 1 < w then 128 else 0))
    | _ => uBits w (v % (2 ^ w : Nat)).toNat

/-- Values a patch may insert: FRAME_NUM, bytes of payload after the part, PANE_TYPE, PANE_QP. -/
structure PatchVals where
  num : Nat
  bytes : Nat
  ty : Nat
  qp : Int
  deriving DecidableEq, Repr

/-- PART_BYTES coded before `rest` bits: its own length depends on its value, found from below. -/
def partBytes (p : TplPatch) (rest bytes : Nat) : List Bool := codeBits p.coding p.width (ceilDiv rest 8 + bytes : Nat)

/-- Insert the patches into the bits, from output bit `pos` and template bit `at_` on. -/
def patchBits (v : PatchVals) (pos at_ : Nat) (bits : List Bool) : List TplPatch → List Bool
  | [] => bits
  | p :: t =>
    let n := p.pos - at_
    let here := bits.take n
    let tail := bits.drop n
    let q := pos + here.length
    let ins := match p.kind with
      | 0 => codeBits p.coding p.width v.num
      | 1 => partBytes p (patchBits v (q + (if p.coding = 0 then p.width else 8 * p.width)) (at_ + here.length) tail t).length v.bytes
      | 2 => codeBits p.coding p.width v.ty
      | 3 => codeBits p.coding p.width v.qp
      | 4 => true :: List.replicate ((7 - q % 8) % 8) false
      | _ => []
    here ++ ins ++ patchBits v (q + ins.length) (at_ + here.length) tail t

/-- A part's bytes. -/
def TplPart.build (p : TplPart) (v : PatchVals) : List Byte :=
  let b := patchBits v 0 0 p.bits p.patches
  bytesOf (ceilDiv b.length 8) b

/-- The byte inserted at the junction where a start-code prefix would form (R212). -/
def junction (codec : Nat) (head payload : List Byte) : List Byte :=
  let e := (head.reverse.take 2).map BitVec.toNat
  let f := (payload.take 2).map BitVec.toNat
  if codec = 1 then []
  else match e, f with
    | 0 :: 0 :: _, x :: _ => if x ≤ 3 then [3] else []
    | 0 :: _, 0 :: x :: _ => if x ≤ 3 then [3] else []
    | _, _ => []

/-! ### The store (R210) -/

/-- The payload of a pane stream for a splice frame, when complete and not poisoned. -/
def SplSt.pay (x : SplSt) (spl stream frame : Nat) : Option PanePay :=
  x.store.find? fun p => p.spl = spl ∧ p.stream = stream ∧ p.frame = frame ∧ p.done ∧ !p.bad

/-- Can the payload still become complete? -/
def SplSt.payBad (x : SplSt) (spl stream frame : Nat) : Bool :=
  x.store.any fun p => p.spl = spl ∧ p.stream = stream ∧ p.frame = frame ∧ p.bad

def PanePay.refresh (p : PanePay) : Bool := p.flags % 2 == 1

/-- What is no longer needed: frames before every receiver's, past their deadline. -/
def State.splPurge (s : State) (spl : Nat) : State :=
  let mine := s.spl.recvs.filter fun r => r.1 / 4096 = spl
  let keep := fun (p : PanePay) =>
    decide (p.spl ≠ spl) || mine.any (fun r => decide (r.2.frame ≤ p.frame)) || decide (s.hub.time.total < p.frame + s.spl.waitNs)
  let used := fun (e : Nat × Template) => s.spl.recvs.any fun r => 256 * (r.1 / 4096) + r.2.tpl = e.1 ∧ r.2.tplAt = e.2.at_
  { s with spl := { s.spl with store := s.spl.store.filter keep, replaced := s.spl.replaced.filter used } }

/-! ### Positions (Table 10.8) -/

/-- A WAITING position carries its old stream, and leaves it for good at a miss (R215). -/
def SplPos.oldCarry (p : SplPos) (x : SplSt) (spl frame : Nat) (dl : Bool) : Option Nat → Option (SplPos × Option PanePay × Bool)
  | none => some (p, none, false)
  | some st =>
    match x.pay spl st frame with
    | some y => some (p, some y, false)
    | none => if dl || x.payBad spl st frame then some ({ p with stream := none }, none, false) else none

/-- What a position carries in a frame: a payload, or a hold tile, with its state after; none while it waits. `dl`: the
deadline has passed. The last part: a LIVE position missed its payload. -/
def SplPos.carry (p : SplPos) (x : SplSt) (spl frame : Nat) (dl : Bool) : Option (SplPos × Option PanePay × Bool) :=
  let missed := fun (st : Nat) => dl || x.payBad spl st frame
  match p.state, p.stream with
  | 1, some st =>
    match x.pay spl st frame with
    | some y => if y.refresh then some ({ p with state := 2 }, some y, false) else some (p, none, false)
    | none => if missed st then some (p, none, false) else none
  | 2, some st =>
    match x.pay spl st frame with
    | some y => some (p, some y, false)
    | none => if missed st then some ({ p with state := 1 }, none, true) else none
  | 3, old =>
    match p.next with
    | none => some (p, none, false)
    | some nx =>
      match x.pay spl nx frame with
      | some y =>
        if y.refresh then some ({ state := 2, stream := some nx, next := none }, some y, false)
        else (p.oldCarry x spl frame dl old)
      | none => if missed nx then p.oldCarry x spl frame dl old else none
  | _, _ => some (p, none, false)

/-- A position's stream is named anew at an unchanged rectangle (Tables 10.8, 10.9). Answers whether a refresh is needed. -/
def SplPos.rename (p : SplPos) (name : Option Nat) : SplPos × Bool :=
  match name with
  | none => ({ state := 0 }, false)
  | some n =>
    match p.state with
    | 2 => if p.stream = some n then (p, false) else ({ p with state := 3, next := some n }, true)
    | 3 => if p.stream = some n then ({ state := 2, stream := some n }, false)
      else ({ p with next := some n }, decide (p.next ≠ some n))
    | 1 => ({ state := 1, stream := some n }, decide (p.stream ≠ some n))
    | _ => ({ state := 1, stream := some n }, true)

/-- The stream a position names. -/
def SplPos.named (p : SplPos) : Option Nat := if p.state = 3 then p.next else p.stream

/-- A new receiver's positions: HOLD on a named stream, else VACANT. -/
def freshPos (l : List (Option Nat)) : List SplPos :=
  l.map fun x => match x with
    | some n => { state := 1, stream := some n }
    | none => { state := 0 }

/-- The needs of positions in HOLD and WAITING (R214). -/
def State.posNeeds (s : State) (spl : Nat) (l : List SplPos) : State :=
  l.foldl (fun a p => match p.state, p.named with
    | 1, some n => a.paneNeed spl n
    | 3, some n => a.paneNeed spl n
    | _, _ => a) s

/-! ### Receiver frames (R212, R216) -/

/-- Change a receiver's template and streams at a frame (R216). -/
def State.recvChange (s : State) (spl : Nat) (v : SplRecv) (tpl : Nat) (l : List (Option Nat)) : State × SplRecv :=
  let old := s.spl.tplOf spl v.tpl v.tplAt
  match kvGet (256 * spl + tpl) s.spl.templates with
  | none => (s, v)
  | some t =>
    let n := t.npos
    let names := (List.range n).map fun i => (l.getD i none)
    if tpl = v.tpl ∧ t.at_ = v.tplAt then
      let ps := (List.range n).map fun i => ((v.pos.getD i { state := 0 }).rename (names.getD i none))
      let s1 := (List.range n).foldl (fun a i =>
        if (ps.getD i ({ state := 0 }, false)).2 then
          (match names.getD i none with | some st => a.paneNeed spl st | none => a) else a) s
      (s1, { v with pos := ps.map (·.1) })
    else
      let rects := fun (u : Template) => (List.range u.npos).map u.rect
      let differ : Bool := match old with
        | some u => rects u != rects t
        | none => true
      if t.codec = 4 ∧ differ then
        (s, { v with tpl := tpl, tplAt := t.at_, pos := freshPos names, key := true })
      else
        let keep := fun (i : Nat) => match old with
          | some u => (List.range u.npos).find? fun j => u.rect j = t.rect i ∧ (v.pos.getD j { state := 0 }).state = 2 ∧
              (v.pos.getD j { state := 0 }).stream = names.getD i none
          | none => none
        let ps := (List.range n).map fun i => match keep i with
          | some j => v.pos.getD j { state := 0 }
          | none => match names.getD i none with
            | some st => { state := 1, stream := some st }
            | none => { state := 0 }
        (s.posNeeds spl ps, { v with tpl := tpl, tplAt := t.at_, pos := ps })

/-- The frame a receiver is at begins: changes due by its instant take effect, and a template replaced since is taken anew.
Answers nothing where the receiver is removed. -/
def State.recvOpen (s : State) (spl : Nat) (v : SplRecv) : Option (State × SplRecv) :=
  let due := v.changes.filter fun c => c.at_ ≤ v.frame
  let rest := v.changes.filter fun c => v.frame < c.at_
  if due.any (·.set.isNone) then none
  else
    let r := due.foldl (fun (a : State × SplRecv) c => match c.set with
      | some (t, l) => a.1.recvChange spl a.2 t l
      | none => a) (s, { v with changes := rest })
    match kvGet (256 * spl + r.2.tpl) r.1.spl.templates with
    | some t =>
      if t.at_ ≠ r.2.tplAt ∧ t.at_ ≤ v.frame then some (r.1.recvChange spl r.2 r.2.tpl (r.2.pos.map (·.named))) else some r
    | none => some r

/-- A part's bytes as the payloads of packets (R212; their size, assumption 121). -/
def spliceCut : Nat → List Byte → List (List Byte)
  | 0, _ => []
  | _, [] => []
  | n + 1, b => let k := Config.splicePayload % 8000 + 1; b.take k :: spliceCut n (b.drop k)

/-- Emit bytes to the receiver's outbound stream, which FWD makes packets of (R37, R212): RTP timestamps are the frame instant's, M is
set on the last packet of the frame. -/
def State.splEmit (s : State) (spl r : Nat) (v : SplRecv) (last : Bool) (b : List Byte) : State :=
  let clock := ((kvGet v.out s.fwd.outs).map OutStream.clock).getD 90000
  let l := spliceCut b.length b
  let s1 : State := { s with hub := s.hub.stat SPL.BYTES_LO.COUNT spl b.length }
  l.zipIdx.foldl (fun a e =>
    a.produce v.out (131072 + recvKey spl r)
      { m := last && e.2 + 1 == l.length, pt := 0, seq := (v.seq + e.2) % 65536, ts := v.frame * clock / 1000000000 % 2 ^ 32, ssrc := 0
        csrc := [], twoByte := false, ext := [], payload := e.1 }) s1

/-- Packets of a receiver, counted on. -/
def SplRecv.sent (v : SplRecv) (b : List Byte) : SplRecv := { v with seq := v.seq + (spliceCut b.length b).length }

/-- The bytes of one position: its part, the junction byte, its payload or the tile that the splicer has generated for it. -/
def Template.position (t : Template) (v : SplRecv) (i : Nat) (y : Option PanePay) : List Byte :=
  let part := t.part (i + 2)
  let blank := y.isNone && v.key
  let body := match y with
    | some p => p.bytes
    | none => Config.spliceTile t.codec part.w part.h blank
  let ty := match y with
    | some p => if p.refresh then 2 else 1
    | none => if blank then 2 else 1
  let qp : Int := match y with
    | some p => (p.qp : Int) - 26
    | none => 0
  let h := part.build ⟨v.frames, body.length, ty, qp⟩
  h ++ junction t.codec h body ++ body

/-- Advance one receiver as far as payloads allow: at most `fuel` positions and frame ends. `dl` is the latest instant whose
deadline has passed, if any. -/
def State.recvRun (s : State) (spl r : Nat) (dl : Option Nat) : Nat → State
  | 0 => s
  | fuel + 1 =>
    match kvGet (recvKey spl r) s.spl.recvs with
    | none => s
    | some v =>
      if s.hub.time.total < v.frame then s
      else if !v.open_ then
        match s.recvOpen spl v with
        | none =>
          { s with
            hub := s.hub.set1 SPL.STATUS.RECEIVERS spl (s.hub.get1 SPL.STATUS.RECEIVERS spl - 1)
            spl := { s.spl with recvs := kvDel (recvKey spl r) s.spl.recvs } }
        | some (s1, w) =>
          match s1.spl.tplOf spl w.tpl w.tplAt with
          | none => s
          | some t =>
            let h := (t.part (if w.key then 0 else 1)).build ⟨w.frames, 0, if w.key then 2 else 1, 0⟩
            ((s1.splEmit spl r w false h).setRecv spl r { (w.sent h) with open_ := true, next := 0 }).recvRun spl r dl fuel
      else
        match s.spl.tplOf spl v.tpl v.tplAt with
        | none => s
        | some t =>
          if v.next < min t.npos v.pos.length then
            let past := match dl with | some d => decide (v.frame ≤ d) | none => false
            let p := v.pos.getD v.next { state := 0 }
            let last := v.next + 1 == min t.npos v.pos.length
            if v.key then
              let b := t.position v v.next none
              ((s.splEmit spl r v last b).setRecv spl r { (v.sent b) with next := v.next + 1 }).recvRun spl r dl fuel
            else match p.carry s.spl spl v.frame past with
              | none => s
              | some (q, y, miss) =>
                let b := t.position v v.next y
                let s1 := s.splEmit spl r v last b
                let s2 := if miss then (s1.splErr SPL.SKIP_TILE.COUNT spl).splRaise 0x0B01 spl r else s1
                let s3 := if miss then s2.posNeeds spl [q] else s2
                (s3.setRecv spl r { (v.sent b) with
                  pos := v.pos.set v.next q, next := v.next + 1
                  holds := v.holds + (if y.isNone then 1 else 0) }).recvRun spl r dl fuel
          else
            let s1 : State := { s with hub := s.hub.stat SPL.FRAMES_LO.COUNT spl 1 }
            let s2 := if v.key then s1.posNeeds spl v.pos else s1
            (s2.setRecv spl r { v with
              frames := v.frames + 1, frame := s.splNext spl v.frame, next := 0, open_ := false, key := false }).recvRun spl r dl fuel

/-- Advance every receiver of a splicer. -/
def State.splRun (s : State) (spl : Nat) (dl : Option Nat) : State :=
  ((s.spl.recvs.filter fun r => r.1 / 4096 = spl).foldl (fun a r => a.recvRun spl (r.1 % 4096) dl 600) s).splPurge spl

/-! ### Pane refreshes judged (R214) -/

/-- The payload of a frame at which a stream's refresh was due is judged: one with REFRESH ends it; otherwise the next is
set under the interval rule. -/
def State.refreshJudge (s : State) (spl id frame : Nat) (ok : Bool) : State :=
  let p := s.spl.stream spl id
  if p.due ≠ some frame then s
  else
    let p1 : PaneStream := { p with due := none, last := some frame }
    let s1 : State := { s with spl := s.spl.setStream spl id p1 }
    if ok then s1 else ((s1.splErr SPL.SWITCH_RETRY.COUNT spl).splRaise 0x0B02 spl id).paneNeed spl id

/-- Bytes stored for splicer `spl`. -/
def SplSt.stored (x : SplSt) (spl : Nat) : Nat := (x.store.filter (·.spl = spl)).foldl (fun a p => a + p.bytes.length) 0

/-- A pane chunk arrives (R210): Table 10.2 and its bytes, for a local stream ID. It crosses Jorras once for each import of its
stream (R218). -/
def State.paneChunkIn (s : State) (spl : Nat) (b : List Byte) (poison : Bool) : State :=
  let id := bodyN b 4 2 % 1024
  let last := bodyN b 4 2 / 32768 = 1
  let fps := s.splFps spl
  let frame := instantAt fps.1 fps.2 (bodyN b 12 4 * 1000000000 + bodyN b 8 4)
  let data := b.drop 16
  let room := ((s.fab.part (bodyN (s.fab.persAt 4 spl).2 0 2 % 4096)).map (·.size)).getD 0
  let full := room < s.spl.stored spl + data.length
  let old := s.spl.store.find? fun p => p.spl = spl ∧ p.stream = id ∧ p.frame = frame
  let base : PanePay := old.getD { spl := spl, stream := id, frame := frame, bytes := [], flags := bodyU8 b 6, qp := bodyU8 b 7, done := false }
  let new : PanePay :=
    if full then { base with bad := true }
    else { base with
      bytes := base.bytes ++ data, flags := base.flags ||| bodyU8 b 6, done := decide last, bad := base.bad || poison }
  let s1 := if poison then (s.splErr SPL.POISON.COUNT spl).splRaise 0x0B05 spl id else s
  let s2 := if full then s1.splErr SPL.STORE_DROP.COUNT spl else s1
  let rest := s2.spl.store.filter fun p => p.spl ≠ spl ∨ p.stream ≠ id ∨ p.frame ≠ frame
  let s3 : State := { s2 with spl := { s2.spl with store := rest ++ [new] } }
  let s4 := ((s.spl.stream spl id).exports.foldl (fun (a : State) x =>
    a.jlSend x.1 4 3 (leBytes 1 x.2.1 ++ leBytes 1 0 ++ leBytes 2 x.2.2 ++ b)) s3).splRun spl none
  if new.done ∧ !new.bad then s4.refreshJudge spl id frame new.refresh else s4

/-- PANE_CHUNK_RECEIVE (R210, R212): only a unit that splices takes it. -/
def execPaneChunkReceive (spl : Nat) (chunk : List Byte) (poison : Bool) (s : State) : Host.Outcome State Fault Refusal :=
  .next (if (s.fab.persAt 4 spl).1 = 1 then s.paneChunkIn spl chunk poison else s)

/-- SPLICE_DEADLINE (R210, R214, R215): the deadline of the frame at an instant, SPLICE_WAIT after it. Before it, and in a unit that
does not splice, nothing happens. -/
def execSpliceDeadline (spl frame : Nat) (s : State) : Host.Outcome State Fault Refusal :=
  let s1 := s.splRun spl (some frame)
  let due := (s1.spl.streams.filter fun p => p.1 / 1024 = spl ∧ p.2.due = some frame).map (·.1 % 1024)
  .next (if (s.fab.persAt 4 spl).1 ≠ 1 ∨ s.hub.time.total < frame + s.spl.waitNs then s
    else due.foldl (fun a id => a.refreshJudge spl id frame
      (match s.spl.pay spl id frame with | some y => y.refresh | none => false)) s1)

/-! ### Cost (R219) -/

/-- A splicer's demand in hc for a receiver frame of so many positions and bytes, and its HBM bursts. -/
def spliceCost (positions bytes : Nat) : Nat := 300 + 40 * positions + ceilDiv bytes 32
def spliceBursts (stored emitted : Nat) : Nat := ceilDiv stored 64 + ceilDiv emitted 64

/-- Demand in 10^−2 hc of the tiles generated when a template is taken: both kinds for each position (R213). -/
def Template.tileCost (t : Template) : Nat :=
  ((List.range t.npos).map t.rect).foldl (fun a r => a + 2 * 2 * (64 * r.2.2.1) * (64 * r.2.2.2)) 0

/-! ### Pane streams that end (Table 10.9) -/

/-- A pane stream is gone: its positions go VACANT and `SPL_PANE_GONE` is raised. -/
def State.paneGone (s : State) (spl id : Nat) : State :=
  let fix := fun (p : SplPos) =>
    if p.named = some id then { state := 0 } else if p.stream = some id then { p with stream := none } else p
  { s with
    hub := s.hub.raise { code := 0x0B03, inst := spl, detail := [id] }
    spl := { s.spl with
      streams := kvDel (paneKey spl id) s.spl.streams
      recvs := s.spl.recvs.map fun r => if r.1 / 4096 = spl then (r.1, { r.2 with pos := r.2.pos.map fix }) else r } }

/-- The pane streams of a channel (or of one rendition of it) end. -/
def State.panesGone (s : State) (sash : Nat) (rend : Option Nat) (keep : Nat → Nat → Bool) : State :=
  (s.spl.streams.filter fun p => match p.2.src with
    | some (n, r) => n = sash && (rend == none || rend == some r) && !keep (p.1 / 1024) (p.1 % 1024)
    | none => false).foldl (fun a p => a.paneGone (p.1 / 1024) (p.1 % 1024)) s

/-! ### The splice service (Table 10.12) -/

/-- A pane of a SPL_PANESET body. -/
def paneOf (b : List Byte) (i : Nat) : EncPane :=
  let o := 6 + 8 * i
  { stream := bodyN b o 2 % 1024, x := bodyU8 b (o + 2), y := bodyU8 b (o + 3), w := bodyU8 b (o + 4), h := bodyU8 b (o + 5) }

/-- Do two panes overlap? -/
def EncPane.overlaps (p q : EncPane) : Bool :=
  decide (p.x < q.x + q.w ∧ q.x < p.x + p.w ∧ p.y < q.y + q.h ∧ q.y < p.y + p.h)

/-- Does any pane overlap a later one? -/
def panesOverlap : List EncPane → Bool
  | [] => false
  | p :: t => t.any p.overlaps || panesOverlap t

/-- SPL_PANESET (R205): in force at the channel's next frame start; a count of 0 ends pane mode. -/
def execSplPaneset (e : CmdEnv) (body : List Byte) (s : State) : Host.Outcome State Fault Refusal :=
  let ref := bodyN body 0 2
  let spl := refInst ref
  let sash := bodyN body 2 2
  let r := bodyU8 body 4
  let n := min (bodyU8 body 5) 64
  let ps := (List.range n).map (paneOf body)
  let us := (s.encUnits sash).map fun u => s.encPers u (s.fab.cls sash)
  .next (match us, kvGet (8 * sash + r) s.enc.rends with
    | p :: _, some x =>
      let sz := x.cfg.size p r
      let edges := (encTiles us).1.map fun a => if r = 0 then a else a * sz.1 / p.outW / 64 * 64
      let outside := fun (q : EncPane) => decide (q.w = 0 ∨ q.h = 0 ∨ ceilDiv sz.1 64 < q.x + q.w ∨ ceilDiv sz.2 64 < q.y + q.h)
      let straddles := fun (q : EncPane) => edges.any fun a => decide (64 * q.x < a ∧ a < 64 * (q.x + q.w))
      let big := fun (q : EncPane) => p.codec == 1 && decide (64 < q.w ∨ 2304 < q.w * q.h)
      if !s.hub.reachesSash e.fn sash then s.done e 0x0501 5 []
      else if s.hub.unitCount 4 ≤ spl ∨ refType ref ≠ 4 then s.done e 0x0501 3 []
      else if panesOverlap ps ∨ ps.any outside ∨ ps.any straddles ∨ ps.any big ∨ p.codec = 4 then s.done e 0x0501 4 []
      else
        let s1 := s.panesGone sash (some r) fun u id => u == spl && ps.any fun q => decide (q.stream = id)
        let s2 : State := { s1 with
          spl := ps.foldl (fun a q =>
            a.setStream spl q.stream { a.stream spl q.stream with src := some (sash, r), remote := none, w := q.w, h := q.h }) s1.spl
          enc := s1.enc.setRend sash r { x with nextPanes := some (if n = 0 then none else some (spl, ps)) } }
        s2.done e 0x0501 0 []
    | _, _ => s.done e 0x0501 3 [])

/-- SPL_IMPORT (R218). -/
def execSplImport (e : CmdEnv) (body : List Byte) (s : State) : Host.Outcome State Fault Refusal :=
  let ref := bodyN body 0 2
  let spl := refInst ref
  let id := bodyN body 2 2
  .next (if refType ref ≠ 4 ∨ s.hub.unitCount 4 ≤ spl then s.done e 0x0502 3 []
    else if e.fn ≠ 0 ∧ !(s.fab.users 4 spl).any (s.hub.reachesSash e.fn) then s.done e 0x0502 5 []
    else if 1024 ≤ id ∨ 1024 ≤ bodyN body 8 2 ∨ 4 ≤ bodyU8 body 6 then s.done e 0x0502 1 []
    else if ((s.spl.stream spl id).src).isSome then s.done e 0x0502 2 []
    else
      let p : PaneStream := { remote := some (bodyN body 4 2 % 2048, bodyU8 body 6, bodyN body 8 2) }
      (({ s with spl := s.spl.setStream spl id p } : State).jlSvc (bodyN body 4 2 % 2048)
        (.paneImport (bodyU8 body 6) (bodyN body 8 2) spl id)).done e 0x0502 0 [])

/-- The streams a SPL_RECV_ADD or SPL_RECV_SET names. -/
def recvStreams (b : List Byte) (n : Nat) : List (Option Nat) :=
  (List.range n).map fun i => if bodyN b (8 + 2 * i) 2 = 0xFFFF then none else some (bodyN b (8 + 2 * i) 2)

/-- The codec of a template as an encoder counts codecs. -/
def tplCodec (c : Nat) : Nat := match c with | 1 => 1 | 3 => 2 | _ => 3

/-- Does a pane stream fit a position (R213): size, codec and frame rate? What an imported stream is coded as is not known
here. -/
def State.paneFits (s : State) (spl : Nat) (t : Template) (i id : Nat) : Bool :=
  let p := s.spl.stream spl id
  let rc := t.rect i
  let fps := s.splFps spl
  match p.src, p.remote with
  | some (sash, r), _ =>
    let us := s.encUnits sash
    let codec := (us.head?.map fun u => (s.encPers u (s.fab.cls sash)).codec).getD 0
    match kvGet (8 * sash + r) s.enc.rends with
    | some x => rc.2.2.1 == p.w && rc.2.2.2 == p.h && codec == tplCodec t.codec && x.cfg.num * fps.2 == fps.1 * x.cfg.den
    | none => false
  | none, some _ => true
  | none, none => false

/-- Do HEVC positions form a grid of full rows and columns (R213)? Every left edge meets every top edge in one position
whose size is its column's and row's. -/
def Template.grid (t : Template) : Bool :=
  let rs := (List.range t.npos).map t.rect
  rs.all fun a => rs.all fun b => rs.any fun c =>
    decide (c.1 = a.1 ∧ c.2.1 = b.2.1 ∧ c.2.2.1 = a.2.2.1 ∧ c.2.2.2 = b.2.2.2)

/-- Why a receiver command is refused, if it is. -/
def State.recvRefused (s : State) (e : CmdEnv) (b : List Byte) (add : Bool) : Option Nat :=
  let ref := bodyN b 0 2
  let spl := refInst ref
  let r := bodyN b 2 2
  let out := bodyN b 4 2
  if refType ref ≠ 4 ∨ s.hub.unitCount 4 ≤ spl then some 3
  else if 4096 ≤ r then some 1
  else match kvGet (256 * spl + bodyU8 b 6) s.spl.templates, kvGet out s.fwd.outs with
    | some t, some o =>
      let names := recvStreams b t.npos
      if !s.hub.reachesLeg e.fn o.leg then some 5
      else if add ∧ kvHas (recvKey spl r) s.spl.recvs then some 2
      else if !add ∧ !kvHas (recvKey spl r) s.spl.recvs then some 3
      else if (t.codec = 3 ∧ !t.grid) ∨ (List.range t.npos).any (fun i => match names.getD i none with
          | some id => !s.paneFits spl t i id
          | none => false) then some 4
      else none
    | _, _ => some 3

/-- Complete a refused receiver command: BAD_REF carries the reason FALLBACK, whose value is not stated. -/
def State.recvRefuse (s : State) (e : CmdEnv) (op st : Nat) : State :=
  if st = 4 then ({ s with hub := s.hub.freeTick } : State).done e op st (leBytes 1 (s.hub.freeVal 256)) else s.done e op st []

/-- A receiver is created; its first frame is the first whose instant is at or after `at_`. -/
def State.recvAdd (s : State) (b : List Byte) (at_ : Nat) : State :=
  let spl := refInst (bodyN b 0 2)
  let r := bodyN b 2 2
  match kvGet (256 * spl + bodyU8 b 6) s.spl.templates with
  | none => s
  | some t =>
    let fps := s.splFps spl
    let v : SplRecv :=
      { out := bodyN b 4 2, tpl := bodyU8 b 6, tplAt := t.at_, pos := freshPos (recvStreams b t.npos)
        frame := instantFrom fps.1 fps.2 at_ }
    if kvHas (recvKey spl r) s.spl.recvs then s
    else { (s.setRecv spl r v) with hub := s.hub.set1 SPL.STATUS.RECEIVERS spl (s.hub.get1 SPL.STATUS.RECEIVERS spl + 1) }

/-- A change of a receiver waits for its frame. -/
def State.recvQueue (s : State) (b : List Byte) (c : RecvChange) : State :=
  let spl := refInst (bodyN b 0 2)
  let r := bodyN b 2 2
  match kvGet (recvKey spl r) s.spl.recvs with
  | some v => s.setRecv spl r { v with changes := v.changes ++ [c] }
  | none => s

/-- The streams and template a SPL_RECV_SET sets. -/
def State.recvSetOf (s : State) (b : List Byte) (at_ : Nat) : RecvChange :=
  let n := ((kvGet (256 * refInst (bodyN b 0 2) + bodyU8 b 6) s.spl.templates).map (·.npos)).getD 0
  { at_ := at_, set := some (bodyU8 b 6, recvStreams b n) }

/-- SPL_RECV_ADD (R213, R220). -/
def execSplRecvAdd (e : CmdEnv) (body : List Byte) (s : State) : Host.Outcome State Fault Refusal :=
  .next (match s.recvRefused e body true with
    | some st => s.recvRefuse e 0x0503 st
    | none => if e.latched then s.hold e 0x0503 (.splRecvAdd e body)
      else (s.recvAdd body s.hub.time.total).done e 0x0503 0 [])

/-- SPL_RECV_SET (R216, R220): at the first frame whose instant is at least 2 periods after acceptance. -/
def execSplRecvSet (e : CmdEnv) (body : List Byte) (s : State) : Host.Outcome State Fault Refusal :=
  .next (match s.recvRefused e body false with
    | some st => s.recvRefuse e 0x0504 st
    | none => if e.latched then s.hold e 0x0504 (.splRecvSet e body)
      else (s.recvQueue body (s.recvSetOf body (s.hub.time.total + 250000))).done e 0x0504 0 [])

/-- SPL_RECV_DEL (R220): removed after its current frame. -/
def execSplRecvDel (e : CmdEnv) (body : List Byte) (s : State) : Host.Outcome State Fault Refusal :=
  let ref := bodyN body 0 2
  .next (match kvGet (recvKey (refInst ref) (bodyN body 2 2)) s.spl.recvs with
    | none => s.done e 0x0505 3 []
    | some v =>
      let own := match kvGet v.out s.fwd.outs with
        | some o => s.hub.reachesLeg e.fn o.leg
        | none => e.fn == 0
      if refType ref ≠ 4 then s.done e 0x0505 3 []
      else if !own then s.done e 0x0505 5 []
      else if e.latched then s.hold e 0x0505 (.splRecvDel e body)
      else (s.recvQueue body { at_ := 0, set := none }).done e 0x0505 0 [])

/-- A held change of a receiver comes into force at its Latch (R220): without its receiver it is discarded. -/
def State.splChange (s : State) (i : Instr) : State :=
  let now := s.hub.time.total
  let gone := fun (b : List Byte) => !kvHas (recvKey (refInst (bodyN b 0 2)) (bodyN b 2 2)) s.spl.recvs
  let stale := fun (b : List Byte) =>
    { s with hub := s.hub.raise { code := 0x0B06, inst := refInst (bodyN b 0 2) } }
  match i with
  | .splRecvAdd _ b => s.recvAdd b now
  | .splRecvSet _ b => if gone b then stale b else s.recvQueue b (s.recvSetOf b now)
  | .splRecvDel _ b => if gone b then stale b else s.recvQueue b { at_ := now, set := none }
  | _ => s

/-- SPL_REFRESH (R214). -/
def execSplRefresh (e : CmdEnv) (body : List Byte) (s : State) : Host.Outcome State Fault Refusal :=
  let ref := bodyN body 0 2
  let id := bodyN body 2 2
  .next (if refType ref ≠ 4 ∨ 1024 ≤ id ∨ !kvHas (paneKey (refInst ref) id) s.spl.streams then s.done e 0x0506 3 []
    else if e.fn ≠ 0 ∧ !(match (s.spl.stream (refInst ref) id).src with
      | some (sash, _) => s.hub.reachesSash e.fn sash
      | none => (s.fab.users 4 (refInst ref)).any (s.hub.reachesSash e.fn)) then s.done e 0x0506 5 []
    else (s.paneNeed (refInst ref) id).done e 0x0506 0 [])

/-- SPL_STATS, as of the last publication: frames, hold tiles, then each position's state and stream. -/
def execSplStats (e : CmdEnv) (body : List Byte) (s : State) : Host.Outcome State Fault Refusal :=
  let ref := bodyN body 0 2
  .next (match kvGet (recvKey (refInst ref) (bodyN body 2 2)) s.spl.recvs with
    | none => s.done e 0x0507 3 []
    | some v =>
      let own := match kvGet v.out s.fwd.outs with
        | some o => s.hub.reachesLeg e.fn o.leg
        | none => e.fn == 0
      if refType ref ≠ 4 then s.done e 0x0507 3 []
      else if !own then s.done e 0x0507 5 []
      else s.done e 0x0507 0 (leBytes 8 v.pubFrames ++ leBytes 8 v.pubHolds ++
        v.pubPos.flatMap fun p => leBytes 2 p.1 ++ leBytes 2 p.2))

/-- At a publication the receivers' statistics are taken (R89). -/
def SplSt.publish (x : SplSt) : SplSt :=
  { x with recvs := x.recvs.map fun r => (r.1, { r.2 with
      pubFrames := r.2.frames, pubHolds := r.2.holds
      pubPos := r.2.pos.map fun p => (p.state, (p.stream).getD 0xFFFF) }) }

/-- A PLI or FIR on a spliced receiver's outbound stream (R217): a request for every pane stream at its LIVE positions. -/
def State.splAsked (s : State) (out : Nat) : State :=
  (s.spl.recvs.filter fun r => r.2.out = out).foldl (fun a r =>
    ((r.2.pos.filter (·.state = 2)).filterMap (·.stream)).foldl (fun b id =>
      let spl := r.1 / 4096
      match (b.spl.stream spl id).src with
      | some (sash, rd) =>
        match kvGet (8 * sash + rd) b.enc.rends with
        | some x =>
          if x.cfg.refreshN = 0 then b.paneNeed spl id
          else
            let now := (b.hub.elapsed, b.hub.time.total)
            { b with enc := b.enc.setRend sash rd { x with panes := x.panes.map fun q => (q.1, q.2.map fun p =>
                if p.stream = id ∧ p.req.isNone then { p with req := some now } else p) } }
        | none => b
      | none => b.paneNeed spl id) a) s

/-- A unit's status under its personality (R209). -/
def State.splSetup (s : State) (u : Nat) : State :=
  let code := (s.fab.persAt 4 u).1
  let st := if code = 0 then 0 else if code = 1 then 1 else 2
  let h := (s.hub.set1 SPL.PERS.CODE u code).set1 SPL.STATUS.STATE u st
  { s with hub := if st = 2 ∧ s.hub.get1 SPL.STATUS.STATE u ≠ 2 then h.raise { code := 0x0B07, inst := u } else h }

end Sys2Proof.Machine
end

