-- ==== Sys2Proof/Machine/LnkHand.lean ====
section
/-!
DEFINITION. Handover of a conference between devices (R361) and what SERVICE messages do (Table 18.4).
-/

namespace Sys2Proof.Machine

/-! ### The source -/

/-- Legs, inbound and outbound streams, and subscriptions of a conference. -/
def FwdSt.confIns (f : FwdSt) (c : Nat) : List Nat := (f.ins.filter fun x => (f.confLegs c).contains x.2.leg).map (·.1)
def FwdSt.confOuts (f : FwdSt) (c : Nat) : List Nat := (f.outs.filter fun x => (f.confLegs c).contains x.2.leg).map (·.1)
def FwdSt.confSubs (f : FwdSt) (c : Nat) : List Nat := (f.subs.filter fun x => (f.confLegs c).contains x.2.leg).map (·.1)

/-- Change or end the handover of a conference. -/
def State.setHand (s : State) (c : Nat) (h : Handover) : State := { s with lnk := { s.lnk with hand := kvPut c h s.lnk.hand } }
def State.dropHand (s : State) (c : Nat) : State := { s with lnk := { s.lnk with hand := kvDel c s.lnk.hand } }

/-- A leg as the LEG_ADD that would make it (Table 6.9): its remote address is the one now in use. -/
def Leg.body (i : Nat) (l : Leg) : List Byte :=
  leBytes 2 i ++ leBytes 2 l.conf ++ leBytes 1 l.kind ++ leBytes 1 l.eth ++ leBytes 1 l.cls ++
    leBytes 1 ((if l.ipv6 then 1 else 0) + (if l.rtxFlag then 2 else 0)) ++ fitBytes 16 l.laddr ++ fitBytes 16 l.raddr ++ leBytes 2 l.lport ++
    leBytes 2 l.rport ++ leBytes 4 l.minK ++ leBytes 4 l.maxK ++ leBytes 2 l.peer ++ leBytes 1 l.cname.length ++ leBytes 1 0 ++
    leBytes 1 l.lfrag.length ++ leBytes 1 l.lpwd.length ++ leBytes 1 l.rfrag.length ++ leBytes 1 l.rpwd.length ++ l.lfrag ++ l.lpwd ++ l.rfrag ++
    l.rpwd ++ l.cname

/-- Streams as the STREAM_ADD that would make them (Table 6.10). -/
def InStream.body (i : Nat) (x : InStream) : List Byte :=
  leBytes 2 i ++ leBytes 1 0 ++ leBytes 1 x.codec ++ leBytes 2 x.leg ++ leBytes 2 x.base ++ leBytes 4 x.ssrc ++ leBytes 4 x.rtxSsrc ++
    leBytes 4 x.fecSsrc ++ leBytes 1 x.pt ++ leBytes 1 x.rtxPt ++ leBytes 1 x.fecPt ++ leBytes 1 x.prot ++ leBytes 4 x.clock ++ leBytes 2 x.slot ++
    leBytes 2 0 ++ x.ext.flatMap (leBytes 1)
def OutStream.body (i : Nat) (x : OutStream) : List Byte :=
  leBytes 2 i ++ leBytes 1 1 ++ leBytes 1 x.codec ++ leBytes 2 x.leg ++ leBytes 2 i ++ leBytes 4 x.ssrc ++ leBytes 4 x.rtxSsrc ++ leBytes 4 x.fecSsrc ++
    leBytes 1 x.pt ++ leBytes 1 x.rtxPt ++ leBytes 1 x.fecPt ++ leBytes 1 x.prot ++ leBytes 4 x.clock ++ leBytes 2 x.slot ++ leBytes 1 x.fecL ++
    leBytes 1 x.fecD ++ x.ext.flatMap (leBytes 1)

/-- A subscription as the SUB_ADD that would make it (Table 6.2). -/
def Sub.body (i : Nat) (u : Sub) : List Byte := leBytes 4 i ++ u.bytes.drop 4

/-- A leg's audio profile as the AUD_LEG_PROFILE that would set it. -/
def AudProf.body (leg : Nat) (p : AudProf) : List Byte :=
  leBytes 2 leg ++ leBytes 2 p.inStream ++ leBytes 2 p.outStream ++ leBytes 2 p.group ++ leBytes 1 p.codec ++ leBytes 1 0 ++ leBytes 2 p.kbps ++
    leBytes 2 (p.dec.getD 0xFFFF)

/-- The key slots that a conference's streams name, each with its mode and direction. -/
def State.confSlots (s : State) (c : Nat) : List (Nat × Nat × Bool) :=
  let ins := (s.fwd.ins.filter fun x => (s.fwd.confLegs c).contains x.2.leg && x.2.prot == 1).map (·.2.slot)
  let outs := (s.fwd.outs.filter fun x => (s.fwd.confLegs c).contains x.2.leg && x.2.prot == 1).map (·.2.slot)
  ((ins ++ outs).eraseDups).map fun n => (n, (s.cip.slot n).mode, (s.cip.slot n).dec)

/-- The copy a source sends its target (R361): each leg with its ICE and consent state, each stream, subscription and audio profile. -/
def State.copyMsg (s : State) (c tconf : Nat) : SvcMsg :=
  let legs := s.fwd.legs.filter fun l => l.2.conf == c
  .copy c tconf (s.confSlots c) (legs.map fun l => (l.2.body l.1, l.2.state, s.hub.elapsed - l.2.consentAt))
    ((s.fwd.ins.filter fun x => (s.fwd.confLegs c).contains x.2.leg).map (fun x => x.2.body x.1) ++
      (s.fwd.outs.filter fun x => (s.fwd.confLegs c).contains x.2.leg).map (fun x => x.2.body x.1))
    ((s.fwd.subs.filter fun x => (s.fwd.confLegs c).contains x.2.leg).map fun x => x.2.body x.1)
    ((s.aud.profs.filter fun p => (s.fwd.confLegs c).contains p.1).map fun p => p.2.body p.1)

/-- HANDOVER (R361): the copy begins. -/
def execHandover (e : CmdEnv) (body : List Byte) (s : State) : Host.Outcome State Fault Refusal :=
  let c := bodyN body 0 2 % 4096
  let dev := bodyN body 2 2 % 2048
  let at_ := s.hub.compactNs (bodyN body 8 4) (bodyN body 12 4)
  .next (match kvGet c s.fwd.confs with
    | none => s.done e 0x0901 3 []
    | some x =>
      if !x.reached e.fn then s.done e 0x0901 5 []
      else if x.gone ∨ kvHas c s.lnk.hand then s.done e 0x0901 6 []
      else if (s.jlRoute dev).isNone then s.done e 0x0901 3 []
      else
        let h : Handover := { target := dev, tconf := bodyN body 4 2 % 4096, instant := at_, env := e }
        (s.setHand c h).jlSvc dev (s.copyMsg c h.tconf))

/-- The target's answer: a refusal ends the handover. -/
def State.handCopied (s : State) (c status : Nat) : State :=
  match kvGet c s.lnk.hand with
  | some h => if status = 0 then s.setHand c { h with copied := true } else (s.dropHand c).done h.env 0x0901 status []
  | none => s

/-- An outbound stream stops at its packet boundary and its state leaves for the target (R361). -/
def State.handOut (s : State) (dev i : Nat) : State :=
  match kvGet i s.fwd.outs with
  | some o =>
    let w := kvGet i s.cip.windows
    let idx := (s.fwd.index.filter (·.out = i)).map fun e => (e.seq, e.stream, e.inSeq, e.ts, e.m)
    ({ s with fwd := s.fwd.setOut i { o with held := true } } : State).jlSvc dev
      (.outState i o.ssrc o.seqOff o.tsOff o.lastSeq o.lastTs ((w.map (·.gen)).getD 0) ((w.map (·.top)).getD 0) idx)
  | none => s

/-- A handover whose target can no longer be reached before the switch ends: the source keeps everything. -/
def State.handLost (s : State) (c : Nat) (h : Handover) : State := (s.dropHand c).done h.env 0x0901 3 []

/-- HANDOVER_SWITCH (R361): the first Louvre boundary at or after the instant; a target that has not yet made the copy is waited for
(DEDUCED, assumption 136). -/
def execHandoverSwitch (conf : Nat) (s : State) : Host.Outcome State Fault Refusal :=
  .next (match kvGet conf s.lnk.hand with
    | some h =>
      if h.switched.isSome ∨ s.hub.time.total < ceilDiv h.instant 125000 * 125000 ∨ s.hub.get GLB.STATUS.FROZEN = 1 then s
      else if !h.copied ∧ (s.jlRoute h.target).isSome then s
      else if (s.jlRoute h.target).isNone then s.handLost conf h
      else (s.fwd.confOuts conf).foldl (fun a i => a.handOut h.target i) (s.setHand conf { h with switched := some s.hub.elapsed })
    | none => s)

/-- HANDOVER_TAIL_END (R361): 1 s after the switch the source removes the conference as CONF_DESTROY does; the completion
follows its drain. -/
def execHandoverTailEnd (conf : Nat) (s : State) : Host.Outcome State Fault Refusal :=
  .next (match kvGet conf s.lnk.hand, kvGet conf s.fwd.confs with
    | some h, some x =>
      if (h.switched.map fun t => decide (t + 1000000000 ≤ s.hub.elapsed)).getD false ∧ s.hub.get GLB.STATUS.FROZEN = 0 then
        let legs := (s.fwd.confLegs conf).filter fun i => ((kvGet i s.fwd.legs).map (·.state)) ≠ some 3
        let s1 := legs.foldl (fun a i => (a.markLeg i).removal ⟨1, i, none⟩) (s.dropHand conf)
        let s2 := ({ s1 with fwd := { s1.fwd with confs := kvPut conf { x with gone := true } s1.fwd.confs } } : State).removal
          ⟨0, conf, if x.gone then none else some (h.env, 0x0901)⟩
        { s2 with hub := s2.hub.raise { code := 0x130C, detail := [conf, h.target, 0] } }
      else s
    | _, _ => s)

/-! ### The target -/

/-- Are IDs of a copy taken here, or key slots different? The status, if refused. -/
def State.copyRefused (s : State) (tconf : Nat) (slots : List (Nat × Nat × Bool)) (legs : List (List Byte × Nat × Nat))
    (streams subs : List (List Byte)) : Option Nat :=
  if !kvHas tconf s.fwd.confs then some 3
  else if legs.any (fun l => kvHas (bodyN l.1 0 2) s.fwd.legs) ∨ subs.any (fun b => kvHas (bodyN b 0 4) s.fwd.subs) ∨
      streams.any (fun b => if bodyU8 b 2 = 1 then kvHas (bodyN b 0 2) s.fwd.outs else kvHas (bodyN b 0 2) s.fwd.ins) then some 2
  else if slots.any (fun x => let k := s.cip.slot x.1; k.state == 0 || k.mode != x.2.1 || k.dec != x.2.2) then some 4
  else none

/-- The target makes the objects of a copy under the same IDs, and answers (R361). Outbound streams wait for their state. -/
def State.handCopy (s : State) (src conf tconf : Nat) (slots : List (Nat × Nat × Bool)) (legs : List (List Byte × Nat × Nat))
    (streams subs profs : List (List Byte)) : State :=
  match s.copyRefused tconf slots legs streams subs with
  | some st => s.jlSvc src (.copied conf st)
  | none =>
    let outs := streams.filter fun b => bodyU8 b 2 = 1
    let ins := streams.filter fun b => bodyU8 b 2 ≠ 1
    let s1 := legs.foldl (fun (a : State) l =>
      let x : Leg := { legOf l.1 with conf := tconf, state := l.2.1, consentAt := s.hub.elapsed - l.2.2 }
      ({ a with hub := a.hub.freeTick } : State).setEst (bodyN l.1 0 2) x (a.hub.freeIn x.minK x.maxK)) s
    let f1 := ins.foldl (fun (f : FwdSt) b => f.setIn (bodyN b 0 2) (inOf b)) s1.fwd
    let f2 := outs.foldl (fun (f : FwdSt) b => f.setOut (bodyN b 0 2) { (outOf b 0 0 0 0) with held := true }) f1
    let s2 := subs.foldl (fun (a : State) b => a.subAdd (bodyN b 0 4) (subOf a.fwd b) (bodyU8 b 12)) { s1 with fwd := f2 }
    let x : HandIn := { source := src, legs := legs.map fun l => bodyN l.1 0 2, ins := ins.map fun b => bodyN b 0 2
                        outs := outs.map fun b => bodyN b 0 2, subs := subs.map fun b => bodyN b 0 4 }
    ({ s2 with
      aud := { s2.aud with profs := profs.foldl (fun a b => kvPut (bodyN b 0 2) (profOf b) a) s2.aud.profs }
      lnk := { s2.lnk with handIn := kvPut tconf x s2.lnk.handIn } } : State).jlSvc src (.copied conf 0)

/-- The target starts a stream when its state arrives (R361): sequence numbers and timestamps continue. -/
def State.handState (s : State) (src i ssrc seqOff tsOff lastSeq lastTs gen top : Nat) (index : List (Nat × Nat × Nat × Nat × Bool)) : State :=
  match kvGet i s.fwd.outs, s.lnk.handIn.find? fun x => x.2.source = src ∧ x.2.outs.contains i with
  | some o, some (c, x) =>
    let now := s.hub.elapsed
    let o1 : OutStream := { o with ssrc := ssrc, seqOff := seqOff, tsOff := tsOff, lastSeq := lastSeq, lastTs := lastTs, sentSince := true, held := false }
    let new := index.map fun e => ({ out := i, seq := e.1, stream := e.2.1, inSeq := e.2.2.1, ts := e.2.2.2.1, m := e.2.2.2.2, at_ := now } : IdxEntry)
    { s with
      fwd := { (s.fwd.setOut i o1) with index := s.fwd.index ++ new }
      cip := { s.cip with windows := kvPut i { slot := o.slot, gen := gen, top := top, seen := [top] } s.cip.windows }
      lnk := { s.lnk with handIn := kvPut c { x with begun := some (x.begun.getD now) } s.lnk.handIn } }
  | _, _ => s

/-- Before the switch the source is lost: the target removes what it made (R361). -/
def State.handUndo (s : State) (c : Nat) (x : HandIn) : State :=
  let s1 := x.legs.foldl (fun a i => (a.markLeg i).removal ⟨1, i, none⟩) s
  { s1 with lnk := { s1.lnk with handIn := kvDel c s1.lnk.handIn } }

/-- Handovers whose other device can no longer be reached, before the switch. -/
def State.handCheck (s : State) : State :=
  let s1 := (s.lnk.hand.filter fun h => h.2.switched.isNone && (s.jlRoute h.2.target).isNone).foldl (fun a h => a.handLost h.1 h.2) s
  (s1.lnk.handIn.filter fun x => x.2.begun.isNone && (s.jlRoute x.2.source).isNone).foldl (fun a x => a.handUndo x.1 x.2) s1

/-! ### SERVICE messages -/

/-- Talker scores of another device (R256). -/
def State.scoresIn (s : State) (src cluster : Nat) (l : List (Nat × Nat)) : State :=
  (s.fwd.confs.filter fun c => c.2.cluster = cluster ∧ (s.fwd.peers c.1).contains src).foldl (fun a c =>
    match kvGet c.1 a.aud.confs with
    | some x =>
      let mine := x.remote.filter fun r => r.1 / 65536 ≠ src + 1
      a.setConf c.1 { x with remote := mine ++ l.map fun r => (r.1 % 65536 + 65536 * (src + 1), r.2) }
    | none => a) s

/-- A SERVICE message from device `src` (Table 18.4). -/
def State.svcIn (s : State) (src : Nat) (m : SvcMsg) : State :=
  match m with
  | .other => s
  | .scores c l => s.scoresIn src c l
  | .refresh spl id => s.paneNeed spl id
  | .rtcp leg b =>
    match kvGet leg s.fwd.legs with
    | some l => if l.kind = 2 ∧ l.peer = src ∧ l.state = 1 then s.rtcpCompound leg b.length b else s
    | none => s
  | .paneImport spl id rspl rid =>
    let p := s.spl.stream spl id
    { s with spl := s.spl.setStream spl id { p with exports := p.exports.filter (· ≠ (src, rspl, rid)) ++ [(src, rspl, rid)] } }
  | .copy c t slots legs streams subs profs => s.handCopy src c t slots legs streams subs profs
  | .copied c st => s.handCopied c st
  | .outState i ssrc so to_ ls lt gen top idx => s.handState src i ssrc so to_ ls lt gen top idx
  | .nack i seq =>
    match s.fwd.stored.find? fun p => p.stream = i ∧ p.seq = seq with
    | some p => s.jlMedia src i p.pkt
    | none => s

/-- A relayed packet of an inbound stream (Table 18.4): one the target asked its source for is stored and sent; any other
passes the stream's replay window (R361). -/
def State.mediaIn (s : State) (i : Nat) (raw : List Byte) (y : RtpLayer) : State :=
  match kvGet i s.fwd.ins, parseRtp raw with
  | some x, some q =>
    let asked := s.lnk.handIn.flatMap fun h => (h.2.asked.filter fun a => a.2.2.2.1 = i ∧ a.2.2.2.2 = q.seq).map fun a => (h.1, a)
    if asked ≠ [] then
      let s1 := s.cacheStore i q.seq raw
      asked.foldl (fun (a : State) e =>
        let h := a.lnk.handIn.map fun x => if x.1 = e.1 then (x.1, { x.2 with asked := x.2.asked.filter (· ≠ e.2) }) else x
        ({ a with lnk := { a.lnk with handIn := h } } : State).nack e.2.1 e.2.2.1 e.2.2.2.1) s1
    else if x.gone then s
    else match (if x.prot = 0 then some x.replay else x.replay.take q.seq) with
      | none => { s with hub := s.hub.err FWD.REPLAY.COUNT (i % 8) 0x0608 0 }
      | some w => ({ s with fwd := s.fwd.setIn i { x with replay := w } } : State).ingest i q raw y 0 false
  | _, _ => s

end Sys2Proof.Machine
end

