-- ==== Sys2Proof/Machine/Lnk.lean ====
section
/-!
DEFINITION. Lanes (R343–R346), and the receiving side of Jorras links: hellos (R355), replay and credits
(R350–R353), narrowing (R356), HOLD and tunnels (R358, R359), LINK_STATS.
-/

namespace Sys2Proof.Machine

/-! ### Sending what has no sequence number -/

/-- An IDLE flit: ACK and credits returned; with NAK set where asked (R352, R353). -/
def State.idleOut (s : State) (n : Nat) (nak : Bool) (vc cred : Nat) : State := s.plainOut n 0 (if nak then 8 else 0) (64 * vc + cred) []

/-- A hello's payload (Table 18.5). -/
def JlHello.bytes (h : JlHello) : List Byte :=
  [0x4A, 0x48, 0x4C, 0x4F] ++ leBytes 2 h.device ++ leBytes 2 h.hi ++ leBytes 2 h.lo ++ leBytes 1 h.link ++ leBytes 1 h.mask ++ leBytes 4 h.variant ++
    leBytes 8 h.cluster ++ h.credits.flatMap (leBytes 2)

/-- A hello's payload, read. -/
def helloOf (b : List Byte) : JlHello :=
  { magic := b.take 4 == [0x4A, 0x48, 0x4C, 0x4F], device := bodyN b 4 2 % 2048, hi := bodyN b 6 2, lo := bodyN b 8 2, link := bodyU8 b 10, mask := bodyU8 b 11
    variant := bodyN b 12 4, cluster := bodyN b 16 8, credits := [bodyN b 24 2, bodyN b 26 2, bodyN b 28 2, bodyN b 30 2] }

/-- What this device says in a hello on a link. -/
def State.helloOwn (s : State) (n : Nat) : JlHello :=
  let hi := s.hub.get IMG.INTEROP.LEVEL
  let mask := match s.fab.port 2 n with
    | some p => if p.mode = 0x1100 then 0 else s.jlUsable p
    | none => 0
  { magic := true, device := s.hub.get LNK.CFG.DEVICE, hi := hi, lo := hi - 1, link := n, mask := mask
    variant := (s.hub.rd (GLB.VARIANT.LANES.off 0 0)).toNat, cluster := s.hub.get64 LNK.CLUSTER_LO.TAG 0, credits := [128, 128, 1280, 512] }

/-- A hello leaves. -/
def State.helloOut (s : State) (n : Nat) : State :=
  (s.setLink n { (s.lnk.link n) with helloAt := some s.hub.elapsed }).plainOut n 1 0 0 (s.helloOwn n).bytes

/-- A change of DEVICE sends a new hello on every link (Table 18.9). -/
def State.helloAll (s : State) : State :=
  (List.range 16).foldl (fun a n => if [3, 4, 6, 7].contains (a.jlState n) then a.helloOut n else a) s

/-! ### Bring-up -/

/-- Lanes of a port or link begin to adapt from stored coefficients (R343). -/
def State.laneAdapt (s : State) (n : Nat) : State :=
  if s.hub.get1 LNK.LANE_STAT.STATE n = 5 then s
  else { s with hub := (s.hub.set1 LNK.LANE_STAT.STATE n 2).set1 LNK.LANE_STAT.FOM n 0 }

/-- Resend every flit not acknowledged: the stored bytes, with new ACK, CRED and CRC (R352, R354). -/
def State.jlResend (s : State) (n : Nat) : State :=
  let x := s.lnk.link n
  let now := s.hub.elapsed
  let s1 := s.setLink n { x with replay := x.replay.map fun e => { e with at_ := now } }
  x.replay.foldl (fun a e => a.flitOut n e.head e.data) s1

/-- A link is UP again after a retrain: replay resumes from the first flit not acknowledged (R352). -/
def State.jlResume (s : State) (n : Nat) : State :=
  let s1 := s.jlEnter n 4
  let x := s1.lnk.link n
  ((s1.setLink n { x with naked := false, replay := x.replay.map fun e => { e with tries := 0 } }).jlResend n).jlPump n

/-- Both ends retrain the link (R352, R356): lanes adapt; replay buffers and sequence numbers stay. A tunnel has no lane to
train. Lanes out of lock are reported (Table 18.7). -/
def State.jlRetrain (s : State) (n : Nat) : State :=
  match s.fab.port 2 n with
  | some p =>
    if p.mode = 0x1100 then
      let x := s.lnk.link n
      (s.setLink n { x with replay := x.replay.map fun e => { e with tries := 0 } }).jlResend n
    else
      let lost := (s.jlLanes p).filter fun l => s.hub.get1 LNK.LANE_STAT.STATE l ≠ 3
      let s1 := lost.foldl (fun a l => a.transient (chanId 13 l)) (s.jlEnter n 5)
      ((s1.jlLanes p).filter fun l => s1.hub.get1 LNK.LANE_STAT.STATE l = 3).foldl State.laneAdapt s1
  | none => s

/-- Every lane in use of a port or link is locked and awake. -/
def State.allLocked (s : State) (ls : List Nat) : Bool := ls.all fun l => s.hub.get1 LNK.LANE_STAT.STATE l == 3 && !s.laneAsleep l

/-- A port or link after one of its lanes has changed: an Ethernet port with every lane locked is UP; a retraining link whose
lanes in use are locked is UP at the agreed width. -/
def State.portCheck (s : State) (p : PortRec) : State :=
  match p.kind with
  | 1 => if s.allLocked p.laneList then s.ethEnter p.number 3 else s
  | 2 => if s.jlState p.number = 5 ∧ s.allLocked (s.jlLanes p) then s.jlResume p.number else s
  | _ => s

/-- A port or link one of whose lanes trains anew: an UP link retrains; a DOWN one begins training once no direction of its
lanes sleeps (Table 18.6). -/
def State.portTrain (s : State) (p : PortRec) : State :=
  match p.kind with
  | 1 => if p.laneList.any fun l => s.laneAsleep l then s.ethEnter p.number 1 else s.ethEnter p.number 2
  | 2 =>
    if (s.jlLanes p).any fun l => s.laneAsleep l then s.jlEnter p.number 1
    else if s.jlState p.number = 4 ∨ s.jlState p.number = 5 then s.jlEnter p.number 5
    else s.jlEnter p.number 2
  | _ => s

/-- The figure of merit of an SNR in thousandths of a dB (R344). -/
def fomOf (snr : Nat) : Nat := min 255 (8 * snr / 1000)

/-- LANE_LOST (R24, R344): its island is down, the lane retrains once; an Ethernet port leaves UP. -/
def execLaneLost (lane : Nat) (s : State) : Host.Outcome State Fault Refusal :=
  .next (if s.hub.get1 LNK.LANE_STAT.STATE lane ≠ 3 then s
    else
      let t := s.islandLost (.lane lane)
      let h := ((t.hub.set1 LNK.LANE_STAT.STATE lane 4).set1 LNK.LANE_STAT.FOM lane 0).raise { code := 0x1301, channel := chanId 13 lane, detail := [lane] }
      let s1 := ({ t with hub := h } : State).setLane lane { (s.lnk.lane lane) with retry := true }
      match s.fab.portOfLane lane with
      | some p => if p.kind = 1 then s1.ethEnter p.number 2 else s1
      | none => s1)

/-- LANE_ADAPT_DONE (R343, R344): calibration or adaptation ends, with the lane locked or not. A failed retry is
permanent; one that fails in a start's lane step leaves the step to its own attempts (R401); another has lost lock, and the lane
retrains. -/
def execLaneAdaptDone (lane : Nat) (ok : Bool) (snr : Nat) (inverted reversed : Bool) (s : State) : Host.Outcome State Fault Refusal :=
  let st := s.hub.get1 LNK.LANE_STAT.STATE lane
  let port := s.fab.portOfLane lane
  .next (if st ≠ 1 ∧ st ≠ 2 ∧ st ≠ 4 then s
    else if ok then
      let t := s.islandBack (.lane lane)
      let h := ((t.hub.set1 LNK.LANE_STAT.STATE lane 3).set1 LNK.LANE_STAT.FOM lane (fomOf snr)).set1 LNK.LANE_STAT.POL_INV lane (if inverted then 1 else 0)
      let s1 := ({ t with hub := h } : State).setLane lane { stored := true, retry := false }
      match port with
      | some p =>
        let rev := if reversed then 1 else 0
        let h1 := if p.kind = 1 then h.set1 LNK.ETH_STAT.REVERSED p.number rev
          else if p.kind = 2 then h.set1 LNK.JL_STAT.REVERSED p.number rev else h
        ({ s1 with hub := h1 } : State).portCheck p
      | none => s1
    else if (s.lnk.lane lane).retry then (s.permanent (chanId 13 lane) 1).handCheck
    else if s.start.calibrating then s
    else
      let h := (s.hub.set1 LNK.LANE_STAT.STATE lane 4).raise { code := 0x1301, channel := chanId 13 lane, detail := [lane] }
      ({ s with hub := h } : State).setLane lane { (s.lnk.lane lane) with retry := true })

/-- FOM_LOW_TIMER (R344): a locked lane's FOM has been below its threshold for 1 s. 12G-SDI lanes are NRZ; a lane no port names
has the modulation of its lane test. -/
def execFomLowTimer (lane snr : Nat) (s : State) : Host.Outcome State Fault Refusal :=
  let fom := fomOf snr
  let pam4 : Bool := match s.fab.portOfLane lane with
    | some p => p.kind != 3
    | none => s.hub.get1 LNK.LANE_CTL.PAM4 lane == 1
  let least := if pam4 then s.hub.get LNK.CFG.FOM_MIN else 72
  .next (if s.hub.get1 LNK.LANE_STAT.STATE lane ≠ 3 ∨ least ≤ fom then s
    else
      let h := (s.hub.set1 LNK.LANE_STAT.FOM lane fom).raiseRl { code := 0x1302, channel := chanId 13 lane, detail := [lane] }
      ({ s with hub := h } : State).transient (chanId 13 lane))

/-- LANE_RETRAIN (R343): the lane adapts from its stored coefficients. A lane asleep or retired does not. -/
def State.laneRetrain (s : State) (lane : Nat) : State :=
  let st := s.hub.get1 LNK.LANE_STAT.STATE lane
  if st = 0 ∨ st = 5 ∨ s.hub.unitCount 13 ≤ lane then s
  else
    let s1 := (s.laneAdapt lane).setLane lane { (s.lnk.lane lane) with retry := false }
    match s.fab.portOfLane lane with
    | some p => s1.portTrain p
    | none => s1

def execLaneRetrain (lane : Nat) (s : State) : Host.Outcome State Fault Refusal :=
  .next (if s.hub.hostIn then s.laneRetrain lane else s)

/-- LANE_LOOPBACK_WRITE (R345): a loopback takes effect at once, on what the core takes (`portHears`, `jlListens`) and what the balls see;
what the receiver then sees arrives as its own events. -/
def State.laneLoop (s : State) (lane : Nat) (val : Word) : State :=
  if s.hub.unitCount 13 ≤ lane then s
  else
    let v := LNK.LANE_CTL.LOOP.of val
    { s with hub := (s.hub.set1 LNK.LANE_CTL.LOOP lane v).emit (.token (mkRef 13 lane) "loop" [v]) }

def execLaneLoopbackWrite (lane : Nat) (val : Word) (s : State) : Host.Outcome State Fault Refusal :=
  .next (if s.hub.hostIn then s.laneLoop lane val else s)

/-- LANE_SLEEP_WRITE (R346): directions sleep and wake. A 12G-SDI lane keeps the direction it does not use asleep; a lane no
port names stays asleep. -/
def State.laneSleepWrite (s : State) (lane : Nat) (val : Word) : State :=
  if s.hub.unitCount 13 ≤ lane then s
  else
    let tx := LNK.LANE_CTL.TX_SLEEP.of val
    let rx := LNK.LANE_CTL.RX_SLEEP.of val
    let h := (s.hub.set1 LNK.LANE_CTL.TX_SLEEP lane tx).set1 LNK.LANE_CTL.RX_SLEEP lane rx
    let st := h.get1 LNK.LANE_STAT.STATE lane
    match s.fab.portOfLane lane with
    | none => { s with hub := h }
    | some p =>
      if st = 5 then { s with hub := h }
      else
        let txOn := tx = 0 ∧ ¬ (p.kind = 3 ∧ p.mode = 0x2000)
        let rxOn := rx = 0 ∧ ¬ (p.kind = 3 ∧ p.mode = 0x2001)
        let woke := rxOn ∧ st = 0
        let h1 := (h.set1 LNK.LANE_STAT.TX_ACTIVE lane (if txOn then 1 else 0)).set1 LNK.LANE_STAT.RX_ACTIVE lane (if rxOn then 1 else 0)
        let h2 := if rxOn then (if woke then h1.set1 LNK.LANE_STAT.STATE lane 2 else h1)
          else (h1.set1 LNK.LANE_STAT.STATE lane 0).set1 LNK.LANE_STAT.FOM lane 0
        let changed := h2.rd (LNK.LANE_STAT.STATE.off lane 0) ≠ s.hub.rd (LNK.LANE_STAT.STATE.off lane 0)
        if changed then ((({ s with hub := h2 } : State).portTrain p).portCheck p).handCheck else { s with hub := h2 }

def execLaneSleepWrite (lane : Nat) (val : Word) (s : State) : Host.Outcome State Fault Refusal :=
  .next (if s.hub.hostIn then s.laneSleepWrite lane val else s)

/-- LINK_ALIGNED (R355): a training link begins to exchange hellos. -/
def execLinkAligned (link : Nat) (reversed : Bool) (s : State) : Host.Outcome State Fault Refusal :=
  .next (if s.jlState link ≠ 2 then s
    else (({ s with hub := s.hub.set1 LNK.JL_STAT.REVERSED link (if reversed then 1 else 0) } : State).jlEnter link 3).helloOut link)

/-! ### Hellos -/

/-- HELLO_TIMER (R355): every 1 ms until the link is UP, every 1 s after. A DOWN link that nothing keeps DOWN begins training, a
tunnel at once its hellos. -/
def execHelloTimer (link : Nat) (s : State) : Host.Outcome State Fault Refusal :=
  let st := s.jlState link
  let every := if st = 4 then 1000000000 else 1000000
  let frozen := s.hub.get GLB.STATUS.FROZEN = 1
  let due := ((s.lnk.link link).helloAt.map fun t => decide (t + every ≤ s.hub.elapsed)).getD true
  .next (if frozen then s
    else if st = 1 then
      match s.fab.port 2 link with
      | some p =>
        if s.hub.get2 DBT.CH.STATE 14 link = 3 then s
        else if p.mode = 0x1100 then ((s.jlEnter link 2).jlEnter link 3).helloOut link
        else if s.jlLanes p ≠ [] ∧ (s.jlLanes p).all fun l => !s.laneAsleep l then s.jlEnter link 2
        else s
      | none => s
    else if [3, 4, 6, 7].contains st ∧ due then s.helloOut link
    else s)

/-- A HOLD has lasted longer than 200 µs (R359). -/
def State.holdLost (s : State) (n : Nat) : State :=
  let s1 := s.jlEnter n 1
  ({ s1 with hub := s1.hub.raise { code := 0x130B, detail := [n] } } : State).handCheck

/-- A flit other than HOLD has arrived: a HOLD that ends within 200 µs returns the link to UP, one that lasted longer put it DOWN (R359). -/
def State.jlHeard (s : State) (n : Nat) : State :=
  let s1 := s.setLink n { (s.lnk.link n) with heard := s.hub.elapsed }
  if s.jlState n = 8 then (if s.hub.elapsed ≤ (s.lnk.link n).holdAt + 200000 then (s1.jlEnter n 4).jlPump n else s1.holdLost n) else s1

/-- The state a hello puts a link in (R355, Table 18.6). -/
def State.helloState (s : State) (h : JlHello) : Nat :=
  let hi := s.hub.get IMG.INTEROP.LEVEL
  if h.device = s.hub.get LNK.CFG.DEVICE then 7
  else if min hi h.hi < max (hi - 1) h.lo ∨ h.cluster ≠ s.hub.get64 LNK.CLUSTER_LO.TAG 0 then 6
  else 4

/-! ### Acknowledgement, credits, replay -/

/-- Everything up to `ack` has been received in order (R352, R96). The newest of it that was sent once moves a tunnel's smoothed round
trip, whose weights are not stated: to a free value between what it was and the sample (R358). -/
def State.jlAck (s : State) (n ack : Nat) : State :=
  let x := s.lnk.link n
  let left := x.replay.filter fun e => laterThan 16 (ack % 65536) (e.seq % 65536)
  match (x.replay.filter fun e => !laterThan 16 (ack % 65536) (e.seq % 65536) && e.tries == 0).getLast? with
  | some e =>
    let d := s.hub.elapsed - e.at_
    let r := if x.srtt = 0 then (d, s.hub) else s.hub.between (min d x.srtt) (max d x.srtt)
    ({ s with hub := r.2 } : State).setLink n { x with replay := left, srtt := r.1 }
  | none => s.setLink n { x with replay := left }

/-- Credits of a VC returned by the peer, never more than it offers (R353). -/
def State.jlCredit (s : State) (n vc k : Nat) : State :=
  let x := s.lnk.link n
  s.setLink n { x with credits := x.credits.modify vc fun c => min (c + k) ([128, 128, 1280, 512].getD vc 0) }

/-- The sender replays from the next flit (R352): counted, reported; the third failed replay of one flit retrains the link. -/
def State.jlReplay (s : State) (n : Nat) : State :=
  let x := s.lnk.link n
  match x.replay with
  | [] => s
  | e :: _ =>
    if 3 ≤ e.tries then s.jlRetrain n
    else
      let tried := x.replay.map fun (r : JlSent) => if r.seq = e.seq then { r with tries := r.tries + 1 } else r
      let h := (s.hub.err LNK.JL_REPLAY.COUNT n 0x130D 0).raiseRl { code := 0x1309, channel := chanId 14 n, detail := [n] }
      ((({ s with hub := h } : State).setLink n { x with replay := tried }).jlResend n).transient (chanId 14 n)

/-! ### Receiving -/

/-- A flit is discarded and NAKed (R352): once, until the expected flit arrives or fails again. -/
def State.jlNak (s : State) (n : Nat) (again : Bool) : State :=
  let x := s.lnk.link n
  if x.naked ∧ !again then s else (s.setLink n { x with naked := true }).idleOut n true 0 0

/-- The lane whose FIFO a link's flits fill while the core is frozen (R23). -/
def State.jlIsland (s : State) (n : Nat) : Island :=
  match s.fab.port 2 n with
  | some p => .lane (if p.mode = 0x1100 then (s.fab.lanesOf 1 p.first).headD 0 else p.first)
  | none => .lane 0

/-- A flit at a link's receiver: it reaches `act` where the link takes it, its codewords and CRC are good and it is of a type the command
names. A bad one is NAKed on an UP link (R352), whatever it was. -/
def State.flitIn (s : State) (n : Nat) (b : List Byte) (lost : Bool) (types : Nat → Bool) (act : State → FlitHead → State) : State :=
  if !s.jlListens n (headOf b).kind then (if s.hub.get GLB.STATUS.FROZEN = 1 then s.offer (s.jlIsland n) 256 else s)
  else if lost || !flitGood b then (if s.jlState n = 4 then s.jlNak n true else s)
  else if types (headOf b).kind then act s (headOf b)
  else s

/-- What the header of any good flit says to the sender's side of the link: ACK, CRED and NAK (Table 18.3). -/
def State.jlHead (s : State) (n : Nat) (h : FlitHead) : State :=
  let s1 := (s.jlAck n h.ack).jlCredit n (h.cred / 64) (h.cred % 64)
  (if h.nak then s1.jlReplay n else s1).jlPump n

/-- An IDLE flit, in UP and MISMATCH. -/
def State.idleIn (s : State) (n : Nat) (h : FlitHead) : State :=
  let s1 := s.jlHeard n
  if [4, 6].contains (s1.jlState n) then s1.jlHead n h else s1

/-- IDLE_FLIT (R351–R353): ACK and CRED. -/
def execIdleFlit (link : Nat) (bytes : List Byte) (s : State) : Host.Outcome State Fault Refusal :=
  .next (s.flitIn link bytes false (· == 0) fun a h => a.idleIn link h)

/-- NAK_RECEIVE (R352): a flit with NAK, its ACK the last good SEQ. -/
def execNakReceive (link : Nat) (bytes : List Byte) (s : State) : Host.Outcome State Fault Refusal :=
  .next (s.flitIn link bytes false (fun k => k == 0 && (headOf bytes).nak) fun a h => a.idleIn link h)

/-- A hello: checks pass, or the link is MISMATCH or DUP_ID. The first that passes states the credits. -/
def State.helloIn (s : State) (n : Nat) (head : FlitHead) (h : JlHello) : State :=
  let s1 := s.jlHeard n
  if !([3, 4, 6, 7].contains (s1.jlState n)) then s1
  else if s1.helloState h = 4 then
    let hub := (s1.hub.set1 LNK.JL_STAT.PEER n h.device).set1 LNK.JL_LEVEL.LEVEL n (min (s1.hub.get IMG.INTEROP.LEVEL) h.hi)
    let s2 : State := { s1 with hub := hub }
    let x := s2.lnk.link n
    if x.open_ then (s2.jlEnter n 4).jlHead n head
    else ((s2.setLink n { x with credits := h.credits, open_ := true }).jlEnter n 4).jlPump n
  else s1.jlEnter n (s1.helloState h)

/-- HELLO_FLIT (R355): a payload without the MAGIC is discarded. -/
def execHelloFlit (link : Nat) (bytes : List Byte) (s : State) : Host.Outcome State Fault Refusal :=
  let h := helloOf (bytes.drop 12)
  .next (s.flitIn link bytes false (fun k => k == 1 && h.magic) fun a head => a.helloIn link head h)

/-! ### HOLD, LINK, tunnels -/

/-- HOLD_FLIT (R359). -/
def execHoldFlit (link : Nat) (bytes : List Byte) (s : State) : Host.Outcome State Fault Refusal :=
  .next (s.flitIn link bytes false (· == 8) fun a _ =>
    if a.jlState link = 4 then
      let s1 := a.jlEnter link 8
      s1.setLink link { (s1.lnk.link link) with heard := a.hub.elapsed }
    else a)

/-- HOLD_TIMEOUT (R359): HOLD has lasted longer than 200 µs. -/
def execHoldTimeout (link : Nat) (s : State) : Host.Outcome State Fault Refusal :=
  .next (if s.jlState link = 8 ∧ (s.lnk.link link).holdAt + 200000 < s.hub.elapsed ∧ s.hub.get GLB.STATUS.FROZEN = 0 then s.holdLost link
    else s)

/-- The mask of a LINK flit: both ends take the widest aligned group of the intersection of their masks (R356). -/
def State.linkMask (s : State) (p : PortRec) (mask : Nat) : State :=
  let link := p.number
  match widestGroup p.lanes (mask &&& s.jlUsable p) with
  | some (w, m) =>
    if m = s.hub.get1 LNK.JL_STAT.MASK link then s
    else
      let s0 := s.plainOut link 9 0 0 (leBytes 1 (s.jlUsable p))
      let h := ((s0.hub.set1 LNK.JL_STAT.WIDTH link w).set1 LNK.JL_STAT.MASK link m).raise { code := 0x1307, detail := [link, m] }
      let s1 : State := { s0 with hub := h, lnk := { s0.lnk with narrow := kvPut link m s0.lnk.narrow } }
      (s1.jlLanes p).foldl State.laneAdapt (s1.jlEnter link 5)
  | none =>
    let h := (s.hub.set1 LNK.JL_STAT.WIDTH link 0).set1 LNK.JL_STAT.MASK link 0
    (({ s with hub := h, lnk := { s.lnk with narrow := kvPut link 0 s.lnk.narrow } } : State).jlEnter link 1).handCheck

/-- LINK_FLIT (R356): its first payload byte is the mask (DESIGN CHOICE, assumption 133). -/
def execLinkFlit (link : Nat) (bytes : List Byte) (s : State) : Host.Outcome State Fault Refusal :=
  .next (s.flitIn link bytes false (· == 9) fun a h =>
    let b := if a.jlState link = 4 then (a.jlHeard link).jlHead link h else a.jlHeard link
    match b.fab.port 2 link with
    | some p => if p.mode = 0x1100 ∨ (b.jlState link ≠ 4 ∧ b.jlState link ≠ 5) then b else b.linkMask p (bodyU8 bytes 12)
    | none => b)

/-- TUNNEL_REPLAY_TIMER (R358): a flit of a tunnel has stayed unacknowledged for max(1 ms, 3 × the smoothed round trip). -/
def execTunnelReplayTimer (link : Nat) (s : State) : Host.Outcome State Fault Refusal :=
  let x := s.lnk.link link
  let late := x.replay.any fun e => decide (e.at_ + max 1000000 (3 * x.srtt) ≤ s.hub.elapsed)
  .next (if s.hub.get GLB.STATUS.FROZEN = 0 ∧ s.hub.get1 LNK.JL_STAT.TUNNEL link = 1 ∧ s.jlState link = 4 ∧ late then s.jlReplay link else s)

/-- TUNNEL_SILENCE_TIMEOUT (Table 18.6): a tunnel silent for 3 s goes DOWN. -/
def execTunnelSilenceTimeout (link : Nat) (s : State) : Host.Outcome State Fault Refusal :=
  .next (if s.hub.get GLB.STATUS.FROZEN = 0 ∧ s.hub.get1 LNK.JL_STAT.TUNNEL link = 1 ∧ 2 ≤ s.jlState link ∧ (s.lnk.link link).heard + 3000000000 ≤ s.hub.elapsed then
      (s.jlEnter link 1).handCheck
    else s)

/-- LINK_STATS (Table 18.8): state, level, width, peer, flits, replays and drops, as of the last publication. -/
def execLinkStats (e : CmdEnv) (body : List Byte) (s : State) : Host.Outcome State Fault Refusal :=
  let n := bodyU8 body 0
  let w := s.hub.rdPub (LNK.JL_STAT.STATE.off n 0)
  let at_ := fun (f : Fld) => (s.hub.rdPub (f.off n 0)).toNat
  .next (if s.hub.unitCount 14 ≤ n then s.done e 0x0902 3 []
    else s.done e 0x0902 0 (leBytes 1 (LNK.JL_STAT.STATE.of w) ++ leBytes 2 (at_ LNK.JL_LEVEL.LEVEL) ++ leBytes 1 (LNK.JL_STAT.WIDTH.of w) ++
      leBytes 2 (LNK.JL_STAT.PEER.of w) ++ leBytes 4 (at_ LNK.JL_FLITS_LO.COUNT) ++ leBytes 4 (at_ LNK.JL_FLITS_HI.COUNT) ++
      leBytes 4 (at_ LNK.JL_REPLAY.COUNT) ++ leBytes 4 (at_ LNK.JL_DROP.COUNT)))

end Sys2Proof.Machine
end

