-- ==== Sys2Proof/Machine/HngIsa.lean ====
section
/-!
DEFINITION. The Hinge instruction set as functions of a core's registers (R275–R282): the compute slot, addresses and
post-modification, extended registers, loops.
-/

namespace Sys2Proof.Machine

/-! ### Registers -/

def HngRegs.dr (r : HngRegs) (n : Nat) : Word := (r.d[n]?).getD 0
def HngRegs.ar (r : HngRegs) (n : Nat) : HngAcc := (r.a[n]?).getD {}
def HngRegs.pr (r : HngRegs) (n : Nat) : Nat := ((r.p[n]?).getD 0).toNat
def HngRegs.mr (r : HngRegs) (n : Nat) : Int := ((r.m[n]?).getD 0).toInt
def HngRegs.lr (r : HngRegs) (n : Nat) : Nat := ((r.l[n]?).getD 0).toNat
def HngRegs.lcr (r : HngRegs) (n : Nat) : HngLoop := (r.lc[n]?).getD {}
def HngRegs.setD (r : HngRegs) (n : Nat) (v : Word) : HngRegs := { r with d := r.d.setIfInBounds n v }
def HngRegs.setA (r : HngRegs) (n : Nat) (v : HngAcc) : HngRegs := { r with a := r.a.setIfInBounds n v }
def HngRegs.setP (r : HngRegs) (n v : Nat) : HngRegs := { r with p := r.p.setIfInBounds n (BitVec.ofNat 20 v) }
def HngRegs.setLc (r : HngRegs) (n : Nat) (v : HngLoop) : HngRegs := { r with lc := r.lc.setIfInBounds n v }

/-- Bits [lo + w − 1 : lo] of a slot. -/
def fieldOf (x lo w : Nat) : Nat := x / 2 ^ lo % 2 ^ w

/-- The low `w` bits as a signed number. -/
def signedOf (w x : Nat) : Int := (BitVec.ofNat w x).toInt

/-- The real and imaginary halves of a complex 16+16 value, and such a value from halves. -/
def re16 (v : Word) : Int := signedOf 16 (v.toNat / 65536)
def im16 (v : Word) : Int := signedOf 16 v.toNat
def pack16 (re im : Int) : Word := BitVec.ofInt 32 (re % 65536 * 65536 + im % 65536)

/-! ### Saturation and wrapping (R278) -/

/-- A result in `w` bits under the S bit, with the sticky bits it sets: SAT is 1, OVF is 2. -/
def narrow (w : Nat) (sat : Bool) (v : Int) : Int × BitVec 3 :=
  if v < -(2 ^ (w - 1) : Int) then (if sat then (-(2 ^ (w - 1) : Int), 1) else ((BitVec.ofInt w v).toInt, 2))
  else if (2 ^ (w - 1) : Int) ≤ v then (if sat then ((2 ^ (w - 1) : Int) - 1, 1) else ((BitVec.ofInt w v).toInt, 2))
  else (v, 0)

/-- (v + 2^(k−1)) >> k; k = 0 leaves v. -/
def roundShift (v : Int) (k : Nat) : Int := if k = 0 then v else (v + 2 ^ (k - 1)) / 2 ^ k

/-! ### Compute slot (R277) -/

/-- What a compute slot does: D registers and an accumulator it writes, its sticky bits, its latency, and the D registers and
accumulators whose results it needs. -/
structure HngComp where
  ds : List (Nat × Word) := []
  acc : Option (Nat × HngAcc) := none
  flags : BitVec 3 := 0
  lat : Nat := 1
  reads : List Nat := []
  deriving DecidableEq, Repr

/-- One 32-bit result. -/
def comp32 (dd : Nat) (sat : Bool) (v : Int) (lat : Nat) (reads : List Nat) : HngComp :=
  let n := narrow 32 sat v
  { ds := [(dd, BitVec.ofInt 32 n.1)], flags := n.2, lat := lat, reads := reads }

/-- Two 16-bit halves. -/
def comp16 (dd : Nat) (sat : Bool) (re im : Int) (lat : Nat) (reads : List Nat) : HngComp :=
  let a := narrow 16 sat re
  let b := narrow 16 sat im
  { ds := [(dd, pack16 a.1 b.1)], flags := a.2 ||| b.2, lat := lat, reads := reads }

/-- An accumulator's two halves; its result is ready for AEXT after 2. -/
def compAcc (dd : Nat) (sat : Bool) (re im : Int) (reads : List Nat) : HngComp :=
  let a := narrow 56 sat re
  let b := narrow 56 sat im
  { acc := some (dd % 8, ⟨BitVec.ofInt 56 a.1, BitVec.ofInt 56 b.1⟩), flags := a.2 ||| b.2, lat := 2, reads := reads }

/-- The operation of a compute slot `w` (Table 14.4); none where its opcode is illegal. -/
def hngCompute (r : HngRegs) (w : Nat) : Option HngComp :=
  let op := fieldOf w 26 6
  let sat := fieldOf w 25 1 == 1
  let dd := fieldOf w 20 5
  let da := fieldOf w 15 5
  let db := fieldOf w 10 5
  let imm := fieldOf w 0 10
  let x := r.dr da
  let y := r.dr db
  let a := r.ar (dd % 8)
  let two := [da, db]
  let xr := re16 x
  let xi := im16 x
  let yr := re16 y
  let yi := im16 y
  let x0 := (r.dr (da / 2 * 2)).toInt
  let x1 := (r.dr (da / 2 * 2 + 1)).toInt
  let y0 := (r.dr (db / 2 * 2)).toInt
  let y1 := (r.dr (db / 2 * 2 + 1)).toInt
  let pairs := [da / 2 * 2, da / 2 * 2 + 1, db / 2 * 2, db / 2 * 2 + 1]
  let plain := fun (v : Word) (reads : List Nat) => ({ ds := [(dd, v)], reads := reads } : HngComp)
  match op with
  | 0x00 => some {}
  | 0x01 => some (comp32 dd sat (x.toInt + y.toInt) 1 two)
  | 0x02 => some (comp32 dd sat (x.toInt - y.toInt) 1 two)
  | 0x03 => some (comp16 dd sat (xr + yr) (xi + yi) 1 two)
  | 0x04 => some (comp16 dd sat (xr - yr) (xi - yi) 1 two)
  | 0x05 => some (plain (x &&& y) two)
  | 0x06 => some (plain (x ||| y) two)
  | 0x07 => some (plain (x ^^^ y) two)
  | 0x08 => some (comp32 dd sat (x.toInt * 2 ^ (imm % 32)) 1 [da])
  | 0x09 => some (plain (x.sshiftRight (imm % 32)) [da])
  | 0x0A => some (plain (x >>> (imm % 32)) [da])
  | 0x0B => some (plain (BitVec.ofInt 32 (signedOf 20 w)) [])
  | 0x0C => some (plain (BitVec.ofNat 32 (fieldOf w 0 16 * 65536 + (r.dr dd).toNat % 65536)) [dd])
  | 0x0D => some (plain x [da])
  | 0x0E => some (comp16 dd sat xr (-xi) 1 [da])
  | 0x0F => some (plain (if x.toInt ≤ y.toInt then x else y) two)
  | 0x10 => some (plain (if x.toInt ≤ y.toInt then y else x) two)
  | 0x11 => some (comp32 dd sat x.toInt.natAbs 1 [da])
  | 0x12 => some (comp32 dd sat ((x.toInt * y.toInt + 2 ^ 30) / 2 ^ 31) 2 two)
  | 0x13 => some (comp16 dd sat ((xr * yr - xi * yi + 2 ^ 14) / 2 ^ 15) ((xr * yi + xi * yr + 2 ^ 14) / 2 ^ 15) 2 two)
  | 0x14 => some (compAcc dd sat (xr * yr - xi * yi) (xr * yi + xi * yr) two)
  | 0x15 => some (compAcc dd sat (a.re.toInt + (xr * yr - xi * yi)) (a.im.toInt + (xr * yi + xi * yr)) two)
  | 0x16 => some (compAcc dd sat (a.re.toInt + (xr * yr + xi * yi)) (a.im.toInt + (xi * yr - xr * yi)) two)
  | 0x17 => some (compAcc dd sat (a.re.toInt - (xr * yr - xi * yi)) (a.im.toInt - (xr * yi + xi * yr)) two)
  | 0x18 => some (compAcc dd sat (x0 * y0 / 2 ^ 32) (x1 * y1 / 2 ^ 32) pairs)
  | 0x19 => some (compAcc dd sat (a.re.toInt + x0 * y0 / 2 ^ 32) (a.im.toInt + x1 * y1 / 2 ^ 32) pairs)
  | 0x1A => some (compAcc dd sat (a.re.toInt - x0 * y0 / 2 ^ 32) (a.im.toInt - x1 * y1 / 2 ^ 32) pairs)
  | 0x1B =>
    let b := r.ar (db % 8)
    some (compAcc dd sat (a.re.toInt + b.re.toInt) (a.im.toInt + b.im.toInt) [])
  | 0x1C =>
    let b := r.ar (da % 8)
    let k := 15 + imm % 32
    some (comp16 dd sat (roundShift b.re.toInt k) (roundShift b.im.toInt k) 2 [32 + da % 8])
  | 0x1D =>
    let b := r.ar (da % 8)
    let k := min (imm % 64) 55
    let u := narrow 32 sat (roundShift b.re.toInt k)
    let v := narrow 32 sat (roundShift b.im.toInt k)
    some { ds := [(dd / 2 * 2, BitVec.ofInt 32 u.1), (dd / 2 * 2 + 1, BitVec.ofInt 32 v.1)], flags := u.2 ||| v.2, lat := 2, reads := [32 + da % 8] }
  | 0x1E =>
    let h := imm % 2
    let f := fun (v : Int) => (v + (h : Int)) / 2 ^ h
    let u := comp16 (dd / 2 * 2) sat (f (xr + yr)) (f (xi + yi)) 1 two
    let v := comp16 (dd / 2 * 2 + 1) sat (f (xr - yr)) (f (xi - yi)) 1 two
    some { ds := u.ds ++ v.ds, flags := u.flags ||| v.flags, lat := 1, reads := two }
  | _ => none

/-! ### Addresses (R280) -/

/-- The least c with 2^c not below `l`. -/
def logUp (l : Nat) : Nat := ((List.range 21).find? fun c => l ≤ 2 ^ c).getD 20

/-- The low `c` bits of a number, reversed. -/
def bitRev (v : Nat) : Nat → Nat
  | 0 => 0
  | c + 1 => v % 2 * 2 ^ c + bitRev (v / 2) c

/-- The address of a format M access: MODE 0 adds OFF words, the others take P; aligned to the size. -/
def memAddr (r : HngRegs) (w size : Nat) : Nat :=
  let p := r.pr (fieldOf w 19 3)
  let a := if fieldOf w 14 2 = 0 then (((p : Int) + 4 * signedOf 14 w) % 2 ^ 20).toNat else p
  a / size * size

/-- P after a format M access. -/
def postMod (r : HngRegs) (w : Nat) : Nat :=
  let p := r.pr (fieldOf w 19 3)
  let m := r.mr (fieldOf w 16 3)
  let l := r.lr (fieldOf w 16 3)
  let linear := (((p : Int) + m) % 2 ^ 20).toNat
  match fieldOf w 14 2 with
  | 0 => p
  | 1 => linear
  | mode =>
    if l = 0 then linear
    else
      let size := 2 ^ logUp l
      if mode = 2 then p / size * size + (((p % size : Nat) + m) % (l : Int)).toNat
      else
        let c := logUp l
        p / size * size + bitRev ((bitRev (p % size) c + bitRev ((m % (size : Int)).toNat) c) % size) c

/-! ### Extended registers (Table 14.2) -/

/-- Read extended register `n`; `period` is the Louvre period number. -/
def HngRegs.readX (r : HngRegs) (n period : Nat) : Word :=
  if n < 8 then BitVec.ofNat 32 (r.pr n)
  else if n < 16 then BitVec.ofInt 32 (r.mr (n - 8))
  else if n < 24 then BitVec.ofNat 32 (r.lr (n - 16))
  else if n < 26 then BitVec.ofNat 32 (r.lcr (n - 24)).count.toNat
  else if n = 26 then BitVec.ofNat 32 r.status.toNat
  else if n = 27 then BitVec.ofNat 32 period
  else if n = 28 then BitVec.ofNat 32 r.stack.length
  else 0

/-- Write extended register `n` from the low bits of a value. -/
def HngRegs.writeX (r : HngRegs) (n v : Nat) : HngRegs :=
  if n < 8 then r.setP n v
  else if n < 16 then { r with m := r.m.setIfInBounds (n - 8) (BitVec.ofNat 20 v) }
  else if n < 24 then { r with l := r.l.setIfInBounds (n - 16) (BitVec.ofNat 20 v) }
  else if n < 26 then r.setLc (n - 24) { (r.lcr (n - 24)) with count := BitVec.ofNat 16 v }
  else if n = 26 then { r with status := BitVec.ofNat 3 v }
  else r

/-- SETX's immediate: sign-extended for M0–M7, zero-extended otherwise. -/
def setxValue (n imm : Nat) : Nat := if 8 ≤ n ∧ n < 16 then (BitVec.ofInt 32 (signedOf 21 imm)).toNat else imm

/-! ### Loops (R281) -/

/-- After bundle `pc` completes without a branch: loop 1, then loop 0, ends or restarts there. -/
def HngRegs.loopEnd (r : HngRegs) (pc : Nat) : List Nat → HngRegs × Nat
  | [] => (r, (pc + 1) % 16384)
  | n :: t =>
    let l := r.lcr n
    match l.body with
    | some (start, end_) =>
      if end_ ≠ pc then r.loopEnd pc t
      else if 1 < l.count.toNat then (r.setLc n { l with count := l.count - 1 }, start)
      else if l.count = 1 then (r.setLc n { count := 0, body := none }).loopEnd pc t
      else r.loopEnd pc t
    | none => r.loopEnd pc t

/-- LOOP and LOOPI at `pc`: the registers, and the bundle it skips to where the count is 0. -/
def HngRegs.arm (r : HngRegs) (pc n count end_ : Nat) : HngRegs × Option Nat :=
  if end_ ≤ pc then (r, none)
  else if count % 65536 = 0 then (r.setLc n {}, some ((end_ + 1) % 16384))
  else (r.setLc n { count := BitVec.ofNat 16 count, body := some ((pc + 1) % 16384, end_) }, none)

end Sys2Proof.Machine
end

