-- ==== Sys2Proof/Machine/HngCoreOps.lean ====
section
/-!
DEFINITION. Hinge cores: their states (Table 14.9), memories, mailboxes (R283–R285), DMA (R286), faults (R289), and bundles
(R276–R282).
-/

namespace Sys2Proof.Machine

/-! ### Cores -/

def HngSt.core (h : HngSt) (n : Nat) : HngCore := (kvGet n h.cores).getD {}
def State.setCore (s : State) (n : Nat) (c : HngCore) : State := { s with hng := { s.hng with cores := kvPut n c s.hng.cores } }
def State.hngState (s : State) (n : Nat) : Nat := s.hub.get1 HNG.CORE_STAT.STATE n

/-- The hardware that serves a core. -/
def State.hngHw (s : State) (n : Nat) : Nat := s.hub.hwIndex 0 (mkRef 5 n)

/-- Enter a state of Table 14.9; PC and STATUS follow the core. Leaving RUNNING ends the grain in progress and gives up the grant
(R287). -/
def State.hngEnter (s : State) (n st : Nat) : State :=
  let c := s.hng.core n
  let t := if st ≠ 1 ∧ c.grain ≠ 0 then s.setCore n { c with grain := 0 } else s
  { t with
    fab := if st = 1 then s.fab else s.fab.giveUp (s.hngHw n)
    hub := ((s.hub.set1 HNG.CORE_STAT.STATE n st).set1 HNG.CORE_STAT.PC n c.pc).set1 HNG.CORE_FLAGS.STATUS n c.regs.status.toNat }

/-- Receptions of a core that is halted or faulted are abandoned (R288). -/
def State.hngStop (s : State) (n st : Nat) : State := (s.hngEnter n st).dwellCheck

/-- A fault halts the core before the bundle acts (R289). -/
def State.hngFault (s : State) (n cause : Nat) : State :=
  let h := s.hub.set1 HNG.CORE_STAT.CAUSE n cause
  let ev : Ev := { code := 0x0F01, channel := chanId 5 n, detail := [n, cause, (s.hng.core n).pc] }
  ({ s with hub := (h.err HNG.FAULTS.COUNT n 0x0F04 0).raise ev } : State).hngStop n 4

/-- A block is lost: MB_DROP and its event. -/
def State.mbDrop (s : State) (n : Nat) : State :=
  { s with hub := (s.hub.err HNG.MB_DROP.COUNT n 0x0F04 0).raiseRl { code := 0x0F02, detail := [n] } }

/-- A core starts (R290): bundle 0, every register 0, where a sash that uses it is RUNNING; else once one is. -/
def State.hngStart (s : State) (n : Nat) : State :=
  let c := s.hng.core n
  let run := (s.fab.users 5 n).any fun k => s.hub.sashState k == 3
  ((s.setCore n { c with regs := {}, pc := 0, wait := none, busy := [], ready := !run }).hngEnter n (if run then 1 else 0))

/-- A sash runs: cores it uses that wait for one start. -/
def State.hngSashRuns (s : State) (sash : Nat) : State :=
  ((List.range (s.hub.unitCount 5)).filter fun n => (s.hng.core n).ready && (s.fab.users 5 n).contains sash).foldl State.hngStart s

/-! ### Data memory -/

/-- The end of data memory and of program memory. -/
def hngDataEnd : Nat := 0x60000
def hngProgEnd : Nat := 0x20000

/-- Store bytes in data memory; words stored whole are no longer poison. -/
def HngCore.store (c : HngCore) (a : Nat) (b : List Byte) : HngCore :=
  let whole := (List.range (b.length / 4)).map fun i => a / 4 * 4 + 4 * i
  { c with data := memWriteList c.data a b, bad := if b.length < 4 then c.bad else c.bad.filter fun w => !whole.contains w }

/-- Does an access touch a word stored as poison? -/
def HngCore.poisoned (c : HngCore) (a n : Nat) : Bool := c.bad.any fun w => decide (w < a + n ∧ a < w + 4)

/-- A little-endian number in data memory. -/
def HngCore.loadN (c : HngCore) (a n : Nat) : Nat := leNat (memReadList c.data a n)

/-! ### Mailboxes (R283) -/

/-- A mailbox as set: its first byte, its slot size and the slots it can use. -/
structure MbRing where
  base : Nat
  size : Nat
  slots : Nat
  deriving DecidableEq, Repr

def State.mb (s : State) (n : Nat) (one : Bool) : MbRing :=
  let g := fun (f0 f1 : Fld) => s.hub.get1 (if one then f1 else f0) n
  let slots := min (max (g HNG.MB0_CFG.SLOTS HNG.MB1_CFG.SLOTS) 1) 64
  let size := 64 * min (max (g HNG.MB0_CFG.SLOT64 HNG.MB1_CFG.SLOT64) 1) 64
  let base := 64 * g HNG.MB0_CFG.BASE HNG.MB1_CFG.BASE
  { base := base, size := size, slots := min slots ((hngDataEnd - base) / size) }

/-- The address of a slot, and its OWN flag. -/
def MbRing.slot (r : MbRing) (i : Nat) : Nat := r.base + i * r.size
def HngCore.owned (c : HngCore) (a : Nat) : Bool := c.loadN (a + 5) 1 / 2 % 2 == 1
def HngCore.setOwn (c : HngCore) (a : Nat) (v : Bool) : HngCore :=
  let f := c.loadN (a + 5) 1
  { c with data := memWrite c.data (a + 5) (BitVec.ofNat 8 (f - f / 2 % 2 * 2 + (if v then 2 else 0))) }

/-- The slot after `i`. -/
def MbRing.next (r : MbRing) (i : Nat) : Nat := if i + 1 < r.slots then i + 1 else 0

/-- A ring whose register changed is emptied, its blocks lost without count (R283). -/
def State.mbReset (s : State) (n : Nat) (one : Bool) : State :=
  let r := s.mb n one
  let c := (List.range r.slots).foldl (fun (c : HngCore) i => c.setOwn (r.slot i) false) (s.hng.core n)
  s.setCore n (if one then { c with slot1 := 0, posted := [] } else { c with slot0 := 0, fill := 0 })

/-- What a core waits for has come: it runs on (Table 14.9). -/
def State.hngWake (s : State) (n : Nat) (w : HngWait → Bool) : State :=
  let c := s.hng.core n
  match c.wait with
  | some x => if w x ∧ s.hngState n = 2 then (s.setCore n { c with wait := none }).hngEnter n 1 else s
  | none => s

/-- The bytes of a mailbox 0 block (Table 14.7), cut to the slot, with OWN. -/
def mbBytes (b : HngBlk) (lost size : Nat) : List Byte :=
  let w := b.words.take ((size - 16) / 4)
  leBytes 4 (b.period % 2 ^ 32) ++ leBytes 1 b.kind ++ leBytes 1 (2 + (if b.poison then 1 else 0)) ++ leBytes 2 (b.id % 65536) ++
    leBytes 2 (min lost 65535) ++ leBytes 2 w.length ++ leBytes 4 0 ++ w.flatMap fun v => leBytes 4 v.toNat

/-- MAILBOX_DELIVERY (R284, R288): the first block due for the core is written into mailbox 0, or dropped while the next slot is
owned, without slots, and while the core is halted or faulted. -/
def execMailboxDelivery (core : Nat) (s : State) : Host.Outcome State Fault Refusal :=
  .next (match s.hng.inbox.find? fun b => b.core = core ∧ b.due ≤ s.fab.period with
    | some b =>
      let s1 : State := { s with hng := { s.hng with inbox := s.hng.inbox.erase b } }
      let c := s1.hng.core core
      let r := s1.mb core false
      let a := r.slot c.fill
      let st := s1.hngState core
      if st = 0 ∨ st = 4 then s1.mbDrop core
      else if r.slots = 0 ∨ c.owned a then (s1.setCore core { c with lost := c.lost + 1 }).mbDrop core
      else
        let c1 := c.store a (mbBytes b c.lost r.size)
        (s1.setCore core { c1 with fill := r.next c.fill, lost := 0 }).hngWake core fun w => match w with
          | .mailbox false _ => true
          | _ => false
    | none => s)

/-- MAILBOX_DRAIN (R285): the core's oldest posted block becomes a source block or leaves on its path, or is discarded. PERIOD
is taken as the period nearest the running one. -/
def State.mbDrain (s : State) (n : Nat) (slot at_ : Nat) : State :=
  let c := s.hng.core n
  let a := (s.mb n true).slot slot
  let now := s.fab.period
  let per := ((now : Int) + wrapDiff 32 (now % 2 ^ 32) (c.loadN a 4)).toNat
  let id := c.loadN (a + 6) 2
  let count := min (c.loadN (a + 10) 2) (((s.mb n true).size - 16) / 4)
  let word := fun (i : Nat) => BitVec.ofNat 32 (c.loadN (a + 16 + 4 * i) 4)
  let bad := c.poisoned (a + 16) (4 * count)
  match c.loadN (a + 4) 1 with
  | 0 =>
    let x := s.aud.src id
    if x.kind = 3 ∧ x.ref = n ∧ at_ ≤ per then
      let vals : List (Option Int) := (List.range (min count 6)).map fun i =>
        if c.poisoned (a + 16 + 4 * i) 4 then none else some (signedOf 24 (word i).toNat)
      { s with aud := s.aud.setSrc id (x.put (6 * per) false vals) }
    else s.mbDrop n
  | 2 =>
    match s.fab.built.find? fun (p : BuiltPath) => p.id = id % 16384 ∧ refUnit p.src = mkRef 5 n ∧ !p.waiting with
    | some p =>
      let ws := (List.range count).map fun i => if c.poisoned (a + 16 + 4 * i) 4 then 0 else word i
      if refType p.dst = 5 then
        let k : HngBlk := { core := refInst p.dst, kind := 2, id := p.id, period := per, due := now, words := ws, poison := bad }
        { s with hng := { s.hng with inbox := s.hng.inbox ++ [k] } }
      else { s with hub := s.hub.emit (.token p.dst "block" (p.id :: ws.map BitVec.toNat) { poison := bad, epoch := p.epoch }) }
    | none => s.mbDrop n
  | _ => s.mbDrop n

/-- MAILBOX_DRAIN: in the order posted; the slot is free again. -/
def execMailboxDrain (core : Nat) (s : State) : Host.Outcome State Fault Refusal :=
  let c := s.hng.core core
  .next (match c.posted with
    | (slot, at_) :: rest =>
      let s1 := s.mbDrain core slot at_
      let c1 := s1.hng.core core
      (s1.setCore core ({ c1 with posted := rest } |>.setOwn ((s.mb core true).slot slot) false)).hngWake core fun w => match w with
        | .mailbox true _ => true
        | _ => false
    | [] => s)

end Sys2Proof.Machine
end

