-- ==== Sys2Proof/Machine/Hng.lean ====
section
/-!
DEFINITION. Hinge bundles (R276, R279–R282), DMA (R286), loading and starting (R290), the service's commands.
-/

namespace Sys2Proof.Machine

/-! ### Copies between memories (R286) -/

/-- STATUS of a transfer of `len` bytes (Table 14.8): 1 PART_BAD, 2 RANGE, 0 where it may run. -/
def State.dmaCheck (s : State) (sashes : List Nat) (part off loc len end_ : Nat) : Nat :=
  if len = 0 then 0
  else match s.fab.part part with
    | none => 1
    | some p =>
      if (s.partBlocker p).isSome ∨ (!p.shared ∧ !sashes.contains p.owner) then 1
      else if p.size < off + len ∨ end_ < loc + len then 2
      else 0

/-- The 8-byte words of a partition from `off` on, none where poisoned. -/
def State.partWords (s : State) (p : PartRec) (off n : Nat) : List (Option (List Byte)) :=
  (List.range n).map fun i =>
    let r := s.partRead p (off + 8 * i) 8
    if r.2 then none else some r.1

/-- Words enter data memory, poison as poison. -/
def HngCore.takeData (c : HngCore) (loc : Nat) : List (Option (List Byte)) → HngCore
  | [] => c
  | some b :: t => (c.store loc b).takeData (loc + 8) t
  | none :: t =>
    let d := c.store loc (List.replicate 8 0)
    ({ d with bad := loc :: (loc + 4) :: d.bad } : HngCore).takeData (loc + 8) t

/-- Words enter program memory. -/
def HngCore.takeProg (c : HngCore) (loc : Nat) : List (Option (List Byte)) → HngCore
  | [] => c
  | some b :: t => ({ c with prog := memWriteList c.prog loc b, badProg := c.badProg.filter (· ≠ loc / 8) } : HngCore).takeProg (loc + 8) t
  | none :: t =>
    ({ c with prog := memWriteList c.prog loc (List.replicate 8 0), badProg := loc / 8 :: c.badProg.filter (· ≠ loc / 8) } : HngCore).takeProg
      (loc + 8) t

/-- Data memory goes to a partition, 8 bytes at a time; a poisoned word as poison. -/
def State.dataOut (s : State) (p : PartRec) (c : HngCore) (loc off : Nat) : Nat → State
  | 0 => s
  | n + 1 =>
    let s1 := if c.poisoned loc 8 then s.partPoison p off 8 else s.partWrite p off (memReadList c.data loc 8)
    s1.dataOut p c (loc + 8) (off + 8) n

/-- A DMA error is counted (R286). -/
def State.dmaErr (s : State) (n st : Nat) : State :=
  if st = 1 ∨ st = 2 then { s with hub := (s.hub.err HNG.DMA_ERR.COUNT n 0x0F04 0).raiseRl { code := 0x0F03, detail := [n] } } else s

/-- Move a transfer's bytes; answers STATUS. -/
def State.dmaMove (s : State) (n : Nat) (d : HngDma) : State × Nat :=
  let st := s.dmaCheck [d.sash] d.part d.off d.loc d.len hngDataEnd
  if st ≠ 0 ∨ d.len = 0 then (s.dmaErr n st, st)
  else match s.fab.part d.part with
    | none => (s, 1)
    | some p =>
      let c := s.hng.core n
      if d.toPart then (s.dataOut p c d.loc d.off (d.len / 8), if c.poisoned d.loc d.len then 3 else 0)
      else
        let ws := s.partWords p d.off (d.len / 8)
        (s.setCore n (c.takeData d.loc ws), if ws.any Option.isNone then 3 else 0)

/-- Must a transfer wait: the core is frozen, or it reads a stack that is lost (R24, R391)? -/
def State.dmaWaits (s : State) (d : HngDma) : Bool :=
  s.hub.get GLB.STATUS.FROZEN == 1 || (!d.toPart && match s.fab.part d.part with
    | some p => !s.partLive p
    | none => false)

/-- DMA_TRANSFER_DONE (R286): the bytes have moved and STATUS is written into the descriptor; a core that waits for the channel
runs on. -/
def execDmaTransferDone (core channel : Nat) (s : State) : Host.Outcome State Fault Refusal :=
  .next (match kvGet channel (s.hng.core core).dma with
    | some d =>
      if s.dmaWaits d then s
      else
      let r := s.dmaMove core d
      let c := r.1.hng.core core
      (r.1.setCore core { (c.store (d.desc + 0x14) (leBytes 4 r.2)) with dma := kvDel channel c.dma }).hngWake core (· == .dma channel)
    | none => s)

/-! ### Bundles -/

/-- A write of D register `n` that takes effect at hc `eff` (R276): where another write takes effect then, the compute slot's is
kept and WCONF is set; of two writes of one slot which is kept is not stated. -/
def HngCore.putD (c : HngCore) (n : Nat) (v : Word) (eff : Nat) (comp : Bool) (free : Nat) : HngCore :=
  let put : HngCore := { c with regs := c.regs.setD n v, busy := (c.busy.filter fun e => decide ¬(e.1 = n ∧ e.2.1 = eff)) ++ [(n, eff, comp)] }
  match c.busy.find? fun e => e.1 = n ∧ e.2.1 = eff with
  | some e =>
    let keepNew := if comp == e.2.2 then free % 2 == 1 else comp
    let c1 := if keepNew then put else c
    { c1 with regs := { c1.regs with status := c1.regs.status ||| 4 } }
  | none => put

/-- Several writes. -/
def HngCore.putDs (c : HngCore) (l : List (Nat × Word)) (eff : Nat) (comp : Bool) (free : Nat) : HngCore :=
  l.foldl (fun a e => a.putD e.1 e.2 eff comp free) c

/-- The compute slot's writes, issued at hc `t`. -/
def HngCore.putComp (c : HngCore) (x : HngComp) (t free : Nat) : HngCore :=
  let c1 := c.putDs x.ds (t + x.lat) true free
  let c2 : HngCore := match x.acc with
    | some (n, v) => { c1 with regs := c1.regs.setA n v, busy := (c1.busy.filter fun e => decide (e.1 ≠ 32 + n)) ++ [(32 + n, t + x.lat, true)] }
    | none => c1
  { c2 with regs := { c2.regs with status := c2.regs.status ||| x.flags } }

/-- D registers an LSB slot reads. -/
def lsbReads (w : Nat) : List Nat :=
  let d := fieldOf w 22 5
  match fieldOf w 27 5 with
  | 0x04 => [d]
  | 0x05 => [d]
  | 0x06 => [d / 2 * 2, d / 2 * 2 + 1]
  | 0x07 => [d]
  | 0x0B => [d]
  | 0x0C => [d]
  | 0x0D => [d]
  | 0x10 => [fieldOf w 21 5]
  | 0x14 => [fieldOf w 17 5]
  | _ => []

/-- The access size of a format M operation, 0 for the others. -/
def lsbSize (op : Nat) : Nat := [0, 4, 2, 8, 4, 2, 8].getD op 0

/-- Why a bundle faults before it acts (Table 14.10). A DMA descriptor is read as a load is. -/
def HngCore.faultOf (c : HngCore) (w : Nat) (comp : Option HngComp) : Option Nat :=
  let op := fieldOf w 27 5
  let size := lsbSize op
  let a := memAddr c.regs w size
  let desc := (c.regs.dr (fieldOf w 17 5)).toNat
  if c.badProg.contains c.pc then some 2
  else if comp.isNone ∨ 0x17 ≤ op then some 1
  else if 0 < size ∧ hngDataEnd < a + size then some 4
  else if 1 ≤ op ∧ op ≤ 3 ∧ c.poisoned a size then some 3
  else if op = 0x14 ∧ hngDataEnd < desc + 32 then some 4
  else if op = 0x14 ∧ c.poisoned desc 0x14 then some 3
  else if (op = 0x0E ∧ 8 ≤ c.regs.stack.length) ∨ (op = 0x0F ∧ c.regs.stack = []) then some 5
  else none

/-- Where a bundle goes: the next one, a branch taken (2 hc lost), or a loop's end or restart. -/
inductive HngGo where
  | on
  | goto (pc : Nat)
  | skip (pc : Nat)
  deriving DecidableEq, Repr

/-- The LSB slot of a bundle issued at hc `t` (R279–R281), on the registers `r` as they were before the bundle: the core after
it, and where it goes. Waits and DMA are decided before. -/
def HngCore.lsb (c : HngCore) (r : HngRegs) (w t period free : Nat) : HngCore × HngGo :=
  let op := fieldOf w 27 5
  let d := fieldOf w 22 5
  let x := r.dr d
  let size := lsbSize op
  let a := memAddr r w size
  let tgt := fieldOf w 0 14
  let post := fun (c : HngCore) => ({ c with regs := c.regs.setP (fieldOf w 19 3) (postMod r w) } : HngCore)
  let n := fieldOf w 26 1
  match op with
  | 0x01 => ((post c).putD d (BitVec.ofNat 32 (c.loadN a 4)) (t + 2) false free, .on)
  | 0x02 => ((post c).putD d (BitVec.ofInt 32 (signedOf 16 (c.loadN a 2))) (t + 2) false free, .on)
  | 0x03 => ((post c).putDs [(d / 2 * 2, BitVec.ofNat 32 (c.loadN a 4)), (d / 2 * 2 + 1, BitVec.ofNat 32 (c.loadN (a + 4) 4))] (t + 2) false free, .on)
  | 0x04 => ((post c).store a (leBytes 4 x.toNat), .on)
  | 0x05 => ((post c).store a (leBytes 2 x.toNat), .on)
  | 0x06 => ((post c).store a (leBytes 4 (r.dr (d / 2 * 2)).toNat ++ leBytes 4 (r.dr (d / 2 * 2 + 1)).toNat), .on)
  | 0x07 => ({ c with regs := c.regs.writeX (fieldOf w 16 6) x.toNat }, .on)
  | 0x08 => (c.putD d (r.readX (fieldOf w 16 6) period) (t + 1) false free, .on)
  | 0x09 => ({ c with regs := c.regs.writeX (fieldOf w 21 6) (setxValue (fieldOf w 21 6) (fieldOf w 0 21)) }, .on)
  | 0x0A => (c, .goto tgt)
  | 0x0B => (c, if x = 0 then .goto tgt else .on)
  | 0x0C => (c, if x = 0 then .on else .goto tgt)
  | 0x0D => (c, if x.toInt < 0 then .goto tgt else .on)
  | 0x0E => ({ c with regs := { c.regs with stack := (c.pc + 1) % 16384 :: c.regs.stack } }, .goto tgt)
  | 0x0F => ({ c with regs := { c.regs with stack := c.regs.stack.drop 1 } }, .goto (r.stack.headD 0))
  | 0x10 =>
    let l := c.regs.arm c.pc n (r.dr (fieldOf w 21 5)).toNat tgt
    ({ c with regs := l.1 }, match l.2 with | some p => .skip p | none => .on)
  | 0x11 =>
    let l := c.regs.arm c.pc n (fieldOf w 14 12) tgt
    ({ c with regs := l.1 }, match l.2 with | some p => .skip p | none => .on)
  | _ => (c, .on)

/-- A bundle that may act, after the hc it stalls: both slots read before either writes; of the writes the earlier taking
effect comes first. -/
def HngCore.bundle (c : HngCore) (w : Nat) (x : HngComp) (t period free : Nat) : HngCore × HngGo :=
  let op := fieldOf w 27 5
  let r := c.regs
  if x.lat = 2 ∧ x.ds ≠ [] ∧ op = 0x08 then
    let l := c.lsb r w t period free
    (l.1.putComp x t free, l.2)
  else if x.ds ≠ [] ∧ 1 ≤ op ∧ op ≤ 3 then (c.putComp x t free).lsb r w t period free
  else
    let l := c.lsb r w t period free
    (l.1.putComp x t free, l.2)

/-- The mailbox instructions once their condition holds (R284): MBWAIT places the slot's address in P, MBFREE frees or posts. -/
def State.mbInstr (s : State) (n w : Nat) (c : HngCore) : HngCore :=
  let one := fieldOf w 26 1 == 1
  let r := s.mb n one
  let i := if one then c.slot1 else c.slot0
  let a := r.slot i
  match fieldOf w 27 5 with
  | 0x12 => { c with regs := c.regs.setP (fieldOf w 19 3) a }
  | 0x13 =>
    if r.slots = 0 then c
    else if one then { (c.setOwn a true) with slot1 := r.next i, posted := c.posted ++ [(i, s.fab.period)] }
    else { (c.setOwn a false) with slot0 := r.next i }
  | _ => c

/-- What a bundle's LSB slot waits for before it can act: a mailbox slot, or a DMA channel. -/
def State.hngWaits (s : State) (n w : Nat) : Option HngWait :=
  let c := s.hng.core n
  let one := fieldOf w 26 1 == 1
  let r := s.mb n one
  let own := c.owned (r.slot (if one then c.slot1 else c.slot0))
  match fieldOf w 27 5 with
  | 0x12 => if r.slots ≠ 0 ∧ own ≠ one then none else some (.mailbox one (fieldOf w 19 3))
  | 0x15 => if kvHas (fieldOf w 22 2) c.dma then some (.dma (fieldOf w 22 2)) else none
  | _ => none

/-- DMA starts (R286): the channel reads its descriptor. -/
def HngCore.dmaStart (c : HngCore) (k desc sash : Nat) : HngCore :=
  let d : HngDma := { desc := desc, part := c.loadN desc 2 % 4096, toPart := c.loadN (desc + 2) 1 == 1, len := c.loadN (desc + 4) 4 / 64 * 64
                      off := c.loadN (desc + 8) 8 / 64 * 64, loc := c.loadN (desc + 16) 4 / 64 * 64, sash := sash }
  { c with dma := kvPut k d c.dma }

/-- The counters and state after a bundle. -/
def State.hngDone (s : State) (n stall : Nat) (c : HngCore) (halted : Bool) : State :=
  let s1 : State := { (s.setCore n c) with hub := (s.hub.stat HNG.BUNDLES_LO.COUNT n 1).stat HNG.STALLS_LO.COUNT n stall }
  if halted then s1.hngStop n 0 else s1.hngEnter n 1

/-- A bundle of core `n` under a grant of sash `sash`. -/
def State.hngBundle (s : State) (n sash : Nat) : State :=
  let c := s.hng.core n
  let word := leNat (memReadList c.prog (8 * c.pc) 8)
  let w := word % 2 ^ 32
  let comp := hngCompute c.regs (word / 2 ^ 32)
  match c.faultOf w comp, comp with
  | some cause, _ => s.hngFault n cause
  | none, none => s
  | none, some x =>
    match s.hngWaits n w with
    | some wait => (s.setCore n { c with wait := some wait }).hngEnter n 2
    | none =>
      let op := fieldOf w 27 5
      let k := fieldOf w 22 2
      if op = 0x14 ∧ kvHas k c.dma then
        ({ (s.setCore n { c with clock := c.clock + 1 }) with
          hub := s.hub.stat HNG.STALLS_LO.COUNT n 1, fab := s.fab.useGrant (s.hngHw n) sash 1 } : State).hngEnter n 1
      else
        let need := x.reads ++ lsbReads w
        let t := (c.busy.filter fun e => need.contains e.1).foldl (fun a e => max a e.2.1) c.clock
        let c1 : HngCore := { c with busy := c.busy.filter fun e => decide (t < e.2.1) }
        let r := c1.bundle w x t s.fab.period (Config.freeValue s.hub.free)
        let c2 := s.mbInstr n w r.1
        let c3 := if op = 0x14 then c2.dmaStart k (c.regs.dr (fieldOf w 17 5)).toNat sash else c2
        let go : HngRegs × Nat × Nat := match r.2 with
          | .on =>
            let l := c3.regs.loopEnd c.pc [1, 0]
            (l.1, l.2, 0)
          | .goto p => (c3.regs, p, 2)
          | .skip p => (c3.regs, p, 2)
        let hc := t + 1 + go.2.2 - c.clock
        let f := s.fab.useGrant (s.hngHw n) sash hc
        let more := (f.grantOf (s.hngHw n) sash).isSome ∧ c.grain + hc < 1024
        let c4 : HngCore := { c3 with regs := go.1, pc := go.2.1, clock := t + 1 + go.2.2, grain := if more then c.grain + hc else 0 }
        ({ s with hub := s.hub.freeTick, fab := f } : State).hngDone n (t - c.clock) c4 (op == 0x16)

/-- One bundle of a core that a grant of `sash` runs, its hc charged to it; without one, as in a pace emergency, the core is HELD (R276, R287). -/
def State.hngExecute (s : State) (core sash : Nat) : State :=
  let st := s.hngState core
  if st = 1 ∨ st = 3 then
    if (s.fab.users 5 core).contains sash ∧ s.hub.get1 GLB.SASH_STAT.EMERG_HELD sash = 0 ∧ s.granting ∧
        (s.fab.grantOf (s.hngHw core) sash).isSome then s.hngBundle core sash
    else s.hngEnter core 3
  else s

/-! ### Loading and starting (R290) -/

/-- Write an HNG_IMAGE record's bytes into a core. -/
def HngCore.image (c : HngCore) (r : HngRec) : HngCore :=
  if r.data then c.store r.off r.bytes
  else { c with prog := memWriteList c.prog r.off r.bytes, badProg := c.badProg.filter fun b => decide (8 * b + 8 ≤ r.off ∨ r.off + r.bytes.length ≤ 8 * b) }

/-- The records of an image that name a core, in image order. -/
def hngRecs (l : List HngRec) (n : Nat) : List HngRec := l.filter fun r => r.cores.testBit n

/-- HNG_IMAGE records reach a core, which then starts (R51, R290). -/
def State.hngImage (s : State) (n : Nat) (l : List HngRec) : State :=
  let rs := hngRecs l n
  if rs = [] then s
  else
    let c := s.hng.core n
    (s.setCore n (rs.foldl HngCore.image { c with fill := 0, slot0 := 0, slot1 := 0, posted := [], lost := 0, dma := [], loads := [] })).hngStart n

/-- An HNG_LOAD copy into a core: STATUS, and the core's memory. -/
def State.hngCopy (s : State) (n : Nat) (data : Bool) (part off loc len : Nat) : State × Nat :=
  let end_ := if data then hngDataEnd else hngProgEnd
  let st := s.dmaCheck (s.fab.users 5 n) part off loc len end_
  if st ≠ 0 ∨ len = 0 then (s.dmaErr n st, st)
  else match s.fab.part part with
    | none => (s, 1)
    | some p =>
      let ws := s.partWords p off (len / 8)
      let c := s.hng.core n
      (s.setCore n (if data then c.takeData loc ws else c.takeProg loc ws), if ws.any Option.isNone then 3 else 0)

/-- A core's slats have moved to a spare (R290): it takes the image records, then the HNG_LOAD copies in order, and starts. -/
def State.hngMoved (s : State) (n : Nat) (l : List HngRec) : State :=
  let old := s.hng.core n
  let s1 := s.setCore n ((hngRecs l n).foldl HngCore.image { loads := old.loads })
  (old.loads.foldl (fun (a : State) x => (a.hngCopy n x.1 x.2.1 x.2.2.1 x.2.2.2.1 x.2.2.2.2).1) s1).hngStart n

/-- A warm start halts every core and rewrites its memories (R290): mailboxes and DMA end with it. -/
def State.hngWarm (s : State) (l : List HngRec) : State :=
  (List.range (s.hub.unitCount 5)).foldl (fun (a : State) n =>
    let c : HngCore := (hngRecs l n).foldl HngCore.image {}
    ({ (a.setCore n c) with hub := a.hub.set1 HNG.CORE_STAT.CAUSE n 0 } : State).hngEnter n 0)
    { s with hng := {} }

/-! ### Commands (Table 14.11) -/

/-- The refusal of a command that names a core. -/
def State.hngRefused (s : State) (e : CmdEnv) (ref : Nat) : Option Nat :=
  if refType ref ≠ 5 ∨ s.hub.unitCount 5 ≤ refInst ref then some 4
  else if e.fn ≠ 0 ∧ !(s.fab.users 5 (refInst ref)).any (s.hub.reachesSash e.fn) then some 5
  else none

/-- HNG_LOAD: copies into a core that is HALTED or FAULTED, which then starts; the completion carries STATUS. -/
def execHngLoad (e : CmdEnv) (body : List Byte) (s : State) : Host.Outcome State Fault Refusal :=
  let ref := bodyN body 0 2
  let n := refInst ref
  let data := bodyU8 body 2 == 1
  let part := bodyN body 4 2 % 4096
  let off := bodyN body 8 8 / 64 * 64
  let loc := bodyN body 16 4 / 64 * 64
  let len := bodyN body 20 4 / 64 * 64
  .next (match s.hngRefused e ref with
    | some st => s.done e 0x0801 st []
    | none =>
      if s.hngState n ≠ 0 ∧ s.hngState n ≠ 4 then s.done e 0x0801 6 []
      else
        let r := s.hngCopy n data part off loc len
        if r.2 = 1 ∨ r.2 = 2 then r.1.done e 0x0801 0 (leBytes 4 r.2)
        else
          let c := r.1.hng.core n
          let s1 := r.1.setCore n { c with loads := c.loads ++ [(data, part, off, loc, len)] }
          (({ s1 with hub := s1.hub.set1 HNG.CORE_STAT.CAUSE n 0 } : State).hngStart n).done e 0x0801 0 (leBytes 4 r.2))

/-- HNG_START: clears CAUSE and starts the core. -/
def execHngStart (e : CmdEnv) (body : List Byte) (s : State) : Host.Outcome State Fault Refusal :=
  let ref := bodyN body 0 2
  .next (match s.hngRefused e ref with
    | some st => s.done e 0x0802 st []
    | none => (({ s with hub := s.hub.set1 HNG.CORE_STAT.CAUSE (refInst ref) 0 } : State).hngStart (refInst ref)).done e 0x0802 0 [])

/-- A core halts at its bundle boundary; DMA in progress completes. -/
def State.hngHalt (s : State) (n : Nat) : State :=
  if s.hngState n = 4 then s else (s.setCore n { (s.hng.core n) with wait := none }).hngStop n 0

/-- HNG_STATS, as of the last publication. -/
def execHngStats (e : CmdEnv) (body : List Byte) (s : State) : Host.Outcome State Fault Refusal :=
  let ref := bodyN body 0 2
  let n := refInst ref
  let g := fun (f : Fld) => f.of (s.hub.rdPub (f.off n 0))
  let g64 := fun (f : Fld) => (s.hub.rdPub (f.off n 0)).toNat + (s.hub.rdPub (f.off n 0 + 4)).toNat * 2 ^ 32
  .next (match s.hngRefused e ref with
    | some st => s.done e 0x0804 st []
    | none => s.done e 0x0804 0 (leBytes 4 (g HNG.CORE_STAT.STATE) ++ leBytes 4 (g HNG.CORE_STAT.CAUSE) ++ leBytes 4 (g HNG.CORE_STAT.PC) ++
        leBytes 8 (g64 HNG.BUNDLES_LO.COUNT) ++ leBytes 8 (g64 HNG.STALLS_LO.COUNT) ++ leBytes 4 (g HNG.MB_DROP.COUNT) ++
        leBytes 4 (g HNG.FAULTS.COUNT)))

/-! ### Spares -/

/-- The work boundary of a retired unit, or of one scheduled for BIST (R71, R290): cores whose slats move take their images anew. No test
begins during a pace emergency (R74, R386). -/
def State.spareTaken (s : State) (ty inst badReads : Nat) : State :=
  let s1 := match s.dbt.retiring.find? (·.1 = chanId ty inst) with
    | some r => s.retireUnit ty inst r.2
    | none => if (ty, inst) ∈ s.dbt.bistSched ∧ !s.emergency then s.bistBegin ty inst badReads else s
  let moved := (List.range (s.hub.unitCount 5)).filter fun j => s.hub.get2 DBT.CH.SERVED_BY 5 j ≠ s1.hub.get2 DBT.CH.SERVED_BY 5 j
  if ty = 5 then
    (moved.foldl (fun (a : State) j => a.hngMoved j a.ldr.hngs) s1).dwellsEnd
      ((s1.dbl.dwells.filter fun e => moved.contains (e.1 / 128)).map (·.1)) true
  else s1

/-- Retirements of units of `us` that wait for a work boundary take effect at it (R32, R71). -/
def State.retireAt (s : State) (us : List Nat) : State :=
  (us.filter fun u => s.dbt.retiring.any fun r => r.1 = chanId (refType u) (refInst u)).foldl
    (fun (a : State) u => a.spareTaken (refType u) (refInst u) 0) s

/-- SPARE_TAKEN (R71). -/
def execSpareTaken (ty inst badReads : Nat) (s : State) : Host.Outcome State Fault Refusal := .next (s.spareTaken ty inst badReads)

end Sys2Proof.Machine
end

