-- ==== Sys2Proof/Machine/Image.lean ====
section
/-!
DEFINITION. Reading a Hexmus image (R39–R45): header, directory, records in image order, and the structures they define.
Bytes come from a function of the offset; what lies at or beyond IMAGE_LEN reads as zero.
-/

namespace Sys2Proof.Machine

/-! ### Bytes -/

/-- `n` bytes from an offset, zeros from `len` on (R39). -/
def rdBytes (byte : Nat → Byte) (len o n : Nat) : List Byte := (List.range n).map fun k => if o + k < len then byte (o + k) else 0
def rdN (byte : Nat → Byte) (len o n : Nat) : Nat := leNat (rdBytes byte len o n)

/-- The first four bytes are the MAGIC (Table 3.1). -/
def imgMagic (byte : Nat → Byte) : Bool := rdBytes byte 4 0 4 == [0x48, 0x58, 0x4D, 0x53]

/-- The header, at most `cap` bytes of image (R47). -/
def imgHeader (byte : Nat → Byte) (cap : Nat) : ImgHeader :=
  let len := min (min (max (rdN byte 64 0x0C 4) 64) 268435456) cap
  { format := rdN byte 64 4 2, interop := rdN byte 64 6 2, variant := rdN byte 64 8 2, sections := min (rdN byte 64 0xA 2) 256, len := len
    digest := rdBytes byte 64 0x10 32, build := rdN byte 64 0x30 8 }

/-! ### Records (R40–R42) -/

/-- A record that the walk reaches: its TYPE, whether it is to be skipped, its offset and its body. -/
structure RawRec where
  ty : Nat
  skip : Bool
  off : Nat
  body : List Byte
  deriving DecidableEq, Repr

/-- Walk one section range (R42). -/
def walkRange (byte : Nat → Byte) (len end_ : Nat) : Nat → Nat → List RawRec
  | 0, _ => []
  | fuel + 1, pos =>
    let n := rdN byte len (pos + 4) 4
    if end_ < pos + 8 then []
    else if end_ < pos + 8 + n then []
    else ⟨rdN byte len pos 2, decide (rdN byte len (pos + 2) 2 % 2 = 1), pos, rdBytes byte len (pos + 8) n⟩ ::
      walkRange byte len end_ fuel (pos + 8 + 8 * ceilDiv n 8)

/-- The records of one section type, range by range in directory order (R40): those of another type, unknown ones and ignored
ones are skipped. -/
def sectionRecs (byte : Nat → Byte) (h : ImgHeader) (ty : Nat) (known : List Nat) : List RawRec :=
  (List.range h.sections).flatMap fun i =>
    let o := 0x40 + 16 * i
    let start := rdN byte h.len (o + 4) 4
    let end_ := min (start + rdN byte h.len (o + 8) 4) h.len
    if rdN byte h.len o 2 ≠ ty ∨ h.len ≤ start then []
    else (walkRange byte h.len end_ ((end_ - start) / 8 + 1) start).filter fun r => !r.skip && r.ty / 256 == ty && known.contains (r.ty % 256)

/-! ### Bodies (Tables 3.5–3.12): missing bytes read as zero -/

def portOf (b : List Byte) : PortRec := ⟨bodyU8 b 0, bodyU8 b 1, bodyU8 b 2, bodyU8 b 3, bodyN b 4 2⟩

def partOf (b : List Byte) : PartRec :=
  let mem := bodyU8 b 4
  let page := if mem = 3 then 2048 else 4096
  { id := bodyN b 0 2 % 4096, shared := decide (32768 ≤ bodyN b 2 2), owner := bodyN b 2 2 % 1024, mem := mem
    order := if bodyU8 b 5 ≤ 3 then bodyU8 b 5 else 0, base := bodyN b 8 8 / page * page, size := bodyN b 0x10 8 / page * page, raw := b }

def persRecOf (b : List Byte) : PersRec := ⟨refUnit (bodyN b 0 2), bodyN b 2 2, b.drop 8, b⟩

def sashOf (pos : Nat) (b : List Byte) : SashRec :=
  { id := bodyN b 0 2 % 1024, pos := pos, cls := min (bodyU8 b 2) 2, units := (List.range (min (bodyU8 b 3) 64)).map fun k => bodyN b (4 + 2 * k) 2, raw := b }

def pathOf (pos : Nat) (b : List Byte) : PathRec :=
  { id := bodyN b 0 2 % 16384, pos := pos, sash := bodyN b 2 2 % 1024, src := bodyN b 4 2, dst := bodyN b 6 2, hops := min (bodyU8 b 8) 4, raw := b }

def slatOf (off : Nat) (b : List Byte) : SlatRec :=
  { sash := bodyN b 0 2 % 1024, kind := bodyU8 b 2, index := bodyN b 4 2, amount := bodyN b 8 4, off := off, raw := b }

def fwOf (off : Nat) (b : List Byte) : FwRec :=
  let n := bodyN b 0xC 4
  { off := off, cores := bodyN b 0 2, service := bodyN b 2 2, keyIdx := bodyU8 b 4, load := bodyN b 8 4, code := (b.drop 0x10).take n
    sig := ((b.drop 0x10).drop n).take 96 }

def hngRecOf (b : List Byte) : HngRec := ⟨bodyN b 0 8, decide (bodyU8 b 8 = 1), bodyN b 0xC 4, b.drop 0x10⟩

/-- The entries of a SHADOW record: a remainder of fewer than 12 bytes is ignored. -/
def shadowsOf (b : List Byte) : List ShadowRec :=
  (List.range (b.length / 12)).map fun k => ⟨bodyN b (12 * k) 4 / 4 * 4, bodyN b (12 * k + 4) 4, bodyN b (12 * k + 8) 4⟩

def svcRecOf (b : List Byte) : SvcRec := ⟨bodyN b 0 2, bodyN b 2 2, b.drop 4⟩

/-- A later record with the same key replaces the earlier one: the last of each key, in order. -/
def lastOf {α : Type} (key : α → Nat) : List α → List α
  | [] => []
  | a :: t => if t.any (fun b => key b = key a) then lastOf key t else a :: lastOf key t

/-- The sections read at starts only: lane plan and firmware (R48). -/
def imgPorts (byte : Nat → Byte) (h : ImgHeader) : List PortRec := (sectionRecs byte h 1 [1]).map fun r => portOf r.body
def imgFws (byte : Nat → Byte) (h : ImgHeader) : List FwRec := (sectionRecs byte h 6 [1]).map fun r => fwOf r.off r.body

/-- An image as read: a SASH record and a PATH record keep their place within section 4. -/
def readImage (byte : Nat → Byte) (h : ImgHeader) : Image :=
  let sec := fun (ty : Nat) (known : List Nat) => sectionRecs byte h ty known
  let s4 := (sec 4 [1, 2]).zipIdx
  { hdr := h
    ports := imgPorts byte h
    parts := lastOf PartRec.id ((sec 2 [1]).map fun r => partOf r.body)
    pers := lastOf PersRec.unit ((sec 3 [1]).map fun r => persRecOf r.body)
    sashes := lastOf SashRec.id ((s4.filter fun p => p.1.ty % 256 = 1).map fun p => sashOf p.2 p.1.body)
    paths := lastOf PathRec.id ((s4.filter fun p => p.1.ty % 256 = 2).map fun p => pathOf p.2 p.1.body)
    slats := (sec 5 [1]).zipIdx.map fun p => { slatOf p.1.off p.1.body with ord := p.2 }
    fws := imgFws byte h
    hngs := (sec 7 [1]).map fun r => hngRecOf r.body
    shadows := (sec 8 [1]).flatMap fun r => shadowsOf r.body
    svcs := (sec 9 [1]).map fun r => svcRecOf r.body }

/-! ### Memory ends (Table 3.6, R48, R323) -/

/-- The first address past a partition's memory that it may not reach: the end of its memory, the staging banks at the top of
the HBM in service, or the next region of SRAM. -/
def Hub.partEnd (h : Hub) (p : PartRec) : Nat :=
  let both := h.stackUp 0 && h.stackUp 1
  let bank := 2 ^ 29
  match p.mem with
  | 0 => if both then 2 ^ 35 else 2 ^ 35 - bank
  | 1 => 2 ^ 35 - bank
  | 2 => 2 ^ 36 - bank
  | 3 =>
    if p.base < 0x6000000 then 0x6000000
    else if 0x12000000 ≤ p.base ∧ p.base < 0x13000000 then 0x13000000
    else 0
  | _ => 0

/-- A partition as it comes into force: cut short at that end. -/
def Hub.cutPart (h : Hub) (p : PartRec) : PartRec := { p with size := min p.size (h.partEnd p - p.base) }

/-- Slats as they are entered at their resources, up to 1,024 at each (Table 3.10), and the offset of each one dropped. -/
def enterSlats (room : Nat × Nat → Nat) (used : List ((Nat × Nat) × Nat)) : List SlatRec → List SlatRec × List Nat
  | [] => ([], [])
  | t :: rest =>
    let k := (t.kind, slatIndex t.kind t.index)
    let n := (kvGetBy k used)
    if 6 ≤ t.kind then enterSlats room used rest
    else if 1024 ≤ room k + n then
      let r := enterSlats room used rest
      (r.1, t.off :: r.2)
    else
      let r := enterSlats room ((k, n + 1) :: used) rest
      (t :: r.1, r.2)
where
  /-- How many have been entered at a resource. -/
  kvGetBy (k : Nat × Nat) (l : List ((Nat × Nat) × Nat)) : Nat := ((l.find? fun e => e.1 = k).map (·.2)).getD 0

end Sys2Proof.Machine
end

