-- ==== Sys2Proof/Machine/LatchBase.lean ====
section
/-!
DEFINITION. The Latch's bookkeeping (chapter 5): domains and their work boundaries (R79, R31), the open set and its sealing
(R78, R81), Latch numbers and the pending list (R82), ARMs and the group decision (R87).
-/

namespace Sys2Proof.Machine

/-! ### Domains (R79) -/

/-- The domain of an SH register: a composer's, an encoder's and a Hinge core's SH fields are in their unit's. -/
def shDomain (off : Nat) : Domain :=
  if 0xC00000 ≤ off ∧ off < 0xD80000 then .unit (mkRef 1 ((off - 0xC00000) / 0x10000))
  else if 0x1200000 ≤ off ∧ off < 0x1280000 then .unit (mkRef 3 ((off - 0x1200000) / 0x10000))
  else if 0x1900000 ≤ off ∧ off < 0x1910000 then .unit (mkRef 5 ((off - 0x1900000) / 0x400))
  else .device

/-- The domain of an item of the open set: an ENC_CONFIG is in its sash's, a receiver change in its splicer's (R220), every
other one in the device's. -/
def OpenItem.domain : OpenItem → Domain
  | .write off _ _ => shDomain off
  | .change (.encConfig _ b) => .sash (bodyN b 0 2 % 1024)
  | .change (.splRecvAdd _ b) => .unit (refUnit (bodyN b 0 2))
  | .change (.splRecvSet _ b) => .unit (refUnit (bodyN b 0 2))
  | .change (.splRecvDel _ b) => .unit (refUnit (bodyN b 0 2))
  | .change _ => .device

/-- The domains a Latch holds: its one domain, or the device's and those of its items. -/
def Latch.doms (l : Latch) : List Domain :=
  match l.at_ with
  | .domain d => [d]
  | _ => .device :: l.items.map fun e => e.item.domain

/-- Types whose work boundary is a frame boundary (R31); a packet or a grain of any other type ends within the instant. -/
def frameType (ty : Nat) : Bool := ty == 1 || ty == 2 || ty == 3 || ty == 11

/-- The pacing unit of a sash (R31): its lowest-numbered composer, else VIN, else its first unit in image order. -/
def FabSt.pacer (f : FabSt) (n : Nat) : Option Nat :=
  match f.sashes.find? (·.id = n) with
  | none => none
  | some d =>
    let us := ((sashRefs d f.paths).map fun r => refUnit r.1).filter fun u => refType u ≠ 0
    let least := fun (ty : Nat) => ((us.filter fun u => refType u = ty).foldl (fun (a : Option Nat) u => some (min u (a.getD u))) none)
    match least 3 with
    | some u => some u
    | none => match least 11 with
      | some u => some u
      | none => us.head?

/-- Is a unit in the middle of a unit of work: a frame unit with a personality, or a Hinge core within a grain (R31)? -/
def State.unitBusy (s : State) (u : Nat) : Bool :=
  if refType u = 5 then s.hngState (refInst u) == 1 && (s.hng.core (refInst u)).grain != 0
  else frameType (refType u) && (s.fab.persAt (refType u) (refInst u)).1 != 0

/-- Does a domain take its fields into force at the Latch instant? Absent and idle units, EMPTY and NO_UNIT sashes, and
domains whose work boundary ends within the instant do (R79). -/
def State.domainNow (s : State) (d : Domain) : Bool :=
  match d with
  | .device => true
  | .unit u => s.absentRef u false || !s.unitBusy u
  | .sash n =>
    match s.fab.pacer n with
    | some u => decide (s.hub.sashState n ≤ 1) || !(frameType (refType u) || s.unitBusy u)
    | none => true

/-! ### The open set (R78) -/

/-- A shadow write is accepted: the shadow layer takes it, and it joins the open set. Only SH fields are written. -/
def State.shadowPut (s : State) (fn off : Nat) (mask val : Word) : State :=
  let m := mask &&& accMask .sh off
  if m = 0 ∨ s.hub.absentBlock off then s
  else { s with
    hub := s.hub.wrShadow off ((s.hub.rdShadow off &&& ~~~ m) ||| (val &&& m))
    lch := { s.lch with openSet := s.lch.openSet ++ [⟨fn, .write off m (val &&& m)⟩] } }

/-- Is a bit of a register's shadow still to be sealed or applied by a later Latch than `num`? -/
def LchSt.later (l : LchSt) (num off : Nat) (bit : Word) : Bool :=
  let writes := fun (e : OpenEntry) => match e.item with
    | .write o m _ => o == off && (m &&& bit) != 0
    | _ => false
  l.openSet.any writes || l.pend.any fun p => decide (num < p.num) && p.items.any writes

/-- Clear a bit of a shadow at the Latch `num` that takes it (R49, R200): a later write of it stays. -/
def State.shadowClear (s : State) (num off : Nat) (bit : Word) : State :=
  if s.lch.later num off bit then s else { s with hub := s.hub.wrShadow off (s.hub.rdShadow off &&& ~~~ bit) }

/-! ### Acceptance (R81, R82) -/

/-- `LCH.STATUS` follows the pending list. -/
def State.latchStatus (s : State) : State :=
  let wait := if s.lch.pend.any (fun l => !l.decided) then 1 else 0
  { s with hub := (s.hub.set LCH.STATUS.PENDING (min s.lch.pend.length 16)).set LCH.STATUS.GRP_WAIT wait }

/-- A commit is accepted with the next Latch number. -/
def State.latchAccept (s : State) (l : Latch) : State :=
  let num := s.hub.get64 LCH.ACCEPTED_LO.NUM 0 + 1
  ({ s with
    hub := s.hub.set64 LCH.ACCEPTED_LO.NUM 0 num
    lch := { s.lch with pend := s.lch.pend ++ [{ l with num := num, acc := s.hub.elapsed }] } } : State).latchStatus

/-- Has the guard passed since acceptance at `acc`? At a boundary that the period's course brings, `hcLeft` has said so; a step of the
counter brings its boundary whatever is left of the period, and 4,096 hc then count at the guaranteed pace (R81, assumption 99). -/
def State.guardPast (s : State) (step : Bool) (acc : Nat) : Bool := !step || decide (acc + guardNs ≤ s.hub.elapsed)

/-- The boundary of a NEXT commit: the first at least 4,096 hc away, with `hcLeft` hc left of the period. -/
def State.nextBound (s : State) (hcLeft : Nat) : LatchWhen := .bound (s.fab.boundaries + (if 4096 ≤ hcLeft then 1 else 2))

/-- The time in ns of the boundary at which a snapshot or a Latch of MODE NEXT acts. -/
def State.boundNs (s : State) : LatchWhen → Nat
  | .bound n => (s.hub.time.period + (n - s.fab.boundaries)) * 125000
  | .sched raw => s.hub.instant raw
  | .domain _ => s.hub.time.total

/-- A commit while 16 Latches are pending is refused (R82). -/
def State.latchRefuse (s : State) : State := { s with hub := s.hub.raise { code := 0x0502 } }

/-- Does a commit through function `fn`'s window seal an entry? Only those made through that window (R78, R365). -/
def sealedBy (fn : Nat) (e : OpenEntry) : Bool := e.fn == fn

/-- `LATCH_LATE` with a Latch's number and reason. -/
def State.latchLate (s : State) (num reason : Nat) : State :=
  { s with hub := s.hub.raise { code := 0x0501, detail := d64 num ++ [reason] } }

/-! ### Groups (R87) -/

/-- The devices of the group map, apart from this one. -/
def Hub.groupMembers (h : Hub) : List Nat :=
  (List.range 2048).filter fun d => (h.get1 LCH.GRP_MAP.MAP (d / 32)).testBit (d % 32) && d != h.get LNK.CFG.DEVICE

/-- Members of which no ARM of a tag and time is held. -/
def State.missing (s : State) (tag ns : Nat) : List Nat :=
  s.hub.groupMembers.filter fun d =>
    !(s.lch.arms.any fun a => a.dev = d ∧ a.tag = tag ∧ s.hub.instant (a.sec * 1000000000 + a.ns) = s.hub.instant ns)

/-- Record a decided Latch in LAST_NUM, LAST_PERIOD and LAST_RESULT. -/
def Hub.latchLast (h : Hub) (num period result missing : Nat) : Hub :=
  (((h.set64 LCH.LAST_NUM_LO.NUM 0 num).set64 LCH.LAST_PERIOD_LO.PERIOD 0 period).set LCH.LAST_RESULT.RESULT result).set
    LCH.LAST_RESULT.MISSING (min missing 2047)

/-- The period of the instant a Latch has: for a NEXT Latch the one its boundary begins. -/
def State.latchPeriod (s : State) (l : Latch) : Nat :=
  match l.at_ with
  | .bound n => s.fab.period + (n - s.fab.boundaries)
  | .sched raw => (Time.ofNs (s.hub.instant raw)).period
  | .domain _ => s.hub.time.period

/-- The decision at the guard time: the Latch goes on, complete or partial, or is cancelled and its writes return to the
open set. -/
def State.latchDecide (s : State) (num : Nat) : State :=
  match s.lch.pend.find? (·.num = num) with
  | none => s
  | some l =>
    let out := s.missing l.tag l.named
    let det := [out.length, out.headD 0]
    if l.decided then s
    else if out = [] then
      ({ s with lch := { s.lch with pend := s.lch.pend.map fun p => if p.num = num then { p with decided := true } else p } } : State).latchStatus
    else if l.abort then
      ({ s with
        hub := (s.hub.latchLast num (s.latchPeriod l) 6 out.length).raise { code := 0x0504, detail := det }
        lch := { s.lch with
          pend := s.lch.pend.filter fun (p : Latch) => p.num ≠ num
          openSet := l.items ++ s.lch.openSet } } : State).latchStatus
    else
      ({ s with
        hub := s.hub.raise { code := 0x0503, detail := det }
        lch := { s.lch with pend := s.lch.pend.map fun p =>
          if p.num = num then { p with decided := true, missing := out.length } else p } } : State).latchStatus

end Sys2Proof.Machine
end

