-- ==== Sys2Proof/Machine/Loader.lean ====
section
/-!
DEFINITION. The image loader (chapter 3) and what it does to sashes (R29–R32): definitions that replace one another at work
boundaries, commits and the queue slot (R49, R53), parsing (R50), the load Latch (R51) and partial commits (R52).
-/

namespace Sys2Proof.Machine

/-! ### Staging banks (R48) -/

/-- The BAR2 offset of a bank: the top of the HBM in service. -/
def Hub.bankBase (h : Hub) (bank : Bool) : Nat :=
  (if h.stackUp 0 && h.stackUp 1 then 0xFE0000000 else 0x7E0000000) + (if bank then 0x10000000 else 0)

/-- Does the stack that holds the banks answer: is its island up (R24)? Two stacks end with the second. -/
def State.bankUp (s : State) : Bool := s.up (.hbm (if s.hub.stackUp 1 then 1 else 0))

/-- A byte of a bank. -/
def State.bankByte (s : State) (bank : Bool) (o : Nat) : Byte :=
  match s.hub.bar2Mem (s.hub.bankBase bank + o) with
  | some (mem, a) =>
    match cellOf mem 0 a with
    | some c => (s.mem.byte c).1
    | none => 0
  | none => 0

/-! ### Units under a new personality -/

/-- A unit's status under its personality. -/
def State.unitStatus (s : State) (u : Nat) : State :=
  match refType u with
  | 1 => s.encSetup (refInst u)
  | 2 => s.decSetup (refInst u)
  | 3 => s.cmpSetup (refInst u)
  | 4 => s.splSetup (refInst u)
  | 6 => s.audcSetup (refInst u)
  | _ => s

/-- A unit takes a personality; without a record it is idle (Table 3.7). A record of an absent unit is skipped (R20). -/
def State.persSet (s : State) (u : Nat) (r : Option PersRec) : State :=
  if s.absentRef u false then s
  else
    let s1 : State := { s with
      fab := { s.fab with pers := s.fab.pers.filter (fun (p : PersRec) => p.unit ≠ u) ++ r.toList }
      ldr := { s.ldr with persWait := kvDel u s.ldr.persWait } }
    match refType u with
    | 11 => s1.vinSetup (refInst u)
    | 12 => s1.tsoSetup (refInst u)
    | _ => s1.unitStatus u

/-- The bytes of the personality in force of a unit. -/
def FabSt.persRaw (f : FabSt) (u : Nat) : Option (List Byte) := (f.pers.find? (·.unit = u)).map (·.raw)

/-- A rebuild of sash `n` changes a unit's personality (R52): at once, unless the unit is shared with another sash and has
its own frame boundary still to come. -/
def State.persChange (s : State) (n : Nat) (pace : Option Nat) (u : Nat) (r : Option PersRec) : State :=
  if s.fab.persRaw u = r.map (·.raw) then { s with ldr := { s.ldr with persWait := kvDel u s.ldr.persWait } }
  else if frameType (refType u) ∧ pace ≠ some u ∧ (s.fab.users (refType u) (refInst u)).any (fun k => k ≠ n) then
    { s with ldr := { s.ldr with persWait := kvPut u r s.ldr.persWait } }
  else s.persSet u r

/-- Units whose status depends on a sash. -/
def FabSt.unitsIn (f : FabSt) (n : Nat) : List Nat :=
  match f.sashes.find? (·.id = n) with
  | some d => ((sashRefs d f.paths).map fun r => refUnit r.1).eraseDups
  | none => []

/-! ### Definitions in image order -/

/-- Insert before the first entry of a higher place. -/
def insertAt {α : Type} (place : α → Nat) (a : α) : List α → List α
  | [] => [a]
  | b :: t => if place a < place b then a :: b :: t else b :: insertAt place a t

def insertAll {α : Type} (place : α → Nat) (new old : List α) : List α := new.foldl (fun l a => insertAt place a l) old

/-- The place of a partial commit's slat (R52): that of the sash's first old slat at the resource, else after every one. -/
def slatPlace (n : Nat) (old : List SlatRec) (t : SlatRec) : Nat :=
  let here := old.filter fun o => o.kind = t.kind ∧ slatIndex o.kind o.index = slatIndex t.kind t.index
  match here.find? (·.sash = n) with
  | some o => o.ord
  | none => old.foldl (fun a o => max a (o.ord + 1)) 0

/-- A sash's definition is replaced. -/
def FabSt.replace (f : FabSt) (h : Hub) (n : Nat) (p : PendDef) : FabSt :=
  let slats := if p.place then p.slats.map fun t => { t with ord := slatPlace n f.slats t } else p.slats
  let f1 : FabSt := { f with
    sashes := insertAll SashRec.pos p.sash.toList (f.sashes.filter (·.id ≠ n))
    paths := insertAll PathRec.pos p.paths (f.paths.filter (·.sash ≠ n))
    slats := insertAll SlatRec.ord slats (f.slats.filter (·.sash ≠ n))
    parts := f.parts.filter (fun q => q.shared || q.owner != n) ++ p.parts }
  f1.recount h

/-! ### Rebuilds (R29, R31, R32) -/

/-- Free ports pass to waiting paths; a stalled sash that waits no more runs (R29). -/
def State.portsPass (s : State) : State :=
  let stalled := (s.fab.sashes.filter fun d => s.hub.sashState d.id = 5).map (·.id)
  let s1 := ({ s with fab := s.fab.handOver } : State).unstall
  (stalled.filter fun n => s1.hub.sashState n = 3).foldl State.hngSashRuns s1

/-- Images that waited for the rebuild arrive, at a core the new definition drops too (R51); a faulted core of the sash leaves FAULTED
(Table 14.9). -/
def State.hngRebuilt (s : State) (n : Nat) (l : List HngRec) : State :=
  ((List.range (s.hub.unitCount 5)).filter fun i => (s.fab.users 5 i).contains n || hngRecs l i != []).foldl (fun (a : State) i =>
    if hngRecs l i ≠ [] then a.hngImage i l else if a.hngState i = 4 then a.hngStart i else a) s

/-- What a sash's tokens in flight finish under (R31): its definition in force, its units' personalities, and the partitions it reaches. -/
def FabSt.former (f : FabSt) (n : Nat) : OldDef :=
  { sash := f.sashes.find? (·.id = n), paths := f.paths.filter (·.sash = n), built := f.built.filter (·.sash = n)
    pers := f.pers.filter fun p => (f.unitsIn n).contains p.unit
    parts := f.parts.filter fun p => p.shared || p.owner == n }

/-- The rebuild or removal of a sash proceeds (R31): a retirement that waited for this boundary takes effect (R32), the path epoch flips,
the definition is replaced, paths that it no longer names give up their ports, and it builds; tokens in flight keep the former definition. A
definition not yet parsed keeps it waiting (R52). -/
def State.rebuild (s0 : State) (n : Nat) : State :=
  match kvGet n s0.fab.pend with
  | none => s0
  | some p =>
    if !p.ready then s0
    else
      let s := s0.retireAt (s0.fab.unitsIn n)
      let pace := s.fab.pacer n
      let was := s.fab.unitsIn n
      let f0 : FabSt := { s.fab with
        pend := kvDel n s.fab.pend
        epochs := kvPut n (!((kvGet n s.fab.epochs).getD false)) s.fab.epochs
        olds := kvPut n (s.fab.former n) s.fab.olds }
      let f1 := if p.inForce then f0 else f0.replace s.hub n p
      let keep := fun (b : BuiltPath) => b.sash != n || (!b.waiting && f1.paths.any fun q => q.sash = n ∧ q.id = b.id ∧ q.dst = b.dst)
      let f2 : FabSt := { f1 with built := f1.built.filter keep }
      let s1 : State := { s with fab := f2, hub := s.hub.set1 GLB.SASH_STAT.PENDING n 0 }
      let s2 := (p.units.foldl (fun (a : State) u => a.persChange n pace u (p.pers.find? (·.unit = u))) s1).portsPass
      let s3 := (s2.panesGone n none fun _ _ => false)
      let s4 : State := { s3 with enc := { s3.enc with rends := s3.enc.rends.map fun e =>
        if e.1 / 8 = n then (e.1, { e.2 with panes := none }) else e } }
      let s5 :=
        if s4.fab.sashes.any (·.id = n) then
          let b := s4.startBuild [n]
          if b.hub.sashState n = 1 then ({ b with fab := b.fab.unbuild n } : State).portsPass else b
        else
          let gone : State := { s4 with
            hub := (s4.hub.sashEnter n 0 0).set1 GLB.SASH_STAT.EMERG_HELD n 0
            fab := { s4.fab.unbuild n with held := s4.fab.held.filter (fun q => q.req.sash ≠ n) } }
          ({ gone with hub := gone.hub.set1 GLB.SASH_STAT.SPARE n 0 } : State).portsPass
      (((was ++ s5.fab.unitsIn n).eraseDups.foldl State.unitStatus s5).hngRebuilt n p.hngs).markSpares

/-- A rebuild or removal of a sash is committed, or its definition has been parsed (R31, R32, R52): it drains from RUNNING,
waits for a build in progress, and proceeds at once where there is nothing to drain. A waiting path is withdrawn at once. -/
def State.drainTo (s : State) (n : Nat) (p : PendDef) : State :=
  let st := s.hub.sashState n
  let once := st ≠ 2 ∧ (((kvGet n s.fab.pend).map (·.atOnce)).getD false ∨ (st ≠ 3 ∧ st ≠ 4))
  let s1 : State := { s with
    hub := s.hub.set1 GLB.SASH_STAT.PENDING n 1
    fab := { s.fab with pend := kvPut n { p with atOnce := decide once } s.fab.pend } }
  if st = 2 then s1
  else if once ∧ p.ready then s1.rebuild n
  else if st = 4 then s1
  else { s1 with
    hub := s1.hub.sashEnter n 4 0
    fab := { s1.fab with built := s1.fab.built.filter fun b => b.sash ≠ n ∨ !b.waiting } }

/-- SASH_BUILD_DONE (R31, Table 2.8): the sash runs, or waits at an exclusive port; a rebuild or removal committed during the
build then proceeds (R32). -/
def execSashBuildDone (sash : Nat) (s : State) : Host.Outcome State Fault Refusal :=
  let st := s.hub.sashState sash
  .next (if st = 2 ∨ (st = 6 ∧ kvHas sash s.fab.pend) then
      let s1 := if st = 6 then s else match s.fab.waitsAt sash with
        | some r => { s with hub := s.hub.sashEnter sash 5 r }
        | none => ({ s with hub := s.hub.sashEnter sash 3 0 } : State).hngSashRuns sash
      match kvGet sash s1.fab.pend with
      | some p => s1.drainTo sash p
      | none => s1
    else s)

/-! ### Starting a load (R46, R49, R53) -/

/-- The sash of a partial commit is rebuilt from its definition in force (R52, R53). -/
def State.rebuildInForce (s : State) (n : Nat) : State := s.drainTo n { inForce := true }

/-- `VARIANT` lacks the running part. -/
def Hub.variantMiss (h : Hub) (v : Nat) : Bool := !(v.testBit (h.get GLB.VARIANT.PART) && h.get GLB.VARIANT.PART < 12)

/-- Header flags at the start of a load with a correct MAGIC. -/
def Hub.headerFlags (h : Hub) (x : ImgHeader) : Hub :=
  let miss := h.variantMiss x.variant
  let other := x.format != 1
  let h1 := ((h.set IMG.STATUS.NO_MAGIC 0).set IMG.STATUS.VAR_MISS (if miss then 1 else 0)).set IMG.STATUS.FMT_OTHER (if other then 1 else 0)
  let h2 := if miss then h1.raise { code := 0x0303 } else h1
  if other then h2.raise { code := 0x0304 } else h2

/-- A wrong MAGIC ends the load (R46). -/
def Hub.noMagic (h : Hub) : Hub := (h.set IMG.STATUS.NO_MAGIC 1).raise { code := 0x0302 }

/-- How many bytes of a bank the loader takes at most: 16 MiB where the flash copy was cut (R47), else the bank. -/
def Hub.loadCap (h : Hub) (bank : Bool) : Nat := if h.get IMG.STATUS.FLASH_CUT = 1 ∧ !bank ∧ h.get IMG.STATUS.RES_VALID = 0 then 16777216 else 268435456

/-- The loader reads the header of its commit (R46). A wrong MAGIC ends the load. -/
def State.loadRead (s : State) (c : Commit) : State :=
  if imgMagic (s.bankByte c.bank) then
    let h := imgHeader (s.bankByte c.bank) (s.hub.loadCap c.bank)
    { s with hub := s.hub.headerFlags h, ldr := { s.ldr with busy := some (c, some h) } }
  else
    let s1 : State := { s with hub := s.hub.noMagic.set IMG.STATUS.BUSY 0, ldr := { s.ldr with busy := none } }
    if c.scope then s1.rebuildInForce c.sash else s1

/-- The loader starts on a commit: it reads the header, once no pace emergency holds it (R50). -/
def State.loadStart (s : State) (c : Commit) : State :=
  let s1 : State := { s with hub := s.hub.set IMG.STATUS.BUSY 1, ldr := { s.ldr with busy := some (c, none) } }
  if s.hub.get GLB.PACE_SUM.EMERG = 1 then s1 else s1.loadRead c

/-- A Latch takes GO (R49): a partial commit's sash drains at once (R52); the loader starts, or the commit takes the queue
slot, from which it may displace another (R53). -/
def State.commitGo (s : State) (c : Commit) : State :=
  let s1 := if c.scope then s.drainTo c.sash { ready := false, place := true } else s
  if s1.ldr.busy.isNone ∧ s1.ldr.waits.isNone then s1.loadStart c
  else
    let s2 := match s1.ldr.queue with
      | some q => if q.scope ∧ ¬(c.scope ∧ c.sash = q.sash) then s1.rebuildInForce q.sash else s1
      | none => s1
    { s2 with hub := s2.hub.set IMG.STATUS.QUEUED 1, ldr := { s2.ldr with queue := some c } }

/-- An idle loader starts on a queued commit (R49). -/
def State.loadNext (s : State) : State :=
  match s.ldr.queue with
  | some q =>
    if s.ldr.busy.isNone ∧ s.ldr.waits.isNone then
      ({ s with hub := s.hub.set IMG.STATUS.QUEUED 0, ldr := { s.ldr with queue := none } } : State).loadStart q
    else s
  | none => s

/-- The loader is idle again: a queued commit starts. -/
def State.loadEnd (s : State) : State :=
  ({ s with hub := s.hub.set IMG.STATUS.BUSY 0, ldr := { s.ldr with busy := none, waits := none } } : State).loadNext

/-- A header read that a pace emergency held takes place (R50). -/
def State.loadFree (s : State) : State :=
  match s.ldr.busy with
  | some (c, none) => if s.hub.get GLB.PACE_SUM.EMERG = 1 then s else (s.loadRead c).loadNext
  | _ => s

/-! ### The load Latch (R51) -/

/-- The units of a definition. -/
def defUnits (d : SashRec) (paths : List PathRec) : List Nat :=
  (((sashRefs d paths).map fun r => refUnit r.1).filter fun u => refType u ≠ 0).eraseDups

/-- Is a sash changed, in bytes, from what is in force? -/
def FabSt.changed (f : FabSt) (img : Image) (d : SashRec) : Bool :=
  let us := defUnits d img.paths
  (f.sashes.find? (·.id = d.id)).map (·.raw) != some d.raw ||
    (f.paths.filter (·.sash = d.id)).map PathRec.raw != (img.paths.filter (·.sash = d.id)).map PathRec.raw ||
    (f.slats.filter (·.sash = d.id)).map SlatRec.raw != (img.slats.filter (·.sash = d.id)).map SlatRec.raw ||
    us.any (fun u => f.persRaw u != (img.pers.find? (·.unit = u)).map (·.raw)) ||
    (f.parts.filter fun p => !p.shared && p.owner = d.id).map PartRec.raw != (img.parts.filter fun p => !p.shared && p.owner = d.id).map PartRec.raw

/-- The definition an image gives a sash. `hold` names the cores whose images wait for the rebuild. -/
def Image.pend (img : Image) (n hold : Nat) (units : List Nat) : PendDef :=
  { sash := img.sashes.find? (·.id = n), paths := img.paths.filter (·.sash = n), slats := img.slats.filter (·.sash = n)
    pers := img.pers.filter fun p => units.contains p.unit
    units := units, parts := img.parts.filter (fun p => !p.shared && p.owner = n)
    hngs := (img.hngs.map fun r => { r with cores := r.cores &&& hold }).filter fun r => r.cores ≠ 0 }

/-- An image's slats as entered, its partitions as cut short, its personalities without those of absent units. -/
def State.fitImage (s : State) (img : Image) : Image :=
  { img with
    slats := (enterSlats (fun _ => 0) [] img.slats).1
    parts := img.parts.map s.hub.cutPart
    pers := img.pers.filter fun p => !s.absentRef p.unit false }

/-- Identity of the resident image: `IMG.STATUS.RES_BANK`, BUILD and DIGEST. -/
def Hub.resident (h : Hub) (bank : Bool) (x : ImgHeader) : Hub :=
  let h1 := ((h.set IMG.STATUS.RES_VALID 1).set IMG.STATUS.RES_BANK (if bank then 1 else 0)).set64 IMG.BUILD_LO.BUILD 0 x.build
  (List.range 8).foldl (fun (a : Hub) k => a.set1 IMG.DIGEST.DIGEST k (leNat ((x.digest.drop (4 * k)).take 4))) h1

/-- The load Latch applies an image (R51): removed and changed sashes drain, new ones build, unchanged ones keep running;
SHARED partitions and the personalities of no draining sash are in force at once, images reach idle cores, and running
services take their defaults. A sash that a later partial commit already drains takes this image's definition in its place: R53 orders the
two by their commits, and by which the sash builds is not said (DESIGN CHOICE, assumption 100). -/
def State.loadLatch (s : State) (bank : Bool) (raw : Image) : State :=
  let img := s.fitImage raw
  let f := s.fab
  let gone := (f.sashes.filter fun d => !(img.sashes.any (·.id = d.id))).map (·.id)
  let isNew := fun (d : SashRec) => !(f.sashes.any (·.id = d.id)) && !kvHas d.id f.pend
  let drains := fun (d : SashRec) => !isNew d && (kvHas d.id f.pend || f.changed img d)
  let late := gone ++ (img.sashes.filter drains).map (·.id)
  let waits := fun (n : Nat) => late.contains n
  let run := fun (i : Nat) => (f.users 5 i).filter fun n => s.hub.sashState n = 3
  let hold := ((List.range 64).filter fun i => run i ≠ []).foldl (fun a i => a + 2 ^ i) 0
  let oldUnits := fun (n : Nat) => f.unitsIn n
  let newUnits := fun (n : Nat) => ((img.sashes.find? (·.id = n)).map fun d => defUnits d img.paths).getD []
  let lateUnits := (late.flatMap fun n => oldUnits n ++ newUnits n).eraseDups
  let f1 : FabSt := { f with
    sashes := insertAll SashRec.pos (f.sashes.filter fun d => waits d.id) (img.sashes.filter fun d => !waits d.id)
    paths := insertAll PathRec.pos (f.paths.filter fun p => waits p.sash) (img.paths.filter fun p => !waits p.sash)
    slats := insertAll SlatRec.ord (f.slats.filter fun t => waits t.sash) (img.slats.filter fun t => !waits t.sash)
    parts := img.parts.filter (fun p => p.shared || !waits p.owner) ++ f.parts.filter fun p => !p.shared && waits p.owner }
  let s1 : State := { s with
    hub := s.hub.resident bank img.hdr
    fab := f1.recount s.hub
    ldr := { s.ldr with hngs := img.hngs, svcs := img.svcs } }
  let touched := ((f.pers ++ img.pers).map PersRec.unit).eraseDups
  let s2 := (touched.filter fun u => !lateUnits.contains u).foldl (fun (a : State) u =>
    let r := img.pers.find? (·.unit = u)
    if a.fab.persRaw u = r.map (·.raw) then a else a.persSet u r) s1
  let s3 := s2.startBuild ((img.sashes.filter isNew).map (·.id))
  let s4 := late.foldl (fun (a : State) n =>
    let us := (oldUnits n ++ newUnits n).eraseDups
    let mine := (us.filter fun u => refType u = 5).foldl (fun a u => a + (if hold.testBit (refInst u) then 2 ^ refInst u else 0)) 0
    a.drainTo n (img.pend n mine us)) s3
  let s5 := (((List.range (s.hub.unitCount 5)).filter fun i => !hold.testBit i).foldl (fun (a : State) i => a.hngImage i img.hngs) s4).svcLoad img.svcs
  (((img.sashes.flatMap fun d => defUnits d img.paths).eraseDups.foldl State.unitStatus s5).portsPass).markSpares

/-! ### The end of parsing (R51, R52) -/

/-- What a partial commit takes from its bank (R52): PERSONALITY records of the units that its SASH, PATH and SLAT records name. -/
def State.partial_ (s : State) (img : Image) (n : Nat) : PendDef × List Nat :=
  let mine := img.slats.filter (·.sash = n)
  let others := fun (k : Nat × Nat) => s.fab.slats.countP fun t => t.sash ≠ n ∧ (t.kind, slatIndex t.kind t.index) = k
  let entered := enterSlats others [] mine
  let slatUnits := (mine.filter fun t => (t.kind = 0 ∨ t.kind = 4) ∧ refType t.index ≠ 0).map fun t => refUnit t.index
  let us := (((img.sashes.find? (·.id = n)).map fun d => defUnits d img.paths ++ slatUnits).getD []).eraseDups
  let named := us.filter fun u => img.pers.any (·.unit = u) && !s.absentRef u false
  ({ (({ img with hngs := [], parts := img.parts.map s.hub.cutPart } : Image).pend n 0 named) with slats := entered.1, place := true }, entered.2)

/-- Slats that were not loaded are counted and reported (R57). -/
def Hub.slatDrops (h : Hub) (l : List Nat) : Hub :=
  let h1 := h.set IMG.STATUS.SLAT_DROPS (min l.length 65535)
  match l with
  | [] => h1
  | o :: _ => h1.raise { code := 0x0306, detail := [o] }

/-- SHADOW entries write the shadows, in image order (R45). -/
def State.shadowRecs (s : State) (l : List ShadowRec) : State :=
  l.foldl (fun (a : State) r => if 0x3000000 ≤ r.addr then a else a.shadowPut 0 r.addr (BitVec.ofNat 32 r.mask) (BitVec.ofNat 32 r.value)) s

/-- The load Latch is requested: a NEXT commit that seals every shadow write accepted before it (R51, R84). Where 16 Latches
are pending the loader waits. -/
def State.loadRequest (s : State) (bank : Bool) (img : Image) (hcLeft : Nat) : State :=
  if s.lch.pend.length < 16 then
    let l : Latch := { num := 0, at_ := s.nextBound hcLeft, items := s.lch.openSet, load := true }
    let s1 := ({ s with lch := { s.lch with openSet := [] } } : State).latchAccept l
    ({ s1 with ldr := { s1.ldr with images := s1.ldr.images ++ [(s1.hub.get64 LCH.ACCEPTED_LO.NUM 0, bank, img)] } } : State).loadEnd
  else { s with ldr := { s.ldr with busy := none, waits := some (bank, img) } }

/-- Does the queue slot hold a later partial commit of the same sash? Its definition replaces the one just parsed (R32, R53). -/
def LdrSt.superseded (l : LdrSt) (c : Commit) : Bool :=
  match l.queue with
  | some q => q.scope && q.sash == c.sash
  | none => false

/-- The loader finishes parsing a commit (R51, R52). -/
def State.loadParsed (s : State) (c : Commit) (hdr : ImgHeader) (hcLeft : Nat) : State :=
        let img := readImage (s.bankByte c.bank) hdr
        let s1 : State := { s with hub := s.hub.raise { code := 0x0301, detail := [if c.bank then 1 else 0, if c.scope then 1 else 0] } }
        if c.scope then
          let p := s1.partial_ img c.sash
          let s2 : State := { s1 with hub := s1.hub.slatDrops p.2 }
          (if s.ldr.superseded c then s2 else s2.drainTo c.sash p.1).loadEnd
        else
          let drops := (enterSlats (fun _ => 0) [] img.slats).2
          (({ s1 with hub := s1.hub.slatDrops drops } : State).shadowRecs img.shadows).loadRequest c.bank img hcLeft

/-- IMG_DONE (R51, R52): the loader finishes parsing, with `hcLeft` hc left of the period. During a pace emergency it is held, and so it
is while its island is down or the core is frozen (R24, R50, R391). -/
def execImgDone (hcLeft : Nat) (s : State) : Host.Outcome State Fault Refusal :=
  .next (if s.hub.get GLB.PACE_SUM.EMERG = 1 ∨ s.hub.get GLB.STATUS.FROZEN = 1 then s
    else
      let t := s.loadFree
      match t.ldr.busy with
      | some (c, some hdr) => if t.bankUp then t.loadParsed c hdr hcLeft else t
      | _ => t)

end Sys2Proof.Machine
end

