-- ==== Sys2Proof/Machine/Latch.lean ====
section
/-!
DEFINITION. The Latch (chapter 5): commits (R81–R83), sealed items coming into force by domain (R79, R82, R84), the guard
decision of a group (R87), and the work boundaries at which waiting items take effect.
-/

namespace Sys2Proof.Machine

/-! ### Items coming into force -/

/-- One item comes into force: a register's SH bits with what hangs on them, or a held change. -/
def State.itemApply (s : State) (e : OpenEntry) : State :=
  match e.item with
  | .write off mask val =>
    let m := if off = 0x300004 then mask &&& ~~~ IMG.COMMIT.GO.mask else mask
    let old := s.hub.rd off
    let s1 : State := { s with hub := s.hub.wr off ((old &&& ~~~ m) ||| (val &&& m)) }
    if 0x1900000 ≤ off ∧ off < 0x1910000 then
      if s1.hub.rd off = old then s1 else s1.mbReset ((off - 0x1900000) / 0x400) (off % 0x400 == 0xC)
    else if off = 0x1E00000 ∧ LNK.CFG.DEVICE.of (s1.hub.rd off) ≠ LNK.CFG.DEVICE.of old then s1.helloAll
    else if off = 0x1B00000 ∧ s1.hub.rd off ≠ old then s1.tevCompare
    else s1
  | .change i =>
    match i with
    | .legModify _ _ => s.fwdChange i
    | .subAdd _ _ => s.fwdChange i
    | .subModify _ _ => s.fwdChange i
    | .subDel _ _ => s.fwdChange i
    | .encConfig _ b => s.encConfig b
    | .splRecvAdd _ _ => s.splChange i
    | .splRecvSet _ _ => s.splChange i
    | .splRecvDel _ _ => s.splChange i
    | .audNodeSet _ _ => s.audChange i
    | .keyUnwrapDone _ _ _ _ => s.keyChange i
    | _ => s

/-- Does a list of items write GO of `IMG.COMMIT` as 1? The last write of the bit decides. -/
def takesGo (l : List OpenEntry) : Bool :=
  l.foldl (fun a e => match e.item with
    | .write off m v => if off = 0x300004 ∧ (m &&& IMG.COMMIT.GO.mask) ≠ 0 then (v &&& IMG.COMMIT.GO.mask) != 0 else a
    | .change _ => a) false

/-- The ports whose gate list registers a list of items writes (R145). -/
def gclPorts (l : List OpenEntry) : List Nat :=
  (l.filterMap fun e => match e.item with
    | .write off _ _ =>
      if 0x801000 ≤ off ∧ off < 0x803000 then some ((off - 0x801000) / 0x100)
      else if 0x804000 ≤ off ∧ off < 0x80C000 then some ((off - 0x804000) / 0x400) else none
    | .change _ => none).eraseDups

/-- Layers whose REDRAW a list of items writes as 1, as register offsets (R200). -/
def redrawsIn (l : List OpenEntry) : List Nat :=
  l.filterMap fun e => match e.item with
    | .write off m v =>
      if 0x1200000 ≤ off ∧ off < 0x1280000 ∧ 0x200 ≤ off % 0x10000 ∧ off % 0x10000 < 0x400 ∧ off % 32 = 0 ∧ (v &&& m &&& CMP.LCTL.REDRAW.mask) ≠ 0
      then some off else none
    | .change _ => none

/-- With the host as boot source the image of step 9 brings the lane plan, whose ports count as built from the load Latch on (R43, R48, R418);
their bring-up follows in the late step 7. -/
def State.hostPlan (s : State) (bank : Bool) : State :=
  if s.start.phase = .cold 9 ∧ !s.start.lanesEarly then
    { s with fab := { s.fab with ports := s.hub.lanePlan (imgPorts (s.bankByte bank) (imgHeader (s.bankByte bank) 268435456)) } }
  else s

/-- After a change of binding: legs that their VF made and no longer owns are the PF's alone (R366). -/
def State.disown (s : State) : State :=
  let left := (s.fwd.legs.filter fun l => l.2.maker != 0 && s.hub.owner HIF.VF_LEG.BASE l.1 != l.2.maker && !s.hub.orphans.contains l.1).map (·.1)
  { s with hub := { s.hub with orphans := s.hub.orphans ++ left } }

/-- A Latch applies (R79, R84): the loader's image first; each domain's items at once or at its next work boundary; then GO,
gate lists, and the record of the Latch. `late` is the reason it is late at this instant, or 0. -/
def State.latchApply (s : State) (l : Latch) (late : Nat) : State :=
  let s0 : State := { s with lch := { s.lch with pend := s.lch.pend.filter fun (p : Latch) => p.num ≠ l.num } }
  let s1 := if late = 0 then s0 else s0.latchLate l.num late
  let s2 := if l.load then
      match s1.ldr.images.find? (·.1 = l.num) with
      | some (_, bank, img) =>
        (({ s1 with ldr := { s1.ldr with images := s1.ldr.images.filter (·.1 ≠ l.num) } } : State).hostPlan bank).loadLatch bank img
      | none => s1
    else s1
  let now := l.items.filter fun e => s2.domainNow e.item.domain
  let wait := (l.items.filter fun e => !s2.domainNow e.item.domain).map fun e => (e.item.domain, e)
  let s3 := now.foldl State.itemApply { s2 with lch := { s2.lch with waiting := s2.lch.waiting ++ wait } }
  let s4 := (redrawsIn l.items).foldl (fun (a : State) off => a.shadowClear l.num off CMP.LCTL.REDRAW.mask) s3
  let s5 := (gclPorts now).foldl State.gclPend s4
  let s6 := if takesGo l.items then
      (s5.shadowClear l.num 0x300004 IMG.COMMIT.GO.mask).commitGo
        { bank := s5.hub.get IMG.COMMIT.BANK == 1, scope := s5.hub.get IMG.COMMIT.SCOPE == 1, sash := s5.hub.get IMG.COMMIT.SASH }
    else s5
  let result := if late ≠ 0 then late else if l.reason ≠ 0 then l.reason else if l.missing ≠ 0 then 5 else 0
  ({ s6 with hub := s6.hub.latchLast l.num s6.hub.time.period result l.missing } : State).latchStatus.disown

/-- Is a Latch held back by an earlier one that holds a field of the same domain (R82)? -/
def LchSt.blocked (l : LchSt) (x : Latch) : Bool :=
  l.pend.any fun p => decide (p.num < x.num) && p.doms.any x.doms.contains

/-- One Latch at an instant: `due` is its lateness if its instant has come. A group Latch decides first, where it has not. -/
def State.latchTurn (due : Latch → Option Nat) (s : State) (num : Nat) : State :=
  match s.lch.pend.find? (·.num = num) with
  | none => s
  | some l =>
    match (if l.reason = 2 then some 2 else due l) with
    | none => s
    | some r =>
      let s1 := s.latchDecide num
      match s1.lch.pend.find? (·.num = num) with
      | none => s1
      | some x =>
        if s1.lch.blocked x then
          { s1 with lch := { s1.lch with pend := s1.lch.pend.map fun p => if p.num = num then { p with reason := 2 } else p } }
        else s1.latchApply { x with reason := if x.reason = 2 then 0 else x.reason } r

/-- Every Latch in the order of its number (R82). -/
def State.latchPass (s : State) (due : Latch → Option Nat) : State := (s.lch.pend.map Latch.num).foldl (State.latchTurn due) s

/-- Lateness of a Latch at a Louvre boundary (R83): `step` at the boundary of a step of the counter. -/
def State.boundaryDue (s : State) (step : Bool) (l : Latch) : Option Nat :=
  match l.at_ with
  | .bound n => if n ≤ s.fab.boundaries ∧ s.guardPast step l.acc then some 0 else none
  | .sched raw =>
    let ns := s.hub.instant raw
    if s.hub.time.total < ns then none
    else if step ∧ s.hub.time.total ≠ ns then some 3
    else if s.lch.resumed ∧ (Time.ofNs ns).period < s.hub.time.period then some 4
    else some 0
  | .domain _ => none

/-- The Latches of a Louvre boundary. -/
def State.boundaryLatches (s : State) (step : Bool) : State :=
  let s1 := s.latchPass (s.boundaryDue step)
  { s1 with lch := { s1.lch with resumed := false } }

/-! ### Work boundaries (R79) -/

/-- Domains that share a work boundary with one: a sash with its pacing unit. -/
def FabSt.sameBoundary (f : FabSt) (d : Domain) : List Domain :=
  match d with
  | .device => []
  | .unit u => .unit u :: (f.sashes.filter fun x => f.pacer x.id = some u).map fun x => .sash x.id
  | .sash n => match f.pacer n with
    | some u => [.sash n, .unit u]
    | none => [.sash n]

/-- A work boundary of the domains `ds` (R79): Latches of a domain commit whose instant it is, items that waited for it, and
personalities of the unit (R52). -/
def State.workBoundary (s : State) (ds : List Domain) : State :=
  let s1 := s.latchPass fun l => match l.at_ with
    | .domain d => if ds.contains d ∧ l.acc + guardNs ≤ s.hub.elapsed then some 0 else none
    | _ => none
  let mine := s1.lch.waiting.filter fun e => ds.contains e.1
  let s2 : State := { s1 with lch := { s1.lch with waiting := s1.lch.waiting.filter fun e => !ds.contains e.1 } }
  let s3 := mine.foldl (fun (a : State) e => a.itemApply e.2) s2
  (s3.ldr.persWait.filter fun e => ds.contains (.unit e.1)).foldl (fun (a : State) e => a.persSet e.1 e.2) s3

/-- Domains whose work boundary no command reports: those that take their fields at once, or whose unit has fallen idle. Their domain
commits fall due once the guard has passed. -/
def State.quietBoundary (s : State) : State :=
  s.workBoundary ((s.lch.pend.filterMap fun l => match l.at_ with
    | .domain d => if s.domainNow d then some d else none
    | _ => none).eraseDups ++ ((s.lch.waiting.map Prod.fst).filter s.domainNow).eraseDups)

/-! ### Commits -/

/-- A commit of MODE NEXT (R81). -/
def State.commitNext (s : State) (fn hcLeft : Nat) : State :=
  if 16 ≤ s.lch.pend.length then s.latchRefuse
  else
    ({ s with lch := { s.lch with openSet := s.lch.openSet.filter fun e => !sealedBy fn e } } : State).latchAccept
      { num := 0, at_ := s.nextBound hcLeft, items := s.lch.openSet.filter (sealedBy fn) }

/-- The time in ns that the SCHED registers name, as written (R313). -/
def Hub.schedRaw (h : Hub) : Nat :=
  (h.get LCH.SCHED_SEC_HI.SEC * 2 ^ 32 + h.get LCH.SCHED_SEC_LO.SEC) * 1000000000 + min (h.get LCH.SCHED_NS.NS) 999999999

/-- The boundary at or after a time `raw`, none where it has passed or falls within the guard (R83). -/
def State.schedBound (s : State) (raw hcLeft : Nat) : Option Nat :=
  let b := ceilDiv raw 125000 * 125000
  let at_ := s.hub.instant b
  let next := (s.hub.time.period + 1) * 125000
  if at_ < next ∨ (at_ = next ∧ hcLeft < 4096) then none else some b

/-- The guard of a group, in ns; 0 periods act as 1 (R87, Table 5.8). -/
def Hub.guardPeriods (h : Hub) : Nat := max (h.get LCH.GUARD.PERIODS) 1 * 125000

/-- A commit of MODE SCHED (R81, R83, R87): late within the guard it applies as a NEXT commit; with GROUP it sends its ARM, and
decides at acceptance where the guard time has passed. -/
def State.commitSched (s : State) (fn : Nat) (val : Word) (hcLeft : Nat) : State :=
  if 16 ≤ s.lch.pend.length then s.latchRefuse
  else
    let t := s.hub.schedRaw
    let b := s.schedBound t hcLeft
    let group := LCH.COMMIT.GROUP.of val == 1
    let tag := s.hub.get LCH.SCHED_TAG.TAG
    let l : Latch :=
      { num := 0, items := s.lch.openSet.filter (sealedBy fn), group := group, abort := LCH.COMMIT.ABORT.of val == 1, tag := tag, named := t
        decided := !group, reason := if b.isNone then 1 else 0
        at_ := match b with
          | some ns => .sched ns
          | none => s.nextBound hcLeft }
    let s1 := ({ s with lch := { s.lch with openSet := s.lch.openSet.filter fun e => !sealedBy fn e } } : State).latchAccept l
    let num := s1.hub.get64 LCH.ACCEPTED_LO.NUM 0
    let s2 := if b.isNone then s1.latchLate num 1 else s1
    let arm := (leBytes 2 tag ++ leBytes 2 0 ++ leBytes 6 (t / 1000000000) ++ leBytes 2 0 ++ leBytes 4 (t % 1000000000))
    let s3 := if group then s2.jlSendAll s2.hub.groupMembers 5 0 arm else s2
    if group ∧ (s.hub.instant (b.getD 0) ≤ s.hub.time.total + s.hub.guardPeriods) then s3.latchDecide num else s3

/-- The domain that a commit of MODE DOMAIN names. -/
def commitDomain (val : Word) : Domain :=
  if LCH.COMMIT.DKIND.of val = 1 then .sash (LCH.COMMIT.DOMAIN.of val % 1024) else .unit (refUnit (LCH.COMMIT.DOMAIN.of val))

/-- A commit of MODE DOMAIN (Table 5.1): only open writes of the domain are sealed. -/
def State.commitDom (s : State) (fn : Nat) (val : Word) : State :=
  if 16 ≤ s.lch.pend.length then s.latchRefuse
  else
    let d := commitDomain val
    let mine := fun (e : OpenEntry) => sealedBy fn e && e.item.domain == d
    ({ s with lch := { s.lch with openSet := s.lch.openSet.filter fun e => !mine e } } : State).latchAccept
      { num := 0, at_ := .domain d, items := s.lch.openSet.filter mine }

/-- Does a write to BAR0 of the register map reach the device (R24, R373, R399)? -/
def State.barLive (s : State) : Bool := s.hub.hostIn

/-- LATCH_COMMIT_NEXT (R81), with `hcLeft` hc left of the Louvre period. -/
def execLatchCommitNext (fn : Nat) (val : Word) (hcLeft : Nat) (s : State) : Host.Outcome State Fault Refusal :=
  let _ := val
  .next (if s.barLive then s.commitNext fn hcLeft else s)

/-- LATCH_COMMIT_SCHED (R83, R87). -/
def execLatchCommitSched (fn : Nat) (val : Word) (hcLeft : Nat) (s : State) : Host.Outcome State Fault Refusal :=
  .next (if s.barLive then s.commitSched fn val hcLeft else s)

/-- LATCH_COMMIT_DOMAIN (R79). -/
def execLatchCommitDomain (fn : Nat) (val : Word) (s : State) : Host.Outcome State Fault Refusal :=
  .next (if s.barLive then s.commitDom fn val else s)

/-! ### ARMs (R87) -/

/-- An ARM is kept by tag and time until 1 s after the time it names. -/
def State.armIn (s : State) (a : Arm) : State :=
  if s.lch.arms.contains a ∨ s.hub.instant (a.sec * 1000000000 + a.ns) + 1000000000 < s.hub.time.total then s
  else { s with lch := { s.lch with arms := s.lch.arms ++ [a] } }

/-- ARM_RECEIVE (R87). -/
def execArmReceive (dev tag sec ns : Nat) (s : State) : Host.Outcome State Fault Refusal := .next (s.armIn ⟨dev % 2048, tag % 65536, sec, ns⟩)

/-- ARM_EXPIRY (R87): 1 s after the time it names a kept ARM is discarded. -/
def execArmExpiry (dev tag sec ns : Nat) (s : State) : Host.Outcome State Fault Refusal :=
  .next (if s.hub.time.total < s.hub.instant (sec * 1000000000 + ns) + 1000000000 then s
    else { s with lch := { s.lch with arms := s.lch.arms.filter fun a => a ≠ ⟨dev % 2048, tag % 65536, sec, ns⟩ } })

/-- Has the guard time of a Latch come: its instant minus `LCH.GUARD` periods (R87)? -/
def State.guardTime (s : State) (num : Nat) : Bool :=
  match s.lch.pend.find? (·.num = num) with
  | some l => decide (s.boundNs l.at_ ≤ s.hub.time.total + s.hub.guardPeriods)
  | none => false

/-- GROUP_GUARD_DECISION (R87): the guard time of Latch `num`. A cancelled Latch lets those go on that waited for it. -/
def execGroupGuardDecision (num : Nat) (s : State) : Host.Outcome State Fault Refusal :=
  .next (if s.hub.get GLB.STATUS.FROZEN = 1 ∨ !s.guardTime num then s else (s.latchDecide num).latchPass fun _ => none)

end Sys2Proof.Machine
end

