-- ==== Sys2Proof/Machine/Boundaries.lean ====
section
/-!
DEFINITION. Commands at which a unit or a sash reaches its work boundary (R31, R79): a frame boundary of an encoder, decoder,
composer or VIN, and the boundary a draining sash waits for.
-/

namespace Sys2Proof.Machine

/-- A unit is at its work boundary. -/
def State.frameBoundary (s : State) (ty i : Nat) : State := s.workBoundary (s.fab.sameBoundary (.unit (mkRef ty i)))

/-- STRIPE_START (R168): stripe 0 stands at the frame boundary, once the frame before it is whole. -/
def execStripeStart (x : EncStart) (s : State) : Host.Outcome State Fault Refusal :=
  let whole := match (s.enc.share x.unit x.sash x.rend).last with
    | some f => f.stripes.all (·.done)
    | none => true
  .next ((if x.k = 0 ∧ whole = true then s.frameBoundary 1 x.unit else s).stripeStart x)

/-- Layers of composer `u` whose REDRAW is 1 in the Latches taken at a frame boundary: `s` before it, `t` after it (R200). -/
def redrawsTaken (s t : State) (u : Nat) : List Nat :=
  let waited := (s.lch.waiting.filter fun e => e.1 = .unit (mkRef 3 u)).map Prod.snd
  let taken := (s.lch.pend.filter fun l => !t.lch.pend.any fun m => m.num = l.num).flatMap Latch.items
  ((redrawsIn (waited ++ taken)).filter fun o => (o - 0x1200000) / 0x10000 = u).map fun o => o % 0x10000 % 0x200 / 32

/-- CMP_FRAME_INSTANT (R192): t_m is the composer's frame boundary. -/
def execCmpFrameInstant (unit : Nat) (poisonTiles : List Nat) (s : State) : Host.Outcome State Fault Refusal :=
  if s.cmpClass unit ≠ 0 ∧ (s.cmp.unit unit).frames ≠ [] then .next (s.cmpInstant unit poisonTiles [])
  else
    let s1 := s.frameBoundary 3 unit
    .next (s1.cmpInstant unit poisonTiles (redrawsTaken s s1 unit))

/-- DEC_FRAME_DECODE (R183): the end of a frame of any context is the decoder's boundary. -/
def execDecFrameDecode (sash stream : Nat) (p : DecPicture) (s : State) : Host.Outcome State Fault Refusal :=
  .next ((match kvGet (ctxKey sash stream) s.dec.ctxs with
    | some c => s.frameBoundary 2 c.unit
    | none => s).decFrame sash stream p)

/-- VIN_STRIPE_STREAM (R228): at C_0 stripe 0 stands at the frame boundary. -/
def execVinStripeStream (vin frame k : Nat) (s : State) : Host.Outcome State Fault Refusal :=
  let p := s.fab.vinPers vin
  let starts := k = 0 ∧ (((s.bio.vin vin).frames.find? (·.num = frame)).map fun f => s.vinDue vin p f.cf 0 && !f.streamed.contains 0).getD false
  .next ((if starts then s.frameBoundary 11 vin else s).vinStream vin frame k)

/-- HNG_BUNDLE_EXECUTE (R276, R287): one bundle of a core under a grant of `sash`; the end of its grain is the core's work boundary (R31,
Table 4.2). -/
def execHngBundleExecute (core sash : Nat) (s : State) : Host.Outcome State Fault Refusal :=
  let t := s.hngExecute core sash
  .next (if t.unitBusy (mkRef 5 core) then t else t.frameBoundary 5 core)

/-- HNG_HALT (Table 14.11): a core that halts is at its work boundary. -/
def execHngHalt (e : CmdEnv) (body : List Byte) (s : State) : Host.Outcome State Fault Refusal :=
  let ref := bodyN body 0 2
  let n := refInst ref
  .next (match s.hngRefused e ref with
    | some st => s.done e 0x0803 st []
    | none => ((s.hngHalt n).frameBoundary 5 n).done e 0x0803 0 [])

/-- SASH_WORK_BOUNDARY (R31, R32): a draining sash builds or empties; held by a pace emergency it stays. -/
def execSashWorkBoundary (sash : Nat) (s : State) : Host.Outcome State Fault Refusal :=
  let held := s.hub.get GLB.PACE_SUM.EMERG = 1 ∧ s.hub.get1 GLB.SASH_STAT.EMERG_HELD sash = 1
  .next (if held ∨ s.hub.get GLB.STATUS.FROZEN = 1 then s
    else
      let s1 := s.workBoundary (s.fab.sameBoundary (.sash sash))
      if s1.hub.sashState sash = 4 then s1.rebuild sash else s1)

end Sys2Proof.Machine
end

