-- ==== Sys2Proof/Machine/Classify.lean ====
section
/-!
DEFINITION. A frame received on an Ethernet port: the MAC (R347), MACsec (R348), PTP frames (R315), and the classification of R102, with
tunnels (R358) and video inputs (R224).
-/

namespace Sys2Proof.Machine

/-- A frame's EtherType. -/
def etherType (f : RxFrame) : Nat := beNat ((f.bytes.drop 12).take 2)

/-- A frame is dropped and counted in SEC_DROP (R348). -/
def State.secDrop (s : State) (p : Nat) : State × Bool := ({ s with hub := s.hub.err LNK.ETH_SEC_DROP.COUNT p 0x130D 0 }, false)

/-- A protected frame: its AN names the receive slot, and packet numbers rise strictly (R348, R304). -/
def State.secRx (s : State) (f : RxFrame) (an pn : Nat) (ok : Bool) : State × Bool :=
  let slot := s.hub.get2 LNK.ETH_SA.RX_SLOT f.port (an % 4)
  let k := s.cip.slot slot
  if slot = 0xFFFF ∨ !(k.mode = 4 ∨ k.mode = 5) ∨ !k.dec ∨ k.state = 0 ∨ pn < k.pn then s.secDrop f.port
  else
    let r := s.cipher { slot := slot, kind := 2, dec := true, stream := 0, seq := 0, aad := 28, len := f.bytes.length - 12, sash := s.unitSash (mkRef 10 f.port)
                        poison := false, mismatches := 0, authOk := ok, authHeld := false }
    if r.2 then (r.1.setSlot slot { (r.1.cip.slot slot) with pn := pn + 1 }, true) else r

/-- The port's SecY (R348): without SEC every frame passes; without a SecTAG only PTP and EAPOL do. -/
def State.secY (s : State) (f : RxFrame) : State × Bool :=
  if s.hub.get1 LNK.ETH_CFG.SEC f.port = 0 then (s, true)
  else match f.sec with
    | some (an, pn, ok) => s.secRx f an pn ok
    | none => if etherType f = 0x88F7 ∨ etherType f = 0x888E then (s, true) else s.secDrop f.port

/-- The tunnel of the port whose TUN_ADDR and REMOTE_PORT equal a datagram's source (R358). -/
def State.tunnelOf (s : State) (f : RxFrame) : Option Nat :=
  ((s.fab.ports.filter fun r => r.kind = 2 ∧ r.mode = 0x1100 ∧ r.first = f.port).map (·.number)).find? fun n =>
    (s.hub.get1 LNK.JL_CFG.IPV6 n == 1) == f.ipv6 && s.hub.get1 LNK.JL_CFG.REMOTE_PORT n == f.sport &&
      s.tunnelAddr n == f.src.take (if f.ipv6 then 16 else 4)

/-- Step 2 of Table 6.3: the datagram goes to its tunnel, or is dropped and counted in TUN_DROP. -/
def State.tunnelRx (s : State) (f : RxFrame) : State :=
  match s.tunnelOf f with
  | some n =>
    if bodyU8 f.payload 0 = 0x4A ∧ bodyU8 f.payload 1 = 0x54 then
      ({ s with hub := s.hub.emit (.token (mkRef 14 n) "tunnel" (f.payload.map BitVec.toNat)) } : State).setLink n
        { (s.lnk.link n) with heard := s.hub.elapsed }
    else { s with hub := s.hub.err LNK.ETH_TUN_DROP.COUNT f.port 0x130D 0 }
  | none => { s with hub := s.hub.err LNK.ETH_TUN_DROP.COUNT f.port 0x130D 0 }

/-- A frame that a VIN's flow entry names is taken ahead of step 3 (R224). -/
def State.vinRx (s : State) (f : RxFrame) (v entry : Nat) : State :=
  if s.fab.vinPath v f.port then { s with hub := s.hub.emit (.token (mkRef 11 v) "vin" [entry]) } else s.vinNoPath v

/-- Pane requests that RTCP feedback called for are passed to the splice service (R217). -/
def State.askSplice (s : State) : State := s.fwd.splAsk.foldl State.splAsked { s with fwd := { s.fwd with splAsk := [] } }

/-- Table 6.3, for a frame that the port delivers. -/
def State.classifyAll (s : State) (f : RxFrame) : State :=
  let k := f.port % 8
  let s0 : State := { s with hub := s.hub.stat FWD.IN_PKTS_LO.COUNT k 1 }
  if s.hub.get1 TIM.PORT_CFG.PTP_EN f.port = 1 ∧ isPtp f then { s0 with hub := s0.hub.emit (.token (mkRef 10 f.port) "ptp" []) }
  else if !f.udp then (if (s.portSash f.port).isSome then s0.exception 1 0xFFFF k f else s0)
  else if f.dport ≠ 0 ∧ f.dport = s.hub.get1 LNK.ETH_CFG.TUN_PORT f.port then s0.tunnelRx f
  else match s.vinMatch f with
    | some (v, e) => s0.vinRx f v e
    | none => if (s.portSash f.port).isSome then (s0.classify f).askSplice else s0

/-- A packet that the packet buffer returns as poison is dropped before any copy (Table 17.4). -/
def State.frameRx (s : State) (f : RxFrame) : State :=
  if f.poison then
    { s with hub := (s.hub.err MEM.PKT_POISON.COUNT 0 0x1209 0).raiseRl { code := 0x1207, sash := ((s.portSash f.port).getD 0xFFFF), detail := [0] } }
  else s.classifyAll f

/-- The MAC: a frame that is too long or fails its FCS is dropped (R347). -/
def State.macRx (s : State) (f : RxFrame) : State :=
  let s1 : State := { s with hub := s.hub.stat LNK.ETH_RX_LO.COUNT f.port 1 }
  if !f.fcsOk ∨ 9600 < f.bytes.length + 4 then { s1 with hub := s1.hub.err LNK.ETH_RX_FCS.COUNT f.port 0x130D 0 }
  else
    let r := s1.secY f
    if r.2 then r.1.frameRx f else r.1

/-- Does the core take frames: not while it is frozen, nor during a warm start (R391, R417)? -/
def State.receiving (s : State) (p : Nat) : Bool := s.portUp p && s.portHears p && s.hub.get GLB.STATUS.FROZEN == 0 && s.hub.get GLB.STATUS.WARM == 0

/-- FRAME_CLASSIFY (R102). A port that is not UP receives nothing; nor does one in a far-end loopback (R345); while the core is frozen what an UP port
offers fills its island's FIFO (R23). -/
def execFrameClassify (f : RxFrame) (s : State) : Host.Outcome State Fault Refusal :=
  .next (if f.port < 32 ∧ s.receiving f.port then s.macRx f
    else if f.port < 32 ∧ s.hub.get1 LNK.ETH_STAT.STATE f.port = 4 ∧ !s.portDown f.port ∧ s.portHears f.port then s.offer (.lane ((s.fab.lanesOf 1 f.port).headD 0)) f.bytes.length
    else s)

end Sys2Proof.Machine
end

