-- ==== Sys2Proof/Machine/Dbl.lean ====
section
/-!
DEFINITION. The Doorbell (chapter 13): beacon frames, survey dwells and receptions, reports, room groups, and the service's commands.
-/

namespace Sys2Proof.Machine

/-- TOKEN of a leg. -/
def State.token (s : State) (leg nonce : Nat) : Nat := s.hub.get LNK.CFG.DEVICE * 2 ^ 37 + leg % 2 ^ 14 * 2 ^ 23 + nonce % 2 ^ 23

/-- DBL_FRAME_START (R263, R264): TX_GAP after the last lead-out, while the leg is eligible and no stop waits, a frame starts at the next
Louvre boundary. -/
def execDblFrameStart (leg : Nat) (s : State) : Host.Outcome State Fault Refusal :=
  let now := s.hub.elapsed
  let wait := (125000 - s.hub.time.total % 125000) % 125000
  .next (match kvGet leg s.dbl.tx with
    | some t =>
      if t.stop ∨ (s.beaconChans leg).isEmpty ∨ (t.frame.map fun f => decide (now + wait < f.2 + s.dbl.key 2 * 1000000)).getD false then s
      else
        let symbols := beaconSymbols t.pmod t.seq (s.token leg t.nonce)
        let t1 : DblTx := { t with
          seq := (t.seq + 1) % 128, sent := symbols, paused := false, cutAt := none, at_ := (s.hub.time.total + wait) * 6 / 125000
          frame := some (now + wait, now + wait + beaconMs t.pmod * 1000000) }
        { s with
          hub := s.hub.emit (.token 0 "beacon" (leg :: symbols))
          dbl := { s.dbl with tx := kvPut leg t1 s.dbl.tx } }
    | none => s)

/-! ### Dwells (R265, R268) -/

/-- The next leg in turn that is due, and the legs passed over for want of a channel. -/
def State.nextDwell (s : State) : List (Nat × DblSurvey) → List Nat → Option Nat × List Nat
  | [], skipped => (none, skipped)
  | (leg, v) :: t, skipped =>
    if (v.last.map fun l => decide (s.hub.elapsed < l + s.dbl.key 1 * 1000000000)).getD false then s.nextDwell t skipped
    else if (s.opusChans leg).isEmpty then s.nextDwell t (skipped ++ [leg])
    else (some leg, skipped)

/-- A leg goes to the end of the round. -/
def DblSt.toBack (d : DblSt) (leg : Nat) (last : Option (Option Nat)) : DblSt :=
  { d with turn := d.turn + 1, survey := kvMod leg (fun (v : DblSurvey) => { turn := d.turn, last := last.getD v.last }) d.survey }

/-- DWELL_START (R265): a free receiver takes the next enabled leg. -/
def execDwellStart (core recv : Nat) (s : State) : Host.Outcome State Fault Refusal :=
  let key := 128 * core + recv
  .next (if !s.dblRuns core ∨ s.receivers core ≤ recv ∨ kvHas key s.dbl.dwells then s
    else
      let r := s.nextDwell (s.dbl.survey.mergeSort fun a b => a.2.turn ≤ b.2.turn) []
      let s1 := r.2.foldl (fun (a : State) leg =>
        { a with hub := (a.hub.err DBL.SKIPPED.COUNT 0 0x0E07 0).raise { code := 0x0E06 }, dbl := a.dbl.toBack leg none }) s
      match r.1 with
      | some leg =>
        let now := s.hub.elapsed
        let behind := (((kvGet leg s.dbl.survey).bind (·.last)).map fun l => decide (l + 2 * s.dbl.key 1 * 1000000000 < now)).getD false
        let h := if behind then (s1.hub.err DBL.BEHIND.COUNT 0 0x0E07 0).raiseRl { code := 0x0E04, detail := [leg] } else s1.hub
        ({ s1 with hub := h, dbl := { (s1.dbl.toBack leg (some (some now))) with
            dwells := kvPut key { leg := leg, start := now } s1.dbl.dwells } } : State).dblStat
      | none => s1)

/-- The dwell of a receiver that runs. -/
def State.dwell (s : State) (core recv : Nat) : Option DblDwell :=
  if s.dblRuns core then (kvGet (128 * core + recv) s.dbl.dwells).filter fun d => !(s.opusChans d.leg).isEmpty else none

/-- Replace a dwell. -/
def State.setDwell (s : State) (core recv : Nat) (d : DblDwell) : State :=
  { s with dbl := { s.dbl with dwells := kvPut (128 * core + recv) d s.dbl.dwells } }

/-- A reception ends: the receiver searches again, or takes its next leg where the 6 s have ended. -/
def State.recepEnd (s : State) (core recv : Nat) (d : DblDwell) : State :=
  if d.ended then s.dwellsEnd [128 * core + recv] false else s.setDwell core recv { d with recep := none }

/-- DWELL_END (R268): after 6 s, or once the reception in progress has its outcome. -/
def execDwellEnd (core recv : Nat) (s : State) : Host.Outcome State Fault Refusal :=
  .next (match kvGet (128 * core + recv) s.dbl.dwells with
    | some d =>
      if s.hub.elapsed < d.start + 6000000000 then s
      else if d.recep.isSome then s.setDwell core recv { d with ended := true }
      else s.dwellsEnd [128 * core + recv] false
    | none => s)

/-! ### Receptions (R267) -/

/-- Count an outcome of Table 13.2. -/
def State.dblErr (s : State) (f : Fld) : State := { s with hub := s.hub.err f 0 0x0E07 0 }

/-- PREAMBLE_ACQUIRE: a metric at or above ACQ_THRESH starts, pre-empts or collides. -/
def execPreambleAcquire (core recv metric : Nat) (s : State) : Host.Outcome State Fault Refusal :=
  .next (match s.dwell core recv with
    | some d =>
      if metric < min (max (s.hub.get DBL.RX_CTL.ACQ_THRESH) 3) 30 then s
      else match d.recep with
        | none => if d.ended then s else s.setDwell core recv { d with recep := some { metric := metric, start := d.count } }
        | some r =>
          if r.header.isNone ∧ r.metric + s.hub.get DBL.RX_CTL.PREEMPT_MARGIN ≤ metric then
            (s.setDwell core recv { d with recep := some { metric := metric, start := d.count } }).dblErr DBL.PREEMPTED.COUNT
          else s.dblErr DBL.COLLIDED.COUNT
    | none => s)

/-- The known chips of a found preamble and sync word train the equaliser (R266). -/
def State.trained (s : State) (d : DblDwell) (from_ : Nat) : DblEq :=
  let mu := fun (f : Fld) => max (s.hub.get f) 1
  let e := knownPhases.foldl (fun (e : DblEq) ph => e.train d (mu DBL.EQ_CTL.MU_FF) (mu DBL.EQ_CTL.MU_FB) ph) (DblEq.fresh from_)
  e.run d (mu DBL.EQ_CTL.MU_FF) (mu DBL.EQ_CTL.MU_FB) none 44

/-- SYNC_WORD_SEARCH_END (R267): the sync word stands `found` − 2 symbols from its expected place, once its symbols have come; or it has not
been found two symbols past that place. -/
def execSyncWordSearchEnd (core recv : Nat) (found : Option Nat) (s : State) : Host.Outcome State Fault Refusal :=
  .next (match s.dwell core recv with
    | some d =>
      match d.recep with
      | some r =>
        if r.sync then s
        else match found with
          | some k =>
            if 4 < k ∨ d.count < r.start + 62 * (11 + k) then s
            else s.setDwell core recv { d with recep := some { r with sync := true, eq := some (s.trained d (r.start + 62 * k - 372)) } }
          | none => if d.count < r.start + 930 then s else (s.recepEnd core recv d).dblErr DBL.SYNC_FAIL.COUNT
      | none => s
    | none => s)

/-- HDR and its CRC-4 as the decoder gives them, once the 44 symbols of the header have been detected; TOKEN and its CRC-16, once those of
the payload have (R266, R267). -/
def DblRecep.headerWord (r : DblRecep) : Option Nat :=
  (r.eq.filter fun e => decide (44 ≤ e.soft.length)).map fun e => viterbi 16 (e.soft.take 44)
def DblRecep.payloadWord (r : DblRecep) : Option Nat :=
  (r.eq.filter fun e => decide (184 ≤ e.soft.length)).map fun e => viterbi 64 ((e.soft.drop 44).take 140)

/-- HEADER_DECODED (R267). -/
def execHeaderDecoded (core recv : Nat) (s : State) : Host.Outcome State Fault Refusal :=
  .next (match s.dwell core recv with
    | some d =>
      match d.recep.bind fun r => (r.headerWord).map fun w => (r, w) with
      | some (r, word) =>
        let hdr := word / 16 % 4096
        if !r.sync ∨ r.header.isSome then s
        else if crcHdr hdr = word % 16 ∧ hdr / 256 = 0 then
          s.setDwell core recv (s.hears { d with recep := some { r with header := some (hdr.testBit 7) } } [])
        else (s.recepEnd core recv d).dblErr DBL.HDR_FAIL.COUNT
      | none => s
    | none => s)

/-! ### Room groups (R270) -/

/-- The legs joined to those of `l` by edges, after `n` rounds. -/
def reach (edges : List (Nat × Nat × Nat)) : Nat → List Nat → List Nat
  | 0, l => l
  | n + 1, l =>
    let more := edges.flatMap fun e =>
      (if l.contains e.1 && !l.contains e.2.1 then [e.2.1] else []) ++ (if l.contains e.2.1 && !l.contains e.1 then [e.1] else [])
    if more = [] then l else reach edges n (l ++ more.eraseDups)

/-- The group of a leg, lowest first; none for a leg without edges. -/
def groupOf (edges : List (Nat × Nat × Nat)) (leg : Nat) : List Nat :=
  if edges.any fun e => e.1 = leg ∨ e.2.1 = leg then (reach edges edges.length [leg]).mergeSort (· ≤ ·) else []

/-- The legs that have edges, lowest first. -/
def edgeLegs (edges : List (Nat × Nat × Nat)) : List Nat := ((edges.flatMap fun e => [e.1, e.2.1]).eraseDups).mergeSort (· ≤ ·)

/-- The groups by ID: the lowest leg's number, with the members. -/
def groupsOf (edges : List (Nat × Nat × Nat)) : List (Nat × List Nat) :=
  ((edgeLegs edges).map fun l => groupOf edges l).eraseDups.map fun g => (g.headD 0, g)

/-- Tags of a leg's decode-channel sources and DEST LEG encode sinks. -/
def State.legTags (s : State) (leg tag : Nat) : List (Bool × Nat × Nat) :=
  (s.aud.decs.filterMap fun e =>
    if ((kvGet e.2.stream s.fwd.ins).map (·.leg)) = some leg then some (false, e.2.source, tag) else none) ++
  (s.aud.encs.flatMap fun e =>
    if s.encLeg e.2 = some leg then (true, e.2.sink, tag) :: (if e.2.stereo then [(true, e.2.sink + 1, tag)] else []) else [])

/-- New edges: every group whose membership changes raises `DBL_ROOM_CHANGE`; AUTO_TAG tags the legs whose group changes. -/
def State.setEdges (s : State) (edges : List (Nat × Nat × Nat)) : State :=
  let old := groupsOf s.dbl.edges
  let new := groupsOf edges
  let ids := ((old.map (·.1) ++ new.map (·.1)).eraseDups).filter fun g => kvGet g old != kvGet g new
  let s1 : State := { s with
    hub := s.hub.raiseAll (ids.map fun g => { code := 0x0E01, detail := [g] })
    dbl := { s.dbl with edges := edges } }
  if s.hub.get DBL.CTL.AUTO_TAG = 1 then
    let legs := (edgeLegs (s.dbl.edges ++ edges)).filter fun l => (groupOf s.dbl.edges l).head? != (groupOf edges l).head?
    let tags := legs.flatMap fun l => s.legTags l (match (groupOf edges l).head? with
      | some g => 0xC000 + g
      | none => 0)
    if tags = [] then s1 else s1.audRoom tags
  else s1

/-- EDGE_TTL_EXPIRY (R270). -/
def execEdgeTtlExpiry (legA legB : Nat) (s : State) : Host.Outcome State Fault Refusal :=
  let pair := fun (e : Nat × Nat × Nat) => decide (e.1 = min legA legB ∧ e.2.1 = max legA legB)
  .next (if s.dbl.edges.any fun e => pair e ∧ e.2.2 + s.dbl.key 3 * 1000000000 ≤ s.hub.elapsed then
      s.setEdges (s.dbl.edges.filter fun e => !pair e)
    else s)

/-- A verified detection makes or renews an edge. -/
def State.detected (s : State) (a b : Nat) : State :=
  let e : Nat × Nat × Nat := (min a b, max a b, s.hub.elapsed)
  let rest := s.dbl.edges.filter fun x => decide ¬(x.1 = e.1 ∧ x.2.1 = e.2.1)
  if rest.length = s.dbl.edges.length then s.setEdges (s.dbl.edges ++ [e])
  else { s with dbl := { s.dbl with edges := rest ++ [e] } }

/-- A report of Table 13.4 (R269), and what the service makes of its token. -/
def State.dblReport (s : State) (leg metric token : Nat) : State :=
  let dev := token / 2 ^ 37 % 2048
  let from_ := token / 2 ^ 23 % 16384
  let nonce := token % 2 ^ 23
  let remote := dev ≠ s.hub.get LNK.CFG.DEVICE
  let self := !remote && from_ == leg
  let stale := !remote && !self && ((kvGet from_ s.dbl.tx).map (·.nonce)) != some nonce
  let flags := (if remote then 1 else 0) + (if self then 2 else 0) + (if stale then 4 else 0)
  let item := leBytes 2 (leg % 16384) ++ leBytes 2 dev ++ leBytes 2 from_ ++ leBytes 1 (min metric 255) ++ leBytes 1 flags ++
    leBytes 4 nonce ++ leBytes 4 (s.hub.time.sec % 2 ^ 32)
  let h := s.hub.stat DBL.DETECT_LO.COUNT 0 1
  let h1 := if s.hub.get DBL.CTL.REPORT_OFF = 1 then h else h.qpDeliver (s.hub.get DBL.CTL.REPORT_QP) true item
  let s1 : State := { s with hub := if stale then (h1.err DBL.STALE.COUNT 0 0x0E07 0).raiseRl { code := 0x0E03, detail := [leg] } else h1 }
  if remote ∨ self ∨ stale then s1 else s1.detected leg from_

/-- PAYLOAD_DECODED (R267, R269). -/
def execPayloadDecoded (core recv : Nat) (s : State) : Host.Outcome State Fault Refusal :=
  .next (match s.dwell core recv with
    | some d =>
      match d.recep.bind fun r => (r.payloadWord).map fun w => (r, w) with
      | some (r, word) =>
        let token := word / 65536 % 2 ^ 48
        if r.header.isNone then s
        else
          let s1 := s.recepEnd core recv d
          if crcToken token = word % 65536 then s1.dblReport d.leg r.metric token
          else { s1 with hub := (s1.hub.err DBL.PAY_FAIL.COUNT 0 0x0E07 0).raiseRl { code := 0x0E02, detail := [d.leg] } }
      | none => s
    | none => s)

/-! ### Commands (R271) -/

/-- The refusal of a command that names a leg. -/
def State.dblRefused (s : State) (e : CmdEnv) (leg : Nat) : Option Nat :=
  if s.hub.legLimit ≤ leg then some 1
  else match kvGet leg s.fwd.legs with
  | none => some 3
  | some l => if !s.hub.reachesLeg e.fn leg then some 5 else if l.state = 3 then some 6 else none

/-- DBL_TX (R263, R264). The nonce is drawn at random at each start: a free value; so is what the completion of a stop carries
where no nonce is in force. -/
def execDblTx (e : CmdEnv) (body : List Byte) (s : State) : Host.Outcome State Fault Refusal :=
  let leg := bodyN body 0 2
  .next (match s.dblRefused e leg with
    | some st => s.done e 0x0701 st []
    | none =>
      let nonce := s.hub.freeVal (2 ^ 23)
      if bodyU8 body 2 = 0 then
        match kvGet leg s.dbl.tx with
        | some t =>
          (({ s with dbl := { s.dbl with tx := kvPut leg { t with stop := true } s.dbl.tx } } : State).dblEnded).done e 0x0701 0 (leBytes 4 t.nonce)
        | none => ({ s with hub := s.hub.freeTick } : State).done e 0x0701 0 (leBytes 4 nonce)
      else if (s.beaconChans leg).isEmpty ∨ (s.beaconChans leg).any (fun x => decide (x.kbps < 48)) then s.done e 0x0701 4 []
      else
        let old := (kvGet leg s.dbl.tx).getD { pmod := false, nonce := 0 }
        let t : DblTx := { old with pmod := bodyU8 body 3 != 0, nonce := nonce, seq := 0, stop := false, paused := false }
        (({ s with hub := s.hub.freeTick, dbl := { s.dbl with tx := kvPut leg t s.dbl.tx } } : State).dblStat).done e 0x0701 0 (leBytes 4 nonce))

/-- DBL_SURVEY (R265). -/
def execDblSurvey (e : CmdEnv) (body : List Byte) (s : State) : Host.Outcome State Fault Refusal :=
  let leg := bodyN body 0 2
  .next (match s.dblRefused e leg with
    | some st => s.done e 0x0702 st []
    | none =>
      let d : DblSt := if bodyU8 body 2 = 0 then { s.dbl with survey := kvDel leg s.dbl.survey }
        else if kvHas leg s.dbl.survey then s.dbl
        else { s.dbl with turn := s.dbl.turn + 1, survey := kvPut leg { turn := s.dbl.turn } s.dbl.survey }
      ({ s with dbl := d } : State).done e 0x0702 0 [])

/-- DBL_GROUP (R270). -/
def execDblGroup (e : CmdEnv) (body : List Byte) (s : State) : Host.Outcome State Fault Refusal :=
  let leg := bodyN body 0 2
  .next (match s.dblRefused e leg with
    | some st => s.done e 0x0703 st []
    | none =>
      let g := groupOf s.dbl.edges leg
      s.done e 0x0703 0 (leBytes 2 (g.headD 0xFFFF) ++ leBytes 2 g.length ++ (g.take 64).flatMap (leBytes 2)))

/-- The Doorbell at a Louvre boundary: transmissions that have stopped, dwells that cannot go on. -/
def State.dblBoundary (s : State) : State := s.dblCheck.dblEnded.dwellCheck

end Sys2Proof.Machine
end

