-- ==== Sys2Proof/Machine/Snap.lean ====
section
/-!
DEFINITION. Snapshots (chapter 5, R91 and R92): the device record of Table 5.5, its capture at a boundary, the initiator's
buffer and the members' part.
-/

namespace Sys2Proof.Machine

/-! ### The device record (Table 5.5) -/

/-- Where the registers of a block code stand in BAR0: first offset and end (Table 5.3 and the chapters' register tables). -/
def blockRange (code : Nat) : Nat × Nat :=
  let blocks : List (Nat × Nat) := [(0, 0x100000), (0x300000, 0x400000), (0x100000, 0x200000), (0x200000, 0x300000), (0x400000, 0x800000), (0x800000, 0xC00000),
    (0xC00000, 0x1000000), (0x1000000, 0x1200000), (0x1200000, 0x1400000), (0x1400000, 0x1500000), (0x1500000, 0x1600000), (0x1600000, 0x1800000), (0x1800000, 0x1900000),
    (0x1900000, 0x1A00000), (0x1A00000, 0x1B00000), (0x1B00000, 0x1C00000), (0x1C00000, 0x1E00000), (0x1E00000, 0x2000000), (0x2000000, 0x2800000), (0x2800000, 0x2C00000),
    (0x2C00000, 0x3000000)]
  if code < 2 then (0, 0) else blocks.getD (code - 2) (0, 0)

/-- The offsets of a table line's registers. -/
def RegRow.offs (r : RegRow) : List Nat := (List.range r.n1).flatMap fun i => (List.range r.n2).map fun j => r.base + r.s1 * i + r.s2 * j

/-- The registers of a block of present units (R19), line by line of the tables. -/
def Hub.tableRegs (h : Hub) (code : Nat) : List Nat :=
  let r := blockRange code
  ((regTable.filter fun x => decide (r.1 ≤ x.base ∧ x.base < r.2)).flatMap RegRow.offs).filter fun o => !h.absentBlock o

/-- The registers of a block in ascending offset order; those of absent units are not there (R19). -/
def Hub.blockRegs (h : Hub) (code : Nat) : List Nat := (h.tableRegs code).mergeSort

/-- `LCH.SNAP_SIZE`: the record with every section selected. -/
def Hub.snapSize (h : Hub) : Nat := 0x140 + 4 * (((List.range 32).map fun n => (h.tableRegs n).length).foldl (· + ·) 0)

/-- The published copy of a register; the record size follows from the part. -/
def Hub.published (h : Hub) (o : Nat) : Word := if o = 0x200078 then BitVec.ofNat 32 h.snapSize else h.rdPub o

/-- A section: the block's registers as published. -/
def Hub.section_ (h : Hub) (code : Nat) : List Byte := (h.blockRegs code).flatMap fun o => leBytes 4 (h.published o).toNat

/-- The sections that a mask selects, by block code. -/
def Hub.sections (h : Hub) (mask : Nat) : List (Nat × List Byte) :=
  (List.range 32).map fun n => (n, if mask.testBit n then h.section_ n else [])

/-- The directory's entries: a section not selected or not present reads 0, 0. -/
def snapDir : Nat → List (Nat × List Byte) → List Byte
  | _, [] => []
  | off, (_, b) :: t => (if b = [] then leBytes 8 0 else leBytes 4 off ++ leBytes 4 b.length) ++ snapDir (off + b.length) t

/-- A record's header. -/
def snapHead (dev level status len : Nat) : List Byte :=
  leBytes 2 dev ++ leBytes 2 level ++ leBytes 2 status ++ leBytes 2 0 ++ leBytes 4 len ++ leBytes 52 0

/-- The device's own record. -/
def Hub.snapRecord (h : Hub) (mask : Nat) : List Byte :=
  let secs := h.sections mask
  let body := secs.flatMap Prod.snd
  snapHead (h.get LNK.CFG.DEVICE) (h.get IMG.INTEROP.LEVEL) 0 (0x140 + body.length) ++ snapDir 0x140 secs ++ body

/-- Is a register a high-water mark (R148)? -/
def isMark (off : Nat) : Bool :=
  decide (0x820000 ≤ off ∧ off < 0x860000 ∧ 8 ≤ off % 16) ||
    decide (0x801000 ≤ off ∧ off < 0x803000 ∧ 0x40 ≤ off % 256 ∧ off % 256 < 0x80)

/-- CLR_HW clears the marks of the captured blocks: only block 0x07 has any. -/
def Hub.clearMarks (h : Hub) (mask : Nat) : Hub :=
  if mask.testBit 7 then { h with regs := h.regs.filter fun (e : Nat × Word) => !isMark e.1 } else h

/-! ### The initiator's buffer (R91, R92) -/

/-- Raise `SNAP_PARTIAL`, once for a snapshot however many members are missing or records cut (DESIGN CHOICE, assumption 98). -/
def State.snapShort (s : State) (x : Snap) : State × Snap :=
  (if x.short then s else { s with hub := s.hub.raise { code := 0x0506 } }, { x with short := true })

/-- Write the next record: what fits, marked TRUNCATED where it is cut; no later record follows a cut one. -/
def State.snapWrite (s : State) (x : Snap) (rec : List Byte) : State × Snap :=
  let room := x.len - x.pos
  if x.ended then (s, x)
  else if 64 ≤ x.len ∧ rec.length ≤ room then
    ({ s with hub := s.hub.hostWrite (x.addr + x.pos) rec }, { x with pos := x.pos + rec.length, devices := x.devices + 1 })
  else
    let cut := (rec.take 4 ++ leBytes 2 2 ++ rec.drop 6).take room
    let some_ := decide (64 ≤ x.len) && room != 0
    let s1 := if some_ then { s with hub := s.hub.hostWrite (x.addr + x.pos) cut } else s
    s1.snapShort { x with pos := x.pos + (if some_ then room else 0), devices := x.devices + (if some_ then 1 else 0), ended := true }

/-- Write the records that are in and next in turn, by rising device ID. -/
def State.snapDrain (s : State) (x : Snap) : List Nat → State × Snap
  | [] => (s, { x with waiting := [] })
  | d :: t =>
    match kvGet d x.early with
    | none => (s, { x with waiting := d :: t })
    | some rec =>
      let r := s.snapWrite { x with early := kvDel d x.early } rec
      r.1.snapDrain r.2 t

/-- Keep a snapshot's progress. -/
def State.snapKeep (r : State × Snap) : State := { r.1 with lch := { r.1.lch with snap := some r.2 } }

/-! ### Capture (R91) -/

/-- Has the boundary of a snapshot come? -/
def State.snapDue (s : State) (step : Bool) (acc : Nat) : LatchWhen → Bool
  | .bound n => decide (n ≤ s.fab.boundaries) && s.guardPast step acc
  | .sched raw => decide (s.hub.instant raw ≤ s.hub.time.total)
  | .domain _ => false

/-- The device's own snapshot captures. -/
def State.snapOwn (s : State) (step : Bool) : State :=
  match s.lch.snap with
  | none => s
  | some x =>
    if x.captured ∨ !s.snapDue step x.acc x.when_ then s
    else
      let y := { x with captured := true, period := s.hub.time.period, gen := 2 * s.fab.boundaries, capAt := s.hub.elapsed }
      let r := s.snapWrite y (s.hub.snapRecord x.sect)
      let s1 := State.snapKeep (r.1.snapDrain r.2 r.2.waiting)
      if x.clrHw then { s1 with hub := s1.hub.clearMarks x.sect } else s1

/-- The capture for another device, whose record returns over VC3. -/
def State.snapFor (s : State) (a : SnapAsk) : State :=
  let s1 := s.jlSend a.dev 6 3 (s.hub.snapRecord a.mask)
  if a.clrHw then { s1 with hub := s1.hub.clearMarks a.mask } else s1

/-- The captures of a boundary, after its publication. -/
def State.snapCapture (s : State) (step : Bool) : State :=
  let due := s.lch.asks.filter fun a => a.ns ≤ s.hub.time.total
  let s1 : State := { s with lch := { s.lch with asks := s.lch.asks.filter fun (a : SnapAsk) => s.hub.time.total < a.ns } }
  due.foldl State.snapFor (s1.snapOwn step)

/-! ### Commands -/

/-- Start a snapshot, or refuse it while one runs (R91). -/
def State.snapStart (s : State) (val : Word) (at_ : LatchWhen) (members : List Nat) : State :=
  match s.lch.snap with
  | some _ => { s with hub := s.hub.raise { code := 0x0507 } }
  | none =>
    let addr := s.hub.get LCH.SNAP_ADDR_LO.ADDR / 4096 * 4096 + s.hub.get LCH.SNAP_ADDR_HI.ADDR * 2 ^ 32
    let x : Snap := {
      when_ := at_, group := members != [], clrHw := LCH.SNAP_CMD.CLR_HW.of val == 1, addr := addr, len := s.hub.get LCH.SNAP_LEN.LEN
      sect := s.hub.get LCH.SNAP_SECT.MASK, waiting := members, acc := s.hub.elapsed }
    { s with hub := s.hub.set LCH.STATUS.SNAP_BUSY 1, lch := { s.lch with snap := some x } }

/-- A snapshot of MODE NEXT: at the next boundary that the guard of R81 allows. -/
def State.snapNext (s : State) (val : Word) (hcLeft : Nat) : State := s.snapStart val (s.nextBound hcLeft) []

/-- The request a member receives: seconds (6), zero (2), nanoseconds (4), sections (4), CLR_HW (1). -/
def snapRequest (ns mask : Nat) (clr : Bool) : List Byte :=
  leBytes 6 (ns / 1000000000) ++ leBytes 2 0 ++ leBytes 4 (ns % 1000000000) ++ leBytes 4 mask ++ leBytes 1 (if clr then 1 else 0)

/-- A snapshot of MODE SCHED. A time within the guard is served at the next boundary, as a commit is (R83); members are asked for the
boundary at which the device itself captures (R91). -/
def State.snapSched (s : State) (val : Word) (hcLeft : Nat) : State :=
  let at_ := match s.schedBound s.hub.schedRaw hcLeft with
    | some ns => LatchWhen.sched ns
    | none => s.nextBound hcLeft
  let members := if LCH.SNAP_CMD.GROUP.of val = 1 then s.hub.groupMembers else []
  if s.lch.snap.isSome then s.snapStart val at_ members
  else
    let clr := LCH.SNAP_CMD.CLR_HW.of val == 1
    (s.snapStart val at_ members).jlSendAll members 6 0 (snapRequest (s.boundNs at_) (s.hub.get LCH.SNAP_SECT.MASK) clr)

/-- SNAP_CMD_NEXT (R91): a write of `LCH.SNAP_CMD` with MODE 0 or 2, `hcLeft` hc before the period ends. -/
def execSnapCmdNext (val : Word) (hcLeft : Nat) (s : State) : Host.Outcome State Fault Refusal :=
  .next (if s.barLive then s.snapNext val hcLeft else s)

/-- SNAP_CMD_SCHED (R91): a write of `LCH.SNAP_CMD` with MODE 1. -/
def execSnapCmdSched (val : Word) (hcLeft : Nat) (s : State) : Host.Outcome State Fault Refusal :=
  .next (if s.barLive then s.snapSched val hcLeft else s)

/-- Keep a request to capture. -/
def State.snapAsked (s : State) (a : SnapAsk) : State := { s with lch := { s.lch with asks := s.lch.asks ++ [a] } }

/-- SNAP_REQUEST_RECEIVE (R91): a request of device `dev` to capture at the boundary at or after a time. -/
def execSnapRequestReceive (dev sec ns mask : Nat) (clr : Bool) (s : State) : Host.Outcome State Fault Refusal :=
  .next (s.snapAsked ⟨dev % 2048, sec * 1000000000 + ns, mask, clr⟩)

/-- A member's record is written in its turn; one that is not awaited is discarded. -/
def State.snapIn (s : State) (dev : Nat) (rec : List Byte) : State :=
  match s.lch.snap with
  | none => s
  | some x =>
    if !x.waiting.contains dev then s
    else
      let y := { x with early := kvPut dev rec x.early }
      if x.captured then State.snapKeep (s.snapDrain y y.waiting) else State.snapKeep (s, y)

/-- SNAP_RECORD_RECEIVE (R91). -/
def execSnapRecordReceive (dev : Nat) (rec : List Byte) (s : State) : Host.Outcome State Fault Refusal := .next (s.snapIn dev rec)

/-- SNAP_MEMBER_TIMEOUT (R92): no record of device `dev` has come within 100 ms of the boundary. Its record is the header and
directory alone; INTEROP, the member's level, is not known here and reads 0 (DESIGN CHOICE, assumption 98). -/
def execSnapMemberTimeout (dev : Nat) (s : State) : Host.Outcome State Fault Refusal :=
  .next (match s.lch.snap with
    | none => s
    | some x =>
      if !x.captured ∨ !x.waiting.contains dev ∨ kvHas dev x.early ∨ s.hub.elapsed < x.capAt + 100000000 then s
      else
        let miss := snapHead dev 0 1 0x140 ++ leBytes 256 0
        let r := s.snapShort { x with early := kvPut dev miss x.early }
        State.snapKeep (r.1.snapDrain r.2 r.2.waiting))

/-- The buffer's header (Table 5.4). -/
def Snap.header (x : Snap) : List Byte :=
  [0x53, 0x4E, 0x41, 0x50] ++ leBytes 2 x.devices ++ leBytes 2 0 ++ leBytes 8 x.period ++ leBytes 8 x.gen ++ leBytes 40 0

/-- SNAP_DONE (R92): every record is written. A buffer shorter than 64 bytes has had nothing written. -/
def execSnapDone (s : State) : Host.Outcome State Fault Refusal :=
  .next (match s.lch.snap with
    | none => s
    | some x =>
      if !x.captured ∨ x.waiting ≠ [] then s
      else
        let h0 := s.hub.set LCH.STATUS.SNAP_BUSY 0
        let h1 := if 64 ≤ x.len then (h0.hostWrite x.addr x.header).raise { code := 0x0505 } else h0
        { s with hub := h1, lch := { s.lch with snap := none } })

end Sys2Proof.Machine
end

