-- ==== Sys2Proof/Machine/RegRead.lean ====
section
/-!
DEFINITION. Registers whose value follows from other state: the resource read-back of Table 4.6, the record size, the slot shown by
`CIP.SLOT_SEL`, cipher lanes, and what mirrors the part or a service.
-/

namespace Sys2Proof.Machine

/-- Set several registers. -/
def Hub.wrAll (h : Hub) (l : List (Nat × Nat)) : Hub := l.foldl (fun a e => a.wr e.1 (BitVec.ofNat 32 e.2)) h

/-- The resource that `LVR.RES_SEL` selects, where it is present (Table 4.6). -/
def State.resSel (s : State) : Option (Nat × Nat) :=
  let kind := s.hub.get LVR.RES_SEL.KIND
  let index := s.hub.get LVR.RES_SEL.INDEX
  if s.resPresent kind index then some (kind, index) else none

/-- The highest tokened consumption of a resource in one period since its last read, of the periods that have ended. -/
def State.peak (s : State) (kind index : Nat) : Nat := (kvGet (kind * 65536 + s.hub.hwIndex kind index) s.fab.peaks).getD 0

/-- The registers of Table 4.6 that follow the selection; all read 0 where it names nothing. -/
def State.resRegs (s : State) : List (Nat × Nat) :=
  match s.resSel with
  | some (kind, index) =>
    [(0x100024, s.hub.budgetable kind), (0x100028, s.fab.booked kind index), (0x10002C, min (s.fab.slatsAt kind index).length 1024),
      (0x100030, s.peak kind index), (0x100034, s.hub.grain kind index)]
  | none => [(0x100024, 0), (0x100028, 0), (0x10002C, 0), (0x100030, 0), (0x100034, 0)]

/-- `CIP.SLOT_STAT` of slot `n` (Table 15.6). -/
def State.slotStat (s : State) (n : Nat) : Nat :=
  let k := s.cip.slot n
  let held := s.lch.openSet.any (holdsKey n) || s.lch.pend.any fun p => p.items.any (holdsKey n)
  let b := fun (x : Bool) (v : Nat) => if x then v else 0
  k.state * 2 ^ 28 + b k.softHit (2 ^ 27) + b (k.drain.isSome || k.held.isSome) (2 ^ 26) + b (!k.wait.isEmpty || held) (2 ^ 25) +
    b (k.dec && k.state != 0) (2 ^ 24) + (if k.state = 0 then 0 else k.mode) * 2 ^ 16 + s.hub.owner HIF.VF_SLOT.BASE n

/-- What function `fn` reads of the slot that its own `CIP.SLOT_SEL` shows (R306). A VF reads 0 of a slot not bound to it (R365). -/
def State.slotRegs (s : State) (fn : Nat) : List (Nat × Nat) :=
  let n := s.hub.kw fn CIP.SLOT_SEL.SLOT
  let k := s.cip.slot n
  if s.hub.ownsSlot fn n then
    [(0x1A00008, s.slotStat n), (0x1A0000C, k.gen), (0x1A00010, k.use), (0x1A00014, k.use / 2 ^ 32), (0x1A00018, k.soft),
      (0x1A0001C, k.soft / 2 ^ 32), (0x1A00020, k.hard), (0x1A00024, k.hard / 2 ^ 32), (0x1A00028, k.fail)]
  else [0x1A00008, 0x1A0000C, 0x1A00010, 0x1A00014, 0x1A00018, 0x1A0001C, 0x1A00020, 0x1A00024, 0x1A00028].map fun o => (o, 0)

/-- A lane's STATE (Table 15.9): RETIRED and BIST as its channel, RUNNING while it carries a slat (assumption 61). -/
def State.cipState (s : State) (n : Nat) : Nat :=
  match s.hub.get2 DBT.CH.STATE 7 n with
  | 3 => 3
  | 2 => 2
  | _ => if s.hub.get1 CIP.LANE_STAT.STATE n = 3 then 3 else if s.carries 7 n then 1 else 0

/-- The shared state with every computed register in place, as the PF reads it. -/
def State.derived (s : State) : Hub :=
  let h1 := s.hub.wrAll (s.resRegs ++ s.slotRegs 0)
  let h2 := (h1.set AUD.STATUS.XPT (h1.get GLB.VARIANT.XPT)).set TIM.STATUS.DOMAIN s.tim.domain
  (List.range (h2.unitCount 7)).foldl (fun (a : Hub) n => a.set1 CIP.LANE_STAT.STATE n (s.cipState n)) h2

/-! ### The state image (R394) -/

/-- A block's registers as they stand. -/
def Hub.liveSection (h : Hub) (code : Nat) : List Byte :=
  (h.blockRegs code).flatMap fun o => leBytes 4 (if o = 0x200078 then BitVec.ofNat 32 h.snapSize else h.shown o (h.rd o)).toNat

/-- The state image up to its last listed byte: the directory and each block's registers in ascending offset. What follows in the 8 MiB
reads 0; latch entries are left out (assumption 62). -/
def State.stateImage (s : State) : List Byte :=
  let h := s.derived
  let secs := (List.range 32).map fun n => (n, h.liveSection n)
  snapDir 256 secs ++ secs.flatMap Prod.snd

/-- The word of the image at an offset: what lies past its listed bytes reads 0. -/
def State.imageWord (s : State) (off : Nat) : Word := BitVec.ofNat 32 (leNat ((s.stateImage.drop off).take 4))

end Sys2Proof.Machine
end

