-- ==== Sys2Proof/Machine/AudMix.lean ====
section
/-!
DEFINITION. XPT_BLOCK_MIX: at each Louvre boundary the crosspoint reads the source blocks of the period that has ended and forms
every sink block (R242–R252); then changes of the audio block that wait for the boundary take effect.
-/

namespace Sys2Proof.Machine

/-- A free 24-bit sample. -/
def Hub.freeSample (h : Hub) : Int × Hub := ((h.freeVal (2 ^ 24) : Int) - 2 ^ 23, h.freeTick)

/-! ### Sources (R243, R254) -/

/-- Conceal sample `smp` of decode channel `c` where it is missing: before the first packet silence, after a DTX packet DTX,
else the codec's concealment, of which each frame counts in PLC (R254). Its values are free. -/
def State.conceal (s : State) (c smp : Nat) : State :=
  match kvGet c s.aud.decs with
  | none => s
  | some d =>
    let x := s.aud.src d.source
    if !s.codecUnit (mkRef 6 d.unit) then s
    else if kvHas smp x.buf then { s with aud := { s.aud with decs := kvPut c { d with gap := 0 } s.aud.decs } }
    else if d.anchor = none ∨ smp < d.first then { s with aud := s.aud.setSrc d.source (x.put smp false [some 0]) }
    else
      let r := s.hub.freeSample
      let a := s.aud.setSrc d.source (x.put smp false [some r.1])
      if d.dtx ∧ d.tail ≤ smp then { s with hub := r.2, aud := a }
      else
        let new := d.gap % max d.len 1 = 0
        let d1 : AudDec := { d with gap := d.gap + 1, cnt := { d.cnt with plc := d.cnt.plc + (if new then 1 else 0) } }
        { s with
          hub := if new then r.2.err AUD.PLC.COUNT 0 0x0D09 0 else r.2
          aud := { a with decs := kvPut c d1 a.decs } }

/-- Conceal what every decode channel lacks of block `p`. -/
def State.concealAll (s : State) (p : Nat) : State :=
  s.aud.decs.foldl (fun a e => (List.range 6).foldl (fun b i => b.conceal e.1 (6 * p + i)) a) s

/-- A bound source's block that is not complete, or is poisoned, is counted; it is read as zeros (R243). -/
def State.sourceFaults (s : State) (p : Nat) : State :=
  (s.aud.srcs.filter fun e => e.2.kind ≠ 0).foldl (fun a e =>
    let b := e.2.blockOf p
    if b.any Option.isNone then { a with hub := (a.hub.err AUD.SRC_MISS.COUNT 0 0x0D09 0).raiseRl { code := 0x0D03, detail := [e.1] } }
    else if b.any (· = some none) then { a with hub := (a.hub.err AUD.POISON.COUNT 0 0x0D09 0).raiseRl { code := 0x0D07, detail := [e.1] } }
    else a) s

/-! ### Meters (R252) -/

/-- A meter after a block; the RMS mean moves to a free value between what it was and the block's squares. -/
def AudMeter.next (m : AudMeter) (h : Hub) (l : List Int) : AudMeter × Hub :=
  let peak := l.foldl (fun a v => max a v.natAbs) 0
  let sq := l.map fun v => v.natAbs ^ 2
  let r := h.between (sq.foldl min m.ms) (sq.foldl max m.ms)
  let decay := min (max (h.get AUD.MTR_CTL.DECAY) 1) 96
  let up := decide (0 < peak) && (m.peak == 0 || decide (levelOf peak * 500 < levelOf m.peak * 500 + m.decay))
  let m1 : AudMeter := { m with any := m.any || decide (0 < peak), ms := r.1 }
  (if up then { m1 with peak := peak, decay := 0, age := 0 }
   else if m.age < min (h.get AUD.MTR_CTL.HOLD) 100 * 800 then { m1 with age := m.age + 1 }
   else { m1 with decay := m.decay + decay }, r.2)

/-- PEAK and RMS as read. -/
def AudMeter.peakField (m : AudMeter) : Nat := if m.peak = 0 then 0xFFFF else min 0xFFFE (levelOf m.peak + m.decay / 500)
def AudMeter.rmsField (m : AudMeter) : Nat := if !m.any then 0xFFFF else if m.ms = 0 then 0xFFFE else min 0xFFFE (levelOfSq m.ms)

/-! ### Sinks (R246) -/

/-- The limiter (R251), on a value with 8 fraction bits: the envelope moves to a free value between what it was and the
sample; below the knee the gain is 1, above the threshold it brings the envelope there, within the knee it is free. -/
def limit (h : Hub) (t knee env : Nat) (x : Int) : Int × Nat × Hub :=
  let m := x.natAbs
  let e := h.between (min env m) (max env m)
  if e.1 ≤ knee then (x, e.1, e.2)
  else
    let lo := if t ≤ e.1 then m * t / e.1 else 0
    let y := e.2.between lo (if t ≤ e.1 then min m (lo + 1) else m)
    (if x < 0 then -(y.1 : Int) else y.1, e.1, y.2)

/-- A value with 8 fraction bits as an integer; which way a fraction rounds is not stated. -/
def roundFrac (h : Hub) (x : Int) : Int × Hub :=
  if x % 256 = 0 then (x / 256, h) else (x / 256 + h.freeVal 2, h.freeTick)

/-- Saturation to 24 bits, and whether it clipped. -/
def sat24 (x : Int) : Int × Bool := if 2 ^ 23 ≤ x then (2 ^ 23 - 1, true) else if x < -2 ^ 23 then (-2 ^ 23, true) else (x, false)

/-- One sample of sink `k` (R246): sum, scaling, limiter, beacon, saturation. -/
def State.sinkSample (s : State) (k p smp : Nat) (t knee : Nat) : State :=
  let x := s.aud.snk k
  let sum := s.nodeSum k p smp
  let scaled := if x.auto then gainInt sum (-(codeAt x.att smp x.steps : Int)) else sum
  let l := limit s.hub t knee x.env scaled
  let r := roundFrac l.2.2 l.1
  let y := sat24 (r.1 + s.beaconAt k smp)
  let h := if y.2 then (r.2.err AUD.CLIP.COUNT 0 0x0D09 0).raiseRl { code := 0x0D01, detail := [k] } else r.2
  { s with hub := h, aud := s.aud.setSnk k { x with env := l.2.1, sum := sum, out := (y.1 :: x.out).take 1056 } }

/-- Where a sink block goes (Table 12.1): a Hinge core's mailbox 0 at b(p + 2), or another device. -/
def State.sinkOut (s : State) (k p : Nat) : State :=
  let x := s.aud.snk k
  let block := (x.out.take 6).reverse
  match x.kind with
  | 3 =>
    let b : HngBlk := { core := x.ref, kind := 0, id := k, period := p, due := p + 2, words := block.map fun v => BitVec.ofInt 32 v, poison := false }
    { s with hng := { s.hng with inbox := s.hng.inbox ++ [b] } }
  | 4 => s.jlCascade (x.ref % 65536) (x.ref / 65536) p block
  | _ => s

/-- The scaling goal of an AUTO sink after block `p` (R250): a rise at once, a fall once it has held. -/
def State.autoGoal (s : State) (k : Nat) : State :=
  let x := s.aud.snk k
  let n := s.aud.nodes.countP fun e => e.1 / 2048 = k ∧ e.2.now ≠ 0 ∧ s.active (s.aud.src (e.1 % 2048))
  let g := scaleCode (max n 1)
  if !x.auto then s
  else if x.goal < g then
    { s with aud := s.aud.setSnk k { x with goal := g, low := none, due := if x.due.isSome then x.due else some s.smpNow } }
  else if g = x.goal then { s with aud := s.aud.setSnk k { x with low := none } }
  else match x.low with
    | some (g0, _) => if g0 = g then s else { s with aud := s.aud.setSnk k { x with low := some (g, s.hub.elapsed) } }
    | none => { s with aud := s.aud.setSnk k { x with low := some (g, s.hub.elapsed) } }

/-- Mix block `p` of one sink. -/
def State.mixSink (s : State) (p k : Nat) : State :=
  let lim := min (s.hub.get AUD.CFG.LIM) 20
  let t := gainNat (2 ^ 31) (-(4 * lim : Int))
  let knee := gainNat (2 ^ 31) (-(4 * (lim + 6) : Int))
  let s1 := (List.range 6).foldl (fun (a : State) i => a.sinkSample k p (6 * p + i) t knee) s
  let x := s1.aud.snk k
  let m := x.meter.next s1.hub (x.out.take 6)
  let h := (m.2.set1 AUD.SNK_MTR.PEAK k m.1.peakField).set1 AUD.SNK_MTR.RMS k m.1.rmsField
  ({ s1 with
    hub := h
    aud := s1.aud.setSnk k { x with meter := m.1, att := codeAt x.att (2 ^ 62) x.steps, steps := [] } } : State).sinkOut k p

/-- A source after its block `p` has been read: squares, meter, the samples still to come. -/
def State.sourceRead (s : State) (p j : Nat) : State :=
  let x := s.aud.src j
  let b := x.readBlock p
  let sq := b.foldl (fun a v => a + v.natAbs ^ 2) 0
  let m := x.meter.next s.hub b
  let h := (m.2.set1 AUD.SRC_MTR.PEAK j m.1.peakField).set1 AUD.SRC_MTR.RMS j m.1.rmsField
  { s with
    hub := h
    aud := s.aud.setSrc j { x with
      before := b.getLastD 0, squares := (sq :: x.squares).take 80, room := x.room + sq, meter := m.1
      buf := x.buf.filter fun e => decide (6 * (p + 1) ≤ e.1), data := x.data.filter fun e => decide (6 * p < e.1 + 2048) } }

/-- A talker's decoded audio goes to the other devices of its conference (R256), on the cascade channel of its leg's number. -/
def State.talkCascade (s : State) (p : Nat) : State :=
  s.aud.confs.foldl (fun a c =>
    (c.2.talkers.filter fun t => decide (t.leg < 65536)).foldl (fun b t =>
      let block := (b.aud.src (c.2.src + t.t)).readBlock p
      (b.fwd.peers c.1).foldl (fun e d => e.jlCascade d t.leg p block) b) a) s

/-- Decoded blocks of surveyed legs go to their receivers' cores (R265): before the guard filter of R260, whose input is free. A receiver
works on the first of its leg's channels (assumption 125). -/
def State.surveyBlocks (s : State) (p : Nat) : State :=
  s.dbl.dwells.foldl (fun a e =>
    ((a.opusChans e.2.leg).zipIdx).foldl (fun b c1 =>
      let c := c1.1
      let raw := (b.aud.src c.2).readBlock p
      let r := if b.hub.get DBL.CTL.GUARD = 1 then
          raw.foldl (fun (acc : List Int × Hub) _ => (acc.1 ++ [(acc.2.freeSample).1], acc.2.freeTick)) ([], b.hub)
        else (raw, b.hub)
      let k : HngBlk := { core := e.1 / 128, kind := 1, id := e.2.leg, period := p, due := p + 1, words := r.1.map fun v => BitVec.ofInt 32 v, poison := false }
      let dwells := if c1.2 = 0 then kvMod e.1 (fun d => b.hears d r.1) b.dbl.dwells else b.dbl.dwells
      { b with hub := r.2, hng := { b.hng with inbox := b.hng.inbox ++ [k] }, dbl := { b.dbl with dwells := dwells } }) a) s

/-- The level of each decode channel over 10 ms, for talker scores (R256). -/
def State.decodedLevels (s : State) : State :=
  let now := s.hub.elapsed
  { s with aud := { s.aud with decs := s.aud.decs.map fun e =>
      let sq := (s.aud.src e.2.source).squares.foldl (· + ·) 0 / 480
      let lv := if sq = 0 then 127 else min 127 ((levelOfSq sq + 8) / 16)
      (e.1, { e.2 with levels := (now, lv) :: e.2.levels.filter fun v => decide (now < v.1 + 200000000) }) } }

/-! ### Changes at the boundary -/

/-- A depth above JB_MS + 40 ms for 2 s makes O fall by the excess (R254). -/
def AudDec.shrink (d : AudDec) (read now : Nat) : AudDec :=
  let most := 48 * (d.jb + 40)
  if d.tail ≤ read + most then { d with deep := none }
  else match d.deep with
    | some t => if t + 2000000000 ≤ now ∧ d.shift = none then { d with deep := none, shift := some ((read + most : Int) - d.tail, now) } else d
    | none => { d with deep := some now }

/-- A waiting change of O (R254): in the first block whose source is not active, or after 500 ms in any. -/
def State.anchorShift (s : State) (c : Nat) : State :=
  match kvGet c s.aud.decs with
  | none => s
  | some d0 =>
    let read := 6 * s.fab.period
    let now := s.hub.elapsed
    let d := d0.shrink read now
    let x := s.aud.src d.source
    match d.shift with
    | some (v, t) =>
      if s.active x ∧ now < t + 500000000 then { s with aud := { s.aud with decs := kvPut c d s.aud.decs } }
      else
        let moved := x.buf.filterMap fun e => if (read : Int) ≤ (e.1 : Int) + v then some (((e.1 : Int) + v).toNat, e.2) else none
        let d1 : AudDec := { d with
          shift := none, anchor := d.anchor.map fun a => (a.1, a.2 + v), tail := ((d.tail : Int) + v).toNat
          cnt := { d.cnt with reanchor := d.cnt.reanchor + 1, depth := ((d.cnt.depth : Int) + v).toNat } }
        { s with
          hub := (s.hub.err AUD.REANCHOR.COUNT 0 0x0D09 0).raiseRl { code := 0x0D05, detail := [c] }
          aud := { (s.aud.setSrc d.source { x with buf := moved }) with decs := kvPut c d1 s.aud.decs } }
    | none => { s with aud := { s.aud with decs := kvPut c d s.aud.decs } }

/-- Channels that close at a frame boundary now past are closed; an encode channel's last frame is coded first. -/
def State.audCloses (s : State) : State :=
  let read := 6 * s.fab.period
  let decs := s.aud.decs.filter fun e => (e.2.closing.map fun c => decide (c ≤ read)).getD false
  let encs := s.aud.encs.filter fun e => (e.2.closing.map fun c => decide (c + 6 ≤ read)).getD false
  encs.foldl (fun a e => a.encClose e.1) (decs.foldl (fun a e => a.decClose e.1) s)

/-- Node changes whose boundary this is (R248). -/
def State.audSets (s : State) : State :=
  let due := s.aud.sets.filter fun e => decide (e.1 + guardNs ≤ s.hub.elapsed)
  due.foldl (fun a e => a.nodeSet (6 * a.fab.period) e.2)
    { s with aud := { s.aud with sets := s.aud.sets.filter fun e => decide (s.hub.elapsed < e.1 + guardNs) } }

/-- Rooms of conferences that are gone end; profiles of legs that are gone go. -/
def State.audGone (s : State) : State :=
  let s1 := (s.aud.confs.filter fun c => !kvHas c.1 s.fwd.confs).foldl (fun a c => a.confEnd c.1) s
  { s1 with aud := { s1.aud with profs := s1.aud.profs.filter fun e => kvHas e.1 s1.fwd.legs } }

/-- Mix block `p`. -/
def State.mixBlock (s : State) (p : Nat) : State :=
  let s1 := (s.concealAll p).sourceFaults p
  let snks : List Nat := (s1.aud.snks.map (fun (e : Nat × AudSnk) => e.1) ++ s1.aud.nodes.map (fun (e : Nat × AudNode) => e.1 / 2048)).eraseDups
  let s2 := snks.foldl (fun a k => a.mixSink p k) s1
  let s3 := (s2.talkCascade p).surveyBlocks p
  let s4 := (s3.aud.srcs.map (·.1)).foldl (fun a j => a.sourceRead p j) s3
  let nodes := s4.aud.nodes.map fun e => (e.1, { e.2 with code := e.2.now, steps := [] })
  let s5 : State := { s4 with
    hub := (s4.hub.stat AUD.BLOCKS_LO.COUNT 0 s4.hub.xptSize).set AUD.STATUS.NODES (nodes.countP fun e => e.2.code ≠ 0)
    aud := { s4.aud with nodes := nodes } }
  let s6 := snks.foldl (fun a k => a.autoGoal k) s5
  if p % 80 = 79 then s6.decodedLevels else s6

/-- The audio block at the boundary that begins the running period. -/
def State.audBoundary (s : State) : State :=
  let s1 := if s.fab.period = 0 then s else s.mixBlock (s.fab.period - 1)
  let s2 := (s1.aud.decs.map (·.1)).foldl State.anchorShift s1
  s2.audCloses.audSets.audGone.dblCheck

end Sys2Proof.Machine
end

