-- ==== Sys2Proof/Machine/Louvre.lean ====
section
/-!
DEFINITION. The Louvre boundary (chapter 4) and what falls at it: Latches (R84), the refill (R63), starved and late periods
(R69, R74), the end of an emergency (R75), the end of a second (R416), publication (R89), snapshots (R91) and the blocks' own
work of a period; the publication's end, and a software step of the time counter (R59, R310).
-/

namespace Sys2Proof.Machine

/-! ### The period that ends -/

/-- Raise `LVR_STARVED` or `LVR_LIVE_LATE` for a sash. The record's count is of the sashes affected in the second (R77). -/
def State.periodLost (code : Nat) (f : Fld) (s : State) (n : Nat) : State :=
  let h1 := s.hub.err f n 0x0409 0
  let ev : Ev := { code := code, sash := n, detail := [n] }
  if s.fab.secSashes.contains (code, n, s.hub.time.sec) then { s with hub := h1.evtSet code 0 }
  else { s with hub := h1.raiseRl ev, fab := { s.fab with secSashes := s.fab.secSashes ++ [(code, n, s.hub.time.sec)] } }

/-- Sashes with a request still held while its counter is above 0; in an emergency only those presented by the period's start count
(R69, Table 4.4). -/
def FabSt.heldWithTokens (f : FabSt) (emerg : Bool) : List Nat :=
  ((f.held.filter fun q => (!emerg || q.old) && match f.counter q.kind q.index q.req.sash with
    | some c => decide (0 < c.count)
    | none => false).map fun q => q.req.sash).eraseDups

/-- Starved periods outside an emergency (R69), late ones of Live sashes in one (R74). -/
def State.periodEnds (s : State) : State :=
  if !s.granting then s
  else if s.emergency then ((s.fab.heldWithTokens true).filter fun n => s.fab.cls n = 0).foldl (State.periodLost 0x0404 LVR.SASH_LATE.COUNT) s
  else (s.fab.heldWithTokens false).foldl (State.periodLost 0x0401 LVR.SASH_STARVED.COUNT) s

/-! ### The period that begins -/

/-- Tokens used at each resource in the period, kept where it is the highest since the last read (RES_PEAK). -/
def FabSt.peakUse (f : FabSt) : FabSt :=
  f.used.foldl (fun (a : FabSt) e => if (kvGet e.1 a.peaks).getD 0 < e.2 then { a with peaks := kvPut e.1 e.2 a.peaks } else a) f

/-- Every counter is set to its AMOUNT plus its debt, and reservations start anew (R62, R63). -/
def FabSt.refill (f : FabSt) (h : Hub) : FabSt :=
  { f.peakUse with
    used := []
    resv := []
    held := f.held.map fun q => { q with old := true }
    counters := f.counters.map fun c => { c with count := (f.amountHw h c.kind c.index c.sash : Int) + min c.count 0 } }

/-- The first boundary after an emergency has cleared (R75). -/
def State.emergRelease (s : State) : State :=
  if s.fab.releaseDue then
    { s with
      hub := ((s.fab.sashes.foldl (fun (h : Hub) d => h.set1 GLB.SASH_STAT.EMERG_HELD d.id 0) s.hub).raise { code := 0x0403 }).postHeld
      fab := { s.fab with releaseDue := false } }
  else s

/-- Refill, after the release: a warm start's counters start from AMOUNT at the first boundary after READY (R417). -/
def State.refill (s : State) : State := { s with fab := { s.fab.refill s.hub with closed := false } }

/-- A full commit that found 16 Latches pending requests its load Latch (R51, R82); a header read that an emergency held takes place
(R50, R75). -/
def State.loadWaits (s0 : State) : State :=
  let s := s0.loadFree
  match s.ldr.waits with
  | some (bank, img) => if s.lch.pend.length < 16 then s.loadRequest bank img 240000 else s
  | none => s

/-- Vectors and queue pairs that were held to the boundary signal (R93, R369). -/
def Hub.signalBoundary (h : Hub) : Hub :=
  let h1 := h.msiBoundary
  h.qpPend.foldl Hub.qpSignal { h1 with qpFired := [], qpPend := [] }

/-- Pending loss counts of device-to-host FIFOs are written as GAP items (R136). -/
def Hub.gapBoundary (h : Hub) : Hub :=
  h.fifos.foldl (fun (a : Hub) e => if e.1 % 2 = 1 then a.fifoGap e.1 else a) h

/-- The records of seconds that have ended are written (R416). -/
def State.secondEnds (s : State) : State :=
  { s with hub := s.hub.rlFlush, fab := { s.fab with secSashes := s.fab.secSashes.filter fun e => e.2.2 = s.hub.time.sec } }

/-- `GLB.THERM` from the valid die sensors, as (index, °C) (R412). -/
def Hub.therm (h : Hub) (sensors : List (Nat × Int)) : Hub :=
  match sensors with
  | [] => h.set GLB.THERM.VALID_CNT 0
  | x :: t =>
    let hot := t.foldl (fun (a : Nat × Int) b => if a.2 < b.2 ∨ (a.2 = b.2 ∧ b.1 < a.1) then b else a) x
    ((h.set GLB.THERM.HOT_C (min (max hot.2 0) 255).toNat).set GLB.THERM.HOT_ID hot.1).set GLB.THERM.VALID_CNT (min sensors.length 32)

/-- The temperature published is above `DBT.POWER.TJ_LIMIT`, where values above 105 act as 105 (R412, Table 20.8), since when. -/
def State.hotWatch (s : State) : State :=
  if min (s.hub.get DBT.POWER.TJ_LIMIT) 105 < s.hub.get GLB.THERM.HOT_C then
    { s with dbt := { s.dbt with hotAt := some (s.dbt.hotAt.getD s.hub.elapsed) } }
  else { s with dbt := { s.dbt with hotAt := none, hotSaid := false } }

/-! ### Publication (R89) -/

/-- The publication of a boundary starts: `LCH.PUB_GEN` goes odd and every register is copied. -/
def State.publish (s : State) : State :=
  let h := s.hub.set64 LCH.PUB_GEN_LO.GEN 0 (2 * s.fab.boundaries - 1)
  { s with
    hub := { h with pub := ({ s with hub := h } : State).derived.regs }
    fwd := s.fwd.publish s.hub.elapsed
    enc := s.enc.publish
    dec := s.dec.publish
    spl := s.spl.publish
    aud := s.aud.publish
    tim := s.tim.publish }

/-- The generation after the copy: even. -/
def State.published (s : State) : State :=
  if s.hub.get64 LCH.PUB_GEN_LO.GEN 0 % 2 = 1 then { s with hub := s.hub.set64 LCH.PUB_GEN_LO.GEN 0 (s.hub.get64 LCH.PUB_GEN_LO.GEN 0 + 1) } else s

/-- PUBLICATION_DONE (R89): not while the core is frozen, nor from W1 of a warm start to the boundary after READY. -/
def execPublicationDone (s : State) : Host.Outcome State Fault Refusal :=
  .next (if s.granting then s.published else s)

/-! ### The boundary -/

/-- The boundary that begins period `p` is counted. -/
def State.periodBegins (s : State) (p : Nat) : State :=
  { s with
    hub := s.hub.set64 LVR.PERIOD_LO.PERIOD 0 p
    fab := { s.fab with period := p, boundaries := s.fab.boundaries + 1 } }

/-- What falls at a boundary in service, in order (R84): Latches, refill, the blocks' work of the period, publication, captures. -/
def State.boundaryWork (s : State) (step : Bool) (sensors : Option (List (Nat × Int))) : State :=
  let s1 := ((s.boundaryLatches step).quietBoundary).loadWaits
  let s2 := s1.emergRelease.refill
  let s3 : State := { s2 with hub := s2.hub.signalBoundary.gapBoundary }
  let s4 := ((s3.sample s3.fab.boundaries).audBoundary.dblBoundary.tsoBoundary).secondEnds
  ({ s4 with hub := (sensors.map s4.hub.therm).getD s4.hub } : State).hotWatch.publish.snapCapture step

/-- Is the core in service, so that a boundary has its work? During a warm start a boundary takes Latches alone, the load Latch of W6 among
them, until READY (R89, R417). -/
def State.serving (s : State) : Bool := !s.fab.closed || s.hub.get GLB.STATUS.READY == 1

/-- A boundary with the time counter already at it. -/
def State.boundary (s : State) (step : Bool) (sensors : Option (List (Nat × Int))) : State :=
  let p := s.hub.time.period
  if s.hub.get GLB.STATUS.FROZEN = 1 then { s with fab := { s.fab with period := p }, dbt := { s.dbt with missed := s.dbt.missed + 1 } }
  else
    let s1 := s.periodBegins p
    if s1.serving then s1.boundaryWork step sensors else ((s1.boundaryLatches step).loadWaits).secondEnds

/-- The counter reaches the multiple of 125,000 ns at which the next period begins (R58). -/
def State.toBoundary (s : State) : State :=
  let p := if s.fab.period < s.hub.time.period then s.hub.time.period else s.fab.period + 1
  let t := p * 125000
  if s.hub.time.total < t then
    { s with hub := { s.hub with time := Time.ofPeriod p, ticks := s.hub.ticks + (t - s.hub.time.total) / 8 } }
  else s

/-- Is the device powered and out of reset, with no start stopped? -/
def State.alive (s : State) : Bool :=
  match s.start.phase with
  | .held => false
  | .stopped => false
  | _ => true

/-- LOUVRE_BOUNDARY (R58), with the readings of the valid die sensors. -/
def execLouvreBoundary (sensors : List (Nat × Int)) (s : State) : Host.Outcome State Fault Refusal :=
  .next (if !s.alive then s
    else
      s.periodEnds.toBoundary.boundary false (some sensors))

/-- TIME_STEP (R310): a write of `TIM.STEP_CMD`. GO applies the step in one tick, which ends the period (R59); gate lists that are
due take over (R145). -/
def execTimeStep (val : Word) (s : State) : Host.Outcome State Fault Refusal :=
  .next (if !s.hub.hostIn ∨ TIM.STEP_CMD.GO.of val = 0 then s
    else
      let s1 := s.periodEnds.counterStep (TIM.STEP_CMD.NEG.of val == 1)
      let s2 : State := { s1 with hub := (s1.hub.err LVR.REALIGN.COUNT 0 0x0409 0).raise { code := 0x0405 } }
      (s2.boundary true none).gclDue)

end Sys2Proof.Machine
end

