-- ==== Sys2Proof/Machine/Counters.lean ====
section
/-!
DEFINITION. The counters of the register tables, by kind (R95): what a warm start sets to 0, and what a W1C of a block's
CNT_STUCK event clears.
-/

namespace Sys2Proof.Machine

/-- Statistics counters that a warm start sets to 0 (Table 5.7, R131, R178, R203, R221, R240, R258, R272, R291, R338, R362): low
registers. -/
def statCounters : List Fld :=
  [FWD.IN_PKTS_LO.COUNT, FWD.COPIES_LO.COUNT, FWD.SUB_MISS_LO.COUNT, FWD.RTX_LO.COUNT, ENC.STRIPES_LO.COUNT, ENC.BYTES_LO.COUNT,
    DEC.PICS_LO.COUNT, CMP.FRAMES_LO.COUNT, CMP.GLAZE_MISS_LO.COUNT, SPL.FRAMES_LO.COUNT, SPL.BYTES_LO.COUNT, SPL.REFRESH_LO.COUNT] ++
  [VIN.PKTS_LO.COUNT, TSO.BYTES_LO.COUNT, AUD.BLOCKS_LO.COUNT, DBL.DETECT_LO.COUNT, HNG.BUNDLES_LO.COUNT, HNG.STALLS_LO.COUNT,
    MEM.CE_LO.COUNT, LNK.ETH_RX_LO.COUNT, LNK.ETH_TX_LO.COUNT, LNK.JL_FLITS_LO.COUNT]

/-- Error counters that a warm start sets to 0 (R76, R131, R150, R178, R203, R221, R240, R258, R272, R291, R306, R321, R338, R362,
R374). -/
def errCounters : List Fld :=
  [LVR.REALIGN.COUNT, LVR.SASH_STARVED.COUNT, LVR.SASH_LATE.COUNT, FWD.NO_LEG.COUNT, FWD.UNK_SSRC.COUNT, FWD.REPLAY.COUNT,
    FWD.STUN_BAD.COUNT, FWD.PARSE_BAD.COUNT, FWD.NACK_MISS.COUNT, FWD.LATE_DROP.COUNT, FWD.FEC_DROP.COUNT, QSC.OVERSIZE.COUNT,
    QSC.QFULL.COUNT, QSC.FIFO_LOST.COUNT, QSC.FIFO_BAD.COUNT] ++
  [ENC.FLOOR.COUNT, ENC.COPY.COUNT, ENC.DEMOTED.COUNT, ENC.LATE.COUNT, ENC.IN_MISS.COUNT, ENC.HDR_LATE.COUNT, ENC.HDR_BAD.COUNT,
    ENC.RETRY.COUNT, ENC.POISON.COUNT, ENC.REDO.COUNT, DEC.CONCEALED.COUNT, DEC.REF_MISS.COUNT, DEC.LOST.COUNT, DEC.TOO_BIG.COUNT,
    DEC.UNSUPP.COUNT, DEC.IN_DROP.COUNT, DEC.POISON.COUNT] ++
  [CMP.LATE.COUNT, CMP.SKIP.COUNT, CMP.POISON.COUNT, CMP.STALE.COUNT, SPL.SKIP_TILE.COUNT, SPL.SWITCH_RETRY.COUNT, SPL.TPL_BAD.COUNT,
    SPL.STORE_DROP.COUNT, SPL.POISON.COUNT, VIN.LOST.COUNT, VIN.LATE.COUNT, VIN.SKEW_DROP.COUNT, VIN.FMT_BAD.COUNT, VIN.ANC_LATE.COUNT,
    TSO.HELD.COUNT, TSO.KEY_DROP.COUNT] ++
  [AUD.LATE_PKT.COUNT, AUD.PLC.COUNT, AUD.SRC_MISS.COUNT, AUD.CASCADE_MISS.COUNT, AUD.REANCHOR.COUNT, AUD.CLIP.COUNT, AUD.POISON.COUNT,
    DBL.PREEMPTED.COUNT, DBL.COLLIDED.COUNT, DBL.SYNC_FAIL.COUNT, DBL.HDR_FAIL.COUNT, DBL.PAY_FAIL.COUNT, DBL.STALE.COUNT,
    DBL.SKIPPED.COUNT, DBL.BEHIND.COUNT, HNG.MB_DROP.COUNT, HNG.FAULTS.COUNT, HNG.DMA_ERR.COUNT] ++
  [CIP.AUTH_FAIL.COUNT, CIP.OLD_KEY.COUNT, CIP.EMPTY_DROP.COUNT, CIP.EXHAUST_DROP.COUNT, CIP.MISUSE_DROP.COUNT, CIP.IDX_REFUSED.COUNT,
    CIP.FAULT_DROP.COUNT, CIP.RETRY.COUNT, TIM.PTP_DROP.COUNT, TIM.OVERRUN.COUNT, MEM.PAGE_FIX.COUNT, MEM.POISON_WRITTEN.COUNT,
    MEM.PKT_POISON.COUNT, MEM.CA_PARITY.COUNT, MEM.MERGE_POISON.COUNT, MEM.LOG_LOST.COUNT] ++
  [LNK.LANE_PRBS_ERR.COUNT, LNK.ETH_RX_FCS.COUNT, LNK.ETH_TX_DISCARD.COUNT, LNK.ETH_SEC_DROP.COUNT, LNK.ETH_TUN_DROP.COUNT,
    LNK.JL_REPLAY.COUNT, LNK.JL_DROP.COUNT, HIF.NO_QP.COUNT]

/-- Error counters that a warm start keeps: `LCH.LOG_LOST` (R97), the lane counters of Table 15.9, and those of R395 and R396. -/
def keptCounters : List Fld := [LCH.LOG_LOST.COUNT, CIP.LANE_MISMATCH.COUNT, DBT.AUTH_FAIL.COUNT, TST.BIST_FAILS.COUNT]

/-- Is the register at `off` an instance of one of the counters? -/
def isCounter (l : List Fld) (off : Nat) : Bool :=
  match regRow off with
  | some r => l.any fun f => f.base == r.base
  | none => false

/-- Is it the low or the high register of a statistics counter a warm start clears? -/
def isStat (off : Nat) : Bool := isCounter statCounters off || isCounter statCounters (off - 4)

/-- Does a warm start set the register to 0? -/
def warmCleared (off : Nat) : Bool := isStat off || isCounter errCounters off || isMark off

/-- A warm start sets the counters and the high-water marks to 0. -/
def Hub.zeroCounters (h : Hub) : Hub := { h with regs := h.regs.filter fun e => !warmCleared e.1 }

/-- Where the error counters stand that a CNT_STUCK event covers, given its EVT register (R93, R95): the block, or the window of a
unit that has an EVT register of its own. -/
def stuckRange (evt : Nat) : Nat × Nat :=
  if 0xC00000 ≤ evt ∧ evt < 0x1500000 then (evt / 0x10000 * 0x10000, evt / 0x10000 * 0x10000 + 0x10000)
  else
    match (List.range 23).find? fun c => (blockRange c).1 ≤ evt ∧ evt < (blockRange c).2 with
    | some c => blockRange c
    | none => (0, 0)

/-- The CNT_STUCK bit of an EVT register, where it has one. -/
def stuckBit (evt : Nat) : Option Nat :=
  let codes := [0x0409, 0x0509, 0x0608, 0x0708, 0x080A, 0x0908, 0x0A09, 0x0B08, 0x0C0A, 0x0D09, 0x0E07, 0x0F04, 0x100B, 0x1106, 0x1209,
    0x130D, 0x1404, 0x1507, 0x1607]
  (codes.find? fun c => evtOff c 0 = evt ∨ (evtOff c 0 < evt ∧ evt < evtOff c 24 ∧ evt = evtOff c ((evt - evtOff c 0) / 0x10000))).map evtBit

/-- Every error counter of the block that reads 0xFFFF_FFFF reads 0 (R95). -/
def Hub.stuckClear (h : Hub) (evt : Nat) : Hub :=
  let r := stuckRange evt
  { h with regs := h.regs.filter fun e =>
      let off := e.1 % 0x4000000
      !(decide (r.1 ≤ off ∧ off < r.2) && e.2 == BitVec.allOnes 32 && (isCounter errCounters off || isCounter keptCounters off)) }

/-- The same, with the SLOT_FAIL counters, which the key slots hold (R306). -/
def State.stuckClear (s : State) (evt : Nat) : State :=
  let s1 : State := { s with hub := s.hub.stuckClear evt }
  if evt = 0x1A00100 then
    { s1 with cip := { s1.cip with slots := s1.cip.slots.map fun e =>
        (e.1, if e.2.fail = 0xFFFFFFFF then { e.2 with fail := 0 } else e.2) } }
  else s1

end Sys2Proof.Machine
end

