-- ==== Sys2Proof/Machine/StartBase.lean ====
section
/-!
DEFINITION. What a start does to the blocks (chapters 3, 20 and 21): the core's stop at W1 (R417), the image read at a start (R46–R48),
firmware authentication (R54), the Lintel cores (R54, R128, R383), retirements loaded from OTP (R385), and march tests (R389).
-/

namespace Sys2Proof.Machine

/-! ### The end of every unit's work (R417) -/

/-- A TSO with nothing in its buffers. -/
def TsoUnit.drained (x : TsoUnit) : TsoUnit :=
  { x with parts := [], held := [], audio := [], inDgram := 0, fec := 0, stalled := false, frames := [] }

/-- Work of the image units, splicers, inputs and outputs ends: frames in progress, pictures and receivers (R203, R417, Table 10.9). -/
def State.mediaStop (s : State) : State :=
  { s with
    hub := (List.range (s.hub.unitCount 2)).foldl (fun (h : Hub) i => h.set1 DEC.STATUS.CONTEXTS i 0) s.hub
    enc := { s.enc with
      shares := s.enc.shares.map fun e => (e.1, { e.2 with frames := [] })
      sides := s.enc.sides.map fun e => (e.1, { e.2 with held := [], pics := [], lines := [], missed := [], gaps := [] }) }
    dec := {}
    cmp := { s.cmp with units := s.cmp.units.map fun e =>
      (e.1, { e.2 with layers := [], frames := [], passed := [], toFree := [], held := [] }) }
    spl := { s.spl with recvs := [], store := [] }
    bio := { vins := s.bio.vins.map fun e => (e.1, { e.2 with groups := [], frames := [], store := [] })
             tsos := s.bio.tsos.map fun e => (e.1, e.2.drained) } }

/-- Audio (chapter 12): channels close, large rooms end, every node and scaling code is OFF at once, meters are clear. -/
def State.audioStop (s : State) : State :=
  let s1 := (s.aud.confs.map (·.1)).foldl State.confEnd s
  let s2 := (s1.aud.decs.map (·.1)).foldl State.decClose s1
  let s3 := (s2.aud.encs.map (·.1)).foldl State.encClose s2
  { s3 with aud := { s3.aud with
    nodes := [], sets := [], voices := []
    snks := s3.aud.snks.map fun e => (e.1, { e.2 with att := 0, goal := 0, due := none, steps := [], low := none, meter := {} })
    srcs := s3.aud.srcs.map fun e => (e.1, { e.2 with meter := {} }) } }

/-- Egress queues lose their contents, pending gate lists and virtual times (R141, R150). -/
def State.queueStop (s : State) : State :=
  { s with
    hub := (List.range 32).foldl (fun (h : Hub) p => h.set1 QSC.GCL_STAT.PENDING p 0) s.hub
    qsc := { s.qsc with
      queues := s.qsc.queues.map fun e => (e.1, { e.2 with items := [], tag := 0, wheel := none, eligible := 0 })
      vtime := [], pending := [] } }

/-- Key writes in progress are lost (R305): BUSY of every window reads 0. -/
def Hub.keyIdle (h : Hub) : Hub :=
  { h with regs := h.regs.filterMap fun e =>
      if e.1 % 0x4000000 = CIP.KW_STAT.BUSY.base then
        (if CIP.KW_STAT.BUSY.into e.2 0 = 0 then none else some (e.1, CIP.KW_STAT.BUSY.into e.2 0))
      else some e }

/-- Services: commands taken are discarded without completion; a handover in progress ends on both sides (Table 19.6). -/
def State.serviceStop (s : State) : State :=
  { s with
    hub := { s.hub with cmds := [], heldDb := [], qpPend := [] }
    fwd := { s.fwd with
      removals := s.fwd.removals.map fun r => { r with env := none }
      outs := s.fwd.outs.map fun e => (e.1, { e.2 with held := false }) }
    lnk := { s.lnk with hand := [], handIn := [] } }

/-- BAR2 reads held for a page decode complete with all ones (Table 19.6). -/
def State.bar2Abort (s : State) : State :=
  { s with
    hub := s.hub.emits (s.mem.held.map fun q => .memRead q.off (List.replicate q.len 0xFF) false)
    mem := { s.mem with held := [] } }

/-- Every Jorras link goes DOWN (R359). -/
def State.linksDown (s : State) : State :=
  ((s.fab.ports.filter fun p => p.kind = 2).map (·.number)).foldl (fun a n => a.jlEnter n 1) s

/-- Stacks in a state enter another. -/
def Hub.stacksTo (h : Hub) (old new : Nat) : Hub :=
  (List.range (h.unitCount 15)).foldl (fun a n => if a.get1 MEM.HBM_STAT.STATE n = old then a.set1 MEM.HBM_STAT.STATE n new else a) h

/-- The Latch at a warm start (R86): waiting items take effect, as every work boundary has passed; pending Latches and the open set
are discarded; every shadow takes its value in force. -/
def State.latchStop (s : State) : State :=
  let s1 := s.lch.waiting.foldl (fun (a : State) e => a.itemApply e.2) { s with lch := { s.lch with waiting := [] } }
  let s2 := s1.ldr.persWait.foldl (fun (a : State) e => a.persSet e.1 e.2) s1
  ({ s2 with lch := { s2.lch with pend := [], openSet := [] }, hub := { s2.hub with shadow := s2.hub.regs } } : State).latchStatus

/-- The loader at a warm start (R53): an interrupted load and a queued commit are lost; a sash whose partial commit was being parsed is
rebuilt from its definition in force. -/
def State.loaderStop (s : State) : State :=
  { s with
    hub := (s.hub.set IMG.STATUS.BUSY 0).set IMG.STATUS.QUEUED 0
    ldr := { s.ldr with busy := none, queue := none, waits := none, images := [], persWait := [] }
    fab := { s.fab with pend := s.fab.pend.map fun e => (e.1, if e.2.ready then e.2 else { inForce := true }) } }

/-- The fabric at W1 (R417): requests are withdrawn, debts dropped, grants stop. -/
def State.fabricStop (s : State) : State :=
  { s with
    hub := if s.hub.get64 LCH.PUB_GEN_LO.GEN 0 % 2 = 1 then s.hub else s.hub.set64 LCH.PUB_GEN_LO.GEN 0 (s.hub.get64 LCH.PUB_GEN_LO.GEN 0 + 1)
    fab := { s.fab with closed := true, held := [], grants := [], counters := s.fab.counters.map fun c => { c with count := 0, tag := 0 }, used := [], vtime := [], olds := [] } }

/-- W1 in full: the core stops, merge buffers are flushed first (R333), HBM enters self-refresh, counters read 0. -/
def State.coreStop (s : State) : State :=
  let s1 := (s.mergeFlushAll.latchStop).loaderStop.fabricStop
  let s2 := (s1.mediaStop.audioStop.queueStop.serviceStop.bar2Abort).hngWarm s1.ldr.hngs
  let s3 := (s2.linksDown).timeLoss 2
  let s4 := s3.dbt.tests.foldl (fun (a : State) t => a.bistAbort t.ty t.inst) s3
  { s4 with
    hub := ((s4.hub.keyIdle).stacksTo 2 4).zeroCounters
    cip := { s4.cip with jobs := [] }
    dbl := { s4.dbl with tx := [], dwells := [], edges := [] }
    dbt := { s4.dbt with bistSched := [], selfRefresh := true } }

/-! ### The image at a start (R46–R48) -/

/-- The capacity of a bank. -/
def bankCap : Nat := 268435456

/-- The LINTEL_FW records and interop level of a bank that has the MAGIC (R48); without it, NO_MAGIC and no firmware. -/
def State.startRead (s : State) (bank : Bool) : State :=
  if imgMagic (s.bankByte bank) then
    let x := imgHeader (s.bankByte bank) bankCap
    { s with
      hub := s.hub.set IMG.INTEROP.LEVEL x.interop
      ldr := { s.ldr with fws := imgFws (s.bankByte bank) x } }
  else { s with hub := s.hub.noMagic, ldr := { s.ldr with fws := [] } }

/-- A full load at a start begins (R47, R48): the loader parses as at a commit, and its load Latch is a NEXT commit like any other (R51, R84)
that carries the open set (R399). -/
def State.startLoad (s : State) (bank : Bool) : State := s.loadStart { bank := bank, scope := false, sash := 0 }

/-- Is the loader done with a full load: parsed, and its load Latch applied (Table 21.1, step 9)? -/
def LdrSt.loaded (l : LdrSt) : Bool := l.busy.isNone && l.waits.isNone && l.images.isEmpty

/-- The lane plan of a bank with the MAGIC. -/
def State.bankPlan (s : State) (bank : Bool) : Option (List PortRec) :=
  if imgMagic (s.bankByte bank) then some (imgPorts (s.bankByte bank) (imgHeader (s.bankByte bank) bankCap)) else none

/-- The resident bank. -/
def Hub.residentBank (h : Hub) : Bool := h.get IMG.STATUS.RES_BANK == 1

/-- The lane plan at W5: of the bank a full commit names, else of the resident bank; without a MAGIC the plan in force (R48). -/
def State.warmPlan (s : State) : List PortRec :=
  (s.bankPlan (s.ldr.warmBank.getD s.hub.residentBank)).getD s.fab.ports

/-- The end of W6 (R48): the firmware and interop level of the bank a full load has taken, or of the resident bank as its bytes now stand;
where the load has found no MAGIC there is no firmware. The Hinge cores' memories are rewritten from the resident bank (R290). -/
def State.warmImage (s : State) : State :=
  let s1 : State := match s.ldr.warmBank with
    | some b =>
      let t : State := { s with ldr := { s.ldr with warmBank := none } }
      if imgMagic (s.bankByte b) then t.startRead b else { t with ldr := { t.ldr with fws := [] } }
    | none => s.startRead s.hub.residentBank
  let bank := s1.hub.residentBank
  let l := if imgMagic (s1.bankByte bank) then (readImage (s1.bankByte bank) (imgHeader (s1.bankByte bank) bankCap)).hngs else s1.ldr.hngs
  ({ s1 with ldr := { s1.ldr with hngs := l } } : State).hngWarm l

/-- The length the loader takes of the image in flash: 3-byte addresses reach 16 MiB (R47). -/
def LdrSt.flashLen (l : LdrSt) : Nat :=
  let n := (imgHeader (memRead l.flash) bankCap).len
  if l.flashSfdp then n else min n 16777216

/-- Write a byte of bank A. -/
def State.bankPut (s : State) (o : Nat) (b : Byte) : State :=
  match s.hub.bar2Mem (s.hub.bankBase false + o) with
  | some (mem, a) =>
    match cellOf mem 0 a with
    | some c => { s with mem := s.mem.putByte c b }
    | none => s
  | none => s

/-- The first `n` bytes of bank A are set to 0. -/
def State.bankClear (s : State) (n : Nat) : State :=
  match s.hub.bar2Mem (s.hub.bankBase false) with
  | some (mem, a) =>
    let hit := fun (c : Nat) => match addrOf mem 0 c with
      | some x => decide (a ≤ x ∧ x < a + n)
      | none => false
    { s with mem := ((s.mem.cells.map (·.1)).filter hit).foldl (fun (m : MemSt) c => m.putByte c 0) s.mem }
  | none => s

/-- FLASH_IMAGE_COPY (R47): IMAGE_LEN bytes of flash go to bank A; a byte the flash does not list is 0. -/
def State.flashCopy (s : State) : State :=
  let n := s.ldr.flashLen
  let s1 := (s.ldr.flash.filter fun c => decide (c.1 < n)).foldl (fun (a : State) c => a.bankPut c.1 c.2) (s.bankClear n)
  let cut := if !s.ldr.flashSfdp && decide (16777216 < (imgHeader (memRead s.ldr.flash) bankCap).len) then 1 else 0
  { s1 with hub := s1.hub.set IMG.STATUS.FLASH_CUT cut }

/-- Do the flash's first bytes carry the MAGIC, with the flash as boot source (R418)? -/
def LdrSt.flashBoots (l : LdrSt) : Bool := !l.bootHost && imgMagic (memRead l.flash)

/-! ### Firmware (R54) and Lintel cores -/

/-- Does a blob name a core? -/
def FwRec.names (r : FwRec) (n : Nat) : Bool := r.cores.testBit n

/-- Before authentication no core runs: every unretired core a blob names reads VERIFYING, the others NONE, and no service runs. -/
def State.fwBegin (s : State) : State :=
  let h := (List.range 16).foldl (fun (a : Hub) n =>
    let v := if s.ldr.fws.any (·.names n) ∧ a.get1 DBT.CH_LIN.STATE n ≠ 3 then 1 else 0
    ((a.set1 IMG.FW_STAT.STATE n v).set1 IMG.FW_STAT.SERVICE n 0).set1 DBT.CH_LIN.SERVED_BY n n) s.hub
  { s with hub := (List.range 128).foldl (fun (a : Hub) n => (a.set1 HIF.SVC_STAT.STATE n 0).set1 HIF.SVC_STAT.CORES n 0) h }

/-- The CODE of a blob is copied into each core it names, at LOAD; what lies past the core's memory is discarded (R54). -/
def LdrSt.fwCopy (l : LdrSt) (r : FwRec) : LdrSt :=
  let code := r.code.take (Config.lintelMemory - r.load)
  (List.range 16).foldl (fun (a : LdrSt) n =>
    if r.names n then { a with lintel := kvPut n (memWriteList ((kvGet n a.lintel).getD []) r.load code) a.lintel } else a) l

/-- FW_BLOB_VERIFY (R54): `oks` says which signatures are good, in image order; a KEY_IDX above 3 fails (Table 3.11). A rejected blob is
reported, and the cores it names read FW_REJECTED where no verified blob names them; the verified ones are copied and kept for the start of
the cores. -/
def State.fwVerify (s : State) (oks : List Bool) : State :=
  let tagged := (List.range s.ldr.fws.length).filterMap fun k => (s.ldr.fws[k]?).map fun r => (r, oks.getD k false && decide (r.keyIdx < 4))
  let good := (tagged.filter (·.2)).map (·.1)
  let bad := (tagged.filter fun e => !e.2).map (·.1)
  let h1 := bad.foldl (fun (a : Hub) r => (a.set1 HIF.SVC_STAT.STATE r.service 2).raise { code := 0x0305, detail := [r.off, r.service] }) s.hub
  let h2 := (List.range 16).foldl (fun (a : Hub) n =>
    let retired := a.get1 DBT.CH_LIN.STATE n == 3
    match (bad.filter (·.names n)).getLast? with
    | some r =>
      if retired || !good.any (·.names n) then (a.set1 IMG.FW_STAT.STATE n 3).set1 IMG.FW_STAT.SERVICE n r.service else a
    | none => if retired then a.set1 IMG.FW_STAT.STATE n 0 else a) h1
  { s with hub := h2, ldr := good.foldl LdrSt.fwCopy { s.ldr with fws := good } }

/-- A core runs a blob. -/
def Hub.coreRun (h : Hub) (n svc : Nat) : Hub := ((h.set1 IMG.FW_STAT.STATE n 2).set1 IMG.FW_STAT.SERVICE n svc).svcCore svc n true

/-- The verified blobs start (R54, R128, R383): each unretired core runs the last blob that names it; each blob that names a retired core
also runs on a substitute; the services start. -/
def State.lintelStart (s : State) : State :=
  let h1 := (List.range 16).foldl (fun (a : Hub) n =>
    if a.get1 DBT.CH_LIN.STATE n = 3 then a
    else match (s.ldr.fws.filter (·.names n)).getLast? with
      | some r => a.coreRun n r.service
      | none => a) s.hub
  let h2 := s.ldr.fws.foldl (fun (a : Hub) r =>
    let lost := (List.range 16).filter fun n => r.names n && a.get1 DBT.CH_LIN.STATE n == 3
    match lost, a.freeLintel with
    | [], _ => a
    | l, some k => l.foldl (fun b n => b.set1 DBT.CH_LIN.SERVED_BY n k) (a.coreRun k r.service)
    | _, none => a) h1
  let svcs := (s.ldr.fws.map (·.service)).eraseDups.filter fun n => h2.get1 HIF.SVC_STAT.STATE n = 1
  svcs.foldl State.svcStart { s with hub := h2 }

/-! ### March tests (R389) -/

/-- A march test's failing words: a transient for each, and a permanent declaration where two passes failed. -/
def State.marchFails (s : State) (l : List MarchFail) : State :=
  l.foldl (fun (a : State) f =>
    let a1 := (List.range f.words).foldl (fun (b : State) _ => b.transient f.channel) a
    if f.twice then a1.permanent f.channel 3 else a1) s

/-- Does a cell lie in the Deadbolt's region (Table 17.1)? -/
def inDbtRegion (c : Nat) : Bool := decide (sramBase + 0x13800000 ≤ c ∧ c < sramBase + 0x13900000)

/-- The contents of the SRAM outside the Deadbolt's region are lost. -/
def MemSt.sramLost (m : MemSt) : MemSt :=
  let keep := fun (c : Nat) => decide (c < sramBase) || inDbtRegion c
  { m with cells := m.cells.filter (fun e => keep e.1), dev := m.dev.filter (fun e => keep e.1), diff := m.diff.filter (fun e => keep e.1), merge := [] }

/-- The PAGE channels of the SRAM outside the Deadbolt's region (R335, Table 17.1). -/
def sramChannels : Nat := 163840 - 512

/-- The march of all SRAM, at a cold start or with RECOVERY; `TST_MARCH_DONE` carries how many channels the test covered. -/
def State.marchSram (s : State) (l : List MarchFail) : State :=
  let s1 := ({ s with mem := s.mem.sramLost } : State).marchFails l
  { s1 with hub := s1.hub.raise { code := 0x1605, detail := [sramChannels] } }

/-! ### Retirements from OTP (R385) -/

/-- One OTP entry is applied before any sash is built: the channel reads RETIRED with cause OTP. -/
def State.otpApply (s : State) (e : Nat) : State :=
  let ch := s.hub.get1 DBT.OTP_HI.CHANNEL e
  let spare := s.hub.get1 DBT.OTP_LO.SPARE e
  let said := fun (h : Hub) (c : Nat) => (h.raise { code := 0x1502, channel := c, detail := [5] }).raise { code := 0x1503, channel := c }
  if ch = 0 ∨ s.isRetired ch then s
  else match s.hub.chan ch with
    | .none => s
    | .page =>
      let pool := pagePool ch
      let used := (kvGet pool.1 s.dbt.sparesUsed).getD 0
      { s with
        hub := said s.hub ch
        dbt := { s.dbt with
          remaps := s.dbt.remaps ++ [⟨ch, spare, true⟩]
          sparesUsed := if spare = 0xFFF then s.dbt.sparesUsed else kvPut pool.1 (max used (spare + 1)) s.dbt.sparesUsed } }
    | .lintel n => { s with hub := said ((s.hub.chanRetired (.lintel n) 5).chanSet (.lintel n) DBT.CH.OTP 1) ch }
    | .unit ty i =>
      let c := ChanReg.unit ty i
      let h := (s.hub.chanRetired c 5).chanSet c DBT.CH.OTP 1
      if ty = 9 ∨ ty = 10 then
        let o := ChanReg.unit (if ty = 9 then 10 else 9) i
        { s with hub := said (said ((h.chanRetired o 5).chanSet o DBT.CH.OTP 1) ch) (chanId (if ty = 9 then 10 else 9) i) }
      else if ty = 13 then { s with hub := said (h.laneSleep i 5) ch }
      else { s with hub := said h ch }

/-- Cold step 3: all 64 entries, in order. A declaration is a Shutter trigger where the policy has one (R390). -/
def State.otpLoad (s : State) : State :=
  let t := (List.range 64).foldl State.otpApply s
  if t.hub = s.hub then t else t.shutterTrigger 3

end Sys2Proof.Machine
end

