-- ==== Sys2Proof/Machine/Start.lean ====
section
/-!
DEFINITION. Cold and warm starts (chapter 21): the steps of Tables 21.1 and 21.2, failed steps (R401), and requests that meet a start
(R402).
-/

namespace Sys2Proof.Machine

/-! ### Step bookkeeping (R401, R403) -/

/-- What `GLB.START_STATUS.STEP` reads in a phase: a warm step reads the cold step it replaces, W1 reads 15 (Table 21.5). -/
def Phase.step : Phase → Nat
  | .cold n => n
  | .coldLate7 => 7
  | .warm n => [0, 15, 8, 5, 6, 7, 9, 10, 11, 12, 14].getD n 14
  | _ => 14

/-- A step begins. -/
def State.enter (s : State) (p : Phase) : State :=
  { s with
    hub := (s.hub.set GLB.START_STATUS.STEP p.step).set GLB.START_STATUS.RETRIES 0
    start := { s.start with phase := p, repeats := 0, stepAt := s.hub.elapsed } }

/-- START_STEP_RETRY (R401): a step that missed its end condition runs again, up to 3 times. -/
def State.stepRetry (s : State) : State :=
  let n := s.start.repeats + 1
  { s with
    hub := (s.hub.set GLB.START_STATUS.RETRIES n).raise { code := 0x0213, detail := [s.start.phase.step, n] }
    start := { s.start with repeats := n, stepAt := s.hub.elapsed } }

/-! ### The cold start begins (R398) -/

/-- OTP and fuses, which a cold start keeps. -/
def otpRegs (regs : List (Nat × Word)) : List (Nat × Word) := regs.filter fun e => decide (e.1 < 0x10 ∨ (0x2800200 ≤ e.1 ∧ e.1 < 0x2800400))

/-- The shared state at a cold start: every register at its Reset value, OTP and fuses kept. -/
def Hub.coldReset (h : Hub) : Hub :=
  { regs := otpRegs h.regs, shadow := otpRegs h.regs, pub := otpRegs h.regs, ticks := h.ticks, hostMem := h.hostMem, out := h.out, free := h.free }

/-- The device with nothing running, `QSC.EGR_LIMIT` and the power cap as the part's fuses have them (Tables 1.2 and 1.4): what a cold start takes from before is OTP, fuses, the flash, the pins and the record of outputs. -/
def State.coldReset (s : State) : State :=
  let used := ((List.range 64).filter fun e => s.hub.get1 DBT.OTP_HI.CHANNEL e ≠ 0).length
  let fused := (s.hub.coldReset.set QSC.EGR_LIMIT.GBPS s.hub.ethGbps).set DBT.POWER.CAP_W (partPower (s.hub.get GLB.VARIANT.PART))
  let h := (fused.set DBT.STATUS.OTP_USED used).set DBT.STATUS.MGMT_KEY (if s.dbt.mgmtKey = 0 then 0 else 1)
  { hub := h
    ldr := { flash := s.ldr.flash, flashSfdp := s.ldr.flashSfdp, bootHost := s.ldr.bootHost }
    dbt := { mgmtKey := s.dbt.mgmtKey, shutPin := s.dbt.shutPin }
    pending := s.pending }

/-- A cold start begins at step 1, for the reason `source` (Table 21.5). -/
def State.coldBegin (s : State) (source : Nat) : State :=
  let s1 := s.coldReset
  let h := (s1.hub.set GLB.START_STATUS.STATE 0).set GLB.START_STATUS.SOURCE source
  ({ s1 with hub := h, start := { trigger := s.hub.ticks } } : State).enter (.cold 1)

/-- COLD_START (R398): `RESET_N` rises with `CORE_PG` high. -/
def execColdStart (s : State) : Host.Outcome State Fault Refusal :=
  .next (if s.start.phase = .held then s.coldBegin 0 else s)

/-- The device is held: everything in progress is abandoned. The Deadbolt keeps running, with its registers, until the next cold start
returns them to their Reset values (R399, R407). -/
def State.holdReset (s : State) : State :=
  let t := s.coldReset
  let dbt := s.hub.regs.filter fun e => decide (e.1 < 0x10 ∨ (0x2800000 ≤ e.1 ∧ e.1 < 0x3000000))
  { t with
    hub := { t.hub with regs := dbt, shadow := dbt, pub := dbt }
    dbt := { mgmtKey := s.dbt.mgmtKey, wrapKey := s.dbt.wrapKey, nonce := s.dbt.nonce, nonceAt := s.dbt.nonceAt, leaks := s.dbt.leaks, pageAge := s.dbt.pageAge,
             restarting := s.dbt.restarting, mismatchAt := s.dbt.mismatchAt, shutPin := s.dbt.shutPin } }

/-- RESET_N_FALL (R402). -/
def execResetNFall (s : State) : Host.Outcome State Fault Refusal := .next s.holdReset

/-- POWER_LOSS (R407): `CORE_PG` falls, or a supply leaves its range; memory contents are lost. -/
def execPowerLoss (s : State) : Host.Outcome State Fault Refusal := .next s.holdReset

/-! ### Warm requests (R400, R402) -/

/-- The capture of the shadows of `IMG.COMMIT` at a warm request (R48): the bank of a full commit whose GO stands there. -/
def State.warmCapture (s : State) : Option Bool :=
  let commit := s.hub.rdShadow 0x300004
  if IMG.COMMIT.GO.of commit = 1 ∧ IMG.COMMIT.SCOPE.of commit = 0 then some (IMG.COMMIT.BANK.of commit == 1) else none

/-- A warm start begins at W1. `again` restarts one in progress: the captured commit, the source and the trigger stay (R48). -/
def State.warmBegin (s : State) (r : WarmReq) (again : Bool) : State :=
  let recovery := r.recovery
  let source := r.source
  let bank := if again then s.ldr.warmBank else r.bank
  let s1 := s.coreStop
  let h0 := ((s1.hub.set GLB.STATUS.WARM 1).set GLB.STATUS.READY 0).set GLB.STATUS.FROZEN 0
  let h1 := ((h0.set GLB.START_STATUS.STATE 1).set GLB.START_STATUS.CODE 0).set GLB.START_STATUS.RECOVERY (if recovery then 1 else 0)
  let h2 := (h1.set GLB.START_STATUS.KEPT_KEYS (h1.get DBT.POLICY.KEEP_KEYS)).set GLB.START_STATUS.SOURCE
    (if again then s.hub.get GLB.START_STATUS.SOURCE else source)
  let st : StartSt := { s1.start with
    degraded := again && s1.start.degraded, warmReq := none, trigger := if again then s1.start.trigger else s.hub.ticks }
  ({ s1 with hub := { h2 with bar := .frozen }, ldr := { s1.ldr with warmBank := bank }, start := st } : State).enter (.warm 1)

/-- Two requests held join: RECOVERY is set when either sets it; the commit captured is the first one's (assumption 89). -/
def WarmReq.join (old : Option WarmReq) (x : WarmReq) : WarmReq :=
  match old with
  | some o => { x with recovery := o.recovery || x.recovery, bank := o.bank }
  | none => x

/-- A warm start is requested (R400): held during a Shutter and during a start, without effect on a stopped device (R401, R402). -/
def State.warmAsk (s : State) (r : WarmReq) : State :=
  let hold : State := { s with start := { s.start with warmReq := some (WarmReq.join s.start.warmReq r) } }
  match s.start.phase with
  | .held => s
  | .stopped => s
  | .running => if s.hub.get GLB.STATUS.FROZEN = 1 then hold else s.warmBegin r false
  | _ => hold

/-- A warm start is requested, with the shadows of `IMG.COMMIT` captured now (R48). -/
def State.warmRequest (s : State) (recovery : Bool) (source : Nat) : State := s.warmAsk ⟨recovery, source, s.warmCapture⟩

/-- WARM_N_FALL (R400): RECOVERY 0. -/
def execWarmNFall (s : State) : Host.Outcome State Fault Refusal := .next (s.warmRequest false 1)

/-- START_CTL_WARM (R400): a write of `GLB.START_CTL` through the PF window. Registers of the start block answer from the end of cold
step 4 (R399). -/
def execStartCtlWarm (fn : Nat) (val : Word) (s : State) : Host.Outcome State Fault Refusal :=
  .next (if fn = 0 ∧ !s.hub.pcieDown ∧ (s.hub.bar = .live ∨ s.hub.bar = .early) ∧ GLB.START_CTL.WARM.of val = 1 then
      s.warmRequest (GLB.START_CTL.RECOVERY.of val == 1) 2
    else s)

/-! ### Failed steps (R401, Table 21.3) -/

/-- The start stops with a code; a warm start performs a cold start instead. -/
def State.startStop (s : State) (code : Nat) : State :=
  match s.start.phase with
  | .warm _ => s.coldBegin 5
  | p =>
    let h := (s.hub.set GLB.START_STATUS.STATE 4).set GLB.START_STATUS.CODE code
    { s with
      hub := h.raise { code := 0x0214, detail := [p.step, code] }
      start := { s.start with phase := .stopped, warmReq := none, shutReq := none } }

/-- A stack fails training (R325, R383): FAILED; its pseudo-channels read RETIRED with cause TRAINING and no OTP entry. -/
def State.stackFail (s : State) (n : Nat) : State :=
  let h0 := (s.hub.set1 MEM.HBM_STAT.STATE n 3).raise { code := 0x1206, detail := [n, 0] }
  let h := (List.range 64).foldl (fun (a : Hub) k =>
    let c := ChanReg.unit 15 (64 * n + k)
    let ch := chanId 15 (64 * n + k)
    if a.chanGet c DBT.CH.STATE = 3 then a
    else ((a.raise { code := 0x1502, channel := ch, detail := [7] }).chanRetired c 7).raise { code := 0x1503, channel := ch }) h0
  ({ s with hub := h, start := { s.start with degraded := true } } : State).shutterTrigger 3

/-- Lanes of built ports that are still calibrating. -/
def State.lanesOpen (s : State) : List Nat :=
  (s.fab.ports.flatMap PortRec.laneList).filter fun n => s.hub.get1 LNK.LANE_STAT.STATE n = 1 ∨ s.hub.get1 LNK.LANE_STAT.STATE n = 2

/-- Lanes that do not calibrate are retired with cause TRAINING (R344). -/
def State.lanesFail (s : State) : State :=
  s.lanesOpen.foldl (fun (a : State) n => a.permanent (chanId 13 n) 7) { s with start := { s.start with degraded := true } }

/-- Cores that do not start are retired (Table 20.5). -/
def State.coresFail (s : State) (cores : List Nat) : State :=
  cores.foldl (fun (a : State) n => a.permanent (chanId 0x21 n) 1) { s with start := { s.start with degraded := true } }

/-! ### Step ends -/

/-- The stacks in service take their places behind BAR2, and the banks theirs (R48, R325). -/
def Hub.hbmPlaced (h : Hub) : Hub :=
  let h1 := (h.set1 MEM.HBM_STAT.BAR2_GIB 0 0).set1 MEM.HBM_STAT.BAR2_GIB 1 (if h.stackUp 0 && h.stackUp 1 then 32 else 0)
  let h2 := (h1.set IMG.BANK_A_BASE_HI.OFFSET_HI (h1.bankBase false / 2 ^ 32)).set IMG.BANK_A_BASE_LO.OFFSET_LO (h1.bankBase false)
  (h2.set IMG.BANK_B_BASE_HI.OFFSET_HI (h1.bankBase true / 2 ^ 32)).set IMG.BANK_B_BASE_LO.OFFSET_LO (h1.bankBase true)

/-- Partitions in force are cut anew at the ends their memory now has (Table 3.6, R48). -/
def State.recutParts (s : State) : State :=
  { s with fab := { s.fab with parts := s.fab.parts.map fun p => s.hub.cutPart { p with size := (partOf p.raw).size } } }

/-- Cold step 6 begins: stacks train, save those that hold a pseudo-channel recorded in OTP (Table 21.1). -/
def State.hbmBegin (s : State) : State :=
  (List.range (s.hub.unitCount 15)).foldl (fun (a : State) n =>
    if (List.range 64).any fun k => a.hub.get2 DBT.CH.STATE 15 (64 * n + k) == 3 then
      { a with hub := (a.hub.set1 MEM.HBM_STAT.STATE n 3).raise { code := 0x1206, detail := [n, 1] }, start := { a.start with degraded := true } }
    else { a with hub := a.hub.set1 MEM.HBM_STAT.STATE n 1 }) s

/-- A Shutter trigger held by the early steps acts (R402). -/
def State.heldTrigger (s : State) : State :=
  match s.start.shutReq with
  | some c => ({ s with start := { s.start with shutReq := none } } : State).freeze c
  | none => s

/-- Cold step 13 begins: every PTP-enabled port runs as BMCA with its default intervals (Table 21.1). -/
def State.ptpBegin (s : State) : State :=
  let on := (List.range 32).filter fun p => s.hub.get1 TIM.PORT_CFG.PTP_EN p = 1
  { s with tim := { s.tim with stepped := false, ports := on.foldl (fun l p => if kvHas p l then l else kvPut p { role := 1 } l) s.tim.ports } }

/-- Is step 13 skipped? -/
def Hub.ptpSkipped (h : Hub) : Bool :=
  h.get TIM.CFG.SERVO == 1 || !(List.range 32).any fun p => h.get1 TIM.PORT_CFG.PTP_EN p == 1

/-- A start's last step (Tables 21.1 and 21.2): READY; the registers and event of R403 and R404; cores with images run (R290). -/
def State.opens (s : State) (warm : Bool) : State :=
  let h0 := if warm then (List.range 1024).foldl (fun (a : Hub) q => if a.qpOn q then a.qpFlush q else a) s.hub else s.hub
  let ms := min ((s.hub.ticks - s.start.trigger) / 125000) 0xFFFFFFFF
  let h1 := (((h0.set GLB.STATUS.READY 1).set GLB.STATUS.WARM 0).set GLB.START_TIME.MS ms).set GLB.START_STATUS.STATE
    (if s.start.degraded then 3 else 2)
  let h2 := if h1.get TST.SHUT_STAT.STATE = 3 then h1.set TST.SHUT_STAT.STATE 0 else h1
  let h3 := if s.start.degraded then h2.raise { code := 0x0212 }
    else h2.raise { code := 0x0211, detail := [h2.get GLB.START_STATUS.SOURCE, ms] }
  let s1 : State := { s with
    hub := { h3 with bar := .live, heldDb := [] }
    start := { s.start with phase := .running, opened := true, warmReq := none } }
  let s1 := if s.start.opened then s1 else s1.bistRestart
  let s2 := ((List.range (s.hub.unitCount 5)).filter fun n => hngRecs s.ldr.hngs n ≠ []).foldl State.hngStart s1
  let s3 := s2.dbt.bistDue.foldl State.bistDue { s2 with dbt := { s2.dbt with bistDue := [] } }
  match s.start.warmReq with
  | some r => s3.warmBegin r false
  | none => s3

/-- Enter cold step 12 to 14: 13 may be skipped. -/
def State.afterLinks (s : State) : State := if s.hub.ptpSkipped then s.enter (.cold 14) else s.ptpBegin.enter (.cold 13)

/-- Cold step `n` has ended, with the next beginning (Table 21.1, R418). -/
def State.coldNext (s : State) (n : Nat) (r : StepEnd) : State :=
  match n with
  | 1 => s.enter (.cold 2)
  | 2 => s.enter (.cold 3)
  | 3 =>
    let s1 := s.otpLoad.enter (.cold 4)
    { s1 with hub := s1.hub.setVdd 750 }
  | 4 => ({ s with hub := { s.hub with bar := .early } } : State).enter (.cold 5)
  | 5 => (s.marchSram r.march).hbmBegin.enter (.cold 6)
  | 6 =>
    let h := (s.hub.stacksTo 1 2).hbmPlaced
    let s1 : State := { s with hub := { h with bar := .live } }
    if h.stacksUp = 0 then s1.startStop 5
    else if s.ldr.flashBoots then
      (({ s1 with start := { s1.start with lanesEarly := true } } : State).planStart
        (imgPorts (memRead s.ldr.flash) (imgHeader (memRead s.ldr.flash) s.ldr.flashLen)) true).enter (.cold 7)
    else s1.enter (.cold 8)
  | 7 => s.enter (.cold 8)
  | 8 =>
    let s1 := ({ s with cip := s.cip.restart false } : State).enter (.cold 9)
    (if s.start.lanesEarly then s1.flashCopy.startLoad false
      else if s.ldr.bootHost then s1 else { s1 with hub := s1.hub.noMagic }).heldTrigger
  | 9 =>
    let s1 := s.startRead s.hub.residentBank
    if s.start.lanesEarly then s1.fwBegin.enter (.cold 10)
    else (s1.planStart ((s1.bankPlan s1.hub.residentBank).getD []) true).enter .coldLate7
  | 10 => (s.fwVerify r.blobs).enter (.cold 11)
  | 11 => s.lintelStart.enter (.cold 12)
  | 12 => s.afterLinks
  | 13 => s.enter (.cold 14)
  | _ => s.opens false

/-- Warm step `n` has ended, with the next beginning (Table 21.2). -/
def State.warmNext (s : State) (n : Nat) (r : StepEnd) : State :=
  match n with
  | 1 => s.enter (.warm 2)
  | 2 => ({ s with cip := s.cip.restart (s.hub.get GLB.START_STATUS.KEPT_KEYS == 1) } : State).enter (.warm 3)
  | 3 => (if s.hub.get GLB.START_STATUS.RECOVERY = 1 then s.marchSram r.march else s).enter (.warm 4)
  | 4 =>
    let s1 := ({ s with hub := (s.hub.stacksTo 4 2).hbmPlaced, dbt := { s.dbt with selfRefresh := false } } : State).recutParts
    if s1.hub.stacksUp = 0 then s1.startStop 5
    else ((s1.planStart s1.warmPlan false).enter (.warm 5)).heldTrigger
  | 5 =>
    let s1 := s.enter (.warm 6)
    match s.ldr.warmBank with
    | some b => s1.startLoad b
    | none => s1
  | 6 => s.warmImage.fwBegin.enter (.warm 7)
  | 7 => (s.fwVerify r.blobs).enter (.warm 8)
  | 8 => s.lintelStart.enter (.warm 9)
  | 9 => s.enter (.warm 10)
  | _ => s.opens true

/-! ### Failing and ending a step -/

/-- The stop code of a cold step without a degraded form (Table 21.3). -/
def stopCode (step : Nat) : Option Nat :=
  match step with
  | 1 => some 1
  | 2 => some 2
  | 3 => some 3
  | 4 => some 4
  | 8 => some 6
  | _ => none

/-- A running step has ended as `r` says; `next` is what follows its end. A step that misses its end condition runs again; its last
attempt takes the degraded form or stops the start (R401). The steps of Table 21.3 that cannot fail end. -/
def State.stepEnds (s : State) (r : StepEnd) (next : State → State) : State :=
  let step := s.start.phase.step
  let last := 3 ≤ s.start.repeats
  if r.ok then (if s.start.calibrating ∧ s.lanesOpen ≠ [] then s else next s)
  else match stopCode step with
    | some c => if last then s.startStop c else s.stepRetry
    | none =>
      if step = 6 then
        if last then next (((List.range (s.hub.unitCount 15)).filter fun n =>
          !r.trained.getD n false && (s.hub.get1 MEM.HBM_STAT.STATE n == 1 || s.hub.get1 MEM.HBM_STAT.STATE n == 4)).foldl State.stackFail s)
        else s.stepRetry
      else if step = 7 then (if last then next s.lanesFail else s.stepRetry)
      else if step = 11 then (if last then (next s).coresFail r.cores else s.stepRetry)
      else next s

/-- Do steps run? Not while the start is frozen with the core, nor while the Deadbolt restarts (R402). -/
def State.stepping (s : State) : Bool := s.hub.get GLB.STATUS.FROZEN == 0 && !s.dbt.restarting

/-- Has cold step 9 its image, with the load Latch applied? With the host as source it waits for a commit (R47). -/
def State.imageReady (s : State) : Bool := s.hub.get IMG.STATUS.RES_VALID == 1

/-- Is a built Ethernet port or Jorras link DOWN or TRAINING? -/
def State.linksOpen (s : State) : Bool :=
  s.fab.ports.any fun p =>
    let st := if p.kind = 1 then s.hub.get1 LNK.ETH_STAT.STATE p.number else if p.kind = 2 then s.jlState p.number else 0
    decide (st = 1 ∨ st = 2)

/-- Has the attempt at a step run for `ms` milliseconds? -/
def State.stepRan (s : State) (ms : Nat) : Bool := decide (s.start.stepAt + 1000000 * ms ≤ s.hub.elapsed)

/-- Is step 4's loop where the step ends: at TRACK, AT_MAX or FAILSAFE, or after 10 ms of it (R408, assumption 139)? -/
def State.loopSet (s : State) : Bool :=
  let st := s.hub.get GLB.PACE_LOOP.STATE
  st == 0 || st == 3 || st == 5 || (st != 6 && s.stepRan 10)

/-- Has the PTP service a port in slave state, and has it stepped the counter in step 13? -/
def TimSt.acquired (t : TimSt) : Bool := t.stepped && t.ports.any fun e => e.2.slave

/-- Is the running step, all of whose other work is done (`ok`), still short of an end condition that state holds (Tables 21.1 and 21.2)? -/
def State.stepWaits (s : State) (ok : Bool) : Bool :=
  match s.start.phase with
  | .cold 4 => ok && !s.loopSet
  | .cold 9 => !s.imageReady
  | .cold 12 => s.linksOpen && !s.stepRan 500
  | .cold 13 => !s.tim.acquired && !s.stepRan 2000
  | .warm 6 => !s.ldr.loaded
  | .warm 9 => s.linksOpen && !s.stepRan 500
  | _ => false

/-- COLD_STEP_COMPLETE (R398, R401, R418). -/
def execColdStepComplete (r : StepEnd) (s : State) : Host.Outcome State Fault Refusal :=
  .next (if !s.stepping then s
    else match s.start.phase with
      | .cold n => if s.stepWaits r.ok then s else s.stepEnds r fun t => t.coldNext n r
      | .coldLate7 => s.stepEnds r fun t => (t.fwBegin.enter (.cold 10)).heldTrigger
      | _ => s)

/-- WARM_STEP_COMPLETE (R400, R401). A warm request held restarts the sequence at W1 at the step's end (R402). -/
def execWarmStepComplete (r : StepEnd) (s : State) : Host.Outcome State Fault Refusal :=
  .next (if !s.stepping then s
    else match s.start.phase with
      | .warm n =>
        match s.start.warmReq with
        | some q => s.warmBegin { q with recovery := q.recovery || s.hub.get GLB.START_STATUS.RECOVERY == 1 } true
        | none => if s.stepWaits r.ok then s else s.stepEnds r fun t => t.warmNext n r
      | _ => s)

end Sys2Proof.Machine
end

