-- ==== Sys2Proof/Machine/Dbt.lean ====
section
/-!
DEFINITION. The Deadbolt's own commands (chapter 20): the management port (R378, R379), Deadbolt restarts (R377), bucket leaks (R381),
logic BIST (R386–R388), march tests of a page (R389), the Shutter's pins, release and resume (R390–R392), and the Peephole (R393,
R394).
-/

namespace Sys2Proof.Machine

/-! ### The management port (R378, R379) -/

/-- LEN of a transfer; its payload and nonce. -/
def mgmtLen (f : MgmtFrame) : Nat := bodyU8 f.bytes 1
def mgmtPayload (f : MgmtFrame) : List Byte := (f.bytes.drop 12).take (mgmtLen f)
def mgmtNonce (f : MgmtFrame) : Nat := bodyN f.bytes 4 8

/-- Has a transfer 12 + LEN bytes, and 16 more for an authenticated command? -/
def mgmtSized (f : MgmtFrame) (auth : Bool) : Bool :=
  decide (mgmtLen f ≤ 64 ∧ f.bytes.length = 12 + mgmtLen f + (if auth then 16 else 0))

/-- Does the port answer: not while the Deadbolt restarts (R377), before the end of cold step 1 (R399), or stopped with DBT_BOOT
(R401)? -/
def State.mgmtAnswers (s : State) : Bool :=
  !s.dbt.restarting && s.start.phase != .cold 1 &&
    !(s.start.phase == .stopped && s.hub.get GLB.START_STATUS.CODE == 1)

/-- The response: a status byte and the result. -/
def State.reply (s : State) (cmd status : Nat) (result : List Byte) : State := { s with hub := s.hub.emit (.mgmt cmd status result) }

/-- An unauthenticated command: `run` answers the state, STATUS and result. -/
def State.mgmtOpen (s : State) (f : MgmtFrame) (cmd : Nat) (run : State → List Byte → State × Nat × List Byte) : State :=
  if !s.mgmtAnswers then s
  else if !mgmtSized f false then s.reply cmd 4 []
  else
    let r := run s (mgmtPayload f)
    r.1.reply cmd r.2.1 r.2.2

/-- A refusal of R379: counted, with its event. -/
def State.authRefused (s : State) (cmd status : Nat) : State :=
  ({ s with hub := (s.hub.err DBT.AUTH_FAIL.COUNT 0 0x1507 0).raise { code := 0x1505 } } : State).reply cmd status []

/-- Has a second passed since the nonce was issued (R379)? -/
def State.nonceOld (s : State) : Bool := decide (s.dbt.nonceAt + 1000000000 ≤ s.hub.elapsed)

/-- An authenticated command (R379): it uses up the nonce whatever its outcome. A stopped device answers BUSY (R401), and so does a
held one. -/
def State.mgmtAuth (s : State) (f : MgmtFrame) (cmd : Nat) (run : State → List Byte → State × Nat) : State :=
  if !s.mgmtAnswers then s
  else
    let s1 : State := { s with dbt := { s.dbt with nonce := none } }
    if !mgmtSized f true then s1.reply cmd 4 []
    else if s.dbt.nonce ≠ some (mgmtNonce f) ∨ s.nonceOld then s1.authRefused cmd 1
    else if s.dbt.mgmtKey = 0 then s1.authRefused cmd 3
    else if !f.macOk then s1.authRefused cmd 2
    else if s.start.phase = .stopped ∨ s.start.phase = .held then s1.reply cmd 6 []
    else
      let r := run s1 (mgmtPayload f)
      r.1.reply cmd r.2 []

/-- GET_NONCE: a fresh 64-bit random nonce, a free value. -/
def execGetNonce (f : MgmtFrame) (s : State) : Host.Outcome State Fault Refusal :=
  .next (s.mgmtOpen f 0x01 fun t _ =>
    let n := t.hub.freeVal (2 ^ 64)
    ({ t with hub := t.hub.freeTick, dbt := { t.dbt with nonce := some n, nonceAt := t.hub.elapsed } }, 0, leBytes 8 n))

/-- The registers that READ returns: those of the DBT mirror and the TST block; other offsets read 0. -/
def Hub.mgmtRead (h : Hub) (off : Nat) : Word :=
  if 0x2800000 ≤ off ∧ off < 0x3000000 then h.shown off (h.rd off) else 0

/-- READ. -/
def execRead (f : MgmtFrame) (s : State) : Host.Outcome State Fault Refusal :=
  .next (s.mgmtOpen f 0x02 fun t p =>
    let off := bodyN p 0 4 / 4 * 4
    let n := bodyU8 p 4
    if n = 0 ∨ 16 < n then (t, 4, []) else (t, 0, (List.range n).flatMap fun k => leBytes 4 (t.hub.mgmtRead (off + 4 * k)).toNat))

/-- PROVISION: the key is written while it reads blank. -/
def execProvision (f : MgmtFrame) (s : State) : Host.Outcome State Fault Refusal :=
  .next (s.mgmtOpen f 0x03 fun t p =>
    if t.dbt.mgmtKey ≠ 0 then (t, 2, [])
    else
      let k := leNat (p.take 32)
      ({ t with hub := t.hub.set DBT.STATUS.MGMT_KEY (if k = 0 then 0 else 1), dbt := { t.dbt with mgmtKey := k } }, 0, []))

/-- SET_POWER. -/
def execSetPower (f : MgmtFrame) (s : State) : Host.Outcome State Fault Refusal :=
  .next (s.mgmtAuth f 0x10 fun t p =>
    ({ t with hub := (t.hub.set DBT.POWER.CAP_W (bodyN p 0 2)).set DBT.POWER.TJ_LIMIT (bodyU8 p 2) }, 0))

/-- SET_PACE (R26). -/
def execSetPace (f : MgmtFrame) (s : State) : Host.Outcome State Fault Refusal :=
  .next (s.mgmtAuth f 0x11 fun t p => ({ t with hub := t.hub.set GLB.PACE_LOOP.TARGET (bodyN p 0 2) }, 0))

/-- SET_POLICY. -/
def execSetPolicy (f : MgmtFrame) (s : State) : Host.Outcome State Fault Refusal :=
  .next (s.mgmtAuth f 0x12 fun t p =>
    let w := BitVec.ofNat 32 (bodyN p 0 4)
    ({ t with hub := ((t.hub.set DBT.POLICY.KEEP_KEYS (DBT.POLICY.KEEP_KEYS.of w)).set DBT.POLICY.SHUTTER_EN
        (DBT.POLICY.SHUTTER_EN.of w)).set DBT.POLICY.TRIG (DBT.POLICY.TRIG.of w) }, 0))

/-- SET_BUCKET (R381): counts are kept, and a leak interval that runs ends at its old length. -/
def execSetBucket (f : MgmtFrame) (s : State) : Host.Outcome State Fault Refusal :=
  .next (s.mgmtAuth f 0x13 fun t p =>
    ({ t with hub := (t.hub.set DBT.BUCKET.T (bodyU8 p 0)).set DBT.BUCKET.W_S (bodyN p 2 4) }, 0))

/-- SET_KEY_MAX (R295). -/
def execSetKeyMax (f : MgmtFrame) (s : State) : Host.Outcome State Fault Refusal :=
  .next (s.mgmtAuth f 0x14 fun t p =>
    let m := bodyU8 p 0
    (if 1 ≤ m ∧ m ≤ 7 then { t with hub := t.hub.set64 CIP.HARD_MAX_LO.MAX m (bodyN p 4 8) } else t, 0))

/-- WRAP_KEY: `key` is the key the RFC 3394 unwrap yields, none where its integrity check fails. -/
def execWrapKey (f : MgmtFrame) (key : Option (List Byte)) (s : State) : Host.Outcome State Fault Refusal :=
  .next (s.mgmtAuth f 0x15 fun t _ =>
    match key with
    | none => (t, 2)
    | some k => ({ t with hub := t.hub.set DBT.STATUS.WRAP_KEY 1, dbt := { t.dbt with wrapKey := some (leNat (k.take 32)) } }, 0))

/-- DEBUG (R337, R393). -/
def execDebug (f : MgmtFrame) (s : State) : Host.Outcome State Fault Refusal :=
  .next (s.mgmtAuth f 0x16 fun t p =>
    let b := fun (i : Nat) => if bodyU8 p i = 0 then 0 else 1
    let h := ((t.hub.set DBT.DEBUG.PEEP (b 0)).set DBT.DEBUG.TEST (b 1)).set MEM.TEST_CTL.ENABLE (b 1)
    ({ t with hub := h.set MEM.TEST_CTL.CHANNEL (bodyN p 2 4) }, 0))

/-- SET_BIST (R386): enabling, or a change of HOURS while enabled, restarts every type's schedule. -/
def execSetBist (f : MgmtFrame) (s : State) : Host.Outcome State Fault Refusal :=
  .next (s.mgmtAuth f 0x17 fun t p =>
    let on := bodyU8 p 0 != 0
    let again := on && (t.hub.get DBT.BIST_CTL.ENABLE == 0 || t.hub.get DBT.BIST_CTL.HOURS != bodyU8 p 1)
    let t1 : State := { t with hub := (t.hub.set DBT.BIST_CTL.ENABLE (if on then 1 else 0)).set DBT.BIST_CTL.HOURS (bodyU8 p 1) }
    (if again ∧ t.start.opened then t1.bistRestart else t1, 0))

/-- Can a channel's unit be tested now (R388)? -/
def State.bistReady (s : State) (ch : Nat) : Bool :=
  let ty := ch / 2 ^ 24
  let i := ch % 2 ^ 24
  bistType ty && !s.isRetired ch && !s.bistBusy ty && (s.spare ty i).isSome && s.hub.get GLB.PACE_SUM.EMERG == 0 &&
    s.start.phase == .running

/-- BIST_RUN: the unit's test is scheduled for its next work boundary, or BUSY (R387, R388). -/
def execBistRun (f : MgmtFrame) (s : State) : Host.Outcome State Fault Refusal :=
  .next (s.mgmtAuth f 0x18 fun t p =>
    let ch := bodyN p 0 4
    if t.bistReady ch then
      ({ t with dbt := { t.dbt with bistSched := t.dbt.bistSched ++ [(ch / 2 ^ 24, ch % 2 ^ 24)] } }, 0)
    else (t, 6))

/-- The cells of a PAGE channel: first cell and bytes (R335). -/
def pageCells (ch : Nat) : Nat × Nat :=
  let i := ch % 2 ^ 22
  match ch / 2 ^ 22 % 4 with
  | 0 => (i % 2 ^ 19 * 65536, 65536)
  | 1 => (2 ^ 35 + i % 2 ^ 19 * 65536, 65536)
  | _ => (sramBase + i % 2 ^ 18 * 2048, 2048)

/-- What a march test leaves in a page: raw zeros, which every code reads as clean zeros (R389). -/
def MemSt.marched (m : MemSt) (ch : Nat) : MemSt :=
  let r := pageCells ch
  let out := fun (c : Nat) => decide (c < r.1 ∨ r.1 + r.2 ≤ c)
  { m with
    cells := m.cells.filter fun e => out e.1
    dev := m.dev.filter fun e => out e.1
    diff := m.diff.filter fun e => out e.1
    merge := m.merge.map fun g => (g.1, g.2.filter fun x => out x.word) }

/-- Can a channel be marched: a present page outside the Deadbolt's region (Table 20.2)? -/
def State.canMarch (s : State) (ch : Nat) : Bool := s.hub.chan ch == .page && !inDbtRegion (pageCells ch).1

/-- MARCH (R389): the page's contents are lost. -/
def execMarch (f : MgmtFrame) (s : State) : Host.Outcome State Fault Refusal :=
  .next (s.mgmtAuth f 0x19 fun t p =>
    let ch := bodyN p 0 4
    if t.canMarch ch then ({ t with mem := t.mem.marched ch, dbt := { t.dbt with march := t.dbt.march ++ [ch] } }, 0) else (t, 6))

/-- RETIRE: the channel is permanent with cause MANUAL (R384). -/
def execRetire (f : MgmtFrame) (s : State) : Host.Outcome State Fault Refusal :=
  .next (s.mgmtAuth f 0x1A fun t p => (t.permanent (bodyN p 0 4) 6, 0))

/-- WARM (R400). -/
def execWarm (f : MgmtFrame) (s : State) : Host.Outcome State Fault Refusal :=
  .next (s.mgmtAuth f 0x1C fun t p => (t.warmRequest (bodyU8 p 0 != 0) 3, 0))

/-- MGMT_UNKNOWN_COMMAND (R379). -/
def execMgmtUnknownCommand (f : MgmtFrame) (s : State) : Host.Outcome State Fault Refusal :=
  .next (if !s.mgmtAnswers then s else s.reply (bodyU8 f.bytes 0) (if 64 < mgmtLen f then 4 else 5) [])

/-- NONCE_EXPIRY: 1 s after its issue (R379). -/
def execNonceExpiry (s : State) : Host.Outcome State Fault Refusal :=
  .next (if s.nonceOld then { s with dbt := { s.dbt with nonce := none } } else s)

/-! ### The Shutter's release and resume (R392) -/

/-- Faults that waited, judged in the order they came: transients, and retries a block declared failed. -/
def State.judge (s : State) (l : List (Nat × Option Nat)) : State :=
  l.foldl (fun (a : State) e => match e.2 with
    | none => a.transient e.1
    | some cause => a.permanent e.1 cause) s

/-- The Shutter's duration so far, in ns. -/
def State.shutNs (s : State) : Nat := (s.hub.ticks - s.dbt.shutAt) * 8

/-- The core runs again: acknowledges resume and the islands' FIFOs drain (R23), faults learnt meanwhile are judged, missed boundaries are
counted, and announce timeouts count from here (R391, R392). -/
def State.unfreeze (s0 : State) (stat : Nat) : State :=
  let s := s0.syncDrain.linksResume
  let l := s.dbt.shutFaults
  ({ s with
    hub := (s.hub.set GLB.STATUS.FROZEN 0).set TST.SHUT_STAT.STATE stat
    fab := { s.fab with boundaries := s.fab.boundaries + s.dbt.missed }
    tim := { s.tim with ports := s.tim.ports.map fun e => (e.1, { e.2 with announced := s.hub.elapsed }) }
    dbt := { s.dbt with shutFaults := [], shutHold := false, resuming := false, missed := 0 } } : State).judge l

/-- Does `SHUTTER_N`, held low, keep the device frozen (R390)? -/
def State.pinHolds (s : State) : Bool := s.dbt.shutPin && s.hub.get DBT.POLICY.SHUTTER_EN == 1

/-- A release (R392): after less than 200 µs with RECOVERY clear and no warm request held the device resumes; else a warm start begins,
with RECOVERY set where the cause was PERMANENT, LINTEL or DBT. -/
def State.letGo (s : State) (recovery : Bool) : State :=
  let ns := s.shutNs
  let cause := s.hub.get TST.SHUT_STAT.CAUSE
  let s1 : State := { s with hub := s.hub.set TST.SHUT_DUR.NS (min ns 0xFFFFFFFF) }
  if ns < 200000 ∧ !recovery ∧ s.start.warmReq = none then
    { s1 with hub := s1.hub.set TST.SHUT_STAT.STATE 2, dbt := { s1.dbt with resuming := true, relAt := s.hub.elapsed } }
  else
    let s2 : State := { s1 with start := { s1.start with warmReq := none } }
    let bank := (s.start.warmReq.map WarmReq.bank).getD s.warmCapture
    (s2.unfreeze 3).warmAsk ⟨recovery || cause == 3 || cause == 5 || cause == 7, 4, bank⟩

/-- A release asked for: while the device is not frozen it withdraws a trigger that is held (R402); `SHUTTER_N` low keeps it frozen. -/
def State.release (s : State) (recovery : Bool) : State :=
  let s1 : State := { s with dbt := { s.dbt with shutHold := false } }
  if s.dbt.resuming then s
  else if s.hub.get GLB.STATUS.FROZEN = 0 then
    { s1 with start := { s1.start with shutReq := if s.pinHolds then s1.start.shutReq.map (fun _ => 1) else none } }
  else if s.pinHolds then { s1 with hub := s1.hub.set TST.SHUT_STAT.CAUSE 1 }
  else s1.letGo recovery

/-- The SHUTTER command: OP 0 releases, 1 freezes; other values are refused with UNKNOWN. -/
def State.shutterCmd (s : State) (p : List Byte) : State × Nat :=
  match bodyU8 p 0 with
  | 0 => (s.release (bodyU8 p 1 != 0), 0)
  | 1 => (s.shutterTrigger 2, 0)
  | _ => (s, 5)

/-- SHUTTER_FREEZE (R390, R391). -/
def execShutterFreeze (f : MgmtFrame) (s : State) : Host.Outcome State Fault Refusal := .next (s.mgmtAuth f 0x1B State.shutterCmd)

/-- SHUTTER_RELEASE (R392). -/
def execShutterRelease (f : MgmtFrame) (s : State) : Host.Outcome State Fault Refusal := .next (s.mgmtAuth f 0x1B fun t p => t.shutterCmd p)

/-- SHUTTER_N_FALL (R390). -/
def execShutterNFall (s : State) : Host.Outcome State Fault Refusal :=
  .next (({ s with dbt := { s.dbt with shutPin := true } } : State).shutterTrigger 1)

/-- SHUTTER_N_RISE (R392): releases where no other trigger holds. -/
def execShutterNRise (s : State) : Host.Outcome State Fault Refusal :=
  let s1 : State := { s with dbt := { s.dbt with shutPin := false } }
  .next (if s.dbt.shutPin ∧ !s.dbt.shutHold then s1.release false else s1)

/-- HBM_SELF_REFRESH_ENTRY (R391): 1 µs after the freeze. -/
def execHbmSelfRefreshEntry (s : State) : Host.Outcome State Fault Refusal :=
  .next (if s.hub.get GLB.STATUS.FROZEN = 1 ∧ !s.dbt.resuming ∧ 1000 ≤ s.shutNs then { s with hub := s.hub.stacksTo 2 4, dbt := { s.dbt with selfRefresh := true } } else s)

/-- Audio of `n` missed periods (R392): sink blocks are delivered as zeros, source blocks are discarded. -/
def State.audMissed (s : State) (n : Nat) : State :=
  let first := s.fab.period - n
  let one := fun (a : State) (p k : Nat) =>
    let x := a.aud.snk k
    ({ a with aud := a.aud.setSnk k { x with out := (List.replicate 6 0 ++ x.out).take 96 } } : State).sinkOut k p
  let s1 := (List.range n).foldl (fun (a : State) i => (s.aud.snks.map (·.1)).foldl (fun (b : State) k => one b (first + i) k) a) s
  { s1 with aud := { s1.aud with
    srcs := s1.aud.srcs.map fun e => (e.1, { e.2 with buf := e.2.buf.filter fun b => decide (6 * s.fab.period ≤ b.1) }) } }

/-- The publication an interruption left open completes, and the generation passes the boundaries missed (R89, R392); during a warm
start it stays odd. -/
def State.pubMissed (s : State) (n : Nat) : State :=
  if s.fab.closed then s
  else
    let s1 := s.published
    { s1 with hub := s1.hub.set64 LCH.PUB_GEN_LO.GEN 0 (s1.hub.get64 LCH.PUB_GEN_LO.GEN 0 + 2 * n) }

/-- RESUME_DONE (R392): HBM has left self-refresh, 1.2 µs after the release, and acknowledges resume. -/
def execResumeDone (s : State) : Host.Outcome State Fault Refusal :=
  .next (if !s.dbt.resuming ∨ (s.dbt.selfRefresh ∧ s.hub.elapsed < s.dbt.relAt + 1200) then s
    else
      let n := s.dbt.missed
      let bar := match s.start.phase with
        | .warm _ => BarMode.frozen
        | _ => BarMode.live
      let h := s.hub.stacksTo 4 2
      let s1 : State := { s with hub := { h with bar := bar }, dbt := { s.dbt with selfRefresh := false }, lch := { s.lch with resumed := true } }
      let s2 := ((s1.unfreeze 0).pubMissed n).audMissed n
      let s3 := ({ s2 with hub := s2.hub.heldDoorbells } : State).gclDue
      { s3 with hub := s3.hub.raise { code := 0x1606, detail := [s3.hub.get TST.SHUT_DUR.NS] } })

/-- Has the hottest sensor been above the limit for 1 s, with nothing said of it yet (R412)? -/
def State.hotDue (s : State) : Bool :=
  !s.dbt.hotSaid && match s.dbt.hotAt with
    | some t => decide (t + 1000000000 ≤ s.hub.elapsed)
    | none => false

/-- THERMAL_TRIGGER (R412): once for each time that the limit is exceeded (assumption 138). -/
def execThermalTrigger (s : State) : Host.Outcome State Fault Refusal :=
  .next (if s.start.phase = .held ∨ !s.hotDue then s
    else ({ s with hub := s.hub.raise { code := 0x1508 }, dbt := { s.dbt with hotSaid := true } } : State).shutterTrigger 6)

/-! ### Restarts, core faults and leaks -/

/-- DBT_LOCKSTEP_MISMATCH (R377): the Deadbolt restarts from ROM; a second mismatch within 1 s freezes the device. -/
def execDbtLockstepMismatch (s : State) : Host.Outcome State Fault Refusal :=
  let second := match s.dbt.mismatchAt with
    | some t => decide (s.hub.ticks ≤ t + 125000000)
    | none => false
  let s1 : State := { s with dbt := { s.dbt with restarting := true, mismatchAt := some s.hub.ticks, nonce := none } }
  .next (if second then s1.shutterTrigger 7 else s1)

/-- DBT_RESTART (R377): the Deadbolt runs again and takes what its input FIFO holds; the step of a start that waited runs again (R402). -/
def execDbtRestart (s : State) : Host.Outcome State Fault Refusal :=
  .next (if !s.dbt.restarting then s
    else
      let l := s.dbt.inFifo
      ({ s with hub := s.hub.raise { code := 0x1506 }, dbt := { s.dbt with restarting := false, inFifo := [] }, start := { s.start with stepAt := s.hub.elapsed } } : State).judge l)

/-- LINTEL_CORE_FAULT (R382, R390): a transient on the core's channel, and the LINTEL trigger. -/
def execLintelCoreFault (core : Nat) (s : State) : Host.Outcome State Fault Refusal :=
  .next (if 16 ≤ core then s else (s.transient (chanId 0x21 core)).shutterTrigger 5)

/-- A channel's bucket loses one count at `at_`, where its next interval begins; at 0 a suspect channel is in service again, and a PAGE
bucket is free. -/
def State.leak (s : State) (ch at_ : Nat) : State :=
  match s.hub.chan ch with
  | .none => s
  | .page =>
    match (List.range 256).find? (fun k => s.hub.get1 DBT.PAGE_COUNT.COUNT k ≠ 0 ∧ s.hub.get1 DBT.PAGE_CH.CHANNEL k = ch) with
    | none => s
    | some k =>
      let c := s.hub.get1 DBT.PAGE_COUNT.COUNT k - 1
      { s with
        hub := if c = 0 then (s.hub.set1 DBT.PAGE_COUNT.COUNT k 0).set1 DBT.PAGE_CH.CHANNEL k 0 else s.hub.set1 DBT.PAGE_COUNT.COUNT k c
        dbt := { s.dbt with
          leaks := if c = 0 then kvDel ch s.dbt.leaks else kvPut ch (at_, s.hub.leakNs) s.dbt.leaks
          pageAge := if c = 0 then s.dbt.pageAge.filter (· ≠ k) else s.dbt.pageAge } }
  | r =>
    let c := s.hub.chanGet r DBT.CH.COUNT - 1
    let h := s.hub.chanSet r DBT.CH.COUNT c
    { s with
      hub := if c = 0 ∧ h.chanGet r DBT.CH.STATE = 1 then h.chanSet r DBT.CH.STATE 0 else h
      dbt := { s.dbt with leaks := if c = 0 then kvDel ch s.dbt.leaks else kvPut ch (at_, s.hub.leakNs) s.dbt.leaks } }

/-- BUCKET_LEAK (R381): a leak interval of a channel ends; not while the Deadbolt restarts (R377). -/
def execBucketLeak (channel : Nat) (s : State) : Host.Outcome State Fault Refusal :=
  .next (match kvGet channel s.dbt.leaks with
    | some x => if x.1 + x.2 ≤ s.hub.elapsed ∧ !s.dbt.restarting then s.leak channel (x.1 + x.2) else s
    | none => s)

/-! ### Logic BIST (R386, R387) -/

/-- BIST_SCHEDULE_TIMER (R386): an interval of a type's schedule ends. A test due during a start starts at READY; none falls due before READY
first reads 1, while ENABLE is 0, or while the Deadbolt restarts (R377). -/
def execBistScheduleTimer (ty : Nat) (s : State) : Host.Outcome State Fault Refusal :=
  let t := s.bistTurn ty
  .next (if !s.bistNow ty ∨ s.hub.get DBT.BIST_CTL.ENABLE = 0 ∨ !s.start.opened ∨ s.dbt.restarting then s
    else if s.start.phase = .running then t.bistDue ty
    else { t with dbt := { t.dbt with bistDue := if t.dbt.bistDue.contains ty then t.dbt.bistDue else t.dbt.bistDue ++ [ty] } })

/-- A signature mismatch (R387): the test runs again at once; a second one declares the unit permanent with cause BIST. -/
def State.bistMismatch (s : State) (t : BistTest) : State :=
  let ch := chanId t.ty t.inst
  let h := (s.hub.err TST.BIST_FAILS.COUNT 0 0x1607 0).raise { code := 0x1603, channel := ch, sash := 0x402 }
  if t.runs = 0 then
    { s with hub := h, dbt := { s.dbt with tests := s.dbt.tests.map fun (x : BistTest) => if x = t then { x with runs := 1 } else x } }
  else ((({ s with hub := h } : State).bistOver 2 t.ty t.inst).permanent ch 3).retireIdle t.ty t.inst

/-- BIST_TEST_DONE (R387): the signature of the unit under test has been compared. On a pass the unit becomes a spare; the mapping stays. A
test freezes with the core (R388). -/
def execBistTestDone (ty inst : Nat) (pass : Bool) (s : State) : Host.Outcome State Fault Refusal :=
  .next (match s.dbt.tests.find? (fun (t : BistTest) => t.ty = ty ∧ t.inst = inst) with
    | none => s
    | some t =>
      if s.hub.get GLB.STATUS.FROZEN = 1 then s
      else if pass then
        let s1 := s.bistOver 1 ty inst
        ({ s1 with hub := s1.hub.raise { code := 0x1602, channel := chanId ty inst, sash := 0x402 } } : State).markSpares
      else s.bistMismatch t)

/-! ### March tests of a page (R389) -/

/-- MARCH_DONE: the earliest march a command started ends; `words` words failed, `twice` in two passes. -/
def execMarchDone (words : Nat) (twice : Bool) (s : State) : Host.Outcome State Fault Refusal :=
  .next (match s.dbt.march with
    | [] => s
    | ch :: rest =>
      let s1 : State := { s with mem := s.mem.marched ch, dbt := { s.dbt with march := rest } }
      let s2 := s1.marchFails (if words = 0 then [] else [⟨ch, words, twice⟩])
      { s2 with hub := s2.hub.raise { code := 0x1605, channel := ch, detail := [1] } })

/-! ### The Peephole (R393, R394) -/

/-- What the TAP shifts out for an instruction: 0x3C the state image while PEEP is 1; all ones BYPASS; else IDCODE. -/
def State.tapOut (s : State) (instr : Nat) : OutMsg :=
  if instr = 0x3C ∧ s.hub.get DBT.DEBUG.PEEP = 1 then .token 0 "image" (s.stateImage.map BitVec.toNat)
  else if instr = 0xFF then .token 0 "bypass" []
  else .token 0 "idcode" [0x20E21597]

/-- PEEP_TAP_SHIFT (R393). -/
def execPeepTapShift (instr : Nat) (s : State) : Host.Outcome State Fault Refusal := .next { s with hub := s.hub.emit (s.tapOut instr) }

/-- `DBT_ALERT_N`, low while an enabled Deadbolt or test event is set (R378) and once a start has stopped (R401). -/
def State.alertN (s : State) : Bool :=
  (s.hub.rd 0x2800100 &&& s.hub.rd 0x2800104) == 0 && (s.hub.rd 0x2C00100 &&& s.hub.rd 0x2C00104) == 0 && s.start.phase != .stopped

end Sys2Proof.Machine
end

