-- ==== Sys2Proof/Machine/LnkRx.lean ====
section
/-!
DEFINITION. Sequenced flits of Jorras links as they arrive (R350–R354): delivery to their TYPE's consumers (Table 18.4), relays (R357),
and the levels at which devices talk (R360).
-/

namespace Sys2Proof.Machine

/-! ### Levels (R360) -/

/-- The level used toward a device: the lowest of this device's own, the device's in its route entry, and the first-hop link's. -/
def State.levelTo (s : State) (dev : Nat) : Nat :=
  let n := s.hub.get IMG.INTEROP.LEVEL
  let n1 := if s.hub.get1 LNK.ROUTE.VALID dev = 1 then min n (s.hub.get1 LNK.ROUTE.LEVEL dev) else n
  match s.jlRoute dev with
  | some l => min n1 (s.hub.get1 LNK.JL_LEVEL.LEVEL l)
  | none => n1

/-- The level at which a conference runs: the lowest among its devices. -/
def State.confLevel (s : State) (conf : Nat) : Nat := (s.fwd.peers conf).foldl (fun a d => min a (s.levelTo d)) (s.hub.get IMG.INTEROP.LEVEL)

/-- SERVICE messages are read at levels n and n − 1. -/
def State.readsSvc (s : State) (dev : Nat) : Bool := decide (s.hub.get IMG.INTEROP.LEVEL ≤ s.levelTo dev + 1)

/-! ### Delivery (Table 18.4) -/

/-- The Louvre period whose low 32 bits a CASCADE carries: the nearest to now (R96). -/
def State.cascadePeriod (s : State) (bits : Nat) : Nat := ((s.fab.period : Int) + wrapDiff 32 (s.fab.period % 2 ^ 32) bits).toNat

/-- A CASCADE payload: channel, period and six samples. -/
def State.cascadeBytes (s : State) (src : Nat) (b : List Byte) (poison : Bool) : State :=
  s.cascadeIn src (bodyN b 0 2) (s.cascadePeriod (bodyN b 4 4))
    ((List.range 6).map fun i => wrapDiff 32 0 (bodyN b (8 + 4 * i) 4)) poison

/-- A message for this device reaches its TYPE's consumer. -/
def State.jlDeliver (s : State) (n : Nat) (h : FlitHead) (f : JlRx) (m : JlPart) : State :=
  let b := m.bytes
  match h.kind with
  | 2 =>
    if m.poison then { s with hub := (s.hub.err MEM.PKT_POISON.COUNT 0 0x1209 0).raiseRl { code := 0x1207, detail := [0] } }
    else s.mediaIn (bodyN b 0 2) (b.drop 4) f.layer
  | 3 => s.cascadeBytes h.source b m.poison
  | 4 =>
    let spl := bodyU8 b 0
    let c := b.drop 4
    let id := bodyN b 2 2 % 1024
    let chunk := c.take 4 ++ leBytes 2 (bodyN c 4 2 / 32768 * 32768 + id) ++ c.drop 6
    if (s.fab.persAt 4 spl).1 = 1 then s.paneChunkIn spl chunk m.poison else s
  | 5 => if m.poison then s else s.armIn ⟨h.source, bodyN b 0 2, bodyN b 4 6, bodyN b 12 4⟩
  | 6 =>
    if m.poison then s
    else if h.vc = 0 then s.snapAsked ⟨h.source, bodyN b 0 6 * 1000000000 + bodyN b 8 4, bodyN b 12 4, bodyU8 b 16 = 1⟩
    else s.snapIn h.source b
  | 7 => if m.poison ∨ !s.readsSvc h.source then s else s.svcIn h.source f.svc
  | k => if 10 ≤ k then s.jlDrop n 1 false else s

/-- A flit received in order: delivered here once its message ends, relayed with HOPS lowered, or dropped (R350, R357). -/
def State.jlAccept (s : State) (n : Nat) (h : FlitHead) (pay : List Byte) (f : JlRx) : State :=
  if h.device = s.hub.get LNK.CFG.DEVICE then
    let x := s.lnk.link n
    let old : JlPart := if h.first then { bytes := [], poison := false } else (kvGet h.vc x.parts).getD { bytes := [], poison := false }
    let m : JlPart := { bytes := old.bytes ++ pay, poison := old.poison || h.poison }
    if h.last then (s.setLink n { x with parts := kvDel h.vc x.parts }).jlDeliver n h f m
    else s.setLink n { x with parts := kvPut h.vc m x.parts }
  else if 0 < h.hops then
    s.jlForward h.device [{ kind := h.kind, vc := h.vc, dst := h.device, src := h.source, hops := h.hops - 1, first := h.first, last := h.last
                            poison := h.poison, payload := pay }] true
  else s.jlDrop n 1 false

/-- A sequenced flit with a good CRC (R352, R354): the expected one is authenticated, accepted and its credit returned. -/
def State.seqIn (s : State) (h : FlitHead) (f : JlRx) : State :=
  let n := f.link
  let s0 := s.jlHeard n
  let s1 := if s0.jlState n = 4 then s0.jlHead n h else s0
  let x := s1.lnk.link n
  let slot := s1.hub.get2 LNK.JL_SA.RX_SLOT n h.an
  let sec := s1.secured n
  let pay := if sec then f.clear.take (h.size true) else (f.bytes.drop 12).take (h.size false)
  let it : CipItem := { slot := slot, kind := 2, dec := true, stream := 0, seq := h.seq, aad := 9, len := pay.length, sash := s1.unitSash (mkRef 14 n), poison := false
                        mismatches := 0, authOk := f.authOk, authHeld := f.authOk }
  if s1.jlState n ≠ 4 then s1
  else if h.seq ≠ x.got % 65536 then s1.jlNak n false
  else if sec && slot == 0xFFFF then s1.jlNak n true
  else
    let r := if sec then s1.cipher it else (s1, true)
    if !r.2 then r.1.jlNak n true
    else
      let s2 := r.1.setLink n { (r.1.lnk.link n) with got := x.got + 1, naked := false }
      ((s2.jlAccept n h pay f).idleOut n false h.vc 1).jlPump n

/-- SEQUENCED_FLIT_RECEIVE (R350–R354, R357). -/
def execSequencedFlitReceive (f : JlRx) (s : State) : Host.Outcome State Fault Refusal :=
  .next (s.flitIn f.link f.bytes f.lost (fun k => 2 ≤ k && k != 8 && k != 9) fun a h => a.seqIn h f)

end Sys2Proof.Machine
end

