-- ==== Sys2Proof/Machine/RegAccess.lean ====
section
/-!
DEFINITION. Host accesses to BAR0: what a read returns and clears (R8–R10, R19, R80, R89, R90, R365, R393, R399), what a write does
(R9, R10, R78, R95), and the rows for plain reads and writes.
-/

namespace Sys2Proof.Machine

/-! ### What a function's window reaches (R365) -/

/-- Registers of which each function's window holds its own copy. -/
def ownCopy (off : Nat) : Bool :=
  off == 0x200040 || decide (0x200200 ≤ off ∧ off < 0x200218) || decide (0x200400 ≤ off ∧ off < 0x200800) || off == 0x1A00004 ||
    decide (0x1A00400 ≤ off ∧ off < 0x1A00458) || off == 0x1A00480 || off == 0x1A00484

/-- The object that indexes a register: the binding register of its kind and its number. -/
def boundObject (off : Nat) : Option (Fld × Nat) :=
  if 0x1000 ≤ off ∧ off < 0x2000 then some (HIF.VF_SASH.BASE, (off - 0x1000) / 4)
  else if 0x101000 ≤ off ∧ off < 0x103000 then some (HIF.VF_SASH.BASE, (off - 0x101000) % 0x1000 / 4)
  else if 0x820000 ≤ off ∧ off < 0x860000 then some (HIF.VF_LEG.BASE, (off - 0x820000) / 16)
  else if 0x810000 ≤ off ∧ off < 0x818000 then some (HIF.VF_QP.BASE, (off - 0x810000) / 32)
  else if 0x2004000 ≤ off ∧ off < 0x200C000 then some (HIF.VF_QP.BASE, (off - 0x2004000) / 32)
  else if 0x2010000 ≤ off ∧ off < 0x2012000 then some (HIF.VF_QP.BASE, (off - 0x2010000) / 8)
  else none

/-- Does an object belong to a VF: one in its range, but no leg that has left its maker's range (R366)? -/
def Hub.owns (h : Hub) (fn : Nat) (f : Fld) (x : Nat) : Bool := h.owner f x == fn && !(f == HIF.VF_LEG.BASE && h.orphans.contains x)

/-- Does function `fn`'s window show a register as the PF's does? `HIF.VF_*` reads 0 in VF windows. -/
def Hub.windowShows (h : Hub) (fn off : Nat) : Bool :=
  fn == 0 || match boundObject off with
    | some (f, x) => h.owns fn f x
    | none => !decide (0x2001000 ≤ off ∧ off < 0x2001400)

/-- Does function `fn`'s window take a write: the PF's every one; a VF's own copies, its commits, and what is bound to it. -/
def Hub.windowTakes (h : Hub) (fn off : Nat) : Bool :=
  fn == 0 || ownCopy off || off == 0x200004 || match boundObject off with
    | some (f, x) => h.owns fn f x
    | none => false

/-- The key under which function `fn` finds a register. -/
def keyFor (fn off : Nat) : Nat := if ownCopy off then winKey fn off else off

/-! ### Reads -/

/-- Status and statistics of the LCH block (Table 5.8): STATUS, LAST_NUM, LAST_PERIOD, LAST_RESULT and LOG_LOST. -/
def lchStatus (off : Nat) : Bool := off == 0x200000 || decide (0x200028 ≤ off ∧ off < 0x20003C) || off == 0x200214

/-- Registers that follow their block at once, not once per period (R89): the GLB registers of R399, the LCH block's but its status, the
resource selected, indices, the key slot selected, captures and memory's log and test registers. -/
def followsLive (off : Nat) : Bool :=
  decide (off < 0x30) || decide (0x200000 ≤ off ∧ off < 0x300000 ∧ !lchStatus off) || decide (0x100020 ≤ off ∧ off ≤ 0x100034) ||
    decide (0x810000 ≤ off ∧ off < 0x818000 ∧ off % 16 = 4) || decide (0x1A00004 ≤ off ∧ off < 0x1A00030) || off == 0x1A00484 ||
    decide (0x1B00010 ≤ off ∧ off < 0x1B00020) || off == 0x1B00040 || off == 0x1B00044 || decide (0x1B00100 ≤ off ∧ off < 0x1B00180) ||
    off == 0x1C00060 || off == 0x1C00098 || decide (0x1C01000 ≤ off ∧ off < 0x1C03000)

/-- Statistics and status that are DB fields: the supply loop, `DBT.STATUS`, the transient counts, the channels and the page buckets. -/
def dbStatistic (off : Nat) : Bool :=
  off == 0x184 || off == 0x2800000 || off == 0x2800020 || off == 0x2800024 || off == 0x2800028 || decide (0x2801200 ≤ off ∧ off < 0x2803040) ||
    decide (0x2804000 ≤ off ∧ off < 0x2804800)

/-- Does the register read as last published (R89)? Those of status and statistics alone do. -/
def readsPublished (r : RegRow) (off : Nat) : Bool :=
  !followsLive off && r.fields.all fun f => f.acc == .ro || (f.acc == .db && dbStatistic off)

/-- Does the register belong to an Ethernet port that is not built (Tables 7.3–7.5)? Its RO fields read 0. -/
def State.unbuiltPort (s : State) (off : Nat) : Bool :=
  decide (0x801000 ≤ off ∧ off < 0x803000) && s.portRate ((off - 0x801000) / 256) == 0

/-- The value of a listed register as function `fn` sees it, write-only fields as 0, SH fields as shadow or, in an INFORCE view, as in
force (R10, R80). -/
def State.regValue (s : State) (fn off : Nat) (r : RegRow) : Word :=
  let h := s.hub
  if 0x1A00008 ≤ off ∧ off ≤ 0x1A00028 then BitVec.ofNat 32 ((kvGet off (s.slotRegs fn)).getD 0)
  else if 0x100024 ≤ off ∧ off ≤ 0x100034 then BitVec.ofNat 32 ((kvGet off s.resRegs).getD 0)
  else if off = 0x200078 then BitVec.ofNat 32 h.snapSize
  else if 0x1B00010 ≤ off ∧ off < 0x1B00020 then
    BitVec.ofNat 32 ([h.time.frac / 2 ^ 24, h.time.ns, h.time.sec, h.time.sec / 2 ^ 32].getD ((off - 0x1B00010) / 4) 0)
  else if s.unbuiltPort off then
    (if LCH.VIEW.INFORCE.of (h.rd (winKey fn 0x200040)) = 1 then h.rd off else h.rdShadow off) &&& accMask .sh off
  else if readsPublished r off then h.rdPub (keyFor fn off)
  else
    let k := keyFor fn off
    let sh := accMask .sh off
    let view := LCH.VIEW.INFORCE.of (h.rd (winKey fn 0x200040))
    let force := h.shown off (h.rd k)
    let both := if view = 1 then force else (force &&& ~~~ sh) ||| (h.rdShadow off &&& sh)
    both &&& ~~~ (accMask .wo off)

/-- The high register of a pair, given its low register (R90): it follows at +4, or precedes where the table lists it first. -/
def pairHigh (off : Nat) : Option Nat :=
  let before := [0x30000C, 0x300014, 0x20000C]
  let after : List Nat := [0x8, 0x100008, 0x200020, 0x200028, 0x200030, 0x200050, 0x200060, 0x200200, 0x300018, 0x1600020, 0x1800020,
    0x1A00010, 0x1A00018, 0x1A00020, 0x1B00018, 0x1B00020, 0x1C00020, 0x1C00088, 0x1E00008, 0x2800020, 0x2C00020]
  let rep := fun (lo stride n : Nat) (at_ : List Nat) => decide (lo ≤ off ∧ off < lo + stride * n) && at_.contains ((off - lo) % stride)
  if before.contains off then some (off - 4)
  else if after.contains off || rep 0x401000 64 8 [0, 8, 16, 24] || rep 0xC00000 65536 24 [0x20, 0x28] || rep 0x1000000 65536 16 [0x20] ||
      rep 0x1200000 65536 8 [0x20, 0x28] || rep 0x1400000 65536 4 [0x20, 0x28, 0x30] || rep 0x1501000 64 16 [8] || rep 0x1502000 64 8 [8] ||
      rep 0x1900000 1024 64 [0x20, 0x28] || rep 0x1A01000 16 48 [4] || rep 0x1A00048 8 7 [0] || rep 0x801000 256 32 [0xC] || rep 0x1E01000 64 32 [8, 0x20, 0x28] ||
      rep 0x1E02000 64 16 [0x30] || rep 0x1B00100 32 4 [8] || rep 0x2004000 32 1024 [4, 12, 20] || rep 0x2800200 8 64 [0] then some (off + 4)
  else none

/-- What a 32-bit read returns, before its side effects (R8, R19, R365, R373, R393, R399). -/
def State.busValue (s : State) (fn off : Nat) : Word :=
  match s.hub.bar with
  | .dead => 0
  | .early => if off < 0x10 ∨ off = 0x10 ∨ (0x20 ≤ off ∧ off < 0x30) then (match regRow off with
      | some r => s.regValue fn off r
      | none => 0) else 0
  | .frozen => if off = 0x10 then s.hub.rd 0x10 else BitVec.allOnes 32
  | .live =>
    if 0x3000000 ≤ off ∧ off < 0x4000000 then
      (if s.hub.get DBT.DEBUG.PEEP = 1 then s.imageWord (off - 0x3000000) else 0)
    else if s.hub.absentBlock off ∨ !s.hub.windowShows fn off then 0
    else match regRow off with
      | some r => (kvGet (winKey fn off) s.hub.captured).getD (s.regValue fn off r)
      | none => 0

/-- RES_PEAK is cleared by its read (R10): the selected resource's highest consumption starts anew; the running period counts whole
when it ends. -/
def State.peakRead (s : State) : State :=
  match s.resSel with
  | some (kind, index) => { s with fab := { s.fab with peaks := kvDel (kind * 65536 + s.hub.hwIndex kind index) s.fab.peaks } }
  | none => s

/-- The side effects of a live read of a register: capture of a pair's high half or its use, of the time, an RC field's clearing, and
capture registers marked as read. -/
def State.readEffects (s : State) (fn off : Nat) : State :=
  let k := winKey fn off
  let s1 : State := { s with hub := { s.hub with captured := kvDel k s.hub.captured } }
  let s2 := match pairHigh off with
    | some hi =>
      let s0 : State := if off = 0x1B00018 then s else { s with hub := { s.hub with captured := kvDel (winKey fn hi) s.hub.captured } }
      { s1 with hub := { s1.hub with captured := kvPut (winKey fn hi) (s0.busValue fn hi) s1.hub.captured } }
    | none => s1
  if off = 0x100030 then s2.peakRead
  else if off = 0x1B00040 then { s2 with tim := { s2.tim with ppsUnread := false } }
  else if 0x1B00100 ≤ off ∧ off < 0x1B00180 ∧ off % 32 = 0x14 then
    let n := (off - 0x1B00100) / 32
    { s2 with tim := s2.tim.setPin n { s2.tim.pin n with unread := false } }
  else s2

/-- What an access of `size` bytes at `off` touches (R9): for each register its offset, the first of its bytes addressed, and how many. -/
def accessParts (off size : Nat) : List (Nat × Nat × Nat) :=
  (List.range ((off % 4 + size + 3) / 4)).map fun k =>
    let w := off / 4 * 4 + 4 * k
    (w, max off w - w, min (off + size) (w + 4) - max off w)

/-- `n` bytes of a register from byte `b` on. -/
def wordBytes (v : Word) (b n : Nat) : Word := (v >>> (8 * b)) &&& BitVec.ofNat 32 (2 ^ (8 * n) - 1)

/-- A read of bytes of one register: they go back to the reader, with the side effects of a 32-bit read (R9). A read of NOW_FRAC
captures the time (R311). -/
def State.pieceRead (s : State) (fn o b n : Nat) : State :=
  let v := wordBytes (s.busValue fn o) b n
  let s1 : State :=
    if s.hub.bar = .live ∧ o = 0x1B00010 then { s with hub := s.hub.nowCapture fn }
    else if s.hub.bar = .live ∧ !s.hub.absentBlock o ∧ s.hub.windowShows fn o then s.readEffects fn o else s
  { s1 with hub := s1.hub.emit (.regRead fn (o + b) v) }

/-- A read of `size` bytes by function `fn`, one access to each register it touches (R9); while the PCIe island is down none arrives
(R24). -/
def State.busRead (s : State) (fn off size : Nat) : State :=
  if s.hub.pcieDown then s else (accessParts off size).foldl (fun (a : State) p => a.pieceRead fn p.1 p.2.1 p.2.2) s

/-! ### Writes -/

/-- The hc left of the running Louvre period, at the guaranteed 240,000 hc per period (R58). -/
def Hub.hcLeft (h : Hub) : Nat := (125000 - h.time.ns % 125000) * 240000 / 125000

/-- A listed register takes a write by its fields' access codes: RW bits as written, W1C bits cleared, W1S bits set, SH bits into the
shadow (R10, R78). -/
def State.plainWrite (s : State) (fn off : Nat) (val : Word) : State :=
  let k := keyFor fn off
  let rw := accMask .rw off
  let old := s.hub.rd k
  let new := ((((old &&& ~~~ rw) ||| (val &&& rw)) &&& ~~~ (val &&& accMask .w1c off)) ||| (val &&& accMask .w1s off))
  let s1 : State := if old = new then s else { s with hub := s.hub.wr k new }
  let s2 := match stuckBit off with
    | some b => if val.getLsbD b then s1.stuckClear off else s1
    | none => s1
  s2.shadowPut fn off (BitVec.allOnes 32) val

/-- A write of CONS of a log: a value past PROD acts as PROD (R94). -/
def consWrite (prod cons : Word) : Word := if laterThan 32 prod.toNat cons.toNat then prod else cons

/-- A log's registers: naming a ring writes a pending `LOG_LOST` record, and so does a CONS that returns space (R94). -/
def State.logWrite (s : State) (fn off : Nat) (val : Word) : State :=
  let v := if off = 0x200210 then consWrite (s.hub.rd (winKey fn 0x20020C)) val else val
  let s1 := s.plainWrite fn off v
  if off = 0x200208 then { s1 with hub := s1.hub.logLostFlush fn } else s1

/-- A write of `LNK.LANE_CTL`: retrain, loopback, sleep, and the lane test's fields (R340, R343, R345, R346). -/
def State.laneWrite (s : State) (lane : Nat) (val : Word) : State :=
  let old := s.hub.rd (0x1E00400 + 16 * lane)
  let s1 := s.plainWrite 0 (0x1E00400 + 16 * lane) ((val &&& 0x07FFFFFF) ||| (old &&& 0x78000000))
  let s2 := if LNK.LANE_CTL.LOOP.of val = LNK.LANE_CTL.LOOP.of old then s1 else s1.laneLoop lane val
  let s3 := if (val ^^^ old) &&& 0x18000000 = 0 then s2 else s2.laneSleepWrite lane val
  if LNK.LANE_CTL.RETRAIN.of val = 1 then s3.laneRetrain lane else s3

/-- Apply a meaning that always goes on. -/
def State.did (s : State) (f : State → Host.Outcome State Fault Refusal) : State :=
  match f s with
  | .next t => t
  | _ => s

/-- Registers whose writes act: each as its own row states, the rest by their access codes. -/
def State.regWrite (s : State) (fn off : Nat) (val : Word) : State :=
  if off = 0x200004 then (match LCH.COMMIT.MODE.of val with
    | 1 => s.commitSched fn val s.hub.hcLeft
    | 2 => s.commitDom fn val
    | _ => s.commitNext fn s.hub.hcLeft)
  else if off = 0x200070 then (if LCH.SNAP_CMD.MODE.of val = 1 then s.snapSched val s.hub.hcLeft else s.snapNext val s.hub.hcLeft)
  else if off = 0x28 then s.did (execStartCtlWarm fn val)
  else if off = 0x1B00008 then s.lockWrite val
  else if off = 0x1B00024 then s.incrWrite val
  else if off = 0x1B00030 then s.did (execTimeStep val)
  else if 0x1B00100 ≤ off ∧ off < 0x1B00180 ∧ off % 32 ≤ 0x10 then s.did (execTevConfigWrite ((off - 0x1B00100) / 32) (off % 32) val)
  else if 0x1A00400 ≤ off ∧ off < 0x1A00458 then
    (if s.hub.kw fn CIP.KW_STAT.BUSY = 1 then s else { s with hub := s.hub.wr (winKey fn off) val })
  else if off = 0x1A00480 then (match CIP.KW_CMD.OP.of val with
    | 1 => s.keyStart fn false val
    | 2 => s.keyStart fn true val
    | _ => s)
  else if 0x200200 ≤ off ∧ off ≤ 0x200210 then s.logWrite fn off val
  else if off = 0x1C00064 then s.plainWrite fn off (consWrite (s.hub.rd 0x1C00060) val)
  else if off = 0x1C00094 then (match MEM.TEST_CMD.OP.of val with
    | 1 => s.did execRawWrite
    | 2 => s.did execRawRead
    | 3 => s.did execCheckedRead
    | _ => s)
  else if 0x1E00400 ≤ off ∧ off < 0x1E00A00 ∧ off % 16 = 0 then s.laneWrite ((off - 0x1E00400) / 16) val
  else if 0x2004000 ≤ off ∧ off < 0x200C000 ∧ (off - 0x2004000) % 32 ≤ 0x18 then { s with hub := s.hub.qpWrite off val }
  else if 0x810000 ≤ off ∧ off < 0x818000 ∧ off % 16 = 0 then { s with hub := s.hub.fifoCtl ((off - 0x810000) / 16) val }
  else s.plainWrite fn off val

/-- The whole registers that a write of `size` bytes covers, with their words; what is narrower is discarded (R9). -/
def wordWrites (off size : Nat) (val : BitVec 64) : List (Nat × Word) :=
  ((accessParts off size).filter fun p => p.2.2 = 4).map fun p => (p.1, (val >>> (8 * (p.1 - off))).setWidth 32)

/-- A write of one whole register by function `fn`, where the host's writes reach the device (R19, R365, R373, R399). A doorbell is
heard while the core is frozen. -/
def State.wordWrite (s : State) (fn off : Nat) (val : Word) : State :=
  if 63 < fn then s
  else if 0x2010000 ≤ off ∧ off < 0x2012000 then s.doorbell fn ((off - 0x2010000) / 8) (off / 4 % 2) val.toNat
  else if s.hub.bar = .early ∧ off = 0x28 then s.regWrite fn off val
  else if s.hub.bar ≠ .live ∨ s.hub.absentBlock off ∨ !s.hub.windowTakes fn off ∨ (regRow off).isNone then s
  else s.regWrite fn off val

/-- A write of `size` bytes by function `fn`, one access to each register it touches; only whole registers are written (R9), and none
while the PCIe island is down (R24). While the core withholds acknowledges the island's FIFO fills (R23). -/
def State.busWrite (s : State) (fn off size : Nat) (val : BitVec 64) : State :=
  if s.hub.pcieDown then s
  else (wordWrites off size val).foldl (fun (a : State) w => a.wordWrite fn w.1 w.2) (s.offer .pcie size)

/-- A write to the SH fields of one register alone (R78). -/
def State.wordShadow (s : State) (fn off : Nat) (val : Word) : State :=
  if s.barLive ∧ fn < 64 ∧ s.hub.windowTakes fn off then s.shadowPut fn off (BitVec.allOnes 32) val else s

/-! ### Rows -/

/-- REG_WRITE (R10). -/
def execRegWrite (fn off size : Nat) (val : BitVec 64) (s : State) : Host.Outcome State Fault Refusal := .next (s.busWrite fn off size val)

/-- SHADOW_WRITE (R78): the SH fields of the register alone. -/
def execShadowWrite (fn off size : Nat) (val : BitVec 64) (s : State) : Host.Outcome State Fault Refusal :=
  .next (if s.hub.pcieDown then s else (wordWrites off size val).foldl (fun (a : State) w => a.wordShadow fn w.1 w.2) s)

/-- RC_FIELD_READ (R10). -/
def execRcFieldRead (fn off size : Nat) (s : State) : Host.Outcome State Fault Refusal := .next (s.busRead fn off size)

/-- PAIR_LOW_READ (R90). -/
def execPairLowRead (fn off size : Nat) (s : State) : Host.Outcome State Fault Refusal := .next (s.busRead fn off size)

/-- CNT_STUCK_CLEAR (R95): a W1C of an EVT register; its CNT_STUCK bit clears the block's stuck counters. -/
def execCntStuckClear (fn off : Nat) (val : Word) (s : State) : Host.Outcome State Fault Refusal :=
  .next (if s.barLive ∧ fn = 0 ∧ !s.hub.absentBlock off then s.plainWrite fn off (val &&& accMask .w1c off) else s)

/-- LOG_SIZE_WRITE (R94). -/
def execLogSizeWrite (fn : Nat) (val : Word) (s : State) : Host.Outcome State Fault Refusal :=
  .next (if s.barLive ∧ fn < 64 then s.logWrite fn 0x200208 val else s)

end Sys2Proof.Machine
end

