-- ==== Sys2Proof/Machine/Dispatch.lean ====
section
/-!
DEFINITION. Which meaning each command has: one arm per row of the opcode table, each one direct call.
-/

namespace Sys2Proof.Machine

def exec (i : Instr) (s : State) : Host.Outcome State Fault Refusal :=
  match i with
  | .regWrite fn off size val => Sys2Proof.Machine.execRegWrite fn off size val s
  | .shadowWrite fn off size val => Sys2Proof.Machine.execShadowWrite fn off size val s
  | .rcFieldRead fn off size => Sys2Proof.Machine.execRcFieldRead fn off size s
  | .pairLowRead fn off size => Sys2Proof.Machine.execPairLowRead fn off size s
  | .nowFracRead fn => Sys2Proof.Machine.execNowFracRead fn s
  | .cntStuckClear fn off val => Sys2Proof.Machine.execCntStuckClear fn off val s
  | .logSizeWrite fn val => Sys2Proof.Machine.execLogSizeWrite fn val s
  | .islandDown isl => Sys2Proof.Machine.execIslandDown isl s
  | .islandReturn isl => Sys2Proof.Machine.execIslandReturn isl s
  | .paceWindowEnd counts => Sys2Proof.Machine.execPaceWindowEnd counts s
  | .supplyLoopEvaluation currentMa => Sys2Proof.Machine.execSupplyLoopEvaluation currentMa s
  | .louvreBoundary sensors => Sys2Proof.Machine.execLouvreBoundary sensors s
  | .publicationDone => Sys2Proof.Machine.execPublicationDone s
  | .arbiterGrant kind index reqs => Sys2Proof.Machine.execArbiterGrant kind index reqs s
  | .sashBuildDone sash => Sys2Proof.Machine.execSashBuildDone sash s
  | .sashWorkBoundary sash => Sys2Proof.Machine.execSashWorkBoundary sash s
  | .spareTaken ty inst badReads => Sys2Proof.Machine.execSpareTaken ty inst badReads s
  | .latchCommitNext fn val hcLeft => Sys2Proof.Machine.execLatchCommitNext fn val hcLeft s
  | .latchCommitSched fn val hcLeft => Sys2Proof.Machine.execLatchCommitSched fn val hcLeft s
  | .latchCommitDomain fn val => Sys2Proof.Machine.execLatchCommitDomain fn val s
  | .armReceive dev tag sec ns => Sys2Proof.Machine.execArmReceive dev tag sec ns s
  | .armExpiry dev tag sec ns => Sys2Proof.Machine.execArmExpiry dev tag sec ns s
  | .groupGuardDecision num => Sys2Proof.Machine.execGroupGuardDecision num s
  | .snapCmdNext val hcLeft => Sys2Proof.Machine.execSnapCmdNext val hcLeft s
  | .snapCmdSched val hcLeft => Sys2Proof.Machine.execSnapCmdSched val hcLeft s
  | .snapRequestReceive dev sec ns mask clr => Sys2Proof.Machine.execSnapRequestReceive dev sec ns mask clr s
  | .snapRecordReceive dev rec => Sys2Proof.Machine.execSnapRecordReceive dev rec s
  | .snapMemberTimeout dev => Sys2Proof.Machine.execSnapMemberTimeout dev s
  | .snapDone => Sys2Proof.Machine.execSnapDone s
  | .imgDone hcLeft => Sys2Proof.Machine.execImgDone hcLeft s
  | .frameClassify f => Sys2Proof.Machine.execFrameClassify f s
  | .consentRequestTimer leg => Sys2Proof.Machine.execConsentRequestTimer leg s
  | .consentTimeout leg => Sys2Proof.Machine.execConsentTimeout leg s
  | .rtcpIntervalTimer leg => Sys2Proof.Machine.execRtcpIntervalTimer leg s
  | .ccfbIntervalTimer leg => Sys2Proof.Machine.execCcfbIntervalTimer leg s
  | .allocIntervalTimer leg => Sys2Proof.Machine.execAllocIntervalTimer leg s
  | .upstreamNackTimer stream seq => Sys2Proof.Machine.execUpstreamNackTimer stream seq s
  | .keyRequestTimer stream own => Sys2Proof.Machine.execKeyRequestTimer stream own s
  | .switchWaitExpiry sub => Sys2Proof.Machine.execSwitchWaitExpiry sub s
  | .removalDrainDone kind id => Sys2Proof.Machine.execRemovalDrainDone kind id s
  | .confCreate e body => Sys2Proof.Machine.execConfCreate e body s
  | .confDestroy e body => Sys2Proof.Machine.execConfDestroy e body s
  | .legAdd e body => Sys2Proof.Machine.execLegAdd e body s
  | .legModify e body => Sys2Proof.Machine.execLegModify e body s
  | .legRemove e body => Sys2Proof.Machine.execLegRemove e body s
  | .streamAdd e body => Sys2Proof.Machine.execStreamAdd e body s
  | .streamDel e body => Sys2Proof.Machine.execStreamDel e body s
  | .subAdd e body => Sys2Proof.Machine.execSubAdd e body s
  | .subModify e body => Sys2Proof.Machine.execSubModify e body s
  | .subDel e body => Sys2Proof.Machine.execSubDel e body s
  | .legStats e body => Sys2Proof.Machine.execLegStats e body s
  | .keyReq e body => Sys2Proof.Machine.execKeyReq e body s
  | .svcParam e body => Sys2Proof.Machine.execSvcParam e body s
  | .fifoFlush fn n val => Sys2Proof.Machine.execFifoFlush fn n val s
  | .fifoSizeChange fn n val => Sys2Proof.Machine.execFifoSizeChange fn n val s
  | .egressSchedule p => Sys2Proof.Machine.execEgressSchedule p s
  | .rateWheelSlot n => Sys2Proof.Machine.execRateWheelSlot n s
  | .gateEntryChange p => Sys2Proof.Machine.execGateEntryChange p s
  | .gclTakeover p => Sys2Proof.Machine.execGclTakeover p s
  | .headerRecordReceive unit sash poison rec => Sys2Proof.Machine.execHeaderRecordReceive unit sash poison rec s
  | .pictureDescriptorReceive unit sash desc => Sys2Proof.Machine.execPictureDescriptorReceive unit sash desc s
  | .stripeStart x => Sys2Proof.Machine.execStripeStart x s
  | .blockCoded x => Sys2Proof.Machine.execBlockCoded x s
  | .inputDeadline unit sash frame k => Sys2Proof.Machine.execInputDeadline unit sash frame k s
  | .codingDeadline unit sash rend frame k bits => Sys2Proof.Machine.execCodingDeadline unit sash rend frame k bits s
  | .releaseRowTime unit sash rend frame row => Sys2Proof.Machine.execReleaseRowTime unit sash rend frame row s
  | .lateRowRelease unit sash rend frame row => Sys2Proof.Machine.execLateRowRelease unit sash rend frame row s
  | .encConfig e body => Sys2Proof.Machine.execEncConfig e body s
  | .encRefresh e body => Sys2Proof.Machine.execEncRefresh e body s
  | .encStats e body => Sys2Proof.Machine.execEncStats e body s
  | .decPacketReceive sash stream p => Sys2Proof.Machine.execDecPacketReceive sash stream p s
  | .decFrameLostTimer sash stream => Sys2Proof.Machine.execDecFrameLostTimer sash stream s
  | .decFrameDecode sash stream p => Sys2Proof.Machine.execDecFrameDecode sash stream p s
  | .pictureRelease part off => Sys2Proof.Machine.execPictureRelease part off s
  | .decOpen e body => Sys2Proof.Machine.execDecOpen e body s
  | .decClose e body => Sys2Proof.Machine.execDecClose e body s
  | .decStats e body => Sys2Proof.Machine.execDecStats e body s
  | .cmpDescriptorReceive unit port desc => Sys2Proof.Machine.execCmpDescriptorReceive unit port desc s
  | .cmpFrameInstant unit poisonTiles => Sys2Proof.Machine.execCmpFrameInstant unit poisonTiles s
  | .cmpLineComplete unit video => Sys2Proof.Machine.execCmpLineComplete unit video s
  | .paneChunkReceive spl chunk poison => Sys2Proof.Machine.execPaneChunkReceive spl chunk poison s
  | .templateRecordReceive spl rec poison => Sys2Proof.Machine.execTemplateRecordReceive spl rec poison s
  | .spliceDeadline spl frame => Sys2Proof.Machine.execSpliceDeadline spl frame s
  | .splPaneset e body => Sys2Proof.Machine.execSplPaneset e body s
  | .splImport e body => Sys2Proof.Machine.execSplImport e body s
  | .splRecvAdd e body => Sys2Proof.Machine.execSplRecvAdd e body s
  | .splRecvSet e body => Sys2Proof.Machine.execSplRecvSet e body s
  | .splRecvDel e body => Sys2Proof.Machine.execSplRecvDel e body s
  | .splRefresh e body => Sys2Proof.Machine.execSplRefresh e body s
  | .splStats e body => Sys2Proof.Machine.execSplStats e body s
  | .vinPacketReceive x => Sys2Proof.Machine.execVinPacketReceive x s
  | .sdiLineReceive x => Sys2Proof.Machine.execSdiLineReceive x s
  | .vinStripeStream vin frame k => Sys2Proof.Machine.execVinStripeStream vin frame k s
  | .vinPathTimeout vin kind group pathB => Sys2Proof.Machine.execVinPathTimeout vin kind group pathB s
  | .vinSignalTimeout vin => Sys2Proof.Machine.execVinSignalTimeout vin s
  | .sdiTxFrame lane => Sys2Proof.Machine.execSdiTxFrame lane s
  | .tsoRowReceive tso frame row flags cf size => Sys2Proof.Machine.execTsoRowReceive tso frame row flags cf size s
  | .tsPacketSchedule tso => Sys2Proof.Machine.execTsPacketSchedule tso s
  | .psiTimer tso => Sys2Proof.Machine.execPsiTimer tso s
  | .cmafChunkWrite x => Sys2Proof.Machine.execCmafChunkWrite x s
  | .gainStepZeroCross sink source sample => Sys2Proof.Machine.execGainStepZeroCross sink source sample s
  | .gainStepTimeout sink source => Sys2Proof.Machine.execGainStepTimeout sink source s
  | .asHoldExpiry sink => Sys2Proof.Machine.execAsHoldExpiry sink s
  | .onePerRoomTimer => Sys2Proof.Machine.execOnePerRoomTimer s
  | .talkIntervalTimer conf => Sys2Proof.Machine.execTalkIntervalTimer conf s
  | .audPacketReceive x => Sys2Proof.Machine.execAudPacketReceive x s
  | .audEncFrame chan frame coded level => Sys2Proof.Machine.execAudEncFrame chan frame coded level s
  | .cascadeFlit dev chan period samples poison => Sys2Proof.Machine.execCascadeFlit dev chan period samples poison s
  | .audSrcBind e body => Sys2Proof.Machine.execAudSrcBind e body s
  | .audSnkBind e body => Sys2Proof.Machine.execAudSnkBind e body s
  | .audNodeSet e body => Sys2Proof.Machine.execAudNodeSet e body s
  | .audDecOpen e body => Sys2Proof.Machine.execAudDecOpen e body s
  | .audEncOpen e body => Sys2Proof.Machine.execAudEncOpen e body s
  | .audClose e body => Sys2Proof.Machine.execAudClose e body s
  | .audConf e body => Sys2Proof.Machine.execAudConf e body s
  | .audLegProfile e body => Sys2Proof.Machine.execAudLegProfile e body s
  | .audRoom e body => Sys2Proof.Machine.execAudRoom e body s
  | .audStats e body => Sys2Proof.Machine.execAudStats e body s
  | .dblFrameStart leg => Sys2Proof.Machine.execDblFrameStart leg s
  | .dwellStart core recv => Sys2Proof.Machine.execDwellStart core recv s
  | .dwellEnd core recv => Sys2Proof.Machine.execDwellEnd core recv s
  | .preambleAcquire core recv metric => Sys2Proof.Machine.execPreambleAcquire core recv metric s
  | .syncWordSearchEnd core recv found => Sys2Proof.Machine.execSyncWordSearchEnd core recv found s
  | .headerDecoded core recv => Sys2Proof.Machine.execHeaderDecoded core recv s
  | .payloadDecoded core recv => Sys2Proof.Machine.execPayloadDecoded core recv s
  | .edgeTtlExpiry legA legB => Sys2Proof.Machine.execEdgeTtlExpiry legA legB s
  | .dblTx e body => Sys2Proof.Machine.execDblTx e body s
  | .dblSurvey e body => Sys2Proof.Machine.execDblSurvey e body s
  | .dblGroup e body => Sys2Proof.Machine.execDblGroup e body s
  | .hngBundleExecute core sash => Sys2Proof.Machine.execHngBundleExecute core sash s
  | .mailboxDelivery core => Sys2Proof.Machine.execMailboxDelivery core s
  | .mailboxDrain core => Sys2Proof.Machine.execMailboxDrain core s
  | .dmaTransferDone core channel => Sys2Proof.Machine.execDmaTransferDone core channel s
  | .hngLoad e body => Sys2Proof.Machine.execHngLoad e body s
  | .hngStart e body => Sys2Proof.Machine.execHngStart e body s
  | .hngHalt e body => Sys2Proof.Machine.execHngHalt e body s
  | .hngStats e body => Sys2Proof.Machine.execHngStats e body s
  | .keyWrite fn val => Sys2Proof.Machine.execKeyWrite fn val s
  | .keyErase fn val => Sys2Proof.Machine.execKeyErase fn val s
  | .keyUnwrapDone fn slot erase rec => Sys2Proof.Machine.execKeyUnwrapDone fn slot erase rec s
  | .keyDrainEnd slot => Sys2Proof.Machine.execKeyDrainEnd slot s
  | .heldKeyExpiry slot => Sys2Proof.Machine.execHeldKeyExpiry slot s
  | .cipherItem it => Sys2Proof.Machine.execCipherItem it s
  | .pageDecodeDone cell errs => Sys2Proof.Machine.execPageDecodeDone cell errs s
  | .hbmRefresh stack => Sys2Proof.Machine.execHbmRefresh stack s
  | .hbmTempReading stack temp => Sys2Proof.Machine.execHbmTempReading stack temp s
  | .scrubVisit cell errs => Sys2Proof.Machine.execScrubVisit cell errs s
  | .mergeFlushTimeout word => Sys2Proof.Machine.execMergeFlushTimeout word s
  | .caParityError stack pch cell wr second => Sys2Proof.Machine.execCaParityError stack pch cell wr second s
  | .bar2Read fn off n => Sys2Proof.Machine.execBar2Read fn off n s
  | .bar2Write fn off bytes poison => Sys2Proof.Machine.execBar2Write fn off bytes poison s
  | .rawWrite => Sys2Proof.Machine.execRawWrite s
  | .rawRead => Sys2Proof.Machine.execRawRead s
  | .checkedRead => Sys2Proof.Machine.execCheckedRead s
  | .pageRemapDone channel => Sys2Proof.Machine.execPageRemapDone channel s
  | .laneLost lane => Sys2Proof.Machine.execLaneLost lane s
  | .laneAdaptDone lane ok snr inverted reversed => Sys2Proof.Machine.execLaneAdaptDone lane ok snr inverted reversed s
  | .fomLowTimer lane snr => Sys2Proof.Machine.execFomLowTimer lane snr s
  | .laneRetrain lane => Sys2Proof.Machine.execLaneRetrain lane s
  | .laneLoopbackWrite lane val => Sys2Proof.Machine.execLaneLoopbackWrite lane val s
  | .laneSleepWrite lane val => Sys2Proof.Machine.execLaneSleepWrite lane val s
  | .linkAligned link reversed => Sys2Proof.Machine.execLinkAligned link reversed s
  | .helloTimer link => Sys2Proof.Machine.execHelloTimer link s
  | .helloFlit link bytes => Sys2Proof.Machine.execHelloFlit link bytes s
  | .idleFlit link bytes => Sys2Proof.Machine.execIdleFlit link bytes s
  | .sequencedFlitReceive f => Sys2Proof.Machine.execSequencedFlitReceive f s
  | .nakReceive link bytes => Sys2Proof.Machine.execNakReceive link bytes s
  | .holdFlit link bytes => Sys2Proof.Machine.execHoldFlit link bytes s
  | .linkFlit link bytes => Sys2Proof.Machine.execLinkFlit link bytes s
  | .holdTimeout link => Sys2Proof.Machine.execHoldTimeout link s
  | .tunnelReplayTimer link => Sys2Proof.Machine.execTunnelReplayTimer link s
  | .tunnelSilenceTimeout link => Sys2Proof.Machine.execTunnelSilenceTimeout link s
  | .handover e body => Sys2Proof.Machine.execHandover e body s
  | .handoverSwitch conf => Sys2Proof.Machine.execHandoverSwitch conf s
  | .handoverTailEnd conf => Sys2Proof.Machine.execHandoverTailEnd conf s
  | .linkStats e body => Sys2Proof.Machine.execLinkStats e body s
  | .ptpFrameReceive f => Sys2Proof.Machine.execPtpFrameReceive f s
  | .oneStepSync port sec ns frac oldSec oldNs oldCorr udpSum => Sys2Proof.Machine.execOneStepSync port sec ns frac oldSec oldNs oldCorr udpSum s
  | .ptpLockDeclared => Sys2Proof.Machine.execPtpLockDeclared s
  | .ptpLossDeclared => Sys2Proof.Machine.execPtpLossDeclared s
  | .ptpPort e body => Sys2Proof.Machine.execPtpPort e body s
  | .ptpStats e body => Sys2Proof.Machine.execPtpStats e body s
  | .timeStep val => Sys2Proof.Machine.execTimeStep val s
  | .incrWrite val => Sys2Proof.Machine.execIncrWrite val s
  | .lockWrite val => Sys2Proof.Machine.execLockWrite val s
  | .timWatchdogExpiry => Sys2Proof.Machine.execTimWatchdogExpiry s
  | .ppsInEdge => Sys2Proof.Machine.execPpsInEdge s
  | .ppsOutPulse => Sys2Proof.Machine.execPpsOutPulse s
  | .pinPulseEnd pin => Sys2Proof.Machine.execPinPulseEnd pin s
  | .tevCaptureEdge pin => Sys2Proof.Machine.execTevCaptureEdge pin s
  | .tevRise pin => Sys2Proof.Machine.execTevRise pin s
  | .tevConfigWrite pin reg val => Sys2Proof.Machine.execTevConfigWrite pin reg val s
  | .dbProd fn q index words => Sys2Proof.Machine.execDbProd fn q index words s
  | .dbCons fn q index => Sys2Proof.Machine.execDbCons fn q index s
  | .commandTake q => Sys2Proof.Machine.execCommandTake q s
  | .qpCfgWrite fn off val => Sys2Proof.Machine.execQpCfgWrite fn off val s
  | .vfFlr vf => Sys2Proof.Machine.execVfFlr vf s
  | .pcieLinkDown => Sys2Proof.Machine.execPcieLinkDown s
  | .pcieLinkUp gen width mps vfs => Sys2Proof.Machine.execPcieLinkUp gen width mps vfs s
  | .getNonce f => Sys2Proof.Machine.execGetNonce f s
  | .read f => Sys2Proof.Machine.execRead f s
  | .provision f => Sys2Proof.Machine.execProvision f s
  | .setPower f => Sys2Proof.Machine.execSetPower f s
  | .setPace f => Sys2Proof.Machine.execSetPace f s
  | .setPolicy f => Sys2Proof.Machine.execSetPolicy f s
  | .setBucket f => Sys2Proof.Machine.execSetBucket f s
  | .setKeyMax f => Sys2Proof.Machine.execSetKeyMax f s
  | .wrapKey f key => Sys2Proof.Machine.execWrapKey f key s
  | .debug f => Sys2Proof.Machine.execDebug f s
  | .setBist f => Sys2Proof.Machine.execSetBist f s
  | .bistRun f => Sys2Proof.Machine.execBistRun f s
  | .march f => Sys2Proof.Machine.execMarch f s
  | .retire f => Sys2Proof.Machine.execRetire f s
  | .shutterFreeze f => Sys2Proof.Machine.execShutterFreeze f s
  | .shutterRelease f => Sys2Proof.Machine.execShutterRelease f s
  | .warm f => Sys2Proof.Machine.execWarm f s
  | .nonceExpiry => Sys2Proof.Machine.execNonceExpiry s
  | .dbtLockstepMismatch => Sys2Proof.Machine.execDbtLockstepMismatch s
  | .dbtRestart => Sys2Proof.Machine.execDbtRestart s
  | .bucketLeak channel => Sys2Proof.Machine.execBucketLeak channel s
  | .bistScheduleTimer ty => Sys2Proof.Machine.execBistScheduleTimer ty s
  | .bistTestDone ty inst pass => Sys2Proof.Machine.execBistTestDone ty inst pass s
  | .marchDone words twice => Sys2Proof.Machine.execMarchDone words twice s
  | .shutterNFall => Sys2Proof.Machine.execShutterNFall s
  | .shutterNRise => Sys2Proof.Machine.execShutterNRise s
  | .thermalTrigger => Sys2Proof.Machine.execThermalTrigger s
  | .hbmSelfRefreshEntry => Sys2Proof.Machine.execHbmSelfRefreshEntry s
  | .resumeDone => Sys2Proof.Machine.execResumeDone s
  | .peepTapShift instr => Sys2Proof.Machine.execPeepTapShift instr s
  | .coldStart => Sys2Proof.Machine.execColdStart s
  | .coldStepComplete r => Sys2Proof.Machine.execColdStepComplete r s
  | .warmNFall => Sys2Proof.Machine.execWarmNFall s
  | .startCtlWarm fn val => Sys2Proof.Machine.execStartCtlWarm fn val s
  | .warmStepComplete r => Sys2Proof.Machine.execWarmStepComplete r s
  | .resetNFall => Sys2Proof.Machine.execResetNFall s
  | .powerLoss => Sys2Proof.Machine.execPowerLoss s
  | .lintelCoreFault core => Sys2Proof.Machine.execLintelCoreFault core s
  | .ptpMessageTimer port kind sec ns frac => Sys2Proof.Machine.execPtpMessageTimer port kind sec ns frac s
  | .mgmtUnknownCommand f => Sys2Proof.Machine.execMgmtUnknownCommand f s

end Sys2Proof.Machine
end

