-- ==== Sys2Proof/Machine/Tick.lean ====
section
/-!
DEFINITION. What happens when no command waits: one tick of TIME_REFCLK (R308, R309) and the changes that fall due by themselves
(assumption 20).
-/

namespace Sys2Proof.Machine

/-- The counter of an island that has its clock: it stands still while `RESET_N` is low and, while its synchroniser is down, R24. -/
def State.clockRuns (s : State) : Bool := s.start.phase != .held && !s.fab.down.contains Sys2Proof.Island.time

/-- One tick: the counter adds the increment in force; domain commits of idle units and sashes fall due. -/
def State.tick (s : State) : State :=
  if s.clockRuns then
    ({ s with
      hub := { s.hub with ticks := s.hub.ticks + 1, time := s.hub.time.tick s.tim.incr }
      tim := { s.tim with carry := s.hub.time.carries s.tim.incr } } : State).quietBoundary
  else s

end Sys2Proof.Machine
end

