-- ==== Sys2Proof/WellFormed.lean ====
section
/-!
DEFINITION. Which commands the interfaces can carry: operands within their fields' widths, registers of the right kind, units the
die has, management transfers whose CMD is the row's. `exec` gives every command a next state; an ill-formed one stands for nothing
that can arrive.
-/

namespace Sys2Proof

open Sys2Proof.Machine

/-- PF0 or VF1–VF63 (R364). -/
def wfFn (fn : Nat) : Bool := decide (fn < 64)

/-- A register's address in BAR0 (R8, R365). -/
def wfOff (off : Nat) : Bool := decide (off < 0x4000000 ∧ off % 4 = 0)

/-- An access of 1 to 8 bytes within BAR0 (R9). -/
def wfSpan (off size : Nat) : Bool := decide (1 ≤ size ∧ size ≤ 8 ∧ off + size ≤ 0x4000000)

/-- A service command: its envelope's fields, and a body of at most 8,192 bytes (R370). -/
def wfCmd (e : CmdEnv) (body : List Byte) : Bool :=
  decide (e.qp < 1024 ∧ e.tag < 2 ^ 32) && wfFn e.fn && decide (body.length ≤ 8192)

/-- A management transfer of command `cmd`: byte 0 is CMD, byte 1 LEN (R378). -/
def wfMgmt (f : MgmtFrame) (cmd : Nat) : Bool := decide (2 ≤ f.bytes.length ∧ (f.bytes.headD 0).toNat = cmd)

/-- Is CMD listed in Table 20.2? -/
def mgmtListed (c : Nat) : Bool := decide ((1 ≤ c ∧ c ≤ 3) ∨ (0x10 ≤ c ∧ c ≤ 0x1C))

/-- An instance of a unit type that the full die has (Table 2.7). -/
def wfUnit (ty n : Nat) : Bool :=
  decide (n < [0, 24, 16, 8, 4, 64, 8, 48, 8, 32, 32, 16, 8, 96, 16, 2, 128].getD ty 0)

def wfSash (n : Nat) : Bool := decide (n < 1024)

def wfTime (sec ns : Nat) : Bool := decide (sec < 2 ^ 48 ∧ ns < 1000000000)

/-- What remains of a Louvre period in hc (R58). -/
def wfHc (n : Nat) : Bool := decide (n ≤ 240000)

/-- The bytes of one record or item, at most a FIFO item's (R133). -/
def wfBytes (b : List Byte) : Bool := decide (b.length ≤ 2 ^ 20)

/-- A cell address of HBM or SRAM (assumption 19). -/
def wfCell (c : Nat) : Bool := decide (c < 2 ^ 36 + 320 * 2 ^ 20)

def Island.wf : Island → Bool
  | .lane n => wfUnit 13 n
  | .hbm s => wfUnit 15 s
  | .pcie => true
  | .time => true

/-- A frame: its bytes fit a port's limits (R347). -/
def RxFrame.wf (f : RxFrame) : Bool :=
  wfUnit 9 f.port && decide (f.bytes.length ≤ 9600 ∧ f.payload.length ≤ 9600 ∧ f.sport < 65536 ∧ f.dport < 65536) &&
    decide (f.src.length = (if f.ipv6 then 16 else 4) ∧ f.dst.length = (if f.ipv6 then 16 else 4))

def CipItem.wf (i : CipItem) : Bool := decide (i.slot < 65536 ∧ i.kind < 4 ∧ i.seq < 65536) && wfSash i.sash

/-- A flit is 256 bytes (R350). -/
def wfFlit (b : List Byte) : Bool := decide (b.length = 256)

def JlRx.wf (f : JlRx) : Bool := wfUnit 14 f.link && wfFlit f.bytes && decide (f.clear.length ≤ 224)

/-- The commands that can arrive. -/
def Instr.wf : Instr → Bool
  | .regWrite fn off size _ => wfFn fn && wfSpan off size
  | .shadowWrite fn off size _ => wfFn fn && wfSpan off size && accMask .sh (off / 4 * 4) != 0
  | .rcFieldRead fn off size => wfFn fn && wfSpan off size
  | .pairLowRead fn off size => wfFn fn && wfSpan off size
  | .nowFracRead fn => wfFn fn
  | .cntStuckClear fn off _ => wfFn fn && wfOff off && accMask .w1c off != 0
  | .logSizeWrite fn _ => wfFn fn
  | .islandDown i => i.wf
  | .islandReturn i => i.wf
  | .paceWindowEnd counts => decide (counts.length = 32)
  | .supplyLoopEvaluation _ => true
  | .louvreBoundary sensors => decide (sensors.length ≤ 32) && sensors.all fun x => decide (x.1 < 32)
  | .publicationDone => true
  | .arbiterGrant kind index reqs => decide (kind < 6 ∧ index < 65536) && reqs.all fun r => decide (r.sash < 0x405 ∧ 1 ≤ r.cost)
  | .sashBuildDone n => wfSash n
  | .sashWorkBoundary n => wfSash n
  | .spareTaken ty inst _ => wfUnit ty inst
  | .latchCommitNext fn val hc => wfFn fn && wfHc hc && (LCH.COMMIT.MODE.of val == 0 || LCH.COMMIT.MODE.of val == 3)
  | .latchCommitSched fn val hc => wfFn fn && wfHc hc && LCH.COMMIT.MODE.of val == 1
  | .latchCommitDomain fn val => wfFn fn && LCH.COMMIT.MODE.of val == 2
  | .armReceive dev tag sec ns => decide (dev < 2048 ∧ tag < 65536) && wfTime sec ns
  | .armExpiry dev tag sec ns => decide (dev < 2048 ∧ tag < 65536) && wfTime sec ns
  | .groupGuardDecision _ => true
  | .snapCmdNext val hc => wfHc hc && LCH.SNAP_CMD.MODE.of val != 1
  | .snapCmdSched val hc => wfHc hc && LCH.SNAP_CMD.MODE.of val == 1
  | .snapRequestReceive dev sec ns _ _ => decide (dev < 2048) && wfTime sec ns
  | .snapRecordReceive dev _ => decide (dev < 2048)
  | .snapMemberTimeout dev => decide (dev < 2048)
  | .snapDone => true
  | .imgDone hc => wfHc hc
  | .frameClassify f => f.wf
  | .consentRequestTimer leg | .consentTimeout leg | .rtcpIntervalTimer leg | .ccfbIntervalTimer leg | .allocIntervalTimer leg =>
    decide (leg < 16384)
  | .upstreamNackTimer stream seq => decide (stream < 65536 ∧ seq < 65536)
  | .keyRequestTimer stream _ => decide (stream < 65536)
  | .switchWaitExpiry sub => decide (sub < 2 ^ 20)
  | .removalDrainDone kind id => decide (kind < 8 ∧ id < 2 ^ 20)
  | .confCreate e b | .confDestroy e b | .legAdd e b | .legModify e b | .legRemove e b | .streamAdd e b | .streamDel e b | .subAdd e b |
    .subModify e b | .subDel e b | .legStats e b | .keyReq e b | .svcParam e b => wfCmd e b
  | .fifoFlush fn n val => wfFn fn && decide (n < 2048) && val.getLsbD 31
  | .fifoSizeChange fn n _ => wfFn fn && decide (n < 2048)
  | .egressSchedule p | .gateEntryChange p | .gclTakeover p => wfUnit 9 p
  | .rateWheelSlot _ => true
  | .headerRecordReceive unit sash _ rec => wfUnit 1 unit && wfSash sash && wfBytes rec
  | .pictureDescriptorReceive unit sash desc => wfUnit 1 unit && wfSash sash && wfBytes desc
  | .stripeStart x => wfUnit 1 x.unit && wfSash x.sash
  | .blockCoded x => wfUnit 1 x.unit && wfSash x.sash && decide (x.poison < 3 ∧ x.hc ≤ 8192)
  | .inputDeadline unit sash _ _ => wfUnit 1 unit && wfSash sash
  | .codingDeadline unit sash _ _ _ _ => wfUnit 1 unit && wfSash sash
  | .releaseRowTime unit sash _ _ _ => wfUnit 1 unit && wfSash sash
  | .lateRowRelease unit sash _ _ _ => wfUnit 1 unit && wfSash sash
  | .encConfig e b | .encRefresh e b | .encStats e b => wfCmd e b
  | .decPacketReceive sash _ p => wfSash sash && decide (p.seq < 65536 ∧ p.ts < 2 ^ 32)
  | .decFrameLostTimer sash _ => wfSash sash
  | .decFrameDecode sash _ p => wfSash sash && decide (p.w < 65536 ∧ p.h < 65536 ∧ p.chroma < 4 ∧ p.depth < 17)
  | .pictureRelease part _ => decide (part < 65536)
  | .decOpen e b | .decClose e b | .decStats e b => wfCmd e b
  | .cmpDescriptorReceive unit _ desc => wfUnit 3 unit && wfBytes desc
  | .cmpFrameInstant unit _ => wfUnit 3 unit
  | .cmpLineComplete unit video => wfUnit 3 unit && video.all fun v => decide (v.layer < 8) && v.samples.all fun x =>
    decide (x.1 < 4096 ∧ x.2.1 < 4096 ∧ x.2.2 < 4096)
  | .paneChunkReceive spl chunk _ => wfUnit 4 spl && wfBytes chunk
  | .templateRecordReceive spl rec _ => wfUnit 4 spl && wfBytes rec
  | .spliceDeadline spl _ => wfUnit 4 spl
  | .splPaneset e b | .splImport e b | .splRecvAdd e b | .splRecvSet e b | .splRecvDel e b | .splRefresh e b | .splStats e b => wfCmd e b
  | .vinPacketReceive x => wfUnit 11 x.vin && decide (x.pt < 128 ∧ x.seq < 2 ^ 32 ∧ x.ts < 2 ^ 32) && x.segs.all fun g =>
    decide (g.px < 65536) && g.comps.all fun c => decide (c < 4096)
  | .sdiLineReceive x => wfUnit 11 x.vin && x.comps.all fun c => decide (c < 1024)
  | .vinStripeStream vin _ _ | .vinPathTimeout vin _ _ _ | .vinSignalTimeout vin => wfUnit 11 vin
  | .sdiTxFrame lane => wfUnit 13 lane
  | .tsoRowReceive tso _ _ _ _ _ | .tsPacketSchedule tso | .psiTimer tso => wfUnit 12 tso
  | .cmafChunkWrite x => wfUnit 12 x.tso
  | .gainStepZeroCross sink _ _ | .gainStepTimeout sink _ | .asHoldExpiry sink => decide (sink < 2048)
  | .onePerRoomTimer => true
  | .talkIntervalTimer conf => decide (conf < 65536)
  | .audPacketReceive x => decide (x.chan < 65536 ∧ x.ts < 2 ^ 32)
  | .audEncFrame chan _ coded _ => decide (chan < 65536) && wfBytes coded
  | .cascadeFlit dev chan _ _ _ => decide (dev < 2048 ∧ chan < 65536)
  | .audSrcBind e b | .audSnkBind e b | .audNodeSet e b | .audDecOpen e b | .audEncOpen e b | .audClose e b | .audConf e b |
    .audLegProfile e b | .audRoom e b | .audStats e b => wfCmd e b
  | .dblFrameStart leg => decide (leg < 16384)
  | .dwellStart core _ | .dwellEnd core _ | .preambleAcquire core _ _ | .syncWordSearchEnd core _ _ => wfUnit 5 core
  | .headerDecoded core _ | .payloadDecoded core _ => wfUnit 5 core
  | .edgeTtlExpiry legA legB => decide (legA < 16384 ∧ legB < 16384)
  | .dblTx e b | .dblSurvey e b | .dblGroup e b => wfCmd e b
  | .hngBundleExecute core sash => wfUnit 5 core && wfSash sash
  | .mailboxDelivery core | .mailboxDrain core => wfUnit 5 core
  | .dmaTransferDone core channel => wfUnit 5 core && decide (channel < 8)
  | .hngLoad e b | .hngStart e b | .hngHalt e b | .hngStats e b => wfCmd e b
  | .keyWrite fn val => wfFn fn && CIP.KW_CMD.OP.of val == 1
  | .keyErase fn val => wfFn fn && CIP.KW_CMD.OP.of val == 2
  | .keyUnwrapDone fn slot _ _ => wfFn fn && decide (slot < 65536)
  | .keyDrainEnd slot | .heldKeyExpiry slot => decide (slot < 65536)
  | .cipherItem it => it.wf
  | .pageDecodeDone cell _ => wfCell cell
  | .hbmRefresh stack | .hbmTempReading stack _ => wfUnit 15 stack
  | .scrubVisit cell _ => wfCell cell
  | .mergeFlushTimeout word => wfCell word && decide (word % 8 = 0)
  | .caParityError stack pch cell _ _ => wfUnit 15 stack && decide (pch < 64) && wfCell cell
  | .bar2Read fn off n => wfFn fn && decide (off + n ≤ 2 ^ 36 ∧ n ≤ 4096)
  | .bar2Write fn off bytes _ => wfFn fn && decide (off + bytes.length ≤ 2 ^ 36 ∧ bytes.length ≤ 4096)
  | .rawWrite | .rawRead | .checkedRead => true
  | .pageRemapDone channel => decide (channel < 2 ^ 32)
  | .laneLost lane | .fomLowTimer lane _ | .laneRetrain lane | .laneLoopbackWrite lane _ | .laneSleepWrite lane _ => wfUnit 13 lane
  | .laneAdaptDone lane _ _ _ _ => wfUnit 13 lane
  | .linkAligned link _ | .helloTimer link | .holdTimeout link | .tunnelReplayTimer link |
    .tunnelSilenceTimeout link => wfUnit 14 link
  | .helloFlit link b | .idleFlit link b | .nakReceive link b | .holdFlit link b | .linkFlit link b => wfUnit 14 link && wfFlit b
  | .sequencedFlitReceive f => f.wf
  | .handover e b | .linkStats e b | .ptpPort e b | .ptpStats e b => wfCmd e b
  | .handoverSwitch conf | .handoverTailEnd conf => decide (conf < 65536)
  | .ptpFrameReceive f => wfUnit 9 f.port && wfTime f.sec f.ns && decide (f.seq < 65536)
  | .oneStepSync port sec ns frac oldSec oldNs _ _ => wfUnit 9 port && wfTime sec ns && wfTime oldSec oldNs && decide (frac < 65536)
  | .ptpLockDeclared | .ptpLossDeclared => true
  | .timeStep _ | .incrWrite _ | .lockWrite _ => true
  | .timWatchdogExpiry | .ppsInEdge | .ppsOutPulse => true
  | .pinPulseEnd pin => decide (pin < 5)
  | .tevCaptureEdge pin | .tevRise pin => decide (pin < 4)
  | .tevConfigWrite pin reg _ => decide (pin < 4 ∧ reg % 4 = 0 ∧ reg ≤ 0x10)
  | .dbProd fn q index words => wfFn fn && decide (q < 1024 ∧ index < 2 ^ 32) && wfBytes words
  | .dbCons fn q index => wfFn fn && decide (q < 1024 ∧ index < 2 ^ 32)
  | .commandTake q => decide (q < 1024)
  | .qpCfgWrite fn off _ => wfFn fn && decide (0x2004000 ≤ off ∧ off < 0x200C000 ∧ off % 4 = 0)
  | .vfFlr vf => decide (1 ≤ vf ∧ vf < 64)
  | .pcieLinkDown => true
  | .pcieLinkUp gen width mps vfs => decide (1 ≤ gen ∧ gen ≤ 7 ∧ mps ≤ 5 ∧ vfs ≤ 63) && [1, 2, 4, 8, 16].contains width
  | .getNonce f => wfMgmt f 0x01
  | .read f => wfMgmt f 0x02
  | .provision f => wfMgmt f 0x03
  | .setPower f => wfMgmt f 0x10
  | .setPace f => wfMgmt f 0x11
  | .setPolicy f => wfMgmt f 0x12
  | .setBucket f => wfMgmt f 0x13
  | .setKeyMax f => wfMgmt f 0x14
  | .wrapKey f key => wfMgmt f 0x15 && decide ((key.getD []).length ≤ 32)
  | .debug f => wfMgmt f 0x16
  | .setBist f => wfMgmt f 0x17
  | .bistRun f => wfMgmt f 0x18
  | .march f => wfMgmt f 0x19
  | .retire f => wfMgmt f 0x1A
  | .shutterFreeze f => wfMgmt f 0x1B
  | .shutterRelease f => wfMgmt f 0x1B
  | .warm f => wfMgmt f 0x1C
  | .nonceExpiry | .dbtLockstepMismatch | .dbtRestart => true
  | .bucketLeak channel => decide (channel < 2 ^ 32)
  | .bistScheduleTimer ty => decide (1 ≤ ty ∧ ty ≤ 16)
  | .bistTestDone ty inst _ => wfUnit ty inst
  | .marchDone _ _ => true
  | .shutterNFall | .shutterNRise | .thermalTrigger | .hbmSelfRefreshEntry | .resumeDone => true
  | .peepTapShift instr => decide (instr < 256)
  | .coldStart | .warmNFall | .resetNFall | .powerLoss => true
  | .coldStepComplete _ | .warmStepComplete _ => true
  | .startCtlWarm fn _ => wfFn fn
  | .lintelCoreFault core => decide (core < 16)
  | .ptpMessageTimer port kind sec ns frac => wfUnit 9 port && wfTime sec ns && decide (kind < 16 ∧ frac < 65536)
  | .mgmtUnknownCommand f => decide (2 ≤ f.bytes.length) && !mgmtListed (f.bytes.headD 0).toNat

end Sys2Proof
end

