-- ==== Sys2Proof/Safety.lean ====
section
/-!
DEFINITION. What counts as a sound state of the device, in the terms the claims use: registers and memories in their one canonical form,
and the time increment in the range R309 allows.
-/

namespace Sys2Proof.Machine

/-- A register map is canonical: keys strictly rising, and no entry equal to the register's reset value. -/
def regsWf (m : List (Nat × Word)) : Bool := kvSorted m && kvTight regReset m

/-- The registers, their shadows and the host's memory are canonical. -/
def Hub.canon (h : Hub) : Prop := regsWf h.regs = true ∧ regsWf h.shadow = true ∧ memWf h.hostMem = true

/-- The memory cells are canonical. -/
def MemSt.canon (m : MemSt) : Prop := memWf m.cells = true

/-- Registers, shadows, host memory and memory cells are canonical. -/
def State.canon (s : State) : Prop := s.hub.canon ∧ s.mem.canon

/-- The time increment lies in the range R309 allows. -/
def State.incrOk (s : State) : Prop := incrMin ≤ s.tim.incr ∧ s.tim.incr ≤ incrMax

/-- A sound state: everything canonical, the flash too, and the increment in range. -/
def State.sound (s : State) : Prop := s.canon ∧ memWf s.ldr.flash = true ∧ s.incrOk

/-- Registers whose writes act on more than their own bits: commits, snapshots, starts, the servo, steps, event pins, the key window, logs,
test operations, lanes, queue pairs, FIFOs and doorbells. -/
def actingReg (off : Nat) : Bool :=
  off == 0x200004 || off == 0x200070 || off == 0x28 || off == 0x1B00008 || off == 0x1B00024 || off == 0x1B00030 ||
    decide (0x1B00100 ≤ off ∧ off < 0x1B00180) || off == 0x1C00064 || off == 0x1C00094 || decide (0x1E00400 ≤ off ∧ off < 0x1E00A00) ||
    decide (0x2004000 ≤ off ∧ off < 0x200C000) || decide (0x2010000 ≤ off ∧ off < 0x2012000) || decide (0x810000 ≤ off ∧ off < 0x818000)

/-- A listed register whose writes do what its access codes say and no more: no SH field, no CNT_STUCK event, no window copy. -/
def plainReg (off : Nat) : Bool :=
  (regRow off).isSome && accMask .sh off == 0 && stuckBit off == none && !ownCopy off && !actingReg off

end Sys2Proof.Machine
end

