-- ==== Sys2Proof/Certificates/Slice0/Obligations.lean ====
section
/-!
DEFINITION. The statements for the provers. Each formalises rules of spec/ named in its docstring; what rests on a choice of the model says so and names
the log entry (notes/assumptions).
-/

open Sys2Proof Sys2Proof.Machine

/-! ### The queue -/

/-- With a command in front of the queue, a step is that command's effect on the device with the rest of the queue waiting. -/
def Obligations.StepRunsTheFrontCommand : Prop :=
  ∀ (c : Instr) (rest : List Instr) (s : State), step { s with pending := c :: rest } = exec c { s with pending := rest }

/-- With no command waiting, a step is one tick of TIME_REFCLK where the time island has its clock: the counter advances by the increment in force;
and without the clock the device idles. The model's choice (assumption 20), stated where no Latch, no item and no personality waits. -/
def Obligations.IdleStepIsATick : Prop :=
  ∀ s : State, s.pending = [] →
    (s.clockRuns = true → s.lch.pend = [] → s.lch.waiting = [] → s.ldr.persWait = [] →
      step s = .next { s with
        hub := { s.hub with ticks := s.hub.ticks + 1, time := s.hub.time.tick s.tim.incr }
        tim := { s.tim with carry := s.hub.time.carries s.tim.incr } }) ∧
    (s.clockRuns = false → step s = .next s)

/-- Every command answers a next state, in every state: none faults and none is refused. -/
def Obligations.EveryCommandAnswers : Prop := ∀ (c : Instr) (s : State), ∃ t, exec c s = .next t

/-- No command touches the commands that wait behind it, nor the flash. -/
def Obligations.QueueAndFlashKept : Prop :=
  ∀ (c : Instr) (s : State), ∃ t, exec c s = .next t ∧ t.pending = s.pending ∧ t.ldr.flash = s.ldr.flash

/-! ### The whole machine -/

/-- Registers, shadows and memories stay canonical, and the increment stays in the range of R309, whatever the step. -/
def Obligations.SoundKept : Prop := ∀ s t : State, s.sound → step s = .next t → t.sound

/-- The device after reset is sound. Where the rules leave a detail open, this states the model's reading or choice: log entries 1 and 5. -/
def Obligations.ResetSound : Prop := State.reset.sound

/-- A management key, once there, is never replaced by a step, whatever the step is. -/
def Obligations.ManagementKeyStays : Prop :=
  ∀ s t : State, s.dbt.mgmtKey ≠ 0 → step s = .next t → t.dbt.mgmtKey = s.dbt.mgmtKey

/-! ### Registers (chapters 0 and 5) -/

/-- A 32-bit PF write to a listed register without behaviour of its own acts bit by bit by access code (R10), and beside the island's FIFO (R23)
changes nothing else. R9: a write of fewer than four bytes, and one of four bytes that crosses a 32-bit boundary, is discarded; one of eight bytes is
one access to each register it covers whole. A write that the host's window does not reach is discarded, and so is every one while the PCIe island is
down (R24). Where the rules leave a detail open, this states the model's reading or choice: log entry 11. -/
def Obligations.RegisterWrites : Prop :=
  (∀ (off : Nat) (val : BitVec 64) (s : State), s.canon → s.hub.hostIn = true → off % 4 = 0 → plainReg off = true → s.hub.absentBlock off = false →
     ∃ t, exec (.regWrite 0 off 4 val) s = .next t ∧
       (∀ i, i < 32 → (t.hub.rd off).getLsbD i =
         ((((if (accMask .rw off).getLsbD i then val.getLsbD i else (s.hub.rd off).getLsbD i) &&
           !(val.getLsbD i && (accMask .w1c off).getLsbD i))) || (val.getLsbD i && (accMask .w1s off).getLsbD i))) ∧
       (∀ k, k ≠ off → t.hub.rd k = s.hub.rd k) ∧ t = { s.offer .pcie 4 with hub := { s.hub with regs := t.hub.regs } }) ∧
  (∀ (fn off size : Nat) (val : BitVec 64) (s : State),
     (s.hub.pcieDown = true → exec (.regWrite fn off size val) s = .next s ∧ exec (.shadowWrite fn off size val) s = .next s) ∧
     (s.hub.pcieDown = false →
       (size < 4 ∨ (size = 4 ∧ off % 4 ≠ 0) → exec (.regWrite fn off size val) s = .next (s.offer .pcie size) ∧
         exec (.shadowWrite fn off size val) s = .next s) ∧
       (off % 4 = 0 → exec (.regWrite fn off 8 val) s =
         .next (((s.offer .pcie 8).wordWrite fn off (val.setWidth 32)).wordWrite fn (off + 4) ((val >>> 32).setWidth 32))) ∧
       (off % 4 ≠ 0 → exec (.regWrite fn off 8 val) s =
         .next ((s.offer .pcie 8).wordWrite fn (off / 4 * 4 + 4) ((val >>> (8 * (4 - off % 4))).setWidth 32)))) ∧
     (s.hub.bar = .dead → ¬(0x2010000 ≤ off ∧ off < 0x2012000) → s.hub.pcieDown = false → off % 4 = 0 →
       exec (.regWrite fn off 4 val) s = .next (s.offer .pcie 4)))

/-- A shadow write through a window that takes it sets the SH bits of the register's shadow, puts nothing in force, and joins the open set of its
window (R78). Where the rules leave a detail open, this states the model's reading or choice: log entries 12 and 14. -/
def Obligations.ShadowWriteJoinsOpenSet : Prop :=
  ∀ (fn off : Nat) (val : BitVec 64) (s : State), s.canon → s.hub.hostIn = true → fn < 64 → s.hub.windowTakes fn off = true → off % 4 = 0 →
    accMask .sh off ≠ 0 → s.hub.absentBlock off = false →
    ∃ t, exec (.shadowWrite fn off 4 val) s = .next t ∧
      (∀ i, i < 32 → (t.hub.rdShadow off).getLsbD i =
        if (accMask .sh off).getLsbD i then val.getLsbD i else (s.hub.rdShadow off).getLsbD i) ∧
      (∀ k, k ≠ off → t.hub.rdShadow k = s.hub.rdShadow k) ∧
      t.lch.openSet = s.lch.openSet ++ [⟨fn, .write off (accMask .sh off) (val.setWidth 32 &&& accMask .sh off)⟩] ∧
      t = { s with hub := { s.hub with shadow := t.hub.shadow }, lch := { s.lch with openSet := t.lch.openSet } }

/-- R80: a read of an SH field returns the value in force where INFORCE of the reading function's VIEW is 1, and else the shadow. -/
def Obligations.ShadowFieldRead : Prop :=
  ∀ (fn off i : Nat) (s : State), s.hub.hostIn = true → off % 4 = 0 → off < 0x3000000 → s.hub.absentBlock off = false → s.hub.windowShows fn off = true →
    kvGet (winKey fn off) s.hub.captured = none → i < 32 → (accMask .sh off).getLsbD i = true →
    ∃ (t : State) (v : Word), exec (.rcFieldRead fn off 4) s = .next t ∧ t.hub.out = s.hub.out ++ [.regRead fn off v] ∧
      v.getLsbD i = (if LCH.VIEW.INFORCE.of (s.hub.rd (winKey fn 0x200040)) = 1 then (s.hub.rd (keyFor fn off)).getLsbD i else (s.hub.rdShadow off).getLsbD i)

/-- R90: a read of a pair's low register returns it and captures the high register for the reading function; that function's next read of the high
register returns the captured value, and one without a preceding low read its current value. -/
def Obligations.PairReads : Prop :=
  ∀ (fn off hi : Nat) (s : State), s.hub.hostIn = true → off % 4 = 0 → off < 0x3000000 → pairHigh off = some hi → s.hub.absentBlock off = false →
    s.hub.windowShows fn off = true → s.hub.absentBlock hi = false → s.hub.windowShows fn hi = true → kvSorted s.hub.captured = true →
    (off ≠ 0x1B00018 → ∃ t : State, exec (.pairLowRead fn off 4) s = .next t ∧
      t.hub.out = s.hub.out ++ [.regRead fn off (s.busValue fn off)] ∧
      (∀ u : State, u = { s with hub := { s.hub with captured := kvDel (winKey fn hi) s.hub.captured } } →
        kvGet (winKey fn hi) t.hub.captured = some (u.busValue fn hi)) ∧
      t = { s with hub := { s.hub with out := t.hub.out, captured := t.hub.captured } }) ∧
    (off = 0x1B00018 → ∃ t : State, exec (.pairLowRead fn off 4) s = .next t ∧ t.hub.out = s.hub.out ++ [.regRead fn off (s.busValue fn off)] ∧
      kvGet (winKey fn hi) t.hub.captured = some (s.busValue fn hi)) ∧
    (∀ v r, kvGet (winKey fn hi) s.hub.captured = some v → regRow hi = some r → ∃ t : State, exec (.rcFieldRead fn hi 4) s = .next t ∧
      t.hub.out = s.hub.out ++ [.regRead fn hi v] ∧ kvGet (winKey fn hi) t.hub.captured = none) ∧
    (∀ r, kvGet (winKey fn hi) s.hub.captured = none → regRow hi = some r → ∃ t : State, exec (.rcFieldRead fn hi 4) s = .next t ∧
      t.hub.out = s.hub.out ++ [.regRead fn hi (s.regValue fn hi r)])

/-- A read of RES_PEAK by any function returns the selected resource's highest consumption in a period and then clears it (Table 0.3, RC; R365); where
nothing is selected it reads 0. A read of fewer bytes returns those bytes of the register's value (R9). A read of NOW_FRAC returns the fraction and
captures nanoseconds and seconds for the reading function (R311). Where the rules leave a detail open, this states the model's reading or choice: log
entries 10 and 12. -/
def Obligations.ReadsWithEffects : Prop :=
  (∀ (fn : Nat) (s : State), s.hub.hostIn = true → kvGet (winKey fn 0x100030) s.hub.captured = none → kvSorted s.fab.peaks = true →
     (∀ kind index, s.resSel = some (kind, index) → ∃ t, exec (.rcFieldRead fn 0x100030 4) s = .next t ∧
       t.hub.out = s.hub.out ++ [.regRead fn 0x100030 (BitVec.ofNat 32 (s.peak kind index))] ∧ t.peak kind index = 0 ∧
       t = { s with hub := { s.hub with out := t.hub.out, captured := t.hub.captured }, fab := { s.fab with peaks := t.fab.peaks } }) ∧
     (s.resSel = none → ∃ t, exec (.rcFieldRead fn 0x100030 4) s = .next t ∧ t.hub.out = s.hub.out ++ [.regRead fn 0x100030 0] ∧ t.fab = s.fab) ∧
     (∀ b n, b + n ≤ 4 → 0 < n → ∃ t, exec (.rcFieldRead fn (0x100030 + b) n) s = .next t ∧
       t.hub.out = s.hub.out ++ [.regRead fn (0x100030 + b) (wordBytes (s.busValue fn 0x100030) b n)])) ∧
  (∀ (fn : Nat) (s : State), s.hub.hostIn = true →
     ∃ t, exec (.nowFracRead fn) s = .next t ∧
       kvGet (winKey fn 0x1B00014) t.hub.captured = some (BitVec.ofNat 32 s.hub.time.ns) ∧
       kvGet (winKey fn 0x1B00018) t.hub.captured = some (BitVec.ofNat 32 s.hub.time.sec) ∧
       kvGet (winKey fn 0x1B0001C) t.hub.captured = some (BitVec.ofNat 32 (s.hub.time.sec / 2 ^ 32)) ∧
       t.hub.out = s.hub.out ++ [.regRead fn 0x1B00010 (BitVec.ofNat 32 (s.hub.time.frac / 2 ^ 24))] ∧
       t = { s with hub := { s.hub with out := t.hub.out, captured := t.hub.captured } })

/-- A W1C write of an EVT register that has a CNT_STUCK bit clears the events written as 1; with that bit among them it clears every error counter of
the block that reads 0xFFFF_FFFF, and other registers keep their values (R95). A LOG_SIZE write names the ring; where no record was dropped before it,
nothing else happens; with records dropped and a slot free, the `LOG_LOST` record with their number stands at index PROD of the ring, and PROD
advances by one (R94). -/
def Obligations.CountersAndLogRing : Prop :=
  (∀ (off b : Nat) (val : Word) (s : State), s.canon → s.hub.hostIn = true → s.hub.absentBlock off = false → stuckBit off = some b →
     ∃ t, exec (.cntStuckClear 0 off val) s = .next t ∧
       (s.hub.rd off ≠ BitVec.allOnes 32 → ∀ i, i < 32 →
         (t.hub.rd off).getLsbD i = ((s.hub.rd off).getLsbD i && !(val.getLsbD i && (accMask .w1c off).getLsbD i))) ∧
       (val.getLsbD b = true → (accMask .w1c off).getLsbD b = true → ∀ k, regReset k = 0 → (stuckRange off).1 ≤ k % 0x4000000 →
         k % 0x4000000 < (stuckRange off).2 → (isCounter errCounters (k % 0x4000000) || isCounter keptCounters (k % 0x4000000)) = true → k ≠ off →
         s.hub.rd k = BitVec.allOnes 32 → t.hub.rd k = 0) ∧
       (∀ k, k ≠ off → s.hub.rd k ≠ BitVec.allOnes 32 → t.hub.rd k = s.hub.rd k) ∧
       (val.getLsbD b = false → ∀ k, k ≠ off → t.hub.rd k = s.hub.rd k) ∧
       t = { s with hub := { s.hub with regs := t.hub.regs }, cip := t.cip }) ∧
  ((∀ (fn : Nat) (val : Word) (s : State), s.canon → s.hub.hostIn = true → fn < 64 → kvGet fn s.hub.logDropped = none →
     ∃ t, exec (.logSizeWrite fn val) s = .next t ∧
       LCH.LOG_SIZE.LOG2.of (t.hub.rd (winKey fn 0x200208)) = LCH.LOG_SIZE.LOG2.of val ∧
       (∀ k, k ≠ winKey fn 0x200208 → t.hub.rd k = s.hub.rd k) ∧
       t = { s with hub := { s.hub with regs := t.hub.regs } }) ∧
   (∀ (fn n : Nat) (val : Word) (s : State), s.canon → s.hub.hostIn = true → fn < 64 → kvGet fn s.hub.logDropped = some n →
     LCH.LOG_SIZE.LOG2.of val ≠ 0 →
     let lg := if LCH.LOG_SIZE.LOG2.of val ≤ 5 then 6 else if LCH.LOG_SIZE.LOG2.of val ≤ 20 then LCH.LOG_SIZE.LOG2.of val else 20
     let base := (s.hub.rd (winKey fn 0x200200)).toNat / 4096 * 4096 + (s.hub.rd (winKey fn 0x200204)).toNat * 2 ^ 32
     (s.hub.rd (winKey fn 0x20020C) - s.hub.rd (winKey fn 0x200210)).toNat < 2 ^ lg - 1 →
     ∃ t, exec (.logSizeWrite fn val) s = .next t ∧ LCH.LOG_SIZE.LOG2.of (t.hub.rd (winKey fn 0x200208)) = LCH.LOG_SIZE.LOG2.of val ∧
       t.hub.rd (winKey fn 0x20020C) = s.hub.rd (winKey fn 0x20020C) + 1 ∧ t.hub.logDropped = kvDel fn s.hub.logDropped ∧
       t.hub.hostMem = memWriteList s.hub.hostMem (base + (s.hub.rd (winKey fn 0x20020C)).toNat % 2 ^ lg * 32)
         (recordBytes { code := 0x0508, detail := [min n 0xFFFFFFFF] } s.hub.time.sec s.hub.time.ns) ∧
       (∀ k, k ≠ winKey fn 0x200208 → k ≠ winKey fn 0x20020C → t.hub.rd k = s.hub.rd k)))

/-! ### Network time (chapter 16) -/

/-- R309: the increment is HI's low 16 bits and LO; a write of INCR_HI puts both halves in force, limited to the two limits, which hold the rate
within 1,500 ppm of 8 ns; both registers read the value in force. -/
def Obligations.IncrementWriteInForce : Prop :=
  (incrMin = 7 * 2 ^ 40 + 1086317488243 ∧ incrMin = 0x7FC * 2 ^ 32 + 0xED916873 ∧ incrMax = 8 * 2 ^ 40 + 13194139533 ∧
    incrMax = 0x803 * 2 ^ 32 + 0x126E978D) ∧
  ∀ (val : Word) (s : State), s.canon → s.hub.hostIn = true →
    let v := val.toNat % 2 ^ 16 * 2 ^ 32 + (s.hub.rd 0x1B00020).toNat
    ∃ t, exec (.incrWrite val) s = .next t ∧
      (v < incrMin → t.tim.incr = incrMin) ∧ (incrMax < v → t.tim.incr = incrMax) ∧ (incrMin ≤ v → v ≤ incrMax → t.tim.incr = v) ∧
      7988 * 2 ^ 40 ≤ 1000 * t.tim.incr ∧ 1000 * t.tim.incr ≤ 8012 * 2 ^ 40 ∧
      (t.hub.rd 0x1B00020).toNat + (t.hub.rd 0x1B00024).toNat * 2 ^ 32 = t.tim.incr ∧
      (∀ k, k ≠ 0x1B00020 → k ≠ 0x1B00024 → t.hub.rd k = s.hub.rd k) ∧
      t = { s with hub := { s.hub with regs := t.hub.regs }, tim := { s.tim with incr := t.tim.incr, servoAt := s.hub.time.total } }

/-- With SERVO 1, outside a Shutter, a write of `TIM.LOCK` moves the servo (Table 16.1): LOCKED 1 locks it and ends holdover, LOCKED 0 in LOCKED loses
it; with SERVO 0 or during a Shutter the write changes nothing (R312). While the PTP service runs and SERVO is 0, it declares lock after 16 Sync
measurements of the slave port within LOCK_NS, and loss where the slave port's master is lost; the watchdog's expiry, where the watchdog is set, loses
a locked servo (Table 16.1, R371). Before its condition holds, each of the three changes nothing. Where the rules leave a detail open, this states the
model's reading or choice: log entries 69 and 128. -/
def Obligations.ServoStates : Prop :=
  (∀ (val : Word) (s : State), s.canon → s.hub.hostIn = true →
     (s.hub.get TIM.CFG.SERVO ≠ 1 ∨ s.hub.get GLB.STATUS.FROZEN ≠ 0 → exec (.lockWrite val) s = .next s) ∧
     (s.hub.get TIM.CFG.SERVO = 1 → s.hub.get GLB.STATUS.FROZEN = 0 →
       (val.getLsbD 0 = true → s.hub.get TIM.STATUS.STATE ≠ 1 → ∃ t, exec (.lockWrite val) s = .next t ∧ t.hub.get TIM.STATUS.STATE = 1 ∧
         t.hub.get LVR.STATUS.HOLDOVER = 0 ∧ t = { s with hub := t.hub, tim := { s.tim with servoAt := s.hub.time.total } }) ∧
       (val.getLsbD 0 = false → s.hub.get TIM.STATUS.STATE = 1 → ∃ t, exec (.lockWrite val) s = .next t ∧ t.hub.get TIM.STATUS.STATE = 2 ∧
         t.hub.get LVR.STATUS.HOLDOVER = 1 ∧ t = { s with hub := t.hub }) ∧
       (val.getLsbD 0 = (s.hub.get TIM.STATUS.STATE == 1) → exec (.lockWrite val) s = .next s))) ∧
  (∀ s : State, s.canon →
     let p := s.hub.get TIM.STATUS.SLAVE_PORT
     let wd := s.hub.get TIM.CFG.WATCHDOG
     let due := wd ≠ 0 ∧ s.hub.get GLB.STATUS.FROZEN ≠ 1 ∧ s.tim.servoAt + wd * 1000000000 ≤ s.hub.time.total
     (¬(s.ptpRuns = true ∧ s.hub.get TIM.CFG.SERVO = 0 ∧ 16 ≤ (s.tim.port p).good) → exec .ptpLockDeclared s = .next s) ∧
     (s.ptpRuns = true → s.hub.get TIM.CFG.SERVO = 0 → 16 ≤ (s.tim.port p).good → s.hub.get TIM.STATUS.STATE ≠ 1 →
       ∃ t, exec .ptpLockDeclared s = .next t ∧ t.hub.get TIM.STATUS.STATE = 1 ∧ t.hub.get LVR.STATUS.HOLDOVER = 0 ∧
         t = { s with hub := t.hub, tim := { s.tim with servoAt := s.hub.time.total } }) ∧
     (¬(s.ptpRuns = true ∧ s.hub.get TIM.CFG.SERVO = 0 ∧ s.ptpLost p = true) → exec .ptpLossDeclared s = .next s) ∧
     (s.ptpRuns = true → s.hub.get TIM.CFG.SERVO = 0 → s.ptpLost p = true → s.hub.get TIM.STATUS.STATE = 1 →
       ∃ t, exec .ptpLossDeclared s = .next t ∧ t.hub.get TIM.STATUS.STATE = 2 ∧ t.hub.get LVR.STATUS.HOLDOVER = 1 ∧
         t.hub.get TIM.STATUS.SLAVE_PORT = 0xFF ∧ (t.tim.port p).slave = false ∧ t = { s with hub := t.hub, tim := { s.tim with ports := t.tim.ports } }) ∧
     (due → s.hub.get TIM.STATUS.STATE = 1 →
       ∃ t, exec .timWatchdogExpiry s = .next t ∧ t.hub.get TIM.STATUS.STATE = 2 ∧ t.hub.get LVR.STATUS.HOLDOVER = 1 ∧ t = { s with hub := t.hub }) ∧
     (¬due ∨ s.hub.get TIM.STATUS.STATE ≠ 1 → exec .timWatchdogExpiry s = .next s))

/-- The edges of PPS_IN, PPS_OUT and the event pins (R319, R320): a PPS_IN edge and an event edge in capture mode are stamped, and one that finds the
last stamp unread is counted; PPS_OUT rises where the seconds carried by counting; a pin falls its width after its rise; an event pin rises at its
scheduled time; a write of an event pin's registers schedules it anew. Where the rules leave a detail open, this states the model's reading or choice:
log entry 70. -/
def Obligations.PulseAndEventPins : Prop :=
  (∀ s : State, s.canon → ∃ t, exec .ppsInEdge s = .next t ∧ (t.hub.rd 0x1B00040).toNat = s.hub.time.ns % 2 ^ 32 ∧
    (t.hub.rd 0x1B00044).toNat = s.hub.time.sec % 2 ^ 32 ∧ t.tim.ppsUnread = true ∧
    (s.tim.ppsUnread = true → s.hub.rd 0x1B00064 ≠ BitVec.allOnes 32 → t.hub.rd 0x1B00064 = s.hub.rd 0x1B00064 + 1) ∧
    (s.tim.ppsUnread = false → t.hub.rd 0x1B00064 = s.hub.rd 0x1B00064) ∧ t = { s with hub := t.hub, tim := { s.tim with ppsUnread := true } }) ∧
  (∀ s : State, s.hub.get TIM.PPS_OUT.ENABLE = 1 → s.tim.carry = true → s.tim.ppsOut = false → exec .ppsOutPulse s =
    .next { s with hub := s.hub.emit (.pin "PPS_OUT" true), tim := { s.tim with ppsOut := true, ppsRose := s.hub.elapsed, carry := false } }) ∧
  (∀ s : State, s.hub.get TIM.PPS_OUT.ENABLE ≠ 1 ∨ s.tim.carry = false → exec .ppsOutPulse s = .next s) ∧
  (∀ (pin : Nat) (s : State), pin < 4 →
    let due := (s.tim.pin pin).level = true ∧ (s.tim.pin pin).rose + pulseNs (s.hub.get1 TIM.TEV_CTL.WIDTH_US pin) ≤ s.hub.elapsed
    (due → ∃ t, exec (.pinPulseEnd pin) s = .next t ∧ t.hub.out = s.hub.out ++ [.pin (pinName pin) false] ∧ (t.tim.pin pin).level = false ∧
      t = { s with hub := { s.hub with out := t.hub.out }, tim := { s.tim with tev := t.tim.tev } }) ∧
    (¬due → exec (.pinPulseEnd pin) s = .next s)) ∧
  (∀ s : State, s.tim.ppsOut = true → s.tim.ppsRose + pulseNs (s.hub.get TIM.PPS_OUT.WIDTH_US) ≤ s.hub.elapsed →
    exec (.pinPulseEnd 4) s = .next { s with hub := s.hub.emit (.pin "PPS_OUT" false), tim := { s.tim with ppsOut := false } }) ∧
  (∀ (pin : Nat) (s : State), s.canon → pin < 4 → s.hub.get1 TIM.TEV_CTL.MODE pin = 1 →
    ∃ t, exec (.tevCaptureEdge pin) s = .next t ∧ (t.hub.rd (0x1B00114 + 32 * pin)).toNat = s.hub.time.ns % 2 ^ 32 ∧
      (t.hub.rd (0x1B00118 + 32 * pin)).toNat = s.hub.time.sec % 2 ^ 32 ∧ (t.tim.pin pin).unread = true ∧
      ((s.tim.pin pin).unread = true → s.hub.rd 0x1B00064 ≠ BitVec.allOnes 32 → t.hub.rd 0x1B00064 = s.hub.rd 0x1B00064 + 1) ∧
      t = { s with hub := t.hub, tim := { s.tim with tev := t.tim.tev } }) ∧
  (∀ (pin : Nat) (s : State), s.hub.get1 TIM.TEV_CTL.MODE pin ≠ 1 → exec (.tevCaptureEdge pin) s = .next s) ∧
  (∀ (pin at_ : Nat) (s : State), (s.tim.pin pin).next = some at_ →
    (at_ ≤ s.hub.time.total → (s.tim.pin pin).level = false →
      ∃ t, exec (.tevRise pin) s = .next t ∧ t.hub.out = s.hub.out ++ [.pin (pinName pin) true] ∧ (t.tim.pin pin).level = true ∧
        (t.tim.pin pin).rose = s.hub.elapsed ∧ (s.hub.get1 TIM.TEV_CTL.MODE pin ≠ 3 → (t.tim.pin pin).next = none)) ∧
    (s.hub.time.total < at_ → exec (.tevRise pin) s = .next s)) ∧
  (∀ (pin : Nat) (val : Word) (s : State), s.canon → s.hub.hostIn = true → pin < 4 →
    ∃ t, exec (.tevConfigWrite pin 0 val) s = .next t ∧ t.hub.get1 TIM.TEV_CTL.MODE pin = TIM.TEV_CTL.MODE.of val ∧
      (TIM.TEV_CTL.MODE.of val = 0 → (t.tim.pin pin).next = none ∧ (t.tim.pin pin).level = false) ∧
      (TIM.TEV_CTL.MODE.of val = 2 → (t.tim.pin pin).next = some (max (t.hub.tevT pin) s.hub.time.total)) ∧
      t = { s with hub := t.hub, tim := { s.tim with tev := t.tim.tev } })

/-- PTP (R314–R318): on a port that is UP and has PTP_EN, outside a Shutter, a message of the service's domain reaches the port's record, and any
other is dropped and counted; the service sends Sync and Announce on a port that leads and Delay_Req on its slave port, each with the next sequenceId
and no sooner than its interval; a one-step Sync carries its departure stamp and an updated checksum. The PTP service's commands (Table 19.5):
PTP_PORT sets a port's role, flags and clamped intervals; PTP_STATS answers its state, offset and mean path delay as last published; a port above 31
is NOT_FOUND. Where the rules leave a detail open, this states the model's reading or choice: log entries 36, 69 and 128. -/
def Obligations.PtpMessagesAndService : Prop :=
  ((∀ (f : PtpFrame) (s : State), s.hub.get1 TIM.PORT_CFG.PTP_EN f.port = 1 → s.portUp f.port = true → s.hub.get GLB.STATUS.FROZEN = 0 →
     let q := (s.tim.port f.port).take f (s.rxStamp f.port f.sec f.ns f.frac) s.tim.lockNs s.hub.elapsed
     (f.domain = s.tim.domain → ∃ t, exec (.ptpFrameReceive f) s = .next t ∧
       (f.slave = none → t.tim.port f.port = q ∧ ∀ k, k ≠ f.port → t.tim.port k = s.tim.port k) ∧
       (f.slave = some true → q.mayFollow = true → t.tim.port f.port = { q with slave := true } ∧ ∀ k, k ≠ f.port → (t.tim.port k).slave = false) ∧
       (f.slave = some false → t.tim.port f.port = { q with slave := false, good := 0 })) ∧
     (s.canon → f.domain ≠ s.tim.domain → s.hub.rd 0x1B00060 ≠ BitVec.allOnes 32 →
       ∃ t, exec (.ptpFrameReceive f) s = .next t ∧ t.hub.rd 0x1B00060 = s.hub.rd 0x1B00060 + 1 ∧ t = { s with hub := t.hub })) ∧
   (∀ (f : PtpFrame) (s : State), s.hub.get1 TIM.PORT_CFG.PTP_EN f.port ≠ 1 ∨ s.portUp f.port = false ∨ s.hub.get GLB.STATUS.FROZEN ≠ 0 →
     exec (.ptpFrameReceive f) s = .next s) ∧
   (∀ (port sec ns frac oldSec oldNs : Nat) (oldCorr : Int) (sum : Option Nat) (s : State), s.portUp port = true → s.hub.get GLB.STATUS.FROZEN = 0 →
     let st := (s.txStamp port sec ns frac).toNat
     let corr := oldCorr + (st % 65536 : Nat)
     let head := [st / 65536 / 1000000000, st / 65536 % 1000000000, (corr % 2 ^ 64).toNat]
     (sum = none → exec (.oneStepSync port sec ns frac oldSec oldNs oldCorr sum) s = .next { s with hub := s.hub.emit (.frame port "one-step-sync" head) }) ∧
     (sum = some 0 → exec (.oneStepSync port sec ns frac oldSec oldNs oldCorr sum) s =
       .next { s with hub := s.hub.emit (.frame port "one-step-sync" (head ++ [0])) }) ∧
     (∀ c, sum = some (c + 1) → exec (.oneStepSync port sec ns frac oldSec oldNs oldCorr sum) s =
       .next { s with hub := s.hub.emit (.frame port "one-step-sync" (head ++
         [sumUpdate (c + 1) (syncWords oldSec oldNs oldCorr) (syncWords (st / 65536 / 1000000000) (st / 65536 % 1000000000) corr)])) })) ∧
   (∀ (port kind sec ns frac : Nat) (s : State), s.ptpRuns = true → s.hub.get1 TIM.PORT_CFG.PTP_EN port = 1 → (s.tim.port port).role ≠ 0 →
     let p := s.tim.port port
     let sent := kvPut kind s.hub.elapsed p.sent
     ((∃ x, kvGet kind p.sent = some x ∧ s.hub.elapsed < x + p.interval kind) → exec (.ptpMessageTimer port kind sec ns frac) s = .next s) ∧
     ((∀ x, kvGet kind p.sent = some x → x + p.interval kind ≤ s.hub.elapsed) →
       (kind ≠ 1 → p.leads = true → ∃ t, exec (.ptpMessageTimer port kind sec ns frac) s = .next t ∧
         t.tim.port port = { p with seq := (p.seq + 1) % 65536, sent := sent } ∧ t = { s with hub := t.hub, tim := t.tim, qsc := t.qsc }) ∧
       (kind = 1 → p.slave = true → ∃ t, exec (.ptpMessageTimer port kind sec ns frac) s = .next t ∧
         t.tim.port port = { p with seq := (p.seq + 1) % 65536, sent := sent, reqSeq := p.seq, t3 := s.txStamp port sec ns frac } ∧
         t = { s with hub := t.hub, tim := t.tim, qsc := t.qsc })))) ∧
  (∀ (e : CmdEnv) (body : List Byte) (s : State),
     (-7 ≤ (ptpPortOf body).logSync ∧ (ptpPortOf body).logSync ≤ 4 ∧ -3 ≤ (ptpPortOf body).logAnnounce ∧ (ptpPortOf body).logAnnounce ≤ 4 ∧
       -7 ≤ (ptpPortOf body).logDelay ∧ (ptpPortOf body).logDelay ≤ 5 ∧ (ptpPortOf body).role ≤ 3) ∧
     (bodyU8 body 0 < 32 →
       exec (.ptpPort e body) s =
         .next (({ s with tim := { s.tim with ports := kvPut (bodyU8 body 0) (ptpPortOf body) s.tim.ports } } : State).done e 0x0A01 0 []) ∧
       ∀ no off delay, (s.tim.port (bodyU8 body 0)).pub = (no, off, delay) → exec (.ptpStats e body) s =
         .next (s.done e 0x0A02 0 (leBytes 1 no ++ leBytes 7 0 ++ leBytes 8 (off % 2 ^ 64).toNat ++ leBytes 8 (delay % 2 ^ 64).toNat))) ∧
     (32 ≤ bodyU8 body 0 → exec (.ptpPort e body) s = .next (s.done e 0x0A01 3 []) ∧ exec (.ptpStats e body) s = .next (s.done e 0x0A02 3 [])))

/-! ### Fabric (chapter 2) -/

/-- R24: an island that goes down is down and `ISLAND_DOWN` is raised once per loss; an island that returns is no longer down, no other island is
touched, and where no BAR2 read waits for it nothing else changes. R25, R27: at the end of a window the highest PACE of the valid monitors, and the
lowest index that has it, are published; outside an emergency one below 8,520 raises none, and one of 8,520 or more, or a window without a valid
monitor, raises it at once. R26, R409: an evaluation of a running loop takes the first row of Table 2.4 that applies: fewer than 24 valid monitors
command 800 mV, enter FAILSAFE and trigger the Shutter; WORST more than 82 above the target raises the voltage by 5 mV below 850 mV and the cap, else
enters AT_MAX or CAPPED; the eighth evaluation in a row more than 164 below the target lowers it by 5 mV above 600 mV; else the voltage holds.
FAILSAFE stays, and a loop that does not run changes nothing. R71: at the work boundary of a unit whose retirement waits the retirement is carried
out, a scheduled self-test begins outside a pace emergency, and where no retirement and no test waits nothing changes. Units other than Hinge cores,
whose dwells and images move with them. Where the rules leave a detail open, this states the model's reading or choice: log entries 13 and 28. -/
def Obligations.IslandsPaceAndSpares : Prop :=
  (∀ (i : Island) (s : State),
     (i ∉ s.fab.down → exec (.islandDown i) s = .next { s with
       hub := { s.hub.raise { code := 0x020A } with pcieDown := (s.hub.raise { code := 0x020A }).pcieDown || i == .pcie }
       fab := { s.fab with down := s.fab.down ++ [i], sync := kvDel (islandCode i) s.fab.sync } }) ∧
     (i ∈ s.fab.down → exec (.islandDown i) s = .next s) ∧
     (∃ t, exec (.islandReturn i) s = .next t ∧ i ∉ t.fab.down ∧ (∀ j, j ≠ i → (j ∈ t.fab.down ↔ j ∈ s.fab.down)) ∧
       t.hub.pcieDown = (s.hub.pcieDown && i != .pcie) ∧
       ((∀ r ∈ s.mem.held, r.page ≠ none) → t = { s with hub := { s.hub with pcieDown := t.hub.pcieDown }, fab := { s.fab with down := t.fab.down } }))) ∧
  (∀ (counts : List Nat) (s : State), s.canon → (∀ d ∈ s.fab.sashes, d.id < 1024) → s.hub.get GLB.PACE_SUM.EMERG = 0 →
     (validPaces 0 (counts.take 32) = [] → ∃ t, exec (.paceWindowEnd counts) s = .next t ∧ t.fab.emergForced = true ∧
       t.hub.get GLB.PACE_SUM.EMERG = 1 ∧ t.hub.get LVR.STATUS.EMERG = 1) ∧
     (∀ i p, worstPace (validPaces 0 (counts.take 32)) = some (i, p) →
       ∃ t, exec (.paceWindowEnd counts) s = .next t ∧ t.hub.get GLB.PACE_SUM.WORST = p ∧ t.hub.get GLB.PACE_SUM.WORST_ID = i ∧
         t.hub.get GLB.PACE_SUM.VALID_CNT = (validPaces 0 (counts.take 32)).length ∧ t.hub.get GLB.PACE_SUM.EMERG = (if 8520 ≤ p then 1 else 0))) ∧
  (∀ (ma : Nat) (s : State),
     let h := s.hub
     let v := h.get GLB.PACE_LOOP.VDD_MV
     let worst := h.get GLB.PACE_SUM.WORST
     let next := exec (.supplyLoopEvaluation ma) s
     (s.loopRuns = false ∨ h.get GLB.PACE_LOOP.STATE = 5 → next = .next s) ∧
     (s.loopRuns = true → h.get GLB.PACE_LOOP.STATE ≠ 5 →
       (s.canon → h.get GLB.PACE_SUM.VALID_CNT < 24 → next = .next (({ s with
         hub := ((h.setVdd 800).set GLB.PACE_LOOP.STATE 5).raise { code := 0x0205 }, fab := { s.fab with lowRun := 0 } } : State).shutterTrigger 4)) ∧
       (s.canon → 24 ≤ h.get GLB.PACE_SUM.VALID_CNT → h.paceTarget + 82 < worst →
         (v < 850 → h.overCap ma = false → ∃ t, next = .next t ∧ t.hub.get GLB.PACE_LOOP.VDD_MV = v + 5 ∧ t.hub.get GLB.PACE_LOOP.STATE = 1 ∧
           t.hub.out = h.out ++ [.avs (v + 5)]) ∧
         (v < 850 → h.overCap ma = true → ∃ t, next = .next t ∧ t.hub.get GLB.PACE_LOOP.STATE = 4 ∧ t.hub.get GLB.PACE_LOOP.VDD_MV = v) ∧
         (850 ≤ v → ∃ t, next = .next t ∧ t.hub.get GLB.PACE_LOOP.STATE = 3 ∧ t.hub.get GLB.PACE_LOOP.VDD_MV = v)) ∧
       (s.canon → 24 ≤ h.get GLB.PACE_SUM.VALID_CNT → worst ≤ h.paceTarget + 82 →
         (worst + 164 < h.paceTarget → 7 ≤ s.fab.lowRun → 600 < v → ∃ t, next = .next t ∧ t.hub.get GLB.PACE_LOOP.VDD_MV = v - 5 ∧
           t.hub.get GLB.PACE_LOOP.STATE = 2 ∧ t.fab.lowRun = 0) ∧
         (¬(worst + 164 < h.paceTarget ∧ 7 ≤ s.fab.lowRun ∧ 600 < v) → ∃ t, next = .next t ∧ t.hub.get GLB.PACE_LOOP.VDD_MV = v ∧
           t.hub.get GLB.PACE_LOOP.STATE = 0 ∧ t.fab.lowRun = if worst + 164 < h.paceTarget then s.fab.lowRun + 1 else 0)))) ∧
  (∀ (ty inst bad : Nat) (s : State), ty ≠ 5 →
     (∀ r, s.dbt.retiring.find? (·.1 = chanId ty inst) = some r → exec (.spareTaken ty inst bad) s = .next (s.retireUnit ty inst r.2)) ∧
     (s.dbt.retiring.find? (·.1 = chanId ty inst) = none → (ty, inst) ∈ s.dbt.bistSched → s.emergency = false →
       exec (.spareTaken ty inst bad) s = .next (s.bistBegin ty inst bad)) ∧
     (s.dbt.retiring.find? (·.1 = chanId ty inst) = none → (ty, inst) ∉ s.dbt.bistSched ∨ s.emergency = true → exec (.spareTaken ty inst bad) s = .next s))

/-- R61, R63, R64: a lone request of a sash with tokens at its arbiter is granted at most a grain, which leaves the sash's counter, and what is left
of it stays held; among any requests one of the lowest rank is chosen; requests shown while the core is frozen are held (R391), and where no slat
grant is made (R417) those of sashes are. R31, R32, Table 2.8: a sash whose build ends runs, or stands STALLED at the port it waits for; a draining
sash that an emergency does not hold rebuilds at its work boundary, and does not while it is held or the core is frozen. Where the rules leave a
detail open, this states the model's reading or choice: log entries 35 and 97. -/
def Obligations.GrantsAndSashes : Prop :=
  ((∀ (kind index : Nat) (q : ArbReq) (c : TokenCtr) (s : State),
     let hw := resIndex kind index
     let n := min q.cost (s.hub.grain kind hw)
     s.granting = true → s.emergency = false → (∀ x ∈ s.fab.held, ¬(x.kind = kind ∧ x.index = hw)) → q.sash < 0x400 → s.fab.cls q.sash ≤ 2 →
     s.fab.counter kind hw q.sash = some c → 0 < c.count → s.hub.get GLB.STATUS.FROZEN ≠ 1 →
     ∃ t, exec (.arbiterGrant kind index [q]) s = .next t ∧ t.hub = s.hub.emit (.token hw "grant" [kind, q.sash, n]) ∧
       t.fab.counters = (s.fab.counters.map fun d => if d.kind = c.kind ∧ d.index = c.index ∧ d.sash = c.sash then { c with count := c.count - n } else d) ∧
       t.fab.held = s.fab.held ++ (if n < q.cost then [{ kind := kind, index := hw, req := { q with cost := q.cost - n } }] else []) ∧
       t = { s with hub := t.hub, fab := t.fab }) ∧
   (∀ (v : ArbView) (l : List ArbReq) (q : ArbReq), v.pick l = some q →
     q ∈ l ∧ ∃ m, v.rank q = some m ∧ ∀ r ∈ l, ∀ k, v.rank r = some k → m ≤ k) ∧
   (∀ (kind index : Nat) (reqs : List ArbReq) (s : State),
     let held := s.fab.held ++ reqs.map fun q => { kind := kind, index := resIndex kind index, req := q }
     (s.hub.get GLB.STATUS.FROZEN = 1 → exec (.arbiterGrant kind index reqs) s = .next { s with fab := { s.fab with held := held } }) ∧
     (s.fab.closed = true → s.emergency = false → (∀ x ∈ held, x.req.sash < 0x400) →
       exec (.arbiterGrant kind index reqs) s = .next { s with fab := { s.fab with held := held } }))) ∧
  ((∀ (n r : Nat) (s : State), s.hub.sashState n = 2 → s.fab.waitsAt n = some r → kvGet n s.fab.pend = none →
     exec (.sashBuildDone n) s = .next { s with hub := s.hub.sashEnter n 5 r }) ∧
   (∀ (n : Nat) (s : State), s.canon → s.hub.sashState n = 2 → s.fab.waitsAt n = none → kvGet n s.fab.pend = none →
     (∀ i, (s.hng.core i).ready = false) →
     ∃ t, exec (.sashBuildDone n) s = .next t ∧ t.hub.sashState n = 3 ∧ (∀ k, k ≠ n → t.hub.sashState k = s.hub.sashState k) ∧ t = { s with hub := t.hub }) ∧
   (∀ (n : Nat) (p : PendDef) (s : State), s.hub.sashState n = 6 → kvGet n s.fab.pend = some p → exec (.sashBuildDone n) s = .next (s.drainTo n p)) ∧
   (∀ (n : Nat) (s : State), s.hub.get GLB.STATUS.FROZEN = 1 ∨ (s.hub.get GLB.PACE_SUM.EMERG = 1 ∧ s.hub.get1 GLB.SASH_STAT.EMERG_HELD n = 1) →
     exec (.sashWorkBoundary n) s = .next s) ∧
   (∀ (n : Nat) (s : State), s.hub.get GLB.STATUS.FROZEN ≠ 1 → s.hub.get GLB.PACE_SUM.EMERG ≠ 1 → s.lch.pend = [] → s.lch.waiting = [] → s.ldr.persWait = [] →
     exec (.sashWorkBoundary n) s = .next (if s.hub.sashState n = 4 then s.rebuild n else s)))

/-! ### Image loader (chapter 3) -/

/-- R51, R52: when parsing of a full commit ends, with fewer than 16 Latches pending and nothing queued, the load Latch is accepted with the next
number, it seals every open write, the image waits for it, and the loader is no longer busy; with 16 pending the loader waits. When parsing of a
partial commit that none has replaced ends, its sash drains to the new definition. During a pace emergency, while the core is frozen and while the
banks' island is down the end is held (R24, R50, R391). Where the rules leave a detail open, this states the model's reading or choice: log entry 25.
-/
def Obligations.LoadLatchRequested : Prop :=
  (∀ (hc : Nat) (s : State), s.hub.get GLB.PACE_SUM.EMERG = 1 ∨ s.hub.get GLB.STATUS.FROZEN = 1 ∨ s.ldr.busy = none ∨
      ((∃ c h, s.ldr.busy = some (c, some h)) ∧ s.bankUp = false) → exec (.imgDone hc) s = .next s) ∧
  (∀ (hc : Nat) (c : Commit) (hdr : ImgHeader) (s : State), s.ldr.busy = some (c, some hdr) → s.hub.get GLB.PACE_SUM.EMERG ≠ 1 →
    s.hub.get GLB.STATUS.FROZEN ≠ 1 → s.bankUp = true →
    (c.scope = false → s.lch.pend.length < 16 → s.ldr.queue = none →
      ∃ t l more, exec (.imgDone hc) s = .next t ∧ t.ldr.busy = none ∧ t.ldr.waits = none ∧ t.lch.pend = s.lch.pend ++ [l] ∧ l.load = true ∧
        t.lch.openSet = [] ∧ l.items = s.lch.openSet ++ more ∧ t.ldr.images = s.ldr.images ++ [(l.num, c.bank, readImage (s.bankByte c.bank) hdr)] ∧
        l.at_ = .bound (s.fab.boundaries + (if 4096 ≤ hc then 1 else 2)) ∧ t.fab = s.fab ∧ t.mem = s.mem) ∧
    (c.scope = false → 16 ≤ s.lch.pend.length →
      ∃ t, exec (.imgDone hc) s = .next t ∧ t.ldr.busy = none ∧ t.ldr.waits = some (c.bank, readImage (s.bankByte c.bank) hdr) ∧ t.lch.pend = s.lch.pend ∧
        t.fab = s.fab ∧ t.mem = s.mem) ∧
    (c.scope = true → s.ldr.superseded c = false →
      ∃ (s1 : State) (p : PendDef × List Nat), s1 = { s with hub := s1.hub } ∧
        p = s1.partial_ (readImage (s.bankByte c.bank) hdr) c.sash ∧
        exec (.imgDone hc) s = .next ((({ s1 with hub := s1.hub.slatDrops p.2 } : State).drainTo c.sash p.1).loadEnd)))

/-! ### The Louvre (chapter 4) -/

/-- R63: the refill sets every counter to its AMOUNT plus its debt, and unspent tokens are gone. -/
def Obligations.RefillKeepsDebtsOnly : Prop :=
  ∀ (f : FabSt) (h : Hub) (c : TokenCtr), c ∈ (f.refill h).counters →
    ∃ d, d ∈ f.counters ∧ d.kind = c.kind ∧ d.index = c.index ∧ d.sash = c.sash ∧ d.tag = c.tag ∧
      c.count ≤ (f.amountHw h c.kind c.index c.sash : Int) ∧ (0 ≤ d.count → c.count = (f.amountHw h c.kind c.index c.sash : Int)) ∧
      (d.count < 0 → c.count = (f.amountHw h c.kind c.index c.sash : Int) + d.count)

/-- R58, R84, R89, R391, R417: at a Louvre boundary the counter stands at the next multiple of 125,000 ns. While the core is frozen the boundary is
only missed; in a warm start before READY the period is counted, and beside Latches, a load that waits for one and the records of a second that ended
nothing falls at it; else the period's whole work follows. A device without power, or whose start has stopped, has no boundary. R89: the end of a
publication makes the generation even; while the core is frozen, or closed by a warm start, it does not end, and an even generation stays. R310, R59:
a write of STEP_CMD without GO, or one that does not reach the device, is nothing; with GO the counter takes its step, REALIGN counts it, and the
boundary that begins the new period follows at once. Where the rules leave a detail open, this states the model's reading or choice: log entries 27,
28 and 99. -/
def Obligations.LouvreBoundaries : Prop :=
  ((∀ (sensors : List (Nat × Int)) (s : State), s.alive = false → exec (.louvreBoundary sensors) s = .next s) ∧
   (∀ (sensors : List (Nat × Int)) (s : State), s.alive = true → s.fab.period = s.hub.time.period → s.hub.time.ns < 1000000000 → s.hub.time.sec + 1 < 2 ^ 48 →
     (s.hub.get GLB.STATUS.FROZEN = 1 →
       ∃ t, exec (.louvreBoundary sensors) s = .next t ∧ t.hub.time.total = (s.fab.period + 1) * 125000 ∧ t.hub.time.frac = 0 ∧
         t.fab.period = s.fab.period + 1 ∧ t.dbt.missed = s.dbt.missed + 1 ∧ t.hub.regs = s.hub.regs ∧ t.fab.counters = s.fab.counters ∧ t.mem = s.mem) ∧
     (s.hub.get GLB.STATUS.FROZEN ≠ 1 → s.fab.held = [] →
       ∃ u : State, u.hub.time.total = (s.fab.period + 1) * 125000 ∧ u.hub.time.frac = 0 ∧ u.fab.period = s.fab.period + 1 ∧
         u.fab.boundaries = s.fab.boundaries + 1 ∧ u = { s with hub := u.hub, fab := u.fab } ∧
         (s.serving = true → exec (.louvreBoundary sensors) s = .next (u.boundaryWork false (some sensors))) ∧
         (s.canon → s.serving = false → exec (.louvreBoundary sensors) s = .next ((u.boundaryLatches false).loadWaits.secondEnds))))) ∧
  (∀ s : State,
     (s.canon → s.granting = true → s.hub.get64 LCH.PUB_GEN_LO.GEN 0 % 2 = 1 → s.hub.get64 LCH.PUB_GEN_LO.GEN 0 + 1 < 2 ^ 64 →
       ∃ t, exec .publicationDone s = .next t ∧ t.hub.get64 LCH.PUB_GEN_LO.GEN 0 = s.hub.get64 LCH.PUB_GEN_LO.GEN 0 + 1 ∧
         (∀ k, k ≠ 0x200050 → k ≠ 0x200054 → t.hub.rd k = s.hub.rd k) ∧ t = { s with hub := { s.hub with regs := t.hub.regs } }) ∧
     (s.granting = false ∨ s.hub.get64 LCH.PUB_GEN_LO.GEN 0 % 2 = 0 → exec .publicationDone s = .next s)) ∧
  ((∀ (val : Word) (s : State), s.hub.hostIn = false ∨ TIM.STEP_CMD.GO.of val = 0 → exec (.timeStep val) s = .next s) ∧
   (∀ (val : Word) (s : State), s.hub.hostIn = true → TIM.STEP_CMD.GO.of val = 1 → s.fab.held = [] →
     ∃ u : State, exec (.timeStep val) s = .next ((u.boundary true none).gclDue) ∧
       u = { s.counterStep (TIM.STEP_CMD.NEG.of val == 1) with
         hub := ((s.counterStep (TIM.STEP_CMD.NEG.of val == 1)).hub.err LVR.REALIGN.COUNT 0 0x0409 0).raise { code := 0x0405 } } ∧
       u.hub.time = s.hub.time.step (s.hub.get TIM.STEP_SEC.SEC) (s.hub.get TIM.STEP_NS.NS) (TIM.STEP_CMD.NEG.of val == 1)))

/-! ### Latch and snapshots (chapter 5) -/

/-- R78, R81–R83: a commit with 16 Latches pending is refused and only raises its event; otherwise it seals exactly the writes made through its window
(those of the named domain, for MODE DOMAIN), takes the next Latch number, and is pending for its instant; a late SCHED commit waits for the next
boundary with its reason. Where the rules leave a detail open, this states the model's reading or choice: log entries 11, 14 and 99. -/
def Obligations.CommitSealsItsWindow : Prop :=
  (∀ (fn hc : Nat) (val : Word) (s : State), s.hub.hostIn = true → 16 ≤ s.lch.pend.length →
    exec (.latchCommitNext fn val hc) s = .next { s with hub := s.hub.raise { code := 0x0502 } } ∧
    exec (.latchCommitSched fn val hc) s = .next { s with hub := s.hub.raise { code := 0x0502 } } ∧
    exec (.latchCommitDomain fn val) s = .next { s with hub := s.hub.raise { code := 0x0502 } }) ∧
  (∀ (fn hc : Nat) (val : Word) (s : State), s.canon → s.hub.hostIn = true → s.lch.pend.length < 16 → s.hub.get64 LCH.ACCEPTED_LO.NUM 0 + 1 < 2 ^ 64 →
    let num := s.hub.get64 LCH.ACCEPTED_LO.NUM 0 + 1
    let rest := s.lch.openSet.filter (fun e => e.fn != fn)
    let mine := s.lch.openSet.filter (fun e => e.fn == fn)
    let bound := LatchWhen.bound (s.fab.boundaries + (if 4096 ≤ hc then 1 else 2))
    (∃ t, exec (.latchCommitNext fn val hc) s = .next t ∧ t.hub.get64 LCH.ACCEPTED_LO.NUM 0 = num ∧ t.lch.openSet = rest ∧
      t.lch.pend = s.lch.pend ++ [{ num := num, at_ := bound, items := mine, acc := s.hub.elapsed }] ∧
      t = { s with hub := { s.hub with regs := t.hub.regs }, lch := { s.lch with openSet := t.lch.openSet, pend := t.lch.pend } }) ∧
    (LCH.COMMIT.GROUP.of val = 0 → ∃ t l, exec (.latchCommitSched fn val hc) s = .next t ∧ t.hub.get64 LCH.ACCEPTED_LO.NUM 0 = num ∧ t.lch.openSet = rest ∧
      t.lch.pend = s.lch.pend ++ [l] ∧ l.num = num ∧ l.items = mine ∧ l.decided = true ∧
      (∀ b, s.schedBound s.hub.schedRaw hc = some b → l.at_ = .sched b ∧ l.reason = 0) ∧
      (s.schedBound s.hub.schedRaw hc = none → l.at_ = bound ∧ l.reason = 1)) ∧
    (∃ t l, exec (.latchCommitDomain fn val) s = .next t ∧ t.hub.get64 LCH.ACCEPTED_LO.NUM 0 = num ∧
      t.lch.pend = s.lch.pend ++ [l] ∧ l.num = num ∧ l.at_ = .domain (commitDomain val) ∧
      (∀ e, e ∈ l.items ↔ e ∈ s.lch.openSet ∧ e.fn = fn ∧ e.item.domain = commitDomain val) ∧
      (∀ e, e ∈ t.lch.openSet ↔ e ∈ s.lch.openSet ∧ ¬(e.fn = fn ∧ e.item.domain = commitDomain val))))

/-- R87: an ARM is kept until 1 s after the time it names and then forgotten; at the guard time a complete group's Latch goes on, an incomplete one
goes on partial or, with ABORT, is cancelled and its writes return to the open set; before the guard time and while the core is frozen nothing is
decided. R91, R92: a snapshot starts where none runs, and a second is refused; a request from a member waits for its boundary; a member's record that
is awaited is kept, and written in its turn after the capture, any other is discarded; a member that stays silent for 100 ms leaves the snapshot
partial; a snapshot with nothing left to wait for ends, its header written and its event raised. Where the rules leave a detail open, this states the
model's reading or choice: log entries 14, 15, 60 and 98. -/
def Obligations.GroupsAndSnapshots : Prop :=
  ((∀ (dev tag sec ns : Nat) (s : State), s.hub.time.total ≤ s.hub.instant (sec * 1000000000 + ns) + 1000000000 →
     ∃ t, exec (.armReceive dev tag sec ns) s = .next t ∧ (⟨dev % 2048, tag % 65536, sec, ns⟩ : Arm) ∈ t.lch.arms ∧
       (∀ a ∈ s.lch.arms, a ∈ t.lch.arms) ∧ t = { s with lch := { s.lch with arms := t.lch.arms } }) ∧
   (∀ (dev tag sec ns : Nat) (s : State),
     (s.hub.time.total < s.hub.instant (sec * 1000000000 + ns) + 1000000000 → exec (.armExpiry dev tag sec ns) s = .next s) ∧
     (s.hub.instant (sec * 1000000000 + ns) + 1000000000 ≤ s.hub.time.total → ∃ t, exec (.armExpiry dev tag sec ns) s = .next t ∧
       (∀ a : Arm, a ∈ t.lch.arms ↔ a ∈ s.lch.arms ∧ a ≠ ⟨dev % 2048, tag % 65536, sec, ns⟩) ∧ t = { s with lch := { s.lch with arms := t.lch.arms } })) ∧
   (∀ (num : Nat) (s : State), s.hub.get GLB.STATUS.FROZEN = 1 ∨ s.guardTime num = false → exec (.groupGuardDecision num) s = .next s) ∧
   (∀ (num : Nat) (l : Latch) (s : State), s.hub.get GLB.STATUS.FROZEN ≠ 1 → (∀ p ∈ s.lch.pend, p.reason ≠ 2) → s.lch.pend.find? (·.num = num) = some l →
     s.guardTime num = true → l.decided = false →
     ∃ t, exec (.groupGuardDecision num) s = .next t ∧
       (s.missing l.tag l.named = [] → t.lch.openSet = s.lch.openSet ∧ t.lch.pend = s.lch.pend.map fun p => if p.num = num then { p with decided := true } else p) ∧
       (s.missing l.tag l.named ≠ [] → l.abort = true → t.lch.openSet = l.items ++ s.lch.openSet ∧ t.lch.pend = s.lch.pend.filter (·.num ≠ num)) ∧
       (s.missing l.tag l.named ≠ [] → l.abort = false → t.lch.openSet = s.lch.openSet ∧ t.lch.pend = s.lch.pend.map fun p =>
         if p.num = num then { p with decided := true, missing := (s.missing l.tag l.named).length } else p))) ∧
  ((∀ (val : Word) (hc : Nat) (x : Snap) (s : State), s.hub.hostIn = true → s.lch.snap = some x →
     exec (.snapCmdNext val hc) s = .next { s with hub := s.hub.raise { code := 0x0507 } } ∧
     exec (.snapCmdSched val hc) s = .next { s with hub := s.hub.raise { code := 0x0507 } }) ∧
   (∀ (val : Word) (hc : Nat) (s : State), s.canon → s.hub.hostIn = true → s.lch.snap = none →
     (∃ t x, exec (.snapCmdNext val hc) s = .next t ∧ t.lch.snap = some x ∧ x.when_ = s.nextBound hc ∧ x.group = false ∧ x.captured = false ∧
       x.sect = s.hub.get LCH.SNAP_SECT.MASK ∧ x.len = s.hub.get LCH.SNAP_LEN.LEN ∧ t.hub.get LCH.STATUS.SNAP_BUSY = 1 ∧
       t = { s with hub := t.hub, lch := { s.lch with snap := some x } }) ∧
     (LCH.SNAP_CMD.GROUP.of val = 0 → ∃ t x, exec (.snapCmdSched val hc) s = .next t ∧ t.lch.snap = some x ∧
       (∀ b, s.schedBound s.hub.schedRaw hc = some b → x.when_ = .sched b) ∧ (s.schedBound s.hub.schedRaw hc = none → x.when_ = s.nextBound hc) ∧
       x.captured = false ∧ t.hub.get LCH.STATUS.SNAP_BUSY = 1 ∧ t = { s with hub := t.hub, lch := { s.lch with snap := some x } })) ∧
   (∀ (dev sec ns mask : Nat) (clr : Bool) (s : State), exec (.snapRequestReceive dev sec ns mask clr) s =
     .next { s with lch := { s.lch with asks := s.lch.asks ++ [⟨dev % 2048, sec * 1000000000 + ns, mask, clr⟩] } }) ∧
   (∀ (dev : Nat) (rec : List Byte) (x : Snap) (s : State), s.lch.snap = some x →
     (dev ∉ x.waiting → exec (.snapRecordReceive dev rec) s = .next s) ∧
     (dev ∈ x.waiting → x.captured = false →
       exec (.snapRecordReceive dev rec) s = .next { s with lch := { s.lch with snap := some { x with early := kvPut dev rec x.early } } }) ∧
     (x.captured = true → x.waiting = [dev] → x.ended = false → 64 ≤ x.len → rec.length ≤ x.len - x.pos → x.early = [] →
       exec (.snapRecordReceive dev rec) s = .next { s with
         hub := s.hub.hostWrite (x.addr + x.pos) rec
         lch := { s.lch with snap := some { x with pos := x.pos + rec.length, devices := x.devices + 1, waiting := [] } } })) ∧
   (∀ (dev : Nat) (x : Snap) (s : State), s.lch.snap = some x →
     (s.hub.elapsed < x.capAt + 100000000 → exec (.snapMemberTimeout dev) s = .next s) ∧
     (x.captured = true → x.waiting = [dev] → kvHas dev x.early = false → x.capAt + 100000000 ≤ s.hub.elapsed →
       ∃ t y, exec (.snapMemberTimeout dev) s = .next t ∧ t.lch.snap = some y ∧ y.waiting = [] ∧ y.short = true)) ∧
   (∀ (x : Snap) (s : State), s.lch.snap = some x →
     (x.captured = false ∨ x.waiting ≠ [] → exec .snapDone s = .next s) ∧
     (s.canon → x.captured = true → x.waiting = [] → ∃ t, exec .snapDone s = .next t ∧ t.lch.snap = none ∧ t.hub.get LCH.STATUS.SNAP_BUSY = 0 ∧
       (64 ≤ x.len → t.hub = ((s.hub.set LCH.STATUS.SNAP_BUSY 0).hostWrite x.addr x.header).raise { code := 0x0505 }) ∧
       t = { s with hub := t.hub, lch := { s.lch with snap := none } })))

/-! ### Forwarding (chapter 6) -/

/-- R98, R126: CONF_CREATE makes a conference of the issuing function where none has the ID, and where one has it answers IN_USE, or BUSY while that
one is being destroyed; CONF_DESTROY marks a conference and queues its removal with the command's completion; of a conference that the function does
not reach it answers NOT_OWNER, of one already marked BUSY, of none NOT_FOUND. R98, Table 6.9: LEG_ADD makes a leg of the issuing function whose
estimate lies within its bounds and whose state is CHECKING for KIND 0 and ACTIVE otherwise; LEG_MODIFY replaces a leg's parameters, at once or,
LATCHED, with the Latch that its held change joins (R127), keeps its conference, and returns a KIND 0 leg with new ICE credentials to CHECKING;
LEG_REMOVE leaves it REMOVING and queues its removal (R126); without the leg both answer NOT_FOUND. Where the rules leave a detail open, this states
the model's reading or choice: log entries 4 and 29. -/
def Obligations.ConferencesAndLegs : Prop :=
  (∀ (e : CmdEnv) (body : List Byte) (s : State),
     let c := bodyN body 0 2 % 4096
     (kvGet c s.fwd.confs = none →
       (∃ t, exec (.confCreate e body) s = .next t ∧
         kvGet c t.fwd.confs = some { cluster := bodyN body 4 4, fn := e.fn } ∧ (∀ k, k ≠ c → kvGet k t.fwd.confs = kvGet k s.fwd.confs) ∧
         t = ({ s with fwd := { s.fwd with confs := t.fwd.confs } } : State).done e 0x0101 0 []) ∧
       exec (.confDestroy e body) s = .next (s.done e 0x0102 3 [])) ∧
     (∀ x, kvGet c s.fwd.confs = some x →
       exec (.confCreate e body) s = .next (s.done e 0x0101 (if x.gone then 6 else 2) []) ∧
       (x.reached e.fn = false → exec (.confDestroy e body) s = .next (s.done e 0x0102 5 [])) ∧
       (x.reached e.fn = true → x.gone = true → exec (.confDestroy e body) s = .next (s.done e 0x0102 6 [])) ∧
       (x.reached e.fn = true → x.gone = false → ∃ t, exec (.confDestroy e body) s = .next t ∧
         kvGet c t.fwd.confs = some { x with gone := true } ∧ t.fwd.removals.getLast? = some ⟨0, c, some (e, 0x0102)⟩ ∧
         (s.fwd.confLegs c = [] → t = { s with fwd := { s.fwd with confs := t.fwd.confs, removals := s.fwd.removals ++ [⟨0, c, some (e, 0x0102)⟩] } })))) ∧
  (∀ (e : CmdEnv) (body : List Byte) (s : State), bodyN body 0 2 < s.hub.legLimit → s.hub.reachesLeg e.fn (bodyN body 0 2) = true →
     let i := bodyN body 0 2
     (∀ c, kvGet (legOf body).conf s.fwd.confs = some c → c.reached e.fn = true → c.gone = false → kvGet i s.fwd.legs = none →
       ∃ t l, exec (.legAdd e body) s = .next t ∧ kvGet i t.fwd.legs = some l ∧ l.conf = bodyN body 2 2 % 4096 ∧ l.maker = e.fn ∧ l.kind ≤ 2 ∧
         l.state = (if l.kind = 0 then 0 else 1) ∧ l.minK ≤ l.cnt.est ∧ l.cnt.est ≤ l.maxK ∧
         (∀ k, k ≠ i → kvGet k t.fwd.legs = kvGet k s.fwd.legs) ∧
         t = ({ s with hub := s.hub.freeTick.set1 QSC.LEG_RATE.KBPS i (l.cnt.est * 5 / 4), fwd := { s.fwd with legs := t.fwd.legs } } : State).done e 0x0103 0 []) ∧
     (∀ x, kvGet i s.fwd.legs = some x → x.state ≠ 3 →
       (x.conf = (legOf body).conf → e.latched = true → exec (.legModify e body) s = .next (s.hold e 0x0104 (.legModify e body))) ∧
       (x.conf = (legOf body).conf → e.latched = false →
         ∃ t l, exec (.legModify e body) s = .next t ∧ kvGet i t.fwd.legs = some l ∧ l.minK = bodyN body 0x2C 4 ∧ l.conf = x.conf ∧
           (l.kind ≠ 0 → l.state = 1) ∧
           (l.kind = 0 → x.kind = 0 → l.lfrag = x.lfrag → l.lpwd = x.lpwd → l.rfrag = x.rfrag → l.rpwd = x.rpwd → l.state = x.state) ∧
           (l.kind = 0 → (l.lfrag ≠ x.lfrag ∨ l.lpwd ≠ x.lpwd ∨ l.rfrag ≠ x.rfrag ∨ l.rpwd ≠ x.rpwd) → l.state = 0) ∧
           (∀ k, k ≠ i → kvGet k t.fwd.legs = kvGet k s.fwd.legs) ∧
           t = ({ s with hub := s.hub.set1 QSC.LEG_RATE.KBPS i (l.cnt.est * 5 / 4), fwd := { s.fwd with legs := t.fwd.legs } } : State).done e 0x0104 0 []) ∧
       (x.conf ≠ (legOf body).conf → exec (.legModify e body) s = .next (s.done e 0x0104 4 [])) ∧
       (∃ t, exec (.legRemove e body) s = .next t ∧ kvGet i t.fwd.legs = some { x with state := 3 } ∧
         t = (s.markLeg i).removal ⟨1, i, some (e, 0x0105)⟩)) ∧
     (kvGet i s.fwd.legs = none →
       exec (.legModify e body) s = .next (s.done e 0x0104 3 []) ∧ exec (.legRemove e body) s = .next (s.done e 0x0105 3 [])))

/-- R98, R124, R126: STREAM_ADD makes an inbound stream as its body says, or an outbound one whose first sequence numbers and timestamp are free
values; STREAM_DEL marks a stream, an inbound one's subscriptions with it, and queues its removal; KEY_REQ makes a request for a key picture pending.
A refused STREAM_ADD and a KEY_REQ of no stream answer their status alone. Table 6.11, R89, R128: LEG_STATS answers the record of the last publication
and changes nothing but its completion; SVC_PARAM sets a key of the service, limited to its range, and an unknown key not at all. Where the rules
leave a detail open, this states the model's reading or choice: log entries 4, 29 and 44. -/
def Obligations.StreamsAndQueries : Prop :=
  (∀ (e : CmdEnv) (body : List Byte) (s : State),
     let i := bodyN body 0 2
     (∀ st, s.streamRefused e body = some st → exec (.streamAdd e body) s = .next (s.done e 0x0106 st [])) ∧
     (s.streamRefused e body = none → bodyU8 body 2 ≠ 1 →
       exec (.streamAdd e body) s = .next (({ s with fwd := { s.fwd with ins := kvPut i (inOf body) s.fwd.ins } } : State).done e 0x0106 0 [])) ∧
     (s.streamRefused e body = none → bodyU8 body 2 = 1 →
       ∃ seq ts rtx fec, exec (.streamAdd e body) s = .next (({ s with
         hub := { s.hub with free := s.hub.free + 4 }
         fwd := { s.fwd with outs := kvPut i (outOf body seq ts rtx fec) s.fwd.outs } } : State).done e 0x0106 0 [])) ∧
     (∀ x, bodyU8 body 2 ≠ 1 → kvGet i s.fwd.ins = some x → s.hub.reachesLeg e.fn x.leg = true → x.gone = false →
       ∃ t, exec (.streamDel e body) s = .next t ∧ kvGet i t.fwd.ins = some { x with gone := true } ∧
         (∀ k u, kvGet k t.fwd.subs = some u → u.src = i → u.gone = true) ∧ t.fwd.removals = s.fwd.removals ++ [⟨2, i, some (e, 0x0107)⟩] ∧
         (∀ k, k ≠ i → kvGet k t.fwd.ins = kvGet k s.fwd.ins) ∧
         t = { s with fwd := { s.fwd with ins := t.fwd.ins, subs := t.fwd.subs, removals := t.fwd.removals } }) ∧
     (∀ x, bodyU8 body 2 = 1 → kvGet i s.fwd.outs = some x → s.hub.reachesLeg e.fn x.leg = true → x.gone = false →
       exec (.streamDel e body) s = .next ((s.markOut i).removal ⟨3, i, some (e, 0x0107)⟩)) ∧
     (∀ x, kvGet i s.fwd.ins = some x → s.hub.reachesLeg e.fn x.leg = true → x.gone = false → x.key.pending = false →
       ∃ t y, exec (.keyReq e body) s = .next t ∧ kvGet i t.fwd.ins = some y ∧ y = { x with key := { x.key with pending := true, plis := 0, fir := false } } ∧
         (∀ k, k ≠ i → kvGet k t.fwd.ins = kvGet k s.fwd.ins) ∧ t = ({ s with fwd := { s.fwd with ins := t.fwd.ins } } : State).done e 0x010C 0 []) ∧
     (kvGet i s.fwd.ins = none → exec (.keyReq e body) s = .next (s.done e 0x010C 3 []))) ∧
  (∀ (e : CmdEnv) (body : List Byte) (s : State),
     (∀ l, bodyN body 0 2 < s.hub.legLimit → kvGet (bodyN body 0 2) s.fwd.legs = some l → s.hub.reachesLeg e.fn (bodyN body 0 2) = true → l.state ≠ 3 →
       ∃ res, exec (.legStats e body) s = .next (s.done e 0x010B 0 res) ∧ res.length = 64 ∧ (res.drop 8).take 8 = leBytes 8 l.pub.inPkts ∧
         (res.drop 40).take 4 = leBytes 4 l.pub.est ∧ (res.drop 52).take 1 = leBytes 1 l.state) ∧
     (s.hub.legLimit ≤ bodyN body 0 2 → exec (.legStats e body) s = .next (s.done e 0x010B 1 [])) ∧
     ∃ t, exec (.svcParam e body) s = .next t ∧ t = ({ s with fwd := { s.fwd with keys := t.fwd.keys } } : State).done e 0x010D 0 [] ∧
       (∀ d lo hi, fwdKeyRow (bodyN body 0 2) = some (d, lo, hi) →
         (lo ≤ bodyN body 4 4 → bodyN body 4 4 ≤ hi → t.fwd.key (bodyN body 0 2) = bodyN body 4 4) ∧
         (bodyN body 4 4 < lo → lo ≤ hi → t.fwd.key (bodyN body 0 2) = lo) ∧ (hi < bodyN body 4 4 → t.fwd.key (bodyN body 0 2) = hi) ∧
         (∀ k, k ≠ bodyN body 0 2 → t.fwd.key k = s.fwd.key k)) ∧
       (fwdKeyRow (bodyN body 0 2) = none → t.fwd = s.fwd))

/-- R98, R101, R112, R126, R127: SUB_ADD appends a subscription to its chain; SUB_MODIFY keeps LEG, OUT, SRC and ROLE and binds the policy at the
source's next packet; SUB_DEL marks a subscription and queues its removal; a LATCHED change of the three is held for its Latch; REMOVAL_DRAIN_DONE
takes a drained object out, a conference once it has no leg. Where the rules leave a detail open, this states the model's reading or choice: log entry
29. -/
def Obligations.SubscriptionCommands : Prop :=
  ∀ (e : CmdEnv) (body : List Byte) (s : State), bodyN body 0 4 < s.hub.subLimit →
    let i := bodyN body 0 4
    let u := subOf s.fwd body
    (s.fwd.sub? i = none → u.leg < s.hub.legLimit → s.subRefused e u = none →
      (e.latched = true → exec (.subAdd e body) s = .next (s.hold e 0x0108 (.subAdd e body))) ∧
      (e.latched = false → ∃ t, exec (.subAdd e body) s = .next t ∧ t.fwd.chainOf u.chain = s.fwd.chainOf u.chain ++ [i] ∧
        t = (s.subAdd i u (bodyU8 body 12)).done e 0x0108 0 [])) ∧
    (∀ x, s.fwd.sub? i = some x → exec (.subAdd e body) s = .next (s.done e 0x0108 (if s.hub.legLimit ≤ u.leg then 1 else if x.gone then 6 else 2) [])) ∧
    (∀ x, s.fwd.sub? i = some x → s.hub.reachesLeg e.fn x.leg = true → x.gone = false →
      (s.hub.reachesDest e.fn u.role u.dest = true → ¬(x.leg = u.leg ∧ x.out = u.out ∧ x.src = u.src ∧ x.role = u.role) →
        exec (.subModify e body) s = .next (s.done e 0x0109 4 [])) ∧
      (s.hub.reachesDest e.fn u.role u.dest = true → x.leg = u.leg → x.out = u.out → x.src = u.src → x.role = u.role →
        (e.latched = true → exec (.subModify e body) s = .next (s.hold e 0x0109 (.subModify e body))) ∧
        (e.latched = false → exec (.subModify e body) s = .next ((s.subModify i x u (bodyU8 body 12)).done e 0x0109 0 [])) ∧
        s.subModify i x u (bodyU8 body 12) = (s.putSub i { x with
          pane := u.pane, prio := u.prio, dest := u.dest, cap := u.cap, tag := u.tag, next := some (policyOf (bodyU8 body 12)) }).allocate x.leg) ∧
      (e.latched = true → exec (.subDel e body) s = .next (s.hold e 0x010A (.subDel e body))) ∧
      (e.latched = false → exec (.subDel e body) s = .next (((s.putSub i { x with gone := true }).allocate x.leg).removal ⟨4, i, some (e, 0x010A)⟩))) ∧
    (∀ (kind id : Nat) (r : Removal), s.fwd.removals.find? (fun x => x.kind = kind ∧ x.id = id) = some r →
      (kind = 0 → s.fwd.confLegs id ≠ [] → exec (.removalDrainDone kind id) s = .next s) ∧
      (kind = 0 → kvSorted s.fwd.confs = true → s.fwd.confLegs id = [] → ∃ t, exec (.removalDrainDone kind id) s = .next t ∧ kvGet id t.fwd.confs = none ∧
        (∀ k, k ≠ id → kvGet k t.fwd.confs = kvGet k s.fwd.confs) ∧ (∀ x ∈ t.fwd.removals, ¬(x.kind = kind ∧ x.id = id)) ∧
        (∀ env op, r.env = some (env, op) → t = ({ s with fwd := { s.fwd with confs := t.fwd.confs, removals := t.fwd.removals } } : State).done env op 0 [])) ∧
      (kind ≠ 0 → exec (.removalDrainDone kind id) s =
        .next (({ s with fwd := { s.fwd with removals := s.fwd.removals.filter fun x => x.kind ≠ kind ∨ x.id ≠ id } } : State).removed r)))

/-- R106, R108, R117, R118, Table 6.4: an ACTIVE leg of KIND 0 asks for consent at its interval and, without a valid response for CONSENT_TIMEOUT, is
CONSENT_LOST with its queue flushed; an ACTIVE leg sends its RTCP compound at its interval; congestion control feedback and the allocation of layers
come at theirs; before its time each of the five changes nothing; an AUTO subscription that alone does not fit its leg's budget gets no layer. R121,
R124, Table 6.7: a gap is NACKed when it is due, at most NACK_TRIES times; a subscription that has waited SWITCH_WAIT for its switch asks once for its
target's key picture; a pending request sends PLIs, at least PLI_GAP apart, and after FIR_AFTER of them FIRs, or, where the device's own units make
the stream, asks them for a refresh. Before its time, and with nothing pending, each of the three changes nothing. Where the rules leave a detail
open, this states the model's reading or choice: log entries 4, 7, 36 and 39. -/
def Obligations.ForwardingTimers : Prop :=
  (∀ (leg : Nat) (l : Leg) (s : State), kvGet leg s.fwd.legs = some l →
     let now := s.hub.elapsed
     (l.state = 1 → l.kind = 0 →
       (pastMs now l.reqAt (s.fwd.key 1) 8 = true → ∃ (u : State) (x : Nat), exec (.consentRequestTimer leg) s =
           .next (u.legSend leg l false 100 "stun-request" [x] none none) ∧
         u = { s with
           hub := { s.hub with free := s.hub.free + 1 }
           fwd := { s.fwd with legs := kvPut leg { l with txns := l.txns ++ [x], reqAt := some now } s.fwd.legs } }) ∧
       (l.consentAt + 1000000 * s.fwd.key 2 ≤ now → ∃ t, exec (.consentTimeout leg) s = .next t ∧
         kvGet leg t.fwd.legs = some { l with state := 2, txns := [] } ∧ t.qsc = s.qsc.flushLeg leg ∧
         (∀ k, k ≠ leg → kvGet k t.fwd.legs = kvGet k s.fwd.legs) ∧ t = { s with
           hub := s.hub.raise { code := 0x0601, sash := s.fwdSash (leg % 8), detail := [leg] }, fwd := { s.fwd with legs := t.fwd.legs }, qsc := t.qsc })) ∧
     (¬(l.state = 1 ∧ l.kind = 0 ∧ pastMs now l.reqAt (s.fwd.key 1) 8 = true) → exec (.consentRequestTimer leg) s = .next s) ∧
     (¬(l.state = 1 ∧ l.kind = 0 ∧ l.consentAt + 1000000 * s.fwd.key 2 ≤ now) → exec (.consentTimeout leg) s = .next s) ∧
     (l.state = 1 → pastMs now l.rtcpAt (s.fwd.key 3) 5 = true → ∃ u : State, exec (.rtcpIntervalTimer leg) s = .next (u.rtcpSend leg "rtcp" (s.legReport leg l)) ∧
       (∀ i (o : OutStream), kvGet i u.fwd.outs = some o → o.leg = leg → o.sentSince = false) ∧
       u = { s with fwd := { s.fwd with legs := kvPut leg { l with rtcpAt := some now } s.fwd.legs, outs := u.fwd.outs, ins := u.fwd.ins } }) ∧
     (¬(l.state = 1 ∧ pastMs now l.rtcpAt (s.fwd.key 3) 5 = true) → exec (.rtcpIntervalTimer leg) s = .next s) ∧
     (pastMs now l.ccfbAt (s.fwd.key 4) 10 = true → ∃ (u : State) (b : List Byte), exec (.ccfbIntervalTimer leg) s = .next (u.rtcpSend leg "rtcp" b) ∧
       b.take 2 = [0x8B, 205] ∧ (∀ i (x : InStream), kvGet i u.fwd.ins = some x → x.leg = leg → x.heard = []) ∧
       u = { s with fwd := { s.fwd with legs := kvPut leg { l with ccfbAt := some now } s.fwd.legs, ins := u.fwd.ins } }) ∧
     (pastMs now l.ccfbAt (s.fwd.key 4) 10 = false → exec (.ccfbIntervalTimer leg) s = .next s) ∧
     (pastMs now l.allocAt (s.fwd.key 12) 10 = false → exec (.allocIntervalTimer leg) s = .next s) ∧
     (pastMs now l.allocAt (s.fwd.key 12) 10 = true →
       exec (.allocIntervalTimer leg) s =
         .next (({ s with fwd := { s.fwd with legs := kvPut leg { l with allocAt := some now } s.fwd.legs } } : State).allocate leg) ∧
       (∀ i u, s.fwd.subs = [(i, u)] → u.leg = leg → u.gone = false → u.ghost = false → u.state ≠ 4 → u.mode = 0 → s.fwd.single u = false →
         l.cnt.est * s.fwd.key 13 / 100 < s.layerRate u ((s.layers u).headD (0, 0)).1 ((s.layers u).headD (0, 0)).2 →
         exec (.allocIntervalTimer leg) s = .next (({ s with fwd := { s.fwd with legs := kvPut leg { l with allocAt := some now } s.fwd.legs } } : State).putSub i
           { u with upTo := none, none_ := true })))) ∧
  ((∀ (stream seq : Nat) (x : InStream) (g : Gap) (s : State), kvGet stream s.fwd.ins = some x → x.gaps.find? (·.seq = seq) = some g →
     (g.tries < s.fwd.key 9 → s.nackDue x.leg g = true → ∃ (u : State) (y : InStream),
       exec (.upstreamNackTimer stream seq) s = .next (u.feedback x.leg "rtcp" 1 205 x.ssrc (beBytes 2 seq ++ beBytes 2 0)) ∧
       kvGet stream u.fwd.ins = some y ∧ y = { x with gaps := y.gaps } ∧
       y.gaps.find? (·.seq = seq) = some { g with tries := g.tries + 1, last := s.hub.elapsed } ∧
       (∀ k, k ≠ stream → kvGet k u.fwd.ins = kvGet k s.fwd.ins) ∧ u = { s with fwd := { s.fwd with ins := u.fwd.ins } }) ∧
     (s.fwd.key 9 ≤ g.tries ∨ s.nackDue x.leg g = false → exec (.upstreamNackTimer stream seq) s = .next s)) ∧
   (∀ (sub : Nat) (u : Sub) (s : State), kvGet sub s.fwd.subs = some u →
     let due := u.upAt + 1000000 * s.fwd.key 7 ≤ s.hub.elapsed
     (u.state = 3 → u.asked = false → u.gone = false → due → exec (.switchWaitExpiry sub) s =
       .next ((s.putSub sub { u with asked := true }).keyRequest (s.fwd.streamOf u.base u.tgtS))) ∧
     (u.state ≠ 3 ∨ u.asked = true ∨ ¬due → exec (.switchWaitExpiry sub) s = .next s)) ∧
   (∀ (stream : Nat) (x : InStream) (s : State), kvGet stream s.fwd.ins = some x → x.gone = false →
     let now := s.hub.elapsed
     let put := fun (k : KeyReq) => { s with fwd := { s.fwd with ins := kvPut stream { x with key := k } s.fwd.ins } }
     (x.key.pending = false → ∀ own, exec (.keyRequestTimer stream own) s = .next s) ∧
     (∀ t own, x.key.sent = some t → now < t + 1000000 * s.fwd.key 5 → exec (.keyRequestTimer stream own) s = .next s) ∧
     (x.key.pending = true → (∀ t, x.key.sent = some t → t + 1000000 * s.fwd.key 5 ≤ now) →
       (x.key.plis < s.fwd.key 6 → exec (.keyRequestTimer stream none) s =
         .next ((put { x.key with plis := x.key.plis + 1, sent := some now }).feedback x.leg "rtcp" 1 206 x.ssrc [])) ∧
       (s.fwd.key 6 ≤ x.key.plis → ∃ u : State, exec (.keyRequestTimer stream none) s =
           .next (u.feedback x.leg "rtcp" 4 206 0 (beBytes 4 x.ssrc ++ [BitVec.ofNat 8 ((x.key.firSeq + 1) % 256), 0, 0, 0])) ∧
         u = { put { x.key with fir := true, firSeq := (x.key.firSeq + 1) % 256, sent := some now } with hub := u.hub } ∧
         (x.key.fir = true → u.hub = s.hub) ∧
         (x.key.fir = false → u.hub = s.hub.raise { code := 0x0605, sash := s.fwdSash (x.leg % 8), detail := [stream] })) ∧
       (∀ sash r, exec (.keyRequestTimer stream (some (sash, r))) s = .next ((put { x.key with sent := some now }).encRefresh sash r false)))))

/-- R102, R347: a port that does not receive delivers nothing, but a frozen core's port that was UP fills its island's FIFO (R23); a frame with a
wrong check or too long is counted and dropped; on a port without MACsec one that is not poisoned is counted by its slice and goes, a PTP frame of a
PTP port to the time service, a frame other than UDP at a port without a forwarding sash no further, and a datagram that is neither a tunnel's nor a
video input's at a port with a forwarding sash to the leg whose addresses it carries. Where the rules leave a detail open, this states the model's
reading or choice: log entries 32, 33, 103 and 105. -/
def Obligations.FrameClassification : Prop :=
  ∀ (f : RxFrame) (s : State),
    (32 ≤ f.port → exec (.frameClassify f) s = .next s) ∧
    (f.port < 32 → s.receiving f.port = false → s.hub.get1 LNK.ETH_STAT.STATE f.port ≠ 4 → exec (.frameClassify f) s = .next s) ∧
    (f.port < 32 → s.receiving f.port = false → s.hub.get1 LNK.ETH_STAT.STATE f.port = 4 → s.portDown f.port = false → s.portHears f.port = true →
      exec (.frameClassify f) s = .next (s.offer (.lane ((s.fab.lanesOf 1 f.port).headD 0)) f.bytes.length)) ∧
    (f.port < 32 → s.receiving f.port = true → (f.fcsOk = false ∨ 9596 < f.bytes.length) → exec (.frameClassify f) s =
      .next { s with hub := (s.hub.stat LNK.ETH_RX_LO.COUNT f.port 1).err LNK.ETH_RX_FCS.COUNT f.port 0x130D 0 }) ∧
    (f.port < 32 → s.receiving f.port = true → f.fcsOk = true → f.bytes.length ≤ 9596 → f.poison = false →
      let rx := s.hub.stat LNK.ETH_RX_LO.COUNT f.port 1
      let s0 : State := { s with hub := rx.stat FWD.IN_PKTS_LO.COUNT (f.port % 8) 1 }
      rx.get1 LNK.ETH_CFG.SEC f.port = 0 →
      (rx.get1 TIM.PORT_CFG.PTP_EN f.port = 1 → isPtp f = true →
        exec (.frameClassify f) s = .next { s0 with hub := s0.hub.emit (.token (mkRef 10 f.port) "ptp" []) }) ∧
      (isPtp f = false → f.udp = false → ({ s with hub := rx } : State).portSash f.port = none → exec (.frameClassify f) s = .next s0) ∧
      (∀ n i l, isPtp f = false → f.udp = true → f.dport = 0 ∨ f.dport ≠ rx.get1 LNK.ETH_CFG.TUN_PORT f.port → ({ s with hub := rx } : State).vinMatch f = none →
        ({ s with hub := rx } : State).portSash f.port = some n → s.fwd.legs.find? (fun x => x.2.tuple f) = some (i, l) →
        exec (.frameClassify f) s = .next ((s0.legFrame i (f.port % 8) f).askSplice)))

/-! ### Queues and gates (chapter 7) -/

/-- R138: a flush leaves the FIFO empty at PROD with nothing counted as lost, and takes the SIZE that the write carries; so does a write that changes
SIZE; a write from a function that does not reach the queue pair, one that the host's window does not take, and one that neither flushes nor changes
SIZE are nothing. R142, R144, R145: once its slot has come a queue is re-entered on the wheel while its time lies later, and is then eligible, and
before its slot nothing happens; a pending gate list takes over when its time has come, outside a Shutter, and its position runs from that time; the
entry register of a built port follows its list. Where the rules leave a detail open, this states the model's reading or choice: log entries 16, 17,
18, 34 and 111. -/
def Obligations.FifosAndGates : Prop :=
  (∀ (fn n : Nat) (val : Word) (s : State), s.canon →
     (n < 2048 → s.hub.hostIn = true → s.hub.reachesQp fn (n / 2) = true → val.getLsbD 31 = true →
       ∃ t, exec (.fifoFlush fn n val) s = .next t ∧ t.hub.get1 QSC.FIFO_CTL.SIZE n = QSC.FIFO_CTL.SIZE.of val ∧ t.hub.fifoUsed n = 0 ∧ (t.hub.fifo n).loss = 0 ∧
         (∀ k, k ≠ QSC.FIFO_IDX.INDEX.off n 0 → k ≠ QSC.FIFO_CTL.SIZE.off n 0 → t.hub.rd k = s.hub.rd k) ∧ (∀ m, m ≠ n → t.hub.fifo m = s.hub.fifo m) ∧
         t = { s with hub := { s.hub with regs := t.hub.regs, fifos := t.hub.fifos } }) ∧
     (n < 2048 → s.hub.hostIn = true → s.hub.reachesQp fn (n / 2) = true → QSC.FIFO_CTL.SIZE.of val ≠ s.hub.get1 QSC.FIFO_CTL.SIZE n →
       ∃ t, exec (.fifoSizeChange fn n val) s = .next t ∧ t.hub.get1 QSC.FIFO_CTL.SIZE n = QSC.FIFO_CTL.SIZE.of val ∧ t.hub.fifoUsed n = 0 ∧
         (t.hub.fifo n).loss = 0 ∧ (∀ k, k ≠ QSC.FIFO_IDX.INDEX.off n 0 → k ≠ QSC.FIFO_CTL.SIZE.off n 0 → t.hub.rd k = s.hub.rd k) ∧
         t = { s with hub := { s.hub with regs := t.hub.regs, fifos := t.hub.fifos } }) ∧
     (s.hub.hostIn = false ∨ s.hub.reachesQp fn (n / 2) = false → exec (.fifoFlush fn n val) s = .next s ∧ exec (.fifoSizeChange fn n val) s = .next s) ∧
     (val.getLsbD 31 = false → exec (.fifoFlush fn n val) s = .next s) ∧
     (QSC.FIFO_CTL.SIZE.of val = s.hub.get1 QSC.FIFO_CTL.SIZE n → exec (.fifoSizeChange fn n val) s = .next s)) ∧
  ((∀ (n slot next : Nat) (q : EgrQueue) (s : State), kvGet n s.qsc.queues = some q → q.wheel = some (slot, next) →
     (s.hub.elapsed < slot → exec (.rateWheelSlot n) s = .next s) ∧
     (slot ≤ s.hub.elapsed → ∃ t r, exec (.rateWheelSlot n) s = .next t ∧ kvGet n t.qsc.queues = some r ∧ r.items = q.items ∧
       (slot < ceilDiv next 250 * 250 → r.wheel = some (wheelSlot next slot, next)) ∧ (ceilDiv next 250 * 250 ≤ slot → r.wheel = none ∧ r.eligible = slot) ∧
       t = { s with qsc := { s.qsc with queues := t.qsc.queues } })) ∧
   (∀ (p : Nat) (l : GateList) (s : State), s.canon → p < 32 → kvSorted s.qsc.pending = true → kvGet p s.qsc.pending = some l →
     (l.start ≤ s.hub.time.total → s.hub.get GLB.STATUS.FROZEN = 0 →
       ∃ t, exec (.gclTakeover p) s = .next t ∧ kvGet p t.qsc.gates = some l ∧ kvGet p t.qsc.pending = none ∧ t.hub.get1 QSC.GCL_STAT.PENDING p = 0 ∧
         (∀ k, k ≠ p → kvGet k t.qsc.gates = kvGet k s.qsc.gates) ∧
         t = { s with hub := t.hub, qsc := { s.qsc with gates := t.qsc.gates, pending := t.qsc.pending } }) ∧
     (s.hub.time.total < l.start ∨ s.hub.get GLB.STATUS.FROZEN ≠ 0 → exec (.gclTakeover p) s = .next s)) ∧
   (∀ (p : Nat) (s : State), s.canon → s.portRate p ≠ 0 →
     ∃ t, exec (.gateEntryChange p) s = .next t ∧
       t.hub.get1 QSC.GCL_STAT.ENTRY p = (if (s.qsc.list p).ents = [] then 0 else ((s.qsc.list p).at s.hub.time.total).1) % 2 ^ QSC.GCL_STAT.ENTRY.width ∧
       t = { s with hub := { s.hub with regs := t.hub.regs } }) ∧
   (∀ (p : Nat) (s : State), s.portRate p = 0 → exec (.gateEntryChange p) s = .next s))

/-- R140, R141: a built port that can take a frame outside a Shutter starts, once oversize heads are dropped, the head of the queue that its highest
qualifying class chooses, and nothing where no class qualifies; a port that is not built, and every port during a Shutter, starts nothing. Where the
rules leave a detail open, this states the model's reading or choice: log entries 35 and 37. -/
def Obligations.EgressStrictPriority : Prop :=
  ∀ (p : Nat) (s : State),
    (s.portRate p ≠ 0 → s.hub.get GLB.STATUS.FROZEN ≠ 1 →
      (∀ n q, (s.dropPort p).selectFrom p 8 = some (n, q) →
        exec (.egressSchedule p) s = .next ((s.dropPort p).startFrame n q) ∧ q.port = p ∧ q.cls < 8 ∧ q.items ≠ [] ∧ q.wheel = none ∧
          ∀ c, q.cls < c → c < 8 → (s.dropPort p).qualifies p c = none) ∧
      ((s.dropPort p).selectFrom p 8 = none → exec (.egressSchedule p) s = .next (s.dropPort p) ∧ ∀ c, c < 8 → (s.dropPort p).qualifies p c = none)) ∧
    (s.portRate p = 0 ∨ s.hub.get GLB.STATUS.FROZEN = 1 → exec (.egressSchedule p) s = .next s)

/-! ### Keys and ciphers (chapter 15) -/

/-- R296: a key command with the operation it names is taken while the window is not busy, and is nothing while it is. R295–R298: outside a Shutter, a
finished write puts a new generation in the slot with its use at zero, its hard limit within its mode's; a finished erase empties the slot and keeps
its generation number; a function that does not own the slot gets OWNER and changes no slot; a drain's end zeroises the drained key, and the changes
that waited for it fall due in turn; a held key ends when its time has come and not before. Where the rules leave a detail open, this states the
model's reading or choice: log entries 68 and 127. -/
def Obligations.KeySlots : Prop :=
  (∀ (fn : Nat) (val : Word) (s : State), s.canon → s.hub.hostIn = true → fn < 64 →
     (s.hub.kw fn CIP.KW_STAT.BUSY = 0 → CIP.KW_CMD.OP.of val = 1 →
       ∃ t, exec (.keyWrite fn val) s = .next t ∧ t.hub.kw fn CIP.KW_STAT.BUSY = 1 ∧ t.hub.kw fn CIP.KW_STAT.SLOT = CIP.KW_CMD.SLOT.of val ∧
         kvGet fn t.cip.jobs = some ⟨false, decide (CIP.KW_CMD.LATCHED.of val = 1), CIP.KW_CMD.SLOT.of val⟩ ∧
         (∀ k, k ≠ winKey fn (CIP.KW_STAT.BUSY.off 0 0) → t.hub.rd k = s.hub.rd k) ∧
         t = { s with hub := { s.hub with regs := t.hub.regs }, cip := { s.cip with jobs := t.cip.jobs } }) ∧
     (s.hub.kw fn CIP.KW_STAT.BUSY = 0 → CIP.KW_CMD.OP.of val = 2 →
       ∃ t, exec (.keyErase fn val) s = .next t ∧ t.hub.kw fn CIP.KW_STAT.BUSY = 1 ∧ t.hub.kw fn CIP.KW_STAT.SLOT = CIP.KW_CMD.SLOT.of val ∧
         kvGet fn t.cip.jobs = some ⟨true, decide (CIP.KW_CMD.LATCHED.of val = 1), CIP.KW_CMD.SLOT.of val⟩ ∧
         t = { s with hub := { s.hub with regs := t.hub.regs }, cip := { s.cip with jobs := t.cip.jobs } }) ∧
     (s.hub.kw fn CIP.KW_STAT.BUSY = 1 ∨ (CIP.KW_CMD.OP.of val ≠ 1 ∧ CIP.KW_CMD.OP.of val ≠ 2) →
       exec (.keyWrite fn val) s = .next s ∧ exec (.keyErase fn val) s = .next s)) ∧
  ((∀ (fn slot : Nat) (job : KwJob) (rec : List Byte) (s : State), s.canon → fn < 64 → kvSorted s.cip.jobs = true → s.hub.get GLB.STATUS.FROZEN ≠ 1 →
     kvGet fn s.cip.jobs = some job → job.slot = slot → job.latched = false → s.cip.keyWaits fn = false → (s.cip.slot slot).drain = none →
     (s.hub.ownsSlot fn slot = false → ∀ r, ∃ t, exec (.keyUnwrapDone fn slot job.erase r) s = .next t ∧ t.cip.slots = s.cip.slots ∧
       t.hub.kw fn CIP.KW_STAT.BUSY = 0 ∧ t.hub.kw fn CIP.KW_STAT.RESULT = 4 ∧ kvGet fn t.cip.jobs = none) ∧
     (s.hub.ownsSlot fn slot = true → job.erase = false → s.dbt.wrapKey.isSome = true → bodyN rec 0 2 = slot → modeLimit (bodyU8 rec 2) ≠ 0 →
       ∃ t, exec (.keyUnwrapDone fn slot false (some rec)) s = .next t ∧ (t.cip.slot slot).state = 1 ∧
         (t.cip.slot slot).gen = ((s.cip.slot slot).gen + 1) % 2 ^ 32 ∧ (t.cip.slot slot).mode = bodyU8 rec 2 ∧ (t.cip.slot slot).key = (rec.drop 8).take 48 ∧
         (t.cip.slot slot).use = 0 ∧ (t.cip.slot slot).hard ≤ modeLimit (bodyU8 rec 2) ∧ t.hub.kw fn CIP.KW_STAT.BUSY = 0 ∧ kvGet fn t.cip.jobs = none ∧
         (∀ k, k ≠ slot → t.cip.slot k = s.cip.slot k)) ∧
     (s.hub.ownsSlot fn slot = true → job.erase = true →
       ∃ t, exec (.keyUnwrapDone fn slot true none) s = .next t ∧ (t.cip.slot slot).state = 0 ∧ (t.cip.slot slot).key = [] ∧
         (t.cip.slot slot).gen = (s.cip.slot slot).gen ∧ t.hub.kw fn CIP.KW_STAT.BUSY = 0 ∧ (∀ k, k ≠ slot → t.cip.slot k = s.cip.slot k))) ∧
   (∀ (slot : Nat) (s : State),
     ((s.cip.slot slot).drain = none → exec (.keyDrainEnd slot) s = .next s) ∧
     ((s.cip.slot slot).drain ≠ none → (s.cip.slot slot).wait = [] → ∃ t, exec (.keyDrainEnd slot) s = .next t ∧
       t.cip.slot slot = { s.cip.slot slot with drain := none } ∧ (∀ k, k ≠ slot → t.cip.slot k = s.cip.slot k) ∧ t = { s with cip := { s.cip with slots := t.cip.slots } }) ∧
     ((s.cip.slot slot).drain ≠ none → exec (.keyDrainEnd slot) s =
       .next ((s.cip.slot slot).wait.foldl (fun a w => a.keyDue slot w.1 w.2) (s.setSlot slot { s.cip.slot slot with drain := none, wait := [] }))) ∧
     ((s.cip.slot slot).held ≠ none → (s.cip.slot slot).heldEnd ≤ s.hub.elapsed → ∃ t, exec (.heldKeyExpiry slot) s = .next t ∧
       t.cip.slot slot = { s.cip.slot slot with held := none } ∧
       (∀ k, k ≠ slot → t.cip.slot k = s.cip.slot k) ∧ t = { s with cip := { s.cip with slots := t.cip.slots } }) ∧
     ((s.cip.slot slot).held = none ∨ s.hub.elapsed < (s.cip.slot slot).heldEnd → exec (.heldKeyExpiry slot) s = .next s)))

/-! ### Starts (chapter 21) -/

/-- R301: an item that its slot's mode does not fit, or whose direction is the opposite of the slot's, is dropped, counted in MISUSE_DROP and raised
as `CIP_MISUSE`. -/
def Obligations.MisuseDropped : Prop :=
  ∀ (it : CipItem) (s : State), s.hub.get GLB.STATUS.FROZEN ≠ 1 → it.poison = false → (s.cip.slot it.slot).state ≠ 0 → (s.cip.slot it.slot).state ≠ 3 →
    modeFits it.kind (s.cip.slot it.slot).mode = false ∨ (s.cip.slot it.slot).dec ≠ it.dec →
    ∃ t : State, exec (.cipherItem it) s = .next t ∧ t.hub = (s.hub.err CIP.MISUSE_DROP.COUNT 0 0x100B 0).raiseRl { code := 0x100C, detail := [it.slot] } ∧
      (s.canon → s.hub.rd (CIP.MISUSE_DROP.COUNT.off 0 0) ≠ BitVec.allOnes 32 →
        t.hub.rd (CIP.MISUSE_DROP.COUNT.off 0 0) = s.hub.rd (CIP.MISUSE_DROP.COUNT.off 0 0) + 1) ∧
      t = { s with hub := t.hub }

/-! ### Keys and ciphers (chapter 15) -/

/-- R299, R300, R302: a CENC sample on which the pipelines agree, of a running slot made for it, leaves the lane and is one more use of its key, as
far as the count reaches; an item of an empty slot, and an SRTP index used before under the same generation, never leave it and are counted. Where the
rules leave a detail open, this states the model's reading or choice: log entries 68 and 126. -/
def Obligations.CipherReleasesOnce : Prop :=
  ∀ (it : CipItem) (s : State), s.hub.get GLB.STATUS.FROZEN ≠ 1 → it.poison = false →
    (it.kind = 3 → (s.cip.slot it.slot).state = 1 → ((s.cip.slot it.slot).mode = 6 ∨ (s.cip.slot it.slot).mode = 7) → (s.cip.slot it.slot).dec = it.dec →
      it.mismatches = 0 →
      ∃ t, exec (.cipherItem it) s = .next t ∧ t.hub.out.getLast? = some (.token 0 "cipher" [it.slot, 3, if it.dec then 1 else 0, it.len]) ∧
        (t.cip.slot it.slot).use = min ((s.cip.slot it.slot).use + 1) (2 ^ 64 - 1) ∧ (∀ k, k ≠ it.slot → t.cip.slot k = s.cip.slot k) ∧
        t = { s with hub := t.hub, cip := { s.cip with slots := t.cip.slots, ends := t.cip.ends }, fab := t.fab }) ∧
    ((s.cip.slot it.slot).state = 0 → exec (.cipherItem it) s =
      .next { s with hub := (s.hub.err CIP.EMPTY_DROP.COUNT 0 0x100B 0).raiseRl { code := 0x1003, detail := [it.slot] } }) ∧
    (∀ w, it.kind = 0 → it.dec = false → (s.cip.slot it.slot).dec = false → (s.cip.slot it.slot).state = 1 → modeFits 0 (s.cip.slot it.slot).mode = true →
      kvGet it.stream s.cip.windows = some w → w.slot = it.slot → w.gen = (s.cip.slot it.slot).gen → srtpIndex w.top it.seq < 2 ^ 48 →
      srtpIndex w.top it.seq ≤ w.top → srtpIndex w.top it.seq ∈ w.seen →
      exec (.cipherItem it) s = .next { s with hub := (s.hub.err CIP.IDX_REFUSED.COUNT 0 0x100B 0).raiseRl { code := 0x1005, detail := [it.slot] } })

/-! ### Memory (chapter 17) -/

/-- R328: the light code corrects any single wrong bit of a stored word, data or check, and never passes two wrong data bits as good data. -/
def Obligations.LightCodeCorrectsOne : Prop :=
  ∀ (m : MemSt) (w d j k : Nat), memWf m.cells = true → m.read w = .clean d → j < 64 → k < 64 →
    (m.err ⟨w, 2 ^ j, 0⟩).read w = .corrected d ∧
    (k < 8 → (m.err ⟨w, 0, 2 ^ k⟩).read w = .corrected d) ∧
    (j ≠ k → ∀ x, (m.err ⟨w, 2 ^ j ^^^ 2 ^ k, 0⟩).read w ≠ .clean x ∧ (m.err ⟨w, 2 ^ j ^^^ 2 ^ k, 0⟩).read w ≠ .corrected x)

/-- R324: under each address order, the cell of an address gives back the address, so that no two addresses of a memory share a cell. Where the rules
leave a detail open, this states the model's reading or choice: log entry 19. -/
def Obligations.AddressOrdersAreOneToOne : Prop :=
  ∀ (mem order a c : Nat), order < 4 → cellOf mem order a = some c → addrOf mem order c = some a

/-- R24, R324, R330, R332, R384: a live BAR2 read of words that the light code passes answers their bytes; one that meets an uncorrectable word waits
for its page, and one of a lost stack or of a page being copied waits for that; a frozen one reads all ones; none arrives while the PCIe island is
down. A write of one aligned word stores exactly that word; a write of one byte of a clean word of HBM reads back and leaves every other byte; a
poisoned write leaves poison. R337: in test mode a raw write stores data and check byte as given, changes no other word and draws, for HBM, from the
Deadbolt's reservation; a raw read answers them; a checked read of a clean word answers 1 and its data, of a poisoned one 4, and changes no memory.
Where the rules leave a detail open, this states the model's reading or choice: log entries 19 and 24. -/
def Obligations.MemoryAccesses : Prop :=
  ((∀ (fn off n : Nat) (s : State), (s.hub.pcieDown = true → exec (.bar2Read fn off n) s = .next s) ∧
     (s.hub.pcieDown = false → s.hub.bar = .frozen →
       exec (.bar2Read fn off n) s = .next { s with hub := s.hub.emit (.memRead off (List.replicate n 0xFF) false) })) ∧
   (∀ (fn off n : Nat) (s : State), s.hub.hostIn = true → (∀ w ∈ s.bar2Words fn off n, s.cellLive w = true ∧ s.dbt.copying w = false) →
     ((∀ w ∈ s.bar2Words fn off n, (∃ d, s.mem.read w = .clean d) ∨ s.mem.read w = .poison) →
       exec (.bar2Read fn off n) s = .next { s with hub := s.hub.emit (.memRead off (s.bar2Bytes fn off n).1 (s.bar2Bytes fn off n).2) }) ∧
     ((∃ w ∈ s.bar2Words fn off n, ∃ d, s.mem.read w = .bad d) →
       ∃ t r p, exec (.bar2Read fn off n) s = .next t ∧ t.mem.held = s.mem.held ++ [r] ∧ r = ⟨fn, off, n, some p⟩ ∧ s.mem.badWords p ≠ [] ∧
         t = { s with mem := { s.mem with held := t.mem.held } })) ∧
   (∀ (fn off n : Nat) (s : State), s.hub.hostIn = true → (∃ w ∈ s.bar2Words fn off n, s.cellLive w = false ∨ s.dbt.copying w = true) →
     exec (.bar2Read fn off n) s = .next { s with mem := { s.mem with held := s.mem.held ++ [⟨fn, off, n, none⟩] } }) ∧
   (∀ (fn off c v : Nat) (s : State), s.canon → s.hub.hostIn = true → off % 8 = 0 → s.bar2Cell fn off = some c → v < 2 ^ 64 → kvSorted s.mem.dev = true →
     (∀ k a, k < 8 → s.bar2Cell fn (off + k) = some a → s.cellLive a = true) → s.pcLost c = false →
     ∃ t, exec (.bar2Write fn off (leBytes 8 v) false) s = .next t ∧ t.mem.read c = .clean v ∧
       (∀ a, a < c ∨ c + 8 ≤ a → memRead t.mem.cells a = memRead s.mem.cells a) ∧ t.mem.merge = s.mem.merge ∧ t = { s with mem := t.mem }) ∧
   (∀ (fn off c d : Nat) (b : Byte) (s : State), s.canon → s.hub.hostIn = true → s.bar2Cell fn off = some c → c < sramBase →
      s.mem.read (c / 8 * 8) = .clean d → kvSorted s.mem.dev = true → s.cellLive c = true → s.pcLost c = false →
      ∃ t, exec (.bar2Write fn off [b] false) s = .next t ∧ (t.mem.byte c).1 = b ∧
        (∀ a, a ≠ c → memRead t.mem.cells a = memRead s.mem.cells a) ∧ t.mem.merge = s.mem.merge ∧ t = { s with mem := t.mem }) ∧
   (∀ (fn off c : Nat) (bytes : List Byte) (s : State), s.canon → s.hub.hostIn = true → bytes ≠ [] → s.bar2Cell fn off = some c →
     (∀ k a, k < bytes.length → s.bar2Cell fn (off + k) = some a → s.cellLive a = true ∧ s.cellLive (a / 8 * 8) = true) →
     ∃ t, exec (.bar2Write fn off bytes true) s = .next t ∧ t.mem.read (c / 8 * 8) = .poison ∧ t = { s with mem := t.mem }) ∧
   (∀ (fn off : Nat) (bytes : List Byte) (poison : Bool) (s : State), s.hub.hostIn = false → exec (.bar2Write fn off bytes poison) s = .next s)) ∧
  (∀ (s : State) (w : Nat), s.canon → s.testWord = some w → kvSorted s.mem.dev = true →
     (∃ t, exec .rawWrite s = .next t ∧ t.mem.data w = s.hub.get64 MEM.TEST_DATA_LO.DATA 0 ∧
       checkByte (t.mem.data w) ^^^ t.mem.syn w = s.hub.get MEM.TEST_CHECK.CHECK ∧
       (∀ a, a < w ∨ w + 8 ≤ a → memRead t.mem.cells a = memRead s.mem.cells a) ∧ (∀ k, k ≠ w → t.mem.syn k = s.mem.syn k) ∧
       t.fab = (s.testTake w 2).fab ∧ t = { s with mem := t.mem, fab := t.fab }) ∧
     (∃ t, exec .rawRead s = .next t ∧ t.hub.get64 MEM.TEST_DATA_LO.DATA 0 = s.mem.data w ∧
       t.hub.get MEM.TEST_CHECK.CHECK = (checkByte (s.mem.data w) ^^^ s.mem.syn w) % 256 ∧ t = { s with hub := { s.hub with regs := t.hub.regs }, fab := t.fab }) ∧
     (∀ d, s.mem.read w = .clean d → ∃ t, exec .checkedRead s = .next t ∧ t.hub.get MEM.TEST_RESULT.RESULT = 1 ∧
       t.hub.get64 MEM.TEST_DATA_LO.DATA 0 = d ∧ t = { s with hub := { s.hub with regs := t.hub.regs }, fab := t.fab }) ∧
     (s.mem.read w = .poison → ∃ t, exec .checkedRead s = .next t ∧ t.hub.get MEM.TEST_RESULT.RESULT = 4 ∧ t = { s with hub := { s.hub with regs := t.hub.regs }, fab := t.fab }))

/-- R327, R330, R333, R334, R384: a stack that is due refreshes from the refresh reservation; a temperature reading is shown within its field and
turns HOT above 85 and back below 80; a page decode that the Deadbolt's reservation allows answers the reads that waited for it and writes the
corrected words; the scrubber only takes in the errors of a page it is not to read, and leaves the words of a clean page; a merge entry that is 64 hc
old is flushed and a younger one stays; a remap is done. R336: a parity error of a stack in service is counted, raised, logged and reported as a
transient; one of a stack out of service is nothing; a second error on a write also poisons its burst of eight words. Where the rules leave a detail
open, this states the model's reading or choice: log entries 24, 71, 72, 73, 130 and 131. -/
def Obligations.MemoryUpkeep : Prop :=
  ((∀ (k : Nat) (s : State),
     let due := s.stackLive k = true ∧ ((kvGet k s.mem.refreshed).map (· + s.hub.refreshNs k)).getD 0 ≤ s.hub.elapsed
     (due → exec (.hbmRefresh k) s =
       .next (({ s with mem := { s.mem with refreshed := kvPut k s.hub.elapsed s.mem.refreshed } } : State).hbmTake k 0x400 1312)) ∧
     (¬due → exec (.hbmRefresh k) s = .next s)) ∧
   (∀ (k : Nat) (x : Int) (s : State), s.canon → k < 2 → k < s.hub.unitCount 15 →
     ∃ t, exec (.hbmTempReading k x) s = .next t ∧ t.hub.get1 MEM.HBM_STAT.TEMP k = (min (max x 0) 255).toNat ∧
       (85 < x → t.hub.get1 MEM.HBM_STAT.HOT k = 1) ∧ (x < 80 → t.hub.get1 MEM.HBM_STAT.HOT k = 0) ∧
       (80 ≤ x → x ≤ 85 → t.hub.get1 MEM.HBM_STAT.HOT k = s.hub.get1 MEM.HBM_STAT.HOT k) ∧ t = { s with hub := t.hub }) ∧
   (∀ (cell : Nat) (s : State), s.decodeGo (pageOf cell) = true → s.mem.badWords (pageOf cell) = [] →
     ∃ t, exec (.pageDecodeDone cell []) s = .next t ∧ t.mem = { s.mem with held := s.mem.held.filter (·.page ≠ some (pageOf cell)) } ∧
       t.hub.out.length = s.hub.out.length + (s.mem.held.filter (·.page = some (pageOf cell))).length) ∧
   (∀ (cell : Nat) (s : State), s.decodeGo (pageOf cell) = true → s.mem.badWords (pageOf cell) ≠ [] → s.mem.decodes (pageOf cell) = true →
     ∃ t, exec (.pageDecodeDone cell []) s = .next t ∧ t.mem.cells = ((s.mem.badWords (pageOf cell)).foldl MemSt.fixWord s.mem).cells) ∧
   (∀ (cell : Nat) (s : State), s.decodeGo (pageOf cell) = false → exec (.pageDecodeDone cell []) s = .next s) ∧
   (∀ (cell : Nat) (errs : List CellErr) (s : State), s.hub.scrubs (pageOf cell) = false ∨ s.scrubDue (pageOf cell) = false →
     exec (.scrubVisit cell errs) s = .next { s with mem := errs.foldl MemSt.err s.mem }) ∧
   (∀ (cell : Nat) (s : State), s.canon → s.hub.scrubs (pageOf cell) = true → s.scrubDue (pageOf cell) = true →
     (∀ e ∈ s.mem.dev, ¬(pageOf cell ≤ e.1 ∧ e.1 < pageOf cell + pageSize (pageOf cell))) →
     ∃ t, exec (.scrubVisit cell []) s = .next t ∧ t.mem = { s.mem with scrub := t.mem.scrub } ∧
       (pageOf cell < sramBase → t.hub.get MEM.SCRUB_STAT.PROGRESS = pageOf cell % 2 ^ 35 / 2 ^ 27)) ∧
   (∀ (word : Nat) (s : State), s.hub.get GLB.STATUS.FROZEN ≠ 1 →
     let w := word / 8 * 8
     let g := (word - sramBase) / 2 ^ 22
     (∀ e d, kvGet g s.mem.merge = some [e] → e.word = w → e.taken + 64 ≤ s.hub.hcNow → s.mem.read w = .clean d →
       let v := leNat ((List.range 8).map fun k => (kvGet (w + k) e.bytes).getD (BitVec.ofNat 8 (d / 2 ^ (8 * k))))
       exec (.mergeFlushTimeout word) s = .next { s with mem := ({ s.mem with merge := kvDel g s.mem.merge } : MemSt).write w v }) ∧
     ((∀ l, kvGet g s.mem.merge = some l → l ≠ [] ∧ ∀ e ∈ l, e.word = w → s.hub.hcNow < e.taken + 64) → exec (.mergeFlushTimeout word) s = .next s)) ∧
   (∀ (ch : Nat) (s : State), ∃ t, exec (.pageRemapDone ch) s = .next t ∧ (∀ r ∈ t.dbt.remaps, r.channel = ch → r.done = true) ∧
     t.dbt.remaps.length = s.dbt.remaps.length ∧
     (s.mem.held = [] → (∀ e ∈ s.mem.dev, pageChannel (pageOf e.1) ≠ ch) → t = { s with dbt := { s.dbt with remaps := t.dbt.remaps } }))) ∧
  (∀ (stack pch cell : Nat) (wr second : Bool) (s : State),
     let ch := 15 * 2 ^ 24 + 64 * stack + pch
     let ev : Ev := { code := 0x1204, channel := ch, detail := [stack, pch] }
     let h := (s.hub.err MEM.CA_PARITY.COUNT 0 0x1209 0).raise ev
     (s.hub.stackUp stack = false → exec (.caParityError stack pch cell wr second) s = .next s) ∧
     (s.hub.stackUp stack = true → (wr && second) = false →
       exec (.caParityError stack pch cell wr second) s = .next ((({ s with hub := h } : State).memLog ev).transient ch)) ∧
     (s.hub.stackUp stack = true → memWf s.mem.cells = true → wr = true → second = true →
       ∃ u : State, exec (.caParityError stack pch cell wr second) s = .next ((u.memLog ev).transient ch) ∧ u.hub = h.errN MEM.POISON_WRITTEN.COUNT 0 8 0x1209 0 ∧
         (∀ k, k < 8 → u.mem.read (cell / 64 * 64 + 8 * k) = .poison) ∧ u = { s with hub := u.hub, mem := u.mem }))

/-! ### Host interface (chapter 19) -/

/-- R24, R137, R368, R373: a producer doorbell moves PROD once the words the host has placed stand in the ring; one out of bounds is counted and
flushes the FIFO; a consumer doorbell moves the host's index, but not past PROD; while the core is frozen the last value is kept; a function that does
not reach the queue pair rings nothing, and so does every one while the PCIe island is down. R74, R370: a command that stands next in an enabled
COMMAND queue pair is taken where its completion has room, and waits where it has none; a queue pair that takes no commands is left alone, and so is
every one during a pace emergency. Where the rules leave a detail open, this states the model's reading or choice: log entries 38 and 137. -/
def Obligations.DoorbellsAndCommands : Prop :=
  (∀ (fn q index : Nat) (s : State),
     (s.hub.pcieDown = true → (∀ words, exec (.dbProd fn q index words) s = .next s) ∧ exec (.dbCons fn q index) s = .next s) ∧
     (s.hub.reachesQp fn q = false → exec (.dbProd fn q index []) s = .next s ∧ exec (.dbCons fn q index) s = .next s) ∧
     (s.hub.pcieDown = false → ∀ words, exec (.dbProd fn q index words) s = exec (.dbProd fn q index [])
       { s with hub := s.hub.ringPut (2 * q) (s.hub.fifoProd (2 * q)) (toWords ((words.length + 7) / 8) words) }) ∧
     (q < 1024 → s.hub.reachesQp fn q = true → s.hub.pcieDown = false →
       (s.hub.bar = .live → (s.hub.qpOn q = false ∨ s.hub.qpCommand q = true) →
         (index % 2 ^ 32 + 2 ^ 32 - s.hub.fifoCons (2 * q)) % 2 ^ 32 ≤ s.hub.fifoWords (2 * q) →
         ∃ t, exec (.dbProd fn q index []) s = .next t ∧ t.hub.fifoProd (2 * q) = index % 2 ^ 32 ∧
           (∀ n, n ≠ 2 * q → t.hub.fifo n = s.hub.fifo n) ∧ t = { s with hub := { s.hub with fifos := t.hub.fifos } }) ∧
       (s.hub.bar = .live → s.canon → s.hub.fifoWords (2 * q) < (index % 2 ^ 32 + 2 ^ 32 - s.hub.fifoCons (2 * q)) % 2 ^ 32 →
         ∃ t, exec (.dbProd fn q index []) s = .next t ∧ t.hub.fifoUsed (2 * q) = 0 ∧
           (s.hub.rd (QSC.FIFO_BAD.COUNT.off (2 * q) 0) ≠ BitVec.allOnes 32 →
             t.hub.rd (QSC.FIFO_BAD.COUNT.off (2 * q) 0) = s.hub.rd (QSC.FIFO_BAD.COUNT.off (2 * q) 0) + 1)) ∧
       (s.hub.bar = .live → ∃ t, exec (.dbCons fn q index) s = .next t ∧
         t.hub.fifoCons (2 * q + 1) = (if laterThan 32 (s.hub.fifoIdx (2 * q + 1)) (index % 2 ^ 32) then s.hub.fifoIdx (2 * q + 1) else index % 2 ^ 32) ∧
         t = { s with hub := { s.hub with fifos := t.hub.fifos } }) ∧
       (s.hub.bar = .frozen → (∀ r, s.start.phase ≠ .warm r) →
         exec (.dbProd fn q index []) s = .next { s with hub := { s.hub with heldDb := kvPut (2 * q) (index % 2 ^ 32) s.hub.heldDb } } ∧
         exec (.dbCons fn q index) s = .next { s with hub := { s.hub with heldDb := kvPut (2 * q + 1) (index % 2 ^ 32) s.hub.heldDb } }))) ∧
  (∀ (q : Nat) (s : State),
     (∀ p i, s.takesCommands = true → s.emergency = false → s.hub.qpOn q = true → s.hub.qpCommand q = true → s.hub.fifoPeek (2 * q) = .item p i →
       (s.hub.completionRoom q = true → exec (.commandTake q) s = .next { s with hub := (s.hub.fifoAdvance (2 * q) i).takeCommand q p }) ∧
       (s.hub.completionRoom q = false → exec (.commandTake q) s = .next s)) ∧
     (s.takesCommands = false ∨ s.emergency = true ∨ s.hub.qpOn q = false ∨ s.hub.qpCommand q = false → exec (.commandTake q) s = .next s))

/-- R367: a write of a queue pair's registers takes its bits, and one that changes ENABLE or a ring address leaves both rings empty; a write of the
writeback address changes that register alone. Table 19.6: a VF reset disables its queue pairs and returns its window to reset, and a reset of a VF
that is not enabled is nothing; a link loss disables every queue pair, forgets the VFs and takes the PCIe island down; a link up brings it back, shows
what was trained and enables the VFs the host asks for. Where the rules leave a detail open, this states the model's reading or choice: log entries 38
and 79. -/
def Obligations.QueuePairsAndResets : Prop :=
  (∀ (fn off : Nat) (val : Word) (s : State), s.canon → s.hub.hostIn = true → 0x2004000 ≤ off → off < 0x200C000 → off % 4 = 0 → (off - 0x2004000) % 32 ≤ 0x18 →
     s.hub.reachesQp fn ((off - 0x2004000) / 32) = true →
     ∃ t, exec (.qpCfgWrite fn off val) s = .next t ∧
       t.hub.rd off = (if (off - 0x2004000) % 32 = 0 then val &&& ~~~(0x1FFFF800 : Word) else val) ∧
       ((off - 0x2004000) % 32 = 0 → (s.hub.rd off).getLsbD 31 ≠ val.getLsbD 31 →
         t.hub.fifoUsed (2 * ((off - 0x2004000) / 32)) = 0 ∧ t.hub.fifoUsed (2 * ((off - 0x2004000) / 32) + 1) = 0) ∧
       ((off - 0x2004000) % 32 ≠ 0 → (off - 0x2004000) % 32 ≤ 0x10 → s.hub.rd off ≠ val →
         t.hub.fifoUsed (2 * ((off - 0x2004000) / 32)) = 0 ∧ t.hub.fifoUsed (2 * ((off - 0x2004000) / 32) + 1) = 0) ∧
       (0x10 < (off - 0x2004000) % 32 → t = { s with hub := s.hub.wr off val })) ∧
  ((∀ (vf : Nat) (s : State), s.canon → 0 < vf → vf ≤ s.hub.numVfs → vf < 64 →
     ∃ t, exec (.vfFlr vf) s = .next t ∧ (∀ q, q < 1024 → s.hub.owner HIF.VF_QP.BASE q = vf → t.hub.get1 HIF.QP_CFG.ENABLE q = 0) ∧
       (∀ k, k / 0x4000000 = vf → t.hub.rd k = regReset k) ∧ t = { s with hub := t.hub }) ∧
   (∀ (vf : Nat) (s : State), vf = 0 ∨ s.hub.numVfs < vf → exec (.vfFlr vf) s = .next s) ∧
   (∀ s : State, s.canon → ∃ t, exec .pcieLinkDown s = .next t ∧ (∀ q, q < 1024 → t.hub.get1 HIF.QP_CFG.ENABLE q = 0) ∧ t.hub.numVfs = 0 ∧
     t.hub.linkLost = true ∧ t.hub.get HIF.LINK.GEN = 0 ∧ t.hub.get HIF.LINK.WIDTH = 0 ∧ .pcie ∈ t.fab.down ∧ t.mem = s.mem) ∧
   (∀ (gen width mps vfs : Nat) (s : State), s.canon → gen < 8 → width ≤ 16 →
     ∃ t, exec (.pcieLinkUp gen width mps vfs) s = .next t ∧ t.hub.get HIF.LINK.GEN = gen ∧ t.hub.get HIF.LINK.WIDTH = width ∧
       t.hub.get HIF.LINK.MPS = min mps 5 ∧ t.hub.numVfs = min vfs 63 ∧ t.hub.linkLost = false ∧ .pcie ∉ t.fab.down))

/-! ### Encoders (chapter 8) -/

/-- R158, R159, R163, R177: a header record that fits and is of the next or a later frame is held, a poisoned or misfit one is counted, and where 512
are held the record stays with its sender; a picture takes the next number unless it is discarded or the unit takes none by descriptor; at a stripe's
input deadline a Live channel's input that is not there counts as missing once, and before it, or where the lines are there, nothing happens. R161,
R163: once its time has come a complete row of a Live channel leaves in its turn, and one that is not complete, or not in turn, is counted late; a
late row leaves, marked, once it is complete and in turn; before its time, of another channel, and of a row that has left or is late already, the
release time does nothing. All of frames that began on the paths in force. Where the rules leave a detail open, this states the model's reading or
choice: log entries 40, 112 and 115. -/
def Obligations.EncoderInputsAndRows : Prop :=
  ((∀ (u n : Nat) (rec : List Byte) (s : State),
     let h := hdrOf rec
     exec (.headerRecordReceive u n true rec) s = .next (((s.encErr ENC.HDR_BAD.COUNT u 1).encErr ENC.POISON.COUNT u 1).encRaise 0x0809 u n h.frame h.stripe) ∧
     (s.encGeom u n h.rend = none → exec (.headerRecordReceive u n false rec) s = .next (s.hdrBad u n h.frame h.stripe)) ∧
     (∀ g, s.encGeom u n h.rend = some g →
       let misfit := 2 < h.kind ∨ 7 < h.rend ∨ (h.kind = 1 ∧ ((g.p.codec = 1 ∧ bodyU8 rec 2 ≠ 0) ∨ g.p.tc ≤ bodyU8 rec 2)) ∨ (h.kind = 1 ∧ g.n ≤ h.stripe)
       (misfit → exec (.headerRecordReceive u n false rec) s = .next (s.hdrBad u n h.frame h.stripe)) ∧
       (¬misfit → 512 ≤ s.hdrHeld u n h.rend → exec (.headerRecordReceive u n false rec) s = .next s) ∧
       (¬misfit → s.hdrHeld u n h.rend < 512 →
         h.frame = (kvGet h.rend (s.enc.side u n).started).getD 0 ∨ laterThan 32 ((kvGet h.rend (s.enc.side u n).started).getD 0) h.frame = true →
         ∃ t, exec (.headerRecordReceive u n false rec) s = .next t ∧ (t.enc.side u n).held = (s.enc.side u n).held ++ [h] ∧
           t = { s with enc := { s.enc with sides := t.enc.sides } }))) ∧
   (∀ (u n : Nat) (desc : List Byte) (s : State),
     (bodyN desc 2 2 % 2 = 1 ∨ (s.encPers u (s.fab.cls n)).src1 = false → exec (.pictureDescriptorReceive u n desc) s = .next s) ∧
     (bodyN desc 2 2 % 2 = 0 → (s.encPers u (s.fab.cls n)).src1 = true →
       ∃ t, exec (.pictureDescriptorReceive u n desc) s = .next t ∧ (t.enc.side u n).numbered = ((s.enc.side u n).numbered + 1) % 2 ^ 32 ∧
         kvGet (s.enc.side u n).numbered (t.enc.side u n).pics = some (bodyN desc 0x14 4 * 1000000000 + bodyN desc 0x10 4) ∧
         t = { s with enc := { s.enc with sides := t.enc.sides } })) ∧
   (∀ (u n frame k cf : Nat) (g : EncGeom) (s : State), s.encGeom u n 0 = some g → kvGet frame (s.enc.side u n).pics = some cf →
     let stays := g.live = false ∨ g.n ≤ k ∨ (s.enc.side u n).missed.contains (frame, k) = true ∨ s.reached g (g.deadline 0 cf k) 20000 = false ∨
       (g.p.src1 = false ∧ (s.enc.side u n).hasInput g 0 frame k = true)
     (stays → exec (.inputDeadline u n frame k) s = .next s) ∧
     (¬stays → ∃ t, exec (.inputDeadline u n frame k) s = .next t ∧ (frame, k) ∈ (t.enc.side u n).missed ∧
       (s.hub.get1 ENC.STATUS.SASH u ≠ n → t.hub = ((s.encErr ENC.IN_MISS.COUNT u 1).encRaise 0x0804 u n frame k).hub) ∧
       t = { s with hub := t.hub, enc := { s.enc with sides := t.enc.sides, shares := t.enc.shares } }))) ∧
  (∀ (u n r frame row : Nat) (g : EncGeom) (f : EncFrame) (s : State), (s.enc.share u n r).frame frame = some f → s.encGeomOf u n r f.cfg = some g →
     (∀ d, kvGet n s.fab.olds = some d → f.epoch = (kvGet n s.fab.epochs).getD false) →
     let stays := g.live = false ∨ g.rows ≤ row ∨ row < f.rows ∨ row ∈ f.lateRows ∨ s.reached g (g.rowTime r f.cf row) 0 = false
     (stays → exec (.releaseRowTime u n r frame row) s = .next s) ∧
     (¬stays → row = f.rows → g.rowDone f row = true → exec (.releaseRowTime u n r frame row) s = .next (s.encRelease u n r g f row false)) ∧
     (¬stays → ¬(row = f.rows ∧ g.rowDone f row = true) →
       ∃ t f1, exec (.releaseRowTime u n r frame row) s = .next t ∧ (t.enc.share u n r).frame frame = some f1 ∧ f1 = { f with lateRows := f.lateRows ++ [row] } ∧
         t = { s with hub := ((s.encErr ENC.LATE.COUNT u 1).encRaise 0x0803 u n frame (row * g.g)).hub
                      enc := { s.enc with shares := t.enc.shares, rends := t.enc.rends } }) ∧
     (row ∈ f.lateRows → row = f.rows → g.rowDone f row = true → exec (.lateRowRelease u n r frame row) s = .next (s.encRelease u n r g f row true)) ∧
     (¬(row ∈ f.lateRows ∧ row = f.rows ∧ g.rowDone f row = true) → exec (.lateRowRelease u n r frame row) s = .next s))

/-- R168, R169, R175: what mode a stripe may take within CAP; a stripe after the first begins in its turn once its input is there or missing, and
waits for it before; a block coded in its stripe's mode and within CAP adds its bits; at the deadline what is left of a Live stripe is coded COPY and
the stripe ends, and before it nothing happens. All of frames that began on the paths in force. Where the rules leave a detail open, this states the
model's reading or choice: log entries 41 and 117. -/
def Obligations.EncoderStripes : Prop :=
  (∀ mode bc fl cp later cap : Nat,
    (encDecide mode bc fl cp later cap = 0 → mode = 0 ∨ 3 ≤ mode) ∧ (encDecide mode bc fl cp later cap = 0 → bc + (later + 1) * fl ≤ cap) ∧
    (encDecide mode bc fl cp later cap = 1 → bc + fl + later * cp ≤ cap) ∧ (mode = 2 → encDecide mode bc fl cp later cap = 2)) ∧
  (∀ (x : EncStart) (g : EncGeom) (f : EncFrame) (s : State), x.k ≠ 0 → (s.enc.share x.unit x.sash x.rend).last = some f →
    (s.enc.share x.unit x.sash x.rend).frame f.num = some f → s.encGeomOf x.unit x.sash x.rend f.cfg = some g →
    (∀ d, kvGet x.sash s.fab.olds = some d → f.epoch = (kvGet x.sash s.fab.epochs).getD false) →
    let turn := f.stripes.all (·.done) = true ∧ f.stripes.length = x.k ∧ x.k < g.n ∧ s.encMay g = true
    let input := (s.enc.side x.unit x.sash).hasInput g x.rend f.num x.k || (s.enc.side x.unit x.sash).lacks g x.rend f.num x.k
    (turn → input = true → exec (.stripeStart x) s = .next (s.stripeBegin x g f)) ∧
    (turn → input = false → exec (.stripeStart x) s = .next { s with hub := s.hub.encStatus x.unit 2 3 0 }) ∧
    (¬turn → exec (.stripeStart x) s = .next s)) ∧
  (∀ (x : EncStart) (s : State), x.k = 0 → (s.enc.share x.unit x.sash x.rend).frames = [] →
    exec (.stripeStart x) s = .next ((s.frameBoundary 1 x.unit).stripeStart x)) ∧
  (∀ (x : EncBlock) (g : EncGeom) (f : EncFrame) (t : EncStripe) (s : State), (s.enc.share x.unit x.sash x.rend).last = some f →
    (s.enc.share x.unit x.sash x.rend).frame f.num = some f → s.encGeomOf x.unit x.sash x.rend f.cfg = some g →
    (∀ d, kvGet x.sash s.fab.olds = some d → f.epoch = (kvGet x.sash s.fab.epochs).getD false) →
    f.stripes.find? (!·.done) = some t → t.coded + 1 < g.b → s.encMay g = true → x.mismatch = false → x.poison = 0 → f.pane = false →
    t.mode ≠ 2 → f.bc + t.bits + x.bits + g.cpb * (g.b - t.coded - 1) + (g.n - 1 - t.k) * g.cp ≤ f.cap →
    ∃ w f1 t1, exec (.blockCoded x) s = .next w ∧ (w.enc.share x.unit x.sash x.rend).last = some f1 ∧ f1.stripes.find? (!·.done) = some t1 ∧
      t1.coded = t.coded + 1 ∧ t1.bits = t.bits + x.bits ∧ t1.hc = t.hc + x.hc ∧ t1.mode = t.mode ∧ f1.bc = f.bc ∧
      w = { s with enc := { s.enc with shares := w.enc.shares } }) ∧
  (∀ (u n r frame k : Nat) (bits : List Nat) (g : EncGeom) (f : EncFrame) (t : EncStripe) (s : State), (s.enc.share u n r).frame frame = some f →
    s.encGeomOf u n r f.cfg = some g → (∀ d, kvGet n s.fab.olds = some d → f.epoch = (kvGet n s.fab.epochs).getD false) →
    f.stripes.find? (·.k = k) = some t →
    (g.live = false ∨ t.done = true ∨ s.reached g (g.deadline r f.cf k) 0 = false → exec (.codingDeadline u n r frame k bits) s = .next s) ∧
    (g.live = true → t.done = false → k < g.n → k ≤ f.stripes.length → s.reached g (g.deadline r f.cf k) 0 = true →
      ∃ f1 t1, exec (.codingDeadline u n r frame k bits) s = .next ((s.encErr ENC.DEMOTED.COUNT u (g.b - t.coded)).stripeEnd u n r g f1 t1) ∧
        t1.k = k ∧ t1.coded = g.b ∧ t1.bits = ((List.range (g.b - t.coded)).map fun i => bits.getD i 0).foldl (· + ·) t.bits ∧ t1.mode = 2 ∧
        f1.demoted = f.demoted + (g.b - t.coded) ∧ f1.num = f.num ∧ f1.bc = f.bc))

/-- R165, R171, Table 8.12: an accepted configuration is in force at once where no frame has begun under it, and else waits for the next frame start;
a LATCHED one is held; a refused one answers its status alone; a refresh request reaches its rendition; statistics are those of the last publication;
without ENC units both answer NOT_FOUND. R181, R185, Table 9.4: DEC_OPEN takes slots for a context of a video stream on a unit of the sash, or answers
IN_USE where there is one and NOT_FOUND without the stream; DEC_CLOSE leaves a context CLOSING; DEC_STATS answers the last publication; of no context
both answer NOT_FOUND. Where the rules leave a detail open, this states the model's reading or choice: log entries 29, 40 and 45. -/
def Obligations.ImageServices : Prop :=
  (∀ (e : CmdEnv) (body : List Byte) (s : State),
     let n := bodyN body 0 2
     let key := 8 * n + bodyU8 body 2
     (∀ st, s.encRefused e body = some st → exec (.encConfig e body) s = .next (s.done e 0x0301 st [])) ∧
     (s.encRefused e body = none → e.latched = true → exec (.encConfig e body) s = .next (s.hold e 0x0301 (.encConfig e body))) ∧
     (s.encRefused e body = none → e.latched = false →
       ∃ t x, exec (.encConfig e body) s = .next t ∧ kvGet key t.enc.rends = some x ∧
         (kvGet key s.enc.rends = none → x = { cfg := encCfgOf body, full := (encCfgOf body).initial }) ∧
         (∀ y, kvGet key s.enc.rends = some y → y.frame ≠ none → x = { y with next := some (encCfgOf body) }) ∧
         (∀ y, kvGet key s.enc.rends = some y → y.frame = none → x = { y with cfg := encCfgOf body, next := none, full := (encCfgOf body).initial }) ∧
         (∀ k, k ≠ key → kvGet k t.enc.rends = kvGet k s.enc.rends)) ∧
     (s.encUnits n = [] → exec (.encRefresh e body) s = .next (s.done e 0x0302 3 []) ∧ exec (.encStats e body) s = .next (s.done e 0x0303 3 [])) ∧
     (s.encUnits n ≠ [] → s.hub.reachesSash e.fn n = true →
       (∀ r x, r < 8 → bodyU8 body 2 = 2 ^ r → kvGet (8 * n + r) s.enc.rends = some x → x.panes = none → x.req = none →
         ∃ t, exec (.encRefresh e body) s = .next t ∧
           kvGet (8 * n + r) t.enc.rends = some { x with req := some (s.hub.elapsed, s.hub.time.total, bodyU8 body 3 != 0) } ∧
           t = ({ s with enc := { s.enc with rends := t.enc.rends } } : State).done e 0x0302 0 []) ∧
       (∀ x, kvGet key s.enc.rends = some x →
         ∃ res, exec (.encStats e body) s = .next (s.done e 0x0303 0 res) ∧ res.length = 40 ∧ res.take 8 = leBytes 8 x.pub.frames ∧
           (res.drop 8).take 8 = leBytes 8 x.pub.bytes))) ∧
  (∀ (e : CmdEnv) (body : List Byte) (s : State),
     let n := bodyN body 0 2
     (s.hub.reachesSash e.fn n = true → s.fab.sashes.any (·.id = n) = true →
       (kvGet (bodyN body 4 2) s.fwd.ins = none → exec (.decOpen e body) s = .next (s.done e 0x0401 3 [])) ∧
       (∀ x, kvGet (bodyN body 4 2) s.fwd.ins = some x →
         (kvHas (ctxKey n (bodyN body 4 2)) s.dec.ctxs = true → exec (.decOpen e body) s = .next (s.done e 0x0401 2 [])) ∧
         (∀ q offs, kvHas (ctxKey n (bodyN body 4 2)) s.dec.ctxs = false → refType (bodyN body 2 2) = 2 →
           (s.fab.unitsOf n 2).contains (refInst (bodyN body 2 2)) = true → 1 ≤ x.codec → x.codec ≤ 4 →
           (s.dec.ctxs.filter (·.2.unit = refInst (bodyN body 2 2))).length < 512 →
           s.fab.part (bodyN (s.fab.persAt 2 (refInst (bodyN body 2 2))).2 0 2 % 4096) = some q →
           takeSlots (slotSize (bodyN body 8 2) (bodyN body 10 2)) q.size (s.slotsIn (bodyN (s.fab.persAt 2 (refInst (bodyN body 2 2))).2 0 2 % 4096))
             (min (max (bodyU8 body 7) 2) 16) = some offs →
           ∃ t c, exec (.decOpen e body) s = .next t ∧ kvGet (ctxKey n (bodyN body 4 2)) t.dec.ctxs = some c ∧ c.unit = refInst (bodyN body 2 2) ∧
             c.maxW = bodyN body 8 2 ∧ c.maxH = bodyN body 10 2 ∧ c.slots.map (·.off) = offs ∧ c.cnt.state = 0 ∧ c.pkts = [] ∧
             t = ({ s with
               hub := s.hub.set1 DEC.STATUS.CONTEXTS (refInst (bodyN body 2 2)) (s.hub.get1 DEC.STATUS.CONTEXTS (refInst (bodyN body 2 2)) + 1)
               dec := { s.dec with ctxs := t.dec.ctxs } } : State).done e 0x0401 0 []))) ∧
     (∀ c, kvGet (ctxKey n (bodyN body 2 2)) s.dec.ctxs = some c → s.hub.reachesSash e.fn n = true →
       (∃ t, exec (.decClose e body) s = .next t ∧
         kvGet (ctxKey n (bodyN body 2 2)) t.dec.ctxs = some { c with cnt := { c.cnt with state := 4 } } ∧
         t = ({ s with dec := { s.dec with ctxs := t.dec.ctxs } } : State).done e 0x0402 0 []) ∧
       (∃ res, exec (.decStats e body) s = .next (s.done e 0x0403 0 res) ∧ res.length = 24 ∧ res.take 4 = leBytes 4 c.pub.state ∧
         (res.drop 4).take 8 = leBytes 8 c.pub.pics)) ∧
     (kvGet (ctxKey n (bodyN body 2 2)) s.dec.ctxs = none →
       exec (.decClose e body) s = .next (s.done e 0x0402 3 []) ∧ exec (.decStats e body) s = .next (s.done e 0x0403 3 [])))

/-! ### Decoders (chapter 9) -/

/-- R180, R182–R185: a packet of a context of a running unit is buffered, unless it is old or would overflow; a CLOSING context is removed by the
first packet of the next frame; a frame still incomplete once its time has passed is lost; where no Latch and no personality waits, the frame at the
head decodes only when it is whole, allowed, and a slot is free; a consumer's release lowers a slot's holds. R192, R197: a picture waits at its port
unless it is discarded; at an instant, once each, a Live composer, and another that is free outside a pace emergency, composes a frame where no Latch
and no personality waits, and another that is not free keeps the instant for later; each line that completes when it is due moves the oldest frame on,
and its last line ends it. Lines of frames that began on the paths in force, not stored in memory. Where the rules leave a detail open, this states
the model's reading or choice: log entries 45, 46 and 120. -/
def Obligations.DecodingAndComposing : Prop :=
  ((∀ (n stream : Nat) (p : DecIn) (c : DecCtx) (s : State), kvGet (ctxKey n stream) s.dec.ctxs = some c →
     (c.cnt.state = 4 → p.start = true → exec (.decPacketReceive n stream p) s = .next (s.ctxClose n stream)) ∧
     (¬(c.cnt.state = 4 ∧ p.start = true) →
       (s.decOn c.unit = false ∨ laterThan 16 p.seq (c.next.getD p.seq) = true → exec (.decPacketReceive n stream p) s = .next s) ∧
       (s.decOn c.unit = true → laterThan 16 p.seq (c.next.getD p.seq) = false → c.pkts.foldl (fun a q => a + q.len) 0 + p.len ≤ 4194304 →
         ∃ t d, exec (.decPacketReceive n stream p) s = .next t ∧ kvGet (ctxKey n stream) t.dec.ctxs = some d ∧ d.next = some (c.next.getD p.seq) ∧
           (∃ q ∈ d.pkts, q.seq = p.seq) ∧ (∀ q ∈ c.pkts, q ∈ d.pkts) ∧ t = { s with dec := { s.dec with ctxs := t.dec.ctxs } }) ∧
       (s.decOn c.unit = true → laterThan 16 p.seq (c.next.getD p.seq) = false → 4194304 < c.pkts.foldl (fun a q => a + q.len) 0 + p.len →
         exec (.decPacketReceive n stream p) s = .next ((s.decErr DEC.IN_DROP.COUNT c.unit).decRaise 0x0905 c.unit n stream)))) ∧
   (∀ (n stream m : Nat) (c d : DecCtx) (at_ : Nat) (s : State), kvGet (ctxKey n stream) s.dec.ctxs = some c → c.next = some m → c.loseHead = some (d, at_) →
     c.cnt.state ≠ 4 →
     (c.head.isSome = true ∨ s.hub.elapsed < at_ + 1000000 * s.decWait c.unit → exec (.decFrameLostTimer n stream) s = .next s) ∧
     (c.head = none → at_ + 1000000 * s.decWait c.unit ≤ s.hub.elapsed →
       exec (.decFrameLostTimer n stream) s = .next ((s.decErr DEC.LOST.COUNT c.unit).setCtx n stream { d with cnt := { d.cnt with lost := d.cnt.lost + 1 } }))) ∧
   (∀ (n stream : Nat) (p : DecPicture) (c : DecCtx) (s : State), kvGet (ctxKey n stream) s.dec.ctxs = some c → s.lch.pend = [] → s.lch.waiting = [] →
     s.ldr.persWait = [] →
     (c.head = none ∨ s.decOn c.unit = false → exec (.decFrameDecode n stream p) s = .next s) ∧
     (∀ f rest, c.head = some (f :: rest) → s.decOn c.unit = true → (∀ t, c.tu = some t → t.ts = f.ts) →
       p.w ≤ (s.decLimit c).1 → p.h ≤ (s.decLimit c).2 →
       decAllows (((kvGet stream s.fwd.ins).map (·.codec)).getD 0) p.profile p.chroma p.depth = true → c.cnt.state ≠ 2 → c.cnt.state ≠ 3 → c.cnt.state ≠ 4 →
       (c.free = none → exec (.decFrameDecode n stream p) s = .next s) ∧
       (∀ k, c.free = some k →
         let c1 : DecCtx := { c with next := some ((f.seq + rest.length + 1) % 65536), pkts := c.pkts.drop (rest.length + 1) }
         ((rest.getLast?.getD f).m = false → exec (.decFrameDecode n stream p) s = .next (s.decPicture n stream c1 p f k)) ∧
         ((rest.getLast?.getD f).m = true → exec (.decFrameDecode n stream p) s = .next ((s.decPicture n stream c1 p f k).decOutput n stream))))) ∧
   (∀ (part off : Nat) (s : State), ∃ t, exec (.pictureRelease part off) s = .next t ∧
     t.dec.ctxs.map Prod.fst = s.dec.ctxs.map Prod.fst ∧ (∀ k c, kvGet k s.dec.ctxs = some c → c.part ≠ part → kvGet k t.dec.ctxs = some c) ∧
     (∀ k c d, kvGet k s.dec.ctxs = some c → kvGet k t.dec.ctxs = some d → c.part = part →
       d.slots.map (·.held) = c.slots.map fun x => if x.off = off then x.held - 1 else x.held) ∧
     t = { s with dec := t.dec, cmp := { s.cmp with units := t.cmp.units } })) ∧
  ((∀ (u port : Nat) (desc : List Byte) (s : State),
     (bodyN desc 2 2 % 2 = 1 ∨ 8 ≤ port ∨ (s.cmpPers u).code ≠ 1 → exec (.cmpDescriptorReceive u port desc) s = .next s) ∧
     (bodyN desc 2 2 % 2 = 0 → port < 8 → (s.cmpPers u).code = 1 →
       ∃ t d, exec (.cmpDescriptorReceive u port desc) s = .next t ∧ ((t.cmp.unit u).layer port).queue = ((s.cmp.unit u).layer port).queue ++ [d] ∧
         d.part = bodyN desc 0 2 ∧ d.off = bodyN desc 8 8 ∧ d.w = bodyN desc 0x18 2 ∧ d.h = bodyN desc 0x1A 2 ∧ d.stream = bodyN desc 0x1E 2 ∧
         (∀ l, l ≠ port → (t.cmp.unit u).layer l = (s.cmp.unit u).layer l) ∧ (t.cmp.unit u).frames = (s.cmp.unit u).frames ∧
         t = { s with cmp := { s.cmp with units := t.cmp.units } })) ∧
   (∀ (u : Nat) (tiles : List Nat) (s : State), (s.cmpPers u).code = 1 →
     let tm := instantAt (s.cmpPers u).num (s.cmpPers u).den s.hub.time.total
     let new := (s.cmp.unit u).last ≠ some tm ∧ (s.cmp.unit u).passed.getLast? ≠ some tm
     (new → s.cmpClass u ≠ 0 → (s.cmp.unit u).frames ≠ [] →
       ∃ t, exec (.cmpFrameInstant u tiles) s = .next t ∧
         (t.cmp.unit u).passed = (s.cmp.unit u).passed ++ [tm] ∧
         (t.cmp.unit u).frames = (s.cmp.unit u).frames ∧ t = { s with cmp := { s.cmp with units := t.cmp.units } }) ∧
     (s.lch.pend = [] → s.lch.waiting = [] → s.ldr.persWait = [] →
       (new → s.cmpClass u = 0 ∨ ((s.cmp.unit u).frames = [] ∧ s.emergency = false) →
         exec (.cmpFrameInstant u tiles) s = .next (s.cmpCompose u tm tiles [])) ∧
       (¬new → exec (.cmpFrameInstant u tiles) s = .next s))) ∧
   (∀ (u : Nat) (video : List CmpVideo) (s : State),
     ((s.cmp.unit u).frames = [] → (s.cmp.unit u).passed = [] ∨ s.emergency = true → exec (.cmpLineComplete u video) s = .next s) ∧
     (∀ f rest, (s.cmp.unit u).frames = f :: rest → s.gfxLive f = true → f.slot = none → (s.cmpPers u).mode1 = false →
       (∀ d, kvGet f.sash s.fab.olds = some d → f.epoch = (kvGet f.sash s.fab.epochs).getD false) →
       let k := (s.cmpPers u).num * (s.cmpPers u).h
       let due := f.tm * k + 1000000000 * (s.cmpPers u).den * f.lines ≤ s.hub.time.total * k
       (s.cmpClass u = 0 → ¬due → exec (.cmpLineComplete u video) s = .next s) ∧
       ((s.cmpClass u = 0 ∧ due) ∨ (s.cmpClass u ≠ 0 ∧ s.emergency = false) →
         (f.lines + 1 < (s.cmpPers u).h → ∃ t c, exec (.cmpLineComplete u video) s = .next t ∧
           (t.cmp.unit u).frames = { f with lines := f.lines + 1, chroma := c } :: rest ∧
           t = { s with hub := t.hub, enc := { s.enc with sides := t.enc.sides }, cmp := { s.cmp with units := t.cmp.units } }) ∧
         (f.lines + 1 = (s.cmpPers u).h → rest = [] → (s.cmp.unit u).passed = [] → (s.cmp.unit u).toFree = [] → ∃ t, exec (.cmpLineComplete u video) s = .next t ∧
           (t.cmp.unit u).frames = [] ∧ (t.cmp.unit u).ended = (f.tm :: (s.cmp.unit u).ended).take 4 ∧
           t = { s with hub := t.hub, enc := { s.enc with sides := t.enc.sides }, cmp := { s.cmp with units := t.cmp.units } })))))

/-! ### Starts (chapter 21) -/

/-- Frames of the image units' inputs and queries and of the broadcast timers: what each next state leaves unchanged. -/
def Obligations.MediaFrames : Prop :=
  ∀ (e : CmdEnv) (body : List Byte) (u n k : Nat) (y : Bool) (rec : List Byte) (s : State),
    (∀ c ∈ [Instr.headerRecordReceive u n y rec, .pictureDescriptorReceive u n rec], ∃ t : State, exec c s = .next t ∧ t = { s with hub := t.hub, enc := t.enc }) ∧
    (∀ c ∈ [Instr.encStats e body, .decStats e body, .splStats e body, .linkStats e body],
      ∃ t : State, exec c s = .next t ∧ t = { s with hub := t.hub, lch := t.lch }) ∧
    (∃ t : State, exec (.templateRecordReceive u rec y) s = .next t ∧ t = { s with hub := t.hub, spl := t.spl }) ∧
    (∀ c ∈ [Instr.splRecvSet e body, .splRecvDel e body], ∃ t : State, exec c s = .next t ∧ t = { s with hub := t.hub, spl := t.spl, lch := t.lch }) ∧
    (∀ c ∈ [Instr.vinPathTimeout u n k y, .vinSignalTimeout u, .sdiTxFrame u, .tsoRowReceive u n k k k k, .psiTimer u],
      ∃ t : State, exec c s = .next t ∧ t = { s with hub := t.hub, bio := t.bio })

/-! ### Splicers (chapter 10) -/

/-- R210, R211, R214, R215: a good template record is held under its number, and the one it replaces stays for the frames that use it; an unusable or
poisoned one is counted; a pane chunk joins its pane's payload for its splice frame, and an idle unit takes none; before its deadline a splice frame's
deadline does nothing, and at it a refresh that was due and has not come is counted and asked for again. R205, R213, R216, R218, R220, Table 10.12: a
pane sheet that fits its rendition waits for the next frame start and one of 0 panes ends pane mode; an import asks the pane's device; receivers are
added, set and deleted, or their change is held for its Latch, and a refused one answers its reason; a refresh request needs a frame; statistics are
those of the last publication. Where the rules leave a detail open, this states the model's reading or choice: log entries 47, 48 and 121. -/
def Obligations.Splicing : Prop :=
  ((∀ (u : Nat) (rec : List Byte) (s : State),
     let id := bodyN rec 0 2 % 256
     let others := s.spl.templates.filter fun t => t.1 / 256 = u ∧ t.1 ≠ 256 * u + id
     let bad := (bodyU8 rec 2 ≠ 1 ∧ bodyU8 rec 2 ≠ 3 ∧ bodyU8 rec 2 ≠ 4) ∨ bodyU8 rec 3 = 0 ∨ 256 ≤ others.length ∨
       1048576 < others.foldl (fun a t => a + t.2.size) rec.length
     exec (.templateRecordReceive u rec true) s = .next ((s.splErr SPL.POISON.COUNT u).splRaise 0x0B05 u id) ∧
     (bad → ∃ t, exec (.templateRecordReceive u rec false) s = .next t ∧ t.spl = s.spl ∧
       t.hub = (s.splErr SPL.TPL_BAD.COUNT u).hub.raise { code := 0x0B04, inst := u }) ∧
     (¬bad → ∃ t x, exec (.templateRecordReceive u rec false) s = .next t ∧ kvGet (256 * u + id) t.spl.templates = some x ∧
       x.codec = bodyU8 rec 2 ∧ x.npos = min (bodyU8 rec 3) 64 ∧ x.w64 = bodyN rec 4 2 ∧ x.h64 = bodyN rec 6 2 ∧ x.size = rec.length ∧
       (∀ old, kvGet (256 * u + id) s.spl.templates = some old → (256 * u + id, old) ∈ t.spl.replaced) ∧
       t = { s with spl := { s.spl with templates := t.spl.templates, replaced := t.spl.replaced } })) ∧
   (∀ (u : Nat) (chunk : List Byte) (poison : Bool) (s : State),
     ((s.fab.persAt 4 u).1 ≠ 1 → exec (.paneChunkReceive u chunk poison) s = .next s) ∧
     (poison = false → (s.fab.persAt 4 u).1 = 1 → s.spl.recvs = [] → s.spl.store = [] → (s.spl.stream u (bodyN chunk 4 2 % 1024)).exports = [] →
       bodyN chunk 4 2 < 32768 → chunk.length - 16 ≤ ((s.fab.part (bodyN (s.fab.persAt 4 u).2 0 2 % 4096)).map (·.size)).getD 0 →
       ∀ frame, instantAt (s.splFps u).1 (s.splFps u).2 (bodyN chunk 12 4 * 1000000000 + bodyN chunk 8 4) = frame →
       s.hub.time.total < frame + s.spl.waitNs →
       exec (.paneChunkReceive u chunk poison) s = .next { s with spl := { s.spl with
         store := [{ spl := u, stream := bodyN chunk 4 2 % 1024, frame := frame, bytes := chunk.drop 16, flags := bodyU8 chunk 6, qp := bodyU8 chunk 7, done := false }]
         replaced := [] } })) ∧
   (∀ (u frame : Nat) (s : State),
     ((s.fab.persAt 4 u).1 ≠ 1 ∨ s.hub.time.total < frame + s.spl.waitNs → exec (.spliceDeadline u frame) s = .next s) ∧
     (∀ id p, (s.fab.persAt 4 u).1 = 1 → frame + s.spl.waitNs ≤ s.hub.time.total → s.spl.recvs = [] → s.spl.store = [] → id < 1024 →
       s.spl.streams = [(paneKey u id, p)] → p.due = some frame →
       ∀ w : State, { s with spl := { s.spl with replaced := [], streams := [(paneKey u id, { p with due := none, last := some frame })] } } = w →
       exec (.spliceDeadline u frame) s = .next (((w.splErr SPL.SWITCH_RETRY.COUNT u).splRaise 0x0B02 u id).paneNeed u id)))) ∧
  (∀ (e : CmdEnv) (body : List Byte) (s : State),
     let u := refInst (bodyN body 0 2)
     let k := recvKey u (bodyN body 2 2)
     let n := bodyN body 2 2
     let unit := refType (bodyN body 0 2) = 4 ∧ u < s.hub.unitCount 4
     let served := (s.fab.users 4 u).any (s.hub.reachesSash e.fn) = true
     (s.encUnits n = [] → exec (.splPaneset e body) s = .next (s.done e 0x0501 3 [])) ∧
     (∀ us p x, (s.encUnits n).map (fun v => s.encPers v (s.fab.cls n)) = us → us.head? = some p → kvGet (8 * n + bodyU8 body 4) s.enc.rends = some x →
       let ps := (List.range (min (bodyU8 body 5) 64)).map (paneOf body)
       let sz := x.cfg.size p (bodyU8 body 4)
       let edges := (encTiles us).1.map fun a => if bodyU8 body 4 = 0 then a else a * sz.1 / p.outW / 64 * 64
       s.hub.reachesSash e.fn n = true → unit → panesOverlap ps = false → p.codec ≠ 4 →
       (∀ q ∈ ps, q.w ≠ 0 ∧ q.h ≠ 0 ∧ q.x + q.w ≤ ceilDiv sz.1 64 ∧ q.y + q.h ≤ ceilDiv sz.2 64) →
       (∀ q ∈ ps, ∀ a ∈ edges, a ≤ 64 * q.x ∨ 64 * (q.x + q.w) ≤ a) → (p.codec = 1 → ∀ q ∈ ps, q.w ≤ 64 ∧ q.w * q.h ≤ 2304) →
       ∃ t y, exec (.splPaneset e body) s = .next t ∧ kvGet (8 * n + bodyU8 body 4) t.enc.rends = some y ∧
         y.nextPanes = some (if min (bodyU8 body 5) 64 = 0 then none else some (u, ps))) ∧
     (unit → (e.fn = 0 ∨ served) →
       (1024 ≤ n → exec (.splImport e body) s = .next (s.done e 0x0502 1 [])) ∧
       (n < 1024 → bodyN body 8 2 < 1024 → bodyU8 body 6 < 4 →
         ((s.spl.stream u n).src ≠ none → exec (.splImport e body) s = .next (s.done e 0x0502 2 [])) ∧
         ((s.spl.stream u n).src = none → exec (.splImport e body) s =
           .next ((({ s with spl := s.spl.setStream u n { remote := some (bodyN body 4 2 % 2048, bodyU8 body 6, bodyN body 8 2) } } : State).jlSvc
             (bodyN body 4 2 % 2048) (.paneImport (bodyU8 body 6) (bodyN body 8 2) u n)).done e 0x0502 0 [])))) ∧
     (∀ st, (s.recvRefused e body true = some st → exec (.splRecvAdd e body) s = .next (s.recvRefuse e 0x0503 st)) ∧
       (s.recvRefused e body false = some st → exec (.splRecvSet e body) s = .next (s.recvRefuse e 0x0504 st))) ∧
     (s.recvRefused e body true = none →
       (e.latched = true → exec (.splRecvAdd e body) s = .next (s.hold e 0x0503 (.splRecvAdd e body))) ∧
       (e.latched = false → ∀ w, kvGet (256 * u + bodyU8 body 6) s.spl.templates = some w →
         ∃ t v, exec (.splRecvAdd e body) s = .next t ∧ kvGet k t.spl.recvs = some v ∧ v.out = bodyN body 4 2 ∧ v.tpl = bodyU8 body 6 ∧ v.tplAt = w.at_ ∧
           v.changes = [] ∧ v.pos = freshPos (recvStreams body w.npos) ∧ (∀ j, j ≠ k → kvGet j t.spl.recvs = kvGet j s.spl.recvs))) ∧
     (s.recvRefused e body false = none → e.latched = true → exec (.splRecvSet e body) s = .next (s.hold e 0x0504 (.splRecvSet e body))) ∧
     (∀ v, kvGet k s.spl.recvs = some v →
       let own := match kvGet v.out s.fwd.outs with
         | some o => s.hub.reachesLeg e.fn o.leg
         | none => e.fn == 0
       (s.recvRefused e body false = none → e.latched = false → exec (.splRecvSet e body) s =
         .next ((s.setRecv u n { v with changes := v.changes ++ [s.recvSetOf body (s.hub.time.total + 250000)] }).done e 0x0504 0 [])) ∧
       (refType (bodyN body 0 2) = 4 → own = false →
         exec (.splRecvDel e body) s = .next (s.done e 0x0505 5 []) ∧ exec (.splStats e body) s = .next (s.done e 0x0507 5 [])) ∧
       (refType (bodyN body 0 2) = 4 → own = true →
         (e.latched = true → exec (.splRecvDel e body) s = .next (s.hold e 0x0505 (.splRecvDel e body))) ∧
         (e.latched = false → exec (.splRecvDel e body) s =
           .next ((s.setRecv u n { v with changes := v.changes ++ [{ at_ := 0, set := none }] }).done e 0x0505 0 [])) ∧
         exec (.splStats e body) s = .next (s.done e 0x0507 0 (leBytes 8 v.pubFrames ++ leBytes 8 v.pubHolds ++
           v.pubPos.flatMap fun p => leBytes 2 p.1 ++ leBytes 2 p.2)))) ∧
     (kvGet k s.spl.recvs = none →
       exec (.splRecvDel e body) s = .next (s.done e 0x0505 3 []) ∧ exec (.splStats e body) s = .next (s.done e 0x0507 3 [])) ∧
     (refType (bodyN body 0 2) ≠ 4 ∨ 1024 ≤ n ∨ kvHas (paneKey u n) s.spl.streams = false → exec (.splRefresh e body) s = .next (s.done e 0x0506 3 [])) ∧
     (refType (bodyN body 0 2) = 4 → n < 1024 → kvHas (paneKey u n) s.spl.streams = true →
       let own := match (s.spl.stream u n).src with
         | some (sash, _) => s.hub.reachesSash e.fn sash
         | none => (s.fab.users 4 u).any (s.hub.reachesSash e.fn)
       (e.fn = 0 ∨ own = true → exec (.splRefresh e body) s = .next ((s.paneNeed u n).done e 0x0506 0 [])) ∧
       (e.fn ≠ 0 → own = false → exec (.splRefresh e body) s = .next (s.done e 0x0506 5 []))))

/-! ### Broadcast inputs and outputs (chapter 11) -/

/-- R224–R228: a flow's packet off its path or of another payload type is counted and not used; the first copy of a packet is used, a second one and
one too old are not; a first line starts an SDI frame, a line enters its frame, a misfit is counted once a frame, and nothing comes from a lane that
is not there or has lost lock; a path, and a signal, that has fallen silent is reported once, and not before its time. R228, R230: a stripe is
streamed once, when its time has come, and not before; stripe 0 stands at the frame boundary; a transmit lane sends each frame of the composer on it
once, 264 µs after the next one's instant, or black where the composer does not fit. R232–R237: a row enters the mux buffer while there is room and
waits, unacknowledged, while there is not; TS packets leave at the constant rate, each not before its time, with data where there is any; PAT and PMT
are sent every 100 ms and not before; of a CMAF track its init segment leaves first, then chunks, each once its frame is complete, and the segment
number goes on by one at a segment's start. Where the rules leave a detail open, this states the model's reading or choice: log entries 49, 50, 51,
52, 122 and 123. -/
def Obligations.BroadcastInputsAndOutputs : Prop :=
  ((∀ (x : VinPkt) (f : VinFlow) (s : State), (s.fab.vinPers x.vin).flows[x.entry]? = some f → x.poison = false → (s.fab.vinPers x.vin).uses f = true →
     (s.fab.vinPers x.vin).code = 1 ∨ (s.fab.vinPers x.vin).code = 2 → x.vin < s.hub.unitCount 11 →
     let key := 8 * f.kind + f.group
     let r := ((kvGet key (s.bio.vin x.vin).groups).getD {}).take (s.fab.vinPers x.vin) (vinRate f.kind) x.seq x.ts f.pathB s.hub.elapsed
     (s.fab.vinPath x.vin f.eth = false → exec (.vinPacketReceive x) s = .next (s.vinNoPath x.vin)) ∧
     (s.fab.vinPath x.vin f.eth = true → x.pt ≠ f.pt → exec (.vinPacketReceive x) s = .next (s.vinFmtBad x.vin 1)) ∧
     (s.fab.vinPath x.vin f.eth = true → x.pt = f.pt →
       (r.2 = .use → ∃ t, exec (.vinPacketReceive x) s = .next t ∧ kvGet key (t.bio.vin x.vin).groups = some r.1 ∧
         (f.kind = 0 → ∃ g ∈ (t.bio.vin x.vin).frames, g.ts = x.ts)) ∧
       (r.2 = .copy → ∃ t, exec (.vinPacketReceive x) s = .next t ∧ kvGet key (t.bio.vin x.vin).groups = some r.1 ∧
         (t.bio.vin x.vin).frames = (s.bio.vin x.vin).frames ∧ t = { s with hub := t.hub, bio := t.bio }) ∧
       (r.2 = .old → ∃ t : State, exec (.vinPacketReceive x) s = .next (t.vinErr VIN.SKEW_DROP.COUNT x.vin 1 0) ∧
         kvGet key (t.bio.vin x.vin).groups = some r.1 ∧ (t.bio.vin x.vin).frames = (s.bio.vin x.vin).frames ∧ t = { s with hub := t.hub, bio := t.bio }))) ∧
   (∀ (x : SdiLine) (s : State), let p := s.fab.vinPers x.vin
     (p.code ≠ 2 ∨ s.fab.sdiLane p = false ∨ s.sdiLost p = true → exec (.sdiLineReceive x) s = .next s) ∧
     (p.code = 2 → s.fab.sdiLane p = true → s.sdiLost p = false → x.vin < s.hub.unitCount 11 → x.anc = [] →
       (x.first = true → p.fits x = true → x.row = none →
         ∃ t f rest, exec (.sdiLineReceive x) s = .next t ∧ (t.bio.vin x.vin).frames = f :: rest ∧ f.num = (s.bio.vin x.vin).next ∧ f.bad = false ∧
           f.cf = s.hub.time.total + p.offset * 1000 ∧ (t.bio.vin x.vin).next = (s.bio.vin x.vin).next + 1 ∧ t.hub = s.hub) ∧
       (∀ f rest r, x.first = false → (s.bio.vin x.vin).frames = f :: rest → f.bad = false → x.row = some r →
         (p.fits x = true → r < p.h → exec (.sdiLineReceive x) s = .next (s.vinLine x.vin p f.num r 0 p.w x.comps)) ∧
         (p.fits x = false → exec (.sdiLineReceive x) s =
           .next ((s.setVin x.vin ((s.bio.vin x.vin).setFrame { f with bad := true })).vinFmtBad x.vin 1))))) ∧
   (∀ (v kind group : Nat) (b : Bool) (g : VinGroup) (s : State), kvGet (8 * kind + group) (s.bio.vin v).groups = some g →
     ((∀ t, (if b then g.lastB else g.lastA) = some t → s.hub.elapsed < t + 100000000) → exec (.vinPathTimeout v kind group b) s = .next s) ∧
     (∀ t, (if b then g.lastB else g.lastA) = some t → t + 100000000 ≤ s.hub.elapsed →
       ∃ t h, exec (.vinPathTimeout v kind group b) s = .next t ∧ kvGet (8 * kind + group) (t.bio.vin v).groups = some h ∧
         (if b then h.lastB else h.lastA) = none ∧ h.used = g.used ∧ h.newest = g.newest)) ∧
   (∀ (v : Nat) (s : State), let p := s.fab.vinPers v
     let silent := if p.code = 2 then s.sdiLost p = true else (((s.bio.vin v).video).getD 0) * p.num + 2 * 1000000000 * p.den ≤ s.hub.elapsed * p.num
     (¬(s.hub.get1 VIN.STATUS.STATE v = 2 ∧ silent) → exec (.vinSignalTimeout v) s = .next s) ∧
     (s.hub.get1 VIN.STATUS.STATE v = 2 → silent → exec (.vinSignalTimeout v) s =
       .next { s with hub := (s.hub.set1 VIN.STATUS.STATE v 1).raise { code := 0x0C02, sash := s.fab.vinSash v, detail := [v] } }))) ∧
  ((∀ (v frame k : Nat) (f : VinFrame) (s : State), (s.bio.vin v).frames.find? (·.num = frame) = some f →
     let p := s.fab.vinPers v
     (k ∈ f.streamed ∨ s.vinDue v p f.cf k = false → k ≠ 0 → exec (.vinStripeStream v frame k) s = .next s) ∧
     (k ∉ f.streamed → s.vinDue v p f.cf k = true →
       (k ≠ 0 → p.code = 1 ∨ p.code = 2 → (∀ q, s.fab.part p.part = some q → s.partLive q = true) →
         ∃ t f1, exec (.vinStripeStream v frame k) s = .next t ∧ (t.bio.vin v).frames.find? (·.num = frame) = some f1 ∧ f1 = { f with streamed := k :: f.streamed }) ∧
       (k = 0 → exec (.vinStripeStream v frame k) s = .next ((s.frameBoundary 11 v).vinStream v frame k)))) ∧
   (∀ (lane : Nat) (s : State), let on := s.fab.built.find? fun b => b.dst = mkRef 13 lane ∧ refType b.src = 3 ∧ !b.waiting
     (on = none → exec (.sdiTxFrame lane) s = .next s) ∧
     (∀ b, on = some b → let c := s.cmpPers (refInst b.src)
       (c.sdi = true → s.sdiFrame lane (refInst b.src) c = none → exec (.sdiTxFrame lane) s = .next s) ∧
       (∀ t, c.sdi = true → s.sdiFrame lane (refInst b.src) c = some t → ∀ h, s.hub.emit (.frame (64 + lane) "sdi" [refInst b.src, c.num, c.den, t]) = h →
         exec (.sdiTxFrame lane) s = .next { s with hub := h, bio := { s.bio with sdi := kvPut lane t s.bio.sdi } }) ∧
       (c.sdi = false → lane < 16 → exec (.sdiTxFrame lane) s =
         .next (({ s with hub := s.hub.emit (.frame (64 + lane) "sdi-black" [60, 1]) } : State).vinFmtBad lane 1))))) ∧
  (∀ (u : Nat) (s : State), u < s.hub.unitCount 12 →
     let p := s.fab.tsoPers u
     let x := s.bio.tso u
     (∀ frame row flags cf size : Nat, p.code ≠ 0 →
       (x.held = [] → s.tsoRoom u x size = true →
         exec (.tsoRowReceive u frame row flags cf size) s = .next (s.tsoPut u (x.accept p s.hub.time.total s.hub.elapsed ⟨frame, row, flags, cf, size⟩))) ∧
       (x.held ≠ [] ∨ s.tsoRoom u x size = false →
         exec (.tsoRowReceive u frame row flags cf size) s = .next (s.tsoPut u { x with held := x.held ++ [⟨frame, row, flags, cf, size⟩], stalled := true }))) ∧
     (p.code ≠ 1 → exec (.tsPacketSchedule u) s = .next s ∧ exec (.psiTimer u) s = .next s) ∧
     (p.code = 1 →
       (∀ l, x.last = some l → x.inDgram ≠ 0 → x.held = [] →
         (x.parts = [] → s.hub.time.total * p.rate < l + 1504000000 → exec (.tsPacketSchedule u) s = .next s) ∧
         (x.parts = [] → l + 1504000000 ≤ s.hub.time.total * p.rate →
           ∃ t, exec (.tsPacketSchedule u) s = .next t ∧ (t.bio.tso u).last = some (l + 1504000000) ∧ (t.bio.tso u).parts = [] ∧
             (t.bio.tso u).inDgram = (x.inDgram + 1) % 7) ∧
         (∀ d rest c, x.parts = d :: rest → 184 < d.bytes → d.at_ * p.rate ≤ l + 1504000000 → l + 1504000000 ≤ s.hub.time.total * p.rate →
           x.pcr = some c → l + 2 * 1504000000 ≤ c + p.pcrMs * 1000000 * p.rate →
           ∃ t, exec (.tsPacketSchedule u) s = .next t ∧ (t.bio.tso u).last = some (l + 1504000000) ∧
             (t.bio.tso u).parts = { d with bytes := d.bytes - 184, start := none } :: rest ∧ (t.bio.tso u).pcr = some c)) ∧
       (pastMs s.hub.elapsed x.psi 100 10 = false → exec (.psiTimer u) s = .next s) ∧
       (pastMs s.hub.elapsed x.psi 100 10 = true →
         exec (.psiTimer u) s = .next (s.tsoPut u ({ x with psi := some s.hub.elapsed }.sendPsi p s.hub.time.total)))) ∧
     (∀ c : CmafChunk, c.tso = u →
       (p.code ≠ 2 → exec (.cmafChunkWrite c) s = .next s) ∧
       (p.code = 2 → c.track < 9 →
         (c.track ∈ x.initDue → ∃ t, exec (.cmafChunkWrite c) s = .next t ∧ c.track ∉ (t.bio.tso u).initDue) ∧
         (c.track ∉ x.initDue →
           (s.cmafFlags u x c = none → exec (.cmafChunkWrite c) s = .next s) ∧
           (∀ start fl ns k, s.cmafFlags u x c = some (start, fl, ns) → kvGet c.track x.segs = some k →
             ∃ t, exec (.cmafChunkWrite c) s = .next t ∧
               kvGet c.track (t.bio.tso u).segs = some (if start then (k + 1) % 2 ^ 32 else k))))))

/-! ### Audio (chapter 12) -/

/-- R247–R250, R255: a due step of a node, or of a sink's scaling, is made at a crossing of zero after it became due, or at the end of ZC_MS, and else
not; a step of a node takes its next code; a fall of the active sources counts once it has held for AS_HOLD; every 100 ms the rooms' voices are chosen
anew; node changes wait for their boundary or Latch; room tags are set. Where the rules leave a detail open, this states the model's reading or
choice: log entries 53, 54 and 96. -/
def Obligations.AudioGains : Prop :=
  (∀ (k : Nat) (j : Option Nat) (sample d : Nat) (s : State), s.stepDue k j = some d →
    let p := s.fab.period
    let cross : Bool := match j with
      | some i => crosses ((s.aud.src i).at p (sample - 1)) ((s.aud.src i).at p sample)
      | none => crosses (if sample = 6 * p then (s.aud.snk k).sum else s.nodeSum k p (sample - 1)) (s.nodeSum k p sample)
    (cross = true → d ≤ sample → 6 * p ≤ sample → sample < 6 * p + 6 → 1 ≤ sample → sample < d + s.hub.zcSamples → s.lastStep k j < sample →
      exec (.gainStepZeroCross k j sample) s = .next (s.gainStep k j sample)) ∧
    (cross = false ∨ sample < d ∨ s.lastStep k j ≥ sample → exec (.gainStepZeroCross k j sample) s = .next s) ∧
    (d + s.hub.zcSamples < 6 * p + 6 → exec (.gainStepTimeout k j) s = .next (s.gainStep k j (max (6 * p) (d + s.hub.zcSamples)))) ∧
    (6 * p + 6 ≤ d + s.hub.zcSamples → exec (.gainStepTimeout k j) s = .next s)) ∧
  (∀ (k i smp : Nat) (n : AudNode) (s : State), kvGet (nodeKey k i) s.aud.nodes = some n → s.gainStep k (some i) smp = { s with aud := s.aud.setNode k i { n with
    steps := n.steps ++ [(smp, nextCode n.now n.target n.start)]
    due := if nextCode n.now n.target n.start = n.target then none else some smp } }) ∧
  (∀ (k g t : Nat) (s : State), (s.aud.snk k).low = some (g, t) →
    (s.hub.elapsed < t + s.hub.get AUD.CFG.AS_HOLD * 10000000 → exec (.asHoldExpiry k) s = .next s) ∧
    (t + s.hub.get AUD.CFG.AS_HOLD * 10000000 ≤ s.hub.elapsed → ∃ w : State, exec (.asHoldExpiry k) s = .next w ∧ (w.aud.snk k).goal = g ∧
      (w.aud.snk k).low = none ∧ (w.aud.snk k).att = (s.aud.snk k).att ∧ (w.aud.snk k).due ≠ none ∧ w.hub = s.hub)) ∧
  (∀ s : State,
    (pastMs s.hub.elapsed s.aud.roomAt 100 10 = false → exec .onePerRoomTimer s = .next s) ∧
    (pastMs s.hub.elapsed s.aud.roomAt 100 10 = true → ∃ t : State, exec .onePerRoomTimer s = .next t ∧ t.hub = s.hub ∧ (∀ x ∈ t.aud.srcs, x.2.room = 0) ∧
      t.aud.srcs.map (fun x => (x.1, x.2.tag)) = s.aud.srcs.map (fun x => (x.1, x.2.tag)) ∧
      (∀ x ∈ s.aud.srcs, x.2.tag ≠ 0 → kvGet x.2.tag t.aud.voices = s.voiceOf x.2.tag))) ∧
  (∀ (e : CmdEnv) (body : List Byte) (s : State), 1 ≤ bodyN body 0 2 → bodyN body 0 2 ≤ 1024 →
    ((∀ x ∈ nodeList body, x.1 < s.hub.xptSize ∧ x.2.1 < s.hub.xptSize) →
      (e.latched = true → exec (.audNodeSet e body) s = .next (s.hold e 0x0603 (.audNodeSet e body))) ∧
      (e.latched = false → exec (.audNodeSet e body) s =
        .next (({ s with aud := { s.aud with sets := s.aud.sets ++ [(s.hub.elapsed, nodeList body)] } } : State).done e 0x0603 0 []))) ∧
    (bodyN body 0 2 = 1 → bodyN body 4 2 < 2048 → bodyN body 4 2 < s.hub.xptSize → ∃ t : State, exec (.audRoom e body) s = .next t ∧
      (t.aud.src (bodyN body 4 2)).tag = bodyN body 6 2 ∧ (t.aud.src (bodyN body 4 2)).kind = (s.aud.src (bodyN body 4 2)).kind))

/-- R243, R253–R257, Table 12.8: bindings, channels, rooms and profiles are set as their commands say, and refused ones answer their reason; a channel
closes at its next frame boundary; statistics are those of the last publication. Where the rules leave a detail open, this states the model's reading
or choice: log entries 23, 29 and 55. -/
def Obligations.AudioService : Prop :=
  ∀ (e : CmdEnv) (body : List Byte) (s : State),
    let n := bodyN body 0 2
    let c := bodyN body 2 2
    (∀ st, s.bindRefused n (bodyU8 body 2) (s.aud.src n).kind (bodyU8 body 4 % 128) true = some st →
      exec (.audSrcBind e body) s = .next (s.done e 0x0601 st [])) ∧
    (s.bindRefused n (bodyU8 body 2) (s.aud.src n).kind (bodyU8 body 4 % 128) true = none → exec (.audSrcBind e body) s =
      .next (({ s with aud := s.aud.setSrc n { s.aud.src n with kind := (bindOf body).1, ref := (bindOf body).2, buf := [] } } : State).done e 0x0601 0 [])) ∧
    (∀ st, s.bindRefused n (bodyU8 body 2) (s.aud.snk n).kind (bodyU8 body 4 % 128) false = some st →
      exec (.audSnkBind e body) s = .next (s.done e 0x0602 st [])) ∧
    (s.bindRefused n (bodyU8 body 2) (s.aud.snk n).kind (bodyU8 body 4 % 128) false = none → exec (.audSnkBind e body) s =
      .next (({ s with aud := s.aud.setSnk n { s.aud.snk n with kind := (bindOf body).1, ref := (bindOf body).2, auto := bodyU8 body 3 % 2 == 1 } } : State).done e 0x0602 0 [])) ∧
    (∀ st, s.decRefused e body = some st → exec (.audDecOpen e body) s = .next (s.done e 0x0604 st [])) ∧
    (s.decRefused e body = none → ∃ (t : State) (d : AudDec), exec (.audDecOpen e body) s = .next t ∧ kvGet n t.aud.decs = some d ∧
      d = { unit := refInst c, stream := bodyN body 4 2, source := bodyN body 6 2, jb := min (max (bodyN body 8 2) 20) 200 } ∧
      (t.aud.src (bodyN body 6 2)).kind = 1 ∧ (t.aud.src (bodyN body 6 2)).ref = n) ∧
    (∀ st, s.encChanRefused e body = some st → exec (.audEncOpen e body) s = .next (s.done e 0x0605 st [])) ∧
    (s.encChanRefused e body = none → ∃ t : State, exec (.audEncOpen e body) s = .next t ∧
      kvGet n t.aud.encs = some { encChanOf body with next := some (ceilDiv s.smpNow (encChanOf body).n) } ∧
      (t.aud.snk (bodyN body 4 2)).kind = 1 ∧ ((encChanOf body).stereo = true → (t.aud.snk (bodyN body 4 2 + 1)).kind = 1)) ∧
    (∀ d, bodyU8 body 0 = 0 → kvGet c s.aud.decs = some d →
      exec (.audClose e body) s =
        .next (({ s with aud := { s.aud with decs := kvPut c { d with closing := some (max d.tail s.smpNow) } s.aud.decs } } : State).done e 0x0606 0 []) ∧
      exec (.audStats e body) s = .next (s.done e 0x060A 0
        (leBytes 8 d.pub.frames ++ leBytes 8 d.pub.plc ++ leBytes 8 d.pub.late ++ leBytes 8 d.pub.reanchor ++ leBytes 8 (d.pub.depth * 125000 / 6)))) ∧
    (∀ x, bodyU8 body 0 ≠ 0 → kvGet c s.aud.encs = some x → exec (.audClose e body) s =
      .next (({ s with aud := { s.aud with encs := kvPut c { x with closing := some (ceilDiv s.smpNow x.n * x.n) } s.aud.encs } } : State).done e 0x0606 0 [])) ∧
    (bodyU8 body 0 = 0 → kvGet c s.aud.decs = none →
      exec (.audClose e body) s = .next (s.done e 0x0606 3 []) ∧ exec (.audStats e body) s = .next (s.done e 0x060A 3 [])) ∧
    (∀ st, s.confRefused e body = some st → exec (.audConf e body) s = .next (s.done e 0x0607 st [])) ∧
    (s.confRefused e body = none →
      (bodyU8 body 2 % 2 = 0 → exec (.audConf e body) s = .next (((s.confEnd (n % 4096)).dblCheck).done e 0x0607 0 [])) ∧
      (bodyU8 body 2 % 2 = 1 → ∃ (t : State) (x : AudConf), exec (.audConf e body) s = .next t ∧ kvGet (n % 4096) t.aud.confs = some x ∧ x.talkers = [] ∧
        x.t = (if bodyU8 body 3 = 0 then 32 else min (bodyU8 body 3) 32) ∧ x.src = bodyN body 4 2 ∧ x.snk = bodyN body 6 2 ∧
        (∀ k, k ≤ x.t → (t.aud.snk (x.snk + k)).auto = true))) ∧
    (s.hub.legLimit ≤ n → exec (.audLegProfile e body) s = .next (s.done e 0x0608 1 [])) ∧
    (∀ l i o, n < s.hub.legLimit → kvGet n s.fwd.legs = some l → kvGet c s.fwd.ins = some i → kvGet (bodyN body 4 2) s.fwd.outs = some o →
      s.hub.reachesLeg e.fn n = true → l.state ≠ 3 → i.gone = false → o.gone = false → o.leg = n → bodyN body 6 2 < 1024 →
      bodyN body 12 2 = 0xFFFF ∨ bodyN body 12 2 < 2048 → 1 ≤ bodyU8 body 8 → bodyU8 body 8 ≤ 4 → exec (.audLegProfile e body) s =
        .next (({ s with aud := { s.aud with profs := kvPut n (profOf body) s.aud.profs } } : State).done e 0x0608 0 []))

/-- R254, R256, R257, Table 12.1: of a decode channel on a codec unit, a packet in time counts and its channel runs on to its end, a late one is
counted, and a poisoned one does nothing; a frame is coded once its last sample's block has been delivered, not before, and goes to its leg or
transport output; another device's block is due two periods on, and a later one is missed; every TALK_INTERVAL the talkers of a large room are chosen
anew and its members' scores go to the other devices. Where the rules leave a detail open, this states the model's reading or choice: log entries 55,
56 and 124. -/
def Obligations.AudioStreams : Prop :=
  (∀ (x : AudIn) (d : AudDec) (a : Nat × Int) (s : State), kvGet x.chan s.aud.decs = some d → d.anchor = some a → s.codecUnit (mkRef 6 d.unit) = true →
    let at_ := playAt (((kvGet d.stream s.fwd.ins).map (·.clock)).getD 48000) x.ts a
    (x.poison = true → exec (.audPacketReceive x) s = .next s) ∧
    (x.poison = false → at_ / 6 < (s.fab.period : Int) → ∃ t : State, exec (.audPacketReceive x) s = .next t ∧
      t.hub = (s.hub.err AUD.LATE_PKT.COUNT 0 0x0D09 0).raiseRl { code := 0x0D02, detail := [x.chan] } ∧ t.aud.srcs = s.aud.srcs) ∧
    (x.poison = false → (s.fab.period : Int) ≤ at_ / 6 → ∃ (t : State) (d1 : AudDec), exec (.audPacketReceive x) s = .next t ∧ t.hub = s.hub ∧
      kvGet x.chan t.aud.decs = some d1 ∧ d1.cnt.frames = d.cnt.frames + 1 ∧ d1.tail = max d.tail (at_.toNat + x.pcm.length) ∧ d1.cnt.late = d.cnt.late)) ∧
  (∀ (chan frame level : Nat) (coded : List Byte) (x : AudEnc) (s : State), kvGet chan s.aud.encs = some x → x.closing = none → x.codec ≠ 6 → x.codec ≠ 7 →
    s.codecUnit (mkRef 6 x.unit) = true →
    let at_ := frame * x.n
    let y : AudEnc := { x with next := some (frame + 1), cnt := { x.cnt with frames := x.cnt.frames + (if coded = [] then 0 else 1) } }
    let time := at_ * 125000 / 6 + x.sync * 1000 - min (max (s.hub.get AUD.IN_DELAY.US) 125) 200000 * 1000
    (6 * s.fab.period < at_ + x.n → exec (.audEncFrame chan frame coded level) s = .next s) ∧
    (at_ + x.n ≤ 6 * s.fab.period → x.next = some frame →
      ∀ w : State, { s with aud := { s.aud with encs := kvPut chan y s.aud.encs } } = w →
      (coded = [] → exec (.audEncFrame chan frame coded level) s = .next w) ∧
      (coded ≠ [] → x.dest = 0 → exec (.audEncFrame chan frame coded level) s = .next (w.audOut x.stream chan x.cnt.frames at_ coded level)) ∧
      (coded ≠ [] → x.dest = 2 → exec (.audEncFrame chan frame coded level) s = .next (w.tsoAudio chan time (audItem time coded))))) ∧
  (∀ (dev chan period : Nat) (samples : List Int) (poison : Bool) (j : Nat) (x : AudSrc) (s : State),
    (s.aud.srcs.find? fun e => e.2.kind = 4 ∧ e.2.ref = dev + 65536 * chan) = some (j, x) →
    (period + 2 < s.fab.period → exec (.cascadeFlit dev chan period samples poison) s =
      .next { s with hub := (s.hub.err AUD.CASCADE_MISS.COUNT 0 0x0D09 0).raiseRl { code := 0x0D04, detail := [dev, chan] } }) ∧
    (s.fab.period ≤ period + 2 → samples.length = 6 → ∃ t : State, exec (.cascadeFlit dev chan period samples poison) s = .next t ∧ t.hub = s.hub ∧
      ∀ i, i < 6 → kvGet (6 * (period + 2) + i) (t.aud.src j).buf = some (if poison then none else samples[i]?))) ∧
  (∀ (conf : Nat) (s : State),
    (kvGet conf s.aud.confs = none → exec (.talkIntervalTimer conf) s = .next s) ∧
    (∀ c, kvGet conf s.aud.confs = some c →
      (pastMs s.hub.elapsed c.at_ (s.aud.key 1) 10 = false → exec (.talkIntervalTimer conf) s = .next s) ∧
      (pastMs s.hub.elapsed c.at_ (s.aud.key 1) 10 = true → ∀ s0 w, s.setConf conf { c with at_ := some s.hub.elapsed } = s0 →
        (((s0.talkGone conf).talkQuiet conf).talkSwap conf [] 4).talkFill conf c.t = w →
        ∃ scores, exec (.talkIntervalTimer conf) s = .next ((s.fwd.peers conf).foldl
          (fun a d => a.jlSvc d (.scores (((kvGet conf s.fwd.confs).map (·.cluster)).getD 0) scores)) ((w.retarget s.smpNow).dblCheck)))))

/-! ### The Doorbell (chapter 13) -/

/-- R263–R265, R270, R271: a frame starts at a Louvre boundary TX_GAP after the last one, and not before, with the next sequence number; a start draws
a nonce and a stop ends at the frame's end; a survey takes the leg at the end of the round; a leg's group is answered; an edge that was not renewed
for EDGE_TTL goes, and not before. R265, R267–R269: a free receiver dwells on the next leg and a busy one does not; a preamble at the threshold starts
a reception, pre-empts it or collides with it, and a weaker one does nothing; a sync word whose symbols have come trains the receiver, and one not
found two symbols past its place fails; the decoded header and payload pass their CRCs or end the reception; what has not come does nothing; a dwell
of 6 s ends once its reception has. Where the rules leave a detail open, this states the model's reading or choice: log entries 57, 58 and 125. -/
def Obligations.Beacons : Prop :=
  ((∀ (leg : Nat) (x : DblTx) (s : State), kvGet leg s.dbl.tx = some x →
     let wait := (125000 - s.hub.time.total % 125000) % 125000
     (∀ f, x.frame = some f → s.hub.elapsed + wait < f.2 + s.dbl.key 2 * 1000000 → exec (.dblFrameStart leg) s = .next s) ∧
     (x.stop = true ∨ s.beaconChans leg = [] → exec (.dblFrameStart leg) s = .next s) ∧
     (x.stop = false → s.beaconChans leg ≠ [] → (∀ f, x.frame = some f → f.2 + s.dbl.key 2 * 1000000 ≤ s.hub.elapsed + wait) →
       ∃ t : State, exec (.dblFrameStart leg) s = .next t ∧ kvGet leg t.dbl.tx = some { x with
         seq := (x.seq + 1) % 128
         paused := false
         sent := beaconSymbols x.pmod x.seq (s.token leg x.nonce)
         cutAt := none
         at_ := (s.hub.time.total + wait) * 6 / 125000
         frame := some (s.hub.elapsed + wait, s.hub.elapsed + wait + beaconMs x.pmod * 1000000) })) ∧
   (∀ (e : CmdEnv) (body : List Byte) (s : State),
     let leg := bodyN body 0 2
     (∀ st, s.dblRefused e leg = some st → exec (.dblTx e body) s = .next (s.done e 0x0701 st []) ∧
       exec (.dblSurvey e body) s = .next (s.done e 0x0702 st []) ∧ exec (.dblGroup e body) s = .next (s.done e 0x0703 st [])) ∧
     (s.dblRefused e leg = none →
       (bodyU8 body 2 ≠ 0 → s.beaconChans leg ≠ [] → (∀ x ∈ s.beaconChans leg, 48 ≤ x.kbps) →
         ∃ (t : State) (x : DblTx), exec (.dblTx e body) s = .next t ∧ kvGet leg t.dbl.tx = some x ∧ x.nonce = s.hub.freeVal (2 ^ 23) ∧
           x.pmod = (bodyU8 body 3 != 0) ∧ x.stop = false ∧ x.seq = 0) ∧
       (bodyU8 body 2 ≠ 0 → s.beaconChans leg = [] → exec (.dblTx e body) s = .next (s.done e 0x0701 4 [])) ∧
       (∀ x, bodyU8 body 2 = 0 → kvGet leg s.dbl.tx = some x → exec (.dblTx e body) s =
         .next ((({ s with dbl := { s.dbl with tx := kvPut leg { x with stop := true } s.dbl.tx } } : State).dblEnded).done e 0x0701 0 (leBytes 4 x.nonce))) ∧
       (bodyU8 body 2 ≠ 0 → kvGet leg s.dbl.survey = none → exec (.dblSurvey e body) s =
         .next (({ s with dbl := { s.dbl with turn := s.dbl.turn + 1, survey := kvPut leg { turn := s.dbl.turn } s.dbl.survey } } : State).done e 0x0702 0 [])) ∧
       (bodyU8 body 2 = 0 → exec (.dblSurvey e body) s =
         .next (({ s with dbl := { s.dbl with survey := kvDel leg s.dbl.survey } } : State).done e 0x0702 0 [])) ∧
       (∀ g, groupOf s.dbl.edges leg = g →
         exec (.dblGroup e body) s = .next (s.done e 0x0703 0 (leBytes 2 (g.headD 0xFFFF) ++ leBytes 2 g.length ++ (g.take 64).flatMap (leBytes 2)))))) ∧
   (∀ (a b at_ : Nat) (s : State), s.dbl.edges = [(min a b, max a b, at_)] →
     (s.hub.elapsed < at_ + s.dbl.key 3 * 1000000000 → exec (.edgeTtlExpiry a b) s = .next s) ∧
     (at_ + s.dbl.key 3 * 1000000000 ≤ s.hub.elapsed → exec (.edgeTtlExpiry a b) s = .next (s.setEdges [])))) ∧
  ((∀ (core recv leg : Nat) (s : State), s.dblRuns core = true → recv < s.receivers core →
     (kvHas (128 * core + recv) s.dbl.dwells = true → exec (.dwellStart core recv) s = .next s) ∧
     (kvHas (128 * core + recv) s.dbl.dwells = false → s.dbl.survey = [(leg, { turn := 0 })] → s.opusChans leg ≠ [] →
       ∃ t : State, exec (.dwellStart core recv) s = .next t ∧ kvGet (128 * core + recv) t.dbl.dwells = some { leg := leg, start := s.hub.elapsed } ∧
         t.dbl.survey = [(leg, { turn := s.dbl.turn, last := some s.hub.elapsed })])) ∧
   (∀ (core recv : Nat) (d : DblDwell) (s : State), kvGet (128 * core + recv) s.dbl.dwells = some d →
     (s.hub.elapsed < d.start + 6000000000 → exec (.dwellEnd core recv) s = .next s) ∧
     (d.start + 6000000000 ≤ s.hub.elapsed → d.recep ≠ none → exec (.dwellEnd core recv) s = .next (s.setDwell core recv { d with ended := true })) ∧
     (d.start + 6000000000 ≤ s.hub.elapsed → d.recep = none → exec (.dwellEnd core recv) s = .next (s.dwellsEnd [128 * core + recv] false))) ∧
   (∀ (core recv : Nat) (d : DblDwell) (s : State), s.dwell core recv = some d →
     (∀ m, m < min (max (s.hub.get DBL.RX_CTL.ACQ_THRESH) 3) 30 → exec (.preambleAcquire core recv m) s = .next s) ∧
     (∀ m, min (max (s.hub.get DBL.RX_CTL.ACQ_THRESH) 3) 30 ≤ m →
       (d.recep = none → d.ended = false →
         exec (.preambleAcquire core recv m) s = .next (s.setDwell core recv { d with recep := some { metric := m, start := d.count } })) ∧
       (∀ r, d.recep = some r → r.header = none → r.metric + s.hub.get DBL.RX_CTL.PREEMPT_MARGIN ≤ m → exec (.preambleAcquire core recv m) s =
         .next ((s.setDwell core recv { d with recep := some { metric := m, start := d.count } }).dblErr DBL.PREEMPTED.COUNT)) ∧
       (∀ r, d.recep = some r → r.header ≠ none ∨ m < r.metric + s.hub.get DBL.RX_CTL.PREEMPT_MARGIN → exec (.preambleAcquire core recv m) s =
         .next (s.dblErr DBL.COLLIDED.COUNT))) ∧
     (∀ r, d.recep = some r →
       (∀ k, r.sync = false → k ≤ 4 →
         (r.start + 62 * (11 + k) ≤ d.count → exec (.syncWordSearchEnd core recv (some k)) s =
           .next (s.setDwell core recv { d with recep := some { r with sync := true, eq := some (s.trained d (r.start + 62 * k - 372)) } })) ∧
         (d.count < r.start + 62 * (11 + k) → exec (.syncWordSearchEnd core recv (some k)) s = .next s)) ∧
       (r.sync = false → d.count < r.start + 930 → exec (.syncWordSearchEnd core recv none) s = .next s) ∧
       (r.sync = false → r.start + 930 ≤ d.count → exec (.syncWordSearchEnd core recv none) s = .next ((s.recepEnd core recv d).dblErr DBL.SYNC_FAIL.COUNT)) ∧
       (r.headerWord = none → exec (.headerDecoded core recv) s = .next s) ∧
       (∀ word, r.headerWord = some word → r.sync = true → r.header = none →
         (crcHdr (word / 16 % 4096) = word % 16 → word / 16 % 4096 < 256 → exec (.headerDecoded core recv) s =
           .next (s.setDwell core recv (s.hears { d with recep := some { r with header := some ((word / 16 % 4096).testBit 7) } } []))) ∧
         (crcHdr (word / 16 % 4096) ≠ word % 16 ∨ 256 ≤ word / 16 % 4096 → exec (.headerDecoded core recv) s =
           .next ((s.recepEnd core recv d).dblErr DBL.HDR_FAIL.COUNT))) ∧
       (r.payloadWord = none ∨ r.header = none → exec (.payloadDecoded core recv) s = .next s) ∧
       (∀ word, r.payloadWord = some word → r.header ≠ none →
         (crcToken (word / 65536 % 2 ^ 48) = word % 65536 → exec (.payloadDecoded core recv) s =
           .next ((s.recepEnd core recv d).dblReport d.leg r.metric (word / 65536 % 2 ^ 48))) ∧
         (crcToken (word / 65536 % 2 ^ 48) ≠ word % 65536 → ∃ t : State, exec (.payloadDecoded core recv) s = .next t ∧
           t.dbl = (s.recepEnd core recv d).dbl ∧
           t.hub = ((s.recepEnd core recv d).hub.err DBL.PAY_FAIL.COUNT 0 0x0E07 0).raiseRl { code := 0x0E02, detail := [d.leg] })))))

/-! ### Starts (chapter 21) -/

/-- Frames of audio, Doorbell and Hinge service commands and of the audio timers: what each next state leaves unchanged. -/
def Obligations.AudioAndHingeFrames : Prop :=
  ∀ (e : CmdEnv) (body : List Byte) (a b m : Nat) (o : Option Nat) (y : Option Nat) (s : State),
    (∀ c ∈ [Instr.gainStepZeroCross a o b, .gainStepTimeout a o, .asHoldExpiry a, .onePerRoomTimer],
      ∃ t : State, exec c s = .next t ∧ t = { s with aud := t.aud }) ∧
    (∀ c ∈ [Instr.audSrcBind e body, .audSnkBind e body, .audDecOpen e body, .audEncOpen e body, .audClose e body, .audRoom e body, .audNodeSet e body,
        .audStats e body, .audLegProfile e body], ∃ t : State, exec c s = .next t ∧ t = { s with hub := t.hub, aud := t.aud, lch := t.lch }) ∧
    (∀ c ∈ [Instr.dblFrameStart a, .dwellEnd a b, .preambleAcquire a b m, .syncWordSearchEnd a b y, .headerDecoded a b],
      ∃ t : State, exec c s = .next t ∧ t = { s with hub := t.hub, dbl := t.dbl }) ∧
    (∀ c ∈ [Instr.dblTx e body, .dblSurvey e body, .dblGroup e body], ∃ t : State, exec c s = .next t ∧ t = { s with hub := t.hub, dbl := t.dbl, lch := t.lch }) ∧
    (∀ c ∈ [Instr.edgeTtlExpiry a b, .payloadDecoded a b], ∃ t : State, exec c s = .next t ∧ t = { s with hub := t.hub, dbl := t.dbl, aud := t.aud }) ∧
    (∃ t : State, exec (.hngStart e body) s = .next t ∧ t = { s with hub := t.hub, fab := t.fab, hng := t.hng, dbl := t.dbl, lch := t.lch }) ∧
    (∃ t : State, exec (.hngStats e body) s = .next t ∧ t = { s with hub := t.hub, lch := t.lch })

/-! ### Hinge cores (chapter 14) -/

/-- R276, R278, R285–R287: a core whose sash has no grant in force is HELD; a faulting bundle faults the core, and one that must wait waits; a bundle
goes on, or to an address with 2 hc lost; a DMA transfer moves its bytes and writes its STATUS, unless it must wait; a mailbox block is delivered, or
dropped and counted; the oldest posted slot is drained. Where the bundle ends the core's grain the core is at its work boundary. R290, Table 14.11:
HNG_LOAD copies into a core that is HALTED or FAULTED, and it and HNG_START start a core at bundle 0 with its registers cleared; HNG_HALT stops one
that has not faulted, at its work boundary; HNG_STATS answers 36 bytes. Where the rules leave a detail open, this states the model's reading or
choice: log entries 65, 66 and 67. -/
def Obligations.HingeCores : Prop :=
  ((∀ (core sash : Nat) (s : State),
     let c := s.hng.core core
     let word := leNat (memReadList c.prog (8 * c.pc) 8)
     let slot := word % 2 ^ 32
     let op := fieldOf slot 27 5
     let fin := fun w : State => if w.unitBusy (mkRef 5 core) = true then w else w.frameBoundary 5 core
     let granted := (s.fab.users 5 core).contains sash = true ∧ s.hub.get1 GLB.SASH_STAT.EMERG_HELD sash = 0 ∧ s.granting = true ∧
       (s.fab.grantOf (s.hngHw core) sash).isSome = true
     (s.hngState core ≠ 1 → s.hngState core ≠ 3 → exec (.hngBundleExecute core sash) s = .next (fin s)) ∧
     (s.hngState core = 1 ∨ s.hngState core = 3 → ¬ granted → exec (.hngBundleExecute core sash) s = .next (fin (s.hngEnter core 3))) ∧
     (s.hngState core = 1 ∨ s.hngState core = 3 → granted →
       (∀ cause, c.faultOf slot (hngCompute c.regs (word / 2 ^ 32)) = some cause →
         exec (.hngBundleExecute core sash) s = .next (fin (s.hngFault core cause))) ∧
       (∀ x, hngCompute c.regs (word / 2 ^ 32) = some x → c.faultOf slot (some x) = none →
         (∀ w, s.hngWaits core slot = some w →
           exec (.hngBundleExecute core sash) s = .next (fin ((s.setCore core { c with wait := some w }).hngEnter core 2))) ∧
         (s.hngWaits core slot = none → op ≠ 0x12 → op ≠ 0x13 → op ≠ 0x14 → op ≠ 0x16 → c.busy = [] →
           ∀ r, c.bundle slot x c.clock s.fab.period (Config.freeValue s.hub.free) = r →
           (∀ p, r.2 = .goto p → ∃ w : State, exec (.hngBundleExecute core sash) s = .next (fin w) ∧ (w.hng.core core).pc = p ∧
             (w.hng.core core).clock = c.clock + 3) ∧
           (r.2 = .on → ∃ w : State, exec (.hngBundleExecute core sash) s = .next (fin w) ∧ (w.hng.core core).pc = (r.1.regs.loopEnd c.pc [1, 0]).2 ∧
             (w.hng.core core).regs = (r.1.regs.loopEnd c.pc [1, 0]).1 ∧ (w.hng.core core).clock = c.clock + 1))))) ∧
   (∀ (core channel : Nat) (d : HngDma) (s : State), kvGet channel (s.hng.core core).dma = some d →
     (s.dmaWaits d = true → exec (.dmaTransferDone core channel) s = .next s) ∧
     (s.dmaWaits d = false → ∀ r, s.dmaMove core d = r → ∀ c, r.1.hng.core core = c → exec (.dmaTransferDone core channel) s =
       .next ((r.1.setCore core { (c.store (d.desc + 0x14) (leBytes 4 r.2)) with dma := kvDel channel c.dma }).hngWake core (· == .dma channel)))) ∧
   (∀ (core : Nat) (b : HngBlk) (s : State), (s.hng.inbox.find? fun b => b.core = core ∧ b.due ≤ s.fab.period) = some b →
     let s1 : State := { s with hng := { s.hng with inbox := s.hng.inbox.erase b } }
     let c := s1.hng.core core
     let r := s1.mb core false
     (s1.hngState core = 0 ∨ s1.hngState core = 4 → exec (.mailboxDelivery core) s = .next (s1.mbDrop core)) ∧
     (s1.hngState core = 1 → r.slots = 0 ∨ c.owned (r.slot c.fill) = true → exec (.mailboxDelivery core) s =
       .next ((s1.setCore core { c with lost := c.lost + 1 }).mbDrop core)) ∧
     (s1.hngState core = 1 → r.slots ≠ 0 → c.owned (r.slot c.fill) = false → c.wait = none → exec (.mailboxDelivery core) s =
       .next (s1.setCore core { (c.store (r.slot c.fill) (mbBytes b c.lost r.size)) with fill := r.next c.fill, lost := 0 }))) ∧
   (∀ (core : Nat) (s : State),
     ((s.hng.core core).posted = [] → exec (.mailboxDrain core) s = .next s) ∧
     (∀ slot at_ rest, (s.hng.core core).posted = (slot, at_) :: rest → ∃ t : State, exec (.mailboxDrain core) s = .next t ∧
       (t.hng.core core).posted = rest))) ∧
  (∀ (e : CmdEnv) (body : List Byte) (s : State),
     let n := refInst (bodyN body 0 2)
     (∀ st, s.hngRefused e (bodyN body 0 2) = some st →
       exec (.hngLoad e body) s = .next (s.done e 0x0801 st []) ∧ exec (.hngStart e body) s = .next (s.done e 0x0802 st []) ∧
       exec (.hngHalt e body) s = .next (s.done e 0x0803 st []) ∧ exec (.hngStats e body) s = .next (s.done e 0x0804 st [])) ∧
     (s.hngRefused e (bodyN body 0 2) = none →
       (s.hngState n ≠ 0 → s.hngState n ≠ 4 → exec (.hngLoad e body) s = .next (s.done e 0x0801 6 [])) ∧
       (∀ s1 st, s.hngState n = 0 ∨ s.hngState n = 4 →
         s.hngCopy n (bodyU8 body 2 == 1) (bodyN body 4 2 % 4096) (bodyN body 8 8 / 64 * 64) (bodyN body 16 4 / 64 * 64) (bodyN body 20 4 / 64 * 64) = (s1, st) →
         (st = 1 ∨ st = 2 → exec (.hngLoad e body) s = .next (s1.done e 0x0801 0 (leBytes 4 st))) ∧
         (st ≠ 1 → st ≠ 2 → ∃ t : State, exec (.hngLoad e body) s = .next t ∧ (t.hng.core n).pc = 0 ∧ (t.hng.core n).regs = {} ∧
           (t.hng.core n).prog = (s1.hng.core n).prog ∧ (t.hng.core n).data = (s1.hng.core n).data ∧
           (t.hng.core n).loads = (s1.hng.core n).loads ++
             [(bodyU8 body 2 == 1, bodyN body 4 2 % 4096, bodyN body 8 8 / 64 * 64, bodyN body 16 4 / 64 * 64, bodyN body 20 4 / 64 * 64)])) ∧
       (∃ t : State, exec (.hngStart e body) s = .next t ∧ (t.hng.core n).pc = 0 ∧ (t.hng.core n).regs = {} ∧ (t.hng.core n).wait = none ∧
         (t.hng.core n).prog = (s.hng.core n).prog ∧ (t.hng.core n).data = (s.hng.core n).data) ∧
       (s.hngState n = 4 → exec (.hngHalt e body) s = .next ((s.frameBoundary 5 n).done e 0x0803 0 [])) ∧
       (s.hngState n ≠ 4 → exec (.hngHalt e body) s =
         .next ((((s.setCore n { (s.hng.core n) with wait := none }).hngStop n 0).frameBoundary 5 n).done e 0x0803 0 [])) ∧
       (∃ res, exec (.hngStats e body) s = .next (s.done e 0x0804 0 res) ∧ res.length = 36)))

/-! ### Lanes and Jorras (chapter 18) -/

/-- R343–R346: a locked lane that loses lock retrains once and its island is down; a training one that locks stores its coefficients and its island is
back, one whose retry fails is retired, and another retrains; a locked lane whose figure of merit is too low is a transient; LANE_CTL writes retrain,
loop back and put to sleep while the host reaches the device, and do nothing else. Where the rules leave a detail open, this states the model's
reading or choice: log entries 75 and 77. -/
def Obligations.Lanes : Prop :=
  ∀ (lane : Nat) (s : State),
    let st := s.hub.get1 LNK.LANE_STAT.STATE lane
    let ev : Ev := { code := 0x1301, channel := chanId 13 lane, detail := [lane] }
    (st ≠ 3 → exec (.laneLost lane) s = .next s) ∧
    (st = 3 → ∀ t, s.islandLost (.lane lane) = t →
      let h := ((t.hub.set1 LNK.LANE_STAT.STATE lane 4).set1 LNK.LANE_STAT.FOM lane 0).raise ev
      let s1 := ({ t with hub := h } : State).setLane lane { (s.lnk.lane lane) with retry := true }
      (s.fab.portOfLane lane = none → exec (.laneLost lane) s = .next s1) ∧
      (∀ p, s.fab.portOfLane lane = some p → p.kind = 1 → exec (.laneLost lane) s = .next (s1.ethEnter p.number 2))) ∧
    (∀ (ok : Bool) (snr : Nat) (inv rev : Bool),
      (st ≠ 1 → st ≠ 2 → st ≠ 4 → exec (.laneAdaptDone lane ok snr inv rev) s = .next s) ∧
      (st = 1 ∨ st = 2 ∨ st = 4 →
        (∀ t, s.islandBack (.lane lane) = t →
          let h := ((t.hub.set1 LNK.LANE_STAT.STATE lane 3).set1 LNK.LANE_STAT.FOM lane (fomOf snr)).set1 LNK.LANE_STAT.POL_INV lane (if inv then 1 else 0)
          (s.fab.portOfLane lane = none → exec (.laneAdaptDone lane true snr inv rev) s =
            .next (({ t with hub := h } : State).setLane lane { stored := true, retry := false })) ∧
          (∀ p, s.fab.portOfLane lane = some p → p.kind = 1 → exec (.laneAdaptDone lane true snr inv rev) s =
            .next ((({ t with hub := h.set1 LNK.ETH_STAT.REVERSED p.number (if rev then 1 else 0) } : State).setLane lane { stored := true, retry := false }).portCheck p))) ∧
        ((s.lnk.lane lane).retry = true → exec (.laneAdaptDone lane false snr inv rev) s = .next ((s.permanent (chanId 13 lane) 1).handCheck)) ∧
        ((s.lnk.lane lane).retry = false → s.start.calibrating = true → exec (.laneAdaptDone lane false snr inv rev) s = .next s) ∧
        ((s.lnk.lane lane).retry = false → s.start.calibrating = false → exec (.laneAdaptDone lane false snr inv rev) s =
          .next (({ s with hub := (s.hub.set1 LNK.LANE_STAT.STATE lane 4).raise ev } : State).setLane lane { (s.lnk.lane lane) with retry := true })))) ∧
    (∀ snr,
      let pam4 := match s.fab.portOfLane lane with
        | some p => p.kind ≠ 3
        | none => s.hub.get1 LNK.LANE_CTL.PAM4 lane = 1
      ∀ least, (pam4 → least = s.hub.get LNK.CFG.FOM_MIN) → (¬pam4 → least = 72) →
      (least ≤ fomOf snr ∨ st ≠ 3 → exec (.fomLowTimer lane snr) s = .next s) ∧
      (fomOf snr < least → st = 3 → exec (.fomLowTimer lane snr) s = .next
        (({ s with hub := (s.hub.set1 LNK.LANE_STAT.FOM lane (fomOf snr)).raiseRl { code := 0x1302, channel := chanId 13 lane, detail := [lane] } } : State).transient
          (chanId 13 lane)))) ∧
    (∀ val : Word,
      (s.hub.hostIn = false ∨ s.hub.unitCount 13 ≤ lane →
        exec (.laneRetrain lane) s = .next s ∧ exec (.laneLoopbackWrite lane val) s = .next s ∧ exec (.laneSleepWrite lane val) s = .next s) ∧
      (s.hub.hostIn = true → lane < s.hub.unitCount 13 →
        (st = 0 ∨ st = 5 → exec (.laneRetrain lane) s = .next s) ∧
        (st ≠ 0 → st ≠ 5 → s.fab.portOfLane lane = none → exec (.laneRetrain lane) s =
          .next (({ s with hub := (s.hub.set1 LNK.LANE_STAT.STATE lane 2).set1 LNK.LANE_STAT.FOM lane 0 } : State).setLane lane { (s.lnk.lane lane) with retry := false })) ∧
        (∀ h : Hub, h = (s.hub.set1 LNK.LANE_CTL.LOOP lane (LNK.LANE_CTL.LOOP.of val)).emit (.token (mkRef 13 lane) "loop" [LNK.LANE_CTL.LOOP.of val]) →
          exec (.laneLoopbackWrite lane val) s = .next { s with hub := h }) ∧
        (s.fab.portOfLane lane = none →
          ∀ h : Hub, h = (s.hub.set1 LNK.LANE_CTL.TX_SLEEP lane (LNK.LANE_CTL.TX_SLEEP.of val)).set1 LNK.LANE_CTL.RX_SLEEP lane (LNK.LANE_CTL.RX_SLEEP.of val) →
          exec (.laneSleepWrite lane val) s = .next { s with hub := h })))

/-- R351–R356, R359, Table 18.6: what a Jorras link does with a flit it listens to: a bad one is NAKed on an UP link; a hello brings it UP, or puts it
in MISMATCH or DUP_ID; ACK, credits and NAK are taken; the expected sequenced flit is accepted, acknowledged and its credit returned, another is
NAKed; HOLD holds, and LINK narrows the link or brings it DOWN; what it does not listen to does nothing unless the core is frozen. R352, R355–R359,
Table 18.6: a training link that is aligned says hello, and repeats it in its time; a link that finds no group of usable lanes goes DOWN; a HOLD that
lasts goes DOWN; a tunnel replays what stays unacknowledged and goes DOWN when silent, each in its time and not before. R361, Table 18.8: a handover
sends its copy to a device that a route reaches; it switches at the first boundary at or after its instant once the target has made the copy, not
before, and ends where the target is lost; 1 s after the switch, and not before, the source removes the conference; LINK_STATS answers the last
publication. Where the rules leave a detail open, this states the model's reading or choice: log entries 75, 76, 78, 133, 134 and 136. -/
def Obligations.JorrasLinks : Prop :=
  (∀ (n : Nat) (b : List Byte) (s : State),
     let h := headOf b
     let x := s.lnk.link n
     (s.jlListens n h.kind = false → s.hub.get GLB.STATUS.FROZEN = 0 →
       exec (.helloFlit n b) s = .next s ∧ exec (.idleFlit n b) s = .next s ∧ exec (.nakReceive n b) s = .next s ∧ exec (.holdFlit n b) s = .next s ∧
       exec (.linkFlit n b) s = .next s) ∧
     (s.jlListens n h.kind = true → flitGood b = false → s.jlState n = 4 →
       exec (.helloFlit n b) s = .next (s.jlNak n true) ∧ exec (.idleFlit n b) s = .next (s.jlNak n true) ∧
       exec (.nakReceive n b) s = .next (s.jlNak n true) ∧ exec (.holdFlit n b) s = .next (s.jlNak n true) ∧ exec (.linkFlit n b) s = .next (s.jlNak n true)) ∧
     (s.jlListens n h.kind = true → flitGood b = true →
       (h.kind = 1 → ∀ y, helloOf (b.drop 12) = y →
         (y.magic = false → exec (.helloFlit n b) s = .next s) ∧
         (y.magic = true → s.jlState n = 3 → ∀ s1, s.setLink n { x with heard := s.hub.elapsed } = s1 →
           (s1.helloState y = 4 → x.open_ = false → ∀ k : Hub,
             k = (s1.hub.set1 LNK.JL_STAT.PEER n y.device).set1 LNK.JL_LEVEL.LEVEL n (min (s1.hub.get IMG.INTEROP.LEVEL) y.hi) →
             exec (.helloFlit n b) s =
               .next (((({ s1 with hub := k } : State).setLink n { (s1.lnk.link n) with credits := y.credits, open_ := true }).jlEnter n 4).jlPump n)) ∧
           (y.device = s.hub.get LNK.CFG.DEVICE → exec (.helloFlit n b) s = .next (s1.jlEnter n 7)) ∧
           (y.device ≠ s.hub.get LNK.CFG.DEVICE → y.cluster ≠ s.hub.get64 LNK.CLUSTER_LO.TAG 0 → exec (.helloFlit n b) s = .next (s1.jlEnter n 6)))) ∧
       (h.kind = 0 → s.jlState n = 4 → exec (.idleFlit n b) s = .next ((s.jlHeard n).jlHead n h) ∧
         (h.nak = true → exec (.nakReceive n b) s = .next ((s.jlHeard n).jlHead n h)) ∧ (h.nak = false → exec (.nakReceive n b) s = .next s)) ∧
       (h.kind = 8 →
         (s.jlState n ≠ 4 → exec (.holdFlit n b) s = .next s) ∧
         (s.jlState n = 4 → ∃ t : State, exec (.holdFlit n b) s = .next t ∧ t.hub = (s.jlEnter n 8).hub ∧ (t.lnk.link n).heard = s.hub.elapsed)) ∧
       (∀ p w, h.kind = 9 → (if s.jlState n = 4 then (s.jlHeard n).jlHead n h else s.jlHeard n) = w → w.fab.port 2 n = some p →
         (p.mode = 0x1100 ∨ (w.jlState n ≠ 4 ∧ w.jlState n ≠ 5) → exec (.linkFlit n b) s = .next w) ∧
         (p.mode ≠ 0x1100 → w.jlState n = 4 ∨ w.jlState n = 5 → exec (.linkFlit n b) s = .next (w.linkMask p (bodyU8 b 12))))) ∧
     (∀ f : JlRx, f.link = n → f.bytes = b → s.jlListens n h.kind = true → s.jlState n = 4 →
       (f.lost = true ∨ flitGood b = false → exec (.sequencedFlitReceive f) s = .next (s.jlNak n true)) ∧
       (∀ w, f.lost = false → flitGood b = true → 2 ≤ h.kind → h.kind ≠ 8 → h.kind ≠ 9 → (s.jlHeard n).jlHead n h = w → w.jlState n = 4 →
         (h.seq ≠ (w.lnk.link n).got % 65536 → exec (.sequencedFlitReceive f) s = .next (w.jlNak n false)) ∧
         (h.seq = (w.lnk.link n).got % 65536 → w.secured n = false → exec (.sequencedFlitReceive f) s =
           .next ((((w.setLink n { (w.lnk.link n) with got := (w.lnk.link n).got + 1, naked := false }).jlAccept n h ((b.drop 12).take (h.size false)) f).idleOut
             n false h.vc 1).jlPump n))))) ∧
  (∀ (n : Nat) (s : State), s.hub.get GLB.STATUS.FROZEN = 0 →
     let x := s.lnk.link n
     let every := if s.jlState n = 4 then 1000000000 else 1000000
     (∀ rev, (s.jlState n ≠ 2 → exec (.linkAligned n rev) s = .next s) ∧
       (s.jlState n = 2 → exec (.linkAligned n rev) s =
         .next ((({ s with hub := s.hub.set1 LNK.JL_STAT.REVERSED n (if rev then 1 else 0) } : State).jlEnter n 3).helloOut n))) ∧
     (s.jlState n = 3 ∨ s.jlState n = 4 ∨ s.jlState n = 6 ∨ s.jlState n = 7 →
       (∀ t, x.helloAt = some t → s.hub.elapsed < t + every → exec (.helloTimer n) s = .next s) ∧
       ((∀ t, x.helloAt = some t → t + every ≤ s.hub.elapsed) → exec (.helloTimer n) s = .next (s.helloOut n))) ∧
     (s.jlState n = 8 → (s.hub.elapsed ≤ x.holdAt + 200000 → exec (.holdTimeout n) s = .next s) ∧
       (x.holdAt + 200000 < s.hub.elapsed → exec (.holdTimeout n) s =
         .next (({ (s.jlEnter n 1) with hub := (s.jlEnter n 1).hub.raise { code := 0x130B, detail := [n] } } : State).handCheck))) ∧
     (∀ p mask, p.number = n →
       (widestGroup p.lanes (mask &&& s.jlUsable p) = none → ∃ w : State, s.linkMask p mask = (w.jlEnter n 1).handCheck ∧
         w.hub = (s.hub.set1 LNK.JL_STAT.WIDTH n 0).set1 LNK.JL_STAT.MASK n 0 ∧ kvGet n w.lnk.narrow = some 0) ∧
       (∀ w, widestGroup p.lanes (mask &&& s.jlUsable p) = some (w, s.hub.get1 LNK.JL_STAT.MASK n) → s.linkMask p mask = s)) ∧
     (s.hub.get1 LNK.JL_STAT.TUNNEL n = 1 → s.jlState n = 4 →
       ((∀ e ∈ x.replay, s.hub.elapsed < e.at_ + max 1000000 (3 * x.srtt)) → exec (.tunnelReplayTimer n) s = .next s) ∧
       ((∃ e ∈ x.replay, e.at_ + max 1000000 (3 * x.srtt) ≤ s.hub.elapsed) → exec (.tunnelReplayTimer n) s = .next (s.jlReplay n)) ∧
       (s.hub.elapsed < x.heard + 3000000000 → exec (.tunnelSilenceTimeout n) s = .next s) ∧
       (x.heard + 3000000000 ≤ s.hub.elapsed → exec (.tunnelSilenceTimeout n) s = .next ((s.jlEnter n 1).handCheck)))) ∧
  ((∀ (e : CmdEnv) (body : List Byte) (s : State),
     let c := bodyN body 0 2 % 4096
     let dev := bodyN body 2 2 % 2048
     (s.hub.unitCount 14 ≤ bodyU8 body 0 → exec (.linkStats e body) s = .next (s.done e 0x0902 3 [])) ∧
     (bodyU8 body 0 < s.hub.unitCount 14 → ∃ res, exec (.linkStats e body) s = .next (s.done e 0x0902 0 res) ∧ res.length = 22) ∧
     (kvGet c s.fwd.confs = none → exec (.handover e body) s = .next (s.done e 0x0901 3 [])) ∧
     (∀ x, kvGet c s.fwd.confs = some x →
       (x.reached e.fn = false → exec (.handover e body) s = .next (s.done e 0x0901 5 [])) ∧
       (x.reached e.fn = true → x.gone = true ∨ kvHas c s.lnk.hand = true → exec (.handover e body) s = .next (s.done e 0x0901 6 [])) ∧
       (x.reached e.fn = true → x.gone = false → kvHas c s.lnk.hand = false → s.jlRoute dev ≠ none →
         ∀ h, h = ({ target := dev, tconf := bodyN body 4 2 % 4096, instant := s.hub.compactNs (bodyN body 8 4) (bodyN body 12 4), env := e } : Handover) →
         exec (.handover e body) s = .next ((s.setHand c h).jlSvc dev (s.copyMsg c h.tconf))))) ∧
   (∀ (c : Nat) (h : Handover) (s : State), kvGet c s.lnk.hand = some h →
     (h.switched ≠ none ∨ s.hub.time.total < ceilDiv h.instant 125000 * 125000 ∨ s.hub.get GLB.STATUS.FROZEN = 1 →
       exec (.handoverSwitch c) s = .next s) ∧
     (h.switched = none → ceilDiv h.instant 125000 * 125000 ≤ s.hub.time.total → s.hub.get GLB.STATUS.FROZEN = 0 →
       (s.jlRoute h.target = none → exec (.handoverSwitch c) s = .next (s.handLost c h)) ∧
       (s.jlRoute h.target ≠ none → h.copied = false → exec (.handoverSwitch c) s = .next s) ∧
       (s.jlRoute h.target ≠ none → h.copied = true → exec (.handoverSwitch c) s =
         .next ((s.fwd.confOuts c).foldl (fun a i => a.handOut h.target i) (s.setHand c { h with switched := some s.hub.elapsed })))) ∧
     (∀ x, kvGet c s.fwd.confs = some x →
       (h.switched = none ∨ (∃ t, h.switched = some t ∧ s.hub.elapsed < t + 1000000000) → exec (.handoverTailEnd c) s = .next s) ∧
       (∀ t, h.switched = some t → t + 1000000000 ≤ s.hub.elapsed → s.hub.get GLB.STATUS.FROZEN = 0 → x.gone = false → s.fwd.confLegs c = [] →
         ∃ w : State, w = (({ s.dropHand c with fwd := { s.fwd with confs := kvPut c { x with gone := true } s.fwd.confs } } : State).removal
             ⟨0, c, some (h.env, 0x0901)⟩) ∧
           exec (.handoverTailEnd c) s = .next { w with hub := w.hub.raise { code := 0x130C, detail := [c, h.target, 0] } }))))

/-! ### The Deadbolt (chapter 20) -/

/-- R378, R379, Table 20.2: the commands that need no authentication. A transfer of another length is refused with LENGTH. A nonce is a free value and
expires a second after its issue, not before; READ answers 1 to 16 registers; a key is written only while it reads blank; an unknown command is
UNKNOWN. R379, R401, Table 20.2: an authenticated command uses up the nonce whatever its outcome, and is refused without a current nonce, without a
key, or with a wrong MAC; a stopped device, and a held one, answers BUSY. Where the rules leave a detail open, this states the model's reading or
choice: log entries 4 and 80. -/
def Obligations.ManagementPort : Prop :=
  (∀ (f : MgmtFrame) (s : State),
     (s.mgmtAnswers = false → exec (.getNonce f) s = .next s ∧ exec (.read f) s = .next s ∧ exec (.provision f) s = .next s ∧ exec (.mgmtUnknownCommand f) s = .next s) ∧
     (s.mgmtAnswers = true →
       (mgmtSized f false = false → exec (.getNonce f) s = .next (s.reply 0x01 4 []) ∧ exec (.read f) s = .next (s.reply 0x02 4 []) ∧
         exec (.provision f) s = .next (s.reply 0x03 4 [])) ∧
       (mgmtSized f false = true →
         (∃ t n, exec (.getNonce f) s = .next (State.reply t 0x01 0 (leBytes 8 n)) ∧ n = s.hub.freeVal (2 ^ 64) ∧
           t = { s with hub := s.hub.freeTick, dbt := { s.dbt with nonce := some n, nonceAt := s.hub.elapsed } }) ∧
         (bodyU8 (mgmtPayload f) 4 = 0 ∨ 16 < bodyU8 (mgmtPayload f) 4 → exec (.read f) s = .next (s.reply 0x02 4 [])) ∧
         (1 ≤ bodyU8 (mgmtPayload f) 4 → bodyU8 (mgmtPayload f) 4 ≤ 16 → ∃ res, exec (.read f) s = .next (s.reply 0x02 0 res) ∧
           res.length = 4 * bodyU8 (mgmtPayload f) 4 ∧ res.take 4 = leBytes 4 (s.hub.mgmtRead (bodyN (mgmtPayload f) 0 4 / 4 * 4)).toNat) ∧
         (s.dbt.mgmtKey ≠ 0 → exec (.provision f) s = .next (s.reply 0x03 2 [])) ∧
         (s.dbt.mgmtKey = 0 → ∃ t, exec (.provision f) s = .next (State.reply t 0x03 0 []) ∧ t.dbt = { s.dbt with mgmtKey := leNat ((mgmtPayload f).take 32) } ∧
           t.hub = s.hub.set DBT.STATUS.MGMT_KEY (if leNat ((mgmtPayload f).take 32) = 0 then 0 else 1))) ∧
       exec (.mgmtUnknownCommand f) s = .next (s.reply (bodyU8 f.bytes 0) (if 64 < mgmtLen f then 4 else 5) [])) ∧
     (s.hub.elapsed < s.dbt.nonceAt + 1000000000 → exec .nonceExpiry s = .next s) ∧
     (s.dbt.nonceAt + 1000000000 ≤ s.hub.elapsed → exec .nonceExpiry s = .next { s with dbt := { s.dbt with nonce := none } })) ∧
  (∀ (f : MgmtFrame) (key : Option (List Byte)) (s : State), s.mgmtAnswers = true →
     ∀ p ∈ [(0x10, Instr.setPower f), (0x11, .setPace f), (0x12, .setPolicy f), (0x13, .setBucket f), (0x14, .setKeyMax f), (0x15, .wrapKey f key), (0x16, .debug f),
         (0x17, .setBist f), (0x18, .bistRun f), (0x19, .march f), (0x1A, .retire f), (0x1B, .shutterFreeze f), (0x1B, .shutterRelease f), (0x1C, .warm f)],
       ∀ s1 : State, s1 = { s with dbt := { s.dbt with nonce := none } } →
       (mgmtSized f true = false → exec p.2 s = .next (s1.reply p.1 4 [])) ∧
       (mgmtSized f true = true →
         (s.dbt.nonce ≠ some (mgmtNonce f) ∨ s.nonceOld = true → exec p.2 s = .next (s1.authRefused p.1 1)) ∧
         (s.dbt.nonce = some (mgmtNonce f) → s.nonceOld = false →
           (s.dbt.mgmtKey = 0 → exec p.2 s = .next (s1.authRefused p.1 3)) ∧
           (s.dbt.mgmtKey ≠ 0 → f.macOk = false → exec p.2 s = .next (s1.authRefused p.1 2)) ∧
           (s.dbt.mgmtKey ≠ 0 → f.macOk = true → s.start.phase = .stopped ∨ s.start.phase = .held → exec p.2 s = .next (s1.reply p.1 6 [])))))

/-- Table 20.2, R386–R390, R400: what an authenticated command does once it is accepted. Where the rules leave a detail open, this states the model's
reading or choice: log entries 80, 81 and 82. -/
def Obligations.AuthenticatedCommands : Prop :=
  ∀ (f : MgmtFrame) (s : State), s.mgmtAnswers = true → mgmtSized f true = true → s.dbt.nonce = some (mgmtNonce f) → s.nonceOld = false → s.dbt.mgmtKey ≠ 0 →
    f.macOk = true → s.start.phase ≠ .stopped → s.start.phase ≠ .held → ∀ s1 : State, s1 = { s with dbt := { s.dbt with nonce := none } } →
    let p := mgmtPayload f
    (∃ t, exec (.setPower f) s = .next (State.reply t 0x10 0 []) ∧
      t = { s1 with hub := (s.hub.set DBT.POWER.CAP_W (bodyN p 0 2)).set DBT.POWER.TJ_LIMIT (bodyU8 p 2) }) ∧
    (∃ t, exec (.setPace f) s = .next (State.reply t 0x11 0 []) ∧ t = { s1 with hub := s.hub.set GLB.PACE_LOOP.TARGET (bodyN p 0 2) }) ∧
    (∀ w, w = BitVec.ofNat 32 (bodyN p 0 4) → ∃ t h, exec (.setPolicy f) s = .next (State.reply t 0x12 0 []) ∧
      h = (s.hub.set DBT.POLICY.KEEP_KEYS (DBT.POLICY.KEEP_KEYS.of w)).set DBT.POLICY.SHUTTER_EN (DBT.POLICY.SHUTTER_EN.of w) ∧
      t = { s1 with hub := Hub.set h DBT.POLICY.TRIG (DBT.POLICY.TRIG.of w) }) ∧
    (∃ t, exec (.setBucket f) s = .next (State.reply t 0x13 0 []) ∧
      t = { s1 with hub := (s.hub.set DBT.BUCKET.T (bodyU8 p 0)).set DBT.BUCKET.W_S (bodyN p 2 4) }) ∧
    (1 ≤ bodyU8 p 0 → bodyU8 p 0 ≤ 7 → ∃ t, exec (.setKeyMax f) s = .next (State.reply t 0x14 0 []) ∧
      t = { s1 with hub := s.hub.set64 CIP.HARD_MAX_LO.MAX (bodyU8 p 0) (bodyN p 4 8) }) ∧
    (exec (.wrapKey f none) s = .next (s1.reply 0x15 2 [])) ∧
    (∀ k : List Byte, ∃ t, exec (.wrapKey f (some k)) s = .next (State.reply t 0x15 0 []) ∧
      t = { s1 with hub := s.hub.set DBT.STATUS.WRAP_KEY 1, dbt := { s1.dbt with wrapKey := some (leNat (k.take 32)) } }) ∧
    (∃ t h, exec (.debug f) s = .next (State.reply t 0x16 0 []) ∧
      h = ((s.hub.set DBT.DEBUG.PEEP (if bodyU8 p 0 = 0 then 0 else 1)).set DBT.DEBUG.TEST (if bodyU8 p 1 = 0 then 0 else 1)).set MEM.TEST_CTL.ENABLE
        (if bodyU8 p 1 = 0 then 0 else 1) ∧ t = { s1 with hub := Hub.set h MEM.TEST_CTL.CHANNEL (bodyN p 2 4) }) ∧
    (∀ t, t = ({ s1 with hub := (s.hub.set DBT.BIST_CTL.ENABLE (if bodyU8 p 0 ≠ 0 then 1 else 0)).set DBT.BIST_CTL.HOURS (bodyU8 p 1) } : State) →
      (bodyU8 p 0 ≠ 0 → s.start.opened = true → s.hub.get DBT.BIST_CTL.ENABLE = 0 ∨ s.hub.get DBT.BIST_CTL.HOURS ≠ bodyU8 p 1 →
        exec (.setBist f) s = .next (t.bistRestart.reply 0x17 0 [])) ∧
      (bodyU8 p 0 = 0 ∨ s.start.opened = false ∨ (s.hub.get DBT.BIST_CTL.ENABLE ≠ 0 ∧ s.hub.get DBT.BIST_CTL.HOURS = bodyU8 p 1) →
        exec (.setBist f) s = .next (t.reply 0x17 0 []))) ∧
    (s1.bistReady (bodyN p 0 4) = false → exec (.bistRun f) s = .next (s1.reply 0x18 6 [])) ∧
    (s1.bistReady (bodyN p 0 4) = true → ∃ t, exec (.bistRun f) s = .next (State.reply t 0x18 0 []) ∧
      t = { s1 with dbt := { s1.dbt with bistSched := s1.dbt.bistSched ++ [(bodyN p 0 4 / 2 ^ 24, bodyN p 0 4 % 2 ^ 24)] } }) ∧
    (s1.canMarch (bodyN p 0 4) = false → exec (.march f) s = .next (s1.reply 0x19 6 [])) ∧
    (s1.canMarch (bodyN p 0 4) = true → ∃ t, exec (.march f) s = .next (State.reply t 0x19 0 []) ∧
      t = { s1 with mem := s.mem.marched (bodyN p 0 4), dbt := { s1.dbt with march := s1.dbt.march ++ [bodyN p 0 4] } }) ∧
    (exec (.retire f) s = .next ((s1.permanent (bodyN p 0 4) 6).reply 0x1A 0 [])) ∧
    (bodyU8 p 0 = 1 → exec (.shutterFreeze f) s = .next ((s1.shutterTrigger 2).reply 0x1B 0 [])) ∧
    (bodyU8 p 0 = 0 → exec (.shutterRelease f) s = .next ((s1.release (bodyU8 p 1 != 0)).reply 0x1B 0 [])) ∧
    (2 ≤ bodyU8 p 0 → exec (.shutterFreeze f) s = .next (s1.reply 0x1B 5 []) ∧ exec (.shutterRelease f) s = .next (s1.reply 0x1B 5 [])) ∧
    (exec (.warm f) s = .next ((s1.warmRequest (bodyU8 p 0 != 0) 3).reply 0x1C 0 []))

/-- R390–R392, R412: an armed trigger freezes a running core, and FROZEN then reads 1; a fall of the pin triggers and its rise releases; a temperature
above the limit for a second triggers once, and not before; HBM enters self-refresh 1 µs after the freeze; a short Shutter resumes, in its time, and a
long one becomes a warm start. Where the rules leave a detail open, this states the model's reading or choice: log entries 84 and 138. -/
def Obligations.ShutterCourse : Prop :=
  (∀ (cause : Nat) (s : State), s.hub.shutterArmed cause = true → s.start.phase = .running → s.hub.get GLB.STATUS.FROZEN = 0 →
    ∃ t : State, t = ({ s with dbt := { s.dbt with shutHold := s.dbt.shutHold || cause != 1 } } : State).freeze cause ∧ s.shutterTrigger cause = t) ∧
  (∀ (cause : Nat) (s : State), s.canon → (s.freeze cause).hub.get GLB.STATUS.FROZEN = 1) ∧
  (∀ s : State,
    (∃ s1 : State, s1 = { s with dbt := { s.dbt with shutPin := true } } ∧ exec .shutterNFall s = .next (s1.shutterTrigger 1)) ∧
    (∃ s1 : State, s1 = { s with dbt := { s.dbt with shutPin := false } } ∧
      exec .shutterNRise s = .next (if s.dbt.shutPin = true ∧ s.dbt.shutHold = false then s1.release false else s1)) ∧
    (s.start.phase = .held ∨ s.hotDue = false → exec .thermalTrigger s = .next s) ∧
    (s.start.phase ≠ .held → s.hotDue = true → ∃ s1 : State, s1 = { s with hub := s.hub.raise { code := 0x1508 }, dbt := { s.dbt with hotSaid := true } } ∧
      exec .thermalTrigger s = .next (s1.shutterTrigger 6)) ∧
    (∀ core, (16 ≤ core → exec (.lintelCoreFault core) s = .next s) ∧
      (core < 16 → exec (.lintelCoreFault core) s = .next ((s.transient (chanId 0x21 core)).shutterTrigger 5))) ∧
    (s.hub.get GLB.STATUS.FROZEN = 1 → s.dbt.resuming = false → 1000 ≤ s.shutNs → exec .hbmSelfRefreshEntry s =
      .next { s with hub := s.hub.stacksTo 2 4, dbt := { s.dbt with selfRefresh := true } }) ∧
    (s.hub.get GLB.STATUS.FROZEN ≠ 1 ∨ s.dbt.resuming = true ∨ s.shutNs < 1000 → exec .hbmSelfRefreshEntry s = .next s) ∧
    (s.shutNs < 200000 → s.start.warmReq = none → (s.letGo false).dbt.resuming = true ∧ (s.letGo false).dbt.relAt = s.hub.elapsed ∧ (s.letGo false).start = s.start) ∧
    (200000 ≤ s.shutNs → s.start.phase = .running → s.dbt.shutFaults = [] → s.canon → (s.letGo false).start.phase = .warm 1) ∧
    (s.dbt.resuming = false ∨ (s.dbt.selfRefresh = true ∧ s.hub.elapsed < s.dbt.relAt + 1200) → exec .resumeDone s = .next s) ∧
    (s.dbt.resuming = true → s.dbt.selfRefresh = false ∨ s.dbt.relAt + 1200 ≤ s.hub.elapsed → s.dbt.shutFaults = [] →
      ∃ t : State, exec .resumeDone s = .next t ∧ t.dbt.resuming = false ∧ t.dbt.selfRefresh = false ∧ t.dbt.shutHold = false ∧ t.start = s.start))

/-- R377, R381, R386, R387, R389, R393: a mismatch restarts the Deadbolt, a second one within a second is a Shutter trigger, and what came meanwhile
is judged after the restart; a bucket leaks at the end of its interval; scheduled tests fall due in their time; self-tests and march tests end; the
test port shifts out what its instruction selects. Where the rules leave a detail open, this states the model's reading or choice: log entries 82, 83
and 91. -/
def Obligations.DeadboltEvents : Prop :=
  ∀ s : State,
    (∀ s1 : State, s1 = { s with dbt := { s.dbt with restarting := true, mismatchAt := some s.hub.ticks, nonce := none } } →
      ((∀ m, s.dbt.mismatchAt = some m → m + 125000000 < s.hub.ticks) → exec .dbtLockstepMismatch s = .next s1) ∧
      (∀ m, s.dbt.mismatchAt = some m → s.hub.ticks ≤ m + 125000000 → exec .dbtLockstepMismatch s = .next (s1.shutterTrigger 7))) ∧
    (s.dbt.restarting = false → exec .dbtRestart s = .next s) ∧
    (s.dbt.restarting = true → ∃ s1 : State, s1 = { s with hub := s.hub.raise { code := 0x1506 }, dbt := { s.dbt with restarting := false, inFifo := [] },
                                                           start := { s.start with stepAt := s.hub.elapsed } } ∧
      exec .dbtRestart s = .next (s1.judge s.dbt.inFifo)) ∧
    (∀ ch, kvGet ch s.dbt.leaks = none → exec (.bucketLeak ch) s = .next s) ∧
    (∀ ch x, kvGet ch s.dbt.leaks = some x →
      (s.hub.elapsed < x.1 + x.2 ∨ s.dbt.restarting = true → exec (.bucketLeak ch) s = .next s) ∧
      (∀ r, x.1 + x.2 ≤ s.hub.elapsed → s.dbt.restarting = false → s.hub.chan ch = r → r ≠ .none → r ≠ .page → 1 < s.hub.chanGet r DBT.CH.COUNT →
        ∃ t : State, exec (.bucketLeak ch) s = .next t ∧ t.hub = s.hub.chanSet r DBT.CH.COUNT (s.hub.chanGet r DBT.CH.COUNT - 1) ∧
          kvGet ch t.dbt.leaks = some (x.1 + x.2, s.hub.leakNs))) ∧
    (∀ ty, (s.bistNow ty = false ∨ s.hub.get DBT.BIST_CTL.ENABLE = 0 ∨ s.start.opened = false ∨ s.dbt.restarting = true → exec (.bistScheduleTimer ty) s = .next s) ∧
      (s.bistNow ty = true → s.hub.get DBT.BIST_CTL.ENABLE ≠ 0 → s.start.opened = true → s.dbt.restarting = false → s.start.phase = .running →
        exec (.bistScheduleTimer ty) s = .next ((s.bistTurn ty).bistDue ty))) ∧
    (∀ ty inst x, s.dbt.tests.find? (fun (t : BistTest) => t.ty = ty ∧ t.inst = inst) = some x →
      (s.hub.get GLB.STATUS.FROZEN = 1 → ∀ pass, exec (.bistTestDone ty inst pass) s = .next s) ∧
      (s.hub.get GLB.STATUS.FROZEN ≠ 1 →
        (∃ s1 : State, s1 = { (s.bistOver 1 ty inst) with hub := (s.bistOver 1 ty inst).hub.raise { code := 0x1602, channel := chanId ty inst, sash := 0x402 } } ∧
          exec (.bistTestDone ty inst true) s = .next s1.markSpares) ∧
        (x.runs = 0 → ∃ t : State, exec (.bistTestDone ty inst false) s = .next t ∧
          t.dbt.tests = s.dbt.tests.map fun (y : BistTest) => if y = x then { y with runs := 1 } else y))) ∧
    (∀ ch rest twice, s.dbt.march = ch :: rest → ∃ t : State, exec (.marchDone 0 twice) s = .next t ∧ t.dbt = { s.dbt with march := rest } ∧ t.mem = s.mem.marched ch ∧
      t.hub = s.hub.raise { code := 0x1605, channel := ch, detail := [1] }) ∧
    (s.dbt.march = [] → ∀ words twice, exec (.marchDone words twice) s = .next s) ∧
    (∀ instr, (s.hub.get DBT.DEBUG.PEEP = 0 → instr ≠ 0xFF → ∃ t : State, exec (.peepTapShift instr) s = .next t ∧
        t = { s with hub := s.hub.emit (.token 0 "idcode" [0x20E21597]) }) ∧
      (instr = 0xFF → ∃ t : State, exec (.peepTapShift instr) s = .next t ∧ t = { s with hub := s.hub.emit (.token 0 "bypass" []) }) ∧
      (instr = 0x3C → s.hub.get DBT.DEBUG.PEEP = 1 → ∃ t : State, exec (.peepTapShift instr) s = .next t ∧
        t = { s with hub := s.hub.emit (.token 0 "image" (s.stateImage.map BitVec.toNat)) }))

/-! ### Starts (chapter 21) -/

/-- R398, R400–R402, R407: a cold start begins only where the device is held, and keeps OTP and flash; a step's end begins the next; a failed first
step runs again, up to 3 times, and then stops the start; a warm start begins at W1, or waits for the start or Shutter in progress, and restarts at
the end of a warm step; reset or a loss of power holds the device. Where the rules leave a detail open, this states the model's reading or choice: log
entries 86, 87, 89 and 139. -/
def Obligations.StartCourse : Prop :=
  (∀ s : State,
    (s.start.phase ≠ .held → exec .coldStart s = .next s) ∧
    (s.start.phase = .held → ∃ t : State, exec .coldStart s = .next t ∧ t.start.phase = .cold 1 ∧ t.mem = {} ∧ t.dbt.mgmtKey = s.dbt.mgmtKey ∧
      t.ldr.flash = s.ldr.flash ∧ t.pending = s.pending) ∧
    (∃ t : State, exec .resetNFall s = .next t ∧ exec .powerLoss s = .next t ∧ t.start.phase = .held ∧ t.mem = {} ∧ t.fab = {} ∧ t.dbt.mgmtKey = s.dbt.mgmtKey ∧
      t.ldr.flash = s.ldr.flash ∧ t.pending = s.pending) ∧
    (exec .warmNFall s = .next (s.warmRequest false 1)) ∧
    (∀ fn val, fn ≠ 0 ∨ GLB.START_CTL.WARM.of val = 0 ∨ s.hub.pcieDown = true → exec (.startCtlWarm fn val) s = .next s) ∧
    (∀ val, GLB.START_CTL.WARM.of val = 1 → s.hub.pcieDown = false → s.hub.bar = .live ∨ s.hub.bar = .early → exec (.startCtlWarm 0 val) s =
      .next (s.warmRequest (GLB.START_CTL.RECOVERY.of val == 1) 2)) ∧
    (∀ rec src, (s.start.phase = .running → s.hub.get GLB.STATUS.FROZEN = 0 → (s.warmRequest rec src).start.phase = .warm 1) ∧
      (s.start.phase = .stopped ∨ s.start.phase = .held → s.warmRequest rec src = s) ∧
      (s.start.phase = .running → s.hub.get GLB.STATUS.FROZEN = 1 → s.start.warmReq = none →
        ∃ t : State, t = { s with start := { s.start with warmReq := some ⟨rec, src, s.warmCapture⟩ } } ∧ s.warmRequest rec src = t))) ∧
  (∀ (r : StepEnd) (s : State),
    (s.stepping = false → exec (.coldStepComplete r) s = .next s ∧ exec (.warmStepComplete r) s = .next s) ∧
    (s.stepping = true →
      (s.start.phase = .cold 1 →
        (r.ok = true → exec (.coldStepComplete r) s = .next (s.enter (.cold 2))) ∧
        (r.ok = false → s.start.repeats < 3 → exec (.coldStepComplete r) s = .next s.stepRetry) ∧
        (r.ok = false → 3 ≤ s.start.repeats → exec (.coldStepComplete r) s = .next (s.startStop 1))) ∧
      (s.start.phase = .warm 1 →
        (s.start.warmReq = none → r.ok = true → exec (.warmStepComplete r) s = .next (s.enter (.warm 2))) ∧
        (∀ q, s.start.warmReq = some q → exec (.warmStepComplete r) s =
          .next (s.warmBegin { q with recovery := q.recovery || s.hub.get GLB.START_STATUS.RECOVERY == 1 } true)))))
end

