-- ==== Sys2Proof/Laws/KeptBase.lean ====
section
/-! SUPPORT. What a command leaves alone: the definitions the frame lemmas `_kept` and `_soft` are stated in, and how they compose.
A lemma `f_kept` says that `f` leaves `State.kept` as it was; for a command it also says that the command answers a next state. -/

namespace Sys2Proof.Machine

/-- What an ordinary command leaves alone: the waiting commands, the time increment, the management key and the flash. -/
def State.kept (s : State) : List Instr × Nat × Nat × List Host.Cell := (s.pending, s.tim.incr, s.dbt.mgmtKey, s.ldr.flash)
theorem State.kept_mk (hub tim fab lch ldr dbt start qsc mem fwd cip enc spl dec cmp bio aud dbl hng lnk pending) :
    State.kept ⟨hub, tim, fab, lch, ldr, dbt, start, qsc, mem, fwd, cip, enc, spl, dec, cmp, bio, aud, dbl, hng, lnk, pending⟩ =
      (pending, tim.incr, dbt.mgmtKey, ldr.flash) := Eq.trans rfl rfl
theorem State.kept_fold (s : State) : (s.pending, s.tim.incr, s.dbt.mgmtKey, s.ldr.flash) = s.kept := Eq.trans rfl rfl
theorem kept_ite (c : Prop) [Decidable c] (a b : State) : (if c then a else b).kept = if c then a.kept else b.kept := by split <;> rfl
theorem kept_ite_fst {β : Type} (c : Prop) [Decidable c] (a b : State × β) :
    (if c then a else b).1.kept = if c then a.1.kept else b.1.kept := by split <;> rfl
theorem kept_foldl {β : Type} (g : State → β → State) (h : ∀ a b, (g a b).kept = a.kept) (l : List β) (s : State) :
    (l.foldl g s).kept = s.kept := by
  induction l generalizing s with
  | nil => rfl
  | cons b l ih => rw [List.foldl_cons, ih, h]
theorem kept_foldl_fst {β γ : Type} (g : State × γ → β → State × γ) (h : ∀ a b, (g a b).1.kept = a.1.kept) (l : List β) (s : State × γ) :
    (l.foldl g s).1.kept = s.1.kept := by
  induction l generalizing s with
  | nil => rfl
  | cons b l ih => rw [List.foldl_cons, ih, h]
theorem TimSt.setPin_incr (t : TimSt) (n : Nat) (p : TevPin) : (t.setPin n p).incr = t.incr := Eq.trans rfl rfl
theorem TimSt.setPort_incr (t : TimSt) (n : Nat) (p : PtpPort) : (t.setPort n p).incr = t.incr := Eq.trans rfl rfl
theorem TimSt.publish_incr (t : TimSt) : t.publish.incr = t.incr := Eq.trans rfl rfl
theorem TimSt.foldl_incr {β : Type} (g : TimSt → β → TimSt) (h : ∀ a b, (g a b).incr = a.incr) (l : List β) (t : TimSt) :
    (l.foldl g t).incr = t.incr := by
  induction l generalizing t with
  | nil => rfl
  | cons b l ih => rw [List.foldl_cons, ih, h]
theorem LdrSt.fwCopy_flash (l : LdrSt) (r : FwRec) : (l.fwCopy r).flash = l.flash := by
  unfold LdrSt.fwCopy
  generalize List.range 16 = ns
  dsimp only
  induction ns generalizing l with
  | nil => rfl
  | cons n ns ih =>
    rw [List.foldl_cons]
    split
    · exact ih _
    · exact ih _
theorem LdrSt.foldl_flash {β : Type} (g : LdrSt → β → LdrSt) (h : ∀ a b, (g a b).flash = a.flash) (l : List β) (t : LdrSt) :
    (l.foldl g t).flash = t.flash := by
  induction l generalizing t with
  | nil => rfl
  | cons b l ih => rw [List.foldl_cons, ih, h]
theorem TimSt.setKey_incr (t : TimSt) (k v : Nat) : (t.setKey k v).incr = t.incr := by unfold TimSt.setKey; split <;> rfl
/-- What EVERY command leaves alone: the rest of the queue, the flash, a management key once provisioned (R378) and the range of the
increment (R309). -/
def State.Soft (s t : State) : Prop :=
  t.pending = s.pending ∧ t.ldr.flash = s.ldr.flash ∧ (s.dbt.mgmtKey ≠ 0 → t.dbt.mgmtKey = s.dbt.mgmtKey) ∧ (s.incrOk → t.incrOk)
theorem clampIncr_range (v : Nat) : incrMin ≤ clampIncr v ∧ clampIncr v ≤ incrMax := by
  have h : incrMin ≤ incrMax := by decide
  unfold clampIncr
  exact ⟨by omega, by omega⟩
theorem incrOk_reset : incrMin ≤ 8 * 2 ^ 40 ∧ 8 * 2 ^ 40 ≤ incrMax := by decide
theorem soft_of_kept {s t : State} (h : t.kept = s.kept) : s.Soft t := by
  simp only [State.kept, Prod.mk.injEq] at h
  obtain ⟨h1, h2, h3, h4⟩ := h
  refine ⟨h1, h4, fun _ => h3, fun h => ?_⟩
  unfold State.incrOk
  rw [h2]
  exact h
theorem soft_trans {s t u : State} (h : s.Soft t) (g : t.Soft u) : s.Soft u := by
  obtain ⟨h1, h2, h3, h4⟩ := h
  obtain ⟨g1, g2, g3, g4⟩ := g
  refine ⟨g1.trans h1, g2.trans h2, fun k => ?_, fun k => g4 (h4 k)⟩
  rw [← h3 k]
  exact g3 (by rw [h3 k]; exact k)
theorem kept_hub (s : State) (h : Hub) : State.kept { s with hub := h } = s.kept := Eq.trans rfl rfl
theorem soft_ite {s a b : State} (c : Prop) [Decidable c] (h : s.Soft a) (g : s.Soft b) : s.Soft (if c then a else b) := by
  split
  · exact h
  · exact g
end Sys2Proof.Machine
end

