-- ==== Sys2Proof/Laws/KeptQueues.lean ====
section
/-! SUPPORT. Frame lemmas of queues, time, memory and the slat arbiter: each definition leaves `State.kept` alone. -/

namespace Sys2Proof.Machine

set_option linter.all false

theorem State.settle_kept (s : State) : (State.settle s).kept = s.kept := by
  simp only [State.settle, State.kept_mk, State.kept_fold, kept_ite, kept_ite_fst, TimSt.setPin_incr, TimSt.setKey_incr, TimSt.setPort_incr, TimSt.publish_incr, ite_self, implies_true]
theorem State.done_kept (s : State) (e : CmdEnv) (op st : Nat) (res : List Byte) : (State.done s e op st res).kept = s.kept := by
  simp only [State.done, State.kept_mk, State.kept_fold, kept_ite, kept_ite_fst, TimSt.setPin_incr, TimSt.setKey_incr, TimSt.setPort_incr, TimSt.publish_incr, State.settle_kept, ite_self, implies_true]
theorem State.hold_kept (s : State) (e : CmdEnv) (op : Nat) (i : Instr) : (State.hold s e op i).kept = s.kept := by
  simp only [State.hold, State.kept_mk, State.kept_fold, kept_ite, kept_ite_fst, TimSt.setPin_incr, TimSt.setKey_incr, TimSt.setPort_incr, TimSt.publish_incr, State.settle_kept, ite_self, implies_true]
theorem execFifoFlush_kept (fn n : Nat) (val : Word) (s : State) : ∃ t, execFifoFlush fn n val s = .next t ∧ t.kept = s.kept := by
  refine ⟨_, rfl, ?_⟩; simp only [State.kept_mk, State.kept_fold, kept_ite, kept_ite_fst, TimSt.setPin_incr, TimSt.setKey_incr, TimSt.setPort_incr, TimSt.publish_incr, ite_self, implies_true]
theorem execFifoSizeChange_kept (fn n : Nat) (val : Word) (s : State) : ∃ t, execFifoSizeChange fn n val s = .next t ∧ t.kept = s.kept := by
  refine ⟨_, rfl, ?_⟩; simp only [State.kept_mk, State.kept_fold, kept_ite, kept_ite_fst, TimSt.setPin_incr, TimSt.setKey_incr, TimSt.setPort_incr, TimSt.publish_incr, ite_self, implies_true]
theorem State.setQueue_kept (s : State) (n : Nat) (q : EgrQueue) : (State.setQueue s n q).kept = s.kept := by
  simp only [State.setQueue, State.kept_mk, State.kept_fold, kept_ite, kept_ite_fst, TimSt.setPin_incr, TimSt.setKey_incr, TimSt.setPort_incr, TimSt.publish_incr, ite_self, implies_true]
theorem State.markDepth_kept (s : State) (n : Nat) (q : EgrQueue) : (State.markDepth s n q).kept = s.kept := by
  simp only [State.markDepth, State.kept_mk, State.kept_fold, kept_ite, kept_ite_fst, TimSt.setPin_incr, TimSt.setKey_incr, TimSt.setPort_incr, TimSt.publish_incr, ite_self, implies_true]
theorem State.dropOversize_kept (s : State) (n : Nat) (x0 : Nat) : (State.dropOversize s n x0).kept = s.kept := by
  induction x0 generalizing s n with
  | zero => unfold State.dropOversize; (repeat' split) <;> simp [State.kept_mk, State.kept_fold, kept_ite, kept_ite_fst, TimSt.setPin_incr, TimSt.setKey_incr, TimSt.setPort_incr, TimSt.publish_incr, State.setQueue_kept]
  | succ n ih =>
    unfold State.dropOversize; try dsimp only
    (repeat' split) <;> simp [State.kept_mk, State.kept_fold, kept_ite, kept_ite_fst, TimSt.setPin_incr, TimSt.setKey_incr, TimSt.setPort_incr, TimSt.publish_incr, State.setQueue_kept, ih]
theorem State.enqueue_kept (s : State) (n p c : Nat) (front : Bool) (len : Nat) (msg : OutMsg) (sec : Option CipItem := none)
    (idx : Option IdxEntry := none) : (State.enqueue s n p c front len msg sec idx).kept = s.kept := by
  simp only [State.enqueue, State.kept_mk, State.kept_fold, kept_ite, kept_ite_fst, TimSt.setPin_incr, TimSt.setKey_incr, TimSt.setPort_incr, TimSt.publish_incr, State.dropOversize_kept, State.markDepth_kept, State.setQueue_kept, ite_self, implies_true]
theorem State.sysSend_kept (s : State) (n p len : Nat) (msg : OutMsg) : (State.sysSend s n p len msg).kept = s.kept := by
  simp only [State.sysSend, State.kept_mk, State.kept_fold, kept_ite, kept_ite_fst, TimSt.setPin_incr, TimSt.setKey_incr, TimSt.setPort_incr, TimSt.publish_incr, State.enqueue_kept, ite_self, implies_true]
theorem State.dropPort_kept (s : State) (p : Nat) : (State.dropPort s p).kept = s.kept := by
  simp only [State.dropPort, State.kept_mk, State.kept_fold, kept_ite, kept_ite_fst, TimSt.setPin_incr, TimSt.setKey_incr, TimSt.setPort_incr, TimSt.publish_incr, State.dropOversize_kept, kept_foldl, ite_self, implies_true]
theorem execRateWheelSlot_kept (n : Nat) (s : State) : ∃ t, execRateWheelSlot n s = .next t ∧ t.kept = s.kept := by
  unfold execRateWheelSlot; refine ⟨_, rfl, ?_⟩; try dsimp only
  (repeat' split) <;> (first | done | (simp only [State.kept_mk, State.kept_fold, kept_ite, kept_ite_fst, TimSt.setPin_incr, TimSt.setKey_incr, TimSt.setPort_incr, TimSt.publish_incr, State.setQueue_kept, ite_self, implies_true]; done) | (simp [State.kept_mk, State.kept_fold, kept_ite, kept_ite_fst, TimSt.setPin_incr, TimSt.setKey_incr, TimSt.setPort_incr, TimSt.publish_incr, State.setQueue_kept]; done))
theorem State.gclPend_kept (s : State) (p : Nat) : (State.gclPend s p).kept = s.kept := by
  simp only [State.gclPend, State.kept_mk, State.kept_fold, kept_ite, kept_ite_fst, TimSt.setPin_incr, TimSt.setKey_incr, TimSt.setPort_incr, TimSt.publish_incr, ite_self, implies_true]
theorem State.gateEntry_kept (s : State) (p : Nat) : (State.gateEntry s p).kept = s.kept := by
  simp only [State.gateEntry, State.kept_mk, State.kept_fold, kept_ite, kept_ite_fst, TimSt.setPin_incr, TimSt.setKey_incr, TimSt.setPort_incr, TimSt.publish_incr, ite_self, implies_true]
theorem State.gclTake_kept (s : State) (p at_ : Nat) : (State.gclTake s p at_).kept = s.kept := by
  unfold State.gclTake; try dsimp only
  (repeat' split) <;> (first | done | (simp only [State.kept_mk, State.kept_fold, kept_ite, kept_ite_fst, TimSt.setPin_incr, TimSt.setKey_incr, TimSt.setPort_incr, TimSt.publish_incr, State.gateEntry_kept, ite_self, implies_true]; done) | (simp [State.kept_mk, State.kept_fold, kept_ite, kept_ite_fst, TimSt.setPin_incr, TimSt.setKey_incr, TimSt.setPort_incr, TimSt.publish_incr, State.gateEntry_kept]; done))
theorem State.gclDue_kept (s : State) : (State.gclDue s).kept = s.kept := by
  simp only [State.gclDue, State.kept_mk, State.kept_fold, kept_ite, kept_ite_fst, TimSt.setPin_incr, TimSt.setKey_incr, TimSt.setPort_incr, TimSt.publish_incr, State.gateEntry_kept, State.gclTake_kept, kept_foldl, ite_self, implies_true]
theorem execGclTakeover_kept (p : Nat) (s : State) : ∃ t, execGclTakeover p s = .next t ∧ t.kept = s.kept := by
  unfold execGclTakeover; refine ⟨_, rfl, ?_⟩; try dsimp only
  (repeat' split) <;> (first | done | (simp only [State.kept_mk, State.kept_fold, kept_ite, kept_ite_fst, TimSt.setPin_incr, TimSt.setKey_incr, TimSt.setPort_incr, TimSt.publish_incr, State.gclTake_kept, ite_self, implies_true]; done) | (simp [State.kept_mk, State.kept_fold, kept_ite, kept_ite_fst, TimSt.setPin_incr, TimSt.setKey_incr, TimSt.setPort_incr, TimSt.publish_incr, State.gclTake_kept]; done))
theorem execGateEntryChange_kept (p : Nat) (s : State) : ∃ t, execGateEntryChange p s = .next t ∧ t.kept = s.kept := by
  refine ⟨_, rfl, ?_⟩; simp only [State.kept_mk, State.kept_fold, kept_ite, kept_ite_fst, TimSt.setPin_incr, TimSt.setKey_incr, TimSt.setPort_incr, TimSt.publish_incr, State.gateEntry_kept, ite_self, implies_true]
theorem State.sample_kept (s : State) (n : Nat) : (State.sample s n).kept = s.kept := by
  simp only [State.sample, State.kept_mk, State.kept_fold, kept_ite, kept_ite_fst, TimSt.setPin_incr, TimSt.setKey_incr, TimSt.setPort_incr, TimSt.publish_incr, kept_foldl, ite_self, implies_true]
theorem State.timeLock_kept (s : State) : (State.timeLock s).kept = s.kept := by
  simp only [State.timeLock, State.kept_mk, State.kept_fold, kept_ite, kept_ite_fst, TimSt.setPin_incr, TimSt.setKey_incr, TimSt.setPort_incr, TimSt.publish_incr, ite_self, implies_true]
theorem State.timeLoss_kept (s : State) (cause : Nat) : (State.timeLoss s cause).kept = s.kept := by
  simp only [State.timeLoss, State.kept_mk, State.kept_fold, kept_ite, kept_ite_fst, TimSt.setPin_incr, TimSt.setKey_incr, TimSt.setPort_incr, TimSt.publish_incr, ite_self, implies_true]
theorem execNowFracRead_kept (fn : Nat) (s : State) : ∃ t, execNowFracRead fn s = .next t ∧ t.kept = s.kept := by
  refine ⟨_, rfl, ?_⟩; simp only [State.kept_mk, State.kept_fold, kept_ite, kept_ite_fst, TimSt.setPin_incr, TimSt.setKey_incr, TimSt.setPort_incr, TimSt.publish_incr, ite_self, implies_true]
theorem State.incrSet_soft (s : State) (v : Nat) (h : incrMin ≤ v ∧ v ≤ incrMax) : s.Soft (s.incrSet v) := by
  exact ⟨rfl, rfl, fun _ => rfl, fun _ => h⟩
theorem State.incrWrite_soft (s : State) (val : Word) : s.Soft (State.incrWrite s val) := by
  unfold State.incrWrite
  exact State.incrSet_soft s _ (clampIncr_range _)
theorem execIncrWrite_soft (val : Word) (s : State) : ∃ t, execIncrWrite val s = .next t ∧ s.Soft t := by
  unfold execIncrWrite
  refine ⟨_, rfl, ?_⟩
  split
  · exact State.incrWrite_soft s val
  · exact soft_of_kept rfl
theorem State.lockWrite_kept (s : State) (val : Word) : (State.lockWrite s val).kept = s.kept := by
  simp only [State.lockWrite, State.kept_mk, State.kept_fold, kept_ite, kept_ite_fst, TimSt.setPin_incr, TimSt.setKey_incr, TimSt.setPort_incr, TimSt.publish_incr, State.timeLock_kept, State.timeLoss_kept, ite_self, implies_true]
theorem execLockWrite_kept (val : Word) (s : State) : ∃ t, execLockWrite val s = .next t ∧ t.kept = s.kept := by
  refine ⟨_, rfl, ?_⟩; simp only [State.kept_mk, State.kept_fold, kept_ite, kept_ite_fst, TimSt.setPin_incr, TimSt.setKey_incr, TimSt.setPort_incr, TimSt.publish_incr, State.lockWrite_kept, ite_self, implies_true]
theorem execPtpLockDeclared_kept (s : State) : ∃ t, execPtpLockDeclared s = .next t ∧ t.kept = s.kept := by
  refine ⟨_, rfl, ?_⟩; simp only [State.kept_mk, State.kept_fold, kept_ite, kept_ite_fst, TimSt.setPin_incr, TimSt.setKey_incr, TimSt.setPort_incr, TimSt.publish_incr, State.timeLock_kept, ite_self, implies_true]
theorem execPtpLossDeclared_kept (s : State) : ∃ t, execPtpLossDeclared s = .next t ∧ t.kept = s.kept := by
  refine ⟨_, rfl, ?_⟩; simp only [State.kept_mk, State.kept_fold, kept_ite, kept_ite_fst, TimSt.setPin_incr, TimSt.setKey_incr, TimSt.setPort_incr, TimSt.publish_incr, State.timeLoss_kept, ite_self, implies_true]
theorem execTimWatchdogExpiry_kept (s : State) : ∃ t, execTimWatchdogExpiry s = .next t ∧ t.kept = s.kept := by
  refine ⟨_, rfl, ?_⟩; simp only [State.kept_mk, State.kept_fold, kept_ite, kept_ite_fst, TimSt.setPin_incr, TimSt.setKey_incr, TimSt.setPort_incr, TimSt.publish_incr, State.timeLoss_kept, ite_self, implies_true]
theorem execPpsInEdge_kept (s : State) : ∃ t, execPpsInEdge s = .next t ∧ t.kept = s.kept := by
  refine ⟨_, rfl, ?_⟩; simp only [State.kept_mk, State.kept_fold, kept_ite, kept_ite_fst, TimSt.setPin_incr, TimSt.setKey_incr, TimSt.setPort_incr, TimSt.publish_incr, ite_self, implies_true]
theorem execPpsOutPulse_kept (s : State) : ∃ t, execPpsOutPulse s = .next t ∧ t.kept = s.kept := by
  refine ⟨_, rfl, ?_⟩; simp only [State.kept_mk, State.kept_fold, kept_ite, kept_ite_fst, TimSt.setPin_incr, TimSt.setKey_incr, TimSt.setPort_incr, TimSt.publish_incr, ite_self, implies_true]
theorem execPinPulseEnd_kept (pin : Nat) (s : State) : ∃ t, execPinPulseEnd pin s = .next t ∧ t.kept = s.kept := by
  refine ⟨_, rfl, ?_⟩; simp only [State.kept_mk, State.kept_fold, kept_ite, kept_ite_fst, TimSt.setPin_incr, TimSt.setKey_incr, TimSt.setPort_incr, TimSt.publish_incr, ite_self, implies_true]
theorem execTevCaptureEdge_kept (pin : Nat) (s : State) : ∃ t, execTevCaptureEdge pin s = .next t ∧ t.kept = s.kept := by
  refine ⟨_, rfl, ?_⟩; simp only [State.kept_mk, State.kept_fold, kept_ite, kept_ite_fst, TimSt.setPin_incr, TimSt.setKey_incr, TimSt.setPort_incr, TimSt.publish_incr, ite_self, implies_true]
theorem State.tevSchedule_kept (s : State) (n : Nat) : (State.tevSchedule s n).kept = s.kept := by
  simp only [State.tevSchedule, State.kept_mk, State.kept_fold, kept_ite, kept_ite_fst, TimSt.setPin_incr, TimSt.setKey_incr, TimSt.setPort_incr, TimSt.publish_incr, ite_self, implies_true]
theorem execTevConfigWrite_kept (pin reg : Nat) (val : Word) (s : State) : ∃ t, execTevConfigWrite pin reg val s = .next t ∧ t.kept = s.kept := by
  refine ⟨_, rfl, ?_⟩; simp only [State.kept_mk, State.kept_fold, kept_ite, kept_ite_fst, TimSt.setPin_incr, TimSt.setKey_incr, TimSt.setPort_incr, TimSt.publish_incr, State.tevSchedule_kept, ite_self, implies_true]
theorem State.tevCompare_kept (s : State) : (State.tevCompare s).kept = s.kept := by
  simp only [State.tevCompare, State.kept_mk, State.kept_fold, kept_ite, kept_ite_fst, TimSt.setPin_incr, TimSt.setKey_incr, TimSt.setPort_incr, TimSt.publish_incr]
  rw [TimSt.foldl_incr _ (fun a b => by split <;> rfl)]
  rfl
theorem State.tevRise_kept (s : State) (n : Nat) : (State.tevRise s n).kept = s.kept := by
  unfold State.tevRise; try dsimp only
  (repeat' split) <;> (first | done | (simp only [State.kept_mk, State.kept_fold, kept_ite, kept_ite_fst, TimSt.setPin_incr, TimSt.setKey_incr, TimSt.setPort_incr, TimSt.publish_incr, ite_self, implies_true]; done) | (simp [State.kept_mk, State.kept_fold, kept_ite, kept_ite_fst, TimSt.setPin_incr, TimSt.setKey_incr, TimSt.setPort_incr, TimSt.publish_incr]; done))
theorem execTevRise_kept (pin : Nat) (s : State) : ∃ t, execTevRise pin s = .next t ∧ t.kept = s.kept := by
  unfold execTevRise; refine ⟨_, rfl, ?_⟩; try dsimp only
  (repeat' split) <;> (first | done | (simp only [State.kept_mk, State.kept_fold, kept_ite, kept_ite_fst, TimSt.setPin_incr, TimSt.setKey_incr, TimSt.setPort_incr, TimSt.publish_incr, State.tevRise_kept, ite_self, implies_true]; done) | (simp [State.kept_mk, State.kept_fold, kept_ite, kept_ite_fst, TimSt.setPin_incr, TimSt.setKey_incr, TimSt.setPort_incr, TimSt.publish_incr, State.tevRise_kept]; done))
theorem State.tevAfterStep_kept (s : State) : (State.tevAfterStep s).kept = s.kept := by
  unfold State.tevAfterStep; try dsimp only
  (repeat' split) <;> (first | done | (simp only [State.kept_mk, State.kept_fold, kept_ite, kept_ite_fst, TimSt.setPin_incr, TimSt.setKey_incr, TimSt.setPort_incr, TimSt.publish_incr, State.tevRise_kept, kept_foldl, ite_self, implies_true]; done) | (simp [State.kept_mk, State.kept_fold, kept_ite, kept_ite_fst, TimSt.setPin_incr, TimSt.setKey_incr, TimSt.setPort_incr, TimSt.publish_incr, State.tevRise_kept, kept_foldl]; done) | (refine (kept_foldl _ (fun a b => ?_) _ _).trans ?_ <;> (try dsimp only) <;> (repeat' split) <;> (first | (simp only [State.kept_mk, State.kept_fold, kept_ite, kept_ite_fst, TimSt.setPin_incr, TimSt.setKey_incr, TimSt.setPort_incr, TimSt.publish_incr, State.tevRise_kept, kept_foldl, ite_self, implies_true]; done) | (simp [State.kept_mk, State.kept_fold, kept_ite, kept_ite_fst, TimSt.setPin_incr, TimSt.setKey_incr, TimSt.setPort_incr, TimSt.publish_incr, State.tevRise_kept, kept_foldl]; done))))
theorem State.counterStep_kept (s : State) (neg : Bool) : (State.counterStep s neg).kept = s.kept := by
  simp only [State.counterStep, State.kept_mk, State.kept_fold, kept_ite, kept_ite_fst, TimSt.setPin_incr, TimSt.setKey_incr, TimSt.setPort_incr, TimSt.publish_incr, State.tevAfterStep_kept, ite_self, implies_true]
theorem State.ptpSend_kept (s : State) (port kind seq : Nat) (args : List Nat) : (State.ptpSend s port kind seq args).kept = s.kept := by
  simp only [State.ptpSend, State.kept_mk, State.kept_fold, kept_ite, kept_ite_fst, TimSt.setPin_incr, TimSt.setKey_incr, TimSt.setPort_incr, TimSt.publish_incr, State.sysSend_kept, ite_self, implies_true]
theorem State.ptpSlave_kept (s : State) (port : Nat) (on : Option Bool) : (State.ptpSlave s port on).kept = s.kept := by
  unfold State.ptpSlave; try dsimp only
  (repeat' split) <;> (first | done | (simp only [State.kept_mk, State.kept_fold, kept_ite, kept_ite_fst, TimSt.setPin_incr, TimSt.setKey_incr, TimSt.setPort_incr, TimSt.publish_incr, ite_self, implies_true]; done) | (simp [State.kept_mk, State.kept_fold, kept_ite, kept_ite_fst, TimSt.setPin_incr, TimSt.setKey_incr, TimSt.setPort_incr, TimSt.publish_incr]; done))
theorem execPtpFrameReceive_kept (f : PtpFrame) (s : State) : ∃ t, execPtpFrameReceive f s = .next t ∧ t.kept = s.kept := by
  refine ⟨_, rfl, ?_⟩; simp only [State.kept_mk, State.kept_fold, kept_ite, kept_ite_fst, TimSt.setPin_incr, TimSt.setKey_incr, TimSt.setPort_incr, TimSt.publish_incr, State.ptpSend_kept, State.ptpSlave_kept, ite_self, implies_true]
theorem execOneStepSync_kept (port sec ns frac oldSec oldNs : Nat) (oldCorr : Int) (udpSum : Option Nat) (s : State) : ∃ t, execOneStepSync port sec ns frac oldSec oldNs oldCorr udpSum s = .next t ∧ t.kept = s.kept := by
  refine ⟨_, rfl, ?_⟩; simp only [State.kept_mk, State.kept_fold, kept_ite, kept_ite_fst, TimSt.setPin_incr, TimSt.setKey_incr, TimSt.setPort_incr, TimSt.publish_incr, ite_self, implies_true]
theorem execPtpPort_kept (e : CmdEnv) (body : List Byte) (s : State) : ∃ t, execPtpPort e body s = .next t ∧ t.kept = s.kept := by
  refine ⟨_, rfl, ?_⟩; simp only [State.kept_mk, State.kept_fold, kept_ite, kept_ite_fst, TimSt.setPin_incr, TimSt.setKey_incr, TimSt.setPort_incr, TimSt.publish_incr, State.done_kept, ite_self, implies_true]
theorem execPtpStats_kept (e : CmdEnv) (body : List Byte) (s : State) : ∃ t, execPtpStats e body s = .next t ∧ t.kept = s.kept := by
  refine ⟨_, rfl, ?_⟩; simp only [State.kept_mk, State.kept_fold, kept_ite, kept_ite_fst, TimSt.setPin_incr, TimSt.setKey_incr, TimSt.setPort_incr, TimSt.publish_incr, State.done_kept, ite_self, implies_true]
theorem execPtpMessageTimer_kept (port kind sec ns frac : Nat) (s : State) : ∃ t, execPtpMessageTimer port kind sec ns frac s = .next t ∧ t.kept = s.kept := by
  refine ⟨_, rfl, ?_⟩; simp only [State.kept_mk, State.kept_fold, kept_ite, kept_ite_fst, TimSt.setPin_incr, TimSt.setKey_incr, TimSt.setPort_incr, TimSt.publish_incr, State.ptpSend_kept, ite_self, implies_true]
theorem State.doorbell_kept (s : State) (fn q k index : Nat) : (State.doorbell s fn q k index).kept = s.kept := by
  unfold State.doorbell; try dsimp only
  (repeat' split) <;> (first | done | (simp only [State.kept_mk, State.kept_fold, kept_ite, kept_ite_fst, TimSt.setPin_incr, TimSt.setKey_incr, TimSt.setPort_incr, TimSt.publish_incr, ite_self, implies_true]; done) | (simp [State.kept_mk, State.kept_fold, kept_ite, kept_ite_fst, TimSt.setPin_incr, TimSt.setKey_incr, TimSt.setPort_incr, TimSt.publish_incr]; done))
theorem execDbProd_kept (fn q index : Nat) (words : List Byte) (s : State) : ∃ t, execDbProd fn q index words s = .next t ∧ t.kept = s.kept := by
  refine ⟨_, rfl, ?_⟩; simp only [State.kept_mk, State.kept_fold, kept_ite, kept_ite_fst, TimSt.setPin_incr, TimSt.setKey_incr, TimSt.setPort_incr, TimSt.publish_incr, State.doorbell_kept, ite_self, implies_true]
theorem execDbCons_kept (fn q index : Nat) (s : State) : ∃ t, execDbCons fn q index s = .next t ∧ t.kept = s.kept := by
  refine ⟨_, rfl, ?_⟩; simp only [State.kept_mk, State.kept_fold, kept_ite, kept_ite_fst, TimSt.setPin_incr, TimSt.setKey_incr, TimSt.setPort_incr, TimSt.publish_incr, State.doorbell_kept, ite_self, implies_true]
theorem execCommandTake_kept (q : Nat) (s : State) : ∃ t, execCommandTake q s = .next t ∧ t.kept = s.kept := by
  refine ⟨_, rfl, ?_⟩; simp only [State.kept_mk, State.kept_fold, kept_ite, kept_ite_fst, TimSt.setPin_incr, TimSt.setKey_incr, TimSt.setPort_incr, TimSt.publish_incr, ite_self, implies_true]
theorem execQpCfgWrite_kept (fn off : Nat) (val : Word) (s : State) : ∃ t, execQpCfgWrite fn off val s = .next t ∧ t.kept = s.kept := by
  refine ⟨_, rfl, ?_⟩; simp only [State.kept_mk, State.kept_fold, kept_ite, kept_ite_fst, TimSt.setPin_incr, TimSt.setKey_incr, TimSt.setPort_incr, TimSt.publish_incr, ite_self, implies_true]
theorem execVfFlr_kept (vf : Nat) (s : State) : ∃ t, execVfFlr vf s = .next t ∧ t.kept = s.kept := by
  refine ⟨_, rfl, ?_⟩; simp only [State.kept_mk, State.kept_fold, kept_ite, kept_ite_fst, TimSt.setPin_incr, TimSt.setKey_incr, TimSt.setPort_incr, TimSt.publish_incr, kept_foldl, ite_self, implies_true]
theorem State.memLog_kept (s : State) (ev : Ev) : (State.memLog s ev).kept = s.kept := by
  simp only [State.memLog, State.kept_mk, State.kept_fold, kept_ite, kept_ite_fst, TimSt.setPin_incr, TimSt.setKey_incr, TimSt.setPort_incr, TimSt.publish_incr, ite_self, implies_true]
theorem State.wordsRewritten_kept (s : State) (page sash : Nat) (words : List Nat) : (State.wordsRewritten s page sash words).kept = s.kept := by
  simp only [State.wordsRewritten, State.kept_mk, State.kept_fold, kept_ite, kept_ite_fst, TimSt.setPin_incr, TimSt.setKey_incr, TimSt.setPort_incr, TimSt.publish_incr, kept_foldl, ite_self, implies_true]
theorem State.hbmTake_kept (s : State) (stack sash n : Nat) : (State.hbmTake s stack sash n).kept = s.kept := by
  simp only [State.hbmTake, State.kept_mk, State.kept_fold, kept_ite, kept_ite_fst, TimSt.setPin_incr, TimSt.setKey_incr, TimSt.setPort_incr, TimSt.publish_incr, kept_foldl, ite_self, implies_true]
theorem State.wordPut_kept (s : State) (c d : Nat) : (State.wordPut s c d).kept = s.kept := by
  simp only [State.wordPut, State.kept_mk, State.kept_fold, kept_ite, kept_ite_fst, TimSt.setPin_incr, TimSt.setKey_incr, TimSt.setPort_incr, TimSt.publish_incr, ite_self, implies_true]
theorem State.partPoison_kept (s : State) (p : PartRec) (off : Nat) (x0 : Nat) : (State.partPoison s p off x0).kept = s.kept := by
  induction x0 generalizing s p off with
  | zero => unfold State.partPoison; (repeat' split) <;> simp [State.kept_mk, State.kept_fold, kept_ite, kept_ite_fst, TimSt.setPin_incr, TimSt.setKey_incr, TimSt.setPort_incr, TimSt.publish_incr]
  | succ n ih =>
    unfold State.partPoison; try dsimp only
    (repeat' split) <;> simp [State.kept_mk, State.kept_fold, kept_ite, kept_ite_fst, TimSt.setPin_incr, TimSt.setKey_incr, TimSt.setPort_incr, TimSt.publish_incr, ih]
theorem State.bar2Complete_kept (s : State) (fn off n : Nat) : (State.bar2Complete s fn off n).kept = s.kept := by
  simp only [State.bar2Complete, State.kept_mk, State.kept_fold, kept_ite, kept_ite_fst, TimSt.setPin_incr, TimSt.setKey_incr, TimSt.setPort_incr, TimSt.publish_incr, ite_self, implies_true]
theorem State.bar2Read_kept (s : State) (fn off n : Nat) : (State.bar2Read s fn off n).kept = s.kept := by
  unfold State.bar2Read; try dsimp only
  (repeat' split) <;> (first | done | (simp only [State.kept_mk, State.kept_fold, kept_ite, kept_ite_fst, TimSt.setPin_incr, TimSt.setKey_incr, TimSt.setPort_incr, TimSt.publish_incr, State.bar2Complete_kept, kept_foldl, ite_self, implies_true]; done) | (simp [State.kept_mk, State.kept_fold, kept_ite, kept_ite_fst, TimSt.setPin_incr, TimSt.setKey_incr, TimSt.setPort_incr, TimSt.publish_incr, State.bar2Complete_kept, kept_foldl]; done))
theorem execBar2Read_kept (fn off n : Nat) (s : State) : ∃ t, execBar2Read fn off n s = .next t ∧ t.kept = s.kept := by
  unfold execBar2Read; refine ⟨_, rfl, ?_⟩; try dsimp only
  (repeat' split) <;> (first | done | (simp only [State.kept_mk, State.kept_fold, kept_ite, kept_ite_fst, TimSt.setPin_incr, TimSt.setKey_incr, TimSt.setPort_incr, TimSt.publish_incr, State.bar2Read_kept, ite_self, implies_true]; done) | (simp [State.kept_mk, State.kept_fold, kept_ite, kept_ite_fst, TimSt.setPin_incr, TimSt.setKey_incr, TimSt.setPort_incr, TimSt.publish_incr, State.bar2Read_kept]; done))
theorem State.bar2Resume_kept (s : State) : (State.bar2Resume s).kept = s.kept := by
  simp only [State.bar2Resume, State.kept_mk, State.kept_fold, kept_ite, kept_ite_fst, TimSt.setPin_incr, TimSt.setKey_incr, TimSt.setPort_incr, TimSt.publish_incr, State.bar2Read_kept, kept_foldl, ite_self, implies_true]
theorem execHbmRefresh_kept (stack : Nat) (s : State) : ∃ t, execHbmRefresh stack s = .next t ∧ t.kept = s.kept := by
  refine ⟨_, rfl, ?_⟩; simp only [State.kept_mk, State.kept_fold, kept_ite, kept_ite_fst, TimSt.setPin_incr, TimSt.setKey_incr, TimSt.setPort_incr, TimSt.publish_incr, State.hbmTake_kept, ite_self, implies_true]
theorem execHbmTempReading_kept (stack : Nat) (temp : Int) (s : State) : ∃ t, execHbmTempReading stack temp s = .next t ∧ t.kept = s.kept := by
  refine ⟨_, rfl, ?_⟩; simp only [State.kept_mk, State.kept_fold, kept_ite, kept_ite_fst, TimSt.setPin_incr, TimSt.setKey_incr, TimSt.setPort_incr, TimSt.publish_incr, ite_self, implies_true]
theorem State.scrubbed_kept (s : State) (page : Nat) : (State.scrubbed s page).kept = s.kept := by
  simp only [State.scrubbed, State.kept_mk, State.kept_fold, kept_ite, kept_ite_fst, TimSt.setPin_incr, TimSt.setKey_incr, TimSt.setPort_incr, TimSt.publish_incr, State.hbmTake_kept, kept_foldl, ite_self, implies_true]
theorem State.scrubRewrite_kept (s : State) (page : Nat) : (State.scrubRewrite s page).kept = s.kept := by
  simp only [State.scrubRewrite, State.kept_mk, State.kept_fold, kept_ite, kept_ite_fst, TimSt.setPin_incr, TimSt.setKey_incr, TimSt.setPort_incr, TimSt.publish_incr, State.wordsRewritten_kept, ite_self, implies_true]
theorem State.testTake_kept (s : State) (w n : Nat) : (State.testTake s w n).kept = s.kept := by
  simp only [State.testTake, State.kept_mk, State.kept_fold, kept_ite, kept_ite_fst, TimSt.setPin_incr, TimSt.setKey_incr, TimSt.setPort_incr, TimSt.publish_incr, ite_self, implies_true]
theorem execRawWrite_kept (s : State) : ∃ t, execRawWrite s = .next t ∧ t.kept = s.kept := by
  unfold execRawWrite; refine ⟨_, rfl, ?_⟩; try dsimp only
  (repeat' split) <;> (first | done | (simp only [State.kept_mk, State.kept_fold, kept_ite, kept_ite_fst, TimSt.setPin_incr, TimSt.setKey_incr, TimSt.setPort_incr, TimSt.publish_incr, State.testTake_kept, ite_self, implies_true]; done) | (simp [State.kept_mk, State.kept_fold, kept_ite, kept_ite_fst, TimSt.setPin_incr, TimSt.setKey_incr, TimSt.setPort_incr, TimSt.publish_incr, State.testTake_kept]; done))
theorem execRawRead_kept (s : State) : ∃ t, execRawRead s = .next t ∧ t.kept = s.kept := by
  unfold execRawRead; refine ⟨_, rfl, ?_⟩; try dsimp only
  (repeat' split) <;> (first | done | (simp only [State.kept_mk, State.kept_fold, kept_ite, kept_ite_fst, TimSt.setPin_incr, TimSt.setKey_incr, TimSt.setPort_incr, TimSt.publish_incr, State.testTake_kept, ite_self, implies_true]; done) | (simp [State.kept_mk, State.kept_fold, kept_ite, kept_ite_fst, TimSt.setPin_incr, TimSt.setKey_incr, TimSt.setPort_incr, TimSt.publish_incr, State.testTake_kept]; done))
theorem execCheckedRead_kept (s : State) : ∃ t, execCheckedRead s = .next t ∧ t.kept = s.kept := by
  unfold execCheckedRead; refine ⟨_, rfl, ?_⟩; try dsimp only
  (repeat' split) <;> (first | done | (simp only [State.kept_mk, State.kept_fold, kept_ite, kept_ite_fst, TimSt.setPin_incr, TimSt.setKey_incr, TimSt.setPort_incr, TimSt.publish_incr, State.testTake_kept, ite_self, implies_true]; done) | (simp [State.kept_mk, State.kept_fold, kept_ite, kept_ite_fst, TimSt.setPin_incr, TimSt.setKey_incr, TimSt.setPort_incr, TimSt.publish_incr, State.testTake_kept]; done))
theorem execPageRemapDone_kept (channel : Nat) (s : State) : ∃ t, execPageRemapDone channel s = .next t ∧ t.kept = s.kept := by
  refine ⟨_, rfl, ?_⟩; simp only [State.kept_mk, State.kept_fold, kept_ite, kept_ite_fst, TimSt.setPin_incr, TimSt.setKey_incr, TimSt.setPort_incr, TimSt.publish_incr, State.bar2Resume_kept, State.done_kept, ite_self, implies_true]
theorem State.shadowPut_kept (s : State) (fn off : Nat) (mask val : Word) : (State.shadowPut s fn off mask val).kept = s.kept := by
  simp only [State.shadowPut, State.kept_mk, State.kept_fold, kept_ite, kept_ite_fst, TimSt.setPin_incr, TimSt.setKey_incr, TimSt.setPort_incr, TimSt.publish_incr, ite_self, implies_true]
theorem State.shadowClear_kept (s : State) (num off : Nat) (bit : Word) : (State.shadowClear s num off bit).kept = s.kept := by
  simp only [State.shadowClear, State.kept_mk, State.kept_fold, kept_ite, kept_ite_fst, TimSt.setPin_incr, TimSt.setKey_incr, TimSt.setPort_incr, TimSt.publish_incr, ite_self, implies_true]
theorem State.latchStatus_kept (s : State) : (State.latchStatus s).kept = s.kept := by
  simp only [State.latchStatus, State.kept_mk, State.kept_fold, kept_ite, kept_ite_fst, TimSt.setPin_incr, TimSt.setKey_incr, TimSt.setPort_incr, TimSt.publish_incr, ite_self, implies_true]
theorem State.latchAccept_kept (s : State) (l : Latch) : (State.latchAccept s l).kept = s.kept := by
  simp only [State.latchAccept, State.kept_mk, State.kept_fold, kept_ite, kept_ite_fst, TimSt.setPin_incr, TimSt.setKey_incr, TimSt.setPort_incr, TimSt.publish_incr, State.latchStatus_kept, ite_self, implies_true]
theorem State.latchRefuse_kept (s : State) : (State.latchRefuse s).kept = s.kept := by
  simp only [State.latchRefuse, State.kept_mk, State.kept_fold, kept_ite, kept_ite_fst, TimSt.setPin_incr, TimSt.setKey_incr, TimSt.setPort_incr, TimSt.publish_incr, ite_self, implies_true]
theorem State.latchLate_kept (s : State) (num reason : Nat) : (State.latchLate s num reason).kept = s.kept := by
  simp only [State.latchLate, State.kept_mk, State.kept_fold, kept_ite, kept_ite_fst, TimSt.setPin_incr, TimSt.setKey_incr, TimSt.setPort_incr, TimSt.publish_incr, ite_self, implies_true]
theorem State.latchDecide_kept (s : State) (num : Nat) : (State.latchDecide s num).kept = s.kept := by
  unfold State.latchDecide; try dsimp only
  (repeat' split) <;> (first | done | (simp only [State.kept_mk, State.kept_fold, kept_ite, kept_ite_fst, TimSt.setPin_incr, TimSt.setKey_incr, TimSt.setPort_incr, TimSt.publish_incr, State.latchStatus_kept, ite_self, implies_true]; done) | (simp [State.kept_mk, State.kept_fold, kept_ite, kept_ite_fst, TimSt.setPin_incr, TimSt.setKey_incr, TimSt.setPort_incr, TimSt.publish_incr, State.latchStatus_kept]; done))
theorem State.stuckClear_kept (s : State) (evt : Nat) : (State.stuckClear s evt).kept = s.kept := by
  simp only [State.stuckClear, State.kept_mk, State.kept_fold, kept_ite, kept_ite_fst, TimSt.setPin_incr, TimSt.setKey_incr, TimSt.setPort_incr, TimSt.publish_incr, ite_self, implies_true]
theorem State.periodLost_kept (code : Nat) (f : Fld) (s : State) (n : Nat) : (State.periodLost code f s n).kept = s.kept := by
  simp only [State.periodLost, State.kept_mk, State.kept_fold, kept_ite, kept_ite_fst, TimSt.setPin_incr, TimSt.setKey_incr, TimSt.setPort_incr, TimSt.publish_incr, ite_self, implies_true]
theorem State.periodEnds_kept (s : State) : (State.periodEnds s).kept = s.kept := by
  simp only [State.periodEnds, State.kept_mk, State.kept_fold, kept_ite, kept_ite_fst, TimSt.setPin_incr, TimSt.setKey_incr, TimSt.setPort_incr, TimSt.publish_incr, State.periodLost_kept, kept_foldl, ite_self, implies_true]
theorem State.emergRelease_kept (s : State) : (State.emergRelease s).kept = s.kept := by
  simp only [State.emergRelease, State.kept_mk, State.kept_fold, kept_ite, kept_ite_fst, TimSt.setPin_incr, TimSt.setKey_incr, TimSt.setPort_incr, TimSt.publish_incr, kept_foldl, ite_self, implies_true]
theorem State.refill_kept (s : State) : (State.refill s).kept = s.kept := by
  simp only [State.refill, State.kept_mk, State.kept_fold, kept_ite, kept_ite_fst, TimSt.setPin_incr, TimSt.setKey_incr, TimSt.setPort_incr, TimSt.publish_incr, ite_self, implies_true]
theorem State.secondEnds_kept (s : State) : (State.secondEnds s).kept = s.kept := by
  simp only [State.secondEnds, State.kept_mk, State.kept_fold, kept_ite, kept_ite_fst, TimSt.setPin_incr, TimSt.setKey_incr, TimSt.setPort_incr, TimSt.publish_incr, ite_self, implies_true]
theorem State.hotWatch_kept (s : State) : (State.hotWatch s).kept = s.kept := by
  simp only [State.hotWatch, State.kept_mk, State.kept_fold, kept_ite, kept_ite_fst, TimSt.setPin_incr, TimSt.setKey_incr, TimSt.setPort_incr, TimSt.publish_incr, ite_self, implies_true]
theorem State.publish_kept (s : State) : (State.publish s).kept = s.kept := by
  simp only [State.publish, State.kept_mk, State.kept_fold, kept_ite, kept_ite_fst, TimSt.setPin_incr, TimSt.setKey_incr, TimSt.setPort_incr, TimSt.publish_incr]
theorem State.published_kept (s : State) : (State.published s).kept = s.kept := by
  simp only [State.published, State.kept_mk, State.kept_fold, kept_ite, kept_ite_fst, TimSt.setPin_incr, TimSt.setKey_incr, TimSt.setPort_incr, TimSt.publish_incr, ite_self, implies_true]
theorem execPublicationDone_kept (s : State) : ∃ t, execPublicationDone s = .next t ∧ t.kept = s.kept := by
  refine ⟨_, rfl, ?_⟩; simp only [State.kept_mk, State.kept_fold, kept_ite, kept_ite_fst, TimSt.setPin_incr, TimSt.setKey_incr, TimSt.setPort_incr, TimSt.publish_incr, State.published_kept, ite_self, implies_true]
theorem State.periodBegins_kept (s : State) (p : Nat) : (State.periodBegins s p).kept = s.kept := by
  simp only [State.periodBegins, State.kept_mk, State.kept_fold, kept_ite, kept_ite_fst, TimSt.setPin_incr, TimSt.setKey_incr, TimSt.setPort_incr, TimSt.publish_incr, ite_self, implies_true]
theorem State.toBoundary_kept (s : State) : (State.toBoundary s).kept = s.kept := by
  simp only [State.toBoundary, State.kept_mk, State.kept_fold, kept_ite, kept_ite_fst, TimSt.setPin_incr, TimSt.setKey_incr, TimSt.setPort_incr, TimSt.publish_incr, ite_self, implies_true]

end Sys2Proof.Machine
end

