-- ==== Sys2Proof/Laws/KeptUnits.lean ====
section
/-! SUPPORT. Frame lemmas of the cipher and the video units: each definition leaves `State.kept` alone. -/

namespace Sys2Proof.Machine

set_option linter.all false

theorem State.svcKey_kept (s : State) (svc k v : Nat) : (State.svcKey s svc k v).kept = s.kept := by
  unfold State.svcKey; try dsimp only
  (repeat' split) <;> (first | done | (simp only [State.kept_mk, State.kept_fold, kept_ite, kept_ite_fst, TimSt.setPin_incr, TimSt.setKey_incr, TimSt.setPort_incr, TimSt.publish_incr, State.hold_kept, ite_self, implies_true]; done) | (simp [State.kept_mk, State.kept_fold, kept_ite, kept_ite_fst, TimSt.setPin_incr, TimSt.setKey_incr, TimSt.setPort_incr, TimSt.publish_incr, State.hold_kept]; done))
theorem State.svcTake_kept (s : State) (svc : Nat) (l : List SvcRec) : (State.svcTake s svc l).kept = s.kept := by
  simp only [State.svcTake, State.kept_mk, State.kept_fold, kept_ite, kept_ite_fst, TimSt.setPin_incr, TimSt.setKey_incr, TimSt.setPort_incr, TimSt.publish_incr, State.svcKey_kept, kept_foldl, ite_self, implies_true]
theorem State.svcLoad_kept (s : State) (l : List SvcRec) : (State.svcLoad s l).kept = s.kept := by
  simp only [State.svcLoad, State.kept_mk, State.kept_fold, kept_ite, kept_ite_fst, TimSt.setPin_incr, TimSt.setKey_incr, TimSt.setPort_incr, TimSt.publish_incr, State.svcTake_kept, kept_foldl, ite_self, implies_true]
theorem State.svcStart_kept (s : State) (svc : Nat) : (State.svcStart s svc).kept = s.kept := by
  unfold State.svcStart; try dsimp only
  (repeat' split) <;> (first | done | (simp only [State.kept_mk, State.kept_fold, kept_ite, kept_ite_fst, TimSt.setPin_incr, TimSt.setKey_incr, TimSt.setPort_incr, TimSt.publish_incr, State.hold_kept, State.svcTake_kept, ite_self, implies_true]; done) | (simp [State.kept_mk, State.kept_fold, kept_ite, kept_ite_fst, TimSt.setPin_incr, TimSt.setKey_incr, TimSt.setPort_incr, TimSt.publish_incr, State.hold_kept, State.svcTake_kept]; done))
theorem State.setSlot_kept (s : State) (n : Nat) (k : KeySlot) : (State.setSlot s n k).kept = s.kept := by
  simp only [State.setSlot, State.kept_mk, State.kept_fold, kept_ite, kept_ite_fst, TimSt.setPin_incr, TimSt.setKey_incr, TimSt.setPort_incr, TimSt.publish_incr, ite_self, implies_true]
theorem State.keyStart_kept (s : State) (fn : Nat) (erase : Bool) (val : Word) : (State.keyStart s fn erase val).kept = s.kept := by
  simp only [State.keyStart, State.kept_mk, State.kept_fold, kept_ite, kept_ite_fst, TimSt.setPin_incr, TimSt.setKey_incr, TimSt.setPort_incr, TimSt.publish_incr, ite_self, implies_true]
theorem execKeyWrite_kept (fn : Nat) (val : Word) (s : State) : ∃ t, execKeyWrite fn val s = .next t ∧ t.kept = s.kept := by
  refine ⟨_, rfl, ?_⟩; simp only [State.kept_mk, State.kept_fold, kept_ite, kept_ite_fst, TimSt.setPin_incr, TimSt.setKey_incr, TimSt.setPort_incr, TimSt.publish_incr, State.keyStart_kept, ite_self, implies_true]
theorem execKeyErase_kept (fn : Nat) (val : Word) (s : State) : ∃ t, execKeyErase fn val s = .next t ∧ t.kept = s.kept := by
  refine ⟨_, rfl, ?_⟩; simp only [State.kept_mk, State.kept_fold, kept_ite, kept_ite_fst, TimSt.setPin_incr, TimSt.setKey_incr, TimSt.setPort_incr, TimSt.publish_incr, State.keyStart_kept, ite_self, implies_true]
theorem State.keyDone_kept (s : State) (fn n result : Nat) : (State.keyDone s fn n result).kept = s.kept := by
  simp only [State.keyDone, State.kept_mk, State.kept_fold, kept_ite, kept_ite_fst, TimSt.setPin_incr, TimSt.setKey_incr, TimSt.setPort_incr, TimSt.publish_incr, kept_foldl, ite_self, implies_true]
theorem State.keyEffect_kept (s : State) (n : Nat) (op : KeyOp) : (State.keyEffect s n op).kept = s.kept := by
  simp only [State.keyEffect, State.kept_mk, State.kept_fold, kept_ite, kept_ite_fst, TimSt.setPin_incr, TimSt.setKey_incr, TimSt.setPort_incr, TimSt.publish_incr, State.setSlot_kept, ite_self, implies_true]
theorem State.keyDue_kept (s : State) (n : Nat) (op : KeyOp) (fn : Option Nat) : (State.keyDue s n op fn).kept = s.kept := by
  unfold State.keyDue; try dsimp only
  (repeat' split) <;> (first | done | (simp only [State.kept_mk, State.kept_fold, kept_ite, kept_ite_fst, TimSt.setPin_incr, TimSt.setKey_incr, TimSt.setPort_incr, TimSt.publish_incr, State.keyDone_kept, State.keyEffect_kept, State.setSlot_kept, ite_self, implies_true]; done) | (simp [State.kept_mk, State.kept_fold, kept_ite, kept_ite_fst, TimSt.setPin_incr, TimSt.setKey_incr, TimSt.setPort_incr, TimSt.publish_incr, State.keyDone_kept, State.keyEffect_kept, State.setSlot_kept]; done))
theorem execKeyUnwrapDone_kept (fn slot : Nat) (erase : Bool) (rec : Option (List Byte)) (s : State) : ∃ t, execKeyUnwrapDone fn slot erase rec s = .next t ∧ t.kept = s.kept := by
  unfold execKeyUnwrapDone; refine ⟨_, rfl, ?_⟩; try dsimp only
  (repeat' split) <;> (first | done | (simp only [State.kept_mk, State.kept_fold, kept_ite, kept_ite_fst, TimSt.setPin_incr, TimSt.setKey_incr, TimSt.setPort_incr, TimSt.publish_incr, State.keyDone_kept, State.keyDue_kept, ite_self, implies_true]; done) | (simp [State.kept_mk, State.kept_fold, kept_ite, kept_ite_fst, TimSt.setPin_incr, TimSt.setKey_incr, TimSt.setPort_incr, TimSt.publish_incr, State.keyDone_kept, State.keyDue_kept]; done))
theorem State.keyChange_kept (s : State) (i : Instr) : (State.keyChange s i).kept = s.kept := by
  unfold State.keyChange; try dsimp only
  (repeat' split) <;> (first | done | (simp only [State.kept_mk, State.kept_fold, kept_ite, kept_ite_fst, TimSt.setPin_incr, TimSt.setKey_incr, TimSt.setPort_incr, TimSt.publish_incr, State.keyDue_kept, ite_self, implies_true]; done) | (simp [State.kept_mk, State.kept_fold, kept_ite, kept_ite_fst, TimSt.setPin_incr, TimSt.setKey_incr, TimSt.setPort_incr, TimSt.publish_incr, State.keyDue_kept]; done))
theorem execKeyDrainEnd_kept (slot : Nat) (s : State) : ∃ t, execKeyDrainEnd slot s = .next t ∧ t.kept = s.kept := by
  refine ⟨_, rfl, ?_⟩; simp only [State.kept_mk, State.kept_fold, kept_ite, kept_ite_fst, TimSt.setPin_incr, TimSt.setKey_incr, TimSt.setPort_incr, TimSt.publish_incr, State.keyDue_kept, State.setSlot_kept, kept_foldl, ite_self, implies_true]
theorem execHeldKeyExpiry_kept (slot : Nat) (s : State) : ∃ t, execHeldKeyExpiry slot s = .next t ∧ t.kept = s.kept := by
  refine ⟨_, rfl, ?_⟩; simp only [State.kept_mk, State.kept_fold, kept_ite, kept_ite_fst, TimSt.setPin_incr, TimSt.setKey_incr, TimSt.setPort_incr, TimSt.publish_incr, State.setSlot_kept, ite_self, implies_true]
theorem State.laneCompute_kept (s : State) (lane : Option Nat) (n : Nat) : (State.laneCompute s lane n).kept = s.kept := by
  unfold State.laneCompute; try dsimp only
  (repeat' split) <;> (first | done | (simp only [State.kept_mk, State.kept_fold, kept_ite, kept_ite_fst, TimSt.setPin_incr, TimSt.setKey_incr, TimSt.setPort_incr, TimSt.publish_incr, ite_self, implies_true]; done) | (simp [State.kept_mk, State.kept_fold, kept_ite, kept_ite_fst, TimSt.setPin_incr, TimSt.setKey_incr, TimSt.setPort_incr, TimSt.publish_incr]; done))
theorem State.laneTake_kept (s : State) (sash : Nat) (lane : Option Nat) (n : Nat) : (State.laneTake s sash lane n).kept = s.kept := by
  unfold State.laneTake; try dsimp only
  (repeat' split) <;> (first | done | (simp only [State.kept_mk, State.kept_fold, kept_ite, kept_ite_fst, TimSt.setPin_incr, TimSt.setKey_incr, TimSt.setPort_incr, TimSt.publish_incr, State.laneCompute_kept, ite_self, implies_true]; done) | (simp [State.kept_mk, State.kept_fold, kept_ite, kept_ite_fst, TimSt.setPin_incr, TimSt.setKey_incr, TimSt.setPort_incr, TimSt.publish_incr, State.laneCompute_kept]; done))
theorem State.cipDrop_kept (s : State) (f : Fld) (n : Nat) (ev : Option Nat) : (State.cipDrop s f n ev).kept = s.kept := by
  simp only [State.cipDrop, State.kept_mk, State.kept_fold, kept_ite, kept_ite_fst, TimSt.setPin_incr, TimSt.setKey_incr, TimSt.setPort_incr, TimSt.publish_incr, ite_self, implies_true]
theorem State.exhaust_kept (s : State) (n : Nat) : (State.exhaust s n).kept = s.kept := by
  simp only [State.exhaust, State.kept_mk, State.kept_fold, kept_ite, kept_ite_fst, TimSt.setPin_incr, TimSt.setKey_incr, TimSt.setPort_incr, TimSt.publish_incr, State.setSlot_kept, ite_self, implies_true]
theorem State.cipUse_kept (s : State) (n : Nat) : (State.cipUse s n).kept = s.kept := by
  simp only [State.cipUse, State.kept_mk, State.kept_fold, kept_ite, kept_ite_fst, TimSt.setPin_incr, TimSt.setKey_incr, TimSt.setPort_incr, TimSt.publish_incr, State.exhaust_kept, State.setSlot_kept, ite_self, implies_true]
theorem State.cipIndex_kept (s : State) (it : CipItem) : (State.cipIndex s it).1.kept = s.kept := by
  unfold State.cipIndex; try dsimp only
  (repeat' split) <;> (first | done | (simp only [State.kept_mk, State.kept_fold, kept_ite, kept_ite_fst, TimSt.setPin_incr, TimSt.setKey_incr, TimSt.setPort_incr, TimSt.publish_incr, State.cipDrop_kept, State.exhaust_kept, State.setSlot_kept, ite_self, implies_true]; done) | (simp [State.kept_mk, State.kept_fold, kept_ite, kept_ite_fst, TimSt.setPin_incr, TimSt.setKey_incr, TimSt.setPort_incr, TimSt.publish_incr, State.cipDrop_kept, State.exhaust_kept, State.setSlot_kept]; done))
theorem State.cipAuth_kept (s : State) (it : CipItem) (lane : Option Nat) (blocks : Nat) : (State.cipAuth s it lane blocks).1.kept = s.kept := by
  simp only [State.cipAuth, State.kept_mk, State.kept_fold, kept_ite, kept_ite_fst, TimSt.setPin_incr, TimSt.setKey_incr, TimSt.setPort_incr, TimSt.publish_incr, State.laneTake_kept, State.setSlot_kept, ite_self, implies_true]
theorem State.inEpoch_kept (s : State) (n : Nat) (epoch : Bool) (work : State → State) (h : ∀ t : State, (work t).kept = t.kept) : (s.inEpoch n epoch work).kept = s.kept := by
  unfold State.inEpoch
  dsimp only
  split
  · split
    · exact h s
    · exact (h { s with fab := _ }).trans rfl
  · exact h s
theorem State.setShare_kept (s : State) (u sash r : Nat) (x : EncShare) : (State.setShare s u sash r x).kept = s.kept := by
  simp only [State.setShare, State.kept_mk, State.kept_fold, kept_ite, kept_ite_fst, TimSt.setPin_incr, TimSt.setKey_incr, TimSt.setPort_incr, TimSt.publish_incr, ite_self, implies_true]
theorem State.encRaise_kept (s : State) (code u sash frame k : Nat) : (State.encRaise s code u sash frame k).kept = s.kept := by
  simp only [State.encRaise, State.kept_mk, State.kept_fold, kept_ite, kept_ite_fst, TimSt.setPin_incr, TimSt.setKey_incr, TimSt.setPort_incr, TimSt.publish_incr, ite_self, implies_true]
theorem State.encErr_kept (s : State) (f : Fld) (u n : Nat) : (State.encErr s f u n).kept = s.kept := by
  simp only [State.encErr, State.kept_mk, State.kept_fold, kept_ite, kept_ite_fst, TimSt.setPin_incr, TimSt.setKey_incr, TimSt.setPort_incr, TimSt.publish_incr, ite_self, implies_true]
theorem State.encInput_kept (s : State) (sash src cf : Nat) (upTo : Nat → Nat) : (State.encInput s sash src cf upTo).kept = s.kept := by
  simp only [State.encInput, State.kept_mk, State.kept_fold, kept_ite, kept_ite_fst, TimSt.setPin_incr, TimSt.setKey_incr, TimSt.setPort_incr, TimSt.publish_incr, kept_foldl, ite_self, implies_true]
theorem State.encGap_kept (s : State) (sash src cf k : Nat) : (State.encGap s sash src cf k).kept = s.kept := by
  simp only [State.encGap, State.kept_mk, State.kept_fold, kept_ite, kept_ite_fst, TimSt.setPin_incr, TimSt.setKey_incr, TimSt.setPort_incr, TimSt.publish_incr, kept_foldl, ite_self, implies_true]
theorem State.encFrameStart_kept (s : State) (u sash r : Nat) (g : EncGeom) (s1 : State) (h : s.encFrameStart u sash r g = some s1) : s1.kept = s.kept := by
  unfold State.encFrameStart at h
  dsimp only at h
  split at h
  · have := Option.some.inj h
    subst this
    simp [State.kept_mk, State.kept_fold, kept_ite, kept_ite_fst, TimSt.setPin_incr, TimSt.setKey_incr, TimSt.setPort_incr, TimSt.publish_incr, State.setShare_kept]
  · cases h
theorem State.inFrame_kept (s : State) (u sash r n : Nat) (work : EncGeom → EncFrame → State → State) (h : ∀ g f t, (work g f t : State).kept = t.kept) : (s.inFrame u sash r n work).kept = s.kept := by
  unfold State.inFrame
  split
  · refine State.inEpoch_kept _ _ _ _ fun t => ?_
    split
    · exact h _ _ t
    · rfl
  · rfl
theorem State.encCommit_kept (s : State) (sash r num bits : Nat) : (State.encCommit s sash r num bits).kept = s.kept := by
  unfold State.encCommit; try dsimp only
  (repeat' split) <;> (first | done | (simp only [State.kept_mk, State.kept_fold, kept_ite, kept_ite_fst, TimSt.setPin_incr, TimSt.setKey_incr, TimSt.setPort_incr, TimSt.publish_incr, ite_self, implies_true]; done) | (simp [State.kept_mk, State.kept_fold, kept_ite, kept_ite_fst, TimSt.setPin_incr, TimSt.setKey_incr, TimSt.setPort_incr, TimSt.publish_incr]; done))
theorem State.hdrBad_kept (s : State) (u sash frame k : Nat) : (State.hdrBad s u sash frame k).kept = s.kept := by
  simp only [State.hdrBad, State.kept_mk, State.kept_fold, kept_ite, kept_ite_fst, TimSt.setPin_incr, TimSt.setKey_incr, TimSt.setPort_incr, TimSt.publish_incr, State.encErr_kept, State.encRaise_kept, ite_self, implies_true]
theorem execHeaderRecordReceive_kept (unit sash : Nat) (poison : Bool) (rec : List Byte) (s : State) : ∃ t, execHeaderRecordReceive unit sash poison rec s = .next t ∧ t.kept = s.kept := by
  unfold execHeaderRecordReceive; refine ⟨_, rfl, ?_⟩; try dsimp only
  (repeat' split) <;> (first | done | (simp only [State.kept_mk, State.kept_fold, kept_ite, kept_ite_fst, TimSt.setPin_incr, TimSt.setKey_incr, TimSt.setPort_incr, TimSt.publish_incr, State.encCommit_kept, State.encErr_kept, State.encRaise_kept, State.hdrBad_kept, State.setShare_kept, ite_self, implies_true]; done) | (simp [State.kept_mk, State.kept_fold, kept_ite, kept_ite_fst, TimSt.setPin_incr, TimSt.setKey_incr, TimSt.setPort_incr, TimSt.publish_incr, State.encCommit_kept, State.encErr_kept, State.encRaise_kept, State.hdrBad_kept, State.setShare_kept]; done))
theorem execPictureDescriptorReceive_kept (unit sash : Nat) (desc : List Byte) (s : State) : ∃ t, execPictureDescriptorReceive unit sash desc s = .next t ∧ t.kept = s.kept := by
  refine ⟨_, rfl, ?_⟩; simp only [State.kept_mk, State.kept_fold, kept_ite, kept_ite_fst, TimSt.setPin_incr, TimSt.setKey_incr, TimSt.setPort_incr, TimSt.publish_incr, ite_self, implies_true]
theorem State.deliver_kept (s : State) (sash src : Nat) (kind : String) (args : List Nat) : (State.deliver s sash src kind args).kept = s.kept := by
  simp only [State.deliver, State.kept_mk, State.kept_fold, kept_ite, kept_ite_fst, TimSt.setPin_incr, TimSt.setKey_incr, TimSt.setPort_incr, TimSt.publish_incr, ite_self, implies_true]
theorem State.paneChunk_kept (s : State) (u sash r : Nat) (g : EncGeom) (f : EncFrame) (row : Nat) (late : Bool) (n : Nat) (p : EncPane) : (State.paneChunk s u sash r g f row late n p).kept = s.kept := by
  simp only [State.paneChunk, State.kept_mk, State.kept_fold, kept_ite, kept_ite_fst, TimSt.setPin_incr, TimSt.setKey_incr, TimSt.setPort_incr, TimSt.publish_incr, State.deliver_kept, kept_foldl, ite_self, implies_true]
theorem State.encRelease_kept (s : State) (u sash r : Nat) (g : EncGeom) (f : EncFrame) (row : Nat) (late : Bool) : (State.encRelease s u sash r g f row late).kept = s.kept := by
  simp only [State.encRelease, State.kept_mk, State.kept_fold, kept_ite, kept_ite_fst, TimSt.setPin_incr, TimSt.setKey_incr, TimSt.setPort_incr, TimSt.publish_incr, State.deliver_kept, State.encErr_kept, State.encRaise_kept, State.paneChunk_kept, State.setShare_kept, kept_foldl, ite_self, implies_true]
theorem State.encFlow_kept (s : State) (u sash r : Nat) (g : EncGeom) (frame : Nat) (x0 : Nat) : (State.encFlow s u sash r g frame x0).kept = s.kept := by
  induction x0 generalizing s u sash r g frame with
  | zero => unfold State.encFlow; (repeat' split) <;> simp [State.kept_mk, State.kept_fold, kept_ite, kept_ite_fst, TimSt.setPin_incr, TimSt.setKey_incr, TimSt.setPort_incr, TimSt.publish_incr, State.encRelease_kept]
  | succ n ih =>
    unfold State.encFlow; try dsimp only
    (repeat' split) <;> simp [State.kept_mk, State.kept_fold, kept_ite, kept_ite_fst, TimSt.setPin_incr, TimSt.setKey_incr, TimSt.setPort_incr, TimSt.publish_incr, State.encRelease_kept, ih]
theorem execReleaseRowTime_kept (unit sash rend frame row : Nat) (s : State) : ∃ t, execReleaseRowTime unit sash rend frame row s = .next t ∧ t.kept = s.kept := by
  refine ⟨_, rfl, State.inFrame_kept _ _ _ _ _ _ fun g f t => ?_⟩
  (repeat' split) <;> (try dsimp only) <;> (repeat' split) <;> simp only [State.kept_mk, State.kept_fold, kept_ite, kept_ite_fst, TimSt.setPin_incr, TimSt.setKey_incr, TimSt.setPort_incr, TimSt.publish_incr, State.encErr_kept, State.encRaise_kept, State.encRelease_kept, State.inFrame_kept, State.setShare_kept]
theorem execLateRowRelease_kept (unit sash rend frame row : Nat) (s : State) : ∃ t, execLateRowRelease unit sash rend frame row s = .next t ∧ t.kept = s.kept := by
  refine ⟨_, rfl, ?_⟩; simp only [State.kept_mk, State.kept_fold, kept_ite, kept_ite_fst, TimSt.setPin_incr, TimSt.setKey_incr, TimSt.setPort_incr, TimSt.publish_incr, State.encRelease_kept, State.inFrame_kept, ite_self, implies_true]
theorem State.stripeBegin_kept (s : State) (x : EncStart) (g : EncGeom) (f : EncFrame) : (State.stripeBegin s x g f).kept = s.kept := by
  simp only [State.stripeBegin, State.kept_mk, State.kept_fold, kept_ite, kept_ite_fst, TimSt.setPin_incr, TimSt.setKey_incr, TimSt.setPort_incr, TimSt.publish_incr, State.encCommit_kept, State.encRaise_kept, State.setShare_kept, ite_self, implies_true]
theorem State.encDisable_kept (s : State) (sash r : Nat) : (State.encDisable s sash r).kept = s.kept := by
  unfold State.encDisable; try dsimp only
  (repeat' split) <;> (first | done | (simp only [State.kept_mk, State.kept_fold, kept_ite, kept_ite_fst, TimSt.setPin_incr, TimSt.setKey_incr, TimSt.setPort_incr, TimSt.publish_incr, ite_self, implies_true]; done) | (simp [State.kept_mk, State.kept_fold, kept_ite, kept_ite_fst, TimSt.setPin_incr, TimSt.setKey_incr, TimSt.setPort_incr, TimSt.publish_incr]; done))
theorem State.stripeStart_kept (s : State) (x : EncStart) : (State.stripeStart s x).kept = s.kept := by
  unfold State.stripeStart
  extract_lets wait sh idle ready whole s0
  have hw : ∀ t, (wait t).kept = t.kept := fun t => by simp only [wait, State.kept_mk, State.kept_fold, kept_ite, kept_ite_fst, TimSt.setPin_incr, TimSt.setKey_incr, TimSt.setPort_incr, TimSt.publish_incr, State.done_kept, State.encDisable_kept, State.encFrameStart_kept, State.inFrame_kept, State.stripeBegin_kept]
  have h0 : s0.kept = s.kept := by simp only [s0, State.kept_mk, State.kept_fold, kept_ite, kept_ite_fst, TimSt.setPin_incr, TimSt.setKey_incr, TimSt.setPort_incr, TimSt.publish_incr, State.done_kept, State.encDisable_kept, State.encFrameStart_kept, State.inFrame_kept, State.stripeBegin_kept]
  clear_value wait s0 idle ready sh
  split
  · split
    · exact h0
    · refine (kept_ite ..).trans ?_
      split
      · exact h0
      · refine (kept_ite ..).trans ?_
        split
        · exact (hw _).trans h0
        · split
          · exact (hw _).trans h0
          · rename_i h1
            have e := (State.encFrameStart_kept _ _ _ _ _ _ h1).trans h0
            split
            · exact (State.stripeBegin_kept ..).trans e
            · exact e
  · split
    · refine State.inFrame_kept _ _ _ _ _ _ fun g f t => ?_
      (repeat' split) <;> first | rfl | exact State.stripeBegin_kept .. | exact hw _
    · rfl
theorem State.unitFrameEnd_kept (s : State) (u sash r : Nat) (g : EncGeom) (f : EncFrame) : (State.unitFrameEnd s u sash r g f).kept = s.kept := by
  unfold State.unitFrameEnd; try dsimp only
  (repeat' split) <;> (first | done | (simp only [State.kept_mk, State.kept_fold, kept_ite, kept_ite_fst, TimSt.setPin_incr, TimSt.setKey_incr, TimSt.setPort_incr, TimSt.publish_incr, State.encErr_kept, State.setShare_kept, ite_self, implies_true]; done) | (simp [State.kept_mk, State.kept_fold, kept_ite, kept_ite_fst, TimSt.setPin_incr, TimSt.setKey_incr, TimSt.setPort_incr, TimSt.publish_incr, State.encErr_kept, State.setShare_kept]; done))
theorem State.stripeEnd_kept (s : State) (u sash r : Nat) (g : EncGeom) (f : EncFrame) (t : EncStripe) : (State.stripeEnd s u sash r g f t).kept = s.kept := by
  unfold State.stripeEnd
  extract_lets t1 f1 sh sh1 h1 s1 s2 s3 s4
  have e1 : s1.kept = s.kept := by simp only [s1, State.kept_mk, State.kept_fold, kept_ite, kept_ite_fst, TimSt.setPin_incr, TimSt.setKey_incr, TimSt.setPort_incr, TimSt.publish_incr, State.done_kept, State.encErr_kept, State.encFlow_kept, State.setShare_kept, State.unitFrameEnd_kept]
  clear_value s1 h1
  have e2 : s2.kept = s.kept := by
    simp only [s2]
    (repeat' split) <;> first | exact (State.encErr_kept ..).trans e1 | exact e1
  clear_value s2
  have e3 : s3.kept = s.kept := by
    simp only [s3]
    split
    · refine Eq.trans ?_ e2
      simp only [State.kept_mk, State.kept_fold, kept_ite, kept_ite_fst, TimSt.setPin_incr, TimSt.setKey_incr, TimSt.setPort_incr, TimSt.publish_incr, State.done_kept, State.encErr_kept, State.encFlow_kept, State.setShare_kept, State.unitFrameEnd_kept]
    · exact e2
  clear_value s3
  have e4 : s4.kept = s.kept := by
    simp only [s4]
    split
    · exact (State.unitFrameEnd_kept ..).trans e3
    · exact e3
  clear_value s4
  split
  · exact e4
  · exact (State.encFlow_kept ..).trans e4
theorem execInputDeadline_kept (unit sash frame k : Nat) (s : State) : ∃ t, execInputDeadline unit sash frame k s = .next t ∧ t.kept = s.kept := by
  unfold execInputDeadline; refine ⟨_, rfl, ?_⟩; try dsimp only
  (repeat' split) <;> (first | done | (simp only [State.kept_mk, State.kept_fold, kept_ite, kept_ite_fst, TimSt.setPin_incr, TimSt.setKey_incr, TimSt.setPort_incr, TimSt.publish_incr, State.done_kept, State.encErr_kept, State.encRaise_kept, State.setShare_kept, kept_foldl, ite_self, implies_true]; done) | (simp [State.kept_mk, State.kept_fold, kept_ite, kept_ite_fst, TimSt.setPin_incr, TimSt.setKey_incr, TimSt.setPort_incr, TimSt.publish_incr, State.done_kept, State.encErr_kept, State.encRaise_kept, State.setShare_kept, kept_foldl]; done))
theorem execCodingDeadline_kept (unit sash rend frame k : Nat) (bits : List Nat) (s : State) : ∃ t, execCodingDeadline unit sash rend frame k bits s = .next t ∧ t.kept = s.kept := by
  refine ⟨_, rfl, ?_⟩; simp only [State.kept_mk, State.kept_fold, kept_ite, kept_ite_fst, TimSt.setPin_incr, TimSt.setKey_incr, TimSt.setPort_incr, TimSt.publish_incr, State.done_kept, State.encErr_kept, State.inFrame_kept, State.stripeEnd_kept, kept_foldl, ite_self, implies_true]
theorem State.encSetup_kept (s : State) (u : Nat) : (State.encSetup s u).kept = s.kept := by
  simp only [State.encSetup, State.kept_mk, State.kept_fold, kept_ite, kept_ite_fst, TimSt.setPin_incr, TimSt.setKey_incr, TimSt.setPort_incr, TimSt.publish_incr, kept_foldl, ite_self, implies_true]
theorem State.cmafInitDue_kept (s : State) (sash r : Nat) : (State.cmafInitDue s sash r).kept = s.kept := by
  simp only [State.cmafInitDue, State.kept_mk, State.kept_fold, kept_ite, kept_ite_fst, TimSt.setPin_incr, TimSt.setKey_incr, TimSt.setPort_incr, TimSt.publish_incr, ite_self, implies_true]
theorem State.rendFrom_kept (s : State) (sash r : Nat) : (State.rendFrom s sash r).kept = s.kept := by
  simp only [State.rendFrom, State.kept_mk, State.kept_fold, kept_ite, kept_ite_fst, TimSt.setPin_incr, TimSt.setKey_incr, TimSt.setPort_incr, TimSt.publish_incr, kept_foldl, ite_self, implies_true]
theorem State.encConfig_kept (s : State) (b : List Byte) : (State.encConfig s b).kept = s.kept := by
  simp only [State.encConfig, State.kept_mk, State.kept_fold, kept_ite, kept_ite_fst, TimSt.setPin_incr, TimSt.setKey_incr, TimSt.setPort_incr, TimSt.publish_incr, State.cmafInitDue_kept, State.encSetup_kept, State.rendFrom_kept, kept_foldl, ite_self, implies_true]
theorem execEncConfig_kept (e : CmdEnv) (body : List Byte) (s : State) : ∃ t, execEncConfig e body s = .next t ∧ t.kept = s.kept := by
  unfold execEncConfig; refine ⟨_, rfl, ?_⟩; try dsimp only
  (repeat' split) <;> (first | done | (simp only [State.kept_mk, State.kept_fold, kept_ite, kept_ite_fst, TimSt.setPin_incr, TimSt.setKey_incr, TimSt.setPort_incr, TimSt.publish_incr, State.done_kept, State.encConfig_kept, State.hold_kept, ite_self, implies_true]; done) | (simp [State.kept_mk, State.kept_fold, kept_ite, kept_ite_fst, TimSt.setPin_incr, TimSt.setKey_incr, TimSt.setPort_incr, TimSt.publish_incr, State.done_kept, State.encConfig_kept, State.hold_kept]; done))
theorem execEncStats_kept (e : CmdEnv) (body : List Byte) (s : State) : ∃ t, execEncStats e body s = .next t ∧ t.kept = s.kept := by
  unfold execEncStats; refine ⟨_, rfl, ?_⟩; try dsimp only
  (repeat' split) <;> (first | done | (simp only [State.kept_mk, State.kept_fold, kept_ite, kept_ite_fst, TimSt.setPin_incr, TimSt.setKey_incr, TimSt.setPort_incr, TimSt.publish_incr, State.done_kept, ite_self, implies_true]; done) | (simp [State.kept_mk, State.kept_fold, kept_ite, kept_ite_fst, TimSt.setPin_incr, TimSt.setKey_incr, TimSt.setPort_incr, TimSt.publish_incr, State.done_kept]; done))
theorem State.setCtx_kept (s : State) (sash stream : Nat) (c : DecCtx) : (State.setCtx s sash stream c).kept = s.kept := by
  simp only [State.setCtx, State.kept_mk, State.kept_fold, kept_ite, kept_ite_fst, TimSt.setPin_incr, TimSt.setKey_incr, TimSt.setPort_incr, TimSt.publish_incr, ite_self, implies_true]
theorem State.decErr_kept (s : State) (f : Fld) (u : Nat) : (State.decErr s f u).kept = s.kept := by
  simp only [State.decErr, State.kept_mk, State.kept_fold, kept_ite, kept_ite_fst, TimSt.setPin_incr, TimSt.setKey_incr, TimSt.setPort_incr, TimSt.publish_incr, ite_self, implies_true]
theorem State.decRaise_kept (s : State) (code u sash stream : Nat) : (State.decRaise s code u sash stream).kept = s.kept := by
  simp only [State.decRaise, State.kept_mk, State.kept_fold, kept_ite, kept_ite_fst, TimSt.setPin_incr, TimSt.setKey_incr, TimSt.setPort_incr, TimSt.publish_incr, ite_self, implies_true]
theorem State.ctxRemove_kept (s : State) (sash stream : Nat) (c : DecCtx) : (State.ctxRemove s sash stream c).kept = s.kept := by
  simp only [State.ctxRemove, State.kept_mk, State.kept_fold, kept_ite, kept_ite_fst, TimSt.setPin_incr, TimSt.setKey_incr, TimSt.setPort_incr, TimSt.publish_incr, ite_self, implies_true]
theorem State.pictureRelease_kept (s : State) (part off : Nat) : (State.pictureRelease s part off).kept = s.kept := by
  simp only [State.pictureRelease, State.kept_mk, State.kept_fold, kept_ite, kept_ite_fst, TimSt.setPin_incr, TimSt.setKey_incr, TimSt.setPort_incr, TimSt.publish_incr, State.settle_kept, ite_self, implies_true]
theorem execPictureRelease_kept (part off : Nat) (s : State) : ∃ t, execPictureRelease part off s = .next t ∧ t.kept = s.kept := by
  refine ⟨_, rfl, ?_⟩; simp only [State.kept_mk, State.kept_fold, kept_ite, kept_ite_fst, TimSt.setPin_incr, TimSt.setKey_incr, TimSt.setPort_incr, TimSt.publish_incr, State.pictureRelease_kept, ite_self, implies_true]
theorem State.decOutput_kept (s : State) (sash stream : Nat) : (State.decOutput s sash stream).kept = s.kept := by
  unfold State.decOutput; try dsimp only
  (repeat' split) <;> (first | done | (simp only [State.kept_mk, State.kept_fold, kept_ite, kept_ite_fst, TimSt.setPin_incr, TimSt.setKey_incr, TimSt.setPort_incr, TimSt.publish_incr, State.decErr_kept, State.decRaise_kept, State.setCtx_kept, State.settle_kept, ite_self, implies_true]; done) | (simp [State.kept_mk, State.kept_fold, kept_ite, kept_ite_fst, TimSt.setPin_incr, TimSt.setKey_incr, TimSt.setPort_incr, TimSt.publish_incr, State.decErr_kept, State.decRaise_kept, State.setCtx_kept, State.settle_kept]; done))
theorem State.ctxClose_kept (s : State) (sash stream : Nat) : (State.ctxClose s sash stream).kept = s.kept := by
  unfold State.ctxClose; try dsimp only
  (repeat' split) <;> (first | done | (simp only [State.kept_mk, State.kept_fold, kept_ite, kept_ite_fst, TimSt.setPin_incr, TimSt.setKey_incr, TimSt.setPort_incr, TimSt.publish_incr, State.ctxRemove_kept, State.decOutput_kept, ite_self, implies_true]; done) | (simp [State.kept_mk, State.kept_fold, kept_ite, kept_ite_fst, TimSt.setPin_incr, TimSt.setKey_incr, TimSt.setPort_incr, TimSt.publish_incr, State.ctxRemove_kept, State.decOutput_kept]; done))
theorem execDecPacketReceive_kept (sash stream : Nat) (p : DecIn) (s : State) : ∃ t, execDecPacketReceive sash stream p s = .next t ∧ t.kept = s.kept := by
  unfold execDecPacketReceive; refine ⟨_, rfl, ?_⟩; try dsimp only
  (repeat' split) <;> (first | done | (simp only [State.kept_mk, State.kept_fold, kept_ite, kept_ite_fst, TimSt.setPin_incr, TimSt.setKey_incr, TimSt.setPort_incr, TimSt.publish_incr, State.ctxClose_kept, State.decErr_kept, State.decRaise_kept, State.setCtx_kept, kept_foldl, ite_self, implies_true]; done) | (simp [State.kept_mk, State.kept_fold, kept_ite, kept_ite_fst, TimSt.setPin_incr, TimSt.setKey_incr, TimSt.setPort_incr, TimSt.publish_incr, State.ctxClose_kept, State.decErr_kept, State.decRaise_kept, State.setCtx_kept, kept_foldl]; done))
theorem execDecFrameLostTimer_kept (sash stream : Nat) (s : State) : ∃ t, execDecFrameLostTimer sash stream s = .next t ∧ t.kept = s.kept := by
  unfold execDecFrameLostTimer; refine ⟨_, rfl, ?_⟩; try dsimp only
  (repeat' split) <;> (first | done | (simp only [State.kept_mk, State.kept_fold, kept_ite, kept_ite_fst, TimSt.setPin_incr, TimSt.setKey_incr, TimSt.setPort_incr, TimSt.publish_incr, State.ctxClose_kept, State.decErr_kept, State.setCtx_kept, ite_self, implies_true]; done) | (simp [State.kept_mk, State.kept_fold, kept_ite, kept_ite_fst, TimSt.setPin_incr, TimSt.setKey_incr, TimSt.setPort_incr, TimSt.publish_incr, State.ctxClose_kept, State.decErr_kept, State.setCtx_kept]; done))
theorem State.decSkip_kept (s : State) (sash stream : Nat) (c : DecCtx) (p : DecPicture) (big : Bool) : (State.decSkip s sash stream c p big).kept = s.kept := by
  simp only [State.decSkip, State.kept_mk, State.kept_fold, kept_ite, kept_ite_fst, TimSt.setPin_incr, TimSt.setKey_incr, TimSt.setPort_incr, TimSt.publish_incr, State.decErr_kept, State.setCtx_kept, ite_self, implies_true]
theorem execDecOpen_kept (e : CmdEnv) (body : List Byte) (s : State) : ∃ t, execDecOpen e body s = .next t ∧ t.kept = s.kept := by
  unfold execDecOpen; refine ⟨_, rfl, ?_⟩; try dsimp only
  (repeat' split) <;> (first | done | (simp only [State.kept_mk, State.kept_fold, kept_ite, kept_ite_fst, TimSt.setPin_incr, TimSt.setKey_incr, TimSt.setPort_incr, TimSt.publish_incr, State.done_kept, State.setCtx_kept, ite_self, implies_true]; done) | (simp [State.kept_mk, State.kept_fold, kept_ite, kept_ite_fst, TimSt.setPin_incr, TimSt.setKey_incr, TimSt.setPort_incr, TimSt.publish_incr, State.done_kept, State.setCtx_kept]; done))
theorem execDecClose_kept (e : CmdEnv) (body : List Byte) (s : State) : ∃ t, execDecClose e body s = .next t ∧ t.kept = s.kept := by
  unfold execDecClose; refine ⟨_, rfl, ?_⟩; try dsimp only
  (repeat' split) <;> (first | done | (simp only [State.kept_mk, State.kept_fold, kept_ite, kept_ite_fst, TimSt.setPin_incr, TimSt.setKey_incr, TimSt.setPort_incr, TimSt.publish_incr, State.done_kept, State.setCtx_kept, ite_self, implies_true]; done) | (simp [State.kept_mk, State.kept_fold, kept_ite, kept_ite_fst, TimSt.setPin_incr, TimSt.setKey_incr, TimSt.setPort_incr, TimSt.publish_incr, State.done_kept, State.setCtx_kept]; done))
theorem execDecStats_kept (e : CmdEnv) (body : List Byte) (s : State) : ∃ t, execDecStats e body s = .next t ∧ t.kept = s.kept := by
  unfold execDecStats; refine ⟨_, rfl, ?_⟩; try dsimp only
  (repeat' split) <;> (first | done | (simp only [State.kept_mk, State.kept_fold, kept_ite, kept_ite_fst, TimSt.setPin_incr, TimSt.setKey_incr, TimSt.setPort_incr, TimSt.publish_incr, State.done_kept, ite_self, implies_true]; done) | (simp [State.kept_mk, State.kept_fold, kept_ite, kept_ite_fst, TimSt.setPin_incr, TimSt.setKey_incr, TimSt.setPort_incr, TimSt.publish_incr, State.done_kept]; done))
theorem State.decSetup_kept (s : State) (u : Nat) : (State.decSetup s u).kept = s.kept := by
  simp only [State.decSetup, State.kept_mk, State.kept_fold, kept_ite, kept_ite_fst, TimSt.setPin_incr, TimSt.setKey_incr, TimSt.setPort_incr, TimSt.publish_incr, ite_self, implies_true]
theorem State.setCmp_kept (s : State) (u : Nat) (x : CmpUnit) : (State.setCmp s u x).kept = s.kept := by
  simp only [State.setCmp, State.kept_mk, State.kept_fold, kept_ite, kept_ite_fst, TimSt.setPin_incr, TimSt.setKey_incr, TimSt.setPort_incr, TimSt.publish_incr, ite_self, implies_true]
theorem State.releaseAll_kept (s : State) (l : List PicDesc) : (State.releaseAll s l).kept = s.kept := by
  simp only [State.releaseAll, State.kept_mk, State.kept_fold, kept_ite, kept_ite_fst, TimSt.setPin_incr, TimSt.setKey_incr, TimSt.setPort_incr, TimSt.publish_incr, State.pictureRelease_kept, kept_foldl, ite_self, implies_true]
theorem State.cmpVideo_kept (s : State) (u l : Nat) (p : CmpPers) : (State.cmpVideo s u l p).1.kept = s.kept := by
  simp only [State.cmpVideo, State.kept_mk, State.kept_fold, kept_ite, kept_ite_fst, TimSt.setPin_incr, TimSt.setKey_incr, TimSt.setPort_incr, TimSt.publish_incr, State.releaseAll_kept, State.setCmp_kept, ite_self, implies_true]
theorem State.cmpGlaze_kept (s : State) (u : Nat) (p : CmpPers) (part : Nat) (now : List (Nat × CmpDrawn)) (redraw : List Nat) : (State.cmpGlaze s u p part now redraw).kept = s.kept := by
  simp only [State.cmpGlaze, State.kept_mk, State.kept_fold, kept_ite, kept_ite_fst, TimSt.setPin_incr, TimSt.setKey_incr, TimSt.setPort_incr, TimSt.publish_incr, State.setCmp_kept, ite_self, implies_true]
theorem State.cmpPoison_kept (s : State) (u n layer : Nat) : (State.cmpPoison s u n layer).kept = s.kept := by
  simp only [State.cmpPoison, State.kept_mk, State.kept_fold, kept_ite, kept_ite_fst, TimSt.setPin_incr, TimSt.setKey_incr, TimSt.setPort_incr, TimSt.publish_incr, ite_self, implies_true]
theorem State.cmpCompose_kept (s : State) (u tm : Nat) (tiles redraw : List Nat) : (State.cmpCompose s u tm tiles redraw).kept = s.kept := by
  unfold State.cmpCompose
  extract_lets p on vids v h gfx order run now s1 s2 s3 bad ev h3 h4 x slot skip h5
  have e1 : s1.kept = s.kept := by
    simp only [s1, v]
    exact kept_foldl_fst _ (fun a b => by simp only [State.kept_mk, State.kept_fold, kept_ite, kept_ite_fst, TimSt.setPin_incr, TimSt.setKey_incr, TimSt.setPort_incr, TimSt.publish_incr, State.cmpGlaze_kept, State.cmpPoison_kept, State.cmpVideo_kept, State.setCmp_kept]) _ _
  have e2 : s2.kept = s.kept := by simp only [s2, State.kept_mk, State.kept_fold, kept_ite, kept_ite_fst, TimSt.setPin_incr, TimSt.setKey_incr, TimSt.setPort_incr, TimSt.publish_incr, State.cmpGlaze_kept, State.cmpPoison_kept, State.cmpVideo_kept, State.setCmp_kept, e1]
  have e3 : s3.kept = s.kept := by simp only [s3]; split <;> simp only [State.kept_mk, State.kept_fold, kept_ite, kept_ite_fst, TimSt.setPin_incr, TimSt.setKey_incr, TimSt.setPort_incr, TimSt.publish_incr, State.cmpGlaze_kept, State.cmpPoison_kept, State.cmpVideo_kept, State.setCmp_kept, e2]
  simp only [State.kept_mk, State.kept_fold, kept_ite, kept_ite_fst, TimSt.setPin_incr, TimSt.setKey_incr, TimSt.setPort_incr, TimSt.publish_incr, State.cmpGlaze_kept, State.cmpPoison_kept, State.cmpVideo_kept, State.setCmp_kept, e3]
theorem State.cmpInstant_kept (s : State) (u : Nat) (tiles redraw : List Nat) : (State.cmpInstant s u tiles redraw).kept = s.kept := by
  simp only [State.cmpInstant, State.kept_mk, State.kept_fold, kept_ite, kept_ite_fst, TimSt.setPin_incr, TimSt.setKey_incr, TimSt.setPort_incr, TimSt.publish_incr, State.cmpCompose_kept, State.setCmp_kept, ite_self, implies_true]
theorem execCmpDescriptorReceive_kept (unit port : Nat) (desc : List Byte) (s : State) : ∃ t, execCmpDescriptorReceive unit port desc s = .next t ∧ t.kept = s.kept := by
  refine ⟨_, rfl, ?_⟩; simp only [State.kept_mk, State.kept_fold, kept_ite, kept_ite_fst, TimSt.setPin_incr, TimSt.setKey_incr, TimSt.setPort_incr, TimSt.publish_incr, State.setCmp_kept, ite_self, implies_true]
theorem State.cmpFrameEnd_kept (s : State) (u : Nat) (p : CmpPers) (f : CmpFrame) : (State.cmpFrameEnd s u p f).kept = s.kept := by
  simp only [State.cmpFrameEnd, State.kept_mk, State.kept_fold, kept_ite, kept_ite_fst, TimSt.setPin_incr, TimSt.setKey_incr, TimSt.setPort_incr, TimSt.publish_incr, State.releaseAll_kept, State.setCmp_kept, ite_self, implies_true]
theorem State.cmpNext_kept (s : State) (u : Nat) : (State.cmpNext s u).kept = s.kept := by
  unfold State.cmpNext; try dsimp only
  (repeat' split) <;> (first | done | (simp only [State.kept_mk, State.kept_fold, kept_ite, kept_ite_fst, TimSt.setPin_incr, TimSt.setKey_incr, TimSt.setPort_incr, TimSt.publish_incr, State.cmpCompose_kept, State.setCmp_kept, ite_self, implies_true]; done) | (simp [State.kept_mk, State.kept_fold, kept_ite, kept_ite_fst, TimSt.setPin_incr, TimSt.setKey_incr, TimSt.setPort_incr, TimSt.publish_incr, State.cmpCompose_kept, State.setCmp_kept]; done))
theorem State.cmpSetup_kept (s : State) (u : Nat) : (State.cmpSetup s u).kept = s.kept := by
  simp only [State.cmpSetup, State.kept_mk, State.kept_fold, kept_ite, kept_ite_fst, TimSt.setPin_incr, TimSt.setKey_incr, TimSt.setPort_incr, TimSt.publish_incr, ite_self, implies_true]
theorem State.setVin_kept (s : State) (v : Nat) (x : VinUnit) : (State.setVin s v x).kept = s.kept := by
  simp only [State.setVin, State.kept_mk, State.kept_fold, kept_ite, kept_ite_fst, TimSt.setPin_incr, TimSt.setKey_incr, TimSt.setPort_incr, TimSt.publish_incr, ite_self, implies_true]
theorem State.vinSetup_kept (s : State) (v : Nat) : (State.vinSetup s v).kept = s.kept := by
  simp only [State.vinSetup, State.kept_mk, State.kept_fold, kept_ite, kept_ite_fst, TimSt.setPin_incr, TimSt.setKey_incr, TimSt.setPort_incr, TimSt.publish_incr, State.setVin_kept, kept_foldl, ite_self, implies_true]
theorem State.vinErr_kept (s : State) (f : Fld) (v n code : Nat) : (State.vinErr s f v n code).kept = s.kept := by
  simp only [State.vinErr, State.kept_mk, State.kept_fold, kept_ite, kept_ite_fst, TimSt.setPin_incr, TimSt.setKey_incr, TimSt.setPort_incr, TimSt.publish_incr, ite_self, implies_true]
theorem State.vinNoPath_kept (s : State) (v : Nat) : (State.vinNoPath s v).kept = s.kept := by
  simp only [State.vinNoPath, State.kept_mk, State.kept_fold, kept_ite, kept_ite_fst, TimSt.setPin_incr, TimSt.setKey_incr, TimSt.setPort_incr, TimSt.publish_incr, State.vinErr_kept, ite_self, implies_true]
theorem State.vinFmtBad_kept (s : State) (v n : Nat) : (State.vinFmtBad s v n).kept = s.kept := by
  simp only [State.vinFmtBad, State.kept_mk, State.kept_fold, kept_ite, kept_ite_fst, TimSt.setPin_incr, TimSt.setKey_incr, TimSt.setPort_incr, TimSt.publish_incr, State.vinErr_kept, ite_self, implies_true]
theorem State.vinLocked_kept (s : State) (v : Nat) : (State.vinLocked s v).kept = s.kept := by
  simp only [State.vinLocked, State.kept_mk, State.kept_fold, kept_ite, kept_ite_fst, TimSt.setPin_incr, TimSt.setKey_incr, TimSt.setPort_incr, TimSt.publish_incr, ite_self, implies_true]
theorem State.vinFrame_kept (s : State) (v : Nat) (p : VinPers) (ts cf : Nat) (bad : Bool) : (State.vinFrame s v p ts cf bad).kept = s.kept := by
  simp only [State.vinFrame, State.kept_mk, State.kept_fold, kept_ite, kept_ite_fst, TimSt.setPin_incr, TimSt.setKey_incr, TimSt.setPort_incr, TimSt.publish_incr, State.setVin_kept, ite_self, implies_true]
theorem State.vinPath_kept (s : State) (sash : Nat) (p : VinPers) (f : VinFrame) (k lo : Nat) (rows : List Nat) (b : BuiltPath) : (State.vinPath s sash p f k lo rows b).kept = s.kept := by
  simp only [State.vinPath, State.kept_mk, State.kept_fold, kept_ite, kept_ite_fst, TimSt.setPin_incr, TimSt.setKey_incr, TimSt.setPort_incr, TimSt.publish_incr, ite_self, implies_true]
theorem State.vinStream_kept (s : State) (vin frame k : Nat) : (State.vinStream s vin frame k).kept = s.kept := by
  unfold State.vinStream; try dsimp only
  (repeat' split) <;> (first | done | (simp only [State.kept_mk, State.kept_fold, kept_ite, kept_ite_fst, TimSt.setPin_incr, TimSt.setKey_incr, TimSt.setPort_incr, TimSt.publish_incr, State.encGap_kept, State.encInput_kept, State.setVin_kept, State.vinErr_kept, State.vinPath_kept, kept_foldl, ite_self, implies_true]; done) | (simp [State.kept_mk, State.kept_fold, kept_ite, kept_ite_fst, TimSt.setPin_incr, TimSt.setKey_incr, TimSt.setPort_incr, TimSt.publish_incr, State.encGap_kept, State.encInput_kept, State.setVin_kept, State.vinErr_kept, State.vinPath_kept, kept_foldl]; done))
theorem State.ancOne_kept (s : State) (v : Nat) (p : VinPers) (ts cf : Nat) (a : AncPkt) : (State.ancOne s v p ts cf a).kept = s.kept := by
  simp only [State.ancOne, State.kept_mk, State.kept_fold, kept_ite, kept_ite_fst, TimSt.setPin_incr, TimSt.setKey_incr, TimSt.setPort_incr, TimSt.publish_incr, State.deliver_kept, State.vinErr_kept, ite_self, implies_true]
theorem State.vinAudio_kept (s : State) (v : Nat) (e : VinFlow) (x : VinPkt) : (State.vinAudio s v e x).kept = s.kept := by
  simp only [State.vinAudio, State.kept_mk, State.kept_fold, kept_ite, kept_ite_fst, TimSt.setPin_incr, TimSt.setKey_incr, TimSt.setPort_incr, TimSt.publish_incr, kept_foldl, ite_self, implies_true]
theorem execVinPathTimeout_kept (vin kind group : Nat) (pathB : Bool) (s : State) : ∃ t, execVinPathTimeout vin kind group pathB s = .next t ∧ t.kept = s.kept := by
  refine ⟨_, rfl, ?_⟩; simp only [State.kept_mk, State.kept_fold, kept_ite, kept_ite_fst, TimSt.setPin_incr, TimSt.setKey_incr, TimSt.setPort_incr, TimSt.publish_incr, State.setVin_kept, ite_self, implies_true]
theorem execVinSignalTimeout_kept (vin : Nat) (s : State) : ∃ t, execVinSignalTimeout vin s = .next t ∧ t.kept = s.kept := by
  refine ⟨_, rfl, ?_⟩; simp only [State.kept_mk, State.kept_fold, kept_ite, kept_ite_fst, TimSt.setPin_incr, TimSt.setKey_incr, TimSt.setPort_incr, TimSt.publish_incr, ite_self, implies_true]
theorem execSdiTxFrame_kept (lane : Nat) (s : State) : ∃ t, execSdiTxFrame lane s = .next t ∧ t.kept = s.kept := by
  unfold execSdiTxFrame; refine ⟨_, rfl, ?_⟩; try dsimp only
  (repeat' split) <;> (first | done | (simp only [State.kept_mk, State.kept_fold, kept_ite, kept_ite_fst, TimSt.setPin_incr, TimSt.setKey_incr, TimSt.setPort_incr, TimSt.publish_incr, State.vinFmtBad_kept, ite_self, implies_true]; done) | (simp [State.kept_mk, State.kept_fold, kept_ite, kept_ite_fst, TimSt.setPin_incr, TimSt.setKey_incr, TimSt.setPort_incr, TimSt.publish_incr, State.vinFmtBad_kept]; done))
theorem State.setTso_kept (s : State) (n : Nat) (x : TsoUnit) : (State.setTso s n x).kept = s.kept := by
  simp only [State.setTso, State.kept_mk, State.kept_fold, kept_ite, kept_ite_fst, TimSt.setPin_incr, TimSt.setKey_incr, TimSt.setPort_incr, TimSt.publish_incr, ite_self, implies_true]
theorem State.tsoSetup_kept (s : State) (n : Nat) : (State.tsoSetup s n).kept = s.kept := by
  simp only [State.tsoSetup, State.kept_mk, State.kept_fold, kept_ite, kept_ite_fst, TimSt.setPin_incr, TimSt.setKey_incr, TimSt.setPort_incr, TimSt.publish_incr, State.setTso_kept, ite_self, implies_true]
theorem State.tsoPut_kept (s : State) (n : Nat) (x : TsoUnit) : (State.tsoPut s n x).kept = s.kept := by
  simp only [State.tsoPut, State.kept_mk, State.kept_fold, kept_ite, kept_ite_fst, TimSt.setPin_incr, TimSt.setKey_incr, TimSt.setPort_incr, TimSt.publish_incr, State.setTso_kept, ite_self, implies_true]
theorem execTsoRowReceive_kept (tso frame row flags cf size : Nat) (s : State) : ∃ t, execTsoRowReceive tso frame row flags cf size s = .next t ∧ t.kept = s.kept := by
  refine ⟨_, rfl, ?_⟩; simp only [State.kept_mk, State.kept_fold, kept_ite, kept_ite_fst, TimSt.setPin_incr, TimSt.setKey_incr, TimSt.setPort_incr, TimSt.publish_incr, State.tsoPut_kept, ite_self, implies_true]
theorem State.tsoBoundary_kept (s : State) : (State.tsoBoundary s).kept = s.kept := by
  simp only [State.tsoBoundary, State.kept_mk, State.kept_fold, kept_ite, kept_ite_fst, TimSt.setPin_incr, TimSt.setKey_incr, TimSt.setPort_incr, TimSt.publish_incr, State.setTso_kept, kept_foldl, ite_self, implies_true]
theorem State.tsoSend_kept (s : State) (n : Nat) (p : TsoPers) (len up : Nat) (kind : String) (args : List Nat) : (State.tsoSend s n p len up kind args).kept = s.kept := by
  simp only [State.tsoSend, State.kept_mk, State.kept_fold, kept_ite, kept_ite_fst, TimSt.setPin_incr, TimSt.setKey_incr, TimSt.setPort_incr, TimSt.publish_incr, State.sysSend_kept, ite_self, implies_true]
theorem execPsiTimer_kept (tso : Nat) (s : State) : ∃ t, execPsiTimer tso s = .next t ∧ t.kept = s.kept := by
  refine ⟨_, rfl, ?_⟩; simp only [State.kept_mk, State.kept_fold, kept_ite, kept_ite_fst, TimSt.setPin_incr, TimSt.setKey_incr, TimSt.setPort_incr, TimSt.publish_incr, State.tsoPut_kept, ite_self, implies_true]
theorem State.tsoAudio_kept (s : State) (chan at_ : Nat) (item : List Byte) : (State.tsoAudio s chan at_ item).kept = s.kept := by
  unfold State.tsoAudio; try dsimp only
  (repeat' split) <;> (first | done | (simp only [State.kept_mk, State.kept_fold, kept_ite, kept_ite_fst, TimSt.setPin_incr, TimSt.setKey_incr, TimSt.setPort_incr, TimSt.publish_incr, State.setTso_kept, State.tsoPut_kept, kept_foldl, ite_self, implies_true]; done) | (simp [State.kept_mk, State.kept_fold, kept_ite, kept_ite_fst, TimSt.setPin_incr, TimSt.setKey_incr, TimSt.setPort_incr, TimSt.publish_incr, State.setTso_kept, State.tsoPut_kept, kept_foldl]; done) | (refine (kept_foldl _ (fun a b => ?_) _ _).trans ?_ <;> (try dsimp only) <;> (repeat' split) <;> (first | (simp only [State.kept_mk, State.kept_fold, kept_ite, kept_ite_fst, TimSt.setPin_incr, TimSt.setKey_incr, TimSt.setPort_incr, TimSt.publish_incr, State.setTso_kept, State.tsoPut_kept, kept_foldl, ite_self, implies_true]; done) | (simp [State.kept_mk, State.kept_fold, kept_ite, kept_ite_fst, TimSt.setPin_incr, TimSt.setKey_incr, TimSt.setPort_incr, TimSt.publish_incr, State.setTso_kept, State.tsoPut_kept, kept_foldl]; done))))
theorem State.cmafItem_kept (s : State) (n : Nat) (p : TsoPers) (item : List Byte) (boxes : Nat) : (State.cmafItem s n p item boxes).kept = s.kept := by
  simp only [State.cmafItem, State.kept_mk, State.kept_fold, kept_ite, kept_ite_fst, TimSt.setPin_incr, TimSt.setKey_incr, TimSt.setPort_incr, TimSt.publish_incr, ite_self, implies_true]
theorem State.cmafInit_kept (s : State) (n : Nat) (p : TsoPers) (c : CmafChunk) : (State.cmafInit s n p c).kept = s.kept := by
  simp only [State.cmafInit, State.kept_mk, State.kept_fold, kept_ite, kept_ite_fst, TimSt.setPin_incr, TimSt.setKey_incr, TimSt.setPort_incr, TimSt.publish_incr, State.cmafItem_kept, State.setTso_kept, ite_self, implies_true]
theorem State.splErr_kept (s : State) (f : Fld) (u : Nat) : (State.splErr s f u).kept = s.kept := by
  simp only [State.splErr, State.kept_mk, State.kept_fold, kept_ite, kept_ite_fst, TimSt.setPin_incr, TimSt.setKey_incr, TimSt.setPort_incr, TimSt.publish_incr, ite_self, implies_true]
theorem State.splRaise_kept (s : State) (code u x : Nat) : (State.splRaise s code u x).kept = s.kept := by
  simp only [State.splRaise, State.kept_mk, State.kept_fold, kept_ite, kept_ite_fst, TimSt.setPin_incr, TimSt.setKey_incr, TimSt.setPort_incr, TimSt.publish_incr, ite_self, implies_true]
theorem State.setRecv_kept (s : State) (spl r : Nat) (v : SplRecv) : (State.setRecv s spl r v).kept = s.kept := by
  simp only [State.setRecv, State.kept_mk, State.kept_fold, kept_ite, kept_ite_fst, TimSt.setPin_incr, TimSt.setKey_incr, TimSt.setPort_incr, TimSt.publish_incr, ite_self, implies_true]
theorem execTemplateRecordReceive_kept (spl : Nat) (rec : List Byte) (poison : Bool) (s : State) : ∃ t, execTemplateRecordReceive spl rec poison s = .next t ∧ t.kept = s.kept := by
  refine ⟨_, rfl, ?_⟩; simp only [State.kept_mk, State.kept_fold, kept_ite, kept_ite_fst, TimSt.setPin_incr, TimSt.setKey_incr, TimSt.setPort_incr, TimSt.publish_incr, State.splErr_kept, State.splRaise_kept, kept_foldl, ite_self, implies_true]
theorem State.splPurge_kept (s : State) (spl : Nat) : (State.splPurge s spl).kept = s.kept := by
  simp only [State.splPurge, State.kept_mk, State.kept_fold, kept_ite, kept_ite_fst, TimSt.setPin_incr, TimSt.setKey_incr, TimSt.setPort_incr, TimSt.publish_incr, ite_self, implies_true]
theorem State.paneGone_kept (s : State) (spl id : Nat) : (State.paneGone s spl id).kept = s.kept := by
  simp only [State.paneGone, State.kept_mk, State.kept_fold, kept_ite, kept_ite_fst, TimSt.setPin_incr, TimSt.setKey_incr, TimSt.setPort_incr, TimSt.publish_incr, ite_self, implies_true]
theorem State.panesGone_kept (s : State) (sash : Nat) (rend : Option Nat) (keep : Nat → Nat → Bool) : (State.panesGone s sash rend keep).kept = s.kept := by
  simp only [State.panesGone, State.kept_mk, State.kept_fold, kept_ite, kept_ite_fst, TimSt.setPin_incr, TimSt.setKey_incr, TimSt.setPort_incr, TimSt.publish_incr, State.paneGone_kept, kept_foldl, ite_self, implies_true]
theorem execSplPaneset_kept (e : CmdEnv) (body : List Byte) (s : State) : ∃ t, execSplPaneset e body s = .next t ∧ t.kept = s.kept := by
  unfold execSplPaneset; refine ⟨_, rfl, ?_⟩; try dsimp only
  (repeat' split) <;> (first | done | (simp only [State.kept_mk, State.kept_fold, kept_ite, kept_ite_fst, TimSt.setPin_incr, TimSt.setKey_incr, TimSt.setPort_incr, TimSt.publish_incr, State.done_kept, State.panesGone_kept, kept_foldl, ite_self, implies_true]; done) | (simp [State.kept_mk, State.kept_fold, kept_ite, kept_ite_fst, TimSt.setPin_incr, TimSt.setKey_incr, TimSt.setPort_incr, TimSt.publish_incr, State.done_kept, State.panesGone_kept, kept_foldl]; done))
theorem State.recvRefuse_kept (s : State) (e : CmdEnv) (op st : Nat) : (State.recvRefuse s e op st).kept = s.kept := by
  simp only [State.recvRefuse, State.kept_mk, State.kept_fold, kept_ite, kept_ite_fst, TimSt.setPin_incr, TimSt.setKey_incr, TimSt.setPort_incr, TimSt.publish_incr, State.done_kept, ite_self, implies_true]
theorem State.recvAdd_kept (s : State) (b : List Byte) (at_ : Nat) : (State.recvAdd s b at_).kept = s.kept := by
  unfold State.recvAdd; try dsimp only
  (repeat' split) <;> (first | done | (simp only [State.kept_mk, State.kept_fold, kept_ite, kept_ite_fst, TimSt.setPin_incr, TimSt.setKey_incr, TimSt.setPort_incr, TimSt.publish_incr, State.setRecv_kept, ite_self, implies_true]; done) | (simp [State.kept_mk, State.kept_fold, kept_ite, kept_ite_fst, TimSt.setPin_incr, TimSt.setKey_incr, TimSt.setPort_incr, TimSt.publish_incr, State.setRecv_kept]; done))
theorem State.recvQueue_kept (s : State) (b : List Byte) (c : RecvChange) : (State.recvQueue s b c).kept = s.kept := by
  unfold State.recvQueue; try dsimp only
  (repeat' split) <;> (first | done | (simp only [State.kept_mk, State.kept_fold, kept_ite, kept_ite_fst, TimSt.setPin_incr, TimSt.setKey_incr, TimSt.setPort_incr, TimSt.publish_incr, State.setRecv_kept, ite_self, implies_true]; done) | (simp [State.kept_mk, State.kept_fold, kept_ite, kept_ite_fst, TimSt.setPin_incr, TimSt.setKey_incr, TimSt.setPort_incr, TimSt.publish_incr, State.setRecv_kept]; done))
theorem execSplRecvAdd_kept (e : CmdEnv) (body : List Byte) (s : State) : ∃ t, execSplRecvAdd e body s = .next t ∧ t.kept = s.kept := by
  unfold execSplRecvAdd; refine ⟨_, rfl, ?_⟩; try dsimp only
  (repeat' split) <;> (first | done | (simp only [State.kept_mk, State.kept_fold, kept_ite, kept_ite_fst, TimSt.setPin_incr, TimSt.setKey_incr, TimSt.setPort_incr, TimSt.publish_incr, State.done_kept, State.hold_kept, State.recvAdd_kept, State.recvRefuse_kept, ite_self, implies_true]; done) | (simp [State.kept_mk, State.kept_fold, kept_ite, kept_ite_fst, TimSt.setPin_incr, TimSt.setKey_incr, TimSt.setPort_incr, TimSt.publish_incr, State.done_kept, State.hold_kept, State.recvAdd_kept, State.recvRefuse_kept]; done))
theorem execSplRecvSet_kept (e : CmdEnv) (body : List Byte) (s : State) : ∃ t, execSplRecvSet e body s = .next t ∧ t.kept = s.kept := by
  unfold execSplRecvSet; refine ⟨_, rfl, ?_⟩; try dsimp only
  (repeat' split) <;> (first | done | (simp only [State.kept_mk, State.kept_fold, kept_ite, kept_ite_fst, TimSt.setPin_incr, TimSt.setKey_incr, TimSt.setPort_incr, TimSt.publish_incr, State.done_kept, State.hold_kept, State.recvQueue_kept, State.recvRefuse_kept, ite_self, implies_true]; done) | (simp [State.kept_mk, State.kept_fold, kept_ite, kept_ite_fst, TimSt.setPin_incr, TimSt.setKey_incr, TimSt.setPort_incr, TimSt.publish_incr, State.done_kept, State.hold_kept, State.recvQueue_kept, State.recvRefuse_kept]; done))
theorem execSplRecvDel_kept (e : CmdEnv) (body : List Byte) (s : State) : ∃ t, execSplRecvDel e body s = .next t ∧ t.kept = s.kept := by
  unfold execSplRecvDel; refine ⟨_, rfl, ?_⟩; try dsimp only
  (repeat' split) <;> (first | done | (simp only [State.kept_mk, State.kept_fold, kept_ite, kept_ite_fst, TimSt.setPin_incr, TimSt.setKey_incr, TimSt.setPort_incr, TimSt.publish_incr, State.done_kept, State.hold_kept, State.recvQueue_kept, ite_self, implies_true]; done) | (simp [State.kept_mk, State.kept_fold, kept_ite, kept_ite_fst, TimSt.setPin_incr, TimSt.setKey_incr, TimSt.setPort_incr, TimSt.publish_incr, State.done_kept, State.hold_kept, State.recvQueue_kept]; done))
theorem State.splChange_kept (s : State) (i : Instr) : (State.splChange s i).kept = s.kept := by
  unfold State.splChange; try dsimp only
  (repeat' split) <;> (first | done | (simp only [State.kept_mk, State.kept_fold, kept_ite, kept_ite_fst, TimSt.setPin_incr, TimSt.setKey_incr, TimSt.setPort_incr, TimSt.publish_incr, State.recvAdd_kept, State.recvQueue_kept, ite_self, implies_true]; done) | (simp [State.kept_mk, State.kept_fold, kept_ite, kept_ite_fst, TimSt.setPin_incr, TimSt.setKey_incr, TimSt.setPort_incr, TimSt.publish_incr, State.recvAdd_kept, State.recvQueue_kept]; done))
theorem execSplStats_kept (e : CmdEnv) (body : List Byte) (s : State) : ∃ t, execSplStats e body s = .next t ∧ t.kept = s.kept := by
  unfold execSplStats; refine ⟨_, rfl, ?_⟩; try dsimp only
  (repeat' split) <;> (first | done | (simp only [State.kept_mk, State.kept_fold, kept_ite, kept_ite_fst, TimSt.setPin_incr, TimSt.setKey_incr, TimSt.setPort_incr, TimSt.publish_incr, State.done_kept, ite_self, implies_true]; done) | (simp [State.kept_mk, State.kept_fold, kept_ite, kept_ite_fst, TimSt.setPin_incr, TimSt.setKey_incr, TimSt.setPort_incr, TimSt.publish_incr, State.done_kept]; done))
theorem State.splSetup_kept (s : State) (u : Nat) : (State.splSetup s u).kept = s.kept := by
  simp only [State.splSetup, State.kept_mk, State.kept_fold, kept_ite, kept_ite_fst, TimSt.setPin_incr, TimSt.setKey_incr, TimSt.setPort_incr, TimSt.publish_incr, ite_self, implies_true]

end Sys2Proof.Machine
end

