-- ==== Sys2Proof/Laws/KeptAudio.lean ====
section
/-! SUPPORT. Frame lemmas of the audio, Dolby and instruction-core units: each definition leaves `State.kept` alone. -/

namespace Sys2Proof.Machine

set_option linter.all false

theorem State.retarget_kept (s : State) (smp : Nat) : (State.retarget s smp).kept = s.kept := by
  simp only [State.retarget, State.kept_mk, State.kept_fold, kept_ite, kept_ite_fst, TimSt.setPin_incr, TimSt.setKey_incr, TimSt.setPort_incr, TimSt.publish_incr, ite_self, implies_true]
theorem State.nodeSet_kept (s : State) (smp : Nat) (l : List (Nat × Nat × Nat)) : (State.nodeSet s smp l).kept = s.kept := by
  simp only [State.nodeSet, State.kept_mk, State.kept_fold, kept_ite, kept_ite_fst, TimSt.setPin_incr, TimSt.setKey_incr, TimSt.setPort_incr, TimSt.publish_incr, State.retarget_kept, kept_foldl, ite_self, implies_true]
theorem State.gainStep_kept (s : State) (k : Nat) (j : Option Nat) (smp : Nat) : (State.gainStep s k j smp).kept = s.kept := by
  unfold State.gainStep; try dsimp only
  (repeat' split) <;> (first | done | (simp only [State.kept_mk, State.kept_fold, kept_ite, kept_ite_fst, TimSt.setPin_incr, TimSt.setKey_incr, TimSt.setPort_incr, TimSt.publish_incr, ite_self, implies_true]; done) | (simp [State.kept_mk, State.kept_fold, kept_ite, kept_ite_fst, TimSt.setPin_incr, TimSt.setKey_incr, TimSt.setPort_incr, TimSt.publish_incr]; done))
theorem execGainStepZeroCross_kept (sink : Nat) (source : Option Nat) (sample : Nat) (s : State) : ∃ t, execGainStepZeroCross sink source sample s = .next t ∧ t.kept = s.kept := by
  unfold execGainStepZeroCross; refine ⟨_, rfl, ?_⟩; try dsimp only
  (repeat' split) <;> (first | done | (simp only [State.kept_mk, State.kept_fold, kept_ite, kept_ite_fst, TimSt.setPin_incr, TimSt.setKey_incr, TimSt.setPort_incr, TimSt.publish_incr, State.gainStep_kept, State.sample_kept, ite_self, implies_true]; done) | (simp [State.kept_mk, State.kept_fold, kept_ite, kept_ite_fst, TimSt.setPin_incr, TimSt.setKey_incr, TimSt.setPort_incr, TimSt.publish_incr, State.gainStep_kept, State.sample_kept]; done))
theorem execGainStepTimeout_kept (sink : Nat) (source : Option Nat) (s : State) : ∃ t, execGainStepTimeout sink source s = .next t ∧ t.kept = s.kept := by
  unfold execGainStepTimeout; refine ⟨_, rfl, ?_⟩; try dsimp only
  (repeat' split) <;> (first | done | (simp only [State.kept_mk, State.kept_fold, kept_ite, kept_ite_fst, TimSt.setPin_incr, TimSt.setKey_incr, TimSt.setPort_incr, TimSt.publish_incr, State.gainStep_kept, ite_self, implies_true]; done) | (simp [State.kept_mk, State.kept_fold, kept_ite, kept_ite_fst, TimSt.setPin_incr, TimSt.setKey_incr, TimSt.setPort_incr, TimSt.publish_incr, State.gainStep_kept]; done))
theorem execAsHoldExpiry_kept (sink : Nat) (s : State) : ∃ t, execAsHoldExpiry sink s = .next t ∧ t.kept = s.kept := by
  unfold execAsHoldExpiry; refine ⟨_, rfl, ?_⟩; try dsimp only
  (repeat' split) <;> (first | done | (simp only [State.kept_mk, State.kept_fold, kept_ite, kept_ite_fst, TimSt.setPin_incr, TimSt.setKey_incr, TimSt.setPort_incr, TimSt.publish_incr, ite_self, implies_true]; done) | (simp [State.kept_mk, State.kept_fold, kept_ite, kept_ite_fst, TimSt.setPin_incr, TimSt.setKey_incr, TimSt.setPort_incr, TimSt.publish_incr]; done))
theorem execAudSrcBind_kept (e : CmdEnv) (body : List Byte) (s : State) : ∃ t, execAudSrcBind e body s = .next t ∧ t.kept = s.kept := by
  unfold execAudSrcBind; refine ⟨_, rfl, ?_⟩; try dsimp only
  (repeat' split) <;> (first | done | (simp only [State.kept_mk, State.kept_fold, kept_ite, kept_ite_fst, TimSt.setPin_incr, TimSt.setKey_incr, TimSt.setPort_incr, TimSt.publish_incr, State.done_kept, ite_self, implies_true]; done) | (simp [State.kept_mk, State.kept_fold, kept_ite, kept_ite_fst, TimSt.setPin_incr, TimSt.setKey_incr, TimSt.setPort_incr, TimSt.publish_incr, State.done_kept]; done))
theorem execAudSnkBind_kept (e : CmdEnv) (body : List Byte) (s : State) : ∃ t, execAudSnkBind e body s = .next t ∧ t.kept = s.kept := by
  unfold execAudSnkBind; refine ⟨_, rfl, ?_⟩; try dsimp only
  (repeat' split) <;> (first | done | (simp only [State.kept_mk, State.kept_fold, kept_ite, kept_ite_fst, TimSt.setPin_incr, TimSt.setKey_incr, TimSt.setPort_incr, TimSt.publish_incr, State.done_kept, ite_self, implies_true]; done) | (simp [State.kept_mk, State.kept_fold, kept_ite, kept_ite_fst, TimSt.setPin_incr, TimSt.setKey_incr, TimSt.setPort_incr, TimSt.publish_incr, State.done_kept]; done))
theorem execAudNodeSet_kept (e : CmdEnv) (body : List Byte) (s : State) : ∃ t, execAudNodeSet e body s = .next t ∧ t.kept = s.kept := by
  refine ⟨_, rfl, ?_⟩; simp only [State.kept_mk, State.kept_fold, kept_ite, kept_ite_fst, TimSt.setPin_incr, TimSt.setKey_incr, TimSt.setPort_incr, TimSt.publish_incr, State.done_kept, State.hold_kept, ite_self, implies_true]
theorem State.audChange_kept (s : State) (i : Instr) : (State.audChange s i).kept = s.kept := by
  unfold State.audChange; try dsimp only
  (repeat' split) <;> (first | done | (simp only [State.kept_mk, State.kept_fold, kept_ite, kept_ite_fst, TimSt.setPin_incr, TimSt.setKey_incr, TimSt.setPort_incr, TimSt.publish_incr, State.nodeSet_kept, ite_self, implies_true]; done) | (simp [State.kept_mk, State.kept_fold, kept_ite, kept_ite_fst, TimSt.setPin_incr, TimSt.setKey_incr, TimSt.setPort_incr, TimSt.publish_incr, State.nodeSet_kept]; done))
theorem State.audcStat_kept (s : State) (u : Nat) : (State.audcStat s u).kept = s.kept := by
  simp only [State.audcStat, State.kept_mk, State.kept_fold, kept_ite, kept_ite_fst, TimSt.setPin_incr, TimSt.setKey_incr, TimSt.setPort_incr, TimSt.publish_incr, ite_self, implies_true]
theorem State.audcSetup_kept (s : State) (u : Nat) : (State.audcSetup s u).kept = s.kept := by
  simp only [State.audcSetup, State.kept_mk, State.kept_fold, kept_ite, kept_ite_fst, TimSt.setPin_incr, TimSt.setKey_incr, TimSt.setPort_incr, TimSt.publish_incr, ite_self, implies_true]
theorem State.decOpen_kept (s : State) (c unit stream src jb : Nat) : (State.decOpen s c unit stream src jb).kept = s.kept := by
  simp only [State.decOpen, State.kept_mk, State.kept_fold, kept_ite, kept_ite_fst, TimSt.setPin_incr, TimSt.setKey_incr, TimSt.setPort_incr, TimSt.publish_incr, State.audcStat_kept, ite_self, implies_true]
theorem State.encOpen_kept (s : State) (c : Nat) (x : AudEnc) : (State.encOpen s c x).kept = s.kept := by
  simp only [State.encOpen, State.kept_mk, State.kept_fold, kept_ite, kept_ite_fst, TimSt.setPin_incr, TimSt.setKey_incr, TimSt.setPort_incr, TimSt.publish_incr, State.audcStat_kept, ite_self, implies_true]
theorem State.decClose_kept (s : State) (c : Nat) : (State.decClose s c).kept = s.kept := by
  unfold State.decClose; try dsimp only
  (repeat' split) <;> (first | done | (simp only [State.kept_mk, State.kept_fold, kept_ite, kept_ite_fst, TimSt.setPin_incr, TimSt.setKey_incr, TimSt.setPort_incr, TimSt.publish_incr, State.audcStat_kept, ite_self, implies_true]; done) | (simp [State.kept_mk, State.kept_fold, kept_ite, kept_ite_fst, TimSt.setPin_incr, TimSt.setKey_incr, TimSt.setPort_incr, TimSt.publish_incr, State.audcStat_kept]; done))
theorem State.encClose_kept (s : State) (c : Nat) : (State.encClose s c).kept = s.kept := by
  unfold State.encClose; try dsimp only
  (repeat' split) <;> (first | done | (simp only [State.kept_mk, State.kept_fold, kept_ite, kept_ite_fst, TimSt.setPin_incr, TimSt.setKey_incr, TimSt.setPort_incr, TimSt.publish_incr, State.audcStat_kept, ite_self, implies_true]; done) | (simp [State.kept_mk, State.kept_fold, kept_ite, kept_ite_fst, TimSt.setPin_incr, TimSt.setKey_incr, TimSt.setPort_incr, TimSt.publish_incr, State.audcStat_kept]; done))
theorem execAudDecOpen_kept (e : CmdEnv) (body : List Byte) (s : State) : ∃ t, execAudDecOpen e body s = .next t ∧ t.kept = s.kept := by
  unfold execAudDecOpen; refine ⟨_, rfl, ?_⟩; try dsimp only
  (repeat' split) <;> (first | done | (simp only [State.kept_mk, State.kept_fold, kept_ite, kept_ite_fst, TimSt.setPin_incr, TimSt.setKey_incr, TimSt.setPort_incr, TimSt.publish_incr, State.decOpen_kept, State.done_kept, ite_self, implies_true]; done) | (simp [State.kept_mk, State.kept_fold, kept_ite, kept_ite_fst, TimSt.setPin_incr, TimSt.setKey_incr, TimSt.setPort_incr, TimSt.publish_incr, State.decOpen_kept, State.done_kept]; done))
theorem execAudEncOpen_kept (e : CmdEnv) (body : List Byte) (s : State) : ∃ t, execAudEncOpen e body s = .next t ∧ t.kept = s.kept := by
  unfold execAudEncOpen; refine ⟨_, rfl, ?_⟩; try dsimp only
  (repeat' split) <;> (first | done | (simp only [State.kept_mk, State.kept_fold, kept_ite, kept_ite_fst, TimSt.setPin_incr, TimSt.setKey_incr, TimSt.setPort_incr, TimSt.publish_incr, State.done_kept, State.encOpen_kept, ite_self, implies_true]; done) | (simp [State.kept_mk, State.kept_fold, kept_ite, kept_ite_fst, TimSt.setPin_incr, TimSt.setKey_incr, TimSt.setPort_incr, TimSt.publish_incr, State.done_kept, State.encOpen_kept]; done))
theorem execAudClose_kept (e : CmdEnv) (body : List Byte) (s : State) : ∃ t, execAudClose e body s = .next t ∧ t.kept = s.kept := by
  unfold execAudClose; refine ⟨_, rfl, ?_⟩; try dsimp only
  (repeat' split) <;> (first | done | (simp only [State.kept_mk, State.kept_fold, kept_ite, kept_ite_fst, TimSt.setPin_incr, TimSt.setKey_incr, TimSt.setPort_incr, TimSt.publish_incr, State.done_kept, ite_self, implies_true]; done) | (simp [State.kept_mk, State.kept_fold, kept_ite, kept_ite_fst, TimSt.setPin_incr, TimSt.setKey_incr, TimSt.setPort_incr, TimSt.publish_incr, State.done_kept]; done))
theorem State.audRoom_kept (s : State) (l : List (Bool × Nat × Nat)) : (State.audRoom s l).kept = s.kept := by
  simp only [State.audRoom, State.kept_mk, State.kept_fold, kept_ite, kept_ite_fst, TimSt.setPin_incr, TimSt.setKey_incr, TimSt.setPort_incr, TimSt.publish_incr, State.retarget_kept, kept_foldl, ite_self, implies_true]
theorem execAudRoom_kept (e : CmdEnv) (body : List Byte) (s : State) : ∃ t, execAudRoom e body s = .next t ∧ t.kept = s.kept := by
  refine ⟨_, rfl, ?_⟩; simp only [State.kept_mk, State.kept_fold, kept_ite, kept_ite_fst, TimSt.setPin_incr, TimSt.setKey_incr, TimSt.setPort_incr, TimSt.publish_incr, State.audRoom_kept, State.done_kept, ite_self, implies_true]
theorem execOnePerRoomTimer_kept (s : State) : ∃ t, execOnePerRoomTimer s = .next t ∧ t.kept = s.kept := by
  refine ⟨_, rfl, ?_⟩; simp only [State.kept_mk, State.kept_fold, kept_ite, kept_ite_fst, TimSt.setPin_incr, TimSt.setKey_incr, TimSt.setPort_incr, TimSt.publish_incr, State.retarget_kept, kept_foldl, ite_self, implies_true]
theorem execAudStats_kept (e : CmdEnv) (body : List Byte) (s : State) : ∃ t, execAudStats e body s = .next t ∧ t.kept = s.kept := by
  unfold execAudStats; refine ⟨_, rfl, ?_⟩; try dsimp only
  (repeat' split) <;> (first | done | (simp only [State.kept_mk, State.kept_fold, kept_ite, kept_ite_fst, TimSt.setPin_incr, TimSt.setKey_incr, TimSt.setPort_incr, TimSt.publish_incr, State.done_kept, ite_self, implies_true]; done) | (simp [State.kept_mk, State.kept_fold, kept_ite, kept_ite_fst, TimSt.setPin_incr, TimSt.setKey_incr, TimSt.setPort_incr, TimSt.publish_incr, State.done_kept]; done))
theorem State.dblStat_kept (s : State) : (State.dblStat s).kept = s.kept := by
  simp only [State.dblStat, State.kept_mk, State.kept_fold, kept_ite, kept_ite_fst, TimSt.setPin_incr, TimSt.setKey_incr, TimSt.setPort_incr, TimSt.publish_incr, ite_self, implies_true]
theorem State.dblCheck_kept (s : State) : (State.dblCheck s).kept = s.kept := by
  simp only [State.dblCheck, State.kept_mk, State.kept_fold, kept_ite, kept_ite_fst, TimSt.setPin_incr, TimSt.setKey_incr, TimSt.setPort_incr, TimSt.publish_incr, kept_foldl, ite_self, implies_true]
theorem State.dblEnded_kept (s : State) : (State.dblEnded s).kept = s.kept := by
  simp only [State.dblEnded, State.kept_mk, State.kept_fold, kept_ite, kept_ite_fst, TimSt.setPin_incr, TimSt.setKey_incr, TimSt.setPort_incr, TimSt.publish_incr, State.dblStat_kept, ite_self, implies_true]
theorem State.dwellsEnd_kept (s : State) (keys : List Nat) (again : Bool) : (State.dwellsEnd s keys again).kept = s.kept := by
  simp only [State.dwellsEnd, State.kept_mk, State.kept_fold, kept_ite, kept_ite_fst, TimSt.setPin_incr, TimSt.setKey_incr, TimSt.setPort_incr, TimSt.publish_incr, State.dblStat_kept, ite_self, implies_true]
theorem State.dwellCheck_kept (s : State) : (State.dwellCheck s).kept = s.kept := by
  simp only [State.dwellCheck, State.kept_mk, State.kept_fold, kept_ite, kept_ite_fst, TimSt.setPin_incr, TimSt.setKey_incr, TimSt.setPort_incr, TimSt.publish_incr, State.dwellsEnd_kept, ite_self, implies_true]
theorem execAudPacketReceive_kept (x : AudIn) (s : State) : ∃ t, execAudPacketReceive x s = .next t ∧ t.kept = s.kept := by
  unfold execAudPacketReceive; refine ⟨_, rfl, ?_⟩; try dsimp only
  (repeat' split) <;> (first | done | (simp only [State.kept_mk, State.kept_fold, kept_ite, kept_ite_fst, TimSt.setPin_incr, TimSt.setKey_incr, TimSt.setPort_incr, TimSt.publish_incr, ite_self, implies_true]; done) | (simp [State.kept_mk, State.kept_fold, kept_ite, kept_ite_fst, TimSt.setPin_incr, TimSt.setKey_incr, TimSt.setPort_incr, TimSt.publish_incr]; done))
theorem State.cascadeIn_kept (s : State) (dev chan period : Nat) (samples : List Int) (poison : Bool) : (State.cascadeIn s dev chan period samples poison).kept = s.kept := by
  unfold State.cascadeIn; try dsimp only
  (repeat' split) <;> (first | done | (simp only [State.kept_mk, State.kept_fold, kept_ite, kept_ite_fst, TimSt.setPin_incr, TimSt.setKey_incr, TimSt.setPort_incr, TimSt.publish_incr, ite_self, implies_true]; done) | (simp [State.kept_mk, State.kept_fold, kept_ite, kept_ite_fst, TimSt.setPin_incr, TimSt.setKey_incr, TimSt.setPort_incr, TimSt.publish_incr]; done))
theorem execCascadeFlit_kept (dev chan period : Nat) (samples : List Int) (poison : Bool) (s : State) : ∃ t, execCascadeFlit dev chan period samples poison s = .next t ∧ t.kept = s.kept := by
  refine ⟨_, rfl, ?_⟩; simp only [State.kept_mk, State.kept_fold, kept_ite, kept_ite_fst, TimSt.setPin_incr, TimSt.setKey_incr, TimSt.setPort_incr, TimSt.publish_incr, State.cascadeIn_kept, ite_self, implies_true]
theorem State.talkerEvent_kept (s : State) (c leg t : Nat) : (State.talkerEvent s c leg t).kept = s.kept := by
  simp only [State.talkerEvent, State.kept_mk, State.kept_fold, kept_ite, kept_ite_fst, TimSt.setPin_incr, TimSt.setKey_incr, TimSt.setPort_incr, TimSt.publish_incr, ite_self, implies_true]
theorem State.setConf_kept (s : State) (n : Nat) (c : AudConf) : (State.setConf s n c).kept = s.kept := by
  simp only [State.setConf, State.kept_mk, State.kept_fold, kept_ite, kept_ite_fst, TimSt.setPin_incr, TimSt.setKey_incr, TimSt.setPort_incr, TimSt.publish_incr, ite_self, implies_true]
theorem State.talkJoin_kept (s : State) (n leg t : Nat) : (State.talkJoin s n leg t).kept = s.kept := by
  unfold State.talkJoin; try dsimp only
  (repeat' split) <;> (first | done | (simp only [State.kept_mk, State.kept_fold, kept_ite, kept_ite_fst, TimSt.setPin_incr, TimSt.setKey_incr, TimSt.setPort_incr, TimSt.publish_incr, State.decOpen_kept, State.encOpen_kept, State.setConf_kept, State.talkerEvent_kept, ite_self, implies_true]; done) | (simp [State.kept_mk, State.kept_fold, kept_ite, kept_ite_fst, TimSt.setPin_incr, TimSt.setKey_incr, TimSt.setPort_incr, TimSt.publish_incr, State.decOpen_kept, State.encOpen_kept, State.setConf_kept, State.talkerEvent_kept]; done))
theorem State.talkLeave_kept (s : State) (n leg : Nat) : (State.talkLeave s n leg).kept = s.kept := by
  unfold State.talkLeave; try dsimp only
  (repeat' split) <;> (first | done | (simp only [State.kept_mk, State.kept_fold, kept_ite, kept_ite_fst, TimSt.setPin_incr, TimSt.setKey_incr, TimSt.setPort_incr, TimSt.publish_incr, State.encClose_kept, State.setConf_kept, State.talkerEvent_kept, kept_foldl, ite_self, implies_true]; done) | (simp [State.kept_mk, State.kept_fold, kept_ite, kept_ite_fst, TimSt.setPin_incr, TimSt.setKey_incr, TimSt.setPort_incr, TimSt.publish_incr, State.encClose_kept, State.setConf_kept, State.talkerEvent_kept, kept_foldl]; done))
theorem State.talkGone_kept (s : State) (n : Nat) : (State.talkGone s n).kept = s.kept := by
  unfold State.talkGone; try dsimp only
  (repeat' split) <;> (first | done | (simp only [State.kept_mk, State.kept_fold, kept_ite, kept_ite_fst, TimSt.setPin_incr, TimSt.setKey_incr, TimSt.setPort_incr, TimSt.publish_incr, State.decClose_kept, State.setConf_kept, kept_foldl, ite_self, implies_true]; done) | (simp [State.kept_mk, State.kept_fold, kept_ite, kept_ite_fst, TimSt.setPin_incr, TimSt.setKey_incr, TimSt.setPort_incr, TimSt.publish_incr, State.decClose_kept, State.setConf_kept, kept_foldl]; done))
theorem State.talkFill_kept (s : State) (n : Nat) (x0 : Nat) : (State.talkFill s n x0).kept = s.kept := by
  induction x0 generalizing s n with
  | zero => unfold State.talkFill; (repeat' split) <;> simp [State.kept_mk, State.kept_fold, kept_ite, kept_ite_fst, TimSt.setPin_incr, TimSt.setKey_incr, TimSt.setPort_incr, TimSt.publish_incr, State.talkJoin_kept]
  | succ n ih =>
    unfold State.talkFill; try dsimp only
    (repeat' split) <;> simp [State.kept_mk, State.kept_fold, kept_ite, kept_ite_fst, TimSt.setPin_incr, TimSt.setKey_incr, TimSt.setPort_incr, TimSt.publish_incr, State.talkJoin_kept, ih]
theorem State.talkSwap_kept (s : State) (n : Nat) (waiting : List Nat) (x0 : Nat) : (State.talkSwap s n waiting x0).kept = s.kept := by
  induction x0 generalizing s n waiting with
  | zero => unfold State.talkSwap; (repeat' split) <;> simp [State.kept_mk, State.kept_fold, kept_ite, kept_ite_fst, TimSt.setPin_incr, TimSt.setKey_incr, TimSt.setPort_incr, TimSt.publish_incr, State.talkLeave_kept]
  | succ n ih =>
    unfold State.talkSwap; try dsimp only
    (repeat' split) <;> simp [State.kept_mk, State.kept_fold, kept_ite, kept_ite_fst, TimSt.setPin_incr, TimSt.setKey_incr, TimSt.setPort_incr, TimSt.publish_incr, State.talkLeave_kept, ih]
theorem State.talkQuiet_kept (s : State) (n : Nat) : (State.talkQuiet s n).kept = s.kept := by
  unfold State.talkQuiet; try dsimp only
  (repeat' split) <;> (first | done | (simp only [State.kept_mk, State.kept_fold, kept_ite, kept_ite_fst, TimSt.setPin_incr, TimSt.setKey_incr, TimSt.setPort_incr, TimSt.publish_incr, State.setConf_kept, State.talkLeave_kept, kept_foldl, ite_self, implies_true]; done) | (simp [State.kept_mk, State.kept_fold, kept_ite, kept_ite_fst, TimSt.setPin_incr, TimSt.setKey_incr, TimSt.setPort_incr, TimSt.publish_incr, State.setConf_kept, State.talkLeave_kept, kept_foldl]; done))
theorem State.confEnd_kept (s : State) (n : Nat) : (State.confEnd s n).kept = s.kept := by
  unfold State.confEnd; try dsimp only
  (repeat' split) <;> (first | done | (simp only [State.kept_mk, State.kept_fold, kept_ite, kept_ite_fst, TimSt.setPin_incr, TimSt.setKey_incr, TimSt.setPort_incr, TimSt.publish_incr, State.decClose_kept, State.encClose_kept, State.nodeSet_kept, kept_foldl, ite_self, implies_true]; done) | (simp [State.kept_mk, State.kept_fold, kept_ite, kept_ite_fst, TimSt.setPin_incr, TimSt.setKey_incr, TimSt.setPort_incr, TimSt.publish_incr, State.decClose_kept, State.encClose_kept, State.nodeSet_kept, kept_foldl]; done))
theorem execAudConf_kept (e : CmdEnv) (body : List Byte) (s : State) : ∃ t, execAudConf e body s = .next t ∧ t.kept = s.kept := by
  unfold execAudConf; refine ⟨_, rfl, ?_⟩; try dsimp only
  (repeat' split) <;> (first | done | (simp only [State.kept_mk, State.kept_fold, kept_ite, kept_ite_fst, TimSt.setPin_incr, TimSt.setKey_incr, TimSt.setPort_incr, TimSt.publish_incr, State.confEnd_kept, State.dblCheck_kept, State.done_kept, State.nodeSet_kept, State.setConf_kept, kept_foldl, ite_self, implies_true]; done) | (simp [State.kept_mk, State.kept_fold, kept_ite, kept_ite_fst, TimSt.setPin_incr, TimSt.setKey_incr, TimSt.setPort_incr, TimSt.publish_incr, State.confEnd_kept, State.dblCheck_kept, State.done_kept, State.nodeSet_kept, State.setConf_kept, kept_foldl]; done))
theorem execAudLegProfile_kept (e : CmdEnv) (body : List Byte) (s : State) : ∃ t, execAudLegProfile e body s = .next t ∧ t.kept = s.kept := by
  unfold execAudLegProfile; refine ⟨_, rfl, ?_⟩; try dsimp only
  (repeat' split) <;> (first | done | (simp only [State.kept_mk, State.kept_fold, kept_ite, kept_ite_fst, TimSt.setPin_incr, TimSt.setKey_incr, TimSt.setPort_incr, TimSt.publish_incr, State.done_kept, ite_self, implies_true]; done) | (simp [State.kept_mk, State.kept_fold, kept_ite, kept_ite_fst, TimSt.setPin_incr, TimSt.setKey_incr, TimSt.setPort_incr, TimSt.publish_incr, State.done_kept]; done))
theorem State.conceal_kept (s : State) (c smp : Nat) : (State.conceal s c smp).kept = s.kept := by
  unfold State.conceal; try dsimp only
  (repeat' split) <;> (first | done | (simp only [State.kept_mk, State.kept_fold, kept_ite, kept_ite_fst, TimSt.setPin_incr, TimSt.setKey_incr, TimSt.setPort_incr, TimSt.publish_incr, ite_self, implies_true]; done) | (simp [State.kept_mk, State.kept_fold, kept_ite, kept_ite_fst, TimSt.setPin_incr, TimSt.setKey_incr, TimSt.setPort_incr, TimSt.publish_incr]; done))
theorem State.concealAll_kept (s : State) (p : Nat) : (State.concealAll s p).kept = s.kept := by
  simp only [State.concealAll, State.kept_mk, State.kept_fold, kept_ite, kept_ite_fst, TimSt.setPin_incr, TimSt.setKey_incr, TimSt.setPort_incr, TimSt.publish_incr, State.conceal_kept, kept_foldl, ite_self, implies_true]
theorem State.sourceFaults_kept (s : State) (p : Nat) : (State.sourceFaults s p).kept = s.kept := by
  simp only [State.sourceFaults, State.kept_mk, State.kept_fold, kept_ite, kept_ite_fst, TimSt.setPin_incr, TimSt.setKey_incr, TimSt.setPort_incr, TimSt.publish_incr, kept_foldl, ite_self, implies_true]
theorem State.sinkSample_kept (s : State) (k p smp : Nat) (t knee : Nat) : (State.sinkSample s k p smp t knee).kept = s.kept := by
  simp only [State.sinkSample, State.kept_mk, State.kept_fold, kept_ite, kept_ite_fst, TimSt.setPin_incr, TimSt.setKey_incr, TimSt.setPort_incr, TimSt.publish_incr, ite_self, implies_true]
theorem State.autoGoal_kept (s : State) (k : Nat) : (State.autoGoal s k).kept = s.kept := by
  unfold State.autoGoal; try dsimp only
  (repeat' split) <;> (first | done | (simp only [State.kept_mk, State.kept_fold, kept_ite, kept_ite_fst, TimSt.setPin_incr, TimSt.setKey_incr, TimSt.setPort_incr, TimSt.publish_incr, ite_self, implies_true]; done) | (simp [State.kept_mk, State.kept_fold, kept_ite, kept_ite_fst, TimSt.setPin_incr, TimSt.setKey_incr, TimSt.setPort_incr, TimSt.publish_incr]; done))
theorem State.sourceRead_kept (s : State) (p j : Nat) : (State.sourceRead s p j).kept = s.kept := by
  simp only [State.sourceRead, State.kept_mk, State.kept_fold, kept_ite, kept_ite_fst, TimSt.setPin_incr, TimSt.setKey_incr, TimSt.setPort_incr, TimSt.publish_incr, kept_foldl, ite_self, implies_true]
theorem State.surveyBlocks_kept (s : State) (p : Nat) : (State.surveyBlocks s p).kept = s.kept := by
  simp only [State.surveyBlocks, State.kept_mk, State.kept_fold, kept_ite, kept_ite_fst, TimSt.setPin_incr, TimSt.setKey_incr, TimSt.setPort_incr, TimSt.publish_incr, kept_foldl, ite_self, implies_true]
theorem State.decodedLevels_kept (s : State) : (State.decodedLevels s).kept = s.kept := by
  simp only [State.decodedLevels, State.kept_mk, State.kept_fold, kept_ite, kept_ite_fst, TimSt.setPin_incr, TimSt.setKey_incr, TimSt.setPort_incr, TimSt.publish_incr, kept_foldl, ite_self, implies_true]
theorem State.anchorShift_kept (s : State) (c : Nat) : (State.anchorShift s c).kept = s.kept := by
  unfold State.anchorShift; try dsimp only
  (repeat' split) <;> (first | done | (simp only [State.kept_mk, State.kept_fold, kept_ite, kept_ite_fst, TimSt.setPin_incr, TimSt.setKey_incr, TimSt.setPort_incr, TimSt.publish_incr, ite_self, implies_true]; done) | (simp [State.kept_mk, State.kept_fold, kept_ite, kept_ite_fst, TimSt.setPin_incr, TimSt.setKey_incr, TimSt.setPort_incr, TimSt.publish_incr]; done))
theorem State.audCloses_kept (s : State) : (State.audCloses s).kept = s.kept := by
  simp only [State.audCloses, State.kept_mk, State.kept_fold, kept_ite, kept_ite_fst, TimSt.setPin_incr, TimSt.setKey_incr, TimSt.setPort_incr, TimSt.publish_incr, State.decClose_kept, State.encClose_kept, kept_foldl, ite_self, implies_true]
theorem State.audSets_kept (s : State) : (State.audSets s).kept = s.kept := by
  simp only [State.audSets, State.kept_mk, State.kept_fold, kept_ite, kept_ite_fst, TimSt.setPin_incr, TimSt.setKey_incr, TimSt.setPort_incr, TimSt.publish_incr, State.nodeSet_kept, kept_foldl, ite_self, implies_true]
theorem State.audGone_kept (s : State) : (State.audGone s).kept = s.kept := by
  simp only [State.audGone, State.kept_mk, State.kept_fold, kept_ite, kept_ite_fst, TimSt.setPin_incr, TimSt.setKey_incr, TimSt.setPort_incr, TimSt.publish_incr, State.confEnd_kept, kept_foldl, ite_self, implies_true]
theorem State.setCore_kept (s : State) (n : Nat) (c : HngCore) : (State.setCore s n c).kept = s.kept := by
  simp only [State.setCore, State.kept_mk, State.kept_fold, kept_ite, kept_ite_fst, TimSt.setPin_incr, TimSt.setKey_incr, TimSt.setPort_incr, TimSt.publish_incr, ite_self, implies_true]
theorem State.hngEnter_kept (s : State) (n st : Nat) : (State.hngEnter s n st).kept = s.kept := by
  simp only [State.hngEnter, State.kept_mk, State.kept_fold, kept_ite, kept_ite_fst, TimSt.setPin_incr, TimSt.setKey_incr, TimSt.setPort_incr, TimSt.publish_incr, State.setCore_kept, ite_self, implies_true]
theorem State.hngStop_kept (s : State) (n st : Nat) : (State.hngStop s n st).kept = s.kept := by
  simp only [State.hngStop, State.kept_mk, State.kept_fold, kept_ite, kept_ite_fst, TimSt.setPin_incr, TimSt.setKey_incr, TimSt.setPort_incr, TimSt.publish_incr, State.dwellCheck_kept, State.hngEnter_kept, ite_self, implies_true]
theorem State.hngFault_kept (s : State) (n cause : Nat) : (State.hngFault s n cause).kept = s.kept := by
  simp only [State.hngFault, State.kept_mk, State.kept_fold, kept_ite, kept_ite_fst, TimSt.setPin_incr, TimSt.setKey_incr, TimSt.setPort_incr, TimSt.publish_incr, State.hngStop_kept, ite_self, implies_true]
theorem State.mbDrop_kept (s : State) (n : Nat) : (State.mbDrop s n).kept = s.kept := by
  simp only [State.mbDrop, State.kept_mk, State.kept_fold, kept_ite, kept_ite_fst, TimSt.setPin_incr, TimSt.setKey_incr, TimSt.setPort_incr, TimSt.publish_incr, ite_self, implies_true]
theorem State.hngStart_kept (s : State) (n : Nat) : (State.hngStart s n).kept = s.kept := by
  simp only [State.hngStart, State.kept_mk, State.kept_fold, kept_ite, kept_ite_fst, TimSt.setPin_incr, TimSt.setKey_incr, TimSt.setPort_incr, TimSt.publish_incr, State.hngEnter_kept, State.setCore_kept, ite_self, implies_true]
theorem State.hngSashRuns_kept (s : State) (sash : Nat) : (State.hngSashRuns s sash).kept = s.kept := by
  simp only [State.hngSashRuns, State.kept_mk, State.kept_fold, kept_ite, kept_ite_fst, TimSt.setPin_incr, TimSt.setKey_incr, TimSt.setPort_incr, TimSt.publish_incr, State.hngStart_kept, kept_foldl, ite_self, implies_true]
theorem State.mbReset_kept (s : State) (n : Nat) (one : Bool) : (State.mbReset s n one).kept = s.kept := by
  simp only [State.mbReset, State.kept_mk, State.kept_fold, kept_ite, kept_ite_fst, TimSt.setPin_incr, TimSt.setKey_incr, TimSt.setPort_incr, TimSt.publish_incr, State.setCore_kept, kept_foldl, ite_self, implies_true]
theorem State.hngWake_kept (s : State) (n : Nat) (w : HngWait → Bool) : (State.hngWake s n w).kept = s.kept := by
  unfold State.hngWake; try dsimp only
  (repeat' split) <;> (first | done | (simp only [State.kept_mk, State.kept_fold, kept_ite, kept_ite_fst, TimSt.setPin_incr, TimSt.setKey_incr, TimSt.setPort_incr, TimSt.publish_incr, State.hngEnter_kept, State.setCore_kept, ite_self, implies_true]; done) | (simp [State.kept_mk, State.kept_fold, kept_ite, kept_ite_fst, TimSt.setPin_incr, TimSt.setKey_incr, TimSt.setPort_incr, TimSt.publish_incr, State.hngEnter_kept, State.setCore_kept]; done))
theorem execMailboxDelivery_kept (core : Nat) (s : State) : ∃ t, execMailboxDelivery core s = .next t ∧ t.kept = s.kept := by
  unfold execMailboxDelivery; refine ⟨_, rfl, ?_⟩; try dsimp only
  (repeat' split) <;> (first | done | (simp only [State.kept_mk, State.kept_fold, kept_ite, kept_ite_fst, TimSt.setPin_incr, TimSt.setKey_incr, TimSt.setPort_incr, TimSt.publish_incr, State.hngWake_kept, State.mbDrop_kept, State.setCore_kept, ite_self, implies_true]; done) | (simp [State.kept_mk, State.kept_fold, kept_ite, kept_ite_fst, TimSt.setPin_incr, TimSt.setKey_incr, TimSt.setPort_incr, TimSt.publish_incr, State.hngWake_kept, State.mbDrop_kept, State.setCore_kept]; done))
theorem State.mbDrain_kept (s : State) (n : Nat) (slot at_ : Nat) : (State.mbDrain s n slot at_).kept = s.kept := by
  unfold State.mbDrain; try dsimp only
  (repeat' split) <;> (first | done | (simp only [State.kept_mk, State.kept_fold, kept_ite, kept_ite_fst, TimSt.setPin_incr, TimSt.setKey_incr, TimSt.setPort_incr, TimSt.publish_incr, State.mbDrop_kept, ite_self, implies_true]; done) | (simp [State.kept_mk, State.kept_fold, kept_ite, kept_ite_fst, TimSt.setPin_incr, TimSt.setKey_incr, TimSt.setPort_incr, TimSt.publish_incr, State.mbDrop_kept]; done))
theorem execMailboxDrain_kept (core : Nat) (s : State) : ∃ t, execMailboxDrain core s = .next t ∧ t.kept = s.kept := by
  unfold execMailboxDrain; refine ⟨_, rfl, ?_⟩; try dsimp only
  (repeat' split) <;> (first | done | (simp only [State.kept_mk, State.kept_fold, kept_ite, kept_ite_fst, TimSt.setPin_incr, TimSt.setKey_incr, TimSt.setPort_incr, TimSt.publish_incr, State.hngWake_kept, State.mbDrain_kept, State.setCore_kept, ite_self, implies_true]; done) | (simp [State.kept_mk, State.kept_fold, kept_ite, kept_ite_fst, TimSt.setPin_incr, TimSt.setKey_incr, TimSt.setPort_incr, TimSt.publish_incr, State.hngWake_kept, State.mbDrain_kept, State.setCore_kept]; done))
theorem State.dmaErr_kept (s : State) (n st : Nat) : (State.dmaErr s n st).kept = s.kept := by
  simp only [State.dmaErr, State.kept_mk, State.kept_fold, kept_ite, kept_ite_fst, TimSt.setPin_incr, TimSt.setKey_incr, TimSt.setPort_incr, TimSt.publish_incr, ite_self, implies_true]
theorem State.hngDone_kept (s : State) (n stall : Nat) (c : HngCore) (halted : Bool) : (State.hngDone s n stall c halted).kept = s.kept := by
  simp only [State.hngDone, State.kept_mk, State.kept_fold, kept_ite, kept_ite_fst, TimSt.setPin_incr, TimSt.setKey_incr, TimSt.setPort_incr, TimSt.publish_incr, State.hngEnter_kept, State.hngStop_kept, State.setCore_kept, ite_self, implies_true]
theorem State.hngBundle_kept (s : State) (n sash : Nat) : (State.hngBundle s n sash).kept = s.kept := by
  unfold State.hngBundle; try dsimp only
  (repeat' split) <;> (first | done | (simp only [State.kept_mk, State.kept_fold, kept_ite, kept_ite_fst, TimSt.setPin_incr, TimSt.setKey_incr, TimSt.setPort_incr, TimSt.publish_incr, State.hngDone_kept, State.hngEnter_kept, State.hngFault_kept, State.setCore_kept, kept_foldl, ite_self, implies_true]; done) | (simp [State.kept_mk, State.kept_fold, kept_ite, kept_ite_fst, TimSt.setPin_incr, TimSt.setKey_incr, TimSt.setPort_incr, TimSt.publish_incr, State.hngDone_kept, State.hngEnter_kept, State.hngFault_kept, State.setCore_kept, kept_foldl]; done))
theorem State.hngExecute_kept (s : State) (core sash : Nat) : (State.hngExecute s core sash).kept = s.kept := by
  simp only [State.hngExecute, State.kept_mk, State.kept_fold, kept_ite, kept_ite_fst, TimSt.setPin_incr, TimSt.setKey_incr, TimSt.setPort_incr, TimSt.publish_incr, State.hngBundle_kept, State.hngEnter_kept, ite_self, implies_true]
theorem State.hngImage_kept (s : State) (n : Nat) (l : List HngRec) : (State.hngImage s n l).kept = s.kept := by
  simp only [State.hngImage, State.kept_mk, State.kept_fold, kept_ite, kept_ite_fst, TimSt.setPin_incr, TimSt.setKey_incr, TimSt.setPort_incr, TimSt.publish_incr, State.hngStart_kept, State.setCore_kept, kept_foldl, ite_self, implies_true]
theorem State.hngCopy_kept (s : State) (n : Nat) (data : Bool) (part off loc len : Nat) : (State.hngCopy s n data part off loc len).1.kept = s.kept := by
  unfold State.hngCopy; try dsimp only
  (repeat' split) <;> (first | done | (simp only [State.kept_mk, State.kept_fold, kept_ite, kept_ite_fst, TimSt.setPin_incr, TimSt.setKey_incr, TimSt.setPort_incr, TimSt.publish_incr, State.dmaErr_kept, State.setCore_kept, ite_self, implies_true]; done) | (simp [State.kept_mk, State.kept_fold, kept_ite, kept_ite_fst, TimSt.setPin_incr, TimSt.setKey_incr, TimSt.setPort_incr, TimSt.publish_incr, State.dmaErr_kept, State.setCore_kept]; done))
theorem State.hngMoved_kept (s : State) (n : Nat) (l : List HngRec) : (State.hngMoved s n l).kept = s.kept := by
  simp only [State.hngMoved, State.kept_mk, State.kept_fold, kept_ite, kept_ite_fst, TimSt.setPin_incr, TimSt.setKey_incr, TimSt.setPort_incr, TimSt.publish_incr, State.hngCopy_kept, State.hngStart_kept, State.setCore_kept, kept_foldl, ite_self, implies_true]
theorem State.hngWarm_kept (s : State) (l : List HngRec) : (State.hngWarm s l).kept = s.kept := by
  simp only [State.hngWarm, State.kept_mk, State.kept_fold, kept_ite, kept_ite_fst, TimSt.setPin_incr, TimSt.setKey_incr, TimSt.setPort_incr, TimSt.publish_incr, State.hngEnter_kept, State.setCore_kept, kept_foldl, ite_self, implies_true]
theorem execHngLoad_kept (e : CmdEnv) (body : List Byte) (s : State) : ∃ t, execHngLoad e body s = .next t ∧ t.kept = s.kept := by
  unfold execHngLoad; refine ⟨_, rfl, ?_⟩; try dsimp only
  (repeat' split) <;> (first | done | (simp only [State.kept_mk, State.kept_fold, kept_ite, kept_ite_fst, TimSt.setPin_incr, TimSt.setKey_incr, TimSt.setPort_incr, TimSt.publish_incr, State.done_kept, State.hngCopy_kept, State.hngStart_kept, State.setCore_kept, ite_self, implies_true]; done) | (simp [State.kept_mk, State.kept_fold, kept_ite, kept_ite_fst, TimSt.setPin_incr, TimSt.setKey_incr, TimSt.setPort_incr, TimSt.publish_incr, State.done_kept, State.hngCopy_kept, State.hngStart_kept, State.setCore_kept]; done))
theorem execHngStart_kept (e : CmdEnv) (body : List Byte) (s : State) : ∃ t, execHngStart e body s = .next t ∧ t.kept = s.kept := by
  unfold execHngStart; refine ⟨_, rfl, ?_⟩; try dsimp only
  (repeat' split) <;> (first | done | (simp only [State.kept_mk, State.kept_fold, kept_ite, kept_ite_fst, TimSt.setPin_incr, TimSt.setKey_incr, TimSt.setPort_incr, TimSt.publish_incr, State.done_kept, State.hngStart_kept, ite_self, implies_true]; done) | (simp [State.kept_mk, State.kept_fold, kept_ite, kept_ite_fst, TimSt.setPin_incr, TimSt.setKey_incr, TimSt.setPort_incr, TimSt.publish_incr, State.done_kept, State.hngStart_kept]; done))
theorem State.hngHalt_kept (s : State) (n : Nat) : (State.hngHalt s n).kept = s.kept := by
  simp only [State.hngHalt, State.kept_mk, State.kept_fold, kept_ite, kept_ite_fst, TimSt.setPin_incr, TimSt.setKey_incr, TimSt.setPort_incr, TimSt.publish_incr, State.hngStop_kept, State.setCore_kept, ite_self, implies_true]
theorem execHngStats_kept (e : CmdEnv) (body : List Byte) (s : State) : ∃ t, execHngStats e body s = .next t ∧ t.kept = s.kept := by
  unfold execHngStats; refine ⟨_, rfl, ?_⟩; try dsimp only
  (repeat' split) <;> (first | done | (simp only [State.kept_mk, State.kept_fold, kept_ite, kept_ite_fst, TimSt.setPin_incr, TimSt.setKey_incr, TimSt.setPort_incr, TimSt.publish_incr, State.done_kept, ite_self, implies_true]; done) | (simp [State.kept_mk, State.kept_fold, kept_ite, kept_ite_fst, TimSt.setPin_incr, TimSt.setKey_incr, TimSt.setPort_incr, TimSt.publish_incr, State.done_kept]; done))
theorem execDblFrameStart_kept (leg : Nat) (s : State) : ∃ t, execDblFrameStart leg s = .next t ∧ t.kept = s.kept := by
  unfold execDblFrameStart; refine ⟨_, rfl, ?_⟩; try dsimp only
  (repeat' split) <;> (first | done | (simp only [State.kept_mk, State.kept_fold, kept_ite, kept_ite_fst, TimSt.setPin_incr, TimSt.setKey_incr, TimSt.setPort_incr, TimSt.publish_incr, ite_self, implies_true]; done) | (simp [State.kept_mk, State.kept_fold, kept_ite, kept_ite_fst, TimSt.setPin_incr, TimSt.setKey_incr, TimSt.setPort_incr, TimSt.publish_incr]; done))
theorem execDwellStart_kept (core recv : Nat) (s : State) : ∃ t, execDwellStart core recv s = .next t ∧ t.kept = s.kept := by
  unfold execDwellStart; refine ⟨_, rfl, ?_⟩; try dsimp only
  (repeat' split) <;> (first | done | (simp only [State.kept_mk, State.kept_fold, kept_ite, kept_ite_fst, TimSt.setPin_incr, TimSt.setKey_incr, TimSt.setPort_incr, TimSt.publish_incr, State.dblStat_kept, kept_foldl, ite_self, implies_true]; done) | (simp [State.kept_mk, State.kept_fold, kept_ite, kept_ite_fst, TimSt.setPin_incr, TimSt.setKey_incr, TimSt.setPort_incr, TimSt.publish_incr, State.dblStat_kept, kept_foldl]; done))
theorem State.setDwell_kept (s : State) (core recv : Nat) (d : DblDwell) : (State.setDwell s core recv d).kept = s.kept := by
  simp only [State.setDwell, State.kept_mk, State.kept_fold, kept_ite, kept_ite_fst, TimSt.setPin_incr, TimSt.setKey_incr, TimSt.setPort_incr, TimSt.publish_incr, ite_self, implies_true]
theorem State.recepEnd_kept (s : State) (core recv : Nat) (d : DblDwell) : (State.recepEnd s core recv d).kept = s.kept := by
  simp only [State.recepEnd, State.kept_mk, State.kept_fold, kept_ite, kept_ite_fst, TimSt.setPin_incr, TimSt.setKey_incr, TimSt.setPort_incr, TimSt.publish_incr, State.dwellsEnd_kept, State.setDwell_kept, ite_self, implies_true]
theorem execDwellEnd_kept (core recv : Nat) (s : State) : ∃ t, execDwellEnd core recv s = .next t ∧ t.kept = s.kept := by
  unfold execDwellEnd; refine ⟨_, rfl, ?_⟩; try dsimp only
  (repeat' split) <;> (first | done | (simp only [State.kept_mk, State.kept_fold, kept_ite, kept_ite_fst, TimSt.setPin_incr, TimSt.setKey_incr, TimSt.setPort_incr, TimSt.publish_incr, State.dwellsEnd_kept, State.setDwell_kept, ite_self, implies_true]; done) | (simp [State.kept_mk, State.kept_fold, kept_ite, kept_ite_fst, TimSt.setPin_incr, TimSt.setKey_incr, TimSt.setPort_incr, TimSt.publish_incr, State.dwellsEnd_kept, State.setDwell_kept]; done))
theorem State.dblErr_kept (s : State) (f : Fld) : (State.dblErr s f).kept = s.kept := by
  simp only [State.dblErr, State.kept_mk, State.kept_fold, kept_ite, kept_ite_fst, TimSt.setPin_incr, TimSt.setKey_incr, TimSt.setPort_incr, TimSt.publish_incr, ite_self, implies_true]
theorem execPreambleAcquire_kept (core recv metric : Nat) (s : State) : ∃ t, execPreambleAcquire core recv metric s = .next t ∧ t.kept = s.kept := by
  unfold execPreambleAcquire; refine ⟨_, rfl, ?_⟩; try dsimp only
  (repeat' split) <;> (first | done | (simp only [State.kept_mk, State.kept_fold, kept_ite, kept_ite_fst, TimSt.setPin_incr, TimSt.setKey_incr, TimSt.setPort_incr, TimSt.publish_incr, State.dblErr_kept, State.setDwell_kept, ite_self, implies_true]; done) | (simp [State.kept_mk, State.kept_fold, kept_ite, kept_ite_fst, TimSt.setPin_incr, TimSt.setKey_incr, TimSt.setPort_incr, TimSt.publish_incr, State.dblErr_kept, State.setDwell_kept]; done))
theorem execSyncWordSearchEnd_kept (core recv : Nat) (found : Option Nat) (s : State) : ∃ t, execSyncWordSearchEnd core recv found s = .next t ∧ t.kept = s.kept := by
  unfold execSyncWordSearchEnd; refine ⟨_, rfl, ?_⟩; try dsimp only
  (repeat' split) <;> (first | done | (simp only [State.kept_mk, State.kept_fold, kept_ite, kept_ite_fst, TimSt.setPin_incr, TimSt.setKey_incr, TimSt.setPort_incr, TimSt.publish_incr, State.dblErr_kept, State.recepEnd_kept, State.setDwell_kept, ite_self, implies_true]; done) | (simp [State.kept_mk, State.kept_fold, kept_ite, kept_ite_fst, TimSt.setPin_incr, TimSt.setKey_incr, TimSt.setPort_incr, TimSt.publish_incr, State.dblErr_kept, State.recepEnd_kept, State.setDwell_kept]; done))
theorem execHeaderDecoded_kept (core recv : Nat) (s : State) : ∃ t, execHeaderDecoded core recv s = .next t ∧ t.kept = s.kept := by
  unfold execHeaderDecoded; refine ⟨_, rfl, ?_⟩; try dsimp only
  (repeat' split) <;> (first | done | (simp only [State.kept_mk, State.kept_fold, kept_ite, kept_ite_fst, TimSt.setPin_incr, TimSt.setKey_incr, TimSt.setPort_incr, TimSt.publish_incr, State.dblErr_kept, State.recepEnd_kept, State.setDwell_kept, ite_self, implies_true]; done) | (simp [State.kept_mk, State.kept_fold, kept_ite, kept_ite_fst, TimSt.setPin_incr, TimSt.setKey_incr, TimSt.setPort_incr, TimSt.publish_incr, State.dblErr_kept, State.recepEnd_kept, State.setDwell_kept]; done))
theorem State.setEdges_kept (s : State) (edges : List (Nat × Nat × Nat)) : (State.setEdges s edges).kept = s.kept := by
  simp only [State.setEdges, State.kept_mk, State.kept_fold, kept_ite, kept_ite_fst, TimSt.setPin_incr, TimSt.setKey_incr, TimSt.setPort_incr, TimSt.publish_incr, State.audRoom_kept, ite_self, implies_true]
theorem execEdgeTtlExpiry_kept (legA legB : Nat) (s : State) : ∃ t, execEdgeTtlExpiry legA legB s = .next t ∧ t.kept = s.kept := by
  refine ⟨_, rfl, ?_⟩; simp only [State.kept_mk, State.kept_fold, kept_ite, kept_ite_fst, TimSt.setPin_incr, TimSt.setKey_incr, TimSt.setPort_incr, TimSt.publish_incr, State.setEdges_kept, ite_self, implies_true]
theorem State.detected_kept (s : State) (a b : Nat) : (State.detected s a b).kept = s.kept := by
  simp only [State.detected, State.kept_mk, State.kept_fold, kept_ite, kept_ite_fst, TimSt.setPin_incr, TimSt.setKey_incr, TimSt.setPort_incr, TimSt.publish_incr, State.setEdges_kept, ite_self, implies_true]
theorem State.dblReport_kept (s : State) (leg metric token : Nat) : (State.dblReport s leg metric token).kept = s.kept := by
  simp only [State.dblReport, State.kept_mk, State.kept_fold, kept_ite, kept_ite_fst, TimSt.setPin_incr, TimSt.setKey_incr, TimSt.setPort_incr, TimSt.publish_incr, State.detected_kept, ite_self, implies_true]
theorem execPayloadDecoded_kept (core recv : Nat) (s : State) : ∃ t, execPayloadDecoded core recv s = .next t ∧ t.kept = s.kept := by
  unfold execPayloadDecoded; refine ⟨_, rfl, ?_⟩; try dsimp only
  (repeat' split) <;> (first | done | (simp only [State.kept_mk, State.kept_fold, kept_ite, kept_ite_fst, TimSt.setPin_incr, TimSt.setKey_incr, TimSt.setPort_incr, TimSt.publish_incr, State.dblReport_kept, State.recepEnd_kept, ite_self, implies_true]; done) | (simp [State.kept_mk, State.kept_fold, kept_ite, kept_ite_fst, TimSt.setPin_incr, TimSt.setKey_incr, TimSt.setPort_incr, TimSt.publish_incr, State.dblReport_kept, State.recepEnd_kept]; done))
theorem execDblTx_kept (e : CmdEnv) (body : List Byte) (s : State) : ∃ t, execDblTx e body s = .next t ∧ t.kept = s.kept := by
  unfold execDblTx; refine ⟨_, rfl, ?_⟩; try dsimp only
  (repeat' split) <;> (first | done | (simp only [State.kept_mk, State.kept_fold, kept_ite, kept_ite_fst, TimSt.setPin_incr, TimSt.setKey_incr, TimSt.setPort_incr, TimSt.publish_incr, State.dblEnded_kept, State.dblStat_kept, State.done_kept, ite_self, implies_true]; done) | (simp [State.kept_mk, State.kept_fold, kept_ite, kept_ite_fst, TimSt.setPin_incr, TimSt.setKey_incr, TimSt.setPort_incr, TimSt.publish_incr, State.dblEnded_kept, State.dblStat_kept, State.done_kept]; done))
theorem execDblSurvey_kept (e : CmdEnv) (body : List Byte) (s : State) : ∃ t, execDblSurvey e body s = .next t ∧ t.kept = s.kept := by
  unfold execDblSurvey; refine ⟨_, rfl, ?_⟩; try dsimp only
  (repeat' split) <;> (first | done | (simp only [State.kept_mk, State.kept_fold, kept_ite, kept_ite_fst, TimSt.setPin_incr, TimSt.setKey_incr, TimSt.setPort_incr, TimSt.publish_incr, State.done_kept, ite_self, implies_true]; done) | (simp [State.kept_mk, State.kept_fold, kept_ite, kept_ite_fst, TimSt.setPin_incr, TimSt.setKey_incr, TimSt.setPort_incr, TimSt.publish_incr, State.done_kept]; done))
theorem execDblGroup_kept (e : CmdEnv) (body : List Byte) (s : State) : ∃ t, execDblGroup e body s = .next t ∧ t.kept = s.kept := by
  unfold execDblGroup; refine ⟨_, rfl, ?_⟩; try dsimp only
  (repeat' split) <;> (first | done | (simp only [State.kept_mk, State.kept_fold, kept_ite, kept_ite_fst, TimSt.setPin_incr, TimSt.setKey_incr, TimSt.setPort_incr, TimSt.publish_incr, State.done_kept, ite_self, implies_true]; done) | (simp [State.kept_mk, State.kept_fold, kept_ite, kept_ite_fst, TimSt.setPin_incr, TimSt.setKey_incr, TimSt.setPort_incr, TimSt.publish_incr, State.done_kept]; done))
theorem State.dblBoundary_kept (s : State) : (State.dblBoundary s).kept = s.kept := by
  simp only [State.dblBoundary, State.kept_mk, State.kept_fold, kept_ite, kept_ite_fst, TimSt.setPin_incr, TimSt.setKey_incr, TimSt.setPort_incr, TimSt.publish_incr, State.dblCheck_kept, State.dblEnded_kept, State.dwellCheck_kept, ite_self, implies_true]

end Sys2Proof.Machine
end

