-- ==== Sys2Proof/Laws/KeptPaths.lean ====
section
/-! SUPPORT. Frame lemmas of the packet paths, fabric, links and snapshots: each definition leaves `State.kept` alone. -/

namespace Sys2Proof.Machine

set_option linter.all false

theorem State.discard_kept (s : State) (i : Island) (n : Nat) : (State.discard s i n).kept = s.kept := by
  simp only [State.discard, State.kept_mk, State.kept_fold, kept_ite, kept_ite_fst, TimSt.setPin_incr, TimSt.setKey_incr, TimSt.setPort_incr, TimSt.publish_incr, ite_self, implies_true]
theorem State.offer_kept (s : State) (i : Island) (bytes : Nat) : (State.offer s i bytes).kept = s.kept := by
  simp only [State.offer, State.kept_mk, State.kept_fold, kept_ite, kept_ite_fst, TimSt.setPin_incr, TimSt.setKey_incr, TimSt.setPort_incr, TimSt.publish_incr, ite_self, implies_true]
theorem State.syncDrain_kept (s : State) : (State.syncDrain s).kept = s.kept := by
  simp only [State.syncDrain, State.kept_mk, State.kept_fold, kept_ite, kept_ite_fst, TimSt.setPin_incr, TimSt.setKey_incr, TimSt.setPort_incr, TimSt.publish_incr, ite_self, implies_true]
theorem State.islandLost_kept (s : State) (i : Island) : (State.islandLost s i).kept = s.kept := by
  simp only [State.islandLost, State.kept_mk, State.kept_fold, kept_ite, kept_ite_fst, TimSt.setPin_incr, TimSt.setKey_incr, TimSt.setPort_incr, TimSt.publish_incr, ite_self, implies_true]
theorem State.islandBack_kept (s : State) (i : Island) : (State.islandBack s i).kept = s.kept := by
  simp only [State.islandBack, State.kept_mk, State.kept_fold, kept_ite, kept_ite_fst, TimSt.setPin_incr, TimSt.setKey_incr, TimSt.setPort_incr, TimSt.publish_incr, ite_self, implies_true]
theorem execIslandDown_kept (i : Island) (s : State) : ∃ t, execIslandDown i s = .next t ∧ t.kept = s.kept := by
  refine ⟨_, rfl, ?_⟩; simp only [State.kept_mk, State.kept_fold, kept_ite, kept_ite_fst, TimSt.setPin_incr, TimSt.setKey_incr, TimSt.setPort_incr, TimSt.publish_incr, State.islandLost_kept, ite_self, implies_true]
theorem State.emergRaise_kept (s : State) : (State.emergRaise s).kept = s.kept := by
  simp only [State.emergRaise, State.kept_mk, State.kept_fold, kept_ite, kept_ite_fst, TimSt.setPin_incr, TimSt.setKey_incr, TimSt.setPort_incr, TimSt.publish_incr, ite_self, implies_true]
theorem State.emergClear_kept (s : State) : (State.emergClear s).kept = s.kept := by
  simp only [State.emergClear, State.kept_mk, State.kept_fold, kept_ite, kept_ite_fst, TimSt.setPin_incr, TimSt.setKey_incr, TimSt.setPort_incr, TimSt.publish_incr, ite_self, implies_true]
theorem State.emergTest_kept (s : State) : (State.emergTest s).kept = s.kept := by
  simp only [State.emergTest, State.kept_mk, State.kept_fold, kept_ite, kept_ite_fst, TimSt.setPin_incr, TimSt.setKey_incr, TimSt.setPort_incr, TimSt.publish_incr, State.emergClear_kept, State.emergRaise_kept, ite_self, implies_true]
theorem State.paceWindow_kept (s : State) (counts : List Nat) : (State.paceWindow s counts).kept = s.kept := by
  simp only [State.paceWindow, State.kept_mk, State.kept_fold, kept_ite, kept_ite_fst, TimSt.setPin_incr, TimSt.setKey_incr, TimSt.setPort_incr, TimSt.publish_incr, ite_self, implies_true]
theorem execPaceWindowEnd_kept (counts : List Nat) (s : State) : ∃ t, execPaceWindowEnd counts s = .next t ∧ t.kept = s.kept := by
  refine ⟨_, rfl, ?_⟩; simp only [State.kept_mk, State.kept_fold, kept_ite, kept_ite_fst, TimSt.setPin_incr, TimSt.setKey_incr, TimSt.setPort_incr, TimSt.publish_incr, State.emergTest_kept, State.paceWindow_kept, ite_self, implies_true]
theorem State.supplyEval_kept (s : State) (ma : Nat) : (State.supplyEval s ma).kept = s.kept := by
  simp only [State.supplyEval, State.kept_mk, State.kept_fold, kept_ite, kept_ite_fst, TimSt.setPin_incr, TimSt.setKey_incr, TimSt.setPort_incr, TimSt.publish_incr, ite_self, implies_true]
theorem State.present_kept (s : State) (kind hw : Nat) (reqs : List ArbReq) : (State.present s kind hw reqs).kept = s.kept := by
  simp only [State.present, State.kept_mk, State.kept_fold, kept_ite, kept_ite_fst, TimSt.setPin_incr, TimSt.setKey_incr, TimSt.setPort_incr, TimSt.publish_incr, ite_self, implies_true]
theorem State.arbiterGrant_kept (s : State) (kind hw : Nat) : (State.arbiterGrant s kind hw).kept = s.kept := by
  unfold State.arbiterGrant; try dsimp only
  (repeat' split) <;> (first | done | (simp only [State.kept_mk, State.kept_fold, kept_ite, kept_ite_fst, TimSt.setPin_incr, TimSt.setKey_incr, TimSt.setPort_incr, TimSt.publish_incr, ite_self, implies_true]; done) | (simp [State.kept_mk, State.kept_fold, kept_ite, kept_ite_fst, TimSt.setPin_incr, TimSt.setKey_incr, TimSt.setPort_incr, TimSt.publish_incr]; done))
theorem execArbiterGrant_kept (kind index : Nat) (reqs : List ArbReq) (s : State) : ∃ t, execArbiterGrant kind index reqs s = .next t ∧ t.kept = s.kept := by
  refine ⟨_, rfl, ?_⟩; simp only [State.kept_mk, State.kept_fold, kept_ite, kept_ite_fst, TimSt.setPin_incr, TimSt.setKey_incr, TimSt.setPort_incr, TimSt.publish_incr, State.arbiterGrant_kept, State.present_kept, ite_self, implies_true]
theorem State.unstall_kept (s : State) : (State.unstall s).kept = s.kept := by
  simp only [State.unstall, State.kept_mk, State.kept_fold, kept_ite, kept_ite_fst, TimSt.setPin_incr, TimSt.setKey_incr, TimSt.setPort_incr, TimSt.publish_incr, kept_foldl, ite_self, implies_true]
theorem State.markSpares_kept (s : State) : (State.markSpares s).kept = s.kept := by
  simp only [State.markSpares, State.kept_mk, State.kept_fold, kept_ite, kept_ite_fst, TimSt.setPin_incr, TimSt.setKey_incr, TimSt.setPort_incr, TimSt.publish_incr, kept_foldl, ite_self, implies_true]
theorem State.takeSpare_kept (s : State) (ty i k : Nat) : (State.takeSpare s ty i k).kept = s.kept := by
  simp only [State.takeSpare, State.kept_mk, State.kept_fold, kept_ite, kept_ite_fst, TimSt.setPin_incr, TimSt.setKey_incr, TimSt.setPort_incr, TimSt.publish_incr, ite_self, implies_true]
theorem State.otpSpare_kept (s : State) (u : Nat) : (State.otpSpare s u).kept = s.kept := by
  unfold State.otpSpare; try dsimp only
  (repeat' split) <;> (first | done | (simp only [State.kept_mk, State.kept_fold, kept_ite, kept_ite_fst, TimSt.setPin_incr, TimSt.setKey_incr, TimSt.setPort_incr, TimSt.publish_incr, State.takeSpare_kept, ite_self, implies_true]; done) | (simp [State.kept_mk, State.kept_fold, kept_ite, kept_ite_fst, TimSt.setPin_incr, TimSt.setKey_incr, TimSt.setPort_incr, TimSt.publish_incr, State.takeSpare_kept]; done))
theorem State.startBuild_kept (s0 : State) (ids : List Nat) : (State.startBuild s0 ids).kept = s0.kept := by
  simp only [State.startBuild, State.kept_mk, State.kept_fold, kept_ite, kept_ite_fst, TimSt.setPin_incr, TimSt.setKey_incr, TimSt.setPort_incr, TimSt.publish_incr, State.markSpares_kept, State.otpSpare_kept, kept_foldl, ite_self, implies_true]
theorem State.setLink_kept (s : State) (n : Nat) (x : JlLink) : (State.setLink s n x).kept = s.kept := by
  simp only [State.setLink, State.kept_mk, State.kept_fold, kept_ite, kept_ite_fst, TimSt.setPin_incr, TimSt.setKey_incr, TimSt.setPort_incr, TimSt.publish_incr, ite_self, implies_true]
theorem State.setLane_kept (s : State) (n : Nat) (x : LaneSt) : (State.setLane s n x).kept = s.kept := by
  simp only [State.setLane, State.kept_mk, State.kept_fold, kept_ite, kept_ite_fst, TimSt.setPin_incr, TimSt.setKey_incr, TimSt.setPort_incr, TimSt.publish_incr, ite_self, implies_true]
theorem State.flitOut_kept (s : State) (n : Nat) (h : FlitHead) (data : List Byte) : (State.flitOut s n h data).kept = s.kept := by
  unfold State.flitOut; try dsimp only
  (repeat' split) <;> (first | done | (simp only [State.kept_mk, State.kept_fold, kept_ite, kept_ite_fst, TimSt.setPin_incr, TimSt.setKey_incr, TimSt.setPort_incr, TimSt.publish_incr, State.discard_kept, State.sysSend_kept, ite_self, implies_true]; done) | (simp [State.kept_mk, State.kept_fold, kept_ite, kept_ite_fst, TimSt.setPin_incr, TimSt.setKey_incr, TimSt.setPort_incr, TimSt.publish_incr, State.discard_kept, State.sysSend_kept]; done))
theorem State.plainOut_kept (s : State) (n kind flags cred : Nat) (payload : List Byte) : (State.plainOut s n kind flags cred payload).kept = s.kept := by
  simp only [State.plainOut, State.kept_mk, State.kept_fold, kept_ite, kept_ite_fst, TimSt.setPin_incr, TimSt.setKey_incr, TimSt.setPort_incr, TimSt.publish_incr, State.flitOut_kept, ite_self, implies_true]
theorem State.jlDrop_kept (s : State) (n k : Nat) (event : Bool) : (State.jlDrop s n k event).kept = s.kept := by
  simp only [State.jlDrop, State.kept_mk, State.kept_fold, kept_ite, kept_ite_fst, TimSt.setPin_incr, TimSt.setKey_incr, TimSt.setPort_incr, TimSt.publish_incr, ite_self, implies_true]
theorem State.rewait_kept (s : State) (n : Nat) (fs : List JlFlit) : (State.rewait s n fs).kept = s.kept := by
  unfold State.rewait; try dsimp only
  (repeat' split) <;> (first | done | (simp only [State.kept_mk, State.kept_fold, kept_ite, kept_ite_fst, TimSt.setPin_incr, TimSt.setKey_incr, TimSt.setPort_incr, TimSt.publish_incr, State.jlDrop_kept, State.setLink_kept, kept_foldl, ite_self, implies_true]; done) | (simp [State.kept_mk, State.kept_fold, kept_ite, kept_ite_fst, TimSt.setPin_incr, TimSt.setKey_incr, TimSt.setPort_incr, TimSt.publish_incr, State.jlDrop_kept, State.setLink_kept, kept_foldl]; done) | (refine (kept_foldl _ (fun a b => ?_) _ _).trans ?_ <;> (try dsimp only) <;> (repeat' split) <;> (first | (simp only [State.kept_mk, State.kept_fold, kept_ite, kept_ite_fst, TimSt.setPin_incr, TimSt.setKey_incr, TimSt.setPort_incr, TimSt.publish_incr, State.jlDrop_kept, State.setLink_kept, kept_foldl, ite_self, implies_true]; done) | (simp [State.kept_mk, State.kept_fold, kept_ite, kept_ite_fst, TimSt.setPin_incr, TimSt.setKey_incr, TimSt.setPort_incr, TimSt.publish_incr, State.jlDrop_kept, State.setLink_kept, kept_foldl]; done))))
theorem State.jlEnter_kept (s : State) (n st : Nat) : (State.jlEnter s n st).kept = s.kept := by
  unfold State.jlEnter; try dsimp only
  (repeat' split) <;> (first | done | (simp only [State.kept_mk, State.kept_fold, kept_ite, kept_ite_fst, TimSt.setPin_incr, TimSt.setKey_incr, TimSt.setPort_incr, TimSt.publish_incr, State.rewait_kept, State.setLink_kept, ite_self, implies_true]; done) | (simp [State.kept_mk, State.kept_fold, kept_ite, kept_ite_fst, TimSt.setPin_incr, TimSt.setKey_incr, TimSt.setPort_incr, TimSt.publish_incr, State.rewait_kept, State.setLink_kept]; done))
theorem State.ethEnter_kept (s : State) (p st : Nat) : (State.ethEnter s p st).kept = s.kept := by
  simp only [State.ethEnter, State.kept_mk, State.kept_fold, kept_ite, kept_ite_fst, TimSt.setPin_incr, TimSt.setKey_incr, TimSt.setPort_incr, TimSt.publish_incr, ite_self, implies_true]
theorem State.linksFreeze_kept (s : State) : (State.linksFreeze s).kept = s.kept := by
  simp only [State.linksFreeze, State.kept_mk, State.kept_fold, kept_ite, kept_ite_fst, TimSt.setPin_incr, TimSt.setKey_incr, TimSt.setPort_incr, TimSt.publish_incr, State.plainOut_kept, kept_foldl, ite_self, implies_true]
theorem State.linksResume_kept (s : State) : (State.linksResume s).kept = s.kept := by
  simp only [State.linksResume, State.kept_mk, State.kept_fold, kept_ite, kept_ite_fst, TimSt.setPin_incr, TimSt.setKey_incr, TimSt.setPort_incr, TimSt.publish_incr, kept_foldl, ite_self, implies_true]
theorem State.laneRetired_kept (s : State) (n : Nat) : (State.laneRetired s n).kept = s.kept := by
  unfold State.laneRetired; try dsimp only
  (repeat' split) <;> (first | done | (simp only [State.kept_mk, State.kept_fold, kept_ite, kept_ite_fst, TimSt.setPin_incr, TimSt.setKey_incr, TimSt.setPort_incr, TimSt.publish_incr, State.ethEnter_kept, State.plainOut_kept, ite_self, implies_true]; done) | (simp [State.kept_mk, State.kept_fold, kept_ite, kept_ite_fst, TimSt.setPin_incr, TimSt.setKey_incr, TimSt.setPort_incr, TimSt.publish_incr, State.ethEnter_kept, State.plainOut_kept]; done))
theorem State.laneStart_kept (s : State) (full : Bool) (n : Nat) : (State.laneStart s full n).kept = s.kept := by
  unfold State.laneStart; try dsimp only
  (repeat' split) <;> (first | done | (simp only [State.kept_mk, State.kept_fold, kept_ite, kept_ite_fst, TimSt.setPin_incr, TimSt.setKey_incr, TimSt.setPort_incr, TimSt.publish_incr, State.setLane_kept, ite_self, implies_true]; done) | (simp [State.kept_mk, State.kept_fold, kept_ite, kept_ite_fst, TimSt.setPin_incr, TimSt.setKey_incr, TimSt.setPort_incr, TimSt.publish_incr, State.setLane_kept]; done))
theorem State.portStart_kept (s : State) (p : PortRec) : (State.portStart s p).kept = s.kept := by
  unfold State.portStart; try dsimp only
  (repeat' split) <;> (first | done | (simp only [State.kept_mk, State.kept_fold, kept_ite, kept_ite_fst, TimSt.setPin_incr, TimSt.setKey_incr, TimSt.setPort_incr, TimSt.publish_incr, State.setLink_kept, ite_self, implies_true]; done) | (simp [State.kept_mk, State.kept_fold, kept_ite, kept_ite_fst, TimSt.setPin_incr, TimSt.setKey_incr, TimSt.setPort_incr, TimSt.publish_incr, State.setLink_kept]; done))
theorem State.planStart_kept (s : State) (rs : List PortRec) (full : Bool) : (State.planStart s rs full).kept = s.kept := by
  simp only [State.planStart, State.kept_mk, State.kept_fold, kept_ite, kept_ite_fst, TimSt.setPin_incr, TimSt.setKey_incr, TimSt.setPort_incr, TimSt.publish_incr, State.laneStart_kept, State.portStart_kept, kept_foldl, ite_self, implies_true]
theorem execPcieLinkDown_kept (s : State) : ∃ t, execPcieLinkDown s = .next t ∧ t.kept = s.kept := by
  refine ⟨_, rfl, ?_⟩; simp only [State.kept_mk, State.kept_fold, kept_ite, kept_ite_fst, TimSt.setPin_incr, TimSt.setKey_incr, TimSt.setPort_incr, TimSt.publish_incr, State.islandLost_kept, kept_foldl, ite_self, implies_true]
theorem execPcieLinkUp_kept (gen width mps vfs : Nat) (s : State) : ∃ t, execPcieLinkUp gen width mps vfs s = .next t ∧ t.kept = s.kept := by
  refine ⟨_, rfl, ?_⟩; simp only [State.kept_mk, State.kept_fold, kept_ite, kept_ite_fst, TimSt.setPin_incr, TimSt.setKey_incr, TimSt.setPort_incr, TimSt.publish_incr, State.islandBack_kept, ite_self, implies_true]
theorem State.cellsLost_kept (s : State) (cells : List Nat) : (State.cellsLost s cells).kept = s.kept := by
  simp only [State.cellsLost, State.kept_mk, State.kept_fold, kept_ite, kept_ite_fst, TimSt.setPin_incr, TimSt.setKey_incr, TimSt.setPort_incr, TimSt.publish_incr, State.discard_kept, kept_foldl, ite_self, implies_true]
theorem execIslandReturn_kept (i : Island) (s : State) : ∃ t, execIslandReturn i s = .next t ∧ t.kept = s.kept := by
  refine ⟨_, rfl, ?_⟩; simp only [State.kept_mk, State.kept_fold, kept_ite, kept_ite_fst, TimSt.setPin_incr, TimSt.setKey_incr, TimSt.setPort_incr, TimSt.publish_incr, State.bar2Resume_kept, State.islandBack_kept, ite_self, implies_true]
theorem execConfCreate_kept (e : CmdEnv) (body : List Byte) (s : State) : ∃ t, execConfCreate e body s = .next t ∧ t.kept = s.kept := by
  unfold execConfCreate; refine ⟨_, rfl, ?_⟩; try dsimp only
  (repeat' split) <;> (first | done | (simp only [State.kept_mk, State.kept_fold, kept_ite, kept_ite_fst, TimSt.setPin_incr, TimSt.setKey_incr, TimSt.setPort_incr, TimSt.publish_incr, State.done_kept, ite_self, implies_true]; done) | (simp [State.kept_mk, State.kept_fold, kept_ite, kept_ite_fst, TimSt.setPin_incr, TimSt.setKey_incr, TimSt.setPort_incr, TimSt.publish_incr, State.done_kept]; done))
theorem State.markIn_kept (s : State) (i : Nat) : (State.markIn s i).kept = s.kept := by
  unfold State.markIn; try dsimp only
  (repeat' split) <;> (first | done | (simp only [State.kept_mk, State.kept_fold, kept_ite, kept_ite_fst, TimSt.setPin_incr, TimSt.setKey_incr, TimSt.setPort_incr, TimSt.publish_incr, ite_self, implies_true]; done) | (simp [State.kept_mk, State.kept_fold, kept_ite, kept_ite_fst, TimSt.setPin_incr, TimSt.setKey_incr, TimSt.setPort_incr, TimSt.publish_incr]; done))
theorem State.dblLegGone_kept (s : State) (i : Nat) : (State.dblLegGone s i).kept = s.kept := by
  simp only [State.dblLegGone, State.kept_mk, State.kept_fold, kept_ite, kept_ite_fst, TimSt.setPin_incr, TimSt.setKey_incr, TimSt.setPort_incr, TimSt.publish_incr, ite_self, implies_true]
theorem State.removal_kept (s : State) (r : Removal) : (State.removal s r).kept = s.kept := by
  simp only [State.removal, State.kept_mk, State.kept_fold, kept_ite, kept_ite_fst, TimSt.setPin_incr, TimSt.setKey_incr, TimSt.setPort_incr, TimSt.publish_incr, ite_self, implies_true]
theorem State.setEst_kept (s : State) (i : Nat) (l : Leg) (est : Nat) : (State.setEst s i l est).kept = s.kept := by
  simp only [State.setEst, State.kept_mk, State.kept_fold, kept_ite, kept_ite_fst, TimSt.setPin_incr, TimSt.setKey_incr, TimSt.setPort_incr, TimSt.publish_incr, ite_self, implies_true]
theorem execLegAdd_kept (e : CmdEnv) (body : List Byte) (s : State) : ∃ t, execLegAdd e body s = .next t ∧ t.kept = s.kept := by
  unfold execLegAdd; refine ⟨_, rfl, ?_⟩; try dsimp only
  (repeat' split) <;> (first | done | (simp only [State.kept_mk, State.kept_fold, kept_ite, kept_ite_fst, TimSt.setPin_incr, TimSt.setKey_incr, TimSt.setPort_incr, TimSt.publish_incr, State.done_kept, State.setEst_kept, ite_self, implies_true]; done) | (simp [State.kept_mk, State.kept_fold, kept_ite, kept_ite_fst, TimSt.setPin_incr, TimSt.setKey_incr, TimSt.setPort_incr, TimSt.publish_incr, State.done_kept, State.setEst_kept]; done))
theorem State.legModify_kept (s : State) (i : Nat) (old new : Leg) : (State.legModify s i old new).kept = s.kept := by
  simp only [State.legModify, State.kept_mk, State.kept_fold, kept_ite, kept_ite_fst, TimSt.setPin_incr, TimSt.setKey_incr, TimSt.setPort_incr, TimSt.publish_incr, State.setEst_kept, ite_self, implies_true]
theorem execLegModify_kept (e : CmdEnv) (body : List Byte) (s : State) : ∃ t, execLegModify e body s = .next t ∧ t.kept = s.kept := by
  unfold execLegModify; refine ⟨_, rfl, ?_⟩; try dsimp only
  (repeat' split) <;> (first | done | (simp only [State.kept_mk, State.kept_fold, kept_ite, kept_ite_fst, TimSt.setPin_incr, TimSt.setKey_incr, TimSt.setPort_incr, TimSt.publish_incr, State.done_kept, State.hold_kept, State.legModify_kept, ite_self, implies_true]; done) | (simp [State.kept_mk, State.kept_fold, kept_ite, kept_ite_fst, TimSt.setPin_incr, TimSt.setKey_incr, TimSt.setPort_incr, TimSt.publish_incr, State.done_kept, State.hold_kept, State.legModify_kept]; done))
theorem execStreamAdd_kept (e : CmdEnv) (body : List Byte) (s : State) : ∃ t, execStreamAdd e body s = .next t ∧ t.kept = s.kept := by
  unfold execStreamAdd; refine ⟨_, rfl, ?_⟩; try dsimp only
  (repeat' split) <;> (first | done | (simp only [State.kept_mk, State.kept_fold, kept_ite, kept_ite_fst, TimSt.setPin_incr, TimSt.setKey_incr, TimSt.setPort_incr, TimSt.publish_incr, State.done_kept, ite_self, implies_true]; done) | (simp [State.kept_mk, State.kept_fold, kept_ite, kept_ite_fst, TimSt.setPin_incr, TimSt.setKey_incr, TimSt.setPort_incr, TimSt.publish_incr, State.done_kept]; done))
theorem execLegStats_kept (e : CmdEnv) (body : List Byte) (s : State) : ∃ t, execLegStats e body s = .next t ∧ t.kept = s.kept := by
  unfold execLegStats; refine ⟨_, rfl, ?_⟩; try dsimp only
  (repeat' split) <;> (first | done | (simp only [State.kept_mk, State.kept_fold, kept_ite, kept_ite_fst, TimSt.setPin_incr, TimSt.setKey_incr, TimSt.setPort_incr, TimSt.publish_incr, State.done_kept, ite_self, implies_true]; done) | (simp [State.kept_mk, State.kept_fold, kept_ite, kept_ite_fst, TimSt.setPin_incr, TimSt.setKey_incr, TimSt.setPort_incr, TimSt.publish_incr, State.done_kept]; done))
theorem execSvcParam_kept (e : CmdEnv) (body : List Byte) (s : State) : ∃ t, execSvcParam e body s = .next t ∧ t.kept = s.kept := by
  refine ⟨_, rfl, ?_⟩; simp only [State.kept_mk, State.kept_fold, kept_ite, kept_ite_fst, TimSt.setPin_incr, TimSt.setKey_incr, TimSt.setPort_incr, TimSt.publish_incr, State.done_kept, ite_self, implies_true]
theorem State.exception_kept (s : State) (reason leg k : Nat) (f : RxFrame) : (State.exception s reason leg k f).kept = s.kept := by
  simp only [State.exception, State.kept_mk, State.kept_fold, kept_ite, kept_ite_fst, TimSt.setPin_incr, TimSt.setKey_incr, TimSt.setPort_incr, TimSt.publish_incr, ite_self, implies_true]
theorem State.parseBad_kept (s : State) (k : Nat) : (State.parseBad s k).kept = s.kept := by
  simp only [State.parseBad, State.kept_mk, State.kept_fold, kept_ite, kept_ite_fst, TimSt.setPin_incr, TimSt.setKey_incr, TimSt.setPort_incr, TimSt.publish_incr, ite_self, implies_true]
theorem State.stunAnswer_kept (s : State) (i : Nat) (l : Leg) (f : RxFrame) (code : Nat) (unknown : List Nat) : (State.stunAnswer s i l f code unknown).kept = s.kept := by
  simp only [State.stunAnswer, State.kept_mk, State.kept_fold, kept_ite, kept_ite_fst, TimSt.setPin_incr, TimSt.setKey_incr, TimSt.setPort_incr, TimSt.publish_incr, State.enqueue_kept, ite_self, implies_true]
theorem State.remoteMoved_kept (s : State) (i : Nat) (l : Leg) (f : RxFrame) : (State.remoteMoved s i l f).kept = s.kept := by
  simp only [State.remoteMoved, State.kept_mk, State.kept_fold, kept_ite, kept_ite_fst, TimSt.setPin_incr, TimSt.setKey_incr, TimSt.setPort_incr, TimSt.publish_incr, ite_self, implies_true]
theorem State.stun_kept (s : State) (i : Nat) (f : RxFrame) : (State.stun s i f).kept = s.kept := by
  unfold State.stun; try dsimp only
  (repeat' split) <;> (first | done | (simp only [State.kept_mk, State.kept_fold, kept_ite, kept_ite_fst, TimSt.setPin_incr, TimSt.setKey_incr, TimSt.setPort_incr, TimSt.publish_incr, State.exception_kept, State.remoteMoved_kept, State.stunAnswer_kept, ite_self, implies_true]; done) | (simp [State.kept_mk, State.kept_fold, kept_ite, kept_ite_fst, TimSt.setPin_incr, TimSt.setKey_incr, TimSt.setPort_incr, TimSt.publish_incr, State.exception_kept, State.remoteMoved_kept, State.stunAnswer_kept]; done))
theorem execConsentTimeout_kept (leg : Nat) (s : State) : ∃ t, execConsentTimeout leg s = .next t ∧ t.kept = s.kept := by
  unfold execConsentTimeout; refine ⟨_, rfl, ?_⟩; try dsimp only
  (repeat' split) <;> (first | done | (simp only [State.kept_mk, State.kept_fold, kept_ite, kept_ite_fst, TimSt.setPin_incr, TimSt.setKey_incr, TimSt.setPort_incr, TimSt.publish_incr, ite_self, implies_true]; done) | (simp [State.kept_mk, State.kept_fold, kept_ite, kept_ite_fst, TimSt.setPin_incr, TimSt.setKey_incr, TimSt.setPort_incr, TimSt.publish_incr]; done))
theorem State.rrEstimate_kept (s : State) (i : Nat) (l : Leg) (loss : Nat) : (State.rrEstimate s i l loss).kept = s.kept := by
  simp only [State.rrEstimate, State.kept_mk, State.kept_fold, kept_ite, kept_ite_fst, TimSt.setPin_incr, TimSt.setKey_incr, TimSt.setPort_incr, TimSt.publish_incr, State.setEst_kept, ite_self, implies_true]
theorem State.reportBlock_kept (s : State) (i : Nat) (b : List Byte) : (State.reportBlock s i b).kept = s.kept := by
  unfold State.reportBlock; try dsimp only
  (repeat' split) <;> (first | done | (simp only [State.kept_mk, State.kept_fold, kept_ite, kept_ite_fst, TimSt.setPin_incr, TimSt.setKey_incr, TimSt.setPort_incr, TimSt.publish_incr, ite_self, implies_true]; done) | (simp [State.kept_mk, State.kept_fold, kept_ite, kept_ite_fst, TimSt.setPin_incr, TimSt.setKey_incr, TimSt.setPort_incr, TimSt.publish_incr]; done))
theorem State.blocksIn_kept (s : State) (i : Nat) (x0 : Nat) (x1 : List Byte) : (State.blocksIn s i x0 x1).kept = s.kept := by
  induction x0 generalizing s i x1 with
  | zero => simp [State.blocksIn, State.kept_mk, State.kept_fold, kept_ite, kept_ite_fst, TimSt.setPin_incr, TimSt.setKey_incr, TimSt.setPort_incr, TimSt.publish_incr, State.reportBlock_kept]
  | succ n ih => simp [State.blocksIn, State.kept_mk, State.kept_fold, kept_ite, kept_ite_fst, TimSt.setPin_incr, TimSt.setKey_incr, TimSt.setPort_incr, TimSt.publish_incr, State.reportBlock_kept, ih]
theorem State.reportBlocks_kept (s : State) (i n : Nat) (b : List Byte) : (State.reportBlocks s i n b).kept = s.kept := by
  unfold State.reportBlocks; try dsimp only
  (repeat' split) <;> (first | done | (simp only [State.kept_mk, State.kept_fold, kept_ite, kept_ite_fst, TimSt.setPin_incr, TimSt.setKey_incr, TimSt.setPort_incr, TimSt.publish_incr, State.blocksIn_kept, State.rrEstimate_kept, kept_foldl, ite_self, implies_true]; done) | (simp [State.kept_mk, State.kept_fold, kept_ite, kept_ite_fst, TimSt.setPin_incr, TimSt.setKey_incr, TimSt.setPort_incr, TimSt.publish_incr, State.blocksIn_kept, State.rrEstimate_kept, kept_foldl]; done))
theorem State.srMapping_kept (s : State) (leg : Nat) (b : List Byte) : (State.srMapping s leg b).kept = s.kept := by
  simp only [State.srMapping, State.kept_mk, State.kept_fold, kept_ite, kept_ite_fst, TimSt.setPin_incr, TimSt.setKey_incr, TimSt.setPort_incr, TimSt.publish_incr, ite_self, implies_true]
theorem State.sdes_kept (s : State) (leg : Nat) (x0 : Nat) (x1 : List Byte) : (State.sdes s leg x0 x1).kept = s.kept := by
  induction x0 generalizing s leg x1 with
  | zero => unfold State.sdes; (repeat' split) <;> simp [State.kept_mk, State.kept_fold, kept_ite, kept_ite_fst, TimSt.setPin_incr, TimSt.setKey_incr, TimSt.setPort_incr, TimSt.publish_incr]
  | succ n ih =>
    unfold State.sdes; try dsimp only
    (repeat' split) <;> simp [State.kept_mk, State.kept_fold, kept_ite, kept_ite_fst, TimSt.setPin_incr, TimSt.setKey_incr, TimSt.setPort_incr, TimSt.publish_incr, ih]
theorem State.bye_kept (s : State) (leg : Nat) (b : List Byte) : (State.bye s leg b).kept = s.kept := by
  simp only [State.bye, State.kept_mk, State.kept_fold, kept_ite, kept_ite_fst, TimSt.setPin_incr, TimSt.setKey_incr, TimSt.setPort_incr, TimSt.publish_incr, kept_foldl, ite_self, implies_true]
theorem State.nackMiss_kept (s : State) (leg : Nat) : (State.nackMiss s leg).kept = s.kept := by
  simp only [State.nackMiss, State.kept_mk, State.kept_fold, kept_ite, kept_ite_fst, TimSt.setPin_incr, TimSt.setKey_incr, TimSt.setPort_incr, TimSt.publish_incr, ite_self, implies_true]
theorem State.audLevel_kept (s : State) (i : Nat) (x : InStream) (q : Rtp) : (State.audLevel s i x q).kept = s.kept := by
  unfold State.audLevel; try dsimp only
  (repeat' split) <;> (first | done | (simp only [State.kept_mk, State.kept_fold, kept_ite, kept_ite_fst, TimSt.setPin_incr, TimSt.setKey_incr, TimSt.setPort_incr, TimSt.publish_incr, ite_self, implies_true]; done) | (simp [State.kept_mk, State.kept_fold, kept_ite, kept_ite_fst, TimSt.setPin_incr, TimSt.setKey_incr, TimSt.setPort_incr, TimSt.publish_incr]; done))
theorem State.setHand_kept (s : State) (c : Nat) (h : Handover) : (State.setHand s c h).kept = s.kept := by
  simp only [State.setHand, State.kept_mk, State.kept_fold, kept_ite, kept_ite_fst, TimSt.setPin_incr, TimSt.setKey_incr, TimSt.setPort_incr, TimSt.publish_incr, ite_self, implies_true]
theorem State.dropHand_kept (s : State) (c : Nat) : (State.dropHand s c).kept = s.kept := by
  simp only [State.dropHand, State.kept_mk, State.kept_fold, kept_ite, kept_ite_fst, TimSt.setPin_incr, TimSt.setKey_incr, TimSt.setPort_incr, TimSt.publish_incr, ite_self, implies_true]
theorem State.handCopied_kept (s : State) (c status : Nat) : (State.handCopied s c status).kept = s.kept := by
  unfold State.handCopied; try dsimp only
  (repeat' split) <;> (first | done | (simp only [State.kept_mk, State.kept_fold, kept_ite, kept_ite_fst, TimSt.setPin_incr, TimSt.setKey_incr, TimSt.setPort_incr, TimSt.publish_incr, State.done_kept, State.dropHand_kept, State.setHand_kept, ite_self, implies_true]; done) | (simp [State.kept_mk, State.kept_fold, kept_ite, kept_ite_fst, TimSt.setPin_incr, TimSt.setKey_incr, TimSt.setPort_incr, TimSt.publish_incr, State.done_kept, State.dropHand_kept, State.setHand_kept]; done))
theorem State.handLost_kept (s : State) (c : Nat) (h : Handover) : (State.handLost s c h).kept = s.kept := by
  simp only [State.handLost, State.kept_mk, State.kept_fold, kept_ite, kept_ite_fst, TimSt.setPin_incr, TimSt.setKey_incr, TimSt.setPort_incr, TimSt.publish_incr, State.done_kept, State.dropHand_kept, ite_self, implies_true]
theorem State.handState_kept (s : State) (src i ssrc seqOff tsOff lastSeq lastTs gen top : Nat) (index : List (Nat × Nat × Nat × Nat × Bool)) : (State.handState s src i ssrc seqOff tsOff lastSeq lastTs gen top index).kept = s.kept := by
  unfold State.handState; try dsimp only
  (repeat' split) <;> (first | done | (simp only [State.kept_mk, State.kept_fold, kept_ite, kept_ite_fst, TimSt.setPin_incr, TimSt.setKey_incr, TimSt.setPort_incr, TimSt.publish_incr, ite_self, implies_true]; done) | (simp [State.kept_mk, State.kept_fold, kept_ite, kept_ite_fst, TimSt.setPin_incr, TimSt.setKey_incr, TimSt.setPort_incr, TimSt.publish_incr]; done))
theorem State.scoresIn_kept (s : State) (src cluster : Nat) (l : List (Nat × Nat)) : (State.scoresIn s src cluster l).kept = s.kept := by
  unfold State.scoresIn; try dsimp only
  (repeat' split) <;> (first | done | (simp only [State.kept_mk, State.kept_fold, kept_ite, kept_ite_fst, TimSt.setPin_incr, TimSt.setKey_incr, TimSt.setPort_incr, TimSt.publish_incr, State.setConf_kept, kept_foldl, ite_self, implies_true]; done) | (simp [State.kept_mk, State.kept_fold, kept_ite, kept_ite_fst, TimSt.setPin_incr, TimSt.setKey_incr, TimSt.setPort_incr, TimSt.publish_incr, State.setConf_kept, kept_foldl]; done) | (refine (kept_foldl _ (fun a b => ?_) _ _).trans ?_ <;> (try dsimp only) <;> (repeat' split) <;> (first | (simp only [State.kept_mk, State.kept_fold, kept_ite, kept_ite_fst, TimSt.setPin_incr, TimSt.setKey_incr, TimSt.setPort_incr, TimSt.publish_incr, State.setConf_kept, kept_foldl, ite_self, implies_true]; done) | (simp [State.kept_mk, State.kept_fold, kept_ite, kept_ite_fst, TimSt.setPin_incr, TimSt.setKey_incr, TimSt.setPort_incr, TimSt.publish_incr, State.setConf_kept, kept_foldl]; done))))
theorem State.idleOut_kept (s : State) (n : Nat) (nak : Bool) (vc cred : Nat) : (State.idleOut s n nak vc cred).kept = s.kept := by
  simp only [State.idleOut, State.kept_mk, State.kept_fold, kept_ite, kept_ite_fst, TimSt.setPin_incr, TimSt.setKey_incr, TimSt.setPort_incr, TimSt.publish_incr, State.plainOut_kept, ite_self, implies_true]
theorem State.helloOut_kept (s : State) (n : Nat) : (State.helloOut s n).kept = s.kept := by
  simp only [State.helloOut, State.kept_mk, State.kept_fold, kept_ite, kept_ite_fst, TimSt.setPin_incr, TimSt.setKey_incr, TimSt.setPort_incr, TimSt.publish_incr, State.plainOut_kept, State.setLink_kept, ite_self, implies_true]
theorem State.helloAll_kept (s : State) : (State.helloAll s).kept = s.kept := by
  simp only [State.helloAll, State.kept_mk, State.kept_fold, kept_ite, kept_ite_fst, TimSt.setPin_incr, TimSt.setKey_incr, TimSt.setPort_incr, TimSt.publish_incr, State.helloOut_kept, kept_foldl, ite_self, implies_true]
theorem State.laneAdapt_kept (s : State) (n : Nat) : (State.laneAdapt s n).kept = s.kept := by
  simp only [State.laneAdapt, State.kept_mk, State.kept_fold, kept_ite, kept_ite_fst, TimSt.setPin_incr, TimSt.setKey_incr, TimSt.setPort_incr, TimSt.publish_incr, ite_self, implies_true]
theorem State.jlResend_kept (s : State) (n : Nat) : (State.jlResend s n).kept = s.kept := by
  simp only [State.jlResend, State.kept_mk, State.kept_fold, kept_ite, kept_ite_fst, TimSt.setPin_incr, TimSt.setKey_incr, TimSt.setPort_incr, TimSt.publish_incr, State.flitOut_kept, State.setLink_kept, kept_foldl, ite_self, implies_true]
theorem State.portTrain_kept (s : State) (p : PortRec) : (State.portTrain s p).kept = s.kept := by
  unfold State.portTrain; try dsimp only
  (repeat' split) <;> (first | done | (simp only [State.kept_mk, State.kept_fold, kept_ite, kept_ite_fst, TimSt.setPin_incr, TimSt.setKey_incr, TimSt.setPort_incr, TimSt.publish_incr, State.ethEnter_kept, State.jlEnter_kept, ite_self, implies_true]; done) | (simp [State.kept_mk, State.kept_fold, kept_ite, kept_ite_fst, TimSt.setPin_incr, TimSt.setKey_incr, TimSt.setPort_incr, TimSt.publish_incr, State.ethEnter_kept, State.jlEnter_kept]; done))
theorem execLaneLost_kept (lane : Nat) (s : State) : ∃ t, execLaneLost lane s = .next t ∧ t.kept = s.kept := by
  unfold execLaneLost; refine ⟨_, rfl, ?_⟩; try dsimp only
  (repeat' split) <;> (first | done | (simp only [State.kept_mk, State.kept_fold, kept_ite, kept_ite_fst, TimSt.setPin_incr, TimSt.setKey_incr, TimSt.setPort_incr, TimSt.publish_incr, State.ethEnter_kept, State.islandLost_kept, State.setLane_kept, ite_self, implies_true]; done) | (simp [State.kept_mk, State.kept_fold, kept_ite, kept_ite_fst, TimSt.setPin_incr, TimSt.setKey_incr, TimSt.setPort_incr, TimSt.publish_incr, State.ethEnter_kept, State.islandLost_kept, State.setLane_kept]; done))
theorem State.laneRetrain_kept (s : State) (lane : Nat) : (State.laneRetrain s lane).kept = s.kept := by
  unfold State.laneRetrain; try dsimp only
  (repeat' split) <;> (first | done | (simp only [State.kept_mk, State.kept_fold, kept_ite, kept_ite_fst, TimSt.setPin_incr, TimSt.setKey_incr, TimSt.setPort_incr, TimSt.publish_incr, State.laneAdapt_kept, State.portTrain_kept, State.setLane_kept, ite_self, implies_true]; done) | (simp [State.kept_mk, State.kept_fold, kept_ite, kept_ite_fst, TimSt.setPin_incr, TimSt.setKey_incr, TimSt.setPort_incr, TimSt.publish_incr, State.laneAdapt_kept, State.portTrain_kept, State.setLane_kept]; done))
theorem execLaneRetrain_kept (lane : Nat) (s : State) : ∃ t, execLaneRetrain lane s = .next t ∧ t.kept = s.kept := by
  refine ⟨_, rfl, ?_⟩; simp only [State.kept_mk, State.kept_fold, kept_ite, kept_ite_fst, TimSt.setPin_incr, TimSt.setKey_incr, TimSt.setPort_incr, TimSt.publish_incr, State.laneRetrain_kept, ite_self, implies_true]
theorem State.laneLoop_kept (s : State) (lane : Nat) (val : Word) : (State.laneLoop s lane val).kept = s.kept := by
  simp only [State.laneLoop, State.kept_mk, State.kept_fold, kept_ite, kept_ite_fst, TimSt.setPin_incr, TimSt.setKey_incr, TimSt.setPort_incr, TimSt.publish_incr, ite_self, implies_true]
theorem execLaneLoopbackWrite_kept (lane : Nat) (val : Word) (s : State) : ∃ t, execLaneLoopbackWrite lane val s = .next t ∧ t.kept = s.kept := by
  refine ⟨_, rfl, ?_⟩; simp only [State.kept_mk, State.kept_fold, kept_ite, kept_ite_fst, TimSt.setPin_incr, TimSt.setKey_incr, TimSt.setPort_incr, TimSt.publish_incr, State.laneLoop_kept, ite_self, implies_true]
theorem execLinkAligned_kept (link : Nat) (reversed : Bool) (s : State) : ∃ t, execLinkAligned link reversed s = .next t ∧ t.kept = s.kept := by
  refine ⟨_, rfl, ?_⟩; simp only [State.kept_mk, State.kept_fold, kept_ite, kept_ite_fst, TimSt.setPin_incr, TimSt.setKey_incr, TimSt.setPort_incr, TimSt.publish_incr, State.helloOut_kept, State.jlEnter_kept, ite_self, implies_true]
theorem execHelloTimer_kept (link : Nat) (s : State) : ∃ t, execHelloTimer link s = .next t ∧ t.kept = s.kept := by
  unfold execHelloTimer; refine ⟨_, rfl, ?_⟩; try dsimp only
  (repeat' split) <;> (first | done | (simp only [State.kept_mk, State.kept_fold, kept_ite, kept_ite_fst, TimSt.setPin_incr, TimSt.setKey_incr, TimSt.setPort_incr, TimSt.publish_incr, State.helloOut_kept, State.jlEnter_kept, ite_self, implies_true]; done) | (simp [State.kept_mk, State.kept_fold, kept_ite, kept_ite_fst, TimSt.setPin_incr, TimSt.setKey_incr, TimSt.setPort_incr, TimSt.publish_incr, State.helloOut_kept, State.jlEnter_kept]; done))
theorem State.jlAck_kept (s : State) (n ack : Nat) : (State.jlAck s n ack).kept = s.kept := by
  unfold State.jlAck; try dsimp only
  (repeat' split) <;> (first | done | (simp only [State.kept_mk, State.kept_fold, kept_ite, kept_ite_fst, TimSt.setPin_incr, TimSt.setKey_incr, TimSt.setPort_incr, TimSt.publish_incr, State.setLink_kept, ite_self, implies_true]; done) | (simp [State.kept_mk, State.kept_fold, kept_ite, kept_ite_fst, TimSt.setPin_incr, TimSt.setKey_incr, TimSt.setPort_incr, TimSt.publish_incr, State.setLink_kept]; done))
theorem State.jlCredit_kept (s : State) (n vc k : Nat) : (State.jlCredit s n vc k).kept = s.kept := by
  simp only [State.jlCredit, State.kept_mk, State.kept_fold, kept_ite, kept_ite_fst, TimSt.setPin_incr, TimSt.setKey_incr, TimSt.setPort_incr, TimSt.publish_incr, State.setLink_kept, ite_self, implies_true]
theorem State.jlNak_kept (s : State) (n : Nat) (again : Bool) : (State.jlNak s n again).kept = s.kept := by
  simp only [State.jlNak, State.kept_mk, State.kept_fold, kept_ite, kept_ite_fst, TimSt.setPin_incr, TimSt.setKey_incr, TimSt.setPort_incr, TimSt.publish_incr, State.idleOut_kept, State.setLink_kept, ite_self, implies_true]
theorem State.flitIn_kept (s : State) (n : Nat) (b : List Byte) (lost : Bool) (types : Nat → Bool) (act : State → FlitHead → State) (h : ∀ t g, (act t g).kept = t.kept) : (s.flitIn n b lost types act).kept = s.kept := by
  unfold State.flitIn
  (repeat' split) <;> first | exact h _ _ | simp only [State.kept_mk, State.kept_fold, kept_ite, kept_ite_fst, TimSt.setPin_incr, TimSt.setKey_incr, TimSt.setPort_incr, TimSt.publish_incr, State.jlNak_kept, State.offer_kept]
theorem execHoldFlit_kept (link : Nat) (bytes : List Byte) (s : State) : ∃ t, execHoldFlit link bytes s = .next t ∧ t.kept = s.kept := by
  refine ⟨_, rfl, ?_⟩; simp only [State.kept_mk, State.kept_fold, kept_ite, kept_ite_fst, TimSt.setPin_incr, TimSt.setKey_incr, TimSt.setPort_incr, TimSt.publish_incr, State.flitIn_kept, State.jlEnter_kept, State.setLink_kept, ite_self, implies_true]
theorem execLinkStats_kept (e : CmdEnv) (body : List Byte) (s : State) : ∃ t, execLinkStats e body s = .next t ∧ t.kept = s.kept := by
  refine ⟨_, rfl, ?_⟩; simp only [State.kept_mk, State.kept_fold, kept_ite, kept_ite_fst, TimSt.setPin_incr, TimSt.setKey_incr, TimSt.setPort_incr, TimSt.publish_incr, State.done_kept, ite_self, implies_true]
theorem State.secDrop_kept (s : State) (p : Nat) : (State.secDrop s p).1.kept = s.kept := by
  simp only [State.secDrop, State.kept_mk, State.kept_fold, kept_ite, kept_ite_fst, TimSt.setPin_incr, TimSt.setKey_incr, TimSt.setPort_incr, TimSt.publish_incr, ite_self, implies_true]
theorem State.tunnelRx_kept (s : State) (f : RxFrame) : (State.tunnelRx s f).kept = s.kept := by
  unfold State.tunnelRx; try dsimp only
  (repeat' split) <;> (first | done | (simp only [State.kept_mk, State.kept_fold, kept_ite, kept_ite_fst, TimSt.setPin_incr, TimSt.setKey_incr, TimSt.setPort_incr, TimSt.publish_incr, State.setLink_kept, ite_self, implies_true]; done) | (simp [State.kept_mk, State.kept_fold, kept_ite, kept_ite_fst, TimSt.setPin_incr, TimSt.setKey_incr, TimSt.setPort_incr, TimSt.publish_incr, State.setLink_kept]; done))
theorem State.vinRx_kept (s : State) (f : RxFrame) (v entry : Nat) : (State.vinRx s f v entry).kept = s.kept := by
  simp only [State.vinRx, State.kept_mk, State.kept_fold, kept_ite, kept_ite_fst, TimSt.setPin_incr, TimSt.setKey_incr, TimSt.setPort_incr, TimSt.publish_incr, State.vinNoPath_kept, State.vinPath_kept, ite_self, implies_true]
theorem State.snapShort_kept (s : State) (x : Snap) : (State.snapShort s x).1.kept = s.kept := by
  simp only [State.snapShort, State.kept_mk, State.kept_fold, kept_ite, kept_ite_fst, TimSt.setPin_incr, TimSt.setKey_incr, TimSt.setPort_incr, TimSt.publish_incr, ite_self, implies_true]
theorem State.snapWrite_kept (s : State) (x : Snap) (rec : List Byte) : (State.snapWrite s x rec).1.kept = s.kept := by
  simp only [State.snapWrite, State.kept_mk, State.kept_fold, kept_ite, kept_ite_fst, TimSt.setPin_incr, TimSt.setKey_incr, TimSt.setPort_incr, TimSt.publish_incr, State.snapShort_kept, ite_self, implies_true]
theorem State.snapDrain_kept (s : State) (x : Snap) (x0 : List Nat) : (State.snapDrain s x x0).1.kept = s.kept := by
  induction x0 generalizing s x with
  | nil => unfold State.snapDrain; (repeat' split) <;> simp [State.kept_mk, State.kept_fold, kept_ite, kept_ite_fst, TimSt.setPin_incr, TimSt.setKey_incr, TimSt.setPort_incr, TimSt.publish_incr, State.snapWrite_kept]
  | cons a l ih =>
    unfold State.snapDrain; try dsimp only
    (repeat' split) <;> simp [State.kept_mk, State.kept_fold, kept_ite, kept_ite_fst, TimSt.setPin_incr, TimSt.setKey_incr, TimSt.setPort_incr, TimSt.publish_incr, State.snapWrite_kept, ih]
theorem State.snapKeep_kept (r : State × Snap) : (State.snapKeep r).kept = r.1.kept := by
  simp only [State.snapKeep, State.kept_mk, State.kept_fold, kept_ite, kept_ite_fst, TimSt.setPin_incr, TimSt.setKey_incr, TimSt.setPort_incr, TimSt.publish_incr]
theorem State.snapOwn_kept (s : State) (step : Bool) : (State.snapOwn s step).kept = s.kept := by
  unfold State.snapOwn; try dsimp only
  (repeat' split) <;> (first | done | (simp only [State.kept_mk, State.kept_fold, kept_ite, kept_ite_fst, TimSt.setPin_incr, TimSt.setKey_incr, TimSt.setPort_incr, TimSt.publish_incr, State.snapDrain_kept, State.snapKeep_kept, State.snapWrite_kept, ite_self, implies_true]; done) | (simp [State.kept_mk, State.kept_fold, kept_ite, kept_ite_fst, TimSt.setPin_incr, TimSt.setKey_incr, TimSt.setPort_incr, TimSt.publish_incr, State.snapDrain_kept, State.snapKeep_kept, State.snapWrite_kept]; done))
theorem State.snapStart_kept (s : State) (val : Word) (at_ : LatchWhen) (members : List Nat) : (State.snapStart s val at_ members).kept = s.kept := by
  unfold State.snapStart; try dsimp only
  (repeat' split) <;> (first | done | (simp only [State.kept_mk, State.kept_fold, kept_ite, kept_ite_fst, TimSt.setPin_incr, TimSt.setKey_incr, TimSt.setPort_incr, TimSt.publish_incr, ite_self, implies_true]; done) | (simp [State.kept_mk, State.kept_fold, kept_ite, kept_ite_fst, TimSt.setPin_incr, TimSt.setKey_incr, TimSt.setPort_incr, TimSt.publish_incr]; done))
theorem State.snapNext_kept (s : State) (val : Word) (hcLeft : Nat) : (State.snapNext s val hcLeft).kept = s.kept := by
  simp only [State.snapNext, State.kept_mk, State.kept_fold, kept_ite, kept_ite_fst, TimSt.setPin_incr, TimSt.setKey_incr, TimSt.setPort_incr, TimSt.publish_incr, State.snapStart_kept, ite_self, implies_true]
theorem execSnapCmdNext_kept (val : Word) (hcLeft : Nat) (s : State) : ∃ t, execSnapCmdNext val hcLeft s = .next t ∧ t.kept = s.kept := by
  refine ⟨_, rfl, ?_⟩; simp only [State.kept_mk, State.kept_fold, kept_ite, kept_ite_fst, TimSt.setPin_incr, TimSt.setKey_incr, TimSt.setPort_incr, TimSt.publish_incr, State.snapNext_kept, ite_self, implies_true]
theorem State.snapAsked_kept (s : State) (a : SnapAsk) : (State.snapAsked s a).kept = s.kept := by
  simp only [State.snapAsked, State.kept_mk, State.kept_fold, kept_ite, kept_ite_fst, TimSt.setPin_incr, TimSt.setKey_incr, TimSt.setPort_incr, TimSt.publish_incr, ite_self, implies_true]
theorem execSnapRequestReceive_kept (dev sec ns mask : Nat) (clr : Bool) (s : State) : ∃ t, execSnapRequestReceive dev sec ns mask clr s = .next t ∧ t.kept = s.kept := by
  refine ⟨_, rfl, ?_⟩; simp only [State.kept_mk, State.kept_fold, kept_ite, kept_ite_fst, TimSt.setPin_incr, TimSt.setKey_incr, TimSt.setPort_incr, TimSt.publish_incr, State.snapAsked_kept, ite_self, implies_true]
theorem State.snapIn_kept (s : State) (dev : Nat) (rec : List Byte) : (State.snapIn s dev rec).kept = s.kept := by
  unfold State.snapIn; try dsimp only
  (repeat' split) <;> (first | done | (simp only [State.kept_mk, State.kept_fold, kept_ite, kept_ite_fst, TimSt.setPin_incr, TimSt.setKey_incr, TimSt.setPort_incr, TimSt.publish_incr, State.snapDrain_kept, State.snapKeep_kept, ite_self, implies_true]; done) | (simp [State.kept_mk, State.kept_fold, kept_ite, kept_ite_fst, TimSt.setPin_incr, TimSt.setKey_incr, TimSt.setPort_incr, TimSt.publish_incr, State.snapDrain_kept, State.snapKeep_kept]; done))
theorem execSnapRecordReceive_kept (dev : Nat) (rec : List Byte) (s : State) : ∃ t, execSnapRecordReceive dev rec s = .next t ∧ t.kept = s.kept := by
  refine ⟨_, rfl, ?_⟩; simp only [State.kept_mk, State.kept_fold, kept_ite, kept_ite_fst, TimSt.setPin_incr, TimSt.setKey_incr, TimSt.setPort_incr, TimSt.publish_incr, State.snapIn_kept, ite_self, implies_true]
theorem execSnapMemberTimeout_kept (dev : Nat) (s : State) : ∃ t, execSnapMemberTimeout dev s = .next t ∧ t.kept = s.kept := by
  unfold execSnapMemberTimeout; refine ⟨_, rfl, ?_⟩; try dsimp only
  (repeat' split) <;> (first | done | (simp only [State.kept_mk, State.kept_fold, kept_ite, kept_ite_fst, TimSt.setPin_incr, TimSt.setKey_incr, TimSt.setPort_incr, TimSt.publish_incr, State.snapDrain_kept, State.snapKeep_kept, State.snapShort_kept, ite_self, implies_true]; done) | (simp [State.kept_mk, State.kept_fold, kept_ite, kept_ite_fst, TimSt.setPin_incr, TimSt.setKey_incr, TimSt.setPort_incr, TimSt.publish_incr, State.snapDrain_kept, State.snapKeep_kept, State.snapShort_kept]; done))
theorem execSnapDone_kept (s : State) : ∃ t, execSnapDone s = .next t ∧ t.kept = s.kept := by
  unfold execSnapDone; refine ⟨_, rfl, ?_⟩; try dsimp only
  (repeat' split) <;> (first | done | (simp only [State.kept_mk, State.kept_fold, kept_ite, kept_ite_fst, TimSt.setPin_incr, TimSt.setKey_incr, TimSt.setPort_incr, TimSt.publish_incr, ite_self, implies_true]; done) | (simp [State.kept_mk, State.kept_fold, kept_ite, kept_ite_fst, TimSt.setPin_incr, TimSt.setKey_incr, TimSt.setPort_incr, TimSt.publish_incr]; done))

end Sys2Proof.Machine
end

