-- ==== Sys2Proof/Laws/KeptControl.lean ====
section
/-! SUPPORT. Frame lemmas of the start, test, configuration and register commands: each definition leaves `State.kept` alone. -/

namespace Sys2Proof.Machine

set_option linter.all false

theorem State.freeze_kept (s0 : State) (cause : Nat) : (State.freeze s0 cause).kept = s0.kept := by
  simp only [State.freeze, State.kept_mk, State.kept_fold, kept_ite, kept_ite_fst, TimSt.setPin_incr, TimSt.setKey_incr, TimSt.setPort_incr, TimSt.publish_incr, State.linksFreeze_kept, ite_self, implies_true]
theorem State.shutterTrigger_kept (s : State) (cause : Nat) : (State.shutterTrigger s cause).kept = s.kept := by
  unfold State.shutterTrigger; try dsimp only
  (repeat' split) <;> (first | done | (simp only [State.kept_mk, State.kept_fold, kept_ite, kept_ite_fst, TimSt.setPin_incr, TimSt.setKey_incr, TimSt.setPort_incr, TimSt.publish_incr, State.freeze_kept, ite_self, implies_true]; done) | (simp [State.kept_mk, State.kept_fold, kept_ite, kept_ite_fst, TimSt.setPin_incr, TimSt.setKey_incr, TimSt.setPort_incr, TimSt.publish_incr, State.freeze_kept]; done))
theorem execSupplyLoopEvaluation_kept (currentMa : Nat) (s : State) : ∃ t, execSupplyLoopEvaluation currentMa s = .next t ∧ t.kept = s.kept := by
  refine ⟨_, rfl, ?_⟩; simp only [State.kept_mk, State.kept_fold, kept_ite, kept_ite_fst, TimSt.setPin_incr, TimSt.setKey_incr, TimSt.setPort_incr, TimSt.publish_incr, State.shutterTrigger_kept, State.supplyEval_kept, ite_self, implies_true]
theorem State.retirePage_kept (s : State) (ch cause : Nat) : (State.retirePage s ch cause).kept = s.kept := by
  simp only [State.retirePage, State.kept_mk, State.kept_fold, kept_ite, kept_ite_fst, TimSt.setPin_incr, TimSt.setKey_incr, TimSt.setPort_incr, TimSt.publish_incr, ite_self, implies_true]
theorem State.portDiscard_kept (s : State) (p : Nat) : (State.portDiscard s p).kept = s.kept := by
  simp only [State.portDiscard, State.kept_mk, State.kept_fold, kept_ite, kept_ite_fst, TimSt.setPin_incr, TimSt.setKey_incr, TimSt.setPort_incr, TimSt.publish_incr, ite_self, implies_true]
theorem State.retire_kept (s : State) (ch cause : Nat) : (State.retire s ch cause).kept = s.kept := by
  unfold State.retire; try dsimp only
  (repeat' split) <;> (first | done | (simp only [State.kept_mk, State.kept_fold, kept_ite, kept_ite_fst, TimSt.setPin_incr, TimSt.setKey_incr, TimSt.setPort_incr, TimSt.publish_incr, State.ethEnter_kept, State.jlEnter_kept, State.laneRetired_kept, State.portDiscard_kept, State.retirePage_kept, State.settle_kept, State.svcStart_kept, kept_foldl, ite_self, implies_true]; done) | (simp [State.kept_mk, State.kept_fold, kept_ite, kept_ite_fst, TimSt.setPin_incr, TimSt.setKey_incr, TimSt.setPort_incr, TimSt.publish_incr, State.ethEnter_kept, State.jlEnter_kept, State.laneRetired_kept, State.portDiscard_kept, State.retirePage_kept, State.settle_kept, State.svcStart_kept, kept_foldl]; done))
theorem State.fifoIn_kept (s : State) (e : Nat × Option Nat) : (State.fifoIn s e).kept = s.kept := by
  unfold State.fifoIn; try dsimp only
  (repeat' split) <;> (first | done | (simp only [State.kept_mk, State.kept_fold, kept_ite, kept_ite_fst, TimSt.setPin_incr, TimSt.setKey_incr, TimSt.setPort_incr, TimSt.publish_incr, ite_self, implies_true]; done) | (simp [State.kept_mk, State.kept_fold, kept_ite, kept_ite_fst, TimSt.setPin_incr, TimSt.setKey_incr, TimSt.setPort_incr, TimSt.publish_incr]; done))
theorem State.permanent_kept (s : State) (ch cause : Nat) : (State.permanent s ch cause).kept = s.kept := by
  simp only [State.permanent, State.kept_mk, State.kept_fold, kept_ite, kept_ite_fst, TimSt.setPin_incr, TimSt.setKey_incr, TimSt.setPort_incr, TimSt.publish_incr, State.fifoIn_kept, State.retire_kept, State.shutterTrigger_kept, ite_self, implies_true]
theorem State.bucketAdd_kept (s : State) (ch : Nat) : (State.bucketAdd s ch).1.kept = s.kept := by
  unfold State.bucketAdd; try dsimp only
  (repeat' split) <;> (first | done | (simp only [State.kept_mk, State.kept_fold, kept_ite, kept_ite_fst, TimSt.setPin_incr, TimSt.setKey_incr, TimSt.setPort_incr, TimSt.publish_incr, ite_self, implies_true]; done) | (simp [State.kept_mk, State.kept_fold, kept_ite, kept_ite_fst, TimSt.setPin_incr, TimSt.setKey_incr, TimSt.setPort_incr, TimSt.publish_incr]; done))
theorem State.transient_kept (s : State) (ch : Nat) : (State.transient s ch).kept = s.kept := by
  simp only [State.transient, State.kept_mk, State.kept_fold, kept_ite, kept_ite_fst, TimSt.setPin_incr, TimSt.setKey_incr, TimSt.setPort_incr, TimSt.publish_incr, State.bucketAdd_kept, State.fifoIn_kept, State.permanent_kept, ite_self, implies_true]
theorem State.transients_kept (s : State) (chs : List Nat) : (State.transients s chs).kept = s.kept := by
  simp only [State.transients, State.kept_mk, State.kept_fold, kept_ite, kept_ite_fst, TimSt.setPin_incr, TimSt.setKey_incr, TimSt.setPort_incr, TimSt.publish_incr, State.transient_kept, kept_foldl, ite_self, implies_true]
theorem State.faultSashes_kept (s : State) (ty i : Nat) : (State.faultSashes s ty i).kept = s.kept := by
  simp only [State.faultSashes, State.kept_mk, State.kept_fold, kept_ite, kept_ite_fst, TimSt.setPin_incr, TimSt.setKey_incr, TimSt.setPort_incr, TimSt.publish_incr, kept_foldl, ite_self, implies_true]
theorem State.bistOver_kept (s : State) (result ty i : Nat) : (State.bistOver s result ty i).kept = s.kept := by
  simp only [State.bistOver, State.kept_mk, State.kept_fold, kept_ite, kept_ite_fst, TimSt.setPin_incr, TimSt.setKey_incr, TimSt.setPort_incr, TimSt.publish_incr, ite_self, implies_true]
theorem State.bistAbort_kept (s : State) (ty i : Nat) : (State.bistAbort s ty i).kept = s.kept := by
  simp only [State.bistAbort, State.kept_mk, State.kept_fold, kept_ite, kept_ite_fst, TimSt.setPin_incr, TimSt.setKey_incr, TimSt.setPort_incr, TimSt.publish_incr, State.bistOver_kept, ite_self, implies_true]
theorem State.retireUnit_kept (s : State) (ty i cause : Nat) : (State.retireUnit s ty i cause).kept = s.kept := by
  unfold State.retireUnit; try dsimp only
  (repeat' split) <;> (first | done | (simp only [State.kept_mk, State.kept_fold, kept_ite, kept_ite_fst, TimSt.setPin_incr, TimSt.setKey_incr, TimSt.setPort_incr, TimSt.publish_incr, State.bistAbort_kept, State.done_kept, State.faultSashes_kept, State.markSpares_kept, State.takeSpare_kept, ite_self, implies_true]; done) | (simp [State.kept_mk, State.kept_fold, kept_ite, kept_ite_fst, TimSt.setPin_incr, TimSt.setKey_incr, TimSt.setPort_incr, TimSt.publish_incr, State.bistAbort_kept, State.done_kept, State.faultSashes_kept, State.markSpares_kept, State.takeSpare_kept]; done))
theorem State.retireIdle_kept (s : State) (ty i : Nat) : (State.retireIdle s ty i).kept = s.kept := by
  unfold State.retireIdle; try dsimp only
  (repeat' split) <;> (first | done | (simp only [State.kept_mk, State.kept_fold, kept_ite, kept_ite_fst, TimSt.setPin_incr, TimSt.setKey_incr, TimSt.setPort_incr, TimSt.publish_incr, State.retireUnit_kept, ite_self, implies_true]; done) | (simp [State.kept_mk, State.kept_fold, kept_ite, kept_ite_fst, TimSt.setPin_incr, TimSt.setKey_incr, TimSt.setPort_incr, TimSt.publish_incr, State.retireUnit_kept]; done))
theorem State.bistBegin_kept (s : State) (ty i badReads : Nat) : (State.bistBegin s ty i badReads).kept = s.kept := by
  unfold State.bistBegin; try dsimp only
  (repeat' split) <;> (first | done | (simp only [State.kept_mk, State.kept_fold, kept_ite, kept_ite_fst, TimSt.setPin_incr, TimSt.setKey_incr, TimSt.setPort_incr, TimSt.publish_incr, State.bistOver_kept, State.markSpares_kept, State.permanent_kept, State.retireIdle_kept, State.takeSpare_kept, ite_self, implies_true]; done) | (simp [State.kept_mk, State.kept_fold, kept_ite, kept_ite_fst, TimSt.setPin_incr, TimSt.setKey_incr, TimSt.setPort_incr, TimSt.publish_incr, State.bistOver_kept, State.markSpares_kept, State.permanent_kept, State.retireIdle_kept, State.takeSpare_kept]; done))
theorem State.bistRestart_kept (s : State) : (State.bistRestart s).kept = s.kept := by
  simp only [State.bistRestart, State.kept_mk, State.kept_fold, kept_ite, kept_ite_fst, TimSt.setPin_incr, TimSt.setKey_incr, TimSt.setPort_incr, TimSt.publish_incr, ite_self, implies_true]
theorem State.bistTurn_kept (s : State) (ty : Nat) : (State.bistTurn s ty).kept = s.kept := by
  unfold State.bistTurn; try dsimp only
  (repeat' split) <;> (first | done | (simp only [State.kept_mk, State.kept_fold, kept_ite, kept_ite_fst, TimSt.setPin_incr, TimSt.setKey_incr, TimSt.setPort_incr, TimSt.publish_incr, ite_self, implies_true]; done) | (simp [State.kept_mk, State.kept_fold, kept_ite, kept_ite_fst, TimSt.setPin_incr, TimSt.setKey_incr, TimSt.setPort_incr, TimSt.publish_incr]; done))
theorem State.bistDue_kept (s : State) (ty : Nat) : (State.bistDue s ty).kept = s.kept := by
  unfold State.bistDue; try dsimp only
  (repeat' split) <;> (first | done | (simp only [State.kept_mk, State.kept_fold, kept_ite, kept_ite_fst, TimSt.setPin_incr, TimSt.setKey_incr, TimSt.setPort_incr, TimSt.publish_incr, ite_self, implies_true]; done) | (simp [State.kept_mk, State.kept_fold, kept_ite, kept_ite_fst, TimSt.setPin_incr, TimSt.setKey_incr, TimSt.setPort_incr, TimSt.publish_incr]; done))
theorem State.pageDecode_kept (s0 : State) (page : Nat) (scrub : Bool) : (State.pageDecode s0 page scrub).kept = s0.kept := by
  simp only [State.pageDecode, State.kept_mk, State.kept_fold, kept_ite, kept_ite_fst, TimSt.setPin_incr, TimSt.setKey_incr, TimSt.setPort_incr, TimSt.publish_incr, State.memLog_kept, State.transient_kept, State.wordsRewritten_kept, kept_foldl, ite_self, implies_true]
theorem State.mergeRead_kept (s : State) (w : Nat) : (State.mergeRead s w).kept = s.kept := by
  unfold State.mergeRead; try dsimp only
  (repeat' split) <;> (first | done | (simp only [State.kept_mk, State.kept_fold, kept_ite, kept_ite_fst, TimSt.setPin_incr, TimSt.setKey_incr, TimSt.setPort_incr, TimSt.publish_incr, State.pageDecode_kept, ite_self, implies_true]; done) | (simp [State.kept_mk, State.kept_fold, kept_ite, kept_ite_fst, TimSt.setPin_incr, TimSt.setKey_incr, TimSt.setPort_incr, TimSt.publish_incr, State.pageDecode_kept]; done))
theorem State.mergeFlush_kept (s0 : State) (e : MergeEntry) : (State.mergeFlush s0 e).kept = s0.kept := by
  unfold State.mergeFlush; try dsimp only
  (repeat' split) <;> (first | done | (simp only [State.kept_mk, State.kept_fold, kept_ite, kept_ite_fst, TimSt.setPin_incr, TimSt.setKey_incr, TimSt.setPort_incr, TimSt.publish_incr, State.mergeRead_kept, ite_self, implies_true]; done) | (simp [State.kept_mk, State.kept_fold, kept_ite, kept_ite_fst, TimSt.setPin_incr, TimSt.setKey_incr, TimSt.setPort_incr, TimSt.publish_incr, State.mergeRead_kept]; done))
theorem State.mergeFlushWhere_kept (s : State) (g : Nat) (p : MergeEntry → Bool) : (State.mergeFlushWhere s g p).kept = s.kept := by
  simp only [State.mergeFlushWhere, State.kept_mk, State.kept_fold, kept_ite, kept_ite_fst, TimSt.setPin_incr, TimSt.setKey_incr, TimSt.setPort_incr, TimSt.publish_incr, State.mergeFlush_kept, kept_foldl, ite_self, implies_true]
theorem State.mergeFlushAll_kept (s : State) : (State.mergeFlushAll s).kept = s.kept := by
  simp only [State.mergeFlushAll, State.kept_mk, State.kept_fold, kept_ite, kept_ite_fst, TimSt.setPin_incr, TimSt.setKey_incr, TimSt.setPort_incr, TimSt.publish_incr, State.mergeFlushWhere_kept, kept_foldl, ite_self, implies_true]
theorem State.mergePut_kept (s : State) (c : Nat) (b : Byte) : (State.mergePut s c b).kept = s.kept := by
  simp only [State.mergePut, State.kept_mk, State.kept_fold, kept_ite, kept_ite_fst, TimSt.setPin_incr, TimSt.setKey_incr, TimSt.setPort_incr, TimSt.publish_incr, State.mergeFlushWhere_kept, ite_self, implies_true]
theorem State.cellPut_kept (s : State) (c : Nat) (b : Byte) : (State.cellPut s c b).kept = s.kept := by
  simp only [State.cellPut, State.kept_mk, State.kept_fold, kept_ite, kept_ite_fst, TimSt.setPin_incr, TimSt.setKey_incr, TimSt.setPort_incr, TimSt.publish_incr, State.mergePut_kept, State.mergeRead_kept, ite_self, implies_true]
theorem State.partPut_kept (s : State) (p : PartRec) (off : Nat) (x0 : List Byte) : (State.partPut s p off x0).kept = s.kept := by
  fun_induction State.partPut s p off x0 <;> simp_all [State.kept_mk, State.kept_fold, kept_ite, kept_ite_fst, TimSt.setPin_incr, TimSt.setKey_incr, TimSt.setPort_incr, TimSt.publish_incr, State.cellPut_kept, State.wordPut_kept]
theorem State.partWrite_kept (s : State) (p : PartRec) (off : Nat) (l : List Byte) : (State.partWrite s p off l).kept = s.kept := by
  simp only [State.partWrite, State.kept_mk, State.kept_fold, kept_ite, kept_ite_fst, TimSt.setPin_incr, TimSt.setKey_incr, TimSt.setPort_incr, TimSt.publish_incr, State.cellsLost_kept, State.partPut_kept, ite_self, implies_true]
theorem State.bar2Put_kept (s : State) (fn off : Nat) (x0 : List Byte) : (State.bar2Put s fn off x0).kept = s.kept := by
  fun_induction State.bar2Put s fn off x0 <;> simp_all [State.kept_mk, State.kept_fold, kept_ite, kept_ite_fst, TimSt.setPin_incr, TimSt.setKey_incr, TimSt.setPort_incr, TimSt.publish_incr, State.cellPut_kept, State.wordPut_kept]
theorem execBar2Write_kept (fn off : Nat) (bytes : List Byte) (poison : Bool) (s : State) : ∃ t, execBar2Write fn off bytes poison s = .next t ∧ t.kept = s.kept := by
  refine ⟨_, rfl, ?_⟩; simp only [State.kept_mk, State.kept_fold, kept_ite, kept_ite_fst, TimSt.setPin_incr, TimSt.setKey_incr, TimSt.setPort_incr, TimSt.publish_incr, State.bar2Put_kept, State.cellsLost_kept, kept_foldl, ite_self, implies_true]
theorem execPageDecodeDone_kept (cell : Nat) (errs : List CellErr) (s : State) : ∃ t, execPageDecodeDone cell errs s = .next t ∧ t.kept = s.kept := by
  refine ⟨_, rfl, ?_⟩; simp only [State.kept_mk, State.kept_fold, kept_ite, kept_ite_fst, TimSt.setPin_incr, TimSt.setKey_incr, TimSt.setPort_incr, TimSt.publish_incr, State.bar2Complete_kept, State.hbmTake_kept, State.pageDecode_kept, kept_foldl, ite_self, implies_true]
theorem execScrubVisit_kept (cell : Nat) (errs : List CellErr) (s : State) : ∃ t, execScrubVisit cell errs s = .next t ∧ t.kept = s.kept := by
  refine ⟨_, rfl, ?_⟩; simp only [State.kept_mk, State.kept_fold, kept_ite, kept_ite_fst, TimSt.setPin_incr, TimSt.setKey_incr, TimSt.setPort_incr, TimSt.publish_incr, State.pageDecode_kept, State.scrubRewrite_kept, State.scrubbed_kept, kept_foldl, ite_self, implies_true]
theorem execMergeFlushTimeout_kept (word : Nat) (s : State) : ∃ t, execMergeFlushTimeout word s = .next t ∧ t.kept = s.kept := by
  refine ⟨_, rfl, ?_⟩; simp only [State.kept_mk, State.kept_fold, kept_ite, kept_ite_fst, TimSt.setPin_incr, TimSt.setKey_incr, TimSt.setPort_incr, TimSt.publish_incr, State.mergeFlushWhere_kept, ite_self, implies_true]
theorem execCaParityError_kept (stack pch cell : Nat) (wr second : Bool) (s : State) : ∃ t, execCaParityError stack pch cell wr second s = .next t ∧ t.kept = s.kept := by
  refine ⟨_, rfl, ?_⟩; simp only [State.kept_mk, State.kept_fold, kept_ite, kept_ite_fst, TimSt.setPin_incr, TimSt.setKey_incr, TimSt.setPort_incr, TimSt.publish_incr, State.memLog_kept, State.transient_kept, kept_foldl, ite_self, implies_true]
theorem State.cipRetry_kept (s0 : State) (lane : Option Nat) (blocks : Nat) : (State.cipRetry s0 lane blocks).kept = s0.kept := by
  unfold State.cipRetry; try dsimp only
  (repeat' split) <;> (first | done | (simp only [State.kept_mk, State.kept_fold, kept_ite, kept_ite_fst, TimSt.setPin_incr, TimSt.setKey_incr, TimSt.setPort_incr, TimSt.publish_incr, State.laneCompute_kept, State.transient_kept, ite_self, implies_true]; done) | (simp [State.kept_mk, State.kept_fold, kept_ite, kept_ite_fst, TimSt.setPin_incr, TimSt.setKey_incr, TimSt.setPort_incr, TimSt.publish_incr, State.laneCompute_kept, State.transient_kept]; done))
theorem State.cipRetire_kept (s0 : State) (lane : Option Nat) : (State.cipRetire s0 lane).kept = s0.kept := by
  unfold State.cipRetire; try dsimp only
  (repeat' split) <;> (first | done | (simp only [State.kept_mk, State.kept_fold, kept_ite, kept_ite_fst, TimSt.setPin_incr, TimSt.setKey_incr, TimSt.setPort_incr, TimSt.publish_incr, State.permanent_kept, ite_self, implies_true]; done) | (simp [State.kept_mk, State.kept_fold, kept_ite, kept_ite_fst, TimSt.setPin_incr, TimSt.setKey_incr, TimSt.setPort_incr, TimSt.publish_incr, State.permanent_kept]; done))
theorem State.cipher_kept (s : State) (it : CipItem) : (State.cipher s it).1.kept = s.kept := by
  simp only [State.cipher, State.kept_mk, State.kept_fold, kept_ite, kept_ite_fst, TimSt.setPin_incr, TimSt.setKey_incr, TimSt.setPort_incr, TimSt.publish_incr, State.cipAuth_kept, State.cipDrop_kept, State.cipIndex_kept, State.cipRetire_kept, State.cipRetry_kept, State.cipUse_kept, State.laneTake_kept, State.setSlot_kept, ite_self, implies_true]
theorem execCipherItem_kept (it : CipItem) (s : State) : ∃ t, execCipherItem it s = .next t ∧ t.kept = s.kept := by
  refine ⟨_, rfl, ?_⟩; simp only [State.kept_mk, State.kept_fold, kept_ite, kept_ite_fst, TimSt.setPin_incr, TimSt.setKey_incr, TimSt.setPort_incr, TimSt.publish_incr, State.cipher_kept, ite_self, implies_true]
theorem State.cacheCount_kept (s : State) : (State.cacheCount s).kept = s.kept := by
  simp only [State.cacheCount, State.kept_mk, State.kept_fold, kept_ite, kept_ite_fst, TimSt.setPin_incr, TimSt.setKey_incr, TimSt.setPort_incr, TimSt.publish_incr, ite_self, implies_true]
theorem State.subBytes_kept (s : State) (i : Nat) (b : List Byte) : (State.subBytes s i b).kept = s.kept := by
  unfold State.subBytes; try dsimp only
  (repeat' split) <;> (first | done | (simp only [State.kept_mk, State.kept_fold, kept_ite, kept_ite_fst, TimSt.setPin_incr, TimSt.setKey_incr, TimSt.setPort_incr, TimSt.publish_incr, State.partWrite_kept, ite_self, implies_true]; done) | (simp [State.kept_mk, State.kept_fold, kept_ite, kept_ite_fst, TimSt.setPin_incr, TimSt.setKey_incr, TimSt.setPort_incr, TimSt.publish_incr, State.partWrite_kept]; done))
theorem State.subStore_kept (s : State) (i : Nat) : (State.subStore s i).kept = s.kept := by
  unfold State.subStore; try dsimp only
  (repeat' split) <;> (first | done | (simp only [State.kept_mk, State.kept_fold, kept_ite, kept_ite_fst, TimSt.setPin_incr, TimSt.setKey_incr, TimSt.setPort_incr, TimSt.publish_incr, State.cacheCount_kept, State.subBytes_kept, ite_self, implies_true]; done) | (simp [State.kept_mk, State.kept_fold, kept_ite, kept_ite_fst, TimSt.setPin_incr, TimSt.setKey_incr, TimSt.setPort_incr, TimSt.publish_incr, State.cacheCount_kept, State.subBytes_kept]; done))
theorem State.putSub_kept (s : State) (i : Nat) (u : Sub) : (State.putSub s i u).kept = s.kept := by
  simp only [State.putSub, State.kept_mk, State.kept_fold, kept_ite, kept_ite_fst, TimSt.setPin_incr, TimSt.setKey_incr, TimSt.setPort_incr, TimSt.publish_incr, State.subStore_kept, ite_self, implies_true]
theorem State.cacheIn_kept (s : State) (i : Nat) : (State.cacheIn s i).kept = s.kept := by
  simp only [State.cacheIn, State.kept_mk, State.kept_fold, kept_ite, kept_ite_fst, TimSt.setPin_incr, TimSt.setKey_incr, TimSt.setPort_incr, TimSt.publish_incr, State.cacheCount_kept, ite_self, implies_true]
theorem State.subFetch_kept (s : State) (k i : Nat) : (State.subFetch s k i).kept = s.kept := by
  unfold State.subFetch; try dsimp only
  (repeat' split) <;> (first | done | (simp only [State.kept_mk, State.kept_fold, kept_ite, kept_ite_fst, TimSt.setPin_incr, TimSt.setKey_incr, TimSt.setPort_incr, TimSt.publish_incr, State.cacheIn_kept, ite_self, implies_true]; done) | (simp [State.kept_mk, State.kept_fold, kept_ite, kept_ite_fst, TimSt.setPin_incr, TimSt.setKey_incr, TimSt.setPort_incr, TimSt.publish_incr, State.cacheIn_kept]; done))
theorem State.subVisit_kept (s : State) (k i : Nat) : (State.subVisit s k i).kept = s.kept := by
  simp only [State.subVisit, State.kept_mk, State.kept_fold, kept_ite, kept_ite_fst, TimSt.setPin_incr, TimSt.setKey_incr, TimSt.setPort_incr, TimSt.publish_incr, State.subFetch_kept, ite_self, implies_true]
theorem State.keyRequest_kept (s : State) (i : Nat) : (State.keyRequest s i).kept = s.kept := by
  unfold State.keyRequest; try dsimp only
  (repeat' split) <;> (first | done | (simp only [State.kept_mk, State.kept_fold, kept_ite, kept_ite_fst, TimSt.setPin_incr, TimSt.setKey_incr, TimSt.setPort_incr, TimSt.publish_incr, ite_self, implies_true]; done) | (simp [State.kept_mk, State.kept_fold, kept_ite, kept_ite_fst, TimSt.setPin_incr, TimSt.setKey_incr, TimSt.setPort_incr, TimSt.publish_incr]; done))
theorem State.keyAnswer_kept (s : State) (i : Nat) : (State.keyAnswer s i).kept = s.kept := by
  unfold State.keyAnswer; try dsimp only
  (repeat' split) <;> (first | done | (simp only [State.kept_mk, State.kept_fold, kept_ite, kept_ite_fst, TimSt.setPin_incr, TimSt.setKey_incr, TimSt.setPort_incr, TimSt.publish_incr, ite_self, implies_true]; done) | (simp [State.kept_mk, State.kept_fold, kept_ite, kept_ite_fst, TimSt.setPin_incr, TimSt.setKey_incr, TimSt.setPort_incr, TimSt.publish_incr]; done))
theorem State.raiseTgt_kept (s : State) (i : Nat) (u : Sub) (tS tT : Nat) : (State.raiseTgt s i u tS tT).kept = s.kept := by
  simp only [State.raiseTgt, State.kept_mk, State.kept_fold, kept_ite, kept_ite_fst, TimSt.setPin_incr, TimSt.setKey_incr, TimSt.setPort_incr, TimSt.publish_incr, State.putSub_kept, ite_self, implies_true]
theorem State.setTgt_kept (s : State) (i : Nat) (u : Sub) (tS tT : Nat) (none_ : Bool) : (State.setTgt s i u tS tT none_).kept = s.kept := by
  simp only [State.setTgt, State.kept_mk, State.kept_fold, kept_ite, kept_ite_fst, TimSt.setPin_incr, TimSt.setKey_incr, TimSt.setPort_incr, TimSt.publish_incr, State.keyRequest_kept, State.putSub_kept, State.raiseTgt_kept, ite_self, implies_true]
theorem State.bindPolicy_kept (s : State) (i : Nat) (u : Sub) (p : Nat × Nat × Nat) (new : Bool) : (State.bindPolicy s i u p new).kept = s.kept := by
  simp only [State.bindPolicy, State.kept_mk, State.kept_fold, kept_ite, kept_ite_fst, TimSt.setPin_incr, TimSt.setKey_incr, TimSt.setPort_incr, TimSt.publish_incr, State.keyRequest_kept, State.putSub_kept, State.setTgt_kept, ite_self, implies_true]
theorem State.refollow_kept (s : State) (base : Nat) : (State.refollow s base).kept = s.kept := by
  unfold State.refollow; try dsimp only
  (repeat' split) <;> (first | done | (simp only [State.kept_mk, State.kept_fold, kept_ite, kept_ite_fst, TimSt.setPin_incr, TimSt.setKey_incr, TimSt.setPort_incr, TimSt.publish_incr, State.setTgt_kept, kept_foldl, ite_self, implies_true]; done) | (simp [State.kept_mk, State.kept_fold, kept_ite, kept_ite_fst, TimSt.setPin_incr, TimSt.setKey_incr, TimSt.setPort_incr, TimSt.publish_incr, State.setTgt_kept, kept_foldl]; done) | (refine (kept_foldl _ (fun a b => ?_) _ _).trans ?_ <;> (try dsimp only) <;> (repeat' split) <;> (first | (simp only [State.kept_mk, State.kept_fold, kept_ite, kept_ite_fst, TimSt.setPin_incr, TimSt.setKey_incr, TimSt.setPort_incr, TimSt.publish_incr, State.setTgt_kept, kept_foldl, ite_self, implies_true]; done) | (simp [State.kept_mk, State.kept_fold, kept_ite, kept_ite_fst, TimSt.setPin_incr, TimSt.setKey_incr, TimSt.setPort_incr, TimSt.publish_incr, State.setTgt_kept, kept_foldl]; done))))
theorem State.allocApply_kept (s : State) (i : Nat) (r : Option (Nat × Nat)) : (State.allocApply s i r).kept = s.kept := by
  unfold State.allocApply; try dsimp only
  (repeat' split) <;> (first | done | (simp only [State.kept_mk, State.kept_fold, kept_ite, kept_ite_fst, TimSt.setPin_incr, TimSt.setKey_incr, TimSt.setPort_incr, TimSt.publish_incr, State.putSub_kept, State.setTgt_kept, ite_self, implies_true]; done) | (simp [State.kept_mk, State.kept_fold, kept_ite, kept_ite_fst, TimSt.setPin_incr, TimSt.setKey_incr, TimSt.setPort_incr, TimSt.publish_incr, State.putSub_kept, State.setTgt_kept]; done))
theorem State.allocate_kept (s : State) (leg : Nat) : (State.allocate s leg).kept = s.kept := by
  unfold State.allocate; try dsimp only
  (repeat' split) <;> (first | done | (simp only [State.kept_mk, State.kept_fold, kept_ite, kept_ite_fst, TimSt.setPin_incr, TimSt.setKey_incr, TimSt.setPort_incr, TimSt.publish_incr, State.allocApply_kept, kept_foldl, ite_self, implies_true]; done) | (simp [State.kept_mk, State.kept_fold, kept_ite, kept_ite_fst, TimSt.setPin_incr, TimSt.setKey_incr, TimSt.setPort_incr, TimSt.publish_incr, State.allocApply_kept, kept_foldl]; done))
theorem State.cacheRoom_kept (s : State) (k n : Nat) (x0 : Nat) : (State.cacheRoom s k n x0).kept = s.kept := by
  induction x0 generalizing s k n with
  | zero => simp [State.cacheRoom, State.kept_mk, State.kept_fold, kept_ite, kept_ite_fst, TimSt.setPin_incr, TimSt.setKey_incr, TimSt.setPort_incr, TimSt.publish_incr]
  | succ n ih => simp [State.cacheRoom, State.kept_mk, State.kept_fold, kept_ite, kept_ite_fst, TimSt.setPin_incr, TimSt.setKey_incr, TimSt.setPort_incr, TimSt.publish_incr, ih]
theorem State.cacheStore_kept (s : State) (stream seq : Nat) (pkt : List Byte) : (State.cacheStore s stream seq pkt).kept = s.kept := by
  simp only [State.cacheStore, State.kept_mk, State.kept_fold, kept_ite, kept_ite_fst, TimSt.setPin_incr, TimSt.setKey_incr, TimSt.setPort_incr, TimSt.publish_incr, State.cacheRoom_kept, ite_self, implies_true]
theorem State.cacheIndex_kept (s : State) (leg : Nat) (e : IdxEntry) : (State.cacheIndex s leg e).kept = s.kept := by
  simp only [State.cacheIndex, State.kept_mk, State.kept_fold, kept_ite, kept_ite_fst, TimSt.setPin_incr, TimSt.setKey_incr, TimSt.setPort_incr, TimSt.publish_incr, State.cacheRoom_kept, ite_self, implies_true]
theorem State.departed_kept (s : State) (leg bytes : Nat) (idx : Option IdxEntry) : (State.departed s leg bytes idx).kept = s.kept := by
  unfold State.departed; try dsimp only
  (repeat' split) <;> (first | done | (simp only [State.kept_mk, State.kept_fold, kept_ite, kept_ite_fst, TimSt.setPin_incr, TimSt.setKey_incr, TimSt.setPort_incr, TimSt.publish_incr, State.cacheIndex_kept, ite_self, implies_true]; done) | (simp [State.kept_mk, State.kept_fold, kept_ite, kept_ite_fst, TimSt.setPin_incr, TimSt.setKey_incr, TimSt.setPort_incr, TimSt.publish_incr, State.cacheIndex_kept]; done))
theorem State.flitSend_kept (s : State) (n : Nat) (f : JlFlit) : (State.flitSend s n f).kept = s.kept := by
  simp only [State.flitSend, State.kept_mk, State.kept_fold, kept_ite, kept_ite_fst, TimSt.setPin_incr, TimSt.setKey_incr, TimSt.setPort_incr, TimSt.publish_incr, State.cipher_kept, State.flitOut_kept, State.jlDrop_kept, State.setLink_kept, ite_self, implies_true]
theorem State.jlPumpList_kept (s : State) (n : Nat) (x0 : List JlFlit) (x1 : List Nat) : (State.jlPumpList s n x0 x1).kept = s.kept := by
  induction x0 generalizing s n x1 with
  | nil => simp [State.jlPumpList, State.kept_mk, State.kept_fold, kept_ite, kept_ite_fst, TimSt.setPin_incr, TimSt.setKey_incr, TimSt.setPort_incr, TimSt.publish_incr, State.flitSend_kept, State.setLink_kept]
  | cons a l ih => simp [State.jlPumpList, State.kept_mk, State.kept_fold, kept_ite, kept_ite_fst, TimSt.setPin_incr, TimSt.setKey_incr, TimSt.setPort_incr, TimSt.publish_incr, State.flitSend_kept, State.setLink_kept, ih]
theorem State.jlPump_kept (s : State) (n : Nat) : (State.jlPump s n).kept = s.kept := by
  simp only [State.jlPump, State.kept_mk, State.kept_fold, kept_ite, kept_ite_fst, TimSt.setPin_incr, TimSt.setKey_incr, TimSt.setPort_incr, TimSt.publish_incr, State.jlPumpList_kept, State.setLink_kept, ite_self, implies_true]
theorem State.jlForward_kept (s : State) (dev : Nat) (fs : List JlFlit) (event : Bool) : (State.jlForward s dev fs event).kept = s.kept := by
  unfold State.jlForward; try dsimp only
  (repeat' split) <;> (first | done | (simp only [State.kept_mk, State.kept_fold, kept_ite, kept_ite_fst, TimSt.setPin_incr, TimSt.setKey_incr, TimSt.setPort_incr, TimSt.publish_incr, State.jlDrop_kept, State.jlPump_kept, State.setLink_kept, ite_self, implies_true]; done) | (simp [State.kept_mk, State.kept_fold, kept_ite, kept_ite_fst, TimSt.setPin_incr, TimSt.setKey_incr, TimSt.setPort_incr, TimSt.publish_incr, State.jlDrop_kept, State.jlPump_kept, State.setLink_kept]; done))
theorem State.jlSend_kept (s : State) (dev kind vc : Nat) (payload : List Byte) : (State.jlSend s dev kind vc payload).kept = s.kept := by
  simp only [State.jlSend, State.kept_mk, State.kept_fold, kept_ite, kept_ite_fst, TimSt.setPin_incr, TimSt.setKey_incr, TimSt.setPort_incr, TimSt.publish_incr, State.jlForward_kept, ite_self, implies_true]
theorem State.jlSendAll_kept (s : State) (devs : List Nat) (kind vc : Nat) (payload : List Byte) : (State.jlSendAll s devs kind vc payload).kept = s.kept := by
  simp only [State.jlSendAll, State.kept_mk, State.kept_fold, kept_ite, kept_ite_fst, TimSt.setPin_incr, TimSt.setKey_incr, TimSt.setPort_incr, TimSt.publish_incr, State.jlSend_kept, kept_foldl, ite_self, implies_true]
theorem State.jlSvc_kept (s : State) (dev : Nat) (m : SvcMsg) : (State.jlSvc s dev m).kept = s.kept := by
  simp only [State.jlSvc, State.kept_mk, State.kept_fold, kept_ite, kept_ite_fst, TimSt.setPin_incr, TimSt.setKey_incr, TimSt.setPort_incr, TimSt.publish_incr, State.jlSend_kept, ite_self, implies_true]
theorem State.jlMedia_kept (s : State) (dev stream : Nat) (pkt : List Byte) : (State.jlMedia s dev stream pkt).kept = s.kept := by
  simp only [State.jlMedia, State.kept_mk, State.kept_fold, kept_ite, kept_ite_fst, TimSt.setPin_incr, TimSt.setKey_incr, TimSt.setPort_incr, TimSt.publish_incr, State.jlSend_kept, ite_self, implies_true]
theorem State.jlCascade_kept (s : State) (dev chan p : Nat) (block : List Int) : (State.jlCascade s dev chan p block).kept = s.kept := by
  simp only [State.jlCascade, State.kept_mk, State.kept_fold, kept_ite, kept_ite_fst, TimSt.setPin_incr, TimSt.setKey_incr, TimSt.setPort_incr, TimSt.publish_incr, State.jlSend_kept, ite_self, implies_true]
theorem State.macsec_kept (s : State) (n p len : Nat) : (State.macsec s n p len).1.kept = s.kept := by
  simp only [State.macsec, State.kept_mk, State.kept_fold, kept_ite, kept_ite_fst, TimSt.setPin_incr, TimSt.setKey_incr, TimSt.setPort_incr, TimSt.publish_incr, State.cipher_kept, ite_self, implies_true]
theorem State.startFrame_kept (s : State) (n : Nat) (q : EgrQueue) : (State.startFrame s n q).kept = s.kept := by
  unfold State.startFrame; try dsimp only
  (repeat' split) <;> (first | done | (simp only [State.kept_mk, State.kept_fold, kept_ite, kept_ite_fst, TimSt.setPin_incr, TimSt.setKey_incr, TimSt.setPort_incr, TimSt.publish_incr, State.cipher_kept, State.departed_kept, State.dropOversize_kept, State.macsec_kept, State.setQueue_kept, ite_self, implies_true]; done) | (simp [State.kept_mk, State.kept_fold, kept_ite, kept_ite_fst, TimSt.setPin_incr, TimSt.setKey_incr, TimSt.setPort_incr, TimSt.publish_incr, State.cipher_kept, State.departed_kept, State.dropOversize_kept, State.macsec_kept, State.setQueue_kept]; done))
theorem execEgressSchedule_kept (p : Nat) (s : State) : ∃ t, execEgressSchedule p s = .next t ∧ t.kept = s.kept := by
  unfold execEgressSchedule; refine ⟨_, rfl, ?_⟩; try dsimp only
  (repeat' split) <;> (first | done | (simp only [State.kept_mk, State.kept_fold, kept_ite, kept_ite_fst, TimSt.setPin_incr, TimSt.setKey_incr, TimSt.setPort_incr, TimSt.publish_incr, State.dropPort_kept, State.startFrame_kept, ite_self, implies_true]; done) | (simp [State.kept_mk, State.kept_fold, kept_ite, kept_ite_fst, TimSt.setPin_incr, TimSt.setKey_incr, TimSt.setPort_incr, TimSt.publish_incr, State.dropPort_kept, State.startFrame_kept]; done))
theorem State.legSend_kept (s : State) (i : Nat) (l : Leg) (front : Bool) (n : Nat) (kind : String) (args : List Nat) (sec : Option CipItem)
    (idx : Option IdxEntry) : (State.legSend s i l front n kind args sec idx).kept = s.kept := by
  unfold State.legSend; try dsimp only
  (repeat' split) <;> (first | done | (simp only [State.kept_mk, State.kept_fold, kept_ite, kept_ite_fst, TimSt.setPin_incr, TimSt.setKey_incr, TimSt.setPort_incr, TimSt.publish_incr, State.cipher_kept, State.departed_kept, State.enqueue_kept, State.jlMedia_kept, State.jlSvc_kept, ite_self, implies_true]; done) | (simp [State.kept_mk, State.kept_fold, kept_ite, kept_ite_fst, TimSt.setPin_incr, TimSt.setKey_incr, TimSt.setPort_incr, TimSt.publish_incr, State.cipher_kept, State.departed_kept, State.enqueue_kept, State.jlMedia_kept, State.jlSvc_kept]; done))
theorem State.legCount_kept (s : State) (i : Nat) (f : LegCnt → LegCnt) : (State.legCount s i f).kept = s.kept := by
  simp only [State.legCount, State.kept_mk, State.kept_fold, kept_ite, kept_ite_fst, TimSt.setPin_incr, TimSt.setKey_incr, TimSt.setPort_incr, TimSt.publish_incr, ite_self, implies_true]
theorem State.rtcpSend_kept (s : State) (i : Nat) (kind : String) (b : List Byte) : (State.rtcpSend s i kind b).kept = s.kept := by
  unfold State.rtcpSend; try dsimp only
  (repeat' split) <;> (first | done | (simp only [State.kept_mk, State.kept_fold, kept_ite, kept_ite_fst, TimSt.setPin_incr, TimSt.setKey_incr, TimSt.setPort_incr, TimSt.publish_incr, State.legSend_kept, ite_self, implies_true]; done) | (simp [State.kept_mk, State.kept_fold, kept_ite, kept_ite_fst, TimSt.setPin_incr, TimSt.setKey_incr, TimSt.setPort_incr, TimSt.publish_incr, State.legSend_kept]; done))
theorem State.feedback_kept (s : State) (leg : Nat) (kind : String) (fmt pt media : Nat) (fci : List Byte) : (State.feedback s leg kind fmt pt media fci).kept = s.kept := by
  simp only [State.feedback, State.kept_mk, State.kept_fold, kept_ite, kept_ite_fst, TimSt.setPin_incr, TimSt.setKey_incr, TimSt.setPort_incr, TimSt.publish_incr, State.rtcpSend_kept, ite_self, implies_true]
theorem State.sendBye_kept (s : State) (leg ssrc : Nat) : (State.sendBye s leg ssrc).kept = s.kept := by
  simp only [State.sendBye, State.kept_mk, State.kept_fold, kept_ite, kept_ite_fst, TimSt.setPin_incr, TimSt.setKey_incr, TimSt.setPort_incr, TimSt.publish_incr, State.rtcpSend_kept, ite_self, implies_true]
theorem State.markOut_kept (s : State) (i : Nat) : (State.markOut s i).kept = s.kept := by
  unfold State.markOut; try dsimp only
  (repeat' split) <;> (first | done | (simp only [State.kept_mk, State.kept_fold, kept_ite, kept_ite_fst, TimSt.setPin_incr, TimSt.setKey_incr, TimSt.setPort_incr, TimSt.publish_incr, State.sendBye_kept, ite_self, implies_true]; done) | (simp [State.kept_mk, State.kept_fold, kept_ite, kept_ite_fst, TimSt.setPin_incr, TimSt.setKey_incr, TimSt.setPort_incr, TimSt.publish_incr, State.sendBye_kept]; done))
theorem State.markLeg_kept (s : State) (i : Nat) : (State.markLeg s i).kept = s.kept := by
  unfold State.markLeg; try dsimp only
  (repeat' split) <;> (first | done | (simp only [State.kept_mk, State.kept_fold, kept_ite, kept_ite_fst, TimSt.setPin_incr, TimSt.setKey_incr, TimSt.setPort_incr, TimSt.publish_incr, State.dblLegGone_kept, State.markIn_kept, State.markOut_kept, kept_foldl, ite_self, implies_true]; done) | (simp [State.kept_mk, State.kept_fold, kept_ite, kept_ite_fst, TimSt.setPin_incr, TimSt.setKey_incr, TimSt.setPort_incr, TimSt.publish_incr, State.dblLegGone_kept, State.markIn_kept, State.markOut_kept, kept_foldl]; done))
theorem execConfDestroy_kept (e : CmdEnv) (body : List Byte) (s : State) : ∃ t, execConfDestroy e body s = .next t ∧ t.kept = s.kept := by
  unfold execConfDestroy; refine ⟨_, rfl, ?_⟩; try dsimp only
  (repeat' split) <;> (first | done | (simp only [State.kept_mk, State.kept_fold, kept_ite, kept_ite_fst, TimSt.setPin_incr, TimSt.setKey_incr, TimSt.setPort_incr, TimSt.publish_incr, State.done_kept, State.markLeg_kept, State.removal_kept, kept_foldl, ite_self, implies_true]; done) | (simp [State.kept_mk, State.kept_fold, kept_ite, kept_ite_fst, TimSt.setPin_incr, TimSt.setKey_incr, TimSt.setPort_incr, TimSt.publish_incr, State.done_kept, State.markLeg_kept, State.removal_kept, kept_foldl]; done))
theorem execLegRemove_kept (e : CmdEnv) (body : List Byte) (s : State) : ∃ t, execLegRemove e body s = .next t ∧ t.kept = s.kept := by
  unfold execLegRemove; refine ⟨_, rfl, ?_⟩; try dsimp only
  (repeat' split) <;> (first | done | (simp only [State.kept_mk, State.kept_fold, kept_ite, kept_ite_fst, TimSt.setPin_incr, TimSt.setKey_incr, TimSt.setPort_incr, TimSt.publish_incr, State.done_kept, State.markLeg_kept, State.removal_kept, ite_self, implies_true]; done) | (simp [State.kept_mk, State.kept_fold, kept_ite, kept_ite_fst, TimSt.setPin_incr, TimSt.setKey_incr, TimSt.setPort_incr, TimSt.publish_incr, State.done_kept, State.markLeg_kept, State.removal_kept]; done))
theorem execStreamDel_kept (e : CmdEnv) (body : List Byte) (s : State) : ∃ t, execStreamDel e body s = .next t ∧ t.kept = s.kept := by
  unfold execStreamDel; refine ⟨_, rfl, ?_⟩; try dsimp only
  (repeat' split) <;> (first | done | (simp only [State.kept_mk, State.kept_fold, kept_ite, kept_ite_fst, TimSt.setPin_incr, TimSt.setKey_incr, TimSt.setPort_incr, TimSt.publish_incr, State.done_kept, State.markIn_kept, State.markOut_kept, State.removal_kept, ite_self, implies_true]; done) | (simp [State.kept_mk, State.kept_fold, kept_ite, kept_ite_fst, TimSt.setPin_incr, TimSt.setKey_incr, TimSt.setPort_incr, TimSt.publish_incr, State.done_kept, State.markIn_kept, State.markOut_kept, State.removal_kept]; done))
theorem State.subAdd_kept (s : State) (i : Nat) (u : Sub) (pol : Nat) : (State.subAdd s i u pol).kept = s.kept := by
  unfold State.subAdd; try dsimp only
  (repeat' split) <;> (first | done | (simp only [State.kept_mk, State.kept_fold, kept_ite, kept_ite_fst, TimSt.setPin_incr, TimSt.setKey_incr, TimSt.setPort_incr, TimSt.publish_incr, State.allocate_kept, State.bindPolicy_kept, State.cacheIn_kept, State.subStore_kept, ite_self, implies_true]; done) | (simp [State.kept_mk, State.kept_fold, kept_ite, kept_ite_fst, TimSt.setPin_incr, TimSt.setKey_incr, TimSt.setPort_incr, TimSt.publish_incr, State.allocate_kept, State.bindPolicy_kept, State.cacheIn_kept, State.subStore_kept]; done))
theorem execSubAdd_kept (e : CmdEnv) (body : List Byte) (s : State) : ∃ t, execSubAdd e body s = .next t ∧ t.kept = s.kept := by
  unfold execSubAdd; refine ⟨_, rfl, ?_⟩; try dsimp only
  (repeat' split) <;> (first | done | (simp only [State.kept_mk, State.kept_fold, kept_ite, kept_ite_fst, TimSt.setPin_incr, TimSt.setKey_incr, TimSt.setPort_incr, TimSt.publish_incr, State.done_kept, State.hold_kept, State.subAdd_kept, ite_self, implies_true]; done) | (simp [State.kept_mk, State.kept_fold, kept_ite, kept_ite_fst, TimSt.setPin_incr, TimSt.setKey_incr, TimSt.setPort_incr, TimSt.publish_incr, State.done_kept, State.hold_kept, State.subAdd_kept]; done))
theorem State.subModify_kept (s : State) (i : Nat) (x u : Sub) (pol : Nat) : (State.subModify s i x u pol).kept = s.kept := by
  simp only [State.subModify, State.kept_mk, State.kept_fold, kept_ite, kept_ite_fst, TimSt.setPin_incr, TimSt.setKey_incr, TimSt.setPort_incr, TimSt.publish_incr, State.allocate_kept, State.putSub_kept, ite_self, implies_true]
theorem execSubModify_kept (e : CmdEnv) (body : List Byte) (s : State) : ∃ t, execSubModify e body s = .next t ∧ t.kept = s.kept := by
  unfold execSubModify; refine ⟨_, rfl, ?_⟩; try dsimp only
  (repeat' split) <;> (first | done | (simp only [State.kept_mk, State.kept_fold, kept_ite, kept_ite_fst, TimSt.setPin_incr, TimSt.setKey_incr, TimSt.setPort_incr, TimSt.publish_incr, State.done_kept, State.hold_kept, State.subModify_kept, ite_self, implies_true]; done) | (simp [State.kept_mk, State.kept_fold, kept_ite, kept_ite_fst, TimSt.setPin_incr, TimSt.setKey_incr, TimSt.setPort_incr, TimSt.publish_incr, State.done_kept, State.hold_kept, State.subModify_kept]; done))
theorem State.subGone_kept (s : State) (i : Nat) (x : Sub) : (State.subGone s i x).kept = s.kept := by
  simp only [State.subGone, State.kept_mk, State.kept_fold, kept_ite, kept_ite_fst, TimSt.setPin_incr, TimSt.setKey_incr, TimSt.setPort_incr, TimSt.publish_incr, State.allocate_kept, State.putSub_kept, ite_self, implies_true]
theorem execSubDel_kept (e : CmdEnv) (body : List Byte) (s : State) : ∃ t, execSubDel e body s = .next t ∧ t.kept = s.kept := by
  unfold execSubDel; refine ⟨_, rfl, ?_⟩; try dsimp only
  (repeat' split) <;> (first | done | (simp only [State.kept_mk, State.kept_fold, kept_ite, kept_ite_fst, TimSt.setPin_incr, TimSt.setKey_incr, TimSt.setPort_incr, TimSt.publish_incr, State.done_kept, State.hold_kept, State.removal_kept, State.subGone_kept, ite_self, implies_true]; done) | (simp [State.kept_mk, State.kept_fold, kept_ite, kept_ite_fst, TimSt.setPin_incr, TimSt.setKey_incr, TimSt.setPort_incr, TimSt.publish_incr, State.done_kept, State.hold_kept, State.removal_kept, State.subGone_kept]; done))
theorem State.dropSub_kept (s : State) (i : Nat) : (State.dropSub s i).kept = s.kept := by
  unfold State.dropSub; try dsimp only
  (repeat' split) <;> (first | done | (simp only [State.kept_mk, State.kept_fold, kept_ite, kept_ite_fst, TimSt.setPin_incr, TimSt.setKey_incr, TimSt.setPort_incr, TimSt.publish_incr, State.subStore_kept, kept_foldl, ite_self, implies_true]; done) | (simp [State.kept_mk, State.kept_fold, kept_ite, kept_ite_fst, TimSt.setPin_incr, TimSt.setKey_incr, TimSt.setPort_incr, TimSt.publish_incr, State.subStore_kept, kept_foldl]; done))
theorem State.dropObject_kept (s : State) (kind id : Nat) : (State.dropObject s kind id).kept = s.kept := by
  unfold State.dropObject; try dsimp only
  (repeat' split) <;> (first | done | (simp only [State.kept_mk, State.kept_fold, kept_ite, kept_ite_fst, TimSt.setPin_incr, TimSt.setKey_incr, TimSt.setPort_incr, TimSt.publish_incr, State.dropSub_kept, kept_foldl, ite_self, implies_true]; done) | (simp [State.kept_mk, State.kept_fold, kept_ite, kept_ite_fst, TimSt.setPin_incr, TimSt.setKey_incr, TimSt.setPort_incr, TimSt.publish_incr, State.dropSub_kept, kept_foldl]; done))
theorem State.removed_kept (s : State) (r : Removal) : (State.removed s r).kept = s.kept := by
  unfold State.removed; try dsimp only
  (repeat' split) <;> (first | done | (simp only [State.kept_mk, State.kept_fold, kept_ite, kept_ite_fst, TimSt.setPin_incr, TimSt.setKey_incr, TimSt.setPort_incr, TimSt.publish_incr, State.done_kept, State.dropObject_kept, ite_self, implies_true]; done) | (simp [State.kept_mk, State.kept_fold, kept_ite, kept_ite_fst, TimSt.setPin_incr, TimSt.setKey_incr, TimSt.setPort_incr, TimSt.publish_incr, State.done_kept, State.dropObject_kept]; done))
theorem execRemovalDrainDone_kept (kind id : Nat) (s : State) : ∃ t, execRemovalDrainDone kind id s = .next t ∧ t.kept = s.kept := by
  unfold execRemovalDrainDone; refine ⟨_, rfl, ?_⟩; try dsimp only
  (repeat' split) <;> (first | done | (simp only [State.kept_mk, State.kept_fold, kept_ite, kept_ite_fst, TimSt.setPin_incr, TimSt.setKey_incr, TimSt.setPort_incr, TimSt.publish_incr, State.removed_kept, ite_self, implies_true]; done) | (simp [State.kept_mk, State.kept_fold, kept_ite, kept_ite_fst, TimSt.setPin_incr, TimSt.setKey_incr, TimSt.setPort_incr, TimSt.publish_incr, State.removed_kept]; done))
theorem execKeyReq_kept (e : CmdEnv) (body : List Byte) (s : State) : ∃ t, execKeyReq e body s = .next t ∧ t.kept = s.kept := by
  unfold execKeyReq; refine ⟨_, rfl, ?_⟩; try dsimp only
  (repeat' split) <;> (first | done | (simp only [State.kept_mk, State.kept_fold, kept_ite, kept_ite_fst, TimSt.setPin_incr, TimSt.setKey_incr, TimSt.setPort_incr, TimSt.publish_incr, State.done_kept, State.keyRequest_kept, ite_self, implies_true]; done) | (simp [State.kept_mk, State.kept_fold, kept_ite, kept_ite_fst, TimSt.setPin_incr, TimSt.setKey_incr, TimSt.setPort_incr, TimSt.publish_incr, State.done_kept, State.keyRequest_kept]; done))
theorem State.fwdChange_kept (s : State) (i : Instr) : (State.fwdChange s i).kept = s.kept := by
  unfold State.fwdChange; try dsimp only
  (repeat' split) <;> (first | done | (simp only [State.kept_mk, State.kept_fold, kept_ite, kept_ite_fst, TimSt.setPin_incr, TimSt.setKey_incr, TimSt.setPort_incr, TimSt.publish_incr, State.legModify_kept, State.removal_kept, State.subAdd_kept, State.subGone_kept, State.subModify_kept, ite_self, implies_true]; done) | (simp [State.kept_mk, State.kept_fold, kept_ite, kept_ite_fst, TimSt.setPin_incr, TimSt.setKey_incr, TimSt.setPort_incr, TimSt.publish_incr, State.legModify_kept, State.removal_kept, State.subAdd_kept, State.subGone_kept, State.subModify_kept]; done))
theorem execConsentRequestTimer_kept (leg : Nat) (s : State) : ∃ t, execConsentRequestTimer leg s = .next t ∧ t.kept = s.kept := by
  unfold execConsentRequestTimer; refine ⟨_, rfl, ?_⟩; try dsimp only
  (repeat' split) <;> (first | done | (simp only [State.kept_mk, State.kept_fold, kept_ite, kept_ite_fst, TimSt.setPin_incr, TimSt.setKey_incr, TimSt.setPort_incr, TimSt.publish_incr, State.legSend_kept, State.stun_kept, ite_self, implies_true]; done) | (simp [State.kept_mk, State.kept_fold, kept_ite, kept_ite_fst, TimSt.setPin_incr, TimSt.setKey_incr, TimSt.setPort_incr, TimSt.publish_incr, State.legSend_kept, State.stun_kept]; done))
theorem State.pictureLost_kept (s : State) (leg ssrc : Nat) : (State.pictureLost s leg ssrc).kept = s.kept := by
  simp only [State.pictureLost, State.kept_mk, State.kept_fold, kept_ite, kept_ite_fst, TimSt.setPin_incr, TimSt.setKey_incr, TimSt.setPort_incr, TimSt.publish_incr, State.keyRequest_kept, kept_foldl, ite_self, implies_true]
theorem State.retransmit_kept (s : State) (leg : Nat) (l : Leg) (o : Nat) (os : OutStream) (e : IdxEntry) (p : Stored) : (State.retransmit s leg l o os e p).kept = s.kept := by
  simp only [State.retransmit, State.kept_mk, State.kept_fold, kept_ite, kept_ite_fst, TimSt.setPin_incr, TimSt.setKey_incr, TimSt.setPort_incr, TimSt.publish_incr, State.legCount_kept, State.legSend_kept, ite_self, implies_true]
theorem State.nack_kept (s : State) (leg o seq : Nat) : (State.nack s leg o seq).kept = s.kept := by
  unfold State.nack; try dsimp only
  (repeat' split) <;> (first | done | (simp only [State.kept_mk, State.kept_fold, kept_ite, kept_ite_fst, TimSt.setPin_incr, TimSt.setKey_incr, TimSt.setPort_incr, TimSt.publish_incr, State.jlSvc_kept, State.nackMiss_kept, State.retransmit_kept, ite_self, implies_true]; done) | (simp [State.kept_mk, State.kept_fold, kept_ite, kept_ite_fst, TimSt.setPin_incr, TimSt.setKey_incr, TimSt.setPort_incr, TimSt.publish_incr, State.jlSvc_kept, State.nackMiss_kept, State.retransmit_kept]; done))
theorem State.rtcpPacket_kept (s : State) (leg : Nat) (b : List Byte) : (State.rtcpPacket s leg b).kept = s.kept := by
  unfold State.rtcpPacket; try dsimp only
  (repeat' split) <;> (first | done | (simp only [State.kept_mk, State.kept_fold, kept_ite, kept_ite_fst, TimSt.setPin_incr, TimSt.setKey_incr, TimSt.setPort_incr, TimSt.publish_incr, State.bye_kept, State.nack_kept, State.parseBad_kept, State.pictureLost_kept, State.reportBlocks_kept, State.sdes_kept, State.setEst_kept, State.srMapping_kept, kept_foldl, ite_self, implies_true]; done) | (simp [State.kept_mk, State.kept_fold, kept_ite, kept_ite_fst, TimSt.setPin_incr, TimSt.setKey_incr, TimSt.setPort_incr, TimSt.publish_incr, State.bye_kept, State.nack_kept, State.parseBad_kept, State.pictureLost_kept, State.reportBlocks_kept, State.sdes_kept, State.setEst_kept, State.srMapping_kept, kept_foldl]; done))
theorem State.rtcpCompound_kept (s : State) (leg : Nat) (x0 : Nat) (x1 : List Byte) : (State.rtcpCompound s leg x0 x1).kept = s.kept := by
  induction x0 generalizing s leg x1 with
  | zero => simp [State.rtcpCompound, State.kept_mk, State.kept_fold, kept_ite, kept_ite_fst, TimSt.setPin_incr, TimSt.setKey_incr, TimSt.setPort_incr, TimSt.publish_incr, State.parseBad_kept, State.rtcpPacket_kept]
  | succ n ih => simp [State.rtcpCompound, State.kept_mk, State.kept_fold, kept_ite, kept_ite_fst, TimSt.setPin_incr, TimSt.setKey_incr, TimSt.setPort_incr, TimSt.publish_incr, State.parseBad_kept, State.rtcpPacket_kept, ih]
theorem State.fecSend_kept (s : State) (o base ts l d : Nat) (pkts : List (List Byte)) : (State.fecSend s o base ts l d pkts).kept = s.kept := by
  unfold State.fecSend; try dsimp only
  (repeat' split) <;> (first | done | (simp only [State.kept_mk, State.kept_fold, kept_ite, kept_ite_fst, TimSt.setPin_incr, TimSt.setKey_incr, TimSt.setPort_incr, TimSt.publish_incr, State.legSend_kept, ite_self, implies_true]; done) | (simp [State.kept_mk, State.kept_fold, kept_ite, kept_ite_fst, TimSt.setPin_incr, TimSt.setKey_incr, TimSt.setPort_incr, TimSt.publish_incr, State.legSend_kept]; done))
theorem State.fecDue_kept (s : State) (o seq ts : Nat) (b : List Byte) : (State.fecDue s o seq ts b).kept = s.kept := by
  unfold State.fecDue; try dsimp only
  (repeat' split) <;> (first | done | (simp only [State.kept_mk, State.kept_fold, kept_ite, kept_ite_fst, TimSt.setPin_incr, TimSt.setKey_incr, TimSt.setPort_incr, TimSt.publish_incr, State.fecSend_kept, kept_foldl, ite_self, implies_true]; done) | (simp [State.kept_mk, State.kept_fold, kept_ite, kept_ite_fst, TimSt.setPin_incr, TimSt.setKey_incr, TimSt.setPort_incr, TimSt.publish_incr, State.fecSend_kept, kept_foldl]; done))
theorem State.copyOut_kept (s : State) (u : Sub) (k : Nat) (x : InStream) (p : Pkt) (seq ts : Nat) : (State.copyOut s u k x p seq ts).kept = s.kept := by
  unfold State.copyOut; try dsimp only
  (repeat' split) <;> (first | done | (simp only [State.kept_mk, State.kept_fold, kept_ite, kept_ite_fst, TimSt.setPin_incr, TimSt.setKey_incr, TimSt.setPort_incr, TimSt.publish_incr, State.fecDue_kept, State.legCount_kept, State.legSend_kept, ite_self, implies_true]; done) | (simp [State.kept_mk, State.kept_fold, kept_ite, kept_ite_fst, TimSt.setPin_incr, TimSt.setKey_incr, TimSt.setPort_incr, TimSt.publish_incr, State.fecDue_kept, State.legCount_kept, State.legSend_kept]; done))
theorem State.produce_kept (s : State) (o stream : Nat) (q : Rtp) : (State.produce s o stream q).kept = s.kept := by
  unfold State.produce; try dsimp only
  (repeat' split) <;> (first | done | (simp only [State.kept_mk, State.kept_fold, kept_ite, kept_ite_fst, TimSt.setPin_incr, TimSt.setKey_incr, TimSt.setPort_incr, TimSt.publish_incr, State.fecDue_kept, State.legCount_kept, State.legSend_kept, ite_self, implies_true]; done) | (simp [State.kept_mk, State.kept_fold, kept_ite, kept_ite_fst, TimSt.setPin_incr, TimSt.setKey_incr, TimSt.setPort_incr, TimSt.publish_incr, State.fecDue_kept, State.legCount_kept, State.legSend_kept]; done))
theorem State.copyRole_kept (s : State) (u : Sub) (k : Nat) (p : Pkt) : (State.copyRole s u k p).kept = s.kept := by
  unfold State.copyRole; try dsimp only
  (repeat' split) <;> (first | done | (simp only [State.kept_mk, State.kept_fold, kept_ite, kept_ite_fst, TimSt.setPin_incr, TimSt.setKey_incr, TimSt.setPort_incr, TimSt.publish_incr, State.jlMedia_kept, ite_self, implies_true]; done) | (simp [State.kept_mk, State.kept_fold, kept_ite, kept_ite_fst, TimSt.setPin_incr, TimSt.setKey_incr, TimSt.setPort_incr, TimSt.publish_incr, State.jlMedia_kept]; done))
theorem State.visit_kept (s : State) (k i : Nat) (x : InStream) (p : Pkt) : (State.visit s k i x p).kept = s.kept := by
  unfold State.visit; try dsimp only
  (repeat' split) <;> (first | done | (simp only [State.kept_mk, State.kept_fold, kept_ite, kept_ite_fst, TimSt.setPin_incr, TimSt.setKey_incr, TimSt.setPort_incr, TimSt.publish_incr, State.bindPolicy_kept, State.copyOut_kept, State.copyRole_kept, State.putSub_kept, ite_self, implies_true]; done) | (simp [State.kept_mk, State.kept_fold, kept_ite, kept_ite_fst, TimSt.setPin_incr, TimSt.setKey_incr, TimSt.setPort_incr, TimSt.publish_incr, State.bindPolicy_kept, State.copyOut_kept, State.copyRole_kept, State.putSub_kept]; done))
theorem State.walkFrom_kept (s : State) (k : Nat) (x : InStream) (p : Pkt) (x0 : Nat) (x1 : Option Nat) : (State.walkFrom s k x p x0 x1).kept = s.kept := by
  induction x0 generalizing s x1 with
  | zero => cases x1 <;> rfl
  | succ n ih =>
    cases x1 with
    | none => rfl
    | some i =>
      unfold State.walkFrom
      dsimp only
      (repeat' split) <;> simp only [ih, State.kept_mk, State.kept_fold, kept_ite, kept_ite_fst, TimSt.setPin_incr, TimSt.setKey_incr, TimSt.setPort_incr, TimSt.publish_incr, State.subVisit_kept, State.visit_kept]
theorem State.walk_kept (s : State) (x : InStream) (p : Pkt) (k : Nat) : (State.walk s x p k).kept = s.kept := by
  simp only [State.walk, State.kept_mk, State.kept_fold, kept_ite, kept_ite_fst, TimSt.setPin_incr, TimSt.setKey_incr, TimSt.setPort_incr, TimSt.publish_incr, State.walkFrom_kept, ite_self, implies_true]
theorem State.handRelay_kept (s : State) (i : Nat) (x : InStream) (raw : List Byte) : (State.handRelay s i x raw).kept = s.kept := by
  unfold State.handRelay; try dsimp only
  (repeat' split) <;> (first | done | (simp only [State.kept_mk, State.kept_fold, kept_ite, kept_ite_fst, TimSt.setPin_incr, TimSt.setKey_incr, TimSt.setPort_incr, TimSt.publish_incr, State.jlMedia_kept, ite_self, implies_true]; done) | (simp [State.kept_mk, State.kept_fold, kept_ite, kept_ite_fst, TimSt.setPin_incr, TimSt.setKey_incr, TimSt.setPort_incr, TimSt.publish_incr, State.jlMedia_kept]; done))
theorem State.ingest_kept (s : State) (i : Nat) (q : Rtp) (raw : List Byte) (y : RtpLayer) (ecn : Nat) (late : Bool) : (State.ingest s i q raw y ecn late).kept = s.kept := by
  unfold State.ingest; try dsimp only
  (repeat' split) <;> (first | done | (simp only [State.kept_mk, State.kept_fold, kept_ite, kept_ite_fst, TimSt.setPin_incr, TimSt.setKey_incr, TimSt.setPort_incr, TimSt.publish_incr, State.audLevel_kept, State.cacheStore_kept, State.handRelay_kept, State.keyAnswer_kept, State.refollow_kept, State.walk_kept, kept_foldl, ite_self, implies_true]; done) | (simp [State.kept_mk, State.kept_fold, kept_ite, kept_ite_fst, TimSt.setPin_incr, TimSt.setKey_incr, TimSt.setPort_incr, TimSt.publish_incr, State.audLevel_kept, State.cacheStore_kept, State.handRelay_kept, State.keyAnswer_kept, State.refollow_kept, State.walk_kept, kept_foldl]; done))
theorem State.fecLoop_kept (s : State) (i : Nat) (x0 : Nat) (x1 : List RtpLayer) : (State.fecLoop s i x0 x1).kept = s.kept := by
  induction x0 generalizing s i x1 with
  | zero => unfold State.fecLoop; (repeat' split) <;> simp [State.kept_mk, State.kept_fold, kept_ite, kept_ite_fst, TimSt.setPin_incr, TimSt.setKey_incr, TimSt.setPort_incr, TimSt.publish_incr, State.ingest_kept]
  | succ n ih =>
    unfold State.fecLoop; try dsimp only
    (repeat' split) <;> simp [State.kept_mk, State.kept_fold, kept_ite, kept_ite_fst, TimSt.setPin_incr, TimSt.setKey_incr, TimSt.setPort_incr, TimSt.publish_incr, State.ingest_kept, ih]
theorem State.fecTry_kept (s : State) (i : Nat) (ys : List RtpLayer) : (State.fecTry s i ys).kept = s.kept := by
  unfold State.fecTry; try dsimp only
  (repeat' split) <;> (first | done | (simp only [State.kept_mk, State.kept_fold, kept_ite, kept_ite_fst, TimSt.setPin_incr, TimSt.setKey_incr, TimSt.setPort_incr, TimSt.publish_incr, State.fecLoop_kept, ite_self, implies_true]; done) | (simp [State.kept_mk, State.kept_fold, kept_ite, kept_ite_fst, TimSt.setPin_incr, TimSt.setKey_incr, TimSt.setPort_incr, TimSt.publish_incr, State.fecLoop_kept]; done))
theorem State.admit_kept (s : State) (i : Nat) (x : InStream) (w : Replay) (f : RxFrame) (q : Rtp) : (State.passSec s i x w f q).1.kept = s.kept := by
  unfold State.passSec; try dsimp only
  (repeat' split) <;> (first | done | (simp only [State.kept_mk, State.kept_fold, kept_ite, kept_ite_fst, TimSt.setPin_incr, TimSt.setKey_incr, TimSt.setPort_incr, TimSt.publish_incr, State.cipher_kept, ite_self, implies_true]; done) | (simp [State.kept_mk, State.kept_fold, kept_ite, kept_ite_fst, TimSt.setPin_incr, TimSt.setKey_incr, TimSt.setPort_incr, TimSt.publish_incr, State.cipher_kept]; done))
theorem State.rtpMain_kept (s : State) (i : Nat) (x : InStream) (f : RxFrame) (q : Rtp) : (State.rtpMain s i x f q).kept = s.kept := by
  unfold State.rtpMain
  have ha := State.admit_kept s i x x.replay f q
  split
  · rename_i heq
    rw [heq] at ha
    exact ha
  · rename_i heq
    rw [heq] at ha
    simp only [State.kept_mk, State.kept_fold, kept_ite, kept_ite_fst, TimSt.setPin_incr, TimSt.setKey_incr, TimSt.setPort_incr, TimSt.publish_incr, State.admit_kept, State.fecTry_kept, State.ingest_kept]
    exact ha
theorem State.rtpRtx_kept (s : State) (i : Nat) (x : InStream) (f : RxFrame) (q : Rtp) : (State.rtpRtx s i x f q).kept = s.kept := by
  unfold State.rtpRtx
  dsimp only
  have ha := State.admit_kept s i x x.rtxReplay f q
  split
  · rename_i heq
    rw [heq] at ha
    exact ha
  · rename_i heq
    rw [heq] at ha
    simp only [State.kept_mk, State.kept_fold, kept_ite, kept_ite_fst, TimSt.setPin_incr, TimSt.setKey_incr, TimSt.setPort_incr, TimSt.publish_incr, State.admit_kept, State.fecTry_kept, State.ingest_kept]
    exact ha
theorem State.rtpFec_kept (s : State) (i : Nat) (x : InStream) (f : RxFrame) (q : Rtp) : (State.rtpFec s i x f q).kept = s.kept := by
  unfold State.rtpFec
  dsimp only
  have ha := State.admit_kept s i x x.fecReplay f q
  split
  · rename_i heq
    rw [heq] at ha
    exact ha
  · rename_i heq
    rw [heq] at ha
    simp only [State.kept_mk, State.kept_fold, kept_ite, kept_ite_fst, TimSt.setPin_incr, TimSt.setKey_incr, TimSt.setPort_incr, TimSt.publish_incr, State.admit_kept, State.fecTry_kept]
    exact ha
theorem State.rtp_kept (s : State) (leg k : Nat) (f : RxFrame) : (State.rtp s leg k f).kept = s.kept := by
  unfold State.rtp
  split
  · exact State.parseBad_kept ..
  · extract_lets s1 mine
    have h1 : s1.kept = s.kept := State.legCount_kept ..
    clear_value s1 mine
    split
    · exact (State.rtpMain_kept ..).trans h1
    · split
      · exact (State.rtpRtx_kept ..).trans h1
      · split
        · exact (State.rtpFec_kept ..).trans h1
        · split
          · exact (State.exception_kept ..).trans ((kept_hub s1 _).trans h1)
          · exact (kept_hub s1 _).trans h1
theorem State.legRtcp_kept (s : State) (i : Nat) (f : RxFrame) : (State.legRtcp s i f).kept = s.kept := by
  unfold State.legRtcp; try dsimp only
  (repeat' split) <;> (first | done | (simp only [State.kept_mk, State.kept_fold, kept_ite, kept_ite_fst, TimSt.setPin_incr, TimSt.setKey_incr, TimSt.setPort_incr, TimSt.publish_incr, State.cipher_kept, State.rtcpCompound_kept, ite_self, implies_true]; done) | (simp [State.kept_mk, State.kept_fold, kept_ite, kept_ite_fst, TimSt.setPin_incr, TimSt.setKey_incr, TimSt.setPort_incr, TimSt.publish_incr, State.cipher_kept, State.rtcpCompound_kept]; done))
theorem State.legFrame_kept (s : State) (i k : Nat) (f : RxFrame) : (State.legFrame s i k f).kept = s.kept := by
  simp only [State.legFrame, State.kept_mk, State.kept_fold, kept_ite, kept_ite_fst, TimSt.setPin_incr, TimSt.setKey_incr, TimSt.setPort_incr, TimSt.publish_incr, State.exception_kept, State.legRtcp_kept, State.parseBad_kept, State.rtp_kept, State.stun_kept, ite_self, implies_true]
theorem State.classify_kept (s : State) (f : RxFrame) : (State.classify s f).kept = s.kept := by
  unfold State.classify; try dsimp only
  (repeat' split) <;> (first | done | (simp only [State.kept_mk, State.kept_fold, kept_ite, kept_ite_fst, TimSt.setPin_incr, TimSt.setKey_incr, TimSt.setPort_incr, TimSt.publish_incr, State.exception_kept, State.legFrame_kept, State.parseBad_kept, ite_self, implies_true]; done) | (simp [State.kept_mk, State.kept_fold, kept_ite, kept_ite_fst, TimSt.setPin_incr, TimSt.setKey_incr, TimSt.setPort_incr, TimSt.publish_incr, State.exception_kept, State.legFrame_kept, State.parseBad_kept]; done))
theorem execRtcpIntervalTimer_kept (leg : Nat) (s : State) : ∃ t, execRtcpIntervalTimer leg s = .next t ∧ t.kept = s.kept := by
  unfold execRtcpIntervalTimer; refine ⟨_, rfl, ?_⟩; try dsimp only
  (repeat' split) <;> (first | done | (simp only [State.kept_mk, State.kept_fold, kept_ite, kept_ite_fst, TimSt.setPin_incr, TimSt.setKey_incr, TimSt.setPort_incr, TimSt.publish_incr, State.rtcpSend_kept, ite_self, implies_true]; done) | (simp [State.kept_mk, State.kept_fold, kept_ite, kept_ite_fst, TimSt.setPin_incr, TimSt.setKey_incr, TimSt.setPort_incr, TimSt.publish_incr, State.rtcpSend_kept]; done))
theorem execCcfbIntervalTimer_kept (leg : Nat) (s : State) : ∃ t, execCcfbIntervalTimer leg s = .next t ∧ t.kept = s.kept := by
  unfold execCcfbIntervalTimer; refine ⟨_, rfl, ?_⟩; try dsimp only
  (repeat' split) <;> (first | done | (simp only [State.kept_mk, State.kept_fold, kept_ite, kept_ite_fst, TimSt.setPin_incr, TimSt.setKey_incr, TimSt.setPort_incr, TimSt.publish_incr, State.rtcpSend_kept, ite_self, implies_true]; done) | (simp [State.kept_mk, State.kept_fold, kept_ite, kept_ite_fst, TimSt.setPin_incr, TimSt.setKey_incr, TimSt.setPort_incr, TimSt.publish_incr, State.rtcpSend_kept]; done))
theorem execUpstreamNackTimer_kept (stream seq : Nat) (s : State) : ∃ t, execUpstreamNackTimer stream seq s = .next t ∧ t.kept = s.kept := by
  unfold execUpstreamNackTimer; refine ⟨_, rfl, ?_⟩; try dsimp only
  (repeat' split) <;> (first | done | (simp only [State.kept_mk, State.kept_fold, kept_ite, kept_ite_fst, TimSt.setPin_incr, TimSt.setKey_incr, TimSt.setPort_incr, TimSt.publish_incr, State.feedback_kept, ite_self, implies_true]; done) | (simp [State.kept_mk, State.kept_fold, kept_ite, kept_ite_fst, TimSt.setPin_incr, TimSt.setKey_incr, TimSt.setPort_incr, TimSt.publish_incr, State.feedback_kept]; done))
theorem execSwitchWaitExpiry_kept (sub : Nat) (s : State) : ∃ t, execSwitchWaitExpiry sub s = .next t ∧ t.kept = s.kept := by
  unfold execSwitchWaitExpiry; refine ⟨_, rfl, ?_⟩; try dsimp only
  (repeat' split) <;> (first | done | (simp only [State.kept_mk, State.kept_fold, kept_ite, kept_ite_fst, TimSt.setPin_incr, TimSt.setKey_incr, TimSt.setPort_incr, TimSt.publish_incr, State.keyRequest_kept, State.putSub_kept, ite_self, implies_true]; done) | (simp [State.kept_mk, State.kept_fold, kept_ite, kept_ite_fst, TimSt.setPin_incr, TimSt.setKey_incr, TimSt.setPort_incr, TimSt.publish_incr, State.keyRequest_kept, State.putSub_kept]; done))
theorem execAllocIntervalTimer_kept (leg : Nat) (s : State) : ∃ t, execAllocIntervalTimer leg s = .next t ∧ t.kept = s.kept := by
  unfold execAllocIntervalTimer; refine ⟨_, rfl, ?_⟩; try dsimp only
  (repeat' split) <;> (first | done | (simp only [State.kept_mk, State.kept_fold, kept_ite, kept_ite_fst, TimSt.setPin_incr, TimSt.setKey_incr, TimSt.setPort_incr, TimSt.publish_incr, State.allocate_kept, ite_self, implies_true]; done) | (simp [State.kept_mk, State.kept_fold, kept_ite, kept_ite_fst, TimSt.setPin_incr, TimSt.setKey_incr, TimSt.setPort_incr, TimSt.publish_incr, State.allocate_kept]; done))
theorem State.paneNeed_kept (s : State) (spl id : Nat) : (State.paneNeed s spl id).kept = s.kept := by
  unfold State.paneNeed; try dsimp only
  (repeat' split) <;> (first | done | (simp only [State.kept_mk, State.kept_fold, kept_ite, kept_ite_fst, TimSt.setPin_incr, TimSt.setKey_incr, TimSt.setPort_incr, TimSt.publish_incr, State.jlSvc_kept, ite_self, implies_true]; done) | (simp [State.kept_mk, State.kept_fold, kept_ite, kept_ite_fst, TimSt.setPin_incr, TimSt.setKey_incr, TimSt.setPort_incr, TimSt.publish_incr, State.jlSvc_kept]; done))
theorem State.encMismatch_kept (s : State) (x : EncBlock) (g : EncGeom) (f : EncFrame) (t : EncStripe) : (State.encMismatch s x g f t).kept = s.kept := by
  simp only [State.encMismatch, State.kept_mk, State.kept_fold, kept_ite, kept_ite_fst, TimSt.setPin_incr, TimSt.setKey_incr, TimSt.setPort_incr, TimSt.publish_incr, State.permanent_kept, State.setShare_kept, State.transient_kept, ite_self, implies_true]
theorem State.blockCoded_kept (s : State) (x : EncBlock) (g : EncGeom) (f : EncFrame) (t : EncStripe) : (State.blockCoded s x g f t).kept = s.kept := by
  simp only [State.blockCoded, State.kept_mk, State.kept_fold, kept_ite, kept_ite_fst, TimSt.setPin_incr, TimSt.setKey_incr, TimSt.setPort_incr, TimSt.publish_incr, State.encErr_kept, State.encMismatch_kept, State.encRaise_kept, State.setShare_kept, State.stripeEnd_kept, ite_self, implies_true]
theorem execBlockCoded_kept (x : EncBlock) (s : State) : ∃ t, execBlockCoded x s = .next t ∧ t.kept = s.kept := by
  unfold execBlockCoded
  refine ⟨_, rfl, ?_⟩
  split
  · refine State.inFrame_kept _ _ _ _ _ _ fun g f t => ?_
    (repeat' split) <;> first | rfl | exact State.blockCoded_kept ..
  · rfl
theorem State.encRefresh_kept (s : State) (sash r : Nat) (key : Bool) : (State.encRefresh s sash r key).kept = s.kept := by
  unfold State.encRefresh; try dsimp only
  (repeat' split) <;> (first | done | (simp only [State.kept_mk, State.kept_fold, kept_ite, kept_ite_fst, TimSt.setPin_incr, TimSt.setKey_incr, TimSt.setPort_incr, TimSt.publish_incr, State.paneNeed_kept, kept_foldl, ite_self, implies_true]; done) | (simp [State.kept_mk, State.kept_fold, kept_ite, kept_ite_fst, TimSt.setPin_incr, TimSt.setKey_incr, TimSt.setPort_incr, TimSt.publish_incr, State.paneNeed_kept, kept_foldl]; done))
theorem execEncRefresh_kept (e : CmdEnv) (body : List Byte) (s : State) : ∃ t, execEncRefresh e body s = .next t ∧ t.kept = s.kept := by
  refine ⟨_, rfl, ?_⟩; simp only [State.kept_mk, State.kept_fold, kept_ite, kept_ite_fst, TimSt.setPin_incr, TimSt.setKey_incr, TimSt.setPort_incr, TimSt.publish_incr, State.done_kept, State.encRefresh_kept, kept_foldl, ite_self, implies_true]
theorem State.decPicture_kept (s : State) (sash stream : Nat) (c : DecCtx) (p : DecPicture) (first : DecPkt) (k : Nat) : (State.decPicture s sash stream c p first k).kept = s.kept := by
  unfold State.decPicture
  extract_lets slot dirty poison missing bad s0 s1 enter s2 s3
  have h0 : s0.kept = s.kept := by simp only [s0]; split <;> simp only [State.kept_mk, State.kept_fold, kept_ite, kept_ite_fst, TimSt.setPin_incr, TimSt.setKey_incr, TimSt.setPort_incr, TimSt.publish_incr, State.decErr_kept, State.decRaise_kept, State.keyRequest_kept, State.partWrite_kept, State.setCtx_kept, State.settle_kept]
  have h1 : s1.kept = s.kept := by simp only [s1, State.kept_mk, State.kept_fold, kept_ite, kept_ite_fst, TimSt.setPin_incr, TimSt.setKey_incr, TimSt.setPort_incr, TimSt.publish_incr, State.decErr_kept, State.decRaise_kept, State.keyRequest_kept, State.partWrite_kept, State.setCtx_kept, State.settle_kept, h0, ite_self]
  have h2 : s2.kept = s.kept := by simp only [s2, State.kept_mk, State.kept_fold, kept_ite, kept_ite_fst, TimSt.setPin_incr, TimSt.setKey_incr, TimSt.setPort_incr, TimSt.publish_incr, State.decErr_kept, State.decRaise_kept, State.keyRequest_kept, State.partWrite_kept, State.setCtx_kept, State.settle_kept, h1, ite_self]
  have h3 : s3.kept = s.kept := by simp only [s3, State.kept_mk, State.kept_fold, kept_ite, kept_ite_fst, TimSt.setPin_incr, TimSt.setKey_incr, TimSt.setPort_incr, TimSt.publish_incr, State.decErr_kept, State.decRaise_kept, State.keyRequest_kept, State.partWrite_kept, State.setCtx_kept, State.settle_kept, h2, ite_self]
  clear_value s3
  simp only [State.kept_mk, State.kept_fold, kept_ite, kept_ite_fst, TimSt.setPin_incr, TimSt.setKey_incr, TimSt.setPort_incr, TimSt.publish_incr, State.decErr_kept, State.decRaise_kept, State.keyRequest_kept, State.partWrite_kept, State.setCtx_kept, State.settle_kept, h3]
theorem State.decFrame_kept (s0 : State) (sash stream : Nat) (p : DecPicture) : (State.decFrame s0 sash stream p).kept = s0.kept := by
  unfold State.decFrame; try dsimp only
  (repeat' split) <;> (first | done | (simp only [State.kept_mk, State.kept_fold, kept_ite, kept_ite_fst, TimSt.setPin_incr, TimSt.setKey_incr, TimSt.setPort_incr, TimSt.publish_incr, State.ctxClose_kept, State.decOutput_kept, State.decPicture_kept, State.decSkip_kept, ite_self, implies_true]; done) | (simp [State.kept_mk, State.kept_fold, kept_ite, kept_ite_fst, TimSt.setPin_incr, TimSt.setKey_incr, TimSt.setPort_incr, TimSt.publish_incr, State.ctxClose_kept, State.decOutput_kept, State.decPicture_kept, State.decSkip_kept]; done))
theorem State.cmpStore_kept (s : State) (p : CmpPers) (f : CmpFrame) (data : List Byte × List Byte) : (State.cmpStore s p f data).kept = s.kept := by
  unfold State.cmpStore; try dsimp only
  (repeat' split) <;> (first | done | (simp only [State.kept_mk, State.kept_fold, kept_ite, kept_ite_fst, TimSt.setPin_incr, TimSt.setKey_incr, TimSt.setPort_incr, TimSt.publish_incr, State.partWrite_kept, ite_self, implies_true]; done) | (simp [State.kept_mk, State.kept_fold, kept_ite, kept_ite_fst, TimSt.setPin_incr, TimSt.setKey_incr, TimSt.setPort_incr, TimSt.publish_incr, State.partWrite_kept]; done))
theorem State.cmpLineDone_kept (s : State) (unit : Nat) (f : CmpFrame) (rest : List CmpFrame) (video : List CmpVideo) : (State.cmpLineDone s unit f rest video).kept = s.kept := by
  simp only [State.cmpLineDone, State.kept_mk, State.kept_fold, kept_ite, kept_ite_fst, TimSt.setPin_incr, TimSt.setKey_incr, TimSt.setPort_incr, TimSt.publish_incr, State.cmpFrameEnd_kept, State.cmpPoison_kept, State.cmpStore_kept, State.encInput_kept, State.setCmp_kept, ite_self, implies_true]
theorem execCmpLineComplete_kept (unit : Nat) (video : List CmpVideo) (s : State) : ∃ t, execCmpLineComplete unit video s = .next t ∧ t.kept = s.kept := by
  unfold execCmpLineComplete; refine ⟨_, rfl, ?_⟩; try dsimp only
  (repeat' split) <;> (first | done | (simp only [State.kept_mk, State.kept_fold, kept_ite, kept_ite_fst, TimSt.setPin_incr, TimSt.setKey_incr, TimSt.setPort_incr, TimSt.publish_incr, State.cmpLineDone_kept, State.cmpNext_kept, State.inEpoch_kept, ite_self, implies_true]; done) | (simp [State.kept_mk, State.kept_fold, kept_ite, kept_ite_fst, TimSt.setPin_incr, TimSt.setKey_incr, TimSt.setPort_incr, TimSt.publish_incr, State.cmpLineDone_kept, State.cmpNext_kept, State.inEpoch_kept]; done))
theorem State.vinStore_kept (s : State) (p : VinPers) (slot c : Nat) (comps : List Nat) : (State.vinStore s p slot c comps).kept = s.kept := by
  unfold State.vinStore; try dsimp only
  (repeat' split) <;> (first | done | (simp only [State.kept_mk, State.kept_fold, kept_ite, kept_ite_fst, TimSt.setPin_incr, TimSt.setKey_incr, TimSt.setPort_incr, TimSt.publish_incr, State.partWrite_kept, ite_self, implies_true]; done) | (simp [State.kept_mk, State.kept_fold, kept_ite, kept_ite_fst, TimSt.setPin_incr, TimSt.setKey_incr, TimSt.setPort_incr, TimSt.publish_incr, State.partWrite_kept]; done))
theorem State.vinLine_kept (s : State) (v : Nat) (p : VinPers) (num row off px : Nat) (comps : List Nat) : (State.vinLine s v p num row off px comps).kept = s.kept := by
  unfold State.vinLine; try dsimp only
  (repeat' split) <;> (first | done | (simp only [State.kept_mk, State.kept_fold, kept_ite, kept_ite_fst, TimSt.setPin_incr, TimSt.setKey_incr, TimSt.setPort_incr, TimSt.publish_incr, State.setVin_kept, State.vinErr_kept, State.vinLocked_kept, State.vinStore_kept, ite_self, implies_true]; done) | (simp [State.kept_mk, State.kept_fold, kept_ite, kept_ite_fst, TimSt.setPin_incr, TimSt.setKey_incr, TimSt.setPort_incr, TimSt.publish_incr, State.setVin_kept, State.vinErr_kept, State.vinLocked_kept, State.vinStore_kept]; done))
theorem State.vinRows_kept (s : State) (v : Nat) (p : VinPers) (num : Nat) (x0 : List VinSeg) : (State.vinRows s v p num x0).kept = s.kept := by
  induction x0 generalizing s v p num with
  | nil => simp [State.vinRows, State.kept_mk, State.kept_fold, kept_ite, kept_ite_fst, TimSt.setPin_incr, TimSt.setKey_incr, TimSt.setPort_incr, TimSt.publish_incr, State.vinFmtBad_kept, State.vinLine_kept]
  | cons a l ih => simp [State.vinRows, State.kept_mk, State.kept_fold, kept_ite, kept_ite_fst, TimSt.setPin_incr, TimSt.setKey_incr, TimSt.setPort_incr, TimSt.publish_incr, State.vinFmtBad_kept, State.vinLine_kept, ih]
theorem State.vinUse_kept (s : State) (v : Nat) (p : VinPers) (e : VinFlow) (x : VinPkt) : (State.vinUse s v p e x).kept = s.kept := by
  unfold State.vinUse; try dsimp only
  (repeat' split) <;> (first | done | (simp only [State.kept_mk, State.kept_fold, kept_ite, kept_ite_fst, TimSt.setPin_incr, TimSt.setKey_incr, TimSt.setPort_incr, TimSt.publish_incr, State.ancOne_kept, State.vinAudio_kept, State.vinFrame_kept, State.vinRows_kept, kept_foldl, ite_self, implies_true]; done) | (simp [State.kept_mk, State.kept_fold, kept_ite, kept_ite_fst, TimSt.setPin_incr, TimSt.setKey_incr, TimSt.setPort_incr, TimSt.publish_incr, State.ancOne_kept, State.vinAudio_kept, State.vinFrame_kept, State.vinRows_kept, kept_foldl]; done))
theorem execVinPacketReceive_kept (x : VinPkt) (s : State) : ∃ t, execVinPacketReceive x s = .next t ∧ t.kept = s.kept := by
  unfold execVinPacketReceive; refine ⟨_, rfl, ?_⟩; try dsimp only
  (repeat' split) <;> (first | done | (simp only [State.kept_mk, State.kept_fold, kept_ite, kept_ite_fst, TimSt.setPin_incr, TimSt.setKey_incr, TimSt.setPort_incr, TimSt.publish_incr, State.setVin_kept, State.vinErr_kept, State.vinFmtBad_kept, State.vinNoPath_kept, State.vinPath_kept, State.vinUse_kept, ite_self, implies_true]; done) | (simp [State.kept_mk, State.kept_fold, kept_ite, kept_ite_fst, TimSt.setPin_incr, TimSt.setKey_incr, TimSt.setPort_incr, TimSt.publish_incr, State.setVin_kept, State.vinErr_kept, State.vinFmtBad_kept, State.vinNoPath_kept, State.vinPath_kept, State.vinUse_kept]; done))
theorem execSdiLineReceive_kept (x : SdiLine) (s : State) : ∃ t, execSdiLineReceive x s = .next t ∧ t.kept = s.kept := by
  unfold execSdiLineReceive; refine ⟨_, rfl, ?_⟩; try dsimp only
  (repeat' split) <;> (first | done | (simp only [State.kept_mk, State.kept_fold, kept_ite, kept_ite_fst, TimSt.setPin_incr, TimSt.setKey_incr, TimSt.setPort_incr, TimSt.publish_incr, State.ancOne_kept, State.setVin_kept, State.vinFmtBad_kept, State.vinFrame_kept, State.vinLine_kept, kept_foldl, ite_self, implies_true]; done) | (simp [State.kept_mk, State.kept_fold, kept_ite, kept_ite_fst, TimSt.setPin_incr, TimSt.setKey_incr, TimSt.setPort_incr, TimSt.publish_incr, State.ancOne_kept, State.setVin_kept, State.vinFmtBad_kept, State.vinFrame_kept, State.vinLine_kept, kept_foldl]; done))
theorem State.tsoDatagram_kept (s : State) (n : Nat) (p : TsoPers) (at_ : Nat) : (State.tsoDatagram s n p at_).kept = s.kept := by
  simp only [State.tsoDatagram, State.kept_mk, State.kept_fold, kept_ite, kept_ite_fst, TimSt.setPin_incr, TimSt.setKey_incr, TimSt.setPort_incr, TimSt.publish_incr, State.rtp_kept, State.setTso_kept, State.tsoSend_kept, ite_self, implies_true]
theorem execTsPacketSchedule_kept (tso : Nat) (s : State) : ∃ t, execTsPacketSchedule tso s = .next t ∧ t.kept = s.kept := by
  refine ⟨_, rfl, ?_⟩; simp only [State.kept_mk, State.kept_fold, kept_ite, kept_ite_fst, TimSt.setPin_incr, TimSt.setKey_incr, TimSt.setPort_incr, TimSt.publish_incr, State.setTso_kept, State.tsoDatagram_kept, State.tsoPut_kept, ite_self, implies_true]
theorem State.cencAll_kept (s : State) (slot sash : Nat) (x0 : List Nat) : (State.cencAll s slot sash x0).1.kept = s.kept := by
  induction x0 generalizing s slot sash with
  | nil => simp [State.cencAll, State.kept_mk, State.kept_fold, kept_ite, kept_ite_fst, TimSt.setPin_incr, TimSt.setKey_incr, TimSt.setPort_incr, TimSt.publish_incr, State.cipher_kept]
  | cons a l ih => simp [State.cencAll, State.kept_mk, State.kept_fold, kept_ite, kept_ite_fst, TimSt.setPin_incr, TimSt.setKey_incr, TimSt.setPort_incr, TimSt.publish_incr, State.cipher_kept, ih]
theorem State.cmafProtect_kept (s : State) (n : Nat) (p : TsoPers) (c : CmafChunk) : (State.cmafProtect s n p c).1.kept = s.kept := by
  simp only [State.cmafProtect, State.kept_mk, State.kept_fold, kept_ite, kept_ite_fst, TimSt.setPin_incr, TimSt.setKey_incr, TimSt.setPort_incr, TimSt.publish_incr, State.cencAll_kept, ite_self, implies_true]
theorem execCmafChunkWrite_kept (x : CmafChunk) (s : State) : ∃ t, execCmafChunkWrite x s = .next t ∧ t.kept = s.kept := by
  unfold execCmafChunkWrite; refine ⟨_, rfl, ?_⟩; try dsimp only
  (repeat' split) <;> (first | done | (simp only [State.kept_mk, State.kept_fold, kept_ite, kept_ite_fst, TimSt.setPin_incr, TimSt.setKey_incr, TimSt.setPort_incr, TimSt.publish_incr, State.cmafInit_kept, State.cmafItem_kept, State.cmafProtect_kept, State.setTso_kept, State.tsoPut_kept, ite_self, implies_true]; done) | (simp [State.kept_mk, State.kept_fold, kept_ite, kept_ite_fst, TimSt.setPin_incr, TimSt.setKey_incr, TimSt.setPort_incr, TimSt.publish_incr, State.cmafInit_kept, State.cmafItem_kept, State.cmafProtect_kept, State.setTso_kept, State.tsoPut_kept]; done))
theorem State.audOut_kept (s : State) (o chan n smp : Nat) (payload : List Byte) (level : Nat) : (State.audOut s o chan n smp payload level).kept = s.kept := by
  unfold State.audOut; try dsimp only
  (repeat' split) <;> (first | done | (simp only [State.kept_mk, State.kept_fold, kept_ite, kept_ite_fst, TimSt.setPin_incr, TimSt.setKey_incr, TimSt.setPort_incr, TimSt.publish_incr, State.produce_kept, ite_self, implies_true]; done) | (simp [State.kept_mk, State.kept_fold, kept_ite, kept_ite_fst, TimSt.setPin_incr, TimSt.setKey_incr, TimSt.setPort_incr, TimSt.publish_incr, State.produce_kept]; done))
theorem execAudEncFrame_kept (chan frame : Nat) (coded : List Byte) (level : Nat) (s : State) : ∃ t, execAudEncFrame chan frame coded level s = .next t ∧ t.kept = s.kept := by
  unfold execAudEncFrame; refine ⟨_, rfl, ?_⟩; try dsimp only
  (repeat' split) <;> (first | done | (simp only [State.kept_mk, State.kept_fold, kept_ite, kept_ite_fst, TimSt.setPin_incr, TimSt.setKey_incr, TimSt.setPort_incr, TimSt.publish_incr, State.audOut_kept, State.tsoAudio_kept, kept_foldl, ite_self, implies_true]; done) | (simp [State.kept_mk, State.kept_fold, kept_ite, kept_ite_fst, TimSt.setPin_incr, TimSt.setKey_incr, TimSt.setPort_incr, TimSt.publish_incr, State.audOut_kept, State.tsoAudio_kept, kept_foldl]; done))
theorem execTalkIntervalTimer_kept (conf : Nat) (s : State) : ∃ t, execTalkIntervalTimer conf s = .next t ∧ t.kept = s.kept := by
  unfold execTalkIntervalTimer; refine ⟨_, rfl, ?_⟩; try dsimp only
  (repeat' split) <;> (first | done | (simp only [State.kept_mk, State.kept_fold, kept_ite, kept_ite_fst, TimSt.setPin_incr, TimSt.setKey_incr, TimSt.setPort_incr, TimSt.publish_incr, State.dblCheck_kept, State.jlSvc_kept, State.retarget_kept, State.setConf_kept, State.talkFill_kept, State.talkGone_kept, State.talkQuiet_kept, State.talkSwap_kept, kept_foldl, ite_self, implies_true]; done) | (simp [State.kept_mk, State.kept_fold, kept_ite, kept_ite_fst, TimSt.setPin_incr, TimSt.setKey_incr, TimSt.setPort_incr, TimSt.publish_incr, State.dblCheck_kept, State.jlSvc_kept, State.retarget_kept, State.setConf_kept, State.talkFill_kept, State.talkGone_kept, State.talkQuiet_kept, State.talkSwap_kept, kept_foldl]; done))
theorem State.sinkOut_kept (s : State) (k p : Nat) : (State.sinkOut s k p).kept = s.kept := by
  unfold State.sinkOut; try dsimp only
  (repeat' split) <;> (first | done | (simp only [State.kept_mk, State.kept_fold, kept_ite, kept_ite_fst, TimSt.setPin_incr, TimSt.setKey_incr, TimSt.setPort_incr, TimSt.publish_incr, State.jlCascade_kept, ite_self, implies_true]; done) | (simp [State.kept_mk, State.kept_fold, kept_ite, kept_ite_fst, TimSt.setPin_incr, TimSt.setKey_incr, TimSt.setPort_incr, TimSt.publish_incr, State.jlCascade_kept]; done))
theorem State.mixSink_kept (s : State) (p k : Nat) : (State.mixSink s p k).kept = s.kept := by
  simp only [State.mixSink, State.kept_mk, State.kept_fold, kept_ite, kept_ite_fst, TimSt.setPin_incr, TimSt.setKey_incr, TimSt.setPort_incr, TimSt.publish_incr, State.sinkOut_kept, State.sinkSample_kept, kept_foldl, ite_self, implies_true]
theorem State.talkCascade_kept (s : State) (p : Nat) : (State.talkCascade s p).kept = s.kept := by
  unfold State.talkCascade; try dsimp only
  (repeat' split) <;> (first | done | (simp only [State.kept_mk, State.kept_fold, kept_ite, kept_ite_fst, TimSt.setPin_incr, TimSt.setKey_incr, TimSt.setPort_incr, TimSt.publish_incr, State.jlCascade_kept, kept_foldl, ite_self, implies_true]; done) | (simp [State.kept_mk, State.kept_fold, kept_ite, kept_ite_fst, TimSt.setPin_incr, TimSt.setKey_incr, TimSt.setPort_incr, TimSt.publish_incr, State.jlCascade_kept, kept_foldl]; done) | (refine (kept_foldl _ (fun a b => ?_) _ _).trans ?_ <;> (try dsimp only) <;> (repeat' split) <;> (first | (simp only [State.kept_mk, State.kept_fold, kept_ite, kept_ite_fst, TimSt.setPin_incr, TimSt.setKey_incr, TimSt.setPort_incr, TimSt.publish_incr, State.jlCascade_kept, kept_foldl, ite_self, implies_true]; done) | (simp [State.kept_mk, State.kept_fold, kept_ite, kept_ite_fst, TimSt.setPin_incr, TimSt.setKey_incr, TimSt.setPort_incr, TimSt.publish_incr, State.jlCascade_kept, kept_foldl]; done))))
theorem State.mixBlock_kept (s : State) (p : Nat) : (State.mixBlock s p).kept = s.kept := by
  simp only [State.mixBlock, State.kept_mk, State.kept_fold, kept_ite, kept_ite_fst, TimSt.setPin_incr, TimSt.setKey_incr, TimSt.setPort_incr, TimSt.publish_incr, State.autoGoal_kept, State.concealAll_kept, State.decodedLevels_kept, State.mixSink_kept, State.sourceFaults_kept, State.sourceRead_kept, State.surveyBlocks_kept, State.talkCascade_kept, kept_foldl, ite_self, implies_true]
theorem State.audBoundary_kept (s : State) : (State.audBoundary s).kept = s.kept := by
  simp only [State.audBoundary, State.kept_mk, State.kept_fold, kept_ite, kept_ite_fst, TimSt.setPin_incr, TimSt.setKey_incr, TimSt.setPort_incr, TimSt.publish_incr, State.anchorShift_kept, State.audCloses_kept, State.audGone_kept, State.audSets_kept, State.dblCheck_kept, State.mixBlock_kept, kept_foldl, ite_self, implies_true]
theorem State.posNeeds_kept (s : State) (spl : Nat) (l : List SplPos) : (State.posNeeds s spl l).kept = s.kept := by
  unfold State.posNeeds; try dsimp only
  (repeat' split) <;> (first | done | (simp only [State.kept_mk, State.kept_fold, kept_ite, kept_ite_fst, TimSt.setPin_incr, TimSt.setKey_incr, TimSt.setPort_incr, TimSt.publish_incr, State.paneNeed_kept, kept_foldl, ite_self, implies_true]; done) | (simp [State.kept_mk, State.kept_fold, kept_ite, kept_ite_fst, TimSt.setPin_incr, TimSt.setKey_incr, TimSt.setPort_incr, TimSt.publish_incr, State.paneNeed_kept, kept_foldl]; done) | (refine (kept_foldl _ (fun a b => ?_) _ _).trans ?_ <;> (try dsimp only) <;> (repeat' split) <;> (first | (simp only [State.kept_mk, State.kept_fold, kept_ite, kept_ite_fst, TimSt.setPin_incr, TimSt.setKey_incr, TimSt.setPort_incr, TimSt.publish_incr, State.paneNeed_kept, kept_foldl, ite_self, implies_true]; done) | (simp [State.kept_mk, State.kept_fold, kept_ite, kept_ite_fst, TimSt.setPin_incr, TimSt.setKey_incr, TimSt.setPort_incr, TimSt.publish_incr, State.paneNeed_kept, kept_foldl]; done))))
theorem State.recvChange_kept (s : State) (spl : Nat) (v : SplRecv) (tpl : Nat) (l : List (Option Nat)) : (State.recvChange s spl v tpl l).1.kept = s.kept := by
  unfold State.recvChange; try dsimp only
  (repeat' split) <;> (first | done | (simp only [State.kept_mk, State.kept_fold, kept_ite, kept_ite_fst, TimSt.setPin_incr, TimSt.setKey_incr, TimSt.setPort_incr, TimSt.publish_incr, State.paneNeed_kept, State.posNeeds_kept, kept_foldl, ite_self, implies_true]; done) | (simp [State.kept_mk, State.kept_fold, kept_ite, kept_ite_fst, TimSt.setPin_incr, TimSt.setKey_incr, TimSt.setPort_incr, TimSt.publish_incr, State.paneNeed_kept, State.posNeeds_kept, kept_foldl]; done) | (refine (kept_foldl _ (fun a b => ?_) _ _).trans ?_ <;> (try dsimp only) <;> (repeat' split) <;> (first | (simp only [State.kept_mk, State.kept_fold, kept_ite, kept_ite_fst, TimSt.setPin_incr, TimSt.setKey_incr, TimSt.setPort_incr, TimSt.publish_incr, State.paneNeed_kept, State.posNeeds_kept, kept_foldl, ite_self, implies_true]; done) | (simp [State.kept_mk, State.kept_fold, kept_ite, kept_ite_fst, TimSt.setPin_incr, TimSt.setKey_incr, TimSt.setPort_incr, TimSt.publish_incr, State.paneNeed_kept, State.posNeeds_kept, kept_foldl]; done))))
theorem State.recvOpen_kept (s : State) (spl : Nat) (v : SplRecv) (s1 : State) (w : SplRecv) (h : s.recvOpen spl v = some (s1, w)) : s1.kept = s.kept := by
  unfold State.recvOpen at h
  dsimp only at h
  have hf : ∀ (l : List RecvChange) (a : State × SplRecv), (l.foldl (fun (a : State × SplRecv) c => match c.set with
      | some (t, l) => a.1.recvChange spl a.2 t l
      | none => a) a).1.kept = a.1.kept := by
    intro l a
    refine kept_foldl_fst _ (fun a b => ?_) l a
    split <;> simp [State.kept_mk, State.kept_fold, kept_ite, kept_ite_fst, TimSt.setPin_incr, TimSt.setKey_incr, TimSt.setPort_incr, TimSt.publish_incr, State.recvChange_kept]
  split at h
  · cases h
  · split at h
    · split at h
      · have h2 := Option.some.inj h
        have h3 := congrArg (fun p => State.kept (Prod.fst p)) h2
        simp only [State.recvChange_kept] at h3
        exact h3.symm.trans (hf _ _)
      · have h3 := congrArg (fun p => State.kept (Prod.fst p)) (Option.some.inj h)
        skip
        exact h3.symm.trans (hf _ _)
    · have h3 := congrArg (fun p => State.kept (Prod.fst p)) (Option.some.inj h)
      skip
      exact h3.symm.trans (hf _ _)
theorem State.splEmit_kept (s : State) (spl r : Nat) (v : SplRecv) (last : Bool) (b : List Byte) : (State.splEmit s spl r v last b).kept = s.kept := by
  simp only [State.splEmit, State.kept_mk, State.kept_fold, kept_ite, kept_ite_fst, TimSt.setPin_incr, TimSt.setKey_incr, TimSt.setPort_incr, TimSt.publish_incr, State.produce_kept, kept_foldl, ite_self, implies_true]
theorem State.recvRun_kept (s : State) (spl r : Nat) (dl : Option Nat) (x0 : Nat) : (State.recvRun s spl r dl x0).kept = s.kept := by
  induction x0 generalizing s spl r dl with
  | zero => rfl
  | succ n ih =>
    unfold State.recvRun
    (repeat' split) <;> try rfl
    all_goals try simp only [State.kept_mk, State.kept_fold, kept_ite, kept_ite_fst, TimSt.setPin_incr, TimSt.setKey_incr, TimSt.setPort_incr, TimSt.publish_incr, State.posNeeds_kept, State.recvOpen_kept, State.setRecv_kept, State.splEmit_kept, State.splErr_kept, State.splRaise_kept, ih, ite_self]
    all_goals (repeat' split) <;> try rfl
    all_goals try simp only [State.kept_mk, State.kept_fold, kept_ite, kept_ite_fst, TimSt.setPin_incr, TimSt.setKey_incr, TimSt.setPort_incr, TimSt.publish_incr, State.posNeeds_kept, State.recvOpen_kept, State.setRecv_kept, State.splEmit_kept, State.splErr_kept, State.splRaise_kept, ih, ite_self]
    all_goals (rename_i h1 _ _ _ _; exact State.recvOpen_kept _ _ _ _ _ h1)
theorem State.splRun_kept (s : State) (spl : Nat) (dl : Option Nat) : (State.splRun s spl dl).kept = s.kept := by
  simp only [State.splRun, State.kept_mk, State.kept_fold, kept_ite, kept_ite_fst, TimSt.setPin_incr, TimSt.setKey_incr, TimSt.setPort_incr, TimSt.publish_incr, State.recvRun_kept, State.splPurge_kept, kept_foldl, ite_self, implies_true]
theorem State.refreshJudge_kept (s : State) (spl id frame : Nat) (ok : Bool) : (State.refreshJudge s spl id frame ok).kept = s.kept := by
  simp only [State.refreshJudge, State.kept_mk, State.kept_fold, kept_ite, kept_ite_fst, TimSt.setPin_incr, TimSt.setKey_incr, TimSt.setPort_incr, TimSt.publish_incr, State.paneNeed_kept, State.splErr_kept, State.splRaise_kept, ite_self, implies_true]
theorem State.paneChunkIn_kept (s : State) (spl : Nat) (b : List Byte) (poison : Bool) : (State.paneChunkIn s spl b poison).kept = s.kept := by
  simp only [State.paneChunkIn, State.kept_mk, State.kept_fold, kept_ite, kept_ite_fst, TimSt.setPin_incr, TimSt.setKey_incr, TimSt.setPort_incr, TimSt.publish_incr, State.done_kept, State.jlSend_kept, State.refreshJudge_kept, State.splErr_kept, State.splRaise_kept, State.splRun_kept, kept_foldl, ite_self, implies_true]
theorem execPaneChunkReceive_kept (spl : Nat) (chunk : List Byte) (poison : Bool) (s : State) : ∃ t, execPaneChunkReceive spl chunk poison s = .next t ∧ t.kept = s.kept := by
  refine ⟨_, rfl, ?_⟩; simp only [State.kept_mk, State.kept_fold, kept_ite, kept_ite_fst, TimSt.setPin_incr, TimSt.setKey_incr, TimSt.setPort_incr, TimSt.publish_incr, State.paneChunkIn_kept, ite_self, implies_true]
theorem execSpliceDeadline_kept (spl frame : Nat) (s : State) : ∃ t, execSpliceDeadline spl frame s = .next t ∧ t.kept = s.kept := by
  refine ⟨_, rfl, ?_⟩; simp only [State.kept_mk, State.kept_fold, kept_ite, kept_ite_fst, TimSt.setPin_incr, TimSt.setKey_incr, TimSt.setPort_incr, TimSt.publish_incr, State.refreshJudge_kept, State.splRun_kept, kept_foldl, ite_self, implies_true]
theorem execSplImport_kept (e : CmdEnv) (body : List Byte) (s : State) : ∃ t, execSplImport e body s = .next t ∧ t.kept = s.kept := by
  refine ⟨_, rfl, ?_⟩; simp only [State.kept_mk, State.kept_fold, kept_ite, kept_ite_fst, TimSt.setPin_incr, TimSt.setKey_incr, TimSt.setPort_incr, TimSt.publish_incr, State.done_kept, State.jlSvc_kept, ite_self, implies_true]
theorem execSplRefresh_kept (e : CmdEnv) (body : List Byte) (s : State) : ∃ t, execSplRefresh e body s = .next t ∧ t.kept = s.kept := by
  refine ⟨_, rfl, ?_⟩; simp only [State.kept_mk, State.kept_fold, kept_ite, kept_ite_fst, TimSt.setPin_incr, TimSt.setKey_incr, TimSt.setPort_incr, TimSt.publish_incr, State.done_kept, State.paneNeed_kept, ite_self, implies_true]
theorem State.splAsked_kept (s : State) (out : Nat) : (State.splAsked s out).kept = s.kept := by
  unfold State.splAsked
  refine kept_foldl _ (fun a r => ?_) _ _
  refine kept_foldl _ (fun b id => ?_) _ _
  extract_lets spl
  (repeat' split) <;> simp only [State.kept_mk, State.kept_fold, kept_ite, kept_ite_fst, TimSt.setPin_incr, TimSt.setKey_incr, TimSt.setPort_incr, TimSt.publish_incr, State.paneNeed_kept]
theorem State.dataOut_kept (s : State) (p : PartRec) (c : HngCore) (loc off : Nat) (x0 : Nat) : (State.dataOut s p c loc off x0).kept = s.kept := by
  induction x0 generalizing s p c loc off with
  | zero => simp [State.dataOut, State.kept_mk, State.kept_fold, kept_ite, kept_ite_fst, TimSt.setPin_incr, TimSt.setKey_incr, TimSt.setPort_incr, TimSt.publish_incr, State.partPoison_kept, State.partWrite_kept]
  | succ n ih => simp [State.dataOut, State.kept_mk, State.kept_fold, kept_ite, kept_ite_fst, TimSt.setPin_incr, TimSt.setKey_incr, TimSt.setPort_incr, TimSt.publish_incr, State.partPoison_kept, State.partWrite_kept, ih]
theorem State.dmaMove_kept (s : State) (n : Nat) (d : HngDma) : (State.dmaMove s n d).1.kept = s.kept := by
  unfold State.dmaMove; try dsimp only
  (repeat' split) <;> (first | done | (simp only [State.kept_mk, State.kept_fold, kept_ite, kept_ite_fst, TimSt.setPin_incr, TimSt.setKey_incr, TimSt.setPort_incr, TimSt.publish_incr, State.dataOut_kept, State.dmaErr_kept, State.setCore_kept, ite_self, implies_true]; done) | (simp [State.kept_mk, State.kept_fold, kept_ite, kept_ite_fst, TimSt.setPin_incr, TimSt.setKey_incr, TimSt.setPort_incr, TimSt.publish_incr, State.dataOut_kept, State.dmaErr_kept, State.setCore_kept]; done))
theorem execDmaTransferDone_kept (core channel : Nat) (s : State) : ∃ t, execDmaTransferDone core channel s = .next t ∧ t.kept = s.kept := by
  unfold execDmaTransferDone; refine ⟨_, rfl, ?_⟩; try dsimp only
  (repeat' split) <;> (first | done | (simp only [State.kept_mk, State.kept_fold, kept_ite, kept_ite_fst, TimSt.setPin_incr, TimSt.setKey_incr, TimSt.setPort_incr, TimSt.publish_incr, State.dmaMove_kept, State.hngWake_kept, State.setCore_kept, ite_self, implies_true]; done) | (simp [State.kept_mk, State.kept_fold, kept_ite, kept_ite_fst, TimSt.setPin_incr, TimSt.setKey_incr, TimSt.setPort_incr, TimSt.publish_incr, State.dmaMove_kept, State.hngWake_kept, State.setCore_kept]; done))
theorem State.spareTaken_kept (s : State) (ty inst badReads : Nat) : (State.spareTaken s ty inst badReads).kept = s.kept := by
  unfold State.spareTaken; try dsimp only
  (repeat' split) <;> (first | done | (simp only [State.kept_mk, State.kept_fold, kept_ite, kept_ite_fst, TimSt.setPin_incr, TimSt.setKey_incr, TimSt.setPort_incr, TimSt.publish_incr, State.bistBegin_kept, State.dwellsEnd_kept, State.hngMoved_kept, State.retireUnit_kept, kept_foldl, ite_self, implies_true]; done) | (simp [State.kept_mk, State.kept_fold, kept_ite, kept_ite_fst, TimSt.setPin_incr, TimSt.setKey_incr, TimSt.setPort_incr, TimSt.publish_incr, State.bistBegin_kept, State.dwellsEnd_kept, State.hngMoved_kept, State.retireUnit_kept, kept_foldl]; done))
theorem State.retireAt_kept (s : State) (us : List Nat) : (State.retireAt s us).kept = s.kept := by
  simp only [State.retireAt, State.kept_mk, State.kept_fold, kept_ite, kept_ite_fst, TimSt.setPin_incr, TimSt.setKey_incr, TimSt.setPort_incr, TimSt.publish_incr, State.spareTaken_kept, kept_foldl, ite_self, implies_true]
theorem execSpareTaken_kept (ty inst badReads : Nat) (s : State) : ∃ t, execSpareTaken ty inst badReads s = .next t ∧ t.kept = s.kept := by
  refine ⟨_, rfl, ?_⟩; simp only [State.kept_mk, State.kept_fold, kept_ite, kept_ite_fst, TimSt.setPin_incr, TimSt.setKey_incr, TimSt.setPort_incr, TimSt.publish_incr, State.spareTaken_kept, ite_self, implies_true]
theorem State.unitStatus_kept (s : State) (u : Nat) : (State.unitStatus s u).kept = s.kept := by
  unfold State.unitStatus; try dsimp only
  (repeat' split) <;> (first | done | (simp only [State.kept_mk, State.kept_fold, kept_ite, kept_ite_fst, TimSt.setPin_incr, TimSt.setKey_incr, TimSt.setPort_incr, TimSt.publish_incr, State.audcSetup_kept, State.cmpSetup_kept, State.decSetup_kept, State.encSetup_kept, State.splSetup_kept, ite_self, implies_true]; done) | (simp [State.kept_mk, State.kept_fold, kept_ite, kept_ite_fst, TimSt.setPin_incr, TimSt.setKey_incr, TimSt.setPort_incr, TimSt.publish_incr, State.audcSetup_kept, State.cmpSetup_kept, State.decSetup_kept, State.encSetup_kept, State.splSetup_kept]; done))
theorem State.persSet_kept (s : State) (u : Nat) (r : Option PersRec) : (State.persSet s u r).kept = s.kept := by
  unfold State.persSet; try dsimp only
  (repeat' split) <;> (first | done | (simp only [State.kept_mk, State.kept_fold, kept_ite, kept_ite_fst, TimSt.setPin_incr, TimSt.setKey_incr, TimSt.setPort_incr, TimSt.publish_incr, State.tsoSetup_kept, State.unitStatus_kept, State.vinSetup_kept, ite_self, implies_true]; done) | (simp [State.kept_mk, State.kept_fold, kept_ite, kept_ite_fst, TimSt.setPin_incr, TimSt.setKey_incr, TimSt.setPort_incr, TimSt.publish_incr, State.tsoSetup_kept, State.unitStatus_kept, State.vinSetup_kept]; done))
theorem State.persChange_kept (s : State) (n : Nat) (pace : Option Nat) (u : Nat) (r : Option PersRec) : (State.persChange s n pace u r).kept = s.kept := by
  simp only [State.persChange, State.kept_mk, State.kept_fold, kept_ite, kept_ite_fst, TimSt.setPin_incr, TimSt.setKey_incr, TimSt.setPort_incr, TimSt.publish_incr, State.persSet_kept, ite_self, implies_true]
theorem State.portsPass_kept (s : State) : (State.portsPass s).kept = s.kept := by
  simp only [State.portsPass, State.kept_mk, State.kept_fold, kept_ite, kept_ite_fst, TimSt.setPin_incr, TimSt.setKey_incr, TimSt.setPort_incr, TimSt.publish_incr, State.hngSashRuns_kept, State.unstall_kept, kept_foldl, ite_self, implies_true]
theorem State.hngRebuilt_kept (s : State) (n : Nat) (l : List HngRec) : (State.hngRebuilt s n l).kept = s.kept := by
  simp only [State.hngRebuilt, State.kept_mk, State.kept_fold, kept_ite, kept_ite_fst, TimSt.setPin_incr, TimSt.setKey_incr, TimSt.setPort_incr, TimSt.publish_incr, State.hngImage_kept, State.hngStart_kept, kept_foldl, ite_self, implies_true]
theorem State.rebuild_kept (s0 : State) (n : Nat) : (State.rebuild s0 n).kept = s0.kept := by
  unfold State.rebuild; try dsimp only
  (repeat' split) <;> (first | done | (simp only [State.kept_mk, State.kept_fold, kept_ite, kept_ite_fst, TimSt.setPin_incr, TimSt.setKey_incr, TimSt.setPort_incr, TimSt.publish_incr, State.hngRebuilt_kept, State.markSpares_kept, State.panesGone_kept, State.persChange_kept, State.portsPass_kept, State.retireAt_kept, State.startBuild_kept, State.unitStatus_kept, kept_foldl, ite_self, implies_true]; done) | (simp [State.kept_mk, State.kept_fold, kept_ite, kept_ite_fst, TimSt.setPin_incr, TimSt.setKey_incr, TimSt.setPort_incr, TimSt.publish_incr, State.hngRebuilt_kept, State.markSpares_kept, State.panesGone_kept, State.persChange_kept, State.portsPass_kept, State.retireAt_kept, State.startBuild_kept, State.unitStatus_kept, kept_foldl]; done))
theorem State.drainTo_kept (s : State) (n : Nat) (p : PendDef) : (State.drainTo s n p).kept = s.kept := by
  simp only [State.drainTo, State.kept_mk, State.kept_fold, kept_ite, kept_ite_fst, TimSt.setPin_incr, TimSt.setKey_incr, TimSt.setPort_incr, TimSt.publish_incr, State.rebuild_kept, ite_self, implies_true]
theorem execSashBuildDone_kept (sash : Nat) (s : State) : ∃ t, execSashBuildDone sash s = .next t ∧ t.kept = s.kept := by
  unfold execSashBuildDone; refine ⟨_, rfl, ?_⟩; try dsimp only
  (repeat' split) <;> (first | done | (simp only [State.kept_mk, State.kept_fold, kept_ite, kept_ite_fst, TimSt.setPin_incr, TimSt.setKey_incr, TimSt.setPort_incr, TimSt.publish_incr, State.drainTo_kept, State.hngSashRuns_kept, ite_self, implies_true]; done) | (simp [State.kept_mk, State.kept_fold, kept_ite, kept_ite_fst, TimSt.setPin_incr, TimSt.setKey_incr, TimSt.setPort_incr, TimSt.publish_incr, State.drainTo_kept, State.hngSashRuns_kept]; done))
theorem State.rebuildInForce_kept (s : State) (n : Nat) : (State.rebuildInForce s n).kept = s.kept := by
  simp only [State.rebuildInForce, State.kept_mk, State.kept_fold, kept_ite, kept_ite_fst, TimSt.setPin_incr, TimSt.setKey_incr, TimSt.setPort_incr, TimSt.publish_incr, State.drainTo_kept, ite_self, implies_true]
theorem State.loadRead_kept (s : State) (c : Commit) : (State.loadRead s c).kept = s.kept := by
  simp only [State.loadRead, State.kept_mk, State.kept_fold, kept_ite, kept_ite_fst, TimSt.setPin_incr, TimSt.setKey_incr, TimSt.setPort_incr, TimSt.publish_incr, State.rebuildInForce_kept, ite_self, implies_true]
theorem State.loadStart_kept (s : State) (c : Commit) : (State.loadStart s c).kept = s.kept := by
  simp only [State.loadStart, State.kept_mk, State.kept_fold, kept_ite, kept_ite_fst, TimSt.setPin_incr, TimSt.setKey_incr, TimSt.setPort_incr, TimSt.publish_incr, State.loadRead_kept, ite_self, implies_true]
theorem State.commitGo_kept (s : State) (c : Commit) : (State.commitGo s c).kept = s.kept := by
  unfold State.commitGo; try dsimp only
  (repeat' split) <;> (first | done | (simp only [State.kept_mk, State.kept_fold, kept_ite, kept_ite_fst, TimSt.setPin_incr, TimSt.setKey_incr, TimSt.setPort_incr, TimSt.publish_incr, State.drainTo_kept, State.loadStart_kept, State.rebuildInForce_kept, ite_self, implies_true]; done) | (simp [State.kept_mk, State.kept_fold, kept_ite, kept_ite_fst, TimSt.setPin_incr, TimSt.setKey_incr, TimSt.setPort_incr, TimSt.publish_incr, State.drainTo_kept, State.loadStart_kept, State.rebuildInForce_kept]; done))
theorem State.loadNext_kept (s : State) : (State.loadNext s).kept = s.kept := by
  unfold State.loadNext; try dsimp only
  (repeat' split) <;> (first | done | (simp only [State.kept_mk, State.kept_fold, kept_ite, kept_ite_fst, TimSt.setPin_incr, TimSt.setKey_incr, TimSt.setPort_incr, TimSt.publish_incr, State.loadStart_kept, ite_self, implies_true]; done) | (simp [State.kept_mk, State.kept_fold, kept_ite, kept_ite_fst, TimSt.setPin_incr, TimSt.setKey_incr, TimSt.setPort_incr, TimSt.publish_incr, State.loadStart_kept]; done))
theorem State.loadEnd_kept (s : State) : (State.loadEnd s).kept = s.kept := by
  simp only [State.loadEnd, State.kept_mk, State.kept_fold, kept_ite, kept_ite_fst, TimSt.setPin_incr, TimSt.setKey_incr, TimSt.setPort_incr, TimSt.publish_incr, State.loadNext_kept, ite_self, implies_true]
theorem State.loadFree_kept (s : State) : (State.loadFree s).kept = s.kept := by
  unfold State.loadFree; try dsimp only
  (repeat' split) <;> (first | done | (simp only [State.kept_mk, State.kept_fold, kept_ite, kept_ite_fst, TimSt.setPin_incr, TimSt.setKey_incr, TimSt.setPort_incr, TimSt.publish_incr, State.loadNext_kept, State.loadRead_kept, ite_self, implies_true]; done) | (simp [State.kept_mk, State.kept_fold, kept_ite, kept_ite_fst, TimSt.setPin_incr, TimSt.setKey_incr, TimSt.setPort_incr, TimSt.publish_incr, State.loadNext_kept, State.loadRead_kept]; done))
theorem State.loadLatch_kept (s : State) (bank : Bool) (raw : Image) : (State.loadLatch s bank raw).kept = s.kept := by
  simp only [State.loadLatch, State.kept_mk, State.kept_fold, kept_ite, kept_ite_fst, TimSt.setPin_incr, TimSt.setKey_incr, TimSt.setPort_incr, TimSt.publish_incr, State.drainTo_kept, State.hngImage_kept, State.hold_kept, State.markSpares_kept, State.persSet_kept, State.portsPass_kept, State.startBuild_kept, State.svcLoad_kept, State.unitStatus_kept, kept_foldl, ite_self, implies_true]
theorem State.shadowRecs_kept (s : State) (l : List ShadowRec) : (State.shadowRecs s l).kept = s.kept := by
  simp only [State.shadowRecs, State.kept_mk, State.kept_fold, kept_ite, kept_ite_fst, TimSt.setPin_incr, TimSt.setKey_incr, TimSt.setPort_incr, TimSt.publish_incr, State.shadowPut_kept, kept_foldl, ite_self, implies_true]
theorem State.loadRequest_kept (s : State) (bank : Bool) (img : Image) (hcLeft : Nat) : (State.loadRequest s bank img hcLeft).kept = s.kept := by
  simp only [State.loadRequest, State.kept_mk, State.kept_fold, kept_ite, kept_ite_fst, TimSt.setPin_incr, TimSt.setKey_incr, TimSt.setPort_incr, TimSt.publish_incr, State.latchAccept_kept, State.loadEnd_kept, ite_self, implies_true]
theorem State.loadParsed_kept (s : State) (c : Commit) (hdr : ImgHeader) (hcLeft : Nat) : (State.loadParsed s c hdr hcLeft).kept = s.kept := by
  simp only [State.loadParsed, State.kept_mk, State.kept_fold, kept_ite, kept_ite_fst, TimSt.setPin_incr, TimSt.setKey_incr, TimSt.setPort_incr, TimSt.publish_incr, State.drainTo_kept, State.loadEnd_kept, State.loadRequest_kept, State.shadowRecs_kept, ite_self, implies_true]
theorem execImgDone_kept (hcLeft : Nat) (s : State) : ∃ t, execImgDone hcLeft s = .next t ∧ t.kept = s.kept := by
  unfold execImgDone; refine ⟨_, rfl, ?_⟩; try dsimp only
  (repeat' split) <;> (first | done | (simp only [State.kept_mk, State.kept_fold, kept_ite, kept_ite_fst, TimSt.setPin_incr, TimSt.setKey_incr, TimSt.setPort_incr, TimSt.publish_incr, State.loadFree_kept, State.loadParsed_kept, ite_self, implies_true]; done) | (simp [State.kept_mk, State.kept_fold, kept_ite, kept_ite_fst, TimSt.setPin_incr, TimSt.setKey_incr, TimSt.setPort_incr, TimSt.publish_incr, State.loadFree_kept, State.loadParsed_kept]; done))
theorem execHandover_kept (e : CmdEnv) (body : List Byte) (s : State) : ∃ t, execHandover e body s = .next t ∧ t.kept = s.kept := by
  unfold execHandover; refine ⟨_, rfl, ?_⟩; try dsimp only
  (repeat' split) <;> (first | done | (simp only [State.kept_mk, State.kept_fold, kept_ite, kept_ite_fst, TimSt.setPin_incr, TimSt.setKey_incr, TimSt.setPort_incr, TimSt.publish_incr, State.done_kept, State.jlSvc_kept, State.setHand_kept, ite_self, implies_true]; done) | (simp [State.kept_mk, State.kept_fold, kept_ite, kept_ite_fst, TimSt.setPin_incr, TimSt.setKey_incr, TimSt.setPort_incr, TimSt.publish_incr, State.done_kept, State.jlSvc_kept, State.setHand_kept]; done))
theorem State.handOut_kept (s : State) (dev i : Nat) : (State.handOut s dev i).kept = s.kept := by
  unfold State.handOut; try dsimp only
  (repeat' split) <;> (first | done | (simp only [State.kept_mk, State.kept_fold, kept_ite, kept_ite_fst, TimSt.setPin_incr, TimSt.setKey_incr, TimSt.setPort_incr, TimSt.publish_incr, State.jlSvc_kept, ite_self, implies_true]; done) | (simp [State.kept_mk, State.kept_fold, kept_ite, kept_ite_fst, TimSt.setPin_incr, TimSt.setKey_incr, TimSt.setPort_incr, TimSt.publish_incr, State.jlSvc_kept]; done))
theorem execHandoverSwitch_kept (conf : Nat) (s : State) : ∃ t, execHandoverSwitch conf s = .next t ∧ t.kept = s.kept := by
  unfold execHandoverSwitch; refine ⟨_, rfl, ?_⟩; try dsimp only
  (repeat' split) <;> (first | done | (simp only [State.kept_mk, State.kept_fold, kept_ite, kept_ite_fst, TimSt.setPin_incr, TimSt.setKey_incr, TimSt.setPort_incr, TimSt.publish_incr, State.handLost_kept, State.handOut_kept, State.setHand_kept, kept_foldl, ite_self, implies_true]; done) | (simp [State.kept_mk, State.kept_fold, kept_ite, kept_ite_fst, TimSt.setPin_incr, TimSt.setKey_incr, TimSt.setPort_incr, TimSt.publish_incr, State.handLost_kept, State.handOut_kept, State.setHand_kept, kept_foldl]; done))
theorem execHandoverTailEnd_kept (conf : Nat) (s : State) : ∃ t, execHandoverTailEnd conf s = .next t ∧ t.kept = s.kept := by
  unfold execHandoverTailEnd; refine ⟨_, rfl, ?_⟩; try dsimp only
  (repeat' split) <;> (first | done | (simp only [State.kept_mk, State.kept_fold, kept_ite, kept_ite_fst, TimSt.setPin_incr, TimSt.setKey_incr, TimSt.setPort_incr, TimSt.publish_incr, State.dropHand_kept, State.markLeg_kept, State.removal_kept, kept_foldl, ite_self, implies_true]; done) | (simp [State.kept_mk, State.kept_fold, kept_ite, kept_ite_fst, TimSt.setPin_incr, TimSt.setKey_incr, TimSt.setPort_incr, TimSt.publish_incr, State.dropHand_kept, State.markLeg_kept, State.removal_kept, kept_foldl]; done))
theorem State.handCopy_kept (s : State) (src conf tconf : Nat) (slots : List (Nat × Nat × Bool)) (legs : List (List Byte × Nat × Nat))
    (streams subs profs : List (List Byte)) : (State.handCopy s src conf tconf slots legs streams subs profs).kept = s.kept := by
  unfold State.handCopy; try dsimp only
  (repeat' split) <;> (first | done | (simp only [State.kept_mk, State.kept_fold, kept_ite, kept_ite_fst, TimSt.setPin_incr, TimSt.setKey_incr, TimSt.setPort_incr, TimSt.publish_incr, State.jlSvc_kept, State.setEst_kept, State.subAdd_kept, kept_foldl, ite_self, implies_true]; done) | (simp [State.kept_mk, State.kept_fold, kept_ite, kept_ite_fst, TimSt.setPin_incr, TimSt.setKey_incr, TimSt.setPort_incr, TimSt.publish_incr, State.jlSvc_kept, State.setEst_kept, State.subAdd_kept, kept_foldl]; done))
theorem State.handUndo_kept (s : State) (c : Nat) (x : HandIn) : (State.handUndo s c x).kept = s.kept := by
  simp only [State.handUndo, State.kept_mk, State.kept_fold, kept_ite, kept_ite_fst, TimSt.setPin_incr, TimSt.setKey_incr, TimSt.setPort_incr, TimSt.publish_incr, State.markLeg_kept, State.removal_kept, kept_foldl, ite_self, implies_true]
theorem State.handCheck_kept (s : State) : (State.handCheck s).kept = s.kept := by
  simp only [State.handCheck, State.kept_mk, State.kept_fold, kept_ite, kept_ite_fst, TimSt.setPin_incr, TimSt.setKey_incr, TimSt.setPort_incr, TimSt.publish_incr, State.handLost_kept, State.handUndo_kept, kept_foldl, ite_self, implies_true]
theorem State.svcIn_kept (s : State) (src : Nat) (m : SvcMsg) : (State.svcIn s src m).kept = s.kept := by
  unfold State.svcIn; try dsimp only
  (repeat' split) <;> (first | done | (simp only [State.kept_mk, State.kept_fold, kept_ite, kept_ite_fst, TimSt.setPin_incr, TimSt.setKey_incr, TimSt.setPort_incr, TimSt.publish_incr, State.handCopied_kept, State.handCopy_kept, State.handState_kept, State.jlMedia_kept, State.nack_kept, State.paneNeed_kept, State.rtcpCompound_kept, State.scoresIn_kept, ite_self, implies_true]; done) | (simp [State.kept_mk, State.kept_fold, kept_ite, kept_ite_fst, TimSt.setPin_incr, TimSt.setKey_incr, TimSt.setPort_incr, TimSt.publish_incr, State.handCopied_kept, State.handCopy_kept, State.handState_kept, State.jlMedia_kept, State.nack_kept, State.paneNeed_kept, State.rtcpCompound_kept, State.scoresIn_kept]; done))
theorem State.mediaIn_kept (s : State) (i : Nat) (raw : List Byte) (y : RtpLayer) : (State.mediaIn s i raw y).kept = s.kept := by
  unfold State.mediaIn; try dsimp only
  (repeat' split) <;> (first | done | (simp only [State.kept_mk, State.kept_fold, kept_ite, kept_ite_fst, TimSt.setPin_incr, TimSt.setKey_incr, TimSt.setPort_incr, TimSt.publish_incr, State.cacheStore_kept, State.ingest_kept, State.nack_kept, kept_foldl, ite_self, implies_true]; done) | (simp [State.kept_mk, State.kept_fold, kept_ite, kept_ite_fst, TimSt.setPin_incr, TimSt.setKey_incr, TimSt.setPort_incr, TimSt.publish_incr, State.cacheStore_kept, State.ingest_kept, State.nack_kept, kept_foldl]; done))
theorem State.jlResume_kept (s : State) (n : Nat) : (State.jlResume s n).kept = s.kept := by
  simp only [State.jlResume, State.kept_mk, State.kept_fold, kept_ite, kept_ite_fst, TimSt.setPin_incr, TimSt.setKey_incr, TimSt.setPort_incr, TimSt.publish_incr, State.jlEnter_kept, State.jlPump_kept, State.jlResend_kept, State.setLink_kept, ite_self, implies_true]
theorem State.jlRetrain_kept (s : State) (n : Nat) : (State.jlRetrain s n).kept = s.kept := by
  unfold State.jlRetrain; try dsimp only
  (repeat' split) <;> (first | done | (simp only [State.kept_mk, State.kept_fold, kept_ite, kept_ite_fst, TimSt.setPin_incr, TimSt.setKey_incr, TimSt.setPort_incr, TimSt.publish_incr, State.jlEnter_kept, State.jlResend_kept, State.laneAdapt_kept, State.setLink_kept, State.transient_kept, kept_foldl, ite_self, implies_true]; done) | (simp [State.kept_mk, State.kept_fold, kept_ite, kept_ite_fst, TimSt.setPin_incr, TimSt.setKey_incr, TimSt.setPort_incr, TimSt.publish_incr, State.jlEnter_kept, State.jlResend_kept, State.laneAdapt_kept, State.setLink_kept, State.transient_kept, kept_foldl]; done))
theorem State.portCheck_kept (s : State) (p : PortRec) : (State.portCheck s p).kept = s.kept := by
  unfold State.portCheck; try dsimp only
  (repeat' split) <;> (first | done | (simp only [State.kept_mk, State.kept_fold, kept_ite, kept_ite_fst, TimSt.setPin_incr, TimSt.setKey_incr, TimSt.setPort_incr, TimSt.publish_incr, State.ethEnter_kept, State.jlResume_kept, ite_self, implies_true]; done) | (simp [State.kept_mk, State.kept_fold, kept_ite, kept_ite_fst, TimSt.setPin_incr, TimSt.setKey_incr, TimSt.setPort_incr, TimSt.publish_incr, State.ethEnter_kept, State.jlResume_kept]; done))
theorem execLaneAdaptDone_kept (lane : Nat) (ok : Bool) (snr : Nat) (inverted reversed : Bool) (s : State) : ∃ t, execLaneAdaptDone lane ok snr inverted reversed s = .next t ∧ t.kept = s.kept := by
  unfold execLaneAdaptDone; refine ⟨_, rfl, ?_⟩; try dsimp only
  (repeat' split) <;> (first | done | (simp only [State.kept_mk, State.kept_fold, kept_ite, kept_ite_fst, TimSt.setPin_incr, TimSt.setKey_incr, TimSt.setPort_incr, TimSt.publish_incr, State.handCheck_kept, State.islandBack_kept, State.permanent_kept, State.portCheck_kept, State.setLane_kept, ite_self, implies_true]; done) | (simp [State.kept_mk, State.kept_fold, kept_ite, kept_ite_fst, TimSt.setPin_incr, TimSt.setKey_incr, TimSt.setPort_incr, TimSt.publish_incr, State.handCheck_kept, State.islandBack_kept, State.permanent_kept, State.portCheck_kept, State.setLane_kept]; done))
theorem execFomLowTimer_kept (lane snr : Nat) (s : State) : ∃ t, execFomLowTimer lane snr s = .next t ∧ t.kept = s.kept := by
  refine ⟨_, rfl, ?_⟩; simp only [State.kept_mk, State.kept_fold, kept_ite, kept_ite_fst, TimSt.setPin_incr, TimSt.setKey_incr, TimSt.setPort_incr, TimSt.publish_incr, State.transient_kept, ite_self, implies_true]
theorem State.laneSleepWrite_kept (s : State) (lane : Nat) (val : Word) : (State.laneSleepWrite s lane val).kept = s.kept := by
  unfold State.laneSleepWrite; try dsimp only
  (repeat' split) <;> (first | done | (simp only [State.kept_mk, State.kept_fold, kept_ite, kept_ite_fst, TimSt.setPin_incr, TimSt.setKey_incr, TimSt.setPort_incr, TimSt.publish_incr, State.handCheck_kept, State.portCheck_kept, State.portTrain_kept, ite_self, implies_true]; done) | (simp [State.kept_mk, State.kept_fold, kept_ite, kept_ite_fst, TimSt.setPin_incr, TimSt.setKey_incr, TimSt.setPort_incr, TimSt.publish_incr, State.handCheck_kept, State.portCheck_kept, State.portTrain_kept]; done))
theorem execLaneSleepWrite_kept (lane : Nat) (val : Word) (s : State) : ∃ t, execLaneSleepWrite lane val s = .next t ∧ t.kept = s.kept := by
  refine ⟨_, rfl, ?_⟩; simp only [State.kept_mk, State.kept_fold, kept_ite, kept_ite_fst, TimSt.setPin_incr, TimSt.setKey_incr, TimSt.setPort_incr, TimSt.publish_incr, State.laneSleepWrite_kept, ite_self, implies_true]
theorem State.holdLost_kept (s : State) (n : Nat) : (State.holdLost s n).kept = s.kept := by
  simp only [State.holdLost, State.kept_mk, State.kept_fold, kept_ite, kept_ite_fst, TimSt.setPin_incr, TimSt.setKey_incr, TimSt.setPort_incr, TimSt.publish_incr, State.handCheck_kept, State.jlEnter_kept, ite_self, implies_true]
theorem State.jlHeard_kept (s : State) (n : Nat) : (State.jlHeard s n).kept = s.kept := by
  simp only [State.jlHeard, State.kept_mk, State.kept_fold, kept_ite, kept_ite_fst, TimSt.setPin_incr, TimSt.setKey_incr, TimSt.setPort_incr, TimSt.publish_incr, State.holdLost_kept, State.jlEnter_kept, State.jlPump_kept, State.setLink_kept, ite_self, implies_true]
theorem State.jlReplay_kept (s : State) (n : Nat) : (State.jlReplay s n).kept = s.kept := by
  unfold State.jlReplay; try dsimp only
  (repeat' split) <;> (first | done | (simp only [State.kept_mk, State.kept_fold, kept_ite, kept_ite_fst, TimSt.setPin_incr, TimSt.setKey_incr, TimSt.setPort_incr, TimSt.publish_incr, State.jlResend_kept, State.jlRetrain_kept, State.setLink_kept, State.transient_kept, ite_self, implies_true]; done) | (simp [State.kept_mk, State.kept_fold, kept_ite, kept_ite_fst, TimSt.setPin_incr, TimSt.setKey_incr, TimSt.setPort_incr, TimSt.publish_incr, State.jlResend_kept, State.jlRetrain_kept, State.setLink_kept, State.transient_kept]; done))
theorem State.jlHead_kept (s : State) (n : Nat) (h : FlitHead) : (State.jlHead s n h).kept = s.kept := by
  simp only [State.jlHead, State.kept_mk, State.kept_fold, kept_ite, kept_ite_fst, TimSt.setPin_incr, TimSt.setKey_incr, TimSt.setPort_incr, TimSt.publish_incr, State.jlAck_kept, State.jlCredit_kept, State.jlPump_kept, State.jlReplay_kept, ite_self, implies_true]
theorem State.idleIn_kept (s : State) (n : Nat) (h : FlitHead) : (State.idleIn s n h).kept = s.kept := by
  simp only [State.idleIn, State.kept_mk, State.kept_fold, kept_ite, kept_ite_fst, TimSt.setPin_incr, TimSt.setKey_incr, TimSt.setPort_incr, TimSt.publish_incr, State.jlHead_kept, State.jlHeard_kept, ite_self, implies_true]
theorem execIdleFlit_kept (link : Nat) (bytes : List Byte) (s : State) : ∃ t, execIdleFlit link bytes s = .next t ∧ t.kept = s.kept := by
  refine ⟨_, rfl, ?_⟩; simp only [State.kept_mk, State.kept_fold, kept_ite, kept_ite_fst, TimSt.setPin_incr, TimSt.setKey_incr, TimSt.setPort_incr, TimSt.publish_incr, State.flitIn_kept, State.idleIn_kept, ite_self, implies_true]
theorem execNakReceive_kept (link : Nat) (bytes : List Byte) (s : State) : ∃ t, execNakReceive link bytes s = .next t ∧ t.kept = s.kept := by
  refine ⟨_, rfl, ?_⟩; simp only [State.kept_mk, State.kept_fold, kept_ite, kept_ite_fst, TimSt.setPin_incr, TimSt.setKey_incr, TimSt.setPort_incr, TimSt.publish_incr, State.flitIn_kept, State.idleIn_kept, ite_self, implies_true]
theorem State.helloIn_kept (s : State) (n : Nat) (head : FlitHead) (h : JlHello) : (State.helloIn s n head h).kept = s.kept := by
  simp only [State.helloIn, State.kept_mk, State.kept_fold, kept_ite, kept_ite_fst, TimSt.setPin_incr, TimSt.setKey_incr, TimSt.setPort_incr, TimSt.publish_incr, State.jlEnter_kept, State.jlHead_kept, State.jlHeard_kept, State.jlPump_kept, State.setLink_kept, ite_self, implies_true]
theorem execHelloFlit_kept (link : Nat) (bytes : List Byte) (s : State) : ∃ t, execHelloFlit link bytes s = .next t ∧ t.kept = s.kept := by
  refine ⟨_, rfl, ?_⟩; simp only [State.kept_mk, State.kept_fold, kept_ite, kept_ite_fst, TimSt.setPin_incr, TimSt.setKey_incr, TimSt.setPort_incr, TimSt.publish_incr, State.flitIn_kept, State.helloIn_kept, ite_self, implies_true]
theorem execHoldTimeout_kept (link : Nat) (s : State) : ∃ t, execHoldTimeout link s = .next t ∧ t.kept = s.kept := by
  refine ⟨_, rfl, ?_⟩; simp only [State.kept_mk, State.kept_fold, kept_ite, kept_ite_fst, TimSt.setPin_incr, TimSt.setKey_incr, TimSt.setPort_incr, TimSt.publish_incr, State.holdLost_kept, ite_self, implies_true]
theorem State.linkMask_kept (s : State) (p : PortRec) (mask : Nat) : (State.linkMask s p mask).kept = s.kept := by
  unfold State.linkMask; try dsimp only
  (repeat' split) <;> (first | done | (simp only [State.kept_mk, State.kept_fold, kept_ite, kept_ite_fst, TimSt.setPin_incr, TimSt.setKey_incr, TimSt.setPort_incr, TimSt.publish_incr, State.handCheck_kept, State.jlEnter_kept, State.laneAdapt_kept, State.plainOut_kept, kept_foldl, ite_self, implies_true]; done) | (simp [State.kept_mk, State.kept_fold, kept_ite, kept_ite_fst, TimSt.setPin_incr, TimSt.setKey_incr, TimSt.setPort_incr, TimSt.publish_incr, State.handCheck_kept, State.jlEnter_kept, State.laneAdapt_kept, State.plainOut_kept, kept_foldl]; done))
theorem execLinkFlit_kept (link : Nat) (bytes : List Byte) (s : State) : ∃ t, execLinkFlit link bytes s = .next t ∧ t.kept = s.kept := by
  refine ⟨_, rfl, State.flitIn_kept _ _ _ _ _ _ fun a h => ?_⟩
  extract_lets b
  have hb : b.kept = a.kept := by
    simp only [b]
    split <;> simp only [State.kept_mk, State.kept_fold, kept_ite, kept_ite_fst, TimSt.setPin_incr, TimSt.setKey_incr, TimSt.setPort_incr, TimSt.publish_incr, State.flitIn_kept, State.jlHead_kept, State.jlHeard_kept, State.linkMask_kept]
  clear_value b
  (repeat' split) <;> first | exact hb | exact (State.linkMask_kept ..).trans hb
theorem execTunnelReplayTimer_kept (link : Nat) (s : State) : ∃ t, execTunnelReplayTimer link s = .next t ∧ t.kept = s.kept := by
  refine ⟨_, rfl, ?_⟩; simp only [State.kept_mk, State.kept_fold, kept_ite, kept_ite_fst, TimSt.setPin_incr, TimSt.setKey_incr, TimSt.setPort_incr, TimSt.publish_incr, State.jlReplay_kept, ite_self, implies_true]
theorem execTunnelSilenceTimeout_kept (link : Nat) (s : State) : ∃ t, execTunnelSilenceTimeout link s = .next t ∧ t.kept = s.kept := by
  refine ⟨_, rfl, ?_⟩; simp only [State.kept_mk, State.kept_fold, kept_ite, kept_ite_fst, TimSt.setPin_incr, TimSt.setKey_incr, TimSt.setPort_incr, TimSt.publish_incr, State.handCheck_kept, State.jlEnter_kept, ite_self, implies_true]
theorem execKeyRequestTimer_kept (stream : Nat) (own : Option (Nat × Nat)) (s : State) : ∃ t, execKeyRequestTimer stream own s = .next t ∧ t.kept = s.kept := by
  unfold execKeyRequestTimer; refine ⟨_, rfl, ?_⟩; try dsimp only
  (repeat' split) <;> (first | done | (simp only [State.kept_mk, State.kept_fold, kept_ite, kept_ite_fst, TimSt.setPin_incr, TimSt.setKey_incr, TimSt.setPort_incr, TimSt.publish_incr, State.encRefresh_kept, State.feedback_kept, ite_self, implies_true]; done) | (simp [State.kept_mk, State.kept_fold, kept_ite, kept_ite_fst, TimSt.setPin_incr, TimSt.setKey_incr, TimSt.setPort_incr, TimSt.publish_incr, State.encRefresh_kept, State.feedback_kept]; done))
theorem State.itemApply_kept (s : State) (e : OpenEntry) : (State.itemApply s e).kept = s.kept := by
  unfold State.itemApply; try dsimp only
  (repeat' split) <;> (first | done | (simp only [State.kept_mk, State.kept_fold, kept_ite, kept_ite_fst, TimSt.setPin_incr, TimSt.setKey_incr, TimSt.setPort_incr, TimSt.publish_incr, State.audChange_kept, State.encConfig_kept, State.fwdChange_kept, State.helloAll_kept, State.keyChange_kept, State.legModify_kept, State.mbReset_kept, State.splChange_kept, State.subAdd_kept, State.subModify_kept, State.tevCompare_kept, ite_self, implies_true]; done) | (simp [State.kept_mk, State.kept_fold, kept_ite, kept_ite_fst, TimSt.setPin_incr, TimSt.setKey_incr, TimSt.setPort_incr, TimSt.publish_incr, State.audChange_kept, State.encConfig_kept, State.fwdChange_kept, State.helloAll_kept, State.keyChange_kept, State.legModify_kept, State.mbReset_kept, State.splChange_kept, State.subAdd_kept, State.subModify_kept, State.tevCompare_kept]; done))
theorem State.hostPlan_kept (s : State) (bank : Bool) : (State.hostPlan s bank).kept = s.kept := by
  simp only [State.hostPlan, State.kept_mk, State.kept_fold, kept_ite, kept_ite_fst, TimSt.setPin_incr, TimSt.setKey_incr, TimSt.setPort_incr, TimSt.publish_incr, ite_self, implies_true]
theorem State.disown_kept (s : State) : (State.disown s).kept = s.kept := by
  simp only [State.disown, State.kept_mk, State.kept_fold, kept_ite, kept_ite_fst, TimSt.setPin_incr, TimSt.setKey_incr, TimSt.setPort_incr, TimSt.publish_incr, ite_self, implies_true]
theorem State.latchApply_kept (s : State) (l : Latch) (late : Nat) : (State.latchApply s l late).kept = s.kept := by
  unfold State.latchApply; try dsimp only
  (repeat' split) <;> (first | done | (simp only [State.kept_mk, State.kept_fold, kept_ite, kept_ite_fst, TimSt.setPin_incr, TimSt.setKey_incr, TimSt.setPort_incr, TimSt.publish_incr, State.commitGo_kept, State.disown_kept, State.gclPend_kept, State.hostPlan_kept, State.itemApply_kept, State.latchLate_kept, State.latchStatus_kept, State.loadLatch_kept, State.shadowClear_kept, kept_foldl, ite_self, implies_true]; done) | (simp [State.kept_mk, State.kept_fold, kept_ite, kept_ite_fst, TimSt.setPin_incr, TimSt.setKey_incr, TimSt.setPort_incr, TimSt.publish_incr, State.commitGo_kept, State.disown_kept, State.gclPend_kept, State.hostPlan_kept, State.itemApply_kept, State.latchLate_kept, State.latchStatus_kept, State.loadLatch_kept, State.shadowClear_kept, kept_foldl]; done))
theorem State.latchTurn_kept (due : Latch → Option Nat) (s : State) (num : Nat) : (State.latchTurn due s num).kept = s.kept := by
  unfold State.latchTurn; try dsimp only
  (repeat' split) <;> (first | done | (simp only [State.kept_mk, State.kept_fold, kept_ite, kept_ite_fst, TimSt.setPin_incr, TimSt.setKey_incr, TimSt.setPort_incr, TimSt.publish_incr, State.latchApply_kept, State.latchDecide_kept, ite_self, implies_true]; done) | (simp [State.kept_mk, State.kept_fold, kept_ite, kept_ite_fst, TimSt.setPin_incr, TimSt.setKey_incr, TimSt.setPort_incr, TimSt.publish_incr, State.latchApply_kept, State.latchDecide_kept]; done))
theorem State.latchPass_kept (s : State) (due : Latch → Option Nat) : (State.latchPass s due).kept = s.kept := by
  simp only [State.latchPass, State.kept_mk, State.kept_fold, kept_ite, kept_ite_fst, TimSt.setPin_incr, TimSt.setKey_incr, TimSt.setPort_incr, TimSt.publish_incr, State.latchTurn_kept, kept_foldl, ite_self, implies_true]
theorem State.boundaryLatches_kept (s : State) (step : Bool) : (State.boundaryLatches s step).kept = s.kept := by
  simp only [State.boundaryLatches, State.kept_mk, State.kept_fold, kept_ite, kept_ite_fst, TimSt.setPin_incr, TimSt.setKey_incr, TimSt.setPort_incr, TimSt.publish_incr, State.latchPass_kept, ite_self, implies_true]
theorem State.workBoundary_kept (s : State) (ds : List Domain) : (State.workBoundary s ds).kept = s.kept := by
  simp only [State.workBoundary, State.kept_mk, State.kept_fold, kept_ite, kept_ite_fst, TimSt.setPin_incr, TimSt.setKey_incr, TimSt.setPort_incr, TimSt.publish_incr, State.itemApply_kept, State.latchPass_kept, State.persSet_kept, kept_foldl, ite_self, implies_true]
theorem State.quietBoundary_kept (s : State) : (State.quietBoundary s).kept = s.kept := by
  simp only [State.quietBoundary, State.kept_mk, State.kept_fold, kept_ite, kept_ite_fst, TimSt.setPin_incr, TimSt.setKey_incr, TimSt.setPort_incr, TimSt.publish_incr, State.workBoundary_kept, ite_self, implies_true]
theorem State.commitNext_kept (s : State) (fn hcLeft : Nat) : (State.commitNext s fn hcLeft).kept = s.kept := by
  simp only [State.commitNext, State.kept_mk, State.kept_fold, kept_ite, kept_ite_fst, TimSt.setPin_incr, TimSt.setKey_incr, TimSt.setPort_incr, TimSt.publish_incr, State.latchAccept_kept, State.latchRefuse_kept, ite_self, implies_true]
theorem State.commitSched_kept (s : State) (fn : Nat) (val : Word) (hcLeft : Nat) : (State.commitSched s fn val hcLeft).kept = s.kept := by
  simp only [State.commitSched, State.kept_mk, State.kept_fold, kept_ite, kept_ite_fst, TimSt.setPin_incr, TimSt.setKey_incr, TimSt.setPort_incr, TimSt.publish_incr, State.jlSendAll_kept, State.latchAccept_kept, State.latchDecide_kept, State.latchLate_kept, State.latchRefuse_kept, ite_self, implies_true]
theorem State.commitDom_kept (s : State) (fn : Nat) (val : Word) : (State.commitDom s fn val).kept = s.kept := by
  simp only [State.commitDom, State.kept_mk, State.kept_fold, kept_ite, kept_ite_fst, TimSt.setPin_incr, TimSt.setKey_incr, TimSt.setPort_incr, TimSt.publish_incr, State.latchAccept_kept, State.latchRefuse_kept, ite_self, implies_true]
theorem execLatchCommitNext_kept (fn : Nat) (val : Word) (hcLeft : Nat) (s : State) : ∃ t, execLatchCommitNext fn val hcLeft s = .next t ∧ t.kept = s.kept := by
  refine ⟨_, rfl, ?_⟩; simp only [State.kept_mk, State.kept_fold, kept_ite, kept_ite_fst, TimSt.setPin_incr, TimSt.setKey_incr, TimSt.setPort_incr, TimSt.publish_incr, State.commitNext_kept, ite_self, implies_true]
theorem execLatchCommitSched_kept (fn : Nat) (val : Word) (hcLeft : Nat) (s : State) : ∃ t, execLatchCommitSched fn val hcLeft s = .next t ∧ t.kept = s.kept := by
  refine ⟨_, rfl, ?_⟩; simp only [State.kept_mk, State.kept_fold, kept_ite, kept_ite_fst, TimSt.setPin_incr, TimSt.setKey_incr, TimSt.setPort_incr, TimSt.publish_incr, State.commitSched_kept, ite_self, implies_true]
theorem execLatchCommitDomain_kept (fn : Nat) (val : Word) (s : State) : ∃ t, execLatchCommitDomain fn val s = .next t ∧ t.kept = s.kept := by
  refine ⟨_, rfl, ?_⟩; simp only [State.kept_mk, State.kept_fold, kept_ite, kept_ite_fst, TimSt.setPin_incr, TimSt.setKey_incr, TimSt.setPort_incr, TimSt.publish_incr, State.commitDom_kept, ite_self, implies_true]
theorem State.armIn_kept (s : State) (a : Arm) : (State.armIn s a).kept = s.kept := by
  simp only [State.armIn, State.kept_mk, State.kept_fold, kept_ite, kept_ite_fst, TimSt.setPin_incr, TimSt.setKey_incr, TimSt.setPort_incr, TimSt.publish_incr, ite_self, implies_true]
theorem execArmReceive_kept (dev tag sec ns : Nat) (s : State) : ∃ t, execArmReceive dev tag sec ns s = .next t ∧ t.kept = s.kept := by
  refine ⟨_, rfl, ?_⟩; simp only [State.kept_mk, State.kept_fold, kept_ite, kept_ite_fst, TimSt.setPin_incr, TimSt.setKey_incr, TimSt.setPort_incr, TimSt.publish_incr, State.armIn_kept, ite_self, implies_true]
theorem execArmExpiry_kept (dev tag sec ns : Nat) (s : State) : ∃ t, execArmExpiry dev tag sec ns s = .next t ∧ t.kept = s.kept := by
  refine ⟨_, rfl, ?_⟩; simp only [State.kept_mk, State.kept_fold, kept_ite, kept_ite_fst, TimSt.setPin_incr, TimSt.setKey_incr, TimSt.setPort_incr, TimSt.publish_incr, ite_self, implies_true]
theorem execGroupGuardDecision_kept (num : Nat) (s : State) : ∃ t, execGroupGuardDecision num s = .next t ∧ t.kept = s.kept := by
  refine ⟨_, rfl, ?_⟩; simp only [State.kept_mk, State.kept_fold, kept_ite, kept_ite_fst, TimSt.setPin_incr, TimSt.setKey_incr, TimSt.setPort_incr, TimSt.publish_incr, State.latchDecide_kept, State.latchPass_kept, ite_self, implies_true]
theorem State.frameBoundary_kept (s : State) (ty i : Nat) : (State.frameBoundary s ty i).kept = s.kept := by
  simp only [State.frameBoundary, State.kept_mk, State.kept_fold, kept_ite, kept_ite_fst, TimSt.setPin_incr, TimSt.setKey_incr, TimSt.setPort_incr, TimSt.publish_incr, State.workBoundary_kept, ite_self, implies_true]
theorem execStripeStart_kept (x : EncStart) (s : State) : ∃ t, execStripeStart x s = .next t ∧ t.kept = s.kept := by
  refine ⟨_, rfl, ?_⟩; simp only [State.kept_mk, State.kept_fold, kept_ite, kept_ite_fst, TimSt.setPin_incr, TimSt.setKey_incr, TimSt.setPort_incr, TimSt.publish_incr, State.done_kept, State.frameBoundary_kept, State.stripeStart_kept, ite_self, implies_true]
theorem execCmpFrameInstant_kept (unit : Nat) (poisonTiles : List Nat) (s : State) : ∃ t, execCmpFrameInstant unit poisonTiles s = .next t ∧ t.kept = s.kept := by
  unfold execCmpFrameInstant; try dsimp only
  (repeat' split) <;> refine ⟨_, rfl, ?_⟩ <;> try dsimp only
  all_goals (repeat' split) <;> (first | done | (simp only [State.kept_mk, State.kept_fold, kept_ite, kept_ite_fst, TimSt.setPin_incr, TimSt.setKey_incr, TimSt.setPort_incr, TimSt.publish_incr, State.cmpInstant_kept, State.frameBoundary_kept, ite_self, implies_true]; done) | (simp [State.kept_mk, State.kept_fold, kept_ite, kept_ite_fst, TimSt.setPin_incr, TimSt.setKey_incr, TimSt.setPort_incr, TimSt.publish_incr, State.cmpInstant_kept, State.frameBoundary_kept]; done))
theorem execDecFrameDecode_kept (sash stream : Nat) (p : DecPicture) (s : State) : ∃ t, execDecFrameDecode sash stream p s = .next t ∧ t.kept = s.kept := by
  unfold execDecFrameDecode; refine ⟨_, rfl, ?_⟩; try dsimp only
  (repeat' split) <;> (first | done | (simp only [State.kept_mk, State.kept_fold, kept_ite, kept_ite_fst, TimSt.setPin_incr, TimSt.setKey_incr, TimSt.setPort_incr, TimSt.publish_incr, State.decFrame_kept, State.frameBoundary_kept, ite_self, implies_true]; done) | (simp [State.kept_mk, State.kept_fold, kept_ite, kept_ite_fst, TimSt.setPin_incr, TimSt.setKey_incr, TimSt.setPort_incr, TimSt.publish_incr, State.decFrame_kept, State.frameBoundary_kept]; done))
theorem execVinStripeStream_kept (vin frame k : Nat) (s : State) : ∃ t, execVinStripeStream vin frame k s = .next t ∧ t.kept = s.kept := by
  refine ⟨_, rfl, ?_⟩; simp only [State.kept_mk, State.kept_fold, kept_ite, kept_ite_fst, TimSt.setPin_incr, TimSt.setKey_incr, TimSt.setPort_incr, TimSt.publish_incr, State.frameBoundary_kept, State.vinStream_kept, ite_self, implies_true]
theorem execHngBundleExecute_kept (core sash : Nat) (s : State) : ∃ t, execHngBundleExecute core sash s = .next t ∧ t.kept = s.kept := by
  refine ⟨_, rfl, ?_⟩; simp only [State.kept_mk, State.kept_fold, kept_ite, kept_ite_fst, TimSt.setPin_incr, TimSt.setKey_incr, TimSt.setPort_incr, TimSt.publish_incr, State.frameBoundary_kept, State.hngExecute_kept, ite_self, implies_true]
theorem execHngHalt_kept (e : CmdEnv) (body : List Byte) (s : State) : ∃ t, execHngHalt e body s = .next t ∧ t.kept = s.kept := by
  unfold execHngHalt; refine ⟨_, rfl, ?_⟩; try dsimp only
  (repeat' split) <;> (first | done | (simp only [State.kept_mk, State.kept_fold, kept_ite, kept_ite_fst, TimSt.setPin_incr, TimSt.setKey_incr, TimSt.setPort_incr, TimSt.publish_incr, State.done_kept, State.frameBoundary_kept, State.hngHalt_kept, ite_self, implies_true]; done) | (simp [State.kept_mk, State.kept_fold, kept_ite, kept_ite_fst, TimSt.setPin_incr, TimSt.setKey_incr, TimSt.setPort_incr, TimSt.publish_incr, State.done_kept, State.frameBoundary_kept, State.hngHalt_kept]; done))
theorem execSashWorkBoundary_kept (sash : Nat) (s : State) : ∃ t, execSashWorkBoundary sash s = .next t ∧ t.kept = s.kept := by
  refine ⟨_, rfl, ?_⟩; simp only [State.kept_mk, State.kept_fold, kept_ite, kept_ite_fst, TimSt.setPin_incr, TimSt.setKey_incr, TimSt.setPort_incr, TimSt.publish_incr, State.rebuild_kept, State.workBoundary_kept, ite_self, implies_true]
theorem State.secRx_kept (s : State) (f : RxFrame) (an pn : Nat) (ok : Bool) : (State.secRx s f an pn ok).1.kept = s.kept := by
  simp only [State.secRx, State.kept_mk, State.kept_fold, kept_ite, kept_ite_fst, TimSt.setPin_incr, TimSt.setKey_incr, TimSt.setPort_incr, TimSt.publish_incr, State.cipher_kept, State.secDrop_kept, State.setSlot_kept, ite_self, implies_true]
theorem State.secY_kept (s : State) (f : RxFrame) : (State.secY s f).1.kept = s.kept := by
  unfold State.secY; try dsimp only
  (repeat' split) <;> (first | done | (simp only [State.kept_mk, State.kept_fold, kept_ite, kept_ite_fst, TimSt.setPin_incr, TimSt.setKey_incr, TimSt.setPort_incr, TimSt.publish_incr, State.secDrop_kept, State.secRx_kept, ite_self, implies_true]; done) | (simp [State.kept_mk, State.kept_fold, kept_ite, kept_ite_fst, TimSt.setPin_incr, TimSt.setKey_incr, TimSt.setPort_incr, TimSt.publish_incr, State.secDrop_kept, State.secRx_kept]; done))
theorem State.askSplice_kept (s : State) : (State.askSplice s).kept = s.kept := by
  simp only [State.askSplice, State.kept_mk, State.kept_fold, kept_ite, kept_ite_fst, TimSt.setPin_incr, TimSt.setKey_incr, TimSt.setPort_incr, TimSt.publish_incr, State.splAsked_kept, kept_foldl, ite_self, implies_true]
theorem State.classifyAll_kept (s : State) (f : RxFrame) : (State.classifyAll s f).kept = s.kept := by
  unfold State.classifyAll; try dsimp only
  (repeat' split) <;> (first | done | (simp only [State.kept_mk, State.kept_fold, kept_ite, kept_ite_fst, TimSt.setPin_incr, TimSt.setKey_incr, TimSt.setPort_incr, TimSt.publish_incr, State.askSplice_kept, State.classify_kept, State.exception_kept, State.tunnelRx_kept, State.vinRx_kept, ite_self, implies_true]; done) | (simp [State.kept_mk, State.kept_fold, kept_ite, kept_ite_fst, TimSt.setPin_incr, TimSt.setKey_incr, TimSt.setPort_incr, TimSt.publish_incr, State.askSplice_kept, State.classify_kept, State.exception_kept, State.tunnelRx_kept, State.vinRx_kept]; done))
theorem State.frameRx_kept (s : State) (f : RxFrame) : (State.frameRx s f).kept = s.kept := by
  simp only [State.frameRx, State.kept_mk, State.kept_fold, kept_ite, kept_ite_fst, TimSt.setPin_incr, TimSt.setKey_incr, TimSt.setPort_incr, TimSt.publish_incr, State.classifyAll_kept, ite_self, implies_true]
theorem State.macRx_kept (s : State) (f : RxFrame) : (State.macRx s f).kept = s.kept := by
  simp only [State.macRx, State.kept_mk, State.kept_fold, kept_ite, kept_ite_fst, TimSt.setPin_incr, TimSt.setKey_incr, TimSt.setPort_incr, TimSt.publish_incr, State.frameRx_kept, State.secY_kept, ite_self, implies_true]
theorem execFrameClassify_kept (f : RxFrame) (s : State) : ∃ t, execFrameClassify f s = .next t ∧ t.kept = s.kept := by
  refine ⟨_, rfl, ?_⟩; simp only [State.kept_mk, State.kept_fold, kept_ite, kept_ite_fst, TimSt.setPin_incr, TimSt.setKey_incr, TimSt.setPort_incr, TimSt.publish_incr, State.macRx_kept, State.offer_kept, ite_self, implies_true]
theorem State.snapFor_kept (s : State) (a : SnapAsk) : (State.snapFor s a).kept = s.kept := by
  simp only [State.snapFor, State.kept_mk, State.kept_fold, kept_ite, kept_ite_fst, TimSt.setPin_incr, TimSt.setKey_incr, TimSt.setPort_incr, TimSt.publish_incr, State.jlSend_kept, ite_self, implies_true]
theorem State.snapCapture_kept (s : State) (step : Bool) : (State.snapCapture s step).kept = s.kept := by
  simp only [State.snapCapture, State.kept_mk, State.kept_fold, kept_ite, kept_ite_fst, TimSt.setPin_incr, TimSt.setKey_incr, TimSt.setPort_incr, TimSt.publish_incr, State.snapFor_kept, State.snapOwn_kept, kept_foldl, ite_self, implies_true]
theorem State.snapSched_kept (s : State) (val : Word) (hcLeft : Nat) : (State.snapSched s val hcLeft).kept = s.kept := by
  simp only [State.snapSched, State.kept_mk, State.kept_fold, kept_ite, kept_ite_fst, TimSt.setPin_incr, TimSt.setKey_incr, TimSt.setPort_incr, TimSt.publish_incr, State.jlSendAll_kept, State.snapStart_kept, ite_self, implies_true]
theorem execSnapCmdSched_kept (val : Word) (hcLeft : Nat) (s : State) : ∃ t, execSnapCmdSched val hcLeft s = .next t ∧ t.kept = s.kept := by
  refine ⟨_, rfl, ?_⟩; simp only [State.kept_mk, State.kept_fold, kept_ite, kept_ite_fst, TimSt.setPin_incr, TimSt.setKey_incr, TimSt.setPort_incr, TimSt.publish_incr, State.snapSched_kept, ite_self, implies_true]
theorem State.mediaStop_kept (s : State) : (State.mediaStop s).kept = s.kept := by
  simp only [State.mediaStop, State.kept_mk, State.kept_fold, kept_ite, kept_ite_fst, TimSt.setPin_incr, TimSt.setKey_incr, TimSt.setPort_incr, TimSt.publish_incr, kept_foldl, ite_self, implies_true]
theorem State.audioStop_kept (s : State) : (State.audioStop s).kept = s.kept := by
  simp only [State.audioStop, State.kept_mk, State.kept_fold, kept_ite, kept_ite_fst, TimSt.setPin_incr, TimSt.setKey_incr, TimSt.setPort_incr, TimSt.publish_incr, State.confEnd_kept, State.decClose_kept, State.encClose_kept, kept_foldl, ite_self, implies_true]
theorem State.queueStop_kept (s : State) : (State.queueStop s).kept = s.kept := by
  simp only [State.queueStop, State.kept_mk, State.kept_fold, kept_ite, kept_ite_fst, TimSt.setPin_incr, TimSt.setKey_incr, TimSt.setPort_incr, TimSt.publish_incr, kept_foldl, ite_self, implies_true]
theorem State.serviceStop_kept (s : State) : (State.serviceStop s).kept = s.kept := by
  simp only [State.serviceStop, State.kept_mk, State.kept_fold, kept_ite, kept_ite_fst, TimSt.setPin_incr, TimSt.setKey_incr, TimSt.setPort_incr, TimSt.publish_incr, ite_self, implies_true]
theorem State.bar2Abort_kept (s : State) : (State.bar2Abort s).kept = s.kept := by
  simp only [State.bar2Abort, State.kept_mk, State.kept_fold, kept_ite, kept_ite_fst, TimSt.setPin_incr, TimSt.setKey_incr, TimSt.setPort_incr, TimSt.publish_incr, ite_self, implies_true]
theorem State.linksDown_kept (s : State) : (State.linksDown s).kept = s.kept := by
  simp only [State.linksDown, State.kept_mk, State.kept_fold, kept_ite, kept_ite_fst, TimSt.setPin_incr, TimSt.setKey_incr, TimSt.setPort_incr, TimSt.publish_incr, State.jlEnter_kept, kept_foldl, ite_self, implies_true]
theorem State.latchStop_kept (s : State) : (State.latchStop s).kept = s.kept := by
  simp only [State.latchStop, State.kept_mk, State.kept_fold, kept_ite, kept_ite_fst, TimSt.setPin_incr, TimSt.setKey_incr, TimSt.setPort_incr, TimSt.publish_incr, State.itemApply_kept, State.latchStatus_kept, State.persSet_kept, kept_foldl, ite_self, implies_true]
theorem State.loaderStop_kept (s : State) : (State.loaderStop s).kept = s.kept := by
  simp only [State.loaderStop, State.kept_mk, State.kept_fold, kept_ite, kept_ite_fst, TimSt.setPin_incr, TimSt.setKey_incr, TimSt.setPort_incr, TimSt.publish_incr, ite_self, implies_true]
theorem State.fabricStop_kept (s : State) : (State.fabricStop s).kept = s.kept := by
  simp only [State.fabricStop, State.kept_mk, State.kept_fold, kept_ite, kept_ite_fst, TimSt.setPin_incr, TimSt.setKey_incr, TimSt.setPort_incr, TimSt.publish_incr, ite_self, implies_true]
theorem State.coreStop_kept (s : State) : (State.coreStop s).kept = s.kept := by
  simp only [State.coreStop, State.kept_mk, State.kept_fold, kept_ite, kept_ite_fst, TimSt.setPin_incr, TimSt.setKey_incr, TimSt.setPort_incr, TimSt.publish_incr, State.audioStop_kept, State.bar2Abort_kept, State.bistAbort_kept, State.fabricStop_kept, State.hngWarm_kept, State.latchStop_kept, State.linksDown_kept, State.loaderStop_kept, State.mediaStop_kept, State.mergeFlushAll_kept, State.queueStop_kept, State.serviceStop_kept, State.timeLoss_kept, kept_foldl, ite_self, implies_true]
theorem State.startRead_kept (s : State) (bank : Bool) : (State.startRead s bank).kept = s.kept := by
  simp only [State.startRead, State.kept_mk, State.kept_fold, kept_ite, kept_ite_fst, TimSt.setPin_incr, TimSt.setKey_incr, TimSt.setPort_incr, TimSt.publish_incr, ite_self, implies_true]
theorem State.startLoad_kept (s : State) (bank : Bool) : (State.startLoad s bank).kept = s.kept := by
  simp only [State.startLoad, State.kept_mk, State.kept_fold, kept_ite, kept_ite_fst, TimSt.setPin_incr, TimSt.setKey_incr, TimSt.setPort_incr, TimSt.publish_incr, State.loadStart_kept, ite_self, implies_true]
theorem State.warmImage_kept (s : State) : (State.warmImage s).kept = s.kept := by
  unfold State.warmImage; try dsimp only
  (repeat' split) <;> (first | done | (simp only [State.kept_mk, State.kept_fold, kept_ite, kept_ite_fst, TimSt.setPin_incr, TimSt.setKey_incr, TimSt.setPort_incr, TimSt.publish_incr, State.hngWarm_kept, State.startRead_kept, ite_self, implies_true]; done) | (simp [State.kept_mk, State.kept_fold, kept_ite, kept_ite_fst, TimSt.setPin_incr, TimSt.setKey_incr, TimSt.setPort_incr, TimSt.publish_incr, State.hngWarm_kept, State.startRead_kept]; done))
theorem State.bankPut_kept (s : State) (o : Nat) (b : Byte) : (State.bankPut s o b).kept = s.kept := by
  unfold State.bankPut; try dsimp only
  (repeat' split) <;> (first | done | (simp only [State.kept_mk, State.kept_fold, kept_ite, kept_ite_fst, TimSt.setPin_incr, TimSt.setKey_incr, TimSt.setPort_incr, TimSt.publish_incr, ite_self, implies_true]; done) | (simp [State.kept_mk, State.kept_fold, kept_ite, kept_ite_fst, TimSt.setPin_incr, TimSt.setKey_incr, TimSt.setPort_incr, TimSt.publish_incr]; done))
theorem State.bankClear_kept (s : State) (n : Nat) : (State.bankClear s n).kept = s.kept := by
  unfold State.bankClear; try dsimp only
  (repeat' split) <;> (first | done | (simp only [State.kept_mk, State.kept_fold, kept_ite, kept_ite_fst, TimSt.setPin_incr, TimSt.setKey_incr, TimSt.setPort_incr, TimSt.publish_incr, kept_foldl, ite_self, implies_true]; done) | (simp [State.kept_mk, State.kept_fold, kept_ite, kept_ite_fst, TimSt.setPin_incr, TimSt.setKey_incr, TimSt.setPort_incr, TimSt.publish_incr, kept_foldl]; done))
theorem State.flashCopy_kept (s : State) : (State.flashCopy s).kept = s.kept := by
  simp only [State.flashCopy, State.kept_mk, State.kept_fold, kept_ite, kept_ite_fst, TimSt.setPin_incr, TimSt.setKey_incr, TimSt.setPort_incr, TimSt.publish_incr, State.bankClear_kept, State.bankPut_kept, kept_foldl, ite_self, implies_true]
theorem State.fwBegin_kept (s : State) : (State.fwBegin s).kept = s.kept := by
  simp only [State.fwBegin, State.kept_mk, State.kept_fold, kept_ite, kept_ite_fst, TimSt.setPin_incr, TimSt.setKey_incr, TimSt.setPort_incr, TimSt.publish_incr, kept_foldl, ite_self, implies_true]
theorem State.fwVerify_kept (s : State) (oks : List Bool) : (State.fwVerify s oks).kept = s.kept := by
  simp only [State.fwVerify, State.kept_mk, State.kept_fold, kept_ite, kept_ite_fst, TimSt.setPin_incr, TimSt.setKey_incr, TimSt.setPort_incr, TimSt.publish_incr]
  rw [LdrSt.foldl_flash _ LdrSt.fwCopy_flash]
  rfl
theorem State.lintelStart_kept (s : State) : (State.lintelStart s).kept = s.kept := by
  simp only [State.lintelStart, State.kept_mk, State.kept_fold, kept_ite, kept_ite_fst, TimSt.setPin_incr, TimSt.setKey_incr, TimSt.setPort_incr, TimSt.publish_incr, State.svcStart_kept, kept_foldl, ite_self, implies_true]
theorem State.marchFails_kept (s : State) (l : List MarchFail) : (State.marchFails s l).kept = s.kept := by
  simp only [State.marchFails, State.kept_mk, State.kept_fold, kept_ite, kept_ite_fst, TimSt.setPin_incr, TimSt.setKey_incr, TimSt.setPort_incr, TimSt.publish_incr, State.permanent_kept, State.transient_kept, kept_foldl, ite_self, implies_true]
theorem State.marchSram_kept (s : State) (l : List MarchFail) : (State.marchSram s l).kept = s.kept := by
  simp only [State.marchSram, State.kept_mk, State.kept_fold, kept_ite, kept_ite_fst, TimSt.setPin_incr, TimSt.setKey_incr, TimSt.setPort_incr, TimSt.publish_incr, State.marchFails_kept, ite_self, implies_true]
theorem State.otpApply_kept (s : State) (e : Nat) : (State.otpApply s e).kept = s.kept := by
  unfold State.otpApply; try dsimp only
  (repeat' split) <;> (first | done | (simp only [State.kept_mk, State.kept_fold, kept_ite, kept_ite_fst, TimSt.setPin_incr, TimSt.setKey_incr, TimSt.setPort_incr, TimSt.publish_incr, ite_self, implies_true]; done) | (simp [State.kept_mk, State.kept_fold, kept_ite, kept_ite_fst, TimSt.setPin_incr, TimSt.setKey_incr, TimSt.setPort_incr, TimSt.publish_incr]; done))
theorem State.otpLoad_kept (s : State) : (State.otpLoad s).kept = s.kept := by
  simp only [State.otpLoad, State.kept_mk, State.kept_fold, kept_ite, kept_ite_fst, TimSt.setPin_incr, TimSt.setKey_incr, TimSt.setPort_incr, TimSt.publish_incr, State.otpApply_kept, State.shutterTrigger_kept, kept_foldl, ite_self, implies_true]
theorem State.loadWaits_kept (s0 : State) : (State.loadWaits s0).kept = s0.kept := by
  unfold State.loadWaits; try dsimp only
  (repeat' split) <;> (first | done | (simp only [State.kept_mk, State.kept_fold, kept_ite, kept_ite_fst, TimSt.setPin_incr, TimSt.setKey_incr, TimSt.setPort_incr, TimSt.publish_incr, State.loadFree_kept, State.loadRequest_kept, ite_self, implies_true]; done) | (simp [State.kept_mk, State.kept_fold, kept_ite, kept_ite_fst, TimSt.setPin_incr, TimSt.setKey_incr, TimSt.setPort_incr, TimSt.publish_incr, State.loadFree_kept, State.loadRequest_kept]; done))
theorem State.boundaryWork_kept (s : State) (step : Bool) (sensors : Option (List (Nat × Int))) : (State.boundaryWork s step sensors).kept = s.kept := by
  simp only [State.boundaryWork, State.kept_mk, State.kept_fold, kept_ite, kept_ite_fst, TimSt.setPin_incr, TimSt.setKey_incr, TimSt.setPort_incr, TimSt.publish_incr, State.audBoundary_kept, State.boundaryLatches_kept, State.dblBoundary_kept, State.emergRelease_kept, State.hotWatch_kept, State.loadWaits_kept, State.publish_kept, State.quietBoundary_kept, State.refill_kept, State.sample_kept, State.secondEnds_kept, State.snapCapture_kept, State.tsoBoundary_kept, ite_self, implies_true]
theorem State.boundary_kept (s : State) (step : Bool) (sensors : Option (List (Nat × Int))) : (State.boundary s step sensors).kept = s.kept := by
  simp only [State.boundary, State.kept_mk, State.kept_fold, kept_ite, kept_ite_fst, TimSt.setPin_incr, TimSt.setKey_incr, TimSt.setPort_incr, TimSt.publish_incr, State.boundaryLatches_kept, State.boundaryWork_kept, State.loadWaits_kept, State.periodBegins_kept, State.secondEnds_kept, ite_self, implies_true]
theorem execLouvreBoundary_kept (sensors : List (Nat × Int)) (s : State) : ∃ t, execLouvreBoundary sensors s = .next t ∧ t.kept = s.kept := by
  refine ⟨_, rfl, ?_⟩; simp only [State.kept_mk, State.kept_fold, kept_ite, kept_ite_fst, TimSt.setPin_incr, TimSt.setKey_incr, TimSt.setPort_incr, TimSt.publish_incr, State.boundary_kept, State.periodEnds_kept, State.toBoundary_kept, ite_self, implies_true]
theorem execTimeStep_kept (val : Word) (s : State) : ∃ t, execTimeStep val s = .next t ∧ t.kept = s.kept := by
  refine ⟨_, rfl, ?_⟩; simp only [State.kept_mk, State.kept_fold, kept_ite, kept_ite_fst, TimSt.setPin_incr, TimSt.setKey_incr, TimSt.setPort_incr, TimSt.publish_incr, State.boundary_kept, State.counterStep_kept, State.gclDue_kept, State.periodEnds_kept, ite_self, implies_true]
theorem State.enter_kept (s : State) (p : Phase) : (State.enter s p).kept = s.kept := by
  simp only [State.enter, State.kept_mk, State.kept_fold, kept_ite, kept_ite_fst, TimSt.setPin_incr, TimSt.setKey_incr, TimSt.setPort_incr, TimSt.publish_incr, ite_self, implies_true]
theorem State.stepRetry_kept (s : State) : (State.stepRetry s).kept = s.kept := by
  simp only [State.stepRetry, State.kept_mk, State.kept_fold, kept_ite, kept_ite_fst, TimSt.setPin_incr, TimSt.setKey_incr, TimSt.setPort_incr, TimSt.publish_incr, ite_self, implies_true]
theorem State.coldReset_soft (s : State) : s.Soft (State.coldReset s) := by
  exact ⟨rfl, rfl, fun _ => rfl, fun _ => incrOk_reset⟩
theorem State.coldBegin_soft (s : State) (source : Nat) : s.Soft (State.coldBegin s source) := by
  unfold State.coldBegin
  refine soft_trans (State.coldReset_soft s) (soft_of_kept ?_)
  simp only [State.kept_mk, State.kept_fold, kept_ite, kept_ite_fst, TimSt.setPin_incr, TimSt.setKey_incr, TimSt.setPort_incr, TimSt.publish_incr, State.enter_kept]
theorem execColdStart_soft (s : State) : ∃ t, execColdStart s = .next t ∧ s.Soft t := by
  unfold execColdStart
  refine ⟨_, rfl, ?_⟩
  split
  · exact State.coldBegin_soft s 0
  · exact soft_of_kept rfl
theorem State.holdReset_soft (s : State) : s.Soft (State.holdReset s) := by
  exact ⟨rfl, rfl, fun _ => rfl, fun _ => incrOk_reset⟩
theorem execResetNFall_soft (s : State) : ∃ t, execResetNFall s = .next t ∧ s.Soft t := by
  exact ⟨_, rfl, State.holdReset_soft s⟩
theorem execPowerLoss_soft (s : State) : ∃ t, execPowerLoss s = .next t ∧ s.Soft t := by
  exact ⟨_, rfl, State.holdReset_soft s⟩
theorem State.warmBegin_kept (s : State) (r : WarmReq) (again : Bool) : (State.warmBegin s r again).kept = s.kept := by
  simp only [State.warmBegin, State.kept_mk, State.kept_fold, kept_ite, kept_ite_fst, TimSt.setPin_incr, TimSt.setKey_incr, TimSt.setPort_incr, TimSt.publish_incr, State.coreStop_kept, State.enter_kept, ite_self, implies_true]
theorem State.warmAsk_kept (s : State) (r : WarmReq) : (State.warmAsk s r).kept = s.kept := by
  unfold State.warmAsk; try dsimp only
  (repeat' split) <;> (first | done | (simp only [State.kept_mk, State.kept_fold, kept_ite, kept_ite_fst, TimSt.setPin_incr, TimSt.setKey_incr, TimSt.setPort_incr, TimSt.publish_incr, State.hold_kept, State.warmBegin_kept, ite_self, implies_true]; done) | (simp [State.kept_mk, State.kept_fold, kept_ite, kept_ite_fst, TimSt.setPin_incr, TimSt.setKey_incr, TimSt.setPort_incr, TimSt.publish_incr, State.hold_kept, State.warmBegin_kept]; done))
theorem State.warmRequest_kept (s : State) (recovery : Bool) (source : Nat) : (State.warmRequest s recovery source).kept = s.kept := by
  simp only [State.warmRequest, State.kept_mk, State.kept_fold, kept_ite, kept_ite_fst, TimSt.setPin_incr, TimSt.setKey_incr, TimSt.setPort_incr, TimSt.publish_incr, State.warmAsk_kept, ite_self, implies_true]
theorem execWarmNFall_kept (s : State) : ∃ t, execWarmNFall s = .next t ∧ t.kept = s.kept := by
  refine ⟨_, rfl, ?_⟩; simp only [State.kept_mk, State.kept_fold, kept_ite, kept_ite_fst, TimSt.setPin_incr, TimSt.setKey_incr, TimSt.setPort_incr, TimSt.publish_incr, State.warmRequest_kept, ite_self, implies_true]
theorem execStartCtlWarm_kept (fn : Nat) (val : Word) (s : State) : ∃ t, execStartCtlWarm fn val s = .next t ∧ t.kept = s.kept := by
  refine ⟨_, rfl, ?_⟩; simp only [State.kept_mk, State.kept_fold, kept_ite, kept_ite_fst, TimSt.setPin_incr, TimSt.setKey_incr, TimSt.setPort_incr, TimSt.publish_incr, State.warmRequest_kept, ite_self, implies_true]
theorem State.startStop_soft (s : State) (code : Nat) : s.Soft (State.startStop s code) := by
  unfold State.startStop
  split
  · exact State.coldBegin_soft s 5
  · exact soft_of_kept (by simp only [State.kept_mk, State.kept_fold, kept_ite, kept_ite_fst, TimSt.setPin_incr, TimSt.setKey_incr, TimSt.setPort_incr, TimSt.publish_incr])
theorem State.stackFail_kept (s : State) (n : Nat) : (State.stackFail s n).kept = s.kept := by
  simp only [State.stackFail, State.kept_mk, State.kept_fold, kept_ite, kept_ite_fst, TimSt.setPin_incr, TimSt.setKey_incr, TimSt.setPort_incr, TimSt.publish_incr, State.shutterTrigger_kept, kept_foldl, ite_self, implies_true]
theorem State.lanesFail_kept (s : State) : (State.lanesFail s).kept = s.kept := by
  simp only [State.lanesFail, State.kept_mk, State.kept_fold, kept_ite, kept_ite_fst, TimSt.setPin_incr, TimSt.setKey_incr, TimSt.setPort_incr, TimSt.publish_incr, State.permanent_kept, kept_foldl, ite_self, implies_true]
theorem State.coresFail_kept (s : State) (cores : List Nat) : (State.coresFail s cores).kept = s.kept := by
  simp only [State.coresFail, State.kept_mk, State.kept_fold, kept_ite, kept_ite_fst, TimSt.setPin_incr, TimSt.setKey_incr, TimSt.setPort_incr, TimSt.publish_incr, State.permanent_kept, kept_foldl, ite_self, implies_true]
theorem State.recutParts_kept (s : State) : (State.recutParts s).kept = s.kept := by
  simp only [State.recutParts, State.kept_mk, State.kept_fold, kept_ite, kept_ite_fst, TimSt.setPin_incr, TimSt.setKey_incr, TimSt.setPort_incr, TimSt.publish_incr, ite_self, implies_true]
theorem State.hbmBegin_kept (s : State) : (State.hbmBegin s).kept = s.kept := by
  simp only [State.hbmBegin, State.kept_mk, State.kept_fold, kept_ite, kept_ite_fst, TimSt.setPin_incr, TimSt.setKey_incr, TimSt.setPort_incr, TimSt.publish_incr, kept_foldl, ite_self, implies_true]
theorem State.heldTrigger_kept (s : State) : (State.heldTrigger s).kept = s.kept := by
  unfold State.heldTrigger; try dsimp only
  (repeat' split) <;> (first | done | (simp only [State.kept_mk, State.kept_fold, kept_ite, kept_ite_fst, TimSt.setPin_incr, TimSt.setKey_incr, TimSt.setPort_incr, TimSt.publish_incr, State.freeze_kept, ite_self, implies_true]; done) | (simp [State.kept_mk, State.kept_fold, kept_ite, kept_ite_fst, TimSt.setPin_incr, TimSt.setKey_incr, TimSt.setPort_incr, TimSt.publish_incr, State.freeze_kept]; done))
theorem State.ptpBegin_kept (s : State) : (State.ptpBegin s).kept = s.kept := by
  simp only [State.ptpBegin, State.kept_mk, State.kept_fold, kept_ite, kept_ite_fst, TimSt.setPin_incr, TimSt.setKey_incr, TimSt.setPort_incr, TimSt.publish_incr, kept_foldl, ite_self, implies_true]
theorem State.opens_kept (s : State) (warm : Bool) : (State.opens s warm).kept = s.kept := by
  unfold State.opens; try dsimp only
  (repeat' split) <;> (first | done | (simp only [State.kept_mk, State.kept_fold, kept_ite, kept_ite_fst, TimSt.setPin_incr, TimSt.setKey_incr, TimSt.setPort_incr, TimSt.publish_incr, State.bistDue_kept, State.bistRestart_kept, State.hngStart_kept, State.warmBegin_kept, kept_foldl, ite_self, implies_true]; done) | (simp [State.kept_mk, State.kept_fold, kept_ite, kept_ite_fst, TimSt.setPin_incr, TimSt.setKey_incr, TimSt.setPort_incr, TimSt.publish_incr, State.bistDue_kept, State.bistRestart_kept, State.hngStart_kept, State.warmBegin_kept, kept_foldl]; done))
theorem State.afterLinks_kept (s : State) : (State.afterLinks s).kept = s.kept := by
  simp only [State.afterLinks, State.kept_mk, State.kept_fold, kept_ite, kept_ite_fst, TimSt.setPin_incr, TimSt.setKey_incr, TimSt.setPort_incr, TimSt.publish_incr, State.enter_kept, State.ptpBegin_kept, ite_self, implies_true]
theorem State.coldNext_soft (s : State) (n : Nat) (r : StepEnd) : s.Soft (State.coldNext s n r) := by
  unfold State.coldNext
  split
  case h_6 =>
    dsimp only
    split
    · exact soft_trans (soft_of_kept (by simp only [State.kept, Prod.mk.injEq, and_self])) (State.startStop_soft _ 5)
    · exact soft_of_kept (by (repeat' split) <;> simp only [State.kept_mk, State.kept_fold, kept_ite, kept_ite_fst, TimSt.setPin_incr, TimSt.setKey_incr, TimSt.setPort_incr, TimSt.publish_incr, State.afterLinks_kept, State.enter_kept, State.flashCopy_kept, State.fwBegin_kept, State.fwVerify_kept, State.hbmBegin_kept, State.heldTrigger_kept, State.lintelStart_kept, State.marchSram_kept, State.opens_kept, State.otpLoad_kept, State.planStart_kept, State.startLoad_kept, State.startRead_kept])
  all_goals exact soft_of_kept (by (try dsimp only); (repeat' split) <;> simp only [State.kept_mk, State.kept_fold, kept_ite, kept_ite_fst, TimSt.setPin_incr, TimSt.setKey_incr, TimSt.setPort_incr, TimSt.publish_incr, State.afterLinks_kept, State.enter_kept, State.flashCopy_kept, State.fwBegin_kept, State.fwVerify_kept, State.hbmBegin_kept, State.heldTrigger_kept, State.lintelStart_kept, State.marchSram_kept, State.opens_kept, State.otpLoad_kept, State.planStart_kept, State.startLoad_kept, State.startRead_kept])
theorem State.warmNext_soft (s : State) (n : Nat) (r : StepEnd) : s.Soft (State.warmNext s n r) := by
  unfold State.warmNext
  split
  case h_4 =>
    extract_lets x1 s1
    have h1 : s1.kept = s.kept := Eq.trans rfl rfl
    clear_value s1
    split
    · exact soft_trans (soft_of_kept h1) (State.startStop_soft _ 5)
    · exact soft_of_kept (by simp only [State.kept_mk, State.kept_fold, kept_ite, kept_ite_fst, TimSt.setPin_incr, TimSt.setKey_incr, TimSt.setPort_incr, TimSt.publish_incr, State.enter_kept, State.fwBegin_kept, State.fwVerify_kept, State.heldTrigger_kept, State.lintelStart_kept, State.marchSram_kept, State.opens_kept, State.planStart_kept, State.recutParts_kept, State.startLoad_kept, State.warmImage_kept, h1])
  all_goals exact soft_of_kept (by (try dsimp only); (repeat' split) <;> simp only [State.kept_mk, State.kept_fold, kept_ite, kept_ite_fst, TimSt.setPin_incr, TimSt.setKey_incr, TimSt.setPort_incr, TimSt.publish_incr, State.enter_kept, State.fwBegin_kept, State.fwVerify_kept, State.heldTrigger_kept, State.lintelStart_kept, State.marchSram_kept, State.opens_kept, State.planStart_kept, State.recutParts_kept, State.startLoad_kept, State.warmImage_kept])
theorem State.stepEnds_soft (s : State) (r : StepEnd) (next : State → State) (h : ∀ t : State, t.Soft (next t)) : s.Soft (s.stepEnds r next) := by
  unfold State.stepEnds
  dsimp only
  have keep : ∀ t : State, t.kept = s.kept → s.Soft (next t) := fun t ht => soft_trans (soft_of_kept ht) (h t)
  split
  · split
    · exact soft_of_kept rfl
    · exact h s
  · split
    · split
      · exact State.startStop_soft s _
      · exact soft_of_kept (State.stepRetry_kept s)
    · split
      · split
        · exact keep _ (kept_foldl _ (fun a b => by simp only [State.kept_mk, State.kept_fold, kept_ite, kept_ite_fst, TimSt.setPin_incr, TimSt.setKey_incr, TimSt.setPort_incr, TimSt.publish_incr, State.coresFail_kept, State.lanesFail_kept, State.stackFail_kept, State.stepRetry_kept]) _ _)
        · exact soft_of_kept (State.stepRetry_kept s)
      · split
        · split
          · exact keep _ (State.lanesFail_kept s)
          · exact soft_of_kept (State.stepRetry_kept s)
        · split
          · split
            · exact soft_trans (h s) (soft_of_kept (State.coresFail_kept ..))
            · exact soft_of_kept (State.stepRetry_kept s)
          · exact h s
theorem execColdStepComplete_soft (r : StepEnd) (s : State) : ∃ t, execColdStepComplete r s = .next t ∧ s.Soft t := by
  unfold execColdStepComplete
  refine ⟨_, rfl, ?_⟩
  split
  · exact soft_of_kept rfl
  · split
    · split
      · exact soft_of_kept rfl
      · exact State.stepEnds_soft _ _ _ fun t => State.coldNext_soft ..
    · exact State.stepEnds_soft _ _ _ fun t => soft_of_kept (by simp only [State.kept_mk, State.kept_fold, kept_ite, kept_ite_fst, TimSt.setPin_incr, TimSt.setKey_incr, TimSt.setPort_incr, TimSt.publish_incr, State.enter_kept, State.fwBegin_kept, State.heldTrigger_kept])
    · exact soft_of_kept rfl
theorem execWarmStepComplete_soft (r : StepEnd) (s : State) : ∃ t, execWarmStepComplete r s = .next t ∧ s.Soft t := by
  unfold execWarmStepComplete
  refine ⟨_, rfl, ?_⟩
  split
  · exact soft_of_kept rfl
  · split
    · split
      · exact soft_of_kept (State.warmBegin_kept ..)
      · split
        · exact soft_of_kept rfl
        · exact State.stepEnds_soft _ _ _ fun t => State.warmNext_soft ..
    · exact soft_of_kept rfl
theorem State.reply_kept (s : State) (cmd status : Nat) (result : List Byte) : (State.reply s cmd status result).kept = s.kept := by
  simp only [State.reply, State.kept_mk, State.kept_fold, kept_ite, kept_ite_fst, TimSt.setPin_incr, TimSt.setKey_incr, TimSt.setPort_incr, TimSt.publish_incr, ite_self, implies_true]
theorem State.mgmtOpen_kept (s : State) (f : MgmtFrame) (cmd : Nat) (run : State → List Byte → State × Nat × List Byte)
    (h : ∀ t p, (run t p).1.kept = t.kept) : (s.mgmtOpen f cmd run).kept = s.kept := by
  unfold State.mgmtOpen
  dsimp only; (repeat' split) <;> simp [State.kept_mk, State.kept_fold, kept_ite, kept_ite_fst, TimSt.setPin_incr, TimSt.setKey_incr, TimSt.setPort_incr, TimSt.publish_incr, State.reply_kept, h]
theorem State.authRefused_kept (s : State) (cmd status : Nat) : (State.authRefused s cmd status).kept = s.kept := by
  simp only [State.authRefused, State.kept_mk, State.kept_fold, kept_ite, kept_ite_fst, TimSt.setPin_incr, TimSt.setKey_incr, TimSt.setPort_incr, TimSt.publish_incr, State.reply_kept, ite_self, implies_true]
theorem State.mgmtAuth_kept (s : State) (f : MgmtFrame) (cmd : Nat) (run : State → List Byte → State × Nat)
    (h : ∀ t p, (run t p).1.kept = t.kept) : (s.mgmtAuth f cmd run).kept = s.kept := by
  unfold State.mgmtAuth
  dsimp only; (repeat' split) <;> simp [State.kept_mk, State.kept_fold, kept_ite, kept_ite_fst, TimSt.setPin_incr, TimSt.setKey_incr, TimSt.setPort_incr, TimSt.publish_incr, State.authRefused_kept, State.reply_kept, h]
theorem execGetNonce_kept (f : MgmtFrame) (s : State) : ∃ t, execGetNonce f s = .next t ∧ t.kept = s.kept := by
  refine ⟨_, rfl, ?_⟩; simp only [State.kept_mk, State.kept_fold, kept_ite, kept_ite_fst, TimSt.setPin_incr, TimSt.setKey_incr, TimSt.setPort_incr, TimSt.publish_incr, State.mgmtOpen_kept, ite_self, implies_true]
theorem execRead_kept (f : MgmtFrame) (s : State) : ∃ t, execRead f s = .next t ∧ t.kept = s.kept := by
  refine ⟨_, rfl, ?_⟩; simp only [State.kept_mk, State.kept_fold, kept_ite, kept_ite_fst, TimSt.setPin_incr, TimSt.setKey_incr, TimSt.setPort_incr, TimSt.publish_incr, State.mgmtOpen_kept, ite_self, implies_true]
theorem execProvision_soft (f : MgmtFrame) (s : State) : ∃ t, execProvision f s = .next t ∧ s.Soft t := by
  unfold execProvision
  refine ⟨_, rfl, ?_⟩
  unfold State.mgmtOpen
  split
  · exact soft_of_kept rfl
  · split
    · exact soft_of_kept (Eq.trans rfl rfl)
    · dsimp only
      split
      · exact soft_of_kept (Eq.trans rfl rfl)
      · rename_i h
        refine soft_trans ?_ (soft_of_kept (Eq.trans rfl rfl))
        exact ⟨rfl, rfl, fun k => absurd k h, fun k => k⟩
theorem execSetPower_kept (f : MgmtFrame) (s : State) : ∃ t, execSetPower f s = .next t ∧ t.kept = s.kept := by
  refine ⟨_, rfl, ?_⟩; simp only [State.kept_mk, State.kept_fold, kept_ite, kept_ite_fst, TimSt.setPin_incr, TimSt.setKey_incr, TimSt.setPort_incr, TimSt.publish_incr, State.mgmtAuth_kept, ite_self, implies_true]
theorem execSetPace_kept (f : MgmtFrame) (s : State) : ∃ t, execSetPace f s = .next t ∧ t.kept = s.kept := by
  refine ⟨_, rfl, ?_⟩; simp only [State.kept_mk, State.kept_fold, kept_ite, kept_ite_fst, TimSt.setPin_incr, TimSt.setKey_incr, TimSt.setPort_incr, TimSt.publish_incr, State.mgmtAuth_kept, ite_self, implies_true]
theorem execSetPolicy_kept (f : MgmtFrame) (s : State) : ∃ t, execSetPolicy f s = .next t ∧ t.kept = s.kept := by
  refine ⟨_, rfl, ?_⟩; simp only [State.kept_mk, State.kept_fold, kept_ite, kept_ite_fst, TimSt.setPin_incr, TimSt.setKey_incr, TimSt.setPort_incr, TimSt.publish_incr, State.mgmtAuth_kept, ite_self, implies_true]
theorem execSetBucket_kept (f : MgmtFrame) (s : State) : ∃ t, execSetBucket f s = .next t ∧ t.kept = s.kept := by
  refine ⟨_, rfl, ?_⟩; simp only [State.kept_mk, State.kept_fold, kept_ite, kept_ite_fst, TimSt.setPin_incr, TimSt.setKey_incr, TimSt.setPort_incr, TimSt.publish_incr, State.mgmtAuth_kept, ite_self, implies_true]
theorem execSetKeyMax_kept (f : MgmtFrame) (s : State) : ∃ t, execSetKeyMax f s = .next t ∧ t.kept = s.kept := by
  refine ⟨_, rfl, ?_⟩; simp only [State.kept_mk, State.kept_fold, kept_ite, kept_ite_fst, TimSt.setPin_incr, TimSt.setKey_incr, TimSt.setPort_incr, TimSt.publish_incr, State.mgmtAuth_kept, ite_self, implies_true]
theorem execWrapKey_kept (f : MgmtFrame) (key : Option (List Byte)) (s : State) : ∃ t, execWrapKey f key s = .next t ∧ t.kept = s.kept := by
  unfold execWrapKey; refine ⟨_, rfl, ?_⟩; try dsimp only
  (repeat' split) <;> (first | done | (simp only [State.kept_mk, State.kept_fold, kept_ite, kept_ite_fst, TimSt.setPin_incr, TimSt.setKey_incr, TimSt.setPort_incr, TimSt.publish_incr, State.mgmtAuth_kept, ite_self, implies_true]; done) | (simp [State.kept_mk, State.kept_fold, kept_ite, kept_ite_fst, TimSt.setPin_incr, TimSt.setKey_incr, TimSt.setPort_incr, TimSt.publish_incr, State.mgmtAuth_kept]; done))
theorem execDebug_kept (f : MgmtFrame) (s : State) : ∃ t, execDebug f s = .next t ∧ t.kept = s.kept := by
  refine ⟨_, rfl, ?_⟩; simp only [State.kept_mk, State.kept_fold, kept_ite, kept_ite_fst, TimSt.setPin_incr, TimSt.setKey_incr, TimSt.setPort_incr, TimSt.publish_incr, State.mgmtAuth_kept, ite_self, implies_true]
theorem execSetBist_kept (f : MgmtFrame) (s : State) : ∃ t, execSetBist f s = .next t ∧ t.kept = s.kept := by
  unfold execSetBist
  refine ⟨_, rfl, State.mgmtAuth_kept _ _ _ _ fun t p => ?_⟩
  simp only [State.kept_mk, State.kept_fold, kept_ite, kept_ite_fst, TimSt.setPin_incr, TimSt.setKey_incr, TimSt.setPort_incr, TimSt.publish_incr, State.bistRestart_kept, State.mgmtAuth_kept]
  split <;> rfl
theorem execBistRun_kept (f : MgmtFrame) (s : State) : ∃ t, execBistRun f s = .next t ∧ t.kept = s.kept := by
  refine ⟨_, rfl, ?_⟩; simp only [State.kept_mk, State.kept_fold, kept_ite, kept_ite_fst, TimSt.setPin_incr, TimSt.setKey_incr, TimSt.setPort_incr, TimSt.publish_incr, State.mgmtAuth_kept, ite_self, implies_true]
theorem execMarch_kept (f : MgmtFrame) (s : State) : ∃ t, execMarch f s = .next t ∧ t.kept = s.kept := by
  refine ⟨_, rfl, ?_⟩; simp only [State.kept_mk, State.kept_fold, kept_ite, kept_ite_fst, TimSt.setPin_incr, TimSt.setKey_incr, TimSt.setPort_incr, TimSt.publish_incr, State.mgmtAuth_kept, ite_self, implies_true]
theorem execRetire_kept (f : MgmtFrame) (s : State) : ∃ t, execRetire f s = .next t ∧ t.kept = s.kept := by
  refine ⟨_, rfl, ?_⟩; simp only [State.kept_mk, State.kept_fold, kept_ite, kept_ite_fst, TimSt.setPin_incr, TimSt.setKey_incr, TimSt.setPort_incr, TimSt.publish_incr, State.mgmtAuth_kept, State.permanent_kept, ite_self, implies_true]
theorem execWarm_kept (f : MgmtFrame) (s : State) : ∃ t, execWarm f s = .next t ∧ t.kept = s.kept := by
  refine ⟨_, rfl, ?_⟩; simp only [State.kept_mk, State.kept_fold, kept_ite, kept_ite_fst, TimSt.setPin_incr, TimSt.setKey_incr, TimSt.setPort_incr, TimSt.publish_incr, State.mgmtAuth_kept, State.warmRequest_kept, ite_self, implies_true]
theorem execMgmtUnknownCommand_kept (f : MgmtFrame) (s : State) : ∃ t, execMgmtUnknownCommand f s = .next t ∧ t.kept = s.kept := by
  refine ⟨_, rfl, ?_⟩; simp only [State.kept_mk, State.kept_fold, kept_ite, kept_ite_fst, TimSt.setPin_incr, TimSt.setKey_incr, TimSt.setPort_incr, TimSt.publish_incr, State.reply_kept, ite_self, implies_true]
theorem execNonceExpiry_kept (s : State) : ∃ t, execNonceExpiry s = .next t ∧ t.kept = s.kept := by
  refine ⟨_, rfl, ?_⟩; simp only [State.kept_mk, State.kept_fold, kept_ite, kept_ite_fst, TimSt.setPin_incr, TimSt.setKey_incr, TimSt.setPort_incr, TimSt.publish_incr, ite_self, implies_true]
theorem State.judge_kept (s : State) (l : List (Nat × Option Nat)) : (State.judge s l).kept = s.kept := by
  unfold State.judge; try dsimp only
  (repeat' split) <;> (first | done | (simp only [State.kept_mk, State.kept_fold, kept_ite, kept_ite_fst, TimSt.setPin_incr, TimSt.setKey_incr, TimSt.setPort_incr, TimSt.publish_incr, State.permanent_kept, State.transient_kept, kept_foldl, ite_self, implies_true]; done) | (simp [State.kept_mk, State.kept_fold, kept_ite, kept_ite_fst, TimSt.setPin_incr, TimSt.setKey_incr, TimSt.setPort_incr, TimSt.publish_incr, State.permanent_kept, State.transient_kept, kept_foldl]; done) | (refine (kept_foldl _ (fun a b => ?_) _ _).trans ?_ <;> (try dsimp only) <;> (repeat' split) <;> (first | (simp only [State.kept_mk, State.kept_fold, kept_ite, kept_ite_fst, TimSt.setPin_incr, TimSt.setKey_incr, TimSt.setPort_incr, TimSt.publish_incr, State.permanent_kept, State.transient_kept, kept_foldl, ite_self, implies_true]; done) | (simp [State.kept_mk, State.kept_fold, kept_ite, kept_ite_fst, TimSt.setPin_incr, TimSt.setKey_incr, TimSt.setPort_incr, TimSt.publish_incr, State.permanent_kept, State.transient_kept, kept_foldl]; done))))
theorem State.unfreeze_kept (s0 : State) (stat : Nat) : (State.unfreeze s0 stat).kept = s0.kept := by
  simp only [State.unfreeze, State.kept_mk, State.kept_fold, kept_ite, kept_ite_fst, TimSt.setPin_incr, TimSt.setKey_incr, TimSt.setPort_incr, TimSt.publish_incr, State.judge_kept, State.linksResume_kept, State.syncDrain_kept, ite_self, implies_true]
theorem State.letGo_kept (s : State) (recovery : Bool) : (State.letGo s recovery).kept = s.kept := by
  simp only [State.letGo, State.kept_mk, State.kept_fold, kept_ite, kept_ite_fst, TimSt.setPin_incr, TimSt.setKey_incr, TimSt.setPort_incr, TimSt.publish_incr, State.unfreeze_kept, State.warmAsk_kept, ite_self, implies_true]
theorem State.release_kept (s : State) (recovery : Bool) : (State.release s recovery).kept = s.kept := by
  simp only [State.release, State.kept_mk, State.kept_fold, kept_ite, kept_ite_fst, TimSt.setPin_incr, TimSt.setKey_incr, TimSt.setPort_incr, TimSt.publish_incr, State.letGo_kept, ite_self, implies_true]
theorem State.shutterCmd_kept (s : State) (p : List Byte) : (State.shutterCmd s p).1.kept = s.kept := by
  unfold State.shutterCmd; try dsimp only
  (repeat' split) <;> (first | done | (simp only [State.kept_mk, State.kept_fold, kept_ite, kept_ite_fst, TimSt.setPin_incr, TimSt.setKey_incr, TimSt.setPort_incr, TimSt.publish_incr, State.release_kept, State.shutterTrigger_kept, ite_self, implies_true]; done) | (simp [State.kept_mk, State.kept_fold, kept_ite, kept_ite_fst, TimSt.setPin_incr, TimSt.setKey_incr, TimSt.setPort_incr, TimSt.publish_incr, State.release_kept, State.shutterTrigger_kept]; done))
theorem execShutterFreeze_kept (f : MgmtFrame) (s : State) : ∃ t, execShutterFreeze f s = .next t ∧ t.kept = s.kept := by
  refine ⟨_, rfl, ?_⟩; simp only [State.kept_mk, State.kept_fold, kept_ite, kept_ite_fst, TimSt.setPin_incr, TimSt.setKey_incr, TimSt.setPort_incr, TimSt.publish_incr, State.mgmtAuth_kept, State.shutterCmd_kept, ite_self, implies_true]
theorem execShutterRelease_kept (f : MgmtFrame) (s : State) : ∃ t, execShutterRelease f s = .next t ∧ t.kept = s.kept := by
  refine ⟨_, rfl, ?_⟩; simp only [State.kept_mk, State.kept_fold, kept_ite, kept_ite_fst, TimSt.setPin_incr, TimSt.setKey_incr, TimSt.setPort_incr, TimSt.publish_incr, State.mgmtAuth_kept, State.shutterCmd_kept, ite_self, implies_true]
theorem execShutterNFall_kept (s : State) : ∃ t, execShutterNFall s = .next t ∧ t.kept = s.kept := by
  refine ⟨_, rfl, ?_⟩; simp only [State.kept_mk, State.kept_fold, kept_ite, kept_ite_fst, TimSt.setPin_incr, TimSt.setKey_incr, TimSt.setPort_incr, TimSt.publish_incr, State.shutterTrigger_kept, ite_self, implies_true]
theorem execShutterNRise_kept (s : State) : ∃ t, execShutterNRise s = .next t ∧ t.kept = s.kept := by
  refine ⟨_, rfl, ?_⟩; simp only [State.kept_mk, State.kept_fold, kept_ite, kept_ite_fst, TimSt.setPin_incr, TimSt.setKey_incr, TimSt.setPort_incr, TimSt.publish_incr, State.release_kept, ite_self, implies_true]
theorem execHbmSelfRefreshEntry_kept (s : State) : ∃ t, execHbmSelfRefreshEntry s = .next t ∧ t.kept = s.kept := by
  refine ⟨_, rfl, ?_⟩; simp only [State.kept_mk, State.kept_fold, kept_ite, kept_ite_fst, TimSt.setPin_incr, TimSt.setKey_incr, TimSt.setPort_incr, TimSt.publish_incr, ite_self, implies_true]
theorem State.audMissed_kept (s : State) (n : Nat) : (State.audMissed s n).kept = s.kept := by
  simp only [State.audMissed, State.kept_mk, State.kept_fold, kept_ite, kept_ite_fst, TimSt.setPin_incr, TimSt.setKey_incr, TimSt.setPort_incr, TimSt.publish_incr, State.sinkOut_kept, kept_foldl, ite_self, implies_true]
theorem State.pubMissed_kept (s : State) (n : Nat) : (State.pubMissed s n).kept = s.kept := by
  simp only [State.pubMissed, State.kept_mk, State.kept_fold, kept_ite, kept_ite_fst, TimSt.setPin_incr, TimSt.setKey_incr, TimSt.setPort_incr, TimSt.publish_incr, State.published_kept, ite_self, implies_true]
theorem execResumeDone_kept (s : State) : ∃ t, execResumeDone s = .next t ∧ t.kept = s.kept := by
  refine ⟨_, rfl, ?_⟩; simp only [State.kept_mk, State.kept_fold, kept_ite, kept_ite_fst, TimSt.setPin_incr, TimSt.setKey_incr, TimSt.setPort_incr, TimSt.publish_incr, State.audMissed_kept, State.gclDue_kept, State.pubMissed_kept, State.unfreeze_kept, ite_self, implies_true]
theorem execThermalTrigger_kept (s : State) : ∃ t, execThermalTrigger s = .next t ∧ t.kept = s.kept := by
  refine ⟨_, rfl, ?_⟩; simp only [State.kept_mk, State.kept_fold, kept_ite, kept_ite_fst, TimSt.setPin_incr, TimSt.setKey_incr, TimSt.setPort_incr, TimSt.publish_incr, State.shutterTrigger_kept, ite_self, implies_true]
theorem execDbtLockstepMismatch_kept (s : State) : ∃ t, execDbtLockstepMismatch s = .next t ∧ t.kept = s.kept := by
  refine ⟨_, rfl, ?_⟩; simp only [State.kept_mk, State.kept_fold, kept_ite, kept_ite_fst, TimSt.setPin_incr, TimSt.setKey_incr, TimSt.setPort_incr, TimSt.publish_incr, State.shutterTrigger_kept, ite_self, implies_true]
theorem execDbtRestart_kept (s : State) : ∃ t, execDbtRestart s = .next t ∧ t.kept = s.kept := by
  refine ⟨_, rfl, ?_⟩; simp only [State.kept_mk, State.kept_fold, kept_ite, kept_ite_fst, TimSt.setPin_incr, TimSt.setKey_incr, TimSt.setPort_incr, TimSt.publish_incr, State.judge_kept, ite_self, implies_true]
theorem execLintelCoreFault_kept (core : Nat) (s : State) : ∃ t, execLintelCoreFault core s = .next t ∧ t.kept = s.kept := by
  refine ⟨_, rfl, ?_⟩; simp only [State.kept_mk, State.kept_fold, kept_ite, kept_ite_fst, TimSt.setPin_incr, TimSt.setKey_incr, TimSt.setPort_incr, TimSt.publish_incr, State.shutterTrigger_kept, State.transient_kept, ite_self, implies_true]
theorem State.leak_kept (s : State) (ch at_ : Nat) : (State.leak s ch at_).kept = s.kept := by
  unfold State.leak; try dsimp only
  (repeat' split) <;> (first | done | (simp only [State.kept_mk, State.kept_fold, kept_ite, kept_ite_fst, TimSt.setPin_incr, TimSt.setKey_incr, TimSt.setPort_incr, TimSt.publish_incr, ite_self, implies_true]; done) | (simp [State.kept_mk, State.kept_fold, kept_ite, kept_ite_fst, TimSt.setPin_incr, TimSt.setKey_incr, TimSt.setPort_incr, TimSt.publish_incr]; done))
theorem execBucketLeak_kept (channel : Nat) (s : State) : ∃ t, execBucketLeak channel s = .next t ∧ t.kept = s.kept := by
  unfold execBucketLeak; refine ⟨_, rfl, ?_⟩; try dsimp only
  (repeat' split) <;> (first | done | (simp only [State.kept_mk, State.kept_fold, kept_ite, kept_ite_fst, TimSt.setPin_incr, TimSt.setKey_incr, TimSt.setPort_incr, TimSt.publish_incr, State.leak_kept, ite_self, implies_true]; done) | (simp [State.kept_mk, State.kept_fold, kept_ite, kept_ite_fst, TimSt.setPin_incr, TimSt.setKey_incr, TimSt.setPort_incr, TimSt.publish_incr, State.leak_kept]; done))
theorem execBistScheduleTimer_kept (ty : Nat) (s : State) : ∃ t, execBistScheduleTimer ty s = .next t ∧ t.kept = s.kept := by
  refine ⟨_, rfl, ?_⟩; simp only [State.kept_mk, State.kept_fold, kept_ite, kept_ite_fst, TimSt.setPin_incr, TimSt.setKey_incr, TimSt.setPort_incr, TimSt.publish_incr, State.bistDue_kept, State.bistTurn_kept, ite_self, implies_true]
theorem State.bistMismatch_kept (s : State) (t : BistTest) : (State.bistMismatch s t).kept = s.kept := by
  simp only [State.bistMismatch, State.kept_mk, State.kept_fold, kept_ite, kept_ite_fst, TimSt.setPin_incr, TimSt.setKey_incr, TimSt.setPort_incr, TimSt.publish_incr, State.bistOver_kept, State.permanent_kept, State.retireIdle_kept, ite_self, implies_true]
theorem execBistTestDone_kept (ty inst : Nat) (pass : Bool) (s : State) : ∃ t, execBistTestDone ty inst pass s = .next t ∧ t.kept = s.kept := by
  unfold execBistTestDone; refine ⟨_, rfl, ?_⟩; try dsimp only
  (repeat' split) <;> (first | done | (simp only [State.kept_mk, State.kept_fold, kept_ite, kept_ite_fst, TimSt.setPin_incr, TimSt.setKey_incr, TimSt.setPort_incr, TimSt.publish_incr, State.bistMismatch_kept, State.bistOver_kept, State.markSpares_kept, ite_self, implies_true]; done) | (simp [State.kept_mk, State.kept_fold, kept_ite, kept_ite_fst, TimSt.setPin_incr, TimSt.setKey_incr, TimSt.setPort_incr, TimSt.publish_incr, State.bistMismatch_kept, State.bistOver_kept, State.markSpares_kept]; done))
theorem execMarchDone_kept (words : Nat) (twice : Bool) (s : State) : ∃ t, execMarchDone words twice s = .next t ∧ t.kept = s.kept := by
  unfold execMarchDone; refine ⟨_, rfl, ?_⟩; try dsimp only
  (repeat' split) <;> (first | done | (simp only [State.kept_mk, State.kept_fold, kept_ite, kept_ite_fst, TimSt.setPin_incr, TimSt.setKey_incr, TimSt.setPort_incr, TimSt.publish_incr, State.marchFails_kept, ite_self, implies_true]; done) | (simp [State.kept_mk, State.kept_fold, kept_ite, kept_ite_fst, TimSt.setPin_incr, TimSt.setKey_incr, TimSt.setPort_incr, TimSt.publish_incr, State.marchFails_kept]; done))
theorem execPeepTapShift_kept (instr : Nat) (s : State) : ∃ t, execPeepTapShift instr s = .next t ∧ t.kept = s.kept := by
  refine ⟨_, rfl, ?_⟩; simp only [State.kept_mk, State.kept_fold, kept_ite, kept_ite_fst, TimSt.setPin_incr, TimSt.setKey_incr, TimSt.setPort_incr, TimSt.publish_incr, ite_self, implies_true]
theorem State.cascadeBytes_kept (s : State) (src : Nat) (b : List Byte) (poison : Bool) : (State.cascadeBytes s src b poison).kept = s.kept := by
  simp only [State.cascadeBytes, State.kept_mk, State.kept_fold, kept_ite, kept_ite_fst, TimSt.setPin_incr, TimSt.setKey_incr, TimSt.setPort_incr, TimSt.publish_incr, State.cascadeIn_kept, ite_self, implies_true]
theorem State.jlDeliver_kept (s : State) (n : Nat) (h : FlitHead) (f : JlRx) (m : JlPart) : (State.jlDeliver s n h f m).kept = s.kept := by
  unfold State.jlDeliver; try dsimp only
  (repeat' split) <;> (first | done | (simp only [State.kept_mk, State.kept_fold, kept_ite, kept_ite_fst, TimSt.setPin_incr, TimSt.setKey_incr, TimSt.setPort_incr, TimSt.publish_incr, State.armIn_kept, State.cascadeBytes_kept, State.jlDrop_kept, State.mediaIn_kept, State.paneChunkIn_kept, State.snapAsked_kept, State.snapIn_kept, State.svcIn_kept, ite_self, implies_true]; done) | (simp [State.kept_mk, State.kept_fold, kept_ite, kept_ite_fst, TimSt.setPin_incr, TimSt.setKey_incr, TimSt.setPort_incr, TimSt.publish_incr, State.armIn_kept, State.cascadeBytes_kept, State.jlDrop_kept, State.mediaIn_kept, State.paneChunkIn_kept, State.snapAsked_kept, State.snapIn_kept, State.svcIn_kept]; done))
theorem State.jlAccept_kept (s : State) (n : Nat) (h : FlitHead) (pay : List Byte) (f : JlRx) : (State.jlAccept s n h pay f).kept = s.kept := by
  simp only [State.jlAccept, State.kept_mk, State.kept_fold, kept_ite, kept_ite_fst, TimSt.setPin_incr, TimSt.setKey_incr, TimSt.setPort_incr, TimSt.publish_incr, State.jlDeliver_kept, State.jlDrop_kept, State.jlForward_kept, State.setLink_kept, ite_self, implies_true]
theorem State.seqIn_kept (s : State) (h : FlitHead) (f : JlRx) : (State.seqIn s h f).kept = s.kept := by
  simp only [State.seqIn, State.kept_mk, State.kept_fold, kept_ite, kept_ite_fst, TimSt.setPin_incr, TimSt.setKey_incr, TimSt.setPort_incr, TimSt.publish_incr, State.cipher_kept, State.idleOut_kept, State.jlAccept_kept, State.jlHead_kept, State.jlHeard_kept, State.jlNak_kept, State.jlPump_kept, State.setLink_kept, ite_self, implies_true]
theorem execSequencedFlitReceive_kept (f : JlRx) (s : State) : ∃ t, execSequencedFlitReceive f s = .next t ∧ t.kept = s.kept := by
  refine ⟨_, rfl, ?_⟩; simp only [State.kept_mk, State.kept_fold, kept_ite, kept_ite_fst, TimSt.setPin_incr, TimSt.setKey_incr, TimSt.setPort_incr, TimSt.publish_incr, State.flitIn_kept, State.seqIn_kept, ite_self, implies_true]
theorem State.peakRead_kept (s : State) : (State.peakRead s).kept = s.kept := by
  unfold State.peakRead; try dsimp only
  (repeat' split) <;> (first | done | (simp only [State.kept_mk, State.kept_fold, kept_ite, kept_ite_fst, TimSt.setPin_incr, TimSt.setKey_incr, TimSt.setPort_incr, TimSt.publish_incr, ite_self, implies_true]; done) | (simp [State.kept_mk, State.kept_fold, kept_ite, kept_ite_fst, TimSt.setPin_incr, TimSt.setKey_incr, TimSt.setPort_incr, TimSt.publish_incr]; done))
theorem State.readEffects_kept (s : State) (fn off : Nat) : (State.readEffects s fn off).kept = s.kept := by
  unfold State.readEffects
  extract_lets k h0 s1 s0 s2
  have h1 : s1.kept = s.kept := by simp only [s1, State.kept_mk, State.kept_fold, kept_ite, kept_ite_fst, TimSt.setPin_incr, TimSt.setKey_incr, TimSt.setPort_incr, TimSt.publish_incr, State.peakRead_kept]
  have h2 : s2.kept = s.kept := by
    simp only [s2]
    split <;> simp only [State.kept_mk, State.kept_fold, kept_ite, kept_ite_fst, TimSt.setPin_incr, TimSt.setKey_incr, TimSt.setPort_incr, TimSt.publish_incr, State.peakRead_kept, h1]
  clear_value s2
  (repeat' split) <;> first | exact h2 | (simp only [State.kept_mk, State.kept_fold, kept_ite, kept_ite_fst, TimSt.setPin_incr, TimSt.setKey_incr, TimSt.setPort_incr, TimSt.publish_incr, State.peakRead_kept, h2]; done)
theorem State.pieceRead_kept (s : State) (fn o b n : Nat) : (State.pieceRead s fn o b n).kept = s.kept := by
  simp only [State.pieceRead, State.kept_mk, State.kept_fold, kept_ite, kept_ite_fst, TimSt.setPin_incr, TimSt.setKey_incr, TimSt.setPort_incr, TimSt.publish_incr, State.readEffects_kept, ite_self, implies_true]
theorem State.busRead_kept (s : State) (fn off size : Nat) : (State.busRead s fn off size).kept = s.kept := by
  simp only [State.busRead, State.kept_mk, State.kept_fold, kept_ite, kept_ite_fst, TimSt.setPin_incr, TimSt.setKey_incr, TimSt.setPort_incr, TimSt.publish_incr, State.pieceRead_kept, kept_foldl, ite_self, implies_true]
theorem State.plainWrite_kept (s : State) (fn off : Nat) (val : Word) : (State.plainWrite s fn off val).kept = s.kept := by
  unfold State.plainWrite; try dsimp only
  (repeat' split) <;> (first | done | (simp only [State.kept_mk, State.kept_fold, kept_ite, kept_ite_fst, TimSt.setPin_incr, TimSt.setKey_incr, TimSt.setPort_incr, TimSt.publish_incr, State.shadowPut_kept, State.stuckClear_kept, ite_self, implies_true]; done) | (simp [State.kept_mk, State.kept_fold, kept_ite, kept_ite_fst, TimSt.setPin_incr, TimSt.setKey_incr, TimSt.setPort_incr, TimSt.publish_incr, State.shadowPut_kept, State.stuckClear_kept]; done))
theorem State.logWrite_kept (s : State) (fn off : Nat) (val : Word) : (State.logWrite s fn off val).kept = s.kept := by
  simp only [State.logWrite, State.kept_mk, State.kept_fold, kept_ite, kept_ite_fst, TimSt.setPin_incr, TimSt.setKey_incr, TimSt.setPort_incr, TimSt.publish_incr, State.plainWrite_kept, ite_self, implies_true]
theorem State.laneWrite_kept (s : State) (lane : Nat) (val : Word) : (State.laneWrite s lane val).kept = s.kept := by
  simp only [State.laneWrite, State.kept_mk, State.kept_fold, kept_ite, kept_ite_fst, TimSt.setPin_incr, TimSt.setKey_incr, TimSt.setPort_incr, TimSt.publish_incr, State.laneLoop_kept, State.laneRetrain_kept, State.laneSleepWrite_kept, State.plainWrite_kept, ite_self, implies_true]
theorem State.did_kept (s : State) (f : State → Host.Outcome State Fault Refusal) (h : ∀ a, ∃ t, f a = .next t ∧ t.kept = a.kept) : (s.did f).kept = s.kept := by
  unfold State.did
  split
  · rename_i t heq
    obtain ⟨u, hu, hk⟩ := h s
    rw [heq] at hu
    cases hu
    exact hk
  · rfl
theorem State.regWrite_soft (s : State) (fn off : Nat) (val : Word) : s.Soft (State.regWrite s fn off val) := by
  have any : ∀ t : State, t.kept = s.kept → s.Soft t := fun t h => soft_of_kept h
  unfold State.regWrite
  refine soft_ite _ ?_ ?_
  · split
    · exact any _ (State.commitSched_kept ..)
    · exact any _ (State.commitDom_kept ..)
    · exact any _ (State.commitNext_kept ..)
  refine soft_ite _ ?_ ?_
  · split
    · exact any _ (State.snapSched_kept ..)
    · exact any _ (State.snapNext_kept ..)
  refine soft_ite _ ?_ ?_
  · exact any _ (State.did_kept _ _ fun a => execStartCtlWarm_kept ..)
  refine soft_ite _ ?_ ?_
  · exact any _ (State.lockWrite_kept ..)
  refine soft_ite _ ?_ ?_
  · exact State.incrWrite_soft s val
  refine soft_ite _ ?_ ?_
  · exact any _ (State.did_kept _ _ fun a => execTimeStep_kept ..)
  refine soft_ite _ ?_ ?_
  · exact any _ (State.did_kept _ _ fun a => execTevConfigWrite_kept ..)
  refine soft_ite _ ?_ ?_
  · refine soft_ite _ ?_ ?_
    · exact any _ rfl
    · exact any _ (kept_hub s _)
  refine soft_ite _ ?_ ?_
  · split
    · exact any _ (State.keyStart_kept ..)
    · exact any _ (State.keyStart_kept ..)
    · exact any _ rfl
  refine soft_ite _ ?_ ?_
  · exact any _ (State.logWrite_kept ..)
  refine soft_ite _ ?_ ?_
  · exact any _ (State.plainWrite_kept ..)
  refine soft_ite _ ?_ ?_
  · split
    · exact any _ (State.did_kept _ _ execRawWrite_kept)
    · exact any _ (State.did_kept _ _ execRawRead_kept)
    · exact any _ (State.did_kept _ _ execCheckedRead_kept)
    · exact any _ rfl
  refine soft_ite _ ?_ ?_
  · exact any _ (State.laneWrite_kept ..)
  refine soft_ite _ (any _ (kept_hub s _)) ?_
  refine soft_ite _ ?_ ?_
  · exact any _ (kept_hub s _)
  · exact any _ (State.plainWrite_kept ..)
theorem State.wordWrite_soft (s : State) (fn off : Nat) (val : Word) : s.Soft (State.wordWrite s fn off val) := by
  unfold State.wordWrite
  (repeat' split) <;> first | exact State.regWrite_soft .. | exact soft_of_kept (by simp only [State.kept_mk, State.kept_fold, kept_ite, kept_ite_fst, TimSt.setPin_incr, TimSt.setKey_incr, TimSt.setPort_incr, TimSt.publish_incr, State.doorbell_kept])
theorem State.busWrite_soft (s : State) (fn off size : Nat) (val : BitVec 64) : s.Soft (State.busWrite s fn off size val) := by
  unfold State.busWrite
  split
  · exact soft_of_kept rfl
  · have h : ∀ (l : List (Nat × Word)) (a : State), a.Soft (l.foldl (fun (a : State) w => a.wordWrite fn w.1 w.2) a) := by
      intro l
      induction l with
      | nil => exact fun a => soft_of_kept rfl
      | cons w l ih => exact fun a => soft_trans (State.wordWrite_soft a fn w.1 w.2) (ih _)
    exact soft_trans (soft_of_kept (State.offer_kept ..)) (h _ _)
theorem State.wordShadow_kept (s : State) (fn off : Nat) (val : Word) : (State.wordShadow s fn off val).kept = s.kept := by
  simp only [State.wordShadow, State.kept_mk, State.kept_fold, kept_ite, kept_ite_fst, TimSt.setPin_incr, TimSt.setKey_incr, TimSt.setPort_incr, TimSt.publish_incr, State.shadowPut_kept, ite_self, implies_true]
theorem execRegWrite_soft (fn off size : Nat) (val : BitVec 64) (s : State) : ∃ t, execRegWrite fn off size val s = .next t ∧ s.Soft t := by
  exact ⟨_, rfl, State.busWrite_soft s fn off size val⟩
theorem execShadowWrite_kept (fn off size : Nat) (val : BitVec 64) (s : State) : ∃ t, execShadowWrite fn off size val s = .next t ∧ t.kept = s.kept := by
  refine ⟨_, rfl, ?_⟩; simp only [State.kept_mk, State.kept_fold, kept_ite, kept_ite_fst, TimSt.setPin_incr, TimSt.setKey_incr, TimSt.setPort_incr, TimSt.publish_incr, State.wordShadow_kept, kept_foldl, ite_self, implies_true]
theorem execRcFieldRead_kept (fn off size : Nat) (s : State) : ∃ t, execRcFieldRead fn off size s = .next t ∧ t.kept = s.kept := by
  refine ⟨_, rfl, ?_⟩; simp only [State.kept_mk, State.kept_fold, kept_ite, kept_ite_fst, TimSt.setPin_incr, TimSt.setKey_incr, TimSt.setPort_incr, TimSt.publish_incr, State.busRead_kept, ite_self, implies_true]
theorem execPairLowRead_kept (fn off size : Nat) (s : State) : ∃ t, execPairLowRead fn off size s = .next t ∧ t.kept = s.kept := by
  refine ⟨_, rfl, ?_⟩; simp only [State.kept_mk, State.kept_fold, kept_ite, kept_ite_fst, TimSt.setPin_incr, TimSt.setKey_incr, TimSt.setPort_incr, TimSt.publish_incr, State.busRead_kept, ite_self, implies_true]
theorem execCntStuckClear_kept (fn off : Nat) (val : Word) (s : State) : ∃ t, execCntStuckClear fn off val s = .next t ∧ t.kept = s.kept := by
  refine ⟨_, rfl, ?_⟩; simp only [State.kept_mk, State.kept_fold, kept_ite, kept_ite_fst, TimSt.setPin_incr, TimSt.setKey_incr, TimSt.setPort_incr, TimSt.publish_incr, State.plainWrite_kept, ite_self, implies_true]
theorem execLogSizeWrite_kept (fn : Nat) (val : Word) (s : State) : ∃ t, execLogSizeWrite fn val s = .next t ∧ t.kept = s.kept := by
  refine ⟨_, rfl, ?_⟩; simp only [State.kept_mk, State.kept_fold, kept_ite, kept_ite_fst, TimSt.setPin_incr, TimSt.setKey_incr, TimSt.setPort_incr, TimSt.publish_incr, State.logWrite_kept, ite_self, implies_true]
theorem State.tick_kept (s : State) : (State.tick s).kept = s.kept := by
  simp only [State.tick, State.kept_mk, State.kept_fold, kept_ite, kept_ite_fst, TimSt.setPin_incr, TimSt.setKey_incr, TimSt.setPort_incr, TimSt.publish_incr, State.quietBoundary_kept, ite_self, implies_true]

end Sys2Proof.Machine
end

