-- ==== Sys2Proof/Laws/Maps.lean ====
section
/-!
SUPPORT. Laws of the canonical maps: a read after a write to the same key gives the value written, a write leaves every other key
alone, and every operation keeps the canonical form. They hold of registers and of byte memories alike.
-/

namespace Sys2Proof.Machine

/-! ### Canonical form, as a chain -/

/-- Every key of the map lies above `k`. -/
def kvAbove {α : Type} (k : Nat) (m : List (Nat × α)) : Prop := ∀ e ∈ m, k < e.1

/-- A rising map after its first entry is a rising map of larger keys. -/
theorem kvSorted_cons {α : Type} (j : Nat) (v : α) (m : List (Nat × α)) :
    kvSorted ((j, v) :: m) = true ↔ kvAbove j m ∧ kvSorted m = true := by
  induction m generalizing j v with
  | nil => simp [kvSorted, kvAbove]
  | cons e t ih =>
    obtain ⟨k, w⟩ := e
    simp only [kvSorted, Bool.and_eq_true, decide_eq_true_eq]
    constructor
    · rintro ⟨h, hs⟩
      refine ⟨?_, hs⟩
      intro e he
      rcases List.mem_cons.1 he with rfl | he
      · exact h
      · exact Nat.lt_trans h (((ih k w).1 hs).1 e he)
    · rintro ⟨h, hs⟩
      exact ⟨h (k, w) (List.mem_cons_self ..), hs⟩

/-- No key at or below a bound is listed above it. -/
theorem kvGet_above {α : Type} (k : Nat) (m : List (Nat × α)) (h : kvAbove k m) : kvGet k m = none := by
  cases m with
  | nil => rfl
  | cons e t =>
    obtain ⟨j, v⟩ := e
    have hj : k < j := h (j, v) (List.mem_cons_self ..)
    simp [kvGet, Nat.ne_of_gt hj, hj]

/-! ### Reading after writing -/

/-- A key put is found. -/
theorem kvGet_kvPut_self {α : Type} (k : Nat) (v : α) (m : List (Nat × α)) : kvGet k (kvPut k v m) = some v := by
  induction m with
  | nil => simp [kvPut, kvGet]
  | cons e t ih =>
    obtain ⟨j, w⟩ := e
    simp only [kvPut]
    split
    · rename_i h
      simp [kvGet, Nat.ne_of_lt h, Nat.not_lt_of_lt h, ih]
    · split <;> simp [kvGet]

/-- Other keys stay as they were. -/
theorem kvGet_kvPut_ne {α : Type} (k j : Nat) (v : α) (m : List (Nat × α)) (h : j ≠ k) : kvGet j (kvPut k v m) = kvGet j m := by
  induction m with
  | nil => simp [kvPut, kvGet, Ne.symm h]
  | cons e t ih =>
    obtain ⟨i, w⟩ := e
    simp only [kvPut]
    split
    · simp only [kvGet, ih]
    · split
      · rename_i h1 h2
        subst h2
        simp [kvGet, Ne.symm h]
      · rename_i h1 h2
        simp only [kvGet, if_neg (Ne.symm h)]
        split
        · rename_i h3
          have hi : k < i := by omega
          simp [Nat.ne_of_gt (Nat.lt_trans h3 hi), Nat.lt_trans h3 hi]
        · rfl

/-- A key taken out is not found in a canonical map. -/
theorem kvGet_kvDel_self {α : Type} (k : Nat) (m : List (Nat × α)) (hs : kvSorted m = true) : kvGet k (kvDel k m) = none := by
  induction m with
  | nil => rfl
  | cons e t ih =>
    obtain ⟨j, w⟩ := e
    obtain ⟨ha, ht⟩ := (kvSorted_cons j w t).1 hs
    simp only [kvDel]
    split
    · rename_i h
      simp [kvGet, Nat.ne_of_lt h, Nat.not_lt_of_lt h, ih ht]
    · split
      · rename_i h1 h2
        subst h2
        exact kvGet_above _ _ ha
      · rename_i h1 h2
        have : k < j := by omega
        simp [kvGet, h2, this]

/-- Taking a key out leaves the others. -/
theorem kvGet_kvDel_ne {α : Type} (k j : Nat) (m : List (Nat × α)) (hs : kvSorted m = true) (h : j ≠ k) :
    kvGet j (kvDel k m) = kvGet j m := by
  induction m with
  | nil => rfl
  | cons e t ih =>
    obtain ⟨i, w⟩ := e
    obtain ⟨ha, ht⟩ := (kvSorted_cons i w t).1 hs
    simp only [kvDel]
    split
    · simp only [kvGet, ih ht]
    · split
      · rename_i h1 h2
        subst h2
        simp only [kvGet, if_neg (Ne.symm h)]
        split
        · rename_i h3
          exact kvGet_above _ _ fun e he => Nat.lt_trans h3 (ha e he)
        · rfl
      · rfl

/-! ### Canonical form is kept -/

/-- Where the keys of a map with one key put come from. -/
theorem kvPut_above {α : Type} (i k : Nat) (v : α) (m : List (Nat × α)) (h : kvAbove i m) (hi : i < k) : kvAbove i (kvPut k v m) := by
  induction m with
  | nil =>
    intro e he
    simp only [kvPut, List.mem_singleton] at he
    subst he
    exact hi
  | cons e t ih =>
    obtain ⟨j, w⟩ := e
    have hj : i < j := h (j, w) (List.mem_cons_self ..)
    have ht : kvAbove i t := fun e he => h e (List.mem_cons_of_mem _ he)
    simp only [kvPut]
    split
    · intro e he
      rcases List.mem_cons.1 he with rfl | he
      · exact hj
      · exact ih ht e he
    · split
      · intro e he
        rcases List.mem_cons.1 he with rfl | he
        · exact hi
        · exact ht e he
      · intro e he
        rcases List.mem_cons.1 he with rfl | he
        · exact hi
        · exact h e he

/-- Putting a key keeps the keys rising. -/
theorem kvSorted_kvPut {α : Type} (k : Nat) (v : α) (m : List (Nat × α)) (hs : kvSorted m = true) : kvSorted (kvPut k v m) = true := by
  induction m with
  | nil => rfl
  | cons e t ih =>
    obtain ⟨j, w⟩ := e
    obtain ⟨ha, ht⟩ := (kvSorted_cons j w t).1 hs
    simp only [kvPut]
    split
    · rename_i h
      exact (kvSorted_cons ..).2 ⟨kvPut_above j k v t ha h, ih ht⟩
    · split
      · rename_i h1 h2
        subst h2
        exact (kvSorted_cons ..).2 ⟨ha, ht⟩
      · rename_i h1 h2
        have hk : k < j := by omega
        refine (kvSorted_cons ..).2 ⟨?_, hs⟩
        intro e he
        rcases List.mem_cons.1 he with rfl | he
        · exact hk
        · exact Nat.lt_trans hk (ha e he)

/-- Taking a key out leaves only entries of the map. -/
theorem mem_of_mem_kvDel {α : Type} (k : Nat) (m : List (Nat × α)) (e : Nat × α) (h : e ∈ kvDel k m) : e ∈ m := by
  induction m with
  | nil => exact h
  | cons d t ih =>
    obtain ⟨j, w⟩ := d
    simp only [kvDel] at h
    split at h
    · rcases List.mem_cons.1 h with rfl | h
      · exact List.mem_cons_self ..
      · exact List.mem_cons_of_mem _ (ih h)
    · split at h
      · exact List.mem_cons_of_mem _ h
      · exact h

/-- Taking a key out keeps the keys rising. -/
theorem kvSorted_kvDel {α : Type} (k : Nat) (m : List (Nat × α)) (hs : kvSorted m = true) : kvSorted (kvDel k m) = true := by
  induction m with
  | nil => rfl
  | cons e t ih =>
    obtain ⟨j, w⟩ := e
    obtain ⟨ha, ht⟩ := (kvSorted_cons j w t).1 hs
    simp only [kvDel]
    split
    · exact (kvSorted_cons ..).2 ⟨fun e he => ha e (mem_of_mem_kvDel k t e he), ih ht⟩
    · split
      · exact ht
      · exact hs

/-- Writing keeps the keys rising. -/
theorem kvSorted_kvWrite {α : Type} [DecidableEq α] (d : Nat → α) (m : List (Nat × α)) (k : Nat) (v : α) (hs : kvSorted m = true) :
    kvSorted (kvWrite d m k v) = true := by
  unfold kvWrite
  split
  · exact kvSorted_kvDel k m hs
  · exact kvSorted_kvPut k v m hs

/-- Entries of a map with one key put. -/
theorem mem_kvPut {α : Type} (k : Nat) (v : α) (m : List (Nat × α)) (e : Nat × α) (h : e ∈ kvPut k v m) : e = (k, v) ∨ e ∈ m := by
  induction m with
  | nil => exact .inl (List.mem_singleton.1 h)
  | cons d t ih =>
    obtain ⟨j, w⟩ := d
    simp only [kvPut] at h
    split at h
    · rcases List.mem_cons.1 h with rfl | h
      · exact .inr (List.mem_cons_self ..)
      · exact (ih h).imp_right (List.mem_cons_of_mem _)
    · split at h
      · exact (List.mem_cons.1 h).imp_right (List.mem_cons_of_mem _)
      · exact List.mem_cons.1 h

/-- Writing keeps the map free of entries that say nothing. -/
theorem kvTight_kvWrite {α : Type} [DecidableEq α] (d : Nat → α) (m : List (Nat × α)) (k : Nat) (v : α) (ht : kvTight d m = true) :
    kvTight d (kvWrite d m k v) = true := by
  simp only [kvTight, List.all_eq_true, decide_eq_true_eq] at ht ⊢
  unfold kvWrite
  split
  · exact fun e he => ht e (mem_of_mem_kvDel k m e he)
  · rename_i hv
    intro e he
    rcases mem_kvPut k v m e he with rfl | he
    · exact hv
    · exact ht e he

/-- A read after a write to the same key gives the value written. -/
theorem kvRead_kvWrite_self {α : Type} [DecidableEq α] (d : Nat → α) (m : List (Nat × α)) (k : Nat) (v : α) (hs : kvSorted m = true) :
    kvRead d (kvWrite d m k v) k = v := by
  unfold kvRead kvWrite
  split
  · rename_i h
    rw [kvGet_kvDel_self k m hs, h]
    rfl
  · rw [kvGet_kvPut_self]
    rfl

/-- A write leaves what every other key reads. -/
theorem kvRead_kvWrite_ne {α : Type} [DecidableEq α] (d : Nat → α) (m : List (Nat × α)) (k j : Nat) (v : α) (hs : kvSorted m = true)
    (h : j ≠ k) : kvRead d (kvWrite d m k v) j = kvRead d m j := by
  unfold kvRead kvWrite
  split
  · rw [kvGet_kvDel_ne k j m hs h]
  · rw [kvGet_kvPut_ne k j v m h]

/-! ### Byte memories -/

/-- The canonical form in its two parts. -/
theorem memWf_iff (m : List (Nat × Byte)) : memWf m = true ↔ kvSorted m = true ∧ kvTight memBlank m = true := by simp [memWf]

/-- Writing a byte keeps the canonical form. -/
theorem memWf_memWrite (m : List (Nat × Byte)) (a : Nat) (b : Byte) (h : memWf m = true) : memWf (memWrite m a b) = true := by
  rw [memWf_iff] at h ⊢
  exact ⟨kvSorted_kvWrite memBlank m a b h.1, kvTight_kvWrite memBlank m a b h.2⟩

/-- Writing bytes keeps the canonical form. -/
theorem memWf_memWriteList (bs : List Byte) (m : List (Nat × Byte)) (a : Nat) (h : memWf m = true) :
    memWf (memWriteList m a bs) = true := by
  induction bs generalizing m a with
  | nil => exact h
  | cons b t ih => exact ih (memWrite m a b) (a + 1) (memWf_memWrite m a b h)

/-- A byte written reads as written. -/
theorem memRead_memWrite_self (m : List (Nat × Byte)) (a : Nat) (b : Byte) (h : memWf m = true) : memRead (memWrite m a b) a = b :=
  kvRead_kvWrite_self memBlank m a b ((memWf_iff m).1 h).1

/-- Every other byte reads as before. -/
theorem memRead_memWrite_ne (m : List (Nat × Byte)) (a c : Nat) (b : Byte) (h : memWf m = true) (hc : c ≠ a) :
    memRead (memWrite m a b) c = memRead m c :=
  kvRead_kvWrite_ne memBlank m a c b ((memWf_iff m).1 h).1 hc

/-- Bytes outside a run of written bytes read as before. -/
theorem memRead_memWriteList_out (bs : List Byte) (m : List (Nat × Byte)) (a c : Nat) (h : memWf m = true)
    (hc : c < a ∨ a + bs.length ≤ c) : memRead (memWriteList m a bs) c = memRead m c := by
  induction bs generalizing m a with
  | nil => rfl
  | cons b t ih =>
    rw [List.length_cons] at hc
    rw [memWriteList, ih (memWrite m a b) (a + 1) (memWf_memWrite m a b h) (by omega),
      memRead_memWrite_ne m a c b h (by omega)]

/-- A run of bytes written reads as written. -/
theorem memReadList_memWriteList (bs : List Byte) (m : List (Nat × Byte)) (a : Nat) (h : memWf m = true) :
    memReadList (memWriteList m a bs) a bs.length = bs := by
  induction bs generalizing m a with
  | nil => rfl
  | cons b t ih =>
    have hw := memWf_memWrite m a b h
    have h0 : memRead (memWriteList (memWrite m a b) (a + 1) t) a = b := by
      rw [memRead_memWriteList_out t (memWrite m a b) (a + 1) a hw (by omega), memRead_memWrite_self m a b h]
    simp only [List.length_cons, memReadList, memWriteList, h0, ih (memWrite m a b) (a + 1) hw]

end Sys2Proof.Machine
end

