-- ==== Sys2Proof/Laws/CanonBase.lean ====
section
/-! SUPPORT. The canonical form of registers and memories (`State.canon`, in Safety.lean): how it composes. A lemma `f_canon` says that `f`
keeps it; for a command it also says that the command answers a next state. -/

namespace Sys2Proof.Machine

theorem Hub.canon_mk (regs shadow pub captured time ticks bar rl msiFired msiPend logDropped numVfs fifos cmds posted orphans qpFired qpPend hostMem heldDb linkLost pcieDown pcieDiscards out free) :
    Hub.canon ⟨regs, shadow, pub, captured, time, ticks, bar, rl, msiFired, msiPend, logDropped, numVfs, fifos, cmds, posted, orphans, qpFired, qpPend, hostMem, heldDb, linkLost, pcieDown, pcieDiscards, out, free⟩ ↔
      regsWf regs = true ∧ regsWf shadow = true ∧ memWf hostMem = true := Iff.rfl
theorem MemSt.canon_mk (cells dev diff merge held refreshed x1 x2) : MemSt.canon ⟨cells, dev, diff, merge, held, refreshed, x1, x2⟩ ↔ memWf cells = true := Iff.rfl
theorem State.canon_mk (hub tim fab lch ldr dbt start qsc mem fwd cip enc spl dec cmp bio aud dbl hng lnk pending) :
    State.canon ⟨hub, tim, fab, lch, ldr, dbt, start, qsc, mem, fwd, cip, enc, spl, dec, cmp, bio, aud, dbl, hng, lnk, pending⟩ ↔ hub.canon ∧ mem.canon := Iff.rfl
theorem Hub.canon_regs {h : Hub} (c : h.canon) : regsWf h.regs = true := c.1
theorem Hub.canon_shadow {h : Hub} (c : h.canon) : regsWf h.shadow = true := c.2.1
theorem Hub.canon_hostMem {h : Hub} (c : h.canon) : memWf h.hostMem = true := c.2.2
theorem MemSt.canon_cells {m : MemSt} (c : m.canon) : memWf m.cells = true := c
theorem State.canon_hub {s : State} (c : s.canon) : s.hub.canon := c.1
theorem State.canon_mem {s : State} (c : s.canon) : s.mem.canon := c.2
theorem regsWf_kvWrite (m : List (Nat × Word)) (k : Nat) (v : Word) (h : regsWf m = true) : regsWf (kvWrite regReset m k v) = true := by
  simp only [regsWf, Bool.and_eq_true] at h ⊢
  exact ⟨kvSorted_kvWrite _ _ _ _ h.1, kvTight_kvWrite _ _ _ _ h.2⟩
theorem kvSorted_filterMap {α : Type} (f : Nat × α → Option (Nat × α)) (hf : ∀ e x, f e = some x → x.1 = e.1) (m : List (Nat × α)) (h : kvSorted m = true) :
    kvSorted (m.filterMap f) = true := by
  induction m with
  | nil => rfl
  | cons e m ih =>
    obtain ⟨k, v⟩ := e
    obtain ⟨ha, hm⟩ := (kvSorted_cons k v m).1 h
    rw [List.filterMap_cons]
    split
    · exact ih hm
    · rename_i x hx
      obtain ⟨j, w⟩ := x
      have hj : j = k := hf _ _ hx
      subst hj
      refine (kvSorted_cons j w _).2 ⟨fun d hd => ?_, ih hm⟩
      obtain ⟨a, ham, hax⟩ := List.mem_filterMap.1 hd
      rw [hf _ _ hax]
      exact ha a ham
theorem kvSorted_filter {α : Type} (p : Nat × α → Bool) (m : List (Nat × α)) (h : kvSorted m = true) : kvSorted (m.filter p) = true := by
  induction m with
  | nil => rfl
  | cons e m ih =>
    obtain ⟨k, v⟩ := e
    obtain ⟨ha, hm⟩ := (kvSorted_cons k v m).1 h
    rw [List.filter_cons]
    split
    · exact (kvSorted_cons k v _).2 ⟨fun d hd => ha d ((List.mem_filter.1 hd).1), ih hm⟩
    · exact ih hm
theorem kvTight_filter {α : Type} [DecidableEq α] (d : Nat → α) (p : Nat × α → Bool) (m : List (Nat × α)) (h : kvTight d m = true) : kvTight d (m.filter p) = true := by
  simp only [kvTight, List.all_eq_true] at h ⊢
  exact fun e he => h e ((List.mem_filter.1 he).1)
theorem regsWf_filter (p : Nat × Word → Bool) (m : List (Nat × Word)) (h : regsWf m = true) : regsWf (m.filter p) = true := by
  simp only [regsWf, Bool.and_eq_true] at h ⊢
  exact ⟨kvSorted_filter _ _ h.1, kvTight_filter _ _ _ h.2⟩
theorem regsWf_kvFilter (p : Nat → Word → Bool) (m : List (Nat × Word)) (h : regsWf m = true) : regsWf (kvFilter p m) = true := regsWf_filter _ m h
theorem regsWf_otpRegs (m : List (Nat × Word)) (h : regsWf m = true) : regsWf (otpRegs m) = true := regsWf_filter _ m h
theorem memWf_filter (p : Nat × Byte → Bool) (m : List (Nat × Byte)) (h : memWf m = true) : memWf (m.filter p) = true := by
  simp only [memWf, Bool.and_eq_true] at h ⊢
  exact ⟨kvSorted_filter _ _ h.1, kvTight_filter _ _ _ h.2⟩
theorem regsWf_nil : regsWf [] = true := rfl
theorem memWf_nil : memWf [] = true := rfl
theorem Hub.canon_ite (c : Prop) [Decidable c] (a b : Hub) : (if c then a else b).canon ↔ if c then a.canon else b.canon := by split <;> rfl
theorem State.canon_ite (c : Prop) [Decidable c] (a b : State) : (if c then a else b).canon ↔ if c then a.canon else b.canon := by split <;> rfl
theorem MemSt.canon_ite (c : Prop) [Decidable c] (a b : MemSt) : (if c then a else b).canon ↔ if c then a.canon else b.canon := by split <;> rfl
theorem State.canon_ite_fst {β : Type} (c : Prop) [Decidable c] (a b : State × β) : (if c then a else b).1.canon ↔ if c then a.1.canon else b.1.canon := by split <;> rfl
theorem Hub.canon_if {c : Prop} [Decidable c] {a b : Hub} (h : a.canon) (g : b.canon) : (if c then a else b).canon := by
  split
  · exact h
  · exact g
theorem State.canon_if {c : Prop} [Decidable c] {a b : State} (h : a.canon) (g : b.canon) : (if c then a else b).canon := by
  split
  · exact h
  · exact g
theorem MemSt.canon_if {c : Prop} [Decidable c] {a b : MemSt} (h : a.canon) (g : b.canon) : (if c then a else b).canon := by
  split
  · exact h
  · exact g
theorem Hub.canon_foldl {β : Type} (g : Hub → β → Hub) (hg : ∀ a b, a.canon → (g a b).canon) (l : List β) (s : Hub) (h : s.canon) : (l.foldl g s).canon := by
  induction l generalizing s with
  | nil => exact h
  | cons b l ih => exact ih _ (hg _ _ h)
theorem State.canon_foldl {β : Type} (g : State → β → State) (hg : ∀ a b, a.canon → (g a b).canon) (l : List β) (s : State) (h : s.canon) : (l.foldl g s).canon := by
  induction l generalizing s with
  | nil => exact h
  | cons b l ih => exact ih _ (hg _ _ h)
theorem MemSt.canon_foldl {β : Type} (g : MemSt → β → MemSt) (hg : ∀ a b, a.canon → (g a b).canon) (l : List β) (s : MemSt) (h : s.canon) : (l.foldl g s).canon := by
  induction l generalizing s with
  | nil => exact h
  | cons b l ih => exact ih _ (hg _ _ h)
theorem State.canon_foldl_fst {β γ : Type} (g : State × γ → β → State × γ) (hg : ∀ a b, a.1.canon → (g a b).1.canon) (l : List β) (s : State × γ) (h : s.1.canon) :
    (l.foldl g s).1.canon := by
  induction l generalizing s with
  | nil => exact h
  | cons b l ih => exact ih _ (hg _ _ h)
theorem Hub.canon_foldl_snd {β γ : Type} (g : γ × Hub → β → γ × Hub) (hg : ∀ a b, a.2.canon → (g a b).2.canon) (l : List β) (s : γ × Hub) (h : s.2.canon) :
    (l.foldl g s).2.canon := by
  induction l generalizing s with
  | nil => exact h
  | cons b l ih => exact ih _ (hg _ _ h)
theorem Hub.canon_getD {α : Type} (f : α → Hub) (o : Option α) (h : Hub) (hf : ∀ a, (f a).canon) (c : h.canon) : ((o.map f).getD h).canon := by
  cases o with
  | none => exact c
  | some a => exact hf a
theorem Hub.canon_reset : ({} : Hub).canon := ⟨rfl, rfl, rfl⟩
theorem MemSt.canon_reset : ({} : MemSt).canon := rfl
theorem State.canon_reset : State.reset.canon := ⟨Hub.canon_reset, MemSt.canon_reset⟩
end Sys2Proof.Machine
end

