-- ==== Sys2Proof/Laws/CanonShared.lean ====
section
/-! SUPPORT. Each definition keeps registers and memories canonical: the shared blocks. -/

namespace Sys2Proof.Machine

set_option linter.all false

theorem Hub.wr_canon (h : Hub) (k : Nat) (v : Word) (h0 : h.canon) : (Hub.wr h k v).canon := by
  unfold Hub.wr
  repeat' (with_reducible first | assumption | (intro _) | apply State.canon_hub | apply State.canon_mem | apply MemSt.canon_cells | apply Hub.canon_regs | apply Hub.canon_shadow | apply Hub.canon_hostMem | apply regsWf_kvWrite | (simp only [State.canon_mk, Hub.canon_mk, MemSt.canon_mk]) | apply And.intro | split)
theorem Hub.wrShadow_canon (h : Hub) (k : Nat) (v : Word) (h0 : h.canon) : (Hub.wrShadow h k v).canon := by
  unfold Hub.wrShadow
  repeat' (with_reducible first | assumption | (intro _) | apply State.canon_hub | apply State.canon_mem | apply MemSt.canon_cells | apply Hub.canon_regs | apply Hub.canon_shadow | apply Hub.canon_hostMem | apply regsWf_kvWrite | (simp only [State.canon_mk, Hub.canon_mk, MemSt.canon_mk]) | apply And.intro | split)
theorem Hub.set2_canon (h : Hub) (f : Fld) (i j v : Nat) (h0 : h.canon) : (Hub.set2 h f i j v).canon := by
  unfold Hub.set2
  repeat' (with_reducible first | assumption | (intro _) | apply Hub.wr_canon | apply State.canon_hub | apply State.canon_mem | apply MemSt.canon_cells | apply Hub.canon_regs | apply Hub.canon_shadow | apply Hub.canon_hostMem | (simp only [State.canon_mk, Hub.canon_mk, MemSt.canon_mk]) | apply And.intro | split)
theorem Hub.set1_canon (h : Hub) (f : Fld) (i v : Nat) (h0 : h.canon) : (Hub.set1 h f i v).canon := by
  unfold Hub.set1
  repeat' (with_reducible first | assumption | (intro _) | apply Hub.set2_canon | apply State.canon_hub | apply State.canon_mem | apply MemSt.canon_cells | apply Hub.canon_regs | apply Hub.canon_shadow | apply Hub.canon_hostMem | (simp only [State.canon_mk, Hub.canon_mk, MemSt.canon_mk]) | apply And.intro | split)
theorem Hub.set_canon (h : Hub) (f : Fld) (v : Nat) (h0 : h.canon) : (Hub.set h f v).canon := by
  unfold Hub.set
  repeat' (with_reducible first | assumption | (intro _) | apply Hub.set2_canon | apply State.canon_hub | apply State.canon_mem | apply MemSt.canon_cells | apply Hub.canon_regs | apply Hub.canon_shadow | apply Hub.canon_hostMem | (simp only [State.canon_mk, Hub.canon_mk, MemSt.canon_mk]) | apply And.intro | split)
theorem Hub.set64_canon (h : Hub) (f : Fld) (i v : Nat) (h0 : h.canon) : (Hub.set64 h f i v).canon := by
  unfold Hub.set64
  repeat' (with_reducible first | assumption | (intro _) | apply Hub.wr_canon | apply State.canon_hub | apply State.canon_mem | apply MemSt.canon_cells | apply Hub.canon_regs | apply Hub.canon_shadow | apply Hub.canon_hostMem | (simp only [State.canon_mk, Hub.canon_mk, MemSt.canon_mk]) | apply And.intro | split)
theorem Hub.stat_canon (h : Hub) (f : Fld) (i n : Nat) (h0 : h.canon) : (Hub.stat h f i n).canon := by
  unfold Hub.stat
  repeat' (with_reducible first | assumption | (intro _) | apply Hub.set64_canon | apply State.canon_hub | apply State.canon_mem | apply MemSt.canon_cells | apply Hub.canon_regs | apply Hub.canon_shadow | apply Hub.canon_hostMem | (simp only [State.canon_mk, Hub.canon_mk, MemSt.canon_mk]) | apply And.intro | split)
theorem Hub.freeTick_canon (h : Hub) (h0 : h.canon) : (Hub.freeTick h).canon := by
  unfold Hub.freeTick
  repeat' (with_reducible first | assumption | (intro _) | apply State.canon_hub | apply State.canon_mem | apply MemSt.canon_cells | apply Hub.canon_regs | apply Hub.canon_shadow | apply Hub.canon_hostMem | (simp only [State.canon_mk, Hub.canon_mk, MemSt.canon_mk]) | apply And.intro | split)
theorem Hub.emit_canon (h : Hub) (m : OutMsg) (h0 : h.canon) : (Hub.emit h m).canon := by
  unfold Hub.emit
  repeat' (with_reducible first | assumption | (intro _) | apply State.canon_hub | apply State.canon_mem | apply MemSt.canon_cells | apply Hub.canon_regs | apply Hub.canon_shadow | apply Hub.canon_hostMem | (simp only [State.canon_mk, Hub.canon_mk, MemSt.canon_mk]) | apply And.intro | split)
theorem Hub.emits_canon (h : Hub) (ms : List OutMsg) (h0 : h.canon) : (Hub.emits h ms).canon := by
  unfold Hub.emits
  repeat' (with_reducible first | assumption | (intro _) | apply State.canon_hub | apply State.canon_mem | apply MemSt.canon_cells | apply Hub.canon_regs | apply Hub.canon_shadow | apply Hub.canon_hostMem | (simp only [State.canon_mk, Hub.canon_mk, MemSt.canon_mk]) | apply And.intro | split)
theorem Hub.msi_canon (h : Hub) (fn vec : Nat) (h0 : h.canon) : (Hub.msi h fn vec).canon := by
  unfold Hub.msi
  repeat' (with_reducible first | assumption | (intro _) | apply State.canon_hub | apply State.canon_mem | apply MemSt.canon_cells | apply Hub.canon_regs | apply Hub.canon_shadow | apply Hub.canon_hostMem | apply Hub.canon_if | apply State.canon_if | apply MemSt.canon_if | (simp only [State.canon_mk, Hub.canon_mk, MemSt.canon_mk]) | apply And.intro | split)
theorem Hub.msiBoundary_canon (h : Hub) (h0 : h.canon) : (Hub.msiBoundary h).canon := by
  unfold Hub.msiBoundary
  repeat' (with_reducible first | assumption | (intro _) | apply State.canon_hub | apply State.canon_mem | apply MemSt.canon_cells | apply Hub.canon_regs | apply Hub.canon_shadow | apply Hub.canon_hostMem | apply Hub.canon_if | apply State.canon_if | apply MemSt.canon_if | (simp only [State.canon_mk, Hub.canon_mk, MemSt.canon_mk]) | apply And.intro | split)
theorem Hub.evtSet_canon (h : Hub) (code inst : Nat) (h0 : h.canon) : (Hub.evtSet h code inst).canon := by
  unfold Hub.evtSet
  repeat' (with_reducible first | assumption | (intro _) | apply Hub.wr_canon | apply State.canon_hub | apply State.canon_mem | apply MemSt.canon_cells | apply Hub.canon_regs | apply Hub.canon_shadow | apply Hub.canon_hostMem | (simp only [State.canon_mk, Hub.canon_mk, MemSt.canon_mk]) | apply And.intro | split)
theorem Hub.route_canon (h : Hub) (fn block : Nat) (h0 : h.canon) : (Hub.route h fn block).canon := by
  unfold Hub.route
  repeat' (with_reducible first | assumption | (intro _) | apply Hub.msi_canon | apply State.canon_hub | apply State.canon_mem | apply MemSt.canon_cells | apply Hub.canon_regs | apply Hub.canon_shadow | apply Hub.canon_hostMem | apply Hub.canon_if | apply State.canon_if | apply MemSt.canon_if | (simp only [State.canon_mk, Hub.canon_mk, MemSt.canon_mk]) | apply And.intro | split)
theorem Hub.logPut_canon (h : Hub) (fn lg : Nat) (rec : List Byte) (h0 : h.canon) : (Hub.logPut h fn lg rec).canon := by
  unfold Hub.logPut
  repeat' (with_reducible first | assumption | (intro _) | apply State.canon_hub | apply State.canon_mem | apply MemSt.canon_cells | apply Hub.canon_regs | apply Hub.canon_shadow | apply Hub.canon_hostMem | apply regsWf_kvWrite | apply memWf_memWriteList | apply Hub.canon_if | apply State.canon_if | apply MemSt.canon_if | (simp only [State.canon_mk, Hub.canon_mk, MemSt.canon_mk]) | apply And.intro | split)
theorem Hub.logLostFlush_canon (h : Hub) (fn : Nat) (h0 : h.canon) : (Hub.logLostFlush h fn).canon := by
  unfold Hub.logLostFlush
  repeat' (with_reducible first | assumption | (intro _) | apply Hub.logPut_canon | apply State.canon_hub | apply State.canon_mem | apply MemSt.canon_cells | apply Hub.canon_regs | apply Hub.canon_shadow | apply Hub.canon_hostMem | apply Hub.canon_if | apply State.canon_if | apply MemSt.canon_if | (simp only [State.canon_mk, Hub.canon_mk, MemSt.canon_mk]) | apply And.intro | split)
theorem Hub.logDrop_canon (h : Hub) (fn : Nat) (h0 : h.canon) : (Hub.logDrop h fn).canon := by
  unfold Hub.logDrop
  repeat' (with_reducible first | assumption | (intro _) | apply Hub.evtSet_canon | apply Hub.route_canon | apply Hub.wr_canon | apply State.canon_hub | apply State.canon_mem | apply MemSt.canon_cells | apply Hub.canon_regs | apply Hub.canon_shadow | apply Hub.canon_hostMem | apply Hub.canon_if | apply State.canon_if | apply MemSt.canon_if | (simp only [State.canon_mk, Hub.canon_mk, MemSt.canon_mk]) | apply And.intro | split)
theorem Hub.logPlace_canon (h : Hub) (fn : Nat) (ev : Ev) (sec ns : Nat) (h0 : h.canon) : (Hub.logPlace h fn ev sec ns).canon := by
  unfold Hub.logPlace
  repeat' (with_reducible first | assumption | (intro _) | apply Hub.logDrop_canon | apply Hub.logLostFlush_canon | apply Hub.logPut_canon | apply State.canon_hub | apply State.canon_mem | apply MemSt.canon_cells | apply Hub.canon_regs | apply Hub.canon_shadow | apply Hub.canon_hostMem | apply Hub.canon_if | apply State.canon_if | apply MemSt.canon_if | (simp only [State.canon_mk, Hub.canon_mk, MemSt.canon_mk]) | apply And.intro | split)
theorem Hub.lchStuck_canon (h : Hub) (h0 : h.canon) : (Hub.lchStuck h).canon := by
  unfold Hub.lchStuck
  repeat' (with_reducible first | assumption | (intro _) | apply Hub.evtSet_canon | apply Hub.logPlace_canon | apply Hub.route_canon | apply State.canon_hub | apply State.canon_mem | apply MemSt.canon_cells | apply Hub.canon_regs | apply Hub.canon_shadow | apply Hub.canon_hostMem | apply Hub.canon_if | apply State.canon_if | apply MemSt.canon_if | (simp only [State.canon_mk, Hub.canon_mk, MemSt.canon_mk]) | apply And.intro | split)
theorem Hub.logAppend_canon (h : Hub) (fn : Nat) (ev : Ev) (sec ns : Nat) (h0 : h.canon) : (Hub.logAppend h fn ev sec ns).canon := by
  unfold Hub.logAppend
  repeat' (with_reducible first | assumption | (intro _) | apply Hub.lchStuck_canon | apply Hub.logPlace_canon | apply Hub.route_canon | apply State.canon_hub | apply State.canon_mem | apply MemSt.canon_cells | apply Hub.canon_regs | apply Hub.canon_shadow | apply Hub.canon_hostMem | apply Hub.canon_if | apply State.canon_if | apply MemSt.canon_if | (simp only [State.canon_mk, Hub.canon_mk, MemSt.canon_mk]) | apply And.intro | split)
theorem Hub.record_canon (h : Hub) (ev : Ev) (sec ns : Nat) (h0 : h.canon) : (Hub.record h ev sec ns).canon := by
  unfold Hub.record
  repeat' (with_reducible first | assumption | (intro _) | apply Hub.logAppend_canon | apply State.canon_hub | apply State.canon_mem | apply MemSt.canon_cells | apply Hub.canon_regs | apply Hub.canon_shadow | apply Hub.canon_hostMem | apply Hub.canon_if | apply State.canon_if | apply MemSt.canon_if | (simp only [State.canon_mk, Hub.canon_mk, MemSt.canon_mk]) | apply And.intro | split)
theorem Hub.raise_canon (h : Hub) (ev : Ev) (h0 : h.canon) : (Hub.raise h ev).canon := by
  unfold Hub.raise
  repeat' (with_reducible first | assumption | (intro _) | apply Hub.evtSet_canon | apply Hub.record_canon | apply State.canon_hub | apply State.canon_mem | apply MemSt.canon_cells | apply Hub.canon_regs | apply Hub.canon_shadow | apply Hub.canon_hostMem | apply Hub.canon_if | apply State.canon_if | apply MemSt.canon_if | (simp only [State.canon_mk, Hub.canon_mk, MemSt.canon_mk]) | apply And.intro | split)
theorem Hub.raiseAll_canon (h : Hub) (evs : List Ev) (h0 : h.canon) : (Hub.raiseAll h evs).canon := by
  unfold Hub.raiseAll
  repeat' (with_reducible first | assumption | (intro _) | apply Hub.raise_canon | apply State.canon_hub | apply State.canon_mem | apply MemSt.canon_cells | apply Hub.canon_regs | apply Hub.canon_shadow | apply Hub.canon_hostMem | apply Hub.canon_foldl | apply State.canon_foldl | apply MemSt.canon_foldl | apply State.canon_foldl_fst | (simp only [State.canon_mk, Hub.canon_mk, MemSt.canon_mk]) | apply And.intro | split)
theorem Hub.raiseRl_canon (h : Hub) (ev : Ev) (h0 : h.canon) : (Hub.raiseRl h ev).canon := by
  unfold Hub.raiseRl
  repeat' (with_reducible first | assumption | (intro _) | apply Hub.evtSet_canon | apply State.canon_hub | apply State.canon_mem | apply MemSt.canon_cells | apply Hub.canon_regs | apply Hub.canon_shadow | apply Hub.canon_hostMem | apply Hub.canon_if | apply State.canon_if | apply MemSt.canon_if | (simp only [State.canon_mk, Hub.canon_mk, MemSt.canon_mk]) | apply And.intro | split)
theorem Hub.rlFlush_canon (h : Hub) (h0 : h.canon) : (Hub.rlFlush h).canon := by
  unfold Hub.rlFlush
  repeat' (with_reducible first | assumption | (intro _) | apply Hub.record_canon | apply State.canon_hub | apply State.canon_mem | apply MemSt.canon_cells | apply Hub.canon_regs | apply Hub.canon_shadow | apply Hub.canon_hostMem | apply regsWf_filter | apply regsWf_kvFilter | apply memWf_filter | apply Hub.canon_if | apply State.canon_if | apply MemSt.canon_if | apply Hub.canon_foldl | apply State.canon_foldl | apply MemSt.canon_foldl | apply State.canon_foldl_fst | (simp only [State.canon_mk, Hub.canon_mk, MemSt.canon_mk]) | apply And.intro | split)
theorem Hub.err2_canon (h : Hub) (f : Fld) (i j : Nat) (stuck inst : Nat) (h0 : h.canon) : (Hub.err2 h f i j stuck inst).canon := by
  unfold Hub.err2
  repeat' (with_reducible first | assumption | (intro _) | apply Hub.raise_canon | apply Hub.wr_canon | apply State.canon_hub | apply State.canon_mem | apply MemSt.canon_cells | apply Hub.canon_regs | apply Hub.canon_shadow | apply Hub.canon_hostMem | apply Hub.canon_if | apply State.canon_if | apply MemSt.canon_if | (simp only [State.canon_mk, Hub.canon_mk, MemSt.canon_mk]) | apply And.intro | split)
theorem Hub.err_canon (h : Hub) (f : Fld) (i : Nat) (stuck inst : Nat) (h0 : h.canon) : (Hub.err h f i stuck inst).canon := by
  unfold Hub.err
  repeat' (with_reducible first | assumption | (intro _) | apply Hub.err2_canon | apply State.canon_hub | apply State.canon_mem | apply MemSt.canon_cells | apply Hub.canon_regs | apply Hub.canon_shadow | apply Hub.canon_hostMem | (simp only [State.canon_mk, Hub.canon_mk, MemSt.canon_mk]) | apply And.intro | split)
theorem Hub.errN_canon (h : Hub) (f : Fld) (i n : Nat) (stuck inst : Nat) (h0 : h.canon) : (Hub.errN h f i n stuck inst).canon := by
  unfold Hub.errN
  repeat' (with_reducible first | assumption | (intro _) | apply Hub.raise_canon | apply Hub.wr_canon | apply State.canon_hub | apply State.canon_mem | apply MemSt.canon_cells | apply Hub.canon_regs | apply Hub.canon_shadow | apply Hub.canon_hostMem | apply Hub.canon_if | apply State.canon_if | apply MemSt.canon_if | (simp only [State.canon_mk, Hub.canon_mk, MemSt.canon_mk]) | apply And.intro | split)
theorem Hub.hostWrite_canon (h : Hub) (a : Nat) (bs : List Byte) (h0 : h.canon) : (Hub.hostWrite h a bs).canon := by
  unfold Hub.hostWrite
  repeat' (with_reducible first | assumption | (intro _) | apply State.canon_hub | apply State.canon_mem | apply MemSt.canon_cells | apply Hub.canon_regs | apply Hub.canon_shadow | apply Hub.canon_hostMem | apply memWf_memWriteList | apply Hub.canon_if | apply State.canon_if | apply MemSt.canon_if | (simp only [State.canon_mk, Hub.canon_mk, MemSt.canon_mk]) | apply And.intro | split)
theorem Hub.setFifo_canon (h : Hub) (n : Nat) (f : Fifo) (h0 : h.canon) : (Hub.setFifo h n f).canon := by
  unfold Hub.setFifo
  repeat' (with_reducible first | assumption | (intro _) | apply State.canon_hub | apply State.canon_mem | apply MemSt.canon_cells | apply Hub.canon_regs | apply Hub.canon_shadow | apply Hub.canon_hostMem | (simp only [State.canon_mk, Hub.canon_mk, MemSt.canon_mk]) | apply And.intro | split)
theorem Hub.ringPut_canon (h : Hub) (n i : Nat) (x0 : List (List Byte)) (h0 : h.canon) : (Hub.ringPut h n i x0).canon := by
  induction x0 generalizing h n i with
  | nil =>
    unfold Hub.ringPut; try dsimp only
    repeat' (with_reducible first | assumption | (intro _) | apply Hub.hostWrite_canon | apply State.canon_hub | apply State.canon_mem | apply MemSt.canon_cells | apply Hub.canon_regs | apply Hub.canon_shadow | apply Hub.canon_hostMem | (simp only [State.canon_mk, Hub.canon_mk, MemSt.canon_mk]) | apply And.intro | split)
  | cons a l ih =>
    unfold Hub.ringPut; try dsimp only
    repeat' (with_reducible first | assumption | (intro _) | apply ih | apply Hub.hostWrite_canon | apply State.canon_hub | apply State.canon_mem | apply MemSt.canon_cells | apply Hub.canon_regs | apply Hub.canon_shadow | apply Hub.canon_hostMem | (simp only [State.canon_mk, Hub.canon_mk, MemSt.canon_mk]) | apply And.intro | split)
theorem Hub.qpSignal_canon (h : Hub) (q : Nat) (h0 : h.canon) : (Hub.qpSignal h q).canon := by
  unfold Hub.qpSignal
  repeat' (with_reducible first | assumption | (intro _) | apply Hub.msi_canon | apply State.canon_hub | apply State.canon_mem | apply MemSt.canon_cells | apply Hub.canon_regs | apply Hub.canon_shadow | apply Hub.canon_hostMem | apply Hub.canon_if | apply State.canon_if | apply MemSt.canon_if | (simp only [State.canon_mk, Hub.canon_mk, MemSt.canon_mk]) | apply And.intro | split)
theorem Hub.writeback_canon (h : Hub) (q : Nat) (h0 : h.canon) : (Hub.writeback h q).canon := by
  unfold Hub.writeback
  repeat' (with_reducible first | assumption | (intro _) | apply Hub.hostWrite_canon | apply State.canon_hub | apply State.canon_mem | apply MemSt.canon_cells | apply Hub.canon_regs | apply Hub.canon_shadow | apply Hub.canon_hostMem | (simp only [State.canon_mk, Hub.canon_mk, MemSt.canon_mk]) | apply And.intro | split)
theorem Hub.fifoPublish_canon (h : Hub) (n i : Nat) (h0 : h.canon) : (Hub.fifoPublish h n i).canon := by
  unfold Hub.fifoPublish
  repeat' (with_reducible first | assumption | (intro _) | apply Hub.qpSignal_canon | apply Hub.set1_canon | apply Hub.writeback_canon | apply State.canon_hub | apply State.canon_mem | apply MemSt.canon_cells | apply Hub.canon_regs | apply Hub.canon_shadow | apply Hub.canon_hostMem | (simp only [State.canon_mk, Hub.canon_mk, MemSt.canon_mk]) | apply And.intro | split)
theorem Hub.fifoGap_canon (h : Hub) (n : Nat) (h0 : h.canon) : (Hub.fifoGap h n).canon := by
  unfold Hub.fifoGap
  repeat' (with_reducible first | assumption | (intro _) | apply Hub.fifoPublish_canon | apply Hub.ringPut_canon | apply Hub.setFifo_canon | apply State.canon_hub | apply State.canon_mem | apply MemSt.canon_cells | apply Hub.canon_regs | apply Hub.canon_shadow | apply Hub.canon_hostMem | apply Hub.canon_if | apply State.canon_if | apply MemSt.canon_if | (simp only [State.canon_mk, Hub.canon_mk, MemSt.canon_mk]) | apply And.intro | split)
theorem Hub.fifoDrop_canon (h : Hub) (n : Nat) (h0 : h.canon) : (Hub.fifoDrop h n).canon := by
  unfold Hub.fifoDrop
  repeat' (with_reducible first | assumption | (intro _) | apply Hub.err_canon | apply Hub.raiseRl_canon | apply Hub.setFifo_canon | apply State.canon_hub | apply State.canon_mem | apply MemSt.canon_cells | apply Hub.canon_regs | apply Hub.canon_shadow | apply Hub.canon_hostMem | (simp only [State.canon_mk, Hub.canon_mk, MemSt.canon_mk]) | apply And.intro | split)
theorem Hub.fifoProduce_canon (h : Hub) (n : Nat) (payload : List Byte) (h0 : h.canon) : (Hub.fifoProduce h n payload).canon := by
  unfold Hub.fifoProduce
  repeat' (with_reducible first | assumption | (intro _) | apply Hub.fifoDrop_canon | apply Hub.fifoGap_canon | apply Hub.fifoPublish_canon | apply Hub.ringPut_canon | apply State.canon_hub | apply State.canon_mem | apply MemSt.canon_cells | apply Hub.canon_regs | apply Hub.canon_shadow | apply Hub.canon_hostMem | apply Hub.canon_if | apply State.canon_if | apply MemSt.canon_if | (simp only [State.canon_mk, Hub.canon_mk, MemSt.canon_mk]) | apply And.intro | split)
theorem Hub.fifoFlush_canon (h : Hub) (n : Nat) (h0 : h.canon) : (Hub.fifoFlush h n).canon := by
  unfold Hub.fifoFlush
  repeat' (with_reducible first | assumption | (intro _) | apply Hub.set1_canon | apply Hub.setFifo_canon | apply State.canon_hub | apply State.canon_mem | apply MemSt.canon_cells | apply Hub.canon_regs | apply Hub.canon_shadow | apply Hub.canon_hostMem | apply Hub.canon_if | apply State.canon_if | apply MemSt.canon_if | (simp only [State.canon_mk, Hub.canon_mk, MemSt.canon_mk]) | apply And.intro | split)
theorem Hub.fifoCtl_canon (h : Hub) (n : Nat) (val : Word) (h0 : h.canon) : (Hub.fifoCtl h n val).canon := by
  unfold Hub.fifoCtl
  repeat' (with_reducible first | assumption | (intro _) | apply Hub.fifoFlush_canon | apply Hub.set1_canon | apply State.canon_hub | apply State.canon_mem | apply MemSt.canon_cells | apply Hub.canon_regs | apply Hub.canon_shadow | apply Hub.canon_hostMem | apply Hub.canon_if | apply State.canon_if | apply MemSt.canon_if | (simp only [State.canon_mk, Hub.canon_mk, MemSt.canon_mk]) | apply And.intro | split)
theorem Hub.qpDeliver_canon (h : Hub) (q : Nat) (path : Bool) (payload : List Byte) (h0 : h.canon) : (Hub.qpDeliver h q path payload).canon := by
  unfold Hub.qpDeliver
  repeat' (with_reducible first | assumption | (intro _) | apply Hub.err_canon | apply Hub.fifoProduce_canon | apply Hub.raiseRl_canon | apply State.canon_hub | apply State.canon_mem | apply MemSt.canon_cells | apply Hub.canon_regs | apply Hub.canon_shadow | apply Hub.canon_hostMem | apply Hub.canon_if | apply State.canon_if | apply MemSt.canon_if | (simp only [State.canon_mk, Hub.canon_mk, MemSt.canon_mk]) | apply And.intro | split)
theorem Hub.fifoBad_canon (h : Hub) (n : Nat) (h0 : h.canon) : (Hub.fifoBad h n).canon := by
  unfold Hub.fifoBad
  repeat' (with_reducible first | assumption | (intro _) | apply Hub.err_canon | apply Hub.raise_canon | apply State.canon_hub | apply State.canon_mem | apply MemSt.canon_cells | apply Hub.canon_regs | apply Hub.canon_shadow | apply Hub.canon_hostMem | (simp only [State.canon_mk, Hub.canon_mk, MemSt.canon_mk]) | apply And.intro | split)
theorem Hub.fifoAdvance_canon (h : Hub) (n i : Nat) (h0 : h.canon) : (Hub.fifoAdvance h n i).canon := by
  unfold Hub.fifoAdvance
  repeat' (with_reducible first | assumption | (intro _) | apply Hub.set1_canon | apply Hub.writeback_canon | apply State.canon_hub | apply State.canon_mem | apply MemSt.canon_cells | apply Hub.canon_regs | apply Hub.canon_shadow | apply Hub.canon_hostMem | (simp only [State.canon_mk, Hub.canon_mk, MemSt.canon_mk]) | apply And.intro | split)
theorem Hub.fifoTake_canon (h : Hub) (n : Nat) (next : FifoNext) (h0 : h.canon) : (Hub.fifoTake h n next).1.canon := by
  unfold Hub.fifoTake
  repeat' (with_reducible first | assumption | (intro _) | apply Hub.emit_canon | apply Hub.err_canon | apply Hub.errN_canon | apply Hub.fifoAdvance_canon | apply Hub.fifoBad_canon | apply Hub.fifoFlush_canon | apply State.canon_hub | apply State.canon_mem | apply MemSt.canon_cells | apply Hub.canon_regs | apply Hub.canon_shadow | apply Hub.canon_hostMem | (simp only [State.canon_mk, Hub.canon_mk, MemSt.canon_mk]) | apply And.intro | split)
theorem Hub.fifoConsume_canon (h : Hub) (n : Nat) (x0 : Nat) (h0 : h.canon) : (Hub.fifoConsume h n x0).canon := by
  induction x0 generalizing h with
  | zero => exact h0
  | succ k ih =>
    rw [Hub.fifoConsume]
    split
    · exact ih _ (Hub.fifoTake_canon _ _ _ h0)
    · exact Hub.fifoTake_canon _ _ _ h0
theorem Hub.postDone_canon (h : Hub) (qp : Nat) (x0 : List CmdSlot) (h0 : h.canon) : (Hub.postDone h qp x0).canon := by
  induction x0 generalizing h qp with
  | nil =>
    unfold Hub.postDone; try dsimp only
    repeat' (with_reducible first | assumption | (intro _) | apply Hub.fifoProduce_canon | apply State.canon_hub | apply State.canon_mem | apply MemSt.canon_cells | apply Hub.canon_regs | apply Hub.canon_shadow | apply Hub.canon_hostMem | (simp only [State.canon_mk, Hub.canon_mk, MemSt.canon_mk]) | apply And.intro | split)
  | cons a l ih =>
    unfold Hub.postDone; try dsimp only
    repeat' (with_reducible first | assumption | (intro _) | apply ih | apply Hub.fifoProduce_canon | apply State.canon_hub | apply State.canon_mem | apply MemSt.canon_cells | apply Hub.canon_regs | apply Hub.canon_shadow | apply Hub.canon_hostMem | (simp only [State.canon_mk, Hub.canon_mk, MemSt.canon_mk]) | apply And.intro | split)
theorem Hub.complete_canon (h : Hub) (e : CmdEnv) (opcode status : Nat) (result : List Byte) (held : Option (Nat × Instr)) (h0 : h.canon) : (Hub.complete h e opcode status result held).canon := by
  unfold Hub.complete
  repeat' (with_reducible first | assumption | (intro _) | apply Hub.postDone_canon | apply State.canon_hub | apply State.canon_mem | apply MemSt.canon_cells | apply Hub.canon_regs | apply Hub.canon_shadow | apply Hub.canon_hostMem | apply Hub.canon_if | apply State.canon_if | apply MemSt.canon_if | (simp only [State.canon_mk, Hub.canon_mk, MemSt.canon_mk]) | apply And.intro | split)
theorem Hub.postHeld_canon (h : Hub) (h0 : h.canon) : (Hub.postHeld h).canon := by
  unfold Hub.postHeld
  repeat' (with_reducible first | assumption | (intro _) | apply Hub.postDone_canon | apply State.canon_hub | apply State.canon_mem | apply MemSt.canon_cells | apply Hub.canon_regs | apply Hub.canon_shadow | apply Hub.canon_hostMem | apply Hub.canon_foldl | apply State.canon_foldl | apply MemSt.canon_foldl | apply State.canon_foldl_fst | (simp only [State.canon_mk, Hub.canon_mk, MemSt.canon_mk]) | apply And.intro | split)
theorem State.settle_canon (s : State) (h0 : s.canon) : (State.settle s).canon := by
  unfold State.settle
  repeat' (with_reducible first | assumption | (intro _) | apply State.canon_hub | apply State.canon_mem | apply MemSt.canon_cells | apply Hub.canon_regs | apply Hub.canon_shadow | apply Hub.canon_hostMem | (simp only [State.canon_mk, Hub.canon_mk, MemSt.canon_mk]) | apply And.intro | split)
theorem State.done_canon (s : State) (e : CmdEnv) (op st : Nat) (res : List Byte) (h0 : s.canon) : (State.done s e op st res).canon := by
  unfold State.done
  repeat' (with_reducible first | assumption | (intro _) | apply Hub.complete_canon | apply State.settle_canon | apply State.canon_hub | apply State.canon_mem | apply MemSt.canon_cells | apply Hub.canon_regs | apply Hub.canon_shadow | apply Hub.canon_hostMem | (simp only [State.canon_mk, Hub.canon_mk, MemSt.canon_mk]) | apply And.intro | split)
theorem State.hold_canon (s : State) (e : CmdEnv) (op : Nat) (i : Instr) (h0 : s.canon) : (State.hold s e op i).canon := by
  unfold State.hold
  repeat' (with_reducible first | assumption | (intro _) | apply Hub.complete_canon | apply State.settle_canon | apply State.canon_hub | apply State.canon_mem | apply MemSt.canon_cells | apply Hub.canon_regs | apply Hub.canon_shadow | apply Hub.canon_hostMem | (simp only [State.canon_mk, Hub.canon_mk, MemSt.canon_mk]) | apply And.intro | split)
theorem execFifoFlush_canon (fn n : Nat) (val : Word) (s : State) (h0 : s.canon) : ∃ t, execFifoFlush fn n val s = .next t ∧ t.canon := by
  refine ⟨_, rfl, ?_⟩
  repeat' (with_reducible first | assumption | (intro _) | apply Hub.fifoCtl_canon | apply State.canon_hub | apply State.canon_mem | apply MemSt.canon_cells | apply Hub.canon_regs | apply Hub.canon_shadow | apply Hub.canon_hostMem | apply Hub.canon_if | apply State.canon_if | apply MemSt.canon_if | (simp only [State.canon_mk, Hub.canon_mk, MemSt.canon_mk]) | apply And.intro | split)
theorem execFifoSizeChange_canon (fn n : Nat) (val : Word) (s : State) (h0 : s.canon) : ∃ t, execFifoSizeChange fn n val s = .next t ∧ t.canon := by
  refine ⟨_, rfl, ?_⟩
  repeat' (with_reducible first | assumption | (intro _) | apply Hub.fifoCtl_canon | apply State.canon_hub | apply State.canon_mem | apply MemSt.canon_cells | apply Hub.canon_regs | apply Hub.canon_shadow | apply Hub.canon_hostMem | apply Hub.canon_if | apply State.canon_if | apply MemSt.canon_if | (simp only [State.canon_mk, Hub.canon_mk, MemSt.canon_mk]) | apply And.intro | split)
theorem State.setQueue_canon (s : State) (n : Nat) (q : EgrQueue) (h0 : s.canon) : (State.setQueue s n q).canon := by
  unfold State.setQueue
  repeat' (with_reducible first | assumption | (intro _) | apply State.canon_hub | apply State.canon_mem | apply MemSt.canon_cells | apply Hub.canon_regs | apply Hub.canon_shadow | apply Hub.canon_hostMem | (simp only [State.canon_mk, Hub.canon_mk, MemSt.canon_mk]) | apply And.intro | split)
theorem Hub.mark_canon (h : Hub) (f : Fld) (i j v : Nat) (h0 : h.canon) : (Hub.mark h f i j v).canon := by
  unfold Hub.mark
  repeat' (with_reducible first | assumption | (intro _) | apply Hub.set2_canon | apply State.canon_hub | apply State.canon_mem | apply MemSt.canon_cells | apply Hub.canon_regs | apply Hub.canon_shadow | apply Hub.canon_hostMem | apply Hub.canon_if | apply State.canon_if | apply MemSt.canon_if | (simp only [State.canon_mk, Hub.canon_mk, MemSt.canon_mk]) | apply And.intro | split)
theorem State.markDepth_canon (s : State) (n : Nat) (q : EgrQueue) (h0 : s.canon) : (State.markDepth s n q).canon := by
  unfold State.markDepth
  repeat' (with_reducible first | assumption | (intro _) | apply Hub.mark_canon | apply State.canon_hub | apply State.canon_mem | apply MemSt.canon_cells | apply Hub.canon_regs | apply Hub.canon_shadow | apply Hub.canon_hostMem | apply Hub.canon_if | apply State.canon_if | apply MemSt.canon_if | (simp only [State.canon_mk, Hub.canon_mk, MemSt.canon_mk]) | apply And.intro | split)
theorem State.dropOversize_canon (s : State) (n : Nat) (x0 : Nat) (h0 : s.canon) : (State.dropOversize s n x0).canon := by
  induction x0 generalizing s n with
  | zero =>
    unfold State.dropOversize; try dsimp only
    repeat' (with_reducible first | assumption | (intro _) | apply Hub.err_canon | apply Hub.raiseRl_canon | apply State.setQueue_canon | apply State.canon_hub | apply State.canon_mem | apply MemSt.canon_cells | apply Hub.canon_regs | apply Hub.canon_shadow | apply Hub.canon_hostMem | apply Hub.canon_if | apply State.canon_if | apply MemSt.canon_if | (simp only [State.canon_mk, Hub.canon_mk, MemSt.canon_mk]) | apply And.intro | split)
  | succ n ih =>
    unfold State.dropOversize; try dsimp only
    repeat' (with_reducible first | assumption | (intro _) | apply ih | apply Hub.err_canon | apply Hub.raiseRl_canon | apply State.setQueue_canon | apply State.canon_hub | apply State.canon_mem | apply MemSt.canon_cells | apply Hub.canon_regs | apply Hub.canon_shadow | apply Hub.canon_hostMem | apply Hub.canon_if | apply State.canon_if | apply MemSt.canon_if | (simp only [State.canon_mk, Hub.canon_mk, MemSt.canon_mk]) | apply And.intro | split)
theorem State.enqueue_canon (s : State) (n p c : Nat) (front : Bool) (len : Nat) (msg : OutMsg) (sec : Option CipItem := none)
    (idx : Option IdxEntry := none) (h0 : s.canon) : (State.enqueue s n p c front len msg sec idx).canon := by
  unfold State.enqueue
  repeat' (with_reducible first | assumption | (intro _) | apply Hub.err_canon | apply Hub.raiseRl_canon | apply State.dropOversize_canon | apply State.markDepth_canon | apply State.setQueue_canon | apply State.canon_hub | apply State.canon_mem | apply MemSt.canon_cells | apply Hub.canon_regs | apply Hub.canon_shadow | apply Hub.canon_hostMem | apply Hub.canon_if | apply State.canon_if | apply MemSt.canon_if | (simp only [State.canon_mk, Hub.canon_mk, MemSt.canon_mk]) | apply And.intro | split)
theorem State.sysSend_canon (s : State) (n p len : Nat) (msg : OutMsg) (h0 : s.canon) : (State.sysSend s n p len msg).canon := by
  unfold State.sysSend
  repeat' (with_reducible first | assumption | (intro _) | apply State.enqueue_canon | apply State.canon_hub | apply State.canon_mem | apply MemSt.canon_cells | apply Hub.canon_regs | apply Hub.canon_shadow | apply Hub.canon_hostMem | (simp only [State.canon_mk, Hub.canon_mk, MemSt.canon_mk]) | apply And.intro | split)
theorem State.dropPort_canon (s : State) (p : Nat) (h0 : s.canon) : (State.dropPort s p).canon := by
  unfold State.dropPort
  repeat' (with_reducible first | assumption | (intro _) | apply State.dropOversize_canon | apply State.canon_hub | apply State.canon_mem | apply MemSt.canon_cells | apply Hub.canon_regs | apply Hub.canon_shadow | apply Hub.canon_hostMem | apply Hub.canon_if | apply State.canon_if | apply MemSt.canon_if | apply Hub.canon_foldl | apply State.canon_foldl | apply MemSt.canon_foldl | apply State.canon_foldl_fst | (simp only [State.canon_mk, Hub.canon_mk, MemSt.canon_mk]) | apply And.intro | split)
theorem execRateWheelSlot_canon (n : Nat) (s : State) (h0 : s.canon) : ∃ t, execRateWheelSlot n s = .next t ∧ t.canon := by
  refine ⟨_, rfl, ?_⟩
  repeat' (with_reducible first | assumption | (intro _) | apply State.setQueue_canon | apply State.canon_hub | apply State.canon_mem | apply MemSt.canon_cells | apply Hub.canon_regs | apply Hub.canon_shadow | apply Hub.canon_hostMem | apply Hub.canon_if | apply State.canon_if | apply MemSt.canon_if | (simp only [State.canon_mk, Hub.canon_mk, MemSt.canon_mk]) | apply And.intro | split)
theorem Hub.between_canon (h : Hub) (lo hi : Nat) (h0 : h.canon) : (Hub.between h lo hi).2.canon := by
  unfold Hub.between
  repeat' (with_reducible first | assumption | (intro _) | apply Hub.freeTick_canon | apply State.canon_hub | apply State.canon_mem | apply MemSt.canon_cells | apply Hub.canon_regs | apply Hub.canon_shadow | apply Hub.canon_hostMem | apply Hub.canon_if | apply State.canon_if | apply MemSt.canon_if | (simp only [State.canon_mk, Hub.canon_mk, MemSt.canon_mk]) | apply And.intro | split)
theorem State.gclPend_canon (s : State) (p : Nat) (h0 : s.canon) : (State.gclPend s p).canon := by
  unfold State.gclPend
  repeat' (with_reducible first | assumption | (intro _) | apply Hub.raise_canon | apply Hub.set1_canon | apply State.canon_hub | apply State.canon_mem | apply MemSt.canon_cells | apply Hub.canon_regs | apply Hub.canon_shadow | apply Hub.canon_hostMem | apply Hub.canon_if | apply State.canon_if | apply MemSt.canon_if | (simp only [State.canon_mk, Hub.canon_mk, MemSt.canon_mk]) | apply And.intro | split)
theorem State.gateEntry_canon (s : State) (p : Nat) (h0 : s.canon) : (State.gateEntry s p).canon := by
  unfold State.gateEntry
  repeat' (with_reducible first | assumption | (intro _) | apply Hub.set1_canon | apply State.canon_hub | apply State.canon_mem | apply MemSt.canon_cells | apply Hub.canon_regs | apply Hub.canon_shadow | apply Hub.canon_hostMem | apply Hub.canon_if | apply State.canon_if | apply MemSt.canon_if | (simp only [State.canon_mk, Hub.canon_mk, MemSt.canon_mk]) | apply And.intro | split)
theorem State.gclTake_canon (s : State) (p at_ : Nat) (h0 : s.canon) : (State.gclTake s p at_).canon := by
  unfold State.gclTake
  repeat' (with_reducible first | assumption | (intro _) | apply Hub.raise_canon | apply Hub.set1_canon | apply State.gateEntry_canon | apply State.canon_hub | apply State.canon_mem | apply MemSt.canon_cells | apply Hub.canon_regs | apply Hub.canon_shadow | apply Hub.canon_hostMem | (simp only [State.canon_mk, Hub.canon_mk, MemSt.canon_mk]) | apply And.intro | split)
theorem State.gclDue_canon (s : State) (h0 : s.canon) : (State.gclDue s).canon := by
  unfold State.gclDue
  repeat' (with_reducible first | assumption | (intro _) | apply State.gateEntry_canon | apply State.gclTake_canon | apply State.canon_hub | apply State.canon_mem | apply MemSt.canon_cells | apply Hub.canon_regs | apply Hub.canon_shadow | apply Hub.canon_hostMem | apply Hub.canon_if | apply State.canon_if | apply MemSt.canon_if | apply Hub.canon_foldl | apply State.canon_foldl | apply MemSt.canon_foldl | apply State.canon_foldl_fst | (simp only [State.canon_mk, Hub.canon_mk, MemSt.canon_mk]) | apply And.intro | split)
theorem execGclTakeover_canon (p : Nat) (s : State) (h0 : s.canon) : ∃ t, execGclTakeover p s = .next t ∧ t.canon := by
  refine ⟨_, rfl, ?_⟩
  repeat' (with_reducible first | assumption | (intro _) | apply State.gclTake_canon | apply State.canon_hub | apply State.canon_mem | apply MemSt.canon_cells | apply Hub.canon_regs | apply Hub.canon_shadow | apply Hub.canon_hostMem | apply Hub.canon_if | apply State.canon_if | apply MemSt.canon_if | (simp only [State.canon_mk, Hub.canon_mk, MemSt.canon_mk]) | apply And.intro | split)
theorem execGateEntryChange_canon (p : Nat) (s : State) (h0 : s.canon) : ∃ t, execGateEntryChange p s = .next t ∧ t.canon := by
  refine ⟨_, rfl, ?_⟩
  repeat' (with_reducible first | assumption | (intro _) | apply State.gateEntry_canon | apply State.canon_hub | apply State.canon_mem | apply MemSt.canon_cells | apply Hub.canon_regs | apply Hub.canon_shadow | apply Hub.canon_hostMem | apply Hub.canon_if | apply State.canon_if | apply MemSt.canon_if | (simp only [State.canon_mk, Hub.canon_mk, MemSt.canon_mk]) | apply And.intro | split)
theorem State.sampleSlot_canon (s : State) (h : Hub) (n : Nat) (h0 : s.canon) (h1 : h.canon) : (State.sampleSlot s h n).canon := by
  unfold State.sampleSlot
  repeat' (with_reducible first | assumption | (intro _) | apply Hub.set1_canon | apply State.canon_hub | apply State.canon_mem | apply MemSt.canon_cells | apply Hub.canon_regs | apply Hub.canon_shadow | apply Hub.canon_hostMem | apply Hub.canon_if | apply State.canon_if | apply MemSt.canon_if | (simp only [State.canon_mk, Hub.canon_mk, MemSt.canon_mk]) | apply And.intro | split)
theorem State.sample_canon (s : State) (n : Nat) (h0 : s.canon) : (State.sample s n).canon := by
  unfold State.sample
  repeat' (with_reducible first | assumption | (intro _) | apply Hub.set_canon | apply State.sampleSlot_canon | apply State.canon_hub | apply State.canon_mem | apply MemSt.canon_cells | apply Hub.canon_regs | apply Hub.canon_shadow | apply Hub.canon_hostMem | apply Hub.canon_if | apply State.canon_if | apply MemSt.canon_if | apply Hub.canon_foldl | apply State.canon_foldl | apply MemSt.canon_foldl | apply State.canon_foldl_fst | (simp only [State.canon_mk, Hub.canon_mk, MemSt.canon_mk]) | apply And.intro | split)
theorem Hub.nowCapture_canon (h : Hub) (fn : Nat) (h0 : h.canon) : (Hub.nowCapture h fn).canon := by
  unfold Hub.nowCapture
  repeat' (with_reducible first | assumption | (intro _) | apply State.canon_hub | apply State.canon_mem | apply MemSt.canon_cells | apply Hub.canon_regs | apply Hub.canon_shadow | apply Hub.canon_hostMem | (simp only [State.canon_mk, Hub.canon_mk, MemSt.canon_mk]) | apply And.intro | split)
theorem Hub.setHoldover_canon (h : Hub) (v : Nat) (h0 : h.canon) : (Hub.setHoldover h v).canon := by
  unfold Hub.setHoldover
  repeat' (with_reducible first | assumption | (intro _) | apply Hub.raise_canon | apply Hub.set_canon | apply State.canon_hub | apply State.canon_mem | apply MemSt.canon_cells | apply Hub.canon_regs | apply Hub.canon_shadow | apply Hub.canon_hostMem | apply Hub.canon_if | apply State.canon_if | apply MemSt.canon_if | (simp only [State.canon_mk, Hub.canon_mk, MemSt.canon_mk]) | apply And.intro | split)
theorem State.timeLock_canon (s : State) (h0 : s.canon) : (State.timeLock s).canon := by
  unfold State.timeLock
  repeat' (with_reducible first | assumption | (intro _) | apply Hub.raise_canon | apply Hub.set_canon | apply Hub.setHoldover_canon | apply State.canon_hub | apply State.canon_mem | apply MemSt.canon_cells | apply Hub.canon_regs | apply Hub.canon_shadow | apply Hub.canon_hostMem | apply Hub.canon_if | apply State.canon_if | apply MemSt.canon_if | (simp only [State.canon_mk, Hub.canon_mk, MemSt.canon_mk]) | apply And.intro | split)
theorem State.timeLoss_canon (s : State) (cause : Nat) (h0 : s.canon) : (State.timeLoss s cause).canon := by
  unfold State.timeLoss
  repeat' (with_reducible first | assumption | (intro _) | apply Hub.raise_canon | apply Hub.set_canon | apply Hub.setHoldover_canon | apply State.canon_hub | apply State.canon_mem | apply MemSt.canon_cells | apply Hub.canon_regs | apply Hub.canon_shadow | apply Hub.canon_hostMem | apply Hub.canon_if | apply State.canon_if | apply MemSt.canon_if | (simp only [State.canon_mk, Hub.canon_mk, MemSt.canon_mk]) | apply And.intro | split)
theorem execNowFracRead_canon (fn : Nat) (s : State) (h0 : s.canon) : ∃ t, execNowFracRead fn s = .next t ∧ t.canon := by
  refine ⟨_, rfl, ?_⟩
  repeat' (with_reducible first | assumption | (intro _) | apply Hub.emit_canon | apply Hub.nowCapture_canon | apply State.canon_hub | apply State.canon_mem | apply MemSt.canon_cells | apply Hub.canon_regs | apply Hub.canon_shadow | apply Hub.canon_hostMem | apply Hub.canon_if | apply State.canon_if | apply MemSt.canon_if | (simp only [State.canon_mk, Hub.canon_mk, MemSt.canon_mk]) | apply And.intro | split)
theorem State.incrSet_canon (s : State) (v : Nat) (h0 : s.canon) : (State.incrSet s v).canon := by
  unfold State.incrSet
  repeat' (with_reducible first | assumption | (intro _) | apply Hub.wr_canon | apply State.canon_hub | apply State.canon_mem | apply MemSt.canon_cells | apply Hub.canon_regs | apply Hub.canon_shadow | apply Hub.canon_hostMem | (simp only [State.canon_mk, Hub.canon_mk, MemSt.canon_mk]) | apply And.intro | split)
theorem State.incrWrite_canon (s : State) (val : Word) (h0 : s.canon) : (State.incrWrite s val).canon := by
  unfold State.incrWrite
  repeat' (with_reducible first | assumption | (intro _) | apply State.incrSet_canon | apply State.canon_hub | apply State.canon_mem | apply MemSt.canon_cells | apply Hub.canon_regs | apply Hub.canon_shadow | apply Hub.canon_hostMem | (simp only [State.canon_mk, Hub.canon_mk, MemSt.canon_mk]) | apply And.intro | split)
theorem execIncrWrite_canon (val : Word) (s : State) (h0 : s.canon) : ∃ t, execIncrWrite val s = .next t ∧ t.canon := by
  refine ⟨_, rfl, ?_⟩
  repeat' (with_reducible first | assumption | (intro _) | apply State.incrWrite_canon | apply State.canon_hub | apply State.canon_mem | apply MemSt.canon_cells | apply Hub.canon_regs | apply Hub.canon_shadow | apply Hub.canon_hostMem | apply Hub.canon_if | apply State.canon_if | apply MemSt.canon_if | (simp only [State.canon_mk, Hub.canon_mk, MemSt.canon_mk]) | apply And.intro | split)
theorem State.lockWrite_canon (s : State) (val : Word) (h0 : s.canon) : (State.lockWrite s val).canon := by
  unfold State.lockWrite
  repeat' (with_reducible first | assumption | (intro _) | apply State.timeLock_canon | apply State.timeLoss_canon | apply State.canon_hub | apply State.canon_mem | apply MemSt.canon_cells | apply Hub.canon_regs | apply Hub.canon_shadow | apply Hub.canon_hostMem | apply Hub.canon_if | apply State.canon_if | apply MemSt.canon_if | (simp only [State.canon_mk, Hub.canon_mk, MemSt.canon_mk]) | apply And.intro | split)
theorem execLockWrite_canon (val : Word) (s : State) (h0 : s.canon) : ∃ t, execLockWrite val s = .next t ∧ t.canon := by
  refine ⟨_, rfl, ?_⟩
  repeat' (with_reducible first | assumption | (intro _) | apply State.lockWrite_canon | apply State.canon_hub | apply State.canon_mem | apply MemSt.canon_cells | apply Hub.canon_regs | apply Hub.canon_shadow | apply Hub.canon_hostMem | apply Hub.canon_if | apply State.canon_if | apply MemSt.canon_if | (simp only [State.canon_mk, Hub.canon_mk, MemSt.canon_mk]) | apply And.intro | split)
theorem execPtpLockDeclared_canon (s : State) (h0 : s.canon) : ∃ t, execPtpLockDeclared s = .next t ∧ t.canon := by
  refine ⟨_, rfl, ?_⟩
  repeat' (with_reducible first | assumption | (intro _) | apply State.timeLock_canon | apply State.canon_hub | apply State.canon_mem | apply MemSt.canon_cells | apply Hub.canon_regs | apply Hub.canon_shadow | apply Hub.canon_hostMem | apply Hub.canon_if | apply State.canon_if | apply MemSt.canon_if | (simp only [State.canon_mk, Hub.canon_mk, MemSt.canon_mk]) | apply And.intro | split)
theorem execPtpLossDeclared_canon (s : State) (h0 : s.canon) : ∃ t, execPtpLossDeclared s = .next t ∧ t.canon := by
  refine ⟨_, rfl, ?_⟩
  repeat' (with_reducible first | assumption | (intro _) | apply Hub.set_canon | apply State.timeLoss_canon | apply State.canon_hub | apply State.canon_mem | apply MemSt.canon_cells | apply Hub.canon_regs | apply Hub.canon_shadow | apply Hub.canon_hostMem | apply Hub.canon_if | apply State.canon_if | apply MemSt.canon_if | (simp only [State.canon_mk, Hub.canon_mk, MemSt.canon_mk]) | apply And.intro | split)
theorem execTimWatchdogExpiry_canon (s : State) (h0 : s.canon) : ∃ t, execTimWatchdogExpiry s = .next t ∧ t.canon := by
  refine ⟨_, rfl, ?_⟩
  repeat' (with_reducible first | assumption | (intro _) | apply State.timeLoss_canon | apply State.canon_hub | apply State.canon_mem | apply MemSt.canon_cells | apply Hub.canon_regs | apply Hub.canon_shadow | apply Hub.canon_hostMem | apply Hub.canon_if | apply State.canon_if | apply MemSt.canon_if | (simp only [State.canon_mk, Hub.canon_mk, MemSt.canon_mk]) | apply And.intro | split)
theorem execPpsInEdge_canon (s : State) (h0 : s.canon) : ∃ t, execPpsInEdge s = .next t ∧ t.canon := by
  refine ⟨_, rfl, ?_⟩
  repeat' (with_reducible first | assumption | (intro _) | apply Hub.err_canon | apply Hub.raise_canon | apply Hub.set_canon | apply State.canon_hub | apply State.canon_mem | apply MemSt.canon_cells | apply Hub.canon_regs | apply Hub.canon_shadow | apply Hub.canon_hostMem | apply Hub.canon_if | apply State.canon_if | apply MemSt.canon_if | (simp only [State.canon_mk, Hub.canon_mk, MemSt.canon_mk]) | apply And.intro | split)
theorem execPpsOutPulse_canon (s : State) (h0 : s.canon) : ∃ t, execPpsOutPulse s = .next t ∧ t.canon := by
  refine ⟨_, rfl, ?_⟩
  repeat' (with_reducible first | assumption | (intro _) | apply Hub.emit_canon | apply State.canon_hub | apply State.canon_mem | apply MemSt.canon_cells | apply Hub.canon_regs | apply Hub.canon_shadow | apply Hub.canon_hostMem | apply Hub.canon_if | apply State.canon_if | apply MemSt.canon_if | (simp only [State.canon_mk, Hub.canon_mk, MemSt.canon_mk]) | apply And.intro | split)
theorem execPinPulseEnd_canon (pin : Nat) (s : State) (h0 : s.canon) : ∃ t, execPinPulseEnd pin s = .next t ∧ t.canon := by
  refine ⟨_, rfl, ?_⟩
  repeat' (with_reducible first | assumption | (intro _) | apply Hub.emit_canon | apply State.canon_hub | apply State.canon_mem | apply MemSt.canon_cells | apply Hub.canon_regs | apply Hub.canon_shadow | apply Hub.canon_hostMem | apply Hub.canon_if | apply State.canon_if | apply MemSt.canon_if | (simp only [State.canon_mk, Hub.canon_mk, MemSt.canon_mk]) | apply And.intro | split)
theorem execTevCaptureEdge_canon (pin : Nat) (s : State) (h0 : s.canon) : ∃ t, execTevCaptureEdge pin s = .next t ∧ t.canon := by
  refine ⟨_, rfl, ?_⟩
  repeat' (with_reducible first | assumption | (intro _) | apply Hub.err_canon | apply Hub.raise_canon | apply Hub.set1_canon | apply State.canon_hub | apply State.canon_mem | apply MemSt.canon_cells | apply Hub.canon_regs | apply Hub.canon_shadow | apply Hub.canon_hostMem | apply Hub.canon_if | apply State.canon_if | apply MemSt.canon_if | (simp only [State.canon_mk, Hub.canon_mk, MemSt.canon_mk]) | apply And.intro | split)
theorem State.tevSchedule_canon (s : State) (n : Nat) (h0 : s.canon) : (State.tevSchedule s n).canon := by
  unfold State.tevSchedule
  repeat' (with_reducible first | assumption | (intro _) | apply Hub.emit_canon | apply Hub.raise_canon | apply State.canon_hub | apply State.canon_mem | apply MemSt.canon_cells | apply Hub.canon_regs | apply Hub.canon_shadow | apply Hub.canon_hostMem | apply Hub.canon_if | apply State.canon_if | apply MemSt.canon_if | (simp only [State.canon_mk, Hub.canon_mk, MemSt.canon_mk]) | apply And.intro | split)
theorem execTevConfigWrite_canon (pin reg : Nat) (val : Word) (s : State) (h0 : s.canon) : ∃ t, execTevConfigWrite pin reg val s = .next t ∧ t.canon := by
  refine ⟨_, rfl, ?_⟩
  repeat' (with_reducible first | assumption | (intro _) | apply Hub.wr_canon | apply State.tevSchedule_canon | apply State.canon_hub | apply State.canon_mem | apply MemSt.canon_cells | apply Hub.canon_regs | apply Hub.canon_shadow | apply Hub.canon_hostMem | apply Hub.canon_if | apply State.canon_if | apply MemSt.canon_if | (simp only [State.canon_mk, Hub.canon_mk, MemSt.canon_mk]) | apply And.intro | split)
theorem State.tevCompare_canon (s : State) (h0 : s.canon) : (State.tevCompare s).canon := by
  unfold State.tevCompare
  repeat' (with_reducible first | assumption | (intro _) | apply State.canon_hub | apply State.canon_mem | apply MemSt.canon_cells | apply Hub.canon_regs | apply Hub.canon_shadow | apply Hub.canon_hostMem | apply Hub.canon_if | apply State.canon_if | apply MemSt.canon_if | apply Hub.canon_foldl | apply State.canon_foldl | apply MemSt.canon_foldl | apply State.canon_foldl_fst | (simp only [State.canon_mk, Hub.canon_mk, MemSt.canon_mk]) | apply And.intro | split)
theorem State.tevRise_canon (s : State) (n : Nat) (h0 : s.canon) : (State.tevRise s n).canon := by
  unfold State.tevRise
  repeat' (with_reducible first | assumption | (intro _) | apply Hub.emit_canon | apply State.canon_hub | apply State.canon_mem | apply MemSt.canon_cells | apply Hub.canon_regs | apply Hub.canon_shadow | apply Hub.canon_hostMem | apply Hub.canon_if | apply State.canon_if | apply MemSt.canon_if | (simp only [State.canon_mk, Hub.canon_mk, MemSt.canon_mk]) | apply And.intro | split)
theorem execTevRise_canon (pin : Nat) (s : State) (h0 : s.canon) : ∃ t, execTevRise pin s = .next t ∧ t.canon := by
  refine ⟨_, rfl, ?_⟩
  repeat' (with_reducible first | assumption | (intro _) | apply State.tevRise_canon | apply State.canon_hub | apply State.canon_mem | apply MemSt.canon_cells | apply Hub.canon_regs | apply Hub.canon_shadow | apply Hub.canon_hostMem | apply Hub.canon_if | apply State.canon_if | apply MemSt.canon_if | (simp only [State.canon_mk, Hub.canon_mk, MemSt.canon_mk]) | apply And.intro | split)
theorem State.tevAfterStep_canon (s : State) (h0 : s.canon) : (State.tevAfterStep s).canon := by
  unfold State.tevAfterStep
  repeat' (with_reducible first | assumption | (intro _) | apply State.tevRise_canon | apply State.canon_hub | apply State.canon_mem | apply MemSt.canon_cells | apply Hub.canon_regs | apply Hub.canon_shadow | apply Hub.canon_hostMem | apply Hub.canon_if | apply State.canon_if | apply MemSt.canon_if | apply Hub.canon_foldl | apply State.canon_foldl | apply MemSt.canon_foldl | apply State.canon_foldl_fst | (simp only [State.canon_mk, Hub.canon_mk, MemSt.canon_mk]) | apply And.intro | split)
theorem State.counterStep_canon (s : State) (neg : Bool) (h0 : s.canon) : (State.counterStep s neg).canon := by
  unfold State.counterStep
  repeat' (with_reducible first | assumption | (intro _) | apply Hub.raise_canon | apply State.tevAfterStep_canon | apply State.canon_hub | apply State.canon_mem | apply MemSt.canon_cells | apply Hub.canon_regs | apply Hub.canon_shadow | apply Hub.canon_hostMem | apply Hub.canon_if | apply State.canon_if | apply MemSt.canon_if | (simp only [State.canon_mk, Hub.canon_mk, MemSt.canon_mk]) | apply And.intro | split)
theorem State.ptpSend_canon (s : State) (port kind seq : Nat) (args : List Nat) (h0 : s.canon) : (State.ptpSend s port kind seq args).canon := by
  unfold State.ptpSend
  repeat' (with_reducible first | assumption | (intro _) | apply State.sysSend_canon | apply State.canon_hub | apply State.canon_mem | apply MemSt.canon_cells | apply Hub.canon_regs | apply Hub.canon_shadow | apply Hub.canon_hostMem | (simp only [State.canon_mk, Hub.canon_mk, MemSt.canon_mk]) | apply And.intro | split)
theorem State.ptpSlave_canon (s : State) (port : Nat) (on : Option Bool) (h0 : s.canon) : (State.ptpSlave s port on).canon := by
  unfold State.ptpSlave
  repeat' (with_reducible first | assumption | (intro _) | apply Hub.set_canon | apply State.canon_hub | apply State.canon_mem | apply MemSt.canon_cells | apply Hub.canon_regs | apply Hub.canon_shadow | apply Hub.canon_hostMem | apply Hub.canon_if | apply State.canon_if | apply MemSt.canon_if | (simp only [State.canon_mk, Hub.canon_mk, MemSt.canon_mk]) | apply And.intro | split)
theorem execPtpFrameReceive_canon (f : PtpFrame) (s : State) (h0 : s.canon) : ∃ t, execPtpFrameReceive f s = .next t ∧ t.canon := by
  refine ⟨_, rfl, ?_⟩
  repeat' (with_reducible first | assumption | (intro _) | apply Hub.emit_canon | apply Hub.err_canon | apply Hub.qpDeliver_canon | apply Hub.raiseRl_canon | apply Hub.set_canon | apply State.ptpSend_canon | apply State.ptpSlave_canon | apply State.canon_hub | apply State.canon_mem | apply MemSt.canon_cells | apply Hub.canon_regs | apply Hub.canon_shadow | apply Hub.canon_hostMem | apply Hub.canon_if | apply State.canon_if | apply MemSt.canon_if | (simp only [State.canon_mk, Hub.canon_mk, MemSt.canon_mk]) | apply And.intro | split)
theorem execOneStepSync_canon (port sec ns frac oldSec oldNs : Nat) (oldCorr : Int) (udpSum : Option Nat) (s : State) (h0 : s.canon) : ∃ t, execOneStepSync port sec ns frac oldSec oldNs oldCorr udpSum s = .next t ∧ t.canon := by
  refine ⟨_, rfl, ?_⟩
  repeat' (with_reducible first | assumption | (intro _) | apply Hub.emit_canon | apply State.canon_hub | apply State.canon_mem | apply MemSt.canon_cells | apply Hub.canon_regs | apply Hub.canon_shadow | apply Hub.canon_hostMem | apply Hub.canon_if | apply State.canon_if | apply MemSt.canon_if | (simp only [State.canon_mk, Hub.canon_mk, MemSt.canon_mk]) | apply And.intro | split)
theorem execPtpPort_canon (e : CmdEnv) (body : List Byte) (s : State) (h0 : s.canon) : ∃ t, execPtpPort e body s = .next t ∧ t.canon := by
  refine ⟨_, rfl, ?_⟩
  repeat' (with_reducible first | assumption | (intro _) | apply State.done_canon | apply State.canon_hub | apply State.canon_mem | apply MemSt.canon_cells | apply Hub.canon_regs | apply Hub.canon_shadow | apply Hub.canon_hostMem | apply Hub.canon_if | apply State.canon_if | apply MemSt.canon_if | (simp only [State.canon_mk, Hub.canon_mk, MemSt.canon_mk]) | apply And.intro | split)
theorem execPtpStats_canon (e : CmdEnv) (body : List Byte) (s : State) (h0 : s.canon) : ∃ t, execPtpStats e body s = .next t ∧ t.canon := by
  refine ⟨_, rfl, ?_⟩
  repeat' (with_reducible first | assumption | (intro _) | apply State.done_canon | apply State.canon_hub | apply State.canon_mem | apply MemSt.canon_cells | apply Hub.canon_regs | apply Hub.canon_shadow | apply Hub.canon_hostMem | apply Hub.canon_if | apply State.canon_if | apply MemSt.canon_if | (simp only [State.canon_mk, Hub.canon_mk, MemSt.canon_mk]) | apply And.intro | split)
theorem execPtpMessageTimer_canon (port kind sec ns frac : Nat) (s : State) (h0 : s.canon) : ∃ t, execPtpMessageTimer port kind sec ns frac s = .next t ∧ t.canon := by
  refine ⟨_, rfl, ?_⟩
  repeat' (with_reducible first | assumption | (intro _) | apply State.ptpSend_canon | apply State.canon_hub | apply State.canon_mem | apply MemSt.canon_cells | apply Hub.canon_regs | apply Hub.canon_shadow | apply Hub.canon_hostMem | apply Hub.canon_if | apply State.canon_if | apply MemSt.canon_if | (simp only [State.canon_mk, Hub.canon_mk, MemSt.canon_mk]) | apply And.intro | split)
theorem State.svcKey_canon (s : State) (svc k v : Nat) (h0 : s.canon) : (State.svcKey s svc k v).canon := by
  unfold State.svcKey
  repeat' (with_reducible first | assumption | (intro _) | apply State.hold_canon | apply State.canon_hub | apply State.canon_mem | apply MemSt.canon_cells | apply Hub.canon_regs | apply Hub.canon_shadow | apply Hub.canon_hostMem | apply Hub.canon_if | apply State.canon_if | apply MemSt.canon_if | (simp only [State.canon_mk, Hub.canon_mk, MemSt.canon_mk]) | apply And.intro | split)
theorem State.svcTake_canon (s : State) (svc : Nat) (l : List SvcRec) (h0 : s.canon) : (State.svcTake s svc l).canon := by
  unfold State.svcTake
  repeat' (with_reducible first | assumption | (intro _) | apply State.svcKey_canon | apply State.canon_hub | apply State.canon_mem | apply MemSt.canon_cells | apply Hub.canon_regs | apply Hub.canon_shadow | apply Hub.canon_hostMem | apply regsWf_filter | apply regsWf_kvFilter | apply memWf_filter | apply Hub.canon_foldl | apply State.canon_foldl | apply MemSt.canon_foldl | apply State.canon_foldl_fst | (simp only [State.canon_mk, Hub.canon_mk, MemSt.canon_mk]) | apply And.intro | split)
theorem State.svcLoad_canon (s : State) (l : List SvcRec) (h0 : s.canon) : (State.svcLoad s l).canon := by
  unfold State.svcLoad
  repeat' (with_reducible first | assumption | (intro _) | apply State.svcTake_canon | apply State.canon_hub | apply State.canon_mem | apply MemSt.canon_cells | apply Hub.canon_regs | apply Hub.canon_shadow | apply Hub.canon_hostMem | apply Hub.canon_if | apply State.canon_if | apply MemSt.canon_if | apply Hub.canon_foldl | apply State.canon_foldl | apply MemSt.canon_foldl | apply State.canon_foldl_fst | (simp only [State.canon_mk, Hub.canon_mk, MemSt.canon_mk]) | apply And.intro | split)
theorem State.svcStart_canon (s : State) (svc : Nat) (h0 : s.canon) : (State.svcStart s svc).canon := by
  unfold State.svcStart
  repeat' (with_reducible first | assumption | (intro _) | apply State.hold_canon | apply State.svcTake_canon | apply State.canon_hub | apply State.canon_mem | apply MemSt.canon_cells | apply Hub.canon_regs | apply Hub.canon_shadow | apply Hub.canon_hostMem | (simp only [State.canon_mk, Hub.canon_mk, MemSt.canon_mk]) | apply And.intro | split)
theorem State.discard_canon (s : State) (i : Island) (n : Nat) (h0 : s.canon) : (State.discard s i n).canon := by
  unfold State.discard
  repeat' (with_reducible first | assumption | (intro _) | apply State.canon_hub | apply State.canon_mem | apply MemSt.canon_cells | apply Hub.canon_regs | apply Hub.canon_shadow | apply Hub.canon_hostMem | (simp only [State.canon_mk, Hub.canon_mk, MemSt.canon_mk]) | apply And.intro | split)
theorem State.offer_canon (s : State) (i : Island) (bytes : Nat) (h0 : s.canon) : (State.offer s i bytes).canon := by
  unfold State.offer
  repeat' (with_reducible first | assumption | (intro _) | apply State.canon_hub | apply State.canon_mem | apply MemSt.canon_cells | apply Hub.canon_regs | apply Hub.canon_shadow | apply Hub.canon_hostMem | apply Hub.canon_if | apply State.canon_if | apply MemSt.canon_if | (simp only [State.canon_mk, Hub.canon_mk, MemSt.canon_mk]) | apply And.intro | split)
theorem State.syncDrain_canon (s : State) (h0 : s.canon) : (State.syncDrain s).canon := by
  unfold State.syncDrain
  repeat' (with_reducible first | assumption | (intro _) | apply State.canon_hub | apply State.canon_mem | apply MemSt.canon_cells | apply Hub.canon_regs | apply Hub.canon_shadow | apply Hub.canon_hostMem | (simp only [State.canon_mk, Hub.canon_mk, MemSt.canon_mk]) | apply And.intro | split)
theorem State.islandLost_canon (s : State) (i : Island) (h0 : s.canon) : (State.islandLost s i).canon := by
  unfold State.islandLost
  repeat' (with_reducible first | assumption | (intro _) | apply Hub.raise_canon | apply State.canon_hub | apply State.canon_mem | apply MemSt.canon_cells | apply Hub.canon_regs | apply Hub.canon_shadow | apply Hub.canon_hostMem | apply Hub.canon_if | apply State.canon_if | apply MemSt.canon_if | (simp only [State.canon_mk, Hub.canon_mk, MemSt.canon_mk]) | apply And.intro | split)
theorem State.islandBack_canon (s : State) (i : Island) (h0 : s.canon) : (State.islandBack s i).canon := by
  unfold State.islandBack
  repeat' (with_reducible first | assumption | (intro _) | apply State.canon_hub | apply State.canon_mem | apply MemSt.canon_cells | apply Hub.canon_regs | apply Hub.canon_shadow | apply Hub.canon_hostMem | apply regsWf_filter | apply regsWf_kvFilter | apply memWf_filter | (simp only [State.canon_mk, Hub.canon_mk, MemSt.canon_mk]) | apply And.intro | split)
theorem execIslandDown_canon (i : Island) (s : State) (h0 : s.canon) : ∃ t, execIslandDown i s = .next t ∧ t.canon := by
  refine ⟨_, rfl, ?_⟩
  repeat' (with_reducible first | assumption | (intro _) | apply State.islandLost_canon | apply State.canon_hub | apply State.canon_mem | apply MemSt.canon_cells | apply Hub.canon_regs | apply Hub.canon_shadow | apply Hub.canon_hostMem | (simp only [State.canon_mk, Hub.canon_mk, MemSt.canon_mk]) | apply And.intro | split)
theorem Hub.monitor_canon (h : Hub) (seen : Bool) (n count : Nat) (h0 : h.canon) : (Hub.monitor h seen n count).canon := by
  unfold Hub.monitor
  repeat' (with_reducible first | assumption | (intro _) | apply Hub.freeTick_canon | apply Hub.raise_canon | apply Hub.set1_canon | apply State.canon_hub | apply State.canon_mem | apply MemSt.canon_cells | apply Hub.canon_regs | apply Hub.canon_shadow | apply Hub.canon_hostMem | apply Hub.canon_if | apply State.canon_if | apply MemSt.canon_if | (simp only [State.canon_mk, Hub.canon_mk, MemSt.canon_mk]) | apply And.intro | split)
theorem Hub.monitors_canon (h : Hub) (seen : Bool) (n : Nat) (x0 : List Nat) (h0 : h.canon) : (Hub.monitors h seen n x0).canon := by
  induction x0 generalizing h seen n with
  | nil =>
    unfold Hub.monitors; try dsimp only
    repeat' (with_reducible first | assumption | (intro _) | apply Hub.monitor_canon | apply State.canon_hub | apply State.canon_mem | apply MemSt.canon_cells | apply Hub.canon_regs | apply Hub.canon_shadow | apply Hub.canon_hostMem | (simp only [State.canon_mk, Hub.canon_mk, MemSt.canon_mk]) | apply And.intro | split)
  | cons a l ih =>
    unfold Hub.monitors; try dsimp only
    repeat' (with_reducible first | assumption | (intro _) | apply ih | apply Hub.monitor_canon | apply State.canon_hub | apply State.canon_mem | apply MemSt.canon_cells | apply Hub.canon_regs | apply Hub.canon_shadow | apply Hub.canon_hostMem | (simp only [State.canon_mk, Hub.canon_mk, MemSt.canon_mk]) | apply And.intro | split)
theorem Hub.paceSum_canon (h : Hub) (v : List (Nat × Nat)) (h0 : h.canon) : (Hub.paceSum h v).canon := by
  unfold Hub.paceSum
  repeat' (with_reducible first | assumption | (intro _) | apply Hub.freeTick_canon | apply Hub.set_canon | apply State.canon_hub | apply State.canon_mem | apply MemSt.canon_cells | apply Hub.canon_regs | apply Hub.canon_shadow | apply Hub.canon_hostMem | (simp only [State.canon_mk, Hub.canon_mk, MemSt.canon_mk]) | apply And.intro | split)
theorem Hub.emergHold_canon (h : Hub) (l : List Nat) (h0 : h.canon) : (Hub.emergHold h l).canon := by
  unfold Hub.emergHold
  repeat' (with_reducible first | assumption | (intro _) | apply Hub.set1_canon | apply State.canon_hub | apply State.canon_mem | apply MemSt.canon_cells | apply Hub.canon_regs | apply Hub.canon_shadow | apply Hub.canon_hostMem | apply Hub.canon_foldl | apply State.canon_foldl | apply MemSt.canon_foldl | apply State.canon_foldl_fst | (simp only [State.canon_mk, Hub.canon_mk, MemSt.canon_mk]) | apply And.intro | split)
theorem State.emergRaise_canon (s : State) (h0 : s.canon) : (State.emergRaise s).canon := by
  unfold State.emergRaise
  repeat' (with_reducible first | assumption | (intro _) | apply Hub.emergHold_canon | apply Hub.raise_canon | apply Hub.set_canon | apply State.canon_hub | apply State.canon_mem | apply MemSt.canon_cells | apply Hub.canon_regs | apply Hub.canon_shadow | apply Hub.canon_hostMem | (simp only [State.canon_mk, Hub.canon_mk, MemSt.canon_mk]) | apply And.intro | split)
theorem State.emergClear_canon (s : State) (h0 : s.canon) : (State.emergClear s).canon := by
  unfold State.emergClear
  repeat' (with_reducible first | assumption | (intro _) | apply Hub.raise_canon | apply Hub.set_canon | apply State.canon_hub | apply State.canon_mem | apply MemSt.canon_cells | apply Hub.canon_regs | apply Hub.canon_shadow | apply Hub.canon_hostMem | (simp only [State.canon_mk, Hub.canon_mk, MemSt.canon_mk]) | apply And.intro | split)
theorem State.emergTest_canon (s : State) (h0 : s.canon) : (State.emergTest s).canon := by
  unfold State.emergTest
  repeat' (with_reducible first | assumption | (intro _) | apply State.emergClear_canon | apply State.emergRaise_canon | apply State.canon_hub | apply State.canon_mem | apply MemSt.canon_cells | apply Hub.canon_regs | apply Hub.canon_shadow | apply Hub.canon_hostMem | apply Hub.canon_if | apply State.canon_if | apply MemSt.canon_if | (simp only [State.canon_mk, Hub.canon_mk, MemSt.canon_mk]) | apply And.intro | split)
theorem State.paceWindow_canon (s : State) (counts : List Nat) (h0 : s.canon) : (State.paceWindow s counts).canon := by
  unfold State.paceWindow
  repeat' (with_reducible first | assumption | (intro _) | apply Hub.monitors_canon | apply Hub.paceSum_canon | apply State.canon_hub | apply State.canon_mem | apply MemSt.canon_cells | apply Hub.canon_regs | apply Hub.canon_shadow | apply Hub.canon_hostMem | (simp only [State.canon_mk, Hub.canon_mk, MemSt.canon_mk]) | apply And.intro | split)
theorem execPaceWindowEnd_canon (counts : List Nat) (s : State) (h0 : s.canon) : ∃ t, execPaceWindowEnd counts s = .next t ∧ t.canon := by
  refine ⟨_, rfl, ?_⟩
  repeat' (with_reducible first | assumption | (intro _) | apply State.emergTest_canon | apply State.paceWindow_canon | apply State.canon_hub | apply State.canon_mem | apply MemSt.canon_cells | apply Hub.canon_regs | apply Hub.canon_shadow | apply Hub.canon_hostMem | (simp only [State.canon_mk, Hub.canon_mk, MemSt.canon_mk]) | apply And.intro | split)
theorem Hub.setVdd_canon (h : Hub) (mv : Nat) (h0 : h.canon) : (Hub.setVdd h mv).canon := by
  unfold Hub.setVdd
  repeat' (with_reducible first | assumption | (intro _) | apply Hub.emit_canon | apply Hub.set_canon | apply State.canon_hub | apply State.canon_mem | apply MemSt.canon_cells | apply Hub.canon_regs | apply Hub.canon_shadow | apply Hub.canon_hostMem | (simp only [State.canon_mk, Hub.canon_mk, MemSt.canon_mk]) | apply And.intro | split)
theorem Hub.loopEnter_canon (h : Hub) (st : Nat) (code : Option Nat) (h0 : h.canon) : (Hub.loopEnter h st code).canon := by
  unfold Hub.loopEnter
  repeat' (with_reducible first | assumption | (intro _) | apply Hub.raise_canon | apply Hub.set_canon | apply State.canon_hub | apply State.canon_mem | apply MemSt.canon_cells | apply Hub.canon_regs | apply Hub.canon_shadow | apply Hub.canon_hostMem | apply Hub.canon_if | apply State.canon_if | apply MemSt.canon_if | (simp only [State.canon_mk, Hub.canon_mk, MemSt.canon_mk]) | apply And.intro | split)
theorem State.supplyEval_canon (s : State) (ma : Nat) (h0 : s.canon) : (State.supplyEval s ma).canon := by
  unfold State.supplyEval
  repeat' (with_reducible first | assumption | (intro _) | apply Hub.loopEnter_canon | apply Hub.setVdd_canon | apply State.canon_hub | apply State.canon_mem | apply MemSt.canon_cells | apply Hub.canon_regs | apply Hub.canon_shadow | apply Hub.canon_hostMem | apply Hub.canon_if | apply State.canon_if | apply MemSt.canon_if | (simp only [State.canon_mk, Hub.canon_mk, MemSt.canon_mk]) | apply And.intro | split)
theorem State.present_canon (s : State) (kind hw : Nat) (reqs : List ArbReq) (h0 : s.canon) : (State.present s kind hw reqs).canon := by
  unfold State.present
  repeat' (with_reducible first | assumption | (intro _) | apply State.canon_hub | apply State.canon_mem | apply MemSt.canon_cells | apply Hub.canon_regs | apply Hub.canon_shadow | apply Hub.canon_hostMem | (simp only [State.canon_mk, Hub.canon_mk, MemSt.canon_mk]) | apply And.intro | split)
theorem State.arbiterGrant_canon (s : State) (kind hw : Nat) (h0 : s.canon) : (State.arbiterGrant s kind hw).canon := by
  unfold State.arbiterGrant
  repeat' (with_reducible first | assumption | (intro _) | apply Hub.emergHold_canon | apply Hub.emit_canon | apply State.canon_hub | apply State.canon_mem | apply MemSt.canon_cells | apply Hub.canon_regs | apply Hub.canon_shadow | apply Hub.canon_hostMem | apply regsWf_filter | apply regsWf_kvFilter | apply memWf_filter | apply Hub.canon_if | apply State.canon_if | apply MemSt.canon_if | (simp only [State.canon_mk, Hub.canon_mk, MemSt.canon_mk]) | apply And.intro | split)
theorem execArbiterGrant_canon (kind index : Nat) (reqs : List ArbReq) (s : State) (h0 : s.canon) : ∃ t, execArbiterGrant kind index reqs s = .next t ∧ t.canon := by
  refine ⟨_, rfl, ?_⟩
  repeat' (with_reducible first | assumption | (intro _) | apply State.arbiterGrant_canon | apply State.present_canon | apply State.canon_hub | apply State.canon_mem | apply MemSt.canon_cells | apply Hub.canon_regs | apply Hub.canon_shadow | apply Hub.canon_hostMem | apply Hub.canon_if | apply State.canon_if | apply MemSt.canon_if | (simp only [State.canon_mk, Hub.canon_mk, MemSt.canon_mk]) | apply And.intro | split)
theorem Hub.sashEnter_canon (h : Hub) (n st blocker : Nat) (h0 : h.canon) : (Hub.sashEnter h n st blocker).canon := by
  unfold Hub.sashEnter
  repeat' (with_reducible first | assumption | (intro _) | apply Hub.raise_canon | apply Hub.set1_canon | apply State.canon_hub | apply State.canon_mem | apply MemSt.canon_cells | apply Hub.canon_regs | apply Hub.canon_shadow | apply Hub.canon_hostMem | (simp only [State.canon_mk, Hub.canon_mk, MemSt.canon_mk]) | apply And.intro | split)
theorem State.unstall_canon (s : State) (h0 : s.canon) : (State.unstall s).canon := by
  unfold State.unstall
  repeat' (with_reducible first | assumption | (intro _) | apply Hub.sashEnter_canon | apply State.canon_hub | apply State.canon_mem | apply MemSt.canon_cells | apply Hub.canon_regs | apply Hub.canon_shadow | apply Hub.canon_hostMem | apply Hub.canon_if | apply State.canon_if | apply MemSt.canon_if | apply Hub.canon_foldl | apply State.canon_foldl | apply MemSt.canon_foldl | apply State.canon_foldl_fst | (simp only [State.canon_mk, Hub.canon_mk, MemSt.canon_mk]) | apply And.intro | split)
theorem State.markSpares_canon (s : State) (h0 : s.canon) : (State.markSpares s).canon := by
  unfold State.markSpares
  repeat' (with_reducible first | assumption | (intro _) | apply Hub.set1_canon | apply State.canon_hub | apply State.canon_mem | apply MemSt.canon_cells | apply Hub.canon_regs | apply Hub.canon_shadow | apply Hub.canon_hostMem | apply Hub.canon_if | apply State.canon_if | apply MemSt.canon_if | apply Hub.canon_foldl | apply State.canon_foldl | apply MemSt.canon_foldl | apply State.canon_foldl_fst | (simp only [State.canon_mk, Hub.canon_mk, MemSt.canon_mk]) | apply And.intro | split)
theorem Hub.serve_canon (h : Hub) (ty i k : Nat) (h0 : h.canon) : (Hub.serve h ty i k).canon := by
  unfold Hub.serve
  repeat' (with_reducible first | assumption | (intro _) | apply Hub.set2_canon | apply State.canon_hub | apply State.canon_mem | apply MemSt.canon_cells | apply Hub.canon_regs | apply Hub.canon_shadow | apply Hub.canon_hostMem | apply Hub.canon_if | apply State.canon_if | apply MemSt.canon_if | apply Hub.canon_foldl | apply State.canon_foldl | apply MemSt.canon_foldl | apply State.canon_foldl_fst | (simp only [State.canon_mk, Hub.canon_mk, MemSt.canon_mk]) | apply And.intro | split)
theorem State.takeSpare_canon (s : State) (ty i k : Nat) (h0 : s.canon) : (State.takeSpare s ty i k).canon := by
  unfold State.takeSpare
  repeat' (with_reducible first | assumption | (intro _) | apply Hub.raise_canon | apply Hub.serve_canon | apply State.canon_hub | apply State.canon_mem | apply MemSt.canon_cells | apply Hub.canon_regs | apply Hub.canon_shadow | apply Hub.canon_hostMem | (simp only [State.canon_mk, Hub.canon_mk, MemSt.canon_mk]) | apply And.intro | split)
theorem State.otpSpare_canon (s : State) (u : Nat) (h0 : s.canon) : (State.otpSpare s u).canon := by
  unfold State.otpSpare
  repeat' (with_reducible first | assumption | (intro _) | apply Hub.raise_canon | apply State.takeSpare_canon | apply State.canon_hub | apply State.canon_mem | apply MemSt.canon_cells | apply Hub.canon_regs | apply Hub.canon_shadow | apply Hub.canon_hostMem | apply Hub.canon_if | apply State.canon_if | apply MemSt.canon_if | (simp only [State.canon_mk, Hub.canon_mk, MemSt.canon_mk]) | apply And.intro | split)
theorem State.startBuild_canon (s0 : State) (ids : List Nat) (h0 : s0.canon) : (State.startBuild s0 ids).canon := by
  unfold State.startBuild
  repeat' (with_reducible first | assumption | (intro _) | apply Hub.sashEnter_canon | apply State.markSpares_canon | apply State.otpSpare_canon | apply State.canon_hub | apply State.canon_mem | apply MemSt.canon_cells | apply Hub.canon_regs | apply Hub.canon_shadow | apply Hub.canon_hostMem | apply regsWf_filter | apply regsWf_kvFilter | apply memWf_filter | apply Hub.canon_if | apply State.canon_if | apply MemSt.canon_if | apply Hub.canon_foldl | apply State.canon_foldl | apply MemSt.canon_foldl | apply State.canon_foldl_fst | (simp only [State.canon_mk, Hub.canon_mk, MemSt.canon_mk]) | apply And.intro | split)
theorem State.setLink_canon (s : State) (n : Nat) (x : JlLink) (h0 : s.canon) : (State.setLink s n x).canon := by
  unfold State.setLink
  repeat' (with_reducible first | assumption | (intro _) | apply State.canon_hub | apply State.canon_mem | apply MemSt.canon_cells | apply Hub.canon_regs | apply Hub.canon_shadow | apply Hub.canon_hostMem | (simp only [State.canon_mk, Hub.canon_mk, MemSt.canon_mk]) | apply And.intro | split)
theorem State.setLane_canon (s : State) (n : Nat) (x : LaneSt) (h0 : s.canon) : (State.setLane s n x).canon := by
  unfold State.setLane
  repeat' (with_reducible first | assumption | (intro _) | apply State.canon_hub | apply State.canon_mem | apply MemSt.canon_cells | apply Hub.canon_regs | apply Hub.canon_shadow | apply Hub.canon_hostMem | (simp only [State.canon_mk, Hub.canon_mk, MemSt.canon_mk]) | apply And.intro | split)
theorem State.flitOut_canon (s : State) (n : Nat) (h : FlitHead) (data : List Byte) (h0 : s.canon) : (State.flitOut s n h data).canon := by
  unfold State.flitOut
  repeat' (with_reducible first | assumption | (intro _) | apply Hub.emit_canon | apply State.discard_canon | apply State.sysSend_canon | apply State.canon_hub | apply State.canon_mem | apply MemSt.canon_cells | apply Hub.canon_regs | apply Hub.canon_shadow | apply Hub.canon_hostMem | apply Hub.canon_if | apply State.canon_if | apply MemSt.canon_if | (simp only [State.canon_mk, Hub.canon_mk, MemSt.canon_mk]) | apply And.intro | split)
theorem State.plainOut_canon (s : State) (n kind flags cred : Nat) (payload : List Byte) (h0 : s.canon) : (State.plainOut s n kind flags cred payload).canon := by
  unfold State.plainOut
  repeat' (with_reducible first | assumption | (intro _) | apply State.flitOut_canon | apply State.canon_hub | apply State.canon_mem | apply MemSt.canon_cells | apply Hub.canon_regs | apply Hub.canon_shadow | apply Hub.canon_hostMem | (simp only [State.canon_mk, Hub.canon_mk, MemSt.canon_mk]) | apply And.intro | split)
theorem State.jlDrop_canon (s : State) (n k : Nat) (event : Bool) (h0 : s.canon) : (State.jlDrop s n k event).canon := by
  unfold State.jlDrop
  repeat' (with_reducible first | assumption | (intro _) | apply Hub.errN_canon | apply Hub.raiseRl_canon | apply State.canon_hub | apply State.canon_mem | apply MemSt.canon_cells | apply Hub.canon_regs | apply Hub.canon_shadow | apply Hub.canon_hostMem | apply Hub.canon_if | apply State.canon_if | apply MemSt.canon_if | (simp only [State.canon_mk, Hub.canon_mk, MemSt.canon_mk]) | apply And.intro | split)
theorem State.rewait_canon (s : State) (n : Nat) (fs : List JlFlit) (h0 : s.canon) : (State.rewait s n fs).canon := by
  unfold State.rewait
  repeat' (with_reducible first | assumption | (intro _) | apply State.jlDrop_canon | apply State.setLink_canon | apply State.canon_hub | apply State.canon_mem | apply MemSt.canon_cells | apply Hub.canon_regs | apply Hub.canon_shadow | apply Hub.canon_hostMem | apply Hub.canon_foldl | apply State.canon_foldl | apply MemSt.canon_foldl | apply State.canon_foldl_fst | (simp only [State.canon_mk, Hub.canon_mk, MemSt.canon_mk]) | apply And.intro | split)
theorem State.jlEnter_canon (s : State) (n st : Nat) (h0 : s.canon) : (State.jlEnter s n st).canon := by
  unfold State.jlEnter
  repeat' (with_reducible first | assumption | (intro _) | apply Hub.errN_canon | apply Hub.raise_canon | apply Hub.set1_canon | apply State.rewait_canon | apply State.setLink_canon | apply State.canon_hub | apply State.canon_mem | apply MemSt.canon_cells | apply Hub.canon_regs | apply Hub.canon_shadow | apply Hub.canon_hostMem | apply Hub.canon_if | apply State.canon_if | apply MemSt.canon_if | (simp only [State.canon_mk, Hub.canon_mk, MemSt.canon_mk]) | apply And.intro | split)
theorem State.ethEnter_canon (s : State) (p st : Nat) (h0 : s.canon) : (State.ethEnter s p st).canon := by
  unfold State.ethEnter
  repeat' (with_reducible first | assumption | (intro _) | apply Hub.raise_canon | apply Hub.set1_canon | apply State.canon_hub | apply State.canon_mem | apply MemSt.canon_cells | apply Hub.canon_regs | apply Hub.canon_shadow | apply Hub.canon_hostMem | apply Hub.canon_if | apply State.canon_if | apply MemSt.canon_if | (simp only [State.canon_mk, Hub.canon_mk, MemSt.canon_mk]) | apply And.intro | split)
theorem State.linksFreeze_canon (s : State) (h0 : s.canon) : (State.linksFreeze s).canon := by
  unfold State.linksFreeze
  repeat' (with_reducible first | assumption | (intro _) | apply Hub.set1_canon | apply State.plainOut_canon | apply State.canon_hub | apply State.canon_mem | apply MemSt.canon_cells | apply Hub.canon_regs | apply Hub.canon_shadow | apply Hub.canon_hostMem | apply Hub.canon_if | apply State.canon_if | apply MemSt.canon_if | apply Hub.canon_foldl | apply State.canon_foldl | apply MemSt.canon_foldl | apply State.canon_foldl_fst | (simp only [State.canon_mk, Hub.canon_mk, MemSt.canon_mk]) | apply And.intro | split)
theorem State.linksResume_canon (s : State) (h0 : s.canon) : (State.linksResume s).canon := by
  unfold State.linksResume
  repeat' (with_reducible first | assumption | (intro _) | apply Hub.set1_canon | apply State.canon_hub | apply State.canon_mem | apply MemSt.canon_cells | apply Hub.canon_regs | apply Hub.canon_shadow | apply Hub.canon_hostMem | apply Hub.canon_if | apply State.canon_if | apply MemSt.canon_if | apply Hub.canon_foldl | apply State.canon_foldl | apply MemSt.canon_foldl | apply State.canon_foldl_fst | (simp only [State.canon_mk, Hub.canon_mk, MemSt.canon_mk]) | apply And.intro | split)
theorem Hub.laneSleep_canon (h : Hub) (n st : Nat) (h0 : h.canon) : (Hub.laneSleep h n st).canon := by
  unfold Hub.laneSleep
  repeat' (with_reducible first | assumption | (intro _) | apply Hub.set1_canon | apply State.canon_hub | apply State.canon_mem | apply MemSt.canon_cells | apply Hub.canon_regs | apply Hub.canon_shadow | apply Hub.canon_hostMem | (simp only [State.canon_mk, Hub.canon_mk, MemSt.canon_mk]) | apply And.intro | split)
theorem Hub.laneBegin_canon (h : Hub) (n st : Nat) (tx rx : Bool) (h0 : h.canon) : (Hub.laneBegin h n st tx rx).canon := by
  unfold Hub.laneBegin
  repeat' (with_reducible first | assumption | (intro _) | apply Hub.set1_canon | apply State.canon_hub | apply State.canon_mem | apply MemSt.canon_cells | apply Hub.canon_regs | apply Hub.canon_shadow | apply Hub.canon_hostMem | apply Hub.canon_if | apply State.canon_if | apply MemSt.canon_if | (simp only [State.canon_mk, Hub.canon_mk, MemSt.canon_mk]) | apply And.intro | split)
theorem State.laneRetired_canon (s : State) (n : Nat) (h0 : s.canon) : (State.laneRetired s n).canon := by
  unfold State.laneRetired
  repeat' (with_reducible first | assumption | (intro _) | apply Hub.laneSleep_canon | apply State.ethEnter_canon | apply State.plainOut_canon | apply State.canon_hub | apply State.canon_mem | apply MemSt.canon_cells | apply Hub.canon_regs | apply Hub.canon_shadow | apply Hub.canon_hostMem | apply Hub.canon_if | apply State.canon_if | apply MemSt.canon_if | (simp only [State.canon_mk, Hub.canon_mk, MemSt.canon_mk]) | apply And.intro | split)
theorem State.laneStart_canon (s : State) (full : Bool) (n : Nat) (h0 : s.canon) : (State.laneStart s full n).canon := by
  unfold State.laneStart
  repeat' (with_reducible first | assumption | (intro _) | apply Hub.laneBegin_canon | apply Hub.laneSleep_canon | apply State.setLane_canon | apply State.canon_hub | apply State.canon_mem | apply MemSt.canon_cells | apply Hub.canon_regs | apply Hub.canon_shadow | apply Hub.canon_hostMem | apply Hub.canon_if | apply State.canon_if | apply MemSt.canon_if | (simp only [State.canon_mk, Hub.canon_mk, MemSt.canon_mk]) | apply And.intro | split)
theorem State.portStart_canon (s : State) (p : PortRec) (h0 : s.canon) : (State.portStart s p).canon := by
  unfold State.portStart
  repeat' (with_reducible first | assumption | (intro _) | apply Hub.set1_canon | apply State.setLink_canon | apply State.canon_hub | apply State.canon_mem | apply MemSt.canon_cells | apply Hub.canon_regs | apply Hub.canon_shadow | apply Hub.canon_hostMem | apply Hub.canon_if | apply State.canon_if | apply MemSt.canon_if | (simp only [State.canon_mk, Hub.canon_mk, MemSt.canon_mk]) | apply And.intro | split)
theorem State.planStart_canon (s : State) (rs : List PortRec) (full : Bool) (h0 : s.canon) : (State.planStart s rs full).canon := by
  unfold State.planStart
  repeat' (with_reducible first | assumption | (intro _) | apply Hub.wr_canon | apply State.laneStart_canon | apply State.portStart_canon | apply State.canon_hub | apply State.canon_mem | apply MemSt.canon_cells | apply Hub.canon_regs | apply Hub.canon_shadow | apply Hub.canon_hostMem | apply Hub.canon_foldl | apply State.canon_foldl | apply MemSt.canon_foldl | apply State.canon_foldl_fst | (simp only [State.canon_mk, Hub.canon_mk, MemSt.canon_mk]) | apply And.intro | split)
theorem State.freeze_canon (s0 : State) (cause : Nat) (h0 : s0.canon) : (State.freeze s0 cause).canon := by
  unfold State.freeze
  repeat' (with_reducible first | assumption | (intro _) | apply Hub.raise_canon | apply Hub.set_canon | apply State.linksFreeze_canon | apply State.canon_hub | apply State.canon_mem | apply MemSt.canon_cells | apply Hub.canon_regs | apply Hub.canon_shadow | apply Hub.canon_hostMem | (simp only [State.canon_mk, Hub.canon_mk, MemSt.canon_mk]) | apply And.intro | split)
theorem State.shutterTrigger_canon (s : State) (cause : Nat) (h0 : s.canon) : (State.shutterTrigger s cause).canon := by
  unfold State.shutterTrigger
  repeat' (with_reducible first | assumption | (intro _) | apply Hub.set_canon | apply State.freeze_canon | apply State.canon_hub | apply State.canon_mem | apply MemSt.canon_cells | apply Hub.canon_regs | apply Hub.canon_shadow | apply Hub.canon_hostMem | apply Hub.canon_if | apply State.canon_if | apply MemSt.canon_if | (simp only [State.canon_mk, Hub.canon_mk, MemSt.canon_mk]) | apply And.intro | split)
theorem execSupplyLoopEvaluation_canon (currentMa : Nat) (s : State) (h0 : s.canon) : ∃ t, execSupplyLoopEvaluation currentMa s = .next t ∧ t.canon := by
  refine ⟨_, rfl, ?_⟩
  repeat' (with_reducible first | assumption | (intro _) | apply State.shutterTrigger_canon | apply State.supplyEval_canon | apply State.canon_hub | apply State.canon_mem | apply MemSt.canon_cells | apply Hub.canon_regs | apply Hub.canon_shadow | apply Hub.canon_hostMem | apply Hub.canon_if | apply State.canon_if | apply MemSt.canon_if | (simp only [State.canon_mk, Hub.canon_mk, MemSt.canon_mk]) | apply And.intro | split)
theorem Hub.chanSet_canon (h : Hub) (c : ChanReg) (f : Fld) (v : Nat) (h0 : h.canon) : (Hub.chanSet h c f v).canon := by
  unfold Hub.chanSet
  repeat' (with_reducible first | assumption | (intro _) | apply Hub.wr_canon | apply State.canon_hub | apply State.canon_mem | apply MemSt.canon_cells | apply Hub.canon_regs | apply Hub.canon_shadow | apply Hub.canon_hostMem | (simp only [State.canon_mk, Hub.canon_mk, MemSt.canon_mk]) | apply And.intro | split)
theorem Hub.otpRecord_canon (h : Hub) (ch cause spare : Nat) (h0 : h.canon) : (Hub.otpRecord h ch cause spare).canon := by
  unfold Hub.otpRecord
  repeat' (with_reducible first | assumption | (intro _) | apply Hub.chanSet_canon | apply Hub.raise_canon | apply Hub.set_canon | apply Hub.set1_canon | apply State.canon_hub | apply State.canon_mem | apply MemSt.canon_cells | apply Hub.canon_regs | apply Hub.canon_shadow | apply Hub.canon_hostMem | (simp only [State.canon_mk, Hub.canon_mk, MemSt.canon_mk]) | apply And.intro | split)
theorem Hub.chanRetired_canon (h : Hub) (c : ChanReg) (cause : Nat) (h0 : h.canon) : (Hub.chanRetired h c cause).canon := by
  unfold Hub.chanRetired
  repeat' (with_reducible first | assumption | (intro _) | apply Hub.chanSet_canon | apply State.canon_hub | apply State.canon_mem | apply MemSt.canon_cells | apply Hub.canon_regs | apply Hub.canon_shadow | apply Hub.canon_hostMem | (simp only [State.canon_mk, Hub.canon_mk, MemSt.canon_mk]) | apply And.intro | split)
theorem State.retirePage_canon (s : State) (ch cause : Nat) (h0 : s.canon) : (State.retirePage s ch cause).canon := by
  unfold State.retirePage
  repeat' (with_reducible first | assumption | (intro _) | apply Hub.otpRecord_canon | apply State.canon_hub | apply State.canon_mem | apply MemSt.canon_cells | apply Hub.canon_regs | apply Hub.canon_shadow | apply Hub.canon_hostMem | apply Hub.canon_if | apply State.canon_if | apply MemSt.canon_if | (simp only [State.canon_mk, Hub.canon_mk, MemSt.canon_mk]) | apply And.intro | split)
theorem Hub.svcCore_canon (h : Hub) (svc core : Nat) (on : Bool) (h0 : h.canon) : (Hub.svcCore h svc core on).canon := by
  unfold Hub.svcCore
  repeat' (with_reducible first | assumption | (intro _) | apply Hub.set1_canon | apply State.canon_hub | apply State.canon_mem | apply MemSt.canon_cells | apply Hub.canon_regs | apply Hub.canon_shadow | apply Hub.canon_hostMem | apply Hub.canon_if | apply State.canon_if | apply MemSt.canon_if | (simp only [State.canon_mk, Hub.canon_mk, MemSt.canon_mk]) | apply And.intro | split)
theorem Hub.retireLintel_canon (h : Hub) (n : Nat) (h0 : h.canon) : (Hub.retireLintel h n).canon := by
  unfold Hub.retireLintel
  repeat' (with_reducible first | assumption | (intro _) | apply Hub.postDone_canon | apply Hub.set1_canon | apply Hub.svcCore_canon | apply State.canon_hub | apply State.canon_mem | apply MemSt.canon_cells | apply Hub.canon_regs | apply Hub.canon_shadow | apply Hub.canon_hostMem | apply Hub.canon_if | apply State.canon_if | apply MemSt.canon_if | apply Hub.canon_foldl | apply State.canon_foldl | apply MemSt.canon_foldl | apply State.canon_foldl_fst | (simp only [State.canon_mk, Hub.canon_mk, MemSt.canon_mk]) | apply And.intro | split)
theorem State.portDiscard_canon (s : State) (p : Nat) (h0 : s.canon) : (State.portDiscard s p).canon := by
  unfold State.portDiscard
  repeat' (with_reducible first | assumption | (intro _) | apply Hub.errN_canon | apply State.canon_hub | apply State.canon_mem | apply MemSt.canon_cells | apply Hub.canon_regs | apply Hub.canon_shadow | apply Hub.canon_hostMem | apply regsWf_filter | apply regsWf_kvFilter | apply memWf_filter | apply Hub.canon_if | apply State.canon_if | apply MemSt.canon_if | (simp only [State.canon_mk, Hub.canon_mk, MemSt.canon_mk]) | apply And.intro | split)
theorem State.retire_canon (s : State) (ch cause : Nat) (h0 : s.canon) : (State.retire s ch cause).canon := by
  unfold State.retire
  repeat' (with_reducible first | assumption | (intro _) | apply Hub.chanRetired_canon | apply Hub.chanSet_canon | apply Hub.laneSleep_canon | apply Hub.otpRecord_canon | apply Hub.raise_canon | apply Hub.retireLintel_canon | apply State.ethEnter_canon | apply State.jlEnter_canon | apply State.laneRetired_canon | apply State.portDiscard_canon | apply State.retirePage_canon | apply State.settle_canon | apply State.svcStart_canon | apply State.canon_hub | apply State.canon_mem | apply MemSt.canon_cells | apply Hub.canon_regs | apply Hub.canon_shadow | apply Hub.canon_hostMem | apply Hub.canon_if | apply State.canon_if | apply MemSt.canon_if | apply Hub.canon_foldl | apply State.canon_foldl | apply MemSt.canon_foldl | apply State.canon_foldl_fst | (simp only [State.canon_mk, Hub.canon_mk, MemSt.canon_mk]) | apply And.intro | split)
theorem State.fifoIn_canon (s : State) (e : Nat × Option Nat) (h0 : s.canon) : (State.fifoIn s e).canon := by
  unfold State.fifoIn
  repeat' (with_reducible first | assumption | (intro _) | apply State.canon_hub | apply State.canon_mem | apply MemSt.canon_cells | apply Hub.canon_regs | apply Hub.canon_shadow | apply Hub.canon_hostMem | apply Hub.canon_if | apply State.canon_if | apply MemSt.canon_if | (simp only [State.canon_mk, Hub.canon_mk, MemSt.canon_mk]) | apply And.intro | split)
theorem State.permanent_canon (s : State) (ch cause : Nat) (h0 : s.canon) : (State.permanent s ch cause).canon := by
  unfold State.permanent
  repeat' (with_reducible first | assumption | (intro _) | apply Hub.raise_canon | apply State.fifoIn_canon | apply State.retire_canon | apply State.shutterTrigger_canon | apply State.canon_hub | apply State.canon_mem | apply MemSt.canon_cells | apply Hub.canon_regs | apply Hub.canon_shadow | apply Hub.canon_hostMem | apply Hub.canon_if | apply State.canon_if | apply MemSt.canon_if | (simp only [State.canon_mk, Hub.canon_mk, MemSt.canon_mk]) | apply And.intro | split)
theorem State.bucketAdd_canon (s : State) (ch : Nat) (h0 : s.canon) : (State.bucketAdd s ch).1.canon := by
  unfold State.bucketAdd
  repeat' (with_reducible first | assumption | (intro _) | apply Hub.chanSet_canon | apply Hub.set1_canon | apply State.canon_hub | apply State.canon_mem | apply MemSt.canon_cells | apply Hub.canon_regs | apply Hub.canon_shadow | apply Hub.canon_hostMem | apply regsWf_filter | apply regsWf_kvFilter | apply memWf_filter | apply Hub.canon_if | apply State.canon_if | apply MemSt.canon_if | (simp only [State.canon_mk, Hub.canon_mk, MemSt.canon_mk]) | apply And.intro | split)
theorem State.transient_canon (s : State) (ch : Nat) (h0 : s.canon) : (State.transient s ch).canon := by
  unfold State.transient
  repeat' (with_reducible first | assumption | (intro _) | apply Hub.raiseRl_canon | apply Hub.stat_canon | apply State.bucketAdd_canon | apply State.fifoIn_canon | apply State.permanent_canon | apply State.canon_hub | apply State.canon_mem | apply MemSt.canon_cells | apply Hub.canon_regs | apply Hub.canon_shadow | apply Hub.canon_hostMem | apply Hub.canon_if | apply State.canon_if | apply MemSt.canon_if | (simp only [State.canon_mk, Hub.canon_mk, MemSt.canon_mk]) | apply And.intro | split)
theorem State.transients_canon (s : State) (chs : List Nat) (h0 : s.canon) : (State.transients s chs).canon := by
  unfold State.transients
  repeat' (with_reducible first | assumption | (intro _) | apply State.transient_canon | apply State.canon_hub | apply State.canon_mem | apply MemSt.canon_cells | apply Hub.canon_regs | apply Hub.canon_shadow | apply Hub.canon_hostMem | apply Hub.canon_foldl | apply State.canon_foldl | apply MemSt.canon_foldl | apply State.canon_foldl_fst | (simp only [State.canon_mk, Hub.canon_mk, MemSt.canon_mk]) | apply And.intro | split)
theorem State.faultSashes_canon (s : State) (ty i : Nat) (h0 : s.canon) : (State.faultSashes s ty i).canon := by
  unfold State.faultSashes
  repeat' (with_reducible first | assumption | (intro _) | apply Hub.sashEnter_canon | apply State.canon_hub | apply State.canon_mem | apply MemSt.canon_cells | apply Hub.canon_regs | apply Hub.canon_shadow | apply Hub.canon_hostMem | apply Hub.canon_if | apply State.canon_if | apply MemSt.canon_if | apply Hub.canon_foldl | apply State.canon_foldl | apply MemSt.canon_foldl | apply State.canon_foldl_fst | (simp only [State.canon_mk, Hub.canon_mk, MemSt.canon_mk]) | apply And.intro | split)
theorem Hub.bistLast_canon (h : Hub) (result ty i : Nat) (h0 : h.canon) : (Hub.bistLast h result ty i).canon := by
  unfold Hub.bistLast
  repeat' (with_reducible first | assumption | (intro _) | apply Hub.set_canon | apply State.canon_hub | apply State.canon_mem | apply MemSt.canon_cells | apply Hub.canon_regs | apply Hub.canon_shadow | apply Hub.canon_hostMem | (simp only [State.canon_mk, Hub.canon_mk, MemSt.canon_mk]) | apply And.intro | split)
theorem State.bistOver_canon (s : State) (result ty i : Nat) (h0 : s.canon) : (State.bistOver s result ty i).canon := by
  unfold State.bistOver
  repeat' (with_reducible first | assumption | (intro _) | apply Hub.bistLast_canon | apply Hub.chanSet_canon | apply State.canon_hub | apply State.canon_mem | apply MemSt.canon_cells | apply Hub.canon_regs | apply Hub.canon_shadow | apply Hub.canon_hostMem | apply regsWf_filter | apply regsWf_kvFilter | apply memWf_filter | apply Hub.canon_if | apply State.canon_if | apply MemSt.canon_if | (simp only [State.canon_mk, Hub.canon_mk, MemSt.canon_mk]) | apply And.intro | split)
theorem State.bistAbort_canon (s : State) (ty i : Nat) (h0 : s.canon) : (State.bistAbort s ty i).canon := by
  unfold State.bistAbort
  repeat' (with_reducible first | assumption | (intro _) | apply State.bistOver_canon | apply State.canon_hub | apply State.canon_mem | apply MemSt.canon_cells | apply Hub.canon_regs | apply Hub.canon_shadow | apply Hub.canon_hostMem | (simp only [State.canon_mk, Hub.canon_mk, MemSt.canon_mk]) | apply And.intro | split)
theorem State.retireUnit_canon (s : State) (ty i cause : Nat) (h0 : s.canon) : (State.retireUnit s ty i cause).canon := by
  unfold State.retireUnit
  repeat' (with_reducible first | assumption | (intro _) | apply Hub.chanRetired_canon | apply Hub.otpRecord_canon | apply Hub.raise_canon | apply State.bistAbort_canon | apply State.done_canon | apply State.faultSashes_canon | apply State.markSpares_canon | apply State.takeSpare_canon | apply State.canon_hub | apply State.canon_mem | apply MemSt.canon_cells | apply Hub.canon_regs | apply Hub.canon_shadow | apply Hub.canon_hostMem | apply regsWf_filter | apply regsWf_kvFilter | apply memWf_filter | apply Hub.canon_if | apply State.canon_if | apply MemSt.canon_if | (simp only [State.canon_mk, Hub.canon_mk, MemSt.canon_mk]) | apply And.intro | split)
theorem State.retireIdle_canon (s : State) (ty i : Nat) (h0 : s.canon) : (State.retireIdle s ty i).canon := by
  unfold State.retireIdle
  repeat' (with_reducible first | assumption | (intro _) | apply State.retireUnit_canon | apply State.canon_hub | apply State.canon_mem | apply MemSt.canon_cells | apply Hub.canon_regs | apply Hub.canon_shadow | apply Hub.canon_hostMem | (simp only [State.canon_mk, Hub.canon_mk, MemSt.canon_mk]) | apply And.intro | split)
theorem State.bistBegin_canon (s : State) (ty i badReads : Nat) (h0 : s.canon) : (State.bistBegin s ty i badReads).canon := by
  unfold State.bistBegin
  repeat' (with_reducible first | assumption | (intro _) | apply Hub.bistLast_canon | apply Hub.chanSet_canon | apply Hub.raise_canon | apply Hub.stat_canon | apply State.bistOver_canon | apply State.markSpares_canon | apply State.permanent_canon | apply State.retireIdle_canon | apply State.takeSpare_canon | apply State.canon_hub | apply State.canon_mem | apply MemSt.canon_cells | apply Hub.canon_regs | apply Hub.canon_shadow | apply Hub.canon_hostMem | apply regsWf_filter | apply regsWf_kvFilter | apply memWf_filter | apply Hub.canon_if | apply State.canon_if | apply MemSt.canon_if | (simp only [State.canon_mk, Hub.canon_mk, MemSt.canon_mk]) | apply And.intro | split)
theorem State.bistRestart_canon (s : State) (h0 : s.canon) : (State.bistRestart s).canon := by
  unfold State.bistRestart
  repeat' (with_reducible first | assumption | (intro _) | apply State.canon_hub | apply State.canon_mem | apply MemSt.canon_cells | apply Hub.canon_regs | apply Hub.canon_shadow | apply Hub.canon_hostMem | apply regsWf_filter | apply regsWf_kvFilter | apply memWf_filter | (simp only [State.canon_mk, Hub.canon_mk, MemSt.canon_mk]) | apply And.intro | split)
theorem State.bistTurn_canon (s : State) (ty : Nat) (h0 : s.canon) : (State.bistTurn s ty).canon := by
  unfold State.bistTurn
  repeat' (with_reducible first | assumption | (intro _) | apply State.canon_hub | apply State.canon_mem | apply MemSt.canon_cells | apply Hub.canon_regs | apply Hub.canon_shadow | apply Hub.canon_hostMem | (simp only [State.canon_mk, Hub.canon_mk, MemSt.canon_mk]) | apply And.intro | split)
theorem State.bistDue_canon (s : State) (ty : Nat) (h0 : s.canon) : (State.bistDue s ty).canon := by
  unfold State.bistDue
  repeat' (with_reducible first | assumption | (intro _) | apply State.canon_hub | apply State.canon_mem | apply MemSt.canon_cells | apply Hub.canon_regs | apply Hub.canon_shadow | apply Hub.canon_hostMem | apply Hub.canon_if | apply State.canon_if | apply MemSt.canon_if | (simp only [State.canon_mk, Hub.canon_mk, MemSt.canon_mk]) | apply And.intro | split)
theorem Hub.dbProd_canon (h : Hub) (q index : Nat) (h0 : h.canon) : (Hub.dbProd h q index).canon := by
  unfold Hub.dbProd
  repeat' (with_reducible first | assumption | (intro _) | apply Hub.err_canon | apply Hub.fifoConsume_canon | apply Hub.fifoFlush_canon | apply Hub.setFifo_canon | apply State.canon_hub | apply State.canon_mem | apply MemSt.canon_cells | apply Hub.canon_regs | apply Hub.canon_shadow | apply Hub.canon_hostMem | apply Hub.canon_if | apply State.canon_if | apply MemSt.canon_if | (simp only [State.canon_mk, Hub.canon_mk, MemSt.canon_mk]) | apply And.intro | split)
theorem Hub.dbCons_canon (h : Hub) (q index : Nat) (h0 : h.canon) : (Hub.dbCons h q index).canon := by
  unfold Hub.dbCons
  repeat' (with_reducible first | assumption | (intro _) | apply Hub.setFifo_canon | apply State.canon_hub | apply State.canon_mem | apply MemSt.canon_cells | apply Hub.canon_regs | apply Hub.canon_shadow | apply Hub.canon_hostMem | apply Hub.canon_if | apply State.canon_if | apply MemSt.canon_if | (simp only [State.canon_mk, Hub.canon_mk, MemSt.canon_mk]) | apply And.intro | split)
theorem State.doorbell_canon (s : State) (fn q k index : Nat) (h0 : s.canon) : (State.doorbell s fn q k index).canon := by
  unfold State.doorbell
  repeat' (with_reducible first | assumption | (intro _) | apply Hub.dbCons_canon | apply Hub.dbProd_canon | apply State.canon_hub | apply State.canon_mem | apply MemSt.canon_cells | apply Hub.canon_regs | apply Hub.canon_shadow | apply Hub.canon_hostMem | apply Hub.canon_if | apply State.canon_if | apply MemSt.canon_if | (simp only [State.canon_mk, Hub.canon_mk, MemSt.canon_mk]) | apply And.intro | split)
theorem Hub.heldDoorbells_canon (h : Hub) (h0 : h.canon) : (Hub.heldDoorbells h).canon := by
  unfold Hub.heldDoorbells
  repeat' (with_reducible first | assumption | (intro _) | apply Hub.dbCons_canon | apply Hub.dbProd_canon | apply State.canon_hub | apply State.canon_mem | apply MemSt.canon_cells | apply Hub.canon_regs | apply Hub.canon_shadow | apply Hub.canon_hostMem | apply Hub.canon_if | apply State.canon_if | apply MemSt.canon_if | apply Hub.canon_foldl | apply State.canon_foldl | apply MemSt.canon_foldl | apply State.canon_foldl_fst | (simp only [State.canon_mk, Hub.canon_mk, MemSt.canon_mk]) | apply And.intro | split)
theorem execDbProd_canon (fn q index : Nat) (words : List Byte) (s : State) (h0 : s.canon) : ∃ t, execDbProd fn q index words s = .next t ∧ t.canon := by
  refine ⟨_, rfl, ?_⟩
  repeat' (with_reducible first | assumption | (intro _) | apply Hub.ringPut_canon | apply State.doorbell_canon | apply State.canon_hub | apply State.canon_mem | apply MemSt.canon_cells | apply Hub.canon_regs | apply Hub.canon_shadow | apply Hub.canon_hostMem | apply Hub.canon_if | apply State.canon_if | apply MemSt.canon_if | (simp only [State.canon_mk, Hub.canon_mk, MemSt.canon_mk]) | apply And.intro | split)
theorem execDbCons_canon (fn q index : Nat) (s : State) (h0 : s.canon) : ∃ t, execDbCons fn q index s = .next t ∧ t.canon := by
  refine ⟨_, rfl, ?_⟩
  repeat' (with_reducible first | assumption | (intro _) | apply State.doorbell_canon | apply State.canon_hub | apply State.canon_mem | apply MemSt.canon_cells | apply Hub.canon_regs | apply Hub.canon_shadow | apply Hub.canon_hostMem | (simp only [State.canon_mk, Hub.canon_mk, MemSt.canon_mk]) | apply And.intro | split)
theorem Hub.takeCommand_canon (h : Hub) (q : Nat) (p : List Byte) (h0 : h.canon) : (Hub.takeCommand h q p).canon := by
  unfold Hub.takeCommand
  repeat' (with_reducible first | assumption | (intro _) | apply Hub.postDone_canon | apply State.canon_hub | apply State.canon_mem | apply MemSt.canon_cells | apply Hub.canon_regs | apply Hub.canon_shadow | apply Hub.canon_hostMem | apply Hub.canon_if | apply State.canon_if | apply MemSt.canon_if | (simp only [State.canon_mk, Hub.canon_mk, MemSt.canon_mk]) | apply And.intro | split)
theorem Hub.commandNext_canon (h : Hub) (q : Nat) (next : FifoNext) (h0 : h.canon) : (Hub.commandNext h q next).1.canon := by
  unfold Hub.commandNext
  repeat' (with_reducible first | assumption | (intro _) | apply Hub.err_canon | apply Hub.errN_canon | apply Hub.fifoAdvance_canon | apply Hub.fifoBad_canon | apply Hub.fifoFlush_canon | apply Hub.takeCommand_canon | apply State.canon_hub | apply State.canon_mem | apply MemSt.canon_cells | apply Hub.canon_regs | apply Hub.canon_shadow | apply Hub.canon_hostMem | apply Hub.canon_if | apply State.canon_if | apply MemSt.canon_if | (simp only [State.canon_mk, Hub.canon_mk, MemSt.canon_mk]) | apply And.intro | split)
theorem Hub.commandTake_canon (h : Hub) (q : Nat) (x0 : Nat) (h0 : h.canon) : (Hub.commandTake h q x0).canon := by
  induction x0 generalizing h with
  | zero => exact h0
  | succ k ih =>
    rw [Hub.commandTake]
    split
    · exact ih _ (Hub.commandNext_canon _ _ _ h0)
    · exact Hub.commandNext_canon _ _ _ h0
theorem execCommandTake_canon (q : Nat) (s : State) (h0 : s.canon) : ∃ t, execCommandTake q s = .next t ∧ t.canon := by
  refine ⟨_, rfl, ?_⟩
  repeat' (with_reducible first | assumption | (intro _) | apply Hub.commandTake_canon | apply State.canon_hub | apply State.canon_mem | apply MemSt.canon_cells | apply Hub.canon_regs | apply Hub.canon_shadow | apply Hub.canon_hostMem | apply Hub.canon_if | apply State.canon_if | apply MemSt.canon_if | (simp only [State.canon_mk, Hub.canon_mk, MemSt.canon_mk]) | apply And.intro | split)
theorem Hub.qpFlush_canon (h : Hub) (q : Nat) (h0 : h.canon) : (Hub.qpFlush h q).canon := by
  unfold Hub.qpFlush
  repeat' (with_reducible first | assumption | (intro _) | apply Hub.fifoFlush_canon | apply State.canon_hub | apply State.canon_mem | apply MemSt.canon_cells | apply Hub.canon_regs | apply Hub.canon_shadow | apply Hub.canon_hostMem | (simp only [State.canon_mk, Hub.canon_mk, MemSt.canon_mk]) | apply And.intro | split)
theorem Hub.qpDisable_canon (h : Hub) (q : Nat) (h0 : h.canon) : (Hub.qpDisable h q).canon := by
  unfold Hub.qpDisable
  repeat' (with_reducible first | assumption | (intro _) | apply Hub.qpFlush_canon | apply Hub.set1_canon | apply State.canon_hub | apply State.canon_mem | apply MemSt.canon_cells | apply Hub.canon_regs | apply Hub.canon_shadow | apply Hub.canon_hostMem | (simp only [State.canon_mk, Hub.canon_mk, MemSt.canon_mk]) | apply And.intro | split)
theorem Hub.qpWrite_canon (h : Hub) (off : Nat) (val : Word) (h0 : h.canon) : (Hub.qpWrite h off val).canon := by
  unfold Hub.qpWrite
  repeat' (with_reducible first | assumption | (intro _) | apply Hub.qpFlush_canon | apply Hub.wr_canon | apply State.canon_hub | apply State.canon_mem | apply MemSt.canon_cells | apply Hub.canon_regs | apply Hub.canon_shadow | apply Hub.canon_hostMem | apply Hub.canon_if | apply State.canon_if | apply MemSt.canon_if | (simp only [State.canon_mk, Hub.canon_mk, MemSt.canon_mk]) | apply And.intro | split)
theorem execQpCfgWrite_canon (fn off : Nat) (val : Word) (s : State) (h0 : s.canon) : ∃ t, execQpCfgWrite fn off val s = .next t ∧ t.canon := by
  refine ⟨_, rfl, ?_⟩
  repeat' (with_reducible first | assumption | (intro _) | apply Hub.qpWrite_canon | apply State.canon_hub | apply State.canon_mem | apply MemSt.canon_cells | apply Hub.canon_regs | apply Hub.canon_shadow | apply Hub.canon_hostMem | apply Hub.canon_if | apply State.canon_if | apply MemSt.canon_if | (simp only [State.canon_mk, Hub.canon_mk, MemSt.canon_mk]) | apply And.intro | split)
theorem Hub.windowReset_canon (h : Hub) (v : Nat) (h0 : h.canon) : (Hub.windowReset h v).canon := by
  unfold Hub.windowReset
  repeat' (with_reducible first | assumption | (intro _) | apply State.canon_hub | apply State.canon_mem | apply MemSt.canon_cells | apply Hub.canon_regs | apply Hub.canon_shadow | apply Hub.canon_hostMem | apply regsWf_filter | apply regsWf_kvFilter | apply memWf_filter | (simp only [State.canon_mk, Hub.canon_mk, MemSt.canon_mk]) | apply And.intro | split)
theorem execVfFlr_canon (vf : Nat) (s : State) (h0 : s.canon) : ∃ t, execVfFlr vf s = .next t ∧ t.canon := by
  refine ⟨_, rfl, ?_⟩
  repeat' (with_reducible first | assumption | (intro _) | apply Hub.qpDisable_canon | apply Hub.raise_canon | apply Hub.windowReset_canon | apply State.canon_hub | apply State.canon_mem | apply MemSt.canon_cells | apply Hub.canon_regs | apply Hub.canon_shadow | apply Hub.canon_hostMem | apply Hub.canon_if | apply State.canon_if | apply MemSt.canon_if | apply Hub.canon_foldl | apply State.canon_foldl | apply MemSt.canon_foldl | apply State.canon_foldl_fst | (simp only [State.canon_mk, Hub.canon_mk, MemSt.canon_mk]) | apply And.intro | split)
theorem execPcieLinkDown_canon (s : State) (h0 : s.canon) : ∃ t, execPcieLinkDown s = .next t ∧ t.canon := by
  refine ⟨_, rfl, ?_⟩
  repeat' (with_reducible first | assumption | (intro _) | apply Hub.qpDisable_canon | apply Hub.set_canon | apply State.islandLost_canon | apply State.canon_hub | apply State.canon_mem | apply MemSt.canon_cells | apply Hub.canon_regs | apply Hub.canon_shadow | apply Hub.canon_hostMem | apply Hub.canon_if | apply State.canon_if | apply MemSt.canon_if | apply Hub.canon_foldl | apply State.canon_foldl | apply MemSt.canon_foldl | apply State.canon_foldl_fst | (simp only [State.canon_mk, Hub.canon_mk, MemSt.canon_mk]) | apply And.intro | split)
theorem execPcieLinkUp_canon (gen width mps vfs : Nat) (s : State) (h0 : s.canon) : ∃ t, execPcieLinkUp gen width mps vfs s = .next t ∧ t.canon := by
  refine ⟨_, rfl, ?_⟩
  repeat' (with_reducible first | assumption | (intro _) | apply Hub.raise_canon | apply Hub.set_canon | apply State.islandBack_canon | apply State.canon_hub | apply State.canon_mem | apply MemSt.canon_cells | apply Hub.canon_regs | apply Hub.canon_shadow | apply Hub.canon_hostMem | apply Hub.canon_if | apply State.canon_if | apply MemSt.canon_if | (simp only [State.canon_mk, Hub.canon_mk, MemSt.canon_mk]) | apply And.intro | split)
theorem MemSt.store_canon (m : MemSt) (w d syn : Nat) (h0 : m.canon) : (MemSt.store m w d syn).canon := by
  unfold MemSt.store
  repeat' (with_reducible first | assumption | (intro _) | apply State.canon_hub | apply State.canon_mem | apply MemSt.canon_cells | apply Hub.canon_regs | apply Hub.canon_shadow | apply Hub.canon_hostMem | apply memWf_memWriteList | (simp only [State.canon_mk, Hub.canon_mk, MemSt.canon_mk]) | apply And.intro | split)
theorem MemSt.write_canon (m : MemSt) (w d : Nat) (h0 : m.canon) : (MemSt.write m w d).canon := by
  unfold MemSt.write
  repeat' (with_reducible first | assumption | (intro _) | apply MemSt.store_canon | apply State.canon_hub | apply State.canon_mem | apply MemSt.canon_cells | apply Hub.canon_regs | apply Hub.canon_shadow | apply Hub.canon_hostMem | (simp only [State.canon_mk, Hub.canon_mk, MemSt.canon_mk]) | apply And.intro | split)
theorem MemSt.poison_canon (m : MemSt) (w : Nat) (h0 : m.canon) : (MemSt.poison m w).canon := by
  unfold MemSt.poison
  repeat' (with_reducible first | assumption | (intro _) | apply MemSt.store_canon | apply State.canon_hub | apply State.canon_mem | apply MemSt.canon_cells | apply Hub.canon_regs | apply Hub.canon_shadow | apply Hub.canon_hostMem | (simp only [State.canon_mk, Hub.canon_mk, MemSt.canon_mk]) | apply And.intro | split)
theorem MemSt.err_canon (m : MemSt) (e : CellErr) (h0 : m.canon) : (MemSt.err m e).canon := by
  unfold MemSt.err
  repeat' (with_reducible first | assumption | (intro _) | apply State.canon_hub | apply State.canon_mem | apply MemSt.canon_cells | apply Hub.canon_regs | apply Hub.canon_shadow | apply Hub.canon_hostMem | apply memWf_memWriteList | (simp only [State.canon_mk, Hub.canon_mk, MemSt.canon_mk]) | apply And.intro | split)
theorem MemSt.fixWord_canon (m : MemSt) (w : Nat) (h0 : m.canon) : (MemSt.fixWord m w).canon := by
  unfold MemSt.fixWord
  repeat' (with_reducible first | assumption | (intro _) | apply State.canon_hub | apply State.canon_mem | apply MemSt.canon_cells | apply Hub.canon_regs | apply Hub.canon_shadow | apply Hub.canon_hostMem | apply memWf_memWriteList | apply Hub.canon_if | apply State.canon_if | apply MemSt.canon_if | (simp only [State.canon_mk, Hub.canon_mk, MemSt.canon_mk]) | apply And.intro | split)
theorem MemSt.failPage_canon (m : MemSt) (page : Nat) (h0 : m.canon) : (MemSt.failPage m page).canon := by
  unfold MemSt.failPage
  repeat' (with_reducible first | assumption | (intro _) | apply MemSt.poison_canon | apply State.canon_hub | apply State.canon_mem | apply MemSt.canon_cells | apply Hub.canon_regs | apply Hub.canon_shadow | apply Hub.canon_hostMem | apply regsWf_filter | apply regsWf_kvFilter | apply memWf_filter | apply Hub.canon_foldl | apply State.canon_foldl | apply MemSt.canon_foldl | apply State.canon_foldl_fst | (simp only [State.canon_mk, Hub.canon_mk, MemSt.canon_mk]) | apply And.intro | split)
theorem Hub.memLogPut_canon (h : Hub) (rec : List Byte) (h0 : h.canon) : (Hub.memLogPut h rec).canon := by
  unfold Hub.memLogPut
  repeat' (with_reducible first | assumption | (intro _) | apply Hub.set_canon | apply Hub.set2_canon | apply State.canon_hub | apply State.canon_mem | apply MemSt.canon_cells | apply Hub.canon_regs | apply Hub.canon_shadow | apply Hub.canon_hostMem | apply Hub.canon_foldl | apply State.canon_foldl | apply MemSt.canon_foldl | apply State.canon_foldl_fst | (simp only [State.canon_mk, Hub.canon_mk, MemSt.canon_mk]) | apply And.intro | split)
theorem State.memLog_canon (s : State) (ev : Ev) (h0 : s.canon) : (State.memLog s ev).canon := by
  unfold State.memLog
  repeat' (with_reducible first | assumption | (intro _) | apply Hub.err_canon | apply Hub.memLogPut_canon | apply MemSt.err_canon | apply State.canon_hub | apply State.canon_mem | apply MemSt.canon_cells | apply Hub.canon_regs | apply Hub.canon_shadow | apply Hub.canon_hostMem | apply Hub.canon_if | apply State.canon_if | apply MemSt.canon_if | (simp only [State.canon_mk, Hub.canon_mk, MemSt.canon_mk]) | apply And.intro | split)
theorem State.wordsRewritten_canon (s : State) (page sash : Nat) (words : List Nat) (h0 : s.canon) : (State.wordsRewritten s page sash words).canon := by
  unfold State.wordsRewritten
  repeat' (with_reducible first | assumption | (intro _) | apply State.canon_hub | apply State.canon_mem | apply MemSt.canon_cells | apply Hub.canon_regs | apply Hub.canon_shadow | apply Hub.canon_hostMem | apply Hub.canon_if | apply State.canon_if | apply MemSt.canon_if | apply Hub.canon_foldl | apply State.canon_foldl | apply MemSt.canon_foldl | apply State.canon_foldl_fst | (simp only [State.canon_mk, Hub.canon_mk, MemSt.canon_mk]) | apply And.intro | split)
theorem State.pageDecode_canon (s0 : State) (page : Nat) (scrub : Bool) (h0 : s0.canon) : (State.pageDecode s0 page scrub).canon := by
  unfold State.pageDecode
  repeat' (with_reducible first | assumption | (intro _) | apply Hub.err_canon | apply Hub.errN_canon | apply Hub.freeTick_canon | apply Hub.raiseRl_canon | apply MemSt.err_canon | apply MemSt.failPage_canon | apply MemSt.fixWord_canon | apply State.memLog_canon | apply State.transient_canon | apply State.wordsRewritten_canon | apply State.canon_hub | apply State.canon_mem | apply MemSt.canon_cells | apply Hub.canon_regs | apply Hub.canon_shadow | apply Hub.canon_hostMem | apply Hub.canon_if | apply State.canon_if | apply MemSt.canon_if | apply Hub.canon_foldl | apply State.canon_foldl | apply MemSt.canon_foldl | apply State.canon_foldl_fst | (simp only [State.canon_mk, Hub.canon_mk, MemSt.canon_mk]) | apply And.intro | split)
theorem Hub.countCe_canon (h : Hub) (ch : Nat) (h0 : h.canon) : (Hub.countCe h ch).canon := by
  unfold Hub.countCe
  repeat' (with_reducible first | assumption | (intro _) | apply Hub.raiseRl_canon | apply Hub.stat_canon | apply State.canon_hub | apply State.canon_mem | apply MemSt.canon_cells | apply Hub.canon_regs | apply Hub.canon_shadow | apply Hub.canon_hostMem | (simp only [State.canon_mk, Hub.canon_mk, MemSt.canon_mk]) | apply And.intro | split)
theorem State.cellsLost_canon (s : State) (cells : List Nat) (h0 : s.canon) : (State.cellsLost s cells).canon := by
  unfold State.cellsLost
  repeat' (with_reducible first | assumption | (intro _) | apply State.discard_canon | apply State.canon_hub | apply State.canon_mem | apply MemSt.canon_cells | apply Hub.canon_regs | apply Hub.canon_shadow | apply Hub.canon_hostMem | apply regsWf_filter | apply regsWf_kvFilter | apply memWf_filter | apply Hub.canon_foldl | apply State.canon_foldl | apply MemSt.canon_foldl | apply State.canon_foldl_fst | (simp only [State.canon_mk, Hub.canon_mk, MemSt.canon_mk]) | apply And.intro | split)
theorem State.hbmTake_canon (s : State) (stack sash n : Nat) (h0 : s.canon) : (State.hbmTake s stack sash n).canon := by
  unfold State.hbmTake
  repeat' (with_reducible first | assumption | (intro _) | apply State.canon_hub | apply State.canon_mem | apply MemSt.canon_cells | apply Hub.canon_regs | apply Hub.canon_shadow | apply Hub.canon_hostMem | apply Hub.canon_foldl | apply State.canon_foldl | apply MemSt.canon_foldl | apply State.canon_foldl_fst | (simp only [State.canon_mk, Hub.canon_mk, MemSt.canon_mk]) | apply And.intro | split)
theorem State.mergeRead_canon (s : State) (w : Nat) (h0 : s.canon) : (State.mergeRead s w).canon := by
  unfold State.mergeRead
  repeat' (with_reducible first | assumption | (intro _) | apply Hub.countCe_canon | apply State.pageDecode_canon | apply State.canon_hub | apply State.canon_mem | apply MemSt.canon_cells | apply Hub.canon_regs | apply Hub.canon_shadow | apply Hub.canon_hostMem | (simp only [State.canon_mk, Hub.canon_mk, MemSt.canon_mk]) | apply And.intro | split)
theorem State.mergeFlush_canon (s0 : State) (e : MergeEntry) (h0 : s0.canon) : (State.mergeFlush s0 e).canon := by
  unfold State.mergeFlush
  repeat' (with_reducible first | assumption | (intro _) | apply Hub.err_canon | apply Hub.raise_canon | apply MemSt.err_canon | apply MemSt.poison_canon | apply MemSt.write_canon | apply State.mergeRead_canon | apply State.canon_hub | apply State.canon_mem | apply MemSt.canon_cells | apply Hub.canon_regs | apply Hub.canon_shadow | apply Hub.canon_hostMem | apply Hub.canon_if | apply State.canon_if | apply MemSt.canon_if | (simp only [State.canon_mk, Hub.canon_mk, MemSt.canon_mk]) | apply And.intro | split)
theorem State.mergeFlushWhere_canon (s : State) (g : Nat) (p : MergeEntry → Bool) (h0 : s.canon) : (State.mergeFlushWhere s g p).canon := by
  unfold State.mergeFlushWhere
  repeat' (with_reducible first | assumption | (intro _) | apply State.mergeFlush_canon | apply State.canon_hub | apply State.canon_mem | apply MemSt.canon_cells | apply Hub.canon_regs | apply Hub.canon_shadow | apply Hub.canon_hostMem | apply regsWf_filter | apply regsWf_kvFilter | apply memWf_filter | apply Hub.canon_if | apply State.canon_if | apply MemSt.canon_if | apply Hub.canon_foldl | apply State.canon_foldl | apply MemSt.canon_foldl | apply State.canon_foldl_fst | (simp only [State.canon_mk, Hub.canon_mk, MemSt.canon_mk]) | apply And.intro | split)
theorem State.mergeFlushAll_canon (s : State) (h0 : s.canon) : (State.mergeFlushAll s).canon := by
  unfold State.mergeFlushAll
  repeat' (with_reducible first | assumption | (intro _) | apply State.mergeFlushWhere_canon | apply State.canon_hub | apply State.canon_mem | apply MemSt.canon_cells | apply Hub.canon_regs | apply Hub.canon_shadow | apply Hub.canon_hostMem | apply Hub.canon_foldl | apply State.canon_foldl | apply MemSt.canon_foldl | apply State.canon_foldl_fst | (simp only [State.canon_mk, Hub.canon_mk, MemSt.canon_mk]) | apply And.intro | split)
theorem State.mergePut_canon (s : State) (c : Nat) (b : Byte) (h0 : s.canon) : (State.mergePut s c b).canon := by
  unfold State.mergePut
  repeat' (with_reducible first | assumption | (intro _) | apply State.mergeFlushWhere_canon | apply State.canon_hub | apply State.canon_mem | apply MemSt.canon_cells | apply Hub.canon_regs | apply Hub.canon_shadow | apply Hub.canon_hostMem | apply Hub.canon_if | apply State.canon_if | apply MemSt.canon_if | (simp only [State.canon_mk, Hub.canon_mk, MemSt.canon_mk]) | apply And.intro | split)
theorem MemSt.putByte_canon (m : MemSt) (c : Nat) (b : Byte) (h0 : m.canon) : (MemSt.putByte m c b).canon := by
  unfold MemSt.putByte
  repeat' (with_reducible first | assumption | (intro _) | apply MemSt.poison_canon | apply MemSt.write_canon | apply State.canon_hub | apply State.canon_mem | apply MemSt.canon_cells | apply Hub.canon_regs | apply Hub.canon_shadow | apply Hub.canon_hostMem | (simp only [State.canon_mk, Hub.canon_mk, MemSt.canon_mk]) | apply And.intro | split)
theorem State.cellPut_canon (s : State) (c : Nat) (b : Byte) (h0 : s.canon) : (State.cellPut s c b).canon := by
  unfold State.cellPut
  repeat' (with_reducible first | assumption | (intro _) | apply MemSt.putByte_canon | apply State.mergePut_canon | apply State.mergeRead_canon | apply State.canon_hub | apply State.canon_mem | apply MemSt.canon_cells | apply Hub.canon_regs | apply Hub.canon_shadow | apply Hub.canon_hostMem | apply Hub.canon_if | apply State.canon_if | apply MemSt.canon_if | (simp only [State.canon_mk, Hub.canon_mk, MemSt.canon_mk]) | apply And.intro | split)
theorem State.wordPut_canon (s : State) (c d : Nat) (h0 : s.canon) : (State.wordPut s c d).canon := by
  unfold State.wordPut
  repeat' (with_reducible first | assumption | (intro _) | apply MemSt.write_canon | apply State.canon_hub | apply State.canon_mem | apply MemSt.canon_cells | apply Hub.canon_regs | apply Hub.canon_shadow | apply Hub.canon_hostMem | apply Hub.canon_if | apply State.canon_if | apply MemSt.canon_if | (simp only [State.canon_mk, Hub.canon_mk, MemSt.canon_mk]) | apply And.intro | split)
theorem State.partPut_canon (s : State) (p : PartRec) (off : Nat) (x0 : List Byte) (h0 : s.canon) : (State.partPut s p off x0).canon := by
  fun_induction State.partPut s p off x0
  all_goals (try rename_i ih)
  all_goals (first | assumption | (apply ih; repeat' (with_reducible first | assumption | (intro _) | apply State.cellPut_canon | apply State.wordPut_canon | apply State.canon_hub | apply State.canon_mem | apply MemSt.canon_cells | apply Hub.canon_regs | apply Hub.canon_shadow | apply Hub.canon_hostMem | apply Hub.canon_if | apply State.canon_if | apply MemSt.canon_if | (simp only [State.canon_mk, Hub.canon_mk, MemSt.canon_mk]) | apply And.intro | split)) | repeat' (with_reducible first | assumption | (intro _) | apply State.cellPut_canon | apply State.wordPut_canon | apply State.canon_hub | apply State.canon_mem | apply MemSt.canon_cells | apply Hub.canon_regs | apply Hub.canon_shadow | apply Hub.canon_hostMem | apply Hub.canon_if | apply State.canon_if | apply MemSt.canon_if | (simp only [State.canon_mk, Hub.canon_mk, MemSt.canon_mk]) | apply And.intro | split))
theorem State.partWrite_canon (s : State) (p : PartRec) (off : Nat) (l : List Byte) (h0 : s.canon) : (State.partWrite s p off l).canon := by
  unfold State.partWrite
  repeat' (with_reducible first | assumption | (intro _) | apply State.cellsLost_canon | apply State.partPut_canon | apply State.canon_hub | apply State.canon_mem | apply MemSt.canon_cells | apply Hub.canon_regs | apply Hub.canon_shadow | apply Hub.canon_hostMem | apply regsWf_filter | apply regsWf_kvFilter | apply memWf_filter | apply Hub.canon_if | apply State.canon_if | apply MemSt.canon_if | (simp only [State.canon_mk, Hub.canon_mk, MemSt.canon_mk]) | apply And.intro | split)
theorem State.partPoison_canon (s : State) (p : PartRec) (off : Nat) (x0 : Nat) (h0 : s.canon) : (State.partPoison s p off x0).canon := by
  induction x0 generalizing s p off with
  | zero =>
    unfold State.partPoison; try dsimp only
    repeat' (with_reducible first | assumption | (intro _) | apply MemSt.poison_canon | apply State.canon_hub | apply State.canon_mem | apply MemSt.canon_cells | apply Hub.canon_regs | apply Hub.canon_shadow | apply Hub.canon_hostMem | apply Hub.canon_if | apply State.canon_if | apply MemSt.canon_if | (simp only [State.canon_mk, Hub.canon_mk, MemSt.canon_mk]) | apply And.intro | split)
  | succ n ih =>
    unfold State.partPoison; try dsimp only
    repeat' (with_reducible first | assumption | (intro _) | apply ih | apply MemSt.poison_canon | apply State.canon_hub | apply State.canon_mem | apply MemSt.canon_cells | apply Hub.canon_regs | apply Hub.canon_shadow | apply Hub.canon_hostMem | apply Hub.canon_if | apply State.canon_if | apply MemSt.canon_if | (simp only [State.canon_mk, Hub.canon_mk, MemSt.canon_mk]) | apply And.intro | split)
theorem State.bar2Complete_canon (s : State) (fn off n : Nat) (h0 : s.canon) : (State.bar2Complete s fn off n).canon := by
  unfold State.bar2Complete
  repeat' (with_reducible first | assumption | (intro _) | apply Hub.emit_canon | apply State.canon_hub | apply State.canon_mem | apply MemSt.canon_cells | apply Hub.canon_regs | apply Hub.canon_shadow | apply Hub.canon_hostMem | (simp only [State.canon_mk, Hub.canon_mk, MemSt.canon_mk]) | apply And.intro | split)
theorem State.bar2Read_canon (s : State) (fn off n : Nat) (h0 : s.canon) : (State.bar2Read s fn off n).canon := by
  unfold State.bar2Read
  repeat' (with_reducible first | assumption | (intro _) | apply Hub.countCe_canon | apply State.bar2Complete_canon | apply State.canon_hub | apply State.canon_mem | apply MemSt.canon_cells | apply Hub.canon_regs | apply Hub.canon_shadow | apply Hub.canon_hostMem | apply regsWf_filter | apply regsWf_kvFilter | apply memWf_filter | apply Hub.canon_if | apply State.canon_if | apply MemSt.canon_if | apply Hub.canon_foldl | apply State.canon_foldl | apply MemSt.canon_foldl | apply State.canon_foldl_fst | (simp only [State.canon_mk, Hub.canon_mk, MemSt.canon_mk]) | apply And.intro | split)
theorem execBar2Read_canon (fn off n : Nat) (s : State) (h0 : s.canon) : ∃ t, execBar2Read fn off n s = .next t ∧ t.canon := by
  refine ⟨_, rfl, ?_⟩
  repeat' (with_reducible first | assumption | (intro _) | apply Hub.emit_canon | apply State.bar2Read_canon | apply State.canon_hub | apply State.canon_mem | apply MemSt.canon_cells | apply Hub.canon_regs | apply Hub.canon_shadow | apply Hub.canon_hostMem | (simp only [State.canon_mk, Hub.canon_mk, MemSt.canon_mk]) | apply And.intro | split)
theorem State.bar2Resume_canon (s : State) (h0 : s.canon) : (State.bar2Resume s).canon := by
  unfold State.bar2Resume
  repeat' (with_reducible first | assumption | (intro _) | apply State.bar2Read_canon | apply State.canon_hub | apply State.canon_mem | apply MemSt.canon_cells | apply Hub.canon_regs | apply Hub.canon_shadow | apply Hub.canon_hostMem | apply regsWf_filter | apply regsWf_kvFilter | apply memWf_filter | apply Hub.canon_foldl | apply State.canon_foldl | apply MemSt.canon_foldl | apply State.canon_foldl_fst | (simp only [State.canon_mk, Hub.canon_mk, MemSt.canon_mk]) | apply And.intro | split)
theorem execIslandReturn_canon (i : Island) (s : State) (h0 : s.canon) : ∃ t, execIslandReturn i s = .next t ∧ t.canon := by
  refine ⟨_, rfl, ?_⟩
  repeat' (with_reducible first | assumption | (intro _) | apply State.bar2Resume_canon | apply State.islandBack_canon | apply State.canon_hub | apply State.canon_mem | apply MemSt.canon_cells | apply Hub.canon_regs | apply Hub.canon_shadow | apply Hub.canon_hostMem | (simp only [State.canon_mk, Hub.canon_mk, MemSt.canon_mk]) | apply And.intro | split)
theorem State.bar2Put_canon (s : State) (fn off : Nat) (x0 : List Byte) (h0 : s.canon) : (State.bar2Put s fn off x0).canon := by
  fun_induction State.bar2Put s fn off x0
  all_goals (try rename_i ih)
  all_goals (first | assumption | (apply ih; repeat' (with_reducible first | assumption | (intro _) | apply State.cellPut_canon | apply State.wordPut_canon | apply State.canon_hub | apply State.canon_mem | apply MemSt.canon_cells | apply Hub.canon_regs | apply Hub.canon_shadow | apply Hub.canon_hostMem | apply Hub.canon_if | apply State.canon_if | apply MemSt.canon_if | (simp only [State.canon_mk, Hub.canon_mk, MemSt.canon_mk]) | apply And.intro | split)) | repeat' (with_reducible first | assumption | (intro _) | apply State.cellPut_canon | apply State.wordPut_canon | apply State.canon_hub | apply State.canon_mem | apply MemSt.canon_cells | apply Hub.canon_regs | apply Hub.canon_shadow | apply Hub.canon_hostMem | apply Hub.canon_if | apply State.canon_if | apply MemSt.canon_if | (simp only [State.canon_mk, Hub.canon_mk, MemSt.canon_mk]) | apply And.intro | split))
theorem execBar2Write_canon (fn off : Nat) (bytes : List Byte) (poison : Bool) (s : State) (h0 : s.canon) : ∃ t, execBar2Write fn off bytes poison s = .next t ∧ t.canon := by
  refine ⟨_, rfl, ?_⟩
  repeat' (with_reducible first | assumption | (intro _) | apply MemSt.poison_canon | apply State.bar2Put_canon | apply State.cellsLost_canon | apply State.canon_hub | apply State.canon_mem | apply MemSt.canon_cells | apply Hub.canon_regs | apply Hub.canon_shadow | apply Hub.canon_hostMem | apply regsWf_filter | apply regsWf_kvFilter | apply memWf_filter | apply Hub.canon_if | apply State.canon_if | apply MemSt.canon_if | apply Hub.canon_foldl | apply State.canon_foldl | apply MemSt.canon_foldl | apply State.canon_foldl_fst | (simp only [State.canon_mk, Hub.canon_mk, MemSt.canon_mk]) | apply And.intro | split)
theorem execPageDecodeDone_canon (cell : Nat) (errs : List CellErr) (s : State) (h0 : s.canon) : ∃ t, execPageDecodeDone cell errs s = .next t ∧ t.canon := by
  refine ⟨_, rfl, ?_⟩
  repeat' (with_reducible first | assumption | (intro _) | apply Hub.err_canon | apply MemSt.err_canon | apply State.bar2Complete_canon | apply State.hbmTake_canon | apply State.pageDecode_canon | apply State.canon_hub | apply State.canon_mem | apply MemSt.canon_cells | apply Hub.canon_regs | apply Hub.canon_shadow | apply Hub.canon_hostMem | apply regsWf_filter | apply regsWf_kvFilter | apply memWf_filter | apply Hub.canon_if | apply State.canon_if | apply MemSt.canon_if | apply Hub.canon_foldl | apply State.canon_foldl | apply MemSt.canon_foldl | apply State.canon_foldl_fst | (simp only [State.canon_mk, Hub.canon_mk, MemSt.canon_mk]) | apply And.intro | split)
theorem execHbmRefresh_canon (stack : Nat) (s : State) (h0 : s.canon) : ∃ t, execHbmRefresh stack s = .next t ∧ t.canon := by
  refine ⟨_, rfl, ?_⟩
  repeat' (with_reducible first | assumption | (intro _) | apply State.hbmTake_canon | apply State.canon_hub | apply State.canon_mem | apply MemSt.canon_cells | apply Hub.canon_regs | apply Hub.canon_shadow | apply Hub.canon_hostMem | apply Hub.canon_if | apply State.canon_if | apply MemSt.canon_if | (simp only [State.canon_mk, Hub.canon_mk, MemSt.canon_mk]) | apply And.intro | split)
theorem execHbmTempReading_canon (stack : Nat) (temp : Int) (s : State) (h0 : s.canon) : ∃ t, execHbmTempReading stack temp s = .next t ∧ t.canon := by
  refine ⟨_, rfl, ?_⟩
  repeat' (with_reducible first | assumption | (intro _) | apply Hub.raise_canon | apply Hub.set1_canon | apply State.canon_hub | apply State.canon_mem | apply MemSt.canon_cells | apply Hub.canon_regs | apply Hub.canon_shadow | apply Hub.canon_hostMem | apply Hub.canon_if | apply State.canon_if | apply MemSt.canon_if | (simp only [State.canon_mk, Hub.canon_mk, MemSt.canon_mk]) | apply And.intro | split)
theorem State.scrubbed_canon (s : State) (page : Nat) (h0 : s.canon) : (State.scrubbed s page).canon := by
  unfold State.scrubbed
  repeat' (with_reducible first | assumption | (intro _) | apply State.hbmTake_canon | apply State.canon_hub | apply State.canon_mem | apply MemSt.canon_cells | apply Hub.canon_regs | apply Hub.canon_shadow | apply Hub.canon_hostMem | apply Hub.canon_if | apply State.canon_if | apply MemSt.canon_if | apply Hub.canon_foldl | apply State.canon_foldl | apply MemSt.canon_foldl | apply State.canon_foldl_fst | (simp only [State.canon_mk, Hub.canon_mk, MemSt.canon_mk]) | apply And.intro | split)
theorem MemSt.rewrite_canon (m : MemSt) (page : Nat) (h0 : m.canon) : (MemSt.rewrite m page).canon := by
  unfold MemSt.rewrite
  repeat' (with_reducible first | assumption | (intro _) | apply MemSt.write_canon | apply State.canon_hub | apply State.canon_mem | apply MemSt.canon_cells | apply Hub.canon_regs | apply Hub.canon_shadow | apply Hub.canon_hostMem | apply regsWf_filter | apply regsWf_kvFilter | apply memWf_filter | apply Hub.canon_foldl | apply State.canon_foldl | apply MemSt.canon_foldl | apply State.canon_foldl_fst | (simp only [State.canon_mk, Hub.canon_mk, MemSt.canon_mk]) | apply And.intro | split)
theorem State.scrubRewrite_canon (s : State) (page : Nat) (h0 : s.canon) : (State.scrubRewrite s page).canon := by
  unfold State.scrubRewrite
  repeat' (with_reducible first | assumption | (intro _) | apply MemSt.rewrite_canon | apply State.wordsRewritten_canon | apply State.canon_hub | apply State.canon_mem | apply MemSt.canon_cells | apply Hub.canon_regs | apply Hub.canon_shadow | apply Hub.canon_hostMem | apply regsWf_filter | apply regsWf_kvFilter | apply memWf_filter | (simp only [State.canon_mk, Hub.canon_mk, MemSt.canon_mk]) | apply And.intro | split)
theorem execScrubVisit_canon (cell : Nat) (errs : List CellErr) (s : State) (h0 : s.canon) : ∃ t, execScrubVisit cell errs s = .next t ∧ t.canon := by
  refine ⟨_, rfl, ?_⟩
  repeat' (with_reducible first | assumption | (intro _) | apply Hub.countCe_canon | apply Hub.err_canon | apply Hub.set_canon | apply MemSt.err_canon | apply State.pageDecode_canon | apply State.scrubRewrite_canon | apply State.scrubbed_canon | apply State.canon_hub | apply State.canon_mem | apply MemSt.canon_cells | apply Hub.canon_regs | apply Hub.canon_shadow | apply Hub.canon_hostMem | apply Hub.canon_if | apply State.canon_if | apply MemSt.canon_if | apply Hub.canon_foldl | apply State.canon_foldl | apply MemSt.canon_foldl | apply State.canon_foldl_fst | (simp only [State.canon_mk, Hub.canon_mk, MemSt.canon_mk]) | apply And.intro | split)
theorem execMergeFlushTimeout_canon (word : Nat) (s : State) (h0 : s.canon) : ∃ t, execMergeFlushTimeout word s = .next t ∧ t.canon := by
  refine ⟨_, rfl, ?_⟩
  repeat' (with_reducible first | assumption | (intro _) | apply State.mergeFlushWhere_canon | apply State.canon_hub | apply State.canon_mem | apply MemSt.canon_cells | apply Hub.canon_regs | apply Hub.canon_shadow | apply Hub.canon_hostMem | apply Hub.canon_if | apply State.canon_if | apply MemSt.canon_if | (simp only [State.canon_mk, Hub.canon_mk, MemSt.canon_mk]) | apply And.intro | split)
theorem execCaParityError_canon (stack pch cell : Nat) (wr second : Bool) (s : State) (h0 : s.canon) : ∃ t, execCaParityError stack pch cell wr second s = .next t ∧ t.canon := by
  refine ⟨_, rfl, ?_⟩
  repeat' (with_reducible first | assumption | (intro _) | apply Hub.err_canon | apply Hub.errN_canon | apply Hub.raise_canon | apply Hub.wr_canon | apply MemSt.err_canon | apply MemSt.poison_canon | apply State.memLog_canon | apply State.transient_canon | apply State.canon_hub | apply State.canon_mem | apply MemSt.canon_cells | apply Hub.canon_regs | apply Hub.canon_shadow | apply Hub.canon_hostMem | apply Hub.canon_if | apply State.canon_if | apply MemSt.canon_if | apply Hub.canon_foldl | apply State.canon_foldl | apply MemSt.canon_foldl | apply State.canon_foldl_fst | (simp only [State.canon_mk, Hub.canon_mk, MemSt.canon_mk]) | apply And.intro | split)
theorem State.testTake_canon (s : State) (w n : Nat) (h0 : s.canon) : (State.testTake s w n).canon := by
  unfold State.testTake
  repeat' (with_reducible first | assumption | (intro _) | apply State.canon_hub | apply State.canon_mem | apply MemSt.canon_cells | apply Hub.canon_regs | apply Hub.canon_shadow | apply Hub.canon_hostMem | apply Hub.canon_if | apply State.canon_if | apply MemSt.canon_if | (simp only [State.canon_mk, Hub.canon_mk, MemSt.canon_mk]) | apply And.intro | split)
theorem execRawWrite_canon (s : State) (h0 : s.canon) : ∃ t, execRawWrite s = .next t ∧ t.canon := by
  refine ⟨_, rfl, ?_⟩
  repeat' (with_reducible first | assumption | (intro _) | apply State.testTake_canon | apply State.canon_hub | apply State.canon_mem | apply MemSt.canon_cells | apply Hub.canon_regs | apply Hub.canon_shadow | apply Hub.canon_hostMem | apply memWf_memWriteList | (simp only [State.canon_mk, Hub.canon_mk, MemSt.canon_mk]) | apply And.intro | split)
theorem execRawRead_canon (s : State) (h0 : s.canon) : ∃ t, execRawRead s = .next t ∧ t.canon := by
  refine ⟨_, rfl, ?_⟩
  repeat' (with_reducible first | assumption | (intro _) | apply Hub.set_canon | apply Hub.set64_canon | apply State.testTake_canon | apply State.canon_hub | apply State.canon_mem | apply MemSt.canon_cells | apply Hub.canon_regs | apply Hub.canon_shadow | apply Hub.canon_hostMem | (simp only [State.canon_mk, Hub.canon_mk, MemSt.canon_mk]) | apply And.intro | split)
theorem execCheckedRead_canon (s : State) (h0 : s.canon) : ∃ t, execCheckedRead s = .next t ∧ t.canon := by
  refine ⟨_, rfl, ?_⟩
  repeat' (with_reducible first | assumption | (intro _) | apply Hub.set_canon | apply Hub.set64_canon | apply State.testTake_canon | apply State.canon_hub | apply State.canon_mem | apply MemSt.canon_cells | apply Hub.canon_regs | apply Hub.canon_shadow | apply Hub.canon_hostMem | (simp only [State.canon_mk, Hub.canon_mk, MemSt.canon_mk]) | apply And.intro | split)
theorem MemSt.copied_canon (m : MemSt) (ch : Nat) (h0 : m.canon) : (MemSt.copied m ch).canon := by
  unfold MemSt.copied
  repeat' (with_reducible first | assumption | (intro _) | apply MemSt.poison_canon | apply MemSt.write_canon | apply State.canon_hub | apply State.canon_mem | apply MemSt.canon_cells | apply Hub.canon_regs | apply Hub.canon_shadow | apply Hub.canon_hostMem | apply regsWf_filter | apply regsWf_kvFilter | apply memWf_filter | apply Hub.canon_if | apply State.canon_if | apply MemSt.canon_if | apply Hub.canon_foldl | apply State.canon_foldl | apply MemSt.canon_foldl | apply State.canon_foldl_fst | (simp only [State.canon_mk, Hub.canon_mk, MemSt.canon_mk]) | apply And.intro | split)
theorem execPageRemapDone_canon (channel : Nat) (s : State) (h0 : s.canon) : ∃ t, execPageRemapDone channel s = .next t ∧ t.canon := by
  refine ⟨_, rfl, ?_⟩
  repeat' (with_reducible first | assumption | (intro _) | apply MemSt.copied_canon | apply State.bar2Resume_canon | apply State.done_canon | apply State.canon_hub | apply State.canon_mem | apply MemSt.canon_cells | apply Hub.canon_regs | apply Hub.canon_shadow | apply Hub.canon_hostMem | apply Hub.canon_if | apply State.canon_if | apply MemSt.canon_if | (simp only [State.canon_mk, Hub.canon_mk, MemSt.canon_mk]) | apply And.intro | split)
theorem State.setSlot_canon (s : State) (n : Nat) (k : KeySlot) (h0 : s.canon) : (State.setSlot s n k).canon := by
  unfold State.setSlot
  repeat' (with_reducible first | assumption | (intro _) | apply State.canon_hub | apply State.canon_mem | apply MemSt.canon_cells | apply Hub.canon_regs | apply Hub.canon_shadow | apply Hub.canon_hostMem | (simp only [State.canon_mk, Hub.canon_mk, MemSt.canon_mk]) | apply And.intro | split)
theorem Hub.setKw_canon (h : Hub) (fn : Nat) (f : Fld) (v : Nat) (h0 : h.canon) : (Hub.setKw h fn f v).canon := by
  unfold Hub.setKw
  repeat' (with_reducible first | assumption | (intro _) | apply Hub.wr_canon | apply State.canon_hub | apply State.canon_mem | apply MemSt.canon_cells | apply Hub.canon_regs | apply Hub.canon_shadow | apply Hub.canon_hostMem | (simp only [State.canon_mk, Hub.canon_mk, MemSt.canon_mk]) | apply And.intro | split)
theorem State.keyStart_canon (s : State) (fn : Nat) (erase : Bool) (val : Word) (h0 : s.canon) : (State.keyStart s fn erase val).canon := by
  unfold State.keyStart
  repeat' (with_reducible first | assumption | (intro _) | apply Hub.setKw_canon | apply State.canon_hub | apply State.canon_mem | apply MemSt.canon_cells | apply Hub.canon_regs | apply Hub.canon_shadow | apply Hub.canon_hostMem | apply Hub.canon_if | apply State.canon_if | apply MemSt.canon_if | (simp only [State.canon_mk, Hub.canon_mk, MemSt.canon_mk]) | apply And.intro | split)
theorem execKeyWrite_canon (fn : Nat) (val : Word) (s : State) (h0 : s.canon) : ∃ t, execKeyWrite fn val s = .next t ∧ t.canon := by
  refine ⟨_, rfl, ?_⟩
  repeat' (with_reducible first | assumption | (intro _) | apply State.keyStart_canon | apply State.canon_hub | apply State.canon_mem | apply MemSt.canon_cells | apply Hub.canon_regs | apply Hub.canon_shadow | apply Hub.canon_hostMem | apply Hub.canon_if | apply State.canon_if | apply MemSt.canon_if | (simp only [State.canon_mk, Hub.canon_mk, MemSt.canon_mk]) | apply And.intro | split)
theorem execKeyErase_canon (fn : Nat) (val : Word) (s : State) (h0 : s.canon) : ∃ t, execKeyErase fn val s = .next t ∧ t.canon := by
  refine ⟨_, rfl, ?_⟩
  repeat' (with_reducible first | assumption | (intro _) | apply State.keyStart_canon | apply State.canon_hub | apply State.canon_mem | apply MemSt.canon_cells | apply Hub.canon_regs | apply Hub.canon_shadow | apply Hub.canon_hostMem | apply Hub.canon_if | apply State.canon_if | apply MemSt.canon_if | (simp only [State.canon_mk, Hub.canon_mk, MemSt.canon_mk]) | apply And.intro | split)
theorem State.keyDone_canon (s : State) (fn n result : Nat) (h0 : s.canon) : (State.keyDone s fn n result).canon := by
  unfold State.keyDone
  repeat' (with_reducible first | assumption | (intro _) | apply Hub.raise_canon | apply Hub.setKw_canon | apply Hub.wr_canon | apply State.canon_hub | apply State.canon_mem | apply MemSt.canon_cells | apply Hub.canon_regs | apply Hub.canon_shadow | apply Hub.canon_hostMem | apply Hub.canon_if | apply State.canon_if | apply MemSt.canon_if | apply Hub.canon_foldl | apply State.canon_foldl | apply MemSt.canon_foldl | apply State.canon_foldl_fst | (simp only [State.canon_mk, Hub.canon_mk, MemSt.canon_mk]) | apply And.intro | split)
theorem State.keyEffect_canon (s : State) (n : Nat) (op : KeyOp) (h0 : s.canon) : (State.keyEffect s n op).canon := by
  unfold State.keyEffect
  repeat' (with_reducible first | assumption | (intro _) | apply State.setSlot_canon | apply State.canon_hub | apply State.canon_mem | apply MemSt.canon_cells | apply Hub.canon_regs | apply Hub.canon_shadow | apply Hub.canon_hostMem | apply Hub.canon_if | apply State.canon_if | apply MemSt.canon_if | (simp only [State.canon_mk, Hub.canon_mk, MemSt.canon_mk]) | apply And.intro | split)
theorem State.keyDue_canon (s : State) (n : Nat) (op : KeyOp) (fn : Option Nat) (h0 : s.canon) : (State.keyDue s n op fn).canon := by
  unfold State.keyDue
  repeat' (with_reducible first | assumption | (intro _) | apply State.keyDone_canon | apply State.keyEffect_canon | apply State.setSlot_canon | apply State.canon_hub | apply State.canon_mem | apply MemSt.canon_cells | apply Hub.canon_regs | apply Hub.canon_shadow | apply Hub.canon_hostMem | apply Hub.canon_if | apply State.canon_if | apply MemSt.canon_if | (simp only [State.canon_mk, Hub.canon_mk, MemSt.canon_mk]) | apply And.intro | split)
theorem execKeyUnwrapDone_canon (fn slot : Nat) (erase : Bool) (rec : Option (List Byte)) (s : State) (h0 : s.canon) : ∃ t, execKeyUnwrapDone fn slot erase rec s = .next t ∧ t.canon := by
  refine ⟨_, rfl, ?_⟩
  repeat' (with_reducible first | assumption | (intro _) | apply State.keyDone_canon | apply State.keyDue_canon | apply State.canon_hub | apply State.canon_mem | apply MemSt.canon_cells | apply Hub.canon_regs | apply Hub.canon_shadow | apply Hub.canon_hostMem | apply regsWf_filter | apply regsWf_kvFilter | apply memWf_filter | apply Hub.canon_if | apply State.canon_if | apply MemSt.canon_if | (simp only [State.canon_mk, Hub.canon_mk, MemSt.canon_mk]) | apply And.intro | split)
theorem State.keyChange_canon (s : State) (i : Instr) (h0 : s.canon) : (State.keyChange s i).canon := by
  unfold State.keyChange
  repeat' (with_reducible first | assumption | (intro _) | apply State.keyDue_canon | apply State.canon_hub | apply State.canon_mem | apply MemSt.canon_cells | apply Hub.canon_regs | apply Hub.canon_shadow | apply Hub.canon_hostMem | apply Hub.canon_if | apply State.canon_if | apply MemSt.canon_if | (simp only [State.canon_mk, Hub.canon_mk, MemSt.canon_mk]) | apply And.intro | split)
theorem execKeyDrainEnd_canon (slot : Nat) (s : State) (h0 : s.canon) : ∃ t, execKeyDrainEnd slot s = .next t ∧ t.canon := by
  refine ⟨_, rfl, ?_⟩
  repeat' (with_reducible first | assumption | (intro _) | apply State.keyDue_canon | apply State.setSlot_canon | apply State.canon_hub | apply State.canon_mem | apply MemSt.canon_cells | apply Hub.canon_regs | apply Hub.canon_shadow | apply Hub.canon_hostMem | apply Hub.canon_if | apply State.canon_if | apply MemSt.canon_if | apply Hub.canon_foldl | apply State.canon_foldl | apply MemSt.canon_foldl | apply State.canon_foldl_fst | (simp only [State.canon_mk, Hub.canon_mk, MemSt.canon_mk]) | apply And.intro | split)
theorem execHeldKeyExpiry_canon (slot : Nat) (s : State) (h0 : s.canon) : ∃ t, execHeldKeyExpiry slot s = .next t ∧ t.canon := by
  refine ⟨_, rfl, ?_⟩
  repeat' (with_reducible first | assumption | (intro _) | apply State.setSlot_canon | apply State.canon_hub | apply State.canon_mem | apply MemSt.canon_cells | apply Hub.canon_regs | apply Hub.canon_shadow | apply Hub.canon_hostMem | apply Hub.canon_if | apply State.canon_if | apply MemSt.canon_if | (simp only [State.canon_mk, Hub.canon_mk, MemSt.canon_mk]) | apply And.intro | split)
theorem State.laneCompute_canon (s : State) (lane : Option Nat) (n : Nat) (h0 : s.canon) : (State.laneCompute s lane n).canon := by
  unfold State.laneCompute
  repeat' (with_reducible first | assumption | (intro _) | apply Hub.stat_canon | apply State.canon_hub | apply State.canon_mem | apply MemSt.canon_cells | apply Hub.canon_regs | apply Hub.canon_shadow | apply Hub.canon_hostMem | (simp only [State.canon_mk, Hub.canon_mk, MemSt.canon_mk]) | apply And.intro | split)
theorem State.laneTake_canon (s : State) (sash : Nat) (lane : Option Nat) (n : Nat) (h0 : s.canon) : (State.laneTake s sash lane n).canon := by
  unfold State.laneTake
  repeat' (with_reducible first | assumption | (intro _) | apply State.laneCompute_canon | apply State.canon_hub | apply State.canon_mem | apply MemSt.canon_cells | apply Hub.canon_regs | apply Hub.canon_shadow | apply Hub.canon_hostMem | (simp only [State.canon_mk, Hub.canon_mk, MemSt.canon_mk]) | apply And.intro | split)
theorem State.cipDrop_canon (s : State) (f : Fld) (n : Nat) (ev : Option Nat) (h0 : s.canon) : (State.cipDrop s f n ev).canon := by
  unfold State.cipDrop
  repeat' (with_reducible first | assumption | (intro _) | apply Hub.err_canon | apply Hub.raiseRl_canon | apply MemSt.err_canon | apply State.canon_hub | apply State.canon_mem | apply MemSt.canon_cells | apply Hub.canon_regs | apply Hub.canon_shadow | apply Hub.canon_hostMem | (simp only [State.canon_mk, Hub.canon_mk, MemSt.canon_mk]) | apply And.intro | split)
theorem State.exhaust_canon (s : State) (n : Nat) (h0 : s.canon) : (State.exhaust s n).canon := by
  unfold State.exhaust
  repeat' (with_reducible first | assumption | (intro _) | apply Hub.raise_canon | apply State.setSlot_canon | apply State.canon_hub | apply State.canon_mem | apply MemSt.canon_cells | apply Hub.canon_regs | apply Hub.canon_shadow | apply Hub.canon_hostMem | apply Hub.canon_if | apply State.canon_if | apply MemSt.canon_if | (simp only [State.canon_mk, Hub.canon_mk, MemSt.canon_mk]) | apply And.intro | split)
theorem State.cipUse_canon (s : State) (n : Nat) (h0 : s.canon) : (State.cipUse s n).canon := by
  unfold State.cipUse
  repeat' (with_reducible first | assumption | (intro _) | apply Hub.raise_canon | apply State.exhaust_canon | apply State.setSlot_canon | apply State.canon_hub | apply State.canon_mem | apply MemSt.canon_cells | apply Hub.canon_regs | apply Hub.canon_shadow | apply Hub.canon_hostMem | apply Hub.canon_if | apply State.canon_if | apply MemSt.canon_if | (simp only [State.canon_mk, Hub.canon_mk, MemSt.canon_mk]) | apply And.intro | split)
theorem State.cipIndex_canon (s : State) (it : CipItem) (h0 : s.canon) : (State.cipIndex s it).1.canon := by
  unfold State.cipIndex
  repeat' (with_reducible first | assumption | (intro _) | apply State.cipDrop_canon | apply State.exhaust_canon | apply State.setSlot_canon | apply State.canon_hub | apply State.canon_mem | apply MemSt.canon_cells | apply Hub.canon_regs | apply Hub.canon_shadow | apply Hub.canon_hostMem | apply Hub.canon_if | apply State.canon_if | apply MemSt.canon_if | (simp only [State.canon_mk, Hub.canon_mk, MemSt.canon_mk]) | apply And.intro | split)
theorem State.cipRetry_canon (s0 : State) (lane : Option Nat) (blocks : Nat) (h0 : s0.canon) : (State.cipRetry s0 lane blocks).canon := by
  unfold State.cipRetry
  repeat' (with_reducible first | assumption | (intro _) | apply Hub.err_canon | apply Hub.raise_canon | apply MemSt.err_canon | apply State.laneCompute_canon | apply State.transient_canon | apply State.canon_hub | apply State.canon_mem | apply MemSt.canon_cells | apply Hub.canon_regs | apply Hub.canon_shadow | apply Hub.canon_hostMem | (simp only [State.canon_mk, Hub.canon_mk, MemSt.canon_mk]) | apply And.intro | split)
theorem State.cipRetire_canon (s0 : State) (lane : Option Nat) (h0 : s0.canon) : (State.cipRetire s0 lane).canon := by
  unfold State.cipRetire
  repeat' (with_reducible first | assumption | (intro _) | apply Hub.err_canon | apply Hub.raise_canon | apply Hub.set1_canon | apply MemSt.err_canon | apply State.permanent_canon | apply State.canon_hub | apply State.canon_mem | apply MemSt.canon_cells | apply Hub.canon_regs | apply Hub.canon_shadow | apply Hub.canon_hostMem | (simp only [State.canon_mk, Hub.canon_mk, MemSt.canon_mk]) | apply And.intro | split)
theorem State.cipAuth_canon (s : State) (it : CipItem) (lane : Option Nat) (blocks : Nat) (h0 : s.canon) : (State.cipAuth s it lane blocks).1.canon := by
  unfold State.cipAuth
  repeat' (with_reducible first | assumption | (intro _) | apply Hub.err_canon | apply Hub.raise_canon | apply Hub.raiseRl_canon | apply MemSt.err_canon | apply State.laneTake_canon | apply State.setSlot_canon | apply State.canon_hub | apply State.canon_mem | apply MemSt.canon_cells | apply Hub.canon_regs | apply Hub.canon_shadow | apply Hub.canon_hostMem | apply Hub.canon_if | apply State.canon_if | apply MemSt.canon_if | (simp only [State.canon_mk, Hub.canon_mk, MemSt.canon_mk]) | apply And.intro | split)
theorem State.cipher_canon (s : State) (it : CipItem) (h0 : s.canon) : (State.cipher s it).1.canon := by
  unfold State.cipher
  repeat' (with_reducible first | assumption | (intro _) | apply Hub.raise_canon | apply MemSt.poison_canon | apply State.cipAuth_canon | apply State.cipDrop_canon | apply State.cipIndex_canon | apply State.cipRetire_canon | apply State.cipRetry_canon | apply State.cipUse_canon | apply State.laneTake_canon | apply State.setSlot_canon | apply State.canon_hub | apply State.canon_mem | apply MemSt.canon_cells | apply Hub.canon_regs | apply Hub.canon_shadow | apply Hub.canon_hostMem | apply Hub.canon_if | apply State.canon_if | apply MemSt.canon_if | (simp only [State.canon_mk, Hub.canon_mk, MemSt.canon_mk]) | apply And.intro | split)
theorem execCipherItem_canon (it : CipItem) (s : State) (h0 : s.canon) : ∃ t, execCipherItem it s = .next t ∧ t.canon := by
  refine ⟨_, rfl, ?_⟩
  repeat' (with_reducible first | assumption | (intro _) | apply Hub.emit_canon | apply State.cipher_canon | apply State.canon_hub | apply State.canon_mem | apply MemSt.canon_cells | apply Hub.canon_regs | apply Hub.canon_shadow | apply Hub.canon_hostMem | apply Hub.canon_if | apply State.canon_if | apply MemSt.canon_if | (simp only [State.canon_mk, Hub.canon_mk, MemSt.canon_mk]) | apply And.intro | split)
theorem State.cacheCount_canon (s : State) (h0 : s.canon) : (State.cacheCount s).canon := by
  unfold State.cacheCount
  repeat' (with_reducible first | assumption | (intro _) | apply Hub.set_canon | apply State.canon_hub | apply State.canon_mem | apply MemSt.canon_cells | apply Hub.canon_regs | apply Hub.canon_shadow | apply Hub.canon_hostMem | (simp only [State.canon_mk, Hub.canon_mk, MemSt.canon_mk]) | apply And.intro | split)
theorem State.subBytes_canon (s : State) (i : Nat) (b : List Byte) (h0 : s.canon) : (State.subBytes s i b).canon := by
  unfold State.subBytes
  repeat' (with_reducible first | assumption | (intro _) | apply State.partWrite_canon | apply State.canon_hub | apply State.canon_mem | apply MemSt.canon_cells | apply Hub.canon_regs | apply Hub.canon_shadow | apply Hub.canon_hostMem | (simp only [State.canon_mk, Hub.canon_mk, MemSt.canon_mk]) | apply And.intro | split)
theorem State.subStore_canon (s : State) (i : Nat) (h0 : s.canon) : (State.subStore s i).canon := by
  unfold State.subStore
  repeat' (with_reducible first | assumption | (intro _) | apply State.cacheCount_canon | apply State.subBytes_canon | apply State.canon_hub | apply State.canon_mem | apply MemSt.canon_cells | apply Hub.canon_regs | apply Hub.canon_shadow | apply Hub.canon_hostMem | (simp only [State.canon_mk, Hub.canon_mk, MemSt.canon_mk]) | apply And.intro | split)
theorem State.putSub_canon (s : State) (i : Nat) (u : Sub) (h0 : s.canon) : (State.putSub s i u).canon := by
  unfold State.putSub
  repeat' (with_reducible first | assumption | (intro _) | apply State.subStore_canon | apply State.canon_hub | apply State.canon_mem | apply MemSt.canon_cells | apply Hub.canon_regs | apply Hub.canon_shadow | apply Hub.canon_hostMem | (simp only [State.canon_mk, Hub.canon_mk, MemSt.canon_mk]) | apply And.intro | split)
theorem State.cacheIn_canon (s : State) (i : Nat) (h0 : s.canon) : (State.cacheIn s i).canon := by
  unfold State.cacheIn
  repeat' (with_reducible first | assumption | (intro _) | apply Hub.freeTick_canon | apply State.cacheCount_canon | apply State.canon_hub | apply State.canon_mem | apply MemSt.canon_cells | apply Hub.canon_regs | apply Hub.canon_shadow | apply Hub.canon_hostMem | apply regsWf_filter | apply regsWf_kvFilter | apply memWf_filter | apply Hub.canon_if | apply State.canon_if | apply MemSt.canon_if | (simp only [State.canon_mk, Hub.canon_mk, MemSt.canon_mk]) | apply And.intro | split)
theorem State.subFetch_canon (s : State) (k i : Nat) (h0 : s.canon) : (State.subFetch s k i).canon := by
  unfold State.subFetch
  repeat' (with_reducible first | assumption | (intro _) | apply Hub.stat_canon | apply State.cacheIn_canon | apply State.canon_hub | apply State.canon_mem | apply MemSt.canon_cells | apply Hub.canon_regs | apply Hub.canon_shadow | apply Hub.canon_hostMem | apply regsWf_filter | apply regsWf_kvFilter | apply memWf_filter | apply Hub.canon_if | apply State.canon_if | apply MemSt.canon_if | (simp only [State.canon_mk, Hub.canon_mk, MemSt.canon_mk]) | apply And.intro | split)
theorem State.subVisit_canon (s : State) (k i : Nat) (h0 : s.canon) : (State.subVisit s k i).canon := by
  unfold State.subVisit
  repeat' (with_reducible first | assumption | (intro _) | apply State.subFetch_canon | apply State.canon_hub | apply State.canon_mem | apply MemSt.canon_cells | apply Hub.canon_regs | apply Hub.canon_shadow | apply Hub.canon_hostMem | apply Hub.canon_if | apply State.canon_if | apply MemSt.canon_if | (simp only [State.canon_mk, Hub.canon_mk, MemSt.canon_mk]) | apply And.intro | split)
theorem State.keyRequest_canon (s : State) (i : Nat) (h0 : s.canon) : (State.keyRequest s i).canon := by
  unfold State.keyRequest
  repeat' (with_reducible first | assumption | (intro _) | apply State.canon_hub | apply State.canon_mem | apply MemSt.canon_cells | apply Hub.canon_regs | apply Hub.canon_shadow | apply Hub.canon_hostMem | apply Hub.canon_if | apply State.canon_if | apply MemSt.canon_if | (simp only [State.canon_mk, Hub.canon_mk, MemSt.canon_mk]) | apply And.intro | split)
theorem State.keyAnswer_canon (s : State) (i : Nat) (h0 : s.canon) : (State.keyAnswer s i).canon := by
  unfold State.keyAnswer
  repeat' (with_reducible first | assumption | (intro _) | apply State.canon_hub | apply State.canon_mem | apply MemSt.canon_cells | apply Hub.canon_regs | apply Hub.canon_shadow | apply Hub.canon_hostMem | (simp only [State.canon_mk, Hub.canon_mk, MemSt.canon_mk]) | apply And.intro | split)
theorem State.raiseTgt_canon (s : State) (i : Nat) (u : Sub) (tS tT : Nat) (h0 : s.canon) : (State.raiseTgt s i u tS tT).canon := by
  unfold State.raiseTgt
  repeat' (with_reducible first | assumption | (intro _) | apply State.putSub_canon | apply State.canon_hub | apply State.canon_mem | apply MemSt.canon_cells | apply Hub.canon_regs | apply Hub.canon_shadow | apply Hub.canon_hostMem | (simp only [State.canon_mk, Hub.canon_mk, MemSt.canon_mk]) | apply And.intro | split)
theorem State.setTgt_canon (s : State) (i : Nat) (u : Sub) (tS tT : Nat) (none_ : Bool) (h0 : s.canon) : (State.setTgt s i u tS tT none_).canon := by
  unfold State.setTgt
  repeat' (with_reducible first | assumption | (intro _) | apply State.keyRequest_canon | apply State.putSub_canon | apply State.raiseTgt_canon | apply State.canon_hub | apply State.canon_mem | apply MemSt.canon_cells | apply Hub.canon_regs | apply Hub.canon_shadow | apply Hub.canon_hostMem | apply Hub.canon_if | apply State.canon_if | apply MemSt.canon_if | (simp only [State.canon_mk, Hub.canon_mk, MemSt.canon_mk]) | apply And.intro | split)
theorem State.bindPolicy_canon (s : State) (i : Nat) (u : Sub) (p : Nat × Nat × Nat) (new : Bool) (h0 : s.canon) : (State.bindPolicy s i u p new).canon := by
  unfold State.bindPolicy
  repeat' (with_reducible first | assumption | (intro _) | apply State.keyRequest_canon | apply State.putSub_canon | apply State.setTgt_canon | apply State.canon_hub | apply State.canon_mem | apply MemSt.canon_cells | apply Hub.canon_regs | apply Hub.canon_shadow | apply Hub.canon_hostMem | apply Hub.canon_if | apply State.canon_if | apply MemSt.canon_if | (simp only [State.canon_mk, Hub.canon_mk, MemSt.canon_mk]) | apply And.intro | split)
theorem State.refollow_canon (s : State) (base : Nat) (h0 : s.canon) : (State.refollow s base).canon := by
  unfold State.refollow
  repeat' (with_reducible first | assumption | (intro _) | apply State.setTgt_canon | apply State.canon_hub | apply State.canon_mem | apply MemSt.canon_cells | apply Hub.canon_regs | apply Hub.canon_shadow | apply Hub.canon_hostMem | apply regsWf_filter | apply regsWf_kvFilter | apply memWf_filter | apply Hub.canon_if | apply State.canon_if | apply MemSt.canon_if | apply Hub.canon_foldl | apply State.canon_foldl | apply MemSt.canon_foldl | apply State.canon_foldl_fst | (simp only [State.canon_mk, Hub.canon_mk, MemSt.canon_mk]) | apply And.intro | split)
theorem State.allocApply_canon (s : State) (i : Nat) (r : Option (Nat × Nat)) (h0 : s.canon) : (State.allocApply s i r).canon := by
  unfold State.allocApply
  repeat' (with_reducible first | assumption | (intro _) | apply State.putSub_canon | apply State.setTgt_canon | apply State.canon_hub | apply State.canon_mem | apply MemSt.canon_cells | apply Hub.canon_regs | apply Hub.canon_shadow | apply Hub.canon_hostMem | apply Hub.canon_if | apply State.canon_if | apply MemSt.canon_if | (simp only [State.canon_mk, Hub.canon_mk, MemSt.canon_mk]) | apply And.intro | split)
theorem State.allocate_canon (s : State) (leg : Nat) (h0 : s.canon) : (State.allocate s leg).canon := by
  unfold State.allocate
  repeat' (with_reducible first | assumption | (intro _) | apply State.allocApply_canon | apply State.canon_hub | apply State.canon_mem | apply MemSt.canon_cells | apply Hub.canon_regs | apply Hub.canon_shadow | apply Hub.canon_hostMem | apply regsWf_filter | apply regsWf_kvFilter | apply memWf_filter | apply Hub.canon_if | apply State.canon_if | apply MemSt.canon_if | apply Hub.canon_foldl | apply State.canon_foldl | apply MemSt.canon_foldl | apply State.canon_foldl_fst | (simp only [State.canon_mk, Hub.canon_mk, MemSt.canon_mk]) | apply And.intro | split)
theorem State.cacheRoom_canon (s : State) (k n : Nat) (x0 : Nat) (h0 : s.canon) : (State.cacheRoom s k n x0).canon := by
  induction x0 generalizing s k n with
  | zero =>
    unfold State.cacheRoom; try dsimp only
    repeat' (with_reducible first | assumption | (intro _) | apply Hub.raiseRl_canon | apply State.canon_hub | apply State.canon_mem | apply MemSt.canon_cells | apply Hub.canon_regs | apply Hub.canon_shadow | apply Hub.canon_hostMem | apply Hub.canon_if | apply State.canon_if | apply MemSt.canon_if | (simp only [State.canon_mk, Hub.canon_mk, MemSt.canon_mk]) | apply And.intro | split)
  | succ n ih =>
    unfold State.cacheRoom; try dsimp only
    repeat' (with_reducible first | assumption | (intro _) | apply ih | apply Hub.raiseRl_canon | apply State.canon_hub | apply State.canon_mem | apply MemSt.canon_cells | apply Hub.canon_regs | apply Hub.canon_shadow | apply Hub.canon_hostMem | apply Hub.canon_if | apply State.canon_if | apply MemSt.canon_if | (simp only [State.canon_mk, Hub.canon_mk, MemSt.canon_mk]) | apply And.intro | split)
theorem State.cacheStore_canon (s : State) (stream seq : Nat) (pkt : List Byte) (h0 : s.canon) : (State.cacheStore s stream seq pkt).canon := by
  unfold State.cacheStore
  repeat' (with_reducible first | assumption | (intro _) | apply State.cacheRoom_canon | apply State.canon_hub | apply State.canon_mem | apply MemSt.canon_cells | apply Hub.canon_regs | apply Hub.canon_shadow | apply Hub.canon_hostMem | apply Hub.canon_if | apply State.canon_if | apply MemSt.canon_if | (simp only [State.canon_mk, Hub.canon_mk, MemSt.canon_mk]) | apply And.intro | split)
theorem State.cacheIndex_canon (s : State) (leg : Nat) (e : IdxEntry) (h0 : s.canon) : (State.cacheIndex s leg e).canon := by
  unfold State.cacheIndex
  repeat' (with_reducible first | assumption | (intro _) | apply State.cacheRoom_canon | apply State.canon_hub | apply State.canon_mem | apply MemSt.canon_cells | apply Hub.canon_regs | apply Hub.canon_shadow | apply Hub.canon_hostMem | apply Hub.canon_if | apply State.canon_if | apply MemSt.canon_if | (simp only [State.canon_mk, Hub.canon_mk, MemSt.canon_mk]) | apply And.intro | split)
theorem State.departed_canon (s : State) (leg bytes : Nat) (idx : Option IdxEntry) (h0 : s.canon) : (State.departed s leg bytes idx).canon := by
  unfold State.departed
  repeat' (with_reducible first | assumption | (intro _) | apply State.cacheIndex_canon | apply State.canon_hub | apply State.canon_mem | apply MemSt.canon_cells | apply Hub.canon_regs | apply Hub.canon_shadow | apply Hub.canon_hostMem | apply regsWf_filter | apply regsWf_kvFilter | apply memWf_filter | (simp only [State.canon_mk, Hub.canon_mk, MemSt.canon_mk]) | apply And.intro | split)
theorem State.flitSend_canon (s : State) (n : Nat) (f : JlFlit) (h0 : s.canon) : (State.flitSend s n f).canon := by
  unfold State.flitSend
  repeat' (with_reducible first | assumption | (intro _) | apply Hub.stat_canon | apply MemSt.poison_canon | apply State.cipher_canon | apply State.flitOut_canon | apply State.jlDrop_canon | apply State.setLink_canon | apply State.canon_hub | apply State.canon_mem | apply MemSt.canon_cells | apply Hub.canon_regs | apply Hub.canon_shadow | apply Hub.canon_hostMem | apply Hub.canon_if | apply State.canon_if | apply MemSt.canon_if | (simp only [State.canon_mk, Hub.canon_mk, MemSt.canon_mk]) | apply And.intro | split)
theorem State.jlPumpList_canon (s : State) (n : Nat) (x0 : List JlFlit) (x1 : List Nat) (h0 : s.canon) : (State.jlPumpList s n x0 x1).canon := by
  induction x0 generalizing s n x1 with
  | nil =>
    unfold State.jlPumpList; try dsimp only
    repeat' (with_reducible first | assumption | (intro _) | apply State.flitSend_canon | apply State.setLink_canon | apply State.canon_hub | apply State.canon_mem | apply MemSt.canon_cells | apply Hub.canon_regs | apply Hub.canon_shadow | apply Hub.canon_hostMem | apply Hub.canon_if | apply State.canon_if | apply MemSt.canon_if | (simp only [State.canon_mk, Hub.canon_mk, MemSt.canon_mk]) | apply And.intro | split)
  | cons a l ih =>
    unfold State.jlPumpList; try dsimp only
    repeat' (with_reducible first | assumption | (intro _) | apply ih | apply State.flitSend_canon | apply State.setLink_canon | apply State.canon_hub | apply State.canon_mem | apply MemSt.canon_cells | apply Hub.canon_regs | apply Hub.canon_shadow | apply Hub.canon_hostMem | apply Hub.canon_if | apply State.canon_if | apply MemSt.canon_if | (simp only [State.canon_mk, Hub.canon_mk, MemSt.canon_mk]) | apply And.intro | split)
theorem State.jlPump_canon (s : State) (n : Nat) (h0 : s.canon) : (State.jlPump s n).canon := by
  unfold State.jlPump
  repeat' (with_reducible first | assumption | (intro _) | apply State.jlPumpList_canon | apply State.setLink_canon | apply State.canon_hub | apply State.canon_mem | apply MemSt.canon_cells | apply Hub.canon_regs | apply Hub.canon_shadow | apply Hub.canon_hostMem | apply Hub.canon_if | apply State.canon_if | apply MemSt.canon_if | (simp only [State.canon_mk, Hub.canon_mk, MemSt.canon_mk]) | apply And.intro | split)
theorem State.jlForward_canon (s : State) (dev : Nat) (fs : List JlFlit) (event : Bool) (h0 : s.canon) : (State.jlForward s dev fs event).canon := by
  unfold State.jlForward
  repeat' (with_reducible first | assumption | (intro _) | apply State.jlDrop_canon | apply State.jlPump_canon | apply State.setLink_canon | apply State.canon_hub | apply State.canon_mem | apply MemSt.canon_cells | apply Hub.canon_regs | apply Hub.canon_shadow | apply Hub.canon_hostMem | (simp only [State.canon_mk, Hub.canon_mk, MemSt.canon_mk]) | apply And.intro | split)
theorem State.jlSend_canon (s : State) (dev kind vc : Nat) (payload : List Byte) (h0 : s.canon) : (State.jlSend s dev kind vc payload).canon := by
  unfold State.jlSend
  repeat' (with_reducible first | assumption | (intro _) | apply MemSt.poison_canon | apply State.jlForward_canon | apply State.canon_hub | apply State.canon_mem | apply MemSt.canon_cells | apply Hub.canon_regs | apply Hub.canon_shadow | apply Hub.canon_hostMem | apply Hub.canon_if | apply State.canon_if | apply MemSt.canon_if | (simp only [State.canon_mk, Hub.canon_mk, MemSt.canon_mk]) | apply And.intro | split)
theorem State.jlSendAll_canon (s : State) (devs : List Nat) (kind vc : Nat) (payload : List Byte) (h0 : s.canon) : (State.jlSendAll s devs kind vc payload).canon := by
  unfold State.jlSendAll
  repeat' (with_reducible first | assumption | (intro _) | apply State.jlSend_canon | apply State.canon_hub | apply State.canon_mem | apply MemSt.canon_cells | apply Hub.canon_regs | apply Hub.canon_shadow | apply Hub.canon_hostMem | apply Hub.canon_foldl | apply State.canon_foldl | apply MemSt.canon_foldl | apply State.canon_foldl_fst | (simp only [State.canon_mk, Hub.canon_mk, MemSt.canon_mk]) | apply And.intro | split)
theorem State.jlSvc_canon (s : State) (dev : Nat) (m : SvcMsg) (h0 : s.canon) : (State.jlSvc s dev m).canon := by
  unfold State.jlSvc
  repeat' (with_reducible first | assumption | (intro _) | apply State.jlSend_canon | apply State.canon_hub | apply State.canon_mem | apply MemSt.canon_cells | apply Hub.canon_regs | apply Hub.canon_shadow | apply Hub.canon_hostMem | (simp only [State.canon_mk, Hub.canon_mk, MemSt.canon_mk]) | apply And.intro | split)
theorem State.jlMedia_canon (s : State) (dev stream : Nat) (pkt : List Byte) (h0 : s.canon) : (State.jlMedia s dev stream pkt).canon := by
  unfold State.jlMedia
  repeat' (with_reducible first | assumption | (intro _) | apply State.jlSend_canon | apply State.canon_hub | apply State.canon_mem | apply MemSt.canon_cells | apply Hub.canon_regs | apply Hub.canon_shadow | apply Hub.canon_hostMem | (simp only [State.canon_mk, Hub.canon_mk, MemSt.canon_mk]) | apply And.intro | split)
theorem State.jlCascade_canon (s : State) (dev chan p : Nat) (block : List Int) (h0 : s.canon) : (State.jlCascade s dev chan p block).canon := by
  unfold State.jlCascade
  repeat' (with_reducible first | assumption | (intro _) | apply State.jlSend_canon | apply State.canon_hub | apply State.canon_mem | apply MemSt.canon_cells | apply Hub.canon_regs | apply Hub.canon_shadow | apply Hub.canon_hostMem | (simp only [State.canon_mk, Hub.canon_mk, MemSt.canon_mk]) | apply And.intro | split)
theorem State.macsec_canon (s : State) (n p len : Nat) (h0 : s.canon) : (State.macsec s n p len).1.canon := by
  unfold State.macsec
  repeat' (with_reducible first | assumption | (intro _) | apply Hub.emit_canon | apply MemSt.poison_canon | apply State.cipher_canon | apply State.canon_hub | apply State.canon_mem | apply MemSt.canon_cells | apply Hub.canon_regs | apply Hub.canon_shadow | apply Hub.canon_hostMem | apply Hub.canon_if | apply State.canon_if | apply MemSt.canon_if | (simp only [State.canon_mk, Hub.canon_mk, MemSt.canon_mk]) | apply And.intro | split)
theorem State.startFrame_canon (s : State) (n : Nat) (q : EgrQueue) (h0 : s.canon) : (State.startFrame s n q).canon := by
  unfold State.startFrame
  repeat' (with_reducible first | assumption | (intro _) | apply Hub.emit_canon | apply Hub.err_canon | apply Hub.mark_canon | apply Hub.stat_canon | apply MemSt.err_canon | apply State.cipher_canon | apply State.departed_canon | apply State.dropOversize_canon | apply State.macsec_canon | apply State.setQueue_canon | apply State.canon_hub | apply State.canon_mem | apply MemSt.canon_cells | apply Hub.canon_regs | apply Hub.canon_shadow | apply Hub.canon_hostMem | apply Hub.canon_if | apply State.canon_if | apply MemSt.canon_if | (simp only [State.canon_mk, Hub.canon_mk, MemSt.canon_mk]) | apply And.intro | split)
theorem execEgressSchedule_canon (p : Nat) (s : State) (h0 : s.canon) : ∃ t, execEgressSchedule p s = .next t ∧ t.canon := by
  refine ⟨_, rfl, ?_⟩
  repeat' (with_reducible first | assumption | (intro _) | apply State.dropPort_canon | apply State.startFrame_canon | apply State.canon_hub | apply State.canon_mem | apply MemSt.canon_cells | apply Hub.canon_regs | apply Hub.canon_shadow | apply Hub.canon_hostMem | apply Hub.canon_if | apply State.canon_if | apply MemSt.canon_if | (simp only [State.canon_mk, Hub.canon_mk, MemSt.canon_mk]) | apply And.intro | split)

end Sys2Proof.Machine
end

