-- ==== Sys2Proof/Laws/State.lean ====
section
/-! SUPPORT. Registers and fields: reading after writing, what raising an event can change, and the fields each hub operation leaves. -/

namespace Sys2Proof.Machine

/-! ### Registers -/

theorem Hub.sorted {h : Hub} (c : h.canon) : kvSorted h.regs = true := by
  have := c.1
  simp only [regsWf, Bool.and_eq_true] at this
  exact this.1

theorem Hub.sortedShadow {h : Hub} (c : h.canon) : kvSorted h.shadow = true := by
  have := c.2.1
  simp only [regsWf, Bool.and_eq_true] at this
  exact this.1

theorem Hub.rd_congr {a b : Hub} (e : a.regs = b.regs) (k : Nat) : a.rd k = b.rd k := by
  unfold Hub.rd
  rw [e]

theorem Hub.rd_wr_self {h : Hub} (c : h.canon) (k : Nat) (v : Word) : (h.wr k v).rd k = v := kvRead_kvWrite_self _ _ _ _ (Hub.sorted c)

theorem Hub.rd_wr_ne {h : Hub} (c : h.canon) (k j : Nat) (v : Word) (hj : j ≠ k) : (h.wr k v).rd j = h.rd j :=
  kvRead_kvWrite_ne _ _ _ _ _ (Hub.sorted c) hj

theorem Hub.rdShadow_wrShadow_self {h : Hub} (c : h.canon) (k : Nat) (v : Word) : (h.wrShadow k v).rdShadow k = v :=
  kvRead_kvWrite_self _ _ _ _ (Hub.sortedShadow c)

theorem Hub.rdShadow_wrShadow_ne {h : Hub} (c : h.canon) (k j : Nat) (v : Word) (hj : j ≠ k) : (h.wrShadow k v).rdShadow j = h.rdShadow j :=
  kvRead_kvWrite_ne _ _ _ _ _ (Hub.sortedShadow c) hj

/-! ### Fields -/

theorem Fld.of_getLsbD (f : Fld) (w : Word) (i : Nat) : (f.of w).testBit i = (decide (i < f.width) && w.getLsbD (f.lo + i)) := by
  unfold Fld.of
  rw [Nat.testBit_mod_two_pow, Nat.testBit_div_two_pow, BitVec.getLsbD, Nat.add_comm]

theorem Fld.into_getLsbD (f : Fld) (w : Word) (v i : Nat) (h : i < 32) :
    (f.into w v).getLsbD i = if f.lo ≤ i ∧ i < f.lo + f.width then v.testBit (i - f.lo) else w.getLsbD i := by
  unfold Fld.into Fld.mask
  rw [BitVec.getLsbD_or, BitVec.getLsbD_and, BitVec.getLsbD_not, BitVec.getLsbD_ofNat, BitVec.getLsbD_ofNat]
  simp only [h, decide_true, Bool.true_and, Nat.testBit_mul_two_pow, Nat.testBit_mod_two_pow, Nat.testBit_two_pow_sub_one]
  by_cases h1 : f.lo ≤ i
  · by_cases h2 : i - f.lo < f.width
    · have : f.lo ≤ i ∧ i < f.lo + f.width := ⟨h1, by omega⟩
      simp [h1, h2, this]
    · rw [if_neg (by omega)]
      simp [h1, h2]
  · rw [if_neg (by omega)]
    simp [h1]

/-- Setting a field gives it the value, modulo its width. -/
theorem Fld.of_into_self (f : Fld) (w : Word) (v : Nat) (hf : f.lo + f.width ≤ 32) : f.of (f.into w v) = v % 2 ^ f.width := by
  apply Nat.eq_of_testBit_eq
  intro i
  rw [Fld.of_getLsbD, Nat.testBit_mod_two_pow]
  by_cases h : i < f.width
  · rw [Fld.into_getLsbD f w v _ (by omega), if_pos (by omega)]
    simp [h]
  · simp [h]

/-- Setting a field leaves another one of the register alone. -/
theorem Fld.of_into_ne (f g : Fld) (w : Word) (v : Nat) (hg : g.lo + g.width ≤ 32) (h : f.lo + f.width ≤ g.lo ∨ g.lo + g.width ≤ f.lo) :
    g.of (f.into w v) = g.of w := by
  apply Nat.eq_of_testBit_eq
  intro i
  rw [Fld.of_getLsbD, Fld.of_getLsbD]
  by_cases hi : i < g.width
  · rw [Fld.into_getLsbD f w v _ (by omega), if_neg (by omega)]
  · simp [hi]

theorem Fld.of_lt (f : Fld) (w : Word) : f.of w < 2 ^ f.width := Nat.mod_lt _ (Nat.two_pow_pos _)

theorem Hub.rd_set2_ne {h : Hub} (c : h.canon) (f : Fld) (i j v k : Nat) (hk : k ≠ f.off i j) : (h.set2 f i j v).rd k = h.rd k :=
  Hub.rd_wr_ne c _ _ _ hk

theorem Hub.get2_set2_self {h : Hub} (c : h.canon) (f : Fld) (i j v : Nat) (hf : f.lo + f.width ≤ 32) :
    (h.set2 f i j v).get2 f i j = v % 2 ^ f.width := by
  unfold Hub.get2 Hub.set2
  rw [Hub.rd_wr_self c, Fld.of_into_self f _ _ hf]

theorem Hub.get2_set2_field {h : Hub} (c : h.canon) (f g : Fld) (i j k l v : Nat) (ho : g.off k l = f.off i j) (hg : g.lo + g.width ≤ 32)
    (hd : f.lo + f.width ≤ g.lo ∨ g.lo + g.width ≤ f.lo) : (h.set2 f i j v).get2 g k l = h.get2 g k l := by
  unfold Hub.get2 Hub.set2
  rw [ho, Hub.rd_wr_self c, Fld.of_into_ne f g _ _ hg hd]

theorem Hub.get2_set2_ne {h : Hub} (c : h.canon) (f g : Fld) (i j k l v : Nat) (ho : g.off k l ≠ f.off i j) :
    (h.set2 f i j v).get2 g k l = h.get2 g k l := by
  unfold Hub.get2
  rw [Hub.rd_set2_ne c f i j v _ ho]

theorem Hub.get_set_self {h : Hub} (c : h.canon) (f : Fld) (v : Nat) (hf : f.lo + f.width ≤ 32) : (h.set f v).get f = v % 2 ^ f.width :=
  Hub.get2_set2_self c f 0 0 v hf

theorem Hub.get_set_field {h : Hub} (c : h.canon) (f g : Fld) (v : Nat) (ho : g.off 0 0 = f.off 0 0) (hg : g.lo + g.width ≤ 32)
    (hd : f.lo + f.width ≤ g.lo ∨ g.lo + g.width ≤ f.lo) : (h.set f v).get g = h.get g := Hub.get2_set2_field c f g 0 0 0 0 v ho hg hd

theorem Hub.get_set_ne {h : Hub} (c : h.canon) (f g : Fld) (v : Nat) (ho : g.off 0 0 ≠ f.off 0 0) : (h.set f v).get g = h.get g :=
  Hub.get2_set2_ne c f g 0 0 0 0 v ho

theorem Hub.get1_set1_self {h : Hub} (c : h.canon) (f : Fld) (i v : Nat) (hf : f.lo + f.width ≤ 32) : (h.set1 f i v).get1 f i = v % 2 ^ f.width :=
  Hub.get2_set2_self c f i 0 v hf

theorem Hub.get1_set1_field {h : Hub} (c : h.canon) (f g : Fld) (i v : Nat) (ho : g.off i 0 = f.off i 0) (hg : g.lo + g.width ≤ 32)
    (hd : f.lo + f.width ≤ g.lo ∨ g.lo + g.width ≤ f.lo) : (h.set1 f i v).get1 g i = h.get1 g i := Hub.get2_set2_field c f g i 0 i 0 v ho hg hd

theorem Hub.get_of_rd {a b : Hub} (f : Fld) (e : a.rd (f.off 0 0) = b.rd (f.off 0 0)) : a.get f = b.get f := by
  unfold Hub.get Hub.get2
  rw [e]

theorem Hub.get1_of_rd {a b : Hub} (f : Fld) (i : Nat) (e : a.rd (f.off i 0) = b.rd (f.off i 0)) : a.get1 f i = b.get1 f i := by
  unfold Hub.get1 Hub.get2
  rw [e]

/-! ### What an operation of the hub leaves -/

theorem Hub.emit_rd (h : Hub) (m : OutMsg) (k : Nat) : (h.emit m).rd k = h.rd k := Eq.trans rfl rfl
theorem Hub.emits_rd (h : Hub) (m : List OutMsg) (k : Nat) : (h.emits m).rd k = h.rd k := Eq.trans rfl rfl
theorem Hub.freeTick_rd (h : Hub) (k : Nat) : h.freeTick.rd k = h.rd k := Eq.trans rfl rfl
theorem Hub.msi_rd (h : Hub) (fn vec k : Nat) : (h.msi fn vec).rd k = h.rd k := by
  unfold Hub.msi
  split <;> exact Eq.trans rfl rfl
theorem Hub.hostWrite_rd (h : Hub) (a : Nat) (bs : List Byte) (k : Nat) : (h.hostWrite a bs).rd k = h.rd k := by
  unfold Hub.hostWrite
  split <;> exact Eq.trans rfl rfl

theorem Hub.route_rd (h : Hub) (fn block k : Nat) : (h.route fn block).rd k = h.rd k := by
  unfold Hub.route
  extract_lets w tgt
  split
  · exact Hub.msi_rd _ _ _ _
  · rfl

/-- The register at `k` is none of the event log's, nor the LCH block's EVT register. -/
abbrev offLog (k : Nat) : Prop := k % 0x4000000 ≠ 0x20020C ∧ k % 0x4000000 ≠ 0x200214 ∧ k ≠ 0x200080

theorem winKey_mod (fn off : Nat) (h : off < 0x4000000) : winKey fn off % 0x4000000 = off := by
  unfold winKey
  omega

theorem Hub.evtSet_rd {h : Hub} (c : h.canon) (code inst k : Nat) (hk : k ≠ evtOff code inst) : (h.evtSet code inst).rd k = h.rd k :=
  Hub.rd_wr_ne c _ _ _ hk

theorem Hub.logPut_regs (h : Hub) (fn lg : Nat) (rec : List Byte) : (h.logPut fn lg rec).regs =
    kvWrite regReset h.regs (winKey fn (LCH.LOG_PROD.PROD.off 0 0))
      (BitVec.ofNat 32 ((h.rd (winKey fn (LCH.LOG_PROD.PROD.off 0 0))).toNat + 1)) := by
  unfold Hub.logPut
  dsimp only

theorem Hub.logPut_rd {h : Hub} (c : h.canon) (fn lg : Nat) (rec : List Byte) (k : Nat) (hk : offLog k) : (h.logPut fn lg rec).rd k = h.rd k := by
  have hne : k ≠ winKey fn (LCH.LOG_PROD.PROD.off 0 0) := by
    intro e
    have := hk.1
    rw [e, winKey_mod _ _ (by decide)] at this
    exact this (by decide)
  unfold Hub.rd
  rw [Hub.logPut_regs, kvRead_kvWrite_ne _ _ _ _ _ (Hub.sorted c) hne]

theorem Hub.logLostFlush_regs (h : Hub) (fn : Nat) : (h.logLostFlush fn).regs = h.regs ∨
    ∃ lg n, (h.logLostFlush fn).regs = (h.logPut fn lg (lostRecord h n)).regs := by
  unfold Hub.logLostFlush
  split
  · rename_i lg n _ _
    dsimp only
    split
    · exact .inr ⟨lg, n, by dsimp only⟩
    · exact .inl rfl
  · exact .inl rfl

theorem Hub.logLostFlush_rd {h : Hub} (c : h.canon) (fn k : Nat) (hk : offLog k) : (h.logLostFlush fn).rd k = h.rd k := by
  rcases Hub.logLostFlush_regs h fn with e | ⟨lg, n, e⟩
  · exact Hub.rd_congr e k
  · exact (Hub.rd_congr e k).trans (Hub.logPut_rd c _ _ _ _ hk)

theorem Hub.logDrop_rd {h : Hub} (c : h.canon) (fn k : Nat) (hk : offLog k) : (h.logDrop fn).rd k = h.rd k := by
  unfold Hub.logDrop
  extract_lets n kk cc h1 h2
  have c1 : h1.canon := c
  have e1 : h1.rd k = h.rd k := rfl
  clear_value h1
  have hne : k ≠ kk := by
    intro e
    have := hk.2.1
    rw [e, winKey_mod _ _ (by decide)] at this
    exact this (by decide)
  have c2 : h2.canon := by
    simp only [h2]
    split
    · exact c1
    · exact Hub.wr_canon _ _ _ c1
  have e2 : h2.rd k = h.rd k := by
    simp only [h2]
    split
    · exact e1
    · rw [Hub.rd_wr_ne c1 _ _ _ hne, e1]
  clear_value h2
  have hev : k ≠ evtOff 0x0508 0 := hk.2.2
  split
  · split
    · rw [Hub.route_rd, Hub.evtSet_rd c2 _ _ _ hev, e2]
    · rw [Hub.evtSet_rd c2 _ _ _ hev, e2]
  · exact e2

/-- Placing a record, or dropping it, changes no register but the log's own (R94). -/
theorem Hub.logPlace_rd {h : Hub} (c : h.canon) (fn : Nat) (ev : Ev) (sec ns k : Nat) (hk : offLog k) :
    (h.logPlace fn ev sec ns).rd k = h.rd k := by
  unfold Hub.logPlace
  split
  · exact Hub.logDrop_rd c _ _ hk
  · extract_lets used
    split
    · rw [Hub.logPut_rd (Hub.logLostFlush_canon _ _ c) _ _ _ _ hk, Hub.logLostFlush_rd c _ _ hk]
    · exact Hub.logDrop_rd c _ _ hk

theorem Hub.lchStuck_rd {h : Hub} (c : h.canon) (k : Nat) (hk : offLog k) : h.lchStuck.rd k = h.rd k := by
  unfold Hub.lchStuck
  extract_lets h1
  have c1 : h1.canon := Hub.evtSet_canon _ _ _ c
  have e1 : h1.rd k = h.rd k := Hub.evtSet_rd c _ _ _ (show k ≠ evtOff 0x0509 0 from hk.2.2)
  clear_value h1
  split
  · rw [Hub.route_rd, Hub.logPlace_rd c1 _ _ _ _ _ hk, e1]
  · exact e1

theorem Hub.logAppend_rd {h : Hub} (c : h.canon) (fn : Nat) (ev : Ev) (sec ns k : Nat) (hk : offLog k) :
    (h.logAppend fn ev sec ns).rd k = h.rd k := by
  unfold Hub.logAppend
  extract_lets h1
  have c1 : h1.canon := Hub.route_canon _ _ _ (Hub.logPlace_canon _ _ _ _ _ c)
  have e1 : h1.rd k = h.rd k := by
    simp only [h1]
    rw [Hub.route_rd, Hub.logPlace_rd c _ _ _ _ _ hk]
  clear_value h1
  split
  · rw [Hub.lchStuck_rd c1 _ hk, e1]
  · exact e1

theorem Hub.record_rd {h : Hub} (c : h.canon) (ev : Ev) (sec ns k : Nat) (hk : offLog k) : (h.record ev sec ns).rd k = h.rd k := by
  unfold Hub.record
  extract_lets h1 v
  have c1 : h1.canon := Hub.logAppend_canon _ _ _ _ _ c
  have e1 : h1.rd k = h.rd k := Hub.logAppend_rd c _ _ _ _ _ hk
  clear_value h1
  split
  · exact e1
  · rw [Hub.logAppend_rd c1 _ _ _ _ _ hk, e1]

/-- Raising an event changes no register but its EVT register and those of the event logs (R93, R94). -/
theorem Hub.raise_rd {h : Hub} (c : h.canon) (ev : Ev) (k : Nat) (he : k ≠ evtOff ev.code ev.inst) (hk : offLog k) : (h.raise ev).rd k = h.rd k := by
  unfold Hub.raise
  split
  · split
    · rw [Hub.record_rd (Hub.evtSet_canon _ _ _ c) _ _ _ _ hk, Hub.evtSet_rd c _ _ _ he]
    · exact Hub.evtSet_rd c _ _ _ he
  · rfl

theorem Hub.raiseRl_rd {h : Hub} (c : h.canon) (ev : Ev) (k : Nat) (he : k ≠ evtOff ev.code ev.inst) : (h.raiseRl ev).rd k = h.rd k := by
  unfold Hub.raiseRl
  split
  · extract_lets h1
    have e1 : h1.rd k = h.rd k := Hub.evtSet_rd c _ _ _ he
    clear_value h1
    split
    · exact Eq.trans rfl e1
    · exact Eq.trans rfl e1
  · rfl

/-- The same of one field. -/
theorem Hub.raise_get {h : Hub} (c : h.canon) (ev : Ev) (f : Fld) (code inst : Nat) (e1 : ev.code = code) (e2 : ev.inst = inst)
    (he : f.off 0 0 ≠ evtOff code inst) (hk : offLog (f.off 0 0)) : (h.raise ev).get f = h.get f :=
  Hub.get_of_rd f (Hub.raise_rd c ev _ (by rw [e1, e2]; exact he) hk)

/-- An error counter below its end counts up by one (R95). -/
theorem Hub.err_rd_self {h : Hub} (c : h.canon) (f : Fld) (i stuck inst : Nat) (h1 : h.rd (f.off i 0) ≠ BitVec.allOnes 32)
    (he : f.off i 0 ≠ evtOff stuck inst) (hk : offLog (f.off i 0)) : (h.err f i stuck inst).rd (f.off i 0) = h.rd (f.off i 0) + 1 := by
  unfold Hub.err Hub.err2
  extract_lets v
  rw [if_neg h1]
  split
  · rw [Hub.raise_rd (Hub.wr_canon _ _ _ c) _ _ he hk, Hub.rd_wr_self c]
  · rw [Hub.rd_wr_self c]

/-- At its end it stays there (R95). -/
theorem Hub.err_stuck (h : Hub) (f : Fld) (i stuck inst : Nat) (h1 : h.rd (f.off i 0) = BitVec.allOnes 32) : h.err f i stuck inst = h := by
  unfold Hub.err Hub.err2
  extract_lets v
  rw [if_pos h1]

/-- Counting changes no other register but the block's EVT register and the event logs. -/
theorem Hub.err_rd_ne {h : Hub} (c : h.canon) (f : Fld) (i stuck inst k : Nat) (h1 : k ≠ f.off i 0) (he : k ≠ evtOff stuck inst) (hk : offLog k) :
    (h.err f i stuck inst).rd k = h.rd k := by
  unfold Hub.err Hub.err2
  extract_lets v
  split
  · rfl
  · split
    · rw [Hub.raise_rd (Hub.wr_canon _ _ _ c) _ _ he hk, Hub.rd_wr_ne c _ _ _ h1]
    · rw [Hub.rd_wr_ne c _ _ _ h1]

/-- A present block's event sets its EVT bit (R93), where the log does not stand in the same register. -/
theorem Hub.raise_evt {h : Hub} (c : h.canon) (ev : Ev) (hp : h.evtPresent ev.code ev.inst = true) (hb : evtBit ev.code < 32)
    (hk : offLog (evtOff ev.code ev.inst)) : ((h.raise ev).rd (evtOff ev.code ev.inst)).getLsbD (evtBit ev.code) = true := by
  have base : ((h.evtSet ev.code ev.inst).rd (evtOff ev.code ev.inst)).getLsbD (evtBit ev.code) = true := by
    unfold Hub.evtSet
    rw [Hub.rd_wr_self c, BitVec.getLsbD_or, BitVec.getLsbD_ofNat]
    simp [hb, Nat.testBit_two_pow_self]
  unfold Hub.raise
  rw [if_pos hp]
  split
  · rw [Hub.record_rd (Hub.evtSet_canon _ _ _ c) _ _ _ _ hk]
    exact base
  · exact base

/-! ### The time increment (R309) -/

theorem clampIncr_eq (v : Nat) : clampIncr v = min (max v incrMin) incrMax := rfl
theorem State.incrSet_incr (s : State) (v : Nat) : (s.incrSet v).tim.incr = v := Eq.trans rfl rfl
theorem State.incrSet_hub (s : State) (v : Nat) :
    (s.incrSet v).hub = (s.hub.wr 0x1B00020 (BitVec.ofNat 32 v)).wr 0x1B00024 (BitVec.ofNat 32 (v / 2 ^ 32)) := by
  unfold State.incrSet
  rfl

/-! ### One field after one update -/

@[simp] theorem Hub.wr_shadow (h : Hub) (k : Nat) (v : Word) : (h.wr k v).shadow = h.shadow := rfl
@[simp] theorem Hub.wr_pub (h : Hub) (k : Nat) (v : Word) : (h.wr k v).pub = h.pub := rfl
@[simp] theorem Hub.wr_captured (h : Hub) (k : Nat) (v : Word) : (h.wr k v).captured = h.captured := rfl
@[simp] theorem Hub.wr_time (h : Hub) (k : Nat) (v : Word) : (h.wr k v).time = h.time := rfl
@[simp] theorem Hub.wr_ticks (h : Hub) (k : Nat) (v : Word) : (h.wr k v).ticks = h.ticks := rfl
@[simp] theorem Hub.wr_bar (h : Hub) (k : Nat) (v : Word) : (h.wr k v).bar = h.bar := rfl
@[simp] theorem Hub.wr_rl (h : Hub) (k : Nat) (v : Word) : (h.wr k v).rl = h.rl := rfl
@[simp] theorem Hub.wr_msiFired (h : Hub) (k : Nat) (v : Word) : (h.wr k v).msiFired = h.msiFired := rfl
@[simp] theorem Hub.wr_msiPend (h : Hub) (k : Nat) (v : Word) : (h.wr k v).msiPend = h.msiPend := rfl
@[simp] theorem Hub.wr_logDropped (h : Hub) (k : Nat) (v : Word) : (h.wr k v).logDropped = h.logDropped := rfl
@[simp] theorem Hub.wr_numVfs (h : Hub) (k : Nat) (v : Word) : (h.wr k v).numVfs = h.numVfs := rfl
@[simp] theorem Hub.wr_fifos (h : Hub) (k : Nat) (v : Word) : (h.wr k v).fifos = h.fifos := rfl
@[simp] theorem Hub.wr_cmds (h : Hub) (k : Nat) (v : Word) : (h.wr k v).cmds = h.cmds := rfl
@[simp] theorem Hub.wr_posted (h : Hub) (k : Nat) (v : Word) : (h.wr k v).posted = h.posted := rfl
@[simp] theorem Hub.wr_orphans (h : Hub) (k : Nat) (v : Word) : (h.wr k v).orphans = h.orphans := rfl
@[simp] theorem Hub.wr_qpFired (h : Hub) (k : Nat) (v : Word) : (h.wr k v).qpFired = h.qpFired := rfl
@[simp] theorem Hub.wr_qpPend (h : Hub) (k : Nat) (v : Word) : (h.wr k v).qpPend = h.qpPend := rfl
@[simp] theorem Hub.wr_hostMem (h : Hub) (k : Nat) (v : Word) : (h.wr k v).hostMem = h.hostMem := rfl
@[simp] theorem Hub.wr_heldDb (h : Hub) (k : Nat) (v : Word) : (h.wr k v).heldDb = h.heldDb := rfl
@[simp] theorem Hub.wr_linkLost (h : Hub) (k : Nat) (v : Word) : (h.wr k v).linkLost = h.linkLost := rfl
@[simp] theorem Hub.wr_pcieDown (h : Hub) (k : Nat) (v : Word) : (h.wr k v).pcieDown = h.pcieDown := rfl
@[simp] theorem Hub.wr_pcieDiscards (h : Hub) (k : Nat) (v : Word) : (h.wr k v).pcieDiscards = h.pcieDiscards := rfl
@[simp] theorem Hub.wr_out (h : Hub) (k : Nat) (v : Word) : (h.wr k v).out = h.out := rfl
@[simp] theorem Hub.wr_free (h : Hub) (k : Nat) (v : Word) : (h.wr k v).free = h.free := rfl
@[simp] theorem Hub.wrShadow_regs (h : Hub) (k : Nat) (v : Word) : (h.wrShadow k v).regs = h.regs := rfl
@[simp] theorem Hub.wrShadow_pub (h : Hub) (k : Nat) (v : Word) : (h.wrShadow k v).pub = h.pub := rfl
@[simp] theorem Hub.wrShadow_captured (h : Hub) (k : Nat) (v : Word) : (h.wrShadow k v).captured = h.captured := rfl
@[simp] theorem Hub.wrShadow_time (h : Hub) (k : Nat) (v : Word) : (h.wrShadow k v).time = h.time := rfl
@[simp] theorem Hub.wrShadow_ticks (h : Hub) (k : Nat) (v : Word) : (h.wrShadow k v).ticks = h.ticks := rfl
@[simp] theorem Hub.wrShadow_bar (h : Hub) (k : Nat) (v : Word) : (h.wrShadow k v).bar = h.bar := rfl
@[simp] theorem Hub.wrShadow_rl (h : Hub) (k : Nat) (v : Word) : (h.wrShadow k v).rl = h.rl := rfl
@[simp] theorem Hub.wrShadow_msiFired (h : Hub) (k : Nat) (v : Word) : (h.wrShadow k v).msiFired = h.msiFired := rfl
@[simp] theorem Hub.wrShadow_msiPend (h : Hub) (k : Nat) (v : Word) : (h.wrShadow k v).msiPend = h.msiPend := rfl
@[simp] theorem Hub.wrShadow_logDropped (h : Hub) (k : Nat) (v : Word) : (h.wrShadow k v).logDropped = h.logDropped := rfl
@[simp] theorem Hub.wrShadow_numVfs (h : Hub) (k : Nat) (v : Word) : (h.wrShadow k v).numVfs = h.numVfs := rfl
@[simp] theorem Hub.wrShadow_fifos (h : Hub) (k : Nat) (v : Word) : (h.wrShadow k v).fifos = h.fifos := rfl
@[simp] theorem Hub.wrShadow_cmds (h : Hub) (k : Nat) (v : Word) : (h.wrShadow k v).cmds = h.cmds := rfl
@[simp] theorem Hub.wrShadow_posted (h : Hub) (k : Nat) (v : Word) : (h.wrShadow k v).posted = h.posted := rfl
@[simp] theorem Hub.wrShadow_orphans (h : Hub) (k : Nat) (v : Word) : (h.wrShadow k v).orphans = h.orphans := rfl
@[simp] theorem Hub.wrShadow_qpFired (h : Hub) (k : Nat) (v : Word) : (h.wrShadow k v).qpFired = h.qpFired := rfl
@[simp] theorem Hub.wrShadow_qpPend (h : Hub) (k : Nat) (v : Word) : (h.wrShadow k v).qpPend = h.qpPend := rfl
@[simp] theorem Hub.wrShadow_hostMem (h : Hub) (k : Nat) (v : Word) : (h.wrShadow k v).hostMem = h.hostMem := rfl
@[simp] theorem Hub.wrShadow_heldDb (h : Hub) (k : Nat) (v : Word) : (h.wrShadow k v).heldDb = h.heldDb := rfl
@[simp] theorem Hub.wrShadow_linkLost (h : Hub) (k : Nat) (v : Word) : (h.wrShadow k v).linkLost = h.linkLost := rfl
@[simp] theorem Hub.wrShadow_pcieDown (h : Hub) (k : Nat) (v : Word) : (h.wrShadow k v).pcieDown = h.pcieDown := rfl
@[simp] theorem Hub.wrShadow_pcieDiscards (h : Hub) (k : Nat) (v : Word) : (h.wrShadow k v).pcieDiscards = h.pcieDiscards := rfl
@[simp] theorem Hub.wrShadow_out (h : Hub) (k : Nat) (v : Word) : (h.wrShadow k v).out = h.out := rfl
@[simp] theorem Hub.wrShadow_free (h : Hub) (k : Nat) (v : Word) : (h.wrShadow k v).free = h.free := rfl
@[simp] theorem Hub.emit_regs (h : Hub) (m : OutMsg) : (h.emit m).regs = h.regs := rfl
@[simp] theorem Hub.emit_shadow (h : Hub) (m : OutMsg) : (h.emit m).shadow = h.shadow := rfl
@[simp] theorem Hub.emit_pub (h : Hub) (m : OutMsg) : (h.emit m).pub = h.pub := rfl
@[simp] theorem Hub.emit_captured (h : Hub) (m : OutMsg) : (h.emit m).captured = h.captured := rfl
@[simp] theorem Hub.emit_time (h : Hub) (m : OutMsg) : (h.emit m).time = h.time := rfl
@[simp] theorem Hub.emit_ticks (h : Hub) (m : OutMsg) : (h.emit m).ticks = h.ticks := rfl
@[simp] theorem Hub.emit_bar (h : Hub) (m : OutMsg) : (h.emit m).bar = h.bar := rfl
@[simp] theorem Hub.emit_rl (h : Hub) (m : OutMsg) : (h.emit m).rl = h.rl := rfl
@[simp] theorem Hub.emit_msiFired (h : Hub) (m : OutMsg) : (h.emit m).msiFired = h.msiFired := rfl
@[simp] theorem Hub.emit_msiPend (h : Hub) (m : OutMsg) : (h.emit m).msiPend = h.msiPend := rfl
@[simp] theorem Hub.emit_logDropped (h : Hub) (m : OutMsg) : (h.emit m).logDropped = h.logDropped := rfl
@[simp] theorem Hub.emit_numVfs (h : Hub) (m : OutMsg) : (h.emit m).numVfs = h.numVfs := rfl
@[simp] theorem Hub.emit_fifos (h : Hub) (m : OutMsg) : (h.emit m).fifos = h.fifos := rfl
@[simp] theorem Hub.emit_cmds (h : Hub) (m : OutMsg) : (h.emit m).cmds = h.cmds := rfl
@[simp] theorem Hub.emit_posted (h : Hub) (m : OutMsg) : (h.emit m).posted = h.posted := rfl
@[simp] theorem Hub.emit_orphans (h : Hub) (m : OutMsg) : (h.emit m).orphans = h.orphans := rfl
@[simp] theorem Hub.emit_qpFired (h : Hub) (m : OutMsg) : (h.emit m).qpFired = h.qpFired := rfl
@[simp] theorem Hub.emit_qpPend (h : Hub) (m : OutMsg) : (h.emit m).qpPend = h.qpPend := rfl
@[simp] theorem Hub.emit_hostMem (h : Hub) (m : OutMsg) : (h.emit m).hostMem = h.hostMem := rfl
@[simp] theorem Hub.emit_heldDb (h : Hub) (m : OutMsg) : (h.emit m).heldDb = h.heldDb := rfl
@[simp] theorem Hub.emit_linkLost (h : Hub) (m : OutMsg) : (h.emit m).linkLost = h.linkLost := rfl
@[simp] theorem Hub.emit_pcieDown (h : Hub) (m : OutMsg) : (h.emit m).pcieDown = h.pcieDown := rfl
@[simp] theorem Hub.emit_pcieDiscards (h : Hub) (m : OutMsg) : (h.emit m).pcieDiscards = h.pcieDiscards := rfl
@[simp] theorem Hub.emit_free (h : Hub) (m : OutMsg) : (h.emit m).free = h.free := rfl
@[simp] theorem Hub.emits_regs (h : Hub) (m : List OutMsg) : (h.emits m).regs = h.regs := rfl
@[simp] theorem Hub.emits_shadow (h : Hub) (m : List OutMsg) : (h.emits m).shadow = h.shadow := rfl
@[simp] theorem Hub.emits_pub (h : Hub) (m : List OutMsg) : (h.emits m).pub = h.pub := rfl
@[simp] theorem Hub.emits_captured (h : Hub) (m : List OutMsg) : (h.emits m).captured = h.captured := rfl
@[simp] theorem Hub.emits_time (h : Hub) (m : List OutMsg) : (h.emits m).time = h.time := rfl
@[simp] theorem Hub.emits_ticks (h : Hub) (m : List OutMsg) : (h.emits m).ticks = h.ticks := rfl
@[simp] theorem Hub.emits_bar (h : Hub) (m : List OutMsg) : (h.emits m).bar = h.bar := rfl
@[simp] theorem Hub.emits_rl (h : Hub) (m : List OutMsg) : (h.emits m).rl = h.rl := rfl
@[simp] theorem Hub.emits_msiFired (h : Hub) (m : List OutMsg) : (h.emits m).msiFired = h.msiFired := rfl
@[simp] theorem Hub.emits_msiPend (h : Hub) (m : List OutMsg) : (h.emits m).msiPend = h.msiPend := rfl
@[simp] theorem Hub.emits_logDropped (h : Hub) (m : List OutMsg) : (h.emits m).logDropped = h.logDropped := rfl
@[simp] theorem Hub.emits_numVfs (h : Hub) (m : List OutMsg) : (h.emits m).numVfs = h.numVfs := rfl
@[simp] theorem Hub.emits_fifos (h : Hub) (m : List OutMsg) : (h.emits m).fifos = h.fifos := rfl
@[simp] theorem Hub.emits_cmds (h : Hub) (m : List OutMsg) : (h.emits m).cmds = h.cmds := rfl
@[simp] theorem Hub.emits_posted (h : Hub) (m : List OutMsg) : (h.emits m).posted = h.posted := rfl
@[simp] theorem Hub.emits_orphans (h : Hub) (m : List OutMsg) : (h.emits m).orphans = h.orphans := rfl
@[simp] theorem Hub.emits_qpFired (h : Hub) (m : List OutMsg) : (h.emits m).qpFired = h.qpFired := rfl
@[simp] theorem Hub.emits_qpPend (h : Hub) (m : List OutMsg) : (h.emits m).qpPend = h.qpPend := rfl
@[simp] theorem Hub.emits_hostMem (h : Hub) (m : List OutMsg) : (h.emits m).hostMem = h.hostMem := rfl
@[simp] theorem Hub.emits_heldDb (h : Hub) (m : List OutMsg) : (h.emits m).heldDb = h.heldDb := rfl
@[simp] theorem Hub.emits_linkLost (h : Hub) (m : List OutMsg) : (h.emits m).linkLost = h.linkLost := rfl
@[simp] theorem Hub.emits_pcieDown (h : Hub) (m : List OutMsg) : (h.emits m).pcieDown = h.pcieDown := rfl
@[simp] theorem Hub.emits_pcieDiscards (h : Hub) (m : List OutMsg) : (h.emits m).pcieDiscards = h.pcieDiscards := rfl
@[simp] theorem Hub.emits_free (h : Hub) (m : List OutMsg) : (h.emits m).free = h.free := rfl
@[simp] theorem Hub.freeTick_regs (h : Hub) : (h.freeTick).regs = h.regs := rfl
@[simp] theorem Hub.freeTick_shadow (h : Hub) : (h.freeTick).shadow = h.shadow := rfl
@[simp] theorem Hub.freeTick_pub (h : Hub) : (h.freeTick).pub = h.pub := rfl
@[simp] theorem Hub.freeTick_captured (h : Hub) : (h.freeTick).captured = h.captured := rfl
@[simp] theorem Hub.freeTick_time (h : Hub) : (h.freeTick).time = h.time := rfl
@[simp] theorem Hub.freeTick_ticks (h : Hub) : (h.freeTick).ticks = h.ticks := rfl
@[simp] theorem Hub.freeTick_bar (h : Hub) : (h.freeTick).bar = h.bar := rfl
@[simp] theorem Hub.freeTick_rl (h : Hub) : (h.freeTick).rl = h.rl := rfl
@[simp] theorem Hub.freeTick_msiFired (h : Hub) : (h.freeTick).msiFired = h.msiFired := rfl
@[simp] theorem Hub.freeTick_msiPend (h : Hub) : (h.freeTick).msiPend = h.msiPend := rfl
@[simp] theorem Hub.freeTick_logDropped (h : Hub) : (h.freeTick).logDropped = h.logDropped := rfl
@[simp] theorem Hub.freeTick_numVfs (h : Hub) : (h.freeTick).numVfs = h.numVfs := rfl
@[simp] theorem Hub.freeTick_fifos (h : Hub) : (h.freeTick).fifos = h.fifos := rfl
@[simp] theorem Hub.freeTick_cmds (h : Hub) : (h.freeTick).cmds = h.cmds := rfl
@[simp] theorem Hub.freeTick_posted (h : Hub) : (h.freeTick).posted = h.posted := rfl
@[simp] theorem Hub.freeTick_orphans (h : Hub) : (h.freeTick).orphans = h.orphans := rfl
@[simp] theorem Hub.freeTick_qpFired (h : Hub) : (h.freeTick).qpFired = h.qpFired := rfl
@[simp] theorem Hub.freeTick_qpPend (h : Hub) : (h.freeTick).qpPend = h.qpPend := rfl
@[simp] theorem Hub.freeTick_hostMem (h : Hub) : (h.freeTick).hostMem = h.hostMem := rfl
@[simp] theorem Hub.freeTick_heldDb (h : Hub) : (h.freeTick).heldDb = h.heldDb := rfl
@[simp] theorem Hub.freeTick_linkLost (h : Hub) : (h.freeTick).linkLost = h.linkLost := rfl
@[simp] theorem Hub.freeTick_pcieDown (h : Hub) : (h.freeTick).pcieDown = h.pcieDown := rfl
@[simp] theorem Hub.freeTick_pcieDiscards (h : Hub) : (h.freeTick).pcieDiscards = h.pcieDiscards := rfl
@[simp] theorem Hub.freeTick_out (h : Hub) : (h.freeTick).out = h.out := rfl
@[simp] theorem Hub.setFifo_regs (h : Hub) (n : Nat) (f : Fifo) : (h.setFifo n f).regs = h.regs := rfl
@[simp] theorem Hub.setFifo_shadow (h : Hub) (n : Nat) (f : Fifo) : (h.setFifo n f).shadow = h.shadow := rfl
@[simp] theorem Hub.setFifo_pub (h : Hub) (n : Nat) (f : Fifo) : (h.setFifo n f).pub = h.pub := rfl
@[simp] theorem Hub.setFifo_captured (h : Hub) (n : Nat) (f : Fifo) : (h.setFifo n f).captured = h.captured := rfl
@[simp] theorem Hub.setFifo_time (h : Hub) (n : Nat) (f : Fifo) : (h.setFifo n f).time = h.time := rfl
@[simp] theorem Hub.setFifo_ticks (h : Hub) (n : Nat) (f : Fifo) : (h.setFifo n f).ticks = h.ticks := rfl
@[simp] theorem Hub.setFifo_bar (h : Hub) (n : Nat) (f : Fifo) : (h.setFifo n f).bar = h.bar := rfl
@[simp] theorem Hub.setFifo_rl (h : Hub) (n : Nat) (f : Fifo) : (h.setFifo n f).rl = h.rl := rfl
@[simp] theorem Hub.setFifo_msiFired (h : Hub) (n : Nat) (f : Fifo) : (h.setFifo n f).msiFired = h.msiFired := rfl
@[simp] theorem Hub.setFifo_msiPend (h : Hub) (n : Nat) (f : Fifo) : (h.setFifo n f).msiPend = h.msiPend := rfl
@[simp] theorem Hub.setFifo_logDropped (h : Hub) (n : Nat) (f : Fifo) : (h.setFifo n f).logDropped = h.logDropped := rfl
@[simp] theorem Hub.setFifo_numVfs (h : Hub) (n : Nat) (f : Fifo) : (h.setFifo n f).numVfs = h.numVfs := rfl
@[simp] theorem Hub.setFifo_cmds (h : Hub) (n : Nat) (f : Fifo) : (h.setFifo n f).cmds = h.cmds := rfl
@[simp] theorem Hub.setFifo_posted (h : Hub) (n : Nat) (f : Fifo) : (h.setFifo n f).posted = h.posted := rfl
@[simp] theorem Hub.setFifo_orphans (h : Hub) (n : Nat) (f : Fifo) : (h.setFifo n f).orphans = h.orphans := rfl
@[simp] theorem Hub.setFifo_qpFired (h : Hub) (n : Nat) (f : Fifo) : (h.setFifo n f).qpFired = h.qpFired := rfl
@[simp] theorem Hub.setFifo_qpPend (h : Hub) (n : Nat) (f : Fifo) : (h.setFifo n f).qpPend = h.qpPend := rfl
@[simp] theorem Hub.setFifo_hostMem (h : Hub) (n : Nat) (f : Fifo) : (h.setFifo n f).hostMem = h.hostMem := rfl
@[simp] theorem Hub.setFifo_heldDb (h : Hub) (n : Nat) (f : Fifo) : (h.setFifo n f).heldDb = h.heldDb := rfl
@[simp] theorem Hub.setFifo_linkLost (h : Hub) (n : Nat) (f : Fifo) : (h.setFifo n f).linkLost = h.linkLost := rfl
@[simp] theorem Hub.setFifo_pcieDown (h : Hub) (n : Nat) (f : Fifo) : (h.setFifo n f).pcieDown = h.pcieDown := rfl
@[simp] theorem Hub.setFifo_pcieDiscards (h : Hub) (n : Nat) (f : Fifo) : (h.setFifo n f).pcieDiscards = h.pcieDiscards := rfl
@[simp] theorem Hub.setFifo_out (h : Hub) (n : Nat) (f : Fifo) : (h.setFifo n f).out = h.out := rfl
@[simp] theorem Hub.setFifo_free (h : Hub) (n : Nat) (f : Fifo) : (h.setFifo n f).free = h.free := rfl
@[simp] theorem Hub.set2_shadow (h : Hub) (f : Fld) (i j v : Nat) : (h.set2 f i j v).shadow = h.shadow := rfl
@[simp] theorem Hub.set2_pub (h : Hub) (f : Fld) (i j v : Nat) : (h.set2 f i j v).pub = h.pub := rfl
@[simp] theorem Hub.set2_captured (h : Hub) (f : Fld) (i j v : Nat) : (h.set2 f i j v).captured = h.captured := rfl
@[simp] theorem Hub.set2_time (h : Hub) (f : Fld) (i j v : Nat) : (h.set2 f i j v).time = h.time := rfl
@[simp] theorem Hub.set2_ticks (h : Hub) (f : Fld) (i j v : Nat) : (h.set2 f i j v).ticks = h.ticks := rfl
@[simp] theorem Hub.set2_bar (h : Hub) (f : Fld) (i j v : Nat) : (h.set2 f i j v).bar = h.bar := rfl
@[simp] theorem Hub.set2_rl (h : Hub) (f : Fld) (i j v : Nat) : (h.set2 f i j v).rl = h.rl := rfl
@[simp] theorem Hub.set2_msiFired (h : Hub) (f : Fld) (i j v : Nat) : (h.set2 f i j v).msiFired = h.msiFired := rfl
@[simp] theorem Hub.set2_msiPend (h : Hub) (f : Fld) (i j v : Nat) : (h.set2 f i j v).msiPend = h.msiPend := rfl
@[simp] theorem Hub.set2_logDropped (h : Hub) (f : Fld) (i j v : Nat) : (h.set2 f i j v).logDropped = h.logDropped := rfl
@[simp] theorem Hub.set2_numVfs (h : Hub) (f : Fld) (i j v : Nat) : (h.set2 f i j v).numVfs = h.numVfs := rfl
@[simp] theorem Hub.set2_fifos (h : Hub) (f : Fld) (i j v : Nat) : (h.set2 f i j v).fifos = h.fifos := rfl
@[simp] theorem Hub.set2_cmds (h : Hub) (f : Fld) (i j v : Nat) : (h.set2 f i j v).cmds = h.cmds := rfl
@[simp] theorem Hub.set2_posted (h : Hub) (f : Fld) (i j v : Nat) : (h.set2 f i j v).posted = h.posted := rfl
@[simp] theorem Hub.set2_orphans (h : Hub) (f : Fld) (i j v : Nat) : (h.set2 f i j v).orphans = h.orphans := rfl
@[simp] theorem Hub.set2_qpFired (h : Hub) (f : Fld) (i j v : Nat) : (h.set2 f i j v).qpFired = h.qpFired := rfl
@[simp] theorem Hub.set2_qpPend (h : Hub) (f : Fld) (i j v : Nat) : (h.set2 f i j v).qpPend = h.qpPend := rfl
@[simp] theorem Hub.set2_hostMem (h : Hub) (f : Fld) (i j v : Nat) : (h.set2 f i j v).hostMem = h.hostMem := rfl
@[simp] theorem Hub.set2_heldDb (h : Hub) (f : Fld) (i j v : Nat) : (h.set2 f i j v).heldDb = h.heldDb := rfl
@[simp] theorem Hub.set2_linkLost (h : Hub) (f : Fld) (i j v : Nat) : (h.set2 f i j v).linkLost = h.linkLost := rfl
@[simp] theorem Hub.set2_pcieDown (h : Hub) (f : Fld) (i j v : Nat) : (h.set2 f i j v).pcieDown = h.pcieDown := rfl
@[simp] theorem Hub.set2_pcieDiscards (h : Hub) (f : Fld) (i j v : Nat) : (h.set2 f i j v).pcieDiscards = h.pcieDiscards := rfl
@[simp] theorem Hub.set2_out (h : Hub) (f : Fld) (i j v : Nat) : (h.set2 f i j v).out = h.out := rfl
@[simp] theorem Hub.set2_free (h : Hub) (f : Fld) (i j v : Nat) : (h.set2 f i j v).free = h.free := rfl
@[simp] theorem Hub.set1_shadow (h : Hub) (f : Fld) (i v : Nat) : (h.set1 f i v).shadow = h.shadow := rfl
@[simp] theorem Hub.set1_pub (h : Hub) (f : Fld) (i v : Nat) : (h.set1 f i v).pub = h.pub := rfl
@[simp] theorem Hub.set1_captured (h : Hub) (f : Fld) (i v : Nat) : (h.set1 f i v).captured = h.captured := rfl
@[simp] theorem Hub.set1_time (h : Hub) (f : Fld) (i v : Nat) : (h.set1 f i v).time = h.time := rfl
@[simp] theorem Hub.set1_ticks (h : Hub) (f : Fld) (i v : Nat) : (h.set1 f i v).ticks = h.ticks := rfl
@[simp] theorem Hub.set1_bar (h : Hub) (f : Fld) (i v : Nat) : (h.set1 f i v).bar = h.bar := rfl
@[simp] theorem Hub.set1_rl (h : Hub) (f : Fld) (i v : Nat) : (h.set1 f i v).rl = h.rl := rfl
@[simp] theorem Hub.set1_msiFired (h : Hub) (f : Fld) (i v : Nat) : (h.set1 f i v).msiFired = h.msiFired := rfl
@[simp] theorem Hub.set1_msiPend (h : Hub) (f : Fld) (i v : Nat) : (h.set1 f i v).msiPend = h.msiPend := rfl
@[simp] theorem Hub.set1_logDropped (h : Hub) (f : Fld) (i v : Nat) : (h.set1 f i v).logDropped = h.logDropped := rfl
@[simp] theorem Hub.set1_numVfs (h : Hub) (f : Fld) (i v : Nat) : (h.set1 f i v).numVfs = h.numVfs := rfl
@[simp] theorem Hub.set1_fifos (h : Hub) (f : Fld) (i v : Nat) : (h.set1 f i v).fifos = h.fifos := rfl
@[simp] theorem Hub.set1_cmds (h : Hub) (f : Fld) (i v : Nat) : (h.set1 f i v).cmds = h.cmds := rfl
@[simp] theorem Hub.set1_posted (h : Hub) (f : Fld) (i v : Nat) : (h.set1 f i v).posted = h.posted := rfl
@[simp] theorem Hub.set1_orphans (h : Hub) (f : Fld) (i v : Nat) : (h.set1 f i v).orphans = h.orphans := rfl
@[simp] theorem Hub.set1_qpFired (h : Hub) (f : Fld) (i v : Nat) : (h.set1 f i v).qpFired = h.qpFired := rfl
@[simp] theorem Hub.set1_qpPend (h : Hub) (f : Fld) (i v : Nat) : (h.set1 f i v).qpPend = h.qpPend := rfl
@[simp] theorem Hub.set1_hostMem (h : Hub) (f : Fld) (i v : Nat) : (h.set1 f i v).hostMem = h.hostMem := rfl
@[simp] theorem Hub.set1_heldDb (h : Hub) (f : Fld) (i v : Nat) : (h.set1 f i v).heldDb = h.heldDb := rfl
@[simp] theorem Hub.set1_linkLost (h : Hub) (f : Fld) (i v : Nat) : (h.set1 f i v).linkLost = h.linkLost := rfl
@[simp] theorem Hub.set1_pcieDown (h : Hub) (f : Fld) (i v : Nat) : (h.set1 f i v).pcieDown = h.pcieDown := rfl
@[simp] theorem Hub.set1_pcieDiscards (h : Hub) (f : Fld) (i v : Nat) : (h.set1 f i v).pcieDiscards = h.pcieDiscards := rfl
@[simp] theorem Hub.set1_out (h : Hub) (f : Fld) (i v : Nat) : (h.set1 f i v).out = h.out := rfl
@[simp] theorem Hub.set1_free (h : Hub) (f : Fld) (i v : Nat) : (h.set1 f i v).free = h.free := rfl
@[simp] theorem Hub.set_shadow (h : Hub) (f : Fld) (v : Nat) : (h.set f v).shadow = h.shadow := rfl
@[simp] theorem Hub.set_pub (h : Hub) (f : Fld) (v : Nat) : (h.set f v).pub = h.pub := rfl
@[simp] theorem Hub.set_captured (h : Hub) (f : Fld) (v : Nat) : (h.set f v).captured = h.captured := rfl
@[simp] theorem Hub.set_time (h : Hub) (f : Fld) (v : Nat) : (h.set f v).time = h.time := rfl
@[simp] theorem Hub.set_ticks (h : Hub) (f : Fld) (v : Nat) : (h.set f v).ticks = h.ticks := rfl
@[simp] theorem Hub.set_bar (h : Hub) (f : Fld) (v : Nat) : (h.set f v).bar = h.bar := rfl
@[simp] theorem Hub.set_rl (h : Hub) (f : Fld) (v : Nat) : (h.set f v).rl = h.rl := rfl
@[simp] theorem Hub.set_msiFired (h : Hub) (f : Fld) (v : Nat) : (h.set f v).msiFired = h.msiFired := rfl
@[simp] theorem Hub.set_msiPend (h : Hub) (f : Fld) (v : Nat) : (h.set f v).msiPend = h.msiPend := rfl
@[simp] theorem Hub.set_logDropped (h : Hub) (f : Fld) (v : Nat) : (h.set f v).logDropped = h.logDropped := rfl
@[simp] theorem Hub.set_numVfs (h : Hub) (f : Fld) (v : Nat) : (h.set f v).numVfs = h.numVfs := rfl
@[simp] theorem Hub.set_fifos (h : Hub) (f : Fld) (v : Nat) : (h.set f v).fifos = h.fifos := rfl
@[simp] theorem Hub.set_cmds (h : Hub) (f : Fld) (v : Nat) : (h.set f v).cmds = h.cmds := rfl
@[simp] theorem Hub.set_posted (h : Hub) (f : Fld) (v : Nat) : (h.set f v).posted = h.posted := rfl
@[simp] theorem Hub.set_orphans (h : Hub) (f : Fld) (v : Nat) : (h.set f v).orphans = h.orphans := rfl
@[simp] theorem Hub.set_qpFired (h : Hub) (f : Fld) (v : Nat) : (h.set f v).qpFired = h.qpFired := rfl
@[simp] theorem Hub.set_qpPend (h : Hub) (f : Fld) (v : Nat) : (h.set f v).qpPend = h.qpPend := rfl
@[simp] theorem Hub.set_hostMem (h : Hub) (f : Fld) (v : Nat) : (h.set f v).hostMem = h.hostMem := rfl
@[simp] theorem Hub.set_heldDb (h : Hub) (f : Fld) (v : Nat) : (h.set f v).heldDb = h.heldDb := rfl
@[simp] theorem Hub.set_linkLost (h : Hub) (f : Fld) (v : Nat) : (h.set f v).linkLost = h.linkLost := rfl
@[simp] theorem Hub.set_pcieDown (h : Hub) (f : Fld) (v : Nat) : (h.set f v).pcieDown = h.pcieDown := rfl
@[simp] theorem Hub.set_pcieDiscards (h : Hub) (f : Fld) (v : Nat) : (h.set f v).pcieDiscards = h.pcieDiscards := rfl
@[simp] theorem Hub.set_out (h : Hub) (f : Fld) (v : Nat) : (h.set f v).out = h.out := rfl
@[simp] theorem Hub.set_free (h : Hub) (f : Fld) (v : Nat) : (h.set f v).free = h.free := rfl
@[simp] theorem State.setLink_hub (s : State) (n : Nat) (x : JlLink) : (s.setLink n x).hub = s.hub := rfl
@[simp] theorem State.setLink_tim (s : State) (n : Nat) (x : JlLink) : (s.setLink n x).tim = s.tim := rfl
@[simp] theorem State.setLink_fab (s : State) (n : Nat) (x : JlLink) : (s.setLink n x).fab = s.fab := rfl
@[simp] theorem State.setLink_lch (s : State) (n : Nat) (x : JlLink) : (s.setLink n x).lch = s.lch := rfl
@[simp] theorem State.setLink_ldr (s : State) (n : Nat) (x : JlLink) : (s.setLink n x).ldr = s.ldr := rfl
@[simp] theorem State.setLink_dbt (s : State) (n : Nat) (x : JlLink) : (s.setLink n x).dbt = s.dbt := rfl
@[simp] theorem State.setLink_start (s : State) (n : Nat) (x : JlLink) : (s.setLink n x).start = s.start := rfl
@[simp] theorem State.setLink_qsc (s : State) (n : Nat) (x : JlLink) : (s.setLink n x).qsc = s.qsc := rfl
@[simp] theorem State.setLink_mem (s : State) (n : Nat) (x : JlLink) : (s.setLink n x).mem = s.mem := rfl
@[simp] theorem State.setLink_fwd (s : State) (n : Nat) (x : JlLink) : (s.setLink n x).fwd = s.fwd := rfl
@[simp] theorem State.setLink_cip (s : State) (n : Nat) (x : JlLink) : (s.setLink n x).cip = s.cip := rfl
@[simp] theorem State.setLink_enc (s : State) (n : Nat) (x : JlLink) : (s.setLink n x).enc = s.enc := rfl
@[simp] theorem State.setLink_spl (s : State) (n : Nat) (x : JlLink) : (s.setLink n x).spl = s.spl := rfl
@[simp] theorem State.setLink_dec (s : State) (n : Nat) (x : JlLink) : (s.setLink n x).dec = s.dec := rfl
@[simp] theorem State.setLink_cmp (s : State) (n : Nat) (x : JlLink) : (s.setLink n x).cmp = s.cmp := rfl
@[simp] theorem State.setLink_bio (s : State) (n : Nat) (x : JlLink) : (s.setLink n x).bio = s.bio := rfl
@[simp] theorem State.setLink_aud (s : State) (n : Nat) (x : JlLink) : (s.setLink n x).aud = s.aud := rfl
@[simp] theorem State.setLink_dbl (s : State) (n : Nat) (x : JlLink) : (s.setLink n x).dbl = s.dbl := rfl
@[simp] theorem State.setLink_hng (s : State) (n : Nat) (x : JlLink) : (s.setLink n x).hng = s.hng := rfl
@[simp] theorem State.setLink_pending (s : State) (n : Nat) (x : JlLink) : (s.setLink n x).pending = s.pending := rfl
@[simp] theorem State.setLane_hub (s : State) (n : Nat) (x : LaneSt) : (s.setLane n x).hub = s.hub := rfl
@[simp] theorem State.setLane_tim (s : State) (n : Nat) (x : LaneSt) : (s.setLane n x).tim = s.tim := rfl
@[simp] theorem State.setLane_fab (s : State) (n : Nat) (x : LaneSt) : (s.setLane n x).fab = s.fab := rfl
@[simp] theorem State.setLane_lch (s : State) (n : Nat) (x : LaneSt) : (s.setLane n x).lch = s.lch := rfl
@[simp] theorem State.setLane_ldr (s : State) (n : Nat) (x : LaneSt) : (s.setLane n x).ldr = s.ldr := rfl
@[simp] theorem State.setLane_dbt (s : State) (n : Nat) (x : LaneSt) : (s.setLane n x).dbt = s.dbt := rfl
@[simp] theorem State.setLane_start (s : State) (n : Nat) (x : LaneSt) : (s.setLane n x).start = s.start := rfl
@[simp] theorem State.setLane_qsc (s : State) (n : Nat) (x : LaneSt) : (s.setLane n x).qsc = s.qsc := rfl
@[simp] theorem State.setLane_mem (s : State) (n : Nat) (x : LaneSt) : (s.setLane n x).mem = s.mem := rfl
@[simp] theorem State.setLane_fwd (s : State) (n : Nat) (x : LaneSt) : (s.setLane n x).fwd = s.fwd := rfl
@[simp] theorem State.setLane_cip (s : State) (n : Nat) (x : LaneSt) : (s.setLane n x).cip = s.cip := rfl
@[simp] theorem State.setLane_enc (s : State) (n : Nat) (x : LaneSt) : (s.setLane n x).enc = s.enc := rfl
@[simp] theorem State.setLane_spl (s : State) (n : Nat) (x : LaneSt) : (s.setLane n x).spl = s.spl := rfl
@[simp] theorem State.setLane_dec (s : State) (n : Nat) (x : LaneSt) : (s.setLane n x).dec = s.dec := rfl
@[simp] theorem State.setLane_cmp (s : State) (n : Nat) (x : LaneSt) : (s.setLane n x).cmp = s.cmp := rfl
@[simp] theorem State.setLane_bio (s : State) (n : Nat) (x : LaneSt) : (s.setLane n x).bio = s.bio := rfl
@[simp] theorem State.setLane_aud (s : State) (n : Nat) (x : LaneSt) : (s.setLane n x).aud = s.aud := rfl
@[simp] theorem State.setLane_dbl (s : State) (n : Nat) (x : LaneSt) : (s.setLane n x).dbl = s.dbl := rfl
@[simp] theorem State.setLane_hng (s : State) (n : Nat) (x : LaneSt) : (s.setLane n x).hng = s.hng := rfl
@[simp] theorem State.setLane_pending (s : State) (n : Nat) (x : LaneSt) : (s.setLane n x).pending = s.pending := rfl
@[simp] theorem State.setHand_hub (s : State) (c : Nat) (h : Handover) : (s.setHand c h).hub = s.hub := rfl
@[simp] theorem State.setHand_tim (s : State) (c : Nat) (h : Handover) : (s.setHand c h).tim = s.tim := rfl
@[simp] theorem State.setHand_fab (s : State) (c : Nat) (h : Handover) : (s.setHand c h).fab = s.fab := rfl
@[simp] theorem State.setHand_lch (s : State) (c : Nat) (h : Handover) : (s.setHand c h).lch = s.lch := rfl
@[simp] theorem State.setHand_ldr (s : State) (c : Nat) (h : Handover) : (s.setHand c h).ldr = s.ldr := rfl
@[simp] theorem State.setHand_dbt (s : State) (c : Nat) (h : Handover) : (s.setHand c h).dbt = s.dbt := rfl
@[simp] theorem State.setHand_start (s : State) (c : Nat) (h : Handover) : (s.setHand c h).start = s.start := rfl
@[simp] theorem State.setHand_qsc (s : State) (c : Nat) (h : Handover) : (s.setHand c h).qsc = s.qsc := rfl
@[simp] theorem State.setHand_mem (s : State) (c : Nat) (h : Handover) : (s.setHand c h).mem = s.mem := rfl
@[simp] theorem State.setHand_fwd (s : State) (c : Nat) (h : Handover) : (s.setHand c h).fwd = s.fwd := rfl
@[simp] theorem State.setHand_cip (s : State) (c : Nat) (h : Handover) : (s.setHand c h).cip = s.cip := rfl
@[simp] theorem State.setHand_enc (s : State) (c : Nat) (h : Handover) : (s.setHand c h).enc = s.enc := rfl
@[simp] theorem State.setHand_spl (s : State) (c : Nat) (h : Handover) : (s.setHand c h).spl = s.spl := rfl
@[simp] theorem State.setHand_dec (s : State) (c : Nat) (h : Handover) : (s.setHand c h).dec = s.dec := rfl
@[simp] theorem State.setHand_cmp (s : State) (c : Nat) (h : Handover) : (s.setHand c h).cmp = s.cmp := rfl
@[simp] theorem State.setHand_bio (s : State) (c : Nat) (h : Handover) : (s.setHand c h).bio = s.bio := rfl
@[simp] theorem State.setHand_aud (s : State) (c : Nat) (h : Handover) : (s.setHand c h).aud = s.aud := rfl
@[simp] theorem State.setHand_dbl (s : State) (c : Nat) (h : Handover) : (s.setHand c h).dbl = s.dbl := rfl
@[simp] theorem State.setHand_hng (s : State) (c : Nat) (h : Handover) : (s.setHand c h).hng = s.hng := rfl
@[simp] theorem State.setHand_pending (s : State) (c : Nat) (h : Handover) : (s.setHand c h).pending = s.pending := rfl
@[simp] theorem State.setCore_hub (s : State) (n : Nat) (c : HngCore) : (s.setCore n c).hub = s.hub := rfl
@[simp] theorem State.setCore_tim (s : State) (n : Nat) (c : HngCore) : (s.setCore n c).tim = s.tim := rfl
@[simp] theorem State.setCore_fab (s : State) (n : Nat) (c : HngCore) : (s.setCore n c).fab = s.fab := rfl
@[simp] theorem State.setCore_lch (s : State) (n : Nat) (c : HngCore) : (s.setCore n c).lch = s.lch := rfl
@[simp] theorem State.setCore_ldr (s : State) (n : Nat) (c : HngCore) : (s.setCore n c).ldr = s.ldr := rfl
@[simp] theorem State.setCore_dbt (s : State) (n : Nat) (c : HngCore) : (s.setCore n c).dbt = s.dbt := rfl
@[simp] theorem State.setCore_start (s : State) (n : Nat) (c : HngCore) : (s.setCore n c).start = s.start := rfl
@[simp] theorem State.setCore_qsc (s : State) (n : Nat) (c : HngCore) : (s.setCore n c).qsc = s.qsc := rfl
@[simp] theorem State.setCore_mem (s : State) (n : Nat) (c : HngCore) : (s.setCore n c).mem = s.mem := rfl
@[simp] theorem State.setCore_fwd (s : State) (n : Nat) (c : HngCore) : (s.setCore n c).fwd = s.fwd := rfl
@[simp] theorem State.setCore_cip (s : State) (n : Nat) (c : HngCore) : (s.setCore n c).cip = s.cip := rfl
@[simp] theorem State.setCore_enc (s : State) (n : Nat) (c : HngCore) : (s.setCore n c).enc = s.enc := rfl
@[simp] theorem State.setCore_spl (s : State) (n : Nat) (c : HngCore) : (s.setCore n c).spl = s.spl := rfl
@[simp] theorem State.setCore_dec (s : State) (n : Nat) (c : HngCore) : (s.setCore n c).dec = s.dec := rfl
@[simp] theorem State.setCore_cmp (s : State) (n : Nat) (c : HngCore) : (s.setCore n c).cmp = s.cmp := rfl
@[simp] theorem State.setCore_bio (s : State) (n : Nat) (c : HngCore) : (s.setCore n c).bio = s.bio := rfl
@[simp] theorem State.setCore_aud (s : State) (n : Nat) (c : HngCore) : (s.setCore n c).aud = s.aud := rfl
@[simp] theorem State.setCore_dbl (s : State) (n : Nat) (c : HngCore) : (s.setCore n c).dbl = s.dbl := rfl
@[simp] theorem State.setCore_lnk (s : State) (n : Nat) (c : HngCore) : (s.setCore n c).lnk = s.lnk := rfl
@[simp] theorem State.setCore_pending (s : State) (n : Nat) (c : HngCore) : (s.setCore n c).pending = s.pending := rfl
@[simp] theorem State.setSlot_hub (s : State) (n : Nat) (k : KeySlot) : (s.setSlot n k).hub = s.hub := rfl
@[simp] theorem State.setSlot_tim (s : State) (n : Nat) (k : KeySlot) : (s.setSlot n k).tim = s.tim := rfl
@[simp] theorem State.setSlot_fab (s : State) (n : Nat) (k : KeySlot) : (s.setSlot n k).fab = s.fab := rfl
@[simp] theorem State.setSlot_lch (s : State) (n : Nat) (k : KeySlot) : (s.setSlot n k).lch = s.lch := rfl
@[simp] theorem State.setSlot_ldr (s : State) (n : Nat) (k : KeySlot) : (s.setSlot n k).ldr = s.ldr := rfl
@[simp] theorem State.setSlot_dbt (s : State) (n : Nat) (k : KeySlot) : (s.setSlot n k).dbt = s.dbt := rfl
@[simp] theorem State.setSlot_start (s : State) (n : Nat) (k : KeySlot) : (s.setSlot n k).start = s.start := rfl
@[simp] theorem State.setSlot_qsc (s : State) (n : Nat) (k : KeySlot) : (s.setSlot n k).qsc = s.qsc := rfl
@[simp] theorem State.setSlot_mem (s : State) (n : Nat) (k : KeySlot) : (s.setSlot n k).mem = s.mem := rfl
@[simp] theorem State.setSlot_fwd (s : State) (n : Nat) (k : KeySlot) : (s.setSlot n k).fwd = s.fwd := rfl
@[simp] theorem State.setSlot_enc (s : State) (n : Nat) (k : KeySlot) : (s.setSlot n k).enc = s.enc := rfl
@[simp] theorem State.setSlot_spl (s : State) (n : Nat) (k : KeySlot) : (s.setSlot n k).spl = s.spl := rfl
@[simp] theorem State.setSlot_dec (s : State) (n : Nat) (k : KeySlot) : (s.setSlot n k).dec = s.dec := rfl
@[simp] theorem State.setSlot_cmp (s : State) (n : Nat) (k : KeySlot) : (s.setSlot n k).cmp = s.cmp := rfl
@[simp] theorem State.setSlot_bio (s : State) (n : Nat) (k : KeySlot) : (s.setSlot n k).bio = s.bio := rfl
@[simp] theorem State.setSlot_aud (s : State) (n : Nat) (k : KeySlot) : (s.setSlot n k).aud = s.aud := rfl
@[simp] theorem State.setSlot_dbl (s : State) (n : Nat) (k : KeySlot) : (s.setSlot n k).dbl = s.dbl := rfl
@[simp] theorem State.setSlot_hng (s : State) (n : Nat) (k : KeySlot) : (s.setSlot n k).hng = s.hng := rfl
@[simp] theorem State.setSlot_lnk (s : State) (n : Nat) (k : KeySlot) : (s.setSlot n k).lnk = s.lnk := rfl
@[simp] theorem State.setSlot_pending (s : State) (n : Nat) (k : KeySlot) : (s.setSlot n k).pending = s.pending := rfl
@[simp] theorem State.setDwell_hub (s : State) (core recv : Nat) (d : DblDwell) : (s.setDwell core recv d).hub = s.hub := rfl
@[simp] theorem State.setDwell_tim (s : State) (core recv : Nat) (d : DblDwell) : (s.setDwell core recv d).tim = s.tim := rfl
@[simp] theorem State.setDwell_fab (s : State) (core recv : Nat) (d : DblDwell) : (s.setDwell core recv d).fab = s.fab := rfl
@[simp] theorem State.setDwell_lch (s : State) (core recv : Nat) (d : DblDwell) : (s.setDwell core recv d).lch = s.lch := rfl
@[simp] theorem State.setDwell_ldr (s : State) (core recv : Nat) (d : DblDwell) : (s.setDwell core recv d).ldr = s.ldr := rfl
@[simp] theorem State.setDwell_dbt (s : State) (core recv : Nat) (d : DblDwell) : (s.setDwell core recv d).dbt = s.dbt := rfl
@[simp] theorem State.setDwell_start (s : State) (core recv : Nat) (d : DblDwell) : (s.setDwell core recv d).start = s.start := rfl
@[simp] theorem State.setDwell_qsc (s : State) (core recv : Nat) (d : DblDwell) : (s.setDwell core recv d).qsc = s.qsc := rfl
@[simp] theorem State.setDwell_mem (s : State) (core recv : Nat) (d : DblDwell) : (s.setDwell core recv d).mem = s.mem := rfl
@[simp] theorem State.setDwell_fwd (s : State) (core recv : Nat) (d : DblDwell) : (s.setDwell core recv d).fwd = s.fwd := rfl
@[simp] theorem State.setDwell_cip (s : State) (core recv : Nat) (d : DblDwell) : (s.setDwell core recv d).cip = s.cip := rfl
@[simp] theorem State.setDwell_enc (s : State) (core recv : Nat) (d : DblDwell) : (s.setDwell core recv d).enc = s.enc := rfl
@[simp] theorem State.setDwell_spl (s : State) (core recv : Nat) (d : DblDwell) : (s.setDwell core recv d).spl = s.spl := rfl
@[simp] theorem State.setDwell_dec (s : State) (core recv : Nat) (d : DblDwell) : (s.setDwell core recv d).dec = s.dec := rfl
@[simp] theorem State.setDwell_cmp (s : State) (core recv : Nat) (d : DblDwell) : (s.setDwell core recv d).cmp = s.cmp := rfl
@[simp] theorem State.setDwell_bio (s : State) (core recv : Nat) (d : DblDwell) : (s.setDwell core recv d).bio = s.bio := rfl
@[simp] theorem State.setDwell_aud (s : State) (core recv : Nat) (d : DblDwell) : (s.setDwell core recv d).aud = s.aud := rfl
@[simp] theorem State.setDwell_hng (s : State) (core recv : Nat) (d : DblDwell) : (s.setDwell core recv d).hng = s.hng := rfl
@[simp] theorem State.setDwell_lnk (s : State) (core recv : Nat) (d : DblDwell) : (s.setDwell core recv d).lnk = s.lnk := rfl
@[simp] theorem State.setDwell_pending (s : State) (core recv : Nat) (d : DblDwell) : (s.setDwell core recv d).pending = s.pending := rfl
@[simp] theorem State.setCtx_hub (s : State) (sash stream : Nat) (c : DecCtx) : (s.setCtx sash stream c).hub = s.hub := rfl
@[simp] theorem State.setCtx_tim (s : State) (sash stream : Nat) (c : DecCtx) : (s.setCtx sash stream c).tim = s.tim := rfl
@[simp] theorem State.setCtx_fab (s : State) (sash stream : Nat) (c : DecCtx) : (s.setCtx sash stream c).fab = s.fab := rfl
@[simp] theorem State.setCtx_lch (s : State) (sash stream : Nat) (c : DecCtx) : (s.setCtx sash stream c).lch = s.lch := rfl
@[simp] theorem State.setCtx_ldr (s : State) (sash stream : Nat) (c : DecCtx) : (s.setCtx sash stream c).ldr = s.ldr := rfl
@[simp] theorem State.setCtx_dbt (s : State) (sash stream : Nat) (c : DecCtx) : (s.setCtx sash stream c).dbt = s.dbt := rfl
@[simp] theorem State.setCtx_start (s : State) (sash stream : Nat) (c : DecCtx) : (s.setCtx sash stream c).start = s.start := rfl
@[simp] theorem State.setCtx_qsc (s : State) (sash stream : Nat) (c : DecCtx) : (s.setCtx sash stream c).qsc = s.qsc := rfl
@[simp] theorem State.setCtx_mem (s : State) (sash stream : Nat) (c : DecCtx) : (s.setCtx sash stream c).mem = s.mem := rfl
@[simp] theorem State.setCtx_fwd (s : State) (sash stream : Nat) (c : DecCtx) : (s.setCtx sash stream c).fwd = s.fwd := rfl
@[simp] theorem State.setCtx_cip (s : State) (sash stream : Nat) (c : DecCtx) : (s.setCtx sash stream c).cip = s.cip := rfl
@[simp] theorem State.setCtx_enc (s : State) (sash stream : Nat) (c : DecCtx) : (s.setCtx sash stream c).enc = s.enc := rfl
@[simp] theorem State.setCtx_spl (s : State) (sash stream : Nat) (c : DecCtx) : (s.setCtx sash stream c).spl = s.spl := rfl
@[simp] theorem State.setCtx_cmp (s : State) (sash stream : Nat) (c : DecCtx) : (s.setCtx sash stream c).cmp = s.cmp := rfl
@[simp] theorem State.setCtx_bio (s : State) (sash stream : Nat) (c : DecCtx) : (s.setCtx sash stream c).bio = s.bio := rfl
@[simp] theorem State.setCtx_aud (s : State) (sash stream : Nat) (c : DecCtx) : (s.setCtx sash stream c).aud = s.aud := rfl
@[simp] theorem State.setCtx_dbl (s : State) (sash stream : Nat) (c : DecCtx) : (s.setCtx sash stream c).dbl = s.dbl := rfl
@[simp] theorem State.setCtx_hng (s : State) (sash stream : Nat) (c : DecCtx) : (s.setCtx sash stream c).hng = s.hng := rfl
@[simp] theorem State.setCtx_lnk (s : State) (sash stream : Nat) (c : DecCtx) : (s.setCtx sash stream c).lnk = s.lnk := rfl
@[simp] theorem State.setCtx_pending (s : State) (sash stream : Nat) (c : DecCtx) : (s.setCtx sash stream c).pending = s.pending := rfl
@[simp] theorem State.setCmp_hub (s : State) (u : Nat) (x : CmpUnit) : (s.setCmp u x).hub = s.hub := rfl
@[simp] theorem State.setCmp_tim (s : State) (u : Nat) (x : CmpUnit) : (s.setCmp u x).tim = s.tim := rfl
@[simp] theorem State.setCmp_fab (s : State) (u : Nat) (x : CmpUnit) : (s.setCmp u x).fab = s.fab := rfl
@[simp] theorem State.setCmp_lch (s : State) (u : Nat) (x : CmpUnit) : (s.setCmp u x).lch = s.lch := rfl
@[simp] theorem State.setCmp_ldr (s : State) (u : Nat) (x : CmpUnit) : (s.setCmp u x).ldr = s.ldr := rfl
@[simp] theorem State.setCmp_dbt (s : State) (u : Nat) (x : CmpUnit) : (s.setCmp u x).dbt = s.dbt := rfl
@[simp] theorem State.setCmp_start (s : State) (u : Nat) (x : CmpUnit) : (s.setCmp u x).start = s.start := rfl
@[simp] theorem State.setCmp_qsc (s : State) (u : Nat) (x : CmpUnit) : (s.setCmp u x).qsc = s.qsc := rfl
@[simp] theorem State.setCmp_mem (s : State) (u : Nat) (x : CmpUnit) : (s.setCmp u x).mem = s.mem := rfl
@[simp] theorem State.setCmp_fwd (s : State) (u : Nat) (x : CmpUnit) : (s.setCmp u x).fwd = s.fwd := rfl
@[simp] theorem State.setCmp_cip (s : State) (u : Nat) (x : CmpUnit) : (s.setCmp u x).cip = s.cip := rfl
@[simp] theorem State.setCmp_enc (s : State) (u : Nat) (x : CmpUnit) : (s.setCmp u x).enc = s.enc := rfl
@[simp] theorem State.setCmp_spl (s : State) (u : Nat) (x : CmpUnit) : (s.setCmp u x).spl = s.spl := rfl
@[simp] theorem State.setCmp_dec (s : State) (u : Nat) (x : CmpUnit) : (s.setCmp u x).dec = s.dec := rfl
@[simp] theorem State.setCmp_bio (s : State) (u : Nat) (x : CmpUnit) : (s.setCmp u x).bio = s.bio := rfl
@[simp] theorem State.setCmp_aud (s : State) (u : Nat) (x : CmpUnit) : (s.setCmp u x).aud = s.aud := rfl
@[simp] theorem State.setCmp_dbl (s : State) (u : Nat) (x : CmpUnit) : (s.setCmp u x).dbl = s.dbl := rfl
@[simp] theorem State.setCmp_hng (s : State) (u : Nat) (x : CmpUnit) : (s.setCmp u x).hng = s.hng := rfl
@[simp] theorem State.setCmp_lnk (s : State) (u : Nat) (x : CmpUnit) : (s.setCmp u x).lnk = s.lnk := rfl
@[simp] theorem State.setCmp_pending (s : State) (u : Nat) (x : CmpUnit) : (s.setCmp u x).pending = s.pending := rfl
@[simp] theorem State.done_tim (s : State) (e : CmdEnv) (op st : Nat) (res : List Byte) : (s.done e op st res).tim = s.tim := rfl
@[simp] theorem State.done_fab (s : State) (e : CmdEnv) (op st : Nat) (res : List Byte) : (s.done e op st res).fab = s.fab := rfl
@[simp] theorem State.done_ldr (s : State) (e : CmdEnv) (op st : Nat) (res : List Byte) : (s.done e op st res).ldr = s.ldr := rfl
@[simp] theorem State.done_dbt (s : State) (e : CmdEnv) (op st : Nat) (res : List Byte) : (s.done e op st res).dbt = s.dbt := rfl
@[simp] theorem State.done_start (s : State) (e : CmdEnv) (op st : Nat) (res : List Byte) : (s.done e op st res).start = s.start := rfl
@[simp] theorem State.done_qsc (s : State) (e : CmdEnv) (op st : Nat) (res : List Byte) : (s.done e op st res).qsc = s.qsc := rfl
@[simp] theorem State.done_mem (s : State) (e : CmdEnv) (op st : Nat) (res : List Byte) : (s.done e op st res).mem = s.mem := rfl
@[simp] theorem State.done_fwd (s : State) (e : CmdEnv) (op st : Nat) (res : List Byte) : (s.done e op st res).fwd = s.fwd := rfl
@[simp] theorem State.done_cip (s : State) (e : CmdEnv) (op st : Nat) (res : List Byte) : (s.done e op st res).cip = s.cip := rfl
@[simp] theorem State.done_enc (s : State) (e : CmdEnv) (op st : Nat) (res : List Byte) : (s.done e op st res).enc = s.enc := rfl
@[simp] theorem State.done_spl (s : State) (e : CmdEnv) (op st : Nat) (res : List Byte) : (s.done e op st res).spl = s.spl := rfl
@[simp] theorem State.done_dec (s : State) (e : CmdEnv) (op st : Nat) (res : List Byte) : (s.done e op st res).dec = s.dec := rfl
@[simp] theorem State.done_cmp (s : State) (e : CmdEnv) (op st : Nat) (res : List Byte) : (s.done e op st res).cmp = s.cmp := rfl
@[simp] theorem State.done_bio (s : State) (e : CmdEnv) (op st : Nat) (res : List Byte) : (s.done e op st res).bio = s.bio := rfl
@[simp] theorem State.done_aud (s : State) (e : CmdEnv) (op st : Nat) (res : List Byte) : (s.done e op st res).aud = s.aud := rfl
@[simp] theorem State.done_dbl (s : State) (e : CmdEnv) (op st : Nat) (res : List Byte) : (s.done e op st res).dbl = s.dbl := rfl
@[simp] theorem State.done_hng (s : State) (e : CmdEnv) (op st : Nat) (res : List Byte) : (s.done e op st res).hng = s.hng := rfl
@[simp] theorem State.done_lnk (s : State) (e : CmdEnv) (op st : Nat) (res : List Byte) : (s.done e op st res).lnk = s.lnk := rfl
@[simp] theorem State.done_pending (s : State) (e : CmdEnv) (op st : Nat) (res : List Byte) : (s.done e op st res).pending = s.pending := rfl

end Sys2Proof.Machine
end

