-- ==== Sys2Proof/Laws/Access.lean ====
section
/-! SUPPORT. Host accesses: what an access of one aligned word, of fewer bytes, and of two words touches (R9), and what a read or a write of one aligned
word is. -/

namespace Sys2Proof.Machine

/-- An access within one register touches it alone. -/
theorem accessParts_in (o b n : Nat) (h4 : o % 4 = 0) (h : b + n ≤ 4) (hn : 0 < n) : accessParts (o + b) n = [(o, b, n)] := by
  unfold accessParts
  have h1 : ((o + b) % 4 + n + 3) / 4 = 1 := by omega
  have h2 : (o + b) / 4 * 4 = o := by omega
  rw [h1, h2]
  simp only [List.range_one, List.map_cons, List.map_nil, Nat.mul_zero, Nat.add_zero]
  have h3 : max (o + b) o = o + b := by omega
  have h5 : min (o + b + n) (o + 4) = o + b + n := by omega
  rw [h3, h5]
  have h6 : o + b - o = b := by omega
  have h7 : o + b + n - (o + b) = n := by omega
  rw [h6, h7]

theorem accessParts_word (off : Nat) (h4 : off % 4 = 0) : accessParts off 4 = [(off, 0, 4)] := accessParts_in off 0 4 h4 (by omega) (by omega)

theorem wordWrites_word (off : Nat) (val : BitVec 64) (h4 : off % 4 = 0) : wordWrites off 4 val = [(off, val.setWidth 32)] := by
  unfold wordWrites
  rw [accessParts_word off h4]
  simp

/-- Fewer than four bytes, or four that cross a boundary, cover no register whole. -/
theorem wordWrites_narrow (off size : Nat) (val : BitVec 64) (h : size < 4 ∨ (size = 4 ∧ off % 4 ≠ 0)) : wordWrites off size val = [] := by
  unfold wordWrites accessParts
  rw [List.map_eq_nil_iff, List.filter_eq_nil_iff]
  intro x hx
  obtain ⟨k, -, rfl⟩ := List.mem_map.1 hx
  simp only [decide_eq_true_eq]
  omega

theorem wordWrites_two (off : Nat) (val : BitVec 64) (h4 : off % 4 = 0) :
    wordWrites off 8 val = [(off, val.setWidth 32), (off + 4, (val >>> 32).setWidth 32)] := by
  unfold wordWrites accessParts
  have h1 : (off % 4 + 8 + 3) / 4 = 2 := by omega
  have h2 : off / 4 * 4 = off := by omega
  rw [h1, h2]
  have h3 : List.range 2 = [0, 1] := rfl
  rw [h3]
  have e1 : min (off + 8) (off + 4) = off + 4 := by omega
  have e2 : max off (off + 4) = off + 4 := by omega
  have e3 : min (off + 8) (off + 4 + 4) = off + 8 := by omega
  simp [e1, e3]

theorem wordWrites_middle (off : Nat) (val : BitVec 64) (h4 : off % 4 ≠ 0) :
    wordWrites off 8 val = [(off / 4 * 4 + 4, (val >>> (8 * (4 - off % 4))).setWidth 32)] := by
  unfold wordWrites accessParts
  have h1 : (off % 4 + 8 + 3) / 4 = 3 := by omega
  have h3 : List.range 3 = [0, 1, 2] := rfl
  have e1 : min (off + 8) (off / 4 * 4 + 4 * 0 + 4) - max off (off / 4 * 4 + 4 * 0) ≠ 4 := by omega
  have e2 : min (off + 8) (off / 4 * 4 + 4 * 1 + 4) - max off (off / 4 * 4 + 4 * 1) = 4 := by omega
  have e3 : min (off + 8) (off / 4 * 4 + 4 * 2 + 4) - max off (off / 4 * 4 + 4 * 2) ≠ 4 := by omega
  have e4 : off / 4 * 4 + 4 * 1 - off = 4 - off % 4 := by omega
  rw [h1, h3, List.map_cons, List.map_cons, List.map_cons, List.map_nil, List.filter_cons_of_neg (by rw [decide_eq_true_eq]; exact e1),
    List.filter_cons_of_pos (by rw [decide_eq_true_eq]; exact e2), List.filter_cons_of_neg (by rw [decide_eq_true_eq]; exact e3), List.filter_nil,
    List.map_cons, List.map_nil, e4]

theorem wordBytes_all (v : Word) : wordBytes v 0 4 = v := by
  unfold wordBytes
  have : BitVec.ofNat 32 (2 ^ (8 * 4) - 1) = BitVec.allOnes 32 := by decide
  rw [this, BitVec.and_allOnes]
  simp

theorem Hub.hostIn_live {h : Hub} (g : h.hostIn = true) : h.bar = .live ∧ h.pcieDown = false := by
  simpa [Hub.hostIn] using g

/-- A read of one aligned word is one access. -/
theorem State.busRead_word (s : State) (fn off : Nat) (h4 : off % 4 = 0) (g : s.hub.pcieDown = false) : s.busRead fn off 4 = s.pieceRead fn off 0 4 := by
  unfold State.busRead
  rw [accessParts_word off h4, g]
  rfl

/-- A write of one aligned word is one access. -/
theorem State.busWrite_word (s : State) (fn off : Nat) (val : BitVec 64) (h4 : off % 4 = 0) (g : s.hub.pcieDown = false) :
    s.busWrite fn off 4 val = (s.offer .pcie 4).wordWrite fn off (val.setWidth 32) := by
  unfold State.busWrite
  rw [wordWrites_word off val h4, g]
  rfl

@[simp] theorem State.offer_hub (s : State) (i : Island) (n : Nat) : (s.offer i n).hub = s.hub := by
  unfold State.offer
  split <;> rfl

end Sys2Proof.Machine
end

