-- ==== Sys2Proof/Laws/CanonMedia.lean ====
section
/-! SUPPORT. Each definition keeps registers and memories canonical: packets, video, audio and the cores. -/

namespace Sys2Proof.Machine

set_option linter.all false

theorem State.legSend_canon (s : State) (i : Nat) (l : Leg) (front : Bool) (n : Nat) (kind : String) (args : List Nat) (sec : Option CipItem)
    (idx : Option IdxEntry) (h0 : s.canon) : (State.legSend s i l front n kind args sec idx).canon := by
  unfold State.legSend
  repeat' (with_reducible first | assumption | (intro _) | apply State.cipher_canon | apply State.departed_canon | apply State.enqueue_canon | apply State.jlMedia_canon | apply State.jlSvc_canon | apply State.canon_hub | apply State.canon_mem | apply MemSt.canon_cells | apply Hub.canon_regs | apply Hub.canon_shadow | apply Hub.canon_hostMem | apply Hub.canon_if | apply State.canon_if | apply MemSt.canon_if | (simp only [State.canon_mk, Hub.canon_mk, MemSt.canon_mk]) | apply And.intro | split)
theorem State.legCount_canon (s : State) (i : Nat) (f : LegCnt → LegCnt) (h0 : s.canon) : (State.legCount s i f).canon := by
  unfold State.legCount
  repeat' (with_reducible first | assumption | (intro _) | apply State.canon_hub | apply State.canon_mem | apply MemSt.canon_cells | apply Hub.canon_regs | apply Hub.canon_shadow | apply Hub.canon_hostMem | (simp only [State.canon_mk, Hub.canon_mk, MemSt.canon_mk]) | apply And.intro | split)
theorem State.rtcpSend_canon (s : State) (i : Nat) (kind : String) (b : List Byte) (h0 : s.canon) : (State.rtcpSend s i kind b).canon := by
  unfold State.rtcpSend
  repeat' (with_reducible first | assumption | (intro _) | apply State.legSend_canon | apply State.canon_hub | apply State.canon_mem | apply MemSt.canon_cells | apply Hub.canon_regs | apply Hub.canon_shadow | apply Hub.canon_hostMem | apply Hub.canon_if | apply State.canon_if | apply MemSt.canon_if | (simp only [State.canon_mk, Hub.canon_mk, MemSt.canon_mk]) | apply And.intro | split)
theorem State.feedback_canon (s : State) (leg : Nat) (kind : String) (fmt pt media : Nat) (fci : List Byte) (h0 : s.canon) : (State.feedback s leg kind fmt pt media fci).canon := by
  unfold State.feedback
  repeat' (with_reducible first | assumption | (intro _) | apply State.rtcpSend_canon | apply State.canon_hub | apply State.canon_mem | apply MemSt.canon_cells | apply Hub.canon_regs | apply Hub.canon_shadow | apply Hub.canon_hostMem | (simp only [State.canon_mk, Hub.canon_mk, MemSt.canon_mk]) | apply And.intro | split)
theorem State.sendBye_canon (s : State) (leg ssrc : Nat) (h0 : s.canon) : (State.sendBye s leg ssrc).canon := by
  unfold State.sendBye
  repeat' (with_reducible first | assumption | (intro _) | apply State.rtcpSend_canon | apply State.canon_hub | apply State.canon_mem | apply MemSt.canon_cells | apply Hub.canon_regs | apply Hub.canon_shadow | apply Hub.canon_hostMem | (simp only [State.canon_mk, Hub.canon_mk, MemSt.canon_mk]) | apply And.intro | split)
theorem execConfCreate_canon (e : CmdEnv) (body : List Byte) (s : State) (h0 : s.canon) : ∃ t, execConfCreate e body s = .next t ∧ t.canon := by
  refine ⟨_, rfl, ?_⟩
  repeat' (with_reducible first | assumption | (intro _) | apply State.done_canon | apply State.canon_hub | apply State.canon_mem | apply MemSt.canon_cells | apply Hub.canon_regs | apply Hub.canon_shadow | apply Hub.canon_hostMem | apply Hub.canon_if | apply State.canon_if | apply MemSt.canon_if | (simp only [State.canon_mk, Hub.canon_mk, MemSt.canon_mk]) | apply And.intro | split)
theorem State.markOut_canon (s : State) (i : Nat) (h0 : s.canon) : (State.markOut s i).canon := by
  unfold State.markOut
  repeat' (with_reducible first | assumption | (intro _) | apply State.sendBye_canon | apply State.canon_hub | apply State.canon_mem | apply MemSt.canon_cells | apply Hub.canon_regs | apply Hub.canon_shadow | apply Hub.canon_hostMem | apply Hub.canon_if | apply State.canon_if | apply MemSt.canon_if | (simp only [State.canon_mk, Hub.canon_mk, MemSt.canon_mk]) | apply And.intro | split)
theorem State.markIn_canon (s : State) (i : Nat) (h0 : s.canon) : (State.markIn s i).canon := by
  unfold State.markIn
  repeat' (with_reducible first | assumption | (intro _) | apply State.canon_hub | apply State.canon_mem | apply MemSt.canon_cells | apply Hub.canon_regs | apply Hub.canon_shadow | apply Hub.canon_hostMem | apply Hub.canon_if | apply State.canon_if | apply MemSt.canon_if | (simp only [State.canon_mk, Hub.canon_mk, MemSt.canon_mk]) | apply And.intro | split)
theorem State.dblLegGone_canon (s : State) (i : Nat) (h0 : s.canon) : (State.dblLegGone s i).canon := by
  unfold State.dblLegGone
  repeat' (with_reducible first | assumption | (intro _) | apply Hub.set_canon | apply State.canon_hub | apply State.canon_mem | apply MemSt.canon_cells | apply Hub.canon_regs | apply Hub.canon_shadow | apply Hub.canon_hostMem | apply regsWf_filter | apply regsWf_kvFilter | apply memWf_filter | (simp only [State.canon_mk, Hub.canon_mk, MemSt.canon_mk]) | apply And.intro | split)
theorem State.markLeg_canon (s : State) (i : Nat) (h0 : s.canon) : (State.markLeg s i).canon := by
  unfold State.markLeg
  repeat' (with_reducible first | assumption | (intro _) | apply State.dblLegGone_canon | apply State.markIn_canon | apply State.markOut_canon | apply State.canon_hub | apply State.canon_mem | apply MemSt.canon_cells | apply Hub.canon_regs | apply Hub.canon_shadow | apply Hub.canon_hostMem | apply regsWf_filter | apply regsWf_kvFilter | apply memWf_filter | apply Hub.canon_if | apply State.canon_if | apply MemSt.canon_if | apply Hub.canon_foldl | apply State.canon_foldl | apply MemSt.canon_foldl | apply State.canon_foldl_fst | (simp only [State.canon_mk, Hub.canon_mk, MemSt.canon_mk]) | apply And.intro | split)
theorem State.removal_canon (s : State) (r : Removal) (h0 : s.canon) : (State.removal s r).canon := by
  unfold State.removal
  repeat' (with_reducible first | assumption | (intro _) | apply State.canon_hub | apply State.canon_mem | apply MemSt.canon_cells | apply Hub.canon_regs | apply Hub.canon_shadow | apply Hub.canon_hostMem | (simp only [State.canon_mk, Hub.canon_mk, MemSt.canon_mk]) | apply And.intro | split)
theorem execConfDestroy_canon (e : CmdEnv) (body : List Byte) (s : State) (h0 : s.canon) : ∃ t, execConfDestroy e body s = .next t ∧ t.canon := by
  refine ⟨_, rfl, ?_⟩
  repeat' (with_reducible first | assumption | (intro _) | apply State.done_canon | apply State.markLeg_canon | apply State.removal_canon | apply State.canon_hub | apply State.canon_mem | apply MemSt.canon_cells | apply Hub.canon_regs | apply Hub.canon_shadow | apply Hub.canon_hostMem | apply regsWf_filter | apply regsWf_kvFilter | apply memWf_filter | apply Hub.canon_if | apply State.canon_if | apply MemSt.canon_if | apply Hub.canon_foldl | apply State.canon_foldl | apply MemSt.canon_foldl | apply State.canon_foldl_fst | (simp only [State.canon_mk, Hub.canon_mk, MemSt.canon_mk]) | apply And.intro | split)
theorem State.setEst_canon (s : State) (i : Nat) (l : Leg) (est : Nat) (h0 : s.canon) : (State.setEst s i l est).canon := by
  unfold State.setEst
  repeat' (with_reducible first | assumption | (intro _) | apply Hub.set1_canon | apply State.canon_hub | apply State.canon_mem | apply MemSt.canon_cells | apply Hub.canon_regs | apply Hub.canon_shadow | apply Hub.canon_hostMem | (simp only [State.canon_mk, Hub.canon_mk, MemSt.canon_mk]) | apply And.intro | split)
theorem execLegAdd_canon (e : CmdEnv) (body : List Byte) (s : State) (h0 : s.canon) : ∃ t, execLegAdd e body s = .next t ∧ t.canon := by
  refine ⟨_, rfl, ?_⟩
  repeat' (with_reducible first | assumption | (intro _) | apply Hub.freeTick_canon | apply State.done_canon | apply State.setEst_canon | apply State.canon_hub | apply State.canon_mem | apply MemSt.canon_cells | apply Hub.canon_regs | apply Hub.canon_shadow | apply Hub.canon_hostMem | apply Hub.canon_if | apply State.canon_if | apply MemSt.canon_if | (simp only [State.canon_mk, Hub.canon_mk, MemSt.canon_mk]) | apply And.intro | split)
theorem State.legModify_canon (s : State) (i : Nat) (old new : Leg) (h0 : s.canon) : (State.legModify s i old new).canon := by
  unfold State.legModify
  repeat' (with_reducible first | assumption | (intro _) | apply State.setEst_canon | apply State.canon_hub | apply State.canon_mem | apply MemSt.canon_cells | apply Hub.canon_regs | apply Hub.canon_shadow | apply Hub.canon_hostMem | apply Hub.canon_if | apply State.canon_if | apply MemSt.canon_if | (simp only [State.canon_mk, Hub.canon_mk, MemSt.canon_mk]) | apply And.intro | split)
theorem execLegModify_canon (e : CmdEnv) (body : List Byte) (s : State) (h0 : s.canon) : ∃ t, execLegModify e body s = .next t ∧ t.canon := by
  refine ⟨_, rfl, ?_⟩
  repeat' (with_reducible first | assumption | (intro _) | apply State.done_canon | apply State.hold_canon | apply State.legModify_canon | apply State.canon_hub | apply State.canon_mem | apply MemSt.canon_cells | apply Hub.canon_regs | apply Hub.canon_shadow | apply Hub.canon_hostMem | apply Hub.canon_if | apply State.canon_if | apply MemSt.canon_if | (simp only [State.canon_mk, Hub.canon_mk, MemSt.canon_mk]) | apply And.intro | split)
theorem execLegRemove_canon (e : CmdEnv) (body : List Byte) (s : State) (h0 : s.canon) : ∃ t, execLegRemove e body s = .next t ∧ t.canon := by
  refine ⟨_, rfl, ?_⟩
  repeat' (with_reducible first | assumption | (intro _) | apply State.done_canon | apply State.markLeg_canon | apply State.removal_canon | apply State.canon_hub | apply State.canon_mem | apply MemSt.canon_cells | apply Hub.canon_regs | apply Hub.canon_shadow | apply Hub.canon_hostMem | apply Hub.canon_if | apply State.canon_if | apply MemSt.canon_if | (simp only [State.canon_mk, Hub.canon_mk, MemSt.canon_mk]) | apply And.intro | split)
theorem execStreamAdd_canon (e : CmdEnv) (body : List Byte) (s : State) (h0 : s.canon) : ∃ t, execStreamAdd e body s = .next t ∧ t.canon := by
  refine ⟨_, rfl, ?_⟩
  repeat' (with_reducible first | assumption | (intro _) | apply Hub.freeTick_canon | apply State.done_canon | apply State.canon_hub | apply State.canon_mem | apply MemSt.canon_cells | apply Hub.canon_regs | apply Hub.canon_shadow | apply Hub.canon_hostMem | apply Hub.canon_if | apply State.canon_if | apply MemSt.canon_if | (simp only [State.canon_mk, Hub.canon_mk, MemSt.canon_mk]) | apply And.intro | split)
theorem execStreamDel_canon (e : CmdEnv) (body : List Byte) (s : State) (h0 : s.canon) : ∃ t, execStreamDel e body s = .next t ∧ t.canon := by
  refine ⟨_, rfl, ?_⟩
  repeat' (with_reducible first | assumption | (intro _) | apply State.done_canon | apply State.markIn_canon | apply State.markOut_canon | apply State.removal_canon | apply State.canon_hub | apply State.canon_mem | apply MemSt.canon_cells | apply Hub.canon_regs | apply Hub.canon_shadow | apply Hub.canon_hostMem | apply Hub.canon_if | apply State.canon_if | apply MemSt.canon_if | (simp only [State.canon_mk, Hub.canon_mk, MemSt.canon_mk]) | apply And.intro | split)
theorem State.subAdd_canon (s : State) (i : Nat) (u : Sub) (pol : Nat) (h0 : s.canon) : (State.subAdd s i u pol).canon := by
  unfold State.subAdd
  repeat' (with_reducible first | assumption | (intro _) | apply State.allocate_canon | apply State.bindPolicy_canon | apply State.cacheIn_canon | apply State.subStore_canon | apply State.canon_hub | apply State.canon_mem | apply MemSt.canon_cells | apply Hub.canon_regs | apply Hub.canon_shadow | apply Hub.canon_hostMem | (simp only [State.canon_mk, Hub.canon_mk, MemSt.canon_mk]) | apply And.intro | split)
theorem execSubAdd_canon (e : CmdEnv) (body : List Byte) (s : State) (h0 : s.canon) : ∃ t, execSubAdd e body s = .next t ∧ t.canon := by
  refine ⟨_, rfl, ?_⟩
  repeat' (with_reducible first | assumption | (intro _) | apply State.done_canon | apply State.hold_canon | apply State.subAdd_canon | apply State.canon_hub | apply State.canon_mem | apply MemSt.canon_cells | apply Hub.canon_regs | apply Hub.canon_shadow | apply Hub.canon_hostMem | apply Hub.canon_if | apply State.canon_if | apply MemSt.canon_if | (simp only [State.canon_mk, Hub.canon_mk, MemSt.canon_mk]) | apply And.intro | split)
theorem State.subModify_canon (s : State) (i : Nat) (x u : Sub) (pol : Nat) (h0 : s.canon) : (State.subModify s i x u pol).canon := by
  unfold State.subModify
  repeat' (with_reducible first | assumption | (intro _) | apply State.allocate_canon | apply State.putSub_canon | apply State.canon_hub | apply State.canon_mem | apply MemSt.canon_cells | apply Hub.canon_regs | apply Hub.canon_shadow | apply Hub.canon_hostMem | (simp only [State.canon_mk, Hub.canon_mk, MemSt.canon_mk]) | apply And.intro | split)
theorem execSubModify_canon (e : CmdEnv) (body : List Byte) (s : State) (h0 : s.canon) : ∃ t, execSubModify e body s = .next t ∧ t.canon := by
  refine ⟨_, rfl, ?_⟩
  repeat' (with_reducible first | assumption | (intro _) | apply State.done_canon | apply State.hold_canon | apply State.subModify_canon | apply State.canon_hub | apply State.canon_mem | apply MemSt.canon_cells | apply Hub.canon_regs | apply Hub.canon_shadow | apply Hub.canon_hostMem | apply Hub.canon_if | apply State.canon_if | apply MemSt.canon_if | (simp only [State.canon_mk, Hub.canon_mk, MemSt.canon_mk]) | apply And.intro | split)
theorem State.subGone_canon (s : State) (i : Nat) (x : Sub) (h0 : s.canon) : (State.subGone s i x).canon := by
  unfold State.subGone
  repeat' (with_reducible first | assumption | (intro _) | apply State.allocate_canon | apply State.putSub_canon | apply State.canon_hub | apply State.canon_mem | apply MemSt.canon_cells | apply Hub.canon_regs | apply Hub.canon_shadow | apply Hub.canon_hostMem | (simp only [State.canon_mk, Hub.canon_mk, MemSt.canon_mk]) | apply And.intro | split)
theorem execSubDel_canon (e : CmdEnv) (body : List Byte) (s : State) (h0 : s.canon) : ∃ t, execSubDel e body s = .next t ∧ t.canon := by
  refine ⟨_, rfl, ?_⟩
  repeat' (with_reducible first | assumption | (intro _) | apply State.done_canon | apply State.hold_canon | apply State.removal_canon | apply State.subGone_canon | apply State.canon_hub | apply State.canon_mem | apply MemSt.canon_cells | apply Hub.canon_regs | apply Hub.canon_shadow | apply Hub.canon_hostMem | apply Hub.canon_if | apply State.canon_if | apply MemSt.canon_if | (simp only [State.canon_mk, Hub.canon_mk, MemSt.canon_mk]) | apply And.intro | split)
theorem State.dropSub_canon (s : State) (i : Nat) (h0 : s.canon) : (State.dropSub s i).canon := by
  unfold State.dropSub
  repeat' (with_reducible first | assumption | (intro _) | apply State.subStore_canon | apply State.canon_hub | apply State.canon_mem | apply MemSt.canon_cells | apply Hub.canon_regs | apply Hub.canon_shadow | apply Hub.canon_hostMem | apply regsWf_filter | apply regsWf_kvFilter | apply memWf_filter | apply Hub.canon_if | apply State.canon_if | apply MemSt.canon_if | apply Hub.canon_foldl | apply State.canon_foldl | apply MemSt.canon_foldl | apply State.canon_foldl_fst | (simp only [State.canon_mk, Hub.canon_mk, MemSt.canon_mk]) | apply And.intro | split)
theorem State.dropObject_canon (s : State) (kind id : Nat) (h0 : s.canon) : (State.dropObject s kind id).canon := by
  unfold State.dropObject
  repeat' (with_reducible first | assumption | (intro _) | apply Hub.set1_canon | apply State.dropSub_canon | apply State.canon_hub | apply State.canon_mem | apply MemSt.canon_cells | apply Hub.canon_regs | apply Hub.canon_shadow | apply Hub.canon_hostMem | apply regsWf_filter | apply regsWf_kvFilter | apply memWf_filter | apply Hub.canon_foldl | apply State.canon_foldl | apply MemSt.canon_foldl | apply State.canon_foldl_fst | (simp only [State.canon_mk, Hub.canon_mk, MemSt.canon_mk]) | apply And.intro | split)
theorem State.removed_canon (s : State) (r : Removal) (h0 : s.canon) : (State.removed s r).canon := by
  unfold State.removed
  repeat' (with_reducible first | assumption | (intro _) | apply State.done_canon | apply State.dropObject_canon | apply State.canon_hub | apply State.canon_mem | apply MemSt.canon_cells | apply Hub.canon_regs | apply Hub.canon_shadow | apply Hub.canon_hostMem | (simp only [State.canon_mk, Hub.canon_mk, MemSt.canon_mk]) | apply And.intro | split)
theorem execRemovalDrainDone_canon (kind id : Nat) (s : State) (h0 : s.canon) : ∃ t, execRemovalDrainDone kind id s = .next t ∧ t.canon := by
  refine ⟨_, rfl, ?_⟩
  repeat' (with_reducible first | assumption | (intro _) | apply State.removed_canon | apply State.canon_hub | apply State.canon_mem | apply MemSt.canon_cells | apply Hub.canon_regs | apply Hub.canon_shadow | apply Hub.canon_hostMem | apply regsWf_filter | apply regsWf_kvFilter | apply memWf_filter | apply Hub.canon_if | apply State.canon_if | apply MemSt.canon_if | (simp only [State.canon_mk, Hub.canon_mk, MemSt.canon_mk]) | apply And.intro | split)
theorem execLegStats_canon (e : CmdEnv) (body : List Byte) (s : State) (h0 : s.canon) : ∃ t, execLegStats e body s = .next t ∧ t.canon := by
  refine ⟨_, rfl, ?_⟩
  repeat' (with_reducible first | assumption | (intro _) | apply State.done_canon | apply State.canon_hub | apply State.canon_mem | apply MemSt.canon_cells | apply Hub.canon_regs | apply Hub.canon_shadow | apply Hub.canon_hostMem | apply Hub.canon_if | apply State.canon_if | apply MemSt.canon_if | (simp only [State.canon_mk, Hub.canon_mk, MemSt.canon_mk]) | apply And.intro | split)
theorem execKeyReq_canon (e : CmdEnv) (body : List Byte) (s : State) (h0 : s.canon) : ∃ t, execKeyReq e body s = .next t ∧ t.canon := by
  refine ⟨_, rfl, ?_⟩
  repeat' (with_reducible first | assumption | (intro _) | apply State.done_canon | apply State.keyRequest_canon | apply State.canon_hub | apply State.canon_mem | apply MemSt.canon_cells | apply Hub.canon_regs | apply Hub.canon_shadow | apply Hub.canon_hostMem | apply Hub.canon_if | apply State.canon_if | apply MemSt.canon_if | (simp only [State.canon_mk, Hub.canon_mk, MemSt.canon_mk]) | apply And.intro | split)
theorem execSvcParam_canon (e : CmdEnv) (body : List Byte) (s : State) (h0 : s.canon) : ∃ t, execSvcParam e body s = .next t ∧ t.canon := by
  refine ⟨_, rfl, ?_⟩
  repeat' (with_reducible first | assumption | (intro _) | apply State.done_canon | apply State.canon_hub | apply State.canon_mem | apply MemSt.canon_cells | apply Hub.canon_regs | apply Hub.canon_shadow | apply Hub.canon_hostMem | (simp only [State.canon_mk, Hub.canon_mk, MemSt.canon_mk]) | apply And.intro | split)
theorem State.fwdChange_canon (s : State) (i : Instr) (h0 : s.canon) : (State.fwdChange s i).canon := by
  unfold State.fwdChange
  repeat' (with_reducible first | assumption | (intro _) | apply Hub.raise_canon | apply State.legModify_canon | apply State.removal_canon | apply State.subAdd_canon | apply State.subGone_canon | apply State.subModify_canon | apply State.canon_hub | apply State.canon_mem | apply MemSt.canon_cells | apply Hub.canon_regs | apply Hub.canon_shadow | apply Hub.canon_hostMem | apply Hub.canon_if | apply State.canon_if | apply MemSt.canon_if | (simp only [State.canon_mk, Hub.canon_mk, MemSt.canon_mk]) | apply And.intro | split)
theorem State.exception_canon (s : State) (reason leg k : Nat) (f : RxFrame) (h0 : s.canon) : (State.exception s reason leg k f).canon := by
  unfold State.exception
  repeat' (with_reducible first | assumption | (intro _) | apply Hub.qpDeliver_canon | apply State.canon_hub | apply State.canon_mem | apply MemSt.canon_cells | apply Hub.canon_regs | apply Hub.canon_shadow | apply Hub.canon_hostMem | (simp only [State.canon_mk, Hub.canon_mk, MemSt.canon_mk]) | apply And.intro | split)
theorem State.parseBad_canon (s : State) (k : Nat) (h0 : s.canon) : (State.parseBad s k).canon := by
  unfold State.parseBad
  repeat' (with_reducible first | assumption | (intro _) | apply Hub.err_canon | apply MemSt.err_canon | apply State.canon_hub | apply State.canon_mem | apply MemSt.canon_cells | apply Hub.canon_regs | apply Hub.canon_shadow | apply Hub.canon_hostMem | (simp only [State.canon_mk, Hub.canon_mk, MemSt.canon_mk]) | apply And.intro | split)
theorem State.stunAnswer_canon (s : State) (i : Nat) (l : Leg) (f : RxFrame) (code : Nat) (unknown : List Nat) (h0 : s.canon) : (State.stunAnswer s i l f code unknown).canon := by
  unfold State.stunAnswer
  repeat' (with_reducible first | assumption | (intro _) | apply State.enqueue_canon | apply State.canon_hub | apply State.canon_mem | apply MemSt.canon_cells | apply Hub.canon_regs | apply Hub.canon_shadow | apply Hub.canon_hostMem | (simp only [State.canon_mk, Hub.canon_mk, MemSt.canon_mk]) | apply And.intro | split)
theorem State.remoteMoved_canon (s : State) (i : Nat) (l : Leg) (f : RxFrame) (h0 : s.canon) : (State.remoteMoved s i l f).canon := by
  unfold State.remoteMoved
  repeat' (with_reducible first | assumption | (intro _) | apply Hub.raise_canon | apply State.canon_hub | apply State.canon_mem | apply MemSt.canon_cells | apply Hub.canon_regs | apply Hub.canon_shadow | apply Hub.canon_hostMem | apply Hub.canon_if | apply State.canon_if | apply MemSt.canon_if | (simp only [State.canon_mk, Hub.canon_mk, MemSt.canon_mk]) | apply And.intro | split)
theorem State.stun_canon (s : State) (i : Nat) (f : RxFrame) (h0 : s.canon) : (State.stun s i f).canon := by
  unfold State.stun
  repeat' (with_reducible first | assumption | (intro _) | apply Hub.err_canon | apply Hub.raiseRl_canon | apply MemSt.err_canon | apply State.exception_canon | apply State.remoteMoved_canon | apply State.stunAnswer_canon | apply State.canon_hub | apply State.canon_mem | apply MemSt.canon_cells | apply Hub.canon_regs | apply Hub.canon_shadow | apply Hub.canon_hostMem | apply regsWf_filter | apply regsWf_kvFilter | apply memWf_filter | apply Hub.canon_if | apply State.canon_if | apply MemSt.canon_if | (simp only [State.canon_mk, Hub.canon_mk, MemSt.canon_mk]) | apply And.intro | split)
theorem execConsentRequestTimer_canon (leg : Nat) (s : State) (h0 : s.canon) : ∃ t, execConsentRequestTimer leg s = .next t ∧ t.canon := by
  refine ⟨_, rfl, ?_⟩
  repeat' (with_reducible first | assumption | (intro _) | apply Hub.freeTick_canon | apply State.legSend_canon | apply State.stun_canon | apply State.canon_hub | apply State.canon_mem | apply MemSt.canon_cells | apply Hub.canon_regs | apply Hub.canon_shadow | apply Hub.canon_hostMem | apply Hub.canon_if | apply State.canon_if | apply MemSt.canon_if | (simp only [State.canon_mk, Hub.canon_mk, MemSt.canon_mk]) | apply And.intro | split)
theorem execConsentTimeout_canon (leg : Nat) (s : State) (h0 : s.canon) : ∃ t, execConsentTimeout leg s = .next t ∧ t.canon := by
  refine ⟨_, rfl, ?_⟩
  repeat' (with_reducible first | assumption | (intro _) | apply Hub.raise_canon | apply State.canon_hub | apply State.canon_mem | apply MemSt.canon_cells | apply Hub.canon_regs | apply Hub.canon_shadow | apply Hub.canon_hostMem | apply Hub.canon_if | apply State.canon_if | apply MemSt.canon_if | (simp only [State.canon_mk, Hub.canon_mk, MemSt.canon_mk]) | apply And.intro | split)
theorem State.rrEstimate_canon (s : State) (i : Nat) (l : Leg) (loss : Nat) (h0 : s.canon) : (State.rrEstimate s i l loss).canon := by
  unfold State.rrEstimate
  repeat' (with_reducible first | assumption | (intro _) | apply Hub.freeTick_canon | apply State.setEst_canon | apply State.canon_hub | apply State.canon_mem | apply MemSt.canon_cells | apply Hub.canon_regs | apply Hub.canon_shadow | apply Hub.canon_hostMem | apply Hub.canon_if | apply State.canon_if | apply MemSt.canon_if | (simp only [State.canon_mk, Hub.canon_mk, MemSt.canon_mk]) | apply And.intro | split)
theorem State.reportBlock_canon (s : State) (i : Nat) (b : List Byte) (h0 : s.canon) : (State.reportBlock s i b).canon := by
  unfold State.reportBlock
  repeat' (with_reducible first | assumption | (intro _) | apply Hub.freeTick_canon | apply State.canon_hub | apply State.canon_mem | apply MemSt.canon_cells | apply Hub.canon_regs | apply Hub.canon_shadow | apply Hub.canon_hostMem | apply Hub.canon_if | apply State.canon_if | apply MemSt.canon_if | (simp only [State.canon_mk, Hub.canon_mk, MemSt.canon_mk]) | apply And.intro | split)
theorem State.blocksIn_canon (s : State) (i : Nat) (x0 : Nat) (x1 : List Byte) (h0 : s.canon) : (State.blocksIn s i x0 x1).canon := by
  induction x0 generalizing s i x1 with
  | zero =>
    unfold State.blocksIn; try dsimp only
    repeat' (with_reducible first | assumption | (intro _) | apply State.reportBlock_canon | apply State.canon_hub | apply State.canon_mem | apply MemSt.canon_cells | apply Hub.canon_regs | apply Hub.canon_shadow | apply Hub.canon_hostMem | (simp only [State.canon_mk, Hub.canon_mk, MemSt.canon_mk]) | apply And.intro | split)
  | succ n ih =>
    unfold State.blocksIn; try dsimp only
    repeat' (with_reducible first | assumption | (intro _) | apply ih | apply State.reportBlock_canon | apply State.canon_hub | apply State.canon_mem | apply MemSt.canon_cells | apply Hub.canon_regs | apply Hub.canon_shadow | apply Hub.canon_hostMem | (simp only [State.canon_mk, Hub.canon_mk, MemSt.canon_mk]) | apply And.intro | split)
theorem State.reportBlocks_canon (s : State) (i n : Nat) (b : List Byte) (h0 : s.canon) : (State.reportBlocks s i n b).canon := by
  unfold State.reportBlocks
  repeat' (with_reducible first | assumption | (intro _) | apply State.blocksIn_canon | apply State.rrEstimate_canon | apply State.canon_hub | apply State.canon_mem | apply MemSt.canon_cells | apply Hub.canon_regs | apply Hub.canon_shadow | apply Hub.canon_hostMem | apply Hub.canon_if | apply State.canon_if | apply MemSt.canon_if | apply Hub.canon_foldl | apply State.canon_foldl | apply MemSt.canon_foldl | apply State.canon_foldl_fst | (simp only [State.canon_mk, Hub.canon_mk, MemSt.canon_mk]) | apply And.intro | split)
theorem State.srMapping_canon (s : State) (leg : Nat) (b : List Byte) (h0 : s.canon) : (State.srMapping s leg b).canon := by
  unfold State.srMapping
  repeat' (with_reducible first | assumption | (intro _) | apply State.canon_hub | apply State.canon_mem | apply MemSt.canon_cells | apply Hub.canon_regs | apply Hub.canon_shadow | apply Hub.canon_hostMem | (simp only [State.canon_mk, Hub.canon_mk, MemSt.canon_mk]) | apply And.intro | split)
theorem State.sdes_canon (s : State) (leg : Nat) (x0 : Nat) (x1 : List Byte) (h0 : s.canon) : (State.sdes s leg x0 x1).canon := by
  induction x0 generalizing s leg x1 with
  | zero =>
    unfold State.sdes; try dsimp only
    repeat' (with_reducible first | assumption | (intro _) | apply State.canon_hub | apply State.canon_mem | apply MemSt.canon_cells | apply Hub.canon_regs | apply Hub.canon_shadow | apply Hub.canon_hostMem | apply Hub.canon_if | apply State.canon_if | apply MemSt.canon_if | (simp only [State.canon_mk, Hub.canon_mk, MemSt.canon_mk]) | apply And.intro | split)
  | succ n ih =>
    unfold State.sdes; try dsimp only
    repeat' (with_reducible first | assumption | (intro _) | apply ih | apply State.canon_hub | apply State.canon_mem | apply MemSt.canon_cells | apply Hub.canon_regs | apply Hub.canon_shadow | apply Hub.canon_hostMem | apply Hub.canon_if | apply State.canon_if | apply MemSt.canon_if | (simp only [State.canon_mk, Hub.canon_mk, MemSt.canon_mk]) | apply And.intro | split)
theorem State.bye_canon (s : State) (leg : Nat) (b : List Byte) (h0 : s.canon) : (State.bye s leg b).canon := by
  unfold State.bye
  repeat' (with_reducible first | assumption | (intro _) | apply State.canon_hub | apply State.canon_mem | apply MemSt.canon_cells | apply Hub.canon_regs | apply Hub.canon_shadow | apply Hub.canon_hostMem | apply Hub.canon_foldl | apply State.canon_foldl | apply MemSt.canon_foldl | apply State.canon_foldl_fst | (simp only [State.canon_mk, Hub.canon_mk, MemSt.canon_mk]) | apply And.intro | split)
theorem State.pictureLost_canon (s : State) (leg ssrc : Nat) (h0 : s.canon) : (State.pictureLost s leg ssrc).canon := by
  unfold State.pictureLost
  repeat' (with_reducible first | assumption | (intro _) | apply State.keyRequest_canon | apply State.canon_hub | apply State.canon_mem | apply MemSt.canon_cells | apply Hub.canon_regs | apply Hub.canon_shadow | apply Hub.canon_hostMem | apply regsWf_filter | apply regsWf_kvFilter | apply memWf_filter | apply Hub.canon_if | apply State.canon_if | apply MemSt.canon_if | apply Hub.canon_foldl | apply State.canon_foldl | apply MemSt.canon_foldl | apply State.canon_foldl_fst | (simp only [State.canon_mk, Hub.canon_mk, MemSt.canon_mk]) | apply And.intro | split)
theorem State.nackMiss_canon (s : State) (leg : Nat) (h0 : s.canon) : (State.nackMiss s leg).canon := by
  unfold State.nackMiss
  repeat' (with_reducible first | assumption | (intro _) | apply Hub.err_canon | apply MemSt.err_canon | apply State.canon_hub | apply State.canon_mem | apply MemSt.canon_cells | apply Hub.canon_regs | apply Hub.canon_shadow | apply Hub.canon_hostMem | (simp only [State.canon_mk, Hub.canon_mk, MemSt.canon_mk]) | apply And.intro | split)
theorem State.retransmit_canon (s : State) (leg : Nat) (l : Leg) (o : Nat) (os : OutStream) (e : IdxEntry) (p : Stored) (h0 : s.canon) : (State.retransmit s leg l o os e p).canon := by
  unfold State.retransmit
  repeat' (with_reducible first | assumption | (intro _) | apply Hub.stat_canon | apply State.legCount_canon | apply State.legSend_canon | apply State.canon_hub | apply State.canon_mem | apply MemSt.canon_cells | apply Hub.canon_regs | apply Hub.canon_shadow | apply Hub.canon_hostMem | apply Hub.canon_if | apply State.canon_if | apply MemSt.canon_if | (simp only [State.canon_mk, Hub.canon_mk, MemSt.canon_mk]) | apply And.intro | split)
theorem State.nack_canon (s : State) (leg o seq : Nat) (h0 : s.canon) : (State.nack s leg o seq).canon := by
  unfold State.nack
  repeat' (with_reducible first | assumption | (intro _) | apply State.jlSvc_canon | apply State.nackMiss_canon | apply State.retransmit_canon | apply State.canon_hub | apply State.canon_mem | apply MemSt.canon_cells | apply Hub.canon_regs | apply Hub.canon_shadow | apply Hub.canon_hostMem | apply regsWf_filter | apply regsWf_kvFilter | apply memWf_filter | apply Hub.canon_if | apply State.canon_if | apply MemSt.canon_if | (simp only [State.canon_mk, Hub.canon_mk, MemSt.canon_mk]) | apply And.intro | split)
theorem State.rtcpPacket_canon (s : State) (leg : Nat) (b : List Byte) (h0 : s.canon) : (State.rtcpPacket s leg b).canon := by
  unfold State.rtcpPacket
  repeat' (with_reducible first | assumption | (intro _) | apply Hub.freeTick_canon | apply State.bye_canon | apply State.nack_canon | apply State.parseBad_canon | apply State.pictureLost_canon | apply State.reportBlocks_canon | apply State.sdes_canon | apply State.setEst_canon | apply State.srMapping_canon | apply State.canon_hub | apply State.canon_mem | apply MemSt.canon_cells | apply Hub.canon_regs | apply Hub.canon_shadow | apply Hub.canon_hostMem | apply Hub.canon_if | apply State.canon_if | apply MemSt.canon_if | apply Hub.canon_foldl | apply State.canon_foldl | apply MemSt.canon_foldl | apply State.canon_foldl_fst | (simp only [State.canon_mk, Hub.canon_mk, MemSt.canon_mk]) | apply And.intro | split)
theorem State.rtcpCompound_canon (s : State) (leg : Nat) (x0 : Nat) (x1 : List Byte) (h0 : s.canon) : (State.rtcpCompound s leg x0 x1).canon := by
  induction x0 generalizing s leg x1 with
  | zero =>
    unfold State.rtcpCompound; try dsimp only
    repeat' (with_reducible first | assumption | (intro _) | apply State.parseBad_canon | apply State.rtcpPacket_canon | apply State.canon_hub | apply State.canon_mem | apply MemSt.canon_cells | apply Hub.canon_regs | apply Hub.canon_shadow | apply Hub.canon_hostMem | apply Hub.canon_if | apply State.canon_if | apply MemSt.canon_if | (simp only [State.canon_mk, Hub.canon_mk, MemSt.canon_mk]) | apply And.intro | split)
  | succ n ih =>
    unfold State.rtcpCompound; try dsimp only
    repeat' (with_reducible first | assumption | (intro _) | apply ih | apply State.parseBad_canon | apply State.rtcpPacket_canon | apply State.canon_hub | apply State.canon_mem | apply MemSt.canon_cells | apply Hub.canon_regs | apply Hub.canon_shadow | apply Hub.canon_hostMem | apply Hub.canon_if | apply State.canon_if | apply MemSt.canon_if | (simp only [State.canon_mk, Hub.canon_mk, MemSt.canon_mk]) | apply And.intro | split)
theorem State.fecSend_canon (s : State) (o base ts l d : Nat) (pkts : List (List Byte)) (h0 : s.canon) : (State.fecSend s o base ts l d pkts).canon := by
  unfold State.fecSend
  repeat' (with_reducible first | assumption | (intro _) | apply State.legSend_canon | apply State.canon_hub | apply State.canon_mem | apply MemSt.canon_cells | apply Hub.canon_regs | apply Hub.canon_shadow | apply Hub.canon_hostMem | (simp only [State.canon_mk, Hub.canon_mk, MemSt.canon_mk]) | apply And.intro | split)
theorem State.fecDue_canon (s : State) (o seq ts : Nat) (b : List Byte) (h0 : s.canon) : (State.fecDue s o seq ts b).canon := by
  unfold State.fecDue
  repeat' (with_reducible first | assumption | (intro _) | apply State.fecSend_canon | apply State.canon_hub | apply State.canon_mem | apply MemSt.canon_cells | apply Hub.canon_regs | apply Hub.canon_shadow | apply Hub.canon_hostMem | apply Hub.canon_if | apply State.canon_if | apply MemSt.canon_if | apply Hub.canon_foldl | apply State.canon_foldl | apply MemSt.canon_foldl | apply State.canon_foldl_fst | (simp only [State.canon_mk, Hub.canon_mk, MemSt.canon_mk]) | apply And.intro | split)
theorem State.copyOut_canon (s : State) (u : Sub) (k : Nat) (x : InStream) (p : Pkt) (seq ts : Nat) (h0 : s.canon) : (State.copyOut s u k x p seq ts).canon := by
  unfold State.copyOut
  repeat' (with_reducible first | assumption | (intro _) | apply Hub.stat_canon | apply State.fecDue_canon | apply State.legCount_canon | apply State.legSend_canon | apply State.canon_hub | apply State.canon_mem | apply MemSt.canon_cells | apply Hub.canon_regs | apply Hub.canon_shadow | apply Hub.canon_hostMem | apply Hub.canon_if | apply State.canon_if | apply MemSt.canon_if | (simp only [State.canon_mk, Hub.canon_mk, MemSt.canon_mk]) | apply And.intro | split)
theorem State.produce_canon (s : State) (o stream : Nat) (q : Rtp) (h0 : s.canon) : (State.produce s o stream q).canon := by
  unfold State.produce
  repeat' (with_reducible first | assumption | (intro _) | apply MemSt.rewrite_canon | apply State.fecDue_canon | apply State.legCount_canon | apply State.legSend_canon | apply State.canon_hub | apply State.canon_mem | apply MemSt.canon_cells | apply Hub.canon_regs | apply Hub.canon_shadow | apply Hub.canon_hostMem | apply Hub.canon_if | apply State.canon_if | apply MemSt.canon_if | (simp only [State.canon_mk, Hub.canon_mk, MemSt.canon_mk]) | apply And.intro | split)
theorem State.copyRole_canon (s : State) (u : Sub) (k : Nat) (p : Pkt) (h0 : s.canon) : (State.copyRole s u k p).canon := by
  unfold State.copyRole
  repeat' (with_reducible first | assumption | (intro _) | apply Hub.emit_canon | apply Hub.qpDeliver_canon | apply Hub.stat_canon | apply State.jlMedia_canon | apply State.canon_hub | apply State.canon_mem | apply MemSt.canon_cells | apply Hub.canon_regs | apply Hub.canon_shadow | apply Hub.canon_hostMem | (simp only [State.canon_mk, Hub.canon_mk, MemSt.canon_mk]) | apply And.intro | split)
theorem State.visit_canon (s : State) (k i : Nat) (x : InStream) (p : Pkt) (h0 : s.canon) : (State.visit s k i x p).canon := by
  unfold State.visit
  repeat' (with_reducible first | assumption | (intro _) | apply Hub.err_canon | apply MemSt.err_canon | apply MemSt.rewrite_canon | apply State.bindPolicy_canon | apply State.copyOut_canon | apply State.copyRole_canon | apply State.putSub_canon | apply State.canon_hub | apply State.canon_mem | apply MemSt.canon_cells | apply Hub.canon_regs | apply Hub.canon_shadow | apply Hub.canon_hostMem | apply Hub.canon_if | apply State.canon_if | apply MemSt.canon_if | (simp only [State.canon_mk, Hub.canon_mk, MemSt.canon_mk]) | apply And.intro | split)
theorem State.walkFrom_canon (s : State) (k : Nat) (x : InStream) (p : Pkt) (x0 : Nat) (x1 : Option Nat) (h0 : s.canon) : (State.walkFrom s k x p x0 x1).canon := by
  induction x0 generalizing s x1 with
  | zero => cases x1 <;> exact h0
  | succ n ih =>
    cases x1 with
    | none => exact h0
    | some i =>
      unfold State.walkFrom
      dsimp only
      repeat' (with_reducible first | assumption | apply ih | apply State.visit_canon | apply State.subVisit_canon | split)
theorem State.walk_canon (s : State) (x : InStream) (p : Pkt) (k : Nat) (h0 : s.canon) : (State.walk s x p k).canon := by
  unfold State.walk
  repeat' (with_reducible first | assumption | (intro _) | apply State.walkFrom_canon | apply State.canon_hub | apply State.canon_mem | apply MemSt.canon_cells | apply Hub.canon_regs | apply Hub.canon_shadow | apply Hub.canon_hostMem | (simp only [State.canon_mk, Hub.canon_mk, MemSt.canon_mk]) | apply And.intro | split)
theorem State.audLevel_canon (s : State) (i : Nat) (x : InStream) (q : Rtp) (h0 : s.canon) : (State.audLevel s i x q).canon := by
  unfold State.audLevel
  repeat' (with_reducible first | assumption | (intro _) | apply State.canon_hub | apply State.canon_mem | apply MemSt.canon_cells | apply Hub.canon_regs | apply Hub.canon_shadow | apply Hub.canon_hostMem | apply regsWf_filter | apply regsWf_kvFilter | apply memWf_filter | apply Hub.canon_if | apply State.canon_if | apply MemSt.canon_if | (simp only [State.canon_mk, Hub.canon_mk, MemSt.canon_mk]) | apply And.intro | split)
theorem State.handRelay_canon (s : State) (i : Nat) (x : InStream) (raw : List Byte) (h0 : s.canon) : (State.handRelay s i x raw).canon := by
  unfold State.handRelay
  repeat' (with_reducible first | assumption | (intro _) | apply State.jlMedia_canon | apply State.canon_hub | apply State.canon_mem | apply MemSt.canon_cells | apply Hub.canon_regs | apply Hub.canon_shadow | apply Hub.canon_hostMem | (simp only [State.canon_mk, Hub.canon_mk, MemSt.canon_mk]) | apply And.intro | split)
theorem State.ingest_canon (s : State) (i : Nat) (q : Rtp) (raw : List Byte) (y : RtpLayer) (ecn : Nat) (late : Bool) (h0 : s.canon) : (State.ingest s i q raw y ecn late).canon := by
  unfold State.ingest
  repeat' (with_reducible first | assumption | (intro _) | apply Hub.set_canon | apply State.audLevel_canon | apply State.cacheStore_canon | apply State.handRelay_canon | apply State.keyAnswer_canon | apply State.refollow_canon | apply State.walk_canon | apply State.canon_hub | apply State.canon_mem | apply MemSt.canon_cells | apply Hub.canon_regs | apply Hub.canon_shadow | apply Hub.canon_hostMem | apply Hub.canon_if | apply State.canon_if | apply MemSt.canon_if | apply Hub.canon_foldl | apply State.canon_foldl | apply MemSt.canon_foldl | apply State.canon_foldl_fst | (simp only [State.canon_mk, Hub.canon_mk, MemSt.canon_mk]) | apply And.intro | split)
theorem State.fecLoop_canon (s : State) (i : Nat) (x0 : Nat) (x1 : List RtpLayer) (h0 : s.canon) : (State.fecLoop s i x0 x1).canon := by
  induction x0 generalizing s i x1 with
  | zero =>
    unfold State.fecLoop; try dsimp only
    repeat' (with_reducible first | assumption | (intro _) | apply State.ingest_canon | apply State.canon_hub | apply State.canon_mem | apply MemSt.canon_cells | apply Hub.canon_regs | apply Hub.canon_shadow | apply Hub.canon_hostMem | apply regsWf_filter | apply regsWf_kvFilter | apply memWf_filter | (simp only [State.canon_mk, Hub.canon_mk, MemSt.canon_mk]) | apply And.intro | split)
  | succ n ih =>
    unfold State.fecLoop; try dsimp only
    repeat' (with_reducible first | assumption | (intro _) | apply ih | apply State.ingest_canon | apply State.canon_hub | apply State.canon_mem | apply MemSt.canon_cells | apply Hub.canon_regs | apply Hub.canon_shadow | apply Hub.canon_hostMem | apply regsWf_filter | apply regsWf_kvFilter | apply memWf_filter | (simp only [State.canon_mk, Hub.canon_mk, MemSt.canon_mk]) | apply And.intro | split)
theorem Hub.fecDrop_canon (h : Hub) (i : Nat) (x0 : Nat) (h0 : h.canon) : (Hub.fecDrop h i x0).canon := by
  induction x0 generalizing h i with
  | zero =>
    unfold Hub.fecDrop; try dsimp only
    repeat' (with_reducible first | assumption | (intro _) | apply Hub.err_canon | apply MemSt.err_canon | apply State.canon_hub | apply State.canon_mem | apply MemSt.canon_cells | apply Hub.canon_regs | apply Hub.canon_shadow | apply Hub.canon_hostMem | (simp only [State.canon_mk, Hub.canon_mk, MemSt.canon_mk]) | apply And.intro | split)
  | succ n ih =>
    unfold Hub.fecDrop; try dsimp only
    repeat' (with_reducible first | assumption | (intro _) | apply ih | apply Hub.err_canon | apply MemSt.err_canon | apply State.canon_hub | apply State.canon_mem | apply MemSt.canon_cells | apply Hub.canon_regs | apply Hub.canon_shadow | apply Hub.canon_hostMem | (simp only [State.canon_mk, Hub.canon_mk, MemSt.canon_mk]) | apply And.intro | split)
theorem State.fecTry_canon (s : State) (i : Nat) (ys : List RtpLayer) (h0 : s.canon) : (State.fecTry s i ys).canon := by
  unfold State.fecTry
  repeat' (with_reducible first | assumption | (intro _) | apply Hub.fecDrop_canon | apply State.fecLoop_canon | apply State.canon_hub | apply State.canon_mem | apply MemSt.canon_cells | apply Hub.canon_regs | apply Hub.canon_shadow | apply Hub.canon_hostMem | apply regsWf_filter | apply regsWf_kvFilter | apply memWf_filter | (simp only [State.canon_mk, Hub.canon_mk, MemSt.canon_mk]) | apply And.intro | split)
theorem State.admit_canon (s : State) (i : Nat) (x : InStream) (w : Replay) (f : RxFrame) (q : Rtp) (h0 : s.canon) : (State.passSec s i x w f q).1.canon := by
  unfold State.passSec
  repeat' (with_reducible first | assumption | (intro _) | apply Hub.err_canon | apply MemSt.err_canon | apply MemSt.poison_canon | apply State.cipher_canon | apply State.canon_hub | apply State.canon_mem | apply MemSt.canon_cells | apply Hub.canon_regs | apply Hub.canon_shadow | apply Hub.canon_hostMem | apply Hub.canon_if | apply State.canon_if | apply MemSt.canon_if | (simp only [State.canon_mk, Hub.canon_mk, MemSt.canon_mk]) | apply And.intro | split)
theorem State.rtpMain_canon (s : State) (i : Nat) (x : InStream) (f : RxFrame) (q : Rtp) (h0 : s.canon) : (State.rtpMain s i x f q).canon := by
  unfold State.rtpMain
  have ha := State.admit_canon s i x x.replay f q h0
  split
  · rename_i heq
    rw [heq] at ha
    exact ha
  · rename_i heq
    rw [heq] at ha
    dsimp only at ha
    repeat' (with_reducible first | assumption | (intro _) | apply State.admit_canon | apply State.fecTry_canon | apply State.ingest_canon | apply State.canon_hub | apply State.canon_mem | apply MemSt.canon_cells | apply Hub.canon_regs | apply Hub.canon_shadow | apply Hub.canon_hostMem | (simp only [State.canon_mk, Hub.canon_mk, MemSt.canon_mk]) | apply And.intro | split)
theorem State.rtpRtx_canon (s : State) (i : Nat) (x : InStream) (f : RxFrame) (q : Rtp) (h0 : s.canon) : (State.rtpRtx s i x f q).canon := by
  unfold State.rtpRtx
  dsimp only
  have ha := State.admit_canon s i x x.rtxReplay f q h0
  split
  · rename_i heq
    rw [heq] at ha
    exact ha
  · rename_i heq
    rw [heq] at ha
    dsimp only at ha
    repeat' (with_reducible first | assumption | (intro _) | apply State.admit_canon | apply State.fecTry_canon | apply State.ingest_canon | apply State.canon_hub | apply State.canon_mem | apply MemSt.canon_cells | apply Hub.canon_regs | apply Hub.canon_shadow | apply Hub.canon_hostMem | (simp only [State.canon_mk, Hub.canon_mk, MemSt.canon_mk]) | apply And.intro | split)
theorem State.rtpFec_canon (s : State) (i : Nat) (x : InStream) (f : RxFrame) (q : Rtp) (h0 : s.canon) : (State.rtpFec s i x f q).canon := by
  unfold State.rtpFec
  dsimp only
  have ha := State.admit_canon s i x x.fecReplay f q h0
  split
  · rename_i heq
    rw [heq] at ha
    exact ha
  · rename_i heq
    rw [heq] at ha
    dsimp only at ha
    repeat' (with_reducible first | assumption | (intro _) | apply Hub.fecDrop_canon | apply State.admit_canon | apply State.fecTry_canon | apply State.canon_hub | apply State.canon_mem | apply MemSt.canon_cells | apply Hub.canon_regs | apply Hub.canon_shadow | apply Hub.canon_hostMem | apply Hub.canon_if | apply State.canon_if | apply MemSt.canon_if | (simp only [State.canon_mk, Hub.canon_mk, MemSt.canon_mk]) | apply And.intro | split)
theorem State.rtp_canon (s : State) (leg k : Nat) (f : RxFrame) (h0 : s.canon) : (State.rtp s leg k f).canon := by
  unfold State.rtp
  split
  · exact State.parseBad_canon _ _ h0
  · extract_lets s1 mine h s2
    have h1 : s1.canon := State.legCount_canon _ _ _ h0
    clear_value s1 mine
    split
    · exact State.rtpMain_canon _ _ _ _ _ h1
    · split
      · exact State.rtpRtx_canon _ _ _ _ _ h1
      · split
        · exact State.rtpFec_canon _ _ _ _ _ h1
        · have hh : h.canon := Hub.raiseRl_canon _ _ (Hub.err_canon _ _ _ _ _ h1.1)
          clear_value h
          have h2 : s2.canon := ⟨hh, h1.2⟩
          clear_value s2
          split
          · exact State.exception_canon _ _ _ _ _ h2
          · exact h2
theorem State.legRtcp_canon (s : State) (i : Nat) (f : RxFrame) (h0 : s.canon) : (State.legRtcp s i f).canon := by
  unfold State.legRtcp
  repeat' (with_reducible first | assumption | (intro _) | apply Hub.err_canon | apply MemSt.err_canon | apply MemSt.poison_canon | apply State.cipher_canon | apply State.rtcpCompound_canon | apply State.canon_hub | apply State.canon_mem | apply MemSt.canon_cells | apply Hub.canon_regs | apply Hub.canon_shadow | apply Hub.canon_hostMem | apply Hub.canon_if | apply State.canon_if | apply MemSt.canon_if | (simp only [State.canon_mk, Hub.canon_mk, MemSt.canon_mk]) | apply And.intro | split)
theorem State.legFrame_canon (s : State) (i k : Nat) (f : RxFrame) (h0 : s.canon) : (State.legFrame s i k f).canon := by
  unfold State.legFrame
  repeat' (with_reducible first | assumption | (intro _) | apply State.exception_canon | apply State.legRtcp_canon | apply State.parseBad_canon | apply State.rtp_canon | apply State.stun_canon | apply State.canon_hub | apply State.canon_mem | apply MemSt.canon_cells | apply Hub.canon_regs | apply Hub.canon_shadow | apply Hub.canon_hostMem | apply Hub.canon_if | apply State.canon_if | apply MemSt.canon_if | (simp only [State.canon_mk, Hub.canon_mk, MemSt.canon_mk]) | apply And.intro | split)
theorem State.classify_canon (s : State) (f : RxFrame) (h0 : s.canon) : (State.classify s f).canon := by
  unfold State.classify
  repeat' (with_reducible first | assumption | (intro _) | apply Hub.err_canon | apply MemSt.err_canon | apply State.exception_canon | apply State.legFrame_canon | apply State.parseBad_canon | apply State.canon_hub | apply State.canon_mem | apply MemSt.canon_cells | apply Hub.canon_regs | apply Hub.canon_shadow | apply Hub.canon_hostMem | apply Hub.canon_if | apply State.canon_if | apply MemSt.canon_if | (simp only [State.canon_mk, Hub.canon_mk, MemSt.canon_mk]) | apply And.intro | split)
theorem execRtcpIntervalTimer_canon (leg : Nat) (s : State) (h0 : s.canon) : ∃ t, execRtcpIntervalTimer leg s = .next t ∧ t.canon := by
  refine ⟨_, rfl, ?_⟩
  repeat' (with_reducible first | assumption | (intro _) | apply State.rtcpSend_canon | apply State.canon_hub | apply State.canon_mem | apply MemSt.canon_cells | apply Hub.canon_regs | apply Hub.canon_shadow | apply Hub.canon_hostMem | apply Hub.canon_if | apply State.canon_if | apply MemSt.canon_if | (simp only [State.canon_mk, Hub.canon_mk, MemSt.canon_mk]) | apply And.intro | split)
theorem execCcfbIntervalTimer_canon (leg : Nat) (s : State) (h0 : s.canon) : ∃ t, execCcfbIntervalTimer leg s = .next t ∧ t.canon := by
  refine ⟨_, rfl, ?_⟩
  repeat' (with_reducible first | assumption | (intro _) | apply State.rtcpSend_canon | apply State.canon_hub | apply State.canon_mem | apply MemSt.canon_cells | apply Hub.canon_regs | apply Hub.canon_shadow | apply Hub.canon_hostMem | apply regsWf_filter | apply regsWf_kvFilter | apply memWf_filter | apply Hub.canon_if | apply State.canon_if | apply MemSt.canon_if | (simp only [State.canon_mk, Hub.canon_mk, MemSt.canon_mk]) | apply And.intro | split)
theorem execUpstreamNackTimer_canon (stream seq : Nat) (s : State) (h0 : s.canon) : ∃ t, execUpstreamNackTimer stream seq s = .next t ∧ t.canon := by
  refine ⟨_, rfl, ?_⟩
  repeat' (with_reducible first | assumption | (intro _) | apply State.feedback_canon | apply State.canon_hub | apply State.canon_mem | apply MemSt.canon_cells | apply Hub.canon_regs | apply Hub.canon_shadow | apply Hub.canon_hostMem | apply Hub.canon_if | apply State.canon_if | apply MemSt.canon_if | (simp only [State.canon_mk, Hub.canon_mk, MemSt.canon_mk]) | apply And.intro | split)
theorem execSwitchWaitExpiry_canon (sub : Nat) (s : State) (h0 : s.canon) : ∃ t, execSwitchWaitExpiry sub s = .next t ∧ t.canon := by
  refine ⟨_, rfl, ?_⟩
  repeat' (with_reducible first | assumption | (intro _) | apply State.keyRequest_canon | apply State.putSub_canon | apply State.canon_hub | apply State.canon_mem | apply MemSt.canon_cells | apply Hub.canon_regs | apply Hub.canon_shadow | apply Hub.canon_hostMem | apply Hub.canon_if | apply State.canon_if | apply MemSt.canon_if | (simp only [State.canon_mk, Hub.canon_mk, MemSt.canon_mk]) | apply And.intro | split)
theorem execAllocIntervalTimer_canon (leg : Nat) (s : State) (h0 : s.canon) : ∃ t, execAllocIntervalTimer leg s = .next t ∧ t.canon := by
  refine ⟨_, rfl, ?_⟩
  repeat' (with_reducible first | assumption | (intro _) | apply State.allocate_canon | apply State.canon_hub | apply State.canon_mem | apply MemSt.canon_cells | apply Hub.canon_regs | apply Hub.canon_shadow | apply Hub.canon_hostMem | apply Hub.canon_if | apply State.canon_if | apply MemSt.canon_if | (simp only [State.canon_mk, Hub.canon_mk, MemSt.canon_mk]) | apply And.intro | split)
theorem State.inEpoch_canon (s : State) (n : Nat) (epoch : Bool) (work : State → State) (h : ∀ t : State, t.canon → (work t).canon) (h0 : s.canon) : (s.inEpoch n epoch work).canon := by
  unfold State.inEpoch
  split
  · rename_i d _
    split
    · exact h s h0
    · have := h { s with fab := s.fab.asFormer n d } ⟨h0.1, h0.2⟩
      exact ⟨this.1, this.2⟩
  · exact h s h0
theorem State.setShare_canon (s : State) (u sash r : Nat) (x : EncShare) (h0 : s.canon) : (State.setShare s u sash r x).canon := by
  unfold State.setShare
  repeat' (with_reducible first | assumption | (intro _) | apply State.canon_hub | apply State.canon_mem | apply MemSt.canon_cells | apply Hub.canon_regs | apply Hub.canon_shadow | apply Hub.canon_hostMem | (simp only [State.canon_mk, Hub.canon_mk, MemSt.canon_mk]) | apply And.intro | split)
theorem State.encRaise_canon (s : State) (code u sash frame k : Nat) (h0 : s.canon) : (State.encRaise s code u sash frame k).canon := by
  unfold State.encRaise
  repeat' (with_reducible first | assumption | (intro _) | apply Hub.raiseRl_canon | apply State.canon_hub | apply State.canon_mem | apply MemSt.canon_cells | apply Hub.canon_regs | apply Hub.canon_shadow | apply Hub.canon_hostMem | (simp only [State.canon_mk, Hub.canon_mk, MemSt.canon_mk]) | apply And.intro | split)
theorem State.encErr_canon (s : State) (f : Fld) (u n : Nat) (h0 : s.canon) : (State.encErr s f u n).canon := by
  unfold State.encErr
  repeat' (with_reducible first | assumption | (intro _) | apply Hub.errN_canon | apply State.canon_hub | apply State.canon_mem | apply MemSt.canon_cells | apply Hub.canon_regs | apply Hub.canon_shadow | apply Hub.canon_hostMem | (simp only [State.canon_mk, Hub.canon_mk, MemSt.canon_mk]) | apply And.intro | split)
theorem State.paneNeed_canon (s : State) (spl id : Nat) (h0 : s.canon) : (State.paneNeed s spl id).canon := by
  unfold State.paneNeed
  repeat' (with_reducible first | assumption | (intro _) | apply Hub.stat_canon | apply State.jlSvc_canon | apply State.canon_hub | apply State.canon_mem | apply MemSt.canon_cells | apply Hub.canon_regs | apply Hub.canon_shadow | apply Hub.canon_hostMem | apply Hub.canon_if | apply State.canon_if | apply MemSt.canon_if | (simp only [State.canon_mk, Hub.canon_mk, MemSt.canon_mk]) | apply And.intro | split)
theorem State.encInput_canon (s : State) (sash src cf : Nat) (upTo : Nat → Nat) (h0 : s.canon) : (State.encInput s sash src cf upTo).canon := by
  unfold State.encInput
  repeat' (with_reducible first | assumption | (intro _) | apply State.canon_hub | apply State.canon_mem | apply MemSt.canon_cells | apply Hub.canon_regs | apply Hub.canon_shadow | apply Hub.canon_hostMem | apply regsWf_filter | apply regsWf_kvFilter | apply memWf_filter | apply Hub.canon_if | apply State.canon_if | apply MemSt.canon_if | apply Hub.canon_foldl | apply State.canon_foldl | apply MemSt.canon_foldl | apply State.canon_foldl_fst | (simp only [State.canon_mk, Hub.canon_mk, MemSt.canon_mk]) | apply And.intro | split)
theorem State.encGap_canon (s : State) (sash src cf k : Nat) (h0 : s.canon) : (State.encGap s sash src cf k).canon := by
  unfold State.encGap
  repeat' (with_reducible first | assumption | (intro _) | apply State.canon_hub | apply State.canon_mem | apply MemSt.canon_cells | apply Hub.canon_regs | apply Hub.canon_shadow | apply Hub.canon_hostMem | apply regsWf_filter | apply regsWf_kvFilter | apply memWf_filter | apply Hub.canon_foldl | apply State.canon_foldl | apply MemSt.canon_foldl | apply State.canon_foldl_fst | (simp only [State.canon_mk, Hub.canon_mk, MemSt.canon_mk]) | apply And.intro | split)
theorem State.encFrameStart_canon (s : State) (u sash r : Nat) (g : EncGeom) (h0 : s.canon) (s1 : State) (h : s.encFrameStart u sash r g = some s1) : s1.canon := by
  unfold State.encFrameStart at h
  dsimp only at h
  split at h
  · have := Option.some.inj h
    subst this
    repeat' (with_reducible first | assumption | (intro _) | apply h | apply State.setShare_canon | apply State.canon_hub | apply State.canon_mem | apply MemSt.canon_cells | apply Hub.canon_regs | apply Hub.canon_shadow | apply Hub.canon_hostMem | apply regsWf_filter | apply regsWf_kvFilter | apply memWf_filter | apply Hub.canon_if | apply State.canon_if | apply MemSt.canon_if | (simp only [State.canon_mk, Hub.canon_mk, MemSt.canon_mk]) | apply And.intro | split)
  · cases h
theorem State.retarget_canon (s : State) (smp : Nat) (h0 : s.canon) : (State.retarget s smp).canon := by
  unfold State.retarget
  repeat' (with_reducible first | assumption | (intro _) | apply State.canon_hub | apply State.canon_mem | apply MemSt.canon_cells | apply Hub.canon_regs | apply Hub.canon_shadow | apply Hub.canon_hostMem | apply Hub.canon_if | apply State.canon_if | apply MemSt.canon_if | (simp only [State.canon_mk, Hub.canon_mk, MemSt.canon_mk]) | apply And.intro | split)
theorem State.nodeSet_canon (s : State) (smp : Nat) (l : List (Nat × Nat × Nat)) (h0 : s.canon) : (State.nodeSet s smp l).canon := by
  unfold State.nodeSet
  repeat' (with_reducible first | assumption | (intro _) | apply State.retarget_canon | apply State.canon_hub | apply State.canon_mem | apply MemSt.canon_cells | apply Hub.canon_regs | apply Hub.canon_shadow | apply Hub.canon_hostMem | apply Hub.canon_foldl | apply State.canon_foldl | apply MemSt.canon_foldl | apply State.canon_foldl_fst | (simp only [State.canon_mk, Hub.canon_mk, MemSt.canon_mk]) | apply And.intro | split)
theorem State.gainStep_canon (s : State) (k : Nat) (j : Option Nat) (smp : Nat) (h0 : s.canon) : (State.gainStep s k j smp).canon := by
  unfold State.gainStep
  repeat' (with_reducible first | assumption | (intro _) | apply State.canon_hub | apply State.canon_mem | apply MemSt.canon_cells | apply Hub.canon_regs | apply Hub.canon_shadow | apply Hub.canon_hostMem | apply Hub.canon_if | apply State.canon_if | apply MemSt.canon_if | (simp only [State.canon_mk, Hub.canon_mk, MemSt.canon_mk]) | apply And.intro | split)
theorem execGainStepZeroCross_canon (sink : Nat) (source : Option Nat) (sample : Nat) (s : State) (h0 : s.canon) : ∃ t, execGainStepZeroCross sink source sample s = .next t ∧ t.canon := by
  refine ⟨_, rfl, ?_⟩
  repeat' (with_reducible first | assumption | (intro _) | apply State.gainStep_canon | apply State.sample_canon | apply State.canon_hub | apply State.canon_mem | apply MemSt.canon_cells | apply Hub.canon_regs | apply Hub.canon_shadow | apply Hub.canon_hostMem | apply Hub.canon_if | apply State.canon_if | apply MemSt.canon_if | (simp only [State.canon_mk, Hub.canon_mk, MemSt.canon_mk]) | apply And.intro | split)
theorem execGainStepTimeout_canon (sink : Nat) (source : Option Nat) (s : State) (h0 : s.canon) : ∃ t, execGainStepTimeout sink source s = .next t ∧ t.canon := by
  refine ⟨_, rfl, ?_⟩
  repeat' (with_reducible first | assumption | (intro _) | apply State.gainStep_canon | apply State.canon_hub | apply State.canon_mem | apply MemSt.canon_cells | apply Hub.canon_regs | apply Hub.canon_shadow | apply Hub.canon_hostMem | apply Hub.canon_if | apply State.canon_if | apply MemSt.canon_if | (simp only [State.canon_mk, Hub.canon_mk, MemSt.canon_mk]) | apply And.intro | split)
theorem execAsHoldExpiry_canon (sink : Nat) (s : State) (h0 : s.canon) : ∃ t, execAsHoldExpiry sink s = .next t ∧ t.canon := by
  refine ⟨_, rfl, ?_⟩
  repeat' (with_reducible first | assumption | (intro _) | apply State.canon_hub | apply State.canon_mem | apply MemSt.canon_cells | apply Hub.canon_regs | apply Hub.canon_shadow | apply Hub.canon_hostMem | apply Hub.canon_if | apply State.canon_if | apply MemSt.canon_if | (simp only [State.canon_mk, Hub.canon_mk, MemSt.canon_mk]) | apply And.intro | split)
theorem execAudSrcBind_canon (e : CmdEnv) (body : List Byte) (s : State) (h0 : s.canon) : ∃ t, execAudSrcBind e body s = .next t ∧ t.canon := by
  refine ⟨_, rfl, ?_⟩
  repeat' (with_reducible first | assumption | (intro _) | apply State.done_canon | apply State.canon_hub | apply State.canon_mem | apply MemSt.canon_cells | apply Hub.canon_regs | apply Hub.canon_shadow | apply Hub.canon_hostMem | (simp only [State.canon_mk, Hub.canon_mk, MemSt.canon_mk]) | apply And.intro | split)
theorem execAudSnkBind_canon (e : CmdEnv) (body : List Byte) (s : State) (h0 : s.canon) : ∃ t, execAudSnkBind e body s = .next t ∧ t.canon := by
  refine ⟨_, rfl, ?_⟩
  repeat' (with_reducible first | assumption | (intro _) | apply State.done_canon | apply State.canon_hub | apply State.canon_mem | apply MemSt.canon_cells | apply Hub.canon_regs | apply Hub.canon_shadow | apply Hub.canon_hostMem | (simp only [State.canon_mk, Hub.canon_mk, MemSt.canon_mk]) | apply And.intro | split)
theorem execAudNodeSet_canon (e : CmdEnv) (body : List Byte) (s : State) (h0 : s.canon) : ∃ t, execAudNodeSet e body s = .next t ∧ t.canon := by
  refine ⟨_, rfl, ?_⟩
  repeat' (with_reducible first | assumption | (intro _) | apply State.done_canon | apply State.hold_canon | apply State.canon_hub | apply State.canon_mem | apply MemSt.canon_cells | apply Hub.canon_regs | apply Hub.canon_shadow | apply Hub.canon_hostMem | apply Hub.canon_if | apply State.canon_if | apply MemSt.canon_if | (simp only [State.canon_mk, Hub.canon_mk, MemSt.canon_mk]) | apply And.intro | split)
theorem State.audChange_canon (s : State) (i : Instr) (h0 : s.canon) : (State.audChange s i).canon := by
  unfold State.audChange
  repeat' (with_reducible first | assumption | (intro _) | apply State.nodeSet_canon | apply State.canon_hub | apply State.canon_mem | apply MemSt.canon_cells | apply Hub.canon_regs | apply Hub.canon_shadow | apply Hub.canon_hostMem | (simp only [State.canon_mk, Hub.canon_mk, MemSt.canon_mk]) | apply And.intro | split)
theorem State.audcStat_canon (s : State) (u : Nat) (h0 : s.canon) : (State.audcStat s u).canon := by
  unfold State.audcStat
  repeat' (with_reducible first | assumption | (intro _) | apply Hub.set1_canon | apply State.canon_hub | apply State.canon_mem | apply MemSt.canon_cells | apply Hub.canon_regs | apply Hub.canon_shadow | apply Hub.canon_hostMem | (simp only [State.canon_mk, Hub.canon_mk, MemSt.canon_mk]) | apply And.intro | split)
theorem State.audcSetup_canon (s : State) (u : Nat) (h0 : s.canon) : (State.audcSetup s u).canon := by
  unfold State.audcSetup
  repeat' (with_reducible first | assumption | (intro _) | apply Hub.raise_canon | apply Hub.set1_canon | apply State.canon_hub | apply State.canon_mem | apply MemSt.canon_cells | apply Hub.canon_regs | apply Hub.canon_shadow | apply Hub.canon_hostMem | apply Hub.canon_if | apply State.canon_if | apply MemSt.canon_if | (simp only [State.canon_mk, Hub.canon_mk, MemSt.canon_mk]) | apply And.intro | split)
theorem State.decOpen_canon (s : State) (c unit stream src jb : Nat) (h0 : s.canon) : (State.decOpen s c unit stream src jb).canon := by
  unfold State.decOpen
  repeat' (with_reducible first | assumption | (intro _) | apply State.audcStat_canon | apply State.canon_hub | apply State.canon_mem | apply MemSt.canon_cells | apply Hub.canon_regs | apply Hub.canon_shadow | apply Hub.canon_hostMem | (simp only [State.canon_mk, Hub.canon_mk, MemSt.canon_mk]) | apply And.intro | split)
theorem State.encOpen_canon (s : State) (c : Nat) (x : AudEnc) (h0 : s.canon) : (State.encOpen s c x).canon := by
  unfold State.encOpen
  repeat' (with_reducible first | assumption | (intro _) | apply State.audcStat_canon | apply State.canon_hub | apply State.canon_mem | apply MemSt.canon_cells | apply Hub.canon_regs | apply Hub.canon_shadow | apply Hub.canon_hostMem | apply Hub.canon_if | apply State.canon_if | apply MemSt.canon_if | (simp only [State.canon_mk, Hub.canon_mk, MemSt.canon_mk]) | apply And.intro | split)
theorem State.decClose_canon (s : State) (c : Nat) (h0 : s.canon) : (State.decClose s c).canon := by
  unfold State.decClose
  repeat' (with_reducible first | assumption | (intro _) | apply State.audcStat_canon | apply State.canon_hub | apply State.canon_mem | apply MemSt.canon_cells | apply Hub.canon_regs | apply Hub.canon_shadow | apply Hub.canon_hostMem | apply Hub.canon_if | apply State.canon_if | apply MemSt.canon_if | (simp only [State.canon_mk, Hub.canon_mk, MemSt.canon_mk]) | apply And.intro | split)
theorem State.encClose_canon (s : State) (c : Nat) (h0 : s.canon) : (State.encClose s c).canon := by
  unfold State.encClose
  repeat' (with_reducible first | assumption | (intro _) | apply State.audcStat_canon | apply State.canon_hub | apply State.canon_mem | apply MemSt.canon_cells | apply Hub.canon_regs | apply Hub.canon_shadow | apply Hub.canon_hostMem | apply Hub.canon_if | apply State.canon_if | apply MemSt.canon_if | (simp only [State.canon_mk, Hub.canon_mk, MemSt.canon_mk]) | apply And.intro | split)
theorem execAudDecOpen_canon (e : CmdEnv) (body : List Byte) (s : State) (h0 : s.canon) : ∃ t, execAudDecOpen e body s = .next t ∧ t.canon := by
  refine ⟨_, rfl, ?_⟩
  repeat' (with_reducible first | assumption | (intro _) | apply State.decOpen_canon | apply State.done_canon | apply State.canon_hub | apply State.canon_mem | apply MemSt.canon_cells | apply Hub.canon_regs | apply Hub.canon_shadow | apply Hub.canon_hostMem | (simp only [State.canon_mk, Hub.canon_mk, MemSt.canon_mk]) | apply And.intro | split)
theorem execAudEncOpen_canon (e : CmdEnv) (body : List Byte) (s : State) (h0 : s.canon) : ∃ t, execAudEncOpen e body s = .next t ∧ t.canon := by
  refine ⟨_, rfl, ?_⟩
  repeat' (with_reducible first | assumption | (intro _) | apply State.done_canon | apply State.encOpen_canon | apply State.canon_hub | apply State.canon_mem | apply MemSt.canon_cells | apply Hub.canon_regs | apply Hub.canon_shadow | apply Hub.canon_hostMem | (simp only [State.canon_mk, Hub.canon_mk, MemSt.canon_mk]) | apply And.intro | split)
theorem execAudClose_canon (e : CmdEnv) (body : List Byte) (s : State) (h0 : s.canon) : ∃ t, execAudClose e body s = .next t ∧ t.canon := by
  refine ⟨_, rfl, ?_⟩
  repeat' (with_reducible first | assumption | (intro _) | apply State.done_canon | apply State.canon_hub | apply State.canon_mem | apply MemSt.canon_cells | apply Hub.canon_regs | apply Hub.canon_shadow | apply Hub.canon_hostMem | apply Hub.canon_if | apply State.canon_if | apply MemSt.canon_if | (simp only [State.canon_mk, Hub.canon_mk, MemSt.canon_mk]) | apply And.intro | split)
theorem State.audRoom_canon (s : State) (l : List (Bool × Nat × Nat)) (h0 : s.canon) : (State.audRoom s l).canon := by
  unfold State.audRoom
  repeat' (with_reducible first | assumption | (intro _) | apply State.retarget_canon | apply State.canon_hub | apply State.canon_mem | apply MemSt.canon_cells | apply Hub.canon_regs | apply Hub.canon_shadow | apply Hub.canon_hostMem | apply Hub.canon_if | apply State.canon_if | apply MemSt.canon_if | apply Hub.canon_foldl | apply State.canon_foldl | apply MemSt.canon_foldl | apply State.canon_foldl_fst | (simp only [State.canon_mk, Hub.canon_mk, MemSt.canon_mk]) | apply And.intro | split)
theorem execAudRoom_canon (e : CmdEnv) (body : List Byte) (s : State) (h0 : s.canon) : ∃ t, execAudRoom e body s = .next t ∧ t.canon := by
  refine ⟨_, rfl, ?_⟩
  repeat' (with_reducible first | assumption | (intro _) | apply State.audRoom_canon | apply State.done_canon | apply State.canon_hub | apply State.canon_mem | apply MemSt.canon_cells | apply Hub.canon_regs | apply Hub.canon_shadow | apply Hub.canon_hostMem | apply Hub.canon_if | apply State.canon_if | apply MemSt.canon_if | (simp only [State.canon_mk, Hub.canon_mk, MemSt.canon_mk]) | apply And.intro | split)
theorem execOnePerRoomTimer_canon (s : State) (h0 : s.canon) : ∃ t, execOnePerRoomTimer s = .next t ∧ t.canon := by
  refine ⟨_, rfl, ?_⟩
  repeat' (with_reducible first | assumption | (intro _) | apply State.retarget_canon | apply State.canon_hub | apply State.canon_mem | apply MemSt.canon_cells | apply Hub.canon_regs | apply Hub.canon_shadow | apply Hub.canon_hostMem | apply regsWf_filter | apply regsWf_kvFilter | apply memWf_filter | apply Hub.canon_if | apply State.canon_if | apply MemSt.canon_if | apply Hub.canon_foldl | apply State.canon_foldl | apply MemSt.canon_foldl | apply State.canon_foldl_fst | (simp only [State.canon_mk, Hub.canon_mk, MemSt.canon_mk]) | apply And.intro | split)
theorem execAudStats_canon (e : CmdEnv) (body : List Byte) (s : State) (h0 : s.canon) : ∃ t, execAudStats e body s = .next t ∧ t.canon := by
  refine ⟨_, rfl, ?_⟩
  repeat' (with_reducible first | assumption | (intro _) | apply State.done_canon | apply State.canon_hub | apply State.canon_mem | apply MemSt.canon_cells | apply Hub.canon_regs | apply Hub.canon_shadow | apply Hub.canon_hostMem | apply Hub.canon_if | apply State.canon_if | apply MemSt.canon_if | (simp only [State.canon_mk, Hub.canon_mk, MemSt.canon_mk]) | apply And.intro | split)
theorem State.dblStat_canon (s : State) (h0 : s.canon) : (State.dblStat s).canon := by
  unfold State.dblStat
  repeat' (with_reducible first | assumption | (intro _) | apply Hub.set_canon | apply State.canon_hub | apply State.canon_mem | apply MemSt.canon_cells | apply Hub.canon_regs | apply Hub.canon_shadow | apply Hub.canon_hostMem | (simp only [State.canon_mk, Hub.canon_mk, MemSt.canon_mk]) | apply And.intro | split)
theorem State.dblCheck_canon (s : State) (h0 : s.canon) : (State.dblCheck s).canon := by
  unfold State.dblCheck
  repeat' (with_reducible first | assumption | (intro _) | apply Hub.raise_canon | apply State.canon_hub | apply State.canon_mem | apply MemSt.canon_cells | apply Hub.canon_regs | apply Hub.canon_shadow | apply Hub.canon_hostMem | apply regsWf_filter | apply regsWf_kvFilter | apply memWf_filter | apply Hub.canon_foldl | apply State.canon_foldl | apply MemSt.canon_foldl | apply State.canon_foldl_fst | (simp only [State.canon_mk, Hub.canon_mk, MemSt.canon_mk]) | apply And.intro | split)
theorem State.dblEnded_canon (s : State) (h0 : s.canon) : (State.dblEnded s).canon := by
  unfold State.dblEnded
  repeat' (with_reducible first | assumption | (intro _) | apply State.dblStat_canon | apply State.canon_hub | apply State.canon_mem | apply MemSt.canon_cells | apply Hub.canon_regs | apply Hub.canon_shadow | apply Hub.canon_hostMem | apply regsWf_filter | apply regsWf_kvFilter | apply memWf_filter | (simp only [State.canon_mk, Hub.canon_mk, MemSt.canon_mk]) | apply And.intro | split)
theorem State.dwellsEnd_canon (s : State) (keys : List Nat) (again : Bool) (h0 : s.canon) : (State.dwellsEnd s keys again).canon := by
  unfold State.dwellsEnd
  repeat' (with_reducible first | assumption | (intro _) | apply State.dblStat_canon | apply State.canon_hub | apply State.canon_mem | apply MemSt.canon_cells | apply Hub.canon_regs | apply Hub.canon_shadow | apply Hub.canon_hostMem | apply regsWf_filter | apply regsWf_kvFilter | apply memWf_filter | apply Hub.canon_if | apply State.canon_if | apply MemSt.canon_if | (simp only [State.canon_mk, Hub.canon_mk, MemSt.canon_mk]) | apply And.intro | split)
theorem State.dwellCheck_canon (s : State) (h0 : s.canon) : (State.dwellCheck s).canon := by
  unfold State.dwellCheck
  repeat' (with_reducible first | assumption | (intro _) | apply State.dwellsEnd_canon | apply State.canon_hub | apply State.canon_mem | apply MemSt.canon_cells | apply Hub.canon_regs | apply Hub.canon_shadow | apply Hub.canon_hostMem | apply regsWf_filter | apply regsWf_kvFilter | apply memWf_filter | (simp only [State.canon_mk, Hub.canon_mk, MemSt.canon_mk]) | apply And.intro | split)
theorem State.inFrame_canon (s : State) (u sash r n : Nat) (work : EncGeom → EncFrame → State → State) (h : ∀ (g : EncGeom) (f : EncFrame) (t : State), t.canon → (work g f t).canon) (h0 : s.canon) : (s.inFrame u sash r n work).canon := by
  unfold State.inFrame
  split
  · refine State.inEpoch_canon _ _ _ _ (fun t ht => ?_) h0
    split
    · exact h _ _ t ht
    · exact ht
  · exact h0
theorem State.encCommit_canon (s : State) (sash r num bits : Nat) (h0 : s.canon) : (State.encCommit s sash r num bits).canon := by
  unfold State.encCommit
  repeat' (with_reducible first | assumption | (intro _) | apply State.canon_hub | apply State.canon_mem | apply MemSt.canon_cells | apply Hub.canon_regs | apply Hub.canon_shadow | apply Hub.canon_hostMem | (simp only [State.canon_mk, Hub.canon_mk, MemSt.canon_mk]) | apply And.intro | split)
theorem State.hdrBad_canon (s : State) (u sash frame k : Nat) (h0 : s.canon) : (State.hdrBad s u sash frame k).canon := by
  unfold State.hdrBad
  repeat' (with_reducible first | assumption | (intro _) | apply State.encErr_canon | apply State.encRaise_canon | apply State.canon_hub | apply State.canon_mem | apply MemSt.canon_cells | apply Hub.canon_regs | apply Hub.canon_shadow | apply Hub.canon_hostMem | (simp only [State.canon_mk, Hub.canon_mk, MemSt.canon_mk]) | apply And.intro | split)
theorem execHeaderRecordReceive_canon (unit sash : Nat) (poison : Bool) (rec : List Byte) (s : State) (h0 : s.canon) : ∃ t, execHeaderRecordReceive unit sash poison rec s = .next t ∧ t.canon := by
  refine ⟨_, rfl, ?_⟩
  repeat' (with_reducible first | assumption | (intro _) | apply MemSt.poison_canon | apply State.encCommit_canon | apply State.encErr_canon | apply State.encRaise_canon | apply State.hdrBad_canon | apply State.setShare_canon | apply State.canon_hub | apply State.canon_mem | apply MemSt.canon_cells | apply Hub.canon_regs | apply Hub.canon_shadow | apply Hub.canon_hostMem | apply Hub.canon_if | apply State.canon_if | apply MemSt.canon_if | (simp only [State.canon_mk, Hub.canon_mk, MemSt.canon_mk]) | apply And.intro | split)
theorem execPictureDescriptorReceive_canon (unit sash : Nat) (desc : List Byte) (s : State) (h0 : s.canon) : ∃ t, execPictureDescriptorReceive unit sash desc s = .next t ∧ t.canon := by
  refine ⟨_, rfl, ?_⟩
  repeat' (with_reducible first | assumption | (intro _) | apply State.canon_hub | apply State.canon_mem | apply MemSt.canon_cells | apply Hub.canon_regs | apply Hub.canon_shadow | apply Hub.canon_hostMem | apply regsWf_filter | apply regsWf_kvFilter | apply memWf_filter | apply Hub.canon_if | apply State.canon_if | apply MemSt.canon_if | (simp only [State.canon_mk, Hub.canon_mk, MemSt.canon_mk]) | apply And.intro | split)
theorem State.deliver_canon (s : State) (sash src : Nat) (kind : String) (args : List Nat) (h0 : s.canon) : (State.deliver s sash src kind args).canon := by
  unfold State.deliver
  repeat' (with_reducible first | assumption | (intro _) | apply Hub.emits_canon | apply State.canon_hub | apply State.canon_mem | apply MemSt.canon_cells | apply Hub.canon_regs | apply Hub.canon_shadow | apply Hub.canon_hostMem | (simp only [State.canon_mk, Hub.canon_mk, MemSt.canon_mk]) | apply And.intro | split)
theorem State.paneChunk_canon (s : State) (u sash r : Nat) (g : EncGeom) (f : EncFrame) (row : Nat) (late : Bool) (n : Nat) (p : EncPane) (h0 : s.canon) : (State.paneChunk s u sash r g f row late n p).canon := by
  unfold State.paneChunk
  repeat' (with_reducible first | assumption | (intro _) | apply State.deliver_canon | apply State.canon_hub | apply State.canon_mem | apply MemSt.canon_cells | apply Hub.canon_regs | apply Hub.canon_shadow | apply Hub.canon_hostMem | apply regsWf_filter | apply regsWf_kvFilter | apply memWf_filter | apply Hub.canon_if | apply State.canon_if | apply MemSt.canon_if | apply Hub.canon_foldl | apply State.canon_foldl | apply MemSt.canon_foldl | apply State.canon_foldl_fst | (simp only [State.canon_mk, Hub.canon_mk, MemSt.canon_mk]) | apply And.intro | split)
theorem State.encRelease_canon (s : State) (u sash r : Nat) (g : EncGeom) (f : EncFrame) (row : Nat) (late : Bool) (h0 : s.canon) : (State.encRelease s u sash r g f row late).canon := by
  unfold State.encRelease
  repeat' (with_reducible first | assumption | (intro _) | apply Hub.stat_canon | apply State.deliver_canon | apply State.encErr_canon | apply State.encRaise_canon | apply State.paneChunk_canon | apply State.setShare_canon | apply State.canon_hub | apply State.canon_mem | apply MemSt.canon_cells | apply Hub.canon_regs | apply Hub.canon_shadow | apply Hub.canon_hostMem | apply regsWf_filter | apply regsWf_kvFilter | apply memWf_filter | apply Hub.canon_if | apply State.canon_if | apply MemSt.canon_if | apply Hub.canon_foldl | apply State.canon_foldl | apply MemSt.canon_foldl | apply State.canon_foldl_fst | (simp only [State.canon_mk, Hub.canon_mk, MemSt.canon_mk]) | apply And.intro | split)
theorem State.encFlow_canon (s : State) (u sash r : Nat) (g : EncGeom) (frame : Nat) (x0 : Nat) (h0 : s.canon) : (State.encFlow s u sash r g frame x0).canon := by
  induction x0 generalizing s u sash r g frame with
  | zero =>
    unfold State.encFlow; try dsimp only
    repeat' (with_reducible first | assumption | (intro _) | apply State.encRelease_canon | apply State.canon_hub | apply State.canon_mem | apply MemSt.canon_cells | apply Hub.canon_regs | apply Hub.canon_shadow | apply Hub.canon_hostMem | apply Hub.canon_if | apply State.canon_if | apply MemSt.canon_if | (simp only [State.canon_mk, Hub.canon_mk, MemSt.canon_mk]) | apply And.intro | split)
  | succ n ih =>
    unfold State.encFlow; try dsimp only
    repeat' (with_reducible first | assumption | (intro _) | apply ih | apply State.encRelease_canon | apply State.canon_hub | apply State.canon_mem | apply MemSt.canon_cells | apply Hub.canon_regs | apply Hub.canon_shadow | apply Hub.canon_hostMem | apply Hub.canon_if | apply State.canon_if | apply MemSt.canon_if | (simp only [State.canon_mk, Hub.canon_mk, MemSt.canon_mk]) | apply And.intro | split)
theorem execReleaseRowTime_canon (unit sash rend frame row : Nat) (s : State) (h0 : s.canon) : ∃ t, execReleaseRowTime unit sash rend frame row s = .next t ∧ t.canon := by
  refine ⟨_, rfl, State.inFrame_canon _ _ _ _ _ _ (fun g f t ht => ?_) h0⟩
  repeat' (with_reducible first | assumption | (intro _) | apply State.encErr_canon | apply State.encRaise_canon | apply State.encRelease_canon | apply State.inFrame_canon | apply State.setShare_canon | apply State.canon_hub | apply State.canon_mem | apply MemSt.canon_cells | apply Hub.canon_regs | apply Hub.canon_shadow | apply Hub.canon_hostMem | apply Hub.canon_if | apply State.canon_if | apply MemSt.canon_if | (simp only [State.canon_mk, Hub.canon_mk, MemSt.canon_mk]) | apply And.intro | split)
theorem execLateRowRelease_canon (unit sash rend frame row : Nat) (s : State) (h0 : s.canon) : ∃ t, execLateRowRelease unit sash rend frame row s = .next t ∧ t.canon := by
  refine ⟨_, rfl, State.inFrame_canon _ _ _ _ _ _ (fun g f t ht => ?_) h0⟩
  repeat' (with_reducible first | assumption | (intro _) | apply State.encRelease_canon | apply State.inFrame_canon | apply State.canon_hub | apply State.canon_mem | apply MemSt.canon_cells | apply Hub.canon_regs | apply Hub.canon_shadow | apply Hub.canon_hostMem | apply Hub.canon_if | apply State.canon_if | apply MemSt.canon_if | (simp only [State.canon_mk, Hub.canon_mk, MemSt.canon_mk]) | apply And.intro | split)
theorem Hub.encStatus_canon (h : Hub) (u state mode sash : Nat) (h0 : h.canon) : (Hub.encStatus h u state mode sash).canon := by
  unfold Hub.encStatus
  repeat' (with_reducible first | assumption | (intro _) | apply Hub.set1_canon | apply State.canon_hub | apply State.canon_mem | apply MemSt.canon_cells | apply Hub.canon_regs | apply Hub.canon_shadow | apply Hub.canon_hostMem | (simp only [State.canon_mk, Hub.canon_mk, MemSt.canon_mk]) | apply And.intro | split)
theorem State.stripeBegin_canon (s : State) (x : EncStart) (g : EncGeom) (f : EncFrame) (h0 : s.canon) : (State.stripeBegin s x g f).canon := by
  unfold State.stripeBegin
  repeat' (with_reducible first | assumption | (intro _) | apply Hub.encStatus_canon | apply State.encCommit_canon | apply State.encRaise_canon | apply State.setShare_canon | apply State.canon_hub | apply State.canon_mem | apply MemSt.canon_cells | apply Hub.canon_regs | apply Hub.canon_shadow | apply Hub.canon_hostMem | apply Hub.canon_if | apply State.canon_if | apply MemSt.canon_if | (simp only [State.canon_mk, Hub.canon_mk, MemSt.canon_mk]) | apply And.intro | split)
theorem State.encDisable_canon (s : State) (sash r : Nat) (h0 : s.canon) : (State.encDisable s sash r).canon := by
  unfold State.encDisable
  repeat' (with_reducible first | assumption | (intro _) | apply State.canon_hub | apply State.canon_mem | apply MemSt.canon_cells | apply Hub.canon_regs | apply Hub.canon_shadow | apply Hub.canon_hostMem | apply Hub.canon_if | apply State.canon_if | apply MemSt.canon_if | (simp only [State.canon_mk, Hub.canon_mk, MemSt.canon_mk]) | apply And.intro | split)
theorem State.stripeStart_canon (s : State) (x : EncStart) (h0 : s.canon) : (State.stripeStart s x).canon := by
  unfold State.stripeStart
  extract_lets wait sh idle ready whole s0
  have hw : ∀ t : State, t.canon → (wait t).canon := fun t ht => by
    simp only [wait]
    exact ⟨Hub.encStatus_canon _ _ _ _ _ ht.1, ht.2⟩
  have hs : ∀ (a : State) g s1, a.canon → a.encFrameStart x.unit x.sash x.rend g = some s1 → s1.canon := fun a g s1 ha e => State.encFrameStart_canon a _ _ _ g ha s1 e
  have h1 : s0.canon := State.encDisable_canon _ _ _ h0
  clear_value wait s0 ready
  split
  · repeat' (with_reducible first | assumption | (intro _) | (exact hs _ _ _ h1 ‹_›) | apply State.stripeBegin_canon | apply hw | split)
  · split
    · refine State.inFrame_canon _ _ _ _ _ _ (fun g f t ht => ?_) h0
      repeat' (with_reducible first | assumption | (intro _) | apply State.stripeBegin_canon | apply hw | split)
    · exact h0
theorem State.unitFrameEnd_canon (s : State) (u sash r : Nat) (g : EncGeom) (f : EncFrame) (h0 : s.canon) : (State.unitFrameEnd s u sash r g f).canon := by
  unfold State.unitFrameEnd
  repeat' (with_reducible first | assumption | (intro _) | apply Hub.emit_canon | apply Hub.raise_canon | apply State.encErr_canon | apply State.setShare_canon | apply State.canon_hub | apply State.canon_mem | apply MemSt.canon_cells | apply Hub.canon_regs | apply Hub.canon_shadow | apply Hub.canon_hostMem | apply Hub.canon_if | apply State.canon_if | apply MemSt.canon_if | (simp only [State.canon_mk, Hub.canon_mk, MemSt.canon_mk]) | apply And.intro | split)
theorem State.stripeEnd_canon (s : State) (u sash r : Nat) (g : EncGeom) (f : EncFrame) (t : EncStripe) (h0 : s.canon) : (State.stripeEnd s u sash r g f t).canon := by
  unfold State.stripeEnd
  repeat' (with_reducible first | assumption | (intro _) | apply Hub.encStatus_canon | apply Hub.stat_canon | apply State.done_canon | apply State.encErr_canon | apply State.encFlow_canon | apply State.setShare_canon | apply State.unitFrameEnd_canon | apply State.canon_hub | apply State.canon_mem | apply MemSt.canon_cells | apply Hub.canon_regs | apply Hub.canon_shadow | apply Hub.canon_hostMem | apply Hub.canon_if | apply State.canon_if | apply MemSt.canon_if | (simp only [State.canon_mk, Hub.canon_mk, MemSt.canon_mk]) | apply And.intro | split)
theorem State.encMismatch_canon (s : State) (x : EncBlock) (g : EncGeom) (f : EncFrame) (t : EncStripe) (h0 : s.canon) : (State.encMismatch s x g f t).canon := by
  unfold State.encMismatch
  repeat' (with_reducible first | assumption | (intro _) | apply Hub.encStatus_canon | apply Hub.err_canon | apply Hub.raise_canon | apply MemSt.err_canon | apply State.permanent_canon | apply State.setShare_canon | apply State.transient_canon | apply State.canon_hub | apply State.canon_mem | apply MemSt.canon_cells | apply Hub.canon_regs | apply Hub.canon_shadow | apply Hub.canon_hostMem | apply Hub.canon_if | apply State.canon_if | apply MemSt.canon_if | (simp only [State.canon_mk, Hub.canon_mk, MemSt.canon_mk]) | apply And.intro | split)
theorem State.blockCoded_canon (s : State) (x : EncBlock) (g : EncGeom) (f : EncFrame) (t : EncStripe) (h0 : s.canon) : (State.blockCoded s x g f t).canon := by
  unfold State.blockCoded
  repeat' (with_reducible first | assumption | (intro _) | apply Hub.encStatus_canon | apply MemSt.poison_canon | apply State.encErr_canon | apply State.encMismatch_canon | apply State.encRaise_canon | apply State.setShare_canon | apply State.stripeEnd_canon | apply State.canon_hub | apply State.canon_mem | apply MemSt.canon_cells | apply Hub.canon_regs | apply Hub.canon_shadow | apply Hub.canon_hostMem | apply Hub.canon_if | apply State.canon_if | apply MemSt.canon_if | (simp only [State.canon_mk, Hub.canon_mk, MemSt.canon_mk]) | apply And.intro | split)
theorem execBlockCoded_canon (x : EncBlock) (s : State) (h0 : s.canon) : ∃ t, execBlockCoded x s = .next t ∧ t.canon := by
  unfold execBlockCoded
  refine ⟨_, rfl, ?_⟩
  split
  · refine State.inFrame_canon _ _ _ _ _ _ (fun g f t ht => ?_) h0
    repeat' (with_reducible first | assumption | (intro _) | apply State.blockCoded_canon | apply State.done_canon | apply State.inFrame_canon | apply State.canon_hub | apply State.canon_mem | apply MemSt.canon_cells | apply Hub.canon_regs | apply Hub.canon_shadow | apply Hub.canon_hostMem | apply Hub.canon_if | apply State.canon_if | apply MemSt.canon_if | (simp only [State.canon_mk, Hub.canon_mk, MemSt.canon_mk]) | apply And.intro | split)
  · exact h0
theorem execInputDeadline_canon (unit sash frame k : Nat) (s : State) (h0 : s.canon) : ∃ t, execInputDeadline unit sash frame k s = .next t ∧ t.canon := by
  refine ⟨_, rfl, ?_⟩
  repeat' (with_reducible first | assumption | (intro _) | apply Hub.encStatus_canon | apply State.done_canon | apply State.encErr_canon | apply State.encRaise_canon | apply State.setShare_canon | apply State.canon_hub | apply State.canon_mem | apply MemSt.canon_cells | apply Hub.canon_regs | apply Hub.canon_shadow | apply Hub.canon_hostMem | apply regsWf_filter | apply regsWf_kvFilter | apply memWf_filter | apply Hub.canon_if | apply State.canon_if | apply MemSt.canon_if | apply Hub.canon_foldl | apply State.canon_foldl | apply MemSt.canon_foldl | apply State.canon_foldl_fst | (simp only [State.canon_mk, Hub.canon_mk, MemSt.canon_mk]) | apply And.intro | split)
theorem execCodingDeadline_canon (unit sash rend frame k : Nat) (bits : List Nat) (s : State) (h0 : s.canon) : ∃ t, execCodingDeadline unit sash rend frame k bits s = .next t ∧ t.canon := by
  refine ⟨_, rfl, State.inFrame_canon _ _ _ _ _ _ (fun g f t ht => ?_) h0⟩
  repeat' (with_reducible first | assumption | (intro _) | apply State.done_canon | apply State.encErr_canon | apply State.inFrame_canon | apply State.stripeEnd_canon | apply State.canon_hub | apply State.canon_mem | apply MemSt.canon_cells | apply Hub.canon_regs | apply Hub.canon_shadow | apply Hub.canon_hostMem | apply Hub.canon_if | apply State.canon_if | apply MemSt.canon_if | apply Hub.canon_foldl | apply State.canon_foldl | apply MemSt.canon_foldl | apply State.canon_foldl_fst | (simp only [State.canon_mk, Hub.canon_mk, MemSt.canon_mk]) | apply And.intro | split)
theorem State.encSetup_canon (s : State) (u : Nat) (h0 : s.canon) : (State.encSetup s u).canon := by
  unfold State.encSetup
  repeat' (with_reducible first | assumption | (intro _) | apply Hub.raise_canon | apply Hub.set1_canon | apply State.canon_hub | apply State.canon_mem | apply MemSt.canon_cells | apply Hub.canon_regs | apply Hub.canon_shadow | apply Hub.canon_hostMem | apply Hub.canon_if | apply State.canon_if | apply MemSt.canon_if | apply Hub.canon_foldl | apply State.canon_foldl | apply MemSt.canon_foldl | apply State.canon_foldl_fst | (simp only [State.canon_mk, Hub.canon_mk, MemSt.canon_mk]) | apply And.intro | split)
theorem State.cmafInitDue_canon (s : State) (sash r : Nat) (h0 : s.canon) : (State.cmafInitDue s sash r).canon := by
  unfold State.cmafInitDue
  repeat' (with_reducible first | assumption | (intro _) | apply State.canon_hub | apply State.canon_mem | apply MemSt.canon_cells | apply Hub.canon_regs | apply Hub.canon_shadow | apply Hub.canon_hostMem | apply Hub.canon_if | apply State.canon_if | apply MemSt.canon_if | (simp only [State.canon_mk, Hub.canon_mk, MemSt.canon_mk]) | apply And.intro | split)
theorem State.rendFrom_canon (s : State) (sash r : Nat) (h0 : s.canon) : (State.rendFrom s sash r).canon := by
  unfold State.rendFrom
  repeat' (with_reducible first | assumption | (intro _) | apply State.canon_hub | apply State.canon_mem | apply MemSt.canon_cells | apply Hub.canon_regs | apply Hub.canon_shadow | apply Hub.canon_hostMem | apply Hub.canon_foldl | apply State.canon_foldl | apply MemSt.canon_foldl | apply State.canon_foldl_fst | (simp only [State.canon_mk, Hub.canon_mk, MemSt.canon_mk]) | apply And.intro | split)
theorem State.encConfig_canon (s : State) (b : List Byte) (h0 : s.canon) : (State.encConfig s b).canon := by
  unfold State.encConfig
  repeat' (with_reducible first | assumption | (intro _) | apply State.cmafInitDue_canon | apply State.encSetup_canon | apply State.rendFrom_canon | apply State.canon_hub | apply State.canon_mem | apply MemSt.canon_cells | apply Hub.canon_regs | apply Hub.canon_shadow | apply Hub.canon_hostMem | apply Hub.canon_if | apply State.canon_if | apply MemSt.canon_if | apply Hub.canon_foldl | apply State.canon_foldl | apply MemSt.canon_foldl | apply State.canon_foldl_fst | (simp only [State.canon_mk, Hub.canon_mk, MemSt.canon_mk]) | apply And.intro | split)
theorem execEncConfig_canon (e : CmdEnv) (body : List Byte) (s : State) (h0 : s.canon) : ∃ t, execEncConfig e body s = .next t ∧ t.canon := by
  refine ⟨_, rfl, ?_⟩
  repeat' (with_reducible first | assumption | (intro _) | apply State.done_canon | apply State.encConfig_canon | apply State.hold_canon | apply State.canon_hub | apply State.canon_mem | apply MemSt.canon_cells | apply Hub.canon_regs | apply Hub.canon_shadow | apply Hub.canon_hostMem | apply Hub.canon_if | apply State.canon_if | apply MemSt.canon_if | (simp only [State.canon_mk, Hub.canon_mk, MemSt.canon_mk]) | apply And.intro | split)
theorem State.encRefresh_canon (s : State) (sash r : Nat) (key : Bool) (h0 : s.canon) : (State.encRefresh s sash r key).canon := by
  unfold State.encRefresh
  repeat' (with_reducible first | assumption | (intro _) | apply State.paneNeed_canon | apply State.canon_hub | apply State.canon_mem | apply MemSt.canon_cells | apply Hub.canon_regs | apply Hub.canon_shadow | apply Hub.canon_hostMem | apply Hub.canon_if | apply State.canon_if | apply MemSt.canon_if | apply Hub.canon_foldl | apply State.canon_foldl | apply MemSt.canon_foldl | apply State.canon_foldl_fst | (simp only [State.canon_mk, Hub.canon_mk, MemSt.canon_mk]) | apply And.intro | split)
theorem execEncRefresh_canon (e : CmdEnv) (body : List Byte) (s : State) (h0 : s.canon) : ∃ t, execEncRefresh e body s = .next t ∧ t.canon := by
  refine ⟨_, rfl, ?_⟩
  repeat' (with_reducible first | assumption | (intro _) | apply State.done_canon | apply State.encRefresh_canon | apply State.canon_hub | apply State.canon_mem | apply MemSt.canon_cells | apply Hub.canon_regs | apply Hub.canon_shadow | apply Hub.canon_hostMem | apply Hub.canon_if | apply State.canon_if | apply MemSt.canon_if | apply Hub.canon_foldl | apply State.canon_foldl | apply MemSt.canon_foldl | apply State.canon_foldl_fst | (simp only [State.canon_mk, Hub.canon_mk, MemSt.canon_mk]) | apply And.intro | split)
theorem execEncStats_canon (e : CmdEnv) (body : List Byte) (s : State) (h0 : s.canon) : ∃ t, execEncStats e body s = .next t ∧ t.canon := by
  refine ⟨_, rfl, ?_⟩
  repeat' (with_reducible first | assumption | (intro _) | apply State.done_canon | apply State.canon_hub | apply State.canon_mem | apply MemSt.canon_cells | apply Hub.canon_regs | apply Hub.canon_shadow | apply Hub.canon_hostMem | apply Hub.canon_if | apply State.canon_if | apply MemSt.canon_if | (simp only [State.canon_mk, Hub.canon_mk, MemSt.canon_mk]) | apply And.intro | split)
theorem State.setCtx_canon (s : State) (sash stream : Nat) (c : DecCtx) (h0 : s.canon) : (State.setCtx s sash stream c).canon := by
  unfold State.setCtx
  repeat' (with_reducible first | assumption | (intro _) | apply State.canon_hub | apply State.canon_mem | apply MemSt.canon_cells | apply Hub.canon_regs | apply Hub.canon_shadow | apply Hub.canon_hostMem | (simp only [State.canon_mk, Hub.canon_mk, MemSt.canon_mk]) | apply And.intro | split)
theorem State.decErr_canon (s : State) (f : Fld) (u : Nat) (h0 : s.canon) : (State.decErr s f u).canon := by
  unfold State.decErr
  repeat' (with_reducible first | assumption | (intro _) | apply Hub.err_canon | apply MemSt.err_canon | apply State.canon_hub | apply State.canon_mem | apply MemSt.canon_cells | apply Hub.canon_regs | apply Hub.canon_shadow | apply Hub.canon_hostMem | (simp only [State.canon_mk, Hub.canon_mk, MemSt.canon_mk]) | apply And.intro | split)
theorem State.decRaise_canon (s : State) (code u sash stream : Nat) (h0 : s.canon) : (State.decRaise s code u sash stream).canon := by
  unfold State.decRaise
  repeat' (with_reducible first | assumption | (intro _) | apply Hub.raiseRl_canon | apply State.canon_hub | apply State.canon_mem | apply MemSt.canon_cells | apply Hub.canon_regs | apply Hub.canon_shadow | apply Hub.canon_hostMem | (simp only [State.canon_mk, Hub.canon_mk, MemSt.canon_mk]) | apply And.intro | split)
theorem State.ctxRemove_canon (s : State) (sash stream : Nat) (c : DecCtx) (h0 : s.canon) : (State.ctxRemove s sash stream c).canon := by
  unfold State.ctxRemove
  repeat' (with_reducible first | assumption | (intro _) | apply Hub.set1_canon | apply State.canon_hub | apply State.canon_mem | apply MemSt.canon_cells | apply Hub.canon_regs | apply Hub.canon_shadow | apply Hub.canon_hostMem | apply regsWf_filter | apply regsWf_kvFilter | apply memWf_filter | (simp only [State.canon_mk, Hub.canon_mk, MemSt.canon_mk]) | apply And.intro | split)
theorem State.pictureRelease_canon (s : State) (part off : Nat) (h0 : s.canon) : (State.pictureRelease s part off).canon := by
  unfold State.pictureRelease
  repeat' (with_reducible first | assumption | (intro _) | apply State.settle_canon | apply State.canon_hub | apply State.canon_mem | apply MemSt.canon_cells | apply Hub.canon_regs | apply Hub.canon_shadow | apply Hub.canon_hostMem | apply regsWf_filter | apply regsWf_kvFilter | apply memWf_filter | apply Hub.canon_if | apply State.canon_if | apply MemSt.canon_if | (simp only [State.canon_mk, Hub.canon_mk, MemSt.canon_mk]) | apply And.intro | split)
theorem execPictureRelease_canon (part off : Nat) (s : State) (h0 : s.canon) : ∃ t, execPictureRelease part off s = .next t ∧ t.canon := by
  refine ⟨_, rfl, ?_⟩
  repeat' (with_reducible first | assumption | (intro _) | apply State.pictureRelease_canon | apply State.canon_hub | apply State.canon_mem | apply MemSt.canon_cells | apply Hub.canon_regs | apply Hub.canon_shadow | apply Hub.canon_hostMem | (simp only [State.canon_mk, Hub.canon_mk, MemSt.canon_mk]) | apply And.intro | split)
theorem State.decOutput_canon (s : State) (sash stream : Nat) (h0 : s.canon) : (State.decOutput s sash stream).canon := by
  unfold State.decOutput
  repeat' (with_reducible first | assumption | (intro _) | apply Hub.emits_canon | apply Hub.stat_canon | apply MemSt.poison_canon | apply State.decErr_canon | apply State.decRaise_canon | apply State.setCtx_canon | apply State.settle_canon | apply State.canon_hub | apply State.canon_mem | apply MemSt.canon_cells | apply Hub.canon_regs | apply Hub.canon_shadow | apply Hub.canon_hostMem | apply Hub.canon_if | apply State.canon_if | apply MemSt.canon_if | (simp only [State.canon_mk, Hub.canon_mk, MemSt.canon_mk]) | apply And.intro | split)
theorem State.ctxClose_canon (s : State) (sash stream : Nat) (h0 : s.canon) : (State.ctxClose s sash stream).canon := by
  unfold State.ctxClose
  repeat' (with_reducible first | assumption | (intro _) | apply State.ctxRemove_canon | apply State.decOutput_canon | apply State.canon_hub | apply State.canon_mem | apply MemSt.canon_cells | apply Hub.canon_regs | apply Hub.canon_shadow | apply Hub.canon_hostMem | (simp only [State.canon_mk, Hub.canon_mk, MemSt.canon_mk]) | apply And.intro | split)
theorem execDecPacketReceive_canon (sash stream : Nat) (p : DecIn) (s : State) (h0 : s.canon) : ∃ t, execDecPacketReceive sash stream p s = .next t ∧ t.canon := by
  refine ⟨_, rfl, ?_⟩
  repeat' (with_reducible first | assumption | (intro _) | apply State.ctxClose_canon | apply State.decErr_canon | apply State.decRaise_canon | apply State.setCtx_canon | apply State.canon_hub | apply State.canon_mem | apply MemSt.canon_cells | apply Hub.canon_regs | apply Hub.canon_shadow | apply Hub.canon_hostMem | apply Hub.canon_if | apply State.canon_if | apply MemSt.canon_if | apply Hub.canon_foldl | apply State.canon_foldl | apply MemSt.canon_foldl | apply State.canon_foldl_fst | (simp only [State.canon_mk, Hub.canon_mk, MemSt.canon_mk]) | apply And.intro | split)
theorem execDecFrameLostTimer_canon (sash stream : Nat) (s : State) (h0 : s.canon) : ∃ t, execDecFrameLostTimer sash stream s = .next t ∧ t.canon := by
  refine ⟨_, rfl, ?_⟩
  repeat' (with_reducible first | assumption | (intro _) | apply State.ctxClose_canon | apply State.decErr_canon | apply State.setCtx_canon | apply State.canon_hub | apply State.canon_mem | apply MemSt.canon_cells | apply Hub.canon_regs | apply Hub.canon_shadow | apply Hub.canon_hostMem | apply Hub.canon_if | apply State.canon_if | apply MemSt.canon_if | (simp only [State.canon_mk, Hub.canon_mk, MemSt.canon_mk]) | apply And.intro | split)
theorem State.decSkip_canon (s : State) (sash stream : Nat) (c : DecCtx) (p : DecPicture) (big : Bool) (h0 : s.canon) : (State.decSkip s sash stream c p big).canon := by
  unfold State.decSkip
  repeat' (with_reducible first | assumption | (intro _) | apply Hub.raise_canon | apply State.decErr_canon | apply State.setCtx_canon | apply State.canon_hub | apply State.canon_mem | apply MemSt.canon_cells | apply Hub.canon_regs | apply Hub.canon_shadow | apply Hub.canon_hostMem | apply Hub.canon_if | apply State.canon_if | apply MemSt.canon_if | (simp only [State.canon_mk, Hub.canon_mk, MemSt.canon_mk]) | apply And.intro | split)
theorem State.decPicture_canon (s : State) (sash stream : Nat) (c : DecCtx) (p : DecPicture) (first : DecPkt) (k : Nat) (h0 : s.canon) : (State.decPicture s sash stream c p first k).canon := by
  unfold State.decPicture
  repeat' (with_reducible first | assumption | (intro _) | apply MemSt.poison_canon | apply State.decErr_canon | apply State.decRaise_canon | apply State.keyRequest_canon | apply State.partWrite_canon | apply State.setCtx_canon | apply State.settle_canon | apply State.canon_hub | apply State.canon_mem | apply MemSt.canon_cells | apply Hub.canon_regs | apply Hub.canon_shadow | apply Hub.canon_hostMem | apply Hub.canon_if | apply State.canon_if | apply MemSt.canon_if | (simp only [State.canon_mk, Hub.canon_mk, MemSt.canon_mk]) | apply And.intro | split)
theorem State.decFrame_canon (s0 : State) (sash stream : Nat) (p : DecPicture) (h0 : s0.canon) : (State.decFrame s0 sash stream p).canon := by
  unfold State.decFrame
  repeat' (with_reducible first | assumption | (intro _) | apply State.ctxClose_canon | apply State.decOutput_canon | apply State.decPicture_canon | apply State.decSkip_canon | apply State.canon_hub | apply State.canon_mem | apply MemSt.canon_cells | apply Hub.canon_regs | apply Hub.canon_shadow | apply Hub.canon_hostMem | apply Hub.canon_if | apply State.canon_if | apply MemSt.canon_if | (simp only [State.canon_mk, Hub.canon_mk, MemSt.canon_mk]) | apply And.intro | split)
theorem execDecOpen_canon (e : CmdEnv) (body : List Byte) (s : State) (h0 : s.canon) : ∃ t, execDecOpen e body s = .next t ∧ t.canon := by
  refine ⟨_, rfl, ?_⟩
  repeat' (with_reducible first | assumption | (intro _) | apply Hub.set1_canon | apply State.done_canon | apply State.setCtx_canon | apply State.canon_hub | apply State.canon_mem | apply MemSt.canon_cells | apply Hub.canon_regs | apply Hub.canon_shadow | apply Hub.canon_hostMem | apply regsWf_filter | apply regsWf_kvFilter | apply memWf_filter | apply Hub.canon_if | apply State.canon_if | apply MemSt.canon_if | (simp only [State.canon_mk, Hub.canon_mk, MemSt.canon_mk]) | apply And.intro | split)
theorem execDecClose_canon (e : CmdEnv) (body : List Byte) (s : State) (h0 : s.canon) : ∃ t, execDecClose e body s = .next t ∧ t.canon := by
  refine ⟨_, rfl, ?_⟩
  repeat' (with_reducible first | assumption | (intro _) | apply State.done_canon | apply State.setCtx_canon | apply State.canon_hub | apply State.canon_mem | apply MemSt.canon_cells | apply Hub.canon_regs | apply Hub.canon_shadow | apply Hub.canon_hostMem | apply Hub.canon_if | apply State.canon_if | apply MemSt.canon_if | (simp only [State.canon_mk, Hub.canon_mk, MemSt.canon_mk]) | apply And.intro | split)
theorem execDecStats_canon (e : CmdEnv) (body : List Byte) (s : State) (h0 : s.canon) : ∃ t, execDecStats e body s = .next t ∧ t.canon := by
  refine ⟨_, rfl, ?_⟩
  repeat' (with_reducible first | assumption | (intro _) | apply State.done_canon | apply State.canon_hub | apply State.canon_mem | apply MemSt.canon_cells | apply Hub.canon_regs | apply Hub.canon_shadow | apply Hub.canon_hostMem | apply Hub.canon_if | apply State.canon_if | apply MemSt.canon_if | (simp only [State.canon_mk, Hub.canon_mk, MemSt.canon_mk]) | apply And.intro | split)
theorem State.decSetup_canon (s : State) (u : Nat) (h0 : s.canon) : (State.decSetup s u).canon := by
  unfold State.decSetup
  repeat' (with_reducible first | assumption | (intro _) | apply Hub.raise_canon | apply Hub.set1_canon | apply State.canon_hub | apply State.canon_mem | apply MemSt.canon_cells | apply Hub.canon_regs | apply Hub.canon_shadow | apply Hub.canon_hostMem | apply Hub.canon_if | apply State.canon_if | apply MemSt.canon_if | (simp only [State.canon_mk, Hub.canon_mk, MemSt.canon_mk]) | apply And.intro | split)
theorem State.setCmp_canon (s : State) (u : Nat) (x : CmpUnit) (h0 : s.canon) : (State.setCmp s u x).canon := by
  unfold State.setCmp
  repeat' (with_reducible first | assumption | (intro _) | apply State.canon_hub | apply State.canon_mem | apply MemSt.canon_cells | apply Hub.canon_regs | apply Hub.canon_shadow | apply Hub.canon_hostMem | (simp only [State.canon_mk, Hub.canon_mk, MemSt.canon_mk]) | apply And.intro | split)
theorem State.releaseAll_canon (s : State) (l : List PicDesc) (h0 : s.canon) : (State.releaseAll s l).canon := by
  unfold State.releaseAll
  repeat' (with_reducible first | assumption | (intro _) | apply State.pictureRelease_canon | apply State.canon_hub | apply State.canon_mem | apply MemSt.canon_cells | apply Hub.canon_regs | apply Hub.canon_shadow | apply Hub.canon_hostMem | apply Hub.canon_foldl | apply State.canon_foldl | apply MemSt.canon_foldl | apply State.canon_foldl_fst | (simp only [State.canon_mk, Hub.canon_mk, MemSt.canon_mk]) | apply And.intro | split)
theorem Hub.setLstat_canon (h : Hub) (u l : Nat) (fill glazed clamp : Bool) (t : LbStep) (h0 : h.canon) : (Hub.setLstat h u l fill glazed clamp t).canon := by
  unfold Hub.setLstat
  repeat' (with_reducible first | assumption | (intro _) | apply Hub.wr_canon | apply State.canon_hub | apply State.canon_mem | apply MemSt.canon_cells | apply Hub.canon_regs | apply Hub.canon_shadow | apply Hub.canon_hostMem | apply Hub.canon_if | apply State.canon_if | apply MemSt.canon_if | (simp only [State.canon_mk, Hub.canon_mk, MemSt.canon_mk]) | apply And.intro | split)
theorem State.cmpVideo_canon (s : State) (u l : Nat) (p : CmpPers) (h0 : s.canon) : (State.cmpVideo s u l p).1.canon := by
  unfold State.cmpVideo
  repeat' (with_reducible first | assumption | (intro _) | apply Hub.err2_canon | apply Hub.raise_canon | apply Hub.setLstat_canon | apply State.releaseAll_canon | apply State.setCmp_canon | apply State.canon_hub | apply State.canon_mem | apply MemSt.canon_cells | apply Hub.canon_regs | apply Hub.canon_shadow | apply Hub.canon_hostMem | apply Hub.canon_if | apply State.canon_if | apply MemSt.canon_if | (simp only [State.canon_mk, Hub.canon_mk, MemSt.canon_mk]) | apply And.intro | split)
theorem State.cmpGlaze_canon (s : State) (u : Nat) (p : CmpPers) (part : Nat) (now : List (Nat × CmpDrawn)) (redraw : List Nat) (h0 : s.canon) : (State.cmpGlaze s u p part now redraw).canon := by
  unfold State.cmpGlaze
  repeat' (with_reducible first | assumption | (intro _) | apply Hub.raise_canon | apply Hub.set1_canon | apply Hub.stat_canon | apply State.setCmp_canon | apply State.canon_hub | apply State.canon_mem | apply MemSt.canon_cells | apply Hub.canon_regs | apply Hub.canon_shadow | apply Hub.canon_hostMem | apply regsWf_filter | apply regsWf_kvFilter | apply memWf_filter | apply Hub.canon_if | apply State.canon_if | apply MemSt.canon_if | (simp only [State.canon_mk, Hub.canon_mk, MemSt.canon_mk]) | apply And.intro | split)
theorem State.cmpPoison_canon (s : State) (u n layer : Nat) (h0 : s.canon) : (State.cmpPoison s u n layer).canon := by
  unfold State.cmpPoison
  repeat' (with_reducible first | assumption | (intro _) | apply Hub.errN_canon | apply Hub.raiseRl_canon | apply State.canon_hub | apply State.canon_mem | apply MemSt.canon_cells | apply Hub.canon_regs | apply Hub.canon_shadow | apply Hub.canon_hostMem | apply Hub.canon_if | apply State.canon_if | apply MemSt.canon_if | (simp only [State.canon_mk, Hub.canon_mk, MemSt.canon_mk]) | apply And.intro | split)
theorem State.cmpCompose_canon (s : State) (u tm : Nat) (tiles redraw : List Nat) (h0 : s.canon) : (State.cmpCompose s u tm tiles redraw).canon := by
  unfold State.cmpCompose
  repeat' (with_reducible first | assumption | (intro _) | apply Hub.err_canon | apply Hub.raise_canon | apply Hub.set2_canon | apply Hub.stat_canon | apply MemSt.err_canon | apply State.cmpGlaze_canon | apply State.cmpPoison_canon | apply State.cmpVideo_canon | apply State.setCmp_canon | apply State.canon_hub | apply State.canon_mem | apply MemSt.canon_cells | apply Hub.canon_regs | apply Hub.canon_shadow | apply Hub.canon_hostMem | apply regsWf_filter | apply regsWf_kvFilter | apply memWf_filter | apply Hub.canon_if | apply State.canon_if | apply MemSt.canon_if | apply Hub.canon_foldl | apply State.canon_foldl | apply MemSt.canon_foldl | apply State.canon_foldl_fst | (simp only [State.canon_mk, Hub.canon_mk, MemSt.canon_mk]) | apply And.intro | split)
theorem State.cmpInstant_canon (s : State) (u : Nat) (tiles redraw : List Nat) (h0 : s.canon) : (State.cmpInstant s u tiles redraw).canon := by
  unfold State.cmpInstant
  repeat' (with_reducible first | assumption | (intro _) | apply State.cmpCompose_canon | apply State.setCmp_canon | apply State.canon_hub | apply State.canon_mem | apply MemSt.canon_cells | apply Hub.canon_regs | apply Hub.canon_shadow | apply Hub.canon_hostMem | apply Hub.canon_if | apply State.canon_if | apply MemSt.canon_if | (simp only [State.canon_mk, Hub.canon_mk, MemSt.canon_mk]) | apply And.intro | split)
theorem execCmpDescriptorReceive_canon (unit port : Nat) (desc : List Byte) (s : State) (h0 : s.canon) : ∃ t, execCmpDescriptorReceive unit port desc s = .next t ∧ t.canon := by
  refine ⟨_, rfl, ?_⟩
  repeat' (with_reducible first | assumption | (intro _) | apply State.setCmp_canon | apply State.canon_hub | apply State.canon_mem | apply MemSt.canon_cells | apply Hub.canon_regs | apply Hub.canon_shadow | apply Hub.canon_hostMem | apply Hub.canon_if | apply State.canon_if | apply MemSt.canon_if | (simp only [State.canon_mk, Hub.canon_mk, MemSt.canon_mk]) | apply And.intro | split)
theorem State.cmpFrameEnd_canon (s : State) (u : Nat) (p : CmpPers) (f : CmpFrame) (h0 : s.canon) : (State.cmpFrameEnd s u p f).canon := by
  unfold State.cmpFrameEnd
  repeat' (with_reducible first | assumption | (intro _) | apply Hub.emits_canon | apply State.releaseAll_canon | apply State.setCmp_canon | apply State.canon_hub | apply State.canon_mem | apply MemSt.canon_cells | apply Hub.canon_regs | apply Hub.canon_shadow | apply Hub.canon_hostMem | apply regsWf_filter | apply regsWf_kvFilter | apply memWf_filter | (simp only [State.canon_mk, Hub.canon_mk, MemSt.canon_mk]) | apply And.intro | split)
theorem State.cmpStore_canon (s : State) (p : CmpPers) (f : CmpFrame) (data : List Byte × List Byte) (h0 : s.canon) : (State.cmpStore s p f data).canon := by
  unfold State.cmpStore
  repeat' (with_reducible first | assumption | (intro _) | apply State.partWrite_canon | apply State.canon_hub | apply State.canon_mem | apply MemSt.canon_cells | apply Hub.canon_regs | apply Hub.canon_shadow | apply Hub.canon_hostMem | apply Hub.canon_if | apply State.canon_if | apply MemSt.canon_if | (simp only [State.canon_mk, Hub.canon_mk, MemSt.canon_mk]) | apply And.intro | split)
theorem State.cmpNext_canon (s : State) (u : Nat) (h0 : s.canon) : (State.cmpNext s u).canon := by
  unfold State.cmpNext
  repeat' (with_reducible first | assumption | (intro _) | apply Hub.errN_canon | apply Hub.raise_canon | apply State.cmpCompose_canon | apply State.setCmp_canon | apply State.canon_hub | apply State.canon_mem | apply MemSt.canon_cells | apply Hub.canon_regs | apply Hub.canon_shadow | apply Hub.canon_hostMem | apply Hub.canon_if | apply State.canon_if | apply MemSt.canon_if | (simp only [State.canon_mk, Hub.canon_mk, MemSt.canon_mk]) | apply And.intro | split)
theorem State.cmpLineDone_canon (s : State) (unit : Nat) (f : CmpFrame) (rest : List CmpFrame) (video : List CmpVideo) (h0 : s.canon) : (State.cmpLineDone s unit f rest video).canon := by
  unfold State.cmpLineDone
  repeat' (with_reducible first | assumption | (intro _) | apply Hub.emits_canon | apply Hub.err_canon | apply Hub.raiseRl_canon | apply MemSt.err_canon | apply State.cmpFrameEnd_canon | apply State.cmpPoison_canon | apply State.cmpStore_canon | apply State.encInput_canon | apply State.setCmp_canon | apply State.canon_hub | apply State.canon_mem | apply MemSt.canon_cells | apply Hub.canon_regs | apply Hub.canon_shadow | apply Hub.canon_hostMem | apply Hub.canon_if | apply State.canon_if | apply MemSt.canon_if | (simp only [State.canon_mk, Hub.canon_mk, MemSt.canon_mk]) | apply And.intro | split)
theorem execCmpLineComplete_canon (unit : Nat) (video : List CmpVideo) (s : State) (h0 : s.canon) : ∃ t, execCmpLineComplete unit video s = .next t ∧ t.canon := by
  unfold execCmpLineComplete
  refine ⟨_, rfl, ?_⟩
  split
  · repeat' (with_reducible first | assumption | (intro _) | apply State.cmpLineDone_canon | apply State.cmpNext_canon | apply State.inEpoch_canon | apply State.canon_hub | apply State.canon_mem | apply MemSt.canon_cells | apply Hub.canon_regs | apply Hub.canon_shadow | apply Hub.canon_hostMem | apply Hub.canon_if | apply State.canon_if | apply MemSt.canon_if | (simp only [State.canon_mk, Hub.canon_mk, MemSt.canon_mk]) | apply And.intro | split)
  · split
    · exact h0
    · extract_lets t
      have ht : t.canon := State.inEpoch_canon _ _ _ _ (fun t ht => State.cmpLineDone_canon _ _ _ _ _ ht) h0
      clear_value t
      repeat' (with_reducible first | assumption | (intro _) | apply State.cmpLineDone_canon | apply State.cmpNext_canon | apply State.inEpoch_canon | apply State.canon_hub | apply State.canon_mem | apply MemSt.canon_cells | apply Hub.canon_regs | apply Hub.canon_shadow | apply Hub.canon_hostMem | apply Hub.canon_if | apply State.canon_if | apply MemSt.canon_if | (simp only [State.canon_mk, Hub.canon_mk, MemSt.canon_mk]) | apply And.intro | split)
theorem State.cmpSetup_canon (s : State) (u : Nat) (h0 : s.canon) : (State.cmpSetup s u).canon := by
  unfold State.cmpSetup
  repeat' (with_reducible first | assumption | (intro _) | apply Hub.raise_canon | apply Hub.set1_canon | apply State.canon_hub | apply State.canon_mem | apply MemSt.canon_cells | apply Hub.canon_regs | apply Hub.canon_shadow | apply Hub.canon_hostMem | apply Hub.canon_if | apply State.canon_if | apply MemSt.canon_if | (simp only [State.canon_mk, Hub.canon_mk, MemSt.canon_mk]) | apply And.intro | split)
theorem State.setVin_canon (s : State) (v : Nat) (x : VinUnit) (h0 : s.canon) : (State.setVin s v x).canon := by
  unfold State.setVin
  repeat' (with_reducible first | assumption | (intro _) | apply State.canon_hub | apply State.canon_mem | apply MemSt.canon_cells | apply Hub.canon_regs | apply Hub.canon_shadow | apply Hub.canon_hostMem | (simp only [State.canon_mk, Hub.canon_mk, MemSt.canon_mk]) | apply And.intro | split)
theorem State.vinSetup_canon (s : State) (v : Nat) (h0 : s.canon) : (State.vinSetup s v).canon := by
  unfold State.vinSetup
  repeat' (with_reducible first | assumption | (intro _) | apply Hub.raise_canon | apply Hub.set1_canon | apply State.setVin_canon | apply State.canon_hub | apply State.canon_mem | apply MemSt.canon_cells | apply Hub.canon_regs | apply Hub.canon_shadow | apply Hub.canon_hostMem | apply Hub.canon_if | apply State.canon_if | apply MemSt.canon_if | apply Hub.canon_foldl | apply State.canon_foldl | apply MemSt.canon_foldl | apply State.canon_foldl_fst | (simp only [State.canon_mk, Hub.canon_mk, MemSt.canon_mk]) | apply And.intro | split)
theorem State.vinErr_canon (s : State) (f : Fld) (v n code : Nat) (h0 : s.canon) : (State.vinErr s f v n code).canon := by
  unfold State.vinErr
  repeat' (with_reducible first | assumption | (intro _) | apply Hub.errN_canon | apply Hub.raiseRl_canon | apply State.canon_hub | apply State.canon_mem | apply MemSt.canon_cells | apply Hub.canon_regs | apply Hub.canon_shadow | apply Hub.canon_hostMem | apply Hub.canon_if | apply State.canon_if | apply MemSt.canon_if | (simp only [State.canon_mk, Hub.canon_mk, MemSt.canon_mk]) | apply And.intro | split)
theorem State.vinNoPath_canon (s : State) (v : Nat) (h0 : s.canon) : (State.vinNoPath s v).canon := by
  unfold State.vinNoPath
  repeat' (with_reducible first | assumption | (intro _) | apply State.vinErr_canon | apply State.canon_hub | apply State.canon_mem | apply MemSt.canon_cells | apply Hub.canon_regs | apply Hub.canon_shadow | apply Hub.canon_hostMem | (simp only [State.canon_mk, Hub.canon_mk, MemSt.canon_mk]) | apply And.intro | split)
theorem State.vinFmtBad_canon (s : State) (v n : Nat) (h0 : s.canon) : (State.vinFmtBad s v n).canon := by
  unfold State.vinFmtBad
  repeat' (with_reducible first | assumption | (intro _) | apply State.vinErr_canon | apply State.canon_hub | apply State.canon_mem | apply MemSt.canon_cells | apply Hub.canon_regs | apply Hub.canon_shadow | apply Hub.canon_hostMem | (simp only [State.canon_mk, Hub.canon_mk, MemSt.canon_mk]) | apply And.intro | split)
theorem State.vinLocked_canon (s : State) (v : Nat) (h0 : s.canon) : (State.vinLocked s v).canon := by
  unfold State.vinLocked
  repeat' (with_reducible first | assumption | (intro _) | apply Hub.raise_canon | apply Hub.set1_canon | apply State.canon_hub | apply State.canon_mem | apply MemSt.canon_cells | apply Hub.canon_regs | apply Hub.canon_shadow | apply Hub.canon_hostMem | apply Hub.canon_if | apply State.canon_if | apply MemSt.canon_if | (simp only [State.canon_mk, Hub.canon_mk, MemSt.canon_mk]) | apply And.intro | split)
theorem State.vinStore_canon (s : State) (p : VinPers) (slot c : Nat) (comps : List Nat) (h0 : s.canon) : (State.vinStore s p slot c comps).canon := by
  unfold State.vinStore
  repeat' (with_reducible first | assumption | (intro _) | apply State.partWrite_canon | apply State.canon_hub | apply State.canon_mem | apply MemSt.canon_cells | apply Hub.canon_regs | apply Hub.canon_shadow | apply Hub.canon_hostMem | apply Hub.canon_if | apply State.canon_if | apply MemSt.canon_if | (simp only [State.canon_mk, Hub.canon_mk, MemSt.canon_mk]) | apply And.intro | split)
theorem State.vinLine_canon (s : State) (v : Nat) (p : VinPers) (num row off px : Nat) (comps : List Nat) (h0 : s.canon) : (State.vinLine s v p num row off px comps).canon := by
  unfold State.vinLine
  repeat' (with_reducible first | assumption | (intro _) | apply MemSt.store_canon | apply State.setVin_canon | apply State.vinErr_canon | apply State.vinLocked_canon | apply State.vinStore_canon | apply State.canon_hub | apply State.canon_mem | apply MemSt.canon_cells | apply Hub.canon_regs | apply Hub.canon_shadow | apply Hub.canon_hostMem | apply Hub.canon_if | apply State.canon_if | apply MemSt.canon_if | (simp only [State.canon_mk, Hub.canon_mk, MemSt.canon_mk]) | apply And.intro | split)
theorem State.vinFrame_canon (s : State) (v : Nat) (p : VinPers) (ts cf : Nat) (bad : Bool) (h0 : s.canon) : (State.vinFrame s v p ts cf bad).canon := by
  unfold State.vinFrame
  repeat' (with_reducible first | assumption | (intro _) | apply State.setVin_canon | apply State.canon_hub | apply State.canon_mem | apply MemSt.canon_cells | apply Hub.canon_regs | apply Hub.canon_shadow | apply Hub.canon_hostMem | apply regsWf_filter | apply regsWf_kvFilter | apply memWf_filter | (simp only [State.canon_mk, Hub.canon_mk, MemSt.canon_mk]) | apply And.intro | split)
theorem State.vinPath_canon (s : State) (sash : Nat) (p : VinPers) (f : VinFrame) (k lo : Nat) (rows : List Nat) (b : BuiltPath) (h0 : s.canon) : (State.vinPath s sash p f k lo rows b).canon := by
  unfold State.vinPath
  repeat' (with_reducible first | assumption | (intro _) | apply Hub.emit_canon | apply MemSt.poison_canon | apply State.canon_hub | apply State.canon_mem | apply MemSt.canon_cells | apply Hub.canon_regs | apply Hub.canon_shadow | apply Hub.canon_hostMem | apply Hub.canon_if | apply State.canon_if | apply MemSt.canon_if | (simp only [State.canon_mk, Hub.canon_mk, MemSt.canon_mk]) | apply And.intro | split)
theorem State.vinStream_canon (s : State) (vin frame k : Nat) (h0 : s.canon) : (State.vinStream s vin frame k).canon := by
  unfold State.vinStream
  repeat' (with_reducible first | assumption | (intro _) | apply MemSt.store_canon | apply State.encGap_canon | apply State.encInput_canon | apply State.setVin_canon | apply State.vinErr_canon | apply State.vinPath_canon | apply State.canon_hub | apply State.canon_mem | apply MemSt.canon_cells | apply Hub.canon_regs | apply Hub.canon_shadow | apply Hub.canon_hostMem | apply regsWf_filter | apply regsWf_kvFilter | apply memWf_filter | apply Hub.canon_if | apply State.canon_if | apply MemSt.canon_if | apply Hub.canon_foldl | apply State.canon_foldl | apply MemSt.canon_foldl | apply State.canon_foldl_fst | (simp only [State.canon_mk, Hub.canon_mk, MemSt.canon_mk]) | apply And.intro | split)
theorem State.ancOne_canon (s : State) (v : Nat) (p : VinPers) (ts cf : Nat) (a : AncPkt) (h0 : s.canon) : (State.ancOne s v p ts cf a).canon := by
  unfold State.ancOne
  repeat' (with_reducible first | assumption | (intro _) | apply Hub.qpDeliver_canon | apply State.deliver_canon | apply State.vinErr_canon | apply State.canon_hub | apply State.canon_mem | apply MemSt.canon_cells | apply Hub.canon_regs | apply Hub.canon_shadow | apply Hub.canon_hostMem | apply Hub.canon_if | apply State.canon_if | apply MemSt.canon_if | (simp only [State.canon_mk, Hub.canon_mk, MemSt.canon_mk]) | apply And.intro | split)
theorem State.vinAudio_canon (s : State) (v : Nat) (e : VinFlow) (x : VinPkt) (h0 : s.canon) : (State.vinAudio s v e x).canon := by
  unfold State.vinAudio
  repeat' (with_reducible first | assumption | (intro _) | apply Hub.errN_canon | apply Hub.raiseRl_canon | apply State.canon_hub | apply State.canon_mem | apply MemSt.canon_cells | apply Hub.canon_regs | apply Hub.canon_shadow | apply Hub.canon_hostMem | apply Hub.canon_if | apply State.canon_if | apply MemSt.canon_if | apply Hub.canon_foldl | apply State.canon_foldl | apply MemSt.canon_foldl | apply State.canon_foldl_fst | (simp only [State.canon_mk, Hub.canon_mk, MemSt.canon_mk]) | apply And.intro | split)
theorem State.vinRows_canon (s : State) (v : Nat) (p : VinPers) (num : Nat) (x0 : List VinSeg) (h0 : s.canon) : (State.vinRows s v p num x0).canon := by
  induction x0 generalizing s v p num with
  | nil =>
    unfold State.vinRows; try dsimp only
    repeat' (with_reducible first | assumption | (intro _) | apply State.vinFmtBad_canon | apply State.vinLine_canon | apply State.canon_hub | apply State.canon_mem | apply MemSt.canon_cells | apply Hub.canon_regs | apply Hub.canon_shadow | apply Hub.canon_hostMem | apply Hub.canon_if | apply State.canon_if | apply MemSt.canon_if | (simp only [State.canon_mk, Hub.canon_mk, MemSt.canon_mk]) | apply And.intro | split)
  | cons a l ih =>
    unfold State.vinRows; try dsimp only
    repeat' (with_reducible first | assumption | (intro _) | apply ih | apply State.vinFmtBad_canon | apply State.vinLine_canon | apply State.canon_hub | apply State.canon_mem | apply MemSt.canon_cells | apply Hub.canon_regs | apply Hub.canon_shadow | apply Hub.canon_hostMem | apply Hub.canon_if | apply State.canon_if | apply MemSt.canon_if | (simp only [State.canon_mk, Hub.canon_mk, MemSt.canon_mk]) | apply And.intro | split)
theorem State.vinUse_canon (s : State) (v : Nat) (p : VinPers) (e : VinFlow) (x : VinPkt) (h0 : s.canon) : (State.vinUse s v p e x).canon := by
  unfold State.vinUse
  repeat' (with_reducible first | assumption | (intro _) | apply Hub.stat_canon | apply State.ancOne_canon | apply State.vinAudio_canon | apply State.vinFrame_canon | apply State.vinRows_canon | apply State.canon_hub | apply State.canon_mem | apply MemSt.canon_cells | apply Hub.canon_regs | apply Hub.canon_shadow | apply Hub.canon_hostMem | apply Hub.canon_if | apply State.canon_if | apply MemSt.canon_if | apply Hub.canon_foldl | apply State.canon_foldl | apply MemSt.canon_foldl | apply State.canon_foldl_fst | (simp only [State.canon_mk, Hub.canon_mk, MemSt.canon_mk]) | apply And.intro | split)
theorem execVinPacketReceive_canon (x : VinPkt) (s : State) (h0 : s.canon) : ∃ t, execVinPacketReceive x s = .next t ∧ t.canon := by
  refine ⟨_, rfl, ?_⟩
  repeat' (with_reducible first | assumption | (intro _) | apply Hub.set1_canon | apply MemSt.poison_canon | apply State.setVin_canon | apply State.vinErr_canon | apply State.vinFmtBad_canon | apply State.vinNoPath_canon | apply State.vinPath_canon | apply State.vinUse_canon | apply State.canon_hub | apply State.canon_mem | apply MemSt.canon_cells | apply Hub.canon_regs | apply Hub.canon_shadow | apply Hub.canon_hostMem | apply Hub.canon_if | apply State.canon_if | apply MemSt.canon_if | (simp only [State.canon_mk, Hub.canon_mk, MemSt.canon_mk]) | apply And.intro | split)
theorem execSdiLineReceive_canon (x : SdiLine) (s : State) (h0 : s.canon) : ∃ t, execSdiLineReceive x s = .next t ∧ t.canon := by
  refine ⟨_, rfl, ?_⟩
  repeat' (with_reducible first | assumption | (intro _) | apply State.ancOne_canon | apply State.setVin_canon | apply State.vinFmtBad_canon | apply State.vinFrame_canon | apply State.vinLine_canon | apply State.canon_hub | apply State.canon_mem | apply MemSt.canon_cells | apply Hub.canon_regs | apply Hub.canon_shadow | apply Hub.canon_hostMem | apply Hub.canon_if | apply State.canon_if | apply MemSt.canon_if | apply Hub.canon_foldl | apply State.canon_foldl | apply MemSt.canon_foldl | apply State.canon_foldl_fst | (simp only [State.canon_mk, Hub.canon_mk, MemSt.canon_mk]) | apply And.intro | split)
theorem execVinPathTimeout_canon (vin kind group : Nat) (pathB : Bool) (s : State) (h0 : s.canon) : ∃ t, execVinPathTimeout vin kind group pathB s = .next t ∧ t.canon := by
  refine ⟨_, rfl, ?_⟩
  repeat' (with_reducible first | assumption | (intro _) | apply Hub.raise_canon | apply Hub.set1_canon | apply State.setVin_canon | apply State.canon_hub | apply State.canon_mem | apply MemSt.canon_cells | apply Hub.canon_regs | apply Hub.canon_shadow | apply Hub.canon_hostMem | apply Hub.canon_if | apply State.canon_if | apply MemSt.canon_if | (simp only [State.canon_mk, Hub.canon_mk, MemSt.canon_mk]) | apply And.intro | split)
theorem execVinSignalTimeout_canon (vin : Nat) (s : State) (h0 : s.canon) : ∃ t, execVinSignalTimeout vin s = .next t ∧ t.canon := by
  refine ⟨_, rfl, ?_⟩
  repeat' (with_reducible first | assumption | (intro _) | apply Hub.raise_canon | apply Hub.set1_canon | apply State.canon_hub | apply State.canon_mem | apply MemSt.canon_cells | apply Hub.canon_regs | apply Hub.canon_shadow | apply Hub.canon_hostMem | apply Hub.canon_if | apply State.canon_if | apply MemSt.canon_if | (simp only [State.canon_mk, Hub.canon_mk, MemSt.canon_mk]) | apply And.intro | split)
theorem execSdiTxFrame_canon (lane : Nat) (s : State) (h0 : s.canon) : ∃ t, execSdiTxFrame lane s = .next t ∧ t.canon := by
  refine ⟨_, rfl, ?_⟩
  repeat' (with_reducible first | assumption | (intro _) | apply Hub.emit_canon | apply State.vinFmtBad_canon | apply State.canon_hub | apply State.canon_mem | apply MemSt.canon_cells | apply Hub.canon_regs | apply Hub.canon_shadow | apply Hub.canon_hostMem | apply Hub.canon_if | apply State.canon_if | apply MemSt.canon_if | (simp only [State.canon_mk, Hub.canon_mk, MemSt.canon_mk]) | apply And.intro | split)
theorem State.setTso_canon (s : State) (n : Nat) (x : TsoUnit) (h0 : s.canon) : (State.setTso s n x).canon := by
  unfold State.setTso
  repeat' (with_reducible first | assumption | (intro _) | apply State.canon_hub | apply State.canon_mem | apply MemSt.canon_cells | apply Hub.canon_regs | apply Hub.canon_shadow | apply Hub.canon_hostMem | (simp only [State.canon_mk, Hub.canon_mk, MemSt.canon_mk]) | apply And.intro | split)
theorem State.tsoSetup_canon (s : State) (n : Nat) (h0 : s.canon) : (State.tsoSetup s n).canon := by
  unfold State.tsoSetup
  repeat' (with_reducible first | assumption | (intro _) | apply Hub.raise_canon | apply Hub.set1_canon | apply State.setTso_canon | apply State.canon_hub | apply State.canon_mem | apply MemSt.canon_cells | apply Hub.canon_regs | apply Hub.canon_shadow | apply Hub.canon_hostMem | apply Hub.canon_if | apply State.canon_if | apply MemSt.canon_if | (simp only [State.canon_mk, Hub.canon_mk, MemSt.canon_mk]) | apply And.intro | split)
theorem State.tsoPut_canon (s : State) (n : Nat) (x : TsoUnit) (h0 : s.canon) : (State.tsoPut s n x).canon := by
  unfold State.tsoPut
  repeat' (with_reducible first | assumption | (intro _) | apply Hub.set1_canon | apply State.setTso_canon | apply State.canon_hub | apply State.canon_mem | apply MemSt.canon_cells | apply Hub.canon_regs | apply Hub.canon_shadow | apply Hub.canon_hostMem | apply Hub.canon_if | apply State.canon_if | apply MemSt.canon_if | (simp only [State.canon_mk, Hub.canon_mk, MemSt.canon_mk]) | apply And.intro | split)
theorem execTsoRowReceive_canon (tso frame row flags cf size : Nat) (s : State) (h0 : s.canon) : ∃ t, execTsoRowReceive tso frame row flags cf size s = .next t ∧ t.canon := by
  refine ⟨_, rfl, ?_⟩
  repeat' (with_reducible first | assumption | (intro _) | apply State.tsoPut_canon | apply State.canon_hub | apply State.canon_mem | apply MemSt.canon_cells | apply Hub.canon_regs | apply Hub.canon_shadow | apply Hub.canon_hostMem | apply Hub.canon_if | apply State.canon_if | apply MemSt.canon_if | (simp only [State.canon_mk, Hub.canon_mk, MemSt.canon_mk]) | apply And.intro | split)
theorem State.tsoBoundary_canon (s : State) (h0 : s.canon) : (State.tsoBoundary s).canon := by
  unfold State.tsoBoundary
  repeat' (with_reducible first | assumption | (intro _) | apply Hub.err_canon | apply Hub.raiseRl_canon | apply MemSt.err_canon | apply State.setTso_canon | apply State.canon_hub | apply State.canon_mem | apply MemSt.canon_cells | apply Hub.canon_regs | apply Hub.canon_shadow | apply Hub.canon_hostMem | apply Hub.canon_if | apply State.canon_if | apply MemSt.canon_if | apply Hub.canon_foldl | apply State.canon_foldl | apply MemSt.canon_foldl | apply State.canon_foldl_fst | (simp only [State.canon_mk, Hub.canon_mk, MemSt.canon_mk]) | apply And.intro | split)
theorem State.tsoSend_canon (s : State) (n : Nat) (p : TsoPers) (len up : Nat) (kind : String) (args : List Nat) (h0 : s.canon) : (State.tsoSend s n p len up kind args).canon := by
  unfold State.tsoSend
  repeat' (with_reducible first | assumption | (intro _) | apply State.sysSend_canon | apply State.canon_hub | apply State.canon_mem | apply MemSt.canon_cells | apply Hub.canon_regs | apply Hub.canon_shadow | apply Hub.canon_hostMem | apply Hub.canon_if | apply State.canon_if | apply MemSt.canon_if | (simp only [State.canon_mk, Hub.canon_mk, MemSt.canon_mk]) | apply And.intro | split)
theorem State.tsoDatagram_canon (s : State) (n : Nat) (p : TsoPers) (at_ : Nat) (h0 : s.canon) : (State.tsoDatagram s n p at_).canon := by
  unfold State.tsoDatagram
  repeat' (with_reducible first | assumption | (intro _) | apply State.rtp_canon | apply State.setTso_canon | apply State.tsoSend_canon | apply State.canon_hub | apply State.canon_mem | apply MemSt.canon_cells | apply Hub.canon_regs | apply Hub.canon_shadow | apply Hub.canon_hostMem | apply Hub.canon_if | apply State.canon_if | apply MemSt.canon_if | (simp only [State.canon_mk, Hub.canon_mk, MemSt.canon_mk]) | apply And.intro | split)
theorem execTsPacketSchedule_canon (tso : Nat) (s : State) (h0 : s.canon) : ∃ t, execTsPacketSchedule tso s = .next t ∧ t.canon := by
  refine ⟨_, rfl, ?_⟩
  repeat' (with_reducible first | assumption | (intro _) | apply Hub.emit_canon | apply Hub.stat_canon | apply State.setTso_canon | apply State.tsoDatagram_canon | apply State.tsoPut_canon | apply State.canon_hub | apply State.canon_mem | apply MemSt.canon_cells | apply Hub.canon_regs | apply Hub.canon_shadow | apply Hub.canon_hostMem | apply Hub.canon_if | apply State.canon_if | apply MemSt.canon_if | (simp only [State.canon_mk, Hub.canon_mk, MemSt.canon_mk]) | apply And.intro | split)
theorem execPsiTimer_canon (tso : Nat) (s : State) (h0 : s.canon) : ∃ t, execPsiTimer tso s = .next t ∧ t.canon := by
  refine ⟨_, rfl, ?_⟩
  repeat' (with_reducible first | assumption | (intro _) | apply State.tsoPut_canon | apply State.canon_hub | apply State.canon_mem | apply MemSt.canon_cells | apply Hub.canon_regs | apply Hub.canon_shadow | apply Hub.canon_hostMem | apply Hub.canon_if | apply State.canon_if | apply MemSt.canon_if | (simp only [State.canon_mk, Hub.canon_mk, MemSt.canon_mk]) | apply And.intro | split)
theorem State.tsoAudio_canon (s : State) (chan at_ : Nat) (item : List Byte) (h0 : s.canon) : (State.tsoAudio s chan at_ item).canon := by
  unfold State.tsoAudio
  repeat' (with_reducible first | assumption | (intro _) | apply Hub.emit_canon | apply State.setTso_canon | apply State.tsoPut_canon | apply State.canon_hub | apply State.canon_mem | apply MemSt.canon_cells | apply Hub.canon_regs | apply Hub.canon_shadow | apply Hub.canon_hostMem | apply Hub.canon_if | apply State.canon_if | apply MemSt.canon_if | apply Hub.canon_foldl | apply State.canon_foldl | apply MemSt.canon_foldl | apply State.canon_foldl_fst | (simp only [State.canon_mk, Hub.canon_mk, MemSt.canon_mk]) | apply And.intro | split)
theorem State.cmafItem_canon (s : State) (n : Nat) (p : TsoPers) (item : List Byte) (boxes : Nat) (h0 : s.canon) : (State.cmafItem s n p item boxes).canon := by
  unfold State.cmafItem
  repeat' (with_reducible first | assumption | (intro _) | apply Hub.qpDeliver_canon | apply Hub.stat_canon | apply State.canon_hub | apply State.canon_mem | apply MemSt.canon_cells | apply Hub.canon_regs | apply Hub.canon_shadow | apply Hub.canon_hostMem | (simp only [State.canon_mk, Hub.canon_mk, MemSt.canon_mk]) | apply And.intro | split)
theorem State.cmafInit_canon (s : State) (n : Nat) (p : TsoPers) (c : CmafChunk) (h0 : s.canon) : (State.cmafInit s n p c).canon := by
  unfold State.cmafInit
  repeat' (with_reducible first | assumption | (intro _) | apply State.cmafItem_canon | apply State.setTso_canon | apply State.canon_hub | apply State.canon_mem | apply MemSt.canon_cells | apply Hub.canon_regs | apply Hub.canon_shadow | apply Hub.canon_hostMem | apply regsWf_filter | apply regsWf_kvFilter | apply memWf_filter | apply Hub.canon_if | apply State.canon_if | apply MemSt.canon_if | (simp only [State.canon_mk, Hub.canon_mk, MemSt.canon_mk]) | apply And.intro | split)
theorem State.cencAll_canon (s : State) (slot sash : Nat) (x0 : List Nat) (h0 : s.canon) : (State.cencAll s slot sash x0).1.canon := by
  induction x0 generalizing s slot sash with
  | nil =>
    unfold State.cencAll; try dsimp only
    repeat' (with_reducible first | assumption | (intro _) | apply MemSt.poison_canon | apply State.cipher_canon | apply State.canon_hub | apply State.canon_mem | apply MemSt.canon_cells | apply Hub.canon_regs | apply Hub.canon_shadow | apply Hub.canon_hostMem | apply Hub.canon_if | apply State.canon_if | apply MemSt.canon_if | (simp only [State.canon_mk, Hub.canon_mk, MemSt.canon_mk]) | apply And.intro | split)
  | cons a l ih =>
    unfold State.cencAll; try dsimp only
    repeat' (with_reducible first | assumption | (intro _) | apply ih | apply MemSt.poison_canon | apply State.cipher_canon | apply State.canon_hub | apply State.canon_mem | apply MemSt.canon_cells | apply Hub.canon_regs | apply Hub.canon_shadow | apply Hub.canon_hostMem | apply Hub.canon_if | apply State.canon_if | apply MemSt.canon_if | (simp only [State.canon_mk, Hub.canon_mk, MemSt.canon_mk]) | apply And.intro | split)
theorem State.cmafProtect_canon (s : State) (n : Nat) (p : TsoPers) (c : CmafChunk) (h0 : s.canon) : (State.cmafProtect s n p c).1.canon := by
  unfold State.cmafProtect
  repeat' (with_reducible first | assumption | (intro _) | apply Hub.err_canon | apply Hub.raise_canon | apply MemSt.err_canon | apply State.cencAll_canon | apply State.canon_hub | apply State.canon_mem | apply MemSt.canon_cells | apply Hub.canon_regs | apply Hub.canon_shadow | apply Hub.canon_hostMem | apply Hub.canon_if | apply State.canon_if | apply MemSt.canon_if | (simp only [State.canon_mk, Hub.canon_mk, MemSt.canon_mk]) | apply And.intro | split)
theorem execCmafChunkWrite_canon (x : CmafChunk) (s : State) (h0 : s.canon) : ∃ t, execCmafChunkWrite x s = .next t ∧ t.canon := by
  refine ⟨_, rfl, ?_⟩
  repeat' (with_reducible first | assumption | (intro _) | apply Hub.freeTick_canon | apply State.cmafInit_canon | apply State.cmafItem_canon | apply State.cmafProtect_canon | apply State.setTso_canon | apply State.tsoPut_canon | apply State.canon_hub | apply State.canon_mem | apply MemSt.canon_cells | apply Hub.canon_regs | apply Hub.canon_shadow | apply Hub.canon_hostMem | apply regsWf_filter | apply regsWf_kvFilter | apply memWf_filter | apply Hub.canon_if | apply State.canon_if | apply MemSt.canon_if | (simp only [State.canon_mk, Hub.canon_mk, MemSt.canon_mk]) | apply And.intro | split)
theorem execAudPacketReceive_canon (x : AudIn) (s : State) (h0 : s.canon) : ∃ t, execAudPacketReceive x s = .next t ∧ t.canon := by
  refine ⟨_, rfl, ?_⟩
  repeat' (with_reducible first | assumption | (intro _) | apply Hub.err_canon | apply Hub.raiseRl_canon | apply MemSt.err_canon | apply MemSt.poison_canon | apply State.canon_hub | apply State.canon_mem | apply MemSt.canon_cells | apply Hub.canon_regs | apply Hub.canon_shadow | apply Hub.canon_hostMem | apply Hub.canon_if | apply State.canon_if | apply MemSt.canon_if | (simp only [State.canon_mk, Hub.canon_mk, MemSt.canon_mk]) | apply And.intro | split)
theorem State.audOut_canon (s : State) (o chan n smp : Nat) (payload : List Byte) (level : Nat) (h0 : s.canon) : (State.audOut s o chan n smp payload level).canon := by
  unfold State.audOut
  repeat' (with_reducible first | assumption | (intro _) | apply State.produce_canon | apply State.canon_hub | apply State.canon_mem | apply MemSt.canon_cells | apply Hub.canon_regs | apply Hub.canon_shadow | apply Hub.canon_hostMem | apply regsWf_filter | apply regsWf_kvFilter | apply memWf_filter | (simp only [State.canon_mk, Hub.canon_mk, MemSt.canon_mk]) | apply And.intro | split)
theorem execAudEncFrame_canon (chan frame : Nat) (coded : List Byte) (level : Nat) (s : State) (h0 : s.canon) : ∃ t, execAudEncFrame chan frame coded level s = .next t ∧ t.canon := by
  refine ⟨_, rfl, ?_⟩
  repeat' (with_reducible first | assumption | (intro _) | apply State.audOut_canon | apply State.tsoAudio_canon | apply State.canon_hub | apply State.canon_mem | apply MemSt.canon_cells | apply Hub.canon_regs | apply Hub.canon_shadow | apply Hub.canon_hostMem | apply regsWf_filter | apply regsWf_kvFilter | apply memWf_filter | apply Hub.canon_if | apply State.canon_if | apply MemSt.canon_if | apply Hub.canon_foldl | apply State.canon_foldl | apply MemSt.canon_foldl | apply State.canon_foldl_fst | (simp only [State.canon_mk, Hub.canon_mk, MemSt.canon_mk]) | apply And.intro | split)
theorem State.cascadeIn_canon (s : State) (dev chan period : Nat) (samples : List Int) (poison : Bool) (h0 : s.canon) : (State.cascadeIn s dev chan period samples poison).canon := by
  unfold State.cascadeIn
  repeat' (with_reducible first | assumption | (intro _) | apply Hub.err_canon | apply Hub.raiseRl_canon | apply MemSt.err_canon | apply MemSt.poison_canon | apply State.canon_hub | apply State.canon_mem | apply MemSt.canon_cells | apply Hub.canon_regs | apply Hub.canon_shadow | apply Hub.canon_hostMem | apply Hub.canon_if | apply State.canon_if | apply MemSt.canon_if | (simp only [State.canon_mk, Hub.canon_mk, MemSt.canon_mk]) | apply And.intro | split)
theorem execCascadeFlit_canon (dev chan period : Nat) (samples : List Int) (poison : Bool) (s : State) (h0 : s.canon) : ∃ t, execCascadeFlit dev chan period samples poison s = .next t ∧ t.canon := by
  refine ⟨_, rfl, ?_⟩
  repeat' (with_reducible first | assumption | (intro _) | apply MemSt.poison_canon | apply State.cascadeIn_canon | apply State.canon_hub | apply State.canon_mem | apply MemSt.canon_cells | apply Hub.canon_regs | apply Hub.canon_shadow | apply Hub.canon_hostMem | (simp only [State.canon_mk, Hub.canon_mk, MemSt.canon_mk]) | apply And.intro | split)
theorem State.talkerEvent_canon (s : State) (c leg t : Nat) (h0 : s.canon) : (State.talkerEvent s c leg t).canon := by
  unfold State.talkerEvent
  repeat' (with_reducible first | assumption | (intro _) | apply Hub.raiseRl_canon | apply State.canon_hub | apply State.canon_mem | apply MemSt.canon_cells | apply Hub.canon_regs | apply Hub.canon_shadow | apply Hub.canon_hostMem | (simp only [State.canon_mk, Hub.canon_mk, MemSt.canon_mk]) | apply And.intro | split)
theorem State.setConf_canon (s : State) (n : Nat) (c : AudConf) (h0 : s.canon) : (State.setConf s n c).canon := by
  unfold State.setConf
  repeat' (with_reducible first | assumption | (intro _) | apply State.canon_hub | apply State.canon_mem | apply MemSt.canon_cells | apply Hub.canon_regs | apply Hub.canon_shadow | apply Hub.canon_hostMem | (simp only [State.canon_mk, Hub.canon_mk, MemSt.canon_mk]) | apply And.intro | split)
theorem State.talkJoin_canon (s : State) (n leg t : Nat) (h0 : s.canon) : (State.talkJoin s n leg t).canon := by
  unfold State.talkJoin
  repeat' (with_reducible first | assumption | (intro _) | apply Hub.freeTick_canon | apply State.decOpen_canon | apply State.encOpen_canon | apply State.setConf_canon | apply State.talkerEvent_canon | apply State.canon_hub | apply State.canon_mem | apply MemSt.canon_cells | apply Hub.canon_regs | apply Hub.canon_shadow | apply Hub.canon_hostMem | apply regsWf_filter | apply regsWf_kvFilter | apply memWf_filter | apply Hub.canon_if | apply State.canon_if | apply MemSt.canon_if | (simp only [State.canon_mk, Hub.canon_mk, MemSt.canon_mk]) | apply And.intro | split)
theorem State.talkLeave_canon (s : State) (n leg : Nat) (h0 : s.canon) : (State.talkLeave s n leg).canon := by
  unfold State.talkLeave
  repeat' (with_reducible first | assumption | (intro _) | apply State.encClose_canon | apply State.setConf_canon | apply State.talkerEvent_canon | apply State.canon_hub | apply State.canon_mem | apply MemSt.canon_cells | apply Hub.canon_regs | apply Hub.canon_shadow | apply Hub.canon_hostMem | apply regsWf_filter | apply regsWf_kvFilter | apply memWf_filter | apply Hub.canon_if | apply State.canon_if | apply MemSt.canon_if | apply Hub.canon_foldl | apply State.canon_foldl | apply MemSt.canon_foldl | apply State.canon_foldl_fst | (simp only [State.canon_mk, Hub.canon_mk, MemSt.canon_mk]) | apply And.intro | split)
theorem State.talkGone_canon (s : State) (n : Nat) (h0 : s.canon) : (State.talkGone s n).canon := by
  unfold State.talkGone
  repeat' (with_reducible first | assumption | (intro _) | apply State.decClose_canon | apply State.setConf_canon | apply State.canon_hub | apply State.canon_mem | apply MemSt.canon_cells | apply Hub.canon_regs | apply Hub.canon_shadow | apply Hub.canon_hostMem | apply regsWf_filter | apply regsWf_kvFilter | apply memWf_filter | apply Hub.canon_if | apply State.canon_if | apply MemSt.canon_if | apply Hub.canon_foldl | apply State.canon_foldl | apply MemSt.canon_foldl | apply State.canon_foldl_fst | (simp only [State.canon_mk, Hub.canon_mk, MemSt.canon_mk]) | apply And.intro | split)
theorem State.talkFill_canon (s : State) (n : Nat) (x0 : Nat) (h0 : s.canon) : (State.talkFill s n x0).canon := by
  induction x0 generalizing s n with
  | zero =>
    unfold State.talkFill; try dsimp only
    repeat' (with_reducible first | assumption | (intro _) | apply State.talkJoin_canon | apply State.canon_hub | apply State.canon_mem | apply MemSt.canon_cells | apply Hub.canon_regs | apply Hub.canon_shadow | apply Hub.canon_hostMem | apply regsWf_filter | apply regsWf_kvFilter | apply memWf_filter | apply Hub.canon_if | apply State.canon_if | apply MemSt.canon_if | (simp only [State.canon_mk, Hub.canon_mk, MemSt.canon_mk]) | apply And.intro | split)
  | succ n ih =>
    unfold State.talkFill; try dsimp only
    repeat' (with_reducible first | assumption | (intro _) | apply ih | apply State.talkJoin_canon | apply State.canon_hub | apply State.canon_mem | apply MemSt.canon_cells | apply Hub.canon_regs | apply Hub.canon_shadow | apply Hub.canon_hostMem | apply regsWf_filter | apply regsWf_kvFilter | apply memWf_filter | apply Hub.canon_if | apply State.canon_if | apply MemSt.canon_if | (simp only [State.canon_mk, Hub.canon_mk, MemSt.canon_mk]) | apply And.intro | split)
theorem State.talkSwap_canon (s : State) (n : Nat) (waiting : List Nat) (x0 : Nat) (h0 : s.canon) : (State.talkSwap s n waiting x0).canon := by
  induction x0 generalizing s n waiting with
  | zero =>
    unfold State.talkSwap; try dsimp only
    repeat' (with_reducible first | assumption | (intro _) | apply State.talkLeave_canon | apply State.canon_hub | apply State.canon_mem | apply MemSt.canon_cells | apply Hub.canon_regs | apply Hub.canon_shadow | apply Hub.canon_hostMem | apply regsWf_filter | apply regsWf_kvFilter | apply memWf_filter | apply Hub.canon_if | apply State.canon_if | apply MemSt.canon_if | (simp only [State.canon_mk, Hub.canon_mk, MemSt.canon_mk]) | apply And.intro | split)
  | succ n ih =>
    unfold State.talkSwap; try dsimp only
    repeat' (with_reducible first | assumption | (intro _) | apply ih | apply State.talkLeave_canon | apply State.canon_hub | apply State.canon_mem | apply MemSt.canon_cells | apply Hub.canon_regs | apply Hub.canon_shadow | apply Hub.canon_hostMem | apply regsWf_filter | apply regsWf_kvFilter | apply memWf_filter | apply Hub.canon_if | apply State.canon_if | apply MemSt.canon_if | (simp only [State.canon_mk, Hub.canon_mk, MemSt.canon_mk]) | apply And.intro | split)
theorem State.talkQuiet_canon (s : State) (n : Nat) (h0 : s.canon) : (State.talkQuiet s n).canon := by
  unfold State.talkQuiet
  repeat' (with_reducible first | assumption | (intro _) | apply State.setConf_canon | apply State.talkLeave_canon | apply State.canon_hub | apply State.canon_mem | apply MemSt.canon_cells | apply Hub.canon_regs | apply Hub.canon_shadow | apply Hub.canon_hostMem | apply regsWf_filter | apply regsWf_kvFilter | apply memWf_filter | apply Hub.canon_if | apply State.canon_if | apply MemSt.canon_if | apply Hub.canon_foldl | apply State.canon_foldl | apply MemSt.canon_foldl | apply State.canon_foldl_fst | (simp only [State.canon_mk, Hub.canon_mk, MemSt.canon_mk]) | apply And.intro | split)
theorem execTalkIntervalTimer_canon (conf : Nat) (s : State) (h0 : s.canon) : ∃ t, execTalkIntervalTimer conf s = .next t ∧ t.canon := by
  refine ⟨_, rfl, ?_⟩
  repeat' (with_reducible first | assumption | (intro _) | apply State.dblCheck_canon | apply State.jlSvc_canon | apply State.retarget_canon | apply State.setConf_canon | apply State.talkFill_canon | apply State.talkGone_canon | apply State.talkQuiet_canon | apply State.talkSwap_canon | apply State.canon_hub | apply State.canon_mem | apply MemSt.canon_cells | apply Hub.canon_regs | apply Hub.canon_shadow | apply Hub.canon_hostMem | apply Hub.canon_if | apply State.canon_if | apply MemSt.canon_if | apply Hub.canon_foldl | apply State.canon_foldl | apply MemSt.canon_foldl | apply State.canon_foldl_fst | (simp only [State.canon_mk, Hub.canon_mk, MemSt.canon_mk]) | apply And.intro | split)
theorem State.confEnd_canon (s : State) (n : Nat) (h0 : s.canon) : (State.confEnd s n).canon := by
  unfold State.confEnd
  repeat' (with_reducible first | assumption | (intro _) | apply State.decClose_canon | apply State.encClose_canon | apply State.nodeSet_canon | apply State.canon_hub | apply State.canon_mem | apply MemSt.canon_cells | apply Hub.canon_regs | apply Hub.canon_shadow | apply Hub.canon_hostMem | apply Hub.canon_if | apply State.canon_if | apply MemSt.canon_if | apply Hub.canon_foldl | apply State.canon_foldl | apply MemSt.canon_foldl | apply State.canon_foldl_fst | (simp only [State.canon_mk, Hub.canon_mk, MemSt.canon_mk]) | apply And.intro | split)
theorem execAudConf_canon (e : CmdEnv) (body : List Byte) (s : State) (h0 : s.canon) : ∃ t, execAudConf e body s = .next t ∧ t.canon := by
  refine ⟨_, rfl, ?_⟩
  repeat' (with_reducible first | assumption | (intro _) | apply State.confEnd_canon | apply State.dblCheck_canon | apply State.done_canon | apply State.nodeSet_canon | apply State.setConf_canon | apply State.canon_hub | apply State.canon_mem | apply MemSt.canon_cells | apply Hub.canon_regs | apply Hub.canon_shadow | apply Hub.canon_hostMem | apply Hub.canon_if | apply State.canon_if | apply MemSt.canon_if | apply Hub.canon_foldl | apply State.canon_foldl | apply MemSt.canon_foldl | apply State.canon_foldl_fst | (simp only [State.canon_mk, Hub.canon_mk, MemSt.canon_mk]) | apply And.intro | split)
theorem execAudLegProfile_canon (e : CmdEnv) (body : List Byte) (s : State) (h0 : s.canon) : ∃ t, execAudLegProfile e body s = .next t ∧ t.canon := by
  refine ⟨_, rfl, ?_⟩
  repeat' (with_reducible first | assumption | (intro _) | apply State.done_canon | apply State.canon_hub | apply State.canon_mem | apply MemSt.canon_cells | apply Hub.canon_regs | apply Hub.canon_shadow | apply Hub.canon_hostMem | apply Hub.canon_if | apply State.canon_if | apply MemSt.canon_if | (simp only [State.canon_mk, Hub.canon_mk, MemSt.canon_mk]) | apply And.intro | split)
theorem Hub.freeSample_canon (h : Hub) (h0 : h.canon) : (Hub.freeSample h).2.canon := by
  unfold Hub.freeSample
  repeat' (with_reducible first | assumption | (intro _) | apply Hub.freeTick_canon | apply State.canon_hub | apply State.canon_mem | apply MemSt.canon_cells | apply Hub.canon_regs | apply Hub.canon_shadow | apply Hub.canon_hostMem | (simp only [State.canon_mk, Hub.canon_mk, MemSt.canon_mk]) | apply And.intro | split)
theorem State.conceal_canon (s : State) (c smp : Nat) (h0 : s.canon) : (State.conceal s c smp).canon := by
  unfold State.conceal
  repeat' (with_reducible first | assumption | (intro _) | apply Hub.err_canon | apply Hub.freeSample_canon | apply MemSt.err_canon | apply State.canon_hub | apply State.canon_mem | apply MemSt.canon_cells | apply Hub.canon_regs | apply Hub.canon_shadow | apply Hub.canon_hostMem | apply Hub.canon_if | apply State.canon_if | apply MemSt.canon_if | (simp only [State.canon_mk, Hub.canon_mk, MemSt.canon_mk]) | apply And.intro | split)
theorem State.concealAll_canon (s : State) (p : Nat) (h0 : s.canon) : (State.concealAll s p).canon := by
  unfold State.concealAll
  repeat' (with_reducible first | assumption | (intro _) | apply State.conceal_canon | apply State.canon_hub | apply State.canon_mem | apply MemSt.canon_cells | apply Hub.canon_regs | apply Hub.canon_shadow | apply Hub.canon_hostMem | apply Hub.canon_foldl | apply State.canon_foldl | apply MemSt.canon_foldl | apply State.canon_foldl_fst | (simp only [State.canon_mk, Hub.canon_mk, MemSt.canon_mk]) | apply And.intro | split)
theorem State.sourceFaults_canon (s : State) (p : Nat) (h0 : s.canon) : (State.sourceFaults s p).canon := by
  unfold State.sourceFaults
  repeat' (with_reducible first | assumption | (intro _) | apply Hub.err_canon | apply Hub.raiseRl_canon | apply MemSt.err_canon | apply State.canon_hub | apply State.canon_mem | apply MemSt.canon_cells | apply Hub.canon_regs | apply Hub.canon_shadow | apply Hub.canon_hostMem | apply regsWf_filter | apply regsWf_kvFilter | apply memWf_filter | apply Hub.canon_if | apply State.canon_if | apply MemSt.canon_if | apply Hub.canon_foldl | apply State.canon_foldl | apply MemSt.canon_foldl | apply State.canon_foldl_fst | (simp only [State.canon_mk, Hub.canon_mk, MemSt.canon_mk]) | apply And.intro | split)
theorem AudMeter.next_canon (m : AudMeter) (h : Hub) (l : List Int) (h0 : h.canon) : (AudMeter.next m h l).2.canon := by
  unfold AudMeter.next
  repeat' (with_reducible first | assumption | (intro _) | apply Hub.between_canon | apply State.canon_hub | apply State.canon_mem | apply MemSt.canon_cells | apply Hub.canon_regs | apply Hub.canon_shadow | apply Hub.canon_hostMem | apply Hub.canon_if | apply State.canon_if | apply MemSt.canon_if | apply Hub.canon_foldl | apply State.canon_foldl | apply MemSt.canon_foldl | apply State.canon_foldl_fst | (simp only [State.canon_mk, Hub.canon_mk, MemSt.canon_mk]) | apply And.intro | split)
theorem limit_canon (h : Hub) (t knee env : Nat) (x : Int) (h0 : h.canon) : (limit h t knee env x).2.2.canon := by
  unfold limit
  repeat' (with_reducible first | assumption | (intro _) | apply Hub.between_canon | apply State.canon_hub | apply State.canon_mem | apply MemSt.canon_cells | apply Hub.canon_regs | apply Hub.canon_shadow | apply Hub.canon_hostMem | apply Hub.canon_if | apply State.canon_if | apply MemSt.canon_if | (simp only [State.canon_mk, Hub.canon_mk, MemSt.canon_mk]) | apply And.intro | split)
theorem roundFrac_canon (h : Hub) (x : Int) (h0 : h.canon) : (roundFrac h x).2.canon := by
  unfold roundFrac
  repeat' (with_reducible first | assumption | (intro _) | apply Hub.freeTick_canon | apply State.canon_hub | apply State.canon_mem | apply MemSt.canon_cells | apply Hub.canon_regs | apply Hub.canon_shadow | apply Hub.canon_hostMem | apply Hub.canon_if | apply State.canon_if | apply MemSt.canon_if | (simp only [State.canon_mk, Hub.canon_mk, MemSt.canon_mk]) | apply And.intro | split)
theorem State.sinkSample_canon (s : State) (k p smp : Nat) (t knee : Nat) (h0 : s.canon) : (State.sinkSample s k p smp t knee).canon := by
  unfold State.sinkSample
  repeat' (with_reducible first | assumption | (intro _) | apply Hub.err_canon | apply Hub.raiseRl_canon | apply MemSt.err_canon | apply limit_canon | apply roundFrac_canon | apply State.canon_hub | apply State.canon_mem | apply MemSt.canon_cells | apply Hub.canon_regs | apply Hub.canon_shadow | apply Hub.canon_hostMem | apply Hub.canon_if | apply State.canon_if | apply MemSt.canon_if | (simp only [State.canon_mk, Hub.canon_mk, MemSt.canon_mk]) | apply And.intro | split)
theorem State.sinkOut_canon (s : State) (k p : Nat) (h0 : s.canon) : (State.sinkOut s k p).canon := by
  unfold State.sinkOut
  repeat' (with_reducible first | assumption | (intro _) | apply MemSt.poison_canon | apply State.jlCascade_canon | apply State.canon_hub | apply State.canon_mem | apply MemSt.canon_cells | apply Hub.canon_regs | apply Hub.canon_shadow | apply Hub.canon_hostMem | (simp only [State.canon_mk, Hub.canon_mk, MemSt.canon_mk]) | apply And.intro | split)
theorem State.autoGoal_canon (s : State) (k : Nat) (h0 : s.canon) : (State.autoGoal s k).canon := by
  unfold State.autoGoal
  repeat' (with_reducible first | assumption | (intro _) | apply State.canon_hub | apply State.canon_mem | apply MemSt.canon_cells | apply Hub.canon_regs | apply Hub.canon_shadow | apply Hub.canon_hostMem | apply Hub.canon_if | apply State.canon_if | apply MemSt.canon_if | (simp only [State.canon_mk, Hub.canon_mk, MemSt.canon_mk]) | apply And.intro | split)
theorem State.mixSink_canon (s : State) (p k : Nat) (h0 : s.canon) : (State.mixSink s p k).canon := by
  unfold State.mixSink
  repeat' (with_reducible first | assumption | (intro _) | apply AudMeter.next_canon | apply Hub.set1_canon | apply State.sinkOut_canon | apply State.sinkSample_canon | apply State.canon_hub | apply State.canon_mem | apply MemSt.canon_cells | apply Hub.canon_regs | apply Hub.canon_shadow | apply Hub.canon_hostMem | apply Hub.canon_foldl | apply State.canon_foldl | apply MemSt.canon_foldl | apply State.canon_foldl_fst | (simp only [State.canon_mk, Hub.canon_mk, MemSt.canon_mk]) | apply And.intro | split)
theorem State.sourceRead_canon (s : State) (p j : Nat) (h0 : s.canon) : (State.sourceRead s p j).canon := by
  unfold State.sourceRead
  repeat' (with_reducible first | assumption | (intro _) | apply AudMeter.next_canon | apply Hub.set1_canon | apply State.canon_hub | apply State.canon_mem | apply MemSt.canon_cells | apply Hub.canon_regs | apply Hub.canon_shadow | apply Hub.canon_hostMem | apply regsWf_filter | apply regsWf_kvFilter | apply memWf_filter | apply Hub.canon_foldl | apply State.canon_foldl | apply MemSt.canon_foldl | apply State.canon_foldl_fst | (simp only [State.canon_mk, Hub.canon_mk, MemSt.canon_mk]) | apply And.intro | split)
theorem State.talkCascade_canon (s : State) (p : Nat) (h0 : s.canon) : (State.talkCascade s p).canon := by
  unfold State.talkCascade
  repeat' (with_reducible first | assumption | (intro _) | apply State.jlCascade_canon | apply State.canon_hub | apply State.canon_mem | apply MemSt.canon_cells | apply Hub.canon_regs | apply Hub.canon_shadow | apply Hub.canon_hostMem | apply regsWf_filter | apply regsWf_kvFilter | apply memWf_filter | apply Hub.canon_foldl | apply State.canon_foldl | apply MemSt.canon_foldl | apply State.canon_foldl_fst | (simp only [State.canon_mk, Hub.canon_mk, MemSt.canon_mk]) | apply And.intro | split)
theorem State.surveyBlocks_canon (s : State) (p : Nat) (h0 : s.canon) : (State.surveyBlocks s p).canon := by
  unfold State.surveyBlocks
  repeat' (with_reducible first | assumption | (intro _) | apply Hub.freeSample_canon | apply Hub.freeTick_canon | apply MemSt.poison_canon | apply State.canon_hub | apply State.canon_mem | apply MemSt.canon_cells | apply Hub.canon_regs | apply Hub.canon_shadow | apply Hub.canon_hostMem | apply Hub.canon_if | apply State.canon_if | apply MemSt.canon_if | apply Hub.canon_foldl_snd | apply Hub.canon_foldl | apply State.canon_foldl | apply MemSt.canon_foldl | apply State.canon_foldl_fst | (simp only [State.canon_mk, Hub.canon_mk, MemSt.canon_mk]) | apply And.intro | split)
theorem State.decodedLevels_canon (s : State) (h0 : s.canon) : (State.decodedLevels s).canon := by
  unfold State.decodedLevels
  repeat' (with_reducible first | assumption | (intro _) | apply State.canon_hub | apply State.canon_mem | apply MemSt.canon_cells | apply Hub.canon_regs | apply Hub.canon_shadow | apply Hub.canon_hostMem | apply regsWf_filter | apply regsWf_kvFilter | apply memWf_filter | apply Hub.canon_if | apply State.canon_if | apply MemSt.canon_if | apply Hub.canon_foldl | apply State.canon_foldl | apply MemSt.canon_foldl | apply State.canon_foldl_fst | (simp only [State.canon_mk, Hub.canon_mk, MemSt.canon_mk]) | apply And.intro | split)
theorem State.anchorShift_canon (s : State) (c : Nat) (h0 : s.canon) : (State.anchorShift s c).canon := by
  unfold State.anchorShift
  repeat' (with_reducible first | assumption | (intro _) | apply Hub.err_canon | apply Hub.raiseRl_canon | apply MemSt.err_canon | apply State.canon_hub | apply State.canon_mem | apply MemSt.canon_cells | apply Hub.canon_regs | apply Hub.canon_shadow | apply Hub.canon_hostMem | apply regsWf_filter | apply regsWf_kvFilter | apply memWf_filter | apply Hub.canon_if | apply State.canon_if | apply MemSt.canon_if | (simp only [State.canon_mk, Hub.canon_mk, MemSt.canon_mk]) | apply And.intro | split)
theorem State.audCloses_canon (s : State) (h0 : s.canon) : (State.audCloses s).canon := by
  unfold State.audCloses
  repeat' (with_reducible first | assumption | (intro _) | apply State.decClose_canon | apply State.encClose_canon | apply State.canon_hub | apply State.canon_mem | apply MemSt.canon_cells | apply Hub.canon_regs | apply Hub.canon_shadow | apply Hub.canon_hostMem | apply regsWf_filter | apply regsWf_kvFilter | apply memWf_filter | apply Hub.canon_foldl | apply State.canon_foldl | apply MemSt.canon_foldl | apply State.canon_foldl_fst | (simp only [State.canon_mk, Hub.canon_mk, MemSt.canon_mk]) | apply And.intro | split)
theorem State.audSets_canon (s : State) (h0 : s.canon) : (State.audSets s).canon := by
  unfold State.audSets
  repeat' (with_reducible first | assumption | (intro _) | apply State.nodeSet_canon | apply State.canon_hub | apply State.canon_mem | apply MemSt.canon_cells | apply Hub.canon_regs | apply Hub.canon_shadow | apply Hub.canon_hostMem | apply regsWf_filter | apply regsWf_kvFilter | apply memWf_filter | apply Hub.canon_foldl | apply State.canon_foldl | apply MemSt.canon_foldl | apply State.canon_foldl_fst | (simp only [State.canon_mk, Hub.canon_mk, MemSt.canon_mk]) | apply And.intro | split)
theorem State.audGone_canon (s : State) (h0 : s.canon) : (State.audGone s).canon := by
  unfold State.audGone
  repeat' (with_reducible first | assumption | (intro _) | apply State.confEnd_canon | apply State.canon_hub | apply State.canon_mem | apply MemSt.canon_cells | apply Hub.canon_regs | apply Hub.canon_shadow | apply Hub.canon_hostMem | apply regsWf_filter | apply regsWf_kvFilter | apply memWf_filter | apply Hub.canon_foldl | apply State.canon_foldl | apply MemSt.canon_foldl | apply State.canon_foldl_fst | (simp only [State.canon_mk, Hub.canon_mk, MemSt.canon_mk]) | apply And.intro | split)
theorem State.mixBlock_canon (s : State) (p : Nat) (h0 : s.canon) : (State.mixBlock s p).canon := by
  unfold State.mixBlock
  repeat' (with_reducible first | assumption | (intro _) | apply Hub.set_canon | apply Hub.stat_canon | apply State.autoGoal_canon | apply State.concealAll_canon | apply State.decodedLevels_canon | apply State.mixSink_canon | apply State.sourceFaults_canon | apply State.sourceRead_canon | apply State.surveyBlocks_canon | apply State.talkCascade_canon | apply State.canon_hub | apply State.canon_mem | apply MemSt.canon_cells | apply Hub.canon_regs | apply Hub.canon_shadow | apply Hub.canon_hostMem | apply Hub.canon_if | apply State.canon_if | apply MemSt.canon_if | apply Hub.canon_foldl | apply State.canon_foldl | apply MemSt.canon_foldl | apply State.canon_foldl_fst | (simp only [State.canon_mk, Hub.canon_mk, MemSt.canon_mk]) | apply And.intro | split)
theorem State.audBoundary_canon (s : State) (h0 : s.canon) : (State.audBoundary s).canon := by
  unfold State.audBoundary
  repeat' (with_reducible first | assumption | (intro _) | apply State.anchorShift_canon | apply State.audCloses_canon | apply State.audGone_canon | apply State.audSets_canon | apply State.dblCheck_canon | apply State.mixBlock_canon | apply State.canon_hub | apply State.canon_mem | apply MemSt.canon_cells | apply Hub.canon_regs | apply Hub.canon_shadow | apply Hub.canon_hostMem | apply Hub.canon_if | apply State.canon_if | apply MemSt.canon_if | apply Hub.canon_foldl | apply State.canon_foldl | apply MemSt.canon_foldl | apply State.canon_foldl_fst | (simp only [State.canon_mk, Hub.canon_mk, MemSt.canon_mk]) | apply And.intro | split)
theorem State.splErr_canon (s : State) (f : Fld) (u : Nat) (h0 : s.canon) : (State.splErr s f u).canon := by
  unfold State.splErr
  repeat' (with_reducible first | assumption | (intro _) | apply Hub.err_canon | apply MemSt.err_canon | apply State.canon_hub | apply State.canon_mem | apply MemSt.canon_cells | apply Hub.canon_regs | apply Hub.canon_shadow | apply Hub.canon_hostMem | (simp only [State.canon_mk, Hub.canon_mk, MemSt.canon_mk]) | apply And.intro | split)
theorem State.splRaise_canon (s : State) (code u x : Nat) (h0 : s.canon) : (State.splRaise s code u x).canon := by
  unfold State.splRaise
  repeat' (with_reducible first | assumption | (intro _) | apply Hub.raiseRl_canon | apply State.canon_hub | apply State.canon_mem | apply MemSt.canon_cells | apply Hub.canon_regs | apply Hub.canon_shadow | apply Hub.canon_hostMem | (simp only [State.canon_mk, Hub.canon_mk, MemSt.canon_mk]) | apply And.intro | split)
theorem State.setRecv_canon (s : State) (spl r : Nat) (v : SplRecv) (h0 : s.canon) : (State.setRecv s spl r v).canon := by
  unfold State.setRecv
  repeat' (with_reducible first | assumption | (intro _) | apply State.canon_hub | apply State.canon_mem | apply MemSt.canon_cells | apply Hub.canon_regs | apply Hub.canon_shadow | apply Hub.canon_hostMem | (simp only [State.canon_mk, Hub.canon_mk, MemSt.canon_mk]) | apply And.intro | split)
theorem execTemplateRecordReceive_canon (spl : Nat) (rec : List Byte) (poison : Bool) (s : State) (h0 : s.canon) : ∃ t, execTemplateRecordReceive spl rec poison s = .next t ∧ t.canon := by
  refine ⟨_, rfl, ?_⟩
  repeat' (with_reducible first | assumption | (intro _) | apply AudMeter.next_canon | apply Hub.raise_canon | apply MemSt.poison_canon | apply State.splErr_canon | apply State.splRaise_canon | apply State.canon_hub | apply State.canon_mem | apply MemSt.canon_cells | apply Hub.canon_regs | apply Hub.canon_shadow | apply Hub.canon_hostMem | apply regsWf_filter | apply regsWf_kvFilter | apply memWf_filter | apply Hub.canon_if | apply State.canon_if | apply MemSt.canon_if | apply Hub.canon_foldl | apply State.canon_foldl | apply MemSt.canon_foldl | apply State.canon_foldl_fst | (simp only [State.canon_mk, Hub.canon_mk, MemSt.canon_mk]) | apply And.intro | split)
theorem State.splPurge_canon (s : State) (spl : Nat) (h0 : s.canon) : (State.splPurge s spl).canon := by
  unfold State.splPurge
  repeat' (with_reducible first | assumption | (intro _) | apply MemSt.store_canon | apply State.canon_hub | apply State.canon_mem | apply MemSt.canon_cells | apply Hub.canon_regs | apply Hub.canon_shadow | apply Hub.canon_hostMem | apply regsWf_filter | apply regsWf_kvFilter | apply memWf_filter | (simp only [State.canon_mk, Hub.canon_mk, MemSt.canon_mk]) | apply And.intro | split)
theorem State.posNeeds_canon (s : State) (spl : Nat) (l : List SplPos) (h0 : s.canon) : (State.posNeeds s spl l).canon := by
  unfold State.posNeeds
  repeat' (with_reducible first | assumption | (intro _) | apply State.paneNeed_canon | apply State.canon_hub | apply State.canon_mem | apply MemSt.canon_cells | apply Hub.canon_regs | apply Hub.canon_shadow | apply Hub.canon_hostMem | apply Hub.canon_foldl | apply State.canon_foldl | apply MemSt.canon_foldl | apply State.canon_foldl_fst | (simp only [State.canon_mk, Hub.canon_mk, MemSt.canon_mk]) | apply And.intro | split)
theorem State.recvChange_canon (s : State) (spl : Nat) (v : SplRecv) (tpl : Nat) (l : List (Option Nat)) (h0 : s.canon) : (State.recvChange s spl v tpl l).1.canon := by
  unfold State.recvChange
  repeat' (with_reducible first | assumption | (intro _) | apply State.paneNeed_canon | apply State.posNeeds_canon | apply State.canon_hub | apply State.canon_mem | apply MemSt.canon_cells | apply Hub.canon_regs | apply Hub.canon_shadow | apply Hub.canon_hostMem | apply Hub.canon_if | apply State.canon_if | apply MemSt.canon_if | apply Hub.canon_foldl | apply State.canon_foldl | apply MemSt.canon_foldl | apply State.canon_foldl_fst | (simp only [State.canon_mk, Hub.canon_mk, MemSt.canon_mk]) | apply And.intro | split)
theorem State.recvOpen_canon (s : State) (spl : Nat) (v : SplRecv) (s1 : State) (w : SplRecv) (h0 : s.canon) (h : s.recvOpen spl v = some (s1, w)) : s1.canon := by
  unfold State.recvOpen at h
  dsimp only at h
  have hf : ∀ (l : List RecvChange) (a : State × SplRecv), a.1.canon → (l.foldl (fun (a : State × SplRecv) c => match c.set with
      | some (t, l) => a.1.recvChange spl a.2 t l
      | none => a) a).1.canon := by
    intro l a ha
    refine State.canon_foldl_fst _ (fun a b hb => ?_) l a ha
    split
    · exact State.recvChange_canon _ _ _ _ _ hb
    · exact hb
  split at h
  · cases h
  · split at h
    · split at h
      · have h3 := congrArg (fun p => Prod.fst p) (Option.some.inj h)
        dsimp only at h3
        rw [← h3]
        exact State.recvChange_canon _ _ _ _ _ (hf _ _ h0)
      · have h3 := congrArg (fun p => Prod.fst p) (Option.some.inj h)
        dsimp only at h3
        rw [← h3]
        exact hf _ _ h0
    · have h3 := congrArg (fun p => Prod.fst p) (Option.some.inj h)
      dsimp only at h3
      rw [← h3]
      exact hf _ _ h0
theorem State.splEmit_canon (s : State) (spl r : Nat) (v : SplRecv) (last : Bool) (b : List Byte) (h0 : s.canon) : (State.splEmit s spl r v last b).canon := by
  unfold State.splEmit
  repeat' (with_reducible first | assumption | (intro _) | apply Hub.stat_canon | apply State.produce_canon | apply State.canon_hub | apply State.canon_mem | apply MemSt.canon_cells | apply Hub.canon_regs | apply Hub.canon_shadow | apply Hub.canon_hostMem | apply Hub.canon_foldl | apply State.canon_foldl | apply MemSt.canon_foldl | apply State.canon_foldl_fst | (simp only [State.canon_mk, Hub.canon_mk, MemSt.canon_mk]) | apply And.intro | split)
theorem State.recvRun_canon (s : State) (spl r : Nat) (dl : Option Nat) (x0 : Nat) (h0 : s.canon) : (State.recvRun s spl r dl x0).canon := by
  induction x0 generalizing s spl r dl with
  | zero => exact h0
  | succ n ih =>
    unfold State.recvRun
    repeat' (with_reducible first | assumption | (intro _) | apply ih | apply State.setRecv_canon | apply State.splEmit_canon | apply State.splPosition_canon | apply State.posNeeds_canon | apply Hub.stat_canon | apply State.splRaise_canon | apply State.splErr_canon | apply State.canon_hub | apply State.canon_mem | apply State.canon_if | exact State.recvOpen_canon _ _ _ _ _ h0 ‹_› | apply Hub.set1_canon | (simp only [State.canon_mk]) | apply And.intro | split)
theorem State.splRun_canon (s : State) (spl : Nat) (dl : Option Nat) (h0 : s.canon) : (State.splRun s spl dl).canon := by
  unfold State.splRun
  repeat' (with_reducible first | assumption | (intro _) | apply State.recvRun_canon | apply State.splPurge_canon | apply State.canon_hub | apply State.canon_mem | apply MemSt.canon_cells | apply Hub.canon_regs | apply Hub.canon_shadow | apply Hub.canon_hostMem | apply regsWf_filter | apply regsWf_kvFilter | apply memWf_filter | apply Hub.canon_foldl | apply State.canon_foldl | apply MemSt.canon_foldl | apply State.canon_foldl_fst | (simp only [State.canon_mk, Hub.canon_mk, MemSt.canon_mk]) | apply And.intro | split)
theorem State.refreshJudge_canon (s : State) (spl id frame : Nat) (ok : Bool) (h0 : s.canon) : (State.refreshJudge s spl id frame ok).canon := by
  unfold State.refreshJudge
  repeat' (with_reducible first | assumption | (intro _) | apply State.paneNeed_canon | apply State.splErr_canon | apply State.splRaise_canon | apply State.canon_hub | apply State.canon_mem | apply MemSt.canon_cells | apply Hub.canon_regs | apply Hub.canon_shadow | apply Hub.canon_hostMem | apply Hub.canon_if | apply State.canon_if | apply MemSt.canon_if | (simp only [State.canon_mk, Hub.canon_mk, MemSt.canon_mk]) | apply And.intro | split)
theorem State.paneChunkIn_canon (s : State) (spl : Nat) (b : List Byte) (poison : Bool) (h0 : s.canon) : (State.paneChunkIn s spl b poison).canon := by
  unfold State.paneChunkIn
  repeat' (with_reducible first | assumption | (intro _) | apply MemSt.poison_canon | apply MemSt.store_canon | apply State.done_canon | apply State.jlSend_canon | apply State.refreshJudge_canon | apply State.splErr_canon | apply State.splRaise_canon | apply State.splRun_canon | apply State.canon_hub | apply State.canon_mem | apply MemSt.canon_cells | apply Hub.canon_regs | apply Hub.canon_shadow | apply Hub.canon_hostMem | apply regsWf_filter | apply regsWf_kvFilter | apply memWf_filter | apply Hub.canon_if | apply State.canon_if | apply MemSt.canon_if | apply Hub.canon_foldl | apply State.canon_foldl | apply MemSt.canon_foldl | apply State.canon_foldl_fst | (simp only [State.canon_mk, Hub.canon_mk, MemSt.canon_mk]) | apply And.intro | split)
theorem execPaneChunkReceive_canon (spl : Nat) (chunk : List Byte) (poison : Bool) (s : State) (h0 : s.canon) : ∃ t, execPaneChunkReceive spl chunk poison s = .next t ∧ t.canon := by
  refine ⟨_, rfl, ?_⟩
  repeat' (with_reducible first | assumption | (intro _) | apply AudMeter.next_canon | apply MemSt.poison_canon | apply State.paneChunkIn_canon | apply State.canon_hub | apply State.canon_mem | apply MemSt.canon_cells | apply Hub.canon_regs | apply Hub.canon_shadow | apply Hub.canon_hostMem | apply Hub.canon_if | apply State.canon_if | apply MemSt.canon_if | (simp only [State.canon_mk, Hub.canon_mk, MemSt.canon_mk]) | apply And.intro | split)
theorem execSpliceDeadline_canon (spl frame : Nat) (s : State) (h0 : s.canon) : ∃ t, execSpliceDeadline spl frame s = .next t ∧ t.canon := by
  refine ⟨_, rfl, ?_⟩
  repeat' (with_reducible first | assumption | (intro _) | apply AudMeter.next_canon | apply State.refreshJudge_canon | apply State.splRun_canon | apply State.canon_hub | apply State.canon_mem | apply MemSt.canon_cells | apply Hub.canon_regs | apply Hub.canon_shadow | apply Hub.canon_hostMem | apply regsWf_filter | apply regsWf_kvFilter | apply memWf_filter | apply Hub.canon_if | apply State.canon_if | apply MemSt.canon_if | apply Hub.canon_foldl | apply State.canon_foldl | apply MemSt.canon_foldl | apply State.canon_foldl_fst | (simp only [State.canon_mk, Hub.canon_mk, MemSt.canon_mk]) | apply And.intro | split)
theorem State.paneGone_canon (s : State) (spl id : Nat) (h0 : s.canon) : (State.paneGone s spl id).canon := by
  unfold State.paneGone
  repeat' (with_reducible first | assumption | (intro _) | apply Hub.raise_canon | apply State.canon_hub | apply State.canon_mem | apply MemSt.canon_cells | apply Hub.canon_regs | apply Hub.canon_shadow | apply Hub.canon_hostMem | apply Hub.canon_if | apply State.canon_if | apply MemSt.canon_if | (simp only [State.canon_mk, Hub.canon_mk, MemSt.canon_mk]) | apply And.intro | split)
theorem State.panesGone_canon (s : State) (sash : Nat) (rend : Option Nat) (keep : Nat → Nat → Bool) (h0 : s.canon) : (State.panesGone s sash rend keep).canon := by
  unfold State.panesGone
  repeat' (with_reducible first | assumption | (intro _) | apply State.paneGone_canon | apply State.canon_hub | apply State.canon_mem | apply MemSt.canon_cells | apply Hub.canon_regs | apply Hub.canon_shadow | apply Hub.canon_hostMem | apply regsWf_filter | apply regsWf_kvFilter | apply memWf_filter | apply Hub.canon_foldl | apply State.canon_foldl | apply MemSt.canon_foldl | apply State.canon_foldl_fst | (simp only [State.canon_mk, Hub.canon_mk, MemSt.canon_mk]) | apply And.intro | split)
theorem execSplPaneset_canon (e : CmdEnv) (body : List Byte) (s : State) (h0 : s.canon) : ∃ t, execSplPaneset e body s = .next t ∧ t.canon := by
  refine ⟨_, rfl, ?_⟩
  repeat' (with_reducible first | assumption | (intro _) | apply AudMeter.next_canon | apply State.done_canon | apply State.panesGone_canon | apply State.canon_hub | apply State.canon_mem | apply MemSt.canon_cells | apply Hub.canon_regs | apply Hub.canon_shadow | apply Hub.canon_hostMem | apply Hub.canon_if | apply State.canon_if | apply MemSt.canon_if | apply Hub.canon_foldl | apply State.canon_foldl | apply MemSt.canon_foldl | apply State.canon_foldl_fst | (simp only [State.canon_mk, Hub.canon_mk, MemSt.canon_mk]) | apply And.intro | split)
theorem execSplImport_canon (e : CmdEnv) (body : List Byte) (s : State) (h0 : s.canon) : ∃ t, execSplImport e body s = .next t ∧ t.canon := by
  refine ⟨_, rfl, ?_⟩
  repeat' (with_reducible first | assumption | (intro _) | apply AudMeter.next_canon | apply State.done_canon | apply State.jlSvc_canon | apply State.canon_hub | apply State.canon_mem | apply MemSt.canon_cells | apply Hub.canon_regs | apply Hub.canon_shadow | apply Hub.canon_hostMem | apply Hub.canon_if | apply State.canon_if | apply MemSt.canon_if | (simp only [State.canon_mk, Hub.canon_mk, MemSt.canon_mk]) | apply And.intro | split)
theorem State.recvRefuse_canon (s : State) (e : CmdEnv) (op st : Nat) (h0 : s.canon) : (State.recvRefuse s e op st).canon := by
  unfold State.recvRefuse
  repeat' (with_reducible first | assumption | (intro _) | apply Hub.freeTick_canon | apply State.done_canon | apply State.canon_hub | apply State.canon_mem | apply MemSt.canon_cells | apply Hub.canon_regs | apply Hub.canon_shadow | apply Hub.canon_hostMem | apply Hub.canon_if | apply State.canon_if | apply MemSt.canon_if | (simp only [State.canon_mk, Hub.canon_mk, MemSt.canon_mk]) | apply And.intro | split)
theorem State.recvAdd_canon (s : State) (b : List Byte) (at_ : Nat) (h0 : s.canon) : (State.recvAdd s b at_).canon := by
  unfold State.recvAdd
  repeat' (with_reducible first | assumption | (intro _) | apply Hub.set1_canon | apply State.setRecv_canon | apply State.canon_hub | apply State.canon_mem | apply MemSt.canon_cells | apply Hub.canon_regs | apply Hub.canon_shadow | apply Hub.canon_hostMem | apply Hub.canon_if | apply State.canon_if | apply MemSt.canon_if | (simp only [State.canon_mk, Hub.canon_mk, MemSt.canon_mk]) | apply And.intro | split)
theorem State.recvQueue_canon (s : State) (b : List Byte) (c : RecvChange) (h0 : s.canon) : (State.recvQueue s b c).canon := by
  unfold State.recvQueue
  repeat' (with_reducible first | assumption | (intro _) | apply State.setRecv_canon | apply State.canon_hub | apply State.canon_mem | apply MemSt.canon_cells | apply Hub.canon_regs | apply Hub.canon_shadow | apply Hub.canon_hostMem | (simp only [State.canon_mk, Hub.canon_mk, MemSt.canon_mk]) | apply And.intro | split)
theorem execSplRecvAdd_canon (e : CmdEnv) (body : List Byte) (s : State) (h0 : s.canon) : ∃ t, execSplRecvAdd e body s = .next t ∧ t.canon := by
  refine ⟨_, rfl, ?_⟩
  repeat' (with_reducible first | assumption | (intro _) | apply AudMeter.next_canon | apply State.done_canon | apply State.hold_canon | apply State.recvAdd_canon | apply State.recvRefuse_canon | apply State.canon_hub | apply State.canon_mem | apply MemSt.canon_cells | apply Hub.canon_regs | apply Hub.canon_shadow | apply Hub.canon_hostMem | apply Hub.canon_if | apply State.canon_if | apply MemSt.canon_if | (simp only [State.canon_mk, Hub.canon_mk, MemSt.canon_mk]) | apply And.intro | split)
theorem execSplRecvSet_canon (e : CmdEnv) (body : List Byte) (s : State) (h0 : s.canon) : ∃ t, execSplRecvSet e body s = .next t ∧ t.canon := by
  refine ⟨_, rfl, ?_⟩
  repeat' (with_reducible first | assumption | (intro _) | apply AudMeter.next_canon | apply State.done_canon | apply State.hold_canon | apply State.recvQueue_canon | apply State.recvRefuse_canon | apply State.canon_hub | apply State.canon_mem | apply MemSt.canon_cells | apply Hub.canon_regs | apply Hub.canon_shadow | apply Hub.canon_hostMem | apply Hub.canon_if | apply State.canon_if | apply MemSt.canon_if | (simp only [State.canon_mk, Hub.canon_mk, MemSt.canon_mk]) | apply And.intro | split)
theorem execSplRecvDel_canon (e : CmdEnv) (body : List Byte) (s : State) (h0 : s.canon) : ∃ t, execSplRecvDel e body s = .next t ∧ t.canon := by
  refine ⟨_, rfl, ?_⟩
  repeat' (with_reducible first | assumption | (intro _) | apply AudMeter.next_canon | apply Hub.set_canon | apply State.done_canon | apply State.hold_canon | apply State.recvQueue_canon | apply State.canon_hub | apply State.canon_mem | apply MemSt.canon_cells | apply Hub.canon_regs | apply Hub.canon_shadow | apply Hub.canon_hostMem | apply Hub.canon_if | apply State.canon_if | apply MemSt.canon_if | (simp only [State.canon_mk, Hub.canon_mk, MemSt.canon_mk]) | apply And.intro | split)
theorem State.splChange_canon (s : State) (i : Instr) (h0 : s.canon) : (State.splChange s i).canon := by
  unfold State.splChange
  repeat' (with_reducible first | assumption | (intro _) | apply Hub.raise_canon | apply Hub.set_canon | apply State.recvAdd_canon | apply State.recvQueue_canon | apply State.canon_hub | apply State.canon_mem | apply MemSt.canon_cells | apply Hub.canon_regs | apply Hub.canon_shadow | apply Hub.canon_hostMem | apply Hub.canon_if | apply State.canon_if | apply MemSt.canon_if | (simp only [State.canon_mk, Hub.canon_mk, MemSt.canon_mk]) | apply And.intro | split)
theorem execSplRefresh_canon (e : CmdEnv) (body : List Byte) (s : State) (h0 : s.canon) : ∃ t, execSplRefresh e body s = .next t ∧ t.canon := by
  refine ⟨_, rfl, ?_⟩
  repeat' (with_reducible first | assumption | (intro _) | apply AudMeter.next_canon | apply State.done_canon | apply State.paneNeed_canon | apply State.canon_hub | apply State.canon_mem | apply MemSt.canon_cells | apply Hub.canon_regs | apply Hub.canon_shadow | apply Hub.canon_hostMem | apply Hub.canon_if | apply State.canon_if | apply MemSt.canon_if | (simp only [State.canon_mk, Hub.canon_mk, MemSt.canon_mk]) | apply And.intro | split)
theorem execSplStats_canon (e : CmdEnv) (body : List Byte) (s : State) (h0 : s.canon) : ∃ t, execSplStats e body s = .next t ∧ t.canon := by
  refine ⟨_, rfl, ?_⟩
  repeat' (with_reducible first | assumption | (intro _) | apply AudMeter.next_canon | apply State.done_canon | apply State.canon_hub | apply State.canon_mem | apply MemSt.canon_cells | apply Hub.canon_regs | apply Hub.canon_shadow | apply Hub.canon_hostMem | apply Hub.canon_if | apply State.canon_if | apply MemSt.canon_if | (simp only [State.canon_mk, Hub.canon_mk, MemSt.canon_mk]) | apply And.intro | split)
theorem State.splAsked_canon (s : State) (out : Nat) (h0 : s.canon) : (State.splAsked s out).canon := by
  unfold State.splAsked
  repeat' (with_reducible first | assumption | (intro _) | apply State.paneNeed_canon | apply State.canon_hub | apply State.canon_mem | apply MemSt.canon_cells | apply Hub.canon_regs | apply Hub.canon_shadow | apply Hub.canon_hostMem | apply regsWf_filter | apply regsWf_kvFilter | apply memWf_filter | apply Hub.canon_if | apply State.canon_if | apply MemSt.canon_if | apply Hub.canon_foldl | apply State.canon_foldl | apply MemSt.canon_foldl | apply State.canon_foldl_fst | (simp only [State.canon_mk, Hub.canon_mk, MemSt.canon_mk]) | apply And.intro | split)
theorem State.splSetup_canon (s : State) (u : Nat) (h0 : s.canon) : (State.splSetup s u).canon := by
  unfold State.splSetup
  repeat' (with_reducible first | assumption | (intro _) | apply Hub.raise_canon | apply Hub.set1_canon | apply State.canon_hub | apply State.canon_mem | apply MemSt.canon_cells | apply Hub.canon_regs | apply Hub.canon_shadow | apply Hub.canon_hostMem | apply Hub.canon_if | apply State.canon_if | apply MemSt.canon_if | (simp only [State.canon_mk, Hub.canon_mk, MemSt.canon_mk]) | apply And.intro | split)
theorem State.setCore_canon (s : State) (n : Nat) (c : HngCore) (h0 : s.canon) : (State.setCore s n c).canon := by
  unfold State.setCore
  repeat' (with_reducible first | assumption | (intro _) | apply State.canon_hub | apply State.canon_mem | apply MemSt.canon_cells | apply Hub.canon_regs | apply Hub.canon_shadow | apply Hub.canon_hostMem | (simp only [State.canon_mk, Hub.canon_mk, MemSt.canon_mk]) | apply And.intro | split)
theorem State.hngEnter_canon (s : State) (n st : Nat) (h0 : s.canon) : (State.hngEnter s n st).canon := by
  unfold State.hngEnter
  repeat' (with_reducible first | assumption | (intro _) | apply Hub.set1_canon | apply State.setCore_canon | apply State.canon_hub | apply State.canon_mem | apply MemSt.canon_cells | apply Hub.canon_regs | apply Hub.canon_shadow | apply Hub.canon_hostMem | apply Hub.canon_if | apply State.canon_if | apply MemSt.canon_if | (simp only [State.canon_mk, Hub.canon_mk, MemSt.canon_mk]) | apply And.intro | split)
theorem State.hngStop_canon (s : State) (n st : Nat) (h0 : s.canon) : (State.hngStop s n st).canon := by
  unfold State.hngStop
  repeat' (with_reducible first | assumption | (intro _) | apply State.dwellCheck_canon | apply State.hngEnter_canon | apply State.canon_hub | apply State.canon_mem | apply MemSt.canon_cells | apply Hub.canon_regs | apply Hub.canon_shadow | apply Hub.canon_hostMem | (simp only [State.canon_mk, Hub.canon_mk, MemSt.canon_mk]) | apply And.intro | split)
theorem State.hngFault_canon (s : State) (n cause : Nat) (h0 : s.canon) : (State.hngFault s n cause).canon := by
  unfold State.hngFault
  repeat' (with_reducible first | assumption | (intro _) | apply Hub.err_canon | apply Hub.raise_canon | apply Hub.set1_canon | apply MemSt.err_canon | apply State.hngStop_canon | apply State.canon_hub | apply State.canon_mem | apply MemSt.canon_cells | apply Hub.canon_regs | apply Hub.canon_shadow | apply Hub.canon_hostMem | (simp only [State.canon_mk, Hub.canon_mk, MemSt.canon_mk]) | apply And.intro | split)
theorem State.mbDrop_canon (s : State) (n : Nat) (h0 : s.canon) : (State.mbDrop s n).canon := by
  unfold State.mbDrop
  repeat' (with_reducible first | assumption | (intro _) | apply Hub.err_canon | apply Hub.raiseRl_canon | apply MemSt.err_canon | apply State.canon_hub | apply State.canon_mem | apply MemSt.canon_cells | apply Hub.canon_regs | apply Hub.canon_shadow | apply Hub.canon_hostMem | (simp only [State.canon_mk, Hub.canon_mk, MemSt.canon_mk]) | apply And.intro | split)
theorem State.hngStart_canon (s : State) (n : Nat) (h0 : s.canon) : (State.hngStart s n).canon := by
  unfold State.hngStart
  repeat' (with_reducible first | assumption | (intro _) | apply State.hngEnter_canon | apply State.setCore_canon | apply State.canon_hub | apply State.canon_mem | apply MemSt.canon_cells | apply Hub.canon_regs | apply Hub.canon_shadow | apply Hub.canon_hostMem | apply Hub.canon_if | apply State.canon_if | apply MemSt.canon_if | (simp only [State.canon_mk, Hub.canon_mk, MemSt.canon_mk]) | apply And.intro | split)
theorem State.hngSashRuns_canon (s : State) (sash : Nat) (h0 : s.canon) : (State.hngSashRuns s sash).canon := by
  unfold State.hngSashRuns
  repeat' (with_reducible first | assumption | (intro _) | apply State.hngStart_canon | apply State.canon_hub | apply State.canon_mem | apply MemSt.canon_cells | apply Hub.canon_regs | apply Hub.canon_shadow | apply Hub.canon_hostMem | apply regsWf_filter | apply regsWf_kvFilter | apply memWf_filter | apply Hub.canon_foldl | apply State.canon_foldl | apply MemSt.canon_foldl | apply State.canon_foldl_fst | (simp only [State.canon_mk, Hub.canon_mk, MemSt.canon_mk]) | apply And.intro | split)
theorem State.mbReset_canon (s : State) (n : Nat) (one : Bool) (h0 : s.canon) : (State.mbReset s n one).canon := by
  unfold State.mbReset
  repeat' (with_reducible first | assumption | (intro _) | apply State.setCore_canon | apply State.canon_hub | apply State.canon_mem | apply MemSt.canon_cells | apply Hub.canon_regs | apply Hub.canon_shadow | apply Hub.canon_hostMem | apply Hub.canon_if | apply State.canon_if | apply MemSt.canon_if | apply Hub.canon_foldl | apply State.canon_foldl | apply MemSt.canon_foldl | apply State.canon_foldl_fst | (simp only [State.canon_mk, Hub.canon_mk, MemSt.canon_mk]) | apply And.intro | split)
theorem State.hngWake_canon (s : State) (n : Nat) (w : HngWait → Bool) (h0 : s.canon) : (State.hngWake s n w).canon := by
  unfold State.hngWake
  repeat' (with_reducible first | assumption | (intro _) | apply State.hngEnter_canon | apply State.setCore_canon | apply State.canon_hub | apply State.canon_mem | apply MemSt.canon_cells | apply Hub.canon_regs | apply Hub.canon_shadow | apply Hub.canon_hostMem | apply Hub.canon_if | apply State.canon_if | apply MemSt.canon_if | (simp only [State.canon_mk, Hub.canon_mk, MemSt.canon_mk]) | apply And.intro | split)
theorem execMailboxDelivery_canon (core : Nat) (s : State) (h0 : s.canon) : ∃ t, execMailboxDelivery core s = .next t ∧ t.canon := by
  refine ⟨_, rfl, ?_⟩
  repeat' (with_reducible first | assumption | (intro _) | apply AudMeter.next_canon | apply MemSt.store_canon | apply State.hngWake_canon | apply State.mbDrop_canon | apply State.setCore_canon | apply State.canon_hub | apply State.canon_mem | apply MemSt.canon_cells | apply Hub.canon_regs | apply Hub.canon_shadow | apply Hub.canon_hostMem | apply Hub.canon_if | apply State.canon_if | apply MemSt.canon_if | (simp only [State.canon_mk, Hub.canon_mk, MemSt.canon_mk]) | apply And.intro | split)
theorem State.mbDrain_canon (s : State) (n : Nat) (slot at_ : Nat) (h0 : s.canon) : (State.mbDrain s n slot at_).canon := by
  unfold State.mbDrain
  repeat' (with_reducible first | assumption | (intro _) | apply Hub.emit_canon | apply MemSt.poison_canon | apply State.mbDrop_canon | apply State.canon_hub | apply State.canon_mem | apply MemSt.canon_cells | apply Hub.canon_regs | apply Hub.canon_shadow | apply Hub.canon_hostMem | apply Hub.canon_if | apply State.canon_if | apply MemSt.canon_if | (simp only [State.canon_mk, Hub.canon_mk, MemSt.canon_mk]) | apply And.intro | split)
theorem execMailboxDrain_canon (core : Nat) (s : State) (h0 : s.canon) : ∃ t, execMailboxDrain core s = .next t ∧ t.canon := by
  refine ⟨_, rfl, ?_⟩
  repeat' (with_reducible first | assumption | (intro _) | apply AudMeter.next_canon | apply State.hngWake_canon | apply State.mbDrain_canon | apply State.setCore_canon | apply State.canon_hub | apply State.canon_mem | apply MemSt.canon_cells | apply Hub.canon_regs | apply Hub.canon_shadow | apply Hub.canon_hostMem | (simp only [State.canon_mk, Hub.canon_mk, MemSt.canon_mk]) | apply And.intro | split)
theorem State.shadowPut_canon (s : State) (fn off : Nat) (mask val : Word) (h0 : s.canon) : (State.shadowPut s fn off mask val).canon := by
  unfold State.shadowPut
  repeat' (with_reducible first | assumption | (intro _) | apply Hub.wrShadow_canon | apply MemSt.write_canon | apply State.canon_hub | apply State.canon_mem | apply MemSt.canon_cells | apply Hub.canon_regs | apply Hub.canon_shadow | apply Hub.canon_hostMem | apply Hub.canon_if | apply State.canon_if | apply MemSt.canon_if | (simp only [State.canon_mk, Hub.canon_mk, MemSt.canon_mk]) | apply And.intro | split)
theorem State.shadowClear_canon (s : State) (num off : Nat) (bit : Word) (h0 : s.canon) : (State.shadowClear s num off bit).canon := by
  unfold State.shadowClear
  repeat' (with_reducible first | assumption | (intro _) | apply Hub.wrShadow_canon | apply State.canon_hub | apply State.canon_mem | apply MemSt.canon_cells | apply Hub.canon_regs | apply Hub.canon_shadow | apply Hub.canon_hostMem | apply Hub.canon_if | apply State.canon_if | apply MemSt.canon_if | (simp only [State.canon_mk, Hub.canon_mk, MemSt.canon_mk]) | apply And.intro | split)
theorem State.latchStatus_canon (s : State) (h0 : s.canon) : (State.latchStatus s).canon := by
  unfold State.latchStatus
  repeat' (with_reducible first | assumption | (intro _) | apply Hub.set_canon | apply State.canon_hub | apply State.canon_mem | apply MemSt.canon_cells | apply Hub.canon_regs | apply Hub.canon_shadow | apply Hub.canon_hostMem | apply Hub.canon_if | apply State.canon_if | apply MemSt.canon_if | (simp only [State.canon_mk, Hub.canon_mk, MemSt.canon_mk]) | apply And.intro | split)
theorem State.latchAccept_canon (s : State) (l : Latch) (h0 : s.canon) : (State.latchAccept s l).canon := by
  unfold State.latchAccept
  repeat' (with_reducible first | assumption | (intro _) | apply Hub.set64_canon | apply State.latchStatus_canon | apply State.canon_hub | apply State.canon_mem | apply MemSt.canon_cells | apply Hub.canon_regs | apply Hub.canon_shadow | apply Hub.canon_hostMem | (simp only [State.canon_mk, Hub.canon_mk, MemSt.canon_mk]) | apply And.intro | split)
theorem State.latchRefuse_canon (s : State) (h0 : s.canon) : (State.latchRefuse s).canon := by
  unfold State.latchRefuse
  repeat' (with_reducible first | assumption | (intro _) | apply Hub.raise_canon | apply State.canon_hub | apply State.canon_mem | apply MemSt.canon_cells | apply Hub.canon_regs | apply Hub.canon_shadow | apply Hub.canon_hostMem | (simp only [State.canon_mk, Hub.canon_mk, MemSt.canon_mk]) | apply And.intro | split)
theorem State.latchLate_canon (s : State) (num reason : Nat) (h0 : s.canon) : (State.latchLate s num reason).canon := by
  unfold State.latchLate
  repeat' (with_reducible first | assumption | (intro _) | apply Hub.raise_canon | apply State.canon_hub | apply State.canon_mem | apply MemSt.canon_cells | apply Hub.canon_regs | apply Hub.canon_shadow | apply Hub.canon_hostMem | (simp only [State.canon_mk, Hub.canon_mk, MemSt.canon_mk]) | apply And.intro | split)
theorem Hub.latchLast_canon (h : Hub) (num period result missing : Nat) (h0 : h.canon) : (Hub.latchLast h num period result missing).canon := by
  unfold Hub.latchLast
  repeat' (with_reducible first | assumption | (intro _) | apply Hub.set_canon | apply Hub.set64_canon | apply State.canon_hub | apply State.canon_mem | apply MemSt.canon_cells | apply Hub.canon_regs | apply Hub.canon_shadow | apply Hub.canon_hostMem | (simp only [State.canon_mk, Hub.canon_mk, MemSt.canon_mk]) | apply And.intro | split)
theorem State.latchDecide_canon (s : State) (num : Nat) (h0 : s.canon) : (State.latchDecide s num).canon := by
  unfold State.latchDecide
  repeat' (with_reducible first | assumption | (intro _) | apply Hub.latchLast_canon | apply Hub.raise_canon | apply State.latchStatus_canon | apply State.canon_hub | apply State.canon_mem | apply MemSt.canon_cells | apply Hub.canon_regs | apply Hub.canon_shadow | apply Hub.canon_hostMem | apply regsWf_filter | apply regsWf_kvFilter | apply memWf_filter | apply Hub.canon_if | apply State.canon_if | apply MemSt.canon_if | (simp only [State.canon_mk, Hub.canon_mk, MemSt.canon_mk]) | apply And.intro | split)
theorem State.dataOut_canon (s : State) (p : PartRec) (c : HngCore) (loc off : Nat) (x0 : Nat) (h0 : s.canon) : (State.dataOut s p c loc off x0).canon := by
  induction x0 generalizing s p c loc off with
  | zero =>
    unfold State.dataOut; try dsimp only
    repeat' (with_reducible first | assumption | (intro _) | apply State.partPoison_canon | apply State.partWrite_canon | apply State.canon_hub | apply State.canon_mem | apply MemSt.canon_cells | apply Hub.canon_regs | apply Hub.canon_shadow | apply Hub.canon_hostMem | apply Hub.canon_if | apply State.canon_if | apply MemSt.canon_if | (simp only [State.canon_mk, Hub.canon_mk, MemSt.canon_mk]) | apply And.intro | split)
  | succ n ih =>
    unfold State.dataOut; try dsimp only
    repeat' (with_reducible first | assumption | (intro _) | apply ih | apply State.partPoison_canon | apply State.partWrite_canon | apply State.canon_hub | apply State.canon_mem | apply MemSt.canon_cells | apply Hub.canon_regs | apply Hub.canon_shadow | apply Hub.canon_hostMem | apply Hub.canon_if | apply State.canon_if | apply MemSt.canon_if | (simp only [State.canon_mk, Hub.canon_mk, MemSt.canon_mk]) | apply And.intro | split)
theorem State.dmaErr_canon (s : State) (n st : Nat) (h0 : s.canon) : (State.dmaErr s n st).canon := by
  unfold State.dmaErr
  repeat' (with_reducible first | assumption | (intro _) | apply Hub.err_canon | apply Hub.raiseRl_canon | apply MemSt.err_canon | apply State.canon_hub | apply State.canon_mem | apply MemSt.canon_cells | apply Hub.canon_regs | apply Hub.canon_shadow | apply Hub.canon_hostMem | apply Hub.canon_if | apply State.canon_if | apply MemSt.canon_if | (simp only [State.canon_mk, Hub.canon_mk, MemSt.canon_mk]) | apply And.intro | split)
theorem State.dmaMove_canon (s : State) (n : Nat) (d : HngDma) (h0 : s.canon) : (State.dmaMove s n d).1.canon := by
  unfold State.dmaMove
  repeat' (with_reducible first | assumption | (intro _) | apply State.dataOut_canon | apply State.dmaErr_canon | apply State.setCore_canon | apply State.canon_hub | apply State.canon_mem | apply MemSt.canon_cells | apply Hub.canon_regs | apply Hub.canon_shadow | apply Hub.canon_hostMem | apply Hub.canon_if | apply State.canon_if | apply MemSt.canon_if | (simp only [State.canon_mk, Hub.canon_mk, MemSt.canon_mk]) | apply And.intro | split)
theorem execDmaTransferDone_canon (core channel : Nat) (s : State) (h0 : s.canon) : ∃ t, execDmaTransferDone core channel s = .next t ∧ t.canon := by
  refine ⟨_, rfl, ?_⟩
  repeat' (with_reducible first | assumption | (intro _) | apply AudMeter.next_canon | apply MemSt.store_canon | apply State.dmaMove_canon | apply State.hngWake_canon | apply State.setCore_canon | apply State.canon_hub | apply State.canon_mem | apply MemSt.canon_cells | apply Hub.canon_regs | apply Hub.canon_shadow | apply Hub.canon_hostMem | apply Hub.canon_if | apply State.canon_if | apply MemSt.canon_if | (simp only [State.canon_mk, Hub.canon_mk, MemSt.canon_mk]) | apply And.intro | split)
theorem State.hngDone_canon (s : State) (n stall : Nat) (c : HngCore) (halted : Bool) (h0 : s.canon) : (State.hngDone s n stall c halted).canon := by
  unfold State.hngDone
  repeat' (with_reducible first | assumption | (intro _) | apply Hub.stat_canon | apply State.hngEnter_canon | apply State.hngStop_canon | apply State.setCore_canon | apply State.canon_hub | apply State.canon_mem | apply MemSt.canon_cells | apply Hub.canon_regs | apply Hub.canon_shadow | apply Hub.canon_hostMem | apply Hub.canon_if | apply State.canon_if | apply MemSt.canon_if | (simp only [State.canon_mk, Hub.canon_mk, MemSt.canon_mk]) | apply And.intro | split)
theorem State.hngBundle_canon (s : State) (n sash : Nat) (h0 : s.canon) : (State.hngBundle s n sash).canon := by
  unfold State.hngBundle
  repeat' (with_reducible first | assumption | (intro _) | apply Hub.freeTick_canon | apply Hub.stat_canon | apply State.hngDone_canon | apply State.hngEnter_canon | apply State.hngFault_canon | apply State.setCore_canon | apply State.canon_hub | apply State.canon_mem | apply MemSt.canon_cells | apply Hub.canon_regs | apply Hub.canon_shadow | apply Hub.canon_hostMem | apply regsWf_filter | apply regsWf_kvFilter | apply memWf_filter | apply Hub.canon_if | apply State.canon_if | apply MemSt.canon_if | apply Hub.canon_foldl | apply State.canon_foldl | apply MemSt.canon_foldl | apply State.canon_foldl_fst | (simp only [State.canon_mk, Hub.canon_mk, MemSt.canon_mk]) | apply And.intro | split)
theorem State.hngExecute_canon (s : State) (core sash : Nat) (h0 : s.canon) : (State.hngExecute s core sash).canon := by
  unfold State.hngExecute
  repeat' (with_reducible first | assumption | (intro _) | apply State.hngBundle_canon | apply State.hngEnter_canon | apply State.canon_hub | apply State.canon_mem | apply MemSt.canon_cells | apply Hub.canon_regs | apply Hub.canon_shadow | apply Hub.canon_hostMem | apply Hub.canon_if | apply State.canon_if | apply MemSt.canon_if | (simp only [State.canon_mk, Hub.canon_mk, MemSt.canon_mk]) | apply And.intro | split)
theorem State.hngImage_canon (s : State) (n : Nat) (l : List HngRec) (h0 : s.canon) : (State.hngImage s n l).canon := by
  unfold State.hngImage
  repeat' (with_reducible first | assumption | (intro _) | apply State.hngStart_canon | apply State.setCore_canon | apply State.canon_hub | apply State.canon_mem | apply MemSt.canon_cells | apply Hub.canon_regs | apply Hub.canon_shadow | apply Hub.canon_hostMem | apply Hub.canon_if | apply State.canon_if | apply MemSt.canon_if | apply Hub.canon_foldl | apply State.canon_foldl | apply MemSt.canon_foldl | apply State.canon_foldl_fst | (simp only [State.canon_mk, Hub.canon_mk, MemSt.canon_mk]) | apply And.intro | split)
theorem State.hngCopy_canon (s : State) (n : Nat) (data : Bool) (part off loc len : Nat) (h0 : s.canon) : (State.hngCopy s n data part off loc len).1.canon := by
  unfold State.hngCopy
  repeat' (with_reducible first | assumption | (intro _) | apply State.dmaErr_canon | apply State.setCore_canon | apply State.canon_hub | apply State.canon_mem | apply MemSt.canon_cells | apply Hub.canon_regs | apply Hub.canon_shadow | apply Hub.canon_hostMem | apply Hub.canon_if | apply State.canon_if | apply MemSt.canon_if | (simp only [State.canon_mk, Hub.canon_mk, MemSt.canon_mk]) | apply And.intro | split)
theorem State.hngMoved_canon (s : State) (n : Nat) (l : List HngRec) (h0 : s.canon) : (State.hngMoved s n l).canon := by
  unfold State.hngMoved
  repeat' (with_reducible first | assumption | (intro _) | apply State.hngCopy_canon | apply State.hngStart_canon | apply State.setCore_canon | apply State.canon_hub | apply State.canon_mem | apply MemSt.canon_cells | apply Hub.canon_regs | apply Hub.canon_shadow | apply Hub.canon_hostMem | apply Hub.canon_foldl | apply State.canon_foldl | apply MemSt.canon_foldl | apply State.canon_foldl_fst | (simp only [State.canon_mk, Hub.canon_mk, MemSt.canon_mk]) | apply And.intro | split)
theorem State.hngWarm_canon (s : State) (l : List HngRec) (h0 : s.canon) : (State.hngWarm s l).canon := by
  unfold State.hngWarm
  repeat' (with_reducible first | assumption | (intro _) | apply Hub.set1_canon | apply State.hngEnter_canon | apply State.setCore_canon | apply State.canon_hub | apply State.canon_mem | apply MemSt.canon_cells | apply Hub.canon_regs | apply Hub.canon_shadow | apply Hub.canon_hostMem | apply Hub.canon_foldl | apply State.canon_foldl | apply MemSt.canon_foldl | apply State.canon_foldl_fst | (simp only [State.canon_mk, Hub.canon_mk, MemSt.canon_mk]) | apply And.intro | split)
theorem execHngLoad_canon (e : CmdEnv) (body : List Byte) (s : State) (h0 : s.canon) : ∃ t, execHngLoad e body s = .next t ∧ t.canon := by
  refine ⟨_, rfl, ?_⟩
  repeat' (with_reducible first | assumption | (intro _) | apply AudMeter.next_canon | apply Hub.set1_canon | apply State.done_canon | apply State.hngCopy_canon | apply State.hngStart_canon | apply State.setCore_canon | apply State.canon_hub | apply State.canon_mem | apply MemSt.canon_cells | apply Hub.canon_regs | apply Hub.canon_shadow | apply Hub.canon_hostMem | apply Hub.canon_if | apply State.canon_if | apply MemSt.canon_if | (simp only [State.canon_mk, Hub.canon_mk, MemSt.canon_mk]) | apply And.intro | split)
theorem execHngStart_canon (e : CmdEnv) (body : List Byte) (s : State) (h0 : s.canon) : ∃ t, execHngStart e body s = .next t ∧ t.canon := by
  refine ⟨_, rfl, ?_⟩
  repeat' (with_reducible first | assumption | (intro _) | apply AudMeter.next_canon | apply Hub.set1_canon | apply State.done_canon | apply State.hngStart_canon | apply State.canon_hub | apply State.canon_mem | apply MemSt.canon_cells | apply Hub.canon_regs | apply Hub.canon_shadow | apply Hub.canon_hostMem | (simp only [State.canon_mk, Hub.canon_mk, MemSt.canon_mk]) | apply And.intro | split)
theorem State.hngHalt_canon (s : State) (n : Nat) (h0 : s.canon) : (State.hngHalt s n).canon := by
  unfold State.hngHalt
  repeat' (with_reducible first | assumption | (intro _) | apply State.hngStop_canon | apply State.setCore_canon | apply State.canon_hub | apply State.canon_mem | apply MemSt.canon_cells | apply Hub.canon_regs | apply Hub.canon_shadow | apply Hub.canon_hostMem | apply Hub.canon_if | apply State.canon_if | apply MemSt.canon_if | (simp only [State.canon_mk, Hub.canon_mk, MemSt.canon_mk]) | apply And.intro | split)
theorem execHngStats_canon (e : CmdEnv) (body : List Byte) (s : State) (h0 : s.canon) : ∃ t, execHngStats e body s = .next t ∧ t.canon := by
  refine ⟨_, rfl, ?_⟩
  repeat' (with_reducible first | assumption | (intro _) | apply AudMeter.next_canon | apply State.done_canon | apply State.canon_hub | apply State.canon_mem | apply MemSt.canon_cells | apply Hub.canon_regs | apply Hub.canon_shadow | apply Hub.canon_hostMem | (simp only [State.canon_mk, Hub.canon_mk, MemSt.canon_mk]) | apply And.intro | split)
theorem State.spareTaken_canon (s : State) (ty inst badReads : Nat) (h0 : s.canon) : (State.spareTaken s ty inst badReads).canon := by
  unfold State.spareTaken
  repeat' (with_reducible first | assumption | (intro _) | apply State.bistBegin_canon | apply State.dwellsEnd_canon | apply State.hngMoved_canon | apply State.retireUnit_canon | apply State.canon_hub | apply State.canon_mem | apply MemSt.canon_cells | apply Hub.canon_regs | apply Hub.canon_shadow | apply Hub.canon_hostMem | apply regsWf_filter | apply regsWf_kvFilter | apply memWf_filter | apply Hub.canon_if | apply State.canon_if | apply MemSt.canon_if | apply Hub.canon_foldl | apply State.canon_foldl | apply MemSt.canon_foldl | apply State.canon_foldl_fst | (simp only [State.canon_mk, Hub.canon_mk, MemSt.canon_mk]) | apply And.intro | split)
theorem State.retireAt_canon (s : State) (us : List Nat) (h0 : s.canon) : (State.retireAt s us).canon := by
  unfold State.retireAt
  repeat' (with_reducible first | assumption | (intro _) | apply State.spareTaken_canon | apply State.canon_hub | apply State.canon_mem | apply MemSt.canon_cells | apply Hub.canon_regs | apply Hub.canon_shadow | apply Hub.canon_hostMem | apply regsWf_filter | apply regsWf_kvFilter | apply memWf_filter | apply Hub.canon_foldl | apply State.canon_foldl | apply MemSt.canon_foldl | apply State.canon_foldl_fst | (simp only [State.canon_mk, Hub.canon_mk, MemSt.canon_mk]) | apply And.intro | split)
theorem execSpareTaken_canon (ty inst badReads : Nat) (s : State) (h0 : s.canon) : ∃ t, execSpareTaken ty inst badReads s = .next t ∧ t.canon := by
  refine ⟨_, rfl, ?_⟩
  repeat' (with_reducible first | assumption | (intro _) | apply AudMeter.next_canon | apply State.spareTaken_canon | apply State.canon_hub | apply State.canon_mem | apply MemSt.canon_cells | apply Hub.canon_regs | apply Hub.canon_shadow | apply Hub.canon_hostMem | (simp only [State.canon_mk, Hub.canon_mk, MemSt.canon_mk]) | apply And.intro | split)

end Sys2Proof.Machine
end

