-- ==== Sys2Proof/Laws/CanonControl.lean ====
section
/-! SUPPORT. Each definition keeps registers and memories canonical: links, configuration, start, test and register commands. -/

namespace Sys2Proof.Machine

set_option linter.all false

theorem State.unitStatus_canon (s : State) (u : Nat) (h0 : s.canon) : (State.unitStatus s u).canon := by
  unfold State.unitStatus
  repeat' (with_reducible first | assumption | (intro _) | apply State.audcSetup_canon | apply State.cmpSetup_canon | apply State.decSetup_canon | apply State.encSetup_canon | apply State.splSetup_canon | apply State.canon_hub | apply State.canon_mem | apply MemSt.canon_cells | apply Hub.canon_regs | apply Hub.canon_shadow | apply Hub.canon_hostMem | (simp only [State.canon_mk, Hub.canon_mk, MemSt.canon_mk]) | apply And.intro | split)
theorem State.persSet_canon (s : State) (u : Nat) (r : Option PersRec) (h0 : s.canon) : (State.persSet s u r).canon := by
  unfold State.persSet
  repeat' (with_reducible first | assumption | (intro _) | apply State.tsoSetup_canon | apply State.unitStatus_canon | apply State.vinSetup_canon | apply State.canon_hub | apply State.canon_mem | apply MemSt.canon_cells | apply Hub.canon_regs | apply Hub.canon_shadow | apply Hub.canon_hostMem | apply regsWf_filter | apply regsWf_kvFilter | apply memWf_filter | apply Hub.canon_if | apply State.canon_if | apply MemSt.canon_if | (simp only [State.canon_mk, Hub.canon_mk, MemSt.canon_mk]) | apply And.intro | split)
theorem State.persChange_canon (s : State) (n : Nat) (pace : Option Nat) (u : Nat) (r : Option PersRec) (h0 : s.canon) : (State.persChange s n pace u r).canon := by
  unfold State.persChange
  repeat' (with_reducible first | assumption | (intro _) | apply State.persSet_canon | apply State.canon_hub | apply State.canon_mem | apply MemSt.canon_cells | apply Hub.canon_regs | apply Hub.canon_shadow | apply Hub.canon_hostMem | apply Hub.canon_if | apply State.canon_if | apply MemSt.canon_if | (simp only [State.canon_mk, Hub.canon_mk, MemSt.canon_mk]) | apply And.intro | split)
theorem State.portsPass_canon (s : State) (h0 : s.canon) : (State.portsPass s).canon := by
  unfold State.portsPass
  repeat' (with_reducible first | assumption | (intro _) | apply State.hngSashRuns_canon | apply State.unstall_canon | apply State.canon_hub | apply State.canon_mem | apply MemSt.canon_cells | apply Hub.canon_regs | apply Hub.canon_shadow | apply Hub.canon_hostMem | apply regsWf_filter | apply regsWf_kvFilter | apply memWf_filter | apply Hub.canon_foldl | apply State.canon_foldl | apply MemSt.canon_foldl | apply State.canon_foldl_fst | (simp only [State.canon_mk, Hub.canon_mk, MemSt.canon_mk]) | apply And.intro | split)
theorem State.hngRebuilt_canon (s : State) (n : Nat) (l : List HngRec) (h0 : s.canon) : (State.hngRebuilt s n l).canon := by
  unfold State.hngRebuilt
  repeat' (with_reducible first | assumption | (intro _) | apply State.hngImage_canon | apply State.hngStart_canon | apply State.canon_hub | apply State.canon_mem | apply MemSt.canon_cells | apply Hub.canon_regs | apply Hub.canon_shadow | apply Hub.canon_hostMem | apply regsWf_filter | apply regsWf_kvFilter | apply memWf_filter | apply Hub.canon_if | apply State.canon_if | apply MemSt.canon_if | apply Hub.canon_foldl | apply State.canon_foldl | apply MemSt.canon_foldl | apply State.canon_foldl_fst | (simp only [State.canon_mk, Hub.canon_mk, MemSt.canon_mk]) | apply And.intro | split)
theorem State.rebuild_canon (s0 : State) (n : Nat) (h0 : s0.canon) : (State.rebuild s0 n).canon := by
  unfold State.rebuild
  repeat' (with_reducible first | assumption | (intro _) | apply Hub.sashEnter_canon | apply Hub.set1_canon | apply State.hngRebuilt_canon | apply State.markSpares_canon | apply State.panesGone_canon | apply State.persChange_canon | apply State.portsPass_canon | apply State.retireAt_canon | apply State.startBuild_canon | apply State.unitStatus_canon | apply State.canon_hub | apply State.canon_mem | apply MemSt.canon_cells | apply Hub.canon_regs | apply Hub.canon_shadow | apply Hub.canon_hostMem | apply regsWf_filter | apply regsWf_kvFilter | apply memWf_filter | apply Hub.canon_if | apply State.canon_if | apply MemSt.canon_if | apply Hub.canon_foldl | apply State.canon_foldl | apply MemSt.canon_foldl | apply State.canon_foldl_fst | (simp only [State.canon_mk, Hub.canon_mk, MemSt.canon_mk]) | apply And.intro | split)
theorem State.drainTo_canon (s : State) (n : Nat) (p : PendDef) (h0 : s.canon) : (State.drainTo s n p).canon := by
  unfold State.drainTo
  repeat' (with_reducible first | assumption | (intro _) | apply Hub.sashEnter_canon | apply Hub.set1_canon | apply State.rebuild_canon | apply State.canon_hub | apply State.canon_mem | apply MemSt.canon_cells | apply Hub.canon_regs | apply Hub.canon_shadow | apply Hub.canon_hostMem | apply regsWf_filter | apply regsWf_kvFilter | apply memWf_filter | apply Hub.canon_if | apply State.canon_if | apply MemSt.canon_if | (simp only [State.canon_mk, Hub.canon_mk, MemSt.canon_mk]) | apply And.intro | split)
theorem execSashBuildDone_canon (sash : Nat) (s : State) (h0 : s.canon) : ∃ t, execSashBuildDone sash s = .next t ∧ t.canon := by
  refine ⟨_, rfl, ?_⟩
  repeat' (with_reducible first | assumption | (intro _) | apply AudMeter.next_canon | apply Hub.sashEnter_canon | apply State.drainTo_canon | apply State.hngSashRuns_canon | apply State.canon_hub | apply State.canon_mem | apply MemSt.canon_cells | apply Hub.canon_regs | apply Hub.canon_shadow | apply Hub.canon_hostMem | apply Hub.canon_if | apply State.canon_if | apply MemSt.canon_if | (simp only [State.canon_mk, Hub.canon_mk, MemSt.canon_mk]) | apply And.intro | split)
theorem State.rebuildInForce_canon (s : State) (n : Nat) (h0 : s.canon) : (State.rebuildInForce s n).canon := by
  unfold State.rebuildInForce
  repeat' (with_reducible first | assumption | (intro _) | apply State.drainTo_canon | apply State.canon_hub | apply State.canon_mem | apply MemSt.canon_cells | apply Hub.canon_regs | apply Hub.canon_shadow | apply Hub.canon_hostMem | (simp only [State.canon_mk, Hub.canon_mk, MemSt.canon_mk]) | apply And.intro | split)
theorem Hub.headerFlags_canon (h : Hub) (x : ImgHeader) (h0 : h.canon) : (Hub.headerFlags h x).canon := by
  unfold Hub.headerFlags
  repeat' (with_reducible first | assumption | (intro _) | apply Hub.raise_canon | apply Hub.set_canon | apply State.canon_hub | apply State.canon_mem | apply MemSt.canon_cells | apply Hub.canon_regs | apply Hub.canon_shadow | apply Hub.canon_hostMem | apply Hub.canon_if | apply State.canon_if | apply MemSt.canon_if | (simp only [State.canon_mk, Hub.canon_mk, MemSt.canon_mk]) | apply And.intro | split)
theorem Hub.noMagic_canon (h : Hub) (h0 : h.canon) : (Hub.noMagic h).canon := by
  unfold Hub.noMagic
  repeat' (with_reducible first | assumption | (intro _) | apply Hub.raise_canon | apply Hub.set_canon | apply State.canon_hub | apply State.canon_mem | apply MemSt.canon_cells | apply Hub.canon_regs | apply Hub.canon_shadow | apply Hub.canon_hostMem | (simp only [State.canon_mk, Hub.canon_mk, MemSt.canon_mk]) | apply And.intro | split)
theorem State.loadRead_canon (s : State) (c : Commit) (h0 : s.canon) : (State.loadRead s c).canon := by
  unfold State.loadRead
  repeat' (with_reducible first | assumption | (intro _) | apply Hub.headerFlags_canon | apply Hub.noMagic_canon | apply Hub.set_canon | apply State.rebuildInForce_canon | apply State.canon_hub | apply State.canon_mem | apply MemSt.canon_cells | apply Hub.canon_regs | apply Hub.canon_shadow | apply Hub.canon_hostMem | apply Hub.canon_if | apply State.canon_if | apply MemSt.canon_if | (simp only [State.canon_mk, Hub.canon_mk, MemSt.canon_mk]) | apply And.intro | split)
theorem State.loadStart_canon (s : State) (c : Commit) (h0 : s.canon) : (State.loadStart s c).canon := by
  unfold State.loadStart
  repeat' (with_reducible first | assumption | (intro _) | apply Hub.set_canon | apply State.loadRead_canon | apply State.canon_hub | apply State.canon_mem | apply MemSt.canon_cells | apply Hub.canon_regs | apply Hub.canon_shadow | apply Hub.canon_hostMem | apply Hub.canon_if | apply State.canon_if | apply MemSt.canon_if | (simp only [State.canon_mk, Hub.canon_mk, MemSt.canon_mk]) | apply And.intro | split)
theorem State.commitGo_canon (s : State) (c : Commit) (h0 : s.canon) : (State.commitGo s c).canon := by
  unfold State.commitGo
  repeat' (with_reducible first | assumption | (intro _) | apply Hub.set_canon | apply State.drainTo_canon | apply State.loadStart_canon | apply State.rebuildInForce_canon | apply State.canon_hub | apply State.canon_mem | apply MemSt.canon_cells | apply Hub.canon_regs | apply Hub.canon_shadow | apply Hub.canon_hostMem | apply Hub.canon_if | apply State.canon_if | apply MemSt.canon_if | (simp only [State.canon_mk, Hub.canon_mk, MemSt.canon_mk]) | apply And.intro | split)
theorem State.loadNext_canon (s : State) (h0 : s.canon) : (State.loadNext s).canon := by
  unfold State.loadNext
  repeat' (with_reducible first | assumption | (intro _) | apply Hub.set_canon | apply State.loadStart_canon | apply State.canon_hub | apply State.canon_mem | apply MemSt.canon_cells | apply Hub.canon_regs | apply Hub.canon_shadow | apply Hub.canon_hostMem | apply Hub.canon_if | apply State.canon_if | apply MemSt.canon_if | (simp only [State.canon_mk, Hub.canon_mk, MemSt.canon_mk]) | apply And.intro | split)
theorem State.loadEnd_canon (s : State) (h0 : s.canon) : (State.loadEnd s).canon := by
  unfold State.loadEnd
  repeat' (with_reducible first | assumption | (intro _) | apply Hub.set_canon | apply State.loadNext_canon | apply State.canon_hub | apply State.canon_mem | apply MemSt.canon_cells | apply Hub.canon_regs | apply Hub.canon_shadow | apply Hub.canon_hostMem | (simp only [State.canon_mk, Hub.canon_mk, MemSt.canon_mk]) | apply And.intro | split)
theorem State.loadFree_canon (s : State) (h0 : s.canon) : (State.loadFree s).canon := by
  unfold State.loadFree
  repeat' (with_reducible first | assumption | (intro _) | apply State.loadNext_canon | apply State.loadRead_canon | apply State.canon_hub | apply State.canon_mem | apply MemSt.canon_cells | apply Hub.canon_regs | apply Hub.canon_shadow | apply Hub.canon_hostMem | apply Hub.canon_if | apply State.canon_if | apply MemSt.canon_if | (simp only [State.canon_mk, Hub.canon_mk, MemSt.canon_mk]) | apply And.intro | split)
theorem Hub.resident_canon (h : Hub) (bank : Bool) (x : ImgHeader) (h0 : h.canon) : (Hub.resident h bank x).canon := by
  unfold Hub.resident
  repeat' (with_reducible first | assumption | (intro _) | apply Hub.set_canon | apply Hub.set1_canon | apply Hub.set64_canon | apply State.canon_hub | apply State.canon_mem | apply MemSt.canon_cells | apply Hub.canon_regs | apply Hub.canon_shadow | apply Hub.canon_hostMem | apply Hub.canon_if | apply State.canon_if | apply MemSt.canon_if | apply Hub.canon_foldl | apply State.canon_foldl | apply MemSt.canon_foldl | apply State.canon_foldl_fst | (simp only [State.canon_mk, Hub.canon_mk, MemSt.canon_mk]) | apply And.intro | split)
theorem State.loadLatch_canon (s : State) (bank : Bool) (raw : Image) (h0 : s.canon) : (State.loadLatch s bank raw).canon := by
  unfold State.loadLatch
  repeat' (with_reducible first | assumption | (intro _) | apply Hub.resident_canon | apply State.drainTo_canon | apply State.hngImage_canon | apply State.hold_canon | apply State.markSpares_canon | apply State.persSet_canon | apply State.portsPass_canon | apply State.startBuild_canon | apply State.svcLoad_canon | apply State.unitStatus_canon | apply State.canon_hub | apply State.canon_mem | apply MemSt.canon_cells | apply Hub.canon_regs | apply Hub.canon_shadow | apply Hub.canon_hostMem | apply regsWf_filter | apply regsWf_kvFilter | apply memWf_filter | apply Hub.canon_if | apply State.canon_if | apply MemSt.canon_if | apply Hub.canon_foldl | apply State.canon_foldl | apply MemSt.canon_foldl | apply State.canon_foldl_fst | (simp only [State.canon_mk, Hub.canon_mk, MemSt.canon_mk]) | apply And.intro | split)
theorem Hub.slatDrops_canon (h : Hub) (l : List Nat) (h0 : h.canon) : (Hub.slatDrops h l).canon := by
  unfold Hub.slatDrops
  repeat' (with_reducible first | assumption | (intro _) | apply Hub.raise_canon | apply Hub.set_canon | apply State.canon_hub | apply State.canon_mem | apply MemSt.canon_cells | apply Hub.canon_regs | apply Hub.canon_shadow | apply Hub.canon_hostMem | (simp only [State.canon_mk, Hub.canon_mk, MemSt.canon_mk]) | apply And.intro | split)
theorem State.shadowRecs_canon (s : State) (l : List ShadowRec) (h0 : s.canon) : (State.shadowRecs s l).canon := by
  unfold State.shadowRecs
  repeat' (with_reducible first | assumption | (intro _) | apply State.shadowPut_canon | apply State.canon_hub | apply State.canon_mem | apply MemSt.canon_cells | apply Hub.canon_regs | apply Hub.canon_shadow | apply Hub.canon_hostMem | apply Hub.canon_if | apply State.canon_if | apply MemSt.canon_if | apply Hub.canon_foldl | apply State.canon_foldl | apply MemSt.canon_foldl | apply State.canon_foldl_fst | (simp only [State.canon_mk, Hub.canon_mk, MemSt.canon_mk]) | apply And.intro | split)
theorem State.loadRequest_canon (s : State) (bank : Bool) (img : Image) (hcLeft : Nat) (h0 : s.canon) : (State.loadRequest s bank img hcLeft).canon := by
  unfold State.loadRequest
  repeat' (with_reducible first | assumption | (intro _) | apply State.latchAccept_canon | apply State.loadEnd_canon | apply State.canon_hub | apply State.canon_mem | apply MemSt.canon_cells | apply Hub.canon_regs | apply Hub.canon_shadow | apply Hub.canon_hostMem | apply Hub.canon_if | apply State.canon_if | apply MemSt.canon_if | (simp only [State.canon_mk, Hub.canon_mk, MemSt.canon_mk]) | apply And.intro | split)
theorem State.loadParsed_canon (s : State) (c : Commit) (hdr : ImgHeader) (hcLeft : Nat) (h0 : s.canon) : (State.loadParsed s c hdr hcLeft).canon := by
  unfold State.loadParsed
  repeat' (with_reducible first | assumption | (intro _) | apply Hub.raise_canon | apply Hub.slatDrops_canon | apply State.drainTo_canon | apply State.loadEnd_canon | apply State.loadRequest_canon | apply State.shadowRecs_canon | apply State.canon_hub | apply State.canon_mem | apply MemSt.canon_cells | apply Hub.canon_regs | apply Hub.canon_shadow | apply Hub.canon_hostMem | apply Hub.canon_if | apply State.canon_if | apply MemSt.canon_if | (simp only [State.canon_mk, Hub.canon_mk, MemSt.canon_mk]) | apply And.intro | split)
theorem execImgDone_canon (hcLeft : Nat) (s : State) (h0 : s.canon) : ∃ t, execImgDone hcLeft s = .next t ∧ t.canon := by
  refine ⟨_, rfl, ?_⟩
  repeat' (with_reducible first | assumption | (intro _) | apply AudMeter.next_canon | apply State.loadFree_canon | apply State.loadParsed_canon | apply State.canon_hub | apply State.canon_mem | apply MemSt.canon_cells | apply Hub.canon_regs | apply Hub.canon_shadow | apply Hub.canon_hostMem | apply Hub.canon_if | apply State.canon_if | apply MemSt.canon_if | (simp only [State.canon_mk, Hub.canon_mk, MemSt.canon_mk]) | apply And.intro | split)
theorem State.setHand_canon (s : State) (c : Nat) (h : Handover) (h0 : s.canon) : (State.setHand s c h).canon := by
  unfold State.setHand
  repeat' (with_reducible first | assumption | (intro _) | apply State.canon_hub | apply State.canon_mem | apply MemSt.canon_cells | apply Hub.canon_regs | apply Hub.canon_shadow | apply Hub.canon_hostMem | (simp only [State.canon_mk, Hub.canon_mk, MemSt.canon_mk]) | apply And.intro | split)
theorem State.dropHand_canon (s : State) (c : Nat) (h0 : s.canon) : (State.dropHand s c).canon := by
  unfold State.dropHand
  repeat' (with_reducible first | assumption | (intro _) | apply State.canon_hub | apply State.canon_mem | apply MemSt.canon_cells | apply Hub.canon_regs | apply Hub.canon_shadow | apply Hub.canon_hostMem | (simp only [State.canon_mk, Hub.canon_mk, MemSt.canon_mk]) | apply And.intro | split)
theorem execHandover_canon (e : CmdEnv) (body : List Byte) (s : State) (h0 : s.canon) : ∃ t, execHandover e body s = .next t ∧ t.canon := by
  refine ⟨_, rfl, ?_⟩
  repeat' (with_reducible first | assumption | (intro _) | apply AudMeter.next_canon | apply State.done_canon | apply State.jlSvc_canon | apply State.setHand_canon | apply State.canon_hub | apply State.canon_mem | apply MemSt.canon_cells | apply Hub.canon_regs | apply Hub.canon_shadow | apply Hub.canon_hostMem | apply Hub.canon_if | apply State.canon_if | apply MemSt.canon_if | (simp only [State.canon_mk, Hub.canon_mk, MemSt.canon_mk]) | apply And.intro | split)
theorem State.handCopied_canon (s : State) (c status : Nat) (h0 : s.canon) : (State.handCopied s c status).canon := by
  unfold State.handCopied
  repeat' (with_reducible first | assumption | (intro _) | apply MemSt.copied_canon | apply State.done_canon | apply State.dropHand_canon | apply State.setHand_canon | apply State.canon_hub | apply State.canon_mem | apply MemSt.canon_cells | apply Hub.canon_regs | apply Hub.canon_shadow | apply Hub.canon_hostMem | apply Hub.canon_if | apply State.canon_if | apply MemSt.canon_if | (simp only [State.canon_mk, Hub.canon_mk, MemSt.canon_mk]) | apply And.intro | split)
theorem State.handOut_canon (s : State) (dev i : Nat) (h0 : s.canon) : (State.handOut s dev i).canon := by
  unfold State.handOut
  repeat' (with_reducible first | assumption | (intro _) | apply State.jlSvc_canon | apply State.canon_hub | apply State.canon_mem | apply MemSt.canon_cells | apply Hub.canon_regs | apply Hub.canon_shadow | apply Hub.canon_hostMem | apply regsWf_filter | apply regsWf_kvFilter | apply memWf_filter | (simp only [State.canon_mk, Hub.canon_mk, MemSt.canon_mk]) | apply And.intro | split)
theorem State.handLost_canon (s : State) (c : Nat) (h : Handover) (h0 : s.canon) : (State.handLost s c h).canon := by
  unfold State.handLost
  repeat' (with_reducible first | assumption | (intro _) | apply State.done_canon | apply State.dropHand_canon | apply State.canon_hub | apply State.canon_mem | apply MemSt.canon_cells | apply Hub.canon_regs | apply Hub.canon_shadow | apply Hub.canon_hostMem | (simp only [State.canon_mk, Hub.canon_mk, MemSt.canon_mk]) | apply And.intro | split)
theorem execHandoverSwitch_canon (conf : Nat) (s : State) (h0 : s.canon) : ∃ t, execHandoverSwitch conf s = .next t ∧ t.canon := by
  refine ⟨_, rfl, ?_⟩
  repeat' (with_reducible first | assumption | (intro _) | apply AudMeter.next_canon | apply MemSt.copied_canon | apply State.handLost_canon | apply State.handOut_canon | apply State.setHand_canon | apply State.canon_hub | apply State.canon_mem | apply MemSt.canon_cells | apply Hub.canon_regs | apply Hub.canon_shadow | apply Hub.canon_hostMem | apply Hub.canon_if | apply State.canon_if | apply MemSt.canon_if | apply Hub.canon_foldl | apply State.canon_foldl | apply MemSt.canon_foldl | apply State.canon_foldl_fst | (simp only [State.canon_mk, Hub.canon_mk, MemSt.canon_mk]) | apply And.intro | split)
theorem execHandoverTailEnd_canon (conf : Nat) (s : State) (h0 : s.canon) : ∃ t, execHandoverTailEnd conf s = .next t ∧ t.canon := by
  refine ⟨_, rfl, ?_⟩
  repeat' (with_reducible first | assumption | (intro _) | apply AudMeter.next_canon | apply Hub.raise_canon | apply State.dropHand_canon | apply State.markLeg_canon | apply State.removal_canon | apply State.canon_hub | apply State.canon_mem | apply MemSt.canon_cells | apply Hub.canon_regs | apply Hub.canon_shadow | apply Hub.canon_hostMem | apply regsWf_filter | apply regsWf_kvFilter | apply memWf_filter | apply Hub.canon_if | apply State.canon_if | apply MemSt.canon_if | apply Hub.canon_foldl | apply State.canon_foldl | apply MemSt.canon_foldl | apply State.canon_foldl_fst | (simp only [State.canon_mk, Hub.canon_mk, MemSt.canon_mk]) | apply And.intro | split)
theorem State.handCopy_canon (s : State) (src conf tconf : Nat) (slots : List (Nat × Nat × Bool)) (legs : List (List Byte × Nat × Nat))
    (streams subs profs : List (List Byte)) (h0 : s.canon) : (State.handCopy s src conf tconf slots legs streams subs profs).canon := by
  unfold State.handCopy
  repeat' (with_reducible first | assumption | (intro _) | apply Hub.freeTick_canon | apply MemSt.copied_canon | apply State.jlSvc_canon | apply State.setEst_canon | apply State.subAdd_canon | apply State.canon_hub | apply State.canon_mem | apply MemSt.canon_cells | apply Hub.canon_regs | apply Hub.canon_shadow | apply Hub.canon_hostMem | apply regsWf_filter | apply regsWf_kvFilter | apply memWf_filter | apply Hub.canon_foldl | apply State.canon_foldl | apply MemSt.canon_foldl | apply State.canon_foldl_fst | (simp only [State.canon_mk, Hub.canon_mk, MemSt.canon_mk]) | apply And.intro | split)
theorem State.handState_canon (s : State) (src i ssrc seqOff tsOff lastSeq lastTs gen top : Nat) (index : List (Nat × Nat × Nat × Nat × Bool)) (h0 : s.canon) : (State.handState s src i ssrc seqOff tsOff lastSeq lastTs gen top index).canon := by
  unfold State.handState
  repeat' (with_reducible first | assumption | (intro _) | apply State.canon_hub | apply State.canon_mem | apply MemSt.canon_cells | apply Hub.canon_regs | apply Hub.canon_shadow | apply Hub.canon_hostMem | (simp only [State.canon_mk, Hub.canon_mk, MemSt.canon_mk]) | apply And.intro | split)
theorem State.handUndo_canon (s : State) (c : Nat) (x : HandIn) (h0 : s.canon) : (State.handUndo s c x).canon := by
  unfold State.handUndo
  repeat' (with_reducible first | assumption | (intro _) | apply State.markLeg_canon | apply State.removal_canon | apply State.canon_hub | apply State.canon_mem | apply MemSt.canon_cells | apply Hub.canon_regs | apply Hub.canon_shadow | apply Hub.canon_hostMem | apply Hub.canon_foldl | apply State.canon_foldl | apply MemSt.canon_foldl | apply State.canon_foldl_fst | (simp only [State.canon_mk, Hub.canon_mk, MemSt.canon_mk]) | apply And.intro | split)
theorem State.handCheck_canon (s : State) (h0 : s.canon) : (State.handCheck s).canon := by
  unfold State.handCheck
  repeat' (with_reducible first | assumption | (intro _) | apply State.handLost_canon | apply State.handUndo_canon | apply State.canon_hub | apply State.canon_mem | apply MemSt.canon_cells | apply Hub.canon_regs | apply Hub.canon_shadow | apply Hub.canon_hostMem | apply regsWf_filter | apply regsWf_kvFilter | apply memWf_filter | apply Hub.canon_foldl | apply State.canon_foldl | apply MemSt.canon_foldl | apply State.canon_foldl_fst | (simp only [State.canon_mk, Hub.canon_mk, MemSt.canon_mk]) | apply And.intro | split)
theorem State.scoresIn_canon (s : State) (src cluster : Nat) (l : List (Nat × Nat)) (h0 : s.canon) : (State.scoresIn s src cluster l).canon := by
  unfold State.scoresIn
  repeat' (with_reducible first | assumption | (intro _) | apply State.setConf_canon | apply State.canon_hub | apply State.canon_mem | apply MemSt.canon_cells | apply Hub.canon_regs | apply Hub.canon_shadow | apply Hub.canon_hostMem | apply regsWf_filter | apply regsWf_kvFilter | apply memWf_filter | apply Hub.canon_foldl | apply State.canon_foldl | apply MemSt.canon_foldl | apply State.canon_foldl_fst | (simp only [State.canon_mk, Hub.canon_mk, MemSt.canon_mk]) | apply And.intro | split)
theorem State.svcIn_canon (s : State) (src : Nat) (m : SvcMsg) (h0 : s.canon) : (State.svcIn s src m).canon := by
  unfold State.svcIn
  repeat' (with_reducible first | assumption | (intro _) | apply MemSt.copied_canon | apply State.handCopied_canon | apply State.handCopy_canon | apply State.handState_canon | apply State.jlMedia_canon | apply State.nack_canon | apply State.paneNeed_canon | apply State.rtcpCompound_canon | apply State.scoresIn_canon | apply State.canon_hub | apply State.canon_mem | apply MemSt.canon_cells | apply Hub.canon_regs | apply Hub.canon_shadow | apply Hub.canon_hostMem | apply regsWf_filter | apply regsWf_kvFilter | apply memWf_filter | apply Hub.canon_if | apply State.canon_if | apply MemSt.canon_if | (simp only [State.canon_mk, Hub.canon_mk, MemSt.canon_mk]) | apply And.intro | split)
theorem State.mediaIn_canon (s : State) (i : Nat) (raw : List Byte) (y : RtpLayer) (h0 : s.canon) : (State.mediaIn s i raw y).canon := by
  unfold State.mediaIn
  repeat' (with_reducible first | assumption | (intro _) | apply Hub.err_canon | apply MemSt.err_canon | apply State.cacheStore_canon | apply State.ingest_canon | apply State.nack_canon | apply State.canon_hub | apply State.canon_mem | apply MemSt.canon_cells | apply Hub.canon_regs | apply Hub.canon_shadow | apply Hub.canon_hostMem | apply regsWf_filter | apply regsWf_kvFilter | apply memWf_filter | apply Hub.canon_if | apply State.canon_if | apply MemSt.canon_if | apply Hub.canon_foldl | apply State.canon_foldl | apply MemSt.canon_foldl | apply State.canon_foldl_fst | (simp only [State.canon_mk, Hub.canon_mk, MemSt.canon_mk]) | apply And.intro | split)
theorem State.idleOut_canon (s : State) (n : Nat) (nak : Bool) (vc cred : Nat) (h0 : s.canon) : (State.idleOut s n nak vc cred).canon := by
  unfold State.idleOut
  repeat' (with_reducible first | assumption | (intro _) | apply State.plainOut_canon | apply State.canon_hub | apply State.canon_mem | apply MemSt.canon_cells | apply Hub.canon_regs | apply Hub.canon_shadow | apply Hub.canon_hostMem | apply Hub.canon_if | apply State.canon_if | apply MemSt.canon_if | (simp only [State.canon_mk, Hub.canon_mk, MemSt.canon_mk]) | apply And.intro | split)
theorem State.helloOut_canon (s : State) (n : Nat) (h0 : s.canon) : (State.helloOut s n).canon := by
  unfold State.helloOut
  repeat' (with_reducible first | assumption | (intro _) | apply State.plainOut_canon | apply State.setLink_canon | apply State.canon_hub | apply State.canon_mem | apply MemSt.canon_cells | apply Hub.canon_regs | apply Hub.canon_shadow | apply Hub.canon_hostMem | (simp only [State.canon_mk, Hub.canon_mk, MemSt.canon_mk]) | apply And.intro | split)
theorem State.helloAll_canon (s : State) (h0 : s.canon) : (State.helloAll s).canon := by
  unfold State.helloAll
  repeat' (with_reducible first | assumption | (intro _) | apply State.helloOut_canon | apply State.canon_hub | apply State.canon_mem | apply MemSt.canon_cells | apply Hub.canon_regs | apply Hub.canon_shadow | apply Hub.canon_hostMem | apply Hub.canon_if | apply State.canon_if | apply MemSt.canon_if | apply Hub.canon_foldl | apply State.canon_foldl | apply MemSt.canon_foldl | apply State.canon_foldl_fst | (simp only [State.canon_mk, Hub.canon_mk, MemSt.canon_mk]) | apply And.intro | split)
theorem State.laneAdapt_canon (s : State) (n : Nat) (h0 : s.canon) : (State.laneAdapt s n).canon := by
  unfold State.laneAdapt
  repeat' (with_reducible first | assumption | (intro _) | apply Hub.set1_canon | apply State.canon_hub | apply State.canon_mem | apply MemSt.canon_cells | apply Hub.canon_regs | apply Hub.canon_shadow | apply Hub.canon_hostMem | apply Hub.canon_if | apply State.canon_if | apply MemSt.canon_if | (simp only [State.canon_mk, Hub.canon_mk, MemSt.canon_mk]) | apply And.intro | split)
theorem State.jlResend_canon (s : State) (n : Nat) (h0 : s.canon) : (State.jlResend s n).canon := by
  unfold State.jlResend
  repeat' (with_reducible first | assumption | (intro _) | apply State.flitOut_canon | apply State.setLink_canon | apply State.canon_hub | apply State.canon_mem | apply MemSt.canon_cells | apply Hub.canon_regs | apply Hub.canon_shadow | apply Hub.canon_hostMem | apply Hub.canon_foldl | apply State.canon_foldl | apply MemSt.canon_foldl | apply State.canon_foldl_fst | (simp only [State.canon_mk, Hub.canon_mk, MemSt.canon_mk]) | apply And.intro | split)
theorem State.jlResume_canon (s : State) (n : Nat) (h0 : s.canon) : (State.jlResume s n).canon := by
  unfold State.jlResume
  repeat' (with_reducible first | assumption | (intro _) | apply State.jlEnter_canon | apply State.jlPump_canon | apply State.jlResend_canon | apply State.setLink_canon | apply State.canon_hub | apply State.canon_mem | apply MemSt.canon_cells | apply Hub.canon_regs | apply Hub.canon_shadow | apply Hub.canon_hostMem | (simp only [State.canon_mk, Hub.canon_mk, MemSt.canon_mk]) | apply And.intro | split)
theorem State.jlRetrain_canon (s : State) (n : Nat) (h0 : s.canon) : (State.jlRetrain s n).canon := by
  unfold State.jlRetrain
  repeat' (with_reducible first | assumption | (intro _) | apply State.jlEnter_canon | apply State.jlResend_canon | apply State.laneAdapt_canon | apply State.setLink_canon | apply State.transient_canon | apply State.canon_hub | apply State.canon_mem | apply MemSt.canon_cells | apply Hub.canon_regs | apply Hub.canon_shadow | apply Hub.canon_hostMem | apply regsWf_filter | apply regsWf_kvFilter | apply memWf_filter | apply Hub.canon_if | apply State.canon_if | apply MemSt.canon_if | apply Hub.canon_foldl | apply State.canon_foldl | apply MemSt.canon_foldl | apply State.canon_foldl_fst | (simp only [State.canon_mk, Hub.canon_mk, MemSt.canon_mk]) | apply And.intro | split)
theorem State.portCheck_canon (s : State) (p : PortRec) (h0 : s.canon) : (State.portCheck s p).canon := by
  unfold State.portCheck
  repeat' (with_reducible first | assumption | (intro _) | apply State.ethEnter_canon | apply State.jlResume_canon | apply State.canon_hub | apply State.canon_mem | apply MemSt.canon_cells | apply Hub.canon_regs | apply Hub.canon_shadow | apply Hub.canon_hostMem | apply Hub.canon_if | apply State.canon_if | apply MemSt.canon_if | (simp only [State.canon_mk, Hub.canon_mk, MemSt.canon_mk]) | apply And.intro | split)
theorem State.portTrain_canon (s : State) (p : PortRec) (h0 : s.canon) : (State.portTrain s p).canon := by
  unfold State.portTrain
  repeat' (with_reducible first | assumption | (intro _) | apply State.ethEnter_canon | apply State.jlEnter_canon | apply State.canon_hub | apply State.canon_mem | apply MemSt.canon_cells | apply Hub.canon_regs | apply Hub.canon_shadow | apply Hub.canon_hostMem | apply Hub.canon_if | apply State.canon_if | apply MemSt.canon_if | (simp only [State.canon_mk, Hub.canon_mk, MemSt.canon_mk]) | apply And.intro | split)
theorem execLaneLost_canon (lane : Nat) (s : State) (h0 : s.canon) : ∃ t, execLaneLost lane s = .next t ∧ t.canon := by
  refine ⟨_, rfl, ?_⟩
  repeat' (with_reducible first | assumption | (intro _) | apply AudMeter.next_canon | apply Hub.raise_canon | apply Hub.set1_canon | apply State.ethEnter_canon | apply State.islandLost_canon | apply State.setLane_canon | apply State.canon_hub | apply State.canon_mem | apply MemSt.canon_cells | apply Hub.canon_regs | apply Hub.canon_shadow | apply Hub.canon_hostMem | apply Hub.canon_if | apply State.canon_if | apply MemSt.canon_if | (simp only [State.canon_mk, Hub.canon_mk, MemSt.canon_mk]) | apply And.intro | split)
theorem execLaneAdaptDone_canon (lane : Nat) (ok : Bool) (snr : Nat) (inverted reversed : Bool) (s : State) (h0 : s.canon) : ∃ t, execLaneAdaptDone lane ok snr inverted reversed s = .next t ∧ t.canon := by
  refine ⟨_, rfl, ?_⟩
  repeat' (with_reducible first | assumption | (intro _) | apply AudMeter.next_canon | apply Hub.raise_canon | apply Hub.set1_canon | apply State.handCheck_canon | apply State.islandBack_canon | apply State.permanent_canon | apply State.portCheck_canon | apply State.setLane_canon | apply State.canon_hub | apply State.canon_mem | apply MemSt.canon_cells | apply Hub.canon_regs | apply Hub.canon_shadow | apply Hub.canon_hostMem | apply Hub.canon_if | apply State.canon_if | apply MemSt.canon_if | (simp only [State.canon_mk, Hub.canon_mk, MemSt.canon_mk]) | apply And.intro | split)
theorem execFomLowTimer_canon (lane snr : Nat) (s : State) (h0 : s.canon) : ∃ t, execFomLowTimer lane snr s = .next t ∧ t.canon := by
  refine ⟨_, rfl, ?_⟩
  repeat' (with_reducible first | assumption | (intro _) | apply AudMeter.next_canon | apply Hub.raiseRl_canon | apply Hub.set1_canon | apply State.transient_canon | apply State.canon_hub | apply State.canon_mem | apply MemSt.canon_cells | apply Hub.canon_regs | apply Hub.canon_shadow | apply Hub.canon_hostMem | apply Hub.canon_if | apply State.canon_if | apply MemSt.canon_if | (simp only [State.canon_mk, Hub.canon_mk, MemSt.canon_mk]) | apply And.intro | split)
theorem State.laneRetrain_canon (s : State) (lane : Nat) (h0 : s.canon) : (State.laneRetrain s lane).canon := by
  unfold State.laneRetrain
  repeat' (with_reducible first | assumption | (intro _) | apply State.laneAdapt_canon | apply State.portTrain_canon | apply State.setLane_canon | apply State.canon_hub | apply State.canon_mem | apply MemSt.canon_cells | apply Hub.canon_regs | apply Hub.canon_shadow | apply Hub.canon_hostMem | apply Hub.canon_if | apply State.canon_if | apply MemSt.canon_if | (simp only [State.canon_mk, Hub.canon_mk, MemSt.canon_mk]) | apply And.intro | split)
theorem execLaneRetrain_canon (lane : Nat) (s : State) (h0 : s.canon) : ∃ t, execLaneRetrain lane s = .next t ∧ t.canon := by
  refine ⟨_, rfl, ?_⟩
  repeat' (with_reducible first | assumption | (intro _) | apply AudMeter.next_canon | apply State.laneRetrain_canon | apply State.canon_hub | apply State.canon_mem | apply MemSt.canon_cells | apply Hub.canon_regs | apply Hub.canon_shadow | apply Hub.canon_hostMem | apply Hub.canon_if | apply State.canon_if | apply MemSt.canon_if | (simp only [State.canon_mk, Hub.canon_mk, MemSt.canon_mk]) | apply And.intro | split)
theorem State.laneLoop_canon (s : State) (lane : Nat) (val : Word) (h0 : s.canon) : (State.laneLoop s lane val).canon := by
  unfold State.laneLoop
  repeat' (with_reducible first | assumption | (intro _) | apply Hub.emit_canon | apply Hub.set1_canon | apply State.canon_hub | apply State.canon_mem | apply MemSt.canon_cells | apply Hub.canon_regs | apply Hub.canon_shadow | apply Hub.canon_hostMem | apply Hub.canon_if | apply State.canon_if | apply MemSt.canon_if | (simp only [State.canon_mk, Hub.canon_mk, MemSt.canon_mk]) | apply And.intro | split)
theorem execLaneLoopbackWrite_canon (lane : Nat) (val : Word) (s : State) (h0 : s.canon) : ∃ t, execLaneLoopbackWrite lane val s = .next t ∧ t.canon := by
  refine ⟨_, rfl, ?_⟩
  repeat' (with_reducible first | assumption | (intro _) | apply AudMeter.next_canon | apply State.laneLoop_canon | apply State.canon_hub | apply State.canon_mem | apply MemSt.canon_cells | apply Hub.canon_regs | apply Hub.canon_shadow | apply Hub.canon_hostMem | apply Hub.canon_if | apply State.canon_if | apply MemSt.canon_if | (simp only [State.canon_mk, Hub.canon_mk, MemSt.canon_mk]) | apply And.intro | split)
theorem State.laneSleepWrite_canon (s : State) (lane : Nat) (val : Word) (h0 : s.canon) : (State.laneSleepWrite s lane val).canon := by
  unfold State.laneSleepWrite
  repeat' (with_reducible first | assumption | (intro _) | apply Hub.set1_canon | apply State.handCheck_canon | apply State.portCheck_canon | apply State.portTrain_canon | apply State.canon_hub | apply State.canon_mem | apply MemSt.canon_cells | apply Hub.canon_regs | apply Hub.canon_shadow | apply Hub.canon_hostMem | apply Hub.canon_if | apply State.canon_if | apply MemSt.canon_if | (simp only [State.canon_mk, Hub.canon_mk, MemSt.canon_mk]) | apply And.intro | split)
theorem execLaneSleepWrite_canon (lane : Nat) (val : Word) (s : State) (h0 : s.canon) : ∃ t, execLaneSleepWrite lane val s = .next t ∧ t.canon := by
  refine ⟨_, rfl, ?_⟩
  repeat' (with_reducible first | assumption | (intro _) | apply AudMeter.next_canon | apply State.laneSleepWrite_canon | apply State.canon_hub | apply State.canon_mem | apply MemSt.canon_cells | apply Hub.canon_regs | apply Hub.canon_shadow | apply Hub.canon_hostMem | apply Hub.canon_if | apply State.canon_if | apply MemSt.canon_if | (simp only [State.canon_mk, Hub.canon_mk, MemSt.canon_mk]) | apply And.intro | split)
theorem execLinkAligned_canon (link : Nat) (reversed : Bool) (s : State) (h0 : s.canon) : ∃ t, execLinkAligned link reversed s = .next t ∧ t.canon := by
  refine ⟨_, rfl, ?_⟩
  repeat' (with_reducible first | assumption | (intro _) | apply AudMeter.next_canon | apply Hub.set1_canon | apply State.helloOut_canon | apply State.jlEnter_canon | apply State.canon_hub | apply State.canon_mem | apply MemSt.canon_cells | apply Hub.canon_regs | apply Hub.canon_shadow | apply Hub.canon_hostMem | apply Hub.canon_if | apply State.canon_if | apply MemSt.canon_if | (simp only [State.canon_mk, Hub.canon_mk, MemSt.canon_mk]) | apply And.intro | split)
theorem execHelloTimer_canon (link : Nat) (s : State) (h0 : s.canon) : ∃ t, execHelloTimer link s = .next t ∧ t.canon := by
  refine ⟨_, rfl, ?_⟩
  repeat' (with_reducible first | assumption | (intro _) | apply AudMeter.next_canon | apply State.helloOut_canon | apply State.jlEnter_canon | apply State.canon_hub | apply State.canon_mem | apply MemSt.canon_cells | apply Hub.canon_regs | apply Hub.canon_shadow | apply Hub.canon_hostMem | apply Hub.canon_if | apply State.canon_if | apply MemSt.canon_if | (simp only [State.canon_mk, Hub.canon_mk, MemSt.canon_mk]) | apply And.intro | split)
theorem State.holdLost_canon (s : State) (n : Nat) (h0 : s.canon) : (State.holdLost s n).canon := by
  unfold State.holdLost
  repeat' (with_reducible first | assumption | (intro _) | apply Hub.raise_canon | apply State.handCheck_canon | apply State.jlEnter_canon | apply State.canon_hub | apply State.canon_mem | apply MemSt.canon_cells | apply Hub.canon_regs | apply Hub.canon_shadow | apply Hub.canon_hostMem | (simp only [State.canon_mk, Hub.canon_mk, MemSt.canon_mk]) | apply And.intro | split)
theorem State.jlHeard_canon (s : State) (n : Nat) (h0 : s.canon) : (State.jlHeard s n).canon := by
  unfold State.jlHeard
  repeat' (with_reducible first | assumption | (intro _) | apply State.holdLost_canon | apply State.jlEnter_canon | apply State.jlPump_canon | apply State.setLink_canon | apply State.canon_hub | apply State.canon_mem | apply MemSt.canon_cells | apply Hub.canon_regs | apply Hub.canon_shadow | apply Hub.canon_hostMem | apply Hub.canon_if | apply State.canon_if | apply MemSt.canon_if | (simp only [State.canon_mk, Hub.canon_mk, MemSt.canon_mk]) | apply And.intro | split)
theorem State.jlAck_canon (s : State) (n ack : Nat) (h0 : s.canon) : (State.jlAck s n ack).canon := by
  unfold State.jlAck
  repeat' (with_reducible first | assumption | (intro _) | apply Hub.between_canon | apply State.setLink_canon | apply State.canon_hub | apply State.canon_mem | apply MemSt.canon_cells | apply Hub.canon_regs | apply Hub.canon_shadow | apply Hub.canon_hostMem | apply regsWf_filter | apply regsWf_kvFilter | apply memWf_filter | apply Hub.canon_if | apply State.canon_if | apply MemSt.canon_if | (simp only [State.canon_mk, Hub.canon_mk, MemSt.canon_mk]) | apply And.intro | split)
theorem State.jlCredit_canon (s : State) (n vc k : Nat) (h0 : s.canon) : (State.jlCredit s n vc k).canon := by
  unfold State.jlCredit
  repeat' (with_reducible first | assumption | (intro _) | apply State.setLink_canon | apply State.canon_hub | apply State.canon_mem | apply MemSt.canon_cells | apply Hub.canon_regs | apply Hub.canon_shadow | apply Hub.canon_hostMem | (simp only [State.canon_mk, Hub.canon_mk, MemSt.canon_mk]) | apply And.intro | split)
theorem State.jlReplay_canon (s : State) (n : Nat) (h0 : s.canon) : (State.jlReplay s n).canon := by
  unfold State.jlReplay
  repeat' (with_reducible first | assumption | (intro _) | apply Hub.err_canon | apply Hub.raiseRl_canon | apply MemSt.err_canon | apply State.jlResend_canon | apply State.jlRetrain_canon | apply State.setLink_canon | apply State.transient_canon | apply State.canon_hub | apply State.canon_mem | apply MemSt.canon_cells | apply Hub.canon_regs | apply Hub.canon_shadow | apply Hub.canon_hostMem | apply Hub.canon_if | apply State.canon_if | apply MemSt.canon_if | (simp only [State.canon_mk, Hub.canon_mk, MemSt.canon_mk]) | apply And.intro | split)
theorem State.jlNak_canon (s : State) (n : Nat) (again : Bool) (h0 : s.canon) : (State.jlNak s n again).canon := by
  unfold State.jlNak
  repeat' (with_reducible first | assumption | (intro _) | apply State.idleOut_canon | apply State.setLink_canon | apply State.canon_hub | apply State.canon_mem | apply MemSt.canon_cells | apply Hub.canon_regs | apply Hub.canon_shadow | apply Hub.canon_hostMem | apply Hub.canon_if | apply State.canon_if | apply MemSt.canon_if | (simp only [State.canon_mk, Hub.canon_mk, MemSt.canon_mk]) | apply And.intro | split)
theorem State.flitIn_canon (s : State) (n : Nat) (b : List Byte) (lost : Bool) (types : Nat → Bool) (act : State → FlitHead → State) (h : ∀ (t : State) (g : FlitHead), t.canon → (act t g).canon) (h0 : s.canon) : (s.flitIn n b lost types act).canon := by
  unfold State.flitIn
  repeat' (with_reducible first | assumption | (apply h) | apply State.offer_canon | apply State.jlNak_canon | split)
theorem State.jlHead_canon (s : State) (n : Nat) (h : FlitHead) (h0 : s.canon) : (State.jlHead s n h).canon := by
  unfold State.jlHead
  repeat' (with_reducible first | assumption | (intro _) | apply State.jlAck_canon | apply State.jlCredit_canon | apply State.jlPump_canon | apply State.jlReplay_canon | apply State.canon_hub | apply State.canon_mem | apply MemSt.canon_cells | apply Hub.canon_regs | apply Hub.canon_shadow | apply Hub.canon_hostMem | apply Hub.canon_if | apply State.canon_if | apply MemSt.canon_if | (simp only [State.canon_mk, Hub.canon_mk, MemSt.canon_mk]) | apply And.intro | split)
theorem State.idleIn_canon (s : State) (n : Nat) (h : FlitHead) (h0 : s.canon) : (State.idleIn s n h).canon := by
  unfold State.idleIn
  repeat' (with_reducible first | assumption | (intro _) | apply State.jlHead_canon | apply State.jlHeard_canon | apply State.canon_hub | apply State.canon_mem | apply MemSt.canon_cells | apply Hub.canon_regs | apply Hub.canon_shadow | apply Hub.canon_hostMem | apply Hub.canon_if | apply State.canon_if | apply MemSt.canon_if | (simp only [State.canon_mk, Hub.canon_mk, MemSt.canon_mk]) | apply And.intro | split)
theorem execIdleFlit_canon (link : Nat) (bytes : List Byte) (s : State) (h0 : s.canon) : ∃ t, execIdleFlit link bytes s = .next t ∧ t.canon := by
  refine ⟨_, rfl, State.flitIn_canon _ _ _ _ _ _ (fun t g ht => ?_) h0⟩
  repeat' (with_reducible first | assumption | (intro _) | apply AudMeter.next_canon | apply State.flitIn_canon | apply State.idleIn_canon | apply State.canon_hub | apply State.canon_mem | apply MemSt.canon_cells | apply Hub.canon_regs | apply Hub.canon_shadow | apply Hub.canon_hostMem | (simp only [State.canon_mk, Hub.canon_mk, MemSt.canon_mk]) | apply And.intro | split)
theorem execNakReceive_canon (link : Nat) (bytes : List Byte) (s : State) (h0 : s.canon) : ∃ t, execNakReceive link bytes s = .next t ∧ t.canon := by
  refine ⟨_, rfl, State.flitIn_canon _ _ _ _ _ _ (fun t g ht => ?_) h0⟩
  repeat' (with_reducible first | assumption | (intro _) | apply AudMeter.next_canon | apply State.flitIn_canon | apply State.idleIn_canon | apply State.canon_hub | apply State.canon_mem | apply MemSt.canon_cells | apply Hub.canon_regs | apply Hub.canon_shadow | apply Hub.canon_hostMem | (simp only [State.canon_mk, Hub.canon_mk, MemSt.canon_mk]) | apply And.intro | split)
theorem State.helloIn_canon (s : State) (n : Nat) (head : FlitHead) (h : JlHello) (h0 : s.canon) : (State.helloIn s n head h).canon := by
  unfold State.helloIn
  repeat' (with_reducible first | assumption | (intro _) | apply Hub.set1_canon | apply State.jlEnter_canon | apply State.jlHead_canon | apply State.jlHeard_canon | apply State.jlPump_canon | apply State.setLink_canon | apply State.canon_hub | apply State.canon_mem | apply MemSt.canon_cells | apply Hub.canon_regs | apply Hub.canon_shadow | apply Hub.canon_hostMem | apply Hub.canon_if | apply State.canon_if | apply MemSt.canon_if | (simp only [State.canon_mk, Hub.canon_mk, MemSt.canon_mk]) | apply And.intro | split)
theorem execHelloFlit_canon (link : Nat) (bytes : List Byte) (s : State) (h0 : s.canon) : ∃ t, execHelloFlit link bytes s = .next t ∧ t.canon := by
  refine ⟨_, rfl, State.flitIn_canon _ _ _ _ _ _ (fun t g ht => ?_) h0⟩
  repeat' (with_reducible first | assumption | (intro _) | apply AudMeter.next_canon | apply State.flitIn_canon | apply State.helloIn_canon | apply State.canon_hub | apply State.canon_mem | apply MemSt.canon_cells | apply Hub.canon_regs | apply Hub.canon_shadow | apply Hub.canon_hostMem | (simp only [State.canon_mk, Hub.canon_mk, MemSt.canon_mk]) | apply And.intro | split)
theorem execHoldFlit_canon (link : Nat) (bytes : List Byte) (s : State) (h0 : s.canon) : ∃ t, execHoldFlit link bytes s = .next t ∧ t.canon := by
  refine ⟨_, rfl, State.flitIn_canon _ _ _ _ _ _ (fun t g ht => ?_) h0⟩
  repeat' (with_reducible first | assumption | (intro _) | apply AudMeter.next_canon | apply State.flitIn_canon | apply State.jlEnter_canon | apply State.setLink_canon | apply State.canon_hub | apply State.canon_mem | apply MemSt.canon_cells | apply Hub.canon_regs | apply Hub.canon_shadow | apply Hub.canon_hostMem | apply Hub.canon_if | apply State.canon_if | apply MemSt.canon_if | (simp only [State.canon_mk, Hub.canon_mk, MemSt.canon_mk]) | apply And.intro | split)
theorem execHoldTimeout_canon (link : Nat) (s : State) (h0 : s.canon) : ∃ t, execHoldTimeout link s = .next t ∧ t.canon := by
  refine ⟨_, rfl, ?_⟩
  repeat' (with_reducible first | assumption | (intro _) | apply AudMeter.next_canon | apply State.holdLost_canon | apply State.canon_hub | apply State.canon_mem | apply MemSt.canon_cells | apply Hub.canon_regs | apply Hub.canon_shadow | apply Hub.canon_hostMem | apply Hub.canon_if | apply State.canon_if | apply MemSt.canon_if | (simp only [State.canon_mk, Hub.canon_mk, MemSt.canon_mk]) | apply And.intro | split)
theorem State.linkMask_canon (s : State) (p : PortRec) (mask : Nat) (h0 : s.canon) : (State.linkMask s p mask).canon := by
  unfold State.linkMask
  repeat' (with_reducible first | assumption | (intro _) | apply Hub.raise_canon | apply Hub.set1_canon | apply State.handCheck_canon | apply State.jlEnter_canon | apply State.laneAdapt_canon | apply State.plainOut_canon | apply State.canon_hub | apply State.canon_mem | apply MemSt.canon_cells | apply Hub.canon_regs | apply Hub.canon_shadow | apply Hub.canon_hostMem | apply Hub.canon_if | apply State.canon_if | apply MemSt.canon_if | apply Hub.canon_foldl | apply State.canon_foldl | apply MemSt.canon_foldl | apply State.canon_foldl_fst | (simp only [State.canon_mk, Hub.canon_mk, MemSt.canon_mk]) | apply And.intro | split)
theorem execLinkFlit_canon (link : Nat) (bytes : List Byte) (s : State) (h0 : s.canon) : ∃ t, execLinkFlit link bytes s = .next t ∧ t.canon := by
  refine ⟨_, rfl, State.flitIn_canon _ _ _ _ _ _ (fun t g ht => ?_) h0⟩
  repeat' (with_reducible first | assumption | (intro _) | apply AudMeter.next_canon | apply State.flitIn_canon | apply State.jlHead_canon | apply State.jlHeard_canon | apply State.linkMask_canon | apply State.canon_hub | apply State.canon_mem | apply MemSt.canon_cells | apply Hub.canon_regs | apply Hub.canon_shadow | apply Hub.canon_hostMem | apply Hub.canon_if | apply State.canon_if | apply MemSt.canon_if | (simp only [State.canon_mk, Hub.canon_mk, MemSt.canon_mk]) | apply And.intro | split)
theorem execTunnelReplayTimer_canon (link : Nat) (s : State) (h0 : s.canon) : ∃ t, execTunnelReplayTimer link s = .next t ∧ t.canon := by
  refine ⟨_, rfl, ?_⟩
  repeat' (with_reducible first | assumption | (intro _) | apply AudMeter.next_canon | apply State.jlReplay_canon | apply State.canon_hub | apply State.canon_mem | apply MemSt.canon_cells | apply Hub.canon_regs | apply Hub.canon_shadow | apply Hub.canon_hostMem | apply Hub.canon_if | apply State.canon_if | apply MemSt.canon_if | (simp only [State.canon_mk, Hub.canon_mk, MemSt.canon_mk]) | apply And.intro | split)
theorem execTunnelSilenceTimeout_canon (link : Nat) (s : State) (h0 : s.canon) : ∃ t, execTunnelSilenceTimeout link s = .next t ∧ t.canon := by
  refine ⟨_, rfl, ?_⟩
  repeat' (with_reducible first | assumption | (intro _) | apply AudMeter.next_canon | apply State.handCheck_canon | apply State.jlEnter_canon | apply State.canon_hub | apply State.canon_mem | apply MemSt.canon_cells | apply Hub.canon_regs | apply Hub.canon_shadow | apply Hub.canon_hostMem | apply Hub.canon_if | apply State.canon_if | apply MemSt.canon_if | (simp only [State.canon_mk, Hub.canon_mk, MemSt.canon_mk]) | apply And.intro | split)
theorem execLinkStats_canon (e : CmdEnv) (body : List Byte) (s : State) (h0 : s.canon) : ∃ t, execLinkStats e body s = .next t ∧ t.canon := by
  refine ⟨_, rfl, ?_⟩
  repeat' (with_reducible first | assumption | (intro _) | apply AudMeter.next_canon | apply State.done_canon | apply State.canon_hub | apply State.canon_mem | apply MemSt.canon_cells | apply Hub.canon_regs | apply Hub.canon_shadow | apply Hub.canon_hostMem | apply Hub.canon_if | apply State.canon_if | apply MemSt.canon_if | (simp only [State.canon_mk, Hub.canon_mk, MemSt.canon_mk]) | apply And.intro | split)
theorem execKeyRequestTimer_canon (stream : Nat) (own : Option (Nat × Nat)) (s : State) (h0 : s.canon) : ∃ t, execKeyRequestTimer stream own s = .next t ∧ t.canon := by
  refine ⟨_, rfl, ?_⟩
  repeat' (with_reducible first | assumption | (intro _) | apply AudMeter.next_canon | apply Hub.raise_canon | apply State.encRefresh_canon | apply State.feedback_canon | apply State.canon_hub | apply State.canon_mem | apply MemSt.canon_cells | apply Hub.canon_regs | apply Hub.canon_shadow | apply Hub.canon_hostMem | apply Hub.canon_if | apply State.canon_if | apply MemSt.canon_if | (simp only [State.canon_mk, Hub.canon_mk, MemSt.canon_mk]) | apply And.intro | split)
theorem State.itemApply_canon (s : State) (e : OpenEntry) (h0 : s.canon) : (State.itemApply s e).canon := by
  unfold State.itemApply
  repeat' (with_reducible first | assumption | (intro _) | apply Hub.wr_canon | apply MemSt.write_canon | apply State.audChange_canon | apply State.encConfig_canon | apply State.fwdChange_canon | apply State.helloAll_canon | apply State.keyChange_canon | apply State.legModify_canon | apply State.mbReset_canon | apply State.splChange_canon | apply State.subAdd_canon | apply State.subModify_canon | apply State.tevCompare_canon | apply State.canon_hub | apply State.canon_mem | apply MemSt.canon_cells | apply Hub.canon_regs | apply Hub.canon_shadow | apply Hub.canon_hostMem | apply Hub.canon_if | apply State.canon_if | apply MemSt.canon_if | (simp only [State.canon_mk, Hub.canon_mk, MemSt.canon_mk]) | apply And.intro | split)
theorem State.hostPlan_canon (s : State) (bank : Bool) (h0 : s.canon) : (State.hostPlan s bank).canon := by
  unfold State.hostPlan
  repeat' (with_reducible first | assumption | (intro _) | apply State.canon_hub | apply State.canon_mem | apply MemSt.canon_cells | apply Hub.canon_regs | apply Hub.canon_shadow | apply Hub.canon_hostMem | apply Hub.canon_if | apply State.canon_if | apply MemSt.canon_if | (simp only [State.canon_mk, Hub.canon_mk, MemSt.canon_mk]) | apply And.intro | split)
theorem State.disown_canon (s : State) (h0 : s.canon) : (State.disown s).canon := by
  unfold State.disown
  repeat' (with_reducible first | assumption | (intro _) | apply State.canon_hub | apply State.canon_mem | apply MemSt.canon_cells | apply Hub.canon_regs | apply Hub.canon_shadow | apply Hub.canon_hostMem | apply regsWf_filter | apply regsWf_kvFilter | apply memWf_filter | (simp only [State.canon_mk, Hub.canon_mk, MemSt.canon_mk]) | apply And.intro | split)
theorem State.latchApply_canon (s : State) (l : Latch) (late : Nat) (h0 : s.canon) : (State.latchApply s l late).canon := by
  unfold State.latchApply
  repeat' (with_reducible first | assumption | (intro _) | apply Hub.latchLast_canon | apply State.commitGo_canon | apply State.disown_canon | apply State.gclPend_canon | apply State.hostPlan_canon | apply State.itemApply_canon | apply State.latchLate_canon | apply State.latchStatus_canon | apply State.loadLatch_canon | apply State.shadowClear_canon | apply State.canon_hub | apply State.canon_mem | apply MemSt.canon_cells | apply Hub.canon_regs | apply Hub.canon_shadow | apply Hub.canon_hostMem | apply regsWf_filter | apply regsWf_kvFilter | apply memWf_filter | apply Hub.canon_if | apply State.canon_if | apply MemSt.canon_if | apply Hub.canon_foldl | apply State.canon_foldl | apply MemSt.canon_foldl | apply State.canon_foldl_fst | (simp only [State.canon_mk, Hub.canon_mk, MemSt.canon_mk]) | apply And.intro | split)
theorem State.latchTurn_canon (due : Latch → Option Nat) (s : State) (num : Nat) (h0 : s.canon) : (State.latchTurn due s num).canon := by
  unfold State.latchTurn
  repeat' (with_reducible first | assumption | (intro _) | apply State.latchApply_canon | apply State.latchDecide_canon | apply State.canon_hub | apply State.canon_mem | apply MemSt.canon_cells | apply Hub.canon_regs | apply Hub.canon_shadow | apply Hub.canon_hostMem | apply Hub.canon_if | apply State.canon_if | apply MemSt.canon_if | (simp only [State.canon_mk, Hub.canon_mk, MemSt.canon_mk]) | apply And.intro | split)
theorem State.latchPass_canon (s : State) (due : Latch → Option Nat) (h0 : s.canon) : (State.latchPass s due).canon := by
  unfold State.latchPass
  repeat' (with_reducible first | assumption | (intro _) | apply State.latchTurn_canon | apply State.canon_hub | apply State.canon_mem | apply MemSt.canon_cells | apply Hub.canon_regs | apply Hub.canon_shadow | apply Hub.canon_hostMem | apply Hub.canon_foldl | apply State.canon_foldl | apply MemSt.canon_foldl | apply State.canon_foldl_fst | (simp only [State.canon_mk, Hub.canon_mk, MemSt.canon_mk]) | apply And.intro | split)
theorem State.boundaryLatches_canon (s : State) (step : Bool) (h0 : s.canon) : (State.boundaryLatches s step).canon := by
  unfold State.boundaryLatches
  repeat' (with_reducible first | assumption | (intro _) | apply State.latchPass_canon | apply State.canon_hub | apply State.canon_mem | apply MemSt.canon_cells | apply Hub.canon_regs | apply Hub.canon_shadow | apply Hub.canon_hostMem | (simp only [State.canon_mk, Hub.canon_mk, MemSt.canon_mk]) | apply And.intro | split)
theorem State.workBoundary_canon (s : State) (ds : List Domain) (h0 : s.canon) : (State.workBoundary s ds).canon := by
  unfold State.workBoundary
  repeat' (with_reducible first | assumption | (intro _) | apply State.itemApply_canon | apply State.latchPass_canon | apply State.persSet_canon | apply State.canon_hub | apply State.canon_mem | apply MemSt.canon_cells | apply Hub.canon_regs | apply Hub.canon_shadow | apply Hub.canon_hostMem | apply regsWf_filter | apply regsWf_kvFilter | apply memWf_filter | apply Hub.canon_if | apply State.canon_if | apply MemSt.canon_if | apply Hub.canon_foldl | apply State.canon_foldl | apply MemSt.canon_foldl | apply State.canon_foldl_fst | (simp only [State.canon_mk, Hub.canon_mk, MemSt.canon_mk]) | apply And.intro | split)
theorem State.quietBoundary_canon (s : State) (h0 : s.canon) : (State.quietBoundary s).canon := by
  unfold State.quietBoundary
  repeat' (with_reducible first | assumption | (intro _) | apply State.workBoundary_canon | apply State.canon_hub | apply State.canon_mem | apply MemSt.canon_cells | apply Hub.canon_regs | apply Hub.canon_shadow | apply Hub.canon_hostMem | apply regsWf_filter | apply regsWf_kvFilter | apply memWf_filter | apply Hub.canon_if | apply State.canon_if | apply MemSt.canon_if | (simp only [State.canon_mk, Hub.canon_mk, MemSt.canon_mk]) | apply And.intro | split)
theorem State.commitNext_canon (s : State) (fn hcLeft : Nat) (h0 : s.canon) : (State.commitNext s fn hcLeft).canon := by
  unfold State.commitNext
  repeat' (with_reducible first | assumption | (intro _) | apply State.latchAccept_canon | apply State.latchRefuse_canon | apply State.canon_hub | apply State.canon_mem | apply MemSt.canon_cells | apply Hub.canon_regs | apply Hub.canon_shadow | apply Hub.canon_hostMem | apply regsWf_filter | apply regsWf_kvFilter | apply memWf_filter | apply Hub.canon_if | apply State.canon_if | apply MemSt.canon_if | (simp only [State.canon_mk, Hub.canon_mk, MemSt.canon_mk]) | apply And.intro | split)
theorem State.commitSched_canon (s : State) (fn : Nat) (val : Word) (hcLeft : Nat) (h0 : s.canon) : (State.commitSched s fn val hcLeft).canon := by
  unfold State.commitSched
  repeat' (with_reducible first | assumption | (intro _) | apply State.jlSendAll_canon | apply State.latchAccept_canon | apply State.latchDecide_canon | apply State.latchLate_canon | apply State.latchRefuse_canon | apply State.canon_hub | apply State.canon_mem | apply MemSt.canon_cells | apply Hub.canon_regs | apply Hub.canon_shadow | apply Hub.canon_hostMem | apply regsWf_filter | apply regsWf_kvFilter | apply memWf_filter | apply Hub.canon_if | apply State.canon_if | apply MemSt.canon_if | (simp only [State.canon_mk, Hub.canon_mk, MemSt.canon_mk]) | apply And.intro | split)
theorem State.commitDom_canon (s : State) (fn : Nat) (val : Word) (h0 : s.canon) : (State.commitDom s fn val).canon := by
  unfold State.commitDom
  repeat' (with_reducible first | assumption | (intro _) | apply State.latchAccept_canon | apply State.latchRefuse_canon | apply State.canon_hub | apply State.canon_mem | apply MemSt.canon_cells | apply Hub.canon_regs | apply Hub.canon_shadow | apply Hub.canon_hostMem | apply regsWf_filter | apply regsWf_kvFilter | apply memWf_filter | apply Hub.canon_if | apply State.canon_if | apply MemSt.canon_if | (simp only [State.canon_mk, Hub.canon_mk, MemSt.canon_mk]) | apply And.intro | split)
theorem execLatchCommitNext_canon (fn : Nat) (val : Word) (hcLeft : Nat) (s : State) (h0 : s.canon) : ∃ t, execLatchCommitNext fn val hcLeft s = .next t ∧ t.canon := by
  refine ⟨_, rfl, ?_⟩
  repeat' (with_reducible first | assumption | (intro _) | apply AudMeter.next_canon | apply State.commitNext_canon | apply State.canon_hub | apply State.canon_mem | apply MemSt.canon_cells | apply Hub.canon_regs | apply Hub.canon_shadow | apply Hub.canon_hostMem | apply Hub.canon_if | apply State.canon_if | apply MemSt.canon_if | (simp only [State.canon_mk, Hub.canon_mk, MemSt.canon_mk]) | apply And.intro | split)
theorem execLatchCommitSched_canon (fn : Nat) (val : Word) (hcLeft : Nat) (s : State) (h0 : s.canon) : ∃ t, execLatchCommitSched fn val hcLeft s = .next t ∧ t.canon := by
  refine ⟨_, rfl, ?_⟩
  repeat' (with_reducible first | assumption | (intro _) | apply AudMeter.next_canon | apply State.commitSched_canon | apply State.canon_hub | apply State.canon_mem | apply MemSt.canon_cells | apply Hub.canon_regs | apply Hub.canon_shadow | apply Hub.canon_hostMem | apply Hub.canon_if | apply State.canon_if | apply MemSt.canon_if | (simp only [State.canon_mk, Hub.canon_mk, MemSt.canon_mk]) | apply And.intro | split)
theorem execLatchCommitDomain_canon (fn : Nat) (val : Word) (s : State) (h0 : s.canon) : ∃ t, execLatchCommitDomain fn val s = .next t ∧ t.canon := by
  refine ⟨_, rfl, ?_⟩
  repeat' (with_reducible first | assumption | (intro _) | apply AudMeter.next_canon | apply State.commitDom_canon | apply State.canon_hub | apply State.canon_mem | apply MemSt.canon_cells | apply Hub.canon_regs | apply Hub.canon_shadow | apply Hub.canon_hostMem | apply Hub.canon_if | apply State.canon_if | apply MemSt.canon_if | (simp only [State.canon_mk, Hub.canon_mk, MemSt.canon_mk]) | apply And.intro | split)
theorem State.armIn_canon (s : State) (a : Arm) (h0 : s.canon) : (State.armIn s a).canon := by
  unfold State.armIn
  repeat' (with_reducible first | assumption | (intro _) | apply State.canon_hub | apply State.canon_mem | apply MemSt.canon_cells | apply Hub.canon_regs | apply Hub.canon_shadow | apply Hub.canon_hostMem | apply Hub.canon_if | apply State.canon_if | apply MemSt.canon_if | (simp only [State.canon_mk, Hub.canon_mk, MemSt.canon_mk]) | apply And.intro | split)
theorem execArmReceive_canon (dev tag sec ns : Nat) (s : State) (h0 : s.canon) : ∃ t, execArmReceive dev tag sec ns s = .next t ∧ t.canon := by
  refine ⟨_, rfl, ?_⟩
  repeat' (with_reducible first | assumption | (intro _) | apply AudMeter.next_canon | apply State.armIn_canon | apply State.canon_hub | apply State.canon_mem | apply MemSt.canon_cells | apply Hub.canon_regs | apply Hub.canon_shadow | apply Hub.canon_hostMem | (simp only [State.canon_mk, Hub.canon_mk, MemSt.canon_mk]) | apply And.intro | split)
theorem execArmExpiry_canon (dev tag sec ns : Nat) (s : State) (h0 : s.canon) : ∃ t, execArmExpiry dev tag sec ns s = .next t ∧ t.canon := by
  refine ⟨_, rfl, ?_⟩
  repeat' (with_reducible first | assumption | (intro _) | apply AudMeter.next_canon | apply State.canon_hub | apply State.canon_mem | apply MemSt.canon_cells | apply Hub.canon_regs | apply Hub.canon_shadow | apply Hub.canon_hostMem | apply regsWf_filter | apply regsWf_kvFilter | apply memWf_filter | apply Hub.canon_if | apply State.canon_if | apply MemSt.canon_if | (simp only [State.canon_mk, Hub.canon_mk, MemSt.canon_mk]) | apply And.intro | split)
theorem execGroupGuardDecision_canon (num : Nat) (s : State) (h0 : s.canon) : ∃ t, execGroupGuardDecision num s = .next t ∧ t.canon := by
  refine ⟨_, rfl, ?_⟩
  repeat' (with_reducible first | assumption | (intro _) | apply AudMeter.next_canon | apply State.latchDecide_canon | apply State.latchPass_canon | apply State.canon_hub | apply State.canon_mem | apply MemSt.canon_cells | apply Hub.canon_regs | apply Hub.canon_shadow | apply Hub.canon_hostMem | apply Hub.canon_if | apply State.canon_if | apply MemSt.canon_if | (simp only [State.canon_mk, Hub.canon_mk, MemSt.canon_mk]) | apply And.intro | split)
theorem State.frameBoundary_canon (s : State) (ty i : Nat) (h0 : s.canon) : (State.frameBoundary s ty i).canon := by
  unfold State.frameBoundary
  repeat' (with_reducible first | assumption | (intro _) | apply State.workBoundary_canon | apply State.canon_hub | apply State.canon_mem | apply MemSt.canon_cells | apply Hub.canon_regs | apply Hub.canon_shadow | apply Hub.canon_hostMem | (simp only [State.canon_mk, Hub.canon_mk, MemSt.canon_mk]) | apply And.intro | split)
theorem execStripeStart_canon (x : EncStart) (s : State) (h0 : s.canon) : ∃ t, execStripeStart x s = .next t ∧ t.canon := by
  refine ⟨_, rfl, ?_⟩
  repeat' (with_reducible first | assumption | (intro _) | apply AudMeter.next_canon | apply State.done_canon | apply State.frameBoundary_canon | apply State.stripeStart_canon | apply State.canon_hub | apply State.canon_mem | apply MemSt.canon_cells | apply Hub.canon_regs | apply Hub.canon_shadow | apply Hub.canon_hostMem | apply Hub.canon_if | apply State.canon_if | apply MemSt.canon_if | (simp only [State.canon_mk, Hub.canon_mk, MemSt.canon_mk]) | apply And.intro | split)
theorem execCmpFrameInstant_canon (unit : Nat) (poisonTiles : List Nat) (s : State) (h0 : s.canon) : ∃ t, execCmpFrameInstant unit poisonTiles s = .next t ∧ t.canon := by
  unfold execCmpFrameInstant; try dsimp only
  (repeat' split) <;> refine ⟨_, rfl, ?_⟩ <;> try dsimp only
  all_goals repeat' (with_reducible first | assumption | (intro _) | apply AudMeter.next_canon | apply State.cmpInstant_canon | apply State.frameBoundary_canon | apply State.canon_hub | apply State.canon_mem | apply MemSt.canon_cells | apply Hub.canon_regs | apply Hub.canon_shadow | apply Hub.canon_hostMem | apply Hub.canon_if | apply State.canon_if | apply MemSt.canon_if | (simp only [State.canon_mk, Hub.canon_mk, MemSt.canon_mk]) | apply And.intro | split)
theorem execDecFrameDecode_canon (sash stream : Nat) (p : DecPicture) (s : State) (h0 : s.canon) : ∃ t, execDecFrameDecode sash stream p s = .next t ∧ t.canon := by
  refine ⟨_, rfl, ?_⟩
  repeat' (with_reducible first | assumption | (intro _) | apply AudMeter.next_canon | apply State.decFrame_canon | apply State.frameBoundary_canon | apply State.canon_hub | apply State.canon_mem | apply MemSt.canon_cells | apply Hub.canon_regs | apply Hub.canon_shadow | apply Hub.canon_hostMem | (simp only [State.canon_mk, Hub.canon_mk, MemSt.canon_mk]) | apply And.intro | split)
theorem execVinStripeStream_canon (vin frame k : Nat) (s : State) (h0 : s.canon) : ∃ t, execVinStripeStream vin frame k s = .next t ∧ t.canon := by
  refine ⟨_, rfl, ?_⟩
  repeat' (with_reducible first | assumption | (intro _) | apply AudMeter.next_canon | apply State.frameBoundary_canon | apply State.vinStream_canon | apply State.canon_hub | apply State.canon_mem | apply MemSt.canon_cells | apply Hub.canon_regs | apply Hub.canon_shadow | apply Hub.canon_hostMem | apply Hub.canon_if | apply State.canon_if | apply MemSt.canon_if | (simp only [State.canon_mk, Hub.canon_mk, MemSt.canon_mk]) | apply And.intro | split)
theorem execHngBundleExecute_canon (core sash : Nat) (s : State) (h0 : s.canon) : ∃ t, execHngBundleExecute core sash s = .next t ∧ t.canon := by
  refine ⟨_, rfl, ?_⟩
  repeat' (with_reducible first | assumption | (intro _) | apply AudMeter.next_canon | apply State.frameBoundary_canon | apply State.hngExecute_canon | apply State.canon_hub | apply State.canon_mem | apply MemSt.canon_cells | apply Hub.canon_regs | apply Hub.canon_shadow | apply Hub.canon_hostMem | apply Hub.canon_if | apply State.canon_if | apply MemSt.canon_if | (simp only [State.canon_mk, Hub.canon_mk, MemSt.canon_mk]) | apply And.intro | split)
theorem execHngHalt_canon (e : CmdEnv) (body : List Byte) (s : State) (h0 : s.canon) : ∃ t, execHngHalt e body s = .next t ∧ t.canon := by
  refine ⟨_, rfl, ?_⟩
  repeat' (with_reducible first | assumption | (intro _) | apply AudMeter.next_canon | apply State.done_canon | apply State.frameBoundary_canon | apply State.hngHalt_canon | apply State.canon_hub | apply State.canon_mem | apply MemSt.canon_cells | apply Hub.canon_regs | apply Hub.canon_shadow | apply Hub.canon_hostMem | (simp only [State.canon_mk, Hub.canon_mk, MemSt.canon_mk]) | apply And.intro | split)
theorem execSashWorkBoundary_canon (sash : Nat) (s : State) (h0 : s.canon) : ∃ t, execSashWorkBoundary sash s = .next t ∧ t.canon := by
  refine ⟨_, rfl, ?_⟩
  repeat' (with_reducible first | assumption | (intro _) | apply AudMeter.next_canon | apply State.rebuild_canon | apply State.workBoundary_canon | apply State.canon_hub | apply State.canon_mem | apply MemSt.canon_cells | apply Hub.canon_regs | apply Hub.canon_shadow | apply Hub.canon_hostMem | apply Hub.canon_if | apply State.canon_if | apply MemSt.canon_if | (simp only [State.canon_mk, Hub.canon_mk, MemSt.canon_mk]) | apply And.intro | split)
theorem State.secDrop_canon (s : State) (p : Nat) (h0 : s.canon) : (State.secDrop s p).1.canon := by
  unfold State.secDrop
  repeat' (with_reducible first | assumption | (intro _) | apply Hub.err_canon | apply MemSt.err_canon | apply State.canon_hub | apply State.canon_mem | apply MemSt.canon_cells | apply Hub.canon_regs | apply Hub.canon_shadow | apply Hub.canon_hostMem | (simp only [State.canon_mk, Hub.canon_mk, MemSt.canon_mk]) | apply And.intro | split)
theorem State.secRx_canon (s : State) (f : RxFrame) (an pn : Nat) (ok : Bool) (h0 : s.canon) : (State.secRx s f an pn ok).1.canon := by
  unfold State.secRx
  repeat' (with_reducible first | assumption | (intro _) | apply MemSt.poison_canon | apply State.cipher_canon | apply State.secDrop_canon | apply State.setSlot_canon | apply State.canon_hub | apply State.canon_mem | apply MemSt.canon_cells | apply Hub.canon_regs | apply Hub.canon_shadow | apply Hub.canon_hostMem | apply Hub.canon_if | apply State.canon_if | apply MemSt.canon_if | (simp only [State.canon_mk, Hub.canon_mk, MemSt.canon_mk]) | apply And.intro | split)
theorem State.secY_canon (s : State) (f : RxFrame) (h0 : s.canon) : (State.secY s f).1.canon := by
  unfold State.secY
  repeat' (with_reducible first | assumption | (intro _) | apply State.secDrop_canon | apply State.secRx_canon | apply State.canon_hub | apply State.canon_mem | apply MemSt.canon_cells | apply Hub.canon_regs | apply Hub.canon_shadow | apply Hub.canon_hostMem | apply Hub.canon_if | apply State.canon_if | apply MemSt.canon_if | (simp only [State.canon_mk, Hub.canon_mk, MemSt.canon_mk]) | apply And.intro | split)
theorem State.tunnelRx_canon (s : State) (f : RxFrame) (h0 : s.canon) : (State.tunnelRx s f).canon := by
  unfold State.tunnelRx
  repeat' (with_reducible first | assumption | (intro _) | apply Hub.emit_canon | apply Hub.err_canon | apply MemSt.err_canon | apply State.setLink_canon | apply State.canon_hub | apply State.canon_mem | apply MemSt.canon_cells | apply Hub.canon_regs | apply Hub.canon_shadow | apply Hub.canon_hostMem | apply Hub.canon_if | apply State.canon_if | apply MemSt.canon_if | (simp only [State.canon_mk, Hub.canon_mk, MemSt.canon_mk]) | apply And.intro | split)
theorem State.vinRx_canon (s : State) (f : RxFrame) (v entry : Nat) (h0 : s.canon) : (State.vinRx s f v entry).canon := by
  unfold State.vinRx
  repeat' (with_reducible first | assumption | (intro _) | apply Hub.emit_canon | apply State.vinNoPath_canon | apply State.vinPath_canon | apply State.canon_hub | apply State.canon_mem | apply MemSt.canon_cells | apply Hub.canon_regs | apply Hub.canon_shadow | apply Hub.canon_hostMem | apply Hub.canon_if | apply State.canon_if | apply MemSt.canon_if | (simp only [State.canon_mk, Hub.canon_mk, MemSt.canon_mk]) | apply And.intro | split)
theorem State.askSplice_canon (s : State) (h0 : s.canon) : (State.askSplice s).canon := by
  unfold State.askSplice
  repeat' (with_reducible first | assumption | (intro _) | apply State.splAsked_canon | apply State.canon_hub | apply State.canon_mem | apply MemSt.canon_cells | apply Hub.canon_regs | apply Hub.canon_shadow | apply Hub.canon_hostMem | apply Hub.canon_foldl | apply State.canon_foldl | apply MemSt.canon_foldl | apply State.canon_foldl_fst | (simp only [State.canon_mk, Hub.canon_mk, MemSt.canon_mk]) | apply And.intro | split)
theorem State.classifyAll_canon (s : State) (f : RxFrame) (h0 : s.canon) : (State.classifyAll s f).canon := by
  unfold State.classifyAll
  repeat' (with_reducible first | assumption | (intro _) | apply Hub.emit_canon | apply Hub.stat_canon | apply State.askSplice_canon | apply State.classify_canon | apply State.exception_canon | apply State.tunnelRx_canon | apply State.vinRx_canon | apply State.canon_hub | apply State.canon_mem | apply MemSt.canon_cells | apply Hub.canon_regs | apply Hub.canon_shadow | apply Hub.canon_hostMem | apply Hub.canon_if | apply State.canon_if | apply MemSt.canon_if | (simp only [State.canon_mk, Hub.canon_mk, MemSt.canon_mk]) | apply And.intro | split)
theorem State.frameRx_canon (s : State) (f : RxFrame) (h0 : s.canon) : (State.frameRx s f).canon := by
  unfold State.frameRx
  repeat' (with_reducible first | assumption | (intro _) | apply Hub.err_canon | apply Hub.raiseRl_canon | apply MemSt.err_canon | apply MemSt.poison_canon | apply State.classifyAll_canon | apply State.canon_hub | apply State.canon_mem | apply MemSt.canon_cells | apply Hub.canon_regs | apply Hub.canon_shadow | apply Hub.canon_hostMem | apply Hub.canon_if | apply State.canon_if | apply MemSt.canon_if | (simp only [State.canon_mk, Hub.canon_mk, MemSt.canon_mk]) | apply And.intro | split)
theorem State.macRx_canon (s : State) (f : RxFrame) (h0 : s.canon) : (State.macRx s f).canon := by
  unfold State.macRx
  repeat' (with_reducible first | assumption | (intro _) | apply Hub.err_canon | apply Hub.stat_canon | apply MemSt.err_canon | apply State.frameRx_canon | apply State.secY_canon | apply State.canon_hub | apply State.canon_mem | apply MemSt.canon_cells | apply Hub.canon_regs | apply Hub.canon_shadow | apply Hub.canon_hostMem | apply Hub.canon_if | apply State.canon_if | apply MemSt.canon_if | (simp only [State.canon_mk, Hub.canon_mk, MemSt.canon_mk]) | apply And.intro | split)
theorem execFrameClassify_canon (f : RxFrame) (s : State) (h0 : s.canon) : ∃ t, execFrameClassify f s = .next t ∧ t.canon := by
  refine ⟨_, rfl, ?_⟩
  repeat' (with_reducible first | assumption | (intro _) | apply AudMeter.next_canon | apply State.macRx_canon | apply State.offer_canon | apply State.canon_hub | apply State.canon_mem | apply MemSt.canon_cells | apply Hub.canon_regs | apply Hub.canon_shadow | apply Hub.canon_hostMem | apply Hub.canon_if | apply State.canon_if | apply MemSt.canon_if | (simp only [State.canon_mk, Hub.canon_mk, MemSt.canon_mk]) | apply And.intro | split)
theorem execDblFrameStart_canon (leg : Nat) (s : State) (h0 : s.canon) : ∃ t, execDblFrameStart leg s = .next t ∧ t.canon := by
  refine ⟨_, rfl, ?_⟩
  repeat' (with_reducible first | assumption | (intro _) | apply AudMeter.next_canon | apply Hub.emit_canon | apply State.canon_hub | apply State.canon_mem | apply MemSt.canon_cells | apply Hub.canon_regs | apply Hub.canon_shadow | apply Hub.canon_hostMem | apply Hub.canon_if | apply State.canon_if | apply MemSt.canon_if | (simp only [State.canon_mk, Hub.canon_mk, MemSt.canon_mk]) | apply And.intro | split)
theorem execDwellStart_canon (core recv : Nat) (s : State) (h0 : s.canon) : ∃ t, execDwellStart core recv s = .next t ∧ t.canon := by
  refine ⟨_, rfl, ?_⟩
  repeat' (with_reducible first | assumption | (intro _) | apply AudMeter.next_canon | apply Hub.err_canon | apply Hub.raise_canon | apply Hub.raiseRl_canon | apply MemSt.err_canon | apply State.dblStat_canon | apply State.canon_hub | apply State.canon_mem | apply MemSt.canon_cells | apply Hub.canon_regs | apply Hub.canon_shadow | apply Hub.canon_hostMem | apply Hub.canon_if | apply State.canon_if | apply MemSt.canon_if | apply Hub.canon_foldl | apply State.canon_foldl | apply MemSt.canon_foldl | apply State.canon_foldl_fst | (simp only [State.canon_mk, Hub.canon_mk, MemSt.canon_mk]) | apply And.intro | split)
theorem State.setDwell_canon (s : State) (core recv : Nat) (d : DblDwell) (h0 : s.canon) : (State.setDwell s core recv d).canon := by
  unfold State.setDwell
  repeat' (with_reducible first | assumption | (intro _) | apply State.canon_hub | apply State.canon_mem | apply MemSt.canon_cells | apply Hub.canon_regs | apply Hub.canon_shadow | apply Hub.canon_hostMem | (simp only [State.canon_mk, Hub.canon_mk, MemSt.canon_mk]) | apply And.intro | split)
theorem State.recepEnd_canon (s : State) (core recv : Nat) (d : DblDwell) (h0 : s.canon) : (State.recepEnd s core recv d).canon := by
  unfold State.recepEnd
  repeat' (with_reducible first | assumption | (intro _) | apply State.dwellsEnd_canon | apply State.setDwell_canon | apply State.canon_hub | apply State.canon_mem | apply MemSt.canon_cells | apply Hub.canon_regs | apply Hub.canon_shadow | apply Hub.canon_hostMem | apply Hub.canon_if | apply State.canon_if | apply MemSt.canon_if | (simp only [State.canon_mk, Hub.canon_mk, MemSt.canon_mk]) | apply And.intro | split)
theorem execDwellEnd_canon (core recv : Nat) (s : State) (h0 : s.canon) : ∃ t, execDwellEnd core recv s = .next t ∧ t.canon := by
  refine ⟨_, rfl, ?_⟩
  repeat' (with_reducible first | assumption | (intro _) | apply AudMeter.next_canon | apply State.dwellsEnd_canon | apply State.setDwell_canon | apply State.canon_hub | apply State.canon_mem | apply MemSt.canon_cells | apply Hub.canon_regs | apply Hub.canon_shadow | apply Hub.canon_hostMem | apply Hub.canon_if | apply State.canon_if | apply MemSt.canon_if | (simp only [State.canon_mk, Hub.canon_mk, MemSt.canon_mk]) | apply And.intro | split)
theorem State.dblErr_canon (s : State) (f : Fld) (h0 : s.canon) : (State.dblErr s f).canon := by
  unfold State.dblErr
  repeat' (with_reducible first | assumption | (intro _) | apply Hub.err_canon | apply MemSt.err_canon | apply State.canon_hub | apply State.canon_mem | apply MemSt.canon_cells | apply Hub.canon_regs | apply Hub.canon_shadow | apply Hub.canon_hostMem | (simp only [State.canon_mk, Hub.canon_mk, MemSt.canon_mk]) | apply And.intro | split)
theorem execPreambleAcquire_canon (core recv metric : Nat) (s : State) (h0 : s.canon) : ∃ t, execPreambleAcquire core recv metric s = .next t ∧ t.canon := by
  refine ⟨_, rfl, ?_⟩
  repeat' (with_reducible first | assumption | (intro _) | apply AudMeter.next_canon | apply State.dblErr_canon | apply State.setDwell_canon | apply State.canon_hub | apply State.canon_mem | apply MemSt.canon_cells | apply Hub.canon_regs | apply Hub.canon_shadow | apply Hub.canon_hostMem | apply Hub.canon_if | apply State.canon_if | apply MemSt.canon_if | (simp only [State.canon_mk, Hub.canon_mk, MemSt.canon_mk]) | apply And.intro | split)
theorem execSyncWordSearchEnd_canon (core recv : Nat) (found : Option Nat) (s : State) (h0 : s.canon) : ∃ t, execSyncWordSearchEnd core recv found s = .next t ∧ t.canon := by
  refine ⟨_, rfl, ?_⟩
  repeat' (with_reducible first | assumption | (intro _) | apply AudMeter.next_canon | apply State.dblErr_canon | apply State.recepEnd_canon | apply State.setDwell_canon | apply State.canon_hub | apply State.canon_mem | apply MemSt.canon_cells | apply Hub.canon_regs | apply Hub.canon_shadow | apply Hub.canon_hostMem | apply Hub.canon_if | apply State.canon_if | apply MemSt.canon_if | (simp only [State.canon_mk, Hub.canon_mk, MemSt.canon_mk]) | apply And.intro | split)
theorem execHeaderDecoded_canon (core recv : Nat) (s : State) (h0 : s.canon) : ∃ t, execHeaderDecoded core recv s = .next t ∧ t.canon := by
  refine ⟨_, rfl, ?_⟩
  repeat' (with_reducible first | assumption | (intro _) | apply AudMeter.next_canon | apply State.dblErr_canon | apply State.recepEnd_canon | apply State.setDwell_canon | apply State.canon_hub | apply State.canon_mem | apply MemSt.canon_cells | apply Hub.canon_regs | apply Hub.canon_shadow | apply Hub.canon_hostMem | apply Hub.canon_if | apply State.canon_if | apply MemSt.canon_if | (simp only [State.canon_mk, Hub.canon_mk, MemSt.canon_mk]) | apply And.intro | split)
theorem State.setEdges_canon (s : State) (edges : List (Nat × Nat × Nat)) (h0 : s.canon) : (State.setEdges s edges).canon := by
  unfold State.setEdges
  repeat' (with_reducible first | assumption | (intro _) | apply Hub.raiseAll_canon | apply State.audRoom_canon | apply State.canon_hub | apply State.canon_mem | apply MemSt.canon_cells | apply Hub.canon_regs | apply Hub.canon_shadow | apply Hub.canon_hostMem | apply regsWf_filter | apply regsWf_kvFilter | apply memWf_filter | apply Hub.canon_if | apply State.canon_if | apply MemSt.canon_if | (simp only [State.canon_mk, Hub.canon_mk, MemSt.canon_mk]) | apply And.intro | split)
theorem execEdgeTtlExpiry_canon (legA legB : Nat) (s : State) (h0 : s.canon) : ∃ t, execEdgeTtlExpiry legA legB s = .next t ∧ t.canon := by
  refine ⟨_, rfl, ?_⟩
  repeat' (with_reducible first | assumption | (intro _) | apply AudMeter.next_canon | apply State.setEdges_canon | apply State.canon_hub | apply State.canon_mem | apply MemSt.canon_cells | apply Hub.canon_regs | apply Hub.canon_shadow | apply Hub.canon_hostMem | apply regsWf_filter | apply regsWf_kvFilter | apply memWf_filter | apply Hub.canon_if | apply State.canon_if | apply MemSt.canon_if | (simp only [State.canon_mk, Hub.canon_mk, MemSt.canon_mk]) | apply And.intro | split)
theorem State.detected_canon (s : State) (a b : Nat) (h0 : s.canon) : (State.detected s a b).canon := by
  unfold State.detected
  repeat' (with_reducible first | assumption | (intro _) | apply State.setEdges_canon | apply State.canon_hub | apply State.canon_mem | apply MemSt.canon_cells | apply Hub.canon_regs | apply Hub.canon_shadow | apply Hub.canon_hostMem | apply regsWf_filter | apply regsWf_kvFilter | apply memWf_filter | apply Hub.canon_if | apply State.canon_if | apply MemSt.canon_if | (simp only [State.canon_mk, Hub.canon_mk, MemSt.canon_mk]) | apply And.intro | split)
theorem State.dblReport_canon (s : State) (leg metric token : Nat) (h0 : s.canon) : (State.dblReport s leg metric token).canon := by
  unfold State.dblReport
  repeat' (with_reducible first | assumption | (intro _) | apply Hub.err_canon | apply Hub.qpDeliver_canon | apply Hub.raiseRl_canon | apply Hub.stat_canon | apply MemSt.err_canon | apply State.detected_canon | apply State.canon_hub | apply State.canon_mem | apply MemSt.canon_cells | apply Hub.canon_regs | apply Hub.canon_shadow | apply Hub.canon_hostMem | apply Hub.canon_if | apply State.canon_if | apply MemSt.canon_if | (simp only [State.canon_mk, Hub.canon_mk, MemSt.canon_mk]) | apply And.intro | split)
theorem execPayloadDecoded_canon (core recv : Nat) (s : State) (h0 : s.canon) : ∃ t, execPayloadDecoded core recv s = .next t ∧ t.canon := by
  refine ⟨_, rfl, ?_⟩
  repeat' (with_reducible first | assumption | (intro _) | apply AudMeter.next_canon | apply Hub.err_canon | apply Hub.raiseRl_canon | apply MemSt.err_canon | apply State.dblReport_canon | apply State.recepEnd_canon | apply State.canon_hub | apply State.canon_mem | apply MemSt.canon_cells | apply Hub.canon_regs | apply Hub.canon_shadow | apply Hub.canon_hostMem | apply Hub.canon_if | apply State.canon_if | apply MemSt.canon_if | (simp only [State.canon_mk, Hub.canon_mk, MemSt.canon_mk]) | apply And.intro | split)
theorem execDblTx_canon (e : CmdEnv) (body : List Byte) (s : State) (h0 : s.canon) : ∃ t, execDblTx e body s = .next t ∧ t.canon := by
  refine ⟨_, rfl, ?_⟩
  repeat' (with_reducible first | assumption | (intro _) | apply AudMeter.next_canon | apply Hub.freeTick_canon | apply State.dblEnded_canon | apply State.dblStat_canon | apply State.done_canon | apply State.canon_hub | apply State.canon_mem | apply MemSt.canon_cells | apply Hub.canon_regs | apply Hub.canon_shadow | apply Hub.canon_hostMem | apply Hub.canon_if | apply State.canon_if | apply MemSt.canon_if | (simp only [State.canon_mk, Hub.canon_mk, MemSt.canon_mk]) | apply And.intro | split)
theorem execDblSurvey_canon (e : CmdEnv) (body : List Byte) (s : State) (h0 : s.canon) : ∃ t, execDblSurvey e body s = .next t ∧ t.canon := by
  refine ⟨_, rfl, ?_⟩
  repeat' (with_reducible first | assumption | (intro _) | apply AudMeter.next_canon | apply State.done_canon | apply State.canon_hub | apply State.canon_mem | apply MemSt.canon_cells | apply Hub.canon_regs | apply Hub.canon_shadow | apply Hub.canon_hostMem | apply Hub.canon_if | apply State.canon_if | apply MemSt.canon_if | (simp only [State.canon_mk, Hub.canon_mk, MemSt.canon_mk]) | apply And.intro | split)
theorem execDblGroup_canon (e : CmdEnv) (body : List Byte) (s : State) (h0 : s.canon) : ∃ t, execDblGroup e body s = .next t ∧ t.canon := by
  refine ⟨_, rfl, ?_⟩
  repeat' (with_reducible first | assumption | (intro _) | apply AudMeter.next_canon | apply State.done_canon | apply State.canon_hub | apply State.canon_mem | apply MemSt.canon_cells | apply Hub.canon_regs | apply Hub.canon_shadow | apply Hub.canon_hostMem | (simp only [State.canon_mk, Hub.canon_mk, MemSt.canon_mk]) | apply And.intro | split)
theorem State.dblBoundary_canon (s : State) (h0 : s.canon) : (State.dblBoundary s).canon := by
  unfold State.dblBoundary
  repeat' (with_reducible first | assumption | (intro _) | apply State.dblCheck_canon | apply State.dblEnded_canon | apply State.dwellCheck_canon | apply State.canon_hub | apply State.canon_mem | apply MemSt.canon_cells | apply Hub.canon_regs | apply Hub.canon_shadow | apply Hub.canon_hostMem | (simp only [State.canon_mk, Hub.canon_mk, MemSt.canon_mk]) | apply And.intro | split)
theorem Hub.clearMarks_canon (h : Hub) (mask : Nat) (h0 : h.canon) : (Hub.clearMarks h mask).canon := by
  unfold Hub.clearMarks
  repeat' (with_reducible first | assumption | (intro _) | apply State.canon_hub | apply State.canon_mem | apply MemSt.canon_cells | apply Hub.canon_regs | apply Hub.canon_shadow | apply Hub.canon_hostMem | apply regsWf_filter | apply regsWf_kvFilter | apply memWf_filter | apply Hub.canon_if | apply State.canon_if | apply MemSt.canon_if | (simp only [State.canon_mk, Hub.canon_mk, MemSt.canon_mk]) | apply And.intro | split)
theorem State.snapShort_canon (s : State) (x : Snap) (h0 : s.canon) : (State.snapShort s x).1.canon := by
  unfold State.snapShort
  repeat' (with_reducible first | assumption | (intro _) | apply Hub.raise_canon | apply State.canon_hub | apply State.canon_mem | apply MemSt.canon_cells | apply Hub.canon_regs | apply Hub.canon_shadow | apply Hub.canon_hostMem | apply Hub.canon_if | apply State.canon_if | apply MemSt.canon_if | (simp only [State.canon_mk, Hub.canon_mk, MemSt.canon_mk]) | apply And.intro | split)
theorem State.snapWrite_canon (s : State) (x : Snap) (rec : List Byte) (h0 : s.canon) : (State.snapWrite s x rec).1.canon := by
  unfold State.snapWrite
  repeat' (with_reducible first | assumption | (intro _) | apply Hub.hostWrite_canon | apply State.snapShort_canon | apply State.canon_hub | apply State.canon_mem | apply MemSt.canon_cells | apply Hub.canon_regs | apply Hub.canon_shadow | apply Hub.canon_hostMem | apply Hub.canon_if | apply State.canon_if | apply MemSt.canon_if | (simp only [State.canon_mk, Hub.canon_mk, MemSt.canon_mk]) | apply And.intro | split)
theorem State.snapDrain_canon (s : State) (x : Snap) (x0 : List Nat) (h0 : s.canon) : (State.snapDrain s x x0).1.canon := by
  induction x0 generalizing s x with
  | nil =>
    unfold State.snapDrain; try dsimp only
    repeat' (with_reducible first | assumption | (intro _) | apply State.snapWrite_canon | apply State.canon_hub | apply State.canon_mem | apply MemSt.canon_cells | apply Hub.canon_regs | apply Hub.canon_shadow | apply Hub.canon_hostMem | (simp only [State.canon_mk, Hub.canon_mk, MemSt.canon_mk]) | apply And.intro | split)
  | cons a l ih =>
    unfold State.snapDrain; try dsimp only
    repeat' (with_reducible first | assumption | (intro _) | apply ih | apply State.snapWrite_canon | apply State.canon_hub | apply State.canon_mem | apply MemSt.canon_cells | apply Hub.canon_regs | apply Hub.canon_shadow | apply Hub.canon_hostMem | (simp only [State.canon_mk, Hub.canon_mk, MemSt.canon_mk]) | apply And.intro | split)
theorem State.snapKeep_canon (r : State × Snap) (h0 : r.1.canon) : (State.snapKeep r).canon := by
  unfold State.snapKeep
  repeat' (with_reducible first | assumption | (intro _) | apply State.canon_hub | apply State.canon_mem | apply MemSt.canon_cells | apply Hub.canon_regs | apply Hub.canon_shadow | apply Hub.canon_hostMem | (simp only [State.canon_mk, Hub.canon_mk, MemSt.canon_mk]) | apply And.intro | split)
theorem State.snapOwn_canon (s : State) (step : Bool) (h0 : s.canon) : (State.snapOwn s step).canon := by
  unfold State.snapOwn
  repeat' (with_reducible first | assumption | (intro _) | apply Hub.clearMarks_canon | apply State.snapDrain_canon | apply State.snapKeep_canon | apply State.snapWrite_canon | apply State.canon_hub | apply State.canon_mem | apply MemSt.canon_cells | apply Hub.canon_regs | apply Hub.canon_shadow | apply Hub.canon_hostMem | apply Hub.canon_if | apply State.canon_if | apply MemSt.canon_if | (simp only [State.canon_mk, Hub.canon_mk, MemSt.canon_mk]) | apply And.intro | split)
theorem State.snapFor_canon (s : State) (a : SnapAsk) (h0 : s.canon) : (State.snapFor s a).canon := by
  unfold State.snapFor
  repeat' (with_reducible first | assumption | (intro _) | apply Hub.clearMarks_canon | apply State.jlSend_canon | apply State.canon_hub | apply State.canon_mem | apply MemSt.canon_cells | apply Hub.canon_regs | apply Hub.canon_shadow | apply Hub.canon_hostMem | apply Hub.canon_if | apply State.canon_if | apply MemSt.canon_if | (simp only [State.canon_mk, Hub.canon_mk, MemSt.canon_mk]) | apply And.intro | split)
theorem State.snapCapture_canon (s : State) (step : Bool) (h0 : s.canon) : (State.snapCapture s step).canon := by
  unfold State.snapCapture
  repeat' (with_reducible first | assumption | (intro _) | apply State.snapFor_canon | apply State.snapOwn_canon | apply State.canon_hub | apply State.canon_mem | apply MemSt.canon_cells | apply Hub.canon_regs | apply Hub.canon_shadow | apply Hub.canon_hostMem | apply regsWf_filter | apply regsWf_kvFilter | apply memWf_filter | apply Hub.canon_foldl | apply State.canon_foldl | apply MemSt.canon_foldl | apply State.canon_foldl_fst | (simp only [State.canon_mk, Hub.canon_mk, MemSt.canon_mk]) | apply And.intro | split)
theorem State.snapStart_canon (s : State) (val : Word) (at_ : LatchWhen) (members : List Nat) (h0 : s.canon) : (State.snapStart s val at_ members).canon := by
  unfold State.snapStart
  repeat' (with_reducible first | assumption | (intro _) | apply Hub.raise_canon | apply Hub.set_canon | apply State.canon_hub | apply State.canon_mem | apply MemSt.canon_cells | apply Hub.canon_regs | apply Hub.canon_shadow | apply Hub.canon_hostMem | (simp only [State.canon_mk, Hub.canon_mk, MemSt.canon_mk]) | apply And.intro | split)
theorem State.snapNext_canon (s : State) (val : Word) (hcLeft : Nat) (h0 : s.canon) : (State.snapNext s val hcLeft).canon := by
  unfold State.snapNext
  repeat' (with_reducible first | assumption | (intro _) | apply State.snapStart_canon | apply State.canon_hub | apply State.canon_mem | apply MemSt.canon_cells | apply Hub.canon_regs | apply Hub.canon_shadow | apply Hub.canon_hostMem | (simp only [State.canon_mk, Hub.canon_mk, MemSt.canon_mk]) | apply And.intro | split)
theorem State.snapSched_canon (s : State) (val : Word) (hcLeft : Nat) (h0 : s.canon) : (State.snapSched s val hcLeft).canon := by
  unfold State.snapSched
  repeat' (with_reducible first | assumption | (intro _) | apply State.jlSendAll_canon | apply State.snapStart_canon | apply State.canon_hub | apply State.canon_mem | apply MemSt.canon_cells | apply Hub.canon_regs | apply Hub.canon_shadow | apply Hub.canon_hostMem | apply Hub.canon_if | apply State.canon_if | apply MemSt.canon_if | (simp only [State.canon_mk, Hub.canon_mk, MemSt.canon_mk]) | apply And.intro | split)
theorem execSnapCmdNext_canon (val : Word) (hcLeft : Nat) (s : State) (h0 : s.canon) : ∃ t, execSnapCmdNext val hcLeft s = .next t ∧ t.canon := by
  refine ⟨_, rfl, ?_⟩
  repeat' (with_reducible first | assumption | (intro _) | apply AudMeter.next_canon | apply State.snapNext_canon | apply State.canon_hub | apply State.canon_mem | apply MemSt.canon_cells | apply Hub.canon_regs | apply Hub.canon_shadow | apply Hub.canon_hostMem | apply Hub.canon_if | apply State.canon_if | apply MemSt.canon_if | (simp only [State.canon_mk, Hub.canon_mk, MemSt.canon_mk]) | apply And.intro | split)
theorem execSnapCmdSched_canon (val : Word) (hcLeft : Nat) (s : State) (h0 : s.canon) : ∃ t, execSnapCmdSched val hcLeft s = .next t ∧ t.canon := by
  refine ⟨_, rfl, ?_⟩
  repeat' (with_reducible first | assumption | (intro _) | apply AudMeter.next_canon | apply State.snapSched_canon | apply State.canon_hub | apply State.canon_mem | apply MemSt.canon_cells | apply Hub.canon_regs | apply Hub.canon_shadow | apply Hub.canon_hostMem | apply Hub.canon_if | apply State.canon_if | apply MemSt.canon_if | (simp only [State.canon_mk, Hub.canon_mk, MemSt.canon_mk]) | apply And.intro | split)
theorem State.snapAsked_canon (s : State) (a : SnapAsk) (h0 : s.canon) : (State.snapAsked s a).canon := by
  unfold State.snapAsked
  repeat' (with_reducible first | assumption | (intro _) | apply State.canon_hub | apply State.canon_mem | apply MemSt.canon_cells | apply Hub.canon_regs | apply Hub.canon_shadow | apply Hub.canon_hostMem | (simp only [State.canon_mk, Hub.canon_mk, MemSt.canon_mk]) | apply And.intro | split)
theorem execSnapRequestReceive_canon (dev sec ns mask : Nat) (clr : Bool) (s : State) (h0 : s.canon) : ∃ t, execSnapRequestReceive dev sec ns mask clr s = .next t ∧ t.canon := by
  refine ⟨_, rfl, ?_⟩
  repeat' (with_reducible first | assumption | (intro _) | apply AudMeter.next_canon | apply State.snapAsked_canon | apply State.canon_hub | apply State.canon_mem | apply MemSt.canon_cells | apply Hub.canon_regs | apply Hub.canon_shadow | apply Hub.canon_hostMem | (simp only [State.canon_mk, Hub.canon_mk, MemSt.canon_mk]) | apply And.intro | split)
theorem State.snapIn_canon (s : State) (dev : Nat) (rec : List Byte) (h0 : s.canon) : (State.snapIn s dev rec).canon := by
  unfold State.snapIn
  repeat' (with_reducible first | assumption | (intro _) | apply State.snapDrain_canon | apply State.snapKeep_canon | apply State.canon_hub | apply State.canon_mem | apply MemSt.canon_cells | apply Hub.canon_regs | apply Hub.canon_shadow | apply Hub.canon_hostMem | apply Hub.canon_if | apply State.canon_if | apply MemSt.canon_if | (simp only [State.canon_mk, Hub.canon_mk, MemSt.canon_mk]) | apply And.intro | split)
theorem execSnapRecordReceive_canon (dev : Nat) (rec : List Byte) (s : State) (h0 : s.canon) : ∃ t, execSnapRecordReceive dev rec s = .next t ∧ t.canon := by
  refine ⟨_, rfl, ?_⟩
  repeat' (with_reducible first | assumption | (intro _) | apply AudMeter.next_canon | apply State.snapIn_canon | apply State.canon_hub | apply State.canon_mem | apply MemSt.canon_cells | apply Hub.canon_regs | apply Hub.canon_shadow | apply Hub.canon_hostMem | (simp only [State.canon_mk, Hub.canon_mk, MemSt.canon_mk]) | apply And.intro | split)
theorem execSnapMemberTimeout_canon (dev : Nat) (s : State) (h0 : s.canon) : ∃ t, execSnapMemberTimeout dev s = .next t ∧ t.canon := by
  refine ⟨_, rfl, ?_⟩
  repeat' (with_reducible first | assumption | (intro _) | apply AudMeter.next_canon | apply State.snapDrain_canon | apply State.snapKeep_canon | apply State.snapShort_canon | apply State.canon_hub | apply State.canon_mem | apply MemSt.canon_cells | apply Hub.canon_regs | apply Hub.canon_shadow | apply Hub.canon_hostMem | apply Hub.canon_if | apply State.canon_if | apply MemSt.canon_if | (simp only [State.canon_mk, Hub.canon_mk, MemSt.canon_mk]) | apply And.intro | split)
theorem execSnapDone_canon (s : State) (h0 : s.canon) : ∃ t, execSnapDone s = .next t ∧ t.canon := by
  refine ⟨_, rfl, ?_⟩
  repeat' (with_reducible first | assumption | (intro _) | apply AudMeter.next_canon | apply Hub.hostWrite_canon | apply Hub.raise_canon | apply Hub.set_canon | apply State.canon_hub | apply State.canon_mem | apply MemSt.canon_cells | apply Hub.canon_regs | apply Hub.canon_shadow | apply Hub.canon_hostMem | apply Hub.canon_if | apply State.canon_if | apply MemSt.canon_if | (simp only [State.canon_mk, Hub.canon_mk, MemSt.canon_mk]) | apply And.intro | split)
theorem Hub.zeroCounters_canon (h : Hub) (h0 : h.canon) : (Hub.zeroCounters h).canon := by
  unfold Hub.zeroCounters
  repeat' (with_reducible first | assumption | (intro _) | apply State.canon_hub | apply State.canon_mem | apply MemSt.canon_cells | apply Hub.canon_regs | apply Hub.canon_shadow | apply Hub.canon_hostMem | apply regsWf_filter | apply regsWf_kvFilter | apply memWf_filter | (simp only [State.canon_mk, Hub.canon_mk, MemSt.canon_mk]) | apply And.intro | split)
theorem Hub.stuckClear_canon (h : Hub) (evt : Nat) (h0 : h.canon) : (Hub.stuckClear h evt).canon := by
  unfold Hub.stuckClear
  repeat' (with_reducible first | assumption | (intro _) | apply State.canon_hub | apply State.canon_mem | apply MemSt.canon_cells | apply Hub.canon_regs | apply Hub.canon_shadow | apply Hub.canon_hostMem | apply regsWf_filter | apply regsWf_kvFilter | apply memWf_filter | (simp only [State.canon_mk, Hub.canon_mk, MemSt.canon_mk]) | apply And.intro | split)
theorem State.stuckClear_canon (s : State) (evt : Nat) (h0 : s.canon) : (State.stuckClear s evt).canon := by
  unfold State.stuckClear
  repeat' (with_reducible first | assumption | (intro _) | apply Hub.stuckClear_canon | apply State.canon_hub | apply State.canon_mem | apply MemSt.canon_cells | apply Hub.canon_regs | apply Hub.canon_shadow | apply Hub.canon_hostMem | apply Hub.canon_if | apply State.canon_if | apply MemSt.canon_if | (simp only [State.canon_mk, Hub.canon_mk, MemSt.canon_mk]) | apply And.intro | split)
theorem State.mediaStop_canon (s : State) (h0 : s.canon) : (State.mediaStop s).canon := by
  unfold State.mediaStop
  repeat' (with_reducible first | assumption | (intro _) | apply Hub.set1_canon | apply MemSt.store_canon | apply State.canon_hub | apply State.canon_mem | apply MemSt.canon_cells | apply Hub.canon_regs | apply Hub.canon_shadow | apply Hub.canon_hostMem | apply Hub.canon_foldl | apply State.canon_foldl | apply MemSt.canon_foldl | apply State.canon_foldl_fst | (simp only [State.canon_mk, Hub.canon_mk, MemSt.canon_mk]) | apply And.intro | split)
theorem State.audioStop_canon (s : State) (h0 : s.canon) : (State.audioStop s).canon := by
  unfold State.audioStop
  repeat' (with_reducible first | assumption | (intro _) | apply State.confEnd_canon | apply State.decClose_canon | apply State.encClose_canon | apply State.canon_hub | apply State.canon_mem | apply MemSt.canon_cells | apply Hub.canon_regs | apply Hub.canon_shadow | apply Hub.canon_hostMem | apply Hub.canon_foldl | apply State.canon_foldl | apply MemSt.canon_foldl | apply State.canon_foldl_fst | (simp only [State.canon_mk, Hub.canon_mk, MemSt.canon_mk]) | apply And.intro | split)
theorem State.queueStop_canon (s : State) (h0 : s.canon) : (State.queueStop s).canon := by
  unfold State.queueStop
  repeat' (with_reducible first | assumption | (intro _) | apply Hub.set1_canon | apply State.canon_hub | apply State.canon_mem | apply MemSt.canon_cells | apply Hub.canon_regs | apply Hub.canon_shadow | apply Hub.canon_hostMem | apply Hub.canon_foldl | apply State.canon_foldl | apply MemSt.canon_foldl | apply State.canon_foldl_fst | (simp only [State.canon_mk, Hub.canon_mk, MemSt.canon_mk]) | apply And.intro | split)
theorem Hub.keyIdle_canon (h : Hub) (h0 : h.canon) : (Hub.keyIdle h).canon := by
  have hr : ∀ k, k % 0x4000000 = CIP.KW_STAT.BUSY.base → regReset k = 0 := by
    intro k hk
    unfold regReset
    rw [hk]
    decide
  have hw := h0.1
  simp only [regsWf, Bool.and_eq_true] at hw
  refine ⟨?_, h0.2⟩
  simp only [regsWf, Bool.and_eq_true, Hub.keyIdle]
  refine ⟨kvSorted_filterMap _ (fun e x hx => ?_) _ hw.1, ?_⟩
  · split at hx
    · split at hx
      · cases hx
      · cases hx
        rfl
    · cases hx
      rfl
  · have ht := hw.2
    simp only [kvTight, List.all_eq_true, decide_eq_true_eq] at ht ⊢
    intro x hx
    obtain ⟨e, he, hex⟩ := List.mem_filterMap.1 hx
    split at hex
    · rename_i hk
      split at hex
      · cases hex
      · rename_i hz
        cases hex
        rw [hr _ hk]
        exact hz
    · cases hex
      exact ht _ he
theorem State.serviceStop_canon (s : State) (h0 : s.canon) : (State.serviceStop s).canon := by
  unfold State.serviceStop
  repeat' (with_reducible first | assumption | (intro _) | apply State.canon_hub | apply State.canon_mem | apply MemSt.canon_cells | apply Hub.canon_regs | apply Hub.canon_shadow | apply Hub.canon_hostMem | (simp only [State.canon_mk, Hub.canon_mk, MemSt.canon_mk]) | apply And.intro | split)
theorem State.bar2Abort_canon (s : State) (h0 : s.canon) : (State.bar2Abort s).canon := by
  unfold State.bar2Abort
  repeat' (with_reducible first | assumption | (intro _) | apply Hub.emits_canon | apply State.canon_hub | apply State.canon_mem | apply MemSt.canon_cells | apply Hub.canon_regs | apply Hub.canon_shadow | apply Hub.canon_hostMem | (simp only [State.canon_mk, Hub.canon_mk, MemSt.canon_mk]) | apply And.intro | split)
theorem State.linksDown_canon (s : State) (h0 : s.canon) : (State.linksDown s).canon := by
  unfold State.linksDown
  repeat' (with_reducible first | assumption | (intro _) | apply State.jlEnter_canon | apply State.canon_hub | apply State.canon_mem | apply MemSt.canon_cells | apply Hub.canon_regs | apply Hub.canon_shadow | apply Hub.canon_hostMem | apply regsWf_filter | apply regsWf_kvFilter | apply memWf_filter | apply Hub.canon_foldl | apply State.canon_foldl | apply MemSt.canon_foldl | apply State.canon_foldl_fst | (simp only [State.canon_mk, Hub.canon_mk, MemSt.canon_mk]) | apply And.intro | split)
theorem Hub.stacksTo_canon (h : Hub) (old new : Nat) (h0 : h.canon) : (Hub.stacksTo h old new).canon := by
  unfold Hub.stacksTo
  repeat' (with_reducible first | assumption | (intro _) | apply Hub.set1_canon | apply State.canon_hub | apply State.canon_mem | apply MemSt.canon_cells | apply Hub.canon_regs | apply Hub.canon_shadow | apply Hub.canon_hostMem | apply Hub.canon_if | apply State.canon_if | apply MemSt.canon_if | apply Hub.canon_foldl | apply State.canon_foldl | apply MemSt.canon_foldl | apply State.canon_foldl_fst | (simp only [State.canon_mk, Hub.canon_mk, MemSt.canon_mk]) | apply And.intro | split)
theorem State.latchStop_canon (s : State) (h0 : s.canon) : (State.latchStop s).canon := by
  unfold State.latchStop
  repeat' (with_reducible first | assumption | (intro _) | apply State.itemApply_canon | apply State.latchStatus_canon | apply State.persSet_canon | apply State.canon_hub | apply State.canon_mem | apply MemSt.canon_cells | apply Hub.canon_regs | apply Hub.canon_shadow | apply Hub.canon_hostMem | apply Hub.canon_foldl | apply State.canon_foldl | apply MemSt.canon_foldl | apply State.canon_foldl_fst | (simp only [State.canon_mk, Hub.canon_mk, MemSt.canon_mk]) | apply And.intro | split)
theorem State.loaderStop_canon (s : State) (h0 : s.canon) : (State.loaderStop s).canon := by
  unfold State.loaderStop
  repeat' (with_reducible first | assumption | (intro _) | apply Hub.set_canon | apply State.canon_hub | apply State.canon_mem | apply MemSt.canon_cells | apply Hub.canon_regs | apply Hub.canon_shadow | apply Hub.canon_hostMem | apply Hub.canon_if | apply State.canon_if | apply MemSt.canon_if | (simp only [State.canon_mk, Hub.canon_mk, MemSt.canon_mk]) | apply And.intro | split)
theorem State.fabricStop_canon (s : State) (h0 : s.canon) : (State.fabricStop s).canon := by
  unfold State.fabricStop
  repeat' (with_reducible first | assumption | (intro _) | apply Hub.set64_canon | apply State.canon_hub | apply State.canon_mem | apply MemSt.canon_cells | apply Hub.canon_regs | apply Hub.canon_shadow | apply Hub.canon_hostMem | apply Hub.canon_if | apply State.canon_if | apply MemSt.canon_if | (simp only [State.canon_mk, Hub.canon_mk, MemSt.canon_mk]) | apply And.intro | split)
theorem State.coreStop_canon (s : State) (h0 : s.canon) : (State.coreStop s).canon := by
  unfold State.coreStop
  repeat' (with_reducible first | assumption | (intro _) | apply Hub.keyIdle_canon | apply Hub.stacksTo_canon | apply Hub.zeroCounters_canon | apply State.audioStop_canon | apply State.bar2Abort_canon | apply State.bistAbort_canon | apply State.fabricStop_canon | apply State.hngWarm_canon | apply State.latchStop_canon | apply State.linksDown_canon | apply State.loaderStop_canon | apply State.mediaStop_canon | apply State.mergeFlushAll_canon | apply State.queueStop_canon | apply State.serviceStop_canon | apply State.timeLoss_canon | apply State.canon_hub | apply State.canon_mem | apply MemSt.canon_cells | apply Hub.canon_regs | apply Hub.canon_shadow | apply Hub.canon_hostMem | apply Hub.canon_foldl | apply State.canon_foldl | apply MemSt.canon_foldl | apply State.canon_foldl_fst | (simp only [State.canon_mk, Hub.canon_mk, MemSt.canon_mk]) | apply And.intro | split)
theorem State.startRead_canon (s : State) (bank : Bool) (h0 : s.canon) : (State.startRead s bank).canon := by
  unfold State.startRead
  repeat' (with_reducible first | assumption | (intro _) | apply Hub.noMagic_canon | apply Hub.set_canon | apply State.canon_hub | apply State.canon_mem | apply MemSt.canon_cells | apply Hub.canon_regs | apply Hub.canon_shadow | apply Hub.canon_hostMem | apply Hub.canon_if | apply State.canon_if | apply MemSt.canon_if | (simp only [State.canon_mk, Hub.canon_mk, MemSt.canon_mk]) | apply And.intro | split)
theorem State.startLoad_canon (s : State) (bank : Bool) (h0 : s.canon) : (State.startLoad s bank).canon := by
  unfold State.startLoad
  repeat' (with_reducible first | assumption | (intro _) | apply State.loadStart_canon | apply State.canon_hub | apply State.canon_mem | apply MemSt.canon_cells | apply Hub.canon_regs | apply Hub.canon_shadow | apply Hub.canon_hostMem | (simp only [State.canon_mk, Hub.canon_mk, MemSt.canon_mk]) | apply And.intro | split)
theorem State.warmImage_canon (s : State) (h0 : s.canon) : (State.warmImage s).canon := by
  unfold State.warmImage
  repeat' (with_reducible first | assumption | (intro _) | apply State.hngWarm_canon | apply State.startRead_canon | apply State.canon_hub | apply State.canon_mem | apply MemSt.canon_cells | apply Hub.canon_regs | apply Hub.canon_shadow | apply Hub.canon_hostMem | apply Hub.canon_if | apply State.canon_if | apply MemSt.canon_if | (simp only [State.canon_mk, Hub.canon_mk, MemSt.canon_mk]) | apply And.intro | split)
theorem State.bankPut_canon (s : State) (o : Nat) (b : Byte) (h0 : s.canon) : (State.bankPut s o b).canon := by
  unfold State.bankPut
  repeat' (with_reducible first | assumption | (intro _) | apply MemSt.putByte_canon | apply State.canon_hub | apply State.canon_mem | apply MemSt.canon_cells | apply Hub.canon_regs | apply Hub.canon_shadow | apply Hub.canon_hostMem | (simp only [State.canon_mk, Hub.canon_mk, MemSt.canon_mk]) | apply And.intro | split)
theorem State.bankClear_canon (s : State) (n : Nat) (h0 : s.canon) : (State.bankClear s n).canon := by
  unfold State.bankClear
  repeat' (with_reducible first | assumption | (intro _) | apply MemSt.putByte_canon | apply State.canon_hub | apply State.canon_mem | apply MemSt.canon_cells | apply Hub.canon_regs | apply Hub.canon_shadow | apply Hub.canon_hostMem | apply regsWf_filter | apply regsWf_kvFilter | apply memWf_filter | apply Hub.canon_foldl | apply State.canon_foldl | apply MemSt.canon_foldl | apply State.canon_foldl_fst | (simp only [State.canon_mk, Hub.canon_mk, MemSt.canon_mk]) | apply And.intro | split)
theorem State.flashCopy_canon (s : State) (h0 : s.canon) : (State.flashCopy s).canon := by
  unfold State.flashCopy
  repeat' (with_reducible first | assumption | (intro _) | apply Hub.set_canon | apply State.bankClear_canon | apply State.bankPut_canon | apply State.canon_hub | apply State.canon_mem | apply MemSt.canon_cells | apply Hub.canon_regs | apply Hub.canon_shadow | apply Hub.canon_hostMem | apply regsWf_filter | apply regsWf_kvFilter | apply memWf_filter | apply Hub.canon_if | apply State.canon_if | apply MemSt.canon_if | apply Hub.canon_foldl | apply State.canon_foldl | apply MemSt.canon_foldl | apply State.canon_foldl_fst | (simp only [State.canon_mk, Hub.canon_mk, MemSt.canon_mk]) | apply And.intro | split)
theorem State.fwBegin_canon (s : State) (h0 : s.canon) : (State.fwBegin s).canon := by
  unfold State.fwBegin
  repeat' (with_reducible first | assumption | (intro _) | apply Hub.set1_canon | apply State.canon_hub | apply State.canon_mem | apply MemSt.canon_cells | apply Hub.canon_regs | apply Hub.canon_shadow | apply Hub.canon_hostMem | apply Hub.canon_if | apply State.canon_if | apply MemSt.canon_if | apply Hub.canon_foldl | apply State.canon_foldl | apply MemSt.canon_foldl | apply State.canon_foldl_fst | (simp only [State.canon_mk, Hub.canon_mk, MemSt.canon_mk]) | apply And.intro | split)
theorem State.fwVerify_canon (s : State) (oks : List Bool) (h0 : s.canon) : (State.fwVerify s oks).canon := by
  unfold State.fwVerify
  repeat' (with_reducible first | assumption | (intro _) | apply Hub.raise_canon | apply Hub.set1_canon | apply State.canon_hub | apply State.canon_mem | apply MemSt.canon_cells | apply Hub.canon_regs | apply Hub.canon_shadow | apply Hub.canon_hostMem | apply regsWf_filter | apply regsWf_kvFilter | apply memWf_filter | apply Hub.canon_if | apply State.canon_if | apply MemSt.canon_if | apply Hub.canon_foldl | apply State.canon_foldl | apply MemSt.canon_foldl | apply State.canon_foldl_fst | (simp only [State.canon_mk, Hub.canon_mk, MemSt.canon_mk]) | apply And.intro | split)
theorem Hub.coreRun_canon (h : Hub) (n svc : Nat) (h0 : h.canon) : (Hub.coreRun h n svc).canon := by
  unfold Hub.coreRun
  repeat' (with_reducible first | assumption | (intro _) | apply Hub.set1_canon | apply Hub.svcCore_canon | apply State.canon_hub | apply State.canon_mem | apply MemSt.canon_cells | apply Hub.canon_regs | apply Hub.canon_shadow | apply Hub.canon_hostMem | (simp only [State.canon_mk, Hub.canon_mk, MemSt.canon_mk]) | apply And.intro | split)
theorem State.lintelStart_canon (s : State) (h0 : s.canon) : (State.lintelStart s).canon := by
  unfold State.lintelStart
  repeat' (with_reducible first | assumption | (intro _) | apply Hub.coreRun_canon | apply Hub.set1_canon | apply State.svcStart_canon | apply State.canon_hub | apply State.canon_mem | apply MemSt.canon_cells | apply Hub.canon_regs | apply Hub.canon_shadow | apply Hub.canon_hostMem | apply regsWf_filter | apply regsWf_kvFilter | apply memWf_filter | apply Hub.canon_if | apply State.canon_if | apply MemSt.canon_if | apply Hub.canon_foldl | apply State.canon_foldl | apply MemSt.canon_foldl | apply State.canon_foldl_fst | (simp only [State.canon_mk, Hub.canon_mk, MemSt.canon_mk]) | apply And.intro | split)
theorem State.marchFails_canon (s : State) (l : List MarchFail) (h0 : s.canon) : (State.marchFails s l).canon := by
  unfold State.marchFails
  repeat' (with_reducible first | assumption | (intro _) | apply State.permanent_canon | apply State.transient_canon | apply State.canon_hub | apply State.canon_mem | apply MemSt.canon_cells | apply Hub.canon_regs | apply Hub.canon_shadow | apply Hub.canon_hostMem | apply Hub.canon_if | apply State.canon_if | apply MemSt.canon_if | apply Hub.canon_foldl | apply State.canon_foldl | apply MemSt.canon_foldl | apply State.canon_foldl_fst | (simp only [State.canon_mk, Hub.canon_mk, MemSt.canon_mk]) | apply And.intro | split)
theorem MemSt.sramLost_canon (m : MemSt) (h0 : m.canon) : (MemSt.sramLost m).canon := by
  unfold MemSt.sramLost
  repeat' (with_reducible first | assumption | (intro _) | apply State.canon_hub | apply State.canon_mem | apply MemSt.canon_cells | apply Hub.canon_regs | apply Hub.canon_shadow | apply Hub.canon_hostMem | apply regsWf_filter | apply regsWf_kvFilter | apply memWf_filter | (simp only [State.canon_mk, Hub.canon_mk, MemSt.canon_mk]) | apply And.intro | split)
theorem State.marchSram_canon (s : State) (l : List MarchFail) (h0 : s.canon) : (State.marchSram s l).canon := by
  unfold State.marchSram
  repeat' (with_reducible first | assumption | (intro _) | apply Hub.raise_canon | apply MemSt.sramLost_canon | apply State.marchFails_canon | apply State.canon_hub | apply State.canon_mem | apply MemSt.canon_cells | apply Hub.canon_regs | apply Hub.canon_shadow | apply Hub.canon_hostMem | (simp only [State.canon_mk, Hub.canon_mk, MemSt.canon_mk]) | apply And.intro | split)
theorem State.otpApply_canon (s : State) (e : Nat) (h0 : s.canon) : (State.otpApply s e).canon := by
  unfold State.otpApply
  repeat' (with_reducible first | assumption | (intro _) | apply Hub.chanRetired_canon | apply Hub.chanSet_canon | apply Hub.laneSleep_canon | apply Hub.raise_canon | apply State.canon_hub | apply State.canon_mem | apply MemSt.canon_cells | apply Hub.canon_regs | apply Hub.canon_shadow | apply Hub.canon_hostMem | apply Hub.canon_if | apply State.canon_if | apply MemSt.canon_if | (simp only [State.canon_mk, Hub.canon_mk, MemSt.canon_mk]) | apply And.intro | split)
theorem State.otpLoad_canon (s : State) (h0 : s.canon) : (State.otpLoad s).canon := by
  unfold State.otpLoad
  repeat' (with_reducible first | assumption | (intro _) | apply State.otpApply_canon | apply State.shutterTrigger_canon | apply State.canon_hub | apply State.canon_mem | apply MemSt.canon_cells | apply Hub.canon_regs | apply Hub.canon_shadow | apply Hub.canon_hostMem | apply Hub.canon_if | apply State.canon_if | apply MemSt.canon_if | apply Hub.canon_foldl | apply State.canon_foldl | apply MemSt.canon_foldl | apply State.canon_foldl_fst | (simp only [State.canon_mk, Hub.canon_mk, MemSt.canon_mk]) | apply And.intro | split)
theorem Hub.wrAll_canon (h : Hub) (l : List (Nat × Nat)) (h0 : h.canon) : (Hub.wrAll h l).canon := by
  unfold Hub.wrAll
  repeat' (with_reducible first | assumption | (intro _) | apply Hub.wr_canon | apply State.canon_hub | apply State.canon_mem | apply MemSt.canon_cells | apply Hub.canon_regs | apply Hub.canon_shadow | apply Hub.canon_hostMem | apply Hub.canon_foldl | apply State.canon_foldl | apply MemSt.canon_foldl | apply State.canon_foldl_fst | (simp only [State.canon_mk, Hub.canon_mk, MemSt.canon_mk]) | apply And.intro | split)
theorem State.derived_canon (s : State) (h0 : s.canon) : (State.derived s).canon := by
  unfold State.derived
  repeat' (with_reducible first | assumption | (intro _) | apply Hub.set_canon | apply Hub.set1_canon | apply Hub.wrAll_canon | apply State.canon_hub | apply State.canon_mem | apply MemSt.canon_cells | apply Hub.canon_regs | apply Hub.canon_shadow | apply Hub.canon_hostMem | apply Hub.canon_foldl | apply State.canon_foldl | apply MemSt.canon_foldl | apply State.canon_foldl_fst | (simp only [State.canon_mk, Hub.canon_mk, MemSt.canon_mk]) | apply And.intro | split)
theorem State.periodLost_canon (code : Nat) (f : Fld) (s : State) (n : Nat) (h0 : s.canon) : (State.periodLost code f s n).canon := by
  unfold State.periodLost
  repeat' (with_reducible first | assumption | (intro _) | apply Hub.err_canon | apply Hub.evtSet_canon | apply Hub.raiseRl_canon | apply MemSt.err_canon | apply State.canon_hub | apply State.canon_mem | apply MemSt.canon_cells | apply Hub.canon_regs | apply Hub.canon_shadow | apply Hub.canon_hostMem | apply Hub.canon_if | apply State.canon_if | apply MemSt.canon_if | (simp only [State.canon_mk, Hub.canon_mk, MemSt.canon_mk]) | apply And.intro | split)
theorem State.periodEnds_canon (s : State) (h0 : s.canon) : (State.periodEnds s).canon := by
  unfold State.periodEnds
  repeat' (with_reducible first | assumption | (intro _) | apply State.periodLost_canon | apply State.canon_hub | apply State.canon_mem | apply MemSt.canon_cells | apply Hub.canon_regs | apply Hub.canon_shadow | apply Hub.canon_hostMem | apply regsWf_filter | apply regsWf_kvFilter | apply memWf_filter | apply Hub.canon_if | apply State.canon_if | apply MemSt.canon_if | apply Hub.canon_foldl | apply State.canon_foldl | apply MemSt.canon_foldl | apply State.canon_foldl_fst | (simp only [State.canon_mk, Hub.canon_mk, MemSt.canon_mk]) | apply And.intro | split)
theorem State.emergRelease_canon (s : State) (h0 : s.canon) : (State.emergRelease s).canon := by
  unfold State.emergRelease
  repeat' (with_reducible first | assumption | (intro _) | apply Hub.postHeld_canon | apply Hub.raise_canon | apply Hub.set1_canon | apply State.canon_hub | apply State.canon_mem | apply MemSt.canon_cells | apply Hub.canon_regs | apply Hub.canon_shadow | apply Hub.canon_hostMem | apply Hub.canon_if | apply State.canon_if | apply MemSt.canon_if | apply Hub.canon_foldl | apply State.canon_foldl | apply MemSt.canon_foldl | apply State.canon_foldl_fst | (simp only [State.canon_mk, Hub.canon_mk, MemSt.canon_mk]) | apply And.intro | split)
theorem State.refill_canon (s : State) (h0 : s.canon) : (State.refill s).canon := by
  unfold State.refill
  repeat' (with_reducible first | assumption | (intro _) | apply State.canon_hub | apply State.canon_mem | apply MemSt.canon_cells | apply Hub.canon_regs | apply Hub.canon_shadow | apply Hub.canon_hostMem | (simp only [State.canon_mk, Hub.canon_mk, MemSt.canon_mk]) | apply And.intro | split)
theorem State.loadWaits_canon (s0 : State) (h0 : s0.canon) : (State.loadWaits s0).canon := by
  unfold State.loadWaits
  repeat' (with_reducible first | assumption | (intro _) | apply State.loadFree_canon | apply State.loadRequest_canon | apply State.canon_hub | apply State.canon_mem | apply MemSt.canon_cells | apply Hub.canon_regs | apply Hub.canon_shadow | apply Hub.canon_hostMem | apply Hub.canon_if | apply State.canon_if | apply MemSt.canon_if | (simp only [State.canon_mk, Hub.canon_mk, MemSt.canon_mk]) | apply And.intro | split)
theorem Hub.signalBoundary_canon (h : Hub) (h0 : h.canon) : (Hub.signalBoundary h).canon := by
  unfold Hub.signalBoundary
  repeat' (with_reducible first | assumption | (intro _) | apply Hub.msiBoundary_canon | apply Hub.qpSignal_canon | apply State.canon_hub | apply State.canon_mem | apply MemSt.canon_cells | apply Hub.canon_regs | apply Hub.canon_shadow | apply Hub.canon_hostMem | apply Hub.canon_foldl | apply State.canon_foldl | apply MemSt.canon_foldl | apply State.canon_foldl_fst | (simp only [State.canon_mk, Hub.canon_mk, MemSt.canon_mk]) | apply And.intro | split)
theorem Hub.gapBoundary_canon (h : Hub) (h0 : h.canon) : (Hub.gapBoundary h).canon := by
  unfold Hub.gapBoundary
  repeat' (with_reducible first | assumption | (intro _) | apply Hub.fifoGap_canon | apply State.canon_hub | apply State.canon_mem | apply MemSt.canon_cells | apply Hub.canon_regs | apply Hub.canon_shadow | apply Hub.canon_hostMem | apply Hub.canon_if | apply State.canon_if | apply MemSt.canon_if | apply Hub.canon_foldl | apply State.canon_foldl | apply MemSt.canon_foldl | apply State.canon_foldl_fst | (simp only [State.canon_mk, Hub.canon_mk, MemSt.canon_mk]) | apply And.intro | split)
theorem State.secondEnds_canon (s : State) (h0 : s.canon) : (State.secondEnds s).canon := by
  unfold State.secondEnds
  repeat' (with_reducible first | assumption | (intro _) | apply Hub.rlFlush_canon | apply State.canon_hub | apply State.canon_mem | apply MemSt.canon_cells | apply Hub.canon_regs | apply Hub.canon_shadow | apply Hub.canon_hostMem | apply regsWf_filter | apply regsWf_kvFilter | apply memWf_filter | (simp only [State.canon_mk, Hub.canon_mk, MemSt.canon_mk]) | apply And.intro | split)
theorem Hub.therm_canon (h : Hub) (sensors : List (Nat × Int)) (h0 : h.canon) : (Hub.therm h sensors).canon := by
  unfold Hub.therm
  repeat' (with_reducible first | assumption | (intro _) | apply Hub.set_canon | apply State.canon_hub | apply State.canon_mem | apply MemSt.canon_cells | apply Hub.canon_regs | apply Hub.canon_shadow | apply Hub.canon_hostMem | apply Hub.canon_if | apply State.canon_if | apply MemSt.canon_if | apply Hub.canon_getD | apply Hub.canon_foldl | apply State.canon_foldl | apply MemSt.canon_foldl | apply State.canon_foldl_fst | (simp only [State.canon_mk, Hub.canon_mk, MemSt.canon_mk]) | apply And.intro | split)
theorem State.hotWatch_canon (s : State) (h0 : s.canon) : (State.hotWatch s).canon := by
  unfold State.hotWatch
  repeat' (with_reducible first | assumption | (intro _) | apply State.canon_hub | apply State.canon_mem | apply MemSt.canon_cells | apply Hub.canon_regs | apply Hub.canon_shadow | apply Hub.canon_hostMem | apply Hub.canon_if | apply State.canon_if | apply MemSt.canon_if | (simp only [State.canon_mk, Hub.canon_mk, MemSt.canon_mk]) | apply And.intro | split)
theorem State.publish_canon (s : State) (h0 : s.canon) : (State.publish s).canon := by
  unfold State.publish
  repeat' (with_reducible first | assumption | (intro _) | apply Hub.set64_canon | apply State.derived_canon | apply State.canon_hub | apply State.canon_mem | apply MemSt.canon_cells | apply Hub.canon_regs | apply Hub.canon_shadow | apply Hub.canon_hostMem | (simp only [State.canon_mk, Hub.canon_mk, MemSt.canon_mk]) | apply And.intro | split)
theorem State.published_canon (s : State) (h0 : s.canon) : (State.published s).canon := by
  unfold State.published
  repeat' (with_reducible first | assumption | (intro _) | apply Hub.set64_canon | apply State.canon_hub | apply State.canon_mem | apply MemSt.canon_cells | apply Hub.canon_regs | apply Hub.canon_shadow | apply Hub.canon_hostMem | apply Hub.canon_if | apply State.canon_if | apply MemSt.canon_if | (simp only [State.canon_mk, Hub.canon_mk, MemSt.canon_mk]) | apply And.intro | split)
theorem execPublicationDone_canon (s : State) (h0 : s.canon) : ∃ t, execPublicationDone s = .next t ∧ t.canon := by
  refine ⟨_, rfl, ?_⟩
  repeat' (with_reducible first | assumption | (intro _) | apply AudMeter.next_canon | apply State.published_canon | apply State.canon_hub | apply State.canon_mem | apply MemSt.canon_cells | apply Hub.canon_regs | apply Hub.canon_shadow | apply Hub.canon_hostMem | apply Hub.canon_if | apply State.canon_if | apply MemSt.canon_if | (simp only [State.canon_mk, Hub.canon_mk, MemSt.canon_mk]) | apply And.intro | split)
theorem State.periodBegins_canon (s : State) (p : Nat) (h0 : s.canon) : (State.periodBegins s p).canon := by
  unfold State.periodBegins
  repeat' (with_reducible first | assumption | (intro _) | apply Hub.set64_canon | apply State.canon_hub | apply State.canon_mem | apply MemSt.canon_cells | apply Hub.canon_regs | apply Hub.canon_shadow | apply Hub.canon_hostMem | (simp only [State.canon_mk, Hub.canon_mk, MemSt.canon_mk]) | apply And.intro | split)
theorem State.boundaryWork_canon (s : State) (step : Bool) (sensors : Option (List (Nat × Int))) (h0 : s.canon) : (State.boundaryWork s step sensors).canon := by
  unfold State.boundaryWork
  repeat' (with_reducible first | assumption | (intro _) | apply Hub.gapBoundary_canon | apply Hub.signalBoundary_canon | apply Hub.therm_canon | apply State.audBoundary_canon | apply State.boundaryLatches_canon | apply State.dblBoundary_canon | apply State.emergRelease_canon | apply State.hotWatch_canon | apply State.loadWaits_canon | apply State.publish_canon | apply State.quietBoundary_canon | apply State.refill_canon | apply State.sample_canon | apply State.secondEnds_canon | apply State.snapCapture_canon | apply State.tsoBoundary_canon | apply State.canon_hub | apply State.canon_mem | apply MemSt.canon_cells | apply Hub.canon_regs | apply Hub.canon_shadow | apply Hub.canon_hostMem | apply Hub.canon_getD | (simp only [State.canon_mk, Hub.canon_mk, MemSt.canon_mk]) | apply And.intro | split)
theorem State.boundary_canon (s : State) (step : Bool) (sensors : Option (List (Nat × Int))) (h0 : s.canon) : (State.boundary s step sensors).canon := by
  unfold State.boundary
  repeat' (with_reducible first | assumption | (intro _) | apply State.boundaryLatches_canon | apply State.boundaryWork_canon | apply State.loadWaits_canon | apply State.periodBegins_canon | apply State.secondEnds_canon | apply State.canon_hub | apply State.canon_mem | apply MemSt.canon_cells | apply Hub.canon_regs | apply Hub.canon_shadow | apply Hub.canon_hostMem | apply Hub.canon_if | apply State.canon_if | apply MemSt.canon_if | apply Hub.canon_getD | (simp only [State.canon_mk, Hub.canon_mk, MemSt.canon_mk]) | apply And.intro | split)
theorem State.toBoundary_canon (s : State) (h0 : s.canon) : (State.toBoundary s).canon := by
  unfold State.toBoundary
  repeat' (with_reducible first | assumption | (intro _) | apply State.canon_hub | apply State.canon_mem | apply MemSt.canon_cells | apply Hub.canon_regs | apply Hub.canon_shadow | apply Hub.canon_hostMem | apply Hub.canon_if | apply State.canon_if | apply MemSt.canon_if | (simp only [State.canon_mk, Hub.canon_mk, MemSt.canon_mk]) | apply And.intro | split)
theorem execLouvreBoundary_canon (sensors : List (Nat × Int)) (s : State) (h0 : s.canon) : ∃ t, execLouvreBoundary sensors s = .next t ∧ t.canon := by
  refine ⟨_, rfl, ?_⟩
  repeat' (with_reducible first | assumption | (intro _) | apply AudMeter.next_canon | apply State.boundary_canon | apply State.periodEnds_canon | apply State.toBoundary_canon | apply State.canon_hub | apply State.canon_mem | apply MemSt.canon_cells | apply Hub.canon_regs | apply Hub.canon_shadow | apply Hub.canon_hostMem | apply Hub.canon_if | apply State.canon_if | apply MemSt.canon_if | apply Hub.canon_getD | (simp only [State.canon_mk, Hub.canon_mk, MemSt.canon_mk]) | apply And.intro | split)
theorem execTimeStep_canon (val : Word) (s : State) (h0 : s.canon) : ∃ t, execTimeStep val s = .next t ∧ t.canon := by
  refine ⟨_, rfl, ?_⟩
  repeat' (with_reducible first | assumption | (intro _) | apply AudMeter.next_canon | apply Hub.err_canon | apply Hub.raise_canon | apply MemSt.err_canon | apply State.boundary_canon | apply State.counterStep_canon | apply State.gclDue_canon | apply State.periodEnds_canon | apply State.canon_hub | apply State.canon_mem | apply MemSt.canon_cells | apply Hub.canon_regs | apply Hub.canon_shadow | apply Hub.canon_hostMem | apply Hub.canon_if | apply State.canon_if | apply MemSt.canon_if | (simp only [State.canon_mk, Hub.canon_mk, MemSt.canon_mk]) | apply And.intro | split)
theorem State.enter_canon (s : State) (p : Phase) (h0 : s.canon) : (State.enter s p).canon := by
  unfold State.enter
  repeat' (with_reducible first | assumption | (intro _) | apply Hub.set_canon | apply State.canon_hub | apply State.canon_mem | apply MemSt.canon_cells | apply Hub.canon_regs | apply Hub.canon_shadow | apply Hub.canon_hostMem | (simp only [State.canon_mk, Hub.canon_mk, MemSt.canon_mk]) | apply And.intro | split)
theorem State.stepRetry_canon (s : State) (h0 : s.canon) : (State.stepRetry s).canon := by
  unfold State.stepRetry
  repeat' (with_reducible first | assumption | (intro _) | apply Hub.raise_canon | apply Hub.set_canon | apply State.canon_hub | apply State.canon_mem | apply MemSt.canon_cells | apply Hub.canon_regs | apply Hub.canon_shadow | apply Hub.canon_hostMem | (simp only [State.canon_mk, Hub.canon_mk, MemSt.canon_mk]) | apply And.intro | split)
theorem Hub.coldReset_canon (h : Hub) (h0 : h.canon) : (Hub.coldReset h).canon := by
  unfold Hub.coldReset
  repeat' (with_reducible first | assumption | (intro _) | apply State.canon_hub | apply State.canon_mem | apply MemSt.canon_cells | apply Hub.canon_regs | apply Hub.canon_shadow | apply Hub.canon_hostMem | apply regsWf_otpRegs | (simp only [State.canon_mk, Hub.canon_mk, MemSt.canon_mk]) | apply And.intro | split)
theorem State.coldReset_canon (s : State) (h0 : s.canon) : (State.coldReset s).canon := by
  have hh : s.hub.coldReset.canon := Hub.coldReset_canon s.hub h0.1
  unfold State.coldReset
  exact ⟨Hub.set_canon _ _ _ (Hub.set_canon _ _ _ (Hub.set_canon _ _ _ (Hub.set_canon _ _ _ hh))), MemSt.canon_reset⟩
theorem State.coldBegin_canon (s : State) (source : Nat) (h0 : s.canon) : (State.coldBegin s source).canon := by
  unfold State.coldBegin
  repeat' (with_reducible first | assumption | (intro _) | apply Hub.coldReset_canon | apply Hub.set_canon | apply State.coldReset_canon | apply State.enter_canon | apply State.canon_hub | apply State.canon_mem | apply MemSt.canon_cells | apply Hub.canon_regs | apply Hub.canon_shadow | apply Hub.canon_hostMem | (simp only [State.canon_mk, Hub.canon_mk, MemSt.canon_mk]) | apply And.intro | split)
theorem execColdStart_canon (s : State) (h0 : s.canon) : ∃ t, execColdStart s = .next t ∧ t.canon := by
  refine ⟨_, rfl, ?_⟩
  repeat' (with_reducible first | assumption | (intro _) | apply AudMeter.next_canon | apply State.coldBegin_canon | apply State.canon_hub | apply State.canon_mem | apply MemSt.canon_cells | apply Hub.canon_regs | apply Hub.canon_shadow | apply Hub.canon_hostMem | apply Hub.canon_if | apply State.canon_if | apply MemSt.canon_if | (simp only [State.canon_mk, Hub.canon_mk, MemSt.canon_mk]) | apply And.intro | split)
theorem State.holdReset_canon (s : State) (h0 : s.canon) : (State.holdReset s).canon := by
  unfold State.holdReset
  repeat' (with_reducible first | assumption | (intro _) | apply Hub.coldReset_canon | apply State.coldReset_canon | apply State.canon_hub | apply State.canon_mem | apply MemSt.canon_cells | apply Hub.canon_regs | apply Hub.canon_shadow | apply Hub.canon_hostMem | apply regsWf_filter | apply regsWf_kvFilter | apply memWf_filter | (simp only [State.canon_mk, Hub.canon_mk, MemSt.canon_mk]) | apply And.intro | split)
theorem execResetNFall_canon (s : State) (h0 : s.canon) : ∃ t, execResetNFall s = .next t ∧ t.canon := by
  refine ⟨_, rfl, ?_⟩
  repeat' (with_reducible first | assumption | (intro _) | apply AudMeter.next_canon | apply State.holdReset_canon | apply State.canon_hub | apply State.canon_mem | apply MemSt.canon_cells | apply Hub.canon_regs | apply Hub.canon_shadow | apply Hub.canon_hostMem | (simp only [State.canon_mk, Hub.canon_mk, MemSt.canon_mk]) | apply And.intro | split)
theorem execPowerLoss_canon (s : State) (h0 : s.canon) : ∃ t, execPowerLoss s = .next t ∧ t.canon := by
  refine ⟨_, rfl, ?_⟩
  repeat' (with_reducible first | assumption | (intro _) | apply AudMeter.next_canon | apply State.holdReset_canon | apply State.canon_hub | apply State.canon_mem | apply MemSt.canon_cells | apply Hub.canon_regs | apply Hub.canon_shadow | apply Hub.canon_hostMem | (simp only [State.canon_mk, Hub.canon_mk, MemSt.canon_mk]) | apply And.intro | split)
theorem State.warmBegin_canon (s : State) (r : WarmReq) (again : Bool) (h0 : s.canon) : (State.warmBegin s r again).canon := by
  unfold State.warmBegin
  repeat' (with_reducible first | assumption | (intro _) | apply Hub.set_canon | apply State.coreStop_canon | apply State.enter_canon | apply State.canon_hub | apply State.canon_mem | apply MemSt.canon_cells | apply Hub.canon_regs | apply Hub.canon_shadow | apply Hub.canon_hostMem | apply Hub.canon_if | apply State.canon_if | apply MemSt.canon_if | (simp only [State.canon_mk, Hub.canon_mk, MemSt.canon_mk]) | apply And.intro | split)
theorem State.warmAsk_canon (s : State) (r : WarmReq) (h0 : s.canon) : (State.warmAsk s r).canon := by
  unfold State.warmAsk
  repeat' (with_reducible first | assumption | (intro _) | apply State.hold_canon | apply State.warmBegin_canon | apply State.canon_hub | apply State.canon_mem | apply MemSt.canon_cells | apply Hub.canon_regs | apply Hub.canon_shadow | apply Hub.canon_hostMem | apply Hub.canon_if | apply State.canon_if | apply MemSt.canon_if | (simp only [State.canon_mk, Hub.canon_mk, MemSt.canon_mk]) | apply And.intro | split)
theorem State.warmRequest_canon (s : State) (recovery : Bool) (source : Nat) (h0 : s.canon) : (State.warmRequest s recovery source).canon := by
  unfold State.warmRequest
  repeat' (with_reducible first | assumption | (intro _) | apply State.warmAsk_canon | apply State.canon_hub | apply State.canon_mem | apply MemSt.canon_cells | apply Hub.canon_regs | apply Hub.canon_shadow | apply Hub.canon_hostMem | (simp only [State.canon_mk, Hub.canon_mk, MemSt.canon_mk]) | apply And.intro | split)
theorem execWarmNFall_canon (s : State) (h0 : s.canon) : ∃ t, execWarmNFall s = .next t ∧ t.canon := by
  refine ⟨_, rfl, ?_⟩
  repeat' (with_reducible first | assumption | (intro _) | apply AudMeter.next_canon | apply State.warmRequest_canon | apply State.canon_hub | apply State.canon_mem | apply MemSt.canon_cells | apply Hub.canon_regs | apply Hub.canon_shadow | apply Hub.canon_hostMem | (simp only [State.canon_mk, Hub.canon_mk, MemSt.canon_mk]) | apply And.intro | split)
theorem execStartCtlWarm_canon (fn : Nat) (val : Word) (s : State) (h0 : s.canon) : ∃ t, execStartCtlWarm fn val s = .next t ∧ t.canon := by
  refine ⟨_, rfl, ?_⟩
  repeat' (with_reducible first | assumption | (intro _) | apply AudMeter.next_canon | apply State.warmRequest_canon | apply State.canon_hub | apply State.canon_mem | apply MemSt.canon_cells | apply Hub.canon_regs | apply Hub.canon_shadow | apply Hub.canon_hostMem | apply Hub.canon_if | apply State.canon_if | apply MemSt.canon_if | (simp only [State.canon_mk, Hub.canon_mk, MemSt.canon_mk]) | apply And.intro | split)
theorem State.startStop_canon (s : State) (code : Nat) (h0 : s.canon) : (State.startStop s code).canon := by
  unfold State.startStop
  repeat' (with_reducible first | assumption | (intro _) | apply Hub.raise_canon | apply Hub.set_canon | apply State.coldBegin_canon | apply State.canon_hub | apply State.canon_mem | apply MemSt.canon_cells | apply Hub.canon_regs | apply Hub.canon_shadow | apply Hub.canon_hostMem | (simp only [State.canon_mk, Hub.canon_mk, MemSt.canon_mk]) | apply And.intro | split)
theorem State.stackFail_canon (s : State) (n : Nat) (h0 : s.canon) : (State.stackFail s n).canon := by
  unfold State.stackFail
  repeat' (with_reducible first | assumption | (intro _) | apply Hub.chanRetired_canon | apply Hub.raise_canon | apply Hub.set1_canon | apply State.shutterTrigger_canon | apply State.canon_hub | apply State.canon_mem | apply MemSt.canon_cells | apply Hub.canon_regs | apply Hub.canon_shadow | apply Hub.canon_hostMem | apply Hub.canon_if | apply State.canon_if | apply MemSt.canon_if | apply Hub.canon_foldl | apply State.canon_foldl | apply MemSt.canon_foldl | apply State.canon_foldl_fst | (simp only [State.canon_mk, Hub.canon_mk, MemSt.canon_mk]) | apply And.intro | split)
theorem State.lanesFail_canon (s : State) (h0 : s.canon) : (State.lanesFail s).canon := by
  unfold State.lanesFail
  repeat' (with_reducible first | assumption | (intro _) | apply State.permanent_canon | apply State.canon_hub | apply State.canon_mem | apply MemSt.canon_cells | apply Hub.canon_regs | apply Hub.canon_shadow | apply Hub.canon_hostMem | apply Hub.canon_foldl | apply State.canon_foldl | apply MemSt.canon_foldl | apply State.canon_foldl_fst | (simp only [State.canon_mk, Hub.canon_mk, MemSt.canon_mk]) | apply And.intro | split)
theorem State.coresFail_canon (s : State) (cores : List Nat) (h0 : s.canon) : (State.coresFail s cores).canon := by
  unfold State.coresFail
  repeat' (with_reducible first | assumption | (intro _) | apply State.permanent_canon | apply State.canon_hub | apply State.canon_mem | apply MemSt.canon_cells | apply Hub.canon_regs | apply Hub.canon_shadow | apply Hub.canon_hostMem | apply Hub.canon_foldl | apply State.canon_foldl | apply MemSt.canon_foldl | apply State.canon_foldl_fst | (simp only [State.canon_mk, Hub.canon_mk, MemSt.canon_mk]) | apply And.intro | split)
theorem Hub.hbmPlaced_canon (h : Hub) (h0 : h.canon) : (Hub.hbmPlaced h).canon := by
  unfold Hub.hbmPlaced
  repeat' (with_reducible first | assumption | (intro _) | apply Hub.set_canon | apply Hub.set1_canon | apply State.canon_hub | apply State.canon_mem | apply MemSt.canon_cells | apply Hub.canon_regs | apply Hub.canon_shadow | apply Hub.canon_hostMem | apply Hub.canon_if | apply State.canon_if | apply MemSt.canon_if | (simp only [State.canon_mk, Hub.canon_mk, MemSt.canon_mk]) | apply And.intro | split)
theorem State.recutParts_canon (s : State) (h0 : s.canon) : (State.recutParts s).canon := by
  unfold State.recutParts
  repeat' (with_reducible first | assumption | (intro _) | apply State.canon_hub | apply State.canon_mem | apply MemSt.canon_cells | apply Hub.canon_regs | apply Hub.canon_shadow | apply Hub.canon_hostMem | (simp only [State.canon_mk, Hub.canon_mk, MemSt.canon_mk]) | apply And.intro | split)
theorem State.hbmBegin_canon (s : State) (h0 : s.canon) : (State.hbmBegin s).canon := by
  unfold State.hbmBegin
  repeat' (with_reducible first | assumption | (intro _) | apply Hub.raise_canon | apply Hub.set1_canon | apply State.canon_hub | apply State.canon_mem | apply MemSt.canon_cells | apply Hub.canon_regs | apply Hub.canon_shadow | apply Hub.canon_hostMem | apply Hub.canon_if | apply State.canon_if | apply MemSt.canon_if | apply Hub.canon_foldl | apply State.canon_foldl | apply MemSt.canon_foldl | apply State.canon_foldl_fst | (simp only [State.canon_mk, Hub.canon_mk, MemSt.canon_mk]) | apply And.intro | split)
theorem State.heldTrigger_canon (s : State) (h0 : s.canon) : (State.heldTrigger s).canon := by
  unfold State.heldTrigger
  repeat' (with_reducible first | assumption | (intro _) | apply State.freeze_canon | apply State.canon_hub | apply State.canon_mem | apply MemSt.canon_cells | apply Hub.canon_regs | apply Hub.canon_shadow | apply Hub.canon_hostMem | (simp only [State.canon_mk, Hub.canon_mk, MemSt.canon_mk]) | apply And.intro | split)
theorem State.ptpBegin_canon (s : State) (h0 : s.canon) : (State.ptpBegin s).canon := by
  unfold State.ptpBegin
  repeat' (with_reducible first | assumption | (intro _) | apply State.canon_hub | apply State.canon_mem | apply MemSt.canon_cells | apply Hub.canon_regs | apply Hub.canon_shadow | apply Hub.canon_hostMem | apply regsWf_filter | apply regsWf_kvFilter | apply memWf_filter | apply Hub.canon_if | apply State.canon_if | apply MemSt.canon_if | apply Hub.canon_foldl | apply State.canon_foldl | apply MemSt.canon_foldl | apply State.canon_foldl_fst | (simp only [State.canon_mk, Hub.canon_mk, MemSt.canon_mk]) | apply And.intro | split)
theorem State.opens_canon (s : State) (warm : Bool) (h0 : s.canon) : (State.opens s warm).canon := by
  unfold State.opens
  repeat' (with_reducible first | assumption | (intro _) | apply Hub.qpFlush_canon | apply Hub.raise_canon | apply Hub.set_canon | apply State.bistDue_canon | apply State.bistRestart_canon | apply State.hngStart_canon | apply State.warmBegin_canon | apply State.canon_hub | apply State.canon_mem | apply MemSt.canon_cells | apply Hub.canon_regs | apply Hub.canon_shadow | apply Hub.canon_hostMem | apply regsWf_filter | apply regsWf_kvFilter | apply memWf_filter | apply Hub.canon_if | apply State.canon_if | apply MemSt.canon_if | apply Hub.canon_foldl | apply State.canon_foldl | apply MemSt.canon_foldl | apply State.canon_foldl_fst | (simp only [State.canon_mk, Hub.canon_mk, MemSt.canon_mk]) | apply And.intro | split)
theorem State.afterLinks_canon (s : State) (h0 : s.canon) : (State.afterLinks s).canon := by
  unfold State.afterLinks
  repeat' (with_reducible first | assumption | (intro _) | apply State.enter_canon | apply State.ptpBegin_canon | apply State.canon_hub | apply State.canon_mem | apply MemSt.canon_cells | apply Hub.canon_regs | apply Hub.canon_shadow | apply Hub.canon_hostMem | apply Hub.canon_if | apply State.canon_if | apply MemSt.canon_if | (simp only [State.canon_mk, Hub.canon_mk, MemSt.canon_mk]) | apply And.intro | split)
theorem State.coldNext_canon (s : State) (n : Nat) (r : StepEnd) (h0 : s.canon) : (State.coldNext s n r).canon := by
  unfold State.coldNext
  repeat' (with_reducible first | assumption | (intro _) | apply Hub.hbmPlaced_canon | apply Hub.noMagic_canon | apply Hub.setVdd_canon | apply Hub.stacksTo_canon | apply State.afterLinks_canon | apply State.enter_canon | apply State.flashCopy_canon | apply State.fwBegin_canon | apply State.fwVerify_canon | apply State.hbmBegin_canon | apply State.heldTrigger_canon | apply State.lintelStart_canon | apply State.marchSram_canon | apply State.opens_canon | apply State.otpLoad_canon | apply State.planStart_canon | apply State.startLoad_canon | apply State.startRead_canon | apply State.startStop_canon | apply State.canon_hub | apply State.canon_mem | apply MemSt.canon_cells | apply Hub.canon_regs | apply Hub.canon_shadow | apply Hub.canon_hostMem | apply Hub.canon_if | apply State.canon_if | apply MemSt.canon_if | (simp only [State.canon_mk, Hub.canon_mk, MemSt.canon_mk]) | apply And.intro | split)
theorem State.warmNext_canon (s : State) (n : Nat) (r : StepEnd) (h0 : s.canon) : (State.warmNext s n r).canon := by
  unfold State.warmNext
  repeat' (with_reducible first | assumption | (intro _) | apply Hub.hbmPlaced_canon | apply Hub.stacksTo_canon | apply State.enter_canon | apply State.fwBegin_canon | apply State.fwVerify_canon | apply State.heldTrigger_canon | apply State.lintelStart_canon | apply State.marchSram_canon | apply State.opens_canon | apply State.planStart_canon | apply State.recutParts_canon | apply State.startLoad_canon | apply State.startStop_canon | apply State.warmImage_canon | apply State.canon_hub | apply State.canon_mem | apply MemSt.canon_cells | apply Hub.canon_regs | apply Hub.canon_shadow | apply Hub.canon_hostMem | apply Hub.canon_if | apply State.canon_if | apply MemSt.canon_if | (simp only [State.canon_mk, Hub.canon_mk, MemSt.canon_mk]) | apply And.intro | split)
theorem State.stepEnds_canon (s : State) (r : StepEnd) (next : State → State) (h0 : s.canon) (h : ∀ t : State, t.canon → (next t).canon) : (s.stepEnds r next).canon := by
  unfold State.stepEnds
  repeat' (with_reducible first | assumption | (intro _) | apply h | apply AudMeter.next_canon | apply State.coresFail_canon | apply State.lanesFail_canon | apply State.stackFail_canon | apply State.startStop_canon | apply State.stepRetry_canon | apply State.canon_hub | apply State.canon_mem | apply MemSt.canon_cells | apply Hub.canon_regs | apply Hub.canon_shadow | apply Hub.canon_hostMem | apply regsWf_filter | apply regsWf_kvFilter | apply memWf_filter | apply Hub.canon_if | apply State.canon_if | apply MemSt.canon_if | apply Hub.canon_foldl | apply State.canon_foldl | apply MemSt.canon_foldl | apply State.canon_foldl_fst | (simp only [State.canon_mk, Hub.canon_mk, MemSt.canon_mk]) | apply And.intro | split)
theorem execColdStepComplete_canon (r : StepEnd) (s : State) (h0 : s.canon) : ∃ t, execColdStepComplete r s = .next t ∧ t.canon := by
  refine ⟨_, rfl, ?_⟩
  repeat' (with_reducible first | assumption | (intro _) | apply AudMeter.next_canon | apply State.coldNext_canon | apply State.enter_canon | apply State.fwBegin_canon | apply State.heldTrigger_canon | apply State.stepEnds_canon | apply State.canon_hub | apply State.canon_mem | apply MemSt.canon_cells | apply Hub.canon_regs | apply Hub.canon_shadow | apply Hub.canon_hostMem | apply Hub.canon_if | apply State.canon_if | apply MemSt.canon_if | (simp only [State.canon_mk, Hub.canon_mk, MemSt.canon_mk]) | apply And.intro | split)
theorem execWarmStepComplete_canon (r : StepEnd) (s : State) (h0 : s.canon) : ∃ t, execWarmStepComplete r s = .next t ∧ t.canon := by
  refine ⟨_, rfl, ?_⟩
  repeat' (with_reducible first | assumption | (intro _) | apply AudMeter.next_canon | apply State.stepEnds_canon | apply State.warmBegin_canon | apply State.warmNext_canon | apply State.canon_hub | apply State.canon_mem | apply MemSt.canon_cells | apply Hub.canon_regs | apply Hub.canon_shadow | apply Hub.canon_hostMem | apply Hub.canon_if | apply State.canon_if | apply MemSt.canon_if | (simp only [State.canon_mk, Hub.canon_mk, MemSt.canon_mk]) | apply And.intro | split)
theorem State.reply_canon (s : State) (cmd status : Nat) (result : List Byte) (h0 : s.canon) : (State.reply s cmd status result).canon := by
  unfold State.reply
  repeat' (with_reducible first | assumption | (intro _) | apply Hub.emit_canon | apply State.canon_hub | apply State.canon_mem | apply MemSt.canon_cells | apply Hub.canon_regs | apply Hub.canon_shadow | apply Hub.canon_hostMem | (simp only [State.canon_mk, Hub.canon_mk, MemSt.canon_mk]) | apply And.intro | split)
theorem State.mgmtOpen_canon (s : State) (f : MgmtFrame) (cmd : Nat) (run : State → List Byte → State × Nat × List Byte) (h0 : s.canon) (h : ∀ t p, t.canon → (run t p).1.canon) : (s.mgmtOpen f cmd run).canon := by
  unfold State.mgmtOpen
  split
  · exact h0
  · split
    · exact State.reply_canon _ _ _ _ h0
    · exact State.reply_canon _ _ _ _ (h _ _ h0)
theorem State.authRefused_canon (s : State) (cmd status : Nat) (h0 : s.canon) : (State.authRefused s cmd status).canon := by
  unfold State.authRefused
  repeat' (with_reducible first | assumption | (intro _) | apply Hub.err_canon | apply Hub.raise_canon | apply MemSt.err_canon | apply State.reply_canon | apply State.canon_hub | apply State.canon_mem | apply MemSt.canon_cells | apply Hub.canon_regs | apply Hub.canon_shadow | apply Hub.canon_hostMem | (simp only [State.canon_mk, Hub.canon_mk, MemSt.canon_mk]) | apply And.intro | split)
theorem State.mgmtAuth_canon (s : State) (f : MgmtFrame) (cmd : Nat) (run : State → List Byte → State × Nat) (h0 : s.canon) (h : ∀ t p, t.canon → (run t p).1.canon) : (s.mgmtAuth f cmd run).canon := by
  unfold State.mgmtAuth
  repeat' (with_reducible first | assumption | (intro _) | apply h | apply State.authRefused_canon | apply State.reply_canon | apply State.canon_hub | apply State.canon_mem | apply MemSt.canon_cells | apply Hub.canon_regs | apply Hub.canon_shadow | apply Hub.canon_hostMem | apply Hub.canon_if | apply State.canon_if | apply MemSt.canon_if | (simp only [State.canon_mk, Hub.canon_mk, MemSt.canon_mk]) | apply And.intro | split)
theorem execGetNonce_canon (f : MgmtFrame) (s : State) (h0 : s.canon) : ∃ t, execGetNonce f s = .next t ∧ t.canon := by
  refine ⟨_, rfl, ?_⟩
  repeat' (with_reducible first | assumption | (intro _) | apply AudMeter.next_canon | apply Hub.freeTick_canon | apply State.mgmtOpen_canon | apply State.canon_hub | apply State.canon_mem | apply MemSt.canon_cells | apply Hub.canon_regs | apply Hub.canon_shadow | apply Hub.canon_hostMem | (simp only [State.canon_mk, Hub.canon_mk, MemSt.canon_mk]) | apply And.intro | split)
theorem execRead_canon (f : MgmtFrame) (s : State) (h0 : s.canon) : ∃ t, execRead f s = .next t ∧ t.canon := by
  refine ⟨_, rfl, ?_⟩
  repeat' (with_reducible first | assumption | (intro _) | apply AudMeter.next_canon | apply State.mgmtOpen_canon | apply State.canon_hub | apply State.canon_mem | apply MemSt.canon_cells | apply Hub.canon_regs | apply Hub.canon_shadow | apply Hub.canon_hostMem | apply Hub.canon_if | apply State.canon_if | apply MemSt.canon_if | (simp only [State.canon_mk, Hub.canon_mk, MemSt.canon_mk]) | apply And.intro | split)
theorem execProvision_canon (f : MgmtFrame) (s : State) (h0 : s.canon) : ∃ t, execProvision f s = .next t ∧ t.canon := by
  refine ⟨_, rfl, ?_⟩
  repeat' (with_reducible first | assumption | (intro _) | apply AudMeter.next_canon | apply Hub.set_canon | apply State.mgmtOpen_canon | apply State.canon_hub | apply State.canon_mem | apply MemSt.canon_cells | apply Hub.canon_regs | apply Hub.canon_shadow | apply Hub.canon_hostMem | apply Hub.canon_if | apply State.canon_if | apply MemSt.canon_if | (simp only [State.canon_mk, Hub.canon_mk, MemSt.canon_mk]) | apply And.intro | split)
theorem execSetPower_canon (f : MgmtFrame) (s : State) (h0 : s.canon) : ∃ t, execSetPower f s = .next t ∧ t.canon := by
  refine ⟨_, rfl, ?_⟩
  repeat' (with_reducible first | assumption | (intro _) | apply AudMeter.next_canon | apply Hub.set_canon | apply State.mgmtAuth_canon | apply State.canon_hub | apply State.canon_mem | apply MemSt.canon_cells | apply Hub.canon_regs | apply Hub.canon_shadow | apply Hub.canon_hostMem | (simp only [State.canon_mk, Hub.canon_mk, MemSt.canon_mk]) | apply And.intro | split)
theorem execSetPace_canon (f : MgmtFrame) (s : State) (h0 : s.canon) : ∃ t, execSetPace f s = .next t ∧ t.canon := by
  refine ⟨_, rfl, ?_⟩
  repeat' (with_reducible first | assumption | (intro _) | apply AudMeter.next_canon | apply Hub.set_canon | apply State.mgmtAuth_canon | apply State.canon_hub | apply State.canon_mem | apply MemSt.canon_cells | apply Hub.canon_regs | apply Hub.canon_shadow | apply Hub.canon_hostMem | (simp only [State.canon_mk, Hub.canon_mk, MemSt.canon_mk]) | apply And.intro | split)
theorem execSetPolicy_canon (f : MgmtFrame) (s : State) (h0 : s.canon) : ∃ t, execSetPolicy f s = .next t ∧ t.canon := by
  refine ⟨_, rfl, ?_⟩
  repeat' (with_reducible first | assumption | (intro _) | apply AudMeter.next_canon | apply Hub.set_canon | apply State.mgmtAuth_canon | apply State.canon_hub | apply State.canon_mem | apply MemSt.canon_cells | apply Hub.canon_regs | apply Hub.canon_shadow | apply Hub.canon_hostMem | (simp only [State.canon_mk, Hub.canon_mk, MemSt.canon_mk]) | apply And.intro | split)
theorem execSetBucket_canon (f : MgmtFrame) (s : State) (h0 : s.canon) : ∃ t, execSetBucket f s = .next t ∧ t.canon := by
  refine ⟨_, rfl, ?_⟩
  repeat' (with_reducible first | assumption | (intro _) | apply AudMeter.next_canon | apply Hub.set_canon | apply State.mgmtAuth_canon | apply State.canon_hub | apply State.canon_mem | apply MemSt.canon_cells | apply Hub.canon_regs | apply Hub.canon_shadow | apply Hub.canon_hostMem | (simp only [State.canon_mk, Hub.canon_mk, MemSt.canon_mk]) | apply And.intro | split)
theorem execSetKeyMax_canon (f : MgmtFrame) (s : State) (h0 : s.canon) : ∃ t, execSetKeyMax f s = .next t ∧ t.canon := by
  refine ⟨_, rfl, ?_⟩
  repeat' (with_reducible first | assumption | (intro _) | apply AudMeter.next_canon | apply Hub.set64_canon | apply State.mgmtAuth_canon | apply State.canon_hub | apply State.canon_mem | apply MemSt.canon_cells | apply Hub.canon_regs | apply Hub.canon_shadow | apply Hub.canon_hostMem | apply Hub.canon_if | apply State.canon_if | apply MemSt.canon_if | (simp only [State.canon_mk, Hub.canon_mk, MemSt.canon_mk]) | apply And.intro | split)
theorem execWrapKey_canon (f : MgmtFrame) (key : Option (List Byte)) (s : State) (h0 : s.canon) : ∃ t, execWrapKey f key s = .next t ∧ t.canon := by
  refine ⟨_, rfl, ?_⟩
  repeat' (with_reducible first | assumption | (intro _) | apply AudMeter.next_canon | apply Hub.set_canon | apply State.mgmtAuth_canon | apply State.canon_hub | apply State.canon_mem | apply MemSt.canon_cells | apply Hub.canon_regs | apply Hub.canon_shadow | apply Hub.canon_hostMem | (simp only [State.canon_mk, Hub.canon_mk, MemSt.canon_mk]) | apply And.intro | split)
theorem execDebug_canon (f : MgmtFrame) (s : State) (h0 : s.canon) : ∃ t, execDebug f s = .next t ∧ t.canon := by
  refine ⟨_, rfl, ?_⟩
  repeat' (with_reducible first | assumption | (intro _) | apply AudMeter.next_canon | apply Hub.set_canon | apply State.mgmtAuth_canon | apply State.canon_hub | apply State.canon_mem | apply MemSt.canon_cells | apply Hub.canon_regs | apply Hub.canon_shadow | apply Hub.canon_hostMem | apply Hub.canon_if | apply State.canon_if | apply MemSt.canon_if | (simp only [State.canon_mk, Hub.canon_mk, MemSt.canon_mk]) | apply And.intro | split)
theorem execSetBist_canon (f : MgmtFrame) (s : State) (h0 : s.canon) : ∃ t, execSetBist f s = .next t ∧ t.canon := by
  refine ⟨_, rfl, ?_⟩
  repeat' (with_reducible first | assumption | (intro _) | apply AudMeter.next_canon | apply Hub.set_canon | apply State.bistRestart_canon | apply State.mgmtAuth_canon | apply State.canon_hub | apply State.canon_mem | apply MemSt.canon_cells | apply Hub.canon_regs | apply Hub.canon_shadow | apply Hub.canon_hostMem | apply Hub.canon_if | apply State.canon_if | apply MemSt.canon_if | (simp only [State.canon_mk, Hub.canon_mk, MemSt.canon_mk]) | apply And.intro | split)
theorem execBistRun_canon (f : MgmtFrame) (s : State) (h0 : s.canon) : ∃ t, execBistRun f s = .next t ∧ t.canon := by
  refine ⟨_, rfl, ?_⟩
  repeat' (with_reducible first | assumption | (intro _) | apply AudMeter.next_canon | apply State.mgmtAuth_canon | apply State.canon_hub | apply State.canon_mem | apply MemSt.canon_cells | apply Hub.canon_regs | apply Hub.canon_shadow | apply Hub.canon_hostMem | apply Hub.canon_if | apply State.canon_if | apply MemSt.canon_if | (simp only [State.canon_mk, Hub.canon_mk, MemSt.canon_mk]) | apply And.intro | split)
theorem MemSt.marched_canon (m : MemSt) (ch : Nat) (h0 : m.canon) : (MemSt.marched m ch).canon := by
  unfold MemSt.marched
  repeat' (with_reducible first | assumption | (intro _) | apply State.canon_hub | apply State.canon_mem | apply MemSt.canon_cells | apply Hub.canon_regs | apply Hub.canon_shadow | apply Hub.canon_hostMem | apply regsWf_filter | apply regsWf_kvFilter | apply memWf_filter | (simp only [State.canon_mk, Hub.canon_mk, MemSt.canon_mk]) | apply And.intro | split)
theorem execMarch_canon (f : MgmtFrame) (s : State) (h0 : s.canon) : ∃ t, execMarch f s = .next t ∧ t.canon := by
  refine ⟨_, rfl, ?_⟩
  repeat' (with_reducible first | assumption | (intro _) | apply AudMeter.next_canon | apply MemSt.marched_canon | apply State.mgmtAuth_canon | apply State.canon_hub | apply State.canon_mem | apply MemSt.canon_cells | apply Hub.canon_regs | apply Hub.canon_shadow | apply Hub.canon_hostMem | apply Hub.canon_if | apply State.canon_if | apply MemSt.canon_if | (simp only [State.canon_mk, Hub.canon_mk, MemSt.canon_mk]) | apply And.intro | split)
theorem execRetire_canon (f : MgmtFrame) (s : State) (h0 : s.canon) : ∃ t, execRetire f s = .next t ∧ t.canon := by
  refine ⟨_, rfl, ?_⟩
  repeat' (with_reducible first | assumption | (intro _) | apply AudMeter.next_canon | apply State.mgmtAuth_canon | apply State.permanent_canon | apply State.canon_hub | apply State.canon_mem | apply MemSt.canon_cells | apply Hub.canon_regs | apply Hub.canon_shadow | apply Hub.canon_hostMem | (simp only [State.canon_mk, Hub.canon_mk, MemSt.canon_mk]) | apply And.intro | split)
theorem execWarm_canon (f : MgmtFrame) (s : State) (h0 : s.canon) : ∃ t, execWarm f s = .next t ∧ t.canon := by
  refine ⟨_, rfl, ?_⟩
  repeat' (with_reducible first | assumption | (intro _) | apply AudMeter.next_canon | apply State.mgmtAuth_canon | apply State.warmRequest_canon | apply State.canon_hub | apply State.canon_mem | apply MemSt.canon_cells | apply Hub.canon_regs | apply Hub.canon_shadow | apply Hub.canon_hostMem | (simp only [State.canon_mk, Hub.canon_mk, MemSt.canon_mk]) | apply And.intro | split)
theorem execMgmtUnknownCommand_canon (f : MgmtFrame) (s : State) (h0 : s.canon) : ∃ t, execMgmtUnknownCommand f s = .next t ∧ t.canon := by
  refine ⟨_, rfl, ?_⟩
  repeat' (with_reducible first | assumption | (intro _) | apply AudMeter.next_canon | apply State.reply_canon | apply State.canon_hub | apply State.canon_mem | apply MemSt.canon_cells | apply Hub.canon_regs | apply Hub.canon_shadow | apply Hub.canon_hostMem | apply Hub.canon_if | apply State.canon_if | apply MemSt.canon_if | (simp only [State.canon_mk, Hub.canon_mk, MemSt.canon_mk]) | apply And.intro | split)
theorem execNonceExpiry_canon (s : State) (h0 : s.canon) : ∃ t, execNonceExpiry s = .next t ∧ t.canon := by
  refine ⟨_, rfl, ?_⟩
  repeat' (with_reducible first | assumption | (intro _) | apply AudMeter.next_canon | apply State.canon_hub | apply State.canon_mem | apply MemSt.canon_cells | apply Hub.canon_regs | apply Hub.canon_shadow | apply Hub.canon_hostMem | apply Hub.canon_if | apply State.canon_if | apply MemSt.canon_if | (simp only [State.canon_mk, Hub.canon_mk, MemSt.canon_mk]) | apply And.intro | split)
theorem State.judge_canon (s : State) (l : List (Nat × Option Nat)) (h0 : s.canon) : (State.judge s l).canon := by
  unfold State.judge
  repeat' (with_reducible first | assumption | (intro _) | apply State.permanent_canon | apply State.transient_canon | apply State.canon_hub | apply State.canon_mem | apply MemSt.canon_cells | apply Hub.canon_regs | apply Hub.canon_shadow | apply Hub.canon_hostMem | apply Hub.canon_foldl | apply State.canon_foldl | apply MemSt.canon_foldl | apply State.canon_foldl_fst | (simp only [State.canon_mk, Hub.canon_mk, MemSt.canon_mk]) | apply And.intro | split)
theorem State.unfreeze_canon (s0 : State) (stat : Nat) (h0 : s0.canon) : (State.unfreeze s0 stat).canon := by
  unfold State.unfreeze
  repeat' (with_reducible first | assumption | (intro _) | apply Hub.set_canon | apply Hub.stat_canon | apply State.judge_canon | apply State.linksResume_canon | apply State.syncDrain_canon | apply State.canon_hub | apply State.canon_mem | apply MemSt.canon_cells | apply Hub.canon_regs | apply Hub.canon_shadow | apply Hub.canon_hostMem | (simp only [State.canon_mk, Hub.canon_mk, MemSt.canon_mk]) | apply And.intro | split)
theorem State.letGo_canon (s : State) (recovery : Bool) (h0 : s.canon) : (State.letGo s recovery).canon := by
  unfold State.letGo
  repeat' (with_reducible first | assumption | (intro _) | apply Hub.set_canon | apply State.unfreeze_canon | apply State.warmAsk_canon | apply State.canon_hub | apply State.canon_mem | apply MemSt.canon_cells | apply Hub.canon_regs | apply Hub.canon_shadow | apply Hub.canon_hostMem | apply Hub.canon_if | apply State.canon_if | apply MemSt.canon_if | (simp only [State.canon_mk, Hub.canon_mk, MemSt.canon_mk]) | apply And.intro | split)
theorem State.release_canon (s : State) (recovery : Bool) (h0 : s.canon) : (State.release s recovery).canon := by
  unfold State.release
  repeat' (with_reducible first | assumption | (intro _) | apply Hub.set_canon | apply State.letGo_canon | apply State.canon_hub | apply State.canon_mem | apply MemSt.canon_cells | apply Hub.canon_regs | apply Hub.canon_shadow | apply Hub.canon_hostMem | apply Hub.canon_if | apply State.canon_if | apply MemSt.canon_if | (simp only [State.canon_mk, Hub.canon_mk, MemSt.canon_mk]) | apply And.intro | split)
theorem State.shutterCmd_canon (s : State) (p : List Byte) (h0 : s.canon) : (State.shutterCmd s p).1.canon := by
  unfold State.shutterCmd
  repeat' (with_reducible first | assumption | (intro _) | apply State.release_canon | apply State.shutterTrigger_canon | apply State.canon_hub | apply State.canon_mem | apply MemSt.canon_cells | apply Hub.canon_regs | apply Hub.canon_shadow | apply Hub.canon_hostMem | (simp only [State.canon_mk, Hub.canon_mk, MemSt.canon_mk]) | apply And.intro | split)
theorem execShutterFreeze_canon (f : MgmtFrame) (s : State) (h0 : s.canon) : ∃ t, execShutterFreeze f s = .next t ∧ t.canon := by
  refine ⟨_, rfl, ?_⟩
  repeat' (with_reducible first | assumption | (intro _) | apply AudMeter.next_canon | apply State.mgmtAuth_canon | apply State.shutterCmd_canon | apply State.canon_hub | apply State.canon_mem | apply MemSt.canon_cells | apply Hub.canon_regs | apply Hub.canon_shadow | apply Hub.canon_hostMem | (simp only [State.canon_mk, Hub.canon_mk, MemSt.canon_mk]) | apply And.intro | split)
theorem execShutterRelease_canon (f : MgmtFrame) (s : State) (h0 : s.canon) : ∃ t, execShutterRelease f s = .next t ∧ t.canon := by
  refine ⟨_, rfl, ?_⟩
  repeat' (with_reducible first | assumption | (intro _) | apply AudMeter.next_canon | apply State.mgmtAuth_canon | apply State.shutterCmd_canon | apply State.canon_hub | apply State.canon_mem | apply MemSt.canon_cells | apply Hub.canon_regs | apply Hub.canon_shadow | apply Hub.canon_hostMem | (simp only [State.canon_mk, Hub.canon_mk, MemSt.canon_mk]) | apply And.intro | split)
theorem execShutterNFall_canon (s : State) (h0 : s.canon) : ∃ t, execShutterNFall s = .next t ∧ t.canon := by
  refine ⟨_, rfl, ?_⟩
  repeat' (with_reducible first | assumption | (intro _) | apply AudMeter.next_canon | apply State.shutterTrigger_canon | apply State.canon_hub | apply State.canon_mem | apply MemSt.canon_cells | apply Hub.canon_regs | apply Hub.canon_shadow | apply Hub.canon_hostMem | (simp only [State.canon_mk, Hub.canon_mk, MemSt.canon_mk]) | apply And.intro | split)
theorem execShutterNRise_canon (s : State) (h0 : s.canon) : ∃ t, execShutterNRise s = .next t ∧ t.canon := by
  refine ⟨_, rfl, ?_⟩
  repeat' (with_reducible first | assumption | (intro _) | apply AudMeter.next_canon | apply State.release_canon | apply State.canon_hub | apply State.canon_mem | apply MemSt.canon_cells | apply Hub.canon_regs | apply Hub.canon_shadow | apply Hub.canon_hostMem | apply Hub.canon_if | apply State.canon_if | apply MemSt.canon_if | (simp only [State.canon_mk, Hub.canon_mk, MemSt.canon_mk]) | apply And.intro | split)
theorem execHbmSelfRefreshEntry_canon (s : State) (h0 : s.canon) : ∃ t, execHbmSelfRefreshEntry s = .next t ∧ t.canon := by
  refine ⟨_, rfl, ?_⟩
  repeat' (with_reducible first | assumption | (intro _) | apply AudMeter.next_canon | apply Hub.stacksTo_canon | apply State.canon_hub | apply State.canon_mem | apply MemSt.canon_cells | apply Hub.canon_regs | apply Hub.canon_shadow | apply Hub.canon_hostMem | apply Hub.canon_if | apply State.canon_if | apply MemSt.canon_if | (simp only [State.canon_mk, Hub.canon_mk, MemSt.canon_mk]) | apply And.intro | split)
theorem State.audMissed_canon (s : State) (n : Nat) (h0 : s.canon) : (State.audMissed s n).canon := by
  unfold State.audMissed
  repeat' (with_reducible first | assumption | (intro _) | apply State.sinkOut_canon | apply State.canon_hub | apply State.canon_mem | apply MemSt.canon_cells | apply Hub.canon_regs | apply Hub.canon_shadow | apply Hub.canon_hostMem | apply regsWf_filter | apply regsWf_kvFilter | apply memWf_filter | apply Hub.canon_foldl | apply State.canon_foldl | apply MemSt.canon_foldl | apply State.canon_foldl_fst | (simp only [State.canon_mk, Hub.canon_mk, MemSt.canon_mk]) | apply And.intro | split)
theorem State.pubMissed_canon (s : State) (n : Nat) (h0 : s.canon) : (State.pubMissed s n).canon := by
  unfold State.pubMissed
  repeat' (with_reducible first | assumption | (intro _) | apply Hub.set64_canon | apply State.published_canon | apply State.canon_hub | apply State.canon_mem | apply MemSt.canon_cells | apply Hub.canon_regs | apply Hub.canon_shadow | apply Hub.canon_hostMem | apply Hub.canon_if | apply State.canon_if | apply MemSt.canon_if | (simp only [State.canon_mk, Hub.canon_mk, MemSt.canon_mk]) | apply And.intro | split)
theorem execResumeDone_canon (s : State) (h0 : s.canon) : ∃ t, execResumeDone s = .next t ∧ t.canon := by
  refine ⟨_, rfl, ?_⟩
  repeat' (with_reducible first | assumption | (intro _) | apply AudMeter.next_canon | apply Hub.heldDoorbells_canon | apply Hub.raise_canon | apply Hub.stacksTo_canon | apply State.audMissed_canon | apply State.gclDue_canon | apply State.pubMissed_canon | apply State.unfreeze_canon | apply State.canon_hub | apply State.canon_mem | apply MemSt.canon_cells | apply Hub.canon_regs | apply Hub.canon_shadow | apply Hub.canon_hostMem | apply Hub.canon_if | apply State.canon_if | apply MemSt.canon_if | (simp only [State.canon_mk, Hub.canon_mk, MemSt.canon_mk]) | apply And.intro | split)
theorem execThermalTrigger_canon (s : State) (h0 : s.canon) : ∃ t, execThermalTrigger s = .next t ∧ t.canon := by
  refine ⟨_, rfl, ?_⟩
  repeat' (with_reducible first | assumption | (intro _) | apply AudMeter.next_canon | apply Hub.raise_canon | apply State.shutterTrigger_canon | apply State.canon_hub | apply State.canon_mem | apply MemSt.canon_cells | apply Hub.canon_regs | apply Hub.canon_shadow | apply Hub.canon_hostMem | apply Hub.canon_if | apply State.canon_if | apply MemSt.canon_if | (simp only [State.canon_mk, Hub.canon_mk, MemSt.canon_mk]) | apply And.intro | split)
theorem execDbtLockstepMismatch_canon (s : State) (h0 : s.canon) : ∃ t, execDbtLockstepMismatch s = .next t ∧ t.canon := by
  refine ⟨_, rfl, ?_⟩
  repeat' (with_reducible first | assumption | (intro _) | apply AudMeter.next_canon | apply State.shutterTrigger_canon | apply State.canon_hub | apply State.canon_mem | apply MemSt.canon_cells | apply Hub.canon_regs | apply Hub.canon_shadow | apply Hub.canon_hostMem | apply Hub.canon_if | apply State.canon_if | apply MemSt.canon_if | (simp only [State.canon_mk, Hub.canon_mk, MemSt.canon_mk]) | apply And.intro | split)
theorem execDbtRestart_canon (s : State) (h0 : s.canon) : ∃ t, execDbtRestart s = .next t ∧ t.canon := by
  refine ⟨_, rfl, ?_⟩
  repeat' (with_reducible first | assumption | (intro _) | apply AudMeter.next_canon | apply Hub.raise_canon | apply State.judge_canon | apply State.canon_hub | apply State.canon_mem | apply MemSt.canon_cells | apply Hub.canon_regs | apply Hub.canon_shadow | apply Hub.canon_hostMem | apply Hub.canon_if | apply State.canon_if | apply MemSt.canon_if | (simp only [State.canon_mk, Hub.canon_mk, MemSt.canon_mk]) | apply And.intro | split)
theorem execLintelCoreFault_canon (core : Nat) (s : State) (h0 : s.canon) : ∃ t, execLintelCoreFault core s = .next t ∧ t.canon := by
  refine ⟨_, rfl, ?_⟩
  repeat' (with_reducible first | assumption | (intro _) | apply AudMeter.next_canon | apply State.shutterTrigger_canon | apply State.transient_canon | apply State.canon_hub | apply State.canon_mem | apply MemSt.canon_cells | apply Hub.canon_regs | apply Hub.canon_shadow | apply Hub.canon_hostMem | apply Hub.canon_if | apply State.canon_if | apply MemSt.canon_if | (simp only [State.canon_mk, Hub.canon_mk, MemSt.canon_mk]) | apply And.intro | split)
theorem State.leak_canon (s : State) (ch at_ : Nat) (h0 : s.canon) : (State.leak s ch at_).canon := by
  unfold State.leak
  repeat' (with_reducible first | assumption | (intro _) | apply Hub.chanSet_canon | apply Hub.set1_canon | apply State.canon_hub | apply State.canon_mem | apply MemSt.canon_cells | apply Hub.canon_regs | apply Hub.canon_shadow | apply Hub.canon_hostMem | apply regsWf_filter | apply regsWf_kvFilter | apply memWf_filter | apply Hub.canon_if | apply State.canon_if | apply MemSt.canon_if | (simp only [State.canon_mk, Hub.canon_mk, MemSt.canon_mk]) | apply And.intro | split)
theorem execBucketLeak_canon (channel : Nat) (s : State) (h0 : s.canon) : ∃ t, execBucketLeak channel s = .next t ∧ t.canon := by
  refine ⟨_, rfl, ?_⟩
  repeat' (with_reducible first | assumption | (intro _) | apply AudMeter.next_canon | apply State.leak_canon | apply State.canon_hub | apply State.canon_mem | apply MemSt.canon_cells | apply Hub.canon_regs | apply Hub.canon_shadow | apply Hub.canon_hostMem | apply Hub.canon_if | apply State.canon_if | apply MemSt.canon_if | (simp only [State.canon_mk, Hub.canon_mk, MemSt.canon_mk]) | apply And.intro | split)
theorem execBistScheduleTimer_canon (ty : Nat) (s : State) (h0 : s.canon) : ∃ t, execBistScheduleTimer ty s = .next t ∧ t.canon := by
  refine ⟨_, rfl, ?_⟩
  repeat' (with_reducible first | assumption | (intro _) | apply AudMeter.next_canon | apply State.bistDue_canon | apply State.bistTurn_canon | apply State.canon_hub | apply State.canon_mem | apply MemSt.canon_cells | apply Hub.canon_regs | apply Hub.canon_shadow | apply Hub.canon_hostMem | apply Hub.canon_if | apply State.canon_if | apply MemSt.canon_if | (simp only [State.canon_mk, Hub.canon_mk, MemSt.canon_mk]) | apply And.intro | split)
theorem State.bistMismatch_canon (s : State) (t : BistTest) (h0 : s.canon) : (State.bistMismatch s t).canon := by
  unfold State.bistMismatch
  repeat' (with_reducible first | assumption | (intro _) | apply Hub.err_canon | apply Hub.raise_canon | apply MemSt.err_canon | apply State.bistOver_canon | apply State.permanent_canon | apply State.retireIdle_canon | apply State.canon_hub | apply State.canon_mem | apply MemSt.canon_cells | apply Hub.canon_regs | apply Hub.canon_shadow | apply Hub.canon_hostMem | apply Hub.canon_if | apply State.canon_if | apply MemSt.canon_if | (simp only [State.canon_mk, Hub.canon_mk, MemSt.canon_mk]) | apply And.intro | split)
theorem execBistTestDone_canon (ty inst : Nat) (pass : Bool) (s : State) (h0 : s.canon) : ∃ t, execBistTestDone ty inst pass s = .next t ∧ t.canon := by
  refine ⟨_, rfl, ?_⟩
  repeat' (with_reducible first | assumption | (intro _) | apply AudMeter.next_canon | apply Hub.raise_canon | apply State.bistMismatch_canon | apply State.bistOver_canon | apply State.markSpares_canon | apply State.canon_hub | apply State.canon_mem | apply MemSt.canon_cells | apply Hub.canon_regs | apply Hub.canon_shadow | apply Hub.canon_hostMem | apply Hub.canon_if | apply State.canon_if | apply MemSt.canon_if | (simp only [State.canon_mk, Hub.canon_mk, MemSt.canon_mk]) | apply And.intro | split)
theorem execMarchDone_canon (words : Nat) (twice : Bool) (s : State) (h0 : s.canon) : ∃ t, execMarchDone words twice s = .next t ∧ t.canon := by
  refine ⟨_, rfl, ?_⟩
  repeat' (with_reducible first | assumption | (intro _) | apply AudMeter.next_canon | apply Hub.raise_canon | apply MemSt.marched_canon | apply State.marchFails_canon | apply State.canon_hub | apply State.canon_mem | apply MemSt.canon_cells | apply Hub.canon_regs | apply Hub.canon_shadow | apply Hub.canon_hostMem | apply Hub.canon_if | apply State.canon_if | apply MemSt.canon_if | (simp only [State.canon_mk, Hub.canon_mk, MemSt.canon_mk]) | apply And.intro | split)
theorem execPeepTapShift_canon (instr : Nat) (s : State) (h0 : s.canon) : ∃ t, execPeepTapShift instr s = .next t ∧ t.canon := by
  refine ⟨_, rfl, ?_⟩
  repeat' (with_reducible first | assumption | (intro _) | apply AudMeter.next_canon | apply Hub.emit_canon | apply State.canon_hub | apply State.canon_mem | apply MemSt.canon_cells | apply Hub.canon_regs | apply Hub.canon_shadow | apply Hub.canon_hostMem | (simp only [State.canon_mk, Hub.canon_mk, MemSt.canon_mk]) | apply And.intro | split)
theorem State.cascadeBytes_canon (s : State) (src : Nat) (b : List Byte) (poison : Bool) (h0 : s.canon) : (State.cascadeBytes s src b poison).canon := by
  unfold State.cascadeBytes
  repeat' (with_reducible first | assumption | (intro _) | apply MemSt.poison_canon | apply State.cascadeIn_canon | apply State.canon_hub | apply State.canon_mem | apply MemSt.canon_cells | apply Hub.canon_regs | apply Hub.canon_shadow | apply Hub.canon_hostMem | (simp only [State.canon_mk, Hub.canon_mk, MemSt.canon_mk]) | apply And.intro | split)
theorem State.jlDeliver_canon (s : State) (n : Nat) (h : FlitHead) (f : JlRx) (m : JlPart) (h0 : s.canon) : (State.jlDeliver s n h f m).canon := by
  unfold State.jlDeliver
  repeat' (with_reducible first | assumption | (intro _) | apply Hub.err_canon | apply Hub.raiseRl_canon | apply MemSt.err_canon | apply MemSt.poison_canon | apply State.armIn_canon | apply State.cascadeBytes_canon | apply State.jlDrop_canon | apply State.mediaIn_canon | apply State.paneChunkIn_canon | apply State.snapAsked_canon | apply State.snapIn_canon | apply State.svcIn_canon | apply State.canon_hub | apply State.canon_mem | apply MemSt.canon_cells | apply Hub.canon_regs | apply Hub.canon_shadow | apply Hub.canon_hostMem | apply Hub.canon_if | apply State.canon_if | apply MemSt.canon_if | (simp only [State.canon_mk, Hub.canon_mk, MemSt.canon_mk]) | apply And.intro | split)
theorem State.jlAccept_canon (s : State) (n : Nat) (h : FlitHead) (pay : List Byte) (f : JlRx) (h0 : s.canon) : (State.jlAccept s n h pay f).canon := by
  unfold State.jlAccept
  repeat' (with_reducible first | assumption | (intro _) | apply MemSt.poison_canon | apply State.jlDeliver_canon | apply State.jlDrop_canon | apply State.jlForward_canon | apply State.setLink_canon | apply State.canon_hub | apply State.canon_mem | apply MemSt.canon_cells | apply Hub.canon_regs | apply Hub.canon_shadow | apply Hub.canon_hostMem | apply Hub.canon_if | apply State.canon_if | apply MemSt.canon_if | (simp only [State.canon_mk, Hub.canon_mk, MemSt.canon_mk]) | apply And.intro | split)
theorem State.seqIn_canon (s : State) (h : FlitHead) (f : JlRx) (h0 : s.canon) : (State.seqIn s h f).canon := by
  unfold State.seqIn
  repeat' (with_reducible first | assumption | (intro _) | apply MemSt.poison_canon | apply State.cipher_canon | apply State.idleOut_canon | apply State.jlAccept_canon | apply State.jlHead_canon | apply State.jlHeard_canon | apply State.jlNak_canon | apply State.jlPump_canon | apply State.setLink_canon | apply State.canon_hub | apply State.canon_mem | apply MemSt.canon_cells | apply Hub.canon_regs | apply Hub.canon_shadow | apply Hub.canon_hostMem | apply Hub.canon_if | apply State.canon_if | apply MemSt.canon_if | (simp only [State.canon_mk, Hub.canon_mk, MemSt.canon_mk]) | apply And.intro | split)
theorem execSequencedFlitReceive_canon (f : JlRx) (s : State) (h0 : s.canon) : ∃ t, execSequencedFlitReceive f s = .next t ∧ t.canon := by
  refine ⟨_, rfl, State.flitIn_canon _ _ _ _ _ _ (fun t g ht => ?_) h0⟩
  repeat' (with_reducible first | assumption | (intro _) | apply AudMeter.next_canon | apply State.flitIn_canon | apply State.seqIn_canon | apply State.canon_hub | apply State.canon_mem | apply MemSt.canon_cells | apply Hub.canon_regs | apply Hub.canon_shadow | apply Hub.canon_hostMem | (simp only [State.canon_mk, Hub.canon_mk, MemSt.canon_mk]) | apply And.intro | split)
theorem State.peakRead_canon (s : State) (h0 : s.canon) : (State.peakRead s).canon := by
  unfold State.peakRead
  repeat' (with_reducible first | assumption | (intro _) | apply State.canon_hub | apply State.canon_mem | apply MemSt.canon_cells | apply Hub.canon_regs | apply Hub.canon_shadow | apply Hub.canon_hostMem | (simp only [State.canon_mk, Hub.canon_mk, MemSt.canon_mk]) | apply And.intro | split)
theorem State.readEffects_canon (s : State) (fn off : Nat) (h0 : s.canon) : (State.readEffects s fn off).canon := by
  unfold State.readEffects
  repeat' (with_reducible first | assumption | (intro _) | apply State.peakRead_canon | apply State.canon_hub | apply State.canon_mem | apply MemSt.canon_cells | apply Hub.canon_regs | apply Hub.canon_shadow | apply Hub.canon_hostMem | apply Hub.canon_if | apply State.canon_if | apply MemSt.canon_if | (simp only [State.canon_mk, Hub.canon_mk, MemSt.canon_mk]) | apply And.intro | split)
theorem State.pieceRead_canon (s : State) (fn o b n : Nat) (h0 : s.canon) : (State.pieceRead s fn o b n).canon := by
  unfold State.pieceRead
  repeat' (with_reducible first | assumption | (intro _) | apply Hub.emit_canon | apply Hub.nowCapture_canon | apply State.readEffects_canon | apply State.canon_hub | apply State.canon_mem | apply MemSt.canon_cells | apply Hub.canon_regs | apply Hub.canon_shadow | apply Hub.canon_hostMem | apply Hub.canon_if | apply State.canon_if | apply MemSt.canon_if | (simp only [State.canon_mk, Hub.canon_mk, MemSt.canon_mk]) | apply And.intro | split)
theorem State.busRead_canon (s : State) (fn off size : Nat) (h0 : s.canon) : (State.busRead s fn off size).canon := by
  unfold State.busRead
  repeat' (with_reducible first | assumption | (intro _) | apply State.pieceRead_canon | apply State.canon_hub | apply State.canon_mem | apply MemSt.canon_cells | apply Hub.canon_regs | apply Hub.canon_shadow | apply Hub.canon_hostMem | apply Hub.canon_if | apply State.canon_if | apply MemSt.canon_if | apply Hub.canon_foldl | apply State.canon_foldl | apply MemSt.canon_foldl | apply State.canon_foldl_fst | (simp only [State.canon_mk, Hub.canon_mk, MemSt.canon_mk]) | apply And.intro | split)
theorem State.plainWrite_canon (s : State) (fn off : Nat) (val : Word) (h0 : s.canon) : (State.plainWrite s fn off val).canon := by
  unfold State.plainWrite
  repeat' (with_reducible first | assumption | (intro _) | apply Hub.stuckClear_canon | apply Hub.wr_canon | apply State.shadowPut_canon | apply State.stuckClear_canon | apply State.canon_hub | apply State.canon_mem | apply MemSt.canon_cells | apply Hub.canon_regs | apply Hub.canon_shadow | apply Hub.canon_hostMem | apply Hub.canon_if | apply State.canon_if | apply MemSt.canon_if | (simp only [State.canon_mk, Hub.canon_mk, MemSt.canon_mk]) | apply And.intro | split)
theorem State.logWrite_canon (s : State) (fn off : Nat) (val : Word) (h0 : s.canon) : (State.logWrite s fn off val).canon := by
  unfold State.logWrite
  repeat' (with_reducible first | assumption | (intro _) | apply Hub.logLostFlush_canon | apply State.plainWrite_canon | apply State.canon_hub | apply State.canon_mem | apply MemSt.canon_cells | apply Hub.canon_regs | apply Hub.canon_shadow | apply Hub.canon_hostMem | apply Hub.canon_if | apply State.canon_if | apply MemSt.canon_if | (simp only [State.canon_mk, Hub.canon_mk, MemSt.canon_mk]) | apply And.intro | split)
theorem State.laneWrite_canon (s : State) (lane : Nat) (val : Word) (h0 : s.canon) : (State.laneWrite s lane val).canon := by
  unfold State.laneWrite
  repeat' (with_reducible first | assumption | (intro _) | apply State.laneLoop_canon | apply State.laneRetrain_canon | apply State.laneSleepWrite_canon | apply State.plainWrite_canon | apply State.canon_hub | apply State.canon_mem | apply MemSt.canon_cells | apply Hub.canon_regs | apply Hub.canon_shadow | apply Hub.canon_hostMem | apply Hub.canon_if | apply State.canon_if | apply MemSt.canon_if | (simp only [State.canon_mk, Hub.canon_mk, MemSt.canon_mk]) | apply And.intro | split)
theorem State.did_canon (s : State) (f : State → Host.Outcome State Fault Refusal) (h0 : s.canon) (h : ∀ a : State, a.canon → ∃ t, f a = .next t ∧ t.canon) : (s.did f).canon := by
  unfold State.did
  split
  · rename_i t heq
    obtain ⟨u, hu, hk⟩ := h s h0
    rw [heq] at hu
    cases hu
    exact hk
  · exact h0
theorem State.regWrite_canon (s : State) (fn off : Nat) (val : Word) (h0 : s.canon) : (State.regWrite s fn off val).canon := by
  unfold State.regWrite
  repeat' (with_reducible first | assumption | (intro _) | apply Hub.fifoCtl_canon | apply Hub.qpWrite_canon | apply Hub.wr_canon | apply State.commitDom_canon | apply State.commitNext_canon | apply State.commitSched_canon | apply State.did_canon | apply State.incrWrite_canon | apply State.keyStart_canon | apply State.laneWrite_canon | apply State.lockWrite_canon | apply State.logWrite_canon | apply State.plainWrite_canon | apply State.snapNext_canon | apply State.snapSched_canon | apply execCheckedRead_canon | apply execRawRead_canon | apply execRawWrite_canon | apply execStartCtlWarm_canon | apply execTevConfigWrite_canon | apply execTimeStep_canon | apply State.canon_hub | apply State.canon_mem | apply MemSt.canon_cells | apply Hub.canon_regs | apply Hub.canon_shadow | apply Hub.canon_hostMem | apply Hub.canon_if | apply State.canon_if | apply MemSt.canon_if | (simp only [State.canon_mk, Hub.canon_mk, MemSt.canon_mk]) | apply And.intro | split)
theorem State.wordWrite_canon (s : State) (fn off : Nat) (val : Word) (h0 : s.canon) : (State.wordWrite s fn off val).canon := by
  unfold State.wordWrite
  repeat' (with_reducible first | assumption | (intro _) | apply State.doorbell_canon | apply State.regWrite_canon | apply State.canon_hub | apply State.canon_mem | apply MemSt.canon_cells | apply Hub.canon_regs | apply Hub.canon_shadow | apply Hub.canon_hostMem | apply Hub.canon_if | apply State.canon_if | apply MemSt.canon_if | (simp only [State.canon_mk, Hub.canon_mk, MemSt.canon_mk]) | apply And.intro | split)
theorem State.busWrite_canon (s : State) (fn off size : Nat) (val : BitVec 64) (h0 : s.canon) : (State.busWrite s fn off size val).canon := by
  unfold State.busWrite
  repeat' (with_reducible first | assumption | (intro _) | apply State.offer_canon | apply State.wordWrite_canon | apply State.canon_hub | apply State.canon_mem | apply MemSt.canon_cells | apply Hub.canon_regs | apply Hub.canon_shadow | apply Hub.canon_hostMem | apply Hub.canon_if | apply State.canon_if | apply MemSt.canon_if | apply Hub.canon_foldl | apply State.canon_foldl | apply MemSt.canon_foldl | apply State.canon_foldl_fst | (simp only [State.canon_mk, Hub.canon_mk, MemSt.canon_mk]) | apply And.intro | split)
theorem State.wordShadow_canon (s : State) (fn off : Nat) (val : Word) (h0 : s.canon) : (State.wordShadow s fn off val).canon := by
  unfold State.wordShadow
  repeat' (with_reducible first | assumption | (intro _) | apply State.shadowPut_canon | apply State.canon_hub | apply State.canon_mem | apply MemSt.canon_cells | apply Hub.canon_regs | apply Hub.canon_shadow | apply Hub.canon_hostMem | apply Hub.canon_if | apply State.canon_if | apply MemSt.canon_if | (simp only [State.canon_mk, Hub.canon_mk, MemSt.canon_mk]) | apply And.intro | split)
theorem execRegWrite_canon (fn off size : Nat) (val : BitVec 64) (s : State) (h0 : s.canon) : ∃ t, execRegWrite fn off size val s = .next t ∧ t.canon := by
  refine ⟨_, rfl, ?_⟩
  repeat' (with_reducible first | assumption | (intro _) | apply AudMeter.next_canon | apply State.busWrite_canon | apply State.canon_hub | apply State.canon_mem | apply MemSt.canon_cells | apply Hub.canon_regs | apply Hub.canon_shadow | apply Hub.canon_hostMem | (simp only [State.canon_mk, Hub.canon_mk, MemSt.canon_mk]) | apply And.intro | split)
theorem execShadowWrite_canon (fn off size : Nat) (val : BitVec 64) (s : State) (h0 : s.canon) : ∃ t, execShadowWrite fn off size val s = .next t ∧ t.canon := by
  refine ⟨_, rfl, ?_⟩
  repeat' (with_reducible first | assumption | (intro _) | apply AudMeter.next_canon | apply State.wordShadow_canon | apply State.canon_hub | apply State.canon_mem | apply MemSt.canon_cells | apply Hub.canon_regs | apply Hub.canon_shadow | apply Hub.canon_hostMem | apply Hub.canon_if | apply State.canon_if | apply MemSt.canon_if | apply Hub.canon_foldl | apply State.canon_foldl | apply MemSt.canon_foldl | apply State.canon_foldl_fst | (simp only [State.canon_mk, Hub.canon_mk, MemSt.canon_mk]) | apply And.intro | split)
theorem execRcFieldRead_canon (fn off size : Nat) (s : State) (h0 : s.canon) : ∃ t, execRcFieldRead fn off size s = .next t ∧ t.canon := by
  refine ⟨_, rfl, ?_⟩
  repeat' (with_reducible first | assumption | (intro _) | apply AudMeter.next_canon | apply State.busRead_canon | apply State.canon_hub | apply State.canon_mem | apply MemSt.canon_cells | apply Hub.canon_regs | apply Hub.canon_shadow | apply Hub.canon_hostMem | (simp only [State.canon_mk, Hub.canon_mk, MemSt.canon_mk]) | apply And.intro | split)
theorem execPairLowRead_canon (fn off size : Nat) (s : State) (h0 : s.canon) : ∃ t, execPairLowRead fn off size s = .next t ∧ t.canon := by
  refine ⟨_, rfl, ?_⟩
  repeat' (with_reducible first | assumption | (intro _) | apply AudMeter.next_canon | apply State.busRead_canon | apply State.canon_hub | apply State.canon_mem | apply MemSt.canon_cells | apply Hub.canon_regs | apply Hub.canon_shadow | apply Hub.canon_hostMem | (simp only [State.canon_mk, Hub.canon_mk, MemSt.canon_mk]) | apply And.intro | split)
theorem execCntStuckClear_canon (fn off : Nat) (val : Word) (s : State) (h0 : s.canon) : ∃ t, execCntStuckClear fn off val s = .next t ∧ t.canon := by
  refine ⟨_, rfl, ?_⟩
  repeat' (with_reducible first | assumption | (intro _) | apply AudMeter.next_canon | apply State.plainWrite_canon | apply State.canon_hub | apply State.canon_mem | apply MemSt.canon_cells | apply Hub.canon_regs | apply Hub.canon_shadow | apply Hub.canon_hostMem | apply Hub.canon_if | apply State.canon_if | apply MemSt.canon_if | (simp only [State.canon_mk, Hub.canon_mk, MemSt.canon_mk]) | apply And.intro | split)
theorem execLogSizeWrite_canon (fn : Nat) (val : Word) (s : State) (h0 : s.canon) : ∃ t, execLogSizeWrite fn val s = .next t ∧ t.canon := by
  refine ⟨_, rfl, ?_⟩
  repeat' (with_reducible first | assumption | (intro _) | apply AudMeter.next_canon | apply State.logWrite_canon | apply State.canon_hub | apply State.canon_mem | apply MemSt.canon_cells | apply Hub.canon_regs | apply Hub.canon_shadow | apply Hub.canon_hostMem | apply Hub.canon_if | apply State.canon_if | apply MemSt.canon_if | (simp only [State.canon_mk, Hub.canon_mk, MemSt.canon_mk]) | apply And.intro | split)
theorem State.tick_canon (s : State) (h0 : s.canon) : (State.tick s).canon := by
  unfold State.tick
  repeat' (with_reducible first | assumption | (intro _) | apply State.quietBoundary_canon | apply State.canon_hub | apply State.canon_mem | apply MemSt.canon_cells | apply Hub.canon_regs | apply Hub.canon_shadow | apply Hub.canon_hostMem | apply Hub.canon_if | apply State.canon_if | apply MemSt.canon_if | (simp only [State.canon_mk, Hub.canon_mk, MemSt.canon_mk]) | apply And.intro | split)

end Sys2Proof.Machine
end

