-- ==== Sys2Proof/Tests/Slice0.lean ====
section
/-! SUPPORT. Witnesses: for the hypotheses of each statement, concrete states and operands that meet them, with boundary values of their ranges; ill-formed commands, one for each
check of `Instr.wf`; and a few results that the tables of spec/ give. -/

set_option Elab.async false

namespace Sys2Proof.Tests

open Sys2Proof Sys2Proof.Machine

/-- A live device whose listed registers are `l`. -/
def dev (l : List (Nat × Word)) : State := { hub := { regs := l, bar := .live } }

/-- A running device whose clock runs. -/
def running : State := { hub := { bar := .live }, start := { phase := .running } }

/-- A state whose registers and memories pass the check is canonical. -/
theorem canon_of {s : State} (h : (regsWf s.hub.regs && regsWf s.hub.shadow && memWf s.hub.hostMem && memWf s.mem.cells) = true) : s.canon := by
  simp only [Bool.and_eq_true] at h
  exact ⟨⟨h.1.1.1, h.1.1.2, h.1.2⟩, h.2⟩

/-- A live device with the listed fields set: field, index, value. -/
def devF (l : List (Fld × Nat × Nat)) : State := { hub := l.foldl (fun h x => h.set1 x.1 x.2.1 x.2.2) { bar := .live } }

/-- A live device with the forwarding state given. -/
def fw (f : FwdSt) : State := { dev [] with fwd := f }

/-- The PF sends a service command, at once or LATCHED. -/
def pf : CmdEnv := ⟨0, 0, 0, false⟩

def pfL : CmdEnv := ⟨0, 0, 0, true⟩

/-- An inbound stream on leg 0, and an outbound one. -/
def inS : InStream := inOf []

def outS : OutStream := outOf [0, 0, 1] 0 0 0 0

/-- A device with leg 0, streams 0 and a subscription 0 between them. -/
def devSub (l : Leg) (x : InStream) (u : Sub) : State := fw { legs := [(0, l)], ins := [(0, x)], outs := [(0, outS)], subs := [(0, u)] }

def sub0 : Sub := subOf { ins := [(0, inS)] } []

/-! ### Witnesses: states and operands that meet the hypotheses of the statements, clause by clause -/

theorem wit_idleStep : running.pending = [] ∧ running.clockRuns = true ∧ running.lch.pend = [] ∧ running.lch.waiting = [] ∧ running.ldr.persWait = [] ∧
    State.reset.pending = [] ∧ State.reset.clockRuns = false := by decide

theorem wit_queueKept : ∃ t, exec .onePerRoomTimer State.reset = .next t := ⟨_, rfl⟩

theorem wit_soundKept : State.reset.sound ∧ ∃ t, step State.reset = .next t :=
  ⟨⟨canon_of (by decide), by decide, by unfold State.incrOk; decide⟩, _, rfl⟩

theorem wit_managementKey : ({ dbt := { mgmtKey := 1 } } : State).dbt.mgmtKey ≠ 0 ∧ ∃ t, step ({ dbt := { mgmtKey := 1 } } : State) = .next t :=
  ⟨by decide, _, rfl⟩

/-- The first and the last listed register without behaviour of its own, among those of the GLB and of the START block. -/
theorem wit_registerWrites : (dev []).canon ∧ (dev []).hub.hostIn = true ∧ (dev []).hub.pcieDown = false ∧
    ({ hub := { pcieDown := true } } : State).hub.pcieDown = true ∧ (3 < 4 ∧ 0x201 % 4 ≠ 0 ∧ 0x204 % 4 = 0) ∧ State.reset.hub.pcieDown = false ∧
    (0 % 4 = 0 ∧ plainReg 0 = true ∧ (dev []).hub.absentBlock 0 = false) ∧
    (0x2C00104 % 4 = 0 ∧ plainReg 0x2C00104 = true ∧ (dev []).hub.absentBlock 0x2C00104 = false) ∧
    State.reset.hub.bar = .dead ∧ ¬(0x2010000 ≤ 0x200FFFC ∧ 0x200FFFC < 0x2012000) ∧ ¬(0x2010000 ≤ 0x2012000 ∧ 0x2012000 < 0x2012000) :=
  ⟨canon_of (by decide), by decide +kernel⟩

theorem wit_shadowWrite : (dev []).canon ∧ (dev []).hub.hostIn = true ∧ 0 < 64 ∧ (dev []).hub.windowTakes 0 0x1200200 = true ∧ 0x1200200 % 4 = 0 ∧ accMask .sh 0x1200200 ≠ 0 ∧
    (dev []).hub.absentBlock 0x1200200 = false :=
  ⟨canon_of (by decide), by decide +kernel⟩

theorem wit_shadowRead : (dev []).hub.hostIn = true ∧ 0x1200200 % 4 = 0 ∧ 0x1200200 < 0x3000000 ∧ (dev []).hub.absentBlock 0x1200200 = false ∧
    (dev []).hub.windowShows 0 0x1200200 = true ∧ kvGet (winKey 0 0x1200200) (dev []).hub.captured = none ∧ 0 < 32 ∧
    (accMask .sh 0x1200200).getLsbD 0 = true := by
  decide +kernel

/-- A device that has read the low half of `TIM.NOW_SEC` and not yet the high one. -/
def devHi : State := { hub := { bar := .live, captured := [(0x1B0001C, 5)] } }

theorem wit_pairReads : (dev []).hub.hostIn = true ∧
    (8 % 4 = 0 ∧ 8 < 0x3000000 ∧ pairHigh 8 = some 12 ∧ (dev []).hub.absentBlock 8 = false ∧ (dev []).hub.windowShows 0 8 = true ∧
      (dev []).hub.absentBlock 12 = false ∧ (dev []).hub.windowShows 0 12 = true ∧ kvSorted (dev []).hub.captured = true ∧ (8 : Nat) ≠ 0x1B00018 ∧
      kvGet (winKey 0 12) (dev []).hub.captured = none ∧ (regRow 12).isSome = true) ∧
    (devHi.hub.hostIn = true ∧ 0x1B00018 % 4 = 0 ∧ 0x1B00018 < 0x3000000 ∧ pairHigh 0x1B00018 = some 0x1B0001C ∧
      devHi.hub.absentBlock 0x1B00018 = false ∧ devHi.hub.windowShows 0 0x1B00018 = true ∧ devHi.hub.absentBlock 0x1B0001C = false ∧
      devHi.hub.windowShows 0 0x1B0001C = true ∧ kvSorted devHi.hub.captured = true ∧
      kvGet (winKey 0 0x1B0001C) devHi.hub.captured = some 5 ∧ (regRow 0x1B0001C).isSome = true) := by
  decide +kernel

/-- A device with a resource of kind 5 selected. -/
def devSel : State := dev [(0x100020, 0x50000)]

theorem wit_readsWithEffects : devSel.hub.hostIn = true ∧ devSel.resSel = some (5, 0) ∧ (dev [(0x100020, 0xF0000)]).resSel = none ∧
    kvGet 0x100030 (dev [(0x100020, 0xF0000)]).hub.captured = none ∧ 3 + 1 ≤ 4 ∧ 0 < 1 ∧ kvGet 0x100030 devSel.hub.captured = none ∧
    kvSorted devSel.fab.peaks = true := by
  decide +kernel

/-- A MEM block whose parity counter sticks; the first and the last function's ring without drops; a ring of 64 records with a drop before it. -/
def devStuck : State := dev [(0x1C0004C, BitVec.allOnes 32)]

def devDrop : State := { hub := { bar := .live, logDropped := [(0, 1)] } }

theorem wit_counters :
    (devStuck.canon ∧ devStuck.hub.hostIn = true ∧ devStuck.hub.absentBlock 0x1C00100 = false ∧ stuckBit 0x1C00100 = some 8 ∧ 8 < 32 ∧
      (0x100 : Word).getLsbD 8 = true ∧ (accMask .w1c 0x1C00100).getLsbD 8 = true ∧
      regReset 0x1C0004C = 0 ∧ (stuckRange 0x1C00100).1 ≤ 0x1C0004C ∧ 0x1C0004C < (stuckRange 0x1C00100).2 ∧
      (isCounter errCounters 0x1C0004C || isCounter keptCounters 0x1C0004C) = true ∧ 0x1C0004C ≠ 0x1C00100 ∧ devStuck.hub.rd 0x1C0004C = BitVec.allOnes 32) ∧
    ((dev []).canon ∧ (dev []).hub.hostIn = true ∧ (0 : Word).getLsbD 8 = false ∧ kvGet 0 (dev []).hub.logDropped = none ∧ kvGet 63 (dev []).hub.logDropped = none ∧ 63 < 64) ∧
    (devDrop.canon ∧ devDrop.hub.hostIn = true ∧ LCH.LOG_SIZE.LOG2.of 5 ≠ 0 ∧ kvGet 0 devDrop.hub.logDropped = some 1 ∧ 6 ≤ LCH.LOG_SIZE.LOG2.of 6 ∧ LCH.LOG_SIZE.LOG2.of 20 ≤ 20 ∧
      (devDrop.hub.rd (winKey 0 0x20020C) - devDrop.hub.rd (winKey 0 0x200210)).toNat < 2 ^ LCH.LOG_SIZE.LOG2.of 6 - 1) := by
  refine ⟨⟨canon_of ?_, ?_⟩, ⟨canon_of ?_, ?_⟩, ⟨canon_of ?_, ?_⟩⟩ <;> decide +kernel

/-- The two limits of R309 and a value between them. -/
theorem wit_increment : (dev []).canon ∧ (dev []).hub.hostIn = true ∧
    ((0x7FB : Word).toNat % 2 ^ 16 * 2 ^ 32 + ((dev []).hub.rd 0x1B00020).toNat < incrMin) ∧
    (incrMax < (0x804 : Word).toNat % 2 ^ 16 * 2 ^ 32 + ((dev []).hub.rd 0x1B00020).toNat) ∧
    (incrMin ≤ (0x800 : Word).toNat % 2 ^ 16 * 2 ^ 32 + ((dev []).hub.rd 0x1B00020).toNat ∧
      (0x800 : Word).toNat % 2 ^ 16 * 2 ^ 32 + ((dev []).hub.rd 0x1B00020).toNat ≤ incrMax) :=
  ⟨canon_of (by decide), by decide +kernel⟩

theorem wit_servo :
    ((dev []).canon ∧ (dev []).hub.hostIn = true ∧ (dev []).hub.get TIM.CFG.SERVO ≠ 1) ∧
    (let s := devF [(TIM.CFG.SERVO, 0, 1)]
     s.canon ∧ s.hub.get TIM.CFG.SERVO = 1 ∧ s.hub.get GLB.STATUS.FROZEN = 0 ∧ (1 : Word).getLsbD 0 = true ∧ s.hub.get TIM.STATUS.STATE ≠ 1 ∧
       (0 : Word).getLsbD 0 = (s.hub.get TIM.STATUS.STATE == 1)) ∧
    (let s := devF [(TIM.CFG.SERVO, 0, 1), (TIM.STATUS.STATE, 0, 1)]
     s.canon ∧ s.hub.get TIM.CFG.SERVO = 1 ∧ s.hub.get GLB.STATUS.FROZEN = 0 ∧ (0 : Word).getLsbD 0 = false ∧ s.hub.get TIM.STATUS.STATE = 1) ∧
    (devF [(GLB.STATUS.FROZEN, 0, 1)]).hub.get GLB.STATUS.FROZEN ≠ 0 :=
  ⟨⟨canon_of (by decide +kernel), by decide +kernel⟩, ⟨canon_of (by decide +kernel), by decide +kernel⟩, ⟨canon_of (by decide +kernel), by decide +kernel⟩, by decide +kernel⟩

/-- The PTP service runs; the servo stands in `st`; port 0 has measured `good` times; 3 s have passed. -/
def devServo (st good : Nat) : State :=
  let s := devF [(HIF.SVC_STAT.STATE, 10, 1), (TIM.STATUS.STATE, 0, st), (TIM.STATUS.SLAVE_PORT, 0, 0), (LNK.ETH_STAT.STATE, 0, 3), (TIM.CFG.WATCHDOG, 0, 3)]
  { s with hub := { s.hub with ticks := 375000000, time := { sec := 3 } }, fab := { ports := [⟨1, 0, 0, 1, 0x0101⟩] }
           tim := { ports := [(0, { slave := true, good := good, announced := 3000000000 })] } }

theorem wit_servoFollows :
    (let s := devServo 0 16
     s.canon ∧ s.ptpRuns = true ∧ s.hub.get TIM.CFG.SERVO = 0 ∧ 16 ≤ (s.tim.port (s.hub.get TIM.STATUS.SLAVE_PORT)).good ∧ s.hub.get TIM.STATUS.STATE ≠ 1) ∧
    (let s := devServo 1 15
     s.canon ∧ ¬16 ≤ (s.tim.port (s.hub.get TIM.STATUS.SLAVE_PORT)).good ∧ s.ptpLost 0 = false ∧ s.ptpLost 1 = true ∧ s.hub.get TIM.STATUS.STATE = 1 ∧
       s.hub.get TIM.CFG.WATCHDOG ≠ 0 ∧ s.hub.get GLB.STATUS.FROZEN ≠ 1 ∧
       s.tim.servoAt + s.hub.get TIM.CFG.WATCHDOG * 1000000000 ≤ s.hub.time.total) ∧
    (let s : State := { devServo 1 15 with tim := { servoAt := 1 } }
     s.hub.time.total < s.tim.servoAt + s.hub.get TIM.CFG.WATCHDOG * 1000000000) ∧
    (dev []).ptpRuns = false :=
  ⟨⟨canon_of (by decide +kernel), by decide +kernel⟩, ⟨canon_of (by decide +kernel), by decide +kernel⟩, by decide +kernel, by decide +kernel⟩

/-- Pin 3 high since 0 and pin 2 due; pin 0 captured on request; a second has been carried; 8 µs have passed. -/
def devPins : State :=
  let s := devF [(TIM.PPS_OUT.ENABLE, 0, 1), (TIM.TEV_CTL.MODE, 0, 1), (TIM.PPS_OUT.WIDTH_US, 0, 8), (TIM.TEV_CTL.WIDTH_US, 3, 8)]
  { s with hub := { s.hub with ticks := 1000 }
           tim := { tev := [(0, { unread := true }), (2, { next := some 8 }), (3, { level := true })], ppsUnread := true, carry := true } }

theorem wit_pins :
    (devPins.canon ∧ devPins.tim.ppsUnread = true ∧ devPins.hub.rd 0x1B00064 ≠ BitVec.allOnes 32 ∧ (dev []).tim.ppsUnread = false ∧
      devPins.hub.get TIM.PPS_OUT.ENABLE = 1 ∧ devPins.tim.carry = true ∧ devPins.tim.ppsOut = false ∧ (dev []).tim.carry = false ∧
      (dev []).hub.get TIM.PPS_OUT.ENABLE ≠ 1) ∧
    (3 < 4 ∧ (devPins.tim.pin 3).level = true ∧ (devPins.tim.pin 3).rose + pulseNs (devPins.hub.get1 TIM.TEV_CTL.WIDTH_US 3) = devPins.hub.elapsed ∧
      (devPins.tim.pin 2).level = false) ∧
    (({ devPins with tim := { ppsOut := true } } : State).tim.ppsOut = true ∧ pulseNs (devPins.hub.get TIM.PPS_OUT.WIDTH_US) = devPins.hub.elapsed) ∧
    (devPins.hub.get1 TIM.TEV_CTL.MODE 0 = 1 ∧ (devPins.tim.pin 0).unread = true ∧ devPins.hub.get1 TIM.TEV_CTL.MODE 3 ≠ 1) ∧
    ((devPins.tim.pin 2).next = some 8 ∧ devPins.hub.time.total < 8 ∧ devPins.hub.get1 TIM.TEV_CTL.MODE 2 ≠ 3 ∧
      ({ devPins with hub := { devPins.hub with time := { ns := 8 } } } : State).hub.time.total = 8) ∧
    (devPins.hub.hostIn = true ∧ TIM.TEV_CTL.MODE.of 0 = 0 ∧ TIM.TEV_CTL.MODE.of (TIM.TEV_CTL.MODE.into 0 2) = 2) :=
  ⟨⟨canon_of (by decide +kernel), by decide +kernel⟩, by decide +kernel⟩

/-- PTP on port 31, which is UP and leads or may follow; the service runs. -/
def devPtp (slave : Bool) (sent : List (Nat × Nat)) : State :=
  let s := devF [(HIF.SVC_STAT.STATE, 10, 1), (TIM.PORT_CFG.PTP_EN, 31, 1), (LNK.ETH_STAT.STATE, 31, 3)]
  { s with fab := { ports := [⟨1, 31, 0, 1, 0x0101⟩] }, tim := { ports := [(31, { role := 1, slave := slave, sent := sent })] } }

/-- A Sync of domain `d` on port 31. -/
def sync (d : Nat) (sl : Option Bool) : PtpFrame := ⟨31, d, 0, 65535, 1, 999999999, 0, 1, 0, 0, true, none, sl⟩

theorem wit_ptp :
    (let s := devPtp false []
     s.canon ∧ s.hub.get1 TIM.PORT_CFG.PTP_EN 31 = 1 ∧ s.portUp 31 = true ∧ s.hub.get GLB.STATUS.FROZEN = 0 ∧ (sync 127 none).domain = s.tim.domain ∧
       (sync 0 none).domain ≠ s.tim.domain ∧ s.hub.rd 0x1B00060 ≠ BitVec.allOnes 32 ∧ s.hub.get1 TIM.PORT_CFG.PTP_EN 0 ≠ 1 ∧ s.portUp 0 = false ∧
       ((s.tim.port 31).take (sync 127 (some true)) (s.rxStamp 31 0 0 0) s.tim.lockNs s.hub.elapsed).mayFollow = true ∧
       (sync 127 (some true)).slave = some true ∧ (sync 127 (some false)).slave = some false ∧ (sync 127 none).slave = none) ∧
    (let s := devPtp false [(0, 0)]
     s.ptpRuns = true ∧ (s.tim.port 31).role ≠ 0 ∧ (s.tim.port 31).leads = true ∧ kvGet 0 (s.tim.port 31).sent = some 0 ∧
       s.hub.elapsed < 0 + (s.tim.port 31).interval 0 ∧ kvGet 11 (s.tim.port 31).sent = none) ∧
    (let s := devPtp true []
     s.ptpRuns = true ∧ (s.tim.port 31).slave = true ∧ kvGet 1 (s.tim.port 31).sent = none) ∧
    (bodyU8 [31] 0 < 32 ∧ 32 ≤ bodyU8 [32] 0) :=
  ⟨⟨canon_of (by decide +kernel), by decide +kernel⟩, by decide +kernel⟩

/-- A device in service whose supply loop stands in `st` at 840 mV, with 24 monitors valid and the worst at `worst`. -/
def devPace (st worst : Nat) : State :=
  { devF [(GLB.PACE_LOOP.VDD_MV, 0, 840), (GLB.PACE_LOOP.STATE, 0, st), (GLB.PACE_LOOP.TARGET, 0, 8355), (GLB.PACE_SUM.VALID_CNT, 0, 24),
      (GLB.PACE_SUM.WORST, 0, worst)] with start := { phase := .running } }

theorem wit_islands :
    (Island.pcie ∉ (dev []).fab.down ∧ Island.pcie ∈ ({ fab := { down := [.pcie] } } : State).fab.down ∧ Island.time ≠ Island.pcie ∧
      (∀ r ∈ (dev []).mem.held, r.page ≠ none)) ∧
    (∀ c ∈ [[], List.replicate 32 15754, List.replicate 32 20000], (dev []).canon ∧ (∀ d ∈ (dev []).fab.sashes, d.id < 1024) ∧ c.length ≤ 32) ∧
    ((dev []).hub.get GLB.PACE_SUM.EMERG = 0 ∧ validPaces 0 (([] : List Nat).take 32) = [] ∧
      (∃ i p, worstPace (validPaces 0 ((List.replicate 32 15754).take 32)) = some (i, p))) := by
  refine ⟨?_, ?_, ?_, ?_, ?_⟩
  · decide +kernel
  · intro c hc
    exact ⟨canon_of (by decide), by decide, by revert c; decide⟩
  · decide +kernel
  · decide +kernel
  · exact ⟨_, _, Option.eq_some_of_isSome (by decide +kernel)⟩

theorem wit_supply :
    ((devPace 5 0).hub.get GLB.PACE_LOOP.STATE = 5 ∧ (dev []).loopRuns = false) ∧
    ((devPace 0 8438).canon ∧ (devPace 0 8438).loopRuns = true ∧ (devPace 0 8438).hub.get GLB.PACE_LOOP.STATE ≠ 5 ∧
      24 ≤ (devPace 0 8438).hub.get GLB.PACE_SUM.VALID_CNT ∧ (devPace 0 8438).hub.paceTarget + 82 < (devPace 0 8438).hub.get GLB.PACE_SUM.WORST ∧
      (devPace 0 8438).hub.get GLB.PACE_LOOP.VDD_MV < 850 ∧ (devPace 0 8438).hub.overCap 0 = false ∧ (devPace 0 8438).hub.overCap 10000000 = true) ∧
    ((devPace 0 8437).canon ∧ (devPace 0 8437).hub.get GLB.PACE_SUM.WORST ≤ (devPace 0 8437).hub.paceTarget + 82 ∧
      ¬(devPace 0 8437).hub.get GLB.PACE_SUM.WORST + 164 < (devPace 0 8437).hub.paceTarget) ∧
    (let s : State := { devPace 0 8190 with fab := { lowRun := 7 } }
     s.canon ∧ s.hub.get GLB.PACE_SUM.WORST + 164 < s.hub.paceTarget ∧ 7 ≤ s.fab.lowRun ∧ 600 < s.hub.get GLB.PACE_LOOP.VDD_MV) ∧
    (let s : State := { devF [(GLB.PACE_SUM.VALID_CNT, 0, 23), (GLB.PACE_LOOP.STATE, 0, 0)] with start := { phase := .running } }
     s.canon ∧ s.loopRuns = true ∧ s.hub.get GLB.PACE_LOOP.STATE ≠ 5 ∧ s.hub.get GLB.PACE_SUM.VALID_CNT < 24) ∧
    (850 ≤ (devF [(GLB.PACE_LOOP.VDD_MV, 0, 850)]).hub.get GLB.PACE_LOOP.VDD_MV) := by
  refine ⟨?_, ⟨canon_of ?_, ?_⟩, ⟨canon_of ?_, ?_⟩, ⟨canon_of ?_, ?_⟩, ⟨canon_of ?_, ?_⟩, ?_⟩ <;> decide +kernel

theorem wit_spares : (6 : Nat) ≠ 5 ∧ ({ dbt := { retiring := [(chanId 6 0, 1)] } } : State).dbt.retiring.find? (·.1 = chanId 6 0) = some (chanId 6 0, 1) ∧
    (let s : State := { dbt := { bistSched := [(6, 0)] } }
     s.dbt.retiring.find? (·.1 = chanId 6 0) = none ∧ (6, 0) ∈ s.dbt.bistSched ∧ s.emergency = false) ∧
    ((6, 0) ∉ (dev []).dbt.bistSched ∧ (dev []).dbt.retiring.find? (·.1 = chanId 6 0) = none) ∧ (devF [(GLB.PACE_SUM.EMERG, 0, 1)]).emergency = true := by
  decide +kernel

/-- One sash with tokens at path 3's link arbiter. -/
def tok : TokenCtr := { kind := 2, index := resIndex 2 3, sash := 0, count := 1 }

def devTok : State := { dev [] with fab := { counters := [tok], sashes := [⟨0, 0, 2, [], []⟩] } }

theorem wit_grants :
    (devTok.granting = true ∧ devTok.emergency = false ∧ (∀ x ∈ devTok.fab.held, ¬(x.kind = 2 ∧ x.index = resIndex 2 3)) ∧ (⟨0, 2 ^ 40⟩ : ArbReq).sash < 0x400 ∧
      devTok.fab.cls 0 ≤ 2 ∧ devTok.fab.counter 2 (resIndex 2 3) 0 = some tok ∧ (0 : Int) < tok.count ∧ devTok.hub.get GLB.STATUS.FROZEN ≠ 1) ∧
    ((devF [(GLB.STATUS.FROZEN, 0, 1)]).hub.get GLB.STATUS.FROZEN = 1 ∧ ({ fab := { closed := true } } : State).fab.closed = true ∧
      ({ fab := { closed := true } } : State).emergency = false ∧ (0x3FF : Nat) < 0x400) := by
  decide +kernel

theorem wit_pick : (⟨devTok.fab, devTok.hub, false, 2, resIndex 2 3⟩ : ArbView).pick [⟨0, 1⟩] = some ⟨0, 1⟩ := by decide +kernel

/-- The sash of the number given stands in state `st`. -/
def devSash (n st : Nat) : State := devF [(GLB.SASH_STAT.STATE, n, st)]

theorem wit_sashes :
    (let s : State := { devSash 1023 2 with fab := { built := [⟨1, 1023, 8, 16, 1, false, true⟩] } }
     s.hub.sashState 1023 = 2 ∧ s.fab.waitsAt 1023 = some 16 ∧ kvGet 1023 s.fab.pend = none) ∧
    ((devSash 0 2).canon ∧ (devSash 0 2).hub.sashState 0 = 2 ∧ (devSash 0 2).fab.waitsAt 0 = none ∧ kvGet 0 (devSash 0 2).fab.pend = none ∧
      (∀ i, ((devSash 0 2).hng.core i).ready = false)) ∧
    (let s : State := { devSash 0 6 with fab := { pend := [(0, {})] } }
     s.hub.sashState 0 = 6 ∧ kvGet 0 s.fab.pend = some {}) ∧
    ((devF [(GLB.PACE_SUM.EMERG, 0, 1), (GLB.SASH_STAT.EMERG_HELD, 5, 1)]).hub.get GLB.PACE_SUM.EMERG = 1 ∧
      (devF [(GLB.PACE_SUM.EMERG, 0, 1), (GLB.SASH_STAT.EMERG_HELD, 5, 1)]).hub.get1 GLB.SASH_STAT.EMERG_HELD 5 = 1) ∧
    ((devSash 5 4).hub.get GLB.STATUS.FROZEN ≠ 1 ∧ (devSash 5 4).hub.get GLB.PACE_SUM.EMERG ≠ 1 ∧ (devSash 5 4).hub.sashState 5 = 4 ∧ (devSash 5 4).lch.pend = [] ∧
      (devSash 5 4).lch.waiting = [] ∧ (devSash 5 4).ldr.persWait = []) := by
  refine ⟨?_, ⟨canon_of ?_, ?_, ?_, ?_, fun _ => rfl⟩, ?_, ?_, ?_⟩ <;> decide +kernel

/-- A commit, full or of sash 1023, that is being parsed, of an empty bank. -/
def devLoad (scope : Bool) : State := { dev [] with ldr := { busy := some (⟨true, scope, 1023⟩, some ⟨0, 0, 0, 0, 0, [], 0⟩) } }

theorem wit_loader : (dev []).ldr.busy = none ∧ (devF [(GLB.PACE_SUM.EMERG, 0, 1)]).hub.get GLB.PACE_SUM.EMERG = 1 ∧
    (devF [(GLB.STATUS.FROZEN, 0, 1)]).hub.get GLB.STATUS.FROZEN = 1 ∧
    (∀ b ∈ [false, true], (devLoad b).ldr.busy = some (⟨true, b, 1023⟩, some ⟨0, 0, 0, 0, 0, [], 0⟩) ∧ (devLoad b).hub.get GLB.PACE_SUM.EMERG ≠ 1 ∧
      (devLoad b).hub.get GLB.STATUS.FROZEN ≠ 1 ∧ (devLoad b).bankUp = true ∧ (devLoad b).lch.pend.length < 16 ∧ (devLoad b).ldr.queue = none ∧
      (devLoad b).ldr.superseded ⟨true, b, 1023⟩ = false) ∧
    ({ devLoad false with fab := { down := [.hbm 0, .hbm 1] } } : State).bankUp = false := by
  decide +kernel

theorem wit_refill : tok ∈ (devTok.fab.refill devTok.hub).counters ∨ ∃ c, c ∈ (devTok.fab.refill devTok.hub).counters := by
  refine .inr ⟨_, List.mem_of_mem_head? (Option.eq_some_of_isSome ?_)⟩
  decide +kernel

/-- A live device in service, its counter in the last period of a second. -/
def devLast : State := { dev [] with start := { phase := .running }, fab := { period := 7999 } }

theorem wit_boundaries :
    (State.reset.alive = false) ∧
    (let s : State := { devF [(GLB.STATUS.FROZEN, 0, 1)] with start := { phase := .running } }
     s.alive = true ∧ s.hub.get GLB.STATUS.FROZEN = 1 ∧ s.fab.period = s.hub.time.period ∧ s.hub.time.ns < 1000000000 ∧ s.hub.time.sec + 1 < 2 ^ 48) ∧
    (∀ c ∈ [true, false], let s : State := { devLast with hub := { devLast.hub with time := { ns := 999999999 } }, fab := { devLast.fab with closed := c } }
     s.alive = true ∧ s.hub.get GLB.STATUS.FROZEN ≠ 1 ∧ s.serving = !c ∧ s.fab.held = [] ∧ s.fab.period = s.hub.time.period ∧
       s.hub.time.ns < 1000000000 ∧ s.hub.time.sec + 1 < 2 ^ 48 ∧ regsWf s.hub.regs = true) ∧
    ((dev [(0x200050, 1)]).canon ∧ (dev [(0x200050, 1)]).granting = true ∧ (dev [(0x200050, 1)]).hub.get64 LCH.PUB_GEN_LO.GEN 0 % 2 = 1 ∧
      (dev [(0x200050, 1)]).hub.get64 LCH.PUB_GEN_LO.GEN 0 + 1 < 2 ^ 64 ∧ (dev []).hub.get64 LCH.PUB_GEN_LO.GEN 0 % 2 = 0) ∧
    (TIM.STEP_CMD.GO.of 0 = 0 ∧ State.reset.hub.hostIn = false ∧ devLast.hub.hostIn = true ∧ TIM.STEP_CMD.GO.of (TIM.STEP_CMD.GO.into 0 1) = 1 ∧ devLast.fab.held = []) := by
  refine ⟨?_, ?_, ?_, ⟨canon_of ?_, ?_⟩, ?_⟩ <;> decide +kernel

/-- A pending Latch and a shadow write of function 1, not yet sealed. -/
def latch (n : Nat) : Latch := { num := n, at_ := .bound 3, items := [] }

def devOpen : State := { dev [] with lch := { openSet := [⟨1, .write 0x1200200 1 1⟩, ⟨0, .write 0x1200200 1 1⟩], pend := (List.range 15).map latch } }

theorem wit_commits :
    (let s : State := { dev [] with lch := { pend := (List.range 16).map latch } }
     s.hub.hostIn = true ∧ 16 ≤ s.lch.pend.length) ∧
    (devOpen.canon ∧ devOpen.hub.hostIn = true ∧ devOpen.lch.pend.length < 16 ∧ devOpen.hub.get64 LCH.ACCEPTED_LO.NUM 0 + 1 < 2 ^ 64) ∧
    (LCH.COMMIT.GROUP.of 0 = 0 ∧ (dev []).schedBound (dev []).hub.schedRaw 4096 = none) := by
  refine ⟨?_, ⟨canon_of ?_, ?_⟩, ?_⟩ <;> decide +kernel

/-- A time 125 µs ahead is the next boundary, where 4,096 hc are left; one hc less is too late. -/
theorem wit_sched : ∃ b, (devF [(LCH.SCHED_NS.NS, 0, 125000)]).schedBound (devF [(LCH.SCHED_NS.NS, 0, 125000)]).hub.schedRaw 4096 = some b := by
  exact ⟨_, Option.eq_some_of_isSome (by decide +kernel)⟩

/-- A group Latch that waits for its decision at time 0, with and without ABORT. -/
def grpLatch (abort : Bool) : Latch := { num := 7, at_ := .sched 0, items := [⟨0, .write 0x1200200 1 1⟩], group := true, abort := abort, decided := false }

def devGroup (abort : Bool) (m : Nat) : State := { devF [(LCH.GRP_MAP.MAP, 0, m)] with lch := { pend := [grpLatch abort] } }

/-- A snapshot in progress, its capture passed or not, waiting for the listed members. -/
def snap (captured : Bool) (w : List Nat) : Snap := { when_ := .bound 1, group := true, clrHw := false, addr := 0, len := 4096, sect := 0, captured := captured, waiting := w }

def devSnap (captured : Bool) (w : List Nat) : State := { dev [] with lch := { snap := some (snap captured w) } }

/-- A group whose map is empty has no member, one that names a device of no ARM misses it. -/
theorem missing_none (s : State) (tag ns : Nat) (h : ∀ w ∈ List.range 64, s.hub.get1 LCH.GRP_MAP.MAP w = 0) : s.missing tag ns = [] := by
  have e : s.hub.groupMembers = [] := by
    unfold Hub.groupMembers
    rw [List.filter_eq_nil_iff]
    intro d hd
    rw [h (d / 32) (by simp only [List.mem_range] at *; omega)]
    simp
  unfold State.missing
  rw [e]
  rfl

theorem missing_one (s : State) (tag ns d : Nat) (hd : d < 2048) (h : (s.hub.get1 LCH.GRP_MAP.MAP (d / 32)).testBit (d % 32) = true) (hn : d ≠ s.hub.get LNK.CFG.DEVICE)
    (ha : s.lch.arms = []) : s.missing tag ns ≠ [] := by
  have m : d ∈ s.missing tag ns := by
    unfold State.missing Hub.groupMembers
    simp [ha, h, hd, hn]
  exact List.ne_nil_of_mem m

/-- The kept ARM at its last instant; the group decided with a complete and an incomplete group. -/
theorem wit_groups :
    ((dev []).hub.time.total ≤ (dev []).hub.instant 0 + 1000000000 ∧ (dev []).hub.time.total < (dev []).hub.instant 0 + 1000000000 ∧
      ({ hub := { time := { sec := 1 } } } : State).hub.time.total = 1000000000) ∧
    (∀ a ∈ [true, false], ∀ m ∈ [0, 2], let s := devGroup a m
     s.hub.get GLB.STATUS.FROZEN ≠ 1 ∧ (∀ p ∈ s.lch.pend, p.reason ≠ 2) ∧ s.lch.pend.find? (·.num = 7) = some (grpLatch a) ∧ s.guardTime 7 = true ∧
       (grpLatch a).decided = false ∧ (grpLatch a).abort = a ∧ (if m = 0 then s.missing 0 0 = [] else s.missing 0 0 ≠ [])) ∧
    (dev []).guardTime 7 = false := by
  refine ⟨by decide +kernel, ?_, by decide +kernel⟩
  intro a ha m hm
  have h : m = 0 ∨ m = 2 := by simpa using hm
  refine ⟨?_, ?_, ?_, ?_, ?_, ?_, ?_⟩
  case refine_7 =>
    rcases h with rfl | rfl
    · exact missing_none _ _ _ (by revert a; decide +kernel)
    · exact missing_one _ _ _ 1 (by decide) (by revert a; decide +kernel) (by revert a; decide +kernel) rfl
  all_goals (revert a m; decide +kernel)

/-- 100 ms after a capture at 0. -/
def devSilent : State := { devSnap true [2] with hub := { bar := .live, ticks := 12500000 } }

theorem wit_snapshots :
    ((devSnap false [2]).hub.hostIn = true ∧ (devSnap false [2]).lch.snap = some (snap false [2]) ∧ 2 ∈ (snap false [2]).waiting ∧ 3 ∉ (snap false [2]).waiting ∧
      (snap false [2]).captured = false) ∧
    ((dev []).canon ∧ (dev []).hub.hostIn = true ∧ (dev []).lch.snap = none ∧ LCH.SNAP_CMD.GROUP.of 0 = 0) ∧
    ((devSnap true [2]).lch.snap = some (snap true [2]) ∧ (snap true [2]).captured = true ∧ (snap true [2]).waiting = [2] ∧ (snap true [2]).ended = false ∧
      64 ≤ (snap true [2]).len ∧ (List.replicate 4032 (0 : Byte)).length ≤ (snap true [2]).len - (snap true [2]).pos ∧ (snap true [2]).early = [] ∧
      kvHas 2 (snap true [2]).early = false) ∧
    ((devSnap true [2]).hub.elapsed < (snap true [2]).capAt + 100000000 ∧ (snap true [2]).capAt + 100000000 ≤ devSilent.hub.elapsed) ∧
    ((devSnap true []).canon ∧ (devSnap true []).lch.snap = some (snap true []) ∧ (snap true []).captured = true ∧ (snap true []).waiting = []) := by
  refine ⟨?_, ⟨canon_of ?_, ?_⟩, ⟨?_, ?_, ?_, ?_, ?_, ?_, ?_, ?_⟩, ?_, ⟨canon_of ?_, ?_⟩⟩
  case refine_9 => rw [List.length_replicate]; decide
  all_goals decide +kernel

theorem wit_conferences :
    (kvGet 0 (fw {}).fwd.confs = none ∧ kvGet 0 (fw { confs := [(0, ⟨1, 2, false⟩)] }).fwd.confs = some ⟨1, 2, false⟩ ∧ (⟨1, 2, false⟩ : Conf).gone = false ∧ (⟨1, 2, false⟩ : Conf).reached 3 = false ∧
      (⟨1, 2, false⟩ : Conf).reached 2 = true ∧ (⟨1, 2, true⟩ : Conf).gone = true ∧ (fw { confs := [(0, ⟨1, 2, false⟩)] }).fwd.confLegs 0 = []) ∧
    (let s := fw { confs := [(0, ⟨1, 0, false⟩)] }
     bodyN [0xFF, 0x0F] 0 2 < s.hub.legLimit ∧ s.hub.reachesLeg 0 (bodyN [0xFF, 0x0F] 0 2) = true ∧ kvGet (legOf [0xFF, 0x0F]).conf s.fwd.confs = some ⟨1, 0, false⟩ ∧
       (⟨1, 0, false⟩ : Conf).reached 0 = true ∧ (⟨1, 0, false⟩ : Conf).gone = false ∧ kvGet (bodyN [0xFF, 0x0F] 0 2) s.fwd.legs = none) ∧
    (let s := fw { legs := [(0, legOf [])] }
     bodyN [] 0 2 < s.hub.legLimit ∧ kvGet (bodyN [] 0 2) s.fwd.legs = some (legOf []) ∧ (legOf []).state ≠ 3 ∧ (legOf []).conf = (legOf [0, 0, 0, 0x10]).conf ∧
       (legOf []).conf ≠ (legOf [0, 0, 1]).conf ∧ (legOf []).kind = 0 ∧ (legOf [0, 0, 0, 0, 1]).kind ≠ 0 ∧ pfL.latched = true ∧ pf.latched = false) ∧
    ((legOf (List.replicate 0x39 0 ++ [1])).lpwd ≠ (legOf (List.replicate 0x39 0 ++ [1] ++ List.replicate 8 7)).lpwd ∧
      (legOf (List.replicate 0x39 0 ++ [1])).kind = 0) := by
  decide +kernel

theorem wit_streams :
    ((fw {}).streamRefused pf [] = some 3 ∧ (fw { legs := [(0, legOf [])] }).streamRefused pf [] = none ∧ bodyU8 [] 2 ≠ 1 ∧
      (fw { legs := [(0, legOf [])] }).streamRefused pf [0, 0, 1] = none ∧ bodyU8 [0, 0, 1] 2 = 1) ∧
    (let s := devSub (legOf []) inS sub0
     kvGet 0 s.fwd.ins = some inS ∧ s.hub.reachesLeg 0 inS.leg = true ∧ inS.gone = false ∧ inS.key.pending = false ∧ kvGet 0 s.fwd.outs = some outS ∧
       s.hub.reachesLeg 0 outS.leg = true ∧ outS.gone = false ∧ kvGet 0 (fw {}).fwd.ins = none ∧
       kvGet 0 s.fwd.legs = some (legOf []) ∧ s.hub.reachesLeg 0 0 = true ∧ (legOf []).state ≠ 3 ∧ bodyN [] 0 2 < s.hub.legLimit ∧
       s.hub.legLimit ≤ bodyN (leBytes 2 s.hub.legLimit) 0 2) ∧
    (fwdKeyRow (bodyN [1] 0 2) = some (5000, 1000, 15000) ∧ 1000 ≤ bodyN ([1, 0, 0, 0] ++ leBytes 4 1000) 4 4 ∧ bodyN ([1, 0, 0, 0] ++ leBytes 4 15000) 4 4 ≤ 15000 ∧
      bodyN ([1, 0, 0, 0] ++ leBytes 4 999) 4 4 < 1000 ∧ 15000 < bodyN ([1, 0, 0, 0] ++ leBytes 4 15001) 4 4 ∧ fwdKeyRow (bodyN [0] 0 2) = none) := by
  decide +kernel

/-- The body of a subscription in another role. -/
def subB : List Byte := List.replicate 10 0 ++ [1]

theorem wit_subscriptions :
    (let s : State := fw { legs := [(0, legOf [])], ins := [(0, inS)], outs := [(0, outS)] }
     bodyN [0xFF, 0xFF, 0x3F, 0] 0 4 < s.hub.subLimit ∧ s.fwd.sub? 4194303 = none ∧ (subOf s.fwd [0xFF, 0xFF, 0x3F, 0]).leg < s.hub.legLimit ∧
       s.subRefused pf (subOf s.fwd [0xFF, 0xFF, 0x3F, 0]) = none ∧ s.subRefused pfL (subOf s.fwd [0xFF, 0xFF, 0x3F, 0]) = none) ∧
    (let s := devSub (legOf []) inS sub0
     bodyN [] 0 4 < s.hub.subLimit ∧ s.fwd.sub? 0 = some sub0 ∧ s.hub.reachesLeg 0 sub0.leg = true ∧ sub0.gone = false ∧
       s.hub.reachesDest 0 (subOf s.fwd subB).role (subOf s.fwd subB).dest = true ∧
       ¬(sub0.leg = (subOf s.fwd subB).leg ∧ sub0.out = (subOf s.fwd subB).out ∧ sub0.src = (subOf s.fwd subB).src ∧ sub0.role = (subOf s.fwd subB).role) ∧
       s.hub.reachesDest 0 (subOf s.fwd []).role (subOf s.fwd []).dest = true ∧
       sub0.leg = (subOf s.fwd []).leg ∧ sub0.out = (subOf s.fwd []).out ∧ sub0.src = (subOf s.fwd []).src ∧ sub0.role = (subOf s.fwd []).role) ∧
    (let s := fw { confs := [(0, ⟨1, 0, true⟩)], legs := [(0, legOf [])], removals := [⟨0, 0, none⟩, ⟨1, 0, some (pf, 0x0105)⟩] }
     s.fwd.removals.find? (fun x => x.kind = 0 ∧ x.id = 0) = some ⟨0, 0, none⟩ ∧ s.fwd.confLegs 0 ≠ [] ∧
       s.fwd.removals.find? (fun x => x.kind = 1 ∧ x.id = 0) = some ⟨1, 0, some (pf, 0x0105)⟩) ∧
    (let s := fw { confs := [(0, ⟨1, 0, true⟩)], removals := [⟨0, 0, some (pf, 0x0102)⟩] }
     s.fwd.removals.find? (fun x => x.kind = 0 ∧ x.id = 0) = some ⟨0, 0, some (pf, 0x0102)⟩ ∧ kvSorted s.fwd.confs = true ∧ s.fwd.confLegs 0 = []) := by
  decide +kernel

/-- 40 s after a reset. -/
def late (s : State) : State := { s with hub := { s.hub with ticks := 5000000000 } }

/-- Leg 0 ACTIVE, of KIND 0, whose estimate is 0 and whose timers have just run; an inbound stream that shows layer 0 at 8 bytes in the last second and has gaps; a subscription that
waits. -/
def legA : Leg := { legOf [] with state := 1, reqAt := some 0, rtcpAt := some 0, ccfbAt := some 0, allocAt := some 0 }

def inGap (tries : Nat) : InStream :=
  { inS with codec := 3, gaps := [{ seq := 65535, at_ := 0, tries := tries }], recent := [(0, 0, 1000)], key := { pending := true, plis := tries, sent := some 0 } }

def subA (st : Nat) : Sub := { sub0 with state := st, mode := 0 }

theorem wit_legTimers :
    (let s := devSub legA (inGap 0) (subA 1)
     kvGet 0 s.fwd.legs = some legA ∧ legA.state = 1 ∧ legA.kind = 0 ∧ (legOf []).state ≠ 1 ∧
       (pastMs s.hub.elapsed legA.reqAt (s.fwd.key 1) 8 = false ∧ pastMs s.hub.elapsed legA.rtcpAt (s.fwd.key 3) 5 = false ∧
         pastMs s.hub.elapsed legA.ccfbAt (s.fwd.key 4) 10 = false ∧ pastMs s.hub.elapsed legA.allocAt (s.fwd.key 12) 10 = false ∧
         s.hub.elapsed < legA.consentAt + 1000000 * s.fwd.key 2)) ∧
    (let s := late (devSub legA (inGap 0) (subA 1))
     pastMs s.hub.elapsed legA.reqAt (s.fwd.key 1) 8 = true ∧ pastMs s.hub.elapsed legA.rtcpAt (s.fwd.key 3) 5 = true ∧
       pastMs s.hub.elapsed legA.ccfbAt (s.fwd.key 4) 10 = true ∧ pastMs s.hub.elapsed legA.allocAt (s.fwd.key 12) 10 = true ∧
       legA.consentAt + 1000000 * s.fwd.key 2 ≤ s.hub.elapsed ∧
       s.fwd.subs = [(0, subA 1)] ∧ (subA 1).leg = 0 ∧ (subA 1).gone = false ∧ (subA 1).ghost = false ∧ (subA 1).state ≠ 4 ∧ (subA 1).mode = 0 ∧
       s.fwd.single (subA 1) = false) ∧
    (let s := { devSub legA { inGap 0 with recent := [(39999999999, 0, 1000)] } (subA 1) with hub := { bar := .live, ticks := 5000000000 } }
     legA.cnt.est * s.fwd.key 13 / 100 < s.layerRate (subA 1) ((s.layers (subA 1)).headD (0, 0)).1 ((s.layers (subA 1)).headD (0, 0)).2) := by
  decide +kernel

theorem wit_recoveryTimers :
    (let s := devSub legA (inGap 0) (subA 3)
     kvGet 0 s.fwd.ins = some (inGap 0) ∧ (inGap 0).gaps.find? (·.seq = 65535) = some { seq := 65535, at_ := 0 } ∧ 0 < s.fwd.key 9 ∧
       s.nackDue 0 { seq := 65535, at_ := 0 } = false ∧ (late s).nackDue 0 { seq := 65535, at_ := 0 } = true ∧
       (late s).nackDue 0 { seq := 65535, at_ := 0, tries := 1, last := 39980000001 } = false ∧
       (late s).nackDue 0 { seq := 65535, at_ := 0, tries := 1, last := 39980000000 } = true ∧
       kvGet 0 s.fwd.subs = some (subA 3) ∧ (subA 3).state = 3 ∧ (subA 3).asked = false ∧ (subA 3).gone = false ∧ (subA 1).state ≠ 3 ∧
       s.hub.elapsed < (subA 3).upAt + 1000000 * s.fwd.key 7 ∧ (subA 3).upAt + 1000000 * s.fwd.key 7 ≤ (late s).hub.elapsed) ∧
    (let s := devSub legA (inGap 0) (subA 3)
     (inGap 0).gone = false ∧ inS.key.pending = false ∧ (inGap 0).key.pending = true ∧ (inGap 0).key.sent = some 0 ∧ s.hub.elapsed < 0 + 1000000 * s.fwd.key 5 ∧
       0 + 1000000 * s.fwd.key 5 ≤ (late s).hub.elapsed ∧ (inGap 0).key.plis < s.fwd.key 6) ∧
    ((inGap 16).gaps.find? (·.seq = 65535) = some { seq := 65535, at_ := 0, tries := 16 } ∧ (fw {}).fwd.key 9 ≤ 16 ∧ (fw {}).fwd.key 6 ≤ (inGap 16).key.plis ∧
      (inGap 16).key.fir = false) := by
  decide +kernel

/-- A frame at port `p`; `udp` of it a datagram of addresses 0. -/
def frame (p n : Nat) (ok udp : Bool) : RxFrame :=
  ⟨p, udp, false, [0, 0, 0, 0], [0, 0, 0, 0], 0, 0, List.replicate n 0, [], true, true, false, ⟨false, 0, 0, false, false, false, [], false⟩, [], 0, ok, none⟩

/-- Port 31 stands in `st`; sash 0 is the forwarding sash of its port and slice 0, leg 0 carries addresses 0. -/
def devPort (st : Nat) : State :=
  { devF [(LNK.ETH_STAT.STATE, 31, st), (GLB.SASH_STAT.STATE, 0, 3)] with
    start := { phase := .running }
    fab := { ports := [⟨1, 31, 0, 1, 0x0101⟩], sashes := [⟨0, 0, 0, [mkRef 10 31, mkRef 8 0], []⟩] }
    fwd := { legs := [(0, { legOf [] with eth := 31 })] } }

theorem wit_classify :
    ((32 : Nat) ≤ 32 ∧ 31 < 32 ∧ (dev []).receiving 31 = false ∧ (dev []).hub.get1 LNK.ETH_STAT.STATE 31 ≠ 4) ∧
    ((devPort 4).receiving 31 = false ∧ (devPort 4).hub.get1 LNK.ETH_STAT.STATE 31 = 4 ∧ (devPort 4).portDown 31 = false ∧ (devPort 4).portHears 31 = true) ∧
    ((devPort 3).receiving 31 = true ∧ (frame 31 64 false false).fcsOk = false ∧ 9596 < (frame 31 9597 true false).bytes.length) ∧
    ((frame 31 64 true false).fcsOk = true ∧ (frame 31 64 true false).bytes.length ≤ 9596 ∧ (frame 31 64 true false).poison = false) := by
  refine ⟨?_, ?_, ⟨?_, ?_, ?_⟩, ?_⟩
  case refine_5 => exact Nat.lt_of_lt_of_eq (by decide) (List.length_replicate (n := 9597)).symm
  all_goals decide +kernel

theorem wit_classified :
    (let s : State := { devPort 3 with hub := (devPort 3).hub.stat LNK.ETH_RX_LO.COUNT 31 1 }
     s.hub.get1 LNK.ETH_CFG.SEC 31 = 0 ∧ isPtp (frame 31 64 true false) = false ∧ (frame 31 64 true false).udp = false ∧ s.portSash 31 = some 0 ∧
       isPtp (frame 31 64 true true) = false ∧ (frame 31 64 true true).udp = true ∧ (frame 31 64 true true).dport = 0 ∧ s.vinMatch (frame 31 64 true true) = none ∧
       (s.fwd.legs.find? fun x => x.2.tuple (frame 31 64 true true)) = some (0, { legOf [] with eth := 31 })) ∧
    (let s : State := { dev [] with hub := (dev []).hub.stat LNK.ETH_RX_LO.COUNT 31 1 }
     s.portSash 31 = none) ∧
    ((devF [(TIM.PORT_CFG.PTP_EN, 31, 1)]).hub.get1 TIM.PORT_CFG.PTP_EN 31 = 1 ∧ isPtp { frame 31 64 true true with dport := 319 } = true) := by
  decide +kernel

/-- Port 31 is UP with a pending gate list; leg queues 0 and 1 wait on the wheel for slots 250 and 500; port 0 runs at no rate; 256 ns have passed. -/
def devGate (start : Nat) : State :=
  let s := devF [(LNK.ETH_STAT.STATE, 31, 3)]
  { s with hub := { s.hub with ticks := 32 }, start := { phase := .running }, fab := { ports := [⟨1, 31, 0, 1, 0x0101⟩] }
           qsc := { pending := [(31, ⟨start, 1000, [(255, 1000)]⟩)]
                    queues := [(0, { port := 31, cls := 0, wheel := some (250, 251) }), (1, { port := 31, cls := 7, wheel := some (500, 251) }),
                      (2, { port := 31, cls := 7, wheel := some (250, 250) })] } }

theorem wit_fifos :
    (dev []).canon ∧ 2047 < 2048 ∧ (dev []).hub.hostIn = true ∧ (dev []).hub.reachesQp 0 (2047 / 2) = true ∧ (0x80000000 : Word).getLsbD 31 = true ∧
      (0 : Word).getLsbD 31 = false ∧ QSC.FIFO_CTL.SIZE.of (QSC.FIFO_CTL.SIZE.into 0 1) ≠ (dev []).hub.get1 QSC.FIFO_CTL.SIZE 2047 ∧
      QSC.FIFO_CTL.SIZE.of (QSC.FIFO_CTL.SIZE.into 0 9) = (dev []).hub.get1 QSC.FIFO_CTL.SIZE 2047 ∧ State.reset.hub.hostIn = false ∧
      (dev []).hub.reachesQp 1 0 = false :=
  ⟨canon_of (by decide +kernel), by decide +kernel⟩

theorem wit_wheel :
    (kvGet 0 (devGate 0).qsc.queues = some { port := 31, cls := 0, wheel := some (250, 251) } ∧ 250 ≤ (devGate 0).hub.elapsed ∧ 250 < ceilDiv 251 250 * 250 ∧
      kvGet 1 (devGate 0).qsc.queues = some { port := 31, cls := 7, wheel := some (500, 251) } ∧ (devGate 0).hub.elapsed < 500 ∧
      kvGet 2 (devGate 0).qsc.queues = some { port := 31, cls := 7, wheel := some (250, 250) } ∧ ceilDiv 250 250 * 250 ≤ 250) ∧
    ((devGate 0).canon ∧ 31 < 32 ∧ kvSorted (devGate 0).qsc.pending = true ∧ kvGet 31 (devGate 0).qsc.pending = some ⟨0, 1000, [(255, 1000)]⟩ ∧
      0 ≤ (devGate 0).hub.time.total ∧ (devGate 0).hub.get GLB.STATUS.FROZEN = 0 ∧ (devGate 1).hub.time.total < 1 ∧ (devGate 0).portRate 31 ≠ 0 ∧
      (devGate 0).portRate 0 = 0) :=
  ⟨by decide +kernel, canon_of (by decide +kernel), by decide +kernel⟩

/-- A frame waits at port 31 in class 7, and none elsewhere. -/
def devEgr (items : List EgrItem) : State :=
  { devF [(LNK.ETH_STAT.STATE, 31, 3)] with
    start := { phase := .running }, fab := { ports := [⟨1, 31, 0, 1, 0x0101⟩] }, qsc := { queues := [(16384, { port := 31, cls := 7, items := items })] } }

theorem wit_egress :
    (let s := devEgr [{ len := 64, entered := 0, msg := .pin "x" true }]
     s.portRate 31 ≠ 0 ∧ s.hub.get GLB.STATUS.FROZEN ≠ 1 ∧
       (s.dropPort 31).selectFrom 31 8 = some (16384, { port := 31, cls := 7, items := [{ len := 64, entered := 0, msg := .pin "x" true }] }) ∧ s.portRate 0 = 0) ∧
    ((devEgr []).dropPort 31).selectFrom 31 8 = none ∧ (devF [(GLB.STATUS.FROZEN, 0, 1)]).hub.get GLB.STATUS.FROZEN = 1 := by
  decide +kernel

/-- Function 1's window is BUSY, or waits, with a job on slot 5. -/
def devKey (fn : Nat) (erase : Bool) : State :=
  { dev [] with cip := { jobs := [(fn, ⟨erase, false, 5⟩)] }, dbt := { wrapKey := some 1 } }

theorem wit_keys :
    ((dev []).canon ∧ (dev []).hub.hostIn = true ∧ 63 < 64 ∧ (dev []).hub.kw 63 CIP.KW_STAT.BUSY = 0 ∧ CIP.KW_CMD.OP.of (CIP.KW_CMD.OP.into 0 1) = 1 ∧
      CIP.KW_CMD.OP.of (CIP.KW_CMD.OP.into 0 2) = 2 ∧ CIP.KW_CMD.OP.of (CIP.KW_CMD.OP.into 0 3) ≠ 1 ∧ CIP.KW_CMD.OP.of (CIP.KW_CMD.OP.into 0 3) ≠ 2) ∧
    ((devF [(CIP.KW_STAT.BUSY, 0, 1)]).canon ∧ (devF [(CIP.KW_STAT.BUSY, 0, 1)]).hub.kw 0 CIP.KW_STAT.BUSY = 1) ∧
    (∀ e ∈ [true, false], (regsWf (devKey 0 e).hub.regs && kvSorted (devKey 0 e).cip.jobs) = true ∧ (devKey 0 e).hub.get GLB.STATUS.FROZEN ≠ 1 ∧
      kvGet 0 (devKey 0 e).cip.jobs = some ⟨e, false, 5⟩ ∧ (devKey 0 e).cip.keyWaits 0 = false ∧ ((devKey 0 e).cip.slot 5).drain = none ∧
      (devKey 0 e).hub.ownsSlot 0 5 = true ∧ (devKey 0 e).dbt.wrapKey.isSome = true) ∧
    (kvGet 63 (devKey 63 true).cip.jobs = some ⟨true, false, 5⟩ ∧ (devKey 63 true).hub.ownsSlot 63 5 = false ∧ bodyN [5, 0, 7] 0 2 = 5 ∧ modeLimit (bodyU8 [5, 0, 7] 2) ≠ 0) ∧
    (((dev []).cip.slot 65535).drain = none ∧ ((dev []).cip.slot 65535).held = none ∧
      (let c : CipSt := { slots := [(4, { drain := some ⟨1, []⟩, held := some ⟨1, []⟩ }), (5, { drain := some ⟨1, []⟩, wait := [({ erase := true, mode := 0, dec := false, bytes := [], soft := 0, hard := 0, start := 0 }, some 1)], held := some ⟨1, []⟩, heldEnd := 1 })] }
       (c.slot 4).drain ≠ none ∧ (c.slot 4).wait = [] ∧ (c.slot 4).held ≠ none ∧ (c.slot 4).heldEnd ≤ (dev []).hub.elapsed ∧
         (c.slot 5).drain ≠ none ∧ (c.slot 5).wait ≠ [] ∧ (dev []).hub.elapsed < (c.slot 5).heldEnd)) := by
  refine ⟨⟨canon_of ?_, ?_⟩, ⟨canon_of ?_, ?_⟩, ?_, ?_, ?_⟩ <;> decide +kernel

/-- Slot 5 runs in a mode; an item of a kind for it. -/
def devSlot (mode : Nat) : State :=
  { dev [] with cip := { slots := [(5, { state := 1, mode := mode, gen := 1 })], windows := [(9, ⟨5, 1, 100, [100, 99]⟩)] } }

def item (kind seq : Nat) : CipItem := ⟨5, kind, false, 9, seq, 0, 16, 0, false, 0, true, true⟩

theorem wit_misuse : (devSlot 1).hub.get GLB.STATUS.FROZEN ≠ 1 ∧ (item 2 0).poison = false ∧ ((devSlot 1).cip.slot 5).state ≠ 0 ∧ ((devSlot 1).cip.slot 5).state ≠ 3 ∧
    modeFits 2 ((devSlot 1).cip.slot 5).mode = false ∧ modeFits 0 ((devSlot 1).cip.slot 5).mode = true ∧ ((devSlot 1).cip.slot 5).dec ≠ { item 0 0 with dec := true }.dec ∧
    (regsWf (devSlot 1).hub.regs && memWf (devSlot 1).mem.cells) = true ∧ (devSlot 1).hub.rd (CIP.MISUSE_DROP.COUNT.off 0 0) ≠ BitVec.allOnes 32 := by
  decide +kernel

theorem wit_cipher : (devSlot 7).hub.get GLB.STATUS.FROZEN ≠ 1 ∧ (item 3 0).poison = false ∧ (item 3 0).kind = 3 ∧ ((devSlot 7).cip.slot 5).state = 1 ∧
    ((devSlot 7).cip.slot 5).mode = 7 ∧ ((devSlot 7).cip.slot 5).dec = (item 3 0).dec ∧ (item 3 0).mismatches = 0 ∧ ((dev []).cip.slot 5).state = 0 ∧
    (item 0 99).kind = 0 ∧ ((devSlot 1).cip.slot 5).state = 1 ∧ modeFits 0 ((devSlot 1).cip.slot 5).mode = true ∧
    kvGet 9 (devSlot 1).cip.windows = some ⟨5, 1, 100, [100, 99]⟩ ∧ (1 : Nat) = ((devSlot 1).cip.slot 5).gen ∧ srtpIndex 100 99 < 2 ^ 48 ∧ srtpIndex 100 99 ≤ 100 ∧
    srtpIndex 100 100 ≤ 100 ∧ srtpIndex 100 99 ∈ [100, 99] := by
  decide +kernel

theorem wit_lightCode : memWf ({} : MemSt).cells = true ∧ ({} : MemSt).read 0 = .clean 0 ∧ 0 < 64 ∧ 63 < 64 ∧ (63 : Nat) ≠ 0 ∧ 7 < 8 := by decide +kernel

theorem wit_orders : (∀ m ∈ [0, 1, 2, 3], ∀ o ∈ [0, 1, 2, 3], (cellOf m o 0).isSome = true) ∧ (cellOf 2 3 (2 ^ 36 - 1)).isSome = true ∧ (cellOf 0 1 (2 ^ 35 - 1)).isSome = true := by
  decide +kernel

/-- Two stacks in service; word 8 clean, word 16 poisoned, word 24 with two wrong bits; a test region at page channel 0; a merge entry of word `sramBase`; a read that waits. -/
def devMem : State :=
  { devF [(MEM.HBM_STAT.STATE, 0, 2), (MEM.HBM_STAT.STATE, 1, 2), (MEM.TEST_CTL.ENABLE, 0, 1), (MEM.TEST_CTL.CHANNEL, 0, 0)] with
    mem := { cells := [(8, 1)], dev := [(16, 0x7F), (24, 3)], merge := [(0, [⟨sramBase, [(0, 1)], 0⟩])] } }

theorem wit_bar2 :
    (devMem.canon ∧ devMem.hub.hostIn = true ∧ kvSorted devMem.mem.dev = true ∧ devMem.bar2Cell 0 8 = some 8 ∧ 8 % 8 = 0 ∧ 2 ^ 64 - 1 < 2 ^ 64 ∧ 8 < sramBase ∧
      devMem.mem.read 8 = .clean 1 ∧ devMem.bar2Words 0 16 8 = [16] ∧ devMem.mem.read 16 = .poison ∧ devMem.bar2Words 0 31 1 = [24] ∧ (∃ d, devMem.mem.read 24 = .bad d) ∧
      (∀ w ∈ [8, 16, 24], devMem.cellLive w = true ∧ devMem.dbt.copying w = false ∧ devMem.pcLost w = false) ∧ devMem.bar2Cell 0 (2 ^ 36 - 1) ≠ none ∧
      (∀ k ∈ List.range 8, devMem.bar2Cell 0 (8 + k) = some (8 + k) ∧ devMem.cellLive (8 + k) = true)) ∧
    (let s : State := { devMem with fab := { down := [.hbm 0] } }
     s.bar2Words 0 8 8 = [8] ∧ s.cellLive 8 = false) ∧
    (let s : State := { hub := { bar := .frozen } }
     s.hub.pcieDown = false ∧ s.hub.bar = .frozen ∧ s.hub.hostIn = false ∧ ({ hub := { pcieDown := true } } : State).hub.pcieDown = true) := by
  refine ⟨⟨canon_of ?_, ?_, ?_, ?_, ?_, ?_, ?_, ?_, ?_, ?_, ?_, ⟨0, ?_⟩, ?_, ?_, ?_⟩, ?_, ?_⟩ <;> decide +kernel

theorem wit_testMode :
    (devMem.canon ∧ devMem.testWord = some 0 ∧ kvSorted devMem.mem.dev = true ∧ devMem.mem.read 0 = .clean 0) ∧
    (let s : State := { devMem with mem := { dev := [(0, 0x7F)] } }
     s.canon ∧ s.testWord = some 0 ∧ s.mem.read 0 = .poison) := by
  refine ⟨⟨canon_of ?_, ?_⟩, ⟨canon_of ?_, ?_⟩⟩ <;> decide +kernel

theorem wit_upkeep :
    (devMem.stackLive 1 = true ∧ devMem.canon ∧ 1 < 2 ∧ 1 < devMem.hub.unitCount 15 ∧ (85 : Int) < 86 ∧ (79 : Int) < 80 ∧ (80 : Int) ≤ 80 ∧ (80 : Int) ≤ 85 ∧
      ((kvGet 1 devMem.mem.refreshed).map (· + devMem.hub.refreshNs 1)).getD 0 ≤ devMem.hub.elapsed ∧ (dev []).stackLive 1 = false) ∧
    (devMem.decodeGo (pageOf 4096) = true ∧ devMem.mem.badWords (pageOf 4096) = [] ∧ devMem.decodeGo (pageOf 24) = true ∧ devMem.mem.badWords (pageOf 24) ≠ [] ∧
      devMem.mem.decodes (pageOf 24) = true ∧ (dev []).decodeGo (pageOf 24) = false) ∧
    ((dev []).hub.scrubs (pageOf 0) = false ∧
      (let s := devF [(MEM.HBM_STAT.STATE, 0, 2), (MEM.SCRUB_CTL.ENABLE, 0, 1)]
       s.canon ∧ s.hub.scrubs (pageOf 0) = true ∧ s.scrubDue (pageOf 0) = true ∧ (∀ e ∈ s.mem.dev, ¬(pageOf 0 ≤ e.1 ∧ e.1 < pageOf 0 + pageSize (pageOf 0))) ∧ pageOf 0 < sramBase)) ∧
    (devMem.hub.get GLB.STATUS.FROZEN ≠ 1 ∧ kvGet 0 devMem.mem.merge = some [⟨sramBase, [(0, 1)], 0⟩] ∧ (sramBase - sramBase) / 2 ^ 22 = 0 ∧ sramBase / 8 * 8 = sramBase ∧
      devMem.hub.hcNow < 0 + 64 ∧ 0 + 64 ≤ ({ devMem with hub := { devMem.hub with ticks := 4 } } : State).hub.hcNow ∧ devMem.mem.read sramBase = .clean 0) ∧
    ((dev []).hub.stackUp 0 = false ∧ devMem.hub.stackUp 1 = true ∧ (true && false) = false ∧ memWf devMem.mem.cells = true) ∧
    (devMem.mem.held = [] ∧ (∀ e ∈ devMem.mem.dev, pageChannel (pageOf e.1) ≠ pageChannel sramBase)) := by
  refine ⟨⟨?_, canon_of ?_, ?_⟩, ?_, ⟨?_, canon_of ?_, ?_⟩, ?_, ?_, ?_⟩ <;> decide +kernel

/-- Queue pair 1023 runs as COMMAND; an empty command stands at its head; the device serves commands. -/
def devQp (cmds : List (Nat × List CmdSlot)) : State :=
  { devF [(HIF.QP_CFG.ENABLE, 1023, 1), (GLB.STATUS.READY, 0, 1)] with hub :=
    { (devF [(HIF.QP_CFG.ENABLE, 1023, 1), (GLB.STATUS.READY, 0, 1)]).hub with fifos := [(2046, { peer := 1 })], cmds := cmds } }

theorem wit_doorbells :
    (1023 < 1024 ∧ (devQp []).hub.reachesQp 0 1023 = true ∧ (devQp []).hub.bar = .live ∧ (devQp []).hub.pcieDown = false ∧ ({ hub := { pcieDown := true } } : State).hub.pcieDown = true ∧ (dev []).hub.reachesQp 1 0 = false ∧ (devQp []).hub.qpOn 0 = false ∧ (devQp []).hub.qpCommand 1023 = true ∧
      (512 % 2 ^ 32 + 2 ^ 32 - (devQp []).hub.fifoCons (2 * 1023)) % 2 ^ 32 ≤ (devQp []).hub.fifoWords (2 * 1023) ∧ (regsWf (devQp []).hub.regs) = true ∧
      (devQp []).hub.fifoWords (2 * 1023) < (513 % 2 ^ 32 + 2 ^ 32 - (devQp []).hub.fifoCons (2 * 1023)) % 2 ^ 32 ∧
      (devQp []).hub.rd (QSC.FIFO_BAD.COUNT.off (2 * 1023) 0) ≠ BitVec.allOnes 32) ∧
    (let s : State := { hub := { bar := .frozen }, start := { phase := .running } }
     s.hub.bar = .frozen ∧ s.hub.reachesQp 0 1023 = true ∧ s.hub.pcieDown = false ∧ s.start.phase = .running) ∧
    ((devQp []).takesCommands = true ∧ (devQp []).emergency = false ∧ (devF [(GLB.PACE_SUM.EMERG, 0, 1)]).emergency = true ∧ (devQp []).hub.qpCommand 1023 = true ∧ (devQp []).hub.qpOn 1023 = true ∧ (devQp []).hub.fifoPeek (2 * 1023) = .item [] 1 ∧ (devQp []).hub.completionRoom 1023 = true ∧
      (devQp [(1023, List.replicate 3 ⟨0, 0, 0, none, none⟩)]).hub.completionRoom 1023 = false ∧
      (devQp [(1023, List.replicate 3 ⟨0, 0, 0, none, none⟩)]).hub.fifoPeek (2 * 1023) = .item [] 1 ∧ (dev []).takesCommands = false) := by
  decide +kernel

theorem wit_queuePairs :
    ((dev []).canon ∧ (dev []).hub.hostIn = true ∧ 0x2004000 ≤ 0x2004000 ∧ 0x200BFF8 < 0x200C000 ∧ 0x200BFF8 % 4 = 0 ∧ (0x200BFF8 - 0x2004000) % 32 ≤ 0x18 ∧
      (dev []).hub.reachesQp 0 ((0x200BFF8 - 0x2004000) / 32) = true ∧ (0x2004000 - 0x2004000) % 32 = 0 ∧
      ((dev []).hub.rd 0x2004000).getLsbD 31 ≠ (0x80000000 : Word).getLsbD 31 ∧ (0x2004010 - 0x2004000) % 32 ≤ 0x10 ∧ (dev []).hub.rd 0x2004010 ≠ 1 ∧
      0x10 < (0x2004014 - 0x2004000) % 32) ∧
    (let s : State := { hub := { numVfs := 63 } }
     s.canon ∧ 0 < 63 ∧ 63 ≤ s.hub.numVfs ∧ 63 < 64 ∧ 1 ≤ s.hub.numVfs ∧ (dev []).hub.numVfs < 1) ∧ (7 < 8 ∧ 16 ≤ 16) := by
  refine ⟨⟨canon_of ?_, ?_⟩, ⟨canon_of ?_, ?_⟩, ?_⟩ <;> decide +kernel

/-- ENC unit 0 alone codes channel 0, in a class, with two stripes per picture: rendition 0 is configured. -/
def encCfg : EncCfg := ⟨true, false, 1000, 100, 0, 60, 1, 0, 0, 0, 0, 0, 1⟩

def devEnc (cls : Nat) (shares : List (Nat × EncShare)) (sides : List (Nat × EncSide)) (src1 : Byte) : State :=
  { dev [] with
    fab := { sashes := [⟨0, 0, cls, [mkRef 1 0], []⟩], pers := [⟨mkRef 1 0, 0x0201, [0, 0, 1, 1, 0, 0, 0, 0, 0, src1, 0, 0, 0, 0, 0, 0, 128, 0, 128], []⟩], parts := [⟨0, false, 0, 2, 0, 0, 1073741824, []⟩] }
    enc := { rends := [(0, { cfg := encCfg, full := 0 })], shares := shares, sides := sides } }

theorem devEnc_units (cls : Nat) (sh : List (Nat × EncShare)) (si : List (Nat × EncSide)) (x : Byte) : (devEnc cls sh si x).encUnits 0 = [0] := by
  have h : (devEnc cls sh si x).fab.unitsOf 0 1 = [0] := rfl
  unfold State.encUnits
  rw [h]
  exact List.mergeSort_singleton 0

/-- Its share of the rendition: two stripes of two blocks, two release rows. -/
def geom (live : Bool) : EncGeom :=
  { p := { code := 513, codec := 2, v422 := false, ten := false, clamp := false, ti := 0, tc := 1, fast := true, tx := 0, depth := 1, la := 0, rot := 0,
           src1 := false, part := 0, srcW := 64, srcH := 64, outW := 128, outH := 128 }
    cfg := encCfg, live := live, w := 128, h := 128, n := 2, g := 1, x0 := 0, x1 := 128, last := true, b := 2, cp := 112, fl := 256, cpb := 24, h0 := 128 }

/-- The share does not depend on what is in progress, nor on the time. -/
theorem devEnc_geomOf (sh : List (Nat × EncShare)) (si : List (Nat × EncSide)) (h : Hub) (hh : h = (dev []).hub ∨ h = { (dev []).hub with time := { sec := 1 } }) :
    ({ devEnc 0 sh si 0 with hub := h } : State).encGeomOf 0 0 0 encCfg = some (geom true) ∧
      ({ devEnc 1 sh si 0 with hub := h } : State).encGeomOf 0 0 0 encCfg = some (geom false) := by
  have u : ∀ c, ({ devEnc c sh si 0 with hub := h } : State).encUnits 0 = [0] := fun c => devEnc_units c sh si 0
  have e : ∀ c, ({ devEnc c sh si 0 with hub := h } : State).encGeomOf 0 0 0 encCfg = ({ devEnc c [] [] 0 with hub := h } : State).encGeomOf 0 0 0 encCfg := fun _ => rfl
  rw [e, e]
  rcases hh with rfl | rfl <;> constructor <;> (unfold State.encGeomOf; rw [show ∀ c h, ({ devEnc c [] [] 0 with hub := h } : State).encUnits 0 = [0] from fun c _ => devEnc_units c [] [] 0]; decide +kernel)

theorem devEnc_geom (sh : List (Nat × EncShare)) (si : List (Nat × EncSide)) :
    (devEnc 0 sh si 0).encGeom 0 0 0 = some (geom true) ∧ (devEnc 1 sh si 0).encGeom 0 0 0 = some (geom false) :=
  devEnc_geomOf sh si _ (.inl rfl)

/-- A frame in progress: the first stripe as given, no row released. -/
def encFrame (t : EncStripe) (late : List Nat) : EncFrame :=
  { num := 5, cfg := encCfg, cf := 0, key := false, qp := 30, target := 0, cap := 100000, stripes := [t], lateRows := late }

def devFrame (cls : Nat) (f : EncFrame) : State := devEnc cls [(0, { frames := [f] })] [(0, { missed := [(5, 1)], pics := [(5, 0)] })] 0

/-- A second later. -/
def devFrame1 (cls : Nat) (f : EncFrame) : State := { devFrame cls f with hub := { (dev []).hub with time := { sec := 1 } } }

theorem wit_headers :
    ((dev []).encGeom 0 0 (hdrOf []).rend = none ∧ (devEnc 0 [] [] 0).encGeom 0 0 (hdrOf []).rend = some (geom true) ∧ 2 < (hdrOf [3]).kind ∧ (hdrOf []).kind ≤ 2 ∧
      (hdrOf []).kind ≠ 1 ∧ (hdrOf []).rend ≤ 7 ∧ 7 < (hdrOf [0, 8]).rend) ∧
    ((devEnc 0 [] [] 0).hdrHeld 0 0 0 < 512 ∧ laterThan 32 ((kvGet 0 ((devEnc 0 [] [] 0).enc.side 0 0).started).getD 0) (hdrOf [0, 0, 0, 0, 0, 0, 0, 0, 1]).frame = true ∧
      512 ≤ (devEnc 0 [] [(0, { held := List.replicate 512 (hdrOf []) })] 0).hdrHeld 0 0 0) ∧
    (bodyN [0, 0, 1] 2 2 % 2 = 1 ∧ bodyN [] 2 2 % 2 = 0 ∧ ((devEnc 0 [] [] 1).encPers 0 ((devEnc 0 [] [] 1).fab.cls 0)).src1 = true ∧
      ((devEnc 0 [] [] 0).encPers 0 ((devEnc 0 [] [] 0).fab.cls 0)).src1 = false) := by
  refine ⟨⟨?_, (devEnc_geom _ _).1, ?_⟩, ?_⟩
  · decide +kernel
  all_goals decide +kernel

/-- Input deadlines: a stripe of frame 5 whose lines are not there, after and before its deadline, and one that counts as missing already. -/
theorem wit_inputDeadline :
    (let s := devFrame1 0 (encFrame { k := 0, mode := 0 } [])
     s.encGeom 0 0 0 = some (geom true) ∧ kvGet 5 (s.enc.side 0 0).pics = some 0 ∧ (geom true).live = true ∧ 0 < (geom true).n ∧
       (s.enc.side 0 0).missed.contains (5, 0) = false ∧ s.reached (geom true) ((geom true).deadline 0 0 0) 20000 = true ∧
       (s.enc.side 0 0).hasInput (geom true) 0 5 0 = false ∧ (s.enc.side 0 0).missed.contains (5, 1) = true ∧ s.hub.get1 ENC.STATUS.SASH 0 ≠ 1023) ∧
    (devFrame 0 (encFrame { k := 0, mode := 0 } [])).reached (geom true) ((geom true).deadline 0 0 0) 20000 = false ∧ (geom false).live = false := by
  refine ⟨⟨(devEnc_geomOf _ _ _ (.inr rfl)).1, ?_⟩, ?_⟩ <;> decide +kernel

theorem wit_rows :
    (let s := devFrame1 0 (encFrame { k := 0, mode := 0, done := true } [])
     s.encGeomOf 0 0 0 encCfg = some (geom true) ∧ (s.enc.share 0 0 0).frame 5 = some (encFrame { k := 0, mode := 0, done := true } []) ∧
       (∀ d, kvGet 0 s.fab.olds = some d → false = (kvGet 0 s.fab.epochs).getD false) ∧ (geom true).live = true ∧ 1 < (geom true).rows ∧
       (encFrame { k := 0, mode := 0, done := true } []).rows = 0 ∧ 0 ∉ (encFrame { k := 0, mode := 0, done := true } []).lateRows ∧
       s.reached (geom true) ((geom true).rowTime 0 0 1) 0 = true ∧ (geom true).rowDone (encFrame { k := 0, mode := 0, done := true } []) 0 = true ∧
       (geom true).rowDone (encFrame { k := 0, mode := 0 } []) 0 = false ∧ (geom true).rowDone (encFrame { k := 0, mode := 0 } []) 1 = false) ∧
    ((devFrame 0 (encFrame { k := 0, mode := 0 } [])).reached (geom true) ((geom true).rowTime 0 0 0) 0 = false ∧ (geom false).live = false ∧ (geom true).rows ≤ 2 ∧
      0 ∈ (encFrame { k := 0, mode := 0, done := true } [0]).lateRows) := by
  refine ⟨⟨(devEnc_geomOf _ _ _ (.inr rfl)).1, ?_⟩, ?_⟩
  · exact ⟨by decide +kernel, fun d h => (nomatch h), by decide +kernel⟩
  · decide +kernel

theorem wit_stripes :
    (encDecide 0 0 0 0 0 0 = 0 ∧ encDecide 1 0 0 0 0 0 = 1 ∧ encDecide 2 0 0 0 0 0 = 2) ∧
    (let f := encFrame { k := 0, mode := 0, done := true } []
     let s := devFrame 0 f
     (1 : Nat) ≠ 0 ∧ s.encGeomOf 0 0 0 encCfg = some (geom true) ∧ (s.enc.share 0 0 0).last = some f ∧ (s.enc.share 0 0 0).frame f.num = some f ∧
       f.stripes.all (·.done) = true ∧ f.stripes.length = 1 ∧ 1 < (geom true).n ∧ s.encMay (geom true) = true ∧
       ((s.enc.side 0 0).hasInput (geom true) 0 f.num 1 || (s.enc.side 0 0).lacks (geom true) 0 f.num 1) = true ∧
       (({} : EncSide).hasInput (geom true) 0 f.num 1 || ({} : EncSide).lacks (geom true) 0 f.num 1) = false ∧ ¬(geom true).n ≤ 1 ∧ (geom true).n ≤ 2 ∧
       ((devEnc 0 [] [] 0).enc.share 0 0 0).frames = []) ∧
    (let t : EncStripe := { k := 0, mode := 0 }
     let f := encFrame t []
     (devFrame1 0 f).encGeomOf 0 0 0 encCfg = some (geom true) ∧ f.stripes.find? (!·.done) = some t ∧ t.coded + 1 < (geom true).b ∧ t.mode ≠ 2 ∧ f.pane = false ∧
       f.bc + t.bits + 48 + (geom true).cpb * ((geom true).b - t.coded - 1) + ((geom true).n - 1 - t.k) * (geom true).cp ≤ f.cap ∧
       ((devFrame1 0 f).enc.share 0 0 0).frame 5 = some f ∧ f.stripes.find? (·.k = 0) = some t ∧ t.done = false ∧ 0 < (geom true).n ∧ 0 ≤ f.stripes.length ∧
       (devFrame1 0 f).reached (geom true) ((geom true).deadline 0 f.cf 0) 0 = true ∧ (devFrame 0 f).reached (geom true) ((geom true).deadline 0 f.cf 0) 0 = false) := by
  refine ⟨?_, ⟨?_, (devEnc_geomOf _ _ _ (.inl rfl)).1, ?_⟩, (devEnc_geomOf _ _ _ (.inr rfl)).1, ?_⟩ <;> decide +kernel

/-- Sash 0 uses DEC unit 0, whose personality names partition 0; inbound stream 0 is of codec 1. -/
def devDec (ctxs : List (Nat × DecCtx)) : State :=
  { fw { legs := [(0, legOf [])], ins := [(0, { inS with codec := 1 })] } with
    fab := { sashes := [⟨0, 0, 2, [mkRef 2 0], []⟩], pers := [⟨mkRef 2 0, 1, [], []⟩], parts := [⟨0, false, 0, 2, 0, 0, 8192, []⟩] }
    dec := { ctxs := ctxs } }

/-- A context of stream 0 whose first packet is awaited, or with packets held. -/
def decCtx (pkts : List DecPkt) : DecCtx :=
  { unit := 0, out := 0, maxW := 16, maxH := 16, part := 0, slots := [{ off := 0 }, { off := 4096, held := 1 }], next := some 65535, pkts := pkts }

/-- A whole one-packet frame at the head, and a frame behind a gap. -/
def pktHead : DecPkt := ⟨65535, 0, 100, true, true, false, 0, 0⟩

def pktGap : DecPkt := ⟨1, 3000, 100, true, true, true, 7, 7⟩

theorem wit_imageServices :
    (let b : List Byte := [0, 0, 0, 0] ++ leBytes 4 100000 ++ [0, 0, 0, 0] ++ leBytes 4 60
     (dev []).encRefused pf [] = some 3 ∧ (devEnc 0 [] [] 0).encRefused pf b = none ∧ (devEnc 0 [] [] 0).encRefused pfL b = none ∧
       kvGet (8 * bodyN b 0 2 + bodyU8 b 2) (dev []).enc.rends = none) ∧
    ((dev []).encUnits (bodyN [] 0 2) = [] ∧ (devEnc 0 [] [] 0).encUnits (bodyN [] 0 2) ≠ [] ∧ (devEnc 0 [] [] 0).hub.reachesSash 0 (bodyN [] 0 2) = true ∧
      0 < 8 ∧ bodyU8 [0, 0, 1] 2 = 2 ^ 0 ∧ kvGet 0 (devEnc 0 [] [] 0).enc.rends = some { cfg := encCfg, full := 0 } ∧
      ({ cfg := encCfg, full := 0 } : EncRend).panes = none ∧ ({ cfg := encCfg, full := 0 } : EncRend).frame = none ∧ ({ cfg := encCfg, full := 0, frame := some 5 } : EncRend).frame ≠ none ∧ ({ cfg := encCfg, full := 0 } : EncRend).req = none) ∧
    (let s := devDec []
     let b : List Byte := [0, 0] ++ leBytes 2 (mkRef 2 0) ++ [0, 0, 0, 2, 16, 0, 16, 0]
     s.hub.reachesSash 0 0 = true ∧ s.fab.sashes.any (·.id = 0) = true ∧ kvGet (bodyN [0, 0, 0, 0, 9] 4 2) s.fwd.ins = none ∧
       kvGet (bodyN b 4 2) s.fwd.ins = some { inS with codec := 1 } ∧ kvHas (ctxKey 0 (bodyN b 4 2)) s.dec.ctxs = false ∧ refType (bodyN b 2 2) = 2 ∧
       (s.fab.unitsOf 0 2).contains (refInst (bodyN b 2 2)) = true ∧ (s.dec.ctxs.filter (·.2.unit = refInst (bodyN b 2 2))).length < 512 ∧
       s.fab.part (bodyN (s.fab.persAt 2 (refInst (bodyN b 2 2))).2 0 2 % 4096) = some ⟨0, false, 0, 2, 0, 0, 8192, []⟩ ∧
       slotSize (bodyN b 8 2) (bodyN b 10 2) = 4096 ∧ s.slotsIn (bodyN (s.fab.persAt 2 (refInst (bodyN b 2 2))).2 0 2 % 4096) = [] ∧ min (max (bodyU8 b 7) 2) 16 = 2 ∧
       takeSlots 4096 8192 [] 2 = some [0, 4096]) ∧
    (kvHas (ctxKey 0 0) (devDec [(0, decCtx [])]).dec.ctxs = true ∧ kvGet (ctxKey 0 (bodyN [] 2 2)) (devDec [(0, decCtx [])]).dec.ctxs = some (decCtx []) ∧
      kvGet (ctxKey 0 (bodyN [] 2 2)) (devDec []).dec.ctxs = none) := by
  refine ⟨⟨?_, ?_, ?_, ?_⟩, ⟨?_, ?_, ?_⟩, ⟨?_, ?_, ?_, ?_, ?_, ?_, ?_, ?_, ?_, ?_, ?_, ?_, ?_⟩, ?_⟩
  case refine_1 | refine_5 =>
    have h : (dev []).encUnits 0 = [] := by
      unfold State.encUnits
      rw [show (dev []).fab.unitsOf 0 1 = [] from rfl, List.mergeSort_nil]
    first | exact h | (unfold State.encRefused; dsimp only; rw [show bodyN ([] : List Byte) 0 2 = 0 from rfl, h]; rfl)
  case refine_2 | refine_3 =>
    unfold State.encRefused
    dsimp only
    rw [show bodyN ([0, 0, 0, 0] ++ leBytes 4 100000 ++ [0, 0, 0, 0] ++ leBytes 4 60 : List Byte) 0 2 = 0 from by decide, devEnc_units]
    decide +kernel
  case refine_6 => rw [show bodyN ([] : List Byte) 0 2 = 0 from rfl, devEnc_units]; decide
  case refine_20 => simp [takeSlots, firstFit]
  all_goals decide +kernel

/-- A packet of 100 bytes. -/
def decIn (seq : Nat) : DecIn := ⟨seq, 0, 100, true, true, true, 0⟩

/-- A composer of an output 64 wide and 64 high, whose sash is of a class, with frames in hand. -/
def devCmp (cls : Nat) (frames : List CmpFrame) : State :=
  { dev [] with
    fab := { sashes := [⟨0, 0, cls, [mkRef 3 0], []⟩], pers := [⟨mkRef 3 0, 1, [], []⟩] }
    cmp := { units := [(0, { frames := frames })] } }

theorem wit_decPackets :
    (let s := devDec [(0, decCtx [])]
     kvGet (ctxKey 0 0) s.dec.ctxs = some (decCtx []) ∧ (decCtx []).cnt.state ≠ 4 ∧ s.decOn (decCtx []).unit = true ∧
       laterThan 16 65534 ((decCtx []).next.getD 65534) = true ∧ laterThan 16 65535 ((decCtx []).next.getD 65535) = false ∧
       (decCtx []).pkts.foldl (fun a q => a + q.len) 0 + 4194304 ≤ 4194304 ∧ 4194304 < (decCtx []).pkts.foldl (fun a q => a + q.len) 0 + 4194305 ∧
       (dev []).decOn 0 = false ∧ (decIn 0).start = true ∧ ({ decCtx [] with cnt := { state := 4 } } : DecCtx).cnt.state = 4) ∧
    (let c := decCtx [pktGap]
     let s := devDec [(0, c)]
     kvGet (ctxKey 0 0) s.dec.ctxs = some c ∧ c.next = some 65535 ∧ c.loseHead = some ({ c with next := some 1 }, 7) ∧ c.cnt.state ≠ 4 ∧ c.head = none ∧
       s.hub.elapsed < 7 + 1000000 * s.decWait 0 ∧
       (let u : State := { s with hub := { s.hub with ticks := 5000001 } }
        7 + 1000000 * u.decWait 0 ≤ u.hub.elapsed)) := by
  decide +kernel

theorem wit_decPictures :
    (let c := decCtx [pktHead]
     let s := devDec [(0, c)]
     s.lch.pend = [] ∧ s.lch.waiting = [] ∧ s.ldr.persWait = [] ∧ c.head = some [pktHead] ∧ s.decOn c.unit = true ∧ c.tu = none ∧ 16 ≤ (s.decLimit c).1 ∧
       16 ≤ (s.decLimit c).2 ∧ decAllows (((kvGet 0 s.fwd.ins).map (·.codec)).getD 0) .av1Main 0 10 = true ∧ c.cnt.state = 0 ∧ c.free = some 0 ∧ (decCtx []).head = none ∧
       ({ c with slots := [{ off := 0, held := 1 }] } : DecCtx).free = none ∧ pktHead.m = false ∧ ({ pktHead with m := true } : DecPkt).m = true) ∧
    ((decCtx []).part ≠ 1 ∧ (decCtx []).part = 0) := by
  decide +kernel

theorem wit_composing :
    (bodyN [0, 0, 1] 2 2 % 2 = 1 ∧ bodyN [] 2 2 % 2 = 0 ∧ 7 < 8 ∧ ((devCmp 1 []).cmpPers 0).code = 1 ∧ (dev []).emergency = false) ∧
    (let f : CmpFrame := { tm := 0 }
     let tm := instantAt ((devCmp 1 [f]).cmpPers 0).num ((devCmp 1 [f]).cmpPers 0).den (devCmp 1 [f]).hub.time.total
     (devCmp 1 [f]).cmpClass 0 ≠ 0 ∧ ((devCmp 1 [f]).cmp.unit 0).frames = [f] ∧ ((devCmp 1 [f]).cmp.unit 0).last ≠ some tm ∧
       ((devCmp 1 [f]).cmp.unit 0).passed.getLast? ≠ some tm ∧ (devCmp 0 []).cmpClass 0 = 0 ∧ ((devCmp 0 []).cmp.unit 0).frames = [] ∧
       ((devCmp 0 []).cmp.unit 0).passed = [] ∧ (devCmp 0 []).lch.pend = [] ∧ (devCmp 0 []).lch.waiting = [] ∧ (devCmp 0 []).ldr.persWait = [] ∧
       ({ passed := [tm] } : CmpUnit).passed.getLast? = some tm) ∧
    (let f : CmpFrame := { tm := 0 }
     let k := ((devCmp 0 [f]).cmpPers 0).num * ((devCmp 0 [f]).cmpPers 0).h
     ((devCmp 0 [f]).cmp.unit 0).frames = [f] ∧ (devCmp 0 [f]).gfxLive f = true ∧ f.slot = none ∧ ((devCmp 0 [f]).cmpPers 0).mode1 = false ∧
       kvGet f.sash (devCmp 0 [f]).fab.olds = none ∧ f.tm * k + 1000000000 * ((devCmp 0 [f]).cmpPers 0).den * f.lines ≤ (devCmp 0 [f]).hub.time.total * k ∧
       f.lines + 1 < ((devCmp 0 [f]).cmpPers 0).h ∧ ({ f with lines := 63 } : CmpFrame).lines + 1 = ((devCmp 0 [f]).cmpPers 0).h ∧
       ¬0 * k + 1000000000 * ((devCmp 0 [f]).cmpPers 0).den * ({ f with lines := 1 } : CmpFrame).lines ≤ (devCmp 0 [f]).hub.time.total * k ∧
       ((devCmp 0 [f]).cmp.unit 0).toFree = []) := by
  decide +kernel

theorem wit_mediaFrames : (∃ t, exec (.headerRecordReceive 0 0 false []) State.reset = .next t) ∧ (∃ t, exec (.decStats pf []) State.reset = .next t) ∧
    (∃ t, exec (.pictureRelease 0 0) State.reset = .next t) ∧ (∃ t, exec (.splStats pf []) State.reset = .next t) ∧ (∃ t, exec (.splRecvDel pf []) State.reset = .next t) ∧
    (∃ t, exec (.psiTimer 0) State.reset = .next t) :=
  ⟨⟨_, rfl⟩, ⟨_, rfl⟩, ⟨_, rfl⟩, ⟨_, rfl⟩, ⟨_, rfl⟩, ⟨_, rfl⟩⟩

/-- Splicer 0 takes panes; it has template 0 with one position; outbound stream 0 exists. -/
def tpl0 : Template := { codec := 1, npos := 1, w64 := 1, h64 := 1, parts := [], size := 0, at_ := 0 }

def devSpl (streams : List (Nat × PaneStream)) (recvs : List (Nat × SplRecv)) : State :=
  { fw { outs := [(0, outS)] } with
    fab := { pers := [⟨mkRef 4 0, 1, [], []⟩], parts := [⟨0, false, 0, 2, 0, 0, 4096, []⟩] }
    spl := { streams := streams, recvs := recvs, templates := [(0, tpl0)] } }

/-- The body of a receiver command on splicer 0, receiver 0, naming no stream; of a command on pane stream `n`. -/
def recvBody : List Byte := leBytes 2 (mkRef 4 0) ++ [0, 0, 0, 0, 0, 0] ++ List.replicate 140 0xFF

def paneBody (n : Nat) : List Byte := leBytes 2 (mkRef 4 0) ++ leBytes 2 n

def recv0 : SplRecv := { out := 0, tpl := 0, tplAt := 0, pos := [{ state := 0 }], frame := 0 }

theorem wit_templates :
    (bodyU8 [] 3 = 0 ∧ bodyU8 [0, 0, 2] 2 ≠ 1 ∧ bodyU8 [0, 0, 2] 2 ≠ 3 ∧ bodyU8 [0, 0, 2] 2 ≠ 4 ∧ bodyU8 [0, 0, 4, 1] 3 ≠ 0 ∧ bodyU8 [0, 0, 4, 1] 2 = 4 ∧
      (dev []).spl.templates = [] ∧ ([0, 0, 4, 1] : List Byte).length ≤ 1048576) ∧
    (kvGet (256 * 0 + bodyN [0, 0, 4, 1] 0 2 % 256) (devSpl [] []).spl.templates = some tpl0) ∧
    ((dev []).fab.persAt 4 0 = (0, []) ∧
      (let s := devSpl [] []
       (s.fab.persAt 4 0).1 = 1 ∧ s.spl.recvs = [] ∧ s.spl.store = [] ∧ (s.spl.stream 0 (bodyN [] 4 2 % 1024)).exports = [] ∧ bodyN [] 4 2 < 32768 ∧
         bodyN [0, 0, 0, 0, 0xFF, 0x7F] 4 2 < 32768 ∧ ([] : List Byte).length - 16 ≤ ((s.fab.part (bodyN (s.fab.persAt 4 0).2 0 2 % 4096)).map (·.size)).getD 0 ∧
         instantAt (s.splFps 0).1 (s.splFps 0).2 (bodyN [] 12 4 * 1000000000 + bodyN [] 8 4) = 0 ∧ s.hub.time.total < 0 + s.spl.waitNs)) ∧
    (let s := devSpl [(paneKey 0 1023, { due := some 0 })] []
     (s.fab.persAt 4 0).1 = 1 ∧ s.spl.recvs = [] ∧ s.spl.store = [] ∧ 1023 < 1024 ∧ s.spl.streams = [(paneKey 0 1023, { due := some 0 })] ∧
       0 + s.spl.waitNs ≤ ({ hub := { time := { sec := 1 } } } : State).hub.time.total) := by
  decide +kernel

/-- One pane of 1 × 1 blocks at the origin of rendition 0. -/
def paneSheet : List Byte := paneBody 0 ++ [0, 1, 0, 0, 0, 0, 1, 1, 0, 0]

theorem wit_paneSheets :
    (dev []).encUnits (bodyN [] 2 2) = [] ∧ (devEnc 1 [] [] 0).encUnits (bodyN paneSheet 2 2) = [0] ∧
      kvGet (8 * bodyN paneSheet 2 2 + bodyU8 paneSheet 4) (devEnc 1 [] [] 0).enc.rends = some { cfg := encCfg, full := 0 } ∧
      (devEnc 1 [] [] 0).hub.reachesSash 0 0 = true ∧ refInst (bodyN paneSheet 0 2) < (devEnc 1 [] [] 0).hub.unitCount 4 ∧ refType (bodyN paneSheet 0 2) = 4 ∧
      (List.range (min (bodyU8 paneSheet 5) 64)).map (paneOf paneSheet) = [{ stream := 0, x := 0, y := 0, w := 1, h := 1 }] ∧
      panesOverlap [{ stream := 0, x := 0, y := 0, w := 1, h := 1 }] = false ∧ bodyU8 (paneBody 0) 5 = 0 ∧
      (let p := (devEnc 1 [] [] 0).encPers 0 1
       p.codec ≠ 4 ∧ p.codec ≠ 1 ∧ encCfg.size p 0 = (128, 128) ∧ (encTiles [p]).1 = [0]) := by
  refine ⟨?_, ?_, ?_⟩
  · unfold State.encUnits
    rw [show (dev []).fab.unitsOf (bodyN [] 2 2) 1 = [] from rfl, List.mergeSort_nil]
  · rw [show bodyN paneSheet 2 2 = 0 from by decide]
    exact devEnc_units _ _ _ _
  · decide +kernel

theorem wit_spliceService :
    (1024 ≤ bodyN (paneBody 1024) 2 2 ∧ bodyN (paneBody 1023) 2 2 < 1024 ∧ bodyN (paneBody 1023) 8 2 < 1024 ∧ bodyU8 (paneBody 1023) 6 < 4 ∧
      refType (bodyN (paneBody 1023) 0 2) = 4 ∧ refInst (bodyN (paneBody 1023) 0 2) < (devSpl [] []).hub.unitCount 4 ∧
      ((devSpl [(1023, { src := some (0, 0) })] []).spl.stream 0 1023).src ≠ none ∧ ((devSpl [] []).spl.stream 0 1023).src = none) ∧
    (let s := devSpl [(0, {})] []
     s.recvRefused pf recvBody true = none ∧ s.recvRefused pfL recvBody true = none ∧ kvGet (recvKey 0 (bodyN recvBody 2 2)) s.spl.recvs = none ∧
       kvGet (256 * 0 + bodyU8 recvBody 6) s.spl.templates = some tpl0 ∧ refInst (bodyN recvBody 0 2) = 0 ∧
       s.recvRefused pf recvBody false = some 3 ∧ s.recvRefused pf [] true = some 3 ∧
       kvHas (paneKey 0 (bodyN (paneBody 0) 2 2)) s.spl.streams = true ∧ kvHas (paneKey 0 (bodyN (paneBody 1) 2 2)) s.spl.streams = false) ∧
    (let s := devSpl [] [(0, recv0)]
     s.recvRefused pf recvBody false = none ∧ s.recvRefused pfL recvBody false = none ∧ kvGet (recvKey 0 (bodyN recvBody 2 2)) s.spl.recvs = some recv0 ∧
       refType (bodyN recvBody 0 2) = 4 ∧ kvGet recv0.out s.fwd.outs = some outS ∧ s.hub.reachesLeg 0 outS.leg = true ∧ s.hub.reachesLeg 1 outS.leg = false) ∧
    ((devSpl [(0, { src := some (0, 0) })] []).hub.reachesSash 0 0 = true) := by
  decide +kernel

/-- VIN 0 with one video entry on port 0 and payload type 96, at ST 2110 or as SDI of 3840 × 2160 from lane 0; a path from forwarding slice 0. -/
def vinBlock : List Byte := [0, 0] ++ leBytes 2 3840 ++ leBytes 2 2160 ++ List.replicate 15 0 ++ [1] ++ List.replicate 10 0 ++ [0, 0, 0, 96] ++ List.replicate 28 0

def devVin (code : Nat) (built : Bool) (x : VinUnit) (st : Nat) : State :=
  { devF [(VIN.STATUS.STATE, 0, st)] with
    fab := { pers := [⟨mkRef 11 0, code, vinBlock, []⟩], built := if built then [⟨0, 0, mkRef 8 0, mkRef 11 0, 1, false, false⟩] else [], ports := [⟨3, 0, 0, 1, 0x2000⟩] }
    bio := { vins := [(0, x)] } }

def vinPkt (pt seq ts : Nat) : VinPkt := ⟨0, 0, pt, seq, ts, [], [], [], [], false⟩

def vinGrp (g : VinGroup) : State := devVin 1 true { groups := [(0, g)] } 0

theorem wit_vinPackets :
    (let s := vinGrp { newest := some 4000000000, used := [(1, 4000000000, true, 0)] }
     let p := s.fab.vinPers 0
     (p.flows[0]?).isSome = true ∧ (vinPkt 96 1 0).poison = false ∧ (∀ f ∈ p.flows, p.uses f = true ∧ f.kind = 0 ∧ f.group = 0 ∧
       f.pt = 96 ∧ s.fab.vinPath 0 f.eth = true ∧ (devVin 1 false {} 0).fab.vinPath 0 f.eth = false) ∧ p.code = 1 ∧ 0 < s.hub.unitCount 11 ∧
       (vinPkt 95 1 0).pt ≠ 96 ∧
       (((kvGet 0 (s.bio.vin 0).groups).getD {}).take p (vinRate 0) 2 4000000000 false s.hub.elapsed).2 = .use ∧
       (((kvGet 0 (s.bio.vin 0).groups).getD {}).take p (vinRate 0) 1 4000000000 false s.hub.elapsed).2 = .copy ∧
       (((kvGet 0 (s.bio.vin 0).groups).getD {}).take p (vinRate 0) 3 3900000000 false s.hub.elapsed).2 = .old) := by
  decide +kernel

/-- A line of a 3840 × 2160 frame at 60 Hz. -/
def sdiLine (first : Bool) (w : Nat) (row : Option Nat) : SdiLine := ⟨0, first, w, 2160, 60, 1, row, [], []⟩

theorem wit_sdi :
    (let s := devVin 2 false { frames := [{ num := 2, ts := 0, cf := 0 }] } 0
     let p := s.fab.vinPers 0
     p.code = 2 ∧ s.fab.sdiLane p = true ∧ s.sdiLost p = false ∧ 0 < s.hub.unitCount 11 ∧ (sdiLine true 3840 none).anc = [] ∧ p.fits (sdiLine true 3840 none) = true ∧
       (s.bio.vin 0).frames = [{ num := 2, ts := 0, cf := 0 }] ∧ p.fits (sdiLine false 3840 (some 2159)) = true ∧ 2159 < p.h ∧
       p.fits (sdiLine false 1920 (some 0)) = false) ∧
    (let s : State := { devVin 2 false {} 0 with fab := { (devVin 2 false {} 0).fab with down := [.lane 0] } }
     s.sdiLost (s.fab.vinPers 0) = true) ∧
    ((devVin 1 false {} 0).fab.vinPers 0).code ≠ 2 := by
  decide +kernel

/-- A group silent on path B since 3 ns, and a signal silent since 0; both 100 ms later. -/
def devQuiet (t : Nat) : State :=
  let s := devVin 1 false { groups := [(8, { lastB := some 3 })] } 2
  { s with hub := { s.hub with ticks := t } }

theorem wit_vinTimers :
    kvGet (8 * 1 + 0) ((devQuiet 0).bio.vin 0).groups = some { lastB := some 3 } ∧ (devQuiet 0).hub.elapsed < 3 + 100000000 ∧ 3 + 100000000 ≤ (devQuiet 12500001).hub.elapsed ∧
    (devQuiet 0).hub.get1 VIN.STATUS.STATE 0 = 2 ∧ (devVin 1 false {} 1).hub.get1 VIN.STATUS.STATE 0 ≠ 2 ∧
    (let p := (devQuiet 12500001).fab.vinPers 0
     p.code ≠ 2 ∧ 0 * p.num + 2 * 1000000000 * p.den ≤ (devQuiet 12500001).hub.elapsed * p.num ∧ ¬0 * p.num + 2 * 1000000000 * p.den ≤ (devQuiet 0).hub.elapsed * p.num) := by
  decide +kernel

/-- Frame 2 of VIN 0, stripe 1 streamed, a second after it began. -/
def devStream (sec : Nat) : State :=
  let s := devVin 1 false { frames := [{ num := 2, ts := 0, cf := 0, streamed := [1] }] } 2
  { s with hub := { s.hub with time := { sec := sec } } }

/-- A composer whose frame at 0 is complete, and a path of it to transmit lane 15; `fmt` 5 of 3840 × 2160 is SDI. -/
def devSdi (fmt : Byte) : State :=
  { dev [] with
    hub := { bar := .live, time := { sec := 1 } }
    fab := { pers := [⟨mkRef 3 0, 1, leBytes 2 3840 ++ leBytes 2 2160 ++ [fmt], []⟩], built := [⟨0, 0, mkRef 3 0, mkRef 13 15, 1, false, false⟩] }
    cmp := { units := [(0, { ended := [0] })] } }

theorem wit_videoOutputs :
    (let s := devStream 1
     let p := s.fab.vinPers 0
     (s.bio.vin 0).frames.find? (·.num = 2) = some { num := 2, ts := 0, cf := 0, streamed := [1] } ∧ 1 ∈ [1] ∧ (1 : Nat) ≠ 0 ∧ 2 ∉ [1] ∧ p.code = 1 ∧
       s.vinDue 0 p 0 2 = true ∧ (devStream 0).vinDue 0 p 0 2 = false ∧ s.vinDue 0 p 0 0 = true ∧ s.fab.part p.part = none) ∧
    ((devSdi 0).fab.built.find? (fun b => b.dst = mkRef 13 0 ∧ refType b.src = 3 ∧ !b.waiting) = none ∧
      (devSdi 5).fab.built.find? (fun b => b.dst = mkRef 13 15 ∧ refType b.src = 3 ∧ !b.waiting) = some ⟨0, 0, mkRef 3 0, mkRef 13 15, 1, false, false⟩ ∧
      ((devSdi 0).cmpPers 0).sdi = false ∧ 15 < 16 ∧ ((devSdi 5).cmpPers 0).sdi = true ∧ (devSdi 5).sdiFrame 15 0 ((devSdi 5).cmpPers 0) = some 0 ∧
      ({ devSdi 5 with bio := { sdi := [(15, 0)] } } : State).sdiFrame 15 0 ((devSdi 5).cmpPers 0) = none) := by
  decide +kernel

/-- TSO 7 as a mux or for CMAF, with a buffer of a size, a second after it began. -/
def devTso (code size : Nat) (x : TsoUnit) : State :=
  { dev [] with
    hub := { bar := .live, ticks := 125000000, time := { sec := 1 } }
    fab := { pers := [⟨mkRef 12 7, code, [], []⟩], parts := [⟨0, false, 0, 3, 0, 0, size, []⟩] }, bio := { tsos := [(7, x)] } }

theorem wit_mux :
    (let s := devTso 1 1000 { last := some 0, inDgram := 6, pcr := some 0, psi := some 0 }
     let p := s.fab.tsoPers 7
     7 < s.hub.unitCount 12 ∧ p.code = 1 ∧ (s.bio.tso 7).held = [] ∧ s.tsoRoom 7 (s.bio.tso 7) 1000 = true ∧ s.tsoRoom 7 (s.bio.tso 7) 1001 = false ∧
       (s.bio.tso 7).last = some 0 ∧ (s.bio.tso 7).parts = [] ∧ (s.bio.tso 7).inDgram ≠ 0 ∧ 0 + 1504000000 ≤ s.hub.time.total * p.rate ∧
       (dev []).hub.time.total * p.rate < 0 + 1504000000 ∧ 0 + 2 * 1504000000 ≤ 0 + p.pcrMs * 1000000 * p.rate ∧
       pastMs s.hub.elapsed (s.bio.tso 7).psi 100 10 = true ∧ pastMs (dev []).hub.elapsed (s.bio.tso 7).psi 100 10 = false) ∧
    (let d : TsPart := ⟨0, 257, 185, true, none⟩
     let s := devTso 1 1000 { last := some 0, inDgram := 6, pcr := some 0, parts := [d] }
     184 < d.bytes ∧ (s.bio.tso 7).parts = [d] ∧ d.at_ * (s.fab.tsoPers 7).rate ≤ 0 + 1504000000) ∧
    (((dev []).fab.tsoPers 7).code ≠ 2 ∧ ((dev []).fab.tsoPers 7).code ≠ 1 ∧ ((dev []).fab.tsoPers 7).code = 0) := by
  decide +kernel

/-- A chunk of a track of TSO 7. -/
def chunk (track frame : Nat) : CmafChunk := ⟨7, track, frame, [], [], [], [], [], []⟩

theorem wit_cmaf :
    (let s := devTso 2 0 { segs := [(0, 5)], initDue := [8], frames := [⟨2, 0, some 0, 0, 0, []⟩] }
     (s.fab.tsoPers 7).code = 2 ∧ 8 < 9 ∧ 8 ∈ (s.bio.tso 7).initDue ∧ 0 ∉ (s.bio.tso 7).initDue ∧ kvGet 0 (s.bio.tso 7).segs = some 5 ∧
       s.cmafFlags 7 (s.bio.tso 7) (chunk 0 3) = none ∧ s.cmafFlags 7 (s.bio.tso 7) (chunk 0 2) = some (false, 0, 0)) := by
  decide +kernel

/-- Node (0, 0) with a step due, on source 0 whose block of period 10 holds samples; ZC_MS is 1 to the device. -/
def devNode (due : Nat) (buf : List (Nat × Option Int)) : State :=
  { dev [] with fab := { period := 10 }, aud := { srcs := [(0, { kind := 4, tag := 3, buf := buf })], nodes := [(0, { target := 463, due := some due })] } }

/-- 200 ms after a reset. -/
def devLow (t : Nat) : State := { hub := { bar := .live, ticks := 25000000 }, aud := { snks := [(7, { low := some (100, t) })], roomAt := some t } }

theorem wit_gainSteps :
    (let s := devNode 61 [(61, some 0)]
     s.stepDue 0 (some 0) = some 61 ∧ crosses ((s.aud.src 0).at s.fab.period 60) ((s.aud.src 0).at s.fab.period 61) = true ∧
       61 ≤ 61 ∧ 6 * s.fab.period ≤ 61 ∧ 61 < 6 * s.fab.period + 6 ∧ 61 < 61 + s.hub.zcSamples ∧ s.lastStep 0 (some 0) < 61 ∧
       6 * s.fab.period + 6 ≤ 61 + s.hub.zcSamples ∧ kvGet (nodeKey 0 0) s.aud.nodes = some { target := 463, due := some 61 }) ∧
    (let s := devNode 61 [(60, some 5), (61, some 6), (62, some 5), (63, some 5), (64, some 5), (65, some 5)]
     crosses ((s.aud.src 0).at s.fab.period 60) ((s.aud.src 0).at s.fab.period 61) = false) ∧
    (let s : State := { devNode 17 [] with fab := { period := 100 } }
     s.stepDue 0 (some 0) = some 17 ∧ 17 + s.hub.zcSamples < 6 * s.fab.period + 6) ∧
    (let s : State := { dev [] with fab := { period := 10 }, aud := { snks := [(7, { due := some 61 })] } }
     s.stepDue 7 none = some 61 ∧ crosses (s.nodeSum 7 s.fab.period 60) (s.nodeSum 7 s.fab.period 61) = true) := by
  decide +kernel

theorem wit_audioHolds :
    (((devLow 100000001).aud.snk 7).low = some (100, 100000001) ∧ (devLow 0).hub.elapsed < 100000001 + (devLow 0).hub.get AUD.CFG.AS_HOLD * 10000000 ∧
      0 + (devLow 0).hub.get AUD.CFG.AS_HOLD * 10000000 ≤ (devLow 0).hub.elapsed ∧ ((devLow 0).aud.snk 7).low = some (100, 0) ∧
      pastMs (devLow 0).hub.elapsed (devLow 0).aud.roomAt 100 10 = true ∧ pastMs (devLow 0).hub.elapsed (devLow 100000001).aud.roomAt 100 10 = false) ∧
    (∃ x ∈ (devNode 61 []).aud.srcs, x.2.tag ≠ 0) ∧
    (let body : List Byte := [1, 0, 0, 0, 255, 1, 255, 1]
     1 ≤ bodyN body 0 2 ∧ bodyN body 0 2 ≤ 1024 ∧ bodyN [0, 4] 0 2 ≤ 1024 ∧ (∀ x ∈ nodeList body, x.1 < (dev []).hub.xptSize ∧ x.2.1 < (dev []).hub.xptSize) ∧
       nodeList body = [(511, 511, 0)] ∧ pfL.latched = true ∧ pf.latched = false ∧ bodyN body 0 2 = 1 ∧ bodyN body 4 2 < 2048 ∧ bodyN body 4 2 < (dev []).hub.xptSize) := by
  decide +kernel

/-- A codec unit; an inbound stream of CODEC 5 on leg 0 and an outbound one; a conference of function 0. -/
def devCodec : State :=
  { fw { confs := [(0, ⟨1, 0, false⟩)], legs := [(0, legOf [])], ins := [(0, { inS with codec := 5 })], outs := [(0, outOf [] 0 0 0 0)] } with
    fab := { pers := [⟨mkRef 6 0, 1, [], []⟩] } }

def decBody : List Byte := [0, 0] ++ leBytes 2 (mkRef 6 0) ++ [0, 0, 0, 0, 0, 0]

def encBody : List Byte := [0, 0] ++ leBytes 2 (mkRef 6 0) ++ [0, 0, 1, 0] ++ leBytes 2 48

def encChan : AudEnc := encChanOf encBody

theorem wit_audioService :
    ((dev []).bindRefused (bodyN [0xFF, 0xFF] 0 2) (bodyU8 [] 2) ((dev []).aud.src 65535).kind (bodyU8 [] 4 % 128) true = some 1 ∧
      (dev []).bindRefused (bodyN [255, 1] 0 2) (bodyU8 [] 2) ((dev []).aud.src 511).kind (bodyU8 [] 4 % 128) true = none ∧
      (dev []).bindRefused (bodyN [255, 1] 0 2) (bodyU8 [] 2) ((dev []).aud.snk 511).kind (bodyU8 [] 4 % 128) false = none) ∧
    (devCodec.decRefused pf decBody = none ∧ (dev []).decRefused pf decBody = some 3 ∧ devCodec.encChanRefused pf encBody = none ∧
      (dev []).encChanRefused pf encBody ≠ none ∧ devCodec.encChanRefused pf (encBody.set 7 1) = none ∧ (encChanOf (encBody.set 7 1)).stereo = true) ∧
    (let s : State := { devCodec with aud := { decs := [(0, { unit := 0, stream := 0, source := 0, jb := 20 })], encs := [(0, encChan)] } }
     bodyU8 [0, 0] 0 = 0 ∧ (kvGet (bodyN [0, 0] 2 2) s.aud.decs).isSome = true ∧ bodyU8 [1] 0 ≠ 0 ∧ kvGet (bodyN [1] 2 2) s.aud.encs = some encChan) ∧
    ((dev []).confRefused pf [] = some 3 ∧ devCodec.confRefused pf [] = none ∧ bodyU8 [] 2 % 2 = 0 ∧ devCodec.confRefused pf [0, 0, 1, 2, 0, 0, 0, 0] = none ∧
      bodyU8 [0, 0, 1, 2, 0, 0, 0, 0] 2 % 2 = 1) ∧
    (let body : List Byte := List.replicate 8 0 ++ [4, 0, 0, 0, 0, 0]
     devCodec.hub.legLimit ≤ bodyN (leBytes 2 devCodec.hub.legLimit) 0 2 ∧ bodyN body 0 2 < devCodec.hub.legLimit ∧ kvGet (bodyN body 0 2) devCodec.fwd.legs = some (legOf []) ∧ kvGet (bodyN body 2 2) devCodec.fwd.ins = some { inS with codec := 5 } ∧
       kvGet (bodyN body 4 2) devCodec.fwd.outs = some (outOf [] 0 0 0 0) ∧ devCodec.hub.reachesLeg 0 (bodyN body 0 2) = true ∧ (legOf []).state ≠ 3 ∧ inS.gone = false ∧
       (outOf [] 0 0 0 0).gone = false ∧ (outOf [] 0 0 0 0).leg = bodyN body 0 2 ∧ bodyN body 6 2 < 1024 ∧ bodyN body 12 2 < 2048 ∧ 1 ≤ bodyU8 body 8 ∧ bodyU8 body 8 ≤ 4) := by
  decide +kernel

/-- Decode channel 0 on an anchor; encode channel 0 whose next frame is 0; a source of another device's; a room whose talkers were last chosen at 0. -/
def devChan (period : Nat) : State :=
  { devCodec with
    fab := { devCodec.fab with period := period }
    aud := { decs := [(0, { unit := 0, stream := 0, source := 0, jb := 20, anchor := some (0, 0) })], encs := [(0, { encChan with next := some 0 })]
             srcs := [(3, { kind := 4, ref := 5 + 65536 * 6 })], confs := [(0, { t := 2, src := 0, snk := 0, dec := 0, enc := 0, at_ := some 0 })] } }

theorem wit_audioStreams :
    (let s := devChan 160
     kvGet 0 s.aud.decs = some { unit := 0, stream := 0, source := 0, jb := 20, anchor := some (0, 0) } ∧ s.codecUnit (mkRef 6 0) = true ∧
       playAt (((kvGet 0 s.fwd.ins).map (·.clock)).getD 48000) 0 (0, 0) / 6 < (s.fab.period : Int) ∧
       ((devChan 0).fab.period : Int) ≤ playAt (((kvGet 0 s.fwd.ins).map (·.clock)).getD 48000) 0 (0, 0) / 6 ∧
       kvGet 0 s.aud.encs = some { encChan with next := some 0 } ∧ encChan.closing = none ∧ encChan.codec ≠ 6 ∧ encChan.codec ≠ 7 ∧ encChan.unit = 0 ∧ encChan.dest = 0 ∧
       ({ encChan with dest := 2 } : AudEnc).dest = 2 ∧ 0 * encChan.n + encChan.n ≤ 6 * s.fab.period ∧ 6 * (devChan 159).fab.period < 0 * encChan.n + encChan.n) ∧
    ((devChan 160).aud.srcs.find? (fun e => e.2.kind = 4 ∧ e.2.ref = 5 + 65536 * 6) = some (3, { kind := 4, ref := 5 + 65536 * 6 }) ∧ 157 + 2 < (devChan 160).fab.period ∧
      (devChan 160).fab.period ≤ 158 + 2 ∧ ([1, 2, 3, 4, 5, 6] : List Int).length = 6) ∧
    (kvGet 1 (devChan 0).aud.confs = none ∧ kvGet 0 (devChan 0).aud.confs = some { t := 2, src := 0, snk := 0, dec := 0, enc := 0, at_ := some 0 } ∧
      pastMs (devChan 0).hub.elapsed (some 0) ((devChan 0).aud.key 1) 10 = false ∧ pastMs (late (devChan 0)).hub.elapsed (some 0) ((devChan 0).aud.key 1) 10 = true) := by
  decide +kernel

/-- Leg 0 with an Opus encode channel and an Opus decode channel; core 0 runs one receiver of the survey sash; ticks have passed. -/
def devDbl (d : DblSt) (ticks : Nat) : State :=
  { devCodec with
    hub := { (dev [((HNG.CORE_STAT.STATE).off 0 0, HNG.CORE_STAT.STATE.into 0 1)]).hub with ticks := ticks }
    fwd := { devCodec.fwd with ins := [(0, { inS with codec := 5, clock := 48000 })] }
    fab := { sashes := [⟨0, 0, 0, [mkRef 5 0], []⟩], slats := [⟨0, 0, mkRef 5 0, 4048, 0, [], 0⟩] }
    aud := { encs := [(0, { encChan with kbps := 48 })], decs := [(0, { unit := 0, stream := 0, source := 0, jb := 20 })] }
    dbl := d }

/-- 8,000 s on. -/
def far : Nat := 1000000000000

def dwellOf (r : Option DblRecep) : DblSt := { dwells := [(0, { leg := 0, start := 0, recep := r })] }

theorem wit_beacons :
    (let x : DblTx := { pmod := false, nonce := 9, frame := some (0, 5) }
     let s := devDbl { tx := [(0, x)] } 0
     let wait := fun (u : State) => (125000 - u.hub.time.total % 125000) % 125000
     kvGet 0 s.dbl.tx = some x ∧ s.hub.elapsed + wait s < 5 + s.dbl.key 2 * 1000000 ∧ x.stop = false ∧ s.beaconChans 0 ≠ [] ∧
       (let u := devDbl { tx := [(0, x)] } far
        5 + u.dbl.key 2 * 1000000 ≤ u.hub.elapsed + wait u) ∧ ({ x with stop := true } : DblTx).stop = true) ∧
    (let s := devDbl {} 0
     (dev []).dblRefused pf (bodyN [] 0 2) = some 3 ∧ (dev []).dblRefused pf (dev []).hub.legLimit = some 1 ∧ s.dblRefused pf (bodyN [] 0 2) = none ∧
       bodyU8 [0, 0, 1] 2 ≠ 0 ∧ (∀ x ∈ s.beaconChans 0, 48 ≤ x.kbps) ∧
       ({ s with aud := {} } : State).beaconChans 0 = [] ∧ kvGet 0 s.dbl.survey = none ∧ bodyU8 [] 2 = 0 ∧ s.dbl.edges = []) ∧
    (let s := devDbl { edges := [(min 2 1, max 2 1, 1)] } 0
     s.dbl.edges = [(min 2 1, max 2 1, 1)] ∧ s.hub.elapsed < 1 + s.dbl.key 3 * 1000000000 ∧ 1 + s.dbl.key 3 * 1000000000 ≤ (devDbl {} far).hub.elapsed) := by
  decide +kernel

theorem wit_receptions :
    (let s := devDbl { survey := [(0, { turn := 0 })] } 0
     s.dblRuns 0 = true ∧ 0 < s.receivers 0 ∧ kvHas (128 * 0 + 0) s.dbl.dwells = false ∧ s.dbl.survey = [(0, { turn := 0 })] ∧ s.opusChans 0 ≠ [] ∧
       kvHas (128 * 0 + 0) (dwellOf none).dwells = true) ∧
    (let d : DblDwell := { leg := 0, start := 0, recep := none }
     let s := devDbl (dwellOf none) 0
     kvGet (128 * 0 + 0) s.dbl.dwells = some d ∧ s.hub.elapsed < 0 + 6000000000 ∧
       0 + 6000000000 ≤ (devDbl (dwellOf none) far).hub.elapsed ∧ (some ({ metric := 4 } : DblRecep)) ≠ none ∧
       s.dwell 0 0 = some d ∧ 2 < min (max (s.hub.get DBL.RX_CTL.ACQ_THRESH) 3) 30 ∧
       min (max (s.hub.get DBL.RX_CTL.ACQ_THRESH) 3) 30 ≤ 30 ∧ d.recep = none ∧ d.ended = false) ∧
    (let r : DblRecep := { metric := 4 }
     let s := devDbl (dwellOf (some r)) 0
     s.dwell 0 0 = some { leg := 0, start := 0, recep := some r } ∧ r.header = none ∧ r.metric + s.hub.get DBL.RX_CTL.PREEMPT_MARGIN ≤ 30 ∧
       4 < r.metric + s.hub.get DBL.RX_CTL.PREEMPT_MARGIN ∧ (some false : Option Bool) ≠ none ∧ r.sync = false ∧
       ({ leg := 0, start := 0, got := 0 } : DblDwell).count < r.start + 62 * (11 + 4) ∧ r.start + 62 * (11 + 4) ≤ ({ leg := 0, start := 0, got := 24 * 930 } : DblDwell).count ∧
       r.headerWord = none ∧ r.payloadWord = none) := by
  decide +kernel

/-- A receiver with the given soft values. -/
def heard (soft : List Int) (header : Option Bool) : DblRecep :=
  { metric := 4, sync := true, header := header, eq := some { ff := [], fb := [], ref := [], prev := ⟨0, 0⟩, phase := 0, at_ := 0, syms := 0, soft := soft } }

/-- The soft values of the coded bits of `v`, the first lowest. -/
def softOf (n v : Nat) : List Int := (List.range n).map fun i => if v.testBit i then -8 else 8

theorem wit_headerPasses : (heard (softOf 44 1025305123584) none).headerWord = some 4084 ∧ crcHdr (4084 / 16 % 4096) = 4084 % 16 ∧ 4084 / 16 % 4096 < 256 := by
  decide +kernel

theorem wit_headerFails : (heard (List.replicate 44 (-8)) none).headerWord = some 34954 ∧ crcHdr (34954 / 16 % 4096) ≠ 34954 % 16 := by
  decide +kernel

theorem wit_payloadPasses : (heard (List.replicate 44 8 ++ softOf 140 1163774677690018019816531038003556050272256) (some false)).payloadWord = some 491255 ∧
    crcToken (491255 / 65536 % 2 ^ 48) = 491255 % 65536 := by
  decide +kernel

theorem wit_payloadFails : (heard (List.replicate 184 8) (some false)).payloadWord = some 0 ∧ crcToken (0 / 65536 % 2 ^ 48) ≠ 0 % 65536 := by
  decide +kernel

/-- Core 0 of sash 0, in a state, with a bundle at its counter, bytes of data memory, and waiting blocks. -/
def devHng (st ctl comp : Nat) (c : HngCore) (inbox : List HngBlk) : State :=
  { devF [(HNG.CORE_STAT.STATE, 0, st)] with
    fab := { sashes := [⟨0, 0, 0, [mkRef 5 0], []⟩], grants := [⟨mkRef 5 0, 0, 100, true⟩] }
    hng := { cores := [(0, { c with prog := memWriteList [] 0 (leBytes 4 ctl ++ leBytes 4 comp) })], inbox := inbox } }

def blk : HngBlk := ⟨0, 0, 0, 0, 0, [], false⟩

def hngBody : List Byte := leBytes 2 (mkRef 5 0) ++ List.replicate 18 0 ++ [64, 0, 0, 0]

theorem wit_bundles :
    (let s := devHng 1 (0x0A * 2 ^ 27 + 5) 0 {} []
     let c := s.hng.core 0
     let word := leNat (memReadList c.prog (8 * c.pc) 8)
     s.hngState 0 = 1 ∧ (s.fab.users 5 0).contains 0 = true ∧ s.hub.get1 GLB.SASH_STAT.EMERG_HELD 0 = 0 ∧ s.granting = true ∧ (s.fab.grantOf (s.hngHw 0) 0).isSome = true ∧ (s.fab.users 5 0).contains 1 = false ∧
       (s.fab.grantOf (s.hngHw 0) 1).isSome = false ∧
       hngCompute c.regs (word / 2 ^ 32) = some {} ∧ c.faultOf (word % 2 ^ 32) (some {}) = none ∧ s.hngWaits 0 (word % 2 ^ 32) = none ∧
       fieldOf (word % 2 ^ 32) 27 5 ≠ 0x12 ∧ fieldOf (word % 2 ^ 32) 27 5 ≠ 0x13 ∧ fieldOf (word % 2 ^ 32) 27 5 ≠ 0x14 ∧ fieldOf (word % 2 ^ 32) 27 5 ≠ 0x16 ∧ c.busy = [] ∧
       (c.bundle (word % 2 ^ 32) {} c.clock s.fab.period (Config.freeValue s.hub.free)).2 = .goto 5) ∧
    (let s := devHng 1 0 0 {} []
     let c := s.hng.core 0
     let word := leNat (memReadList c.prog (8 * c.pc) 8)
     hngCompute c.regs (word / 2 ^ 32) = some {} ∧ (c.bundle (word % 2 ^ 32) {} c.clock s.fab.period (Config.freeValue s.hub.free)).2 = .on) ∧
    (let s := devHng 3 (0x12 * 2 ^ 27) 0 {} []
     let c := s.hng.core 0
     let word := leNat (memReadList c.prog (8 * c.pc) 8)
     s.hngState 0 = 3 ∧ (s.hngWaits 0 (word % 2 ^ 32)).isSome = true ∧ c.faultOf (word % 2 ^ 32) (hngCompute c.regs (word / 2 ^ 32)) = none) ∧
    (let s := devHng 0 (0x17 * 2 ^ 27) 0 {} []
     let c := s.hng.core 0
     let word := leNat (memReadList c.prog (8 * c.pc) 8)
     s.hngState 0 ≠ 1 ∧ s.hngState 0 ≠ 3 ∧ c.faultOf (word % 2 ^ 32) (hngCompute c.regs (word / 2 ^ 32)) = some 1) := by
  decide +kernel

theorem wit_dmaAndMailboxes :
    (let d : HngDma := ⟨0, 0, false, 0, 0, 0, 0⟩
     let s := devHng 1 0 0 { dma := [(3, d)] } []
     kvGet 3 (s.hng.core 0).dma = some d ∧ s.dmaWaits d = false ∧ ({ s with hub := s.hub.set1 GLB.STATUS.FROZEN 0 1 } : State).dmaWaits d = true) ∧
    (let f := fun (st : Nat) (c : HngCore) => devHng st 0 0 c [blk]
     ((f 1 {}).hng.inbox.find? fun b => b.core = 0 ∧ b.due ≤ (f 1 {}).fab.period) = some blk ∧ (f 0 {}).hngState 0 = 0 ∧ (f 1 {}).hngState 0 = 1 ∧ ((f 1 {}).mb 0 false).slots ≠ 0 ∧
       ((f 1 {}).hng.core 0).owned (((f 1 {}).mb 0 false).slot 0) = false ∧ ((f 1 { data := [(5, 2)] }).hng.core 0).owned (((f 1 {}).mb 0 false).slot 0) = true ∧
       ((f 1 {}).hng.core 0).wait = none) ∧
    (((dev []).hng.core 0).posted = [] ∧ ((devHng 1 0 0 { posted := [(0, 0), (1, 0)] } []).hng.core 0).posted = (0, 0) :: [(1, 0)]) := by
  decide +kernel

theorem wit_hingeService :
    ((dev []).hngRefused pf (bodyN [] 0 2) = some 4 ∧ (dev []).hngRefused pf (bodyN hngBody 0 2) = none ∧ (devHng 1 0 0 {} []).hngState 0 ≠ 0 ∧
      (devHng 4 0 0 {} []).hngState 0 = 4 ∧ (devHng 4 0 0 {} []).hngRefused pf (bodyN hngBody 0 2) = none ∧
      ((dev []).hngCopy 0 (bodyU8 hngBody 2 == 1) (bodyN hngBody 4 2 % 4096) (bodyN hngBody 8 8 / 64 * 64) (bodyN hngBody 16 4 / 64 * 64) (bodyN hngBody 20 4 / 64 * 64)).2 = 1 ∧
      (let s : State := { devF [(MEM.HBM_STAT.STATE, 0, 2), (MEM.HBM_STAT.STATE, 1, 2)] with fab := { sashes := [⟨0, 0, 0, [mkRef 5 0], []⟩], parts := [⟨0, false, 0, 0, 0, 0, 4096, []⟩] } }
       (s.hngCopy 0 (bodyU8 hngBody 2 == 1) (bodyN hngBody 4 2 % 4096) (bodyN hngBody 8 8 / 64 * 64) (bodyN hngBody 16 4 / 64 * 64) (bodyN hngBody 20 4 / 64 * 64)).2 = 0)) := by
  decide +kernel

theorem wit_audioFrames : (∃ t, exec (.audStats pf []) State.reset = .next t) ∧ (∃ t, exec (.dblGroup pf []) State.reset = .next t) ∧
    (∃ t, exec (.edgeTtlExpiry 0 1) State.reset = .next t) ∧ (∃ t, exec (.hngHalt pf []) State.reset = .next t) ∧ (∃ t, exec (.hngStats pf []) State.reset = .next t) :=
  ⟨⟨_, rfl⟩, ⟨_, rfl⟩, ⟨_, rfl⟩, ⟨_, rfl⟩, ⟨_, rfl⟩⟩


/-- Lane 3 in a state, outside any port or on Ethernet port 0. -/
def devLane (st : Nat) (port : Bool) : State := { devF [(LNK.LANE_STAT.STATE, 3, st)] with fab := { ports := if port then [⟨1, 0, 3, 1, 0⟩] else [] } }

theorem wit_lanes :
    ((devLane 3 false).hub.get1 LNK.LANE_STAT.STATE 3 = 3 ∧ (devLane 3 false).fab.portOfLane 3 = none ∧ (devLane 3 true).fab.portOfLane 3 = some ⟨1, 0, 3, 1, 0⟩ ∧
      (⟨1, 0, 3, 1, 0⟩ : PortRec).kind = 1 ∧ (dev []).hub.get1 LNK.LANE_STAT.STATE 0 ≠ 3 ∧ (dev []).hub.get1 LNK.LANE_STAT.STATE 0 = 0) ∧
    ((∀ st ∈ [1, 2, 4], (devLane st false).hub.get1 LNK.LANE_STAT.STATE 3 = st ∧ (devLane st false).fab.portOfLane 3 = none ∧ (devLane st true).fab.portOfLane 3 ≠ none ∧
      ((devLane st false).lnk.lane 3).retry = false ∧ (devLane st false).start.calibrating = false) ∧ (devLane 5 false).hub.get1 LNK.LANE_STAT.STATE 3 = 5 ∧
      ({ devLane 4 false with start := { phase := .cold 7 } } : State).start.calibrating = true ∧
      (({ devLane 4 false with lnk := { lanes := [(3, { retry := true })] } } : State).lnk.lane 3).retry = true) ∧
    ((let s := devF [(LNK.LANE_STAT.STATE, 3, 3), (LNK.LANE_CTL.PAM4, 3, 0)]
      s.hub.get1 LNK.LANE_CTL.PAM4 3 = 0 ∧ s.hub.get1 LNK.LANE_STAT.STATE 3 = 3 ∧ s.fab.portOfLane 3 = none) ∧
     (devF [(LNK.LANE_CTL.PAM4, 3, 1)]).hub.get1 LNK.LANE_CTL.PAM4 3 = 1 ∧ fomOf 0 < 72 ∧ 72 ≤ fomOf 1000000 ∧ fomOf 0 < (dev []).hub.get LNK.CFG.FOM_MIN ∧
       (dev []).hub.get LNK.CFG.FOM_MIN ≤ fomOf 1000000) ∧
    (({ hub := { bar := .frozen } } : State).hub.hostIn = false ∧ ({ hub := { bar := .live, pcieDown := true } } : State).hub.hostIn = false ∧ (dev []).hub.hostIn = true ∧
      3 < (dev []).hub.unitCount 13) := by
  decide +kernel

/-- Link 1 in a state, with its record, of a direct port of two lanes, after some ticks. -/
def devLink (st : Nat) (x : JlLink) (tunnel ticks : Nat) : State :=
  let h := (devF [(LNK.JL_STAT.STATE, 1, st), (LNK.JL_STAT.TUNNEL, 1, tunnel), (LNK.CFG.DEVICE, 0, 5), (LNK.JL_STAT.MASK, 1, 1)]).hub
  { hub := { h with ticks := ticks }, lnk := { links := [(1, x)] }, fab := { ports := [⟨2, 1, 8, 2, 0x1000⟩] } }

/-- A flit of device 6 to device 5, and the hello of a device. -/
def flit (kind flags seq : Nat) (data : List Byte) : List Byte := flitBytes ⟨kind, flags, 5, 6, seq, 0, data.length, 0⟩ data

def helloMsg (device cluster : Nat) : JlHello := { magic := true, device := device, hi := 65535, lo := 0, link := 1, mask := 3, variant := 0, cluster := cluster, credits := [1, 1, 1, 1] }

/-- A received sequenced flit. -/
def rx (b : List Byte) (lost : Bool) : JlRx := ⟨1, b, lost, [], true, ⟨false, 0, 0, false, false, false, [], false⟩, .other⟩

theorem wit_flitForms :
    (flitGood (flit 1 0 0 (helloMsg 6 0).bytes) = true ∧ flitGood [1] = false ∧ (headOf (flit 1 0 0 [])).kind = 1 ∧ helloOf (((flit 1 0 0 (helloMsg 6 0).bytes)).drop 12) = helloMsg 6 0 ∧
      (helloOf []).magic = false) ∧
    (flitGood (flit 0 8 0 []) = true ∧ (headOf (flit 0 8 0 [])).nak = true ∧ (headOf (flit 0 0 0 [])).nak = false ∧ (headOf (flit 0 0 0 [])).kind = 0 ∧
      flitGood (flit 8 0 0 []) = true ∧ (headOf (flit 8 0 0 [])).kind = 8 ∧ flitGood (flit 9 0 0 [1]) = true ∧ (headOf (flit 9 0 0 [1])).kind = 9 ∧
      flitGood (flit 2 0 65535 [7]) = true ∧ (headOf (flit 2 0 65535 [7])).kind = 2 ∧ (headOf (flit 2 0 65535 [7])).seq = 65535) := by
  decide +kernel

theorem wit_flits :
    ((dev []).jlListens 1 0 = false ∧ (dev []).hub.get GLB.STATUS.FROZEN = 0 ∧ (∀ k < 10, (devLink 4 {} 0 0).jlListens 1 k = true) ∧ (devLink 4 {} 0 0).jlState 1 = 4) ∧
    (let s := devLink 3 {} 0 0
     s.jlListens 1 1 = true ∧ s.jlState 1 = 3 ∧ (s.lnk.link 1).open_ = false ∧ (helloMsg 6 0).magic = true ∧
       (∀ s1, s.setLink 1 { s.lnk.link 1 with heard := s.hub.elapsed } = s1 → s1.helloState (helloMsg 6 0) = 4) ∧
       (helloMsg 5 0).device = s.hub.get LNK.CFG.DEVICE ∧ (helloMsg 6 1).device ≠ s.hub.get LNK.CFG.DEVICE ∧ (helloMsg 6 1).cluster ≠ s.hub.get64 LNK.CLUSTER_LO.TAG 0) ∧
    (let s := devLink 5 {} 0 0
     s.jlListens 1 8 = true ∧ s.jlState 1 ≠ 4 ∧ (s.jlHeard 1).fab.port 2 1 = some ⟨2, 1, 8, 2, 0x1000⟩ ∧ (0x1000 : Nat) ≠ 0x1100 ∧ (s.jlHeard 1).jlState 1 = 5) ∧
    (let s := devLink 3 {} 0 0
     s.jlListens 1 9 = true ∧ (s.jlHeard 1).fab.port 2 1 = some ⟨2, 1, 8, 2, 0x1000⟩ ∧ (s.jlHeard 1).jlState 1 ≠ 4 ∧ (s.jlHeard 1).jlState 1 ≠ 5) := by
  refine ⟨by decide +kernel, ⟨by decide +kernel, by decide +kernel, by decide +kernel, by decide +kernel, fun s1 h => h ▸ ?_, ?_⟩, ?_, ?_⟩ <;> decide +kernel

theorem wit_sequenced :
    (let s := devLink 4 { got := 65535 } 0 0
     let w := (s.jlHeard 1).jlHead 1 ⟨2, 0, 5, 6, 65535, 0, 1, 0⟩
     (rx (flit 2 0 65535 [7]) false).link = 1 ∧ (rx [] true).lost = true ∧ s.jlState 1 = 4 ∧ w.jlState 1 = 4 ∧ 65535 = (w.lnk.link 1).got % 65536 ∧ 0 ≠ (w.lnk.link 1).got % 65536 ∧
       w.secured 1 = false) := by
  decide +kernel

/-- A conference, its handover to device 9 (routed over link 1, which is in a state). -/
def handTo (t : Option Nat) (instant : Nat) : Handover := { target := 9, tconf := 0, instant := instant, env := pf, switched := t }

def devHand (st valid ticks : Nat) (h : List (Nat × Handover)) : State :=
  let s := devF [(LNK.JL_STAT.STATE, 1, st), (LNK.ROUTE.VALID, 9, valid), (LNK.ROUTE.PRIMARY, 9, 1)]
  { s with hub := { s.hub with ticks := ticks }, fwd := { confs := [(0, ⟨1, 2, false⟩)] }, lnk := { hand := h } }

theorem wit_links :
    ((dev []).hub.get GLB.STATUS.FROZEN = 0 ∧ (∀ st t, (devLink st {} 0 t).hub.get GLB.STATUS.FROZEN = (devLink st {} 0 0).hub.get GLB.STATUS.FROZEN)) ∧
    ((devLink 2 {} 0 0).jlState 1 = 2 ∧ (dev []).jlState 1 ≠ 2 ∧
      (devLink 3 { helloAt := some 0 } 0 0).jlState 1 = 3 ∧ ((devLink 3 { helloAt := some 0 } 0 0).lnk.link 1).helloAt = some 0 ∧
      (devLink 3 { helloAt := some 0 } 0 124999).hub.elapsed < 0 + 1000000 ∧ 0 + 1000000 ≤ (devLink 3 { helloAt := some 0 } 0 125000).hub.elapsed ∧
      (devLink 4 { helloAt := some 0 } 0 124999999).hub.elapsed < 0 + 1000000000 ∧ 0 + 1000000000 ≤ (devLink 4 { helloAt := some 0 } 0 125000000).hub.elapsed ∧
      (∀ t, (dev []).lnk.link 1 = t → t.helloAt = none)) ∧
    ((devLink 8 {} 0 25000).jlState 1 = 8 ∧ (devLink 8 {} 0 25000).hub.elapsed ≤ 0 + 200000 ∧ 0 + 200000 < (devLink 8 {} 0 25001).hub.elapsed) ∧
    (let s := devLink 4 {} 0 0
     (⟨2, 1, 8, 2, 0x1000⟩ : PortRec).number = 1 ∧ widestGroup 2 (0 &&& s.jlUsable ⟨2, 1, 8, 2, 0x1000⟩) = none ∧
       widestGroup 2 (1 &&& s.jlUsable ⟨2, 1, 8, 2, 0x1000⟩) = some (1, s.hub.get1 LNK.JL_STAT.MASK 1)) ∧
    (let e : JlSent := ⟨0, ⟨2, 0, 5, 6, 0, 0, 0, 0⟩, [], 0, 0⟩
     let s := devLink 4 { replay := [e], srtt := 333333 } 1 375000000
     s.hub.get1 LNK.JL_STAT.TUNNEL 1 = 1 ∧ s.jlState 1 = 4 ∧ e ∈ (s.lnk.link 1).replay ∧ e.at_ + max 1000000 (3 * (s.lnk.link 1).srtt) ≤ s.hub.elapsed ∧
       (s.lnk.link 1).heard + 3000000000 ≤ s.hub.elapsed ∧ (devLink 4 {} 1 374999999).hub.elapsed < 0 + 3000000000 ∧
       ∀ y ∈ ((devLink 4 { replay := [e] } 1 124999).lnk.link 1).replay, (devLink 4 { replay := [e] } 1 124999).hub.elapsed < y.at_ + max 1000000 (3 * 0)) := by
  refine ⟨⟨by decide +kernel, fun _ _ => rfl⟩, ⟨?_, ?_, ?_, ?_, ?_, ?_, ?_, ?_, fun t h => h ▸ rfl⟩, ?_, ?_, ?_⟩ <;> decide +kernel

theorem wit_handovers :
    ((dev []).hub.unitCount 14 ≤ bodyU8 [255] 0 ∧ bodyU8 [] 0 < (dev []).hub.unitCount 14 ∧ kvGet (bodyN [] 0 2 % 4096) (dev []).fwd.confs = none) ∧
    (let s := devHand 4 1 0 []
     let body : List Byte := [0, 0, 9, 0]
     kvGet (bodyN body 0 2 % 4096) s.fwd.confs = some ⟨1, 2, false⟩ ∧ (⟨1, 2, false⟩ : Conf).reached 3 = false ∧ (⟨1, 2, false⟩ : Conf).reached 2 = true ∧
       (⟨1, 2, false⟩ : Conf).gone = false ∧ (⟨1, 2, true⟩ : Conf).gone = true ∧
       kvHas (bodyN body 0 2 % 4096) s.lnk.hand = false ∧ s.jlRoute (bodyN body 2 2 % 2048) ≠ none ∧ kvHas 0 (devHand 4 1 0 [(0, handTo none 0)]).lnk.hand = true) ∧
    (let f := fun st ticks h => devHand st 1 ticks [(0, h)]
     kvGet 0 (f 4 0 (handTo none 0)).lnk.hand = some (handTo none 0) ∧ (handTo none 1).switched = none ∧ (f 4 0 (handTo none 1)).hub.time.total < ceilDiv 1 125000 * 125000 ∧
       ceilDiv 0 125000 * 125000 ≤ (f 4 0 (handTo none 0)).hub.time.total ∧ (f 1 0 (handTo none 0)).jlRoute 9 = none ∧ (f 4 0 (handTo none 0)).jlRoute 9 ≠ none ∧
       (handTo none 0).copied = false ∧ ({ handTo none 0 with copied := true } : Handover).copied = true ∧ (f 4 0 (handTo none 0)).hub.get GLB.STATUS.FROZEN = 0 ∧
       (devF [(GLB.STATUS.FROZEN, 0, 1)]).hub.get GLB.STATUS.FROZEN = 1 ∧
       (handTo (some 0) 0).switched = some 0 ∧ (f 4 124999999 (handTo (some 0) 0)).hub.elapsed < 0 + 1000000000 ∧ 0 + 1000000000 ≤ (f 4 125000000 (handTo (some 0) 0)).hub.elapsed ∧
       (f 4 0 (handTo none 0)).fwd.confLegs 0 = []) := by
  decide +kernel

/-- An unauthenticated transfer, and an authenticated one with nonce 7, of a payload. -/
def mg (cmd : Nat) (p : List Byte) : MgmtFrame := ⟨leBytes 1 cmd ++ leBytes 1 p.length ++ List.replicate 10 0 ++ p, true⟩

def mgA (cmd : Nat) (p : List Byte) (ok : Bool) : MgmtFrame := ⟨leBytes 1 cmd ++ leBytes 1 p.length ++ [0, 0] ++ leBytes 8 7 ++ p ++ List.replicate 16 0, ok⟩

/-- A unit under test, a channel whose bucket leaks from 0 for 5 ns, a march, a self-test schedule. -/
def devDbt (l : List (Fld × Nat × Nat)) : State :=
  { devF l with
    dbt := { mismatchAt := some 0, leaks := [(chanId 1 0, 0, 5)], tests := [⟨1, 2, 3, 0, false, 0⟩], march := [chanId 0x20 0], bistAt := [(1, 0, 0), (2, 0, 1)] }
    start := { phase := .running, opened := true } }

/-- A device that runs, with management key 1 and nonce 7. -/
def devAt (ticks : Nat) : State := { running with hub := { running.hub with ticks := ticks }, dbt := { nonce := some 7, mgmtKey := 1 } }

def devMg : State := { running with dbt := { nonce := some 7, mgmtKey := 1 } }

theorem wit_management :
    (({ running with dbt := { restarting := true } } : State).mgmtAnswers = false ∧ State.reset.mgmtAnswers = true ∧ mgmtSized ⟨[1], true⟩ false = false ∧ mgmtSized (mg 1 []) false = true ∧ mgmtSized (mg 2 [0, 0, 0, 0, 16]) false = true ∧
      bodyU8 (mgmtPayload (mg 2 [])) 4 = 0 ∧ 16 < bodyU8 (mgmtPayload (mg 2 [0, 0, 0, 0, 17])) 4 ∧ 1 ≤ bodyU8 (mgmtPayload (mg 2 [0, 0, 0, 0, 16])) 4 ∧
      bodyU8 (mgmtPayload (mg 2 [0, 0, 0, 0, 16])) 4 ≤ 16 ∧ State.reset.dbt.mgmtKey = 0 ∧ devMg.dbt.mgmtKey ≠ 0 ∧ devMg.mgmtAnswers = true ∧
      (devAt 124999999).hub.elapsed < (devAt 0).dbt.nonceAt + 1000000000 ∧ (devAt 0).dbt.nonceAt + 1000000000 ≤ (devAt 125000000).hub.elapsed ∧
      (devAt 125000000).nonceOld = true ∧ devMg.nonceOld = false ∧ (devAt 0).mgmtAnswers = true) ∧
    (mgmtSized (mg 0x10 []) true = false ∧ mgmtSized (mgA 0x10 [] true) true = true ∧ State.reset.dbt.nonce ≠ some (mgmtNonce (mgA 0x10 [] true)) ∧
      devMg.dbt.nonce = some (mgmtNonce (mgA 0x10 [] true)) ∧ ({ devMg with dbt := { nonce := some 7 } } : State).dbt.mgmtKey = 0 ∧ (mgA 0x10 [] false).macOk = false ∧
      ({ devMg with start := { phase := .stopped } } : State).start.phase = .stopped ∧ ({ devMg with start := { phase := .stopped } } : State).mgmtAnswers = true) := by
  decide +kernel

theorem wit_authenticated :
    (let f := mgA 0x14 [1, 0, 0, 0] true
     devMg.mgmtAnswers = true ∧ mgmtSized f true = true ∧ devMg.dbt.nonce = some (mgmtNonce f) ∧ devMg.nonceOld = false ∧ devMg.dbt.mgmtKey ≠ 0 ∧ f.macOk = true ∧ devMg.start.phase ≠ .stopped ∧
       devMg.start.phase ≠ .held ∧ 1 ≤ bodyU8 (mgmtPayload f) 0 ∧ bodyU8 (mgmtPayload f) 0 ≤ 7) ∧
    (let s1 : State := { devMg with dbt := { devMg.dbt with nonce := none } }
     (bodyU8 (mgmtPayload (mgA 0x1B [0] true)) 0 = 0 ∧ 2 ≤ bodyU8 (mgmtPayload (mgA 0x1B [2] true)) 0 ∧ bodyU8 (mgmtPayload (mgA 0x14 [7] true)) 0 = 7 ∧
       bodyU8 (mgmtPayload (mgA 0x1B [1] true)) 0 = 1 ∧ bodyU8 (mgmtPayload (mgA 0x17 [1, 5] true)) 0 ≠ 0 ∧ (devDbt []).start.opened = true ∧ devMg.start.opened = false ∧
       (dev []).hub.get DBT.BIST_CTL.HOURS ≠ 5) ∧
       s1.bistReady (bodyN (mgmtPayload (mgA 0x18 (leBytes 4 (chanId 9 0)) true)) 0 4) = false ∧ s1.bistReady (bodyN (mgmtPayload (mgA 0x18 (leBytes 4 (chanId 1 0)) true)) 0 4) = true ∧
       s1.canMarch (bodyN (mgmtPayload (mgA 0x19 [] true)) 0 4) = false ∧ s1.canMarch (bodyN (mgmtPayload (mgA 0x19 (leBytes 4 (chanId 0x20 0)) true)) 0 4) = true) := by
  decide +kernel

theorem wit_shutter :
    (running.hub.shutterArmed 2 = true ∧ running.start.phase = .running ∧ running.hub.get GLB.STATUS.FROZEN = 0) ∧ running.canon ∧
    (({ running with dbt := { shutPin := true } } : State).dbt.shutPin = true ∧ ({ running with dbt := { shutPin := true } } : State).dbt.shutHold = false ∧
      State.reset.start.phase = .held ∧ 15 < 16 ∧ 16 ≤ 16) ∧
    (let hot := fun (ticks : Nat) (said : Bool) => ({ devAt ticks with dbt := { hotAt := some 0, hotSaid := said } } : State)
     running.hotDue = false ∧ (hot 124999999 false).hotDue = false ∧ (hot 125000000 false).hotDue = true ∧ (hot 125000000 true).hotDue = false ∧ (hot 125000000 false).start.phase ≠ .held) ∧
    (let s : State := { devF [(GLB.STATUS.FROZEN, 0, 1)] with start := { phase := .running } }
     s.hub.get GLB.STATUS.FROZEN = 1 ∧ running.hub.get GLB.STATUS.FROZEN ≠ 1 ∧ s.dbt.resuming = false ∧ ({ s with hub := { s.hub with ticks := 124 } } : State).shutNs < 1000 ∧
       1000 ≤ ({ s with hub := { s.hub with ticks := 125 } } : State).shutNs ∧ s.shutNs < 200000 ∧ s.start.warmReq = none) ∧
    (let s : State := { running with hub := { running.hub with ticks := 25000 } }
     200000 ≤ s.shutNs ∧ s.start.phase = .running ∧ s.dbt.shutFaults = [] ∧ s.canon ∧ ({ s with hub := { s.hub with ticks := 24999 } } : State).shutNs < 200000) ∧
    (let s : State := { devAt 150 with dbt := { resuming := true, selfRefresh := true } }
     s.dbt.resuming = true ∧ s.dbt.selfRefresh = true ∧ s.dbt.relAt + 1200 ≤ s.hub.elapsed ∧ s.dbt.shutFaults = [] ∧ (devAt 149).hub.elapsed < s.dbt.relAt + 1200 ∧
       running.dbt.resuming = false ∧ running.dbt.selfRefresh = false) := by
  refine ⟨?_, canon_of ?_, ?_, ?_, ?_, ⟨?_, ?_, ?_, canon_of ?_, ?_⟩, ?_⟩ <;> decide +kernel

theorem wit_deadbolt :
    (let s := devDbt [(DBT.BIST_CTL.ENABLE, 0, 1), (DBT.DEBUG.PEEP, 0, 1)]
     (dev []).dbt.mismatchAt = none ∧ s.dbt.mismatchAt = some 0 ∧ s.hub.ticks ≤ 0 + 125000000 ∧ 0 + 125000000 < (devAt 125000001).hub.ticks ∧
       ({ s with dbt := { restarting := true } } : State).dbt.restarting = true ∧ s.dbt.restarting = false ∧ kvGet 0 s.dbt.leaks = none ∧
       s.bistNow 1 = true ∧ s.bistNow 2 = false ∧ s.hub.get DBT.BIST_CTL.ENABLE ≠ 0 ∧ s.start.opened = true ∧ s.start.phase = .running ∧
       s.dbt.tests.find? (fun (t : BistTest) => t.ty = 1 ∧ t.inst = 2) = some ⟨1, 2, 3, 0, false, 0⟩ ∧ s.hub.get GLB.STATUS.FROZEN ≠ 1 ∧ s.dbt.march = chanId 0x20 0 :: [] ∧
       (dev []).dbt.march = [] ∧ (0x3C : Nat) ≠ 0xFF ∧ s.hub.get DBT.DEBUG.PEEP = 1) ∧
    ((devF [(GLB.STATUS.FROZEN, 0, 1)]).hub.get GLB.STATUS.FROZEN = 1 ∧ (dev []).hub.get DBT.DEBUG.PEEP = 0 ∧ (devF [(DBT.BIST_CTL.ENABLE, 0, 0)]).hub.get DBT.BIST_CTL.ENABLE = 0) ∧
    (let h := (devDbt []).hub.chanSet (.unit 1 0) DBT.CH.COUNT 2
     h.chan (chanId 1 0) = .unit 1 0 ∧ ChanReg.unit 1 0 ≠ .none ∧ ChanReg.unit 1 0 ≠ .page ∧ 1 < h.chanGet (.unit 1 0) DBT.CH.COUNT ∧
       kvGet (chanId 1 0) (devDbt []).dbt.leaks = some (0, 5) ∧ (devDbt []).hub.elapsed < 0 + 5 ∧ 0 + 5 ≤ ({ h with ticks := 1 } : Hub).elapsed) := by
  decide +kernel

theorem wit_starts :
    (State.reset.start.phase = .held ∧ running.start.phase ≠ .held ∧ GLB.START_CTL.WARM.of 0 = 0 ∧ GLB.START_CTL.WARM.of (GLB.START_CTL.WARM.into 0 1) = 1 ∧
      running.hub.bar = .live ∧ running.hub.pcieDown = false ∧ ({ running.hub with bar := .early } : Hub).bar = .early ∧ (63 : Nat) ≠ 0) ∧
    (running.hub.get GLB.STATUS.FROZEN = 0 ∧ running.start.phase = .running ∧ ({ running with start := { phase := .stopped } } : State).start.phase = .stopped ∧
      (let s : State := { devF [(GLB.STATUS.FROZEN, 0, 1)] with start := { phase := .running } }
       s.start.phase = .running ∧ s.hub.get GLB.STATUS.FROZEN = 1 ∧ s.start.warmReq = none)) ∧
    (let s : State := { dev [] with start := { phase := .cold 1, repeats := 2 } }
     s.stepping = true ∧ s.start.phase = .cold 1 ∧ s.start.repeats < 3 ∧ ({ s with dbt := { restarting := true } } : State).stepping = false ∧
       3 ≤ ({ s with start := { phase := .cold 1, repeats := 3 } } : State).start.repeats) ∧
    (let s : State := { dev [] with start := { phase := .warm 1 } }
     s.stepping = true ∧ s.start.phase = .warm 1 ∧ s.start.warmReq = none ∧ ({ s with start := { phase := .warm 1, warmReq := some ⟨true, 2, none⟩ } } : State).start.warmReq = some ⟨true, 2, none⟩) := by
  decide +kernel

/-! ### Ill-formed commands are refused, one for each check of `Instr.wf` -/

/-- Every service command. -/
def serviceRows : List (CmdEnv → List Byte → Instr) :=
  [.confCreate, .confDestroy, .legAdd, .legModify, .legRemove, .streamAdd, .streamDel, .subAdd, .subModify, .subDel, .legStats, .keyReq, .svcParam, .encConfig,
    .encRefresh, .encStats, .decOpen, .decClose, .decStats, .splPaneset, .splImport, .splRecvAdd, .splRecvSet, .splRecvDel, .splRefresh, .splStats] ++
  [.audSrcBind, .audSnkBind, .audNodeSet, .audDecOpen, .audEncOpen, .audClose, .audConf, .audLegProfile, .audRoom, .audStats, .dblTx, .dblSurvey, .dblGroup, .hngLoad,
    .hngStart, .hngHalt, .hngStats, .handover, .linkStats, .ptpPort, .ptpStats]

theorem test_wf_service : ∀ c ∈ serviceRows, (c ⟨1023, 2 ^ 32 - 1, 63, true⟩ [1]).wf = true ∧ (c ⟨1024, 0, 0, false⟩ []).wf = false ∧
    (c ⟨0, 2 ^ 32, 0, false⟩ []).wf = false ∧ (c ⟨0, 0, 64, false⟩ []).wf = false := by decide +kernel

theorem test_wf_service_body (b : List Byte) (h : b.length = 8193) : (Instr.confCreate pf b).wf = false := by
  simp only [Instr.wf, wfCmd, h]
  decide

/-- Every management command with its CMD. -/
def mgmtRows : List (Nat × (MgmtFrame → Instr)) :=
  [(1, .getNonce), (2, .read), (3, .provision), (0x10, .setPower), (0x11, .setPace), (0x12, .setPolicy), (0x13, .setBucket), (0x14, .setKeyMax), (0x15, fun f => .wrapKey f none),
    (0x16, .debug), (0x17, .setBist), (0x18, .bistRun), (0x19, .march), (0x1A, .retire), (0x1B, .shutterFreeze), (0x1B, .shutterRelease), (0x1C, .warm)]

theorem test_wf_management : (∀ c ∈ mgmtRows, (c.2 ⟨leBytes 2 c.1, true⟩).wf = true ∧ (c.2 ⟨leBytes 2 (c.1 + 1), true⟩).wf = false ∧ (c.2 ⟨leBytes 1 c.1, true⟩).wf = false) ∧
    (Instr.wrapKey ⟨leBytes 2 0x15, true⟩ (some (List.replicate 33 0))).wf = false ∧ (Instr.mgmtUnknownCommand ⟨leBytes 2 4, true⟩).wf = true ∧
    (Instr.mgmtUnknownCommand ⟨leBytes 2 0x1C, true⟩).wf = false ∧ (Instr.mgmtUnknownCommand ⟨[4], true⟩).wf = false := by decide +kernel

theorem test_wf_function : ∀ c ∈ [Instr.regWrite 64 0x14 4 0, .rcFieldRead 64 0 4, .pairLowRead 64 0 4, .nowFracRead 64, .cntStuckClear 64 0 0, .logSizeWrite 64 0, .startCtlWarm 64 0,
    .shadowWrite 64 0 4 0, .latchCommitNext 64 0 0, .latchCommitSched 64 (LCH.COMMIT.MODE.into 0 1) 0, .latchCommitDomain 64 (LCH.COMMIT.MODE.into 0 2),
    .fifoFlush 64 0 0x80000000, .fifoSizeChange 64 0 0, .keyWrite 64 (CIP.KW_CMD.OP.into 0 1), .keyErase 64 (CIP.KW_CMD.OP.into 0 2), .keyUnwrapDone 64 0 false none,
    .bar2Read 64 0 1, .bar2Write 64 0 [] false, .dbProd 64 0 0 [], .dbCons 64 0 0, .qpCfgWrite 64 0x2004000 0, .vfFlr 0, .vfFlr 64], c.wf = false := by decide +kernel

theorem test_wf_register : (∀ c ∈ [Instr.regWrite 0 0x4000000 4 0, .regWrite 0 0x3FFFFFE 4 0, .regWrite 0 0 0 0, .regWrite 0 0 9 0, .rcFieldRead 0 0 0, .pairLowRead 0 0x3FFFFFF 2, .cntStuckClear 0 0 0,
    .shadowWrite 0 0 4 0, .latchCommitNext 0 (LCH.COMMIT.MODE.into 0 1) 0, .latchCommitNext 0 0 240001, .latchCommitSched 0 0 0, .latchCommitDomain 0 0,
    .snapCmdNext (LCH.SNAP_CMD.MODE.into 0 1) 0, .snapCmdSched 0 0, .imgDone 240001, .fifoFlush 0 2048 0x80000000, .fifoFlush 0 0 0, .fifoSizeChange 0 2048 0, .keyWrite 0 0,
    .keyErase 0 0, .keyUnwrapDone 0 65536 false none, .qpCfgWrite 0 0x2004002 0, .qpCfgWrite 0 0x200C000 0, .dbProd 0 1024 0 [], .dbCons 0 0 (2 ^ 32), .commandTake 1024,
    .tevConfigWrite 4 0 0, .tevConfigWrite 0 0x14 0, .tevConfigWrite 0 2 0], c.wf = false) ∧ (Instr.regWrite 63 0x14 1 0).wf = true ∧ (Instr.regWrite 0 0x3FFFFF8 8 0).wf = true ∧ (Instr.rcFieldRead 0 3 2).wf = true ∧ (Instr.latchCommitNext 0 0 240000).wf = true := by
  decide +kernel

theorem test_wf_unit : (∀ c ∈ [Instr.islandDown (.lane 96), .islandReturn (.hbm 2), .spareTaken 1 24 0, .egressSchedule 32, .gateEntryChange 32, .gclTakeover 32, .headerRecordReceive 24 0 false [],
    .pictureDescriptorReceive 24 0 [], .stripeStart ⟨24, 0, 0, 0, 0, 0⟩, .blockCoded ⟨24, 0, 0, 0, 0, 0, false, 0⟩, .blockCoded ⟨0, 0, 0, 0, 0, 0, false, 3⟩, .blockCoded ⟨0, 0, 0, 0, 0, 8193, false, 0⟩, .inputDeadline 24 0 0 0,
    .codingDeadline 24 0 0 0 0 [], .releaseRowTime 24 0 0 0 0, .lateRowRelease 24 0 0 0 0, .cmpDescriptorReceive 8 0 [], .cmpFrameInstant 8 [], .cmpLineComplete 8 [], .cmpLineComplete 0 [⟨8, [], []⟩], .cmpLineComplete 0 [⟨0, [(4096, 0, 0)], []⟩],
    .paneChunkReceive 4 [] false, .templateRecordReceive 4 [] false, .spliceDeadline 4 0] ++
    [Instr.vinPacketReceive ⟨16, 0, 0, 0, 0, [], [], [], [], false⟩, .vinPacketReceive ⟨0, 0, 0, 0, 0, [⟨0, 0, 65536, false, []⟩], [], [], [], false⟩, .sdiLineReceive ⟨16, true, 0, 0, 0, 0, none, [], []⟩, .sdiLineReceive ⟨0, true, 0, 0, 0, 0, none, [1024], []⟩, .vinStripeStream 16 0 0, .vinPathTimeout 16 0 0 false,
    .vinSignalTimeout 16, .sdiTxFrame 96, .tsoRowReceive 8 0 0 0 0 0, .tsPacketSchedule 8, .psiTimer 8, .cmafChunkWrite ⟨8, 0, 0, [], [], [], [], [], []⟩, .dwellStart 64 0, .dwellEnd 64 0,
    .preambleAcquire 64 0 0, .syncWordSearchEnd 64 0 none, .headerDecoded 64 0, .payloadDecoded 64 0, .hngBundleExecute 64 0, .mailboxDelivery 64,
    .mailboxDrain 64, .dmaTransferDone 64 0, .dmaTransferDone 0 8] ++
    [Instr.hbmRefresh 2, .hbmTempReading 2 0, .caParityError 2 0 0 false false, .caParityError 0 64 0 false false, .laneLost 96, .fomLowTimer 96 0, .laneRetrain 96, .laneLoopbackWrite 96 0,
    .laneSleepWrite 96 0, .laneAdaptDone 96 true 256 false false, .linkAligned 16 false, .helloTimer 16, .helloFlit 16 (List.replicate 256 0), .helloFlit 0 [], .holdFlit 0 [], .holdTimeout 16,
    .tunnelReplayTimer 16, .tunnelSilenceTimeout 16, .idleFlit 0 [], .nakReceive 0 [], .linkFlit 0 [], .bistTestDone 17 0 true, .bistScheduleTimer 0, .lintelCoreFault 16],
    c.wf = false) ∧ (Instr.laneLost 95).wf = true ∧ (Instr.helloFlit 15 (List.replicate 256 0)).wf = true := by decide +kernel

theorem test_wf_range : ∀ c ∈ [Instr.paceWindowEnd [], .louvreBoundary [(32, 0)], .arbiterGrant 6 0 [], .arbiterGrant 0 0 [⟨0x405, 1⟩], .arbiterGrant 0 0 [⟨0, 0⟩], .sashBuildDone 1024, .sashWorkBoundary 1024,
    .armReceive 2048 0 0 0, .armExpiry 0 0 0 1000000000, .snapRequestReceive 0 (2 ^ 48) 0 0 false, .snapRecordReceive 2048 [], .snapMemberTimeout 2048, .consentRequestTimer 16384,
    .upstreamNackTimer 0 65536, .keyRequestTimer 65536 none, .switchWaitExpiry (2 ^ 20), .removalDrainDone 8 0, .decPacketReceive 0 0 ⟨65536, 0, 0, true, true, true, 0⟩, .decFrameLostTimer 1024 0,
    .decFrameDecode 0 0 ⟨65536, 0, .other, 0, 8, true, 0, true, 0, [], [], true, [], false, []⟩, .decFrameDecode 0 0 ⟨0, 0, .other, 4, 8, true, 0, true, 0, [], [], true, [], false, []⟩, .pictureRelease 65536 0, .gainStepTimeout 2048 none, .talkIntervalTimer 65536,
    .audPacketReceive ⟨65536, 0, [], [], false, false⟩, .audEncFrame 65536 0 [] 0, .cascadeFlit 2048 0 0 [] false, .dblFrameStart 16384, .edgeTtlExpiry 16384 0, .keyDrainEnd 65536,
    .heldKeyExpiry 65536] ++
    [Instr.cipherItem ⟨0, 4, false, 0, 0, 0, 0, 0, false, 0, true, true⟩, .pageDecodeDone (2 ^ 36 + 320 * 2 ^ 20) [], .scrubVisit (2 ^ 37) [], .mergeFlushTimeout 4, .bar2Read 0 (2 ^ 36) 1,
    .bar2Write 0 (2 ^ 36) [1] false, .pageRemapDone (2 ^ 32), .handoverSwitch 65536, .ptpFrameReceive ⟨32, 0, 0, 0, 0, 0, 0, 0, 0, 0, true, none, none⟩, .oneStepSync 0 0 0 65536 0 0 0 none, .oneStepSync 0 0 0 0 0 1000000000 0 none,
    .pinPulseEnd 5, .tevCaptureEdge 4, .pcieLinkUp 8 16 0 0, .pcieLinkUp 5 3 0 0, .bucketLeak (2 ^ 32), .peepTapShift 256, .ptpMessageTimer 0 16 0 0 0,
    .sequencedFlitReceive (rx [] false), .sequencedFlitReceive { rx (List.replicate 256 0) false with link := 16 }], c.wf = false := by decide +kernel

/-- A frame with IPv4 addresses of a length. -/
def frame4 (port n : Nat) : RxFrame :=
  ⟨port, true, false, List.replicate n 0, List.replicate 4 0, 0, 0, [], [], true, true, false, ⟨false, 0, 0, false, false, false, [], false⟩, [], 0, true, none⟩

theorem test_wf_frame : (Instr.frameClassify (frame4 31 4)).wf = true ∧ (Instr.frameClassify (frame4 32 4)).wf = false ∧ (Instr.frameClassify (frame4 0 6)).wf = false ∧
    (Instr.frameClassify { frame4 0 4 with sport := 65536 }).wf = false := by decide +kernel

theorem test_wf_bytes (b : List Byte) (h : b.length = 2 ^ 20 + 1) : (Instr.paneChunkReceive 0 b false).wf = false := by
  simp only [Instr.wf, wfBytes, h]
  decide

/-! ### Results that the spec's tables and examples give -/

/-- R378, R379: a nonce of another value is refused with NONCE (1). -/
theorem test_nonce_refused : ∃ t, exec (.setPower (mgA 0x10 [] true)) { devMg with dbt := { mgmtKey := 1, nonce := some 8 } } = .next t ∧ t.hub.out = [.mgmt 0x10 1 []] ∧
    t.dbt.nonce = none := ⟨_, rfl, by decide +kernel, by decide +kernel⟩

/-- Table 4.5: the pair of R58's period and the time within it. -/
theorem test_period : (⟨1, 125000, 0⟩ : Time).period = 8001 ∧ (⟨0, 124999, 0⟩ : Time).period = 0 := by decide +kernel

/-- Table 6.2: destroying a conference that is not there is NOT_FOUND (3). -/
theorem test_destroy_missing : ∃ t, exec (.confDestroy pf []) (dev []) = .next t ∧ t = (dev []).done pf 0x0102 3 [] := ⟨_, rfl, by decide +kernel⟩

/-- R276: JMP goes to its target and costs 3 hc: 1, and 2 for the branch taken. -/
theorem test_jump : (((devHng 1 (0x0A * 2 ^ 27 + 5) 0 {} []).hng.core 0).bundle (0x0A * 2 ^ 27 + 5) {} 0 0 0).2 = .goto 5 := by decide +kernel

/-- Table 14.4: ADD with SAT holds the largest 32-bit number and sets OVF. -/
theorem test_add_saturates : (hngCompute (({} : HngRegs).setD 1 0x7FFFFFFF) (1 * 2 ^ 26 + 2 ^ 25 + 2 * 2 ^ 20 + 1 * 2 ^ 15 + 1 * 2 ^ 10)).map (·.ds) = some [(2, 0x7FFFFFFF)] := by
  decide +kernel

end Sys2Proof.Tests
end

section
/-! SUPPORT. Reads of one register: what a read returns, which high halves it captures and releases (R90), and where a register with SH fields reads its
shadow and its value in force (R79, R80). -/

namespace Sys2Proof.Machine

/-! ### What a read of one register does -/

@[simp] theorem State.peakRead_hub (s : State) : s.peakRead.hub = s.hub := by
  unfold State.peakRead
  split <;> rfl

/-- The registers whose reads have effects beside those on captured halves. -/
def sideRead (off : Nat) : Prop := off = 0x100030 ∨ off = 0x1B00040 ∨ (0x1B00100 ≤ off ∧ off < 0x1B00180 ∧ off % 32 = 0x14)

/-- The state in which a read of the low register `off` reads the high one: without an earlier capture of it, save that `NOW_SEC_LO` keeps what
`NOW_FRAC` captured (R311). -/
def State.captureSource (s : State) (fn off hi : Nat) : State :=
  if off = 0x1B00018 then s else { s with hub := { s.hub with captured := kvDel (winKey fn hi) s.hub.captured } }

/-- The captured halves after a live read of `off` by function `fn` (R90): the one kept for `off` is used up, and a pair's low register captures its
high one. -/
def State.capturedAfter (s : State) (fn off : Nat) : List (Nat × Word) :=
  match pairHigh off with
  | some hi => kvPut (winKey fn hi) ((s.captureSource fn off hi).busValue fn hi) (kvDel (winKey fn off) s.hub.captured)
  | none => kvDel (winKey fn off) s.hub.captured

/-- Of the hub, a read touches the captured halves alone. -/
theorem State.readEffects_hub (s : State) (fn off : Nat) :
    (s.readEffects fn off).hub = { s.hub with captured := s.capturedAfter fn off } := by
  unfold State.readEffects State.capturedAfter State.captureSource
  cases pairHigh off <;> simp only [apply_ite State.hub, State.peakRead_hub, ite_self]

/-- A read of a register without effects of its own touches the captured halves alone. -/
theorem State.readEffects_of_not_sideRead (s : State) (fn off : Nat) (h : ¬ sideRead off) :
    s.readEffects fn off = { s with hub := { s.hub with captured := s.capturedAfter fn off } } := by
  obtain ⟨hpeak, hpps, htev⟩ : off ≠ 0x100030 ∧ off ≠ 0x1B00040 ∧ ¬(0x1B00100 ≤ off ∧ off < 0x1B00180 ∧ off % 32 = 0x14) := by
    simpa only [sideRead, not_or] using h
  unfold State.readEffects State.capturedAfter State.captureSource
  cases pairHigh off <;> simp only [if_neg hpeak, if_neg hpps, if_neg htev]

/-- A read sends what the bus value holds, and nothing else. -/
theorem State.pieceRead_out (s : State) (fn o b n : Nat) :
    (s.pieceRead fn o b n).hub.out = s.hub.out ++ [.regRead fn (o + b) (wordBytes (s.busValue fn o) b n)] := by
  unfold State.pieceRead Hub.emit
  dsimp only
  split
  · rfl
  · split
    · rw [State.readEffects_hub]
    · rfl

/-- A live read of a register that the function's window shows has the register's read effects. -/
theorem State.pieceRead_shown (s : State) (fn o b n : Nat) (hlive : s.hub.bar = .live) (hfrac : o ≠ 0x1B00010)
    (hthere : s.hub.absentBlock o = false) (hshow : s.hub.windowShows fn o = true) :
    s.pieceRead fn o b n = { s.readEffects fn o with
      hub := (s.readEffects fn o).hub.emit (.regRead fn (o + b) (wordBytes (s.busValue fn o) b n)) } := by
  unfold State.pieceRead
  simp only [hlive, hfrac, hthere, hshow, and_false, if_false, Bool.not_false, and_self, if_true]

/-- The two rows that carry plain reads read the bus. -/
theorem exec_rcFieldRead_word {s : State} (fn : Nat) {off : Nat} (hin : s.hub.hostIn = true) (h4 : off % 4 = 0) :
    exec (.rcFieldRead fn off 4) s = .next (s.pieceRead fn off 0 4) :=
  congrArg Host.Outcome.next (s.busRead_word fn off h4 (Hub.hostIn_live hin).2)

theorem exec_pairLowRead_word {s : State} (fn : Nat) {off : Nat} (hin : s.hub.hostIn = true) (h4 : off % 4 = 0) :
    exec (.pairLowRead fn off 4) s = .next (s.pieceRead fn off 0 4) :=
  congrArg Host.Outcome.next (s.busRead_word fn off h4 (Hub.hostIn_live hin).2)

/-- The word that a read of a whole register sends. -/
theorem State.pieceRead_word_out (s : State) (fn off : Nat) : (s.pieceRead fn off 0 4).hub.out = s.hub.out ++ [.regRead fn off (s.busValue fn off)] := by
  rw [State.pieceRead_out, wordBytes_all, Nat.add_zero]

/-- What a live read of a listed register returns: the captured half, if one is kept, else the register's value. -/
theorem State.busValue_listed {s : State} {fn off : Nat} {r : RegRow} (hlive : s.hub.bar = .live) (hoff : off < 0x3000000)
    (hthere : s.hub.absentBlock off = false) (hshow : s.hub.windowShows fn off = true) (hr : regRow off = some r) :
    s.busValue fn off = (kvGet (winKey fn off) s.hub.captured).getD (s.regValue fn off r) := by
  have himage : ¬(0x3000000 ≤ off ∧ off < 0x4000000) := by omega
  simp [State.busValue, hlive, himage, hthere, hshow, hr]

/-! ### Pairs (R90) -/

/-- The high register stands beside the low one. -/
theorem pairHigh_beside {off hi : Nat} (h : pairHigh off = some hi) : hi = off + 4 ∨ (hi = off - 4 ∧ off ∈ [0x30000C, 0x300014, 0x20000C]) := by
  unfold pairHigh at h
  dsimp only at h
  split at h
  next hbefore => exact .inr ⟨(Option.some.inj h).symm, List.contains_iff_mem.mp hbefore⟩
  next =>
    split at h
    · exact .inl (Option.some.inj h).symm
    · cases h

/-- A register that begins no pair is not a pair's low register. -/
theorem ne_of_pairHigh_none {off hi o : Nat} (h : pairHigh off = some hi) (ho : pairHigh o = none) : off ≠ o := by
  rintro rfl
  simp [h] at ho

theorem pairHigh_ne {off hi : Nat} (h : pairHigh off = some hi) : hi ≠ off := by
  rcases pairHigh_beside h with rfl | ⟨rfl, hmem⟩
  · omega
  · simp only [List.mem_cons, List.not_mem_nil, or_false] at hmem
    omega

/-- The high register of an aligned pair below the state image is aligned, and lies below the state image. -/
theorem pairHigh_aligned {off hi : Nat} (h : pairHigh off = some hi) (h4 : off % 4 = 0) (hoff : off < 0x3000000) : hi % 4 = 0 ∧ hi < 0x3000000 := by
  have hlast : off ≠ 0x2FFFFFC := ne_of_pairHigh_none h (by decide)
  rcases pairHigh_beside h with rfl | ⟨rfl, hmem⟩
  · omega
  · simp only [List.mem_cons, List.not_mem_nil, or_false] at hmem
    omega

/-- `NOW_FRAC` is no half of a pair. -/
theorem pairHigh_nowFrac {off hi : Nat} (h : pairHigh off = some hi) : off ≠ 0x1B00010 ∧ hi ≠ 0x1B00010 := by
  have hbelow : off ≠ 0x1B0000C := ne_of_pairHigh_none h (by decide)
  refine ⟨ne_of_pairHigh_none h (by decide), ?_⟩
  rcases pairHigh_beside h with rfl | ⟨rfl, hmem⟩
  · omega
  · simp only [List.mem_cons, List.not_mem_nil, or_false] at hmem
    omega

/-- No low register of a pair has read effects of its own. -/
theorem pairHigh_not_sideRead {off hi : Nat} (h : pairHigh off = some hi) : ¬ sideRead off := by
  intro hside
  have hcases : off ∈ [0x100030, 0x1B00040, 0x1B00114, 0x1B00134, 0x1B00154, 0x1B00174] := by
    unfold sideRead at hside
    simp only [List.mem_cons, List.not_mem_nil, or_false]
    omega
  have hnone : ∀ o ∈ [0x100030, 0x1B00040, 0x1B00114, 0x1B00134, 0x1B00154, 0x1B00174], pairHigh o = none := by decide
  exact ne_of_pairHigh_none h (hnone off hcases) rfl

theorem winKey_ne {fn a b : Nat} (h : a ≠ b) : winKey fn a ≠ winKey fn b := by
  unfold winKey
  omega

/-- A read uses up the half captured for the register read. -/
theorem State.capturedAfter_self (s : State) (fn off : Nat) (hs : kvSorted s.hub.captured = true) :
    kvGet (winKey fn off) (s.capturedAfter fn off) = none := by
  have hdel := kvGet_kvDel_self (winKey fn off) _ hs
  unfold State.capturedAfter
  cases hp : pairHigh off with
  | none => exact hdel
  | some hi => exact (kvGet_kvPut_ne _ _ _ _ (winKey_ne (pairHigh_ne hp).symm)).trans hdel

/-- A read of a pair's low register captures the high one. -/
theorem State.capturedAfter_high (s : State) (fn : Nat) {off hi : Nat} (hp : pairHigh off = some hi) :
    kvGet (winKey fn hi) (s.capturedAfter fn off) = some ((s.captureSource fn off hi).busValue fn hi) := by
  simp only [State.capturedAfter, hp, kvGet_kvPut_self]

/-- A live read of a pair's low register sends its value, and keeps everything else but the captured halves. -/
theorem State.pieceRead_pair {s : State} {fn off hi : Nat} (hlive : s.hub.bar = .live) (hp : pairHigh off = some hi)
    (hthere : s.hub.absentBlock off = false) (hshow : s.hub.windowShows fn off = true) :
    s.pieceRead fn off 0 4 = { s with
      hub := { s.hub with captured := s.capturedAfter fn off, out := s.hub.out ++ [.regRead fn off (s.busValue fn off)] } } := by
  rw [State.pieceRead_shown s fn off 0 4 hlive (pairHigh_nowFrac hp).1 hthere hshow,
    State.readEffects_of_not_sideRead s fn off (pairHigh_not_sideRead hp), wordBytes_all]
  rfl

/-! ### Registers with SH fields (R79, R80) -/

/-- Has the table line an SH field? -/
def RegRow.hasShadow (r : RegRow) : Bool := r.fields.any fun f => f.acc == .sh

/-- Offsets, from the first to the last, whose registers read what other state holds: the read-back of the resource selected, the size of a snapshot's
record, the key slot selected, the time, and the channels, of which absent ones read ABSENT. -/
def computedReads : List (Nat × Nat) :=
  [(0x100024, 0x100034), (0x200078, 0x200078), (0x1A00008, 0x1A00028), (0x1B00010, 0x1B0001F), (0x2801200, 0x2802FFF)]

/-- A listed register lies in the span of its table line. -/
theorem RegRow.span_of_holds {r : RegRow} {off : Nat} (h : r.holds off = true) (hs : 0 < r.s1) : r.base ≤ off ∧ off < r.base + r.n1 * r.s1 := by
  simp only [RegRow.holds, decide_eq_true_eq] at h
  obtain ⟨hbase, hindex, -, -⟩ := h
  have := (Nat.div_lt_iff_lt_mul hs).mp hindex
  omega

theorem regRow_mem {off : Nat} {r : RegRow} (h : regRow off = some r) : r ∈ regTable ∧ r.holds off = true :=
  ⟨List.mem_of_find?_eq_some h, List.find?_some (p := fun x : RegRow => x.holds off) h⟩

/-- An access code that no field of a register has selects none of its bits. -/
theorem accMask_eq_zero {a : Access} {off : Nat} {r : RegRow} (hr : regRow off = some r) (h : ∀ f ∈ r.fields, f.acc ≠ a) : accMask a off = 0#32 := by
  unfold accMask
  rw [hr]
  exact List.foldlRecOn (motive := (· = 0#32)) r.fields _ rfl fun _ hm f hf => by rw [if_neg (h f hf), hm]

/-- A register with an SH bit is listed, by a line with an SH field. -/
theorem regRow_of_shadow_bit {off i : Nat} (h : (accMask .sh off).getLsbD i = true) : ∃ r, regRow off = some r ∧ r.hasShadow = true := by
  cases hr : regRow off with
  | none => simp [accMask, hr] at h
  | some r =>
    cases hsh : r.hasShadow with
    | true => exact ⟨r, rfl, hsh⟩
    | false =>
      have hall : ∀ f ∈ r.fields, f.acc ≠ .sh := by simpa [RegRow.hasShadow] using hsh
      simp [accMask_eq_zero hr hall] at h

/-- No line of the register table has both SH and write-only fields, and none with SH fields meets `computedReads`. -/
theorem regTable_shadow : ∀ r ∈ regTable, r.hasShadow = true → 0 < r.s1 ∧ (∀ f ∈ r.fields, f.acc ≠ .wo) ∧
    ∀ w ∈ computedReads, r.base + r.n1 * r.s1 ≤ w.1 ∨ w.2 < r.base := by
  decide +kernel

theorem accMask_wo_of_shadow {off : Nat} {r : RegRow} (hr : regRow off = some r) (hsh : r.hasShadow = true) : accMask .wo off = 0#32 :=
  accMask_eq_zero hr (regTable_shadow r (regRow_mem hr).1 hsh).2.1

/-- A register with an SH field lies outside the offsets whose reads are computed. -/
theorem computedReads_of_shadow {off : Nat} {r : RegRow} (hr : regRow off = some r) (hsh : r.hasShadow = true) :
    ∀ w ∈ computedReads, ¬(w.1 ≤ off ∧ off ≤ w.2) := by
  obtain ⟨hmem, hholds⟩ := regRow_mem hr
  obtain ⟨hs1, -, hout⟩ := regTable_shadow r hmem hsh
  have hspan := RegRow.span_of_holds hholds hs1
  intro w hw
  have := hout w hw
  omega

/-- A register with an SH field never reads as last published. -/
theorem readsPublished_of_shadow {r : RegRow} (off : Nat) (hsh : r.hasShadow = true) : readsPublished r off = false := by
  obtain ⟨f, hf, hacc⟩ := List.any_eq_true.mp hsh
  have hall : (r.fields.all fun f => f.acc == .ro || (f.acc == .db && dbStatistic off)) = false :=
    List.all_eq_false.mpr ⟨f, hf, by simp [eq_of_beq hacc]⟩
  unfold readsPublished
  rw [hall, Bool.and_false]

/-- An Ethernet port's registers have one copy for all functions. -/
theorem State.keyFor_of_unbuiltPort {s : State} {off : Nat} (h : s.unbuiltPort off = true) (fn : Nat) : keyFor fn off = off := by
  simp only [State.unbuiltPort, Bool.and_eq_true, decide_eq_true_eq] at h
  obtain ⟨⟨hlo, hhi⟩, -⟩ := h
  have hcopy : ownCopy off = false := by
    simp only [ownCopy, Bool.or_eq_false_iff, beq_eq_false_iff_ne, decide_eq_false_iff_not]
    omega
  simp [keyFor, hcopy]

/-- A register with SH fields, of what is built: the value in force in an INFORCE view, else the shadow in the SH fields and the value in force in the
others. -/
theorem State.regValue_built {s : State} {off : Nat} {r : RegRow} (fn : Nat) (hr : regRow off = some r) (hsh : r.hasShadow = true)
    (hbuilt : s.unbuiltPort off = false) :
    s.regValue fn off r = if LCH.VIEW.INFORCE.of (s.hub.rd (winKey fn 0x200040)) = 1 then s.hub.rd (keyFor fn off)
      else (s.hub.rd (keyFor fn off) &&& ~~~ accMask .sh off) ||| (s.hub.rdShadow off &&& accMask .sh off) := by
  have hout := computedReads_of_shadow hr hsh
  simp only [computedReads, List.forall_mem_cons, List.not_mem_nil, false_imp_iff, implies_true, and_true] at hout
  obtain ⟨hres, hsnap, hslot, htime, hchan⟩ := hout
  have hshown : s.hub.shown off (s.hub.rd (keyFor fn off)) = s.hub.rd (keyFor fn off) := by
    have : s.hub.absentChannel off = false := decide_eq_false (by omega)
    simp [Hub.shown, this]
  unfold State.regValue
  simp only [if_neg hslot, if_neg hres, if_neg (show off ≠ 0x200078 by omega),
    if_neg (show ¬(0x1B00010 ≤ off ∧ off < 0x1B00020) by omega), hbuilt, readsPublished_of_shadow off hsh, hshown,
    Bool.false_eq_true, if_false]
  rw [accMask_wo_of_shadow hr hsh, BitVec.not_zero, BitVec.and_allOnes]

/-- The registers of an Ethernet port that is not built read their SH fields alone. -/
theorem State.regValue_unbuilt {s : State} {off : Nat} (fn : Nat) (r : RegRow) (hport : s.unbuiltPort off = true) :
    s.regValue fn off r = (if LCH.VIEW.INFORCE.of (s.hub.rd (winKey fn 0x200040)) = 1 then s.hub.rd off else s.hub.rdShadow off) &&& accMask .sh off := by
  have hrange : 0x801000 ≤ off ∧ off < 0x803000 := by
    simp only [State.unbuiltPort, Bool.and_eq_true, decide_eq_true_eq] at hport
    exact hport.1
  unfold State.regValue
  simp only [if_neg (show ¬(0x1A00008 ≤ off ∧ off ≤ 0x1A00028) by omega), if_neg (show ¬(0x100024 ≤ off ∧ off ≤ 0x100034) by omega),
    if_neg (show off ≠ 0x200078 by omega), if_neg (show ¬(0x1B00010 ≤ off ∧ off < 0x1B00020) by omega), hport, if_true]

/-- An SH bit reads the value in force in an INFORCE view, and else the shadow, of a built port or not. -/
theorem State.regValue_shadow_bit {s : State} {off i : Nat} {r : RegRow} (fn : Nat) (hr : regRow off = some r) (hsh : r.hasShadow = true) (hi : i < 32)
    (hbit : (accMask .sh off).getLsbD i = true) :
    (s.regValue fn off r).getLsbD i = if LCH.VIEW.INFORCE.of (s.hub.rd (winKey fn 0x200040)) = 1 then (s.hub.rd (keyFor fn off)).getLsbD i
      else (s.hub.rdShadow off).getLsbD i := by
  cases hport : s.unbuiltPort off with
  | true =>
    rw [State.regValue_unbuilt fn r hport, State.keyFor_of_unbuiltPort hport]
    split <;> simp [hbit]
  | false =>
    rw [State.regValue_built fn hr hsh hport]
    split <;> simp [-BitVec.getLsbD_eq_getElem, hbit, hi]

end Sys2Proof.Machine
end

section
/-! SETTLED. What reads of SH fields and of pairs return (chapter 5). -/

namespace Sys2Proof.Machine

/-- Settles O10: the word a read returns is the register's value, whose SH bits follow the view of the reading function. -/
theorem shadowFieldRead : Obligations.ShadowFieldRead := by
  intro fn off i s hin h4 hoff hthere hshow hfree hi hbit
  obtain ⟨r, hr, hsh⟩ := regRow_of_shadow_bit hbit
  have hval : s.busValue fn off = s.regValue fn off r := by
    rw [State.busValue_listed (Hub.hostIn_live hin).1 hoff hthere hshow hr, hfree, Option.getD_none]
  refine ⟨_, _, exec_rcFieldRead_word fn hin h4, s.pieceRead_word_out fn off, ?_⟩
  rw [hval, State.regValue_shadow_bit fn hr hsh hi hbit]

/-- Settles O11: the low register's read leaves the high half captured, and the high register's read takes it. -/
theorem pairReads : Obligations.PairReads := by
  intro fn off hi s hin h4 hoff hp hthere hshow hthereHi hshowHi hsorted
  have hlive := (Hub.hostIn_live hin).1
  obtain ⟨hi4, hhi⟩ := pairHigh_aligned hp h4 hoff
  have hlow := exec_pairLowRead_word fn hin h4
  rw [State.pieceRead_pair hlive hp hthere hshow] at hlow
  have hhigh := exec_rcFieldRead_word fn hin hi4
  have hout := s.pieceRead_word_out fn hi
  have hcap := s.capturedAfter_high fn hp
  refine ⟨fun hne => ⟨_, hlow, rfl, ?_, rfl⟩, fun heq => ⟨_, hlow, rfl, ?_⟩, fun v r hv hr => ⟨_, hhigh, ?_, ?_⟩, fun r hv hr => ⟨_, hhigh, ?_⟩⟩
  · rintro u rfl
    rwa [State.captureSource, if_neg hne] at hcap
  · rwa [State.captureSource, if_pos heq] at hcap
  · rw [hout, State.busValue_listed hlive hhi hthereHi hshowHi hr, hv, Option.getD_some]
  · rw [State.pieceRead_shown s fn hi 0 4 hlive (pairHigh_nowFrac hp).2 hthereHi hshowHi, State.readEffects_hub]
    exact s.capturedAfter_self fn hi hsorted
  · rw [hout, State.busValue_listed hlive hhi hthereHi hshowHi hr, hv, Option.getD_none]

end Sys2Proof.Machine
end

section
/-! SUPPORT. Items dropped before the lane: what a drop counts and raises, and which items are dropped for misuse (R301). -/

namespace Sys2Proof.Machine

/-- An item whose output is not released leaves nothing behind but what the lane did with it. -/
theorem exec_cipherItem_unreleased {it : CipItem} {s t : State} (hlive : s.hub.get GLB.STATUS.FROZEN ≠ 1) (h : s.cipher it = (t, false)) :
    exec (.cipherItem it) s = .next t := by
  have harm : exec (.cipherItem it) s = execCipherItem it s := rfl
  rw [harm, execCipherItem, h]
  simp [hlive]

/-- A drop that raises an event `code` counts in its counter, unless that stands at its end (R95). -/
theorem State.cipDrop_rd_counter {s : State} (c : s.canon) (f : Fld) (n code : Nat) (hlow : s.hub.rd (f.off 0 0) ≠ BitVec.allOnes 32)
    (hstuck : f.off 0 0 ≠ evtOff 0x100B 0) (hevt : f.off 0 0 ≠ evtOff code 0) (hlog : offLog (f.off 0 0)) :
    (s.cipDrop f n (some code)).hub.rd (f.off 0 0) = s.hub.rd (f.off 0 0) + 1 := by
  have hcanon : (s.hub.err f 0 0x100B 0).canon := Hub.err_canon _ _ _ _ _ (State.canon_hub c)
  calc (s.cipDrop f n (some code)).hub.rd (f.off 0 0)
      = (s.hub.err f 0 0x100B 0).rd (f.off 0 0) := Hub.raiseRl_rd hcanon _ _ hevt
    _ = s.hub.rd (f.off 0 0) + 1 := Hub.err_rd_self (State.canon_hub c) f 0 _ _ hlow hstuck hlog

/-- A sound item of a slot that holds a key, of another mode or direction than the slot's, is dropped as misuse (R301). -/
theorem State.cipher_misused {s : State} {it : CipItem} (hpoison : it.poison = false) (hempty : (s.cip.slot it.slot).state ≠ 0)
    (hinvalid : (s.cip.slot it.slot).state ≠ 3)
    (hmisuse : modeFits it.kind (s.cip.slot it.slot).mode = false ∨ (s.cip.slot it.slot).dec ≠ it.dec) :
    s.cipher it = (s.cipDrop CIP.MISUSE_DROP.COUNT it.slot (some 0x100C), false) := by
  have hdrop : (!modeFits it.kind (s.cip.slot it.slot).mode) = true ∨ (s.cip.slot it.slot).dec ≠ it.dec := by
    rwa [Bool.not_eq_true']
  have hsound : ¬(it.poison = true ∧ (s.cip.slot it.slot).state ≠ 3) := by simp [hpoison]
  unfold State.cipher
  dsimp only
  rw [if_neg hsound, if_neg hempty, if_neg hinvalid, if_pos hdrop]

end Sys2Proof.Machine
end

section
/-! SETTLED. Items that their slot is not made for (chapter 15). -/

namespace Sys2Proof.Machine

/-- Settles O33: the step is the drop that counts in MISUSE_DROP and raises `CIP_MISUSE`; neither the event nor the counter's own end writes the
counter's register. -/
theorem misuseDropped : Obligations.MisuseDropped := by
  intro it s hlive hpoison hempty hinvalid hmisuse
  have hcipher := State.cipher_misused hpoison hempty hinvalid hmisuse
  refine ⟨_, exec_cipherItem_unreleased hlive hcipher, rfl, fun hcanon hlow => ?_, rfl⟩
  exact State.cipDrop_rd_counter hcanon _ _ _ hlow (by decide) (by decide) (by decide)

end Sys2Proof.Machine
end

section
/-! SUPPORT. The time increment: where a named increment is put, and what the two registers read after it (R309). -/

namespace Sys2Proof.Machine

theorem exec_incrWrite (val : Word) {s : State} (hin : s.hub.hostIn = true) : exec (.incrWrite val) s = .next (s.incrWrite val) := by
  have harm : exec (.incrWrite val) s = execIncrWrite val s := rfl
  rw [harm, execIncrWrite, if_pos hin]

theorem State.incrWrite_incr (s : State) (val : Word) : (s.incrWrite val).tim.incr = clampIncr (s.hub.incrNamed val) :=
  s.incrSet_incr _

theorem State.incrSet_frame (s : State) (v : Nat) :
    s.incrSet v = { s with hub := { s.hub with regs := (s.incrSet v).hub.regs },
                           tim := { s.tim with incr := (s.incrSet v).tim.incr, servoAt := s.hub.time.total } } := rfl

theorem State.incrSet_rd_low {s : State} (c : s.canon) (v : Nat) : (s.incrSet v).hub.rd 0x1B00020 = BitVec.ofNat 32 v := by
  have hhub := State.canon_hub c
  rw [State.incrSet_hub, Hub.rd_wr_ne (Hub.wr_canon _ _ _ hhub) _ _ _ (by decide), Hub.rd_wr_self hhub]

theorem State.incrSet_rd_high {s : State} (c : s.canon) (v : Nat) : (s.incrSet v).hub.rd 0x1B00024 = BitVec.ofNat 32 (v / 2 ^ 32) := by
  rw [State.incrSet_hub, Hub.rd_wr_self (Hub.wr_canon _ _ _ (State.canon_hub c))]

theorem State.incrSet_rd_other {s : State} (c : s.canon) (v : Nat) {k : Nat} (hlow : k ≠ 0x1B00020) (hhigh : k ≠ 0x1B00024) :
    (s.incrSet v).hub.rd k = s.hub.rd k := by
  have hhub := State.canon_hub c
  rw [State.incrSet_hub, Hub.rd_wr_ne (Hub.wr_canon _ _ _ hhub) _ _ _ hhigh, Hub.rd_wr_ne hhub _ _ _ hlow]

/-- The two registers hold an increment in full where it has no bit above them. -/
theorem State.incrSet_readback {s : State} (c : s.canon) {v : Nat} (hfits : v < 2 ^ 64) :
    ((s.incrSet v).hub.rd 0x1B00020).toNat + ((s.incrSet v).hub.rd 0x1B00024).toNat * 2 ^ 32 = v := by
  rw [State.incrSet_rd_low c, State.incrSet_rd_high c, BitVec.toNat_ofNat, BitVec.toNat_ofNat,
    Nat.mod_eq_of_lt (a := v / 2 ^ 32) (Nat.div_lt_of_lt_mul hfits), Nat.mul_comm]
  exact Nat.mod_add_div v (2 ^ 32)

theorem incrMin_le_incrMax : incrMin ≤ incrMax := by decide

theorem clampIncr_below {v : Nat} (h : v < incrMin) : clampIncr v = incrMin := by
  rw [clampIncr_eq, Nat.max_eq_right (Nat.le_of_lt h), Nat.min_eq_left incrMin_le_incrMax]

theorem clampIncr_above {v : Nat} (h : incrMax < v) : clampIncr v = incrMax := by
  have habove : incrMax ≤ v := Nat.le_of_lt h
  rw [clampIncr_eq, Nat.max_eq_left (Nat.le_trans incrMin_le_incrMax habove), Nat.min_eq_right habove]

theorem clampIncr_within {v : Nat} (hmin : incrMin ≤ v) (hmax : v ≤ incrMax) : clampIncr v = v := by
  rw [clampIncr_eq, Nat.max_eq_left hmin, Nat.min_eq_left hmax]

/-- The lower limit is no slower than 7.988 ns in a tick. -/
theorem incrMin_rate : 7988 * 2 ^ 40 ≤ 1000 * incrMin := by decide

/-- The upper limit is no faster than 8.012 ns in a tick. -/
theorem incrMax_rate : 1000 * incrMax ≤ 8012 * 2 ^ 40 := by decide

theorem incrMax_fits : incrMax < 2 ^ 64 := by decide

end Sys2Proof.Machine
end

section
/-! SETTLED. The increment in force after a write of `TIM.INCR_HI` (chapter 16). -/

namespace Sys2Proof.Machine

/-- Settles O14: the write sets the clamped increment, so that the limits bound the rate and both registers have room for it. -/
theorem incrementWriteInForce : Obligations.IncrementWriteInForce := by
  refine ⟨by decide, fun val s hcanon hin => ⟨s.incrWrite val, exec_incrWrite val hin, ?_⟩⟩
  obtain ⟨hmin, hmax⟩ := clampIncr_range (s.hub.incrNamed val)
  rw [State.incrWrite_incr]
  refine ⟨clampIncr_below, clampIncr_above, clampIncr_within, ?slow, ?fast, ?readback, ?others, ?frame⟩
  case slow => exact Nat.le_trans incrMin_rate (Nat.mul_le_mul_left 1000 hmin)
  case fast => exact Nat.le_trans (Nat.mul_le_mul_left 1000 hmax) incrMax_rate
  case readback => exact State.incrSet_readback hcanon (Nat.lt_of_le_of_lt hmax incrMax_fits)
  case others => exact fun k hlow hhigh => State.incrSet_rd_other hcanon _ hlow hhigh
  case frame => exact s.incrSet_frame _

end Sys2Proof.Machine
end

section
/-! SUPPORT. What every command keeps: the waiting commands, the flash, a management key, the range of the increment, and the canonical form of registers
and memories. Each arm of `exec` cites the two lemmas of its own meaning. -/

namespace Sys2Proof.Machine

/-- The outcome goes on to a state that keeps of `s` what every command keeps. -/
def KeepsOf (s : State) (o : Host.Outcome State Fault Refusal) : Prop :=
  ∃ t, o = .next t ∧ s.Soft t ∧ (s.canon → t.canon)

theorem keeps_of_soft {s : State} {o : Host.Outcome State Fault Refusal} (hsoft : ∃ t, o = .next t ∧ s.Soft t)
    (hcanon : s.canon → ∃ t, o = .next t ∧ t.canon) : KeepsOf s o := by
  obtain ⟨t, rfl, ht⟩ := hsoft
  refine ⟨t, rfl, ht, fun c => ?_⟩
  obtain ⟨u, hu, hcu⟩ := hcanon c
  cases hu
  exact hcu

theorem keeps_of_kept {s : State} {o : Host.Outcome State Fault Refusal} (hkept : ∃ t, o = .next t ∧ t.kept = s.kept)
    (hcanon : s.canon → ∃ t, o = .next t ∧ t.canon) : KeepsOf s o := by
  obtain ⟨t, ht, hk⟩ := hkept
  exact keeps_of_soft ⟨t, ht, soft_of_kept hk⟩ hcanon

/-- Every command goes on, and keeps what every command keeps. -/
theorem exec_keeps (c : Instr) (s : State) : KeepsOf s (exec c s) := by
  cases c with
  | regWrite => exact keeps_of_soft (execRegWrite_soft ..) fun c => execRegWrite_canon (h0 := c) ..
  | shadowWrite => exact keeps_of_kept (execShadowWrite_kept ..) fun c => execShadowWrite_canon (h0 := c) ..
  | rcFieldRead => exact keeps_of_kept (execRcFieldRead_kept ..) fun c => execRcFieldRead_canon (h0 := c) ..
  | pairLowRead => exact keeps_of_kept (execPairLowRead_kept ..) fun c => execPairLowRead_canon (h0 := c) ..
  | nowFracRead => exact keeps_of_kept (execNowFracRead_kept ..) fun c => execNowFracRead_canon (h0 := c) ..
  | cntStuckClear => exact keeps_of_kept (execCntStuckClear_kept ..) fun c => execCntStuckClear_canon (h0 := c) ..
  | logSizeWrite => exact keeps_of_kept (execLogSizeWrite_kept ..) fun c => execLogSizeWrite_canon (h0 := c) ..
  | islandDown => exact keeps_of_kept (execIslandDown_kept ..) fun c => execIslandDown_canon (h0 := c) ..
  | islandReturn => exact keeps_of_kept (execIslandReturn_kept ..) fun c => execIslandReturn_canon (h0 := c) ..
  | paceWindowEnd => exact keeps_of_kept (execPaceWindowEnd_kept ..) fun c => execPaceWindowEnd_canon (h0 := c) ..
  | supplyLoopEvaluation => exact keeps_of_kept (execSupplyLoopEvaluation_kept ..) fun c => execSupplyLoopEvaluation_canon (h0 := c) ..
  | louvreBoundary => exact keeps_of_kept (execLouvreBoundary_kept ..) fun c => execLouvreBoundary_canon (h0 := c) ..
  | publicationDone => exact keeps_of_kept (execPublicationDone_kept ..) fun c => execPublicationDone_canon (h0 := c) ..
  | arbiterGrant => exact keeps_of_kept (execArbiterGrant_kept ..) fun c => execArbiterGrant_canon (h0 := c) ..
  | sashBuildDone => exact keeps_of_kept (execSashBuildDone_kept ..) fun c => execSashBuildDone_canon (h0 := c) ..
  | sashWorkBoundary => exact keeps_of_kept (execSashWorkBoundary_kept ..) fun c => execSashWorkBoundary_canon (h0 := c) ..
  | spareTaken => exact keeps_of_kept (execSpareTaken_kept ..) fun c => execSpareTaken_canon (h0 := c) ..
  | latchCommitNext fn val hcLeft => exact keeps_of_kept (execLatchCommitNext_kept fn val hcLeft s) (execLatchCommitNext_canon fn val hcLeft s)
  | latchCommitSched => exact keeps_of_kept (execLatchCommitSched_kept ..) fun c => execLatchCommitSched_canon (h0 := c) ..
  | latchCommitDomain => exact keeps_of_kept (execLatchCommitDomain_kept ..) fun c => execLatchCommitDomain_canon (h0 := c) ..
  | armReceive => exact keeps_of_kept (execArmReceive_kept ..) fun c => execArmReceive_canon (h0 := c) ..
  | armExpiry => exact keeps_of_kept (execArmExpiry_kept ..) fun c => execArmExpiry_canon (h0 := c) ..
  | groupGuardDecision => exact keeps_of_kept (execGroupGuardDecision_kept ..) fun c => execGroupGuardDecision_canon (h0 := c) ..
  | snapCmdNext => exact keeps_of_kept (execSnapCmdNext_kept ..) fun c => execSnapCmdNext_canon (h0 := c) ..
  | snapCmdSched => exact keeps_of_kept (execSnapCmdSched_kept ..) fun c => execSnapCmdSched_canon (h0 := c) ..
  | snapRequestReceive => exact keeps_of_kept (execSnapRequestReceive_kept ..) fun c => execSnapRequestReceive_canon (h0 := c) ..
  | snapRecordReceive => exact keeps_of_kept (execSnapRecordReceive_kept ..) fun c => execSnapRecordReceive_canon (h0 := c) ..
  | snapMemberTimeout => exact keeps_of_kept (execSnapMemberTimeout_kept ..) fun c => execSnapMemberTimeout_canon (h0 := c) ..
  | snapDone => exact keeps_of_kept (execSnapDone_kept ..) fun c => execSnapDone_canon (h0 := c) ..
  | imgDone => exact keeps_of_kept (execImgDone_kept ..) fun c => execImgDone_canon (h0 := c) ..
  | frameClassify => exact keeps_of_kept (execFrameClassify_kept ..) fun c => execFrameClassify_canon (h0 := c) ..
  | consentRequestTimer => exact keeps_of_kept (execConsentRequestTimer_kept ..) fun c => execConsentRequestTimer_canon (h0 := c) ..
  | consentTimeout => exact keeps_of_kept (execConsentTimeout_kept ..) fun c => execConsentTimeout_canon (h0 := c) ..
  | rtcpIntervalTimer => exact keeps_of_kept (execRtcpIntervalTimer_kept ..) fun c => execRtcpIntervalTimer_canon (h0 := c) ..
  | ccfbIntervalTimer => exact keeps_of_kept (execCcfbIntervalTimer_kept ..) fun c => execCcfbIntervalTimer_canon (h0 := c) ..
  | allocIntervalTimer => exact keeps_of_kept (execAllocIntervalTimer_kept ..) fun c => execAllocIntervalTimer_canon (h0 := c) ..
  | upstreamNackTimer => exact keeps_of_kept (execUpstreamNackTimer_kept ..) fun c => execUpstreamNackTimer_canon (h0 := c) ..
  | keyRequestTimer => exact keeps_of_kept (execKeyRequestTimer_kept ..) fun c => execKeyRequestTimer_canon (h0 := c) ..
  | switchWaitExpiry => exact keeps_of_kept (execSwitchWaitExpiry_kept ..) fun c => execSwitchWaitExpiry_canon (h0 := c) ..
  | removalDrainDone => exact keeps_of_kept (execRemovalDrainDone_kept ..) fun c => execRemovalDrainDone_canon (h0 := c) ..
  | confCreate => exact keeps_of_kept (execConfCreate_kept ..) fun c => execConfCreate_canon (h0 := c) ..
  | confDestroy => exact keeps_of_kept (execConfDestroy_kept ..) fun c => execConfDestroy_canon (h0 := c) ..
  | legAdd => exact keeps_of_kept (execLegAdd_kept ..) fun c => execLegAdd_canon (h0 := c) ..
  | legModify => exact keeps_of_kept (execLegModify_kept ..) fun c => execLegModify_canon (h0 := c) ..
  | legRemove => exact keeps_of_kept (execLegRemove_kept ..) fun c => execLegRemove_canon (h0 := c) ..
  | streamAdd => exact keeps_of_kept (execStreamAdd_kept ..) fun c => execStreamAdd_canon (h0 := c) ..
  | streamDel => exact keeps_of_kept (execStreamDel_kept ..) fun c => execStreamDel_canon (h0 := c) ..
  | subAdd => exact keeps_of_kept (execSubAdd_kept ..) fun c => execSubAdd_canon (h0 := c) ..
  | subModify => exact keeps_of_kept (execSubModify_kept ..) fun c => execSubModify_canon (h0 := c) ..
  | subDel => exact keeps_of_kept (execSubDel_kept ..) fun c => execSubDel_canon (h0 := c) ..
  | legStats => exact keeps_of_kept (execLegStats_kept ..) fun c => execLegStats_canon (h0 := c) ..
  | keyReq => exact keeps_of_kept (execKeyReq_kept ..) fun c => execKeyReq_canon (h0 := c) ..
  | svcParam => exact keeps_of_kept (execSvcParam_kept ..) fun c => execSvcParam_canon (h0 := c) ..
  | fifoFlush => exact keeps_of_kept (execFifoFlush_kept ..) fun c => execFifoFlush_canon (h0 := c) ..
  | fifoSizeChange => exact keeps_of_kept (execFifoSizeChange_kept ..) fun c => execFifoSizeChange_canon (h0 := c) ..
  | egressSchedule => exact keeps_of_kept (execEgressSchedule_kept ..) fun c => execEgressSchedule_canon (h0 := c) ..
  | rateWheelSlot => exact keeps_of_kept (execRateWheelSlot_kept ..) fun c => execRateWheelSlot_canon (h0 := c) ..
  | gateEntryChange => exact keeps_of_kept (execGateEntryChange_kept ..) fun c => execGateEntryChange_canon (h0 := c) ..
  | gclTakeover => exact keeps_of_kept (execGclTakeover_kept ..) fun c => execGclTakeover_canon (h0 := c) ..
  | headerRecordReceive => exact keeps_of_kept (execHeaderRecordReceive_kept ..) fun c => execHeaderRecordReceive_canon (h0 := c) ..
  | pictureDescriptorReceive => exact keeps_of_kept (execPictureDescriptorReceive_kept ..) fun c => execPictureDescriptorReceive_canon (h0 := c) ..
  | stripeStart => exact keeps_of_kept (execStripeStart_kept ..) fun c => execStripeStart_canon (h0 := c) ..
  | blockCoded => exact keeps_of_kept (execBlockCoded_kept ..) fun c => execBlockCoded_canon (h0 := c) ..
  | inputDeadline => exact keeps_of_kept (execInputDeadline_kept ..) fun c => execInputDeadline_canon (h0 := c) ..
  | codingDeadline => exact keeps_of_kept (execCodingDeadline_kept ..) fun c => execCodingDeadline_canon (h0 := c) ..
  | releaseRowTime => exact keeps_of_kept (execReleaseRowTime_kept ..) fun c => execReleaseRowTime_canon (h0 := c) ..
  | lateRowRelease => exact keeps_of_kept (execLateRowRelease_kept ..) fun c => execLateRowRelease_canon (h0 := c) ..
  | encConfig => exact keeps_of_kept (execEncConfig_kept ..) fun c => execEncConfig_canon (h0 := c) ..
  | encRefresh => exact keeps_of_kept (execEncRefresh_kept ..) fun c => execEncRefresh_canon (h0 := c) ..
  | encStats => exact keeps_of_kept (execEncStats_kept ..) fun c => execEncStats_canon (h0 := c) ..
  | decPacketReceive => exact keeps_of_kept (execDecPacketReceive_kept ..) fun c => execDecPacketReceive_canon (h0 := c) ..
  | decFrameLostTimer => exact keeps_of_kept (execDecFrameLostTimer_kept ..) fun c => execDecFrameLostTimer_canon (h0 := c) ..
  | decFrameDecode => exact keeps_of_kept (execDecFrameDecode_kept ..) fun c => execDecFrameDecode_canon (h0 := c) ..
  | pictureRelease => exact keeps_of_kept (execPictureRelease_kept ..) fun c => execPictureRelease_canon (h0 := c) ..
  | decOpen => exact keeps_of_kept (execDecOpen_kept ..) fun c => execDecOpen_canon (h0 := c) ..
  | decClose => exact keeps_of_kept (execDecClose_kept ..) fun c => execDecClose_canon (h0 := c) ..
  | decStats => exact keeps_of_kept (execDecStats_kept ..) fun c => execDecStats_canon (h0 := c) ..
  | cmpDescriptorReceive => exact keeps_of_kept (execCmpDescriptorReceive_kept ..) fun c => execCmpDescriptorReceive_canon (h0 := c) ..
  | cmpFrameInstant => exact keeps_of_kept (execCmpFrameInstant_kept ..) fun c => execCmpFrameInstant_canon (h0 := c) ..
  | cmpLineComplete => exact keeps_of_kept (execCmpLineComplete_kept ..) fun c => execCmpLineComplete_canon (h0 := c) ..
  | paneChunkReceive => exact keeps_of_kept (execPaneChunkReceive_kept ..) fun c => execPaneChunkReceive_canon (h0 := c) ..
  | templateRecordReceive => exact keeps_of_kept (execTemplateRecordReceive_kept ..) fun c => execTemplateRecordReceive_canon (h0 := c) ..
  | spliceDeadline => exact keeps_of_kept (execSpliceDeadline_kept ..) fun c => execSpliceDeadline_canon (h0 := c) ..
  | splPaneset => exact keeps_of_kept (execSplPaneset_kept ..) fun c => execSplPaneset_canon (h0 := c) ..
  | splImport => exact keeps_of_kept (execSplImport_kept ..) fun c => execSplImport_canon (h0 := c) ..
  | splRecvAdd => exact keeps_of_kept (execSplRecvAdd_kept ..) fun c => execSplRecvAdd_canon (h0 := c) ..
  | splRecvSet => exact keeps_of_kept (execSplRecvSet_kept ..) fun c => execSplRecvSet_canon (h0 := c) ..
  | splRecvDel => exact keeps_of_kept (execSplRecvDel_kept ..) fun c => execSplRecvDel_canon (h0 := c) ..
  | splRefresh => exact keeps_of_kept (execSplRefresh_kept ..) fun c => execSplRefresh_canon (h0 := c) ..
  | splStats => exact keeps_of_kept (execSplStats_kept ..) fun c => execSplStats_canon (h0 := c) ..
  | vinPacketReceive => exact keeps_of_kept (execVinPacketReceive_kept ..) fun c => execVinPacketReceive_canon (h0 := c) ..
  | sdiLineReceive => exact keeps_of_kept (execSdiLineReceive_kept ..) fun c => execSdiLineReceive_canon (h0 := c) ..
  | vinStripeStream => exact keeps_of_kept (execVinStripeStream_kept ..) fun c => execVinStripeStream_canon (h0 := c) ..
  | vinPathTimeout => exact keeps_of_kept (execVinPathTimeout_kept ..) fun c => execVinPathTimeout_canon (h0 := c) ..
  | vinSignalTimeout => exact keeps_of_kept (execVinSignalTimeout_kept ..) fun c => execVinSignalTimeout_canon (h0 := c) ..
  | sdiTxFrame => exact keeps_of_kept (execSdiTxFrame_kept ..) fun c => execSdiTxFrame_canon (h0 := c) ..
  | tsoRowReceive => exact keeps_of_kept (execTsoRowReceive_kept ..) fun c => execTsoRowReceive_canon (h0 := c) ..
  | tsPacketSchedule => exact keeps_of_kept (execTsPacketSchedule_kept ..) fun c => execTsPacketSchedule_canon (h0 := c) ..
  | psiTimer => exact keeps_of_kept (execPsiTimer_kept ..) fun c => execPsiTimer_canon (h0 := c) ..
  | cmafChunkWrite => exact keeps_of_kept (execCmafChunkWrite_kept ..) fun c => execCmafChunkWrite_canon (h0 := c) ..
  | gainStepZeroCross => exact keeps_of_kept (execGainStepZeroCross_kept ..) fun c => execGainStepZeroCross_canon (h0 := c) ..
  | gainStepTimeout => exact keeps_of_kept (execGainStepTimeout_kept ..) fun c => execGainStepTimeout_canon (h0 := c) ..
  | asHoldExpiry => exact keeps_of_kept (execAsHoldExpiry_kept ..) fun c => execAsHoldExpiry_canon (h0 := c) ..
  | onePerRoomTimer => exact keeps_of_kept (execOnePerRoomTimer_kept ..) fun c => execOnePerRoomTimer_canon (h0 := c) ..
  | talkIntervalTimer => exact keeps_of_kept (execTalkIntervalTimer_kept ..) fun c => execTalkIntervalTimer_canon (h0 := c) ..
  | audPacketReceive => exact keeps_of_kept (execAudPacketReceive_kept ..) fun c => execAudPacketReceive_canon (h0 := c) ..
  | audEncFrame => exact keeps_of_kept (execAudEncFrame_kept ..) fun c => execAudEncFrame_canon (h0 := c) ..
  | cascadeFlit => exact keeps_of_kept (execCascadeFlit_kept ..) fun c => execCascadeFlit_canon (h0 := c) ..
  | audSrcBind => exact keeps_of_kept (execAudSrcBind_kept ..) fun c => execAudSrcBind_canon (h0 := c) ..
  | audSnkBind => exact keeps_of_kept (execAudSnkBind_kept ..) fun c => execAudSnkBind_canon (h0 := c) ..
  | audNodeSet => exact keeps_of_kept (execAudNodeSet_kept ..) fun c => execAudNodeSet_canon (h0 := c) ..
  | audDecOpen => exact keeps_of_kept (execAudDecOpen_kept ..) fun c => execAudDecOpen_canon (h0 := c) ..
  | audEncOpen => exact keeps_of_kept (execAudEncOpen_kept ..) fun c => execAudEncOpen_canon (h0 := c) ..
  | audClose => exact keeps_of_kept (execAudClose_kept ..) fun c => execAudClose_canon (h0 := c) ..
  | audConf => exact keeps_of_kept (execAudConf_kept ..) fun c => execAudConf_canon (h0 := c) ..
  | audLegProfile => exact keeps_of_kept (execAudLegProfile_kept ..) fun c => execAudLegProfile_canon (h0 := c) ..
  | audRoom => exact keeps_of_kept (execAudRoom_kept ..) fun c => execAudRoom_canon (h0 := c) ..
  | audStats => exact keeps_of_kept (execAudStats_kept ..) fun c => execAudStats_canon (h0 := c) ..
  | dblFrameStart => exact keeps_of_kept (execDblFrameStart_kept ..) fun c => execDblFrameStart_canon (h0 := c) ..
  | dwellStart => exact keeps_of_kept (execDwellStart_kept ..) fun c => execDwellStart_canon (h0 := c) ..
  | dwellEnd => exact keeps_of_kept (execDwellEnd_kept ..) fun c => execDwellEnd_canon (h0 := c) ..
  | preambleAcquire => exact keeps_of_kept (execPreambleAcquire_kept ..) fun c => execPreambleAcquire_canon (h0 := c) ..
  | syncWordSearchEnd => exact keeps_of_kept (execSyncWordSearchEnd_kept ..) fun c => execSyncWordSearchEnd_canon (h0 := c) ..
  | headerDecoded => exact keeps_of_kept (execHeaderDecoded_kept ..) fun c => execHeaderDecoded_canon (h0 := c) ..
  | payloadDecoded => exact keeps_of_kept (execPayloadDecoded_kept ..) fun c => execPayloadDecoded_canon (h0 := c) ..
  | edgeTtlExpiry => exact keeps_of_kept (execEdgeTtlExpiry_kept ..) fun c => execEdgeTtlExpiry_canon (h0 := c) ..
  | dblTx => exact keeps_of_kept (execDblTx_kept ..) fun c => execDblTx_canon (h0 := c) ..
  | dblSurvey => exact keeps_of_kept (execDblSurvey_kept ..) fun c => execDblSurvey_canon (h0 := c) ..
  | dblGroup => exact keeps_of_kept (execDblGroup_kept ..) fun c => execDblGroup_canon (h0 := c) ..
  | hngBundleExecute => exact keeps_of_kept (execHngBundleExecute_kept ..) fun c => execHngBundleExecute_canon (h0 := c) ..
  | mailboxDelivery => exact keeps_of_kept (execMailboxDelivery_kept ..) fun c => execMailboxDelivery_canon (h0 := c) ..
  | mailboxDrain => exact keeps_of_kept (execMailboxDrain_kept ..) fun c => execMailboxDrain_canon (h0 := c) ..
  | dmaTransferDone => exact keeps_of_kept (execDmaTransferDone_kept ..) fun c => execDmaTransferDone_canon (h0 := c) ..
  | hngLoad => exact keeps_of_kept (execHngLoad_kept ..) fun c => execHngLoad_canon (h0 := c) ..
  | hngStart => exact keeps_of_kept (execHngStart_kept ..) fun c => execHngStart_canon (h0 := c) ..
  | hngHalt => exact keeps_of_kept (execHngHalt_kept ..) fun c => execHngHalt_canon (h0 := c) ..
  | hngStats => exact keeps_of_kept (execHngStats_kept ..) fun c => execHngStats_canon (h0 := c) ..
  | keyWrite => exact keeps_of_kept (execKeyWrite_kept ..) fun c => execKeyWrite_canon (h0 := c) ..
  | keyErase => exact keeps_of_kept (execKeyErase_kept ..) fun c => execKeyErase_canon (h0 := c) ..
  | keyUnwrapDone => exact keeps_of_kept (execKeyUnwrapDone_kept ..) fun c => execKeyUnwrapDone_canon (h0 := c) ..
  | keyDrainEnd => exact keeps_of_kept (execKeyDrainEnd_kept ..) fun c => execKeyDrainEnd_canon (h0 := c) ..
  | heldKeyExpiry => exact keeps_of_kept (execHeldKeyExpiry_kept ..) fun c => execHeldKeyExpiry_canon (h0 := c) ..
  | cipherItem => exact keeps_of_kept (execCipherItem_kept ..) fun c => execCipherItem_canon (h0 := c) ..
  | pageDecodeDone => exact keeps_of_kept (execPageDecodeDone_kept ..) fun c => execPageDecodeDone_canon (h0 := c) ..
  | hbmRefresh => exact keeps_of_kept (execHbmRefresh_kept ..) fun c => execHbmRefresh_canon (h0 := c) ..
  | hbmTempReading => exact keeps_of_kept (execHbmTempReading_kept ..) fun c => execHbmTempReading_canon (h0 := c) ..
  | scrubVisit => exact keeps_of_kept (execScrubVisit_kept ..) fun c => execScrubVisit_canon (h0 := c) ..
  | mergeFlushTimeout => exact keeps_of_kept (execMergeFlushTimeout_kept ..) fun c => execMergeFlushTimeout_canon (h0 := c) ..
  | caParityError => exact keeps_of_kept (execCaParityError_kept ..) fun c => execCaParityError_canon (h0 := c) ..
  | bar2Read => exact keeps_of_kept (execBar2Read_kept ..) fun c => execBar2Read_canon (h0 := c) ..
  | bar2Write => exact keeps_of_kept (execBar2Write_kept ..) fun c => execBar2Write_canon (h0 := c) ..
  | rawWrite => exact keeps_of_kept (execRawWrite_kept ..) fun c => execRawWrite_canon (h0 := c) ..
  | rawRead => exact keeps_of_kept (execRawRead_kept ..) fun c => execRawRead_canon (h0 := c) ..
  | checkedRead => exact keeps_of_kept (execCheckedRead_kept ..) fun c => execCheckedRead_canon (h0 := c) ..
  | pageRemapDone => exact keeps_of_kept (execPageRemapDone_kept ..) fun c => execPageRemapDone_canon (h0 := c) ..
  | laneLost => exact keeps_of_kept (execLaneLost_kept ..) fun c => execLaneLost_canon (h0 := c) ..
  | laneAdaptDone => exact keeps_of_kept (execLaneAdaptDone_kept ..) fun c => execLaneAdaptDone_canon (h0 := c) ..
  | fomLowTimer => exact keeps_of_kept (execFomLowTimer_kept ..) fun c => execFomLowTimer_canon (h0 := c) ..
  | laneRetrain => exact keeps_of_kept (execLaneRetrain_kept ..) fun c => execLaneRetrain_canon (h0 := c) ..
  | laneLoopbackWrite => exact keeps_of_kept (execLaneLoopbackWrite_kept ..) fun c => execLaneLoopbackWrite_canon (h0 := c) ..
  | laneSleepWrite => exact keeps_of_kept (execLaneSleepWrite_kept ..) fun c => execLaneSleepWrite_canon (h0 := c) ..
  | linkAligned => exact keeps_of_kept (execLinkAligned_kept ..) fun c => execLinkAligned_canon (h0 := c) ..
  | helloTimer => exact keeps_of_kept (execHelloTimer_kept ..) fun c => execHelloTimer_canon (h0 := c) ..
  | helloFlit => exact keeps_of_kept (execHelloFlit_kept ..) fun c => execHelloFlit_canon (h0 := c) ..
  | idleFlit => exact keeps_of_kept (execIdleFlit_kept ..) fun c => execIdleFlit_canon (h0 := c) ..
  | sequencedFlitReceive => exact keeps_of_kept (execSequencedFlitReceive_kept ..) fun c => execSequencedFlitReceive_canon (h0 := c) ..
  | nakReceive => exact keeps_of_kept (execNakReceive_kept ..) fun c => execNakReceive_canon (h0 := c) ..
  | holdFlit => exact keeps_of_kept (execHoldFlit_kept ..) fun c => execHoldFlit_canon (h0 := c) ..
  | linkFlit => exact keeps_of_kept (execLinkFlit_kept ..) fun c => execLinkFlit_canon (h0 := c) ..
  | holdTimeout => exact keeps_of_kept (execHoldTimeout_kept ..) fun c => execHoldTimeout_canon (h0 := c) ..
  | tunnelReplayTimer => exact keeps_of_kept (execTunnelReplayTimer_kept ..) fun c => execTunnelReplayTimer_canon (h0 := c) ..
  | tunnelSilenceTimeout => exact keeps_of_kept (execTunnelSilenceTimeout_kept ..) fun c => execTunnelSilenceTimeout_canon (h0 := c) ..
  | handover => exact keeps_of_kept (execHandover_kept ..) fun c => execHandover_canon (h0 := c) ..
  | handoverSwitch => exact keeps_of_kept (execHandoverSwitch_kept ..) fun c => execHandoverSwitch_canon (h0 := c) ..
  | handoverTailEnd => exact keeps_of_kept (execHandoverTailEnd_kept ..) fun c => execHandoverTailEnd_canon (h0 := c) ..
  | linkStats => exact keeps_of_kept (execLinkStats_kept ..) fun c => execLinkStats_canon (h0 := c) ..
  | ptpFrameReceive => exact keeps_of_kept (execPtpFrameReceive_kept ..) fun c => execPtpFrameReceive_canon (h0 := c) ..
  | oneStepSync => exact keeps_of_kept (execOneStepSync_kept ..) fun c => execOneStepSync_canon (h0 := c) ..
  | ptpLockDeclared => exact keeps_of_kept (execPtpLockDeclared_kept ..) fun c => execPtpLockDeclared_canon (h0 := c) ..
  | ptpLossDeclared => exact keeps_of_kept (execPtpLossDeclared_kept ..) fun c => execPtpLossDeclared_canon (h0 := c) ..
  | ptpPort => exact keeps_of_kept (execPtpPort_kept ..) fun c => execPtpPort_canon (h0 := c) ..
  | ptpStats => exact keeps_of_kept (execPtpStats_kept ..) fun c => execPtpStats_canon (h0 := c) ..
  | timeStep => exact keeps_of_kept (execTimeStep_kept ..) fun c => execTimeStep_canon (h0 := c) ..
  | incrWrite => exact keeps_of_soft (execIncrWrite_soft ..) fun c => execIncrWrite_canon (h0 := c) ..
  | lockWrite => exact keeps_of_kept (execLockWrite_kept ..) fun c => execLockWrite_canon (h0 := c) ..
  | timWatchdogExpiry => exact keeps_of_kept (execTimWatchdogExpiry_kept ..) fun c => execTimWatchdogExpiry_canon (h0 := c) ..
  | ppsInEdge => exact keeps_of_kept (execPpsInEdge_kept ..) fun c => execPpsInEdge_canon (h0 := c) ..
  | ppsOutPulse => exact keeps_of_kept (execPpsOutPulse_kept ..) fun c => execPpsOutPulse_canon (h0 := c) ..
  | pinPulseEnd => exact keeps_of_kept (execPinPulseEnd_kept ..) fun c => execPinPulseEnd_canon (h0 := c) ..
  | tevCaptureEdge => exact keeps_of_kept (execTevCaptureEdge_kept ..) fun c => execTevCaptureEdge_canon (h0 := c) ..
  | tevRise => exact keeps_of_kept (execTevRise_kept ..) fun c => execTevRise_canon (h0 := c) ..
  | tevConfigWrite => exact keeps_of_kept (execTevConfigWrite_kept ..) fun c => execTevConfigWrite_canon (h0 := c) ..
  | dbProd => exact keeps_of_kept (execDbProd_kept ..) fun c => execDbProd_canon (h0 := c) ..
  | dbCons => exact keeps_of_kept (execDbCons_kept ..) fun c => execDbCons_canon (h0 := c) ..
  | commandTake => exact keeps_of_kept (execCommandTake_kept ..) fun c => execCommandTake_canon (h0 := c) ..
  | qpCfgWrite => exact keeps_of_kept (execQpCfgWrite_kept ..) fun c => execQpCfgWrite_canon (h0 := c) ..
  | vfFlr => exact keeps_of_kept (execVfFlr_kept ..) fun c => execVfFlr_canon (h0 := c) ..
  | pcieLinkDown => exact keeps_of_kept (execPcieLinkDown_kept ..) fun c => execPcieLinkDown_canon (h0 := c) ..
  | pcieLinkUp => exact keeps_of_kept (execPcieLinkUp_kept ..) fun c => execPcieLinkUp_canon (h0 := c) ..
  | getNonce => exact keeps_of_kept (execGetNonce_kept ..) fun c => execGetNonce_canon (h0 := c) ..
  | read => exact keeps_of_kept (execRead_kept ..) fun c => execRead_canon (h0 := c) ..
  | provision => exact keeps_of_soft (execProvision_soft ..) fun c => execProvision_canon (h0 := c) ..
  | setPower => exact keeps_of_kept (execSetPower_kept ..) fun c => execSetPower_canon (h0 := c) ..
  | setPace => exact keeps_of_kept (execSetPace_kept ..) fun c => execSetPace_canon (h0 := c) ..
  | setPolicy => exact keeps_of_kept (execSetPolicy_kept ..) fun c => execSetPolicy_canon (h0 := c) ..
  | setBucket => exact keeps_of_kept (execSetBucket_kept ..) fun c => execSetBucket_canon (h0 := c) ..
  | setKeyMax => exact keeps_of_kept (execSetKeyMax_kept ..) fun c => execSetKeyMax_canon (h0 := c) ..
  | wrapKey => exact keeps_of_kept (execWrapKey_kept ..) fun c => execWrapKey_canon (h0 := c) ..
  | debug => exact keeps_of_kept (execDebug_kept ..) fun c => execDebug_canon (h0 := c) ..
  | setBist => exact keeps_of_kept (execSetBist_kept ..) fun c => execSetBist_canon (h0 := c) ..
  | bistRun => exact keeps_of_kept (execBistRun_kept ..) fun c => execBistRun_canon (h0 := c) ..
  | march => exact keeps_of_kept (execMarch_kept ..) fun c => execMarch_canon (h0 := c) ..
  | retire => exact keeps_of_kept (execRetire_kept ..) fun c => execRetire_canon (h0 := c) ..
  | shutterFreeze => exact keeps_of_kept (execShutterFreeze_kept ..) fun c => execShutterFreeze_canon (h0 := c) ..
  | shutterRelease => exact keeps_of_kept (execShutterRelease_kept ..) fun c => execShutterRelease_canon (h0 := c) ..
  | warm => exact keeps_of_kept (execWarm_kept ..) fun c => execWarm_canon (h0 := c) ..
  | nonceExpiry => exact keeps_of_kept (execNonceExpiry_kept ..) fun c => execNonceExpiry_canon (h0 := c) ..
  | dbtLockstepMismatch => exact keeps_of_kept (execDbtLockstepMismatch_kept ..) fun c => execDbtLockstepMismatch_canon (h0 := c) ..
  | dbtRestart => exact keeps_of_kept (execDbtRestart_kept ..) fun c => execDbtRestart_canon (h0 := c) ..
  | bucketLeak => exact keeps_of_kept (execBucketLeak_kept ..) fun c => execBucketLeak_canon (h0 := c) ..
  | bistScheduleTimer => exact keeps_of_kept (execBistScheduleTimer_kept ..) fun c => execBistScheduleTimer_canon (h0 := c) ..
  | bistTestDone => exact keeps_of_kept (execBistTestDone_kept ..) fun c => execBistTestDone_canon (h0 := c) ..
  | marchDone => exact keeps_of_kept (execMarchDone_kept ..) fun c => execMarchDone_canon (h0 := c) ..
  | shutterNFall => exact keeps_of_kept (execShutterNFall_kept ..) fun c => execShutterNFall_canon (h0 := c) ..
  | shutterNRise => exact keeps_of_kept (execShutterNRise_kept ..) fun c => execShutterNRise_canon (h0 := c) ..
  | thermalTrigger => exact keeps_of_kept (execThermalTrigger_kept ..) fun c => execThermalTrigger_canon (h0 := c) ..
  | hbmSelfRefreshEntry => exact keeps_of_kept (execHbmSelfRefreshEntry_kept ..) fun c => execHbmSelfRefreshEntry_canon (h0 := c) ..
  | resumeDone => exact keeps_of_kept (execResumeDone_kept ..) fun c => execResumeDone_canon (h0 := c) ..
  | peepTapShift => exact keeps_of_kept (execPeepTapShift_kept ..) fun c => execPeepTapShift_canon (h0 := c) ..
  | coldStart => exact keeps_of_soft (execColdStart_soft ..) fun c => execColdStart_canon (h0 := c) ..
  | coldStepComplete => exact keeps_of_soft (execColdStepComplete_soft ..) fun c => execColdStepComplete_canon (h0 := c) ..
  | warmNFall => exact keeps_of_kept (execWarmNFall_kept ..) fun c => execWarmNFall_canon (h0 := c) ..
  | startCtlWarm => exact keeps_of_kept (execStartCtlWarm_kept ..) fun c => execStartCtlWarm_canon (h0 := c) ..
  | warmStepComplete => exact keeps_of_soft (execWarmStepComplete_soft ..) fun c => execWarmStepComplete_canon (h0 := c) ..
  | resetNFall => exact keeps_of_soft (execResetNFall_soft ..) fun c => execResetNFall_canon (h0 := c) ..
  | powerLoss => exact keeps_of_soft (execPowerLoss_soft ..) fun c => execPowerLoss_canon (h0 := c) ..
  | lintelCoreFault => exact keeps_of_kept (execLintelCoreFault_kept ..) fun c => execLintelCoreFault_canon (h0 := c) ..
  | ptpMessageTimer => exact keeps_of_kept (execPtpMessageTimer_kept ..) fun c => execPtpMessageTimer_canon (h0 := c) ..
  | mgmtUnknownCommand => exact keeps_of_kept (execMgmtUnknownCommand_kept ..) fun c => execMgmtUnknownCommand_canon (h0 := c) ..

/-- Every step goes on, to a state that keeps what every command keeps but the queue, whose front it takes. -/
theorem step_keeps {s t : State} (h : step s = .next t) : State.Soft { s with pending := s.pending.tail } t ∧ (s.canon → t.canon) := by
  unfold step at h
  cases hp : s.pending with
  | nil =>
    rw [hp] at h
    cases h
    have hs : { s with pending := [] } = s := by rw [← hp]
    rw [List.tail_nil, hs]
    exact ⟨soft_of_kept (State.tick_kept s), State.tick_canon s⟩
  | cons c rest =>
    rw [hp] at h
    obtain ⟨u, hu, hsoft, hcanon⟩ := exec_keeps c { s with pending := rest }
    change exec c { s with pending := rest } = .next t at h
    rw [hu] at h
    cases h
    exact ⟨hsoft, hcanon⟩

/-! ### Idle steps -/

/-- Without Latches no Latch is turned. -/
theorem State.latchPass_none {s : State} (due : Latch → Option Nat) (hpend : s.lch.pend = []) : s.latchPass due = s := by
  rw [State.latchPass, hpend, List.map_nil, List.foldl_nil]

/-- A work boundary for which nothing waits changes nothing. -/
theorem State.workBoundary_none {s : State} (ds : List Domain) (hpend : s.lch.pend = []) (hwait : s.lch.waiting = []) (hpers : s.ldr.persWait = []) :
    s.workBoundary ds = s := by
  have hlch : { s.lch with waiting := [] } = s.lch := by rw [← hwait]
  simp only [State.workBoundary, State.latchPass_none _ hpend, hwait, List.filter_nil, List.foldl_nil, hpers]
  rw [hlch]

/-- A tick with a clock and nothing waiting moves the counter alone. -/
theorem State.tick_idle {s : State} (hclock : s.clockRuns = true) (hpend : s.lch.pend = []) (hwait : s.lch.waiting = [])
    (hpers : s.ldr.persWait = []) : s.tick = { s with
      hub := { s.hub with ticks := s.hub.ticks + 1, time := s.hub.time.tick s.tim.incr }
      tim := { s.tim with carry := s.hub.time.carries s.tim.incr } } := by
  rw [State.tick, if_pos hclock, State.quietBoundary]
  exact State.workBoundary_none _ hpend hwait hpers

theorem step_empty {s : State} (hempty : s.pending = []) : step s = .next s.tick := by
  unfold step
  rw [hempty]

end Sys2Proof.Machine
end

section
/-! SETTLED. The queue, and what every step keeps. -/

namespace Sys2Proof.Machine

/-- Settles O5: what every step keeps holds of registers, memories, flash and increment. -/
theorem soundKept : Obligations.SoundKept := by
  intro s t hsound hstep
  obtain ⟨hcanon, hflash, hincr⟩ := hsound
  obtain ⟨⟨-, hldr, -, htim⟩, hc⟩ := step_keeps hstep
  refine ⟨hc hcanon, ?_, htim hincr⟩
  rw [hldr]
  exact hflash

/-- Settles O7: no meaning writes a management key that is there; PROVISION writes a blank one alone (R378). -/
theorem managementKeyStays : Obligations.ManagementKeyStays := by
  intro s t hkey hstep
  obtain ⟨⟨-, -, hmgmt, -⟩, -⟩ := step_keeps hstep
  exact hmgmt hkey

/-- Settles O4: the queue and the flash are among what every command keeps. -/
theorem queueAndFlashKept : Obligations.QueueAndFlashKept := by
  intro c s
  obtain ⟨t, ht, ⟨hpending, hflash, -, -⟩, -⟩ := exec_keeps c s
  exact ⟨t, ht, hpending, hflash⟩

/-- Settles O1. -/
theorem stepRunsTheFrontCommand : Obligations.StepRunsTheFrontCommand := by
  intro c rest s
  rfl

/-- Settles O2: the boundary of idle domains that follows a tick finds nothing to do. -/
theorem idleStepIsATick : Obligations.IdleStepIsATick := by
  intro s hempty
  rw [step_empty hempty]
  refine ⟨fun hclock hpend hwait hpers => ?_, fun hclock => ?_⟩
  · rw [State.tick_idle hclock hpend hwait hpers]
  · rw [State.tick, hclock]
    rfl

/-- Settles O3: each arm of `exec` goes on. -/
theorem everyCommandAnswers : Obligations.EveryCommandAnswers := by
  intro c s
  obtain ⟨t, ht, -⟩ := exec_keeps c s
  exact ⟨t, ht⟩

/-- Settles O6: nothing is listed after reset, and the increment is that of 8 ns. -/
theorem resetSound : Obligations.ResetSound := ⟨State.canon_reset, memWf_nil, incrOk_reset⟩

end Sys2Proof.Machine
end

section
/-! SUPPORT. Accesses to registers: writes that act bit by bit, writes of shadows, and the reads that clear or capture (R9, R10, R78, R311). -/

namespace Sys2Proof.Machine

/-! ### Writes -/

/-- A write that finds the host's window live, its register listed and the window taking it is the register's write. -/
theorem State.wordWrite_taken {s : State} {fn off : Nat} (val : Word) (hfn : fn < 64) (hbell : ¬(0x2010000 ≤ off ∧ off < 0x2012000))
    (hlive : s.hub.bar = .live) (hthere : s.hub.absentBlock off = false) (htakes : s.hub.windowTakes fn off = true)
    (hlisted : (regRow off).isSome = true) : s.wordWrite fn off val = s.regWrite fn off val := by
  have hrow : (regRow off).isNone = false := by rw [← Option.not_isSome, hlisted, Bool.not_true]
  simp [State.wordWrite, Nat.not_lt.mpr (Nat.le_of_lt_succ hfn), hbell, hlive, hthere, htakes, hrow]

/-- A closed window takes no write but a doorbell. -/
theorem State.wordWrite_dead {s : State} (fn : Nat) {off : Nat} (val : Word) (hdead : s.hub.bar = .dead) (hbell : ¬(0x2010000 ≤ off ∧ off < 0x2012000)) :
    s.wordWrite fn off val = s := by
  simp [State.wordWrite, hbell, hdead]

/-- A register without a write of its own is written by its access codes. -/
theorem State.regWrite_plain {off : Nat} (s : State) (fn : Nat) (val : Word) (hown : ownCopy off = false) (hact : actingReg off = false) :
    s.regWrite fn off val = s.plainWrite fn off val := by
  simp only [ownCopy, Bool.or_eq_false_iff, beq_eq_false_iff_ne, decide_eq_false_iff_not] at hown
  simp only [actingReg, Bool.or_eq_false_iff, beq_eq_false_iff_ne, decide_eq_false_iff_not] at hact
  unfold State.regWrite
  iterate 15 rw [if_neg (by omega)]

/-- The word that a write by access codes leaves: RW bits as written, W1C bits cleared, W1S bits set (R10). -/
def writtenWord (off : Nat) (old val : Word) : Word :=
  (((old &&& ~~~ accMask .rw off) ||| (val &&& accMask .rw off)) &&& ~~~ (val &&& accMask .w1c off)) ||| (val &&& accMask .w1s off)

theorem writtenWord_getLsbD (off : Nat) (old val : Word) {i : Nat} (hi : i < 32) : (writtenWord off old val).getLsbD i =
    (((if (accMask .rw off).getLsbD i then val.getLsbD i else old.getLsbD i) && !(val.getLsbD i && (accMask .w1c off).getLsbD i)) ||
      (val.getLsbD i && (accMask .w1s off).getLsbD i)) := by
  simp only [writtenWord, BitVec.getLsbD_or, BitVec.getLsbD_and, BitVec.getLsbD_not, hi, decide_true, Bool.true_and]
  cases (accMask .rw off).getLsbD i <;> simp

/-- A register without SH fields has no shadow to write. -/
theorem State.shadowPut_none {off : Nat} (s : State) (fn : Nat) (mask val : Word) (hshadow : accMask .sh off = 0) : s.shadowPut fn off mask val = s := by
  simp [State.shadowPut, hshadow]

/-- The PF finds every register under its own offset. -/
theorem keyFor_pf (off : Nat) : keyFor 0 off = off := by
  simp [keyFor, winKey]

section
variable {off : Nat} (hshadow : accMask .sh off = 0) (hstuck : stuckBit off = none)
include hshadow hstuck

/-- A write by access codes to a register without shadow and without a CNT_STUCK event. -/
theorem State.plainWrite_eq (s : State) (fn : Nat) (val : Word) : s.plainWrite fn off val =
    if s.hub.rd (keyFor fn off) = writtenWord off (s.hub.rd (keyFor fn off)) val then s
    else { s with hub := s.hub.wr (keyFor fn off) (writtenWord off (s.hub.rd (keyFor fn off)) val) } := by
  simp only [State.plainWrite, State.shadowPut_none _ _ _ _ hshadow, hstuck, writtenWord]
  rfl

theorem State.plainWrite_rd_self {s : State} (c : s.canon) (fn : Nat) (val : Word) :
    (s.plainWrite fn off val).hub.rd (keyFor fn off) = writtenWord off (s.hub.rd (keyFor fn off)) val := by
  rw [State.plainWrite_eq hshadow hstuck]
  split
  next h => exact h
  next => exact Hub.rd_wr_self (State.canon_hub c) _ _

theorem State.plainWrite_rd_ne {s : State} (c : s.canon) (fn : Nat) (val : Word) {k : Nat} (hk : k ≠ keyFor fn off) :
    (s.plainWrite fn off val).hub.rd k = s.hub.rd k := by
  rw [State.plainWrite_eq hshadow hstuck]
  split
  · rfl
  · exact Hub.rd_wr_ne (State.canon_hub c) _ _ _ hk

theorem State.plainWrite_frame (s : State) (fn : Nat) (val : Word) :
    s.plainWrite fn off val = { s with hub := { s.hub with regs := (s.plainWrite fn off val).hub.regs } } := by
  rw [State.plainWrite_eq hshadow hstuck]
  split <;> rfl

end

theorem plainReg_iff (off : Nat) : plainReg off = true ↔
    (regRow off).isSome = true ∧ accMask .sh off = 0 ∧ stuckBit off = none ∧ ownCopy off = false ∧ actingReg off = false := by
  simp only [plainReg, Bool.and_eq_true, beq_iff_eq, Bool.not_eq_true', and_assoc]

theorem not_bell_of_actingReg {off : Nat} (hact : actingReg off = false) : ¬(0x2010000 ≤ off ∧ off < 0x2012000) := by
  simp only [actingReg, Bool.or_eq_false_iff, decide_eq_false_iff_not] at hact
  obtain ⟨⟨-, hbell⟩, -⟩ := hact
  exact hbell

/-- The PF's window takes every write. -/
theorem Hub.windowTakes_pf (h : Hub) (off : Nat) : h.windowTakes 0 off = true := rfl

/-- A PF write of a plain register is one by access codes, beside the island's FIFO. -/
theorem State.busWrite_plain {s : State} {off : Nat} (val : BitVec 64) (hin : s.hub.hostIn = true) (h4 : off % 4 = 0) (hplain : plainReg off = true)
    (hthere : s.hub.absentBlock off = false) :
    s.busWrite 0 off 4 val = (s.offer .pcie 4).plainWrite 0 off (val.setWidth 32) := by
  obtain ⟨hlisted, -, -, hown, hact⟩ := (plainReg_iff off).mp hplain
  obtain ⟨hlive, hup⟩ := Hub.hostIn_live hin
  rw [State.busWrite_word s 0 off val h4 hup, State.wordWrite_taken _ (by decide) (not_bell_of_actingReg hact) (by rwa [State.offer_hub])
    (by rwa [State.offer_hub]) (Hub.windowTakes_pf _ _) hlisted, State.regWrite_plain _ _ _ hown hact]

theorem exec_regWrite (fn off size : Nat) (val : BitVec 64) (s : State) : exec (.regWrite fn off size val) s = .next (s.busWrite fn off size val) := rfl

theorem State.busWrite_down {s : State} (fn off size : Nat) (val : BitVec 64) (hdown : s.hub.pcieDown = true) : s.busWrite fn off size val = s := by
  rw [State.busWrite, if_pos hdown]

theorem State.busWrite_up {s : State} (fn off size : Nat) (val : BitVec 64) (hup : s.hub.pcieDown = false) :
    s.busWrite fn off size val = (wordWrites off size val).foldl (fun (a : State) w => a.wordWrite fn w.1 w.2) (s.offer .pcie size) := by
  rw [State.busWrite, hup]
  rfl

/-! ### Shadow writes -/

theorem exec_shadowWrite_down {s : State} (fn off size : Nat) (val : BitVec 64) (hdown : s.hub.pcieDown = true) :
    exec (.shadowWrite fn off size val) s = .next s := by
  have harm : exec (.shadowWrite fn off size val) s = execShadowWrite fn off size val s := rfl
  rw [harm, execShadowWrite, if_pos hdown]

theorem exec_shadowWrite_up {s : State} (fn off size : Nat) (val : BitVec 64) (hup : s.hub.pcieDown = false) :
    exec (.shadowWrite fn off size val) s = .next ((wordWrites off size val).foldl (fun (a : State) w => a.wordShadow fn w.1 w.2) s) := by
  have harm : exec (.shadowWrite fn off size val) s = execShadowWrite fn off size val s := rfl
  rw [harm, execShadowWrite, hup]
  rfl

/-- The word that a write leaves in a register's shadow: the SH bits as written. -/
def shadowWord (off : Nat) (old val : Word) : Word := (old &&& ~~~ accMask .sh off) ||| (val &&& accMask .sh off)

theorem shadowWord_getLsbD (off : Nat) (old val : Word) {i : Nat} (hi : i < 32) :
    (shadowWord off old val).getLsbD i = if (accMask .sh off).getLsbD i then val.getLsbD i else old.getLsbD i := by
  simp only [shadowWord, BitVec.getLsbD_or, BitVec.getLsbD_and, BitVec.getLsbD_not, hi, decide_true, Bool.true_and]
  cases (accMask .sh off).getLsbD i <;> simp

/-- A shadow write that the window takes sets the shadow and joins the open set (R78). -/
theorem State.wordShadow_taken {s : State} {fn off : Nat} (val : Word) (hin : s.hub.hostIn = true) (hfn : fn < 64)
    (htakes : s.hub.windowTakes fn off = true) (hshadow : accMask .sh off ≠ 0) (hthere : s.hub.absentBlock off = false) :
    s.wordShadow fn off val = { s with
      hub := s.hub.wrShadow off (shadowWord off (s.hub.rdShadow off) val)
      lch := { s.lch with openSet := s.lch.openSet ++ [⟨fn, .write off (accMask .sh off) (val &&& accMask .sh off)⟩] } } := by
  have hreach : s.barLive ∧ fn < 64 ∧ s.hub.windowTakes fn off := ⟨hin, hfn, htakes⟩
  have hput : ¬(accMask .sh off = 0 ∨ s.hub.absentBlock off = true) := not_or.mpr ⟨hshadow, by simp [hthere]⟩
  rw [State.wordShadow, if_pos hreach, State.shadowPut, BitVec.allOnes_and, if_neg hput]
  rfl

/-! ### Reads with effects -/

theorem Hub.windowShows_unbound (h : Hub) (fn : Nat) {off : Nat} (hfree : boundObject off = none) (hvf : ¬(0x2001000 ≤ off ∧ off < 0x2001400)) :
    h.windowShows fn off = true := by
  simp [Hub.windowShows, hfree, hvf]

theorem Hub.absentBlock_resPeak (h : Hub) : h.absentBlock 0x100030 = false := by
  simp [Hub.absentBlock]

/-- RES_PEAK reads the highest consumption of the resource selected. -/
theorem State.busValue_resPeak {s : State} (fn : Nat) (hlive : s.hub.bar = .live) (hfree : kvGet (winKey fn 0x100030) s.hub.captured = none) :
    s.busValue fn 0x100030 = BitVec.ofNat 32 ((kvGet 0x100030 s.resRegs).getD 0) := by
  obtain ⟨r, hr⟩ : ∃ r, regRow 0x100030 = some r := Option.isSome_iff_exists.mp (by decide)
  rw [State.busValue_listed hlive (by decide) s.hub.absentBlock_resPeak (s.hub.windowShows_unbound fn rfl (by decide)) hr, hfree, Option.getD_none,
    State.regValue, if_neg (by decide), if_pos (by decide)]

theorem State.resRegs_peak {s : State} {kind index : Nat} (hsel : s.resSel = some (kind, index)) : kvGet 0x100030 s.resRegs = some (s.peak kind index) := by
  rw [State.resRegs, hsel]
  rfl

theorem State.resRegs_peak_none {s : State} (hsel : s.resSel = none) : kvGet 0x100030 s.resRegs = some 0 := by
  rw [State.resRegs, hsel]
  rfl

/-- A read of RES_PEAK clears the peak, and uses up a captured half if there is one. -/
theorem State.pieceRead_resPeak (s : State) (fn : Nat) (hlive : s.hub.bar = .live) : s.pieceRead fn 0x100030 0 4 =
    let s1 : State := { s with hub := { s.hub with captured := kvDel (winKey fn 0x100030) s.hub.captured } }
    { s1.peakRead with hub := s1.hub.emit (.regRead fn 0x100030 (s.busValue fn 0x100030)) } := by
  have hpair : pairHigh 0x100030 = none := by decide
  rw [State.pieceRead_shown s fn _ 0 4 hlive (by decide) s.hub.absentBlock_resPeak (s.hub.windowShows_unbound fn rfl (by decide)), wordBytes_all]
  simp only [State.readEffects, hpair, if_true, State.peakRead_hub]

theorem State.peakRead_selected {s : State} {kind index : Nat} (hsel : s.resSel = some (kind, index)) :
    s.peakRead = { s with fab := { s.fab with peaks := kvDel (kind * 65536 + s.hub.hwIndex kind index) s.fab.peaks } } := by
  rw [State.peakRead, hsel]

theorem State.peakRead_none {s : State} (hsel : s.resSel = none) : s.peakRead = s := by
  rw [State.peakRead, hsel]

/-- Which resource is selected does not depend on the captured halves. -/
theorem State.resSel_captured (s : State) (m : List (Nat × Word)) : State.resSel { s with hub := { s.hub with captured := m } } = s.resSel := rfl

/-- A read within one register is one access. -/
theorem State.busRead_within (s : State) (fn o b n : Nat) (h4 : o % 4 = 0) (hb : b + n ≤ 4) (hn : 0 < n) (hup : s.hub.pcieDown = false) :
    s.busRead fn (o + b) n = s.pieceRead fn o b n := by
  unfold State.busRead
  rw [accessParts_in o b n h4 hb hn, hup]
  rfl

/-- A read of NOW_FRAC captures the time for the reading function (R311). -/
theorem exec_nowFracRead {s : State} (fn : Nat) (hin : s.hub.hostIn = true) : exec (.nowFracRead fn) s =
    .next { s with hub := (s.hub.nowCapture fn).emit (.regRead fn 0x1B00010 (BitVec.ofNat 32 (s.hub.time.frac / 2 ^ 24))) } := by
  have harm : exec (.nowFracRead fn) s = execNowFracRead fn s := rfl
  rw [harm, execNowFracRead]
  simp [hin]

end Sys2Proof.Machine
end

section
/-! SETTLED. Register writes, shadow writes and the reads with effects (chapters 0, 4, 5 and 16). -/

namespace Sys2Proof.Machine

/-- Settles O8: a plain register's write sets the word of its access codes; which registers an access covers whole decides the rest. -/
theorem registerWrites : Obligations.RegisterWrites := by
  refine ⟨fun off val s hcanon hin h4 hplain hthere => ?plain, fun fn off size val s => ⟨fun hdown => ?down, fun hup => ⟨fun hnarrow => ?narrow,
    fun h4 => ?two, fun h4 => ?middle⟩, fun hdead hbell hup h4 => ?dead⟩⟩
  case plain =>
    obtain ⟨-, hshadow, hstuck, -, -⟩ := (plainReg_iff off).mp hplain
    have hoffer : (s.offer .pcie 4).canon := State.offer_canon _ _ _ hcanon
    refine ⟨_, (exec_regWrite ..).trans (congrArg _ (State.busWrite_plain val hin h4 hplain hthere)), fun i hi => ?_, fun k hk => ?_, ?_⟩
    · have hval : (val.setWidth 32).getLsbD i = val.getLsbD i := by simp [hi]
      have hself := State.plainWrite_rd_self hshadow hstuck hoffer 0 (val.setWidth 32)
      rw [keyFor_pf] at hself
      rw [hself, writtenWord_getLsbD _ _ _ hi, State.offer_hub, hval]
    · rw [State.plainWrite_rd_ne hshadow hstuck hoffer 0 _ (by rwa [keyFor_pf]), State.offer_hub]
    · have hframe := State.plainWrite_frame hshadow hstuck (s.offer .pcie 4) 0 (val.setWidth 32)
      rwa [State.offer_hub] at hframe
  case down => exact ⟨by rw [exec_regWrite, State.busWrite_down fn off size val hdown], exec_shadowWrite_down fn off size val hdown⟩
  case narrow =>
    rw [exec_regWrite, State.busWrite_up fn off size val hup, exec_shadowWrite_up fn off size val hup, wordWrites_narrow off size val hnarrow]
    exact ⟨rfl, rfl⟩
  case two =>
    rw [exec_regWrite, State.busWrite_up fn off 8 val hup, wordWrites_two off val h4]
    rfl
  case middle =>
    rw [exec_regWrite, State.busWrite_up fn off 8 val hup, wordWrites_middle off val h4]
    rfl
  case dead =>
    rw [exec_regWrite, State.busWrite_word s fn off val h4 hup, State.wordWrite_dead fn _ (by rwa [State.offer_hub]) hbell]

/-- Settles O9: the window takes the write, which sets the shadow's SH bits and adds one entry to the open set. -/
theorem shadowWriteJoinsOpenSet : Obligations.ShadowWriteJoinsOpenSet := by
  intro fn off val s hcanon hin hfn htakes h4 hshadow hthere
  have hexec := exec_shadowWrite_up fn off 4 val (Hub.hostIn_live hin).2
  rw [wordWrites_word off val h4, List.foldl_cons, List.foldl_nil, State.wordShadow_taken _ hin hfn htakes hshadow hthere] at hexec
  refine ⟨_, hexec, fun i hi => ?_, fun k hk => Hub.rdShadow_wrShadow_ne (State.canon_hub hcanon) _ _ _ hk, rfl, rfl⟩
  have hval : (val.setWidth 32).getLsbD i = val.getLsbD i := by simp [hi]
  rw [Hub.rdShadow_wrShadow_self (State.canon_hub hcanon), shadowWord_getLsbD _ _ _ hi, hval]

/-- Settles O12: RES_PEAK's read returns the peak and takes it out of the map of peaks; NOW_FRAC's read puts the three captured registers. -/
theorem readsWithEffects : Obligations.ReadsWithEffects := by
  refine ⟨fun fn s hin hfree hsorted => ⟨fun kind index hsel => ?selected, fun hsel => ?unselected, fun b n hb hn => ?narrow⟩, fun fn s hin => ?time⟩
  case selected =>
    have hlive := (Hub.hostIn_live hin).1
    have hexec := exec_rcFieldRead_word fn (off := 0x100030) hin (by decide)
    rw [State.pieceRead_resPeak s fn hlive, State.busValue_resPeak fn hlive hfree, State.resRegs_peak hsel, Option.getD_some] at hexec
    dsimp only at hexec
    rw [State.peakRead_selected ((s.resSel_captured _).trans hsel)] at hexec
    refine ⟨_, hexec, rfl, ?_, rfl⟩
    exact congrArg (Option.getD · 0) (kvGet_kvDel_self _ _ hsorted)
  case unselected =>
    have hlive := (Hub.hostIn_live hin).1
    have hexec := exec_rcFieldRead_word fn (off := 0x100030) hin (by decide)
    rw [State.pieceRead_resPeak s fn hlive, State.busValue_resPeak fn hlive hfree, State.resRegs_peak_none hsel, Option.getD_some] at hexec
    dsimp only at hexec
    rw [State.peakRead_none ((s.resSel_captured _).trans hsel)] at hexec
    exact ⟨_, hexec, rfl, rfl⟩
  case narrow =>
    refine ⟨_, congrArg Host.Outcome.next (s.busRead_within fn 0x100030 b n (by decide) hb hn (Hub.hostIn_live hin).2), s.pieceRead_out ..⟩
  case time =>
    have hkey : ∀ {a b : Nat}, a ≠ b → winKey fn a ≠ winKey fn b := winKey_ne
    refine ⟨_, exec_nowFracRead fn hin, ?_, ?_, ?_, rfl, rfl⟩
    · exact kvGet_kvPut_self _ _ _
    · exact (kvGet_kvPut_ne _ _ _ _ (hkey (by decide))).trans (kvGet_kvPut_self _ _ _)
    · exact (kvGet_kvPut_ne _ _ _ _ (hkey (by decide))).trans ((kvGet_kvPut_ne _ _ _ _ (hkey (by decide))).trans (kvGet_kvPut_self _ _ _))

end Sys2Proof.Machine
end

section
/-! SUPPORT. Filters on register maps, the clearing of stuck counters (R95), and the ring that LOG_SIZE names (R94). -/

namespace Sys2Proof.Machine

/-! ### Filters on canonical maps -/

/-- A filtered map finds what it kept. -/
theorem kvGet_filter {α : Type} (p : Nat × α → Bool) (m : List (Nat × α)) (k : Nat) (hs : kvSorted m = true) :
    kvGet k (m.filter p) = (kvGet k m).filter fun v => p (k, v) := by
  induction m with
  | nil => rfl
  | cons e t ih =>
    obtain ⟨j, w⟩ := e
    obtain ⟨habove, ht⟩ := (kvSorted_cons j w t).1 hs
    have hbelow : ∀ i, i ≤ j → kvGet i (t.filter p) = none := fun i hi =>
      kvGet_above i _ fun e he => Nat.lt_of_le_of_lt hi (habove e (List.mem_filter.1 he).1)
    rw [List.filter_cons]
    rcases Nat.lt_trichotomy k j with hlt | rfl | hgt
    · split <;> simp [kvGet, Nat.ne_of_gt hlt, hlt, hbelow k (Nat.le_of_lt hlt)]
    · split
      next hp => simp [kvGet, Option.filter, hp]
      next hp => simp [kvGet, Option.filter, hp, hbelow k (Nat.le_refl k)]
    · split <;> simp [kvGet, Nat.ne_of_lt hgt, Nat.not_lt_of_lt hgt, ih ht]

/-- A listed value that a filter keeps reads as before; what is not listed reads its default. -/
theorem kvRead_filter {α : Type} (d : Nat → α) (p : Nat × α → Bool) (m : List (Nat × α)) (k : Nat) (hs : kvSorted m = true) :
    kvRead d (m.filter p) k = if p (k, kvRead d m k) = true then kvRead d m k else d k := by
  unfold kvRead
  rw [kvGet_filter p m k hs]
  cases kvGet k m with
  | none => simp
  | some v => by_cases hp : p (k, v) = true <;> simp [Option.filter, hp]

/-! ### Stuck counters (R95) -/

/-- The registers that the CNT_STUCK event of `evt` covers: the error counters of its block. -/
def stuckCovers (evt k : Nat) : Bool :=
  decide ((stuckRange evt).1 ≤ k % 0x4000000 ∧ k % 0x4000000 < (stuckRange evt).2) &&
    (isCounter errCounters (k % 0x4000000) || isCounter keptCounters (k % 0x4000000))

theorem Hub.stuckClear_rd {h : Hub} (c : h.canon) (evt k : Nat) :
    (h.stuckClear evt).rd k = if stuckCovers evt k = true ∧ h.rd k = BitVec.allOnes 32 then regReset k else h.rd k := by
  have hregs : (h.stuckClear evt).regs = h.regs.filter fun e => !(stuckCovers evt e.1 && e.2 == BitVec.allOnes 32) := by
    simp only [Hub.stuckClear, stuckCovers, Bool.and_right_comm]
  rw [Hub.rd, hregs, kvRead_filter _ _ _ _ (Hub.sorted c)]
  change (if (!(stuckCovers evt k && h.rd k == BitVec.allOnes 32)) = true then h.rd k else regReset k) = _
  by_cases hcovers : stuckCovers evt k = true <;> by_cases hones : h.rd k = BitVec.allOnes 32
  · rw [hcovers, hones, if_neg (by decide), if_pos ⟨rfl, rfl⟩]
  all_goals rw [if_pos (by simp [-BitVec.reduceAllOnes, hcovers, hones]), if_neg (by simp [-BitVec.reduceAllOnes, hcovers, hones])]

theorem State.stuckClear_hub (s : State) (evt : Nat) : (s.stuckClear evt).hub = s.hub.stuckClear evt := by
  unfold State.stuckClear
  dsimp only
  split <;> rfl

theorem State.stuckClear_frame (s : State) (evt : Nat) :
    s.stuckClear evt = { s with hub := { s.hub with regs := (s.stuckClear evt).hub.regs }, cip := (s.stuckClear evt).cip } := by
  rw [State.stuckClear_hub]
  unfold State.stuckClear
  dsimp only
  split <;> rfl

/-- The CNT_STUCK events. -/
def stuckCodes : List Nat :=
  [0x0409, 0x0509, 0x0608, 0x0708, 0x080A, 0x0908, 0x0A09, 0x0B08, 0x0C0A, 0x0D09, 0x0E07, 0x0F04, 0x100B, 0x1106, 0x1209, 0x130D, 0x1404, 0x1507, 0x1607]

/-- The registers, by unit, in which the CNT_STUCK events are raised. -/
def stuckRegs : List Nat := stuckCodes.flatMap fun c => ((List.range 24).map (evtOff c)).eraseDups

/-- An event's registers stand together, or one window of 64 KB apart. -/
theorem evtOff_stride (code : Nat) : (∀ n, evtOff code n = evtOff code 0) ∨ ∀ n, evtOff code n = evtOff code 0 + 0x10000 * n := by
  unfold evtOff
  split <;> simp

theorem stuckRegs_of_stuckBit {off b : Nat} (h : stuckBit off = some b) : off ∈ stuckRegs := by
  obtain ⟨c, hfind, -⟩ := Option.map_eq_some_iff.mp h
  have hc : c ∈ stuckCodes := List.mem_of_find?_eq_some hfind
  have hevt := List.find?_some hfind
  simp only [decide_eq_true_eq] at hevt
  suffices h : ∃ n, n < 24 ∧ evtOff c n = off by
    obtain ⟨n, hn, rfl⟩ := h
    exact List.mem_flatMap.mpr ⟨c, hc, List.mem_eraseDups.mpr <| List.mem_map.mpr ⟨n, List.mem_range.mpr hn, rfl⟩⟩
  rcases hevt with hfirst | ⟨habove, hbelow, heq⟩
  · exact ⟨0, by decide, hfirst⟩
  · refine ⟨_, ?_, heq.symm⟩
    rcases evtOff_stride c with hs | hs
    · rw [hs 24] at hbelow
      omega
    · rw [hs 24] at hbelow
      omega

/-- An EVT register has no bits but W1C ones. -/
theorem accMask_of_stuckRegs : ∀ off ∈ stuckRegs, accMask .rw off = 0 ∧ accMask .w1s off = 0 ∧ accMask .sh off = 0 := by
  decide +kernel

/-- What a write of an EVT register leaves: the events not written as 1. -/
theorem writtenWord_of_stuckRegs {off : Nat} (hoff : off ∈ stuckRegs) (old val : Word) :
    writtenWord off old val = old &&& ~~~ (val &&& accMask .w1c off) := by
  obtain ⟨hrw, hw1s, -⟩ := accMask_of_stuckRegs off hoff
  refine BitVec.eq_of_getLsbD_eq fun i hi => ?_
  rw [writtenWord_getLsbD off old val hi, hrw, hw1s]
  simp [hi]

/-- The state of a W1C write of an EVT register before stuck counters are cleared. -/
def State.evtCleared (s : State) (off : Nat) (val : Word) : State :=
  if s.hub.rd off = s.hub.rd off &&& ~~~ (val &&& accMask .w1c off) then s
  else { s with hub := s.hub.wr off (s.hub.rd off &&& ~~~ (val &&& accMask .w1c off)) }

theorem State.evtCleared_canon {s : State} (c : s.canon) (off : Nat) (val : Word) : (s.evtCleared off val).canon := by
  unfold State.evtCleared
  split
  · exact c
  · obtain ⟨hhub, hmem⟩ := c
    exact ⟨Hub.wr_canon _ _ _ hhub, hmem⟩

theorem State.evtCleared_rd_self {s : State} (c : s.canon) (off : Nat) (val : Word) :
    (s.evtCleared off val).hub.rd off = s.hub.rd off &&& ~~~ (val &&& accMask .w1c off) := by
  unfold State.evtCleared
  split
  next h => exact h
  next => exact Hub.rd_wr_self (State.canon_hub c) _ _

theorem State.evtCleared_rd_ne {s : State} (c : s.canon) {off k : Nat} (val : Word) (hk : k ≠ off) : (s.evtCleared off val).hub.rd k = s.hub.rd k := by
  unfold State.evtCleared
  split
  · rfl
  · exact Hub.rd_wr_ne (State.canon_hub c) _ _ _ hk

theorem State.evtCleared_frame (s : State) (off : Nat) (val : Word) :
    s.evtCleared off val = { s with hub := { s.hub with regs := (s.evtCleared off val).hub.regs } } := by
  unfold State.evtCleared
  split <;> rfl

/-- A W1C write of an EVT register clears its events; with its CNT_STUCK bit among them, it clears the block's stuck counters too. -/
theorem exec_cntStuckClear {s : State} {off b : Nat} (val : Word) (hin : s.hub.hostIn = true) (hthere : s.hub.absentBlock off = false)
    (hbit : stuckBit off = some b) : exec (.cntStuckClear 0 off val) s =
      .next (if (val.getLsbD b && (accMask .w1c off).getLsbD b) = true then (s.evtCleared off val).stuckClear off else s.evtCleared off val) := by
  have harm : exec (.cntStuckClear 0 off val) s = execCntStuckClear 0 off val s := rfl
  have hoff := stuckRegs_of_stuckBit hbit
  have hreach : s.barLive ∧ 0 = 0 ∧ !s.hub.absentBlock off := ⟨hin, rfl, by rw [hthere]; rfl⟩
  have hword := writtenWord_of_stuckRegs hoff (s.hub.rd off) (val &&& accMask .w1c off)
  rw [BitVec.and_assoc, BitVec.and_self] at hword
  rw [harm, execCntStuckClear, if_pos hreach]
  simp only [State.plainWrite, State.shadowPut_none _ _ _ _ (accMask_of_stuckRegs off hoff).2.2, keyFor_pf, hbit, BitVec.getLsbD_and]
  rw [writtenWord] at hword
  rw [hword]
  rfl

/-! ### The event ring (R94) -/

/-- LOG_SIZE is a plain register, of which every function has its own copy. -/
theorem accMask_logSize : accMask .rw 0x200208 = 0x1F ∧ accMask .w1c 0x200208 = 0 ∧ accMask .w1s 0x200208 = 0 ∧ accMask .sh 0x200208 = 0 := by
  decide +kernel

theorem keyFor_logSize (fn : Nat) : keyFor fn 0x200208 = winKey fn 0x200208 := by
  rw [keyFor, if_pos (by decide)]

/-- A write of LOG_SIZE names the ring's size. -/
theorem logSize_writtenWord (old val : Word) : LCH.LOG_SIZE.LOG2.of (writtenWord 0x200208 old val) = LCH.LOG_SIZE.LOG2.of val := by
  obtain ⟨hrw, hw1c, hw1s, -⟩ := accMask_logSize
  refine Nat.eq_of_testBit_eq fun i => ?_
  rw [Fld.of_getLsbD, Fld.of_getLsbD]
  by_cases hi : i < LCH.LOG_SIZE.LOG2.width
  · have hi5 : i < 5 := hi
    have hin : (0x1F : Word).getLsbD (LCH.LOG_SIZE.LOG2.lo + i) = true := by
      have hall : ∀ j, j < 5 → (0x1F : Word).getLsbD j = true := by decide
      exact (Nat.zero_add i).symm ▸ hall i hi5
    rw [writtenWord_getLsbD _ _ _ (show LCH.LOG_SIZE.LOG2.lo + i < 32 from by rw [show LCH.LOG_SIZE.LOG2.lo = 0 from rfl]; omega), hrw, hw1c, hw1s, hin]
    simp
  · simp [hi]

theorem stuckBit_logSize : stuckBit 0x200208 = none := by decide

/-- Naming a ring is a plain write, after which a pending `LOG_LOST` record is written. -/
theorem exec_logSizeWrite {s : State} {fn : Nat} (val : Word) (hin : s.hub.hostIn = true) (hfn : fn < 64) : exec (.logSizeWrite fn val) s =
    .next { s.plainWrite fn 0x200208 val with hub := (s.plainWrite fn 0x200208 val).hub.logLostFlush fn } := by
  have harm : exec (.logSizeWrite fn val) s = execLogSizeWrite fn val s := rfl
  have hreach : s.barLive ∧ fn < 64 := ⟨hin, hfn⟩
  rw [harm, execLogSizeWrite, if_pos hreach, State.logWrite, if_pos rfl, if_neg (by decide)]

theorem State.logSizeWrite_frame (s : State) (fn : Nat) (val : Word) :
    s.plainWrite fn 0x200208 val = { s with hub := { s.hub with regs := (s.plainWrite fn 0x200208 val).hub.regs } } :=
  State.plainWrite_frame accMask_logSize.2.2.2 stuckBit_logSize s fn val

theorem State.logSizeWrite_rd {s : State} (c : s.canon) (fn : Nat) (val : Word) :
    LCH.LOG_SIZE.LOG2.of ((s.plainWrite fn 0x200208 val).hub.rd (winKey fn 0x200208)) = LCH.LOG_SIZE.LOG2.of val := by
  have hself := State.plainWrite_rd_self accMask_logSize.2.2.2 stuckBit_logSize c fn val
  rw [keyFor_logSize] at hself
  rw [hself, logSize_writtenWord]

theorem State.logSizeWrite_rd_ne {s : State} (c : s.canon) (fn : Nat) (val : Word) {k : Nat} (hk : k ≠ winKey fn 0x200208) :
    (s.plainWrite fn 0x200208 val).hub.rd k = s.hub.rd k :=
  State.plainWrite_rd_ne accMask_logSize.2.2.2 stuckBit_logSize c fn val (by rwa [keyFor_logSize])

/-- Without dropped records there is nothing to write of them. -/
theorem Hub.logLostFlush_none {h : Hub} {fn : Nat} (hdrop : kvGet fn h.logDropped = none) : h.logLostFlush fn = h := by
  unfold Hub.logLostFlush
  rw [hdrop]
  cases h.logSize fn <;> rfl

/-- log2 of the records in a named ring (Table 5.8). -/
def ringLog2 (n : Nat) : Nat := if n ≤ 5 then 6 else if n ≤ 20 then n else 20

theorem Hub.logSize_named {h : Hub} {fn : Nat} (hne : LCH.LOG_SIZE.LOG2.of (h.rd (winKey fn 0x200208)) ≠ 0) :
    h.logSize fn = some (ringLog2 (LCH.LOG_SIZE.LOG2.of (h.rd (winKey fn 0x200208)))) := by
  have hoff : winKey fn (LCH.LOG_SIZE.LOG2.off 0 0) = winKey fn 0x200208 := rfl
  rw [Hub.logSize, hoff]
  split
  · contradiction
  · rfl

theorem Hub.logPut_rd_prod {h : Hub} (c : h.canon) (fn lg : Nat) (rec : List Byte) :
    (h.logPut fn lg rec).rd (winKey fn 0x20020C) = h.rd (winKey fn 0x20020C) + 1 := by
  have hoff : winKey fn (LCH.LOG_PROD.PROD.off 0 0) = winKey fn 0x20020C := rfl
  rw [Hub.rd, Hub.logPut_regs, hoff, kvRead_kvWrite_self _ _ _ _ (Hub.sorted c)]
  refine BitVec.eq_of_toNat_eq ?_
  rw [BitVec.toNat_ofNat, BitVec.toNat_add]
  rfl

theorem Hub.logPut_rd_ne {h : Hub} (c : h.canon) (fn lg : Nat) (rec : List Byte) {k : Nat} (hk : k ≠ winKey fn 0x20020C) :
    (h.logPut fn lg rec).rd k = h.rd k := by
  rw [Hub.rd, Hub.logPut_regs]
  exact kvRead_kvWrite_ne _ _ _ _ _ (Hub.sorted c) hk

/-- Where the PCIe island is up, a record put stands at index PROD of the ring. -/
theorem Hub.logPut_hostMem {h : Hub} (fn lg : Nat) (rec : List Byte) (hup : h.pcieDown = false) : (h.logPut fn lg rec).hostMem =
    memWriteList h.hostMem ((h.rd (winKey fn 0x200200)).toNat / 4096 * 4096 + (h.rd (winKey fn 0x200204)).toNat * 2 ^ 32 +
      (h.rd (winKey fn 0x20020C)).toNat % 2 ^ lg * 32) rec := by
  simp only [Hub.logPut, hup]
  rfl

/-- Where records were dropped and a slot is free, the `LOG_LOST` record with their number is put (R94). -/
theorem Hub.logLostFlush_some {h : Hub} {fn lg n : Nat} (c : h.canon) (hsize : h.logSize fn = some lg) (hdrop : kvGet fn h.logDropped = some n)
    (hup : h.pcieDown = false) (hroom : (h.rd (winKey fn 0x20020C) - h.rd (winKey fn 0x200210)).toNat < 2 ^ lg - 1) :
    (h.logLostFlush fn).rd (winKey fn 0x20020C) = h.rd (winKey fn 0x20020C) + 1 ∧
      (∀ k, k ≠ winKey fn 0x20020C → (h.logLostFlush fn).rd k = h.rd k) ∧ (h.logLostFlush fn).logDropped = kvDel fn h.logDropped ∧
      (h.logLostFlush fn).hostMem = memWriteList h.hostMem ((h.rd (winKey fn 0x200200)).toNat / 4096 * 4096 +
        (h.rd (winKey fn 0x200204)).toNat * 2 ^ 32 + (h.rd (winKey fn 0x20020C)).toNat % 2 ^ lg * 32) (lostRecord h n) := by
  have hflush : h.logLostFlush fn = { h.logPut fn lg (lostRecord h n) with logDropped := kvDel fn h.logDropped } := by
    unfold Hub.logLostFlush
    rw [hsize, hdrop]
    exact if_pos hroom
  have hregs : (h.logLostFlush fn).regs = (h.logPut fn lg (lostRecord h n)).regs := by rw [hflush]
  have hmem : (h.logLostFlush fn).hostMem = (h.logPut fn lg (lostRecord h n)).hostMem := by rw [hflush]
  refine ⟨?_, fun k hk => ?_, by rw [hflush], ?_⟩
  · rw [Hub.rd_congr hregs, Hub.logPut_rd_prod c]
  · rw [Hub.rd_congr hregs, Hub.logPut_rd_ne c _ _ _ hk]
  · rw [hmem, Hub.logPut_hostMem fn lg _ hup]

end Sys2Proof.Machine
end

section
/-! SETTLED. Stuck counters and the event ring (chapter 5). -/

namespace Sys2Proof.Machine

/-- The W1C write of an EVT register, clause by clause (R95). -/
theorem cntStuckClear_clears {s : State} {off b : Nat} (val : Word) (hcanon : s.canon) (hin : s.hub.hostIn = true)
    (hthere : s.hub.absentBlock off = false) (hbit : stuckBit off = some b) :
    ∃ t, exec (.cntStuckClear 0 off val) s = .next t ∧
      (s.hub.rd off ≠ BitVec.allOnes 32 → ∀ i, i < 32 →
        (t.hub.rd off).getLsbD i = ((s.hub.rd off).getLsbD i && !(val.getLsbD i && (accMask .w1c off).getLsbD i))) ∧
      (val.getLsbD b = true → (accMask .w1c off).getLsbD b = true → ∀ k, regReset k = 0 → stuckCovers off k = true → k ≠ off →
        s.hub.rd k = BitVec.allOnes 32 → t.hub.rd k = 0) ∧
      (∀ k, k ≠ off → s.hub.rd k ≠ BitVec.allOnes 32 → t.hub.rd k = s.hub.rd k) ∧
      (val.getLsbD b = false → ∀ k, k ≠ off → t.hub.rd k = s.hub.rd k) ∧
      t = { s with hub := { s.hub with regs := t.hub.regs }, cip := t.cip } := by
  have hexec := exec_cntStuckClear val hin hthere hbit
  have hkeep := fun k (hk : k ≠ off) => State.evtCleared_rd_ne hcanon val hk
  have hself := State.evtCleared_rd_self hcanon off val
  have hframe := s.evtCleared_frame off val
  have hhub := State.canon_hub (State.evtCleared_canon hcanon off val)
  have hbits : ∀ i, i < 32 → (s.hub.rd off &&& ~~~ (val &&& accMask .w1c off)).getLsbD i =
      ((s.hub.rd off).getLsbD i && !(val.getLsbD i && (accMask .w1c off).getLsbD i)) := fun i hi => by
    rw [BitVec.getLsbD_and, BitVec.getLsbD_not, BitVec.getLsbD_and, decide_eq_true hi, Bool.true_and]
  cases hclear : val.getLsbD b && (accMask .w1c off).getLsbD b with
  | false =>
    rw [hclear, if_neg (by decide)] at hexec
    refine ⟨_, hexec, fun _ i hi => by rw [hself, hbits i hi], fun hval hmask => ?_, fun k hk _ => hkeep k hk, fun _ k hk => hkeep k hk, ?_⟩
    · rw [hval, hmask] at hclear
      cases hclear
    · rw [hframe]
  | true =>
    rw [hclear, if_pos rfl] at hexec
    have hrd := fun k => Hub.stuckClear_rd hhub off k
    rw [← State.stuckClear_hub] at hrd
    refine ⟨_, hexec, fun hne i hi => ?_, fun _ _ k hreset hcovers hk hones => ?_, fun k hk hne => ?_, fun hval => ?_, ?_⟩
    · have hstays : (s.evtCleared off val).hub.rd off ≠ BitVec.allOnes 32 := by
        intro hones
        refine hne (BitVec.eq_of_getLsbD_eq fun j hj => ?_)
        have hj1 := hbits j hj
        rw [← hself, hones, BitVec.getLsbD_allOnes, decide_eq_true hj] at hj1
        rw [BitVec.getLsbD_allOnes, decide_eq_true hj]
        exact (Bool.and_eq_true_iff.mp hj1.symm).1
      rw [hrd off, if_neg fun h => hstays h.2, hself, hbits i hi]
    · rw [hrd k, if_pos ⟨hcovers, (hkeep k hk).trans hones⟩, hreset]
    · rw [hrd k, hkeep k hk, if_neg fun h => hne h.2]
    · rw [hval] at hclear
      cases hclear
    · rw [State.stuckClear_frame, hframe]

/-- The LOG_SIZE write of a ring from which records were dropped, where a slot is free (R94). -/
theorem logSizeWrite_lost {s : State} {fn n : Nat} (val : Word) (hcanon : s.canon) (hin : s.hub.hostIn = true) (hfn : fn < 64)
    (hdrop : kvGet fn s.hub.logDropped = some n) (hnamed : LCH.LOG_SIZE.LOG2.of val ≠ 0)
    (hroom : (s.hub.rd (winKey fn 0x20020C) - s.hub.rd (winKey fn 0x200210)).toNat < 2 ^ ringLog2 (LCH.LOG_SIZE.LOG2.of val) - 1) :
    ∃ t, exec (.logSizeWrite fn val) s = .next t ∧ LCH.LOG_SIZE.LOG2.of (t.hub.rd (winKey fn 0x200208)) = LCH.LOG_SIZE.LOG2.of val ∧
      t.hub.rd (winKey fn 0x20020C) = s.hub.rd (winKey fn 0x20020C) + 1 ∧ t.hub.logDropped = kvDel fn s.hub.logDropped ∧
      t.hub.hostMem = memWriteList s.hub.hostMem ((s.hub.rd (winKey fn 0x200200)).toNat / 4096 * 4096 + (s.hub.rd (winKey fn 0x200204)).toNat * 2 ^ 32 +
          (s.hub.rd (winKey fn 0x20020C)).toNat % 2 ^ ringLog2 (LCH.LOG_SIZE.LOG2.of val) * 32)
        (recordBytes { code := 0x0508, detail := [min n 0xFFFFFFFF] } s.hub.time.sec s.hub.time.ns) ∧
      (∀ k, k ≠ winKey fn 0x200208 → k ≠ winKey fn 0x20020C → t.hub.rd k = s.hub.rd k) := by
  have hexec := exec_logSizeWrite val hin hfn
  have hkeep := fun k (hk : k ≠ winKey fn 0x200208) => State.logSizeWrite_rd_ne hcanon fn val hk
  have hsize := State.logSizeWrite_rd hcanon fn val
  have hc := State.canon_hub (State.plainWrite_canon s fn 0x200208 val hcanon)
  have hframe := congrArg State.hub (s.logSizeWrite_frame fn val)
  have hup := (Hub.hostIn_live hin).2
  generalize (s.plainWrite fn 0x200208 val) = s1 at hexec hkeep hsize hc hframe
  have hnamed1 : LCH.LOG_SIZE.LOG2.of (s1.hub.rd (winKey fn 0x200208)) ≠ 0 := by rwa [hsize]
  have hlg := Hub.logSize_named hnamed1
  rw [hsize] at hlg
  have hroom1 : (s1.hub.rd (winKey fn 0x20020C) - s1.hub.rd (winKey fn 0x200210)).toNat < 2 ^ ringLog2 (LCH.LOG_SIZE.LOG2.of val) - 1 := by
    rwa [hkeep _ (winKey_ne (by decide)), hkeep _ (winKey_ne (by decide))]
  obtain ⟨hprod, hne, hdropped, hmem⟩ := Hub.logLostFlush_some hc hlg (by rw [hframe]; exact hdrop) (by rw [hframe]; exact hup) hroom1
  refine ⟨_, hexec, ?_, ?_, ?_, ?_, fun k hk hprodKey => (hne k hprodKey).trans (hkeep k hk)⟩
  · rw [hne _ (winKey_ne (by decide)), hsize]
  · rw [hprod, hkeep _ (winKey_ne (by decide))]
  · rw [hdropped, hframe]
  · rw [hkeep _ (winKey_ne (by decide)), hkeep _ (winKey_ne (by decide)), hkeep _ (winKey_ne (by decide)), lostRecord] at hmem
    rw [hmem, hframe]

/-- Settles O13: an EVT register has W1C bits alone, the clearing filters the register map, and the ring's record goes where PROD points. -/
theorem countersAndLogRing : Obligations.CountersAndLogRing := by
  refine ⟨fun off b val s hcanon hin hthere hbit => ?stuck, fun fn val s hcanon hin hfn hdrop => ?named,
    fun fn n val s hcanon hin hfn hdrop hnamed => ?lost⟩
  case stuck =>
    obtain ⟨t, hexec, hevt, hzero, hothers⟩ := cntStuckClear_clears val hcanon hin hthere hbit
    refine ⟨t, hexec, hevt, fun hval hmask k hreset hlo hhi hcounter hk hones => ?_, hothers⟩
    exact hzero hval hmask k hreset (Bool.and_eq_true_iff.mpr ⟨decide_eq_true ⟨hlo, hhi⟩, hcounter⟩) hk hones
  case lost =>
    intro lg base hroom
    exact logSizeWrite_lost val hcanon hin hfn hdrop hnamed hroom
  case named =>
    have hframe := s.logSizeWrite_frame fn val
    have hexec := exec_logSizeWrite val hin hfn
    rw [Hub.logLostFlush_none (by rw [hframe]; exact hdrop)] at hexec
    exact ⟨_, hexec, State.logSizeWrite_rd hcanon fn val, fun k hk => State.logSizeWrite_rd_ne hcanon fn val hk, hframe⟩

end Sys2Proof.Machine
end

section
/-! SUPPORT. What raising events, writing records and counting errors leave of the hub: everything but registers, the event logs with their signals, and
what has left the device (R93–R95). -/

namespace Sys2Proof.Machine

/-- The part of the hub that no event and no counter touches: its maps but the registers, its clock, its link to the host and its queues. -/
def Hub.still (h : Hub) : (List (Nat × Word) × List (Nat × Word) × List (Nat × Word)) × (Time × Nat × BarMode × Bool × Bool) ×
    (Nat × List (Nat × Fifo) × List (Nat × List CmdSlot) × List (Nat × Instr) × List Nat × List Nat × List Nat × List (Nat × Nat)) × Nat :=
  ((h.shadow, h.pub, h.captured), (h.time, h.ticks, h.bar, h.linkLost, h.pcieDown),
    (h.numVfs, h.fifos, h.cmds, h.posted, h.orphans, h.qpFired, h.qpPend, h.heldDb), h.free)

theorem Hub.still_mk (regs shadow pub captured time ticks bar rl msiFired msiPend logDropped numVfs fifos cmds posted orphans qpFired qpPend hostMem heldDb
    linkLost pcieDown pcieDiscards out free) :
    Hub.still ⟨regs, shadow, pub, captured, time, ticks, bar, rl, msiFired, msiPend, logDropped, numVfs, fifos, cmds, posted, orphans, qpFired, qpPend, hostMem,
      heldDb, linkLost, pcieDown, pcieDiscards, out, free⟩ = ((shadow, pub, captured), (time, ticks, bar, linkLost, pcieDown),
        (numVfs, fifos, cmds, posted, orphans, qpFired, qpPend, heldDb), free) := Eq.trans rfl rfl

theorem Hub.still_fold (h : Hub) : ((h.shadow, h.pub, h.captured), (h.time, h.ticks, h.bar, h.linkLost, h.pcieDown),
    (h.numVfs, h.fifos, h.cmds, h.posted, h.orphans, h.qpFired, h.qpPend, h.heldDb), h.free) = h.still := Eq.trans rfl rfl

@[simp] theorem Hub.wr_still (h : Hub) (k : Nat) (v : Word) : (h.wr k v).still = h.still := rfl
@[simp] theorem Hub.set_still (h : Hub) (f : Fld) (v : Nat) : (h.set f v).still = h.still := rfl
@[simp] theorem Hub.set1_still (h : Hub) (f : Fld) (i v : Nat) : (h.set1 f i v).still = h.still := rfl
@[simp] theorem Hub.set64_still (h : Hub) (f : Fld) (i v : Nat) : (h.set64 f i v).still = h.still := rfl
@[simp] theorem Hub.emit_still (h : Hub) (m : OutMsg) : (h.emit m).still = h.still := rfl
@[simp] theorem Hub.evtSet_still (h : Hub) (code inst : Nat) : (h.evtSet code inst).still = h.still := rfl
@[simp] theorem Hub.logPut_still (h : Hub) (fn lg : Nat) (rec : List Byte) : (h.logPut fn lg rec).still = h.still := by
  simp only [Hub.logPut, Hub.still_mk, Hub.still_fold]

@[simp] theorem Hub.msi_still (h : Hub) (fn vec : Nat) : (h.msi fn vec).still = h.still := by
  unfold Hub.msi
  split <;> rfl

@[simp] theorem Hub.route_still (h : Hub) (fn block : Nat) : (h.route fn block).still = h.still := by
  unfold Hub.route
  extract_lets w tgt
  split
  · exact Hub.msi_still ..
  · rfl

@[simp] theorem Hub.logLostFlush_still (h : Hub) (fn : Nat) : (h.logLostFlush fn).still = h.still := by
  unfold Hub.logLostFlush
  split
  next lg n _ _ =>
    dsimp only
    split
    · have hput := h.logPut_still fn lg (lostRecord h n)
      rw [← Hub.still_fold] at hput
      rw [Hub.still_mk, hput]
    · rfl
  next => rfl

@[simp] theorem Hub.logDrop_still (h : Hub) (fn : Nat) : (h.logDrop fn).still = h.still := by
  unfold Hub.logDrop
  extract_lets n k c h1 h2
  have h2still : h2.still = h.still := by
    simp only [h2]
    split
    · simp only [h1, Hub.still_mk, Hub.still_fold]
    · simp only [h1, Hub.wr, Hub.still_mk, Hub.still_fold]
  clear_value h2
  split
  · split <;> simp [h2still]
  · exact h2still

@[simp] theorem Hub.logPlace_still (h : Hub) (fn : Nat) (ev : Ev) (sec ns : Nat) : (h.logPlace fn ev sec ns).still = h.still := by
  unfold Hub.logPlace
  split
  · exact Hub.logDrop_still ..
  · dsimp only
    split <;> simp

@[simp] theorem Hub.lchStuck_still (h : Hub) : h.lchStuck.still = h.still := by
  unfold Hub.lchStuck
  dsimp only
  split <;> simp

@[simp] theorem Hub.logAppend_still (h : Hub) (fn : Nat) (ev : Ev) (sec ns : Nat) : (h.logAppend fn ev sec ns).still = h.still := by
  unfold Hub.logAppend
  extract_lets h1
  have h1still : h1.still = h.still := by simp [h1]
  clear_value h1
  split
  · rw [Hub.lchStuck_still, h1still]
  · exact h1still

@[simp] theorem Hub.record_still (h : Hub) (ev : Ev) (sec ns : Nat) : (h.record ev sec ns).still = h.still := by
  unfold Hub.record
  extract_lets h1 v
  have h1still : h1.still = h.still := by simp [h1]
  clear_value h1
  split
  · exact h1still
  · rw [Hub.logAppend_still, h1still]

@[simp] theorem Hub.raise_still (h : Hub) (ev : Ev) : (h.raise ev).still = h.still := by
  unfold Hub.raise
  split
  · split <;> simp
  · rfl

@[simp] theorem Hub.raiseRl_still (h : Hub) (ev : Ev) : (h.raiseRl ev).still = h.still := by
  unfold Hub.raiseRl
  split
  · dsimp only
    split <;> rfl
  · rfl

@[simp] theorem Hub.err2_still (h : Hub) (f : Fld) (i j stuck inst : Nat) : (h.err2 f i j stuck inst).still = h.still := by
  unfold Hub.err2
  dsimp only
  split
  · rfl
  · split <;> simp

@[simp] theorem Hub.err_still (h : Hub) (f : Fld) (i stuck inst : Nat) : (h.err f i stuck inst).still = h.still := Hub.err2_still ..

/-! ### Writes of registers change registers alone -/

theorem Hub.wr_frame (h : Hub) (k : Nat) (v : Word) : h.wr k v = { h with regs := (h.wr k v).regs } := rfl
theorem Hub.set_frame (h : Hub) (f : Fld) (v : Nat) : h.set f v = { h with regs := (h.set f v).regs } := rfl
theorem Hub.set1_frame (h : Hub) (f : Fld) (i v : Nat) : h.set1 f i v = { h with regs := (h.set1 f i v).regs } := rfl
theorem Hub.set64_frame (h : Hub) (f : Fld) (i v : Nat) : h.set64 f i v = { h with regs := (h.set64 f i v).regs } := rfl

/-- The state with another hub. -/
def State.withHub (s : State) (h : Hub) : State := { s with hub := h }

/-! ### The clock and the bus beside events -/

theorem Hub.time_of_still {a b : Hub} (h : a.still = b.still) : a.time = b.time := congrArg (·.2.1.1) h
theorem Hub.ticks_of_still {a b : Hub} (h : a.still = b.still) : a.ticks = b.ticks := congrArg (·.2.1.2.1) h
theorem Hub.bar_of_still {a b : Hub} (h : a.still = b.still) : a.bar = b.bar := congrArg (·.2.1.2.2.1) h
theorem Hub.pcieDown_of_still {a b : Hub} (h : a.still = b.still) : a.pcieDown = b.pcieDown := congrArg (·.2.1.2.2.2.2) h

@[simp] theorem Hub.raise_time (h : Hub) (ev : Ev) : (h.raise ev).time = h.time := Hub.time_of_still (h.raise_still ev)
@[simp] theorem Hub.raise_ticks (h : Hub) (ev : Ev) : (h.raise ev).ticks = h.ticks := Hub.ticks_of_still (h.raise_still ev)
@[simp] theorem Hub.raise_elapsed (h : Hub) (ev : Ev) : (h.raise ev).elapsed = h.elapsed := by simp [Hub.elapsed]
@[simp] theorem Hub.raise_bar (h : Hub) (ev : Ev) : (h.raise ev).bar = h.bar := Hub.bar_of_still (h.raise_still ev)
@[simp] theorem Hub.raise_pcieDown (h : Hub) (ev : Ev) : (h.raise ev).pcieDown = h.pcieDown := Hub.pcieDown_of_still (h.raise_still ev)
@[simp] theorem Hub.err_time (h : Hub) (f : Fld) (i stuck inst : Nat) : (h.err f i stuck inst).time = h.time := Hub.time_of_still (Hub.err_still ..)
@[simp] theorem Hub.err_ticks (h : Hub) (f : Fld) (i stuck inst : Nat) : (h.err f i stuck inst).ticks = h.ticks := Hub.ticks_of_still (Hub.err_still ..)
@[simp] theorem Hub.err_pcieDown (h : Hub) (f : Fld) (i stuck inst : Nat) : (h.err f i stuck inst).pcieDown = h.pcieDown :=
  Hub.pcieDown_of_still (Hub.err_still ..)

end Sys2Proof.Machine
end

section
/-! SUPPORT. Louvre boundaries: the time of the next one, what a period's end and a boundary leave alone, and the step of the counter (R58, R59, R89,
R310, R417). -/

namespace Sys2Proof.Machine

/-! ### The time at which a period begins -/

/-- The next period begins less than 2^48 s after the epoch. -/
theorem Time.ofPeriod_total {p : Nat} (h : p / 8000 < 2 ^ 48) : (Time.ofPeriod p).total = p * 125000 := by
  simp only [Time.ofPeriod, Time.total, Nat.mod_eq_of_lt h]
  omega

theorem Time.ofPeriod_period {p : Nat} (h : p / 8000 < 2 ^ 48) : (Time.ofPeriod p).period = p := by
  simp only [Time.ofPeriod, Time.period, Nat.mod_eq_of_lt h]
  omega

/-- A period's time lies before the next one's. -/
theorem Time.total_lt (t : Time) : t.total < (t.period + 1) * 125000 := by
  simp only [Time.total, Time.period]
  omega

theorem Time.next_period {t : Time} (hns : t.ns < 1000000000) (hsec : t.sec + 1 < 2 ^ 48) : (t.period + 1) / 8000 < 2 ^ 48 := by
  simp only [Time.period]
  omega

/-- Where the counter runs in the period counted, it reaches the next multiple of 125,000 ns. -/
theorem State.toBoundary_eq {s : State} (h : s.fab.period = s.hub.time.period) : s.toBoundary = { s with hub := { s.hub with
    time := Time.ofPeriod (s.fab.period + 1), ticks := s.hub.ticks + ((s.fab.period + 1) * 125000 - s.hub.time.total) / 8 } } := by
  have hlt : s.hub.time.total < (s.fab.period + 1) * 125000 := by
    rw [h]
    exact Time.total_lt _
  simp only [State.toBoundary, h, Nat.lt_irrefl, if_false]
  rw [if_pos (h ▸ hlt)]

/-! ### The period that ends -/

theorem State.periodEnds_not_granting {s : State} (h : s.granting = false) : s.periodEnds = s := by
  simp [State.periodEnds, h]

/-- Without held requests no sash has starved. -/
theorem State.periodEnds_none_held {s : State} (h : s.fab.held = []) : s.periodEnds = s := by
  simp [State.periodEnds, FabSt.heldWithTokens, h, List.eraseDups_nil]

theorem State.granting_frozen {s : State} (h : s.hub.get GLB.STATUS.FROZEN = 1) : s.granting = false := by
  simp [State.granting, h]

/-! ### The boundary -/

theorem exec_louvreBoundary {s : State} (sensors : List (Nat × Int)) (halive : s.alive = true) :
    exec (.louvreBoundary sensors) s = .next (s.periodEnds.toBoundary.boundary false (some sensors)) := by
  have harm : exec (.louvreBoundary sensors) s = execLouvreBoundary sensors s := rfl
  rw [harm, execLouvreBoundary, if_neg (by simp [halive])]

theorem State.boundary_frozen {s : State} (step : Bool) (sensors : Option (List (Nat × Int))) (h : s.hub.get GLB.STATUS.FROZEN = 1) :
    s.boundary step sensors = { s with fab := { s.fab with period := s.hub.time.period }, dbt := { s.dbt with missed := s.dbt.missed + 1 } } := by
  rw [State.boundary, if_pos h]

theorem State.boundary_open {s : State} (step : Bool) (sensors : Option (List (Nat × Int))) (h : s.hub.get GLB.STATUS.FROZEN ≠ 1) :
    s.boundary step sensors = if (s.periodBegins s.hub.time.period).serving then (s.periodBegins s.hub.time.period).boundaryWork step sensors
      else ((s.periodBegins s.hub.time.period).boundaryLatches step).loadWaits.secondEnds := by
  rw [State.boundary, if_neg h]

/-- A key that a map lists stays listed when another is taken out. -/
theorem kvGet_kvDel_some {α : Type} {j k : Nat} (v : α) (m : List (Nat × α)) (hjk : j ≠ k) (h : kvGet j m = some v) : kvGet j (kvDel k m) = some v := by
  induction m with
  | nil => cases h
  | cons e t ih =>
    obtain ⟨i, w⟩ := e
    simp only [kvDel]
    simp only [kvGet] at h
    split
    · simp only [kvGet]
      split
      next hij => rwa [if_pos hij] at h
      next hij =>
        rw [if_neg hij] at h
        split
        next hlt =>
          rw [if_pos hlt] at h
          cases h
        next hlt =>
          rw [if_neg hlt] at h
          exact ih h
    · split
      next hik =>
        have hij : i ≠ j := fun e => hjk (e ▸ hik)
        rw [if_neg hij] at h
        split at h
        · cases h
        · exact h
      · simpa only [kvGet] using h

/-- A value listed at one key stays there when another key is written. -/
theorem kvGet_kvWrite_some {α : Type} [DecidableEq α] (d : Nat → α) {j k : Nat} (v w : α) (m : List (Nat × α)) (hjk : j ≠ k) (h : kvGet j m = some v) :
    kvGet j (kvWrite d m k w) = some v := by
  unfold kvWrite
  split
  · exact kvGet_kvDel_some v m hjk h
  · rw [kvGet_kvPut_ne k j w m hjk, h]

/-- Is the core ready to serve: a field that reads 1 is listed, as it resets to 0. -/
theorem Hub.ready_listed {h : Hub} (hready : h.get GLB.STATUS.READY = 1) : ∃ v, kvGet 0x10 h.regs = some v ∧ GLB.STATUS.READY.of v = 1 := by
  cases hget : kvGet 0x10 h.regs with
  | none =>
    have hreset : h.get GLB.STATUS.READY = GLB.STATUS.READY.of (regReset 0x10) := by
      change GLB.STATUS.READY.of ((kvGet 0x10 h.regs).getD (regReset 0x10)) = _
      rw [hget, Option.getD_none]
    rw [hreset] at hready
    exact absurd hready (by decide +kernel)
  | some v =>
    refine ⟨v, rfl, ?_⟩
    change GLB.STATUS.READY.of ((kvGet 0x10 h.regs).getD (regReset 0x10)) = 1 at hready
    rwa [hget, Option.getD_some] at hready

/-- The count of a period does not end READY. -/
theorem Hub.ready_set64_period {h : Hub} (p : Nat) (hready : h.get GLB.STATUS.READY = 1) : (h.set64 LVR.PERIOD_LO.PERIOD 0 p).get GLB.STATUS.READY = 1 := by
  obtain ⟨v, hv, hone⟩ := Hub.ready_listed hready
  have hlisted : kvGet 0x10 (h.set64 LVR.PERIOD_LO.PERIOD 0 p).regs = some v :=
    kvGet_kvWrite_some regReset v _ _ (by decide) (kvGet_kvWrite_some regReset v _ _ (by decide) hv)
  change GLB.STATUS.READY.of ((kvGet 0x10 (h.set64 LVR.PERIOD_LO.PERIOD 0 p).regs).getD (regReset 0x10)) = 1
  rw [hlisted, Option.getD_some, hone]

/-- Setting a 64-bit pair leaves every other register. -/
theorem Hub.rd_set64_ne {h : Hub} (c : h.canon) (f : Fld) (i v : Nat) {k : Nat} (hlo : k ≠ f.off i 0) (hhi : k ≠ f.off i 0 + 4) :
    (h.set64 f i v).rd k = h.rd k := by
  rw [Hub.set64, Hub.rd_wr_ne (Hub.wr_canon _ _ _ c) _ _ _ hhi, Hub.rd_wr_ne c _ _ _ hlo]

/-- A 64-bit pair reads as set. -/
theorem Hub.get64_set64 {h : Hub} (c : h.canon) (f : Fld) (i : Nat) {v : Nat} (hv : v < 2 ^ 64) : (h.set64 f i v).get64 f i = v := by
  have hlo : (h.set64 f i v).rd (f.off i 0) = BitVec.ofNat 32 v := by
    rw [Hub.set64, Hub.rd_wr_ne (Hub.wr_canon _ _ _ c) _ _ _ (by omega), Hub.rd_wr_self c]
  have hhi : (h.set64 f i v).rd (f.off i 0 + 4) = BitVec.ofNat 32 (v / 2 ^ 32) := by
    rw [Hub.set64, Hub.rd_wr_self (Hub.wr_canon _ _ _ c)]
  rw [Hub.get64, hlo, hhi, BitVec.toNat_ofNat, BitVec.toNat_ofNat]
  omega

/-- A core in service stays in service as its next period begins, and one closed stays closed. -/
theorem State.serving_periodBegins {s : State} (p : Nat) (h : s.serving = true) : (s.periodBegins p).serving = true := by
  simp only [State.serving, Bool.or_eq_true, Bool.not_eq_true', beq_iff_eq] at h ⊢
  exact h.imp id (Hub.ready_set64_period p)

theorem State.serving_periodBegins_canon {s : State} (c : s.canon) (p : Nat) : (s.periodBegins p).serving = s.serving := by
  have hready : (s.hub.set64 LVR.PERIOD_LO.PERIOD 0 p).get GLB.STATUS.READY = s.hub.get GLB.STATUS.READY :=
    Hub.get_of_rd _ (Hub.rd_set64_ne (State.canon_hub c) _ _ _ (by decide) (by decide))
  simp only [State.serving, State.periodBegins, hready]

/-! ### The step of the counter (R310) -/

@[simp] theorem State.tevRise_time (s : State) (n : Nat) : (s.tevRise n).hub.time = s.hub.time := by
  unfold State.tevRise
  dsimp only
  split
  · rfl
  · dsimp only
    split <;> rfl

theorem State.tevAfterStep_time (s : State) : s.tevAfterStep.hub.time = s.hub.time := by
  unfold State.tevAfterStep
  refine List.foldlRecOn (motive := fun a : State => a.hub.time = s.hub.time) _ _ rfl fun a ha n _ => ?_
  split
  · split
    · rw [State.tevRise_time, ha]
    · exact ha
  · exact ha

theorem State.counterStep_time (s : State) (neg : Bool) :
    (s.counterStep neg).hub.time = s.hub.time.step (s.hub.get TIM.STEP_SEC.SEC) (s.hub.get TIM.STEP_NS.NS) neg := by
  rw [State.counterStep, State.tevAfterStep_time]
  exact Hub.raise_time _ _

end Sys2Proof.Machine
end

section
/-! SETTLED. Louvre boundaries, publications and steps of the counter (chapters 4, 5 and 16). -/

namespace Sys2Proof.Machine

/-- The boundary of a device that is alive, whose counter runs in the period counted (R58, R391, R417). -/
theorem louvreBoundary_counts (sensors : List (Nat × Int)) {s : State} (halive : s.alive = true) (hperiod : s.fab.period = s.hub.time.period)
    (hns : s.hub.time.ns < 1000000000) (hsec : s.hub.time.sec + 1 < 2 ^ 48) :
    (s.hub.get GLB.STATUS.FROZEN = 1 →
       ∃ t, exec (.louvreBoundary sensors) s = .next t ∧ t.hub.time.total = (s.fab.period + 1) * 125000 ∧ t.hub.time.frac = 0 ∧
         t.fab.period = s.fab.period + 1 ∧ t.dbt.missed = s.dbt.missed + 1 ∧ t.hub.regs = s.hub.regs ∧ t.fab.counters = s.fab.counters ∧ t.mem = s.mem) ∧
    (s.hub.get GLB.STATUS.FROZEN ≠ 1 → s.fab.held = [] →
       ∃ u : State, u.hub.time.total = (s.fab.period + 1) * 125000 ∧ u.hub.time.frac = 0 ∧ u.fab.period = s.fab.period + 1 ∧
         u.fab.boundaries = s.fab.boundaries + 1 ∧ u = { s with hub := u.hub, fab := u.fab } ∧
         (s.serving = true → exec (.louvreBoundary sensors) s = .next (u.boundaryWork false (some sensors))) ∧
         (s.canon → s.serving = false → exec (.louvreBoundary sensors) s = .next ((u.boundaryLatches false).loadWaits.secondEnds))) := by
  have hsmall : (s.fab.period + 1) / 8000 < 2 ^ 48 := hperiod ▸ Time.next_period hns hsec
  have hexec := exec_louvreBoundary sensors halive
  have hto := State.toBoundary_eq hperiod
  have htotal := Time.ofPeriod_total hsmall
  have hcount := Time.ofPeriod_period hsmall
  refine ⟨fun hfrozen => ?_, fun hopen hheld => ?_⟩
  · rw [State.periodEnds_not_granting (State.granting_frozen hfrozen), State.boundary_frozen false (some sensors) (by rw [hto]; exact hfrozen),
      hto] at hexec
    exact ⟨_, hexec, htotal, rfl, hcount, rfl, rfl, rfl, rfl⟩
  · rw [State.periodEnds_none_held hheld, State.boundary_open false (some sensors) (by rw [hto]; exact hopen)] at hexec
    refine ⟨s.toBoundary.periodBegins s.toBoundary.hub.time.period, ?_, ?_, ?_, ?_, ?_, fun hserving => ?_, fun hcanon hclosed => ?_⟩
    · rw [hto]
      exact htotal
    · rw [hto]
      rfl
    · rw [hto]
      exact hcount
    · rw [hto]
      rfl
    · rw [hto]
      rfl
    · rw [State.serving_periodBegins _ (by rw [hto]; exact hserving), if_pos rfl] at hexec
      exact hexec
    · have hto_serving : s.toBoundary.serving = false := by
        rw [hto]
        exact hclosed
      rw [State.serving_periodBegins_canon (State.toBoundary_canon s hcanon), hto_serving, if_neg (by decide)] at hexec
      exact hexec

/-- The end of a publication makes the generation even (R89). -/
theorem publicationDone_even (s : State) :
    (s.canon → s.granting = true → s.hub.get64 LCH.PUB_GEN_LO.GEN 0 % 2 = 1 → s.hub.get64 LCH.PUB_GEN_LO.GEN 0 + 1 < 2 ^ 64 →
       ∃ t, exec .publicationDone s = .next t ∧ t.hub.get64 LCH.PUB_GEN_LO.GEN 0 = s.hub.get64 LCH.PUB_GEN_LO.GEN 0 + 1 ∧
         (∀ k, k ≠ 0x200050 → k ≠ 0x200054 → t.hub.rd k = s.hub.rd k) ∧ t = { s with hub := { s.hub with regs := t.hub.regs } }) ∧
    (s.granting = false ∨ s.hub.get64 LCH.PUB_GEN_LO.GEN 0 % 2 = 0 → exec .publicationDone s = .next s) := by
  have harm : exec .publicationDone s = .next (if s.granting then s.published else s) := rfl
  refine ⟨fun hcanon hgrant hodd hsmall => ?_, fun hstays => ?_⟩
  · have hpub : s.published = { s with hub := s.hub.set64 LCH.PUB_GEN_LO.GEN 0 (s.hub.get64 LCH.PUB_GEN_LO.GEN 0 + 1) } := by
      rw [State.published, if_pos hodd]
    have hhub := State.canon_hub hcanon
    have hoff : LCH.PUB_GEN_LO.GEN.off 0 0 = 0x200050 := by decide
    refine ⟨s.published, by rw [harm, if_pos hgrant], ?_, fun k hlo hhi => ?_, ?_⟩
    · rw [hpub]
      exact Hub.get64_set64 hhub _ _ hsmall
    · rw [hpub]
      exact Hub.rd_set64_ne hhub _ _ _ (by rwa [hoff]) (by rwa [hoff])
    · rw [hpub]
      exact congrArg s.withHub (Hub.set64_frame ..)
  · rw [harm]
    rcases hstays with hgrant | heven
    · rw [if_neg (by simp [hgrant])]
    · have hpub : s.published = s := by rw [State.published, if_neg (by omega)]
      rw [hpub, ite_self]

/-- A write of STEP_CMD (R59, R310). -/
theorem timeStep_steps (val : Word) (s : State) :
    (s.hub.hostIn = false ∨ TIM.STEP_CMD.GO.of val = 0 → exec (.timeStep val) s = .next s) ∧
    (s.hub.hostIn = true → TIM.STEP_CMD.GO.of val = 1 → s.fab.held = [] →
     ∃ u : State, exec (.timeStep val) s = .next ((u.boundary true none).gclDue) ∧
       u = { s.counterStep (TIM.STEP_CMD.NEG.of val == 1) with
         hub := ((s.counterStep (TIM.STEP_CMD.NEG.of val == 1)).hub.err LVR.REALIGN.COUNT 0 0x0409 0).raise { code := 0x0405 } } ∧
       u.hub.time = s.hub.time.step (s.hub.get TIM.STEP_SEC.SEC) (s.hub.get TIM.STEP_NS.NS) (TIM.STEP_CMD.NEG.of val == 1)) := by
  have harm : exec (.timeStep val) s = execTimeStep val s := rfl
  rw [harm, execTimeStep]
  refine ⟨fun hnothing => ?_, fun hin hgo hheld => ⟨_, ?_, rfl, ?_⟩⟩
  · rw [if_pos (hnothing.imp (fun h => by rw [h]; rfl) id)]
  · rw [if_neg (by simp [hin, hgo]), State.periodEnds_none_held hheld]
  · dsimp only
    rw [Hub.raise_time, Hub.err_time, State.counterStep_time]

/-- Settles O22: the boundary, the publication's end and the step of the counter, each in its own lemma. -/
theorem louvreBoundaries : Obligations.LouvreBoundaries := by
  refine ⟨⟨fun sensors s hdead => ?_, fun sensors s => louvreBoundary_counts sensors⟩, publicationDone_even, fun val s => (timeStep_steps val s).1,
    fun val s => (timeStep_steps val s).2⟩
  have harm : exec (.louvreBoundary sensors) s = execLouvreBoundary sensors s := rfl
  rw [harm, execLouvreBoundary, if_pos (by simp [hdead])]

end Sys2Proof.Machine
end

section
/-! SUPPORT. Commits: what accepting a Latch records, and what a commit of each mode seals (R78, R81–R83). -/

namespace Sys2Proof.Machine

/-- Writes of registers follow each other. -/
theorem Hub.regs_frame_trans {a b c : Hub} (hb : b = { a with regs := b.regs }) (hc : c = { b with regs := c.regs }) : c = { a with regs := c.regs } := by
  rw [hc, hb]

/-- The Latch as it is accepted: with the next number and the time. -/
def State.accepted (s : State) (l : Latch) : Latch := { l with num := s.hub.get64 LCH.ACCEPTED_LO.NUM 0 + 1, acc := s.hub.elapsed }

theorem State.latchStatus_frame (s : State) : s.latchStatus.hub = { s.hub with regs := s.latchStatus.hub.regs } :=
  Hub.regs_frame_trans (Hub.set_frame ..) (Hub.set_frame ..)

theorem State.latchStatus_lch (s : State) : s.latchStatus.lch = s.lch := rfl

theorem State.latchAccept_frame (s : State) (l : Latch) : s.latchAccept l = { s with
    hub := { s.hub with regs := (s.latchAccept l).hub.regs }, lch := { s.lch with pend := s.lch.pend ++ [s.accepted l] } } := by
  have hhub : (s.latchAccept l).hub = { s.hub with regs := (s.latchAccept l).hub.regs } :=
    Hub.regs_frame_trans (Hub.set64_frame ..) (State.latchStatus_frame _)
  rw [← hhub]
  rfl

theorem State.latchAccept_pend (s : State) (l : Latch) : (s.latchAccept l).lch.pend = s.lch.pend ++ [s.accepted l] := rfl

/-- The status of the Latches stands in `LCH.STATUS` alone. -/
theorem State.latchStatus_rd {s : State} (c : s.canon) {k : Nat} (hk : k ≠ 0x200000) : s.latchStatus.hub.rd k = s.hub.rd k := by
  unfold State.latchStatus
  have hhub := State.canon_hub c
  exact (Hub.rd_set2_ne (Hub.set_canon _ _ _ hhub) _ _ _ _ _ hk).trans (Hub.rd_set2_ne hhub _ _ _ _ _ hk)

theorem Hub.get64_of_rd {a b : Hub} (f : Fld) (i : Nat) (hlo : a.rd (f.off i 0) = b.rd (f.off i 0)) (hhi : a.rd (f.off i 0 + 4) = b.rd (f.off i 0 + 4)) :
    a.get64 f i = b.get64 f i := by
  rw [Hub.get64, Hub.get64, hlo, hhi]

/-- The number of the Latch accepted last. -/
theorem State.latchAccept_num {s : State} (c : s.canon) (l : Latch) (hsmall : s.hub.get64 LCH.ACCEPTED_LO.NUM 0 + 1 < 2 ^ 64) :
    (s.latchAccept l).hub.get64 LCH.ACCEPTED_LO.NUM 0 = s.hub.get64 LCH.ACCEPTED_LO.NUM 0 + 1 := by
  have hhub := State.canon_hub c
  have hcanon : ({ s with
      hub := s.hub.set64 LCH.ACCEPTED_LO.NUM 0 (s.hub.get64 LCH.ACCEPTED_LO.NUM 0 + 1)
      lch := { s.lch with pend := s.lch.pend ++ [s.accepted l] } } : State).canon := ⟨Hub.set64_canon _ _ _ _ hhub, (State.canon_mem c : s.mem.canon)⟩
  have hsame := Hub.get64_of_rd LCH.ACCEPTED_LO.NUM 0 (State.latchStatus_rd hcanon (by decide)) (State.latchStatus_rd hcanon (by decide))
  exact hsame.trans (Hub.get64_set64 hhub _ _ hsmall)

/-- A sealed commit of a window: the open set without the writes of that window. -/
def State.unsealed (s : State) (mine : OpenEntry → Bool) : State := { s with lch := { s.lch with openSet := s.lch.openSet.filter fun e => !mine e } }

theorem State.unsealed_canon {s : State} (c : s.canon) (mine : OpenEntry → Bool) : (s.unsealed mine).canon := c

theorem exec_latchCommitNext {s : State} (fn hc : Nat) (val : Word) (hin : s.hub.hostIn = true) :
    exec (.latchCommitNext fn val hc) s = .next (s.commitNext fn hc) := by
  have harm : exec (.latchCommitNext fn val hc) s = .next (if s.barLive then s.commitNext fn hc else s) := rfl
  rw [harm, if_pos (show s.barLive = true from hin)]

theorem exec_latchCommitSched {s : State} (fn hc : Nat) (val : Word) (hin : s.hub.hostIn = true) :
    exec (.latchCommitSched fn val hc) s = .next (s.commitSched fn val hc) := by
  have harm : exec (.latchCommitSched fn val hc) s = .next (if s.barLive then s.commitSched fn val hc else s) := rfl
  rw [harm, if_pos (show s.barLive = true from hin)]

theorem exec_latchCommitDomain {s : State} (fn : Nat) (val : Word) (hin : s.hub.hostIn = true) :
    exec (.latchCommitDomain fn val) s = .next (s.commitDom fn val) := by
  have harm : exec (.latchCommitDomain fn val) s = .next (if s.barLive then s.commitDom fn val else s) := rfl
  rw [harm, if_pos (show s.barLive = true from hin)]

theorem State.commitNext_room {s : State} (fn hc : Nat) (hroom : s.lch.pend.length < 16) : s.commitNext fn hc =
    (s.unsealed (sealedBy fn)).latchAccept { num := 0, at_ := s.nextBound hc, items := s.lch.openSet.filter (sealedBy fn) } := by
  rw [State.commitNext, if_neg (Nat.not_le.mpr hroom)]
  rfl

theorem State.commitDom_room {s : State} (fn : Nat) (val : Word) (hroom : s.lch.pend.length < 16) : s.commitDom fn val =
    (s.unsealed fun e => sealedBy fn e && e.item.domain == commitDomain val).latchAccept
      { num := 0, at_ := .domain (commitDomain val), items := s.lch.openSet.filter fun e => sealedBy fn e && e.item.domain == commitDomain val } := by
  rw [State.commitDom, if_neg (Nat.not_le.mpr hroom)]
  rfl

/-- The Latch of a SCHED commit without GROUP. -/
def State.schedLatch (s : State) (fn : Nat) (val : Word) (hc : Nat) : Latch :=
  { num := 0, items := s.lch.openSet.filter (sealedBy fn), group := false, abort := LCH.COMMIT.ABORT.of val == 1, tag := s.hub.get LCH.SCHED_TAG.TAG
    named := s.hub.schedRaw, decided := true, reason := if (s.schedBound s.hub.schedRaw hc).isNone then 1 else 0
    at_ := match s.schedBound s.hub.schedRaw hc with
      | some ns => .sched ns
      | none => s.nextBound hc }

/-- A SCHED commit without GROUP is accepted, and its lateness said at once. -/
theorem State.commitSched_room {s : State} (fn hc : Nat) (val : Word) (hroom : s.lch.pend.length < 16) (hgroup : LCH.COMMIT.GROUP.of val = 0) :
    s.commitSched fn val hc =
      let s1 := (s.unsealed (sealedBy fn)).latchAccept (s.schedLatch fn val hc)
      if (s.schedBound s.hub.schedRaw hc).isNone then s1.latchLate (s1.hub.get64 LCH.ACCEPTED_LO.NUM 0) 1 else s1 := by
  unfold State.commitSched
  rw [if_neg (Nat.not_le.mpr hroom)]
  simp [hgroup, State.schedLatch, State.unsealed] <;> rfl

/-- Saying that a Latch is late writes none of the Latch numbers. -/
theorem State.latchLate_num {s : State} (c : s.canon) (num reason : Nat) :
    (s.latchLate num reason).hub.get64 LCH.ACCEPTED_LO.NUM 0 = s.hub.get64 LCH.ACCEPTED_LO.NUM 0 :=
  Hub.get64_of_rd _ _
    (Hub.raise_rd (State.canon_hub c) _ _ (show LCH.ACCEPTED_LO.NUM.off 0 0 ≠ evtOff 0x0501 0 by decide) (by decide))
    (Hub.raise_rd (State.canon_hub c) _ _ (show LCH.ACCEPTED_LO.NUM.off 0 0 + 4 ≠ evtOff 0x0501 0 by decide) (by decide))

end Sys2Proof.Machine
end

section
/-! SETTLED. What a commit seals (chapter 5). -/

namespace Sys2Proof.Machine

/-- With 16 Latches pending a commit of any mode is refused (R81). -/
theorem commit_refused {s : State} (fn hc : Nat) (val : Word) (hin : s.hub.hostIn = true) (hfull : 16 ≤ s.lch.pend.length) :
    exec (.latchCommitNext fn val hc) s = .next { s with hub := s.hub.raise { code := 0x0502 } } ∧
    exec (.latchCommitSched fn val hc) s = .next { s with hub := s.hub.raise { code := 0x0502 } } ∧
    exec (.latchCommitDomain fn val) s = .next { s with hub := s.hub.raise { code := 0x0502 } } := by
  rw [exec_latchCommitNext fn hc val hin, exec_latchCommitSched fn hc val hin, exec_latchCommitDomain fn val hin, State.commitNext, State.commitSched,
    State.commitDom, if_pos hfull, if_pos hfull, if_pos hfull]
  exact ⟨rfl, rfl, rfl⟩

/-- Settles O23: each mode takes its writes out of the open set and accepts them as one Latch. -/
theorem commitSealsItsWindow : Obligations.CommitSealsItsWindow := by
  refine ⟨fun fn hc val s => commit_refused fn hc val, fun fn hc val s hcanon hin hroom hsmall => ?_⟩
  have hnum := fun (mine : OpenEntry → Bool) l => State.latchAccept_num (State.unsealed_canon hcanon mine) l hsmall
  refine ⟨?next, fun hgroup => ?sched, ?domain⟩
  case next =>
    refine ⟨_, (exec_latchCommitNext fn hc val hin).trans (congrArg _ (State.commitNext_room fn hc hroom)), hnum _ _, rfl, rfl, ?_⟩
    exact State.latchAccept_frame _ _
  case sched =>
    have hexec := (exec_latchCommitSched fn hc val hin).trans (congrArg _ (State.commitSched_room fn hc val hroom hgroup))
    have hcanon1 := State.latchAccept_canon (s.unsealed (sealedBy fn)) (s.schedLatch fn val hc) (State.unsealed_canon hcanon _)
    have hpend := (s.unsealed (sealedBy fn)).latchAccept_pend (s.schedLatch fn val hc)
    dsimp only at hexec
    cases hbound : s.schedBound s.hub.schedRaw hc with
    | none =>
      rw [hbound, Option.isNone_none, if_pos rfl] at hexec
      refine ⟨_, (s.unsealed (sealedBy fn)).accepted (s.schedLatch fn val hc), hexec, (State.latchLate_num hcanon1 _ _).trans (hnum _ _), rfl, rfl, rfl, rfl,
        rfl, nofun, fun _ => ?_⟩
      simp [State.accepted, State.schedLatch, hbound, State.nextBound]
    | some b =>
      rw [hbound, Option.isNone_some, if_neg (by decide)] at hexec
      refine ⟨_, (s.unsealed (sealedBy fn)).accepted (s.schedLatch fn val hc), hexec, hnum _ _, rfl, rfl, rfl, rfl, rfl, fun b' hb => ?_, nofun⟩
      obtain rfl := Option.some.inj hb
      simp [State.accepted, State.schedLatch, hbound]
  case domain =>
    refine ⟨_, _, (exec_latchCommitDomain fn val hin).trans (congrArg _ (State.commitDom_room fn val hroom)), hnum _ _, State.latchAccept_pend _ _, rfl, rfl,
      fun e => ?_, fun e => ?_⟩
    · simp [State.accepted, sealedBy]
    · change e ∈ s.lch.openSet.filter _ ↔ _
      simp [sealedBy, Decidable.imp_iff_not_or]

end Sys2Proof.Machine
end

section
/-! SUPPORT. FIFOs that are flushed, the rate wheel and gate lists (R138, R142, R144, R145). -/

namespace Sys2Proof.Machine

/-! ### FIFOs -/

@[simp] theorem Hub.set1_fifo (h : Hub) (f : Fld) (i v n : Nat) : (h.set1 f i v).fifo n = h.fifo n := rfl

theorem Hub.setFifo_rd (h : Hub) (n : Nat) (f : Fifo) (k : Nat) : (h.setFifo n f).rd k = h.rd k := rfl

theorem Hub.setFifo_fifo_self (h : Hub) (n : Nat) (f : Fifo) : (h.setFifo n f).fifo n = f := by
  simp only [Hub.fifo, Hub.setFifo, kvGet_kvPut_self, Option.getD_some]

theorem Hub.setFifo_fifo_ne (h : Hub) {n m : Nat} (f : Fifo) (hm : m ≠ n) : (h.setFifo n f).fifo m = h.fifo m := by
  simp only [Hub.fifo, Hub.setFifo, kvGet_kvPut_ne _ _ _ _ hm]

theorem Hub.setFifo_fifoIdx (h : Hub) (n : Nat) (f : Fifo) (m : Nat) : (h.setFifo n f).fifoIdx m = h.fifoIdx m := rfl

theorem fifoIdx_ne_fifoCtl (n m : Nat) : QSC.FIFO_IDX.INDEX.off n 0 ≠ QSC.FIFO_CTL.SIZE.off m 0 := by
  simp only [Fld.off, QSC.FIFO_IDX.INDEX, QSC.FIFO_CTL.SIZE]
  omega

/-- A flushed FIFO is empty, with nothing counted as lost (R138). -/
theorem Hub.fifoFlush_empty {h : Hub} (c : h.canon) (n : Nat) : (h.fifoFlush n).fifoUsed n = 0 ∧ ((h.fifoFlush n).fifo n).loss = 0 := by
  unfold Hub.fifoFlush
  split
  next hodd =>
    simp [Hub.fifoUsed, Hub.fifoProd, Hub.fifoCons, hodd, Hub.setFifo_fifo_self, Hub.setFifo_fifoIdx]
  next heven =>
    have hidx : (h.set1 QSC.FIFO_IDX.INDEX n (h.fifo n).peer).fifoIdx n = (h.fifo n).peer % 2 ^ 32 := Hub.get1_set1_self c _ _ _ (by decide)
    simp only [Hub.fifoUsed, Hub.fifoProd, Hub.fifoCons, if_neg heven, Hub.setFifo_fifo_self, Hub.setFifo_fifoIdx, hidx]
    exact ⟨by omega, trivial⟩

/-- A flush writes the FIFO's index and its own record. -/
theorem Hub.fifoFlush_rd {h : Hub} (c : h.canon) (n : Nat) {k : Nat} (hk : k ≠ QSC.FIFO_IDX.INDEX.off n 0) : (h.fifoFlush n).rd k = h.rd k := by
  unfold Hub.fifoFlush
  split
  · rfl
  · rw [Hub.setFifo_rd]
    exact Hub.rd_set2_ne c _ _ _ _ _ hk

theorem Hub.fifoFlush_fifo (h : Hub) {n m : Nat} (hm : m ≠ n) : (h.fifoFlush n).fifo m = h.fifo m := by
  unfold Hub.fifoFlush
  split
  · exact Hub.setFifo_fifo_ne _ _ hm
  · exact Hub.setFifo_fifo_ne _ _ hm

theorem Hub.fifoFlush_frame (h : Hub) (n : Nat) :
    h.fifoFlush n = { h with regs := (h.fifoFlush n).regs, fifos := (h.fifoFlush n).fifos } := by
  unfold Hub.fifoFlush
  split <;> rfl

/-- A write of FIFO_CTL that flushes, or changes SIZE: a flush of the FIFO with the SIZE written (R138). -/
theorem Hub.fifoCtl_eq {h : Hub} (n : Nat) (val : Word)
    (hacts : val.getLsbD 31 = true ∨ QSC.FIFO_CTL.SIZE.of val ≠ h.get1 QSC.FIFO_CTL.SIZE n) :
    h.fifoCtl n val = (if QSC.FIFO_CTL.SIZE.of val ≠ h.get1 QSC.FIFO_CTL.SIZE n then h.set1 QSC.FIFO_CTL.SIZE n (QSC.FIFO_CTL.SIZE.of val)
      else h).fifoFlush n := by
  unfold Hub.fifoCtl
  dsimp only
  split
  · rfl
  next hsame =>
    rw [if_pos (hacts.resolve_right hsame)]

/-- What such a write leaves: the SIZE written, an empty FIFO, and every other register and FIFO as it was. -/
theorem Hub.fifoCtl_flushes {h : Hub} (c : h.canon) (n : Nat) (val : Word)
    (hacts : val.getLsbD 31 = true ∨ QSC.FIFO_CTL.SIZE.of val ≠ h.get1 QSC.FIFO_CTL.SIZE n) :
    (h.fifoCtl n val).get1 QSC.FIFO_CTL.SIZE n = QSC.FIFO_CTL.SIZE.of val ∧ (h.fifoCtl n val).fifoUsed n = 0 ∧ ((h.fifoCtl n val).fifo n).loss = 0 ∧
      (∀ k, k ≠ QSC.FIFO_IDX.INDEX.off n 0 → k ≠ QSC.FIFO_CTL.SIZE.off n 0 → (h.fifoCtl n val).rd k = h.rd k) ∧
      (∀ m, m ≠ n → (h.fifoCtl n val).fifo m = h.fifo m) ∧
      h.fifoCtl n val = { h with regs := (h.fifoCtl n val).regs, fifos := (h.fifoCtl n val).fifos } := by
  rw [Hub.fifoCtl_eq n val hacts]
  obtain ⟨h1, hh1, hc1, hsize, hrd, hfifo, hframe⟩ : ∃ h1, h1 = (if QSC.FIFO_CTL.SIZE.of val ≠ h.get1 QSC.FIFO_CTL.SIZE n then
      h.set1 QSC.FIFO_CTL.SIZE n (QSC.FIFO_CTL.SIZE.of val) else h) ∧ h1.canon ∧ h1.get1 QSC.FIFO_CTL.SIZE n = QSC.FIFO_CTL.SIZE.of val ∧
      (∀ k, k ≠ QSC.FIFO_CTL.SIZE.off n 0 → h1.rd k = h.rd k) ∧ (∀ m, h1.fifo m = h.fifo m) ∧ h1 = { h with regs := h1.regs } := by
    refine ⟨_, rfl, ?_⟩
    split
    · refine ⟨Hub.set1_canon _ _ _ _ c, ?_, fun k hk => Hub.rd_set2_ne c _ _ _ _ _ hk, fun _ => rfl, Hub.set1_frame ..⟩
      rw [Hub.get1_set1_self c _ _ _ (by decide), Nat.mod_eq_of_lt (Fld.of_lt _ _)]
    next hsame => exact ⟨c, (Classical.not_not.mp hsame).symm, fun _ _ => rfl, fun _ => rfl, rfl⟩
  rw [← hh1]
  obtain ⟨hused, hloss⟩ := Hub.fifoFlush_empty hc1 n
  refine ⟨?_, hused, hloss, fun k hidx hctl => ?_, fun m hm => ?_, ?_⟩
  · rw [← hsize]
    exact Hub.get1_of_rd _ _ (Hub.fifoFlush_rd hc1 n (fifoIdx_ne_fifoCtl n n).symm)
  · rw [Hub.fifoFlush_rd hc1 n hidx, hrd k hctl]
  · rw [Hub.fifoFlush_fifo _ hm, hfifo m]
  · have hflush := h1.fifoFlush_frame n
    generalize h1.fifoFlush n = h2 at hflush
    rw [hflush, hframe]

/-- The two rows of FIFO_CTL. -/
theorem exec_fifoFlush (fn n : Nat) (val : Word) (s : State) : exec (.fifoFlush fn n val) s =
    .next (s.withHub (if n < 2048 ∧ val.getLsbD 31 ∧ s.hub.hostIn ∧ s.hub.reachesQp fn (n / 2) then s.hub.fifoCtl n val else s.hub)) := rfl

theorem exec_fifoSizeChange (fn n : Nat) (val : Word) (s : State) : exec (.fifoSizeChange fn n val) s =
    .next (s.withHub (if n < 2048 ∧ s.hub.hostIn ∧ s.hub.reachesQp fn (n / 2) ∧ QSC.FIFO_CTL.SIZE.of val ≠ s.hub.get1 QSC.FIFO_CTL.SIZE n then
      s.hub.fifoCtl n val else s.hub)) := rfl

/-! ### The rate wheel (R142) -/

theorem exec_rateWheelSlot {n slot next : Nat} {q : EgrQueue} {s : State} (hq : kvGet n s.qsc.queues = some q) (hw : q.wheel = some (slot, next)) :
    exec (.rateWheelSlot n) s = .next (if s.hub.elapsed < slot then s
      else if slot < ceilDiv next 250 * 250 then s.setQueue n { q with wheel := some (wheelSlot next slot, next) }
      else s.setQueue n (s.retag n { q with wheel := none, eligible := slot })) := by
  have harm : exec (.rateWheelSlot n) s = execRateWheelSlot n s := rfl
  rw [harm, execRateWheelSlot, hq]
  dsimp only
  rw [hw]

theorem State.setQueue_get (s : State) (n : Nat) (q : EgrQueue) : kvGet n (s.setQueue n q).qsc.queues = some q := kvGet_kvPut_self _ _ _

/-- A queue that becomes eligible is given a new tag alone. -/
theorem State.retag_keeps (s : State) (n : Nat) (q : EgrQueue) :
    (s.retag n q).items = q.items ∧ (s.retag n q).wheel = q.wheel ∧ (s.retag n q).eligible = q.eligible := by
  unfold State.retag
  split
  · exact ⟨rfl, rfl, rfl⟩
  · exact ⟨rfl, rfl, rfl⟩

/-! ### Gate lists (R144, R145) -/

theorem exec_gclTakeover {p : Nat} {l : GateList} {s : State} (hl : kvGet p s.qsc.pending = some l) :
    exec (.gclTakeover p) s = .next (if l.start ≤ s.hub.time.total ∧ s.hub.get GLB.STATUS.FROZEN = 0 then s.gclTake p l.start else s) := by
  have harm : exec (.gclTakeover p) s = execGclTakeover p s := rfl
  rw [harm, execGclTakeover, hl]

/-- The hub of a port's gate list as it takes over, before the entry register follows it. -/
def Hub.gclTaken (h : Hub) (p count : Nat) : Hub :=
  ((h.set1 QSC.GCL_STAT.PENDING p 0).set1 QSC.GCL_STAT.COUNT p count).raise { code := 0x0707, detail := [p] }

/-- The state of a port's list as it takes over at `at_`, before the entry register follows it. -/
def State.gclTaken (s : State) (p at_ : Nat) (l : GateList) : State :=
  { s with
    hub := s.hub.gclTaken p l.ents.length
    qsc := { s.qsc with gates := kvPut p { l with start := at_ } s.qsc.gates, pending := kvDel p s.qsc.pending } }

theorem State.gclTake_eq {p at_ : Nat} {l : GateList} {s : State} (hl : kvGet p s.qsc.pending = some l) :
    s.gclTake p at_ = (s.gclTaken p at_ l).gateEntry p := by
  rw [State.gclTake, hl]
  rfl

theorem State.gateEntry_frame (s : State) (p : Nat) : s.gateEntry p = s.withHub (s.gateEntry p).hub := rfl

theorem State.gateEntry_qsc (s : State) (p : Nat) : (s.gateEntry p).qsc = s.qsc := rfl

/-- The entry register is no field of what is pending. -/
theorem State.gateEntry_pending {s : State} (c : s.hub.canon) (p : Nat) :
    (s.gateEntry p).hub.get1 QSC.GCL_STAT.PENDING p = s.hub.get1 QSC.GCL_STAT.PENDING p :=
  Hub.get1_set1_field c QSC.GCL_STAT.ENTRY QSC.GCL_STAT.PENDING _ _ rfl (by decide) (by decide)

/-- Once a port's list has taken over none is pending. -/
theorem Hub.gclTaken_pending {h : Hub} (c : h.canon) {p : Nat} (count : Nat) (hp : p < 32) :
    (h.gclTaken p count).get1 QSC.GCL_STAT.PENDING p = 0 := by
  have hset := Hub.set1_canon h QSC.GCL_STAT.PENDING p 0 c
  have hoff : offLog (QSC.GCL_STAT.PENDING.off p 0) ∧ QSC.GCL_STAT.PENDING.off p 0 ≠ evtOff 0x0707 0 := by
    simp only [offLog, Fld.off, QSC.GCL_STAT.PENDING, evtOff]
    omega
  have hraise : (h.gclTaken p count).get1 QSC.GCL_STAT.PENDING p =
      ((h.set1 QSC.GCL_STAT.PENDING p 0).set1 QSC.GCL_STAT.COUNT p count).get1 QSC.GCL_STAT.PENDING p :=
    Hub.get1_of_rd _ _ (Hub.raise_rd (Hub.set1_canon _ _ _ _ hset) _ _ hoff.2 hoff.1)
  rw [hraise, Hub.get1_set1_field hset QSC.GCL_STAT.COUNT QSC.GCL_STAT.PENDING _ _ rfl (by decide) (by decide), Hub.get1_set1_self c _ _ _ (by decide),
    Nat.zero_mod]

theorem Hub.gclTaken_canon {h : Hub} (c : h.canon) (p count : Nat) : (h.gclTaken p count).canon :=
  Hub.raise_canon _ _ (Hub.set1_canon _ _ _ _ (Hub.set1_canon _ _ _ _ c))

end Sys2Proof.Machine
end

section
/-! SETTLED. FIFOs, the rate wheel and gates (chapter 7). -/

namespace Sys2Proof.Machine

/-- Writes of FIFO_CTL through its two rows (R138). -/
theorem fifoWrites (fn n : Nat) (val : Word) (s : State) (hcanon : s.canon) :
    (n < 2048 → s.hub.hostIn = true → s.hub.reachesQp fn (n / 2) = true → val.getLsbD 31 = true →
       ∃ t, exec (.fifoFlush fn n val) s = .next t ∧ t.hub.get1 QSC.FIFO_CTL.SIZE n = QSC.FIFO_CTL.SIZE.of val ∧ t.hub.fifoUsed n = 0 ∧ (t.hub.fifo n).loss = 0 ∧
         (∀ k, k ≠ QSC.FIFO_IDX.INDEX.off n 0 → k ≠ QSC.FIFO_CTL.SIZE.off n 0 → t.hub.rd k = s.hub.rd k) ∧ (∀ m, m ≠ n → t.hub.fifo m = s.hub.fifo m) ∧
         t = { s with hub := { s.hub with regs := t.hub.regs, fifos := t.hub.fifos } }) ∧
     (n < 2048 → s.hub.hostIn = true → s.hub.reachesQp fn (n / 2) = true → QSC.FIFO_CTL.SIZE.of val ≠ s.hub.get1 QSC.FIFO_CTL.SIZE n →
       ∃ t, exec (.fifoSizeChange fn n val) s = .next t ∧ t.hub.get1 QSC.FIFO_CTL.SIZE n = QSC.FIFO_CTL.SIZE.of val ∧ t.hub.fifoUsed n = 0 ∧
         (t.hub.fifo n).loss = 0 ∧ (∀ k, k ≠ QSC.FIFO_IDX.INDEX.off n 0 → k ≠ QSC.FIFO_CTL.SIZE.off n 0 → t.hub.rd k = s.hub.rd k) ∧
         t = { s with hub := { s.hub with regs := t.hub.regs, fifos := t.hub.fifos } }) ∧
     (s.hub.hostIn = false ∨ s.hub.reachesQp fn (n / 2) = false → exec (.fifoFlush fn n val) s = .next s ∧ exec (.fifoSizeChange fn n val) s = .next s) ∧
     (val.getLsbD 31 = false → exec (.fifoFlush fn n val) s = .next s) ∧
     (QSC.FIFO_CTL.SIZE.of val = s.hub.get1 QSC.FIFO_CTL.SIZE n → exec (.fifoSizeChange fn n val) s = .next s) := by
  have hctl := Hub.fifoCtl_flushes (State.canon_hub hcanon) n val
  rw [exec_fifoFlush, exec_fifoSizeChange]
  refine ⟨fun hn hin hreach hflush => ?_, fun hn hin hreach hsize => ?_, fun hout => ?_, fun hflush => ?_, fun hsize => ?_⟩
  · obtain ⟨hsize, hused, hloss, hrd, hfifo, hframe⟩ := hctl (.inl hflush)
    rw [if_pos ⟨hn, hflush, hin, hreach⟩]
    exact ⟨_, rfl, hsize, hused, hloss, hrd, hfifo, congrArg s.withHub hframe⟩
  · obtain ⟨hsize', hused, hloss, hrd, -, hframe⟩ := hctl (.inr hsize)
    rw [if_pos ⟨hn, hin, hreach, hsize⟩]
    exact ⟨_, rfl, hsize', hused, hloss, hrd, congrArg s.withHub hframe⟩
  · rcases hout with h | h
    · rw [if_neg (by simp [h]), if_neg (by simp [h])]
      exact ⟨rfl, rfl⟩
    · rw [if_neg (by simp [h]), if_neg (by simp [h])]
      exact ⟨rfl, rfl⟩
  · rw [if_neg fun h => absurd h.2.1 (by rw [hflush]; decide)]
    rfl
  · rw [if_neg fun h => h.2.2.2 hsize]
    rfl

/-- Settles O30: FIFO_CTL, the wheel's slot and the gate lists, each read off its function. -/
theorem fifosAndGates : Obligations.FifosAndGates := by
  refine ⟨fun fn n val s hcanon => fifoWrites fn n val s hcanon, fun n slot next q s hq hw => ?wheel, fun p l s hcanon hp hsorted hl => ?takeover,
    fun p s hcanon hbuilt => ?entry, fun p s hunbuilt => ?unbuilt⟩
  case wheel =>
    rw [exec_rateWheelSlot hq hw]
    refine ⟨fun hearly => by rw [if_pos hearly], fun hdue => ?_⟩
    rw [if_neg (Nat.not_lt.mpr hdue)]
    by_cases hlater : slot < ceilDiv next 250 * 250
    · rw [if_pos hlater]
      exact ⟨_, _, rfl, State.setQueue_get _ _ _, rfl, fun _ => rfl, fun h => absurd hlater (Nat.not_lt.mpr h), rfl⟩
    · rw [if_neg hlater]
      obtain ⟨hitems, hwheel, heligible⟩ := s.retag_keeps n { q with wheel := none, eligible := slot }
      exact ⟨_, _, rfl, State.setQueue_get _ _ _, hitems, fun h => absurd h hlater, fun _ => ⟨hwheel, heligible⟩, rfl⟩
  case takeover =>
    rw [exec_gclTakeover hl]
    refine ⟨fun hdue hopen => ?_, fun hnot => ?_⟩
    · rw [if_pos ⟨hdue, hopen⟩, State.gclTake_eq hl]
      have hhub := State.canon_hub hcanon
      refine ⟨_, rfl, ?_, ?_, ?_, fun k hk => ?_, ?_⟩
      · rw [State.gateEntry_qsc]
        exact kvGet_kvPut_self _ _ _
      · rw [State.gateEntry_qsc]
        exact kvGet_kvDel_self _ _ hsorted
      · rw [State.gateEntry_pending (Hub.gclTaken_canon hhub p _)]
        exact Hub.gclTaken_pending hhub _ hp
      · rw [State.gateEntry_qsc]
        exact kvGet_kvPut_ne _ _ _ _ hk
      · exact State.gateEntry_frame _ _
    · rw [if_neg fun h => hnot.elim (fun hlt => Nat.not_le.mpr hlt h.1) fun hfrozen => hfrozen h.2]
  case entry =>
    have harm : exec (.gateEntryChange p) s = .next (if s.portRate p = 0 then s else s.gateEntry p) := rfl
    rw [harm, if_neg hbuilt]
    exact ⟨_, rfl, Hub.get1_set1_self (State.canon_hub hcanon) _ _ _ (by decide), congrArg s.withHub (Hub.set1_frame ..)⟩
  case unbuilt =>
    have harm : exec (.gateEntryChange p) s = .next (if s.portRate p = 0 then s else s.gateEntry p) := rfl
    rw [harm, if_pos hunbuilt]

end Sys2Proof.Machine
end

section
/-! SUPPORT. The egress scheduler: what the picked queue and the class selected are (R140, R141). -/

namespace Sys2Proof.Machine

/-- A queue picked for a port's class is one of that class that can be sent from. -/
theorem pickQueue_sound {p c n : Nat} {q : EgrQueue} (l : List (Nat × EgrQueue)) (h : pickQueue p c l = some (n, q)) :
    q.port = p ∧ q.cls = c ∧ q.items ≠ [] ∧ q.wheel = none := by
  induction l generalizing n q with
  | nil => cases h
  | cons e t ih =>
    obtain ⟨m, r⟩ := e
    rw [pickQueue] at h
    split at h
    next m' r' hrest =>
      split at h
      next hhere =>
        cases h
        exact hhere.1
      next =>
        cases h
        exact ih hrest
    next =>
      split at h
      next hhere =>
        cases h
        exact hhere
      next => cases h

/-- A class that qualifies does so with the head of its picked queue. -/
theorem State.qualifies_pick {s : State} {p c n : Nat} {q : EgrQueue} (h : s.qualifies p c = some (n, q)) : pickQueue p c s.qsc.queues = some (n, q) := by
  unfold State.qualifies at h
  split at h
  next m r hpick =>
    split at h
    · split at h
      · rw [hpick, h]
      · cases h
    · cases h
  next => cases h

/-- The class selected is the highest below `k` that qualifies (R140). -/
theorem State.selectFrom_some {s : State} {p k n : Nat} {q : EgrQueue} (h : s.selectFrom p k = some (n, q)) :
    ∃ c, c < k ∧ s.qualifies p c = some (n, q) ∧ ∀ d, c < d → d < k → s.qualifies p d = none := by
  induction k with
  | zero => cases h
  | succ k ih =>
    rw [State.selectFrom] at h
    split at h
    next x hx =>
      cases h
      exact ⟨k, Nat.lt_succ_self k, hx, fun d hd hdk => absurd hdk (by omega)⟩
    next hnone =>
      obtain ⟨c, hc, hq, hhigher⟩ := ih h
      refine ⟨c, Nat.lt_succ_of_lt hc, hq, fun d hd hdk => ?_⟩
      rcases Nat.lt_succ_iff_lt_or_eq.mp hdk with hlt | rfl
      · exact hhigher d hd hlt
      · exact hnone

theorem State.selectFrom_none {s : State} {p k : Nat} (h : s.selectFrom p k = none) : ∀ d, d < k → s.qualifies p d = none := by
  induction k with
  | zero => exact fun d hd => absurd hd (Nat.not_lt_zero d)
  | succ k ih =>
    rw [State.selectFrom] at h
    split at h
    next => cases h
    next hnone =>
      intro d hd
      rcases Nat.lt_succ_iff_lt_or_eq.mp hd with hlt | rfl
      · exact ih h d hlt
      · exact hnone

theorem exec_egressSchedule_some {s : State} {p n : Nat} {q : EgrQueue} (hbuilt : s.portRate p ≠ 0) (hopen : s.hub.get GLB.STATUS.FROZEN ≠ 1)
    (hsel : (s.dropPort p).selectFrom p 8 = some (n, q)) : exec (.egressSchedule p) s = .next ((s.dropPort p).startFrame n q) := by
  have harm : exec (.egressSchedule p) s = execEgressSchedule p s := rfl
  rw [harm, execEgressSchedule, if_neg (not_or.mpr ⟨hbuilt, hopen⟩)]
  dsimp only
  rw [hsel]

theorem exec_egressSchedule_none {s : State} {p : Nat} (hbuilt : s.portRate p ≠ 0) (hopen : s.hub.get GLB.STATUS.FROZEN ≠ 1)
    (hsel : (s.dropPort p).selectFrom p 8 = none) : exec (.egressSchedule p) s = .next (s.dropPort p) := by
  have harm : exec (.egressSchedule p) s = execEgressSchedule p s := rfl
  rw [harm, execEgressSchedule, if_neg (not_or.mpr ⟨hbuilt, hopen⟩)]
  dsimp only
  rw [hsel]

end Sys2Proof.Machine
end

section
/-! SETTLED. Strict priority at the egress (chapter 7). -/

namespace Sys2Proof.Machine

/-- Settles O31: the selection walks the classes downwards from the highest. -/
theorem egressStrictPriority : Obligations.EgressStrictPriority := by
  refine fun p s => ⟨fun hbuilt hopen => ⟨fun n q hsel => ?some, fun hsel => ?none⟩, fun hidle => ?idle⟩
  case some =>
    obtain ⟨c, hc, hq, hhigher⟩ := State.selectFrom_some hsel
    obtain ⟨hport, rfl, hitems, hwheel⟩ := pickQueue_sound _ (State.qualifies_pick hq)
    exact ⟨exec_egressSchedule_some hbuilt hopen hsel, hport, hc, hitems, hwheel, hhigher⟩
  case none =>
    exact ⟨exec_egressSchedule_none hbuilt hopen hsel, State.selectFrom_none hsel⟩
  case idle =>
    have harm : exec (.egressSchedule p) s = execEgressSchedule p s := rfl
    rw [harm, execEgressSchedule, if_pos hidle]

end Sys2Proof.Machine
end

section
/-! SUPPORT. Words of memory as bytes, and the light code's columns (R328). -/

namespace Sys2Proof.Machine

theorem leBytes_length (n v : Nat) : (leBytes n v).length = n := by
  induction n generalizing v with
  | zero => rfl
  | succ n ih => rw [leBytes, List.length_cons, ih]

theorem leNat_leBytes (n v : Nat) : leNat (leBytes n v) = v % 256 ^ n := by
  induction n generalizing v with
  | zero => exact (Nat.mod_one v).symm
  | succ n ih =>
    rw [leBytes, leNat, ih, Nat.pow_succ', Nat.mod_mul, BitVec.toNat_ofNat]

theorem leNat_lt (bs : List Byte) : leNat bs < 256 ^ bs.length := by
  induction bs with
  | nil => exact Nat.one_pos
  | cons b t ih =>
    rw [leNat, List.length_cons, Nat.pow_succ']
    have hb := b.isLt
    omega

theorem memReadList_length (m : List (Nat × Byte)) (a n : Nat) : (memReadList m a n).length = n := by
  induction n generalizing a with
  | zero => rfl
  | succ n ih => rw [memReadList, List.length_cons, ih]

theorem MemSt.data_lt (m : MemSt) (w : Nat) : m.data w < 2 ^ 64 := by
  have h := leNat_lt (memReadList m.cells w 8)
  rw [memReadList_length] at h
  exact h

/-- A word's bytes, once written, read as the word. -/
theorem leNat_written (m : List (Nat × Byte)) (w v : Nat) (h : memWf m = true) (hv : v < 2 ^ 64) :
    leNat (memReadList (memWriteList m w (leBytes 8 v)) w 8) = v := by
  have hlist := memReadList_memWriteList (leBytes 8 v) m w h
  rw [leBytes_length] at hlist
  rw [hlist, leNat_leBytes]
  exact Nat.mod_eq_of_lt hv

theorem kvGet_putNZ_self (m : List (Nat × Nat)) (w v : Nat) (hv : v ≠ 0) : (kvGet w (putNZ m w v)).getD 0 = v := by
  rw [putNZ, if_neg hv, kvGet_kvPut_self, Option.getD_some]

theorem checkOf_xor (a b : Nat) (l : List Nat) : checkOf (a ^^^ b) l = checkOf a l ^^^ checkOf b l := by
  induction l generalizing a b with
  | nil => exact (Nat.xor_self 0).symm
  | cons c t ih =>
    have hlow : (a ^^^ b) % 2 = a % 2 ^^^ b % 2 := Nat.xor_mod_two_pow (n := 1)
    have hcol : (if (a ^^^ b) % 2 = 1 then c else 0) = (if a % 2 = 1 then c else 0) ^^^ (if b % 2 = 1 then c else 0) := by
      rw [hlow]
      rcases Nat.mod_two_eq_zero_or_one a with ha | ha <;> rcases Nat.mod_two_eq_zero_or_one b with hb | hb <;> simp [ha, hb]
    rw [checkOf, checkOf, checkOf, Nat.xor_div_two, ih, hcol]
    ac_rfl

theorem checkByte_xor (a b : Nat) : checkByte (a ^^^ b) = checkByte a ^^^ checkByte b := checkOf_xor a b lightColumns

/-- Is the number of ones among a number's lowest bits odd? -/
def oddOnesOf : Nat → Nat → Bool
  | 0, _ => false
  | n + 1, y => y.testBit n ^^ oddOnesOf n y

theorem oddOnesOf_xor (n a b : Nat) : oddOnesOf n (a ^^^ b) = (oddOnesOf n a ^^ oddOnesOf n b) := by
  induction n with
  | zero => rfl
  | succ n ih =>
    rw [oddOnesOf, oddOnesOf, oddOnesOf, ih, Nat.testBit_xor, Bool.xor_assoc, Bool.xor_assoc, Bool.xor_left_comm (b.testBit n)]

/-- Is the number of ones of a syndrome odd? -/
def oddOnes (y : Nat) : Bool := oddOnesOf 8 y

theorem oddOnes_xor (a b : Nat) : oddOnes (a ^^^ b) = (oddOnes a ^^ oddOnes b) := oddOnesOf_xor 8 a b

/-- Each column stands for its own data bit, has an odd number of ones, and is no check bit. -/
theorem lightColumn_bit : ∀ j < 64, flipBit (checkByte (2 ^ j)) 0 lightColumns = some j ∧
    ∀ i < 8, checkByte (2 ^ j) ≠ 2 ^ i := by decide +kernel

theorem lightColumns_odd : ∀ c ∈ lightColumns, oddOnes c = true ∧ c ≠ 0x7F := by decide +kernel

theorem oddOnes_checkBit : ∀ i < 8, oddOnes (2 ^ i) = true ∧ 2 ^ i ≠ 0x7F := by decide

theorem mem_of_flipBit {y k j : Nat} {l : List Nat} (h : flipBit y k l = some j) : y ∈ l := by
  induction l generalizing k with
  | nil => cases h
  | cons c t ih =>
    rw [flipBit] at h
    split at h
    next heq => exact heq ▸ List.mem_cons_self
    next => exact List.mem_cons_of_mem c (ih h)

theorem lightColumn_odd {j : Nat} (hj : j < 64) : oddOnes (checkByte (2 ^ j)) = true ∧ checkByte (2 ^ j) ≠ 0x7F :=
  lightColumns_odd _ (mem_of_flipBit (lightColumn_bit j hj).1)

theorem ne_zero_of_oddOnes {y : Nat} (h : oddOnes y = true) : y ≠ 0 := by
  rintro rfl
  exact absurd h (by decide)

theorem checkBit_any (y : Nat) : (List.range 8).any (fun j => decide (y = 2 ^ j)) = true ↔ ∃ i < 8, y = 2 ^ i := by
  simp only [List.any_eq_true, List.mem_range, decide_eq_true_eq]

/-- What a word reads as, by its syndrome. -/
theorem MemSt.read_clean {m : MemSt} {w : Nat} (h : m.syn w = 0) : m.read w = .clean (m.data w) := if_pos h

theorem MemSt.syn_of_clean {m : MemSt} {w d : Nat} (h : m.read w = .clean d) : m.syn w = 0 ∧ m.data w = d := by
  by_cases hy : m.syn w = 0
  · rw [MemSt.read_clean hy] at h
    exact ⟨hy, WordRead.clean.inj h⟩
  · unfold MemSt.read at h
    dsimp only at h
    rw [if_neg hy] at h
    split at h
    · cases h
    · split at h
      · cases h
      · split at h <;> cases h

theorem MemSt.read_checkBit {m : MemSt} {w i : Nat} (hi : i < 8) (h : m.syn w = 2 ^ i) : m.read w = .corrected (m.data w) := by
  obtain ⟨hodd, hpoison⟩ := oddOnes_checkBit i hi
  rw [← h] at hodd hpoison
  unfold MemSt.read
  dsimp only
  rw [if_neg (ne_zero_of_oddOnes hodd), if_neg fun hp => hpoison hp.2, if_pos ((checkBit_any _).2 ⟨i, hi, h⟩)]

theorem MemSt.read_column {m : MemSt} {w j : Nat} (hj : j < 64) (h : m.syn w = checkByte (2 ^ j)) :
    m.read w = .corrected (m.data w ^^^ 2 ^ j) := by
  obtain ⟨hflip, hcheck⟩ := lightColumn_bit j hj
  obtain ⟨hodd, hpoison⟩ := lightColumn_odd hj
  rw [← h] at hflip hcheck hodd hpoison
  unfold MemSt.read
  dsimp only
  rw [if_neg (ne_zero_of_oddOnes hodd), if_neg fun hp => hpoison hp.2,
    if_neg fun hany => by
      obtain ⟨i, hi, heq⟩ := (checkBit_any _).1 hany
      exact hcheck i hi heq, hflip]

/-- A syndrome with an even number of ones, not 0, is neither a check bit nor a column. -/
theorem MemSt.read_even {m : MemSt} {w : Nat} (h0 : m.syn w ≠ 0) (heven : oddOnes (m.syn w) = false) :
    m.read w = .poison ∨ m.read w = .bad (m.data w) := by
  have hcheck : ¬ (List.range 8).any (fun j => decide (m.syn w = 2 ^ j)) = true := fun hany => by
    obtain ⟨i, hi, heq⟩ := (checkBit_any _).1 hany
    rw [heq, (oddOnes_checkBit i hi).1] at heven
    cases heven
  unfold MemSt.read
  dsimp only
  rw [if_neg h0]
  split
  · exact .inl rfl
  · split
    next k hk =>
      rw [(lightColumns_odd _ (mem_of_flipBit hk)).1] at heven
      cases heven
    next => exact .inr rfl

/-- Errors in a clean word leave their own syndrome, where it is not 0. -/
theorem MemSt.err_clean {m : MemSt} {w d : Nat} (hwf : memWf m.cells = true) (h : m.read w = .clean d) (x c : Nat) (hx : x < 2 ^ 64)
    (hc : checkByte x ^^^ c ≠ 0) : (m.err ⟨w, x, c⟩).data w = d ^^^ x ∧ (m.err ⟨w, x, c⟩).syn w = checkByte x ^^^ c := by
  obtain ⟨hsyn, rfl⟩ := MemSt.syn_of_clean h
  have hdev : (m.err ⟨w, x, c⟩).dev = putNZ m.dev w (checkByte x ^^^ c) := by
    show putNZ m.dev w (m.syn w ^^^ checkByte x ^^^ c) = _
    rw [hsyn, Nat.zero_xor]
  refine ⟨leNat_written _ _ _ hwf (Nat.xor_lt_two_pow (m.data_lt w) hx), ?_⟩
  rw [MemSt.syn, hdev, kvGet_putNZ_self _ _ _ hc]

end Sys2Proof.Machine
end

section
/-! SETTLED. The light code and the address orders (R324, R328). -/

namespace Sys2Proof.Machine

theorem eq_of_xor_eq_zero {a b : Nat} (h : a ^^^ b = 0) : a = b :=
  calc a = a ^^^ b ^^^ b := by rw [Nat.xor_assoc, Nat.xor_self, Nat.xor_zero]
    _ = b := by rw [h, Nat.zero_xor]

/-- Settles O35: a wrong data bit leaves its column as the syndrome and a wrong check bit a power of two; two columns are distinct and odd, so
that their sum is neither. -/
theorem lightCodeCorrectsOne : Obligations.LightCodeCorrectsOne := by
  intro m w d j k hwf hclean hj hk
  have hbit : ∀ i < 64, 2 ^ i < 2 ^ 64 := fun i hi => Nat.pow_lt_pow_right (by decide) hi
  refine ⟨?_, fun hk8 => ?_, fun hjk x => ?_⟩
  · have hne : checkByte (2 ^ j) ^^^ 0 ≠ 0 := by
      rw [Nat.xor_zero]
      exact ne_zero_of_oddOnes (lightColumn_odd hj).1
    obtain ⟨hdata, hsyn⟩ := MemSt.err_clean hwf hclean (2 ^ j) 0 (hbit j hj) hne
    rw [MemSt.read_column hj (hsyn.trans (Nat.xor_zero _)), hdata, Nat.xor_assoc, Nat.xor_self, Nat.xor_zero]
  · have hzero : checkByte 0 ^^^ 2 ^ k = 2 ^ k := by
      rw [show checkByte 0 = 0 by decide +kernel, Nat.zero_xor]
    obtain ⟨hdata, hsyn⟩ := MemSt.err_clean hwf hclean 0 (2 ^ k) (by decide) (by rw [hzero]; exact Nat.ne_of_gt (Nat.two_pow_pos k))
    rw [MemSt.read_checkBit hk8 (hsyn.trans hzero), hdata, Nat.xor_zero]
  · have hsum : checkByte (2 ^ j ^^^ 2 ^ k) ^^^ 0 = checkByte (2 ^ j) ^^^ checkByte (2 ^ k) := by
      rw [Nat.xor_zero, checkByte_xor]
    have hne : checkByte (2 ^ j ^^^ 2 ^ k) ^^^ 0 ≠ 0 := by
      rw [hsum]
      intro hxor
      have heq := eq_of_xor_eq_zero hxor
      have hj' := (lightColumn_bit j hj).1
      rw [heq, (lightColumn_bit k hk).1] at hj'
      exact hjk (Option.some.inj hj').symm
    have heven : oddOnes (checkByte (2 ^ j ^^^ 2 ^ k) ^^^ 0) = false := by
      rw [hsum, oddOnes_xor, (lightColumn_odd hj).1, (lightColumn_odd hk).1, Bool.xor_self]
    obtain ⟨-, hsyn⟩ := MemSt.err_clean hwf hclean (2 ^ j ^^^ 2 ^ k) 0 (Nat.xor_lt_two_pow (hbit j hj) (hbit k hk)) hne
    rcases MemSt.read_even (hsyn ▸ hne) (hsyn ▸ heven) with hread | hread <;> rw [hread] <;> exact ⟨nofun, nofun⟩

/-- The fields of a place fit its cell address. -/
structure Place.Fits (x : Place) : Prop where
  s : x.s < 2
  g : x.g < 8
  p : x.p < 8
  b : x.b < 16
  c : x.c < 16
  r : x.r < 2 ^ 15

theorem placeOf_fits (order q : Nat) : (placeOf order q).Fits := by
  unfold placeOf bits
  split <;> constructor <;> dsimp only <;> omega

theorem Place.Fits.onStack {x : Place} (h : x.Fits) (s : Nat) (hs : s < 2) : Place.Fits { x with s := s } :=
  ⟨hs, h.g, h.p, h.b, h.c, h.r⟩

/-- A place's cell lies in HBM, and gives back the place and the byte of its burst. -/
theorem cellPlace_cell {x : Place} (h : x.Fits) {o : Nat} (ho : o < 64) :
    x.cell o < sramBase ∧ cellPlace (x.cell o) = x ∧ x.cell o % 64 = o := by
  obtain ⟨s, g, p, b, c, r⟩ := x
  obtain ⟨hs, hg, hp, hb, hc, hr⟩ := h
  dsimp only at hs hg hp hb hc hr
  simp only [Place.cell, cellPlace, bits, sramBase, Place.mk.injEq]
  omega

/-- A burst's place under an order gives back the burst, of both stacks or, with the stack left out, of one. -/
theorem burstOf_placeOf (order q : Nat) (hq : q < 2 ^ 30) : burstOf order (placeOf order q) = q := by
  match order with
  | 0 | 1 | 2 | 3 | n + 4 =>
    simp only [burstOf, placeOf, bits]
    omega

theorem burstOf_placeOf_stack (order q : Nat) (hq : q < 2 ^ 29) (ho : order ≠ 3) :
    burstOf order { placeOf order q with s := 0 } = q := by
  have hs : (placeOf order q).s = 0 := by
    unfold placeOf bits
    split
    next => dsimp only; omega
    next => dsimp only; omega
    next => exact absurd rfl ho
    next => dsimp only; omega
  have hsame : { placeOf order q with s := 0 } = placeOf order q := by
    rw [← hs]
  rw [hsame]
  exact burstOf_placeOf order q (by omega)

/-- An HBM address of stack `s` through its cell and back. -/
theorem cell_of_stack (order a s : Nat) (ho : order ≠ 3) (ha : a < 2 ^ 35) (hs : s < 2) :
    let c := ({ placeOf order (a / 64) with s := s } : Place).cell (a % 64)
    c < sramBase ∧ (cellPlace c).s = s ∧ burstOf order { cellPlace c with s := 0 } * 64 + c % 64 = a := by
  intro c
  obtain ⟨hlt, hplace, hoff⟩ := cellPlace_cell ((placeOf_fits order (a / 64)).onStack s hs) (Nat.mod_lt a (by decide : 64 > 0))
  have hburst := burstOf_placeOf_stack order (a / 64) (by omega) ho
  refine ⟨hlt, by rw [hplace], ?_⟩
  rw [hplace, hoff]
  show burstOf order { placeOf order (a / 64) with s := 0 } * 64 + a % 64 = a
  rw [hburst]
  omega

/-- Settles O36: a burst's place gives back the burst under its order, and a place's cell gives back the place. -/
theorem addressOrdersAreOneToOne : Obligations.AddressOrdersAreOneToOne := by
  intro mem order a c ho hc
  unfold cellOf at hc
  unfold addrOf
  generalize hdef : (if order = 3 ∧ mem ≠ 2 then 2 else order) = o at hc ⊢
  dsimp only at hc ⊢
  have hone : mem ≠ 2 → o ≠ 3 := by
    rintro hmem rfl
    split at hdef <;> simp_all
  split at hc
  next =>
    split at hc <;> cases hc
    next ha =>
      obtain ⟨hlt, hs, hback⟩ := cell_of_stack o a 0 (hone (by decide)) ha (by decide)
      rw [if_neg (Nat.not_le.mpr hlt)]
      exact (if_pos hs).trans (congrArg some hback)
  next =>
    split at hc <;> cases hc
    next ha =>
      obtain ⟨hlt, hs, hback⟩ := cell_of_stack o a 1 (hone (by decide)) ha (by decide)
      rw [if_neg (Nat.not_le.mpr hlt)]
      exact (if_pos hs).trans (congrArg some hback)
  next =>
    split at hc <;> cases hc
    next ha =>
      obtain ⟨hlt, hplace, hoff⟩ := cellPlace_cell (placeOf_fits o (a / 64)) (Nat.mod_lt a (by decide : 64 > 0))
      rw [if_neg (Nat.not_le.mpr hlt)]
      show some _ = _
      rw [hplace, hoff, burstOf_placeOf o (a / 64) (by omega)]
      exact congrArg some (by omega)
  next =>
    split at hc <;> cases hc
    rw [if_pos (Nat.le_add_right _ _)]
    exact congrArg some (Nat.add_sub_cancel_left _ _)
  next => cases hc

end Sys2Proof.Machine
end

section
/-! SUPPORT. What storing a word, a byte and poison leaves in memory (R329, R331, R332). -/

namespace Sys2Proof.Machine

theorem mem_of_kvGet {α : Type} {k : Nat} {v : α} {m : List (Nat × α)} (h : kvGet k m = some v) : (k, v) ∈ m := by
  induction m with
  | nil => cases h
  | cons e t ih =>
    obtain ⟨j, w⟩ := e
    rw [kvGet] at h
    split at h
    next heq =>
      cases h
      exact heq ▸ List.mem_cons_self
    next =>
      split at h
      · cases h
      · exact List.mem_cons_of_mem _ (ih h)

theorem kvGet_putNZ_ne (m : List (Nat × Nat)) {w k : Nat} (v : Nat) (hs : kvSorted m = true) (hk : k ≠ w) : kvGet k (putNZ m w v) = kvGet k m := by
  unfold putNZ
  split
  · exact kvGet_kvDel_ne w k m hs hk
  · exact kvGet_kvPut_ne w k v m hk

theorem kvGet_putNZ (m : List (Nat × Nat)) (w v : Nat) (hs : kvSorted m = true) : (kvGet w (putNZ m w v)).getD 0 = v := by
  by_cases hv : v = 0
  · rw [putNZ, if_pos hv, kvGet_kvDel_self w m hs, hv]
    rfl
  · exact kvGet_putNZ_self m w v hv

theorem memRead_written_out (m : List (Nat × Byte)) {w a : Nat} (v : Nat) (h : memWf m = true) (ha : a < w ∨ w + 8 ≤ a) :
    memRead (memWriteList m w (leBytes 8 v)) a = memRead m a :=
  memRead_memWriteList_out (leBytes 8 v) m w a h (by rwa [leBytes_length])

theorem memReadList_congr {m n : List (Nat × Byte)} {a k : Nat} (h : ∀ c, a ≤ c → c < a + k → memRead m c = memRead n c) :
    memReadList m a k = memReadList n a k := by
  induction k generalizing a with
  | zero => rfl
  | succ k ih =>
    rw [memReadList, memReadList, h a (Nat.le_refl a) (by omega), ih fun c hlo hhi => h c (by omega) (by omega)]

theorem memReadList_getElem (m : List (Nat × Byte)) (a n k : Nat) (hk : k < n) :
    (memReadList m a n)[k]'(by rwa [memReadList_length]) = memRead m (a + k) := by
  induction n generalizing a k with
  | zero => omega
  | succ n ih =>
    cases k with
    | zero => rfl
    | succ k =>
      have hrest := ih (a + 1) k (by omega)
      rw [Nat.add_right_comm a 1 k] at hrest
      exact hrest

/-- A word stored elsewhere leaves a word's data. -/
theorem MemSt.data_store_ne {m : MemSt} (c : m.canon) {w x : Nat} (d syn : Nat) (hx : x + 8 ≤ w ∨ w + 8 ≤ x) : (m.store w d syn).data x = m.data x := by
  have hlist : memReadList (m.store w d syn).cells x 8 = memReadList m.cells x 8 :=
    memReadList_congr fun a hlo hhi => memRead_written_out m.cells d c (by omega)
  rw [MemSt.data, MemSt.data, hlist]

theorem MemSt.read_write {m : MemSt} (c : m.canon) (hs : kvSorted m.dev = true) (w : Nat) {d : Nat} (hd : d < 2 ^ 64) : (m.write w d).read w = .clean d := by
  have hsyn : (m.write w d).syn w = 0 := kvGet_putNZ m.dev w 0 hs
  have hdata : (m.write w d).data w = d := leNat_written m.cells w d c hd
  rw [MemSt.read_clean hsyn, hdata]

theorem MemSt.read_poison_of {m : MemSt} {w : Nat} (hd : m.data w = 0) (hy : m.syn w = 0x7F) : m.read w = .poison := by
  unfold MemSt.read
  dsimp only
  rw [hy, if_neg (by decide), if_pos ⟨hd, rfl⟩]

theorem MemSt.of_read_poison {m : MemSt} {w : Nat} (h : m.read w = .poison) : m.data w = 0 ∧ m.syn w = 0x7F := by
  unfold MemSt.read at h
  dsimp only at h
  split at h
  · cases h
  · split at h
    next hp => exact hp
    next =>
      split at h
      · cases h
      · split at h <;> cases h

theorem MemSt.read_poison_self {m : MemSt} (c : m.canon) (w : Nat) : (m.poison w).read w = .poison :=
  MemSt.read_poison_of (leNat_written m.cells w 0 c (by decide)) (kvGet_putNZ_self m.dev w 0x7F (by decide))

/-- Poison stays when another word, or the same, is poisoned. -/
theorem MemSt.read_poison_keeps {m : MemSt} (c : m.canon) {w x : Nat} (hw : w % 8 = 0) (hx : x % 8 = 0) (h : m.read w = .poison) :
    (m.poison x).read w = .poison := by
  by_cases hwx : w = x
  · rw [hwx]
    exact MemSt.read_poison_self c x
  · obtain ⟨hdata, hsyn⟩ := MemSt.of_read_poison h
    have hget : kvGet w (m.poison x).dev = kvGet w m.dev := kvGet_kvPut_ne x w 0x7F m.dev hwx
    refine MemSt.read_poison_of ((MemSt.data_store_ne c 0 0x7F (by omega)).trans hdata) ?_
    rw [MemSt.syn, hget]
    exact hsyn

/-- Each word of a list of words is poison once all are poisoned. -/
theorem MemSt.read_foldl_poison (l : List Nat) {m : MemSt} (c : m.canon) (hl : ∀ x ∈ l, x % 8 = 0) {w : Nat} (hw : w % 8 = 0)
    (h : w ∈ l ∨ m.read w = .poison) : (l.foldl MemSt.poison m).read w = .poison := by
  induction l generalizing m with
  | nil => exact h.resolve_left List.not_mem_nil
  | cons x t ih =>
    refine ih (MemSt.poison_canon m x c) (fun y hy => hl y (List.mem_cons_of_mem x hy)) ?_
    rcases h with hmem | hpoison
    · rcases List.mem_cons.1 hmem with rfl | htail
      · exact .inr (MemSt.read_poison_self c w)
      · exact .inl htail
    · exact .inr (MemSt.read_poison_keeps c hw (hl x List.mem_cons_self) hpoison)

/-- A bad word is listed among its page's. -/
theorem MemSt.badWords_ne_nil {m : MemSt} {w d : Nat} (h : m.read w = .bad d) : m.badWords (pageOf w) ≠ [] := by
  obtain ⟨y, hy⟩ : ∃ y, kvGet w m.dev = some y := by
    cases hget : kvGet w m.dev with
    | some y => exact ⟨y, rfl⟩
    | none =>
      have hsyn : m.syn w = 0 := by rw [MemSt.syn, hget]; rfl
      rw [MemSt.read_clean hsyn] at h
      cases h
  have hpage : pageOf w ≤ w ∧ w < pageOf w + pageSize (pageOf w) := by
    by_cases hbase : sramBase ≤ w
    · have hrow : sramBase ≤ w / 2048 * 2048 := by unfold sramBase at hbase ⊢; omega
      rw [pageOf, if_pos hbase, pageSize, if_pos hrow]
      omega
    · have hrow : ¬ sramBase ≤ w / 4096 * 4096 := by unfold sramBase at hbase ⊢; omega
      rw [pageOf, if_neg hbase, pageSize, if_neg hrow]
      omega
  refine List.ne_nil_of_mem (List.mem_map_of_mem (List.mem_filter.2 ⟨mem_of_kvGet hy, ?_⟩))
  simp only [h, hpage, and_self, decide_true, Bool.and_self]

theorem leNat_set (bs : List Byte) (i : Nat) (b : Byte) (hi : i < bs.length) :
    leNat (bs.set i b) = leNat bs - leNat bs / 256 ^ i % 256 * 256 ^ i + b.toNat * 256 ^ i := by
  induction bs generalizing i with
  | nil => exact absurd hi (Nat.not_lt_zero i)
  | cons x t ih =>
    have hx := x.isLt
    cases i with
    | zero =>
      rw [List.set_cons_zero, leNat, leNat, Nat.pow_zero, Nat.div_one, Nat.mul_one, Nat.mul_one]
      omega
    | succ i =>
      have hpos : 0 < 256 ^ i := Nat.pow_pos (by decide)
      have hdiv : (x.toNat + 256 * leNat t) / 256 ^ (i + 1) = leNat t / 256 ^ i := by
        rw [Nat.pow_succ', ← Nat.div_div_eq_div_mul]
        exact congrArg (· / 256 ^ i) (by omega)
      have hle : leNat t / 256 ^ i % 256 * 256 ^ i ≤ leNat t :=
        Nat.le_trans (Nat.mul_le_mul_right _ (Nat.mod_le _ _)) (Nat.div_mul_le_self _ _)
      rw [List.set_cons_succ, leNat, leNat, ih i (Nat.lt_of_succ_lt_succ hi), hdiv, Nat.pow_succ', Nat.mul_left_comm _ 256, Nat.mul_left_comm _ 256]
      omega

theorem leBytes_leNat (bs : List Byte) : leBytes bs.length (leNat bs) = bs := by
  induction bs with
  | nil => rfl
  | cons b t ih =>
    have hb := b.isLt
    rw [List.length_cons, leBytes, leNat, show (b.toNat + 256 * leNat t) / 256 = leNat t by omega, ih]
    refine congrArg (· :: t) (BitVec.eq_of_toNat_eq ?_)
    rw [BitVec.toNat_ofNat]
    omega

theorem leNat_byte (bs : List Byte) (i : Nat) (hi : i < bs.length) : BitVec.ofNat 8 (leNat bs / 256 ^ i) = bs[i] := by
  induction bs generalizing i with
  | nil => exact absurd hi (Nat.not_lt_zero i)
  | cons x t ih =>
    have hx := x.isLt
    cases i with
    | zero =>
      refine BitVec.eq_of_toNat_eq ?_
      rw [leNat, Nat.pow_zero, Nat.div_one, BitVec.toNat_ofNat, List.getElem_cons_zero]
      omega
    | succ i =>
      rw [leNat, Nat.pow_succ', ← Nat.div_div_eq_div_mul, show (x.toNat + 256 * leNat t) / 256 = leNat t by omega, List.getElem_cons_succ]
      exact ih i (Nat.lt_of_succ_lt_succ hi)

theorem two_pow_eight_mul (k : Nat) : 2 ^ (8 * k) = 256 ^ k := Nat.pow_mul 2 8 k

/-- A clean word with one byte put is the word of its bytes with that one set. -/
theorem MemSt.putByte_clean {m : MemSt} {c d : Nat} (h : m.read (c / 8 * 8) = .clean d) (b : Byte) :
    m.putByte c b = m.write (c / 8 * 8) (leNat ((memReadList m.cells (c / 8 * 8) 8).set (c % 8) b)) := by
  obtain ⟨-, hdata⟩ := MemSt.syn_of_clean h
  have hword : leNat (memReadList m.cells (c / 8 * 8) 8) = d := hdata
  rw [leNat_set _ _ _ (by rw [memReadList_length]; exact Nat.mod_lt c (by decide)), hword, ← two_pow_eight_mul]
  unfold MemSt.putByte MemSt.delivered
  dsimp only
  rw [h]

/-- A byte put in a clean word reads back, and every other byte of memory stays. -/
theorem MemSt.memRead_putByte {m : MemSt} (k : m.canon) {c d : Nat} (h : m.read (c / 8 * 8) = .clean d) (b : Byte) (a : Nat) :
    memRead (m.putByte c b).cells a = if a = c then b else memRead m.cells a := by
  rw [MemSt.putByte_clean h]
  have hlen := memReadList_length m.cells (c / 8 * 8) 8
  generalize hbs : (memReadList m.cells (c / 8 * 8) 8).set (c % 8) b = bs
  have hlen' : bs.length = 8 := by rw [← hbs, List.length_set, hlen]
  have hcells : (m.write (c / 8 * 8) (leNat bs)).cells = memWriteList m.cells (c / 8 * 8) bs := by
    show memWriteList m.cells (c / 8 * 8) (leBytes 8 (leNat bs)) = _
    rw [← hlen', leBytes_leNat]
  rw [hcells]
  by_cases hin : c / 8 * 8 ≤ a ∧ a < c / 8 * 8 + 8
  · obtain ⟨i, rfl⟩ := Nat.exists_eq_add_of_le hin.1
    have hi : i < 8 := by omega
    have hback := memReadList_memWriteList bs m.cells (c / 8 * 8) k
    rw [hlen'] at hback
    have hnew : memRead (memWriteList m.cells (c / 8 * 8) bs) (c / 8 * 8 + i) = bs[i]'(by omega) := by
      rw [← memReadList_getElem _ _ 8 i hi]
      exact List.getElem_of_eq hback _
    have hold := memReadList_getElem m.cells (c / 8 * 8) 8 i hi
    rw [hnew, List.getElem_of_eq hbs.symm, List.getElem_set, hold]
    exact ite_congr (propext (by omega)) (fun _ => rfl) (fun _ => rfl)
  · rw [if_neg (by rintro rfl; omega)]
    exact memRead_memWriteList_out bs m.cells _ a k (by omega)

/-- The byte of a clean word of HBM. -/
theorem MemSt.byte_clean {m : MemSt} {c d : Nat} (hc : c < sramBase) (h : m.read (c / 8 * 8) = .clean d) : (m.byte c).1 = memRead m.cells c := by
  obtain ⟨-, rfl⟩ := MemSt.syn_of_clean h
  have hbyte : (m.byte c).1 = BitVec.ofNat 8 (m.data (c / 8 * 8) / 2 ^ (8 * (c % 8))) := by
    unfold MemSt.byte MemSt.delivered
    dsimp only
    rw [h, if_neg (Nat.not_le.mpr hc)]
  have hi := Nat.mod_lt c (by decide : 8 > 0)
  rw [hbyte, two_pow_eight_mul, MemSt.data, leNat_byte _ _ (by rwa [memReadList_length]), memReadList_getElem _ _ 8 _ hi]
  exact congrArg (memRead m.cells) (by omega)

end Sys2Proof.Machine
end

section
/-! SETTLED. BAR2 accesses and the raw accesses of the test mode (R24, R324, R330, R332, R337). -/

namespace Sys2Proof.Machine

theorem exec_bar2Read_live (fn off n : Nat) {s : State} (hin : s.hub.hostIn = true) : exec (.bar2Read fn off n) s = .next (s.bar2Read fn off n) := by
  obtain ⟨hbar, hup⟩ := Hub.hostIn_live hin
  have harm : exec (.bar2Read fn off n) s = execBar2Read fn off n s := rfl
  rw [harm, execBar2Read, if_neg (by rw [hup]; decide), hbar]

theorem exec_bar2Write (fn off : Nat) (bytes : List Byte) (poison : Bool) (s : State) :
    exec (.bar2Write fn off bytes poison) s = execBar2Write fn off bytes poison s := rfl

/-- Nothing is discarded where every cell is live. -/
theorem State.cellsLost_none {s : State} {cells : List Nat} (h : ∀ a ∈ cells, s.cellLive a = true) : s.cellsLost cells = s := by
  have hnil : cells.filter (fun c => !s.cellLive c) = [] := List.filter_eq_nil_iff.2 fun a ha => by rw [h a ha]; decide
  rw [State.cellsLost, hnil]
  rfl

theorem State.mem_bar2Cells {s : State} {fn off n a : Nat} : a ∈ s.bar2Cells fn off n ↔ ∃ k < n, s.bar2Cell fn (off + k) = some a := by
  simp only [State.bar2Cells, List.mem_filterMap, List.mem_range]

theorem State.mem_bar2Words {s : State} {fn off n w : Nat} :
    w ∈ s.bar2Words fn off n ↔ ∃ k < n, ∃ a, s.bar2Cell fn (off + k) = some a ∧ a / 8 * 8 = w := by
  simp only [State.bar2Words, List.mem_eraseDups, List.mem_filterMap, List.mem_range, Option.map_eq_some_iff]

/-- A live write whose cells are all live is done, poisoned or byte by byte. -/
theorem exec_bar2Write_live (fn off : Nat) (bytes : List Byte) (poison : Bool) {s : State} (hin : s.hub.hostIn = true)
    (hlive : ∀ k a, k < bytes.length → s.bar2Cell fn (off + k) = some a → s.cellLive a = true) :
    exec (.bar2Write fn off bytes poison) s = .next (if poison then
      { s with mem := ((s.bar2Words fn off bytes.length).filter s.cellLive).foldl MemSt.poison s.mem } else s.bar2Put fn off bytes) := by
  have hnone : s.cellsLost (s.bar2Cells fn off bytes.length) = s := State.cellsLost_none fun a ha => by
    obtain ⟨k, hk, hcell⟩ := State.mem_bar2Cells.1 ha
    exact hlive k a hk hcell
  rw [exec_bar2Write, execBar2Write, if_pos hin, hnone]

/-- A read of which no word is lost, copied or bad answers its bytes where none is corrected. -/
theorem State.bar2Read_answers {s : State} {fn off n : Nat} (hlive : ∀ w ∈ s.bar2Words fn off n, s.cellLive w = true ∧ s.dbt.copying w = false)
    (hgood : ∀ w ∈ s.bar2Words fn off n, (∃ d, s.mem.read w = .clean d) ∨ s.mem.read w = .poison) :
    s.bar2Read fn off n = { s with hub := s.hub.emit (.memRead off (s.bar2Bytes fn off n).1 (s.bar2Bytes fn off n).2) } := by
  have hany : ¬ (s.bar2Words fn off n).any (fun w => !s.cellLive w || s.dbt.copying w) = true := by
    rw [List.any_eq_true]
    rintro ⟨w, hw, hbad⟩
    rw [(hlive w hw).1, (hlive w hw).2] at hbad
    cases hbad
  unfold State.bar2Read
  dsimp only
  rw [if_neg hany]
  split
  next w hfind =>
    have hw := List.find?_some hfind
    rcases hgood w (List.mem_of_find?_eq_some hfind) with ⟨d, hd⟩ | hd <;> rw [hd] at hw <;> cases hw
  next =>
    generalize hce : List.filter _ _ = ce
    have hnil : ce = [] := hce ▸ List.filter_eq_nil_iff.2 fun w hw => by
      rcases hgood w hw with ⟨d, hd⟩ | hd <;> rw [hd] <;> exact Bool.false_ne_true
    rw [hnil]
    rfl

/-- A read that meets a bad word is held for the page of one. -/
theorem State.bar2Read_bad {s : State} {fn off n : Nat} (hlive : ∀ w ∈ s.bar2Words fn off n, s.cellLive w = true ∧ s.dbt.copying w = false)
    (hbad : ∃ w ∈ s.bar2Words fn off n, ∃ d, s.mem.read w = .bad d) :
    ∃ w d, s.mem.read w = .bad d ∧ s.bar2Read fn off n = { s with mem := { s.mem with held := s.mem.held ++ [⟨fn, off, n, some (pageOf w)⟩] } } := by
  have hany : ¬ (s.bar2Words fn off n).any (fun w => !s.cellLive w || s.dbt.copying w) = true := by
    rw [List.any_eq_true]
    rintro ⟨w, hw, hlost⟩
    rw [(hlive w hw).1, (hlive w hw).2] at hlost
    cases hlost
  unfold State.bar2Read
  dsimp only
  rw [if_neg hany]
  split
  next w hfind =>
    have hw := List.find?_some hfind
    split at hw
    next d hd => exact ⟨w, d, hd, rfl⟩
    next => cases hw
  next hnone =>
    obtain ⟨w, hw, d, hd⟩ := hbad
    have hno := List.find?_eq_none.1 hnone w hw
    rw [hd] at hno
    exact absurd rfl hno

theorem State.bar2Read_held {s : State} {fn off n : Nat} (h : ∃ w ∈ s.bar2Words fn off n, s.cellLive w = false ∨ s.dbt.copying w = true) :
    s.bar2Read fn off n = { s with mem := { s.mem with held := s.mem.held ++ [⟨fn, off, n, none⟩] } } := by
  obtain ⟨w, hw, hlost⟩ := h
  have hany : (s.bar2Words fn off n).any (fun w => !s.cellLive w || s.dbt.copying w) = true :=
    List.any_eq_true.2 ⟨w, hw, by rcases hlost with h0 | h0 <;> simp only [h0, Bool.not_false, Bool.true_or, Bool.or_true]⟩
  unfold State.bar2Read
  dsimp only
  rw [if_pos hany]

/-- One aligned word put at BAR2. -/
theorem State.bar2Put_word {s : State} {fn off c v : Nat} (ha : off % 8 = 0) (hcell : s.bar2Cell fn off = some c) (hv : v < 2 ^ 64)
    (hlive : s.cellLive c = true) (hpc : s.pcLost c = false) : s.bar2Put fn off (leBytes 8 v) = { s with mem := s.mem.write c v } := by
  have hword : leNat (leBytes 8 v) = v := (leNat_leBytes 8 v).trans (Nat.mod_eq_of_lt hv)
  have hput : s.wordPut c v = { s with mem := s.mem.write c v } := if_pos ⟨hlive, by rw [hpc]; decide⟩
  have hstep : s.bar2Put fn off (leBytes 8 v) = (s.wordPut c (leNat (leBytes 8 v))).bar2Put fn (off + 8) [] := by
    simp only [leBytes, State.bar2Put, hcell, if_pos ha]
  rw [hstep, hword, State.bar2Put, hput]

/-- One byte put at BAR2 in a clean word of HBM. -/
theorem State.bar2Put_byte {s : State} {fn off c d : Nat} (b : Byte) (hcell : s.bar2Cell fn off = some c) (hc : c < sramBase)
    (hclean : s.mem.read (c / 8 * 8) = .clean d) (hlive : s.cellLive c = true) (hpc : s.pcLost c = false) :
    s.bar2Put fn off [b] = { s with mem := s.mem.putByte c b } := by
  have hmerge : s.mergeRead (c / 8 * 8) = s := by
    unfold State.mergeRead
    rw [hclean]
  have hput : s.cellPut c b = { s with mem := s.mem.putByte c b } := by
    rw [State.cellPut, if_neg (Nat.not_le.mpr hc), if_pos ⟨hlive, by rw [hpc]; decide⟩, hmerge]
  simp only [State.bar2Put, hcell, hput]

theorem exec_rawWrite {s : State} {w : Nat} (h : s.testWord = some w) :
    exec .rawWrite s = .next (({ s with mem := { s.mem with
      cells := memWriteList s.mem.cells w (leBytes 8 (s.hub.get64 MEM.TEST_DATA_LO.DATA 0))
      dev := putNZ s.mem.dev w (checkByte (s.hub.get64 MEM.TEST_DATA_LO.DATA 0) ^^^ s.hub.get MEM.TEST_CHECK.CHECK)
      diff := putNZ s.mem.diff w ((kvGet w s.mem.diff).getD 0 ^^^ s.mem.data w ^^^ s.hub.get64 MEM.TEST_DATA_LO.DATA 0) } } : State).testTake w 2) := by
  have harm : exec .rawWrite s = execRawWrite s := rfl
  rw [harm, execRawWrite, h]

theorem exec_rawRead {s : State} {w : Nat} (h : s.testWord = some w) :
    exec .rawRead s = .next ((s.withHub ((s.hub.set64 MEM.TEST_DATA_LO.DATA 0 (s.mem.data w)).set MEM.TEST_CHECK.CHECK
      (checkByte (s.mem.data w) ^^^ s.mem.syn w))).testTake w 1) := by
  have harm : exec .rawRead s = execRawRead s := rfl
  rw [harm, execRawRead, h]
  rfl

/-- The hub with the outcome of a checked read in its registers. -/
def Hub.checkShown (h : Hub) (r y d : Nat) : Hub :=
  ((h.set MEM.TEST_RESULT.RESULT r).set MEM.TEST_RESULT.SYNDROME y).set64 MEM.TEST_DATA_LO.DATA 0 d

theorem Hub.checkShown_frame (h : Hub) (r y d : Nat) : h.checkShown r y d = { h with regs := (h.checkShown r y d).regs } :=
  Hub.regs_frame_trans (Hub.regs_frame_trans (Hub.set_frame ..) (Hub.set_frame ..)) (Hub.set64_frame ..)

theorem Hub.checkShown_data {h : Hub} (c : h.canon) (r y : Nat) {d : Nat} (hd : d < 2 ^ 64) :
    (h.checkShown r y d).get64 MEM.TEST_DATA_LO.DATA 0 = d := Hub.get64_set64 (Hub.set_canon _ _ _ (Hub.set_canon _ _ _ c)) _ _ hd

theorem Hub.checkShown_result {h : Hub} (c : h.canon) (r y d : Nat) : (h.checkShown r y d).get MEM.TEST_RESULT.RESULT = r % 2 ^ 4 := by
  have c1 := Hub.set_canon h MEM.TEST_RESULT.RESULT r c
  have hrd : (h.checkShown r y d).get MEM.TEST_RESULT.RESULT = ((h.set MEM.TEST_RESULT.RESULT r).set MEM.TEST_RESULT.SYNDROME y).get MEM.TEST_RESULT.RESULT :=
    Hub.get_of_rd _ (Hub.rd_set64_ne (Hub.set_canon _ _ _ c1) _ _ _ (by decide) (by decide))
  rw [hrd, Hub.get_set_field c1 MEM.TEST_RESULT.SYNDROME MEM.TEST_RESULT.RESULT _ rfl (by decide) (by decide), Hub.get_set_self c _ _ (by decide)]
  rfl

theorem exec_checkedRead {s : State} {w : Nat} (h : s.testWord = some w) :
    exec .checkedRead s = .next ((s.withHub (s.hub.checkShown (s.mem.checked w).1 (s.mem.syn w) (s.mem.checked w).2)).testTake w 1) := by
  have harm : exec .checkedRead s = execCheckedRead s := rfl
  rw [harm, execCheckedRead, h]
  rfl

/-- A test access takes of the reservations alone. -/
theorem State.testTake_hub (s : State) (w n : Nat) : (s.testTake w n).hub = s.hub := by
  unfold State.testTake
  split <;> rfl

theorem State.testTake_mem (s : State) (w n : Nat) : (s.testTake w n).mem = s.mem := by
  unfold State.testTake
  split <;> rfl

theorem State.testTake_frame (s : State) (w n : Nat) : s.testTake w n = { s with fab := (s.testTake w n).fab } := by
  unfold State.testTake
  split <;> rfl

theorem State.testTake_withHub_frame (s : State) (h : Hub) (w n : Nat) (hh : h = { s.hub with regs := h.regs }) :
    ((s.withHub h).testTake w n) = { s with hub := { s.hub with regs := ((s.withHub h).testTake w n).hub.regs }, fab := ((s.withHub h).testTake w n).fab } := by
  have hregs : (s.withHub h).hub = { s.hub with regs := h.regs } := hh
  rw [State.testTake_hub, State.testTake_frame]
  exact congrArg (fun x => { s with hub := x, fab := ((s.withHub h).testTake w n).fab }) hregs

theorem Hub.get64_lt (h : Hub) (f : Fld) (i : Nat) : h.get64 f i < 2 ^ 64 := by
  have hlo := (h.rd (f.off i 0)).isLt
  have hhi := (h.rd (f.off i 0 + 4)).isLt
  rw [Hub.get64]
  omega

theorem State.rawWrite_settled (s : State) (w : Nat) (c : s.canon) (hw : s.testWord = some w) (hs : kvSorted s.mem.dev = true) :
    ∃ t, exec .rawWrite s = .next t ∧ t.mem.data w = s.hub.get64 MEM.TEST_DATA_LO.DATA 0 ∧
      checkByte (t.mem.data w) ^^^ t.mem.syn w = s.hub.get MEM.TEST_CHECK.CHECK ∧
      (∀ a, a < w ∨ w + 8 ≤ a → memRead t.mem.cells a = memRead s.mem.cells a) ∧ (∀ k, k ≠ w → t.mem.syn k = s.mem.syn k) ∧
      t.fab = (s.testTake w 2).fab ∧ t = { s with mem := t.mem, fab := t.fab } := by
  obtain ⟨-, cmem⟩ := c
  have hd := Hub.get64_lt s.hub MEM.TEST_DATA_LO.DATA 0
  generalize hget : s.hub.get64 MEM.TEST_DATA_LO.DATA 0 = d at hd
  refine ⟨_, exec_rawWrite hw, ?_⟩
  rw [State.testTake_mem, hget]
  have hdata : leNat (memReadList (memWriteList s.mem.cells w (leBytes 8 d)) w 8) = d := leNat_written s.mem.cells w d cmem hd
  refine ⟨hdata, ?_, fun a ha => memRead_written_out s.mem.cells d cmem ha, fun k hk => ?_, ?_, ?_⟩
  · rw [MemSt.data, hdata, MemSt.syn, kvGet_putNZ _ _ _ hs, ← Nat.xor_assoc, Nat.xor_self, Nat.zero_xor]
  · exact congrArg (·.getD 0) (kvGet_putNZ_ne s.mem.dev _ hs hk)
  · unfold State.testTake
    split <;> rfl
  · exact State.testTake_frame _ _ _

theorem State.rawRead_settled (s : State) (w : Nat) (c : s.canon) (hw : s.testWord = some w) :
    ∃ t, exec .rawRead s = .next t ∧ t.hub.get64 MEM.TEST_DATA_LO.DATA 0 = s.mem.data w ∧
      t.hub.get MEM.TEST_CHECK.CHECK = (checkByte (s.mem.data w) ^^^ s.mem.syn w) % 256 ∧
      t = { s with hub := { s.hub with regs := t.hub.regs }, fab := t.fab } := by
  have chub := State.canon_hub c
  have c1 := Hub.set64_canon s.hub MEM.TEST_DATA_LO.DATA 0 (s.mem.data w) chub
  refine ⟨_, exec_rawRead hw, ?_, ?_, State.testTake_withHub_frame _ _ _ _ (Hub.regs_frame_trans (Hub.set64_frame ..) (Hub.set_frame ..))⟩
  · rw [State.testTake_hub]
    refine (Hub.get64_of_rd _ _ (Hub.rd_set2_ne c1 _ _ _ _ _ (by decide)) (Hub.rd_set2_ne c1 _ _ _ _ _ (by decide))).trans ?_
    exact Hub.get64_set64 chub _ _ (s.mem.data_lt w)
  · rw [State.testTake_hub]
    exact Hub.get_set_self c1 _ _ (by decide)

theorem State.checkedRead_settled (s : State) (w r d : Nat) (c : s.canon) (hw : s.testWord = some w) (hr : s.mem.checked w = (r, d)) (hlt : d < 2 ^ 64) :
    ∃ t, exec .checkedRead s = .next t ∧ t.hub.get MEM.TEST_RESULT.RESULT = r % 2 ^ 4 ∧ t.hub.get64 MEM.TEST_DATA_LO.DATA 0 = d ∧
      t = { s with hub := { s.hub with regs := t.hub.regs }, fab := t.fab } := by
  have chub := State.canon_hub c
  refine ⟨_, exec_checkedRead hw, ?_, ?_, State.testTake_withHub_frame _ _ _ _ (Hub.checkShown_frame ..)⟩
  · rw [State.testTake_hub, hr]
    exact Hub.checkShown_result chub _ _ _
  · rw [State.testTake_hub, hr]
    exact Hub.checkShown_data chub _ _ hlt

theorem State.bar2Write_word_settled (fn off c v : Nat) (s : State) (k : s.canon) (hin : s.hub.hostIn = true) (ha : off % 8 = 0)
    (hcell : s.bar2Cell fn off = some c) (hv : v < 2 ^ 64) (hs : kvSorted s.mem.dev = true)
    (hlive : ∀ k a, k < 8 → s.bar2Cell fn (off + k) = some a → s.cellLive a = true) (hpc : s.pcLost c = false) :
    ∃ t, exec (.bar2Write fn off (leBytes 8 v) false) s = .next t ∧ t.mem.read c = .clean v ∧
      (∀ a, a < c ∨ c + 8 ≤ a → memRead t.mem.cells a = memRead s.mem.cells a) ∧ t.mem.merge = s.mem.merge ∧ t = { s with mem := t.mem } := by
  obtain ⟨-, cmem⟩ := k
  have hexec := exec_bar2Write_live fn off (leBytes 8 v) false hin (by rwa [leBytes_length])
  rw [if_neg (by decide), State.bar2Put_word ha hcell hv (hlive 0 c (by decide) hcell) hpc] at hexec
  exact ⟨_, hexec, MemSt.read_write cmem hs c hv, fun a ha' => memRead_written_out s.mem.cells v cmem ha', rfl, rfl⟩

theorem State.bar2Write_byte_settled (fn off c d : Nat) (b : Byte) (s : State) (k : s.canon) (hin : s.hub.hostIn = true)
    (hcell : s.bar2Cell fn off = some c) (hc : c < sramBase) (hclean : s.mem.read (c / 8 * 8) = .clean d) (hs : kvSorted s.mem.dev = true)
    (hlive : s.cellLive c = true) (hpc : s.pcLost c = false) :
    ∃ t, exec (.bar2Write fn off [b] false) s = .next t ∧ (t.mem.byte c).1 = b ∧
      (∀ a, a ≠ c → memRead t.mem.cells a = memRead s.mem.cells a) ∧ t.mem.merge = s.mem.merge ∧ t = { s with mem := t.mem } := by
  obtain ⟨-, cmem⟩ := k
  have hexec := exec_bar2Write_live fn off [b] false hin (fun k a hk hcell' => by
    obtain rfl : k = 0 := Nat.lt_one_iff.1 hk
    rw [Nat.add_zero, hcell] at hcell'
    exact Option.some.inj hcell' ▸ hlive)
  rw [if_neg (by decide), State.bar2Put_byte b hcell hc hclean hlive hpc] at hexec
  have hnew := MemSt.memRead_putByte cmem hclean b
  have hlt := leNat_lt ((memReadList s.mem.cells (c / 8 * 8) 8).set (c % 8) b)
  rw [List.length_set, memReadList_length] at hlt
  have hread := MemSt.read_write cmem hs (c / 8 * 8) hlt
  rw [← MemSt.putByte_clean hclean] at hread
  have hmerge : (s.mem.putByte c b).merge = s.mem.merge := by
    rw [MemSt.putByte_clean hclean]
    rfl
  exact ⟨_, hexec, (MemSt.byte_clean hc hread).trans ((hnew c).trans (if_pos rfl)), fun a ha => (hnew a).trans (if_neg ha), hmerge, rfl⟩

theorem State.bar2Write_poison_settled (fn off c : Nat) (bytes : List Byte) (s : State) (k : s.canon) (hin : s.hub.hostIn = true) (hne : bytes ≠ [])
    (hcell : s.bar2Cell fn off = some c)
    (hlive : ∀ k a, k < bytes.length → s.bar2Cell fn (off + k) = some a → s.cellLive a = true ∧ s.cellLive (a / 8 * 8) = true) :
    ∃ t, exec (.bar2Write fn off bytes true) s = .next t ∧ t.mem.read (c / 8 * 8) = .poison ∧ t = { s with mem := t.mem } := by
  obtain ⟨-, cmem⟩ := k
  have hexec := exec_bar2Write_live fn off bytes true hin fun k a hk hcell' => (hlive k a hk hcell').1
  rw [if_pos rfl] at hexec
  have hpos : 0 < bytes.length := List.length_pos_iff.mpr hne
  refine ⟨_, hexec, MemSt.read_foldl_poison _ cmem (fun x hx => ?_) (Nat.mul_mod_left _ _) (.inl ?_), rfl⟩
  · obtain ⟨_, _, a, _, rfl⟩ := State.mem_bar2Words.1 (List.mem_filter.1 hx).1
    exact Nat.mul_mod_left _ _
  · exact List.mem_filter.2 ⟨State.mem_bar2Words.2 ⟨0, hpos, c, hcell, rfl⟩, (hlive 0 c hpos hcell).2⟩

/-- Settles O37: reads by what their words read as, writes by the word, byte or poison they store, and the test port's three accesses. -/
theorem memoryAccesses : Obligations.MemoryAccesses := by
  refine ⟨⟨fun fn off n s => ⟨fun hdown => ?_, fun hup hbar => ?_⟩, fun fn off n s hin hlive => ⟨fun hgood => ?_, fun hbad => ?_⟩,
    fun fn off n s hin hheld => ?_, fun fn off c v s k hin ha hcell hv hs hlive hpc => State.bar2Write_word_settled fn off c v s k hin ha hcell hv hs hlive hpc,
    fun fn off c d b s k hin hcell hc hclean hs hlive hpc => State.bar2Write_byte_settled fn off c d b s k hin hcell hc hclean hs hlive hpc,
    fun fn off c bytes s k hin hne hcell hlive => State.bar2Write_poison_settled fn off c bytes s k hin hne hcell hlive,
    fun fn off bytes poison s hin => ?_⟩,
    fun s w k hw hs => ⟨State.rawWrite_settled s w k hw hs, State.rawRead_settled s w k hw, fun d hd => ?_, fun hp => ?_⟩⟩
  · have harm : exec (.bar2Read fn off n) s = execBar2Read fn off n s := rfl
    rw [harm, execBar2Read, if_pos hdown]
  · have harm : exec (.bar2Read fn off n) s = execBar2Read fn off n s := rfl
    rw [harm, execBar2Read, if_neg (by rw [hup]; decide), hbar]
  · rw [exec_bar2Read_live fn off n hin, State.bar2Read_answers hlive hgood]
  · obtain ⟨w, d, hd, hread⟩ := State.bar2Read_bad hlive hbad
    exact ⟨_, _, pageOf w, (exec_bar2Read_live fn off n hin).trans (congrArg Host.Outcome.next hread), rfl, rfl, MemSt.badWords_ne_nil hd, rfl⟩
  · rw [exec_bar2Read_live fn off n hin, State.bar2Read_held hheld]
  · rw [exec_bar2Write, execBar2Write, if_neg (by rw [hin]; decide)]
  · obtain ⟨-, rfl⟩ := MemSt.syn_of_clean hd
    exact State.checkedRead_settled s w 1 _ k hw (by rw [MemSt.checked, hd]) (s.mem.data_lt w)
  · obtain ⟨t, hexec, hresult, -, hframe⟩ := State.checkedRead_settled s w 4 0 k hw (by rw [MemSt.checked, hp]) (by decide)
    exact ⟨t, hexec, hresult, hframe⟩

end Sys2Proof.Machine
end

section
/-! SETTLED. Items that a cipher lane releases, and items that it drops (R299, R300, R302). -/

namespace Sys2Proof.Machine

theorem CipSt.slot_put_self (c : CipSt) (n : Nat) (k : KeySlot) : ({ c with slots := kvPut n k c.slots } : CipSt).slot n = k := by
  rw [CipSt.slot, kvGet_kvPut_self]
  rfl

theorem CipSt.slot_put_ne (c : CipSt) {n m : Nat} (k : KeySlot) (h : m ≠ n) : ({ c with slots := kvPut n k c.slots } : CipSt).slot m = c.slot m := by
  rw [CipSt.slot, CipSt.slot, kvGet_kvPut_ne n m k c.slots h]

/-- Of two states, does the second differ from the first in key slots and hub alone? -/
def State.SlotsOnly (s t : State) : Prop := t = { s with hub := t.hub, cip := { s.cip with slots := t.cip.slots } }

theorem State.SlotsOnly.trans {a b c : State} (h : a.SlotsOnly b) (g : b.SlotsOnly c) : a.SlotsOnly c := by
  unfold State.SlotsOnly at h g ⊢
  rw [g, h]

theorem State.exhaust_slotsOnly (s : State) (n : Nat) : s.SlotsOnly (s.exhaust n) := by
  unfold State.exhaust
  dsimp only
  split <;> rfl

theorem State.cipUse_slotsOnly (s : State) (n : Nat) : s.SlotsOnly (s.cipUse n) := by
  unfold State.cipUse
  dsimp only
  split
  · refine State.SlotsOnly.trans ?_ (State.exhaust_slotsOnly _ n)
    split <;> rfl
  · split <;> rfl

/-- A slot that is exhausted keeps its use, and every other slot stays. -/
theorem State.exhaust_slot (s : State) (n : Nat) : ((s.exhaust n).cip.slot n).use = (s.cip.slot n).use ∧
    ∀ m, m ≠ n → (s.exhaust n).cip.slot m = s.cip.slot m := by
  unfold State.exhaust
  dsimp only
  split
  · exact ⟨rfl, fun _ _ => rfl⟩
  · have hself := congrArg KeySlot.use (CipSt.slot_put_self s.cip n { s.cip.slot n with state := 2 })
    exact ⟨hself, fun m hm => CipSt.slot_put_ne s.cip _ hm⟩

/-- One use is counted in its slot, as far as the count reaches, and in no other. -/
theorem State.cipUse_slot (s : State) (n : Nat) : ((s.cipUse n).cip.slot n).use = min ((s.cip.slot n).use + 1) (2 ^ 64 - 1) ∧
    ∀ m, m ≠ n → (s.cipUse n).cip.slot m = s.cip.slot m := by
  unfold State.cipUse
  generalize hk : ({ s.cip.slot n with
    use := min ((s.cip.slot n).use + 1) (2 ^ 64 - 1)
    softHit := (s.cip.slot n).softHit || decide (min ((s.cip.slot n).use + 1) (2 ^ 64 - 1) = (s.cip.slot n).soft ∧
      (s.cip.slot n).soft < (s.cip.slot n).hard ∧ (!(s.cip.slot n).softHit) = true) } : KeySlot) = k
  have huse : k.use = min ((s.cip.slot n).use + 1) (2 ^ 64 - 1) := hk ▸ rfl
  dsimp only
  rw [hk]
  have hcip : ∀ (p : Prop) [Decidable p] (h : Hub), (if p then { s.setSlot n k with hub := h } else s.setSlot n k).cip = (s.setSlot n k).cip := by
    intro p _ h
    split <;> rfl
  have huse' : (s.setSlot n k).cip.slot n = k := CipSt.slot_put_self s.cip n k
  have hother : ∀ m, m ≠ n → (s.setSlot n k).cip.slot m = s.cip.slot m := fun m hm => CipSt.slot_put_ne s.cip k hm
  split
  · obtain ⟨hsame, hrest⟩ := State.exhaust_slot _ n
    rw [hcip] at hsame hrest
    exact ⟨hsame.trans ((congrArg KeySlot.use huse').trans huse), fun m hm => (hrest m hm).trans (hother m hm)⟩
  · rw [hcip]
    exact ⟨(congrArg KeySlot.use huse').trans huse, hother⟩

theorem State.laneCompute_some (s : State) (l n : Nat) : s.laneCompute (some l) n = { s with
    hub := s.hub.stat CIP.LANE_BLOCKS_LO.COUNT l n
    cip := { s.cip with ends := kvPut l (max ((kvGet l s.cip.ends).getD 0) s.hub.hcNow + n) s.cip.ends } } := rfl

/-- A lane takes blocks in its queue's end, its count and its sash's counter alone. -/
theorem State.laneTake_takes (s : State) (sash : Nat) (lane : Option Nat) (n : Nat) :
    ∃ h e f, s.laneTake sash lane n = { s with hub := h, cip := { s.cip with ends := e }, fab := f } := by
  cases lane with
  | none => exact ⟨s.hub, s.cip.ends, s.fab, rfl⟩
  | some l =>
    rw [State.laneTake, State.laneCompute_some]
    exact ⟨_, _, _, rfl⟩

/-- A CENC sample of a running slot made for it, on which the pipelines agree, is one use and is released. -/
theorem State.cipher_cenc {s : State} {it : CipItem} (hpoison : it.poison = false) (hkind : it.kind = 3) (hrun : (s.cip.slot it.slot).state = 1)
    (hmode : (s.cip.slot it.slot).mode = 6 ∨ (s.cip.slot it.slot).mode = 7) (hdec : (s.cip.slot it.slot).dec = it.dec) (hagree : it.mismatches = 0) :
    s.cipher it = ((s.cipUse it.slot).laneTake it.sash (s.cipLane it.sash) (cipBlocks (s.cip.slot it.slot).mode it.aad it.len), true) := by
  have hfit : ¬ ((!modeFits it.kind (s.cip.slot it.slot).mode) = true ∨ (s.cip.slot it.slot).dec ≠ it.dec) := by
    rw [hkind, hdec]
    simp [modeFits, hmode]
  have hidx : (if it.dec = true then (s, true) else s.cipIndex it) = (s, true) := by
    unfold State.cipIndex
    rw [hkind]
    exact ite_self _
  have hsound : ¬ (it.poison = true ∧ (s.cip.slot it.slot).state ≠ 3) := by simp [hpoison]
  unfold State.cipher
  dsimp only
  rw [if_neg hsound, if_neg (by rw [hrun]; decide), if_neg (by rw [hrun]; decide), if_neg hfit, if_neg (by rw [hrun]; exact fun h => absurd h.2 (by decide)), hidx,
    if_neg (show ¬ (!true) = true by decide), if_neg (by rw [hagree]; decide), if_neg fun h => h.2 hkind, if_neg (by rw [hagree]; decide)]

/-- An item of an empty slot is dropped and counted. -/
theorem State.cipher_empty {s : State} {it : CipItem} (hpoison : it.poison = false) (hempty : (s.cip.slot it.slot).state = 0) :
    s.cipher it = (s.cipDrop CIP.EMPTY_DROP.COUNT it.slot (some 0x1003), false) := by
  have hsound : ¬ (it.poison = true ∧ (s.cip.slot it.slot).state ≠ 3) := by simp [hpoison]
  unfold State.cipher
  dsimp only
  rw [if_neg hsound, if_pos hempty]

/-- An SRTP index used before under the stream's generation is refused. -/
theorem CipSt.index_used {c : CipSt} {stream n seq : Nat} {w : IdxWin} (hw : kvGet stream c.windows = some w) (hslot : w.slot = n)
    (hgen : w.gen = (c.slot n).gen) (hspace : srtpIndex w.top seq < 2 ^ 48) (htop : srtpIndex w.top seq ≤ w.top) (hseen : srtpIndex w.top seq ∈ w.seen) :
    c.index stream n seq = .refused := by
  unfold CipSt.index
  dsimp only
  rw [hw]
  dsimp only
  rw [if_pos ⟨hslot, hgen⟩, if_neg (Nat.not_le.mpr hspace), if_neg (Nat.not_lt.mpr htop), if_pos (.inr hseen)]

/-- An encryption whose index is refused is dropped and counted. -/
theorem State.cipher_indexRefused {s : State} {it : CipItem} (hpoison : it.poison = false) (hkind : it.kind = 0) (henc : it.dec = false)
    (hdec : (s.cip.slot it.slot).dec = false) (hrun : (s.cip.slot it.slot).state = 1) (hmode : modeFits 0 (s.cip.slot it.slot).mode = true)
    (hindex : s.cip.index it.stream it.slot it.seq = .refused) :
    s.cipher it = (s.cipDrop CIP.IDX_REFUSED.COUNT it.slot (some 0x1005), false) := by
  have hfit : ¬ ((!modeFits it.kind (s.cip.slot it.slot).mode) = true ∨ (s.cip.slot it.slot).dec ≠ it.dec) := by
    rw [hkind, hdec, hmode, henc]
    decide
  have hidx : (if it.dec = true then (s, true) else s.cipIndex it) = (s.cipDrop CIP.IDX_REFUSED.COUNT it.slot (some 0x1005), false) := by
    rw [if_neg (by rw [henc]; decide)]
    unfold State.cipIndex
    rw [hkind]
    dsimp only
    rw [hindex]
    rfl
  have hsound : ¬ (it.poison = true ∧ (s.cip.slot it.slot).state ≠ 3) := by simp [hpoison]
  unfold State.cipher
  dsimp only
  rw [if_neg hsound, if_neg (by rw [hrun]; decide), if_neg (by rw [hrun]; decide), if_neg hfit, if_neg (by rw [hrun]; exact fun h => absurd h.2 (by decide)), hidx,
    if_pos (show (!false) = true from rfl)]

theorem exec_cipherItem_released {it : CipItem} {s t : State} (hlive : s.hub.get GLB.STATUS.FROZEN ≠ 1) (h : s.cipher it = (t, true)) :
    exec (.cipherItem it) s = .next { t with hub := t.hub.emit (.token 0 "cipher" [it.slot, it.kind, if it.dec then 1 else 0, it.len]) } := by
  have harm : exec (.cipherItem it) s = execCipherItem it s := rfl
  rw [harm, execCipherItem, h]
  dsimp only
  rw [if_neg hlive, if_pos rfl]

/-- Settles O34: the sample's use is counted, its blocks go to the lane and its token is the last message out; the drops are the whole step of the
two others. -/
theorem cipherReleasesOnce : Obligations.CipherReleasesOnce := by
  intro it s hlive hpoison
  refine ⟨fun hkind hrun hmode hdec hagree => ?_, fun hempty => ?_, fun w hkind henc hdec hrun hmode hw hslot hgen hspace htop hseen => ?_⟩
  · have hexec := exec_cipherItem_released hlive (State.cipher_cenc hpoison hkind hrun hmode hdec hagree)
    rw [hkind] at hexec
    generalize hblocks : cipBlocks (s.cip.slot it.slot).mode it.aad it.len = n at hexec
    obtain ⟨huse, hother⟩ := State.cipUse_slot s it.slot
    have hframe := State.cipUse_slotsOnly s it.slot
    obtain ⟨h, e, f, hlane⟩ := State.laneTake_takes (s.cipUse it.slot) it.sash (s.cipLane it.sash) n
    rw [hlane] at hexec
    unfold State.SlotsOnly at hframe
    generalize s.cipUse it.slot = a at hframe hexec huse hother
    refine ⟨_, hexec, List.getLast?_concat, huse, hother, ?_⟩
    rw [hframe]
  · exact exec_cipherItem_unreleased hlive (State.cipher_empty hpoison hempty)
  · exact exec_cipherItem_unreleased hlive
      (State.cipher_indexRefused hpoison hkind henc hdec hrun hmode (CipSt.index_used hw hslot hgen hspace htop hseen))

end Sys2Proof.Machine
end

section
/-! SETTLED. The states of the time servo (Table 16.1). -/

namespace Sys2Proof.Machine

/-- A flag field, once set, reads as set. -/
theorem Hub.get_setHoldover {h : Hub} (c : h.canon) {v : Nat} (hv : v < 2) : (h.setHoldover v).get LVR.STATUS.HOLDOVER = v := by
  unfold Hub.setHoldover
  split
  next heq => exact heq
  next =>
    rw [Hub.raise_get (Hub.set_canon h LVR.STATUS.HOLDOVER v c) _ LVR.STATUS.HOLDOVER 0x0406 0 rfl rfl (by decide) (by decide),
      Hub.get_set_self c _ _ (by decide)]
    exact Nat.mod_eq_of_lt hv

/-- Holdover is no field of another register. -/
theorem Hub.get_setHoldover_ne {h : Hub} (c : h.canon) (v : Nat) (f : Fld) (ho : f.off 0 0 ≠ LVR.STATUS.HOLDOVER.off 0 0)
    (he : f.off 0 0 ≠ evtOff 0x0406 0) (hk : offLog (f.off 0 0)) : (h.setHoldover v).get f = h.get f := by
  unfold Hub.setHoldover
  split
  · rfl
  · rw [Hub.raise_get (Hub.set_canon h LVR.STATUS.HOLDOVER v c) _ f 0x0406 0 rfl rfl he hk, Hub.get_set_ne c _ _ _ ho]

/-- The hub of a servo that enters a state, with holdover and the event of the change. -/
def Hub.servoTo (h : Hub) (st hold : Nat) (ev : Ev) : Hub := ((h.set TIM.STATUS.STATE st).setHoldover hold).raise ev

/-- Its two fields, where the event is one of the time's own. -/
theorem Hub.servoTo_shows {h : Hub} (c : h.canon) {st hold : Nat} (ev : Ev) {code : Nat} (hst : st < 4) (hhold : hold < 2) (hcode : ev.code = code)
    (hinst : ev.inst = 0) (hevt : evtOff code 0 = 0x1B00080) :
    (h.servoTo st hold ev).get TIM.STATUS.STATE = st ∧ (h.servoTo st hold ev).get LVR.STATUS.HOLDOVER = hold := by
  have c1 := Hub.set_canon h TIM.STATUS.STATE st c
  have c2 := Hub.setHoldover_canon _ hold c1
  constructor
  · rw [Hub.servoTo, Hub.raise_get c2 _ TIM.STATUS.STATE code 0 hcode hinst (by rw [hevt]; decide) (by decide),
      Hub.get_setHoldover_ne c1 _ TIM.STATUS.STATE (by decide) (by decide) (by decide), Hub.get_set_self c _ _ (by decide)]
    exact Nat.mod_eq_of_lt hst
  · rw [Hub.servoTo, Hub.raise_get c2 _ LVR.STATUS.HOLDOVER code 0 hcode hinst (by rw [hevt]; decide) (by decide), Hub.get_setHoldover c1 hhold]

theorem State.timeLock_locked {s : State} (h : s.hub.get TIM.STATUS.STATE = 1) : s.timeLock = s := if_pos h

theorem State.timeLock_eq {s : State} (h : s.hub.get TIM.STATUS.STATE ≠ 1) :
    s.timeLock = { s with hub := s.hub.servoTo 1 0 { code := 0x1102 }, tim := { s.tim with servoAt := s.hub.time.total } } := if_neg h

theorem State.timeLoss_eq {s : State} (cause : Nat) (h : s.hub.get TIM.STATUS.STATE = 1) :
    s.timeLoss cause = { s with hub := s.hub.servoTo 2 1 { code := 0x1103, detail := [cause] } } := if_pos h

theorem State.timeLoss_unlocked {s : State} (cause : Nat) (h : s.hub.get TIM.STATUS.STATE ≠ 1) : s.timeLoss cause = s := if_neg h

theorem exec_lockWrite (val : Word) {s : State} (hin : s.hub.hostIn = true) : exec (.lockWrite val) s = .next (s.lockWrite val) := by
  have harm : exec (.lockWrite val) s = execLockWrite val s := rfl
  rw [harm, execLockWrite, if_pos hin]

/-- What a write of the lock does in a servo that may move. -/
theorem State.lockWrite_servo {s : State} (val : Word) (hservo : s.hub.get TIM.CFG.SERVO = 1) (hfrozen : s.hub.get GLB.STATUS.FROZEN = 0) :
    s.lockWrite val = if val.getLsbD 0 = true then s.timeLock else s.timeLoss 0 := if_pos ⟨hservo, hfrozen⟩

/-- The hub after the PTP service's loss: no port is slave, and the servo's fields stand. -/
theorem Hub.slavePort_cleared {h : Hub} (c : h.canon) :
    (h.set TIM.STATUS.SLAVE_PORT 0xFF).get TIM.STATUS.SLAVE_PORT = 0xFF ∧
    (h.set TIM.STATUS.SLAVE_PORT 0xFF).get TIM.STATUS.STATE = h.get TIM.STATUS.STATE ∧
    (h.set TIM.STATUS.SLAVE_PORT 0xFF).get LVR.STATUS.HOLDOVER = h.get LVR.STATUS.HOLDOVER :=
  ⟨Hub.get_set_self c _ _ (by decide), Hub.get_set_field c _ _ _ rfl (by decide) (by decide), Hub.get_set_ne c _ _ _ (by decide)⟩

theorem TimSt.port_setPort_self (t : TimSt) (p : Nat) (x : PtpPort) : (t.setPort p x).port p = x := by
  show (kvGet p (kvPut p x t.ports)).getD {} = x
  rw [kvGet_kvPut_self]
  rfl

theorem TimSt.port_setPort_ne (t : TimSt) {p k : Nat} (x : PtpPort) (hk : k ≠ p) : (t.setPort p x).port k = t.port k :=
  congrArg (fun o : Option PtpPort => o.getD {}) (kvGet_kvPut_ne p k x t.ports hk)

/-- A loss that the PTP service declares. -/
theorem exec_ptpLossDeclared {s : State} {p : Nat} (hp : s.hub.get TIM.STATUS.SLAVE_PORT = p)
    (h : s.ptpRuns = true ∧ s.hub.get TIM.CFG.SERVO = 0 ∧ s.ptpLost p = true) :
    exec .ptpLossDeclared s = .next { s.timeLoss 0 with
      hub := (s.timeLoss 0).hub.set TIM.STATUS.SLAVE_PORT 0xFF
      tim := (s.timeLoss 0).tim.setPort p { (s.timeLoss 0).tim.port p with slave := false, good := 0 } } := by
  subst hp
  exact congrArg Host.Outcome.next (if_pos h)

/-- Settles O15: each change is the servo's lock or loss where its condition holds, and nothing where it does not. -/
theorem servoStates : Obligations.ServoStates := by
  refine ⟨fun val s c hin => ⟨fun hno => ?_, fun hservo hfrozen => ⟨fun hbit hfree => ?_, fun hbit hlocked => ?_, fun hsame => ?_⟩⟩,
    fun s c => ⟨fun hno => congrArg Host.Outcome.next (if_neg hno), fun hruns hservo hgood hfree => ?_, fun hno => congrArg Host.Outcome.next (if_neg hno), fun hruns hservo hlost hlocked => ?_,
      fun hdue hlocked => ?_, fun hno => ?_⟩⟩
  all_goals have chub := State.canon_hub c
  · rw [exec_lockWrite val hin, State.lockWrite, if_neg]
    rintro ⟨hservo, hfrozen⟩
    exact hno.elim (fun h => h hservo) fun h => h hfrozen
  · have hexec := exec_lockWrite val hin
    rw [State.lockWrite_servo val hservo hfrozen, if_pos hbit, State.timeLock_eq hfree] at hexec
    obtain ⟨hstate, hhold⟩ := Hub.servoTo_shows (st := 1) (hold := 0) chub { code := 0x1102 } (by decide) (by decide) rfl rfl rfl
    exact ⟨_, hexec, hstate, hhold, rfl⟩
  · have hexec := exec_lockWrite val hin
    rw [State.lockWrite_servo val hservo hfrozen, if_neg (by rw [hbit]; decide), State.timeLoss_eq 0 hlocked] at hexec
    obtain ⟨hstate, hhold⟩ := Hub.servoTo_shows (st := 2) (hold := 1) chub { code := 0x1103, detail := [0] } (by decide) (by decide) rfl rfl rfl
    exact ⟨_, hexec, hstate, hhold, rfl⟩
  · rw [exec_lockWrite val hin, State.lockWrite_servo val hservo hfrozen, hsame]
    by_cases hlocked : s.hub.get TIM.STATUS.STATE = 1
    · rw [State.timeLock_locked hlocked, if_pos (beq_iff_eq.2 hlocked)]
    · rw [State.timeLoss_unlocked 0 hlocked, if_neg (fun h => hlocked (beq_iff_eq.1 h))]
  · have hexec : exec .ptpLockDeclared s = .next s.timeLock := congrArg Host.Outcome.next (if_pos ⟨hruns, hservo, hgood⟩)
    rw [State.timeLock_eq hfree] at hexec
    obtain ⟨hstate, hhold⟩ := Hub.servoTo_shows (st := 1) (hold := 0) chub { code := 0x1102 } (by decide) (by decide) rfl rfl rfl
    exact ⟨_, hexec, hstate, hhold, rfl⟩
  · have hexec := exec_ptpLossDeclared rfl ⟨hruns, hservo, hlost⟩
    rw [State.timeLoss_eq 0 hlocked] at hexec
    obtain ⟨hstate, hhold⟩ := Hub.servoTo_shows (st := 2) (hold := 1) chub { code := 0x1103, detail := [0] } (by decide) (by decide) rfl rfl rfl
    have c1 : (s.hub.servoTo 2 1 { code := 0x1103, detail := [0] }).canon :=
      Hub.raise_canon _ _ (Hub.setHoldover_canon _ 1 (Hub.set_canon _ _ 2 chub))
    obtain ⟨hslave, hstate', hhold'⟩ := Hub.slavePort_cleared c1
    exact ⟨_, hexec, hstate'.trans hstate, hhold'.trans hhold, hslave, congrArg PtpPort.slave (TimSt.port_setPort_self _ _ _), rfl⟩
  · have hexec : exec .timWatchdogExpiry s = .next (s.timeLoss 1) := congrArg Host.Outcome.next (if_neg (by
      obtain ⟨hwd, hfrozen, htime⟩ := hdue
      rintro (h | h | h)
      · exact hwd h
      · exact hfrozen h
      · exact Nat.not_lt.mpr htime h))
    rw [State.timeLoss_eq 1 hlocked] at hexec
    obtain ⟨hstate, hhold⟩ := Hub.servoTo_shows (st := 2) (hold := 1) chub { code := 0x1103, detail := [1] } (by decide) (by decide) rfl rfl rfl
    exact ⟨_, hexec, hstate, hhold, rfl⟩
  · have harm : exec .timWatchdogExpiry s = execTimWatchdogExpiry s := rfl
    rw [harm, execTimWatchdogExpiry]
    split
    next => rfl
    next hdue =>
      obtain ⟨hwd, hrest⟩ := not_or.1 hdue
      obtain ⟨hfrozen, htime⟩ := not_or.1 hrest
      rw [State.timeLoss_unlocked 1 (hno.resolve_left (not_not_intro ⟨hwd, hfrozen, Nat.not_lt.1 htime⟩))]

end Sys2Proof.Machine
end

section
/-! SETTLED. The pulse and event pins of the time unit (R319, R320). -/

namespace Sys2Proof.Machine

/-- A register of one 32-bit field is that field. -/
theorem Hub.rd_toNat_full (h : Hub) (f : Fld) (i : Nat) (hlo : f.lo = 0) (hw : f.width = 32) : (h.rd (f.off i 0)).toNat = h.get1 f i := by
  have hlt := (h.rd (f.off i 0)).isLt
  rw [Hub.get1, Hub.get2, Fld.of, hlo, hw, Nat.pow_zero, Nat.div_one, Nat.mod_eq_of_lt hlt]

theorem Hub.raise_get1 {h : Hub} (c : h.canon) (ev : Ev) (f : Fld) (i : Nat) {code inst : Nat} (hcode : ev.code = code) (hinst : ev.inst = inst)
    (he : f.off i 0 ≠ evtOff code inst) (hk : offLog (f.off i 0)) : (h.raise ev).get1 f i = h.get1 f i :=
  Hub.get1_of_rd f i (Hub.raise_rd c ev _ (by rw [hcode, hinst]; exact he) hk)

/-- Two full registers set and an event raised: both read as set, other registers as before. -/
theorem Hub.stamped {h : Hub} (c : h.canon) {f g : Fld} {i : Nat} (v w : Nat) (ev : Ev) {code : Nat} (hcode : ev.code = code) (hinst : ev.inst = 0)
    (hevt : evtOff code 0 = 0x1B00080) (hflo : f.lo = 0) (hfw : f.width = 32) (hglo : g.lo = 0) (hgw : g.width = 32)
    (hf : f.off i 0 ≠ 0x1B00080 ∧ offLog (f.off i 0)) (hg : g.off i 0 ≠ 0x1B00080 ∧ offLog (g.off i 0)) (hfg : f.off i 0 ≠ g.off i 0) :
    ((((h.set1 f i v).set1 g i w).raise ev).rd (f.off i 0)).toNat = v % 2 ^ 32 ∧
    ((((h.set1 f i v).set1 g i w).raise ev).rd (g.off i 0)).toNat = w % 2 ^ 32 ∧
    ∀ k, k ≠ 0x1B00080 → offLog k → k ≠ f.off i 0 → k ≠ g.off i 0 → (((h.set1 f i v).set1 g i w).raise ev).rd k = h.rd k := by
  have c1 := Hub.set1_canon h f i v c
  have c2 := Hub.set1_canon _ g i w c1
  have hraise : ∀ k, k ≠ 0x1B00080 → offLog k → (((h.set1 f i v).set1 g i w).raise ev).rd k = ((h.set1 f i v).set1 g i w).rd k :=
    fun k hk hlog => Hub.raise_rd c2 ev k (by rw [hcode, hinst, hevt]; exact hk) hlog
  refine ⟨?_, ?_, fun k hk hlog hkf hkg => ?_⟩
  · rw [hraise _ hf.1 hf.2, Hub.set1, Hub.rd_set2_ne c1 _ _ _ _ _ hfg, Hub.rd_toNat_full _ f i hflo hfw, Hub.get1_set1_self c f i v (by omega), hfw]
  · rw [hraise _ hg.1 hg.2, Hub.rd_toNat_full _ g i hglo hgw, Hub.get1_set1_self c1 g i w (by omega), hgw]
  · rw [hraise k hk hlog, Hub.set1, Hub.rd_set2_ne c1 _ _ _ _ _ hkg, Hub.set1, Hub.rd_set2_ne c _ _ _ _ _ hkf]

/-- The hub of a stamp that finds the last one unread or not: the overrun is counted first (R319, R320). -/
def Hub.overrun (h : Hub) (unread : Bool) : Hub := if unread then h.err TIM.OVERRUN.COUNT 0 0x1106 0 else h

theorem Hub.overrun_canon {h : Hub} (c : h.canon) (unread : Bool) : (h.overrun unread).canon :=
  Hub.canon_if (Hub.err_canon _ _ _ _ _ c) c

theorem Hub.overrun_counts {h : Hub} (c : h.canon) (hlow : h.rd 0x1B00064 ≠ BitVec.allOnes 32) : (h.overrun true).rd 0x1B00064 = h.rd 0x1B00064 + 1 :=
  Hub.err_rd_self c TIM.OVERRUN.COUNT 0 0x1106 0 hlow (by decide) (by decide)

@[simp] theorem TimSt.pin_setPin_self (t : TimSt) (n : Nat) (p : TevPin) : (t.setPin n p).pin n = p := by
  show (kvGet n (kvPut n p t.tev)).getD {} = p
  rw [kvGet_kvPut_self]
  rfl

theorem exec_ppsInEdge (s : State) : exec .ppsInEdge s = .next { s with
    hub := (((s.hub.overrun s.tim.ppsUnread).set1 TIM.PPS_IN_NS.NS 0 s.hub.time.ns).set1 TIM.PPS_IN_SEC.SEC 0 s.hub.time.sec).raise { code := 0x1107 }
    tim := { s.tim with ppsUnread := true } } := rfl

/-- A PPS_IN edge is stamped, and counted where the last was not read. -/
theorem State.ppsInEdge_settled (s : State) (c : s.canon) : ∃ t, exec .ppsInEdge s = .next t ∧ (t.hub.rd 0x1B00040).toNat = s.hub.time.ns % 2 ^ 32 ∧
    (t.hub.rd 0x1B00044).toNat = s.hub.time.sec % 2 ^ 32 ∧ t.tim.ppsUnread = true ∧
    (s.tim.ppsUnread = true → s.hub.rd 0x1B00064 ≠ BitVec.allOnes 32 → t.hub.rd 0x1B00064 = s.hub.rd 0x1B00064 + 1) ∧
    (s.tim.ppsUnread = false → t.hub.rd 0x1B00064 = s.hub.rd 0x1B00064) ∧ t = { s with hub := t.hub, tim := { s.tim with ppsUnread := true } } := by
  have chub := State.canon_hub c
  obtain ⟨hns, hsec, hrest⟩ := Hub.stamped (f := TIM.PPS_IN_NS.NS) (g := TIM.PPS_IN_SEC.SEC) (i := 0) (code := 0x1107)
    (Hub.overrun_canon chub s.tim.ppsUnread) s.hub.time.ns s.hub.time.sec { code := 0x1107 } rfl rfl rfl rfl rfl rfl rfl
    (by decide) (by decide) (by decide)
  have hcount := hrest 0x1B00064 (by decide) (by decide) (by decide) (by decide)
  refine ⟨_, exec_ppsInEdge s, hns, hsec, rfl, fun hunread hlow => hcount.trans ?_, fun hread => hcount.trans ?_, rfl⟩
  · rw [hunread]
    exact Hub.overrun_counts chub hlow
  · rw [hread]
    rfl

theorem State.pinPulseEnd_settled (pin : Nat) (s : State) (hpin : pin < 4) :
    let due := (s.tim.pin pin).level = true ∧ (s.tim.pin pin).rose + pulseNs (s.hub.get1 TIM.TEV_CTL.WIDTH_US pin) ≤ s.hub.elapsed
    (due → ∃ t, exec (.pinPulseEnd pin) s = .next t ∧ t.hub.out = s.hub.out ++ [.pin (pinName pin) false] ∧ (t.tim.pin pin).level = false ∧
      t = { s with hub := { s.hub with out := t.hub.out }, tim := { s.tim with tev := t.tim.tev } }) ∧
    (¬due → exec (.pinPulseEnd pin) s = .next s) := by
  have harm : exec (.pinPulseEnd pin) s = execPinPulseEnd pin s := rfl
  refine ⟨fun hdue => ?_, fun hdue => ?_⟩
  · rw [harm, execPinPulseEnd, if_pos hpin, if_pos hdue]
    exact ⟨_, rfl, rfl, congrArg TevPin.level (TimSt.pin_setPin_self s.tim pin { s.tim.pin pin with level := false }), rfl⟩
  · rw [harm, execPinPulseEnd, if_pos hpin, if_neg hdue]

theorem exec_tevCaptureEdge {s : State} {pin : Nat} (hmode : s.hub.get1 TIM.TEV_CTL.MODE pin = 1) (hpin : pin < 4) :
    exec (.tevCaptureEdge pin) s = .next { s with
      hub := (((s.hub.overrun (s.tim.pin pin).unread).set1 TIM.TEV_CAP_NS.NS pin s.hub.time.ns).set1 TIM.TEV_CAP_SEC.SEC pin s.hub.time.sec).raise
        { code := 0x1108, detail := [pin, s.hub.time.ns, s.hub.time.sec % 2 ^ 32] }
      tim := s.tim.setPin pin { s.tim.pin pin with unread := true } } := congrArg Host.Outcome.next (if_pos ⟨hmode, hpin⟩)

/-- An edge in capture mode is stamped, and counted where the last was not read. -/
theorem State.tevCaptureEdge_settled (pin : Nat) (s : State) (c : s.canon) (hpin : pin < 4) (hmode : s.hub.get1 TIM.TEV_CTL.MODE pin = 1) :
    ∃ t, exec (.tevCaptureEdge pin) s = .next t ∧ (t.hub.rd (0x1B00114 + 32 * pin)).toNat = s.hub.time.ns % 2 ^ 32 ∧
      (t.hub.rd (0x1B00118 + 32 * pin)).toNat = s.hub.time.sec % 2 ^ 32 ∧ (t.tim.pin pin).unread = true ∧
      ((s.tim.pin pin).unread = true → s.hub.rd 0x1B00064 ≠ BitVec.allOnes 32 → t.hub.rd 0x1B00064 = s.hub.rd 0x1B00064 + 1) ∧
      t = { s with hub := t.hub, tim := { s.tim with tev := t.tim.tev } } := by
  have chub := State.canon_hub c
  have hns : TIM.TEV_CAP_NS.NS.off pin 0 = 0x1B00114 + 32 * pin := rfl
  have hsec : TIM.TEV_CAP_SEC.SEC.off pin 0 = 0x1B00118 + 32 * pin := rfl
  obtain ⟨hns', hsec', hrest⟩ := Hub.stamped (f := TIM.TEV_CAP_NS.NS) (g := TIM.TEV_CAP_SEC.SEC) (i := pin) (code := 0x1108)
    (Hub.overrun_canon chub (s.tim.pin pin).unread) s.hub.time.ns s.hub.time.sec
    { code := 0x1108, detail := [pin, s.hub.time.ns, s.hub.time.sec % 2 ^ 32] } rfl rfl rfl rfl rfl rfl rfl
    (by rw [hns]; unfold offLog; omega) (by rw [hsec]; unfold offLog; omega) (by rw [hns, hsec]; omega)
  refine ⟨_, exec_tevCaptureEdge hmode hpin, hns', hsec', congrArg TevPin.unread (TimSt.pin_setPin_self s.tim pin { s.tim.pin pin with unread := true }),
    fun hunread hlow => (hrest 0x1B00064 (by decide) (by decide) (by rw [hns]; omega) (by rw [hsec]; omega)).trans ?_, rfl⟩
  rw [hunread]
  exact Hub.overrun_counts chub hlow

/-- A rise at its instant. -/
theorem State.tevRise_settled (pin at_ : Nat) (s : State) (hnext : (s.tim.pin pin).next = some at_) :
    (at_ ≤ s.hub.time.total → (s.tim.pin pin).level = false →
      ∃ t, exec (.tevRise pin) s = .next t ∧ t.hub.out = s.hub.out ++ [.pin (pinName pin) true] ∧ (t.tim.pin pin).level = true ∧
        (t.tim.pin pin).rose = s.hub.elapsed ∧ (s.hub.get1 TIM.TEV_CTL.MODE pin ≠ 3 → (t.tim.pin pin).next = none)) ∧
    (s.hub.time.total < at_ → exec (.tevRise pin) s = .next s) := by
  have harm : exec (.tevRise pin) s = execTevRise pin s := rfl
  rw [harm, execTevRise, hnext]
  dsimp only
  refine ⟨fun hdue hlow => ?_, fun hearly => by rw [if_neg (Nat.not_le.mpr hearly)]⟩
  rw [if_pos hdue, State.tevRise, hnext]
  dsimp only
  rw [hlow]
  generalize hp : ({ s.tim.pin pin with
    level := true
    rose := s.hub.elapsed
    next := if s.hub.get1 TIM.TEV_CTL.MODE pin = 3 then
      some (nextPeriodic at_ (s.hub.tevPeriod pin) (max (at_ + 1) s.hub.time.total)) else none } : TevPin) = p
  have hpin : (s.tim.setPin pin p).pin pin = p := TimSt.pin_setPin_self _ _ _
  refine ⟨_, rfl, rfl, (congrArg TevPin.level hpin).trans (hp ▸ rfl), (congrArg TevPin.rose hpin).trans (hp ▸ rfl), fun hmode => ?_⟩
  exact (congrArg TevPin.next hpin).trans (hp ▸ if_neg hmode)

/-! ### A write of a pin's control register -/

/-- What a pin's time is read from: the time, and registers of the time unit other than its events. -/
theorem Hub.tevT_congr {a b : Hub} {n : Nat} (hn : n < 4) (ht : a.time = b.time)
    (hrd : ∀ k, 0x1B00000 ≤ k → k < 0x1B00200 → k ≠ 0x1B00080 → a.rd k = b.rd k) : a.tevT n = b.tevT n := by
  have hns : a.rd (TIM.TEV_T_NS.NS.off n 0) = b.rd (TIM.TEV_T_NS.NS.off n 0) := by
    rw [show TIM.TEV_T_NS.NS.off n 0 = 0x1B00104 + 32 * n from rfl]
    exact hrd _ (by omega) (by omega) (by omega)
  have hlo : a.rd (TIM.TEV_T_SEC_LO.SEC.off n 0) = b.rd (TIM.TEV_T_SEC_LO.SEC.off n 0) := by
    rw [show TIM.TEV_T_SEC_LO.SEC.off n 0 = 0x1B00108 + 32 * n from rfl]
    exact hrd _ (by omega) (by omega) (by omega)
  have hhi : a.rd (TIM.TEV_T_SEC_HI.SEC.off n 0) = b.rd (TIM.TEV_T_SEC_HI.SEC.off n 0) := by
    rw [show TIM.TEV_T_SEC_HI.SEC.off n 0 = 0x1B0010C + 32 * n from rfl]
    exact hrd _ (by omega) (by omega) (by omega)
  have hcfg : a.rd (TIM.CFG.COMPACT.off 0 0) = b.rd (TIM.CFG.COMPACT.off 0 0) := hrd _ (by decide) (by decide) (by decide)
  rw [Hub.tevT, Hub.tevT, Hub.schedNs, Hub.schedNs, Hub.compactNs, Hub.compactNs, Hub.get1_of_rd _ n hns, Hub.get1_of_rd _ n hlo,
    Hub.get1_of_rd _ n hhi, Hub.get_of_rd _ hcfg, ht]

theorem tevCtl_mask : ∀ pin < 4, (accMask .rw (0x1B00100 + 0x20 * pin)).getLsbD 30 = true ∧ (accMask .rw (0x1B00100 + 0x20 * pin)).getLsbD 31 = true := by
  decide +kernel

/-- A masked write takes a field that the mask covers. -/
theorem Fld.of_masked (f : Fld) (m old val : Word) (hf : f.lo + f.width ≤ 32) (hm : ∀ i < f.width, m.getLsbD (f.lo + i) = true) :
    f.of ((old &&& ~~~ m) ||| (val &&& m)) = f.of val := by
  apply Nat.eq_of_testBit_eq
  intro i
  rw [Fld.of_getLsbD, Fld.of_getLsbD]
  by_cases hi : i < f.width
  · have hlt : f.lo + i < 32 := by omega
    simp only [BitVec.getLsbD_or, BitVec.getLsbD_and, BitVec.getLsbD_not, hm i hi, hlt, hi, decide_true, Bool.true_and, Bool.not_true, Bool.and_false,
      Bool.false_or, Bool.and_true]
  · simp [hi]

/-- The hub of a pin scheduled anew: an event where it is late, a fall where it is switched off. -/
def Hub.tevScheduled (h : Hub) (n : Nat) (level : Bool) : Hub :=
  if h.get1 TIM.TEV_CTL.MODE n = 2 ∧ h.tevT n < h.time.total then h.raise { code := 0x1104, detail := [n] }
  else if h.get1 TIM.TEV_CTL.MODE n = 0 ∧ level then h.emit (.pin (pinName n) false) else h

theorem Hub.tevScheduled_rd {h : Hub} (c : h.canon) (n : Nat) (level : Bool) {k : Nat} (hk : k ≠ 0x1B00080) (hlog : offLog k) :
    (h.tevScheduled n level).rd k = h.rd k := by
  unfold Hub.tevScheduled
  split
  · exact Hub.raise_rd c _ k (show k ≠ evtOff 0x1104 0 from hk) hlog
  · split <;> rfl

theorem Hub.tevScheduled_time (h : Hub) (n : Nat) (level : Bool) : (h.tevScheduled n level).time = h.time := by
  unfold Hub.tevScheduled
  split
  · exact Hub.raise_time h _
  · split <;> rfl

theorem State.tevSchedule_eq (s : State) (n : Nat) : s.tevSchedule n = { s with
    hub := s.hub.tevScheduled n (s.tim.pin n).level
    tim := s.tim.setPin n { s.tim.pin n with
      next := s.hub.tevNext n
      level := if s.hub.get1 TIM.TEV_CTL.MODE n = 0 then false else (s.tim.pin n).level } } := rfl

theorem exec_tevConfigWrite_ctl {pin : Nat} (val : Word) {s : State} (hin : s.hub.hostIn = true) (hpin : pin < 4) :
    exec (.tevConfigWrite pin 0 val) s = .next ((s.withHub (s.hub.wr (0x1B00100 + 0x20 * pin)
      ((s.hub.rd (0x1B00100 + 0x20 * pin) &&& ~~~ accMask .rw (0x1B00100 + 0x20 * pin)) ||| (val &&& accMask .rw (0x1B00100 + 0x20 * pin))))).tevSchedule pin) :=
  congrArg Host.Outcome.next (if_pos ⟨hpin, Nat.zero_le _, hin⟩)

/-- A write of a pin's control register schedules the pin by the mode written. -/
theorem State.tevConfigWrite_settled (pin : Nat) (val : Word) (s : State) (c : s.canon) (hin : s.hub.hostIn = true) (hpin : pin < 4) :
    ∃ t, exec (.tevConfigWrite pin 0 val) s = .next t ∧ t.hub.get1 TIM.TEV_CTL.MODE pin = TIM.TEV_CTL.MODE.of val ∧
      (TIM.TEV_CTL.MODE.of val = 0 → (t.tim.pin pin).next = none ∧ (t.tim.pin pin).level = false) ∧
      (TIM.TEV_CTL.MODE.of val = 2 → (t.tim.pin pin).next = some (max (t.hub.tevT pin) s.hub.time.total)) ∧
      t = { s with hub := t.hub, tim := { s.tim with tev := t.tim.tev } } := by
  have chub := State.canon_hub c
  have hexec := exec_tevConfigWrite_ctl val hin hpin
  obtain ⟨h30, h31⟩ := tevCtl_mask pin hpin
  have hfield := Fld.of_masked TIM.TEV_CTL.MODE (accMask .rw (0x1B00100 + 0x20 * pin)) (s.hub.rd (0x1B00100 + 0x20 * pin)) val (by decide) fun i hi => by
    have hcases : i = 0 ∨ i = 1 := by have hlt : i < 2 := hi; omega
    rcases hcases with rfl | rfl
    · exact h30
    · exact h31
  generalize ((s.hub.rd (0x1B00100 + 0x20 * pin) &&& ~~~ accMask .rw (0x1B00100 + 0x20 * pin)) ||| (val &&& accMask .rw (0x1B00100 + 0x20 * pin))) = w
    at hexec hfield
  have c1 : (s.hub.wr (0x1B00100 + 0x20 * pin) w).canon := Hub.wr_canon _ _ _ chub
  have hmode : (s.hub.wr (0x1B00100 + 0x20 * pin) w).get1 TIM.TEV_CTL.MODE pin = TIM.TEV_CTL.MODE.of val := by
    rw [← hfield]
    exact congrArg TIM.TEV_CTL.MODE.of (Hub.rd_wr_self chub _ _)
  have htime : (s.hub.wr (0x1B00100 + 0x20 * pin) w).time = s.hub.time := rfl
  rw [State.tevSchedule_eq] at hexec
  have hhub : (s.withHub (s.hub.wr (0x1B00100 + 0x20 * pin) w)).hub = s.hub.wr (0x1B00100 + 0x20 * pin) w := rfl
  rw [hhub] at hexec
  generalize s.hub.wr (0x1B00100 + 0x20 * pin) w = h at hexec c1 hmode htime
  have hrd : ∀ k, k ≠ 0x1B00080 → offLog k → (h.tevScheduled pin (s.tim.pin pin).level).rd k = h.rd k := fun k => Hub.tevScheduled_rd c1 pin _
  have hT := Hub.tevT_congr hpin (Hub.tevScheduled_time h pin (s.tim.pin pin).level) fun k hlo hhi hk => hrd k hk (by unfold offLog; omega)
  have hself := TimSt.pin_setPin_self s.tim pin { s.tim.pin pin with
    next := h.tevNext pin
    level := if h.get1 TIM.TEV_CTL.MODE pin = 0 then false else (s.tim.pin pin).level }
  refine ⟨_, hexec, ?_, fun hoff => ⟨(congrArg TevPin.next hself).trans ?_, (congrArg TevPin.level hself).trans ?_⟩,
    fun hshot => (congrArg TevPin.next hself).trans ?_, rfl⟩
  · refine (Hub.get1_of_rd TIM.TEV_CTL.MODE pin (hrd _ ?_ ?_)).trans hmode
    · rw [show TIM.TEV_CTL.MODE.off pin 0 = 0x1B00100 + 32 * pin from rfl]
      omega
    · rw [show TIM.TEV_CTL.MODE.off pin 0 = 0x1B00100 + 32 * pin from rfl]
      unfold offLog
      omega
  · show h.tevNext pin = none
    rw [Hub.tevNext, hmode, hoff]
    rfl
  · exact if_pos (hmode.trans hoff)
  · show h.tevNext pin = some _
    rw [Hub.tevNext, hmode, hshot, ← htime]
    exact congrArg (fun x => some (max x h.time.total)) hT.symm

/-- Settles O16: each edge, rise and fall where it is due, and nothing before. -/
theorem pulseAndEventPins : Obligations.PulseAndEventPins := by
  refine ⟨State.ppsInEdge_settled, fun s hon hcarry hlow => ?_, fun s hno => ?_, State.pinPulseEnd_settled, fun s hhigh hdue => ?_,
    State.tevCaptureEdge_settled, fun pin s hmode => ?_, fun pin at_ s => State.tevRise_settled pin at_ s, State.tevConfigWrite_settled⟩
  · have harm : exec .ppsOutPulse s = execPpsOutPulse s := rfl
    rw [harm, execPpsOutPulse, if_pos ⟨hon, hcarry⟩, if_neg (by rw [hlow]; decide)]
  · have harm : exec .ppsOutPulse s = execPpsOutPulse s := rfl
    rw [harm, execPpsOutPulse, if_neg]
    rintro ⟨hon, hcarry⟩
    exact hno.elim (fun h => h hon) fun h => by rw [hcarry] at h; cases h
  · have harm : exec (.pinPulseEnd 4) s = execPinPulseEnd 4 s := rfl
    rw [harm, execPinPulseEnd, if_neg (by decide), if_pos ⟨hhigh, hdue⟩]
  · exact congrArg Host.Outcome.next (if_neg fun h => hmode h.1)

end Sys2Proof.Machine
end

section
/-! SUPPORT. What sending a frame leaves unchanged: all but the hub and the queues. -/

namespace Sys2Proof.Machine

/-- Does the second state differ from the first in hub and queues alone? -/
def State.QueuesOnly (s t : State) : Prop := t = { s with hub := t.hub, qsc := t.qsc }

theorem State.QueuesOnly.refl (s : State) : s.QueuesOnly s := rfl

theorem State.QueuesOnly.trans {a b c : State} (h : a.QueuesOnly b) (g : b.QueuesOnly c) : a.QueuesOnly c := by
  unfold State.QueuesOnly at h g ⊢
  rw [g, h]

theorem State.QueuesOnly.tim {a b : State} (h : a.QueuesOnly b) : b.tim = a.tim := by
  rw [h]

theorem State.withHub_queuesOnly (s : State) (h : Hub) : s.QueuesOnly (s.withHub h) := rfl

theorem State.setQueue_queuesOnly (s : State) (n : Nat) (q : EgrQueue) : s.QueuesOnly (s.setQueue n q) := rfl

theorem State.markDepth_queuesOnly (s : State) (n : Nat) (q : EgrQueue) : s.QueuesOnly (s.markDepth n q) := rfl

theorem State.dropOversize_queuesOnly (s : State) (n fuel : Nat) : s.QueuesOnly (s.dropOversize n fuel) := by
  induction fuel generalizing s with
  | zero => exact .refl s
  | succ fuel ih =>
    rw [State.dropOversize]
    split
    · split
      · split
        · exact .refl s
        · exact ((State.withHub_queuesOnly s _).trans (State.setQueue_queuesOnly _ n _)).trans (ih _)
      · exact .refl s
    · exact .refl s

theorem State.enqueue_queuesOnly (s : State) (n p c : Nat) (front : Bool) (len : Nat) (msg : OutMsg) (sec : Option CipItem) (idx : Option IdxEntry) :
    s.QueuesOnly (s.enqueue n p c front len msg sec idx) := by
  unfold State.enqueue
  extract_lets q it q1 q2 s1
  have h1 : s.QueuesOnly s1 := (State.setQueue_queuesOnly s n q2).trans (State.markDepth_queuesOnly _ n q2)
  split
  · exact .refl s
  · split
    · exact State.withHub_queuesOnly s _
    · split
      · exact h1.trans (State.dropOversize_queuesOnly s1 n 1)
      · exact h1

theorem State.sysSend_queuesOnly (s : State) (n p len : Nat) (msg : OutMsg) : s.QueuesOnly (s.sysSend n p len msg) := by
  unfold State.sysSend
  exact State.enqueue_queuesOnly ..

theorem State.ptpSend_queuesOnly (s : State) (port kind seq : Nat) (args : List Nat) : s.QueuesOnly (s.ptpSend port kind seq args) := by
  unfold State.ptpSend
  exact State.sysSend_queuesOnly ..

theorem State.ptpSendIf_tim (p : Prop) [Decidable p] (s : State) (port kind seq : Nat) (args : List Nat) :
    (if p then s.ptpSend port kind seq args else s).tim = s.tim := by
  split
  · exact (State.ptpSend_queuesOnly s port kind seq args).tim
  · rfl

/-- A change of every value leaves each under its key. -/
theorem kvGet_map {α β : Type} (f : Nat → α → β) (m : List (Nat × α)) (k : Nat) :
    kvGet k (m.map fun e => (e.1, f e.1 e.2)) = (kvGet k m).map (f k) := by
  induction m with
  | nil => rfl
  | cons e t ih =>
    obtain ⟨j, v⟩ := e
    rw [List.map_cons, kvGet, kvGet]
    split
    next heq => rw [heq]; rfl
    next =>
      split
      · rfl
      · exact ih

end Sys2Proof.Machine
end

section
/-! SETTLED. PTP messages and the PTP service's commands (R314–R318, Table 19.5). -/

namespace Sys2Proof.Machine

/-- Of the other ports, none is slave once one becomes it. -/
theorem State.ptpSlave_on {s : State} {port : Nat} (h : (s.tim.port port).mayFollow = true) :
    (s.ptpSlave port (some true)).tim.port port = { s.tim.port port with slave := true } ∧
    ∀ k, k ≠ port → ((s.ptpSlave port (some true)).tim.port k).slave = false := by
  have hmay : ¬ (!(s.tim.port port).mayFollow) = true := by rw [h]; decide
  have heq : s.tim.ports.map (fun (e : Nat × PtpPort) => if e.1 = port then e else (e.1, { e.2 with slave := false, good := 0 })) =
      s.tim.ports.map fun (e : Nat × PtpPort) => (e.1, if e.1 = port then e.2 else { e.2 with slave := false, good := 0 }) :=
    List.map_congr_left fun e _ => by split <;> rfl
  unfold State.ptpSlave
  rw [if_neg hmay, heq]
  refine ⟨TimSt.port_setPort_self _ _ _, fun k hk => ?_⟩
  refine (congrArg PtpPort.slave (TimSt.port_setPort_ne _ _ hk)).trans ?_
  show ((kvGet k (s.tim.ports.map fun (e : Nat × PtpPort) => (e.1, if e.1 = port then e.2 else { e.2 with slave := false, good := 0 }))).getD {}).slave = false
  rw [kvGet_map (fun j (p : PtpPort) => if j = port then p else { p with slave := false, good := 0 })]
  cases kvGet k s.tim.ports with
  | none => rfl
  | some p =>
    rw [Option.map_some, Option.getD_some, if_neg hk]

theorem State.ptpSlave_off (s : State) (port : Nat) :
    (s.ptpSlave port (some false)).tim.port port = { s.tim.port port with slave := false, good := 0 } := TimSt.port_setPort_self _ _ _

/-- A message that a port takes: its records are those of the slave rule after what the service keeps of it. -/
theorem exec_ptpFrameReceive_taken {f : PtpFrame} {s : State} (hen : s.hub.get1 TIM.PORT_CFG.PTP_EN f.port = 1) (hup : s.portUp f.port = true)
    (hfrozen : s.hub.get GLB.STATUS.FROZEN = 0) (hdom : f.domain = s.tim.domain) :
    ∃ t, exec (.ptpFrameReceive f) s = .next t ∧
      ∃ h : Hub, t.tim = (({ s with hub := h, tim := s.tim.setPort f.port ((s.tim.port f.port).take f (s.rxStamp f.port f.sec f.ns f.frac) s.tim.lockNs s.hub.elapsed) } :
        State).ptpSlave f.port f.slave).tim := by
  have harm : exec (.ptpFrameReceive f) s = execPtpFrameReceive f s := rfl
  rw [harm, execPtpFrameReceive]
  dsimp only
  rw [if_pos ⟨hen, hup, hfrozen⟩, if_pos hdom]
  exact ⟨_, rfl, _, State.ptpSendIf_tim _ _ _ _ _ _⟩

/-- A message of another domain is dropped and counted. -/
theorem exec_ptpFrameReceive_dropped {f : PtpFrame} {s : State} (hen : s.hub.get1 TIM.PORT_CFG.PTP_EN f.port = 1) (hup : s.portUp f.port = true)
    (hfrozen : s.hub.get GLB.STATUS.FROZEN = 0) (hdom : f.domain ≠ s.tim.domain) :
    exec (.ptpFrameReceive f) s = .next { s with hub := (s.hub.err TIM.PTP_DROP.COUNT 0 0x1106 0).raiseRl { code := 0x1105 } } := by
  have harm : exec (.ptpFrameReceive f) s = execPtpFrameReceive f s := rfl
  rw [harm, execPtpFrameReceive]
  dsimp only
  rw [if_pos ⟨hen, hup, hfrozen⟩, if_neg hdom]

/-- The record of a port that has sent a message. -/
def PtpPort.sentOne (p : PtpPort) (kind now : Nat) (stamp : Int) : PtpPort :=
  if kind = 1 then { p with seq := (p.seq + 1) % 65536, sent := kvPut kind now p.sent, reqSeq := p.seq, t3 := stamp }
  else { p with seq := (p.seq + 1) % 65536, sent := kvPut kind now p.sent }

/-- The timer of a message before its interval has passed, or of a port that does not send it, does nothing. -/
theorem exec_ptpMessageTimer_early {port kind sec ns frac x : Nat} {s : State} (hx : kvGet kind (s.tim.port port).sent = some x)
    (hearly : s.hub.elapsed < x + (s.tim.port port).interval kind) : exec (.ptpMessageTimer port kind sec ns frac) s = .next s := by
  have harm : exec (.ptpMessageTimer port kind sec ns frac) s = execPtpMessageTimer port kind sec ns frac s := rfl
  rw [harm, execPtpMessageTimer, hx]
  dsimp only
  rw [if_neg]
  rintro ⟨-, -, -, h, -⟩
  rw [decide_eq_true hearly] at h
  cases h

/-- The timer of a message that is due and that the port sends. -/
theorem exec_ptpMessageTimer_due {port kind sec ns frac : Nat} {s : State} (hruns : s.ptpRuns = true) (hen : s.hub.get1 TIM.PORT_CFG.PTP_EN port = 1)
    (hrole : (s.tim.port port).role ≠ 0) (hdue : ∀ x, kvGet kind (s.tim.port port).sent = some x → x + (s.tim.port port).interval kind ≤ s.hub.elapsed)
    (hsends : (if kind = 1 then (s.tim.port port).slave else (s.tim.port port).leads) = true) :
    ∃ t, exec (.ptpMessageTimer port kind sec ns frac) s = .next t ∧
      t.tim.port port = (s.tim.port port).sentOne kind s.hub.elapsed (s.txStamp port sec ns frac) ∧
      t = { s with hub := t.hub, tim := t.tim, qsc := t.qsc } := by
  have harm : exec (.ptpMessageTimer port kind sec ns frac) s = execPtpMessageTimer port kind sec ns frac s := rfl
  rw [harm, execPtpMessageTimer]
  dsimp only
  rw [if_pos ⟨hruns, hen, hrole, by
    cases hsent : kvGet kind (s.tim.port port).sent with
    | none => rfl
    | some x => simpa using hdue x hsent, hsends⟩]
  generalize hp : (if kind = 1 then _ else _ : PtpPort) = p2
  have hp2 : p2 = (s.tim.port port).sentOne kind s.hub.elapsed (s.txStamp port sec ns frac) := by
    rw [← hp]
    rfl
  have hfrom : ∀ t, ({ s with tim := s.tim.setPort port p2 } : State).QueuesOnly t →
      t.tim.port port = (s.tim.port port).sentOne kind s.hub.elapsed (s.txStamp port sec ns frac) ∧ t = { s with hub := t.hub, tim := t.tim, qsc := t.qsc } := by
    intro t ht
    refine ⟨?_, ?_⟩
    · rw [ht.tim, ← hp2]
      exact TimSt.port_setPort_self _ _ _
    · have htim := ht.tim
      unfold State.QueuesOnly at ht
      rw [htim]
      exact ht
  refine ⟨_, rfl, hfrom _ ?_⟩
  split
  · exact State.ptpSend_queuesOnly _ _ _ _ _
  · split
    · exact (State.ptpSend_queuesOnly _ _ _ _ _).trans (State.ptpSend_queuesOnly _ _ _ _ _)
    · exact State.ptpSend_queuesOnly _ _ _ _ _

theorem clampLog_range {v lo hi : Int} (h : lo ≤ hi) : lo ≤ clampLog v lo hi ∧ clampLog v lo hi ≤ hi := by
  unfold clampLog
  omega

/-- Settles O17: a message by whether its port takes it and its domain, a Sync by its checksum, a timer by its interval, the commands by the port's
number. -/
theorem ptpMessagesAndService : Obligations.PtpMessagesAndService := by
  refine ⟨⟨fun f s hen hup hfrozen => ⟨fun hdom => ?taken, fun c hdom hlow => ?dropped⟩, fun f s hno => ?away,
    fun port sec ns frac oldSec oldNs oldCorr sum s hup hfrozen => ?sync, fun port kind sec ns frac s hruns hen hrole => ?timer⟩,
    fun e body s => ⟨?ranges, fun hport => ?known, fun hport => ?unknown⟩⟩
  case taken =>
    obtain ⟨t, hexec, h, htim⟩ := exec_ptpFrameReceive_taken hen hup hfrozen hdom
    have hself := TimSt.port_setPort_self s.tim f.port ((s.tim.port f.port).take f (s.rxStamp f.port f.sec f.ns f.frac) s.tim.lockNs s.hub.elapsed)
    refine ⟨t, hexec, fun hslave => ?_, fun hslave hmay => ?_, fun hslave => ?_⟩
    · rw [hslave] at htim
      rw [htim]
      exact ⟨hself, fun k hk => TimSt.port_setPort_ne _ _ hk⟩
    · rw [hslave] at htim
      have hon := State.ptpSlave_on (port := f.port) (s := { s with
        hub := h
        tim := s.tim.setPort f.port ((s.tim.port f.port).take f (s.rxStamp f.port f.sec f.ns f.frac) s.tim.lockNs s.hub.elapsed) }) (by rw [hself]; exact hmay)
      rw [hself, ← htim] at hon
      exact hon
    · rw [hslave] at htim
      rw [htim, State.ptpSlave_off, hself]
  case dropped =>
    have chub := State.canon_hub c
    refine ⟨_, exec_ptpFrameReceive_dropped hen hup hfrozen hdom, ?_, rfl⟩
    refine (Hub.raiseRl_rd (Hub.err_canon _ _ _ _ _ chub) _ 0x1B00060 (by decide)).trans ?_
    exact Hub.err_rd_self chub TIM.PTP_DROP.COUNT 0 _ _ hlow (by decide) (by decide)
  case away =>
    have harm : exec (.ptpFrameReceive f) s = execPtpFrameReceive f s := rfl
    rw [harm, execPtpFrameReceive]
    dsimp only
    rw [if_neg]
    rintro ⟨hen, hup, hfrozen⟩
    rcases hno with h | h | h
    · exact h hen
    · rw [hup] at h
      cases h
    · exact h hfrozen
  case sync =>
    have harm : exec (.oneStepSync port sec ns frac oldSec oldNs oldCorr sum) s = execOneStepSync port sec ns frac oldSec oldNs oldCorr sum s := rfl
    rw [harm]
    unfold execOneStepSync
    dsimp only
    rw [if_pos ⟨hup, hfrozen⟩]
    refine ⟨?_, ?_, fun c => ?_⟩ <;> rintro rfl <;> rfl
  case timer =>
    refine ⟨fun ⟨x, hx, hearly⟩ => exec_ptpMessageTimer_early hx hearly, fun hdue => ⟨fun hkind hleads => ?_, fun hkind hslave => ?_⟩⟩
    · obtain ⟨t, hexec, hport, hframe⟩ := exec_ptpMessageTimer_due (sec := sec) (ns := ns) (frac := frac) hruns hen hrole hdue (by rwa [if_neg hkind])
      exact ⟨t, hexec, hport.trans (if_neg hkind), hframe⟩
    · obtain ⟨t, hexec, hport, hframe⟩ := exec_ptpMessageTimer_due (sec := sec) (ns := ns) (frac := frac) hruns hen hrole hdue (by rwa [if_pos hkind])
      exact ⟨t, hexec, hport.trans (if_pos hkind), hframe⟩
  case ranges =>
    obtain ⟨hs1, hs2⟩ := clampLog_range (v := signed8 (bodyU8 body 4)) (lo := -7) (hi := 4) (by decide)
    obtain ⟨ha1, ha2⟩ := clampLog_range (v := signed8 (bodyU8 body 5)) (lo := -3) (hi := 4) (by decide)
    obtain ⟨hd1, hd2⟩ := clampLog_range (v := signed8 (bodyU8 body 6)) (lo := -7) (hi := 5) (by decide)
    refine ⟨hs1, hs2, ha1, ha2, hd1, hd2, ?_⟩
    show (if bodyU8 body 1 ≤ 3 then bodyU8 body 1 else 0) ≤ 3
    split <;> omega
  case known =>
    refine ⟨congrArg Host.Outcome.next (if_pos hport), fun no off delay hpub => ?_⟩
    have harm : exec (.ptpStats e body) s = execPtpStats e body s := rfl
    rw [harm, execPtpStats, hpub]
    exact congrArg Host.Outcome.next (if_pos hport)
  case unknown =>
    exact ⟨congrArg Host.Outcome.next (if_neg (Nat.not_lt.mpr hport)), congrArg Host.Outcome.next (if_neg (Nat.not_lt.mpr hport))⟩

end Sys2Proof.Machine
end

section
/-! SUPPORT. The pace summary, the emergency and the supply loop in their registers (R25–R27). -/

namespace Sys2Proof.Machine

/-! ### Monitors -/

/-- The monitors write their own registers and their event. -/
theorem Hub.monitor_rd {h : Hub} (c : h.canon) (seen : Bool) {n : Nat} (count : Nat) (hn : n < 32) {k : Nat} (hk : k < 0x100 ∨ 0x180 ≤ k)
    (he : k ≠ 0x190) (hlog : offLog k) : (h.monitor seen n count).rd k = h.rd k := by
  have hpace : k ≠ GLB.PACE_MON.PACE.off n 0 := by rw [show GLB.PACE_MON.PACE.off n 0 = 0x100 + 4 * n from rfl]; omega
  have hset : ∀ (f : Fld) (v : Nat), f.off n 0 = GLB.PACE_MON.PACE.off n 0 → ∀ g : Hub, g.canon → (g.set1 f n v).rd k = g.rd k :=
    fun f v hf g cg => Hub.rd_set2_ne cg f n 0 v k (by rw [hf]; exact hpace)
  unfold Hub.monitor
  split
  · rw [hset GLB.PACE_MON.VALID 1 rfl _ (Hub.set1_canon _ _ _ _ c), hset GLB.PACE_MON.PACE _ rfl _ c]
  · have c1 := Hub.set1_canon h GLB.PACE_MON.VALID n 0 c
    have h1 := hset GLB.PACE_MON.VALID 0 rfl h c
    dsimp only
    split
    · rw [Hub.raise_rd (Hub.freeTick_canon _ c1) _ k (show k ≠ evtOff 0x0206 0 from he) hlog]
      exact h1
    · exact h1

theorem Hub.monitors_rd (l : List Nat) {h : Hub} (c : h.canon) (seen : Bool) {n : Nat} (hn : n + l.length ≤ 32) {k : Nat} (hk : k < 0x100 ∨ 0x180 ≤ k)
    (he : k ≠ 0x190) (hlog : offLog k) : (h.monitors seen n l).rd k = h.rd k := by
  induction l generalizing h n with
  | nil => rfl
  | cons x t ih =>
    rw [List.length_cons] at hn
    rw [Hub.monitors, ih (Hub.monitor_canon _ _ _ _ c) (by omega), Hub.monitor_rd c seen x (by omega) hk he hlog]

/-- The valid monitors of a window are among its own, and their PACE fits its field. -/
theorem validPaces_bound (l : List Nat) (n : Nat) : ∀ e ∈ validPaces n l, e.1 < n + l.length ∧ e.2 ≤ 16384 := by
  induction l generalizing n with
  | nil => exact fun e he => absurd he List.not_mem_nil
  | cons x t ih =>
    intro e he
    rw [validPaces] at he
    have hrest : e ∈ validPaces (n + 1) t → e.1 < n + (x :: t).length ∧ e.2 ≤ 16384 := fun h => by
      have := ih (n + 1) e h
      rw [List.length_cons]
      omega
    split at he
    next hv =>
      rcases List.mem_cons.1 he with rfl | h
      · rw [List.length_cons]
        exact ⟨by omega, (of_decide_eq_true hv).2.2⟩
      · exact hrest h
    next => exact hrest he

theorem validPaces_length (l : List Nat) (n : Nat) : (validPaces n l).length ≤ l.length := by
  induction l generalizing n with
  | nil => exact Nat.le_refl 0
  | cons x t ih =>
    have := ih (n + 1)
    rw [validPaces, List.length_cons]
    split
    · rw [List.length_cons]
      omega
    · omega

theorem worstPace_mem {v : List (Nat × Nat)} {e : Nat × Nat} (h : worstPace v = some e) : e ∈ v := by
  induction v generalizing e with
  | nil => cases h
  | cons x t ih =>
    obtain ⟨i, p⟩ := x
    rw [worstPace] at h
    split at h
    next j q hw =>
      split at h <;> cases h
      · exact List.mem_cons_of_mem _ (ih hw)
      · exact List.mem_cons_self
    next =>
      cases h
      exact List.mem_cons_self

/-- The summary of a window with a valid monitor. -/
theorem Hub.paceSum_some {h : Hub} (c : h.canon) {v : List (Nat × Nat)} {i p : Nat} (hw : worstPace v = some (i, p)) (hlen : v.length < 64) (hi : i < 32)
    (hp : p < 65536) : (h.paceSum v).get GLB.PACE_SUM.WORST = p ∧ (h.paceSum v).get GLB.PACE_SUM.WORST_ID = i ∧
      (h.paceSum v).get GLB.PACE_SUM.VALID_CNT = v.length ∧ (h.paceSum v).get GLB.PACE_SUM.EMERG = h.get GLB.PACE_SUM.EMERG := by
  have heq : h.paceSum v = ((h.set GLB.PACE_SUM.VALID_CNT v.length).set GLB.PACE_SUM.WORST p).set GLB.PACE_SUM.WORST_ID i := by
    rw [Hub.paceSum, hw]
  have c1 := Hub.set_canon h GLB.PACE_SUM.VALID_CNT v.length c
  have c2 := Hub.set_canon _ GLB.PACE_SUM.WORST p c1
  rw [heq]
  refine ⟨?_, ?_, ?_, ?_⟩
  · rw [Hub.get_set_field c2 GLB.PACE_SUM.WORST_ID GLB.PACE_SUM.WORST _ rfl (by decide) (by decide), Hub.get_set_self c1 _ _ (by decide)]
    exact Nat.mod_eq_of_lt hp
  · rw [Hub.get_set_self c2 _ _ (by decide)]
    exact Nat.mod_eq_of_lt hi
  · rw [Hub.get_set_field c2 GLB.PACE_SUM.WORST_ID GLB.PACE_SUM.VALID_CNT _ rfl (by decide) (by decide),
      Hub.get_set_field c1 GLB.PACE_SUM.WORST GLB.PACE_SUM.VALID_CNT _ rfl (by decide) (by decide), Hub.get_set_self c _ _ (by decide)]
    exact Nat.mod_eq_of_lt hlen
  · rw [Hub.get_set_field c2 GLB.PACE_SUM.WORST_ID GLB.PACE_SUM.EMERG _ rfl (by decide) (by decide),
      Hub.get_set_field c1 GLB.PACE_SUM.WORST GLB.PACE_SUM.EMERG _ rfl (by decide) (by decide),
      Hub.get_set_field c GLB.PACE_SUM.VALID_CNT GLB.PACE_SUM.EMERG _ rfl (by decide) (by decide)]

theorem Hub.freeTick_get (h : Hub) (f : Fld) : h.freeTick.get f = h.get f := rfl

/-- The summary of a window without one. -/
theorem Hub.paceSum_none {h : Hub} (c : h.canon) : (h.paceSum []).get GLB.PACE_SUM.VALID_CNT = 0 ∧
    (h.paceSum []).get GLB.PACE_SUM.EMERG = h.get GLB.PACE_SUM.EMERG := by
  have c1 := Hub.set_canon h GLB.PACE_SUM.VALID_CNT 0 c
  have c2 := Hub.set_canon _ GLB.PACE_SUM.WORST 0 c1
  have hself : (h.set GLB.PACE_SUM.VALID_CNT 0).get GLB.PACE_SUM.VALID_CNT = 0 := Hub.get_set_self c _ _ (by decide)
  have hrest : ∀ f : Fld, f.off 0 0 = 0x180 → f.lo + f.width ≤ 32 → (16 ≤ f.lo ∧ (f.lo + f.width ≤ 24 ∨ 29 ≤ f.lo)) →
      (h.paceSum []).get f = (h.set GLB.PACE_SUM.VALID_CNT 0).get f := by
    intro f hoff hf hd
    have heq : h.paceSum [] =
        (((h.set GLB.PACE_SUM.VALID_CNT 0).set GLB.PACE_SUM.WORST 0).set GLB.PACE_SUM.WORST_ID (h.freeVal 32)).freeTick := by
      rw [Hub.paceSum, worstPace]
    rw [heq, Hub.freeTick_get, Hub.get_set_field c2 GLB.PACE_SUM.WORST_ID f _ hoff hf (show 24 + 5 ≤ f.lo ∨ f.lo + f.width ≤ 24 by omega),
      Hub.get_set_field c1 GLB.PACE_SUM.WORST f _ hoff hf (.inl hd.1)]
  refine ⟨(hrest GLB.PACE_SUM.VALID_CNT rfl (by decide) (by decide)).trans hself, (hrest GLB.PACE_SUM.EMERG rfl (by decide) (by decide)).trans ?_⟩
  exact Hub.get_set_field c GLB.PACE_SUM.VALID_CNT GLB.PACE_SUM.EMERG _ rfl (by decide) (by decide)

/-! ### The emergency -/

theorem Hub.emergHold_rd (l : List Nat) {h : Hub} (c : h.canon) (hl : ∀ n ∈ l, n < 1024) {k : Nat} (hk : k < 0x1000 ∨ 0x2000 ≤ k) :
    (h.emergHold l).rd k = h.rd k := by
  unfold Hub.emergHold
  induction l generalizing h with
  | nil => rfl
  | cons n t ih =>
    have hn := hl n List.mem_cons_self
    have hne : k ≠ GLB.SASH_STAT.EMERG_HELD.off n 0 := by
      rw [show GLB.SASH_STAT.EMERG_HELD.off n 0 = 0x1000 + 4 * n from rfl]
      omega
    rw [List.foldl_cons, ih (Hub.set1_canon _ _ _ _ c) fun m hm => hl m (List.mem_cons_of_mem n hm)]
    exact Hub.rd_set2_ne c _ _ _ _ _ hne

theorem FabSt.stopped_known {f : FabSt} {n : Nat} (h : n ∈ f.stopped) : ∃ d ∈ f.sashes, d.id = n := by
  unfold FabSt.stopped at h
  rw [List.mem_eraseDups, List.mem_filterMap] at h
  obtain ⟨q, -, hq⟩ := h
  split at hq
  next hany =>
    cases hq
    obtain ⟨d, hd, hdq⟩ := List.any_eq_true.1 hany
    exact ⟨d, hd, (of_decide_eq_true hdq).1⟩
  next => cases hq

/-- An emergency raised shows in both its registers, and leaves the rest of the summary. -/
theorem State.emergRaise_shows {s : State} (c : s.canon) (hs : ∀ d ∈ s.fab.sashes, d.id < 1024) :
    s.emergRaise.hub.get GLB.PACE_SUM.EMERG = 1 ∧ s.emergRaise.hub.get LVR.STATUS.EMERG = 1 ∧
    ∀ f : Fld, f.off 0 0 = 0x180 → f.lo + f.width ≤ 31 → s.emergRaise.hub.get f = s.hub.get f := by
  have chub := State.canon_hub c
  have c1 := Hub.set_canon s.hub GLB.PACE_SUM.EMERG 1 chub
  have c2 := Hub.set_canon _ LVR.STATUS.EMERG 1 c1
  have c3 := Hub.raise_canon _ { code := 0x0201 } c2
  have c4 := Hub.raise_canon _ { code := 0x0402 } c3
  have hl : ∀ n ∈ s.fab.stopped, n < 1024 := fun n hn => by
    obtain ⟨d, hd, rfl⟩ := FabSt.stopped_known hn
    exact hs d hd
  have hrest : ∀ f : Fld, f.off 0 0 = 0x180 ∨ f.off 0 0 = 0x100000 →
      s.emergRaise.hub.get f = ((s.hub.set GLB.PACE_SUM.EMERG 1).set LVR.STATUS.EMERG 1).get f := by
    intro f hf
    refine (Hub.get_of_rd f (Hub.emergHold_rd _ c4 hl (by omega))).trans ?_
    rw [Hub.raise_get c3 _ f 0x0402 0 rfl rfl (show f.off 0 0 ≠ 0x100100 by omega) (by unfold offLog; omega),
      Hub.raise_get c2 _ f 0x0201 0 rfl rfl (show f.off 0 0 ≠ 0x190 by omega) (by unfold offLog; omega)]
  refine ⟨?_, ?_, fun f hf hfit => ?_⟩
  · rw [hrest _ (.inl rfl), Hub.get_set_ne c1 _ _ _ (by decide), Hub.get_set_self chub _ _ (by decide)]
    rfl
  · rw [hrest _ (.inr rfl), Hub.get_set_self c1 _ _ (by decide)]
    rfl
  · rw [hrest f (.inl hf), Hub.get_set_ne c1 LVR.STATUS.EMERG f _ (by rw [hf]; decide),
      Hub.get_set_field chub GLB.PACE_SUM.EMERG f _ hf (by omega) (.inr hfit)]

theorem State.paceWindow_canon' {s : State} (c : s.canon) (counts : List Nat) : (s.paceWindow counts).canon := State.paceWindow_canon s counts c

/-- The window's summary, before the comparator's test. -/
theorem State.paceWindow_some {s : State} (c : s.canon) {counts : List Nat} {i p : Nat} (hw : worstPace (validPaces 0 (counts.take 32)) = some (i, p)) :
    (s.paceWindow counts).hub.get GLB.PACE_SUM.WORST = p ∧ (s.paceWindow counts).hub.get GLB.PACE_SUM.WORST_ID = i ∧
    (s.paceWindow counts).hub.get GLB.PACE_SUM.VALID_CNT = (validPaces 0 (counts.take 32)).length ∧
    (s.paceWindow counts).hub.get GLB.PACE_SUM.EMERG = s.hub.get GLB.PACE_SUM.EMERG := by
  have hlen : (counts.take 32).length ≤ 32 := by rw [List.length_take]; omega
  have hv := validPaces_length (counts.take 32) 0
  obtain ⟨hi, hp⟩ := validPaces_bound _ _ _ (worstPace_mem hw)
  have cm := Hub.monitors_canon s.hub s.fab.monSeen 0 (counts.take 32) (State.canon_hub c)
  obtain ⟨h1, h2, h3, h4⟩ := Hub.paceSum_some cm hw (by omega) (by dsimp only at hi; omega) (by dsimp only at hp; omega)
  refine ⟨h1, h2, h3, h4.trans (Hub.get_of_rd _ ?_)⟩
  exact Hub.monitors_rd _ (State.canon_hub c) _ (by omega) (by decide) (by decide) (by decide)

theorem State.paceWindow_none {s : State} (c : s.canon) {counts : List Nat} (hw : validPaces 0 (counts.take 32) = []) :
    (s.paceWindow counts).hub.get GLB.PACE_SUM.VALID_CNT = 0 ∧ (s.paceWindow counts).hub.get GLB.PACE_SUM.EMERG = s.hub.get GLB.PACE_SUM.EMERG := by
  have hlen : (counts.take 32).length ≤ 32 := by rw [List.length_take]; omega
  have cm := Hub.monitors_canon s.hub s.fab.monSeen 0 (counts.take 32) (State.canon_hub c)
  have hhub : (s.paceWindow counts).hub = (s.hub.monitors s.fab.monSeen 0 (counts.take 32)).paceSum [] := by rw [← hw]; rfl
  obtain ⟨h1, h2⟩ := Hub.paceSum_none cm
  rw [hhub]
  refine ⟨h1, h2.trans (Hub.get_of_rd _ ?_)⟩
  exact Hub.monitors_rd _ (State.canon_hub c) _ (by omega) (by decide) (by decide) (by decide)

theorem exec_paceWindowEnd (counts : List Nat) (s : State) : exec (.paceWindowEnd counts) s = .next (s.paceWindow counts).emergTest := rfl

/-- Outside an emergency, the test of a window with valid monitors. -/
theorem State.emergTest_valid {s : State} (hoff : s.hub.get GLB.PACE_SUM.EMERG = 0) (hcnt : s.hub.get GLB.PACE_SUM.VALID_CNT ≠ 0) :
    s.emergTest = if 8520 ≤ s.hub.get GLB.PACE_SUM.WORST then s.emergRaise else s := by
  unfold State.emergTest
  dsimp only
  rw [if_neg hcnt, if_pos hoff]
  exact ite_congr (propext ⟨fun h => h.resolve_left hcnt, .inr⟩) (fun _ => rfl) (fun _ => rfl)

/-- Outside an emergency, the test of a window without one. -/
theorem State.emergTest_invalid {s : State} (hoff : s.hub.get GLB.PACE_SUM.EMERG = 0) (hcnt : s.hub.get GLB.PACE_SUM.VALID_CNT = 0) :
    s.emergTest = ({ s with fab := { s.fab with emergForced := true } } : State).emergRaise := by
  unfold State.emergTest
  dsimp only
  rw [if_pos hcnt, if_pos hoff, if_pos (.inl hcnt)]

/-! ### The supply loop -/

/-- The voltage commanded, beside the loop's state. -/
theorem Hub.setVdd_shows {h : Hub} (c : h.canon) {mv : Nat} (hmv : mv < 4096) : (h.setVdd mv).get GLB.PACE_LOOP.VDD_MV = mv ∧
    (h.setVdd mv).get GLB.PACE_LOOP.STATE = h.get GLB.PACE_LOOP.STATE := by
  refine ⟨(Hub.get_set_self c GLB.PACE_LOOP.VDD_MV mv (by decide)).trans (Nat.mod_eq_of_lt hmv), ?_⟩
  exact Hub.get_set_field c GLB.PACE_LOOP.VDD_MV GLB.PACE_LOOP.STATE mv rfl (by decide) (by decide)

/-- A loop state entered, with an event of the chapter or none. -/
theorem Hub.loopEnter_shows {h : Hub} (c : h.canon) {st : Nat} (hst : st < 16) (code : Option Nat) (hcode : ∀ x, code = some x → evtOff x 0 = 0x190) :
    (h.loopEnter st code).get GLB.PACE_LOOP.STATE = st ∧ (h.loopEnter st code).get GLB.PACE_LOOP.VDD_MV = h.get GLB.PACE_LOOP.VDD_MV := by
  have c1 := Hub.set_canon h GLB.PACE_LOOP.STATE st c
  have hstate : (h.set GLB.PACE_LOOP.STATE st).get GLB.PACE_LOOP.STATE = st :=
    (Hub.get_set_self c GLB.PACE_LOOP.STATE st (by decide)).trans (Nat.mod_eq_of_lt hst)
  have hvdd : (h.set GLB.PACE_LOOP.STATE st).get GLB.PACE_LOOP.VDD_MV = h.get GLB.PACE_LOOP.VDD_MV :=
    Hub.get_set_field c GLB.PACE_LOOP.STATE GLB.PACE_LOOP.VDD_MV st rfl (by decide) (by decide)
  cases code with
  | none => exact ⟨hstate, hvdd⟩
  | some x =>
    have hx := hcode x rfl
    rw [Hub.loopEnter]
    split
    next heq => exact ⟨heq, rfl⟩
    next =>
      have hraise : ∀ f : Fld, f.off 0 0 = 0x184 → ((h.set GLB.PACE_LOOP.STATE st).raise { code := x }).get f = (h.set GLB.PACE_LOOP.STATE st).get f :=
        fun f hf => Hub.raise_get c1 _ f x 0 rfl rfl (by rw [hx, hf]; decide) (by rw [hf]; decide)
      exact ⟨(hraise _ rfl).trans hstate, (hraise _ rfl).trans hvdd⟩

theorem exec_supplyLoop_stopped {ma : Nat} {s : State} (h : s.loopRuns = false ∨ s.hub.get GLB.PACE_LOOP.STATE = 5) :
    exec (.supplyLoopEvaluation ma) s = .next s := by
  have harm : exec (.supplyLoopEvaluation ma) s = execSupplyLoopEvaluation ma s := rfl
  rw [harm, execSupplyLoopEvaluation]
  split
  next => rfl
  next hruns =>
    have h5 : s.hub.get GLB.PACE_LOOP.STATE = 5 := h.resolve_left fun h0 => hruns (by rw [h0]; decide)
    rw [if_neg fun hno => hno.2 h5, State.supplyEval]
    dsimp only
    rw [if_pos h5]

/-- An evaluation of a running loop that does not enter FAILSAFE is its row alone. -/
theorem exec_supplyLoop_row {ma : Nat} {s t : State} (hruns : s.loopRuns = true) (heval : s.supplyEval ma = t) (h5 : t.hub.get GLB.PACE_LOOP.STATE ≠ 5) :
    exec (.supplyLoopEvaluation ma) s = .next t := by
  have harm : exec (.supplyLoopEvaluation ma) s = execSupplyLoopEvaluation ma s := rfl
  rw [harm, execSupplyLoopEvaluation, heval]
  rw [if_neg (by rw [hruns]; decide), if_neg fun h => h5 h.1]

section
variable {ma : Nat} {s : State} (h5 : s.hub.get GLB.PACE_LOOP.STATE ≠ 5)
include h5

theorem State.supplyEval_invalid (hcnt : s.hub.get GLB.PACE_SUM.VALID_CNT < 24) :
    s.supplyEval ma = { s with hub := (s.hub.setVdd 800).loopEnter 5 (some 0x0205), fab := { s.fab with lowRun := 0 } } := by
  unfold State.supplyEval
  dsimp only
  rw [if_neg h5, if_pos hcnt]

theorem State.supplyEval_slow (hcnt : 24 ≤ s.hub.get GLB.PACE_SUM.VALID_CNT) (hslow : s.hub.paceTarget + 82 < s.hub.get GLB.PACE_SUM.WORST) :
    s.supplyEval ma = { s with
      hub := if 850 ≤ s.hub.get GLB.PACE_LOOP.VDD_MV then s.hub.loopEnter 3 (some 0x0203)
        else if s.hub.overCap ma then s.hub.loopEnter 4 (some 0x0204)
        else (s.hub.setVdd (s.hub.get GLB.PACE_LOOP.VDD_MV + 5)).loopEnter 1 none
      fab := { s.fab with lowRun := 0 } } := by
  unfold State.supplyEval
  dsimp only
  rw [if_neg h5, if_neg (Nat.not_lt.mpr hcnt), if_pos hslow]

theorem State.supplyEval_fast (hcnt : 24 ≤ s.hub.get GLB.PACE_SUM.VALID_CNT) (hfast : s.hub.get GLB.PACE_SUM.WORST ≤ s.hub.paceTarget + 82) :
    s.supplyEval ma = if s.hub.get GLB.PACE_SUM.WORST + 164 < s.hub.paceTarget ∧ 7 ≤ s.fab.lowRun ∧ 600 < s.hub.get GLB.PACE_LOOP.VDD_MV then
        { s with hub := (s.hub.setVdd (s.hub.get GLB.PACE_LOOP.VDD_MV - 5)).loopEnter 2 none, fab := { s.fab with lowRun := 0 } }
      else { s with
        hub := s.hub.loopEnter 0 none
        fab := { s.fab with lowRun := if s.hub.get GLB.PACE_SUM.WORST + 164 < s.hub.paceTarget then s.fab.lowRun + 1 else 0 } } := by
  unfold State.supplyEval
  dsimp only
  rw [if_neg h5, if_neg (Nat.not_lt.mpr hcnt), if_neg (Nat.not_lt.mpr hfast)]
  refine ite_congr (propext ?_) (fun _ => rfl) (fun _ => rfl)
  by_cases hlow : s.hub.get GLB.PACE_SUM.WORST + 164 < s.hub.paceTarget
  · rw [if_pos hlow]
    omega
  · rw [if_neg hlow]
    omega

end

theorem Hub.vdd_lt (h : Hub) : h.get GLB.PACE_LOOP.VDD_MV < 4096 := Nat.mod_lt _ (by decide)

end Sys2Proof.Machine
end

section
/-! SETTLED. Islands, the pace emergency, the supply loop and spares (R24–R27, R71, R409). -/

namespace Sys2Proof.Machine

theorem Hub.countCe_still (h : Hub) (ch : Nat) : (h.countCe ch).still = h.still := by
  rw [Hub.countCe, Hub.raiseRl_still, Hub.stat, Hub.set64_still]

/-- What a BAR2 read leaves: all but the hub and the reads held, and the hub's link. -/
theorem State.bar2Read_keeps (s : State) (fn off n : Nat) : (s.bar2Read fn off n).fab = s.fab ∧ (s.bar2Read fn off n).hub.pcieDown = s.hub.pcieDown := by
  have hcount : ∀ (l : List Nat) (h : Hub), (l.foldl (fun h w => h.countCe (pageChannel (pageOf w))) h).pcieDown = h.pcieDown := by
    intro l
    induction l with
    | nil => exact fun _ => rfl
    | cons w t ih =>
      intro h
      rw [List.foldl_cons, ih, Hub.pcieDown_of_still (Hub.countCe_still h _)]
  unfold State.bar2Read
  dsimp only
  split
  · exact ⟨rfl, rfl⟩
  · split
    · exact ⟨rfl, rfl⟩
    · exact ⟨rfl, hcount _ _⟩

theorem State.bar2Resume_keeps (s : State) : s.bar2Resume.fab = s.fab ∧ s.bar2Resume.hub.pcieDown = s.hub.pcieDown := by
  have hfold : ∀ (l : List HeldRead) (a : State), (l.foldl (fun a r => a.bar2Read r.fn r.off r.len) a).fab = a.fab ∧
      (l.foldl (fun a r => a.bar2Read r.fn r.off r.len) a).hub.pcieDown = a.hub.pcieDown := by
    intro l
    induction l with
    | nil => exact fun _ => ⟨rfl, rfl⟩
    | cons r t ih =>
      intro a
      obtain ⟨hfab, hdown⟩ := ih (a.bar2Read r.fn r.off r.len)
      obtain ⟨hfab', hdown'⟩ := State.bar2Read_keeps a r.fn r.off r.len
      exact ⟨hfab.trans hfab', hdown.trans hdown'⟩
  exact hfold _ _

theorem State.bar2Resume_none {s : State} (h : ∀ r ∈ s.mem.held, r.page ≠ none) : s.bar2Resume = s := by
  have hnil : s.mem.held.filter (fun r => decide (r.page = none)) = [] := List.filter_eq_nil_iff.2 fun r hr => by simpa using h r hr
  have hall : s.mem.held.filter (fun r => decide (r.page ≠ none)) = s.mem.held := List.filter_eq_self.2 fun r hr => decide_eq_true (h r hr)
  unfold State.bar2Resume
  dsimp only
  rw [hnil, hall]
  rfl

theorem exec_islandReturn (i : Island) (s : State) : exec (.islandReturn i) s = .next (s.islandBack i).bar2Resume := rfl

/-- A unit that is no Hinge core at its work boundary. -/
theorem exec_spareTaken {ty : Nat} (hty : ty ≠ 5) (inst bad : Nat) (s : State) : exec (.spareTaken ty inst bad) s =
    .next (match s.dbt.retiring.find? (·.1 = chanId ty inst) with
      | some r => s.retireUnit ty inst r.2
      | none => if (ty, inst) ∈ s.dbt.bistSched ∧ !s.emergency then s.bistBegin ty inst bad else s) := by
  have harm : exec (.spareTaken ty inst bad) s = .next (s.spareTaken ty inst bad) := rfl
  rw [State.spareTaken, if_neg hty] at harm
  exact harm

/-- A window outside an emergency. -/
theorem State.paceWindow_settled (counts : List Nat) (s : State) (c : s.canon) (hs : ∀ d ∈ s.fab.sashes, d.id < 1024) (hoff : s.hub.get GLB.PACE_SUM.EMERG = 0) :
    (validPaces 0 (counts.take 32) = [] → ∃ t, exec (.paceWindowEnd counts) s = .next t ∧ t.fab.emergForced = true ∧
      t.hub.get GLB.PACE_SUM.EMERG = 1 ∧ t.hub.get LVR.STATUS.EMERG = 1) ∧
    (∀ i p, worstPace (validPaces 0 (counts.take 32)) = some (i, p) →
      ∃ t, exec (.paceWindowEnd counts) s = .next t ∧ t.hub.get GLB.PACE_SUM.WORST = p ∧ t.hub.get GLB.PACE_SUM.WORST_ID = i ∧
        t.hub.get GLB.PACE_SUM.VALID_CNT = (validPaces 0 (counts.take 32)).length ∧ t.hub.get GLB.PACE_SUM.EMERG = (if 8520 ≤ p then 1 else 0)) := by
  have cw := State.paceWindow_canon s counts c
  refine ⟨fun hnone => ?_, fun i p hw => ?_⟩
  · obtain ⟨hcnt, hemerg⟩ := State.paceWindow_none c hnone
    have hexec := exec_paceWindowEnd counts s
    rw [State.emergTest_invalid (hemerg.trans hoff) hcnt] at hexec
    obtain ⟨hon, hlvr, -⟩ := State.emergRaise_shows (s := { s.paceWindow counts with fab := { (s.paceWindow counts).fab with emergForced := true } }) cw hs
    exact ⟨_, hexec, rfl, hon, hlvr⟩
  · obtain ⟨hworst, hid, hcnt, hemerg⟩ := State.paceWindow_some c hw
    have hpos : (validPaces 0 (counts.take 32)).length ≠ 0 := fun h0 => by
      rw [List.length_eq_zero_iff.1 h0] at hw
      cases hw
    have hexec := exec_paceWindowEnd counts s
    rw [State.emergTest_valid (hemerg.trans hoff) (hcnt ▸ hpos), hworst] at hexec
    by_cases hhigh : 8520 ≤ p
    · rw [if_pos hhigh] at hexec ⊢
      obtain ⟨hon, -, hrest⟩ := State.emergRaise_shows cw hs
      exact ⟨_, hexec, (hrest _ rfl (by decide)).trans hworst, (hrest _ rfl (by decide)).trans hid, (hrest _ rfl (by decide)).trans hcnt, hon⟩
    · rw [if_neg hhigh] at hexec ⊢
      exact ⟨_, hexec, hworst, hid, hcnt, hemerg.trans hoff⟩

/-- Entering FAILSAFE triggers the Shutter. -/
theorem exec_supplyLoop_failsafe {ma : Nat} {s : State} (hruns : s.loopRuns = true) (h5 : s.hub.get GLB.PACE_LOOP.STATE ≠ 5) (c : s.canon)
    (hcnt : s.hub.get GLB.PACE_SUM.VALID_CNT < 24) : exec (.supplyLoopEvaluation ma) s = .next (({ s with
      hub := ((s.hub.setVdd 800).set GLB.PACE_LOOP.STATE 5).raise { code := 0x0205 }, fab := { s.fab with lowRun := 0 } } : State).shutterTrigger 4) := by
  obtain ⟨-, hstate⟩ := Hub.setVdd_shows (State.canon_hub c) (show 800 < 4096 by decide)
  have centered : (s.hub.setVdd 800).canon := Hub.setVdd_canon _ _ (State.canon_hub c)
  obtain ⟨h5', -⟩ := Hub.loopEnter_shows centered (show 5 < 16 by decide) (some 0x0205) fun x hx => by cases hx; rfl
  have hnew : (s.hub.setVdd 800).loopEnter 5 (some 0x0205) = ((s.hub.setVdd 800).set GLB.PACE_LOOP.STATE 5).raise { code := 0x0205 } :=
    if_neg (by rw [hstate]; exact h5)
  have harm : exec (.supplyLoopEvaluation ma) s = execSupplyLoopEvaluation ma s := rfl
  rw [harm, execSupplyLoopEvaluation, State.supplyEval_invalid h5 hcnt]
  dsimp only
  rw [if_neg (by rw [hruns]; decide), if_pos ⟨h5', h5⟩, hnew]

/-- The rows of Table 2.4 for a loop that is too slow. -/
theorem State.supplySlow_settled {ma : Nat} {s : State} (hruns : s.loopRuns = true) (h5 : s.hub.get GLB.PACE_LOOP.STATE ≠ 5) (c : s.canon)
    (hcnt : 24 ≤ s.hub.get GLB.PACE_SUM.VALID_CNT) (hslow : s.hub.paceTarget + 82 < s.hub.get GLB.PACE_SUM.WORST) {v : Nat}
    (hv : s.hub.get GLB.PACE_LOOP.VDD_MV = v) :
    (v < 850 → s.hub.overCap ma = false → ∃ t, exec (.supplyLoopEvaluation ma) s = .next t ∧ t.hub.get GLB.PACE_LOOP.VDD_MV = v + 5 ∧
      t.hub.get GLB.PACE_LOOP.STATE = 1 ∧ t.hub.out = s.hub.out ++ [.avs (v + 5)]) ∧
    (v < 850 → s.hub.overCap ma = true → ∃ t, exec (.supplyLoopEvaluation ma) s = .next t ∧ t.hub.get GLB.PACE_LOOP.STATE = 4 ∧
      t.hub.get GLB.PACE_LOOP.VDD_MV = v) ∧
    (850 ≤ v → ∃ t, exec (.supplyLoopEvaluation ma) s = .next t ∧ t.hub.get GLB.PACE_LOOP.STATE = 3 ∧ t.hub.get GLB.PACE_LOOP.VDD_MV = v) := by
  have chub := State.canon_hub c
  have heval := State.supplyEval_slow (ma := ma) h5 hcnt hslow
  rw [hv] at heval
  refine ⟨fun hlow hcap => ?_, fun hlow hcap => ?_, fun hhigh => ?_⟩
  · rw [if_neg (Nat.not_le.mpr hlow), if_neg (by rw [hcap]; decide)] at heval
    obtain ⟨hvdd, -⟩ := Hub.setVdd_shows chub (show v + 5 < 4096 by omega)
    obtain ⟨hst, hvdd'⟩ := Hub.loopEnter_shows (Hub.setVdd_canon _ (v + 5) chub) (show 1 < 16 by decide) none nofun
    exact ⟨_, exec_supplyLoop_row hruns heval (by rw [hst]; decide), hvdd'.trans hvdd, hst, rfl⟩
  · rw [if_neg (Nat.not_le.mpr hlow), if_pos hcap] at heval
    obtain ⟨hst, hvdd⟩ := Hub.loopEnter_shows chub (show 4 < 16 by decide) (some 0x0204) fun x hx => by cases hx; rfl
    exact ⟨_, exec_supplyLoop_row hruns heval (by rw [hst]; decide), hst, hvdd.trans hv⟩
  · rw [if_pos hhigh] at heval
    obtain ⟨hst, hvdd⟩ := Hub.loopEnter_shows chub (show 3 < 16 by decide) (some 0x0203) fun x hx => by cases hx; rfl
    exact ⟨_, exec_supplyLoop_row hruns heval (by rw [hst]; decide), hst, hvdd.trans hv⟩

/-- The rows of Table 2.4 for a loop that is not. -/
theorem State.supplyFast_settled {ma : Nat} {s : State} (hruns : s.loopRuns = true) (h5 : s.hub.get GLB.PACE_LOOP.STATE ≠ 5) (c : s.canon)
    (hcnt : 24 ≤ s.hub.get GLB.PACE_SUM.VALID_CNT) {worst v : Nat} (hworst : s.hub.get GLB.PACE_SUM.WORST = worst)
    (hfast : worst ≤ s.hub.paceTarget + 82) (hv : s.hub.get GLB.PACE_LOOP.VDD_MV = v) :
    (worst + 164 < s.hub.paceTarget → 7 ≤ s.fab.lowRun → 600 < v → ∃ t, exec (.supplyLoopEvaluation ma) s = .next t ∧
      t.hub.get GLB.PACE_LOOP.VDD_MV = v - 5 ∧ t.hub.get GLB.PACE_LOOP.STATE = 2 ∧ t.fab.lowRun = 0) ∧
    (¬(worst + 164 < s.hub.paceTarget ∧ 7 ≤ s.fab.lowRun ∧ 600 < v) → ∃ t, exec (.supplyLoopEvaluation ma) s = .next t ∧
      t.hub.get GLB.PACE_LOOP.VDD_MV = v ∧ t.hub.get GLB.PACE_LOOP.STATE = 0 ∧
      t.fab.lowRun = if worst + 164 < s.hub.paceTarget then s.fab.lowRun + 1 else 0) := by
  have chub := State.canon_hub c
  have hmax := s.hub.vdd_lt
  have heval := State.supplyEval_fast (ma := ma) h5 hcnt (hworst ▸ hfast)
  rw [hv, hworst] at heval
  rw [hv] at hmax
  refine ⟨fun hlow hrun hhigh => ?_, fun hno => ?_⟩
  · rw [if_pos ⟨hlow, hrun, hhigh⟩] at heval
    obtain ⟨hvdd, -⟩ := Hub.setVdd_shows chub (show v - 5 < 4096 by omega)
    obtain ⟨hst, hvdd'⟩ := Hub.loopEnter_shows (Hub.setVdd_canon _ (v - 5) chub) (show 2 < 16 by decide) none nofun
    exact ⟨_, exec_supplyLoop_row hruns heval (by rw [hst]; decide), hvdd'.trans hvdd, hst, rfl⟩
  · rw [if_neg hno] at heval
    obtain ⟨hst, hvdd⟩ := Hub.loopEnter_shows chub (show 0 < 16 by decide) none nofun
    exact ⟨_, exec_supplyLoop_row hruns heval (by rw [hst]; decide), hvdd.trans hv, hst, rfl⟩

/-- Settles O18: islands by whether they are down, a window by its valid monitors, an evaluation by the first row of Table 2.4 that applies, a
boundary by what waits at the unit. -/
theorem islandsPaceAndSpares : Obligations.IslandsPaceAndSpares := by
  refine ⟨fun i s => ⟨fun hup => ?_, fun hdown => ?_, ?_⟩, State.paceWindow_settled, fun ma s => ⟨exec_supplyLoop_stopped, fun hruns h5 =>
    ⟨exec_supplyLoop_failsafe hruns h5, fun c hcnt hslow => State.supplySlow_settled hruns h5 c hcnt hslow rfl,
      fun c hcnt hfast => State.supplyFast_settled hruns h5 c hcnt rfl hfast rfl⟩⟩, fun ty inst bad s hty => ⟨fun r hr => ?_, fun hnone hsched hemerg => ?_, fun hnone hno => ?_⟩⟩
  · have harm : exec (.islandDown i) s = .next (s.islandLost i) := rfl
    rw [harm, State.islandLost, if_pos (by simpa [State.up] using hup)]
  · have harm : exec (.islandDown i) s = .next (s.islandLost i) := rfl
    rw [harm, State.islandLost, if_neg (by simpa [State.up] using hdown)]
  · obtain ⟨hfab, hpcie⟩ := State.bar2Resume_keeps (s.islandBack i)
    have hdown : (s.islandBack i).bar2Resume.fab.down = s.fab.down.filter (· ≠ i) := congrArg FabSt.down hfab
    refine ⟨_, exec_islandReturn i s, ?_, fun j hj => ?_, hpcie, fun hheld => ?_⟩
    · rw [hdown]
      simp
    · rw [hdown]
      simp [hj]
    · rw [State.bar2Resume_none (s := s.islandBack i) hheld]
      rfl
  · rw [exec_spareTaken hty, hr]
  · rw [exec_spareTaken hty, hnone]
    exact congrArg Host.Outcome.next (if_pos ⟨hsched, by rw [hemerg]; decide⟩)
  · rw [exec_spareTaken hty, hnone]
    refine congrArg Host.Outcome.next (if_neg ?_)
    rintro ⟨hsched, hemerg⟩
    rcases hno with h | h
    · exact h hsched
    · rw [h] at hemerg
      cases hemerg

end Sys2Proof.Machine
end

section
/-! SUPPORT. The choice of an arbiter, and what its grant charges (R63, R64). -/

namespace Sys2Proof.Machine

/-- Nothing is picked exactly where every request is held. -/
theorem ArbView.pick_none {v : ArbView} {l : List ArbReq} (h : v.pick l = none) : ∀ r ∈ l, v.rank r = none := by
  induction l with
  | nil => exact fun r hr => absurd hr List.not_mem_nil
  | cons q t ih =>
    rw [ArbView.pick] at h
    split at h
    next r hr => split at h <;> cases h
    next hnone =>
      split at h
      · cases h
      next hq =>
        intro r hr
        rcases List.mem_cons.1 hr with rfl | hr
        · exact Option.not_isSome_iff_eq_none.1 hq
        · exact ih hnone r hr

theorem ArbView.pick_held {v : ArbView} {l : List ArbReq} (h : ∀ r ∈ l, v.rank r = none) : v.pick l = none := by
  induction l with
  | nil => rfl
  | cons q t ih =>
    rw [ArbView.pick, ih fun r hr => h r (List.mem_cons_of_mem q hr)]
    dsimp only
    rw [h q List.mem_cons_self]
    rfl

/-- The order of R64 puts the lower rank first. -/
theorem ArbView.before_rank {v : ArbView} {a b : ArbReq} {x y : Nat} (ha : v.rank a = some x) (hb : v.rank b = some y) :
    (v.before a b = true → x ≤ y) ∧ (v.before a b = false → y ≤ x) := by
  unfold ArbView.before
  rw [ha, hb]
  dsimp only
  by_cases hxy : x ≠ y
  · rw [if_pos hxy]
    exact ⟨fun h => Nat.le_of_lt (of_decide_eq_true h), fun h => Nat.not_lt.1 (of_decide_eq_false h)⟩
  · rw [Classical.not_not.mp hxy]
    exact ⟨fun _ => Nat.le_refl y, fun _ => Nat.le_refl y⟩

/-- What is picked has the lowest rank of all requests. -/
theorem ArbView.pick_lowest {v : ArbView} {l : List ArbReq} {q : ArbReq} (h : v.pick l = some q) :
    q ∈ l ∧ ∃ m, v.rank q = some m ∧ ∀ r ∈ l, ∀ k, v.rank r = some k → m ≤ k := by
  induction l generalizing q with
  | nil => cases h
  | cons a t ih =>
    rw [ArbView.pick] at h
    split at h
    next r hr =>
      obtain ⟨hmem, y, hy, hleast⟩ := ih hr
      split at h
      next hfirst =>
        cases h
        obtain ⟨x, hx⟩ := Option.isSome_iff_exists.1 hfirst.1
        have hxy := (ArbView.before_rank hx hy).1 hfirst.2
        refine ⟨List.mem_cons_self, x, hx, fun b hb k hk => ?_⟩
        rcases List.mem_cons.1 hb with rfl | hb
        · rw [hx] at hk
          exact Nat.le_of_eq (Option.some.inj hk)
        · exact Nat.le_trans hxy (hleast b hb k hk)
      next hfirst =>
        cases h
        refine ⟨List.mem_cons_of_mem a hmem, y, hy, fun b hb k hk => ?_⟩
        rcases List.mem_cons.1 hb with rfl | hb
        · refine (ArbView.before_rank hk hy).2 (Bool.eq_false_iff.2 fun hbefore => hfirst ⟨?_, hbefore⟩)
          rw [hk]
          rfl
        · exact hleast b hb k hk
    next hnone =>
      have hrest := ArbView.pick_none hnone
      split at h
      next hsome =>
        cases h
        obtain ⟨x, hx⟩ := Option.isSome_iff_exists.1 hsome
        refine ⟨List.mem_cons_self, x, hx, fun b hb k hk => ?_⟩
        rcases List.mem_cons.1 hb with rfl | hb
        · rw [hx] at hk
          exact Nat.le_of_eq (Option.some.inj hk)
        · rw [hrest b hb] at hk
          cases hk
      next => cases h

/-- The rank of a sash's request with tokens, outside an emergency: that of its class. -/
theorem ArbView.rank_tokened {v : ArbView} {q : ArbReq} {c : TokenCtr} (hopen : v.fab.closed = false) (hcalm : v.emerg = false) (hsash : q.sash < 0x400)
    (hc : v.fab.counter v.kind v.index q.sash = some c) (hpos : 0 < c.count) : v.rank q = some (1 + v.fab.cls q.sash) := by
  unfold ArbView.rank
  rw [if_neg (by unfold bar2Sash; omega), if_neg (Nat.not_le.mpr hsash), if_neg (by rw [hopen]; decide), hc]
  dsimp only
  rw [if_neg (by rw [hcalm]; simp), if_pos hpos]

theorem ArbView.size_sash {v : ArbView} {q : ArbReq} (hsash : q.sash < 0x400) : v.size q = min q.cost (v.hub.grain v.kind v.index) := by
  unfold ArbView.size
  rw [if_neg fun h => by unfold bar2Sash at h; omega, if_neg fun h => by omega]

/-- A tokened grant takes its size from the counter. -/
theorem ArbView.charge_tokened {v : ArbView} {q : ArbReq} {c : TokenCtr} {cl : Nat} (hrank : v.rank q = some (1 + cl)) (hcl : cl ≤ 2) (hsash : q.sash < 0x400)
    (hc : v.fab.counter v.kind v.index q.sash = some c) : (v.charge q).counters = (v.fab.setCounter { c with count := c.count - v.size q }).counters := by
  unfold ArbView.charge
  dsimp only
  rw [hrank]
  split
  next h => exact absurd (Option.some.inj h) (by omega)
  next h => exact absurd (Option.some.inj h) (by omega)
  next r _ _ h =>
    obtain rfl := Option.some.inj h
    rw [if_neg (by unfold bar2Sash; omega), hc]
    dsimp only
    rw [if_pos (by omega)]
  next h => cases h

theorem ArbView.grantCore_counters (v : ArbView) (q : ArbReq) (f : FabSt) : (v.grantCore q f).counters = f.counters := by
  unfold ArbView.grantCore
  split <;> rfl

/-- No sash is granted anything while no slat grant is made. -/
theorem ArbView.rank_closed {v : ArbView} {q : ArbReq} (hclosed : v.fab.closed = true) (hsash : q.sash < 0x400) : v.rank q = none := by
  unfold ArbView.rank
  rw [if_neg (by unfold bar2Sash; omega), if_neg (Nat.not_le.mpr hsash), if_pos hclosed]

/-- What is left of a request that stands behind requests of other arbiters. -/
theorem grantReq_last {kind index : Nat} {q : ArbReq} (n : Nat) (l : List HeldReq) (h : ∀ x ∈ l, ¬(x.kind = kind ∧ x.index = index)) :
    grantReq kind index q n (l ++ [{ kind := kind, index := index, req := q }]) =
      l ++ (if n < q.cost then [{ kind := kind, index := index, req := { q with cost := q.cost - n } }] else []) := by
  induction l with
  | nil =>
    rw [List.nil_append, grantReq, if_pos ⟨rfl, rfl, rfl⟩]
    rfl
  | cons x t ih =>
    have hx : ¬(x.kind = kind ∧ x.index = index ∧ x.req = q) := fun hx => h x List.mem_cons_self ⟨hx.1, hx.2.1⟩
    rw [List.cons_append, grantReq, if_neg hx, ih fun y hy => h y (List.mem_cons_of_mem x hy), List.cons_append]

end Sys2Proof.Machine
end

section
/-! SETTLED. Grants and sashes (R31, R32, R61–R64). -/

namespace Sys2Proof.Machine

theorem exec_arbiterGrant {kind index : Nat} {reqs : List ArbReq} {s : State} (hlive : s.hub.get GLB.STATUS.FROZEN ≠ 1) :
    exec (.arbiterGrant kind index reqs) s = .next ((s.present kind (resIndex kind index) reqs).arbiterGrant kind (resIndex kind index)) := by
  have harm : exec (.arbiterGrant kind index reqs) s = execArbiterGrant kind index reqs s := rfl
  rw [harm, execArbiterGrant, if_neg hlive]

theorem exec_arbiterGrant_frozen {kind index : Nat} {reqs : List ArbReq} {s : State} (hfrozen : s.hub.get GLB.STATUS.FROZEN = 1) :
    exec (.arbiterGrant kind index reqs) s = .next (s.present kind (resIndex kind index) reqs) := by
  have harm : exec (.arbiterGrant kind index reqs) s = execArbiterGrant kind index reqs s := rfl
  rw [harm, execArbiterGrant, if_pos hfrozen]

/-- What an arbiter sees, and the requests that stand at it. -/
def State.arbView (s : State) (kind hw : Nat) : ArbView := ⟨s.fab, s.hub, s.emergency, kind, hw⟩

def State.standing (s : State) (kind hw : Nat) : List ArbReq := (s.fab.held.filter fun q => q.kind = kind ∧ q.index = hw).map (·.req)

theorem State.arbiterGrant_some {s : State} {kind hw : Nat} {q : ArbReq} (hpick : (s.arbView kind hw).pick (s.standing kind hw) = some q)
    (hcalm : s.emergency = false) : s.arbiterGrant kind hw = { s with
      hub := s.hub.emit (.token hw "grant" [kind, q.sash, (s.arbView kind hw).size q])
      fab := { (s.arbView kind hw).grantCore q ((s.arbView kind hw).charge q) with
        held := grantReq kind hw q ((s.arbView kind hw).size q) s.fab.held } } := by
  unfold State.arbView State.standing at hpick
  unfold State.arbiterGrant
  dsimp only
  rw [hpick]
  dsimp only
  rw [if_neg (by rw [hcalm]; decide)]
  rfl

theorem State.arbiterGrant_none {s : State} {kind hw : Nat} (hpick : (s.arbView kind hw).pick (s.standing kind hw) = none)
    (hcalm : s.emergency = false) : s.arbiterGrant kind hw = s := by
  unfold State.arbView State.standing at hpick
  unfold State.arbiterGrant
  dsimp only
  rw [hpick]
  dsimp only
  rw [if_neg (by rw [hcalm]; decide)]

/-- A lone request stands alone. -/
theorem State.standing_lone {s : State} {kind hw : Nat} (q : ArbReq) (hlone : ∀ x ∈ s.fab.held, ¬(x.kind = kind ∧ x.index = hw)) :
    (s.present kind hw [q]).standing kind hw = [q] := by
  have hheld : (s.present kind hw [q]).fab.held = s.fab.held ++ [{ kind := kind, index := hw, req := q }] := rfl
  have hfilter : s.fab.held.filter (fun x => decide (x.kind = kind ∧ x.index = hw)) = [] :=
    List.filter_eq_nil_iff.2 fun x hx => by simpa using hlone x hx
  rw [State.standing, hheld, List.filter_append, hfilter]
  simp

/-- A lone request with tokens takes a grain of them. -/
theorem State.arbiterGrant_lone {kind hw : Nat} {q : ArbReq} {c : TokenCtr} {s : State} (hopen : s.fab.closed = false) (hcalm : s.emergency = false)
    (hlone : ∀ x ∈ s.fab.held, ¬(x.kind = kind ∧ x.index = hw)) (hsash : q.sash < 0x400) (hcls : s.fab.cls q.sash ≤ 2)
    (hc : s.fab.counter kind hw q.sash = some c) (hpos : 0 < c.count) {n : Nat} (hn : min q.cost (s.hub.grain kind hw) = n) {t : State}
    (ht : (s.present kind hw [q]).arbiterGrant kind hw = t) :
    t.hub = s.hub.emit (.token hw "grant" [kind, q.sash, n]) ∧
    t.fab.counters = (s.fab.counters.map fun d => if d.kind = c.kind ∧ d.index = c.index ∧ d.sash = c.sash then { c with count := c.count - n } else d) ∧
    t.fab.held = s.fab.held ++ (if n < q.cost then [{ kind := kind, index := hw, req := { q with cost := q.cost - n } }] else []) ∧
    t = { s with hub := t.hub, fab := t.fab } := by
  have hrank : ((s.present kind hw [q]).arbView kind hw).rank q = some (1 + s.fab.cls q.sash) := ArbView.rank_tokened hopen hcalm hsash hc hpos
  have hsize : ((s.present kind hw [q]).arbView kind hw).size q = n := (ArbView.size_sash hsash).trans hn
  have hpick : ((s.present kind hw [q]).arbView kind hw).pick ((s.present kind hw [q]).standing kind hw) = some q := by
    rw [State.standing_lone q hlone, ArbView.pick, ArbView.pick]
    exact if_pos (by rw [hrank]; rfl)
  have hcharge := ArbView.charge_tokened hrank hcls hsash hc
  rw [State.arbiterGrant_some hpick hcalm] at ht
  rw [hsize] at ht hcharge
  subst ht
  refine ⟨rfl, ?_, grantReq_last n s.fab.held hlone, rfl⟩
  show (ArbView.grantCore _ q _).counters = _
  rw [ArbView.grantCore_counters, hcharge]
  rfl

theorem State.arbiterGrant_closed {kind hw : Nat} {s : State} (hclosed : s.fab.closed = true) (hcalm : s.emergency = false)
    (hheld : ∀ x ∈ s.fab.held, x.req.sash < 0x400) : s.arbiterGrant kind hw = s := by
  refine State.arbiterGrant_none (ArbView.pick_held fun r hr => ?_) hcalm
  obtain ⟨x, hx, rfl⟩ := List.mem_map.1 hr
  exact ArbView.rank_closed hclosed (hheld x (List.mem_filter.1 hx).1)

/-- No core that is ready to start starts. -/
theorem State.hngSashRuns_none {s : State} (n : Nat) (h : ∀ i, (s.hng.core i).ready = false) : s.hngSashRuns n = s := by
  have hnil : ((List.range (s.hub.unitCount 5)).filter fun i => (s.hng.core i).ready && (s.fab.users 5 i).contains n) = [] :=
    List.filter_eq_nil_iff.2 fun i _ => by rw [h i]; simp
  rw [State.hngSashRuns, hnil]
  rfl

/-- A sash that enters RUN is in it, and no other sash moves. -/
theorem Hub.sashEnter_run {h : Hub} (c : h.canon) (n : Nat) :
    (h.sashEnter n 3 0).sashState n = 3 ∧ ∀ k, k ≠ n → (h.sashEnter n 3 0).sashState k = h.sashState k := by
  have c1 := Hub.set1_canon h GLB.SASH_STAT.STATE n 3 c
  have heq : h.sashEnter n 3 0 = (h.set1 GLB.SASH_STAT.STATE n 3).set1 GLB.SASH_STAT.BLOCKER n 0 := rfl
  have hoff : ∀ (f : Fld) k, f = GLB.SASH_STAT.STATE ∨ f = GLB.SASH_STAT.BLOCKER → f.off k 0 = 0x1000 + 4 * k := fun f k hf => by
    rcases hf with rfl | rfl <;> rfl
  rw [heq]
  refine ⟨?_, fun k hk => ?_⟩
  · rw [Hub.sashState, Hub.get1_set1_field c1 GLB.SASH_STAT.BLOCKER GLB.SASH_STAT.STATE n 0 rfl (by decide) (by decide),
      Hub.get1_set1_self c _ _ _ (by decide)]
    rfl
  · have hne : ∀ f : Fld, f = GLB.SASH_STAT.STATE ∨ f = GLB.SASH_STAT.BLOCKER → GLB.SASH_STAT.STATE.off k 0 ≠ f.off n 0 := fun f hf => by
      rw [hoff _ _ (.inl rfl), hoff f n hf]
      omega
    exact (Hub.get2_set2_ne c1 _ GLB.SASH_STAT.STATE n 0 k 0 0 (hne _ (.inr rfl))).trans
      (Hub.get2_set2_ne c _ GLB.SASH_STAT.STATE n 0 k 0 3 (hne _ (.inl rfl)))

theorem exec_sashBuildDone_built {n : Nat} {s : State} (hst : s.hub.sashState n = 2) : exec (.sashBuildDone n) s =
    .next (let s1 : State := match s.fab.waitsAt n with
        | some r => { s with hub := s.hub.sashEnter n 5 r }
        | none => ({ s with hub := s.hub.sashEnter n 3 0 } : State).hngSashRuns n
      match kvGet n s1.fab.pend with
      | some p => s1.drainTo n p
      | none => s1) := by
  have harm : exec (.sashBuildDone n) s = execSashBuildDone n s := rfl
  rw [execSashBuildDone] at harm
  dsimp only at harm
  rw [if_pos (.inl hst), if_neg (by rw [hst]; decide)] at harm
  exact harm

/-- Settles O19: a lone request's charge, the order of R64 over any requests, what is held, and the sash's two ends. -/
theorem grantsAndSashes : Obligations.GrantsAndSashes := by
  refine ⟨⟨fun kind index q c s => ?lone, fun v l q hpick => ArbView.pick_lowest hpick, fun kind index reqs s => ⟨?frozen, ?closed⟩⟩,
    fun n r s hst hwait hpend => ?stalled, fun n s c hst hwait hpend hready => ?runs, fun n p s hst hpend => ?faulted, fun n s hno => ?holds,
    fun n s hlive hcalm hpend hwait hpers => ?boundary⟩
  case lone =>
    intro hw m hgrant hcalm hlone hsash hcls hc hpos hlive
    obtain ⟨hopen, -⟩ := Bool.and_eq_true_iff.1 hgrant
    exact ⟨_, exec_arbiterGrant hlive,
      State.arbiterGrant_lone (by simpa using hopen) hcalm hlone hsash hcls hc hpos rfl rfl⟩
  case frozen => exact fun hfrozen => exec_arbiterGrant_frozen hfrozen
  case closed =>
    intro hclosed hcalm hheld
    by_cases hfrozen : s.hub.get GLB.STATUS.FROZEN = 1
    · exact exec_arbiterGrant_frozen hfrozen
    · rw [exec_arbiterGrant hfrozen, State.arbiterGrant_closed (s := s.present kind (resIndex kind index) reqs) hclosed hcalm hheld]
      rfl
  case stalled =>
    rw [exec_sashBuildDone_built hst, hwait]
    dsimp only
    rw [hpend]
  case runs =>
    have hexec := exec_sashBuildDone_built hst
    rw [hwait] at hexec
    dsimp only at hexec
    rw [State.hngSashRuns_none (s := { s with hub := s.hub.sashEnter n 3 0 }) n hready] at hexec
    dsimp only at hexec
    rw [hpend] at hexec
    obtain ⟨hrun, hothers⟩ := Hub.sashEnter_run (State.canon_hub c) n
    exact ⟨_, hexec, hrun, hothers, rfl⟩
  case faulted =>
    have harm : exec (.sashBuildDone n) s = execSashBuildDone n s := rfl
    rw [harm, execSashBuildDone]
    dsimp only
    rw [if_pos (.inr ⟨hst, by rw [kvHas, hpend]; rfl⟩), if_pos hst, hpend]
  case holds =>
    have harm : exec (.sashWorkBoundary n) s = execSashWorkBoundary n s := rfl
    rw [harm, execSashWorkBoundary]
    exact congrArg Host.Outcome.next (if_pos hno.symm)
  case boundary =>
    have harm : exec (.sashWorkBoundary n) s = execSashWorkBoundary n s := rfl
    rw [harm, execSashWorkBoundary, State.workBoundary_none _ hpend hwait hpers]
    exact congrArg Host.Outcome.next (if_neg fun h => h.elim (fun h => hcalm h.1) hlive)

end Sys2Proof.Machine
end

section
/-! SETTLED. The end of parsing of a full commit (R51): where the Latch numbers end, the number under which the image is kept is not the Latch's. -/

namespace Sys2Proof.Machine

/-- The event of a commit whose parsing has ended. -/
def parsedEv (c : Commit) : Ev := { code := 0x0301, detail := [if c.bank then 1 else 0, if c.scope then 1 else 0] }

/-- A full commit whose parsing ends asks for its load Latch, once its shadow records are written. -/
theorem exec_imgDone_full {hc : Nat} {c : Commit} {hdr : ImgHeader} {s : State} (hbusy : s.ldr.busy = some (c, some hdr))
    (hcalm : s.hub.get GLB.PACE_SUM.EMERG ≠ 1) (hlive : s.hub.get GLB.STATUS.FROZEN ≠ 1) (hbank : s.bankUp = true) (hscope : c.scope = false) :
    exec (.imgDone hc) s = .next (((s.withHub ((s.hub.raise (parsedEv c)).slatDrops
      (enterSlats (fun _ => 0) [] (readImage (s.bankByte c.bank) hdr).slats).2)).shadowRecs (readImage (s.bankByte c.bank) hdr).shadows).loadRequest c.bank
        (readImage (s.bankByte c.bank) hdr) hc) := by
  have hfree : s.loadFree = s := by
    unfold State.loadFree
    rw [hbusy]
  have harm : exec (.imgDone hc) s = execImgDone hc s := rfl
  rw [harm, execImgDone, if_neg (not_or.2 ⟨hcalm, hlive⟩), hfree]
  dsimp only
  rw [hbusy]
  dsimp only
  rw [if_pos hbank, State.loadParsed, if_neg (by rw [hscope]; decide)]
  rfl

/-- The load Latch as it is requested, and the state whose open writes it has sealed. -/
def State.loadLatchAsked (s : State) (hc : Nat) : Latch := { num := 0, at_ := s.nextBound hc, items := s.lch.openSet, load := true }
def State.sealedAll (s : State) : State := { s with lch := { s.lch with openSet := [] } }

/-- The images kept with one more, under the number of the Latch accepted last. -/
def State.imageKept (a : State) (bank : Bool) (img : Image) : State :=
  { a with ldr := { a.ldr with images := a.ldr.images ++ [(a.hub.get64 LCH.ACCEPTED_LO.NUM 0, bank, img)] } }

theorem State.loadRequest_room {s : State} {bank : Bool} {img : Image} {hc : Nat} (hroom : s.lch.pend.length < 16) :
    s.loadRequest bank img hc = ((s.sealedAll.latchAccept (s.loadLatchAsked hc)).imageKept bank img).loadEnd := if_pos hroom

theorem State.loadEnd_idle {s : State} (hqueue : s.ldr.queue = none) :
    s.loadEnd = { s with hub := s.hub.set IMG.STATUS.BUSY 0, ldr := { s.ldr with busy := none, waits := none } } := by
  unfold State.loadEnd State.loadNext
  dsimp only
  rw [hqueue]

/-- The Latch requested, as it is pending, and the number under which its image is kept. -/
theorem State.loadRequest_accepted {s : State} {bank : Bool} {img : Image} {hc : Nat} (hroom : s.lch.pend.length < 16) (hqueue : s.ldr.queue = none) :
    (s.loadRequest bank img hc).lch.pend = s.lch.pend ++ [s.sealedAll.accepted (s.loadLatchAsked hc)] ∧
      (s.loadRequest bank img hc).ldr.images = s.ldr.images ++
        [((s.sealedAll.latchAccept (s.loadLatchAsked hc)).hub.get64 LCH.ACCEPTED_LO.NUM 0, bank, img)] := by
  have hframe := State.latchAccept_frame s.sealedAll (s.loadLatchAsked hc)
  rw [State.loadRequest_room hroom]
  generalize s.sealedAll.latchAccept (s.loadLatchAsked hc) = a at hframe
  have hldr : a.ldr = s.ldr := by rw [hframe]; rfl
  have hpend : a.lch.pend = s.lch.pend ++ [s.sealedAll.accepted (s.loadLatchAsked hc)] := by rw [hframe]; rfl
  have hkept : (a.imageKept bank img).ldr.images = s.ldr.images ++ [(a.hub.get64 LCH.ACCEPTED_LO.NUM 0, bank, img)] := by
    rw [← hldr, State.imageKept]
  have hidle : (a.imageKept bank img).ldr.queue = none := by
    rw [← hqueue, ← hldr, State.imageKept]
  rw [← hkept, ← hpend, State.loadEnd_idle hidle]
  exact ⟨rfl, rfl⟩

/-- The number of the Latch accepted last, written over its end, reads 0. -/
theorem State.latchAccept_wraps {s : State} (c : s.canon) (l : Latch) (hlast : s.hub.get64 LCH.ACCEPTED_LO.NUM 0 = 2 ^ 64 - 1) :
    (s.latchAccept l).hub.get64 LCH.ACCEPTED_LO.NUM 0 = 0 := by
  have hhub := State.canon_hub c
  have hcanon : ({ s with
      hub := s.hub.set64 LCH.ACCEPTED_LO.NUM 0 (s.hub.get64 LCH.ACCEPTED_LO.NUM 0 + 1)
      lch := { s.lch with pend := s.lch.pend ++ [s.accepted l] } } : State).canon := ⟨Hub.set64_canon _ _ _ _ hhub, (State.canon_mem c : s.mem.canon)⟩
  have hsame := Hub.get64_of_rd LCH.ACCEPTED_LO.NUM 0 (State.latchStatus_rd hcanon (by decide)) (State.latchStatus_rd hcanon (by decide))
  have hnum : s.hub.get64 LCH.ACCEPTED_LO.NUM 0 + 1 = 2 ^ 64 := by omega
  have hlo : (s.hub.set64 LCH.ACCEPTED_LO.NUM 0 (2 ^ 64)).rd (LCH.ACCEPTED_LO.NUM.off 0 0) = 0 := by
    rw [Hub.set64, Hub.rd_wr_ne (Hub.wr_canon _ _ _ hhub) _ _ _ (by decide), Hub.rd_wr_self hhub]
    decide
  have hhi : (s.hub.set64 LCH.ACCEPTED_LO.NUM 0 (2 ^ 64)).rd (LCH.ACCEPTED_LO.NUM.off 0 0 + 4) = 0 := by
    rw [Hub.set64, Hub.rd_wr_self (Hub.wr_canon _ _ _ hhub)]
    decide
  refine hsame.trans ?_
  show (s.hub.set64 LCH.ACCEPTED_LO.NUM 0 (s.hub.get64 LCH.ACCEPTED_LO.NUM 0 + 1)).get64 LCH.ACCEPTED_LO.NUM 0 = 0
  rw [hnum, Hub.get64, hlo, hhi]
  rfl

theorem Hub.slatDrops_rd {h : Hub} (c : h.canon) (l : List Nat) {k : Nat} (h0 : k ≠ 0x300000) (h1 : k ≠ 0x300100) (hlog : offLog k) :
    (h.slatDrops l).rd k = h.rd k := by
  have hset : (h.set IMG.STATUS.SLAT_DROPS (min l.length 65535)).rd k = h.rd k := Hub.rd_set2_ne c _ _ _ _ _ h0
  cases l with
  | nil => exact hset
  | cons o t => exact (Hub.raise_rd (Hub.set_canon _ _ _ c) _ k (show k ≠ evtOff 0x0306 0 from h1) hlog).trans hset

/-- A device whose last Latch took the last number, while an empty full commit parses. -/
def lastNumberParsing : State :=
  { hub := { regs := [(0x200020, BitVec.allOnes 32), (0x200024, BitVec.allOnes 32)] }
    ldr := { busy := some (⟨false, false, 0⟩, some ⟨1, 0, 0, 0, 64, [], 0⟩) } }

theorem lastNumberParsing_canon : lastNumberParsing.canon := by
  have hregs : regsWf lastNumberParsing.hub.regs = true := by decide +kernel
  exact ⟨⟨hregs, rfl, rfl⟩, rfl⟩

/-- Refutes O20: after Latch 2^64 − 1 the next is pending under 2^64, but the register that numbers its image reads 0. -/
theorem not_loadLatchRequested : ¬ Obligations.LoadLatchRequested := by
  unfold Obligations.LoadLatchRequested
  rintro ⟨-, hall⟩
  have hbusy : lastNumberParsing.ldr.busy = some (⟨false, false, 0⟩, some ⟨1, 0, 0, 0, 64, [], 0⟩) := rfl
  have hcalm : lastNumberParsing.hub.get GLB.PACE_SUM.EMERG ≠ 1 := by decide +kernel
  have hlive : lastNumberParsing.hub.get GLB.STATUS.FROZEN ≠ 1 := by decide +kernel
  have hbank : lastNumberParsing.bankUp = true := by decide +kernel
  obtain ⟨t, l, more, hexec, -, -, hpend, -, -, -, himages, -, -, -⟩ := (hall 0 _ _ lastNumberParsing hbusy hcalm hlive hbank).1 rfl (by decide) rfl
  rw [exec_imgDone_full hbusy hcalm hlive hbank rfl] at hexec
  have hshadows : (readImage (lastNumberParsing.bankByte false) ⟨1, 0, 0, 0, 64, [], 0⟩).shadows = [] := rfl
  rw [hshadows] at hexec
  generalize readImage (lastNumberParsing.bankByte false) ⟨1, 0, 0, 0, 64, [], 0⟩ = img at hexec himages
  have chub := State.canon_hub lastNumberParsing_canon
  generalize (enterSlats (fun _ => 0) [] img.slats).2 = drops at hexec
  have hhub := Hub.slatDrops_rd (Hub.raise_canon _ (parsedEv ⟨false, false, 0⟩) chub) drops (k := 0x200020) (by decide) (by decide) (by decide)
  have hhub' := Hub.slatDrops_rd (Hub.raise_canon _ (parsedEv ⟨false, false, 0⟩) chub) drops (k := 0x200024) (by decide) (by decide) (by decide)
  rw [Hub.raise_rd chub _ _ (by decide) (by decide)] at hhub hhub'
  have cdrops := Hub.slatDrops_canon _ drops (Hub.raise_canon _ (parsedEv ⟨false, false, 0⟩) chub)
  generalize (lastNumberParsing.hub.raise (parsedEv ⟨false, false, 0⟩)).slatDrops drops = h at hexec hhub hhub' cdrops
  have hlast : h.get64 LCH.ACCEPTED_LO.NUM 0 = 2 ^ 64 - 1 := by
    refine (Hub.get64_of_rd (b := lastNumberParsing.hub) LCH.ACCEPTED_LO.NUM 0 hhub hhub').trans ?_
    decide +kernel
  have hmem : lastNumberParsing.mem.canon := State.canon_mem lastNumberParsing_canon
  obtain ⟨hpend', himages'⟩ := State.loadRequest_accepted (s := lastNumberParsing.withHub h) (bank := false) (img := img) (hc := 0) (Nat.zero_lt_succ 15) rfl
  rw [State.latchAccept_wraps (s := (lastNumberParsing.withHub h).sealedAll) ⟨cdrops, hmem⟩ _ hlast] at himages'
  have ht : (lastNumberParsing.withHub h).loadRequest false img 0 = t := Host.Outcome.next.inj hexec
  rw [ht] at hpend' himages'
  have hl : (lastNumberParsing.withHub h).sealedAll.accepted ((lastNumberParsing.withHub h).loadLatchAsked 0) = l :=
    List.singleton_inj.1 (List.append_cancel_left (hpend'.symm.trans hpend))
  have hnum : (0, false, img) = (l.num, false, img) := List.singleton_inj.1 (List.append_cancel_left (himages'.symm.trans himages))
  have hzero : h.get64 LCH.ACCEPTED_LO.NUM 0 + 1 = 0 := (congrArg Latch.num hl).trans (congrArg (·.1) hnum).symm
  omega

end Sys2Proof.Machine
end

section
/-! SUPPORT. A pass in which no Latch is due, the decision of a group, and the records of a snapshot (R87, R91, R92). -/

namespace Sys2Proof.Machine

/-- Where no Latch waits for another and none is due, a pass turns none. -/
theorem State.latchPass_undue {s : State} (hwait : ∀ p ∈ s.lch.pend, p.reason ≠ 2) : s.latchPass (fun _ => none) = s := by
  refine List.foldlRecOn (motive := fun a : State => a = s) _ _ rfl fun a ha num _ => ?_
  subst ha
  unfold State.latchTurn
  split
  · rfl
  next l hl => rw [if_neg (hwait l (List.mem_of_find?_eq_some hl))]

theorem exec_groupGuardDecision {num : Nat} {s : State} (hopen : s.hub.get GLB.STATUS.FROZEN ≠ 1) (hguard : s.guardTime num = true) :
    exec (.groupGuardDecision num) s = .next ((s.latchDecide num).latchPass fun _ => none) := by
  have harm : exec (.groupGuardDecision num) s = execGroupGuardDecision num s := rfl
  rw [harm, execGroupGuardDecision, if_neg (by simp [hopen, hguard])]

/-- Marking one Latch leaves every reason. -/
theorem reason_of_marked {pend : List Latch} {num : Nat} (mark : Latch → Latch) (hmark : ∀ p, (mark p).reason = p.reason)
    (hwait : ∀ p ∈ pend, p.reason ≠ 2) : ∀ p ∈ pend.map (fun p => if p.num = num then mark p else p), p.reason ≠ 2 := by
  intro p hp
  obtain ⟨q, hq, rfl⟩ := List.mem_map.mp hp
  split
  · rw [hmark]
    exact hwait q hq
  · exact hwait q hq

/-- What the decision of an undecided Latch does to the Latches and the open set (R87). -/
theorem State.latchDecide_lch {s : State} {num : Nat} {l : Latch} (hfind : s.lch.pend.find? (·.num = num) = some l) (hopen : l.decided = false) :
    (s.latchDecide num).lch =
      if s.missing l.tag l.named = [] then { s.lch with pend := s.lch.pend.map fun p => if p.num = num then { p with decided := true } else p }
      else if l.abort = true then { s.lch with pend := s.lch.pend.filter (·.num ≠ num), openSet := l.items ++ s.lch.openSet }
      else { s.lch with pend := s.lch.pend.map fun p =>
        if p.num = num then { p with decided := true, missing := (s.missing l.tag l.named).length } else p } := by
  unfold State.latchDecide
  rw [hfind]
  dsimp only
  rw [if_neg (by simp [hopen])]
  split
  · rfl
  · split <;> rfl

/-- After the guard's decision no Latch is due, so nothing else follows. -/
theorem State.latchDecide_reasons {s : State} {num : Nat} {l : Latch} (hfind : s.lch.pend.find? (·.num = num) = some l) (hopen : l.decided = false)
    (hwait : ∀ p ∈ s.lch.pend, p.reason ≠ 2) : ∀ p ∈ (s.latchDecide num).lch.pend, p.reason ≠ 2 := by
  rw [State.latchDecide_lch hfind hopen]
  split
  · exact reason_of_marked (fun p => { p with decided := true }) (fun _ => rfl) hwait
  · split
    · exact fun p hp => hwait p (List.mem_filter.mp hp).1
    · exact reason_of_marked (fun p => { p with decided := true, missing := (s.missing l.tag l.named).length }) (fun _ => rfl) hwait

/-! ### Snapshots -/

theorem exec_snapCmdNext {s : State} (val : Word) (hc : Nat) (hin : s.hub.hostIn = true) : exec (.snapCmdNext val hc) s = .next (s.snapNext val hc) :=
  congrArg Host.Outcome.next (if_pos hin)

theorem exec_snapCmdSched {s : State} (val : Word) (hc : Nat) (hin : s.hub.hostIn = true) : exec (.snapCmdSched val hc) s = .next (s.snapSched val hc) :=
  congrArg Host.Outcome.next (if_pos hin)

/-- A snapshot is refused while one runs. -/
theorem State.snapStart_busy {s : State} {x : Snap} (h : s.lch.snap = some x) (val : Word) (at_ : LatchWhen) (members : List Nat) :
    s.snapStart val at_ members = { s with hub := s.hub.raise { code := 0x0507 } } := by
  rw [State.snapStart, h]

/-- A snapshot without members begins where none runs. -/
theorem State.snapStart_free {s : State} (hcanon : s.canon) (h : s.lch.snap = none) (val : Word) (at_ : LatchWhen) :
    ∃ x, (s.snapStart val at_ []).lch.snap = some x ∧ x.when_ = at_ ∧ x.group = false ∧ x.captured = false ∧
      x.sect = s.hub.get LCH.SNAP_SECT.MASK ∧ x.len = s.hub.get LCH.SNAP_LEN.LEN ∧ (s.snapStart val at_ []).hub.get LCH.STATUS.SNAP_BUSY = 1 ∧
      s.snapStart val at_ [] = { s with hub := (s.snapStart val at_ []).hub, lch := { s.lch with snap := some x } } := by
  have hbusy := Hub.get_set_self (State.canon_hub hcanon) LCH.STATUS.SNAP_BUSY 1 (by decide)
  rw [State.snapStart, h]
  exact ⟨_, rfl, rfl, rfl, rfl, rfl, rfl, hbusy, rfl⟩

/-- One snapshot of MODE SCHED without members: at its time, or at the next boundary where that lies within the guard. -/
theorem State.snapSched_alone {s : State} (val : Word) (hc : Nat) (hgroup : LCH.SNAP_CMD.GROUP.of val = 0) (h : s.lch.snap = none) :
    s.snapSched val hc = s.snapStart val (match s.schedBound s.hub.schedRaw hc with | some ns => .sched ns | none => s.nextBound hc) [] := by
  unfold State.snapSched
  rw [if_neg (by simp [h]), if_neg (by simp [hgroup])]
  rfl

/-- The state keeps a snapshot that writes nothing. -/
theorem State.snapShort_short (s : State) (x : Snap) : (s.snapShort x).2 = { x with short := true } := rfl

/-- A record, whole or cut, leaves a snapshot that is partial so. -/
theorem State.snapWrite_short {s : State} {x : Snap} (rec : List Byte) (h : x.short = true) : (s.snapWrite x rec).2.short = true := by
  unfold State.snapWrite
  dsimp only
  split
  · exact h
  · split
    · exact h
    · rfl

/-- The record of the only member awaited is written, and none is awaited any more. -/
theorem State.snapDrain_last {s : State} {x : Snap} {dev : Nat} {rec : List Byte} (h : kvGet dev x.early = some rec) :
    s.snapDrain x [dev] = ((s.snapWrite { x with early := kvDel dev x.early } rec).1,
      { (s.snapWrite { x with early := kvDel dev x.early } rec).2 with waiting := [] }) := by
  rw [State.snapDrain]
  split
  next hnone => rw [hnone] at h; cases h
  next r hsome =>
    rw [hsome] at h
    cases h
    rfl

/-- A record that fits follows the last one. -/
theorem State.snapWrite_fits {s : State} {x : Snap} {rec : List Byte} (hopen : x.ended = false) (hlen : 64 ≤ x.len) (hfits : rec.length ≤ x.len - x.pos) :
    s.snapWrite x rec = ({ s with hub := s.hub.hostWrite (x.addr + x.pos) rec }, { x with pos := x.pos + rec.length, devices := x.devices + 1 }) := by
  unfold State.snapWrite
  dsimp only
  rw [if_neg (by simp [hopen]), if_pos ⟨hlen, hfits⟩]

/-- The end of a snapshot leaves SNAP_BUSY at 0 whatever it writes and raises (R92). -/
theorem Hub.snapEnd_busy {h : Hub} (c : h.canon) (a : Nat) (bs : List Byte) :
    (((h.set LCH.STATUS.SNAP_BUSY 0).hostWrite a bs).raise { code := 0x0505 }).get LCH.STATUS.SNAP_BUSY = 0 := by
  have hset := Hub.set_canon h LCH.STATUS.SNAP_BUSY 0 c
  rw [Hub.raise_get (Hub.hostWrite_canon _ _ _ hset) { code := 0x0505 } _ 0x0505 0 rfl rfl (by decide) (by decide),
    Hub.get_of_rd _ (Hub.hostWrite_rd ..), Hub.get_set_self c _ _ (by decide)]
  rfl

end Sys2Proof.Machine
end

section
/-! SETTLED. Group Latches and snapshots (R87, R91, R92). -/

namespace Sys2Proof.Machine

/-- ARMs are kept, forgotten, and judged at the guard time (R87). -/
theorem armsAndGuard :
    (∀ (dev tag sec ns : Nat) (s : State), s.hub.time.total ≤ s.hub.instant (sec * 1000000000 + ns) + 1000000000 →
     ∃ t, exec (.armReceive dev tag sec ns) s = .next t ∧ (⟨dev % 2048, tag % 65536, sec, ns⟩ : Arm) ∈ t.lch.arms ∧
       (∀ a ∈ s.lch.arms, a ∈ t.lch.arms) ∧ t = { s with lch := { s.lch with arms := t.lch.arms } }) ∧
    (∀ (dev tag sec ns : Nat) (s : State),
     (s.hub.time.total < s.hub.instant (sec * 1000000000 + ns) + 1000000000 → exec (.armExpiry dev tag sec ns) s = .next s) ∧
     (s.hub.instant (sec * 1000000000 + ns) + 1000000000 ≤ s.hub.time.total → ∃ t, exec (.armExpiry dev tag sec ns) s = .next t ∧
       (∀ a : Arm, a ∈ t.lch.arms ↔ a ∈ s.lch.arms ∧ a ≠ ⟨dev % 2048, tag % 65536, sec, ns⟩) ∧ t = { s with lch := { s.lch with arms := t.lch.arms } })) := by
  refine ⟨fun dev tag sec ns s hsoon => ?_, fun dev tag sec ns s => ⟨fun hearly => congrArg Host.Outcome.next (if_pos hearly), fun hlate => ?_⟩⟩
  · refine ⟨s.armIn ⟨dev % 2048, tag % 65536, sec, ns⟩, rfl, ?_⟩
    unfold State.armIn
    by_cases hheld : s.lch.arms.contains (⟨dev % 2048, tag % 65536, sec, ns⟩ : Arm) = true
    · rw [if_pos (Or.inl hheld)]
      exact ⟨by simpa using hheld, fun _ h => h, rfl⟩
    · rw [if_neg (not_or.mpr ⟨hheld, Nat.not_lt.mpr hsoon⟩)]
      exact ⟨by simp, fun a ha => List.mem_append_left _ ha, rfl⟩
  · exact ⟨_, congrArg Host.Outcome.next (if_neg (Nat.not_lt.mpr hlate)), fun a => by simp, rfl⟩

/-- A member's record, in its turn or kept until then (R91). -/
theorem snapRecordReceive_inTurn (dev : Nat) (rec : List Byte) (x : Snap) (s : State) (hsnap : s.lch.snap = some x) :
    (dev ∉ x.waiting → exec (.snapRecordReceive dev rec) s = .next s) ∧
    (dev ∈ x.waiting → x.captured = false →
      exec (.snapRecordReceive dev rec) s = .next { s with lch := { s.lch with snap := some { x with early := kvPut dev rec x.early } } }) ∧
    (x.captured = true → x.waiting = [dev] → x.ended = false → 64 ≤ x.len → rec.length ≤ x.len - x.pos → x.early = [] →
      exec (.snapRecordReceive dev rec) s = .next { s with
        hub := s.hub.hostWrite (x.addr + x.pos) rec
        lch := { s.lch with snap := some { x with pos := x.pos + rec.length, devices := x.devices + 1, waiting := [] } } }) := by
  have harm : exec (.snapRecordReceive dev rec) s = .next (s.snapIn dev rec) := rfl
  rw [harm, State.snapIn, hsnap]
  dsimp only
  refine ⟨fun hout => ?_, fun hin hwait => ?_, fun hcap hlast hopen hlen hfits hearly => ?_⟩
  · rw [if_pos (by simpa using hout)]
  · rw [if_neg (by simpa using hin), if_neg (by simp [hwait])]
    rfl
  · rw [if_neg (by simp [hlast]), if_pos hcap, hlast, State.snapDrain_last (kvGet_kvPut_self dev rec x.early), State.snapWrite_fits]
    · have hdel : kvDel dev (kvPut dev rec []) = [] := by simp [kvPut, kvDel]
      rw [hearly, hdel, ← hearly]
      rfl
    · exact hopen
    · exact hlen
    · exact hfits

/-- A member that stays silent (R92). -/
theorem snapMemberTimeout_short (dev : Nat) (x : Snap) (s : State) (hsnap : s.lch.snap = some x) :
    (s.hub.elapsed < x.capAt + 100000000 → exec (.snapMemberTimeout dev) s = .next s) ∧
    (x.captured = true → x.waiting = [dev] → kvHas dev x.early = false → x.capAt + 100000000 ≤ s.hub.elapsed →
      ∃ t y, exec (.snapMemberTimeout dev) s = .next t ∧ t.lch.snap = some y ∧ y.waiting = [] ∧ y.short = true) := by
  have harm : exec (.snapMemberTimeout dev) s = execSnapMemberTimeout dev s := rfl
  rw [harm, execSnapMemberTimeout, hsnap]
  dsimp only
  refine ⟨fun hearly => ?_, fun hcap hlast hout hlate => ?_⟩
  · rw [if_pos (Or.inr (Or.inr (Or.inr hearly)))]
  · rw [if_neg (by simp [hcap, hlast, hout, Nat.not_lt.mpr hlate]), State.snapShort_short]
    dsimp only
    rw [hlast, State.snapDrain_last (kvGet_kvPut_self _ _ _)]
    exact ⟨_, _, rfl, rfl, rfl, State.snapWrite_short _ rfl⟩

/-- The end of a snapshot (R92). -/
theorem snapDone_ends (x : Snap) (s : State) (hsnap : s.lch.snap = some x) :
    (x.captured = false ∨ x.waiting ≠ [] → exec .snapDone s = .next s) ∧
    (s.canon → x.captured = true → x.waiting = [] → ∃ t, exec .snapDone s = .next t ∧ t.lch.snap = none ∧ t.hub.get LCH.STATUS.SNAP_BUSY = 0 ∧
      (64 ≤ x.len → t.hub = ((s.hub.set LCH.STATUS.SNAP_BUSY 0).hostWrite x.addr x.header).raise { code := 0x0505 }) ∧
      t = { s with hub := t.hub, lch := { s.lch with snap := none } }) := by
  have harm : exec .snapDone s = execSnapDone s := rfl
  rw [harm, execSnapDone, hsnap]
  dsimp only
  refine ⟨fun hbusy => by rw [if_pos (by simpa using hbusy)], fun hcanon hcap hnone => ?_⟩
  have hhub := State.canon_hub hcanon
  rw [if_neg (by simp [hcap, hnone])]
  refine ⟨_, rfl, rfl, ?_, fun hlen => if_pos hlen, rfl⟩
  dsimp only
  split
  · exact Hub.snapEnd_busy hhub _ _
  · exact Hub.get_set_self hhub _ _ (by decide)

/-- Settles O24: ARMs and the guard's decision, then the course of a snapshot. -/
theorem groupsAndSnapshots : Obligations.GroupsAndSnapshots := by
  obtain ⟨harms, hexpiry⟩ := armsAndGuard
  refine ⟨⟨harms, hexpiry, fun num s hstays => ?_, fun num l s hopen hwait hfind hguard hundec => ?_⟩, fun val hc x s hin hsnap => ⟨?_, ?_⟩,
    fun val hc s hcanon hin hsnap => ⟨?_, fun hgroup => ?_⟩, fun _ _ _ _ _ _ => rfl, snapRecordReceive_inTurn, snapMemberTimeout_short, snapDone_ends⟩
  · exact congrArg Host.Outcome.next (if_pos (hstays.imp id fun h => by rw [h]; rfl))
  · have hlch := State.latchDecide_lch hfind hundec
    refine ⟨s.latchDecide num, ?_, fun hall => ?_, fun hsome habort => ?_, fun hsome habort => ?_⟩
    · rw [exec_groupGuardDecision hopen hguard, State.latchPass_undue (State.latchDecide_reasons hfind hundec hwait)]
    · rw [hlch, if_pos hall]
      exact ⟨rfl, rfl⟩
    · rw [hlch, if_neg hsome, if_pos habort]
      exact ⟨rfl, rfl⟩
    · rw [hlch, if_neg hsome, if_neg (by simp [habort])]
      exact ⟨rfl, rfl⟩
  · rw [exec_snapCmdNext val hc hin, State.snapNext, State.snapStart_busy hsnap]
  · rw [exec_snapCmdSched val hc hin, State.snapSched]
    dsimp only
    rw [if_pos (by simp [hsnap]), State.snapStart_busy hsnap]
  · obtain ⟨x, hsome, hwhen, hgroup, hcap, hsect, hlen, hbusy, hframe⟩ := State.snapStart_free hcanon hsnap val (s.nextBound hc)
    exact ⟨_, x, exec_snapCmdNext val hc hin, hsome, hwhen, hgroup, hcap, hsect, hlen, hbusy, hframe⟩
  · obtain ⟨x, hsome, hwhen, -, hcap, -, -, hbusy, hframe⟩ := State.snapStart_free hcanon hsnap val
      (match s.schedBound s.hub.schedRaw hc with | some ns => .sched ns | none => s.nextBound hc)
    refine ⟨_, x, by rw [exec_snapCmdSched val hc hin, State.snapSched_alone val hc hgroup hsnap], hsome, fun b hb => ?_, fun hnone => ?_, hcap, hbusy, hframe⟩
    · rw [hwhen, hb]
    · rw [hwhen, hnone]

end Sys2Proof.Machine
end

section
/-! SETTLED. Conferences and legs (R98, R126, R127, Tables 6.8 and 6.9). -/

namespace Sys2Proof.Machine

/-- CONF_CREATE and CONF_DESTROY of an ID that no conference has. -/
theorem confCommands_none (e : CmdEnv) (body : List Byte) (s : State) (hnone : kvGet (bodyN body 0 2 % 4096) s.fwd.confs = none) :
    (∃ t, exec (.confCreate e body) s = .next t ∧
      kvGet (bodyN body 0 2 % 4096) t.fwd.confs = some { cluster := bodyN body 4 4, fn := e.fn } ∧
      (∀ k, k ≠ bodyN body 0 2 % 4096 → kvGet k t.fwd.confs = kvGet k s.fwd.confs) ∧
      t = ({ s with fwd := { s.fwd with confs := t.fwd.confs } } : State).done e 0x0101 0 []) ∧
    exec (.confDestroy e body) s = .next (s.done e 0x0102 3 []) := by
  have hcreate : exec (.confCreate e body) s = execConfCreate e body s := rfl
  have hdestroy : exec (.confDestroy e body) s = execConfDestroy e body s := rfl
  rw [hcreate, hdestroy, execConfCreate, execConfDestroy]
  dsimp only
  rw [hnone]
  exact ⟨⟨_, rfl, kvGet_kvPut_self _ _ _, fun k hk => kvGet_kvPut_ne _ _ _ _ hk, rfl⟩, rfl⟩

/-- CONF_DESTROY of a conference that may be destroyed: its legs go first, and its removal is queued. -/
theorem confDestroy_marks (e : CmdEnv) (body : List Byte) (s : State) (x : Conf) (hconf : kvGet (bodyN body 0 2 % 4096) s.fwd.confs = some x)
    (hreach : x.reached e.fn = true) (hlive : x.gone = false) :
    ∃ t, exec (.confDestroy e body) s = .next t ∧
      kvGet (bodyN body 0 2 % 4096) t.fwd.confs = some { x with gone := true } ∧
      t.fwd.removals.getLast? = some ⟨0, bodyN body 0 2 % 4096, some (e, 0x0102)⟩ ∧
      (s.fwd.confLegs (bodyN body 0 2 % 4096) = [] →
        t = { s with fwd := { s.fwd with confs := t.fwd.confs, removals := s.fwd.removals ++ [⟨0, bodyN body 0 2 % 4096, some (e, 0x0102)⟩] } }) := by
  have hdestroy : exec (.confDestroy e body) s = execConfDestroy e body s := rfl
  rw [hdestroy, execConfDestroy]
  dsimp only
  rw [hconf]
  dsimp only
  rw [if_neg (by simp [hreach]), if_neg (by simp [hlive])]
  refine ⟨_, rfl, kvGet_kvPut_self _ _ _, List.getLast?_concat, fun hempty => ?_⟩
  rw [hempty]
  rfl

/-- CONF_CREATE and CONF_DESTROY of a conference that is there. -/
theorem confCommands_some (e : CmdEnv) (body : List Byte) (s : State) (x : Conf) (hconf : kvGet (bodyN body 0 2 % 4096) s.fwd.confs = some x) :
    exec (.confCreate e body) s = .next (s.done e 0x0101 (if x.gone then 6 else 2) []) ∧
    (x.reached e.fn = false → exec (.confDestroy e body) s = .next (s.done e 0x0102 5 [])) ∧
    (x.reached e.fn = true → x.gone = true → exec (.confDestroy e body) s = .next (s.done e 0x0102 6 [])) := by
  have hcreate : exec (.confCreate e body) s = execConfCreate e body s := rfl
  have hdestroy : exec (.confDestroy e body) s = execConfDestroy e body s := rfl
  rw [hcreate, hdestroy, execConfCreate, execConfDestroy]
  dsimp only
  rw [hconf]
  dsimp only
  refine ⟨rfl, fun hother => ?_, fun hreach hgone => ?_⟩
  · rw [if_pos (by simp [hother])]
  · rw [if_neg (by simp [hreach]), if_pos hgone]

/-- LEG_ADD where there is room for the leg and a conference for it (Table 6.9). -/
theorem legAdd_makes (e : CmdEnv) (body : List Byte) (s : State) (hlimit : bodyN body 0 2 < s.hub.legLimit)
    (hreach : s.hub.reachesLeg e.fn (bodyN body 0 2) = true) (c : Conf) (hconf : kvGet (legOf body).conf s.fwd.confs = some c)
    (hmine : c.reached e.fn = true) (hlive : c.gone = false) (hfree : kvGet (bodyN body 0 2) s.fwd.legs = none) :
    ∃ t l, exec (.legAdd e body) s = .next t ∧ kvGet (bodyN body 0 2) t.fwd.legs = some l ∧ l.conf = bodyN body 2 2 % 4096 ∧ l.maker = e.fn ∧ l.kind ≤ 2 ∧
      l.state = (if l.kind = 0 then 0 else 1) ∧ l.minK ≤ l.cnt.est ∧ l.cnt.est ≤ l.maxK ∧
      (∀ k, k ≠ bodyN body 0 2 → kvGet k t.fwd.legs = kvGet k s.fwd.legs) ∧
      t = ({ s with
        hub := s.hub.freeTick.set1 QSC.LEG_RATE.KBPS (bodyN body 0 2) (l.cnt.est * 5 / 4)
        fwd := { s.fwd with legs := t.fwd.legs } } : State).done e 0x0103 0 [] := by
  have harm : exec (.legAdd e body) s = execLegAdd e body s := rfl
  have hkind : (legOf body).kind ≤ 2 := by
    simp only [legOf]
    split <;> omega
  have hbounds : (legOf body).minK ≤ (legOf body).maxK := by
    simp only [legOf]
    omega
  rw [harm, execLegAdd]
  dsimp only
  rw [if_neg (Nat.not_le.mpr hlimit), if_neg (by simp [hreach]), hconf, hfree]
  dsimp only
  rw [if_neg (by simp [hmine]), if_neg (by simp [hlive])]
  refine ⟨_, _, rfl, kvGet_kvPut_self _ _ _, rfl, rfl, hkind, rfl, ?_, ?_, fun k hk => kvGet_kvPut_ne _ _ _ _ hk, rfl⟩
  · dsimp only
    omega
  · exact Nat.min_le_right _ _

/-- LEG_MODIFY at once: the leg's new parameters, and its state (Table 6.8). -/
theorem legModify_replaces (e : CmdEnv) (body : List Byte) (s : State) (hlimit : bodyN body 0 2 < s.hub.legLimit)
    (hreach : s.hub.reachesLeg e.fn (bodyN body 0 2) = true) (x : Leg) (hleg : kvGet (bodyN body 0 2) s.fwd.legs = some x) (hlive : x.state ≠ 3)
    (hconf : x.conf = (legOf body).conf) (hnow : e.latched = false) :
    ∃ t l, exec (.legModify e body) s = .next t ∧ kvGet (bodyN body 0 2) t.fwd.legs = some l ∧ l.minK = bodyN body 0x2C 4 ∧ l.conf = x.conf ∧
      (l.kind ≠ 0 → l.state = 1) ∧
      (l.kind = 0 → x.kind = 0 → l.lfrag = x.lfrag → l.lpwd = x.lpwd → l.rfrag = x.rfrag → l.rpwd = x.rpwd → l.state = x.state) ∧
      (l.kind = 0 → (l.lfrag ≠ x.lfrag ∨ l.lpwd ≠ x.lpwd ∨ l.rfrag ≠ x.rfrag ∨ l.rpwd ≠ x.rpwd) → l.state = 0) ∧
      (∀ k, k ≠ bodyN body 0 2 → kvGet k t.fwd.legs = kvGet k s.fwd.legs) ∧
      t = ({ s with
        hub := s.hub.set1 QSC.LEG_RATE.KBPS (bodyN body 0 2) (l.cnt.est * 5 / 4)
        fwd := { s.fwd with legs := t.fwd.legs } } : State).done e 0x0104 0 [] := by
  have harm : exec (.legModify e body) s = execLegModify e body s := rfl
  rw [harm, execLegModify]
  dsimp only
  rw [if_neg (Nat.not_le.mpr hlimit), hleg]
  dsimp only
  rw [if_neg (by simp [hreach]), if_neg hlive, if_neg (by simp [hconf]), if_neg (by simp [hnow])]
  refine ⟨_, _, rfl, kvGet_kvPut_self _ _ _, rfl, hconf.symm, fun hkind => if_pos hkind, fun hkind hold h1 h2 h3 h4 => ?_, fun hkind hfresh => ?_,
    fun k hk => kvGet_kvPut_ne _ _ _ _ hk, rfl⟩
  · dsimp only at hkind h1 h2 h3 h4 ⊢
    rw [if_neg (by simp [hkind]), if_neg (by simp [hold, h1, h2, h3, h4])]
  · dsimp only at hkind hfresh ⊢
    rw [if_neg (by simp [hkind])]
    refine if_pos (Or.inr ?_)
    simpa only [ne_comm] using hfresh

/-- LEG_MODIFY that waits for its Latch, or names another conference; LEG_REMOVE (R126, R127). -/
theorem legCommands_some (e : CmdEnv) (body : List Byte) (s : State) (hlimit : bodyN body 0 2 < s.hub.legLimit)
    (hreach : s.hub.reachesLeg e.fn (bodyN body 0 2) = true) (x : Leg) (hleg : kvGet (bodyN body 0 2) s.fwd.legs = some x) (hlive : x.state ≠ 3) :
    (x.conf = (legOf body).conf → e.latched = true → exec (.legModify e body) s = .next (s.hold e 0x0104 (.legModify e body))) ∧
    (x.conf ≠ (legOf body).conf → exec (.legModify e body) s = .next (s.done e 0x0104 4 [])) ∧
    (∃ t, exec (.legRemove e body) s = .next t ∧ kvGet (bodyN body 0 2) t.fwd.legs = some { x with state := 3 } ∧
      t = (s.markLeg (bodyN body 0 2)).removal ⟨1, bodyN body 0 2, some (e, 0x0105)⟩) := by
  have hmodify : exec (.legModify e body) s = execLegModify e body s := rfl
  have hremove : exec (.legRemove e body) s = execLegRemove e body s := rfl
  rw [hmodify, hremove, execLegModify, execLegRemove]
  rw [if_neg (Nat.not_le.mpr hlimit), if_neg (Nat.not_le.mpr hlimit), hleg]
  dsimp only
  rw [if_neg (by simp [hreach]), if_neg hlive]
  refine ⟨fun hsame hlatched => ?_, fun hother => by rw [if_pos hother], ?_⟩
  · rw [if_neg (by simp [hsame]), if_pos hlatched]
  · rw [if_neg (by simp [hreach]), if_neg hlive]
    refine ⟨_, rfl, ?_, rfl⟩
    rw [State.markLeg, hleg]
    exact kvGet_kvPut_self _ _ _

/-- LEG_MODIFY and LEG_REMOVE of a leg that is not there. -/
theorem legCommands_none (e : CmdEnv) (body : List Byte) (s : State) (hlimit : bodyN body 0 2 < s.hub.legLimit)
    (hnone : kvGet (bodyN body 0 2) s.fwd.legs = none) :
    exec (.legModify e body) s = .next (s.done e 0x0104 3 []) ∧ exec (.legRemove e body) s = .next (s.done e 0x0105 3 []) := by
  have hmodify : exec (.legModify e body) s = execLegModify e body s := rfl
  have hremove : exec (.legRemove e body) s = execLegRemove e body s := rfl
  rw [hmodify, hremove, execLegModify, execLegRemove]
  rw [if_neg (Nat.not_le.mpr hlimit), if_neg (Nat.not_le.mpr hlimit), hnone]
  exact ⟨rfl, rfl⟩

/-- Settles O25: each command's outcomes, by what is there under its ID. -/
theorem conferencesAndLegs : Obligations.ConferencesAndLegs := by
  refine ⟨fun e body s => ⟨confCommands_none e body s, fun x hconf => ?_⟩, fun e body s hlimit hreach =>
    ⟨fun c hconf hmine hlive hfree => legAdd_makes e body s hlimit hreach c hconf hmine hlive hfree, fun x hleg hlive => ?_,
      legCommands_none e body s hlimit⟩⟩
  · obtain ⟨hcreate, hother, hgone⟩ := confCommands_some e body s x hconf
    exact ⟨hcreate, hother, hgone, confDestroy_marks e body s x hconf⟩
  · obtain ⟨hheld, hconf, hremove⟩ := legCommands_some e body s hlimit hreach x hleg hlive
    exact ⟨hheld, legModify_replaces e body s hlimit hreach x hleg hlive, hconf, hremove⟩

end Sys2Proof.Machine
end

section
/-! SETTLED. Streams, statistics and service keys of forwarding (R98, R124, R126, R128, Tables 6.10 and 6.11). -/

namespace Sys2Proof.Machine

theorem Hub.freeTick_four (h : Hub) : h.freeTick.freeTick.freeTick.freeTick = { h with free := h.free + 4 } := rfl

theorem exec_streamAdd (e : CmdEnv) (body : List Byte) (s : State) :
    (∀ st, s.streamRefused e body = some st → exec (.streamAdd e body) s = .next (s.done e 0x0106 st [])) ∧
    (s.streamRefused e body = none → bodyU8 body 2 ≠ 1 → exec (.streamAdd e body) s =
      .next (({ s with fwd := { s.fwd with ins := kvPut (bodyN body 0 2) (inOf body) s.fwd.ins } } : State).done e 0x0106 0 [])) ∧
    (s.streamRefused e body = none → bodyU8 body 2 = 1 → ∃ seq ts rtx fec, exec (.streamAdd e body) s = .next (({ s with
      hub := { s.hub with free := s.hub.free + 4 }
      fwd := { s.fwd with outs := kvPut (bodyN body 0 2) (outOf body seq ts rtx fec) s.fwd.outs } } : State).done e 0x0106 0 [])) := by
  have harm : exec (.streamAdd e body) s = execStreamAdd e body s := rfl
  rw [harm, execStreamAdd]
  dsimp only
  refine ⟨fun st hst => by rw [hst], fun hnone hin => ?_, fun hnone hout => ?_⟩
  · rw [hnone]
    dsimp only
    rw [if_neg hin]
    rfl
  · rw [hnone]
    dsimp only
    rw [if_pos hout, Hub.freeTick_four]
    exact ⟨s.hub.freeVal 65536, s.hub.freeTick.freeVal (2 ^ 32), s.hub.freeTick.freeTick.freeVal 65536,
      s.hub.freeTick.freeTick.freeTick.freeVal 65536, rfl⟩

/-- Every subscription to an inbound stream that is marked goes with it (R126). -/
theorem State.markIn_eq {s : State} {i : Nat} {x : InStream} (hstream : kvGet i s.fwd.ins = some x) : s.markIn i = { s with fwd := { s.fwd with
    ins := kvPut i { x with gone := true } s.fwd.ins
    subs := s.fwd.subs.map fun u => if u.2.src = i then (u.1, { u.2 with gone := true }) else u } } := by
  rw [State.markIn, hstream]
  rfl

/-- A subscription of stream `i` marked, another as it is. -/
def Sub.markedFrom (i : Nat) (u : Sub) : Sub := if u.src = i then { u with gone := true } else u

theorem Sub.markedFrom_gone {i : Nat} {u : Sub} (h : (u.markedFrom i).src = i) : (u.markedFrom i).gone = true := by
  unfold Sub.markedFrom at h ⊢
  split
  · rfl
  next hne =>
    rw [if_neg hne] at h
    exact absurd h hne

theorem subs_of_marked {subs : List (Nat × Sub)} {i k : Nat} {u : Sub}
    (h : kvGet k (subs.map fun u => if u.2.src = i then (u.1, { u.2 with gone := true }) else u) = some u) (hsrc : u.src = i) : u.gone = true := by
  have hmap : (subs.map fun u => if u.2.src = i then (u.1, { u.2 with gone := true }) else u) =
      subs.map fun e => (e.1, (fun (_ : Nat) => Sub.markedFrom i) e.1 e.2) := by
    refine List.map_congr_left fun e _ => ?_
    dsimp only [Sub.markedFrom]
    split <;> rfl
  rw [hmap, kvGet_map (fun _ => Sub.markedFrom i)] at h
  obtain ⟨v, -, hv⟩ := Option.map_eq_some_iff.mp h
  subst hv
  exact Sub.markedFrom_gone hsrc

/-- STREAM_DEL of an inbound and of an outbound stream (R126). -/
theorem streamDel_marks (e : CmdEnv) (body : List Byte) (s : State) :
    (∀ x, bodyU8 body 2 ≠ 1 → kvGet (bodyN body 0 2) s.fwd.ins = some x → s.hub.reachesLeg e.fn x.leg = true → x.gone = false →
      ∃ t, exec (.streamDel e body) s = .next t ∧ kvGet (bodyN body 0 2) t.fwd.ins = some { x with gone := true } ∧
        (∀ k u, kvGet k t.fwd.subs = some u → u.src = bodyN body 0 2 → u.gone = true) ∧
        t.fwd.removals = s.fwd.removals ++ [⟨2, bodyN body 0 2, some (e, 0x0107)⟩] ∧
        (∀ k, k ≠ bodyN body 0 2 → kvGet k t.fwd.ins = kvGet k s.fwd.ins) ∧
        t = { s with fwd := { s.fwd with ins := t.fwd.ins, subs := t.fwd.subs, removals := t.fwd.removals } }) ∧
    (∀ x, bodyU8 body 2 = 1 → kvGet (bodyN body 0 2) s.fwd.outs = some x → s.hub.reachesLeg e.fn x.leg = true → x.gone = false →
      exec (.streamDel e body) s = .next ((s.markOut (bodyN body 0 2)).removal ⟨3, bodyN body 0 2, some (e, 0x0107)⟩)) := by
  have harm : exec (.streamDel e body) s = execStreamDel e body s := rfl
  rw [harm, execStreamDel]
  dsimp only
  refine ⟨fun x hin hstream hreach hlive => ?_, fun x hout hstream hreach hlive => ?_⟩
  · rw [if_neg hin, hstream]
    dsimp only
    rw [if_neg (by simp [hreach]), if_neg (by simp [hlive]), State.markIn_eq hstream]
    exact ⟨_, rfl, kvGet_kvPut_self _ _ _, fun k u hu hsrc => subs_of_marked hu hsrc, rfl, fun k hk => kvGet_kvPut_ne _ _ _ _ hk, rfl⟩
  · rw [if_pos hout, hstream]
    dsimp only
    rw [if_neg (by simp [hreach]), if_neg (by simp [hlive])]

/-- KEY_REQ (R124). -/
theorem keyReq_pending (e : CmdEnv) (body : List Byte) (s : State) :
    (∀ x, kvGet (bodyN body 0 2) s.fwd.ins = some x → s.hub.reachesLeg e.fn x.leg = true → x.gone = false → x.key.pending = false →
      ∃ t y, exec (.keyReq e body) s = .next t ∧ kvGet (bodyN body 0 2) t.fwd.ins = some y ∧
        y = { x with key := { x.key with pending := true, plis := 0, fir := false } } ∧
        (∀ k, k ≠ bodyN body 0 2 → kvGet k t.fwd.ins = kvGet k s.fwd.ins) ∧
        t = ({ s with fwd := { s.fwd with ins := t.fwd.ins } } : State).done e 0x010C 0 []) ∧
    (kvGet (bodyN body 0 2) s.fwd.ins = none → exec (.keyReq e body) s = .next (s.done e 0x010C 3 [])) := by
  have harm : exec (.keyReq e body) s = execKeyReq e body s := rfl
  rw [harm, execKeyReq]
  dsimp only
  refine ⟨fun x hstream hreach hlive hidle => ?_, fun hnone => by rw [hnone]⟩
  have hreq : s.keyRequest (bodyN body 0 2) =
      { s with fwd := s.fwd.setIn (bodyN body 0 2) { x with key := { x.key with pending := true, plis := 0, fir := false } } } := by
    rw [State.keyRequest, hstream]
    exact if_neg (by simp [hlive, hidle])
  rw [hstream]
  dsimp only
  rw [if_neg (by simp [hreach]), if_neg (by simp [hlive]), hreq]
  exact ⟨_, _, rfl, kvGet_kvPut_self _ _ _, rfl, fun k hk => kvGet_kvPut_ne _ _ _ _ hk, rfl⟩

/-- A field of a record that ends before a byte has nothing from there on. -/
theorem leBytes_drop {n k : Nat} (v : Nat) (h : n ≤ k) : (leBytes n v).drop k = [] := List.drop_eq_nil_of_le (by rwa [leBytes_length])

/-- LEG_STATS answers the last publication (Table 6.11). -/
theorem legStats_answers (e : CmdEnv) (body : List Byte) (s : State) :
    (∀ l, bodyN body 0 2 < s.hub.legLimit → kvGet (bodyN body 0 2) s.fwd.legs = some l → s.hub.reachesLeg e.fn (bodyN body 0 2) = true → l.state ≠ 3 →
      ∃ res, exec (.legStats e body) s = .next (s.done e 0x010B 0 res) ∧ res.length = 64 ∧ (res.drop 8).take 8 = leBytes 8 l.pub.inPkts ∧
        (res.drop 40).take 4 = leBytes 4 l.pub.est ∧ (res.drop 52).take 1 = leBytes 1 l.state) ∧
    (s.hub.legLimit ≤ bodyN body 0 2 → exec (.legStats e body) s = .next (s.done e 0x010B 1 [])) := by
  have harm : exec (.legStats e body) s = execLegStats e body s := rfl
  rw [harm, execLegStats]
  dsimp only
  refine ⟨fun l hlimit hleg hreach hlive => ?_, fun hlimit => by rw [if_pos hlimit]⟩
  rw [if_neg (Nat.not_le.mpr hlimit), hleg]
  dsimp only
  rw [if_neg (by simp [hreach]), if_neg hlive]
  refine ⟨_, rfl, ?_, ?_, ?_, ?_⟩
  · simp [leBytes_length]
  all_goals simp [List.drop_append, leBytes_length, leBytes_drop]

/-- A key of the service reads as written, limited to its range; every other key as before (R128). -/
theorem FwdSt.setKey_key {f : FwdSt} {k d lo hi : Nat} (v : Nat) (hrow : fwdKeyRow k = some (d, lo, hi)) :
    (f.setKey k v).key k = min (max v lo) hi ∧ ∀ j, j ≠ k → (f.setKey k v).key j = f.key j := by
  rw [FwdSt.setKey, hrow]
  refine ⟨?_, fun j hj => ?_⟩
  · rw [FwdSt.key, kvGet_kvPut_self]
    rfl
  · rw [FwdSt.key, kvGet_kvPut_ne _ _ _ _ hj]
    rfl

theorem FwdSt.setKey_unknown {f : FwdSt} {k : Nat} (v : Nat) (hrow : fwdKeyRow k = none) : f.setKey k v = f := by
  rw [FwdSt.setKey, hrow]

theorem FwdSt.setKey_frame (f : FwdSt) (k v : Nat) : f.setKey k v = { f with keys := (f.setKey k v).keys } := by
  unfold FwdSt.setKey
  split <;> rfl

/-- SVC_PARAM (R128). -/
theorem svcParam_sets (e : CmdEnv) (body : List Byte) (s : State) :
    ∃ t, exec (.svcParam e body) s = .next t ∧ t = ({ s with fwd := { s.fwd with keys := t.fwd.keys } } : State).done e 0x010D 0 [] ∧
      (∀ d lo hi, fwdKeyRow (bodyN body 0 2) = some (d, lo, hi) →
        (lo ≤ bodyN body 4 4 → bodyN body 4 4 ≤ hi → t.fwd.key (bodyN body 0 2) = bodyN body 4 4) ∧
        (bodyN body 4 4 < lo → lo ≤ hi → t.fwd.key (bodyN body 0 2) = lo) ∧ (hi < bodyN body 4 4 → t.fwd.key (bodyN body 0 2) = hi) ∧
        (∀ k, k ≠ bodyN body 0 2 → t.fwd.key k = s.fwd.key k)) ∧
      (fwdKeyRow (bodyN body 0 2) = none → t.fwd = s.fwd) := by
  refine ⟨_, rfl, ?_, fun d lo hi hrow => ?_, fun hrow => ?_⟩
  · rw [State.done_fwd]
    exact congrArg (fun (f : FwdSt) => ({ s with fwd := f } : State).done e 0x010D 0 []) (FwdSt.setKey_frame ..)
  · rw [State.done_fwd]
    obtain ⟨hself, hother⟩ := FwdSt.setKey_key (f := s.fwd) (bodyN body 4 4) hrow
    dsimp only
    rw [hself]
    exact ⟨by omega, by omega, by omega, hother⟩
  · rw [State.done_fwd]
    exact FwdSt.setKey_unknown _ hrow

/-- Settles O26: each command in its own lemma. -/
theorem streamsAndQueries : Obligations.StreamsAndQueries := by
  refine ⟨fun e body s => ?_, fun e body s => ?_⟩
  · obtain ⟨hrefused, hin, hout⟩ := exec_streamAdd e body s
    obtain ⟨hdelIn, hdelOut⟩ := streamDel_marks e body s
    exact ⟨hrefused, hin, hout, hdelIn, hdelOut, keyReq_pending e body s⟩
  · obtain ⟨hstats, hlimit⟩ := legStats_answers e body s
    exact ⟨hstats, hlimit, svcParam_sets e body s⟩

end Sys2Proof.Machine
end

section
/-! SUPPORT. The chains of subscriptions: writing entries, which may find memory errors and so retire parts, and setting targets leave them as they are
(R100, R101, R386). -/

namespace Sys2Proof.Machine

theorem ite_chains (p : Prop) [Decidable p] (a b : State) : (if p then a else b).fwd.chains = if p then a.fwd.chains else b.fwd.chains :=
  apply_ite (fun t : State => t.fwd.chains) p a b

theorem foldl_chains {β : Type} {f : State → β → State} (hf : ∀ a x, (f a x).fwd.chains = a.fwd.chains) (l : List β) (s : State) :
    (l.foldl f s).fwd.chains = s.fwd.chains := by
  induction l generalizing s with
  | nil => rfl
  | cons x l ih => rw [List.foldl_cons, ih, hf]

/-! ### Faults -/

@[simp] theorem State.sysSend_chains (s : State) (n p len : Nat) (msg : OutMsg) : (s.sysSend n p len msg).fwd.chains = s.fwd.chains := by
  rw [State.sysSend_queuesOnly s n p len msg]

@[simp] theorem State.flitOut_chains (s : State) (n : Nat) (h : FlitHead) (data : List Byte) : (s.flitOut n h data).fwd.chains = s.fwd.chains := by
  unfold State.flitOut
  dsimp only
  split
  · exact State.sysSend_chains ..
  · split
    · rfl
    · split <;> rfl

@[simp] theorem State.plainOut_chains (s : State) (n kind flags cred : Nat) (payload : List Byte) :
    (s.plainOut n kind flags cred payload).fwd.chains = s.fwd.chains := State.flitOut_chains ..

theorem State.rewait_chains (s : State) (n : Nat) (fs : List JlFlit) : (s.rewait n fs).fwd.chains = s.fwd.chains := by
  refine foldl_chains (fun a f => ?_) fs s
  split <;> rfl

@[simp] theorem State.jlEnter_chains (s : State) (n st : Nat) : (s.jlEnter n st).fwd.chains = s.fwd.chains := by
  unfold State.jlEnter
  dsimp only
  split
  · rfl
  · split
    · exact State.rewait_chains ..
    all_goals rfl

@[simp] theorem State.linksFreeze_chains (s : State) : s.linksFreeze.fwd.chains = s.fwd.chains := by
  refine foldl_chains (fun a p => ?_) _ s
  split
  · rfl
  · split
    · exact State.plainOut_chains ..
    · rfl

@[simp] theorem State.laneRetired_chains (s : State) (n : Nat) : (s.laneRetired n).fwd.chains = s.fwd.chains := by
  unfold State.laneRetired
  dsimp only
  split
  · split
    · rfl
    · split
      · exact State.plainOut_chains ..
      · rfl
  · rfl

theorem FwdSt.setKey_chains (f : FwdSt) (k v : Nat) : (f.setKey k v).chains = f.chains := by
  rw [FwdSt.setKey_frame]

@[simp] theorem State.svcStart_chains (s : State) (svc : Nat) : (s.svcStart svc).fwd.chains = s.fwd.chains := by
  unfold State.svcStart State.svcTake
  refine (foldl_chains (fun a r => ?_) _ _).trans ?_
  · unfold State.svcKey
    split
    · exact FwdSt.setKey_chains ..
    all_goals rfl
  · split <;> rfl

@[simp] theorem State.shutterTrigger_chains (s : State) (cause : Nat) : (s.shutterTrigger cause).fwd.chains = s.fwd.chains := by
  unfold State.shutterTrigger
  split
  · split
    · rfl
    · rfl
    · dsimp only
      split
      · rfl
      · split
        · rfl
        · exact State.linksFreeze_chains _
  · rfl

theorem State.retire_chains (s : State) (ch cause : Nat) : (s.retire ch cause).fwd.chains = s.fwd.chains := by
  unfold State.retire
  split
  · rfl
  · unfold State.retirePage
    dsimp only
    simp only [ite_chains, ite_self]
  · dsimp only
    split
    · exact State.svcStart_chains ..
    · rfl
  · dsimp only
    simp only [ite_chains, State.laneRetired_chains, State.jlEnter_chains]
    repeat (split; rfl)
    rfl

@[simp] theorem State.permanent_chains (s : State) (ch cause : Nat) : (s.permanent ch cause).fwd.chains = s.fwd.chains := by
  simp only [State.permanent, State.fifoIn, ite_chains, State.shutterTrigger_chains, State.retire_chains, ite_self]

theorem State.bucketAdd_chains (s : State) (ch : Nat) : (s.bucketAdd ch).1.fwd.chains = s.fwd.chains := by
  unfold State.bucketAdd
  dsimp only
  split <;> rfl

@[simp] theorem State.transient_chains (s : State) (ch : Nat) : (s.transient ch).fwd.chains = s.fwd.chains := by
  simp only [State.transient, State.fifoIn, ite_chains, State.permanent_chains, State.bucketAdd_chains, ite_self]

/-! ### Memory -/

theorem State.wordsRewritten_chains (s : State) (page sash : Nat) (words : List Nat) : (s.wordsRewritten page sash words).fwd.chains = s.fwd.chains := by
  simp only [State.wordsRewritten, ite_chains, ite_self]

theorem State.memLog_chains (s : State) (ev : Ev) : (s.memLog ev).fwd.chains = s.fwd.chains := by
  simp only [State.memLog, ite_chains, ite_self]

theorem State.pageDecode_chains (s : State) (page : Nat) (scrub : Bool) : (s.pageDecode page scrub).fwd.chains = s.fwd.chains := by
  simp only [State.pageDecode, ite_chains, State.transient_chains, State.memLog_chains, State.wordsRewritten_chains, ite_self]

theorem State.mergeRead_chains (s : State) (w : Nat) : (s.mergeRead w).fwd.chains = s.fwd.chains := by
  unfold State.mergeRead
  split
  · exact State.pageDecode_chains ..
  all_goals rfl

theorem State.mergeFlush_chains (s : State) (e : MergeEntry) : (s.mergeFlush e).fwd.chains = s.fwd.chains := by
  unfold State.mergeFlush
  dsimp only
  split <;> simp only [ite_chains, State.mergeRead_chains, ite_self]

theorem State.mergeFlushWhere_chains (s : State) (g : Nat) (p : MergeEntry → Bool) : (s.mergeFlushWhere g p).fwd.chains = s.fwd.chains :=
  foldl_chains State.mergeFlush_chains _ _

theorem State.mergePut_chains (s : State) (c : Nat) (b : Byte) : (s.mergePut c b).fwd.chains = s.fwd.chains := by
  simp only [State.mergePut, State.mergeFlushWhere_chains, ite_chains, ite_self]

theorem State.cellPut_chains (s : State) (c : Nat) (b : Byte) : (s.cellPut c b).fwd.chains = s.fwd.chains := by
  simp only [State.cellPut, ite_chains, State.mergePut_chains, State.mergeRead_chains, ite_self]

theorem State.wordPut_chains (s : State) (c d : Nat) : (s.wordPut c d).fwd.chains = s.fwd.chains := by
  simp only [State.wordPut, ite_chains, ite_self]

theorem State.partPut_chains (s : State) (p : PartRec) (off : Nat) (l : List Byte) : (s.partPut p off l).fwd.chains = s.fwd.chains := by
  fun_induction State.partPut s p off l <;> simp_all only [State.wordPut_chains, State.cellPut_chains]

theorem State.partWrite_chains (s : State) (p : PartRec) (off : Nat) (l : List Byte) : (s.partWrite p off l).fwd.chains = s.fwd.chains := by
  have hlost : ∀ cells, (s.cellsLost cells).fwd.chains = s.fwd.chains := fun cells =>
    foldl_chains (f := fun a b => a.discard (.hbm (b / 2 ^ 29)) 1) (fun _ _ => rfl) _ _
  simp only [State.partWrite, ite_chains, State.partPut_chains, hlost, ite_self]

/-! ### Subscriptions -/

theorem State.subBytes_chains (s : State) (i : Nat) (b : List Byte) : (s.subBytes i b).fwd.chains = s.fwd.chains := by
  unfold State.subBytes
  split
  · exact State.partWrite_chains ..
  · rfl

@[simp] theorem State.subStore_chains (s : State) (i : Nat) : (s.subStore i).fwd.chains = s.fwd.chains := by
  unfold State.subStore
  split
  · exact State.subBytes_chains ..
  · exact State.subBytes_chains ..

@[simp] theorem State.putSub_chains (s : State) (i : Nat) (u : Sub) : (s.putSub i u).fwd.chains = s.fwd.chains := State.subStore_chains ..

@[simp] theorem State.keyRequest_chains (s : State) (i : Nat) : (s.keyRequest i).fwd.chains = s.fwd.chains := by
  unfold State.keyRequest
  split
  · simp only [ite_chains]
    split <;> rfl
  · rfl

@[simp] theorem State.setTgt_chains (s : State) (i : Nat) (u : Sub) (tS tT : Nat) (none_ : Bool) : (s.setTgt i u tS tT none_).fwd.chains = s.fwd.chains := by
  simp only [State.setTgt, State.raiseTgt, ite_chains, State.putSub_chains, State.keyRequest_chains, ite_self]

@[simp] theorem State.bindPolicy_chains (s : State) (i : Nat) (u : Sub) (p : Nat × Nat × Nat) (new : Bool) :
    (s.bindPolicy i u p new).fwd.chains = s.fwd.chains := by
  simp only [State.bindPolicy, ite_chains, State.putSub_chains, State.keyRequest_chains, State.setTgt_chains, ite_self]

theorem State.allocApply_chains (s : State) (i : Nat) (r : Option (Nat × Nat)) : (s.allocApply i r).fwd.chains = s.fwd.chains := by
  unfold State.allocApply
  split
  · rfl
  · split
    · exact State.setTgt_chains ..
    · split
      · rw [State.setTgt_chains, State.putSub_chains]
      · split <;> simp only [ite_chains, State.setTgt_chains, State.putSub_chains, ite_self]

@[simp] theorem State.allocate_chains (s : State) (leg : Nat) : (s.allocate leg).fwd.chains = s.fwd.chains := by
  unfold State.allocate
  split
  · exact foldl_chains (fun a r => State.allocApply_chains ..) _ _
  · rfl

/-- SUB_ADD appends its subscription to its chain (R101). -/
theorem State.subAdd_chainOf (s : State) (i : Nat) (u : Sub) (pol : Nat) :
    (s.subAdd i u pol).fwd.chainOf u.chain = s.fwd.chainOf u.chain ++ [i] := by
  have hchains : (s.subAdd i u pol).fwd.chains = kvPut u.chain (s.fwd.chainOf u.chain ++ [i]) s.fwd.chains := by
    unfold State.subAdd
    dsimp only
    rw [State.allocate_chains]
    split
    · rw [State.subStore_chains, State.bindPolicy_chains]
      rfl
    · rw [State.bindPolicy_chains]
      rfl
  rw [FwdSt.chainOf, hchains, kvGet_kvPut_self]
  rfl

end Sys2Proof.Machine
end

section
/-! SETTLED. Subscriptions and the end of a removal (R98, R101, R112, R126, R127). -/

namespace Sys2Proof.Machine

theorem subAdd_accepted (e : CmdEnv) (body : List Byte) (s : State) (hlimit : bodyN body 0 4 < s.hub.subLimit)
    (hfree : s.fwd.sub? (bodyN body 0 4) = none) (hleg : (subOf s.fwd body).leg < s.hub.legLimit) (hok : s.subRefused e (subOf s.fwd body) = none) :
    exec (.subAdd e body) s = .next (if e.latched then s.hold e 0x0108 (.subAdd e body)
      else (s.subAdd (bodyN body 0 4) (subOf s.fwd body) (bodyU8 body 12)).done e 0x0108 0 []) := by
  have harm : exec (.subAdd e body) s = execSubAdd e body s := rfl
  rw [harm, execSubAdd]
  rw [if_neg (by omega), hfree, hok]

theorem subAdd_taken (e : CmdEnv) (body : List Byte) (s : State) (hlimit : bodyN body 0 4 < s.hub.subLimit) (x : Sub)
    (hsub : s.fwd.sub? (bodyN body 0 4) = some x) :
    exec (.subAdd e body) s = .next (s.done e 0x0108 (if s.hub.legLimit ≤ (subOf s.fwd body).leg then 1 else if x.gone then 6 else 2) []) := by
  have harm : exec (.subAdd e body) s = execSubAdd e body s := rfl
  rw [harm, execSubAdd]
  split
  next h => rw [if_pos (by omega)]
  next h => rw [if_neg (not_or.mp h).2, hsub]

/-- SUB_MODIFY of a subscription that the function reaches and that is not going. -/
theorem subModify_outcomes (e : CmdEnv) (body : List Byte) (s : State) (hlimit : bodyN body 0 4 < s.hub.subLimit) (x : Sub)
    (hsub : s.fwd.sub? (bodyN body 0 4) = some x) (hreach : s.hub.reachesLeg e.fn x.leg = true) (hlive : x.gone = false)
    (hdest : s.hub.reachesDest e.fn (subOf s.fwd body).role (subOf s.fwd body).dest = true) :
    exec (.subModify e body) s = .next (
      if x.leg ≠ (subOf s.fwd body).leg ∨ x.out ≠ (subOf s.fwd body).out ∨ x.src ≠ (subOf s.fwd body).src ∨ x.role ≠ (subOf s.fwd body).role then
        s.done e 0x0109 4 []
      else if e.latched then s.hold e 0x0109 (.subModify e body)
      else (s.subModify (bodyN body 0 4) x (subOf s.fwd body) (bodyU8 body 12)).done e 0x0109 0 []) := by
  have harm : exec (.subModify e body) s = execSubModify e body s := rfl
  rw [harm, execSubModify]
  rw [if_neg (Nat.not_le.mpr hlimit), hsub]
  dsimp only
  rw [if_neg (by simp [hreach, hdest]), if_neg (by simp [hlive])]

theorem subDel_outcomes (e : CmdEnv) (body : List Byte) (s : State) (hlimit : bodyN body 0 4 < s.hub.subLimit) (x : Sub)
    (hsub : s.fwd.sub? (bodyN body 0 4) = some x) (hreach : s.hub.reachesLeg e.fn x.leg = true) (hlive : x.gone = false) :
    exec (.subDel e body) s = .next (if e.latched then s.hold e 0x010A (.subDel e body)
      else ((s.putSub (bodyN body 0 4) { x with gone := true }).allocate x.leg).removal ⟨4, bodyN body 0 4, some (e, 0x010A)⟩) := by
  have harm : exec (.subDel e body) s = execSubDel e body s := rfl
  rw [harm, execSubDel]
  rw [if_neg (Nat.not_le.mpr hlimit), hsub]
  dsimp only
  rw [if_neg (by simp [hreach]), if_neg (by simp [hlive])]
  rfl

/-- REMOVAL_DRAIN_DONE of an object whose removal is under way (R126). -/
theorem removalDrainDone_takes (s : State) (kind id : Nat) (r : Removal)
    (hfind : s.fwd.removals.find? (fun x => x.kind = kind ∧ x.id = id) = some r) :
    (kind = 0 → s.fwd.confLegs id ≠ [] → exec (.removalDrainDone kind id) s = .next s) ∧
    (kind = 0 → kvSorted s.fwd.confs = true → s.fwd.confLegs id = [] → ∃ t, exec (.removalDrainDone kind id) s = .next t ∧ kvGet id t.fwd.confs = none ∧
      (∀ k, k ≠ id → kvGet k t.fwd.confs = kvGet k s.fwd.confs) ∧ (∀ x ∈ t.fwd.removals, ¬(x.kind = kind ∧ x.id = id)) ∧
      (∀ env op, r.env = some (env, op) → t = ({ s with fwd := { s.fwd with confs := t.fwd.confs, removals := t.fwd.removals } } : State).done env op 0 [])) ∧
    (kind ≠ 0 → exec (.removalDrainDone kind id) s =
      .next (({ s with fwd := { s.fwd with removals := s.fwd.removals.filter fun x => x.kind ≠ kind ∨ x.id ≠ id } } : State).removed r)) := by
  have harm : exec (.removalDrainDone kind id) s = execRemovalDrainDone kind id s := rfl
  have hr : r.kind = kind ∧ r.id = id := by simpa using List.find?_some hfind
  obtain ⟨hkind, hid⟩ := hr
  rw [harm, execRemovalDrainDone, hfind]
  dsimp only
  refine ⟨fun hzero hlegs => by rw [if_pos (And.intro hzero hlegs)], fun hzero hsorted hempty => ?_, fun hne => by rw [if_neg (fun h => hne h.1)]⟩
  subst hzero
  rw [if_neg (by simp [hempty])]
  have hdrop : ∀ f : FwdSt, ({ s with fwd := f } : State).dropObject r.kind r.id = { s with fwd := { f with confs := kvDel id f.confs } } := fun f => by
    rw [hkind, hid]
    rfl
  have hleft : ∀ x ∈ s.fwd.removals.filter (fun x => x.kind ≠ 0 ∨ x.id ≠ id), ¬(x.kind = 0 ∧ x.id = id) := fun x hx => by
    have := (List.mem_filter.mp hx).2
    simp only [decide_eq_true_eq] at this
    omega
  rw [State.removed, hdrop]
  cases henv : r.env with
  | none => exact ⟨_, rfl, kvGet_kvDel_self _ _ hsorted, fun k hk => kvGet_kvDel_ne _ _ _ hsorted hk, hleft, fun env op h => by cases h⟩
  | some eo =>
    obtain ⟨env, op⟩ := eo
    exact ⟨_, rfl, kvGet_kvDel_self _ _ hsorted, fun k hk => kvGet_kvDel_ne _ _ _ hsorted hk, hleft, fun env' op' h => by cases h; rfl⟩

/-- Settles O27: the three commands, by what stands under the subscription's ID, and the end of a removal. -/
theorem subscriptionCommands : Obligations.SubscriptionCommands := by
  intro e body s hlimit i u
  refine ⟨fun hfree hleg hok => ?_, subAdd_taken e body s hlimit, fun x hsub hreach hlive => ?_, removalDrainDone_takes s⟩
  · have hexec := subAdd_accepted e body s hlimit hfree hleg hok
    refine ⟨fun hlatched => by rw [hexec, if_pos hlatched], fun hnow => ⟨_, ?_, ?_, rfl⟩⟩
    · rw [hexec, if_neg (by simp [hnow])]
    · rw [State.done_fwd]
      exact State.subAdd_chainOf ..
  · have hdel := subDel_outcomes e body s hlimit x hsub hreach hlive
    refine ⟨fun hdest hother => ?_, fun hdest h1 h2 h3 h4 => ⟨fun hlatched => ?_, fun hnow => ?_, rfl⟩, fun hlatched => by rw [hdel, if_pos hlatched],
      fun hnow => by rw [hdel, if_neg (by simp [hnow])]⟩
    · have hmoved : x.leg ≠ u.leg ∨ x.out ≠ u.out ∨ x.src ≠ u.src ∨ x.role ≠ u.role :=
        (Decidable.not_and_iff_not_or_not.mp hother).imp_right fun h => (Decidable.not_and_iff_not_or_not.mp h).imp_right Decidable.not_and_iff_not_or_not.mp
      exact (subModify_outcomes e body s hlimit x hsub hreach hlive hdest).trans (congrArg Host.Outcome.next (if_pos hmoved))
    all_goals
      have hmodify := subModify_outcomes e body s hlimit x hsub hreach hlive hdest
      have hsame : ¬(x.leg ≠ u.leg ∨ x.out ≠ u.out ∨ x.src ≠ u.src ∨ x.role ≠ u.role) :=
        not_or.mpr ⟨not_not_intro h1, not_or.mpr ⟨not_not_intro h2, not_or.mpr ⟨not_not_intro h3, not_not_intro h4⟩⟩⟩
    · exact hmodify.trans (congrArg Host.Outcome.next ((if_neg hsame).trans (if_pos hlatched)))
    · exact hmodify.trans (congrArg Host.Outcome.next ((if_neg hsame).trans (if_neg (Bool.eq_false_iff.mp hnow))))

end Sys2Proof.Machine
end

section
/-! SUPPORT. The allocation of one subscription, gaps and key requests (R118, R121, R124). -/

namespace Sys2Proof.Machine

/-- A lone AUTO subscription whose lowest layer does not fit its leg's budget gets no layer (R118). -/
theorem State.allocate_none {s : State} {leg i : Nat} {l : Leg} {u : Sub} (hleg : kvGet leg s.fwd.legs = some l) (hsubs : s.fwd.subs = [(i, u)])
    (hmine : u.leg = leg) (hlive : u.gone = false) (hreal : u.ghost = false) (hon : u.state ≠ 4) (hauto : u.mode = 0) (hset : s.fwd.single u = false)
    (hdear : l.cnt.est * s.fwd.key 13 / 100 < s.layerRate u ((s.layers u).headD (0, 0)).1 ((s.layers u).headD (0, 0)).2) :
    s.allocate leg = s.putSub i { u with upTo := none, none_ := true } := by
  have hmineList : s.fwd.subs.filter (fun u => u.2.leg = leg ∧ !u.2.gone ∧ !u.2.ghost ∧ u.2.state ≠ 4) = [(i, u)] := by
    rw [hsubs]
    simp [hmine, hlive, hreal, hon]
  have hautoList : [(i, u)].filter (fun u => u.2.mode = 0 ∧ !s.fwd.single u.2) = [(i, u)] := by simp [hauto, hset]
  have hfixedList : [(i, u)].filter (fun u => u.2.mode ≠ 0 ∨ s.fwd.single u.2) = [] := by simp [hauto, hset]
  have hbase : ∀ budget : Int, budget < s.layerRate u ((s.layers u).headD (0, 0)).1 ((s.layers u).headD (0, 0)).2 →
      s.allocBase budget [(i, u)] = ([(i, none)], budget) := fun budget h => by
    simp only [State.allocBase]
    rw [if_neg (Int.not_le.mpr h)]
  have hsub : kvGet i s.fwd.subs = some u := by
    rw [hsubs, kvGet, if_pos rfl]
  unfold State.allocate
  rw [hleg]
  dsimp only
  rw [hmineList, hautoList, hfixedList, List.mergeSort_singleton, List.foldl_nil, hbase _ (by omega)]
  simp only [State.allocRaise, List.foldl_cons, List.foldl_nil, State.allocApply, hsub]
  exact if_pos rfl

/-- Of the gaps with one counted up, that one is found counted. -/
theorem find_gap_counted {gaps : List Gap} {seq now : Nat} {g : Gap} (h : gaps.find? (·.seq = seq) = some g) :
    (gaps.map fun y => if y.seq = seq then { y with tries := y.tries + 1, last := now } else y).find? (·.seq = seq) =
      some { g with tries := g.tries + 1, last := now } := by
  have hseq : g.seq = seq := by simpa using List.find?_some h
  have hkeeps : ((fun y : Gap => decide (y.seq = seq)) ∘ fun y : Gap => if y.seq = seq then { y with tries := y.tries + 1, last := now } else y) =
      fun y : Gap => decide (y.seq = seq) := by
    funext y
    dsimp only [Function.comp]
    split <;> rfl
  rw [List.find?_map, hkeeps, h, Option.map_some, if_pos hseq]

/-- A value of a map whose values were changed, where a condition on the new value holds of the old one. -/
theorem kvGet_mapped {α : Type} {m : List (Nat × α)} (p : α → Prop) [DecidablePred p] (f : α → α) {k : Nat} {v : α}
    (h : kvGet k (m.map fun e => if p e.2 then (e.1, f e.2) else e) = some v) : ∃ w, kvGet k m = some w ∧ v = if p w then f w else w := by
  have hmap : (m.map fun e => if p e.2 then (e.1, f e.2) else e) = m.map fun e => (e.1, (fun (_ : Nat) (w : α) => if p w then f w else w) e.1 e.2) := by
    refine List.map_congr_left fun e _ => ?_
    dsimp only
    split <;> rfl
  rw [hmap, kvGet_map fun _ w => if p w then f w else w] at h
  obtain ⟨w, hw, hv⟩ := Option.map_eq_some_iff.mp h
  exact ⟨w, hw, hv.symm⟩

/-- After the leg's report no outbound stream of it has sent since. -/
theorem outs_of_sent {m : List (Nat × OutStream)} {leg i : Nat} {o : OutStream}
    (h : kvGet i (m.map fun o => if o.2.leg = leg then (o.1, { o.2 with sentSince := false }) else o) = some o) (hleg : o.leg = leg) :
    o.sentSince = false := by
  obtain ⟨w, -, hv⟩ := kvGet_mapped (fun o : OutStream => o.leg = leg) (fun o => { o with sentSince := false }) h
  subst hv
  split
  · rfl
  next hne =>
    rw [if_neg hne] at hleg
    exact absurd hleg hne

/-- After the leg's feedback no inbound stream of it has packets to report. -/
theorem ins_of_heard {m : List (Nat × InStream)} {leg i : Nat} {x : InStream}
    (h : kvGet i (m.map fun x => if x.2.leg = leg then (x.1, { x.2 with heard := [] }) else x) = some x) (hleg : x.leg = leg) : x.heard = [] := by
  obtain ⟨w, -, hv⟩ := kvGet_mapped (fun x : InStream => x.leg = leg) (fun x => { x with heard := [] }) h
  subst hv
  split
  · rfl
  next hne =>
    rw [if_neg hne] at hleg
    exact absurd hleg hne

/-- Has a request been sent for the stream less than PLI_GAP ago? -/
def State.keyEarly (s : State) (x : InStream) : Bool :=
  match x.key.sent with
  | some t => decide (s.hub.elapsed < t + 1000000 * s.fwd.key 5)
  | none => false

theorem State.keyEarly_sent {s : State} {x : InStream} {t : Nat} (h : x.key.sent = some t) :
    s.keyEarly x = decide (s.hub.elapsed < t + 1000000 * s.fwd.key 5) := by
  rw [State.keyEarly, h]

theorem State.not_keyEarly {s : State} {x : InStream} (h : ∀ t, x.key.sent = some t → t + 1000000 * s.fwd.key 5 ≤ s.hub.elapsed) :
    s.keyEarly x = false := by
  cases hsent : x.key.sent with
  | none => rw [State.keyEarly, hsent]
  | some t => rw [State.keyEarly_sent hsent, decide_eq_false (Nat.not_lt.mpr (h t hsent))]

theorem exec_keyRequestTimer {stream : Nat} {own : Option (Nat × Nat)} {x : InStream} {s : State} (hstream : kvGet stream s.fwd.ins = some x) :
    exec (.keyRequestTimer stream own) s = .next (
      if !x.key.pending ∨ x.gone ∨ s.keyEarly x then s
      else match own with
        | some (sash, r) =>
          ({ s with fwd := s.fwd.setIn stream { x with key := { x.key with sent := some s.hub.elapsed } } } : State).encRefresh sash r false
        | none =>
          if x.key.plis < s.fwd.key 6 then
            ({ s with fwd := s.fwd.setIn stream { x with key := { x.key with plis := x.key.plis + 1, sent := some s.hub.elapsed } } } : State).feedback
              x.leg "rtcp" 1 206 x.ssrc []
          else
            ({ s with
              hub := if x.key.fir then s.hub else s.hub.raise { code := 0x0605, sash := s.fwdSash (x.leg % 8), detail := [stream] }
              fwd := s.fwd.setIn stream { x with key := { x.key with
                fir := true, firSeq := (x.key.firSeq + 1) % 256, sent := some s.hub.elapsed } } } : State).feedback
              x.leg "rtcp" 4 206 0 (beBytes 4 x.ssrc ++ [BitVec.ofNat 8 ((x.key.firSeq + 1) % 256), 0, 0, 0])) := by
  have harm : exec (.keyRequestTimer stream own) s = execKeyRequestTimer stream own s := rfl
  rw [execKeyRequestTimer, hstream] at harm
  exact harm

end Sys2Proof.Machine
end

section
/-! SETTLED. The timers of forwarding (R106, R108, R117, R118, R121, R124, Tables 6.4 and 6.7). -/

namespace Sys2Proof.Machine

/-- Consent (R106, Table 6.4). -/
theorem consentTimers (leg : Nat) (l : Leg) (s : State) (hleg : kvGet leg s.fwd.legs = some l) :
    (l.state = 1 → l.kind = 0 →
      (pastMs s.hub.elapsed l.reqAt (s.fwd.key 1) 8 = true → ∃ (u : State) (x : Nat), exec (.consentRequestTimer leg) s =
          .next (u.legSend leg l false 100 "stun-request" [x] none none) ∧
        u = { s with
          hub := { s.hub with free := s.hub.free + 1 }
          fwd := { s.fwd with legs := kvPut leg { l with txns := l.txns ++ [x], reqAt := some s.hub.elapsed } s.fwd.legs } }) ∧
      (l.consentAt + 1000000 * s.fwd.key 2 ≤ s.hub.elapsed → ∃ t, exec (.consentTimeout leg) s = .next t ∧
        kvGet leg t.fwd.legs = some { l with state := 2, txns := [] } ∧ t.qsc = s.qsc.flushLeg leg ∧
        (∀ k, k ≠ leg → kvGet k t.fwd.legs = kvGet k s.fwd.legs) ∧ t = { s with
          hub := s.hub.raise { code := 0x0601, sash := s.fwdSash (leg % 8), detail := [leg] }, fwd := { s.fwd with legs := t.fwd.legs }, qsc := t.qsc })) ∧
    (¬(l.state = 1 ∧ l.kind = 0 ∧ pastMs s.hub.elapsed l.reqAt (s.fwd.key 1) 8 = true) → exec (.consentRequestTimer leg) s = .next s) ∧
    (¬(l.state = 1 ∧ l.kind = 0 ∧ l.consentAt + 1000000 * s.fwd.key 2 ≤ s.hub.elapsed) → exec (.consentTimeout leg) s = .next s) := by
  have hrequest : exec (.consentRequestTimer leg) s = execConsentRequestTimer leg s := rfl
  have htimeout : exec (.consentTimeout leg) s = execConsentTimeout leg s := rfl
  rw [hrequest, htimeout, execConsentRequestTimer, execConsentTimeout, hleg]
  dsimp only
  refine ⟨fun hactive hkind => ⟨fun hdue => ?_, fun hdue => ?_⟩, fun hnot => by rw [if_neg hnot], fun hnot => by rw [if_neg hnot]⟩
  · rw [if_pos ⟨hactive, hkind, hdue⟩]
    exact ⟨_, _, rfl, rfl⟩
  · rw [if_pos ⟨hactive, hkind, hdue⟩]
    exact ⟨_, rfl, kvGet_kvPut_self _ _ _, rfl, fun k hk => kvGet_kvPut_ne _ _ _ _ hk, rfl⟩

/-- The RTCP compound, congestion control feedback and the allocation (R108, R117, R118). -/
theorem reportTimers (leg : Nat) (l : Leg) (s : State) (hleg : kvGet leg s.fwd.legs = some l) :
    (l.state = 1 → pastMs s.hub.elapsed l.rtcpAt (s.fwd.key 3) 5 = true →
      ∃ u : State, exec (.rtcpIntervalTimer leg) s = .next (u.rtcpSend leg "rtcp" (s.legReport leg l)) ∧
        (∀ i (o : OutStream), kvGet i u.fwd.outs = some o → o.leg = leg → o.sentSince = false) ∧
        u = { s with fwd := { s.fwd with legs := kvPut leg { l with rtcpAt := some s.hub.elapsed } s.fwd.legs, outs := u.fwd.outs, ins := u.fwd.ins } }) ∧
    (¬(l.state = 1 ∧ pastMs s.hub.elapsed l.rtcpAt (s.fwd.key 3) 5 = true) → exec (.rtcpIntervalTimer leg) s = .next s) ∧
    (pastMs s.hub.elapsed l.ccfbAt (s.fwd.key 4) 10 = true →
      ∃ (u : State) (b : List Byte), exec (.ccfbIntervalTimer leg) s = .next (u.rtcpSend leg "rtcp" b) ∧
        b.take 2 = [0x8B, 205] ∧ (∀ i (x : InStream), kvGet i u.fwd.ins = some x → x.leg = leg → x.heard = []) ∧
        u = { s with fwd := { s.fwd with legs := kvPut leg { l with ccfbAt := some s.hub.elapsed } s.fwd.legs, ins := u.fwd.ins } }) ∧
    (pastMs s.hub.elapsed l.ccfbAt (s.fwd.key 4) 10 = false → exec (.ccfbIntervalTimer leg) s = .next s) ∧
    (pastMs s.hub.elapsed l.allocAt (s.fwd.key 12) 10 = false → exec (.allocIntervalTimer leg) s = .next s) ∧
    (pastMs s.hub.elapsed l.allocAt (s.fwd.key 12) 10 = true → exec (.allocIntervalTimer leg) s =
      .next (({ s with fwd := { s.fwd with legs := kvPut leg { l with allocAt := some s.hub.elapsed } s.fwd.legs } } : State).allocate leg)) := by
  have hrtcp : exec (.rtcpIntervalTimer leg) s = execRtcpIntervalTimer leg s := rfl
  have hccfb : exec (.ccfbIntervalTimer leg) s = execCcfbIntervalTimer leg s := rfl
  have halloc : exec (.allocIntervalTimer leg) s = execAllocIntervalTimer leg s := rfl
  rw [hrtcp, hccfb, halloc, execRtcpIntervalTimer, execCcfbIntervalTimer, execAllocIntervalTimer, hleg]
  dsimp only
  refine ⟨fun hactive hdue => ?_, fun hnot => by rw [if_neg hnot], fun hdue => ?_, fun hearly => by rw [if_neg (by simp [hearly])],
    fun hearly => by rw [if_neg (by simp [hearly])], fun hdue => ?_⟩
  · rw [if_pos ⟨hactive, hdue⟩]
    refine ⟨_, rfl, fun i o ho hleg => ?_, rfl⟩
    exact outs_of_sent ho hleg
  · rw [if_pos hdue]
    refine ⟨_, _, rfl, rfl, fun i x hx hleg => ?_, rfl⟩
    exact ins_of_heard hx hleg
  · rw [if_pos hdue]
    rfl

/-- Upstream NACKs (R121). -/
theorem nackTimer (stream seq : Nat) (x : InStream) (g : Gap) (s : State) (hstream : kvGet stream s.fwd.ins = some x)
    (hgap : x.gaps.find? (·.seq = seq) = some g) :
    (g.tries < s.fwd.key 9 → s.nackDue x.leg g = true → ∃ (u : State) (y : InStream),
      exec (.upstreamNackTimer stream seq) s = .next (u.feedback x.leg "rtcp" 1 205 x.ssrc (beBytes 2 seq ++ beBytes 2 0)) ∧
      kvGet stream u.fwd.ins = some y ∧ y = { x with gaps := y.gaps } ∧
      y.gaps.find? (·.seq = seq) = some { g with tries := g.tries + 1, last := s.hub.elapsed } ∧
      (∀ k, k ≠ stream → kvGet k u.fwd.ins = kvGet k s.fwd.ins) ∧ u = { s with fwd := { s.fwd with ins := u.fwd.ins } }) ∧
    (s.fwd.key 9 ≤ g.tries ∨ s.nackDue x.leg g = false → exec (.upstreamNackTimer stream seq) s = .next s) := by
  have harm : exec (.upstreamNackTimer stream seq) s = execUpstreamNackTimer stream seq s := rfl
  rw [harm, execUpstreamNackTimer, hstream]
  dsimp only
  rw [hgap]
  dsimp only
  refine ⟨fun hfew hdue => ?_, fun hnot => ?_⟩
  · rw [if_pos ⟨hfew, hdue⟩]
    exact ⟨_, _, rfl, kvGet_kvPut_self _ _ _, rfl, find_gap_counted hgap, fun k hk => kvGet_kvPut_ne _ _ _ _ hk, rfl⟩
  · rw [if_neg]
    rintro ⟨hfew, hdue⟩
    rcases hnot with hmany | hearly
    · omega
    · rw [hearly] at hdue
      cases hdue

/-- The wait of a switch (R124). -/
theorem switchWait (sub : Nat) (u : Sub) (s : State) (hsub : kvGet sub s.fwd.subs = some u) :
    (u.state = 3 → u.asked = false → u.gone = false → u.upAt + 1000000 * s.fwd.key 7 ≤ s.hub.elapsed → exec (.switchWaitExpiry sub) s =
      .next ((s.putSub sub { u with asked := true }).keyRequest (s.fwd.streamOf u.base u.tgtS))) ∧
    (u.state ≠ 3 ∨ u.asked = true ∨ ¬u.upAt + 1000000 * s.fwd.key 7 ≤ s.hub.elapsed → exec (.switchWaitExpiry sub) s = .next s) := by
  have harm : exec (.switchWaitExpiry sub) s = execSwitchWaitExpiry sub s := rfl
  rw [harm, execSwitchWaitExpiry, hsub]
  dsimp only
  refine ⟨fun hwaits hnew hlive hdue => ?_, fun hnot => ?_⟩
  · rw [if_pos ⟨hwaits, by simp [hnew], by simp [hlive], hdue⟩]
  · rw [if_neg]
    rintro ⟨hwaits, hnew, -, hdue⟩
    rcases hnot with h | h | h
    · exact h hwaits
    · rw [h] at hnew
      cases hnew
    · exact h hdue

/-- Key picture requests (R124). -/
theorem keyRequests (stream : Nat) (x : InStream) (s : State) (hstream : kvGet stream s.fwd.ins = some x) (hlive : x.gone = false) :
    let now := s.hub.elapsed
    let put := fun (k : KeyReq) => { s with fwd := { s.fwd with ins := kvPut stream { x with key := k } s.fwd.ins } }
    (x.key.pending = false → ∀ own, exec (.keyRequestTimer stream own) s = .next s) ∧
    (∀ t own, x.key.sent = some t → now < t + 1000000 * s.fwd.key 5 → exec (.keyRequestTimer stream own) s = .next s) ∧
    (x.key.pending = true → (∀ t, x.key.sent = some t → t + 1000000 * s.fwd.key 5 ≤ now) →
      (x.key.plis < s.fwd.key 6 → exec (.keyRequestTimer stream none) s =
        .next ((put { x.key with plis := x.key.plis + 1, sent := some now }).feedback x.leg "rtcp" 1 206 x.ssrc [])) ∧
      (s.fwd.key 6 ≤ x.key.plis → ∃ u : State, exec (.keyRequestTimer stream none) s =
          .next (u.feedback x.leg "rtcp" 4 206 0 (beBytes 4 x.ssrc ++ [BitVec.ofNat 8 ((x.key.firSeq + 1) % 256), 0, 0, 0])) ∧
        u = { put { x.key with fir := true, firSeq := (x.key.firSeq + 1) % 256, sent := some now } with hub := u.hub } ∧
        (x.key.fir = true → u.hub = s.hub) ∧
        (x.key.fir = false → u.hub = s.hub.raise { code := 0x0605, sash := s.fwdSash (x.leg % 8), detail := [stream] })) ∧
      (∀ sash r, exec (.keyRequestTimer stream (some (sash, r))) s = .next ((put { x.key with sent := some now }).encRefresh sash r false))) := by
  intro now put
  refine ⟨fun hidle own => ?_, fun t own hsent hearly => ?_, fun hpending hdue => ?_⟩
  · rw [exec_keyRequestTimer hstream, if_pos (Or.inl (by simp [hidle]))]
  · rw [exec_keyRequestTimer hstream, if_pos (Or.inr (Or.inr ((State.keyEarly_sent hsent).trans (decide_eq_true hearly))))]
  · have hopen : ¬((!x.key.pending) = true ∨ x.gone = true ∨ s.keyEarly x = true) := by
      simp [hpending, hlive, State.not_keyEarly hdue]
    refine ⟨fun hfew => ?_, fun hmany => ?_, fun sash r => ?_⟩
    · rw [exec_keyRequestTimer hstream, if_neg hopen]
      exact congrArg Host.Outcome.next (if_pos hfew)
    · rw [exec_keyRequestTimer hstream, if_neg hopen]
      dsimp only
      rw [if_neg (Nat.not_lt.mpr hmany)]
      exact ⟨_, rfl, rfl, fun hfir => if_pos hfir, fun hfir => if_neg (by simp [hfir])⟩
    · have hexec := exec_keyRequestTimer (own := some (sash, r)) hstream
      rw [if_neg hopen] at hexec
      exact hexec

/-- Settles O28: each timer in its own lemma. -/
theorem forwardingTimers : Obligations.ForwardingTimers := by
  refine ⟨fun leg l s hleg => ?_, nackTimer, switchWait, keyRequests⟩
  obtain ⟨hconsent, hrequestEarly, htimeoutEarly⟩ := consentTimers leg l s hleg
  obtain ⟨hrtcp, hrtcpEarly, hccfb, hccfbEarly, hallocEarly, halloc⟩ := reportTimers leg l s hleg
  refine ⟨hconsent, hrequestEarly, htimeoutEarly, hrtcp, hrtcpEarly, hccfb, hccfbEarly, hallocEarly, fun hdue => ⟨halloc hdue, ?_⟩⟩
  intro i u hsubs hmine hlive hreal hon hauto hset hdear
  rw [halloc hdue]
  exact congrArg Host.Outcome.next (State.allocate_none (kvGet_kvPut_self _ _ _) hsubs hmine hlive hreal hon hauto hset hdear)

end Sys2Proof.Machine
end

section
/-! SETTLED. What a port does with a frame before it reaches a leg (R102, R347). -/

namespace Sys2Proof.Machine

/-- A port with MACsec off delivers every frame that its MAC takes. -/
theorem State.macRx_delivers {s : State} {f : RxFrame} (hfcs : f.fcsOk = true) (hlen : f.bytes.length ≤ 9596) (hclean : f.poison = false)
    (hsec : (s.hub.stat LNK.ETH_RX_LO.COUNT f.port 1).get1 LNK.ETH_CFG.SEC f.port = 0) :
    s.macRx f = ({ s with hub := s.hub.stat LNK.ETH_RX_LO.COUNT f.port 1 } : State).classifyAll f := by
  unfold State.macRx
  dsimp only
  rw [if_neg (by simp [hfcs]; omega), State.secY, if_pos hsec, if_pos rfl, State.frameRx, if_neg (by simp [hclean])]

theorem exec_frameClassify_receives {s : State} {f : RxFrame} (hport : f.port < 32) (hrec : s.receiving f.port = true) :
    exec (.frameClassify f) s = .next (s.macRx f) := congrArg Host.Outcome.next (if_pos ⟨hport, hrec⟩)

/-- What the classification does with a delivered frame that is not a tunnel's or a video input's (Table 6.3). -/
theorem State.classifyAll_outcomes (s : State) (f : RxFrame) :
    let s0 : State := { s with hub := s.hub.stat FWD.IN_PKTS_LO.COUNT (f.port % 8) 1 }
    (s.hub.get1 TIM.PORT_CFG.PTP_EN f.port = 1 → isPtp f = true →
      s.classifyAll f = { s0 with hub := s0.hub.emit (.token (mkRef 10 f.port) "ptp" []) }) ∧
    (isPtp f = false → f.udp = false → s.portSash f.port = none → s.classifyAll f = s0) ∧
    (∀ n i l, isPtp f = false → f.udp = true → f.dport = 0 ∨ f.dport ≠ s.hub.get1 LNK.ETH_CFG.TUN_PORT f.port → s.vinMatch f = none →
      s.portSash f.port = some n → s.fwd.legs.find? (fun x => x.2.tuple f) = some (i, l) →
      s.classifyAll f = (s0.legFrame i (f.port % 8) f).askSplice) := by
  intro s0
  unfold State.classifyAll
  dsimp only
  refine ⟨fun hen hptp => ?_, fun hptp hudp hsash => ?_, fun n i l hptp hudp htun hvin hsash hleg => ?_⟩
  · rw [if_pos ⟨hen, hptp⟩]
  · rw [if_neg (by simp [hptp]), if_pos (by simp [hudp]), if_neg (by simp [hsash])]
  · rw [if_neg (by simp [hptp]), if_neg (by simp [hudp]), if_neg (by omega), hvin]
    dsimp only
    rw [if_pos (by simp [hsash]), State.classify]
    dsimp only
    rw [hleg]

/-- Settles O29: the port, its MAC, and then the classification. -/
theorem frameClassification : Obligations.FrameClassification := by
  intro f s
  have harm : exec (.frameClassify f) s = execFrameClassify f s := rfl
  refine ⟨fun hport => ?_, fun hport hrec hstate => ?_, fun hport hrec hstate hup hhears => ?_, fun hport hrec hbad => ?_, ?_⟩
  · rw [harm, execFrameClassify, if_neg (by omega), if_neg (by omega)]
  · rw [harm, execFrameClassify, if_neg (by simp [hrec]), if_neg (fun h => hstate h.2.1)]
  · rw [harm, execFrameClassify, if_neg (by simp [hrec]), if_pos ⟨hport, hstate, by simp [hup], hhears⟩]
  · rw [exec_frameClassify_receives hport hrec, State.macRx]
    refine congrArg Host.Outcome.next (if_pos (hbad.imp (fun h => ?_) fun h => ?_))
    · rw [h]
      rfl
    · omega
  · intro hport hrec hfcs hlen hclean rx s0 hsec
    rw [exec_frameClassify_receives hport hrec, State.macRx_delivers hfcs hlen hclean hsec]
    obtain ⟨hptp, hother, hdatagram⟩ := State.classifyAll_outcomes ({ s with hub := rx } : State) f
    exact ⟨fun hen hp => congrArg Host.Outcome.next (hptp hen hp), fun hp hudp hsash => congrArg Host.Outcome.next (hother hp hudp hsash),
      fun n i l hp hudp htun hvin hsash hleg => congrArg Host.Outcome.next (hdatagram n i l hp hudp htun hvin hsash hleg)⟩

end Sys2Proof.Machine
end

section
/-! SUPPORT. The key window's registers, and what the end of a key operation leaves (R296, R297). -/

namespace Sys2Proof.Machine

/-! ### The window's copies of a register -/

theorem Hub.rd_setKw_self {h : Hub} (c : h.canon) (fn : Nat) (f : Fld) (v : Nat) :
    (h.setKw fn f v).rd (winKey fn (f.off 0 0)) = f.into (h.rd (winKey fn (f.off 0 0))) v := by
  rw [Hub.setKw, Hub.rd_wr_self c]

theorem Hub.rd_setKw_ne {h : Hub} (c : h.canon) (fn : Nat) (f : Fld) (v : Nat) {k : Nat} (hk : k ≠ winKey fn (f.off 0 0)) :
    (h.setKw fn f v).rd k = h.rd k := Hub.rd_wr_ne c _ _ _ hk

theorem Hub.setKw_frame (h : Hub) (fn : Nat) (f : Fld) (v : Nat) : h.setKw fn f v = { h with regs := (h.setKw fn f v).regs } := Hub.wr_frame ..

theorem Hub.kw_setKw_self {h : Hub} (c : h.canon) (fn : Nat) (f : Fld) (v : Nat) (hf : f.lo + f.width ≤ 32) :
    (h.setKw fn f v).kw fn f = v % 2 ^ f.width := by
  rw [Hub.kw, Hub.rd_setKw_self c, Fld.of_into_self _ _ _ hf]

theorem Hub.kw_setKw_field {h : Hub} (c : h.canon) (fn : Nat) (f g : Fld) (v : Nat) (ho : g.off 0 0 = f.off 0 0) (hg : g.lo + g.width ≤ 32)
    (hd : f.lo + f.width ≤ g.lo ∨ g.lo + g.width ≤ f.lo) : (h.setKw fn f v).kw fn g = h.kw fn g := by
  rw [Hub.kw, Hub.kw, ho, Hub.rd_setKw_self c, Fld.of_into_ne f g _ v hg hd]

theorem Hub.kw_of_rd {a b : Hub} (fn : Nat) (f : Fld) (h : a.rd (winKey fn (f.off 0 0)) = b.rd (winKey fn (f.off 0 0))) : a.kw fn f = b.kw fn f := by
  rw [Hub.kw, Hub.kw, h]

/-- Clearing the window's buffer leaves every register that is not of the buffer. -/
theorem Hub.clearBuf_rd {h : Hub} (c : h.canon) (fn : Nat) {k : Nat} (hk : ∀ j < 22, k ≠ winKey fn (CIP.KW_BUF.BLOB.off j 0)) :
    ((List.range 22).foldl (fun (a : Hub) j => a.wr (winKey fn (CIP.KW_BUF.BLOB.off j 0)) 0) h).canon ∧
    ((List.range 22).foldl (fun (a : Hub) j => a.wr (winKey fn (CIP.KW_BUF.BLOB.off j 0)) 0) h).rd k = h.rd k := by
  refine List.foldlRecOn (motive := fun a : Hub => a.canon ∧ a.rd k = h.rd k) _ _ ⟨c, rfl⟩ fun a ha j hj => ?_
  exact ⟨Hub.wr_canon _ _ _ ha.1, (Hub.rd_wr_ne ha.1 _ _ _ (hk j (List.mem_range.mp hj))).trans ha.2⟩

/-- KW_STAT stands apart from the buffer, from the log's registers and from the block's EVT. -/
theorem kwStat_apart (fn : Nat) : (∀ j < 22, winKey fn 0x1A00484 ≠ winKey fn (CIP.KW_BUF.BLOB.off j 0)) ∧ offLog (winKey fn 0x1A00484) ∧
    winKey fn 0x1A00484 ≠ evtOff 0x1009 0 ∧ winKey fn 0x1A00484 ≠ evtOff 0x100A 0 := by
  have hevt : winKey fn 0x1A00484 ≠ 0x1A00100 := by
    simp only [winKey]
    omega
  refine ⟨fun j hj => ?_, ?_, hevt, hevt⟩
  · simp only [winKey, Fld.off, CIP.KW_BUF.BLOB]
    omega
  · simp only [winKey, offLog]
    omega

/-- What a completion leaves: BUSY at 0, its RESULT, and no job of the function (R296). -/
theorem State.keyDone_shows {s : State} (hcanon : s.canon) (fn n result : Nat) (hjobs : kvSorted s.cip.jobs = true) :
    (s.keyDone fn n result).hub.kw fn CIP.KW_STAT.BUSY = 0 ∧ (s.keyDone fn n result).hub.kw fn CIP.KW_STAT.RESULT = result % 16 ∧
      kvGet fn (s.keyDone fn n result).cip.jobs = none ∧ (s.keyDone fn n result).cip.slots = s.cip.slots := by
  have hhub := State.canon_hub hcanon
  have hbusy := Hub.setKw_canon s.hub fn CIP.KW_STAT.BUSY 0 hhub
  have hresult := Hub.setKw_canon _ fn CIP.KW_STAT.RESULT result hbusy
  obtain ⟨hapart, hlog, hdoneEvt, hfailEvt⟩ := kwStat_apart fn
  obtain ⟨hclear, hrd⟩ := Hub.clearBuf_rd hresult fn hapart
  have hdone : (s.keyDone fn n result).hub.rd (winKey fn 0x1A00484) =
      ((s.hub.setKw fn CIP.KW_STAT.BUSY 0).setKw fn CIP.KW_STAT.RESULT result).rd (winKey fn 0x1A00484) := by
    rw [← hrd]
    unfold State.keyDone
    dsimp only
    split
    · exact Hub.raise_rd hclear { code := 0x1009, detail := [n, result, (s.cip.slot n).gen] } _ hdoneEvt hlog
    · exact Hub.raise_rd hclear { code := 0x100A, detail := [n, result] } _ hfailEvt hlog
  refine ⟨?_, ?_, kvGet_kvDel_self _ _ hjobs, rfl⟩
  · rw [Hub.kw_of_rd fn CIP.KW_STAT.BUSY hdone, Hub.kw_setKw_field hbusy fn CIP.KW_STAT.RESULT CIP.KW_STAT.BUSY _ (by decide) (by decide) (by decide),
      Hub.kw_setKw_self hhub _ _ _ (by decide)]
    rfl
  · rw [Hub.kw_of_rd fn CIP.KW_STAT.RESULT hdone, Hub.kw_setKw_self hbusy _ _ _ (by decide)]
    rfl

/-- A key command that is taken (R296). -/
theorem State.keyStart_takes {s : State} (hcanon : s.canon) {fn : Nat} (hin : s.hub.hostIn = true) (hfn : fn < 64)
    (hidle : s.hub.kw fn CIP.KW_STAT.BUSY = 0) (erase : Bool) (val : Word) :
    (s.keyStart fn erase val).hub.kw fn CIP.KW_STAT.BUSY = 1 ∧ (s.keyStart fn erase val).hub.kw fn CIP.KW_STAT.SLOT = CIP.KW_CMD.SLOT.of val ∧
      kvGet fn (s.keyStart fn erase val).cip.jobs = some ⟨erase, decide (CIP.KW_CMD.LATCHED.of val = 1), CIP.KW_CMD.SLOT.of val⟩ ∧
      (∀ k, k ≠ winKey fn (CIP.KW_STAT.BUSY.off 0 0) → (s.keyStart fn erase val).hub.rd k = s.hub.rd k) ∧
      s.keyStart fn erase val = { s with
        hub := { s.hub with regs := (s.keyStart fn erase val).hub.regs }, cip := { s.cip with jobs := (s.keyStart fn erase val).cip.jobs } } := by
  have hhub := State.canon_hub hcanon
  have hbusy := Hub.setKw_canon s.hub fn CIP.KW_STAT.BUSY 1 hhub
  have hslot : CIP.KW_CMD.SLOT.of val % 2 ^ 16 = CIP.KW_CMD.SLOT.of val := Nat.mod_eq_of_lt (Fld.of_lt CIP.KW_CMD.SLOT val)
  rw [State.keyStart, if_neg (by simp [hin, hidle]; omega)]
  refine ⟨?_, ?_, kvGet_kvPut_self _ _ _, fun k hk => ?_, ?_⟩
  · refine (Hub.kw_setKw_field hbusy fn CIP.KW_STAT.SLOT CIP.KW_STAT.BUSY _ (by decide) (by decide) (by decide)).trans ?_
    exact Hub.kw_setKw_self hhub _ _ _ (by decide)
  · exact (Hub.kw_setKw_self hbusy _ _ _ (by decide)).trans hslot
  · have hoff : CIP.KW_STAT.SLOT.off 0 0 = CIP.KW_STAT.BUSY.off 0 0 := by decide
    exact (Hub.rd_setKw_ne hbusy _ CIP.KW_STAT.SLOT _ (by rwa [hoff])).trans (Hub.rd_setKw_ne hhub _ CIP.KW_STAT.BUSY _ hk)
  · exact congrArg (fun h : Hub => ({ s with
      hub := h, cip := { s.cip with jobs := kvPut fn ⟨erase, decide (CIP.KW_CMD.LATCHED.of val = 1), CIP.KW_CMD.SLOT.of val⟩ s.cip.jobs } } : State))
      (Hub.regs_frame_trans (Hub.setKw_frame s.hub fn CIP.KW_STAT.BUSY 1) (Hub.setKw_frame _ fn CIP.KW_STAT.SLOT _))

/-! ### Operations on a slot -/

/-- A finished operation that nothing holds back (R297). -/
theorem exec_keyUnwrapDone {fn : Nat} {job : KwJob} {erase : Bool} {rec : Option (List Byte)} {s : State}
    (hopen : s.hub.get GLB.STATUS.FROZEN ≠ 1) (hjob : kvGet fn s.cip.jobs = some job) (herase : job.erase = erase) (hlatched : job.latched = false)
    (hwait : s.cip.keyWaits fn = false) :
    (s.hub.ownsSlot fn job.slot = false → exec (.keyUnwrapDone fn job.slot erase rec) s = .next (s.keyDone fn job.slot 4)) ∧
    (s.hub.ownsSlot fn job.slot = true → keyRefused job (if s.dbt.wrapKey.isSome then rec else none) = none →
      exec (.keyUnwrapDone fn job.slot erase rec) s = .next (s.keyDue job.slot
        (if job.erase then keyErasure else keyOp ((if s.dbt.wrapKey.isSome then rec else none).getD [])) (some fn))) := by
  have harm : exec (.keyUnwrapDone fn job.slot erase rec) s = execKeyUnwrapDone fn job.slot erase rec s := rfl
  rw [harm, execKeyUnwrapDone, hjob]
  dsimp only
  rw [if_neg (by simp [hopen, herase, hwait])]
  refine ⟨fun howner => by rw [if_pos (by simp [howner])], fun howner hok => ?_⟩
  rw [if_neg (by simp [howner]), hok]
  dsimp only
  rw [if_neg (by simp [hlatched])]

/-- A change of a slot that does not drain takes effect and its command completes. -/
theorem State.keyDue_now {s : State} {n : Nat} (op : KeyOp) (fn : Nat) (hdrain : (s.cip.slot n).drain = none) :
    s.keyDue n op (some fn) = (s.keyEffect n op).keyDone fn n (s.hub.keyResult op) := by
  unfold State.keyDue
  dsimp only
  rw [if_neg (by simp [hdrain])]

theorem State.keyEffect_jobs (s : State) (n : Nat) (op : KeyOp) : (s.keyEffect n op).cip.jobs = s.cip.jobs := by
  unfold State.keyEffect
  dsimp only
  split <;> rfl

theorem State.keyEffect_slot_ne (s : State) {n m : Nat} (op : KeyOp) (hm : m ≠ n) : (s.keyEffect n op).cip.slot m = s.cip.slot m := by
  unfold State.keyEffect
  dsimp only
  split
  · exact CipSt.slot_put_ne _ _ hm
  · exact CipSt.slot_put_ne _ _ hm

/-- The hard limit of a written key lies within its mode's (R295). -/
theorem Hub.keyHard_le (h : Hub) (mode hard : Nat) : (h.keyHard mode hard).1 ≤ modeLimit mode := by
  have hmax : h.hardMax mode ≤ modeLimit mode := Nat.min_le_right _ _
  unfold Hub.keyHard
  split
  · exact hmax
  · split
    · exact hmax
    · dsimp only
      omega

/-- The slot's generation after a finished write. -/
theorem State.keyEffect_write (s : State) (n : Nat) {op : KeyOp} (hwrite : op.erase = false) :
    ((s.keyEffect n op).cip.slot n).state = 1 ∧ ((s.keyEffect n op).cip.slot n).gen = ((s.cip.slot n).gen + 1) % 2 ^ 32 ∧
      ((s.keyEffect n op).cip.slot n).mode = op.mode ∧ ((s.keyEffect n op).cip.slot n).key = op.bytes ∧ ((s.keyEffect n op).cip.slot n).use = 0 ∧
      ((s.keyEffect n op).cip.slot n).hard ≤ modeLimit op.mode := by
  unfold State.keyEffect
  dsimp only
  rw [if_neg (by simp [hwrite]), State.setSlot, CipSt.slot_put_self]
  exact ⟨rfl, rfl, rfl, rfl, rfl, Hub.keyHard_le _ _ _⟩

/-- The slot after a finished erase. -/
theorem State.keyEffect_erase (s : State) (n : Nat) {op : KeyOp} (herase : op.erase = true) :
    ((s.keyEffect n op).cip.slot n).state = 0 ∧ ((s.keyEffect n op).cip.slot n).key = [] ∧
      ((s.keyEffect n op).cip.slot n).gen = (s.cip.slot n).gen := by
  unfold State.keyEffect
  dsimp only
  rw [if_pos herase, State.setSlot, CipSt.slot_put_self]
  exact ⟨rfl, rfl, rfl⟩

/-- A change that takes effect at once: the window is free again, and every other slot is as it was. -/
theorem State.keyDue_shows {s : State} (hcanon : s.canon) {n : Nat} (op : KeyOp) (fn : Nat) (hdrain : (s.cip.slot n).drain = none)
    (hjobs : kvSorted s.cip.jobs = true) :
    (s.keyDue n op (some fn)).cip.slot n = (s.keyEffect n op).cip.slot n ∧ (s.keyDue n op (some fn)).hub.kw fn CIP.KW_STAT.BUSY = 0 ∧
      kvGet fn (s.keyDue n op (some fn)).cip.jobs = none ∧ ∀ k, k ≠ n → (s.keyDue n op (some fn)).cip.slot k = s.cip.slot k := by
  rw [State.keyDue_now op fn hdrain]
  obtain ⟨hbusy, -, hjob, hslots⟩ := State.keyDone_shows (State.keyEffect_canon s n op hcanon) fn n (s.hub.keyResult op)
    (by rw [State.keyEffect_jobs]; exact hjobs)
  have hslot : ∀ k, ((s.keyEffect n op).keyDone fn n (s.hub.keyResult op)).cip.slot k = (s.keyEffect n op).cip.slot k := fun k => by
    rw [CipSt.slot, hslots, ← CipSt.slot]
  exact ⟨hslot n, hbusy, hjob, fun k hk => (hslot k).trans (State.keyEffect_slot_ne s op hk)⟩

end Sys2Proof.Machine
end

section
/-! SETTLED. Key commands and generations (R295–R298). -/

namespace Sys2Proof.Machine

/-- A finished operation (R296, R297). -/
theorem keyUnwrapDone_ends (fn slot : Nat) (job : KwJob) (rec : List Byte) (s : State) (hcanon : s.canon) (hjobs : kvSorted s.cip.jobs = true)
    (hopen : s.hub.get GLB.STATUS.FROZEN ≠ 1) (hjob : kvGet fn s.cip.jobs = some job) (hslot : job.slot = slot) (hlatched : job.latched = false)
    (hwait : s.cip.keyWaits fn = false) (hdrain : (s.cip.slot slot).drain = none) :
    (s.hub.ownsSlot fn slot = false → ∀ r, ∃ t, exec (.keyUnwrapDone fn slot job.erase r) s = .next t ∧ t.cip.slots = s.cip.slots ∧
      t.hub.kw fn CIP.KW_STAT.BUSY = 0 ∧ t.hub.kw fn CIP.KW_STAT.RESULT = 4 ∧ kvGet fn t.cip.jobs = none) ∧
    (s.hub.ownsSlot fn slot = true → job.erase = false → s.dbt.wrapKey.isSome = true → bodyN rec 0 2 = slot → modeLimit (bodyU8 rec 2) ≠ 0 →
      ∃ t, exec (.keyUnwrapDone fn slot false (some rec)) s = .next t ∧ (t.cip.slot slot).state = 1 ∧
        (t.cip.slot slot).gen = ((s.cip.slot slot).gen + 1) % 2 ^ 32 ∧ (t.cip.slot slot).mode = bodyU8 rec 2 ∧ (t.cip.slot slot).key = (rec.drop 8).take 48 ∧
        (t.cip.slot slot).use = 0 ∧ (t.cip.slot slot).hard ≤ modeLimit (bodyU8 rec 2) ∧ t.hub.kw fn CIP.KW_STAT.BUSY = 0 ∧ kvGet fn t.cip.jobs = none ∧
        (∀ k, k ≠ slot → t.cip.slot k = s.cip.slot k)) ∧
    (s.hub.ownsSlot fn slot = true → job.erase = true →
      ∃ t, exec (.keyUnwrapDone fn slot true none) s = .next t ∧ (t.cip.slot slot).state = 0 ∧ (t.cip.slot slot).key = [] ∧
        (t.cip.slot slot).gen = (s.cip.slot slot).gen ∧ t.hub.kw fn CIP.KW_STAT.BUSY = 0 ∧ (∀ k, k ≠ slot → t.cip.slot k = s.cip.slot k)) := by
  subst hslot
  refine ⟨fun hother r => ?_, fun howner hwrite hwrap hnamed hmode => ?_, fun howner herase => ?_⟩
  · obtain ⟨hrefused, -⟩ := exec_keyUnwrapDone (rec := r) hopen hjob rfl hlatched hwait
    obtain ⟨hbusy, hresult, hgone, hslots⟩ := State.keyDone_shows hcanon fn job.slot 4 hjobs
    exact ⟨_, hrefused hother, hslots, hbusy, hresult, hgone⟩
  · obtain ⟨-, hdue⟩ := exec_keyUnwrapDone (rec := some rec) hopen hjob hwrite hlatched hwait
    rw [if_pos hwrap, if_neg (by simp [hwrite])] at hdue
    have hok : keyRefused job (some rec) = none := by
      rw [keyRefused, if_neg (by simp [hwrite])]
      rw [if_neg (by simp [hnamed]), if_neg hmode]
    obtain ⟨hsame, hbusy, hgone, hother⟩ := State.keyDue_shows hcanon (keyOp ((some rec).getD [])) fn hdrain hjobs
    obtain ⟨hstate, hgen, hm, hkey, huse, hhard⟩ := State.keyEffect_write s job.slot (op := keyOp ((some rec).getD [])) rfl
    refine ⟨_, hdue howner hok, ?_⟩
    rw [hsame]
    exact ⟨hstate, hgen, hm, hkey, huse, hhard, hbusy, hgone, hother⟩
  · obtain ⟨-, hdue⟩ := exec_keyUnwrapDone (rec := none) hopen hjob herase hlatched hwait
    rw [ite_self, if_pos herase] at hdue
    have hok : keyRefused job none = none := by rw [keyRefused, if_pos herase]
    obtain ⟨hsame, hbusy, -, hother⟩ := State.keyDue_shows hcanon keyErasure fn hdrain hjobs
    obtain ⟨hstate, hkey, hgen⟩ := State.keyEffect_erase s job.slot (op := keyErasure) rfl
    refine ⟨_, hdue howner hok, ?_⟩
    rw [hsame]
    exact ⟨hstate, hkey, hgen, hbusy, hother⟩

/-- Drains and held keys (R297, R298). -/
theorem keyDrains (slot : Nat) (s : State) :
    ((s.cip.slot slot).drain = none → exec (.keyDrainEnd slot) s = .next s) ∧
    ((s.cip.slot slot).drain ≠ none → (s.cip.slot slot).wait = [] → ∃ t, exec (.keyDrainEnd slot) s = .next t ∧
      t.cip.slot slot = { s.cip.slot slot with drain := none } ∧ (∀ k, k ≠ slot → t.cip.slot k = s.cip.slot k) ∧ t = { s with cip := { s.cip with slots := t.cip.slots } }) ∧
    ((s.cip.slot slot).drain ≠ none → exec (.keyDrainEnd slot) s =
      .next ((s.cip.slot slot).wait.foldl (fun a w => a.keyDue slot w.1 w.2) (s.setSlot slot { s.cip.slot slot with drain := none, wait := [] }))) ∧
    ((s.cip.slot slot).held ≠ none → (s.cip.slot slot).heldEnd ≤ s.hub.elapsed → ∃ t, exec (.heldKeyExpiry slot) s = .next t ∧
      t.cip.slot slot = { s.cip.slot slot with held := none } ∧
      (∀ k, k ≠ slot → t.cip.slot k = s.cip.slot k) ∧ t = { s with cip := { s.cip with slots := t.cip.slots } }) ∧
    ((s.cip.slot slot).held = none ∨ s.hub.elapsed < (s.cip.slot slot).heldEnd → exec (.heldKeyExpiry slot) s = .next s) := by
  have hend : exec (.keyDrainEnd slot) s = execKeyDrainEnd slot s := rfl
  have hexpiry : exec (.heldKeyExpiry slot) s = execHeldKeyExpiry slot s := rfl
  rw [hend, hexpiry, execKeyDrainEnd, execHeldKeyExpiry]
  dsimp only
  refine ⟨fun hnone => ?_, fun hdrains hempty => ?_, fun hdrains => ?_, fun hheld hdue => ?_, fun hnot => ?_⟩
  · rw [if_pos (by simp [hnone])]
  · rw [if_neg (by simpa using hdrains), hempty, List.foldl_nil]
    exact ⟨_, rfl, CipSt.slot_put_self _ _ _, fun k hk => CipSt.slot_put_ne _ _ hk, rfl⟩
  · rw [if_neg (by simpa using hdrains)]
  · rw [if_neg (by simp [hheld, Nat.not_lt.mpr hdue])]
    exact ⟨_, rfl, CipSt.slot_put_self _ _ _, fun k hk => CipSt.slot_put_ne _ _ hk, rfl⟩
  · rw [if_pos (by simpa using hnot)]

/-- A key command is taken while the window is free, and only with its own operation (R296). -/
theorem keyCommands (fn : Nat) (val : Word) (s : State) (hcanon : s.canon) (hin : s.hub.hostIn = true) (hfn : fn < 64) :
    (s.hub.kw fn CIP.KW_STAT.BUSY = 0 → CIP.KW_CMD.OP.of val = 1 →
      ∃ t, exec (.keyWrite fn val) s = .next t ∧ t.hub.kw fn CIP.KW_STAT.BUSY = 1 ∧ t.hub.kw fn CIP.KW_STAT.SLOT = CIP.KW_CMD.SLOT.of val ∧
        kvGet fn t.cip.jobs = some ⟨false, decide (CIP.KW_CMD.LATCHED.of val = 1), CIP.KW_CMD.SLOT.of val⟩ ∧
        (∀ k, k ≠ winKey fn (CIP.KW_STAT.BUSY.off 0 0) → t.hub.rd k = s.hub.rd k) ∧
        t = { s with hub := { s.hub with regs := t.hub.regs }, cip := { s.cip with jobs := t.cip.jobs } }) ∧
    (s.hub.kw fn CIP.KW_STAT.BUSY = 0 → CIP.KW_CMD.OP.of val = 2 →
      ∃ t, exec (.keyErase fn val) s = .next t ∧ t.hub.kw fn CIP.KW_STAT.BUSY = 1 ∧ t.hub.kw fn CIP.KW_STAT.SLOT = CIP.KW_CMD.SLOT.of val ∧
        kvGet fn t.cip.jobs = some ⟨true, decide (CIP.KW_CMD.LATCHED.of val = 1), CIP.KW_CMD.SLOT.of val⟩ ∧
        t = { s with hub := { s.hub with regs := t.hub.regs }, cip := { s.cip with jobs := t.cip.jobs } }) ∧
    (s.hub.kw fn CIP.KW_STAT.BUSY = 1 ∨ (CIP.KW_CMD.OP.of val ≠ 1 ∧ CIP.KW_CMD.OP.of val ≠ 2) →
      exec (.keyWrite fn val) s = .next s ∧ exec (.keyErase fn val) s = .next s) := by
  have hwrite : exec (.keyWrite fn val) s = .next (if CIP.KW_CMD.OP.of val = 1 then s.keyStart fn false val else s) := rfl
  have herase : exec (.keyErase fn val) s = .next (if CIP.KW_CMD.OP.of val = 2 then s.keyStart fn true val else s) := rfl
  refine ⟨fun hidle hop => ?_, fun hidle hop => ?_, fun hnot => ?_⟩
  · rw [if_pos hop] at hwrite
    exact ⟨_, hwrite, State.keyStart_takes hcanon hin hfn hidle false val⟩
  · rw [if_pos hop] at herase
    obtain ⟨hbusy, hslot, hjob, -, hframe⟩ := State.keyStart_takes hcanon hin hfn hidle true val
    exact ⟨_, herase, hbusy, hslot, hjob, hframe⟩
  · rw [hwrite, herase]
    rcases hnot with hbusy | ⟨hnotWrite, hnotErase⟩
    · have hstays : ∀ e, s.keyStart fn e val = s := fun e => by rw [State.keyStart, if_pos (Or.inr (Or.inl hbusy))]
      rw [hstays, hstays, ite_self, ite_self]
      exact ⟨rfl, rfl⟩
    · rw [if_neg hnotWrite, if_neg hnotErase]
      exact ⟨rfl, rfl⟩

/-- Settles O32: the commands, their ends, drains and held keys. -/
theorem keySlots : Obligations.KeySlots := by
  refine ⟨keyCommands, fun fn slot job rec s hcanon _ hjobs hopen hjob hslot hlatched hwait hdrain => ?_, keyDrains⟩
  exact keyUnwrapDone_ends fn slot job rec s hcanon hjobs hopen hjob hslot hlatched hwait hdrain

end Sys2Proof.Machine
end

section
/-! SUPPORT. Reads that complete, pages without errors, and the merge buffer (R330, R333, R334, R384). -/

namespace Sys2Proof.Machine

/-- Taking out what is not listed changes nothing. -/
theorem kvDel_of_none {α : Type} {k : Nat} {m : List (Nat × α)} (h : kvGet k m = none) : kvDel k m = m := by
  induction m with
  | nil => rfl
  | cons e t ih =>
    obtain ⟨j, v⟩ := e
    rw [kvGet] at h
    rw [kvDel]
    split at h
    · cases h
    next hne =>
      split at h
      next hlt => rw [if_neg (by omega), if_neg hne]
      next hge => rw [if_pos (by omega), ih h]

/-- Writing what is listed changes nothing. -/
theorem kvPut_of_some {α : Type} {k : Nat} {v : α} {m : List (Nat × α)} (h : kvGet k m = some v) : kvPut k v m = m := by
  induction m with
  | nil => cases h
  | cons e t ih =>
    obtain ⟨j, w⟩ := e
    rw [kvGet] at h
    rw [kvPut]
    split at h
    next heq =>
      cases h
      rw [if_neg (by omega), if_pos heq, heq]
    next hne =>
      split at h
      · cases h
      next hge => rw [if_pos (by omega), ih h]

/-! ### Reads that complete -/

theorem State.bar2Complete_frame (s : State) (fn off n : Nat) : s.bar2Complete fn off n = s.withHub (s.bar2Complete fn off n).hub := rfl

theorem State.bar2Complete_out (s : State) (fn off n : Nat) : (s.bar2Complete fn off n).hub.out.length = s.hub.out.length + 1 :=
  List.length_append

/-- Completing reads changes no memory, and each read leaves the device once. -/
theorem State.bar2Complete_fold (l : List HeldRead) (s : State) :
    (l.foldl (fun a r => a.bar2Complete r.fn r.off r.len) s).mem = s.mem ∧
      (l.foldl (fun a r => a.bar2Complete r.fn r.off r.len) s).hub.out.length = s.hub.out.length + l.length := by
  induction l generalizing s with
  | nil => exact ⟨rfl, rfl⟩
  | cons r t ih =>
    obtain ⟨hmem, hout⟩ := ih (s.bar2Complete r.fn r.off r.len)
    rw [State.bar2Complete_out] at hout
    refine ⟨hmem, hout.trans ?_⟩
    rw [List.length_cons]
    omega

theorem State.bar2Read_dbt (s : State) (fn off n : Nat) : (s.bar2Read fn off n).dbt = s.dbt := by
  unfold State.bar2Read
  dsimp only
  split
  · rfl
  · split <;> rfl

theorem State.bar2Resume_dbt (s : State) : s.bar2Resume.dbt = s.dbt := by
  refine List.foldlRecOn (motive := fun a : State => a.dbt = s.dbt) _ _ rfl fun a ha r _ => ?_
  rw [State.bar2Read_dbt, ha]

/-! ### Pages -/

theorem State.wordsRewritten_mem (s : State) (page sash : Nat) (words : List Nat) : (s.wordsRewritten page sash words).mem = s.mem := by
  unfold State.wordsRewritten
  split <;> rfl

/-- The decode of a page without uncorrectable words changes no state but the reservation it used before. -/
theorem State.pageDecode_clean {s : State} {page : Nat} (scrub : Bool) (h : s.mem.badWords page = []) : s.pageDecode page scrub = s := by
  have hnone : ∀ sash, s.wordsRewritten page sash [] = s := fun sash => by
    unfold State.wordsRewritten
    split <;> rfl
  unfold State.pageDecode
  dsimp only
  rw [h, hnone, if_pos rfl]

/-- The decode of a page that its code corrects stores the corrected words. -/
theorem State.pageDecode_fixes {s : State} {page : Nat} (scrub : Bool) (hbad : s.mem.badWords page ≠ []) (hcode : s.mem.decodes page = true) :
    (s.pageDecode page scrub).mem = (s.mem.badWords page).foldl MemSt.fixWord s.mem := by
  unfold State.pageDecode
  dsimp only
  rw [if_neg hbad, State.wordsRewritten_mem, if_pos hcode]

/-- A page in which no word deviates has no word to correct, to rewrite or to decode. -/
theorem MemSt.page_clean {m : MemSt} {page : Nat} (h : ∀ e ∈ m.dev, ¬(page ≤ e.1 ∧ e.1 < page + pageSize page)) :
    m.badWords page = [] ∧ m.correctable page = 0 ∧ m.rewrite page = m := by
  have hnone : ∀ (q : Nat × Nat → Bool), m.dev.filter (fun e => decide (page ≤ e.1 ∧ e.1 < page + pageSize page) && q e) = [] := fun q =>
    List.filter_eq_nil_iff.mpr fun e he => by simp [decide_eq_false (h e he)]
  have hpage : m.dev.filter (fun e => decide (page ≤ e.1 ∧ e.1 < page + pageSize page)) = [] :=
    List.filter_eq_nil_iff.mpr fun e he => by simp [decide_eq_false (h e he)]
  refine ⟨?_, ?_, ?_⟩
  · rw [MemSt.badWords, hnone]
    rfl
  · rw [MemSt.correctable, hnone]
    rfl
  · rw [MemSt.rewrite, hpage]
    rfl

theorem State.scrubRewrite_clean {s : State} {page : Nat} (h : ∀ e ∈ s.mem.dev, ¬(page ≤ e.1 ∧ e.1 < page + pageSize page)) :
    s.scrubRewrite page = s := by
  have hnone : ∀ (q : Nat × Nat → Bool), s.mem.dev.filter (fun e => decide (page ≤ e.1 ∧ e.1 < page + pageSize page) && q e) = [] := fun q =>
    List.filter_eq_nil_iff.mpr fun e he => by simp [decide_eq_false (h e he)]
  obtain ⟨-, -, hrewrite⟩ := MemSt.page_clean h
  unfold State.scrubRewrite
  dsimp only
  rw [hnone, hrewrite]
  unfold State.wordsRewritten
  split <;> rfl

theorem State.hbmTake_frame (s : State) (stack sash n : Nat) : s.hbmTake stack sash n = { s with fab := (s.hbmTake stack sash n).fab } := rfl

/-- What the scrubber notes of a page it has read. -/
theorem State.scrubbed_keeps (s : State) (page : Nat) : (s.scrubbed page).mem = { s.mem with scrub := (s.scrubbed page).mem.scrub } ∧
    (s.scrubbed page).hub = s.hub := by
  rw [State.scrubbed]
  by_cases hhbm : page < sramBase
  · rw [if_pos hhbm]
    dsimp only
    rw [State.hbmTake_frame]
    exact ⟨rfl, rfl⟩
  · rw [if_neg hhbm]
    by_cases hbuf : page < sramBase + 96 * 2 ^ 20
    · rw [if_pos hbuf]
      exact ⟨rfl, rfl⟩
    · rw [if_neg hbuf]
      exact ⟨rfl, rfl⟩

/-! ### The merge buffer -/

/-- Where no entry is to be flushed the merge buffer stays. -/
theorem State.mergeFlushWhere_none {s : State} {g : Nat} {p : MergeEntry → Bool}
    (h : ∀ l, kvGet g s.mem.merge = some l → l ≠ [] ∧ ∀ e ∈ l, p e = false) : s.mergeFlushWhere g p = s := by
  unfold State.mergeFlushWhere
  dsimp only
  cases hget : kvGet g s.mem.merge with
  | none =>
    simp only [Option.getD_none, List.filter_nil, List.foldl_nil, if_true, kvDel_of_none hget]
  | some l =>
    obtain ⟨hne, hstay⟩ := h l hget
    have hkeep : l.filter (fun e => !p e) = l := List.filter_eq_self.mpr fun e he => by simp [hstay e he]
    have hflush : l.filter p = [] := List.filter_eq_nil_iff.mpr fun e he => by simp [hstay e he]
    simp only [Option.getD_some, hkeep, hflush, if_neg hne, List.foldl_nil, kvPut_of_some hget]

/-- The bytes of an entry, over those of the word where it has none. -/
def MergeEntry.over (e : MergeEntry) (d : Nat) : Nat :=
  leNat ((List.range 8).map fun k => (kvGet (e.word + k) e.bytes).getD (BitVec.ofNat 8 (d / 2 ^ (8 * k))))

/-- A lone entry is flushed: its bytes, over those of the clean word where it has none. -/
theorem State.mergeFlushWhere_one {s : State} {g d : Nat} {e : MergeEntry} {p : MergeEntry → Bool} (hget : kvGet g s.mem.merge = some [e])
    (hp : p e = true) (hread : s.mem.read e.word = .clean d) : s.mergeFlushWhere g p = { s with
      mem := ({ s.mem with merge := kvDel g s.mem.merge } : MemSt).write e.word (e.over d) } := by
  have hflush : ∀ a : State, a.mem.read e.word = .clean d → a.mergeFlush e = { a with mem := a.mem.write e.word (e.over d) } := fun a ha => by
    have hsame : (if e.bytes.length = 8 then a else a.mergeRead e.word) = a := by
      rw [State.mergeRead, ha, ite_self]
    have hdeliver : a.mem.delivered e.word = d := by rw [MemSt.delivered, ha]
    unfold State.mergeFlush
    dsimp only
    rw [hsame, ha, hdeliver]
    rfl
  unfold State.mergeFlushWhere
  simp only [hget, Option.getD_some, List.filter_cons, hp, Bool.not_true, Bool.false_eq_true, if_false, if_true, List.filter_nil, List.foldl_cons,
    List.foldl_nil]
  exact hflush _ hread

end Sys2Proof.Machine
end

section
/-! SETTLED. The upkeep of memory (R327, R330, R333, R334, R336, R384). -/

namespace Sys2Proof.Machine

theorem Hub.tempEvt_apart {k : Nat} (hk : k < 2) : MEM.HBM_STAT.HOT.off k 0 ≠ evtOff 0x1205 0 ∧ offLog (MEM.HBM_STAT.HOT.off k 0) := by
  have hevt : evtOff 0x1205 0 = 0x1C00100 := by decide
  rw [hevt]
  simp only [Fld.off, MEM.HBM_STAT.HOT, offLog]
  omega

/-- A temperature shown, and HOT set to `v` with its event: both read so. -/
theorem Hub.hotSet_shows {h : Hub} (c : h.canon) {k : Nat} (hk : k < 2) (v : Nat) (det : List Nat) :
    ((h.set1 MEM.HBM_STAT.HOT k v).raise { code := 0x1205, detail := det }).get1 MEM.HBM_STAT.HOT k = v % 2 ∧
      ((h.set1 MEM.HBM_STAT.HOT k v).raise { code := 0x1205, detail := det }).get1 MEM.HBM_STAT.TEMP k = h.get1 MEM.HBM_STAT.TEMP k := by
  obtain ⟨hevt, hlog⟩ := Hub.tempEvt_apart hk
  have hset := Hub.set1_canon h MEM.HBM_STAT.HOT k v c
  refine ⟨?_, ?_⟩
  · rw [Hub.raise_get1 hset { code := 0x1205, detail := det } _ k rfl rfl hevt hlog, Hub.get1_set1_self c _ _ _ (by decide)]
    rfl
  · rw [Hub.raise_get1 hset { code := 0x1205, detail := det } MEM.HBM_STAT.TEMP k rfl rfl hevt hlog]
    exact Hub.get1_set1_field c MEM.HBM_STAT.HOT MEM.HBM_STAT.TEMP k v rfl (by decide) (by decide)

/-- A temperature reading of a stack that is there (R327). -/
theorem hbmTempReading_shows (k : Nat) (x : Int) (s : State) (hcanon : s.canon) (hk : k < 2) (hstack : k < s.hub.unitCount 15) :
    ∃ t, exec (.hbmTempReading k x) s = .next t ∧ t.hub.get1 MEM.HBM_STAT.TEMP k = (min (max x 0) 255).toNat ∧
      (85 < x → t.hub.get1 MEM.HBM_STAT.HOT k = 1) ∧ (x < 80 → t.hub.get1 MEM.HBM_STAT.HOT k = 0) ∧
      (80 ≤ x → x ≤ 85 → t.hub.get1 MEM.HBM_STAT.HOT k = s.hub.get1 MEM.HBM_STAT.HOT k) ∧ t = { s with hub := t.hub } := by
  have harm : exec (.hbmTempReading k x) s = execHbmTempReading k x s := rfl
  have hhub := State.canon_hub hcanon
  have hshown := Hub.set1_canon s.hub MEM.HBM_STAT.TEMP k (min (max x 0) 255).toNat hhub
  have htemp : (s.hub.set1 MEM.HBM_STAT.TEMP k (min (max x 0) 255).toNat).get1 MEM.HBM_STAT.TEMP k = (min (max x 0) 255).toNat := by
    rw [Hub.get1_set1_self hhub _ _ _ (by decide)]
    refine Nat.mod_eq_of_lt (show _ < 256 by omega)
  have hhot := Hub.get1_set1_field hhub MEM.HBM_STAT.TEMP MEM.HBM_STAT.HOT k (min (max x 0) 255).toNat rfl (by decide) (by decide)
  have hbit : s.hub.get1 MEM.HBM_STAT.HOT k < 2 := Fld.of_lt MEM.HBM_STAT.HOT _
  rw [harm, execHbmTempReading]
  rw [if_neg (by omega), hhot]
  split
  next h =>
    obtain ⟨hset, hkeep⟩ := Hub.hotSet_shows hshown hk 1 [k, 1]
    exact ⟨_, rfl, hkeep.trans htemp, fun _ => hset, fun _ => by omega, fun _ _ => by omega, rfl⟩
  · split
    next h =>
      obtain ⟨hset, hkeep⟩ := Hub.hotSet_shows hshown hk 0 [k, 0]
      exact ⟨_, rfl, hkeep.trans htemp, fun _ => by omega, fun _ => hset, fun _ _ => by omega, rfl⟩
    next hhigh hlow => exact ⟨_, rfl, htemp, fun _ => by rw [hhot]; omega, fun _ => by rw [hhot]; omega, fun _ _ => hhot, rfl⟩

/-- A decode of HBM has used the Deadbolt's reservation. -/
def State.decodeTaken (s : State) (page : Nat) : State := if page < sramBase then s.hbmTake (page / 2 ^ 35) 0x403 8 else s

theorem State.decodeTaken_frame (s : State) (page : Nat) : s.decodeTaken page = { s with fab := (s.decodeTaken page).fab } := by
  rw [State.decodeTaken]
  by_cases h : page < sramBase
  · rw [if_pos h]
    exact State.hbmTake_frame ..
  · rw [if_neg h]

theorem State.decodeTaken_mem (s : State) (page : Nat) : (s.decodeTaken page).mem = s.mem := by
  rw [State.decodeTaken_frame]

theorem State.decodeTaken_hub (s : State) (page : Nat) : (s.decodeTaken page).hub = s.hub := by
  rw [State.decodeTaken_frame]

theorem exec_pageDecodeDone {cell : Nat} {s : State} (hgo : s.decodeGo (pageOf cell) = true) : exec (.pageDecodeDone cell []) s =
    .next ((s.mem.held.filter (·.page = some (pageOf cell))).foldl (fun a r => a.bar2Complete r.fn r.off r.len)
      { (s.decodeTaken (pageOf cell)).pageDecode (pageOf cell) false with
        mem := { ((s.decodeTaken (pageOf cell)).pageDecode (pageOf cell) false).mem with
          held := ((s.decodeTaken (pageOf cell)).pageDecode (pageOf cell) false).mem.held.filter (·.page ≠ some (pageOf cell)) } }) :=
  congrArg Host.Outcome.next (if_pos hgo)

/-- A page decode: what it completes, writes and leaves (R330). -/
theorem pageDecodeDone_ends (cell : Nat) (s : State) :
    (s.decodeGo (pageOf cell) = true → s.mem.badWords (pageOf cell) = [] →
      ∃ t, exec (.pageDecodeDone cell []) s = .next t ∧ t.mem = { s.mem with held := s.mem.held.filter (·.page ≠ some (pageOf cell)) } ∧
        t.hub.out.length = s.hub.out.length + (s.mem.held.filter (·.page = some (pageOf cell))).length) ∧
    (s.decodeGo (pageOf cell) = true → s.mem.badWords (pageOf cell) ≠ [] → s.mem.decodes (pageOf cell) = true →
      ∃ t, exec (.pageDecodeDone cell []) s = .next t ∧ t.mem.cells = ((s.mem.badWords (pageOf cell)).foldl MemSt.fixWord s.mem).cells) ∧
    (s.decodeGo (pageOf cell) = false → exec (.pageDecodeDone cell []) s = .next s) := by
  have hmem := State.decodeTaken_mem s (pageOf cell)
  refine ⟨fun hgo hclean => ⟨_, exec_pageDecodeDone hgo, ?_⟩, fun hgo hbad hcode => ⟨_, exec_pageDecodeDone hgo, ?_⟩, fun hwait => ?_⟩
  · rw [State.pageDecode_clean false (by rw [hmem]; exact hclean)]
    obtain ⟨hfold, hout⟩ := State.bar2Complete_fold (s.mem.held.filter (·.page = some (pageOf cell)))
      { s.decodeTaken (pageOf cell) with
        mem := { (s.decodeTaken (pageOf cell)).mem with held := (s.decodeTaken (pageOf cell)).mem.held.filter (·.page ≠ some (pageOf cell)) } }
    refine ⟨hfold.trans ?_, hout.trans ?_⟩
    · dsimp only
      rw [hmem]
    · dsimp only
      rw [State.decodeTaken_hub]
  · rw [(State.bar2Complete_fold _ _).1]
    dsimp only
    rw [State.pageDecode_fixes false (by rw [hmem]; exact hbad) (by rw [hmem]; exact hcode), hmem]
  · exact congrArg Host.Outcome.next (if_neg (by simp [hwait]))

/-- A scrub visit (R334). -/
theorem scrubVisit_reads (cell : Nat) (s : State) :
    (∀ errs, s.hub.scrubs (pageOf cell) = false ∨ s.scrubDue (pageOf cell) = false →
      exec (.scrubVisit cell errs) s = .next { s with mem := errs.foldl MemSt.err s.mem }) ∧
    (s.canon → s.hub.scrubs (pageOf cell) = true → s.scrubDue (pageOf cell) = true →
      (∀ e ∈ s.mem.dev, ¬(pageOf cell ≤ e.1 ∧ e.1 < pageOf cell + pageSize (pageOf cell))) →
      ∃ t, exec (.scrubVisit cell []) s = .next t ∧ t.mem = { s.mem with scrub := t.mem.scrub } ∧
        (pageOf cell < sramBase → t.hub.get MEM.SCRUB_STAT.PROGRESS = pageOf cell % 2 ^ 35 / 2 ^ 27)) := by
  have harm : ∀ errs, exec (.scrubVisit cell errs) s = execScrubVisit cell errs s := fun _ => rfl
  refine ⟨fun errs hnot => ?_, fun hcanon hon hdue hclean => ?_⟩
  · rw [harm, execScrubVisit]
    dsimp only
    rw [if_neg]
    rintro ⟨hon, hdue⟩
    rcases hnot with h | h
    · rw [h] at hon
      cases hon
    · rw [h] at hdue
      cases hdue
  · obtain ⟨hbad, hcorr, -⟩ := MemSt.page_clean hclean
    rw [harm, execScrubVisit]
    dsimp only [List.foldl_nil]
    rw [if_pos ⟨hon, hdue⟩, hcorr, List.range_zero, List.foldl_nil]
    obtain ⟨hmem, hhub⟩ := State.scrubbed_keeps
      { s with hub := if pageOf cell < sramBase then s.hub.set MEM.SCRUB_STAT.PROGRESS (pageOf cell % 2 ^ 35 / 2 ^ 27) else s.hub } (pageOf cell)
    generalize State.scrubbed { s with
      hub := if pageOf cell < sramBase then s.hub.set MEM.SCRUB_STAT.PROGRESS (pageOf cell % 2 ^ 35 / 2 ^ 27) else s.hub } (pageOf cell) = u at hmem hhub
    have hdev : u.mem.dev = s.mem.dev := by rw [hmem]
    have hbadAfter : u.mem.badWords (pageOf cell) = [] := (MemSt.page_clean (by rw [hdev]; exact hclean)).1
    rw [State.pageDecode_clean true hbadAfter, State.scrubRewrite_clean (by rw [hdev]; exact hclean)]
    refine ⟨u, rfl, hmem, fun hhbm => ?_⟩
    rw [hhub]
    dsimp only
    rw [if_pos hhbm, Hub.get_set_self (State.canon_hub hcanon) _ _ (by decide)]
    exact Nat.mod_eq_of_lt (show _ < 256 by omega)

/-- The end of a merge entry's time (R333). -/
theorem mergeFlushTimeout_flushes (word : Nat) (s : State) (hopen : s.hub.get GLB.STATUS.FROZEN ≠ 1) :
    (∀ e d, kvGet ((word - sramBase) / 2 ^ 22) s.mem.merge = some [e] → e.word = word / 8 * 8 → e.taken + 64 ≤ s.hub.hcNow →
      s.mem.read (word / 8 * 8) = .clean d →
      let v := leNat ((List.range 8).map fun k => (kvGet (word / 8 * 8 + k) e.bytes).getD (BitVec.ofNat 8 (d / 2 ^ (8 * k))))
      exec (.mergeFlushTimeout word) s = .next { s with
        mem := ({ s.mem with merge := kvDel ((word - sramBase) / 2 ^ 22) s.mem.merge } : MemSt).write (word / 8 * 8) v }) ∧
    ((∀ l, kvGet ((word - sramBase) / 2 ^ 22) s.mem.merge = some l →
      l ≠ [] ∧ ∀ e ∈ l, e.word = word / 8 * 8 → s.hub.hcNow < e.taken + 64) → exec (.mergeFlushTimeout word) s = .next s) := by
  have harm : exec (.mergeFlushTimeout word) s = execMergeFlushTimeout word s := rfl
  rw [harm, execMergeFlushTimeout, if_neg hopen]
  refine ⟨fun e d hget hword hold hread => ?_, fun hyoung => ?_⟩
  · rw [← hword] at hread ⊢
    rw [State.mergeFlushWhere_one hget (by simp [hold, hword]) hread]
    rfl
  · rw [State.mergeFlushWhere_none fun l hl => ?_]
    obtain ⟨hne, hstay⟩ := hyoung l hl
    refine ⟨hne, fun e he => decide_eq_false ?_⟩
    rintro ⟨hword, hold⟩
    have := hstay e he hword
    omega

/-- A remap that is done (R384). -/
theorem pageRemapDone_marks (ch : Nat) (s : State) : ∃ t, exec (.pageRemapDone ch) s = .next t ∧
    (∀ r ∈ t.dbt.remaps, r.channel = ch → r.done = true) ∧ t.dbt.remaps.length = s.dbt.remaps.length ∧
    (s.mem.held = [] → (∀ e ∈ s.mem.dev, pageChannel (pageOf e.1) ≠ ch) → t = { s with dbt := { s.dbt with remaps := t.dbt.remaps } }) := by
  have harm : exec (.pageRemapDone ch) s = execPageRemapDone ch s := rfl
  rw [harm, execPageRemapDone]
  split
  · refine ⟨_, rfl, ?_, ?_, fun hheld hother => ?_⟩
    · rw [State.bar2Resume_dbt]
      intro r hr hch
      obtain ⟨q, -, rfl⟩ := List.mem_map.mp hr
      split
      · rfl
      next hne =>
        rw [if_neg hne] at hch
        exact absurd hch hne
    · rw [State.bar2Resume_dbt, List.length_map]
    · have hcopied : s.mem.copied ch = s.mem := by
        have hnone : s.mem.dev.filter (fun e => decide (pageChannel (pageOf e.1) = ch)) = [] :=
          List.filter_eq_nil_iff.mpr fun e he => by simp [hother e he]
        rw [MemSt.copied, hnone, List.foldl_nil]
      rw [hcopied, State.bar2Resume_none (by simp [hheld])]
  next hnone =>
    refine ⟨s, rfl, fun r hr hch => ?_, rfl, fun _ _ => rfl⟩
    refine Decidable.byContradiction fun hopen => ?_
    exact hnone (List.any_eq_true.mpr ⟨r, hr, by simp [hch, hopen]⟩)

/-- A parity error (R336). -/
theorem caParityError_reports (stack pch cell : Nat) (wr second : Bool) (s : State) :
    let ch := 15 * 2 ^ 24 + 64 * stack + pch
    let ev : Ev := { code := 0x1204, channel := ch, detail := [stack, pch] }
    let h := (s.hub.err MEM.CA_PARITY.COUNT 0 0x1209 0).raise ev
    (s.hub.stackUp stack = false → exec (.caParityError stack pch cell wr second) s = .next s) ∧
    (s.hub.stackUp stack = true → (wr && second) = false →
      exec (.caParityError stack pch cell wr second) s = .next ((({ s with hub := h } : State).memLog ev).transient ch)) ∧
    (s.hub.stackUp stack = true → memWf s.mem.cells = true → wr = true → second = true →
      ∃ u : State, exec (.caParityError stack pch cell wr second) s = .next ((u.memLog ev).transient ch) ∧ u.hub = h.errN MEM.POISON_WRITTEN.COUNT 0 8 0x1209 0 ∧
        (∀ k, k < 8 → u.mem.read (cell / 64 * 64 + 8 * k) = .poison) ∧ u = { s with hub := u.hub, mem := u.mem }) := by
  intro ch ev h
  have harm : exec (.caParityError stack pch cell wr second) s = execCaParityError stack pch cell wr second s := rfl
  rw [harm, execCaParityError]
  refine ⟨fun hdown => by rw [if_neg (by simp [hdown])], fun hup hfirst => ?_, fun hup hwf hwr hsecond => ?_⟩
  · have hnot : ¬(wr = true ∧ second = true) := by simpa using hfirst
    rw [if_pos hup, if_neg hnot, if_neg (fun hboth => hnot hboth.symm)]
  · rw [if_pos hup, if_pos ⟨hsecond, hwr⟩, if_pos ⟨hwr, hsecond⟩]
    refine ⟨_, rfl, rfl, fun k hk => ?_, rfl⟩
    have hmap : (List.range 8).foldl (fun m k => m.poison (cell / 64 * 64 + 8 * k)) s.mem =
        ((List.range 8).map fun k => cell / 64 * 64 + 8 * k).foldl MemSt.poison s.mem := (List.foldl_map ..).symm
    dsimp only
    rw [hmap]
    refine MemSt.read_foldl_poison _ hwf (fun x hx => ?_) (by omega) (Or.inl (List.mem_map.mpr ⟨k, List.mem_range.mpr hk, rfl⟩))
    obtain ⟨j, -, rfl⟩ := List.mem_map.mp hx
    omega

/-- Settles O38: each event in its own lemma. -/
theorem memoryUpkeep : Obligations.MemoryUpkeep := by
  refine ⟨⟨?_, hbmTempReading_shows, fun cell s => (pageDecodeDone_ends cell s).1,
    fun cell s => (pageDecodeDone_ends cell s).2.1, fun cell s => (pageDecodeDone_ends cell s).2.2, fun cell errs s => (scrubVisit_reads cell s).1 errs,
    fun cell s => (scrubVisit_reads cell s).2, mergeFlushTimeout_flushes, pageRemapDone_marks⟩, caParityError_reports⟩
  intro k s due
  refine ⟨fun hdue => ?_, fun hearly => ?_⟩
  · exact congrArg Host.Outcome.next (if_pos hdue)
  · exact congrArg Host.Outcome.next (if_neg hearly)

end Sys2Proof.Machine
end

section
/-! SUPPORT. Doorbells and the taking of commands (R137, R368, R370). -/

namespace Sys2Proof.Machine

theorem Hub.ringPut_pcieDown (h : Hub) (n i : Nat) (l : List (List Byte)) : (h.ringPut n i l).pcieDown = h.pcieDown := by
  induction l generalizing h i with
  | nil => rfl
  | cons w t ih =>
    rw [Hub.ringPut, ih, Hub.hostWrite]
    split <;> rfl

/-- Without words the doorbell alone is rung. -/
theorem exec_dbProd_empty (fn q index : Nat) (s : State) :
    exec (.dbProd fn q index []) s = .next (if s.hub.pcieDown then s else s.doorbell fn q 0 index) := rfl

/-- A doorbell of a function that reaches the queue pair, over a live interface. -/
theorem State.doorbell_live {s : State} {fn q : Nat} (k index : Nat) (hq : q < 1024) (hreach : s.hub.reachesQp fn q = true)
    (hup : s.hub.pcieDown = false) (hlive : s.hub.bar = .live) :
    s.doorbell fn q k index = { s with hub := if k = 0 then s.hub.dbProd q index else s.hub.dbCons q index } := by
  rw [State.doorbell, if_neg (by simp [hreach, hup]; omega), hlive]

/-- While the core is frozen, outside a warm start, the last value is kept (R373). -/
theorem State.doorbell_frozen {s : State} {fn q : Nat} (k index : Nat) (hq : q < 1024) (hreach : s.hub.reachesQp fn q = true)
    (hup : s.hub.pcieDown = false) (hfrozen : s.hub.bar = .frozen) (hphase : ∀ r, s.start.phase ≠ .warm r) :
    s.doorbell fn q k index = { s with hub := { s.hub with heldDb := kvPut (2 * q + k) (index % 2 ^ 32) s.hub.heldDb } } := by
  rw [State.doorbell, if_neg (by simp [hreach, hup]; omega), hfrozen]
  dsimp only
  split
  next r hr => exact absurd hr (hphase r)
  next => rfl

/-- A doorbell that does not reach its queue pair rings nothing. -/
theorem State.doorbell_unreached {s : State} {fn q : Nat} (k index : Nat) (h : s.hub.reachesQp fn q = false) : s.doorbell fn q k index = s := by
  rw [State.doorbell, if_pos (Or.inr (Or.inl (by simp [h])))]

/-- The FIFO of a producer doorbell: its PROD is the host's. -/
theorem Hub.setPeer_prod (h : Hub) (q index : Nat) : (h.setFifo (2 * q) { h.fifo (2 * q) with peer := index }).fifoProd (2 * q) = index := by
  rw [Hub.fifoProd, if_neg (by omega), Hub.setFifo_fifo_self]

theorem Hub.setPeer_used (h : Hub) (q index : Nat) :
    (h.setFifo (2 * q) { h.fifo (2 * q) with peer := index }).fifoUsed (2 * q) = (index + 2 ^ 32 - h.fifoCons (2 * q)) % 2 ^ 32 := by
  have hcons : (h.setFifo (2 * q) { h.fifo (2 * q) with peer := index }).fifoCons (2 * q) = h.fifoCons (2 * q) := by
    rw [Hub.fifoCons, Hub.fifoCons, if_neg (by omega), if_neg (by omega)]
    rfl
  rw [Hub.fifoUsed, Hub.setPeer_prod, hcons]

theorem Hub.setFifo_fifoWords (h : Hub) (n : Nat) (f : Fifo) (m : Nat) : (h.setFifo n f).fifoWords m = h.fifoWords m := rfl

/-- A producer doorbell within bounds. -/
theorem Hub.dbProd_within {h : Hub} {q index : Nat} (hnone : h.qpOn q = false ∨ h.qpCommand q = true)
    (hfits : (index % 2 ^ 32 + 2 ^ 32 - h.fifoCons (2 * q)) % 2 ^ 32 ≤ h.fifoWords (2 * q)) :
    h.dbProd q index = h.setFifo (2 * q) { h.fifo (2 * q) with peer := index % 2 ^ 32 } := by
  have hnot : ¬(h.qpOn q = true ∧ (!h.qpCommand q) = true) := by
    rintro ⟨hon, hfifo⟩
    rcases hnone with hoff | hcommand
    · rw [hoff] at hon
      cases hon
    · rw [hcommand] at hfifo
      cases hfifo
  unfold Hub.dbProd
  dsimp only
  rw [Hub.setPeer_used, Hub.setFifo_fifoWords, if_neg (Nat.not_lt.mpr hfits)]
  exact if_neg hnot

/-- A producer doorbell out of bounds is counted and flushes the FIFO. -/
theorem Hub.dbProd_beyond {h : Hub} {q index : Nat} (hbad : h.fifoWords (2 * q) < (index % 2 ^ 32 + 2 ^ 32 - h.fifoCons (2 * q)) % 2 ^ 32) :
    h.dbProd q index =
      ((h.setFifo (2 * q) { h.fifo (2 * q) with peer := index % 2 ^ 32 }).err QSC.FIFO_BAD.COUNT (2 * q) 0x0708 0).fifoFlush (2 * q) := by
  unfold Hub.dbProd
  dsimp only
  rw [Hub.setPeer_used, Hub.setFifo_fifoWords, if_pos hbad]

theorem fifoBad_apart {q : Nat} (hq : q < 1024) : QSC.FIFO_BAD.COUNT.off (2 * q) 0 ≠ evtOff 0x0708 0 ∧ offLog (QSC.FIFO_BAD.COUNT.off (2 * q) 0) ∧
    QSC.FIFO_BAD.COUNT.off (2 * q) 0 ≠ QSC.FIFO_IDX.INDEX.off (2 * q) 0 := by
  have hevt : evtOff 0x0708 0 = 0x800100 := by decide
  rw [hevt]
  simp only [Fld.off, QSC.FIFO_BAD.COUNT, QSC.FIFO_IDX.INDEX, offLog]
  omega

/-- An item stands next: it is taken where its completion has room, and the search ends with it. -/
theorem Hub.commandTake_item {h : Hub} {q i : Nat} {p : List Byte} (hitem : h.fifoPeek (2 * q) = .item p i) (fuel : Nat) :
    h.commandTake q (fuel + 1) = if h.completionRoom q then (h.fifoAdvance (2 * q) i).takeCommand q p else h := by
  have hnext : h.commandNext q (.item p i) = (if h.completionRoom q then (h.fifoAdvance (2 * q) i).takeCommand q p else h, false) := rfl
  rw [Hub.commandTake, hitem, hnext]
  exact if_neg Bool.false_ne_true

end Sys2Proof.Machine
end

section
/-! SETTLED. Doorbells and commands (R24, R74, R137, R368, R370, R373). -/

namespace Sys2Proof.Machine

/-- Doorbells that ring nothing, and the words that stand in the ring before one. -/
theorem doorbells_unrung (fn q index : Nat) (s : State) :
    (s.hub.pcieDown = true → (∀ words, exec (.dbProd fn q index words) s = .next s) ∧ exec (.dbCons fn q index) s = .next s) ∧
    (s.hub.reachesQp fn q = false → exec (.dbProd fn q index []) s = .next s ∧ exec (.dbCons fn q index) s = .next s) ∧
    (s.hub.pcieDown = false → ∀ words, exec (.dbProd fn q index words) s = exec (.dbProd fn q index [])
      { s with hub := s.hub.ringPut (2 * q) (s.hub.fifoProd (2 * q)) (toWords ((words.length + 7) / 8) words) }) := by
  have hcons : exec (.dbCons fn q index) s = .next (s.doorbell fn q 1 index) := rfl
  have hprod : ∀ words, exec (.dbProd fn q index words) s = execDbProd fn q index words s := fun _ => rfl
  refine ⟨fun hdown => ⟨fun words => ?_, ?_⟩, fun hunreached => ⟨?_, ?_⟩, fun hup words => ?_⟩
  · rw [hprod, execDbProd]
    exact congrArg Host.Outcome.next (if_pos hdown)
  · rw [hcons, State.doorbell, if_pos (Or.inr (Or.inr hdown))]
  · rw [exec_dbProd_empty, State.doorbell_unreached _ _ hunreached, ite_self]
  · rw [hcons, State.doorbell_unreached _ _ hunreached]
  · rw [exec_dbProd_empty, hprod, execDbProd]
    dsimp only
    rw [Hub.ringPut_pcieDown, hup, if_neg (by decide), if_neg (by decide)]

/-- Doorbells that reach their queue pair (R137, R373). -/
theorem doorbells_rung (fn q index : Nat) (s : State) (hq : q < 1024) (hreach : s.hub.reachesQp fn q = true) (hup : s.hub.pcieDown = false) :
    (s.hub.bar = .live → (s.hub.qpOn q = false ∨ s.hub.qpCommand q = true) →
      (index % 2 ^ 32 + 2 ^ 32 - s.hub.fifoCons (2 * q)) % 2 ^ 32 ≤ s.hub.fifoWords (2 * q) →
      ∃ t, exec (.dbProd fn q index []) s = .next t ∧ t.hub.fifoProd (2 * q) = index % 2 ^ 32 ∧
        (∀ n, n ≠ 2 * q → t.hub.fifo n = s.hub.fifo n) ∧ t = { s with hub := { s.hub with fifos := t.hub.fifos } }) ∧
    (s.hub.bar = .live → s.canon → s.hub.fifoWords (2 * q) < (index % 2 ^ 32 + 2 ^ 32 - s.hub.fifoCons (2 * q)) % 2 ^ 32 →
      ∃ t, exec (.dbProd fn q index []) s = .next t ∧ t.hub.fifoUsed (2 * q) = 0 ∧
        (s.hub.rd (QSC.FIFO_BAD.COUNT.off (2 * q) 0) ≠ BitVec.allOnes 32 →
          t.hub.rd (QSC.FIFO_BAD.COUNT.off (2 * q) 0) = s.hub.rd (QSC.FIFO_BAD.COUNT.off (2 * q) 0) + 1)) ∧
    (s.hub.bar = .live → ∃ t, exec (.dbCons fn q index) s = .next t ∧
      t.hub.fifoCons (2 * q + 1) = (if laterThan 32 (s.hub.fifoIdx (2 * q + 1)) (index % 2 ^ 32) then s.hub.fifoIdx (2 * q + 1) else index % 2 ^ 32) ∧
      t = { s with hub := { s.hub with fifos := t.hub.fifos } }) ∧
    (s.hub.bar = .frozen → (∀ r, s.start.phase ≠ .warm r) →
      exec (.dbProd fn q index []) s = .next { s with hub := { s.hub with heldDb := kvPut (2 * q) (index % 2 ^ 32) s.hub.heldDb } } ∧
      exec (.dbCons fn q index) s = .next { s with hub := { s.hub with heldDb := kvPut (2 * q + 1) (index % 2 ^ 32) s.hub.heldDb } }) := by
  have hcons : exec (.dbCons fn q index) s = .next (s.doorbell fn q 1 index) := rfl
  have hprod : exec (.dbProd fn q index []) s = .next (s.doorbell fn q 0 index) := by
    rw [exec_dbProd_empty, hup, if_neg (by decide)]
  refine ⟨fun hlive hnone hfits => ?_, fun hlive hcanon hbad => ?_, fun hlive => ?_, fun hfrozen hphase => ⟨?_, ?_⟩⟩
  · rw [State.doorbell_live _ _ hq hreach hup hlive, if_pos rfl, Hub.dbProd_within hnone hfits] at hprod
    exact ⟨_, hprod, Hub.setPeer_prod .., fun n hn => Hub.setFifo_fifo_ne _ _ hn, rfl⟩
  · rw [State.doorbell_live _ _ hq hreach hup hlive, if_pos rfl, Hub.dbProd_beyond hbad] at hprod
    have hhub : (s.hub.setFifo (2 * q) { s.hub.fifo (2 * q) with peer := index % 2 ^ 32 }).canon := State.canon_hub hcanon
    have herr := Hub.err_canon _ QSC.FIFO_BAD.COUNT (2 * q) 0x0708 0 hhub
    obtain ⟨hevt, hlog, hidx⟩ := fifoBad_apart hq
    refine ⟨_, hprod, (Hub.fifoFlush_empty herr _).1, fun hroom => ?_⟩
    exact (Hub.fifoFlush_rd herr _ hidx).trans (Hub.err_rd_self hhub QSC.FIFO_BAD.COUNT (2 * q) 0x0708 0 hroom hevt hlog)
  · rw [State.doorbell_live _ _ hq hreach hup hlive, if_neg (by decide)] at hcons
    refine ⟨_, hcons, ?_, rfl⟩
    rw [Hub.dbCons, Hub.fifoCons, if_pos (by omega), Hub.setFifo_fifo_self]
  · rw [hprod, State.doorbell_frozen _ _ hq hreach hup hfrozen hphase]
    rfl
  · rw [hcons, State.doorbell_frozen _ _ hq hreach hup hfrozen hphase]

/-- The taking of commands (R74, R370). -/
theorem commandTake_inTurn (q : Nat) (s : State) :
    (∀ p i, s.takesCommands = true → s.emergency = false → s.hub.qpOn q = true → s.hub.qpCommand q = true → s.hub.fifoPeek (2 * q) = .item p i →
      (s.hub.completionRoom q = true → exec (.commandTake q) s = .next { s with hub := (s.hub.fifoAdvance (2 * q) i).takeCommand q p }) ∧
      (s.hub.completionRoom q = false → exec (.commandTake q) s = .next s)) ∧
    (s.takesCommands = false ∨ s.emergency = true ∨ s.hub.qpOn q = false ∨ s.hub.qpCommand q = false → exec (.commandTake q) s = .next s) := by
  have harm : exec (.commandTake q) s = execCommandTake q s := rfl
  rw [harm, execCommandTake]
  refine ⟨fun p i htakes hcalm hon hcommand hitem => ?_, fun hnot => ?_⟩
  · rw [if_pos ⟨htakes, by simp [hcalm], hon, hcommand⟩, Hub.commandTake_item hitem]
    exact ⟨fun hroom => by rw [if_pos hroom], fun hfull => by rw [if_neg (by simp [hfull])]⟩
  · rw [if_neg]
    rintro ⟨htakes, hcalm, hon, hcommand⟩
    rcases hnot with h | h | h | h
    · rw [h] at htakes
      cases htakes
    · rw [h] at hcalm
      cases hcalm
    · rw [h] at hon
      cases hon
    · rw [h] at hcommand
      cases hcommand

/-- Settles O39: doorbells that ring nothing, doorbells that ring, and the commands they announce. -/
theorem doorbellsAndCommands : Obligations.DoorbellsAndCommands := by
  refine ⟨fun fn q index s => ?_, commandTake_inTurn⟩
  obtain ⟨hdown, hunreached, hwords⟩ := doorbells_unrung fn q index s
  exact ⟨hdown, hunreached, hwords, doorbells_rung fn q index s⟩

end Sys2Proof.Machine
end

section
/-! SUPPORT. What an event of the whole device leaves of the VFs' windows, and how queue pairs are disabled and flushed (R94, R138, R367, R373). -/

namespace Sys2Proof.Machine

/-! ### Events and the windows of VFs -/

/-- The PF's copy of a register lies below every VF's window. -/
theorem window_ne {k off : Nat} (hk : 0x4000000 ≤ k) (hoff : off < 0x4000000) : k ≠ winKey 0 off := by
  simp only [winKey]
  omega

theorem Hub.logLostFlush_window {h : Hub} (c : h.canon) {k : Nat} (hk : 0x4000000 ≤ k) : (h.logLostFlush 0).rd k = h.rd k := by
  rcases Hub.logLostFlush_regs h 0 with hsame | ⟨lg, n, hput⟩
  · exact Hub.rd_congr hsame k
  · exact (Hub.rd_congr hput k).trans (Hub.logPut_rd_ne c 0 lg _ (window_ne hk (by decide)))

theorem Hub.logDrop_window {h : Hub} (c : h.canon) {k : Nat} (hk : 0x4000000 ≤ k) : (h.logDrop 0).rd k = h.rd k := by
  unfold Hub.logDrop
  extract_lets n kk cc h1 h2
  have hcanon1 : h1.canon := c
  have hrd1 : h1.rd k = h.rd k := rfl
  clear_value h1
  have hne : k ≠ kk := window_ne hk (by decide)
  have hcanon2 : h2.canon := by
    simp only [h2]
    split
    · exact hcanon1
    · exact Hub.wr_canon _ _ _ hcanon1
  have hrd2 : h2.rd k = h.rd k := by
    simp only [h2]
    split
    · exact hrd1
    · rw [Hub.rd_wr_ne hcanon1 _ _ _ hne, hrd1]
  clear_value h2
  have hevt : k ≠ evtOff 0x0508 0 := by
    have : evtOff 0x0508 0 = 0x200080 := by decide
    omega
  split
  · split
    · rw [Hub.route_rd, Hub.evtSet_rd hcanon2 _ _ _ hevt, hrd2]
    · rw [Hub.evtSet_rd hcanon2 _ _ _ hevt, hrd2]
  · exact hrd2

theorem Hub.logPlace_window {h : Hub} (c : h.canon) (ev : Ev) (sec ns : Nat) {k : Nat} (hk : 0x4000000 ≤ k) :
    (h.logPlace 0 ev sec ns).rd k = h.rd k := by
  unfold Hub.logPlace
  split
  · exact Hub.logDrop_window c hk
  · extract_lets used
    split
    · rw [Hub.logPut_rd_ne (Hub.logLostFlush_canon _ _ c) 0 _ _ (window_ne hk (by decide)), Hub.logLostFlush_window c hk]
    · exact Hub.logDrop_window c hk

theorem Hub.logAppend_window {h : Hub} (c : h.canon) (ev : Ev) (sec ns : Nat) {k : Nat} (hk : 0x4000000 ≤ k) :
    (h.logAppend 0 ev sec ns).rd k = h.rd k := by
  unfold Hub.logAppend
  extract_lets h1
  have hcanon1 : h1.canon := Hub.route_canon _ _ _ (Hub.logPlace_canon _ _ _ _ _ c)
  have hrd1 : h1.rd k = h.rd k := by
    simp only [h1]
    rw [Hub.route_rd, Hub.logPlace_window c _ _ _ hk]
  clear_value h1
  have hevt : k ≠ evtOff 0x0509 0 := by
    have : evtOff 0x0509 0 = 0x200080 := by decide
    omega
  split
  · unfold Hub.lchStuck
    extract_lets h2
    have hcanon2 : h2.canon := Hub.evtSet_canon _ _ _ hcanon1
    have hrd2 : h2.rd k = h.rd k := (Hub.evtSet_rd hcanon1 _ _ _ hevt).trans hrd1
    clear_value h2
    split
    · rw [Hub.route_rd, Hub.logPlace_window hcanon2 _ _ _ hk, hrd2]
    · exact hrd2
  · exact hrd1

/-- An event that names no sash changes nothing in the window of a VF (R93, R94). -/
theorem Hub.raise_window {h : Hub} (c : h.canon) (ev : Ev) {k : Nat} (hsash : ¬ev.sash < 1024) (hevt : evtOff ev.code ev.inst < 0x4000000)
    (hk : 0x4000000 ≤ k) : (h.raise ev).rd k = h.rd k := by
  have hset : (h.evtSet ev.code ev.inst).rd k = h.rd k := Hub.evtSet_rd c _ _ _ (by omega)
  unfold Hub.raise
  split
  · split
    · unfold Hub.record
      dsimp only
      rw [if_neg hsash, if_pos (Or.inl rfl), Hub.logAppend_window (Hub.evtSet_canon _ _ _ c) _ _ _ hk, hset]
    · exact hset
  · rfl

/-! ### Queue pairs -/

theorem qpEnable_ne_fifoIdx (q n : Nat) : HIF.QP_CFG.ENABLE.off q 0 ≠ QSC.FIFO_IDX.INDEX.off n 0 := by
  simp only [Fld.off, HIF.QP_CFG.ENABLE, QSC.FIFO_IDX.INDEX]
  omega

/-- A flush of a queue pair writes the indices of its two rings. -/
theorem Hub.qpFlush_rd {h : Hub} (c : h.canon) (q : Nat) {k : Nat} (heven : k ≠ QSC.FIFO_IDX.INDEX.off (2 * q) 0)
    (hodd : k ≠ QSC.FIFO_IDX.INDEX.off (2 * q + 1) 0) : (h.qpFlush q).rd k = h.rd k :=
  (Hub.fifoFlush_rd (Hub.fifoFlush_canon h (2 * q) c) _ hodd).trans (Hub.fifoFlush_rd c _ heven)

/-- Both rings of a flushed queue pair are empty (R367). -/
theorem Hub.qpFlush_empty {h : Hub} (c : h.canon) (q : Nat) : (h.qpFlush q).fifoUsed (2 * q) = 0 ∧ (h.qpFlush q).fifoUsed (2 * q + 1) = 0 := by
  have hodd : ∀ a : Hub, (a.fifoFlush (2 * q + 1)).fifoUsed (2 * q) = a.fifoUsed (2 * q) := fun a => by
    have hidx : (a.fifoFlush (2 * q + 1)).fifoIdx (2 * q) = a.fifoIdx (2 * q) := by
      rw [Hub.fifoFlush, if_pos (by omega), Hub.setFifo_fifoIdx]
    simp only [Hub.fifoUsed, Hub.fifoProd, Hub.fifoCons, if_neg (show ¬2 * q % 2 = 1 by omega), Hub.fifoFlush_fifo a (show 2 * q ≠ 2 * q + 1 by omega), hidx]
  exact ⟨(hodd _).trans (Hub.fifoFlush_empty c _).1, (Hub.fifoFlush_empty (Hub.fifoFlush_canon h (2 * q) c) _).1⟩

/-- A queue pair is disabled, and no other. -/
theorem Hub.qpDisable_enable {h : Hub} (c : h.canon) (q j : Nat) :
    (h.qpDisable q).get1 HIF.QP_CFG.ENABLE j = if j = q then 0 else h.get1 HIF.QP_CFG.ENABLE j := by
  have hset := Hub.set1_canon h HIF.QP_CFG.ENABLE q 0 c
  rw [Hub.qpDisable, Hub.get1_of_rd _ _ (Hub.qpFlush_rd hset q (qpEnable_ne_fifoIdx j _) (qpEnable_ne_fifoIdx j _))]
  split
  next heq =>
    subst heq
    rw [Hub.get1_set1_self c _ _ _ (by decide), Nat.zero_mod]
  next hne =>
    refine Hub.get1_of_rd _ _ (Hub.rd_set2_ne c _ _ _ _ _ ?_)
    simp only [Fld.off, HIF.QP_CFG.ENABLE]
    omega

/-- A step that disables one queue pair and enables none, over a list: each listed is disabled. -/
theorem Hub.disabled_foldl {f : Hub → Nat → Hub} (hcanon : ∀ a q, a.canon → (f a q).canon)
    (hf : ∀ a q j, a.canon → j = q ∨ a.get1 HIF.QP_CFG.ENABLE j = 0 → (f a q).get1 HIF.QP_CFG.ENABLE j = 0) (l : List Nat) {h : Hub} (c : h.canon) :
    (l.foldl f h).canon ∧ ∀ q, q ∈ l ∨ h.get1 HIF.QP_CFG.ENABLE q = 0 → (l.foldl f h).get1 HIF.QP_CFG.ENABLE q = 0 := by
  induction l generalizing h with
  | nil => exact ⟨c, fun q hq => hq.resolve_left List.not_mem_nil⟩
  | cons x t ih =>
    obtain ⟨hlast, hall⟩ := ih (hcanon h x c)
    refine ⟨hlast, fun q hq => hall q ?_⟩
    rcases hq with hmem | hzero
    · rcases List.mem_cons.mp hmem with rfl | htail
      · exact .inr (hf h q q c (.inl rfl))
      · exact .inl htail
    · exact .inr (hf h x q c (.inr hzero))

theorem Hub.qpDisable_off {h : Hub} (c : h.canon) (q j : Nat) (hj : j = q ∨ h.get1 HIF.QP_CFG.ENABLE j = 0) :
    (h.qpDisable q).get1 HIF.QP_CFG.ENABLE j = 0 := by
  rw [Hub.qpDisable_enable c]
  split
  · rfl
  next hne => exact hj.resolve_left hne

/-- Every queue pair that is on is disabled. -/
def Hub.allOff (h : Hub) : Hub := (List.range 1024).foldl (fun h q => if h.qpOn q then h.qpDisable q else h) h

theorem Hub.allOff_disabled {h : Hub} (c : h.canon) : h.allOff.canon ∧ ∀ q, q < 1024 → h.allOff.get1 HIF.QP_CFG.ENABLE q = 0 := by
  obtain ⟨hcanon, hall⟩ := Hub.disabled_foldl (f := fun h q => if h.qpOn q then h.qpDisable q else h) (fun a q ha => by
    split
    · exact Hub.qpDisable_canon a q ha
    · exact ha) (fun a q j ha hj => by
    split
    · exact Hub.qpDisable_off ha q j hj
    next hoff =>
      have hbit : a.get1 HIF.QP_CFG.ENABLE q < 2 := Fld.of_lt HIF.QP_CFG.ENABLE _
      simp only [Hub.qpOn, beq_iff_eq] at hoff
      rcases hj with rfl | hj
      · omega
      · exact hj) (List.range 1024) c
  exact ⟨hcanon, fun q hq => hall q (.inl (List.mem_range.mpr hq))⟩

/-- A reset window reads its registers' reset values; other windows are as they were. -/
theorem Hub.windowReset_rd {h : Hub} (c : h.canon) (v k : Nat) : (h.windowReset v).rd k = if k / 0x4000000 = v then regReset k else h.rd k := by
  have hread := kvRead_filter regReset (fun e : Nat × Word => e.1 / 0x4000000 != v) h.regs k (Hub.sorted c)
  refine hread.trans ?_
  by_cases hk : k / 0x4000000 = v
  · rw [if_neg (by simp [hk]), if_pos hk]
  · rw [if_pos (by simp [hk]), if_neg hk]
    rfl

theorem Hub.numVfs_of_still {a b : Hub} (h : a.still = b.still) : a.numVfs = b.numVfs := congrArg (·.2.2.1.1) h
theorem Hub.linkLost_of_still {a b : Hub} (h : a.still = b.still) : a.linkLost = b.linkLost := congrArg (·.2.1.2.2.2.1) h

/-! ### A write of a queue pair's registers -/

/-- What a write of a queue pair's register stores. -/
def qpStored (off : Nat) (val : Word) : Word := if (off - 0x2004000) % 32 = 0 then val &&& ~~~(0x1FFFF800 : Word) else val

theorem qpStored_enable (off : Nat) (val : Word) : (qpStored off val).getLsbD 31 = val.getLsbD 31 := by
  unfold qpStored
  split
  · rw [BitVec.getLsbD_and]
    have hmask : (~~~(0x1FFFF800 : Word)).getLsbD 31 = true := by decide
    rw [hmask, Bool.and_true]
  · rfl

/-- A register of a queue pair is none of a FIFO's indices. -/
theorem qpOff_ne_fifoIdx {off n : Nat} (hlo : 0x2004000 ≤ off) (hn : n < 2048) : off ≠ QSC.FIFO_IDX.INDEX.off n 0 := by
  simp only [Fld.off, QSC.FIFO_IDX.INDEX]
  omega

/-- A write of a queue pair's register stores its bits, and flushes where it changes ENABLE or a ring address (R367). -/
theorem Hub.qpWrite_eq (h : Hub) (off : Nat) (val : Word) : h.qpWrite off val =
    if ((off - 0x2004000) % 32 = 0 ∧ (h.rd off).getLsbD 31 ≠ val.getLsbD 31) ∨
        ((off - 0x2004000) % 32 ≠ 0 ∧ (off - 0x2004000) % 32 ≤ 0x10 ∧ h.rd off ≠ val) then
      (h.wr off (qpStored off val)).qpFlush ((off - 0x2004000) / 32)
    else h.wr off (qpStored off val) := by
  have hdef : h.qpWrite off val =
      if (off - 0x2004000) % 32 = 0 then (if (h.rd off).getLsbD 31 ≠ (qpStored off val).getLsbD 31 then
        (h.wr off (qpStored off val)).qpFlush ((off - 0x2004000) / 32) else h.wr off (qpStored off val))
      else if (off - 0x2004000) % 32 ≤ 0x10 then (if h.rd off ≠ qpStored off val then
        (h.wr off (qpStored off val)).qpFlush ((off - 0x2004000) / 32) else h.wr off (qpStored off val))
      else h.wr off (qpStored off val) := rfl
  rw [hdef, qpStored_enable]
  by_cases hcfg : (off - 0x2004000) % 32 = 0
  · simp only [hcfg, if_true, true_and, ne_eq, not_true_eq_false, false_and, or_false]
  · have hstored : qpStored off val = val := if_neg hcfg
    by_cases hring : (off - 0x2004000) % 32 ≤ 0x10
    · simp only [hcfg, hring, hstored, if_false, if_true, false_and, ne_eq, not_false_eq_true, true_and, false_or]
    · simp only [hcfg, hring, if_false, false_and, and_false, or_self]

theorem exec_qpCfgWrite {fn off : Nat} {s : State} (val : Word) (hin : s.hub.hostIn = true) (hlo : 0x2004000 ≤ off) (hhi : off < 0x200C000)
    (halign : off % 4 = 0) (hreg : (off - 0x2004000) % 32 ≤ 0x18) (hreach : s.hub.reachesQp fn ((off - 0x2004000) / 32) = true) :
    exec (.qpCfgWrite fn off val) s = .next { s with hub := s.hub.qpWrite off val } := by
  have harm : exec (.qpCfgWrite fn off val) s = execQpCfgWrite fn off val s := rfl
  rw [harm, execQpCfgWrite, if_pos ⟨hin, hlo, hhi, halign, hreg, hreach⟩]

end Sys2Proof.Machine
end

section
/-! SETTLED. Queue pair configuration, function resets and the PCIe link (R367, R373, Table 19.6). -/

namespace Sys2Proof.Machine

/-- A write of a queue pair's registers (R367). -/
theorem qpCfgWrite_stores (fn off : Nat) (val : Word) (s : State) (hcanon : s.canon) (hin : s.hub.hostIn = true) (hlo : 0x2004000 ≤ off)
    (hhi : off < 0x200C000) (halign : off % 4 = 0) (hreg : (off - 0x2004000) % 32 ≤ 0x18)
    (hreach : s.hub.reachesQp fn ((off - 0x2004000) / 32) = true) :
    ∃ t, exec (.qpCfgWrite fn off val) s = .next t ∧
      t.hub.rd off = (if (off - 0x2004000) % 32 = 0 then val &&& ~~~(0x1FFFF800 : Word) else val) ∧
      ((off - 0x2004000) % 32 = 0 → (s.hub.rd off).getLsbD 31 ≠ val.getLsbD 31 →
        t.hub.fifoUsed (2 * ((off - 0x2004000) / 32)) = 0 ∧ t.hub.fifoUsed (2 * ((off - 0x2004000) / 32) + 1) = 0) ∧
      ((off - 0x2004000) % 32 ≠ 0 → (off - 0x2004000) % 32 ≤ 0x10 → s.hub.rd off ≠ val →
        t.hub.fifoUsed (2 * ((off - 0x2004000) / 32)) = 0 ∧ t.hub.fifoUsed (2 * ((off - 0x2004000) / 32) + 1) = 0) ∧
      (0x10 < (off - 0x2004000) % 32 → t = { s with hub := s.hub.wr off val }) := by
  have hhub := State.canon_hub hcanon
  have hwr := Hub.wr_canon s.hub off (qpStored off val) hhub
  have hflush := Hub.qpFlush_empty hwr ((off - 0x2004000) / 32)
  refine ⟨_, exec_qpCfgWrite val hin hlo hhi halign hreg hreach, ?_, fun hcfg hchange => ?_, fun hring hregRing hchange => ?_, fun hwb => ?_⟩
  · dsimp only
    rw [Hub.qpWrite_eq]
    split
    · rw [Hub.qpFlush_rd hwr _ (qpOff_ne_fifoIdx hlo (by omega)) (qpOff_ne_fifoIdx hlo (by omega)), Hub.rd_wr_self hhub]
      rfl
    · rw [Hub.rd_wr_self hhub]
      rfl
  · dsimp only
    rw [Hub.qpWrite_eq, if_pos (Or.inl ⟨hcfg, hchange⟩)]
    exact hflush
  · dsimp only
    rw [Hub.qpWrite_eq, if_pos (Or.inr ⟨hring, hregRing, hchange⟩)]
    exact hflush
  · have hstored : qpStored off val = val := if_neg (by omega)
    rw [Hub.qpWrite_eq, if_neg (by omega), hstored]

/-- A VF reset (Table 19.6). -/
theorem vfFlr_resets (vf : Nat) (s : State) (hcanon : s.canon) (hpos : 0 < vf) (hen : vf ≤ s.hub.numVfs) :
    ∃ t, exec (.vfFlr vf) s = .next t ∧ (∀ q, q < 1024 → s.hub.owner HIF.VF_QP.BASE q = vf → t.hub.get1 HIF.QP_CFG.ENABLE q = 0) ∧
      (∀ k, k / 0x4000000 = vf → t.hub.rd k = regReset k) ∧ t = { s with hub := t.hub } := by
  have harm : exec (.vfFlr vf) s = execVfFlr vf s := rfl
  rw [harm, execVfFlr, if_neg (by omega)]
  have hlisted : ∀ q, q < 1024 → s.hub.owner HIF.VF_QP.BASE q = vf → q ∈ s.hub.vfQps vf := fun q hq howner =>
    List.mem_filter.mpr ⟨List.mem_range.mpr hq, decide_eq_true howner⟩
  obtain ⟨hoffCanon, hoff⟩ := Hub.disabled_foldl (f := Hub.qpDisable) (fun a q ha => Hub.qpDisable_canon a q ha)
    (fun a q j ha hj => Hub.qpDisable_off ha q j hj) (s.hub.vfQps vf) (State.canon_hub hcanon)
  generalize (s.hub.vfQps vf).foldl Hub.qpDisable s.hub = a at hoffCanon hoff ⊢
  have hreset := Hub.windowReset_canon a vf hoffCanon
  have hevt : evtOff 0x1402 0 = 0x2000100 := by decide
  refine ⟨_, rfl, fun q hq howner => ?_, fun k hk => ?_, rfl⟩
  · have hsmall : HIF.QP_CFG.ENABLE.off q 0 < 0x4000000 ∧ HIF.QP_CFG.ENABLE.off q 0 ≠ 0x2000100 ∧ offLog (HIF.QP_CFG.ENABLE.off q 0) := by
      simp only [Fld.off, HIF.QP_CFG.ENABLE, offLog]
      omega
    obtain ⟨hpf, hne, hlog⟩ := hsmall
    have hwindow : (a.windowReset vf).rd (HIF.QP_CFG.ENABLE.off q 0) = a.rd (HIF.QP_CFG.ENABLE.off q 0) :=
      (Hub.windowReset_rd hoffCanon vf _).trans (if_neg (by omega))
    dsimp only
    rw [Hub.raise_get1 hreset { code := 0x1402, detail := [vf] } HIF.QP_CFG.ENABLE q rfl rfl (by rw [hevt]; exact hne) hlog,
      Hub.get1_of_rd _ _ hwindow]
    exact hoff q (.inl (hlisted q hq howner))
  · have hwindow := Hub.windowReset_rd hoffCanon vf k
    dsimp only
    rw [Hub.raise_window hreset { code := 0x1402, detail := [vf] } (Nat.not_lt.mpr (show 1024 ≤ 0xFFFF by decide)) (hevt ▸ (by decide)) (by omega),
      hwindow, if_pos hk]

/-- Marking the link as lost or trained changes no register. -/
theorem Hub.marked_get (h : Hub) (lost : Bool) (vfs : Nat) (f : Fld) : ({ h with linkLost := lost, numVfs := vfs } : Hub).get f = h.get f := rfl

/-- What a lost link shows in `HIF.LINK`, and what it leaves of the queue pairs' ENABLE. -/
theorem Hub.linkDown_shows {h : Hub} (c : h.canon) :
    let u := ({ h.set HIF.LINK.GEN 0 with linkLost := true, numVfs := 0 } : Hub).set HIF.LINK.WIDTH 0
    u.get HIF.LINK.GEN = 0 ∧ u.get HIF.LINK.WIDTH = 0 ∧ ∀ q, u.get1 HIF.QP_CFG.ENABLE q = h.get1 HIF.QP_CFG.ENABLE q := by
  intro u
  have hset := Hub.set_canon h HIF.LINK.GEN 0 c
  have hmarked : ({ h.set HIF.LINK.GEN 0 with linkLost := true, numVfs := 0 } : Hub).canon := hset
  refine ⟨?_, ?_, fun q => ?_⟩
  · rw [Hub.get_set_field hmarked HIF.LINK.WIDTH HIF.LINK.GEN 0 rfl (by decide) (by decide), Hub.marked_get, Hub.get_set_self c _ _ (by decide),
      Nat.zero_mod]
  · rw [Hub.get_set_self hmarked _ _ (by decide), Nat.zero_mod]
  · have hne : HIF.QP_CFG.ENABLE.off q 0 ≠ 0x2000000 := by
      simp only [Fld.off, HIF.QP_CFG.ENABLE]
      omega
    refine Hub.get1_of_rd HIF.QP_CFG.ENABLE q ((Hub.rd_set2_ne hmarked HIF.LINK.WIDTH 0 0 0 _ hne).trans ?_)
    exact Hub.rd_set2_ne c HIF.LINK.GEN 0 0 0 _ hne

theorem exec_pcieLinkDown (s : State) : exec .pcieLinkDown s = .next { s.islandLost .pcie with
    hub := ({ (s.islandLost .pcie).hub.allOff.set HIF.LINK.GEN 0 with linkLost := true, numVfs := 0 } : Hub).set HIF.LINK.WIDTH 0 } := rfl

/-- A link that is lost (Table 19.6). -/
theorem pcieLinkDown_loses (s : State) (hcanon : s.canon) :
    ∃ t, exec .pcieLinkDown s = .next t ∧ (∀ q, q < 1024 → t.hub.get1 HIF.QP_CFG.ENABLE q = 0) ∧ t.hub.numVfs = 0 ∧
      t.hub.linkLost = true ∧ t.hub.get HIF.LINK.GEN = 0 ∧ t.hub.get HIF.LINK.WIDTH = 0 ∧ .pcie ∈ t.fab.down ∧ t.mem = s.mem := by
  have hlost := State.islandLost_canon s .pcie hcanon
  have hislands : .pcie ∈ (s.islandLost .pcie).fab.down ∧ (s.islandLost .pcie).mem = s.mem := by
    unfold State.islandLost
    split
    · exact ⟨List.mem_append_right _ List.mem_cons_self, rfl⟩
    next hup => exact ⟨by simpa [State.up] using hup, rfl⟩
  obtain ⟨hdown, hmem⟩ := hislands
  obtain ⟨hoffCanon, hoff⟩ := Hub.allOff_disabled (State.canon_hub hlost)
  obtain ⟨hgen, hwidth, hkeeps⟩ := Hub.linkDown_shows hoffCanon
  exact ⟨_, exec_pcieLinkDown s, fun q hq => (hkeeps q).trans (hoff q hq), rfl, rfl, hgen, hwidth, hdown, hmem⟩

/-- What a link up shows in `HIF.LINK`. -/
theorem Hub.linkUp_shows {h : Hub} (c : h.canon) (gen width mps : Nat) (hgen : gen < 8) (hwidth : width ≤ 16) :
    let u := ((h.set HIF.LINK.GEN gen).set HIF.LINK.WIDTH width).set HIF.LINK.MPS (min mps 5)
    u.canon ∧ u.get HIF.LINK.GEN = gen ∧ u.get HIF.LINK.WIDTH = width ∧ u.get HIF.LINK.MPS = min mps 5 := by
  intro u
  have c1 := Hub.set_canon h HIF.LINK.GEN gen c
  have c2 := Hub.set_canon _ HIF.LINK.WIDTH width c1
  refine ⟨Hub.set_canon _ HIF.LINK.MPS _ c2, ?_, ?_, ?_⟩
  · rw [Hub.get_set_field c2 HIF.LINK.MPS HIF.LINK.GEN _ rfl (by decide) (by decide),
      Hub.get_set_field c1 HIF.LINK.WIDTH HIF.LINK.GEN _ rfl (by decide) (by decide), Hub.get_set_self c _ _ (by decide)]
    exact Nat.mod_eq_of_lt (show gen < 16 by omega)
  · rw [Hub.get_set_field c2 HIF.LINK.MPS HIF.LINK.WIDTH _ rfl (by decide) (by decide), Hub.get_set_self c1 _ _ (by decide)]
    exact Nat.mod_eq_of_lt (show width < 32 by omega)
  · rw [Hub.get_set_self c2 _ _ (by decide)]
    exact Nat.mod_eq_of_lt (show min mps 5 < 8 by omega)

/-- The event of a link that is up again leaves what `HIF.LINK` shows. -/
theorem Hub.linkUp_raised {u : Hub} (c : u.canon) (vfs : Nat) (det : List Nat) (f : Fld) (hf : f.off 0 0 = 0x2000000) :
    (({ u with linkLost := false, numVfs := vfs } : Hub).raise { code := 0x1403, detail := det }).get f = u.get f := by
  have hmarked : ({ u with linkLost := false, numVfs := vfs } : Hub).canon := c
  have hevt : evtOff 0x1403 0 = 0x2000100 := by decide
  rw [Hub.raise_get hmarked { code := 0x1403, detail := det } f 0x1403 0 rfl rfl (by rw [hf, hevt]; decide) (by rw [hf]; decide), Hub.marked_get]

theorem exec_pcieLinkUp (gen width mps vfs : Nat) (s : State) : exec (.pcieLinkUp gen width mps vfs) s = .next { s.islandBack .pcie with
    hub := if s.hub.linkLost then
        ({ (((s.islandBack .pcie).hub.set HIF.LINK.GEN gen).set HIF.LINK.WIDTH width).set HIF.LINK.MPS (min mps 5) with
          linkLost := false, numVfs := min vfs 63 } : Hub).raise { code := 0x1403, detail := [gen, width] }
      else { (((s.islandBack .pcie).hub.set HIF.LINK.GEN gen).set HIF.LINK.WIDTH width).set HIF.LINK.MPS (min mps 5) with
        linkLost := false, numVfs := min vfs 63 } } := rfl

/-- A link that is trained (Table 19.6). -/
theorem pcieLinkUp_shows (gen width mps vfs : Nat) (s : State) (hcanon : s.canon) (hgen : gen < 8) (hwidth : width ≤ 16) :
    ∃ t, exec (.pcieLinkUp gen width mps vfs) s = .next t ∧ t.hub.get HIF.LINK.GEN = gen ∧ t.hub.get HIF.LINK.WIDTH = width ∧
      t.hub.get HIF.LINK.MPS = min mps 5 ∧ t.hub.numVfs = min vfs 63 ∧ t.hub.linkLost = false ∧ .pcie ∉ t.fab.down := by
  have hback : (s.islandBack .pcie).hub.canon := State.canon_hub (State.islandBack_canon s .pcie hcanon)
  have hdown : .pcie ∉ (s.islandBack .pcie).fab.down := by simp [State.islandBack]
  obtain ⟨hcanonUp, hg, hw, hm⟩ := Hub.linkUp_shows hback gen width mps hgen hwidth
  refine ⟨_, exec_pcieLinkUp gen width mps vfs s, ?_⟩
  dsimp only
  generalize (((s.islandBack .pcie).hub.set HIF.LINK.GEN gen).set HIF.LINK.WIDTH width).set HIF.LINK.MPS (min mps 5) = u at hcanonUp hg hw hm
  split
  · have hstill := Hub.raise_still ({ u with linkLost := false, numVfs := min vfs 63 } : Hub) { code := 0x1403, detail := [gen, width] }
    have hkeeps := Hub.linkUp_raised hcanonUp (min vfs 63) [gen, width]
    exact ⟨(hkeeps _ (by decide)).trans hg, (hkeeps _ (by decide)).trans hw, (hkeeps _ (by decide)).trans hm, Hub.numVfs_of_still hstill,
      Hub.linkLost_of_still hstill, hdown⟩
  · exact ⟨(Hub.marked_get ..).trans hg, (Hub.marked_get ..).trans hw, (Hub.marked_get ..).trans hm, rfl, rfl, hdown⟩

/-- Settles O40: the write of a queue pair's registers, and each event of Table 19.6. -/
theorem queuePairsAndResets : Obligations.QueuePairsAndResets := by
  refine ⟨qpCfgWrite_stores, fun vf s hcanon hpos hen _ => vfFlr_resets vf s hcanon hpos hen, fun vf s hnot => ?_, pcieLinkDown_loses, pcieLinkUp_shows⟩
  have harm : exec (.vfFlr vf) s = execVfFlr vf s := rfl
  rw [harm, execVfFlr, if_pos hnot]

end Sys2Proof.Machine
end

-- ==== Support for O41: encoder inputs and release rows ====
section
/-!
SUPPORT. The encoders' maps: what is read of a side, a share or a frame after it is put, and what the work on a frame is when
its paths are in force.
-/

namespace Sys2Proof.Machine

theorem EncSt.side_setSide (e : EncSt) (u n : Nat) (x : EncSide) : (e.setSide u n x).side u n = x := by
  simp only [EncSt.setSide, EncSt.side, kvGet_kvPut_self, Option.getD_some]

theorem EncSt.share_setShare (e : EncSt) (u n r : Nat) (x : EncShare) : (e.setShare u n r x).share u n r = x := by
  simp only [EncSt.setShare, EncSt.share, kvGet_kvPut_self, Option.getD_some]

/-- A frame put in place of one of the same number is the one found under that number. -/
theorem EncShare.frame_setFrame (x : EncShare) (f : EncFrame) (n : Nat) (o : EncFrame) (h : x.frame n = some o) (hf : f.num = n) :
    (x.setFrame f).frame n = some f := by
  subst hf
  obtain ⟨l, normal, lastQp, lastTarget, excess⟩ := x
  simp only [EncShare.frame, EncShare.setFrame] at *
  induction l with
  | nil => simp at h
  | cons a l ih =>
    by_cases ha : a.num = f.num
    · rw [List.map_cons, List.find?_cons_of_pos (by simp [ha]), if_pos ha]
    · rw [List.find?_cons_of_neg (by simpa using ha)] at h
      rw [List.map_cons, List.find?_cons_of_neg (by simp [ha])]
      exact ih h

theorem EncShare.frame_num (x : EncShare) (n : Nat) (f : EncFrame) (h : x.frame n = some f) : f.num = n := by
  simpa using List.find?_some h

/-- Work whose path epoch is the one in force runs on the state as it is. -/
theorem State.inEpoch_inForce (s : State) (n : Nat) (epoch : Bool) (work : State → State)
    (h : ∀ d, kvGet n s.fab.olds = some d → epoch = (kvGet n s.fab.epochs).getD false) : s.inEpoch n epoch work = work s := by
  unfold State.inEpoch
  cases ho : kvGet n s.fab.olds with
  | none => rfl
  | some d => exact if_pos (h d ho)

theorem State.inFrame_inForce (s : State) (u n r frame : Nat) (work : EncGeom → EncFrame → State → State) (f : EncFrame) (g : EncGeom)
    (hf : (s.enc.share u n r).frame frame = some f) (hg : s.encGeomOf u n r f.cfg = some g)
    (h : ∀ d, kvGet n s.fab.olds = some d → f.epoch = (kvGet n s.fab.epochs).getD false) :
    s.inFrame u n r frame work = work g f s := by
  unfold State.inFrame
  rw [hf]
  dsimp only
  rw [State.inEpoch_inForce s n f.epoch _ h, hg]

/-- Putting shares one after another changes no other part of the encoders. -/
theorem EncSt.foldl_setShare (u n : Nat) (f : EncSt → Nat → Option EncShare) (l : List Nat) (e : EncSt) :
    let e2 := l.foldl (fun (e : EncSt) r => match f e r with
      | some x => e.setShare u n r x
      | none => e) e
    e2 = { e with shares := e2.shares } := by
  induction l generalizing e with
  | nil => rfl
  | cons r l ih =>
    dsimp only [List.foldl_cons] at ih ⊢
    cases f e r with
    | none => exact ih e
    | some x => rw [ih (e.setShare u n r x)]; rfl

/-- What a missing input of a stripe cuts, over the channel's renditions (R163). -/
def EncSt.cutAll (s : State) (e : EncSt) (u n frame k : Nat) : EncSt :=
  (List.range 8).foldl (fun (e : EncSt) r => match s.encGeom u n r with
    | some gr => e.setShare u n r ((e.share u n r).cut gr r frame k)
    | none => e) e

theorem EncSt.cutAll_shares (s : State) (e : EncSt) (u n frame k : Nat) :
    EncSt.cutAll s e u n frame k = { e with shares := (EncSt.cutAll s e u n frame k).shares } := by
  have h := EncSt.foldl_setShare u n (fun e r => (s.encGeom u n r).map fun gr => (e.share u n r).cut gr r frame k) (List.range 8) e
  have he : EncSt.cutAll s e u n frame k = (List.range 8).foldl (fun (e : EncSt) r =>
      match (s.encGeom u n r).map fun gr => (e.share u n r).cut gr r frame k with
      | some x => e.setShare u n r x
      | none => e) e := by
    unfold EncSt.cutAll
    congr 1
    funext e r
    cases s.encGeom u n r <;> rfl
  rw [he]
  exact h

theorem State.encOnly (s : State) (h : Hub) (e : EncSt) {e1 : EncSt} (he : e = { e1 with shares := e.shares })
    (h1 : e1 = { s.enc with sides := e1.sides } := by rfl) :
    ({ s with hub := h, enc := e } : State) =
      { s with hub := h, enc := { s.enc with sides := e.sides, shares := e.shares } } := by
  rw [he, h1]

/-- The stripe's missing input is noted on the unit's side of the channel, and its errors counted (R163). -/
theorem exec_inputDeadline_missed (u n frame k : Nat) (g : EncGeom) (cf : Nat) (s : State) (hg : s.encGeom u n 0 = some g)
    (hc : kvGet frame (s.enc.side u n).pics = some cf)
    (h : ¬(!g.live ∨ g.n ≤ k ∨ (s.enc.side u n).missed.contains (frame, k) ∨ !s.reached g (g.deadline 0 cf k) 20000 ∨
      (!g.p.src1 ∧ (s.enc.side u n).hasInput g 0 frame k))) :
    ∃ t, exec (.inputDeadline u n frame k) s = .next t ∧ (frame, k) ∈ (t.enc.side u n).missed ∧
      (s.hub.get1 ENC.STATUS.SASH u ≠ n → t.hub = ((s.encErr ENC.IN_MISS.COUNT u 1).encRaise 0x0804 u n frame k).hub) ∧
      t = { s with hub := t.hub, enc := { s.enc with sides := t.enc.sides, shares := t.enc.shares } } := by
  have harm : exec (.inputDeadline u n frame k) s = execInputDeadline u n frame k s := rfl
  rw [harm, execInputDeadline]
  dsimp only
  rw [hg, hc]
  dsimp only
  rw [if_neg h]
  refine ⟨_, rfl, ?_, ?_, ?_⟩
  · have hs := EncSt.cutAll_shares s (((s.encErr ENC.IN_MISS.COUNT u 1).encRaise 0x0804 u n frame k).enc.setSide u n
      { s.enc.side u n with missed := ((s.enc.side u n).missed.filter fun m => !laterThan 32 m.1 frame) ++ [(frame, k)] }) u n frame k
    have hside : ∀ (a b : EncSt), a = { b with shares := a.shares } → a.side u n = b.side u n := fun a b h => by rw [h]; rfl
    have := hside _ _ hs
    rw [EncSt.side_setSide] at this
    exact (congrArg (fun x : EncSide => (frame, k) ∈ x.missed) this).mpr (List.mem_append_right _ (List.mem_singleton_self _))
  · intro hne
    exact if_neg fun hb => hne hb.1
  · exact State.encOnly _ _ _ (EncSt.cutAll_shares s (((s.encErr ENC.IN_MISS.COUNT u 1).encRaise 0x0804 u n frame k).enc.setSide u n
      { s.enc.side u n with missed := ((s.enc.side u n).missed.filter fun m => !laterThan 32 m.1 frame) ++ [(frame, k)] }) u n frame k)

/-- A row that its time finds incomplete or out of turn is noted with its frame, counted and reported (R161). -/
theorem exec_releaseRowTime_late (u n r frame row : Nat) (g : EncGeom) (f : EncFrame) (s : State)
    (hf : (s.enc.share u n r).frame frame = some f) (hg : s.encGeomOf u n r f.cfg = some g)
    (hep : ∀ d, kvGet n s.fab.olds = some d → f.epoch = (kvGet n s.fab.epochs).getD false)
    (h : ¬(!g.live ∨ g.rows ≤ row ∨ row < f.rows ∨ row ∈ f.lateRows ∨ !s.reached g (g.rowTime r f.cf row) 0))
    (hd : ¬(row = f.rows ∧ g.rowDone f row = true)) :
    ∃ t f1, exec (.releaseRowTime u n r frame row) s = .next t ∧ (t.enc.share u n r).frame frame = some f1 ∧
      f1 = { f with lateRows := f.lateRows ++ [row] } ∧
      t = { s with hub := ((s.encErr ENC.LATE.COUNT u 1).encRaise 0x0803 u n frame (row * g.g)).hub
                   enc := { s.enc with shares := t.enc.shares, rends := t.enc.rends } } := by
  have harm : exec (.releaseRowTime u n r frame row) s = execReleaseRowTime u n r frame row s := rfl
  rw [harm, execReleaseRowTime, State.inFrame_inForce s u n r frame _ f g hf hg hep]
  dsimp only
  rw [if_neg h, if_neg hd]
  have hfr : ((s.enc.share u n r).setFrame { f with lateRows := f.lateRows ++ [row] }).frame frame =
      some { f with lateRows := f.lateRows ++ [row] } :=
    EncShare.frame_setFrame _ _ _ f hf (show f.num = frame from EncShare.frame_num _ _ _ hf)
  have hsh := EncSt.share_setShare s.enc u n r ((s.enc.share u n r).setFrame { f with lateRows := f.lateRows ++ [row] })
  split
  · exact ⟨_, _, rfl, (congrArg (·.frame frame) hsh).trans hfr, rfl, rfl⟩
  · exact ⟨_, _, rfl, (congrArg (·.frame frame) hsh).trans hfr, rfl, rfl⟩

end Sys2Proof.Machine
end

-- ==== O41 ====
section
/-!
SETTLED. Encoder inputs, and the release of rows.
-/

namespace Sys2Proof.Machine

/-- Settles O41: header records, pictures and input deadlines by the branches of their commands, the release of rows by the work on a frame
whose paths are in force. -/
theorem encoderInputsAndRows : Obligations.EncoderInputsAndRows := by
  unfold Obligations.EncoderInputsAndRows
  refine ⟨⟨?header, ?picture, ?deadline⟩, ?rows⟩
  case header =>
    intro u n rec s h
    have harm : ∀ p, exec (.headerRecordReceive u n p rec) s = execHeaderRecordReceive u n p rec s := fun _ => rfl
    refine ⟨rfl, fun hg => ?_, fun g hg => ?_⟩
    · rw [harm, execHeaderRecordReceive]
      dsimp only
      rw [if_neg (by simp), hg]
    · intro misfit
      refine ⟨fun hm => ?_, fun hm hh => ?_, fun hm hh hn => ?_⟩
      · rw [harm, execHeaderRecordReceive]
        dsimp only
        rw [if_neg (by simp), hg]
        exact congrArg Host.Outcome.next (if_pos hm)
      · rw [harm, execHeaderRecordReceive]
        dsimp only
        rw [if_neg (by simp), hg]
        exact congrArg Host.Outcome.next ((if_neg hm).trans (if_pos hh))
      · refine ⟨{ s with enc := s.enc.setSide u n { s.enc.side u n with held := (s.enc.side u n).held ++ [h] } }, ?_,
          congrArg EncSide.held (EncSt.side_setSide _ _ _ _), rfl⟩
        rw [harm, execHeaderRecordReceive]
        dsimp only
        rw [if_neg (by simp), hg]
        exact congrArg Host.Outcome.next ((if_neg hm).trans ((if_neg (Nat.not_le.mpr hh)).trans (if_pos hn)))
  case picture =>
    intro u n desc s
    have harm : exec (.pictureDescriptorReceive u n desc) s = execPictureDescriptorReceive u n desc s := rfl
    refine ⟨fun h => ?_, fun h0 h1 => ?_⟩
    · rw [harm, execPictureDescriptorReceive]
      exact congrArg Host.Outcome.next (if_pos (h.symm.imp (by simp [·]) id))
    · rw [harm, execPictureDescriptorReceive]
      dsimp only
      rw [if_neg (by simp [h0, h1])]
      refine ⟨_, rfl, congrArg EncSide.numbered (EncSt.side_setSide _ _ _ _), ?_, rfl⟩
      exact (congrArg (fun x : EncSide => kvGet (s.enc.side u n).numbered x.pics) (EncSt.side_setSide _ _ _ _)).trans (kvGet_kvPut_self _ _ _)
  case deadline =>
    intro u n frame k cf g s hg hc stays
    have hiff : stays ↔ (!g.live ∨ g.n ≤ k ∨ (s.enc.side u n).missed.contains (frame, k) ∨ !s.reached g (g.deadline 0 cf k) 20000 ∨
        (!g.p.src1 ∧ (s.enc.side u n).hasInput g 0 frame k)) := by
      simp [stays]
    refine ⟨fun h => ?_, fun h => exec_inputDeadline_missed u n frame k g cf s hg hc fun hh => h (hiff.mpr hh)⟩
    have harm : exec (.inputDeadline u n frame k) s = execInputDeadline u n frame k s := rfl
    rw [harm, execInputDeadline]
    dsimp only
    rw [hg, hc]
    exact congrArg Host.Outcome.next (if_pos (hiff.mp h))
  case rows =>
    intro u n r frame row g f s hf hg hep stays
    have hiff : stays ↔ (!g.live ∨ g.rows ≤ row ∨ row < f.rows ∨ row ∈ f.lateRows ∨ !s.reached g (g.rowTime r f.cf row) 0) := by
      simp [stays]
    have harm : exec (.releaseRowTime u n r frame row) s = execReleaseRowTime u n r frame row s := rfl
    have hlarm : exec (.lateRowRelease u n r frame row) s = execLateRowRelease u n r frame row s := rfl
    rw [hlarm, execLateRowRelease, State.inFrame_inForce s u n r frame _ f g hf hg hep]
    refine ⟨fun h => ?_, fun h hr hd => ?_, fun h hd =>
      exec_releaseRowTime_late u n r frame row g f s hf hg hep (fun hh => h (hiff.mpr hh)) hd,
      fun hl hr hd => congrArg Host.Outcome.next (if_pos ⟨hl, hr, hd⟩), fun h => congrArg Host.Outcome.next (if_neg h)⟩
    · rw [harm, execReleaseRowTime, State.inFrame_inForce s u n r frame _ f g hf hg hep]
      exact congrArg Host.Outcome.next (if_pos (hiff.mp h))
    · rw [harm, execReleaseRowTime, State.inFrame_inForce s u n r frame _ f g hf hg hep]
      exact congrArg Host.Outcome.next ((if_neg fun hh => h (hiff.mpr hh)).trans (if_pos ⟨hr, hd⟩))

end Sys2Proof.Machine
end

-- ==== Support for O42: stripes ====
section
/-!
SUPPORT. What a mode decision keeps below CAP, and the frame and the stripe at the end of a share after one of its blocks is coded.
-/

namespace Sys2Proof.Machine

theorem encDecide_normal (mode bc fl cp later cap : Nat) (h : encDecide mode bc fl cp later cap = 0) :
    (mode = 0 ∨ 3 ≤ mode) ∧ bc + (later + 1) * fl ≤ cap := by
  unfold encDecide at h
  repeat' split at h
  all_goals omega

theorem encDecide_floor (mode bc fl cp later cap : Nat) (h : encDecide mode bc fl cp later cap = 1) : bc + fl + later * cp ≤ cap := by
  unfold encDecide at h
  repeat' split at h
  all_goals omega

theorem encDecide_copy (bc fl cp later cap : Nat) : encDecide 2 bc fl cp later cap = 2 := if_pos rfl

/-- A frame put in place of the last one, by its number, is the last one. -/
theorem EncShare.last_setFrame (x : EncShare) (f o : EncFrame) (h : x.last = some o) (hf : o.num = f.num) : (x.setFrame f).last = some f := by
  simp only [EncShare.last, EncShare.setFrame, List.getLast?_map] at *
  simp [h, hf]

/-- Once the stripe in work has been replaced by its number, by one that is not done either, that one is the stripe in work. -/
theorem find_undone_replaced (l : List EncStripe) (t t1 : EncStripe) (h : l.find? (!·.done) = some t) (h1 : t1.done = false) :
    (l.map fun o => if o.k = t.k then t1 else o).find? (!·.done) = some t1 := by
  induction l with
  | nil => simp at h
  | cons a l ih =>
    rw [List.map_cons]
    by_cases hk : a.k = t.k
    · rw [if_pos hk, List.find?_cons_of_pos (by simp [h1])]
    · rw [if_neg hk]
      by_cases hd : a.done = true
      · rw [List.find?_cons_of_neg (by simp [hd])] at h ⊢
        exact ih h
      · rw [List.find?_cons_of_pos (by simp [hd])] at h
        exact absurd (congrArg EncStripe.k (Option.some.inj h)) hk

/-- A block that its stripe's mode and CAP allow, on which the pipelines agree, adds its bits and its time to the stripe in work (R168). -/
theorem exec_blockCoded_adds (x : EncBlock) (g : EncGeom) (f : EncFrame) (t : EncStripe) (s : State)
    (hl : (s.enc.share x.unit x.sash x.rend).last = some f) (hf : (s.enc.share x.unit x.sash x.rend).frame f.num = some f)
    (hg : s.encGeomOf x.unit x.sash x.rend f.cfg = some g)
    (hep : ∀ d, kvGet x.sash s.fab.olds = some d → f.epoch = (kvGet x.sash s.fab.epochs).getD false)
    (ht : f.stripes.find? (!·.done) = some t) (hb : t.coded + 1 < g.b) (hmay : s.encMay g = true) (hm : x.mismatch = false)
    (hp : x.poison = 0) (hpane : f.pane = false) (hmode : t.mode ≠ 2)
    (hcap : f.bc + t.bits + x.bits + g.cpb * (g.b - t.coded - 1) + (g.n - 1 - t.k) * g.cp ≤ f.cap) :
    ∃ w f1 t1, exec (.blockCoded x) s = .next w ∧ (w.enc.share x.unit x.sash x.rend).last = some f1 ∧ f1.stripes.find? (!·.done) = some t1 ∧
      t1.coded = t.coded + 1 ∧ t1.bits = t.bits + x.bits ∧ t1.hc = t.hc + x.hc ∧ t1.mode = t.mode ∧ f1.bc = f.bc ∧
      w = { s with enc := { s.enc with shares := w.enc.shares } } := by
  have harm : exec (.blockCoded x) s = execBlockCoded x s := rfl
  rw [harm, execBlockCoded, hl]
  dsimp only
  rw [State.inFrame_inForce s _ _ _ _ _ f g hf hg hep]
  rw [ht]
  dsimp only
  rw [if_pos ⟨by omega, hmay⟩, State.blockCoded, if_neg (by simp [hm])]
  have hbits : (if t.mode = 2 ∨ x.poison ≠ 0 ∨ (f.pane && (f.paneOf (g.col t.coded) t.k).isNone) then x.copyBits else x.bits) = x.bits :=
    if_neg (by simp [hmode, hp, hpane])
  have hbig : decide (t.mode ≠ 2 ∧ f.cap < f.bc + t.bits + x.bits + g.cpb * (g.b - t.coded - 1) + (g.n - 1 - t.k) * g.cp) = false := by
    simp only [decide_eq_false_iff_not, not_and]
    omega
  have hleft : ¬(g.b - t.coded - 1 = 0) := by omega
  have hbc : ∀ c : Prop, [Decidable c] → (if c then f.fail g t.k t.coded (t.coded + 1) else f).bc = f.bc := fun c _ => by split <;> rfl
  have hnum : ∀ c : Prop, [Decidable c] → (if c then f.fail g t.k t.coded (t.coded + 1) else f).num = f.num := fun c _ => by split <;> rfl
  have hdone : t.done = false := by simpa using List.find?_some ht
  dsimp only
  rw [hbits, hbig, if_neg hleft]
  simp only [Bool.false_eq_true, if_false]
  rw [if_neg (show ¬(x.poison ≠ 0) by simp [hp])]
  refine ⟨_, _, _, rfl, (congrArg EncShare.last (EncSt.share_setShare _ _ _ _ _)).trans (EncShare.last_setFrame _ _ f hl (hnum _).symm),
    find_undone_replaced f.stripes t _ ht hdone, rfl, rfl, rfl, rfl, hbc _, rfl⟩

/-- The blocks that a deadline finds uncoded are coded COPY with their bits, and the stripe ends (R175). -/
theorem exec_codingDeadline_ends (u n r frame k : Nat) (bits : List Nat) (g : EncGeom) (f : EncFrame) (t : EncStripe) (s : State)
    (hf : (s.enc.share u n r).frame frame = some f) (hg : s.encGeomOf u n r f.cfg = some g)
    (hep : ∀ d, kvGet n s.fab.olds = some d → f.epoch = (kvGet n s.fab.epochs).getD false)
    (ht : f.stripes.find? (·.k = k) = some t) (hlive : g.live = true) (hd : t.done = false) (hk : k < g.n) (hlen : k ≤ f.stripes.length)
    (hr : s.reached g (g.deadline r f.cf k) 0 = true) :
    ∃ f1 t1, exec (.codingDeadline u n r frame k bits) s = .next ((s.encErr ENC.DEMOTED.COUNT u (g.b - t.coded)).stripeEnd u n r g f1 t1) ∧
      t1.k = k ∧ t1.coded = g.b ∧ t1.bits = ((List.range (g.b - t.coded)).map fun i => bits.getD i 0).foldl (· + ·) t.bits ∧ t1.mode = 2 ∧
      f1.demoted = f.demoted + (g.b - t.coded) ∧ f1.num = f.num ∧ f1.bc = f.bc := by
  have harm : exec (.codingDeadline u n r frame k bits) s = execCodingDeadline u n r frame k bits s := rfl
  rw [harm, execCodingDeadline, State.inFrame_inForce s u n r frame _ f g hf hg hep]
  dsimp only
  rw [ht, Option.getD_some, if_neg (by simp [hlive, hd, hr]; omega)]
  have hk1 : t.k = k := by simpa using List.find?_some ht
  refine ⟨_, _, rfl, hk1, rfl, ?_, rfl, rfl, rfl, rfl⟩
  simp only [List.foldl_map]

end Sys2Proof.Machine
end

-- ==== O42 ====
section
/-!
SETTLED. Stripe modes, blocks and deadlines.
-/

namespace Sys2Proof.Machine

/-- Settles O42: the mode decision by its branches, the stripe commands by the work on a frame whose paths are in force. -/
theorem encoderStripes : Obligations.EncoderStripes := by
  unfold Obligations.EncoderStripes
  refine ⟨?mode, ?start, ?first, ?block, ?deadline⟩
  case mode =>
    exact fun mode bc fl cp later cap => ⟨fun h => (encDecide_normal _ _ _ _ _ _ h).1, fun h => (encDecide_normal _ _ _ _ _ _ h).2,
      encDecide_floor _ _ _ _ _ _, fun h => h ▸ encDecide_copy bc fl cp later cap⟩
  case start =>
    intro x g f s hk hl hf hg hep turn input
    have harm : exec (.stripeStart x) s = execStripeStart x s := rfl
    rw [harm, execStripeStart]
    rw [if_neg fun h => hk h.1, State.stripeStart]
    dsimp only
    rw [if_neg hk, hl]
    dsimp only
    rw [State.inFrame_inForce s _ _ _ _ _ f g hf hg hep]
    have hiff : turn ↔ ¬(!(f.stripes.all (·.done)) ∨ f.stripes.length ≠ x.k ∨ g.n ≤ x.k ∨ !s.encMay g) := by
      simp [turn]
    refine ⟨fun ht hi => ?_, fun ht hi => ?_, fun ht => ?_⟩
    · exact congrArg Host.Outcome.next ((if_neg (hiff.mp ht)).trans (if_pos hi))
    · exact congrArg Host.Outcome.next ((if_neg (hiff.mp ht)).trans (if_neg (Bool.eq_false_iff.mp hi)))
    · exact congrArg Host.Outcome.next (if_pos (Decidable.not_not.mp fun h => ht (hiff.mpr h)))
  case first =>
    intro x s hk hfr
    have harm : exec (.stripeStart x) s = execStripeStart x s := rfl
    rw [harm, execStripeStart, EncShare.last, hfr]
    exact congrArg (fun s => Host.Outcome.next (State.stripeStart s x)) (if_pos ⟨hk, rfl⟩)
  case block => exact exec_blockCoded_adds
  case deadline =>
    intro u n r frame k bits g f t s hf hg hep ht
    refine ⟨fun h => ?_, exec_codingDeadline_ends u n r frame k bits g f t s hf hg hep ht⟩
    have harm : exec (.codingDeadline u n r frame k bits) s = execCodingDeadline u n r frame k bits s := rfl
    rw [harm, execCodingDeadline, State.inFrame_inForce s u n r frame _ f g hf hg hep]
    dsimp only
    rw [ht, Option.getD_some]
    refine congrArg Host.Outcome.next (if_pos ?_)
    rcases h with h | h | h
    · exact .inl (by simp [h])
    · exact .inr (.inl h)
    · exact .inr (.inr (.inr (.inr (by simp [h]))))

end Sys2Proof.Machine
end

-- ==== Support for O43: the encode and decode services ====
section
/-!
SUPPORT. What a configuration puts in a rendition, and the renditions that a refresh mask names.
-/

namespace Sys2Proof.Machine

theorem negated_of {b : Bool} (h : b = true) : ¬((!b) = true) := by
  simp [h]

/-- The rendition that an accepted configuration leaves (R165): at once where no frame has begun under it, else for the next frame start. -/
def encConfigured (old : Option EncRend) (c : EncCfg) : EncRend :=
  match old with
  | some e => if e.frame.isNone then { e with cfg := c, next := none, full := c.initial } else { e with next := some c }
  | none => { cfg := c, full := c.initial }

theorem foldl_setSide_rends {α : Type} (f : EncSt → α → Nat × Nat × EncSide) (l : List α) (e : EncSt) :
    (l.foldl (fun e a => e.setSide (f e a).1 (f e a).2.1 (f e a).2.2) e).rends = e.rends := by
  induction l generalizing e with
  | nil => rfl
  | cons a l ih => exact (ih _).trans rfl

theorem State.rendFrom_rends (s : State) (n r : Nat) : (s.rendFrom n r).enc.rends = s.enc.rends :=
  foldl_setSide_rends (fun e u => (u, n, { e.side u n with
    started := kvPut r ((kvGet 0 (e.side u n).started).getD 0) (e.side u n).started })) (s.encUnits n) s.enc

theorem State.encSetup_rends (s : State) (u : Nat) : (s.encSetup u).enc.rends = s.enc.rends := by
  unfold State.encSetup
  exact foldl_setSide_rends (fun e (q : Nat × Nat) => (u, q.1, { (e.side u q.1) with refs := q.2 })) _ s.enc

theorem foldl_encSetup_rends (l : List Nat) (s : State) : (l.foldl State.encSetup s).enc.rends = s.enc.rends := by
  induction l generalizing s with
  | nil => rfl
  | cons u l ih => exact (ih _).trans (s.encSetup_rends u)

theorem State.encConfig_rends (s : State) (b : List Byte) :
    (s.encConfig b).enc.rends = kvPut (8 * bodyN b 0 2 + bodyU8 b 2)
      (encConfigured (kvGet (8 * bodyN b 0 2 + bodyU8 b 2) s.enc.rends) (encCfgOf b)) s.enc.rends := by
  unfold State.encConfig State.cmafInitDue
  dsimp only
  rw [foldl_encSetup_rends]
  refine congrArg (kvPut _ _) ?_
  split
  · exact State.rendFrom_rends _ _ _
  · rfl

/-- A mask of one bit names one rendition. -/
theorem filter_testBit_two_pow : ∀ r < 8, ((List.range 8).filter fun i => (2 ^ r).testBit i) = [r] := by decide

theorem exec_encRefresh_one (e : CmdEnv) (body : List Byte) (s : State) (r : Nat) (x : EncRend) (hu : s.encUnits (bodyN body 0 2) ≠ [])
    (hrs : s.hub.reachesSash e.fn (bodyN body 0 2) = true) (hr : r < 8) (hb : bodyU8 body 2 = 2 ^ r)
    (hx : kvGet (8 * bodyN body 0 2 + r) s.enc.rends = some x) (hp : x.panes = none) (hq : x.req = none) :
    exec (.encRefresh e body) s = .next (({ s with
      enc := s.enc.setRend (bodyN body 0 2) r ({ x with req := some (s.hub.elapsed, s.hub.time.total, bodyU8 body 3 != 0) }) } : State).done e 0x0302 0 []) := by
  have harm : exec (.encRefresh e body) s = execEncRefresh e body s := rfl
  rw [harm, execEncRefresh, if_neg hu, if_neg (by simp [hrs]), hb, ← List.foldl_filter, filter_testBit_two_pow r hr, List.foldl_cons, List.foldl_nil,
    State.encRefresh, hx]
  dsimp only
  rw [hp, hq]

theorem exec_encStats_published (e : CmdEnv) (body : List Byte) (s : State) (x : EncRend) (hu : s.encUnits (bodyN body 0 2) ≠ [])
    (hrs : s.hub.reachesSash e.fn (bodyN body 0 2) = true) (hx : kvGet (8 * bodyN body 0 2 + bodyU8 body 2) s.enc.rends = some x) :
    ∃ res, exec (.encStats e body) s = .next (s.done e 0x0303 0 res) ∧ res.length = 40 ∧ res.take 8 = leBytes 8 x.pub.frames ∧
      (res.drop 8).take 8 = leBytes 8 x.pub.bytes := by
  have harm : exec (.encStats e body) s = execEncStats e body s := rfl
  rw [harm, execEncStats]
  dsimp only
  rw [if_neg hu, if_neg (by simp [hrs]), hx]
  refine ⟨_, rfl, ?_, ?_, ?_⟩
  · simp only [List.length_append, leBytes_length]
  · simp only [List.append_assoc]
    exact List.take_left' (leBytes_length _ _)
  · simp only [List.append_assoc]
    rw [List.drop_left' (leBytes_length _ _), List.take_left' (leBytes_length _ _)]

theorem exec_decStats_published (e : CmdEnv) (body : List Byte) (s : State) (c : DecCtx)
    (hc : kvGet (ctxKey (bodyN body 0 2) (bodyN body 2 2)) s.dec.ctxs = some c) (hrs : s.hub.reachesSash e.fn (bodyN body 0 2) = true) :
    ∃ res, exec (.decStats e body) s = .next (s.done e 0x0403 0 res) ∧ res.length = 24 ∧ res.take 4 = leBytes 4 c.pub.state ∧
      (res.drop 4).take 8 = leBytes 8 c.pub.pics := by
  have harm : exec (.decStats e body) s = execDecStats e body s := rfl
  rw [harm, execDecStats]
  rw [hc]
  dsimp only
  rw [if_neg (by simp [hrs])]
  refine ⟨_, rfl, ?_, ?_, ?_⟩
  · simp only [List.length_append, leBytes_length]
  · simp only [List.append_assoc]
    exact List.take_left' (leBytes_length _ _)
  · simp only [List.append_assoc]
    rw [List.drop_left' (leBytes_length _ _), List.take_left' (leBytes_length _ _)]

/-- A context of a stream that has none, on a unit of the sash with room for its slots, is made (R181). -/
theorem exec_decOpen_opens (e : CmdEnv) (body : List Byte) (s : State) (x : InStream) (q : PartRec) (offs : List Nat)
    (hs : s.fab.sashes.any (·.id = bodyN body 0 2) = true) (hr : s.hub.reachesSash e.fn (bodyN body 0 2) = true)
    (hx : kvGet (bodyN body 4 2) s.fwd.ins = some x) (hno : kvHas (ctxKey (bodyN body 0 2) (bodyN body 4 2)) s.dec.ctxs = false)
    (ht : refType (bodyN body 2 2) = 2) (hu : (s.fab.unitsOf (bodyN body 0 2) 2).contains (refInst (bodyN body 2 2)) = true)
    (h1 : 1 ≤ x.codec) (h4 : x.codec ≤ 4) (h5 : (s.dec.ctxs.filter (·.2.unit = refInst (bodyN body 2 2))).length < 512)
    (hq : s.fab.part (bodyN (s.fab.persAt 2 (refInst (bodyN body 2 2))).2 0 2 % 4096) = some q)
    (ho : takeSlots (slotSize (bodyN body 8 2) (bodyN body 10 2)) q.size
      (s.slotsIn (bodyN (s.fab.persAt 2 (refInst (bodyN body 2 2))).2 0 2 % 4096)) (min (max (bodyU8 body 7) 2) 16) = some offs) :
    ∃ t c, exec (.decOpen e body) s = .next t ∧ kvGet (ctxKey (bodyN body 0 2) (bodyN body 4 2)) t.dec.ctxs = some c ∧
      c.unit = refInst (bodyN body 2 2) ∧ c.maxW = bodyN body 8 2 ∧ c.maxH = bodyN body 10 2 ∧ c.slots.map (·.off) = offs ∧ c.cnt.state = 0 ∧
      c.pkts = [] ∧
      t = ({ s with
        hub := s.hub.set1 DEC.STATUS.CONTEXTS (refInst (bodyN body 2 2)) (s.hub.get1 DEC.STATUS.CONTEXTS (refInst (bodyN body 2 2)) + 1)
        dec := { s.dec with ctxs := t.dec.ctxs } } : State).done e 0x0401 0 [] := by
  have harm : exec (.decOpen e body) s = execDecOpen e body s := rfl
  rw [harm, execDecOpen]
  dsimp only
  rw [if_neg (by simp [hs]), if_neg (by simp [hr]), hx]
  dsimp only
  rw [if_neg (Bool.eq_false_iff.mp hno), if_neg (by simpa [ht, h1, h4, h5] using hu), hq, Option.bind_some, ho]
  refine ⟨_, _, rfl, kvGet_kvPut_self _ _ _, rfl, rfl, rfl, ?_, rfl, rfl, rfl⟩
  rw [List.map_map]
  exact List.map_id offs

end Sys2Proof.Machine
end

-- ==== O43 ====
section
/-!
SETTLED. The encode and decode services.
-/

namespace Sys2Proof.Machine

/-- Settles O43: each service command by its refusals in order, its accepted case by what it puts in the renditions or the contexts. -/
theorem imageServices : Obligations.ImageServices := by
  unfold Obligations.ImageServices
  refine ⟨?encode, ?decode⟩
  case encode =>
    intro e body s n key
    have harm : exec (.encConfig e body) s = execEncConfig e body s := rfl
    have hstats : exec (.encStats e body) s = execEncStats e body s := rfl
    have hrefresh : exec (.encRefresh e body) s = execEncRefresh e body s := rfl
    refine ⟨fun st h => ?_, fun h hl => ?_, fun h hl => ?_, fun h => ⟨?_, ?_⟩, fun hu hr => ⟨fun r x hr8 hb hx hp hq => ?_, fun x hx =>
      exec_encStats_published e body s x hu hr hx⟩⟩
    · rw [harm, execEncConfig, h]
    · rw [harm, execEncConfig, h]
      exact congrArg Host.Outcome.next (if_pos hl)
    · rw [harm, execEncConfig, h]
      dsimp only
      rw [if_neg (Bool.eq_false_iff.mp hl)]
      refine ⟨_, _, rfl, (congrArg (kvGet key) (s.encConfig_rends body)).trans (kvGet_kvPut_self _ _ _), fun hn => ?_, fun y hy hf => ?_,
        fun y hy hf => ?_, fun k hk => (congrArg (kvGet k) (s.encConfig_rends body)).trans (kvGet_kvPut_ne _ _ _ _ hk)⟩
      · rw [hn]
        rfl
      · rw [hy]
        exact if_neg (by simpa using hf)
      · rw [hy]
        exact if_pos (by simpa using hf)
    · rw [hrefresh, execEncRefresh]
      exact congrArg Host.Outcome.next (if_pos h)
    · rw [hstats, execEncStats]
      exact congrArg Host.Outcome.next (if_pos h)
    · rw [exec_encRefresh_one e body s r x hu hr hr8 hb hx hp hq]
      exact ⟨_, rfl, kvGet_kvPut_self _ _ _, rfl⟩
  case decode =>
    intro e body s n
    have hopen : exec (.decOpen e body) s = execDecOpen e body s := rfl
    have hclose : exec (.decClose e body) s = execDecClose e body s := rfl
    have hstats : exec (.decStats e body) s = execDecStats e body s := rfl
    refine ⟨fun hr hs => ⟨fun hx => ?_, fun x hx => ⟨fun hc => ?_, fun q offs hno ht hu h1 h4 h5 hq ho =>
      exec_decOpen_opens e body s x q offs hs hr hx hno ht hu h1 h4 h5 hq ho⟩⟩, fun c hc hr => ⟨?_, exec_decStats_published e body s c hc hr⟩,
      fun hc => ⟨?_, ?_⟩⟩
    · rw [hopen, execDecOpen]
      dsimp only
      rw [if_neg (negated_of hs), if_neg (negated_of hr), hx]
    · rw [hopen, execDecOpen]
      dsimp only
      rw [if_neg (negated_of hs), if_neg (negated_of hr), hx]
      exact congrArg Host.Outcome.next (if_pos hc)
    · rw [hclose, execDecClose]
      dsimp only
      rw [hc]
      dsimp only
      rw [if_neg (negated_of hr)]
      exact ⟨_, rfl, kvGet_kvPut_self _ _ _, rfl⟩
    · rw [hclose, execDecClose]
      dsimp only
      rw [hc]
    · rw [hstats, execDecStats, hc]

end Sys2Proof.Machine
end

-- ==== Support for O44: decoders and composers ====
section
/-!
SUPPORT. Packets held in their order, a picture's release over the contexts, the frame at the head of a context, and what one line of a
composer's frame changes.
-/

namespace Sys2Proof.Machine

theorem mem_insertPkt (next : Nat) (p : DecPkt) (l : List DecPkt) {q : DecPkt} (h : q ∈ l) : q ∈ insertPkt next p l := by
  induction l with
  | nil => simp at h
  | cons a l ih =>
    simp only [insertPkt]
    split
    · exact h
    · split
      · exact List.mem_cons_of_mem _ h
      · rcases List.mem_cons.mp h with rfl | h
        · exact List.mem_cons_self
        · exact List.mem_cons_of_mem _ (ih h)

theorem insertPkt_seq (next : Nat) (p : DecPkt) (l : List DecPkt) : ∃ q ∈ insertPkt next p l, q.seq = p.seq := by
  induction l with
  | nil => exact ⟨p, List.mem_singleton_self p, rfl⟩
  | cons a l ih =>
    simp only [insertPkt]
    split
    · exact ⟨a, List.mem_cons_self, ‹_›⟩
    · split
      · exact ⟨p, List.mem_cons_self, rfl⟩
      · obtain ⟨q, hq, hs⟩ := ih
        exact ⟨q, List.mem_cons_of_mem _ hq, hs⟩

theorem DecSlot.settle_held (t : DecSlot) : t.settle.held = t.held := by
  unfold DecSlot.settle
  split <;> rfl

/-- What the release of a picture at an offset of a part makes of a slot. -/
def DecSlot.released (off : Nat) (t : DecSlot) : DecSlot := if t.off = off then ({ t with held := t.held - 1 } : DecSlot).settle else t

theorem DecSlot.released_held (off : Nat) (t : DecSlot) : (t.released off).held = if t.off = off then t.held - 1 else t.held := by
  unfold DecSlot.released
  split
  · exact DecSlot.settle_held _
  · rfl

theorem State.pictureRelease_ctxs (s : State) (part off : Nat) :
    (s.pictureRelease part off).dec.ctxs = s.dec.ctxs.map fun e =>
      if e.2.part = part then (e.1, { e.2 with slots := e.2.slots.map (DecSlot.released off) }) else e := rfl

/-- A context of the part whose consumers release a picture, and one of another part, as kept in the contexts afterwards. -/
theorem State.pictureRelease_ctx (s : State) (part off k : Nat) {c : DecCtx} (h : kvGet k s.dec.ctxs = some c) :
    kvGet k (s.pictureRelease part off).dec.ctxs =
      some (if c.part = part then { c with slots := c.slots.map (DecSlot.released off) } else c) := by
  rw [State.pictureRelease_ctxs]
  generalize s.dec.ctxs = m at h
  induction m with
  | nil => simp [kvGet] at h
  | cons a m ih =>
    obtain ⟨j, w⟩ := a
    have hmap : ∀ (x : Nat × DecCtx), x = (if w.part = part then (j, { w with slots := w.slots.map (DecSlot.released off) }) else (j, w)) →
        x.1 = j := by rintro x rfl; split <;> rfl
    simp only [List.map_cons, kvGet, hmap _ rfl] at h ⊢
    split at h
    · cases h
      rw [if_pos ‹_›]
      split <;> rfl
    · rw [if_neg ‹_›]
      split at h
      · cases h
      · rw [if_neg ‹_›]
        exact ih h

theorem State.frameBoundary_none {s : State} (ty i : Nat) (hpend : s.lch.pend = []) (hwait : s.lch.waiting = []) (hpers : s.ldr.persWait = []) :
    s.frameBoundary ty i = s := State.workBoundary_none _ hpend hwait hpers

theorem execDecFrameDecode_none (n stream : Nat) (p : DecPicture) {s : State} (hpend : s.lch.pend = []) (hwait : s.lch.waiting = [])
    (hpers : s.ldr.persWait = []) : execDecFrameDecode n stream p s = .next (s.decFrame n stream p) := by
  unfold execDecFrameDecode
  split
  · rw [State.frameBoundary_none _ _ hpend hwait hpers]
  · rfl

/-- The frame at the head of a context decodes into a free slot, where it is allowed, and its packets are used up (R182, R183). -/
theorem State.decFrame_allowed (n stream : Nat) (p : DecPicture) (c : DecCtx) (s : State) (f : DecPkt) (rest : List DecPkt)
    (hc : kvGet (ctxKey n stream) s.dec.ctxs = some c) (hh : c.head = some (f :: rest)) (hon : s.decOn c.unit = true)
    (htu : ∀ t, c.tu = some t → t.ts = f.ts) (hw : p.w ≤ (s.decLimit c).1) (hh2 : p.h ≤ (s.decLimit c).2)
    (hok : decAllows (((kvGet stream s.fwd.ins).map (·.codec)).getD 0) p.profile p.chroma p.depth = true)
    (h2 : c.cnt.state ≠ 2) (h3 : c.cnt.state ≠ 3) (h4 : c.cnt.state ≠ 4) :
    s.decFrame n stream p = match c.free with
      | none => s
      | some k =>
        if (rest.getLast?.getD f).m then
          (s.decPicture n stream { c with next := some ((f.seq + rest.length + 1) % 65536), pkts := c.pkts.drop (rest.length + 1) } p f k).decOutput n stream
        else s.decPicture n stream { c with next := some ((f.seq + rest.length + 1) % 65536), pkts := c.pkts.drop (rest.length + 1) } p f k := by
  have htu' : ¬(c.tu.any (fun t => t.ts ≠ f.ts)) = true := by
    cases ht : c.tu with
    | none => simp
    | some t => simp [htu t ht]
  unfold State.decFrame
  rw [hc]
  dsimp only
  rw [hh]
  dsimp only
  rw [if_neg (negated_of hon), if_neg htu', hc, Option.getD_some, if_neg (by simp [hok]; omega), if_neg (by simp [h2, h3])]
  cases c.free with
  | none => rfl
  | some k => exact if_neg h4

theorem execCmpDescriptorReceive_queues (u port : Nat) (desc : List Byte) (s : State) (h0 : bodyN desc 2 2 % 2 = 0) (hp : port < 8)
    (hc : (s.cmpPers u).code = 1) :
    ∃ t d, execCmpDescriptorReceive u port desc s = .next t ∧ ((t.cmp.unit u).layer port).queue = ((s.cmp.unit u).layer port).queue ++ [d] ∧
      d.part = bodyN desc 0 2 ∧ d.off = bodyN desc 8 8 ∧ d.w = bodyN desc 0x18 2 ∧ d.h = bodyN desc 0x1A 2 ∧ d.stream = bodyN desc 0x1E 2 ∧
      (∀ l, l ≠ port → (t.cmp.unit u).layer l = (s.cmp.unit u).layer l) ∧ (t.cmp.unit u).frames = (s.cmp.unit u).frames ∧
      t = { s with cmp := { s.cmp with units := t.cmp.units } } := by
  have hunit : ∀ x : CmpUnit, (s.setCmp u x).cmp.unit u = x := fun x => by
    simp only [State.setCmp, CmpSt.unit, kvGet_kvPut_self, Option.getD_some]
  rw [execCmpDescriptorReceive]
  dsimp only
  rw [if_neg (by simp [h0, hc]; omega)]
  refine ⟨_, { part := bodyN desc 0 2, off := bodyN desc 8 8, unchanged := bodyN desc 2 2 / 4 % 2 == 1, w := bodyN desc 0x18 2
               h := bodyN desc 0x1A 2, ten := bodyU8 desc 0x1C / 4 % 2 == 1, stream := bodyN desc 0x1E 2 },
    rfl, ?_, rfl, rfl, rfl, rfl, rfl, fun l hl => ?_, (congrArg CmpUnit.frames (hunit _)).trans rfl, rfl⟩
  · rw [hunit]
    simp only [CmpUnit.setLayer, CmpUnit.layer, kvGet_kvPut_self, Option.getD_some]
  · rw [hunit]
    simp only [CmpUnit.setLayer, CmpUnit.layer, kvGet_kvPut_ne _ _ _ _ hl]

theorem EncSt.foldl_setSide {α : Type} (f : EncSt → α → Nat × Nat × EncSide) (l : List α) (e : EncSt) :
    let e2 := l.foldl (fun e a => e.setSide (f e a).1 (f e a).2.1 (f e a).2.2) e
    e2 = { e with sides := e2.sides } := by
  induction l generalizing e with
  | nil => rfl
  | cons a l ih =>
    dsimp only [List.foldl_cons] at ih ⊢
    rw [ih]
    rfl

/-- What a line gives an encoder's input is kept on its units' sides. -/
theorem State.encInput_sides (s : State) (n src cf : Nat) (upTo : Nat → Nat) :
    s.encInput n src cf upTo = { s with enc := { s.enc with sides := (s.encInput n src cf upTo).enc.sides } } := by
  unfold State.encInput
  exact congrArg (fun e => { s with enc := e }) (EncSt.foldl_setSide (fun e u =>
    let sd := e.side u n
    let new := (sd.pics.find? (·.2 = cf)).isNone
    let n1 := ((sd.pics.find? (·.2 = cf)).map Prod.fst).getD sd.numbered
    let near := fun (p : Nat × Nat) => decide ((n1 + 2 ^ 32 - p.1) % 2 ^ 32 < 64)
    (u, n, { sd with
      numbered := if new then (n1 + 1) % 2 ^ 32 else sd.numbered
      pics := if new then kvPut n1 cf (sd.pics.filter near) else sd.pics
      lines := kvPut n1 (upTo u) (sd.lines.filter near) })) _ s.enc)

theorem State.cmpPoison_hub (s : State) (u n layer : Nat) : s.cmpPoison u n layer = { s with hub := (s.cmpPoison u n layer).hub } := by
  unfold State.cmpPoison
  split <;> rfl

/-- A composer's unit with its frames replaced, and what a line's output changes beside it. -/
def State.lineMade (s : State) (u : Nat) (h : Hub) (sides : List (Nat × EncSide)) (frames : List CmpFrame) : State :=
  ({ s with hub := h, enc := { s.enc with sides := sides } } : State).setCmp u { s.cmp.unit u with frames := frames }

theorem State.lineMade_unit (s : State) (u : Nat) (h : Hub) (sides : List (Nat × EncSide)) (frames : List CmpFrame) :
    (s.lineMade u h sides frames).cmp.unit u = { s.cmp.unit u with frames := frames } := by
  simp only [State.lineMade, State.setCmp, CmpSt.unit, kvGet_kvPut_self, Option.getD_some]

/-- A line that is due moves its frame on by one; the last one ends it (R197). -/
theorem State.cmpLineDone_due (s : State) (u : Nat) (f : CmpFrame) (rest : List CmpFrame) (video : List CmpVideo) (hslot : f.slot = none)
    (hm : (s.cmpPers u).mode1 = false)
    (hdue : ¬((s.cmpClass u = 0 ∧ s.hub.time.total * ((s.cmpPers u).num * (s.cmpPers u).h) <
        f.tm * ((s.cmpPers u).num * (s.cmpPers u).h) + 1000000000 * (s.cmpPers u).den * f.lines) ∨ (¬s.cmpClass u = 0 ∧ s.emergency = true))) :
    ∃ h sides c,
      s.cmpLineDone u f rest video =
        if f.lines + 1 < (s.cmpPers u).h then s.lineMade u h sides ({ f with lines := f.lines + 1, chroma := c } :: rest)
        else (s.lineMade u h sides ({ f with lines := f.lines + 1, chroma := c } :: rest)).cmpFrameEnd u (s.cmpPers u) f := by
  unfold State.cmpLineDone
  dsimp only
  rw [if_neg hdue]
  have hstore : ∀ (t : State) (data : List Byte × List Byte), t.cmpStore (s.cmpPers u) f data = t := fun t data => by
    unfold State.cmpStore
    rw [hslot]
  rw [hm]
  simp only [Bool.false_eq_true, if_false, hstore]
  rw [State.encInput_sides]
  generalize (State.encInput _ _ _ _ _).enc.sides = sides
  rw [State.cmpPoison_hub]
  exact ⟨_, sides, _, rfl⟩

theorem State.cmpNext_none (s : State) (u : Nat) (h : (s.cmp.unit u).passed = []) : s.cmpNext u = s := by
  unfold State.cmpNext
  dsimp only
  rw [h, List.getLast?_nil]

/-- The work of a line on a frame whose paths are in force, and what follows it. -/
theorem execCmpLineComplete_inForce (u : Nat) (video : List CmpVideo) (s : State) (f : CmpFrame) (rest : List CmpFrame)
    (hf : (s.cmp.unit u).frames = f :: rest) (hg : s.gfxLive f = true)
    (hep : ∀ d, kvGet f.sash s.fab.olds = some d → f.epoch = (kvGet f.sash s.fab.epochs).getD false) :
    execCmpLineComplete u video s = .next (
      if ((s.cmpLineDone u f rest video).cmp.unit u).frames.any (·.tm = f.tm) then s.cmpLineDone u f rest video
      else (s.cmpLineDone u f rest video).cmpNext u) := by
  unfold execCmpLineComplete
  rw [hf]
  dsimp only
  rw [if_neg (negated_of hg), State.inEpoch_inForce s f.sash f.epoch _ hep]

/-- The last line of a composer's only frame ends the frame (R197). -/
theorem State.cmpFrameEnd_only (s : State) (u : Nat) (p : CmpPers) (f : CmpFrame) (h : Hub) (sides : List (Nat × EncSide)) (f1 : CmpFrame)
    (hslot : f.slot = none) (htm : f1.tm = f.tm) (hfree : (s.cmp.unit u).toFree = []) :
    ∃ h1, (s.lineMade u h sides [f1]).cmpFrameEnd u p f = ({ s.lineMade u h sides [f1] with hub := h1 } : State).setCmp u
      { s.cmp.unit u with frames := [], ended := (f.tm :: (s.cmp.unit u).ended).take 4 } := by
  unfold State.cmpFrameEnd
  dsimp only
  rw [State.lineMade_unit, hslot]
  dsimp only
  rw [hfree]
  refine ⟨(s.lineMade u h sides [f1]).hub.emits [], ?_⟩
  rw [List.filter_cons_of_neg (by simp [htm])]
  simp only [List.filter_nil, List.map_nil, State.releaseAll, List.foldl_nil]

end Sys2Proof.Machine
end

-- ==== O44 ====
section
/-!
SETTLED. Decoder packets and pictures, composer frames.
-/

namespace Sys2Proof.Machine

/-- A packet's cases, at a context that its frame does not close (R180). -/
theorem execDecPacketReceive_cases (n stream : Nat) (p : DecIn) (c : DecCtx) (s : State) (hc : kvGet (ctxKey n stream) s.dec.ctxs = some c)
    (hclose : ¬(c.cnt.state = 4 ∧ p.start = true)) :
    (s.decOn c.unit = false ∨ laterThan 16 p.seq (c.next.getD p.seq) = true → execDecPacketReceive n stream p s = .next s) ∧
    (s.decOn c.unit = true → laterThan 16 p.seq (c.next.getD p.seq) = false → c.pkts.foldl (fun a q => a + q.len) 0 + p.len ≤ 4194304 →
      ∃ t d, execDecPacketReceive n stream p s = .next t ∧ kvGet (ctxKey n stream) t.dec.ctxs = some d ∧ d.next = some (c.next.getD p.seq) ∧
        (∃ q ∈ d.pkts, q.seq = p.seq) ∧ (∀ q ∈ c.pkts, q ∈ d.pkts) ∧ t = { s with dec := { s.dec with ctxs := t.dec.ctxs } }) ∧
    (s.decOn c.unit = true → laterThan 16 p.seq (c.next.getD p.seq) = false → 4194304 < c.pkts.foldl (fun a q => a + q.len) 0 + p.len →
      execDecPacketReceive n stream p s = .next ((s.decErr DEC.IN_DROP.COUNT c.unit).decRaise 0x0905 c.unit n stream)) := by
  rw [execDecPacketReceive, hc]
  dsimp only
  rw [if_neg hclose]
  refine ⟨fun h => ?_, fun hon hl hlen => ?_, fun hon hl hlen => ?_⟩
  · rcases h with h | h
    · exact congrArg Host.Outcome.next (if_pos (by simp [h]))
    · by_cases hon : (!s.decOn c.unit) = true
      · rw [if_pos hon]
      · rw [if_neg hon, if_pos h]
  · rw [if_neg (negated_of hon), if_neg (by simp [hl]), if_neg (Nat.not_lt.mpr hlen)]
    exact ⟨_, _, rfl, kvGet_kvPut_self _ _ _, rfl, insertPkt_seq _ _ _, fun q hq => mem_insertPkt _ _ _ hq, rfl⟩
  · rw [if_neg (negated_of hon), if_neg (by simp [hl]), if_pos hlen]

/-- What one line of the frame in work does, where it is due and where it is not (R197). -/
theorem execCmpLineComplete_due (u : Nat) (video : List CmpVideo) (s : State) (f : CmpFrame) (rest : List CmpFrame)
    (hf : (s.cmp.unit u).frames = f :: rest) (hg : s.gfxLive f = true) (hslot : f.slot = none) (hm : (s.cmpPers u).mode1 = false)
    (hep : ∀ d, kvGet f.sash s.fab.olds = some d → f.epoch = (kvGet f.sash s.fab.epochs).getD false)
    (hdue : ¬((s.cmpClass u = 0 ∧ s.hub.time.total * ((s.cmpPers u).num * (s.cmpPers u).h) <
        f.tm * ((s.cmpPers u).num * (s.cmpPers u).h) + 1000000000 * (s.cmpPers u).den * f.lines) ∨ (¬s.cmpClass u = 0 ∧ s.emergency = true))) :
    (f.lines + 1 < (s.cmpPers u).h → ∃ t c, execCmpLineComplete u video s = .next t ∧
      (t.cmp.unit u).frames = { f with lines := f.lines + 1, chroma := c } :: rest ∧
      t = { s with hub := t.hub, enc := { s.enc with sides := t.enc.sides }, cmp := { s.cmp with units := t.cmp.units } }) ∧
    (f.lines + 1 = (s.cmpPers u).h → rest = [] → (s.cmp.unit u).passed = [] → (s.cmp.unit u).toFree = [] →
      ∃ t, execCmpLineComplete u video s = .next t ∧
        (t.cmp.unit u).frames = [] ∧ (t.cmp.unit u).ended = (f.tm :: (s.cmp.unit u).ended).take 4 ∧
        t = { s with hub := t.hub, enc := { s.enc with sides := t.enc.sides }, cmp := { s.cmp with units := t.cmp.units } }) := by
  obtain ⟨h, sides, c, hline⟩ := s.cmpLineDone_due u f rest video hslot hm hdue
  rw [execCmpLineComplete_inForce u video s f rest hf hg hep, hline]
  refine ⟨fun hlt => ?_, fun heq hrest hp hfree => ?_⟩
  · rw [if_pos hlt, if_pos (by rw [State.lineMade_unit]; simp)]
    exact ⟨_, c, rfl, congrArg CmpUnit.frames (State.lineMade_unit _ _ _ _ _), rfl⟩
  · subst hrest
    obtain ⟨h1, hend⟩ := s.cmpFrameEnd_only u (s.cmpPers u) f h sides { f with lines := f.lines + 1, chroma := c } hslot rfl hfree
    have hunit : ∀ (t : State) (x : CmpUnit), (t.setCmp u x).cmp.unit u = x := fun t x => by
      simp only [State.setCmp, CmpSt.unit, kvGet_kvPut_self, Option.getD_some]
    have hnext : ∀ (t : State) (x : CmpUnit), x.passed = [] → (t.setCmp u x).cmpNext u = t.setCmp u x := fun t x hx =>
      State.cmpNext_none _ _ ((congrArg CmpUnit.passed (hunit t x)).trans hx)
    rw [if_neg (Nat.not_lt.mpr (Nat.le_of_eq heq.symm)), hend, if_neg (by rw [hunit]; simp), hnext _ _ (by exact hp)]
    exact ⟨_, rfl, congrArg CmpUnit.frames (hunit _ _), congrArg CmpUnit.ended (hunit _ _), rfl⟩

/-- Settles O44: packets and pictures by what their context holds, a composer's instants and lines by the frame in work. -/
theorem decodingAndComposing : Obligations.DecodingAndComposing := by
  unfold Obligations.DecodingAndComposing
  refine ⟨⟨?packet, ?lost, ?decode, ?release⟩, ?descriptor, ?instant, ?line⟩
  case packet =>
    intro n stream p c s hc
    have harm : exec (.decPacketReceive n stream p) s = execDecPacketReceive n stream p s := rfl
    rw [harm]
    refine ⟨fun h4 hp => ?_, execDecPacketReceive_cases n stream p c s hc⟩
    rw [execDecPacketReceive, hc]
    exact congrArg Host.Outcome.next (if_pos ⟨h4, hp⟩)
  case lost =>
    intro n stream m c d at_ s hc hn hl h4
    have harm : exec (.decFrameLostTimer n stream) s = execDecFrameLostTimer n stream s := rfl
    rw [harm, execDecFrameLostTimer, hc]
    dsimp only
    rw [hn, hl]
    refine ⟨fun h => congrArg Host.Outcome.next (if_pos h), fun hh ht => ?_⟩
    exact congrArg Host.Outcome.next ((if_neg (by simp [hh]; omega)).trans (if_neg h4))
  case decode =>
    intro n stream p c s hc hpend hwait hpers
    have harm : exec (.decFrameDecode n stream p) s = execDecFrameDecode n stream p s := rfl
    rw [harm, execDecFrameDecode_none n stream p hpend hwait hpers]
    refine ⟨fun h => ?_, fun f rest hh hon htu hw hh2 hok h2 h3 h4 => ?_⟩
    · unfold State.decFrame
      rw [hc]
      dsimp only
      rcases h with h | h
      · rw [h]
      · split
        · rfl
        · rfl
        · exact congrArg Host.Outcome.next (if_pos (by simp [h]))
    · rw [State.decFrame_allowed n stream p c s f rest hc hh hon htu hw hh2 hok h2 h3 h4]
      refine ⟨fun hf => by rw [hf], fun k hf => ?_⟩
      rw [hf]
      exact ⟨fun hm => congrArg Host.Outcome.next (if_neg (Bool.eq_false_iff.mp hm)), fun hm => congrArg Host.Outcome.next (if_pos hm)⟩
  case release =>
    intro part off s
    refine ⟨s.pictureRelease part off, rfl, ?_, fun k c hk hp => ?_, fun k c d hk hd hp => ?_, rfl⟩
    · rw [State.pictureRelease_ctxs, List.map_map]
      refine List.map_congr_left fun e _ => ?_
      simp only [Function.comp_apply]
      split <;> rfl
    · rw [State.pictureRelease_ctx s part off k hk, if_neg hp]
    · rw [State.pictureRelease_ctx s part off k hk, if_pos hp] at hd
      cases hd
      simp only [List.map_map]
      exact List.map_congr_left fun x _ => DecSlot.released_held off x
  case descriptor =>
    intro u port desc s
    have harm : exec (.cmpDescriptorReceive u port desc) s = execCmpDescriptorReceive u port desc s := rfl
    rw [harm]
    exact ⟨fun h => congrArg Host.Outcome.next (if_pos h), execCmpDescriptorReceive_queues u port desc s⟩
  case instant =>
    intro u tiles s hcode tm new
    have harm : exec (.cmpFrameInstant u tiles) s = execCmpFrameInstant u tiles s := rfl
    have hnew : ¬new ↔ (s.cmpPers u).code ≠ 1 ∨ (s.cmp.unit u).last = some tm ∨ (s.cmp.unit u).passed.getLast? = some tm :=
      ⟨fun h => .inr (Decidable.not_and_iff_not_or_not.mp h |>.imp Decidable.not_not.mp Decidable.not_not.mp),
        fun h hn => h.elim (fun hc => hc hcode) (fun h => h.elim hn.1 hn.2)⟩
    rw [harm, execCmpFrameInstant]
    refine ⟨fun hn hcl hfr => ?_, fun hpend hwait hpers => ⟨fun hn hc => ?_, fun hn => ?_⟩⟩
    · rw [if_pos ⟨hcl, hfr⟩, State.cmpInstant]
      dsimp only
      rw [if_neg fun h => hnew.mpr h hn, if_pos ⟨hcl, .inl hfr⟩]
      have hunit : ∀ x : CmpUnit, (s.setCmp u x).cmp.unit u = x := fun x => by
        simp only [State.setCmp, CmpSt.unit, kvGet_kvPut_self, Option.getD_some]
      exact ⟨_, rfl, congrArg CmpUnit.passed (hunit _), (congrArg CmpUnit.frames (hunit _)).trans rfl, rfl⟩
    · have hredraw : redrawsTaken s s u = [] := by
        unfold redrawsTaken
        rw [hpend, hwait]
        rfl
      have hfree : ¬(s.cmpClass u ≠ 0 ∧ (s.cmp.unit u).frames ≠ []) := fun h => hc.elim h.1 fun h1 => h.2 h1.1
      have hgo : ¬(s.cmpClass u ≠ 0 ∧ ((s.cmp.unit u).frames ≠ [] ∨ s.emergency = true)) := by
        rintro ⟨hcl, hbusy⟩
        rcases hc with h | ⟨hfr, hem⟩
        · exact hcl h
        · simp [hfr, hem] at hbusy
      rw [if_neg hfree, State.frameBoundary_none _ _ hpend hwait hpers]
      dsimp only
      rw [hredraw, State.cmpInstant]
      exact congrArg Host.Outcome.next ((if_neg fun h => hnew.mpr h hn).trans (if_neg hgo))
    · have hstay : ∀ redraw, s.cmpInstant u tiles redraw = s := fun redraw => if_pos (hnew.mp hn)
      rw [State.frameBoundary_none _ _ hpend hwait hpers]
      dsimp only
      rw [hstay, hstay]
      split <;> rfl
  case line =>
    intro u video s
    have harm : exec (.cmpLineComplete u video) s = execCmpLineComplete u video s := rfl
    rw [harm]
    refine ⟨fun hf h => ?_, ?_⟩
    · rw [execCmpLineComplete, hf]
      dsimp only
      rcases h with h | h
      · rw [State.cmpNext_none _ _ h]
        split <;> rfl
      · exact congrArg Host.Outcome.next (if_pos h)
    intro f rest hf hg hslot hm hep k due
    refine ⟨fun hcl hd => ?_, fun h => ?_⟩
    · have hstay : s.cmpLineDone u f rest video = s := if_pos (.inl ⟨hcl, Nat.not_le.mp hd⟩)
      rw [execCmpLineComplete_inForce u video s f rest hf hg hep, hstay, hf]
      exact congrArg Host.Outcome.next (if_pos (by simp))
    · refine execCmpLineComplete_due u video s f rest hf hg hslot hm hep ?_
      rintro (⟨hcl, hlt⟩ | ⟨hcl, hem⟩)
      · exact h.elim (fun h1 => absurd h1.2 (Nat.not_le.mpr hlt)) fun h1 => h1.1 hcl
      · exact h.elim (fun h1 => hcl h1.1) fun h1 => by simp [h1.2] at hem

end Sys2Proof.Machine
end

-- ==== Support for O45: frames of the image units' commands ====
section
/-!
SUPPORT. What each command of the image units' inputs and queries, and each broadcast timer, leaves unchanged.
-/

namespace Sys2Proof.Machine

theorem State.done_frame (s : State) (e : CmdEnv) (op st : Nat) (res : List Byte) :
    s.done e op st res = { s with hub := (s.done e op st res).hub, lch := (s.done e op st res).lch } := rfl

theorem State.hold_frame (s : State) (e : CmdEnv) (op : Nat) (i : Instr) :
    s.hold e op i = { s with hub := (s.hold e op i).hub, lch := (s.hold e op i).lch } := rfl

theorem State.encCommit_frame (s : State) (n r num bits : Nat) :
    s.encCommit n r num bits = { s with enc := (s.encCommit n r num bits).enc } := by
  unfold State.encCommit
  split <;> rfl

theorem execHeaderRecordReceive_frame (u n : Nat) (y : Bool) (rec : List Byte) (s : State) :
    ∃ t, execHeaderRecordReceive u n y rec s = .next t ∧ t = { s with hub := t.hub, enc := t.enc } := by
  have hbad : ∀ a b c d, ∃ t, Host.Outcome.next (s.hdrBad a b c d) = (.next t : Host.Outcome State Fault Refusal) ∧ t = { s with hub := t.hub, enc := t.enc } :=
    fun a b c d => ⟨_, rfl, rfl⟩
  unfold execHeaderRecordReceive
  dsimp only
  split
  · exact ⟨_, rfl, rfl⟩
  · split
    · exact hbad _ _ _ _
    · split
      · exact hbad _ _ _ _
      · split
        · exact ⟨_, rfl, rfl⟩
        · split
          · exact ⟨_, rfl, rfl⟩
          · split
            · split
              · exact hbad _ _ _ _
              · split
                · split
                  · exact ⟨_, rfl, rfl⟩
                  · exact hbad _ _ _ _
                · refine ⟨_, rfl, ?_⟩
                  rw [State.encCommit_frame]
                  rfl
            · exact hbad _ _ _ _

theorem execPictureDescriptorReceive_frame (u n : Nat) (rec : List Byte) (s : State) :
    ∃ t, execPictureDescriptorReceive u n rec s = .next t ∧ t = { s with hub := t.hub, enc := t.enc } := by
  unfold execPictureDescriptorReceive
  dsimp only
  split <;> exact ⟨_, rfl, rfl⟩

theorem execEncStats_frame (e : CmdEnv) (body : List Byte) (s : State) :
    ∃ t, execEncStats e body s = .next t ∧ t = { s with hub := t.hub, lch := t.lch } := by
  unfold execEncStats
  dsimp only
  split
  · exact ⟨_, rfl, rfl⟩
  · split
    · exact ⟨_, rfl, rfl⟩
    · split <;> exact ⟨_, rfl, rfl⟩

theorem execDecStats_frame (e : CmdEnv) (body : List Byte) (s : State) :
    ∃ t, execDecStats e body s = .next t ∧ t = { s with hub := t.hub, lch := t.lch } := by
  unfold execDecStats
  dsimp only
  split
  · exact ⟨_, rfl, rfl⟩
  · split <;> exact ⟨_, rfl, rfl⟩

theorem execSplStats_frame (e : CmdEnv) (body : List Byte) (s : State) :
    ∃ t, execSplStats e body s = .next t ∧ t = { s with hub := t.hub, lch := t.lch } := by
  unfold execSplStats
  dsimp only
  cases kvGet (recvKey (refInst (bodyN body 0 2)) (bodyN body 2 2)) s.spl.recvs with
  | none => exact ⟨_, rfl, rfl⟩
  | some v =>
    by_cases hr : refType (bodyN body 0 2) ≠ 4
    · exact ⟨_, congrArg Host.Outcome.next (if_pos hr), rfl⟩
    · dsimp only
      rw [if_neg hr]
      generalize (!_ : Bool) = refused
      cases refused <;> exact ⟨_, rfl, rfl⟩

theorem execLinkStats_frame (e : CmdEnv) (body : List Byte) (s : State) :
    ∃ t, execLinkStats e body s = .next t ∧ t = { s with hub := t.hub, lch := t.lch } := by
  unfold execLinkStats
  dsimp only
  split <;> exact ⟨_, rfl, rfl⟩

theorem execTemplateRecordReceive_frame (u : Nat) (rec : List Byte) (y : Bool) (s : State) :
    ∃ t, execTemplateRecordReceive u rec y s = .next t ∧ t = { s with hub := t.hub, spl := t.spl } := by
  unfold execTemplateRecordReceive
  dsimp only
  split
  · exact ⟨_, rfl, rfl⟩
  · split <;> exact ⟨_, rfl, rfl⟩

theorem State.recvQueue_frame (s : State) (b : List Byte) (c : RecvChange) : s.recvQueue b c = { s with spl := (s.recvQueue b c).spl } := by
  unfold State.recvQueue
  dsimp only
  split <;> rfl

theorem State.recvQueue_done_frame (s : State) (b : List Byte) (c : RecvChange) (e : CmdEnv) (op st : Nat) (res : List Byte) :
    ∃ t, Host.Outcome.next ((s.recvQueue b c).done e op st res) = (.next t : Host.Outcome State Fault Refusal) ∧
      t = { s with hub := t.hub, spl := t.spl, lch := t.lch } := by
  refine ⟨_, rfl, ?_⟩
  rw [State.recvQueue_frame]
  rfl

theorem execSplRecvSet_frame (e : CmdEnv) (body : List Byte) (s : State) :
    ∃ t, execSplRecvSet e body s = .next t ∧ t = { s with hub := t.hub, spl := t.spl, lch := t.lch } := by
  unfold execSplRecvSet
  split
  · unfold State.recvRefuse
    split <;> exact ⟨_, rfl, rfl⟩
  · split
    · exact ⟨_, rfl, rfl⟩
    · exact State.recvQueue_done_frame s body _ e _ _ _

theorem execSplRecvDel_frame (e : CmdEnv) (body : List Byte) (s : State) :
    ∃ t, execSplRecvDel e body s = .next t ∧ t = { s with hub := t.hub, spl := t.spl, lch := t.lch } := by
  unfold execSplRecvDel
  dsimp only
  cases kvGet (recvKey (refInst (bodyN body 0 2)) (bodyN body 2 2)) s.spl.recvs with
  | none => exact ⟨_, rfl, rfl⟩
  | some v =>
    by_cases hr : refType (bodyN body 0 2) ≠ 4
    · exact ⟨_, congrArg Host.Outcome.next (if_pos hr), rfl⟩
    · dsimp only
      rw [if_neg hr]
      generalize (!_ : Bool) = refused
      cases refused
      · by_cases hl : e.latched = true
        · exact ⟨_, congrArg Host.Outcome.next (if_pos hl), rfl⟩
        · rw [if_neg Bool.false_ne_true, if_neg hl]
          exact State.recvQueue_done_frame s body _ e _ _ _
      · exact ⟨_, rfl, rfl⟩

theorem execVinPathTimeout_frame (u n k : Nat) (y : Bool) (s : State) :
    ∃ t, execVinPathTimeout u n k y s = .next t ∧ t = { s with hub := t.hub, bio := t.bio } := by
  unfold execVinPathTimeout
  dsimp only
  generalize (!_ : Bool) = heard
  cases heard <;> exact ⟨_, rfl, rfl⟩

theorem execVinSignalTimeout_frame (u : Nat) (s : State) :
    ∃ t, execVinSignalTimeout u s = .next t ∧ t = { s with hub := t.hub, bio := t.bio } := by
  unfold execVinSignalTimeout
  dsimp only
  by_cases h : s.hub.get1 VIN.STATUS.STATE u = 2 ∧ (if (s.fab.vinPers u).code = 2 then s.sdiLost (s.fab.vinPers u)
      else decide ((((s.bio.vin u).video).getD 0) * (s.fab.vinPers u).num + 2 * 1000000000 * (s.fab.vinPers u).den ≤
        s.hub.elapsed * (s.fab.vinPers u).num)) = true
  · exact ⟨_, congrArg Host.Outcome.next (if_pos h), rfl⟩
  · exact ⟨_, congrArg Host.Outcome.next (if_neg h), rfl⟩

theorem execSdiTxFrame_frame (u : Nat) (s : State) : ∃ t, execSdiTxFrame u s = .next t ∧ t = { s with hub := t.hub, bio := t.bio } := by
  unfold execSdiTxFrame
  split
  · exact ⟨_, rfl, rfl⟩
  · dsimp only
    split
    · split <;> exact ⟨_, rfl, rfl⟩
    · split <;> exact ⟨_, rfl, rfl⟩

theorem execTsoRowReceive_frame (u a b c d f : Nat) (s : State) :
    ∃ t, execTsoRowReceive u a b c d f s = .next t ∧ t = { s with hub := t.hub, bio := t.bio } := by
  unfold execTsoRowReceive
  dsimp only
  split
  · exact ⟨_, rfl, rfl⟩
  · split <;> exact ⟨_, rfl, rfl⟩

theorem execPsiTimer_frame (u : Nat) (s : State) : ∃ t, execPsiTimer u s = .next t ∧ t = { s with hub := t.hub, bio := t.bio } := by
  unfold execPsiTimer
  dsimp only
  split <;> exact ⟨_, rfl, rfl⟩

end Sys2Proof.Machine
end

-- ==== O45 ====
section
/-!
SETTLED. What image and broadcast commands leave unchanged.
-/

namespace Sys2Proof.Machine

/-- Settles O45: each command of the lists by its own frame. -/
theorem mediaFrames : Obligations.MediaFrames := by
  unfold Obligations.MediaFrames
  intro e body u n k y rec s
  refine ⟨?inputs, ?queries, execTemplateRecordReceive_frame u rec y s, ?receivers, ?timers⟩
  case inputs =>
    simp only [List.forall_mem_cons]
    exact ⟨execHeaderRecordReceive_frame u n y rec s, execPictureDescriptorReceive_frame u n rec s, by simp⟩
  case queries =>
    simp only [List.forall_mem_cons]
    exact ⟨execEncStats_frame e body s, execDecStats_frame e body s, execSplStats_frame e body s, execLinkStats_frame e body s, by simp⟩
  case receivers =>
    simp only [List.forall_mem_cons]
    exact ⟨execSplRecvSet_frame e body s, execSplRecvDel_frame e body s, by simp⟩
  case timers =>
    simp only [List.forall_mem_cons]
    exact ⟨execVinPathTimeout_frame u n k y s, execVinSignalTimeout_frame u s, execSdiTxFrame_frame u s, execTsoRowReceive_frame u n k k k k s,
      execPsiTimer_frame u s, by simp⟩

end Sys2Proof.Machine
end

-- ==== Support for O46: splicers ====
section
/-!
SUPPORT. The splice deadline and a pane's chunk at a splicer without receivers, and what an accepted receiver and pane sheet leave.
-/

namespace Sys2Proof.Machine

theorem State.splRun_noRecvs (s : State) (u : Nat) (dl : Option Nat) (hr : s.spl.recvs = []) :
    s.splRun u dl = { s with spl := { s.spl with
      store := s.spl.store.filter fun p => decide (p.spl ≠ u) || decide (s.hub.time.total < p.frame + s.spl.waitNs), replaced := [] } } := by
  unfold State.splRun State.splPurge
  rw [hr]
  have hnone : s.spl.replaced.filter (fun _ => false) = [] := List.filter_eq_nil_iff.mpr fun _ _ => Bool.false_ne_true
  simp only [List.filter_nil, List.foldl_nil, hr, List.any_nil, Bool.or_false, hnone]
  rfl

/-- The first chunk of a pane's payload at a splicer without receivers is what its store then holds (R210). -/
theorem State.paneChunkIn_first (s : State) (u : Nat) (b : List Byte) (hr : s.spl.recvs = []) (hst : s.spl.store = [])
    (hex : (s.spl.stream u (bodyN b 4 2 % 1024)).exports = []) (hlast : bodyN b 4 2 < 32768)
    (hroom : b.length - 16 ≤ ((s.fab.part (bodyN (s.fab.persAt 4 u).2 0 2 % 4096)).map (·.size)).getD 0) (frame : Nat)
    (hframe : instantAt (s.splFps u).1 (s.splFps u).2 (bodyN b 12 4 * 1000000000 + bodyN b 8 4) = frame)
    (hearly : s.hub.time.total < frame + s.spl.waitNs) :
    s.paneChunkIn u b false = { s with spl := { s.spl with
      store := [{ spl := u, stream := bodyN b 4 2 % 1024, frame := frame, bytes := b.drop 16, flags := bodyU8 b 6, qp := bodyU8 b 7, done := false }]
      replaced := [] } } := by
  have hfull : ¬(((s.fab.part (bodyN (s.fab.persAt 4 u).2 0 2 % 4096)).map (·.size)).getD 0 < s.spl.stored u + (b.drop 16).length) := by
    simp only [SplSt.stored, hst, List.filter_nil, List.foldl_nil, List.length_drop]
    omega
  have hl : ¬(bodyN b 4 2 / 32768 = 1) := by omega
  unfold State.paneChunkIn
  dsimp only
  simp only [if_neg hfull, hframe, hex, List.foldl_nil, hst, List.find?_nil, Option.getD_none, List.filter_nil, List.nil_append,
    Nat.or_self, decide_eq_false hl, Bool.false_eq_true, if_false, false_and, Bool.or_self]
  refine (State.splRun_noRecvs _ u none (by exact hr)).trans ?_
  have hkeep : ∀ p : PanePay, p.frame = frame →
      [p].filter (fun q => decide (q.spl ≠ u) || decide (s.hub.time.total < q.frame + s.spl.waitNs)) = [p] := fun p hp =>
    List.filter_eq_self.mpr fun q hq => by
      rw [List.mem_singleton.mp hq, hp]
      simp [hearly]
  exact congrArg (fun l => { s with spl := { s.spl with store := l, replaced := [] } }) (hkeep { spl := u, stream := bodyN b 4 2 % 1024, frame := frame, bytes := b.drop 16, flags := bodyU8 b 6, qp := bodyU8 b 7, done := false } rfl)

theorem State.spliceDeadline_due (s : State) (u frame id : Nat) (p : PaneStream) (hon : (s.fab.persAt 4 u).1 = 1)
    (ht : frame + s.spl.waitNs ≤ s.hub.time.total) (hr : s.spl.recvs = []) (hst : s.spl.store = []) (hid : id < 1024)
    (hp : s.spl.streams = [(paneKey u id, p)]) (hdue : p.due = some frame) (w : State)
    (hw : { s with spl := { s.spl with replaced := [], streams := [(paneKey u id, { p with due := none, last := some frame })] } } = w) :
    execSpliceDeadline u frame s = .next (((w.splErr SPL.SWITCH_RETRY.COUNT u).splRaise 0x0B02 u id).paneNeed u id) := by
  have hrun : s.splRun u (some frame) = { s with spl := { s.spl with replaced := [] } } := by
    rw [State.splRun_noRecvs s u _ hr, hst, List.filter_nil, ← hst]
  have hmine : ([(paneKey u id, p)].filter fun q => q.1 / 1024 = u ∧ q.2.due = some frame) = [(paneKey u id, p)] := by
    simp only [paneKey, hdue, List.filter_cons, List.filter_nil]
    rw [if_pos (by simp; omega)]
  have hkey : paneKey u id % 1024 = id := by
    unfold paneKey
    omega
  have hstream : ({ s.spl with replaced := [] } : SplSt).stream u id = p := by
    simp [SplSt.stream, hp, kvGet]
  unfold execSpliceDeadline
  dsimp only
  rw [if_neg (by simp [hon, ht]), hrun, hp, hmine, List.map_cons, List.map_nil, List.foldl_cons, List.foldl_nil, hkey]
  have hpay : s.spl.pay u id frame = none := by
    simp [SplSt.pay, hst]
  rw [hpay, State.refreshJudge]
  dsimp only
  rw [hstream, if_neg (by simp [hdue])]
  simp only [Bool.false_eq_true, if_false]
  rw [← hw]
  simp [SplSt.setStream, hp, kvPut]

/-- A receiver that is not refused as a new one has no entry yet. -/
theorem State.recvRefused_new (s : State) (e : CmdEnv) (b : List Byte) (h : s.recvRefused e b true = none) :
    kvHas (recvKey (refInst (bodyN b 0 2)) (bodyN b 2 2)) s.spl.recvs = false := by
  refine Decidable.byContradiction fun hk => ?_
  have hk := eq_true_of_ne_false hk
  unfold State.recvRefused at h
  dsimp only at h
  repeat' split at h
  all_goals simp_all

theorem execSplRecvAdd_adds (e : CmdEnv) (body : List Byte) (s : State) (h : s.recvRefused e body true = none) (hl : e.latched = false)
    (w : Template) (hw : kvGet (256 * refInst (bodyN body 0 2) + bodyU8 body 6) s.spl.templates = some w) :
    ∃ t v, execSplRecvAdd e body s = .next t ∧ kvGet (recvKey (refInst (bodyN body 0 2)) (bodyN body 2 2)) t.spl.recvs = some v ∧
      v.out = bodyN body 4 2 ∧ v.tpl = bodyU8 body 6 ∧ v.tplAt = w.at_ ∧ v.changes = [] ∧ v.pos = freshPos (recvStreams body w.npos) ∧
      (∀ j, j ≠ recvKey (refInst (bodyN body 0 2)) (bodyN body 2 2) → kvGet j t.spl.recvs = kvGet j s.spl.recvs) := by
  unfold execSplRecvAdd
  rw [h]
  dsimp only
  rw [if_neg (Bool.eq_false_iff.mp hl), State.recvAdd]
  dsimp only
  rw [hw]
  dsimp only
  rw [if_neg (Bool.eq_false_iff.mp (s.recvRefused_new e body h))]
  refine ⟨_, { out := bodyN body 4 2, tpl := bodyU8 body 6, tplAt := w.at_, pos := freshPos (recvStreams body w.npos)
               frame := instantFrom (s.splFps (refInst (bodyN body 0 2))).1 (s.splFps (refInst (bodyN body 0 2))).2 s.hub.time.total }, rfl,
    kvGet_kvPut_self _ _ _, rfl, rfl, rfl, rfl, rfl, fun j hj => kvGet_kvPut_ne _ _ _ _ hj⟩

/-- A pane sheet that fits its rendition waits there for the next frame start (R205). -/
theorem execSplPaneset_fits (e : CmdEnv) (body : List Byte) (s : State) (us : List EncPers) (p : EncPers) (x : EncRend)
    (hus : (s.encUnits (bodyN body 2 2)).map (fun v => s.encPers v (s.fab.cls (bodyN body 2 2))) = us) (hp : us.head? = some p)
    (hx : kvGet (8 * bodyN body 2 2 + bodyU8 body 4) s.enc.rends = some x)
    (hr : s.hub.reachesSash e.fn (bodyN body 2 2) = true) (ht : refType (bodyN body 0 2) = 4) (hc : refInst (bodyN body 0 2) < s.hub.unitCount 4)
    (hover : panesOverlap ((List.range (min (bodyU8 body 5) 64)).map (paneOf body)) = false) (hcodec : p.codec ≠ 4)
    (hin : ∀ q ∈ (List.range (min (bodyU8 body 5) 64)).map (paneOf body), q.w ≠ 0 ∧ q.h ≠ 0 ∧
      q.x + q.w ≤ ceilDiv (x.cfg.size p (bodyU8 body 4)).1 64 ∧ q.y + q.h ≤ ceilDiv (x.cfg.size p (bodyU8 body 4)).2 64)
    (hedge : ∀ q ∈ (List.range (min (bodyU8 body 5) 64)).map (paneOf body),
      ∀ a ∈ (encTiles us).1.map fun a => if bodyU8 body 4 = 0 then a else a * (x.cfg.size p (bodyU8 body 4)).1 / p.outW / 64 * 64,
        a ≤ 64 * q.x ∨ 64 * (q.x + q.w) ≤ a)
    (hbig : p.codec = 1 → ∀ q ∈ (List.range (min (bodyU8 body 5) 64)).map (paneOf body), q.w ≤ 64 ∧ q.w * q.h ≤ 2304) :
    ∃ t y, execSplPaneset e body s = .next t ∧ kvGet (8 * bodyN body 2 2 + bodyU8 body 4) t.enc.rends = some y ∧
      y.nextPanes = some (if min (bodyU8 body 5) 64 = 0 then none
        else some (refInst (bodyN body 0 2), (List.range (min (bodyU8 body 5) 64)).map (paneOf body))) := by
  cases us with
  | nil => simp at hp
  | cons p1 us =>
    obtain rfl : p1 = p := by simpa using hp
    unfold execSplPaneset
    dsimp only
    rw [hus, hx]
    dsimp only
    generalize (List.range (min (bodyU8 body 5) 64)).map (paneOf body) = ps at *
    generalize (encTiles (p1 :: us)).1.map (fun a => if bodyU8 body 4 = 0 then a else a * (x.cfg.size p1 (bodyU8 body 4)).1 / p1.outW / 64 * 64) =
      edges at *
    have hout : ps.any (fun q => decide (q.w = 0 ∨ q.h = 0 ∨ ceilDiv (x.cfg.size p1 (bodyU8 body 4)).1 64 < q.x + q.w ∨
        ceilDiv (x.cfg.size p1 (bodyU8 body 4)).2 64 < q.y + q.h)) = false := by
      simp only [List.any_eq_false, decide_eq_true_eq]
      intro q hq
      have := hin q hq
      omega
    have hstr : ps.any (fun q => edges.any fun a => decide (64 * q.x < a ∧ a < 64 * (q.x + q.w))) = false := by
      simp only [List.any_eq_false, List.any_eq_true, decide_eq_true_eq]
      rintro q hq ⟨a, ha, h⟩
      have := hedge q hq a ha
      omega
    have hb : ps.any (fun q => p1.codec == 1 && decide (64 < q.w ∨ 2304 < q.w * q.h)) = false := by
      simp only [List.any_eq_false, Bool.and_eq_true, beq_iff_eq, decide_eq_true_eq]
      rintro q hq ⟨hc1, h⟩
      have := hbig hc1 q hq
      omega
    rw [if_neg (negated_of hr), if_neg (by simp [ht]; omega), if_neg (by simp only [hover, hout, hstr, hb, hcodec]; simp)]
    exact ⟨_, _, rfl, kvGet_kvPut_self _ _ _, rfl⟩

end Sys2Proof.Machine
end

-- ==== O46 ====
section
/-!
SETTLED. Splicer inputs and service.
-/

namespace Sys2Proof.Machine

/-- Settles O46: templates, chunks and deadlines by what the splicer then holds, the service's commands by their refusals in order. -/
theorem splicing : Obligations.Splicing := by
  unfold Obligations.Splicing
  refine ⟨⟨?template, ?chunk, ?deadline⟩, ?service⟩
  case template =>
    intro u rec s id others bad
    have harm : exec (.templateRecordReceive u rec false) s = execTemplateRecordReceive u rec false s := rfl
    rw [harm, execTemplateRecordReceive]
    refine ⟨rfl, fun hb => ⟨_, congrArg Host.Outcome.next ((if_neg Bool.false_ne_true).trans (if_pos hb)), rfl, rfl⟩, fun hb => ?_⟩
    refine ⟨_, _, congrArg Host.Outcome.next ((if_neg Bool.false_ne_true).trans (if_neg hb)), kvGet_kvPut_self _ _ _, rfl, rfl, rfl, rfl, rfl,
      fun old ho => ?_, rfl⟩
    refine List.mem_append_right _ ?_
    rw [ho]
    exact List.mem_singleton_self _
  case chunk =>
    intro u chunk poison s
    have harm : exec (.paneChunkReceive u chunk poison) s = execPaneChunkReceive u chunk poison s := rfl
    rw [harm, execPaneChunkReceive]
    refine ⟨fun h => congrArg Host.Outcome.next (if_neg h), fun hp hon hr hst hex hlast hroom frame hframe hearly => ?_⟩
    subst hp
    exact congrArg Host.Outcome.next ((if_pos hon).trans (s.paneChunkIn_first u chunk hr hst hex hlast hroom frame hframe hearly))
  case deadline =>
    intro u frame s
    exact ⟨fun h => congrArg Host.Outcome.next (if_pos h), s.spliceDeadline_due u frame⟩
  case service =>
    intro e body s u k n unit served
    have hset : exec (.splRecvSet e body) s = execSplRecvSet e body s := rfl
    have hadd : exec (.splRecvAdd e body) s = execSplRecvAdd e body s := rfl
    refine ⟨?none, ?sheet, ?import_, ?refused, ?add, ?hold, ?receiver, ?unknown, ?norefresh, ?refresh⟩
    case none =>
      intro h
      have harm : exec (.splPaneset e body) s = execSplPaneset e body s := rfl
      rw [harm, execSplPaneset, h]
      rfl
    case sheet =>
      intro us p x hus hp hx ps sz edges hr hu hover hcodec hin hedge hbig
      exact execSplPaneset_fits e body s us p x hus hp hx hr hu.1 hu.2 hover hcodec hin hedge hbig
    case import_ =>
      intro hu hs
      have harm : exec (.splImport e body) s = execSplImport e body s := rfl
      have hunit : ¬(refType (bodyN body 0 2) ≠ 4 ∨ s.hub.unitCount 4 ≤ refInst (bodyN body 0 2)) :=
        not_or.mpr ⟨fun h => h hu.1, Nat.not_le.mpr hu.2⟩
      have hserved : ¬(e.fn ≠ 0 ∧ (!(s.fab.users 4 (refInst (bodyN body 0 2))).any (s.hub.reachesSash e.fn)) = true) := fun h =>
        hs.elim h.1 fun h1 => negated_of h1 h.2
      rw [harm, execSplImport]
      dsimp only
      rw [if_neg hunit, if_neg hserved]
      refine ⟨fun h => congrArg Host.Outcome.next (if_pos (.inl h)), fun h1 h2 h3 => ?_⟩
      rw [if_neg (by omega)]
      exact ⟨fun hsrc => congrArg Host.Outcome.next (if_pos (Option.isSome_iff_ne_none.mpr hsrc)),
        fun hsrc => congrArg Host.Outcome.next (if_neg (by simp [u, n] at hsrc; simp [hsrc]))⟩
    case refused =>
      intro st
      refine ⟨fun h => ?_, fun h => ?_⟩
      · rw [hadd, execSplRecvAdd, h]
      · rw [hset, execSplRecvSet, h]
    case add =>
      intro h
      refine ⟨fun hl => ?_, fun hl w hw => execSplRecvAdd_adds e body s h hl w hw⟩
      rw [hadd, execSplRecvAdd, h]
      exact congrArg Host.Outcome.next (if_pos hl)
    case hold =>
      intro h hl
      rw [hset, execSplRecvSet, h]
      exact congrArg Host.Outcome.next (if_pos hl)
    case receiver =>
      intro v hv own
      have hdel : exec (.splRecvDel e body) s = execSplRecvDel e body s := rfl
      have hstats : exec (.splStats e body) s = execSplStats e body s := rfl
      have hqueue : ∀ c, s.recvQueue body c = s.setRecv u n { v with changes := v.changes ++ [c] } := fun c => by
        unfold State.recvQueue
        dsimp only
        rw [hv]
      rw [execSplRecvDel] at hdel
      dsimp only at hdel
      rw [hv] at hdel
      rw [execSplStats] at hstats
      dsimp only at hstats
      rw [hv] at hstats
      refine ⟨fun h hl => ?_, fun ht ho => ⟨?_, ?_⟩, fun ht ho => ⟨fun hl => ?_, fun hl => ?_, ?_⟩⟩
      · rw [hset, execSplRecvSet, h]
        dsimp only
        rw [if_neg (Bool.eq_false_iff.mp hl), hqueue]
      · exact hdel.trans (congrArg Host.Outcome.next ((if_neg (not_not_intro ht)).trans (if_pos (by rw [Bool.not_eq_true']; exact ho))))
      · exact hstats.trans (congrArg Host.Outcome.next ((if_neg (not_not_intro ht)).trans (if_pos (by rw [Bool.not_eq_true']; exact ho))))
      · exact hdel.trans (congrArg Host.Outcome.next ((if_neg (not_not_intro ht)).trans ((if_neg (negated_of ho)).trans (if_pos hl))))
      · rw [← hqueue]
        exact hdel.trans (congrArg Host.Outcome.next ((if_neg (not_not_intro ht)).trans ((if_neg (negated_of ho)).trans
          (if_neg (Bool.eq_false_iff.mp hl)))))
      · exact hstats.trans (congrArg Host.Outcome.next ((if_neg (not_not_intro ht)).trans (if_neg (negated_of ho))))
    case unknown =>
      intro hv
      have hdel : exec (.splRecvDel e body) s = execSplRecvDel e body s := rfl
      have hstats : exec (.splStats e body) s = execSplStats e body s := rfl
      rw [execSplRecvDel] at hdel
      dsimp only at hdel
      rw [hv] at hdel
      rw [execSplStats] at hstats
      dsimp only at hstats
      rw [hv] at hstats
      exact ⟨hdel, hstats⟩
    case norefresh =>
      intro h
      have harm : exec (.splRefresh e body) s = execSplRefresh e body s := rfl
      rw [harm, execSplRefresh]
      exact congrArg Host.Outcome.next (if_pos (h.imp id (Or.imp id fun hk => by rw [Bool.not_eq_true']; exact hk)))
    case refresh =>
      intro ht hn hk own
      have harm : exec (.splRefresh e body) s = execSplRefresh e body s := rfl
      have hgo : ¬(refType (bodyN body 0 2) ≠ 4 ∨ 1024 ≤ bodyN body 2 2 ∨
          (!kvHas (paneKey (refInst (bodyN body 0 2)) (bodyN body 2 2)) s.spl.streams) = true) :=
        not_or.mpr ⟨not_not_intro ht, not_or.mpr ⟨Nat.not_le.mpr hn, negated_of hk⟩⟩
      rw [execSplRefresh, if_neg hgo] at harm
      exact ⟨fun h => harm.trans (congrArg Host.Outcome.next (if_neg fun hh => h.elim hh.1 fun ho => negated_of ho hh.2)),
        fun h0 ho => harm.trans (congrArg Host.Outcome.next (if_pos ⟨h0, by rw [Bool.not_eq_true']; exact ho⟩))⟩

end Sys2Proof.Machine
end

-- ==== O47 ====
section
/-!
SETTLED. Video inputs, stripes and transmit lanes, transport outputs: refuted where an input keeps two frames of one number.
-/

namespace Sys2Proof.Machine

/-- The definition of video input 0: 3840 × 2160, its flow of payload type 96 on port 0. -/
def twinBlock : List Byte := [0, 0] ++ leBytes 2 3840 ++ leBytes 2 2160 ++ List.replicate 15 0 ++ [1] ++ List.replicate 13 0 ++ [96] ++ List.replicate 28 0

/-- A video input, with a path from slice 0, that keeps two frames of one number: a line of the second one's packet is put down to the first. -/
def twinFrames : State :=
  { hub := { bar := .live }
    fab := { pers := [⟨mkRef 11 0, 1, twinBlock, []⟩], built := [⟨0, 0, mkRef 8 0, mkRef 11 0, 1, false, false⟩], ports := [⟨3, 0, 0, 1, 0x2000⟩] }
    bio := { vins := [(0, { frames := [{ num := 0, ts := 5, cf := 0 }, { num := 0, ts := 7, cf := 0 }] })] } }

/-- A packet of the second frame, with a piece of its line 0. -/
def twinPacket : VinPkt := ⟨0, 0, 96, 1, 7, [⟨0, 0, 2, false, []⟩], [], [], [], false⟩

/-- An outcome's next state keeps no frame of the packet's timestamp at the input. -/
def frameGone : Host.Outcome State Fault Refusal → Bool
  | .next t => (t.bio.vin 0).frames.all fun g => g.ts != 7
  | _ => false

theorem twinPacket_flow : ∃ f, (twinFrames.fab.vinPers 0).flows[0]? = some f ∧ (twinFrames.fab.vinPers 0).uses f = true ∧ f.kind = 0 ∧ f.pt = 96 ∧
    twinFrames.fab.vinPath 0 f.eth = true := by
  refine ⟨_, rfl, ?_⟩
  decide +kernel

theorem twinPacket_frameGone : frameGone (exec (.vinPacketReceive twinPacket) twinFrames) = true := by decide +kernel

/-- Refutes O47: a packet of the second of two frames of one number leaves both with the first one's timestamp. -/
theorem not_broadcastInputsAndOutputs : ¬ Obligations.BroadcastInputsAndOutputs := by
  unfold Obligations.BroadcastInputsAndOutputs
  rintro ⟨⟨hall, -⟩, -⟩
  obtain ⟨f, hf, huses, hkind, hpt, hpath⟩ := twinPacket_flow
  have hused := (hall twinPacket f twinFrames hf rfl huses (.inl (by decide +kernel)) (by decide +kernel)).2.2 hpath hpt.symm
  have huse : (((kvGet (8 * f.kind + f.group) (twinFrames.bio.vin 0).groups).getD {}).take (twinFrames.fab.vinPers 0) (vinRate f.kind) 1 7 f.pathB
      twinFrames.hub.elapsed).2 = .use := rfl
  obtain ⟨t, hexec, -, hframe⟩ := hused.1 huse
  obtain ⟨g, hg, hts⟩ := hframe hkind
  have hgone := twinPacket_frameGone
  rw [hexec] at hgone
  have hne := List.all_eq_true.mp hgone g hg
  have hne7 : ¬(g.ts = 7) := by simpa using hne
  exact hne7 hts

end Sys2Proof.Machine
end

-- ==== Support for O48: gain steps and rooms ====
section
/-!
SUPPORT. The voices that the rooms' timer chooses, by tag.
-/

namespace Sys2Proof.Machine

/-- The voices of a list of room tags, chosen one by one (R255). -/
theorem kvGet_voices (f : Nat → Option Nat) (t : Nat) (l : List Nat) (m : List (Nat × Nat)) :
    kvGet t (l.foldl (fun (m : List (Nat × Nat)) t => match f t with
      | some j => kvPut t j m
      | none => m) m) = if t ∈ l then (f t).or (kvGet t m) else kvGet t m := by
  induction l generalizing m with
  | nil => simp
  | cons a l ih =>
    rw [List.foldl_cons, ih]
    by_cases hta : t = a
    · subst hta
      cases hf : f t with
      | none => simp
      | some j => simp [kvGet_kvPut_self]
    · have hput : kvGet t (match f a with
          | some j => kvPut a j m
          | none => m) = kvGet t m := by
        cases f a with
        | none => rfl
        | some j => exact kvGet_kvPut_ne _ _ _ _ hta
      rw [hput]
      simp [hta]

theorem AudSt.src_setSrc (a : AudSt) (n : Nat) (x : AudSrc) : (a.setSrc n x).src n = x := by
  simp only [AudSt.setSrc, AudSt.src, kvGet_kvPut_self, Option.getD_some]

theorem AudSt.snk_setSnk (a : AudSt) (n : Nat) (x : AudSnk) : (a.setSnk n x).snk n = x := by
  simp only [AudSt.setSnk, AudSt.snk, kvGet_kvPut_self, Option.getD_some]

theorem execOnePerRoomTimer_due (s : State) (h : pastMs s.hub.elapsed s.aud.roomAt 100 10 = true) :
    ∃ t : State, execOnePerRoomTimer s = .next t ∧ t.hub = s.hub ∧ (∀ x ∈ t.aud.srcs, x.2.room = 0) ∧
      t.aud.srcs.map (fun x => (x.1, x.2.tag)) = s.aud.srcs.map (fun x => (x.1, x.2.tag)) ∧
      (∀ x ∈ s.aud.srcs, x.2.tag ≠ 0 → kvGet x.2.tag t.aud.voices = s.voiceOf x.2.tag) := by
  refine ⟨_, congrArg Host.Outcome.next (if_neg (negated_of h)), rfl, ?_, ?_, fun x hx ht => ?_⟩
  · intro x hx
    obtain ⟨y, -, rfl⟩ := List.mem_map.mp hx
    rfl
  · exact List.map_map
  · refine (kvGet_voices s.voiceOf x.2.tag _ []).trans ?_
    rw [if_pos]
    · cases s.voiceOf x.2.tag <;> rfl
    · exact List.mem_eraseDups.mpr (List.mem_filter.mpr ⟨List.mem_map_of_mem hx, by simpa using ht⟩)

end Sys2Proof.Machine
end

-- ==== O48 ====
section
/-!
SETTLED. Gain steps, scaling, rooms and node changes.
-/

namespace Sys2Proof.Machine

theorem execGainStepZeroCross_due (k : Nat) (j : Option Nat) (sample d : Nat) (s : State) (cross : Bool)
    (hc : cross = (match j with
      | some i => crosses ((s.aud.src i).at s.fab.period (sample - 1)) ((s.aud.src i).at s.fab.period sample)
      | none => crosses (if sample = 6 * s.fab.period then (s.aud.snk k).sum else s.nodeSum k s.fab.period (sample - 1))
          (s.nodeSum k s.fab.period sample))) (hd : s.stepDue k j = some d) :
    execGainStepZeroCross k j sample s = .next (if d ≤ sample ∧ 6 * s.fab.period ≤ sample ∧ sample < 6 * s.fab.period + 6 ∧ 1 ≤ sample ∧ cross ∧
      sample < d + s.hub.zcSamples ∧ s.lastStep k j < sample then s.gainStep k j sample else s) := by
  have h : execGainStepZeroCross k j sample s = execGainStepZeroCross k j sample s := rfl
  conv at h => rhs; unfold execGainStepZeroCross
  rw [hd] at h
  subst hc
  exact h

/-- Settles O48: each gain step by what is due and whether the signal crosses, rooms and node changes by what they put in place. -/
theorem audioGains : Obligations.AudioGains := by
  unfold Obligations.AudioGains
  refine ⟨?steps, ?node, ?hold, ?rooms, ?changes⟩
  case steps =>
    intro k j sample d s hd p cross
    have hcross : exec (.gainStepZeroCross k j sample) s = _ := execGainStepZeroCross_due k j sample d s cross rfl hd
    have htime : exec (.gainStepTimeout k j) s = execGainStepTimeout k j s := rfl
    rw [execGainStepTimeout, hd] at htime
    refine ⟨fun hc h1 h2 h3 h4 h5 h6 => ?_, fun h => ?_, fun h => ?_, fun h => ?_⟩
    · exact hcross.trans (congrArg Host.Outcome.next (if_pos ⟨h1, h2, h3, h4, hc, h5, h6⟩))
    · refine hcross.trans (congrArg Host.Outcome.next (if_neg ?_))
      rintro ⟨h1, -, -, -, hc, -, h6⟩
      rcases h with h | h | h
      · exact Bool.false_ne_true (h.symm.trans hc)
      · exact Nat.not_lt.mpr h1 h
      · exact Nat.not_lt.mpr h h6
    · exact htime.trans (congrArg Host.Outcome.next (if_pos h))
    · exact htime.trans (congrArg Host.Outcome.next (if_neg (Nat.not_lt.mpr h)))
  case node =>
    intro k i smp n s hn
    have hnode : s.aud.node k i = n := by
      simp only [AudSt.node, hn, Option.getD_some]
    unfold State.gainStep
    dsimp only
    rw [hnode, AudNode.step]
  case hold =>
    intro k g t s hlow
    have harm : exec (.asHoldExpiry k) s = execAsHoldExpiry k s := rfl
    rw [harm, execAsHoldExpiry, hlow]
    refine ⟨fun h => congrArg Host.Outcome.next (if_neg (Nat.not_le.mpr h)), fun h => ?_⟩
    have hsnk := AudSt.snk_setSnk s.aud k { s.aud.snk k with
      goal := g, low := none, due := if (s.aud.snk k).due.isSome then (s.aud.snk k).due else some s.smpNow }
    refine ⟨_, congrArg Host.Outcome.next (if_pos h), congrArg AudSnk.goal hsnk, congrArg AudSnk.low hsnk, (congrArg AudSnk.att hsnk).trans rfl, ?_, rfl⟩
    refine fun hnone => absurd ((congrArg AudSnk.due hsnk).symm.trans hnone) ?_
    dsimp only
    split
    · exact Option.isSome_iff_ne_none.mp ‹_›
    · exact Option.some_ne_none _
  case rooms =>
    intro s
    exact ⟨fun h => congrArg Host.Outcome.next (if_pos (by simp [h])), execOnePerRoomTimer_due s⟩
  case changes =>
    intro e body s h1 h2
    have hset : exec (.audNodeSet e body) s = execAudNodeSet e body s := rfl
    have hroom : exec (.audRoom e body) s = execAudRoom e body s := rfl
    have hn : ¬(bodyN body 0 2 = 0 ∨ 1024 < bodyN body 0 2) := by omega
    refine ⟨fun hall => ?_, fun hone h3 h4 => ?_⟩
    · have hin : ¬((nodeList body).any fun x => s.hub.xptSize ≤ x.1 ∨ s.hub.xptSize ≤ x.2.1) = true := by
        rw [Bool.not_eq_true, List.any_eq_false]
        intro x hx
        have := hall x hx
        simp only [decide_eq_true_eq]
        omega
      rw [hset, execAudNodeSet]
      dsimp only
      rw [if_neg hn, if_neg hin]
      exact ⟨fun hl => congrArg Host.Outcome.next (if_pos hl), fun hl => congrArg Host.Outcome.next (if_neg (Bool.eq_false_iff.mp hl))⟩
    · rw [hroom, execAudRoom, if_neg hn, hone]
      have hpart : decide (32768 ≤ bodyN body 4 2) = false := decide_eq_false (by omega)
      have hl : (List.range 1).map (fun i => (decide (32768 ≤ bodyN body (4 + 4 * i) 2), bodyN body (4 + 4 * i) 2 % 2048, bodyN body (6 + 4 * i) 2)) =
          [(false, bodyN body 4 2, bodyN body 6 2)] := by
        simp [List.range_one, hpart, Nat.mod_eq_of_lt h3]
      rw [hl, if_neg (by simp; omega)]
      have hsrc := AudSt.src_setSrc s.aud (bodyN body 4 2) { s.aud.src (bodyN body 4 2) with tag := bodyN body 6 2 }
      exact ⟨_, rfl, congrArg AudSrc.tag hsrc, (congrArg AudSrc.kind hsrc).trans rfl⟩

end Sys2Proof.Machine
end

-- ==== Support for O49: the audio service ====
section
/-!
SUPPORT. What the audio service's commands leave of sources, sinks, channels and rooms.
-/

namespace Sys2Proof.Machine

theorem AudSt.snk_setSnk_ne (a : AudSt) {n m : Nat} (x : AudSnk) (h : m ≠ n) : (a.setSnk n x).snk m = a.snk m := by
  simp only [AudSt.setSnk, AudSt.snk, kvGet_kvPut_ne _ _ _ _ h]

theorem State.audcStat_aud (s : State) (u : Nat) : (s.audcStat u).aud = s.aud := rfl

/-- Sinks that are bound to AUTO one by one: those of the list are AUTO, and one that is stays so. -/
theorem AudSt.foldl_auto (b m : Nat) (l : List Nat) (a : AudSt) (h : (a.snk m).auto = true ∨ ∃ k ∈ l, m = b + k) :
    ((l.foldl (fun (a : AudSt) k => a.setSnk (b + k) { (a.snk (b + k)) with auto := true }) a).snk m).auto = true := by
  induction l generalizing a with
  | nil => simpa using h
  | cons k l ih =>
    refine ih _ ?_
    by_cases hm : m = b + k
    · subst hm
      exact .inl (congrArg AudSnk.auto (AudSt.snk_setSnk _ _ _))
    · rw [AudSt.snk_setSnk_ne _ _ hm]
      rcases h with h | ⟨j, hj, hmj⟩
      · exact .inl h
      · rcases List.mem_cons.mp hj with rfl | hj
        · exact absurd hmj hm
        · exact .inr ⟨j, hj, hmj⟩

theorem AudSt.foldl_auto_confs (b : Nat) (l : List Nat) (a : AudSt) :
    (l.foldl (fun (a : AudSt) k => a.setSnk (b + k) { (a.snk (b + k)) with auto := true }) a).confs = a.confs := by
  induction l generalizing a with
  | nil => rfl
  | cons k l ih => exact (ih _).trans rfl

theorem AudSt.foldl_setNode (l : List (Nat × Nat × Nat)) (a : AudSt) :
    let b := l.foldl (fun (a : AudSt) e => a.setNode e.1 e.2.1 { (a.node e.1 e.2.1) with want := e.2.2 }) a
    b.snks = a.snks ∧ b.confs = a.confs := by
  induction l generalizing a with
  | nil => exact ⟨rfl, rfl⟩
  | cons e l ih => exact ih _

theorem State.nodeSet_snk (s : State) (smp : Nat) (l : List (Nat × Nat × Nat)) (m : Nat) : (s.nodeSet smp l).aud.snk m = s.aud.snk m := by
  unfold AudSt.snk
  rw [← (AudSt.foldl_setNode l s.aud).1]
  rfl

theorem State.nodeSet_confs (s : State) (smp : Nat) (l : List (Nat × Nat × Nat)) : (s.nodeSet smp l).aud.confs = s.aud.confs :=
  (AudSt.foldl_setNode l s.aud).2

/-- An accepted large room has its sinks bound to AUTO and no talkers yet (R255). -/
theorem execAudConf_makes (e : CmdEnv) (body : List Byte) (s : State) (h : s.confRefused e body = none) (hf : bodyU8 body 2 % 2 = 1) :
    ∃ (t : State) (x : AudConf), execAudConf e body s = .next t ∧ kvGet (bodyN body 0 2 % 4096) t.aud.confs = some x ∧ x.talkers = [] ∧
      x.t = (if bodyU8 body 3 = 0 then 32 else min (bodyU8 body 3) 32) ∧ x.src = bodyN body 4 2 ∧ x.snk = bodyN body 6 2 ∧
      (∀ k, k ≤ x.t → (t.aud.snk (x.snk + k)).auto = true) := by
  have harm : execAudConf e body s = execAudConf e body s := rfl
  conv at harm => rhs; unfold execAudConf
  rw [h] at harm
  dsimp only at harm
  rw [if_neg (by omega)] at harm
  refine ⟨_, { t := if bodyU8 body 3 = 0 then 32 else min (bodyU8 body 3) 32, src := bodyN body 4 2, snk := bodyN body 6 2
               dec := bodyN body 8 2, enc := bodyN body 10 2 }, harm, ?_, rfl, rfl, rfl, rfl, fun k hk => ?_⟩
  · rw [State.done_aud, State.nodeSet_confs]
    exact kvGet_kvPut_self _ _ _
  · rw [State.done_aud, State.nodeSet_snk]
    exact AudSt.foldl_auto _ _ _ _ (.inr ⟨k, List.mem_range.mpr (Nat.lt_succ_of_le hk), rfl⟩)

/-- An opened encode channel waits for its first frame boundary, its sinks bound to it (R253). -/
theorem State.encOpen_binds (s : State) (c : Nat) (x : AudEnc) :
    kvGet c (s.encOpen c x).aud.encs = some { x with next := some (ceilDiv s.smpNow x.n) } ∧ ((s.encOpen c x).aud.snk x.sink).kind = 1 ∧
      (x.stereo = true → ((s.encOpen c x).aud.snk (x.sink + 1)).kind = 1) := by
  unfold State.encOpen
  simp only [State.audcStat_aud]
  refine ⟨kvGet_kvPut_self _ _ _, ?_, fun h => ?_⟩
  · split
    · refine (congrArg AudSnk.kind (AudSt.snk_setSnk_ne _ _ (Nat.ne_of_lt (Nat.lt_succ_self _)))).trans ?_
      exact congrArg AudSnk.kind (AudSt.snk_setSnk _ _ _)
    · exact congrArg AudSnk.kind (AudSt.snk_setSnk _ _ _)
  · rw [if_pos h]
    exact congrArg AudSnk.kind (AudSt.snk_setSnk _ _ _)

end Sys2Proof.Machine
end

-- ==== O49 ====
section
/-!
SETTLED. Audio bindings, channels and large rooms.
-/

namespace Sys2Proof.Machine

/-- The commands of a bound source and sink, by what refuses them. -/
theorem exec_binds (e : CmdEnv) (body : List Byte) (s : State) :
    (∀ st, s.bindRefused (bodyN body 0 2) (bodyU8 body 2) (s.aud.src (bodyN body 0 2)).kind (bodyU8 body 4 % 128) true = some st →
      exec (.audSrcBind e body) s = .next (s.done e 0x0601 st [])) ∧
    (s.bindRefused (bodyN body 0 2) (bodyU8 body 2) (s.aud.src (bodyN body 0 2)).kind (bodyU8 body 4 % 128) true = none →
      exec (.audSrcBind e body) s = .next (({ s with aud := s.aud.setSrc (bodyN body 0 2) { s.aud.src (bodyN body 0 2) with
        kind := (bindOf body).1, ref := (bindOf body).2, buf := [] } } : State).done e 0x0601 0 [])) ∧
    (∀ st, s.bindRefused (bodyN body 0 2) (bodyU8 body 2) (s.aud.snk (bodyN body 0 2)).kind (bodyU8 body 4 % 128) false = some st →
      exec (.audSnkBind e body) s = .next (s.done e 0x0602 st [])) ∧
    (s.bindRefused (bodyN body 0 2) (bodyU8 body 2) (s.aud.snk (bodyN body 0 2)).kind (bodyU8 body 4 % 128) false = none →
      exec (.audSnkBind e body) s = .next (({ s with aud := s.aud.setSnk (bodyN body 0 2) { s.aud.snk (bodyN body 0 2) with
        kind := (bindOf body).1, ref := (bindOf body).2, auto := bodyU8 body 3 % 2 == 1 } } : State).done e 0x0602 0 [])) := by
  have hsrc : exec (.audSrcBind e body) s = execAudSrcBind e body s := rfl
  have hsnk : exec (.audSnkBind e body) s = execAudSnkBind e body s := rfl
  rw [execAudSrcBind] at hsrc
  rw [execAudSnkBind] at hsnk
  dsimp only at hsrc hsnk
  refine ⟨fun st h => ?_, fun h => ?_, fun st h => ?_, fun h => ?_⟩
  · rw [h] at hsrc
    exact hsrc
  · rw [h] at hsrc
    exact hsrc
  · rw [h] at hsnk
    exact hsnk
  · rw [h] at hsnk
    exact hsnk

/-- Settles O49: each command of the service by what refuses it, its accepted case by what it puts in place. -/
theorem audioService : Obligations.AudioService := by
  unfold Obligations.AudioService
  intro e body s n c
  obtain ⟨hsrc, hsrc1, hsnk, hsnk1⟩ := exec_binds e body s
  have hdec : exec (.audDecOpen e body) s = execAudDecOpen e body s := rfl
  have henc : exec (.audEncOpen e body) s = execAudEncOpen e body s := rfl
  have hclose : exec (.audClose e body) s = execAudClose e body s := rfl
  have hstats : exec (.audStats e body) s = execAudStats e body s := rfl
  have hconf : exec (.audConf e body) s = execAudConf e body s := rfl
  have hprof : exec (.audLegProfile e body) s = execAudLegProfile e body s := rfl
  rw [execAudClose] at hclose
  rw [execAudStats] at hstats
  refine ⟨hsrc, hsrc1, hsnk, hsnk1, fun st h => ?_, fun h => ?_, fun st h => ?_, fun h => ?_, fun d h0 hd => ⟨?_, ?_⟩, fun x h0 hx => ?_,
    fun h0 hd => ⟨?_, ?_⟩, fun st h => ?_, fun h => ⟨fun hf => ?_, execAudConf_makes e body s h⟩, fun h => ?_,
    fun l i o hn hl hi ho hr hl3 hig hog hleg hg hdec hc1 hc4 => ?_⟩
  · rw [hdec, execAudDecOpen, h]
  · rw [hdec, execAudDecOpen, h]
    have hbound := AudSt.src_setSrc s.aud (bodyN body 6 2) { s.aud.src (bodyN body 6 2) with kind := 1, ref := n, buf := [] }
    exact ⟨_, _, rfl, kvGet_kvPut_self _ _ _, rfl, (congrArg AudSrc.kind hbound), (congrArg AudSrc.ref hbound)⟩
  · rw [henc, execAudEncOpen, h]
  · rw [henc, execAudEncOpen, h]
    obtain ⟨hget, hkind, hstereo⟩ := s.encOpen_binds n (encChanOf body)
    exact ⟨_, rfl, hget, hkind, hstereo⟩
  · rw [if_pos h0, hd] at hclose
    exact hclose
  · rw [if_pos h0, hd] at hstats
    exact hstats
  · rw [if_neg h0, hx] at hclose
    exact hclose
  · rw [if_pos h0, hd] at hclose
    exact hclose
  · rw [if_pos h0, hd] at hstats
    exact hstats
  · rw [hconf, execAudConf, h]
  · rw [hconf, execAudConf, h]
    exact congrArg Host.Outcome.next (if_pos hf)
  · exact congrArg Host.Outcome.next (if_pos h)
  · rw [execAudLegProfile] at hprof
    have hin : kvGet (profOf body).inStream s.fwd.ins = some i := hi
    have hout : kvGet (profOf body).outStream s.fwd.outs = some o := ho
    have hgone : ¬(l.state = 3 ∨ i.gone = true ∨ o.gone = true) := by simp [hl3, hig, hog]
    have hids : ¬(1024 ≤ (profOf body).group ∨ (bodyN body 12 2 ≠ 0xFFFF ∧ 2048 ≤ bodyN body 12 2)) := by
      have : (profOf body).group = bodyN body 6 2 := rfl
      omega
    have hcodec : ¬((profOf body).codec = 0 ∨ 4 < (profOf body).codec ∨ o.leg ≠ bodyN body 0 2) := by
      have : (profOf body).codec = bodyU8 body 8 := rfl
      have : o.leg = bodyN body 0 2 := hleg
      omega
    rw [if_neg (Nat.not_le.mpr hn), hl, hin, hout] at hprof
    exact hprof.trans (congrArg Host.Outcome.next ((if_neg (negated_of hr)).trans ((if_neg hgone).trans ((if_neg hids).trans (if_neg hcodec)))))

end Sys2Proof.Machine
end

-- ==== Support for O50: audio streams ====
section
/-!
SUPPORT. Samples put into a source's buffer one after another.
-/

namespace Sys2Proof.Machine

theorem AudSrc.put_before (x : AudSrc) (at_ k : Nat) (l : List (Option Int)) (h : k < at_) :
    kvGet k (x.put at_ false l).buf = kvGet k x.buf := by
  induction l generalizing x at_ with
  | nil => rfl
  | cons v l ih =>
    rw [AudSrc.put, ih _ _ (Nat.lt_succ_of_lt h), if_neg (by simp)]
    exact kvGet_kvPut_ne _ _ _ _ (Nat.ne_of_lt h)

theorem AudSrc.put_at (x : AudSrc) (at_ i : Nat) (l : List (Option Int)) (h : i < l.length) :
    kvGet (at_ + i) (x.put at_ false l).buf = some l[i] := by
  induction l generalizing x at_ i with
  | nil => simp at h
  | cons v l ih =>
    rw [AudSrc.put]
    cases i with
    | zero =>
      rw [Nat.add_zero, AudSrc.put_before _ _ _ _ (Nat.lt_succ_self _), if_neg (by simp)]
      exact kvGet_kvPut_self _ _ _
    | succ i =>
      rw [show at_ + (i + 1) = (at_ + 1) + i by omega]
      exact ih _ _ _ (Nat.lt_of_succ_lt_succ h)

theorem State.cascadeIn_inTime (s : State) (dev chan period : Nat) (samples : List Int) (poison : Bool) (j : Nat) (x : AudSrc)
    (hf : (s.aud.srcs.find? fun e => e.2.kind = 4 ∧ e.2.ref = dev + 65536 * chan) = some (j, x)) (ht : s.fab.period ≤ period + 2)
    (hl : samples.length = 6) :
    (s.cascadeIn dev chan period samples poison).hub = s.hub ∧
      ∀ i, i < 6 → kvGet (6 * (period + 2) + i) ((s.cascadeIn dev chan period samples poison).aud.src j).buf =
        some (if poison then none else samples[i]?) := by
  have h : s.cascadeIn dev chan period samples poison = s.cascadeIn dev chan period samples poison := rfl
  conv at h => rhs; unfold State.cascadeIn
  rw [hf] at h
  dsimp only at h
  rw [if_neg (Nat.not_lt.mpr ht)] at h
  rw [h]
  refine ⟨rfl, fun i hi => ?_⟩
  refine (congrArg (fun y : AudSrc => kvGet (6 * (period + 2) + i) y.buf) (AudSt.src_setSrc _ _ _)).trans ?_
  refine (AudSrc.put_at x _ i _ (by simpa using hi)).trans ?_
  rw [List.getElem_map, List.getElem_range]
  cases poison
  · simp [hl, hi]
  · rfl

end Sys2Proof.Machine
end

-- ==== O50 ====
section
/-!
SETTLED. Audio packets, coded frames, cascades and talkers.
-/

namespace Sys2Proof.Machine

theorem execAudEncFrame_open (chan frame level : Nat) (coded : List Byte) (x : AudEnc) (s : State) (hx : kvGet chan s.aud.encs = some x)
    (hc : x.closing = none) (hu : s.codecUnit (mkRef 6 x.unit) = true) (h6 : x.codec ≠ 6) (h7 : x.codec ≠ 7)
    (ht : frame * x.n + x.n ≤ 6 * s.fab.period) (hn : x.next = some frame) (w : State)
    (hw : { s with aud := { s.aud with encs := kvPut chan { x with
      next := some (frame + 1), cnt := { x.cnt with frames := x.cnt.frames + (if coded = [] then 0 else 1) } } s.aud.encs } } = w) :
    (coded = [] → execAudEncFrame chan frame coded level s = .next w) ∧
    (coded ≠ [] → x.dest = 0 → execAudEncFrame chan frame coded level s = .next (w.audOut x.stream chan x.cnt.frames (frame * x.n) coded level)) ∧
    (coded ≠ [] → x.dest = 2 → execAudEncFrame chan frame coded level s = .next (w.tsoAudio chan
      (frame * x.n * 125000 / 6 + x.sync * 1000 - min (max (s.hub.get AUD.IN_DELAY.US) 125) 200000 * 1000)
      (audItem (frame * x.n * 125000 / 6 + x.sync * 1000 - min (max (s.hub.get AUD.IN_DELAY.US) 125) 200000 * 1000) coded))) := by
  have hraw : ¬(x.codec = 6 ∨ x.codec = 7) := not_or.mpr ⟨h6, h7⟩
  have hsent : coded ≠ [] → (coded ≠ [] ∨ x.codec = 6 ∨ x.codec = 7) := .inl
  have hgo : coded ≠ [] → ¬((!decide (coded ≠ [] ∨ x.codec = 6 ∨ x.codec = 7)) = true) := fun hcd => by simp [hcd]
  have h : execAudEncFrame chan frame coded level s = execAudEncFrame chan frame coded level s := rfl
  conv at h => rhs; unfold execAudEncFrame
  rw [hx] at h
  dsimp only at h
  rw [if_neg (by simp [hc, hu, hn]; omega), if_pos hraw] at h
  subst hw
  refine ⟨fun hcd => ?_, fun hcd hd => ?_, fun hcd hd => ?_⟩
  · rw [if_pos hcd]
    rw [if_neg (not_or.mpr ⟨not_not_intro hcd, hraw⟩), if_pos (by simp [hcd, h6, h7])] at h
    exact h
  · rw [if_neg hcd]
    rw [if_pos (hsent hcd), if_neg (hgo hcd), if_neg (by omega), if_pos hd] at h
    exact h
  · rw [if_neg hcd]
    rw [if_pos (hsent hcd), if_neg (hgo hcd), if_pos hd] at h
    exact h

theorem AudDec.grow_kept (d : AudDec) (m now : Nat) : (d.grow m now).cnt = d.cnt := by
  unfold AudDec.grow
  split <;> rfl

/-- Settles O50: packets by where they play, frames by their last sample, cascade blocks by their period, talkers by their interval. -/
theorem audioStreams : Obligations.AudioStreams := by
  unfold Obligations.AudioStreams
  refine ⟨?packet, ?frame, ?cascade, ?talk⟩
  case packet =>
    intro x d a s hd ha hu at_
    have harm : exec (.audPacketReceive x) s = execAudPacketReceive x s := rfl
    rw [execAudPacketReceive, hd] at harm
    have hanchor : d.anchor.isSome = true := by rw [ha, Option.isSome_some]
    refine ⟨fun hp => harm.trans (congrArg Host.Outcome.next (if_pos (.inl hp))), fun hp ht => ?_, fun hp ht => ?_⟩
    · dsimp only at harm
      rw [if_neg (by simp [hp, hu]), if_pos hanchor, ha, Option.getD_some, if_pos ht] at harm
      exact ⟨_, harm, rfl, rfl⟩
    · dsimp only at harm
      rw [if_neg (by simp [hp, hu]), if_pos hanchor, ha, Option.getD_some, if_neg (Int.not_lt.mpr ht)] at harm
      exact ⟨_, _, harm, rfl, kvGet_kvPut_self _ _ _, rfl, rfl, rfl⟩
  case frame =>
    intro chan frame level coded x s hx hc h6 h7 hu at_ y time
    refine ⟨fun ht => ?_, fun ht hn w hw => execAudEncFrame_open chan frame level coded x s hx hc hu h6 h7 ht hn w hw⟩
    have harm : exec (.audEncFrame chan frame coded level) s = execAudEncFrame chan frame coded level s := rfl
    rw [execAudEncFrame, hx] at harm
    exact harm.trans (congrArg Host.Outcome.next (if_pos (.inr (.inr (.inl ht)))))
  case cascade =>
    intro dev chan period samples poison j x s hf
    have harm : exec (.cascadeFlit dev chan period samples poison) s = .next (s.cascadeIn dev chan period samples poison) := rfl
    refine ⟨fun ht => ?_, fun ht hl => ⟨_, harm, s.cascadeIn_inTime dev chan period samples poison j x hf ht hl⟩⟩
    rw [State.cascadeIn, hf] at harm
    exact harm.trans (congrArg Host.Outcome.next (if_pos ht))
  case talk =>
    intro conf s
    have harm : exec (.talkIntervalTimer conf) s = execTalkIntervalTimer conf s := rfl
    rw [execTalkIntervalTimer] at harm
    refine ⟨fun hc => ?_, fun c hc => ⟨fun ht => ?_, fun ht s0 w hs0 hw => ?_⟩⟩
    · rw [hc] at harm
      exact harm
    · rw [hc] at harm
      exact harm.trans (congrArg Host.Outcome.next (if_pos (by simp [ht])))
    · rw [hc] at harm
      subst hs0 hw
      exact ⟨_, harm.trans (congrArg Host.Outcome.next (if_neg (negated_of ht)))⟩

end Sys2Proof.Machine
end

-- ==== Support for O51: beacons ====
section
/-!
SUPPORT. Each event of a beacon's transmission and of its reception, from what the leg or the dwell holds.
-/

namespace Sys2Proof.Machine

theorem gap_over {o : Option (Nat × Nat)} {now gap : Nat} (h : ∀ f, o = some f → f.2 + gap ≤ now) :
    ¬((o.map fun f => decide (now < f.2 + gap)).getD false = true) := by
  cases o with
  | none => simp
  | some f => simpa using h f rfl

theorem gap_open {o : Option (Nat × Nat)} {now gap : Nat} {f : Nat × Nat} (hf : o = some f) (h : now < f.2 + gap) :
    (o.map fun f => decide (now < f.2 + gap)).getD false = true := by
  subst hf
  simpa using h

theorem execDblFrameStart_starts (leg : Nat) (x : DblTx) (s : State) (wait : Nat) (hw : (125000 - s.hub.time.total % 125000) % 125000 = wait)
    (hx : kvGet leg s.dbl.tx = some x) (hs : x.stop = false) (hc : s.beaconChans leg ≠ [])
    (hf : ∀ f, x.frame = some f → f.2 + s.dbl.key 2 * 1000000 ≤ s.hub.elapsed + wait) :
    ∃ t : State, execDblFrameStart leg s = .next t ∧ kvGet leg t.dbl.tx = some { x with
      seq := (x.seq + 1) % 128
      paused := false
      sent := beaconSymbols x.pmod x.seq (s.token leg x.nonce)
      cutAt := none
      at_ := (s.hub.time.total + wait) * 6 / 125000
      frame := some (s.hub.elapsed + wait, s.hub.elapsed + wait + beaconMs x.pmod * 1000000) } := by
  have hgo : ¬(x.stop = true ∨ (s.beaconChans leg).isEmpty = true ∨
      (x.frame.map fun f => decide (s.hub.elapsed + wait < f.2 + s.dbl.key 2 * 1000000)).getD false = true) := by
    exact not_or.mpr ⟨Bool.eq_false_iff.mp hs, not_or.mpr ⟨fun h => hc (List.isEmpty_iff.mp h), gap_over hf⟩⟩
  have h : execDblFrameStart leg s = execDblFrameStart leg s := rfl
  conv at h => rhs; unfold execDblFrameStart
  rw [hx] at h
  dsimp only at h
  rw [hw, if_neg hgo] at h
  exact ⟨_, h, kvGet_kvPut_self _ _ _⟩

theorem execDblTx_starts (e : CmdEnv) (body : List Byte) (s : State) (h : s.dblRefused e (bodyN body 0 2) = none) (hb : bodyU8 body 2 ≠ 0)
    (hc : s.beaconChans (bodyN body 0 2) ≠ []) (hk : ∀ x ∈ s.beaconChans (bodyN body 0 2), 48 ≤ x.kbps) :
    ∃ (t : State) (x : DblTx), execDblTx e body s = .next t ∧ kvGet (bodyN body 0 2) t.dbl.tx = some x ∧ x.nonce = s.hub.freeVal (2 ^ 23) ∧
      x.pmod = (bodyU8 body 3 != 0) ∧ x.stop = false ∧ x.seq = 0 := by
  have hgo : ¬((s.beaconChans (bodyN body 0 2)).isEmpty = true ∨ (s.beaconChans (bodyN body 0 2)).any (fun x => decide (x.kbps < 48)) = true) := by
    refine not_or.mpr ⟨by simpa using hc, ?_⟩
    simpa using hk
  have harm : execDblTx e body s = execDblTx e body s := rfl
  conv at harm => rhs; unfold execDblTx
  dsimp only at harm
  rw [h] at harm
  dsimp only at harm
  rw [if_neg hb, if_neg hgo] at harm
  exact ⟨_, _, harm, kvGet_kvPut_self _ _ _, rfl, rfl, rfl, rfl⟩

/-- A free receiver dwells on the leg whose turn it is, and the leg goes to the round's end (R265). -/
theorem execDwellStart_dwells (core recv leg : Nat) (s : State) (hr : s.dblRuns core = true) (hn : recv < s.receivers core)
    (hk : kvHas (128 * core + recv) s.dbl.dwells = false) (hs : s.dbl.survey = [(leg, { turn := 0 })]) (ho : s.opusChans leg ≠ []) :
    ∃ t : State, execDwellStart core recv s = .next t ∧
      kvGet (128 * core + recv) t.dbl.dwells = some { leg := leg, start := s.hub.elapsed } ∧
      t.dbl.survey = [(leg, { turn := s.dbl.turn, last := some s.hub.elapsed })] := by
  have hnext : s.nextDwell (s.dbl.survey.mergeSort fun a b => a.2.turn ≤ b.2.turn) [] = (some leg, []) := by
    rw [hs, List.mergeSort_singleton, State.nextDwell, if_neg (by simp), if_neg (by simpa using ho)]
  have hgo : ¬((!s.dblRuns core) = true ∨ s.receivers core ≤ recv ∨ kvHas (128 * core + recv) s.dbl.dwells = true) := by
    simp [hr, hk, hn]
  have h : execDwellStart core recv s = execDwellStart core recv s := rfl
  conv at h => rhs; unfold execDwellStart
  dsimp only at h
  rw [if_neg hgo, hnext] at h
  refine ⟨_, h, kvGet_kvPut_self _ _ _, ?_⟩
  simp [State.dblStat, DblSt.toBack, hs, kvMod]

theorem execEdgeTtlExpiry_one (a b at_ : Nat) (s : State) (h : s.dbl.edges = [(min a b, max a b, at_)]) :
    execEdgeTtlExpiry a b s = .next (if at_ + s.dbl.key 3 * 1000000000 ≤ s.hub.elapsed then s.setEdges [] else s) := by
  unfold execEdgeTtlExpiry
  dsimp only
  rw [h]
  simp

theorem execPreambleAcquire_cases (core recv m : Nat) (d : DblDwell) (s : State) (hd : s.dwell core recv = some d)
    (hm : min (max (s.hub.get DBL.RX_CTL.ACQ_THRESH) 3) 30 ≤ m) :
    (d.recep = none → d.ended = false →
      execPreambleAcquire core recv m s = .next (s.setDwell core recv { d with recep := some { metric := m, start := d.count } })) ∧
    (∀ r, d.recep = some r → r.header = none → r.metric + s.hub.get DBL.RX_CTL.PREEMPT_MARGIN ≤ m → execPreambleAcquire core recv m s =
      .next ((s.setDwell core recv { d with recep := some { metric := m, start := d.count } }).dblErr DBL.PREEMPTED.COUNT)) ∧
    (∀ r, d.recep = some r → r.header ≠ none ∨ m < r.metric + s.hub.get DBL.RX_CTL.PREEMPT_MARGIN →
      execPreambleAcquire core recv m s = .next (s.dblErr DBL.COLLIDED.COUNT)) := by
  have h : execPreambleAcquire core recv m s = execPreambleAcquire core recv m s := rfl
  conv at h => rhs; unfold execPreambleAcquire
  rw [hd] at h
  dsimp only at h
  rw [if_neg (Nat.not_lt.mpr hm)] at h
  refine ⟨fun hr he => ?_, fun r hr hh hp => ?_, fun r hr hh => ?_⟩
  · rw [hr] at h
    exact h.trans (congrArg Host.Outcome.next (if_neg (Bool.eq_false_iff.mp he)))
  · rw [hr] at h
    exact h.trans (congrArg Host.Outcome.next (if_pos ⟨Option.isNone_iff_eq_none.mpr hh, hp⟩))
  · rw [hr] at h
    refine h.trans (congrArg Host.Outcome.next (if_neg ?_))
    rintro ⟨h1, h2⟩
    exact hh.elim (fun h => h (Option.isNone_iff_eq_none.mp h1)) fun h => Nat.not_lt.mpr h2 h

theorem execSyncWordSearchEnd_open (core recv : Nat) (found : Option Nat) (d : DblDwell) (r : DblRecep) (s : State) (hd : s.dwell core recv = some d)
    (hr : d.recep = some r) (hs : r.sync = false) :
    execSyncWordSearchEnd core recv found s = .next (match found with
      | some k =>
        if 4 < k ∨ d.count < r.start + 62 * (11 + k) then s
        else s.setDwell core recv { d with recep := some { r with sync := true, eq := some (s.trained d (r.start + 62 * k - 372)) } }
      | none => if d.count < r.start + 930 then s else (s.recepEnd core recv d).dblErr DBL.SYNC_FAIL.COUNT) := by
  have h : execSyncWordSearchEnd core recv found s = execSyncWordSearchEnd core recv found s := rfl
  conv at h => rhs; unfold execSyncWordSearchEnd
  rw [hd] at h
  dsimp only at h
  rw [hr] at h
  dsimp only at h
  rw [if_neg (Bool.eq_false_iff.mp hs)] at h
  exact h

theorem execHeaderDecoded_of (core recv : Nat) (d : DblDwell) (r : DblRecep) (s : State) (hd : s.dwell core recv = some d) (hr : d.recep = some r) :
    execHeaderDecoded core recv s = .next (match r.headerWord with
      | some word =>
        if !r.sync ∨ r.header.isSome then s
        else if crcHdr (word / 16 % 4096) = word % 16 ∧ word / 16 % 4096 / 256 = 0 then
          s.setDwell core recv (s.hears { d with recep := some { r with header := some ((word / 16 % 4096).testBit 7) } } [])
        else (s.recepEnd core recv d).dblErr DBL.HDR_FAIL.COUNT
      | none => s) := by
  have h : execHeaderDecoded core recv s = execHeaderDecoded core recv s := rfl
  conv at h => rhs; unfold execHeaderDecoded
  rw [hd] at h
  dsimp only at h
  rw [hr] at h
  cases hw : r.headerWord with
  | none =>
    rw [Option.bind_some, hw] at h
    exact h
  | some word =>
    rw [Option.bind_some, hw] at h
    exact h

theorem execPayloadDecoded_of (core recv : Nat) (d : DblDwell) (r : DblRecep) (s : State) (hd : s.dwell core recv = some d) (hr : d.recep = some r) :
    execPayloadDecoded core recv s = .next (match r.payloadWord with
      | some word =>
        if r.header.isNone then s
        else if crcToken (word / 65536 % 2 ^ 48) = word % 65536 then
          (s.recepEnd core recv d).dblReport d.leg r.metric (word / 65536 % 2 ^ 48)
        else { s.recepEnd core recv d with
          hub := ((s.recepEnd core recv d).hub.err DBL.PAY_FAIL.COUNT 0 0x0E07 0).raiseRl { code := 0x0E02, detail := [d.leg] } }
      | none => s) := by
  have h : execPayloadDecoded core recv s = execPayloadDecoded core recv s := rfl
  conv at h => rhs; unfold execPayloadDecoded
  rw [hd] at h
  dsimp only at h
  rw [hr] at h
  cases hw : r.payloadWord with
  | none =>
    rw [Option.bind_some, hw] at h
    exact h
  | some word =>
    rw [Option.bind_some, hw] at h
    exact h

end Sys2Proof.Machine
end

-- ==== O51 ====
section
/-!
SETTLED. Beacon transmission, groups and reception.
-/

namespace Sys2Proof.Machine

/-- Settles O51: transmission by the leg's record, service commands by what refuses them, reception by the dwell in force. -/
theorem beacons : Obligations.Beacons := by
  unfold Obligations.Beacons
  refine ⟨⟨?frame, ?service, ?edge⟩, ?dwell, ?ends, ?reception⟩
  case frame =>
    intro leg x s hx wait
    have harm : exec (.dblFrameStart leg) s = execDblFrameStart leg s := rfl
    rw [execDblFrameStart, hx] at harm
    refine ⟨fun f hf ht => ?_, fun h => ?_, fun hs hc hf => execDblFrameStart_starts leg x s wait rfl hx hs hc hf⟩
    · refine harm.trans (congrArg Host.Outcome.next (if_pos (.inr (.inr ?_))))
      exact gap_open hf ht
    · refine harm.trans (congrArg Host.Outcome.next (if_pos ?_))
      exact h.imp id fun hc => .inl (List.isEmpty_iff.mpr hc)
  case service =>
    intro e body s leg
    have htx : exec (.dblTx e body) s = execDblTx e body s := rfl
    have hsv : exec (.dblSurvey e body) s = execDblSurvey e body s := rfl
    have hgr : exec (.dblGroup e body) s = execDblGroup e body s := rfl
    rw [execDblSurvey] at hsv
    rw [execDblGroup] at hgr
    refine ⟨fun st h => ⟨?_, ?_, ?_⟩, fun h => ⟨execDblTx_starts e body s h, fun hb hc => ?_, fun x hb hx => ?_, fun hb hn => ?_, fun hb => ?_,
      fun g hg => ?_⟩⟩
    · rw [execDblTx, h] at htx
      exact htx
    · rw [h] at hsv
      exact hsv
    · rw [h] at hgr
      exact hgr
    · rw [execDblTx, h] at htx
      exact htx.trans (congrArg Host.Outcome.next ((if_neg hb).trans (if_pos (.inl (List.isEmpty_iff.mpr hc)))))
    · rw [execDblTx, h] at htx
      dsimp only at htx
      rw [if_pos hb, hx] at htx
      exact htx
    · have hhas : ¬(kvHas leg s.dbl.survey = true) := by simp [kvHas, hn]
      rw [h] at hsv
      dsimp only at hsv
      rw [if_neg hb, if_neg hhas] at hsv
      exact hsv
    · rw [h] at hsv
      dsimp only at hsv
      rw [if_pos hb] at hsv
      exact hsv
    · rw [h] at hgr
      subst hg
      exact hgr
  case edge =>
    intro a b at_ s h
    have harm : exec (.edgeTtlExpiry a b) s = execEdgeTtlExpiry a b s := rfl
    rw [harm, execEdgeTtlExpiry_one a b at_ s h]
    exact ⟨fun ht => congrArg Host.Outcome.next (if_neg (Nat.not_le.mpr ht)), fun ht => congrArg Host.Outcome.next (if_pos ht)⟩
  case dwell =>
    intro core recv leg s hr hn
    exact ⟨fun hk => congrArg Host.Outcome.next (if_pos (.inr (.inr hk))), execDwellStart_dwells core recv leg s hr hn⟩
  case ends =>
    intro core recv d s hd
    have harm : exec (.dwellEnd core recv) s = execDwellEnd core recv s := rfl
    rw [execDwellEnd, hd] at harm
    refine ⟨fun ht => harm.trans (congrArg Host.Outcome.next (if_pos ht)), fun ht hr => ?_, fun ht hr => ?_⟩
    · exact harm.trans (congrArg Host.Outcome.next ((if_neg (Nat.not_lt.mpr ht)).trans (if_pos (Option.isSome_iff_ne_none.mpr hr))))
    · exact harm.trans (congrArg Host.Outcome.next ((if_neg (Nat.not_lt.mpr ht)).trans (if_neg (by simp [hr]))))
  case reception =>
    intro core recv d s hd
    refine ⟨fun m hm => ?_, fun m hm => execPreambleAcquire_cases core recv m d s hd hm, fun r hr => ?_⟩
    · have harm : exec (.preambleAcquire core recv m) s = execPreambleAcquire core recv m s := rfl
      rw [execPreambleAcquire, hd] at harm
      exact harm.trans (congrArg Host.Outcome.next (if_pos hm))
    · have hsync : ∀ found, exec (.syncWordSearchEnd core recv found) s = execSyncWordSearchEnd core recv found s := fun _ => rfl
      have hhdr : exec (.headerDecoded core recv) s = _ := execHeaderDecoded_of core recv d r s hd hr
      have hpay : exec (.payloadDecoded core recv) s = _ := execPayloadDecoded_of core recv d r s hd hr
      refine ⟨fun k hs hk => ⟨fun hc => ?_, fun hc => ?_⟩, fun hs hc => ?_, fun hs hc => ?_, fun hw => ?_,
        fun word hw hs hh => ⟨fun hc1 hc2 => ?_, fun hc => ?_⟩, fun h => ?_, fun word hw hh => ⟨fun hc => ?_, fun hc => ?_⟩⟩
      · rw [hsync, execSyncWordSearchEnd_open core recv (some k) d r s hd hr hs]
        exact congrArg Host.Outcome.next (if_neg (by omega))
      · rw [hsync, execSyncWordSearchEnd_open core recv (some k) d r s hd hr hs]
        exact congrArg Host.Outcome.next (if_pos (.inr hc))
      · rw [hsync, execSyncWordSearchEnd_open core recv none d r s hd hr hs]
        exact congrArg Host.Outcome.next (if_pos hc)
      · rw [hsync, execSyncWordSearchEnd_open core recv none d r s hd hr hs]
        exact congrArg Host.Outcome.next (if_neg (Nat.not_lt.mpr hc))
      · rw [hw] at hhdr
        exact hhdr
      · rw [hw] at hhdr
        exact hhdr.trans (congrArg Host.Outcome.next ((if_neg (by simp [hs, hh])).trans (if_pos ⟨hc1, by omega⟩)))
      · rw [hw] at hhdr
        refine hhdr.trans (congrArg Host.Outcome.next ((if_neg (by simp [hs, hh])).trans (if_neg ?_)))
        rintro ⟨h1, h2⟩
        exact hc.elim (fun h => h h1) fun h => by omega
      · rcases h with h | h
        · rw [h] at hpay
          exact hpay
        · refine hpay.trans ?_
          split
          · exact congrArg Host.Outcome.next (if_pos (by simp [h]))
          · rfl
      · rw [hw] at hpay
        exact hpay.trans (congrArg Host.Outcome.next ((if_neg (by simpa using hh)).trans (if_pos hc)))
      · rw [hw] at hpay
        exact ⟨_, hpay.trans (congrArg Host.Outcome.next ((if_neg (by simpa using hh)).trans (if_neg hc))), rfl, rfl⟩

end Sys2Proof.Machine
end

-- ==== Support for O52: frames of audio, Doorbell and Hinge commands ====
section
/-!
SUPPORT. What each of these commands leaves unchanged.
-/

namespace Sys2Proof.Machine

theorem State.gainStep_frame (s : State) (k : Nat) (j : Option Nat) (smp : Nat) :
    s.gainStep k j smp = { s with aud := (s.gainStep k j smp).aud } := by
  unfold State.gainStep
  split <;> rfl

theorem State.gainStep_where_frame (s : State) (k : Nat) (j : Option Nat) (smp : Nat) (c : Prop) [Decidable c] :
    (if c then s.gainStep k j smp else s) = { s with aud := (if c then s.gainStep k j smp else s).aud } := by
  split
  · exact State.gainStep_frame _ _ _ _
  · rfl

theorem execGainStepZeroCross_frame (a : Nat) (o : Option Nat) (b : Nat) (s : State) :
    ∃ t, execGainStepZeroCross a o b s = .next t ∧ t = { s with aud := t.aud } := by
  cases hd : s.stepDue a o with
  | none =>
    refine ⟨s, ?_, rfl⟩
    unfold execGainStepZeroCross
    rw [hd]
  | some d =>
    exact ⟨_, execGainStepZeroCross_due a o b d s _ rfl hd, State.gainStep_where_frame s a o b _⟩

theorem execGainStepTimeout_frame (a : Nat) (o : Option Nat) (s : State) :
    ∃ t, execGainStepTimeout a o s = .next t ∧ t = { s with aud := t.aud } := by
  unfold execGainStepTimeout
  split
  · split
    · exact ⟨_, rfl, State.gainStep_frame _ _ _ _⟩
    · exact ⟨_, rfl, rfl⟩
  · exact ⟨_, rfl, rfl⟩

theorem execAsHoldExpiry_frame (a : Nat) (s : State) : ∃ t, execAsHoldExpiry a s = .next t ∧ t = { s with aud := t.aud } := by
  unfold execAsHoldExpiry
  dsimp only
  split
  · split <;> exact ⟨_, rfl, rfl⟩
  · exact ⟨_, rfl, rfl⟩

theorem execOnePerRoomTimer_frame (s : State) : ∃ t, execOnePerRoomTimer s = .next t ∧ t = { s with aud := t.aud } := by
  unfold execOnePerRoomTimer
  dsimp only
  split <;> exact ⟨_, rfl, rfl⟩

theorem execAudSrcBind_frame (e : CmdEnv) (body : List Byte) (s : State) :
    ∃ t, execAudSrcBind e body s = .next t ∧ t = { s with hub := t.hub, aud := t.aud, lch := t.lch } := by
  unfold execAudSrcBind
  dsimp only
  split <;> exact ⟨_, rfl, rfl⟩

theorem execAudSnkBind_frame (e : CmdEnv) (body : List Byte) (s : State) :
    ∃ t, execAudSnkBind e body s = .next t ∧ t = { s with hub := t.hub, aud := t.aud, lch := t.lch } := by
  unfold execAudSnkBind
  dsimp only
  split <;> exact ⟨_, rfl, rfl⟩

theorem execAudDecOpen_frame (e : CmdEnv) (body : List Byte) (s : State) :
    ∃ t, execAudDecOpen e body s = .next t ∧ t = { s with hub := t.hub, aud := t.aud, lch := t.lch } := by
  unfold execAudDecOpen
  split <;> exact ⟨_, rfl, rfl⟩

theorem execAudEncOpen_frame (e : CmdEnv) (body : List Byte) (s : State) :
    ∃ t, execAudEncOpen e body s = .next t ∧ t = { s with hub := t.hub, aud := t.aud, lch := t.lch } := by
  unfold execAudEncOpen
  split <;> exact ⟨_, rfl, rfl⟩

theorem execAudClose_frame (e : CmdEnv) (body : List Byte) (s : State) :
    ∃ t, execAudClose e body s = .next t ∧ t = { s with hub := t.hub, aud := t.aud, lch := t.lch } := by
  unfold execAudClose
  dsimp only
  split
  · split <;> exact ⟨_, rfl, rfl⟩
  · split <;> exact ⟨_, rfl, rfl⟩

theorem State.audRoom_frame (s : State) (l : List (Bool × Nat × Nat)) : s.audRoom l = { s with aud := (s.audRoom l).aud } := rfl

theorem execAudRoom_frame (e : CmdEnv) (body : List Byte) (s : State) :
    ∃ t, execAudRoom e body s = .next t ∧ t = { s with hub := t.hub, aud := t.aud, lch := t.lch } := by
  unfold execAudRoom
  dsimp only
  split
  · exact ⟨_, rfl, rfl⟩
  · split <;> exact ⟨_, rfl, rfl⟩

theorem execAudNodeSet_frame (e : CmdEnv) (body : List Byte) (s : State) :
    ∃ t, execAudNodeSet e body s = .next t ∧ t = { s with hub := t.hub, aud := t.aud, lch := t.lch } := by
  unfold execAudNodeSet
  dsimp only
  split
  · exact ⟨_, rfl, rfl⟩
  · split
    · exact ⟨_, rfl, rfl⟩
    · split <;> exact ⟨_, rfl, rfl⟩

theorem execAudStats_frame (e : CmdEnv) (body : List Byte) (s : State) :
    ∃ t, execAudStats e body s = .next t ∧ t = { s with hub := t.hub, aud := t.aud, lch := t.lch } := by
  unfold execAudStats
  dsimp only
  generalize (if bodyU8 body 0 = 0 then (kvGet (bodyN body 2 2) s.aud.decs).map (·.pub) else (kvGet (bodyN body 2 2) s.aud.encs).map (·.pub)) = r
  cases r <;> exact ⟨_, rfl, rfl⟩

theorem execAudLegProfile_frame (e : CmdEnv) (body : List Byte) (s : State) :
    ∃ t, execAudLegProfile e body s = .next t ∧ t = { s with hub := t.hub, aud := t.aud, lch := t.lch } := by
  unfold execAudLegProfile
  dsimp only
  split
  · exact ⟨_, rfl, rfl⟩
  · split
    · split
      · exact ⟨_, rfl, rfl⟩
      · split
        · exact ⟨_, rfl, rfl⟩
        · split
          · exact ⟨_, rfl, rfl⟩
          · split <;> exact ⟨_, rfl, rfl⟩
    · exact ⟨_, rfl, rfl⟩

theorem execDblFrameStart_frame (a : Nat) (s : State) :
    ∃ t, execDblFrameStart a s = .next t ∧ t = { s with hub := t.hub, dbl := t.dbl } := by
  unfold execDblFrameStart
  dsimp only
  split
  · split <;> exact ⟨_, rfl, rfl⟩
  · exact ⟨_, rfl, rfl⟩

theorem State.dwellsEnd_frame (s : State) (keys : List Nat) (again : Bool) :
    s.dwellsEnd keys again = { s with hub := (s.dwellsEnd keys again).hub, dbl := (s.dwellsEnd keys again).dbl } := rfl

theorem State.recepEnd_frame (s : State) (a b : Nat) (d : DblDwell) :
    s.recepEnd a b d = { s with hub := (s.recepEnd a b d).hub, dbl := (s.recepEnd a b d).dbl } := by
  unfold State.recepEnd
  split <;> rfl

theorem State.recepEnd_err_frame (s : State) (a b : Nat) (d : DblDwell) (f : Fld) :
    (s.recepEnd a b d).dblErr f = { s with hub := ((s.recepEnd a b d).dblErr f).hub, dbl := ((s.recepEnd a b d).dblErr f).dbl } := by
  rw [State.recepEnd_frame]
  rfl

theorem execDwellEnd_frame (a b : Nat) (s : State) : ∃ t, execDwellEnd a b s = .next t ∧ t = { s with hub := t.hub, dbl := t.dbl } := by
  unfold execDwellEnd
  split
  · split
    · exact ⟨_, rfl, rfl⟩
    · split <;> exact ⟨_, rfl, rfl⟩
  · exact ⟨_, rfl, rfl⟩

theorem execPreambleAcquire_frame (a b m : Nat) (s : State) :
    ∃ t, execPreambleAcquire a b m s = .next t ∧ t = { s with hub := t.hub, dbl := t.dbl } := by
  unfold execPreambleAcquire
  split
  · split
    · exact ⟨_, rfl, rfl⟩
    · split
      · split <;> exact ⟨_, rfl, rfl⟩
      · split <;> exact ⟨_, rfl, rfl⟩
  · exact ⟨_, rfl, rfl⟩

theorem execSyncWordSearchEnd_frame (a b : Nat) (y : Option Nat) (s : State) :
    ∃ t, execSyncWordSearchEnd a b y s = .next t ∧ t = { s with hub := t.hub, dbl := t.dbl } := by
  unfold execSyncWordSearchEnd
  split
  · split
    · split
      · exact ⟨_, rfl, rfl⟩
      · split
        · split <;> exact ⟨_, rfl, rfl⟩
        · split
          · exact ⟨_, rfl, rfl⟩
          · exact ⟨_, rfl, State.recepEnd_err_frame _ _ _ _ _⟩
    · exact ⟨_, rfl, rfl⟩
  · exact ⟨_, rfl, rfl⟩

theorem execHeaderDecoded_frame (a b : Nat) (s : State) :
    ∃ t, execHeaderDecoded a b s = .next t ∧ t = { s with hub := t.hub, dbl := t.dbl } := by
  unfold execHeaderDecoded
  split
  · split
    · dsimp only
      split
      · exact ⟨_, rfl, rfl⟩
      · split
        · exact ⟨_, rfl, rfl⟩
        · exact ⟨_, rfl, State.recepEnd_err_frame _ _ _ _ _⟩
    · exact ⟨_, rfl, rfl⟩
  · exact ⟨_, rfl, rfl⟩

theorem execDblTx_frame (e : CmdEnv) (body : List Byte) (s : State) :
    ∃ t, execDblTx e body s = .next t ∧ t = { s with hub := t.hub, dbl := t.dbl, lch := t.lch } := by
  unfold execDblTx
  dsimp only
  split
  · exact ⟨_, rfl, rfl⟩
  · split
    · split <;> exact ⟨_, rfl, rfl⟩
    · split <;> exact ⟨_, rfl, rfl⟩

theorem execDblSurvey_frame (e : CmdEnv) (body : List Byte) (s : State) :
    ∃ t, execDblSurvey e body s = .next t ∧ t = { s with hub := t.hub, dbl := t.dbl, lch := t.lch } := by
  unfold execDblSurvey
  dsimp only
  split <;> exact ⟨_, rfl, rfl⟩

theorem execDblGroup_frame (e : CmdEnv) (body : List Byte) (s : State) :
    ∃ t, execDblGroup e body s = .next t ∧ t = { s with hub := t.hub, dbl := t.dbl, lch := t.lch } := by
  unfold execDblGroup
  dsimp only
  split <;> exact ⟨_, rfl, rfl⟩

theorem State.setEdges_frame (s : State) (l : List (Nat × Nat × Nat)) :
    s.setEdges l = { s with hub := (s.setEdges l).hub, dbl := (s.setEdges l).dbl, aud := (s.setEdges l).aud } := by
  unfold State.setEdges
  dsimp only
  split
  · split <;> rfl
  · rfl

theorem execEdgeTtlExpiry_frame (a b : Nat) (s : State) :
    ∃ t, execEdgeTtlExpiry a b s = .next t ∧ t = { s with hub := t.hub, dbl := t.dbl, aud := t.aud } := by
  unfold execEdgeTtlExpiry
  dsimp only
  split
  · exact ⟨_, rfl, State.setEdges_frame _ _⟩
  · exact ⟨_, rfl, rfl⟩

theorem State.detected_frame (s : State) (a b : Nat) :
    s.detected a b = { s with hub := (s.detected a b).hub, dbl := (s.detected a b).dbl, aud := (s.detected a b).aud } := by
  unfold State.detected
  dsimp only
  split
  · exact State.setEdges_frame _ _
  · rfl

theorem State.dblReport_frame (s : State) (leg metric token : Nat) :
    s.dblReport leg metric token =
      { s with hub := (s.dblReport leg metric token).hub, dbl := (s.dblReport leg metric token).dbl, aud := (s.dblReport leg metric token).aud } := by
  unfold State.dblReport
  dsimp only
  split
  · rfl
  · rw [State.detected_frame]

theorem execPayloadDecoded_frame (a b : Nat) (s : State) :
    ∃ t, execPayloadDecoded a b s = .next t ∧ t = { s with hub := t.hub, dbl := t.dbl, aud := t.aud } := by
  unfold execPayloadDecoded
  split
  · split
    · dsimp only
      split
      · exact ⟨_, rfl, rfl⟩
      · split
        · refine ⟨_, rfl, ?_⟩
          rw [State.dblReport_frame, State.recepEnd_frame]
        · refine ⟨_, rfl, ?_⟩
          rw [State.recepEnd_frame]
    · exact ⟨_, rfl, rfl⟩
  · exact ⟨_, rfl, rfl⟩

theorem State.hngEnter_frame (s : State) (n st : Nat) :
    s.hngEnter n st = { s with hub := (s.hngEnter n st).hub, fab := (s.hngEnter n st).fab, hng := (s.hngEnter n st).hng } := by
  unfold State.hngEnter
  dsimp only
  split <;> rfl

theorem execHngStart_frame (e : CmdEnv) (body : List Byte) (s : State) :
    ∃ t, execHngStart e body s = .next t ∧ t = { s with hub := t.hub, fab := t.fab, hng := t.hng, dbl := t.dbl, lch := t.lch } := by
  unfold execHngStart
  dsimp only
  split
  · exact ⟨_, rfl, rfl⟩
  · refine ⟨_, rfl, ?_⟩
    unfold State.hngStart
    dsimp only
    rw [State.hngEnter_frame]
    rfl

theorem execHngStats_frame (e : CmdEnv) (body : List Byte) (s : State) :
    ∃ t, execHngStats e body s = .next t ∧ t = { s with hub := t.hub, lch := t.lch } := by
  unfold execHngStats
  dsimp only
  split <;> exact ⟨_, rfl, rfl⟩

end Sys2Proof.Machine
end

-- ==== O52 ====
section
/-!
SETTLED. What audio, Doorbell and Hinge service commands leave unchanged.
-/

namespace Sys2Proof.Machine

/-- Settles O52: each command of the lists by its own frame. -/
theorem audioAndHingeFrames : Obligations.AudioAndHingeFrames := by
  unfold Obligations.AudioAndHingeFrames
  intro e body a b m o y s
  refine ⟨?gains, ?audio, ?beacons, ?doorbell, ?edges, execHngStart_frame e body s, execHngStats_frame e body s⟩
  case gains =>
    simp only [List.forall_mem_cons]
    exact ⟨execGainStepZeroCross_frame a o b s, execGainStepTimeout_frame a o s, execAsHoldExpiry_frame a s, execOnePerRoomTimer_frame s, by simp⟩
  case audio =>
    simp only [List.forall_mem_cons]
    exact ⟨execAudSrcBind_frame e body s, execAudSnkBind_frame e body s, execAudDecOpen_frame e body s, execAudEncOpen_frame e body s,
      execAudClose_frame e body s, execAudRoom_frame e body s, execAudNodeSet_frame e body s, execAudStats_frame e body s,
      execAudLegProfile_frame e body s, by simp⟩
  case beacons =>
    simp only [List.forall_mem_cons]
    exact ⟨execDblFrameStart_frame a s, execDwellEnd_frame a b s, execPreambleAcquire_frame a b m s, execSyncWordSearchEnd_frame a b y s,
      execHeaderDecoded_frame a b s, by simp⟩
  case doorbell =>
    simp only [List.forall_mem_cons]
    exact ⟨execDblTx_frame e body s, execDblSurvey_frame e body s, execDblGroup_frame e body s, by simp⟩
  case edges =>
    simp only [List.forall_mem_cons]
    exact ⟨execEdgeTtlExpiry_frame a b s, execPayloadDecoded_frame a b s, by simp⟩

end Sys2Proof.Machine
end

-- ==== Support for O53: Hinge cores ====
section
/-!
SUPPORT. What a core holds after it enters a state, starts or is woken, and what one bundle leaves of it.
-/

namespace Sys2Proof.Machine

theorem State.core_setCore (s : State) (n : Nat) (c : HngCore) : (s.setCore n c).hng.core n = c := by
  simp only [State.setCore, HngSt.core, kvGet_kvPut_self, Option.getD_some]

/-- Entering a state changes nothing of the core but the grain it is in. -/
theorem State.hngEnter_core (s : State) (n st : Nat) : ∃ g, (s.hngEnter n st).hng.core n = { s.hng.core n with grain := g } := by
  unfold State.hngEnter
  by_cases h : st ≠ 1 ∧ (s.hng.core n).grain ≠ 0
  · simp only [if_pos h]
    exact ⟨0, State.core_setCore _ _ _⟩
  · simp only [if_neg h]
    exact ⟨_, rfl⟩

/-- A core that starts has its registers cleared and stands at bundle 0; its memories and loads stay (R290). -/
theorem State.hngStart_core (s : State) (n : Nat) :
    ∃ ready g, (s.hngStart n).hng.core n = { s.hng.core n with regs := {}, pc := 0, wait := none, busy := [], ready := ready, grain := g } := by
  unfold State.hngStart
  dsimp only
  obtain ⟨g, hg⟩ := State.hngEnter_core (s.setCore n { s.hng.core n with
    regs := {}, pc := 0, wait := none, busy := [], ready := !(s.fab.users 5 n).any fun k => s.hub.sashState k == 3 }) n
      (if (s.fab.users 5 n).any fun k => s.hub.sashState k == 3 then 1 else 0)
  rw [State.core_setCore] at hg
  exact ⟨_, g, hg⟩

theorem State.hngWake_core (s : State) (n : Nat) (f : HngWait → Bool) :
    ∃ w g, (s.hngWake n f).hng.core n = { s.hng.core n with wait := w, grain := g } := by
  unfold State.hngWake
  dsimp only
  split
  · split
    · obtain ⟨g, hg⟩ := State.hngEnter_core (s.setCore n { s.hng.core n with wait := none }) n 1
      rw [State.core_setCore] at hg
      exact ⟨none, g, hg⟩
    · exact ⟨_, _, rfl⟩
  · exact ⟨_, _, rfl⟩

theorem State.hngWake_idle (s : State) (n : Nat) (f : HngWait → Bool) (h : (s.hng.core n).wait = none) : s.hngWake n f = s := by
  unfold State.hngWake
  dsimp only
  rw [h]

theorem State.mbInstr_other (s : State) (n w : Nat) (c : HngCore) (h2 : fieldOf w 27 5 ≠ 0x12) (h3 : fieldOf w 27 5 ≠ 0x13) :
    s.mbInstr n w c = c := by
  unfold State.mbInstr
  dsimp only
  split
  · exact absurd ‹_› h2
  · exact absurd ‹_› h3
  · rfl

/-- A bundle that goes on leaves its core running at the place and the time given. -/
theorem State.hngDone_core (s : State) (n stall : Nat) (c : HngCore) :
    ∃ g, (s.hngDone n stall c false).hng.core n = { c with grain := g } := by
  unfold State.hngDone
  dsimp only
  rw [if_neg Bool.false_ne_true]
  obtain ⟨g, hg⟩ := State.hngEnter_core ({ s.setCore n c with
    hub := (s.hub.stat HNG.BUNDLES_LO.COUNT n 1).stat HNG.STALLS_LO.COUNT n stall } : State) n 1
  exact ⟨g, hg.trans (congrArg (fun c : HngCore => { c with grain := g }) (State.core_setCore _ _ _))⟩

/-- The bundle of a core that stalls for nothing, beside mailbox, DMA and HALT operations: the core's registers, its place and its
clock after it. -/
theorem State.hngBundle_goes (s : State) (n sash : Nat) (c : HngCore) (hc : s.hng.core n = c) (word slot : Nat)
    (hw : leNat (memReadList c.prog (8 * c.pc) 8) = word) (hslot : word % 2 ^ 32 = slot) (x : HngComp)
    (hx : hngCompute c.regs (word / 2 ^ 32) = some x) (hf : c.faultOf slot (some x) = none) (hwait : s.hngWaits n slot = none)
    (h2 : fieldOf slot 27 5 ≠ 0x12) (h3 : fieldOf slot 27 5 ≠ 0x13) (h4 : fieldOf slot 27 5 ≠ 0x14) (h6 : fieldOf slot 27 5 ≠ 0x16)
    (hb : c.busy = []) (r : HngCore × HngGo) (hr : c.bundle slot x c.clock s.fab.period (Config.freeValue s.hub.free) = r) :
    (∀ p, r.2 = .goto p → ((s.hngBundle n sash).hng.core n).pc = p ∧ ((s.hngBundle n sash).hng.core n).clock = c.clock + 3) ∧
    (r.2 = .on → ((s.hngBundle n sash).hng.core n).pc = (r.1.regs.loopEnd c.pc [1, 0]).2 ∧
      ((s.hngBundle n sash).hng.core n).regs = (r.1.regs.loopEnd c.pc [1, 0]).1 ∧ ((s.hngBundle n sash).hng.core n).clock = c.clock + 1) := by
  have hb1 : ({ c with busy := [] } : HngCore) = c := by rw [← hb]
  have hhalt : (fieldOf slot 27 5 == 0x16) = false := by simpa using h6
  have h : s.hngBundle n sash = s.hngBundle n sash := rfl
  conv at h => rhs; unfold State.hngBundle
  dsimp only at h
  rw [hc, hw, hslot, hx, hf] at h
  dsimp only at h
  rw [hwait] at h
  dsimp only at h
  rw [if_neg fun hh => h4 hh.1, hb, List.filter_nil, List.filter_nil, List.foldl_nil, hb1, hr, State.mbInstr_other s n slot r.1 h2 h3, if_neg h4,
    hhalt] at h
  refine ⟨fun p hp => ?_, fun hp => ?_⟩
  · rw [hp] at h
    obtain ⟨g, hg⟩ := State.hngDone_core _ n _ _
    rw [h, hg]
    exact ⟨rfl, rfl⟩
  · rw [hp] at h
    obtain ⟨g, hg⟩ := State.hngDone_core _ n _ _
    rw [h, hg]
    exact ⟨rfl, rfl, rfl⟩

theorem HngCore.setOwn_posted (c : HngCore) (a : Nat) (v : Bool) : (c.setOwn a v).posted = c.posted := rfl

theorem execMailboxDrain_posted (core slot at_ : Nat) (rest : List (Nat × Nat)) (s : State) (h : (s.hng.core core).posted = (slot, at_) :: rest) :
    ∃ t : State, execMailboxDrain core s = .next t ∧ (t.hng.core core).posted = rest := by
  have harm : execMailboxDrain core s = execMailboxDrain core s := rfl
  conv at harm => rhs; unfold execMailboxDrain
  dsimp only at harm
  rw [h] at harm
  refine ⟨_, harm, ?_⟩
  obtain ⟨w, g, hwake⟩ := State.hngWake_core ((s.mbDrain core slot at_).setCore core
    ({ (s.mbDrain core slot at_).hng.core core with posted := rest } |>.setOwn ((s.mb core true).slot slot) false)) core fun w => match w with
      | .mailbox true _ => true
      | _ => false
  refine (congrArg HngCore.posted hwake).trans ?_
  rw [State.core_setCore]
  rfl

end Sys2Proof.Machine
end

-- ==== O53 ====
section
/-!
SETTLED. Hinge cores run, transfer, load, start and halt.
-/

namespace Sys2Proof.Machine

/-- A bundle's execution: HELD without a grant, the bundle with one, and the work boundary where the grain ends. -/
theorem execHngBundleExecute_held (core sash : Nat) (s : State) (hst : s.hngState core = 1 ∨ s.hngState core = 3)
    (h : ¬((s.fab.users 5 core).contains sash = true ∧ s.hub.get1 GLB.SASH_STAT.EMERG_HELD sash = 0 ∧ s.granting = true ∧
      (s.fab.grantOf (s.hngHw core) sash).isSome = true)) : s.hngExecute core sash = s.hngEnter core 3 :=
  (if_pos hst).trans (if_neg h)

theorem State.hngExecute_granted (core sash : Nat) (s : State) (hst : s.hngState core = 1 ∨ s.hngState core = 3)
    (h : (s.fab.users 5 core).contains sash = true ∧ s.hub.get1 GLB.SASH_STAT.EMERG_HELD sash = 0 ∧ s.granting = true ∧
      (s.fab.grantOf (s.hngHw core) sash).isSome = true) : s.hngExecute core sash = s.hngBundle core sash :=
  (if_pos hst).trans (if_pos h)

/-- A core with its copies made starts on them (R290). -/
theorem execHngLoad_starts (e : CmdEnv) (body : List Byte) (s s1 : State) (st : Nat) (hr : s.hngRefused e (bodyN body 0 2) = none)
    (hs : s.hngState (refInst (bodyN body 0 2)) = 0 ∨ s.hngState (refInst (bodyN body 0 2)) = 4)
    (hcopy : s.hngCopy (refInst (bodyN body 0 2)) (bodyU8 body 2 == 1) (bodyN body 4 2 % 4096) (bodyN body 8 8 / 64 * 64) (bodyN body 16 4 / 64 * 64)
      (bodyN body 20 4 / 64 * 64) = (s1, st)) :
    (st = 1 ∨ st = 2 → execHngLoad e body s = .next (s1.done e 0x0801 0 (leBytes 4 st))) ∧
    (st ≠ 1 → st ≠ 2 → ∃ t : State, execHngLoad e body s = .next t ∧ (t.hng.core (refInst (bodyN body 0 2))).pc = 0 ∧
      (t.hng.core (refInst (bodyN body 0 2))).regs = {} ∧
      (t.hng.core (refInst (bodyN body 0 2))).prog = (s1.hng.core (refInst (bodyN body 0 2))).prog ∧
      (t.hng.core (refInst (bodyN body 0 2))).data = (s1.hng.core (refInst (bodyN body 0 2))).data ∧
      (t.hng.core (refInst (bodyN body 0 2))).loads = (s1.hng.core (refInst (bodyN body 0 2))).loads ++
        [(bodyU8 body 2 == 1, bodyN body 4 2 % 4096, bodyN body 8 8 / 64 * 64, bodyN body 16 4 / 64 * 64, bodyN body 20 4 / 64 * 64)]) := by
  have h : execHngLoad e body s = execHngLoad e body s := rfl
  conv at h => rhs; unfold execHngLoad
  dsimp only at h
  rw [hr] at h
  dsimp only at h
  rw [if_neg (by omega), hcopy] at h
  generalize refInst (bodyN body 0 2) = n at *
  refine ⟨fun hst => h.trans (congrArg Host.Outcome.next (if_pos hst)), fun h1 h2 => ?_⟩
  obtain ⟨ready, g, hstart⟩ := State.hngStart_core ({ s1.setCore n { s1.hng.core n with
      loads := (s1.hng.core n).loads ++ [(bodyU8 body 2 == 1, bodyN body 4 2 % 4096, bodyN body 8 8 / 64 * 64, bodyN body 16 4 / 64 * 64, bodyN body 20 4 / 64 * 64)] } with
    hub := (s1.setCore n { s1.hng.core n with
      loads := (s1.hng.core n).loads ++ [(bodyU8 body 2 == 1, bodyN body 4 2 % 4096, bodyN body 8 8 / 64 * 64, bodyN body 16 4 / 64 * 64, bodyN body 20 4 / 64 * 64)] }).hub.set1
        HNG.CORE_STAT.CAUSE n 0 } : State) n
  have hcore := State.core_setCore s1 n { s1.hng.core n with
    loads := (s1.hng.core n).loads ++ [(bodyU8 body 2 == 1, bodyN body 4 2 % 4096, bodyN body 8 8 / 64 * 64, bodyN body 16 4 / 64 * 64, bodyN body 20 4 / 64 * 64)] }
  refine ⟨_, h.trans (congrArg Host.Outcome.next (if_neg (not_or.mpr ⟨h1, h2⟩))), congrArg HngCore.pc hstart, congrArg HngCore.regs hstart,
    (congrArg HngCore.prog hstart).trans ((congrArg HngCore.prog hcore).trans rfl),
    (congrArg HngCore.data hstart).trans ((congrArg HngCore.data hcore).trans rfl),
    (congrArg HngCore.loads hstart).trans (congrArg HngCore.loads hcore)⟩

theorem execHngStart_starts (e : CmdEnv) (body : List Byte) (s : State) (hr : s.hngRefused e (bodyN body 0 2) = none) :
    ∃ t : State, execHngStart e body s = .next t ∧ (t.hng.core (refInst (bodyN body 0 2))).pc = 0 ∧ (t.hng.core (refInst (bodyN body 0 2))).regs = {} ∧
      (t.hng.core (refInst (bodyN body 0 2))).wait = none ∧
      (t.hng.core (refInst (bodyN body 0 2))).prog = (s.hng.core (refInst (bodyN body 0 2))).prog ∧
      (t.hng.core (refInst (bodyN body 0 2))).data = (s.hng.core (refInst (bodyN body 0 2))).data := by
  have h : execHngStart e body s = execHngStart e body s := rfl
  conv at h => rhs; unfold execHngStart
  dsimp only at h
  rw [hr] at h
  obtain ⟨ready, g, hstart⟩ := State.hngStart_core
    ({ s with hub := s.hub.set1 HNG.CORE_STAT.CAUSE (refInst (bodyN body 0 2)) 0 } : State) (refInst (bodyN body 0 2))
  exact ⟨_, h, congrArg HngCore.pc hstart, congrArg HngCore.regs hstart, congrArg HngCore.wait hstart, (congrArg HngCore.prog hstart).trans rfl,
    (congrArg HngCore.data hstart).trans rfl⟩

/-- Settles O53: bundles by the grant and by what the bundle may do, transfers and mailboxes by what the core holds, the service's commands
by what refuses them. -/
theorem hingeCores : Obligations.HingeCores := by
  unfold Obligations.HingeCores
  refine ⟨⟨?bundle, ?dma, ?mailbox, ?drain⟩, ?service⟩
  case bundle =>
    intro core sash s c word slot op fin granted
    have harm : ∀ t, s.hngExecute core sash = t → exec (.hngBundleExecute core sash) s = .next (fin t) := fun t ht => by
      subst ht
      rfl
    refine ⟨fun h1 h3 => harm _ (if_neg (not_or.mpr ⟨h1, h3⟩)), fun hst hg => harm _ (execHngBundleExecute_held core sash s hst hg),
      fun hst hg => ⟨fun cause hf => harm _ ?_, fun x hx hf => ⟨fun w hw => harm _ ?_, fun hw h2 h3 h4 h6 hb r hr => ?_⟩⟩⟩
    · rw [State.hngExecute_granted core sash s hst hg]
      have h : s.hngBundle core sash = s.hngBundle core sash := rfl
      conv at h => rhs; unfold State.hngBundle
      dsimp only at h
      rw [hf] at h
      exact h
    · rw [State.hngExecute_granted core sash s hst hg]
      have h : s.hngBundle core sash = s.hngBundle core sash := rfl
      conv at h => rhs; unfold State.hngBundle
      dsimp only at h
      rw [hx, hf] at h
      dsimp only at h
      rw [hw] at h
      exact h
    · obtain ⟨hgoto, hon⟩ := s.hngBundle_goes core sash c rfl word slot rfl rfl x hx hf hw h2 h3 h4 h6 hb r hr
      have hgo := harm _ (State.hngExecute_granted core sash s hst hg)
      exact ⟨fun p hp => ⟨_, hgo, hgoto p hp⟩, fun hp => ⟨_, hgo, hon hp⟩⟩
  case dma =>
    intro core channel d s hd
    have harm : exec (.dmaTransferDone core channel) s = execDmaTransferDone core channel s := rfl
    rw [execDmaTransferDone, hd] at harm
    refine ⟨fun hw => harm.trans (congrArg Host.Outcome.next (if_pos hw)), fun hw r hr c hc => ?_⟩
    subst hr hc
    exact harm.trans (congrArg Host.Outcome.next (if_neg (Bool.eq_false_iff.mp hw)))
  case mailbox =>
    intro core b s hb s1 c r
    have harm : exec (.mailboxDelivery core) s = execMailboxDelivery core s := rfl
    rw [execMailboxDelivery, hb] at harm
    refine ⟨fun hst => harm.trans (congrArg Host.Outcome.next (if_pos hst)), fun hst hfull => ?_, fun hst hslots hown hwait => ?_⟩
    · have hrun : ¬(s1.hngState core = 0 ∨ s1.hngState core = 4) := by omega
      exact harm.trans (congrArg Host.Outcome.next ((if_neg hrun).trans (if_pos hfull)))
    · have hrun : ¬(s1.hngState core = 0 ∨ s1.hngState core = 4) := by omega
      have hfree : ¬(r.slots = 0 ∨ c.owned (r.slot c.fill) = true) := not_or.mpr ⟨hslots, Bool.eq_false_iff.mp hown⟩
      refine harm.trans (congrArg Host.Outcome.next ((if_neg hrun).trans ((if_neg hfree).trans (State.hngWake_idle _ _ _ ?_))))
      exact (congrArg HngCore.wait (State.core_setCore _ _ _)).trans hwait
  case drain =>
    intro core s
    refine ⟨fun h => ?_, fun slot at_ rest h => execMailboxDrain_posted core slot at_ rest s h⟩
    have harm : exec (.mailboxDrain core) s = execMailboxDrain core s := rfl
    rw [execMailboxDrain] at harm
    dsimp only at harm
    rw [h] at harm
    exact harm
  case service =>
    intro e body s n
    have hload : exec (.hngLoad e body) s = execHngLoad e body s := rfl
    have hstart : exec (.hngStart e body) s = execHngStart e body s := rfl
    have hhalt : exec (.hngHalt e body) s = execHngHalt e body s := rfl
    have hstats : exec (.hngStats e body) s = execHngStats e body s := rfl
    rw [execHngHalt] at hhalt
    rw [execHngStats] at hstats
    dsimp only at hhalt hstats
    refine ⟨fun st h => ⟨?_, ?_, ?_, ?_⟩, fun h => ⟨fun h0 h4 => ?_, fun s1 st hs hcopy => execHngLoad_starts e body s s1 st h hs hcopy,
      execHngStart_starts e body s h, fun h4 => ?_, fun h4 => ?_, ?_⟩⟩
    · rw [execHngLoad] at hload
      dsimp only at hload
      rw [h] at hload
      exact hload
    · rw [execHngStart, h] at hstart
      exact hstart
    · rw [h] at hhalt
      exact hhalt
    · rw [h] at hstats
      exact hstats
    · rw [execHngLoad] at hload
      dsimp only at hload
      rw [h] at hload
      exact hload.trans (congrArg Host.Outcome.next (if_pos ⟨h0, h4⟩))
    · have hstay : s.hngHalt n = s := if_pos h4
      rw [h] at hhalt
      exact hhalt.trans (congrArg (fun t : State => Host.Outcome.next ((t.frameBoundary 5 n).done e 0x0803 0 [])) hstay)
    · rw [h] at hhalt
      exact hhalt.trans (congrArg (fun t : State => Host.Outcome.next ((t.frameBoundary 5 n).done e 0x0803 0 [])) (if_neg h4))
    · rw [h] at hstats
      refine ⟨_, hstats, ?_⟩
      simp only [List.length_append, leBytes_length]

end Sys2Proof.Machine
end

-- ==== O54 ====
section
/-!
SETTLED. Lanes lose lock, retrain, loop back and sleep.
-/

namespace Sys2Proof.Machine

/-- The figure of merit that a lane needs: the one set for PAM4, 72 otherwise (R345). -/
def State.fomLeast (s : State) (lane : Nat) : Nat :=
  let pam4 : Bool := match s.fab.portOfLane lane with
    | some p => p.kind != 3
    | none => s.hub.get1 LNK.LANE_CTL.PAM4 lane == 1
  if pam4 then s.hub.get LNK.CFG.FOM_MIN else 72

theorem execFomLowTimer_least (lane snr : Nat) (s : State) :
    execFomLowTimer lane snr s = .next (if s.hub.get1 LNK.LANE_STAT.STATE lane ≠ 3 ∨ s.fomLeast lane ≤ fomOf snr then s
      else ({ s with hub := (s.hub.set1 LNK.LANE_STAT.FOM lane (fomOf snr)).raiseRl { code := 0x1302, channel := chanId 13 lane, detail := [lane] } } :
        State).transient (chanId 13 lane)) := rfl

theorem State.fomLeast_of (s : State) (lane least : Nat) (pam4 : Prop)
    (hp : pam4 ↔ match s.fab.portOfLane lane with
      | some p => p.kind ≠ 3
      | none => s.hub.get1 LNK.LANE_CTL.PAM4 lane = 1)
    (h1 : pam4 → least = s.hub.get LNK.CFG.FOM_MIN) (h2 : ¬pam4 → least = 72) : s.fomLeast lane = least := by
  unfold State.fomLeast
  cases hport : s.fab.portOfLane lane with
  | none =>
    rw [hport] at hp
    dsimp only at hp ⊢
    by_cases h : pam4
    · rw [h1 h, if_pos (by simpa using hp.mp h)]
    · rw [h2 h, if_neg (by simpa using fun hh => h (hp.mpr hh))]
  | some p =>
    rw [hport] at hp
    dsimp only at hp ⊢
    by_cases h : pam4
    · rw [h1 h, if_pos (by simpa using hp.mp h)]
    · rw [h2 h, if_neg (by simpa using fun hh => h (hp.mpr hh))]

/-- What the adaptation of a training lane ends in (R344). -/
theorem execLaneAdaptDone_training (lane : Nat) (ok : Bool) (snr : Nat) (inv rev : Bool) (s : State)
    (h : s.hub.get1 LNK.LANE_STAT.STATE lane = 1 ∨ s.hub.get1 LNK.LANE_STAT.STATE lane = 2 ∨ s.hub.get1 LNK.LANE_STAT.STATE lane = 4) :
    execLaneAdaptDone lane ok snr inv rev s = .next (if ok then
        let t := s.islandBack (.lane lane)
        let h := ((t.hub.set1 LNK.LANE_STAT.STATE lane 3).set1 LNK.LANE_STAT.FOM lane (fomOf snr)).set1 LNK.LANE_STAT.POL_INV lane (if inv then 1 else 0)
        let s1 := ({ t with hub := h } : State).setLane lane { stored := true, retry := false }
        match s.fab.portOfLane lane with
        | some p =>
          let rev := if rev then 1 else 0
          let h1 := if p.kind = 1 then h.set1 LNK.ETH_STAT.REVERSED p.number rev
            else if p.kind = 2 then h.set1 LNK.JL_STAT.REVERSED p.number rev else h
          ({ s1 with hub := h1 } : State).portCheck p
        | none => s1
      else if (s.lnk.lane lane).retry then (s.permanent (chanId 13 lane) 1).handCheck
      else if s.start.calibrating then s
      else ({ s with hub := (s.hub.set1 LNK.LANE_STAT.STATE lane 4).raise { code := 0x1301, channel := chanId 13 lane, detail := [lane] } } :
        State).setLane lane { (s.lnk.lane lane) with retry := true }) :=
  congrArg Host.Outcome.next (if_neg (by omega))

/-- Settles O54: each event of a lane by its state, each write of LANE_CTL by whether it reaches the lane. -/
theorem lanes : Obligations.Lanes := by
  unfold Obligations.Lanes
  intro lane s st ev
  refine ⟨fun h => congrArg Host.Outcome.next (if_pos h), ?lost, ?adapt, ?fom, ?writes⟩
  case lost =>
    intro h t ht h1 s1
    subst ht
    have harm : exec (.laneLost lane) s = execLaneLost lane s := rfl
    rw [execLaneLost, if_neg (not_not_intro h)] at harm
    refine ⟨fun hp => ?_, fun p hp hk => ?_⟩
    · rw [hp] at harm
      exact harm
    · rw [hp] at harm
      exact harm.trans (congrArg Host.Outcome.next (if_pos hk))
  case adapt =>
    intro ok snr inv rev
    refine ⟨fun h1 h2 h4 => congrArg Host.Outcome.next (if_pos ⟨h1, h2, h4⟩), fun h => ⟨?_, fun hr => ?_, fun hr hc => ?_, fun hr hc => ?_⟩⟩
    · intro t ht h1
      subst ht
      have harm : exec (.laneAdaptDone lane true snr inv rev) s = _ := execLaneAdaptDone_training lane true snr inv rev s h
      rw [if_pos rfl] at harm
      dsimp only at harm
      refine ⟨fun hp => ?_, fun p hp hk => ?_⟩
      · rw [hp] at harm
        exact harm
      · rw [hp] at harm
        dsimp only at harm
        rw [if_pos hk] at harm
        exact harm
    all_goals
      have harm : exec (.laneAdaptDone lane false snr inv rev) s = _ := execLaneAdaptDone_training lane false snr inv rev s h
      rw [if_neg Bool.false_ne_true] at harm
    · exact harm.trans (congrArg Host.Outcome.next (if_pos hr))
    · exact harm.trans (congrArg Host.Outcome.next ((if_neg (Bool.eq_false_iff.mp hr)).trans (if_pos hc)))
    · exact harm.trans (congrArg Host.Outcome.next ((if_neg (Bool.eq_false_iff.mp hr)).trans (if_neg (Bool.eq_false_iff.mp hc))))
  case fom =>
    intro snr pam4 least h1 h2
    have harm : exec (.fomLowTimer lane snr) s = _ := execFomLowTimer_least lane snr s
    rw [State.fomLeast_of s lane least pam4 Iff.rfl h1 h2] at harm
    refine ⟨fun h => harm.trans (congrArg Host.Outcome.next (if_pos h.symm)), fun hlt hst => harm.trans (congrArg Host.Outcome.next (if_neg ?_))⟩
    exact not_or.mpr ⟨not_not_intro hst, Nat.not_le.mpr hlt⟩
  case writes =>
    intro val
    have hretrain : exec (.laneRetrain lane) s = execLaneRetrain lane s := rfl
    have hloop : exec (.laneLoopbackWrite lane val) s = execLaneLoopbackWrite lane val s := rfl
    have hsleep : exec (.laneSleepWrite lane val) s = execLaneSleepWrite lane val s := rfl
    rw [execLaneRetrain] at hretrain
    rw [execLaneLoopbackWrite] at hloop
    rw [execLaneSleepWrite] at hsleep
    refine ⟨fun h => ?_, fun hin hlane => ?_⟩
    · rcases h with h | h
      · have hout := Bool.eq_false_iff.mp h
        exact ⟨hretrain.trans (congrArg Host.Outcome.next (if_neg hout)), hloop.trans (congrArg Host.Outcome.next (if_neg hout)),
          hsleep.trans (congrArg Host.Outcome.next (if_neg hout))⟩
      · have h1 : s.laneRetrain lane = s := if_pos (.inr (.inr h))
        have h2 : s.laneLoop lane val = s := if_pos h
        have h3 : s.laneSleepWrite lane val = s := if_pos h
        rw [h1, ite_self] at hretrain
        rw [h2, ite_self] at hloop
        rw [h3, ite_self] at hsleep
        exact ⟨hretrain, hloop, hsleep⟩
    · rw [if_pos hin] at hretrain hloop hsleep
      refine ⟨fun h => ?_, fun h0 h5 hp => ?_, fun h hh => ?_, fun hp h hh => ?_⟩
      · exact hretrain.trans (congrArg Host.Outcome.next (if_pos (h.imp id .inl)))
      · have hgo : ¬(st = 0 ∨ st = 5 ∨ s.hub.unitCount 13 ≤ lane) := by omega
        have hadapt : s.laneAdapt lane = { s with hub := (s.hub.set1 LNK.LANE_STAT.STATE lane 2).set1 LNK.LANE_STAT.FOM lane 0 } := if_neg h5
        rw [State.laneRetrain] at hretrain
        dsimp only at hretrain
        rw [if_neg hgo, hp, hadapt] at hretrain
        exact hretrain
      · subst hh
        exact hloop.trans (congrArg Host.Outcome.next (if_neg (Nat.not_le.mpr hlane)))
      · subst hh
        rw [State.laneSleepWrite] at hsleep
        dsimp only at hsleep
        rw [if_neg (Nat.not_le.mpr hlane), hp] at hsleep
        exact hsleep

end Sys2Proof.Machine
end
section
/-! SUPPORT. What a Jorras link does with a flit at its receiver (R351–R356, R359), and what its timers and handovers wait for (R357–R361). -/

namespace Sys2Proof.Machine

section
variable (s : State) (n : Nat) (b : List Byte) (types : Nat → Bool) (act : State → FlitHead → State)

/-- A flit at a link that does not listen does nothing while the core runs (R351). -/
theorem State.flitIn_deaf (lost : Bool) (h : s.jlListens n (headOf b).kind = false) (hf : s.hub.get GLB.STATUS.FROZEN = 0) :
    s.flitIn n b lost types act = s := by
  rw [State.flitIn, h, hf]
  rfl

/-- A lost or bad flit is NAKed on an UP link (R352). -/
theorem State.flitIn_bad (lost : Bool) (h : s.jlListens n (headOf b).kind = true) (hbad : lost = true ∨ flitGood b = false) (h4 : s.jlState n = 4) :
    s.flitIn n b lost types act = s.jlNak n true := by
  have hc : (lost || !flitGood b) = true := by rcases hbad with hbad | hbad <;> simp [hbad]
  rw [State.flitIn, h, hc, h4]
  rfl

/-- A good flit reaches the action of the types it names. -/
theorem State.flitIn_good (h : s.jlListens n (headOf b).kind = true) (hgood : flitGood b = true) :
    s.flitIn n b false types act = if types (headOf b).kind then act s (headOf b) else s := by
  rw [State.flitIn, h, hgood]
  rfl

end

/-- A link reads back as it was set. -/
theorem State.link_setLink (s : State) (n : Nat) (x : JlLink) : (s.setLink n x).lnk.link n = x :=
  congrArg (fun o => o.getD {}) (kvGet_kvPut_self n x s.lnk.links)

/-- Outside HOLD a flit only marks when the link was last heard. -/
theorem State.jlHeard_of_ne (s : State) (n : Nat) (h : s.jlState n ≠ 8) :
    s.jlHeard n = s.setLink n { s.lnk.link n with heard := s.hub.elapsed } := if_neg h

/-- A hello at a link in HELLO marks the link as heard, and leads to the state that its fields name (R355). -/
theorem State.helloIn_hello (s : State) (n : Nat) (head : FlitHead) (y : JlHello) (h : s.jlState n = 3) (s1 : State)
    (h1 : s.setLink n { s.lnk.link n with heard := s.hub.elapsed } = s1) :
    s.helloIn n head y =
      if s1.helloState y = 4 then
        (if (s.lnk.link n).open_ then
          ((({ s1 with hub := (s1.hub.set1 LNK.JL_STAT.PEER n y.device).set1 LNK.JL_LEVEL.LEVEL n (min (s1.hub.get IMG.INTEROP.LEVEL) y.hi) } :
            State).jlEnter n 4).jlHead n head)
        else (((({ s1 with hub := (s1.hub.set1 LNK.JL_STAT.PEER n y.device).set1 LNK.JL_LEVEL.LEVEL n (min (s1.hub.get IMG.INTEROP.LEVEL) y.hi) } :
            State).setLink n { s1.lnk.link n with credits := y.credits, open_ := true }).jlEnter n 4).jlPump n))
      else s1.jlEnter n (s1.helloState y) := by
  have hheard := s.jlHeard_of_ne n (by omega)
  have hs1 : s1.jlState n = 3 := by subst h1; exact h
  have hopen : (s1.lnk.link n).open_ = (s.lnk.link n).open_ := by subst h1; rw [State.link_setLink]
  rw [State.helloIn, hheard, h1, hs1, ← hopen]
  rfl

/-- A hello of the device's own number is DUP_ID. -/
theorem State.helloState_dup (s : State) (y : JlHello) (h : y.device = s.hub.get LNK.CFG.DEVICE) : s.helloState y = 7 := if_pos h

/-- A hello of another cluster is MISMATCH. -/
theorem State.helloState_cluster (s : State) (y : JlHello) (h : y.device ≠ s.hub.get LNK.CFG.DEVICE)
    (hc : y.cluster ≠ s.hub.get64 LNK.CLUSTER_LO.TAG 0) : s.helloState y = 6 := (if_neg h).trans (if_pos (.inr hc))

/-- An IDLE flit on an UP link is its header. -/
theorem State.idleIn_up (s : State) (n : Nat) (h : FlitHead) (h4 : s.jlState n = 4) : s.idleIn n h = (s.jlHeard n).jlHead n h := by
  have hheard := s.jlHeard_of_ne n (by omega)
  have hs : (s.jlHeard n).jlState n = 4 := by rw [hheard]; exact h4
  rw [State.idleIn, hs]
  rfl

/-- A sequenced flit on an UP link is its header, where that leaves the link UP and the flit is not the one expected, a NAK (R352). -/
theorem State.seqIn_other (s : State) (h : FlitHead) (f : JlRx) (h4 : s.jlState f.link = 4) (w : State) (hw : (s.jlHeard f.link).jlHead f.link h = w)
    (hup : w.jlState f.link = 4) (hseq : h.seq ≠ (w.lnk.link f.link).got % 65536) : s.seqIn h f = w.jlNak f.link false := by
  have hs : (s.jlHeard f.link).jlState f.link = 4 := by rw [s.jlHeard_of_ne f.link (by omega)]; exact h4
  rw [State.seqIn]
  dsimp only
  rw [if_pos hs, hw, if_neg (not_not_intro hup), if_pos hseq]

/-- A sequenced flit that is expected on an UP link without MACsec is accepted, acknowledged and its credit returned (R352, R353). -/
theorem State.seqIn_next (s : State) (h : FlitHead) (f : JlRx) (h4 : s.jlState f.link = 4) (w : State) (hw : (s.jlHeard f.link).jlHead f.link h = w)
    (hup : w.jlState f.link = 4) (hseq : h.seq = (w.lnk.link f.link).got % 65536) (hsec : w.secured f.link = false) :
    s.seqIn h f = (((w.setLink f.link { w.lnk.link f.link with got := (w.lnk.link f.link).got + 1, naked := false }).jlAccept f.link h
      ((f.bytes.drop 12).take (h.size false)) f).idleOut f.link false h.vc 1).jlPump f.link := by
  have hs : (s.jlHeard f.link).jlState f.link = 4 := by rw [s.jlHeard_of_ne f.link (by omega)]; exact h4
  rw [State.seqIn]
  dsimp only
  rw [if_pos hs, hw, if_neg (not_not_intro hup), if_neg (not_not_intro hseq), hsec]
  rfl

/-- Without a usable group of lanes a link shows no width, keeps the empty mask and goes DOWN (R356). -/
theorem State.linkMask_none (s : State) (p : PortRec) (mask : Nat) (h : widestGroup p.lanes (mask &&& s.jlUsable p) = none) :
    s.linkMask p mask =
      ((({ s with
          hub := (s.hub.set1 LNK.JL_STAT.WIDTH p.number 0).set1 LNK.JL_STAT.MASK p.number 0
          lnk := { s.lnk with narrow := kvPut p.number 0 s.lnk.narrow } } : State).jlEnter p.number 1).handCheck) := by
  rw [State.linkMask, h]

/-- A mask whose widest group the link has already changes nothing. -/
theorem State.linkMask_same (s : State) (p : PortRec) (mask w : Nat)
    (h : widestGroup p.lanes (mask &&& s.jlUsable p) = some (w, s.hub.get1 LNK.JL_STAT.MASK p.number)) : s.linkMask p mask = s := by
  rw [State.linkMask, h]
  exact if_pos rfl

end Sys2Proof.Machine
end
section
/-! SUPPORT. The Jorras receivers' commands, timers and handovers, by what each is given. -/

namespace Sys2Proof.Machine

/-- A hello whose payload carries the MAGIC reaches the link. -/
theorem execHelloFlit_good (n : Nat) (b : List Byte) (s : State) (hl : s.jlListens n (headOf b).kind = true) (hg : flitGood b = true)
    (hk : (headOf b).kind = 1) :
    execHelloFlit n b s = .next (if (helloOf (b.drop 12)).magic then s.helloIn n (headOf b) (helloOf (b.drop 12)) else s) := by
  rw [execHelloFlit]
  refine congrArg Host.Outcome.next ((s.flitIn_good n b _ _ hl hg).trans ?_)
  rw [hk]
  rfl

/-- An IDLE flit reaches the link. -/
theorem execIdleFlit_good (n : Nat) (b : List Byte) (s : State) (hl : s.jlListens n (headOf b).kind = true) (hg : flitGood b = true)
    (hk : (headOf b).kind = 0) : execIdleFlit n b s = .next (s.idleIn n (headOf b)) := by
  rw [execIdleFlit]
  refine congrArg Host.Outcome.next ((s.flitIn_good n b _ _ hl hg).trans ?_)
  rw [hk]
  rfl

/-- An IDLE flit reaches the link as a NAK where its header says so. -/
theorem execNakReceive_good (n : Nat) (b : List Byte) (s : State) (hl : s.jlListens n (headOf b).kind = true) (hg : flitGood b = true)
    (hk : (headOf b).kind = 0) : execNakReceive n b s = .next (if (headOf b).nak then s.idleIn n (headOf b) else s) := by
  rw [execNakReceive]
  refine congrArg Host.Outcome.next ((s.flitIn_good n b _ _ hl hg).trans ?_)
  rw [hk]
  rfl

/-- A HOLD flit holds an UP link (R359). -/
theorem execHoldFlit_good (n : Nat) (b : List Byte) (s : State) (hl : s.jlListens n (headOf b).kind = true) (hg : flitGood b = true)
    (hk : (headOf b).kind = 8) :
    execHoldFlit n b s = .next (if s.jlState n = 4 then
      (s.jlEnter n 8).setLink n { (s.jlEnter n 8).lnk.link n with heard := s.hub.elapsed } else s) := by
  rw [execHoldFlit]
  refine congrArg Host.Outcome.next ((s.flitIn_good n b _ _ hl hg).trans ?_)
  rw [hk]
  rfl

/-- A LINK flit is its header on an UP link, and its mask narrows the link of a port with lanes that trains or is UP (R356). -/
theorem execLinkFlit_good (n : Nat) (b : List Byte) (s : State) (hl : s.jlListens n (headOf b).kind = true) (hg : flitGood b = true)
    (hk : (headOf b).kind = 9) (w : State) (p : PortRec)
    (hw : (if s.jlState n = 4 then (s.jlHeard n).jlHead n (headOf b) else s.jlHeard n) = w) (hp : w.fab.port 2 n = some p) :
    execLinkFlit n b s = .next (if p.mode = 0x1100 ∨ (w.jlState n ≠ 4 ∧ w.jlState n ≠ 5) then w else w.linkMask p (bodyU8 b 12)) := by
  rw [execLinkFlit]
  refine congrArg Host.Outcome.next ((s.flitIn_good n b _ _ hl hg).trans ?_)
  have ht : ((headOf b).kind == 9) = true := beq_iff_eq.mpr hk
  rw [if_pos ht]
  dsimp only
  rw [hw, hp]

/-- A sequenced flit reaches the link. -/
theorem execSequencedFlitReceive_good (f : JlRx) (s : State) (hl : s.jlListens f.link (headOf f.bytes).kind = true) (hg : flitGood f.bytes = true)
    (hlost : f.lost = false) (h2 : 2 ≤ (headOf f.bytes).kind) (h8 : (headOf f.bytes).kind ≠ 8) (h9 : (headOf f.bytes).kind ≠ 9) :
    execSequencedFlitReceive f s = .next (s.seqIn (headOf f.bytes) f) := by
  rw [execSequencedFlitReceive, hlost]
  refine congrArg Host.Outcome.next ((s.flitIn_good f.link f.bytes _ _ hl hg).trans (if_pos ?_))
  simp [h2, h8, h9]

/-- A hello is due where none was sent, or the last one is as old as the interval. -/
theorem helloDue_iff (o : Option Nat) (every now : Nat) :
    (o.map fun t => decide (t + every ≤ now)).getD true = true ↔ ∀ t, o = some t → t + every ≤ now := by
  cases o with
  | none => simp
  | some t => simp

/-- A handover's tail is over where it has switched and its time has passed. -/
theorem tailOver_iff (o : Option Nat) (every now : Nat) :
    (o.map fun t => decide (t + every ≤ now)).getD false = true ↔ ∃ t, o = some t ∧ t + every ≤ now := by
  cases o with
  | none => simp
  | some t => simp

/-- The hello timer of a link that says hello sends one when it is due (R355). -/
theorem execHelloTimer_hellos (n : Nat) (s : State) (hf : s.hub.get GLB.STATUS.FROZEN = 0)
    (hst : s.jlState n = 3 ∨ s.jlState n = 4 ∨ s.jlState n = 6 ∨ s.jlState n = 7) :
    execHelloTimer n s = .next (if (((s.lnk.link n).helloAt.map fun t =>
      decide (t + (if s.jlState n = 4 then 1000000000 else 1000000) ≤ s.hub.elapsed)).getD true) = true then s.helloOut n else s) := by
  have hfz : ¬s.hub.get GLB.STATUS.FROZEN = 1 := by omega
  have h1 : ¬s.jlState n = 1 := by omega
  have hin : [3, 4, 6, 7].contains (s.jlState n) = true := by rcases hst with h | h | h | h <;> rw [h] <;> rfl
  rw [execHelloTimer]
  refine congrArg Host.Outcome.next ((if_neg hfz).trans ((if_neg h1).trans ?_))
  simp only [hin, true_and]

/-- A tunnel's replay timer replays where a flit has stayed unacknowledged (R358). -/
theorem execTunnelReplayTimer_up (n : Nat) (s : State) (hf : s.hub.get GLB.STATUS.FROZEN = 0) (ht : s.hub.get1 LNK.JL_STAT.TUNNEL n = 1)
    (h4 : s.jlState n = 4) :
    execTunnelReplayTimer n s = .next (if ∃ e ∈ (s.lnk.link n).replay, e.at_ + max 1000000 (3 * (s.lnk.link n).srtt) ≤ s.hub.elapsed then s.jlReplay n
      else s) := by
  rw [execTunnelReplayTimer]
  simp only [hf, ht, h4, true_and, List.any_eq_true, decide_eq_true_eq]

end Sys2Proof.Machine
end
section
/-! SETTLED. Jorras links and handovers. -/

namespace Sys2Proof.Machine

/-- What a handover answers, and how it begins (R361). -/
theorem execHandover_answers (e : CmdEnv) (body : List Byte) (s : State) (c dev : Nat) (hc : bodyN body 0 2 % 4096 = c)
    (hd : bodyN body 2 2 % 2048 = dev) :
    (kvGet c s.fwd.confs = none → exec (.handover e body) s = .next (s.done e 0x0901 3 [])) ∧
    (∀ x, kvGet c s.fwd.confs = some x →
      (x.reached e.fn = false → exec (.handover e body) s = .next (s.done e 0x0901 5 [])) ∧
      (x.reached e.fn = true → x.gone = true ∨ kvHas c s.lnk.hand = true → exec (.handover e body) s = .next (s.done e 0x0901 6 [])) ∧
      (x.reached e.fn = true → x.gone = false → kvHas c s.lnk.hand = false → s.jlRoute dev ≠ none →
        ∀ h, h = ({ target := dev, tconf := bodyN body 4 2 % 4096, instant := s.hub.compactNs (bodyN body 8 4) (bodyN body 12 4), env := e } : Handover) →
        exec (.handover e body) s = .next ((s.setHand c h).jlSvc dev (s.copyMsg c h.tconf)))) := by
  have harm : exec (.handover e body) s = execHandover e body s := rfl
  rw [execHandover, hc, hd] at harm
  dsimp only at harm
  refine ⟨fun hget => ?_, fun x hget => ?_⟩
  · rw [hget] at harm
    exact harm
  · rw [hget] at harm
    dsimp only at harm
    refine ⟨fun hr => ?_, fun hr hg => ?_, fun hr hg hh hroute h hdef => ?_⟩
    · rw [hr] at harm
      exact harm
    · rw [hr, Bool.not_true, if_neg Bool.false_ne_true, if_pos hg] at harm
      exact harm
    · have hgo : ¬(x.gone = true ∨ kvHas c s.lnk.hand = true) := by simp [hg, hh]
      have hsome : ¬(s.jlRoute dev).isNone = true := by simpa using hroute
      rw [hr, Bool.not_true, if_neg Bool.false_ne_true, if_neg hgo, if_neg hsome] at harm
      subst hdef
      exact harm

/-- When and how a handover switches (R361). -/
theorem execHandoverSwitch_answers (c : Nat) (h : Handover) (s : State) (hget : kvGet c s.lnk.hand = some h) :
    (h.switched ≠ none ∨ s.hub.time.total < ceilDiv h.instant 125000 * 125000 ∨ s.hub.get GLB.STATUS.FROZEN = 1 →
      exec (.handoverSwitch c) s = .next s) ∧
    (h.switched = none → ceilDiv h.instant 125000 * 125000 ≤ s.hub.time.total → s.hub.get GLB.STATUS.FROZEN = 0 →
      (s.jlRoute h.target = none → exec (.handoverSwitch c) s = .next (s.handLost c h)) ∧
      (s.jlRoute h.target ≠ none → h.copied = false → exec (.handoverSwitch c) s = .next s) ∧
      (s.jlRoute h.target ≠ none → h.copied = true → exec (.handoverSwitch c) s =
        .next ((s.fwd.confOuts c).foldl (fun a i => a.handOut h.target i) (s.setHand c { h with switched := some s.hub.elapsed })))) := by
  have harm : exec (.handoverSwitch c) s = execHandoverSwitch c s := rfl
  rw [execHandoverSwitch, hget] at harm
  dsimp only at harm
  refine ⟨fun hw => ?_, fun hsw htime hf => ?_⟩
  · have hwait : h.switched.isSome ∨ s.hub.time.total < ceilDiv h.instant 125000 * 125000 ∨ s.hub.get GLB.STATUS.FROZEN = 1 :=
      hw.imp_left Option.isSome_iff_ne_none.mpr
    exact harm.trans (congrArg Host.Outcome.next (if_pos hwait))
  · have hgo : ¬(h.switched.isSome ∨ s.hub.time.total < ceilDiv h.instant 125000 * 125000 ∨ s.hub.get GLB.STATUS.FROZEN = 1) := by
      rw [hsw, hf]
      simpa using htime
    rw [if_neg hgo] at harm
    refine ⟨fun hr => ?_, fun hr hcp => ?_, fun hr hcp => ?_⟩
    · rw [hr, if_neg (fun hx => Bool.false_ne_true hx.2)] at harm
      exact harm
    · exact harm.trans (congrArg Host.Outcome.next (if_pos ⟨by rw [hcp]; rfl, Option.isSome_iff_ne_none.mpr hr⟩))
    · have hready : ¬((!h.copied) = true ∧ (s.jlRoute h.target).isSome = true) := by simp [hcp]
      rw [if_neg hready, if_neg (by simpa using hr)] at harm
      exact harm

/-- The tail of a handover ends a second after its switch, with the removal of the conference (R361). -/
theorem execHandoverTailEnd_answers (c : Nat) (h : Handover) (s : State) (hget : kvGet c s.lnk.hand = some h) (x : Conf)
    (hconf : kvGet c s.fwd.confs = some x) :
    (h.switched = none ∨ (∃ t, h.switched = some t ∧ s.hub.elapsed < t + 1000000000) → exec (.handoverTailEnd c) s = .next s) ∧
    (∀ t, h.switched = some t → t + 1000000000 ≤ s.hub.elapsed → s.hub.get GLB.STATUS.FROZEN = 0 → x.gone = false → s.fwd.confLegs c = [] →
      ∃ w : State, w = (({ s.dropHand c with fwd := { s.fwd with confs := kvPut c { x with gone := true } s.fwd.confs } } : State).removal
          ⟨0, c, some (h.env, 0x0901)⟩) ∧
        exec (.handoverTailEnd c) s = .next { w with hub := w.hub.raise { code := 0x130C, detail := [c, h.target, 0] } }) := by
  have harm : exec (.handoverTailEnd c) s = execHandoverTailEnd c s := rfl
  rw [execHandoverTailEnd, hget, hconf] at harm
  dsimp only at harm
  simp only [tailOver_iff] at harm
  refine ⟨fun hw => ?_, fun t ht hle hf hg hlegs => ⟨_, rfl, ?_⟩⟩
  · refine harm.trans (congrArg Host.Outcome.next (if_neg ?_))
    rintro ⟨⟨t, ht, hle⟩, -⟩
    rcases hw with hw | ⟨u, hu, hlt⟩
    · exact absurd (hw.symm.trans ht) (Option.some_ne_none t).symm
    · obtain rfl : u = t := Option.some.inj (hu.symm.trans ht)
      exact absurd hle (Nat.not_le.mpr hlt)
  · rw [if_pos ⟨⟨t, ht, hle⟩, hf⟩, hlegs, hg] at harm
    exact harm

/-- What a link does with a flit of one of the five kinds that are not sequenced (R351–R356, R359). -/
theorem plainFlits (n : Nat) (b : List Byte) (s : State) (h : FlitHead) (hh : headOf b = h) (hl : s.jlListens n h.kind = true) (hg : flitGood b = true) :
    (h.kind = 1 → ∀ y, helloOf (b.drop 12) = y →
      (y.magic = false → exec (.helloFlit n b) s = .next s) ∧
      (y.magic = true → s.jlState n = 3 → ∀ s1, s.setLink n { s.lnk.link n with heard := s.hub.elapsed } = s1 →
        (s1.helloState y = 4 → (s.lnk.link n).open_ = false → ∀ k : Hub,
          k = (s1.hub.set1 LNK.JL_STAT.PEER n y.device).set1 LNK.JL_LEVEL.LEVEL n (min (s1.hub.get IMG.INTEROP.LEVEL) y.hi) →
          exec (.helloFlit n b) s =
            .next (((({ s1 with hub := k } : State).setLink n { (s1.lnk.link n) with credits := y.credits, open_ := true }).jlEnter n 4).jlPump n)) ∧
        (y.device = s.hub.get LNK.CFG.DEVICE → exec (.helloFlit n b) s = .next (s1.jlEnter n 7)) ∧
        (y.device ≠ s.hub.get LNK.CFG.DEVICE → y.cluster ≠ s.hub.get64 LNK.CLUSTER_LO.TAG 0 → exec (.helloFlit n b) s = .next (s1.jlEnter n 6)))) ∧
    (h.kind = 0 → s.jlState n = 4 → exec (.idleFlit n b) s = .next ((s.jlHeard n).jlHead n h) ∧
      (h.nak = true → exec (.nakReceive n b) s = .next ((s.jlHeard n).jlHead n h)) ∧ (h.nak = false → exec (.nakReceive n b) s = .next s)) ∧
    (h.kind = 8 →
      (s.jlState n ≠ 4 → exec (.holdFlit n b) s = .next s) ∧
      (s.jlState n = 4 → ∃ t : State, exec (.holdFlit n b) s = .next t ∧ t.hub = (s.jlEnter n 8).hub ∧ (t.lnk.link n).heard = s.hub.elapsed)) ∧
    (∀ p w, h.kind = 9 → (if s.jlState n = 4 then (s.jlHeard n).jlHead n h else s.jlHeard n) = w → w.fab.port 2 n = some p →
      (p.mode = 0x1100 ∨ (w.jlState n ≠ 4 ∧ w.jlState n ≠ 5) → exec (.linkFlit n b) s = .next w) ∧
      (p.mode ≠ 0x1100 → w.jlState n = 4 ∨ w.jlState n = 5 → exec (.linkFlit n b) s = .next (w.linkMask p (bodyU8 b 12)))) := by
  subst hh
  refine ⟨fun hk y hy => ?_, fun hk h4 => ?_, fun hk => ?_, fun p w hk hw hp => ?_⟩
  · have harm : exec (.helloFlit n b) s = _ := execHelloFlit_good n b s hl hg hk
    rw [hy] at harm
    refine ⟨fun hm => ?_, fun hm h3 s1 h1 => ?_⟩
    · rw [hm] at harm
      exact harm
    · rw [hm, if_pos rfl, s.helloIn_hello n (headOf b) y h3 s1 h1] at harm
      refine ⟨fun hs ho k hk => ?_, fun hdev => ?_, fun hdev hcl => ?_⟩
      · subst hk
        rw [if_pos hs, ho] at harm
        exact harm
      · have h7 : s1.helloState y = 7 := s1.helloState_dup y (by subst h1; exact hdev)
        rw [h7] at harm
        exact harm
      · have h6 : s1.helloState y = 6 := s1.helloState_cluster y (by subst h1; exact hdev) (by subst h1; exact hcl)
        rw [h6] at harm
        exact harm
  · have hidle : exec (.idleFlit n b) s = _ := execIdleFlit_good n b s hl hg hk
    have hnak : exec (.nakReceive n b) s = _ := execNakReceive_good n b s hl hg hk
    rw [s.idleIn_up n _ h4] at hidle hnak
    exact ⟨hidle, fun h => hnak.trans (congrArg Host.Outcome.next (if_pos h)),
      fun h => hnak.trans (congrArg Host.Outcome.next (if_neg (Bool.eq_false_iff.mp h)))⟩
  · have harm : exec (.holdFlit n b) s = _ := execHoldFlit_good n b s hl hg hk
    exact ⟨fun h => harm.trans (congrArg Host.Outcome.next (if_neg h)), fun h => ⟨_, harm.trans (congrArg Host.Outcome.next (if_pos h)), rfl,
      congrArg JlLink.heard (State.link_setLink _ n _)⟩⟩
  · have harm : exec (.linkFlit n b) s = _ := execLinkFlit_good n b s hl hg hk w p hw hp
    exact ⟨fun h => harm.trans (congrArg Host.Outcome.next (if_pos h)),
      fun hm hs => harm.trans (congrArg Host.Outcome.next (if_neg (by omega)))⟩

/-- Settles O55: what a link that listens does with each kind of flit, what its timers wait for, and how a handover begins, switches and ends. -/
theorem jorrasLinks : Obligations.JorrasLinks := by
  unfold Obligations.JorrasLinks
  refine ⟨fun n b s => ⟨fun hl hf => ?_, fun hl hg h4 => ?_, fun hl hg => plainFlits n b s _ rfl hl hg, fun f hn hb hl h4 => ?_⟩,
    fun n s hf => ⟨fun rev => ?_, fun hst => ?_, fun h8 => ?_, fun p mask hp => ?_, fun ht h4 => ?_⟩,
    fun e body s => ⟨fun hu => ?_, fun hu => ?_, execHandover_answers e body s _ _ rfl rfl⟩,
    fun c h s hget => ?_⟩
  · have deaf := fun types act => congrArg (Host.Outcome.next (φ := Fault) (ρ := Refusal)) (s.flitIn_deaf n b types act false hl hf)
    exact ⟨deaf _ _, deaf _ _, deaf _ _, deaf _ _, deaf _ _⟩
  · have bad := fun types act => congrArg (Host.Outcome.next (φ := Fault) (ρ := Refusal)) (s.flitIn_bad n b types act false hl (.inr hg) h4)
    exact ⟨bad _ _, bad _ _, bad _ _, bad _ _, bad _ _⟩
  · subst hn hb
    refine ⟨fun hbad => ?_, fun w hlost hg h2 h8 h9 hw hup => ?_⟩
    · exact congrArg Host.Outcome.next (s.flitIn_bad f.link f.bytes _ _ f.lost hl hbad h4)
    · have harm : exec (.sequencedFlitReceive f) s = _ := execSequencedFlitReceive_good f s hl hg hlost h2 h8 h9
      exact ⟨fun hseq => harm.trans (congrArg Host.Outcome.next (s.seqIn_other _ f h4 w hw hup hseq)),
        fun hseq hsec => harm.trans (congrArg Host.Outcome.next (s.seqIn_next _ f h4 w hw hup hseq hsec))⟩
  · have harm : exec (.linkAligned n rev) s = execLinkAligned n rev s := rfl
    exact ⟨fun h => harm.trans (congrArg Host.Outcome.next (if_pos h)), fun h => harm.trans (congrArg Host.Outcome.next (if_neg (not_not_intro h)))⟩
  · have harm : exec (.helloTimer n) s = _ := execHelloTimer_hellos n s hf hst
    refine ⟨fun t ht hlt => harm.trans (congrArg Host.Outcome.next (if_neg fun hdue => ?_)),
      fun hdue => harm.trans (congrArg Host.Outcome.next (if_pos ((helloDue_iff _ _ _).mpr hdue)))⟩
    exact absurd ((helloDue_iff _ _ _).mp hdue t ht) (Nat.not_le.mpr hlt)
  · have harm : exec (.holdTimeout n) s = execHoldTimeout n s := rfl
    exact ⟨fun hle => harm.trans (congrArg Host.Outcome.next (if_neg fun h => absurd h.2.1 (Nat.not_lt.mpr hle))),
      fun hlt => harm.trans (congrArg Host.Outcome.next (if_pos ⟨h8, hlt, hf⟩))⟩
  · subst hp
    exact ⟨fun hnone => ⟨_, s.linkMask_none p mask hnone, rfl, kvGet_kvPut_self _ _ _⟩, fun w hsome => s.linkMask_same p mask w hsome⟩
  · have hreplay : exec (.tunnelReplayTimer n) s = _ := execTunnelReplayTimer_up n s hf ht h4
    have hsilent : exec (.tunnelSilenceTimeout n) s = execTunnelSilenceTimeout n s := rfl
    refine ⟨fun hyoung => hreplay.trans (congrArg Host.Outcome.next (if_neg ?_)), fun hold => hreplay.trans (congrArg Host.Outcome.next (if_pos hold)),
      fun hlt => hsilent.trans (congrArg Host.Outcome.next (if_neg fun h => absurd h.2.2.2 (Nat.not_le.mpr hlt))),
      fun hle => hsilent.trans (congrArg Host.Outcome.next (if_pos ⟨hf, ht, by omega, hle⟩))⟩
    rintro ⟨e, he, hle⟩
    exact absurd hle (Nat.not_le.mpr (hyoung e he))
  · have harm : exec (.linkStats e body) s = execLinkStats e body s := rfl
    exact harm.trans (congrArg Host.Outcome.next (if_pos hu))
  · have harm : exec (.linkStats e body) s = execLinkStats e body s := rfl
    exact ⟨_, harm.trans (congrArg Host.Outcome.next (if_neg (Nat.not_le.mpr hu))), by simp only [List.length_append, leBytes_length]⟩
  · obtain ⟨hwait, hgo⟩ := execHandoverSwitch_answers c h s hget
    exact ⟨hwait, hgo, fun x hconf => execHandoverTailEnd_answers c h s hget x hconf⟩

end Sys2Proof.Machine
end
section
/-! SUPPORT. The management port's open and authenticated commands, one equation for each refusal (R378, R379, Table 20.2). -/

namespace Sys2Proof.Machine

section
variable (s : State) (f : MgmtFrame) (cmd : Nat) (run : State → List Byte → State × Nat × List Byte)

/-- A port that does not answer leaves an open command. -/
theorem State.mgmtOpen_silent (h : s.mgmtAnswers = false) : s.mgmtOpen f cmd run = s := by
  rw [State.mgmtOpen, h]
  rfl

/-- An open transfer of another length is refused with LENGTH. -/
theorem State.mgmtOpen_unsized (h : s.mgmtAnswers = true) (hl : mgmtSized f false = false) : s.mgmtOpen f cmd run = s.reply cmd 4 [] := by
  rw [State.mgmtOpen, h, hl]
  rfl

/-- An open command of its length runs. -/
theorem State.mgmtOpen_runs (h : s.mgmtAnswers = true) (hl : mgmtSized f false = true) :
    s.mgmtOpen f cmd run = (run s (mgmtPayload f)).1.reply cmd (run s (mgmtPayload f)).2.1 (run s (mgmtPayload f)).2.2 := by
  rw [State.mgmtOpen, h, hl]
  rfl

end

section
variable (s : State) (f : MgmtFrame) (cmd : Nat) (run : State → List Byte → State × Nat) (s1 : State)
  (hs1 : s1 = { s with dbt := { s.dbt with nonce := none } }) (ha : s.mgmtAnswers = true)

include hs1 ha

/-- An authenticated transfer of another length is refused with LENGTH, and the nonce is used up. -/
theorem State.mgmtAuth_unsized (hl : mgmtSized f true = false) : s.mgmtAuth f cmd run = s1.reply cmd 4 [] := by
  rw [State.mgmtAuth, ha, hl, hs1]
  rfl

variable (hl : mgmtSized f true = true)

include hl

/-- Without a current nonce the command is refused. -/
theorem State.mgmtAuth_stale (hn : s.dbt.nonce ≠ some (mgmtNonce f) ∨ s.nonceOld = true) : s.mgmtAuth f cmd run = s1.authRefused cmd 1 := by
  rw [State.mgmtAuth, ha, hl, hs1]
  exact if_pos hn

variable (hn : s.dbt.nonce = some (mgmtNonce f)) (ho : s.nonceOld = false)

include hn ho

/-- What follows a current nonce: the key, the MAC and the start decide. -/
theorem State.mgmtAuth_current :
    s.mgmtAuth f cmd run =
      if s.dbt.mgmtKey = 0 then s1.authRefused cmd 3
      else if !f.macOk then s1.authRefused cmd 2
      else if s.start.phase = .stopped ∨ s.start.phase = .held then s1.reply cmd 6 []
      else (run s1 (mgmtPayload f)).1.reply cmd (run s1 (mgmtPayload f)).2 [] := by
  have hgo : ¬(s.dbt.nonce ≠ some (mgmtNonce f) ∨ s.nonceOld = true) := by simp [hn, ho]
  rw [State.mgmtAuth, ha, hl, hs1]
  exact if_neg hgo

/-- An authenticated command with a key and a right MAC runs on a device that is neither stopped nor held. -/
theorem State.mgmtAuth_runs (hk : s.dbt.mgmtKey ≠ 0) (hm : f.macOk = true) (hst : s.start.phase ≠ .stopped) (hh : s.start.phase ≠ .held) :
    s.mgmtAuth f cmd run = (run s1 (mgmtPayload f)).1.reply cmd (run s1 (mgmtPayload f)).2 [] := by
  rw [State.mgmtAuth_current s f cmd run s1 hs1 ha hl hn ho, if_neg hk, hm]
  exact if_neg (not_or.mpr ⟨hst, hh⟩)

end

theorem length_flatMap_of_length {α β : Type} (f : α → List β) (k : Nat) (h : ∀ x, (f x).length = k) (l : List α) :
    (l.flatMap f).length = k * l.length := by
  induction l with
  | nil => rfl
  | cons x l ih => rw [List.flatMap_cons, List.length_append, h, ih, List.length_cons, Nat.mul_succ, Nat.add_comm]

/-- A row of READ: as many registers as asked for, the first at the offset. -/
theorem registerRow (g : Nat → Nat) (n : Nat) (h : 1 ≤ n) :
    ((List.range n).flatMap fun k => leBytes 4 (g k)).length = 4 * n ∧
      ((List.range n).flatMap fun k => leBytes 4 (g k)).take 4 = leBytes 4 (g 0) := by
  refine ⟨?_, ?_⟩
  · exact (length_flatMap_of_length _ 4 (fun k => leBytes_length 4 (g k)) _).trans (congrArg (4 * ·) List.length_range)
  · obtain ⟨m, rfl⟩ := Nat.exists_eq_add_of_le' h
    rw [List.range_succ_eq_map, List.flatMap_cons]
    exact List.take_left' (leBytes_length 4 _)

/-- READ of 1 to 16 registers answers them. -/
theorem execRead_answers (f : MgmtFrame) (s : State) (h : s.mgmtAnswers = true) (hl : mgmtSized f false = true) (p : List Byte) (hp : mgmtPayload f = p) :
    (bodyU8 p 4 = 0 ∨ 16 < bodyU8 p 4 → exec (.read f) s = .next (s.reply 0x02 4 [])) ∧
    (1 ≤ bodyU8 p 4 → bodyU8 p 4 ≤ 16 → ∃ res, exec (.read f) s = .next (s.reply 0x02 0 res) ∧ res.length = 4 * bodyU8 p 4 ∧
      res.take 4 = leBytes 4 (s.hub.mgmtRead (bodyN p 0 4 / 4 * 4)).toNat) := by
  have harm : exec (.read f) s = execRead f s := rfl
  rw [execRead, s.mgmtOpen_runs f _ _ h hl, hp] at harm
  dsimp only at harm
  refine ⟨fun hn => ?_, fun h1 h16 => ?_⟩
  · rw [if_pos hn] at harm
    exact harm
  · rw [if_neg (by omega)] at harm
    obtain ⟨hlen, htake⟩ := registerRow (fun k => (s.hub.mgmtRead (bodyN p 0 4 / 4 * 4 + 4 * k)).toNat) (bodyU8 p 4) h1
    exact ⟨_, harm, hlen, htake⟩

/-- PROVISION writes a blank key, and answers KEY where one is there. -/
theorem execProvision_answers (f : MgmtFrame) (s : State) (h : s.mgmtAnswers = true) (hl : mgmtSized f false = true) (p : List Byte)
    (hp : mgmtPayload f = p) :
    (s.dbt.mgmtKey ≠ 0 → exec (.provision f) s = .next (s.reply 0x03 2 [])) ∧
    (s.dbt.mgmtKey = 0 → ∃ t, exec (.provision f) s = .next (State.reply t 0x03 0 []) ∧ t.dbt = { s.dbt with mgmtKey := leNat (p.take 32) } ∧
      t.hub = s.hub.set DBT.STATUS.MGMT_KEY (if leNat (p.take 32) = 0 then 0 else 1)) := by
  have harm : exec (.provision f) s = execProvision f s := rfl
  rw [execProvision, s.mgmtOpen_runs f _ _ h hl, hp] at harm
  dsimp only at harm
  refine ⟨fun hk => ?_, fun hk => ?_⟩
  · rw [if_pos hk] at harm
    exact harm
  · rw [if_neg (not_not_intro hk)] at harm
    exact ⟨_, harm, rfl, rfl⟩

/-- Each authenticated command of Table 20.2 is what follows its authentication. -/
theorem authenticated_commands (f : MgmtFrame) (key : Option (List Byte)) (s : State) :
    ∀ p ∈ [(0x10, Instr.setPower f), (0x11, .setPace f), (0x12, .setPolicy f), (0x13, .setBucket f), (0x14, .setKeyMax f), (0x15, .wrapKey f key),
        (0x16, .debug f), (0x17, .setBist f), (0x18, .bistRun f), (0x19, .march f), (0x1A, .retire f), (0x1B, .shutterFreeze f), (0x1B, .shutterRelease f),
        (0x1C, .warm f)],
      ∃ run, exec p.2 s = .next (s.mgmtAuth f p.1 run) := by
  simp only [List.forall_mem_cons, List.not_mem_nil, false_implies, implies_true, and_true]
  exact ⟨⟨_, rfl⟩, ⟨_, rfl⟩, ⟨_, rfl⟩, ⟨_, rfl⟩, ⟨_, rfl⟩, ⟨_, rfl⟩, ⟨_, rfl⟩, ⟨_, rfl⟩, ⟨_, rfl⟩, ⟨_, rfl⟩, ⟨_, rfl⟩, ⟨_, rfl⟩, ⟨_, rfl⟩, ⟨_, rfl⟩⟩

end Sys2Proof.Machine
end
section
/-! SETTLED. The management port's open commands and refusals. -/

namespace Sys2Proof.Machine

/-- Settles O56: each open command by its length and operands, and each authenticated one by the order of its refusals. -/
theorem managementPort : Obligations.ManagementPort := by
  unfold Obligations.ManagementPort
  refine ⟨fun f s => ⟨fun h => ?_, fun h => ⟨fun hl => ?_, fun hl => ?_, ?_⟩, fun hlt => ?_, fun hle => ?_⟩, fun f key s ha p hp s1 hs1 => ?_⟩
  · have hunknown : exec (.mgmtUnknownCommand f) s = .next s := by
      have harm : exec (.mgmtUnknownCommand f) s = execMgmtUnknownCommand f s := rfl
      rw [execMgmtUnknownCommand, h] at harm
      exact harm
    have silent := fun cmd run => congrArg (Host.Outcome.next (φ := Fault) (ρ := Refusal)) (s.mgmtOpen_silent f cmd run h)
    exact ⟨silent _ _, silent _ _, silent _ _, hunknown⟩
  · have unsized := fun cmd run => congrArg (Host.Outcome.next (φ := Fault) (ρ := Refusal)) (s.mgmtOpen_unsized f cmd run h hl)
    exact ⟨unsized _ _, unsized _ _, unsized _ _⟩
  · obtain ⟨hbad, hgood⟩ := execRead_answers f s h hl _ rfl
    obtain ⟨hkey, hblank⟩ := execProvision_answers f s h hl _ rfl
    exact ⟨⟨_, _, congrArg Host.Outcome.next (s.mgmtOpen_runs f _ _ h hl), rfl, rfl⟩, hbad, hgood, hkey, hblank⟩
  · have harm : exec (.mgmtUnknownCommand f) s = execMgmtUnknownCommand f s := rfl
    rw [execMgmtUnknownCommand, h] at harm
    exact harm
  · have harm : exec .nonceExpiry s = execNonceExpiry s := rfl
    refine harm.trans (congrArg Host.Outcome.next (if_neg ?_))
    rw [State.nonceOld, decide_eq_true_eq]
    exact Nat.not_le.mpr hlt
  · have harm : exec .nonceExpiry s = execNonceExpiry s := rfl
    refine harm.trans (congrArg Host.Outcome.next (if_pos ?_))
    rw [State.nonceOld, decide_eq_true_eq]
    exact hle
  · obtain ⟨run, harm⟩ := authenticated_commands f key s p hp
    refine ⟨fun hl => ?_, fun hl => ⟨fun hn => ?_, fun hn ho => ?_⟩⟩
    · exact harm.trans (congrArg Host.Outcome.next (s.mgmtAuth_unsized f _ run s1 hs1 ha hl))
    · exact harm.trans (congrArg Host.Outcome.next (s.mgmtAuth_stale f _ run s1 hs1 ha hl hn))
    · rw [s.mgmtAuth_current f _ run s1 hs1 ha hl hn ho] at harm
      refine ⟨fun hk => ?_, fun hk hm => ?_, fun hk hm hst => ?_⟩
      · exact harm.trans (congrArg Host.Outcome.next (if_pos hk))
      · rw [if_neg hk, hm] at harm
        exact harm
      · rw [if_neg hk, hm] at harm
        exact harm.trans (congrArg Host.Outcome.next (if_pos hst))

end Sys2Proof.Machine
end
section
/-! SETTLED. What an accepted management command does. -/

namespace Sys2Proof.Machine

/-- The schedule of a type's self-tests starts again where it is enabled anew or its hours change after service has opened. -/
theorem bistAgain_iff (s : State) (on hours : Nat) :
    ((on != 0 && (s.hub.get DBT.BIST_CTL.ENABLE == 0 || s.hub.get DBT.BIST_CTL.HOURS != hours)) = true ∧ s.start.opened = true) ↔
      on ≠ 0 ∧ s.start.opened = true ∧ (s.hub.get DBT.BIST_CTL.ENABLE = 0 ∨ s.hub.get DBT.BIST_CTL.HOURS ≠ hours) := by
  simp only [Bool.and_eq_true, Bool.or_eq_true, bne_iff_ne, beq_iff_eq]
  exact ⟨fun ⟨⟨hon, hnew⟩, ho⟩ => ⟨hon, ho, hnew⟩, fun ⟨hon, ho, hnew⟩ => ⟨⟨hon, hnew⟩, ho⟩⟩

/-- A choice guarded by the schedule's beginning anew. -/
theorem bistAgain_choice (s t u r : State) (on hours : Nat)
    (hr : r = if (on != 0 && (s.hub.get DBT.BIST_CTL.ENABLE == 0 || s.hub.get DBT.BIST_CTL.HOURS != hours)) = true ∧ s.start.opened = true then t else u) :
    (on ≠ 0 → s.start.opened = true → s.hub.get DBT.BIST_CTL.ENABLE = 0 ∨ s.hub.get DBT.BIST_CTL.HOURS ≠ hours → r = t) ∧
    (on = 0 ∨ s.start.opened = false ∨ (s.hub.get DBT.BIST_CTL.ENABLE ≠ 0 ∧ s.hub.get DBT.BIST_CTL.HOURS = hours) → r = u) := by
  refine ⟨fun hon ho hnew => hr.trans (if_pos ((bistAgain_iff s on hours).mpr ⟨hon, ho, hnew⟩)), fun hno => hr.trans (if_neg fun h => ?_)⟩
  obtain ⟨hon, ho, hnew⟩ := (bistAgain_iff s on hours).mp h
  rcases hno with hno | hno | ⟨hen, hh⟩
  · exact hon hno
  · exact Bool.false_ne_true (hno.symm.trans ho)
  · exact hnew.elim hen (absurd hh)

/-- The SHUTTER command by its OP. -/
theorem State.shutterCmd_op (s : State) (p : List Byte) :
    (bodyU8 p 0 = 0 → s.shutterCmd p = (s.release (bodyU8 p 1 != 0), 0)) ∧ (bodyU8 p 0 = 1 → s.shutterCmd p = (s.shutterTrigger 2, 0)) ∧
    (2 ≤ bodyU8 p 0 → s.shutterCmd p = (s, 5)) := by
  refine ⟨fun h => by simp [State.shutterCmd, h], fun h => by simp [State.shutterCmd, h], fun h => ?_⟩
  obtain ⟨k, hk⟩ := Nat.exists_eq_add_of_le' h
  simp [State.shutterCmd, hk]

/-- Settles O57: each accepted command's effect, on the device that has used up its nonce. -/
theorem authenticatedCommands : Obligations.AuthenticatedCommands := by
  unfold Obligations.AuthenticatedCommands
  intro f s ha hl hn ho hk hm hst hh s1 hs1 p
  have runs := fun cmd run => congrArg (Host.Outcome.next (φ := Fault) (ρ := Refusal)) (s.mgmtAuth_runs f cmd run s1 hs1 ha hl hn ho hk hm hst hh)
  have hhub : s1.hub = s.hub := by rw [hs1]
  have hmem : s1.mem = s.mem := by rw [hs1]
  have hstart : s1.start = s.start := by rw [hs1]
  obtain ⟨hrel, hfrz, hother⟩ := s1.shutterCmd_op p
  rw [← hhub, ← hmem, ← hstart]
  refine ⟨⟨_, runs _ _, rfl⟩, ⟨_, runs _ _, rfl⟩, fun w hw => ?policy, ⟨_, runs _ _, rfl⟩, fun h1 h7 => ?keyMax, runs _ _, fun k => ⟨_, runs _ _, rfl⟩,
    ⟨_, _, runs _ _, rfl, rfl⟩, fun t ht => ?bist, fun hb => ?bistBusy, fun hb => ?bistRun, fun hc => ?marchBusy, fun hc => ?march, runs _ _,
    fun h1 => ?freeze, fun h0 => ?release, fun h2 => ?unknown, runs _ _⟩
  case policy =>
    subst hw
    exact ⟨_, _, runs _ _, rfl, rfl⟩
  case keyMax => exact ⟨_, (runs _ _).trans (congrArg (fun t : State => Host.Outcome.next (t.reply 0x14 0 [])) (if_pos ⟨h1, h7⟩)), rfl⟩
  case bist =>
    have hon : (if (bodyU8 p 0 != 0) = true then 1 else 0) = if bodyU8 p 0 ≠ 0 then 1 else 0 := by simp only [bne_iff_ne]
    have harm : exec (.setBist f) s = _ := runs _ _
    dsimp only at harm
    rw [hon, ← ht] at harm
    obtain ⟨hanew, hsame⟩ := bistAgain_choice s1 t.bistRestart t _ (bodyU8 p 0) (bodyU8 p 1) rfl
    exact ⟨fun h1 h2 h3 => harm.trans (congrArg (fun t : State => Host.Outcome.next (t.reply 0x17 0 [])) (hanew h1 h2 h3)),
      fun h => harm.trans (congrArg (fun t : State => Host.Outcome.next (t.reply 0x17 0 [])) (hsame h))⟩
  case bistBusy =>
    have harm : exec (.bistRun f) s = _ := runs _ _
    dsimp only at harm
    rw [if_neg (Bool.eq_false_iff.mp hb)] at harm
    exact harm
  case bistRun =>
    have harm : exec (.bistRun f) s = _ := runs _ _
    dsimp only at harm
    rw [if_pos hb] at harm
    exact ⟨_, harm, rfl⟩
  case marchBusy =>
    have harm : exec (.march f) s = _ := runs _ _
    dsimp only at harm
    rw [if_neg (Bool.eq_false_iff.mp hc)] at harm
    exact harm
  case march =>
    have harm : exec (.march f) s = _ := runs _ _
    dsimp only at harm
    rw [if_pos hc] at harm
    exact ⟨_, harm, rfl⟩
  case freeze => exact (runs 0x1B State.shutterCmd).trans (congrArg (fun r : State × Nat => Host.Outcome.next (r.1.reply 0x1B r.2 [])) (hfrz h1))
  case release => exact (runs 0x1B State.shutterCmd).trans (congrArg (fun r : State × Nat => Host.Outcome.next (r.1.reply 0x1B r.2 [])) (hrel h0))
  case unknown =>
    have harm := (runs 0x1B State.shutterCmd).trans (congrArg (fun r : State × Nat => Host.Outcome.next (r.1.reply 0x1B r.2 [])) (hother h2))
    exact ⟨harm, harm⟩

end Sys2Proof.Machine
end
section
/-! SUPPORT. What a resume leaves of the Deadbolt and of the start: sending over Jorras, the gate lists and the doorbells keep both (R392). -/

namespace Sys2Proof.Machine

/-- The parts that a Shutter's course turns on. -/
def State.course (s : State) : DbtSt × StartSt := (s.dbt, s.start)

theorem foldl_course {β : Type} {f : State → β → State} (hf : ∀ a x, (f a x).course = a.course) (l : List β) (s : State) :
    (l.foldl f s).course = s.course := by
  induction l generalizing s with
  | nil => rfl
  | cons x l ih => rw [List.foldl_cons, ih, hf]

theorem State.QueuesOnly.course {a b : State} (h : a.QueuesOnly b) : b.course = a.course := by
  rw [h]
  rfl

theorem State.SlotsOnly.course {a b : State} (h : a.SlotsOnly b) : b.course = a.course := by
  rw [h]
  rfl

theorem State.course_hub (s : State) (h : Hub) : ({ s with hub := h } : State).course = s.course := rfl

theorem State.course_hubCip (s : State) (h : Hub) (c : CipSt) : ({ s with hub := h, cip := c } : State).course = s.course := rfl

theorem State.course_fab (s : State) (f : FabSt) : ({ s with fab := f } : State).course = s.course := rfl

theorem State.course_aud (s : State) (a : AudSt) : ({ s with aud := a } : State).course = s.course := rfl

theorem State.setLink_course (s : State) (n : Nat) (x : JlLink) : (s.setLink n x).course = s.course := rfl

/-! ### Sending over Jorras -/

theorem State.laneTake_course (s : State) (sash : Nat) (lane : Option Nat) (n : Nat) : (s.laneTake sash lane n).course = s.course := by
  cases lane with
  | none => rfl
  | some l => exact (State.course_fab _ _).trans (State.course_hubCip s _ _)

theorem State.cipDrop_course (s : State) (f : Fld) (n : Nat) (ev : Option Nat) : (s.cipDrop f n ev).course = s.course := State.course_hub s _

theorem State.cipIndex_course (s : State) (it : CipItem) : (s.cipIndex it).1.course = s.course := by
  have hfull : ((s.exhaust it.slot).cipDrop CIP.EXHAUST_DROP.COUNT it.slot none).course = s.course :=
    (State.cipDrop_course ..).trans (s.exhaust_slotsOnly it.slot).course
  unfold State.cipIndex
  dsimp only
  split
  · split
    · rfl
    · rfl
    · exact hfull
  · split
    · exact hfull
    · rfl
  · split
    · exact hfull
    · rfl
  · rfl

theorem ite_course {p : Prop} [Decidable p] {c : DbtSt × StartSt} {a b : State × Bool} (ha : a.1.course = c) (hb : b.1.course = c) :
    (if p then a else b).1.course = c := by
  split
  · exact ha
  · exact hb

/-- An item to be sent on which the pipelines agree retires no lane. -/
theorem State.cipher_course (s : State) (it : CipItem) (hm : it.mismatches = 0) (hd : it.dec = false) : (s.cipher it).1.course = s.course := by
  have hused : ∀ lane blocks, ((((s.cipIndex it).1.cipUse it.slot).laneTake it.sash lane blocks)).course = s.course := fun lane blocks =>
    ((State.laneTake_course ..).trans (State.cipUse_slotsOnly _ it.slot).course).trans (s.cipIndex_course it)
  have hno : ¬1 ≤ 0 := by decide
  have hno2 : ¬2 ≤ 0 := by decide
  unfold State.cipher
  simp only [hm, hd, Bool.false_eq_true, if_false, false_and, if_neg hno, if_neg hno2]
  have hdrop : ∀ f ev, (s.cipDrop f it.slot ev).course = s.course := fun f ev => s.cipDrop_course f it.slot ev
  refine ite_course rfl (ite_course (hdrop _ _) (ite_course (hdrop _ _) (ite_course (hdrop _ _) (ite_course (hdrop _ _) ?_))))
  exact ite_course (s.cipIndex_course it) (hused _ _)

theorem State.flitOut_course (s : State) (n : Nat) (h : FlitHead) (data : List Byte) : (s.flitOut n h data).course = s.course := by
  unfold State.flitOut
  dsimp only
  split
  · exact (State.sysSend_queuesOnly ..).course
  · split
    · rfl
    · split <;> rfl

theorem State.flitSend_course (s : State) (n : Nat) (f : JlFlit) : (s.flitSend n f).course = s.course := by
  unfold State.flitSend
  extract_lets x an slot pay head it r sealed data x1 s1
  have hr : r.1.course = s.course := by
    unfold r
    split
    · split
      · rfl
      · exact s.cipher_course it rfl rfl
    · rfl
  split
  · exact hr
  · exact (State.flitOut_course ..).trans ((State.course_hub s1 _).trans ((State.setLink_course r.1 n x1).trans hr))

theorem State.jlPumpList_course (n : Nat) (l : List JlFlit) (blocked : List Nat) (s : State) : (s.jlPumpList n l blocked).course = s.course := by
  induction l generalizing s blocked with
  | nil => rfl
  | cons f t ih =>
    rw [State.jlPumpList]
    split
    · exact ih ..
    · exact (ih ..).trans (s.flitSend_course n f)

theorem State.jlPump_course (s : State) (n : Nat) : (s.jlPump n).course = s.course := by
  unfold State.jlPump
  dsimp only
  split
  · exact State.jlPumpList_course ..
  · rfl

theorem State.jlForward_course (s : State) (dev : Nat) (fs : List JlFlit) (event : Bool) : (s.jlForward dev fs event).course = s.course := by
  unfold State.jlForward
  split
  · exact State.jlPump_course ..
  · rfl

theorem State.sinkOut_course (s : State) (k p : Nat) : (s.sinkOut k p).course = s.course := by
  unfold State.sinkOut
  dsimp only
  split
  · rfl
  · exact State.jlForward_course ..
  · rfl

/-! ### The resume's own steps -/

theorem State.linksResume_course (s : State) : s.linksResume.course = s.course := by
  unfold State.linksResume
  exact foldl_course (fun a p => a.course_hub _) _ s

theorem State.pubMissed_course (s : State) (n : Nat) : (s.pubMissed n).course = s.course := by
  have hpub : s.published.course = s.course := by
    unfold State.published
    split
    · exact s.course_hub _
    · rfl
  unfold State.pubMissed
  split
  · rfl
  · exact (State.course_hub _ _).trans hpub

theorem State.audMissed_course (s : State) (n : Nat) : (s.audMissed n).course = s.course := by
  unfold State.audMissed
  extract_lets first one s1
  have hone : ∀ a p k, (one a p k).course = a.course := fun a p k => (State.sinkOut_course _ k p).trans (a.course_aud _)
  have hs1 : s1.course = s.course := foldl_course (fun a i => foldl_course (fun b k => hone b (first + i) k) _ a) _ s
  exact (s1.course_aud _).trans hs1

theorem State.gateEntry_course (s : State) (p : Nat) : (s.gateEntry p).course = s.course := rfl

theorem State.gclTake_course (s : State) (p t : Nat) : (s.gclTake p t).course = s.course := by
  unfold State.gclTake
  split <;> rfl

theorem State.gclDue_course (s : State) : s.gclDue.course = s.course := by
  have htake : ∀ (a : State) (e : Nat × GateList), (if e.2.start ≤ a.hub.time.total then a.gclTake e.1 a.hub.time.total else a).course = a.course := by
    intro a e
    split
    · exact State.gclTake_course ..
    · rfl
  unfold State.gclDue
  extract_lets s1
  have hs1 : s1.course = s.course := foldl_course htake s.qsc.pending s
  have hgates := foldl_course (f := fun (a : State) (e : Nat × GateList) => a.gateEntry e.1) (fun a e => a.gateEntry_course e.1) s1.qsc.gates s1
  exact hgates.trans hs1

theorem State.judge_nil (s : State) : s.judge [] = s := rfl

/-- The core runs again with no fault to judge: neither a hold nor a resume is left, and the start stands where it did. -/
theorem State.unfreeze_course (s : State) (stat : Nat) (h : s.dbt.shutFaults = []) :
    (s.unfreeze stat).course = ({ s.dbt with shutFaults := [], shutHold := false, resuming := false, missed := 0 }, s.start) := by
  have hc : s.syncDrain.linksResume.course = s.course := (State.linksResume_course s.syncDrain).trans (s.course_fab _)
  obtain ⟨hdbt, hstart⟩ := Prod.mk.inj hc
  unfold State.unfreeze
  dsimp only
  rw [hdbt, h, State.judge_nil, State.course, hstart]

/-- The phase of the start stays. -/
theorem State.unfreeze_phase (s : State) (stat : Nat) (h : s.dbt.shutFaults = []) : (s.unfreeze stat).start.phase = s.start.phase :=
  congrArg (fun c : DbtSt × StartSt => c.2.phase) (s.unfreeze_course stat h)

end Sys2Proof.Machine
end
section
/-! SETTLED. The Shutter's course. -/

namespace Sys2Proof.Machine

/-- A freeze shows in FROZEN: what it writes and records after it lies elsewhere. -/
theorem State.freeze_frozen (s : State) (cause : Nat) (h : s.canon) : (s.freeze cause).hub.get GLB.STATUS.FROZEN = 1 := by
  have c0 : s.linksFreeze.hub.canon := (State.linksFreeze_canon s h).1
  generalize hh : s.linksFreeze.hub = k at c0
  have c1 := Hub.set_canon k GLB.STATUS.FROZEN 1 c0
  have c2 := Hub.set_canon _ TST.SHUT_STAT.STATE 1 c1
  have c3 := Hub.set_canon _ TST.SHUT_STAT.CAUSE cause c2
  have c4 := Hub.set_canon _ TST.SHUT_NS.TIME k.time.ns c3
  have c5 := Hub.set_canon _ TST.SHUT_SEC.TIME k.time.sec c4
  have hget : (s.freeze cause).hub.get GLB.STATUS.FROZEN =
      ((((((k.set GLB.STATUS.FROZEN 1).set TST.SHUT_STAT.STATE 1).set TST.SHUT_STAT.CAUSE cause).set TST.SHUT_NS.TIME k.time.ns).set
        TST.SHUT_SEC.TIME k.time.sec).raise { code := 0x1601, detail := [cause] }).get GLB.STATUS.FROZEN := by
    subst hh
    rfl
  rw [hget, Hub.raise_get c5 _ GLB.STATUS.FROZEN 0x1601 0 rfl rfl (by decide) (by decide), Hub.get_set_ne c4 _ _ _ (by decide),
    Hub.get_set_ne c3 _ _ _ (by decide), Hub.get_set_ne c2 _ _ _ (by decide), Hub.get_set_ne c1 _ _ _ (by decide),
    Hub.get_set_self c0 _ _ (by decide)]
  rfl

/-- After the core runs again with no fault to judge, FROZEN reads 0. -/
theorem State.unfreeze_running (s : State) (stat : Nat) (h : s.canon) (hf : s.dbt.shutFaults = []) : (s.unfreeze stat).hub.get GLB.STATUS.FROZEN = 0 := by
  have c0 : s.syncDrain.linksResume.hub.canon := (State.linksResume_canon _ (State.syncDrain_canon s h)).1
  have hdbt : s.syncDrain.linksResume.dbt = s.dbt := congrArg Prod.fst (State.linksResume_course s.syncDrain)
  unfold State.unfreeze
  dsimp only
  rw [hdbt, hf, State.judge_nil]
  refine (Hub.get_set_ne (Hub.set_canon _ _ _ c0) TST.SHUT_STAT.STATE GLB.STATUS.FROZEN stat (by decide)).trans ?_
  exact Hub.get_set_self c0 GLB.STATUS.FROZEN 0 (by decide)

/-- A warm start asked for on a running device that is not frozen begins at W1. -/
theorem State.warmAsk_running (s : State) (r : WarmReq) (hp : s.start.phase = .running) (hf : s.hub.get GLB.STATUS.FROZEN = 0) :
    (s.warmAsk r).start.phase = .warm 1 := by
  unfold State.warmAsk
  simp only [hp, hf]
  rfl

/-- A warm start asked for as the core runs again with no fault to judge begins at W1. -/
theorem State.unfreeze_warms (s : State) (r : WarmReq) (hp : s.start.phase = .running) (hf : s.dbt.shutFaults = []) (h : s.canon) :
    ((s.unfreeze 3).warmAsk r).start.phase = .warm 1 :=
  State.warmAsk_running _ r ((s.unfreeze_phase 3 hf).trans hp) (s.unfreeze_running 3 h hf)

/-- A release after 200 µs or more is a warm start at W1 (R392). -/
theorem State.letGo_long (s : State) (hns : 200000 ≤ s.shutNs) (hp : s.start.phase = .running) (hf : s.dbt.shutFaults = []) (h : s.canon) :
    (s.letGo false).start.phase = .warm 1 := by
  have hgo : ¬(s.shutNs < 200000 ∧ (!false) = true ∧ s.start.warmReq = none) := fun hx => absurd hx.1 (Nat.not_lt.mpr hns)
  unfold State.letGo
  dsimp only
  rw [if_neg hgo]
  have hc : ({ s with
      hub := s.hub.set TST.SHUT_DUR.NS (min s.shutNs 0xFFFFFFFF), start := { s.start with warmReq := none } } : State).canon := ⟨Hub.set_canon _ _ _ h.1, h.2⟩
  exact State.unfreeze_warms _ _ hp hf hc

/-- A release before 200 µs resumes, and leaves the start. -/
theorem State.letGo_short (s : State) (hns : s.shutNs < 200000) (hw : s.start.warmReq = none) :
    (s.letGo false).dbt.resuming = true ∧ (s.letGo false).dbt.relAt = s.hub.elapsed ∧ (s.letGo false).start = s.start := by
  have hgo : s.shutNs < 200000 ∧ (!false) = true ∧ s.start.warmReq = none := ⟨hns, rfl, hw⟩
  unfold State.letGo
  dsimp only
  rw [if_pos hgo]
  exact ⟨rfl, rfl, rfl⟩

/-- The end of a resume with no fault to judge. -/
theorem execResumeDone_runs (s : State) (hr : s.dbt.resuming = true) (hs : s.dbt.selfRefresh = false ∨ s.dbt.relAt + 1200 ≤ s.hub.elapsed)
    (hf : s.dbt.shutFaults = []) :
    ∃ t : State, exec .resumeDone s = .next t ∧
      t.course = ({ s.dbt with selfRefresh := false, shutFaults := [], shutHold := false, resuming := false, missed := 0 }, s.start) := by
  have hgo : ¬((!s.dbt.resuming) = true ∨ (s.dbt.selfRefresh = true ∧ s.hub.elapsed < s.dbt.relAt + 1200)) := by
    rintro (h | ⟨hsr, hlt⟩)
    · rw [hr] at h
      exact Bool.false_ne_true h
    · rcases hs with hs | hs
      · exact Bool.false_ne_true (hs.symm.trans hsr)
      · exact absurd hlt (Nat.not_lt.mpr hs)
  have harm : exec .resumeDone s = execResumeDone s := rfl
  rw [execResumeDone] at harm
  dsimp only at harm
  rw [if_neg hgo] at harm
  refine ⟨_, harm, ?_⟩
  refine (State.gclDue_course _).trans ((State.audMissed_course _ _).trans ((State.pubMissed_course _ _).trans ?_))
  exact State.unfreeze_course _ 0 hf

/-- Settles O58: what freezes, holds and releases the core, and how a short and a long Shutter end. -/
theorem shutterCourse : Obligations.ShutterCourse := by
  unfold Obligations.ShutterCourse
  refine ⟨fun cause s harmed hp hf => ⟨_, rfl, ?_⟩, fun cause s h => s.freeze_frozen cause h, fun s => ⟨⟨_, rfl, rfl⟩, ⟨_, rfl, ?rise⟩, fun h => ?cool, fun hp hd => ?hot,
    fun core => ⟨fun h => ?_, fun h => ?_⟩, fun hf hr hn => ?enters, fun h => ?waits, s.letGo_short, s.letGo_long, fun h => ?early, fun hr hs hf => ?_⟩⟩
  · have hfz : ¬s.hub.get GLB.STATUS.FROZEN = 1 := by omega
    unfold State.shutterTrigger
    rw [if_pos harmed]
    simp only [hp, if_neg hfz]
    rfl
  case rise =>
    have harm : exec .shutterNRise s = execShutterNRise s := rfl
    rw [execShutterNRise] at harm
    simp only [Bool.not_eq_true'] at harm
    exact harm
  case cool =>
    have harm : exec .thermalTrigger s = execThermalTrigger s := rfl
    exact harm.trans (congrArg Host.Outcome.next (if_pos (h.imp_right fun h => by rw [h]; rfl)))
  case hot =>
    have harm : exec .thermalTrigger s = execThermalTrigger s := rfl
    exact ⟨_, rfl, harm.trans (congrArg Host.Outcome.next (if_neg (not_or.mpr ⟨hp, by rw [hd]; exact Bool.false_ne_true⟩)))⟩
  · have harm : exec (.lintelCoreFault core) s = execLintelCoreFault core s := rfl
    exact harm.trans (congrArg Host.Outcome.next (if_pos h))
  · have harm : exec (.lintelCoreFault core) s = execLintelCoreFault core s := rfl
    exact harm.trans (congrArg Host.Outcome.next (if_neg (Nat.not_le.mpr h)))
  case enters =>
    have harm : exec .hbmSelfRefreshEntry s = execHbmSelfRefreshEntry s := rfl
    exact harm.trans (congrArg Host.Outcome.next (if_pos ⟨hf, by rw [hr]; rfl, hn⟩))
  case waits =>
    have harm : exec .hbmSelfRefreshEntry s = execHbmSelfRefreshEntry s := rfl
    refine harm.trans (congrArg Host.Outcome.next (if_neg ?_))
    rintro ⟨hf, hr, hn⟩
    rcases h with h | h | h
    · exact h hf
    · rw [h] at hr
      exact Bool.false_ne_true hr
    · exact absurd hn (Nat.not_le.mpr h)
  case early =>
    have harm : exec .resumeDone s = execResumeDone s := rfl
    exact harm.trans (congrArg Host.Outcome.next (if_pos (h.imp_left fun h => by rw [h]; rfl)))
  · obtain ⟨t, ht, hcourse⟩ := execResumeDone_runs s hr hs hf
    obtain ⟨hdbt, hstart⟩ := Prod.mk.inj hcourse
    exact ⟨t, ht, by rw [hdbt], by rw [hdbt], by rw [hdbt], hstart⟩

end Sys2Proof.Machine
end
section
/-! SETTLED. Restarts, buckets, self-tests, march tests and the test port of the Deadbolt. -/

namespace Sys2Proof.Machine

/-- A mismatch restarts the Deadbolt, and is a Shutter trigger where the last one lies less than a second back (R377). -/
theorem execDbtLockstepMismatch_answers (s s1 : State)
    (h1 : s1 = { s with dbt := { s.dbt with restarting := true, mismatchAt := some s.hub.ticks, nonce := none } }) :
    ((∀ m, s.dbt.mismatchAt = some m → m + 125000000 < s.hub.ticks) → exec .dbtLockstepMismatch s = .next s1) ∧
    (∀ m, s.dbt.mismatchAt = some m → s.hub.ticks ≤ m + 125000000 → exec .dbtLockstepMismatch s = .next (s1.shutterTrigger 7)) := by
  have harm : exec .dbtLockstepMismatch s = execDbtLockstepMismatch s := rfl
  rw [execDbtLockstepMismatch] at harm
  dsimp only at harm
  rw [← h1] at harm
  cases hat : s.dbt.mismatchAt with
  | none =>
    rw [hat] at harm
    exact ⟨fun _ => harm.trans (congrArg Host.Outcome.next (if_neg Bool.false_ne_true)), fun m hm => absurd hm.symm (Option.some_ne_none m)⟩
  | some t =>
    rw [hat] at harm
    simp only [decide_eq_true_eq] at harm
    refine ⟨fun hold => harm.trans (congrArg Host.Outcome.next (if_neg (Nat.not_le.mpr (hold t rfl)))), fun m hm hle => ?_⟩
    obtain rfl : t = m := Option.some.inj hm
    exact harm.trans (congrArg Host.Outcome.next (if_pos hle))

/-- A leak of a channel with a bucket of its own that holds more than one count takes one, and begins the next interval (R381). -/
theorem State.leak_counted (s : State) (ch at_ : Nat) (r : ChanReg) (hr : s.hub.chan ch = r) (hn : r ≠ .none) (hp : r ≠ .page)
    (hc : 1 < s.hub.chanGet r DBT.CH.COUNT) :
    (s.leak ch at_).hub = s.hub.chanSet r DBT.CH.COUNT (s.hub.chanGet r DBT.CH.COUNT - 1) ∧
      kvGet ch (s.leak ch at_).dbt.leaks = some (at_, s.hub.leakNs) := by
  have h0 : ¬s.hub.chanGet r DBT.CH.COUNT - 1 = 0 := by omega
  cases r with
  | none => exact absurd rfl hn
  | page => exact absurd rfl hp
  | _ =>
    simp only [State.leak, hr, h0, false_and, if_false]
    exact ⟨trivial, kvGet_kvPut_self _ _ _⟩

/-- What ends a leak interval (R381). -/
theorem execBucketLeak_answers (ch : Nat) (s : State) (x : Nat × Nat) (hx : kvGet ch s.dbt.leaks = some x) :
    (s.hub.elapsed < x.1 + x.2 ∨ s.dbt.restarting = true → exec (.bucketLeak ch) s = .next s) ∧
    (∀ r, x.1 + x.2 ≤ s.hub.elapsed → s.dbt.restarting = false → s.hub.chan ch = r → r ≠ .none → r ≠ .page → 1 < s.hub.chanGet r DBT.CH.COUNT →
      ∃ t : State, exec (.bucketLeak ch) s = .next t ∧ t.hub = s.hub.chanSet r DBT.CH.COUNT (s.hub.chanGet r DBT.CH.COUNT - 1) ∧
        kvGet ch t.dbt.leaks = some (x.1 + x.2, s.hub.leakNs)) := by
  have harm : exec (.bucketLeak ch) s = execBucketLeak ch s := rfl
  rw [execBucketLeak, hx] at harm
  dsimp only at harm
  refine ⟨fun h => harm.trans (congrArg Host.Outcome.next (if_neg ?_)), fun r hle hres hr hn hp hc => ?_⟩
  · rintro ⟨hle, hres⟩
    rcases h with h | h
    · exact absurd hle (Nat.not_le.mpr h)
    · rw [h] at hres
      exact Bool.false_ne_true hres
  · rw [if_pos ⟨hle, by rw [hres]; rfl⟩] at harm
    exact ⟨_, harm, s.leak_counted ch _ r hr hn hp hc⟩

/-- What ends an interval of a type's schedule (R386). -/
theorem execBistScheduleTimer_answers (ty : Nat) (s : State) :
    (s.bistNow ty = false ∨ s.hub.get DBT.BIST_CTL.ENABLE = 0 ∨ s.start.opened = false ∨ s.dbt.restarting = true →
      exec (.bistScheduleTimer ty) s = .next s) ∧
    (s.bistNow ty = true → s.hub.get DBT.BIST_CTL.ENABLE ≠ 0 → s.start.opened = true → s.dbt.restarting = false → s.start.phase = .running →
      exec (.bistScheduleTimer ty) s = .next ((s.bistTurn ty).bistDue ty)) := by
  have harm : exec (.bistScheduleTimer ty) s = execBistScheduleTimer ty s := rfl
  rw [execBistScheduleTimer] at harm
  dsimp only at harm
  simp only [Bool.not_eq_true'] at harm
  refine ⟨fun h => harm.trans (congrArg Host.Outcome.next (if_pos h)), fun hnow hen ho hres hp => ?_⟩
  exact harm.trans (congrArg Host.Outcome.next ((if_neg (by simp [hnow, hen, ho, hres])).trans (if_pos hp)))

/-- What the end of a test does, by its signature (R387). -/
theorem execBistTestDone_answers (ty inst : Nat) (x : BistTest) (s : State)
    (hx : s.dbt.tests.find? (fun (t : BistTest) => t.ty = ty ∧ t.inst = inst) = some x) :
    (s.hub.get GLB.STATUS.FROZEN = 1 → ∀ pass, exec (.bistTestDone ty inst pass) s = .next s) ∧
    (s.hub.get GLB.STATUS.FROZEN ≠ 1 →
      (∃ s1 : State, s1 = { (s.bistOver 1 ty inst) with hub := (s.bistOver 1 ty inst).hub.raise { code := 0x1602, channel := chanId ty inst, sash := 0x402 } } ∧
        exec (.bistTestDone ty inst true) s = .next s1.markSpares) ∧
      (x.runs = 0 → ∃ t : State, exec (.bistTestDone ty inst false) s = .next t ∧
        t.dbt.tests = s.dbt.tests.map fun (y : BistTest) => if y = x then { y with runs := 1 } else y)) := by
  have harm : ∀ pass, exec (.bistTestDone ty inst pass) s = execBistTestDone ty inst pass s := fun _ => rfl
  simp only [execBistTestDone, hx] at harm
  refine ⟨fun hf pass => (harm pass).trans (congrArg Host.Outcome.next (if_pos hf)), fun hf => ⟨⟨_, rfl, ?_⟩, fun hr => ⟨s.bistMismatch x, ?_, ?_⟩⟩⟩
  · exact (harm true).trans (congrArg Host.Outcome.next ((if_neg hf).trans (if_pos rfl)))
  · exact (harm false).trans (congrArg Host.Outcome.next ((if_neg hf).trans (if_neg Bool.false_ne_true)))
  · unfold State.bistMismatch
    dsimp only
    rw [if_pos hr]

/-- The end of a march without failed words is recorded, and the page's contents are lost (R389). -/
theorem execMarchDone_clean (ch : Nat) (rest : List Nat) (twice : Bool) (s : State) (h : s.dbt.march = ch :: rest) :
    exec (.marchDone 0 twice) s = .next { s with
      mem := s.mem.marched ch, dbt := { s.dbt with march := rest }, hub := s.hub.raise { code := 0x1605, channel := ch, detail := [1] } } := by
  have harm : exec (.marchDone 0 twice) s = execMarchDone 0 twice s := rfl
  rw [execMarchDone, h] at harm
  exact harm

/-- What the test port shifts out (R393). -/
theorem State.tapOut_cases (s : State) (instr : Nat) :
    (s.hub.get DBT.DEBUG.PEEP = 0 → instr ≠ 0xFF → s.tapOut instr = .token 0 "idcode" [0x20E21597]) ∧
    (instr = 0xFF → s.tapOut instr = .token 0 "bypass" []) ∧
    (instr = 0x3C → s.hub.get DBT.DEBUG.PEEP = 1 → s.tapOut instr = .token 0 "image" (s.stateImage.map BitVec.toNat)) := by
  unfold State.tapOut
  refine ⟨fun h0 hne => ?_, fun hff => ?_, fun h3 h1 => if_pos ⟨h3, h1⟩⟩
  · exact (if_neg (by omega)).trans (if_neg hne)
  · exact (if_neg (by omega)).trans (if_pos hff)

/-- Settles O59: each of the Deadbolt's events by what it is given. -/
theorem deadboltEvents : Obligations.DeadboltEvents := by
  unfold Obligations.DeadboltEvents
  intro s
  refine ⟨execDbtLockstepMismatch_answers s, fun h => ?calm, fun h => ⟨_, rfl, ?restart⟩, fun ch h => ?noLeak, fun ch x hx => execBucketLeak_answers ch s x hx,
    fun ty => execBistScheduleTimer_answers ty s, fun ty inst x hx => execBistTestDone_answers ty inst x s hx,
    fun ch rest twice h => ⟨_, execMarchDone_clean ch rest twice s h, rfl, rfl, rfl⟩, fun h words twice => ?noMarch, fun instr => ?_⟩
  case calm =>
    have harm : exec .dbtRestart s = execDbtRestart s := rfl
    exact harm.trans (congrArg Host.Outcome.next (if_pos (by rw [h]; rfl)))
  case restart =>
    have harm : exec .dbtRestart s = execDbtRestart s := rfl
    exact harm.trans (congrArg Host.Outcome.next (if_neg (by rw [h]; exact Bool.false_ne_true)))
  case noLeak =>
    have harm : exec (.bucketLeak ch) s = execBucketLeak ch s := rfl
    rw [execBucketLeak, h] at harm
    exact harm
  case noMarch =>
    have harm : exec (.marchDone words twice) s = execMarchDone words twice s := rfl
    rw [execMarchDone, h] at harm
    exact harm
  · obtain ⟨hid, hbypass, himage⟩ := s.tapOut_cases instr
    have harm : ∀ m, s.tapOut instr = m → exec (.peepTapShift instr) s = .next { s with hub := s.hub.emit m } := fun m hm => hm ▸ rfl
    exact ⟨fun h0 hne => ⟨_, harm _ (hid h0 hne), rfl⟩, fun h => ⟨_, harm _ (hbypass h), rfl⟩, fun h3 h1 => ⟨_, harm _ (himage h3 h1), rfl⟩⟩

end Sys2Proof.Machine
end
